-- ==== Sys2Proof/Word.lean ====
section
/-! DEFINITION. The word types of the KV-4810 and their plainest arithmetic (R4, R7 of 00_scope.md). -/

namespace Sys2Proof

/-- One byte of a memory or a frame. -/
abbrev Byte := BitVec 8

/-- A 32-bit register word (R20). -/
abbrev Reg32 := BitVec 32

/-- A 64-bit register of a sequencer, an instruction word, a binary64 pattern (Table 3.1). -/
abbrev Word := BitVec 64

/-- R7: sequence number `a` is newer than `b` when (a − b) mod 2^32 lies in 1 to 2^31 − 1. -/
def seqNewer (a b : BitVec 32) : Bool :=
  let d := (a - b).toNat
  0 < d && d < 2 ^ 31

end Sys2Proof
end

