-- ==== Sys2Proof/Types.lean ====
section
/-! DEFINITION. The plain data types that the commands' operands and the state share: register names of the
sequencers, qualities, management states, modes, frames and messages, each as its chapter of spec/ lays it out. -/

namespace Sys2Proof

/-- Side of a pair (R297); `false` is side A, `true` side B, as the FLAGS bit of Table 13.1 codes it. -/
abbrev Side := Bool

/-- Quality codes of Table 4.4. -/
inductive Qual where
  | good | stale | forced | substituted | bad | retired
  deriving DecidableEq, Repr, Inhabited

/-- Management states of Table 1.2. -/
inductive MState where
  | inService | spare | suspect | retired | offline | testing
  deriving DecidableEq, Repr, Inhabited

/-- Operating modes of Table 1.3. -/
inductive Mode where
  | recall | test | halt | active | standby | resync | safehold | save
  deriving DecidableEq, Repr, Inhabited

/-- The levels of the strap balls `CSC_ID[2:0]`, `RDU_SIDE` and `BOOT_SRC[1:0]` (R418). -/
structure Straps where
  cscId : Fin 8
  side : Side
  bootSrc : Fin 4
  deriving DecidableEq, Repr, Inhabited

/-! ### KCIS operands (Table 3.2) -/

/-- A sequencer SQ0–SQ17. -/
abbrev Sq := Fin 18
/-- A register w0–w31. -/
abbrev Reg := Fin 32
/-- A predicate p0–p7. -/
abbrev Pred := Fin 8
/-- An accumulator, acc0 (`false`) or acc1 (`true`). -/
abbrev Acc := Bool

/-- The guard of an instruction word (R49): G = 0, or p[GP] tested, inverted when GN = 1. -/
inductive Guard where
  | always
  | on (p : Pred) (neg : Bool)
  deriving DecidableEq, Repr, Inhabited

/-- SPACE of a memory instruction: 0 data memory D, 1 retained area R (R51). -/
inductive Space where
  | data | retained
  deriving DecidableEq, Repr, Inhabited

/-- SIZE of a memory access (Table 3.4). -/
inductive Size where
  | b8 | b16 | b32 | b64
  deriving DecidableEq, Repr, Inhabited

/-- Compare conditions of CMP and CMPI (SUB of Table 3.5). -/
inductive Cond where
  | eq | ne | lt | ge | ltu | geu
  deriving DecidableEq, Repr

/-- Predicate functions of PLOG (SUB of Table 3.5). -/
inductive PFun where
  | and | or | xor | andn | not | set | clr | mov
  deriving DecidableEq, Repr

/-- Conditions of FCMP (SUB[3:1] of Table 3.7). -/
inductive FCond where
  | eq | lt | le | un
  deriving DecidableEq, Repr

/-- Precision p of a floating-point instruction: SUB[0] (R56). -/
inductive Prec where
  | double | single
  deriving DecidableEq, Repr

/-- Conversions of Table 3.8. -/
inductive Cvt where
  | qd | dq | id | di | sd | ds | qs | sq
  deriving DecidableEq, Repr

/-- Mode m of EDGE (SUB[1:0]). -/
inductive EdgeMode where
  | rising | falling | either
  deriving DecidableEq, Repr

/-- Field f of LRD (SUB). -/
inductive LrdField where
  | output | process | setpoint | status
  deriving DecidableEq, Repr

/-- Field f of MBXST (SUB). -/
inductive MbxField where
  | status | count | tag
  deriving DecidableEq, Repr

/-! ### Severities, links and messages -/

/-- Event severities of Table 16.1. -/
inductive Sev where
  | info | notice | warning | critical
  deriving DecidableEq, Repr, Inhabited

/-- The carrier of a Vertex message: an Ethernet port or a CAN bus (R251, R253). -/
inductive Link where
  | port (p : Fin 16)
  | bus (n : Fin 24)
  deriving DecidableEq, Repr, Inhabited

/-- The endpoint of a UDP context: port, VLAN, 16-byte source address (IPv4 in mapped form, R279), source MAC
address and source UDP port (R251). On CAN only the bus and the identifier's side matter. -/
structure Endpoint where
  link : Link
  vlan : BitVec 16
  addr : BitVec 128
  mac : BitVec 48
  udpPort : BitVec 16
  deriving DecidableEq, Repr, Inhabited

/-- What a port puts into the frames it sends (R277, R278): its own side's address of the destination's family (IPv4 in
mapped form), its MAC address, the UDP port and the VLAN tag, priority in [14:12]. -/
structure NetSrc where
  addr : BitVec 128
  mac : BitVec 48
  udpPort : BitVec 16
  tag : Option (BitVec 16)
  deriving DecidableEq, Repr, Inhabited

/-- A request that a port answers itself (R278): its sender, the address it asks for, and the VLAN of its tag. -/
structure EchoSrc where
  addr : BitVec 128
  target : BitVec 128
  vlan : Option (BitVec 12)
  deriving DecidableEq, Repr, Inhabited

/-- A parity or comparator error of a port (Table 12.2): the context whose copy it was transmitting, if any. -/
structure PortUpset where
  port : Fin 16
  tx : Option (Fin 2048)
  deriving DecidableEq, Repr, Inhabited

/-! ### PTP messages (R278, R281, R282; the fields are those of IEEE 1588-2019, log entry 97) -/

/-- How a PTP message is carried: over UDP on IPv4 or IPv6, or over Ethernet. -/
inductive PtpVia where
  | ipv4 | ipv6 | ether
  deriving DecidableEq, Repr, Inhabited

/-- A PTP port identity. -/
structure PtpId where
  clock : BitVec 64
  port : BitVec 16
  deriving DecidableEq, Repr, Inhabited

/-- The header of a received PTP message: carriage, VLAN of its tag, domain, sender, sequence number and correction in
ns. -/
structure PtpHead where
  via : PtpVia
  vlan : Option (BitVec 12)
  domain : BitVec 8
  src : PtpId
  seq : BitVec 16
  corr : Int
  deriving DecidableEq, Repr, Inhabited

/-- The clock that an Announce describes: the grandmaster's priorities, quality and identity, and the steps removed. -/
structure PtpClock where
  prio1 : BitVec 8
  cclass : BitVec 8
  accuracy : BitVec 8
  variance : BitVec 16
  prio2 : BitVec 8
  ident : BitVec 64
  steps : BitVec 16
  utc : Int
  deriving DecidableEq, Repr, Inhabited

/-- A message that the slave port takes: Sync with its origin time, Follow_Up, Delay_Resp to the request of a port
with its receive time, Announce. -/
inductive PtpMsg where
  | sync (h : PtpHead) (twoStep : Bool) (origin : Int)
  | followUp (h : PtpHead) (origin : Int)
  | delayResp (h : PtpHead) (asked : PtpId) (received : Int)
  | announce (h : PtpHead) (c : PtpClock)
  deriving DecidableEq, Repr

/-- A Delay_Req received on a master port (R282), stamped as it arrives. -/
structure DelayReqRx where
  port : Fin 16
  h : PtpHead
  stamp : Nat
  deriving DecidableEq, Repr, Inhabited

/-! ### Elements and message bodies -/

/-- One element of an element block: a value in register form and its quality nibble (R250). -/
structure Elem where
  value : Word
  qual : BitVec 3
  deriving DecidableEq, Repr, Inhabited

/-- The header fields of a Vertex message that its handling reads (Table 11.1), and the destination address of its
datagram (R277, IPv4 in mapped form); on CAN that field says nothing. -/
structure VHead where
  ver : BitVec 8
  stream : BitVec 16
  seq : BitVec 32
  claim : BitVec 32
  len : BitVec 16
  session : BitVec 16
  dst : BitVec 128
  deriving DecidableEq, Repr, Inhabited

/-- The body of a JOIN (Table 11.2). -/
structure JoinBody where
  stationId : BitVec 64
  verMin : BitVec 8
  verMax : BitVec 8
  reqV : BitVec 16
  maxRx : BitVec 16
  nin : BitVec 16
  rpus : BitVec 32
  nout : BitVec 32
  deriving DecidableEq, Repr, Inhabited

/-- The body of a MISMATCH (Table 11.2). -/
structure MismatchBody where
  seq : BitVec 32
  claimActed : BitVec 32
  claimLater : BitVec 32
  digestActed : BitVec 64
  digestLater : BitVec 64
  deriving DecidableEq, Repr, Inhabited

/-- A JOIN_ACK (Table 11.2). -/
structure JoinAckBody where
  stationId : BitVec 64
  result : BitVec 8
  ver : BitVec 8
  stream : BitVec 16
  maxFrame : Nat
  rpTicks : Nat
  tickNs : Nat
  cw : Nat
  ackTo : Nat
  retry : Nat
  noutB : Nat
  ninB : Nat
  session : BitVec 16
  deriving DecidableEq, Repr, Inhabited

/-- A CMD copy of a command stream (Table 11.2, R262, R263). -/
structure CmdCopy where
  stream : BitVec 16
  session : BitVec 16
  seq : BitVec 32
  claim : BitVec 32
  digest : BitVec 64
  elems : List Elem
  deriving DecidableEq, Repr, Inhabited

/-- A CAN frame as Table 10.6 lays it out. -/
structure CanFrame where
  id : BitVec 29
  ide : Bool
  rtr : Bool
  fdf : Bool
  brs : Bool
  dlc : BitVec 4
  data : List Byte
  deriving DecidableEq, Repr, Inhabited

/-- The latch record of Table 8.6, as a unit forwards it to its partner (R209). -/
structure LatchRec where
  thermal : Bool
  chan : Nat
  seq : BitVec 32
  start : Nat
  fin : Nat
  count : Nat
  flags : BitVec 16
  calgen : BitVec 8
  sideCode : BitVec 8
  failCyc : Nat
  acc : List (BitVec 64)
  pmax : BitVec 32
  opsec : BitVec 32
  pcc : BitVec 24
  deriving DecidableEq, Repr, Inhabited

/-- How the reads and writes of a DMA descriptor's copy went (R289): what a read of host memory brought, nothing of
interest where the source is the window; a host read or write that timed out or failed, with what came before it; an
uncorrectable error on a read of tile SRAM or DDR5. -/
inductive DmaSeen where
  | ok (bytes : List Byte)
  | hostAbort (bytes : List Byte)
  | memEcc
  deriving DecidableEq, Repr

/-- How a DMA fetch of an image ended (R87, R213). -/
inductive Fetch where
  | bytes (container : List Byte)
  | hostAbort
  deriving DecidableEq, Repr

/-- The command registers whose undefined codes end BAD_COMMAND. -/
inductive CmdReg where
  | modeCmd | olc | lcmd | fctCmd | vcmd | rduCmd | evrCmd
  | fbcCtl (n : Fin 24) | fbcTx (n : Fin 24)
  | svcCmd | otpCmd
  deriving DecidableEq, Repr

/-- Where a buffer stands when a cancel is registered (R233): in no attempt, before the commit point, or at or after
the commit point with the arbitration won. -/
inductive CancelAt where
  | idle | beforeCommit | afterCommit
  deriving DecidableEq, Repr

/-- Error types of `FBCn_ERR.LEC` (Table 10.9). -/
inductive CanErr where
  | stuff | form | ack | bit1 | bit0 | crc
  deriving DecidableEq, Repr

/-- What the bus showed during a probe (Table 10.3): a probe frame destroyed by an error frame after the FDF bit, three
acknowledged probe frames, or none acknowledged within 20 ms. -/
inductive ProbeSeen where
  | errorAfterFdf | threeAcked | noAck
  deriving DecidableEq, Repr

/-- The modulator bits of a feeder's six inputs (Table 8.1) since they were last taken, oldest first, and the instant on
the time base at which the last output sample they give is complete (R189). -/
structure CycleObs where
  endNs : Nat
  bits : Vector (List Bool) 6
  deriving DecidableEq, Repr

/-! ### Lattice Solver operands and observations -/

/-- A sparse matrix in compressed columns as R135 lays it out. -/
structure Csc where
  colptr : List Nat
  rowidx : List Nat
  values : List Word
  deriving DecidableEq, Repr, Inhabited

/-- What the reads of host memory bring as a job loads (R137, R149): the bytes found from each address read. An
operand in the solver window is read from the window (R134). -/
structure JobOperands where
  host : List (Nat × List Byte)
  deriving DecidableEq, Repr, Inhabited

/-- What is seen as a job's outcome is fixed: the instant on the time base in ns, and the flops and cycles it took. -/
structure JobObs where
  at_ : Nat
  flop : BitVec 64
  cyc : BitVec 64
  deriving DecidableEq, Repr, Inhabited

/-- The order of a reduction of `n` products added to a start value: leaf 0 is the start value, leaf `k` the `k`-th
product (R132). -/
inductive RTree where
  | leaf (i : Nat)
  | node (l r : RTree)
  deriving DecidableEq, Repr, Inhabited

/-- What the device reads of a descriptor left in a ring by a reset (R129, R288): its index and its bytes. -/
structure LeftDesc where
  index : Nat
  bytes : List Byte
  deriving DecidableEq, Repr

/-! ### Chord and cascade frames -/

/-- The header of a Chord frame (Table 13.1). -/
structure ChordHead where
  side : Side
  save : Bool
  late : Bool
  mode : Mode
  held : Bool
  fseq : BitVec 32
  tick : Nat
  deriving DecidableEq, Repr

/-- The payload of a HELLO (Table 13.2). -/
structure Hello where
  version : Nat
  side : Side
  ticklen : Nat
  agree : Nat
  claim : BitVec 32
  mode : Mode
  progDigest : BitVec 64
  facetDigest : BitVec 64
  variant : Bool
  deriving DecidableEq, Repr

/-- The payload of a CHELLO (Table 14.1), with the hop count of the sender. -/
structure CHello where
  version : Nat
  member : Fin 8
  side : Side
  ticklen : Nat
  mode : Mode
  claim : BitVec 32
  hops : Nat
  deriving DecidableEq, Repr

/-- A unit on the roster of a cascade, as ROSTER and STATE give it (Table 14.1). -/
structure RUnit where
  member : Fin 8
  side : Side
  mode : Mode
  claim : BitVec 32
  deriving DecidableEq, Repr, Inhabited

/-- The unit that a frame of a partitioned solve is addressed to, or comes from (R323, R330). -/
structure CAddr where
  member : Fin 8
  side : Side
  deriving DecidableEq, Repr, Inhabited

/-- A serial link of the device: Chord n or cascade link CLn. -/
inductive SerialLink where
  | chord (n : Fin 2)
  | cascade (n : Fin 4)
  deriving DecidableEq, Repr

/-- Lists a VERDICT includes (Table 13.2). -/
structure Verdict where
  own : Bool
  partner : Bool
  carried : Bool
  count : Nat
  digest : BitVec 64
  deriving DecidableEq, Repr

/-- A source code and identifier of an input (R300, 'Input agreement'; R328). -/
structure InputId where
  source : Nat
  ident : Nat
  deriving DecidableEq, Repr, Inhabited

/-- Fault classes of Table 19.1, in the order of their index. -/
inductive FClass where
  | timebase | sequencer | loop | solver | meter | fieldbus | network | chord | cascade | nvs | host | essential
  deriving DecidableEq, Repr, Inhabited

/-- A resource that can be retired: its class and its index in the class (Table 19.1). In class SOLVER the DDR5
channels follow the tiles as 16 and 17. -/
structure Resource where
  cls : FClass
  idx : Nat
  deriving DecidableEq, Repr, Inhabited

/-- Instructions of the test access port (R414). -/
inductive TapInstr where
  | extest | samplePreload | bypass | idcode
  deriving DecidableEq, Repr, Inhabited

/-- Requests an Ethernet port answers itself (R278). -/
inductive EchoKind where
  | arp | neighbour | echo4 | echo6
  deriving DecidableEq, Repr

/-- Why a port drops a frame (R278, R249, R251). -/
inductive DropKind where
  | notAccepted | malformed | fragmented
  deriving DecidableEq, Repr

end Sys2Proof
end

