-- ==== Sys2Proof/Units.lean ====
section
/-! DEFINITION. What the units of the device hold besides their register fields, one structure per record the spec
lays out: program and facet images, task instances, loops, jobs, metering channels, controllers, contexts, lists of
inputs, records of the store. Plain data throughout. -/

namespace Sys2Proof

/-- A sparse table: pairs of a key and a value, keys strictly rising; an absent key holds the table's default. -/
abbrev Tbl (α : Type) := List (Nat × α)

/-! ### Program images (04_tasks_images_online_change.md, Tables 4.1, 4.6, 20.4) -/

/-- A segment of a task's segment list (Table 4.1). -/
structure Seg where
  space : Space
  base : Nat
  len : Nat
  deriving DecidableEq, Repr, Inhabited

/-- A task table entry (Table 4.1), its lists read out. -/
structure TaskEntry where
  en : Bool
  crit : Bool
  lseq : Fin 16
  period : Nat
  offset : Nat
  entry : Nat
  cost : Nat
  inList : List Nat
  outList : List Nat
  segs : List Seg
  loops : List Nat
  deriving DecidableEq, Repr, Inhabited

/-- The binding of a point (Table 20.4). Code 3 is an export on an output point and an import on an input point. -/
inductive Bind where
  | local
  | vin (v e : Nat)
  | vout (v e : Nat)
  | cascade (member idx : Nat)
  deriving DecidableEq, Repr, Inhabited

/-- A point table entry (Table 20.4). -/
structure PointDef where
  num : Nat
  vid : Nat
  typ : Nat
  bind : Bind
  deriving DecidableEq, Repr, Inhabited

/-- A variable table entry (Table 20.4). -/
structure VarDef where
  vid : Nat
  typ : Nat
  space : Space
  addr : Nat
  count : Nat
  deriving DecidableEq, Repr, Inhabited

/-- An initial-data record (Table 20.4). -/
structure InitRec where
  space : Space
  addr : Nat
  bytes : List Byte
  deriving DecidableEq, Repr, Inhabited

/-- A migration map entry (Table 4.6): space codes 0 D, 1 R, 2 I. -/
structure MigEntry where
  vid : Nat
  conv : Nat
  srcSp : Nat
  dstSp : Nat
  src : Nat
  dst : Nat
  count : Nat
  deriving DecidableEq, Repr, Inhabited

/-- A migration map: its base digest (40 bytes) and entries. -/
structure MigMap where
  base : List Byte
  entries : List MigEntry
  deriving DecidableEq, Repr, Inhabited

/-- The SETTINGS section of a program (Table 20.4). -/
structure Settings where
  ticklen : Nat
  agree : Nat
  disc : BitVec 32
  retPeriod : Nat
  maxAge : List Nat
  deriving DecidableEq, Repr, Inhabited

/-- A program image, read out of its container. -/
structure Program where
  digest : List Byte
  svn : Nat
  keyIdx : Nat
  settings : Settings
  code : List Word
  tasks : List TaskEntry
  points : List PointDef
  vars : List VarDef
  init : List InitRec
  map : Option MigMap
  raw : List Byte
  deriving DecidableEq, Repr, Inhabited

/-- A refusal of the loader or of PREPARE: its reason, KIND and ITEM of `CSA_OLCREF` or `FCT_REF`, and for a refusal of
Table 3.15 the task and the word address it names (R72). -/
structure Refuse where
  rsn : Nat
  kind : Nat
  item : Nat
  task : Option Nat
  word : Option Nat
  deriving DecidableEq, Repr, Inhabited

/-! ### Facets (09_facets_and_live_calibration.md) -/

/-- A loop wiring record (Table 5.1). -/
structure Wire where
  en : Bool
  crit : Bool
  initMode : Nat
  cascTrack : Bool
  spKind : Nat
  group : Nat
  period : Nat
  offset : Nat
  pvPt : Nat
  spRef : Nat
  ffPt : Option Nat
  outPt : Nat
  initSp : Int
  initMan : Int
  deriving DecidableEq, Repr, Inhabited

/-- The configuration of a feeder (Table 8.8). -/
structure FeederCfg where
  en : Bool
  fnom : Nat
  n : Nat
  vfs : BitVec 32
  ifs : BitVec 32
  vnom : BitVec 32
  refPh : Nat
  dcBlk : Bool
  deriving DecidableEq, Repr, Inhabited

/-- The configuration of a thermal channel (Table 8.8). -/
structure ThermCfg where
  en : Bool
  cool : Bool
  fromPoint : Bool
  flowRef : Nat
  vpp : Word
  dirPt : Option Nat
  tsPt : Nat
  trPt : Nat
  flowReturn : Bool
  table : Nat
  dtMin : BitVec 32
  step : Nat
  hoff : Nat
  hlatch : Nat
  holdMax : Nat
  deriving DecidableEq, Repr, Inhabited

/-- The configuration of a pulse input (Table 8.8). -/
structure PulseCfg where
  en : Bool
  deb : Nat
  deriving DecidableEq, Repr, Inhabited

/-- The metering section of a facet (Table 8.8). -/
structure MeterCfg where
  div : Nat
  sampDly : Nat
  ptBase : Nat
  savePeriod : Nat
  tolRel : Nat
  tolAbs : Nat
  feeders : List FeederCfg
  therms : List ThermCfg
  pulses : List PulseCfg
  tables : List (BitVec 32 × BitVec 32)
  deriving DecidableEq, Repr, Inhabited

/-- A bus record (Table 10.1). -/
structure BusRec where
  en : Bool
  mode : Nat
  brs : Bool
  txOrder : Bool
  tb2Host : Bool
  tdcEn : Bool
  nbrp : Nat
  ntseg1 : Nat
  ntseg2 : Nat
  nsjw : Nat
  dbrp : Nat
  dtseg1 : Nat
  dtseg2 : Nat
  dsjw : Nat
  tdco : Nat
  clashN : Nat
  probeId : Nat
  deriving DecidableEq, Repr, Inhabited

/-- A port record (Table 12.1). -/
structure PortRec where
  en : Bool
  ifMode : Nat
  ipv4 : Bool
  ipv6 : Bool
  vlanEn : Bool
  ptpMaster : Bool
  twoStep : Bool
  speeds : Nat
  ptpDom : Nat
  vlan : Nat
  macA : BitVec 48
  macB : BitVec 48
  ip4A : BitVec 32
  ip4B : BitVec 32
  ip4Pfx : Nat
  ip6Pfx : Nat
  logSync : Int
  prio1 : Nat
  ip4Grp : BitVec 32
  ip6A : BitVec 128
  ip6B : BitVec 128
  ip6Grp : BitVec 128
  txLat : Nat
  rxLat : Nat
  deriving DecidableEq, Repr, Inhabited

/-- The VERTEX section (Table 11.9). -/
structure VertexCfg where
  udpPort : Nat
  cw : Nat
  retry : Nat
  ackTo : Nat
  missMax : Nat
  rpMin : Nat
  rpMax : Nat
  maxFrame : Nat
  admitAny : Bool
  ipv4 : Bool
  ipv6 : Bool
  deriving DecidableEq, Repr, Inhabited

/-- A facet, read out of its container (Table 9.1). -/
structure Facet where
  digest : List Byte
  svn : Nat
  keyIdx : Nat
  autostart : Bool
  faultMap : List Nat
  fbcCrit : BitVec 24
  npcCrit : BitVec 16
  safe : List (Nat × Word)
  loops : List Wire
  meter : MeterCfg
  buses : List BusRec
  ports : List PortRec
  vertex : VertexCfg
  raw : List Byte
  deriving DecidableEq, Repr, Inhabited

/-! ### The Control Sequencer Array -/

/-- An open LOOP (Table 3.1, R57): its register, index, count, body words `first` to `last`, and how many CALLs were
open when it opened. -/
structure LoopFrame where
  reg : Reg
  i : Nat
  n : Nat
  first : Nat
  last : Nat
  depth : Nat
  deriving DecidableEq, Repr, Inhabited

/-- What an LCTL asks of a loop (Table 3.13). -/
inductive LctlFun where
  | auto | manual (v : BitVec 32) | track (v : BitVec 32) | bankSwap | resetI
  deriving DecidableEq, Repr, Inhabited

/-- An engine request of an instance (R66). -/
inductive EngReq where
  | lsp (loop : Nat) (v : BitVec 32)
  | lctl (loop : Nat) (f : LctlFun)
  | mbxAck (slot : Nat)
  | nvwr (record : Nat) (data : List Byte)
  deriving DecidableEq, Repr, Inhabited

/-- A posted program event (R67). -/
structure Post where
  code : BitVec 16
  sev : Sev
  a : Word
  b : Word
  deriving DecidableEq, Repr, Inhabited

/-- The architectural state of a sequencer while it runs an instance (Table 3.1), with what the instance has written
and requested so far (R52, R54, R66, R67). Journal bytes are keyed 2 × byte address, plus 1 in the retained area. -/
structure Inst where
  task : Nat
  tick : Nat
  stamp : Nat
  pc : Nat
  w : Vector Word 32
  p : Vector Bool 8
  acc0 : BitVec 96
  acc1 : BitVec 96
  tflags : BitVec 8
  loops : List LoopFrame
  rets : List Nat
  journal : Tbl Byte
  outs : Tbl (Word × Qual)
  reqs : List EngReq
  evts : List Post
  deriving DecidableEq, Repr, Inhabited

/-- A sequencer: the instance it runs and the tasks released and waiting (R74). -/
structure Seqr where
  cur : Option Inst
  queue : List Nat
  deriving DecidableEq, Repr, Inhabited

/-- A point slot as its producer left it (Table 4.3); quality before the force overlay of Table 4.4. -/
structure PSlot where
  value : Word
  qual : Qual
  tick : BitVec 32
  deriving DecidableEq, Repr, Inhabited

/-- An entry of the force table (`CSA_FRCTAB`). -/
structure Force where
  vid : Nat
  typ : Nat
  point : Nat
  value : Word
  lastw : Word
  deriving DecidableEq, Repr, Inhabited

/-- An armed online change (R96): its switch tick and whether phase 2 has fixed it. -/
structure Armed where
  ks : Nat
  forceRelease : Bool
  fixed : Bool
  late : Bool
  deriving DecidableEq, Repr, Inhabited

/-- An open run of failed instances (R80). -/
structure FailRun where
  code : Nat
  rsn : Nat
  first : Nat
  count : Nat
  deriving DecidableEq, Repr, Inhabited

/-- The write status of a program record (R68). -/
structure NvStat where
  cc : Nat
  rsn : Nat
  pend : Bool
  count : BitVec 32
  deriving DecidableEq, Repr, Inhabited

/-! ### The Loop Engine -/

/-- A biquad's state (Table 5.4). -/
structure Biq where
  x1 : Int
  x2 : Int
  y1 : Int
  y2 : Int
  deriving DecidableEq, Repr, Inhabited

/-- A loop state record (Table 5.4): I in Q12.52, every other field in Q8.24. -/
structure LoopSt where
  i : Int
  xprev : Int
  d : Int
  eprev : Int
  uprev : Int
  splast : Int
  fflast : Int
  manval : Int
  trkval : Int
  b1 : Biq
  b2 : Biq
  pvlast : Int
  tick : BitVec 32
  deriving DecidableEq, Repr, Inhabited

/-- Loop modes of Table 5.6. -/
inductive LMode where
  | auto | manual | track | cascTrack | hold | off
  deriving DecidableEq, Repr, Inhabited

/-- A loop: its state record, the mode its program asked for, its set-point, its latest output and quality, whether it
was held since its last usable process value (R112), and whether its next sample starts it (R115). -/
structure LoopRun where
  st : LoopSt
  want : LMode
  sp : Option Int
  out : Int
  outQ : Qual
  held : Bool
  init : Bool
  deriving DecidableEq, Repr, Inhabited

/-- The result of one computed sample, waiting for the LPE to complete (R118): the loop and what it becomes, and the
status bits of `LPE_LSTS` it sets, as a word of current flags and a word of sticky flags. -/
structure LoopRes where
  loop : Nat
  run : LoopRun
  mode : LMode
  cur : BitVec 4
  sticky : BitVec 11
  deriving DecidableEq, Repr, Inhabited

/-- What a loop's sample found at its edge and a skip gives back (R124): the state record, the requests that acted, and,
when the banks were exchanged, whether S_SWAPPED stood before and whether a host command awaited the swap. -/
structure LoopWas where
  loop : Nat
  run : Option LoopRun
  reqs : List EngReq
  swap : Option (Bool × Bool)
  deriving DecidableEq, Repr, Inhabited

/-- A pending host loop command (R122): its loops still to swap, and whether any target bank was invalid. -/
structure LcmdPend where
  targets : List Nat
  bad : Bool
  deriving DecidableEq, Repr, Inhabited

/-! ### The Lattice Solver -/

/-- The operands of a job as loaded (R135, R160, R161): the matrix with its values, the permutation, B, and the
matrices, vectors, bounds, stages, coupling indices and warm point of a programme. -/
structure JobData where
  a : Csc
  perm : List Nat
  rhs : List Word
  h : Csc
  e : Csc
  g : Csc
  q : List Word
  evec : List Word
  gvec : List Word
  lo : List Word
  hi : List Word
  stageMap : List Nat
  cplIdx : List Nat
  warm : List Word
  deriving DecidableEq, Repr, Inhabited

/-- A row of a factor: the entries left of the diagonal, the pivot, and the entries right of it (LU), by position. -/
structure FRow where
  l : List (Nat × Word)
  d : Word
  u : List (Nat × Word)
  deriving DecidableEq, Repr, Inhabited

/-- A numeric factor: the original index at each position, and the rows that were eliminated. -/
structure Factor where
  perm : List Nat
  sym : Bool
  single : Bool
  rows : List FRow
  deriving DecidableEq, Repr, Inhabited

/-- What a handle holds (R139, R140): the analysis, by its ordering, a factor, and the tiles whose SRAM a factor lies
in; the job's own KiB of a factor or an analysis. -/
structure HandleData where
  order : List Nat
  factor : Option Factor
  tiles : List Nat
  kib : Nat
  deriving DecidableEq, Repr, Inhabited

/-- A direction of the interior-point iteration (R165). -/
structure QpDir where
  dx : List Word
  dy : List Word
  dz : List Word
  ds : List Word
  dzl : List Word
  dzu : List Word
  deriving DecidableEq, Repr, Inhabited

/-- How far a programme has come (R164 to R171): the iterate, ρ and δ_d, the counts of its report, the values of the
last tests, the last step and its direction, the iterate of least merit, and the consecutive steps below 10^−12. -/
structure QpWork where
  x : List Word
  y : List Word
  z : List Word
  s : List Word
  zl : List Word
  zu : List Word
  rho : Word
  deltaD : Word
  iters : Nat
  facts : Nat
  raises : Nat
  inexact : Nat
  refTotal : Nat
  pivreg : Nat
  inertia : Nat
  small : Nat
  flags : Nat
  anorm : Word
  phi : Word
  rp : Word
  rd : Word
  mu : Word
  pobj : Word
  dobj : Word
  step : Word
  dir : Option QpDir
  best : Option (Word × List Word)
  deriving DecidableEq, Repr, Inhabited

/-- A cascade part between the exchanges of Table 14.2: its factor with the coupling rows left over, the forward
elimination of the solve under way, the affine and the last direction, and the centring value of the latter. -/
structure PartWork where
  fac : Factor
  fwd : List Word
  aff : QpDir
  dir : QpDir
  sigma : Word
  deriving DecidableEq, Repr, Inhabited

/-- The outcome of a job: code, reason, flags of Table 6.7, the counts of its entry, the solution and whether it is
written, the certificate, and for a programme what its report shows (Table 7.4). -/
structure JobEnd where
  code : Nat
  rsn : Nat
  flags : Nat
  refsteps : Nat
  pivreg : Nat
  inertia : Nat
  ratio : Word
  anorm : Word
  x : List Word
  writeX : Bool
  cert : Option (List Word)
  order : Nat
  work : Option QpWork
  factor : Option Factor
  deriving DecidableEq, Repr, Inhabited

/-- A held job (R127): its descriptor and extension block, submission index, whether it runs and since when, whether it
was restarted (R155), whether its warm start was rejected (R139), its placement (R148), its fingerprint (R138), its
operands, its ordering, the handle content it uses, the iterate a restart keeps (R172), the step of Table 14.2 a cascade
part has reached, since when it waits, its work there and the failure it met by itself, and whether a cancel awaits its
outcome (R154). -/
structure Job where
  desc : List Byte
  ext : List Byte
  index : Nat
  running : Bool
  startNs : Nat
  retried : Bool
  warmRej : Bool
  ddr : Bool
  sramKib : Nat
  ddrKib : Nat
  fprint : BitVec 64
  data : JobData
  order : List Nat
  warm : Option HandleData
  tiles : List Nat
  kept : Option QpWork
  cplStep : Nat
  waitFrom : Nat
  part : Option PartWork
  failed : Option JobEnd
  cancel : Bool
  deriving DecidableEq, Repr, Inhabited

/-- A mailbox slot's content (R176): elements, tag, code, the tick at which it took its posting. -/
structure MbxSlot where
  elems : List Word
  tag : BitVec 64
  code : Nat
  tick : Nat
  seq : BitVec 32
  deriving DecidableEq, Repr, Inhabited

/-- A member part's contribution to a step of Table 14.2. -/
structure PartMsg where
  member : Fin 8
  vals : List Word
  deriving DecidableEq, Repr, Inhabited

/-- A coordinator (R330, R331): its job, the members it awaits, those joined, whether the join wait is open, the step of
Table 14.2 and the contributions of the step; then the summed coupling matrix with its factor and norm, and the
complementarity of the iterate with its count. -/
structure Coord where
  cjob : BitVec 32
  ncpl : Nat
  awaited : BitVec 8
  joined : List (Fin 8)
  open_ : Bool
  step : Nat
  got : List PartMsg
  schur : List Word
  fac : Option Factor
  anorm : Word
  comp : Word
  mc : Word
  deriving DecidableEq, Repr, Inhabited

/-! ### The Metering Engine -/

/-- An input's coefficient set (Table 8.2). -/
structure CoefSet where
  gain : BitVec 32
  offset : BitVec 32
  phase : BitVec 16
  deriving DecidableEq, Repr, Inhabited

/-- The filter chain of an input (Table 8.2): the integrators and comb delays of the sinc3 and the bits since its last
output, the delay line of the compensation FIR, the DC block's last input and its output in units of 2^−47 of full
scale, and the delay line of the interpolator, newest first. -/
structure ChainSt where
  i1 : BitVec 32
  i2 : BitVec 32
  i3 : BitVec 32
  d1 : BitVec 32
  d2 : BitVec 32
  d3 : BitVec 32
  cnt : Nat
  fir : List Int
  dcX : Int
  dcY : Int
  tail : List Int
  deriving DecidableEq, Repr, Inhabited

/-- An output sample of a feeder: the instant it represents, the three voltages and currents in units of 2^−31 of full
scale, the Hilbert filter's output on each voltage and the current delayed to match it (R194), the stage-3 outputs of the
six inputs (R221), and whether the reference voltage is of use, its input not being stuck (R191). -/
structure Sample where
  at_ : Nat
  v : Vector Int 3
  i : Vector Int 3
  h : Vector Int 3
  d : Vector Int 3
  x : Vector Int 6
  use : Bool
  deriving DecidableEq, Repr, Inhabited

/-- The quantities of a line cycle (Table 8.4): its duration and, per phase, mean squares, P and Q in volts, amperes and
watts (binary64). -/
structure CycleQ where
  durNs : Nat
  vms : Vector Word 3
  ims : Vector Word 3
  p : Vector Word 3
  q : Vector Word 3
  deriving DecidableEq, Repr, Inhabited

/-- A feeder's or the reference set's signal path (R189 to R193): the chains of its six inputs, the last voltages and
currents before the Hilbert filter, newest first, the samples of the cycle under way and of the last 25 ms, oldest
first, the last boundary, the last accepted crossing or, before one, the path's first sample, whether the voltage has
been low enough for a crossing, whether NOVOLT applies, the inputs that clipped and those stuck since the last boundary,
whether the cycle under way is substituted, and the last measured cycle (R195). -/
structure FeedSt where
  chains : Vector ChainSt 6
  past : List (Vector Int 3 × Vector Int 3)
  hist : List Sample
  from_ : Option Nat
  taken : Option Nat
  armed : Bool
  novolt : Bool
  clip : List Nat
  hit : List Nat
  subst : Bool
  prev : Option CycleQ
  deriving DecidableEq, Repr, Inhabited

/-- An open interval of a metering channel (R200): its start, cycles or steps, those not measured, largest power, the
signs seen, and the accumulators at its start. -/
structure Interval where
  start : Nat
  count : Nat
  failCyc : Nat
  pmax : Word
  pos : Bool
  neg : Bool
  base : Vector Nat 6
  deriving DecidableEq, Repr, Inhabited

/-- A metering channel, feeder 0–31 or thermal 32–95: its six accumulators in units of 2^−32 (R199), interval sequence
number, open interval, latest latch record, the configuration in force with its property table, whether a new one
waits for the next latch, the last usable temperatures and the steps each has been held (R198), both sides' pulse counts at the previous step (R203), the run of
PAIRDIFF intervals and the sequence number and accumulators of the partner's last record (R209), the marks the next
interval takes (R207, R208), and PMAX of the latest latch (R205). -/
structure Chan where
  acc : Vector Nat 6
  seq : BitVec 32
  open_ : Option Interval
  latch : Option LatchRec
  fcfg : Option FeederCfg
  tcfg : Option ThermCfg
  ttab : List (BitVec 32 × BitVec 32)
  cfgChg : Bool
  tsLast : Option Word
  trLast : Option Word
  tsHeld : Nat
  trHeld : Nat
  prevCount : Option (BitVec 64 × BitVec 64)
  diffRun : Nat
  partnerAcc : Option (BitVec 32 × List (BitVec 64))
  restored : Bool
  gapAfter : Bool
  pmaxBeat : BitVec 32
  deriving DecidableEq, Repr, Inhabited

/-- A pulse input (R196, R203): its count, last accepted edge, edges since the last publication, the last publication,
both sides' last agreed counts, and the side whose postings the image holds. -/
structure Pulse where
  count : BitVec 64
  lastEdge : Option Nat
  newEdges : Nat
  lastPub : Nat
  agreedA : BitVec 64
  agreedB : BitVec 64
  src : Side
  deriving DecidableEq, Repr, Inhabited

/-- A latch record waiting for its pair comparison (R209): the deltas of the integer parts of ACC0–ACC5 in the interval,
none when the record before it is not known. -/
structure LatchWait where
  record : LatchRec
  deltas : Option (List Nat)
  deriving DecidableEq, Repr, Inhabited

/-- A calibration run (R221–R225): feeder, the last window's result per input (gain, offset, phase in binary64), the
candidates, discarded windows in a row, the feeder's line cycles in the window under way, whether one of the twelve
inputs was stuck or clipped in it, whether an ABORT came after the write started, the instants at which the window began
and its last cycle ended, the frequency of that cycle in Hz, and the stage-3 outputs of the feeder's inputs and the
corrected outputs of the reference set, each with its instant. -/
structure CalRun where
  feeder : Fin 32
  prev : List (Word × Word × Word)
  cand : List CoefSet
  discarded : Nat
  cycles : Nat
  hit : Bool
  lateAbort : Bool
  since : Nat
  fin : Nat
  freq : Word
  xs : List (Nat × Vector Int 6)
  rs : List (Nat × Vector Int 6)
  deriving DecidableEq, Repr, Inhabited

/-- A metering posting (R203): the channel, the points it refreshes, and whether they are usable. -/
structure MeterPost where
  chan : Nat
  points : List (Nat × Word × Qual)
  counts : List (Nat × BitVec 64)
  deriving DecidableEq, Repr, Inhabited

/-- The metering record (R205, R207): 0 PERIODIC, 1 SAVE, 2 RESET, 3 STOP. -/
structure MeterRec where
  kind : Nat
  opsec : BitVec 32
  pcc : BitVec 24
  accs : Tbl (Vector Nat 6)
  seqs : Tbl (BitVec 32)
  calgens : Tbl Nat
  waiting : Nat
  deriving DecidableEq, Repr, Inhabited

/-- The heartbeat record (R205). -/
structure Beat where
  opsec : BitVec 32
  pcc : BitVec 24
  seqs : Tbl (BitVec 32)
  pmaxs : Tbl (BitVec 32)
  deriving DecidableEq, Repr, Inhabited

/-! ### Field bus controllers -/

/-- A loaded transmit request (R231–R234). -/
structure TxReq where
  frame : CanFrame
  host : Bool
  expiry : Option Nat
  vertex : Option (Nat × BitVec 32)
  errors : Nat
  clash : Nat
  clashRec : Bool
  cancel : Bool
  deriving DecidableEq, Repr, Inhabited

/-- A received frame in the FIFO (Table 10.6). -/
structure RxFrame where
  frame : CanFrame
  esi : Bool
  fdRx : Bool
  filter : Nat
  ts : BitVec 32
  deriving DecidableEq, Repr, Inhabited

/-- An acceptance filter (R237, R238). -/
structure Filt where
  fid : BitVec 29
  ide : Bool
  mask : BitVec 29
  offload : Bool
  deriving DecidableEq, Repr, Inhabited

/-- An entry of the Vertex queue (R244), with its number in the order of arrival. -/
structure QEntry where
  frame : CanFrame
  expiry : Nat
  vertex : Nat
  seq : BitVec 32
  arrival : Nat
  deriving DecidableEq, Repr, Inhabited

/-- A partial CAN message under reassembly (R254). -/
structure Partial where
  next : Nat
  bytes : List Byte
  last : Nat
  deriving DecidableEq, Repr, Inhabited

/-- A controller FBCn beyond its registers: the transmit buffers and the one chosen for the next attempt (R231), the
receive FIFO, the filters, the Vertex queue, the bus record in force, the host's TB2 words, whether a drop since the
FIFO was last empty is recorded, the messages under reassembly, whether SAVE stopped it or does so after the frame on the
wire (R246), the record that takes effect after that frame (R247), and the filters before each change since the latest
start of frame (R238). -/
structure Ctl where
  tb : Vector (Option TxReq) 3
  sel : Option (Fin 3)
  fifo : List RxFrame
  filters : Tbl Filt
  queue : List QEntry
  bus : Option BusRec
  txw : Tbl (BitVec 32)
  ovfSeen : Bool
  parts : Tbl Partial
  stopped : Bool
  stopping : Bool
  nextBus : Option BusRec
  fltWas : List (Nat × Tbl Filt)
  deriving DecidableEq, Repr, Inhabited

/-! ### Vertex contexts and ports -/

/-- An unended copy (R264): its claim, its first emission tick, the retries sent, its elements, and the ACKTO and RETRY
in force when it was first emitted (Table 11.8). -/
structure Copy where
  seq : BitVec 32
  claim : BitVec 32
  first : Nat
  retries : Nat
  elems : List Elem
  ackTo : Nat
  retry : Nat
  deriving DecidableEq, Repr, Inhabited

/-- An open delivery run (R266), with the instant its first copy ended. -/
structure DelRun where
  code : Nat
  rsn : Nat
  seq : BitVec 32
  count : Nat
  since : Nat
  deriving DecidableEq, Repr, Inhabited

/-- An admitted Vertex context (`NPC_VCTX`, R256–R266): the endpoint and profile, the element numbers its JOIN asked
for, the tick of its last report, the tick from which R271 counts, the tick of the last CMD, the bound outputs at the
last edge, the unended copies, the open delivery run, MISSMAX as its session has it (Table 11.8), whether the commits of
the last tick changed a bound output (R262), and whether a MISMATCH was seen. -/
structure Ctx where
  stationId : BitVec 64
  endpoint : Endpoint
  maxFrame : Nat
  rpTicks : Nat
  noutB : Nat
  ninB : Nat
  reqOut : Nat
  session : BitVec 16
  lastSeq : BitVec 32
  lastAck : BitVec 32
  lastReport : Option Nat
  missFrom : Nat
  lastCmd : Nat
  lastElems : List Elem
  copies : List Copy
  run : Option DelRun
  missMax : Nat
  changed : Bool
  mmSeen : Bool
  deriving DecidableEq, Repr, Inhabited

/-- A master heard on the slave port (R281): the clock it announces, its identity, and the instants of its last two
Announces, newest first. -/
structure PtpForeign where
  clock : PtpClock
  src : PtpId
  heard : List Nat
  deriving DecidableEq, Repr, Inhabited

/-- PTP on the ports (R281, R282). The slave port: the masters heard; a two-step Sync that awaits its Follow_Up, by its
sequence number with its arrival less its correction; the latest measured time from the master; the Delay_Req sent, by
its number with the instant it left; the number of the next one; the path delay. The master ports: by port the number of
the next Sync and the instants of the last Sync and Announce. -/
structure PtpSt where
  masters : List PtpForeign
  sync : Option (BitVec 16 × Int)
  ms : Option Int
  req : Option (BitVec 16 × Int)
  reqSeq : BitVec 16
  delay : Option Int
  seqs : Tbl (BitVec 16)
  syncAt : Tbl Nat
  announceAt : Tbl Nat
  deriving DecidableEq, Repr, Inhabited

/-- A receiver of a command stream (R267): the station's own state. -/
structure Recv where
  stationId : BitVec 64
  stream : BitVec 16
  session : BitVec 16
  last : BitVec 32
  hist : List (BitVec 32 × BitVec 32 × BitVec 64)
  heard : List (BitVec 32 × Nat)
  mmSent : List (BitVec 32)
  safe : Bool
  lastCmd : Nat
  rpTicks : Nat
  cw : Nat
  tickNs : Nat
  lowClaim : Nat
  late : Nat
  acted : List Elem
  deriving DecidableEq, Repr, Inhabited

/-! ### Inputs and their agreement -/

/-- The bytes of an input (R300, 'Input agreement'). -/
inductive InBody where
  | join (ep : Endpoint) (b : JoinBody)
  | leave (ep : Endpoint) (stationId : BitVec 64)
  | cack (ep : Endpoint) (stream session : BitVec 16) (ackSeq : BitVec 32)
  | report (ep : Endpoint) (stream session : BitVec 16) (seq ackSeq : BitVec 32) (elems : List Elem)
  | mismatch (ep : Endpoint) (stream session : BitVec 16) (b : MismatchBody)
  | forceSet (vid : Nat) (value : Word)
  | forceRelease (vid : Nat)
  | forceReleaseAll
  | arm (ks : Nat) (forceRelease : Bool)
  | olcAbort (written : Nat)
  | swap (kf : Nat)
  | facetAbort (written : Nat)
  | loopSwap (loop : Nat) (crc : BitVec 32)
  | groupSwap (group : Nat) (crc : BitVec 32)
  | loopClear (loop : Nat)
  | loopClearAll
  | release (v : Nat)
  | clearMm (v : Nat)
  | rduSwap
  | rduClear
  | meter (m : MeterPost)
  | mailbox (slot : Nat) (tag : BitVec 64) (code : Nat) (elems : List Word) (digest : BitVec 64)
  | linkState (r : Resource) (down : Bool)
  | exported (member : Fin 8) (side : Side) (claim : BitVec 32) (tick : Nat) (elems : List Elem)
  deriving DecidableEq, Repr, Inhabited

/-- An input with its receive timestamp, source and the side that stamped it (R301). -/
structure Input where
  stamp : Nat
  id : InputId
  side : Side
  body : InBody
  deriving DecidableEq, Repr, Inhabited

/-- The partner's list for a tick: the INPUT frames received and the CLOSE, if it has come (R302). -/
structure PartnerList where
  tick : Nat
  inputs : List Input
  close : Option (Nat × BitVec 64)
  deriving DecidableEq, Repr, Inhabited

/-- An agreed set waiting to become current at its edge (R301). -/
structure AgreedSet where
  edge : Nat
  inputs : List Input
  deriving DecidableEq, Repr, Inhabited

/-- The commits of one tick as the commit stream carries them (R316). -/
structure CommitRec where
  tick : Nat
  data : Tbl Byte
  retained : Tbl Byte
  points : List (Nat × Word × Qual)
  loops : List LoopRes
  digest : BitVec 64
  deriving DecidableEq, Repr, Inhabited

/-- The content of a copy region (Table 13.7). Selectors, modes, SEQ and ACKSEQ and the states of contexts go as the
register fields that hold them (`flds`). -/
inductive RegionData where
  | program (raw : List Byte)
  | facet (raw : List Byte)
  | forces (l : List Force)
  | banks (a b : Tbl (BitVec 32)) (flds : Tbl Nat)
  | retained (m : Tbl Byte)
  | data (m : Tbl Byte)
  | image (m : Tbl PSlot)
  | loops (l : Tbl LoopRun) (flds : Tbl Nat)
  | mailbox (l : Tbl MbxSlot) (flds : Tbl Nat)
  | vertex (l : Tbl Ctx) (flds : Tbl Nat)
  | thermal (counts : List (Nat × Nat))
  deriving DecidableEq, Repr

/-- A state copy being received (R316–R319): when COPYREQ was sent, the snapshot edge once it is answered, the one last
answered before a restart, the regions received complete, whether COPYEND has come, the commit stream, and the first tick
executed in step. -/
structure CopyRun where
  since : Nat
  kc : Option Nat
  answered : Option Nat
  regions : List RegionData
  ended : Bool
  stream : List CommitRec
  exec : Option Nat
  deriving DecidableEq, Repr

/-- A state copy being sent (R316, R318): the snapshot edge, the bytes of the regions still to be sent, and those that the
pre-image buffer holds. -/
structure SendRun where
  kc : Nat
  left : Nat
  preImage : Nat
  deriving DecidableEq, Repr

/-- A unit of a cascade on the roster (R324), with the tick of its last STATE frame. -/
structure CUnit where
  member : Fin 8
  side : Side
  mode : Mode
  claim : BitVec 32
  last : Nat
  deriving DecidableEq, Repr, Inhabited

/-- An import's current content (R327–R329). -/
structure Import where
  member : Fin 8
  tick : Nat
  elems : List Elem
  deriving DecidableEq, Repr, Inhabited

/-! ### The store and the recorder -/

/-- The slot record (R340): the live slot of each kind, and for PROG0, PROG1, FACET0 and FACET1, in this order, the length
and the first 40 bytes of the digest of what it holds. -/
structure SlotRec where
  prog : Bool
  facet : Bool
  force : Bool
  bank : Bool
  images : Vector (Nat × List Byte) 4
  deriving DecidableEq, Repr

/-- The content of a paired record (Table 15.1, R335). -/
inductive RecData where
  | slots (r : SlotRec)
  | claim (c : BitVec 32)
  | config (bistReq : Bool) (cleared : Nat) (vals : Tbl Nat)
  | power (pcc : BitVec 24) (resumed : Bool)
  | retire (l : List Resource) (remaps : List Nat)
  | cal (active shadow : Tbl CoefSet) (pend : List Nat) (calgens : Tbl Nat)
  | meter (m : MeterRec)
  | beat (b : Beat)
  | forces (l : List Force)
  | retained (kind : Nat) (tick : Nat) (digest : List Byte) (area : Tbl Byte)
  | prog (data : List Byte)
  | coef (bank : Bool) (words : Tbl (BitVec 32))
  deriving DecidableEq, Repr, Inhabited

/-- One copy of a paired record (Table 15.2): its SEQ and payload, whether it is valid, and whether it shows that the
record was written before (R338). -/
structure RecCopy where
  seq : BitVec 32
  data : RecData
  valid : Bool
  uncorr : Bool
  deriving DecidableEq, Repr, Inhabited

/-- A paired record: copies A and B, and whether copy B must be rewritten from copy A at the next save (R338). -/
structure PRec where
  a : Option RecCopy
  b : Option RecCopy
  conflict : Bool
  deriving DecidableEq, Repr, Inhabited

/-- Who asked for a write (R343). -/
inductive Requester where
  | none | claim | slotProg | slotFacet | coef (loop : Nat) | forces | retire | cal | clearRetire | config | power
  | meter (kind : Nat) | beat | retained (kind : Nat) | nvwr (record : Nat) | load | prepare | scrub
  deriving DecidableEq, Repr, Inhabited

/-- An accepted event record (R350, R354): code, source, severity, payload words, its time key and flags. -/
structure Rec where
  code : Nat
  source : Nat
  sev : Sev
  words : List (BitVec 32)
  opsec : BitVec 32
  pcc : BitVec 24
  sub : BitVec 8
  staged : Bool
  timeLate : Bool
  deriving DecidableEq, Repr, Inhabited

/-- What a write writes: a record, an image slot, or event slots (R342). -/
inductive WriteWhat where
  | record (typ : Nat) (data : RecData)
  | image (facet : Bool) (slot : Bool) (raw : List Byte)
  | event (r : Rec)
  | refresh (page : Nat)
  deriving DecidableEq, Repr, Inhabited

/-- A queued write request (R343): class, what, who, order of request. -/
structure WriteReq where
  cls : Nat
  what : WriteWhat
  who : Requester
  deriving DecidableEq, Repr, Inhabited

/-- A slot of the event log (Table 16.2): the record it belongs to, its place in the chain, its length, and whether
its mark and CRC are valid. -/
structure Slot where
  record : Rec
  idx : Nat
  len : Nat
  deriving DecidableEq, Repr, Inhabited

/-- An open fault window (R391): the resource, its state before the upset, the tick of the first upset. -/
structure FWindow where
  res : Resource
  prior : MState
  tick : Nat
  deriving DecidableEq, Repr, Inhabited

/-- A root slot of the OTP (Table 20.1): the digest when programmed, whether its check passes, and its revocation. -/
structure RootSlot where
  digest : Option (List Byte)
  checkOk : Bool
  revoked : Bool
  deriving DecidableEq, Repr, Inhabited

/-! ### Supervisor -/

/-- A host mode command (Table 1.6). -/
inductive ModeCmd where
  | run | stop | hold | release | test
  deriving DecidableEq, Repr

/-- A cause of a mode transition that waits for its tick edge (R14, R17). -/
inductive Cause where
  | saveReturn
  | abandoned (regions : Nat)
  | claimExhausted
  | takeover (reason : Nat)
  | higherClaim (claim : BitVec 32)
  | outOfStep (cause : Nat) (tick : Nat)
  | copyComplete
  | swapToStandby
  | swapToActive
  | host (c : ModeCmd)
  deriving DecidableEq, Repr

/-- The one-time-programmable memory (Table 20.1), but for IDPUB and IDPRIV. -/
structure Otp where
  devid : BitVec 64
  roots : Vector RootSlot 4
  pfloor : Nat
  ffloor : Nat
  bistStart : Bool
  jtagOff : Bool
  deriving DecidableEq, Repr

/-- An OTP command with its operands; `ok` says whether its fuses read back right (R410). -/
inductive OtpCmd where
  | programRoot (index : Fin 4) (ok : Bool)
  | revoke (index : Fin 4) (ok : Bool)
  | raise (facet : Bool) (value : BitVec 7) (ok : Bool)
  | policy (jtag ok : Bool)
  deriving DecidableEq, Repr

/-- A quote in progress (R412): its host address, and its bytes 0–255 once they are captured. -/
structure QuoteRun where
  addr : Nat
  body : Option (List Byte)
  deriving DecidableEq, Repr

/-- The payload of a Chord frame (Table 13.2), and the request for missing frames of R299 by their FSEQ. -/
inductive ChordBody where
  | hello (h : Hello)
  | input (i : Input)
  | close (count : Nat) (digest : BitVec 64)
  | verdict (v : Verdict)
  | digest (d : BitVec 64)
  | yield (edge reason : Nat)
  | claim (claim : BitVec 32) (edge : Nat)
  | copyReq
  | region (d : RegionData)
  | commits (c : CommitRec)
  | copyEnd
  | resend (fseqs : List (BitVec 32))
  deriving DecidableEq, Repr

/-- The payload of a frame of a partitioned solve, PART_JOIN to CPLEND (Table 14.2). -/
inductive CplFrame where
  | join (cjob : BitVec 32) (ncpl : Nat)
  | schur (vals : List Word)
  | rhs (vals : List Word)
  | step (vals : List Word)
  | reply (vals : List Word)
  | finish (code rsn : Nat)
  deriving DecidableEq, Repr

/-- The payload of a cascade frame (Table 14.1), and the request for missing frames of R299. -/
inductive CascBody where
  | chello (h : CHello)
  | tickMark (k delay : Nat)
  | roster (units : List RUnit)
  | state (u : RUnit)
  | exported (e : InBody)
  | part (src dst : CAddr) (f : CplFrame)
  | resend (fseqs : List (BitVec 32))
  deriving DecidableEq, Repr

/-- What the device has put out: register read data, writes to host memory, interrupts, frames and pin changes. -/
inductive Out where
  | readData (v : BitVec 64)
  | poisoned
  | aer
  | hostWrite (addr : Nat) (bytes : List Byte)
  | msix (vec : Nat)
  | udp (src : NetSrc) (ep : Endpoint) (type : Nat) (h : VHead) (bytes : List Byte)
  | cack (stream session : BitVec 16) (ackSeq : BitVec 32)
  | mismatch (stream session : BitVec 16) (b : MismatchBody)
  | ptpSync (port : Fin 16) (tag : Option (BitVec 16)) (domain : Nat) (seq : BitVec 16) (origin : Option Int)
  | ptpFollowUp (port : Fin 16) (tag : Option (BitVec 16)) (domain : Nat) (seq : BitVec 16) (origin : Int)
  | ptpAnnounce (port : Fin 16) (tag : Option (BitVec 16)) (domain prio1 clockClass : Nat)
  | ptpDelayReq (port : Fin 16) (tag : Option (BitVec 16)) (domain : Nat) (seq : BitVec 16)
  | ptpDelayResp (port : Fin 16) (tag : Option (BitVec 16)) (domain : Nat) (seq : BitVec 16) (asked : PtpId) (time : Int)
  | reply (port : Fin 16) (k : EchoKind) (src : NetSrc) (addr : BitVec 128) (mac : BitVec 48)
  | chord (link : Option (Fin 2)) (h : ChordHead) (b : ChordBody)
  | latchRec (l : LatchRec)
  | casc (n : Fin 4) (h : ChordHead) (b : CascBody)
  | probeFrame (n : Fin 24) (f : CanFrame) (upTo : Nat)
  | canFrame (n : Fin 24) (f : CanFrame) (esi : Bool)
  deriving DecidableEq, Repr

end Sys2Proof
end

