-- ==== Sys2Proof/Syntax.lean ====
section
/-! DEFINITION. The commands of the device, one constructor per row of spec/opcode_table.json in the table's order.
A KCIS row names the sequencer that executes the instruction and carries its decoded operands; a host row carries what
the host writes; an event row carries what the outside, or a unit whose arithmetic the spec does not give, delivers. -/

namespace Sys2Proof

/-- A command. -/
inductive Instr where
  /-- R433. A host write to a register field that has no row of its own, each field acting by its own access code. -/
  | registerWrite (addr : BitVec 26) (wide : Bool) (v : BitVec 64)
  /-- R20. An access of the wrong size or alignment, or to a reserved address or undefined offset, reads 0 or is
  ignored and counts in HMX_HERR.ACC. -/
  | reservedAccess (addr : BitVec 26) (bytes : Nat) (write : Bool)
  /-- R5. A read of an RC field returns its value and then clears it. -/
  | readClear (addr : BitVec 26) (wide : Bool)
  /-- R44. A read of TBC_TIME_LO or TBC_TICKNO_LO latches the matching HI word. -/
  | timeLoRead (tickno : Bool)
  /-- R44. A read of LSV_PERF_FLOP_LO or LSV_PERF_CYC_LO latches the matching HI word. -/
  | perfLoRead (cyc : Bool)
  /-- R369. A read of TBC_RTCCNT_LO latches every calendar register until the next such read. -/
  | rtccntLoRead
  /-- R377. The supplies rise above their power-on thresholds; the reset is released 2 ms after the last rail, and the
  device enters RECALL. -/
  | por (straps : Straps)
  /-- R377. A supervised rail stays below its reset threshold for 1 µs and the device is reset to RECALL. -/
  | bor (rail : Fin 6) (straps : Straps)
  /-- R419. RST_N held low long enough is taken, and RECALL starts after its release. -/
  | pinReset (lowNs : Nat) (phaseTakes : Bool) (straps : Straps)
  /-- R384. The watchdog expires; the RESET saves are made and the device is reset to RECALL. -/
  | wdtReset (straps : Straps)
  /-- R383. SSU_RSTCMD GO with KEY 0x4810 causes a host reset, with the RESET saves. -/
  | hstReset (v : BitVec 32) (straps : Straps)
  /-- R286. A PCIe Function Level Reset is taken as an HST reset. -/
  | functionLevelReset (straps : Straps)
  /-- R341. NVS recall completes, having resolved every record, applied the page remaps and found the log head. -/
  | nvsRecallComplete (us : BitVec 12)
  /-- R414. The SSU reads the OTP and classifies the root slots; TEST may follow, and the JTAG port locks. -/
  | keyCheckComplete
  /-- R386. Recall, verification, DDR5 training, bus probes and link training have all ended, and the device leaves
  RECALL for TEST or HALT. -/
  | recallEnd
  /-- R18. Mode command RUN starts the device from HALT to ACTIVE or RESYNC at the next tick edge. -/
  | run
  /-- R18. Mode command STOP takes the device to HALT at the next tick edge, or at the second edge when a STANDBY
  partner takes over. -/
  | stop
  /-- R18. Mode command HOLD takes the device to SAFEHOLD at the next tick edge. -/
  | hold
  /-- R18. Mode command RELEASE takes the device from SAFEHOLD to HALT and deasserts SAFE_N. -/
  | release
  /-- R18. Mode command TEST takes the device from HALT to TEST for BIST. -/
  | test
  /-- R18. A write of an undefined command code to a command register ends FAIL_REFUSED with reason BAD_COMMAND. -/
  | badCommand (r : CmdReg) (code : Nat)
  /-- R28. The time base reaches k × T: swaps, switches and mode transitions are applied, tasks are released, loops
  sample and ACTIVE units emit. -/
  | tickEdge
  /-- R302. At phase 1 the agreed input set of the previous tick's lists is closed and VERDICT is sent. -/
  | phase1
  /-- R31. The commit deadline: uncommitted instances fail and armed changes and swaps are checked again. -/
  | phase2
  /-- R313. A STANDBY unit emits its copies of the outputs committed in the previous tick. -/
  | phase3
  /-- R43. A tick-edge spacing outside T × (1 ± 150 ppm), or a missing edge, is a TIMEBASE fault leading to SAFEHOLD. -/
  | tickFault
  /-- R30. A write of TICKLEN or AGREE in HALT sets them, or sets BADCFG when out of range, and is checked against the
  budget. -/
  | tickcfgWrite (v : BitVec 32)
  /-- R35. The PTP source qualifies after its offset has stayed below 1 µs for QUALTIME seconds. -/
  | ptpQualify (utcOffset : Int)
  /-- R35. The PTP source is lost after three missing Sync messages, or by R26 or R27. -/
  | ptpSourceLost
  /-- R35. The Apex source is lost after three consecutive missing tick markers. -/
  | apexSourceLost
  /-- R281. A PTP event message is received on the slave port and the offset is measured. -/
  | ptpSyncRx (port : Fin 16) (m : PtpMsg) (stamp : Nat)
  /-- R282. A PTP master port sends Sync every 2^LOGSYNC s. -/
  | ptpSyncTx (port : Fin 16)
  /-- R282. A PTP master port answers a Delay_Req. -/
  | ptpDelayReq (r : DelayReqRx)
  /-- R387. With PTPEN set a pending start proceeds on the local source after QUALTIME + 30 s. -/
  | startWaitExpiry
  /-- R47. Integer add. -/
  | add (sq : Sq) (g : Guard) (d a b : Reg)
  /-- R47. Integer subtract. -/
  | sub (sq : Sq) (g : Guard) (d a b : Reg)
  /-- R47. Bitwise and. -/
  | andr (sq : Sq) (g : Guard) (d a b : Reg)
  /-- R47. Bitwise or. -/
  | orr (sq : Sq) (g : Guard) (d a b : Reg)
  /-- R47. Bitwise exclusive or. -/
  | xorr (sq : Sq) (g : Guard) (d a b : Reg)
  /-- R47. Shift left by a register count. -/
  | shl (sq : Sq) (g : Guard) (d a b : Reg)
  /-- R47. Logical shift right by a register count. -/
  | shr (sq : Sq) (g : Guard) (d a b : Reg)
  /-- R47. Arithmetic shift right by a register count. -/
  | sar (sq : Sq) (g : Guard) (d a b : Reg)
  /-- R47. Saturating add, setting SAT. -/
  | adds (sq : Sq) (g : Guard) (d a b : Reg)
  /-- R47. Saturating subtract, setting SAT. -/
  | subs (sq : Sq) (g : Guard) (d a b : Reg)
  /-- R47. Signed minimum. -/
  | mins (sq : Sq) (g : Guard) (d a b : Reg)
  /-- R47. Signed maximum. -/
  | maxs (sq : Sq) (g : Guard) (d a b : Reg)
  /-- R47. Low 64 bits of a product. -/
  | mul (sq : Sq) (g : Guard) (d a b : Reg)
  /-- R47. High 64 bits of a signed product. -/
  | mulh (sq : Sq) (g : Guard) (d a b : Reg)
  /-- R55. Rounded, saturated fixed-point product. -/
  | qmul (sq : Sq) (g : Guard) (d a b : Reg) (n : Fin 64)
  /-- R55. Signed division with defined results for zero and overflow. -/
  | div (sq : Sq) (g : Guard) (d a b : Reg)
  /-- R55. Unsigned division. -/
  | divu (sq : Sq) (g : Guard) (d a b : Reg)
  /-- R55. Signed remainder. -/
  | rem (sq : Sq) (g : Guard) (d a b : Reg)
  /-- R47. Saturating absolute value. -/
  | absr (sq : Sq) (g : Guard) (d a : Reg)
  /-- R47. Select one of two registers by a predicate. -/
  | sel (sq : Sq) (g : Guard) (d a b : Reg) (p : Pred)
  /-- R47. Add a sign-extended immediate. -/
  | addi (sq : Sq) (g : Guard) (d a : Reg) (imm : BitVec 32)
  /-- R47. And with a zero-extended immediate. -/
  | andi (sq : Sq) (g : Guard) (d a : Reg) (imm : BitVec 32)
  /-- R47. Or with a zero-extended immediate. -/
  | ori (sq : Sq) (g : Guard) (d a : Reg) (imm : BitVec 32)
  /-- R47. Exclusive or with a zero-extended immediate. -/
  | xori (sq : Sq) (g : Guard) (d a : Reg) (imm : BitVec 32)
  /-- R47. Shift left by an immediate. -/
  | shli (sq : Sq) (g : Guard) (d a : Reg) (n : Fin 64)
  /-- R47. Logical shift right by an immediate. -/
  | shri (sq : Sq) (g : Guard) (d a : Reg) (n : Fin 64)
  /-- R47. Arithmetic shift right by an immediate. -/
  | sari (sq : Sq) (g : Guard) (d a : Reg) (n : Fin 64)
  /-- R47. Load a sign-extended immediate. -/
  | ldil (sq : Sq) (g : Guard) (d : Reg) (imm : BitVec 32)
  /-- R47. Load an immediate into the high word. -/
  | ldih (sq : Sq) (g : Guard) (d : Reg) (imm : BitVec 32)
  /-- R47. Compare two registers into a predicate. -/
  | cmp (sq : Sq) (g : Guard) (c : Cond) (p : Pred) (a b : Reg)
  /-- R47. Compare a register with an immediate into a predicate. -/
  | cmpi (sq : Sq) (g : Guard) (c : Cond) (p : Pred) (a : Reg) (imm : BitVec 32)
  /-- R47. Predicate logic. -/
  | plog (sq : Sq) (g : Guard) (f : PFun) (p q r : Pred)
  /-- R47. Multiply-accumulate into a 96-bit accumulator, saturating. -/
  | mac (sq : Sq) (g : Guard) (k : Acc) (a b : Reg)
  /-- R47. Multiply-subtract from a 96-bit accumulator, saturating. -/
  | msu (sq : Sq) (g : Guard) (k : Acc) (a b : Reg)
  /-- R47. Clear an accumulator. -/
  | aclr (sq : Sq) (g : Guard) (k : Acc)
  /-- R47. Read an accumulator, rounded and saturated. -/
  | ard (sq : Sq) (g : Guard) (long : Bool) (d : Reg) (k : Acc) (n : Fin 64)
  /-- R47. Move a register into an accumulator. -/
  | amov (sq : Sq) (g : Guard) (k : Acc) (a : Reg)
  /-- R56. Floating-point add. -/
  | fadd (sq : Sq) (g : Guard) (p : Prec) (d a b : Reg)
  /-- R56. Floating-point subtract. -/
  | fsub (sq : Sq) (g : Guard) (p : Prec) (d a b : Reg)
  /-- R56. Floating-point multiply. -/
  | fmul (sq : Sq) (g : Guard) (p : Prec) (d a b : Reg)
  /-- R56. Fused multiply-add. -/
  | fma (sq : Sq) (g : Guard) (p : Prec) (d a b : Reg)
  /-- R56. Floating-point divide. -/
  | fdiv (sq : Sq) (g : Guard) (p : Prec) (d a b : Reg)
  /-- R56. Floating-point square root. -/
  | fsqrt (sq : Sq) (g : Guard) (p : Prec) (d a : Reg)
  /-- R56. IEEE minimumNumber. -/
  | fmin (sq : Sq) (g : Guard) (p : Prec) (d a b : Reg)
  /-- R56. IEEE maximumNumber. -/
  | fmax (sq : Sq) (g : Guard) (p : Prec) (d a b : Reg)
  /-- R56. Floating-point compare into a predicate. -/
  | fcmp (sq : Sq) (g : Guard) (p : Prec) (c : FCond) (q : Pred) (a b : Reg)
  /-- R56. Conversion between fixed, integer and floating formats. -/
  | fcvt (sq : Sq) (g : Guard) (f : Cvt) (d a : Reg)
  /-- R51. Zero-extending load from data memory or the retained area. -/
  | ld (sq : Sq) (g : Guard) (sp : Space) (sz : Size) (d a : Reg) (disp : BitVec 32)
  /-- R51. Sign-extending load. -/
  | lds (sq : Sq) (g : Guard) (sp : Space) (sz : Size) (d a : Reg) (disp : BitVec 32)
  /-- R52. Store into the store journal. -/
  | st (sq : Sq) (g : Guard) (sp : Space) (sz : Size) (b a : Reg) (disp : BitVec 32)
  /-- R54. Load an input point's value and quality from the snapshot. -/
  | ldp (sq : Sq) (g : Guard) (d b a : Reg) (disp : BitVec 32)
  /-- R54. Write an output point's value and quality into the output image. -/
  | stp (sq : Sq) (g : Guard) (d b a : Reg) (disp : BitVec 32)
  /-- R47. No operation. -/
  | nop (sq : Sq) (g : Guard)
  /-- R78. Ends the instance and commits it whole, unless ADDR is set. -/
  | endInst (sq : Sq)
  /-- R47. Forward branch, guardable. -/
  | br (sq : Sq) (g : Guard) (off : BitVec 32)
  /-- R57. Counted loop over a bounded body. -/
  | loop (sq : Sq) (d a : Reg) (bound body : BitVec 16)
  /-- R47. Call a routine, pushing the return address. -/
  | call (sq : Sq) (g : Guard) (off : BitVec 32)
  /-- R47. Return from a routine. -/
  | ret (sq : Sq) (g : Guard)
  /-- R69. Read the instance's TFLAGS. -/
  | rdflg (sq : Sq) (g : Guard) (d : Reg)
  /-- R38. Read the release stamp. -/
  | time (sq : Sq) (g : Guard) (d : Reg)
  /-- R38. Read the release tick number. -/
  | tickn (sq : Sq) (g : Guard) (d : Reg)
  /-- R62. On-delay timer. -/
  | ton (sq : Sq) (g : Guard) (sp : Space) (p q : Pred) (a : Reg) (disp : BitVec 32)
  /-- R62. Off-delay timer. -/
  | tof (sq : Sq) (g : Guard) (sp : Space) (p q : Pred) (a : Reg) (disp : BitVec 32)
  /-- R62. Pulse timer. -/
  | tp (sq : Sq) (g : Guard) (sp : Space) (p q : Pred) (a : Reg) (disp : BitVec 32)
  /-- R63. Up counter. -/
  | ctu (sq : Sq) (g : Guard) (sp : Space) (p q : Pred) (a : Reg) (disp : BitVec 32)
  /-- R63. Down counter. -/
  | ctd (sq : Sq) (g : Guard) (sp : Space) (p q : Pred) (a : Reg) (disp : BitVec 32)
  /-- R63. Edge detector. -/
  | edge (sq : Sq) (g : Guard) (sp : Space) (m : EdgeMode) (p q : Pred) (a : Reg) (disp : BitVec 32)
  /-- R64. Rate of change of a count. -/
  | rate (sq : Sq) (g : Guard) (sp : Space) (d b a : Reg) (disp : BitVec 32)
  /-- R65. Read a Vertex status word from the snapshot. -/
  | vstat (sq : Sq) (g : Guard) (d a : Reg)
  /-- R66. Request a loop set-point. -/
  | lsp (sq : Sq) (g : Guard) (a b : Reg)
  /-- R65. Read a loop field from the snapshot. -/
  | lrd (sq : Sq) (g : Guard) (f : LrdField) (d a : Reg)
  /-- R113. Request a loop to AUTO. -/
  | lctlAuto (sq : Sq) (g : Guard) (a b : Reg)
  /-- R113. Request a loop to MANUAL with an output value. -/
  | lctlManual (sq : Sq) (g : Guard) (a b : Reg)
  /-- R113. Request a loop to TRACK a value. -/
  | lctlTrack (sq : Sq) (g : Guard) (a b : Reg)
  /-- R120. Request a loop's coefficient-bank swap. -/
  | lctlBankSwap (sq : Sq) (g : Guard) (a b : Reg)
  /-- R113. Request a loop's integral reset. -/
  | lctlResetI (sq : Sq) (g : Guard) (a b : Reg)
  /-- R65. Read a mailbox slot's status, count or tag. -/
  | mbxst (sq : Sq) (g : Guard) (f : MbxField) (d a : Reg)
  /-- R65. Copy mailbox elements into data memory via the journal. -/
  | mbxcp (sq : Sq) (g : Guard) (d a b : Reg) (n : BitVec 9)
  /-- R179. Request release of a mailbox slot, setting ACKSEQ at commit. -/
  | mbxack (sq : Sq) (g : Guard) (a : Reg)
  /-- R67. Post a program event at commit, up to eight per instance. -/
  | evt (sq : Sq) (g : Guard) (a b : Reg) (code : BitVec 16) (sev : Fin 4)
  /-- R68. Request a write of a program record at commit. -/
  | nvwr (sq : Sq) (g : Guard) (sp : Space) (a b : Reg) (len : BitVec 8)
  /-- R68. Read the write status of a program record. -/
  | nvws (sq : Sq) (g : Guard) (d a : Reg)
  /-- R61. An uncorrectable ECC error on an instruction fetch stops the instance as a sequencer fault. -/
  | fetchEccError (sq : Sq)
  /-- R87. CSA_OLC LOAD fetches a program image by DMA into the inactive half. -/
  | load (fr : Bool)
  /-- R87. The fetched image is checked in order and, passing, written to the free program slot. -/
  | loadFetchComplete (f : Fetch)
  /-- R96. ARM schedules an online change, agreed as an input, fixing the switch tick. -/
  | arm (fr : Bool)
  /-- R100. ABORT cancels a pending online change or arrives too late. -/
  | olcAbort (fr : Bool)
  /-- R90. In HALT ACTIVATE exchanges the halves and sets the program settings. -/
  | activate (fr : Bool)
  /-- R85. Force command SET places a force on a VID. -/
  | forceSet
  /-- R85. Force command RELEASE removes the force on a VID. -/
  | forceRelease
  /-- R85. Force command RELEASE_ALL removes every force. -/
  | forceReleaseAll
  /-- R118. The LPE finishes computing the due loops of the tick and commits their outputs. -/
  | lpeRunComplete
  /-- R124. A lane check fails; the loop is recomputed and the lane becomes SUSPECT or retired. -/
  | laneError (lane : Fin 8) (loop : Fin 1024) (again : Bool)
  /-- R119. A host write to a loop's coefficient bank, ignored with WRBLK for the active or pending bank. -/
  | coefWrite (bank : Bool) (loop : Fin 1024) (word : Fin 24) (v : BitVec 32)
  /-- R122. Host command SWAP of one loop, agreed and CRC-checked. -/
  | lcmdSwapLoop (loop : Fin 1024)
  /-- R122. Host command SWAP of a swap group. -/
  | lcmdSwapGroup (group : Fin 16)
  /-- R125. Host command CLEAR of one loop's sticky flags. -/
  | lcmdClearLoop (loop : Fin 1024)
  /-- R125. Host command CLEAR of every loop's sticky flags. -/
  | lcmdClearAll
  /-- R127. A doorbell write requests a read of SQHEAD and the fetch of new descriptors. -/
  | lsvDoorbell (sqHead : BitVec 32)
  /-- R127. A fetched descriptor is checked, refused, or enters the job queue. -/
  | descriptorFetch (bytes : List Byte) (cqRead : BitVec 32)
  /-- R131. The LSV starts the held job of highest PRIO once no job runs. -/
  | jobStart (o : JobOperands)
  /-- R150. A job's outcome is fixed and its completion entry is written. -/
  | jobComplete (o : JobObs)
  /-- R152. RUNTIME reaches BUDGET and the job stops FAIL_BUDGET. -/
  | jobBudgetExpiry (us : Nat)
  /-- R154. LSV_CANCELCMD cancels every held job with the given tag. -/
  | cancelJob
  /-- R129. Setting LSV_RINGCFG.EN reports the descriptors left by a reset and then begins fetching. -/
  | ringEnable (v : BitVec 32) (sqDone sqHead cqTail cqRead : BitVec 32) (left : List LeftDesc)
  /-- R157. Clearing LSV_RINGCFG.EN stops fetching while held jobs run on. -/
  | ringDisable (v : BitVec 32)
  /-- R155. An uncorrected upset on a tile makes it SUSPECT and restarts the job, or retires it. -/
  | tileUpset (tile : Fin 16) (corrected : Bool) (word : Nat)
  /-- R330. A member part's join to its coordinator is received. -/
  | partJoin (n : Fin 4) (head : ChordHead) (src dst : CAddr) (cjob : BitVec 32) (ncpl : Nat)
  /-- R330. The coordinator's join wait ends with members missing and ends every part MEMBER_LOST. -/
  | joinWaitExpiry
  /-- R331. A member part's Schur complement and residual norms reach the coordinator. -/
  | schur (n : Fin 4) (head : ChordHead) (src dst : CAddr) (vals : List Word)
  /-- R331. A member part's reduced right-hand side reaches the coordinator. -/
  | cplrhs (n : Fin 4) (head : ChordHead) (src dst : CAddr) (vals : List Word)
  /-- R331. A member part's largest step reaches the coordinator. -/
  | cplstep (n : Fin 4) (head : ChordHead) (src dst : CAddr) (vals : List Word)
  /-- R331. The coordinator's reply reaches a member part. -/
  | cplreply (n : Fin 4) (head : ChordHead) (src dst : CAddr) (vals : List Word)
  /-- R332. The coordinator's final code reaches a member part, which writes SOL and completes. -/
  | cplend (n : Fin 4) (head : ChordHead) (src dst : CAddr) (code rsn : BitVec 8) (o : JobObs)
  /-- R184. A member part waits longer than CPLWAIT and ends CASCADE_LOST. -/
  | cplwaitExpiry
  /-- R194. A reference-phase crossing ends a line cycle and its quantities and energy are computed and accumulated;
  32 is the reference set. -/
  | lineCycleEnd (f : Fin 33) (o : CycleObs)
  /-- R193. No crossing for 25 ms or a low RMS makes fixed-length cycles under NOVOLT. -/
  | novoltTimeout (f : Fin 32)
  /-- R191. 256 identical bits make a modulator input stuck. -/
  | inputStuck (inp : Fin 198)
  /-- R191. Transitions within every 256 bits for 1 ms end the stuck state. -/
  | inputUnstuck (inp : Fin 198)
  /-- R192. A bank residue error makes it SUSPECT, or retires it with a spare taking its groups. -/
  | filterBankFault (b : Fin 8)
  /-- R196. A debounced rising edge increments the pulse count; shorter excursions count as glitches. -/
  | pulseEdge (p : Fin 32) (at_ : Nat) (heldNs : Nat)
  /-- R209. A partner's latch record arrives over Chord and the pair comparison is decided. -/
  | latchRecordRx (r : LatchRec)
  /-- R209. No partner latch record within 2 ms sets PAIRMISS. -/
  | pairmissTimeout (c : Fin 96)
  /-- R205. Every PERIOD seconds the metering record is written with kind PERIODIC. -/
  | meterPeriodicSave
  /-- R205. Every operating second the heartbeat record is written. -/
  | heartbeat
  /-- R221. Calibration command START begins a run on a feeder. -/
  | calStart
  /-- R225. Calibration command ABORT ends a run early. -/
  | calAbort
  /-- R226. Calibration command WRITE places a coefficient set in an input's shadow set. -/
  | calWrite
  /-- R222. A window of W line cycles ends; gain, offset and phase are formed and convergence tested. -/
  | calWindowEnd
  /-- R223. The verification window ends and the run is accepted or rejected. -/
  | calVerifyEnd
  /-- R213. FCT_CMD PREPARE fetches a facet image by DMA. -/
  | prepare
  /-- R213. The fetched facet is checked in order and, passing, written to the free facet slot. -/
  | prepareFetchComplete (f : Fetch)
  /-- R215. FCT_CMD SWAP schedules a facet swap, agreed as an input. -/
  | swap
  /-- R220. FCT_CMD ABORT cancels a pending swap or arrives too late. -/
  | facetAbort
  /-- R213. FCT_CMD DISCARD empties the shadow facet. -/
  | discard
  /-- R230. FBC command PROBE runs the bus mode probe again in HALT. -/
  | probe (n : Fin 24)
  /-- R229. The bus mode probe reaches its outcome and the bus runs in that mode. -/
  | probeComplete (n : Fin 24) (seen : ProbeSeen)
  /-- R236. FBC command RECOVER starts recovery from bus-off. -/
  | recover (n : Fin 24)
  /-- R236. After 128 × 11 recessive bits the controller is error-active again. -/
  | recoveryComplete (n : Fin 24)
  /-- R236. FBC command CLEAR resets the controller's counters. -/
  | clearCounters (n : Fin 24)
  /-- R231. Transmit command REQUEST loads the host frame into TB2. -/
  | txRequest (n : Fin 24)
  /-- R233. Transmit command CANCEL cancels TB2 at or before its commit point. -/
  | txCancel (n : Fin 24) (at_ : CancelAt)
  /-- R232. A frame completes at its last end-of-frame bit and its request ends DONE or DONE_AFTER_RETRY. -/
  | frameTxComplete (n : Fin 24) (b : Fin 3) (stamp : Nat)
  /-- R234. An attempt ends in an error, TEC is raised and the clash count is updated. -/
  | txError (n : Fin 24) (b : Fin 3) (err : CanErr) (dataPhase inDataOrCrc : Bool)
  /-- R237. A received frame is matched against the filters and goes to the offload, the FIFO or is dropped. -/
  | frameRx (n : Fin 24) (f : CanFrame) (esi : Bool) (sofNs validNs : Nat)
  /-- R241. A read of word 0 of the head frame takes the read lock. -/
  | rxwinHeadRead (n : Fin 24)
  /-- R241. A read of the frame's last word releases the lock and removes the frame. -/
  | rxwinLastRead (n : Fin 24)
  /-- R241. DISCARD removes the head frame and releases any lock. -/
  | rxDiscard (n : Fin 24)
  /-- R238. Filter command ADD installs a host filter. -/
  | filterAdd (n : Fin 24)
  /-- R238. Filter command REMOVE removes a host filter by index. -/
  | filterRemove (n : Fin 24) (index : Fin 64)
  /-- R238. Filter command REMOVE all removes every host filter. -/
  | filterRemoveAll (n : Fin 24)
  /-- R244. A Vertex queue entry reaches its expiry tick and ends EXPIRED, cancelling its buffer. -/
  | queueEntryExpiry (n : Fin 24) (onWire : Option (Fin 3))
  /-- R245. A controller parity or comparator error makes it SUSPECT, or retires it. -/
  | fbcParityError (n : Fin 24) (tx : Option (Fin 3)) (rx : Option (Fin 64))
  /-- R256. A JOIN message is received and stamped as an input. -/
  | join (ep : Endpoint) (stamp : Nat) (h : VHead) (b : JoinBody)
  /-- R259. A LEAVE message is received and frees its context at its agreed edge. -/
  | leave (ep : Endpoint) (stamp : Nat) (h : VHead) (stationId : BitVec 64)
  /-- R264. A CACK is received and ends the copies it acknowledges once agreed. -/
  | cack (ep : Endpoint) (stamp : Nat) (h : VHead) (ackSeq : BitVec 32)
  /-- R261. A REPORT is received and its elements become input values at its agreed edge. -/
  | report (ep : Endpoint) (stamp : Nat) (h : VHead) (ackSeq : BitVec 32) (elems : List Elem)
  /-- R270. A MISMATCH report is received and, agreed, counts MMCNT and sets MM. -/
  | mismatch (ep : Endpoint) (stamp : Nat) (h : VHead) (b : MismatchBody)
  /-- R264. A copy unended after RETRY + 1 ACKTO periods ends FAIL_PEER_UNREACHABLE. -/
  | copyTimeout (v : Fin 2048)
  /-- R271. MISSMAX × RPTICKS ticks without an agreed REPORT make a context UNREACHABLE. -/
  | reportMiss (v : Fin 2048)
  /-- R266. A delivery run is written as one ring entry 1 s after its first copy ended. -/
  | deliveryRunTimeout (v : Fin 2048)
  /-- R254. A partial CAN message whose next segment is 10,000 bit times late is discarded. -/
  | segmentTimeout (n : Fin 24) (id : BitVec 29)
  /-- R274. Host command RELEASE frees a context at its agreed edge. -/
  | vcmdRelease (v : Fin 2048)
  /-- R274. Host command CLEARMM clears a context's MMCNT. -/
  | clearmm (v : Fin 2048)
  /-- R310. An ACTIVE unit sends CLAIMNOTE every 10 ms and at a new claim. -/
  | claimnoteSend
  /-- R309. A CLAIMNOTE from the other side of the same member is heard as a claim. -/
  | claimnote (port : Fin 16) (member : Fin 8) (side : Side) (claim : BitVec 32)
  /-- R276. An Ethernet port's link comes up after negotiation. -/
  | linkUp (p : Fin 16) (speed : Fin 4) (aneg : Bool)
  /-- R283. An Ethernet port's link falls; its contexts and PTP source follow. -/
  | linkDown (p : Fin 16)
  /-- R283. A MAC parity or comparator error makes the port SUSPECT, or retires it. -/
  | portParityError (u : PortUpset)
  /-- R278. An ARP, neighbour solicitation or echo request for the port is answered. -/
  | arpEchoReply (p : Fin 16) (k : EchoKind) (src : EchoSrc) (mac : BitVec 48)
  /-- R286. PERST, hot reset, link down or D3hot return resets only the PCIe endpoint. -/
  | endpointReset
  /-- R285. Unmasking a vector sends its pending message. -/
  | msixUnmask (vec : Fin 64)
  /-- R288. A write of HMX_DMADB sets a queue's head. -/
  | dmaDoorbell (q : Fin 4) (head : BitVec 32)
  /-- R289. A DMA descriptor's outcome is fixed, written back and TAIL advanced. -/
  | dmaDescriptorEnd (q : Fin 4) (desc : List Byte) (seen : DmaSeen)
  /-- R288. Setting a DMA queue's EN reports descriptors left by a reset before new work. -/
  | dmaQueueEnable (q : Fin 4) (v : BitVec 32) (left : List LeftDesc)
  /-- R292. A write of HMX_SPLIT changes the division, or is refused with BADCFG. -/
  | splitWrite (v : BitVec 32)
  /-- R291. A BAR2 access to workspace, a retired tile or untrained DDR5 is refused and counted. -/
  | bar2Refused (off : Nat) (bytes : Nat) (wr : Option (List Byte))
  /-- R294. DDR5 training ends with each channel's rate, or disabled. -/
  | ddrTrainComplete (ch0 ch1 : Option (Fin 4)) (size : BitVec 10)
  /-- R295. An uncorrectable DDR5 error acts on the job, the DMA or the BAR2 read. -/
  | ddrUncorrectable (ch : Fin 2) (where_ : Nat)
  /-- R295. The patrol scrub rewrites corrected words over 24 h. -/
  | ddrPatrolScrub (corrected : Nat)
  /-- R297. A Chord link completes training and begins HELLO. -/
  | chordTrained (n : Fin 2) (lanes : Fin 8) (rate : Bool) (lat : Nat)
  /-- R297. A Chord link loses lock and trains again. -/
  | chordLockLost (n : Fin 2)
  /-- R298. A HELLO is received and the link pairs or is refused. -/
  | hello (n : Fin 2) (head : ChordHead) (h : Hello)
  /-- R299. A KEEP frame is received, carrying the partner's mode and SAVE state. -/
  | keep (l : SerialLink) (head : ChordHead)
  /-- R301. A forwarded INPUT frame from the partner is received into its list. -/
  | input (n : Fin 2) (head : ChordHead) (inp : Input)
  /-- R302. The partner's CLOSE for a tick is received. -/
  | close (n : Fin 2) (head : ChordHead) (count : Nat) (digest : BitVec 64)
  /-- R305. A STANDBY unit receives the VERDICT and builds the agreed set. -/
  | verdict (n : Fin 2) (head : ChordHead) (v : Verdict)
  /-- R306. The partner's tick digest is received. -/
  | digest (n : Fin 2) (head : ChordHead) (d : BitVec 64)
  /-- R314. A STANDBY unit receives YIELD and takes over at the effective edge. -/
  | yield (n : Fin 2) (head : ChordHead) (edge reason : Nat)
  /-- R309. A CLAIM frame is received and heard as a claim. -/
  | claim (n : Fin 2) (head : ChordHead) (claim : BitVec 32) (edge : Nat)
  /-- R316. The ACTIVE unit receives COPYREQ and starts the state copy. -/
  | copyreq (n : Fin 2) (head : ChordHead)
  /-- R316. A resyncing unit receives a region of the state copy. -/
  | region (n : Fin 2) (head : ChordHead) (bytes : Nat) (whole : Bool) (d : RegionData)
  /-- R318. A resyncing unit receives and applies the commit stream. -/
  | commits (n : Fin 2) (head : ChordHead) (c : CommitRec)
  /-- R316. A resyncing unit receives the end of the region copy. -/
  | copyend (n : Fin 2) (head : ChordHead)
  /-- R299. A frame-sequence gap unfilled 2 µs after it is seen is requested once. -/
  | fseqGapTimeout (l : SerialLink)
  /-- R299. A CRC error is an upset of the link, retiring it on a second. -/
  | chordCrcError (n : Fin 2)
  /-- R300. Every second each link's latency is measured and its fitness for agreement judged. -/
  | latencyMeasure (l : SerialLink) (lat : Nat)
  /-- R305. At the verdict limit the STANDBY unit checks VERDICT and digests, and decides silence or out of step. -/
  | verdictLimit
  /-- R319. No frame from the partner on any link for 4 µs. -/
  | partnerSilence
  /-- R318. A copy not complete 60 s after COPYREQ ends FAIL_BUDGET COPY_RATE. -/
  | copyTimeLimit
  /-- R311. No link lock for ABSENT seconds makes the partner not running. -/
  | partnerAbsentExpiry
  /-- R320. Pair command SWAP exchanges the roles at the edge after agreement. -/
  | rduSwap
  /-- R320. Pair command CLEAR resets the RDU counters. -/
  | rduClearCounters
  /-- R322. A cascade link completes training and begins CHELLO. -/
  | cascadeTrained (n : Fin 4) (lanes : Fin 8) (lat : Nat)
  /-- R322. A CHELLO is received and the link is accepted or refused. -/
  | chello (n : Fin 4) (head : ChordHead) (h : CHello)
  /-- R325. A tick marker is received, forwarded and used to discipline the time base. -/
  | tickmark (n : Fin 4) (head : ChordHead) (k delay stamp hops : Nat)
  /-- R324. A ROSTER frame is received and forwarded on the tree. -/
  | roster (n : Fin 4) (head : ChordHead) (units : List RUnit)
  /-- R324. The root broadcasts ROSTER once per second. -/
  | rosterBroadcast
  /-- R324. A unit's STATE frame reaches the root. -/
  | stateFrame (n : Fin 4) (head : ChordHead) (u : RUnit)
  /-- R324. Three missed STATE frames make the root declare a unit or member lost. -/
  | memberLost (member : Fin 8) (side : Side)
  /-- R328. An EXPORT frame is received as an input and forwarded on the tree. -/
  | exportFrame (n : Fin 4) (head : ChordHead) (m : Fin 8) (side : Side) (c : BitVec 32) (k stamp : Nat) (l : List Elem)
  /-- R342. The write engine starts the next queued write in class order. -/
  | nvsWriteStart
  /-- R336. A record copy is written through MARK and its write ends, reported to its requester. -/
  | nvsWriteComplete
  /-- R344. Every PERIOD seconds the retained area is saved with kind PERIODIC. -/
  | retainedPeriodicSave
  /-- R347. Every 5 s one page is read twice and refreshed if needed. -/
  | scrub (corrected uncorr : Bool) (copy : Option (Nat × Bool))
  /-- R346. Each hour the highest record write rate is measured and NVS_WEAR recorded above 30 per second. -/
  | nvsWear
  /-- R360. EVR command FREEZE stops all log writes. -/
  | freeze
  /-- R361. EVR command THAW ends a freeze and writes the staged records. -/
  | thaw
  /-- R363. EVR command CLEAR_COUNTS sets every LOST and DROP count to 0. -/
  | clearCounts
  /-- R363. EVR command CLEAR_LOG invalidates every slot and writes LOG_CLEARED and a TIME_ANCHOR. -/
  | clearLog
  /-- R361. A freeze ends FRZMAX seconds after FREEZE. -/
  | freezeTimeout
  /-- R358. A write of EVR_CURSOR moves the cursor and marks passed slots read. -/
  | cursorWrite (v : BitVec 15)
  /-- R355. A TIME_ANCHOR is written every ANCHOR minutes and after each calendar change. -/
  | timeAnchor
  /-- R354. The operating seconds advance once per second of the reference clock. -/
  | opsecAdvance
  /-- R370. Calendar command SET checks the staged date and time. -/
  | rtcSet
  /-- R370. An accepted SET is applied at the next second boundary, clearing OSF. -/
  | rtcSetApply
  /-- R371. Once per minute under PTP or Apex the calendar is compared and set if needed. -/
  | calendarCheck (utcOffset : Int)
  /-- R374. A time-base or grid measurement completes and TRIM is computed and applied. -/
  | trimMeasurementEnd (grid : Bool) (pulses refS : Nat) (good : Bool)
  /-- R373. A new trim window begins, taking any new TRIM or W. -/
  | trimWindowStart
  /-- R366. No 32 kHz edge for 125 µs or loss of retention sets OSF. -/
  | oscillatorStop
  /-- R378. SENSE_BULK below 1.000 V for 2 µs raises the warning, drives WARN_N and enters SAVE. -/
  | powerWarning
  /-- R378. SENSE_BULK above 1.050 V for 1 ms clears the warning. -/
  | warningCleared
  /-- R379. Both chains of the SAVE sequence have ended. -/
  | saveSequenceComplete (us : BitVec 16)
  /-- R384. The host watchdog expires: a WDT reset with ACT 1, or HOST_WD and a restart with ACT 0. -/
  | hostWatchdogExpiry (straps : Straps)
  /-- R384. A write of 0x4B1C to SSU_WDTKICK restarts the host watchdog. -/
  | wdtKick (v : BitVec 32)
  /-- R395. In TEST the next BIST wave starts once the previous has ended. -/
  | bistWaveStart
  /-- R397. A BIST wave ends and failed resources are retired; the last wave returns the device to RECALL. -/
  | bistWaveEnd (failed : List Resource) (ms : BitVec 8)
  /-- R391. A fault window closes without a second upset and the resource returns to its prior state. -/
  | faultWindowClose (r : Resource)
  /-- R394. Service command CLEAR_RETIRE clears the retirement list and sets the BIST-request flag. -/
  | clearRetire (key : BitVec 16)
  /-- R394. Service command RESET_CLAIM sets the stored claim to 1 on side A or 0 on side B. -/
  | resetClaim (key : BitVec 16)
  /-- R410. OTP command PROGRAM_ROOT programs a root slot. -/
  | programRoot (key : BitVec 16) (index : Fin 4) (ok : Bool)
  /-- R410. OTP command REVOKE revokes a root slot. -/
  | revoke (key : BitVec 16) (index : Fin 4) (ok : Bool)
  /-- R410. OTP command RAISE_PFLOOR raises the program version floor. -/
  | raisePfloor (key : BitVec 16) (value : BitVec 7) (ok : Bool)
  /-- R410. OTP command RAISE_FFLOOR raises the facet version floor. -/
  | raiseFfloor (key : BitVec 16) (value : BitVec 7) (ok : Bool)
  /-- R410. OTP command SET_BISTSTART blows the BIST-at-start bit. -/
  | setBiststart (key : BitVec 16) (ok : Bool)
  /-- R410. OTP command JTAG_OFF blows the JTAG-off bit. -/
  | jtagOff (key : BitVec 16) (ok : Bool)
  /-- R412. QUOTE requests a signed attestation quote. -/
  | quote
  /-- R413. The quote is signed and written by DMA. -/
  | quoteComplete (ok : Bool)
  /-- R414. A boundary-scan instruction is taken by the test access port. -/
  | jtagInstruction (ti : TapInstr)
  /-- R231. A controller loses arbitration on its bus and chooses the next frame among its loaded buffers, counting no
  error. -/
  | arbitrationLoss (n : Fin 24) (b : Fin 3)
  /-- R227. A frame being received ends in an error, raising REC and updating LEC and the error-passive state. -/
  | receiveError (n : Fin 24) (err : CanErr) (dataPhase : Bool)
  /-- R278. A port receives a frame it does not accept, or a malformed or fragmented Vertex datagram, and drops it,
  counting DROPPED or BADMSG. -/
  | frameDropped (p : Fin 16) (k : DropKind)
  /-- R322. A cascade link loses lock and trains again, and its role in the tree is lost. -/
  | cascadeLockLost (n : Fin 4)
  /-- R322. A CRC error on a cascade link is an upset of that link and retires it on a second within its window. -/
  | cascadeCrcError (n : Fin 4)
  /-- R284. The PCIe link trains after an endpoint reset or power-up and HMX_STATUS shows its rate, width and LINKUP. -/
  | pcieLinkTrained (gen : Fin 4) (width : Fin 8)
  /-- R377. VBAT falls below 2.0 V and SSU_SUPPLY.VBATLOW is set, or rises again. -/
  | vbatLow (low : Bool)
  /-- R368. The battery-domain calendar counts one second from the trimmed 32.768 kHz oscillator, rolling over after
  2399-12-31 with OSF set. -/
  | calendarSecond
  /-- R341. A host read of the NVS or EVR window during recall returns 0 and sets NVS_STATUS.BUSYRD. -/
  | nvsWindowRead (addr : BitVec 26)
  /-- R429. Every 1 ms the on-die sensor updates SSU_TEMP.TJ and raises MAX when exceeded. -/
  | temperatureUpdate (tj : BitVec 12)
  /-- R267. A receiver takes a CMD copy of its stream, acts on it or discards it by the claim and sequence rules, and
  sends CACK or MISMATCH. -/
  | cmdCopy (stationId : BitVec 64) (c : CmdCopy) (now : Nat)
  /-- R267. A station accepts a JOIN_ACK for its STATIONID, starts its session and clears its stream state with LAST
  set to 0. -/
  | joinAck (stationId : BitVec 64) (b : JoinAckBody)
  /-- R269. A receiver that has had no CMD of its session for RPTICKS + CW ticks takes its own safe state. -/
  | receiverSafeState (stationId : BitVec 64) (now : Nat)
  deriving DecidableEq, Repr

end Sys2Proof
end

