-- ==== Sys2Proof/Decode.lean ====
section
/-! DEFINITION. The words of the KCIS instruction set (Tables 3.2 to 3.13, R49, R50): fields, decoder and encoder, as the
loader uses them; and the host's question about the opcode table, whose rows give no bits. -/

namespace Sys2Proof

/-- The fields of a KCIS word (Table 3.2). -/
structure KFields where
  op : BitVec 8
  g : BitVec 1
  gn : BitVec 1
  gp : BitVec 3
  rd : BitVec 5
  ra : BitVec 5
  rb : BitVec 5
  sub : BitVec 4
  imm : BitVec 32
  deriving DecidableEq, Repr

/-- The word of its fields, OP in bits 63:56 down to IMM in bits 31:0. -/
def kPack (f : KFields) : Word := f.op ++ f.g ++ f.gn ++ f.gp ++ f.rd ++ f.ra ++ f.rb ++ f.sub ++ f.imm

/-- The fields of a word. -/
def kUnpack (w : Word) : KFields where
  op := w.extractLsb' 56 8
  g := w.extractLsb' 55 1
  gn := w.extractLsb' 54 1
  gp := w.extractLsb' 51 3
  rd := w.extractLsb' 46 5
  ra := w.extractLsb' 41 5
  rb := w.extractLsb' 36 5
  sub := w.extractLsb' 32 4
  imm := w.extractLsb' 0 32

/-- The guard of a word: with G = 0, GN and GP must be 0 (R50). -/
def guardOf (f : KFields) : Option Guard :=
  if f.g = 1 then some (.on f.gp.toFin (f.gn = 1))
  else if f.gn = 0 ∧ f.gp = 0 then some .always else none

/-- The guard bits G, GN and GP of an instruction. -/
def guardBits : Guard → BitVec 1 × BitVec 1 × BitVec 3
  | .always => (0, 0, 0)
  | .on p neg => (1, if neg then 1 else 0, BitVec.ofFin p)

/-- A predicate field: bits 4:3 must be 0 (R50). -/
def predOf (b : BitVec 5) : Option Pred := if h : b.toNat < 8 then some ⟨b.toNat, h⟩ else none

/-- An accumulator field holds 0 or 1 (R50). -/
def accOf (b : BitVec 5) : Option Acc := if b = 0 then some false else if b = 1 then some true else none

/-- The bits of a predicate. -/
def predBits (p : Pred) : BitVec 5 := BitVec.ofNat 5 p.val

/-- The bits of an accumulator. -/
def accBits (k : Acc) : BitVec 5 := if k then 1 else 0

/-- A shift count in IMM[5:0], the rest 0. DESIGN CHOICE (log 54): Table 3.5 states imm[31:6] = 0 for SHLI alone;
SHRI, SARI, QMUL and ARD read the same layout, and a word of theirs with other bits there is refused BAD_ENCODING too.
-/
def shiftOf (b : BitVec 32) : Option (Fin 64) := if h : b.toNat < 64 then some ⟨b.toNat, h⟩ else none

/-- The bits of a shift count. -/
def shiftBits (n : Fin 64) : BitVec 32 := BitVec.ofNat 32 n.val

/-- Table 3.4 and SPACE: SUB[3:2] and SUB[1:0] of a memory instruction; SPACE 2 and 3 are refused (R51). -/
def memSub (b : BitVec 4) : Option (Space × Size) :=
  match b.toNat with
  | 0 => some (.data, .b8) | 1 => some (.data, .b16) | 2 => some (.data, .b32) | 3 => some (.data, .b64)
  | 4 => some (.retained, .b8) | 5 => some (.retained, .b16) | 6 => some (.retained, .b32) | 7 => some (.retained, .b64)
  | _ => none

/-- SUB of a memory instruction. -/
def memBits (sp : Space) (sz : Size) : BitVec 4 :=
  (match sp with | .data => 0 | .retained => 4) + (match sz with | .b8 => 0 | .b16 => 1 | .b32 => 2 | .b64 => 3)

/-- SPACE alone, SIZE 0. -/
def spaceOf (b : BitVec 4) : Option Space := if b = 0 then some .data else if b = 4 then some .retained else none

/-- SUB of SPACE alone. -/
def spaceBits (sp : Space) : BitVec 4 := match sp with | .data => 0 | .retained => 4

/-- SPACE and the mode of EDGE. -/
def edgeSub (b : BitVec 4) : Option (Space × EdgeMode) :=
  match b.toNat with
  | 0 => some (.data, .rising) | 1 => some (.data, .falling) | 2 => some (.data, .either)
  | 4 => some (.retained, .rising) | 5 => some (.retained, .falling) | 6 => some (.retained, .either)
  | _ => none

/-- SUB of EDGE. -/
def edgeBits (sp : Space) (m : EdgeMode) : BitVec 4 :=
  (match sp with | .data => 0 | .retained => 4) + (match m with | .rising => 0 | .falling => 1 | .either => 2)

/-- The compare conditions of SUB. -/
def condOf (b : BitVec 4) : Option Cond :=
  match b.toNat with
  | 0 => some .eq | 1 => some .ne | 2 => some .lt | 3 => some .ge | 4 => some .ltu | 5 => some .geu | _ => none

/-- SUB of a condition. -/
def condBits : Cond → BitVec 4
  | .eq => 0 | .ne => 1 | .lt => 2 | .ge => 3 | .ltu => 4 | .geu => 5

/-- The predicate functions of SUB. -/
def pfunOf (b : BitVec 4) : Option PFun :=
  match b.toNat with
  | 0 => some .and | 1 => some .or | 2 => some .xor | 3 => some .andn | 4 => some .not | 5 => some .set | 6 => some .clr
  | 7 => some .mov | _ => none

/-- SUB of a predicate function. -/
def pfunBits : PFun → BitVec 4
  | .and => 0 | .or => 1 | .xor => 2 | .andn => 3 | .not => 4 | .set => 5 | .clr => 6 | .mov => 7

/-- The precision of SUB[0], SUB[3:1] being 0. -/
def precOf (b : BitVec 4) : Option Prec := if b = 0 then some .double else if b = 1 then some .single else none

/-- SUB of a precision. -/
def precBits : Prec → BitVec 4
  | .double => 0 | .single => 1

/-- SUB of FCMP: condition in SUB[3:1], precision in SUB[0]. -/
def fcmpOf (b : BitVec 4) : Option (FCond × Prec) :=
  match b.toNat with
  | 0 => some (.eq, .double) | 1 => some (.eq, .single) | 2 => some (.lt, .double) | 3 => some (.lt, .single)
  | 4 => some (.le, .double) | 5 => some (.le, .single) | 6 => some (.un, .double) | 7 => some (.un, .single) | _ => none

/-- SUB of FCMP. -/
def fcmpBits (c : FCond) (p : Prec) : BitVec 4 :=
  (match c with | .eq => 0 | .lt => 2 | .le => 4 | .un => 6) + precBits p

/-- The conversions of Table 3.8. -/
def cvtOf (b : BitVec 4) : Option Cvt :=
  match b.toNat with
  | 0 => some .qd | 1 => some .dq | 2 => some .id | 3 => some .di | 4 => some .sd | 5 => some .ds | 6 => some .qs
  | 7 => some .sq | _ => none

/-- SUB of a conversion. -/
def cvtBits : Cvt → BitVec 4
  | .qd => 0 | .dq => 1 | .id => 2 | .di => 3 | .sd => 4 | .ds => 5 | .qs => 6 | .sq => 7

/-- The fields of LRD. -/
def lrdOf (b : BitVec 4) : Option LrdField :=
  match b.toNat with
  | 0 => some .output | 1 => some .process | 2 => some .setpoint | 3 => some .status | _ => none

/-- SUB of LRD. -/
def lrdBits : LrdField → BitVec 4
  | .output => 0 | .process => 1 | .setpoint => 2 | .status => 3

/-- The fields of MBXST. -/
def mbxOf (b : BitVec 4) : Option MbxField :=
  match b.toNat with
  | 0 => some .status | 1 => some .count | 2 => some .tag | _ => none

/-- SUB of MBXST. -/
def mbxBits : MbxField → BitVec 4
  | .status => 0 | .count => 1 | .tag => 2

/-- MBXCP n, 1 to 256. DESIGN CHOICE (log 55): the spec gives the range of MBXCP n, NVWR len and the layout of EVT but
no reason for a word outside them; it is refused BAD_ENCODING. -/
def countOf (b : BitVec 32) : Option (BitVec 9) :=
  if 1 ≤ b.toNat ∧ b.toNat ≤ 256 then some (b.setWidth 9) else none

/-- NVWR len, 1 to 240; a word outside it is refused BAD_ENCODING (DESIGN CHOICE, log 55). -/
def lenOf (b : BitVec 32) : Option (BitVec 8) :=
  if 1 ≤ b.toNat ∧ b.toNat ≤ 240 then some (b.setWidth 8) else none

/-- EVT: code in IMM[15:0], severity in IMM[17:16], the code within 0xE000 to 0xEFFF (R67); IMM[31:18]
other than 0 is refused BAD_ENCODING (DESIGN CHOICE, log 55). -/
def evtOf (b : BitVec 32) : Option (BitVec 16 × Fin 4) :=
  if b.extractLsb' 18 14 = 0 ∧ 0xE000 ≤ (b.extractLsb' 0 16).toNat ∧ (b.extractLsb' 0 16).toNat ≤ 0xEFFF then
    some (b.extractLsb' 0 16, (b.extractLsb' 16 2).toFin)
  else none

/-- IMM of EVT. -/
def evtBits (code : BitVec 16) (sev : Fin 4) : BitVec 32 := (0 : BitVec 14) ++ (BitVec.ofFin sev : BitVec 2) ++ code

/-- The fields an encoding sets; those it does not name are 0 (R50). -/
def kf (op : BitVec 8) (g : Guard) (rd ra rb : BitVec 5) (sub : BitVec 4) (imm : BitVec 32) : KFields :=
  let b := guardBits g
  ⟨op, b.1, b.2.1, b.2.2, rd, ra, rb, sub, imm⟩

/-- The bits of a register. -/
def regBits (r : Reg) : BitVec 5 := BitVec.ofFin r

/-- The fields of a KCIS instruction; a row that is no instruction has none. -/
def kFields : Instr → Option KFields
  | .add _ g d a b => some (kf 0x10 g (regBits d) (regBits a) (regBits b) 0 0)
  | .sub _ g d a b => some (kf 0x11 g (regBits d) (regBits a) (regBits b) 0 0)
  | .andr _ g d a b => some (kf 0x12 g (regBits d) (regBits a) (regBits b) 0 0)
  | .orr _ g d a b => some (kf 0x13 g (regBits d) (regBits a) (regBits b) 0 0)
  | .xorr _ g d a b => some (kf 0x14 g (regBits d) (regBits a) (regBits b) 0 0)
  | .shl _ g d a b => some (kf 0x15 g (regBits d) (regBits a) (regBits b) 0 0)
  | .shr _ g d a b => some (kf 0x16 g (regBits d) (regBits a) (regBits b) 0 0)
  | .sar _ g d a b => some (kf 0x17 g (regBits d) (regBits a) (regBits b) 0 0)
  | .adds _ g d a b => some (kf 0x18 g (regBits d) (regBits a) (regBits b) 0 0)
  | .subs _ g d a b => some (kf 0x19 g (regBits d) (regBits a) (regBits b) 0 0)
  | .mins _ g d a b => some (kf 0x1A g (regBits d) (regBits a) (regBits b) 0 0)
  | .maxs _ g d a b => some (kf 0x1B g (regBits d) (regBits a) (regBits b) 0 0)
  | .mul _ g d a b => some (kf 0x1C g (regBits d) (regBits a) (regBits b) 0 0)
  | .mulh _ g d a b => some (kf 0x1D g (regBits d) (regBits a) (regBits b) 0 0)
  | .qmul _ g d a b n => some (kf 0x1E g (regBits d) (regBits a) (regBits b) 0 (shiftBits n))
  | .div _ g d a b => some (kf 0x1F g (regBits d) (regBits a) (regBits b) 0 0)
  | .divu _ g d a b => some (kf 0x20 g (regBits d) (regBits a) (regBits b) 0 0)
  | .rem _ g d a b => some (kf 0x21 g (regBits d) (regBits a) (regBits b) 0 0)
  | .absr _ g d a => some (kf 0x22 g (regBits d) (regBits a) 0 0 0)
  | .sel _ g d a b p => some (kf 0x23 g (regBits d) (regBits a) (regBits b) (BitVec.ofNat 4 p.val) 0)
  | .addi _ g d a imm => some (kf 0x28 g (regBits d) (regBits a) 0 0 imm)
  | .andi _ g d a imm => some (kf 0x29 g (regBits d) (regBits a) 0 0 imm)
  | .ori _ g d a imm => some (kf 0x2A g (regBits d) (regBits a) 0 0 imm)
  | .xori _ g d a imm => some (kf 0x2B g (regBits d) (regBits a) 0 0 imm)
  | .shli _ g d a n => some (kf 0x2C g (regBits d) (regBits a) 0 0 (shiftBits n))
  | .shri _ g d a n => some (kf 0x2D g (regBits d) (regBits a) 0 0 (shiftBits n))
  | .sari _ g d a n => some (kf 0x2E g (regBits d) (regBits a) 0 0 (shiftBits n))
  | .ldil _ g d imm => some (kf 0x2F g (regBits d) 0 0 0 imm)
  | .ldih _ g d imm => some (kf 0x30 g (regBits d) 0 0 0 imm)
  | .cmp _ g c p a b => some (kf 0x34 g (predBits p) (regBits a) (regBits b) (condBits c) 0)
  | .cmpi _ g c p a imm => some (kf 0x35 g (predBits p) (regBits a) 0 (condBits c) imm)
  | .plog _ g h p q r => some (kf 0x36 g (predBits p) (predBits q) (predBits r) (pfunBits h) 0)
  | .mac _ g k a b => some (kf 0x38 g (accBits k) (regBits a) (regBits b) 0 0)
  | .msu _ g k a b => some (kf 0x39 g (accBits k) (regBits a) (regBits b) 0 0)
  | .aclr _ g k => some (kf 0x3A g (accBits k) 0 0 0 0)
  | .ard _ g long d k n => some (kf 0x3B g (regBits d) (accBits k) 0 (if long then 1 else 0) (shiftBits n))
  | .amov _ g k a => some (kf 0x3C g (accBits k) (regBits a) 0 0 0)
  | .fadd _ g p d a b => some (kf 0x40 g (regBits d) (regBits a) (regBits b) (precBits p) 0)
  | .fsub _ g p d a b => some (kf 0x41 g (regBits d) (regBits a) (regBits b) (precBits p) 0)
  | .fmul _ g p d a b => some (kf 0x42 g (regBits d) (regBits a) (regBits b) (precBits p) 0)
  | .fma _ g p d a b => some (kf 0x43 g (regBits d) (regBits a) (regBits b) (precBits p) 0)
  | .fdiv _ g p d a b => some (kf 0x44 g (regBits d) (regBits a) (regBits b) (precBits p) 0)
  | .fmin _ g p d a b => some (kf 0x46 g (regBits d) (regBits a) (regBits b) (precBits p) 0)
  | .fmax _ g p d a b => some (kf 0x47 g (regBits d) (regBits a) (regBits b) (precBits p) 0)
  | .fsqrt _ g p d a => some (kf 0x45 g (regBits d) (regBits a) 0 (precBits p) 0)
  | .fcmp _ g p c q a b => some (kf 0x48 g (predBits q) (regBits a) (regBits b) (fcmpBits c p) 0)
  | .fcvt _ g h d a => some (kf 0x49 g (regBits d) (regBits a) 0 (cvtBits h) 0)
  | .ld _ g sp sz d a disp => some (kf 0x50 g (regBits d) (regBits a) 0 (memBits sp sz) disp)
  | .lds _ g sp sz d a disp => some (kf 0x51 g (regBits d) (regBits a) 0 (memBits sp sz) disp)
  | .st _ g sp sz b a disp => some (kf 0x52 g 0 (regBits a) (regBits b) (memBits sp sz) disp)
  | .ldp _ g d b a disp => some (kf 0x53 g (regBits d) (regBits a) (regBits b) 0 disp)
  | .stp _ g d b a disp => some (kf 0x54 g (regBits d) (regBits a) (regBits b) 0 disp)
  | .nop _ g => some (kf 0x01 g 0 0 0 0 0)
  | .endInst _ => some (kf 0x02 .always 0 0 0 0 0)
  | .br _ g off => some (kf 0x03 g 0 0 0 0 off)
  | .loop _ d a bound body => some (kf 0x04 .always (regBits d) (regBits a) 0 0 (bound ++ body))
  | .call _ g off => some (kf 0x05 g 0 0 0 0 off)
  | .ret _ g => some (kf 0x06 g 0 0 0 0 0)
  | .rdflg _ g d => some (kf 0x07 g (regBits d) 0 0 0 0)
  | .time _ g d => some (kf 0x58 g (regBits d) 0 0 0 0)
  | .tickn _ g d => some (kf 0x59 g (regBits d) 0 0 0 0)
  | .ton _ g sp p q a disp => some (kf 0x5A g (predBits p) (regBits a) (predBits q) (spaceBits sp) disp)
  | .tof _ g sp p q a disp => some (kf 0x5B g (predBits p) (regBits a) (predBits q) (spaceBits sp) disp)
  | .tp _ g sp p q a disp => some (kf 0x5C g (predBits p) (regBits a) (predBits q) (spaceBits sp) disp)
  | .ctu _ g sp p q a disp => some (kf 0x5D g (predBits p) (regBits a) (predBits q) (spaceBits sp) disp)
  | .ctd _ g sp p q a disp => some (kf 0x5E g (predBits p) (regBits a) (predBits q) (spaceBits sp) disp)
  | .edge _ g sp m p q a disp => some (kf 0x5F g (predBits p) (regBits a) (predBits q) (edgeBits sp m) disp)
  | .rate _ g sp d b a disp => some (kf 0x60 g (regBits d) (regBits a) (regBits b) (spaceBits sp) disp)
  | .vstat _ g d a => some (kf 0x68 g (regBits d) (regBits a) 0 0 0)
  | .lsp _ g a b => some (kf 0x69 g 0 (regBits a) (regBits b) 0 0)
  | .lrd _ g h d a => some (kf 0x6A g (regBits d) (regBits a) 0 (lrdBits h) 0)
  | .lctlAuto _ g a b => some (kf 0x6B g 0 (regBits a) (regBits b) 0 0)
  | .lctlManual _ g a b => some (kf 0x6B g 0 (regBits a) (regBits b) 1 0)
  | .lctlTrack _ g a b => some (kf 0x6B g 0 (regBits a) (regBits b) 2 0)
  | .lctlBankSwap _ g a b => some (kf 0x6B g 0 (regBits a) (regBits b) 3 0)
  | .lctlResetI _ g a b => some (kf 0x6B g 0 (regBits a) (regBits b) 4 0)
  | .mbxst _ g h d a => some (kf 0x6C g (regBits d) (regBits a) 0 (mbxBits h) 0)
  | .mbxcp _ g d a b n => some (kf 0x6D g (regBits d) (regBits a) (regBits b) 0 (n.setWidth 32))
  | .mbxack _ g a => some (kf 0x6E g 0 (regBits a) 0 0 0)
  | .evt _ g a b code sev => some (kf 0x6F g 0 (regBits a) (regBits b) 0 (evtBits code sev))
  | .nvwr _ g sp a b len => some (kf 0x70 g 0 (regBits a) (regBits b) (spaceBits sp) (len.setWidth 32))
  | .nvws _ g d a => some (kf 0x71 g (regBits d) (regBits a) 0 0 0)
  | _ => none

/-- The word of a KCIS instruction. -/
def kEncode (i : Instr) : Option Word := (kFields i).map kPack

/-- The instructions whose words may carry a guard, with that guard. DESIGN CHOICE (log 56): a field the format has
but the selected function leaves unused (RB of LCTL AUTO, BANK_SWAP and RESET_I; pa or pb of PLOG NOT, SET, CLR and
MOV) may hold any value. -/
def kGuarded (sq : Sq) (g : Guard) (f : KFields) : Option Instr :=
  match f.op.toNat with
  | 0x01 => if f.rd = 0 ∧ f.ra = 0 ∧ f.rb = 0 ∧ f.sub = 0 ∧ f.imm = 0 then some (.nop sq g) else none
  | 0x03 => if f.rd = 0 ∧ f.ra = 0 ∧ f.rb = 0 ∧ f.sub = 0 then some (.br sq g f.imm) else none
  | 0x05 => if f.rd = 0 ∧ f.ra = 0 ∧ f.rb = 0 ∧ f.sub = 0 then some (.call sq g f.imm) else none
  | 0x06 => if f.rd = 0 ∧ f.ra = 0 ∧ f.rb = 0 ∧ f.sub = 0 ∧ f.imm = 0 then some (.ret sq g) else none
  | 0x07 => if f.ra = 0 ∧ f.rb = 0 ∧ f.sub = 0 ∧ f.imm = 0 then some (.rdflg sq g f.rd.toFin) else none
  | 0x10 => if f.sub = 0 ∧ f.imm = 0 then some (.add sq g f.rd.toFin f.ra.toFin f.rb.toFin) else none
  | 0x11 => if f.sub = 0 ∧ f.imm = 0 then some (.sub sq g f.rd.toFin f.ra.toFin f.rb.toFin) else none
  | 0x12 => if f.sub = 0 ∧ f.imm = 0 then some (.andr sq g f.rd.toFin f.ra.toFin f.rb.toFin) else none
  | 0x13 => if f.sub = 0 ∧ f.imm = 0 then some (.orr sq g f.rd.toFin f.ra.toFin f.rb.toFin) else none
  | 0x14 => if f.sub = 0 ∧ f.imm = 0 then some (.xorr sq g f.rd.toFin f.ra.toFin f.rb.toFin) else none
  | 0x15 => if f.sub = 0 ∧ f.imm = 0 then some (.shl sq g f.rd.toFin f.ra.toFin f.rb.toFin) else none
  | 0x16 => if f.sub = 0 ∧ f.imm = 0 then some (.shr sq g f.rd.toFin f.ra.toFin f.rb.toFin) else none
  | 0x17 => if f.sub = 0 ∧ f.imm = 0 then some (.sar sq g f.rd.toFin f.ra.toFin f.rb.toFin) else none
  | 0x18 => if f.sub = 0 ∧ f.imm = 0 then some (.adds sq g f.rd.toFin f.ra.toFin f.rb.toFin) else none
  | 0x19 => if f.sub = 0 ∧ f.imm = 0 then some (.subs sq g f.rd.toFin f.ra.toFin f.rb.toFin) else none
  | 0x1A => if f.sub = 0 ∧ f.imm = 0 then some (.mins sq g f.rd.toFin f.ra.toFin f.rb.toFin) else none
  | 0x1B => if f.sub = 0 ∧ f.imm = 0 then some (.maxs sq g f.rd.toFin f.ra.toFin f.rb.toFin) else none
  | 0x1C => if f.sub = 0 ∧ f.imm = 0 then some (.mul sq g f.rd.toFin f.ra.toFin f.rb.toFin) else none
  | 0x1D => if f.sub = 0 ∧ f.imm = 0 then some (.mulh sq g f.rd.toFin f.ra.toFin f.rb.toFin) else none
  | 0x1E => if f.sub = 0 then (shiftOf f.imm).bind fun n => some (.qmul sq g f.rd.toFin f.ra.toFin f.rb.toFin n) else none
  | 0x1F => if f.sub = 0 ∧ f.imm = 0 then some (.div sq g f.rd.toFin f.ra.toFin f.rb.toFin) else none
  | 0x20 => if f.sub = 0 ∧ f.imm = 0 then some (.divu sq g f.rd.toFin f.ra.toFin f.rb.toFin) else none
  | 0x21 => if f.sub = 0 ∧ f.imm = 0 then some (.rem sq g f.rd.toFin f.ra.toFin f.rb.toFin) else none
  | 0x22 => if f.rb = 0 ∧ f.sub = 0 ∧ f.imm = 0 then some (.absr sq g f.rd.toFin f.ra.toFin) else none
  | 0x23 => if f.imm = 0 then (predOf (f.sub.setWidth 5)).bind fun p => some (.sel sq g f.rd.toFin f.ra.toFin f.rb.toFin p) else none
  | 0x28 => if f.rb = 0 ∧ f.sub = 0 then some (.addi sq g f.rd.toFin f.ra.toFin f.imm) else none
  | 0x29 => if f.rb = 0 ∧ f.sub = 0 then some (.andi sq g f.rd.toFin f.ra.toFin f.imm) else none
  | 0x2A => if f.rb = 0 ∧ f.sub = 0 then some (.ori sq g f.rd.toFin f.ra.toFin f.imm) else none
  | 0x2B => if f.rb = 0 ∧ f.sub = 0 then some (.xori sq g f.rd.toFin f.ra.toFin f.imm) else none
  | 0x2C => if f.rb = 0 ∧ f.sub = 0 then (shiftOf f.imm).bind fun n => some (.shli sq g f.rd.toFin f.ra.toFin n) else none
  | 0x2D => if f.rb = 0 ∧ f.sub = 0 then (shiftOf f.imm).bind fun n => some (.shri sq g f.rd.toFin f.ra.toFin n) else none
  | 0x2E => if f.rb = 0 ∧ f.sub = 0 then (shiftOf f.imm).bind fun n => some (.sari sq g f.rd.toFin f.ra.toFin n) else none
  | 0x2F => if f.ra = 0 ∧ f.rb = 0 ∧ f.sub = 0 then some (.ldil sq g f.rd.toFin f.imm) else none
  | 0x30 => if f.ra = 0 ∧ f.rb = 0 ∧ f.sub = 0 then some (.ldih sq g f.rd.toFin f.imm) else none
  | 0x34 => if f.imm = 0 then (condOf f.sub).bind fun c => (predOf f.rd).bind fun p => some (.cmp sq g c p f.ra.toFin f.rb.toFin) else none
  | 0x35 => if f.rb = 0 then (condOf f.sub).bind fun c => (predOf f.rd).bind fun p => some (.cmpi sq g c p f.ra.toFin f.imm) else none
  | 0x36 => if f.imm = 0 then (pfunOf f.sub).bind fun h => (predOf f.rd).bind fun p => (predOf f.ra).bind fun q => (predOf f.rb).bind fun r => some (.plog sq g h p q r) else none
  | 0x38 => if f.sub = 0 ∧ f.imm = 0 then (accOf f.rd).bind fun k => some (.mac sq g k f.ra.toFin f.rb.toFin) else none
  | 0x39 => if f.sub = 0 ∧ f.imm = 0 then (accOf f.rd).bind fun k => some (.msu sq g k f.ra.toFin f.rb.toFin) else none
  | 0x3A => if f.ra = 0 ∧ f.rb = 0 ∧ f.sub = 0 ∧ f.imm = 0 then (accOf f.rd).bind fun k => some (.aclr sq g k) else none
  | 0x3B => if f.rb = 0 then ((precOf f.sub).map fun x => decide (x = .single)).bind fun long => (accOf f.ra).bind fun k => (shiftOf f.imm).bind fun n => some (.ard sq g long f.rd.toFin k n) else none
  | 0x3C => if f.rb = 0 ∧ f.sub = 0 ∧ f.imm = 0 then (accOf f.rd).bind fun k => some (.amov sq g k f.ra.toFin) else none
  | 0x40 => if f.imm = 0 then (precOf f.sub).bind fun p => some (.fadd sq g p f.rd.toFin f.ra.toFin f.rb.toFin) else none
  | 0x41 => if f.imm = 0 then (precOf f.sub).bind fun p => some (.fsub sq g p f.rd.toFin f.ra.toFin f.rb.toFin) else none
  | 0x42 => if f.imm = 0 then (precOf f.sub).bind fun p => some (.fmul sq g p f.rd.toFin f.ra.toFin f.rb.toFin) else none
  | 0x43 => if f.imm = 0 then (precOf f.sub).bind fun p => some (.fma sq g p f.rd.toFin f.ra.toFin f.rb.toFin) else none
  | 0x44 => if f.imm = 0 then (precOf f.sub).bind fun p => some (.fdiv sq g p f.rd.toFin f.ra.toFin f.rb.toFin) else none
  | 0x45 => if f.rb = 0 ∧ f.imm = 0 then (precOf f.sub).bind fun p => some (.fsqrt sq g p f.rd.toFin f.ra.toFin) else none
  | 0x46 => if f.imm = 0 then (precOf f.sub).bind fun p => some (.fmin sq g p f.rd.toFin f.ra.toFin f.rb.toFin) else none
  | 0x47 => if f.imm = 0 then (precOf f.sub).bind fun p => some (.fmax sq g p f.rd.toFin f.ra.toFin f.rb.toFin) else none
  | 0x48 => if f.imm = 0 then (fcmpOf f.sub).bind fun x => (predOf f.rd).bind fun q => some (.fcmp sq g x.2 x.1 q f.ra.toFin f.rb.toFin) else none
  | 0x49 => if f.rb = 0 ∧ f.imm = 0 then (cvtOf f.sub).bind fun h => some (.fcvt sq g h f.rd.toFin f.ra.toFin) else none
  | 0x50 => if f.rb = 0 then (memSub f.sub).bind fun x => some (.ld sq g x.1 x.2 f.rd.toFin f.ra.toFin f.imm) else none
  | 0x51 => if f.rb = 0 then (memSub f.sub).bind fun x => some (.lds sq g x.1 x.2 f.rd.toFin f.ra.toFin f.imm) else none
  | 0x52 => if f.rd = 0 then (memSub f.sub).bind fun x => some (.st sq g x.1 x.2 f.rb.toFin f.ra.toFin f.imm) else none
  | 0x53 => if f.sub = 0 then some (.ldp sq g f.rd.toFin f.rb.toFin f.ra.toFin f.imm) else none
  | 0x54 => if f.sub = 0 then some (.stp sq g f.rd.toFin f.rb.toFin f.ra.toFin f.imm) else none
  | 0x58 => if f.ra = 0 ∧ f.rb = 0 ∧ f.sub = 0 ∧ f.imm = 0 then some (.time sq g f.rd.toFin) else none
  | 0x59 => if f.ra = 0 ∧ f.rb = 0 ∧ f.sub = 0 ∧ f.imm = 0 then some (.tickn sq g f.rd.toFin) else none
  | 0x5A => (spaceOf f.sub).bind fun sp => (predOf f.rd).bind fun p => (predOf f.rb).bind fun q => some (.ton sq g sp p q f.ra.toFin f.imm)
  | 0x5B => (spaceOf f.sub).bind fun sp => (predOf f.rd).bind fun p => (predOf f.rb).bind fun q => some (.tof sq g sp p q f.ra.toFin f.imm)
  | 0x5C => (spaceOf f.sub).bind fun sp => (predOf f.rd).bind fun p => (predOf f.rb).bind fun q => some (.tp sq g sp p q f.ra.toFin f.imm)
  | 0x5D => (spaceOf f.sub).bind fun sp => (predOf f.rd).bind fun p => (predOf f.rb).bind fun q => some (.ctu sq g sp p q f.ra.toFin f.imm)
  | 0x5E => (spaceOf f.sub).bind fun sp => (predOf f.rd).bind fun p => (predOf f.rb).bind fun q => some (.ctd sq g sp p q f.ra.toFin f.imm)
  | 0x5F => (edgeSub f.sub).bind fun x => (predOf f.rd).bind fun p => (predOf f.rb).bind fun q => some (.edge sq g x.1 x.2 p q f.ra.toFin f.imm)
  | 0x60 => (spaceOf f.sub).bind fun sp => some (.rate sq g sp f.rd.toFin f.rb.toFin f.ra.toFin f.imm)
  | 0x68 => if f.rb = 0 ∧ f.sub = 0 ∧ f.imm = 0 then some (.vstat sq g f.rd.toFin f.ra.toFin) else none
  | 0x69 => if f.rd = 0 ∧ f.sub = 0 ∧ f.imm = 0 then some (.lsp sq g f.ra.toFin f.rb.toFin) else none
  | 0x6A => if f.rb = 0 ∧ f.imm = 0 then (lrdOf f.sub).bind fun h => some (.lrd sq g h f.rd.toFin f.ra.toFin) else none
  | 0x6B =>
    if f.rd = 0 ∧ f.imm = 0 ∧ f.sub = 0 then some (.lctlAuto sq g f.ra.toFin f.rb.toFin) else if f.rd = 0 ∧ f.imm = 0 ∧ f.sub = 1 then some (.lctlManual sq g f.ra.toFin f.rb.toFin) else if f.rd = 0 ∧ f.imm = 0 ∧ f.sub = 2 then some (.lctlTrack sq g f.ra.toFin f.rb.toFin) else if f.rd = 0 ∧ f.imm = 0 ∧ f.sub = 3 then some (.lctlBankSwap sq g f.ra.toFin f.rb.toFin) else if f.rd = 0 ∧ f.imm = 0 ∧ f.sub = 4 then some (.lctlResetI sq g f.ra.toFin f.rb.toFin) else none
  | 0x6C => if f.rb = 0 ∧ f.imm = 0 then (mbxOf f.sub).bind fun h => some (.mbxst sq g h f.rd.toFin f.ra.toFin) else none
  | 0x6D => if f.sub = 0 then (countOf f.imm).bind fun n => some (.mbxcp sq g f.rd.toFin f.ra.toFin f.rb.toFin n) else none
  | 0x6E => if f.rd = 0 ∧ f.rb = 0 ∧ f.sub = 0 ∧ f.imm = 0 then some (.mbxack sq g f.ra.toFin) else none
  | 0x6F => if f.rd = 0 ∧ f.sub = 0 then (evtOf f.imm).bind fun x => some (.evt sq g f.ra.toFin f.rb.toFin x.1 x.2) else none
  | 0x70 => if f.rd = 0 then (spaceOf f.sub).bind fun sp => (lenOf f.imm).bind fun len => some (.nvwr sq g sp f.ra.toFin f.rb.toFin len) else none
  | 0x71 => if f.rb = 0 ∧ f.sub = 0 ∧ f.imm = 0 then some (.nvws sq g f.rd.toFin f.ra.toFin) else none
  | _ => none

/-- The instruction a word of these fields spells, for a sequencer; LOOP and END carry no guard (Table 3.10). -/
def kOfFields (sq : Sq) (f : KFields) : Option Instr :=
  (guardOf f).bind fun g =>
    match f.op.toNat with
    | 0x02 => if g = .always then (if f.rd = 0 ∧ f.ra = 0 ∧ f.rb = 0 ∧ f.sub = 0 ∧ f.imm = 0 then some (.endInst sq) else none) else none
    | 0x04 => if g = .always then (if f.rb = 0 ∧ f.sub = 0 then some (.loop sq f.rd.toFin f.ra.toFin (f.imm.extractLsb' 16 16) (f.imm.extractLsb' 0 16)) else none) else none
    | _ => kGuarded sq g f

/-- The KCIS decoder: the instruction a word spells when a sequencer executes it, none for a word that R50 refuses. -/
def kDecode (sq : Sq) (w : Word) : Option Instr := kOfFields sq (kUnpack w)

/-- The command a word of the opcode table spells. The table gives none of its rows any bits, so no word spells one. -/
def decodeTableWord (_nbits _w : Nat) : Option Instr := none

end Sys2Proof
end

