-- ==== Sys2Proof/Machine/Fields.lean ====
section
/-! DEFINITION. The register fields of the fourteen subsystem windows, one definition each, as the register tables of
spec/ give them: place in BAR0, bits, access code (Table 0.3), reset value and whether a reset clears them (R6). -/

namespace Sys2Proof.Machine

/-- Access codes of Table 0.3 (R5). No register of the device uses LCK. -/
inductive FAcc where
  | rw | ro | wo | w1c | rc | rwh
  deriving DecidableEq, Repr

/-- A register field: its number in this list, the BAR0 address of its first register, how many registers the array
has and their stride, its lowest bit and width, its access code, its reset value, whether it survives the five resets
(Cleared by None), and the range its Meaning gives (R431). -/
structure Field where
  id : Nat
  addr : Nat
  count : Nat
  stride : Nat
  lsb : Nat
  width : Nat
  acc : FAcc
  reset : Nat
  keep : Bool
  lo : Nat
  hi : Nat
  deriving DecidableEq, Repr

namespace Reg

/-! SSU_ID: R21 Table 1.7 01_architecture.md. -/
def SSU_ID_SUBSYS : Field := ⟨0, 0x0, 1, 0, 0, 8, .ro, 0, true, 0, 255⟩
def SSU_ID_BLKREV : Field := ⟨1, 0x0, 1, 0, 8, 8, .ro, 1, true, 0, 255⟩
/-! TBC_ID: R21 Table 1.7 01_architecture.md. -/
def TBC_ID_SUBSYS : Field := ⟨2, 0x400000, 1, 0, 0, 8, .ro, 1, true, 0, 255⟩
def TBC_ID_BLKREV : Field := ⟨3, 0x400000, 1, 0, 8, 8, .ro, 1, true, 0, 255⟩
/-! CSA_ID: R21 Table 1.7 01_architecture.md. -/
def CSA_ID_SUBSYS : Field := ⟨4, 0x800000, 1, 0, 0, 8, .ro, 2, true, 0, 255⟩
def CSA_ID_BLKREV : Field := ⟨5, 0x800000, 1, 0, 8, 8, .ro, 1, true, 0, 255⟩
/-! LPE_ID: R21 Table 1.7 01_architecture.md. -/
def LPE_ID_SUBSYS : Field := ⟨6, 0xC00000, 1, 0, 0, 8, .ro, 3, true, 0, 255⟩
def LPE_ID_BLKREV : Field := ⟨7, 0xC00000, 1, 0, 8, 8, .ro, 1, true, 0, 255⟩
/-! LSV_ID: R21 Table 1.7 01_architecture.md. -/
def LSV_ID_SUBSYS : Field := ⟨8, 0x1000000, 1, 0, 0, 8, .ro, 4, true, 0, 255⟩
def LSV_ID_BLKREV : Field := ⟨9, 0x1000000, 1, 0, 8, 8, .ro, 1, true, 0, 255⟩
/-! MTE_ID: R21 Table 1.7 01_architecture.md. -/
def MTE_ID_SUBSYS : Field := ⟨10, 0x1400000, 1, 0, 0, 8, .ro, 5, true, 0, 255⟩
def MTE_ID_BLKREV : Field := ⟨11, 0x1400000, 1, 0, 8, 8, .ro, 1, true, 0, 255⟩
/-! FCT_ID: R21 Table 1.7 01_architecture.md. -/
def FCT_ID_SUBSYS : Field := ⟨12, 0x1800000, 1, 0, 0, 8, .ro, 6, true, 0, 255⟩
def FCT_ID_BLKREV : Field := ⟨13, 0x1800000, 1, 0, 8, 8, .ro, 1, true, 0, 255⟩
/-! FBC_ID: R21 Table 1.7 01_architecture.md. -/
def FBC_ID_SUBSYS : Field := ⟨14, 0x1C00000, 1, 0, 0, 8, .ro, 7, true, 0, 255⟩
def FBC_ID_BLKREV : Field := ⟨15, 0x1C00000, 1, 0, 8, 8, .ro, 1, true, 0, 255⟩
/-! NPC_ID: R21 Table 1.7 01_architecture.md. -/
def NPC_ID_SUBSYS : Field := ⟨16, 0x2000000, 1, 0, 0, 8, .ro, 8, true, 0, 255⟩
def NPC_ID_BLKREV : Field := ⟨17, 0x2000000, 1, 0, 8, 8, .ro, 1, true, 0, 255⟩
/-! RDU_ID: R21 Table 1.7 01_architecture.md. -/
def RDU_ID_SUBSYS : Field := ⟨18, 0x2400000, 1, 0, 0, 8, .ro, 9, true, 0, 255⟩
def RDU_ID_BLKREV : Field := ⟨19, 0x2400000, 1, 0, 8, 8, .ro, 1, true, 0, 255⟩
/-! CSC_IDENT: R21 Table 1.7 01_architecture.md. -/
def CSC_IDENT_SUBSYS : Field := ⟨20, 0x2800000, 1, 0, 0, 8, .ro, 10, true, 0, 255⟩
def CSC_IDENT_BLKREV : Field := ⟨21, 0x2800000, 1, 0, 8, 8, .ro, 1, true, 0, 255⟩
/-! NVS_ID: R21 Table 1.7 01_architecture.md. -/
def NVS_ID_SUBSYS : Field := ⟨22, 0x2C00000, 1, 0, 0, 8, .ro, 11, true, 0, 255⟩
def NVS_ID_BLKREV : Field := ⟨23, 0x2C00000, 1, 0, 8, 8, .ro, 1, true, 0, 255⟩
/-! EVR_ID: R21 Table 1.7 01_architecture.md. -/
def EVR_ID_SUBSYS : Field := ⟨24, 0x3000000, 1, 0, 0, 8, .ro, 12, true, 0, 255⟩
def EVR_ID_BLKREV : Field := ⟨25, 0x3000000, 1, 0, 8, 8, .ro, 1, true, 0, 255⟩
/-! HMX_ID: R21 Table 1.7 01_architecture.md. -/
def HMX_ID_SUBSYS : Field := ⟨26, 0x3400000, 1, 0, 0, 8, .ro, 13, true, 0, 255⟩
def HMX_ID_BLKREV : Field := ⟨27, 0x3400000, 1, 0, 8, 8, .ro, 1, true, 0, 255⟩
/-! SSU_STATUS: R21 01_architecture.md. -/
def SSU_STATUS_QUAL : Field := ⟨28, 0x4, 1, 0, 0, 3, .ro, 0, false, 0, 7⟩
def SSU_STATUS_MSTATE : Field := ⟨29, 0x4, 1, 0, 3, 3, .ro, 0, false, 0, 7⟩
/-! SSU_SUPPLY: Table 18.7 18_supply_reset_modes.md. -/
def SSU_SUPPLY_RAILOK : Field := ⟨30, 0x10, 1, 0, 0, 6, .ro, 63, false, 0, 63⟩
def SSU_SUPPLY_VBATLOW : Field := ⟨31, 0x10, 1, 0, 6, 1, .ro, 0, false, 0, 1⟩
def SSU_SUPPLY_WARN : Field := ⟨32, 0x10, 1, 0, 7, 1, .ro, 0, false, 0, 1⟩
def SSU_SUPPLY_WARNSEEN : Field := ⟨33, 0x10, 1, 0, 8, 1, .w1c, 0, false, 0, 1⟩
/-! SSU_RSTCAUSE: Table 18.8 18_supply_reset_modes.md. -/
def SSU_RSTCAUSE_KIND : Field := ⟨34, 0x14, 1, 0, 0, 3, .ro, 0, true, 0, 7⟩
def SSU_RSTCAUSE_RAIL : Field := ⟨35, 0x14, 1, 0, 3, 3, .ro, 0, true, 0, 7⟩
def SSU_RSTCAUSE_WDSRC : Field := ⟨36, 0x14, 1, 0, 6, 1, .ro, 0, true, 0, 1⟩
def SSU_RSTCAUSE_INSAVE : Field := ⟨37, 0x14, 1, 0, 7, 1, .ro, 0, true, 0, 1⟩
def SSU_RSTCAUSE_SAVEDONE : Field := ⟨38, 0x14, 1, 0, 8, 1, .ro, 0, true, 0, 1⟩
def SSU_RSTCAUSE_RSTSAVE : Field := ⟨39, 0x14, 1, 0, 9, 1, .ro, 0, true, 0, 1⟩
def SSU_RSTCAUSE_RESUMED : Field := ⟨40, 0x14, 1, 0, 10, 1, .ro, 0, true, 0, 1⟩
/-! SSU_SAVESTS: Table 18.9 18_supply_reset_modes.md. -/
def SSU_SAVESTS_LASTUS : Field := ⟨41, 0x18, 1, 0, 0, 16, .ro, 0, false, 0, 65535⟩
def SSU_SAVESTS_SAVECNT : Field := ⟨42, 0x18, 1, 0, 16, 16, .rc, 0, false, 0, 65535⟩
/-! SSU_WDTCFG: Table 18.10 18_supply_reset_modes.md. -/
def SSU_WDTCFG_HOSTEN : Field := ⟨43, 0x1C, 1, 0, 0, 1, .rwh, 0, true, 0, 1⟩
def SSU_WDTCFG_ACT : Field := ⟨44, 0x1C, 1, 0, 1, 1, .rwh, 0, true, 0, 1⟩
def SSU_WDTCFG_HOSTTO : Field := ⟨45, 0x1C, 1, 0, 8, 8, .rwh, 60, true, 0, 255⟩
/-! SSU_WDTKICK: Table 18.10 18_supply_reset_modes.md. -/
def SSU_WDTKICK_KICK : Field := ⟨46, 0x20, 1, 0, 0, 16, .wo, 0, false, 0, 65535⟩
/-! SSU_RSTCMD: Table 18.10 18_supply_reset_modes.md. -/
def SSU_RSTCMD_GO : Field := ⟨47, 0x24, 1, 0, 0, 1, .wo, 0, false, 0, 1⟩
def SSU_RSTCMD_KEY : Field := ⟨48, 0x24, 1, 0, 16, 16, .wo, 0, false, 0, 65535⟩
/-! SSU_SVCCMD: Table 19.7 19_self_test_and_faults.md. -/
def SSU_SVCCMD_CMD : Field := ⟨49, 0x30, 1, 0, 0, 2, .wo, 0, false, 0, 3⟩
def SSU_SVCCMD_KEY : Field := ⟨50, 0x30, 1, 0, 16, 16, .wo, 0, false, 0, 65535⟩
/-! SSU_SVCSTS: Table 19.7 19_self_test_and_faults.md. -/
def SSU_SVCSTS_CC : Field := ⟨51, 0x34, 1, 0, 0, 8, .ro, 0, false, 0, 255⟩
def SSU_SVCSTS_RSN : Field := ⟨52, 0x34, 1, 0, 8, 8, .ro, 0, false, 0, 255⟩
def SSU_SVCSTS_PEND : Field := ⟨53, 0x34, 1, 0, 16, 1, .ro, 0, false, 0, 1⟩
def SSU_SVCSTS_RETCNT : Field := ⟨54, 0x34, 1, 0, 17, 7, .ro, 0, false, 0, 127⟩
def SSU_SVCSTS_RETFULL : Field := ⟨55, 0x34, 1, 0, 24, 1, .ro, 0, false, 0, 1⟩
/-! SSU_BISTSTS: Table 19.8 19_self_test_and_faults.md. -/
def SSU_BISTSTS_CC : Field := ⟨56, 0x80, 6, 4, 0, 8, .ro, 0, false, 0, 255⟩
def SSU_BISTSTS_RSN : Field := ⟨57, 0x80, 6, 4, 8, 8, .ro, 0, false, 0, 255⟩
def SSU_BISTSTS_FAILED : Field := ⟨58, 0x80, 6, 4, 16, 7, .ro, 0, false, 0, 127⟩
def SSU_BISTSTS_RAN : Field := ⟨59, 0x80, 6, 4, 23, 1, .ro, 0, false, 0, 1⟩
def SSU_BISTSTS_MS : Field := ⟨60, 0x80, 6, 4, 24, 8, .ro, 0, false, 0, 255⟩
/-! SSU_FWIN: Table 19.9 19_self_test_and_faults.md. -/
def SSU_FWIN_WINDOW : Field := ⟨61, 0xC0, 16, 4, 0, 16, .rwh, 3600, true, 0, 65535⟩
/-! SSU_MODE: R18 Table 1.5 01_architecture.md. -/
def SSU_MODE_MODE : Field := ⟨62, 0x100, 1, 0, 0, 3, .ro, 0, false, 0, 7⟩
def SSU_MODE_PRIOR : Field := ⟨63, 0x100, 1, 0, 3, 3, .ro, 0, false, 0, 7⟩
def SSU_MODE_LASTCC : Field := ⟨64, 0x100, 1, 0, 8, 8, .ro, 0, false, 0, 255⟩
def SSU_MODE_LASTRSN : Field := ⟨65, 0x100, 1, 0, 16, 8, .ro, 0, false, 0, 255⟩
def SSU_MODE_PEND : Field := ⟨66, 0x100, 1, 0, 24, 1, .ro, 0, false, 0, 1⟩
/-! SSU_MODECMD: R18 Table 1.6 01_architecture.md. -/
def SSU_MODECMD_CMD : Field := ⟨67, 0x104, 1, 0, 0, 4, .wo, 0, false, 0, 15⟩
/-! SSU_SECSTS: Table 20.9 20_security.md. -/
def SSU_SECSTS_USABLE : Field := ⟨68, 0x200, 1, 0, 0, 4, .ro, 0, true, 0, 15⟩
def SSU_SECSTS_REVOKED : Field := ⟨69, 0x200, 1, 0, 4, 4, .ro, 0, true, 0, 15⟩
def SSU_SECSTS_JTAGLOCK : Field := ⟨70, 0x200, 1, 0, 8, 1, .ro, 0, false, 0, 1⟩
def SSU_SECSTS_JTAGOFF : Field := ⟨71, 0x200, 1, 0, 9, 1, .ro, 0, true, 0, 1⟩
def SSU_SECSTS_BISTSTART : Field := ⟨72, 0x200, 1, 0, 10, 1, .ro, 0, true, 0, 1⟩
def SSU_SECSTS_BOOTSRC : Field := ⟨73, 0x200, 1, 0, 11, 2, .ro, 0, false, 0, 3⟩
def SSU_SECSTS_PRSN : Field := ⟨74, 0x200, 1, 0, 16, 8, .ro, 0, false, 0, 255⟩
def SSU_SECSTS_FRSN : Field := ⟨75, 0x200, 1, 0, 24, 8, .ro, 0, false, 0, 255⟩
/-! SSU_SVN: Table 20.9 20_security.md. -/
def SSU_SVN_PFLOOR : Field := ⟨76, 0x204, 1, 0, 0, 7, .ro, 0, true, 0, 127⟩
def SSU_SVN_FFLOOR : Field := ⟨77, 0x204, 1, 0, 8, 7, .ro, 0, true, 0, 127⟩
def SSU_SVN_PSVN : Field := ⟨78, 0x204, 1, 0, 16, 7, .ro, 0, false, 0, 127⟩
def SSU_SVN_FSVN : Field := ⟨79, 0x204, 1, 0, 24, 7, .ro, 0, false, 0, 127⟩
/-! SSU_OTPCMD: Table 20.10 20_security.md. -/
def SSU_OTPCMD_CMD : Field := ⟨80, 0x210, 1, 0, 0, 3, .wo, 0, false, 0, 7⟩
def SSU_OTPCMD_INDEX : Field := ⟨81, 0x210, 1, 0, 4, 2, .wo, 0, false, 0, 3⟩
def SSU_OTPCMD_VALUE : Field := ⟨82, 0x210, 1, 0, 8, 7, .wo, 0, false, 0, 127⟩
def SSU_OTPCMD_KEY : Field := ⟨83, 0x210, 1, 0, 16, 16, .wo, 0, false, 0, 65535⟩
/-! SSU_OTPSTS: Table 20.10 20_security.md. -/
def SSU_OTPSTS_CC : Field := ⟨84, 0x214, 1, 0, 0, 8, .ro, 0, false, 0, 255⟩
def SSU_OTPSTS_RSN : Field := ⟨85, 0x214, 1, 0, 8, 8, .ro, 0, false, 0, 255⟩
def SSU_OTPSTS_PEND : Field := ⟨86, 0x214, 1, 0, 16, 1, .ro, 0, false, 0, 1⟩
/-! SSU_OTPDATA: Table 20.10 20_security.md. -/
def SSU_OTPDATA_DATA : Field := ⟨87, 0x220, 16, 4, 0, 32, .rw, 0, false, 0, 4294967295⟩
/-! SSU_DEVID_LO: Table 20.11 20_security.md. -/
def SSU_DEVID_LO_DEVID : Field := ⟨88, 0x260, 1, 0, 0, 32, .ro, 1, true, 0, 4294967295⟩
/-! SSU_DEVID_HI: Table 20.11 20_security.md. -/
def SSU_DEVID_HI_DEVID : Field := ⟨89, 0x264, 1, 0, 0, 32, .ro, 0, true, 0, 4294967295⟩
/-! SSU_QCMD: Table 20.11 20_security.md. -/
def SSU_QCMD_GO : Field := ⟨90, 0x268, 1, 0, 0, 1, .wo, 0, false, 0, 1⟩
/-! SSU_QADDR_LO: Table 20.11 20_security.md. -/
def SSU_QADDR_LO_ADDR : Field := ⟨91, 0x26C, 1, 0, 0, 32, .rw, 0, false, 0, 4294967295⟩
/-! SSU_QADDR_HI: Table 20.11 20_security.md. -/
def SSU_QADDR_HI_ADDR : Field := ⟨92, 0x270, 1, 0, 0, 32, .rw, 0, false, 0, 4294967295⟩
/-! SSU_QSTS: Table 20.11 20_security.md. -/
def SSU_QSTS_CC : Field := ⟨93, 0x278, 1, 0, 0, 8, .ro, 0, false, 0, 255⟩
def SSU_QSTS_RSN : Field := ⟨94, 0x278, 1, 0, 8, 8, .ro, 0, false, 0, 255⟩
def SSU_QSTS_PEND : Field := ⟨95, 0x278, 1, 0, 16, 1, .ro, 0, false, 0, 1⟩
/-! SSU_QNONCE: Table 20.11 20_security.md. -/
def SSU_QNONCE_NONCE : Field := ⟨96, 0x280, 8, 4, 0, 32, .rw, 0, false, 0, 4294967295⟩
/-! SSU_TEMP: R429 Table 21.10 21_pins_package_electrical.md. -/
def SSU_TEMP_TJ : Field := ⟨97, 0x300, 1, 0, 0, 12, .ro, 0, true, 0, 4095⟩
def SSU_TEMP_MAX : Field := ⟨98, 0x300, 1, 0, 16, 12, .rc, 2048, false, 0, 4095⟩
/-! TBC_STATUS: Table 2.3 02_tick_and_time_base.md. -/
def TBC_STATUS_QUAL : Field := ⟨99, 0x400004, 1, 0, 0, 3, .ro, 0, false, 0, 7⟩
def TBC_STATUS_MSTATE : Field := ⟨100, 0x400004, 1, 0, 3, 3, .ro, 0, false, 0, 7⟩
def TBC_STATUS_TICKFAULT : Field := ⟨101, 0x400004, 1, 0, 6, 1, .ro, 0, false, 0, 1⟩
/-! TBC_TICKCFG: R30 Table 2.4 02_tick_and_time_base.md. -/
def TBC_TICKCFG_TICKLEN : Field := ⟨102, 0x400010, 1, 0, 0, 8, .rwh, 10, false, 5, 200⟩
def TBC_TICKCFG_AGREE : Field := ⟨103, 0x400010, 1, 0, 8, 8, .rwh, 20, false, 10, 50⟩
def TBC_TICKCFG_BADCFG : Field := ⟨104, 0x400010, 1, 0, 16, 1, .w1c, 0, false, 0, 1⟩
/-! TBC_DISC: Table 2.5 02_tick_and_time_base.md. -/
def TBC_DISC_APEXEN : Field := ⟨105, 0x400014, 1, 0, 0, 1, .rwh, 0, false, 0, 1⟩
def TBC_DISC_PTPEN : Field := ⟨106, 0x400014, 1, 0, 1, 1, .rwh, 0, false, 0, 1⟩
def TBC_DISC_PTPPORT : Field := ⟨107, 0x400014, 1, 0, 4, 4, .rwh, 0, false, 0, 15⟩
def TBC_DISC_QUALTIME : Field := ⟨108, 0x400014, 1, 0, 8, 8, .rwh, 10, false, 0, 255⟩
/-! TBC_DSTS: Table 2.6 02_tick_and_time_base.md. -/
def TBC_DSTS_SRC : Field := ⟨109, 0x400018, 1, 0, 0, 2, .ro, 0, false, 0, 3⟩
def TBC_DSTS_HOLDOVER : Field := ⟨110, 0x400018, 1, 0, 2, 1, .ro, 0, false, 0, 1⟩
def TBC_DSTS_APEXQ : Field := ⟨111, 0x400018, 1, 0, 3, 1, .ro, 0, false, 0, 1⟩
def TBC_DSTS_PTPQ : Field := ⟨112, 0x400018, 1, 0, 4, 1, .ro, 0, false, 0, 1⟩
def TBC_DSTS_STEPBLK : Field := ⟨113, 0x400018, 1, 0, 5, 1, .w1c, 0, false, 0, 1⟩
/-! TBC_OFFSET: Table 2.7 02_tick_and_time_base.md. -/
def TBC_OFFSET_OFFSET : Field := ⟨114, 0x40001C, 1, 0, 0, 32, .ro, 0, false, 0, 4294967295⟩
/-! TBC_RATE: R26 Table 2.8 02_tick_and_time_base.md. -/
def TBC_RATE_RATE : Field := ⟨115, 0x400020, 1, 0, 0, 32, .ro, 0, false, 0, 4294967295⟩
/-! TBC_TIME_LO: R44 Table 2.9 02_tick_and_time_base.md. -/
def TBC_TIME_LO_TIME : Field := ⟨116, 0x400028, 1, 0, 0, 32, .ro, 0, false, 0, 4294967295⟩
/-! TBC_TIME_HI: R44 Table 2.9 02_tick_and_time_base.md. -/
def TBC_TIME_HI_TIME : Field := ⟨117, 0x40002C, 1, 0, 0, 32, .ro, 0, false, 0, 4294967295⟩
/-! TBC_TICKNO_LO: R44 Table 2.10 02_tick_and_time_base.md. -/
def TBC_TICKNO_LO_TICKNO : Field := ⟨118, 0x400030, 1, 0, 0, 32, .ro, 0, false, 0, 4294967295⟩
/-! TBC_TICKNO_HI: R44 Table 2.10 02_tick_and_time_base.md. -/
def TBC_TICKNO_HI_TICKNO : Field := ⟨119, 0x400034, 1, 0, 0, 32, .ro, 0, false, 0, 4294967295⟩
/-! TBC_RTCSTS: Table 17.2 17_real_time_clock.md. -/
def TBC_RTCSTS_OSF : Field := ⟨120, 0x400100, 1, 0, 0, 1, .ro, 1, true, 0, 1⟩
def TBC_RTCSTS_BADWRITE : Field := ⟨121, 0x400100, 1, 0, 1, 1, .w1c, 0, true, 0, 1⟩
def TBC_RTCSTS_SRC : Field := ⟨122, 0x400100, 1, 0, 2, 2, .ro, 0, true, 0, 3⟩
def TBC_RTCSTS_CHKOK : Field := ⟨123, 0x400100, 1, 0, 4, 1, .ro, 0, false, 0, 1⟩
/-! TBC_RTCCNT_LO: R369 Table 17.3 17_real_time_clock.md. -/
def TBC_RTCCNT_LO_CNT : Field := ⟨124, 0x400104, 1, 0, 0, 32, .ro, 0, true, 0, 4294967295⟩
/-! TBC_RTCCNT_HI: R369 Table 17.3 17_real_time_clock.md. -/
def TBC_RTCCNT_HI_CNT : Field := ⟨125, 0x400108, 1, 0, 0, 2, .ro, 0, true, 0, 3⟩
/-! TBC_RTCSUB: R369 Table 17.3 17_real_time_clock.md. -/
def TBC_RTCSUB_SUB : Field := ⟨126, 0x40010C, 1, 0, 0, 15, .ro, 0, true, 0, 32767⟩
/-! TBC_RTCDATE: R369 Table 17.3 17_real_time_clock.md. -/
def TBC_RTCDATE_YEAR : Field := ⟨127, 0x400110, 1, 0, 0, 9, .ro, 0, true, 0, 511⟩
def TBC_RTCDATE_MONTH : Field := ⟨128, 0x400110, 1, 0, 9, 4, .ro, 1, true, 0, 15⟩
def TBC_RTCDATE_DAY : Field := ⟨129, 0x400110, 1, 0, 13, 5, .ro, 1, true, 0, 31⟩
def TBC_RTCDATE_WDAY : Field := ⟨130, 0x400110, 1, 0, 18, 3, .ro, 6, true, 0, 7⟩
/-! TBC_RTCTIME: R369 Table 17.3 17_real_time_clock.md. -/
def TBC_RTCTIME_SEC : Field := ⟨131, 0x400114, 1, 0, 0, 6, .ro, 0, true, 0, 63⟩
def TBC_RTCTIME_MIN : Field := ⟨132, 0x400114, 1, 0, 6, 6, .ro, 0, true, 0, 63⟩
def TBC_RTCTIME_HOUR : Field := ⟨133, 0x400114, 1, 0, 12, 5, .ro, 0, true, 0, 31⟩
/-! TBC_RTCWDATE: R370 Table 17.4 17_real_time_clock.md. -/
def TBC_RTCWDATE_WDATE : Field := ⟨134, 0x400118, 1, 0, 0, 21, .rw, 0, false, 0, 2097151⟩
/-! TBC_RTCWTIME: R370 Table 17.4 17_real_time_clock.md. -/
def TBC_RTCWTIME_WTIME : Field := ⟨135, 0x40011C, 1, 0, 0, 17, .rw, 0, false, 0, 131071⟩
/-! TBC_RTCCMD: R370 Table 17.4 17_real_time_clock.md. -/
def TBC_RTCCMD_SET : Field := ⟨136, 0x400120, 1, 0, 0, 1, .wo, 0, false, 0, 1⟩
/-! TBC_RTCCMDSTS: R370 Table 17.4 17_real_time_clock.md. -/
def TBC_RTCCMDSTS_CC : Field := ⟨137, 0x400124, 1, 0, 0, 8, .ro, 0, false, 0, 255⟩
def TBC_RTCCMDSTS_RSN : Field := ⟨138, 0x400124, 1, 0, 8, 8, .ro, 0, false, 0, 255⟩
def TBC_RTCCMDSTS_PEND : Field := ⟨139, 0x400124, 1, 0, 16, 1, .ro, 0, false, 0, 1⟩
/-! TBC_RTCCFG: Table 17.5 17_real_time_clock.md. -/
def TBC_RTCCFG_ZONE : Field := ⟨140, 0x400128, 1, 0, 0, 8, .rwh, 0, true, 0, 255⟩
def TBC_RTCCFG_STEPMAX : Field := ⟨141, 0x400128, 1, 0, 8, 12, .rwh, 500, true, 1, 4095⟩
/-! TBC_TRIM: Table 17.5 17_real_time_clock.md. -/
def TBC_TRIM_TRIM : Field := ⟨142, 0x40012C, 1, 0, 0, 16, .rw, 0, true, 0, 65535⟩
def TBC_TRIM_W : Field := ⟨143, 0x40012C, 1, 0, 16, 5, .rw, 16, true, 10, 20⟩
/-! TBC_TRIMCFG: Table 17.5 17_real_time_clock.md. -/
def TBC_TRIMCFG_TBEN : Field := ⟨144, 0x400130, 1, 0, 0, 1, .rwh, 1, true, 0, 1⟩
def TBC_TRIMCFG_GRIDEN : Field := ⟨145, 0x400130, 1, 0, 1, 1, .rwh, 0, true, 0, 1⟩
def TBC_TRIMCFG_TRIMFDR : Field := ⟨146, 0x400130, 1, 0, 2, 5, .rwh, 0, true, 0, 31⟩
def TBC_TRIMCFG_MEASDAYS : Field := ⟨147, 0x400130, 1, 0, 7, 6, .rwh, 28, true, 1, 63⟩
def TBC_TRIMCFG_GRIDERR : Field := ⟨148, 0x400130, 1, 0, 13, 8, .rwh, 5, true, 0, 255⟩
/-! CSA_STATUS: Table 4.9 04_tasks_images_online_change.md. -/
def CSA_STATUS_QUAL : Field := ⟨149, 0x800004, 1, 0, 0, 3, .ro, 0, false, 0, 7⟩
def CSA_STATUS_MSTATE : Field := ⟨150, 0x800004, 1, 0, 3, 3, .ro, 0, false, 0, 7⟩
def CSA_STATUS_SPARES : Field := ⟨151, 0x800004, 1, 0, 8, 5, .ro, 0, false, 0, 31⟩
def CSA_STATUS_PROGVALID : Field := ⟨152, 0x800004, 1, 0, 13, 1, .ro, 0, false, 0, 1⟩
/-! CSA_OLC: R434 Table 4.10 04_tasks_images_online_change.md. -/
def CSA_OLC_CMD : Field := ⟨153, 0x800020, 1, 0, 0, 3, .wo, 0, false, 0, 7⟩
def CSA_OLC_FORCE_RELEASE : Field := ⟨154, 0x800020, 1, 0, 3, 1, .rw, 0, false, 0, 1⟩
def CSA_OLC_STATE : Field := ⟨155, 0x800020, 1, 0, 4, 3, .ro, 0, false, 0, 7⟩
def CSA_OLC_ACTHALF : Field := ⟨156, 0x800020, 1, 0, 7, 1, .ro, 0, false, 0, 1⟩
def CSA_OLC_CC : Field := ⟨157, 0x800020, 1, 0, 8, 8, .ro, 0, false, 0, 255⟩
def CSA_OLC_RSN : Field := ⟨158, 0x800020, 1, 0, 16, 8, .ro, 0, false, 0, 255⟩
def CSA_OLC_PEND : Field := ⟨159, 0x800020, 1, 0, 24, 1, .ro, 0, false, 0, 1⟩
def CSA_OLC_SLOTPEND : Field := ⟨160, 0x800020, 1, 0, 25, 1, .ro, 0, false, 0, 1⟩
/-! CSA_OLCADDR_LO: R87 Table 4.11 04_tasks_images_online_change.md. -/
def CSA_OLCADDR_LO_ADDR : Field := ⟨161, 0x800024, 1, 0, 0, 32, .rw, 0, false, 0, 4294967295⟩
/-! CSA_OLCADDR_HI: R87 Table 4.11 04_tasks_images_online_change.md. -/
def CSA_OLCADDR_HI_ADDR : Field := ⟨162, 0x800028, 1, 0, 0, 32, .rw, 0, false, 0, 4294967295⟩
/-! CSA_OLCLEN: R87 Table 4.11 04_tasks_images_online_change.md. -/
def CSA_OLCLEN_LEN : Field := ⟨163, 0x80002C, 1, 0, 0, 32, .rw, 0, false, 0, 4294967295⟩
/-! CSA_OLCTICK_LO: R96 Table 4.12 04_tasks_images_online_change.md. -/
def CSA_OLCTICK_LO_KS : Field := ⟨164, 0x800030, 1, 0, 0, 32, .rw, 0, false, 0, 4294967295⟩
/-! CSA_OLCTICK_HI: R96 Table 4.12 04_tasks_images_online_change.md. -/
def CSA_OLCTICK_HI_KS : Field := ⟨165, 0x800034, 1, 0, 0, 32, .rw, 0, false, 0, 4294967295⟩
/-! CSA_OLCRPT: R99 Table 4.13 04_tasks_images_online_change.md. -/
def CSA_OLCRPT_ENTRIES : Field := ⟨166, 0x800038, 1, 0, 0, 13, .ro, 0, false, 0, 8191⟩
def CSA_OLCRPT_FRCREL : Field := ⟨167, 0x800038, 1, 0, 13, 10, .ro, 0, false, 0, 1023⟩
def CSA_OLCRPT_SATCNT : Field := ⟨168, 0x800038, 1, 0, 23, 9, .ro, 0, false, 0, 511⟩
/-! CSA_OLCREF: R40 Table 4.14 04_tasks_images_online_change.md. -/
def CSA_OLCREF_ITEM : Field := ⟨169, 0x80003C, 1, 0, 0, 28, .ro, 0, false, 0, 268435455⟩
def CSA_OLCREF_KIND : Field := ⟨170, 0x80003C, 1, 0, 28, 4, .ro, 0, false, 0, 15⟩
/-! CSA_FRCCMD: R85 Table 4.15 04_tasks_images_online_change.md. -/
def CSA_FRCCMD_CMD : Field := ⟨171, 0x800040, 1, 0, 0, 2, .wo, 0, false, 0, 3⟩
/-! CSA_FRCVID: R85 Table 4.15 04_tasks_images_online_change.md. -/
def CSA_FRCVID_VID : Field := ⟨172, 0x800044, 1, 0, 0, 24, .rw, 0, false, 0, 16777215⟩
/-! CSA_FRCVAL_LO: R85 Table 4.15 04_tasks_images_online_change.md. -/
def CSA_FRCVAL_LO_VAL : Field := ⟨173, 0x800048, 1, 0, 0, 32, .rw, 0, false, 0, 4294967295⟩
/-! CSA_FRCVAL_HI: R85 Table 4.15 04_tasks_images_online_change.md. -/
def CSA_FRCVAL_HI_VAL : Field := ⟨174, 0x80004C, 1, 0, 0, 32, .rw, 0, false, 0, 4294967295⟩
/-! CSA_FRCSTS: R85 Table 4.16 04_tasks_images_online_change.md. -/
def CSA_FRCSTS_COUNT : Field := ⟨175, 0x800050, 1, 0, 0, 10, .ro, 0, false, 0, 1023⟩
def CSA_FRCSTS_PEND : Field := ⟨176, 0x800050, 1, 0, 10, 1, .ro, 0, false, 0, 1⟩
def CSA_FRCSTS_CC : Field := ⟨177, 0x800050, 1, 0, 16, 8, .ro, 0, false, 0, 255⟩
def CSA_FRCSTS_RSN : Field := ⟨178, 0x800050, 1, 0, 24, 8, .ro, 0, false, 0, 255⟩
/-! CSA_SQSTS: R101 Table 4.17 04_tasks_images_online_change.md. -/
def CSA_SQSTS_QUAL : Field := ⟨179, 0x800100, 18, 4, 0, 3, .ro, 0, false, 0, 7⟩
def CSA_SQSTS_MSTATE : Field := ⟨180, 0x800100, 18, 4, 3, 3, .ro, 0, false, 0, 7⟩
def CSA_SQSTS_LSEQ : Field := ⟨181, 0x800100, 18, 4, 8, 4, .ro, 0, false, 0, 15⟩
def CSA_SQSTS_FCOUNT : Field := ⟨182, 0x800100, 18, 4, 12, 4, .ro, 0, false, 0, 15⟩
/-! CSA_TASKSTS: R80 Table 4.18 04_tasks_images_online_change.md. -/
def CSA_TASKSTS_QUAL : Field := ⟨183, 0x801000, 64, 8, 0, 3, .ro, 0, false, 0, 7⟩
def CSA_TASKSTS_MSTATE : Field := ⟨184, 0x801000, 64, 8, 3, 3, .ro, 0, false, 0, 7⟩
def CSA_TASKSTS_CC : Field := ⟨185, 0x801000, 64, 8, 8, 8, .ro, 0, false, 0, 255⟩
def CSA_TASKSTS_RSN : Field := ⟨186, 0x801000, 64, 8, 16, 8, .ro, 0, false, 0, 255⟩
def CSA_TASKSTS_TFLAGS : Field := ⟨187, 0x801000, 64, 8, 24, 8, .ro, 0, false, 0, 255⟩
/-! CSA_TASKTICK: R80 Table 4.18 04_tasks_images_online_change.md. -/
def CSA_TASKTICK_TICK : Field := ⟨188, 0x801004, 64, 8, 0, 32, .ro, 0, false, 0, 4294967295⟩
/-! LPE_STATUS: Table 5.10 05_loop_engine.md. -/
def LPE_STATUS_QUAL : Field := ⟨189, 0xC00004, 1, 0, 0, 3, .ro, 0, false, 0, 7⟩
def LPE_STATUS_MSTATE : Field := ⟨190, 0xC00004, 1, 0, 3, 3, .ro, 0, false, 0, 7⟩
def LPE_STATUS_LANES : Field := ⟨191, 0xC00004, 1, 0, 8, 4, .ro, 8, false, 0, 15⟩
def LPE_STATUS_WRBLK : Field := ⟨192, 0xC00004, 1, 0, 12, 1, .w1c, 0, false, 0, 1⟩
/-! LPE_TIMING: R118 Table 5.11 05_loop_engine.md. -/
def LPE_TIMING_LASTCYC : Field := ⟨193, 0xC00010, 1, 0, 0, 16, .ro, 0, false, 0, 65535⟩
def LPE_TIMING_MAXCYC : Field := ⟨194, 0xC00010, 1, 0, 16, 16, .rc, 0, false, 0, 65535⟩
/-! LPE_LCMD: R122 Table 5.12 05_loop_engine.md. -/
def LPE_LCMD_CMD : Field := ⟨195, 0xC00020, 1, 0, 0, 3, .wo, 0, false, 0, 7⟩
def LPE_LCMD_LOOP : Field := ⟨196, 0xC00020, 1, 0, 4, 10, .wo, 0, false, 0, 1023⟩
def LPE_LCMD_GROUP : Field := ⟨197, 0xC00020, 1, 0, 16, 4, .wo, 0, false, 0, 15⟩
/-! LPE_LCRC: R122 Table 5.12 05_loop_engine.md. -/
def LPE_LCRC_CRC : Field := ⟨198, 0xC00024, 1, 0, 0, 32, .rw, 0, false, 0, 4294967295⟩
/-! LPE_LCSTS: R122 Table 5.13 05_loop_engine.md. -/
def LPE_LCSTS_CC : Field := ⟨199, 0xC00028, 1, 0, 0, 8, .ro, 0, false, 0, 255⟩
def LPE_LCSTS_RSN : Field := ⟨200, 0xC00028, 1, 0, 8, 8, .ro, 0, false, 0, 255⟩
def LPE_LCSTS_PEND : Field := ⟨201, 0xC00028, 1, 0, 16, 1, .ro, 0, false, 0, 1⟩
def LPE_LCSTS_SIDE : Field := ⟨202, 0xC00028, 1, 0, 17, 2, .ro, 0, false, 0, 3⟩
/-! LPE_LANESTS: R124 Table 5.14 05_loop_engine.md. -/
def LPE_LANESTS_QUAL : Field := ⟨203, 0xC00100, 8, 4, 0, 3, .ro, 0, false, 0, 7⟩
def LPE_LANESTS_MSTATE : Field := ⟨204, 0xC00100, 8, 4, 3, 3, .ro, 0, false, 0, 7⟩
def LPE_LANESTS_FCOUNT : Field := ⟨205, 0xC00100, 8, 4, 8, 4, .ro, 0, false, 0, 15⟩
/-! LPE_LSTS: R113 Table 5.15 05_loop_engine.md. -/
def LPE_LSTS_QUAL : Field := ⟨206, 0xC04000, 1024, 4, 0, 3, .ro, 4, false, 0, 7⟩
def LPE_LSTS_MSTATE : Field := ⟨207, 0xC04000, 1024, 4, 3, 3, .ro, 4, false, 0, 7⟩
def LPE_LSTS_MODE : Field := ⟨208, 0xC04000, 1024, 4, 6, 3, .ro, 5, false, 0, 7⟩
def LPE_LSTS_BANK : Field := ⟨209, 0xC04000, 1024, 4, 9, 1, .ro, 0, true, 0, 1⟩
def LPE_LSTS_PENDSWAP : Field := ⟨210, 0xC04000, 1024, 4, 10, 1, .ro, 0, false, 0, 1⟩
def LPE_LSTS_SATHI : Field := ⟨211, 0xC04000, 1024, 4, 11, 1, .ro, 0, false, 0, 1⟩
def LPE_LSTS_SATLO : Field := ⟨212, 0xC04000, 1024, 4, 12, 1, .ro, 0, false, 0, 1⟩
def LPE_LSTS_RLIM : Field := ⟨213, 0xC04000, 1024, 4, 13, 1, .ro, 0, false, 0, 1⟩
def LPE_LSTS_IHOLD : Field := ⟨214, 0xC04000, 1024, 4, 14, 1, .ro, 0, false, 0, 1⟩
def LPE_LSTS_S_ASAT : Field := ⟨215, 0xC04000, 1024, 4, 16, 1, .ro, 0, false, 0, 1⟩
def LPE_LSTS_S_SATHI : Field := ⟨216, 0xC04000, 1024, 4, 17, 1, .ro, 0, false, 0, 1⟩
def LPE_LSTS_S_SATLO : Field := ⟨217, 0xC04000, 1024, 4, 18, 1, .ro, 0, false, 0, 1⟩
def LPE_LSTS_S_RLIM : Field := ⟨218, 0xC04000, 1024, 4, 19, 1, .ro, 0, false, 0, 1⟩
def LPE_LSTS_S_PVFAIL : Field := ⟨219, 0xC04000, 1024, 4, 20, 1, .ro, 0, false, 0, 1⟩
def LPE_LSTS_S_SPFAIL : Field := ⟨220, 0xC04000, 1024, 4, 21, 1, .ro, 0, false, 0, 1⟩
def LPE_LSTS_S_FFFAIL : Field := ⟨221, 0xC04000, 1024, 4, 22, 1, .ro, 0, false, 0, 1⟩
def LPE_LSTS_S_DCGAIN : Field := ⟨222, 0xC04000, 1024, 4, 23, 1, .ro, 0, false, 0, 1⟩
def LPE_LSTS_S_SKIP : Field := ⟨223, 0xC04000, 1024, 4, 24, 1, .ro, 0, false, 0, 1⟩
def LPE_LSTS_S_REQIGN : Field := ⟨224, 0xC04000, 1024, 4, 25, 1, .ro, 0, false, 0, 1⟩
def LPE_LSTS_S_SWAPPED : Field := ⟨225, 0xC04000, 1024, 4, 26, 1, .ro, 0, false, 0, 1⟩
/-! LSV_STATUS: R156 Table 6.10 06_lattice_solver_linear.md. -/
def LSV_STATUS_QUAL : Field := ⟨226, 0x1000004, 1, 0, 0, 3, .ro, 0, false, 0, 7⟩
def LSV_STATUS_MSTATE : Field := ⟨227, 0x1000004, 1, 0, 3, 3, .ro, 0, false, 0, 7⟩
def LSV_STATUS_TILES : Field := ⟨228, 0x1000004, 1, 0, 8, 5, .ro, 16, false, 0, 31⟩
/-! LSV_QSTS: R129 Table 6.11 06_lattice_solver_linear.md. -/
def LSV_QSTS_DEPTH : Field := ⟨229, 0x1000010, 1, 0, 0, 7, .ro, 0, false, 0, 127⟩
def LSV_QSTS_BUSY : Field := ⟨230, 0x1000010, 1, 0, 7, 1, .ro, 0, false, 0, 1⟩
def LSV_QSTS_RECOVERED : Field := ⟨231, 0x1000010, 1, 0, 8, 1, .ro, 0, false, 0, 1⟩
/-! LSV_RINGCFG: R157 Table 6.12 06_lattice_solver_linear.md. -/
def LSV_RINGCFG_EN : Field := ⟨232, 0x1000020, 1, 0, 0, 1, .rw, 0, false, 0, 1⟩
def LSV_RINGCFG_SQLOG : Field := ⟨233, 0x1000020, 1, 0, 1, 4, .rw, 0, false, 0, 15⟩
def LSV_RINGCFG_CQLOG : Field := ⟨234, 0x1000020, 1, 0, 5, 4, .rw, 0, false, 0, 15⟩
def LSV_RINGCFG_VEC : Field := ⟨235, 0x1000020, 1, 0, 9, 6, .rw, 0, false, 0, 63⟩
def LSV_RINGCFG_BADCFG : Field := ⟨236, 0x1000020, 1, 0, 15, 1, .w1c, 0, false, 0, 1⟩
/-! LSV_CTLADDR_LO: R157 Table 6.13 06_lattice_solver_linear.md. -/
def LSV_CTLADDR_LO_CTLADDR : Field := ⟨237, 0x1000024, 1, 0, 0, 32, .rw, 0, false, 0, 4294967295⟩
/-! LSV_CTLADDR_HI: R157 Table 6.13 06_lattice_solver_linear.md. -/
def LSV_CTLADDR_HI_CTLADDR : Field := ⟨238, 0x1000028, 1, 0, 0, 32, .rw, 0, false, 0, 4294967295⟩
/-! LSV_SQBASE_LO: R157 Table 6.13 06_lattice_solver_linear.md. -/
def LSV_SQBASE_LO_SQBASE : Field := ⟨239, 0x100002C, 1, 0, 0, 32, .rw, 0, false, 0, 4294967295⟩
/-! LSV_SQBASE_HI: R157 Table 6.13 06_lattice_solver_linear.md. -/
def LSV_SQBASE_HI_SQBASE : Field := ⟨240, 0x1000030, 1, 0, 0, 32, .rw, 0, false, 0, 4294967295⟩
/-! LSV_CQBASE_LO: R157 Table 6.13 06_lattice_solver_linear.md. -/
def LSV_CQBASE_LO_CQBASE : Field := ⟨241, 0x1000034, 1, 0, 0, 32, .rw, 0, false, 0, 4294967295⟩
/-! LSV_CQBASE_HI: R157 Table 6.13 06_lattice_solver_linear.md. -/
def LSV_CQBASE_HI_CQBASE : Field := ⟨242, 0x1000038, 1, 0, 0, 32, .rw, 0, false, 0, 4294967295⟩
/-! LSV_DOORBELL: R127 Table 6.14 06_lattice_solver_linear.md. -/
def LSV_DOORBELL_RING : Field := ⟨243, 0x100003C, 1, 0, 0, 32, .wo, 0, false, 0, 4294967295⟩
/-! LSV_CANCEL_LO: R154 Table 6.15 06_lattice_solver_linear.md. -/
def LSV_CANCEL_LO_TAG : Field := ⟨244, 0x1000040, 1, 0, 0, 32, .rw, 0, false, 0, 4294967295⟩
/-! LSV_CANCEL_HI: R154 Table 6.15 06_lattice_solver_linear.md. -/
def LSV_CANCEL_HI_TAG : Field := ⟨245, 0x1000044, 1, 0, 0, 32, .rw, 0, false, 0, 4294967295⟩
/-! LSV_CANCELCMD: R154 Table 6.15 06_lattice_solver_linear.md. -/
def LSV_CANCELCMD_GO : Field := ⟨246, 0x1000048, 1, 0, 0, 1, .wo, 0, false, 0, 1⟩
/-! LSV_CANCELSTS: R154 Table 6.15 06_lattice_solver_linear.md. -/
def LSV_CANCELSTS_CC : Field := ⟨247, 0x100004C, 1, 0, 0, 8, .ro, 0, false, 0, 255⟩
def LSV_CANCELSTS_RSN : Field := ⟨248, 0x100004C, 1, 0, 8, 8, .ro, 0, false, 0, 255⟩
def LSV_CANCELSTS_PEND : Field := ⟨249, 0x100004C, 1, 0, 16, 1, .ro, 0, false, 0, 1⟩
/-! LSV_PERF_FLOP_LO: R44 Table 7.5 07_lattice_solver_optimisation.md. -/
def LSV_PERF_FLOP_LO_FLOP : Field := ⟨250, 0x1000050, 1, 0, 0, 32, .ro, 0, false, 0, 4294967295⟩
/-! LSV_PERF_FLOP_HI: R44 Table 7.5 07_lattice_solver_optimisation.md. -/
def LSV_PERF_FLOP_HI_FLOP : Field := ⟨251, 0x1000054, 1, 0, 0, 32, .ro, 0, false, 0, 4294967295⟩
/-! LSV_PERF_CYC_LO: R44 Table 7.5 07_lattice_solver_optimisation.md. -/
def LSV_PERF_CYC_LO_CYC : Field := ⟨252, 0x1000058, 1, 0, 0, 32, .ro, 0, false, 0, 4294967295⟩
/-! LSV_PERF_CYC_HI: R44 Table 7.5 07_lattice_solver_optimisation.md. -/
def LSV_PERF_CYC_HI_CYC : Field := ⟨253, 0x100005C, 1, 0, 0, 32, .ro, 0, false, 0, 4294967295⟩
/-! LSV_TILESTS: R155 Table 6.16 06_lattice_solver_linear.md. -/
def LSV_TILESTS_QUAL : Field := ⟨254, 0x1000100, 16, 4, 0, 3, .ro, 0, false, 0, 7⟩
def LSV_TILESTS_MSTATE : Field := ⟨255, 0x1000100, 16, 4, 3, 3, .ro, 0, false, 0, 7⟩
def LSV_TILESTS_FCOUNT : Field := ⟨256, 0x1000100, 16, 4, 8, 4, .ro, 0, false, 0, 15⟩
def LSV_TILESTS_CORR : Field := ⟨257, 0x1000100, 16, 4, 12, 16, .ro, 0, false, 0, 65535⟩
/-! LSV_HANDLE0: R140 Table 6.17 06_lattice_solver_linear.md. -/
def LSV_HANDLE0_VALID : Field := ⟨258, 0x1000200, 32, 16, 0, 1, .ro, 0, false, 0, 1⟩
def LSV_HANDLE0_CONTENT : Field := ⟨259, 0x1000200, 32, 16, 1, 2, .ro, 0, false, 0, 3⟩
def LSV_HANDLE0_FPREC : Field := ⟨260, 0x1000200, 32, 16, 3, 1, .ro, 0, false, 0, 1⟩
def LSV_HANDLE0_DDR : Field := ⟨261, 0x1000200, 32, 16, 4, 1, .ro, 0, false, 0, 1⟩
/-! LSV_HANDLE1: R140 Table 6.17 06_lattice_solver_linear.md. -/
def LSV_HANDLE1_SIZEKIB : Field := ⟨262, 0x1000204, 32, 16, 0, 32, .ro, 0, false, 0, 4294967295⟩
/-! LSV_HANDLE2: R140 Table 6.17 06_lattice_solver_linear.md. -/
def LSV_HANDLE2_FPRINT : Field := ⟨263, 0x1000208, 32, 16, 0, 32, .ro, 0, false, 0, 4294967295⟩
/-! LSV_HANDLE3: R140 Table 6.17 06_lattice_solver_linear.md. -/
def LSV_HANDLE3_FPRINT : Field := ⟨264, 0x100020C, 32, 16, 0, 32, .ro, 0, false, 0, 4294967295⟩
/-! LSV_MBX0: R178 Table 7.6 07_lattice_solver_optimisation.md. -/
def LSV_MBX0_QUAL : Field := ⟨265, 0x1000800, 16, 16, 0, 3, .ro, 4, false, 0, 7⟩
def LSV_MBX0_MSTATE : Field := ⟨266, 0x1000800, 16, 16, 3, 3, .ro, 0, false, 0, 7⟩
def LSV_MBX0_MAXAGE : Field := ⟨267, 0x1000800, 16, 16, 16, 16, .rwh, 0, false, 0, 65535⟩
/-! LSV_MBX1: R178 Table 7.6 07_lattice_solver_optimisation.md. -/
def LSV_MBX1_SEQ : Field := ⟨268, 0x1000804, 16, 16, 0, 32, .ro, 0, false, 0, 4294967295⟩
/-! LSV_MBX2: R178 Table 7.6 07_lattice_solver_optimisation.md. -/
def LSV_MBX2_ACKSEQ : Field := ⟨269, 0x1000808, 16, 16, 0, 32, .ro, 0, false, 0, 4294967295⟩
/-! LSV_MBX3: R178 Table 7.6 07_lattice_solver_optimisation.md. -/
def LSV_MBX3_OVERRUN : Field := ⟨270, 0x100080C, 16, 16, 0, 16, .ro, 0, false, 0, 65535⟩
def LSV_MBX3_DIVERGE : Field := ⟨271, 0x100080C, 16, 16, 16, 16, .ro, 0, false, 0, 65535⟩
/-! MTE_STATUS: Table 8.12 08_metering_engine.md. -/
def MTE_STATUS_QUAL : Field := ⟨272, 0x1400004, 1, 0, 0, 3, .ro, 0, false, 0, 7⟩
def MTE_STATUS_MSTATE : Field := ⟨273, 0x1400004, 1, 0, 3, 3, .ro, 0, false, 0, 7⟩
def MTE_STATUS_BANKS : Field := ⟨274, 0x1400004, 1, 0, 8, 4, .ro, 7, false, 0, 15⟩
def MTE_STATUS_SPARE : Field := ⟨275, 0x1400004, 1, 0, 12, 1, .ro, 1, false, 0, 1⟩
/-! MTE_MODCFG: R188 Table 8.13 08_metering_engine.md. -/
def MTE_MODCFG_DIV : Field := ⟨276, 0x1400010, 1, 0, 0, 10, .rwh, 512, false, 157, 625⟩
def MTE_MODCFG_SAMPDLY : Field := ⟨277, 0x1400010, 1, 0, 16, 7, .rwh, 20, false, 0, 127⟩
def MTE_MODCFG_BADCFG : Field := ⟨278, 0x1400010, 1, 0, 23, 1, .w1c, 0, false, 0, 1⟩
/-! MTE_SAVECFG: R205 Table 8.14 08_metering_engine.md. -/
def MTE_SAVECFG_PERIOD : Field := ⟨279, 0x1400014, 1, 0, 0, 12, .rwh, 60, false, 1, 3600⟩
/-! MTE_SAVESTS: R205 Table 8.14 08_metering_engine.md. -/
def MTE_SAVESTS_CC : Field := ⟨280, 0x1400018, 1, 0, 0, 8, .ro, 0, false, 0, 255⟩
def MTE_SAVESTS_RSN : Field := ⟨281, 0x1400018, 1, 0, 8, 8, .ro, 0, false, 0, 255⟩
def MTE_SAVESTS_KIND : Field := ⟨282, 0x1400018, 1, 0, 16, 2, .ro, 0, false, 0, 3⟩
/-! MTE_PAIRCFG: R209 Table 8.15 08_metering_engine.md. -/
def MTE_PAIRCFG_TOLREL : Field := ⟨283, 0x140001C, 1, 0, 0, 16, .rwh, 1000, false, 0, 65535⟩
def MTE_PAIRCFG_TOLABS : Field := ⟨284, 0x140001C, 1, 0, 16, 16, .rwh, 10, false, 0, 65535⟩
/-! MTE_LRCFG: R202 Table 8.16 08_metering_engine.md. -/
def MTE_LRCFG_EN : Field := ⟨285, 0x1400020, 1, 0, 0, 1, .rw, 0, false, 0, 1⟩
def MTE_LRCFG_LRLOG : Field := ⟨286, 0x1400020, 1, 0, 1, 4, .rw, 0, false, 0, 15⟩
def MTE_LRCFG_VEC : Field := ⟨287, 0x1400020, 1, 0, 5, 6, .rw, 0, false, 0, 63⟩
/-! MTE_LRBASE_LO: R202 Table 8.16 08_metering_engine.md. A base that is not 4 KiB aligned is stored as written: DESIGN CHOICE (log entry 100). -/
def MTE_LRBASE_LO_BASE : Field := ⟨288, 0x1400024, 1, 0, 0, 32, .rw, 0, false, 0, 4294967295⟩
/-! MTE_LRBASE_HI: R202 Table 8.16 08_metering_engine.md. -/
def MTE_LRBASE_HI_BASE : Field := ⟨289, 0x1400028, 1, 0, 0, 32, .rw, 0, false, 0, 4294967295⟩
/-! MTE_LRHEAD: R202 Table 8.16 08_metering_engine.md. -/
def MTE_LRHEAD_HEAD : Field := ⟨290, 0x140002C, 1, 0, 0, 32, .ro, 0, false, 0, 4294967295⟩
/-! MTE_LRREAD: R202 Table 8.16 08_metering_engine.md. -/
def MTE_LRREAD_READ : Field := ⟨291, 0x1400030, 1, 0, 0, 32, .rw, 0, false, 0, 4294967295⟩
/-! MTE_LRDROP: R202 Table 8.16 08_metering_engine.md. -/
def MTE_LRDROP_LRDROP : Field := ⟨292, 0x1400034, 1, 0, 0, 32, .rc, 0, false, 0, 4294967295⟩
/-! MTE_CALCFG: R221 Table 9.10 09_facets_and_live_calibration.md. -/
def MTE_CALCFG_FEEDER : Field := ⟨293, 0x1400040, 1, 0, 0, 5, .rw, 0, false, 0, 31⟩
def MTE_CALCFG_W : Field := ⟨294, 0x1400040, 1, 0, 8, 8, .rw, 50, false, 10, 255⟩
def MTE_CALCFG_WMAX : Field := ⟨295, 0x1400040, 1, 0, 16, 6, .rw, 20, false, 2, 63⟩
/-! MTE_CALTOL: R221 Table 9.10 09_facets_and_live_calibration.md. -/
def MTE_CALTOL_GTOL : Field := ⟨296, 0x1400044, 1, 0, 0, 8, .rw, 20, false, 0, 255⟩
def MTE_CALTOL_PTOL : Field := ⟨297, 0x1400044, 1, 0, 8, 8, .rw, 50, false, 0, 255⟩
def MTE_CALTOL_ACCG : Field := ⟨298, 0x1400044, 1, 0, 16, 8, .rw, 50, false, 0, 255⟩
def MTE_CALTOL_ACCP : Field := ⟨299, 0x1400044, 1, 0, 24, 8, .rw, 25, false, 0, 255⟩
/-! MTE_CALCMD: R221 Table 9.10 09_facets_and_live_calibration.md. -/
def MTE_CALCMD_CMD : Field := ⟨300, 0x1400048, 1, 0, 0, 2, .wo, 0, false, 0, 3⟩
/-! MTE_CALSTS: R221 Table 9.10 09_facets_and_live_calibration.md. -/
def MTE_CALSTS_CC : Field := ⟨301, 0x140004C, 1, 0, 0, 8, .ro, 0, false, 0, 255⟩
def MTE_CALSTS_RSN : Field := ⟨302, 0x140004C, 1, 0, 8, 8, .ro, 0, false, 0, 255⟩
def MTE_CALSTS_PEND : Field := ⟨303, 0x140004C, 1, 0, 16, 1, .ro, 0, false, 0, 1⟩
def MTE_CALSTS_STAGE : Field := ⟨304, 0x140004C, 1, 0, 17, 3, .ro, 0, false, 0, 7⟩
def MTE_CALSTS_WIN : Field := ⟨305, 0x140004C, 1, 0, 20, 6, .ro, 0, false, 0, 63⟩
/-! MTE_CALRES: R226 Table 9.11 09_facets_and_live_calibration.md. -/
def MTE_CALRES_GERR : Field := ⟨306, 0x1400050, 6, 4, 0, 16, .ro, 0, false, 0, 65535⟩
def MTE_CALRES_PERR : Field := ⟨307, 0x1400050, 6, 4, 16, 16, .ro, 0, false, 0, 65535⟩
/-! MTE_CALWR0: R226 Table 9.11 09_facets_and_live_calibration.md. -/
def MTE_CALWR0_GAIN : Field := ⟨308, 0x1400068, 1, 0, 0, 32, .rw, 0, false, 0, 4294967295⟩
/-! MTE_CALWR1: R226 Table 9.11 09_facets_and_live_calibration.md. -/
def MTE_CALWR1_OFFSET : Field := ⟨309, 0x140006C, 1, 0, 0, 32, .rw, 0, false, 0, 4294967295⟩
/-! MTE_CALWR2: R226 Table 9.11 09_facets_and_live_calibration.md. -/
def MTE_CALWR2_PHASE : Field := ⟨310, 0x1400070, 1, 0, 0, 16, .rw, 0, false, 0, 65535⟩
def MTE_CALWR2_INPUT : Field := ⟨311, 0x1400070, 1, 0, 16, 8, .rw, 0, false, 0, 197⟩
/-! MTE_BANKSTS: R192 Table 8.17 08_metering_engine.md. -/
def MTE_BANKSTS_QUAL : Field := ⟨312, 0x1400100, 8, 4, 0, 3, .ro, 0, false, 0, 7⟩
def MTE_BANKSTS_MSTATE : Field := ⟨313, 0x1400100, 8, 4, 3, 3, .ro, 0, false, 0, 7⟩
def MTE_BANKSTS_GROUP : Field := ⟨314, 0x1400100, 8, 4, 8, 5, .ro, 0, false, 0, 31⟩
def MTE_BANKSTS_FCOUNT : Field := ⟨315, 0x1400100, 8, 4, 16, 4, .ro, 0, false, 0, 15⟩
/-! MTE_INSTS: R191 Table 8.18 08_metering_engine.md. -/
def MTE_INSTS_QUAL : Field := ⟨316, 0x1400200, 198, 4, 0, 3, .ro, 4, false, 0, 7⟩
def MTE_INSTS_MSTATE : Field := ⟨317, 0x1400200, 198, 4, 3, 3, .ro, 0, false, 0, 7⟩
def MTE_INSTS_STUCK : Field := ⟨318, 0x1400200, 198, 4, 6, 1, .ro, 0, false, 0, 1⟩
def MTE_INSTS_S_CLIP : Field := ⟨319, 0x1400200, 198, 4, 7, 1, .w1c, 0, false, 0, 1⟩
def MTE_INSTS_GLITCH : Field := ⟨320, 0x1400200, 198, 4, 8, 8, .rc, 0, false, 0, 255⟩
/-! MTE_FSTS: R203 Table 8.19 08_metering_engine.md. -/
def MTE_FSTS_QUAL : Field := ⟨321, 0x1400600, 32, 4, 0, 3, .ro, 4, false, 0, 7⟩
def MTE_FSTS_MSTATE : Field := ⟨322, 0x1400600, 32, 4, 3, 3, .ro, 4, false, 0, 7⟩
def MTE_FSTS_SRC : Field := ⟨323, 0x1400600, 32, 4, 6, 1, .ro, 0, false, 0, 1⟩
def MTE_FSTS_NOVOLT : Field := ⟨324, 0x1400600, 32, 4, 7, 1, .ro, 0, false, 0, 1⟩
def MTE_FSTS_CALGEN : Field := ⟨325, 0x1400600, 32, 4, 8, 8, .ro, 0, true, 0, 255⟩
def MTE_FSTS_FLAGS : Field := ⟨326, 0x1400600, 32, 4, 16, 16, .ro, 0, false, 0, 65535⟩
/-! MTE_HSTS: R203 Table 8.19 08_metering_engine.md. -/
def MTE_HSTS_QUAL : Field := ⟨327, 0x1400700, 64, 4, 0, 3, .ro, 4, false, 0, 7⟩
def MTE_HSTS_MSTATE : Field := ⟨328, 0x1400700, 64, 4, 3, 3, .ro, 4, false, 0, 7⟩
def MTE_HSTS_SRC : Field := ⟨329, 0x1400700, 64, 4, 6, 1, .ro, 0, false, 0, 1⟩
def MTE_HSTS_NOVOLT : Field := ⟨330, 0x1400700, 64, 4, 7, 1, .ro, 0, false, 0, 1⟩
def MTE_HSTS_CALGEN : Field := ⟨331, 0x1400700, 64, 4, 8, 8, .ro, 0, true, 0, 255⟩
def MTE_HSTS_FLAGS : Field := ⟨332, 0x1400700, 64, 4, 16, 16, .ro, 0, false, 0, 65535⟩
/-! FCT_STATUS: R213 Table 9.6 09_facets_and_live_calibration.md. -/
def FCT_STATUS_QUAL : Field := ⟨333, 0x1800004, 1, 0, 0, 3, .ro, 0, false, 0, 7⟩
def FCT_STATUS_MSTATE : Field := ⟨334, 0x1800004, 1, 0, 3, 3, .ro, 0, false, 0, 7⟩
def FCT_STATUS_ACTSLOT : Field := ⟨335, 0x1800004, 1, 0, 8, 1, .ro, 0, false, 0, 1⟩
def FCT_STATUS_SHSTATE : Field := ⟨336, 0x1800004, 1, 0, 9, 3, .ro, 0, false, 0, 7⟩
def FCT_STATUS_SLOTPEND : Field := ⟨337, 0x1800004, 1, 0, 12, 1, .ro, 0, false, 0, 1⟩
/-! FCT_CMD: R213 Table 9.7 09_facets_and_live_calibration.md. -/
def FCT_CMD_CMD : Field := ⟨338, 0x1800020, 1, 0, 0, 3, .wo, 0, false, 0, 7⟩
/-! FCT_ADDR_LO: R213 Table 9.7 09_facets_and_live_calibration.md. -/
def FCT_ADDR_LO_ADDR : Field := ⟨339, 0x1800024, 1, 0, 0, 32, .rw, 0, false, 0, 4294967295⟩
/-! FCT_ADDR_HI: R213 Table 9.7 09_facets_and_live_calibration.md. -/
def FCT_ADDR_HI_ADDR : Field := ⟨340, 0x1800028, 1, 0, 0, 32, .rw, 0, false, 0, 4294967295⟩
/-! FCT_LEN: R213 Table 9.7 09_facets_and_live_calibration.md. -/
def FCT_LEN_LEN : Field := ⟨341, 0x180002C, 1, 0, 0, 32, .rw, 0, false, 0, 4294967295⟩
/-! FCT_SWAPTICK_LO: R215 Table 9.8 09_facets_and_live_calibration.md. -/
def FCT_SWAPTICK_LO_KF : Field := ⟨342, 0x1800030, 1, 0, 0, 32, .rw, 0, false, 0, 4294967295⟩
/-! FCT_SWAPTICK_HI: R215 Table 9.8 09_facets_and_live_calibration.md. -/
def FCT_SWAPTICK_HI_KF : Field := ⟨343, 0x1800034, 1, 0, 0, 32, .rw, 0, false, 0, 4294967295⟩
/-! FCT_SWSTS: R215 Table 9.8 09_facets_and_live_calibration.md. -/
def FCT_SWSTS_CC : Field := ⟨344, 0x1800038, 1, 0, 0, 8, .ro, 0, false, 0, 255⟩
def FCT_SWSTS_RSN : Field := ⟨345, 0x1800038, 1, 0, 8, 8, .ro, 0, false, 0, 255⟩
def FCT_SWSTS_PEND : Field := ⟨346, 0x1800038, 1, 0, 16, 1, .ro, 0, false, 0, 1⟩
/-! FCT_REF: R215 Table 9.8 09_facets_and_live_calibration.md. -/
def FCT_REF_ITEM : Field := ⟨347, 0x180003C, 1, 0, 0, 28, .ro, 0, false, 0, 268435455⟩
def FCT_REF_KIND : Field := ⟨348, 0x180003C, 1, 0, 28, 4, .ro, 0, false, 0, 15⟩
/-! FCT_ACTDIG_LO: Table 9.9 09_facets_and_live_calibration.md. -/
def FCT_ACTDIG_LO_ACTDIG : Field := ⟨349, 0x1800040, 1, 0, 0, 32, .ro, 0, false, 0, 4294967295⟩
/-! FCT_ACTDIG_HI: Table 9.9 09_facets_and_live_calibration.md. -/
def FCT_ACTDIG_HI_ACTDIG : Field := ⟨350, 0x1800044, 1, 0, 0, 32, .ro, 0, false, 0, 4294967295⟩
/-! FCT_SHDIG_LO: Table 9.9 09_facets_and_live_calibration.md. -/
def FCT_SHDIG_LO_SHDIG : Field := ⟨351, 0x1800048, 1, 0, 0, 32, .ro, 0, false, 0, 4294967295⟩
/-! FCT_SHDIG_HI: Table 9.9 09_facets_and_live_calibration.md. -/
def FCT_SHDIG_HI_SHDIG : Field := ⟨352, 0x180004C, 1, 0, 0, 32, .ro, 0, false, 0, 4294967295⟩
/-! FBC_STATUS: R435 10_field_bus_controllers.md. -/
def FBC_STATUS_QUAL : Field := ⟨353, 0x1C00004, 1, 0, 0, 3, .ro, 0, false, 0, 7⟩
def FBC_STATUS_MSTATE : Field := ⟨354, 0x1C00004, 1, 0, 3, 3, .ro, 0, false, 0, 7⟩
/-! FBCn_STATUS: Table 10.7 10_field_bus_controllers.md. -/
def FBCn_STATUS_QUAL : Field := ⟨355, 0x1D00000, 24, 65536, 0, 3, .ro, 0, false, 0, 7⟩
def FBCn_STATUS_MSTATE : Field := ⟨356, 0x1D00000, 24, 65536, 3, 3, .ro, 4, false, 0, 7⟩
def FBCn_STATUS_PMODE : Field := ⟨357, 0x1D00000, 24, 65536, 6, 2, .ro, 0, false, 0, 3⟩
def FBCn_STATUS_PROBE : Field := ⟨358, 0x1D00000, 24, 65536, 8, 3, .ro, 0, false, 0, 7⟩
def FBCn_STATUS_EPASS : Field := ⟨359, 0x1D00000, 24, 65536, 11, 1, .ro, 0, false, 0, 1⟩
def FBCn_STATUS_BUSOFF : Field := ⟨360, 0x1D00000, 24, 65536, 12, 1, .ro, 0, false, 0, 1⟩
def FBCn_STATUS_RECOV : Field := ⟨361, 0x1D00000, 24, 65536, 13, 1, .ro, 0, false, 0, 1⟩
def FBCn_STATUS_FCOUNT : Field := ⟨362, 0x1D00000, 24, 65536, 14, 4, .ro, 0, false, 0, 15⟩
/-! FBCn_CTL: Table 10.8 10_field_bus_controllers.md. -/
def FBCn_CTL_CMD : Field := ⟨363, 0x1D00010, 24, 65536, 0, 3, .wo, 0, false, 0, 7⟩
/-! FBCn_CTLSTS: Table 10.8 10_field_bus_controllers.md. -/
def FBCn_CTLSTS_CC : Field := ⟨364, 0x1D00014, 24, 65536, 0, 8, .ro, 0, false, 0, 255⟩
def FBCn_CTLSTS_RSN : Field := ⟨365, 0x1D00014, 24, 65536, 8, 8, .ro, 0, false, 0, 255⟩
def FBCn_CTLSTS_PEND : Field := ⟨366, 0x1D00014, 24, 65536, 16, 1, .ro, 0, false, 0, 1⟩
/-! FBCn_ERR: R234 Table 10.9 10_field_bus_controllers.md. -/
def FBCn_ERR_TEC : Field := ⟨367, 0x1D00018, 24, 65536, 0, 9, .ro, 0, false, 0, 511⟩
def FBCn_ERR_REC : Field := ⟨368, 0x1D00018, 24, 65536, 9, 8, .ro, 0, false, 0, 255⟩
def FBCn_ERR_LEC : Field := ⟨369, 0x1D00018, 24, 65536, 17, 3, .ro, 0, false, 0, 7⟩
def FBCn_ERR_LPH : Field := ⟨370, 0x1D00018, 24, 65536, 20, 1, .ro, 0, false, 0, 1⟩
def FBCn_ERR_CLASH : Field := ⟨371, 0x1D00018, 24, 65536, 21, 11, .ro, 0, false, 0, 2047⟩
/-! FBCn_TSC: R239 Table 10.9 10_field_bus_controllers.md. -/
def FBCn_TSC_TSC : Field := ⟨372, 0x1D0001C, 24, 65536, 0, 32, .ro, 0, false, 0, 4294967295⟩
/-! FBCn_TXCMD: R233 Table 10.10 10_field_bus_controllers.md. -/
def FBCn_TXCMD_CMD : Field := ⟨373, 0x1D00020, 24, 65536, 0, 2, .wo, 0, false, 0, 3⟩
def FBCn_TXCMD_CANCC : Field := ⟨374, 0x1D00020, 24, 65536, 16, 8, .ro, 0, false, 0, 255⟩
def FBCn_TXCMD_CANRSN : Field := ⟨375, 0x1D00020, 24, 65536, 24, 8, .ro, 0, false, 0, 255⟩
/-! FBCn_TXSTS0: R233 Table 10.10 10_field_bus_controllers.md. -/
def FBCn_TXSTS0_CC : Field := ⟨376, 0x1D00024, 24, 65536, 0, 8, .ro, 0, false, 0, 255⟩
def FBCn_TXSTS0_RSN : Field := ⟨377, 0x1D00024, 24, 65536, 8, 8, .ro, 0, false, 0, 255⟩
def FBCn_TXSTS0_PEND : Field := ⟨378, 0x1D00024, 24, 65536, 16, 1, .ro, 0, false, 0, 1⟩
def FBCn_TXSTS0_RETRIES : Field := ⟨379, 0x1D00024, 24, 65536, 17, 7, .ro, 0, false, 0, 127⟩
/-! FBCn_TXSTS1: R233 Table 10.10 10_field_bus_controllers.md. -/
def FBCn_TXSTS1_CC : Field := ⟨380, 0x1D00028, 24, 65536, 0, 8, .ro, 0, false, 0, 255⟩
def FBCn_TXSTS1_RSN : Field := ⟨381, 0x1D00028, 24, 65536, 8, 8, .ro, 0, false, 0, 255⟩
def FBCn_TXSTS1_PEND : Field := ⟨382, 0x1D00028, 24, 65536, 16, 1, .ro, 0, false, 0, 1⟩
def FBCn_TXSTS1_RETRIES : Field := ⟨383, 0x1D00028, 24, 65536, 17, 7, .ro, 0, false, 0, 127⟩
/-! FBCn_TXSTS2: R233 Table 10.10 10_field_bus_controllers.md. -/
def FBCn_TXSTS2_CC : Field := ⟨384, 0x1D0002C, 24, 65536, 0, 8, .ro, 0, false, 0, 255⟩
def FBCn_TXSTS2_RSN : Field := ⟨385, 0x1D0002C, 24, 65536, 8, 8, .ro, 0, false, 0, 255⟩
def FBCn_TXSTS2_PEND : Field := ⟨386, 0x1D0002C, 24, 65536, 16, 1, .ro, 0, false, 0, 1⟩
def FBCn_TXSTS2_RETRIES : Field := ⟨387, 0x1D0002C, 24, 65536, 17, 7, .ro, 0, false, 0, 127⟩
/-! FBCn_TXTS0: R233 Table 10.10 10_field_bus_controllers.md. -/
def FBCn_TXTS0_TS : Field := ⟨388, 0x1D00030, 24, 65536, 0, 32, .ro, 0, false, 0, 4294967295⟩
/-! FBCn_TXTS1: R233 Table 10.10 10_field_bus_controllers.md. -/
def FBCn_TXTS1_TS : Field := ⟨389, 0x1D00034, 24, 65536, 0, 32, .ro, 0, false, 0, 4294967295⟩
/-! FBCn_TXTS2: R233 Table 10.10 10_field_bus_controllers.md. -/
def FBCn_TXTS2_TS : Field := ⟨390, 0x1D00038, 24, 65536, 0, 32, .ro, 0, false, 0, 4294967295⟩
/-! FBCn_RXCTL: R241 Table 10.11 10_field_bus_controllers.md. -/
def FBCn_RXCTL_DISCARD : Field := ⟨391, 0x1D00040, 24, 65536, 0, 1, .wo, 0, false, 0, 1⟩
/-! FBCn_RXSTS: R241 Table 10.11 10_field_bus_controllers.md. -/
def FBCn_RXSTS_COUNT : Field := ⟨392, 0x1D00044, 24, 65536, 0, 7, .ro, 0, false, 0, 127⟩
def FBCn_RXSTS_LOCK : Field := ⟨393, 0x1D00044, 24, 65536, 7, 1, .ro, 0, false, 0, 1⟩
def FBCn_RXSTS_RXOVF : Field := ⟨394, 0x1D00044, 24, 65536, 8, 12, .rc, 0, false, 0, 4095⟩
def FBCn_RXSTS_UNMATCHED : Field := ⟨395, 0x1D00044, 24, 65536, 20, 12, .rc, 0, false, 0, 4095⟩
/-! FBCn_QSTS: R241 Table 10.11 10_field_bus_controllers.md. -/
def FBCn_QSTS_DEPTH : Field := ⟨396, 0x1D00048, 24, 65536, 0, 9, .ro, 0, false, 0, 511⟩
def FBCn_QSTS_EXPIRED : Field := ⟨397, 0x1D00048, 24, 65536, 9, 11, .rc, 0, false, 0, 2047⟩
def FBCn_QSTS_QFULL : Field := ⟨398, 0x1D00048, 24, 65536, 20, 12, .rc, 0, false, 0, 4095⟩
/-! FBCn_FLTCMD: R238 Table 10.12 10_field_bus_controllers.md. -/
def FBCn_FLTCMD_CMD : Field := ⟨399, 0x1D00050, 24, 65536, 0, 2, .wo, 0, false, 0, 3⟩
def FBCn_FLTCMD_INDEX : Field := ⟨400, 0x1D00050, 24, 65536, 8, 6, .wo, 0, false, 0, 63⟩
/-! FBCn_FLTID: R238 Table 10.12 10_field_bus_controllers.md. -/
def FBCn_FLTID_FID : Field := ⟨401, 0x1D00054, 24, 65536, 0, 29, .rw, 0, false, 0, 536870911⟩
def FBCn_FLTID_IDE : Field := ⟨402, 0x1D00054, 24, 65536, 29, 1, .rw, 0, false, 0, 1⟩
/-! FBCn_FLTMASK: R238 Table 10.12 10_field_bus_controllers.md. -/
def FBCn_FLTMASK_FMASK : Field := ⟨403, 0x1D00058, 24, 65536, 0, 29, .rw, 0, false, 0, 536870911⟩
/-! FBCn_FLTSTS: R238 Table 10.12 10_field_bus_controllers.md. -/
def FBCn_FLTSTS_CC : Field := ⟨404, 0x1D0005C, 24, 65536, 0, 8, .ro, 0, false, 0, 255⟩
def FBCn_FLTSTS_RSN : Field := ⟨405, 0x1D0005C, 24, 65536, 8, 8, .ro, 0, false, 0, 255⟩
def FBCn_FLTSTS_ADDED : Field := ⟨406, 0x1D0005C, 24, 65536, 16, 6, .ro, 0, false, 0, 63⟩
/-! NPC_STATUS: R21 01_architecture.md. -/
def NPC_STATUS_QUAL : Field := ⟨407, 0x2000004, 1, 0, 0, 3, .ro, 0, false, 0, 7⟩
def NPC_STATUS_MSTATE : Field := ⟨408, 0x2000004, 1, 0, 3, 3, .ro, 0, false, 0, 7⟩
/-! NPC_VSUM: Table 11.10 11_vertex_protocol.md. -/
def NPC_VSUM_ADMITTED : Field := ⟨409, 0x2200000, 1, 0, 0, 12, .ro, 0, false, 0, 4095⟩
def NPC_VSUM_UNREACH : Field := ⟨410, 0x2200000, 1, 0, 12, 12, .ro, 0, false, 0, 4095⟩
def NPC_VSUM_BADMSG : Field := ⟨411, 0x2200000, 1, 0, 24, 8, .rc, 0, false, 0, 255⟩
/-! NPC_VCMD: R274 Table 11.11 11_vertex_protocol.md. -/
def NPC_VCMD_CMD : Field := ⟨412, 0x2200010, 1, 0, 0, 2, .wo, 0, false, 0, 3⟩
def NPC_VCMD_VERTEX : Field := ⟨413, 0x2200010, 1, 0, 16, 11, .wo, 0, false, 0, 2047⟩
/-! NPC_VCMDSTS: R274 Table 11.11 11_vertex_protocol.md. -/
def NPC_VCMDSTS_CC : Field := ⟨414, 0x2200014, 1, 0, 0, 8, .ro, 0, false, 0, 255⟩
def NPC_VCMDSTS_RSN : Field := ⟨415, 0x2200014, 1, 0, 8, 8, .ro, 0, false, 0, 255⟩
def NPC_VCMDSTS_PEND : Field := ⟨416, 0x2200014, 1, 0, 16, 1, .ro, 0, false, 0, 1⟩
/-! NPC_VRCFG: R266 Table 11.12 11_vertex_protocol.md. -/
def NPC_VRCFG_EN : Field := ⟨417, 0x2200020, 1, 0, 0, 1, .rw, 0, false, 0, 1⟩
def NPC_VRCFG_VRLOG : Field := ⟨418, 0x2200020, 1, 0, 1, 4, .rw, 0, false, 0, 15⟩
def NPC_VRCFG_VEC : Field := ⟨419, 0x2200020, 1, 0, 5, 6, .rw, 0, false, 0, 63⟩
/-! NPC_VRBASE_LO: R266 Table 11.12 11_vertex_protocol.md. A base that is not 4 KiB aligned is stored as written: DESIGN CHOICE (log entry 100). -/
def NPC_VRBASE_LO_BASE : Field := ⟨420, 0x2200024, 1, 0, 0, 32, .rw, 0, false, 0, 4294967295⟩
/-! NPC_VRBASE_HI: R266 Table 11.12 11_vertex_protocol.md. -/
def NPC_VRBASE_HI_BASE : Field := ⟨421, 0x2200028, 1, 0, 0, 32, .rw, 0, false, 0, 4294967295⟩
/-! NPC_VRHEAD: R266 Table 11.12 11_vertex_protocol.md. -/
def NPC_VRHEAD_HEAD : Field := ⟨422, 0x220002C, 1, 0, 0, 32, .ro, 0, false, 0, 4294967295⟩
/-! NPC_VRREAD: R266 Table 11.12 11_vertex_protocol.md. -/
def NPC_VRREAD_READ : Field := ⟨423, 0x2200030, 1, 0, 0, 32, .rw, 0, false, 0, 4294967295⟩
/-! NPC_VRDROP: R266 Table 11.12 11_vertex_protocol.md. -/
def NPC_VRDROP_VRDROP : Field := ⟨424, 0x2200034, 1, 0, 0, 32, .rc, 0, false, 0, 4294967295⟩
/-! NPC_VSTS: R271 Table 11.14 11_vertex_protocol.md. -/
def NPC_VSTS_QUAL : Field := ⟨425, 0x2210000, 2048, 4, 0, 3, .ro, 4, false, 0, 7⟩
def NPC_VSTS_MSTATE : Field := ⟨426, 0x2210000, 2048, 4, 3, 3, .ro, 1, false, 0, 7⟩
def NPC_VSTS_ADM : Field := ⟨427, 0x2210000, 2048, 4, 6, 1, .ro, 0, false, 0, 1⟩
def NPC_VSTS_REACH : Field := ⟨428, 0x2210000, 2048, 4, 7, 1, .ro, 0, false, 0, 1⟩
def NPC_VSTS_MED : Field := ⟨429, 0x2210000, 2048, 4, 8, 1, .ro, 0, false, 0, 1⟩
def NPC_VSTS_LINK : Field := ⟨430, 0x2210000, 2048, 4, 9, 5, .ro, 0, false, 0, 31⟩
def NPC_VSTS_MM : Field := ⟨431, 0x2210000, 2048, 4, 14, 1, .ro, 0, false, 0, 1⟩
def NPC_VSTS_TRUNC : Field := ⟨432, 0x2210000, 2048, 4, 15, 1, .ro, 0, false, 0, 1⟩
def NPC_VSTS_SESSION : Field := ⟨433, 0x2210000, 2048, 4, 16, 16, .ro, 0, false, 0, 65535⟩
/-! NPC_VCNT0: R266 11_vertex_protocol.md. -/
def NPC_VCNT0_DONE : Field := ⟨434, 0x2230000, 2048, 16, 0, 32, .ro, 0, false, 0, 4294967295⟩
/-! NPC_VCNT1: R266 11_vertex_protocol.md. -/
def NPC_VCNT1_RETRY : Field := ⟨435, 0x2230004, 2048, 16, 0, 32, .ro, 0, false, 0, 4294967295⟩
/-! NPC_VCNT2: R266 11_vertex_protocol.md. -/
def NPC_VCNT2_UNREACH : Field := ⟨436, 0x2230008, 2048, 16, 0, 32, .ro, 0, false, 0, 4294967295⟩
/-! NPC_VCNT3: R266 11_vertex_protocol.md. -/
def NPC_VCNT3_OTHER : Field := ⟨437, 0x223000C, 2048, 16, 0, 32, .ro, 0, false, 0, 4294967295⟩
/-! NPC_VMM: R270 11_vertex_protocol.md. -/
def NPC_VMM_MMCNT : Field := ⟨438, 0x2240000, 2048, 4, 0, 16, .ro, 0, false, 0, 65535⟩
/-! HMX_STATUS: R286 Table 12.5 12_network_host_memory.md. -/
def HMX_STATUS_QUAL : Field := ⟨439, 0x3400004, 1, 0, 0, 3, .ro, 0, false, 0, 7⟩
def HMX_STATUS_MSTATE : Field := ⟨440, 0x3400004, 1, 0, 3, 3, .ro, 0, false, 0, 7⟩
def HMX_STATUS_GEN : Field := ⟨441, 0x3400004, 1, 0, 6, 2, .ro, 0, false, 0, 3⟩
def HMX_STATUS_WIDTH : Field := ⟨442, 0x3400004, 1, 0, 8, 3, .ro, 0, false, 0, 7⟩
def HMX_STATUS_LINKUP : Field := ⟨443, 0x3400004, 1, 0, 11, 1, .ro, 0, false, 0, 1⟩
def HMX_STATUS_EPRST : Field := ⟨444, 0x3400004, 1, 0, 12, 8, .rc, 0, false, 0, 255⟩
/-! HMX_HERR: R287 Table 12.6 12_network_host_memory.md. -/
def HMX_HERR_ACC : Field := ⟨445, 0x3400010, 1, 0, 0, 16, .rc, 0, false, 0, 65535⟩
def HMX_HERR_PCIE : Field := ⟨446, 0x3400010, 1, 0, 16, 16, .rc, 0, false, 0, 65535⟩
/-! HMX_SPLIT: R292 Table 12.7 12_network_host_memory.md. -/
def HMX_SPLIT_SRAMHOST : Field := ⟨447, 0x3400014, 1, 0, 0, 12, .rw, 0, false, 0, 4095⟩
def HMX_SPLIT_DDRWS : Field := ⟨448, 0x3400014, 1, 0, 12, 10, .rw, 256, false, 0, 1023⟩
def HMX_SPLIT_BADCFG : Field := ⟨449, 0x3400014, 1, 0, 22, 1, .w1c, 0, false, 0, 1⟩
/-! HMX_B2DDR: R290 Table 12.7 12_network_host_memory.md. -/
def HMX_B2DDR_BASE : Field := ⟨450, 0x3400018, 1, 0, 0, 32, .rw, 0, false, 0, 4294967295⟩
/-! HMX_DDRCFG: R293 Table 12.8 12_network_host_memory.md. DRAM 3, which no Meaning defines, is stored and trains as with DDR5 fitted: DESIGN CHOICE (log entry 100). -/
def HMX_DDRCFG_DRAM : Field := ⟨451, 0x3400020, 1, 0, 0, 2, .rwh, 0, true, 0, 3⟩
def HMX_DDRCFG_RATE : Field := ⟨452, 0x3400020, 1, 0, 2, 2, .rwh, 0, true, 0, 3⟩
/-! HMX_DDRSTS: R294 Table 12.8 12_network_host_memory.md. -/
def HMX_DDRSTS_CH0 : Field := ⟨453, 0x3400024, 1, 0, 0, 1, .ro, 0, false, 0, 1⟩
def HMX_DDRSTS_CH1 : Field := ⟨454, 0x3400024, 1, 0, 1, 1, .ro, 0, false, 0, 1⟩
def HMX_DDRSTS_RATE0 : Field := ⟨455, 0x3400024, 1, 0, 2, 2, .ro, 0, false, 0, 3⟩
def HMX_DDRSTS_RATE1 : Field := ⟨456, 0x3400024, 1, 0, 4, 2, .ro, 0, false, 0, 3⟩
def HMX_DDRSTS_SIZE : Field := ⟨457, 0x3400024, 1, 0, 6, 10, .ro, 0, false, 0, 1023⟩
def HMX_DDRSTS_CORR : Field := ⟨458, 0x3400024, 1, 0, 16, 16, .rc, 0, false, 0, 65535⟩
/-! HMX_DMACFG: R288 Table 12.9 12_network_host_memory.md. -/
def HMX_DMACFG_EN : Field := ⟨459, 0x3400100, 4, 32, 0, 1, .rw, 0, false, 0, 1⟩
def HMX_DMACFG_LOG : Field := ⟨460, 0x3400100, 4, 32, 1, 4, .rw, 0, false, 0, 15⟩
def HMX_DMACFG_VEC : Field := ⟨461, 0x3400100, 4, 32, 5, 6, .rw, 0, false, 0, 63⟩
/-! HMX_DMABASE_LO: R288 Table 12.9 12_network_host_memory.md. -/
def HMX_DMABASE_LO_BASE : Field := ⟨462, 0x3400104, 4, 32, 0, 32, .rw, 0, false, 0, 4294967295⟩
/-! HMX_DMABASE_HI: R288 Table 12.9 12_network_host_memory.md. -/
def HMX_DMABASE_HI_BASE : Field := ⟨463, 0x3400108, 4, 32, 0, 32, .rw, 0, false, 0, 4294967295⟩
/-! HMX_DMADB: R288 Table 12.9 12_network_host_memory.md. -/
def HMX_DMADB_HEAD : Field := ⟨464, 0x340010C, 4, 32, 0, 32, .wo, 0, false, 0, 4294967295⟩
/-! HMX_DMATAIL: R288 Table 12.9 12_network_host_memory.md. -/
def HMX_DMATAIL_TAIL : Field := ⟨465, 0x3400110, 4, 32, 0, 32, .ro, 0, false, 0, 4294967295⟩
/-! NPCp_STATUS: R283 Table 12.10 12_network_host_memory.md. -/
def NPCp_STATUS_QUAL : Field := ⟨466, 0x2100000, 16, 65536, 0, 3, .ro, 0, false, 0, 7⟩
def NPCp_STATUS_MSTATE : Field := ⟨467, 0x2100000, 16, 65536, 3, 3, .ro, 4, false, 0, 7⟩
def NPCp_STATUS_SPEED : Field := ⟨468, 0x2100000, 16, 65536, 6, 2, .ro, 0, false, 0, 3⟩
def NPCp_STATUS_LINK : Field := ⟨469, 0x2100000, 16, 65536, 8, 1, .ro, 0, false, 0, 1⟩
def NPCp_STATUS_ANEGF : Field := ⟨470, 0x2100000, 16, 65536, 9, 1, .ro, 0, false, 0, 1⟩
def NPCp_STATUS_PTPST : Field := ⟨471, 0x2100000, 16, 65536, 10, 2, .ro, 0, false, 0, 3⟩
def NPCp_STATUS_FCOUNT : Field := ⟨472, 0x2100000, 16, 65536, 12, 4, .ro, 0, false, 0, 15⟩
def NPCp_STATUS_DROPPED : Field := ⟨473, 0x2100000, 16, 65536, 16, 16, .rc, 0, false, 0, 65535⟩
/-! RDU_STATUS: Table 13.11 13_redundant_pairs.md. -/
def RDU_STATUS_QUAL : Field := ⟨474, 0x2400004, 1, 0, 0, 3, .ro, 0, false, 0, 7⟩
def RDU_STATUS_MSTATE : Field := ⟨475, 0x2400004, 1, 0, 3, 3, .ro, 0, false, 0, 7⟩
def RDU_STATUS_PAIRST : Field := ⟨476, 0x2400004, 1, 0, 6, 2, .ro, 0, false, 0, 3⟩
def RDU_STATUS_SIDE : Field := ⟨477, 0x2400004, 1, 0, 8, 1, .ro, 0, false, 0, 1⟩
def RDU_STATUS_PMODE : Field := ⟨478, 0x2400004, 1, 0, 9, 3, .ro, 0, false, 0, 7⟩
def RDU_STATUS_HELD : Field := ⟨479, 0x2400004, 1, 0, 12, 1, .ro, 0, false, 0, 1⟩
/-! RDU_CFG: R311 Table 13.12 13_redundant_pairs.md. -/
def RDU_CFG_PAIRED : Field := ⟨480, 0x2400010, 1, 0, 0, 1, .rwh, 0, true, 0, 1⟩
def RDU_CFG_ABSENT : Field := ⟨481, 0x2400010, 1, 0, 8, 8, .rwh, 10, true, 0, 255⟩
/-! RDU_CMD: R320 Table 13.13 13_redundant_pairs.md. -/
def RDU_CMD_CMD : Field := ⟨482, 0x2400020, 1, 0, 0, 3, .wo, 0, false, 0, 7⟩
/-! RDU_CMDSTS: R320 Table 13.13 13_redundant_pairs.md. -/
def RDU_CMDSTS_CC : Field := ⟨483, 0x2400024, 1, 0, 0, 8, .ro, 0, false, 0, 255⟩
def RDU_CMDSTS_RSN : Field := ⟨484, 0x2400024, 1, 0, 8, 8, .ro, 0, false, 0, 255⟩
def RDU_CMDSTS_PEND : Field := ⟨485, 0x2400024, 1, 0, 16, 1, .ro, 0, false, 0, 1⟩
/-! RDU_CLAIM: R308 Table 13.14 13_redundant_pairs.md. -/
def RDU_CLAIM_OWN : Field := ⟨486, 0x2400028, 1, 0, 0, 32, .ro, 0, true, 0, 4294967295⟩
/-! RDU_PCLAIM: R309 Table 13.14 13_redundant_pairs.md. -/
def RDU_PCLAIM_PARTNER : Field := ⟨487, 0x240002C, 1, 0, 0, 32, .ro, 0, false, 0, 4294967295⟩
/-! RDU_AGSTS: R303 Table 13.15 13_redundant_pairs.md. -/
def RDU_AGSTS_LATE : Field := ⟨488, 0x2400030, 1, 0, 0, 16, .rc, 0, false, 0, 65535⟩
def RDU_AGSTS_EXCL : Field := ⟨489, 0x2400030, 1, 0, 16, 16, .rc, 0, false, 0, 65535⟩
/-! RDU_OOS: R306 Table 13.15 13_redundant_pairs.md. -/
def RDU_OOS_CAUSE : Field := ⟨490, 0x2400034, 1, 0, 0, 4, .ro, 0, false, 0, 15⟩
def RDU_OOS_TICK : Field := ⟨491, 0x2400034, 1, 0, 8, 24, .ro, 0, false, 0, 16777215⟩
/-! RDU_CPSTS: R319 Table 13.16 13_redundant_pairs.md. -/
def RDU_CPSTS_STATE : Field := ⟨492, 0x2400040, 1, 0, 0, 3, .ro, 0, false, 0, 7⟩
def RDU_CPSTS_REGION : Field := ⟨493, 0x2400040, 1, 0, 4, 4, .ro, 0, false, 0, 15⟩
def RDU_CPSTS_CC : Field := ⟨494, 0x2400040, 1, 0, 8, 8, .ro, 0, false, 0, 255⟩
def RDU_CPSTS_RSN : Field := ⟨495, 0x2400040, 1, 0, 16, 8, .ro, 0, false, 0, 255⟩
def RDU_CPSTS_PEND : Field := ⟨496, 0x2400040, 1, 0, 24, 1, .ro, 0, false, 0, 1⟩
/-! RDU_CPMASK: R319 Table 13.16 13_redundant_pairs.md. -/
def RDU_CPMASK_DONEMASK : Field := ⟨497, 0x2400044, 1, 0, 0, 12, .ro, 0, false, 0, 4095⟩
/-! RDU_CPBYTES: R319 Table 13.16 13_redundant_pairs.md. -/
def RDU_CPBYTES_BYTES : Field := ⟨498, 0x2400048, 1, 0, 0, 32, .ro, 0, false, 0, 4294967295⟩
/-! RDU_CHSTS: R298 Table 13.17 13_redundant_pairs.md. -/
def RDU_CHSTS_QUAL : Field := ⟨499, 0x2400100, 2, 4, 0, 3, .ro, 0, false, 0, 7⟩
def RDU_CHSTS_MSTATE : Field := ⟨500, 0x2400100, 2, 4, 3, 3, .ro, 0, false, 0, 7⟩
def RDU_CHSTS_LOCK : Field := ⟨501, 0x2400100, 2, 4, 6, 1, .ro, 0, false, 0, 1⟩
def RDU_CHSTS_LANES : Field := ⟨502, 0x2400100, 2, 4, 7, 3, .ro, 0, false, 0, 7⟩
def RDU_CHSTS_RATE : Field := ⟨503, 0x2400100, 2, 4, 10, 1, .ro, 0, false, 0, 1⟩
def RDU_CHSTS_PAIRED : Field := ⟨504, 0x2400100, 2, 4, 11, 1, .ro, 0, false, 0, 1⟩
def RDU_CHSTS_RSN : Field := ⟨505, 0x2400100, 2, 4, 12, 4, .ro, 0, false, 0, 15⟩
def RDU_CHSTS_FCOUNT : Field := ⟨506, 0x2400100, 2, 4, 16, 4, .ro, 0, false, 0, 15⟩
def RDU_CHSTS_CRCERR : Field := ⟨507, 0x2400100, 2, 4, 20, 12, .rc, 0, false, 0, 4095⟩
/-! RDU_CHLAT: R300 Table 13.17 13_redundant_pairs.md. -/
def RDU_CHLAT_LAT : Field := ⟨508, 0x2400110, 2, 4, 0, 32, .ro, 0, false, 0, 4294967295⟩
/-! CSC_STATUS: R323 Table 14.4 14_cascade.md. -/
def CSC_STATUS_QUAL : Field := ⟨509, 0x2800004, 1, 0, 0, 3, .ro, 0, false, 0, 7⟩
def CSC_STATUS_MSTATE : Field := ⟨510, 0x2800004, 1, 0, 3, 3, .ro, 0, false, 0, 7⟩
def CSC_STATUS_MEMBER : Field := ⟨511, 0x2800004, 1, 0, 6, 3, .ro, 0, false, 0, 7⟩
def CSC_STATUS_ROOT : Field := ⟨512, 0x2800004, 1, 0, 9, 1, .ro, 0, false, 0, 1⟩
def CSC_STATUS_HOPS : Field := ⟨513, 0x2800004, 1, 0, 10, 3, .ro, 7, false, 0, 7⟩
def CSC_STATUS_PARENT : Field := ⟨514, 0x2800004, 1, 0, 13, 3, .ro, 7, false, 0, 7⟩
/-! CSC_CFG: R324 Table 14.5 14_cascade.md. -/
def CSC_CFG_EN : Field := ⟨515, 0x2800010, 1, 0, 0, 1, .rwh, 0, true, 0, 1⟩
/-! CSC_CJMASK: R324 Table 14.5 14_cascade.md. -/
def CSC_CJMASK_MASK : Field := ⟨516, 0x2800014, 1, 0, 0, 8, .rw, 0, false, 0, 255⟩
/-! CSC_ROSTER: R324 Table 14.5 14_cascade.md. -/
def CSC_ROSTER_UNITS : Field := ⟨517, 0x2800018, 1, 0, 0, 16, .ro, 0, false, 0, 65535⟩
/-! CSC_SKEW: R325 Table 14.6 14_cascade.md. -/
def CSC_SKEW_SKEW : Field := ⟨518, 0x2800020, 1, 0, 0, 32, .ro, 0, false, 0, 4294967295⟩
/-! CSC_PATHLAT: R325 Table 14.6 14_cascade.md. -/
def CSC_PATHLAT_PATHLAT : Field := ⟨519, 0x2800024, 1, 0, 0, 32, .ro, 0, false, 0, 4294967295⟩
/-! CSC_CLSTS: R322 Table 14.7 14_cascade.md. -/
def CSC_CLSTS_QUAL : Field := ⟨520, 0x2800100, 4, 4, 0, 3, .ro, 0, false, 0, 7⟩
def CSC_CLSTS_MSTATE : Field := ⟨521, 0x2800100, 4, 4, 3, 3, .ro, 0, false, 0, 7⟩
def CSC_CLSTS_LOCK : Field := ⟨522, 0x2800100, 4, 4, 6, 1, .ro, 0, false, 0, 1⟩
def CSC_CLSTS_LANES : Field := ⟨523, 0x2800100, 4, 4, 7, 3, .ro, 0, false, 0, 7⟩
def CSC_CLSTS_ROLE : Field := ⟨524, 0x2800100, 4, 4, 10, 2, .ro, 0, false, 0, 3⟩
def CSC_CLSTS_RSN : Field := ⟨525, 0x2800100, 4, 4, 12, 3, .ro, 0, false, 0, 7⟩
def CSC_CLSTS_FCOUNT : Field := ⟨526, 0x2800100, 4, 4, 16, 4, .ro, 0, false, 0, 15⟩
def CSC_CLSTS_CRCERR : Field := ⟨527, 0x2800100, 4, 4, 20, 12, .rc, 0, false, 0, 4095⟩
/-! NVS_STATUS: R341 Table 15.7 15_nonvolatile_store.md. -/
def NVS_STATUS_QUAL : Field := ⟨528, 0x2C00004, 1, 0, 0, 3, .ro, 0, false, 0, 7⟩
def NVS_STATUS_MSTATE : Field := ⟨529, 0x2C00004, 1, 0, 3, 3, .ro, 0, false, 0, 7⟩
def NVS_STATUS_RECALL : Field := ⟨530, 0x2C00004, 1, 0, 6, 1, .ro, 1, false, 0, 1⟩
def NVS_STATUS_BUSYRD : Field := ⟨531, 0x2C00004, 1, 0, 7, 1, .w1c, 0, false, 0, 1⟩
def NVS_STATUS_RECUS : Field := ⟨532, 0x2C00004, 1, 0, 8, 12, .ro, 0, false, 0, 4095⟩
def NVS_STATUS_SPARES : Field := ⟨533, 0x2C00004, 1, 0, 20, 9, .ro, 352, false, 0, 511⟩
/-! NVS_WQ: R343 Table 15.8 15_nonvolatile_store.md. -/
def NVS_WQ_DEPTH : Field := ⟨534, 0x2C00010, 1, 0, 0, 10, .ro, 0, false, 0, 1023⟩
def NVS_WQ_CLASS : Field := ⟨535, 0x2C00010, 1, 0, 10, 3, .ro, 0, false, 0, 7⟩
def NVS_WQ_CC : Field := ⟨536, 0x2C00010, 1, 0, 16, 8, .ro, 0, false, 0, 255⟩
def NVS_WQ_RSN : Field := ⟨537, 0x2C00010, 1, 0, 24, 8, .ro, 0, false, 0, 255⟩
/-! NVS_WEAR: R346 Table 15.8 15_nonvolatile_store.md. -/
def NVS_WEAR_TYPE : Field := ⟨538, 0x2C00014, 1, 0, 0, 16, .ro, 0, false, 0, 65535⟩
def NVS_WEAR_RATE : Field := ⟨539, 0x2C00014, 1, 0, 16, 16, .ro, 0, false, 0, 65535⟩
/-! NVS_RETCFG: R344 Table 15.9 15_nonvolatile_store.md. -/
def NVS_RETCFG_PERIOD : Field := ⟨540, 0x2C00018, 1, 0, 0, 12, .rwh, 10, false, 1, 3600⟩
/-! NVS_RETSTS: R345 Table 15.9 15_nonvolatile_store.md. -/
def NVS_RETSTS_KIND : Field := ⟨541, 0x2C0001C, 1, 0, 0, 2, .ro, 0, false, 0, 3⟩
def NVS_RETSTS_STALE : Field := ⟨542, 0x2C0001C, 1, 0, 2, 1, .ro, 0, false, 0, 1⟩
def NVS_RETSTS_TICK : Field := ⟨543, 0x2C0001C, 1, 0, 8, 24, .ro, 0, false, 0, 16777215⟩
/-! NVS_SCRUB: R347 Table 15.10 15_nonvolatile_store.md. -/
def NVS_SCRUB_PAGE : Field := ⟨544, 0x2C00020, 1, 0, 0, 14, .ro, 0, false, 0, 16383⟩
def NVS_SCRUB_REFR : Field := ⟨545, 0x2C00020, 1, 0, 14, 10, .rc, 0, false, 0, 1023⟩
def NVS_SCRUB_UNCORR : Field := ⟨546, 0x2C00020, 1, 0, 24, 8, .rc, 0, false, 0, 255⟩
/-! NVS_RDBASE: Table 15.10 15_nonvolatile_store.md. -/
def NVS_RDBASE_BASE : Field := ⟨547, 0x2C00024, 1, 0, 0, 6, .rw, 0, false, 0, 63⟩
/-! EVR_STATUS: Table 16.5 16_event_recorder.md. -/
def EVR_STATUS_QUAL : Field := ⟨548, 0x3000004, 1, 0, 0, 3, .ro, 0, false, 0, 7⟩
def EVR_STATUS_MSTATE : Field := ⟨549, 0x3000004, 1, 0, 3, 3, .ro, 0, false, 0, 7⟩
def EVR_STATUS_FROZEN : Field := ⟨550, 0x3000004, 1, 0, 6, 1, .ro, 0, false, 0, 1⟩
def EVR_STATUS_WRAPPED : Field := ⟨551, 0x3000004, 1, 0, 7, 1, .ro, 0, false, 0, 1⟩
def EVR_STATUS_STAGED : Field := ⟨552, 0x3000004, 1, 0, 8, 7, .ro, 0, false, 0, 127⟩
/-! EVR_CFG: Table 16.6 16_event_recorder.md. -/
def EVR_CFG_ANCHOR : Field := ⟨553, 0x3000010, 1, 0, 0, 8, .rwh, 60, true, 0, 240⟩
def EVR_CFG_FRZMAX : Field := ⟨554, 0x3000010, 1, 0, 8, 8, .rwh, 10, true, 0, 60⟩
/-! EVR_CMD: R363 Table 16.7 16_event_recorder.md. -/
def EVR_CMD_CMD : Field := ⟨555, 0x3000020, 1, 0, 0, 3, .wo, 0, false, 0, 7⟩
/-! EVR_CMDSTS: R363 Table 16.7 16_event_recorder.md. -/
def EVR_CMDSTS_CC : Field := ⟨556, 0x3000024, 1, 0, 0, 8, .ro, 0, false, 0, 255⟩
def EVR_CMDSTS_RSN : Field := ⟨557, 0x3000024, 1, 0, 8, 8, .ro, 0, false, 0, 255⟩
def EVR_CMDSTS_PEND : Field := ⟨558, 0x3000024, 1, 0, 16, 1, .ro, 0, false, 0, 1⟩
/-! EVR_HEAD: R357 Table 16.8 16_event_recorder.md. -/
def EVR_HEAD_HEAD : Field := ⟨559, 0x3000028, 1, 0, 0, 15, .ro, 0, false, 0, 32767⟩
/-! EVR_CURSOR: R358 Table 16.8 16_event_recorder.md. -/
def EVR_CURSOR_CURSOR : Field := ⟨560, 0x300002C, 1, 0, 0, 15, .rw, 0, false, 0, 32767⟩
/-! EVR_LOSTDROP: R362 Table 16.9 16_event_recorder.md. -/
def EVR_LOSTDROP_LOST : Field := ⟨561, 0x3000030, 4, 4, 0, 16, .ro, 0, false, 0, 65535⟩
def EVR_LOSTDROP_DROP : Field := ⟨562, 0x3000030, 4, 4, 16, 16, .ro, 0, false, 0, 65535⟩
/-! EVR_OPSEC: R354 Table 16.10 16_event_recorder.md. -/
def EVR_OPSEC_OPSEC : Field := ⟨563, 0x3000040, 1, 0, 0, 32, .ro, 0, true, 0, 4294967295⟩
/-! EVR_PCC: R354 Table 16.10 16_event_recorder.md. -/
def EVR_PCC_PCC : Field := ⟨564, 0x3000044, 1, 0, 0, 24, .ro, 0, true, 0, 16777215⟩

/-- Fields 0 to 39. -/
def part0 : List Field := [SSU_ID_SUBSYS, SSU_ID_BLKREV, TBC_ID_SUBSYS, TBC_ID_BLKREV, CSA_ID_SUBSYS, CSA_ID_BLKREV, LPE_ID_SUBSYS, LPE_ID_BLKREV, LSV_ID_SUBSYS, LSV_ID_BLKREV, MTE_ID_SUBSYS, MTE_ID_BLKREV, FCT_ID_SUBSYS, FCT_ID_BLKREV, FBC_ID_SUBSYS, FBC_ID_BLKREV, NPC_ID_SUBSYS, NPC_ID_BLKREV, RDU_ID_SUBSYS, RDU_ID_BLKREV, CSC_IDENT_SUBSYS, CSC_IDENT_BLKREV, NVS_ID_SUBSYS, NVS_ID_BLKREV, EVR_ID_SUBSYS, EVR_ID_BLKREV, HMX_ID_SUBSYS, HMX_ID_BLKREV, SSU_STATUS_QUAL, SSU_STATUS_MSTATE, SSU_SUPPLY_RAILOK, SSU_SUPPLY_VBATLOW, SSU_SUPPLY_WARN, SSU_SUPPLY_WARNSEEN, SSU_RSTCAUSE_KIND, SSU_RSTCAUSE_RAIL, SSU_RSTCAUSE_WDSRC, SSU_RSTCAUSE_INSAVE, SSU_RSTCAUSE_SAVEDONE, SSU_RSTCAUSE_RSTSAVE]
/-- Fields 40 to 79. -/
def part1 : List Field := [SSU_RSTCAUSE_RESUMED, SSU_SAVESTS_LASTUS, SSU_SAVESTS_SAVECNT, SSU_WDTCFG_HOSTEN, SSU_WDTCFG_ACT, SSU_WDTCFG_HOSTTO, SSU_WDTKICK_KICK, SSU_RSTCMD_GO, SSU_RSTCMD_KEY, SSU_SVCCMD_CMD, SSU_SVCCMD_KEY, SSU_SVCSTS_CC, SSU_SVCSTS_RSN, SSU_SVCSTS_PEND, SSU_SVCSTS_RETCNT, SSU_SVCSTS_RETFULL, SSU_BISTSTS_CC, SSU_BISTSTS_RSN, SSU_BISTSTS_FAILED, SSU_BISTSTS_RAN, SSU_BISTSTS_MS, SSU_FWIN_WINDOW, SSU_MODE_MODE, SSU_MODE_PRIOR, SSU_MODE_LASTCC, SSU_MODE_LASTRSN, SSU_MODE_PEND, SSU_MODECMD_CMD, SSU_SECSTS_USABLE, SSU_SECSTS_REVOKED, SSU_SECSTS_JTAGLOCK, SSU_SECSTS_JTAGOFF, SSU_SECSTS_BISTSTART, SSU_SECSTS_BOOTSRC, SSU_SECSTS_PRSN, SSU_SECSTS_FRSN, SSU_SVN_PFLOOR, SSU_SVN_FFLOOR, SSU_SVN_PSVN, SSU_SVN_FSVN]
/-- Fields 80 to 119. -/
def part2 : List Field := [SSU_OTPCMD_CMD, SSU_OTPCMD_INDEX, SSU_OTPCMD_VALUE, SSU_OTPCMD_KEY, SSU_OTPSTS_CC, SSU_OTPSTS_RSN, SSU_OTPSTS_PEND, SSU_OTPDATA_DATA, SSU_DEVID_LO_DEVID, SSU_DEVID_HI_DEVID, SSU_QCMD_GO, SSU_QADDR_LO_ADDR, SSU_QADDR_HI_ADDR, SSU_QSTS_CC, SSU_QSTS_RSN, SSU_QSTS_PEND, SSU_QNONCE_NONCE, SSU_TEMP_TJ, SSU_TEMP_MAX, TBC_STATUS_QUAL, TBC_STATUS_MSTATE, TBC_STATUS_TICKFAULT, TBC_TICKCFG_TICKLEN, TBC_TICKCFG_AGREE, TBC_TICKCFG_BADCFG, TBC_DISC_APEXEN, TBC_DISC_PTPEN, TBC_DISC_PTPPORT, TBC_DISC_QUALTIME, TBC_DSTS_SRC, TBC_DSTS_HOLDOVER, TBC_DSTS_APEXQ, TBC_DSTS_PTPQ, TBC_DSTS_STEPBLK, TBC_OFFSET_OFFSET, TBC_RATE_RATE, TBC_TIME_LO_TIME, TBC_TIME_HI_TIME, TBC_TICKNO_LO_TICKNO, TBC_TICKNO_HI_TICKNO]
/-- Fields 120 to 159. -/
def part3 : List Field := [TBC_RTCSTS_OSF, TBC_RTCSTS_BADWRITE, TBC_RTCSTS_SRC, TBC_RTCSTS_CHKOK, TBC_RTCCNT_LO_CNT, TBC_RTCCNT_HI_CNT, TBC_RTCSUB_SUB, TBC_RTCDATE_YEAR, TBC_RTCDATE_MONTH, TBC_RTCDATE_DAY, TBC_RTCDATE_WDAY, TBC_RTCTIME_SEC, TBC_RTCTIME_MIN, TBC_RTCTIME_HOUR, TBC_RTCWDATE_WDATE, TBC_RTCWTIME_WTIME, TBC_RTCCMD_SET, TBC_RTCCMDSTS_CC, TBC_RTCCMDSTS_RSN, TBC_RTCCMDSTS_PEND, TBC_RTCCFG_ZONE, TBC_RTCCFG_STEPMAX, TBC_TRIM_TRIM, TBC_TRIM_W, TBC_TRIMCFG_TBEN, TBC_TRIMCFG_GRIDEN, TBC_TRIMCFG_TRIMFDR, TBC_TRIMCFG_MEASDAYS, TBC_TRIMCFG_GRIDERR, CSA_STATUS_QUAL, CSA_STATUS_MSTATE, CSA_STATUS_SPARES, CSA_STATUS_PROGVALID, CSA_OLC_CMD, CSA_OLC_FORCE_RELEASE, CSA_OLC_STATE, CSA_OLC_ACTHALF, CSA_OLC_CC, CSA_OLC_RSN, CSA_OLC_PEND]
/-- Fields 160 to 199. -/
def part4 : List Field := [CSA_OLC_SLOTPEND, CSA_OLCADDR_LO_ADDR, CSA_OLCADDR_HI_ADDR, CSA_OLCLEN_LEN, CSA_OLCTICK_LO_KS, CSA_OLCTICK_HI_KS, CSA_OLCRPT_ENTRIES, CSA_OLCRPT_FRCREL, CSA_OLCRPT_SATCNT, CSA_OLCREF_ITEM, CSA_OLCREF_KIND, CSA_FRCCMD_CMD, CSA_FRCVID_VID, CSA_FRCVAL_LO_VAL, CSA_FRCVAL_HI_VAL, CSA_FRCSTS_COUNT, CSA_FRCSTS_PEND, CSA_FRCSTS_CC, CSA_FRCSTS_RSN, CSA_SQSTS_QUAL, CSA_SQSTS_MSTATE, CSA_SQSTS_LSEQ, CSA_SQSTS_FCOUNT, CSA_TASKSTS_QUAL, CSA_TASKSTS_MSTATE, CSA_TASKSTS_CC, CSA_TASKSTS_RSN, CSA_TASKSTS_TFLAGS, CSA_TASKTICK_TICK, LPE_STATUS_QUAL, LPE_STATUS_MSTATE, LPE_STATUS_LANES, LPE_STATUS_WRBLK, LPE_TIMING_LASTCYC, LPE_TIMING_MAXCYC, LPE_LCMD_CMD, LPE_LCMD_LOOP, LPE_LCMD_GROUP, LPE_LCRC_CRC, LPE_LCSTS_CC]
/-- Fields 200 to 239. -/
def part5 : List Field := [LPE_LCSTS_RSN, LPE_LCSTS_PEND, LPE_LCSTS_SIDE, LPE_LANESTS_QUAL, LPE_LANESTS_MSTATE, LPE_LANESTS_FCOUNT, LPE_LSTS_QUAL, LPE_LSTS_MSTATE, LPE_LSTS_MODE, LPE_LSTS_BANK, LPE_LSTS_PENDSWAP, LPE_LSTS_SATHI, LPE_LSTS_SATLO, LPE_LSTS_RLIM, LPE_LSTS_IHOLD, LPE_LSTS_S_ASAT, LPE_LSTS_S_SATHI, LPE_LSTS_S_SATLO, LPE_LSTS_S_RLIM, LPE_LSTS_S_PVFAIL, LPE_LSTS_S_SPFAIL, LPE_LSTS_S_FFFAIL, LPE_LSTS_S_DCGAIN, LPE_LSTS_S_SKIP, LPE_LSTS_S_REQIGN, LPE_LSTS_S_SWAPPED, LSV_STATUS_QUAL, LSV_STATUS_MSTATE, LSV_STATUS_TILES, LSV_QSTS_DEPTH, LSV_QSTS_BUSY, LSV_QSTS_RECOVERED, LSV_RINGCFG_EN, LSV_RINGCFG_SQLOG, LSV_RINGCFG_CQLOG, LSV_RINGCFG_VEC, LSV_RINGCFG_BADCFG, LSV_CTLADDR_LO_CTLADDR, LSV_CTLADDR_HI_CTLADDR, LSV_SQBASE_LO_SQBASE]
/-- Fields 240 to 279. -/
def part6 : List Field := [LSV_SQBASE_HI_SQBASE, LSV_CQBASE_LO_CQBASE, LSV_CQBASE_HI_CQBASE, LSV_DOORBELL_RING, LSV_CANCEL_LO_TAG, LSV_CANCEL_HI_TAG, LSV_CANCELCMD_GO, LSV_CANCELSTS_CC, LSV_CANCELSTS_RSN, LSV_CANCELSTS_PEND, LSV_PERF_FLOP_LO_FLOP, LSV_PERF_FLOP_HI_FLOP, LSV_PERF_CYC_LO_CYC, LSV_PERF_CYC_HI_CYC, LSV_TILESTS_QUAL, LSV_TILESTS_MSTATE, LSV_TILESTS_FCOUNT, LSV_TILESTS_CORR, LSV_HANDLE0_VALID, LSV_HANDLE0_CONTENT, LSV_HANDLE0_FPREC, LSV_HANDLE0_DDR, LSV_HANDLE1_SIZEKIB, LSV_HANDLE2_FPRINT, LSV_HANDLE3_FPRINT, LSV_MBX0_QUAL, LSV_MBX0_MSTATE, LSV_MBX0_MAXAGE, LSV_MBX1_SEQ, LSV_MBX2_ACKSEQ, LSV_MBX3_OVERRUN, LSV_MBX3_DIVERGE, MTE_STATUS_QUAL, MTE_STATUS_MSTATE, MTE_STATUS_BANKS, MTE_STATUS_SPARE, MTE_MODCFG_DIV, MTE_MODCFG_SAMPDLY, MTE_MODCFG_BADCFG, MTE_SAVECFG_PERIOD]
/-- Fields 280 to 319. -/
def part7 : List Field := [MTE_SAVESTS_CC, MTE_SAVESTS_RSN, MTE_SAVESTS_KIND, MTE_PAIRCFG_TOLREL, MTE_PAIRCFG_TOLABS, MTE_LRCFG_EN, MTE_LRCFG_LRLOG, MTE_LRCFG_VEC, MTE_LRBASE_LO_BASE, MTE_LRBASE_HI_BASE, MTE_LRHEAD_HEAD, MTE_LRREAD_READ, MTE_LRDROP_LRDROP, MTE_CALCFG_FEEDER, MTE_CALCFG_W, MTE_CALCFG_WMAX, MTE_CALTOL_GTOL, MTE_CALTOL_PTOL, MTE_CALTOL_ACCG, MTE_CALTOL_ACCP, MTE_CALCMD_CMD, MTE_CALSTS_CC, MTE_CALSTS_RSN, MTE_CALSTS_PEND, MTE_CALSTS_STAGE, MTE_CALSTS_WIN, MTE_CALRES_GERR, MTE_CALRES_PERR, MTE_CALWR0_GAIN, MTE_CALWR1_OFFSET, MTE_CALWR2_PHASE, MTE_CALWR2_INPUT, MTE_BANKSTS_QUAL, MTE_BANKSTS_MSTATE, MTE_BANKSTS_GROUP, MTE_BANKSTS_FCOUNT, MTE_INSTS_QUAL, MTE_INSTS_MSTATE, MTE_INSTS_STUCK, MTE_INSTS_S_CLIP]
/-- Fields 320 to 359. -/
def part8 : List Field := [MTE_INSTS_GLITCH, MTE_FSTS_QUAL, MTE_FSTS_MSTATE, MTE_FSTS_SRC, MTE_FSTS_NOVOLT, MTE_FSTS_CALGEN, MTE_FSTS_FLAGS, MTE_HSTS_QUAL, MTE_HSTS_MSTATE, MTE_HSTS_SRC, MTE_HSTS_NOVOLT, MTE_HSTS_CALGEN, MTE_HSTS_FLAGS, FCT_STATUS_QUAL, FCT_STATUS_MSTATE, FCT_STATUS_ACTSLOT, FCT_STATUS_SHSTATE, FCT_STATUS_SLOTPEND, FCT_CMD_CMD, FCT_ADDR_LO_ADDR, FCT_ADDR_HI_ADDR, FCT_LEN_LEN, FCT_SWAPTICK_LO_KF, FCT_SWAPTICK_HI_KF, FCT_SWSTS_CC, FCT_SWSTS_RSN, FCT_SWSTS_PEND, FCT_REF_ITEM, FCT_REF_KIND, FCT_ACTDIG_LO_ACTDIG, FCT_ACTDIG_HI_ACTDIG, FCT_SHDIG_LO_SHDIG, FCT_SHDIG_HI_SHDIG, FBC_STATUS_QUAL, FBC_STATUS_MSTATE, FBCn_STATUS_QUAL, FBCn_STATUS_MSTATE, FBCn_STATUS_PMODE, FBCn_STATUS_PROBE, FBCn_STATUS_EPASS]
/-- Fields 360 to 399. -/
def part9 : List Field := [FBCn_STATUS_BUSOFF, FBCn_STATUS_RECOV, FBCn_STATUS_FCOUNT, FBCn_CTL_CMD, FBCn_CTLSTS_CC, FBCn_CTLSTS_RSN, FBCn_CTLSTS_PEND, FBCn_ERR_TEC, FBCn_ERR_REC, FBCn_ERR_LEC, FBCn_ERR_LPH, FBCn_ERR_CLASH, FBCn_TSC_TSC, FBCn_TXCMD_CMD, FBCn_TXCMD_CANCC, FBCn_TXCMD_CANRSN, FBCn_TXSTS0_CC, FBCn_TXSTS0_RSN, FBCn_TXSTS0_PEND, FBCn_TXSTS0_RETRIES, FBCn_TXSTS1_CC, FBCn_TXSTS1_RSN, FBCn_TXSTS1_PEND, FBCn_TXSTS1_RETRIES, FBCn_TXSTS2_CC, FBCn_TXSTS2_RSN, FBCn_TXSTS2_PEND, FBCn_TXSTS2_RETRIES, FBCn_TXTS0_TS, FBCn_TXTS1_TS, FBCn_TXTS2_TS, FBCn_RXCTL_DISCARD, FBCn_RXSTS_COUNT, FBCn_RXSTS_LOCK, FBCn_RXSTS_RXOVF, FBCn_RXSTS_UNMATCHED, FBCn_QSTS_DEPTH, FBCn_QSTS_EXPIRED, FBCn_QSTS_QFULL, FBCn_FLTCMD_CMD]
/-- Fields 400 to 439. -/
def part10 : List Field := [FBCn_FLTCMD_INDEX, FBCn_FLTID_FID, FBCn_FLTID_IDE, FBCn_FLTMASK_FMASK, FBCn_FLTSTS_CC, FBCn_FLTSTS_RSN, FBCn_FLTSTS_ADDED, NPC_STATUS_QUAL, NPC_STATUS_MSTATE, NPC_VSUM_ADMITTED, NPC_VSUM_UNREACH, NPC_VSUM_BADMSG, NPC_VCMD_CMD, NPC_VCMD_VERTEX, NPC_VCMDSTS_CC, NPC_VCMDSTS_RSN, NPC_VCMDSTS_PEND, NPC_VRCFG_EN, NPC_VRCFG_VRLOG, NPC_VRCFG_VEC, NPC_VRBASE_LO_BASE, NPC_VRBASE_HI_BASE, NPC_VRHEAD_HEAD, NPC_VRREAD_READ, NPC_VRDROP_VRDROP, NPC_VSTS_QUAL, NPC_VSTS_MSTATE, NPC_VSTS_ADM, NPC_VSTS_REACH, NPC_VSTS_MED, NPC_VSTS_LINK, NPC_VSTS_MM, NPC_VSTS_TRUNC, NPC_VSTS_SESSION, NPC_VCNT0_DONE, NPC_VCNT1_RETRY, NPC_VCNT2_UNREACH, NPC_VCNT3_OTHER, NPC_VMM_MMCNT, HMX_STATUS_QUAL]
/-- Fields 440 to 479. -/
def part11 : List Field := [HMX_STATUS_MSTATE, HMX_STATUS_GEN, HMX_STATUS_WIDTH, HMX_STATUS_LINKUP, HMX_STATUS_EPRST, HMX_HERR_ACC, HMX_HERR_PCIE, HMX_SPLIT_SRAMHOST, HMX_SPLIT_DDRWS, HMX_SPLIT_BADCFG, HMX_B2DDR_BASE, HMX_DDRCFG_DRAM, HMX_DDRCFG_RATE, HMX_DDRSTS_CH0, HMX_DDRSTS_CH1, HMX_DDRSTS_RATE0, HMX_DDRSTS_RATE1, HMX_DDRSTS_SIZE, HMX_DDRSTS_CORR, HMX_DMACFG_EN, HMX_DMACFG_LOG, HMX_DMACFG_VEC, HMX_DMABASE_LO_BASE, HMX_DMABASE_HI_BASE, HMX_DMADB_HEAD, HMX_DMATAIL_TAIL, NPCp_STATUS_QUAL, NPCp_STATUS_MSTATE, NPCp_STATUS_SPEED, NPCp_STATUS_LINK, NPCp_STATUS_ANEGF, NPCp_STATUS_PTPST, NPCp_STATUS_FCOUNT, NPCp_STATUS_DROPPED, RDU_STATUS_QUAL, RDU_STATUS_MSTATE, RDU_STATUS_PAIRST, RDU_STATUS_SIDE, RDU_STATUS_PMODE, RDU_STATUS_HELD]
/-- Fields 480 to 519. -/
def part12 : List Field := [RDU_CFG_PAIRED, RDU_CFG_ABSENT, RDU_CMD_CMD, RDU_CMDSTS_CC, RDU_CMDSTS_RSN, RDU_CMDSTS_PEND, RDU_CLAIM_OWN, RDU_PCLAIM_PARTNER, RDU_AGSTS_LATE, RDU_AGSTS_EXCL, RDU_OOS_CAUSE, RDU_OOS_TICK, RDU_CPSTS_STATE, RDU_CPSTS_REGION, RDU_CPSTS_CC, RDU_CPSTS_RSN, RDU_CPSTS_PEND, RDU_CPMASK_DONEMASK, RDU_CPBYTES_BYTES, RDU_CHSTS_QUAL, RDU_CHSTS_MSTATE, RDU_CHSTS_LOCK, RDU_CHSTS_LANES, RDU_CHSTS_RATE, RDU_CHSTS_PAIRED, RDU_CHSTS_RSN, RDU_CHSTS_FCOUNT, RDU_CHSTS_CRCERR, RDU_CHLAT_LAT, CSC_STATUS_QUAL, CSC_STATUS_MSTATE, CSC_STATUS_MEMBER, CSC_STATUS_ROOT, CSC_STATUS_HOPS, CSC_STATUS_PARENT, CSC_CFG_EN, CSC_CJMASK_MASK, CSC_ROSTER_UNITS, CSC_SKEW_SKEW, CSC_PATHLAT_PATHLAT]
/-- Fields 520 to 559. -/
def part13 : List Field := [CSC_CLSTS_QUAL, CSC_CLSTS_MSTATE, CSC_CLSTS_LOCK, CSC_CLSTS_LANES, CSC_CLSTS_ROLE, CSC_CLSTS_RSN, CSC_CLSTS_FCOUNT, CSC_CLSTS_CRCERR, NVS_STATUS_QUAL, NVS_STATUS_MSTATE, NVS_STATUS_RECALL, NVS_STATUS_BUSYRD, NVS_STATUS_RECUS, NVS_STATUS_SPARES, NVS_WQ_DEPTH, NVS_WQ_CLASS, NVS_WQ_CC, NVS_WQ_RSN, NVS_WEAR_TYPE, NVS_WEAR_RATE, NVS_RETCFG_PERIOD, NVS_RETSTS_KIND, NVS_RETSTS_STALE, NVS_RETSTS_TICK, NVS_SCRUB_PAGE, NVS_SCRUB_REFR, NVS_SCRUB_UNCORR, NVS_RDBASE_BASE, EVR_STATUS_QUAL, EVR_STATUS_MSTATE, EVR_STATUS_FROZEN, EVR_STATUS_WRAPPED, EVR_STATUS_STAGED, EVR_CFG_ANCHOR, EVR_CFG_FRZMAX, EVR_CMD_CMD, EVR_CMDSTS_CC, EVR_CMDSTS_RSN, EVR_CMDSTS_PEND, EVR_HEAD_HEAD]
/-- Fields 560 to 564. -/
def part14 : List Field := [EVR_CURSOR_CURSOR, EVR_LOSTDROP_LOST, EVR_LOSTDROP_DROP, EVR_OPSEC_OPSEC, EVR_PCC_PCC]

/-- Every register field of the device. -/
def table : List Field := part0 ++ part1 ++ part2 ++ part3 ++ part4 ++ part5 ++ part6 ++ part7 ++ part8 ++ part9 ++ part10 ++ part11 ++ part12 ++ part13 ++ part14

end Reg

/-- `SSU_FWIN[c].WINDOW` resets to the default window of its class (Table 19.1); the NVS class, whose window is one
scrub pass, and the classes without one read the value the table states for them or 0. -/
def fwinReset (c : Nat) : Nat :=
  match c with
  | 1 => 3600 | 2 => 3600 | 3 => 600 | 4 => 3600 | 5 => 600 | 6 => 600 | 7 => 60 | 8 => 60
  | 9 => 65535 | 10 => 600 | 11 => 3600 | _ => 0

/-- The reset value of element `i` of a field. -/
def Field.resetAt (f : Field) (i : Nat) : Nat :=
  if f.id = Reg.SSU_FWIN_WINDOW.id then fwinReset i else f.reset

/-- The storage key of element `i` of a field. -/
def Field.key (f : Field) (i : Nat) : Nat := f.id * 8192 + i

/-- The index a BAR0 address selects in a field's array of registers, when the address is one of them. -/
def Field.indexAt (f : Field) (a : Nat) : Option Nat :=
  if a < f.addr then none
  else if f.stride = 0 then (if a = f.addr then some 0 else none)
  else if (a - f.addr) % f.stride = 0 ∧ (a - f.addr) / f.stride < f.count then some ((a - f.addr) / f.stride)
  else none

/-- The fields of the register at a BAR0 address, each with its index. -/
def fieldsAt (a : Nat) : List (Field × Nat) :=
  Reg.table.filterMap fun f => (f.indexAt a).map fun i => (f, i)

end Sys2Proof.Machine
end

