-- ==== Sys2Proof/Machine/Codes.lean ====
section
/-! DEFINITION. Completion codes (Table 19.3), reason codes (Table 19.4 and the security reasons of 20_security.md) and
device event codes (Table 19.5), by name. -/

namespace Sys2Proof.Machine

namespace CC

def done : Nat := 0x00
def doneAfterRetry : Nat := 0x01
def doneDegraded : Nat := 0x02
def failTransientExhausted : Nat := 0x10
def failResourceRetired : Nat := 0x11
def failPeerUnreachable : Nat := 0x12
def failBudget : Nat := 0x13
def failRefused : Nat := 0x14
def failPower : Nat := 0x15
def failCancelled : Nat := 0x16
def failNumeric : Nat := 0x17
def failAuth : Nat := 0x18
def failAbandoned : Nat := 0x19

end CC

/-- Reason codes of Table 19.4 and of 20_security.md. -/
def Rsn.none : Nat := 0

namespace Rsn

def queueFull : Nat := 0x01
def busy : Nat := 0x02
def badMode : Nat := 0x03
def badCommand : Nat := 0x04
def modeBusy : Nat := 0x05
def modeChange : Nat := 0x06
def cancelTooLate : Nat := 0x07
def configChange : Nat := 0x08
def superseded : Nat := 0x09
def hostReset : Nat := 0x0A
def parity : Nat := 0x0B
def tickPassed : Nat := 0x0C
def duplicate : Nat := 0x0D
def noPartner : Nat := 0x0E
def badEncoding : Nat := 0x10
def backBranch : Nat := 0x11
def loopStructure : Nat := 0x12
def callStructure : Nat := 0x13
def noEnd : Nat := 0x14
def storeBudget : Nat := 0x15
def overBudget : Nat := 0x16
def costMismatch : Nat := 0x17
def badTask : Nat := 0x18
def pointOwner : Nat := 0x19
def segmentOverlap : Nat := 0x1A
def loopOwner : Nat := 0x1B
def imageSize : Nat := 0x1C
def tickChange : Nat := 0x1D
def mapBase : Nat := 0x1E
def pointMoved : Nat := 0x1F
def mapType : Nat := 0x20
def mapIncomplete : Nat := 0x21
def mapOverlap : Nat := 0x22
def migrationBudget : Nat := 0x23
def migrationError : Nat := 0x24
def noProgram : Nat := 0x25
def partnerImage : Nat := 0x26
def forceType : Nat := 0x27
def noSequencer : Nat := 0x28
def addrFault : Nat := 0x29
def fetchEcc : Nat := 0x2A
def forceFull : Nat := 0x2B
def noVid : Nat := 0x2C
def cascadeBind : Nat := 0x2D
def deleted : Nat := 0x2E
def typeChanged : Nat := 0x2F
def badLoop : Nat := 0x30
def loopType : Nat := 0x31
def loopCascade : Nat := 0x32
def bankCheck : Nat := 0x33
def badBank : Nat := 0x34
def noLoop : Nat := 0x35
def badFacet : Nat := 0x36
def facetSize : Nat := 0x37
def badSafe : Nat := 0x38
def badBus : Nat := 0x39
def badPort : Nat := 0x3A
def badVertex : Nat := 0x3B
def shadowArmed : Nat := 0x3C
def notPrepared : Nat := 0x3D
def partnerFacet : Nat := 0x3E
def jointCheck : Nat := 0x3F
def badDescriptor : Nat := 0x40
def badStructure : Nat := 0x41
def badData : Nat := 0x42
def fprintMismatch : Nat := 0x43
def noMemory : Nat := 0x44
def overflow : Nat := 0x45
def residualUnmet : Nat := 0x46
def tileUpset : Nat := 0x47
def noJob : Nat := 0x48
def warmRejected : Nat := 0x49
def pivotRegularised : Nat := 0x4A
def inertiaMismatch : Nat := 0x4B
def nonconvex : Nat := 0x4C
def primalInfeasible : Nat := 0x4D
def dualInfeasible : Nat := 0x4E
def iterCap : Nat := 0x4F
def stepFail : Nat := 0x50
def cascadeLost : Nat := 0x51
def partFailed : Nat := 0x52
def cplMismatch : Nat := 0x53
def noCjob : Nat := 0x54
def memberLost : Nat := 0x55
def modChange : Nat := 0x60
def badMeter : Nat := 0x61
def signalFault : Nat := 0x62
def noConverge : Nat := 0x63
def outOfRange : Nat := 0x64
def acceptFail : Nat := 0x65
def shadowPending : Nat := 0x66
def feederOff : Nat := 0x67
def refFault : Nat := 0x68
def busClassic : Nat := 0x70
def noBuffer : Nat := 0x71
def noFrame : Nat := 0x72
def busOff : Nat := 0x73
def notBusoff : Nat := 0x74
def filterFull : Nat := 0x75
def notOwner : Nat := 0x76
def badFrame : Nat := 0x77
def expired : Nat := 0x78
def admitFull : Nat := 0x80
def admitRange : Nat := 0x81
def admitBusy : Nat := 0x82
def admitVersion : Nat := 0x83
def admitFrame : Nat := 0x84
def rejoined : Nat := 0x85
def released : Nat := 0x86
def notAdmitted : Nat := 0x87
def workspace : Nat := 0x88
def memEcc : Nat := 0x89
def hostAbort : Nat := 0x8A
def chordLate : Nat := 0x90
def copyRate : Nat := 0x91
def partnerUnknown : Nat := 0x92
def nvsRange : Nat := 0x93
def nvsBusy : Nat := 0x94
def notFrozen : Nat := 0x95
def frozen : Nat := 0x96
def badDate : Nat := 0x97
def bistFail : Nat := 0x98
def essential : Nat := 0x99
def badKey : Nat := 0x9A
def badContainer : Nat := 0xA0
def wrongKind : Nat := 0xA1
def keyEmpty : Nat := 0xA2
def keyRevoked : Nat := 0xA3
def keyMismatch : Nat := 0xA4
def rollback : Nat := 0xA5
def deviceBind : Nat := 0xA6
def digestMismatch : Nat := 0xA7
def badSignature : Nat := 0xA8
def otpUsed : Nat := 0xA9
def lastKey : Nat := 0xAA
def otpFault : Nat := 0xAB

end Rsn

/-! Device event codes (R402): SOURCE × 0x100 + low byte. -/

namespace Ev

def bistWave : Nat := 0x2
def resourceRetired : Nat := 0x3
def retireFull : Nat := 0x4
def retireCleared : Nat := 0x5
def degradedStart : Nat := 0x6
def hostWd : Nat := 0x7
def powerWarning : Nat := 0x8
def timeStepBlocked : Nat := 0x102
def timeSource : Nat := 0x103
def tickFault : Nat := 0x104
def rtcSet : Nat := 0x105
def rtcTrim : Nat := 0x106
def trimRange : Nat := 0x107
def taskFail : Nat := 0x202
def forceReleased : Nat := 0x203
def forcesRestored : Nat := 0x204
def retainedInit : Nat := 0x205
def pstoreRepair : Nat := 0x206
def seqNoSpare : Nat := 0x207
def banksRestored : Nat := 0x302
def mboxDiverge : Nat := 0x402
def meterOutage : Nat := 0x502
def meterGap : Nat := 0x503
def meterDiverge : Nat := 0x504
def shadowDiscarded : Nat := 0x602
def busProbe : Nat := 0x702
def idclash : Nat := 0x703
def busOff : Nat := 0x704
def busRecovered : Nat := 0x705
def rxOverflow : Nat := 0x706
def admitRefused : Nat := 0x802
def streamMismatch : Nat := 0x803
def vertexUnreachable : Nat := 0x804
def vertexTrunc : Nat := 0x805
def chordLanes : Nat := 0x902
def chordRefused : Nat := 0x903
def chordLate : Nat := 0x904
def outOfStep : Nat := 0x905
def takeover : Nat := 0x906
def resyncAbandoned : Nat := 0x907
def claimExhausted : Nat := 0x908
def chordLink : Nat := 0x909
def partnerLost : Nat := 0x90A
def cascadeRefused : Nat := 0xA02
def memberLost : Nat := 0xA03
def memberJoined : Nat := 0xA04
def nvsConflict : Nat := 0xB02
def nvsLost : Nat := 0xB03
def nvsWear : Nat := 0xB04
def nvsUncorr : Nat := 0xB05
def nvsRemap : Nat := 0xB06
def nvsNoSpare : Nat := 0xB07
def retainedStale : Nat := 0xB08
def timeAnchor : Nat := 0xC02
def freezeTimeout : Nat := 0xC03
def eventsDropped : Nat := 0xC04
def logCleared : Nat := 0xC05
def ddrTrain : Nat := 0xD02

/-- RESET_CUT of a subsystem (R24, R351). -/
def resetCut (subsys : Nat) : Nat := subsys * 0x100 + 1

end Ev

end Sys2Proof.Machine
end

