-- ==== Sys2Proof/Machine/State.lean ====
section
/-! DEFINITION. The state of the device as plain data, its faults and refusals, and the state right after reset.
Register fields live in one sparse table (`flds`), keyed by `Field.key`; a field not listed holds its reset value.
What the units hold besides their registers stands in one structure per subsystem. -/

namespace Sys2Proof.Machine

/-- Faults: none. Every error the spec describes (an upset, an address fault, a refused access, a lost link) is a state
the device goes on from, so no command raises a fault (safe: a run never ends in one). -/
inductive Fault where
  deriving DecidableEq, Repr

/-- Refusals. -/
inductive Refusal where
  /-- Raised by the dispatcher for a row without a meaning; safe, the run stops by name. -/
  | notModelled (mnemonic : String)
  deriving DecidableEq, Repr

/-- What the instances released at a tick read (R65, R76): the image generation, the register fields (Vertex and loop
status words), loop values, mailbox and write statuses as they stood at the edge. -/
structure Snap where
  img : Tbl PSlot
  flds : Tbl Nat
  loops : Tbl LoopRun
  mbx : Tbl MbxSlot
  mbxNew : List Nat
  nvst : Tbl NvStat
  deriving DecidableEq, Repr

/-- The time base (02_tick_and_time_base.md): ns count, last tick edge taken, phases done in this tick, sources
disqualified until STOP (R27), whether an Apex source in use was lost and since when it is measured again (R36), whether
the start wait of R387 is over, the last PTP offset, since when the measured offset has stayed below 1 µs (R35), and the
currentUtcOffset latched at its qualification (R371). -/
structure TbSt where
  now : Nat
  tick : Nat
  ph1 : Bool
  ph2 : Bool
  ph3 : Bool
  blockedPtp : Bool
  blockedApex : Bool
  apexLost : Bool
  apexBack : Option Nat
  waitOver : Bool
  ptpOffset : Int
  ptpGood : Option Nat
  ptpUtc : Option Int
  deriving DecidableEq, Repr

/-- The calendar of the battery domain (17_real_time_clock.md): seconds from 2000-01-01, sub-seconds of 2^−15 s, the
trim and window in force, a SET or set due at the next second boundary with its SRC (R370, R371), whether a change of
the calendar or of OSF awaits its TIME_ANCHOR (R372), whether the retention check word is valid (R366), and when a
time-base measurement was last applied (R375). -/
structure RtcSt where
  secs : Nat
  sub : Nat
  trim : Int
  w : Nat
  set : Option (Nat × Nat)
  changed : Bool
  check : Bool
  trimAt : Option Nat
  deriving DecidableEq, Repr

/-- The supervisor (01, 18, 19, 20): the straps; the mode command that waits and for how many edges, and the causes
that wait; the BIST-request flag; whether recall, the key check and a BIST are done, the wave that runs with the
MSTATEs it replaced, and the next one; in SAVE whether the sequence is complete, the tick of entry, whether R16 is
judged and how; the start of the host watchdog's time; fault windows, the retired resources, how many of
them from the front CLEAR_RETIRE has taken off the list (R394), and corrected words; the service command that waits and
the entries CLEAR_RETIRE cleared; the OTP, a quote and an OTP command that waits for it
(R410); the test access port; the counts of work cut short (R24); the level of `WARN_N`; and until which tick safe
values are emitted (R212). -/
structure SsuSt where
  straps : Straps
  cmd : Option ModeCmd
  cmdEdges : Nat
  causes : List Cause
  bistReq : Bool
  recalled : Bool
  keyed : Bool
  bistDone : Bool
  wave : Option Nat
  under : List Nat
  nextWave : Nat
  saveDone : Bool
  saveTick : Nat
  judged : Bool
  apart : Bool
  wdtFrom : Option Nat
  windows : List FWindow
  retired : List Resource
  unlisted : Nat
  corrOnce : List (Resource × Nat × Nat)
  svc : Option Nat
  cleared : Nat
  otp : Otp
  quote : Option QuoteRun
  otpWait : Option OtpCmd
  tap : TapInstr
  cuts : Tbl Nat
  warnN : Bool
  holdUntil : Option Nat
  deriving DecidableEq, Repr

/-- The Control Sequencer Array (03, 04), with the refusal the latest LOAD or ARM names (R72), the tasks whose last due
instance did not commit and those whose outputs are STALE (R79). -/
structure CsaSt where
  half0 : Option Program
  half1 : Option Program
  dmem : Tbl Byte
  rmem : Tbl Byte
  img : Tbl PSlot
  outNext : Tbl (Word × Qual)
  snap : Snap
  seqs : Vector Seqr 18
  map : Vector (Option Sq) 16
  forces : List Force
  armed : Option Armed
  lastKs : Nat
  loading : Option (List Byte)
  refused : Option Refuse
  failRuns : Tbl FailRun
  failed : List Nat
  stale : List Nat
  nvst : Tbl NvStat
  deriving DecidableEq, Repr

/-- The Loop Engine (05): coefficient banks keyed loop × 24 + word, loop states, the run under way as the number of
loops due in each rank (R118), its samples not yet completed, what each found at the edge, how many were recomputed, committed requests not yet acted on, the pending host
command, and how many loops lost an inactive bank or a pending swap to the last reset (R123). -/
structure LpeSt where
  bankA : Tbl (BitVec 32)
  bankB : Tbl (BitVec 32)
  runs : Tbl LoopRun
  run : Option (List Nat)
  results : List LoopRes
  reqs : List EngReq
  lcmd : Option LcmdPend
  discarded : Nat
  was : List LoopWas
  retries : Nat
  deriving DecidableEq, Repr

/-- The Lattice Solver (06, 07): held jobs in fetch order, ring positions, submission indices reported ahead of
SQDONE, a coordinator, what the handles hold and in which order they were last used, a cancel that awaits a running
job and whether it already ended one, the mailbox with the slots new at this edge, and the work of the last completed
job. -/
structure LsvSt where
  held : List Job
  next : Nat
  sqDone : Nat
  reported : List Nat
  cqTail : Nat
  cqRead : Nat
  sqHead : Nat
  cjob : Option Coord
  handles : Tbl HandleData
  lastUse : Tbl Nat
  useClock : Nat
  cancel : Option Bool
  mbx : Tbl MbxSlot
  mbxNew : List Nat
  flop : BitVec 64
  cyc : BitVec 64
  deriving DecidableEq, Repr

/-- The Metering Engine (08, 09): channels, pulse inputs, the signal paths of the feeders and, as 32, of the reference
set, when the filters were last restarted by a change of DIV or SAMPDLY (R188), coefficient sets by input with the
shadow sets that await a latch, own latch records awaiting the pair comparison and the partner's that came first,
records staged for the host ring, the calibration run, the sets that a WRITE has yet to commit, the feeder whose latch
STAGE 4 awaits, a heartbeat that waits for a BIST wave, and the metering and heartbeat records as recall found them
(R207, R208). -/
structure MteSt where
  chans : Tbl Chan
  pulses : Tbl Pulse
  feeds : Tbl FeedSt
  restartNs : Option Nat
  active : Tbl CoefSet
  shadow : Tbl CoefSet
  shadowPend : List Nat
  waiting : List LatchWait
  partner : List LatchWait
  staging : List LatchRec
  cal : Option CalRun
  calPut : List (Nat × CoefSet)
  calWait : Option Nat
  beatDue : Bool
  found : Option (MeterRec × Beat)
  deriving DecidableEq, Repr

/-- The Facet Controller (09). -/
structure FctSt where
  active : Option Facet
  shadow : Option Facet
  preparing : Option (List Byte)
  armed : Option Armed
  lastKf : Nat
  deriving DecidableEq, Repr

/-- The Vertex offload and PTP (11, 12): the admitted contexts, when each endpoint, or identifier on CAN, was last sent a
REJOIN, the JOIN_ACKs and, in a STANDBY unit, the REJOINs that await the emission phase, and PTP on the ports. -/
structure NpcSt where
  ctxs : Tbl Ctx
  rejoined : List (Endpoint × Nat × Nat)
  acks : List (Endpoint × JoinAckBody)
  rejoins : List (Endpoint × Nat × Nat)
  ptp : PtpSt
  deriving DecidableEq, Repr

/-- The Redundancy Unit (13): the latest FSEQ taken, and the missing ones with whether they were requested (R299); the
own lists by tick, the partner's lists, those of the partner that missed their phase 1 (R303) and whether the last one
did; the agreed sets that wait for their edge, the set before, and the last tick whose set is built; the VERDICT not
yet built; tick digests, ticks with a NONCOMMIT and the commits kept for a copy; the claim held; the edge from which a
YIELD withholds emission with its reason; the earliest edge of a takeover with its cause and tick; the edge of a role
swap and whether its SWAP was written to this unit; the copy received, whether one ended FAIL_AUTH in this stay in
RESYNC (R409), whether copied regions are in force, whether the partner asked for one and the one being sent; the agreed
link states (R307); the partner's latest HELLO, whether it was ever paired, whether it has been silent on every link for
4 µs or absent for ABSENT seconds and since when no link has had lock (R311), and the SAVE flag of its latest frame with
the tick of the last frame that carried it (R16); the FSEQ of the next frame sent, and the links that carry agreement
traffic with the edge from which the first of them does (R297). -/
structure RduSt where
  fseqIn : Option (BitVec 32)
  gaps : List (BitVec 32 × Bool)
  own : List (Nat × List Input)
  partner : List PartnerList
  late : List Nat
  lateRun : Bool
  agreed : List AgreedSet
  prevSet : List Input
  built : Nat
  verdict : Option (Nat × Verdict)
  ownDigest : List (Nat × BitVec 64)
  hisDigest : List (Nat × BitVec 64)
  nonCommit : List Nat
  commits : List CommitRec
  claimHeld : Option (BitVec 32)
  yieldEdge : Option (Nat × Nat)
  takeAt : Option (Nat × Nat × Nat)
  swapEdge : Option (Nat × Bool)
  copy : Option CopyRun
  noCopy : Bool
  applied : Bool
  copyReq : Bool
  sendCopy : Option SendRun
  links : List (Resource × Side)
  hello : Option Hello
  wasPaired : Bool
  silent : Bool
  absent : Bool
  unlockedFrom : Nat
  partnerSave : Bool
  saveHeard : Option Nat
  fseqOut : BitVec 32
  carries : List Nat
  carryFrom : Nat
  deriving DecidableEq, Repr

/-- The Cascade Unit (14): the units known, the unit last accepted at each link, the links whose far end is accepted, the
one-way latency of each (R300), the hops of its far end and the tick in which they were told, the tick in which it last
brought a tick marker, the links of the tree, the link on which each unit's STATE comes and in which tick, the sequence
numbers of R299 in and out and the gaps seen, the imports by member, the latest tick marker, and whether a parent is to
be chosen and ROSTER sent at the next edge. -/
structure CscSt where
  units : List CUnit
  far : Tbl CHello
  accepted : List Nat
  lat : Tbl Nat
  hops : Tbl (Nat × Nat)
  marks : Tbl Nat
  tree : List Nat
  routes : Tbl (Fin 4 × Nat)
  seqIn : Tbl (BitVec 32)
  gaps : List (Nat × BitVec 32 × Bool)
  seqOut : Tbl (BitVec 32)
  imports : List Import
  markSeen : Option Nat
  reparent : Bool
  rosterDue : Bool
  deriving DecidableEq, Repr

/-- The non-volatile store (15): paired records by TYPE (a FORCE or BANK slot 1 record adds 0x10000), image slots 0, 1
PROG and 2, 3 FACET, the write queue, the write in progress and the suspended ones. -/
structure NvsSt where
  recs : Tbl PRec
  images : Tbl (List Byte)
  queue : List WriteReq
  cur : Option WriteReq
  susp : List WriteReq
  writes : Tbl Nat
  remaps : List Nat
  refreshed : List Nat
  uncorrOnce : List Nat
  deriving DecidableEq, Repr

/-- The Event Recorder (16): the log by slot, the staging queue, the numbering of R354, drops of the present freeze. -/
structure EvrSt where
  log : Tbl Slot
  staging : List Rec
  sub : Nat
  frozenAt : Option Nat
  drops : Vector Nat 4
  anchorAt : Option Nat
  anchorDue : Option (List Nat)
  placing : Option Nat
  deriving DecidableEq, Repr

/-- The host interface and external memory (12): DMA queue heads, the bytes of tile SRAM and DDR5 that something has
written (any other is a free value), the MSI-X table by word and its pending bits, and the outcome of the descriptors
and jobs a reset left in each ring (R23, R286; rings 0 to 3 the DMA queues, 4 the submission ring); whether a copy under
way met an uncorrectable error of the DDR5 (R289), whether the DDR5 is in self-refresh (R296), and whether the endpoint
answers configuration requests (R287). -/
structure HmxSt where
  dmaHead : Vector Nat 4
  sram : Tbl Byte
  ddr : Tbl Byte
  msixTab : Tbl (BitVec 32)
  msixPend : List Nat
  left : Vector (Option (Nat × Nat)) 5
  dmaEcc : Vector Bool 4
  selfRefresh : Bool
  cfgReady : Bool
  deriving DecidableEq, Repr

/-- The whole state. -/
structure State where
  flds : Tbl Nat
  tb : TbSt
  rtc : RtcSt
  ssu : SsuSt
  csa : CsaSt
  lpe : LpeSt
  lsv : LsvSt
  mte : MteSt
  fct : FctSt
  fbc : Vector Ctl 24
  npc : NpcSt
  rdu : RduSt
  csc : CscSt
  nvs : NvsSt
  evr : EvrSt
  hmx : HmxSt
  recvs : List Recv
  out : List Out
  free : Nat
  pending : List Instr
  deriving DecidableEq, Repr

/-- A field bus controller after reset: nothing loaded, held or installed. -/
def Ctl.reset : Ctl :=
  ⟨Vector.replicate 3 none, none, [], [], [], none, [], false, [], false, false, none, []⟩

/-- The OTP of a part as shipped, its roots not yet programmed. DESIGN CHOICE (log entry 6). -/
def Otp.shipped : Otp := ⟨1, Vector.replicate 4 ⟨none, true, false⟩, 0, 0, false, false⟩

/-- No PTP message received or sent. -/
def PtpSt.none : PtpSt := ⟨[], Option.none, Option.none, Option.none, 0, Option.none, [], [], []⟩

/-- An empty snapshot. -/
def Snap.none : Snap := ⟨[], [], [], [], [], []⟩

/-- The state right after the release of a power-on reset of a part as shipped: the mode is RECALL and recall runs
(Table 1.4, R386), every register field holds its reset value, every unit is empty, and the store is as shipped
(R338). The register fields the spec gives no reset value are those of log entries 4 and 6. What shows a present
condition shows it from the start (R432): the Metering Engine OFFLINE in RECALL, the host link down and STALE, the Redundancy
unit of a single unit and the cascade OFFLINE. -/
def State.reset : State where
  flds := [(Reg.MTE_STATUS_MSTATE.key 0, 4), (Reg.HMX_STATUS_QUAL.key 0, 1), (Reg.CSC_STATUS_QUAL.key 0, 1),
    (Reg.CSC_STATUS_MSTATE.key 0, 4)]
  tb := ⟨0, 0, false, false, false, false, false, false, none, false, 0, none, none⟩
  rtc := ⟨0, 0, 0, 16, none, false, false, none⟩
  ssu := {
    straps := ⟨0, false, 0⟩, cmd := none, cmdEdges := 0, causes := [], bistReq := false, recalled := false,
    keyed := false, bistDone := false, wave := none, under := [], nextWave := 0, saveDone := false,
    saveTick := 0, judged := false, apart := false,
    wdtFrom := none, windows := [], retired := [], unlisted := 0, corrOnce := [], svc := none, cleared := 0, otp := Otp.shipped,
    quote := none, otpWait := none, tap := .idcode, cuts := [], warnN := true, holdUntil := none }
  csa := {
    half0 := none, half1 := none, dmem := [], rmem := [], img := [], outNext := [],
    snap := Snap.none, seqs := Vector.replicate 18 ⟨none, []⟩, map := Vector.replicate 16 none, forces := [],
    armed := none, lastKs := 0, loading := none, refused := none, failRuns := [], failed := [], stale := [], nvst := [] }
  lpe := ⟨[], [], [], none, [], [], none, 0, [], 0⟩
  lsv := {
    held := [], next := 0, sqDone := 0, reported := [], cqTail := 0, cqRead := 0, sqHead := 0, cjob := none,
    handles := [], lastUse := [], useClock := 0, cancel := none, mbx := [], mbxNew := [], flop := 0, cyc := 0 }
  mte := ⟨[], [], [], none, [], [], [], [], [], [], none, [], none, false, none⟩
  fct := ⟨none, none, none, none, 0⟩
  fbc := Vector.replicate 24 Ctl.reset
  npc := ⟨[], [], [], [], PtpSt.none⟩
  rdu := {
    fseqIn := none, gaps := [], own := [], partner := [], late := [], lateRun := false, agreed := [], prevSet := [],
    built := 0, verdict := none, ownDigest := [], hisDigest := [], nonCommit := [], commits := [], claimHeld := none,
    yieldEdge := none, takeAt := none, swapEdge := none, copy := none, noCopy := false, applied := false, copyReq := false, sendCopy := none,
    links := [], hello := none, wasPaired := false, silent := false, absent := false, unlockedFrom := 0,
    partnerSave := false, saveHeard := none, fseqOut := 0, carries := [], carryFrom := 0 }
  csc := ⟨[], [], [], [], [], [], [], [], [], [], [], [], none, false, false⟩
  nvs := ⟨[], [], [], none, [], [], [], [], []⟩
  evr := ⟨[], [], 0, none, Vector.replicate 4 0, none, none, none⟩
  hmx := ⟨Vector.replicate 4 0, [], [], [], [], Vector.replicate 5 (some (CC.failPower, 0)),
    Vector.replicate 4 false, false, false⟩
  recvs := []
  out := []
  free := 0
  pending := []

end Sys2Proof.Machine
end

