-- ==== Sys2Proof/Machine/Ops.lean ====
section
/-! DEFINITION. The shared operations over the state: sparse tables, register fields, byte memories, modes, output,
free values, status words and the acceptance of event records. -/

namespace Sys2Proof.Machine

/-! ### Sparse tables -/

/-- The entry of a table under a key. -/
def tget {α : Type} : Tbl α → Nat → Option α
  | [], _ => none
  | (k', v) :: t, k => if k' = k then some v else tget t k

/-- Puts an entry under a key, keeping rising keys. -/
def tput {α : Type} : Tbl α → Nat → α → Tbl α
  | [], k, v => [(k, v)]
  | (k', v') :: t, k, v =>
    if k < k' then (k, v) :: (k', v') :: t
    else if k = k' then (k, v) :: t
    else (k', v') :: tput t k v

/-- Removes the entry under a key. -/
def tdel {α : Type} (t : Tbl α) (k : Nat) : Tbl α := t.filter fun e => e.1 ≠ k

/-- Puts an entry, or removes it when the value is the one an absent entry stands for. -/
def tset {α : Type} [DecidableEq α] (dflt : α) (t : Tbl α) (k : Nat) (v : α) : Tbl α :=
  if v = dflt then tdel t k else tput t k v

/-- The keys of a table rise strictly. -/
def Tbl.rising {α : Type} : Tbl α → Bool
  | [] => true
  | [_] => true
  | a :: b :: t => decide (a.1 < b.1) && Tbl.rising (b :: t)

/-- The canonical form of a table with a default: rising keys and no entry equal to the default. -/
def Tbl.canon {α : Type} [DecidableEq α] (dflt : α) (t : Tbl α) : Bool :=
  Tbl.rising t && t.all fun e => decide (e.2 ≠ dflt)

/-! ### Byte memories (data memory, retained area, tile SRAM, DDR5) -/

/-- What a byte that nothing has written reads as. DESIGN CHOICE (log entry 2); unsafe. -/
def Memory.dflt : Byte := 0

/-- One byte of a memory. -/
def Memory.byte (m : Tbl Byte) (a : Nat) : Byte := (tget m a).getD Memory.dflt

/-- Writes one byte. -/
def Memory.setByte (m : Tbl Byte) (a : Nat) (b : Byte) : Tbl Byte := tset Memory.dflt m a b

/-- The canonical form of a memory. -/
def Memory.wf (m : Tbl Byte) : Bool := Tbl.canon Memory.dflt m

/-- Writes a list of bytes from an address upward. -/
def Memory.setBytes (m : Tbl Byte) (a : Nat) : List Byte → Tbl Byte
  | [] => m
  | b :: bs => Memory.setBytes (Memory.setByte m a b) (a + 1) bs

/-- The `n` bytes from an address upward. -/
def Memory.bytes (m : Tbl Byte) (a n : Nat) : List Byte := (List.range n).map fun i => Memory.byte m (a + i)

/-- The number a list of bytes spells, little-endian (R4). -/
def leNat : List Byte → Nat
  | [] => 0
  | b :: bs => b.toNat + 256 * leNat bs

/-- The `n` bytes of a number, little-endian (R4). -/
def leBytes : Nat → Nat → List Byte
  | 0, _ => []
  | n + 1, v => BitVec.ofNat 8 (v % 256) :: leBytes n (v / 256)

/-- A little-endian field of `n` bytes at an offset of a byte list; bytes past its end count as 0. -/
def leAt (bs : List Byte) (off n : Nat) : Nat := leNat ((bs.drop off).take n)

/-- Bits `lo` to `lo + w − 1` of a number. -/
def bitsOf (v lo w : Nat) : Nat := v / 2 ^ lo % 2 ^ w

/-- A number of `w` bits read as two's complement. -/
def signedOf (w v : Nat) : Int := if v % 2 ^ w < 2 ^ (w - 1) then (v % 2 ^ w : Nat) else (v % 2 ^ w : Nat) - (2 ^ w : Nat)

/-- The two's-complement pattern of a number in `w` bits. -/
def patternOf (w : Nat) (v : Int) : Nat := (v % (2 ^ w : Nat)).toNat

/-! ### Register fields -/

/-- The value of element `i` of a field. -/
def rd (s : State) (f : Field) (i : Nat := 0) : Nat := (tget s.flds (f.key i)).getD (f.resetAt i)

/-- The table with element `i` of a field set to a value, cut to the field's width. -/
def wrTbl (t : Tbl Nat) (f : Field) (i v : Nat) : Tbl Nat := tset (f.resetAt i) t (f.key i) (v % 2 ^ f.width)

/-- Sets element `i` of a field. -/
def wr (s : State) (f : Field) (v : Nat) (i : Nat := 0) : State := { s with flds := wrTbl s.flds f i v }

/-- Sets a one-bit field. -/
def wrB (s : State) (f : Field) (b : Bool) (i : Nat := 0) : State := wr s f (if b then 1 else 0) i

/-- Reads a one-bit field. -/
def rdB (s : State) (f : Field) (i : Nat := 0) : Bool := rd s f i = 1

/-- A field read out of a saved table of fields (a snapshot). -/
def rdIn (t : Tbl Nat) (f : Field) (i : Nat := 0) : Nat := (tget t (f.key i)).getD (f.resetAt i)

/-- The elements of a field that do not hold its reset value. -/
def setElems (s : State) (f : Field) : List Nat :=
  s.flds.filterMap fun e => if e.1 / 8192 = f.id then some (e.1 % 8192) else none

/-- Raises a counting field by `n`, saturating at its width. -/
def bump (s : State) (f : Field) (i : Nat := 0) (n : Nat := 1) : State :=
  wr s f (min (rd s f i + n) (2 ^ f.width - 1)) i

/-- The register at a BAR0 address as its fields make it up (R3: reserved bits read 0; R5: WO fields read 0). -/
def readFields (s : State) : List (Field × Nat) → Nat
  | [] => 0
  | (f, i) :: l => (if f.acc = .wo then 0 else rd s f i * 2 ^ f.lsb) + readFields s l

/-- A 64-bit pair of registers LO and HI. -/
def rd64 (s : State) (lo hi : Field) (i : Nat := 0) : Nat := rd s lo i + 2 ^ 32 * rd s hi i

/-- Sets the completion code, the reason and the PEND bit of a command status register. -/
def setStatus (s : State) (cc rsn pend : Field) (code reason : Nat) (i : Nat := 0) : State :=
  wr (wr (wr s cc code i) rsn reason i) pend 0 i

/-! ### Modes -/

/-- The mode code of Table 1.3. -/
def modeCode : Mode → Nat
  | .recall => 0 | .test => 1 | .halt => 2 | .active => 3 | .standby => 4 | .resync => 5 | .safehold => 6 | .save => 7

/-- The mode a code of Table 1.3 names. -/
def modeOf (n : Nat) : Mode :=
  match n with
  | 0 => .recall | 1 => .test | 2 => .halt | 3 => .active | 4 => .standby | 5 => .resync | 6 => .safehold | _ => .save

/-- The current mode (R12). -/
def modeIs (s : State) : Mode := modeOf (rd s Reg.SSU_MODE_MODE)

/-- The mode before the latest transition (Table 1.5). -/
def priorMode (s : State) : Mode := modeOf (rd s Reg.SSU_MODE_PRIOR)

/-- The mode whose outputs the unit emits: in SAVE the mode it was entered from (Table 1.3). -/
def emitMode (s : State) : Mode := if modeIs s = .save then priorMode s else modeIs s

/-- Quality codes of Table 4.4. -/
def qualCode : Qual → Nat
  | .good => 0 | .stale => 1 | .forced => 2 | .substituted => 3 | .bad => 4 | .retired => 5

/-- The quality a code names; the codes Table 4.4 reserves are taken as BAD, and none is ever stored. -/
def qualOf (n : Nat) : Qual :=
  match n with
  | 0 => .good | 1 => .stale | 2 => .forced | 3 => .substituted | 5 => .retired | _ => .bad

/-- Management-state codes of Table 1.2 (R10). -/
def mstateCode : MState → Nat
  | .inService => 0 | .spare => 1 | .suspect => 2 | .retired => 3 | .offline => 4 | .testing => 5

/-- The management state a code names; 6 and 7 are reserved and never stored. -/
def mstateOf (n : Nat) : MState :=
  match n with
  | 0 => .inService | 1 => .spare | 2 => .suspect | 3 => .retired | 4 => .offline | _ => .testing

/-- Severity codes of Table 16.1. -/
def sevCode : Sev → Nat
  | .info => 0 | .notice => 1 | .warning => 2 | .critical => 3

/-! ### Output and free values -/

/-- Appends to what the device has put out. -/
def emit (s : State) (o : Out) : State := { s with out := s.out ++ [o] }

/-- An uncorrectable PCIe error: reported through AER and counted (R287). -/
def pcieError (s : State) : State := emit (bump s Reg.HMX_HERR_PCIE) .aer

/-- A host read or write times out or fails (HOST_ABORT): an uncorrectable PCIe error: DEDUCED (log entry 86). -/
def hostAborted (s : State) : State := pcieError s

/-- Puts out the data of a read. -/
def emitRead (r : Nat × State) : State := emit r.2 (.readData (BitVec.ofNat 64 r.1))

/-- The tick length T in ns (Table 2.4; the register counts 10 µs). -/
def tickNs (s : State) : Nat := rd s Reg.TBC_TICKCFG_TICKLEN * 10000

/-- The side of the pair this unit is strapped to. -/
def ownSide (s : State) : Side := s.ssu.straps.side

/-- A point that an enabled loop of a facet writes. -/
def loopOutput (f : Option Facet) (n : Nat) : Bool :=
  ((f.map (·.loops)).getD []).any fun w => w.en && decide (w.outPt = n)

/-- The header of a frame sent (R299, Table 13.1): the own side, SAVE, the mode, whether the claim is held, the sequence
number, and the tick it refers to. -/
def frameHead (s : State) (late : Bool) (fseq : BitVec 32) (tick : Nat) : ChordHead :=
  ⟨ownSide s, decide (modeIs s = .save), late, emitMode s, s.rdu.claimHeld.isSome, fseq, tick⟩

/-- Puts out a Chord frame with its header (R299), on one link or on every paired one. -/
def sendChord (s : State) (link : Option (Fin 2)) (tick : Nat) (late : Bool) (b : ChordBody) : State :=
  let s := emit s (.chord link (frameHead s late s.rdu.fseqOut tick) b)
  { s with rdu := { s.rdu with fseqOut := s.rdu.fseqOut + 1 } }

/-- The member number this unit is strapped to. -/
def ownMember (s : State) : Fin 8 := s.ssu.straps.cscId

/-! ### Event records (16_event_recorder.md) -/

/-- Counts a dropped record under R362, and under R361 while a freeze is in place. -/
def evrDrop (s : State) (sev : Sev) : State :=
  let s := bump s Reg.EVR_LOSTDROP_DROP (sevCode sev)
  if rdB s Reg.EVR_STATUS_FROZEN then
    { s with evr := { s.evr with drops := s.evr.drops.set! (sevCode sev) (s.evr.drops[sevCode sev]! + 1) } }
  else s

/-- Puts a record into the staging queue of 64 (R356, R360). -/
def evrStage (s : State) (r : Rec) : State :=
  if s.evr.staging.length < 64 then
    let l := s.evr.staging ++ [r]
    wr { s with evr := { s.evr with staging := l } } Reg.EVR_STATUS_STAGED l.length
  else evrDrop s r.sev

/-- Offers a record to the write engine in class 6 (R356); with 512 requests held it is dropped (R343, R362). -/
def evrQueue (s : State) (r : Rec) : State :=
  if s.nvs.queue.length < 512 then
    let q := s.nvs.queue ++ [⟨6, .event r, .none⟩]
    wr { s with nvs := { s.nvs with queue := q } } Reg.NVS_WQ_DEPTH q.length
  else evrDrop s r.sev

/-- Recall is still running, so records wait and writes are refused (R341, R354, R356). -/
def recalling (s : State) : Bool := modeIs s = .recall && rdB s Reg.NVS_STATUS_RECALL

/-- The EVR accepts a record (R354): it takes its time fields, and goes to the staging queue during recall or a freeze
and to the write engine otherwise. A 257th record of one operating second is dropped. -/
def evrAccept (s : State) (code source : Nat) (sev : Sev) (words : List (BitVec 32)) : State :=
  if recalling s then
    evrStage s ⟨code, source, sev, words, 0, 0, 0, true, true⟩
  else if 256 ≤ s.evr.sub then evrDrop s sev
  else
    let frozen := rdB s Reg.EVR_STATUS_FROZEN
    let r : Rec := ⟨code, source, sev, words, BitVec.ofNat 32 (rd s Reg.EVR_OPSEC_OPSEC),
      BitVec.ofNat 24 (rd s Reg.EVR_PCC_PCC), BitVec.ofNat 8 s.evr.sub, frozen, false⟩
    let s := { s with evr := { s.evr with sub := s.evr.sub + 1 } }
    if frozen then evrStage s r else evrQueue s r

/-- A device event (R402): its code, whose high byte is its SOURCE, its severity and its parameters as numbers. -/
def event (s : State) (code : Nat) (sev : Sev) (ps : List Nat) : State :=
  evrAccept s code (code / 256) sev (ps.map (BitVec.ofNat 32))

/-- A 64-bit value as two parameters, low word first (R402). -/
def lowHigh (v : Nat) : List Nat := [v % 2 ^ 32, v / 2 ^ 32 % 2 ^ 32]

/-- Adds to the count of units of work a reset cuts short, by the subsystem that owns their report (R24). -/
def addCut (t : Tbl Nat) (subsys n : Nat) : Tbl Nat := tset 0 t subsys ((tget t subsys).getD 0 + n)

/-- Moves the time base on to an instant a message or edge carries; the count never runs backwards, nor past the tick
edge that has not been commanded (R28). DESIGN CHOICE (log entry 67). -/
def advance (s : State) (t : Nat) : State :=
  { s with tb := { s.tb with now := max s.tb.now (min t ((s.tb.tick + 1) * tickNs s - 1)) } }

/-- Serial number comparison of 32 bits (R7): `a` is newer than `b`. -/
def newer32 (a b : BitVec 32) : Bool := decide (a ≠ b) && decide ((a - b).toNat < 2 ^ 31)

/-- Takes the number of the next free value (log entry 1). -/
def nextFree (s : State) : Nat × State := (s.free, { s with free := s.free + 1 })

end Sys2Proof.Machine
end

