-- ==== Sys2Proof/Machine/Nvs.lean ====
section
/-! DEFINITION. The non-volatile store and the event log (15_nonvolatile_store.md, 16_event_recorder.md): paired
records, the write queue in class order, the placement of event records, and the report of each write to its
requester. -/

namespace Sys2Proof.Machine

/-! ### Paired records (R335–R338) -/

/-- The record type of a payload (R335); force and coefficient records of slot 1 add 0x10000 (R340). -/
def recType : RecData → Nat
  | .slots .. => 0x0001
  | .claim _ => 0x0002
  | .config .. => 0x0003
  | .power .. => 0x0004
  | .retire .. => 0x0010
  | .cal .. => 0x0020
  | .meter _ => 0x0030
  | .beat _ => 0x0031
  | .forces _ => 0x0040
  | .retained .. => 0x0050
  | .prog _ => 0x0100
  | .coef .. => 0x0400

/-- The valid copy with the newest SEQ; copy A when both carry the same (R338). -/
def pairNewest (p : PRec) : Option RecCopy :=
  match p.a, p.b with
  | some a, some b =>
    if a.valid then (if b.valid && seqNewer b.seq a.seq then some b else some a)
    else if b.valid then some b else none
  | some a, none => if a.valid then some a else none
  | none, some b => if b.valid then some b else none
  | none, none => none

/-- Whether a write goes to copy B: the copy that does not hold the newest valid copy, copy A when neither is valid,
copy B when both carry the same SEQ (R337). -/
def pairWritesB (p : PRec) : Bool :=
  match p.a, p.b with
  | some a, some b => a.valid && (!b.valid || !seqNewer b.seq a.seq)
  | some a, none => a.valid
  | _, _ => false

/-- The SEQ of the next write: newest valid + 1, or 1 (R337). -/
def pairNextSeq (p : PRec) : BitVec 32 :=
  match pairNewest p with
  | some c => c.seq + 1
  | none => 1

/-- A pair whose write has begun: MARK of the target copy is 0 (R336). -/
def pairBegin (p : PRec) : PRec :=
  if pairWritesB p then { p with b := p.b.map fun c => { c with valid := false } }
  else { p with a := p.a.map fun c => { c with valid := false } }

/-- A pair whose write has ended with a valid copy (R336, R337). -/
def pairWrite (p : PRec) (d : RecData) : PRec :=
  let c : RecCopy := ⟨pairNextSeq p, d, true, false⟩
  if pairWritesB p then { p with b := some c } else { p with a := some c }

/-- A record as recall finds it. -/
def recGet (s : State) (typ : Nat) : PRec := (tget s.nvs.recs typ).getD ⟨none, none, false⟩

/-- The content of a record, when some copy is valid (R338). -/
def recRead (s : State) (typ : Nat) : Option RecData := (pairNewest (recGet s typ)).map (·.data)

/-- Puts a pair back. -/
def recPut (s : State) (typ : Nat) (p : PRec) : State :=
  { s with nvs := { s.nvs with recs := tput s.nvs.recs typ p } }

/-- A record written whole: where its copies were in conflict, copy B is first rewritten from copy A (R338). -/
def recWrite (s : State) (typ : Nat) (d : RecData) : State :=
  let p := recGet s typ
  let p := if p.conflict then { p with b := p.a, conflict := false } else p
  recPut s typ (pairWrite p d)

/-! ### The report of a write (R22, R68, R343) -/

/-- The last failed write, of any class (Table 15.8). -/
def nvsFail (s : State) (cls code reason : Nat) : State :=
  if code < 0x10 then s
  else wr (wr (wr s Reg.NVS_WQ_CLASS cls) Reg.NVS_WQ_CC code) Reg.NVS_WQ_RSN reason

/-- A slot record is written (R99, R217): its own SLOTPEND reads 0, and the other one too when no later slot record
waits. A write that was superseded is made by the request that replaced it. -/
def slotWritten (s : State) (code : Nat) (prog : Bool) : State :=
  if 0x10 ≤ code then s
  else
    let waits := s.nvs.queue.any fun q => match q.what with | .record 1 _ => true | _ => false
    let s := if prog || !waits then wr s Reg.CSA_OLC_SLOTPEND 0 else s
    if !prog || !waits then wr s Reg.FCT_STATUS_SLOTPEND 0 else s

/-- The coefficient sets that the write of an accepted run or of a WRITE commits (R223, R226). -/
def calSets (s : State) : List (Nat × CoefSet) :=
  match s.mte.cal with
  | some r => r.cand.zipIdx.map fun (c, j) => (6 * r.feeder.val + j, c)
  | none => s.mte.calPut

/-- The sets with others committed to them: a feeder's await its latch, those of the reference set take effect at once
(R224, R226). -/
def calPlace (m : MteSt) (put : List (Nat × CoefSet)) : MteSt :=
  { m with
    shadow := put.foldl (fun t e => tput t e.1 e.2) m.shadow
    active := (put.filter (192 ≤ ·.1)).foldl (fun t e => tput t e.1 e.2) m.active
    shadowPend := m.shadowPend.filter (fun i => !put.any (·.1 = i)) ++ (put.map (·.1)).filter (· < 192) }

/-- The calibration partition is written: the sets of an accepted run or a WRITE are committed, and it ends with the
write. -/
def calWritten (s : State) (code reason : Nat) : State :=
  if rdB s Reg.MTE_CALSTS_PEND then
    let fin := fun (s : State) (code rsn stage : Nat) =>
      wr (setStatus s Reg.MTE_CALSTS_CC Reg.MTE_CALSTS_RSN Reg.MTE_CALSTS_PEND code rsn) Reg.MTE_CALSTS_STAGE stage
    let m := { (if 0x10 ≤ code then s.mte else calPlace s.mte (calSets s)) with cal := none, calPut := [] }
    match s.mte.cal with
    | none => fin { s with mte := m } code reason (rd s Reg.MTE_CALSTS_STAGE)
    | some r =>
      if 0x10 ≤ code then fin { s with mte := m } code reason 0
      else fin { s with mte := { m with calWait := some r.feeder.val } } code (if r.lateAbort then Rsn.cancelTooLate else reason) 4
  else s

/-- The record a request writes, when it is one. -/
def reqType : WriteWhat → Option Nat
  | .record t _ => some t
  | .image .. => none
  | .event _ => none
  | .refresh _ => none

/-- A posted write of a program record is still held: queued, in progress or suspended (bit 16 PENDING of R68). -/
def writeHeld (s : State) (n : Nat) : Bool :=
  (s.nvs.cur.toList ++ s.nvs.queue ++ s.nvs.susp).any fun q => q.who = .nvwr n

/-- The digest of the shadow facet reads 0: no facet stands there (Table 9.9). -/
def noShadow (s : State) : State := wr (wr s Reg.FCT_SHDIG_LO_SHDIG 0) Reg.FCT_SHDIG_HI_SHDIG 0

/-- The end of a write as its requester sees it. Of the writes of a program record those that end DONE are counted, 'the
count of completed writes' of R68: DESIGN CHOICE (log entry 104). -/
def nvsReport (s : State) (cls : Nat) (who : Requester) (code reason : Nat) : State :=
  let s := nvsFail s cls code reason
  match who with
  | .nvwr n =>
    let st := (tget s.csa.nvst n).getD ⟨0, 0, false, 0⟩
    let st : NvStat := ⟨code, reason, writeHeld s n, if code < 0x10 then st.count + 1 else st.count⟩
    { s with csa := { s.csa with nvst := tput s.csa.nvst n st } }
  | .meter _ => wr (wr s Reg.MTE_SAVESTS_CC code) Reg.MTE_SAVESTS_RSN reason
  | .load =>
    let s := { s with csa := { s.csa with loading := none } }
    setStatus (wr s Reg.CSA_OLC_STATE (if code < 0x10 then 2 else 0)) Reg.CSA_OLC_CC Reg.CSA_OLC_RSN Reg.CSA_OLC_PEND
      code reason
  | .prepare =>
    let s := { s with fct := { s.fct with preparing := none, shadow := if code < 0x10 then s.fct.shadow else none } }
    let s := if code < 0x10 then s else noShadow s
    setStatus (wr s Reg.FCT_STATUS_SHSTATE (if code < 0x10 then 2 else 0)) Reg.FCT_SWSTS_CC Reg.FCT_SWSTS_RSN
      Reg.FCT_SWSTS_PEND code reason
  | .slotProg => slotWritten s code true
  | .slotFacet => slotWritten s code false
  | .clearRetire =>
    if s.ssu.svc = some 1 then
      setStatus { s with ssu := { s.ssu with svc := none } } Reg.SSU_SVCSTS_CC Reg.SSU_SVCSTS_RSN Reg.SSU_SVCSTS_PEND
        code reason
    else s
  | .claim =>
    if s.ssu.svc = some 2 then
      setStatus { s with ssu := { s.ssu with svc := none } } Reg.SSU_SVCSTS_CC Reg.SSU_SVCSTS_RSN Reg.SSU_SVCSTS_PEND
        code reason
    else s
  | .cal => calWritten s code reason
  | _ => s

/-! ### Requests (R342, R343) -/

/-- Two requests write the same record. -/
def sameRecord (a b : WriteWhat) : Bool :=
  match reqType a, reqType b with
  | some x, some y => x = y
  | _, _ => false

/-- Claim writes and the slot-record writes of a switch or swap use reserved entries (R343). -/
def reservedReq : Requester → Bool
  | .claim => true
  | .slotProg => true
  | .slotFacet => true
  | _ => false

/-- The depth register follows the queue. -/
def setQueue (s : State) (q : List WriteReq) : State :=
  wr { s with nvs := { s.nvs with queue := q } } Reg.NVS_WQ_DEPTH q.length

/-! ### The range a write addresses (R339, Table 15.1) -/

/-- A byte range of a partition: the partition's base and size, the range's offset in it and its length. -/
structure NvRange where
  base : Nat
  size : Nat
  off : Nat
  len : Nat
  deriving DecidableEq, Repr

/-- The range does not run past the end of its partition (R339). -/
def NvRange.fits (r : NvRange) : Bool := decide (r.off + r.len ≤ r.size)

/-- The payload bytes of a record. Those whose payload the spec does not lay out are counted by what the model holds of
them: DESIGN CHOICE (log entry 64). -/
def payloadLen : RecData → Nat
  | .slots .. => 184
  | .claim _ => 4
  | .config _ _ v => 8 + 4 * v.length
  | .power .. => 4
  | .retire l m => 4 + 2 * l.length + 4 * m.length
  | .cal a b p g => 8 + 10 * (a.length + b.length) + p.length + g.length
  | .meter m => 16 + 48 * m.accs.length + 4 * m.seqs.length + m.calgens.length
  | .beat b => 8 + 4 * (b.seqs.length + b.pmaxs.length)
  | .forces l => 4 + 24 * l.length
  | .retained .. => 56 + 65536
  | .prog d => d.length
  | .coef _ w => 8 + 4 * w.length

/-- The partition of a record's TYPE and the place of its copy A and copy B: of the 4 KiB blocks of CTRL and of copy B
at the middle of its block only the order is the spec's (R335, Table 15.1). DESIGN CHOICE (log entry 64). -/
def recPlace (typ : Nat) (b : Bool) : Nat × Nat × Nat :=
  let slot := 0x10000 ≤ typ
  let t := typ % 0x10000
  let at2 := fun (base size off half : Nat) => (base, size, off + if b then half else 0)
  if t < 0x10 then at2 0 0x4000 (0x1000 * (t - 1)) 0x800
  else if t = 0x10 then at2 0x4000 0x4000 0 0x2000
  else if t = 0x20 then at2 0x8000 0x4000 0 0x2000
  else if t = 0x30 then at2 0xC000 0x4000 0 0x2000
  else if t = 0x31 then at2 0x10000 0x8000 0 0x4000
  else if t = 0x40 then at2 (if slot then 0x20000 else 0x18000) 0x8000 0 0x4000
  else if t = 0x50 then at2 0x48000 0x22000 0 0x11000
  else if t < 0x200 then at2 0x28000 0x20000 (512 * (t - 0x100)) 256
  else at2 (if slot then 0xC0000 else 0x80000) 0x40000 (256 * (t - 0x400)) 128

/-- The range a write addresses: the copy its record's next write goes to (R337), 16 bytes longer than the payload
(Table 15.2); the heartbeat's position in its copy (R337); an image at the start of its slot. -/
def writeRange (s : State) (w : WriteWhat) : NvRange :=
  match w with
  | .record t d =>
    let p := recGet s t
    let (base, size, off) := recPlace t (pairWritesB p)
    let turn := if t = 0x31 then 1024 * ((pairNextSeq p).toNat / 2 % 16) else 0
    ⟨base, size, off + turn, payloadLen d + 16⟩
  | .image false slot raw => ⟨if slot then 0x240000 else 0x180000, 0xC0000, 0, raw.length⟩
  | .image true slot raw => ⟨if slot then 0x140000 else 0x100000, 0x40000, 0, raw.length⟩
  | .event r => ⟨0x300000, 0x100000, 0, 32 * (if r.words.length ≤ 4 then 1 else (r.words.length + 3) / 4)⟩
  | .refresh page => ⟨0, 0x400000, 256 * page, 256⟩

/-- Offers a write request (R339, R343): refused NVS_BUSY during recall, NVS_RANGE when its range runs past its
partition, and QUEUE_FULL with 512 held; a queued, unstarted request to the same record is replaced and ends
FAIL_CANCELLED SUPERSEDED. -/
def nvsRequest (s : State) (r : WriteReq) : State :=
  if recalling s then nvsReport s r.cls r.who CC.failRefused Rsn.nvsBusy
  else if !(writeRange s r.what).fits then nvsReport s r.cls r.who CC.failRefused Rsn.nvsRange
  else
    match s.nvs.queue.find? fun q => sameRecord q.what r.what with
    | some old =>
      let s := setQueue s ((s.nvs.queue.filter fun q => !sameRecord q.what r.what) ++ [r])
      nvsReport s old.cls old.who CC.failCancelled Rsn.superseded
    | none =>
      if 512 ≤ s.nvs.queue.length && !reservedReq r.who then nvsReport s r.cls r.who CC.failRefused Rsn.queueFull
      else setQueue s (s.nvs.queue ++ [r])

/-- A request to write a record in a class. -/
def nvsSave (s : State) (cls : Nat) (d : RecData) (who : Requester) (n : Nat := 0) : State :=
  nvsRequest s ⟨cls, .record (recType d + n) d, who⟩

/-! ### The event log (R350–R358) -/

/-- Slots of the log. -/
def logSlots : Nat := 32768

/-- Slots a record takes: 16 payload bytes each (R352). -/
def recSlots (r : Rec) : Nat := if r.words.length ≤ 4 then 1 else (r.words.length + 3) / 4

/-- The complete record a slot belongs to, with the slot it starts at (R353). -/
def ownerOf (log : Tbl Slot) (x : Nat) : Option (Nat × Slot) :=
  match tget log x with
  | none => none
  | some sl =>
    let start := (x + logSlots - sl.idx) % logSlots
    if (List.range sl.len).all fun j => tget log ((start + j) % logSlots) = some ⟨sl.record, j, sl.len⟩
    then some (start, sl) else none

/-- A slot that a record of a severity may take (R357). -/
def eligible (log : Tbl Slot) (sev : Sev) (x : Nat) : Bool :=
  match ownerOf log x with
  | none => true
  | some (_, sl) => sevCode sl.record.sev ≤ sevCode sev

/-- Every slot of a run is eligible. -/
def runEligible (log : Tbl Slot) (sev : Sev) (x n : Nat) : Bool :=
  (List.range n).all fun j => eligible log sev ((x + j) % logSlots)

/-- The first run of `n` eligible slots, searched forward over `fuel` starting slots (R357). -/
def findRun (log : Tbl Slot) (sev : Sev) (n : Nat) : Nat → Nat → Option Nat
  | 0, _ => none
  | fuel + 1, x => if runEligible log sev (x % logSlots) n then some (x % logSlots) else findRun log sev n fuel (x + 1)

/-- A slot between the cursor and the head (R358). -/
def unread (cursor head x : Nat) : Bool :=
  (x + logSlots - cursor) % logSlots < (head + logSlots - cursor) % logSlots

/-- The complete records that a run of slots overwrites, each once, with the slots of the run they hold. -/
def overwritten (log : Tbl Slot) (x n : Nat) : List (Nat × Slot) :=
  ((List.range n).filterMap fun j => ownerOf log ((x + j) % logSlots)).eraseDups

/-- Counts a lost record of a severity (R358). -/
def countLost (s : State) (sev : Sev) : State := bump s Reg.EVR_LOSTDROP_LOST (sevCode sev)

/-- Places a record at the start of its write (R357, R358): the marks of the target slots are cleared, records it
overwrites unread are counted, the head moves past the run, and a covered cursor moves to its first slot. With no run
the record is dropped (R362). -/
def evrPlace (s : State) (r : Rec) : State :=
  let n := recSlots r
  let head := rd s Reg.EVR_HEAD_HEAD
  let cursor := rd s Reg.EVR_CURSOR_CURSOR
  match findRun s.evr.log r.sev n (logSlots + 1 - n) head with
  | none => { evrDrop s r.sev with nvs := { (evrDrop s r.sev).nvs with cur := none } }
  | some x =>
    let ov := overwritten s.evr.log x n
    let inRun := fun y => (y + logSlots - x) % logSlots < n
    let lost := ov.filter fun o => (List.range o.2.len).any fun j =>
      let y := (o.1 + j) % logSlots
      inRun y && unread cursor head y
    let s := lost.foldl (fun s o => countLost s o.2.record.sev) s
    let s := if ov.isEmpty then s else wr s Reg.EVR_STATUS_WRAPPED 1
    let log := s.evr.log.filter fun e => !inRun e.1
    let s := { s with evr := { s.evr with log := log, placing := some x } }
    let s := wr s Reg.EVR_HEAD_HEAD ((x + n) % logSlots)
    if inRun cursor then wr s Reg.EVR_CURSOR_CURSOR x else s

/-- Writes the slots of a placed record (R353). -/
def evrFinish (s : State) (r : Rec) : State :=
  match s.evr.placing with
  | none => s
  | some x =>
    let n := recSlots r
    let log := (List.range n).foldl (fun l j => tput l ((x + j) % logSlots) ⟨r, j, n⟩) s.evr.log
    { s with evr := { s.evr with log := log, placing := none } }

/-- Moves the staged records to the write engine in order (R361). -/
def evrFlush (s : State) : State :=
  let l := s.evr.staging
  let s := wr { s with evr := { s.evr with staging := [] } } Reg.EVR_STATUS_STAGED 0
  l.foldl evrQueue s

/-- Ends a freeze: the staged records are written, then EVENTS_DROPPED when records were dropped (R361). -/
def endFreeze (s : State) : State :=
  let d := s.evr.drops
  let s := wr s Reg.EVR_STATUS_FROZEN 0
  let s := evrFlush { s with evr := { s.evr with frozenAt := none, drops := Vector.replicate 4 0 } }
  if d.toList.all (· = 0) then s else event s Ev.eventsDropped .warning d.toList

/-! ### The write engine (R342, R336) -/

/-- The request the engine takes next: lowest class first, a suspended one before a queued one of its class. -/
def nextReq (susp queue : List WriteReq) : Option (WriteReq × Bool) :=
  let pick := fun (c : Nat) =>
    match susp.find? (·.cls = c) with
    | some r => some (r, true)
    | none => (queue.find? (·.cls = c)).map fun r => (r, false)
  [1, 2, 3, 4, 5, 6, 7].findSome? pick

/-- The key of the retained area's digest: the first 40 bytes of the running program's digest (R344). -/
def runningDigest (s : State) : List Byte :=
  match (if rd s Reg.CSA_OLC_ACTHALF = 0 then s.csa.half0 else s.csa.half1) with
  | some p => p.digest.take 40
  | none => []

/-- The metering record as it stands (R205). -/
def meterRec (s : State) (kind : Nat) : MeterRec where
  kind := kind
  opsec := BitVec.ofNat 32 (rd s Reg.EVR_OPSEC_OPSEC)
  pcc := BitVec.ofNat 24 (rd s Reg.EVR_PCC_PCC)
  accs := s.mte.chans.map fun e => (e.1, e.2.acc)
  seqs := s.mte.chans.map fun e => (e.1, e.2.seq)
  calgens := (List.range 32).filterMap fun f =>
    let g := rd s Reg.MTE_FSTS_CALGEN f
    if g = 0 then none else some (f, g)
  waiting := s.mte.staging.length + s.mte.waiting.length

/-- The payload of the calibration partition, with sets that a write commits. -/
def calRecord (s : State) (put : List (Nat × CoefSet)) : RecData :=
  let m := calPlace s.mte put
  .cal m.active m.shadow m.shadowPend (meterRec s 0).calgens

/-- A save of the retained area captures it as it stands at its start (R344), and so does one of the metering record
(R206); the calibration partition is written with the sets as they stand, and with those this write commits (R224). -/
def captureAtStart (s : State) (r : WriteReq) : WriteWhat :=
  match r.what with
  | .record t (.retained k _ _ _) => .record t (.retained k s.tb.tick (runningDigest s) s.csa.rmem)
  | .record t (.meter m) => .record t (.meter (meterRec s m.kind))
  | .record t (.cal ..) => .record t (calRecord s (if r.who = .cal then calSets s else []))
  | w => w

/-- The lower-class write of the same record ends when a higher-class one starts (R342, Table 15.5). -/
def endLower (s : State) (r old : WriteReq) : State :=
  let save := match r.who with | .retained 1 => true | .meter 1 => true | _ => false
  let rst := match r.who with | .retained 2 => true | .meter 2 => true | _ => false
  if save then nvsReport s old.cls old.who CC.failPower 0
  else if rst then { s with ssu := { s.ssu with cuts := addCut s.ssu.cuts 0xB 1 } }
  else nvsReport s old.cls old.who CC.failCancelled Rsn.superseded

/-- Begins a write. A write in progress of a lower class is suspended (R342). -/
def beginWrite (s : State) (r : WriteReq) (resumed : Bool) : State :=
  let susp := if resumed then s.nvs.susp.erase r else s.nvs.susp
  let queue := if resumed then s.nvs.queue else s.nvs.queue.erase r
  let susp := match s.nvs.cur with | some c => susp ++ [c] | none => susp
  let r := if resumed then r else { r with what := captureAtStart s r }
  let lower := susp.filter fun o => sameRecord o.what r.what
  let s := setQueue { s with nvs := { s.nvs with cur := some r, susp := susp.filter fun o => !sameRecord o.what r.what } } queue
  let s := lower.foldl (fun s o => endLower s r o) s
  if resumed then s
  else match r.what with
    | .record t _ => recPut s t (pairBegin (recGet s t))
    | .event rc => evrPlace s rc
    | _ => s

/-- Whether the engine starts a request now: none is in progress, or one of a lower class is. -/
def startsNow (s : State) (r : WriteReq) : Bool :=
  match s.nvs.cur with
  | none => true
  | some c => r.cls < c.cls

/-- Starts the next write in class order, when one may start (R342). -/
def nvsStart (s : State) : State :=
  match nextReq s.nvs.susp s.nvs.queue with
  | none => s
  | some (r, resumed) => if startsNow s r then beginWrite s r resumed else s

/-- Applies what a completed write wrote (R336), with the state its requester's unit keeps of it; the pages of a record
count as refreshed in this pass of the scrub (R347). -/
def applyWrite (s : State) (w : WriteWhat) : State :=
  match w with
  | .record t d =>
    let r := writeRange s w
    let a := (r.base + r.off) / 256
    let new := ((List.range ((r.base + r.off + r.len - 1) / 256 + 1 - a)).map (a + ·)).filter fun p => !s.nvs.refreshed.contains p
    let s := recWrite s t d
    let s := { s with nvs := { s.nvs with
      refreshed := s.nvs.refreshed ++ new, writes := tput s.nvs.writes t ((tget s.nvs.writes t).getD 0 + 1) } }
    match d with
    | .claim c => wr s Reg.RDU_CLAIM_OWN c.toNat
    | _ => s
  | .image facet slot raw =>
    { s with nvs := { s.nvs with images := tput s.nvs.images ((if facet then 2 else 0) + (if slot then 1 else 0)) raw } }
  | .event r => evrFinish s r
  | .refresh _ => s

/-- Ends the write in progress, valid, and reports it (R336, R343). -/
def nvsFinish (s : State) : State :=
  match s.nvs.cur with
  | none => s
  | some r =>
    let s := applyWrite { s with nvs := { s.nvs with cur := none } } r.what
    nvsReport s r.cls r.who CC.done 0

/-- Completes every held write of class `cls` or lower number, in order, within `fuel` writes. -/
def nvsDrain (cls : Nat) : Nat → State → State
  | 0, s => s
  | fuel + 1, s =>
    match nextReq s.nvs.susp s.nvs.queue with
    | none => s
    | some (r, _) => if r.cls ≤ cls then nvsDrain cls fuel (nvsFinish (nvsStart s)) else s

/-- A claim write (R308): requested in class 1 and complete within 5 µs of the decision that fixes the claim, before
anything is emitted under it; the model completes it within the command that decides (log entry 12). -/
def storeClaim (s : State) (c : BitVec 32) : State :=
  nvsDrain 1 1 (nvsSave s 1 (.claim c) .claim)

/-- The content of a slot record; one never written names the slots 0, and none holds an image. -/
def slotsOf (d : Option RecData) : SlotRec :=
  match d with
  | some (.slots r) => r
  | _ => ⟨false, false, false, false, Vector.replicate 4 (0, [])⟩

/-- The slot of the live program or facet image. -/
def liveSlot (r : SlotRec) (facet : Bool) : Fin 4 := if facet then (if r.facet then 3 else 2) else if r.prog then 1 else 0

/-- The slot record with an image noted in a slot, 0 PROG0 to 3 FACET1: its length and the first 40 bytes of its digest. -/
def noteSlot (r : SlotRec) (i : Fin 4) (raw digest : List Byte) : SlotRec :=
  { r with images := r.images.set i (raw.length, digest.take 40) }

/-- The slot record (R340). -/
def slotRecord (s : State) : SlotRec := slotsOf (recRead s 1)

/-- The slot record as it will stand once the newest write of it, queued, in progress or suspended, completes. -/
def nextSlots (s : State) : SlotRec :=
  let held := (s.nvs.queue ++ s.nvs.cur.toList ++ s.nvs.susp).findSome? fun q => match q.what with
    | .record 1 d => some d
    | _ => none
  slotsOf (held.orElse fun _ => recRead s 1)

end Sys2Proof.Machine
end

