-- ==== Sys2Proof/Machine/Faults.lean ====
section
/-! DEFINITION. Upsets, fault windows and retirement (R390–R394, R11), shared by every unit that can be retired. -/

namespace Sys2Proof.Machine

/-- The index of a fault class (Table 19.1). -/
def classIndex : FClass → Nat
  | .timebase => 0 | .sequencer => 1 | .loop => 2 | .solver => 3 | .meter => 4 | .fieldbus => 5 | .network => 6
  | .chord => 7 | .cascade => 8 | .nvs => 9 | .host => 10 | .essential => 11

/-- The status word of a resource: QUAL, MSTATE, FCOUNT where it has one, and the index. DDR5 channels and pages have
no status word of their own. -/
def statusOf (r : Resource) : Option (Field × Field × Option Field × Nat) :=
  match r.cls with
  | .sequencer => some (Reg.CSA_SQSTS_QUAL, Reg.CSA_SQSTS_MSTATE, some Reg.CSA_SQSTS_FCOUNT, r.idx)
  | .loop => some (Reg.LPE_LANESTS_QUAL, Reg.LPE_LANESTS_MSTATE, some Reg.LPE_LANESTS_FCOUNT, r.idx)
  | .solver =>
    if r.idx < 16 then some (Reg.LSV_TILESTS_QUAL, Reg.LSV_TILESTS_MSTATE, some Reg.LSV_TILESTS_FCOUNT, r.idx) else none
  | .meter => some (Reg.MTE_BANKSTS_QUAL, Reg.MTE_BANKSTS_MSTATE, some Reg.MTE_BANKSTS_FCOUNT, r.idx)
  | .fieldbus => some (Reg.FBCn_STATUS_QUAL, Reg.FBCn_STATUS_MSTATE, some Reg.FBCn_STATUS_FCOUNT, r.idx)
  | .network => some (Reg.NPCp_STATUS_QUAL, Reg.NPCp_STATUS_MSTATE, some Reg.NPCp_STATUS_FCOUNT, r.idx)
  | .chord => some (Reg.RDU_CHSTS_QUAL, Reg.RDU_CHSTS_MSTATE, some Reg.RDU_CHSTS_FCOUNT, r.idx)
  | .cascade => some (Reg.CSC_CLSTS_QUAL, Reg.CSC_CLSTS_MSTATE, some Reg.CSC_CLSTS_FCOUNT, r.idx)
  | .host => some (Reg.HMX_STATUS_QUAL, Reg.HMX_STATUS_MSTATE, none, 0)
  | .timebase => some (Reg.TBC_STATUS_QUAL, Reg.TBC_STATUS_MSTATE, none, 0)
  | .essential =>
    match r.idx with
    | 0 => some (Reg.SSU_STATUS_QUAL, Reg.SSU_STATUS_MSTATE, none, 0)
    | 1 => some (Reg.FCT_STATUS_QUAL, Reg.FCT_STATUS_MSTATE, none, 0)
    | 2 => some (Reg.EVR_STATUS_QUAL, Reg.EVR_STATUS_MSTATE, none, 0)
    | 3 => some (Reg.NVS_STATUS_QUAL, Reg.NVS_STATUS_MSTATE, none, 0)
    | _ => some (Reg.CSA_STATUS_QUAL, Reg.CSA_STATUS_MSTATE, none, 0)
  | .nvs => none

/-- The management state of a resource; one without a status word is known by the retirement list and its window. -/
def resState (s : State) (r : Resource) : MState :=
  match statusOf r with
  | some (_, m, _, i) => mstateOf (rd s m i)
  | none =>
    if s.ssu.retired.contains r then .retired
    else if s.ssu.windows.any (·.res = r) then .suspect else .inService

/-- Sets the management state of a resource that has a status word. -/
def setResState (s : State) (r : Resource) (m : MState) : State :=
  match statusOf r with
  | some (_, f, _, i) => wr s f (mstateCode m) i
  | none => s

/-- Sets FCOUNT of a resource that has one. -/
def setFcount (s : State) (r : Resource) (n : Nat) : State :=
  match statusOf r with
  | some (_, _, some f, i) => wr s f n i
  | _ => s

/-- MSTATE RETIRED and QUAL RETIRED (R393 step 1). -/
def markRetired (s : State) (r : Resource) : State :=
  match statusOf r with
  | some (q, f, _, i) => wr (wr s f (mstateCode .retired) i) q (qualCode .retired) i
  | none => s

/-- The retirement list: the retired resources but for those that CLEAR_RETIRE took off it, which return only through the
next reset (R394). -/
def retireList (s : State) : List Resource := s.ssu.retired.drop s.ssu.unlisted

/-- The payload of the RETIRE record: the retirement list and the page remaps (R335). -/
def retireData (s : State) : RecData := .retire (retireList s) s.nvs.remaps

/-- Closes the window of a resource without a change of its state. -/
def dropWindow (s : State) (r : Resource) : State :=
  { s with ssu := { s.ssu with windows := s.ssu.windows.filter (·.res ≠ r),
                               corrOnce := s.ssu.corrOnce.filter (·.1 ≠ r) } }

/-- The fault class maps to hold: by the FAULTMAP byte of the active facet, always for TIMEBASE and ESSENTIAL
(R390). -/
def holds (s : State) (c : FClass) : Bool :=
  match c with
  | .timebase => true
  | .essential => true
  | c => match s.fct.active with
    | some f => f.faultMap.getD (classIndex c) 0 = 1
    | none => false

/-- Adds a cause that waits for the next tick edge (R17), once. -/
def addCause (s : State) (c : Cause) : State :=
  if s.ssu.causes.contains c then s else { s with ssu := { s.ssu with causes := s.ssu.causes ++ [c] } }

/-- A YIELD for an edge stands already, or for an earlier one. -/
def yieldStands (s : State) (edge : Nat) : Bool :=
  match s.rdu.yieldEdge with | some (e, _) => decide (e ≤ edge) | none => false

/-- YIELD is sent for an edge and a row of Table 13.5; one for an earlier edge takes the place of one that stands
(R315). -/
def putYield (s : State) (edge row : Nat) : State :=
  if yieldStands s edge then s
  else sendChord { s with rdu := { s.rdu with yieldEdge := some (edge, row) } } none s.tb.tick false (.yield edge row)

/-- An ACTIVE unit in step with a STANDBY partner yields at an edge (R315). -/
def sendYield (s : State) (edge row : Nat) : State :=
  if modeIs s = .active ∧ rd s Reg.RDU_STATUS_PAIRST = 2 then putYield s edge row else s

/-- A fault with no spare comes to stand (R14, R17 rank 3): the mode judges it at every tick edge, and a pair yields at
the next edge when the class maps to hold (R315). -/
def holdCause (s : State) (c : FClass) : State :=
  if holds s c then sendYield s (s.tb.tick + 1) 4 else s

/-- Retires a resource (R393): its status word, then what its owner does for want of it (`work`: a spare, or the class's
FAULTMAP byte), the request to write the list in class 3, and RESOURCE_RETIRED. A full list retires nothing further: the
resource stays SUSPECT and RETIRE_FULL is recorded. The Boolean says whether it was retired. -/
def retire (s : State) (r : Resource) (bist : Bool) (work : State → State) : State × Bool :=
  if s.ssu.retired.contains r then (s, false)
  else if 128 ≤ (retireList s).length then
    (event (setResState s r .suspect) Ev.retireFull .critical [], false)
  else
    let tick := match s.ssu.windows.find? (·.res = r) with | some w => w.tick | none => 0
    let s := dropWindow (markRetired s r) r
    let s := work { s with ssu := { s.ssu with retired := s.ssu.retired ++ [r] } }
    let s := if (retireList s).length = 128 then wr s Reg.SSU_SVCSTS_RETFULL 1 else s
    let s := nvsSave s 3 (retireData s) .retire
    (event s Ev.resourceRetired .critical ([classIndex r.cls, r.idx, if bist then 1 else 0] ++ lowHigh tick), true)

/-- The fault window of a class in ns (Table 19.9): 0 is taken as 1 s, and ESSENTIAL has a fixed one (R391). -/
def faultWindow (s : State) (c : FClass) : Nat :=
  10 ^ 9 * (if c = .essential then 3600 else max 1 (rd s Reg.SSU_FWIN_WINDOW (classIndex c)))

/-- A fault window that opened in tick `k` is over. -/
def faultOver (s : State) (r : Resource) (k : Nat) : Bool := decide (k * tickNs s + faultWindow s r.cls ≤ s.tb.now)

/-- A window that closes with no second upset (R391). -/
def windowClose (s : State) (r : Resource) : State :=
  match s.ssu.windows.find? (·.res = r) with
  | none => s
  | some w => if faultOver s r w.tick then setFcount (setResState (dropWindow s r) r w.prior) r 0 else s

/-- An upset of a resource (R391): IN_SERVICE or SPARE becomes SUSPECT with its window open; a second upset within the
window retires it, with `work` of its owner. The Boolean says whether it was retired. -/
def upset (s : State) (r : Resource) (work : State → State) : State × Bool :=
  let s := windowClose s r
  match resState s r with
  | .inService =>
    let s := setFcount (setResState s r .suspect) r 1
    ({ s with ssu := { s.ssu with windows := s.ssu.windows ++ [⟨r, .inService, s.tb.tick⟩] } }, false)
  | .spare =>
    let s := setFcount (setResState s r .suspect) r 1
    ({ s with ssu := { s.ssu with windows := s.ssu.windows ++ [⟨r, .spare, s.tb.tick⟩] } }, false)
  | .suspect => retire (setFcount s r 2) r false work
  | _ => (s, false)

/-- A corrected error (R392): the second correction of one word within the window is an upset. -/
def correctedTwice (s : State) (r : Resource) (word : Nat) : State × Bool :=
  let known := s.ssu.corrOnce.any fun e => decide (e.1 = r ∧ e.2.1 = word) && !faultOver s r e.2.2
  let others := s.ssu.corrOnce.filter fun e => !(decide (e.1 = r) && (decide (e.2.1 = word) || faultOver s r e.2.2))
  if known then (s, true)
  else ({ s with ssu := { s.ssu with corrOnce := others ++ [(r, word, s.tb.tick)] } }, false)

end Sys2Proof.Machine
end

