-- ==== Sys2Proof/Machine/LoopCalc.lean ====
section
/-! DEFINITION. The computation of one loop sample, bit-exact (R108 to R117, R121, 05_loop_engine.md). -/

namespace Sys2Proof.Machine

/-- A coefficient set (Table 5.3), read out of its 24 words. -/
structure Coef where
  kp : Int
  ki : Int
  kd : Int
  df : Int
  kff : Int
  b1 : List Int
  b2 : List Int
  outhi : Int
  outlo : Int
  rate : Int
  bias : Int
  ctrl : Nat
  rest : List (BitVec 32)
  deriving DecidableEq, Repr

/-- A word of a bank. -/
def bankWord (t : Tbl (BitVec 32)) (loop word : Nat) : BitVec 32 := (tget t (loop * 24 + word)).getD 0

/-- The 24 words of a bank of a loop. -/
def bankWords (t : Tbl (BitVec 32)) (loop : Nat) : List (BitVec 32) := (List.range 24).map (bankWord t loop)

/-- A coefficient set of its words. -/
def coefOf (ws : List (BitVec 32)) : Coef :=
  let w := fun (n : Nat) => ((ws[n]?).getD (0 : BitVec 32))
  let c := fun (n : Nat) => (w n).toInt
  { kp := c 0, ki := c 1, kd := c 2, df := c 3, kff := c 4, b1 := [c 5, c 6, c 7, c 8, c 9],
    b2 := [c 10, c 11, c 12, c 13, c 14], outhi := c 15, outlo := c 16, rate := c 17, bias := c 18,
    ctrl := (w 19).toNat, rest := ws.drop 20 }

/-- DSRC, B1POS, B2POS and BUMPLESS of CTRL. -/
def Coef.dsrc (c : Coef) : Bool := bitsOf c.ctrl 0 1 = 1
def Coef.b1pos (c : Coef) : Nat := bitsOf c.ctrl 1 2
def Coef.b2pos (c : Coef) : Nat := bitsOf c.ctrl 3 2
def Coef.bumpless (c : Coef) : Bool := bitsOf c.ctrl 5 1 = 1

/-- A bank is valid (R108). -/
def Coef.valid (c : Coef) : Bool :=
  decide (c.outlo ≤ c.outhi) && decide (0 ≤ c.rate) && decide (0 ≤ c.df) && decide (c.df ≤ 2 ^ 28)
    && decide (c.b1pos ≠ 3) && decide (c.b2pos ≠ 3) && decide (c.ctrl < 64) && c.rest.all (· = 0)

/-! ### Saturating arithmetic (R109); every value carries whether something saturated -/

/-- A value and whether a saturation happened on the way to it. -/
structure SV where
  v : Int
  sat : Bool
  deriving DecidableEq, Repr

/-- An exact value. -/
def ex (v : Int) : SV := ⟨v, false⟩

/-- The accumulator saturates at ±(2^63 − 1). -/
def satAcc (v : Int) : SV :=
  if 2 ^ 63 - 1 < v then ⟨2 ^ 63 - 1, true⟩ else if v < -(2 ^ 63 - 1) then ⟨-(2 ^ 63 - 1), true⟩ else ⟨v, false⟩

/-- A signal saturates to 32 bits. -/
def satSig (v : Int) : SV :=
  if 2 ^ 31 - 1 < v then ⟨2 ^ 31 - 1, true⟩ else if v < -(2 ^ 31) then ⟨-(2 ^ 31), true⟩ else ⟨v, false⟩

/-- The difference of two signals. -/
def subSig (a b : SV) : SV :=
  let r := satSig (a.v - b.v)
  ⟨r.v, r.sat || a.sat || b.sat⟩

/-- A sum in the accumulator, term by term. -/
def sumAcc (l : List SV) : SV :=
  l.foldl (fun a b =>
    let r := satAcc (a.v + b.v)
    ⟨r.v, r.sat || a.sat || b.sat⟩) (ex 0)

/-- A product of a coefficient and a signal, in Q12.52. -/
def mulAcc (c : Int) (x : SV) : SV :=
  let r := satAcc (c * x.v)
  ⟨r.v, r.sat || x.sat⟩

/-- A signal in Q12.52. -/
def wide (x : SV) : SV := ⟨x.v * 2 ^ 28, x.sat⟩

/-- Division rounding to nearest, ties away from zero. -/
def divAway (n d : Int) : Int :=
  let m : Int := ((2 * n.natAbs + d.natAbs) / (2 * d.natAbs) : Nat)
  if (0 ≤ n) = (0 ≤ d) then m else -m

/-- q(·): an accumulator value as a signal (R109). -/
def qSig (x : SV) : SV :=
  let r := satSig (divAway x.v (2 ^ 28))
  ⟨r.v, r.sat || x.sat⟩

/-- clamp(v, lo, hi). -/
def clampI (v lo hi : Int) : Int := min (max v lo) hi

/-! ### Biquads (R110, R115) -/

/-- One biquad section: coefficients b0, b1, b2, a1, a2. -/
def biquad (b : List Int) (z : Biq) (x : SV) : SV × Biq :=
  let k := fun n => (b[n]?).getD 0
  let y := qSig (sumAcc [mulAcc (k 0) x, mulAcc (k 1) (ex z.x1), mulAcc (k 2) (ex z.x2),
    mulAcc (-(k 3)) (ex z.y1), mulAcc (-(k 4)) (ex z.y2)])
  (y, ⟨x.v, z.x1, y.v, z.y1⟩)

/-- A section primed for its first input, and whether its DC gain is not defined (R115). G × x0 is the exact quotient
rounded to nearest, ties away from zero, and saturated to 32 bits: DESIGN CHOICE (log entry 108). -/
def primeBiq (b : List Int) (x : SV) : Biq × Bool × Bool :=
  let k := fun n => (b[n]?).getD 0
  let den := 2 ^ 28 + k 3 + k 4
  if den = 0 then (⟨x.v, x.v, 0, 0⟩, true, false)
  else
    let y := satSig (divAway (x.v * (k 0 + k 1 + k 2)) den)
    (⟨x.v, x.v, y.v, y.v⟩, false, y.sat)

/-! ### One sample -/

/-- The inputs of a sample: value and whether it is usable (R112). -/
structure LoopIn where
  pv : Int
  pvOk : Bool
  sp : Int
  spOk : Bool
  ff : Option (Int × Bool)
  outVal : Int
  innerTrack : Option Int
  innerSat : Bool
  deriving DecidableEq, Repr

/-- Sticky bits of a sample, numbered from bit 16 of Table 5.15. -/
structure Stick where
  asat : Bool
  pvfail : Bool
  spfail : Bool
  fffail : Bool
  dcgain : Bool
  deriving DecidableEq, Repr

/-- A section where its position matches: primed at a first sample, then applied. -/
def biqSection (c : List Int) (pos want : Nat) (first : Bool) (z : Biq) (x : SV) : SV × Biq × Bool :=
  if pos = want then
    let p := if first then primeBiq c x else (z, false, false)
    let r := biquad c p.1 x
    (⟨r.1.v, r.1.sat || p.2.2⟩, r.2, p.2.1)
  else (x, z, false)

/-- What the terms of R110 are before the integral acts. -/
structure Terms where
  e : SV
  d : SV
  p : SV
  f : SV
  inc : SV
  st : LoopSt
  dcgain : Bool
  deriving DecidableEq, Repr

/-- The terms of R110: process-value sections, error, derivative, proportional and feedforward parts. -/
def terms (c : Coef) (st : LoopSt) (first resumed : Bool) (pv sp ff : Int) : Terms :=
  let s1 := biqSection c.b1 c.b1pos 1 first st.b1 (ex pv)
  let s2 := biqSection c.b2 c.b2pos 1 first st.b2 s1.1
  let pvf := s2.1
  let e := subSig (ex sp) pvf
  let x := if c.dsrc then subSig (ex 0) pvf else e
  let xprev := if first || resumed then x.v else st.xprev
  let dx := subSig x (ex xprev)
  let d0 := if first then 0 else st.d
  let kd := qSig (mulAcc c.kd dx)
  let d := qSig (sumAcc [wide (ex d0), mulAcc c.df (subSig kd (ex d0))])
  let p := qSig (mulAcc c.kp e)
  let f := qSig (mulAcc c.kff (ex ff))
  ⟨e, d, p, f, mulAcc c.ki e, { st with xprev := x.v, d := d.v, b1 := s1.2.1, b2 := s2.2.1, pvlast := pv },
   s1.2.2 || s2.2.2⟩

/-- The result of a sample. -/
structure SampleOut where
  st : LoopSt
  u : Int
  mode : LMode
  rlim : Bool
  ihold : Bool
  stick : Stick
  first : Bool
  deriving DecidableEq, Repr

/-- Mode HOLD (Table 5.5): the output stays and the record is frozen; the flags of the other inputs are set all the
same. -/
def holdSample (st : LoopSt) (first sf ff : Bool) : SampleOut :=
  ⟨st, st.uprev, .hold, false, false, ⟨false, true, sf, ff, false⟩, first⟩

/-- FFLAST after a sample: the feedforward the sample used, and with no feedforward configured what it was (Tables 5.4,
5.5). -/
def ffStored (i : LoopIn) (st : LoopSt) (ff : Int) : Int :=
  match i.ff with
  | none => st.fflast
  | some _ => ff

/-- A sample in MANUAL, TRACK or CASCTRACK: the output follows a value, the integral is back-calculated (R113). In
MANUAL and TRACK without a usable process value back-calculation and the process-value sections stay as they were;
what is usable is stored all the same (Table 5.5). -/
def followSample (c : Coef) (st : LoopSt) (i : LoopIn) (first resumed : Bool) (m : LMode) (v sp ff : Int) (k : Nat)
    (sf ff' : Bool) : SampleOut :=
  let u := clampI v c.outlo c.outhi
  if i.pvOk then
    let t := terms c st first resumed i.pv sp ff
    let acc := sumAcc [wide (ex u), wide (ex (-c.bias)), wide ⟨-t.p.v, t.p.sat⟩, wide ⟨-t.d.v, t.d.sat⟩,
      wide ⟨-t.f.v, t.f.sat⟩]
    let i' := clampI acc.v (c.outlo * 2 ^ 28) (c.outhi * 2 ^ 28)
    let z : Biq := ⟨u, u, u, u⟩
    let st' := { t.st with i := i', uprev := u, eprev := t.e.v, splast := sp, fflast := ffStored i st ff,
                           b1 := if c.b1pos = 2 then z else t.st.b1, b2 := if c.b2pos = 2 then z else t.st.b2,
                           tick := BitVec.ofNat 32 k }
    ⟨st', u, m, false, false, ⟨acc.sat || t.e.sat, false, sf, ff', t.dcgain⟩, false⟩
  else ⟨{ st with splast := sp, fflast := ffStored i st ff, tick := BitVec.ofNat 32 k }, u, m, false, false,
    ⟨false, true, sf, ff', false⟩, first⟩

/-- A sample in AUTO (R110, R111). -/
def autoSample (c : Coef) (st : LoopSt) (i : LoopIn) (first resumed : Bool) (sp ff : Int) (k : Nat)
    (sf ff' : Bool) : SampleOut :=
  let t := terms c st first resumed i.pv sp ff
  let lo52 := c.outlo * 2 ^ 28
  let hi52 := c.outhi * 2 ^ 28
  let start := subSig (ex i.outVal) (ex c.bias)
  let i0 := if first then clampI (wide start).v lo52 hi52 else st.i
  let sum := fun (iv : Int) => sumAcc [wide (ex c.bias), wide t.p, ex iv, wide t.d, wide t.f]
  let u0 := qSig (sum i0)
  let up := subSig u0 (ex st.uprev)
  let dn := subSig (ex st.uprev) u0
  let hi := decide (c.outhi < u0.v) || (decide (0 < c.rate) && decide (c.rate < up.v))
  let lo := decide (u0.v < c.outlo) || (decide (0 < c.rate) && decide (c.rate < dn.v))
  let held := (hi && decide (0 < t.inc.v)) || (lo && decide (t.inc.v < 0)) || i.innerSat
  let adv := sumAcc [ex i0, t.inc]
  let i1 := if held then i0 else clampI adv.v lo52 hi52
  let ua := qSig (sum i1)
  let s1 := biqSection c.b1 c.b1pos 2 first t.st.b1 ua
  let s2 := biqSection c.b2 c.b2pos 2 first t.st.b2 s1.1
  let ub := s2.1
  let lower := satSig (st.uprev - c.rate)
  let uc := if 0 < c.rate then clampI ub.v lower.v (st.uprev + c.rate) else ub.v
  let u := clampI uc c.outlo c.outhi
  let st' := { t.st with i := i1, uprev := u, eprev := t.e.v, splast := sp, fflast := ffStored i st ff,
                         b1 := s1.2.1, b2 := s2.2.1, tick := BitVec.ofNat 32 k }
  let sat := u0.sat || ua.sat || ub.sat || t.e.sat || t.d.sat || t.p.sat || t.f.sat || (!held && adv.sat)
    || (first && start.sat) || (decide (0 < c.rate) && (lower.sat || up.sat || dn.sat))
  ⟨st', u, .auto, decide (uc ≠ ub.v), held, ⟨sat, false, sf, ff', t.dcgain || s1.2.2 || s2.2.2⟩, false⟩

/-- One sample of a loop: `want` is the mode asked for, `held` whether it was in HOLD since its last usable process
value, `first` whether the loop starts under R115. What the inner loop asks for under R117 comes before the mode asked
for. A first sample whose process value is not usable leaves the start owed (log entry 14). -/
def sample (c : Coef) (st : LoopSt) (want : LMode) (held first : Bool) (i : LoopIn) (k : Nat) : SampleOut :=
  let sf := !i.spOk
  let sp := if i.spOk then i.sp else st.splast
  let (ff, fbad) := match i.ff with
    | none => (0, false)
    | some (v, ok) => if ok then (v, false) else (st.fflast, true)
  match i.innerTrack, want with
  | some v, _ => if i.pvOk then followSample c st i first held .cascTrack v sp ff k sf fbad else holdSample st first sf fbad
  | none, .manual => followSample c st i first held .manual st.manval sp ff k sf fbad
  | none, .track => followSample c st i first held .track st.trkval sp ff k sf fbad
  | none, _ => if i.pvOk then autoSample c st i first held sp ff k sf fbad else holdSample st first sf fbad

/-- The bumpless change of the integral at a swap (R121), from the old set to the new, and whether its accumulator
saturated. -/
def bumpless (o n : Coef) (st : LoopSt) : LoopSt × Bool :=
  if n.bumpless then
    let a := sumAcc [ex st.i, wide (ex (o.bias - n.bias)), mulAcc (o.kp - n.kp) (ex st.eprev)]
    ({ st with i := clampI a.v (n.outlo * 2 ^ 28) (n.outhi * 2 ^ 28) }, a.sat)
  else (st, false)

end Sys2Proof.Machine
end

