-- ==== Sys2Proof/Config.lean ====
section
/-! DEFINITION. What the spec leaves open and the model leaves free: constants without a body, of which nothing can be
proved but what holds for every value. -/

namespace Sys2Proof

/-- The n-th free value (log entry 1): a byte of memory or of the store whose content or layout the spec does not
give. -/
opaque freeByte : Nat → Byte

/-- A 64-bit free value. -/
opaque freeWord : Nat → Word

/-- A one-bit free value: what the partner answers in a check whose answer no frame of the spec carries (log entry
17). -/
opaque freeBool : Nat → Bool

/-- Property table 0, water at 1.6 MPa, fixed in the device: density and enthalpy at a whole temperature in °C, binary32
(R197, log entry 7). -/
opaque waterTable : Nat → BitVec 32 × BitVec 32

/-- The 64-bit digest of a list of inputs: the first 8 bytes of SHA-512 over an encoding of the list that the spec does
not give (R302, R304, log entry 30). -/
opaque inputsDigest : List Input → BitVec 64

/-- The tick digest of the commits of a tick: the first 8 bytes of SHA-512 over an encoding the spec does not give
(R306, log entry 30). -/
opaque commitDigest : CommitRec → BitVec 64

/-- The bytes of IDPUB (Table 20.1), the identity key of the part, which the spec does not give. -/
opaque idPub : Nat → Byte

/-- The code of a takeover cause or YIELD reason, by the row of Table 13.5 counted from 1: the spec gives the rows and
no codes (log entry 31). -/
opaque causeCode : Nat → BitVec 32

/-- The time in ns a tick marker stays in a unit before it leaves on another link (R325): a free value each time. -/
opaque residence : Nat → Nat

/-- The variant of the part (R2), KV-4810-XA or not, which no register shows (Table 13.2). -/
opaque partVariant : Bool

/-- The order in which the Lattice Solver forms a sum (R132): fixed by the elimination structure, which the fingerprint
names, and by which sum of the job it is; the spec gives no order (log entry 63). -/
opaque redTree : BitVec 64 → List Nat → Nat → RTree

/-- The device ordering of a pattern of some order: approximate minimum degree, whose approximation the spec does not
give (log entry 63). -/
opaque amdOrder : Nat → List (Nat × Nat) → List Nat

/-- A solve against an FP32 factor works in binary32 rather than in binary64; the spec says neither (log entry 63). -/
opaque solveSingle : Bool

/-- The in-service index of the tile a front is placed on, or of the first it is split across, by the fronts' parents
and orders, the tiles in service and the front; the spec asks for an even division of the work and gives no algorithm
(R148, log entry 71). -/
opaque frontTile : List (Option Nat × Nat) → Nat → Nat → Nat

/-- The sets of fronts held at one time, by their parents and orders and the tiles in service (R148, log entry 71). -/
opaque frontsTogether : List (Option Nat × Nat) → Nat → List (List Nat)

/-- The KiB that a stored analysis of some order takes (R140, log entry 71). -/
opaque analysisKib : BitVec 64 → Nat

/-- The coefficients of the 15-tap compensation FIR at a decimation ratio, in units of 2^−30 (Table 8.2): the spec gives
its flatness (log entry 76). -/
opaque droopTap : Nat → Nat → Int

/-- The pole of the DC block in units of 2^−32: the spec gives its corner (log entry 76). -/
opaque dcPole : Int

/-- The coefficients of the 4-tap cubic interpolation of a PHASE other than 0, in units of 2^−30 (log entry 76). -/
opaque phaseTap : BitVec 16 → Nat → Int

/-- The argument in radians of the single-bin DFT of a list of samples, each with its instant in ns, at a frequency in
Hz, in binary64: the spec gives the transform and no arithmetic for it (R221, log entry 76). -/
opaque dftArg : Word → List (Nat × Int) → Word

/-- The coefficients of the 63-tap Hilbert FIR, in units of 2^−30 (R194, log entry 76). -/
opaque hilbertTap : Nat → Int

/-- The scales, the nominal voltage and the line frequency by which the reference set is metered, which the spec does
not give (Table 8.9, log entry 76). -/
opaque refFeeder : FeederCfg

end Sys2Proof
end

