-- ==== Sys2Proof/Machine/Agree.lean ====
section
/-! DEFINITION. Inputs to the tick (R300 to R304, 13_redundant_pairs.md): how an input is stamped, listed and forwarded,
and what a command that is an input does before its agreement. -/

namespace Sys2Proof.Machine

/-- A link of the pair is paired (Table 13.17). -/
def paired (s : State) : Bool := (List.range 2).any fun n => rdB s Reg.RDU_CHSTS_PAIRED n

/-- A paired link carries agreement traffic (R297). -/
def linked (s : State) : Bool := s.rdu.carries.any fun n => rdB s Reg.RDU_CHSTS_PAIRED n

/-- The tick an instant lies in (R28, R301). -/
def tickOf (s : State) (t : Nat) : Nat := t / tickNs s

/-- Adds an input to the own list of its tick. -/
def listPut (l : List (Nat × List Input)) (j : Nat) (i : Input) : List (Nat × List Input) :=
  if l.any (·.1 = j) then l.map fun e => if e.1 = j then (j, e.2 ++ [i]) else e
  else l ++ [(j, [i])]

/-- Stamps an input, lists it and forwards it to a paired partner (R301). -/
def submit (s : State) (stamp source ident : Nat) (body : InBody) : State :=
  let i : Input := ⟨stamp, ⟨source, ident⟩, ownSide s, body⟩
  let s := { s with rdu := { s.rdu with own := listPut s.rdu.own (tickOf s stamp) i } }
  if linked s then sendChord s none (tickOf s stamp) false (.input i) else s

/-- A host command as an input: source code 64, the register's offset as identifier, stamped when the write is
accepted. -/
def submitHost (s : State) (reg : Field) (body : InBody) : State := submit s s.tb.now 64 reg.addr body

/-- The unit to which a command was written reports it (R303). -/
def mine (s : State) (i : Input) : Bool := i.side = ownSide s

/-- A check of the partner's that no frame carries: a free value in a pair, passed on a single unit (log entry 17). -/
def partnerAgrees (s : State) : Bool × State :=
  if paired s then (freeBool s.free, { s with free := s.free + 1 }) else (true, s)

/-- Tasks run: ACTIVE and STANDBY, SAVE entered from them (R75, R105), and the first tick that a resyncing unit executes
in step (R318). -/
def runsControl (s : State) : Bool :=
  match modeIs s with
  | .active => true
  | .standby => true
  | .save => priorMode s = .active || priorMode s = .standby
  | .resync => match s.rdu.copy with | some c => c.exec.isSome | none => false
  | _ => false

end Sys2Proof.Machine
end

