-- ==== Sys2Proof/Machine/Float.lean ====
section
/-! DEFINITION. IEEE 754-2019 binary64 and binary32 arithmetic as R56 prescribes it: round to nearest, ties to even, in
one exact rounding of the exact result; every NaN result is the default quiet NaN. -/

namespace Sys2Proof.Machine

/-- A format: precision, exponent of the least subnormal unit, greatest exponent, exponent width. -/
structure FFmt where
  p : Nat
  emin : Int
  emax : Int
  ew : Nat

/-- binary64. -/
def fmt64 : FFmt := ⟨53, -1074, 1023, 11⟩
/-- binary32. -/
def fmt32 : FFmt := ⟨24, -149, 127, 8⟩

/-- The format of a precision (R56). -/
def fmtOf : Prec → FFmt
  | .double => fmt64
  | .single => fmt32

/-- A value read from a pattern: a NaN (signalling or not), an infinity, or ±m·2^e. -/
inductive FVal where
  | nan (signalling : Bool)
  | inf (neg : Bool)
  | fin (neg : Bool) (m : Nat) (e : Int)
  deriving DecidableEq, Repr

/-- A result: its pattern, and whether the operation was invalid or overflowed (R56). -/
structure FRes where
  bits : Nat
  inv : Bool
  ovf : Bool
  deriving DecidableEq, Repr

/-- The default quiet NaN (R56). -/
def fNan (f : FFmt) : Nat := (2 ^ f.ew - 1) * 2 ^ (f.p - 1) + 2 ^ (f.p - 2)

/-- An infinity. -/
def fInf (f : FFmt) (neg : Bool) : Nat := (if neg then 2 ^ (f.ew + f.p - 1) else 0) + (2 ^ f.ew - 1) * 2 ^ (f.p - 1)

/-- A zero. -/
def fZero (f : FFmt) (neg : Bool) : Nat := if neg then 2 ^ (f.ew + f.p - 1) else 0

/-- Reads a pattern; a binary32 value occupies bits 31:0 of its register (R56). -/
def fRead (f : FFmt) (w : Nat) : FVal :=
  let frac := w % 2 ^ (f.p - 1)
  let ex := w / 2 ^ (f.p - 1) % 2 ^ f.ew
  let neg := w / 2 ^ (f.ew + f.p - 1) % 2 = 1
  if ex = 2 ^ f.ew - 1 then
    if frac = 0 then .inf neg else .nan (frac < 2 ^ (f.p - 2))
  else if ex = 0 then .fin neg frac f.emin
  else .fin neg (frac + 2 ^ (f.p - 1)) (f.emin + (ex - 1 : Nat))

/-- Rounds ±(m + ε)·2^e, with 0 < ε < 1 when `sticky`, to the format (nearest, ties to even) and packs it; the
overflow gives the infinity and says so. With `sticky`, `m` has at least p + 2 bits. -/
def fRound (f : FFmt) (neg : Bool) (m : Nat) (e : Int) (sticky : Bool) : FRes :=
  if m = 0 then ⟨fZero f neg, false, false⟩
  else
    let q := max (e + (Nat.log2 m + 1 : Nat) - f.p) f.emin
    let r :=
      if q ≤ e then m * 2 ^ (e - q).toNat
      else
        let sh := (q - e).toNat
        let t := m / 2 ^ sh
        let rem := m % 2 ^ sh
        let half := 2 ^ (sh - 1)
        if rem > half ∨ (rem = half ∧ (sticky ∨ t % 2 = 1)) then t + 1 else t
    let (r, q) := if r = 2 ^ f.p then (2 ^ (f.p - 1), q + 1) else (r, q)
    let sign := fZero f neg
    if r < 2 ^ (f.p - 1) then ⟨sign + r, false, false⟩
    else if q + (f.p - 1 : Nat) > f.emax then ⟨fInf f neg, false, true⟩
    else ⟨sign + ((q - f.emin).toNat + 1) * 2 ^ (f.p - 1) + (r - 2 ^ (f.p - 1)), false, false⟩

/-- The result of an invalid operation. -/
def fInvalid (f : FFmt) : FRes := ⟨fNan f, true, false⟩

/-- A NaN operand gives the default NaN, invalid when it signals (R56). -/
def fNanRes (f : FFmt) (l : List FVal) : FRes := ⟨fNan f, l.contains (.nan true), false⟩

/-- Whether a value is a NaN. -/
def FVal.isNan : FVal → Bool
  | .nan _ => true
  | _ => false

/-- The exact signed integer a finite value counts at exponent `e0`, not above its own. -/
def fScale (neg : Bool) (m : Nat) (e e0 : Int) : Int :=
  let v : Int := ((m * 2 ^ (e - e0).toNat : Nat) : Int)
  if neg then -v else v

/-- Rounds the exact sum of two finite terms; an exact zero is −0 only when both terms are negative. -/
def fSum (f : FFmt) (n1 : Bool) (m1 : Nat) (e1 : Int) (n2 : Bool) (m2 : Nat) (e2 : Int) : FRes :=
  let e := min e1 e2
  let v := fScale n1 m1 e1 e + fScale n2 m2 e2 e
  if v = 0 then ⟨fZero f (n1 && n2), false, false⟩ else fRound f (v < 0) v.natAbs e false

/-- Addition. -/
def fAdd (f : FFmt) (a b : FVal) : FRes :=
  if a.isNan || b.isNan then fNanRes f [a, b]
  else match a, b with
    | .inf x, .inf y => if x = y then ⟨fInf f x, false, false⟩ else fInvalid f
    | .inf x, _ => ⟨fInf f x, false, false⟩
    | _, .inf y => ⟨fInf f y, false, false⟩
    | .fin n1 m1 e1, .fin n2 m2 e2 => fSum f n1 m1 e1 n2 m2 e2
    | _, _ => fInvalid f

/-- The value with its sign inverted. -/
def fNeg : FVal → FVal
  | .nan x => .nan x
  | .inf n => .inf (!n)
  | .fin n m e => .fin (!n) m e

/-- Multiplication. -/
def fMul (f : FFmt) (a b : FVal) : FRes :=
  if a.isNan || b.isNan then fNanRes f [a, b]
  else match a, b with
    | .inf x, .inf y => ⟨fInf f (x != y), false, false⟩
    | .inf x, .fin y m _ => if m = 0 then fInvalid f else ⟨fInf f (x != y), false, false⟩
    | .fin x m _, .inf y => if m = 0 then fInvalid f else ⟨fInf f (x != y), false, false⟩
    | .fin n1 m1 e1, .fin n2 m2 e2 => fRound f (n1 != n2) (m1 * m2) (e1 + e2) false
    | _, _ => fInvalid f

/-- Fused multiply-add c + a × b, one rounding. -/
def fFma (f : FFmt) (c a b : FVal) : FRes :=
  if a.isNan || b.isNan || c.isNan then fNanRes f [a, b, c]
  else match a, b with
    | .fin n1 m1 e1, .fin n2 m2 e2 =>
      match c with
      | .inf z => ⟨fInf f z, false, false⟩
      | .fin n3 m3 e3 => fSum f (n1 != n2) (m1 * m2) (e1 + e2) n3 m3 e3
      | .nan _ => fInvalid f
    | _, _ =>
      let p := fMul f a b
      if p.inv then p
      else match fRead f p.bits, c with
        | .inf x, .inf z => if x = z then ⟨fInf f x, false, false⟩ else fInvalid f
        | _, _ => p

/-- Division. -/
def fDiv (f : FFmt) (a b : FVal) : FRes :=
  if a.isNan || b.isNan then fNanRes f [a, b]
  else match a, b with
    | .inf _, .inf _ => fInvalid f
    | .inf x, .fin y _ _ => ⟨fInf f (x != y), false, false⟩
    | .fin x _ _, .inf y => ⟨fZero f (x != y), false, false⟩
    | .fin n1 m1 e1, .fin n2 m2 e2 =>
      if m2 = 0 then (if m1 = 0 then fInvalid f else ⟨fInf f (n1 != n2), false, false⟩)
      else if m1 = 0 then ⟨fZero f (n1 != n2), false, false⟩
      else
        let k := f.p + 3 + Nat.log2 m2
        let num := m1 * 2 ^ k
        fRound f (n1 != n2) (num / m2) (e1 - e2 - (k : Nat)) (num % m2 ≠ 0)
    | _, _ => fInvalid f

/-- The integer square root, one bit at a time from bit `n` down. -/
def isqrt (x : Nat) : Nat → Nat → Nat
  | 0, r => r
  | n + 1, r => if (r + 2 ^ n) * (r + 2 ^ n) ≤ x then isqrt x n (r + 2 ^ n) else isqrt x n r

/-- Square root; −0 gives −0. -/
def fSqrt (f : FFmt) (a : FVal) : FRes :=
  match a with
  | .nan s => ⟨fNan f, s, false⟩
  | .inf n => if n then fInvalid f else ⟨fInf f false, false, false⟩
  | .fin n m e =>
    if m = 0 then ⟨fZero f n, false, false⟩
    else if n then fInvalid f
    else
      let k := 2 * (f.p + 3)
      let (m', e') := if e % 2 = 0 then (m * 2 ^ k, e - (k : Nat)) else (m * 2 ^ (k + 1), e - (k : Nat) - 1)
      let r := isqrt m' (Nat.log2 m' / 2 + 1) 0
      fRound f false r (e' / 2) (r * r ≠ m')

/-- The order of two values that are not NaN: −1, 0 or 1; the zeros are equal. -/
def fOrder (a b : FVal) : Int :=
  match a, b with
  | .inf x, .inf y => if x = y then 0 else if x then -1 else 1
  | .inf x, _ => if x then -1 else 1
  | _, .inf y => if y then 1 else -1
  | .fin n1 m1 e1, .fin n2 m2 e2 =>
    let e := min e1 e2
    let v := fScale n1 m1 e1 e - fScale n2 m2 e2 e
    if v < 0 then -1 else if v = 0 then 0 else 1
  | _, _ => 0

/-- Whether a value carries a negative sign. -/
def FVal.neg : FVal → Bool
  | .nan _ => false
  | .inf n => n
  | .fin n _ _ => n

/-- minimumNumber and maximumNumber on patterns (R56): exactly one NaN gives the other operand; −0 counts below +0. -/
def fMinMax (f : FFmt) (mx : Bool) (x y : Nat) : FRes :=
  let a := fRead f x
  let b := fRead f y
  let inv := a = .nan true || b = .nan true
  if a.isNan && b.isNan then ⟨fNan f, inv, false⟩
  else if a.isNan then ⟨y, inv, false⟩
  else if b.isNan then ⟨x, inv, false⟩
  else
    let o := fOrder a b
    let aLess := o < 0 || (o = 0 && a.neg)
    ⟨if mx then (if aLess then y else x) else (if aLess then x else y), false, false⟩

/-- Rounds ±m·2^e to an integer, nearest, ties to even. -/
def roundEven (neg : Bool) (m : Nat) (e : Int) : Int :=
  let v : Nat :=
    if 0 ≤ e then m * 2 ^ e.toNat
    else
      let sh := (-e).toNat
      let t := m / 2 ^ sh
      let rem := m % 2 ^ sh
      let half := 2 ^ (sh - 1)
      if rem > half ∨ (rem = half ∧ t % 2 = 1) then t + 1 else t
  if neg then -(v : Int) else v

/-- Converts to a signed integer of `w` bits after scaling by 2^k: nearest even, saturating; the flags are those of
R56 (a NaN gives 0 and FPINV, a saturation SAT). Gives the value, invalid, saturated. -/
def fToInt (w k : Nat) (a : FVal) : Int × Bool × Bool :=
  let top : Int := 2 ^ (w - 1) - 1
  let bot : Int := -(2 ^ (w - 1))
  match a with
  | .nan _ => (0, true, false)
  | .inf n => (if n then bot else top, false, true)
  | .fin n m e =>
    let v := roundEven n m (e + (k : Nat))
    if v > top then (top, false, true) else if v < bot then (bot, false, true) else (v, false, false)

/-- A signed integer times 2^e in the format. -/
def fOfInt (f : FFmt) (v : Int) (e : Int) : FRes := fRound f (v < 0) v.natAbs e false

/-- Converts between the formats. -/
def fConv (g : FFmt) (a : FVal) : FRes :=
  match a with
  | .nan s => ⟨fNan g, s, false⟩
  | .inf n => ⟨fInf g n, false, false⟩
  | .fin n m e => fRound g n m e false

end Sys2Proof.Machine
end

