-- ==== Sys2Proof/Machine/Flags.lean ====
section
/-! DEFINITION. TFLAGS (Table 3.14) and the saturations that set SAT (Tables 3.5 and 3.6). -/

namespace Sys2Proof.Machine

/-- Bit numbers of TFLAGS (Table 3.14). -/
inductive TFlag where
  | sat | divz | fpinv | fpovf | addr | qualw | loopclamp | evtlim
  deriving DecidableEq, Repr

/-- The mask of a flag. -/
def flagMask : TFlag → BitVec 8
  | .sat => 0x01 | .divz => 0x02 | .fpinv => 0x04 | .fpovf => 0x08
  | .addr => 0x10 | .qualw => 0x20 | .loopclamp => 0x40 | .evtlim => 0x80

/-- Sets a flag; flags are never cleared during an instance (R69). -/
def setFlag (i : Inst) (f : TFlag) : Inst := { i with tflags := i.tflags ||| flagMask f }

/-- Sets a flag when a condition holds. -/
def setFlagIf (i : Inst) (f : TFlag) (c : Bool) : Inst := if c then setFlag i f else i

/-- Whether a flag is set. -/
def hasFlag (i : Inst) (f : TFlag) : Bool := i.tflags &&& flagMask f ≠ 0

/-- Clamps to the signed range of `w` bits, and says whether the value changed (sat64, sat32). -/
def satTo (w : Nat) (v : Int) : Int × Bool :=
  if v > 2 ^ (w - 1) - 1 then (2 ^ (w - 1) - 1, true)
  else if v < -(2 ^ (w - 1)) then (-(2 ^ (w - 1)), true)
  else (v, false)

/-- sat96 clamps to ±(2^95 − 1). -/
def sat96 (v : Int) : Int × Bool :=
  if v > 2 ^ 95 - 1 then (2 ^ 95 - 1, true)
  else if v < -(2 ^ 95 - 1) then (-(2 ^ 95 - 1), true)
  else (v, false)

/-- Divides by 2^n rounding the magnitude to nearest, ties away from zero (R55, ARD). -/
def roundAway (t : Int) (n : Nat) : Int :=
  if n = 0 then t
  else
    let m : Int := ((t.natAbs + 2 ^ (n - 1)) / 2 ^ n : Nat)
    if 0 ≤ t then m else -m

/-- The flags of a floating-point result (R56). -/
def setFFlags (i : Inst) (r : FRes) : Inst := setFlagIf (setFlagIf i .fpinv r.inv) .fpovf r.ovf

end Sys2Proof.Machine
end

