-- ==== Sys2Proof/Machine/Operands.lean ====
section
/-! DEFINITION. The operand forms of KCIS: registers, predicates, accumulators, guards, addresses and segments, the
journal, points, and how an instruction acts on the running instance of a sequencer (03_kcis_instruction_set.md). -/

namespace Sys2Proof.Machine

/-- A register; w0 reads as zero (R46). -/
def rW (i : Inst) (r : Reg) : Word := if r = 0 then 0 else i.w[r]

/-- Writes a register; a write to w0 is discarded (R46). -/
def setW (i : Inst) (r : Reg) (v : Word) : Inst := if r = 0 then i else { i with w := i.w.set r v }

/-- A predicate. -/
def rP (i : Inst) (p : Pred) : Bool := i.p[p]

/-- Writes a predicate. -/
def setP (i : Inst) (p : Pred) (b : Bool) : Inst := { i with p := i.p.set p b }

/-- An accumulator. -/
def rAcc (i : Inst) (k : Acc) : BitVec 96 := if k then i.acc1 else i.acc0

/-- Writes an accumulator. -/
def setAcc (i : Inst) (k : Acc) (v : BitVec 96) : Inst := if k then { i with acc1 := v } else { i with acc0 := v }

/-- Whether a guarded instruction executes (R49). -/
def guardOk (i : Inst) : Guard → Bool
  | .always => true
  | .on p neg => rP i p != neg

/-- The signed value of bits 31:0. -/
def low32 (w : Word) : Int := (w.setWidth 32).toInt

/-- An integer as a 64-bit pattern. -/
def ofInt64 (v : Int) : Word := BitVec.ofInt 64 v

/-- A 32-bit immediate sign-extended. -/
def sextImm (imm : BitVec 32) : Word := imm.signExtend 64

/-- A 32-bit immediate zero-extended. -/
def zextImm (imm : BitVec 32) : Word := imm.setWidth 64

/-- The running program: the active half, when it holds one. -/
def running (s : State) : Option Program :=
  if rdB s Reg.CSA_STATUS_PROGVALID then
    (if rd s Reg.CSA_OLC_ACTHALF = 0 then s.csa.half0 else s.csa.half1)
  else none

/-- The task table entry of the running program (Table 4.1). -/
def taskOf (s : State) (t : Nat) : Option TaskEntry := (running s).bind fun p => p.tasks[t]?

/-- Bytes of an access (Table 3.4). -/
def sizeBytes : Size → Nat
  | .b8 => 1 | .b16 => 2 | .b32 => 4 | .b64 => 8

/-- The effective address w[RA] + sext(IMM) (R51). -/
def effAddr (i : Inst) (a : Reg) (disp : BitVec 32) : Nat := (rW i a + sextImm disp).toNat

/-- A whole range lies in one segment of the space assigned to the task (R51). -/
def inSegment (s : State) (task : Nat) (sp : Space) (ea n : Nat) : Bool :=
  match taskOf s task with
  | some t => t.segs.any fun g => g.space = sp && g.base ≤ ea && ea + n ≤ g.base + g.len
  | none => false

/-- An access is valid (R51): aligned, and in a segment of the task. -/
def validAccess (s : State) (i : Inst) (sp : Space) (ea n align : Nat) : Bool :=
  ea % align = 0 && inSegment s i.task sp ea n

/-- The journal key of a byte of a space. -/
def jkey (sp : Space) (a : Nat) : Nat := 2 * a + (match sp with | .data => 0 | .retained => 1)

/-- The memory of a space. -/
def memOf (s : State) : Space → Tbl Byte
  | .data => s.csa.dmem
  | .retained => s.csa.rmem

/-- A byte as the instance sees it: its journal first (R52). -/
def instByte (s : State) (i : Inst) (sp : Space) (a : Nat) : Byte :=
  match tget i.journal (jkey sp a) with
  | some b => b
  | none => Memory.byte (memOf s sp) a

/-- The bytes of a range as the instance sees them. -/
def instBytes (s : State) (i : Inst) (sp : Space) (a n : Nat) : List Byte :=
  (List.range n).map fun k => instByte s i sp (a + k)

/-- Places a store in the journal (R52). -/
def journalBytes (i : Inst) (sp : Space) (a : Nat) : List Byte → Inst
  | [] => i
  | b :: bs => journalBytes { i with journal := tput i.journal (jkey sp a) b } sp (a + 1) bs

/-- The iterations that close at a word: the innermost open LOOP of the present call depth whose body ends just before
it either repeats or ends, and then the one around it is looked at (R57). -/
def closeLoops (depth pc : Nat) : List LoopFrame → List LoopFrame × Nat × Option (Reg × Nat)
  | [] => ([], pc, none)
  | f :: fs =>
    if f.depth = depth ∧ pc = f.last + 1 then
      if f.i + 1 < f.n then ({ f with i := f.i + 1 } :: fs, f.first, some (f.reg, f.i + 1))
      else closeLoops depth pc fs
    else (f :: fs, pc, none)

/-- Goes on at a word, closing iterations there. -/
def goto (i : Inst) (pc : Nat) : Inst :=
  let (fs, pc, wr) := closeLoops i.rets.length pc i.loops
  let i := { i with pc := pc, loops := fs }
  match wr with
  | some (r, n) => setW i r (BitVec.ofNat 64 n)
  | none => i

/-- Goes on at the next word. -/
def nextWord (i : Inst) : Inst := goto i (i.pc + 1)

/-- A program counter plus a signed word offset. -/
def pcPlus (i : Inst) (off : BitVec 32) : Nat := ((i.pc : Int) + off.toInt).toNat

/-- The instance a sequencer runs. -/
def instOf (s : State) (sq : Sq) : Option Inst := (s.csa.seqs[sq]).cur

/-- Puts the instance of a sequencer back. -/
def setInst (s : State) (sq : Sq) (i : Inst) : State :=
  { s with csa := { s.csa with seqs := s.csa.seqs.set sq { s.csa.seqs[sq] with cur := some i } } }

/-- An instruction on the running instance of a sequencer, its body acting when the guard lets it execute and the word
advancing either way (R47, R49). A sequencer that runs no instance executes nothing (log entry 11). -/
def kcis (s : State) (sq : Sq) (g : Guard) (body : Inst → Inst) : State :=
  match instOf s sq with
  | none => s
  | some i => setInst s sq (nextWord (if guardOk i g then body i else i))

/-- A control transfer: the body places the program counter itself when it executes. -/
def kcisJump (s : State) (sq : Sq) (g : Guard) (body : Inst → Inst) : State :=
  match instOf s sq with
  | none => s
  | some i => setInst s sq (if guardOk i g then body i else nextWord i)

end Sys2Proof.Machine
end

