-- ==== Sys2Proof/Machine/KcisFloat.lean ====
section
/-! DEFINITION. Floating-point instructions (Tables 3.7 and 3.8, R56). -/

namespace Sys2Proof.Machine

/-- An operand register read as a floating-point value of a precision; w0 is +0.0 (R46). -/
def rF (i : Inst) (p : Prec) (r : Reg) : FVal := fRead (fmtOf p) (rW i r).toNat

/-- Writes a result: a binary32 value in bits 31:0 with bits 63:32 written 0 (R56), and its flags. -/
def putF (i : Inst) (d : Reg) (r : FRes) : Inst := setFFlags (setW i d (BitVec.ofNat 64 r.bits)) r

/-- A two-operand form. -/
def fpu (s : State) (sq : Sq) (g : Guard) (p : Prec) (d a b : Reg) (f : FFmt → FVal → FVal → FRes) :
    Host.Outcome State Fault Refusal :=
  .next (kcis s sq g fun i => putF i d (f (fmtOf p) (rF i p a) (rF i p b)))

/-- The pattern of a register in a precision: bits 31:0 for binary32. -/
def fBits (i : Inst) (p : Prec) (r : Reg) : Nat :=
  match p with
  | .double => (rW i r).toNat
  | .single => (rW i r).toNat % 2 ^ 32

/-- The compare conditions of FCMP: with a NaN operand EQ, LT and LE give 0 and UN gives 1. -/
def fCompare (c : FCond) (x y : FVal) : Bool :=
  let un := x.isNan || y.isNan
  match c with
  | .eq => !un && fOrder x y = 0
  | .lt => !un && fOrder x y < 0
  | .le => !un && fOrder x y ≤ 0
  | .un => un

/-- A conversion to a signed fixed or integer value: FPINV for a NaN, SAT for a saturation. -/
def putInt (i : Inst) (d : Reg) (r : Int × Bool × Bool) : Inst :=
  setFlagIf (setFlagIf (setW i d (ofInt64 r.1)) .fpinv r.2.1) .sat r.2.2

/-- The conversions of Table 3.8. -/
def fcvt (f : Cvt) (d a : Reg) (i : Inst) : Inst :=
  match f with
  | .qd => putF i d (fOfInt fmt64 (low32 (rW i a)) (-24))
  | .dq => putInt i d (fToInt 32 24 (rF i .double a))
  | .id => putF i d (fOfInt fmt64 (rW i a).toInt 0)
  | .di => putInt i d (fToInt 64 0 (rF i .double a))
  | .sd => putF i d (fConv fmt64 (rF i .single a))
  | .ds => putF i d (fConv fmt32 (rF i .double a))
  | .qs => putF i d (fOfInt fmt32 (low32 (rW i a)) (-24))
  | .sq => putInt i d (fToInt 32 24 (rF i .single a))

/-- FADD. -/
def execFadd (sq : Sq) (g : Guard) (p : Prec) (d a b : Reg) (s : State) :
    Host.Outcome State Fault Refusal :=
  fpu s sq g p d a b fAdd

/-- FSUB: ra + (−rb). -/
def execFsub (sq : Sq) (g : Guard) (p : Prec) (d a b : Reg) (s : State) :
    Host.Outcome State Fault Refusal :=
  fpu s sq g p d a b (fun f x y => fAdd f x (fNeg y))

/-- FMUL. -/
def execFmul (sq : Sq) (g : Guard) (p : Prec) (d a b : Reg) (s : State) :
    Host.Outcome State Fault Refusal :=
  fpu s sq g p d a b fMul

/-- FDIV. -/
def execFdiv (sq : Sq) (g : Guard) (p : Prec) (d a b : Reg) (s : State) :
    Host.Outcome State Fault Refusal :=
  fpu s sq g p d a b fDiv

/-- FMA: rd := rd + ra × rb, one rounding. -/
def execFma (sq : Sq) (g : Guard) (p : Prec) (d a b : Reg) (s : State) :
    Host.Outcome State Fault Refusal :=
  .next (kcis s sq g fun i => putF i d (fFma (fmtOf p) (rF i p d) (rF i p a) (rF i p b)))

/-- FSQRT. -/
def execFsqrt (sq : Sq) (g : Guard) (p : Prec) (d a : Reg) (s : State) :
    Host.Outcome State Fault Refusal :=
  .next (kcis s sq g fun i => putF i d (fSqrt (fmtOf p) (rF i p a)))

/-- FMIN: minimumNumber. -/
def execFmin (sq : Sq) (g : Guard) (p : Prec) (d a b : Reg) (s : State) :
    Host.Outcome State Fault Refusal :=
  .next (kcis s sq g fun i => putF i d (fMinMax (fmtOf p) false (fBits i p a) (fBits i p b)))

/-- FMAX: maximumNumber. -/
def execFmax (sq : Sq) (g : Guard) (p : Prec) (d a b : Reg) (s : State) :
    Host.Outcome State Fault Refusal :=
  .next (kcis s sq g fun i => putF i d (fMinMax (fmtOf p) true (fBits i p a) (fBits i p b)))

/-- FCMP: FPINV for a signalling NaN. -/
def execFcmp (sq : Sq) (g : Guard) (p : Prec) (c : FCond) (q : Pred) (a b : Reg) (s : State) :
    Host.Outcome State Fault Refusal :=
  .next (kcis s sq g fun i =>
    let x := rF i p a
    let y := rF i p b
    setFlagIf (setP i q (fCompare c x y)) .fpinv (x = .nan true || y = .nan true))

/-- FCVT (Table 3.8). -/
def execFcvt (sq : Sq) (g : Guard) (f : Cvt) (d a : Reg) (s : State) :
    Host.Outcome State Fault Refusal :=
  .next (kcis s sq g fun i => fcvt f d a i)

end Sys2Proof.Machine
end

