-- ==== Sys2Proof/Machine/Csa.lean ====
section
/-! DEFINITION. The Control Sequencer Array at run time (R73 to R86, R101 to R104, 04_tasks_images_online_change.md):
release, snapshot, commit and failure of task instances, the sequencer mapping, and forces. -/

namespace Sys2Proof.Machine

/-! ### Points (R81 to R83, Table 4.4) -/

/-- The order of Table 4.4. -/
def qualRank : Qual → Nat
  | .forced => 1 | .retired => 2 | .bad => 3 | .stale => 4 | .substituted => 5 | .good => 6

/-- The quality that applies first of two. -/
def worse (a b : Qual) : Qual := if qualRank a ≤ qualRank b then a else b

/-- A point not yet produced. -/
def freshPoint : PSlot := ⟨0, .bad, 0⟩

/-- Imposes a quality on points. -/
def impose (q : Qual) (pts : List Nat) (m : Tbl PSlot) : Tbl PSlot :=
  pts.foldl (fun m p =>
    let v := (tget m p).getD freshPoint
    tput m p { v with qual := worse q v.qual }) m

/-- The unit is in step with its partner: one ACTIVE, the other STANDBY (PAIRST 2). -/
def inStep (s : State) : Bool := rd s Reg.RDU_STATUS_PAIRST = 2

/-- A link is retired for the points it serves: in a pair whose partner forwards its inputs only when the agreed link
states show it down on both units (R11, R307). -/
def deadForPoints (s : State) (l : Link) : Bool :=
  let r : Resource := match l with | .port p => ⟨.network, p.val⟩ | .bus n => ⟨.fieldbus, n.val⟩
  if linked s && !s.rdu.silent then s.rdu.links.contains (r, false) && s.rdu.links.contains (r, true)
  else resState s r = .retired

/-- An output point: a task of the running program writes it, or an enabled loop of the active facet. -/
def isOutPoint (s : State) (n : Nat) : Bool :=
  ((((running s).map (·.tasks)).getD []).any fun t => t.outList.contains n)
    || loopOutput s.fct.active n

/-- The quality a binding imposes on an input point: Vertex points (R261, R271, R259, Table 11.8) and imports (R329). -/
def bindQual (s : State) (p : PointDef) : Option Qual :=
  match p.bind with
  | .vin v _ =>
    match tget s.npc.ctxs v with
    | none => some .bad
    | some c =>
      if deadForPoints s c.endpoint.link then some .retired
      else if !rdB s Reg.NPC_VSTS_REACH v || rd s Reg.NPC_VSTS_QUAL v = qualCode .stale
        || (match c.lastReport with | some k => decide (k + c.rpTicks + 2 ≤ s.tb.tick) | none => false) then some .stale
      else none
  | .cascade m _ =>
    if !isOutPoint s p.num then
      match s.csc.imports.find? (·.member.val = m) with
      | none => some .bad
      | some i =>
        if i.tick + 3 < s.tb.tick || bitsOf (rd s Reg.CSC_ROSTER_UNITS) (2 * m) 2 = 0 then some .stale else none
    else none
  | _ => none

/-- The qualities that tasks, loops, contexts and imports impose on points (R79, R104, R114). -/
def imposed (s : State) (m : Tbl PSlot) : Tbl PSlot :=
  let m := ((running s).map (·.tasks)).getD [] |>.zipIdx.foldl (fun m (t, n) =>
    match qualOf (rd s Reg.CSA_TASKSTS_QUAL n) with
    | .stale => impose .stale t.outList m
    | .retired => impose .retired t.outList m
    | _ => m) m
  let m := ((s.fct.active.map (·.loops)).getD []).zipIdx.foldl (fun m (w, n) =>
    if w.en then
      match qualOf (rd s Reg.LPE_LSTS_QUAL n) with
      | .stale => impose .stale [w.outPt] m
      | .retired => impose .retired [w.outPt] m
      | _ => m
    else m) m
  (((running s).map (·.points)).getD []).foldl (fun m p =>
    match bindQual s p with
    | some q => impose q [p.num] m
    | none => m) m

/-- The forces in place over an image (R83). -/
def withForces (l : List Force) (m : Tbl PSlot) : Tbl PSlot :=
  l.foldl (fun m f =>
    let v := (tget m f.point).getD freshPoint
    tput m f.point { v with value := f.value, qual := .forced }) m

/-- The image generation as snapshots and emissions carry it. -/
def seenImage (s : State) : Tbl PSlot := withForces s.csa.forces (imposed s s.csa.img)

/-- A point of the running program by number. -/
def pointDef (s : State) (n : Nat) : Option PointDef := (running s).bind fun p => p.points.find? (·.num = n)

/-- Places a value in the image: the producer's value, quality and tick. -/
def produce (s : State) (p : Nat) (v : Word) (q : Qual) : State :=
  { s with csa := { s.csa with img := tput s.csa.img p ⟨v, q, BitVec.ofNat 32 s.tb.tick⟩ } }

/-! ### Completion reports of instances (R79, R80) -/

/-- Writes the TASK_FAIL event of a run that ends (R80): task, first tick, instances, code, reason. -/
def endRun (s : State) (task : Nat) : State :=
  match tget s.csa.failRuns task with
  | none => s
  | some r =>
    let s := { s with csa := { s.csa with failRuns := tdel s.csa.failRuns task } }
    event s Ev.taskFail .warning ([task] ++ lowHigh r.first ++ [r.count, r.code, r.rsn])

/-- Counts a failed instance in its run. -/
def addRun (s : State) (task code rsn tick : Nat) : State :=
  let put := fun (s : State) (r : FailRun) => { s with csa := { s.csa with failRuns := tput s.csa.failRuns task r } }
  match tget s.csa.failRuns task with
  | some r =>
    if r.code = code ∧ r.rsn = rsn then
      let s := put s { r with count := r.count + 1 }
      if r.count + 1 = 65535 then endRun s task else s
    else put (endRun s task) ⟨code, rsn, tick, 1⟩
  | none => put s ⟨code, rsn, tick, 1⟩

/-- The task status of an instance's end (Table 4.18). -/
def reportInst (s : State) (i : Inst) (code rsn : Nat) : State :=
  let s := wr (wr s Reg.CSA_TASKSTS_CC code i.task) Reg.CSA_TASKSTS_RSN rsn i.task
  wr (wr s Reg.CSA_TASKSTS_TFLAGS i.tflags.toNat i.task) Reg.CSA_TASKTICK_TICK i.tick i.task

/-- An instance that did not commit (R79): STALE from the second miss in a row; `hw` notes NONCOMMIT (R306). -/
def failInst (s : State) (i : Inst) (code rsn : Nat) (hw : Bool) : State :=
  let s := addRun (reportInst s i code rsn) i.task code rsn i.tick
  let s := if s.csa.failed.contains i.task then
      let s := { s with csa := { s.csa with stale := s.csa.stale.filter (· ≠ i.task) ++ [i.task] } }
      wr s Reg.CSA_TASKSTS_QUAL (qualCode .stale) i.task
    else { s with csa := { s.csa with failed := s.csa.failed ++ [i.task] } }
  if hw then { s with rdu := { s.rdu with nonCommit := s.rdu.nonCommit ++ [i.tick] } } else s

/-! ### Release (R74 to R76) -/

/-- A task is due at a tick (R74). -/
def taskDue (t : TaskEntry) (k : Nat) : Bool :=
  t.en && decide (0 < t.period) && decide ((k + t.period - t.offset) % t.period = 0 ∧ t.offset ≤ k + t.period)

/-- An instance at its release: every register 0, the program counter at the entry word, the stamp k × T (R38, R45). -/
def newInst (s : State) (task : Nat) : Inst :=
  let entry := ((taskOf s task).map (·.entry)).getD 0
  { task := task, tick := s.tb.tick, stamp := s.tb.tick * tickNs s, pc := entry, w := Vector.replicate 32 0,
    p := Vector.replicate 8 false, acc0 := 0, acc1 := 0, tflags := 0, loops := [], rets := [], journal := [],
    outs := [], reqs := [], evts := [] }

/-- Starts the next waiting instance of a sequencer. -/
def startNext (s : State) (sq : Sq) : State :=
  let q := s.csa.seqs[sq]
  let q' : Seqr := match q.queue with
    | t :: l => ⟨some (newInst s t), l⟩
    | [] => ⟨none, []⟩
  { s with csa := { s.csa with seqs := s.csa.seqs.set sq q' } }

/-- The tasks released at a tick: all that are due in ACTIVE and STANDBY, in SAVE the critical ones (R75). -/
def dueTasks (s : State) (k : Nat) : List (Nat × TaskEntry) :=
  if runsControl s then
    ((((running s).map (·.tasks)).getD []).zipIdx.map fun (t, n) => (n, t)).filter fun (_, t) =>
      taskDue t k && (modeIs s ≠ .save || t.crit)
  else []

/-- Releases the due tasks in ascending number on the sequencers that carry them (R74). -/
def releaseTasks (s : State) (k : Nat) : State :=
  (dueTasks s k).foldl (fun s (n, t) =>
    match s.csa.map[t.lseq.val]! with
    | none => s
    | some sq =>
      let q := s.csa.seqs[sq]
      match q.cur with
      | none => { s with csa := { s.csa with seqs := s.csa.seqs.set sq ⟨some (newInst s n), []⟩ } }
      | some i => { s with csa := { s.csa with seqs := s.csa.seqs.set sq ⟨some i, q.queue ++ [n]⟩ } }) s

/-- Takes the snapshot of an edge (R76). -/
def takeSnap (s : State) : State :=
  let sn : Snap := ⟨seenImage s, s.flds, s.lpe.runs, s.lsv.mbx, s.lsv.mbxNew, s.csa.nvst⟩
  { s with csa := { s.csa with snap := sn } }

/-! ### Commit (R78, R66 to R68, R83) -/

/-- The store journal applied. -/
def applyJournal (s : State) (j : Tbl Byte) : State :=
  let d := (j.filter (·.1 % 2 = 0)).foldl (fun m e => Memory.setByte m (e.1 / 2) e.2) s.csa.dmem
  let r := (j.filter (·.1 % 2 = 1)).foldl (fun m e => Memory.setByte m (e.1 / 2) e.2) s.csa.rmem
  { s with csa := { s.csa with dmem := d, rmem := r } }

/-- The output image writes: each becomes visible with the next generation (R77); on a forced point LASTW records what
the task wrote (R83). -/
def applyOuts (s : State) (outs : Tbl (Word × Qual)) : State :=
  let nx := outs.foldl (fun m e => tput m e.1 e.2) s.csa.outNext
  let fs := s.csa.forces.map fun f => match tget outs f.point with
    | some (v, _) => { f with lastw := v }
    | none => f
  { s with csa := { s.csa with outNext := nx, forces := fs } }

/-- The NVWR requests of an instance, of each record the last (R68). -/
def lastWrites : List EngReq → List EngReq
  | [] => []
  | .nvwr n d :: l =>
    if l.any fun r => match r with | .nvwr m _ => m = n | _ => false then lastWrites l else .nvwr n d :: lastWrites l
  | r :: l => r :: lastWrites l

/-- One engine request takes effect (R66): a bank swap sets PENDSWAP at once (R120), and it and every other loop
request wait for the loop's next sample, where they act in order; MBXACK sets ACKSEQ to the snapshot's sequence number
(R179), and a posted write is FAIL_POWER in SAVE (R68). -/
def applyReq (s : State) (r : EngReq) : State :=
  match r with
  | .lctl n .bankSwap =>
    wr { s with lpe := { s.lpe with reqs := s.lpe.reqs ++ [r] } } Reg.LPE_LSTS_PENDSWAP 1 n
  | .mbxAck n => wr s Reg.LSV_MBX2_ACKSEQ (rdIn s.csa.snap.flds Reg.LSV_MBX1_SEQ n) n
  | .nvwr n d =>
    let st := (tget s.csa.nvst n).getD ⟨0, 0, false, 0⟩
    let s := { s with csa := { s.csa with nvst := tput s.csa.nvst n { st with pend := true } } }
    if modeIs s = .save then nvsReport s 5 (.nvwr n) CC.failPower 0
    else nvsSave s 5 (.prog d) (.nvwr n) n
  | r => { s with lpe := { s.lpe with reqs := s.lpe.reqs ++ [r] } }

/-- A posted event (R67). -/
def applyEvt (s : State) (e : Post) : State :=
  evrAccept s e.code.toNat 0xE e.sev [e.a.setWidth 32, (e.a >>> 32).setWidth 32, e.b.setWidth 32, (e.b >>> 32).setWidth 32]

/-- What a commit adds to the commits of its tick (R316, R306). -/
def noteCommit (s : State) (i : Inst) : State :=
  let old := match s.rdu.commits.find? (·.tick = i.tick) with
    | some c => c
    | none => ⟨i.tick, [], [], [], [], 0⟩
  let c : CommitRec := { old with
    data := i.journal.foldl (fun m e => if e.1 % 2 = 0 then tput m (e.1 / 2) e.2 else m) old.data
    retained := i.journal.foldl (fun m e => if e.1 % 2 = 1 then tput m (e.1 / 2) e.2 else m) old.retained
    points := old.points ++ i.outs.map fun e => (e.1, e.2.1, e.2.2) }
  { s with rdu := { s.rdu with commits := c :: s.rdu.commits.filter (·.tick ≠ i.tick) } }

/-- A task has missed no instance. -/
def freshTask (s : State) (n : Nat) : State :=
  { s with csa := { s.csa with failed := s.csa.failed.filter (· ≠ n), stale := s.csa.stale.filter (· ≠ n) } }

/-- The commit of an instance, as one whole (R78): image, journal, requests, events and TFLAGS. -/
def commitInst (s : State) (i : Inst) : State :=
  let s := noteCommit (applyOuts (applyJournal s i.journal) i.outs) i
  let s := (lastWrites i.reqs).foldl applyReq s
  let s := i.evts.foldl applyEvt s
  let s := endRun (reportInst s i CC.done 0) i.task
  wr (freshTask s i.task) Reg.CSA_TASKSTS_QUAL (qualCode .good) i.task

/-- END (R78, R53): with ADDR set the instance does not commit and ends FAIL_REFUSED ADDR_FAULT; the next instance of
the sequencer starts. -/
def execEndInst (sq : Sq) (s : State) : Host.Outcome State Fault Refusal :=
  .next (match instOf s sq with
    | none => s
    | some i =>
      let s := if hasFlag i .addr then failInst s i CC.failRefused Rsn.addrFault false else commitInst s i
      startNext s sq)

/-! ### The sequencer mapping (R103, R104) -/

/-- The logical sequencers that carry at least one enabled task. -/
def usedLogical (p : Program) : List Nat := (List.range 16).filter fun l => p.tasks.any fun t => t.en && t.lseq.val = l

/-- A physical sequencer is retired. -/
def sqRetired (s : State) (q : Nat) : Bool := rd s Reg.CSA_SQSTS_MSTATE q = mstateCode .retired

/-- The mapping a program would have: present places kept, the rest in ascending order to the lowest free physical
sequencer; none for one left over. -/
def planMap (s : State) (p : Program) : List (Nat × Option Sq) :=
  let used := usedLogical p
  let kept := used.filterMap fun l => match s.csa.map[l]! with
    | some q => if sqRetired s q.val then none else some (l, q)
    | none => none
  let add := used.foldl (fun (acc : List (Nat × Option Sq)) l =>
    if kept.any (·.1 = l) then acc
    else
      let taken := kept.map (·.2) ++ acc.filterMap (·.2)
      acc ++ [(l, (List.finRange 18).find? fun q => !sqRetired s q.val && !taken.contains q)]) []
  kept.map (fun e => (e.1, some e.2)) ++ add

/-- SPARES counts the SPARE sequencers; QUAL is RETIRED while a task is suspended (Table 4.9). -/
def setSpares (s : State) : State :=
  let n := ((List.range 18).filter fun q => rd s Reg.CSA_SQSTS_MSTATE q = mstateCode .spare).length
  let susp := (List.range 64).any fun t => rd s Reg.CSA_TASKSTS_MSTATE t = mstateCode .retired
  wr (wr s Reg.CSA_STATUS_SPARES n) Reg.CSA_STATUS_QUAL (if susp then qualCode .retired else 0)

/-- Suspends the tasks of a logical sequencer that no spare serves (R104). -/
def suspendLogical (s : State) (l : Nat) : State :=
  let ts := ((running s).map (·.tasks)).getD []
  let s := ts.zipIdx.foldl (fun s (t, n) =>
    if t.en && t.lseq.val = l then
      wr (wr s Reg.CSA_TASKSTS_QUAL (qualCode .retired) n) Reg.CSA_TASKSTS_MSTATE (mstateCode .retired) n
    else s) s
  event { s with csa := { s.csa with map := s.csa.map.set! l none } } Ev.seqNoSpare .critical []

/-- The status of a task of a program newly mapped: its MSTATE and QUAL; an enabled task keeps STALE, through a suspension
too, and a first miss until it commits again (R79). -/
def mapTask (s : State) (t : TaskEntry) (n : Nat) : State :=
  let s := if t.en then s else freshTask s n
  let s := wr s Reg.CSA_TASKSTS_QUAL (qualCode (if s.csa.stale.contains n then .stale else .good)) n
  wr s Reg.CSA_TASKSTS_MSTATE (mstateCode (if t.en then .inService else .offline)) n

/-- Maps the running program (in RECALL, at ACTIVATE and at every switch). A SUSPECT sequencer left unmapped keeps
MSTATE until its window closes, and then takes back the state it had before the window (R391): DESIGN CHOICE (log entry
106). -/
def mapSequencers (s : State) : State :=
  match running s with
  | none => s
  | some p =>
    let plan := planMap s p
    let s := { s with csa := { s.csa with map := plan.foldl (fun m e => m.set! e.1 e.2) (Vector.replicate 16 none) } }
    let s := (List.finRange 18).foldl (fun s q =>
      if sqRetired s q.val then s
      else
        let susp := rd s Reg.CSA_SQSTS_MSTATE q.val = mstateCode .suspect
        match plan.find? (·.2 = some q) with
        | some (l, _) => wr (if susp then s else wr s Reg.CSA_SQSTS_MSTATE 0 q.val) Reg.CSA_SQSTS_LSEQ l q.val
        | none => if susp then s else wr s Reg.CSA_SQSTS_MSTATE (mstateCode .spare) q.val) s
    let s := p.tasks.zipIdx.foldl (fun s (t, n) => mapTask s t n) s
    setSpares (plan.foldl (fun s e => if e.2.isNone then suspendLogical s e.1 else s) s)

/-- The logical sequencer of a program that cannot be mapped, if any. -/
def unmappedOf (s : State) (p : Program) : Option Nat := ((planMap s p).find? (·.2.isNone)).map (·.1)

/-- The logical sequencers whose physical one is retired and not yet replaced. -/
def awaitRemap (s : State) : List Nat :=
  (List.range 16).filter fun l => match s.csa.map[l]! with | some q => sqRetired s q.val | none => false

/-- A retirement that leaves a logical sequencer without a spare is a fault of the class in the tick of the retirement:
the mode is judged at the next edge (R104, R393, Table 13.5). -/
def spareCheck (s : State) : State :=
  let spares := (List.range 18).filter fun q => rd s Reg.CSA_SQSTS_MSTATE q = mstateCode .spare
  if spares.length < (awaitRemap s).length then holdCause s .sequencer else s

/-- At the edge after a retirement each logical sequencer it served takes the lowest-numbered spare, or its tasks are
suspended (R103, R104). -/
def remapRetired (s : State) : State :=
  let s := (List.range 16).foldl (fun s l =>
    match s.csa.map[l]! with
    | none => s
    | some q =>
      if sqRetired s q.val then
        match (List.finRange 18).find? fun r => rd s Reg.CSA_SQSTS_MSTATE r.val = mstateCode .spare with
        | some r =>
          wr (wr { s with csa := { s.csa with map := s.csa.map.set! l (some r) } } Reg.CSA_SQSTS_MSTATE 0 r.val)
            Reg.CSA_SQSTS_LSEQ l r.val
        | none => suspendLogical s l
      else s) s
  setSpares s

/-! ### Sequencer faults (R61, R101, R102, R41) -/

/-- The sequencer as a resource. -/
def sqRes (sq : Sq) : Resource := ⟨.sequencer, sq.val⟩

/-- Ends the instance in progress and every waiting one of a sequencer with one outcome. -/
def failAll (s : State) (sq : Sq) (code rsn : Nat) : State :=
  let q := s.csa.seqs[sq]
  let l := (match q.cur with | some i => [i] | none => []) ++ q.queue.map (newInst s)
  let s := { s with csa := { s.csa with seqs := s.csa.seqs.set sq ⟨none, []⟩ } }
  l.foldl (fun s i => failInst s i code rsn true) s

/-- FETCH_ECC_ERROR (R61, R101, R102): the instance ends FAIL_TRANSIENT_EXHAUSTED FETCH_ECC and the rest of the tick
runs in order; a fault that retires the sequencer ends them all FAIL_RESOURCE_RETIRED. The word is rewritten from the
NVS image and PSTORE_REPAIR recorded. -/
def execFetchEccError (sq : Sq) (s : State) : Host.Outcome State Fault Refusal :=
  .next (match instOf s sq with
    | none => s
    | some i =>
      let (s, dead) := upset s (sqRes sq) fun s => spareCheck (failAll s sq CC.failResourceRetired 0)
      let s := if dead then s else startNext (failInst s i CC.failTransientExhausted Rsn.fetchEcc true) sq
      event s Ev.pstoreRepair .warning [])

/-- The commit deadline (R41, R101): every sequencer with an instance not committed at phase 2 has failed. -/
def csaPhase2 (s : State) : State :=
  (List.finRange 18).foldl (fun s sq =>
    match instOf s sq with
    | none => s
    | some _ =>
      let (s, dead) := upset s (sqRes sq) fun s => spareCheck (failAll s sq CC.failResourceRetired 0)
      if dead then s else failAll s sq CC.failBudget 0) s

/-! ### Forces (R83 to R86) -/

/-- The force table's record: in the live FORCE slot (R340). -/
def saveForces (s : State) : State :=
  nvsSave s 3 (.forces s.csa.forces) .forces (if (slotRecord s).force then 0x10000 else 0)

/-- Sets the table and COUNT. -/
def putForces (s : State) (l : List Force) : State :=
  wr { s with csa := { s.csa with forces := l } } Reg.CSA_FRCSTS_COUNT l.length

/-- The end of a force command. -/
def frcEnd (s : State) (code rsn : Nat) : State :=
  setStatus s Reg.CSA_FRCSTS_CC Reg.CSA_FRCSTS_RSN Reg.CSA_FRCSTS_PEND code rsn

/-- A VID as a point of the running program. -/
def pointOfVid (s : State) (vid : Nat) : Option PointDef := (running s).bind fun p => p.points.find? (·.vid = vid)

/-- A force command takes effect (R84, R85): the state and its outcome. That NO_VID comes before FORCE_FULL, and that a
SET on a VID already forced ends DONE with 512 forces in place, is a DESIGN CHOICE (log entry 107). LASTW of a force newly set is the value the
point has in the image, until its task next commits: DESIGN CHOICE (log entry 59). -/
def applyForce (s : State) (b : InBody) : State × Nat × Nat :=
  match b with
  | .forceSet vid v =>
    match pointOfVid s vid with
    | none => (s, CC.failRefused, Rsn.noVid)
    | some d =>
      match s.csa.forces.find? (·.vid = vid) with
      | some f => (saveForces (putForces s (s.csa.forces.map fun g => if g.vid = vid then { f with value := v } else g)),
          CC.done, 0)
      | none =>
        if 512 ≤ s.csa.forces.length then (s, CC.failRefused, Rsn.forceFull)
        else
          let lw := ((tget s.csa.img d.num).map (·.value)).getD 0
          (saveForces (putForces s (s.csa.forces ++ [⟨vid, d.typ, d.num, v, lw⟩])), CC.done, 0)
  | .forceRelease vid =>
    if (pointOfVid s vid).isNone then (s, CC.failRefused, Rsn.noVid)
    else (saveForces (putForces s (s.csa.forces.filter (·.vid ≠ vid))), CC.done, 0)
  | _ => (saveForces (putForces s []), CC.done, 0)

/-- An agreed force command takes effect at its edge; the unit it was written to reports it. -/
def forceInput (s : State) (i : Input) : State :=
  let r := applyForce s i.body
  if mine s i then frcEnd r.1 r.2.1 r.2.2 else r.1

/-- A force command as written (R84, R85): BUSY, BAD_MODE, at once in HALT, else agreed. -/
def forceCmd (s : State) (b : InBody) : State :=
  if rdB s Reg.CSA_FRCSTS_PEND then
    wr (wr s Reg.CSA_FRCSTS_CC CC.failRefused) Reg.CSA_FRCSTS_RSN Rsn.busy
  else match modeIs s with
    | .recall => frcEnd s CC.failRefused Rsn.badMode
    | .test => frcEnd s CC.failRefused Rsn.badMode
    | .resync => frcEnd s CC.failRefused Rsn.badMode
    | .save => frcEnd s CC.failRefused Rsn.badMode
    | .halt => let r := applyForce s b; frcEnd r.1 r.2.1 r.2.2
    | _ => submitHost (wr s Reg.CSA_FRCSTS_PEND 1) Reg.CSA_FRCCMD_CMD b

/-- FORCE_SET: the VID and value of `CSA_FRCVID` and `CSA_FRCVAL`. -/
def execForceSet (s : State) : Host.Outcome State Fault Refusal :=
  .next (forceCmd s (.forceSet (rd s Reg.CSA_FRCVID_VID)
    (BitVec.ofNat 64 (rd64 s Reg.CSA_FRCVAL_LO_VAL Reg.CSA_FRCVAL_HI_VAL))))

/-- FORCE_RELEASE. -/
def execForceRelease (s : State) : Host.Outcome State Fault Refusal :=
  .next (forceCmd s (.forceRelease (rd s Reg.CSA_FRCVID_VID)))

/-- FORCE_RELEASE_ALL. -/
def execForceReleaseAll (s : State) : Host.Outcome State Fault Refusal := .next (forceCmd s .forceReleaseAll)

/-- The forces a new program keeps (R90, R98): those of deleted VIDs are released, those of type-changed VIDs too; the
second component is the released ones with their reason. -/
def splitForces (l : List Force) (p : Program) : List Force × List (Nat × Nat) :=
  l.foldl (fun (k, r) f =>
    match p.points.find? (·.vid = f.vid) with
    | none => (k, r ++ [(f.vid, Rsn.deleted)])
    | some d => if d.typ = f.typ then (k ++ [{ f with point := d.num }], r) else (k, r ++ [(f.vid, Rsn.typeChanged)]))
    ([], [])

/-- Releases forces and records each (R86, R98). -/
def releaseForces (s : State) (l : List Force) (rel : List (Nat × Nat)) : State :=
  let s := putForces s l
  let s := if rel.isEmpty then s else saveForces s
  rel.foldl (fun s e => event s Ev.forceReleased .notice [e.1, e.2]) s

/-- A force stands on a VID whose type the program changes (R90, R97). -/
def typeClash (l : List Force) (p : Program) : Option Nat :=
  (l.find? fun f => p.points.any fun d => d.vid = f.vid && d.typ ≠ f.typ).map (·.vid)

/-- The clash with the force table as it stands. -/
def forceTypeClash (s : State) (p : Program) : Option Nat := typeClash s.csa.forces p

/-- The force table once the commands already agreed for coming edges have taken effect (R97: 'on the state agreed at
that moment'). -/
def agreedForces (s : State) : List Force :=
  let ins := (s.rdu.agreed.flatMap (·.inputs)).filter fun i => match i.body with
    | .forceSet _ _ => true | .forceRelease _ => true | .forceReleaseAll => true | _ => false
  (ins.foldl (fun s i => (applyForce s i.body).1) s).csa.forces

end Sys2Proof.Machine
end

