-- ==== Sys2Proof/Machine/Crypto.lean ====
section
/-! DEFINITION. The digests and the signature check the security chapter names (R406, R408, R409, 20_security.md):
SHA-512, RSASSA-PKCS1-v1_5 with an RSA-4096 key, and CRC-32. Their constants are those of the standards the spec names
(PRESUMED: FIPS 180-4, RFC 8017; log entry 13). -/

namespace Sys2Proof.Machine

/-- The initial hash value of SHA-512. -/
def shaInit : List Word :=
  [0x6A09E667F3BCC908, 0xBB67AE8584CAA73B, 0x3C6EF372FE94F82B, 0xA54FF53A5F1D36F1] ++
  [0x510E527FADE682D1, 0x9B05688C2B3E6C1F, 0x1F83D9ABFB41BD6B, 0x5BE0CD19137E2179]

/-- The round constants of SHA-512, first half. -/
def shaK0 : List Word :=
  [0x428A2F98D728AE22, 0x7137449123EF65CD, 0xB5C0FBCFEC4D3B2F, 0xE9B5DBA58189DBBC] ++
  [0x3956C25BF348B538, 0x59F111F1B605D019, 0x923F82A4AF194F9B, 0xAB1C5ED5DA6D8118] ++
  [0xD807AA98A3030242, 0x12835B0145706FBE, 0x243185BE4EE4B28C, 0x550C7DC3D5FFB4E2] ++
  [0x72BE5D74F27B896F, 0x80DEB1FE3B1696B1, 0x9BDC06A725C71235, 0xC19BF174CF692694] ++
  [0xE49B69C19EF14AD2, 0xEFBE4786384F25E3, 0x0FC19DC68B8CD5B5, 0x240CA1CC77AC9C65] ++
  [0x2DE92C6F592B0275, 0x4A7484AA6EA6E483, 0x5CB0A9DCBD41FBD4, 0x76F988DA831153B5] ++
  [0x983E5152EE66DFAB, 0xA831C66D2DB43210, 0xB00327C898FB213F, 0xBF597FC7BEEF0EE4] ++
  [0xC6E00BF33DA88FC2, 0xD5A79147930AA725, 0x06CA6351E003826F, 0x142929670A0E6E70] ++
  [0x27B70A8546D22FFC, 0x2E1B21385C26C926, 0x4D2C6DFC5AC42AED, 0x53380D139D95B3DF] ++
  [0x650A73548BAF63DE, 0x766A0ABB3C77B2A8, 0x81C2C92E47EDAEE6, 0x92722C851482353B]

/-- The round constants of SHA-512, second half. -/
def shaK1 : List Word :=
  [0xA2BFE8A14CF10364, 0xA81A664BBC423001, 0xC24B8B70D0F89791, 0xC76C51A30654BE30] ++
  [0xD192E819D6EF5218, 0xD69906245565A910, 0xF40E35855771202A, 0x106AA07032BBD1B8] ++
  [0x19A4C116B8D2D0C8, 0x1E376C085141AB53, 0x2748774CDF8EEB99, 0x34B0BCB5E19B48A8] ++
  [0x391C0CB3C5C95A63, 0x4ED8AA4AE3418ACB, 0x5B9CCA4F7763E373, 0x682E6FF3D6B2B8A3] ++
  [0x748F82EE5DEFB2FC, 0x78A5636F43172F60, 0x84C87814A1F0AB72, 0x8CC702081A6439EC] ++
  [0x90BEFFFA23631E28, 0xA4506CEBDE82BDE9, 0xBEF9A3F7B2C67915, 0xC67178F2E372532B] ++
  [0xCA273ECEEA26619C, 0xD186B8C721C0C207, 0xEADA7DD6CDE0EB1E, 0xF57D4F7FEE6ED178] ++
  [0x06F067AA72176FBA, 0x0A637DC5A2C898A6, 0x113F9804BEF90DAE, 0x1B710B35131C471B] ++
  [0x28DB77F523047D84, 0x32CAAB7B40C72493, 0x3C9EBE0A15C9BEBC, 0x431D67C49C100D4C] ++
  [0x4CC5D4BECB3E42B6, 0x597F299CFC657E2A, 0x5FCB6FAB3AD6FAEC, 0x6C44198C4A475817]

/-- The number a list of octets spells, most significant first (RFC 8017, R4). -/
def beNat (bs : List Byte) : Nat := bs.foldl (fun a b => a * 256 + b.toNat) 0

/-- The `n` octets of a number, most significant first. -/
def beBytes (n v : Nat) : List Byte := (leBytes n v).reverse

/-- Splits a list into pieces of `n`, within `fuel` pieces. -/
def pieces (n : Nat) : Nat → List Byte → List (List Byte)
  | 0, _ => []
  | _ + 1, [] => []
  | fuel + 1, l => l.take n :: pieces n fuel (l.drop n)

/-- The padded blocks of a message. -/
def shaBlocks (m : List Byte) : List (List Byte) :=
  let z := (239 - m.length % 128) % 128
  let p := m ++ [0x80] ++ List.replicate z 0 ++ beBytes 16 (8 * m.length)
  pieces 128 (p.length / 128) p

/-- Rotates right. -/
def rotr (x : Word) (n : Nat) : Word := x.rotateRight n

/-- One step of the message schedule: `l` holds the words so far, newest first. -/
def shaNext (l : List Word) : Word :=
  let w2 := (l[1]?).getD 0
  let w7 := (l[6]?).getD 0
  let w15 := (l[14]?).getD 0
  let w16 := (l[15]?).getD 0
  let s0 := rotr w15 1 ^^^ rotr w15 8 ^^^ (w15 >>> 7)
  let s1 := rotr w2 19 ^^^ rotr w2 61 ^^^ (w2 >>> 6)
  w16 + s0 + w7 + s1

/-- The 80 schedule words of a block, newest first. -/
def shaSchedule (b : List Byte) : List Word :=
  let first := ((List.range 16).map fun i => BitVec.ofNat 64 (beNat ((b.drop (8 * i)).take 8))).reverse
  (List.range 64).foldl (fun l _ => shaNext l :: l) first

/-- The eight working variables. -/
structure Sha where
  a : Word
  b : Word
  c : Word
  d : Word
  e : Word
  f : Word
  g : Word
  h : Word
  deriving DecidableEq, Repr

/-- One round. -/
def shaRound (v : Sha) (kw : Word × Word) : Sha :=
  let s1 := rotr v.e 14 ^^^ rotr v.e 18 ^^^ rotr v.e 41
  let ch := (v.e &&& v.f) ^^^ (~~~v.e &&& v.g)
  let t1 := v.h + s1 + ch + kw.1 + kw.2
  let s0 := rotr v.a 28 ^^^ rotr v.a 34 ^^^ rotr v.a 39
  let maj := (v.a &&& v.b) ^^^ (v.a &&& v.c) ^^^ (v.b &&& v.c)
  ⟨t1 + (s0 + maj), v.a, v.b, v.c, v.d + t1, v.e, v.f, v.g⟩

/-- One block. -/
def shaBlock (v : Sha) (b : List Byte) : Sha :=
  let r := ((shaK0 ++ shaK1).zip (shaSchedule b).reverse).foldl shaRound v
  ⟨v.a + r.a, v.b + r.b, v.c + r.c, v.d + r.d, v.e + r.e, v.f + r.f, v.g + r.g, v.h + r.h⟩

/-- SHA-512 of a byte list, 64 octets. -/
def sha512 (m : List Byte) : List Byte :=
  let i := fun n => (shaInit[n]?).getD 0
  let r := (shaBlocks m).foldl shaBlock ⟨i 0, i 1, i 2, i 3, i 4, i 5, i 6, i 7⟩
  [r.a, r.b, r.c, r.d, r.e, r.f, r.g, r.h].flatMap fun w => beBytes 8 w.toNat

/-- The message RSASSA-PKCS1-v1_5 encodes for a SHA-512 digest in 512 octets. -/
def pkcs1 (digest : List Byte) : List Byte :=
  [0x00, 0x01] ++ List.replicate 426 0xFF ++ [0x00] ++
  [0x30, 0x51, 0x30, 0x0D, 0x06, 0x09, 0x60, 0x86, 0x48, 0x01] ++
  [0x65, 0x03, 0x04, 0x02, 0x03, 0x05, 0x00, 0x04, 0x40] ++ digest

/-- x^(2^n) mod m. -/
def squares (m : Nat) : Nat → Nat → Nat
  | 0, x => x
  | n + 1, x => squares m n (x * x % m)

/-- The signature check with exponent 65,537 (Table 20.3). -/
def rsaVerify (modulus signature message : List Byte) : Bool :=
  let n := beNat modulus
  let s := beNat signature
  decide (s < n) && beBytes 512 (squares n 16 s * s % n) == pkcs1 (sha512 message)

/-- One bit of CRC-32, reflected (polynomial 0x04C11DB7). -/
def crc32Bit (c : BitVec 32) : BitVec 32 := if c.getLsbD 0 then (c >>> 1) ^^^ 0xEDB88320 else c >>> 1

/-- CRC-32 as IEEE 802.3 forms it, over bytes. -/
def crc32 (bs : List Byte) : BitVec 32 :=
  ~~~(bs.foldl (fun (c : BitVec 32) (b : Byte) =>
    let c := c ^^^ b.setWidth 32
    crc32Bit (crc32Bit (crc32Bit (crc32Bit (crc32Bit (crc32Bit (crc32Bit (crc32Bit c)))))))) 0xFFFFFFFF)

end Sys2Proof.Machine
end

