-- ==== Sys2Proof/Machine/Image.lean ====
section
/-! DEFINITION. Image containers and what they hold: the checks of Table 20.5, the sections of a program (Tables 4.1,
4.6, 20.4) and of a facet (Tables 9.1, 5.1, 8.8, 10.1, 11.9, 12.1). -/

namespace Sys2Proof.Machine

/-- A bit of a number. -/
def bitOf (v n : Nat) : Bool := bitsOf v n 1 = 1

/-- Every byte of a range of a list is 0. -/
def zeros (bs : List Byte) (off n : Nat) : Bool := ((bs.drop off).take n).all (· = 0)

/-! ### Containers (R406, R407, R409) -/

/-- A section of a container: type, offset, length. -/
structure Sect where
  typ : Nat
  off : Nat
  len : Nat
  deriving DecidableEq, Repr

/-- The used directory entries. -/
def sections (c : List Byte) : List Sect :=
  (List.range (leAt c 7 1)).map fun i => ⟨leAt c (128 + 16 * i) 2, leAt c (132 + 16 * i) 4, leAt c (136 + 16 * i) 4⟩

/-- Sections lie in directory order, aligned, inside the container, with 0 between them; `pos` is where the one before
ended. -/
def sectsOk (c : List Byte) (stop : Nat) : Nat → List Sect → Bool
  | pos, [] => zeros c pos (stop - pos)
  | pos, s :: l => decide (s.off % 8 = 0) && decide (pos ≤ s.off) && decide (s.off + s.len ≤ stop)
      && zeros c pos (s.off - pos) && sectsOk c stop (s.off + s.len) l

/-- Check 1 of Table 20.5. -/
def containerOk (c : List Byte) : Bool :=
  let n := leAt c 7 1
  decide (1288 ≤ c.length) && decide (leAt c 0 4 = 0x4B56494D) && decide (leAt c 5 1 = 1) && decide (1 ≤ n)
    && decide (n ≤ 8) && decide (leAt c 8 4 = c.length) && zeros c 88 40 && zeros c 772 4
    && ((List.range 8).all fun i => zeros c (130 + 16 * i) 2 && zeros c (140 + 16 * i) 4
        && (decide (i < n) || zeros c (128 + 16 * i) 16))
    && sectsOk c (c.length - 512) 776 (sections c)

/-- The sections R407 asks for. -/
def sectionsOk (facet : Bool) (c : List Byte) : Bool :=
  let ts := (sections c).map (·.typ)
  if facet then decide (ts = [0x20])
  else ([0x10, 0x11, 0x12, 0x13, 0x14, 0x15].all fun t => ts.count t = 1)
    && decide (ts.count 0x16 ≤ 1) && ts.all fun t => 0x10 ≤ t && t ≤ 0x16

/-- The image digest: SHA-512 of the payload. -/
def imageDigest (c : List Byte) : List Byte :=
  let first := (((sections c)[0]?).map (·.off)).getD 776
  sha512 ((c.take (c.length - 512)).drop first)

/-- The checks of Table 20.5 in order; none when all pass (R404: a slot whose check fails counts as revoked). -/
def verifyImage (o : Otp) (facet : Bool) (c : List Byte) : Option Nat :=
  let k := leAt c 6 1
  let slot := if h : k < 4 then some o.roots[k] else none
  if !containerOk c then some Rsn.badContainer
  else if leAt c 4 1 ≠ (if facet then 2 else 1) || !sectionsOk facet c then some Rsn.wrongKind
  else match slot with
    | none => some Rsn.keyEmpty
    | some r =>
      match r.digest with
      | none => if r.checkOk then some Rsn.keyEmpty else some Rsn.keyRevoked
      | some d =>
        if r.revoked || !r.checkOk then some Rsn.keyRevoked
        else if sha512 ((c.drop 256).take 520) ≠ d then some Rsn.keyMismatch
        else if leAt c 12 4 < (if facet then o.ffloor else o.pfloor) then some Rsn.rollback
        else if leAt c 16 8 ≠ 0 ∧ leAt c 16 8 ≠ o.devid.toNat then some Rsn.deviceBind
        else if imageDigest c ≠ (c.drop 24).take 64 then some Rsn.digestMismatch
        else if rsaVerify ((c.drop 256).take 512) (c.drop (c.length - 512)) (c.take 776) then none
        else some Rsn.badSignature

/-- The bytes of the section of a type. -/
def sectBytes (c : List Byte) (t : Nat) : Option (List Byte) :=
  ((sections c).find? (·.typ = t)).map fun s => (c.drop s.off).take s.len

/-! ### Programs -/

/-- A space code of Tables 4.1 and 20.4: 0 D, 1 R; any other is read as D, of a segment and of INITDATA: DESIGN CHOICE (log
entry 61). -/
def spaceCode (n : Nat) : Space := if n = 1 then .retained else .data

/-- A point list entry per position. -/
def wordList (bs : List Byte) (off n : Nat) : List Nat := (List.range n).map fun i => leAt bs (off + 4 * i) 4

/-- A task entry as it stands in the section (Table 4.1). -/
def parseTask (bs : List Byte) (i : Nat) : TaskEntry :=
  let b := 48 * i
  let fl := leAt bs b 2
  let sl := leAt bs (b + 28) 4
  let ll := leAt bs (b + 32) 4
  { en := bitOf fl 0, crit := bitOf fl 1, lseq := ⟨bitsOf fl 2 4 % 16, Nat.mod_lt _ (by decide)⟩,
    period := leAt bs (b + 2) 2, offset := leAt bs (b + 4) 2, entry := leAt bs (b + 8) 4, cost := leAt bs (b + 12) 4,
    inList := wordList bs (leAt bs (b + 16) 4) (min (leAt bs (b + 20) 2) 4096),
    outList := wordList bs (leAt bs (b + 24) 4) (min (leAt bs (b + 22) 2) 4096),
    segs := (List.range (min (leAt bs sl 4) bs.length)).map fun j =>
        ⟨spaceCode (leAt bs (sl + 4 + 12 * j) 4), leAt bs (sl + 8 + 12 * j) 4, leAt bs (sl + 12 + 12 * j) 4⟩,
    loops := (List.range (min (leAt bs ll 4) bs.length)).map fun j => leAt bs (ll + 4 + 2 * j) 2 }

/-- BAD_TASK of an entry (R73, Table 4.5), which applies always: to a disabled entry as well (log entry 62). -/
def taskBad (bs : List Byte) (codeLen i : Nat) : Bool :=
  let b := 48 * i
  let t := parseTask bs i
  let sl := leAt bs (b + 28) 4
  let ll := leAt bs (b + 32) 4
  let inN := leAt bs (b + 20) 2
  let outN := leAt bs (b + 22) 2
  decide (64 ≤ leAt bs b 2) || !zeros bs (b + 6) 2 || !zeros bs (b + 36) 12
    || decide (t.period = 0) || decide (t.period ≤ t.offset) || decide (codeLen ≤ t.entry)
    || decide (4096 < inN) || decide (4096 < outN)
    || decide (bs.length < leAt bs (b + 16) 4 + 4 * inN) || decide (bs.length < leAt bs (b + 24) 4 + 4 * outN)
    || decide (bs.length < sl + 4 + 12 * leAt bs sl 4) || decide (bs.length < ll + 4 + 2 * leAt bs ll 4)
    || t.inList.any (32768 ≤ ·) || t.outList.any (32768 ≤ ·) || t.loops.any (1024 ≤ ·)

/-- The binding of a point entry (Table 20.4). -/
def parseBind (w e : Nat) : Bind :=
  match bitsOf w 0 2 with
  | 0 => .local
  | 1 => .vin (bitsOf w 2 11) e
  | 2 => .vout (bitsOf w 2 11) e
  | _ => .cascade (bitsOf w 13 3) (bitsOf w 2 11)

/-- A point entry: number (4), QT and VID (4), binding (2), element index (2), 0 (4). -/
def parsePoint (bs : List Byte) (i : Nat) : PointDef :=
  let b := 16 * i
  ⟨leAt bs b 4, leAt bs (b + 5) 3, bitsOf (leAt bs (b + 4) 1) 4 4, parseBind (leAt bs (b + 8) 2) (leAt bs (b + 10) 2)⟩

/-- A variable entry: QT and VID (4), space (1), 0 (3), address (4), element count (4). -/
def parseVar (bs : List Byte) (i : Nat) : VarDef :=
  let b := 16 * i
  ⟨leAt bs (b + 1) 3, bitsOf (leAt bs b 1) 4 4, spaceCode (leAt bs (b + 4) 1), leAt bs (b + 8) 4, leAt bs (b + 12) 4⟩

/-- Initial-data records, within `fuel` records. -/
def parseInit (bs : List Byte) : Nat → Nat → List InitRec
  | 0, _ => []
  | fuel + 1, o =>
    if bs.length < o + 12 then []
    else
      let n := leAt bs (o + 8) 4
      ⟨spaceCode (leAt bs o 4), leAt bs (o + 4) 4, (bs.drop (o + 12)).take n⟩ :: parseInit bs fuel (o + 12 + n)

/-- A migration map (Table 4.6). -/
def parseMap (bs : List Byte) : MigMap :=
  ⟨(bs.drop 24).take 40, (List.range (min (leAt bs 4 4) 4097)).map fun i =>
    let b := 64 + 24 * i
    let c := leAt bs (b + 4) 4
    ⟨leAt bs b 4, bitsOf c 0 4 + (if c < 256 then 0 else 16), bitsOf c 4 2, bitsOf c 6 2, leAt bs (b + 8) 4,
     leAt bs (b + 12) 4, leAt bs (b + 16) 4⟩⟩

/-- The format of a map's header and entries (Table 4.6). -/
def mapFormOk (bs : List Byte) : Bool :=
  decide (leAt bs 0 4 = 0x4D494752) && decide (leAt bs 4 4 ≤ 4096) && decide (bs.length = 64 + 24 * leAt bs 4 4)
    && zeros bs 8 16

/-- The fields of TBC_TICKCFG in SETTINGS. -/
def parseSettings (bs : List Byte) : Settings :=
  ⟨bitsOf (leAt bs 0 4) 0 8, bitsOf (leAt bs 0 4) 8 8, BitVec.ofNat 32 (leAt bs 4 4), bitsOf (leAt bs 8 4) 0 12,
   (List.range 16).map fun i => leAt bs (12 + 2 * i) 2⟩

/-- A program read out of its container. -/
def parseProgram (c : List Byte) : Program :=
  let sec := fun t => (sectBytes c t).getD []
  let code := sec 0x11
  let pts := sec 0x13
  let vs := sec 0x14
  { digest := imageDigest c, svn := leAt c 12 4, keyIdx := leAt c 6 1, settings := parseSettings (sec 0x10),
    code := (List.range (code.length / 8)).map fun i => BitVec.ofNat 64 (leAt code (8 * i) 8),
    tasks := (List.range 64).map (parseTask (sec 0x12)),
    points := (List.range (pts.length / 16)).map (parsePoint pts),
    vars := (List.range (vs.length / 16)).map (parseVar vs),
    init := parseInit (sec 0x15) (sec 0x15).length 0,
    map := (sectBytes c 0x16).map parseMap, raw := c }

/-! ### Facets -/

/-- Where the section of a type stands in a facet payload and the length it declares (R211): the directory of the
64-byte header gives the offset, the section begins with its length. -/
def facetPlace (p : List Byte) (t : Nat) : Option (Nat × Nat) :=
  ((List.range (min (leAt p 4 4) 7)).find? fun i => leAt p (8 + 8 * i) 2 = t).map fun i =>
    let o := leAt p (12 + 8 * i) 4
    (o, leAt p o 4)

/-- The content of a section of a facet payload. -/
def facetSect (p : List Byte) (t : Nat) : Option (List Byte) :=
  (facetPlace p t).map fun (o, n) => (p.drop (o + 4)).take n

/-- The structure of R211: seven sections, each once, of the sizes of Table 9.1, inside the payload. -/
def facetForm (p : List Byte) : Bool :=
  let size := fun t n => match facetPlace p t with
    | some (o, m) => decide (m = n) && decide (o + 4 + m ≤ p.length)
    | none => false
  let safe := (facetSect p 2).getD []
  decide (leAt p 0 4 = 0x46435431) && decide (leAt p 4 4 = 7)
    && ((List.range 7).all fun i => zeros p (10 + 8 * i) 2)
    && (((List.range 7).map fun i => leAt p (8 + 8 * i) 2).Perm [1, 2, 3, 4, 5, 6, 7] : Bool)
    && size 1 64 && size 3 65536 && size 4 7152 && size 5 1536 && size 6 2048 && size 7 256
    && size 2 (8 + 16 * leAt safe 0 4) && decide (leAt safe 0 4 ≤ 4096) && zeros safe 4 4

/-- A wiring record (Table 5.1). -/
def parseWire (bs : List Byte) (n : Nat) : Wire :=
  let b := 64 * n
  let fl := leAt bs b 2
  let ff := leAt bs (b + 16) 4
  { en := bitOf fl 0, crit := bitOf fl 1, initMode := bitsOf fl 2 2, cascTrack := bitOf fl 4, spKind := bitsOf fl 5 2,
    group := bitsOf fl 7 4, period := leAt bs (b + 2) 2, offset := leAt bs (b + 4) 2, pvPt := leAt bs (b + 8) 4,
    spRef := leAt bs (b + 12) 4, ffPt := if ff = 0xFFFFFFFF then none else some ff, outPt := leAt bs (b + 20) 4,
    initSp := signedOf 32 (leAt bs (b + 24) 4), initMan := signedOf 32 (leAt bs (b + 28) 4) }

/-- BAD_LOOP of a record (Table 5.2), enabled or not (log entry 62). SPREF is a point number with SPKIND 1 only. -/
def wireBad (bs : List Byte) (n : Nat) : Bool :=
  let b := 64 * n
  let w := parseWire bs n
  let pt := fun p => decide (32768 ≤ p)
  decide (2048 ≤ leAt bs b 2) || !zeros bs (b + 6) 2 || !zeros bs (b + 32) 32
    || decide (w.period = 0) || decide (w.period ≤ w.offset) || pt w.pvPt || pt w.outPt
    || (decide (w.spKind = 1) && pt w.spRef) || (match w.ffPt with | some p => pt p | none => false)
    || decide (w.spKind = 3) || decide (w.initMode = 3)

/-- The METER section (Table 8.8). The spec gives the fields and the sizes of each scope and not their offsets; they are
laid out in the order of Table 8.8 (log entry 15). -/
def parseMeter (bs : List Byte) : MeterCfg :=
  let feeder := fun f =>
    let b := 32 + 32 * f
    ({ en := bitOf (leAt bs b 1) 0, fnom := leAt bs (b + 1) 1, n := leAt bs (b + 2) 2,
       vfs := BitVec.ofNat 32 (leAt bs (b + 4) 4), ifs := BitVec.ofNat 32 (leAt bs (b + 8) 4),
       vnom := BitVec.ofNat 32 (leAt bs (b + 12) 4), refPh := leAt bs (b + 16) 1, dcBlk := bitOf (leAt bs (b + 17) 1) 0 }
      : FeederCfg)
  let therm := fun h =>
    let b := 1056 + 48 * h
    let dir := leAt bs (b + 16) 4
    ({ en := bitOf (leAt bs b 1) 0, cool := bitOf (leAt bs (b + 1) 1) 0, fromPoint := bitOf (leAt bs (b + 2) 1) 0,
       flowReturn := bitOf (leAt bs (b + 3) 1) 0, flowRef := leAt bs (b + 4) 4, vpp := BitVec.ofNat 64 (leAt bs (b + 8) 8),
       dirPt := if dir = 0xFFFFFFFF then none else some dir, tsPt := leAt bs (b + 20) 4, trPt := leAt bs (b + 24) 4,
       table := leAt bs (b + 28) 4, dtMin := BitVec.ofNat 32 (leAt bs (b + 32) 4), step := leAt bs (b + 36) 4,
       hoff := leAt bs (b + 40) 4, hlatch := leAt bs (b + 44) 2, holdMax := leAt bs (b + 46) 2 } : ThermCfg)
  { div := leAt bs 0 2, sampDly := leAt bs 2 1, ptBase := leAt bs 4 4, savePeriod := leAt bs 8 2,
    tolRel := leAt bs 12 2, tolAbs := leAt bs 14 2, feeders := (List.range 32).map feeder,
    therms := (List.range 64).map therm,
    pulses := (List.range 32).map fun p => ⟨bitOf (leAt bs (4128 + 4 * p) 1) 0, leAt bs (4129 + 4 * p) 1⟩,
    tables := (List.range 362).map fun i =>
      (BitVec.ofNat 32 (leAt bs (4256 + 8 * i) 4), BitVec.ofNat 32 (leAt bs (4260 + 8 * i) 4)) }

/-- A bus record (Table 10.1). -/
def parseBus (bs : List Byte) (n : Nat) : BusRec :=
  let b := 64 * n
  let fl := leAt bs b 2
  { en := bitOf fl 0, mode := bitsOf fl 1 2, brs := bitOf fl 3, txOrder := bitOf fl 4, tb2Host := bitOf fl 5,
    tdcEn := bitOf fl 6, nbrp := leAt bs (b + 2) 2, ntseg1 := leAt bs (b + 4) 2, ntseg2 := leAt bs (b + 6) 1,
    nsjw := leAt bs (b + 7) 1, dbrp := leAt bs (b + 8) 1, dtseg1 := leAt bs (b + 9) 1, dtseg2 := leAt bs (b + 10) 1,
    dsjw := leAt bs (b + 11) 1, tdco := leAt bs (b + 12) 1, clashN := leAt bs (b + 13) 1,
    probeId := bitsOf (leAt bs (b + 14) 2) 0 11 }

/-- The rules of Table 10.2, of every record, enabled or not (log entry 62). -/
def busBad (bs : List Byte) (n : Nat) : Bool :=
  let b := 64 * n
  let r := parseBus bs n
  let nom := r.nbrp * (1 + r.ntseg1 + r.ntseg2)
  let dat := r.dbrp * (1 + r.dtseg1 + r.dtseg2)
  let rng := fun v lo hi => decide (v < lo) || decide (hi < v)
  decide (128 ≤ leAt bs b 2) || !zeros bs (b + 16) 48 || decide (2048 ≤ leAt bs (b + 14) 2)
    || decide (r.mode = 3) || rng r.nbrp 1 32 || rng r.ntseg1 2 256 || rng r.ntseg2 1 128 || rng r.nsjw 1 128
    || rng r.dbrp 1 32 || rng r.dtseg1 1 32 || rng r.dtseg2 1 16 || rng r.dsjw 1 16 || rng r.tdco 0 127
    || rng nom 80 8000 || rng dat 10 nom || decide (r.ntseg2 < r.nsjw) || decide (r.dtseg2 < r.dsjw)
    || (r.brs && decide (dat < 80) && !r.tdcEn)

/-- A port record (Table 12.1). Addresses and MACs are taken in wire order, first octet most significant. -/
def parsePort (bs : List Byte) (p : Nat) : PortRec :=
  let b := 128 * p
  let fl := leAt bs b 2
  let be := fun o n => beNat ((bs.drop (b + o)).take n)
  { en := bitOf fl 0, ifMode := bitsOf fl 1 2, ipv4 := bitOf fl 3, ipv6 := bitOf fl 4, vlanEn := bitOf fl 5,
    ptpMaster := bitOf fl 6, twoStep := bitOf fl 7, speeds := leAt bs (b + 2) 1, ptpDom := leAt bs (b + 3) 1,
    vlan := leAt bs (b + 4) 2, macA := BitVec.ofNat 48 (be 8 6), macB := BitVec.ofNat 48 (be 14 6),
    ip4A := BitVec.ofNat 32 (be 20 4), ip4B := BitVec.ofNat 32 (be 24 4), ip4Pfx := leAt bs (b + 28) 1,
    ip6Pfx := leAt bs (b + 29) 1, logSync := signedOf 8 (leAt bs (b + 30) 1), prio1 := leAt bs (b + 31) 1,
    ip4Grp := BitVec.ofNat 32 (be 32 4), ip6A := BitVec.ofNat 128 (be 36 16), ip6B := BitVec.ofNat 128 (be 52 16),
    ip6Grp := BitVec.ofNat 128 (be 68 16), txLat := leAt bs (b + 84) 2, rxLat := leAt bs (b + 86) 2 }

/-- A field out of range or a reserved byte other than 0 (R275), of every record, enabled or not (log entry 62). -/
def portBad (bs : List Byte) (p : Nat) : Bool :=
  let b := 128 * p
  let r := parsePort bs p
  let rng := fun v lo hi => decide (v < lo) || decide (hi < v)
  let group := fun (m : BitVec 48) => m.getLsbD 40
  decide (256 ≤ leAt bs b 2) || !zeros bs (b + 6) 2 || !zeros bs (b + 88) 40
    || decide (r.ifMode = 3) || (if r.ifMode = 0 then rng r.speeds 1 7 else decide (r.speeds ≠ 0))
    || decide (127 < r.ptpDom) || rng (r.vlan % 4096) 1 4094 || decide (32768 ≤ r.vlan)
    || group r.macA || group r.macB
    || rng r.ip4Pfx 8 30 || decide (r.ip4Grp.toNat / 2 ^ 28 ≠ 0xE)
    || rng r.ip6Pfx 16 128 || decide (r.ip6Grp.toNat / 2 ^ 120 ≠ 0xFF)
    || (r.ptpMaster && (decide (r.logSync < -7) || decide (0 < r.logSync)))
    || decide (2000 < r.txLat) || decide (2000 < r.rxLat)

/-- Two enabled ports of one side share a unicast address (R275). -/
def portsShare (l : List PortRec) : Bool :=
  let en := l.filter (·.en)
  let dup := fun (xs : List Nat) => decide (¬ xs.Nodup)
  dup (en.map (·.macA.toNat)) || dup (en.map (·.macB.toNat))
    || dup ((en.filter (·.ipv4)).map (·.ip4A.toNat)) || dup ((en.filter (·.ipv4)).map (·.ip4B.toNat))
    || dup ((en.filter (·.ipv6)).map (·.ip6A.toNat)) || dup ((en.filter (·.ipv6)).map (·.ip6B.toNat))

/-- The VERTEX section (Table 11.9). -/
def parseVertex (bs : List Byte) : VertexCfg :=
  let fl := leAt bs 12 1
  ⟨leAt bs 0 2, leAt bs 2 1, leAt bs 3 1, leAt bs 4 1, leAt bs 5 1, leAt bs 6 2, leAt bs 8 2, leAt bs 10 2,
   bitOf fl 0, bitOf fl 1, bitOf fl 2⟩

/-- A value of the VERTEX section out of range (R273). -/
def vertexBad (bs : List Byte) : Bool :=
  let v := parseVertex bs
  decide (v.udpPort = 0) || decide (v.cw < 2) || decide (15 < v.retry) || decide (v.ackTo < 4) || decide (v.missMax < 2)
    || decide (v.rpMin = 0) || decide (v.rpMax < v.rpMin) || decide (v.maxFrame < 48) || decide (1472 < v.maxFrame)
    || decide (8 ≤ leAt bs 12 1) || !zeros bs 13 243

/-- POLICY (Table 9.1): a reserved byte not 0, FAULTMAP of TIMEBASE not 1, or a FAULTMAP byte not 0 or 1. -/
def policyBad (bs : List Byte) : Bool :=
  decide (2 ≤ leAt bs 0 4) || decide (leAt bs 4 1 ≠ 1) || ((List.range 16).any fun i => 1 < leAt bs (4 + i) 1)
    || !zeros bs 16 4 || !zeros bs 23 1 || !zeros bs 26 38

/-- A facet read out of its container. -/
def parseFacet (c : List Byte) : Facet :=
  let p := (sectBytes c 0x20).getD []
  let sec := fun t => (facetSect p t).getD []
  let pol := sec 1
  let safe := sec 2
  { digest := imageDigest c, svn := leAt c 12 4, keyIdx := leAt c 6 1, autostart := bitOf (leAt pol 0 1) 0,
    faultMap := (List.range 16).map fun i => leAt pol (4 + i) 1, fbcCrit := BitVec.ofNat 24 (leAt pol 20 3),
    npcCrit := BitVec.ofNat 16 (leAt pol 24 2),
    safe := (List.range (min (leAt safe 0 4) 4096)).map fun i =>
      (leAt safe (8 + 16 * i) 4, BitVec.ofNat 64 (leAt safe (16 + 16 * i) 8)),
    loops := (List.range 1024).map (parseWire (sec 3)), meter := parseMeter (sec 4),
    buses := (List.range 24).map (parseBus (sec 5)), ports := (List.range 16).map (parsePort (sec 6)),
    vertex := parseVertex (sec 7), raw := c }

end Sys2Proof.Machine
end

