-- ==== Sys2Proof/Machine/Loader.lean ====
section
/-! DEFINITION. The loader (R58 to R60, R70 to R72, R39, R40, R87 to R89, R91 to R95) and the rules that relate a facet
to a program (R107, R201, R212): each check gives the first item it refuses. -/

namespace Sys2Proof.Machine

/-- A refusal that names one item. -/
def refuse (rsn kind item : Nat) : Refuse := ⟨rsn, kind, item, none, none⟩

/-- The first of several checks that refuses. -/
def firstOf (l : List (Option Refuse)) : Option Refuse := l.findSome? id

/-! ### Words as the loader reads them -/

/-- A code word: address, OP, whether it is guarded, and its immediate. -/
structure KW where
  a : Nat
  op : Nat
  gd : Bool
  imm : BitVec 32
  deriving DecidableEq, Repr

/-- The code of a program with its addresses. -/
def kwords (code : List Word) : List KW :=
  code.zipIdx.map fun (w, a) => let f := kUnpack w; ⟨a, f.op.toNat, decide (f.g = 1), f.imm⟩

/-- BOUND and BODY of a LOOP word. -/
def kBound (w : KW) : Nat := (w.imm.extractLsb' 16 16).toNat
def kBody (w : KW) : Nat := (w.imm.extractLsb' 0 16).toNat

/-- The word after the body of a LOOP. -/
def kAfter (w : KW) : Nat := w.a + kBody w + 1

/-- Where a BR or CALL goes. -/
def kTarget (w : KW) : Int := w.a + w.imm.toInt

/-- The LOOP whose body is the innermost around each word: its address and the word after its body; and whether a body
is badly nested, empty or past the end (R58). -/
def nesting (n : Nat) : List (Nat × Nat) → List KW → List (Option (Nat × Nat) × Bool)
  | _, [] => []
  | st, w :: l =>
    let st := st.filter fun b => decide (w.a < b.2)
    let here := st.head?
    if w.op = 0x04 then
      let e := kAfter w
      let bad := decide (kBound w = 0) || decide (kBody w = 0) || decide (n < e)
        || (match here with | some b => decide (b.2 < e) | none => false)
      (here, bad) :: nesting n ((w.a, e) :: st) l
    else (here, false) :: nesting n st l

/-- A code word with the innermost body around it. -/
structure KN where
  w : KW
  inn : Option (Nat × Nat)
  bad : Bool
  deriving DecidableEq, Repr

/-- The words with their nesting. -/
def nested (ws : List KW) : List KN :=
  (ws.zip (nesting ws.length [] ws)).map fun (w, x) => ⟨w, x.1, x.2⟩

/-! ### Longest paths (R70, R71) -/

/-- Cycles of an instruction (Tables 3.5 to 3.13); a LOOP's closing cycles and END are counted apart. -/
def kCost (w : KW) : Nat :=
  match w.op with
  | 0x1C | 0x1D | 0x1E => 3
  | 0x1F | 0x20 | 0x21 => 34
  | 0x3B => 2
  | 0x40 | 0x41 | 0x42 => 3
  | 0x43 => 4
  | 0x44 => 14
  | 0x45 => 16
  | 0x46 | 0x47 | 0x48 => 2
  | 0x49 => 3
  | 0x50 | 0x51 => 2
  | 0x53 => 3
  | 0x54 => 2
  | 0x02 => 0
  | 0x03 | 0x04 => 2
  | 0x05 | 0x06 => 3
  | 0x5A | 0x5B | 0x5C => 6
  | 0x5D | 0x5E => 4
  | 0x5F => 3
  | 0x60 => 40
  | 0x68 | 0x6A | 0x6C | 0x71 => 3
  | 0x69 | 0x6B | 0x6E => 2
  | 0x6D => 4 + w.imm.toNat
  | 0x6F => 6
  | 0x70 => 4 + (w.imm.toNat + 7) / 8
  | _ => 1

/-- Journal entries of an instruction (Tables 3.9 and 3.11). -/
def kJournal (w : KW) : Nat :=
  match w.op with
  | 0x52 | 0x5F => 1
  | 0x5A | 0x5B | 0x5C | 0x5D | 0x5E | 0x60 => 2
  | 0x6D => w.imm.toNat
  | _ => 0

/-- Engine requests of an instruction. -/
def kRequests (w : KW) : Nat :=
  match w.op with
  | 0x69 | 0x6B | 0x6E | 0x70 => 1
  | _ => 0

/-- The figures of a word on a path that opened the innermost body around it (`inn`, up to the end of that body), and on
one that did not, having come in by an ENTRY or a CALL (`thr`, past the end of every body around it). A body opened on
the path is left only at its end (R58), so no path needs a third figure. -/
structure Fig where
  inn : Nat
  thr : Nat
  deriving DecidableEq, Repr, Inhabited

/-- The figures of word `t` reached from word `x`: `inn` is 0 at the end of the innermost body around `x`, both are
`past` beyond the code. `acc` holds the figures of the words after `x`. -/
def ahead (past : Nat) (x : KN) (acc : List Fig) (t : Nat) : Fig :=
  let f := (acc[t - x.w.a - 1]?).getD ⟨past, past⟩
  match x.inn with
  | some b => if t = b.2 then ⟨0, f.thr⟩ else f
  | none => f

/-- The figures of every word, from the last to the first: `step` combines, for one word, the figure of its next word,
of its branch target, of its loop body, of the word after that body and of the routine it calls. `rt` holds the
figures of the pass before, for CALL targets. A routine is entered by its CALL, so its figure is `thr`. -/
def figures (past : Nat) (rt : List Fig) (step : KW → Nat → Nat → Nat → Nat → Nat → Nat) (ws : List KN) : List Fig :=
  ws.foldr (fun x (acc : List Fig) =>
    let nx := ahead past x acc (x.w.a + 1)
    let tg := ahead past x acc (kTarget x.w).toNat
    let af := ahead past x acc (kAfter x.w)
    let body := ((acc.head?).getD (⟨past, past⟩ : Fig)).inn
    let call := ((rt[(kTarget x.w).toNat]?).getD (⟨0, 0⟩ : Fig)).thr
    ⟨step x.w nx.inn tg.inn body af.inn call, step x.w nx.thr tg.thr body af.thr call⟩ :: acc) []

/-- The longest path from each word to the end of its body, its END or its RET (R70); `own` is the weight of an
instruction, `close` of a closing iteration. -/
def longest (own : KW → Nat) (close : Nat) (rt : List Fig) (ws : List KN) : List Fig :=
  figures 0 rt (fun w nx tg body af call =>
    match w.op with
    | 0x02 => own w
    | 0x03 => own w + (if w.gd then max tg nx else tg)
    | 0x04 => own w + kBound w * (body + close) + af
    | 0x05 => own w + call + nx
    | 0x06 => own w + (if w.gd then nx else 0)
    | _ => own w + nx) ws

/-- LOOPs open at once on any path from each word, those open before it left out. -/
def openLoops (rt : List Fig) (ws : List KN) : List Fig :=
  figures 0 rt (fun w nx tg body af call =>
    match w.op with
    | 0x02 => 0
    | 0x03 => if w.gd then max tg nx else tg
    | 0x04 => max (1 + body) af
    | 0x05 => max call nx
    | 0x06 => if w.gd then nx else 0
    | _ => nx) ws

/-- CALLs open at once on any path from each word; a cycle of calls grows without bound. -/
def callDepth (rt : List Fig) (ws : List KN) : List Fig :=
  figures 0 rt (fun w nx tg body af call =>
    match w.op with
    | 0x02 => 0
    | 0x03 => if w.gd then max tg nx else tg
    | 0x04 => max body af
    | 0x05 => max (1 + call) nx
    | 0x06 => if w.gd then nx else 0
    | _ => nx) ws

/-- Repeats a pass. Ten passes reach every call chain of eight levels. -/
def passes (f : List Fig → List Fig) : Nat → List Fig
  | 0 => f []
  | n + 1 => f (passes f n)

/-- Whether a path from each word, calls stepped past, reaches a word of an OP (1) or not (0); a path past the code
counts for END. -/
def reachesOp (op : Nat) (ws : List KN) : List Fig :=
  figures (if op = 0x02 then 1 else 0) [] (fun w nx tg body af _ =>
    if w.op = op then 1
    else match w.op with
    | 0x02 => 0
    | 0x03 => if w.gd then max tg nx else tg
    | 0x04 => max body af
    | 0x06 => if w.gd then nx else 0
    | _ => nx) ws

/-- The figure of a path that starts at a word: an ENTRY or the target of a CALL. -/
def figAt (l : List Fig) (a : Nat) : Nat := ((l[a]?).getD ⟨0, 0⟩).thr

/-- One forward pass of reachability: words reached by flow and words called. -/
def reachPass (ws : List KN) (r : List Nat × List Nat) : List Nat × List Nat :=
  ws.foldl (fun r x =>
    if r.1.contains x.w.a || r.2.contains x.w.a then
      let add := fun (l : List Nat) t => if l.contains t then l else t :: l
      match x.w.op with
      | 0x02 => r
      | 0x03 => let f := add r.1 (kTarget x.w).toNat; (if x.w.gd then add f (x.w.a + 1) else f, r.2)
      | 0x04 => (add (add r.1 (x.w.a + 1)) (kAfter x.w), r.2)
      | 0x05 => (add r.1 (x.w.a + 1), add r.2 (kTarget x.w).toNat)
      | 0x06 => (if x.w.gd then add r.1 (x.w.a + 1) else r.1, r.2)
      | _ => (add r.1 (x.w.a + 1), r.2)
    else r) r

/-- Words reached by flow from an entry, and words called on the way. -/
def reachFrom (ws : List KN) (entry : Nat) : List Nat × List Nat :=
  (List.range 10).foldl (fun r _ => reachPass ws r) ([], [entry])

/-- Enabled tasks with their numbers. -/
def enTasks (p : Program) : List (Nat × TaskEntry) := (p.tasks.zipIdx.map fun (t, i) => (i, t)).filter (·.2.en)

/-! ### Structure (R72) -/

/-- The lowest-numbered enabled task whose paths hold a word. -/
def taskOfWord (p : Program) (ws : List KN) (a : Nat) : Option Nat :=
  ((enTasks p).find? fun (_, t) => let r := reachFrom ws t.entry; r.1.contains a || r.2.contains a).map (·.1)

/-- The refusal of a word: `CSA_OLCREF` names the word, the record of the refusal the task as well (R72). -/
def refuseAt (rsn : Nat) (p : Program) (ws : List KN) (a : Nat) : Refuse :=
  { rsn := rsn, kind := 2, item := a, task := taskOfWord p ws a, word := some a }

/-- The first word a test refuses. -/
def refuseWord (rsn : Nat) (p : Program) (ws : List KN) (f : KN → Bool) : Option Refuse :=
  (ws.find? f).map fun x => refuseAt rsn p ws x.w.a

/-- LOOP_STRUCTURE (R58). Of LOOPs nested too deep, through calls as well, the outermost one of the nest is named. -/
def badLoopWord (opens : List Fig) (ws : List KN) (x : KN) : Bool :=
  let innOf := fun t => (ws[t]?).bind (·.inn)
  x.bad || (x.inn.isSome && (decide (x.w.op = 0x02) || decide (x.w.op = 0x06)))
    || (decide (x.w.op = 0x03) && decide (innOf (kTarget x.w).toNat ≠ x.inn)
        && (x.inn.isSome || decide ((kTarget x.w).toNat < ws.length)))
    || (decide (x.w.op = 0x04) && decide (4 < 1 + ((opens[x.w.a + 1]?).getD ⟨0, 0⟩).inn))

/-- CALL_STRUCTURE (R59). A routine that does not end at its RET is named by its CALL, and a RET outside a routine by the
ENTRY it is reached from: DESIGN CHOICE (log entry 95). -/
def badCallWord (depth toEnd toRet : List Fig) (entries : List Nat) (n : Nat) (x : KN) : Bool :=
  (decide (x.w.op = 0x05) &&
    (decide (kTarget x.w < 0) || decide ((n : Int) ≤ kTarget x.w) || decide (figAt toEnd (kTarget x.w).toNat = 1)
      || decide (8 ≤ figAt depth (kTarget x.w).toNat)))
    || (entries.contains x.w.a && decide (figAt toRet x.w.a = 1))

/-- The structure checks of Table 3.15, in its order, the lowest word named (DEDUCED, log entry 95). Two enabled tasks
may have one ENTRY word: the path of one does not reach 'the ENTRY word of any other task' by starting there (R60;
DESIGN CHOICE, log entry 50). -/
def checkStructure (p : Program) : Option Refuse :=
  let ws := nested (kwords p.code)
  let n := ws.length
  let depth := passes (fun r => callDepth r ws) 10
  let opens := passes (fun r => openLoops r ws) 10
  let toEnd := reachesOp 0x02 ws
  let toRet := reachesOp 0x06 ws
  let entries := (enTasks p).map (·.2.entry)
  let journal := passes (fun r => longest kJournal 0 r ws) 10
  let requests := passes (fun r => longest kRequests 0 r ws) 10
  firstOf [
    ((p.code.zipIdx.find? fun (w, _) => (kDecode 0 w).isNone).map fun (_, a) => refuseAt Rsn.badEncoding p ws a),
    refuseWord Rsn.backBranch p ws fun x => decide (x.w.op = 0x03) && decide (x.w.imm.toInt < 1),
    refuseWord Rsn.loopStructure p ws (badLoopWord opens ws),
    refuseWord Rsn.callStructure p ws (badCallWord depth toEnd toRet entries n),
    ((enTasks p).findSome? fun (i, t) =>
      let others := entries.filter (· ≠ t.entry)
      if (reachFrom ws t.entry).1.any fun a => decide (n ≤ a) || others.contains a then
        some { rsn := Rsn.noEnd, kind := 2, item := t.entry, task := some i, word := some t.entry } else none),
    ((enTasks p).findSome? fun (i, t) =>
      if 2048 < figAt journal t.entry ∨ 256 < figAt requests t.entry then
        some { rsn := Rsn.storeBudget, kind := 1, item := i, task := some i, word := some t.entry } else none)]

/-- The worst-case cost W of a task (R70). -/
def worstCost (p : Program) (t : TaskEntry) : Nat :=
  let ws := nested (kwords p.code)
  40 + figAt (passes (fun r => longest kCost 1 r ws) 10) t.entry + 24

/-! ### Tasks, points, segments, loops (Table 4.5) -/

/-- An input source produces the point: a Vertex input, an import, or an MTE point (Table 8.9). -/
def sourcePoint (p : Program) (f : Option Facet) (n : Nat) : Bool :=
  let own := p.tasks.any fun t => t.outList.contains n
  let loops := loopOutput f n
  (p.points.any fun d => d.num = n && (match d.bind with
    | .vin .. => true | .cascade .. => !own && !loops | _ => false))
  || (match f with | some f => f.meter.ptBase ≤ n && n < f.meter.ptBase + 1098 | none => false)

/-- The space sizes of R94. -/
def spaceSize : Space → Nat
  | .data => 0x800000 | .retained => 0x10000

/-- Two ranges overlap. -/
def overlap (a n b m : Nat) : Bool := decide (a < b + m) && decide (b < a + n) && decide (0 < n) && decide (0 < m)

/-- The first member a list has twice over its sublists. -/
def twice : List Nat → Option Nat
  | [] => none
  | x :: l => if l.contains x then some x else twice l

/-- The task table checks that apply always (Table 4.5), to every entry, enabled or not. -/
def checkTasks (p : Program) (f : Option Facet) : Option Refuse :=
  let bs := (sectBytes p.raw 0x12).getD []
  let all := p.tasks.zipIdx.map fun (t, i) => (i, t)
  let segs := all.flatMap fun (i, t) => t.segs.map fun g => (i, g)
  firstOf [
    (if 786432 < p.raw.length then some (refuse Rsn.imageSize 0 0) else none),
    ((List.range 64).find? (taskBad bs p.code.length)).map fun i => (refuse Rsn.badTask 1 i),
    (match twice (all.flatMap fun (_, t) => t.outList.eraseDups) with
     | some n => some (refuse Rsn.pointOwner 5 n)
     | none => ((all.flatMap fun (_, t) => t.outList).find? (sourcePoint p f)).map fun n =>
         (refuse Rsn.pointOwner 5 n)),
    (segs.findSome? fun (i, g) =>
      if spaceSize g.space < g.base + g.len
        || segs.any (fun (j, h) => i ≠ j && g.space = h.space && overlap g.base g.len h.base h.len)
      then some (refuse Rsn.segmentOverlap 1 i) else none),
    (match twice (all.flatMap fun (_, t) => t.loops.eraseDups) with
     | some l => some (refuse Rsn.loopOwner 1 (((all.find? fun (_, t) => t.loops.contains l).map (·.1)).getD 0))
     | none => none)]

/-- CASCADE_BIND (R327): a binding of an output point, of a task or a loop of the facet, is an export, any other an
import. -/
def checkCascade (p : Program) (f : Option Facet) (own : Nat) : Option Refuse :=
  let isOut := fun n => (p.tasks.any fun t => t.outList.contains n) || loopOutput f n
  let bad := p.points.find? fun d => match d.bind with
    | .cascade m i => decide (1023 < i) || (!isOut d.num && decide (m = own))
    | _ => false
  let exports := p.points.filter fun d => match d.bind with | .cascade .. => isOut d.num | _ => false
  match bad with
  | some d => some (refuse Rsn.cascadeBind 5 d.num)
  | none => if 1024 < exports.length then some (refuse Rsn.cascadeBind 5 (((exports[1024]?).map (·.num)).getD 0)) else none

/-! ### Budget (R39, R40) -/

/-- The hyperperiod of a list of tasks. -/
def hyper (l : List TaskEntry) : Nat := l.foldl (fun h t => Nat.lcm h t.period) 1

/-- The load of a tick. -/
def loadAt (l : List TaskEntry) (k : Nat) : Nat :=
  (l.filter fun t => (k + t.period - t.offset % t.period) % t.period = 0).foldl (fun a t => a + t.cost) 0

/-- The largest load of a sequencer and the lowest residue that has it (R40). -/
def tickLoad (l : List TaskEntry) : Nat × Nat :=
  let h := hyper l
  if h ≤ 65536 then
    (List.range h).foldl (fun (b : Nat × Nat) k => if b.1 < loadAt l k then (loadAt l k, k) else b) (0, 0)
  else (l.foldl (fun a t => a + t.cost) 0, 0xFFFFFF)

/-- The budget check of R40 at a tick length in ns. -/
def checkBudget (p : Program) (tick : Nat) : Option Refuse :=
  (List.range 16).findSome? fun s =>
    let l := ((enTasks p).map (·.2)).filter fun t => t.lseq.val = s
    let b := tickLoad l
    if tick * 9 / 10 < b.1 then some (refuse Rsn.overBudget 7 (s * 2 ^ 24 + b.2)) else none

/-- COST_MISMATCH (R88). -/
def checkCost (p : Program) : Option Refuse :=
  (enTasks p).findSome? fun (i, t) => if t.cost ≠ worstCost p t then some (refuse Rsn.costMismatch 1 i) else none

/-! ### Wiring (R106, R107, R116) -/

/-- A loop of a facet. -/
def wireOf (f : Facet) (n : Nat) : Option Wire := (f.loops[n]?).bind fun w => if w.en then some w else none

/-- The rank of a loop, within `fuel` references; none for a chain too deep or broken (R116, LOOP_CASCADE). -/
def rankOf (f : Facet) : Nat → Nat → Option Nat
  | 0, _ => none
  | fuel + 1, n =>
    match wireOf f n with
    | none => none
    | some w => if w.spKind = 2 then (rankOf f fuel w.spRef).map (· + 1) else some 0

/-- Enabled loops with their numbers. -/
def enLoops (f : Facet) : List (Nat × Wire) := (f.loops.zipIdx.map fun (w, i) => (i, w)).filter (·.2.en)

/-- The wiring rules that need no program. -/
def checkWires (bs : List Byte) (f : Facet) : Option Refuse :=
  let en := enLoops f
  firstOf [
    ((List.range 1024).find? (wireBad bs)).map fun n => (refuse Rsn.badLoop 2 n),
    (en.find? fun (n, w) => en.any fun (m, v) => m < n && v.outPt = w.outPt).map fun (n, _) => (refuse Rsn.pointOwner 2 n),
    (en.find? fun (n, w) => (rankOf f 4 n).isNone
      || (w.spKind = 2 && (match wireOf f w.spRef with
          | some o => o.cascTrack && decide (1 < (en.filter fun (_, v) => v.spKind = 2 && v.spRef = w.spRef).length)
          | none => true))).map fun (n, _) => (refuse Rsn.loopCascade 2 n)]

/-- The wiring rules against a program (Table 5.2): types of the points that each record names, of a disabled loop too
(log entry 62), and producers of OUTPT. -/
def checkWiring (f : Facet) (p : Program) : Option Refuse :=
  let en := enLoops f
  let all := f.loops.zipIdx.map fun (w, i) => (i, w)
  let q824 := fun n => p.points.any fun d => d.num = n && d.typ = 5
  let named := fun (w : Wire) => [w.pvPt, w.outPt] ++ (if w.spKind = 1 then [w.spRef] else []) ++ w.ffPt.toList
  firstOf [
    (all.find? fun (_, w) => (named w).any fun n => !q824 n).map fun (n, _) => (refuse Rsn.loopType 2 n),
    (en.find? fun (_, w) => (p.tasks.any fun t => t.outList.contains w.outPt) || sourcePoint p (some f) w.outPt).map
      fun (n, _) => (refuse Rsn.pointOwner 2 n)]

/-- The metering points against other producers (Table 8.8). -/
def checkMeterPoints (f : Facet) (p : Program) : Option Refuse :=
  let mine := fun n => f.meter.ptBase ≤ n && n < f.meter.ptBase + 1098
  let outs := (p.tasks.flatMap (·.outList)) ++ (p.points.filterMap fun d => match d.bind with
    | .vin .. => some d.num | .cascade .. => some d.num | _ => none)
  match outs.find? mine with
  | some n => some (refuse Rsn.pointOwner 3 n)
  | none => ((enLoops f).find? fun (_, w) => mine w.outPt).map fun (_, w) => (refuse Rsn.pointOwner 3 w.outPt)

/-- The first SAFE entry a test refuses, by the entries before it. -/
def refuseSafe (f : Facet) (bad : List Nat → Nat → Bool) : Option Refuse :=
  let pts := f.safe.map (·.1)
  (f.safe.zipIdx.find? fun (e, i) => bad (pts.take i) e.1).map fun (_, i) => refuse Rsn.badSafe 6 i

/-- The SAFE section's own rules (R213, Table 9.2): no point twice, and none that no program can have. -/
def checkSafeForm (f : Facet) : Option Refuse := refuseSafe f fun before n => before.contains n || decide (32767 < n)

/-- SAFE entries against a program (R212, Table 9.2): output points and the OUTPT of enabled loops. -/
def checkSafe (f : Facet) (p : Program) : Option Refuse :=
  let outs := p.tasks.flatMap (·.outList) ++ (enLoops f).map (·.2.outPt)
  refuseSafe f fun _ n => !outs.contains n

/-- The ranges of the METER section (Table 8.8, R186, R193, R196, R197, R200, R201), of every channel, enabled or not;
`bs` are the bytes of the section: a flag of one byte is 0 or 1. -/
def checkMeter (bs : List Byte) (f : Facet) : Option Refuse :=
  let m := f.meter
  let flags := fun (o n : Nat) => (List.range n).any fun i => decide (1 < leAt bs (o + i) 1)
  let glob := decide (m.div < 157) || decide (625 < m.div) || decide (127 < m.sampDly) || decide (m.ptBase % 16 ≠ 0)
    || decide (31664 < m.ptBase) || decide (m.savePeriod = 0) || decide (3600 < m.savePeriod)
  firstOf [
    (if glob then some (refuse Rsn.badMeter 1 4) else none),
    (m.feeders.zipIdx.find? fun (x, i) => flags (32 + 32 * i) 1 || flags (49 + 32 * i) 1
      || decide (x.fnom ≠ 50 ∧ x.fnom ≠ 60) || decide (x.n = 0) || decide (2 < x.refPh)).map
      fun (_, i) => refuse Rsn.badMeter 4 i,
    (m.therms.zipIdx.find? fun (x, i) => flags (1056 + 48 * i) 4 || decide (2 < x.table) || decide (x.step = 0)
      || decide (x.hlatch = 0) || decide (32767 < x.tsPt) || decide (32767 < x.trPt)
      || (if x.fromPoint then decide (32767 < x.flowRef) else decide (31 < x.flowRef))
      || (match x.dirPt with | some n => decide (32767 < n) | none => false)).map
      fun (_, i) => refuse Rsn.badMeter 5 i,
    (if (List.range 32).any fun i => flags (4128 + 4 * i) 1 then some (refuse Rsn.badMeter 1 4) else none)]

/-- The reserved bytes of the METER section, as it is laid out (log entry 15). -/
def meterZeros (bs : List Byte) : Bool :=
  zeros bs 3 1 && zeros bs 10 2 && zeros bs 16 16 && ((List.range 32).all fun f => zeros bs (32 + 32 * f + 18) 14)
    && ((List.range 32).all fun p => zeros bs (4128 + 4 * p + 2) 2)

/-- Every rule that relates a facet to a program. -/
def checkFacetProgram (f : Facet) (p : Program) : Option Refuse :=
  firstOf [checkWiring f p, checkMeterPoints f p, checkSafe f p]

/-- The checks of PREPARE after the signature (R213): structure, sections, and the relation to the program. -/
def checkFacet (c : List Byte) (p : Option Program) : Option Refuse :=
  let pl := (sectBytes c 0x20).getD []
  let sec := fun t => (facetSect pl t).getD []
  let f := parseFacet c
  let sect := refuse Rsn.badFacet 1
  firstOf [
    (if 262144 < c.length then some (refuse Rsn.facetSize 0 0) else none),
    (if facetForm pl then none else some (refuse Rsn.badFacet 0 0)),
    (if policyBad (sec 1) then some (sect 1) else none),
    (if (List.range f.safe.length).any fun i => !zeros (sec 2) (12 + 16 * i) 4 then some (sect 2) else none),
    checkSafeForm f,
    checkWires (sec 3) f,
    (if meterZeros (sec 4) then none else some (sect 4)),
    checkMeter (sec 4) f,
    (if (List.range 24).any (busBad (sec 5)) then some (refuse Rsn.badBus 1 5) else none),
    (if (List.range 16).any (portBad (sec 6)) || portsShare f.ports then some (refuse Rsn.badPort 1 6) else none),
    (if vertexBad (sec 7) then some (refuse Rsn.badVertex 1 7) else none),
    (match p with | some p => checkFacetProgram f p | none => none)]

/-! ### Migration (R91 to R95) -/

/-- The size of an element of a type in memory: BOOL one byte (log entry 16), 32-bit types 4, 64-bit types 8. -/
def typeSize (t : Nat) : Nat :=
  match t with
  | 0 => 1
  | 1 | 2 | 5 | 6 => 4
  | _ => 8

/-- The type of a VID in a program, as a point or a variable. -/
def vidType (p : Program) (v : Nat) : Option Nat :=
  match p.points.find? (·.vid = v) with
  | some d => some d.typ
  | none => (p.vars.find? (·.vid = v)).map (·.typ)

/-- The conversions of Table 4.7. -/
def convOk (conv old new : Nat) : Bool :=
  match conv with
  | 0 => decide (old = new)
  | 1 => old = 1 && new = 3
  | 2 => old = 2 && (new = 4 || new = 3)
  | 3 => old = 5 && new = 7
  | 4 => old = 7 && new = 5
  | 5 => old = 6 && new = 7
  | 6 => old = 7 && new = 6
  | _ => false

/-- The element sizes of an entry, source and destination. -/
def entrySizes (old new : Program) (e : MigEntry) : Nat × Nat :=
  let so := ((vidType old e.vid).map typeSize).getD 0
  let sn := ((vidType new e.vid).map typeSize).getD 0
  (if e.srcSp = 2 then 8 else so, if e.dstSp = 2 then 8 else sn)

/-- Source and destination byte ranges: space, start, length. -/
def srcRange (old new : Program) (e : MigEntry) : Nat × Nat × Nat :=
  (e.srcSp, if e.srcSp = 2 then 8 * e.src else e.src, if e.conv = 7 then 0 else (entrySizes old new e).1 * e.count)
def dstRange (old new : Program) (e : MigEntry) : Nat × Nat × Nat :=
  (e.dstSp, if e.dstSp = 2 then 8 * e.dst else e.dst, (entrySizes old new e).2 * e.count)

/-- A range lies in its space. -/
def rangeOk (r : Nat × Nat × Nat) : Bool :=
  decide (r.2.1 + r.2.2 ≤ (if r.1 = 0 then 0x800000 else if r.1 = 1 then 0x10000 else 8 * 32768))

/-- Two ranges share a byte. -/
def rangesMeet (a b : Nat × Nat × Nat) : Bool := a.1 = b.1 && overlap a.2.1 a.2.2 b.2.1 b.2.2

/-- The migration cost of an entry (R95). -/
def entryCost (old new : Program) (e : MigEntry) : Nat :=
  if e.conv = 0 ∨ e.conv = 7 then 8 + ((dstRange old new e).2.2 + 31) / 32 else 8 + 2 * e.count

/-- The checks marked 'change' in Table 4.5, against the running program. The spec gives no reason for a map whose
header or length breaks Table 4.6, nor for an element count of 0 or above 65,536; such a map is refused as MAP_BASE and
such an entry as MAP_TYPE, and the reserved bytes of entries are read as they stand: DESIGN CHOICE (log entry 60). -/
def checkChange (old new : Program) : Option Refuse :=
  let es := (new.map.map (·.entries)).getD []
  let ies := es.zipIdx
  let formOk := match sectBytes new.raw 0x16 with | some bs => mapFormOk bs | none => true
  let typeBad := fun (e : MigEntry) =>
    decide (7 < e.conv) || decide (e.srcSp = 3) || decide (e.dstSp = 3) || decide (e.count = 0) || decide (65536 < e.count)
      || (match vidType new e.vid with
          | none => true
          | some tn => if e.conv = 7 then false else match vidType old e.vid with
            | none => true
            | some told => !convOk e.conv told tn)
  let hasEntry := fun v => es.any (·.vid = v)
  let varMissing := new.vars.find? fun v => match old.vars.find? (·.vid = v.vid) with
    | none => !es.any fun e => e.vid = v.vid && e.conv = 7
    | some o => !hasEntry v.vid && decide (o.space ≠ v.space ∨ o.addr ≠ v.addr ∨ o.typ ≠ v.typ)
  let pointMissing := new.points.find? fun d => !hasEntry d.vid && (match old.points.find? (·.vid = d.vid) with
    | some o => decide (o.typ ≠ d.typ)
    | none => false)
  let meets := fun (e : MigEntry) i =>
    let d := dstRange old new e
    !rangeOk d || !rangeOk (srcRange old new e) ||
    ies.any fun (o, j) =>
      let so := srcRange old new o
      (rangesMeet d so && !(decide (i = j) && decide (d = so)))
        || (decide (i ≠ j) && rangesMeet d (dstRange old new o))
  let cost := es.foldl (fun a e => a + entryCost old new e) 64
  let bytes := es.foldl (fun a e => a + (dstRange old new e).2.2) 0
  firstOf [
    (if new.settings.ticklen ≠ old.settings.ticklen ∨ new.settings.agree ≠ old.settings.agree
      then some (refuse Rsn.tickChange 0 0) else none),
    (match new.map with
     | some m => if m.base ≠ old.digest.take 40 || !formOk then some (refuse Rsn.mapBase 0 0) else none
     | none => none),
    (new.points.find? fun d => old.points.any fun o => o.vid = d.vid && o.num ≠ d.num).map
      fun d => (refuse Rsn.pointMoved 3 d.vid),
    (ies.find? fun (e, _) => typeBad e).map fun (_, i) => (refuse Rsn.mapType 4 i),
    varMissing.map fun v => (refuse Rsn.mapIncomplete 3 v.vid),
    pointMissing.map fun d => (refuse Rsn.mapIncomplete 3 d.vid),
    (ies.find? fun (e, i) => meets e i).map fun (_, i) => (refuse Rsn.mapOverlap 4 i),
    (if new.settings.ticklen * 1000 - 1000 < cost ∨ 524288 < bytes then some (refuse Rsn.migrationBudget 0 0) else none)]

/-- The checks of LOAD after the signature, in the order of R87; a change is checked at the tick length in force as
well, which it cannot alter (R30, R40). -/
def checkProgram (p : Program) (f : Option Facet) (own tick : Nat) (change : Option Program) : Option Refuse :=
  firstOf [checkStructure p, checkTasks p f, checkCascade p f own, checkCost p, checkBudget p (p.settings.ticklen * 10000),
    (if change.isSome then checkBudget p tick else none),
    (match f with | some f => firstOf [checkWiring f p, checkMeterPoints f p] | none => none),
    (match change with | some old => checkChange old p | none => none)]

end Sys2Proof.Machine
end

