-- ==== Sys2Proof/Machine/Pair.lean ====
section
/-! DEFINITION. The pair as a whole: setting the time base (R27, R28, 02_tick_and_time_base.md), the mode whose outputs a
unit emits, the Chord links and their pairing (R297 to R300, 13_redundant_pairs.md), and the request for a state copy. -/

namespace Sys2Proof.Machine

/-! ### Setting the time base (R27, R28) -/

/-- A value kept on one scale, moved as the scale moves from `a` to `b`, so that its distance from the present stays. -/
def shiftBy (a b w : Nat) : Nat := ((w : Int) + b - a).toNat

/-- The ticks that an input carries. -/
def bodyTicks (mk : Nat → Nat) : InBody → InBody
  | .olcAbort w => .olcAbort (mk w)
  | .facetAbort w => .facetAbort (mk w)
  | b => b

/-- An input with the ticks it carries moved. -/
def moveInput (mk : Nat → Nat) (i : Input) : Input := { i with body := bodyTicks mk i.body }

/-- What the units measure from a tick or an instant of the past or await at one keeps its distance when the time base
is set from instant t₀ in tick k₀ to t in tick k (log entry 91). -/
def moveTimes (s : State) (k0 k t0 t : Nat) : State :=
  let mk := shiftBy k0 k
  let mv := shiftBy t0 t
  { s with
    tb := { s.tb with apexBack := s.tb.apexBack.map mv, ptpGood := s.tb.ptpGood.map mv }
    rtc := { s.rtc with trimAt := s.rtc.trimAt.map mv }
    ssu := { s.ssu with wdtFrom := s.ssu.wdtFrom.map mv,
                        windows := s.ssu.windows.map fun w => { w with tick := mk w.tick }
                        corrOnce := s.ssu.corrOnce.map fun e => (e.1, e.2.1, mk e.2.2) }
    csa := { s.csa with lastKs := mk s.csa.lastKs,
                        img := s.csa.img.map fun e =>
                          (e.1, { e.2 with tick := e.2.tick + BitVec.ofNat 32 k - BitVec.ofNat 32 k0 }) }
    lsv := { s.lsv with held := s.lsv.held.map fun j => { j with startNs := mv j.startNs, waitFrom := mv j.waitFrom },
                        mbx := s.lsv.mbx.map fun e => (e.1, { e.2 with tick := mk e.2.tick }) }
    mte := { s.mte with restartNs := s.mte.restartNs.map mv,
                        pulses := s.mte.pulses.map fun e =>
                          (e.1, { e.2 with lastEdge := e.2.lastEdge.map mv, lastPub := mv e.2.lastPub }),
                        feeds := s.mte.feeds.map fun e =>
                          (e.1, { e.2 with hist := e.2.hist.map fun x => { x with at_ := mv x.at_ },
                                           from_ := e.2.from_.map mv, taken := e.2.taken.map mv }),
                        cal := s.mte.cal.map fun r =>
                          { r with since := mv r.since, fin := mv r.fin, xs := r.xs.map fun e => (mv e.1, e.2),
                                   rs := r.rs.map fun e => (mv e.1, e.2) } }
    fct := { s.fct with lastKf := mk s.fct.lastKf }
    fbc := s.fbc.map fun c => { c with
      tb := c.tb.map fun r => r.map fun r => { r with expiry := r.expiry.map mk }
      queue := c.queue.map fun e => { e with expiry := mk e.expiry }
      parts := c.parts.map fun e => (e.1, { e.2 with last := mv e.2.last })
      fltWas := c.fltWas.map fun e => (mv e.1, e.2) }
    npc := { s.npc with
      rejoined := s.npc.rejoined.map fun e => (e.1, e.2.1, mv e.2.2)
      ptp := { s.npc.ptp with
        sync := none, ms := none, req := none
        masters := s.npc.ptp.masters.map fun m => { m with heard := m.heard.map mv }
        syncAt := s.npc.ptp.syncAt.map fun e => (e.1, mv e.2)
        announceAt := s.npc.ptp.announceAt.map fun e => (e.1, mv e.2) }
      ctxs := s.npc.ctxs.map fun e => (e.1, { e.2 with
        lastReport := e.2.lastReport.map mk, missFrom := mk e.2.missFrom, lastCmd := mk e.2.lastCmd,
        copies := e.2.copies.map fun c => { c with first := mk c.first },
        run := e.2.run.map fun r => { r with since := mv r.since } }) }
    csc := { s.csc with
      units := s.csc.units.map fun u => { u with last := mk u.last }
      hops := s.csc.hops.map fun e => (e.1, e.2.1, mk e.2.2)
      marks := s.csc.marks.map fun e => (e.1, mk e.2)
      routes := s.csc.routes.map fun e => (e.1, e.2.1, mk e.2.2) } }

/-- A swap that waits for the next edge (R215) waits for the edge after tick k. -/
def moveSwap (s : State) (k : Nat) : State :=
  match s.fct.armed with
  | some a =>
    let s := { s with fct := { s.fct with armed := some { a with ks := k + 1 } } }
    wr (wr s Reg.FCT_SWAPTICK_LO_KF ((k + 1) % 2 ^ 32)) Reg.FCT_SWAPTICK_HI_KF ((k + 1) / 2 ^ 32)
  | none => s

/-- The time base is set: TICKNO is TIME divided by T again, and jumps with it; the phases done stay done only within
one tick. The inputs not yet agreed are listed in the tick it comes to, a swap that waits for the next edge (R215)
still does, and what counts from a tick or an instant of the past keeps its distance. -/
def setTime (s : State) (t : Nat) : State :=
  let k := t / tickNs s
  let mk := shiftBy s.tb.tick k
  let own := (s.rdu.own.flatMap (·.2)).map (moveInput mk)
  let same := decide (k = s.tb.tick)
  let s := moveSwap (moveTimes s s.tb.tick k s.tb.now t) k
  { s with
    tb := { s.tb with now := t, tick := k, ph1 := s.tb.ph1 && same, ph2 := s.tb.ph2 && same, ph3 := s.tb.ph3 && same }
    rdu := { s.rdu with
      own := if own.isEmpty then [] else [(k, own)]
      built := mk s.rdu.built
      saveHeard := s.rdu.saveHeard.map mk
      unlockedFrom := shiftBy s.tb.now t s.rdu.unlockedFrom
      carryFrom := mk s.rdu.carryFrom
      agreed := s.rdu.agreed.map fun a => { a with edge := k + 1, inputs := a.inputs.map (moveInput mk) } } }

/-- The time base may be stepped (R27). -/
def mayStep (s : State) : Bool := modeIs s = .recall || modeIs s = .halt

/-! ### Links and pair state (R297 to R300, Tables 13.11, 13.17) -/

/-- A Chord link as a resource. -/
def chRes (n : Nat) : Resource := ⟨.chord, n⟩

/-- A link is fit for agreement (R300). -/
def chFit (s : State) (n : Nat) : Bool :=
  rdB s Reg.RDU_CHSTS_LOCK n && decide (resState s (chRes n) ≠ .retired)
    && decide ((rd s Reg.RDU_CHLAT_LAT n + 1000) * 100 ≤ rd s Reg.TBC_TICKCFG_AGREE * tickNs s)

/-- The status pair of a link. -/
def showLink (s : State) (n : Nat) : State :=
  if resState s (chRes n) = .retired then s
  else
    let lock := rdB s Reg.RDU_CHSTS_LOCK n
    let m : MState := if lock && !chFit s n then .offline
      else if s.ssu.windows.any (·.res = chRes n) then .suspect else .inService
    wr (wr s Reg.RDU_CHSTS_MSTATE (mstateCode m) n) Reg.RDU_CHSTS_QUAL (qualCode (if lock then .good else .stale)) n

/-- One unit is ACTIVE and the other STANDBY, SAVE counting as the mode it was entered from (Table 13.1). -/
def stepModes (s : State) : Bool :=
  let p := rd s Reg.RDU_STATUS_PMODE
  match emitMode s with
  | .active => p = 4
  | .standby => p = 3
  | _ => false

/-- PAIRST (Table 13.11). -/
def pairState (s : State) : Nat :=
  if !rdB s Reg.RDU_CFG_PAIRED then 0
  else if paired s && !s.rdu.silent then (if stepModes s then 2 else 1)
  else if s.rdu.wasPaired then 3 else 1

/-- The status register of the RDU; a partner newly lost is recorded. -/
def showRdu (s : State) : State :=
  let dead := decide (resState s (chRes 0) = .retired ∧ resState s (chRes 1) = .retired)
  let q : Qual := if !rdB s Reg.RDU_CFG_PAIRED then .good else if dead then .retired
    else if chFit s 0 || chFit s 1 then .good else .stale
  let old := rd s Reg.RDU_STATUS_PAIRST
  let new := pairState s
  let s := wr (wr s Reg.RDU_STATUS_QUAL (qualCode q)) Reg.RDU_STATUS_PAIRST new
  let s := wr s Reg.RDU_STATUS_MSTATE (mstateCode (if s.ssu.wave = some 5 then .testing else .inService))
  let s := wrB (wrB s Reg.RDU_STATUS_SIDE (ownSide s)) Reg.RDU_STATUS_HELD s.rdu.claimHeld.isSome
  if new = 3 ∧ old ≠ 3 then event s Ev.partnerLost .notice [] else s

/-- A free value from 0 to a bound. -/
def freeUpTo (s : State) (n : Nat) : Nat × State :=
  let (k, s) := nextFree s
  ((freeWord k).toNat % (n + 1), s)

/-- What slews out an offset (R26, R27), in parts per 10^9: toward the source, at no more than 50 ppm, and nothing for an
offset of 0. The control law the spec leaves open, so the share is free within its bound (log entry 25). -/
def slewShare (s : State) (off : Int) : Int × State :=
  let (n, s) := freeUpTo s 50000
  (if off = 0 then 0 else if 0 < off then (n : Int) else -(n : Int), s)

/-- The correction that following a source needs, in parts per 10^9: what corrects the reference clock, whose error the
spec leaves to the part, and what slews the offset out (R26, log entry 25). -/
def neededRate (s : State) (off : Int) : Int × Int × State :=
  let (k, s) := nextFree s
  let (slew, s) := slewShare s off
  ((freeWord k).toInt, slew, s)

/-- The rate that a correction gives: at most 50 ppm for the reference clock beside the slew (R26). -/
def setRate (s : State) (ref slew : Int) : State :=
  wr s Reg.TBC_RATE_RATE (patternOf 32 (max (-50000) (min 50000 ref) + slew))

/-! ### The request for a copy (R316) -/

/-- The ports and buses of this unit that are RETIRED or OFFLINE, as resources. -/
def downLinks (s : State) : List Resource :=
  let all := (List.range 24).map (Resource.mk .fieldbus ·) ++ (List.range 16).map (Resource.mk .network ·)
  all.filter fun r => decide (resState s r = .retired ∨ resState s r = .offline)

/-- The state of a port or bus, after a change of it, is an input (R300, R307), forwarded to the partner and agreed. -/
def linkChange (s : State) (r : Resource) : State :=
  submit s s.tb.now 67 (classIndex r.cls * 256 + r.idx) (.linkState r (decide (resState s r = .retired ∨ resState s r = .offline)))

/-- The link states of one side are forgotten. -/
def dropLinks (s : State) (side : Side) : State :=
  { s with rdu := { s.rdu with links := s.rdu.links.filter fun e => e.2 ≠ side } }

/-- Tells the partner which ports and buses are down here: DESIGN CHOICE (log entry 103). -/
def tellLinks (s : State) : State := (downLinks s).foldl linkChange s

/-- A copy that has received nothing, asked for at an instant; `answered` is the snapshot edge of an answer before a
restart. -/
def freshCopy (since : Nat) (answered : Option Nat) : CopyRun := ⟨since, none, answered, [], false, [], none⟩

/-- Puts a copy. -/
def putCopy (s : State) (c : Option CopyRun) : State := { s with rdu := { s.rdu with copy := c } }

/-- Puts out COPYREQ. -/
def sendCopyReq (s : State) : State := sendChord s none s.tb.tick false .copyReq

/-- Sends COPYREQ, the request being that of an instant, behind the link states of this unit; those of the partner come
with its answer. -/
def askCopy (s : State) (since : Nat) (answered : Option Nat) : State :=
  let s := tellLinks { s with rdu := { s.rdu with links := (downLinks s).map fun r => (r, ownSide s) } }
  let s := putCopy s (some (freshCopy since answered))
  let s := [(Reg.RDU_CPSTS_STATE, 1), (Reg.RDU_CPSTS_REGION, 0), (Reg.RDU_CPSTS_PEND, 1), (Reg.RDU_CPMASK_DONEMASK, 0),
    (Reg.RDU_CPBYTES_BYTES, 0)].foldl (fun s e => wr s e.1 e.2) s
  sendCopyReq s

/-- A unit in RESYNC with a paired link and no copy under way asks for one, both units being out of SAVE (R316,
Table 13.10); after a copied image failed its verification it asks for none (R409). -/
def copyStart (s : State) : State :=
  if modeIs s = .resync ∧ linked s ∧ s.rdu.copy.isNone ∧ !s.rdu.partnerSave ∧ !s.rdu.noCopy then
    askCopy s s.tb.now none
  else s

/-! ### Pairing (R298, R311) -/

/-- Why a link does not pair: the codes of RSN (Table 13.17); 0 for none. -/
def pairReason (s : State) (n : Nat) (h : Hello) : Nat :=
  let ag := rd s Reg.TBC_TICKCFG_AGREE
  if !rdB s Reg.RDU_CFG_PAIRED then 6
  else if h.side = ownSide s then 1
  else if h.ticklen ≠ rd s Reg.TBC_TICKCFG_TICKLEN ∨ h.agree ≠ ag then 2
  else if 40 < ag then 3
  else if h.version ≠ 1 then 4
  else if !chFit s n then 5
  else 0

/-- A link that was paired is so no longer; while the other one is, CHORD_LINK is recorded (Table 13.10). -/
def unpair (s : State) (n : Nat) : State :=
  if rdB s Reg.RDU_CHSTS_PAIRED n then
    let s := wr { s with rdu := { s.rdu with carries := s.rdu.carries.filter (· ≠ n) } } Reg.RDU_CHSTS_PAIRED 0 n
    if paired s then event s Ev.chordLink .warning [] else s
  else s

/-- A link pairs, or stays or becomes unpaired for a reason. -/
def judgeLink (s : State) (n : Nat) (h : Hello) : State :=
  let r := pairReason s n h
  let old := rd s Reg.RDU_CHSTS_RSN n
  let was := rdB s Reg.RDU_CHSTS_PAIRED n
  let s := wr s Reg.RDU_CHSTS_RSN r n
  if r = 0 then
    let s := wr { s with rdu := { s.rdu with wasPaired := true } } Reg.RDU_CHSTS_PAIRED 1 n
    copyStart (showRdu (showLink s n))
  else
    let s := unpair (showLink s n) n
    let s := if r ≠ 6 ∧ (r ≠ old ∨ was) then event s Ev.chordRefused .warning [] else s
    showRdu s

/-- PAIRED written (R311): clear, both links are unpaired with reason NOT_PAIRED; set, a link is judged by the partner's
latest HELLO. -/
def pairedChanged (s : State) : State :=
  showRdu ((List.range 2).foldl (fun s n =>
    if rdB s Reg.RDU_CFG_PAIRED then
      let s := wr s Reg.RDU_CHSTS_RSN 0 n
      match s.rdu.hello with
      | some h => if rdB s Reg.RDU_CHSTS_LOCK n then judgeLink s n h else s
      | none => s
    else if rdB s Reg.RDU_CHSTS_LOCK n then wr (unpair s n) Reg.RDU_CHSTS_RSN 6 n else s) s)

/-- What HELLO carries (Table 13.2): the stored claim, the mode, and the digests of the running program and the active
facet, 0 for none. -/
def ownHello (s : State) : Hello :=
  let d := fun (l : Option (List Byte)) => BitVec.ofNat 64 (leNat ((l.getD []).take 8))
  { version := 1, side := ownSide s, ticklen := rd s Reg.TBC_TICKCFG_TICKLEN, agree := rd s Reg.TBC_TICKCFG_AGREE
    claim := BitVec.ofNat 32 (rd s Reg.RDU_CLAIM_OWN), mode := emitMode s, progDigest := d ((running s).map (·.digest))
    facetDigest := d (s.fct.active.map (·.digest)), variant := partVariant }

/-- Sends HELLO on a link (R298). -/
def sendHello (s : State) (n : Fin 2) : State := sendChord s (some n) s.tb.tick false (.hello (ownHello s))

/-- TICKLEN and AGREE as they stand after a change (R28, R33): TICKNO follows T, and each link is judged again by the
partner's last HELLO, with a new HELLO of this unit. That the device does so at once is a DESIGN CHOICE (log entry
65). -/
def ticksChanged (s : State) : State :=
  (List.range 2).foldl (fun s n =>
    let s := showLink s n
    let s := match s.rdu.hello with
      | some h =>
        if rdB s Reg.RDU_CHSTS_PAIRED n || (decide (rd s Reg.RDU_CHSTS_RSN n ≠ 0) && rdB s Reg.RDU_CHSTS_LOCK n) then
          judgeLink s n h
        else showRdu s
      | none => showRdu s
    if rdB s Reg.RDU_CHSTS_LOCK n && rdB s Reg.RDU_CFG_PAIRED then sendHello s (Fin.ofNat 2 n) else s)
    (if tickOf s s.tb.now = s.tb.tick then s else setTime s s.tb.now)

end Sys2Proof.Machine
end

