-- ==== Sys2Proof/Machine/Olc.lean ====
section
/-! DEFINITION. Loading, activating and changing the program (R87 to R100, R434, 04_tasks_images_online_change.md). -/

namespace Sys2Proof.Machine

/-! ### Program halves -/

/-- The program of a half. -/
def halfOf (s : State) (h : Nat) : Option Program := if h = 0 then s.csa.half0 else s.csa.half1

/-- Puts a program in a half. -/
def putHalf (s : State) (h : Nat) (p : Option Program) : State :=
  if h = 0 then { s with csa := { s.csa with half0 := p } } else { s with csa := { s.csa with half1 := p } }

/-- The inactive half. -/
def otherHalf (s : State) : Nat := 1 - rd s Reg.CSA_OLC_ACTHALF

/-- The program of the inactive half. -/
def loaded (s : State) : Option Program := halfOf s (otherHalf s)

/-- The end of a program command or change. -/
def olcEnd (s : State) (code rsn : Nat) : State :=
  setStatus s Reg.CSA_OLC_CC Reg.CSA_OLC_RSN Reg.CSA_OLC_PEND code rsn

/-- The item a refusal names, and the refusal itself with the task and word it concerns (R72). -/
def olcRef (s : State) (r : Refuse) : State :=
  wr (wr { s with csa := { s.csa with refused := some r } } Reg.CSA_OLCREF_KIND r.kind) Reg.CSA_OLCREF_ITEM r.item

/-- Ends a command with a refusal of the loader. -/
def olcRefuse (s : State) (r : Refuse) : State := olcEnd (olcRef s r) CC.failRefused r.rsn

/-- STATE of `CSA_OLC` (Table 4.10): 0 IDLE, 1 LOADING, 2 VERIFIED, 3 ARMED, 4 SWITCHING. -/
def olcState (s : State) (n : Nat) : State := wr s Reg.CSA_OLC_STATE n

/-- A command written to `CSA_OLC`, with the FORCE_RELEASE of the same write (R433): the checks of R434 before it acts. -/
def olcCmd (s : State) (fr busyOk : Bool) (modeOk verified : Bool) (f : State → State) : State :=
  let s := wrB s Reg.CSA_OLC_FORCE_RELEASE fr
  if rdB s Reg.CSA_OLC_PEND && !busyOk then
    wr (wr s Reg.CSA_OLC_CC CC.failRefused) Reg.CSA_OLC_RSN Rsn.busy
  else
    if !modeOk then olcEnd s CC.failRefused Rsn.badMode
    else if verified && rd s Reg.CSA_OLC_STATE ≠ 2 then olcEnd s CC.failRefused Rsn.notPrepared
    else f s

/-! ### Settings, memories and the slot record -/

/-- Sets a field from its bits of a register word. -/
def wrBits (s : State) (f : Field) (v : Nat) (i : Nat := 0) : State := wr s f (bitsOf v f.lsb f.width) i

/-- The MAXAGE values of a program (Table 20.4). -/
def setMaxAge (s : State) (p : Program) : State :=
  p.settings.maxAge.zipIdx.foldl (fun s (v, i) => wr s Reg.LSV_MBX0_MAXAGE v i) s

/-- TICKLEN and AGREE set by a program or to their reset values: what follows from a change of them. -/
def settingsDone (old s : State) : State :=
  if rd old Reg.TBC_TICKCFG_TICKLEN = rd s Reg.TBC_TICKCFG_TICKLEN
    ∧ rd old Reg.TBC_TICKCFG_AGREE = rd s Reg.TBC_TICKCFG_AGREE then s else ticksChanged s

/-- The program settings (R30, R90): TICKLEN, AGREE, `TBC_DISC`, `NVS_RETCFG.PERIOD` and MAXAGE. -/
def applySettings (s : State) (p : Program) : State :=
  settingsDone s <|
  let s := wr (wr s Reg.TBC_TICKCFG_TICKLEN p.settings.ticklen) Reg.TBC_TICKCFG_AGREE p.settings.agree
  let d := p.settings.disc.toNat
  let s := wrBits (wrBits (wrBits (wrBits s Reg.TBC_DISC_APEXEN d) Reg.TBC_DISC_PTPEN d) Reg.TBC_DISC_PTPPORT d)
    Reg.TBC_DISC_QUALTIME d
  setMaxAge (wr s Reg.NVS_RETCFG_PERIOD p.settings.retPeriod) p

/-- The program settings at their reset values (R30). -/
def resetSettings (s : State) : State :=
  settingsDone s <|
  let z := fun (s : State) (f : Field) => wr s f (f.resetAt 0)
  let s := [Reg.TBC_TICKCFG_TICKLEN, Reg.TBC_TICKCFG_AGREE, Reg.TBC_DISC_APEXEN, Reg.TBC_DISC_PTPEN,
    Reg.TBC_DISC_PTPPORT, Reg.TBC_DISC_QUALTIME, Reg.NVS_RETCFG_PERIOD].foldl z s
  (List.range 16).foldl (fun s i => wr s Reg.LSV_MBX0_MAXAGE (Reg.LSV_MBX0_MAXAGE.resetAt i) i) s

/-- A space after the initial data of a program. -/
def initSpace (p : Program) (sp : Space) : Tbl Byte :=
  (p.init.filter (·.space = sp)).foldl (fun m r => Memory.setBytes m r.addr (r.bytes.take (spaceSize sp - r.addr))) []

/-- Data memory and I/O image as the program image has them. -/
def initData (s : State) (p : Program) : State :=
  { s with csa := { s.csa with dmem := initSpace p .data, img := [] } }

/-- The retained area as the program image has it, with RETAINED_INIT (R90, R345). -/
def initRetained (s : State) (p : Program) : State :=
  event { s with csa := { s.csa with rmem := initSpace p .retained } } Ev.retainedInit .notice []

/-- The slot record with the running program and the active facet noted in the live slots. -/
def noteImages (s : State) (r : SlotRec) : SlotRec :=
  let r := match running s with | some p => noteSlot r (liveSlot r false) p.raw p.digest | none => r
  match s.fct.active with | some f => noteSlot r (liveSlot r true) f.raw f.digest | none => r

/-- Asks for the slot record that names the running program and the active facet (R99, R217, R340). -/
def saveSlots (s : State) (prog facet : Bool) (who : Requester) : State :=
  nvsSave s 3 (.slots (noteImages s { nextSlots s with prog := prog, facet := facet })) who

/-- The program slot that does not hold the current program. -/
def freeProgSlot (s : State) : Bool := !(slotRecord s).prog

/-- The facet slot of the active facet (`FCT_STATUS.ACTSLOT`). -/
def actFacetSlot (s : State) : Bool := rdB s Reg.FCT_STATUS_ACTSLOT

/-- The program slot the slot record names, or will name once a waiting write of it completes. -/
def liveProgSlot (s : State) : Bool := (nextSlots s).prog

/-! ### LOAD (R87, R89) -/

/-- LOAD: the fetch begins. -/
def olcLoad (s : State) : State :=
  let s := putHalf (olcState (wr s Reg.CSA_OLC_PEND 1) 1) (otherHalf s) none
  { s with csa := { s.csa with loading := some [] } }

/-- The modes in which LOAD is refused (R434). -/
def loadMode (s : State) : Bool :=
  match modeIs s with
  | .halt => true
  | .active => true
  | .standby => true
  | _ => false

/-- LOAD. -/
def execLoad (fr : Bool) (s : State) : Host.Outcome State Fault Refusal := .next (olcCmd s fr false (loadMode s) false olcLoad)

/-- Ends a LOAD that leaves STATE IDLE. -/
def loadFail (s : State) (code rsn : Nat) : State :=
  olcEnd (olcState { s with csa := { s.csa with loading := none } } 0) code rsn

/-- The program a change is checked against at LOAD (R89). -/
def changeBase (s : State) (p : Program) : Option Program :=
  if p.map.isSome || modeIs s = .active || modeIs s = .standby then running s else none

/-- The checks of a fetched image in the order of R87, and the request to write its slot. -/
def loadImage (s : State) (c : List Byte) : State :=
  match verifyImage s.ssu.otp false c with
  | some r => loadFail s CC.failAuth r
  | none =>
    let p := parseProgram c
    match checkProgram p s.fct.active (ownMember s).val (tickNs s) (changeBase s p) with
    | some r => loadFail (olcRef s r) CC.failRefused r.rsn
    | none =>
      let s := putHalf { s with csa := { s.csa with loading := some c } } (otherHalf s) (some p)
      nvsRequest s ⟨5, .image false (!liveProgSlot s) c, .load⟩

/-- LOAD_FETCH_COMPLETE (R87): with no LOAD fetching, nothing. -/
def execLoadFetchComplete (f : Fetch) (s : State) : Host.Outcome State Fault Refusal :=
  .next (if s.csa.loading = some [] then
    match f with
    | .hostAbort => loadFail (hostAborted s) CC.failPeerUnreachable Rsn.hostAbort
    | .bytes c => loadImage s c
  else s)

/-! ### Migration (R91 to R95) -/

/-- An instance's registers as a converter's workplace. -/
def blankInst : Inst :=
  { task := 0, tick := 0, stamp := 0, pc := 0, w := Vector.replicate 32 0, p := Vector.replicate 8 false, acc0 := 0,
    acc1 := 0, tflags := 0, loops := [], rets := [], journal := [], outs := [], reqs := [], evts := [] }

/-- A conversion as the FCVT of Table 4.7 does it: the value and whether it saturated. -/
def byFcvt (f : Cvt) (v : Nat) : Nat × Bool :=
  let i := fcvt f 2 1 (setW blankInst 1 (BitVec.ofNat 64 v))
  ((rW i 2).toNat, hasFlag i .sat)

/-- The conversions of Table 4.7 on one element. -/
def convElem (conv v : Nat) : Nat × Bool :=
  match conv with
  | 1 => (patternOf 64 (signedOf 32 v), false)
  | 2 => (v % 2 ^ 32, false)
  | 3 => byFcvt .qd v
  | 4 => byFcvt .dq v
  | 5 => byFcvt .sd v
  | 6 => ((byFcvt .ds v).1, false)
  | _ => (v, false)

/-- The bytes of a range of a space (0 D, 1 R, 2 I) as they stand. -/
def spaceBytes (s : State) (sp a n : Nat) : List Byte :=
  match sp with
  | 0 => Memory.bytes s.csa.dmem a n
  | 1 => Memory.bytes s.csa.rmem a n
  | _ => (List.range (n / 8)).flatMap fun i => leBytes 8 (((tget s.csa.img (a / 8 + i)).getD freshPoint).value).toNat

/-- Writes bytes to a space; of a point only VALUE. -/
def putSpace (s : State) (sp a : Nat) (bs : List Byte) : State :=
  match sp with
  | 0 => { s with csa := { s.csa with dmem := Memory.setBytes s.csa.dmem a bs } }
  | 1 => { s with csa := { s.csa with rmem := Memory.setBytes s.csa.rmem a bs } }
  | _ => { s with csa := { s.csa with img := (List.range (bs.length / 8)).foldl (fun m i =>
      let v := (tget m (a / 8 + i)).getD freshPoint
      tput m (a / 8 + i) { v with value := BitVec.ofNat 64 (leAt bs (8 * i) 8) }) s.csa.img } }

/-- A value of a TYPE in register form (Table 4.3): BOOL in bit 0, INT32 and Q8.24 sign-extended, the other 32-bit types
zero-extended. -/
def registerForm (typ v : Nat) : Nat :=
  match typ with
  | 0 => v % 2
  | 1 | 5 => patternOf 64 (signedOf 32 v)
  | 2 | 6 => v % 2 ^ 32
  | _ => v % 2 ^ 64

/-- What an entry writes: its bytes and whether a conversion saturated, from the sources as they stood (R93). COPY moves
elements one by one, into a point in register form and out of a point cut to the element's size: DEDUCED (log entry
105). INIT of a point writes VALUE 0, for the image holds no initial value of a point: DESIGN CHOICE (log entry 61). -/
def entryBytes (s : State) (old new : Program) (e : MigEntry) : List Byte × Bool :=
  let (sp, a, n) := dstRange old new e
  if e.conv = 7 then
    if sp = 2 then (List.replicate n 0, false)
    else (Memory.bytes (initSpace new (if sp = 1 then .retained else .data)) a n, false)
  else
    let (ss, sa, sn) := srcRange old new e
    let src := spaceBytes s ss sa sn
    let (so, sz) := entrySizes old new e
    let form := fun (v : Nat) => if sp = 2 ∧ ¬(e.conv = 0 ∧ ss = 2) then registerForm ((vidType new e.vid).getD 4) v else v
    let l := (List.range e.count).map fun i => convElem e.conv (leAt src (so * i) so)
    (l.flatMap fun x => leBytes sz (form x.1), l.any (·.2))

/-- Points the new program does not have at the same number lose their content (Table 4.4), and so does one that it binds
anew as an import, which reads BAD until its first copy (R333). -/
def dropPoints (s : State) (old new : Program) : State :=
  let import_ := fun (d : PointDef) => match d.bind with
    | .cascade .. => !(new.tasks.any fun t => t.outList.contains d.num) && !loopOutput s.fct.active d.num
    | _ => false
  let gone := fun n => match old.points.find? (·.num = n) with
    | none => false
    | some o => match new.points.find? fun d => d.num = n && d.vid = o.vid with
      | none => true
      | some d => import_ d && decide (d.bind ≠ o.bind)
  { s with csa := { s.csa with img := s.csa.img.filter fun e => !gone e.1 } }

/-- The migration of a change: the state, the entries applied, the entries that saturated (R93, R99). The entries write
what their sources held before, into the points as the new program has them. -/
def migrate (s : State) (old new : Program) (m : MigMap) : State × Nat × Nat :=
  let ws := m.entries.map fun e => (dstRange old new e, entryBytes s old new e)
  (ws.foldl (fun s w => putSpace s w.1.1 w.1.2.1 w.2.1) (dropPoints s old new), m.entries.length, (ws.filter (·.2.2)).length)

/-- The halves exchange and the new program runs: forces under R98, mapping, version, slot record, counts (R99). -/
def exchange (s : State) (new : Program) (entries sat : Nat) : State × Nat :=
  let (keep, rel) := splitForces s.csa.forces new
  let live := liveProgSlot s
  let s := wr (wr s Reg.CSA_OLC_ACTHALF (otherHalf s)) Reg.CSA_STATUS_PROGVALID 1
  let s := releaseForces s keep rel
  let s := wr (mapSequencers s) Reg.SSU_SVN_PSVN new.svn
  let s := wr (wr (wr s Reg.CSA_OLCRPT_ENTRIES entries) Reg.CSA_OLCRPT_FRCREL rel.length) Reg.CSA_OLCRPT_SATCNT
    (min sat 511)
  let s := saveSlots (wr (olcState s 0) Reg.CSA_OLC_SLOTPEND 1) (!live) (actFacetSlot s) .slotProg
  (s, rel.length)

/-- The outcome of a switch (R99). -/
def switchCode (sat rel : Nat) : Nat := if sat = 0 ∧ rel = 0 then CC.done else CC.doneDegraded

/-- The facet that will be active at a tick. -/
def facetAt (s : State) (k : Nat) : Option Facet :=
  match s.fct.armed with
  | some a => if a.ks ≤ k then s.fct.shadow else s.fct.active
  | none => s.fct.active

/-- ACTIVATE (R90): the R107 check with the facet active at the next edge, the force check, settings, memories, and
the exchange. -/
def activate (s : State) (fr : Bool) : State :=
  match loaded s with
  | none => olcEnd s CC.failRefused Rsn.notPrepared
  | some p =>
    match (facetAt s (s.tb.tick + 1)).bind fun f => firstOf [checkWiring f p, checkMeterPoints f p] with
    | some r => olcRefuse s r
    | none =>
      match if fr then none else forceTypeClash s p with
      | some v => olcRefuse s (refuse Rsn.forceType 3 v)
      | none =>
        let old := running s
        let mapped := match old, p.map with
          | some o, some m => if m.base = o.digest.take 40 then some (o, m) else none
          | _, _ => none
        let (s, n, sat) := match mapped with
          | some (o, m) => migrate s o p m
          | none => (initRetained (initData s p) p, 0, 0)
        let (s, rel) := exchange (applySettings s p) p n sat
        olcEnd s (switchCode sat rel) 0

/-- ACTIVATE. -/
def execActivate (fr : Bool) (s : State) : Host.Outcome State Fault Refusal :=
  .next (olcCmd s fr false (modeIs s = .halt) true fun s => activate s fr)

/-! ### ARM and ABORT (R96, R97, R100) -/

/-- ARM as written: an input that fixes the switch tick at its agreement. -/
def execArm (fr : Bool) (s : State) : Host.Outcome State Fault Refusal :=
  .next (olcCmd s fr false (modeIs s = .active || modeIs s = .standby) true fun s =>
    submitHost (wr s Reg.CSA_OLC_PEND 1) Reg.CSA_OLC_CMD
      (.arm (rd64 s Reg.CSA_OLCTICK_LO_KS Reg.CSA_OLCTICK_HI_KS) fr))

/-- An ARM awaits its agreement or its switch (R100). -/
def armPending (s : State) : Bool :=
  rdB s Reg.CSA_OLC_PEND && (s.csa.armed.isSome
    || s.rdu.own.any fun e => e.2.any fun i => match i.body with | .arm _ _ => true | _ => false)

/-- ABORT as written (R100, R434): the one command accepted while an ARM is pending. -/
def execOlcAbort (fr : Bool) (s : State) : Host.Outcome State Fault Refusal :=
  .next (olcCmd s fr (armPending s) true false fun s =>
    submitHost (wr s Reg.CSA_OLC_PEND 1) Reg.CSA_OLC_CMD (.olcAbort s.tb.tick))

/-- Class SEQUENCER maps to hold in a facet. -/
def seqHolds (f : Option Facet) : Bool := match f with | some f => f.faultMap.getD 1 0 = 1 | none => false

/-- The checks of a change against the running state (R97), with the facet active at the switch. -/
def checkRunning (s : State) (p : Program) (f : Option Facet) (fr : Bool) : Option Refuse :=
  firstOf [
    (if fr then none else (typeClash (agreedForces s) p).map fun v => (refuse Rsn.forceType 3 v)),
    (if seqHolds f then (unmappedOf s p).map fun l => (refuse Rsn.noSequencer 6 l) else none)]

/-- The checks of a change against a facet (R87, R107). -/
def checkAgainst (f : Option Facet) (p : Program) : Option Refuse :=
  match f with
  | some f => firstOf [checkWiring f p, checkMeterPoints f p]
  | none => none

/-- An ARM refused at its agreement: while an armed change or a running LOAD holds this unit's register, PEND stays that
one's. -/
def refuseArm (s : State) (rsn : Nat) : State :=
  let busy := s.csa.armed.isSome || rd s Reg.CSA_OLC_STATE = 1
  let t := olcEnd s CC.failRefused rsn
  if busy then wr t Reg.CSA_OLC_PEND (rd s Reg.CSA_OLC_PEND) else t

/-- An ARM at its agreement in tick j (R96, R89, R97, R40): it fixes k_s and arms the change, or refuses it. With a
change already armed STATE is not VERIFIED, at the unit whose ARM this is. One whose unit has left the modes in which an
ARM is accepted ends BAD_MODE. -/
def agreeArm (s : State) (own : Bool) (ks : Nat) (fr : Bool) : State :=
  let j := s.tb.tick
  if s.csa.armed.isSome then (if own then refuseArm s Rsn.notPrepared else s)
  else if modeIs s ≠ .active ∧ modeIs s ≠ .standby then refuseArm s Rsn.badMode
  else
    let k := if ks = 0 then j + 2 else ks
    let (same, s) := partnerAgrees s
    match loaded s, rd s Reg.CSA_OLC_STATE with
    | some p, 2 =>
      if ks ≠ 0 ∧ ks < j + 2 then refuseArm s Rsn.tickPassed
      else if !same then refuseArm s Rsn.partnerImage
      else
        let f := facetAt s k
        match firstOf [checkBudget p (tickNs s), checkAgainst f p, ((running s).bind fun o => checkChange o p), checkRunning s p f fr] with
        | some r => olcRefuse s r
        | none =>
          let s := wr (wr s Reg.CSA_OLCTICK_LO_KS (k % 2 ^ 32)) Reg.CSA_OLCTICK_HI_KS (k / 2 ^ 32)
          olcState (wr { s with csa := { s.csa with armed := some ⟨k, fr, false, false⟩ } } Reg.CSA_OLC_PEND 1) 3
    | _, _ => refuseArm s (if own || !paired s then Rsn.notPrepared else Rsn.partnerImage)

/-- Ends an armed change without a switch; STATE returns to VERIFIED, or goes where `st` says. -/
def disarm (s : State) (code rsn : Nat) (st : Nat := 2) : State :=
  olcEnd (olcState { s with csa := { s.csa with armed := none } } st) code rsn

/-- An ABORT at its agreement (R100, Table 4.8). -/
def agreeAbort (s : State) (i : Input) (written : Nat) : State :=
  match s.csa.armed with
  | some a =>
    if a.fixed then { s with csa := { s.csa with armed := some { a with late := true } } }
    else disarm s CC.failCancelled 0
  | none =>
    if mine s i then olcEnd s CC.failRefused (if written < s.csa.lastKs then Rsn.cancelTooLate else Rsn.notPrepared)
    else s

/-- Whether a migration meets an uncorrectable memory error (Table 4.8): no command tells, so it is a free value, taken
where the program has a map (log entry 69). -/
def migrationError (s : State) (p : Program) : Bool × State :=
  if p.map.isSome then (freeBool s.free, { s with free := s.free + 1 }) else (false, s)

/-- The program switch at edge k (R93, R98, R99): migration, exchange, outcome. With an uncorrectable memory error in
the migration nothing is applied, and the change ends FAIL_ABANDONED, STATE VERIFIED (Table 4.8). -/
def programSwitch (s : State) (k : Nat) : State :=
  match s.csa.armed, loaded s, running s with
  | some a, some p, some o =>
    if a.ks = k ∧ a.fixed then
      let (err, s) := migrationError s p
      if err then disarm s CC.failAbandoned Rsn.migrationError else
      let s := { s with csa := { s.csa with armed := none, lastKs := k } }
      let (s, n, sat) := match p.map with
        | some m => migrate s o p m
        | none => (dropPoints s o p, 0, 0)
      let (s, rel) := exchange (setMaxAge s p) p n sat
      olcEnd s (switchCode sat rel) (if a.late then Rsn.cancelTooLate else 0)
    else s
  | _, _, _ => s

end Sys2Proof.Machine
end

