-- ==== Sys2Proof/Machine/Lpe.lean ====
section
/-! DEFINITION. The Loop Engine (05_loop_engine.md): sampling at the edge, completion, lane faults, coefficient banks and
host loop commands. -/

namespace Sys2Proof.Machine

/-! ### Modes and runs -/

/-- MODE codes of Table 5.6. -/
def lmodeCode : LMode → Nat
  | .auto => 0 | .manual => 1 | .track => 2 | .cascTrack => 3 | .hold => 4 | .off => 5

/-- A loop before its first sample (R112, R113, R115). R115 names no value of UPREV and EPREV: they are 0, and what they
were for a loop that starts anew: DESIGN CHOICE (log entry 108). -/
def freshRun (w : Wire) : LoopRun :=
  let st : LoopSt := { (default : LoopSt) with
    manval := if w.initMode = 1 then w.initMan else 0
    trkval := if w.initMode = 2 then w.initMan else 0 }
  ⟨st, (match w.initMode with | 1 => .manual | 2 => .track | _ => .auto), none, 0, .bad, false, true⟩

/-- The run of a loop. -/
def runOf (s : State) (n : Nat) (w : Wire) : LoopRun := (tget s.lpe.runs n).getD (freshRun w)

/-- The wiring in force. -/
def wires (s : State) : List (Nat × Wire) := match s.fct.active with | some f => enLoops f | none => []

/-- Lanes that compute: not RETIRED (R118, R124). -/
def lanesUp (s : State) : Nat := ((List.range 8).filter fun n => rd s Reg.LPE_LANESTS_MSTATE n ≠ mstateCode .retired).length

/-- A loop is due at a tick (R105). -/
def loopDue (w : Wire) (k : Nat) : Bool := decide (0 < w.period) && decide ((k + w.period - w.offset) % w.period = 0)

/-- The loops that sample at an edge (R105): in ACTIVE and STANDBY all due, in SAVE the critical ones. -/
def sampling (s : State) (k : Nat) : List (Nat × Wire) :=
  if runsControl s && decide (0 < lanesUp s) then
    (wires s).filter fun (_, w) => loopDue w k && (modeIs s ≠ .save || w.crit)
  else []

/-! ### Banks (R119 to R123) -/

/-- The active and the inactive bank of a loop. -/
def activeBank (s : State) (n : Nat) : Tbl (BitVec 32) := if rdB s Reg.LPE_LSTS_BANK n then s.lpe.bankB else s.lpe.bankA
def idleBank (s : State) (n : Nat) : Tbl (BitVec 32) := if rdB s Reg.LPE_LSTS_BANK n then s.lpe.bankA else s.lpe.bankB

/-- The coefficient record of a loop: its active bank and selector (R123). -/
def saveCoef (s : State) (n : Nat) : State :=
  let ws := (bankWords (activeBank s n) n).zipIdx.map fun (w, i) => (i, w)
  nvsSave s 3 (.coef (rdB s Reg.LPE_LSTS_BANK n) ws) (.coef n) (n + if (slotRecord s).bank then 0x10000 else 0)

/-- A pending swap acts on a loop (R120, R121): a valid inactive bank becomes active, an invalid one is refused. The
integral is adjusted unless the loop starts at this edge. -/
def swapBank (s : State) (n : Nat) : State :=
  if rdB s Reg.LPE_LSTS_PENDSWAP n then
    let s := wr s Reg.LPE_LSTS_PENDSWAP 0 n
    let o := coefOf (bankWords (activeBank s n) n)
    let c := coefOf (bankWords (idleBank s n) n)
    let bad := !c.valid
    let s := match s.lpe.lcmd with
      | some l =>
        let l' : LcmdPend := ⟨l.targets.filter (· ≠ n), l.bad || (bad && l.targets.contains n)⟩
        { s with lpe := { s.lpe with lcmd := some l' } }
      | none => s
    if bad then wr s Reg.LPE_LSTS_S_REQIGN 1 n
    else
      let s := wr (wr s Reg.LPE_LSTS_BANK (1 - rd s Reg.LPE_LSTS_BANK n) n) Reg.LPE_LSTS_S_SWAPPED 1 n
      let s := match tget s.lpe.runs n with
        | some r =>
          if r.init then s
          else
            let b := bumpless o c r.st
            let s := { s with lpe := { s.lpe with runs := tput s.lpe.runs n { r with st := b.1 } } }
            if b.2 then wr s Reg.LPE_LSTS_S_ASAT 1 n else s
        | none => s
      saveCoef s n
  else s

/-- Swaps of loops that are not enabled, made at every edge (R120). -/
def swapDisabled (s : State) : State :=
  let on := (wires s).map (·.1)
  ((setElems s Reg.LPE_LSTS_PENDSWAP).filter fun n => !on.contains n).foldl swapBank s

/-- The end of a host loop command. -/
def lcEnd (s : State) (code rsn : Nat) : State :=
  setStatus s Reg.LPE_LCSTS_CC Reg.LPE_LCSTS_RSN Reg.LPE_LCSTS_PEND code rsn

/-- A host swap ends when every target loop has swapped (R122). -/
def lcmdSettle (s : State) : State :=
  match s.lpe.lcmd with
  | some l =>
    if l.targets.isEmpty then
      lcEnd { s with lpe := { s.lpe with lcmd := none } } (if l.bad then CC.failRefused else CC.done)
        (if l.bad then Rsn.badBank else 0)
    else s
  | none => s

/-! ### Sampling (R110 to R117) -/

/-- A loop request acts (R66, R113): RESET_I clears the integral, and a bank swap still pending is made, each at its
place among the requests. -/
def actReq (s : State) (n : Nat) (w : Wire) (r : EngReq) : State :=
  let run := runOf s n w
  let put := fun (x : LoopRun) => { s with lpe := { s.lpe with runs := tput s.lpe.runs n x } }
  match r with
  | .lsp _ v => if w.spKind = 0 then put { run with sp := some v.toInt } else wr s Reg.LPE_LSTS_S_REQIGN 1 n
  | .lctl _ .auto => put { run with want := .auto }
  | .lctl _ (.manual v) => put { run with want := .manual, st := { run.st with manval := v.toInt } }
  | .lctl _ (.track v) => put { run with want := .track, st := { run.st with trkval := v.toInt } }
  | .lctl _ .resetI => put { run with st := { run.st with i := 0 } }
  | .lctl _ .bankSwap => swapBank s n
  | _ => s

/-- The loop a request names. -/
def reqLoop : EngReq → Option Nat
  | .lsp n _ => some n
  | .lctl n _ => some n
  | _ => none

/-- The requests to a loop act, in their order. -/
def actReqs (s : State) (n : Nat) (w : Wire) : State :=
  let l := s.lpe.reqs.filter fun r => reqLoop r = some n
  let s := { s with lpe := { s.lpe with reqs := s.lpe.reqs.filter fun r => reqLoop r ≠ some n } }
  l.foldl (fun s r => actReq s n w r) s

/-- A quality is usable (R112). -/
def usable (q : Qual) : Bool :=
  match q with
  | .good => true
  | .forced => true
  | .substituted => true
  | _ => false

/-- A Q8.24 point of the snapshot: value and whether it is usable. -/
def snapQ (s : State) (p : Nat) : Int × Bool :=
  let v := (tget s.csa.snap.img p).getD freshPoint
  ((v.value.setWidth 32).toInt, usable v.qual)

/-- The quality of a loop's output (R114): RETIRED with no lane in service, STALE while a loop that is not critical does
not sample in SAVE, and else what its latest sample gave; BAD before the first. -/
def loopQual (s : State) (n : Nat) (w : Wire) : Qual :=
  let q := match tget s.lpe.runs n with | some r => r.outQ | none => .bad
  if lanesUp s = 0 then .retired
  else if modeIs s = .save ∧ runsControl s ∧ !w.crit then worse .stale q
  else q

/-- The latest output of a loop and whether it is usable as a set-point (R116). -/
def loopOut (s : State) (n : Nat) : Int × Bool :=
  match s.lpe.results.find? (·.loop = n) with
  | some r => (r.run.out, usable r.run.outQ)
  | none => match tget s.lpe.runs n, (wires s).find? (·.1 = n) with
    | some r, some (_, w) => (r.out, usable (loopQual s n w))
    | _, _ => (0, false)

/-- The inputs of a sample (R112, R116, R117). -/
def loopInputs (s : State) (n : Nat) (w : Wire) (run : LoopRun) : LoopIn :=
  let pv := snapQ s w.pvPt
  let sp := match w.spKind with
    | 0 => (run.sp.getD w.initSp, true)
    | 1 => snapQ s w.spRef
    | _ => loopOut s w.spRef
  let inner := if w.cascTrack then (wires s).find? fun (_, v) => v.spKind = 2 && v.spRef = n else none
  let out := (tget s.csa.img w.outPt).getD freshPoint
  { pv := pv.1, pvOk := pv.2, sp := sp.1, spOk := sp.2, ff := w.ffPt.map (snapQ s),
    outVal := (out.value.setWidth 32).toInt,
    innerTrack := inner.bind fun (m, v) =>
      let md := rd s Reg.LPE_LSTS_MODE m
      if md = 1 ∨ md = 2 ∨ md = 4 then
        let x := snapQ s v.pvPt
        some (if x.2 then x.1 else ((tget s.lpe.runs m).map (·.st.pvlast)).getD 0)
      else none
    innerSat := match inner with
      | some (m, _) => rdB s Reg.LPE_LSTS_SATHI m || rdB s Reg.LPE_LSTS_SATLO m
      | none => false }

/-- Bits as a number, lowest first. -/
def bitsNat : List Bool → Nat
  | [] => 0
  | b :: l => (if b then 1 else 0) + 2 * bitsNat l

/-- The sample of a loop on the snapshot, its bank and its state record (R110 to R117). -/
def computeLoop (s : State) (k n : Nat) (w : Wire) : LoopRes :=
  let run := runOf s n w
  let c := coefOf (bankWords (activeBank s n) n)
  let i := loopInputs s n w run
  let r := sample c run.st run.want run.held run.init i k
  let q := if r.mode = .hold then Qual.substituted else .good
  let sathi := decide (r.u = c.outhi)
  let satlo := decide (r.u = c.outlo)
  let sticky := bitsNat [r.stick.asat, sathi, satlo, r.rlim, r.stick.pvfail, r.stick.spfail, r.stick.fffail,
    r.stick.dcgain]
  ⟨n, { run with st := r.st, out := r.u, outQ := q, held := decide (r.mode = .hold) || (run.held && !i.pvOk),
                 init := r.first },
    r.mode, BitVec.ofNat 4 (bitsNat [sathi, satlo, r.rlim, r.ihold]), BitVec.ofNat 11 sticky⟩

/-- What a loop's sample is about to change, with the banks as they stand after it in `t`. -/
def loopWas (s t : State) (n : Nat) : LoopWas :=
  let awaited := match s.lpe.lcmd with | some l => l.targets.contains n | none => false
  { loop := n, run := tget s.lpe.runs n, reqs := s.lpe.reqs.filter fun r => reqLoop r = some n
    swap := if rdB t Reg.LPE_LSTS_BANK n = rdB s Reg.LPE_LSTS_BANK n then none
      else some (rdB s Reg.LPE_LSTS_S_SWAPPED n, awaited) }

/-- One loop samples: its requests and a pending swap act, then the sample is computed and waits for the LPE to
complete. -/
def sampleLoop (k : Nat) (s : State) (e : Nat × Wire) : State :=
  let t := swapBank (actReqs s e.1 e.2) e.1
  let s := { t with lpe := { t.lpe with was := t.lpe.was ++ [loopWas s t e.1] } }
  { s with lpe := { s.lpe with results := s.lpe.results ++ [computeLoop s k e.1 e.2] } }

/-- The loops due at an edge sample, rank by rank (R116); the run of the LPE begins, with the number due in each rank.
-/
def sampleLoops (s : State) (k : Nat) : State :=
  let due := sampling s k
  let rank := fun n => match s.fct.active with | some f => (rankOf f 4 n).getD 0 | none => 0
  let runs := runsControl s && decide (0 < lanesUp s)
  let perRank := (List.range 4).map fun r => (due.filter fun e => rank e.1 = r).length
  let s := { s with lpe := { s.lpe with results := [], was := [], retries := 0, run := if runs then some perRank else none } }
  (List.range 4).foldl (fun s r => (due.filter fun e => rank e.1 = r).foldl (sampleLoop k) s) s

/-! ### Completion (R114, R118) -/

/-- The cycles of a tick's run (R118). -/
def runCycles (lanes : Nat) (perRank : List Nat) : Nat :=
  128 + perRank.foldl (fun a n => a + 24 * ((n + lanes - 1) / lanes)) 0 + 8 * ((perRank.filter (0 < ·)).length - 1)

/-- QUAL of a loop shows the quality of its output (Table 5.15). -/
def showLoop (s : State) (n : Nat) (w : Wire) : State := wr s Reg.LPE_LSTS_QUAL (qualCode (loopQual s n w)) n

/-- QUAL of every enabled loop. -/
def showLoops (s : State) : State := (wires s).foldl (fun s e => showLoop s e.1 e.2) s

/-- A result as the state record and the status word hold it. -/
def putResult (s : State) (r : LoopRes) : State :=
  let n := r.loop
  let s := { s with lpe := { s.lpe with runs := tput s.lpe.runs n r.run } }
  let s := match (wires s).find? (·.1 = n) with | some (_, w) => showLoop s n w | none => s
  let s := wr (wr s Reg.LPE_LSTS_MSTATE 0 n) Reg.LPE_LSTS_MODE (lmodeCode r.mode) n
  let cur := [Reg.LPE_LSTS_SATHI, Reg.LPE_LSTS_SATLO, Reg.LPE_LSTS_RLIM, Reg.LPE_LSTS_IHOLD]
  let s := cur.zipIdx.foldl (fun s (f, i) => wrB s f (r.cur.getLsbD i) n) s
  let stk := [Reg.LPE_LSTS_S_ASAT, Reg.LPE_LSTS_S_SATHI, Reg.LPE_LSTS_S_SATLO, Reg.LPE_LSTS_S_RLIM,
    Reg.LPE_LSTS_S_PVFAIL, Reg.LPE_LSTS_S_SPFAIL, Reg.LPE_LSTS_S_FFFAIL, Reg.LPE_LSTS_S_DCGAIN]
  stk.zipIdx.foldl (fun s (f, i) => if r.sticky.getLsbD i then wr s f 1 n else s) s

/-- A result is written: state record, status word, output point. -/
def commitLoop (s : State) (r : LoopRes) : State :=
  let n := r.loop
  let s := putResult s r
  match (wires s).find? (·.1 = n) with
  | none => s
  | some (_, w) =>
    let v := BitVec.ofInt 64 r.run.out
    { s with csa := { s.csa with
        outNext := tput s.csa.outNext w.outPt (v, r.run.outQ)
        forces := s.csa.forces.map fun f => if f.point = w.outPt then { f with lastw := v } else f } }

/-- The loops of a completed run in the commits of the tick (R306, R316). -/
def noteLoops (s : State) (l : List LoopRes) : State :=
  let k := s.tb.tick
  let old := match s.rdu.commits.find? (·.tick = k) with
    | some c => c
    | none => ⟨k, [], [], [], [], 0⟩
  let c : CommitRec := { old with loops := old.loops ++ l }
  { s with rdu := { s.rdu with commits := c :: s.rdu.commits.filter (·.tick ≠ k) } }

/-- LPE_RUN_COMPLETE (R118): with no run under way, nothing. Each recomputation of R124 takes 24 cycles more, as the worst
case of R118 has it: DEDUCED (log entry 108). -/
def lpeComplete (s : State) : State :=
  match s.lpe.run with
  | none => s
  | some perRank =>
    let l := s.lpe.results
    let cyc := runCycles (max 1 (lanesUp s)) perRank + 24 * s.lpe.retries
    let s := noteLoops (l.foldl commitLoop s) l
    let s := wr { s with lpe := { s.lpe with results := [], run := none } } Reg.LPE_TIMING_LASTCYC cyc
    wr s Reg.LPE_TIMING_MAXCYC (max cyc (rd s Reg.LPE_TIMING_MAXCYC))

/-- LPE_RUN_COMPLETE: in the modes that sample. -/
def execLpeRunComplete (s : State) : Host.Outcome State Fault Refusal := .next (if runsControl s then lpeComplete s else s)

/-! ### Lane faults (R124) -/

/-- The samples of a tick without that of one loop: those whose set-point comes from it, directly or through others, are
computed on its latest output (R116). -/
def withoutLoop (s : State) (n : Nat) : List LoopRes :=
  let from_ := fun (m : Nat) (src : List Nat) => (wires s).find? fun (i, w) => i = m && w.spKind = 2 && src.contains w.spRef
  ((s.lpe.results.filter (·.loop ≠ n)).foldl (fun (a : List LoopRes × List Nat) r =>
    match from_ r.loop a.2 with
    | some (_, w) =>
      (a.1 ++ [computeLoop { s with lpe := { s.lpe with results := a.1 } } s.tb.tick r.loop w], a.2 ++ [r.loop])
    | none => (a.1 ++ [r], a.2)) ([], [n])).1

/-- A skipped sample leaves the loop's state as it was at the edge: the record is given back, the requests and a bank
swap wait for the next sample, which they are made for (R66, R120): DESIGN CHOICE (log entry 108). -/
def undoSample (s : State) (w : LoopWas) : State :=
  let n := w.loop
  let runs := match w.run with | some r => tput s.lpe.runs n r | none => tdel s.lpe.runs n
  let s := { s with lpe := { s.lpe with runs := runs, reqs := w.reqs ++ s.lpe.reqs } }
  match w.swap with
  | none => s
  | some (shown, awaited) =>
    let s := wr (wr s Reg.LPE_LSTS_BANK (1 - rd s Reg.LPE_LSTS_BANK n) n) Reg.LPE_LSTS_PENDSWAP 1 n
    let s := wrB s Reg.LPE_LSTS_S_SWAPPED shown n
    let s := match s.lpe.lcmd with
      | some l => if awaited then { s with lpe := { s.lpe with lcmd := some { l with targets := l.targets ++ [n] } } } else s
      | none => s
    saveCoef s n

/-- A loop skips its sample: its result is dropped, its state stays as it was and S_SKIP is set; the unit did not commit
(R306). -/
def skipLoop (s : State) (n : Nat) : State :=
  let s := match s.lpe.was.find? (·.loop = n) with
    | some w => undoSample { s with lpe := { s.lpe with was := s.lpe.was.filter (·.loop ≠ n) } } w
    | none => s
  let s := wr s Reg.LPE_LSTS_S_SKIP 1 n
  { s with lpe := { s.lpe with results := withoutLoop s n },
           rdu := { s.rdu with nonCommit := s.rdu.nonCommit ++ [s.tb.tick] } }

/-- The number of lanes in service changes; with none left every loop output carries RETIRED (R11, R114). -/
def lanesChanged (s : State) : State :=
  let s := wr s Reg.LPE_STATUS_LANES (lanesUp s)
  if lanesUp s = 0 then
    let s := (s.lpe.results.map (·.loop)).foldl skipLoop s
    holdCause (wr (showLoops s) Reg.LPE_STATUS_QUAL (qualCode .retired)) .loop
  else s

/-- The deadline of the LPE (R42, R31): a run that has not completed by phase 2 is a missed commit. Its samples are
dropped, and every lane in service, the LPE having no other resource, suffers an upset (R391). DESIGN CHOICE (log entry
68) which lanes it falls on. -/
def lpePhase2 (s : State) : State :=
  let missed := s.lpe.run.isSome && !s.lpe.results.isEmpty
  if missed then
    let s := (s.lpe.results.map (·.loop)).foldl skipLoop s
    let r := (List.range 8).foldl (fun (a : State) n =>
      upset a ⟨.loop, n⟩ lanesChanged |>.1) { s with lpe := { s.lpe with run := none } }
    r
  else { s with lpe := { s.lpe with run := none } }

/-- LANE_ERROR (R124): the lane suffers an upset; when the recomputation fails too the loop skips its sample. -/
def laneError (s : State) (lane : Fin 8) (loop : Fin 1024) (again : Bool) : State :=
  if rd s Reg.LPE_LANESTS_MSTATE lane.val = mstateCode .retired then s
  else
    let s := (upset s ⟨.loop, lane.val⟩ lanesChanged).1
    let hit := s.lpe.run.isSome && s.lpe.results.any (·.loop = loop.val)
    let s := if hit then { s with lpe := { s.lpe with retries := s.lpe.retries + 1 } } else s
    if again && hit then skipLoop s loop.val else s

/-- LANE_ERROR. -/
def execLaneError (lane : Fin 8) (loop : Fin 1024) (again : Bool) (s : State) : Host.Outcome State Fault Refusal :=
  .next (laneError s lane loop again)

/-! ### Host access (R119, R122, R125) -/

/-- COEF_WRITE (R119): only the inactive bank without a pending swap takes the write; else WRBLK. -/
def coefWrite (s : State) (bank : Bool) (loop : Fin 1024) (word : Fin 24) (v : BitVec 32) : State :=
  if bank = rdB s Reg.LPE_LSTS_BANK loop.val || rdB s Reg.LPE_LSTS_PENDSWAP loop.val then
    wr s Reg.LPE_STATUS_WRBLK 1
  else
    let put := fun (t : Tbl (BitVec 32)) => tset 0 t (loop.val * 24 + word.val) v
    if bank then { s with lpe := { s.lpe with bankB := put s.lpe.bankB } }
    else { s with lpe := { s.lpe with bankA := put s.lpe.bankA } }

/-- COEF_WRITE. -/
def execCoefWrite (bank : Bool) (loop : Fin 1024) (word : Fin 24) (v : BitVec 32) (s : State) :
    Host.Outcome State Fault Refusal := .next (coefWrite s bank loop word v)

/-- CRC-32 over the inactive banks of loops in ascending order (R122). -/
def banksCrc (s : State) (l : List Nat) : BitVec 32 :=
  crc32 (l.flatMap fun n => (bankWords (idleBank s n) n).flatMap fun w => leBytes 4 w.toNat)

/-- The loops of a swap group: the enabled ones, ascending. -/
def groupLoops (s : State) (g : Nat) : List Nat := ((wires s).filter (·.2.group = g)).map (·.1)

/-- A swap command at its agreement (R122): both units' checks, then PENDSWAP on every target. -/
def agreeSwap (s : State) (own : Bool) (targets : List Nat) (crc : BitVec 32) : State :=
  if targets.isEmpty then (if own then lcEnd s CC.failRefused Rsn.noLoop else s)
  else
    let ok := banksCrc s targets = crc
    let (other, s) := partnerAgrees s
    let me := if ownSide s then 2 else 1
    if ok && other then
      let s := targets.foldl (fun s n => wr s Reg.LPE_LSTS_PENDSWAP 1 n) s
      if own then { s with lpe := { s.lpe with lcmd := some ⟨targets, false⟩ } } else s
    else if own then
      lcEnd (wr s Reg.LPE_LCSTS_SIDE ((if ok then 0 else me) + (if other then 0 else 3 - me))) CC.failRefused
        Rsn.bankCheck
    else s

/-- Clears the sticky flags of a loop (R125). -/
def clearSticky (s : State) (n : Nat) : State :=
  [Reg.LPE_LSTS_S_ASAT, Reg.LPE_LSTS_S_SATHI, Reg.LPE_LSTS_S_SATLO, Reg.LPE_LSTS_S_RLIM, Reg.LPE_LSTS_S_PVFAIL,
   Reg.LPE_LSTS_S_SPFAIL, Reg.LPE_LSTS_S_FFFAIL, Reg.LPE_LSTS_S_DCGAIN, Reg.LPE_LSTS_S_SKIP, Reg.LPE_LSTS_S_REQIGN,
   Reg.LPE_LSTS_S_SWAPPED].foldl (fun s f => wr s f 0 n) s

/-- A loop command at its agreement. -/
def agreeLcmd (s : State) (own : Bool) (b : InBody) : State :=
  match b with
  | .loopSwap n crc => agreeSwap s own [n] crc
  | .groupSwap g crc => agreeSwap s own (groupLoops s g) crc
  | _ => s

/-- A CLEAR takes effect at its edge. -/
def clearInput (s : State) (own : Bool) (b : InBody) : State :=
  match b with
  | .loopClear n => let s := clearSticky s n; if own then lcEnd s CC.done 0 else s
  | .loopClearAll => let s := (List.range 1024).foldl clearSticky s; if own then lcEnd s CC.done 0 else s
  | _ => s

/-- A loop command as written (R122): BUSY, BAD_MODE, at once in HALT, else agreed. What takes effect at once in HALT is
PENDSWAP: an enabled loop exchanges its banks at its first sample after HALT (R120), and PEND reads 1 until then: DESIGN
CHOICE (log entry 108). -/
def lcmd (s : State) (b : InBody) : State :=
  if rdB s Reg.LPE_LCSTS_PEND then
    wr (wr s Reg.LPE_LCSTS_CC CC.failRefused) Reg.LPE_LCSTS_RSN Rsn.busy
  else match modeIs s with
    | .halt => clearInput (agreeLcmd (wr (wr s Reg.LPE_LCSTS_PEND 1) Reg.LPE_LCSTS_SIDE 0) true b) true b
    | .active => submitHost (wr (wr s Reg.LPE_LCSTS_PEND 1) Reg.LPE_LCSTS_SIDE 0) Reg.LPE_LCMD_CMD b
    | .standby => submitHost (wr (wr s Reg.LPE_LCSTS_PEND 1) Reg.LPE_LCSTS_SIDE 0) Reg.LPE_LCMD_CMD b
    | _ => lcEnd s CC.failRefused Rsn.badMode

/-- LCMD_SWAP_LOOP. -/
def execLcmdSwapLoop (loop : Fin 1024) (s : State) : Host.Outcome State Fault Refusal :=
  .next (lcmd s (.loopSwap loop.val (BitVec.ofNat 32 (rd s Reg.LPE_LCRC_CRC))))

/-- LCMD_SWAP_GROUP. -/
def execLcmdSwapGroup (group : Fin 16) (s : State) : Host.Outcome State Fault Refusal :=
  .next (lcmd s (.groupSwap group.val (BitVec.ofNat 32 (rd s Reg.LPE_LCRC_CRC))))

/-- LCMD_CLEAR_LOOP. -/
def execLcmdClearLoop (loop : Fin 1024) (s : State) : Host.Outcome State Fault Refusal :=
  .next (lcmd s (.loopClear loop.val))

/-- LCMD_CLEAR_ALL. -/
def execLcmdClearAll (s : State) : Host.Outcome State Fault Refusal := .next (lcmd s .loopClearAll)

/-! ### Facets and modes -/

/-- Loops under a new facet (R115, R217): a changed record starts under R115, a newly enabled loop afresh, a disabled
one is OFF. -/
def lpeFacet (old : Option Facet) (s : State) : State :=
  showLoops <| (List.range 1024).foldl (fun s n =>
    let o := old.bind fun f => f.loops[n]?
    let w := s.fct.active.bind fun f => f.loops[n]?
    if o = w then s
    else match w with
      | none => s
      | some w =>
        let was := match o with | some o => o.en | none => false
        if w.en then
          let s := wr s Reg.LPE_LSTS_MSTATE 0 n
          if was then
            match tget s.lpe.runs n with
            | some r => { s with lpe := { s.lpe with runs := tput s.lpe.runs n { r with init := true } } }
            | none => s
          else { s with lpe := { s.lpe with runs := tdel s.lpe.runs n } }
        else
          let s := { s with lpe := { s.lpe with runs := tdel s.lpe.runs n } }
          wr (wr s Reg.LPE_LSTS_MSTATE (mstateCode .offline) n) Reg.LPE_LSTS_MODE 5 n) s

/-- Every loop that `f` picks starts under R115 at its next sample. -/
def startLoops (s : State) (f : Wire → Bool) : State :=
  (wires s).foldl (fun s (n, w) =>
    if f w then { s with lpe := { s.lpe with runs := tput s.lpe.runs n { runOf s n w with init := true } } } else s) s

end Sys2Proof.Machine
end

