-- ==== Sys2Proof/Machine/Fct.lean ====
section
/-! DEFINITION. The Facet Controller (R211 to R220, 09_facets_and_live_calibration.md): PREPARE, SWAP, ABORT, DISCARD,
the phase-2 check of a swap, and the joint change. -/

namespace Sys2Proof.Machine

/-- The end of a facet command or swap. -/
def fctEnd (s : State) (code rsn : Nat) : State :=
  setStatus s Reg.FCT_SWSTS_CC Reg.FCT_SWSTS_RSN Reg.FCT_SWSTS_PEND code rsn

/-- The item a refusal names. -/
def fctRef (s : State) (r : Refuse) : State := wr (wr s Reg.FCT_REF_KIND r.kind) Reg.FCT_REF_ITEM r.item

/-- SHSTATE (Table 9.6): 0 EMPTY, 1 LOADING, 2 PREPARED, 3 ARMED. -/
def shState (s : State) (n : Nat) : State := wr s Reg.FCT_STATUS_SHSTATE n

/-- The first eight bytes of a digest as a number. -/
def digest8 (d : List Byte) : Nat := leNat (d.take 8)

/-- The shadow facet and its digest register (Table 9.9). -/
def putShadow (s : State) (f : Option Facet) : State :=
  let d := match f with | some f => digest8 f.digest | none => 0
  wr (wr { s with fct := { s.fct with shadow := f } } Reg.FCT_SHDIG_LO_SHDIG (d % 2 ^ 32)) Reg.FCT_SHDIG_HI_SHDIG (d / 2 ^ 32)

/-- The active facet and its digest register. -/
def putActive (s : State) (f : Option Facet) : State :=
  let d := match f with | some f => digest8 f.digest | none => 0
  wr (wr { s with fct := { s.fct with active := f } } Reg.FCT_ACTDIG_LO_ACTDIG (d % 2 ^ 32)) Reg.FCT_ACTDIG_HI_ACTDIG
    (d / 2 ^ 32)

/-- A facet command (Table 9.8): BUSY while one is pending, but for ABORT while a SWAP is (R220). -/
def fctCmd (s : State) (busyOk : Bool) (f : State → State) : State :=
  if rdB s Reg.FCT_SWSTS_PEND && !busyOk then
    wr (wr s Reg.FCT_SWSTS_CC CC.failRefused) Reg.FCT_SWSTS_RSN Rsn.busy
  else f s

/-! ### PREPARE and DISCARD (R213) -/

/-- The modes in which PREPARE is refused (Table 9.2). -/
def prepareMode (s : State) : Bool :=
  match modeIs s with
  | .recall => false
  | .test => false
  | .resync => false
  | .save => false
  | _ => true

/-- PREPARE: the fetch begins. -/
def prepare (s : State) : State :=
  if !prepareMode s then fctEnd s CC.failRefused Rsn.badMode
  else if rd s Reg.FCT_STATUS_SHSTATE = 3 then fctEnd s CC.failRefused Rsn.shadowArmed
  else
    let s := shState (wr (putShadow s none) Reg.FCT_SWSTS_PEND 1) 1
    { s with fct := { s.fct with preparing := some [] } }

/-- PREPARE. -/
def execPrepare (s : State) : Host.Outcome State Fault Refusal := .next (fctCmd s false prepare)

/-- Ends a PREPARE that leaves SHSTATE EMPTY. -/
def prepareFail (s : State) (code rsn : Nat) : State :=
  fctEnd (shState (putShadow { s with fct := { s.fct with preparing := none } } none) 0) code rsn

/-- MOD_CHANGE (R188): outside HALT a facet keeps DIV and SAMPDLY. -/
def modChange (s : State) (f : Facet) : Option Refuse :=
  if modeIs s ≠ .halt ∧ (rd s Reg.MTE_MODCFG_DIV ≠ f.meter.div ∨ rd s Reg.MTE_MODCFG_SAMPDLY ≠ f.meter.sampDly) then
    some (refuse Rsn.modChange 1 4)
  else none

/-- BAD_VERTEX for a UDPPORT that differs from the running value outside HALT (R273). -/
def portChange (s : State) (f : Facet) : Option Refuse :=
  match s.fct.active with
  | some a => if modeIs s ≠ .halt ∧ a.vertex.udpPort ≠ f.vertex.udpPort then some (refuse Rsn.badVertex 1 7) else none
  | none => none

/-- The facet slot that does not hold the active facet. -/
def freeFacetSlot (s : State) : Bool := !actFacetSlot s

/-- The checks of a fetched facet in the order of R213, and the request to write its slot. -/
def prepareImage (s : State) (c : List Byte) : State :=
  match verifyImage s.ssu.otp true c with
  | some r => prepareFail s CC.failAuth r
  | none =>
    let f := parseFacet c
    match firstOf [checkFacet c (running s), modChange s f, portChange s f] with
    | some r => prepareFail (fctRef s r) CC.failRefused r.rsn
    | none =>
      let s := putShadow { s with fct := { s.fct with preparing := some c } } (some f)
      nvsRequest s ⟨5, .image true (freeFacetSlot s) c, .prepare⟩

/-- PREPARE_FETCH_COMPLETE (R213): with no PREPARE fetching, nothing. -/
def execPrepareFetchComplete (f : Fetch) (s : State) : Host.Outcome State Fault Refusal :=
  .next (if s.fct.preparing = some [] then
    match f with
    | .hostAbort => prepareFail (hostAborted s) CC.failPeerUnreachable Rsn.hostAbort
    | .bytes c => prepareImage s c
  else s)

/-- DISCARD (Table 9.2): empties the shadow; refused while it is armed. -/
def discard (s : State) : State :=
  if modeIs s = .test then fctEnd s CC.failRefused Rsn.badMode
  else if rd s Reg.FCT_STATUS_SHSTATE = 3 then fctEnd s CC.failRefused Rsn.shadowArmed
  else fctEnd (shState (putShadow s none) 0) CC.done 0

/-- DISCARD. -/
def execDiscard (s : State) : Host.Outcome State Fault Refusal := .next (fctCmd s false discard)

/-! ### SWAP and ABORT (R215, R220) -/

/-- Arms a swap for a tick. -/
def armSwap (s : State) (k : Nat) (fixed : Bool) : State :=
  let s := wr (wr s Reg.FCT_SWAPTICK_LO_KF (k % 2 ^ 32)) Reg.FCT_SWAPTICK_HI_KF (k / 2 ^ 32)
  shState (wr { s with fct := { s.fct with armed := some ⟨k, false, fixed, false⟩ } } Reg.FCT_SWSTS_PEND 1) 3

/-- The rules that relate a facet to the program that runs with it, and MOD_CHANGE (R216). -/
def checkSwap (s : State) (f : Facet) (p : Option Program) : Option Refuse :=
  firstOf [modChange s f, p.bind fun p => checkFacetProgram f p]

/-- SWAP as written (R215): in HALT k_f is the next edge, else an input fixes it. -/
def swapCmd (s : State) : State :=
  let m := modeIs s
  if m ≠ .halt ∧ m ≠ .active ∧ m ≠ .standby then fctEnd s CC.failRefused Rsn.badMode
  else if rd s Reg.FCT_STATUS_SHSTATE ≠ 2 then fctEnd s CC.failRefused Rsn.notPrepared
  else match s.fct.shadow.bind (modChange s) with
    | some r => fctEnd (fctRef s r) CC.failRefused r.rsn
    | none =>
      if m = .halt then armSwap s (s.tb.tick + 1) false
      else submitHost (wr s Reg.FCT_SWSTS_PEND 1) Reg.FCT_CMD_CMD
        (.swap (rd64 s Reg.FCT_SWAPTICK_LO_KF Reg.FCT_SWAPTICK_HI_KF))

/-- SWAP. -/
def execSwap (s : State) : Host.Outcome State Fault Refusal := .next (fctCmd s false swapCmd)

/-- A SWAP refused at its agreement: while an armed swap or a running PREPARE holds this unit's register, PEND stays
that one's. -/
def refuseSwap (s : State) (rsn : Nat) : State :=
  let busy := s.fct.armed.isSome || rd s Reg.FCT_STATUS_SHSTATE = 1
  let t := fctEnd s CC.failRefused rsn
  if busy then wr t Reg.FCT_SWSTS_PEND (rd s Reg.FCT_SWSTS_PEND) else t

/-- A SWAP at its agreement in tick j (R215). With a swap already armed the shadow is not PREPARED, at the unit whose
SWAP this is; with another state at one unit of a pair the two shadows do not carry the same digest. -/
def agreeFacetSwap (s : State) (own : Bool) (kf : Nat) : State :=
  let j := s.tb.tick
  let (same, s) := partnerAgrees s
  if s.fct.armed.isSome then (if own then refuseSwap s Rsn.notPrepared else s)
  else if modeIs s ≠ .halt ∧ modeIs s ≠ .active ∧ modeIs s ≠ .standby then refuseSwap s Rsn.badMode
  else if kf ≠ 0 ∧ kf < j + 2 then refuseSwap s Rsn.tickPassed
  else if rd s Reg.FCT_STATUS_SHSTATE ≠ 2 then
    refuseSwap s (if own || !paired s then Rsn.notPrepared else Rsn.partnerFacet)
  else if !same then refuseSwap s Rsn.partnerFacet
  else armSwap s (if kf = 0 then j + 2 else kf) false

/-- A SWAP awaits its agreement or its edge (R220). -/
def swapPending (s : State) : Bool :=
  rdB s Reg.FCT_SWSTS_PEND && (s.fct.armed.isSome
    || s.rdu.own.any fun e => e.2.any fun i => match i.body with | .swap _ => true | _ => false)

/-- FACET_ABORT as written (R220): an input; the one command accepted while a SWAP is pending. -/
def execFacetAbort (s : State) : Host.Outcome State Fault Refusal :=
  .next (fctCmd s (swapPending s) fun s =>
    if modeIs s = .test then fctEnd s CC.failRefused Rsn.badMode
    else submitHost (wr s Reg.FCT_SWSTS_PEND 1) Reg.FCT_CMD_CMD (.facetAbort s.tb.tick))

/-- Ends an armed swap without its taking effect; SHSTATE returns to PREPARED, or goes where `st` says. -/
def disarmSwap (s : State) (code rsn : Nat) (st : Nat := 2) : State :=
  let s := if st = 0 then putShadow s none else s
  fctEnd (shState { s with fct := { s.fct with armed := none } } st) code rsn

/-- An ABORT at its agreement (R220, Table 9.3). -/
def agreeFacetAbort (s : State) (i : Input) (written : Nat) : State :=
  match s.fct.armed with
  | some a =>
    if a.fixed then { s with fct := { s.fct with armed := some { a with late := true } } }
    else disarmSwap s CC.failCancelled 0
  | none =>
    if mine s i then fctEnd s CC.failRefused (if written < s.fct.lastKf then Rsn.cancelTooLate else Rsn.notPrepared)
    else s

/-! ### Phase 2 of the tick before an edge (R97, R216, R218) -/

/-- Fixes an armed change. -/
def fixArmed (a : Option Armed) : Option Armed := a.map fun a => { a with fixed := true }

/-- The check of a change and a swap that are due at the next edge: alone, each by its own rules; together as one, the
one whose check failed with its reason and the other with JOINT_CHECK. -/
def recheck (s : State) : State :=
  let k := s.tb.tick + 1
  let at' := fun (a : Option Armed) => (match a with | some a => decide (a.ks = k) | none => false : Bool)
  let prog := if at' s.csa.armed then loaded s else none
  let facet := if at' s.fct.armed then s.fct.shadow else none
  let fr := match s.csa.armed with | some a => a.forceRelease | none => false
  let pBad := prog.bind fun p => firstOf [checkAgainst (if facet.isSome then none else s.fct.active) p,
    checkRunning s p (if facet.isSome then facet else s.fct.active) fr, (running s).bind fun o => checkChange o p]
  let fBad := facet.bind fun f => checkSwap s f (match prog with | some p => some p | none => running s)
  let joint := prog.isSome && facet.isSome
  let refuseP := fun (s : State) (rsn : Nat) => disarm s CC.failRefused rsn
  let refuseF := fun (s : State) (rsn : Nat) => disarmSwap s CC.failRefused rsn
  match pBad, fBad with
  | none, none =>
    let s := if prog.isSome then { s with csa := { s.csa with armed := fixArmed s.csa.armed } } else s
    if facet.isSome then { s with fct := { s.fct with armed := fixArmed s.fct.armed } } else s
  | some p, none =>
    let s := refuseP (olcRef s p) p.rsn
    if joint then refuseF s Rsn.jointCheck
    else if facet.isSome then { s with fct := { s.fct with armed := fixArmed s.fct.armed } } else s
  | none, some f =>
    let s := refuseF (fctRef s f) f.rsn
    if joint then refuseP s Rsn.jointCheck
    else if prog.isSome then { s with csa := { s.csa with armed := fixArmed s.csa.armed } } else s
  | some p, some f => refuseF (fctRef (refuseP (olcRef s p) p.rsn) f) f.rsn

/-- The swap itself (R217): the facets exchange roles and the slot record is asked for; the units' own parts follow. -/
def exchangeFacets (s : State) (a : Armed) (f : Facet) : State :=
  let slot := freeFacetSlot s
  let s := putShadow (putActive { s with fct := { s.fct with armed := none, lastKf := a.ks } } (some f)) none
  let s := wrB (wr (shState s 0) Reg.FCT_STATUS_SLOTPEND 1) Reg.FCT_STATUS_ACTSLOT slot
  let s := wr s Reg.SSU_SVN_FSVN f.svn
  let s := saveSlots s (liveProgSlot s) slot .slotFacet
  fctEnd s CC.done (if a.late then Rsn.cancelTooLate else 0)

end Sys2Proof.Machine
end

