-- ==== Sys2Proof/Machine/CscLink.lean ====
section
/-! DEFINITION. The links and the tree of a cascade, the frames a unit puts on them, and the way of a frame addressed to
one unit (R299, R322, R323). -/

namespace Sys2Proof.Machine

/-! ### Links and tree -/

/-- A link is accepted: trained, the CHELLO since its training taken, not retired (R322). -/
def clOk (s : State) (n : Nat) : Bool :=
  rdB s Reg.CSC_CFG_EN && rdB s Reg.CSC_CLSTS_LOCK n && s.csc.accepted.contains n
    && decide (resState s ⟨.cascade, n⟩ ≠ .retired)

/-- This unit is the tick root (R323): the ACTIVE unit of M0, or M0 as a single unit. -/
def isRoot (s : State) : Bool :=
  rdB s Reg.CSC_CFG_EN && decide (ownMember s = 0) && (!rdB s Reg.RDU_CFG_PAIRED || decide (modeIs s = .active))

/-- A link brings tick markers: none of the last three is missing (R35, R325). -/
def brings (s : State) (n : Nat) : Bool :=
  clOk s n && (match tget s.csc.marks n with | some t => decide (s.tb.tick < t + 3) | none => false)

/-- A tree link: to the parent or a child; with no root, a link of the tree that remains (R323, R333). -/
def treeLink (s : State) (n : Nat) : Bool := clOk s n && s.csc.tree.contains n

/-- The roster bit of a unit (Table 14.5). -/
def rosterBit (member : Fin 8) (side : Side) : Nat := 2 * member.val + (if side then 1 else 0)

/-- The parent link (R323). -/
def parentLink (s : State) : Option (Fin 4) := (List.finRange 4).find? fun m => m.val = rd s Reg.CSC_STATUS_PARENT

/-! ### Frames sent -/

/-- Puts a frame on a link with its header, whose FSEQ counts the frames of that link (R322, R299). -/
def sendCasc (s : State) (n : Fin 4) (b : CascBody) : State :=
  let q := (tget s.csc.seqOut n.val).getD 0
  let s := emit s (.casc n (frameHead s false q s.tb.tick) b)
  { s with csc := { s.csc with seqOut := tput s.csc.seqOut n.val (q + 1) } }

/-- Puts a frame on every link that passes a test. -/
def sendWhere (s : State) (p : Fin 4 → Bool) (b : CascBody) : State :=
  ((List.finRange 4).filter p).foldl (fun s n => sendCasc s n b) s

/-- The side of this unit's parts (R330): a single unit counts as side A. -/
def partSide (s : State) : Side := rdB s Reg.RDU_CFG_PAIRED && ownSide s

/-- This unit's address and its coordinator's, M0 on the same side (R330). -/
def myAddr (s : State) : CAddr := ⟨ownMember s, partSide s⟩
def coordAddr (s : State) : CAddr := ⟨0, partSide s⟩

/-- The link towards a unit (R323): the one on which its STATE comes, else towards the root. -/
def linkTo (s : State) (d : CAddr) : Option (Fin 4) :=
  match tget s.csc.routes (rosterBit d.member d.side) with
  | some r => if treeLink s r.1 && decide (s.tb.tick < r.2 + 3) then some r.1 else parentLink s
  | none => parentLink s

/-- Sends a frame of a partitioned solve on its way along the tree (R323). -/
def sendPart (s : State) (src dst : CAddr) (f : CplFrame) : State :=
  match linkTo s dst with
  | some n => if treeLink s n then sendCasc s n (.part src dst f) else s
  | none => s

/-- Sends a frame of the solve to each of a list of members on this unit's side. -/
def sendParts (s : State) (l : List (Fin 8)) (f : CplFrame) : State :=
  l.foldl (fun s m => sendPart s (myAddr s) ⟨m, partSide s⟩ f) s

/-! ### Frames received -/

/-- Takes a frame off a link (R299, R322): only CHELLO and KEEP on one that is not accepted, and of each FSEQ the first
copy. The Boolean says whether the frame is new. -/
def clTake (s : State) (n : Fin 4) (h : ChordHead) (hello : Bool) : State × Bool :=
  if !rdB s Reg.CSC_CFG_EN || !rdB s Reg.CSC_CLSTS_LOCK n.val || decide (resState s ⟨.cascade, n.val⟩ = .retired)
      || (!hello && !clOk s n.val) then (s, false)
  else
    let put := fun (g : List (Nat × BitVec 32 × Bool)) (f : BitVec 32) =>
      ({ s with csc := { s.csc with seqIn := tput s.csc.seqIn n.val f, gaps := g } }, true)
    match tget s.csc.seqIn n.val with
    | none => put s.csc.gaps h.fseq
    | some f =>
      if newer32 h.fseq f then
        put (s.csc.gaps ++ (List.range ((h.fseq - f).toNat - 1)).map fun i => (n.val, f + 1 + BitVec.ofNat 32 i, false)) h.fseq
      else if s.csc.gaps.any (fun g => decide (g.1 = n.val) && decide (g.2.1 = h.fseq)) then
        put (s.csc.gaps.filter fun g => !(decide (g.1 = n.val) && decide (g.2.1 = h.fseq))) f
      else (s, false)

/-- A frame of a partitioned solve: acted on by the unit it is addressed to, else sent on (R323). One for M0 on side B
ends at a single M0, which has no other unit. -/
def partFrame (s : State) (n : Fin 4) (h : ChordHead) (src dst : CAddr) (f : CplFrame) (act : State → State) : State :=
  let (s, new) := clTake s n h false
  let last := decide (ownMember s = 0) && decide (dst.member = 0) && !rdB s Reg.RDU_CFG_PAIRED
  if !new then s
  else if dst = myAddr s || last then act s
  else sendPart s src dst f

/-- Asks for the missing frames of a link, once (R299). -/
def askGaps (s : State) (n : Fin 4) : State :=
  let l := (s.csc.gaps.filter fun g => decide (g.1 = n.val) && !g.2.2).map (·.2.1)
  if l.isEmpty then s
  else sendCasc { s with csc := { s.csc with
    gaps := s.csc.gaps.map fun g => if g.1 = n.val then (g.1, g.2.1, true) else g } } n (.resend l)

end Sys2Proof.Machine
end

