-- ==== Sys2Proof/Machine/Hmx.lean ====
section
/-! DEFINITION. The host interface and external memory (R284 to R296, 12_network_host_memory.md): MSI-X, the solver
window, DMA queues, BAR2 and DDR5. -/

namespace Sys2Proof.Machine

/-! ### MSI-X (R285) -/

/-- A word of the MSI-X table; the vector-control word of an unwritten entry masks it (log entry 4). -/
def msixWord (s : State) (k : Nat) : BitVec 32 := (tget s.hmx.msixTab k).getD (if k % 4 = 3 then 1 else 0)

/-- A vector is masked. -/
def msixMasked (s : State) (vec : Nat) : Bool := (msixWord s (vec * 4 + 3)).getLsbD 0

/-- Raises a vector: a masked one sets its pending bit (R285). -/
def msix (s : State) (vec : Nat) : State :=
  if msixMasked s vec then
    if s.hmx.msixPend.contains vec then s else { s with hmx := { s.hmx with msixPend := s.hmx.msixPend ++ [vec] } }
  else emit s (.msix vec)

/-- Writes a word of the MSI-X table; clearing a mask sends a pending message. -/
def msixWrite (s : State) (k : Nat) (v : BitVec 32) : State :=
  let s := { s with hmx := { s.hmx with msixTab := tput s.hmx.msixTab k v } }
  let vec := k / 4
  if !msixMasked s vec && s.hmx.msixPend.contains vec then
    emit { s with hmx := { s.hmx with msixPend := s.hmx.msixPend.filter (· ≠ vec) } } (.msix vec)
  else s

/-- MSIX_UNMASK (R285). -/
def execMsixUnmask (vec : Fin 64) (s : State) : Host.Outcome State Fault Refusal :=
  .next (msixWrite s (vec.val * 4 + 3) (msixWord s (vec.val * 4 + 3) &&& ~~~1))

/-! ### The solver window (R134, R290, R291) -/

/-- The modes in which the Lattice Solver and the DMA queues run (R130). -/
def lsvRuns (s : State) : Bool :=
  match modeIs s with
  | .halt => true
  | .active => true
  | .standby => true
  | .resync => true
  | .safehold => true
  | _ => false

/-- Bytes of a tile's SRAM. -/
def tileBytes : Nat := 4 * 2 ^ 20

/-- Where DDR5 begins in the window. -/
def ddrBase : Nat := 0x1000000000

/-- DDR5 is fitted, as HMX_DDRCFG says, and trained (R293, R294). DRAM 3, to which Table 12.8 gives no meaning, counts as
fitted: DESIGN CHOICE (log entry 100). -/
def ddrUp (s : State) : Bool :=
  decide (rd s Reg.HMX_DDRCFG_DRAM ≠ 0) && (rdB s Reg.HMX_DDRSTS_CH0 || rdB s Reg.HMX_DDRSTS_CH1)

/-- DDR5 is trained and not in self-refresh (R296). -/
def ddrAwake (s : State) : Bool := ddrUp s && !s.hmx.selfRefresh

/-- A tile's status. -/
def tileState (s : State) (t : Nat) : MState := mstateOf (rd s Reg.LSV_TILESTS_MSTATE t)

/-- A whole range of window addresses lies in the host area of one tile in service or of the DDR5 (R291). The DDR5 in
self-refresh takes no access, as if it were not trained: DESIGN CHOICE (log entry 100). -/
def windowOk (s : State) (a n : Nat) : Bool :=
  if a < 16 * tileBytes then
    decide (a / tileBytes = (a + n - 1) / tileBytes)
      && decide (tileBytes ≤ a % tileBytes + rd s Reg.HMX_SPLIT_SRAMHOST * 1024)
      && tileState s (a / tileBytes) != .retired
  else
    ddrAwake s && decide (ddrBase + rd s Reg.HMX_SPLIT_DDRWS * 2 ^ 26 ≤ a)
      && decide (a + n ≤ ddrBase + rd s Reg.HMX_DDRSTS_SIZE * 2 ^ 26)

/-- The bytes of a window range; one that nothing has written since the reset is a free value (log entry 5). -/
def windowRead (s : State) (a : Nat) : Nat → List Byte × State
  | 0 => ([], s)
  | n + 1 =>
    let t := if a < 16 * tileBytes then s.hmx.sram else s.hmx.ddr
    let (b, s) := match tget t a with
      | some b => (b, s)
      | none => (freeByte s.free, { s with free := s.free + 1 })
    let r := windowRead s (a + 1) n
    (b :: r.1, r.2)

/-- Writes bytes in the window. -/
def windowWrite (s : State) (a : Nat) : List Byte → State
  | [] => s
  | b :: bs =>
    let h := s.hmx
    windowWrite { s with hmx := if a < 16 * tileBytes then { h with sram := tput h.sram a b }
                                else { h with ddr := tput h.ddr a b } } (a + 1) bs

/-- An address of R134: whether it lies in the solver window, and its bits 62:0. -/
def inWindow (a : Nat) : Bool := decide (2 ^ 63 ≤ a)
def lowAddr (a : Nat) : Nat := a % 2 ^ 63

/-- Puts bytes where an address of R134 says. -/
def deviceWrite (s : State) (a : Nat) (bs : List Byte) : State :=
  if inWindow a then windowWrite s (lowAddr a) bs else emit s (.hostWrite (lowAddr a) bs)

/-! ### DMA queues (R288, R289) -/

/-- A descriptor's entry in the ring of a queue: CODE and REASON first, then DONE, then TAIL, then the vector (R288). -/
def dmaEnd (s : State) (q : Fin 4) (code rsn : Nat) : State :=
  let tail := rd s Reg.HMX_DMATAIL_TAIL q.val
  let base := rd64 s Reg.HMX_DMABASE_LO_BASE Reg.HMX_DMABASE_HI_BASE q.val
  let at_ := base + 32 * (tail % 2 ^ rd s Reg.HMX_DMACFG_LOG q.val)
  let s := emit s (.hostWrite (at_ + 21) [BitVec.ofNat 8 code, BitVec.ofNat 8 rsn])
  let s := emit s (.hostWrite (at_ + 23) [1])
  let s := { s with hmx := { s.hmx with dmaEcc := s.hmx.dmaEcc.set q false } }
  msix (wr s Reg.HMX_DMATAIL_TAIL (tail + 1) q.val) (rd s Reg.HMX_DMACFG_VEC q.val)

/-- A descriptor is waiting in a queue that runs. -/
def dmaBusy (s : State) (q : Fin 4) : Bool :=
  rdB s Reg.HMX_DMACFG_EN q.val && rd s Reg.HMX_DMATAIL_TAIL q.val != s.hmx.dmaHead[q]

/-- DMA_DOORBELL (R288): the head index. -/
def execDmaDoorbell (q : Fin 4) (head : BitVec 32) (s : State) : Host.Outcome State Fault Refusal :=
  .next { s with hmx := { s.hmx with dmaHead := s.hmx.dmaHead.set q head.toNat } }

/-- The outcome of a descriptor by its fields (Table 12.4), before its data moves. -/
def dmaCheck (s : State) (d : List Byte) : Option (Nat × Nat) :=
  let src := leAt d 0 8
  let dst := leAt d 8 8
  let n := leAt d 16 4
  if leAt d 20 1 ≠ 0 ∨ n % 8 ≠ 0 ∨ n < 8 ∨ 2 ^ 24 < n ∨ src % 8 ≠ 0 ∨ dst % 8 ≠ 0 ∨ leAt d 23 1 ≠ 0
      ∨ (!inWindow src && !inWindow dst) then some (CC.failRefused, Rsn.badDescriptor)
  else if (inWindow src && !windowOk s (lowAddr src) n) || (inWindow dst && !windowOk s (lowAddr dst) n) then
    some (CC.failRefused, Rsn.workspace)
  else none

/-- The bytes a copy moves: from host memory as read, from the window what it holds. -/
def dmaBytes (s : State) (d : List Byte) (host : List Byte) : List Byte × State :=
  let n := leAt d 16 4
  if inWindow (leAt d 0 8) then windowRead s (lowAddr (leAt d 0 8)) n else (host.take n, s)

/-- A copy that does not end DONE leaves its destination partly written (R289): how many of its bytes reached it is a free
value. -/
def dmaPart (s : State) (d : List Byte) (host : List Byte) : State :=
  let (bs, s) := dmaBytes s d host
  let (k, s) := nextFree s
  deviceWrite s (leAt d 8 8) (bs.take ((freeWord k).toNat % (bs.length + 1)))

/-- The copy of a descriptor that passed its checks, and its outcome (Table 12.4). An abort is one of a host end, a memory
error one of a read of the window. -/
def dmaCopy (s : State) (q : Fin 4) (d : List Byte) (seen : DmaSeen) : State :=
  let toOrFromHost := !inWindow (leAt d 0 8) || !inWindow (leAt d 8 8)
  let (code, rsn, host) := match seen with
    | .ok bs => (CC.done, 0, bs)
    | .hostAbort bs => if toOrFromHost then (CC.failPeerUnreachable, Rsn.hostAbort, bs) else (CC.done, 0, bs)
    | .memEcc => if inWindow (leAt d 0 8) then (CC.failTransientExhausted, Rsn.memEcc, []) else (CC.done, 0, [])
  let (code, rsn) := if s.hmx.dmaEcc[q] then (CC.failTransientExhausted, Rsn.memEcc) else (code, rsn)
  if code = CC.done then
    let (bs, s) := dmaBytes s d host
    dmaEnd (deviceWrite s (leAt d 8 8) bs) q code rsn
  else
    let s := dmaPart s d host
    dmaEnd (if rsn = Rsn.hostAbort then hostAborted s else s) q code rsn

/-- DMA_DESCRIPTOR_END (R289): in the modes of R130 with a descriptor waiting, else nothing. The queues take turns in
taking descriptors, each having one under way, so the copies of several may end in any order. -/
def execDmaDescriptorEnd (q : Fin 4) (desc : List Byte) (seen : DmaSeen) (s : State) :
    Host.Outcome State Fault Refusal :=
  .next (if dmaBusy s q && lsvRuns s then
    match dmaCheck s desc with
    | some r => dmaEnd s q r.1 r.2
    | none => dmaCopy s q desc seen
  else s)

/-- The outcome of what a reset left in a ring, taken once (R23, R286, R288). -/
def takeLeft (s : State) (ring : Fin 5) : Option (Nat × Nat) × State :=
  (s.hmx.left[ring], { s with hmx := { s.hmx with left := s.hmx.left.set ring none } })

/-- Reports the descriptors that a reset left, from TAIL up to the head (R288); one that the ring shows as DONE already
was reported before the reset, and TAIL passes it. -/
def dmaReport (s : State) (q : Fin 4) (code rsn : Nat) (left : List LeftDesc) : Nat → State
  | 0 => s
  | n + 1 =>
    let tail := rd s Reg.HMX_DMATAIL_TAIL q.val
    let done := left.any fun d => decide (d.index = tail) && decide (leAt d.bytes 23 1 ≠ 0)
    dmaReport (if done then wr s Reg.HMX_DMATAIL_TAIL (tail + 1) q.val else dmaEnd s q code rsn) q code rsn left n

/-- DMA_QUEUE_ENABLE (R288, Table 12.9, R431): LOG outside 6 to 12 refuses EN; base and LOG stand while EN is 1;
descriptors a reset left are reported before new work. A base that is not 4 KiB aligned is used as it is: DESIGN CHOICE
(log entry 100). -/
def dmaEnable (s : State) (q : Fin 4) (v : BitVec 32) (left : List LeftDesc) : State :=
  let x := v.toNat
  let was := rdB s Reg.HMX_DMACFG_EN q.val
  let s := wr s Reg.HMX_DMACFG_VEC (bitsOf x 5 6) q.val
  let s := if was then s else wr s Reg.HMX_DMACFG_LOG (bitsOf x 1 4) q.val
  let log := rd s Reg.HMX_DMACFG_LOG q.val
  if x % 2 = 0 then wr s Reg.HMX_DMACFG_EN 0 q.val
  else if was ∨ log < 6 ∨ 12 < log then s
  else
    let s := wr s Reg.HMX_DMACFG_EN 1 q.val
    let ring : Fin 5 := ⟨q.val, by omega⟩
    let (o, s) := takeLeft s ring
    match o with
    | none => s
    | some (code, rsn) =>
      let n := (s.hmx.dmaHead[q] + 2 ^ 32 - rd s Reg.HMX_DMATAIL_TAIL q.val) % 2 ^ 32
      dmaReport s q code rsn left (min n (2 ^ log))

/-- DMA_QUEUE_ENABLE. -/
def execDmaQueueEnable (q : Fin 4) (v : BitVec 32) (left : List LeftDesc) (s : State) :
    Host.Outcome State Fault Refusal := .next (dmaEnable s q v left)

/-! ### BAR2, DDR5 and the link (R287, R290, R291, R294, R295, R432) -/

/-- The window address a BAR2 offset maps to (R290). -/
def bar2Addr (s : State) (off : Nat) : Nat :=
  if off < 2 ^ 26 then off else ddrBase + rd s Reg.HMX_B2DDR_BASE * 2 ^ 26 + (off - 2 ^ 26)

/-- BAR2_REFUSED (R291, R287): an access to workspace, a retired tile or untrained DDR5 reads 0 or is ignored and
counts; one whose range is host area is no refused access and acts on the memory (R290). -/
def execBar2Refused (off bytes : Nat) (w : Option (List Byte)) (s : State) : Host.Outcome State Fault Refusal :=
  let a := bar2Addr s off
  let ok := windowOk s a bytes
  let s := if ok then s else bump s Reg.HMX_HERR_ACC
  .next (match w with
    | none =>
      if ok then
        let r := windowRead s a bytes
        emit r.2 (.readData (BitVec.ofNat 64 (leNat r.1)))
      else emit s (.readData 0)
    | some bs => if ok then windowWrite s a (bs.take bytes) else s)

/-- DDR_TRAIN_COMPLETE (R294): each channel's rate, not above the configured one, or its disabling, in RECALL with DDR5
fitted; `size` is the fitted capacity in 64 MiB units, 8 to 32 GiB (R293), of which one channel carries half. A degraded
outcome is recorded with the rate codes reached. -/
def ddrTrain (s : State) (ch0 ch1 : Option (Fin 4)) (size : BitVec 10) : State :=
  let fast := fun (c : Option (Fin 4)) => c.any fun r => decide (r.val < rd s Reg.HMX_DDRCFG_RATE)
  if modeIs s ≠ .recall ∨ rd s Reg.HMX_DDRCFG_DRAM = 0 ∨ fast ch0 ∨ fast ch1 ∨ size.toNat < 128 ∨ 512 < size.toNat then s
  else
    let code := fun (c : Option (Fin 4)) => match c with | some r => r.val | none => 0
    let want := rd s Reg.HMX_DDRCFG_RATE
    let low := fun (c : Option (Fin 4)) => match c with | some r => decide (want < r.val) | none => true
    let s := wrB (wrB s Reg.HMX_DDRSTS_CH0 ch0.isSome) Reg.HMX_DDRSTS_CH1 ch1.isSome
    let s := wr (wr s Reg.HMX_DDRSTS_RATE0 (code ch0)) Reg.HMX_DDRSTS_RATE1 (code ch1)
    let s := wr s Reg.HMX_DDRSTS_SIZE (if ch0.isNone && ch1.isNone then 0
      else if ch0.isSome && ch1.isSome then size.toNat else size.toNat / 2)
    if low ch0 || low ch1 then event s Ev.ddrTrain .warning [code ch0, code ch1] else s

/-- DDR_TRAIN_COMPLETE. -/
def execDdrTrainComplete (ch0 ch1 : Option (Fin 4)) (size : BitVec 10) (s : State) : Host.Outcome State Fault Refusal :=
  .next (ddrTrain s ch0 ch1 size)

/-- DDR_PATROL_SCRUB (R295): corrected words count. -/
def execDdrPatrolScrub (corrected : Nat) (s : State) : Host.Outcome State Fault Refusal :=
  .next (if ddrAwake s then bump s Reg.HMX_DDRSTS_CORR 0 corrected else s)

/-- What the endpoint presents to configuration requests (R284). The Vendor ID is the one registered to Lapeza
Semiconductor, which the spec does not print. -/
structure PcieConfig where
  vendorId : BitVec 16
  deviceId : BitVec 16
  revisionId : BitVec 8
  classCode : BitVec 24
  bar0 : Nat
  bar2 : Nat
  bar4 : Nat
  interruptPin : Nat
  maxPayload : Nat
  maxRead : Nat
  tagBits : Nat
  aer : Bool
  functionReset : Bool
  aspm : Bool
  d3hot : Bool
  noSoftReset : Bool
  msixVectors : Nat
  deriving DecidableEq, Repr

/-- The answer to a configuration request: none, which stands for Configuration Request Retry Status, until the endpoint
is ready (R287). -/
def pcieConfig (s : State) : Option PcieConfig :=
  if s.hmx.cfgReady then
    some { vendorId := (freeWord 0).setWidth 16, deviceId := 0x4810, revisionId := BitVec.ofNat 8 (rd s Reg.HMX_ID_BLKREV),
           classCode := 0x118000, bar0 := 2 ^ 26, bar2 := 2 ^ 30, bar4 := 0, interruptPin := 0, maxPayload := 512,
           maxRead := 4096, tagBits := 10, aer := true, functionReset := true, aspm := false, d3hot := true,
           noSoftReset := false, msixVectors := 64 }
  else none

/-- PCIE_LINK_TRAINED (R284, R432): rate, width and LINKUP, at ×1, ×2 or ×4. From here the endpoint answers configuration
requests, of whose time R287 gives a bound: DESIGN CHOICE (log entry 100). -/
def execPcieLinkTrained (gen : Fin 4) (width : Fin 8) (s : State) : Host.Outcome State Fault Refusal :=
  .next (if width = 1 ∨ width = 2 ∨ width = 4 then
      { wr (wr (wr (wr s Reg.HMX_STATUS_GEN gen.val) Reg.HMX_STATUS_WIDTH width.val) Reg.HMX_STATUS_LINKUP 1)
          Reg.HMX_STATUS_QUAL 0 with hmx := { s.hmx with cfgReady := true } }
    else s)

end Sys2Proof.Machine
end

