-- ==== Sys2Proof/Machine/Real.lean ====
section
/-! DEFINITION. binary64 and binary32 arithmetic on whole patterns, as the engines that work in binary64 use it. -/

namespace Sys2Proof.Machine

/-- The value of a binary64 pattern. -/
def dVal (w : Word) : FVal := fRead fmt64 w.toNat

/-- A result as a pattern. -/
def dPat (r : FRes) : Word := BitVec.ofNat 64 r.bits

/-- Sum, difference, product, quotient and square root, each rounded once. -/
def dAdd (a b : Word) : Word := dPat (fAdd fmt64 (dVal a) (dVal b))
def dSub (a b : Word) : Word := dPat (fAdd fmt64 (dVal a) (fNeg (dVal b)))
def dMul (a b : Word) : Word := dPat (fMul fmt64 (dVal a) (dVal b))
def dDiv (a b : Word) : Word := dPat (fDiv fmt64 (dVal a) (dVal b))
def dSqrt (a : Word) : Word := dPat (fSqrt fmt64 (dVal a))

/-- The negated value. -/
def dNeg (a : Word) : Word := a ^^^ 0x8000000000000000

/-- The magnitude. -/
def dAbs (a : Word) : Word := a &&& 0x7FFFFFFFFFFFFFFF

/-- An integer times 2^e, rounded. -/
def dInt (v : Int) (e : Int := 0) : Word := dPat (fOfInt fmt64 v e)

/-- Order of two values; a NaN is neither less nor at most. -/
def dLt (a b : Word) : Bool := !(dVal a).isNan && !(dVal b).isNan && fOrder (dVal a) (dVal b) < 0
def dLe (a b : Word) : Bool := !(dVal a).isNan && !(dVal b).isNan && fOrder (dVal a) (dVal b) ≤ 0

/-- The larger of two values. -/
def dMax (a b : Word) : Word := if dLt a b then b else a

/-- A value is below zero; a zero of either sign is not. -/
def dIsNeg (a : Word) : Bool := dLt a 0

/-- A value times 2^k rounded to an integer, nearest, ties to even; none for a NaN or an infinity. -/
def dRound (a : Word) (k : Int) : Option Int :=
  match dVal a with
  | .fin n m e => some (roundEven n m (e + k))
  | _ => none

/-- The magnitude of a value times 2^k rounded to an integer, nearest, ties away from zero; none for a NaN or an
infinity. -/
def dMagAway (a : Word) (k : Int) : Option Nat :=
  match dVal a with
  | .fin _ m e =>
    let q := e + k
    some (if 0 ≤ q then m * 2 ^ q.toNat else (2 * m + 2 ^ (-q).toNat) / 2 ^ ((-q).toNat + 1))
  | _ => none

/-- The floor of a value. -/
def dFloor (a : Word) : Option Int :=
  match dVal a with
  | .fin n m e =>
    let v : Int := if n then -(m : Int) else m
    some (if 0 ≤ e then v * 2 ^ e.toNat else v / 2 ^ (-e).toNat)
  | _ => none

/-- binary32 and binary64, each from the other. -/
def sOfD (a : Word) : BitVec 32 := BitVec.ofNat 32 (fConv fmt32 (dVal a)).bits
def dOfS (a : BitVec 32) : Word := dPat (fConv fmt64 (fRead fmt32 a.toNat))

end Sys2Proof.Machine
end

