-- ==== Sys2Proof/Machine/LsvNum.lean ====
section
/-! DEFINITION. The numerical work of the Lattice Solver (R132, R136, R142 to R147 and the symbolic and numeric phases of
06): reductions in an order that the elimination structure fixes, the symbolic phase, LDLᵀ and LU without interchanges,
the pivot rule, the triangular solves and the refinement. Every function takes the order of the sums as an argument; the
machine gives it the device's (log entry 63). -/

namespace Sys2Proof.Machine

/-! ### Operations in the precision of a phase -/

/-- A result of a format as a binary64 pattern. -/
def nPat (single : Bool) (r : FRes) : Word := if single then dOfS (BitVec.ofNat 32 r.bits) else dPat r

/-- The format of a phase. -/
def nFmt (single : Bool) : FFmt := if single then fmt32 else fmt64

/-- c + a × b with one rounding, a product, a sum and a quotient in the precision of a phase. -/
def nFma (single : Bool) (c a b : Word) : Word := nPat single (fFma (nFmt single) (dVal c) (dVal a) (dVal b))
def nMul (single : Bool) (a b : Word) : Word := nPat single (fMul (nFmt single) (dVal a) (dVal b))
def nAdd (single : Bool) (a b : Word) : Word := nPat single (fAdd (nFmt single) (dVal a) (dVal b))
def nDiv (single : Bool) (a b : Word) : Word := nPat single (fDiv (nFmt single) (dVal a) (dVal b))

/-- A binary64 value taken into the precision of a phase. -/
def nTake (single : Bool) (a : Word) : Word := if single then dOfS (sOfD a) else a

/-- A value is finite. -/
def dFinite (w : Word) : Bool := match dVal w with | .fin .. => true | _ => false

/-- 1.0 and −1.0. -/
def dOne : Word := 0x3FF0000000000000
def dMinusOne : Word := 0xBFF0000000000000

/-! ### Reductions (R132) -/

/-- The order of the sums of a job: for a sum, by its key, and a number of products. -/
abbrev Red := List Nat → Nat → RTree

/-- The leaves of an order. -/
def treeLeaves : RTree → List Nat
  | .leaf i => [i]
  | .node l r => treeLeaves l ++ treeLeaves r

/-- The order that adds the products one after another. -/
def treeChain : Nat → RTree
  | 0 => .leaf 0
  | n + 1 => .node (treeChain n) (.leaf (n + 1))

/-- The order of a sum of `n` products, every leaf once. -/
def treeFor (red : Red) (key : List Nat) (n : Nat) : RTree :=
  let t := red key n
  if (treeLeaves t).length = n + 1 ∧ (List.range (n + 1)).all (treeLeaves t).contains then t else treeChain n

/-- An order with each leaf `i` renamed to the `i`-th of a list. -/
def treeOver (l : List Nat) : RTree → RTree
  | .leaf i => .leaf (l.getD i 0)
  | .node a b => .node (treeOver l a) (treeOver l b)

/-- The order that adds groups of products one after another, each group summed by itself in an order of its own
(R174); the leaves of a group are given. -/
def treeGroups (red : Red) (key : List Nat) (acc : RTree) (groups : List (List Nat)) : RTree :=
  groups.zipIdx.foldl (fun acc (l, p) =>
    if l.isEmpty then acc else .node acc (treeOver l (treeFor red (p :: key) (l.length - 1)))) acc

/-- A tree that is one product. -/
def treeTerm : RTree → Option Nat
  | .leaf (i + 1) => some i
  | _ => none

/-- The value of a sum in an order: a single product joins a partial sum by a fused multiply-add, partial sums are
added. -/
def treeEval (single : Bool) (c : Word) (ts : List (Word × Word)) : RTree → Word
  | .leaf 0 => c
  | .leaf (i + 1) => match ts[i]? with | some (a, b) => nMul single a b | none => 0
  | .node l r =>
    match (treeTerm r).bind fun i => ts[i]?, (treeTerm l).bind fun i => ts[i]? with
    | some (a, b), _ => nFma single (treeEval single c ts l) a b
    | none, some (a, b) => nFma single (treeEval single c ts r) a b
    | none, none => nAdd single (treeEval single c ts l) (treeEval single c ts r)

/-- c plus the sum of products. Of none it is c, of one a fused multiply-add; of more the order is the device's. -/
def redSum (single : Bool) (red : Red) (key : List Nat) (c : Word) : List (Word × Word) → Word
  | [] => c
  | [(a, b)] => nFma single c a b
  | ts => treeEval single c ts (treeFor red key ts.length)

/-! ### Vectors -/

/-- An element of a vector. -/
def vAt (v : List Word) (i : Nat) : Word := v.getD i 0

/-- The ∞-norm. -/
def vNorm (v : List Word) : Word := v.foldl (fun a w => dMax a (dAbs w)) 0

/-- Every element is finite. -/
def vFinite (v : List Word) : Bool := v.all dFinite

/-- The negated vector. -/
def vNeg (v : List Word) : List Word := v.map dNeg

/-! ### Matrices by their entries -/

/-- A matrix by its entries: row, column, value, in original indices; a symmetric one by its lower triangle. -/
abbrev Entries := List (Nat × Nat × Word)

/-- The products of row `i` of a matrix with a vector, a symmetric matrix counted in both triangles. -/
def rowTerms (sym : Bool) (m : Entries) (v : List Word) (i : Nat) : List (Word × Word) :=
  m.filterMap fun (r, c, w) =>
    if r = i then some (w, vAt v c) else if sym ∧ c = i then some (w, vAt v r) else none

/-- ‖A‖∞: the largest sum of magnitudes of a row of the full matrix (R142). -/
def matNorm (red : Red) (sym : Bool) (n : Nat) (m : Entries) : Word :=
  (List.range n).foldl (fun a i =>
    dMax a (redSum false red [0, i] 0 ((rowTerms sym (m.map fun e => (e.1, e.2.1, dAbs e.2.2)) (List.replicate n dOne) i)))) 0

/-- b − A x (R145). -/
def residual (red : Red) (sym : Bool) (m : Entries) (x b : List Word) : List Word :=
  b.zipIdx.map fun (w, i) => redSum false red [1, i] w ((rowTerms sym m x i).map fun (a, v) => (dNeg a, v))

/-! ### The symbolic phase -/

/-- An entry of the lower triangle of the permuted pattern, a symmetric one of A + Aᵀ; `pos` holds the position of each
original index. -/
def permuted (pos : List Nat) (pat : List (Nat × Nat)) : List (Nat × Nat) :=
  pat.map fun (r, c) =>
    let (i, j) := (pos.getD r 0, pos.getD c 0)
    if i < j then (j, i) else (i, j)

/-- The position of each original index under a permutation. -/
def positions (perm : List Nat) : List Nat := (List.range perm.length).map fun j => perm.idxOf j

/-- The rows below the diagonal in each column of the factor: those of the pattern and of the children in the
elimination tree. -/
def colStructs (n : Nat) (low : List (Nat × Nat)) : List (List Nat) :=
  (List.range n).foldl (fun cs k =>
    let kids := cs.filter fun c => c.head? = some k
    cs ++ [(List.range n).filter fun i => decide (k < i) && (low.contains (i, k) || kids.any (·.contains i))]) []

/-- The columns left of the diagonal in row `i` of the factor. -/
def rowStruct (cs : List (List Nat)) (i : Nat) : List Nat := (List.range i).filter fun k => (cs.getD k []).contains i

/-- The entries of a factor: one triangle with its diagonal, or both of an LU factor. -/
def factorEntries (sym : Bool) (cs : List (List Nat)) : Nat :=
  let off := cs.foldl (fun a c => a + c.length) 0
  cs.length + (if sym then off else 2 * off)

/-- The first column of each front. -/
def frontHeads (cs : List (List Nat)) : List Nat :=
  (List.range cs.length).filter fun k =>
    k = 0 || !((cs.getD (k - 1) []).head? = some k && (cs.getD (k - 1) []).length = (cs.getD k []).length + 1)

/-- The supernodes' fronts: a column joins the one before it when it is its parent and its rows are that column's
others. Each front has its parent front and its order. -/
def frontsOf (cs : List (List Nat)) : List (Option Nat × Nat) :=
  let heads := frontHeads cs
  let front := fun (k : Nat) => (heads.filter (· ≤ k)).length - 1
  let last := fun (f : Nat) => (heads.getD (f + 1) cs.length) - 1
  heads.zipIdx.map fun (k, f) => ((cs.getD (last f) []).head?.map front, (cs.getD k []).length + 1)

/-! ### The numeric phase (R142 to R144) -/

/-- How pivots are judged: the threshold δ, and for an original index the expected sign, negative or not; none where the
sign of the pivot is the one expected (UNSYM). -/
structure PivotRule where
  delta : Word
  neg : Nat → Option Bool

/-- A pivot after R143: its value, whether it was replaced, and whether it is kept with an unexpected sign (R144). -/
def judgePivot (p : PivotRule) (j : Nat) (d : Word) : Word × Bool × Bool :=
  let s := (p.neg j).getD (dIsNeg d)
  if dLt (dAbs d) p.delta then (if s then dNeg p.delta else p.delta, true, false)
  else (d, false, (p.neg j).isSome && dIsNeg d != s)

/-- What a factorisation gives: its rows, pivots replaced and of unexpected sign, and whether an operation overflowed
(R147). -/
structure FactRes where
  rows : List FRow
  reg : Nat
  inertia : Nat
  ovf : Bool

/-- The value a matrix holds at a place of the permuted matrix; 0 where none is stored. -/
def entryAt (m : List (Nat × Nat × Word)) (i j : Nat) : Word := ((m.find? fun e => e.1 = i ∧ e.2.1 = j).map (·.2.2)).getD 0

/-- An entry of a row by column. -/
def rowAt (l : List (Nat × Word)) (j : Nat) : Option Word := (l.find? fun e => e.1 = j).map (·.2)

/-- Row `i` of LDLᵀ, with the numerators `w` of its entries: w_ij = a_ij − Σ l_jm w_im, l_ij = w_ij ÷ d_j. -/
def ldlRow (single : Bool) (red : Red) (m : Entries) (rows : List FRow) (cols : List Nat) (i : Nat) :
    List (Nat × Word) × List (Nat × Word) :=
  cols.foldl (fun (w, l) j =>
    let lj := (rows.getD j default).l
    let ts := w.filterMap fun (k, v) => (rowAt lj k).map fun a => (dNeg a, v)
    let v := redSum single red [2, i, j] (nTake single (entryAt m i j)) ts
    (w ++ [(j, v)], l ++ [(j, nDiv single v (rows.getD j default).d)])) ([], [])

/-- The diagonal of row `i`, or an entry left over at (i, j) when only the first rows are eliminated. -/
def ldlRest (single : Bool) (red : Red) (m : Entries) (i j : Nat) (w lj : List (Nat × Word)) : Word :=
  redSum single red [2, i, j] (nTake single (entryAt m i j)) (w.filterMap fun (k, v) => (rowAt lj k).map fun a => (dNeg a, v))

/-- LDLᵀ of a permuted lower triangle, the first `elim` of `n` rows; the rows after them keep what is left of the
matrix in `u` (the Schur complement, R183). An overflow stops it. -/
def ldl (single : Bool) (red : Red) (rule : PivotRule) (perm : List Nat) (m : Entries) (cs : List (List Nat))
    (elim : Nat) : FactRes :=
  (List.range perm.length).foldl (fun (r : FactRes) i =>
    if r.ovf then r
    else
      let (w, l) := ldlRow single red m r.rows ((rowStruct cs i).filter (· < elim)) i
      let bad := !(w ++ l).all fun e => dFinite e.2
      if i < elim then
        let (d, reg, ine) := judgePivot rule (perm.getD i 0) (ldlRest single red m i i w l)
        let bad := bad || !dFinite d
        ⟨r.rows ++ [⟨l, d, []⟩], r.reg + (if reg && !bad then 1 else 0), r.inertia + (if ine && !bad then 1 else 0), bad⟩
      else
        let left := (List.range (i + 1)).filterMap fun j =>
          if j < elim then none
          else some (j, ldlRest single red m i j w (if j = i then l else (r.rows.getD j default).l))
        ⟨r.rows ++ [⟨l, 0, left⟩], r.reg, r.inertia, bad || !left.all fun e => dFinite e.2⟩) ⟨[], 0, 0, false⟩

/-- LU of a permuted matrix without interchanges: l_ij = (a_ij − Σ l_im u_mj) ÷ u_jj, u_ij = a_ij − Σ l_im u_mj. -/
def lu (single : Bool) (red : Red) (rule : PivotRule) (perm : List Nat) (m : Entries) (cs : List (List Nat)) : FactRes :=
  (List.range perm.length).foldl (fun (r : FactRes) i =>
    if r.ovf then r
    else
      let num := fun (l : List (Nat × Word)) (j : Nat) =>
        redSum single red [3, i, j] (nTake single (entryAt m i j)) (l.filterMap fun (k, a) =>
          (rowAt (r.rows.getD k default).u j).map fun v => (dNeg a, v))
      let l := (rowStruct cs i).foldl (fun l j => l ++ [(j, nDiv single (num l j) (r.rows.getD j default).d)]) []
      let (d, reg, _) := judgePivot rule (perm.getD i 0) (num l i)
      let u := (cs.getD i []).map fun j => (j, num l j)
      let bad := !dFinite d || !(l ++ u).all fun e => dFinite e.2
      ⟨r.rows ++ [⟨l, d, u⟩], r.reg + (if reg && !bad then 1 else 0), 0, bad⟩) ⟨[], 0, 0, false⟩

/-- The numeric phase: the matrix permuted and factorised, with the order of its rows. -/
def factorise (single sym : Bool) (red : Red) (rule : PivotRule) (perm : List Nat) (m : Entries)
    (pat : List (Nat × Nat)) : FactRes :=
  let pos := positions perm
  let cs := colStructs perm.length (permuted pos pat)
  let at_ := fun (e : Nat × Nat × Word) =>
    let (i, j) := (pos.getD e.1 0, pos.getD e.2.1 0)
    if sym ∧ i < j then (j, i, e.2.2) else (i, j, e.2.2)
  if sym then ldl single red rule perm (m.map at_) cs perm.length else lu single red rule perm (m.map at_) cs

/-! ### Solving (R145) -/

/-- The precision of a solve against a factor (log entry 63). -/
def solvePrec (f : Factor) : Bool := f.single && solveSingle

/-- The forward elimination of a right-hand side by position, over the rows that were eliminated and the rows left
over. -/
def forward (single : Bool) (red : Red) (rows : List FRow) (b : List Word) : List Word :=
  rows.zipIdx.foldl (fun y (r, i) =>
    y ++ [redSum single red [4, i] (nTake single (vAt b i)) (r.l.map fun (j, a) => (dNeg a, vAt y j))]) []

/-- The entries of column `i` of the unit factor below row `i`. -/
def colBelow (rows : List FRow) (i : Nat) : List (Nat × Word) :=
  rows.zipIdx.filterMap fun (r, k) => (rowAt r.l i).map fun a => (k, a)

/-- The back substitution over the first `elim` rows, `tail` being what is known of the positions after them. -/
def backward (single : Bool) (red : Red) (sym : Bool) (rows : List FRow) (elim : Nat) (y tail : List Word) : List Word :=
  (List.range elim).reverse.foldl (fun x i =>
    let r := rows.getD i default
    let right := if sym then colBelow rows i else r.u
    let ts := right.map fun (j, a) => (dNeg a, vAt x (j - i - 1))
    let v := if sym then redSum single red [5, i] (nDiv single (vAt y i) r.d) ts
      else nDiv single (redSum single red [5, i] (vAt y i) ts) r.d
    v :: x) tail

/-- A solve against a factor, in original indices. -/
def solveWith (red : Red) (f : Factor) (b : List Word) : List Word :=
  let single := solvePrec f
  let y := forward single red f.rows (f.perm.map (vAt b))
  let x := backward single red f.sym f.rows f.rows.length y []
  (positions f.perm).map (vAt x)

/-! ### Refinement (R145, R146) -/

/-- How the refinement of a column ended: passed or not, at the cap or stalled, after how many steps, at which ratio,
the last iterate and the one of least residual norm, and whether an operation overflowed. -/
structure Refined where
  passed : Bool
  cap : Bool
  stall : Bool
  steps : Nat
  ratio : Word
  x : List Word
  best : List Word
  ovf : Bool
  deriving DecidableEq, Repr

/-- The residual ratio (R145); 0 when the residual is 0. -/
def ratioOf (anorm rnorm xnorm bnorm : Word) : Word :=
  if rnorm = 0 then 0 else dDiv rnorm (nFma false bnorm anorm xnorm)

/-- The loop of R145 from step `i` with an iterate, the norm of the residual before it, and the best so far; `fuel`
covers the cap. -/
def refineLoop (red : Red) (sym : Bool) (m : Entries) (f : Factor) (anorm tol : Word) (cap : Nat) (b : List Word) :
    Nat → Nat → List Word → Word → List Word → Word → Refined
  | 0, i, x, _, best, _ => ⟨false, true, false, i, 0, x, best, false⟩
  | fuel + 1, i, x, rprev, best, rbest =>
    let r := residual red sym m x b
    let rn := vNorm r
    let ratio := ratioOf anorm rn (vNorm x) (vNorm b)
    let out := fun (p c s o : Bool) => (⟨p, c, s, i, ratio, x, best, o⟩ : Refined)
    if !vFinite x || !vFinite r || !dFinite ratio then out false false false true
    else if dLe ratio tol then out true false false false
    else if i = cap then out false true false false
    else if 0 < i ∧ dLt (dMul 0x3FE0000000000000 rprev) rn then out false false true false
    else
      let dx := solveWith red f r
      let x' := (x.zip dx).map fun (a, d) => dAdd a d
      let rn' := vNorm (residual red sym m x' b)
      let (best, rbest) := if dLt rn' rbest then (x', rn') else (best, rbest)
      refineLoop red sym m f anorm tol cap b fuel (i + 1) x' rn best rbest

/-- A solve with its refinement. -/
def refine (red : Red) (sym : Bool) (m : Entries) (f : Factor) (anorm tol : Word) (cap : Nat) (b : List Word) : Refined :=
  let x := solveWith red f b
  refineLoop red sym m f anorm tol cap b (cap + 1) 0 x 0 x (vNorm (residual red sym m x b))

/-- What a refined solve goes on with: the iterate that passed, or the best one (R146, R167). -/
def Refined.value (r : Refined) : List Word := if r.passed then r.x else r.best

/-- The largest step in [0, …] that keeps the given quantities from falling below zero: each with its change; +∞ where
nothing falls (R165). -/
def largestStep (l : List (Word × Word)) : Word :=
  l.foldl (fun a (v, d) => if dIsNeg d then (let q := dDiv (dNeg v) d; if dLt q a then q else a) else a) 0x7FF0000000000000

end Sys2Proof.Machine
end

