-- ==== Sys2Proof/Machine/LsvJob.lean ====
section
/-! DEFINITION. What a Lattice Solver job's descriptor and operands say (R133 to R138, R158 to R162, R173): the checks at
fetch and at loading, the structure fingerprint, and the pivot and refinement rules (R142 to R147, R164 to R170). -/

namespace Sys2Proof.Machine

/-! ### The descriptor (Table 6.2) -/

def dKind (d : List Byte) : Nat := leAt d 0 1
def dSym (d : List Byte) : Nat := leAt d 1 1
def dFmt (d : List Byte) : Nat := leAt d 2 1 % 16
def dBlock (d : List Byte) : Nat := leAt d 2 1 / 16
def dOpt (d : List Byte) : Nat := leAt d 4 1
def dPrio (d : List Byte) : Nat := dOpt d % 4
def dSingle (d : List Byte) : Bool := bitsOf (dOpt d) 2 1 = 1
def dAccept (d : List Byte) : Bool := bitsOf (dOpt d) 3 1 = 1
def dOrder (d : List Byte) : Bool := bitsOf (dOpt d) 4 1 = 1
def dSaveH (d : List Byte) : Bool := bitsOf (dOpt d) 5 1 = 1
def dUseH (d : List Byte) : Bool := bitsOf (dOpt d) 6 1 = 1
def dHandle (d : List Byte) : Nat := leAt d 5 1
def dMbox (d : List Byte) : Nat := leAt d 6 1
def dCap (d : List Byte) : Nat := if leAt d 7 1 = 0 then 8 else leAt d 7 1
def dTag (d : List Byte) : Nat := leAt d 8 8
def dN (d : List Byte) : Nat := leAt d 16 4
def dPrimal (d : List Byte) : Nat := leAt d 20 4
def dNnz (d : List Byte) : Nat := leAt d 24 4
def dNrhs (d : List Byte) : Nat := leAt d 28 2
def dFprint (d : List Byte) : Nat := leAt d 32 8
def dWord (d : List Byte) (o : Nat) : Word := BitVec.ofNat 64 (leAt d o 8)
def dDeltaAbs (d : List Byte) : Word := dWord d 40
def dDeltaRel (d : List Byte) : Word := dWord d 48
def dTol (d : List Byte) : Word := if leAt d 56 8 % 2 ^ 63 = 0 then 0x3D10000000000000 else dWord d 56
def dBudget (d : List Byte) : Nat := leAt d 64 4
def dSol (d : List Byte) : Nat := leAt d 112 8

/-- The kinds of the optimisation chapter. -/
def isQp (d : List Byte) : Bool := dKind d = 5 || dKind d = 6

/-- A binary64 value is finite and not negative. -/
def dNonNeg (w : Word) : Bool := dFinite w && !dIsNeg w

/-- A pattern is a zero of either sign, which selects a default. -/
def zeroPat (v : Nat) : Bool := v % 2 ^ 63 = 0

/-- The block size of a BSC matrix. -/
def bscSize (d : List Byte) : Nat := match dBlock d with | 1 => 4 | 2 => 8 | 3 => 16 | _ => 1

/-- BAD_DESCRIPTOR at fetch (Table 6.8, Table 6.2, R159): an address that a kind does not use is 0 (R134, Table 6.3). -/
def descBad (d : List Byte) : Bool :=
  let k := dKind d
  let z := fun o n => leAt d o n != 0
  let addr := [72, 80, 88, 96, 104, 112, 120].any fun o => leAt d o 8 % 8 != 0
  let solve := k = 3 || k = 4
  let unused := (if k = 7 then [72, 80] else if dFmt d = 2 then [72, 80] else []) ++ (if k = 1 ∨ k = 7 then [88] else [])
    ++ (if k = 1 ∨ k = 2 ∨ k = 7 then [104, 112] else [])
  z 30 2 || z 68 4 || z 3 1 || decide (128 ≤ dOpt d) || decide (k < 1) || decide (7 < k) || decide (2 < dSym d)
    || decide (2 < dFmt d) || (if dFmt d = 1 then decide (dBlock d < 1 ∨ 3 < dBlock d) else dBlock d != 0)
    || ((dSaveH d || dUseH d || k = 7) && decide (31 < dHandle d))
    || (decide (15 < dMbox d) && dMbox d != 255) || decide (31 < leAt d 7 1)
    || decide (dN d < 1 ∨ 16777215 < dN d) || (dFmt d = 2 && decide (32768 < dN d))
    || (dFmt d = 1 && dN d % bscSize d != 0)
    || (if dSym d = 2 then decide (dPrimal d < 1 ∨ dN d - 1 < dPrimal d) else dPrimal d != 0)
    || (if dFmt d = 2 then dNnz d != 0 else decide (dNnz d < 1 ∨ 2 ^ 31 - 1 < dNnz d))
    || (if solve then decide (dNrhs d < 1 ∨ 64 < dNrhs d) else dNrhs d != 0)
    || !(dNonNeg (dDeltaAbs d) && dLt 0 (dDeltaAbs d)) || !dNonNeg (dDeltaRel d) || !dNonNeg (dWord d 56)
    || addr || (unused.any fun o => z o 8) || (!dOrder d && z 96 8) || (!isQp d && z 120 8) || (k = 3 && !dUseH d)
    || (isQp d && (dSym d != 2 || leAt d 2 1 != 0 || z 72 8 || z 80 8 || z 88 8 || z 104 8))
    || (k = 6 && dOrder d)

/-! ### The extension block (Table 7.1) -/

def xMe (x : List Byte) : Nat := leAt x 0 4
def xMi (x : List Byte) : Nat := leAt x 4 4
def xCap (x : List Byte) : Nat := if leAt x 20 1 = 0 then 50 else leAt x 20 1
def xPostDeg (x : List Byte) : Bool := bitsOf (leAt x 21 1) 0 1 = 1
def xWarmPt (x : List Byte) : Bool := bitsOf (leAt x 21 1) 1 1 = 1
def xStages (x : List Byte) : Nat := leAt x 22 2
def xParts (x : List Byte) : Nat := if leAt x 24 1 = 0 then 8 else leAt x 24 1
def xMember (x : List Byte) : Bool := leAt x 25 1 = 1
def xEps (x : List Byte) (o : Nat) (dflt : Word) : Word := if zeroPat (leAt x o 8) then dflt else BitVec.ofNat 64 (leAt x o 8)
/-- 10^−8 in binary64. -/
def eps8 : Word := 0x3E45798EE2308C3A
def xCert (x : List Byte) : Nat := leAt x 208 8
def xReport (x : List Byte) : Nat := leAt x 216 8
def xPostOff (x : List Byte) : Nat := leAt x 224 4
def xPostLen (x : List Byte) : Nat := leAt x 228 4
def xCjob (x : List Byte) : BitVec 32 := BitVec.ofNat 32 (leAt x 232 4)
def xNcpl (x : List Byte) : Nat := leAt x 236 4
def xCplWait (x : List Byte) : Nat := leAt x 240 4

/-- BAD_DESCRIPTOR of the extension block (R161, Table 7.1, R174): EPS_P, EPS_D and EPS_G are non-negative, an infinity
included; EPS_INF has no range. -/
def extBad (d x : List Byte) : Bool :=
  let n := dPrimal d
  let mpc := dKind d = 6
  let z := fun o k => leAt x o k != 0
  let tau := BitVec.ofNat 64 (leAt x 64 8)
  let nn := fun o => dLe 0 (BitVec.ofNat 64 (leAt x o 8))
  decide (16777214 < xMe x) || decide (16777214 < xMi x) || decide (dN d ≠ n + xMe x + xMi x)
    || decide (dNnz d ≠ leAt x 8 4 + leAt x 12 4 + leAt x 16 4) || decide (4 ≤ leAt x 21 1)
    || (if mpc then decide (xStages x < 2 ∨ 1024 < xStages x) || decide (16 < leAt x 24 1)
          || decide (xStages x < xParts x)
        else z 22 2 || z 24 1)
    || decide (1 < leAt x 25 1) || z 26 4 || z 30 2 || z 244 4
    || !nn 32 || !nn 40 || !nn 48
    || (!zeroPat tau.toNat && !(dLe 0x3FECCCCCCCCCCCCD tau && dLe tau 0x3FEFFF2E48E8A71E))
    || ([72, 80, 88, 96, 104, 112, 120, 128, 136, 144, 152, 160, 168, 176, 184, 192, 208, 216, 248].any fun o =>
          leAt x o 8 % 8 != 0)
    || (!mpc && z 184 8) || decide (xPostLen x < 1 ∨ 16384 < xPostLen x) || decide (n < xPostOff x + xPostLen x)
    || (if xMember x then decide (xCjob x = 0) || decide (xNcpl x < 1 ∨ 4096 < xNcpl x)
          || decide (xCplWait x < 1 ∨ 1000000 < xCplWait x) || !z 248 8
        else z 248 8)

/-! ### Structure and data (R135 to R137, R161, R173) -/

/-- The column pointers rise from 0 to the number of entries. -/
def ptrOk (p : List Nat) (cols nnz : Nat) : Bool :=
  p.length = cols + 1 && p.head? = some 0 && p.getLast? = some nnz && (p.zip p.tail).all fun (a, b) => a ≤ b

/-- The row indices of column `c`. -/
def colRows (m : Csc) (c : Nat) : List Nat := (m.rowidx.take (m.colptr.getD (c + 1) 0)).drop (m.colptr.getD c 0)

/-- Indices in range, strictly ascending, and none above the diagonal of a lower triangle. -/
def rowsOk (m : Csc) (cols rows : Nat) (lower : Bool) : Bool :=
  (List.range cols).all fun c =>
    let l := colRows m c
    l.all (fun r => r < rows && (!lower || c ≤ r)) && (l.zip l.tail).all fun (a, b) => a < b

/-- A matrix in compressed columns is well formed. -/
def cscOk (m : Csc) (cols rows nnz : Nat) (lower : Bool) : Bool :=
  ptrOk m.colptr cols nnz && m.rowidx.length = nnz && rowsOk m cols rows lower

/-- A permutation of 0 to n − 1. -/
def permOk (p : List Nat) (n : Nat) : Bool := p.length = n && p.all (· < n) && decide p.Nodup

/-- The places of a matrix in compressed columns: row and column of each entry, in the order of ROWIDX. -/
def cscPlaces (m : Csc) (cols : Nat) : List (Nat × Nat) :=
  (List.range cols).flatMap fun c => (colRows m c).map fun r => (r, c)

/-- Its entries with their values. -/
def cscEntries (m : Csc) (cols : Nat) : Entries :=
  (cscPlaces m cols).zipIdx.map fun ((r, c), i) => (r, c, vAt m.values i)

/-- The places of a block of order `b` at block row `r` and column `c` that the device reads: all, or of a diagonal
block of a symmetric matrix the lower triangle (R135). -/
def blockPlaces (b : Nat) (sym : Bool) (r c : Nat) : List (Nat × Nat) :=
  (List.range b).flatMap fun j => (List.range b).filterMap fun i =>
    if sym ∧ r = c ∧ i < j then none else some (i, j)

/-- The entries of the matrix of a linear job that the device reads (R135, Table 6.4), by FMT. -/
def matEntries (d : List Byte) (m : Csc) : Entries :=
  let n := dN d
  let b := bscSize d
  let sym := dSym d != 0
  match dFmt d with
  | 0 => cscEntries m n
  | 1 => (cscPlaces m (n / b)).zipIdx.flatMap fun ((r, c), k) => (blockPlaces b sym r c).map fun (i, j) =>
      (r * b + i, c * b + j, vAt m.values (k * b * b + j * b + i))
  | _ => (blockPlaces n sym 0 0).map fun (i, j) => (i, j, vAt m.values (j * n + i))

/-- The places of its pattern. -/
def matPattern (d : List Byte) (m : Csc) : List (Nat × Nat) := (matEntries d m).map fun e => (e.1, e.2.1)

/-- The stages of R173. -/
def stagesOk (d x : List Byte) (o : JobData) : Bool :=
  let n := dPrimal d
  let st := fun i => o.stageMap.getD i 0
  let row := fun (m : Csc) base => (cscPlaces m n).all fun (r, c) =>
    let t := st (base + r)
    st c = t || st c + 1 = t
  o.stageMap.length = dN d && o.stageMap.all (· < xStages x)
    && (cscPlaces o.h n).all (fun (r, c) => st c ≤ st r + 1 && st r ≤ st c + 1)
    && row o.e n && row o.g (n + xMe x)

/-- BAD_STRUCTURE of a linear job. -/
def linearStructBad (d : List Byte) (o : JobData) : Bool :=
  let b := bscSize d
  (dFmt d != 2 && !cscOk o.a (dN d / b) (dN d / b) (dNnz d) (dSym d != 0)) || (dOrder d && !permOk o.perm (dN d))

/-- BAD_STRUCTURE of a QP job by R137; coupling indices that are out of range or not strictly ascending count to it (log
entry 72). -/
def qpStructBad (d x : List Byte) (o : JobData) : Bool :=
  let n := dPrimal d
  !cscOk o.h n n (leAt x 8 4) true || !cscOk o.e n (xMe x) (leAt x 12 4) false
    || !cscOk o.g n (xMi x) (leAt x 16 4) false || (dOrder d && !permOk o.perm (dN d))
    || (xMember x && !(o.cplIdx.length = xNcpl x && o.cplIdx.all (· < n)
          && (o.cplIdx.zip o.cplIdx.tail).all fun (a, b) => a < b))

/-- The infinities of binary64. -/
def dPosInf : Word := 0x7FF0000000000000
def dNegInf : Word := 0xFFF0000000000000

/-- BAD_DATA of the bounds (R161). -/
def boundsBad (lo hi : List Word) : Bool :=
  lo.any (fun w => (dVal w).isNan || w = dPosInf) || hi.any (fun w => (dVal w).isNan || w = dNegInf)
    || (lo.zip hi).any fun (a, b) => dLe b a

/-- The bytes of a list of 32-bit indices. -/
def u32s (l : List Nat) : List Byte := l.flatMap (leBytes 4)

/-- The fingerprint (R138, R162). -/
def fingerprint (d x : List Byte) (o : JobData) : BitVec 64 :=
  let head := (d.drop 1).take 2 ++ (d.drop 16).take 12
  let perm := if dOrder d then u32s o.perm else []
  let bs :=
    if isQp d then
      head ++ x.take 20 ++ u32s o.h.colptr ++ u32s o.h.rowidx ++ u32s o.e.colptr ++ u32s o.e.rowidx
        ++ u32s o.g.colptr ++ u32s o.g.rowidx
        ++ (if dKind d = 6 then o.stageMap.flatMap (leBytes 2) else perm)
        ++ (if xMember x then u32s o.cplIdx else [])
    else if dFmt d = 2 then head
    else head ++ u32s o.a.colptr ++ u32s o.a.rowidx ++ perm
  BitVec.ofNat 64 (leNat ((sha512 bs).take 8))

/-- The checks of a job's operands as it loads them, in order, with the reason of the first that fails: those of R137 on
what the job's kind loads, for a programme the extension block first and the stages after the values (R161, log entry
72). -/
def operandsBad (d x : List Byte) (o : JobData) (fp : BitVec 64) : Option Nat :=
  let bad := fun (c : Bool) r => if c then some r else none
  let fpBad := bad (dFprint d != 0 && dFprint d != fp.toNat) Rsn.fprintMismatch
  let l : List (Option Nat) :=
    if dKind d = 7 then []
    else if isQp d then
      [bad (extBad d x) Rsn.badDescriptor, bad (qpStructBad d x o) Rsn.badStructure,
       bad (!vFinite (o.h.values ++ o.e.values ++ o.g.values ++ o.q ++ o.evec ++ o.gvec)
         || boundsBad o.lo o.hi) Rsn.badData, bad (dKind d = 6 && !stagesOk d x o) Rsn.badStructure, fpBad]
    else
      [bad (linearStructBad d o) Rsn.badStructure,
       bad (dKind d != 1 && !((matEntries d o.a).all (dFinite ·.2.2) && vFinite o.rhs)) Rsn.badData, fpBad]
  l.findSome? id

/-! ### Loading (R134, R137, R149) -/

/-- The bytes an operand address gives: of host memory as read, of the solver window as it holds them. -/
def loadBytes (s : State) (o : JobOperands) (a n : Nat) : List Byte × State :=
  if inWindow a then windowRead s (lowAddr a) n
  else
    let bs := ((o.host.find? (·.1 = a)).map (·.2)).getD []
    ((List.range n).map fun i => bs.getD i 0, s)

/-- An array of `n` little-endian numbers of `k` bytes. -/
def loadNats (k : Nat) (s : State) (o : JobOperands) (a n : Nat) : List Nat × State :=
  let (bs, s) := loadBytes s o a (k * n)
  ((List.range n).map fun i => leAt bs (k * i) k, s)

/-- An array of `n` binary64 values. -/
def loadWords (s : State) (o : JobOperands) (a n : Nat) : List Word × State :=
  let (l, s) := loadNats 8 s o a n
  (l.map (BitVec.ofNat 64), s)

/-- A matrix in compressed columns of `cols` columns, `nnz` places and `vals` values. -/
def loadCsc (s : State) (o : JobOperands) (ptr idx val cols nnz vals : Nat) : Csc × State :=
  let (p, s) := loadNats 4 s o ptr (cols + 1)
  let (r, s) := loadNats 4 s o idx nnz
  let (v, s) := loadWords s o val vals
  (⟨p, r, v⟩, s)

/-- The operands a linear job loads (Table 6.3): ANALYSE no values, B only for the solves. -/
def loadLinear (s : State) (o : JobOperands) (d : List Byte) : JobData × State :=
  let n := dN d
  let b := bscSize d
  let vals := if dKind d = 1 then 0 else if dFmt d = 2 then n * n else dNnz d * b * b
  let (a, s) := if dFmt d = 2 then
      let (v, s) := loadWords s o (leAt d 88 8) vals
      ((⟨[], [], v⟩ : Csc), s)
    else loadCsc s o (leAt d 72 8) (leAt d 80 8) (leAt d 88 8) (n / b) (dNnz d) vals
  let (perm, s) := if dOrder d then loadNats 4 s o (leAt d 96 8) n else ([], s)
  let (rhs, s) := if dKind d = 3 ∨ dKind d = 4 then loadWords s o (leAt d 104 8) (n * dNrhs d) else ([], s)
  ({ (default : JobData) with a := a, perm := perm, rhs := rhs }, s)

/-- The operands a programme loads (Table 7.1). -/
def loadQp (s : State) (o : JobOperands) (d x : List Byte) : JobData × State :=
  let n := dPrimal d
  let (me, mi) := (xMe x, xMi x)
  let p := fun (k : Nat) => leAt x k 8
  let (h, s) := loadCsc s o (p 72) (p 80) (p 88) n (leAt x 8 4) (leAt x 8 4)
  let (e, s) := loadCsc s o (p 96) (p 104) (p 112) n (leAt x 12 4) (leAt x 12 4)
  let (g, s) := loadCsc s o (p 120) (p 128) (p 136) n (leAt x 16 4) (leAt x 16 4)
  let (q, s) := loadWords s o (p 144) n
  let (ev, s) := loadWords s o (p 152) me
  let (gv, s) := loadWords s o (p 160) mi
  let (lo, s) := loadWords s o (p 168) n
  let (hi, s) := loadWords s o (p 176) n
  let (perm, s) := if dOrder d then loadNats 4 s o (leAt d 96 8) (dN d) else ([], s)
  let (st, s) := if dKind d = 6 then loadNats 2 s o (p 184) (dN d) else ([], s)
  let (ci, s) := if xMember x then loadNats 4 s o (p 248) (xNcpl x) else ([], s)
  let (w, s) := if xWarmPt x then loadWords s o (p 192) (dN d + mi + 2 * n) else ([], s)
  (⟨⟨[], [], []⟩, perm, [], h, e, g, q, ev, gv, lo, hi, st, ci, w⟩, s)

/-! ### The ordering (R136, R173, R174, R183) -/

/-- The device ordering of a pattern of order `n` (log entry 63); a full pattern keeps its order, since every tie
breaks to the lowest index. -/
def deviceOrder (n : Nat) (pat : List (Nat × Nat)) : List Nat :=
  let full := (List.range n).all fun i => (List.range n).all fun j => i ≤ j || pat.contains (i, j) || pat.contains (j, i)
  let l := amdOrder n pat
  if !full && permOk l n then l else List.range n

/-- The pattern of K (R164): the lower triangle, every diagonal entry in it (R136). -/
def kktPattern (d x : List Byte) (o : JobData) : List (Nat × Nat) :=
  let n := dPrimal d
  cscPlaces o.h n ++ (cscPlaces o.e n).map (fun (r, c) => (n + r, c))
    ++ (cscPlaces o.g n).map (fun (r, c) => (n + xMe x + r, c)) ++ (List.range (dN d)).map fun i => (i, i)

/-- The indices of one stage in the order of R173: the device ordering of the stage's own pattern, those that the next
stage refers to last. -/
def stageOrder (d : List Byte) (o : JobData) (pat : List (Nat × Nat)) (t : Nat) : List Nat :=
  let st := fun i => o.stageMap.getD i 0
  let own := (List.range (dN d)).filter fun i => st i = t
  let inner := pat.filterMap fun (r, c) => if st r = t ∧ st c = t then some (own.idxOf r, own.idxOf c) else none
  let l := (deviceOrder own.length inner).map fun i => own.getD i 0
  let late := fun (i : Nat) => pat.any fun (r, c) => (c = i && st r = t + 1) || (r = i && st c = t + 1)
  (l.filter fun i => !late i) ++ l.filter late

/-- The part of a stage (R174): parts of ⌈NSTAGE ÷ PARTS⌉ stages. -/
def partOf (x : List Byte) (t : Nat) : Nat := t / ((xStages x + xParts x - 1) / xParts x)

/-- The part of a variable or row. -/
def partAt (x : List Byte) (o : JobData) (i : Nat) : Nat := partOf x (o.stageMap.getD i 0)

/-- An index that a later part refers to: a boundary of its part (R174). -/
def isBoundary (x : List Byte) (o : JobData) (pat : List (Nat × Nat)) (i : Nat) : Bool :=
  let part := partAt x o
  pat.any fun (r, c) => (c = i && part i < part r) || (r = i && part i < part c)

/-- The stage-major ordering of a horizon: each part in turn with its boundary, the indices that the next part refers
to, left for the end (R173, R174). -/
def horizonOrder (d x : List Byte) (o : JobData) (pat : List (Nat × Nat)) : List Nat :=
  let l := (List.range (xStages x)).flatMap (stageOrder d o pat)
  (l.filter fun i => !isBoundary x o pat i) ++ l.filter (isBoundary x o pat)

/-- The in-service indices of the tiles that part `p` runs on, with `t` tiles in service (R174). -/
def partTiles (parts t p : Nat) : List Nat :=
  if t < parts then [p % t] else (List.range t).filter fun i => i % parts = p

/-- The ordering of a job: the host's permutation, the stages', or the device's; a cascade part has its coupling
variables last (R183). -/
def jobOrder (d x : List Byte) (o : JobData) : List Nat :=
  let pat := if isQp d then kktPattern d x o else matPattern d o.a ++ (List.range (dN d)).map fun i => (i, i)
  let l := if dOrder d then o.perm else if dKind d = 6 then horizonOrder d x o pat else deviceOrder (dN d) pat
  if isQp d && xMember x then (l.filter fun i => !o.cplIdx.contains i) ++ o.cplIdx else l

/-- The pattern that a job's symbolic phase works on. -/
def jobPattern (d x : List Byte) (o : JobData) : List (Nat × Nat) :=
  if isQp d then kktPattern d x o else matPattern d o.a

/-- The rows below the diagonal of each column of the job's factor. -/
def jobStructs (d x : List Byte) (o : JobData) (order : List Nat) : List (List Nat) :=
  colStructs order.length (permuted (positions order) (jobPattern d x o))

/-! ### Placement across the tiles (R148) -/

/-- Bytes of an entry of the factor. -/
def entrySize (d : List Byte) : Nat := if dSingle d then 4 else 8

/-- KiB of a number of bytes. -/
def kib (bytes : Nat) : Nat := (bytes + 1023) / 1024

/-- The KiB of the factor. -/
def factorKib (d : List Byte) (cs : List (List Nat)) : Nat := kib (factorEntries (dSym d != 0) cs * entrySize d)

/-- The KiB of a front. -/
def frontKib (d : List Byte) (f : Option Nat × Nat) : Nat := kib (f.2 * f.2 * entrySize d)

/-- The in-service indices of the tiles that may hold each front: those of its part, index 0 for the boundaries of a
horizon, which are factorised together there (R174), and every tile for any other kind. -/
def frontHomes (d x : List Byte) (o : JobData) (order : List Nat) (cs : List (List Nat)) (t : Nat) : List (List Nat) :=
  let pat := jobPattern d x o
  (frontHeads cs).map fun k =>
    let i := order.getD k 0
    if dKind d ≠ 6 then List.range t
    else if isBoundary x o pat i then [0]
    else partTiles (xParts x) t (partAt x o i)

/-- The in-service indices of the tiles a front lies on: one of its `home`, or when larger than 3.5 MiB as many
consecutive ones as it takes. -/
def frontTiles (d : List Byte) (homes : List (List Nat)) (fs : List (Option Nat × Nat)) (t f : Nat) : List Nat :=
  let k := frontKib d (fs.getD f (none, 0))
  let home := homes.getD f [0]
  (List.range (max 1 ((k + 3583) / 3584))).map fun i => home.getD ((frontTile fs t f + i) % home.length) 0

/-- The KiB of the largest set of fronts held at one time, and the largest share of a tile in one such set. -/
def frontPeaks (d : List Byte) (homes : List (List Nat)) (fs : List (Option Nat × Nat)) (t : Nat) : Nat × Nat :=
  let sets := (frontsTogether fs t).map fun l => (l.filter (· < fs.length)).eraseDups
  let sets := (List.range fs.length).map (fun f => [f]) ++ sets
  let total := fun (l : List Nat) => l.foldl (fun a f => a + frontKib d (fs.getD f (none, 0))) 0
  let share := fun (l : List Nat) (i : Nat) => l.foldl (fun a f =>
    let on := frontTiles d homes fs t f
    if on.contains i then a + (frontKib d (fs.getD f (none, 0)) + on.length - 1) / on.length else a) 0
  (sets.foldl (fun a l => max a (total l)) 0,
   sets.foldl (fun a l => (List.range t).foldl (fun a i => max a (share l i)) a) 0)

/-! ### Pivots (R142 to R144) -/

/-- Rounds a positive value to binary32 away from zero (R143). -/
def toSingleUp (w : Word) : Word :=
  let r := sOfD w
  if dLt (dOfS r) w then dOfS (r + 1) else dOfS r

/-- The pivot threshold δ. -/
def pivotDelta (d : List Byte) (anorm : Word) : Word :=
  let v := dMax (dDeltaAbs d) (dMul (dDeltaRel d) anorm)
  if dSingle d then toSingleUp v else v

/-- The rule of R143 for a job: the expected sign of an original index is +, by NPRIMAL, or that of the pivot. -/
def pivotRule (d : List Byte) (anorm : Word) : PivotRule :=
  ⟨pivotDelta d anorm, fun j => match dSym d with
    | 1 => some false
    | 2 => some !decide (j < dPrimal d)
    | _ => none⟩

/-! ### How a job ends -/

/-- An end with nothing computed. -/
def plainEnd (code rsn : Nat) : JobEnd := { (default : JobEnd) with code := code, rsn := rsn }

/-- Bits of Table 6.7. -/
def jfWarm : Nat := 1
def jfPivot : Nat := 2
def jfInertia : Nat := 4
def jfCap : Nat := 8
def jfStall : Nat := 16
def jfUnmet : Nat := 32
def jfRetried : Nat := 64
def jfDdr : Nat := 128
def jfSaved : Nat := 256
def jfPosted : Nat := 512

/-- A flag is set. -/
def hasBit (n b : Nat) : Bool := n &&& b != 0

/-- The flags a job carries from its start. -/
def startFlags (j : Job) : Nat :=
  (if j.warmRej then jfWarm else 0) + (if j.retried then jfRetried else 0) + (if j.ddr then jfDdr else 0)

/-- The code and reason of a job that reaches the end of its work (R151, R170): reasons in the order given. -/
def doneCode (flags : Nat) (rs : List (Nat × Nat)) : Nat × Nat :=
  let code := if hasBit flags (jfUnmet + jfPivot + jfInertia) then CC.doneDegraded
    else if hasBit flags jfRetried then CC.doneAfterRetry else CC.done
  (code, ((rs.find? fun e => hasBit flags e.1).map (·.2)).getD 0)

/-- The order of the sums of a job: that of its structure, of which PARTS is part for a horizon (R132, R174). -/
def jobRed (j : Job) : Red := fun key =>
  redTree j.fprint ((if dKind j.desc = 6 then xParts j.ext else 0) :: key)

/-- Flags of what a factorisation found. -/
def factFlags (reg ine : Nat) : Nat := (if reg = 0 then 0 else jfPivot) + (if ine = 0 then 0 else jfInertia)

/-- The column `c` of B. -/
def rhsCol (n : Nat) (b : List Word) (c : Nat) : List Word := (b.drop (n * c)).take n

/-- The numeric phase of a linear job: the factor of its handle, for a SOLVE that starts warm, or a new one (R139,
R142). -/
def linearFactor (red : Red) (j : Job) (m : Entries) (anorm : Word) : Factor × Nat × Nat × Bool :=
  let d := j.desc
  match (j.warm.bind (·.factor)).filter fun _ => dKind d = 3 with
  | some f => (f, 0, 0, false)
  | none =>
    let sym := dSym d != 0
    let r := factorise (dSingle d) sym red (pivotRule d anorm) j.order m (jobPattern d j.ext j.data)
    (⟨j.order, sym, dSingle d, r.rows⟩, r.reg, r.inertia, r.ovf)

/-- The outcome of a job of the linear kinds (R142 to R147, R151). -/
def linearEnd (red : Red) (j : Job) : JobEnd :=
  let d := j.desc
  let n := dN d
  if dKind d = 1 then
    let (c, r) := doneCode (startFlags j) [(jfWarm, Rsn.warmRejected)]
    { plainEnd c r with flags := startFlags j }
  else
    let sym := dSym d != 0
    let m := matEntries d j.data.a
    let anorm := matNorm red sym n m
    let (f, reg, ine, ovf) := linearFactor red j m anorm
    let flags := startFlags j + factFlags reg ine
    let base : JobEnd := { plainEnd 0 0 with pivreg := reg, inertia := ine, anorm := anorm, flags := flags }
    if ovf || !dFinite anorm then { base with code := CC.failNumeric, rsn := Rsn.overflow }
    else
      let solves := dKind d = 3 || dKind d = 4
      let cols := if solves then (List.range (dNrhs d)).map fun c =>
          refine (fun k => red (6 :: c :: k)) sym m f anorm (dTol d) (dCap d) (rhsCol n j.data.rhs c) else []
      let unmet := cols.any fun c => !c.passed
      let steps := cols.foldl (fun a c => max a c.steps) 0
      let ratio := cols.foldl (fun a c => dMax a c.ratio) 0
      let flags := flags + (if cols.any (·.cap) then jfCap else 0) + (if cols.any (·.stall) then jfStall else 0)
      let base := { base with flags := flags, refsteps := steps, ratio := ratio, x := cols.flatMap Refined.value }
      if cols.any (·.ovf) then { base with code := CC.failNumeric, rsn := Rsn.overflow }
      else
        let base := { base with flags := flags + (if unmet then jfUnmet else 0), factor := some f }
        if unmet && !dAccept d then { base with code := CC.failNumeric, rsn := Rsn.residualUnmet }
        else
          let (c, r) := doneCode base.flags [(jfUnmet, Rsn.residualUnmet), (jfInertia, Rsn.inertiaMismatch),
            (jfPivot, Rsn.pivotRegularised), (jfWarm, Rsn.warmRejected)]
          { base with code := c, rsn := r, writeX := solves }

/-- What a linear job that is stopped may have reached (R150): nothing yet, the norm of its values, pivots of its
factor up to some row, or all of them with its refinement up to some step. -/
def linearProgress (red : Red) (j : Job) : List JobEnd :=
  let d := j.desc
  let none_ := { plainEnd 0 0 with flags := startFlags j }
  if dKind d = 1 ∨ dKind d = 7 then [none_]
  else
    let sym := dSym d != 0
    let m := matEntries d j.data.a
    let anorm := matNorm red sym (dN d) m
    let e := linearEnd red j
    let at_ := fun (reg ine steps : Nat) (ratio : Word) =>
      { plainEnd 0 0 with flags := startFlags j + factFlags reg ine, anorm := anorm, pivreg := reg, inertia := ine,
                          refsteps := steps, ratio := ratio }
    let rows := (List.range (e.pivreg + 1)).flatMap fun reg =>
      (List.range (e.inertia + 1)).map fun ine => at_ reg ine 0 0
    let steps := (List.range (dCap d + 1)).filterMap fun k =>
      if (dKind d = 3 ∨ dKind d = 4) ∧ k ≤ e.refsteps then
        let cols := (List.range (dNrhs d)).map fun c =>
          refine (fun i => red (6 :: c :: i)) sym m (linearFactor red j m anorm).1 anorm (dTol d) k (rhsCol (dN d) j.data.rhs c)
        some (at_ e.pivreg e.inertia k (cols.foldl (fun a c => dMax a c.ratio) 0))
      else none
    none_ :: rows ++ steps

end Sys2Proof.Machine
end

