-- ==== Sys2Proof/Machine/LsvQp.lean ====
section
/-! DEFINITION. The interior-point iteration of the QP kinds (R158 to R174): the starting point, the KKT matrix and its
factorisation, the predictor and corrector directions, the tests and the outcome. The reduced right-hand sides are those
that R165's Newton system leaves after eliminating s, zl and zu (DEDUCED, log entry 73). -/

namespace Sys2Proof.Machine

/-! ### The programme -/

/-- The product of a matrix in compressed columns of `n` columns with a vector, and of its transpose: the products of
one element. -/
def cscRow (m : Csc) (n : Nat) (v : List Word) (i : Nat) : List (Word × Word) :=
  (cscEntries m n).filterMap fun (r, c, w) => if r = i then some (w, vAt v c) else none
def cscCol (m : Csc) (n : Nat) (v : List Word) (j : Nat) : List (Word × Word) :=
  (cscEntries m n).filterMap fun (r, c, w) => if c = j then some (w, vAt v r) else none

/-- The products of row `i` of H, both triangles counted. -/
def hRow (o : JobData) (n : Nat) (v : List Word) (i : Nat) : List (Word × Word) := rowTerms true (cscEntries o.h n) v i

/-- A vector element by element. -/
def vOf (n : Nat) (f : Nat → Word) : List Word := (List.range n).map f

/-- A bound is present (R158). -/
def boundOn (w : Word) : Bool := dFinite w

/-- The number of complementarity pairs: M_I plus the finite bounds. -/
def pairCount (d x : List Byte) (o : JobData) : Nat :=
  xMi x + ((o.lo.take (dPrimal d)).filter boundOn).length + ((o.hi.take (dPrimal d)).filter boundOn).length

/-- The smaller of two values. -/
def dMin (a b : Word) : Word := if dLt b a then b else a

/-- 10^−6 in binary64. -/
def eps6 : Word := 0x3EB0C6F7A0B5ED8D

/-- The multiplier of a bound: absent with the bound. -/
def boundMul (b v : Word) : Word := if boundOn b then v else 0

/-- The point a programme starts from (R163): the warm point when its fingerprint is the job's, else the cold point. -/
def qpStart (red : Red) (j : Job) : QpWork :=
  let d := j.desc
  let x := j.ext
  let o := j.data
  let n := dPrimal d
  let (me, mi) := (xMe x, xMi x)
  let warm := xWarmPt x && leAt x 200 8 = j.fprint.toNat
  let part := fun (a k : Nat) => (o.warm.drop a).take k
  let up := fun (w : Word) => dMax eps6 w
  let theta := fun i => dMin dOne (dDiv (dSub (vAt o.hi i) (vAt o.lo i)) 0x4010000000000000)
  let into := fun (i : Nat) (v t : Word) => dMin (dMax v (dAdd (vAt o.lo i) t)) (dSub (vAt o.hi i) t)
  let xs := if warm then vOf n fun i => into i (vAt o.warm i) eps6 else vOf n fun i => into i 0 (theta i)
  let gx := fun i => redSum false red [10, i] (vAt o.gvec i) ((cscRow o.g n xs i).map fun (a, v) => (dNeg a, v))
  let start : QpWork :=
    { (default : QpWork) with
      x := xs, rho := dDeltaAbs d, deltaD := dDeltaAbs d
      y := if warm then part n me else List.replicate me 0
      z := if warm then (part (n + me) mi).map up else List.replicate mi dOne
      s := if warm then (part (dN d) mi).map up else vOf mi fun i => dMax (gx i) dOne
      zl := vOf n fun i => boundMul (vAt o.lo i) (if warm then up (vAt o.warm (dN d + mi + i)) else dOne)
      zu := vOf n fun i => boundMul (vAt o.hi i) (if warm then up (vAt o.warm (dN d + mi + n + i)) else dOne)
      flags := startFlags j }
  start

/-! ### Residuals and tests (R165, R168) -/

/-- What the tests of an iteration see. -/
structure QpView where
  rd : List Word
  re : List Word
  ri : List Word
  comp : Word
  mc : Nat
  mu : Word
  obj : Word
  dobj : Word
  rp : Word
  rdn : Word
  rg : Word

/-- The gaps of the bounds: x − lo and hi − x, for a present bound. -/
def gapLo (o : JobData) (xs : List Word) (i : Nat) : Word := dSub (vAt xs i) (vAt o.lo i)
def gapHi (o : JobData) (xs : List Word) (i : Nat) : Word := dSub (vAt o.hi i) (vAt xs i)

/-- The complementarity sum s·z + Σ (x − lo)·zl + Σ (hi − x)·zu at a point. -/
def compSum (red : Red) (o : JobData) (n mi : Nat) (xs s z zl zu : List Word) : Word :=
  redSum false red [11] 0 (
    (List.range mi).map (fun i => (vAt s i, vAt z i))
    ++ (List.range n).filterMap (fun i => if boundOn (vAt o.lo i) then some (gapLo o xs i, vAt zl i) else none)
    ++ (List.range n).filterMap (fun i => if boundOn (vAt o.hi i) then some (gapHi o xs i, vAt zu i) else none))

/-- ½xᵀHx + qᵀx, and the dual objective −½xᵀHx − eᵀy − gᵀz + loᵀzl − hiᵀzu (log entry 73). -/
def objectives (red : Red) (o : JobData) (n me mi : Nat) (w : QpWork) : Word × Word :=
  let hx := vOf n fun i => redSum false red [12, i] 0 (hRow o n w.x i)
  let quad := redSum false red [13] 0 ((List.range n).map fun i => (vAt w.x i, vAt hx i))
  let half := dMul 0x3FE0000000000000 quad
  (redSum false red [14] half ((List.range n).map fun i => (vAt o.q i, vAt w.x i)),
   redSum false red [15] (dNeg half) (
     (List.range me).map (fun i => (dNeg (vAt o.evec i), vAt w.y i))
     ++ (List.range mi).map (fun i => (dNeg (vAt o.gvec i), vAt w.z i))
     ++ (List.range n).filterMap (fun i => if boundOn (vAt o.lo i) then some (vAt o.lo i, vAt w.zl i) else none)
     ++ (List.range n).filterMap (fun i => if boundOn (vAt o.hi i) then some (dNeg (vAt o.hi i), vAt w.zu i) else none)))

/-- The residuals, mu and the measures of R168 at an iterate. -/
def qpView (red : Red) (j : Job) (w : QpWork) : QpView :=
  let d := j.desc
  let o := j.data
  let n := dPrimal d
  let (me, mi) := (xMe j.ext, xMi j.ext)
  let rd := vOf n fun i => redSum false red [16, i] (vAt o.q i) (hRow o n w.x i ++ cscCol o.e n w.y i
    ++ cscCol o.g n w.z i ++ [(dMinusOne, vAt w.zl i), (dOne, vAt w.zu i)])
  let re := vOf me fun i => redSum false red [17, i] (dNeg (vAt o.evec i)) (cscRow o.e n w.x i)
  let ri := vOf mi fun i => redSum false red [18, i] (dNeg (vAt o.gvec i)) (cscRow o.g n w.x i ++ [(dOne, vAt w.s i)])
  let comp := compSum red o n mi w.x w.s w.z w.zl w.zu
  let mc := pairCount d j.ext o
  let mu := if mc = 0 then 0 else dDiv comp (dInt mc)
  let (obj, dobj) := objectives red o n me mi w
  { rd := rd, re := re, ri := ri, comp := comp, mc := mc, mu := mu, obj := obj, dobj := dobj
    rp := dDiv (dMax (vNorm re) (vNorm ri)) (dAdd dOne (dMax (vNorm o.evec) (vNorm o.gvec)))
    rdn := dDiv (vNorm rd) (dAdd dOne (vNorm o.q))
    rg := dDiv mu (dAdd dOne (dAbs obj)) }

/-- The merit φ (R168). -/
def meritOf (x : List Byte) (rp rd rg : Word) : Word :=
  dMax (dMax (dDiv rp (xEps x 32 eps8)) (dDiv rd (xEps x 40 eps8))) (dDiv rg (xEps x 48 eps8))

/-- Every value a view computed is finite (R147). -/
def viewFinite (v : QpView) : Bool :=
  vFinite (v.rd ++ v.re ++ v.ri ++ [v.comp, v.mu, v.obj, v.dobj, v.rp, v.rdn, v.rg])

/-- 10^−9 and 10^−12 in binary64. -/
def eps9 : Word := 0x3E112E0BE826D695
def eps12 : Word := 0x3D719799812DEA11

/-- The dual part of a step, and a vector scaled by a norm. -/
def dualPart (p : QpDir) : List Word := p.dy ++ p.dz ++ p.dzl ++ p.dzu
def scaled (k : Word) (l : List Word) : List Word := l.map fun v => dDiv v k

/-- The tests of primal infeasibility on the last step scaled by a norm, but for its sum (R169): the signs, and the
residual at the variables that are not shared. -/
def primalHolds (red : Red) (j : Job) (p : QpDir) (k : Word) : Bool :=
  let o := j.data
  let n := dPrimal j.desc
  let (dy, dz, dzl, dzu) := (scaled k p.dy, scaled k p.dz, scaled k p.dzl, scaled k p.dzu)
  let r := ((List.range n).filter fun i => !o.cplIdx.contains i).map fun i => redSum false red [20, i] 0
    (cscCol o.e n dy i ++ cscCol o.g n dz i ++ [(dMinusOne, vAt dzl i), (dOne, vAt dzu i)])
  k != 0 && (dz ++ dzl ++ dzu).all (fun v => dLe 0 v) && dLe (vNorm r) (xEps j.ext 56 eps9)

/-- The certificate of primal infeasibility that the last step gives (R169). -/
def primalCert (red : Red) (j : Job) (p : QpDir) : Option (List Word) :=
  let o := j.data
  let n := dPrimal j.desc
  let eps := xEps j.ext 56 eps9
  let k := vNorm (dualPart p)
  let (dy, dz, dzl, dzu) := (scaled k p.dy, scaled k p.dz, scaled k p.dzl, scaled k p.dzu)
  let sum := redSum false red [21] 0 (o.evec.zip dy ++ o.gvec.zip dz
    ++ (List.range n).filterMap (fun i => if boundOn (vAt o.lo i) then some (dNeg (vAt o.lo i), vAt dzl i) else none)
    ++ (List.range n).filterMap (fun i => if boundOn (vAt o.hi i) then some (vAt o.hi i, vAt dzu i) else none))
  if primalHolds red j p k && dLt sum (dNeg eps) then some (List.replicate n 0 ++ dy ++ dz)
  else none

/-- The tests of dual infeasibility on the last step scaled by a norm, but for its sum (R169): the products with the rows
that are not shared, and the signs at the bounds. -/
def dualHolds (red : Red) (j : Job) (p : QpDir) (k : Word) : Bool :=
  let o := j.data
  let n := dPrimal j.desc
  let (me, mi) := (xMe j.ext, xMi j.ext)
  let eps := xEps j.ext 56 eps9
  let dx := scaled k p.dx
  let hx := ((List.range n).filter fun i => !o.cplIdx.contains i).map fun i => redSum false red [22, i] 0 (hRow o n dx i)
  let ex := vOf me fun i => redSum false red [23, i] 0 (cscRow o.e n dx i)
  let gx := vOf mi fun i => redSum false red [24, i] 0 (cscRow o.g n dx i)
  let inLo := (List.range n).all fun i => !boundOn (vAt o.lo i) || dLe (dNeg eps) (vAt dx i)
  let inHi := (List.range n).all fun i => !boundOn (vAt o.hi i) || dLe (vAt dx i) eps
  k != 0 && dLe (vNorm hx) eps && dLe (vNorm ex) eps && gx.all (fun v => dLe v eps) && inLo && inHi

/-- The certificate of dual infeasibility that the last step gives (R169). -/
def dualCert (red : Red) (j : Job) (p : QpDir) : Option (List Word) :=
  let eps := xEps j.ext 56 eps9
  let k := vNorm p.dx
  let dx := scaled k p.dx
  if dualHolds red j p k && dLt (redSum false red [25] 0 (j.data.q.zip dx)) (dNeg eps) then
    some (dx ++ List.replicate (xMe j.ext + xMi j.ext) 0)
  else none

/-! ### The KKT matrix (R164) -/

/-- The bound terms D_x. -/
def boundTerm (o : JobData) (w : QpWork) (i : Nat) : Word :=
  let l := if boundOn (vAt o.lo i) then dDiv (vAt w.zl i) (gapLo o w.x i) else 0
  let u := if boundOn (vAt o.hi i) then dDiv (vAt w.zu i) (gapHi o w.x i) else 0
  dAdd l u

/-- K at an iterate with a primal and a dual regularisation: its lower triangle, the diagonal whole. -/
def kktMatrix (red : Red) (j : Job) (w : QpWork) (rho dd : Word) : Entries :=
  let o := j.data
  let n := dPrimal j.desc
  let (me, mi) := (xMe j.ext, xMi j.ext)
  let h := cscEntries o.h n
  (h.filter fun e => e.1 ≠ e.2.1)
    ++ (List.range n).map (fun i => (i, i, redSum false red [30, i] (entryAt h i i) [(dOne, boundTerm o w i), (dOne, rho)]))
    ++ (cscEntries o.e n).map (fun (r, c, v) => (n + r, c, v))
    ++ (List.range me).map (fun i => (n + i, n + i, dNeg dd))
    ++ (cscEntries o.g n).map (fun (r, c, v) => (n + me + r, c, v))
    ++ (List.range mi).map (fun i => (n + me + i, n + me + i, dNeg (dAdd (dDiv (vAt w.s i) (vAt w.z i)) dd)))

/-- The order of the sums of a factorisation (R132); in the Schur complement of a horizon's boundary variables each part's
own share is summed by itself, and the shares are added in ascending part order (R174). -/
def kktRed (red : Red) (j : Job) (cs : List (List Nat)) (elim : Nat) : Red := fun key n =>
  match key with
  | [_, a, b] =>
    let pat := kktPattern j.desc j.ext j.data
    let last := fun (k : Nat) =>
      isBoundary j.ext j.data pat (j.order.getD k 0) || j.data.cplIdx.contains (j.order.getD k 0)
    if dKind j.desc = 6 && last a && last b then
      let ks := (rowStruct cs a).filter fun k =>
        decide (k < b) && decide (k < elim) && (a = b || (rowStruct cs b).contains k)
      let group := fun (p : Nat) => ks.zipIdx.filterMap fun (k, i) =>
        let g := if last k then xParts j.ext else partAt j.ext j.data (j.order.getD k 0)
        if g = p then some (i + 1) else none
      treeGroups red key (.leaf 0) ((List.range (xParts j.ext + 1)).map group)
    else red key n
  | _ => red key n

/-- The factorisation of an iteration (R164, R166): a factor with pivots of unexpected sign is discarded and tried
again with ρ and δ_d ten times larger, up to four times. The factor is none when the fifth mismatches too; the flag
tells of an overflow. `elim` says how many rows are eliminated, all but the coupling rows of a cascade part. -/
def qpFactor (red : Red) (j : Job) (elim : Nat) : Nat → QpWork → Option Factor × Entries × Bool × QpWork
  | 0, w => (none, [], false, w)
  | fuel + 1, w =>
    let d := j.desc
    let m := kktMatrix red j w w.rho w.deltaD
    let k := matNorm red true (dN d) m
    let pos := positions j.order
    let cs := jobStructs d j.ext j.data j.order
    let at_ := m.map fun (r, c, v) =>
      let (a, b) := (pos.getD r 0, pos.getD c 0)
      if a < b then (b, a, v) else (a, b, v)
    let r := ldl (dSingle d) (kktRed (fun i => red (31 :: w.facts :: i)) j cs elim) (pivotRule d k) j.order at_ cs elim
    let w := { w with anorm := dMax w.anorm k, pivreg := w.pivreg + r.reg, inertia := w.inertia + r.inertia
                      flags := w.flags ||| factFlags r.reg r.inertia
                      facts := w.facts + (if r.ovf then 0 else 1) }
    if r.ovf || !vFinite (m.map (·.2.2)) then (none, m, true, w)
    else if r.inertia = 0 then (some ⟨j.order, true, dSingle d, r.rows⟩, m, false, w)
    else if fuel = 0 then (none, m, false, w)
    else qpFactor red j elim fuel
      { w with rho := dMul 0x4024000000000000 w.rho, deltaD := dMul 0x4024000000000000 w.deltaD, raises := w.raises + 1 }

/-! ### Directions and steps (R165) -/

/-- The second-order products of the affine direction; absent in the affine solve itself. -/
structure SecondOrder where
  s : List Word
  zl : List Word
  zu : List Word

/-- The products Δs·Δz, Δx·Δzl and −Δx·Δzu of a direction. -/
def secondOf (p : QpDir) : SecondOrder :=
  ⟨(p.ds.zip p.dz).map fun (a, b) => dMul a b, (p.dx.zip p.dzl).map fun (a, b) => dMul a b,
   (p.dx.zip p.dzu).map fun (a, b) => dNeg (dMul a b)⟩

/-- The right-hand side of the reduced system, for −(rd, re, ri), a centring value c and a second-order term. -/
def qpRhs (red : Red) (j : Job) (w : QpWork) (v : QpView) (c : Word) (so : SecondOrder) : List Word :=
  let o := j.data
  let n := dPrimal j.desc
  let (me, mi) := (xMe j.ext, xMi j.ext)
  let top := vOf n fun i => redSum false red [32, i] (dNeg (vAt v.rd i))
    ((if boundOn (vAt o.lo i) then [(dOne, dDiv (dSub c (vAt so.zl i)) (gapLo o w.x i)), (dMinusOne, vAt w.zl i)] else [])
    ++ (if boundOn (vAt o.hi i) then [(dMinusOne, dDiv (dSub c (vAt so.zu i)) (gapHi o w.x i)), (dOne, vAt w.zu i)] else []))
  let bot := vOf mi fun i => redSum false red [33, i] (dNeg (vAt v.ri i))
    [(dMinusOne, dDiv (dSub c (vAt so.s i)) (vAt w.z i)), (dOne, vAt w.s i)]
  top ++ (vOf me fun i => dNeg (vAt v.re i)) ++ bot

/-- The whole direction that a solution of the reduced system gives. -/
def qpDirection (red : Red) (j : Job) (w : QpWork) (c : Word) (so : SecondOrder) (sol : List Word) : QpDir :=
  let o := j.data
  let n := dPrimal j.desc
  let (me, mi) := (xMe j.ext, xMi j.ext)
  let dx := sol.take n
  let dy := (sol.drop n).take me
  let dz := (sol.drop (n + me)).take mi
  let ds := vOf mi fun i => redSum false red [34, i] (dDiv (dSub c (vAt so.s i)) (vAt w.z i))
    [(dMinusOne, vAt w.s i), (dNeg (dDiv (vAt w.s i) (vAt w.z i)), vAt dz i)]
  let dl := vOf n fun i => if boundOn (vAt o.lo i) then
      redSum false red [35, i] (dDiv (dSub c (vAt so.zl i)) (gapLo o w.x i))
        [(dMinusOne, vAt w.zl i), (dNeg (dDiv (vAt w.zl i) (gapLo o w.x i)), vAt dx i)] else 0
  let du := vOf n fun i => if boundOn (vAt o.hi i) then
      redSum false red [36, i] (dDiv (dSub c (vAt so.zu i)) (gapHi o w.x i))
        [(dMinusOne, vAt w.zu i), (dDiv (vAt w.zu i) (gapHi o w.x i), vAt dx i)] else 0
  ⟨dx, dy, dz, ds, dl, du⟩

/-- The largest step that keeps s, z, zl, zu, x − lo and hi − x from falling below zero. -/
def stepTo (o : JobData) (w : QpWork) (p : QpDir) : Word :=
  let n := w.x.length
  let lo := (List.range n).filterMap fun i => if boundOn (vAt o.lo i) then some (gapLo o w.x i, vAt p.dx i) else none
  let hi := (List.range n).filterMap fun i => if boundOn (vAt o.hi i) then some (gapHi o w.x i, dNeg (vAt p.dx i)) else none
  largestStep (w.s.zip p.ds ++ w.z.zip p.dz ++ w.zl.zip p.dzl ++ w.zu.zip p.dzu ++ lo ++ hi)

/-- A point moved by a step. -/
def vMove (a : Word) (v p : List Word) : List Word := (v.zip p).map fun (x, d) => nFma false x a d
def qpMove (w : QpWork) (a : Word) (p : QpDir) : QpWork :=
  { w with x := vMove a w.x p.dx, y := vMove a w.y p.dy, z := vMove a w.z p.dz, s := vMove a w.s p.ds
           zl := vMove a w.zl p.dzl, zu := vMove a w.zu p.dzu }

/-- The step a·d itself. -/
def dirScale (a : Word) (p : QpDir) : QpDir :=
  let f := fun (l : List Word) => l.map (dMul a)
  ⟨f p.dx, f p.dy, f p.dz, f p.ds, f p.dzl, f p.dzu⟩

/-- Every value of a direction is finite. -/
def dirFinite (p : QpDir) : Bool := vFinite (p.dx ++ p.dy ++ p.dz ++ p.ds ++ p.dzl ++ p.dzu)

/-- A direction solve with its refinement against K with ρ and δ_d 0 (R164, R167): what it counts. -/
def qpSolve (red : Red) (j : Job) (w : QpWork) (f : Factor) (anorm : Word) (b : List Word) : Option (List Word × QpWork) :=
  let d := j.desc
  let r := refine red true (kktMatrix red j w 0 0) f anorm (dTol d) (dCap d) b
  if r.ovf then none
  else
    some (r.value, { w with refTotal := w.refTotal + r.steps, inexact := w.inexact + (if r.passed then 0 else 1)
                            flags := w.flags ||| (if r.cap then jfCap else 0) ||| (if r.stall then jfStall else 0) })

/-- Cube of a ratio. -/
def dCube (a : Word) : Word := dMul (dMul a a) a

/-- A step taken: the iterate moves, ALPHA and the last step are kept, and steps below 10^−12 are counted (R170). -/
def qpTake (w : QpWork) (a : Word) (p : QpDir) : QpWork :=
  { qpMove w a p with step := a, dir := some (dirScale a p), small := if dLt a eps12 then w.small + 1 else 0 }

/-- TAU (Table 7.1). -/
def xTau (x : List Byte) : Word := xEps x 64 0x3FEFD70A3D70A3D7

/-- One iteration after its tests (R165): none on an overflow (R147) with how far it came. -/
def qpIterate (red : Red) (j : Job) (v : QpView) (w : QpWork) (f : Factor) (m : Entries) : QpWork × Bool :=
  let o := j.data
  let n := dPrimal j.desc
  let mi := xMi j.ext
  let anorm := matNorm red true (dN j.desc) m
  let zero : SecondOrder := ⟨[], [], []⟩
  let w := { w with iters := w.iters + 1 }
  match qpSolve (fun k => red (40 :: w.iters :: k)) j w f anorm (qpRhs red j w v 0 zero) with
  | none => (w, true)
  | some (sol, w) =>
    let aff := qpDirection red j w 0 zero sol
    let aAff := dMin dOne (stepTo o w aff)
    let p := qpMove w aAff aff
    let muAff := if v.mc = 0 then 0 else dDiv (compSum red o n mi p.x p.s p.z p.zl p.zu) (dInt v.mc)
    let sigma := if v.mc = 0 then 0 else dCube (dDiv muAff v.mu)
    let c := dMul sigma v.mu
    let so := secondOf aff
    if !dirFinite aff || !dFinite c then (w, true)
    else
      match qpSolve (fun k => red (41 :: w.iters :: k)) j w f anorm (qpRhs red j w v c so) with
      | none => (w, true)
      | some (sol, w) =>
        let dir := qpDirection red j w c so sol
        let a := dMin dOne (dMul (xTau j.ext) (stepTo o w dir))
        let w' := qpTake w a dir
        if !dirFinite dir || !vFinite (w'.x ++ w'.y ++ w'.z ++ w'.s ++ w'.zl ++ w'.zu) then (w, true) else (w', false)

/-! ### The outcome (R168 to R171) -/

/-- The elements of SOL at an iterate (R159). -/
def qpSol (w : QpWork) : List Word := w.x ++ w.y ++ w.z

/-- An end of a programme by what it has come to (R171). -/
def qpEndWith (w : QpWork) (code rsn order : Nat) : JobEnd :=
  { plainEnd code rsn with flags := w.flags, refsteps := min w.iters 255, pivreg := w.pivreg, inertia := w.inertia
                           ratio := w.phi, anorm := w.anorm, order := order, work := some w, x := qpSol w }

/-- The reasons of a DONE code of a programme (R170). -/
def qpReasons : List (Nat × Nat) :=
  [(jfInertia, Rsn.inertiaMismatch), (jfPivot, Rsn.pivotRegularised), (jfWarm, Rsn.warmRejected)]

/-- The values of the tests at an iterate are recorded, with the iterate of least merit, the earliest on a tie. -/
def qpRecord (w : QpWork) (rp rd mu phi obj dobj : Word) : QpWork :=
  let best := match w.best with
    | some (b, v) => if dLt phi b then some (phi, qpSol w) else some (b, v)
    | none => some (phi, qpSol w)
  { w with rp := rp, rd := rd, mu := mu, phi := phi, pobj := obj, dobj := dobj, best := best }

/-- The tests at the start of an iteration, in the order of Table 7.2, given what infeasibility shows: the end of the
job, or none. -/
def qpTests (j : Job) (w : QpWork) (pcert dcert : Option (List Word)) : Option JobEnd :=
  if dLe w.phi dOne then
    let (c, r) := doneCode w.flags qpReasons
    some { qpEndWith w c r 1 with writeX := true }
  else if pcert.isSome then
    some { qpEndWith w CC.failNumeric Rsn.primalInfeasible 2 with cert := pcert }
  else if dcert.isSome then
    some { qpEndWith w CC.failNumeric Rsn.dualInfeasible 3 with cert := dcert }
  else if w.iters = xCap j.ext then
    let w := { w with flags := w.flags ||| jfUnmet }
    if dAccept j.desc then
      some { qpEndWith w CC.doneDegraded Rsn.iterCap 4 with writeX := true, x := ((w.best.map (·.2)).getD []) }
    else some (qpEndWith w CC.failNumeric Rsn.iterCap 5)
  else if 3 ≤ w.small then some (qpEndWith w CC.failNumeric Rsn.stepFail 6)
  else none

/-- An overflow ends a programme at once (R147). -/
def qpOverflow (w : QpWork) : JobEnd := qpEndWith w CC.failNumeric Rsn.overflow 0

/-- One round of R165 from its tests: the end of the job, or the work it goes on with. -/
def qpRound (red : Red) (j : Job) (w : QpWork) : JobEnd ⊕ QpWork :=
  let v := qpView red j w
  let phi := meritOf j.ext v.rp v.rdn v.rg
  if !viewFinite v then .inl (qpOverflow w)
  else
    let w := qpRecord w v.rp v.rdn v.mu phi v.obj v.dobj
    match qpTests j w (w.dir.bind (primalCert red j)) (w.dir.bind (dualCert red j)) with
    | some e => .inl e
    | none =>
      match qpFactor red j (dN j.desc) 5 w with
      | (_, _, true, w) => .inl (qpOverflow w)
      | (none, _, false, w) => .inl (qpEndWith w CC.failNumeric Rsn.nonconvex 0)
      | (some f, m, false, w) =>
        match qpIterate red j v w f m with
        | (w, true) => .inl (qpOverflow w)
        | (w, false) => .inr w

/-- The rounds of a programme from some work on; ITERCAP is at most 255, so 256 rounds reach an outcome. -/
def qpRounds (red : Red) (j : Job) : Nat → QpWork → JobEnd
  | 0, w => qpEndWith w CC.failNumeric Rsn.iterCap 5
  | fuel + 1, w =>
    match qpRound red j w with
    | .inl e => e
    | .inr w => qpRounds red j fuel w

/-- The work at the start of each round from some work on. -/
def qpTrail (red : Red) (j : Job) : Nat → QpWork → List QpWork
  | 0, w => [w]
  | fuel + 1, w =>
    match qpRound red j w with
    | .inl _ => [w]
    | .inr w' => w :: qpTrail red j fuel w'

/-- The work of a round as it stands after its tests and after its factorisation. -/
def roundStates (red : Red) (j : Job) (w : QpWork) : List QpWork :=
  let v := qpView red j w
  let w' := qpRecord w v.rp v.rdn v.mu (meritOf j.ext v.rp v.rdn v.rg) v.obj v.dobj
  [w, w', (qpFactor red j (dN j.desc) 5 w').2.2.2]

/-- Where a programme stands: at the iterate a restart kept (R172), or at its start. -/
def qpFrom (red : Red) (j : Job) : QpWork :=
  match j.kept with
  | some w => { w with flags := w.flags ||| startFlags j }
  | none => qpStart red j

/-- The outcome of the running job. -/
def jobEnd (j : Job) : JobEnd :=
  let red := jobRed j
  if isQp j.desc then qpRounds red j 256 (qpFrom red j) else linearEnd red j

/-- What a job that is stopped may have reached. -/
def jobProgress (j : Job) : List JobEnd :=
  let red := jobRed j
  if isQp j.desc then ((qpTrail red j 256 (qpFrom red j)).flatMap (roundStates red j)).map fun w => qpEndWith w 0 0 0 else linearProgress red j

/-- The report block (Table 7.4). -/
def reportBytes (w : QpWork) (order : Nat) : List Byte :=
  leBytes 2 w.iters ++ leBytes 1 w.raises ++ leBytes 1 order ++ leBytes 4 w.inexact ++ leBytes 4 w.refTotal
    ++ leBytes 4 0 ++ leBytes 8 w.rp.toNat ++ leBytes 8 w.rd.toNat ++ leBytes 8 w.mu.toNat ++ leBytes 8 w.pobj.toNat
    ++ leBytes 8 w.dobj.toNat ++ leBytes 8 w.step.toNat

end Sys2Proof.Machine
end

