-- ==== Sys2Proof/Machine/Lsv.lean ====
section
/-! DEFINITION. The Lattice Solver at work (R126 to R184, 06 and 07; R330 to R332 of 14): rings, jobs, handles, the
mailbox, tile faults, and the parts of a partitioned solve. -/

namespace Sys2Proof.Machine

/-! ### Rings (R126 to R129) -/

/-- Sizes of the rings. -/
def sqSize (s : State) : Nat := 2 ^ rd s Reg.LSV_RINGCFG_SQLOG
def cqSize (s : State) : Nat := 2 ^ rd s Reg.LSV_RINGCFG_CQLOG

/-- A write to the ring control block. -/
def ctlWrite (s : State) (off v : Nat) : State :=
  emit s (.hostWrite (rd64 s Reg.LSV_CTLADDR_LO_CTLADDR Reg.LSV_CTLADDR_HI_CTLADDR + off) (leBytes 4 v))

/-- SQDONE passes every consecutive reported descriptor. -/
def passDone (size : Nat) : Nat → Nat → List Nat → Nat × List Nat
  | 0, d, l => (d, l)
  | fuel + 1, d, l => if l.contains d then passDone size fuel ((d + 1) % size) (l.filter (· ≠ d)) else (d, l)

/-- Writes a completion entry and what follows it (R128). -/
def writeEntry (s : State) (index : Nat) (entry : List Byte) : State :=
  let cq := rd64 s Reg.LSV_CQBASE_LO_CQBASE Reg.LSV_CQBASE_HI_CQBASE
  let sq := rd64 s Reg.LSV_SQBASE_LO_SQBASE Reg.LSV_SQBASE_HI_SQBASE
  let s := emit s (.hostWrite (cq + 64 * s.lsv.cqTail) entry)
  let s := emit s (.hostWrite (sq + 128 * index + 3) [1])
  let tail := (s.lsv.cqTail + 1) % cqSize s
  let r := passDone (sqSize s) (s.lsv.reported.length + 1) s.lsv.sqDone (s.lsv.reported ++ [index])
  let s := { s with lsv := { s.lsv with cqTail := tail, sqDone := r.1, reported := r.2 } }
  msix (ctlWrite (ctlWrite s 8 tail) 4 r.1) (rd s Reg.LSV_RINGCFG_VEC)

/-- Tiles in service. -/
def tilesUp (s : State) : Nat := ((List.range 16).filter fun t => tileState s t != .retired).length

/-- The 64 bytes of a completion entry (Table 6.5). -/
def entryBytes64 (s : State) (j : Job) (e : JobEnd) (us : Nat) : List Byte :=
  let d := j.desc
  leBytes 8 (dTag d) ++ leBytes 1 e.code ++ leBytes 1 e.rsn ++ leBytes 2 e.flags ++ leBytes 1 (dKind d)
    ++ leBytes 1 e.refsteps ++ leBytes 1 (tilesUp s) ++ leBytes 1 0 ++ leBytes 4 (min us (2 ^ 32 - 1))
    ++ leBytes 4 e.pivreg ++ leBytes 4 e.inertia ++ leBytes 4 j.index ++ leBytes 8 e.ratio.toNat
    ++ leBytes 8 e.anorm.toNat ++ leBytes 8 j.fprint.toNat ++ leBytes 4 j.sramKib ++ leBytes 4 j.ddrKib

/-- DEPTH and BUSY follow the held jobs. -/
def setHeld (s : State) (l : List Job) : State :=
  let s := { s with lsv := { s.lsv with held := l } }
  wrB (wr s Reg.LSV_QSTS_DEPTH l.length) Reg.LSV_QSTS_BUSY (l.any (·.running))

/-- The flops and cycles of the job whose entry is written (Table 7.5). -/
def setPerf (s : State) (flop cyc : BitVec 64) : State :=
  let s := { s with lsv := { s.lsv with flop := flop, cyc := cyc } }
  wr (wr s Reg.LSV_PERF_FLOP_LO_FLOP (flop.toNat % 2 ^ 32)) Reg.LSV_PERF_CYC_LO_CYC (cyc.toNat % 2 ^ 32)

/-- `n` free bytes. -/
def freeBytes (s : State) : Nat → List Byte × State
  | 0 => ([], s)
  | n + 1 =>
    let r := freeBytes { s with free := s.free + 1 } n
    (freeByte s.free :: r.1, r.2)

/-- The reason the other parts take when a part fails by itself (R184): MEMBER_LOST when SAVE ended it (R333). -/
def failRsn (code : Nat) : Nat := if code = CC.failPower then Rsn.memberLost else Rsn.partFailed

/-- A running part of a partitioned solve that fails ends the others (R184, R332): a coordinator tells every part, a
member tells its coordinator by a CPLEND with its own code. -/
def tellParts (s : State) (j : Job) (code rsn : Nat) : State :=
  if !(isQp j.desc && xMember j.ext && j.running) then s
  else match s.lsv.cjob with
    | some c =>
      let s := { s with lsv := { s.lsv with cjob := none } }
      sendParts s c.joined (.finish CC.failPeerUnreachable (failRsn code))
    | none => if ownMember s = 0 then s else sendPart s (myAddr s) (coordAddr s) (.finish code rsn)

/-- The end of a cancel command. -/
def cancelEnd (s : State) (code rsn : Nat) : State :=
  setStatus s Reg.LSV_CANCELSTS_CC Reg.LSV_CANCELSTS_RSN Reg.LSV_CANCELSTS_PEND code rsn

/-- A job that a cancel awaits has its outcome: the cancel ends DONE when a job was cancelled, else CANCEL_TOO_LATE
(R154). -/
def settleCancel (s : State) (j : Job) (cancelled : Bool) : State :=
  if !j.cancel then s
  else
    let any := cancelled || s.lsv.cancel.getD false
    let s := { s with lsv := { s.lsv with cancel := none } }
    if any then cancelEnd s CC.done 0 else cancelEnd s CC.failRefused Rsn.cancelTooLate

/-- The run time of a job in µs (Table 6.5). -/
def runTime (s : State) (j : Job) : Nat := if j.running then (s.tb.now - j.startNs) / 1000 else 0

/-- A job's outcome is reported: its completion entry is written, and it is held no longer; a coordinator ends with
it. -/
def closeJob (s : State) (j : Job) (e : JobEnd) (cancelled : Bool) : State :=
  let s := settleCancel s j cancelled
  let s := if j.running then { s with lsv := { s.lsv with cjob := none } } else s
  writeEntry (setHeld s (s.lsv.held.filter (·.index ≠ j.index))) j.index (entryBytes64 s j e (runTime s j))

/-- What a job that is stopped has reached (R150, R171): one of the states its work passes through, which one being a
free value (log entry 74); nothing for a job that never started or failed its checks. A cascade part stands at its
iterate. -/
def reachedBy (s : State) (j : Job) : JobEnd × State :=
  if !j.running || j.order.isEmpty then ({ plainEnd 0 0 with flags := startFlags j }, s)
  else if isQp j.desc && xMember j.ext then
    (match j.kept with
      | some w => qpEndWith { w with flags := w.flags ||| startFlags j } 0 0 0
      | none => { plainEnd 0 0 with flags := startFlags j }, s)
  else
    let l := jobProgress j
    (l.getD ((freeWord s.free).toNat % l.length) (plainEnd 0 0), { s with free := s.free + 1 })

/-- The report block is written for a programme that completed its first factorisation (R171). -/
def writeReport (s : State) (j : Job) (e : JobEnd) : State :=
  match e.work with
  | some w => if xReport j.ext != 0 && decide (0 < w.facts) then deviceWrite s (xReport j.ext) (reportBytes w e.order) else s
  | none => s

/-- A held job ends by a cause other than its own arithmetic (Table 6.8): nothing is written to SOL, and the handle it
was saving is invalid. Its entry and its report show what it had reached; the flops and cycles are free. -/
def haltJob (s : State) (j : Job) (code rsn : Nat) : State :=
  let (e, s) := reachedBy s j
  let e := { e with code := code, rsn := rsn }
  let s := writeReport s j e
  let s := if j.running then setPerf { s with free := s.free + 2 } (freeWord s.free) (freeWord (s.free + 1))
    else setPerf s 0 0
  closeJob s j e (code = CC.failCancelled && rsn = 0)

/-- A held job ends so by itself: the other parts of its programme are told. -/
def stopJob (s : State) (j : Job) (code rsn : Nat) : State :=
  haltJob (if code < 0x10 then s else tellParts s j code rsn) j code rsn

/-- Every held job ends in one way, in fetch order. -/
def stopAll (s : State) (code rsn : Nat) : State := s.lsv.held.foldl (fun s j => stopJob s j code rsn) s

/-! ### Handles (R139 to R141) -/

/-- A handle is invalidated. -/
def dropHandle (s : State) (n : Nat) : State :=
  let s := { s with lsv := { s.lsv with handles := tdel s.lsv.handles n } }
  [Reg.LSV_HANDLE0_VALID, Reg.LSV_HANDLE0_CONTENT, Reg.LSV_HANDLE0_FPREC, Reg.LSV_HANDLE0_DDR, Reg.LSV_HANDLE1_SIZEKIB,
   Reg.LSV_HANDLE2_FPRINT, Reg.LSV_HANDLE3_FPRINT].foldl (fun s f => wr s f 0 n) s

/-- Every handle is invalidated. -/
def dropHandles (s : State) : State := (List.range 32).foldl dropHandle s

/-- The fingerprint a handle holds. -/
def handlePrint (s : State) (n : Nat) : Nat := rd s Reg.LSV_HANDLE2_FPRINT n + 2 ^ 32 * rd s Reg.LSV_HANDLE3_FPRINT n

/-- A job may use its handle (R139). -/
def handleFits (s : State) (d : List Byte) (fp : BitVec 64) : Bool :=
  let h := dHandle d
  rdB s Reg.LSV_HANDLE0_VALID h && decide (handlePrint s h = fp.toNat)
    && (dKind d != 3 || rd s Reg.LSV_HANDLE0_CONTENT h = 2)

/-- A handle is used: it becomes the most recently used. -/
def touchHandle (s : State) (h : Nat) : State :=
  { s with lsv := { s.lsv with useClock := s.lsv.useClock + 1, lastUse := tput s.lsv.lastUse h s.lsv.useClock } }

/-- A warm SOLVE has no numeric phase, so it neither invalidates nor saves a handle (R140). -/
def savesHandle (j : Job) : Bool := dSaveH j.desc && !(dKind j.desc = 3 && (j.warm.bind (·.factor)).isSome)

/-- Makes a handle valid with a job's content (R140): a factor with the tiles it lies in, or an analysis, whose size
is free (log entry 71). -/
def saveHandle (s : State) (j : Job) (f : Option Factor) : State :=
  let h := dHandle j.desc
  let f := if dKind j.desc = 1 || isQp j.desc then none else f
  let size := match f with
    | some _ => factorKib j.desc (jobStructs j.desc j.ext j.data j.order)
    | none => analysisKib j.fprint
  let s := { s with lsv := { s.lsv with handles := tput s.lsv.handles h ⟨j.order, f, if j.ddr then [] else j.tiles, size⟩ } }
  let s := wr (wr s Reg.LSV_HANDLE0_VALID 1 h) Reg.LSV_HANDLE0_CONTENT (if f.isSome then 2 else 1) h
  let s := wrB (wrB s Reg.LSV_HANDLE0_FPREC (f.isSome && dSingle j.desc) h) Reg.LSV_HANDLE0_DDR (f.isSome && j.ddr) h
  let s := wr s Reg.LSV_HANDLE1_SIZEKIB size h
  touchHandle (wr (wr s Reg.LSV_HANDLE2_FPRINT (j.fprint.toNat % 2 ^ 32) h) Reg.LSV_HANDLE3_FPRINT
    (j.fprint.toNat / 2 ^ 32) h) h

/-- KiB that handles hold in tile SRAM or in DDR5, but for those of a list. -/
def handleKib (s : State) (ddr : Bool) (but : List Nat) : Nat :=
  (List.range 32).foldl (fun a n =>
    if rdB s Reg.LSV_HANDLE0_VALID n && rdB s Reg.LSV_HANDLE0_DDR n == ddr && !but.contains n then
      a + rd s Reg.LSV_HANDLE1_SIZEKIB n else a) 0

/-- Evicts the least recently used handles, never one of `but`, until `need` KiB fit in `room` (R141). -/
def evict (ddr : Bool) (but : List Nat) (need room : Nat) : Nat → State → State
  | 0, s => s
  | fuel + 1, s =>
    if need + handleKib s ddr [] ≤ room then s
    else
      let c := (List.range 32).filter fun n =>
        rdB s Reg.LSV_HANDLE0_VALID n && rdB s Reg.LSV_HANDLE0_DDR n == ddr && !but.contains n
      let age := fun n => (tget s.lsv.lastUse n).getD 0
      match c.foldl (fun (b : Option Nat) n => match b with
          | some m => if age n < age m then some n else b
          | none => some n) none with
      | some n => evict ddr but need room fuel (dropHandle s n)
      | none => s

/-! ### Placement (R148) -/

/-- KiB of solver workspace in tile SRAM and in DDR5. -/
def sramRoom (s : State) : Nat := tilesUp s * (4096 - rd s Reg.HMX_SPLIT_SRAMHOST)
def ddrRoom (s : State) : Nat :=
  if ddrUp s then min (rd s Reg.HMX_SPLIT_DDRWS) (rd s Reg.HMX_DDRSTS_SIZE) * 65536 else 0

/-- The tiles in service in ascending order (R174). -/
def serviceTiles (s : State) : List Nat := (List.range 16).filter fun t => tileState s t != .retired

/-- Where a job goes: SRAM KiB, DDR5 KiB, whether it spills, and the tiles its factor lies in; none for NO_MEMORY. A
warm SOLVE works with the factor where it is, which must still be there. -/
def placeJob (s : State) (d : List Byte) (cs homes : List (List Nat)) (warm : Option HandleData) : Option (Nat × Nat × Bool × List Nat) :=
  let hd := rdB s Reg.LSV_HANDLE0_DDR (dHandle d)
  let held := (warm.map (·.kib)).getD 0
  if dKind d = 3 ∧ (warm.bind (·.factor)).isSome then
    if hd && !ddrUp s then none
    else some (if hd then 0 else held, if hd then held else 0, hd, (warm.map (·.tiles)).getD [])
  else
    let t := tilesUp s
    let fs := frontsOf cs
    let (fronts, share) := frontPeaks d homes fs t
    let fac := if dKind d = 1 then 0 else factorKib d cs
    let up := serviceTiles s
    let tiles := ((List.range fs.length).flatMap (frontTiles d homes fs t)).eraseDups.map fun i => up.getD i 0
    let (used, usedD) := if hd then (0, held) else (held, 0)
    if 4096 - rd s Reg.HMX_SPLIT_SRAMHOST < share then none
    else if fac + fronts + used ≤ sramRoom s then some (fac + fronts, 0, false, tiles)
    else if fronts + used ≤ sramRoom s ∧ fac + usedD ≤ ddrRoom s then some (fronts, fac, true, tiles)
    else none

/-! ### Fetching (R127) -/

/-- Free completion entries that no held job has reserved. -/
def cqFree (s : State) : Nat :=
  (s.lsv.cqRead + cqSize s - 1 - s.lsv.cqTail % cqSize s) % cqSize s - s.lsv.held.length

/-- LSV_DOORBELL (R127, R130): SQHEAD is read; the descriptors up to it are fetched when fetching runs. -/
def execLsvDoorbell (sqHead : BitVec 32) (s : State) : Host.Outcome State Fault Refusal :=
  .next (if rdB s Reg.LSV_RINGCFG_EN then { s with lsv := { s.lsv with sqHead := sqHead.toNat % sqSize s } } else s)

/-- A descriptor as a job. -/
def newJob (d : List Byte) (index : Nat) : Job :=
  { desc := d, ext := [], index := index, running := false, startNs := 0, retried := false, warmRej := false,
    ddr := false, sramKib := 0, ddrKib := 0, fprint := 0, data := default, order := [], warm := none, tiles := [],
    kept := none, cplStep := 0, waitFrom := 0, part := none, failed := none, cancel := false }

/-- DESCRIPTOR_FETCH (R127, Table 6.8). -/
def fetchDesc (s : State) (d : List Byte) (cqRead : BitVec 32) : State :=
  let s := { s with lsv := { s.lsv with cqRead := cqRead.toNat % cqSize s } }
  if !(rdB s Reg.LSV_RINGCFG_EN && lsvRuns s && s.lsv.next != s.lsv.sqHead && decide (0 < cqFree s)) then s
  else
    let j := newJob d s.lsv.next
    let s := { s with lsv := { s.lsv with next := (s.lsv.next + 1) % sqSize s } }
    let fail := fun code rsn => writeEntry (setPerf s 0 0) j.index (entryBytes64 s j (plainEnd code rsn) 0)
    if descBad d then fail CC.failRefused Rsn.badDescriptor
    else if 64 ≤ s.lsv.held.length then fail CC.failRefused Rsn.queueFull
    else if tilesUp s = 0 then fail CC.failResourceRetired 0
    else setHeld s (s.lsv.held ++ [j])

/-- DESCRIPTOR_FETCH. -/
def execDescriptorFetch (bytes : List Byte) (cqRead : BitVec 32) (s : State) : Host.Outcome State Fault Refusal :=
  .next (fetchDesc s bytes cqRead)

/-- RING_ENABLE (R129, R157, Table 6.12): the configuration is checked, the descriptors a reset left are reported, then
fetching begins. -/
def ringEnable (s : State) (v : BitVec 32) (sqDone sqHead cqTail cqRead : BitVec 32) (left : List LeftDesc) : State :=
  let x := v.toNat
  let was := rdB s Reg.LSV_RINGCFG_EN
  let s := if bitsOf x 15 1 = 1 then wr s Reg.LSV_RINGCFG_BADCFG 0 else s
  let s := if !was && s.lsv.held.isEmpty then
      wr (wr (wr s Reg.LSV_RINGCFG_SQLOG (bitsOf x 1 4)) Reg.LSV_RINGCFG_CQLOG (bitsOf x 5 4)) Reg.LSV_RINGCFG_VEC
        (bitsOf x 9 6)
    else s
  if was || x % 2 = 0 then s
  else
    let sl := rd s Reg.LSV_RINGCFG_SQLOG
    let cl := rd s Reg.LSV_RINGCFG_CQLOG
    let mis := fun lo hi n => rd64 s lo hi % n != 0
    if sl < 6 ∨ 12 < sl ∨ cl < 6 ∨ 12 < cl ∨ cl < sl
        ∨ mis Reg.LSV_SQBASE_LO_SQBASE Reg.LSV_SQBASE_HI_SQBASE 4096
        ∨ mis Reg.LSV_CQBASE_LO_CQBASE Reg.LSV_CQBASE_HI_CQBASE 4096
        ∨ mis Reg.LSV_CTLADDR_LO_CTLADDR Reg.LSV_CTLADDR_HI_CTLADDR 64 then wr s Reg.LSV_RINGCFG_BADCFG 1
    else
      let s := wr s Reg.LSV_RINGCFG_EN 1
      let n := fun (b : BitVec 32) => b.toNat % sqSize s
      let c := fun (b : BitVec 32) => b.toNat % cqSize s
      let s := if s.lsv.held.isEmpty then
          { s with lsv := { s.lsv with sqDone := n sqDone, sqHead := n sqHead, cqTail := c cqTail, cqRead := c cqRead,
                                       next := n sqDone, reported := [] } }
        else { s with lsv := { s.lsv with sqHead := n sqHead, cqRead := c cqRead } }
      let (o, s) := takeLeft s 4
      let s := match o with
        | none => s
        | some (code, rsn) =>
          let done := left.filter fun d => leAt d.bytes 3 1 = 1
          let s := { s with lsv := { s.lsv with reported := s.lsv.reported ++ done.map (·.index) } }
          let s := (left.filter fun d => leAt d.bytes 3 1 ≠ 1).foldl (fun s d =>
            let j := newJob d.bytes d.index
            writeEntry s d.index (entryBytes64 s j (plainEnd code rsn) 0)) s
          { s with lsv := { s.lsv with next := s.lsv.sqHead } }
      wr s Reg.LSV_QSTS_RECOVERED 1

/-- RING_ENABLE. -/
def execRingEnable (v : BitVec 32) (sqDone sqHead cqTail cqRead : BitVec 32) (left : List LeftDesc) (s : State) :
    Host.Outcome State Fault Refusal := .next (ringEnable s v sqDone sqHead cqTail cqRead left)

/-- RING_DISABLE (R157): fetching stops at once; held jobs run on. -/
def ringDisable (s : State) (v : BitVec 32) : State :=
  wr (if bitsOf v.toNat 15 1 = 1 then wr s Reg.LSV_RINGCFG_BADCFG 0 else s) Reg.LSV_RINGCFG_EN 0

/-- RING_DISABLE. -/
def execRingDisable (v : BitVec 32) (s : State) : Host.Outcome State Fault Refusal := .next (ringDisable s v)

/-! ### Starting a job (R131, R137 to R141, R148, R330) -/

/-- The held job that starts next: the highest PRIO, in fetch order within one. -/
def nextJob (l : List Job) : Option Job :=
  [3, 2, 1, 0].findSome? fun p => l.find? fun j => dPrio j.desc = p

/-- Puts a held job back. -/
def putJob (s : State) (j : Job) : State :=
  setHeld s (s.lsv.held.map fun k => if k.index = j.index then j else k)

/-- JOB_START: the operands are loaded and checked, the warm start, the ordering and the placement with eviction are
settled, and the handle it will save is invalidated, for ANALYSE before the placement, which is of its symbolic phase
(R137, R139, R140, R148, R163). A warm SOLVE takes no room but that of its own handle (R141). FREE invalidates its handle
and ends DONE. `part` starts the work of a cascade part. -/
def startJob (part : State → Job → State) (s : State) (j : Job) (o : JobOperands) : State :=
  let d := j.desc
  let h := dHandle d
  if dKind d = 7 then stopJob (dropHandle s h) j CC.done 0
  else
    let (ext, s) := if isQp d then loadBytes s o (leAt d 120 8) 256 else ([], s)
    let j := { j with running := true, startNs := s.tb.now, ext := ext }
    if isQp d && extBad d ext then stopJob (putJob s j) j CC.failRefused Rsn.badDescriptor
    else
      let (data, s) := if isQp d then loadQp s o d ext else loadLinear s o d
      let fp := fingerprint d ext data
      let j := { j with fprint := fp, data := data }
      match operandsBad d ext data fp with
      | some r => stopJob (putJob s j) j CC.failRefused r
      | none =>
        let warm := dUseH d && handleFits s d fp
        let wsOk := decide (leAt ext 200 8 = fp.toNat)
        let rej := (dUseH d && !warm) || (isQp d && xWarmPt ext && !wsOk)
        let use := if warm then tget s.lsv.handles h else none
        let order := match use with | some u => u.order | none => jobOrder d ext data
        let j := { j with warmRej := rej, warm := use }
        let cs := jobStructs d ext data order
        let early := dSaveH d && decide (dKind d = 1)
        let s := if early then dropHandle s h else s
        match placeJob s d cs (frontHomes d ext data order cs (tilesUp s)) (if early then none else use) with
        | none => stopJob (putJob s j) j CC.failRefused Rsn.noMemory
        | some (sr, dd, ddr, tiles) =>
          let s := if warm && !early then touchHandle s h else s
          let but := if warm then [h] else []
          let own := decide (dKind d = 3) && (use.bind (·.factor)).isSome
          let s := evict false but (if own then 0 else sr) (sramRoom s) 32 s
          let s := evict true but (if own then 0 else dd) (ddrRoom s) 32 s
          let j := { j with order := order, ddr := ddr, sramKib := sr, ddrKib := dd, tiles := tiles }
          let s := if savesHandle j then dropHandle s h else s
          if isQp d && xMember ext then part (putJob s j) j else putJob s j

/-- The job that runs. -/
def runningJob (s : State) : Option Job := s.lsv.held.find? (·.running)

/-! ### The end of a job (R150, R151, R170, R171, R175) -/

/-- The bytes of binary64 values. -/
def wordBytes (l : List Word) : List Byte := l.flatMap fun w => leBytes 8 w.toNat

/-- Whether a job posts its solution (R175). -/
def jobPosts (j : Job) (e : JobEnd) : Bool :=
  dMbox j.desc != 255 && dKind j.desc != 1 && dKind j.desc != 2
    && (e.code = CC.done || e.code = CC.doneAfterRetry
      || (e.code = CC.doneDegraded && (if isQp j.desc then xPostDeg j.ext else dAccept j.desc)))

/-- The elements a job posts. -/
def postElems (j : Job) (x : List Word) : List Word :=
  if isQp j.desc then (x.drop (xPostOff j.ext)).take (xPostLen j.ext)
  else x.take (min (dN j.desc * dNrhs j.desc) 16384)

/-- The 64-bit digest of a posting (R176). -/
def elemDigest (l : List Word) : Nat := leNat ((sha512 (wordBytes l)).take 8)

/-- Writes the results of a job and ends it. -/
def finishJob (s : State) (j : Job) (e : JobEnd) (o : JobObs) : State :=
  let ok := decide (e.code < 0x10)
  let s := if ok && e.writeX then deviceWrite s (dSol j.desc) (wordBytes e.x) else s
  let s := match e.cert with
    | some c => if xCert j.ext != 0 then deviceWrite s (xCert j.ext) (wordBytes c) else s
    | none => s
  let s := writeReport s j e
  let save := ok && savesHandle j
  let s := if save then saveHandle s j e.factor else s
  let posts := jobPosts j e
  let el := postElems j e.x
  let s := if posts then
      submit s s.tb.now 66 (dMbox j.desc) (.mailbox (dMbox j.desc) (BitVec.ofNat 64 (dTag j.desc)) e.code el (BitVec.ofNat 64 (elemDigest el)))
    else s
  let e := { e with flags := e.flags + (if save then jfSaved else 0) + (if posts then jfPosted else 0) }
  closeJob (setPerf s o.flop o.cyc) j e false

/-- The job runs a programme shared with other members, so that its outcome is not its own to decide (R183). -/
def sharedSolve (s : State) (j : Job) : Bool :=
  isQp j.desc && xMember j.ext && (match s.lsv.cjob with | some c => c.open_ || !c.joined.isEmpty | none => true)

/-- The cause that ends a job whose work is complete (R152, R154): overflow before the budget, the budget before a
cancel. A cancel that reached the job after its outcome was fixed, which is a free value (log entry 74), comes too
late. A failure of its `own` is told to the other parts. -/
def completeJob (s : State) (j : Job) (e : JobEnd) (o : JobObs) (own : Bool) : State :=
  let us := runTime s j
  let tell := fun (s : State) => if own && decide (0x10 ≤ e.code) then tellParts s j e.code e.rsn else s
  let late := dBudget j.desc != 0 && decide (dBudget j.desc ≤ us)
  let ovf := decide (e.code = CC.failNumeric ∧ e.rsn = Rsn.overflow) && decide (us = dBudget j.desc)
  if late && !ovf then stopJob s j CC.failBudget 0
  else if j.cancel then
    let s' := { s with free := s.free + 1 }
    if freeBool s.free then finishJob (tell s') j e o else stopJob s' j CC.failCancelled 0
  else finishJob (tell s) j e o

/-- JOB_COMPLETE at an instant: the running job with its outcome. A cascade part ends so only by a failure of its own,
which it tells the others (R184), or by a cancel. -/
def execJobComplete (o : JobObs) (s : State) : Host.Outcome State Fault Refusal :=
  .next (match runningJob s with
    | none => s
    | some j =>
      let s := advance s o.at_
      if !sharedSolve s j then completeJob s j (jobEnd j) o true
      else match j.failed with
        | some e => completeJob s j e o true
        | none => if j.cancel then stopJob s j CC.failCancelled 0 else s)

/-- JOB_BUDGET_EXPIRY (R152): RUNTIME reaches BUDGET. -/
def execJobBudgetExpiry (us : Nat) (s : State) : Host.Outcome State Fault Refusal :=
  .next (match runningJob s with
    | none => s
    | some j =>
      let s := advance s (j.startNs + us * 1000)
      if dBudget j.desc != 0 && dBudget j.desc ≤ runTime s j then stopJob s j CC.failBudget 0 else s)

/-- CANCEL_JOB (R154): queued jobs of the tag end at once; a running one stops within 20 µs, and the command waits for
its outcome. -/
def cancelJob (s : State) : State :=
  if rdB s Reg.LSV_CANCELSTS_PEND then
    wr (wr s Reg.LSV_CANCELSTS_CC CC.failRefused) Reg.LSV_CANCELSTS_RSN Rsn.busy
  else if modeIs s = .test then cancelEnd s CC.failRefused Rsn.badMode
  else
    let tag := rd64 s Reg.LSV_CANCEL_LO_TAG Reg.LSV_CANCEL_HI_TAG
    let hit := s.lsv.held.filter fun j => dTag j.desc = tag
    let queued := hit.filter fun j => !j.running
    let s := queued.foldl (fun s j => stopJob s j CC.failCancelled 0) s
    match hit.find? (·.running) with
    | some j =>
      let s := putJob { s with lsv := { s.lsv with cancel := some (!queued.isEmpty) } } { j with cancel := true }
      wr s Reg.LSV_CANCELSTS_PEND 1
    | none => if queued.isEmpty then cancelEnd s CC.failRefused Rsn.noJob else cancelEnd s CC.done 0

/-- CANCEL_JOB. -/
def execCancelJob (s : State) : Host.Outcome State Fault Refusal := .next (cancelJob s)

/-! ### Faults (R155, R156, R295) -/

/-- TILES and the state of the unit after a retirement (R156). -/
def showTiles (s : State) : State :=
  let s := wr s Reg.LSV_STATUS_TILES (tilesUp s)
  if tilesUp s = 0 then
    let s := stopAll (wr s Reg.LSV_STATUS_QUAL (qualCode .retired)) CC.failResourceRetired 0
    let s := (List.range 16).foldl (fun s i =>
      wr (wr s Reg.LSV_MBX0_QUAL (qualCode .retired) i) Reg.LSV_MBX0_MSTATE (mstateCode .retired) i) s
    holdCause s .solver
  else s

/-- Handles with data in a retired tile's SRAM are invalidated (R141): a factor by the tiles it lies in; where an
analysis lies the spec does not say, so whether it goes is a free value (log entry 71). -/
def dropTileHandles (s : State) (tile : Nat) : State :=
  (List.range 32).foldl (fun s n =>
    if rdB s Reg.LSV_HANDLE0_VALID n && !rdB s Reg.LSV_HANDLE0_DDR n then
      match tget s.lsv.handles n with
      | some h =>
        if h.factor.isSome then (if h.tiles.contains tile then dropHandle s n else s)
        else
          let b := freeBool s.free
          let s := { s with free := s.free + 1 }
          if b then dropHandle s n else s
      | none => s
    else s) s

/-- The iterate a restart keeps (R172): that of the round the upset meets, which is a free value (log entry 74). A
cascade part stands at the iterate it keeps: what it repeats of the iteration gives the same values (R132), so nothing is
sent again, and the part is a retried one from there. -/
def keepIterate (s : State) (j : Job) : State × Job :=
  if isQp j.desc && !xMember j.ext && !j.order.isEmpty then
    let l := qpTrail (jobRed j) j 256 (qpFrom (jobRed j) j)
    ({ s with free := s.free + 1 }, { j with kept := l[(freeWord s.free).toNat % l.length]? })
  else (s, if isQp j.desc then { j with kept := j.kept.map fun w => { w with flags := w.flags ||| jfRetried } } else j)

/-- The running job after an uncorrected upset that did not retire its resource (R155): it restarts from its numeric
phase, a programme from its current iteration (R172), or ends at the second upset of its restarted run. -/
def upsetJob (s : State) : State :=
  match runningJob s with
  | none => s
  | some j =>
    if j.retried then stopJob s j CC.failTransientExhausted Rsn.tileUpset
    else
      let (s, j) := keepIterate s j
      putJob s { j with retried := true }

/-- The running job when a resource it runs on is retired. -/
def retireJob (s : State) : State :=
  match runningJob s with
  | none => s
  | some j => stopJob s j CC.failResourceRetired 0

/-- A tile is retired. -/
def tileRetired (s : State) (tile : Nat) : State := showTiles (dropTileHandles (retireJob s) tile)

/-- TILE_UPSET (R155, R156, R392): a corrected error counts, and its second in one word within the window is an upset
that does not disturb the job; an uncorrected one restarts or ends the job. -/
def tileUpset (s : State) (tile : Fin 16) (corrected : Bool) (word : Nat) : State :=
  let r : Resource := ⟨.solver, tile.val⟩
  if tileState s tile.val = .retired then s
  else if corrected then
    let (s, twice) := correctedTwice (bump s Reg.LSV_TILESTS_CORR tile.val) r word
    if twice then (upset s r fun s => tileRetired s tile.val).1 else s
  else
    let (s, dead) := upset s r fun s => tileRetired s tile.val
    if dead then s else upsetJob s

/-- TILE_UPSET. -/
def execTileUpset (tile : Fin 16) (corrected : Bool) (word : Nat) (s : State) : Host.Outcome State Fault Refusal :=
  .next (tileUpset s tile corrected word)

/-- A DDR5 channel is retired: it is no longer used, and half the capacity goes with it (R294, R156). -/
def ddrRetired (s : State) (ch : Fin 2) : State :=
  let other := if ch = 0 then rdB s Reg.HMX_DDRSTS_CH1 else rdB s Reg.HMX_DDRSTS_CH0
  let s := wr s (if ch = 0 then Reg.HMX_DDRSTS_CH0 else Reg.HMX_DDRSTS_CH1) 0
  let s := wr s Reg.HMX_DDRSTS_SIZE (if other then rd s Reg.HMX_DDRSTS_SIZE / 2 else 0)
  match runningJob s with
  | some j => if j.ddr then retireJob s else s
  | none => s

/-- DDR_UNCORRECTABLE (R295, R391): an upset of the channel; `where_` 0 a job's spill, 1 to 4 a read of DMA queue
`where_` − 1, whose copy ends MEM_ECC, else a BAR2 read, which returns poisoned. -/
def ddrUncorr (s : State) (ch : Fin 2) (where_ : Nat) : State :=
  if !ddrAwake s then s
  else
    let (s, dead) := upset s ⟨.solver, 16 + ch.val⟩ fun s => ddrRetired s ch
    if where_ = 0 then
      match runningJob s with
      | some j => if j.ddr && !dead then upsetJob s else s
      | none => s
    else if h : 1 ≤ where_ ∧ where_ ≤ 4 then
      let q : Fin 4 := ⟨where_ - 1, by omega⟩
      if dmaBusy s q then { s with hmx := { s.hmx with dmaEcc := s.hmx.dmaEcc.set q true } } else s
    else emit s .poisoned

/-- DDR_UNCORRECTABLE. -/
def execDdrUncorrectable (ch : Fin 2) (where_ : Nat) (s : State) : Host.Outcome State Fault Refusal :=
  .next (ddrUncorr s ch where_)

/-- SPLIT_WRITE (R292, R433): refused with BADCFG while the ring is enabled, jobs are held, or SRAMHOST is above
3,584 KiB or no multiple of 64; a change invalidates every handle. -/
def splitWrite (s : State) (v : BitVec 32) : State :=
  let x := v.toNat
  let s := if bitsOf x 22 1 = 1 then wr s Reg.HMX_SPLIT_BADCFG 0 else s
  let sh := bitsOf x 0 12
  let ws := bitsOf x 12 10
  if rdB s Reg.LSV_RINGCFG_EN || rd s Reg.LSV_QSTS_DEPTH != 0 || decide (3584 < sh) || sh % 64 != 0 then
    wr s Reg.HMX_SPLIT_BADCFG 1
  else if sh = rd s Reg.HMX_SPLIT_SRAMHOST ∧ ws = rd s Reg.HMX_SPLIT_DDRWS then s
  else dropHandles (wr (wr s Reg.HMX_SPLIT_SRAMHOST sh) Reg.HMX_SPLIT_DDRWS ws)

/-- SPLIT_WRITE. -/
def execSplitWrite (v : BitVec 32) (s : State) : Host.Outcome State Fault Refusal := .next (splitWrite s v)

/-! ### The mailbox (R176 to R180) -/

/-- The postings of one set to one slot, in agreed order (R177): those taken, the last of which takes effect, and the
divergences from a posting of the same tag already taken. -/
def slotPostings (slot : Nat) (l : List Input) :
    List (Input × BitVec 64 × Nat × List Word × BitVec 64) × List (BitVec 64 × Side × Side) :=
  l.foldl (fun (took, div) i =>
    match i.body with
    | .mailbox n tag code el dg =>
      if n ≠ slot then (took, div)
      else match took.find? fun e => e.2.1 = tag with
        | some (b, _, _, _, d) => if d = dg then (took, div) else (took, div ++ [(tag, b.side, i.side)])
        | none => (took ++ [(i, tag, code, el, dg)], div)
    | _ => (took, div)) ([], [])

/-- A slot takes a posting at its edge (R176, R179): content that the program has not taken counts as overrun, in the
order of a wrapping sequence (R7). -/
def takePost (s : State) (slot : Nat) (tag : BitVec 64) (code : Nat) (el : List Word) : State :=
  let seq := BitVec.ofNat 32 (rd s Reg.LSV_MBX1_SEQ slot)
  let late := (tget s.lsv.mbx slot).isSome && newer32 seq (BitVec.ofNat 32 (rd s Reg.LSV_MBX2_ACKSEQ slot))
  let s := if late then bump s Reg.LSV_MBX3_OVERRUN slot else s
  let s := wr s Reg.LSV_MBX1_SEQ (seq + 1).toNat slot
  let m : MbxSlot := ⟨el, tag, code, s.tb.tick, seq + 1⟩
  let s := { s with lsv := { s.lsv with mbx := tput s.lsv.mbx slot m, mbxNew := s.lsv.mbxNew ++ [slot] } }
  if tilesUp s = 0 then s else wr s Reg.LSV_MBX0_QUAL 0 slot

/-- The ages of the slots at an edge (R178, R180). -/
def mailboxAge (s : State) : State :=
  (List.range 16).foldl (fun s n =>
    match tget s.lsv.mbx n with
    | some m =>
      let age := rd s Reg.LSV_MBX0_MAXAGE n
      if tilesUp s = 0 then s
      else wr s Reg.LSV_MBX0_QUAL (if age ≠ 0 ∧ age < s.tb.tick - m.tick then qualCode .stale else 0) n
    | none => s) s

/-- The mailbox at an edge: the agreed postings, then the ages (R176 to R178); in TEST it takes none (R180). -/
def mailboxEdge (s : State) (l : List Input) : State :=
  let s := { s with lsv := { s.lsv with mbxNew := [] } }
  let l := if modeIs s = .test then [] else l
  mailboxAge ((List.range 16).foldl (fun s n =>
    let (took, div) := slotPostings n l
    let s := div.foldl (fun s (t, a, b) =>
      event (bump s Reg.LSV_MBX3_DIVERGE n) Ev.mboxDiverge .warning
        ([n] ++ lowHigh t.toNat ++ [if a then 1 else 0, if b then 1 else 0])) s
    match took.getLast? with | some (_, t, c, el, _) => takePost s n t c el | none => s) s)

/-- Empties the mailbox (R180). -/
def clearMailbox (s : State) : State :=
  let s := (List.range 16).foldl (fun s n =>
    [(Reg.LSV_MBX0_QUAL, qualCode .bad), (Reg.LSV_MBX1_SEQ, 0), (Reg.LSV_MBX2_ACKSEQ, 0), (Reg.LSV_MBX3_OVERRUN, 0),
     (Reg.LSV_MBX3_DIVERGE, 0)].foldl (fun s e => wr s e.1 e.2 n) s) s
  let keep := fun (i : Input) => match i.body with | .mailbox .. => false | _ => true
  let own := s.rdu.own.map fun e => (e.1, e.2.filter keep)
  { s with lsv := { s.lsv with mbx := [], mbxNew := [] }, rdu := { s.rdu with own := own } }

/-- The low word of a performance counter, its high word being latched (R44). -/
def perfLoRead (s : State) (cyc : Bool) : Nat × State :=
  let v := if cyc then s.lsv.cyc else s.lsv.flop
  let f := if cyc then Reg.LSV_PERF_CYC_HI_CYC else Reg.LSV_PERF_FLOP_HI_FLOP
  (v.toNat % 2 ^ 32, wr s f (v.toNat / 2 ^ 32))

/-- PERF_LO_READ (R44). -/
def execPerfLoRead (cyc : Bool) (s : State) : Host.Outcome State Fault Refusal := .next (emitRead (perfLoRead s cyc))

end Sys2Proof.Machine
end

