-- ==== Sys2Proof/Machine/Otp.lean ====
section
/-! DEFINITION. The one-time-programmable memory, quotes and the test access port (R403, R404, R410 to R415,
20_security.md). -/

namespace Sys2Proof.Machine

/-- A root slot is usable (R404). -/
def rootUsable (r : RootSlot) : Bool := r.digest.isSome && r.checkOk && !r.revoked

/-- A root slot is revoked, or counts as revoked since its check fails (R404). -/
def rootRevoked (r : RootSlot) : Bool := r.revoked || !r.checkOk

/-- A root slot of the OTP. -/
def rootOf (s : State) (i : Nat) : RootSlot := s.ssu.otp.roots.toList.getD i ⟨none, true, false⟩

/-- Slots with a property, as a mask. -/
def rootMask (s : State) (p : RootSlot → Bool) : Nat :=
  (List.range 4).foldl (fun n i => if p (rootOf s i) then n + 2 ^ i else n) 0

/-- The registers that show the OTP (Tables 20.9, 20.11). -/
def showOtp (s : State) : State :=
  let o := s.ssu.otp
  let s := wr (wr s Reg.SSU_SECSTS_USABLE (rootMask s rootUsable)) Reg.SSU_SECSTS_REVOKED (rootMask s rootRevoked)
  let s := wrB (wrB s Reg.SSU_SECSTS_JTAGOFF o.jtagOff) Reg.SSU_SECSTS_BISTSTART o.bistStart
  let s := wr (wr s Reg.SSU_SVN_PFLOOR o.pfloor) Reg.SSU_SVN_FFLOOR o.ffloor
  wr (wr s Reg.SSU_DEVID_LO_DEVID o.devid.toNat) Reg.SSU_DEVID_HI_DEVID (o.devid.toNat / 2 ^ 32)

/-- Puts the OTP. -/
def putOtp (s : State) (o : Otp) : State := showOtp { s with ssu := { s.ssu with otp := o } }

/-! ### OTP commands (R410, R411) -/

/-- The end of an OTP command. -/
def otpEnd (s : State) (code rsn : Nat) : State :=
  setStatus s Reg.SSU_OTPSTS_CC Reg.SSU_OTPSTS_RSN Reg.SSU_OTPSTS_PEND code rsn

/-- The end of a fuse write: read back right, or wrong. -/
def otpDone (s : State) (ok : Bool) : State :=
  if ok then otpEnd s CC.done 0 else otpEnd s CC.failTransientExhausted Rsn.otpFault

/-- A loaded image that no longer passes checks 4 and 6 is discarded (R411). -/
def otpRecheck (s : State) : State :=
  let bad := fun (key svn floor : Nat) => rootRevoked (rootOf s key) || decide (svn < floor)
  let s := match loaded s with
    | some p => if rd s Reg.CSA_OLC_STATE = 2 ∧ bad p.keyIdx p.svn s.ssu.otp.pfloor then
        olcState (putHalf s (otherHalf s) none) 0 else s
    | none => s
  match s.fct.shadow with
  | some f => if rd s Reg.FCT_STATUS_SHSTATE = 2 ∧ bad f.keyIdx f.svn s.ssu.otp.ffloor then
      shState (putShadow s none) 0 else s
  | none => s

/-- The digest staged in `SSU_OTPDATA`; none while all of it is 0. -/
def otpData (s : State) : Option (List Byte) :=
  let d := (List.range 16).flatMap fun i => leBytes 4 (rd s Reg.SSU_OTPDATA_DATA i)
  if d.all (· = 0) then none else some d

/-- PROGRAM_ROOT; a slot read back wrong counts as revoked. -/
def programRoot (s : State) (i : Fin 4) (ok : Bool) : State :=
  let o := s.ssu.otp
  let r := o.roots[i]
  if r.digest.isSome || !r.checkOk then otpEnd s CC.failRefused Rsn.otpUsed
  else otpDone (putOtp s { o with roots := o.roots.set i { r with digest := otpData s, checkOk := ok } }) ok

/-- REVOKE. -/
def revokeRoot (s : State) (i : Fin 4) (ok : Bool) : State :=
  let o := s.ssu.otp
  if (List.finRange 4).any fun j => j ≠ i && rootUsable o.roots[j] then
    otpDone (otpRecheck (putOtp s { o with roots := o.roots.set i { o.roots[i] with revoked := true } })) ok
  else otpEnd s CC.failRefused Rsn.lastKey

/-- The floor after a write of `v` over `old`: `v`, or when the write is torn a free value between them (R404). -/
def newFloor (s : State) (old v : Nat) (ok : Bool) : Nat × State :=
  if ok then (v, s) else let (k, s) := nextFree s; (old + (freeWord k).toNat % (v - old + 1), s)

/-- RAISE_PFLOOR and RAISE_FFLOOR. -/
def raiseFloor (s : State) (facet : Bool) (v : Nat) (ok : Bool) : State :=
  let o := s.ssu.otp
  let old := if facet then o.ffloor else o.pfloor
  if v ≤ old ∨ 64 < v then otpEnd s CC.failRefused Rsn.outOfRange
  else
    let (n, s) := newFloor s old v ok
    otpDone (otpRecheck (putOtp s (if facet then { o with ffloor := n } else { o with pfloor := n }))) ok

/-- A POLICY bit is blown; a POLICY whose check fails is taken with both bits set (R414). -/
def blowPolicy (s : State) (jtag ok : Bool) : State :=
  let o := s.ssu.otp
  otpDone (putOtp s { o with bistStart := o.bistStart || !jtag || !ok, jtagOff := o.jtagOff || jtag || !ok }) ok

/-- What an accepted OTP command does. -/
def otpRun (s : State) (c : OtpCmd) : State :=
  match c with
  | .programRoot i ok => programRoot s i ok
  | .revoke i ok => revokeRoot s i ok
  | .raise facet v ok => raiseFloor s facet v.toNat ok
  | .policy jtag ok => blowPolicy s jtag ok

/-- An OTP command as written (R410): BUSY while one is pending; BAD_MODE outside HALT and under a power warning;
BAD_KEY; while a quote is in progress it waits. -/
def otpCmd (s : State) (key : BitVec 16) (c : OtpCmd) : State :=
  if rdB s Reg.SSU_OTPSTS_PEND then wr (wr s Reg.SSU_OTPSTS_CC CC.failRefused) Reg.SSU_OTPSTS_RSN Rsn.busy
  else if modeIs s ≠ .halt || rdB s Reg.SSU_SUPPLY_WARN then otpEnd s CC.failRefused Rsn.badMode
  else if key ≠ 0x07B7 then otpEnd s CC.failRefused Rsn.badKey
  else if s.ssu.quote.isSome then wr { s with ssu := { s.ssu with otpWait := some c } } Reg.SSU_OTPSTS_PEND 1
  else otpRun s c

/-- PROGRAM_ROOT. -/
def execProgramRoot (key : BitVec 16) (index : Fin 4) (ok : Bool) (s : State) : Host.Outcome State Fault Refusal :=
  .next (otpCmd s key (.programRoot index ok))

/-- REVOKE. -/
def execRevoke (key : BitVec 16) (index : Fin 4) (ok : Bool) (s : State) : Host.Outcome State Fault Refusal :=
  .next (otpCmd s key (.revoke index ok))

/-- RAISE_PFLOOR. -/
def execRaisePfloor (key : BitVec 16) (value : BitVec 7) (ok : Bool) (s : State) : Host.Outcome State Fault Refusal :=
  .next (otpCmd s key (.raise false value ok))

/-- RAISE_FFLOOR. -/
def execRaiseFfloor (key : BitVec 16) (value : BitVec 7) (ok : Bool) (s : State) : Host.Outcome State Fault Refusal :=
  .next (otpCmd s key (.raise true value ok))

/-- SET_BISTSTART. -/
def execSetBiststart (key : BitVec 16) (ok : Bool) (s : State) : Host.Outcome State Fault Refusal :=
  .next (otpCmd s key (.policy false ok))

/-- JTAG_OFF. -/
def execJtagOff (key : BitVec 16) (ok : Bool) (s : State) : Host.Outcome State Fault Refusal :=
  .next (otpCmd s key (.policy true ok))

/-! ### Quotes (R412, R413) -/

/-- The end of a quote; an OTP command that waited for it runs. -/
def quoteEnd (s : State) (code rsn : Nat) : State :=
  let s := setStatus { s with ssu := { s.ssu with quote := none } } Reg.SSU_QSTS_CC Reg.SSU_QSTS_RSN Reg.SSU_QSTS_PEND
    code rsn
  match s.ssu.otpWait with
  | some c => otpRun { s with ssu := { s.ssu with otpWait := none } } c
  | none => s

/-- QUOTE (R413): its fields are captured at the next tick edge. -/
def quoteCmd (s : State) : State :=
  let refuse := fun (s : State) (r : Nat) => wr (wr s Reg.SSU_QSTS_CC CC.failRefused) Reg.SSU_QSTS_RSN r
  if rdB s Reg.SSU_QSTS_PEND then refuse s Rsn.busy
  else match modeIs s with
    | .recall => refuse s Rsn.badMode
    | .test => refuse s Rsn.badMode
    | .save => refuse s Rsn.badMode
    | _ =>
      wr { s with ssu := { s.ssu with quote := some ⟨rd64 s Reg.SSU_QADDR_LO_ADDR Reg.SSU_QADDR_HI_ADDR, none⟩ } }
        Reg.SSU_QSTS_PEND 1

/-- QUOTE. -/
def execQuote (s : State) : Host.Outcome State Fault Refusal := .next (quoteCmd s)

/-- Bytes 0–255 of a quote (Table 20.7). -/
def quoteBody (s : State) : List Byte :=
  let o := s.ssu.otp
  let b := fun (x : Bool) => if x then 1 else 0
  let dig := fun (d : Option (List Byte)) => ((d.getD []) ++ List.replicate 64 0).take 64
  leBytes 4 0x4B515431 ++ leBytes 1 1
    ++ leBytes 1 (b (ownSide s) + 2 * (ownMember s).val + 16 * modeCode (modeIs s) + 128 * b (rdB s Reg.SSU_SECSTS_JTAGLOCK))
    ++ leBytes 1 (b o.bistStart + 2 * b o.jtagOff) ++ leBytes 1 (rootMask s rootUsable + 16 * rootMask s rootRevoked)
    ++ leBytes 8 o.devid.toNat ++ (List.range 8).flatMap (fun i => leBytes 4 (rd s Reg.SSU_QNONCE_NONCE i))
    ++ dig ((running s).map (·.digest)) ++ dig (s.fct.active.map (·.digest))
    ++ leBytes 1 (((running s).map (·.svn)).getD 0) ++ leBytes 1 ((s.fct.active.map (·.svn)).getD 0)
    ++ leBytes 1 o.pfloor ++ leBytes 1 o.ffloor ++ leBytes 4 ((s.rdu.claimHeld.map (·.toNat)).getD 0)
    ++ leBytes 4 (retireList s).length ++ leBytes 4 (rd s Reg.EVR_OPSEC_OPSEC) ++ leBytes 4 (rd s Reg.EVR_PCC_PCC)
    ++ leBytes 8 s.tb.tick ++ leBytes 8 s.rtc.secs ++ leBytes 1 (b (!rdB s Reg.TBC_RTCSTS_OSF)) ++ List.replicate 43 0

/-- A quote captures its fields at a tick edge. -/
def quoteCapture (s : State) : State :=
  match s.ssu.quote with
  | some q => if q.body.isNone then { s with ssu := { s.ssu with quote := some { q with body := some (quoteBody s) } } }
    else s
  | none => s

/-- QUOTE_COMPLETE (R412, R413): the quote is written, its signature by a key that the spec does not give free; `ok`
is 0 when the DMA failed. -/
def quoteComplete (s : State) (ok : Bool) : State :=
  match s.ssu.quote with
  | some q => match q.body with
    | some body =>
      if ok then
        let sig := (List.range 512).map fun i => freeByte (s.free + i)
        quoteEnd (emit { s with free := s.free + 512 } (.hostWrite q.addr (body ++ sig))) CC.done 0
      else quoteEnd (hostAborted s) CC.failPeerUnreachable Rsn.hostAbort
    | none => s
  | none => s

/-- QUOTE_COMPLETE. -/
def execQuoteComplete (ok : Bool) (s : State) : Host.Outcome State Fault Refusal := .next (quoteComplete s ok)

/-! ### The test access port (R414) -/

/-- The port offers only BYPASS and IDCODE. -/
def tapLocked (s : State) : Bool := s.ssu.otp.jtagOff || rdB s Reg.SSU_SECSTS_JTAGLOCK

/-- The instruction the port takes; one it does not offer selects BYPASS. -/
def tapTakes (s : State) (i : TapInstr) : TapInstr :=
  match i with
  | .extest => if tapLocked s then .bypass else .extest
  | .samplePreload => if tapLocked s then .bypass else .samplePreload
  | i => i

/-- JTAG_INSTRUCTION. -/
def execJtagInstruction (i : TapInstr) (s : State) : Host.Outcome State Fault Refusal :=
  .next { s with ssu := { s.ssu with tap := tapTakes s i } }

end Sys2Proof.Machine
end

