-- ==== Sys2Proof/Machine/MteChain.lean ====
section
/-! DEFINITION. The filter chain of the Metering Engine and the quantities of a line cycle (R189 to R194, Tables 8.2 and
8.4), from modulator bits to volts, amperes and watts. The coefficients the spec does not give are free (log entry 76). -/

namespace Sys2Proof.Machine

/-! ### The chain (R189, Table 8.2) -/

/-- The output period at 32 kS/s, and the delay of the chain of 9.5 periods, in ns. -/
def samplePeriod : Nat := 31250
def chainDelay : Nat := 296875

/-- A quotient rounded to nearest, ties away from zero. -/
def nearestAway (n d : Int) : Int :=
  let q : Int := (2 * (n.natAbs : Int) + d) / (2 * d)
  if n < 0 then -q else q

/-- A Q1.31 word, saturating. -/
def satQ31 (v : Int) : Int := max (-(2 ^ 31)) (min (2 ^ 31 - 1) v)

/-- A chain at rest. -/
def freshChain : ChainSt := ⟨0, 0, 0, 0, 0, 0, 0, [], 0, 0, []⟩

/-- Stage 1: a modulator bit into the integrators, and every DIV bits a word from the combs, exact modulo 2^32 and
scaled to Q1.31. -/
def sincBit (div : Nat) (c : ChainSt) (b : Bool) : ChainSt × Option Int :=
  let i1 := c.i1 + (if b then 1 else -1)
  let i2 := c.i2 + i1
  let i3 := c.i3 + i2
  if c.cnt + 1 < div then ({ c with i1 := i1, i2 := i2, i3 := i3, cnt := c.cnt + 1 }, none)
  else
    let a := i3 - c.d1
    let d := a - c.d2
    let e := d - c.d3
    ({ c with i1 := i1, i2 := i2, i3 := i3, cnt := 0, d1 := i3, d2 := a, d3 := d },
     some (satQ31 (nearestAway (e.toInt * 2 ^ 31) (div ^ 3 : Nat))))

/-- An output of the sinc3 is clipped (R191): at or above 0.95 of full scale. -/
def isClipped (x : Int) : Bool := decide (95 * 2 ^ 31 ≤ 100 * x.natAbs)

/-- An accumulator of 48 bits in units of 2^−44, saturating (R189): where its binary point lies the spec does not say
(log entry 76). -/
def acc48 (v : Int) : Int := max (-(2 ^ 47)) (min (2 ^ 47 - 1) v)

/-- A product of a factor in units of 2^−30 and a Q1.31 word, rounded into an accumulator, and an accumulator rounded to
a Q1.31 word. -/
def macTerm (k x : Int) : Int := nearestAway (k * x) (2 ^ 17)
def accWord (a : Int) : Int := satQ31 (nearestAway a (2 ^ 13))

/-- A sum of products of taps in units of 2^−30 with the newest values of a delay line, as a Q1.31 word. -/
def firSum (tap : Nat → Int) (n : Nat) (l : List Int) : Int :=
  accWord ((List.range n).foldl (fun a k => acc48 (a + macTerm (tap k) (l.getD k 0))) 0)

/-- Stages 2 and 3: droop compensation, then the DC block when it is set. Gives the chain and x of R221. -/
def chainStage3 (div : Nat) (block : Bool) (c : ChainSt) (w : Int) : ChainSt × Int :=
  let line := (w :: c.fir).take 15
  let x := firSum (droopTap div) 15 line
  let c := { c with fir := line }
  if block then
    let y := acc48 ((x - c.dcX) * 2 ^ 13 + nearestAway (dcPole * c.dcY) (2 ^ 32))
    ({ c with dcX := x, dcY := y }, accWord y)
  else ({ c with dcX := x, dcY := 0 }, x)

/-- Stage 4: GAIN × (x − OFFSET), then a fixed delay of one sample moved by PHASE samples. -/
def chainCorrect (k : CoefSet) (c : ChainSt) (x : Int) : ChainSt × Int :=
  let y := accWord (acc48 (macTerm k.gain.toNat (x - k.offset.toInt)))
  let line := (y :: c.tail).take 4
  ({ c with tail := line }, if k.phase = 0 then line.getD 1 0 else firSum (phaseTap k.phase) 4 line)

/-- An input's bits through its chain: the output samples, each with its stage-3 output and whether it clipped. -/
def chainRun (div : Nat) (block : Bool) (k : CoefSet) (c : ChainSt) (bits : List Bool) :
    ChainSt × List (Int × Int × Bool) :=
  bits.foldl (fun (c, out) b =>
    match sincBit div c b with
    | (c, none) => (c, out)
    | (c, some w) =>
      let (c, x) := chainStage3 div block c w
      let (c, y) := chainCorrect k c x
      (c, out ++ [(y, x, isClipped w)])) (c, [])

/-! ### Samples of a feeder -/

/-- A signal path at rest. -/
def freshFeed : FeedSt := ⟨Vector.replicate 6 freshChain, [], [], none, none, false, false, [], [], false, none⟩

/-- A signal path whose feeder meters no more: its chains stand, its cycles are over. -/
def stoppedFeed (st : FeedSt) : FeedSt := { freshFeed with chains := st.chains, past := st.past }

/-- The output samples of six inputs as samples of a feeder, in time order; the Hilbert filter works on the voltages,
and the current is delayed by the 31 samples of that filter (R194). `fin`: when the last one is complete; `use`: the
reference voltage is of use. -/
def feedSamples (past : List (Vector Int 3 × Vector Int 3)) (fin : Nat) (use : Bool)
    (outs : Vector (List (Int × Int × Bool)) 6) :
    List (Vector Int 3 × Vector Int 3) × List Sample :=
  let n := (outs.toList.map List.length).foldl min (outs[0].length)
  let out := fun (j : Fin 6) (k : Nat) => outs[j].getD k (0, 0, false)
  let at_ := fun (j : Fin 6) (k : Nat) => (out j k).1
  (List.range n).foldl (fun (past, l) k =>
    let v : Vector Int 3 := #v[at_ 0 k, at_ 1 k, at_ 2 k]
    let i : Vector Int 3 := #v[at_ 3 k, at_ 4 k, at_ 5 k]
    let past := ((v, i) :: past).take 63
    let h := fun (p : Fin 3) => firSum hilbertTap 63 (past.map fun e => e.1[p])
    let d := ((past[31]?).map (·.2)).getD (Vector.replicate 3 0)
    let t := fin - (n - 1 - k) * samplePeriod - chainDelay
    (past, l ++ [⟨t, v, i, #v[h 0, h 1, h 2], d, Vector.ofFn fun j => (out j k).2.1, use⟩])) (past, [])

/-! ### Quantities (R194, Table 8.4) -/

/-- The part of a sample's period that lies between two instants, the period being centred on the instant the sample
represents (log entry 18). -/
def sampleShare (a b t : Nat) : Nat := min (t + samplePeriod / 2) b - max (t - samplePeriod / 2) a

/-- The weighted mean of a product of two signals over a cycle, of full scale squared. -/
def weightedMean (l : List Sample) (a b : Nat) (f : Sample → Int) : Word :=
  dDiv (dInt (l.foldl (fun s x => s + (sampleShare a b x.at_ : Int) * f x) 0) (-62)) (dInt (b - a : Nat))

/-- The quantities of the cycle between two instants, in volts, amperes and watts. -/
def cycleOf (g : FeederCfg) (l : List Sample) (a b : Nat) : CycleQ :=
  let (v, i) := (dOfS g.vfs, dOfS g.ifs)
  let m := fun (k : Word) (f : Sample → Int) => dMul k (weightedMean l a b f)
  let ph := fun (f : Fin 3 → Word) => (#v[f 0, f 1, f 2] : Vector Word 3)
  { durNs := b - a
    vms := ph fun p => m (dMul v v) fun x => x.v[p] * x.v[p]
    ims := ph fun p => m (dMul i i) fun x => x.i[p] * x.i[p]
    p := ph fun p => m (dMul v i) fun x => x.v[p] * x.i[p]
    q := ph fun p => m (dMul v i) fun x => x.h[p] * x.d[p] }

/-- The reference phase (R193). -/
def refPhase (g : FeederCfg) : Fin 3 := ⟨g.refPh % 3, by omega⟩

/-- A voltage in volts. -/
def inVolts (g : FeederCfg) (v : Int) : Word := dMul (dOfS g.vfs) (dInt v (-31))

/-- The reference voltage is low enough for the next crossing to count: below 2 % of VNOM × √2 under zero (R193, log
entry 18). -/
def belowHyst (g : FeederCfg) (x : Sample) : Bool :=
  let h := dDiv (dMul (dInt 2) (dMul (dOfS g.vnom) (dSqrt (dInt 2)))) (dInt 100)
  dLt (inVolts g x.v[refPhase g]) (dNeg h)

/-- The RMS of the reference phase over the last 25 ms is below 10 % of VNOM (R193), once the path is 25 ms long; samples
of a stuck input are not used (R191). -/
def lowVolt (g : FeederCfg) (l : List Sample) (now : Nat) : Bool :=
  let spans := match l.head? with | some y => decide (y.at_ + 25000000 ≤ now + samplePeriod) | none => false
  let l := l.filter fun x => x.use && decide (now < x.at_ + 25000000)
  let sum := l.foldl (fun a x => a + x.v[refPhase g] * x.v[refPhase g]) 0
  spans && dLt (dMul (dOfS g.vfs) (dSqrt (dDiv (dInt sum (-62)) (dInt l.length)))) (dDiv (dOfS g.vnom) (dInt 10))

/-- The instant of a crossing between two samples, by linear interpolation, to 1 ns (R193). -/
def crossingAt (g : FeederCfg) (x y : Sample) : Nat :=
  let (a, b) := (x.v[refPhase g], y.v[refPhase g])
  x.at_ + (nearestAway (-a * (y.at_ - x.at_ : Nat)) (b - a)).toNat

/-- The length of a cycle under NOVOLT (R193). -/
def fixedCycle (g : FeederCfg) : Nat := 10 ^ 9 / g.fnom

/-- A crossing ends a cycle of 14.29 to 25.00 ms, the cycle being the one that began at the last boundary (R193). -/
def crossingOk (a t : Nat) : Bool := decide (a + 14290000 ≤ t ∧ t ≤ a + 25000000)

/-- What a sample ends: a boundary at some instant, if any, and the path after it (R193). While the voltage is low no
crossing ends a cycle; without an accepted crossing for 25 ms cycles of fixed length follow until a crossing ends one of
14.29 to 25.00 ms again. The first boundary of a path is its first crossing, or under NOVOLT its first sample (log entry
18). -/
def feedSample (g : FeederCfg) (st : FeedSt) (x : Sample) : FeedSt × Option Nat :=
  let cross := st.armed && x.use && decide (0 ≤ x.v[refPhase g])
  let at_ := match st.hist.getLast? with | some y => crossingAt g y x | none => x.at_
  let hist := st.hist ++ [x]
  let low := lowVolt g hist x.at_
  let accepted := cross && !low && (match st.from_ with | some a => crossingOk a at_ | none => true)
  let taken := if accepted then at_ else st.taken.getD x.at_
  let novolt := low || decide (taken + 25000000 ≤ x.at_)
  let st := { st with hist := hist, novolt := novolt, taken := some taken
                      armed := !cross && x.use && (st.armed || belowHyst g x) }
  if accepted then ({ st with from_ := some at_ }, some at_)
  else match st.from_ with
  | none => if novolt then ({ st with from_ := some x.at_ }, some x.at_) else (st, none)
  | some a =>
    let t := a + fixedCycle g
    if novolt && decide (a < t ∧ t ≤ x.at_) then ({ st with from_ := some t }, some t) else (st, none)

/-- The samples still needed: those of the cycle under way and of the last 25 ms. -/
def trimHist (st : FeedSt) (now : Nat) : FeedSt :=
  { st with hist := st.hist.filter fun x =>
      decide (now < x.at_ + 25000000) || (match st.from_ with | some a => decide (a < x.at_ + samplePeriod) | none => false) }

end Sys2Proof.Machine
end

