-- ==== Sys2Proof/Machine/Mte.lean ====
section
/-! DEFINITION. The Metering Engine (R185 to R210, 08_metering_engine.md): line cycles, pulses, thermal steps,
accumulation, latch records and their comparison across a pair, metering postings, saves and the restore. -/

namespace Sys2Proof.Machine

/-- The modes in which the modulator clocks run and the engine meters (R186). -/
def metering (s : State) : Bool :=
  match modeIs s with
  | .recall => false
  | .test => false
  | _ => true

/-- A channel that has metered nothing. -/
def freshChan : Chan :=
  { acc := Vector.replicate 6 0, seq := 0, open_ := none, latch := none, fcfg := none, tcfg := none, ttab := [],
    cfgChg := false, tsLast := none, trLast := none, tsHeld := 0, trHeld := 0,
    prevCount := none, diffRun := 0, partnerAcc := none, restored := false, gapAfter := false, pmaxBeat := 0 }

/-- Channel `c`: feeder 0 to 31, thermal 32 to 95. -/
def chanOf (s : State) (c : Nat) : Chan := (tget s.mte.chans c).getD freshChan

/-- Puts a channel back. -/
def setChan (s : State) (c : Nat) (x : Chan) : State := { s with mte := { s.mte with chans := tput s.mte.chans c x } }

/-- The signal path of a feeder, or of the reference set as 32. -/
def feedOf (s : State) (f : Nat) : FeedSt := (tget s.mte.feeds f).getD freshFeed
def setFeed (s : State) (f : Nat) (x : FeedSt) : State := { s with mte := { s.mte with feeds := tput s.mte.feeds f x } }

/-- A pulse input. -/
def pulseOf (s : State) (p : Nat) : Pulse := (tget s.mte.pulses p).getD ⟨0, none, 0, 0, 0, 0, false⟩

/-- Puts a pulse input back. -/
def setPulse (s : State) (p : Nat) (x : Pulse) : State :=
  { s with mte := { s.mte with pulses := tput s.mte.pulses p x } }

/-- The metering section of the active facet. -/
def meterCfg (s : State) : Option MeterCfg := s.fct.active.map (·.meter)

/-- A feeder's or thermal channel's configuration in the active facet. -/
def feederCfg (s : State) (f : Nat) : Option FeederCfg := (meterCfg s).bind fun m => m.feeders[f]?
def thermCfg (s : State) (h : Nat) : Option ThermCfg := (meterCfg s).bind fun m => m.therms[h]?
def pulseCfg (s : State) (p : Nat) : Option PulseCfg := (meterCfg s).bind fun m => m.pulses[p]?

/-- The first point of Table 8.9. -/
def ptBase (s : State) : Nat := match meterCfg s with | some m => m.ptBase | none => 0

/-- A field of a channel's status word. -/
def chanField (c : Nat) (ff hf : Field) : Field × Nat := if c < 32 then (ff, c) else (hf, c - 32)

/-- Sets bits of the flags accumulated in the open interval (Table 8.7). -/
def addFlags (s : State) (c : Nat) (bits : Nat) : State :=
  let (f, i) := chanField c Reg.MTE_FSTS_FLAGS Reg.MTE_HSTS_FLAGS
  wr s f (rd s f i ||| bits) i

/-- Management state and quality of a channel. -/
def setChanState (s : State) (c : Nat) (m : MState) : State :=
  let (f, i) := chanField c Reg.MTE_FSTS_MSTATE Reg.MTE_HSTS_MSTATE
  wr s f (mstateCode m) i
def chanState (s : State) (c : Nat) : MState :=
  let (f, i) := chanField c Reg.MTE_FSTS_MSTATE Reg.MTE_HSTS_MSTATE
  mstateOf (rd s f i)

/-- Bits of Table 8.7. -/
def flBidir : Nat := 1
def flCalchg : Nat := 2
def flCfgchg : Nat := 4
def flNovolt : Nat := 8
def flClipped : Nat := 16
def flSubcyc : Nat := 32
def flPartial : Nat := 64
def flPairdiff : Nat := 128
def flPairmiss : Nat := 256
def flRetired : Nat := 512
def flInfail : Nat := 1024
def flRestored : Nat := 2048
def flGapafter : Nat := 4096

/-! ### Postings (R203, R204) -/

/-- A metering posting, an input of source 65 whose identifier is the channel: feeders 0 to 31, thermal channels 32 to
95, pulse inputs 96 to 127, the reference set 128 (log entry 18). -/
def postMeter (s : State) (stamp chan : Nat) (points : List (Nat × Word × Qual)) (counts : List (Nat × BitVec 64)) :
    State :=
  match meterCfg s with
  | some m => submit s stamp 65 chan (.meter ⟨chan, points.map fun e => (m.ptBase + e.1, e.2.1, e.2.2), counts⟩)
  | none => s

/-- A binary32 value as a point holds it. -/
def ptOfD (w : Word) : Word := (sOfD w).setWidth 64

/-- The integer part of an accumulator (R199). -/
def accInt (a : Nat) : BitVec 64 := BitVec.ofNat 64 (a / 2 ^ 32)

/-- The accumulator points of a channel at a latch. -/
def accPoints (c : Nat) (x : Chan) : List (Nat × Word × Qual) :=
  let (off, n) := if c < 32 then (16 * c + 10, 6) else (512 + 8 * (c - 32) + 4, 4)
  (List.range n).map fun i => (off + i, accInt (x.acc.toList.getD i 0), .good)

/-- The side a posting's point is taken from, in an agreed set: side A's when usable, else side B's when usable, else
side A's; a single unit takes its own (R203). -/
def takePosting (single : Bool) (l : List (Side × Word × Qual)) : Option (Side × Word × Qual) :=
  let last := fun (p : Side × Word × Qual → Bool) => (l.filter p).getLast?
  match last fun e => !e.1 && usable e.2.2 with
  | some e => some e
  | none =>
    match last fun e => e.1 && usable e.2.2 with
    | some e => some e
    | none =>
      match last fun e => !e.1 with
      | some e => some e
      | none => if single then l.getLast? else none

/-- A posting's point as the image takes it: an own posting of a channel retired meanwhile is RETIRED (R11, R192), and a
quantity of a feeder's cycle that ended before the filters restarted is BAD (R188). -/
def postedPoint (s : State) (m : MeterPost) (own : Bool) (stamp : Nat) (e : Nat × Word × Qual) : Word × Qual :=
  let quantity := decide (m.chan < 32 ∧ e.1 < ptBase s + 16 * m.chan + 10)
  let gone := if m.chan < 96 then decide (chanState s m.chan = .retired)
    else m.chan = 128 && rd s Reg.MTE_INSTS_MSTATE 192 = mstateCode .retired
  let old := match s.mte.restartNs with | some t => decide (stamp ≤ t) | none => false
  (e.2.1, if own && gone then .retired else if quantity && old then .bad else e.2.2)

/-- The postings of a set take effect: each point from the side chosen, both sides' pulse counts, and SRC (R203). -/
def meterSet (s : State) (l : List Input) : State :=
  let ms := l.filterMap fun i => match i.body with | .meter m => some (i.side, i.stamp, m) | _ => none
  let single := !paired s
  let own := ownSide s
  let all := ms.flatMap fun (sd, t, m) => m.points.map fun e =>
    (m.chan, e.1, sd, postedPoint s m (single || sd == own) t e)
  let s := ((all.map (·.2.1)).eraseDups).foldl (fun s p =>
    match takePosting single ((all.filter (·.2.1 = p)).map (·.2.2)) with
    | some (_, v, q) => produce s p v q
    | none => s) s
  let s := ms.foldl (fun s (sd, _, m) =>
    if m.chan < 96 then
      let (f, i) := chanField m.chan Reg.MTE_FSTS_SRC Reg.MTE_HSTS_SRC
      match takePosting single ((all.filter (·.1 = m.chan)).map (·.2.2)) with
      | some (x, _, _) => wrB s f x i
      | none => wrB s f sd i
    else s) s
  ms.foldl (fun s (sd, _, m) => m.counts.foldl (fun s (p, n) =>
    let x := pulseOf s p
    let other := ms.any fun e => e.1 = false && e.2.2.counts.any (·.1 = p)
    setPulse s p { (if sd then { x with agreedB := n } else { x with agreedA := n }) with src := !other }) s) s

/-- STALE (R204): a quantity point not refreshed for three cycles at FNOM, a thermal point for two steps, an accumulator
point for two nominal intervals, counted in ticks from the refresh in the image. -/
def stalePoint (s : State) (p limitNs : Nat) : State :=
  match tget s.csa.img p with
  | none => s
  | some v =>
    let age := ((BitVec.ofNat 32 s.tb.tick - v.tick).toNat) * tickNs s
    let fresh := match v.qual with | .good => true | .substituted => true | _ => false
    if limitNs < age && fresh then { s with csa := { s.csa with img := tput s.csa.img p { v with qual := .stale } } } else s

/-- Points `a` to `a + n − 1` under one limit. -/
def stalePoints (s : State) (a n limitNs : Nat) : State :=
  (List.range n).foldl (fun s i => stalePoint s (a + i) limitNs) s

/-- Stale metering points at a tick edge. -/
def staleMeter (s : State) : State :=
  match meterCfg s with
  | none => s
  | some m =>
    let s := m.feeders.zipIdx.foldl (fun s (x, f) =>
      if 0 < x.fnom then
        let cyc := 10 ^ 9 / x.fnom
        stalePoints (stalePoints s (m.ptBase + 16 * f) 10 (3 * cyc)) (m.ptBase + 16 * f + 10) 6 (2 * x.n * cyc)
      else s) s
    let s := if 0 < refFeeder.fnom then stalePoints s (m.ptBase + 1088) 10 (3 * (10 ^ 9 / refFeeder.fnom)) else s
    m.therms.zipIdx.foldl (fun s (x, h) =>
      let st := x.step * tickNs s
      stalePoints (stalePoints s (m.ptBase + 512 + 8 * h) 4 (2 * st)) (m.ptBase + 512 + 8 * h + 4) 4 (2 * x.hlatch * st)) s

/-- QUAL of a channel that meters: the worst quality of its accumulator points (Table 8.19). -/
def showChannel (s : State) (c : Nat) : State :=
  let (off, n) := if c < 32 then (16 * c + 10, 6) else (512 + 8 * (c - 32) + 4, 4)
  let q := (List.range n).foldl (fun q i =>
    worse q ((tget s.csa.img (ptBase s + off + i)).getD freshPoint).qual) Qual.good
  let (f, i) := chanField c Reg.MTE_FSTS_QUAL Reg.MTE_HSTS_QUAL
  if chanState s c = .inService then wr s f (qualCode q) i else s

/-! ### Latch records (R200 to R202, R209) -/

/-- The bytes of a latch record (Table 8.6). -/
def latchBytes (r : LatchRec) : List Byte :=
  let b := leBytes 4 (r.chan + if r.thermal then 256 else 0) ++ leBytes 4 r.seq.toNat ++ leBytes 8 r.start
    ++ leBytes 8 r.fin ++ leBytes 2 r.count ++ leBytes 2 r.flags.toNat ++ leBytes 1 r.calgen.toNat
    ++ leBytes 1 r.sideCode.toNat ++ leBytes 2 r.failCyc
    ++ (List.range 6).flatMap (fun i => leBytes 8 (r.acc.getD i 0).toNat) ++ leBytes 4 r.pmax.toNat
    ++ leBytes 4 r.opsec.toNat ++ leBytes 4 r.pcc.toNat ++ List.replicate 32 0
  b ++ leBytes 4 (crc32 b).toNat

/-- Writes a decided latch record to the host ring, raising its vector; a full ring counts LRDROP (R202). -/
def ringLatch (s : State) (r : LatchRec) : State :=
  let head := rd s Reg.MTE_LRHEAD_HEAD
  let size := 2 ^ rd s Reg.MTE_LRCFG_LRLOG
  if size ≤ (head + 2 ^ 32 - rd s Reg.MTE_LRREAD_READ) % 2 ^ 32 then bump s Reg.MTE_LRDROP_LRDROP
  else
    let base := rd64 s Reg.MTE_LRBASE_LO_BASE Reg.MTE_LRBASE_HI_BASE
    let s := emit s (.hostWrite (base + 128 * (head % size)) (latchBytes r))
    msix (wr s Reg.MTE_LRHEAD_HEAD (head + 1)) (rd s Reg.MTE_LRCFG_VEC)

/-- A decided latch record: while the host interface is stopped in SAVE or the ring is disabled it waits in the staging
queue of 256 (R202, R286). -/
def writeLatch (s : State) (r : LatchRec) : State :=
  if modeIs s = .save || !rdB s Reg.MTE_LRCFG_EN then
    if s.mte.staging.length < 256 then { s with mte := { s.mte with staging := s.mte.staging ++ [r] } }
    else bump s Reg.MTE_LRDROP_LRDROP
  else ringLatch s r

/-- Writes the staged records once the ring runs again. -/
def flushLatch (s : State) : State :=
  if modeIs s = .save || !rdB s Reg.MTE_LRCFG_EN then s
  else
    let l := s.mte.staging
    l.foldl ringLatch { s with mte := { s.mte with staging := [] } }

/-- The channel index of a latch record in `MTE_LATCH`. -/
def recChan (r : LatchRec) : Nat := r.chan + if r.thermal then 32 else 0

/-- A record whose comparison is decided: its flags, the latest-record view, the run of PAIRDIFF intervals with its
METER_DIVERGE events, and the ring (R202, R209). -/
def decideLatch (s : State) (r : LatchRec) (bits : Nat) : State :=
  let c := recChan r
  let r := { r with flags := r.flags ||| BitVec.ofNat 16 bits }
  let x := chanOf s c
  let x := match x.latch with
    | some l => if l.seq = r.seq then { x with latch := some r } else x
    | none => x
  let diff := bits = flPairdiff
  let run := x.diffRun
  let s := setChan s c { x with diffRun := if diff then run + 1 else 0 }
  let s := if diff then (if run = 0 then event s Ev.meterDiverge .warning [] else s)
    else if run = 0 then s else event s Ev.meterDiverge .warning [run]
  writeLatch s r

/-- A pair of records passes (R209): a thermal channel with equal deltas; a feeder within TOLREL of the larger and
TOLABS, for ACC0 and ACC1. Where the partner's delta is not known, its record before not being the one before, the
answer is free (log entry 18). -/
def pairPasses (s : State) (thermal : Bool) (a b : Option (List Nat)) : Bool × State :=
  match a, b with
  | some a, some b =>
    (if thermal then a = b
    else (List.range 2).all fun i =>
      let x := a.getD i 0
      let y := b.getD i 0
      decide ((max x y - min x y) * 10 ^ 6 ≤ rd s Reg.MTE_PAIRCFG_TOLREL * max x y
        + rd s Reg.MTE_PAIRCFG_TOLABS * 1000 * 10 ^ 6), s)
  | _, _ => (freeBool s.free, { s with free := s.free + 1 })

/-- Two records form a pair: one channel, END less than 2 ms apart. -/
def formPair (a b : LatchRec) : Bool :=
  a.thermal = b.thermal && a.chan = b.chan && decide (max a.fin b.fin - min a.fin b.fin < 2000000)

/-- A new record of this unit: with no partner it is decided at once; else it meets the partner's record or waits. -/
def offerLatch (s : State) (w : LatchWait) : State :=
  let s := if paired s then emit s (.latchRec w.record) else s
  if !rdB s Reg.RDU_CFG_PAIRED then decideLatch s w.record 0
  else
    match s.mte.partner.find? fun o => formPair o.record w.record with
    | some o =>
      let s := { s with mte := { s.mte with partner := s.mte.partner.erase o } }
      let (ok, s) := pairPasses s w.record.thermal w.deltas o.deltas
      decideLatch s w.record (if ok then 0 else flPairdiff)
    | none => { s with mte := { s.mte with waiting := s.mte.waiting ++ [w] } }

/-! ### Intervals (R200, R201) -/

/-- Opens an interval at a boundary, with the marks it carries. -/
def openInterval (s : State) (c start bits : Nat) : State :=
  let x := chanOf s c
  let bits := bits ||| (if x.restored then flRestored else 0) ||| (if x.gapAfter then flGapafter else 0)
  let (f, i) := chanField c Reg.MTE_FSTS_FLAGS Reg.MTE_HSTS_FLAGS
  let s := setChan s c { x with open_ := some ⟨start, 0, 0, 0, false, false, x.acc⟩, restored := false, gapAfter := false }
  wr s f bits i

/-- The calibration sets that await a feeder's latch take effect (R201, R224): the record is written with CALGEN
incremented; the Boolean says whether any did. -/
def calSwitch (s : State) (c : Nat) : State × Bool :=
  let mine := s.mte.shadowPend.filter fun i => i / 6 = c ∧ i < 192
  if c < 32 ∧ !mine.isEmpty then
    let act := mine.foldl (fun t i => match tget s.mte.shadow i with | some v => tput t i v | none => t) s.mte.active
    let s := { s with mte := { s.mte with active := act, shadowPend := s.mte.shadowPend.filter (!mine.contains ·) } }
    let s := wr s Reg.MTE_FSTS_CALGEN ((rd s Reg.MTE_FSTS_CALGEN c + 1) % 256) c
    let s := if s.mte.calWait = some c then
      wr { s with mte := { s.mte with calWait := none } } Reg.MTE_CALSTS_STAGE 0 else s
    (nvsSave s 3 (calRecord s []) .none, true)
  else (s, false)

/-- The end of a calibration run. -/
def calEnd (s : State) (code rsn : Nat) : State :=
  wr (setStatus { s with mte := { s.mte with cal := none } } Reg.MTE_CALSTS_CC Reg.MTE_CALSTS_RSN Reg.MTE_CALSTS_PEND
    code rsn) Reg.MTE_CALSTS_STAGE 0

/-- A write of the calibration partition that a run or a WRITE asked for has started. -/
def calWriting (s : State) : Bool := (s.nvs.cur.toList ++ s.nvs.susp).any (·.who = .cal)

/-- A run ends before its write has started: the write, when queued, is withdrawn (R225). -/
def calDrop (s : State) (code rsn : Nat) : State :=
  calEnd (setQueue s (s.nvs.queue.filter fun q => q.who ≠ .cal)) code rsn

/-- A run on a feeder ends, when its write has not started (Table 9.4). -/
def calStop (s : State) (hit : Fin 32 → Bool) (code rsn : Nat) : State :=
  match s.mte.cal with
  | some r => if hit r.feeder && !calWriting s then calDrop s code rsn else s
  | none => s

/-- An input stuck or clipped spoils the window of a run that uses it (R221). -/
def calHit (s : State) (i : Nat) : State :=
  match s.mte.cal with
  | some r => if i / 6 = r.feeder.val ∨ i / 6 = 32 then { s with mte := { s.mte with cal := some { r with hit := true } } } else s
  | none => s

/-- A line cycle of the feeder of a run counts in its window, which begins at the first boundary after START and then at
the end of the one before (R221). -/
def calCycle (s : State) (f a fin : Nat) : State :=
  match s.mte.cal with
  | some r =>
    if f = r.feeder.val ∧ r.since ≤ a then
      { s with mte := { s.mte with cal := some { r with
          cycles := r.cycles + 1, since := if r.cycles = 0 then a else r.since, fin := fin
          freq := dDiv (dInt (10 ^ 9)) (dInt (fin - a : Nat)) } } }
    else s
  | none => s

/-- A run collects a sample of its feeder, the stage-3 outputs, which lack the one period of stage 4, or of the reference
set, its corrected outputs (R221). -/
def calSample (s : State) (f : Nat) (x : Sample) : State :=
  match s.mte.cal with
  | some r =>
    if f = r.feeder.val then
      { s with mte := { s.mte with cal := some { r with xs := r.xs ++ [(x.at_ + samplePeriod, x.x)] } } }
    else if f = 32 then
      { s with mte := { s.mte with cal := some { r with
          rs := r.rs ++ [(x.at_, #v[x.v[0], x.v[1], x.v[2], x.i[0], x.i[1], x.i[2]])] } } }
    else s
  | none => s

/-- The configuration a channel takes at a latch or at its first boundary (R201); the Boolean says whether it meters. A
feeder that stops ends its signal path's cycles with it. -/
def takeCfg (s : State) (c : Nat) : State × Bool :=
  let x := chanOf s c
  if c < 32 then
    let n := feederCfg s c
    let on := match n with | some n => n.en | none => false
    let s := if x.cfgChg then calStop s (fun f => f.val = c) CC.failCancelled Rsn.configChange else s
    let s := if on then s else setFeed s c (stoppedFeed (feedOf s c))
    (setChanState (setChan s c { x with fcfg := if on then n else none, cfgChg := false }) c
      (if on then .inService else .offline), on)
  else
    let n := thermCfg s (c - 32)
    let on := match n with | some n => n.en | none => false
    let tab := match n, meterCfg s with
      | some n, some m => if n.table = 0 then [] else (m.tables.drop (181 * (n.table - 1))).take 181
      | _, _ => []
    (setChanState (setChan s c { x with tcfg := if on then n else none, ttab := tab, cfgChg := false }) c
      (if on then .inService else .offline), on)

/-- Closes the open interval of a channel at a boundary (R200): record, SEQ, posting, comparison. -/
def closeInterval (s : State) (c fin bits : Nat) : State :=
  let x := chanOf s c
  match x.open_ with
  | none => s
  | some iv =>
    let (ff, i) := chanField c Reg.MTE_FSTS_FLAGS Reg.MTE_HSTS_FLAGS
    let bits := rd s ff i ||| bits ||| (if iv.pos && iv.neg then flBidir else 0)
    let (cg, _) := chanField c Reg.MTE_FSTS_CALGEN Reg.MTE_HSTS_CALGEN
    let r : LatchRec := {
      thermal := decide (32 ≤ c), chan := c % 32 + (if 64 ≤ c then 32 else 0), seq := x.seq + 1, start := iv.start,
      fin := fin, count := iv.count, flags := BitVec.ofNat 16 bits, calgen := BitVec.ofNat 8 (rd s cg i),
      sideCode := if paired s then (if ownSide s then 1 else 0) else 2, failCyc := min iv.failCyc 65535,
      acc := x.acc.toList.map accInt, pmax := sOfD iv.pmax, opsec := BitVec.ofNat 32 (rd s Reg.EVR_OPSEC_OPSEC),
      pcc := BitVec.ofNat 24 (rd s Reg.EVR_PCC_PCC) }
    let d := (List.range 6).map fun j =>
      (accInt (x.acc.toList.getD j 0) - accInt (iv.base.toList.getD j 0)).toNat
    let s := setChan s c { x with seq := x.seq + 1, latch := some r, open_ := none, pmaxBeat := r.pmax }
    let s := wr s ff 0 i
    let s := offerLatch s ⟨r, some d⟩
    postMeter s s.tb.now c (accPoints c (chanOf s c)) []

/-- A latch (R200, R201): the interval closes, new coefficient sets and a new configuration take effect, and the next
interval starts at once unless the channel stops. -/
def latchChan (s : State) (c fin bits : Nat) : State :=
  let s := closeInterval s c fin bits
  let (s, cal) := calSwitch s c
  let chg := (chanOf s c).cfgChg
  let (s, on) := takeCfg s c
  if on then openInterval s c fin ((if cal then flCalchg else 0) ||| (if chg then flCfgchg else 0)) else s

/-! ### Line cycles (R193 to R195, R199) -/

/-- The sum of the three phases. -/
def sum3 (v : Vector Word 3) : Word := dAdd (dAdd v[0] v[1]) v[2]

/-- An energy or volume in units of 2^−32, nearest, ties away from zero as the filter chain rounds and as Table 8.11
works out (R199). A NaN or an infinity, which no measured cycle gives, counts nothing. -/
def accUnits (w : Word) : Nat := (dMagAway w 32).getD 0

/-- Adds to an accumulator of 96 bits. -/
def accAdd (a : Vector Nat 6) (i : Fin 6) (n : Nat) : Vector Nat 6 := a.set i ((a[i] + n) % 2 ^ 96)

/-- Adds the energy of a feeder's cycle (Table 8.5), e in µWh as binary64: power in W × duration in ns ÷ 3.6 × 10^6. -/
def feederEnergy (a : Vector Nat 6) (p q : Word) (durNs : Nat) : Vector Nat 6 :=
  let e := fun w => accUnits (dDiv (dMul w (dInt durNs)) (dInt 3600000))
  let a := accAdd a (if dIsNeg p then 1 else 0) (e p)
  let quad : Fin 6 := if dIsNeg q then (if dIsNeg p then 4 else 5) else if dIsNeg p then 3 else 2
  accAdd a quad (e q)

/-- The input numbers of a feeder, or of the reference set as 32 (Table 8.1). -/
def inputsOf (f : Nat) : List Nat := (List.range 6).map fun j => 6 * f + j

/-- The quantity points of a cycle (Table 8.4): VRMS, IRMS, P, Q, S, FREQ; one that uses an input in `hit` is BAD
(R204): P, Q and S use all six, FREQ the reference phase's voltage. -/
def cyclePoints (off f : Nat) (ref : Fin 3) (hit : List Nat) (o : CycleQ) (durNs : Nat) (q : Qual) :
    List (Nat × Word × Qual) :=
  let v := o.vms.map dSqrt
  let i := o.ims.map dSqrt
  let sp := (List.finRange 3).map fun k => dMul v[k] i[k]
  let one := fun (n : Nat) => if hit.contains (6 * f + n) then Qual.bad else q
  let all := if (inputsOf f).any hit.contains then Qual.bad else q
  let qs := (List.range 6).map one ++ [all, all, all, one ref.val]
  let l := v.toList ++ i.toList ++ [sum3 o.p, sum3 o.q, sp.foldl dAdd 0, dDiv (dInt (10 ^ 9)) (dInt durNs)]
  (l.zip qs).zipIdx.map fun ((w, q), k) => (off + k, ptOfD w, q)

/-- An input is stuck now. -/
def isStuck (s : State) (i : Nat) : Bool := rdB s Reg.MTE_INSTS_STUCK i

/-- The configuration by which a feeder's samples are taken: that in force in its channel, else the facet's; the
reference set's is free (log entry 76). -/
def feedCfg (s : State) (f : Nat) : Option FeederCfg :=
  if f = 32 then some { refFeeder with dcBlk := false } else (chanOf s f).fcfg <|> feederCfg s f

/-- The coefficient set in use of an input; one never written is GAIN 1.0, OFFSET 0, PHASE 0 (log entry 3). -/
def inputCoef (s : State) (i : Nat) : CoefSet := (tget s.mte.active i).getD ⟨0x40000000, 0, 0⟩

/-- The bits of a feeder's inputs through their chains: its new samples, the path with the chains as they stand and the
inputs that clipped, of those not stuck (R189, R191); a stuck reference phase shows no crossing. -/
def takeBits (s : State) (f : Nat) (g : FeederCfg) (o : CycleObs) : FeedSt × List Sample :=
  let st := feedOf s f
  let div := rd s Reg.MTE_MODCFG_DIV
  let runs : Vector (ChainSt × List (Int × Int × Bool)) 6 := Vector.ofFn fun j =>
    chainRun div g.dcBlk (inputCoef s (6 * f + j.val)) st.chains[j] o.bits[j]
  let (past, l) := feedSamples st.past o.endNs (!isStuck s (6 * f + (refPhase g).val)) (runs.map (·.2))
  let clip := (List.finRange 6).filterMap fun j =>
    if runs[j].2.any (·.2.2) && !isStuck s (6 * f + j.val) then some (6 * f + j.val) else none
  ({ st with chains := runs.map (·.1), past := past, clip := st.clip ++ clip }, l)

/-- Inputs deliver samples: QUAL GOOD unless stuck or retired, S_CLIP where one clipped (R191, Table 8.18). -/
def sampleInputs (s : State) (f : Nat) (clip : List Nat) : State :=
  (inputsOf f).foldl (fun s i =>
    let s := if isStuck s i || rd s Reg.MTE_INSTS_MSTATE i = mstateCode .retired then s
      else wr s Reg.MTE_INSTS_QUAL 0 i
    if clip.contains i then calHit (wr s Reg.MTE_INSTS_S_CLIP 1 i) i else s) s

/-- What a cycle shows, with its quality: its own quantities, or those of the cycle before when it is substituted
(R195). -/
def cycleShown (st : FeedSt) (o : CycleQ) : CycleQ × Qual :=
  if st.subst then (match st.prev with | some p => (p, .substituted) | none => (o, .bad)) else (o, .good)

/-- A cycle is measured: by itself, or by substitution from one before, and no input of it was stuck (R195). -/
def cycleMeasured (st : FeedSt) (stuck : Bool) : Bool := !stuck && (!st.subst || st.prev.isSome)

/-- The last measured cycle of a path, from which the next may be substituted. -/
def keepCycle (s : State) (f : Nat) (st : FeedSt) (o : CycleQ) (stuck : Bool) : State :=
  if cycleMeasured st stuck && !st.subst then setFeed s f { feedOf s f with prev := some o } else s

/-- The billing part of a feeder's cycle that ends at `fin` (R195, R199, R200); a substituted one takes the powers of the
cycle before over its own duration. -/
def billCycle (s : State) (f fin : Nat) (st : FeedSt) (o : CycleQ) (stuck : Bool) : State :=
  let x := chanOf s f
  match x.open_, x.fcfg with
  | some iv, some g =>
    let measured := cycleMeasured st stuck
    let src := (cycleShown st o).1
    let p := sum3 src.p
    let q := sum3 src.q
    let acc := if measured then feederEnergy x.acc p q o.durNs else x.acc
    let iv := { iv with
      count := iv.count + 1
      failCyc := iv.failCyc + (if measured then 0 else 1)
      pmax := if measured then dMax iv.pmax (dAbs p) else iv.pmax
      pos := iv.pos || (measured && !dIsNeg p)
      neg := iv.neg || (measured && dIsNeg p) }
    let s := setChan s f { x with acc := acc, open_ := some iv }
    let s := addFlags s f ((if measured then 0 else flInfail) + (if st.subst && !stuck then flSubcyc else 0)
      + (if st.novolt then flNovolt else 0) + (if st.clip.isEmpty then 0 else flClipped))
    if g.n ≤ iv.count then latchChan s f fin 0 else s
  | _, _ =>
    let (s, on) := takeCfg s f
    if on then openInterval s f fin 0 else s

/-- The quantities of a cycle are posted (R203, R204): a feeder's, or the reference set's. -/
def postCycle (s : State) (f : Nat) (g : FeederCfg) (st : FeedSt) (o : CycleQ) (hit : List Nat) : State :=
  let (chan, off) := if f = 32 then (128, 1088) else (f, 16 * f)
  let (obs, q) := cycleShown st o
  postMeter s s.tb.now chan (cyclePoints off f (refPhase g) hit obs o.durNs q) []

/-- A feeder meters: it is enabled, or an interval is open. -/
def feedsOn (s : State) (f : Nat) : Bool :=
  decide (f = 32) || (match feederCfg s f with | some g => g.en | none => false) || (chanOf s f).open_.isSome

/-- What a boundary at `fin` ends (R193, R194): the cycle since the boundary before, at the instant its last sample is
complete, its quantities posted and, for a feeder, billed; the first boundary of a path ends none. An input stuck now is
stuck in the next cycle too. -/
def endCycle (s : State) (f fin : Nat) (g : FeederCfg) (from_ : Option Nat) (st : FeedSt) : State :=
  let now := (inputsOf f).filter (isStuck s)
  let hit := st.hit ++ now
  let stuck := (inputsOf f).any hit.contains
  let s := setFeed s f { st with clip := [], hit := now, subst := false }
  match from_ with
  | none => if f = 32 ∨ (chanOf s f).open_.isSome then s else billCycle s f fin st default true
  | some a =>
    let o := cycleOf g st.hist a fin
    let s := keepCycle (postCycle s f g st o hit) f st o stuck
    if f = 32 then s else calCycle (billCycle s f fin st o stuck) f a fin

/-- NOVOLT of a feeder, with the interval's mark while one is open (R193). -/
def showNovolt (s : State) (f : Nat) (on : Bool) : State :=
  if f = 32 then s
  else
    let s := wrB s Reg.MTE_FSTS_NOVOLT on f
    if on && (chanOf s f).open_.isSome then addFlags s f flNovolt else s

/-- One sample of a feeder (R193). -/
def meterSample (f : Nat) (g : FeederCfg) (s : State) (x : Sample) : State :=
  let s := advance s (x.at_ + chainDelay)
  let st := feedOf s f
  let (st', fin) := feedSample g st x
  let s := calSample s f x
  let s := match fin with
    | some t => endCycle s f t g st.from_ st'
    | none => setFeed s f st'
  showNovolt (setFeed s f (trimHist (feedOf s f) x.at_)) f st'.novolt

/-- LINE_CYCLE_END (R189 to R194): the bits of a feeder's inputs up to the sample that shows the crossing; feeder 32
is the reference set (Table 8.9). -/
def execLineCycleEnd (f : Fin 33) (o : CycleObs) (s : State) : Host.Outcome State Fault Refusal :=
  .next (match feedCfg s f.val with
    | some g =>
      if metering s && chanState s f.val != .retired && feedsOn s f.val then
        let (st, l) := takeBits s f.val g o
        l.foldl (meterSample f.val g) (sampleInputs (setFeed s f.val st) f.val st.clip)
      else s
    | none => s)

/-- NOVOLT_TIMEOUT (R193): NOVOLT applies and the interval is marked; the cycles that follow are of fixed length. -/
def execNovoltTimeout (f : Fin 32) (s : State) : Host.Outcome State Fault Refusal :=
  .next (if metering s && (chanOf s f.val).open_.isSome then
    addFlags (wr s Reg.MTE_FSTS_NOVOLT 1 f.val) f.val flNovolt else s)

/-! ### Input faults and filter banks (R191, R192) -/

/-- INPUT_STUCK (R191): the cycle under way cannot use the input (R195), nor a calibration window. -/
def execInputStuck (i : Fin 198) (s : State) : Host.Outcome State Fault Refusal :=
  .next (if metering s && rd s Reg.MTE_INSTS_MSTATE i.val != mstateCode .retired then
    let st := feedOf s (i.val / 6)
    let s := calHit (setFeed s (i.val / 6) { st with hit := st.hit ++ [i.val] }) i.val
    wr (wr s Reg.MTE_INSTS_STUCK 1 i.val) Reg.MTE_INSTS_QUAL (qualCode .bad) i.val else s)

/-- INPUT_UNSTUCK (R191). -/
def execInputUnstuck (i : Fin 198) (s : State) : Host.Outcome State Fault Refusal :=
  .next (if metering s && rd s Reg.MTE_INSTS_MSTATE i.val != mstateCode .retired then
    wr (wr s Reg.MTE_INSTS_STUCK 0 i.val) Reg.MTE_INSTS_QUAL 0 i.val else s)

/-- The groups from `g` that one bank role covers: four, or group 24 alone. -/
def roleGroups (g : Nat) : List Nat := (List.range 4).filterMap fun k => if g + k ≤ 24 then some (g + k) else none

/-- Inputs of clock groups (R185). -/
def groupInputs (gs : List Nat) : List Nat := (List.range 198).filter fun i => gs.contains (i / 8)

/-- Feeders with an input in clock groups. -/
def groupFeeders (gs : List Nat) : List Nat := (List.range 32).filter fun f => (inputsOf f).any fun i => gs.contains (i / 8)

/-- The banks in service and the spare, as `MTE_STATUS` shows them; a spare that an upset made SUSPECT serves nothing.
-/
def showBanks (s : State) : State :=
  let count := fun m => ((List.range 8).filter fun b => rd s Reg.MTE_BANKSTS_MSTATE b = mstateCode m).length
  let spareOut := (s.ssu.windows.filter fun w => w.res.cls = .meter && w.prior = .spare).length
  wrB (wr s Reg.MTE_STATUS_BANKS (count .inService + count .suspect - spareOut)) Reg.MTE_STATUS_SPARE
    (decide (0 < count .spare))

/-- The signal paths, feeders and the reference set, with an input in clock groups. -/
def groupPaths (gs : List Nat) : List Nat := (List.range 33).filter fun f => (inputsOf f).any fun i => gs.contains (i / 8)

/-- The points of feeders and of the reference set whose inputs no bank serves read RETIRED, wherever they lie and
whatever refreshed the image (R11, R192). -/
def showRetired (s : State) : State :=
  let ret := fun (s : State) (a n : Nat) => (List.range n).foldl (fun s k =>
    let p := ptBase s + a + k
    let v := (tget s.csa.img p).getD freshPoint
    if v.qual = .retired then s else produce s p v.value .retired) s
  if (meterCfg s).isNone then s
  else
    let s := (List.range 32).foldl (fun s f => if chanState s f = .retired then ret s (16 * f) 16 else s) s
    if rd s Reg.MTE_INSTS_MSTATE 192 = mstateCode .retired then ret s 1088 10 else s

/-- Inputs that no bank serves any more: they read RETIRED, their feeders close PARTIAL and RETIRED and stop, and their
points go RETIRED (R192, R11). -/
def retireGroups (s : State) (gs : List Nat) : State :=
  let s := (groupInputs gs).foldl (fun s i =>
    wr (wr s Reg.MTE_INSTS_MSTATE (mstateCode .retired) i) Reg.MTE_INSTS_QUAL (qualCode .retired) i) s
  let s := (groupFeeders gs).foldl (fun s f =>
    let s := closeInterval s f s.tb.now (flPartial ||| flRetired)
    let s := setFeed s f (stoppedFeed (feedOf s f))
    wr (setChanState s f .retired) Reg.MTE_FSTS_QUAL (qualCode .retired) f) s
  wr (showRetired s) Reg.MTE_STATUS_QUAL (qualCode .retired)

/-- A bank that served groups is retired: a remaining spare takes them and the cycles under way are substituted, else their
inputs go RETIRED (R192). -/
def bankGone (s : State) (b : Fin 8) : State :=
  let g := rd s Reg.MTE_BANKSTS_GROUP b.val
  let gs := roleGroups g
  let s := calStop s (fun f => (groupFeeders gs).contains f.val || gs.contains 24) CC.failResourceRetired 0
  match (List.range 8).find? fun c => rd s Reg.MTE_BANKSTS_MSTATE c = mstateCode .spare with
  | some c =>
    let s := wr (wr s Reg.MTE_BANKSTS_MSTATE 0 c) Reg.MTE_BANKSTS_GROUP g c
    showBanks ((groupPaths gs).foldl (fun s f =>
      if (feedOf s f).from_.isSome then setFeed s f { feedOf s f with subst := true } else s) s)
  | none => showBanks (holdCause (retireGroups s gs) .meter)

/-- FILTER_BANK_FAULT (R192, R391): an upset; once retired, a remaining spare takes the bank's groups and the cycles
under way are substituted, else its inputs go RETIRED. -/
def bankFault (s : State) (b : Fin 8) : State :=
  let served := rd s Reg.MTE_BANKSTS_MSTATE b.val = mstateCode .inService
    ∨ (rd s Reg.MTE_BANKSTS_MSTATE b.val = mstateCode .suspect ∧
       !(s.ssu.windows.any fun w => w.res = ⟨.meter, b.val⟩ && w.prior = .spare))
  let (s, dead) := upset s ⟨.meter, b.val⟩ fun s => if served then bankGone s b else showBanks s
  if dead then s else showBanks s

/-- FILTER_BANK_FAULT. -/
def execFilterBankFault (b : Fin 8) (s : State) : Host.Outcome State Fault Refusal :=
  .next (if metering s then bankFault s b else s)

/-- Bank roles in RECALL (R192): the groups 4r to 4r + 3 go to the r-th bank not retired, the eighth is the spare, and
groups no bank is left for are retired. -/
def assignBanks (s : State) : State :=
  let live := (List.range 8).filter fun b => rd s Reg.MTE_BANKSTS_MSTATE b ≠ mstateCode .retired
  let s := live.zipIdx.foldl (fun s (b, r) =>
    if r < 7 then wr (wr s Reg.MTE_BANKSTS_MSTATE 0 b) Reg.MTE_BANKSTS_GROUP (4 * r) b
    else wr s Reg.MTE_BANKSTS_MSTATE (mstateCode .spare) b) s
  let s := (List.range 7).foldl (fun s r => if live.length ≤ r then retireGroups s (roleGroups (4 * r)) else s) s
  showBanks s

/-! ### Pulse inputs (R196) -/

/-- PULSE_EDGE (R196): a level held for DEB µs is accepted and its rising edge counts, a shorter one counts as a glitch;
between DEB and DEB + 2 µs the 1 MHz sampling leaves it open (a free value, log entry 18). -/
def execPulseEdge (p : Fin 32) (at_ held : Nat) (s : State) : Host.Outcome State Fault Refusal :=
  .next (match pulseCfg s p.val with
    | some g =>
      if g.en && metering s then
        let s := advance s at_
        let sure := (g.deb + 2) * 1000 ≤ held
        let (ok, s) := if held < g.deb * 1000 then (false, s)
          else if sure then (true, s)
          else (freeBool s.free, { s with free := s.free + 1 })
        if ok then
          let x := pulseOf s p.val
          setPulse s p.val { x with count := x.count + 1, lastEdge := some at_, newEdges := x.newEdges + 1 }
        else bump s Reg.MTE_INSTS_GLITCH p.val
      else s
    | none => s)

/-- The pulse publication of a tick edge (R196, R203): count and frequency of every enabled input. -/
def publishPulses (s : State) : State :=
  match meterCfg s with
  | none => s
  | some m => m.pulses.zipIdx.foldl (fun s (g, p) =>
      if g.en then
        let x := pulseOf s p
        let dt := s.tb.now - x.lastPub
        let quiet : Bool := match x.lastEdge with | some t => decide (10 ^ 9 ≤ s.tb.now - t) | none => true
        let f := if quiet ∨ dt = 0 then 0 else dDiv (dMul (dInt x.newEdges) (dInt (10 ^ 9))) (dInt dt)
        let s := setPulse s p { x with newEdges := 0, lastPub := s.tb.now }
        postMeter s s.tb.now (96 + p) [(1024 + 2 * p, x.count, .good), (1025 + 2 * p, ptOfD f, .good)] [(p, x.count)]
      else s) s

/-! ### Thermal channels (R197, R198) -/

/-- A point as binary64, by its type in the running program (Table 20.4); one the program does not list counts as FP32.
The Boolean says whether its quality is usable. -/
def pointReal (s : State) (img : Tbl PSlot) (p : Nat) : Word × Bool :=
  let v := (tget img p).getD freshPoint
  let w := v.value
  let x := match (pointDef s p).map (·.typ) with
    | some 0 => dInt (w.toNat % 2)
    | some 1 => dInt (w.setWidth 32).toInt
    | some 2 => dInt (w.toNat % 2 ^ 32)
    | some 3 => dInt w.toInt
    | some 4 => dInt w.toNat
    | some 5 => dInt (w.setWidth 32).toInt (-24)
    | some 7 => w
    | _ => dOfS (w.setWidth 32)
  (x, usable v.qual)

/-- A temperature of a step: the reading when usable and within 0 to 180 °C, else the last usable value for up to
HOLDMAX steps (R198). Gives the value, the new last value, the steps held, and whether the reading was used. -/
def holdTemp (r : Word × Bool) (last : Option Word) (held holdMax : Nat) : Option Word × Option Word × Nat × Bool :=
  if r.2 && dLe 0 r.1 && dLe r.1 (dInt 180) then (some r.1, some r.1, 0, true)
  else if held < holdMax then (last, last, held + 1, false)
  else (none, last, held, false)

/-- An entry of a property table at a whole temperature. -/
def propAt (tab : List (BitVec 32 × BitVec 32)) (fixed : Bool) (i : Nat) : BitVec 32 × BitVec 32 :=
  if fixed then waterTable i else tab.getD i (0, 0)

/-- Linear interpolation between the entries around a temperature (R197). -/
def interp (f : Nat → BitVec 32) (t : Word) : Word :=
  let i := ((dFloor t).getD 0).toNat
  if 180 ≤ i then dOfS (f 180)
  else
    let a := dOfS (f i)
    dAdd a (dMul (dSub t (dInt i)) (dSub (dOfS (f (i + 1))) a))

/-- The volume of a step in m³, when its flow is usable: from a pulse input the count difference × VPP litres, reversed
while the direction point reads 1; from a flow point m³/h × step time. -/
def stepVolume (s : State) (img : Tbl PSlot) (g : ThermCfg) (x : Chan) (stepNs : Nat) : Option (Word × Word) :=
  let hours := dDiv (dInt stepNs) (dInt 3600000000000)
  if g.fromPoint then
    let r := pointReal s img g.flowRef
    if r.2 then some (dMul r.1 hours, r.1) else none
  else
    let u := pulseOf s g.flowRef
    let d := match x.prevCount with
      | some (a, b) => if u.src then u.agreedB - b else u.agreedA - a
      | none => 0
    let rev := match g.dirPt with
      | some p => let r := pointReal s img p; r.2 && r.1 = dInt 1
      | none => false
    let v := dDiv (dMul (dInt d.toNat) g.vpp) (dInt 1000)
    let v := if rev then dNeg v else v
    some (v, dDiv v hours)

/-- The energy of a step in kJ (R197). -/
def stepEnergy (g : ThermCfg) (tab : List (BitVec 32 × BitVec 32)) (v ts tr : Word) : Word :=
  let tb := propAt tab (g.table = 0)
  let rho := interp (fun i => (tb i).1) (if g.flowReturn then tr else ts)
  let h := interp fun i => (tb i).2
  let e := dMul (dMul v rho) (dSub (h ts) (h tr))
  let e := if g.cool then dNeg e else e
  if dLt (dAbs (dSub ts tr)) (dOfS g.dtMin) then 0 else e

/-- A step of a thermal channel: energy and volume go to their accumulators, or ERRVOL and ERRSEC take what was not
measured; its points are posted; the interval latches after HLATCH steps. -/
def thermalStep (s : State) (img : Tbl PSlot) (h : Nat) (g : ThermCfg) (iv : Interval) : State :=
  let c := 32 + h
  let x := chanOf s c
  let ns := g.step * tickNs s
  let sec := dDiv (dInt ns) (dInt 1000000000)
  let (ts, tsL, tsH, tsOk) := holdTemp (pointReal s img g.tsPt) x.tsLast x.tsHeld g.holdMax
  let (tr, trL, trH, trOk) := holdTemp (pointReal s img g.trPt) x.trLast x.trHeld g.holdMax
  let vol := stepVolume s img g x ns
  let addErrSec := fun a => accAdd a 5 (accUnits sec)
  let addVol := fun (a : Vector Nat 6) v => accAdd a (if dIsNeg v then 3 else 2) (accUnits (dMul v (dInt 1000000)))
  let (acc, e, fail) := match vol, ts, tr with
    | none, _, _ => (addErrSec x.acc, none, false)
    | some (v, _), some ts, some tr =>
      let e := stepEnergy g x.ttab v ts tr
      let u := accUnits (dDiv (dMul e (dInt 1000000000)) (dInt 3600))
      (accAdd (addVol x.acc v) (if dIsNeg e then 1 else 0) u, some e, false)
    | some (v, _), _, _ =>
      (addErrSec (accAdd (addVol x.acc v) 4 (accUnits (dMul (dAbs v) (dInt 1000000)))), none, true)
  let pw := match e with | some e => dDiv (dMul e (dInt 1000)) sec | none => 0
  let iv := { iv with
    count := iv.count + 1, failCyc := iv.failCyc + (if fail then 1 else 0), pmax := dMax iv.pmax (dAbs pw)
    pos := iv.pos || (match e with | some e => !dIsNeg e | none => false)
    neg := iv.neg || (match e with | some e => dIsNeg e | none => false) }
  let u := pulseOf s g.flowRef
  let s := setChan s c { x with acc := acc, open_ := some iv, tsLast := tsL, trLast := trL, tsHeld := tsH, trHeld := trH,
                                prevCount := some (u.agreedA, u.agreedB) }
  let s := if !tsOk || !trOk then addFlags s c flInfail else s
  let q := fun (ok used : Bool) => if ok then (if used then Qual.good else Qual.substituted) else Qual.bad
  let b := 512 + 8 * h
  let s := postMeter s s.tb.now c
    [(b, ptOfD ((vol.map (·.2)).getD 0), q vol.isSome true), (b + 1, ptOfD (ts.getD 0), q ts.isSome tsOk),
     (b + 2, ptOfD (tr.getD 0), q tr.isSome trOk), (b + 3, ptOfD pw, q e.isSome (tsOk && trOk))] []
  if g.hlatch ≤ iv.count then latchChan s c s.tb.now 0 else s

/-- A thermal channel is due at an edge: its step boundary by the configuration in force. -/
def stepDue (g : ThermCfg) (k : Nat) : Bool := decide (0 < g.step) && decide ((k + g.step - g.hoff % g.step) % g.step = 0)

/-- The thermal steps of a tick edge (R197), on the image current there; a channel without an open interval opens one at
its first boundary. -/
def thermalSteps (s : State) (k : Nat) : State :=
  let img := seenImage s
  (List.range 64).foldl (fun s h =>
    let c := 32 + h
    let x := chanOf s c
    match x.open_, x.tcfg with
    | some iv, some g => if stepDue g k then thermalStep s img h g iv else s
    | _, _ =>
      match thermCfg s h with
      | some g =>
        if g.en && stepDue g k then
          let (s, _) := takeCfg s c
          let u := pulseOf s g.flowRef
          let s := setChan s c { chanOf s c with prevCount := some (u.agreedA, u.agreedB) }
          openInterval s c s.tb.now 0
        else s
      | none => s) s

/-- What metering does at a tick edge. -/
def meterEdge (s : State) (k : Nat) : State :=
  if metering s then (List.range 96).foldl showChannel (showRetired (staleMeter (publishPulses (thermalSteps s k)))) else s

/-! ### The facet (R188, R201) -/

/-- Metering fields restored from a facet (R188, R205, Table 8.15). -/
def meterFields (s : State) (m : MeterCfg) : State :=
  let s := wr (wr s Reg.MTE_MODCFG_DIV m.div) Reg.MTE_MODCFG_SAMPDLY m.sampDly
  wr (wr (wr s Reg.MTE_SAVECFG_PERIOD m.savePeriod) Reg.MTE_PAIRCFG_TOLREL m.tolRel) Reg.MTE_PAIRCFG_TOLABS m.tolAbs

/-- OFFLINE and IN_SERVICE of channels that meter nothing yet, and of inputs (Tables 8.18, 8.19). -/
def meterStates (s : State) : State :=
  let on := fun (s : State) (c : Nat) => if c < 32 then (match feederCfg s c with | some g => g.en | none => false)
    else (match thermCfg s (c - 32) with | some g => g.en | none => false)
  let s := (List.range 96).foldl (fun s c =>
    if chanState s c = .retired ∨ (chanOf s c).open_.isSome then s
    else setChanState s c (if on s c then .inService else .offline)) s
  (List.range 192).foldl (fun s i =>
    if rd s Reg.MTE_INSTS_MSTATE i = mstateCode .retired then s
    else wr s Reg.MTE_INSTS_MSTATE (mstateCode (if on s (i / 6) then .inService else .offline)) i) s

/-- A change of DIV or SAMPDLY restarts every filter (R188): open feeder intervals close PARTIAL and CFGCHG, and the
quantity points read BAD until a line cycle completes, but for those that are RETIRED. -/
def restartFilters (s : State) : State :=
  let s := { s with mte := { s.mte with feeds := [], restartNs := some s.tb.now } }
  (List.range 32).foldl (fun s f =>
    let s := closeInterval s f s.tb.now (flPartial ||| flCfgchg)
    if chanState s f = .retired then s else (List.range 10).foldl (fun s k =>
      match tget s.csa.img (ptBase s + 16 * f + k) with
      | some v => produce s (ptBase s + 16 * f + k) v.value .bad
      | none => s) s) s

/-- A facet swap as metering takes it (R201): a changed configuration waits for the channel's next latch. A swap in HALT
that changes DIV or SAMPDLY restarts the filters (R188): open feeder intervals close PARTIAL and CFGCHG, the quantity
points read BAD, and each feeder takes its configuration at its next boundary. -/
def meterFacet (old : Option Facet) (s : State) : State :=
  match s.fct.active with
  | none => s
  | some n =>
    let o := old.map (·.meter)
    let m := n.meter
    let restart := decide (rd s Reg.MTE_MODCFG_DIV ≠ m.div ∨ rd s Reg.MTE_MODCFG_SAMPDLY ≠ m.sampDly)
    let chg := fun c => if c < 32 then (o.bind fun o => o.feeders[c]?) != m.feeders[c]?
      else (o.bind fun o => o.therms[c - 32]?) != m.therms[c - 32]?
        || (match m.therms[c - 32]? with
            | some t => t.table ≠ 0 && (o.map (·.tables)) != some m.tables
            | none => false)
    let s := (List.range 96).foldl (fun s c =>
      let x := chanOf s c
      if x.open_.isSome && chg c then setChan s c { x with cfgChg := true } else s) s
    let s := meterFields s m
    showRetired (meterStates (if restart then restartFilters s else s))

/-! ### The pair comparison (R209) -/

/-- LATCH_RECORD_RX: the partner's record meets this unit's, or waits for it. -/
def execLatchRecordRx (r : LatchRec) (s : State) : Host.Outcome State Fault Refusal :=
  .next (if metering s then
    let c := recChan r
    let x := chanOf s c
    let d := (x.partnerAcc.filter fun a => a.1 + 1 = r.seq).map fun a =>
      (List.range 6).map fun i => (r.acc.getD i 0 - a.2.getD i 0).toNat
    let s := setChan s c { x with partnerAcc := some (r.seq, r.acc) }
    match s.mte.waiting.find? fun w => formPair w.record r with
    | some w =>
      let s := { s with mte := { s.mte with waiting := s.mte.waiting.erase w } }
      let (ok, s) := pairPasses s r.thermal w.deltas d
      decideLatch s w.record (if ok then 0 else flPairdiff)
    | none =>
      let keep := s.mte.partner.filter fun o => recChan o.record ≠ c
      { s with mte := { s.mte with partner := keep ++ [⟨r, d⟩] } }
  else s)

/-- PAIRMISS_TIMEOUT: no partner record came within 2 ms. PAIRMISS is set unless the partner is known not to meter, in
RECALL or TEST. -/
def execPairmissTimeout (c : Fin 96) (s : State) : Host.Outcome State Fault Refusal :=
  .next (match s.mte.waiting.find? fun w => recChan w.record = c.val with
    | some w =>
      let s := { s with mte := { s.mte with waiting := s.mte.waiting.erase w } }
      let m := modeOf (rd s Reg.RDU_STATUS_PMODE)
      let idle := paired s && (m = .recall || m = .test)
      decideLatch s w.record (if idle then 0 else flPairmiss)
    | none => s)

/-! ### Saves (R205 to R208) -/

/-- METER_PERIODIC_SAVE (R205, R210): skipped in SAVE. -/
def execMeterPeriodicSave (s : State) : Host.Outcome State Fault Refusal :=
  .next (if metering s && modeIs s ≠ .save then nvsSave s 4 (.meter (meterRec s 0)) (.meter 0) else s)

/-- The heartbeat record (R205): before the restore its channel fields hold the values last written. -/
def beatRec (s : State) : Beat :=
  let o := BitVec.ofNat 32 (rd s Reg.EVR_OPSEC_OPSEC)
  let p := BitVec.ofNat 24 (rd s Reg.EVR_PCC_PCC)
  let old := match recRead s 0x0031 with | some (.beat b) => (b.seqs, b.pmaxs) | _ => ([], [])
  if metering s && s.mte.chans.any (fun e => e.2.open_.isSome) then
    ⟨o, p, s.mte.chans.map fun e => (e.1, e.2.seq), s.mte.chans.map fun e => (e.1, e.2.pmaxBeat)⟩
  else ⟨o, p, old.1, old.2⟩

/-- BIST waves that test the NVS (Table 19.2). -/
def nvsWave : Nat := 0

/-- HEARTBEAT (R205): every second once recall has completed; one due while a wave tests the NVS waits for its end. -/
def heartbeat (s : State) : State :=
  if recalling s then s
  else if s.ssu.wave = some nvsWave then { s with mte := { s.mte with beatDue := true } }
  else nvsSave s 4 (.beat (beatRec s)) .beat

/-- HEARTBEAT. -/
def execHeartbeat (s : State) : Host.Outcome State Fault Refusal := .next (heartbeat s)

/-- The unbilled energy of a gap in Wh: PMAX in W × seconds ÷ 3,600, rounded up, saturating (R208). -/
def gapWh (pmax : BitVec 32) (secs : Nat) : Nat :=
  match fRead fmt32 pmax.toNat with
  | .fin _ m e =>
    let num := m * secs * 2 ^ e.toNat
    let den := 3600 * 2 ^ (-e).toNat
    min ((num + den - 1) / den) (2 ^ 32 - 1)
  | _ => 2 ^ 32 - 1

/-- The metering and heartbeat records as they stand; a record never written is one of kind PERIODIC at operating
second 0 (R338). -/
def meterFound (s : State) : MeterRec × Beat :=
  let m : MeterRec := match recRead s 0x0030 with | some (.meter m) => m | _ => ⟨0, 0, 0, [], [], [], 0⟩
  (m, match recRead s 0x0031 with | some (.beat b) => b | _ => ⟨m.opsec, m.pcc, m.seqs, []⟩)

/-- The restore after RECALL (R207, R208, R381): accumulators, SEQ, CALGEN, LRDROP, KIND, and METER_OUTAGE or the three
METER_GAP records. `resumed`: the power-cycle record as recall found it. -/
def meterRestore (s : State) (resumed : Bool) : State :=
  let (m, beat) := s.mte.found.getD (meterFound s)
  let s := { s with mte := { s.mte with found := none } }
  let gap := decide (m.kind = 0) || (resumed && decide (m.kind = 1))
  let s := wr (wr s Reg.MTE_SAVESTS_KIND m.kind) Reg.MTE_LRDROP_LRDROP m.waiting
  let s := (List.range 96).foldl (fun s c =>
    let sq := if gap then ((tget beat.seqs c).getD ((tget m.seqs c).getD 0)) + 256 else (tget m.seqs c).getD 0
    setChan s c { freshChan with
      acc := (tget m.accs c).getD (Vector.replicate 6 0), seq := sq, restored := !gap, gapAfter := gap,
      pmaxBeat := (tget beat.pmaxs c).getD 0 }) s
  let s := m.calgens.foldl (fun s e => wr s Reg.MTE_FSTS_CALGEN e.2 e.1) s
  if gap then
    let fin := beat.opsec.toNat + 1
    (List.range 3).foldl (fun s p => event s Ev.meterGap .warning
      ([m.opsec.toNat, fin, beat.pcc.toNat, p] ++ (List.range 32).map fun i =>
        gapWh ((tget beat.pmaxs (32 * p + i)).getD 0) (fin - m.opsec.toNat))) s
  else event s Ev.meterOutage .notice [m.opsec.toNat, m.pcc.toNat]

/-- Open intervals close PARTIAL on entry to TEST, where the modulator clocks stop (R186, R207). -/
def closeAll (s : State) : State :=
  (List.range 96).foldl (fun s c => closeInterval s c s.tb.now flPartial) { s with mte := { s.mte with feeds := [] } }

end Sys2Proof.Machine
end

