-- ==== Sys2Proof/Machine/Cal.lean ====
section
/-! DEFINITION. Live calibration (R221 to R226, 09_facets_and_live_calibration.md). -/

namespace Sys2Proof.Machine

/-- A reference input is stuck or RETIRED. -/
def refFault (s : State) : Bool :=
  (inputsOf 32).any fun i => rdB s Reg.MTE_INSTS_STUCK i || rd s Reg.MTE_INSTS_MSTATE i = mstateCode .retired

/-- A feeder's shadow sets await its latch (R224). -/
def shadowWaits (s : State) (f : Nat) : Bool := s.mte.shadowPend.any fun i => i / 6 = f && i < 192

/-- A refusal of START or WRITE, which leaves a pending run as it is. -/
def calRefuse (s : State) (rsn : Nat) : State :=
  wr (wr s Reg.MTE_CALSTS_CC CC.failRefused) Reg.MTE_CALSTS_RSN rsn

/-- One of the twelve inputs of a run is stuck as a window begins (R221). -/
def windowSpoilt (s : State) (f : Nat) : Bool := (inputsOf f ++ inputsOf 32).any (isStuck s)

/-- CAL_START (R221, R224, Table 9.4). -/
def calStart (s : State) : State :=
  let f := rd s Reg.MTE_CALCFG_FEEDER
  if rdB s Reg.MTE_CALSTS_PEND then calRefuse s Rsn.busy
  else match modeIs s with
    | .recall => calRefuse s Rsn.badMode
    | .test => calRefuse s Rsn.badMode
    | .save => calRefuse s Rsn.badMode
    | _ =>
      if !(match feederCfg s f with | some g => g.en | none => false) then calRefuse s Rsn.feederOff
      else if refFault s then calRefuse s Rsn.refFault
      else if shadowWaits s f then calRefuse s Rsn.shadowPending
      else
        let r : CalRun := ⟨⟨f % 32, by omega⟩, [], [], 0, 0, windowSpoilt s (f % 32), false, s.tb.now, s.tb.now, 0, [], []⟩
        let s := wr (wr s Reg.MTE_CALSTS_PEND 1) Reg.MTE_CALSTS_STAGE 1
        wr { s with mte := { s.mte with cal := some r, calWait := none } } Reg.MTE_CALSTS_WIN 0

/-- CAL_START. -/
def execCalStart (s : State) : Host.Outcome State Fault Refusal := .next (calStart s)

/-- CAL_ABORT (R225): before the NVS write starts the run ends FAIL_CANCELLED; after it, it completes. -/
def calAbort (s : State) : State :=
  match s.mte.cal with
  | none => s
  | some r =>
    if calWriting s then { s with mte := { s.mte with cal := some { r with lateAbort := true } } }
    else calDrop s CC.failCancelled 0

/-- CAL_ABORT. -/
def execCalAbort (s : State) : Host.Outcome State Fault Refusal := .next (calAbort s)

/-- CAL_WRITE (R226): only in HALT. It ends with the write of the partition, which commits the set. -/
def calWrite (s : State) : State :=
  let i := rd s Reg.MTE_CALWR2_INPUT
  if rdB s Reg.MTE_CALSTS_PEND then calRefuse s Rsn.busy
  else if modeIs s ≠ .halt then calRefuse s Rsn.badMode
  else if i < 192 && shadowWaits s (i / 6) then calRefuse s Rsn.shadowPending
  else
    let v : CoefSet := ⟨BitVec.ofNat 32 (rd s Reg.MTE_CALWR0_GAIN), BitVec.ofNat 32 (rd s Reg.MTE_CALWR1_OFFSET),
      BitVec.ofNat 16 (rd s Reg.MTE_CALWR2_PHASE)⟩
    let s := wr { s with mte := { s.mte with calPut := [(i, v)] } } Reg.MTE_CALSTS_PEND 1
    nvsSave s 3 (calRecord s (calSets s)) .cal

/-- CAL_WRITE. -/
def execCalWrite (s : State) : Host.Outcome State Fault Refusal := .next (calWrite s)

/-- 2π in binary64. -/
def dTwoPi : Word := 0x401921FB54442D18

/-! ### Windows (R221) -/

/-- The line cycles of a window have passed, and the reference set's samples reach its end. -/
def windowOver (s : State) (r : CalRun) : Bool :=
  decide (rd s Reg.MTE_CALCFG_W ≤ r.cycles)
    && (match r.rs.getLast? with | some e => decide (r.fin ≤ e.1 + samplePeriod) | none => false)

/-- The next window of a run begins where the last ended; the samples before it that a fractional delay needs stay. -/
def nextWindow (s : State) (r : CalRun) : CalRun :=
  let keep := fun (l : List (Nat × Vector Int 6)) => l.filter fun e => decide (r.fin ≤ e.1 + 5 * samplePeriod)
  { r with cycles := 0, hit := windowSpoilt s r.feeder.val, since := r.fin, xs := keep r.xs, rs := keep r.rs }

/-- The samples of one input in the window. -/
def inWindowOf (r : CalRun) (l : List (Nat × Int)) : List (Nat × Int) :=
  l.filter fun e => decide (r.since ≤ e.1 ∧ e.1 < r.fin)

/-- x and r of input `j` in the window. -/
def calX (r : CalRun) (j : Fin 6) : List (Nat × Int) := inWindowOf r (r.xs.map fun e => (e.1, e.2[j]))
def calR (r : CalRun) (j : Fin 6) : List (Nat × Int) := inWindowOf r (r.rs.map fun e => (e.1, e.2[j]))

/-- Mean and AC RMS of samples, of full scale: exact sums, then binary64 (log entry 76). -/
def meanOf (l : List (Nat × Int)) : Word := dDiv (dInt (l.foldl (fun a e => a + e.2) 0) (-31)) (dInt l.length)
def rmsAc (l : List (Nat × Int)) : Word :=
  let n : Int := l.length
  let sum := l.foldl (fun a e => a + e.2) 0
  let sq := l.foldl (fun a e => a + e.2 * e.2) 0
  dSqrt (dDiv (dInt (n * sq - sum * sum) (-62)) (dInt (n * n)))

/-- A window is discarded for an input with an AC RMS below 5 % of FS. -/
def calWeak (l : List (Nat × Int)) : Bool := !dLe (dDiv (dInt 5) (dInt 100)) (rmsAc l)

/-- A window is discarded: an input stuck or clipped, or too weak a signal. -/
def calBad (r : CalRun) : Bool := r.hit || (List.finRange 6).any fun j => calWeak (calX r j) || calWeak (calR r j)

/-- A discarded window; the third in a row ends the run. -/
def calDiscard (s : State) (r : CalRun) : State :=
  if r.discarded + 1 = 3 then calEnd s CC.failTransientExhausted Rsn.signalFault
  else { s with mte := { s.mte with cal := some { nextWindow s r with discarded := r.discarded + 1 } } }

/-- The DC block in force in a feeder is set (R201). -/
def dcBlk (s : State) (f : Nat) : Bool := match feedCfg s f with | some g => g.dcBlk | none => false

/-- Gain, offset and phase of a window for an input. -/
def calForm (s : State) (r : CalRun) (j : Fin 6) : Word × Word × Word :=
  let (x, y) := (calX r j, calR r j)
  let gain := dDiv (rmsAc y) (rmsAc x)
  let off := if dcBlk s r.feeder.val then dInt (inputCoef s (6 * r.feeder.val + j.val)).offset.toInt (-31)
    else dSub (meanOf x) (dDiv (meanOf y) gain)
  (gain, off, dDiv (dMul (dSub (dftArg r.freq x) (dftArg r.freq y)) (dInt 32000)) (dMul dTwoPi r.freq))

/-- Two windows agree for an input (R222). -/
def calClose (s : State) (freq : Word) (a b : Word × Word × Word) : Bool :=
  let ppm := fun n => dDiv (dInt n) (dInt 1000000)
  let g := dLe (dAbs (dSub b.1 a.1)) (dMul (ppm (rd s Reg.MTE_CALTOL_GTOL)) a.1)
  let ang := dDiv (dMul (dAbs (dSub b.2.2 a.2.2)) (dMul dTwoPi freq)) (dInt 32000)
  g && dLe ang (ppm (rd s Reg.MTE_CALTOL_PTOL))

/-- The candidate of an input: the mean of two windows, in the formats of Table 8.2, none outside their ranges. -/
def calCandidate (a b : Word × Word × Word) : Option CoefSet :=
  let mean := fun x y => dDiv (dAdd x y) (dInt 2)
  match dRound (mean a.1 b.1) 30, dRound (mean a.2.1 b.2.1) 31, dRound (mean a.2.2 b.2.2) 16 with
  | some g, some o, some p =>
    if 0 ≤ g ∧ g ≤ 2 ^ 31 ∧ -(2 ^ 31) ≤ o ∧ o < 2 ^ 31 ∧ -(2 ^ 15) ≤ p ∧ p < 2 ^ 15 then
      some ⟨BitVec.ofInt 32 g, BitVec.ofInt 32 o, BitVec.ofInt 16 p⟩
    else none
  | _, _, _ => none

/-- CAL_WINDOW_END (R221, R222). -/
def calWindow (s : State) : State :=
  match s.mte.cal with
  | none => s
  | some r =>
    if rd s Reg.MTE_CALSTS_STAGE ≠ 1 || !windowOver s r then s
    else if calBad r then calDiscard s r
    else
      let now := (List.finRange 6).map (calForm s r)
      let win := rd s Reg.MTE_CALSTS_WIN + 1
      let s := wr s Reg.MTE_CALSTS_WIN win
      let keep := fun (s : State) => { s with mte := { s.mte with cal := some { nextWindow s r with prev := now, discarded := 0 } } }
      if !r.prev.isEmpty && (r.prev.zip now).all fun (a, b) => calClose s r.freq a b then
        match (r.prev.zip now).mapM fun (a, b) => calCandidate a b with
        | none => calEnd s CC.failRefused Rsn.outOfRange
        | some c => wr { s with mte := { s.mte with cal := some { nextWindow s r with prev := now, cand := c, discarded := 0 } } }
            Reg.MTE_CALSTS_STAGE 2
      else if rd s Reg.MTE_CALCFG_WMAX ≤ win then calEnd s CC.failNumeric Rsn.noConverge
      else keep s

/-- CAL_WINDOW_END. -/
def execCalWindowEnd (s : State) : Host.Outcome State Fault Refusal := .next (if metering s then calWindow s else s)

/-! ### Verification (R223) -/

/-- The output of a second stage-4 path with a candidate, in the window. -/
def calPath (r : CalRun) (j : Fin 6) (k : CoefSet) : List (Nat × Int) :=
  inWindowOf r (r.xs.foldl (fun (c, l) e =>
    let (c, y) := chainCorrect k c e.2[j]
    (c, l ++ [(e.1 - samplePeriod, y)])) (freshChain, ([] : List (Nat × Int)))).2

/-- RMS error, phase error in radians and mean error of FS of an input's candidate against the reference. -/
def calErrors (r : CalRun) (j : Fin 6) : Word × Word × Word :=
  let y := calPath r j (r.cand.getD j.val default)
  let z := calR r j
  (dSub (dDiv (rmsAc y) (rmsAc z)) (dInt 1), dSub (dftArg r.freq y) (dftArg r.freq z), dSub (meanOf y) (meanOf z))

/-- A count of millionths. -/
def ppmOf (n : Nat) : Word := dDiv (dInt n) (dInt 1000000)

/-- The errors of an input lie within the acceptance. -/
def calAccepts (s : State) (r : CalRun) (e : Word × Word × Word) : Bool :=
  dLe (dAbs e.1) (ppmOf (rd s Reg.MTE_CALTOL_ACCG)) && dLe (dAbs e.2.1) (ppmOf (4 * rd s Reg.MTE_CALTOL_ACCP))
    && (dcBlk s r.feeder.val || dLe (dAbs e.2.2) (ppmOf 100))

/-- An error in millionths as a signed 16-bit result, saturating (Table 9.11). -/
def sat16 (e : Word) : Nat := patternOf 16 (satTo 16 ((dRound (dMul e (dInt 1000000)) 0).getD 0)).1

/-- CAL_VERIFY_END (R223). -/
def calVerify (s : State) : State :=
  match s.mte.cal with
  | none => s
  | some r =>
    if rd s Reg.MTE_CALSTS_STAGE ≠ 2 || !windowOver s r then s
    else if calBad r then calDiscard s r
    else
      let errs := (List.finRange 6).map (calErrors r)
      let s := errs.zipIdx.foldl (fun s (e, j) =>
        wr (wr s Reg.MTE_CALRES_GERR (sat16 e.1) j) Reg.MTE_CALRES_PERR (sat16 e.2.1) j) s
      if errs.all (calAccepts s r) then
        let s := wr s Reg.MTE_CALSTS_STAGE 3
        nvsSave s 3 (calRecord s (calSets s)) .cal
      else calEnd s CC.failNumeric Rsn.acceptFail

/-- CAL_VERIFY_END. -/
def execCalVerifyEnd (s : State) : Host.Outcome State Fault Refusal := .next (if metering s then calVerify s else s)

end Sys2Proof.Machine
end

