-- ==== Sys2Proof/Machine/LsvPart.lean ====
section
/-! DEFINITION. The parts of a partitioned solve (R183, R184 of 07; R330 to R332 of 14): a member's exchanges with its
coordinator, the coordinator's sums and tests, and the ends of both. What Table 14.2 does not carry and the coordinator or
a member would need is a free value (log entry 75). -/

namespace Sys2Proof.Machine

/-- A global quantity of which this unit knows a lower bound, its own share: a free value that is finite and no less
(log entry 75). -/
def atLeast (k : Nat) (w : Word) : Word :=
  let f := freeWord k
  if dFinite f && dLe w f then f else w

/-- The running job of the coordinator. -/
def coordJob (s : State) : Option Job :=
  match s.lsv.cjob with
  | some _ => runningJob s
  | none => none

/-- A contribution of member `m` to the present step is kept. -/
def contribute (s : State) (c : Coord) (m : Fin 8) (vals : List Word) : State :=
  { s with lsv := { s.lsv with cjob := some { c with got := c.got ++ [⟨m, vals⟩] } } }

/-- A coordinator's solve ends for every part with one code and reason, its own part included (R330, R332). -/
def endSolve (s : State) (code rsn : Nat) : State :=
  match s.lsv.cjob with
  | none => s
  | some c =>
    let s := sendParts { s with lsv := { s.lsv with cjob := none } } c.joined (.finish code rsn)
    match runningJob s with
    | some j => haltJob s j code rsn
    | none => s

/-! ### A member's part (R183) -/

/-- The coupling rows' Schur complement, as a lower triangle row by row (Table 14.2). -/
def schurOf (f : Factor) : List Word := f.rows.flatMap fun r => r.u.map (·.2)

/-- The frame that carries a contribution (Table 14.2). -/
def stepFrame (step : Nat) (vals : List Word) : CplFrame :=
  if step = 1 then .schur vals else if step = 2 ∨ step = 4 then .rhs vals else .step vals

/-- A part has its contribution to a step: a coordinator keeps it, another member sends it and waits (R183, R184). -/
def partSend (s : State) (j : Job) (step : Nat) (vals : List Word) : State :=
  let s := putJob s { j with cplStep := step, waitFrom := s.tb.now }
  match s.lsv.cjob with
  | some c => contribute s c 0 vals
  | none => sendPart s (myAddr s) (coordAddr s) (stepFrame step vals)

/-- A part that cannot go on keeps its failure until its outcome is reported. -/
def partFail (s : State) (j : Job) (e : JobEnd) : State := putJob s { j with failed := some e }

/-- The start of an iteration of a part: the values of its tests, its factorisation up to the coupling rows, and what
it sends of them (step 1 of Table 14.2). Whose iterate is of least merit only the coordinator knows, so a member's
choice is free. -/
def partRound (s : State) (j : Job) : State :=
  let red := jobRed j
  let w := qpFrom red j
  let v := qpView red j w
  let n := dN j.desc - xNcpl j.ext
  if !viewFinite v then partFail s j (qpOverflow w)
  else
    let phi := meritOf j.ext v.rp v.rdn v.rg
    let best := if s.lsv.cjob.isNone && (w.best.isNone || freeBool s.free) then some (phi, qpSol w) else w.best
    let s := { s with free := s.free + 1 }
    let w := { qpRecord w v.rp v.rdn v.mu phi v.obj v.dobj with best := best }
    match qpFactor red j n 5 w with
    | (_, _, true, w) => partFail s j (qpOverflow w)
    | (none, _, false, w) => partFail s j (qpEndWith w CC.failNumeric Rsn.nonconvex 0)
    | (some f, _, false, w) =>
      partSend s { j with kept := some w, part := some ⟨f, [], default, default, 0⟩ } 1
        (schurOf f ++ [vNorm v.rd, vNorm v.re, vNorm v.ri, v.comp, dInt v.mc, v.obj])

/-- A part's reduced right-hand side (steps 2 and 4): the forward elimination over its own rows. -/
def partReduce (s : State) (j : Job) (w : QpWork) (p : PartWork) (step : Nat) (b : List Word) : State :=
  let red := jobRed j
  let y := forward (solvePrec p.fac) (fun k => red (42 :: w.iters :: k)) p.fac.rows (p.fac.perm.map (vAt b))
  if !vFinite y then partFail s j (qpOverflow w)
  else partSend s { j with kept := some w, part := some { p with fwd := y } } step (y.drop (dN j.desc - xNcpl j.ext))

/-- A part's solution given the coupling direction (steps 3 and 5). -/
def partSolve (j : Job) (w : QpWork) (p : PartWork) (cpl : List Word) : List Word :=
  let red := jobRed j
  let n := dN j.desc - xNcpl j.ext
  let tail := (List.range (xNcpl j.ext)).map (vAt cpl)
  let x := backward (solvePrec p.fac) (fun k => red (43 :: w.iters :: k)) true p.fac.rows n p.fwd tail
  (positions p.fac.perm).map (vAt x)

/-- A part goes on with the coordinator's reply to the step it has reached (Table 14.2): 1 to the affine solve, 2 with
the coupling direction to its largest affine step, 3 with a_aff and σ to the corrector solve, 4 with the coupling
direction to its largest step, 5 with the step a to the next iteration. `mu` is the global mu. -/
def partReply (s : State) (j : Job) (mu : Word) (vals : List Word) : State :=
  match j.kept, j.part with
  | some w, some p =>
    let red := jobRed j
    let v := qpView red j w
    let none_ : SecondOrder := ⟨[], [], []⟩
    match j.cplStep with
    | 1 =>
      let w := { w with iters := w.iters + 1 }
      partReduce s j w p 2 (qpRhs red j w v 0 none_)
    | 2 =>
      let dir := qpDirection red j w 0 none_ (partSolve j w p vals)
      let a := dMin dOne (stepTo j.data w dir)
      let q := qpMove w a dir
      let c := compSum red j.data (dPrimal j.desc) (xMi j.ext) q.x q.s q.z q.zl q.zu
      if !dirFinite dir || !dFinite c then partFail s j (qpOverflow w)
      else partSend s { j with part := some { p with aff := dir } } 3 [a, c]
    | 3 =>
      let c := dMul (vAt vals 1) mu
      if !dFinite c then partFail s j (qpOverflow w)
      else partReduce s j w { p with sigma := c } 4 (qpRhs red j w v c (secondOf p.aff))
    | 4 =>
      let dir := qpDirection red j w p.sigma (secondOf p.aff) (partSolve j w p vals)
      if !dirFinite dir then partFail s j (qpOverflow w)
      else partSend s { j with part := some { p with dir := dir } } 5 [stepTo j.data w dir]
    | _ =>
      let w := qpTake w (vAt vals 0) p.dir
      if !vFinite (w.x ++ w.y ++ w.z ++ w.s ++ w.zl ++ w.zu) then partFail s j (qpOverflow w)
      else partRound s { j with kept := some w }
  | _, _ => s

/-! ### The coordinator (R330, R331) -/

/-- The contributions in ascending member number. -/
def inOrder (l : List PartMsg) : List (List Word) :=
  (List.finRange 8).filterMap fun m => (l.find? (·.member = m)).map (·.vals)

/-- The sum, the largest and the least of one value over the parts, in ascending member number. -/
def partSum (g : List (List Word)) (i : Nat) : Word :=
  match g.map (vAt · i) with
  | [] => 0
  | a :: l => l.foldl dAdd a
def partMax (g : List (List Word)) (i : Nat) : Word := g.foldl (fun a v => dMax a (vAt v i)) 0
def partMin (g : List (List Word)) (i : Nat) : Word := g.foldl (fun a v => dMin a (vAt v i)) dPosInf

/-- The summed Schur complement by its entries. -/
def coupling (n : Nat) (sum : List Word) : Entries :=
  (List.range n).flatMap fun i => (List.range (i + 1)).map fun j => (i, j, vAt sum (i * (i + 1) / 2 + j))

/-- The columns of a full factor. -/
def fullStructs (n : Nat) : List (List Nat) := (List.range n).map fun k => (List.range n).filter (k < ·)

/-- The coordinator's outcome: CPLEND to every part that joined, and its own end; the flops and cycles are free. -/
def endAll (s : State) (c : Coord) (j : Job) (e : JobEnd) : State :=
  let s := sendParts { s with lsv := { s.lsv with cjob := none } } c.joined (.finish e.code e.rsn)
  finishJob { s with free := s.free + 2 } j e ⟨s.tb.now, freeWord s.free, freeWord (s.free + 1)⟩

/-- The coordinator goes to the next step: its reply to the members, and to its own part. -/
def coordNext (s : State) (c : Coord) (j : Job) (vals : List Word) : State :=
  let mu := if c.mc = 0 then 0 else dDiv c.comp c.mc
  let s := sendParts { s with lsv := { s.lsv with cjob := some { c with step := c.step % 5 + 1, got := [] } } }
    c.joined (.reply vals)
  partReply (putJob s j) j mu vals

/-- Step 1 (R331): the tests of R168 and R169 on the global quantities, then the coupling matrix and its
factorisation. The norms of e, g and q and ‖A‖∞ over the other parts, and what the other parts' steps say of
infeasibility, no message carries: they are free (log entry 75), but no smaller than the own part's, whose own step must
pass the tests of R169. -/
def coordTests (s : State) (c : Coord) (j : Job) (w : QpWork) (g : List (List Word)) : State :=
  let red := jobRed j
  let o := j.data
  let n := c.ncpl
  let k := n * (n + 1) / 2
  let (comp, mc, obj) := (partSum g (k + 3), partSum g (k + 4), partSum g (k + 5))
  let mu := if mc = 0 then 0 else dDiv comp mc
  let rp := dDiv (dMax (partMax g (k + 1)) (partMax g (k + 2)))
    (dAdd dOne (atLeast s.free (dMax (vNorm o.evec) (vNorm o.gvec))))
  let rdn := dDiv (partMax g k) (dAdd dOne (atLeast (s.free + 1) (vNorm o.q)))
  let rg := dDiv mu (dAdd dOne (dAbs obj))
  let phi := meritOf j.ext rp rdn rg
  let pcert := w.dir.bind fun p =>
    let k := atLeast (s.free + 2) (vNorm (dualPart p))
    if freeBool s.free && primalHolds red j p k then
      some (List.replicate (dPrimal j.desc) 0 ++ scaled k (p.dy ++ p.dz))
    else none
  let dcert := w.dir.bind fun p =>
    let k := atLeast (s.free + 2) (vNorm p.dx)
    if freeBool (s.free + 1) && dualHolds red j p k then
      some (scaled k p.dx ++ List.replicate (xMe j.ext + xMi j.ext) 0)
    else none
  let anorm := atLeast (s.free + 3) (matNorm red true (dN j.desc) (kktMatrix red j w w.rho w.deltaD))
  let s := { s with free := s.free + 4 }
  if !vFinite [comp, mc, obj, mu, rp, rdn, rg, anorm] then partFail s j (qpOverflow w)
  else
    let w := { w with rp := rp, rd := rdn, mu := mu, phi := phi, pobj := obj
                      best := match w.best with
                        | some (b, x) => if dLt phi b then some (phi, qpSol w) else some (b, x)
                        | none => some (phi, qpSol w) }
    match qpTests j w pcert dcert with
    | some e => endAll s c j e
    | none =>
      let sum := (List.range k).map (partSum g)
      let r := ldl (dSingle j.desc) (fun i => red (44 :: w.iters :: i)) ⟨pivotDelta j.desc anorm, fun _ => some false⟩
        (List.range n) (coupling n sum) (fullStructs n) n
      let w := { w with pivreg := w.pivreg + r.reg, inertia := w.inertia + r.inertia
                        flags := w.flags ||| factFlags r.reg r.inertia }
      if r.ovf then partFail s j (qpOverflow w)
      else
        coordNext s { c with schur := sum, fac := some ⟨List.range n, true, dSingle j.desc, r.rows⟩, anorm := anorm,
                             comp := comp, mc := mc } { j with kept := some w } []

/-- Steps 2 and 4 (R331): a coupling solve, refined against the summed matrix. -/
def coordSolve (s : State) (c : Coord) (j : Job) (w : QpWork) (g : List (List Word)) : State :=
  let red := jobRed j
  let b := (List.range c.ncpl).map (partSum g)
  let r := refine (fun i => red (45 :: w.iters :: c.step :: i)) true (coupling c.ncpl c.schur)
    (c.fac.getD ⟨[], true, false, []⟩) c.anorm (dTol j.desc) (dCap j.desc) b
  let w := { w with refTotal := w.refTotal + r.steps, inexact := w.inexact + (if r.passed then 0 else 1)
                    flags := w.flags ||| (if r.cap then jfCap else 0) ||| (if r.stall then jfStall else 0) }
  if r.ovf then partFail s j (qpOverflow w) else coordNext s c { j with kept := some w } r.value

/-- The coordinator replies to a step when the contributions of every part are there (R331). -/
def coordReply (s : State) : State :=
  match s.lsv.cjob, runningJob s with
  | some c, some j =>
    match j.kept with
    | some w =>
      if c.open_ || j.failed.isSome || decide (c.got.length < c.joined.length + 1) then s
      else
        let g := inOrder c.got
        match c.step with
        | 1 => coordTests s c j w g
        | 3 =>
          let mu := if c.mc = 0 then 0 else dDiv c.comp c.mc
          let sigma := if c.mc = 0 then 0 else dCube (dDiv (dDiv (partSum g 1) c.mc) mu)
          coordNext s c j [partMin g 0, sigma]
        | 5 => coordNext s c j [dMin dOne (dMul (xTau j.ext) (partMin g 0))]
        | _ => coordSolve s c j w g
    | none => s
  | _, _ => s

/-- A cascade part starts (R183, R330): the part of M0 coordinates, and awaits the members of CSC_CJMASK; another part
joins its coordinator. Each begins its first iteration. -/
def partStart (s : State) (j : Job) : State :=
  if ownMember s = 0 then
    let mask := BitVec.ofNat 8 (rd s Reg.CSC_CJMASK_MASK) &&& 0xFE
    let c : Coord := ⟨xCjob j.ext, xNcpl j.ext, mask, [], mask != 0, 1, [], [], none, 0, 0, 0⟩
    let s := { s with lsv := { s.lsv with cjob := some c } }
    if mask = 0 then s else partRound s { j with waitFrom := s.tb.now }
  else partRound (sendPart s (myAddr s) (coordAddr s) (.join (xCjob j.ext) (xNcpl j.ext))) j

/-- JOB_START (R131): when no job runs, the next in the queue. -/
def execJobStart (o : JobOperands) (s : State) : Host.Outcome State Fault Refusal :=
  .next (if lsvRuns s && !s.lsv.held.any (·.running) then
      match nextJob s.lsv.held with
      | some j => startJob partStart s j o
      | none => s
    else s)

/-- Every member the coordinator awaits has joined. -/
def allJoined (c : Coord) : Bool :=
  (List.finRange 8).all fun m => !(decide (m ≠ 0) && c.awaited.getLsbD m.val) || c.joined.contains m

/-- PART_JOIN (R330): NO_CJOB outside the join wait of a solve of this side, CPL_MISMATCH for another NCPL. -/
def joinPart (s : State) (src : CAddr) (cjob : BitVec 32) (ncpl : Nat) : State :=
  match s.lsv.cjob with
  | none => sendPart s (myAddr s) src (.finish CC.failRefused Rsn.noCjob)
  | some c =>
    if c.cjob ≠ cjob ∨ src.side ≠ partSide s ∨ c.open_ = false then
      sendPart s (myAddr s) src (.finish CC.failRefused Rsn.noCjob)
    else
      let c := { c with joined := if c.joined.contains src.member then c.joined else c.joined ++ [src.member] }
      if c.ncpl ≠ ncpl then
        endSolve { s with lsv := { s.lsv with cjob := some c } } CC.failRefused Rsn.cplMismatch
      else coordReply { s with lsv := { s.lsv with cjob := some { c with open_ := !allJoined c } } }

/-- PART_JOIN. -/
def execPartJoin (n : Fin 4) (head : ChordHead) (src dst : CAddr) (cjob : BitVec 32) (ncpl : Nat) (s : State) :
    Host.Outcome State Fault Refusal :=
  .next (partFrame s n head src dst (.join cjob ncpl) fun s => joinPart s src cjob ncpl)

/-- JOIN_WAIT_EXPIRY (R330): the coordinator has waited its CPLWAIT and a member is missing. -/
def execJoinWaitExpiry (s : State) : Host.Outcome State Fault Refusal :=
  .next (match s.lsv.cjob, coordJob s with
    | some c, some j =>
      let stop := j.waitFrom + xCplWait j.ext * 1000
      let t := advance s stop
      if c.open_ && decide (stop ≤ t.tb.now) then endSolve t CC.failPeerUnreachable Rsn.memberLost else s
    | _, _ => s)

/-- A member's contribution reaches the coordinator in one of the steps it belongs to. -/
def partMsg (s : State) (steps : List Nat) (member : Fin 8) (vals : List Word) : State :=
  match s.lsv.cjob with
  | none => s
  | some c =>
    if !c.joined.contains member || !steps.contains c.step || c.got.any (·.member = member) then s
    else coordReply (contribute s c member vals)

/-- SCHUR (R331). -/
def execSchur (n : Fin 4) (head : ChordHead) (src dst : CAddr) (vals : List Word) (s : State) :
    Host.Outcome State Fault Refusal :=
  .next (partFrame s n head src dst (.schur vals) fun s => partMsg s [1] src.member vals)

/-- CPLRHS (R331). -/
def execCplrhs (n : Fin 4) (head : ChordHead) (src dst : CAddr) (vals : List Word) (s : State) :
    Host.Outcome State Fault Refusal :=
  .next (partFrame s n head src dst (.rhs vals) fun s => partMsg s [2, 4] src.member vals)

/-- CPLSTEP (R331). -/
def execCplstep (n : Fin 4) (head : ChordHead) (src dst : CAddr) (vals : List Word) (s : State) :
    Host.Outcome State Fault Refusal :=
  .next (partFrame s n head src dst (.step vals) fun s => partMsg s [3, 5] src.member vals)

/-- The running part of a member that awaits its coordinator. -/
def memberPart (s : State) : Option Job :=
  match s.lsv.cjob, runningJob s with
  | none, some j => if isQp j.desc && xMember j.ext && j.failed.isNone then some j else none
  | _, _ => none

/-- A member goes on with its coordinator's reply (R331). The global mu, which no reply carries, is a free value to it
(log entry 75). -/
def takeReply (s : State) (vals : List Word) : State :=
  match memberPart s with
  | some j => partReply { s with free := s.free + 1 } j (atLeast s.free 0) vals
  | none => s

/-- CPLREPLY. -/
def execCplreply (n : Fin 4) (head : ChordHead) (src dst : CAddr) (vals : List Word) (s : State) :
    Host.Outcome State Fault Refusal :=
  .next (partFrame s n head src dst (.reply vals) fun s => takeReply s vals)

/-- The end of a member's part by the code and reason of its coordinator (R183, R332, Table 7.2): what it writes is
its own; the scale of a certificate is free (log entry 75). -/
def partEnd (s : State) (j : Job) (code rsn : Nat) : JobEnd :=
  let w := j.kept.getD (qpFrom (jobRed j) j)
  let scale := fun (l : List Word) => atLeast s.free (vNorm l)
  let n := dPrimal j.desc
  let numeric := decide (code = CC.failNumeric)
  if code < 0x10 then
    if rsn = Rsn.iterCap then
      { qpEndWith { w with flags := w.flags ||| jfUnmet } code rsn 4 with
        writeX := true, x := ((w.best.map (·.2)).getD (qpSol w)) }
    else { qpEndWith w code rsn 1 with writeX := true }
  else if numeric && rsn = Rsn.primalInfeasible then
    { qpEndWith w code rsn 2 with
      cert := w.dir.map fun p => List.replicate n 0 ++ scaled (scale (dualPart p)) (p.dy ++ p.dz) }
  else if numeric && rsn = Rsn.dualInfeasible then
    { qpEndWith w code rsn 3 with
      cert := w.dir.map fun p => scaled (scale p.dx) p.dx ++ List.replicate (xMe j.ext + xMi j.ext) 0 }
  else if numeric && rsn = Rsn.iterCap then qpEndWith { w with flags := w.flags ||| jfUnmet } code rsn 5
  else if numeric && rsn = Rsn.stepFail then qpEndWith w code rsn 6
  else qpEndWith w code rsn 0

/-- A CPLEND for this unit (R332, R184): at a member the end of its part, at a coordinator a part that failed, which ends
the others. -/
def takeEnd (s : State) (src : CAddr) (code rsn : Nat) (o : JobObs) : State :=
  match memberPart s, s.lsv.cjob with
  | some j, _ =>
    let s := advance s o.at_
    completeJob { s with free := s.free + 1 } j (partEnd s j code rsn) o false
  | none, some c =>
    if c.joined.contains src.member then endSolve (advance s o.at_) CC.failPeerUnreachable (failRsn code) else s
  | none, none => s

/-- CPLEND. -/
def execCplend (n : Fin 4) (head : ChordHead) (src dst : CAddr) (code rsn : BitVec 8) (o : JobObs) (s : State) :
    Host.Outcome State Fault Refusal :=
  .next (partFrame s n head src dst (.finish code.toNat rsn.toNat) fun s => takeEnd s src code.toNat rsn.toNat o)

/-- CPLWAIT_EXPIRY (R184): the part has waited longer than CPLWAIT for a reply. -/
def execCplwaitExpiry (s : State) : Host.Outcome State Fault Refusal :=
  .next (match memberPart s with
    | some j =>
      let stop := j.waitFrom + xCplWait j.ext * 1000
      let t := advance s stop
      if stop ≤ t.tb.now then haltJob t j CC.failPeerUnreachable Rsn.cascadeLost else s
    | none => s)

end Sys2Proof.Machine
end

