-- ==== Sys2Proof/Machine/Claim.lean ====
section
/-! DEFINITION. Hearing a claim (R309, 13_redundant_pairs.md). -/

namespace Sys2Proof.Machine

/-- The unit hears a claim of the other side (R309): an ACTIVE unit that hears one above its own, a STANDBY unit that
hears one above its partner's (its own + 1, Table 13.4), and side B that hears its own, go to RESYNC. -/
def hearClaim (s : State) (c : BitVec 32) : State :=
  let s := wr { s with rdu := { s.rdu with hello := s.rdu.hello.map fun h => { h with claim := c } } }
    Reg.RDU_PCLAIM_PARTNER c.toNat
  match s.rdu.claimHeld with
  | none => s
  | some h =>
    let above := match modeIs s with
      | .active => decide (h.toNat < c.toNat)
      | .standby => decide (h.toNat + 1 < c.toNat)
      | _ => false
    if above || (decide (c = h) && ownSide s && (modeIs s = .active || modeIs s = .standby)) then
      addCause s (.higherClaim c)
    else s

end Sys2Proof.Machine
end

