-- ==== Sys2Proof/Machine/Vmsg.lean ====
section
/-! DEFINITION. Vertex messages as bytes (R248 to R254, Table 11.1, 11.2), the report ring (Table 11.13), and how copies,
runs and contexts end (R259, R264 to R266, R271, 11_vertex_protocol.md). -/

namespace Sys2Proof.Machine

/-! ### Messages -/

/-- A message: its header (Table 11.1) and body. -/
def vMessage (typ : Nat) (stream seq claim session : Nat) (body : List Byte) : List Byte :=
  leBytes 1 1 ++ leBytes 1 typ ++ leBytes 2 stream ++ leBytes 4 seq ++ leBytes 4 claim ++ leBytes 2 body.length
    ++ leBytes 2 session ++ body

/-- The quality bytes of an element block (R250): two elements a byte. -/
def qualBytes : List Elem → List Byte
  | [] => []
  | [a] => leBytes 1 a.qual.toNat
  | a :: b :: l => leBytes 1 (a.qual.toNat + 16 * b.qual.toNat) ++ qualBytes l

/-- An element block with its COUNT (R250). -/
def elemBlock (l : List Elem) : List Byte :=
  leBytes 2 l.length ++ leBytes 2 0 ++ l.flatMap (fun e => leBytes 8 e.value.toNat) ++ qualBytes l

/-- The DIGEST of a CMD (R250). -/
def cmdDigest (l : List Elem) : BitVec 64 := BitVec.ofNat 64 (leNat ((sha512 (elemBlock l)).take 8))

/-- The body of a CMD. -/
def cmdBody (l : List Elem) : List Byte := leBytes 8 (cmdDigest l).toNat ++ elemBlock l

/-- The body of a JOIN_ACK. -/
def joinAckBytes (b : JoinAckBody) : List Byte :=
  leBytes 8 b.stationId.toNat ++ leBytes 1 b.result.toNat ++ leBytes 1 b.ver.toNat ++ leBytes 2 b.stream.toNat
    ++ leBytes 2 b.maxFrame ++ leBytes 2 b.rpTicks ++ leBytes 4 b.tickNs ++ leBytes 1 b.cw ++ leBytes 1 b.ackTo
    ++ leBytes 1 b.retry ++ leBytes 1 0 ++ leBytes 2 b.noutB ++ leBytes 2 b.ninB ++ leBytes 4 0

/-- The elements of a block whose COUNT is at offset `off` of the body. -/
def parseElems (bs : List Byte) (off : Nat) : List Elem :=
  let n := leAt bs off 2
  (List.range n).map fun e =>
    let q := leAt bs (off + 4 + 8 * n + e / 2) 1
    ⟨BitVec.ofNat 64 (leAt bs (off + 4 + 8 * e) 8), BitVec.ofNat 3 (if e % 2 = 0 then q else q / 16)⟩

/-- The length of an element block of `n` elements with its COUNT and reserved bytes. -/
def blockLen (n : Nat) : Nat := 4 + 8 * n + (n + 1) / 2

/-- A station's message taken apart: TYPE, header fields and body. -/
structure VMsg where
  typ : Nat
  stream : Nat
  seq : Nat
  session : Nat
  body : List Byte
  deriving DecidableEq, Repr

/-- A message out of its bytes, none when VER, TYPE or LEN is wrong for a message of a station (R249); `pad` allows the
filling of the last FD segment. -/
def parseMsg (bs : List Byte) (pad : Nat) : Option VMsg :=
  let len := leAt bs 12 2
  let typ := leAt bs 1 1
  let body := (bs.drop 16).take len
  let fits : Bool := match typ with
    | 0x01 => len = 24 && leAt body 0 8 ≠ 0
    | 0x03 => len = 8
    | 0x11 => len = 4
    | 0x12 => len = 28
    | 0x20 => 8 ≤ len && len = 4 + blockLen (leAt body 4 2)
    | _ => false
  if 16 ≤ bs.length ∧ leAt bs 0 1 = 1 ∧ fits ∧ 16 + len ≤ bs.length ∧ bs.length ≤ 16 + len + pad then
    some ⟨typ, leAt bs 2 2, leAt bs 4 4, leAt bs 14 2, body⟩
  else none

/-- The body of a JOIN. -/
def parseJoin (b : List Byte) : JoinBody :=
  ⟨BitVec.ofNat 64 (leAt b 0 8), BitVec.ofNat 8 (leAt b 8 1), BitVec.ofNat 8 (leAt b 9 1), BitVec.ofNat 16 (leAt b 10 2),
   BitVec.ofNat 16 (leAt b 12 2), BitVec.ofNat 16 (leAt b 14 2), BitVec.ofNat 32 (leAt b 16 4),
   BitVec.ofNat 32 (leAt b 20 2)⟩

/-- The body of a MISMATCH. -/
def parseMismatch (b : List Byte) : MismatchBody :=
  ⟨BitVec.ofNat 32 (leAt b 0 4), BitVec.ofNat 32 (leAt b 4 4), BitVec.ofNat 32 (leAt b 8 4), BitVec.ofNat 64 (leAt b 12 8),
   BitVec.ofNat 64 (leAt b 20 8)⟩

/-! ### Contexts -/

/-- The VERTEX section in force; with no facet active, the defaults of Table 11.9. -/
def vcfg (s : State) : VertexCfg :=
  match s.fct.active with
  | some f => f.vertex
  | none => ⟨47810, 8, 2, 20, 3, 10, 10000, 1472, true, true, true⟩

/-- The context of a Vertex number, while admitted. -/
def ctxOf (s : State) (v : Nat) : Option Ctx := tget s.npc.ctxs v

/-- Stores a context. -/
def setCtx (s : State) (v : Nat) (c : Ctx) : State := { s with npc := { s.npc with ctxs := tput s.npc.ctxs v c } }

/-- The stream id of a context (R248). -/
def streamId (s : State) (v : Nat) : Nat := (ownMember s).val * 2048 + v

/-- LINK of a ring entry. -/
def linkByte : Link → Nat
  | .port p => p.val
  | .bus n => n.val + 128

/-- A ring entry (Table 11.13). -/
structure REntry where
  stream : Nat
  kind : Nat
  code : Nat
  rsn : Nat
  link : Nat
  count : Nat := 1
  seq : Nat := 0
  sid : Nat := 0
  claimA : Nat := 0
  claimB : Nat := 0
  digA : Nat := 0
  digB : Nat := 0

/-- The bytes of an entry at the present tick. -/
def rEntryBytes (s : State) (e : REntry) : List Byte :=
  leBytes 2 e.stream ++ leBytes 1 e.kind ++ leBytes 1 e.code ++ leBytes 1 e.rsn ++ leBytes 1 e.link ++ leBytes 2 e.count
    ++ leBytes 4 e.seq ++ leBytes 4 s.tb.tick ++ leBytes 8 e.sid ++ leBytes 4 e.claimA ++ leBytes 4 e.claimB
    ++ leBytes 8 e.digA ++ leBytes 8 e.digB ++ leBytes 16 0

/-- Writes an entry into the report ring and raises its vector; one that finds the ring full, or not enabled, is counted
in VRDROP (R266, R286). -/
def ringPut (s : State) (e : REntry) : State :=
  let size := 2 ^ rd s Reg.NPC_VRCFG_VRLOG
  let head := rd s Reg.NPC_VRHEAD_HEAD
  if !rdB s Reg.NPC_VRCFG_EN || decide (size ≤ (head + 2 ^ 32 - rd s Reg.NPC_VRREAD_READ) % 2 ^ 32) then
    bump s Reg.NPC_VRDROP_VRDROP
  else
    let base := rd64 s Reg.NPC_VRBASE_LO_BASE Reg.NPC_VRBASE_HI_BASE
    let s := emit s (.hostWrite (base + 64 * (head % size)) (rEntryBytes s e))
    msix (wr s Reg.NPC_VRHEAD_HEAD (head + 1)) (rd s Reg.NPC_VRCFG_VEC)

/-- Writes a delivery run as one entry (R266). -/
def writeRun (s : State) (v : Nat) (c : Ctx) (r : DelRun) : State :=
  ringPut s { stream := streamId s v, kind := 1, code := r.code, rsn := r.rsn, link := linkByte c.endpoint.link,
              count := r.count, seq := r.seq.toNat }

/-- The count of `NPC_VCNT` an outcome belongs to. -/
def vcntOf (code : Nat) : Field :=
  if code = CC.done then Reg.NPC_VCNT0_DONE
  else if code = CC.doneAfterRetry then Reg.NPC_VCNT1_RETRY
  else if code = CC.failPeerUnreachable then Reg.NPC_VCNT2_UNREACH
  else Reg.NPC_VCNT3_OTHER

/-- A copy ends (R265, R266): it leaves the context, is counted once and joins or begins a run. -/
def endCopy (s : State) (v : Nat) (seq : BitVec 32) (code rsn : Nat) : State :=
  match ctxOf s v with
  | none => s
  | some c =>
    let s := bump s (vcntOf code) v
    let c := { c with copies := c.copies.filter (·.seq ≠ seq) }
    match c.run with
    | some r =>
      if r.code = code ∧ r.rsn = rsn then
        let r := { r with count := r.count + 1 }
        if r.count = 65535 then setCtx (writeRun s v c r) v { c with run := none }
        else setCtx s v { c with run := some r }
      else setCtx (writeRun s v c r) v { c with run := some ⟨code, rsn, seq, 1, s.tb.now⟩ }
    | none => setCtx s v { c with run := some ⟨code, rsn, seq, 1, s.tb.now⟩ }

/-- Ends every unended copy of a context. -/
def endCopies (s : State) (v : Nat) (code rsn : Nat) : State :=
  match ctxOf s v with
  | none => s
  | some c => c.copies.foldl (fun s k => endCopy s v k.seq code rsn) s

/-- The contexts on a link. -/
def linkCtxs (s : State) (l : Link) : List Nat :=
  (s.npc.ctxs.filter fun e => e.2.endpoint.link = l).map (·.1)

/-- The link as a resource. -/
def linkRes : Link → Resource
  | .port p => ⟨.network, p.val⟩
  | .bus n => ⟨.fieldbus, n.val⟩

/-- A port or bus that SAVE stops (R246, Table 12.2). -/
def linkOut (s : State) (l : Link) : Bool :=
  match l with
  | .port p => (((s.fct.active.map Facet.npcCrit).getD 0).getLsbD p.val) = false
  | .bus n => s.fbc[n].stopped || s.fbc[n].stopping

/-- A port or bus stopped by SAVE (R246, Table 12.2). -/
def linkStopped (s : State) (l : Link) : Bool := modeIs s = .save && linkOut s l

/-- Two endpoints are one in the sense of R251: port or bus, VLAN, source address and source UDP port. -/
def sameSource (a b : Endpoint) : Bool :=
  decide (a.link = b.link) && decide (a.vlan.toNat % 4096 = b.vlan.toNat % 4096) && decide (a.addr = b.addr)
    && decide (a.udpPort = b.udpPort)

/-- A port or bus retired. -/
def linkRetired (s : State) (l : Link) : Bool := resState s (linkRes l) = .retired

/-- QUAL of a context's status word (Table 11.14). -/
def showCtx (s : State) (v : Nat) : State :=
  match ctxOf s v with
  | none => wr s Reg.NPC_VSTS_QUAL (qualCode .bad) v
  | some c =>
    let q : Qual := if linkRetired s c.endpoint.link then .retired
      else if linkStopped s c.endpoint.link || !rdB s Reg.NPC_VSTS_REACH v then .stale else .good
    wr s Reg.NPC_VSTS_QUAL (qualCode q) v

/-- Ends the copies of a link with one outcome, the contexts staying admitted. -/
def endLink (s : State) (l : Link) (code rsn : Nat) : State :=
  (linkCtxs s l).foldl (fun s v => showCtx (endCopies s v code rsn) v) s

/-- ADMITTED and UNREACH of `NPC_VSUM`. -/
def setVsum (s : State) : State :=
  let un := s.npc.ctxs.filter fun e => !rdB s Reg.NPC_VSTS_REACH e.1
  wr (wr s Reg.NPC_VSUM_ADMITTED s.npc.ctxs.length) Reg.NPC_VSUM_UNREACH un.length

/-- A context becomes UNREACHABLE (R271). -/
def unreachable (s : State) (v : Nat) : State :=
  if (ctxOf s v).isSome ∧ rdB s Reg.NPC_VSTS_REACH v then
    let s := setVsum (showCtx (wr s Reg.NPC_VSTS_REACH 0 v) v)
    event s Ev.vertexUnreachable .warning []
  else s

/-- A context becomes reachable again (R271). -/
def reachable (s : State) (v : Nat) : State :=
  if (ctxOf s v).isSome ∧ !rdB s Reg.NPC_VSTS_REACH v then setVsum (showCtx (wr s Reg.NPC_VSTS_REACH 1 v) v) else s

/-- Frees a context (R259): its copies end FAIL_CANCELLED RELEASED, its points read BAD, a RELEASE entry is written. -/
def freeCtx (s : State) (v : Nat) : State :=
  match ctxOf s v with
  | none => s
  | some c =>
    let s := endCopies s v CC.failCancelled Rsn.released
    let s := match (ctxOf s v).bind (·.run) with | some r => writeRun s v c r | none => s
    let s := { s with npc := { s.npc with ctxs := tdel s.npc.ctxs v } }
    let s := [(Reg.NPC_VSTS_QUAL, qualCode .bad), (Reg.NPC_VSTS_MSTATE, mstateCode .spare), (Reg.NPC_VSTS_ADM, 0),
      (Reg.NPC_VSTS_REACH, 0), (Reg.NPC_VSTS_MED, 0), (Reg.NPC_VSTS_LINK, 0), (Reg.NPC_VSTS_MM, 0),
      (Reg.NPC_VSTS_TRUNC, 0), (Reg.NPC_VSTS_SESSION, 0)].foldl (fun s e => wr s e.1 e.2 v) s
    let pts := ((running s).map (·.points)).getD [] |>.filter fun p => match p.bind with | .vin w _ => w = v | _ => false
    let s := pts.foldl (fun s p => match tget s.csa.img p.num with
      | some x => { s with csa := { s.csa with img := tput s.csa.img p.num { x with qual := .bad } } }
      | none => s) s
    ringPut (setVsum s) { stream := streamId s v, kind := 4, code := CC.done, rsn := 0, link := linkByte c.endpoint.link,
                          sid := c.stationId.toNat }

/-- DELIVERY_RUN_TIMEOUT (R266): the run is written 1 s after its first copy ended. -/
def execDeliveryRunTimeout (v : Fin 2048) (s : State) : Host.Outcome State Fault Refusal :=
  .next (match ctxOf s v.val with
    | none => s
    | some c => match c.run with
      | some r => if r.since + 1000000000 ≤ s.tb.now then setCtx (writeRun s v.val c r) v.val { c with run := none } else s
      | none => s)

end Sys2Proof.Machine
end

