-- ==== Sys2Proof/Machine/Fbc.lean ====
section
/-! DEFINITION. The Field Bus Controllers (10_field_bus_controllers.md): transmit buffers and their order, cancel,
identifier clash, error confinement and bus-off, the bus mode probe, filters, the receive FIFO, the Vertex queue and the
controller's share in SAVE, retirement and facet swaps. -/

namespace Sys2Proof.Machine

/-! ### Frames -/

/-- Data bytes of a DLC (ISO 11898-1): 0 to 8, and for FD 12, 16, 20, 24, 32, 48, 64. -/
def dlcLen (fd : Bool) (dlc : Nat) : Nat :=
  if dlc ≤ 8 then dlc
  else if fd then [12, 16, 20, 24, 32, 48, 64].getD (dlc - 9) 64
  else 8

/-- The smallest DLC that carries `n` data bytes. -/
def dlcFor (n : Nat) : Nat := ((List.range 16).find? fun d => n ≤ dlcLen true d).getD 15

/-- Data bytes of a frame; a remote frame carries none. -/
def frameLen (f : CanFrame) : Nat := if f.rtr then 0 else dlcLen f.fdf f.dlc.toNat

/-- The bytes a frame carries, as many as its DLC gives. -/
def frameData (f : CanFrame) : List Byte := (f.data ++ List.replicate 64 0).take (frameLen f)

/-- Arbitration priority of a frame, lower first: the base identifier, then base before extended, then the rest. -/
def arbKey (f : CanFrame) : Nat :=
  (f.id.toNat / 2 ^ 18) * 2 ^ 21 + (if f.ide then 2 ^ 20 + f.id.toNat % 2 ^ 18 * 2 else 0) + (if f.rtr then 1 else 0)

/-! ### State of a controller -/

/-- A controller. -/
def ctl (s : State) (n : Fin 24) : Ctl := s.fbc[n]

/-- Stores a controller. -/
def setCtl (s : State) (n : Fin 24) (c : Ctl) : State := { s with fbc := s.fbc.set n c }

/-- Status fields of buffer `b`: CC, RSN, PEND, RETRIES, TS. -/
def txFields (b : Fin 3) : Field × Field × Field × Field × Field :=
  match b with
  | 0 => (Reg.FBCn_TXSTS0_CC, Reg.FBCn_TXSTS0_RSN, Reg.FBCn_TXSTS0_PEND, Reg.FBCn_TXSTS0_RETRIES, Reg.FBCn_TXTS0_TS)
  | 1 => (Reg.FBCn_TXSTS1_CC, Reg.FBCn_TXSTS1_RSN, Reg.FBCn_TXSTS1_PEND, Reg.FBCn_TXSTS1_RETRIES, Reg.FBCn_TXTS1_TS)
  | 2 => (Reg.FBCn_TXSTS2_CC, Reg.FBCn_TXSTS2_RSN, Reg.FBCn_TXSTS2_PEND, Reg.FBCn_TXSTS2_RETRIES, Reg.FBCn_TXTS2_TS)

/-- The bus runs: its record is enabled, its mode known (R229), it is neither bus-off, retired nor stopped. -/
def busRuns (s : State) (n : Fin 24) : Bool :=
  (match (ctl s n).bus with | some b => b.en | none => false)
  && rd s Reg.FBCn_STATUS_PMODE n != 0 && !rdB s Reg.FBCn_STATUS_BUSOFF n
  && resState s ⟨.fieldbus, n.val⟩ != .retired && !(ctl s n).stopped

/-- The bus runs in classic mode (R230). -/
def busClassic (s : State) (n : Fin 24) : Bool := rd s Reg.FBCn_STATUS_PMODE n = 2

/-- The status pair of the FBC over its 24 controllers (R435). -/
def showFbc (s : State) : State :=
  let ms := (List.range 24).map fun n => mstateOf (rd s Reg.FBCn_STATUS_MSTATE n)
  let q : Qual := if ms.contains .retired then .retired
    else if (List.range 24).any fun n => rdB s Reg.FBCn_STATUS_BUSOFF n then .stale else .good
  let m : MState := if s.ssu.wave = some 5 then .testing
    else if ms.contains .retired then .retired
    else if ms.contains .suspect then .suspect
    else if ms.contains .inService then .inService
    else .offline
  wr (wr s Reg.FBC_STATUS_QUAL (qualCode q)) Reg.FBC_STATUS_MSTATE (mstateCode m)

/-- The status pair of a controller (Table 10.7), and of the FBC. -/
def showCtl (s : State) (n : Fin 24) : State :=
  let dead := resState s ⟨.fieldbus, n.val⟩ = .retired
  let on := (match (ctl s n).bus with | some b => b.en | none => false) && !(ctl s n).stopped
  let m : MState := if dead then .retired else if !on then .offline
    else if s.ssu.windows.any (·.res = ⟨.fieldbus, n.val⟩) then .suspect else .inService
  let q : Qual := if dead then .retired else if rdB s Reg.FBCn_STATUS_BUSOFF n then .stale else .good
  showFbc (wr (wr s Reg.FBCn_STATUS_MSTATE (mstateCode m) n) Reg.FBCn_STATUS_QUAL (qualCode q) n)

/-! ### Choice, loading and the end of requests (R231, R232, R244) -/

/-- The order in which the loaded buffers are sent (R231); on a bus in classic mode only classic frames are (R230). -/
def txChoice (c : Ctl) (classic : Bool) : Option (Fin 3) :=
  let byId := match c.bus with | some b => !b.txOrder | none => true
  (List.finRange 3).foldl (fun best b =>
    match c.tb[b].filter fun r => !(classic && r.frame.fdf) with
    | none => best
    | some r => match best with
      | none => some b
      | some o => match c.tb[o] with
        | some q => if byId && decide (arbKey r.frame < arbKey q.frame) then some b else best
        | none => some b) none

/-- The controller chooses the next frame at a bus idle or after a loss of arbitration (R231). -/
def choose (s : State) (n : Fin 24) : State :=
  setCtl s n { ctl s n with sel := if busRuns s n then txChoice (ctl s n) (busClassic s n) else none }

/-- Sets DEPTH. -/
def setDepth (s : State) (n : Fin 24) : State := wr s Reg.FBCn_QSTS_DEPTH (ctl s n).queue.length n

/-- Loads a request into a buffer. -/
def loadTb (s : State) (n : Fin 24) (b : Fin 3) (r : TxReq) : State :=
  let (_, _, pend, retries, _) := txFields b
  let s := wr (wr s pend 1 n) retries 0 n
  let c := ctl s n
  let s := setCtl s n { c with tb := c.tb.set b (some r) }
  if c.sel.isNone then choose s n else s

/-- The lowest free buffer of the offload: TB0 and TB1, and TB2 with TB2HOST 0. -/
def freeTb (c : Ctl) : Option (Fin 3) :=
  let host := match c.bus with | some b => b.tb2Host | none => false
  (List.finRange 3).find? fun b => c.tb[b].isNone && !(host && decide (b = 2))

/-- Loads the head of the queue into a free buffer (R244). -/
def loadHead (s : State) (n : Fin 24) : State :=
  let c := ctl s n
  match c.queue, freeTb c with
  | e :: l, some b =>
    if busRuns s n then
      setDepth (loadTb (setCtl s n { c with queue := l }) n b
        ⟨e.frame, false, some e.expiry, some (e.vertex, e.seq), 0, 0, false, false⟩) n
    else s
  | _, _ => s

/-- The offload loads its free buffers. -/
def loadQueue (s : State) (n : Fin 24) : State := loadHead (loadHead (loadHead s n) n) n

/-- The place of a new entry in the queue: arrival order, or identifier priority with arrival within it (R244). -/
def queuePut (byId : Bool) (l : List QEntry) (e : QEntry) : List QEntry :=
  if byId then
    (l.takeWhile fun x => arbKey x.frame ≤ arbKey e.frame) ++ e :: l.dropWhile fun x => arbKey x.frame ≤ arbKey e.frame
  else l ++ [e]

/-- The bus is ordered by identifier. -/
def orderById (c : Ctl) : Bool := match c.bus with | some b => !b.txOrder | none => true

/-- The offload offers an entry (R244): QUEUE_FULL with 256 held. On a bus that does not run it waits in the queue. -/
def offer (s : State) (n : Fin 24) (e : QEntry) : State :=
  let c := ctl s n
  if resState s ⟨.fieldbus, n.val⟩ = .retired ∨ c.stopped ∨ c.stopping then s
  else if 256 ≤ c.queue.length then bump s Reg.FBCn_QSTS_QFULL n
  else
    let e := { e with arrival := c.queue.foldl (fun m x => max m (x.arrival + 1)) 0 }
    loadQueue (setDepth (setCtl s n { c with queue := queuePut (orderById c) c.queue e }) n) n

/-- A loaded request ends: its status takes the code, reason and retries, and the buffer is free. -/
def endTx (s : State) (n : Fin 24) (b : Fin 3) (code rsn : Nat) : State :=
  let c := ctl s n
  match c.tb[b] with
  | none => s
  | some r =>
    let (cc, rs, pend, retries, _) := txFields b
    let s := wr (wr (wr (wr s cc code n) rs rsn n) pend 0 n) retries (min r.errors 127) n
    setCtl s n { c with tb := c.tb.set b none, sel := if c.sel = some b then none else c.sel }

/-- Ends every loaded request and queue entry of a bus. -/
def endAllTx (s : State) (n : Fin 24) (code rsn : Nat) : State :=
  let s := (List.finRange 3).foldl (fun s b => endTx s n b code rsn) s
  setDepth (setCtl s n { ctl s n with queue := [] }) n

/-- After a buffer is free: the offload loads it, and the controller chooses again unless a chosen frame is in an
attempt. -/
def afterTx (s : State) (n : Fin 24) : State :=
  let s := loadQueue s n
  if (ctl s n).sel.isNone then choose s n else s

/-- The bus is idle: the controller chooses anew. -/
def freeWire (s : State) (n : Fin 24) : State := setCtl s n { ctl s n with sel := none }

/-! ### Starting, stopping and the records that wait for the frame on the wire (R229, R230, R246, R247) -/

/-- The end of a controller command. -/
def ctlEnd (s : State) (n : Fin 24) (code rsn : Nat) : State :=
  setStatus s Reg.FBCn_CTLSTS_CC Reg.FBCn_CTLSTS_RSN Reg.FBCn_CTLSTS_PEND code rsn n

/-- The controller may drive the bus: its record is enabled, it is neither bus-off, retired nor stopped. -/
def canDrive (s : State) (n : Fin 24) : Bool :=
  (match (ctl s n).bus with | some b => b.en | none => false) && !rdB s Reg.FBCn_STATUS_BUSOFF n
    && resState s ⟨.fieldbus, n.val⟩ != .retired && !(ctl s n).stopped

/-- The bus starts in a mode: the outcome is shown and recorded (R229, R230), and the buffers load. -/
def probeOutcome (s : State) (n : Fin 24) (outcome pmode : Nat) : State :=
  let s := wr (wr s Reg.FBCn_STATUS_PMODE pmode n) Reg.FBCn_STATUS_PROBE outcome n
  afterTx (event s Ev.busProbe .notice [n.val, outcome]) n

/-- The probe frame of a bus (R229): an FD frame with base identifier PROBEID, 0 selecting 0x7FF, and no data. -/
def probeFrame (b : BusRec) : CanFrame :=
  { id := BitVec.ofNat 29 ((if b.probeId = 0 then 0x7FF else b.probeId) * 2 ^ 18), ide := false, rtr := false, fdf := true,
    brs := b.brs, dlc := 0, data := [] }

/-- Up to three probe frames are sent, by a controller that may drive its bus. -/
def sendProbe (s : State) (n : Fin 24) (b : BusRec) : State :=
  if canDrive s n then emit s (.probeFrame n (probeFrame b) 3) else s

/-- Starts a bus, or starts it again: MODE 1 and 2 are FIXED, MODE 0 is probed (R229); a retired controller stays
recessive (R245). -/
def startBus (s : State) (n : Fin 24) : State :=
  let s := freeWire s n
  match (ctl s n).bus with
  | none => s
  | some b =>
    if !b.en ∨ resState s ⟨.fieldbus, n.val⟩ = .retired then s
    else if b.mode = 1 then probeOutcome s n 4 1
    else if b.mode = 2 then probeOutcome s n 4 2
    else sendProbe (wr (wr s Reg.FBCn_STATUS_PMODE 0 n) Reg.FBCn_STATUS_PROBE 0 n) n b

/-- A controller that may drive its bus again goes on, with the probe that it still owes. -/
def goOn (s : State) (n : Fin 24) : State :=
  match (ctl s n).bus with
  | some b => if b.en && decide (b.mode = 0) && decide (rd s Reg.FBCn_STATUS_PMODE n = 0) then sendProbe s n b else afterTx s n
  | none => s

/-- The offload's filter at index 63 of an enabled bus (R255): DIR 1 and the device's own MEMBER. -/
def offloadFilter (s : State) : Filt :=
  ⟨BitVec.ofNat 29 (2 ^ 25 + (ownMember s).val * 2 ^ 21), true, BitVec.ofNat 29 (2 ^ 25 + 7 * 2 ^ 21), true⟩

/-- Puts an entry behind those that arrived before it. -/
def arrivalPut (l : List QEntry) (e : QEntry) : List QEntry :=
  (l.takeWhile fun x => x.arrival ≤ e.arrival) ++ e :: l.dropWhile fun x => x.arrival ≤ e.arrival

/-- The queue in the order that the record in force gives (R244). -/
def queueOrder (c : Ctl) : List QEntry :=
  let l := c.queue.foldl arrivalPut []
  if orderById c then l.foldl (queuePut true) [] else l

/-- The records differ in more than TXORDER and CLASHN (R247). -/
def busChanged (a b : BusRec) : Bool := decide ({ a with txOrder := b.txOrder, clashN := b.clashN } ≠ b)

/-- An enabled record takes effect, no frame of the controller being on the wire or only TXORDER and CLASHN changing
(R247, R229, R255). -/
def takeBus (s : State) (n : Fin 24) (b : BusRec) : State :=
  let c := ctl s n
  let was := match c.bus with | some o => o.en | none => false
  let dropHost := was && !b.tb2Host && (match c.tb[(2 : Fin 3)] with | some r => r.host | none => false)
  let s := if dropHost then endTx s n 2 CC.failCancelled Rsn.configChange else s
  let changed := match c.bus with | some o => !o.en || busChanged o b | none => true
  let c := ctl s n
  let c := { c with bus := some b, nextBus := none, filters := tput c.filters 63 (offloadFilter s) }
  let s := showCtl (setCtl s n { c with queue := queueOrder c }) n
  let s := if was then s else linkChange s ⟨.fieldbus, n.val⟩
  if changed then startBus s n else afterTx s n

/-- A controller stops in SAVE (R246): its requests end FAIL_POWER and a recovery ends (Table 10.5). -/
def stopCtl (s : State) (n : Fin 24) : State :=
  let s := endAllTx s n CC.failPower 0
  let s := if rdB s Reg.FBCn_STATUS_RECOV n then ctlEnd (wr s Reg.FBCn_STATUS_RECOV 0 n) n CC.failPower 0 else s
  let s := setCtl s n { ctl s n with stopped := true, stopping := false, sel := none }
  linkChange (showCtl s n) ⟨.fieldbus, n.val⟩

/-- With no frame of its own on the wire a controller stops or takes a new record if either waits for that, and else goes
on sending. -/
def settle (s : State) (n : Fin 24) : State :=
  let c := ctl s n
  if c.sel.isSome then s
  else if c.stopping then stopCtl s n
  else match c.nextBus with
    | some b => takeBus s n b
    | none => afterTx s n

/-! ### Host requests (R231, R233, R243) -/

/-- Word `k` of TB2 as the host wrote it. -/
def txWord (c : Ctl) (k : Nat) : Nat := ((tget c.txw k).getD 0).toNat

/-- The frame the TB2 words spell (Table 10.6). -/
def hostFrame (c : Ctl) : CanFrame :=
  let w0 := txWord c 0
  let w1 := txWord c 1
  let fd := decide (bitsOf w0 31 1 = 1)
  let dlc := bitsOf w1 0 4
  let n := if bitsOf w0 30 1 = 1 then 0 else dlcLen fd dlc
  { id := BitVec.ofNat 29 w0, ide := decide (bitsOf w0 29 1 = 1), rtr := decide (bitsOf w0 30 1 = 1), fdf := fd,
    brs := fd && decide (bitsOf w1 4 1 = 1), dlc := BitVec.ofNat 4 dlc,
    data := ((List.range 16).flatMap fun j => leBytes 4 (txWord c (3 + j))).take n }

/-- The status of TB2 after a REQUEST that loads nothing; PEND stays as it is. -/
def txRefuse (s : State) (n : Fin 24) (code rsn : Nat) : State :=
  wr (wr s Reg.FBCn_TXSTS2_CC code n) Reg.FBCn_TXSTS2_RSN rsn n

/-- TX_REQUEST (R231, R230, R243, Table 10.10). -/
def txRequest (s : State) (n : Fin 24) : State :=
  let c := ctl s n
  let f := hostFrame c
  if modeIs s = .test then txRefuse s n CC.failRefused Rsn.badMode
  else match c.bus with
    | none => txRefuse s n CC.failRefused Rsn.noBuffer
    | some b =>
      if !b.en || !b.tb2Host then txRefuse s n CC.failRefused Rsn.noBuffer
      else if c.tb[(2 : Fin 3)].isSome then txRefuse s n CC.failRefused Rsn.busy
      else if (!f.fdf && decide (8 < f.dlc.toNat)) || (f.rtr && f.fdf)
          || (decide (bitsOf (txWord c 1) 4 1 = 1) && !b.brs) then
        txRefuse s n CC.failRefused Rsn.badFrame
      else if busClassic s n ∧ f.fdf then txRefuse s n CC.failRefused Rsn.busClassic
      else if resState s ⟨.fieldbus, n.val⟩ = .retired then txRefuse s n CC.failResourceRetired 0
      else if c.stopped || c.stopping then txRefuse s n CC.failPower 0
      else if rdB s Reg.FBCn_STATUS_BUSOFF n then txRefuse s n CC.failTransientExhausted Rsn.busOff
      else loadTb s n 2 ⟨f, true, none, none, 0, 0, false, false⟩

/-- TX_REQUEST. -/
def execTxRequest (n : Fin 24) (s : State) : Host.Outcome State Fault Refusal := .next (txRequest s n)

/-- The end of a host cancel. -/
def txCancelEnd (s : State) (n : Fin 24) (code rsn : Nat) : State :=
  wr (wr s Reg.FBCn_TXCMD_CANCC code n) Reg.FBCn_TXCMD_CANRSN rsn n

/-- TX_CANCEL (R233): `p` says where the buffer's attempt stands as the cancel is registered. -/
def txCancel (s : State) (n : Fin 24) (p : CancelAt) : State :=
  if modeIs s = .test then txCancelEnd s n CC.failRefused Rsn.badMode
  else
    let c := ctl s n
    match c.tb[(2 : Fin 3)] with
    | none => txCancelEnd s n CC.failRefused Rsn.noFrame
    | some r =>
      if !r.host then txCancelEnd s n CC.failRefused Rsn.noFrame
      else if p = .afterCommit ∧ c.sel = some 2 then
        setCtl s n { c with tb := c.tb.set (2 : Fin 3) (some { r with cancel := true }) }
      else settle (txCancelEnd (endTx s n 2 CC.failCancelled 0) n CC.done 0) n

/-- TX_CANCEL. -/
def execTxCancel (n : Fin 24) (at_ : CancelAt) (s : State) : Host.Outcome State Fault Refusal := .next (txCancel s n at_)

/-! ### Attempts -/

/-- EPASS follows the counters (Table 10.4, ISO 11898-1). -/
def setEpass (s : State) (n : Fin 24) : State :=
  wrB s Reg.FBCn_STATUS_EPASS (decide (128 ≤ rd s Reg.FBCn_ERR_TEC n ∨ 128 ≤ rd s Reg.FBCn_ERR_REC n)) n

/-- FRAME_TX_COMPLETE (R232, R233, R239): the chosen buffer's frame completes at its last end-of-frame bit, an FD frame
with the controller's error state in its ESI bit (Table 10.6); TEC falls by one (Table 10.4). -/
def txComplete (s : State) (n : Fin 24) (b : Fin 3) (sofNs : Nat) : State :=
  let c := ctl s n
  match c.tb[b] with
  | none => s
  | some r =>
    if c.sel ≠ some b then s
    else
      let late := r.host && r.cancel
      let code := if r.errors = 0 then CC.done else CC.doneAfterRetry
      let s := emit s (.canFrame n r.frame (r.frame.fdf && rdB s Reg.FBCn_STATUS_EPASS n))
      let s := wr s (txFields b).2.2.2.2 (sofNs / 10 % 2 ^ 32) n
      let s := setEpass (wr s Reg.FBCn_ERR_TEC (rd s Reg.FBCn_ERR_TEC n - 1) n) n
      let s := endTx s n b code (if late then Rsn.cancelTooLate else 0)
      let s := if late then txCancelEnd s n CC.failRefused Rsn.cancelTooLate else s
      settle s n

/-- FRAME_TX_COMPLETE. -/
def execFrameTxComplete (n : Fin 24) (b : Fin 3) (stamp : Nat) (s : State) : Host.Outcome State Fault Refusal :=
  .next (txComplete s n b stamp)

/-- The code of an error (Table 10.9). -/
def lecOf : CanErr → Nat
  | .stuff => 1 | .form => 2 | .ack => 3 | .bit1 => 4 | .bit0 => 5 | .crc => 6

/-- LEC and LPH (Table 10.9). -/
def setLec (s : State) (n : Fin 24) (e : CanErr) (dataPhase : Bool) : State :=
  wrB (wr s Reg.FBCn_ERR_LEC (lecOf e) n) Reg.FBCn_ERR_LPH dataPhase n

/-- BUS_OFF (R235). -/
def goBusOff (s : State) (n : Fin 24) : State :=
  let s := wr (wr s Reg.FBCn_STATUS_BUSOFF 1 n) Reg.FBCn_STATUS_QUAL (qualCode .stale) n
  let s := (List.finRange 3).foldl (fun s b => endTx s n b CC.failTransientExhausted Rsn.busOff) s
  showCtl (event (setCtl s n { ctl s n with sel := none }) Ev.busOff .warning []) n

/-- CLASHN of a bus; 0 selects 16 (Table 10.1). -/
def clashN (c : Ctl) : Nat := match c.bus with | some b => if b.clashN = 0 then 16 else b.clashN | none => 16

/-- The clash count of a request after an attempt that ended in an error (R234). -/
def clashCount (r : TxReq) (e : CanErr) (inDataOrCrc : Bool) : Nat :=
  if (e = .bit1 ∨ e = .bit0) ∧ inDataOrCrc then r.clash + 1 else 0

/-- What an error adds to TEC (R227): 8, but nothing for a stuff error in the arbitration field, which the command does
not tell from the control field, nor for an error of acknowledgement of an error-passive controller that saw no dominant
bit as it sent its flag: free values (PRESUMED from ISO 11898-1, log entry 29). -/
def tecStep (s : State) (n : Fin 24) (e : CanErr) (dataPhase inDataOrCrc : Bool) : Nat × State :=
  if (e = .stuff && !dataPhase && !inDataOrCrc) || (e = .ack && rdB s Reg.FBCn_STATUS_EPASS n) then
    (if freeBool s.free then 8 else 0, { s with free := s.free + 1 })
  else (8, s)

/-- TX_ERROR (R232 to R235): the error-ended attempt is counted, TEC rises, a clash is recorded at CLASHN, a pending
cancel takes effect before any retry, and above 255 the controller is bus-off, which an expiry yields to (Table 10.5). -/
def txError (s : State) (n : Fin 24) (b : Fin 3) (e : CanErr) (dataPhase inDataOrCrc : Bool) : State :=
  let c := ctl s n
  match c.tb[b] with
  | none => s
  | some r =>
    if c.sel ≠ some b then s
    else
      let k := clashCount r e inDataOrCrc
      let hit := !r.clashRec && decide (k = clashN c)
      let r := { r with errors := r.errors + 1, clash := k, clashRec := r.clashRec || hit }
      let s := setCtl s n { c with tb := c.tb.set b (some r) }
      let s := wr s (txFields b).2.2.2.1 (min r.errors 127) n
      let s := if hit then
          event (bump s Reg.FBCn_ERR_CLASH n) Ev.idclash .warning [n.val, r.frame.id.toNat, b.val]
        else s
      let (add, s) := tecStep s n e dataPhase inDataOrCrc
      let tec := min 256 (rd s Reg.FBCn_ERR_TEC n + add)
      let s := setEpass (wr (setLec s n e dataPhase) Reg.FBCn_ERR_TEC tec n) n
      let off := decide (255 < tec)
      let s := if r.cancel && !(off && !r.host) then
          if r.host then txCancelEnd (endTx s n b CC.failCancelled 0) n CC.done 0
          else bump (endTx s n b CC.failBudget Rsn.expired) Reg.FBCn_QSTS_EXPIRED n
        else s
      settle (if off then goBusOff s n else freeWire s n) n

/-- TX_ERROR. -/
def execTxError (n : Fin 24) (b : Fin 3) (err : CanErr) (dataPhase inDataOrCrc : Bool) (s : State) :
    Host.Outcome State Fault Refusal := .next (txError s n b err dataPhase inDataOrCrc)

/-- ARBITRATION_LOSS (R231, R232, R234): no error, the clash count stays, and the controller chooses again. -/
def execArbitrationLoss (n : Fin 24) (b : Fin 3) (s : State) : Host.Outcome State Fault Refusal :=
  .next (if (ctl s n).sel = some b then settle (freeWire s n) n else s)

/-- RECEIVE_ERROR (R227): REC rises by 1, or by 8 for a bit error, which a receiver meets in a flag it sends, up to 255
(PRESUMED from ISO 11898-1, log entry 29). -/
def execReceiveError (n : Fin 24) (err : CanErr) (dataPhase : Bool) (s : State) : Host.Outcome State Fault Refusal :=
  .next (if busRuns s n then
      let s := setLec s n err dataPhase
      let n8 := min 255 (rd s Reg.FBCn_ERR_REC n + if err = .bit0 ∨ err = .bit1 then 8 else 1)
      settle (freeWire (setEpass (wr s Reg.FBCn_ERR_REC n8 n) n) n) n
    else s)

/-! ### Commands of a controller (R230, R236) -/

/-- A controller command: BUSY while one is pending, BAD_MODE in TEST. -/
def ctlCmd (s : State) (n : Fin 24) (f : State → State) : State :=
  if rdB s Reg.FBCn_CTLSTS_PEND n then wr (wr s Reg.FBCn_CTLSTS_CC CC.failRefused n) Reg.FBCn_CTLSTS_RSN Rsn.busy n
  else if modeIs s = .test then ctlEnd s n CC.failRefused Rsn.badMode
  else f s

/-- PROBE (R230): only in HALT, on an enabled bus; of a retired controller it ends FAIL_RESOURCE_RETIRED: DEDUCED (log
entry 77). -/
def probeCmd (s : State) (n : Fin 24) : State :=
  ctlCmd s n fun s =>
    match (ctl s n).bus with
    | none => ctlEnd s n CC.failRefused Rsn.badMode
    | some b =>
      if modeIs s ≠ .halt ∨ !b.en then ctlEnd s n CC.failRefused Rsn.badMode
      else if resState s ⟨.fieldbus, n.val⟩ = .retired then ctlEnd s n CC.failResourceRetired 0
      else if b.mode = 0 then startBus (wr s Reg.FBCn_CTLSTS_PEND 1 n) n
      else ctlEnd (startBus s n) n CC.done 0

/-- PROBE. -/
def execProbe (n : Fin 24) (s : State) : Host.Outcome State Fault Refusal := .next (probeCmd s n)

/-- What the probe frames leave in the error counters (R227, R229): three acknowledged ones lower TEC; else the last
error, how many there were and what they add to TEC are told by no command: free values (log entry 29). -/
def probeErrors (s : State) (n : Fin 24) (seen : ProbeSeen) : State :=
  match seen with
  | .threeAcked => setEpass (wr s Reg.FBCn_ERR_TEC (rd s Reg.FBCn_ERR_TEC n - 3) n) n
  | .noAck => if canDrive s n then
      let (t, s) := freeUpTo s 255
      setEpass (wr (setLec s n .ack false) Reg.FBCn_ERR_TEC t n) n
    else s
  | .errorAfterFdf =>
    let (t, s) := freeUpTo s 255
    let (e, s) := freeUpTo s 5
    let (p, s) := freeUpTo s 1
    setEpass (wr (wr (wr s Reg.FBCn_ERR_LEC (1 + e) n) Reg.FBCn_ERR_LPH p n) Reg.FBCn_ERR_TEC t n) n

/-- PROBE_COMPLETE (R229, Table 10.3): of a probe under way; a controller that may not drive its bus has sent no probe
frame, so that none was acknowledged. -/
def probeComplete (s : State) (n : Fin 24) (seen : ProbeSeen) : State :=
  match (ctl s n).bus with
  | none => s
  | some b =>
    if !b.en ∨ b.mode ≠ 0 ∨ rd s Reg.FBCn_STATUS_PMODE n ≠ 0 ∨ (!canDrive s n ∧ seen ≠ .noAck) then s
    else
      let s := probeErrors s n seen
      let s := match seen with
        | .errorAfterFdf => probeOutcome s n 2 2
        | .threeAcked => probeOutcome s n 1 1
        | .noAck => probeOutcome s n 3 2
      if rdB s Reg.FBCn_CTLSTS_PEND n && !rdB s Reg.FBCn_STATUS_RECOV n then ctlEnd s n CC.done 0 else s

/-- PROBE_COMPLETE. -/
def execProbeComplete (n : Fin 24) (seen : ProbeSeen) (s : State) : Host.Outcome State Fault Refusal :=
  .next (probeComplete s n seen)

/-- RECOVER (R236). -/
def recover (s : State) (n : Fin 24) : State :=
  ctlCmd s n fun s =>
    let m := modeIs s
    if m ≠ .halt ∧ m ≠ .active ∧ m ≠ .standby ∧ m ≠ .safehold then ctlEnd s n CC.failRefused Rsn.badMode
    else if !rdB s Reg.FBCn_STATUS_BUSOFF n then ctlEnd s n CC.failRefused Rsn.notBusoff
    else wr (wr s Reg.FBCn_CTLSTS_PEND 1 n) Reg.FBCn_STATUS_RECOV 1 n

/-- RECOVER. -/
def execRecover (n : Fin 24) (s : State) : Host.Outcome State Fault Refusal := .next (recover s n)

/-- RECOVERY_COMPLETE (R236). -/
def recoveryComplete (s : State) (n : Fin 24) : State :=
  if rdB s Reg.FBCn_STATUS_RECOV n then
    let s := setEpass (wr (wr s Reg.FBCn_ERR_TEC 0 n) Reg.FBCn_ERR_REC 0 n) n
    let s := wr (wr s Reg.FBCn_STATUS_BUSOFF 0 n) Reg.FBCn_STATUS_RECOV 0 n
    goOn (ctlEnd (event (showCtl s n) Ev.busRecovered .notice []) n CC.done 0) n
  else s

/-- RECOVERY_COMPLETE. -/
def execRecoveryComplete (n : Fin 24) (s : State) : Host.Outcome State Fault Refusal := .next (recoveryComplete s n)

/-- CLEAR_COUNTERS: the counter that Table 10.9 says CLEAR clears. -/
def execClearCounters (n : Fin 24) (s : State) : Host.Outcome State Fault Refusal :=
  .next (ctlCmd s n fun s => ctlEnd (wr s Reg.FBCn_ERR_CLASH 0 n) n CC.done 0)

/-! ### Filters (R237, R238, R255) -/

/-- A filter matches a frame (R237). -/
def filtHit (f : Filt) (c : CanFrame) : Bool := decide ((c.id ^^^ f.fid) &&& f.mask = 0) && (f.ide == c.ide)

/-- The filter that takes a frame: those of the offload first, then the host's in ascending index. -/
def filtTake (t : Tbl Filt) (c : CanFrame) : Option (Nat × Filt) :=
  (t.find? fun e => e.2.offload && filtHit e.2 c).orElse fun _ => t.find? fun e => !e.2.offload && filtHit e.2 c

/-- The end of a filter command. -/
def fltEnd (s : State) (n : Fin 24) (code rsn : Nat) : State :=
  wr (wr s Reg.FBCn_FLTSTS_CC code n) Reg.FBCn_FLTSTS_RSN rsn n

/-- Sets the filters of a controller; those before serve the frame that has already started (R238). -/
def setFilters (s : State) (n : Fin 24) (t : Tbl Filt) : State :=
  let c := ctl s n
  setCtl s n { c with filters := t, fltWas := c.fltWas ++ [(s.tb.now, c.filters)] }

/-- The filters in force at a start of frame: the host's as they stood then, the offload's as they stand. -/
def filtersAt (s : State) (n : Fin 24) (sofNs : Nat) : Tbl Filt × State :=
  let c := ctl s n
  let l := c.fltWas.filter fun e => sofNs < e.1
  let t := match l with
    | e :: _ => (e.2.filter fun f => !f.2.offload) ++ c.filters.filter (·.2.offload)
    | [] => c.filters
  (t, setCtl s n { c with fltWas := l })

/-- FILTER_ADD (R238): the lowest free index, the last one being the offload's (R255). -/
def filterAdd (s : State) (n : Fin 24) : State :=
  if modeIs s = .test then fltEnd s n CC.failRefused Rsn.badMode
  else
    let t := (ctl s n).filters
    match (List.range 63).find? fun i => (tget t i).isNone with
    | none => fltEnd s n CC.failRefused Rsn.filterFull
    | some i =>
      let f : Filt := ⟨BitVec.ofNat 29 (rd s Reg.FBCn_FLTID_FID n), rdB s Reg.FBCn_FLTID_IDE n,
        BitVec.ofNat 29 (rd s Reg.FBCn_FLTMASK_FMASK n), false⟩
      wr (fltEnd (setFilters s n (tput t i f)) n CC.done 0) Reg.FBCn_FLTSTS_ADDED i n

/-- FILTER_ADD. -/
def execFilterAdd (n : Fin 24) (s : State) : Host.Outcome State Fault Refusal := .next (filterAdd s n)

/-- FILTER_REMOVE (R238, Table 10.12). -/
def filterRemove (s : State) (n : Fin 24) (i : Nat) : State :=
  if modeIs s = .test then fltEnd s n CC.failRefused Rsn.badMode
  else match tget (ctl s n).filters i with
    | some f => if f.offload then fltEnd s n CC.failRefused Rsn.notOwner
      else fltEnd (setFilters s n (tdel (ctl s n).filters i)) n CC.done 0
    | none => fltEnd s n CC.failRefused Rsn.notOwner

/-- FILTER_REMOVE. -/
def execFilterRemove (n : Fin 24) (index : Fin 64) (s : State) : Host.Outcome State Fault Refusal :=
  .next (filterRemove s n index.val)

/-- FILTER_REMOVE_ALL. -/
def execFilterRemoveAll (n : Fin 24) (s : State) : Host.Outcome State Fault Refusal :=
  .next (if modeIs s = .test then fltEnd s n CC.failRefused Rsn.badMode
    else fltEnd (setFilters s n ((ctl s n).filters.filter (·.2.offload))) n CC.done 0)

/-! ### The receive FIFO (R241 to R243) -/

/-- Word `k` of a received frame (Table 10.6). -/
def rxWord (f : RxFrame) (k : Nat) : Nat :=
  match k with
  | 0 => f.frame.id.toNat + (if f.frame.ide then 2 ^ 29 else 0) + (if f.frame.rtr then 2 ^ 30 else 0) + 2 ^ 31
  | 1 => f.frame.dlc.toNat + (if f.frame.brs then 16 else 0) + (if f.esi then 32 else 0) + (if f.fdRx then 64 else 0)
      + f.filter * 2 ^ 8 + dlcLen f.fdRx f.frame.dlc.toNat * 2 ^ 16
  | 2 => f.ts.toNat
  | k => if 4 * (k - 3) < frameLen f.frame then leAt (frameData f.frame) (4 * (k - 3)) 4 else 0

/-- The last word of a frame (R241). -/
def rxLast (f : RxFrame) : Nat := 2 + (dlcLen f.fdRx f.frame.dlc.toNat + 3) / 4

/-- COUNT of the FIFO; a FIFO found empty ends the run of drops (R242). -/
def setFifo (s : State) (n : Fin 24) (l : List RxFrame) : State :=
  let c := ctl s n
  wr (setCtl s n { c with fifo := l, ovfSeen := c.ovfSeen && !l.isEmpty }) Reg.FBCn_RXSTS_COUNT l.length n

/-- Removes the head frame and releases the lock (R241). -/
def popFifo (s : State) (n : Fin 24) : State := wr (setFifo s n ((ctl s n).fifo.drop 1)) Reg.FBCn_RXSTS_LOCK 0 n

/-- Word `k` of the receive window (R241): word 0 of the head takes the read lock, its last word releases the lock and
removes the frame; 0 on an empty FIFO and beyond the last word. -/
def rxwin (s : State) (n : Fin 24) (k : Nat) : Nat × State :=
  match (ctl s n).fifo with
  | [] => (0, s)
  | f :: _ =>
    (if k ≤ rxLast f then rxWord f k else 0,
     if k = 0 then wr s Reg.FBCn_RXSTS_LOCK 1 n else if k = rxLast f then popFifo s n else s)

/-- The last word of the head frame. -/
def headLast (s : State) (n : Fin 24) : Nat :=
  match (ctl s n).fifo with
  | [] => 2
  | f :: _ => rxLast f

/-- RXWIN_HEAD_READ (R241). -/
def execRxwinHeadRead (n : Fin 24) (s : State) : Host.Outcome State Fault Refusal := .next (emitRead (rxwin s n 0))

/-- RXWIN_LAST_READ (R241). -/
def execRxwinLastRead (n : Fin 24) (s : State) : Host.Outcome State Fault Refusal :=
  .next (emitRead (rxwin s n (headLast s n)))

/-- RX_DISCARD (R241). -/
def execRxDiscard (n : Fin 24) (s : State) : Host.Outcome State Fault Refusal := .next (popFifo s n)

/-- A frame enters the FIFO, or is dropped with 64 held (R242). -/
def fifoPut (s : State) (n : Fin 24) (f : RxFrame) : State :=
  let c := ctl s n
  if c.fifo.length < 64 then setFifo s n (c.fifo ++ [f])
  else
    let s := bump s Reg.FBCn_RXSTS_RXOVF n
    if c.ovfSeen then s else event (setCtl s n { c with ovfSeen := true }) Ev.rxOverflow .warning []

/-! ### Expiry (R244) -/

/-- QUEUE_ENTRY_EXPIRY (R244): the entries whose expiry tick is reached end FAIL_BUDGET EXPIRED; a loaded one is
cancelled unless its frame has passed its commit point (`onWire`), and then ends so only if that attempt fails. -/
def queueExpiry (s : State) (n : Fin 24) (onWire : Option (Fin 3)) : State :=
  let c := ctl s n
  let old := c.queue.filter fun e => e.expiry ≤ s.tb.tick
  let s := setDepth (setCtl s n { c with queue := c.queue.filter fun e => s.tb.tick < e.expiry }) n
  let s := bump s Reg.FBCn_QSTS_EXPIRED n old.length
  let s := (List.finRange 3).foldl (fun s b =>
    let c := ctl s n
    match c.tb[b] with
    | some r => match r.expiry with
      | some x =>
        if x ≤ s.tb.tick then
          if onWire = some b ∧ c.sel = some b then
            setCtl s n { c with tb := c.tb.set b (some { r with cancel := true }) }
          else bump (endTx s n b CC.failBudget Rsn.expired) Reg.FBCn_QSTS_EXPIRED n
        else s
      | none => s
    | none => s) s
  settle (loadQueue s n) n

/-- QUEUE_ENTRY_EXPIRY. -/
def execQueueEntryExpiry (n : Fin 24) (onWire : Option (Fin 3)) (s : State) : Host.Outcome State Fault Refusal :=
  .next (queueExpiry s n onWire)

/-! ### Faults, SAVE and facet swaps (R245 to R247) -/

/-- A controller is retired (R245): every buffer and queue entry ends FAIL_RESOURCE_RETIRED, so do the copies of the
bus. -/
def ctlRetired (s : State) (n : Fin 24) : State :=
  let s := endAllTx s n CC.failResourceRetired 0
  let s := setCtl s n { ctl s n with sel := none, stopping := false }
  let s := endLink (showCtl s n) (.bus n) CC.failResourceRetired 0
  linkChange s ⟨.fieldbus, n.val⟩

/-- The active facet uses a bus (R390). -/
def busUsed (s : State) (n : Fin 24) : Bool :=
  match s.fct.active.bind fun f => f.buses[n.val]? with | some b => b.en | none => false

/-- FBC_PARITY_ERROR: the affected request ends PARITY, or the affected received frame is dropped and counted in RXOVF;
the controller becomes SUSPECT or is retired (R245, R391). -/
def fbcParity (s : State) (n : Fin 24) (tx : Option (Fin 3)) (rx : Option (Fin 64)) : State :=
  let s := match tx with
    | some b => endTx s n b CC.failTransientExhausted Rsn.parity
    | none => s
  let s := match rx with
    | some i =>
      let l := (ctl s n).fifo
      if i.val < l.length then
        let s := bump (setFifo s n (l.eraseIdx i.val)) Reg.FBCn_RXSTS_RXOVF n
        if i.val = 0 then wr s Reg.FBCn_RXSTS_LOCK 0 n else s
      else s
    | none => s
  let (s, dead) := upset s ⟨.fieldbus, n.val⟩ fun s =>
    let s := ctlRetired s n
    if busUsed s n then holdCause s .fieldbus else s
  if dead then s else settle (showFbc s) n

/-- FBC_PARITY_ERROR. -/
def execFbcParityError (n : Fin 24) (tx : Option (Fin 3)) (rx : Option (Fin 64)) (s : State) :
    Host.Outcome State Fault Refusal := .next (fbcParity s n tx rx)

/-- A stopped controller integrates again and resumes without a new probe (R246). -/
def resumeCtl (s : State) (n : Fin 24) : State :=
  let was := (ctl s n).stopped
  let s := setCtl s n { ctl s n with stopped := false, stopping := false }
  if was then goOn (linkChange (showCtl s n) ⟨.fieldbus, n.val⟩) n else s

/-- SAVE entry (R246, Table 10.5): a controller whose bit in the critical mask is 0 stops, once the frame that it sends is
off the wire; its other requests end FAIL_POWER now. The frame it has chosen is taken as on the wire until a loss of
arbitration, an error or a frame received shows otherwise: DESIGN CHOICE (log entry 77). At a facet swap in SAVE the new
mask is taken, by which a stopped controller may run again (R219). -/
def fbcSave (s : State) : State :=
  let mask := (s.fct.active.map Facet.fbcCrit).getD 0
  (List.finRange 24).foldl (fun s n =>
    let c := ctl s n
    if mask.getLsbD n.val then resumeCtl s n
    else if c.stopped || c.stopping then s
    else match c.sel with
      | none => stopCtl s n
      | some b =>
        let s := (List.finRange 3).foldl (fun s i => if i = b then s else endTx s n i CC.failPower 0) s
        setDepth (setCtl s n { ctl s n with queue := [], stopping := true }) n) s

/-- SAVE ends without a reset: the stopped controllers integrate again and resume without a new probe (R246). -/
def fbcResume (s : State) : State := (List.finRange 24).foldl resumeCtl s

/-- A bus record takes effect at a swap, or first in RECALL (R247): a change of more than TXORDER and CLASHN after the
frame on the wire. -/
def applyBus (s : State) (n : Fin 24) (b : BusRec) : State :=
  let c := ctl s n
  let was := match c.bus with | some o => o.en | none => false
  if !b.en then
    let s := if was then
        endLink (endAllTx s n CC.failCancelled Rsn.configChange) (.bus n) CC.failCancelled Rsn.configChange
      else s
    let c := ctl s n
    let s := setCtl s n { c with bus := some b, nextBus := none, sel := none, filters := c.filters.filter fun e => !e.2.offload }
    let s := wr (wr s Reg.FBCn_STATUS_PMODE 0 n) Reg.FBCn_STATUS_PROBE 0 n
    let s := showCtl s n
    if was then linkChange s ⟨.fieldbus, n.val⟩ else s
  else
    let waits := was && c.sel.isSome && (match c.bus with | some o => busChanged o b | none => false)
    if waits then setCtl s n { c with nextBus := some b } else takeBus s n b

/-- The bus records of a facet take effect (R217, R247). -/
def fbcFacet (s : State) (f : Facet) : State :=
  (List.finRange 24).foldl (fun s n => match f.buses[n.val]? with | some b => applyBus s n b | none => s) s

end Sys2Proof.Machine
end

