-- ==== Sys2Proof/Machine/Vertex.lean ====
section
/-! DEFINITION. The Vertex offload (R248 to R274, 11_vertex_protocol.md): what it receives on UDP and CAN, admission,
reports, acknowledgements, the emission of command copies, drop-out, and the receiver rules of a station. -/

namespace Sys2Proof.Machine

/-! ### Ports and sending -/

/-- The port record of a port, from the active facet (R275). -/
def portRec (s : State) (p : Fin 16) : Option PortRec := (s.fct.active.bind fun f => f.ports[p.val]?).filter (·.en)

/-- A port sends and receives: enabled, its link up, neither retired nor stopped (Table 12.2). -/
def portUp (s : State) (p : Fin 16) : Bool :=
  (portRec s p).isSome && rdB s Reg.NPCp_STATUS_LINK p.val && !linkRetired s (.port p) && !linkStopped s (.port p)

/-- The side whose addresses the unit uses: its own, and side A for a device with no partner (R277). -/
def addrSide (s : State) : Side := rdB s Reg.RDU_CFG_PAIRED && ownSide s

/-- An IPv4 address in IPv6-mapped form (R279). -/
def mapped4 (a : BitVec 32) : BitVec 128 := BitVec.ofNat 128 (0xFFFF * 2 ^ 32 + a.toNat)

/-- The unicast addresses of a port, IPv4 in mapped form (R277). -/
def ownIp4 (s : State) (r : PortRec) : BitVec 128 := mapped4 (if addrSide s then r.ip4B else r.ip4A)

/-- The IPv6 unicast address of a port (R277). -/
def ownIp6 (s : State) (r : PortRec) : BitVec 128 := if addrSide s then r.ip6B else r.ip6A

/-- An address in IPv4-mapped form. -/
def isIp4 (a : BitVec 128) : Bool := decide (a.extractLsb' 32 96 = 0xFFFF)

/-- The tag of the frames that a port sends (R278). -/
def portTag (r : PortRec) : Option (BitVec 16) := if r.vlanEn then some (BitVec.ofNat 16 r.vlan) else none

/-- A port takes a frame with this tag (R278). -/
def vlanOk (r : PortRec) (v : Option (BitVec 12)) : Bool := !r.vlanEn || decide (v = some (BitVec.ofNat 12 r.vlan))

/-- What a port puts into a frame that it sends to an address (R277, R278, R251). -/
def portSrc (s : State) (r : PortRec) (to_ : BitVec 128) : NetSrc :=
  ⟨if isIp4 to_ then ownIp4 s r else ownIp6 s r, if addrSide s then r.macB else r.macA,
    BitVec.ofNat 16 (vcfg s).udpPort, portTag r⟩

/-- The largest message a link carries (Table 11.5). -/
def linkLimit (s : State) (ep : Endpoint) : Nat :=
  match ep.link with
  | .bus n => if busClassic s n then 56 else 504
  | .port _ => min (vcfg s).maxFrame (if isIp4 ep.addr then 1472 else 1452)

/-- The identifier of a Vertex frame (Table 11.3). -/
def vIdent (prio : Nat) (toDevice : Bool) (side : Side) (member vertex sid : Nat) : BitVec 29 :=
  BitVec.ofNat 29 (prio * 2 ^ 26 + (if toDevice then 2 ^ 25 else 0) + (if side then 2 ^ 24 else 0) + member % 8 * 2 ^ 21
    + vertex % 2048 * 2 ^ 10 + sid % 1024)

/-- PRIO of a TYPE (R253). -/
def vPrio (typ : Nat) : Nat :=
  match typ with
  | 0x10 => 0 | 0x11 => 1 | 0x12 => 2 | 0x20 => 3 | 0x02 => 4 | 0x04 => 4 | _ => 5

/-- The segments of a message (R254), the last filled to a length that a DLC can give. -/
def segments (fd : Bool) (bytes : List Byte) : List (List Byte) :=
  let k := if fd then 63 else 7
  let cs := pieces k ((bytes.length + k - 1) / k) bytes
  cs.zipIdx.map fun (c, i) =>
    let d := BitVec.ofNat 8 (i % 8 + (if i + 1 = cs.length then 128 else 0)) :: c
    d ++ List.replicate (dlcLen true (dlcFor d.length) - d.length) 0

/-- Sends a message to an endpoint: a datagram from the own unicast address on a port that is up, segments into the queue
of a bus (R251, R254, R277), of 8 bytes unless the bus is known to run FD (R230; log entry 77). A message that needs more
than eight segments has no carriage and is not sent. -/
def vSend (s : State) (ep : Endpoint) (typ stream : Nat) (seq claim : BitVec 32) (session : BitVec 16)
    (body : List Byte) (v : Nat) (expiry : Nat) : State :=
  match ep.link with
  | .port p =>
    match portRec s p with
    | some r =>
      if portUp s p then
        emit s (.udp (portSrc s r ep.addr) ep typ
          ⟨1, BitVec.ofNat 16 stream, seq, claim, BitVec.ofNat 16 body.length, session, ep.addr⟩ body)
      else s
    | none => s
  | .bus n =>
    let fd := decide (rd s Reg.FBCn_STATUS_PMODE n = 1)
    let id := vIdent (vPrio typ) false (ownSide s) (ownMember s).val v 0
    let brs := fd && (match (ctl s n).bus with | some b => b.brs | none => false)
    let segs := segments fd (vMessage typ stream seq.toNat claim.toNat session.toNat body)
    if 8 < segs.length then s
    else segs.foldl (fun s d => offer s n ⟨⟨id, true, false, fd, brs, BitVec.ofNat 4 (dlcFor d.length), d⟩, expiry, v, seq, 0⟩) s

/-- The unit's claim as its messages carry it; a unit that holds none sends 0. -/
def myClaim (s : State) : BitVec 32 := s.rdu.claimHeld.getD 0

/-- Puts out a REJOIN. -/
def putRejoin (s : State) (ep : Endpoint) (stream vertex : Nat) : State :=
  vSend s ep 4 stream 0 (myClaim s) 0 [] vertex (s.tb.tick + (vcfg s).ackTo)

/-- Answers with a REJOIN, at most one a second to an endpoint or, on CAN, to the identifier of a VERTEX (R260); a unit
whose outputs are those of STANDBY sends it at phase 3 (R313). -/
def sendRejoin (s : State) (ep : Endpoint) (stream vertex : Nat) : State :=
  let key := match ep.link with | .bus _ => vertex | .port _ => 0
  let recent := s.npc.rejoined.filter fun e => s.tb.now < e.2.2 + 1000000000
  if recent.any fun e => sameSource e.1 ep && decide (e.2.1 = key) then s
  else
    let s := { s with npc := { s.npc with rejoined := recent ++ [(ep, key, s.tb.now)] } }
    if emitMode s = .standby then { s with npc := { s.npc with rejoins := s.npc.rejoins ++ [(ep, stream, vertex)] } }
    else putRejoin s ep stream vertex

/-! ### Receiving (R249 to R252, R260) -/

/-- Counts a dropped message. -/
def badMsg (s : State) : State := bump s Reg.NPC_VSUM_BADMSG

/-- The unit takes Vertex messages: not before its facet is restored, nor under BIST. -/
def vListens (s : State) : Bool := !(modeIs s = .recall || modeIs s = .test)

/-- The link of a message takes it, with the addresses and VLAN of the port record: on a port it comes to the group or to
the own unicast address (R251, R277, R278). -/
def linkTakes (s : State) (ep : Endpoint) (dst : BitVec 128) : Bool :=
  match ep.link with
  | .bus n => busRuns s n
  | .port p => portUp s p && (match portRec s p with
    | some r =>
      (if isIp4 ep.addr then r.ipv4 && (vcfg s).ipv4 && (decide (dst = mapped4 r.ip4Grp) || decide (dst = ownIp4 s r))
        else r.ipv6 && (vcfg s).ipv6 && (decide (dst = r.ip6Grp) || decide (dst = ownIp6 s r)))
        && (if r.vlanEn then decide (ep.vlan.toNat % 4096 = r.vlan % 4096) else true)
    | none => false)

/-- Source code and identifier of a message (R300); on a bus VERTEX of a JOIN's identifier is REQV's low bits (Table
11.3). -/
def vSource (s : State) (ep : Endpoint) (typ stream sid : Nat) (body : InBody) : Nat × Nat :=
  match ep.link with
  | .bus n =>
    let vertex := match body with | .join _ b => b.reqV.toNat | _ => stream
    (n.val, (vIdent (vPrio typ) true false (ownMember s).val (vertex % 2048) sid).toNat)
  | .port p => (32 + p.val, stream % 2 ^ 16 + typ * 2 ^ 16)

/-- Takes a message as an input, stamped at its receipt (R252, R301); one of a wrong VER or LEN is dropped and
counted. -/
def vTake (s : State) (ep : Endpoint) (stamp typ : Nat) (h : VHead) (len sid : Nat) (body : InBody) : State :=
  if vListens s && linkTakes s ep h.dst then
    let s := advance s stamp
    if h.ver ≠ 1 ∨ h.len.toNat ≠ len then badMsg s
    else
      let (src, id) := vSource s ep typ h.stream.toNat sid body
      submit s stamp src id body
  else match ep.link with
    | .port p => if vListens s && portUp s p then bump s Reg.NPCp_STATUS_DROPPED p.val else s
    | .bus _ => s

/-- The context a STREAM names: of the device's own member, bits 15:14 zero (Table 11.1). -/
def streamCtx (s : State) (stream : Nat) : Option (Nat × Ctx) :=
  if stream / 2048 = (ownMember s).val then (ctxOf s (stream % 2048)).map fun c => (stream % 2048, c) else none

/-- Takes a message of a session (R251, R260): one that names no admitted context or session is answered with REJOIN,
one from another endpoint is counted. A unit in RESYNC has no contexts of its own to judge by and takes it as it is.
-/
def vTakeSession (s : State) (ep : Endpoint) (stamp typ : Nat) (h : VHead) (len : Nat) (body : InBody) : State :=
  if !(vListens s && linkTakes s ep h.dst) ∨ h.ver ≠ 1 ∨ h.len.toNat ≠ len ∨ modeIs s = .resync then
    vTake s ep stamp typ h len 0 body
  else match streamCtx s h.stream.toNat with
    | some (_, c) =>
      if c.session ≠ h.session then sendRejoin (advance s stamp) ep h.stream.toNat (h.stream.toNat % 2048)
      else if !sameSource c.endpoint ep then badMsg (advance s stamp)
      else vTake s ep stamp typ h len 0 body
    | none => sendRejoin (advance s stamp) ep h.stream.toNat (h.stream.toNat % 2048)

/-- JOIN (R256): STATIONID 0 is no message of Table 11.2. -/
def execJoin (ep : Endpoint) (stamp : Nat) (h : VHead) (b : JoinBody) (s : State) : Host.Outcome State Fault Refusal :=
  .next (if b.stationId = 0 ∧ vListens s ∧ linkTakes s ep h.dst then badMsg (advance s stamp)
    else vTake s ep stamp 1 h 24 b.stationId.toNat (.join ep b))

/-- LEAVE (R259, R251). -/
def execLeave (ep : Endpoint) (stamp : Nat) (h : VHead) (stationId : BitVec 64) (s : State) :
    Host.Outcome State Fault Refusal :=
  .next (match s.npc.ctxs.find? (·.2.stationId = stationId) with
    | some (_, c) =>
      if !sameSource c.endpoint ep ∧ vListens s ∧ linkTakes s ep h.dst then badMsg (advance s stamp)
      else vTake s ep stamp 3 h 8 stationId.toNat (.leave ep stationId)
    | none => vTake s ep stamp 3 h 8 stationId.toNat (.leave ep stationId))

/-- CACK (R264). -/
def execCack (ep : Endpoint) (stamp : Nat) (h : VHead) (ackSeq : BitVec 32) (s : State) :
    Host.Outcome State Fault Refusal :=
  .next (vTakeSession s ep stamp 0x11 h 4 (.cack ep h.stream h.session ackSeq))

/-- REPORT (R261). -/
def execReport (ep : Endpoint) (stamp : Nat) (h : VHead) (ackSeq : BitVec 32) (elems : List Elem) (s : State) :
    Host.Outcome State Fault Refusal :=
  .next (vTakeSession s ep stamp 0x20 h (4 + blockLen elems.length)
    (.report ep h.stream h.session h.seq ackSeq elems))

/-- MISMATCH (R270). -/
def execMismatch (ep : Endpoint) (stamp : Nat) (h : VHead) (b : MismatchBody) (s : State) :
    Host.Outcome State Fault Refusal :=
  .next (vTakeSession s ep stamp 0x12 h 28 (.mismatch ep h.stream h.session b))

/-! ### Receiving on CAN (R237, R240, R253, R254) -/

/-- The endpoint of a bus; `id` tells stations apart where only the identifier does. -/
def busEp (n : Fin 24) : Endpoint := ⟨.bus n, 0, 0, 0, 0⟩

/-- A whole message off a bus. -/
def busMessage (s : State) (n : Fin 24) (id : BitVec 29) (stamp : Nat) (bytes : List Byte) (pad : Nat) : State :=
  match parseMsg bytes pad with
  | none => badMsg s
  | some m =>
    let ep := busEp n
    let h : VHead := ⟨1, BitVec.ofNat 16 m.stream, BitVec.ofNat 32 m.seq, 0, BitVec.ofNat 16 m.body.length,
      BitVec.ofNat 16 m.session, 0⟩
    let vertex := bitsOf id.toNat 10 11
    let input := fun (b : InBody) => submit (advance s stamp) stamp n.val id.toNat b
    let owned := fun (c : Ctx) (b : InBody) => if sameSource c.endpoint ep then input b else badMsg (advance s stamp)
    let session := fun (b : InBody) =>
      if modeIs s = .resync then input b
      else match streamCtx s m.stream with
        | some (_, c) => if c.session ≠ h.session then sendRejoin (advance s stamp) ep m.stream vertex else owned c b
        | none => sendRejoin (advance s stamp) ep m.stream vertex
    match m.typ with
    | 0x01 => input (.join ep (parseJoin m.body))
    | 0x03 =>
      let sid := BitVec.ofNat 64 (leAt m.body 0 8)
      match s.npc.ctxs.find? (·.2.stationId = sid) with
      | some (_, c) => owned c (.leave ep sid)
      | none => input (.leave ep sid)
    | 0x11 => session (.cack ep h.stream h.session (BitVec.ofNat 32 (leAt m.body 0 4)))
    | 0x12 => session (.mismatch ep h.stream h.session (parseMismatch m.body))
    | _ => session (.report ep h.stream h.session h.seq (BitVec.ofNat 32 (leAt m.body 0 4)) (parseElems m.body 4))

/-- The bytes by which a frame of a length may exceed what it carries: as many smaller lengths take the same DLC, so none
up to 8 (R254). -/
def dlcGap (d : Nat) : Nat := ((List.range d).filter fun n => dlcLen true (dlcFor n) = d).length

/-- A segment taken by the offload's filter (R254). -/
def segmentRx (s : State) (n : Fin 24) (f : CanFrame) (validNs : Nat) : State :=
  let c := ctl s n
  let d := frameData f
  let key := f.id.toNat
  let setParts := fun (s : State) (t : Tbl Partial) => setCtl s n { ctl s n with parts := t }
  match d with
  | [] => badMsg s
  | h :: rest =>
    let idx := h.toNat % 8
    let last := h.getLsbD 7
    let old := tget c.parts key
    let (s, pre) := match old with
      | some p => if idx = p.next then (s, some p.bytes)
        else (badMsg (setParts s (tdel c.parts key)), if idx = 0 then some [] else none)
      | none => if idx = 0 then (s, some []) else (badMsg s, none)
    match pre with
    | none => s
    | some b =>
      let bytes := b ++ rest
      if last then busMessage (setParts s (tdel (ctl s n).parts key)) n f.id validNs bytes
        (dlcGap d.length)
      else if idx = 7 then badMsg (setParts s (tdel (ctl s n).parts key))
      else setParts s (tput (ctl s n).parts key ⟨idx + 1, bytes, validNs⟩)

/-- Where a segment of a message of the device carries CLAIM (R254, Table 11.1): the first one of an FD frame, the second
one of a classic frame. -/
def claimAt (f : CanFrame) : Nat × Nat := if f.fdf then (0, 9) else (1, 2)

/-- A segment of a message of the other side of the same member that carries its claim: it is heard (R309). -/
def hearOnBus (s : State) (f : CanFrame) : State :=
  let id := f.id.toNat
  let d := frameData f
  let toStation := decide (bitsOf id 25 1 = 0)
  let other := decide (bitsOf id 24 1 = if ownSide s then 0 else 1)
  let (seg, off) := claimAt f
  if f.ide && toStation && other && decide (bitsOf id 21 3 = (ownMember s).val) && decide (off + 4 ≤ d.length)
      && decide (leAt d 0 1 % 8 = seg) then
    hearClaim s (BitVec.ofNat 32 (leAt d off 4))
  else s

/-- FRAME_RX (R237, R239 to R242): a frame valid at `validNs` whose start was detected at `sofNs`. -/
def frameRx (s : State) (n : Fin 24) (f : CanFrame) (esi : Bool) (sofNs validNs : Nat) : State :=
  if !busRuns s n then s
  else
    let s := advance s validNs
    let (s, rec) :=
      let r := rd s Reg.FBCn_ERR_REC n
      if r ≤ 127 then (s, r - 1)
      else let (k, s) := nextFree s; (s, 119 + (freeWord k).toNat % 9)
    let s := setEpass (wr s Reg.FBCn_ERR_REC rec n) n
    let s := hearOnBus s f
    let (t, s) := filtersAt s n sofNs
    let s := match filtTake t f with
      | none => bump s Reg.FBCn_RXSTS_UNMATCHED n
      | some (i, flt) =>
        if flt.offload then segmentRx s n f validNs
        else fifoPut s n ⟨f, esi, f.fdf, i, BitVec.ofNat 32 (sofNs / 10)⟩
    settle (freeWire s n) n

/-- FRAME_RX. -/
def execFrameRx (n : Fin 24) (f : CanFrame) (esi : Bool) (sofNs validNs : Nat) (s : State) :
    Host.Outcome State Fault Refusal := .next (frameRx s n f esi sofNs validNs)

/-- SEGMENT_TIMEOUT (R254): 10,000 nominal bit times, of 12.5 ns CAN clocks, after the last segment. -/
def segmentTimeout (s : State) (n : Fin 24) (id : BitVec 29) : State :=
  let c := ctl s n
  match tget c.parts id.toNat, c.bus with
  | some p, some b =>
    if p.last + 10000 * (b.nbrp * (1 + b.ntseg1 + b.ntseg2)) * 25 / 2 ≤ s.tb.now then
      badMsg (setCtl s n { c with parts := tdel c.parts id.toNat })
    else s
  | _, _ => s

/-- SEGMENT_TIMEOUT. -/
def execSegmentTimeout (n : Fin 24) (id : BitVec 29) (s : State) : Host.Outcome State Fault Refusal :=
  .next (segmentTimeout s n id)

/-! ### Admission (R256 to R259) -/

/-- The points of the running program bound to a context: element and point. -/
def boundPoints (s : State) (v : Nat) (out : Bool) : List (Nat × Nat) :=
  (((running s).map (·.points)).getD []).filterMap fun p =>
    match p.bind with
    | .vin w e => if !out ∧ w = v then some (e, p.num) else none
    | .vout w e => if out ∧ w = v then some (e, p.num) else none
    | _ => none

/-- Bytes of a CMD of `n` elements (Table 11.5). -/
def cmdLen (n : Nat) : Nat := 28 + 8 * n + (n + 1) / 2

/-- The profile of a session (R257). -/
structure Profile where
  maxFrame : Nat
  noutB : Nat
  ninB : Nat
  rpTicks : Nat

/-- Negotiates a profile (Table 11.5). -/
def negotiate (s : State) (v : Nat) (ep : Endpoint) (b : JoinBody) : Profile :=
  let c := vcfg s
  let rp := (b.rpus.toNat * 1000 + tickNs s - 1) / tickNs s
  { maxFrame := min b.maxRx.toNat (linkLimit s ep), noutB := min b.nout.toNat (boundPoints s v true).length,
    ninB := (boundPoints s v false).length, rpTicks := max c.rpMin (min c.rpMax rp) }

/-- The frame size check of Table 11.5. -/
def frameFits (p : Profile) : Bool := decide (48 ≤ p.maxFrame ∧ cmdLen p.noutB ≤ p.maxFrame)

/-- SESSION of an admission at the present tick (R258). -/
def sessionNow (s : State) : BitVec 16 :=
  let t := BitVec.ofNat 16 s.tb.tick
  if t = 0 then 1 else t

/-- The most elements a frame carries. -/
def elemCap (maxFrame : Nat) : Nat := ((List.range 256).filter fun n => cmdLen n ≤ maxFrame).length - 1

/-- Shows in TRUNC whether bound outputs do not fit the frame, and records that they do not (Table 11.8). -/
def showTrunc (s : State) (v want n : Nat) : State :=
  if n < want then event (wr s Reg.NPC_VSTS_TRUNC 1 v) Ev.vertexTrunc .warning [streamId s v, want - n]
  else wr s Reg.NPC_VSTS_TRUNC 0 v

/-- The context an admission makes, and its status word. A re-admission is not refused for its frame size (Table 11.4),
so outputs that do not fit are not sent, as at an online change: DESIGN CHOICE (log entry 98). -/
def placeCtx (s : State) (v : Nat) (ep : Endpoint) (b : JoinBody) : State :=
  let p := negotiate s v ep b
  let n := min p.noutB (elemCap p.maxFrame)
  let ses := sessionNow s
  let c : Ctx :=
    { stationId := b.stationId, endpoint := ep, maxFrame := p.maxFrame, rpTicks := p.rpTicks, noutB := n,
      ninB := p.ninB, reqOut := b.nout.toNat, session := ses, lastSeq := 0, lastAck := 0,
      lastReport := (ctxOf s v).bind (·.lastReport), missFrom := s.tb.tick, lastCmd := s.tb.tick, lastElems := [],
      copies := [], run := none, missMax := (vcfg s).missMax, changed := false, mmSeen := false }
  let s := setCtx s v c
  let l := match ep.link with | .port p => (0, p.val) | .bus n => (1, n.val)
  let s := [(Reg.NPC_VSTS_MSTATE, 0), (Reg.NPC_VSTS_ADM, 1), (Reg.NPC_VSTS_REACH, 1), (Reg.NPC_VSTS_MED, l.1),
    (Reg.NPC_VSTS_LINK, l.2), (Reg.NPC_VSTS_SESSION, ses.toNat), (Reg.NPC_VCNT0_DONE, 0),
    (Reg.NPC_VCNT1_RETRY, 0), (Reg.NPC_VCNT2_UNREACH, 0), (Reg.NPC_VCNT3_OTHER, 0)].foldl
      (fun s e => wr s e.1 e.2 v) s
  showTrunc (setVsum (showCtx s v)) v p.noutB n

/-- The JOIN_ACK of an outcome: a refusal carries SESSION 0 and assigns nothing (R258). -/
def ackOf (s : State) (b : JoinBody) (result : Nat) (v : Option Nat) : JoinAckBody :=
  let c := vcfg s
  let x := v.bind (ctxOf s)
  { stationId := b.stationId, result := BitVec.ofNat 8 result, ver := if x.isSome then 1 else 0,
    stream := BitVec.ofNat 16 (match v with | some v => streamId s v | none => 0),
    maxFrame := (x.map (·.maxFrame)).getD 0, rpTicks := (x.map (·.rpTicks)).getD 0, tickNs := tickNs s, cw := c.cw,
    ackTo := c.ackTo, retry := c.retry, noutB := (x.map (·.noutB)).getD 0, ninB := (x.map (·.ninB)).getD 0,
    session := (x.map (·.session)).getD 0 }

/-- Table 11.4 for a STATIONID not admitted: the refusal's reason and RESULT, or the context it gets. -/
def admitCheck (s : State) (ep : Endpoint) (b : JoinBody) : Sum (Nat × Nat) Nat :=
  let any := b.reqV = 0xFFFF
  let req := b.reqV.toNat
  if 2048 ≤ s.npc.ctxs.length then .inl (Rsn.admitFull, 1)
  else if (!any && decide (2047 < req)) || (any && !(vcfg s).admitAny) then .inl (Rsn.admitRange, 5)
  else if !any && (ctxOf s req).isSome then .inl (Rsn.admitBusy, 2)
  else
    let v := if any then ((List.range 2048).find? fun v => (ctxOf s v).isNone).getD 0 else req
    if !(b.verMin.toNat ≤ 1 && 1 ≤ b.verMax.toNat) then .inl (Rsn.admitVersion, 3)
    else if !frameFits (negotiate s v ep b) then .inl (Rsn.admitFrame, 4)
    else .inr v

/-- Reports an admission in the ring (R258). -/
def admitEntry (s : State) (ep : Endpoint) (b : JoinBody) (stream code rsn ses : Nat) : State :=
  ringPut s { stream := stream, kind := 2, code := code, rsn := rsn, link := linkByte ep.link, seq := ses,
              sid := b.stationId.toNat }

/-- Decides a JOIN (R256, Table 11.4): the state and the answer. -/
def admitJoin (s : State) (ep : Endpoint) (b : JoinBody) : State × JoinAckBody :=
  match s.npc.ctxs.find? (·.2.stationId = b.stationId) with
  | some (v, _) =>
    let s := endCopies s v CC.failCancelled Rsn.rejoined
    let s := match ctxOf s v with | some c => (match c.run with | some r => writeRun s v c r | none => s) | none => s
    let s := placeCtx s v ep b
    (admitEntry s ep b (streamId s v) CC.done Rsn.rejoined (sessionNow s).toNat, ackOf s b 0 (some v))
  | none =>
    match admitCheck s ep b with
    | .inl (rsn, res) =>
      let s := event s Ev.admitRefused .warning (lowHigh b.stationId.toNat ++ [b.reqV.toNat, rsn])
      (admitEntry s ep b 0 CC.failRefused rsn 0, ackOf s b res none)
    | .inr v =>
      let s := placeCtx s v ep b
      (admitEntry s ep b (streamId s v) CC.done 0 (sessionNow s).toNat, ackOf s b 0 (some v))

/-! ### Agreed inputs (R256 to R271) -/

/-- What the inputs of one set have shown so far: the JOINs answered and the REPORTs taken. -/
structure SetSeen where
  joins : List (BitVec 64 × JoinAckBody)
  reports : List (Nat × BitVec 32)

/-- An agreed ACKSEQ (R264, Table 11.6). -/
def ackCopies (s : State) (v : Nat) (a : BitVec 32) : State :=
  match ctxOf s v with
  | none => s
  | some c =>
    let s := c.copies.foldl (fun s k =>
      if k.seq = a then endCopy s v k.seq (if k.retries = 0 then CC.done else CC.doneAfterRetry) 0
      else if newer32 a k.seq then endCopy s v k.seq CC.done Rsn.superseded
      else s) s
    let s := match ctxOf s v with | some c => setCtx s v { c with lastAck := a } | none => s
    reachable s v

/-- A report's value of a bound input point (R261). -/
def reportQual (q : BitVec 3) : Qual :=
  match q.toNat with | 0 => .good | 3 => .substituted | _ => .bad

/-- An agreed REPORT (R261): its elements become the bound input points. -/
def takeReport (s : State) (v : Nat) (c : Ctx) (elems : List Elem) : State :=
  let s := (boundPoints s v false).foldl (fun s (e, p) =>
    if e < c.ninB then
      match elems[e]? with
      | some x => produce s p x.value (reportQual x.qual)
      | none =>
        let old := ((tget s.csa.img p).map (·.value)).getD 0
        produce s p old .bad
    else s) s
  match ctxOf s v with
  | some c => setCtx s v { c with lastReport := some s.tb.tick, missFrom := s.tb.tick }
  | none => s

/-- An agreed MISMATCH (R270, R309). -/
def takeMismatch (s : State) (v : Nat) (c : Ctx) (b : MismatchBody) : State :=
  let s := wr (bump s Reg.NPC_VMM_MMCNT v) Reg.NPC_VSTS_MM 1 v
  let e : REntry :=
    { stream := streamId s v, kind := 3, code := CC.done, rsn := 0, link := linkByte c.endpoint.link,
      seq := b.seq.toNat, claimA := b.claimActed.toNat, claimB := b.claimLater.toNat, digA := b.digestActed.toNat,
      digB := b.digestLater.toNat }
  let s := ringPut s e
  let s := if c.mmSeen then s
    else event (setCtx s v { c with mmSeen := true }) Ev.streamMismatch .warning
      [streamId s v, b.seq.toNat, b.claimActed.toNat, b.claimLater.toNat]
  match s.rdu.claimHeld with
  | none => s
  | some h =>
    let s := if b.claimActed ≠ h then hearClaim s b.claimActed else s
    if b.claimLater ≠ h then hearClaim s b.claimLater else s

/-- The end of a context command. -/
def vcmdEnd (s : State) (code rsn : Nat) : State :=
  setStatus s Reg.NPC_VCMDSTS_CC Reg.NPC_VCMDSTS_RSN Reg.NPC_VCMDSTS_PEND
    code rsn

/-- A context command takes effect (R274): its outcome. -/
def vcmdApply (s : State) (b : InBody) : State × Nat × Nat :=
  match b with
  | .release v => if (ctxOf s v).isSome then (freeCtx s v, CC.done, 0) else (s, CC.failRefused, Rsn.notAdmitted)
  | .clearMm v => match ctxOf s v with
    | some c => (setCtx (wr s Reg.NPC_VMM_MMCNT 0 v) v { c with mmSeen := false }, CC.done, 0)
    | none => (s, CC.failRefused, Rsn.notAdmitted)
  | _ => (s, CC.done, 0)

/-- The context of a session an agreed message names, the message being from its endpoint (R251). -/
def sessionCtx (s : State) (ep : Endpoint) (stream session : BitVec 16) : Option (Nat × Ctx) :=
  (streamCtx s stream.toNat).filter fun e => decide (e.2.session = session) && sameSource e.2.endpoint ep

/-- One agreed Vertex input takes effect at its edge. -/
def vertexInput (s : State) (seen : SetSeen) (i : Input) : State × SetSeen :=
  match i.body with
  | .join ep b =>
    match seen.joins.find? (·.1 = b.stationId) with
    | some (_, ack) =>
      let s := { s with npc := { s.npc with acks := s.npc.acks ++ [(ep, ack)] } }
      (admitEntry s ep b ack.stream.toNat CC.done Rsn.duplicate ack.session.toNat, seen)
    | none =>
      let (s, ack) := admitJoin s ep b
      ({ s with npc := { s.npc with acks := s.npc.acks ++ [(ep, ack)] } },
        { seen with joins := seen.joins ++ [(b.stationId, ack)] })
  | .leave ep sid =>
    (match s.npc.ctxs.find? (·.2.stationId = sid) with
      | some (v, c) => if sameSource c.endpoint ep then freeCtx s v else s
      | none => s, seen)
  | .cack ep st ses a =>
    (match sessionCtx s ep st ses with | some (v, _) => ackCopies s v a | none => s, seen)
  | .report ep st ses q a el =>
    match sessionCtx s ep st ses with
    | some (v, c) =>
      if seen.reports.contains (v, q) then (s, seen)
      else (ackCopies (takeReport s v c el) v a, { seen with reports := seen.reports ++ [(v, q)] })
    | none => (s, seen)
  | .mismatch ep st ses b =>
    (match sessionCtx s ep st ses with | some (v, c) => takeMismatch s v c b | none => s, seen)
  | .release v =>
    let r := vcmdApply s (.release v)
    (if mine s i then vcmdEnd r.1 r.2.1 r.2.2 else r.1, seen)
  | .clearMm v =>
    let r := vcmdApply s (.clearMm v)
    (if mine s i then vcmdEnd r.1 r.2.1 r.2.2 else r.1, seen)
  | _ => (s, seen)

/-- The Vertex inputs of an agreed set, in agreed order; MM shows the mismatches of this edge alone (R270), and the
JOIN_ACKs of an edge before that was not emitted at are none of this one's (R258). -/
def vertexInputs (s : State) (l : List Input) : State :=
  let s := { s with npc := { s.npc with acks := [] } }
  let s := s.npc.ctxs.foldl (fun s e => wr s Reg.NPC_VSTS_MM 0 e.1) s
  (l.foldl (fun (a : State × SetSeen) i => vertexInput a.1 a.2 i) (s, ⟨[], []⟩)).1

/-! ### Host context commands (R274) -/

/-- A context command as written: BUSY, BAD_MODE, at once in HALT, else agreed (R84, R274); whether its context is
admitted is seen where it takes effect, which an earlier input of its set may have brought about (Table 11.8). -/
def vcmd (s : State) (b : InBody) : State :=
  if rdB s Reg.NPC_VCMDSTS_PEND then
    wr (wr s Reg.NPC_VCMDSTS_CC CC.failRefused) Reg.NPC_VCMDSTS_RSN Rsn.busy
  else match modeIs s with
    | .recall => vcmdEnd s CC.failRefused Rsn.badMode
    | .test => vcmdEnd s CC.failRefused Rsn.badMode
    | .resync => vcmdEnd s CC.failRefused Rsn.badMode
    | .save => vcmdEnd s CC.failRefused Rsn.badMode
    | m =>
      if m = .halt then let r := vcmdApply s b; vcmdEnd r.1 r.2.1 r.2.2
      else
        submitHost (wr s Reg.NPC_VCMDSTS_PEND 1) Reg.NPC_VCMD_CMD b

/-- VCMD_RELEASE. -/
def execVcmdRelease (v : Fin 2048) (s : State) : Host.Outcome State Fault Refusal := .next (vcmd s (.release v.val))

/-- CLEARMM. -/
def execClearmm (v : Fin 2048) (s : State) : Host.Outcome State Fault Refusal := .next (vcmd s (.clearMm v.val))

/-! ### Emission (R258, R262 to R264, R212) -/

/-- The safe value of a point (R212). -/
def safeValue (s : State) (p : Nat) : Option Word :=
  (s.fct.active.bind fun f => f.safe.find? (·.1 = p)).map (·.2)

/-- The bound output elements of a context as an emission carries them (R262, R83); in SAFEHOLD the safe values of R212,
and an element withheld as 0, BAD. -/
def outElems (s : State) (img : Tbl PSlot) (v : Nat) (c : Ctx) : List Elem :=
  let pts := boundPoints s v true
  (List.range c.noutB).map fun e =>
    match pts.find? (·.1 = e) with
    | none => ⟨0, BitVec.ofNat 3 (qualCode .bad)⟩
    | some (_, p) =>
      if emitMode s = .safehold then
        match safeValue s p with
        | some x => ⟨x, 0⟩
        | none => ⟨0, BitVec.ofNat 3 (qualCode .bad)⟩
      else
        let x := (tget img p).getD freshPoint
        ⟨x.value, BitVec.ofNat 3 (qualCode x.qual)⟩

/-- Sends one copy. -/
def sendCopy (s : State) (v : Nat) (c : Ctx) (k : Copy) : State :=
  vSend s c.endpoint 0x10 (streamId s v) k.seq k.claim c.session (cmdBody k.elems) v (s.tb.tick + k.ackTo)

/-- The link of a context carries new copies: enabled and not stopped (R246, R247, Table 12.2). -/
def linkEnabled (s : State) (l : Link) : Bool :=
  match l with
  | .port p => (portRec s p).isSome
  | .bus n => match (ctl s n).bus with | some b => b.en | none => false

/-- The bound outputs of every context at an edge, as the snapshot of the edge shows them, and whether the commits of
the tick before changed one (R262): the first ones of a session change nothing. -/
def noteElems (s : State) : State :=
  s.npc.ctxs.foldl (fun s (v, c) =>
    let el := outElems s s.csa.snap.img v c
    setCtx s v { c with lastElems := el, changed := decide (c.lastElems ≠ el) && decide (c.lastElems ≠ []) }) s

/-- A context at the emission phase of tick k: a new copy for a change, the period or the first tick after admission,
else a retry of the newest copy that is due (R262 to R264). `send` is false where a resyncing unit follows what the
ACTIVE unit emitted in a tick that it has not executed itself (R263, R318). -/
def emitCtx (s : State) (k : Nat) (send : Bool) (v : Nat) : State :=
  match ctxOf s v with
  | none => s
  | some c =>
    let l := c.endpoint.link
    if linkStopped s l || !linkEnabled s l then s
    else
      let reach := rdB s Reg.NPC_VSTS_REACH v
      let period := decide (c.lastCmd + c.rpTicks ≤ k)
      let first := decide (c.lastSeq = 0 ∧ k = c.lastCmd + 1)
      let fresh := period || (reach && (first || c.changed))
      if fresh then
        let cp : Copy := ⟨c.lastSeq + 1, myClaim s, k, 0, c.lastElems, (vcfg s).ackTo, (vcfg s).retry⟩
        let c := { c with lastSeq := cp.seq, lastCmd := k, copies := c.copies ++ [cp] }
        let s := setCtx s v c
        if linkRetired s l then endCopy s v cp.seq CC.failResourceRetired 0
        else if send then sendCopy s v c cp else s
      else
        match c.copies.find? (·.seq = c.lastSeq) with
        | some cp =>
          let d := k - cp.first
          if reach && decide (0 < d ∧ 0 < cp.ackTo ∧ d % cp.ackTo = 0 ∧ d / cp.ackTo ≤ cp.retry) then
            let cp' := { cp with retries := cp.retries + 1 }
            let c := { c with copies := c.copies.map fun x => if x.seq = cp.seq then cp' else x }
            let s := setCtx s v c
            if send then sendCopy s v c cp' else s
          else s
        | none => s

/-- The emission phase (R258, R260, R262): the JOIN_ACKs of this edge and the REJOINs that wait, then the copies. -/
def emitPhase (s : State) : State :=
  match s.rdu.claimHeld with
  | none => s
  | some _ =>
    let acks := s.npc.acks
    let rejoins := s.npc.rejoins
    let s := { s with npc := { s.npc with acks := [], rejoins := [] } }
    let s := acks.foldl (fun s (ep, a) =>
      vSend s ep 2 a.stream.toNat 0 (myClaim s) a.session (joinAckBytes a) (a.stream.toNat % 2048)
        (s.tb.tick + (vcfg s).ackTo)) s
    let s := rejoins.foldl (fun s (ep, stream, vertex) => putRejoin s ep stream vertex) s
    s.npc.ctxs.foldl (fun s e => emitCtx s s.tb.tick true e.1) s

/-- What the ACTIVE unit's emission in tick k does to the contexts, as a unit that resyncs follows it (R263, R318). -/
def followEmission (s : State) (k : Nat) : State := s.npc.ctxs.foldl (fun s e => emitCtx s k false e.1) s

/-- COPY_TIMEOUT (R264, R271): every copy unended at tick e + (RETRY + 1) × ACKTO ends FAIL_PEER_UNREACHABLE. -/
def copyTimeout (s : State) (v : Nat) : State :=
  match ctxOf s v with
  | none => s
  | some c =>
    let due := c.copies.filter fun k => k.first + (k.retry + 1) * k.ackTo ≤ s.tb.tick
    if due.isEmpty then s
    else unreachable (due.foldl (fun s k => endCopy s v k.seq CC.failPeerUnreachable 0) s) v

/-- COPY_TIMEOUT. -/
def execCopyTimeout (v : Fin 2048) (s : State) : Host.Outcome State Fault Refusal := .next (copyTimeout s v.val)

/-- REPORT_MISS (R271): suspended in SAVE on a stopped link. -/
def reportMiss (s : State) (v : Nat) : State :=
  match ctxOf s v with
  | none => s
  | some c =>
    if !linkStopped s c.endpoint.link && decide (c.missFrom + c.missMax * c.rpTicks ≤ s.tb.tick) then
      unreachable s v
    else s

/-- REPORT_MISS. -/
def execReportMiss (v : Fin 2048) (s : State) : Host.Outcome State Fault Refusal := .next (reportMiss s v.val)

/-! ### Changes of mode and binding (Table 11.8) -/

/-- SAVE entry: unended copies on stopped links end FAIL_POWER and their contexts read STALE. -/
def vertexSave (s : State) : State :=
  s.npc.ctxs.foldl (fun s (v, c) =>
    if linkStopped s c.endpoint.link then showCtx (endCopies s v CC.failPower 0) v else s) s

/-- SAVE ends: R271, suspended on the links that it stopped, goes on where it stood at SAVE entry. -/
def missResume (s : State) : State :=
  s.npc.ctxs.foldl (fun s (v, c) =>
    if linkOut s c.endpoint.link then
      setCtx s v { c with missFrom := c.missFrom + (s.tb.tick - max s.ssu.saveTick c.missFrom) }
    else s) s

/-- SAVE ends: the contexts of the links that it stopped read GOOD again; session and SEQ continue. -/
def vertexResume (s : State) : State := s.npc.ctxs.foldl (fun s e => showCtx s e.1) s

/-- An online change: NOUTB and NINB from the new binding; what does not fit is not sent (Table 11.8). -/
def vertexRebind (s : State) : State :=
  s.npc.ctxs.foldl (fun s (v, _) =>
    match ctxOf s v with
    | none => s
    | some c =>
      let want := min c.reqOut (boundPoints s v true).length
      let n := min want (elemCap c.maxFrame)
      showTrunc (setCtx s v { c with noutB := n, ninB := (boundPoints s v false).length }) v want n) s

/-! ### The receiver of a command stream (R267 to R269) -/

/-- A receiver of the station. -/
def recvOf (s : State) (sid : BitVec 64) : Option Recv := s.recvs.find? (·.stationId = sid)

/-- Stores a receiver. -/
def setRecv (s : State) (r : Recv) : State :=
  { s with recvs := (s.recvs.filter (·.stationId ≠ r.stationId)) ++ [r] }

/-- A copy of a station's stream (R267): the receiver's new state, its CACK and its MISMATCH. -/
def recvCopy (r : Recv) (c : CmdCopy) (now : Nat) : Recv × Option (BitVec 32) × Option MismatchBody :=
  let heard := ((r.heard.filter (·.1 ≠ c.claim)) ++ [(c.claim, now)]).filter fun e => now ≤ e.2 + r.cw * r.tickNs
  let r := { r with heard := heard, lastCmd := now }
  let hc := heard.foldl (fun m e => max m e.1.toNat) 0
  if newer32 c.seq r.last then
    if c.claim.toNat = hc ∨ c.claim.toNat + 1 = hc then
      let hist := (r.hist ++ [(c.seq, c.claim, c.digest)])
      let hist := hist.drop (hist.length - 8)
      ({ r with last := c.seq, hist := hist, safe := false, acted := c.elems,
                mmSent := r.mmSent.filter fun q => hist.any (·.1 = q) }, some c.seq, none)
    else ({ r with lowClaim := r.lowClaim + 1 }, none, none)
  else match r.hist.find? (·.1 = c.seq) with
    | some (q, cl, dg) =>
      let bad := decide (dg ≠ c.digest) && !r.mmSent.contains q
      (if bad then { r with mmSent := r.mmSent ++ [q] } else r, if c.claim = cl then some r.last else none,
        if bad then some ⟨q, cl, c.claim, dg, c.digest⟩ else none)
    | none => ({ r with late := r.late + 1 }, none, none)

/-- CMD_COPY (R267). -/
def cmdCopy (s : State) (sid : BitVec 64) (c : CmdCopy) (now : Nat) : State :=
  match recvOf s sid with
  | none => s
  | some r =>
    if c.stream ≠ r.stream ∨ c.session ≠ r.session then s
    else
      let (r, ack, mm) := recvCopy r c now
      let s := setRecv s r
      let s := match mm with | some b => emit s (.mismatch r.stream r.session b) | none => s
      match ack with
      | some a => emit s (.cack r.stream r.session a)
      | none => s

/-- CMD_COPY. -/
def execCmdCopy (stationId : BitVec 64) (c : CmdCopy) (now : Nat) (s : State) : Host.Outcome State Fault Refusal :=
  .next (cmdCopy s stationId c now)

/-- JOIN_ACK (R267): a station accepts one with RESULT 0 for its STATIONID; its stream state is cleared. -/
def execJoinAck (stationId : BitVec 64) (b : JoinAckBody) (s : State) : Host.Outcome State Fault Refusal :=
  .next (if b.stationId = stationId ∧ b.result = 0 then
      setRecv s { stationId := stationId, stream := b.stream, session := b.session, last := 0, hist := [], heard := [],
                  mmSent := [], safe := ((recvOf s stationId).map (·.safe)).getD false, lastCmd := s.tb.now,
                  rpTicks := b.rpTicks, cw := b.cw, tickNs := b.tickNs, lowClaim := 0, late := 0, acted := [] }
    else s)

/-- RECEIVER_SAFE_STATE (R269): no CMD of the session for RPTICKS + CW ticks. -/
def execReceiverSafeState (stationId : BitVec 64) (now : Nat) (s : State) : Host.Outcome State Fault Refusal :=
  .next (match recvOf s stationId with
    | some r => if r.lastCmd + (r.rpTicks + r.cw) * r.tickNs ≤ now then setRecv s { r with safe := true } else s
    | none => s)

end Sys2Proof.Machine
end

