-- ==== Sys2Proof/Machine/Tbc.lean ====
section
/-! DEFINITION. The time base and its sources (R26 to R44, 02_tick_and_time_base.md), PTP on the ports (R281, R282), and
the start wait of R387. -/

namespace Sys2Proof.Machine

/-! ### Reading and stepping the time base -/

/-- The low word of `TBC_TICKNO` or `TBC_TIME`, its high word being latched (R44). -/
def timeLoRead (s : State) (tickno : Bool) : Nat × State :=
  if tickno then
    (s.tb.tick % 2 ^ 32, wr (wr s Reg.TBC_TICKNO_LO_TICKNO s.tb.tick) Reg.TBC_TICKNO_HI_TICKNO (s.tb.tick / 2 ^ 32))
  else (s.tb.now % 2 ^ 32, wr (wr s Reg.TBC_TIME_LO_TIME s.tb.now) Reg.TBC_TIME_HI_TIME (s.tb.now / 2 ^ 32))

/-- TIME_LO_READ (R44). -/
def execTimeLoRead (tickno : Bool) (s : State) : Host.Outcome State Fault Refusal :=
  .next (emitRead (timeLoRead s tickno))

/-- OFFSET as shown: signed ns, saturating (Table 2.7). -/
def showOffset (s : State) (off : Int) : State :=
  wr s Reg.TBC_OFFSET_OFFSET (patternOf 32 (max (-(2 ^ 31 - 1)) (min (2 ^ 31 - 1) off)))

/-- The offset of a source at which stepping begins in RECALL and HALT: the qualification bound of R35. R27 gives no
least offset for a step: DESIGN CHOICE (log entry 52). -/
def stepBound : Int := 1000

/-! ### Sources (R34 to R37) -/

/-- A port is the PTP slave port (R281). -/
def ptpSlave (s : State) (p : Fin 16) : Bool :=
  rdB s Reg.TBC_DISC_PTPEN && decide (rd s Reg.TBC_DISC_PTPPORT = p.val)

/-- The PTP source is lost (R35). -/
def ptpLost (s : State) : State :=
  let s := { wr s Reg.TBC_DSTS_PTPQ 0 with tb := { s.tb with ptpGood := none } }
  let s := { s with npc := { s.npc with ptp := { s.npc.ptp with sync := none, ms := none, req := none } } }
  let p := rd s Reg.TBC_DISC_PTPPORT
  if rd s Reg.NPCp_STATUS_PTPST p = 2 then wr s Reg.NPCp_STATUS_PTPST 1 p else s

/-- PTP_SOURCE_LOST. -/
def execPtpSourceLost (s : State) : Host.Outcome State Fault Refusal := .next (ptpLost s)

/-- The Apex source is lost (R35); one in use is taken back only after QUALTIME (R36). -/
def apexLoss (s : State) : State :=
  let used := decide (rd s Reg.TBC_DSTS_SRC = 2)
  { wr s Reg.TBC_DSTS_APEXQ 0 with tb := { s.tb with apexLost := s.tb.apexLost || used, apexBack := none } }

/-- APEX_SOURCE_LOST (R35, R325): the source counts as missing only when no link brings markers. -/
def execApexSourceLost (s : State) : Host.Outcome State Fault Refusal :=
  .next (if (List.range 4).any (brings s) then s else apexLoss s)

/-- The Apex source qualifies (R35); after a loss its QUALTIME runs from here. -/
def apexQualify (s : State) : State :=
  let back := if s.tb.apexLost && !rdB s Reg.TBC_DSTS_APEXQ then some s.tb.now else s.tb.apexBack
  { wr s Reg.TBC_DSTS_APEXQ 1 with tb := { s.tb with apexBack := back } }

/-- QUALTIME in ns, 0 being taken as 1 s (Table 2.5). -/
def qualNs (s : State) : Nat := max 1 (rd s Reg.TBC_DISC_QUALTIME) * 10 ^ 9

/-- The Apex source may be selected: it was not lost, or QUALTIME has run since it qualified again (R36). -/
def apexReady (s : State) : Bool :=
  rdB s Reg.TBC_DSTS_APEXQ && (!s.tb.apexLost || (match s.tb.apexBack with
    | some t => decide (t + qualNs s ≤ s.tb.now)
    | none => false))

/-- A source (1 PTP, 2 Apex) is disqualified. -/
def disqualify (s : State) (src : Nat) : State := if src = 2 then apexLoss s else ptpLost s

/-- An offset beyond 1 ms in a running mode disqualifies a source until a STOP to HALT (R27); its event is recorded
once. -/
def blockSource (s : State) (src : Nat) : State :=
  let was := if src = 2 then s.tb.blockedApex else s.tb.blockedPtp
  let s := disqualify s src
  let s := { s with tb := { s.tb with
    blockedApex := s.tb.blockedApex || decide (src = 2), blockedPtp := s.tb.blockedPtp || decide (src ≠ 2) } }
  let s := wr s Reg.TBC_DSTS_STEPBLK 1
  if was then s else event s Ev.timeStepBlocked .warning []

/-- Follows a source at an offset as R26 allows: one whose correction would exceed 100 ppm is disqualified, and the rate
takes that of the selected one. -/
def followSource (s : State) (src : Nat) (off : Int) : State :=
  let (ref, slew, t) := neededRate s off
  if 100000 < (ref + slew).natAbs then disqualify t src
  else if rd s Reg.TBC_DSTS_SRC = src then setRate t ref slew
  else t

/-- A measured offset of a source (1 PTP, 2 Apex), shown while it is selected. In RECALL and HALT, to the selected
source or one ranked above it, the time base is stepped; in every other mode, the running modes, a source beyond 1 ms
is blocked. Which modes are running and to which source a step is made are DESIGN CHOICES (log entry 52). -/
def sourceOffset (s : State) (src : Nat) (off : Int) : State :=
  let sel := rd s Reg.TBC_DSTS_SRC
  let s := if sel = src then showOffset s off else s
  if mayStep s then
    if stepBound ≤ off.natAbs ∧ sel ≤ src then
      let s := followSource s src 0
      setTime s (s.tb.now + off).toNat
    else followSource s src off
  else if 1000000 < off.natAbs then blockSource s src
  else followSource s src off

/-- The source the rank of R34 gives; STANDBY and RESYNC align to the partner (R33). -/
def bestSource (s : State) : Nat :=
  if modeIs s = .standby ∨ modeIs s = .resync then 3
  else if rdB s Reg.TBC_DISC_APEXEN && decide (ownMember s ≠ 0) && apexReady s then 2
  else if rdB s Reg.TBC_DISC_PTPEN && rdB s Reg.TBC_DSTS_PTPQ then 1
  else 0

/-- A switch of source at a tick edge (R36). HOLDOVER reads 1 from every switch to the local source, one that follows no
loss included: DESIGN CHOICE (log entry 53). -/
def sourceEdge (s : State) : State :=
  let old := rd s Reg.TBC_DSTS_SRC
  let new := bestSource s
  if new = old then s
  else
    let s := wrB (wr s Reg.TBC_DSTS_SRC new) Reg.TBC_DSTS_HOLDOVER (decide (new = 0))
    let s := if new = 0 then wr s Reg.TBC_OFFSET_OFFSET 0 else s
    let s := if new = 2 then { s with tb := { s.tb with apexLost := false, apexBack := none } } else s
    event s Ev.timeSource .notice [old, new]

/-! ### PTP (R281, R282). The fields and the selection are those of IEEE 1588-2019: PRESUMED (log entry 97). -/

/-- A port is a PTP master (R282). -/
def ptpMaster (s : State) (p : Fin 16) : Bool :=
  (match portRec s p with | some r => r.ptpMaster | none => false) && !ptpSlave s p

/-- The rank of a master in the data set comparison, each part before the next, lower first. -/
def masterRank (m : PtpForeign) : List Nat :=
  [m.clock.prio1.toNat, m.clock.cclass.toNat, m.clock.accuracy.toNat, m.clock.variance.toNat, m.clock.prio2.toNat,
   m.clock.ident.toNat, m.clock.steps.toNat, m.src.clock.toNat, m.src.port.toNat]

/-- A list of numbers stands before another in lexical order. -/
def lexBefore : List Nat → List Nat → Bool
  | a :: l, b :: m => decide (a < b) || (decide (a = b) && lexBefore l m)
  | _, _ => false

/-- A master qualifies with two Announces within 8 s, and stays while its latest is at most 6 s old, at the Announce
interval of 2 s. -/
def masterQualified (s : State) (m : PtpForeign) : Bool :=
  match m.heard with
  | a :: b :: _ => decide (s.tb.now ≤ a + 6 * 10 ^ 9) && decide (a ≤ b + 8 * 10 ^ 9)
  | _ => false

/-- The master selected by the best master clock algorithm (R281). -/
def bestMaster (s : State) : Option PtpForeign :=
  (s.npc.ptp.masters.filter (masterQualified s)).foldl (fun best m => match best with
    | some b => if lexBefore (masterRank m) (masterRank b) then some m else best
    | none => some m) none

/-- Notes an Announce. -/
def noteAnnounce (s : State) (src : PtpId) (c : PtpClock) : State :=
  let old := ((s.npc.ptp.masters.find? (·.src = src)).map (·.heard)).getD []
  let l := s.npc.ptp.masters.filter fun m => decide (m.src ≠ src) && masterQualified s m
  { s with npc := { s.npc with ptp := { s.npc.ptp with
    masters := l ++ [⟨c, src, (s.tb.now :: old).take 2⟩] } } }

/-- The offset of the PTP source is measured (R281, R35): it feeds the time base, and since when it has stayed below 1 µs
is kept. -/
def ptpMeasured (s : State) (off : Int) : State :=
  let good := if off.natAbs < 1000 then some (s.tb.ptpGood.getD s.tb.now) else none
  sourceOffset { s with tb := { s.tb with ptpOffset := off, ptpGood := good } } 1 off

/-- The medium time of a frame sent now (R280). -/
def txTime (s : State) (r : PortRec) : Int := s.tb.now + r.txLat

/-- A PTP time in ns in the epoch of the time base (R371), by the currentUtcOffset latched when the source qualified, and
until then by the one that the selected master announces. -/
def fromPtp (s : State) (t : Int) : Int :=
  let utc := s.tb.ptpUtc.getD (((bestMaster s).map (·.clock.utc)).getD 0)
  t - (utc + 946684800) * 10 ^ 9 + signedOf 8 (rd s Reg.TBC_RTCCFG_ZONE) * 900 * 10 ^ 9

/-- A measured time from master to slave: the offset, once the path delay is known, and the next request for the delay,
which follows each Sync: DESIGN CHOICE (log entry 97). -/
def ptpSynced (s : State) (port : Fin 16) (r : PortRec) (ms : Int) : State :=
  let p := s.npc.ptp
  let n := p.reqSeq
  let s := { s with npc := { s.npc with ptp := { p with
    sync := none, ms := some ms, req := some (n, txTime s r), reqSeq := n + 1 } } }
  let s := emit (wr s Reg.NPCp_STATUS_PTPST 2 port.val) (.ptpDelayReq port (portTag r) r.ptpDom n)
  match p.delay with
  | some d => ptpMeasured s (d - ms)
  | none => s

/-- A message of the selected master (R281): a one-step Sync, or a two-step one with its Follow_Up, gives the time from
master to slave; a Delay_Resp to the own request gives the path delay, half of both ways. -/
def ptpFrom (s : State) (port : Fin 16) (r : PortRec) (m : PtpMsg) (stamp : Nat) : State :=
  let p := s.npc.ptp
  let put := fun (q : PtpSt) => { s with npc := { s.npc with ptp := q } }
  match m with
  | .sync h twoStep origin =>
    let at_ : Int := stamp - r.rxLat - h.corr
    if twoStep then put { p with sync := some (h.seq, at_) } else ptpSynced s port r (at_ - fromPtp s origin)
  | .followUp h origin =>
    match p.sync with
    | some (q, at_) => if q = h.seq then ptpSynced s port r (at_ - fromPtp s origin - h.corr) else s
    | none => s
  | .delayResp h asked received =>
    match p.req, p.ms with
    | some (q, sent), some ms =>
      if q = h.seq ∧ asked = ⟨s.ssu.otp.devid, BitVec.ofNat 16 (port.val + 1)⟩ then
        put { p with req := none, delay := some ((ms + (fromPtp s received - h.corr - sent)) / 2) }
      else s
    | _, _ => s
  | .announce .. => s

/-- The header of a message. -/
def ptpHead : PtpMsg → PtpHead
  | .sync h _ _ => h
  | .followUp h _ => h
  | .delayResp h _ _ => h
  | .announce h _ => h

/-- A PTP message on the slave port (R281), over any of the three carriages: one of the domain PTPDOM is an Announce, or
counts if it comes from the selected master. One that the port does not take is dropped and counted (R278). -/
def ptpSyncRx (s : State) (port : Fin 16) (m : PtpMsg) (stamp : Nat) : State :=
  match portRec s port with
  | some r =>
    let h := ptpHead m
    if !portUp s port then s
    else if !vlanOk r h.vlan then bump s Reg.NPCp_STATUS_DROPPED port.val
    else if !ptpSlave s port || decide (h.domain.toNat ≠ r.ptpDom) then s
    else
      let s := advance s stamp
      match m with
      | .announce _ c => noteAnnounce s h.src c
      | _ => if (bestMaster s).map (·.src) = some h.src then ptpFrom s port r m stamp else s
  | none => s

/-- PTP_SYNC_RX. -/
def execPtpSyncRx (port : Fin 16) (m : PtpMsg) (stamp : Nat) (s : State) : Host.Outcome State Fault Refusal :=
  .next (ptpSyncRx s port m stamp)

/-- The PTP source may qualify (R35): its offset has stayed below 1 µs for QUALTIME, and it is not blocked (R27). -/
def ptpReady (s : State) : Bool :=
  rdB s Reg.TBC_DISC_PTPEN && !s.tb.blockedPtp && portUp s (Fin.ofNat 16 (rd s Reg.TBC_DISC_PTPPORT))
    && (match s.tb.ptpGood with | some t => decide (t + qualNs s ≤ s.tb.now) | none => false)

/-- PTP_QUALIFY (R35, R371): currentUtcOffset is latched. -/
def execPtpQualify (utcOffset : Int) (s : State) : Host.Outcome State Fault Refusal :=
  .next (if ptpReady s then { wr s Reg.TBC_DSTS_PTPQ 1 with tb := { s.tb with ptpUtc := some utcOffset } } else s)

/-- A unit sends PTP messages (R282): not in STANDBY or RESYNC, nor in SAVE entered from them. -/
def ptpSends (s : State) (p : Fin 16) : Bool :=
  ptpMaster s p && portUp s p && emitMode s != .standby && emitMode s != .resync && vListens s

/-- The Sync interval of a port in ns (Table 12.1). -/
def syncNs (r : PortRec) : Nat := 10 ^ 9 / 2 ^ (-r.logSync).toNat

/-- A time of a table is an interval or more ago, or there is none. -/
def dueAgain (s : State) (t : Tbl Nat) (p ns : Nat) : Bool :=
  match tget t p with | some x => decide (x + ns ≤ s.tb.now) | none => true

/-- Sends Sync with the time at which it leaves, or with a Follow_Up that carries it (R282, R280), and an Announce with
clockClass 248 and PRIO1, every 2 s: PRESUMED (log entry 97). -/
def sendSync (s : State) (port : Fin 16) (r : PortRec) : State :=
  let p := s.npc.ptp
  let n := (tget p.seqs port.val).getD 0
  let t := txTime s r
  let s := if dueAgain s p.announceAt port.val (2 * 10 ^ 9) then
      emit { s with npc := { s.npc with ptp := { s.npc.ptp with announceAt := tput p.announceAt port.val s.tb.now } } }
        (.ptpAnnounce port (portTag r) r.ptpDom r.prio1 248)
    else s
  let s := { s with npc := { s.npc with ptp := { s.npc.ptp with
    seqs := tput p.seqs port.val (n + 1), syncAt := tput p.syncAt port.val s.tb.now } } }
  let s := emit (wr s Reg.NPCp_STATUS_PTPST 3 port.val)
    (.ptpSync port (portTag r) r.ptpDom n (if r.twoStep then none else some t))
  if r.twoStep then emit s (.ptpFollowUp port (portTag r) r.ptpDom n t) else s

/-- PTP_SYNC_TX (R282): every 2^LOGSYNC s. -/
def ptpSyncTx (s : State) (port : Fin 16) : State :=
  match portRec s port with
  | some r => if ptpSends s port && dueAgain s s.npc.ptp.syncAt port.val (syncNs r) then sendSync s port r else s
  | none => s

/-- PTP_SYNC_TX. -/
def execPtpSyncTx (port : Fin 16) (s : State) : Host.Outcome State Fault Refusal := .next (ptpSyncTx s port)

/-- PTP_DELAY_REQ (R282, R280): a request of the domain is answered with the time it arrived. -/
def ptpDelayReq (s : State) (q : DelayReqRx) : State :=
  match portRec s q.port with
  | some r =>
    if !portUp s q.port then s
    else if !vlanOk r q.h.vlan then bump s Reg.NPCp_STATUS_DROPPED q.port.val
    else if ptpSends s q.port && decide (q.h.domain.toNat = r.ptpDom) then
      emit (advance s q.stamp) (.ptpDelayResp q.port (portTag r) r.ptpDom q.h.seq q.h.src (q.stamp - r.rxLat))
    else s
  | none => s

/-- PTP_DELAY_REQ. -/
def execPtpDelayReq (r : DelayReqRx) (s : State) : Host.Outcome State Fault Refusal := .next (ptpDelayReq s r)

/-- PTPST of a port whose link is up or down (Table 12.10). -/
def showPtp (s : State) (p : Fin 16) : State :=
  let old := rd s Reg.NPCp_STATUS_PTPST p.val
  let st := if !rdB s Reg.NPCp_STATUS_LINK p.val || (portRec s p).isNone then 0
    else if ptpSlave s p then (if old = 2 then 2 else 1)
    else if ptpMaster s p then 3 else 0
  wr s Reg.NPCp_STATUS_PTPST st p.val

/-- PTPST of every port, after a change of the discipline settings. -/
def showPtps (s : State) : State := (List.finRange 16).foldl showPtp s

/-- START_WAIT_EXPIRY (R387): a start that waits for PTP proceeds on the local source. -/
def execStartWaitExpiry (s : State) : Host.Outcome State Fault Refusal :=
  .next (if modeIs s = .halt then { s with tb := { s.tb with waitOver := true } } else s)

/-- A start waits for the PTP source (R387). -/
def startWaits (s : State) : Bool :=
  rdB s Reg.TBC_DISC_PTPEN && !s.tb.waitOver && !rdB s Reg.TBC_DSTS_PTPQ

/-! ### Tick length and tick faults -/

/-- TICKCFG_WRITE (R30, R40, R431, R433): TICKLEN and AGREE in HALT, both or neither; a write outside the ranges sets
BADCFG, and one that carries bit 16 clears it first. -/
def tickcfgWrite (s : State) (v : BitVec 32) : State :=
  let x := v.toNat
  let s := if bitsOf x 16 1 = 1 then wr s Reg.TBC_TICKCFG_BADCFG 0 else s
  let len := bitsOf x 0 8
  let ag := bitsOf x 8 8
  if modeIs s ≠ .halt then s
  else if len < 5 ∨ 200 < len ∨ ag < 10 ∨ 50 < ag then wr s Reg.TBC_TICKCFG_BADCFG 1
  else
    let changed := decide (len ≠ rd s Reg.TBC_TICKCFG_TICKLEN)
    let s := settingsDone s (wr (wr s Reg.TBC_TICKCFG_TICKLEN len) Reg.TBC_TICKCFG_AGREE ag)
    if changed then
      match (running s).bind fun p => checkBudget p (tickNs s) with
      | some r => olcRef s r
      | none => s
    else s

/-- TICKCFG_WRITE. -/
def execTickcfgWrite (v : BitVec 32) (s : State) : Host.Outcome State Fault Refusal := .next (tickcfgWrite s v)

/-- TICK_FAULT (R43): TICKFAULT 1, QUAL BAD, the event, and the transition to SAFEHOLD at the next edge. -/
def tickFault (s : State) : State :=
  let s := wr (wr s Reg.TBC_STATUS_TICKFAULT 1) Reg.TBC_STATUS_QUAL (qualCode .bad)
  holdCause (event s Ev.tickFault .critical []) .timebase

/-- TICK_FAULT. -/
def execTickFault (s : State) : Host.Outcome State Fault Refusal := .next (tickFault s)

end Sys2Proof.Machine
end

