-- ==== Sys2Proof/Machine/Npc.lean ====
section
/-! DEFINITION. The network ports (R275 to R283, 12_network_host_memory.md) and CLAIMNOTE (R309, R310). -/

namespace Sys2Proof.Machine

/-- The status pair of a port (Table 12.10). -/
def showPort (s : State) (p : Fin 16) : State :=
  let dead := resState s ⟨.network, p.val⟩ = .retired
  let on := (portRec s p).isSome && !linkStopped s (.port p)
  let m : MState := if dead then .retired else if !on then .offline
    else if s.ssu.windows.any (·.res = ⟨.network, p.val⟩) then .suspect else .inService
  let q : Qual := if dead then .retired else if rdB s Reg.NPCp_STATUS_LINK p.val then .good else .stale
  wr (wr s Reg.NPCp_STATUS_MSTATE (mstateCode m) p.val) Reg.NPCp_STATUS_QUAL (qualCode q) p.val

/-- The port falls: its PTP source is lost, its contexts follow R271 (Table 12.2). -/
def portDown (s : State) (p : Fin 16) : State :=
  let s := showPort (wr s Reg.NPCp_STATUS_LINK 0 p.val) p
  let s := showPtp s p
  if ptpSlave s p then ptpLost s else s

/-- The speed a negotiation may end in (R276, Table 12.1). -/
def speedAllowed (r : PortRec) (speed : Nat) : Bool :=
  match r.ifMode with
  | 0 => decide (speed < 3) && decide (bitsOf r.speeds speed 1 = 1)
  | 1 => decide (speed = 2)
  | _ => decide (speed = 3)

/-- LINK_UP (R276): a negotiation refused (`aneg`, half duplex) or a speed not allowed leaves the link down with
ANEGF. -/
def linkUp (s : State) (p : Fin 16) (speed : Fin 4) (aneg : Bool) : State :=
  match portRec s p with
  | none => s
  | some r =>
    if linkRetired s (.port p) then s
    else if aneg || !speedAllowed r speed.val then portDown (wr s Reg.NPCp_STATUS_ANEGF 1 p.val) p
    else
      let s := wr (wr (wr s Reg.NPCp_STATUS_ANEGF 0 p.val) Reg.NPCp_STATUS_SPEED speed.val p.val)
        Reg.NPCp_STATUS_LINK 1 p.val
      showPort (showPtp s p) p

/-- LINK_UP. -/
def execLinkUp (p : Fin 16) (speed : Fin 4) (aneg : Bool) (s : State) : Host.Outcome State Fault Refusal :=
  .next (linkUp s p speed aneg)

/-- LINK_DOWN (R283). -/
def execLinkDown (p : Fin 16) (s : State) : Host.Outcome State Fault Refusal := .next (portDown s p)

/-- A port is retired (Table 12.2, Table 11.8): its copies end FAIL_RESOURCE_RETIRED, its PTP source is lost. -/
def portRetired (s : State) (p : Fin 16) : State :=
  let s := endLink (showPort s p) (.port p) CC.failResourceRetired 0
  let s := if ptpSlave s p then ptpLost s else s
  linkChange s ⟨.network, p.val⟩

/-- The transmit of a context's copy that an error of its port cuts (Table 12.2): the newest copy ends
FAIL_TRANSIENT_EXHAUSTED PARITY. That a transmit on a port is a copy's, which reports it, is DEDUCED (log entry 99). -/
def cutTransmit (s : State) (p : Fin 16) (v : Nat) : State :=
  match ctxOf s v with
  | some c =>
    if c.endpoint.link = .port p ∧ c.copies.any (·.seq = c.lastSeq) then
      endCopy s v c.lastSeq CC.failTransientExhausted Rsn.parity
    else s
  | none => s

/-- PORT_PARITY_ERROR (R283, R391): a received frame is lost, a transmit ends; the port becomes SUSPECT or is
retired. -/
def portParityError (s : State) (u : PortUpset) : State :=
  let s := match u.tx with | some v => cutTransmit s u.port v.val | none => s
  (upset s ⟨.network, u.port.val⟩ fun s =>
    let s := portRetired s u.port
    if (portRec s u.port).isSome then holdCause s .network else s).1

/-- PORT_PARITY_ERROR. -/
def execPortParityError (u : PortUpset) (s : State) : Host.Outcome State Fault Refusal := .next (portParityError s u)

/-- The port answers a request (R278): for one of its own addresses, of the request's family, under its VLAN. -/
def answers (s : State) (r : PortRec) (k : EchoKind) (src : EchoSrc) : Bool :=
  vlanOk r src.vlan && (match k with
    | .arp => r.ipv4 && decide (src.target = ownIp4 s r)
    | .echo4 => r.ipv4 && decide (src.target = ownIp4 s r)
    | .neighbour => r.ipv6 && decide (src.target = ownIp6 s r)
    | .echo6 => r.ipv6 && decide (src.target = ownIp6 s r))

/-- ARP_ECHO_REPLY (R278): answered to the source MAC address of the request; one for another address or VLAN is dropped
and counted. -/
def arpEchoReply (s : State) (p : Fin 16) (k : EchoKind) (src : EchoSrc) (mac : BitVec 48) : State :=
  match portRec s p with
  | some r =>
    if !(portUp s p && vListens s) then s
    else if answers s r k src then emit s (.reply p k (portSrc s r src.target) src.addr mac)
    else bump s Reg.NPCp_STATUS_DROPPED p.val
  | none => s

/-- ARP_ECHO_REPLY. -/
def execArpEchoReply (p : Fin 16) (k : EchoKind) (src : EchoSrc) (mac : BitVec 48) (s : State) :
    Host.Outcome State Fault Refusal := .next (arpEchoReply s p k src mac)

/-- FRAME_DROPPED (R278, R249, R251): a frame not accepted counts in DROPPED, a malformed or fragmented Vertex
datagram in BADMSG. -/
def execFrameDropped (p : Fin 16) (k : DropKind) (s : State) : Host.Outcome State Fault Refusal :=
  .next (if portUp s p then
      match k with
      | .notAccepted => bump s Reg.NPCp_STATUS_DROPPED p.val
      | .malformed => badMsg s
      | .fragmented => badMsg s
    else s)

/-! ### CLAIMNOTE -/

/-- The group endpoints of a port, as IPV4 and IPV6 enable them (R277, R310). -/
def groupEps (s : State) (p : Fin 16) (r : PortRec) : List Endpoint :=
  let port := BitVec.ofNat 16 (vcfg s).udpPort
  let vlan := BitVec.ofNat 16 (if r.vlanEn then r.vlan else 0)
  let g4 := r.ip4Grp.toNat
  let g6 := r.ip6Grp.toNat
  (if r.ipv4 then [⟨.port p, vlan, BitVec.ofNat 128 (0xFFFF * 2 ^ 32 + g4),
      BitVec.ofNat 48 (0x01005E000000 + g4 % 2 ^ 23), port⟩] else [])
  ++ (if r.ipv6 then [⟨.port p, vlan, r.ip6Grp, BitVec.ofNat 48 (0x333300000000 + g6 % 2 ^ 32), port⟩] else [])

/-- Sends a CLAIMNOTE on every enabled port whose link is up (R310). -/
def claimNote (s : State) : State :=
  if modeIs s = .active then
    (List.finRange 16).foldl (fun s p =>
      match portRec s p with
      | some r =>
        if portUp s p then
          (groupEps s p r).foldl (fun s ep =>
            vSend s ep 5 0 0 (myClaim s) 0 ([if ownSide s then 1 else 0, BitVec.ofNat 8 (ownMember s).val, 0, 0]) 0 0) s
        else s
      | none => s) s
  else s

/-- CLAIMNOTE_SEND (R310). -/
def execClaimnoteSend (s : State) : Host.Outcome State Fault Refusal := .next (claimNote s)

/-- CLAIMNOTE (R309, R310): from the other side of the own member. -/
def execClaimnote (port : Fin 16) (member : Fin 8) (side : Side) (claim : BitVec 32) (s : State) :
    Host.Outcome State Fault Refusal :=
  .next (if portUp s port && vListens s && decide (member = ownMember s) && decide (side ≠ ownSide s) then hearClaim s claim
    else s)

/-! ### SAVE and facet swaps (Table 12.2) -/

/-- SAVE entry, in SAVE already: the ports outside the critical mask neither send nor receive. -/
def npcSave (s : State) : State :=
  (List.finRange 16).foldl (fun s p =>
    if linkStopped s (.port p) then
      let s := linkChange (showPort s p) ⟨.network, p.val⟩
      if ptpSlave s p then ptpLost s else s
    else s) s

/-- SAVE ends: every port resumes. -/
def npcResume (s : State) : State :=
  let old := s
  (List.finRange 16).foldl (fun s p =>
    let s := showPort s p
    let r : Resource := ⟨.network, p.val⟩
    if resState old r = .offline ∧ resState s r ≠ .offline then linkChange s r else s) s

/-- The link restarts on a change of IFMODE, SPEEDS or a MAC address (Table 12.2). -/
def portRestarts (a b : PortRec) : Bool :=
  decide (a.ifMode ≠ b.ifMode) || decide (a.speeds ≠ b.speeds) || decide (a.macA ≠ b.macA) || decide (a.macB ≠ b.macB)

/-- The port records of a facet take effect, the facet being active already; `old` is the one before (R217). -/
def npcFacet (s : State) (old : Option Facet) : State :=
  (List.finRange 16).foldl (fun s p =>
    let was := (old.bind fun f => f.ports[p.val]?).filter (·.en)
    match was, portRec s p with
    | some _, none =>
      let s := endLink s (.port p) CC.failCancelled Rsn.configChange
      linkChange (portDown s p) ⟨.network, p.val⟩
    | some a, some b => showPtp (if portRestarts a b then portDown s p else showPort s p) p
    | none, some _ => linkChange (showPort s p) ⟨.network, p.val⟩
    | none, none => showPort s p) s

end Sys2Proof.Machine
end

