-- ==== Sys2Proof/Machine/Csc.lean ====
section
/-! DEFINITION. The Cascade Unit (R322 to R333, 14_cascade.md): links, the tree, the roster, tick markers, exports and
imports. -/

namespace Sys2Proof.Machine

/-! ### The tree -/

/-- The status pair of the CSC (Table 14.4). -/
def showCsc (s : State) : State :=
  let dead := (List.range 4).all fun n => decide (resState s ⟨.cascade, n⟩ = .retired)
  let q : Qual := if dead then .retired
    else if isRoot s || (List.range 4).any (brings s) then .good else .stale
  let m : MState := if s.ssu.wave = some 5 then .testing
    else if rdB s Reg.CSC_CFG_EN then .inService else .offline
  let s := wr (wr s Reg.CSC_STATUS_QUAL (qualCode q)) Reg.CSC_STATUS_MSTATE (mstateCode m)
  wr (wrB s Reg.CSC_STATUS_ROOT (isRoot s)) Reg.CSC_STATUS_MEMBER (ownMember s).val

/-- A child's link: the STATE of a unit comes on it, none of the last three missing (R323, R324). -/
def childLink (s : State) (n : Nat) : Bool :=
  clOk s n && s.csc.routes.any fun r => decide (r.2.1.val = n) && decide (s.tb.tick < r.2.2 + 3)

/-- Hops of the far end of a link as last told, within three ticks; 7 for none. -/
def farHops (s : State) (n : Nat) : Nat :=
  match tget s.csc.hops n with | some h => if s.tb.tick ≤ h.2 + 3 then h.1 else 7 | none => 7

/-- A link that may be the parent: accepted, no child's, with a way to the root. -/
def mayParent (s : State) (n : Nat) : Bool := clOk s n && !childLink s n && decide (farHops s n < 7)

/-- The parent (R323): the link with the fewest hops to the root, the lower number on a tie. -/
def parentOf (s : State) : Option Nat :=
  if isRoot s then none
  else ((List.range 4).filter (mayParent s)).foldl (fun best n =>
    match best with
    | some b => if farHops s n < farHops s b then some n else some b
    | none => some n) none

/-- The roles of the links (Table 14.7): with no way to the root none. -/
def showRoles (s : State) : State :=
  (List.range 4).foldl (fun s n =>
    let role := if !clOk s n || (!isRoot s && decide (rd s Reg.CSC_STATUS_PARENT = 7)) then 0
      else if rd s Reg.CSC_STATUS_PARENT = n then 1
      else if childLink s n then 2 else 3
    wr s Reg.CSC_CLSTS_ROLE role n) s

/-- The tree links: the parent's and the children's; with no way to the root, the tree that remains (R333). -/
def treeLinks (s : State) : List Nat :=
  if isRoot s || decide (rd s Reg.CSC_STATUS_PARENT ≠ 7) then
    (List.range 4).filter fun n => decide (rd s Reg.CSC_STATUS_PARENT = n) || childLink s n
  else s.csc.tree.filter (clOk s)

/-- Shows the tree as it is: roles, tree links and the status pair. -/
def showTree (s : State) : State :=
  let s := showRoles s
  showCsc { s with csc := { s.csc with tree := treeLinks s } }

/-- Chooses the parent (R323). A unit that becomes the root counts missing STATE frames from here, and sends ROSTER; its
skew and path delay are 0 (Table 14.6). -/
def chooseParent (s : State) : State :=
  let p := parentOf s
  let root := isRoot s
  let hops := if root then 0 else match p with | some n => min 7 (farHops s n + 1) | none => 7
  let s := if root && !rdB s Reg.CSC_STATUS_ROOT then
      { s with csc := { s.csc with rosterDue := true, units := s.csc.units.map fun u => { u with last := s.tb.tick } } }
    else s
  let s := if root then wr (wr s Reg.CSC_SKEW_SKEW 0) Reg.CSC_PATHLAT_PATHLAT 0 else s
  let s := wr (wr s Reg.CSC_STATUS_HOPS hops) Reg.CSC_STATUS_PARENT (p.getD 7)
  showTree { s with csc := { s.csc with reparent := false } }

/-- Asks for a choice at the next edge. -/
def reparent (s : State) : State := { s with csc := { s.csc with reparent := true } }

/-- A choice is due (R323): it was asked for, the root has changed, the parent brings no more markers, or one of the links
leads to the root while there is no parent. -/
def choiceDue (s : State) : Bool :=
  s.csc.reparent || decide (rdB s Reg.CSC_STATUS_ROOT ≠ isRoot s)
    || (match parentLink s with
        | some n => !mayParent s n.val
        | none => !isRoot s && (List.range 4).any (mayParent s))

/-! ### Links (R322) -/

/-- The CHELLO this unit sends (Table 14.1), with its hops. -/
def ownChello (s : State) : CHello :=
  ⟨1, ownMember s, ownSide s, rd s Reg.TBC_TICKCFG_TICKLEN, modeIs s, myClaim s, rd s Reg.CSC_STATUS_HOPS⟩

/-- What was known by a link is known no longer. -/
def dropLink (s : State) (n : Nat) : State :=
  { s with csc := { s.csc with
    accepted := s.csc.accepted.filter (· ≠ n), hops := tdel s.csc.hops n, marks := tdel s.csc.marks n
    routes := s.csc.routes.filter fun r => decide (r.2.1.val ≠ n), seqIn := tdel s.csc.seqIn n
    gaps := s.csc.gaps.filter fun g => decide (g.1 ≠ n) } }

/-- CASCADE_TRAINED (R322, R297, R300): the link locks on its lanes with its latency measured, and CHELLO is exchanged;
fewer lanes than four are recorded. -/
def cascTrained (s : State) (n : Fin 4) (lanes lat : Nat) : State :=
  if !rdB s Reg.CSC_CFG_EN ∨ resState s ⟨.cascade, n.val⟩ = .retired ∨ lanes = 0 then s
  else
    let s := dropLink s n.val
    let s := { s with csc := { s.csc with lat := tput s.csc.lat n.val lat } }
    let s := wr (wr (wr s Reg.CSC_CLSTS_LOCK 1 n.val) Reg.CSC_CLSTS_LANES (min 4 lanes) n.val) Reg.CSC_CLSTS_RSN 0 n.val
    let s := if lanes < 4 then event s Ev.chordLanes .warning [] else s
    sendCasc (wr s Reg.CSC_CLSTS_QUAL 0 n.val) n (.chello (ownChello s))

/-- CASCADE_TRAINED. -/
def execCascadeTrained (n : Fin 4) (lanes : Fin 8) (lat : Nat) (s : State) : Host.Outcome State Fault Refusal :=
  .next (cascTrained s n lanes.val lat)

/-- The link is gone. -/
def clDown (s : State) (n : Nat) : State :=
  let s := wr (wr (wr (dropLink s n) Reg.CSC_CLSTS_LOCK 0 n) Reg.CSC_CLSTS_LANES 0 n) Reg.CSC_CLSTS_ROLE 0 n
  let q : Qual := if resState s ⟨.cascade, n⟩ = .retired then .retired else .stale
  reparent (wr s Reg.CSC_CLSTS_QUAL (qualCode q) n)

/-- CASCADE_LOCK_LOST (R322). -/
def execCascadeLockLost (n : Fin 4) (s : State) : Host.Outcome State Fault Refusal := .next (clDown s n.val)

/-- CASCADE_CRC_ERROR (R322, R299): an upset of the link; retired, its role is lost, and with no other link accepted the
class's FAULTMAP byte decides. -/
def cascCrc (s : State) (n : Fin 4) : State :=
  (upset (bump s Reg.CSC_CLSTS_CRCERR n.val) ⟨.cascade, n.val⟩ fun s =>
    let s := showCsc (clDown s n.val)
    if (List.range 4).any (clOk s) then s else holdCause s .cascade).1

/-- CASCADE_CRC_ERROR. -/
def execCascadeCrcError (n : Fin 4) (s : State) : Host.Outcome State Fault Refusal := .next (cascCrc s n)

/-- This unit as a roster entry, and the roster of the root: itself and the units it knows. -/
def myUnit (s : State) : RUnit := ⟨ownMember s, ownSide s, modeIs s, myClaim s⟩
def rosterList (s : State) : List RUnit := myUnit s :: s.csc.units.map fun u => ⟨u.member, u.side, u.mode, u.claim⟩

/-- The roster bits of a list of units (Table 14.5). -/
def rosterBits (l : List RUnit) : BitVec 16 :=
  l.foldl (fun w u => w ||| BitVec.ofNat 16 (2 ^ rosterBit u.member u.side)) 0

/-- The bits of the root's roster. -/
def rosterUnits (s : State) : BitVec 16 := rosterBits (rosterList s)

/-- The root's roster changes: shown at once, sent at the next edge (R324). -/
def rosterChange (s : State) : State :=
  wr { s with csc := { s.csc with rosterDue := true } } Reg.CSC_ROSTER_UNITS (rosterUnits s).toNat

/-- Puts a unit on the list of those known. -/
def putUnit (s : State) (u : RUnit) : State :=
  let l := s.csc.units.filter fun v => !(v.member = u.member && v.side = u.side)
  { s with csc := { s.csc with units := l ++ [⟨u.member, u.side, u.mode, u.claim, s.tb.tick⟩] } }

/-- A unit is heard of (R324): the root records a new one MEMBER_JOINED, and any change of its roster is broadcast. -/
def hearUnit (s : State) (u : RUnit) : State :=
  let old := s.csc.units.find? fun v => v.member = u.member && v.side = u.side
  let s := putUnit s u
  if !isRoot s then s
  else match old with
    | none => rosterChange (event s Ev.memberJoined .notice [])
    | some v => if v.mode = u.mode ∧ v.claim = u.claim then s else rosterChange s

/-- The coordinator of a solve declares a member lost (R332): the solve ends for every part. -/
def lostMember (s : State) (m : Fin 8) : State :=
  match s.lsv.cjob with
  | some c => if c.joined.contains m then endSolve s CC.failPeerUnreachable Rsn.memberLost else s
  | none => s

/-- Why a CHELLO is refused (R322): 1 ID_CLASH, 2 TICK_CHANGE, 3 VERSION, 4 TOO_DEEP, 0 accepted. A unit already on the
roster through this same link is the one that returns. -/
def chelloReason (s : State) (n : Nat) (h : CHello) : Nat :=
  let same := match tget s.csc.far n with | some o => o.member = h.member && o.side = h.side | none => false
  let me := h.member = ownMember s && h.side = ownSide s
  let listed := bitsOf (rd s Reg.CSC_ROSTER_UNITS) (rosterBit h.member h.side) 1 = 1
  let own := if isRoot s then 0 else rd s Reg.CSC_STATUS_HOPS
  let deep := decide (h.hops < 7 ∧ own = 7 ∧ 4 < h.hops + 1) || decide (own < 7 ∧ h.hops = 7 ∧ 4 < own + 1)
  if me || (listed && !same) then 1
  else if h.ticklen ≠ rd s Reg.TBC_TICKCFG_TICKLEN then 2
  else if h.version ≠ 1 then 3
  else if deep then 4
  else 0

/-- CHELLO (R322): the link is accepted or refused. -/
def chello (s : State) (n : Fin 4) (head : ChordHead) (h : CHello) : State :=
  let (s, new) := clTake s n head true
  if !new then s
  else
    let r := chelloReason s n.val h
    let s := wr s Reg.CSC_CLSTS_RSN r n.val
    let others := s.csc.accepted.filter (· ≠ n.val)
    if r = 0 then
      let s := { s with csc := { s.csc with
        accepted := others ++ [n.val], far := tput s.csc.far n.val h, hops := tput s.csc.hops n.val (h.hops, s.tb.tick) } }
      reparent (hearUnit s ⟨h.member, h.side, h.mode, h.claim⟩)
    else reparent (event { s with csc := { s.csc with accepted := others } } Ev.cascadeRefused .warning [])

/-- CHELLO. -/
def execChello (n : Fin 4) (head : ChordHead) (h : CHello) (s : State) : Host.Outcome State Fault Refusal :=
  .next (chello s n head h)

/-! ### Tick markers (R325) -/

/-- TICKMARK (R325): `delay` is the accumulated delay it carries, `stamp` its arrival, `hops` those of its sender. The
first marker of each tick is forwarded on the other links, with the delay of the link it came by and the time it stayed
here, a free value. The marker of the parent disciplines the time base where the Apex source is enabled; the source
qualifies by it, trained and its delay measured (R35). -/
def tickMark (s : State) (n : Fin 4) (head : ChordHead) (k delay stamp hops : Nat) : State :=
  let (s, new) := clTake s n head false
  if !new || isRoot s then s
  else
    let s := advance s stamp
    let total := delay + (tget s.csc.lat n.val).getD 0
    let first := match s.csc.markSeen with | some m => decide (m < k) | none => true
    let s := { s with csc := { s.csc with
      hops := tput s.csc.hops n.val (hops, s.tb.tick), marks := tput s.csc.marks n.val s.tb.tick } }
    let s := if first then
        sendWhere { s with csc := { s.csc with markSeen := some k }, free := s.free + 1 } (fun m => m ≠ n ∧ clOk s m.val)
          (.tickMark k (total + residence s.free))
      else s
    let s := showCsc s
    if rd s Reg.CSC_STATUS_PARENT ≠ n.val then s
    else
      let skew : Int := (stamp : Int) - total - k * tickNs s
      let s := wr (wr s Reg.CSC_SKEW_SKEW (patternOf 32 skew)) Reg.CSC_PATHLAT_PATHLAT total
      if ownMember s = 0 ∨ s.tb.blockedApex then s
      else
        let s := apexQualify s
        if rdB s Reg.TBC_DISC_APEXEN then sourceOffset s 2 (-skew) else s

/-- TICKMARK. -/
def execTickmark (n : Fin 4) (head : ChordHead) (k delay stamp hops : Nat) (s : State) :
    Host.Outcome State Fault Refusal := .next (tickMark s n head k delay stamp hops)

/-! ### The roster (R324) -/

/-- ROSTER (R323, R324): taken from the parent, shown, kept, and forwarded on the tree. A coordinator on M0's other unit
than the root learns from it of a member lost, or in SAVE (R332, R333). -/
def rosterRx (s : State) (n : Fin 4) (head : ChordHead) (l : List RUnit) : State :=
  let (s, new) := clTake s n head false
  if !new || isRoot s || decide (parentLink s ≠ some n) then s
  else
    let others := l.filter fun u => !(u.member = ownMember s && u.side = ownSide s)
    let s := wr { s with csc := { s.csc with
      units := others.map fun u => ⟨u.member, u.side, u.mode, u.claim, s.tb.tick⟩ } } Reg.CSC_ROSTER_UNITS (rosterBits l).toNat
    let here := fun (m : Fin 8) => l.any fun u => decide (u.member = m) && !(u.side = partSide s && u.mode = .save)
    let s := (List.finRange 8).foldl (fun s m => if here m then s else lostMember s m) s
    sendWhere (reparent s) (fun m => m ≠ n ∧ treeLink s m.val) (.roster l)

/-- ROSTER. -/
def execRoster (n : Fin 4) (head : ChordHead) (l : List RUnit) (s : State) : Host.Outcome State Fault Refusal :=
  .next (rosterRx s n head l)

/-- Sends ROSTER (R324). -/
def sendRoster (s : State) : State :=
  let s := { s with csc := { s.csc with rosterDue := false } }
  if isRoot s then
    sendWhere (wr s Reg.CSC_ROSTER_UNITS (rosterUnits s).toNat) (fun m => treeLink s m.val) (.roster (rosterList s))
  else s

/-- ROSTER_BROADCAST. -/
def execRosterBroadcast (s : State) : Host.Outcome State Fault Refusal := .next (sendRoster s)

/-- STATE (R324): the link it comes on leads to its unit. It is taken by the root, where a member in SAVE ends the solve it
takes part in (R333), and forwarded towards the root by any other unit. -/
def stateRx (s : State) (n : Fin 4) (head : ChordHead) (u : RUnit) : State :=
  let (s, new) := clTake s n head false
  if !new || decide (parentLink s = some n) then s
  else
    let s := { s with csc := { s.csc with routes := tput s.csc.routes (rosterBit u.member u.side) (n, s.tb.tick) } }
    let s := showTree s
    if isRoot s then
      let s := hearUnit s u
      if u.mode = .save ∧ u.side = partSide s then lostMember s u.member else s
    else match parentLink s with
      | some m => if clOk s m.val then sendCasc s m (.state u) else s
      | none => s

/-- STATE. -/
def execStateFrame (n : Fin 4) (head : ChordHead) (u : RUnit) (s : State) : Host.Outcome State Fault Refusal :=
  .next (stateRx s n head u)

/-- MEMBER_LOST (R324, R332): a unit whose STATE missed three ticks is lost; a member whose every unit is lost ends the
job it takes part in at the coordinator. -/
def memberLost (s : State) (member : Fin 8) (side : Side) : State :=
  match s.csc.units.find? fun u => u.member = member && u.side = side with
  | none => s
  | some u =>
    if !isRoot s ∨ s.tb.tick < u.last + 3 then s
    else
      let s := { s with csc := { s.csc with
        units := s.csc.units.erase u, routes := tdel s.csc.routes (rosterBit member side) } }
      let s := rosterChange (event s Ev.memberLost .warning [])
      if s.csc.units.any (·.member = member) then s else lostMember s member

/-- MEMBER_LOST. -/
def execMemberLost (member : Fin 8) (side : Side) (s : State) : Host.Outcome State Fault Refusal :=
  .next (memberLost s member side)

/-! ### Exports and imports (R327 to R329) -/

/-- EXPORT (R328): an input with source code 68, taken from the tree and forwarded on it. -/
def exportRx (s : State) (n : Fin 4) (head : ChordHead) (stamp member : Nat) (side : Side) (b : InBody) : State :=
  let (s, new) := clTake s n head false
  if !new || !treeLink s n.val then s
  else
    let s := advance s stamp
    submit (sendWhere s (fun m => m ≠ n ∧ treeLink s m.val) (.exported b)) stamp 68 (member + (if side then 8 else 0)) b

/-- EXPORT. -/
def execExportFrame (n : Fin 4) (head : ChordHead) (member : Fin 8) (side : Side) (claim : BitVec 32) (tick stamp : Nat)
    (elems : List Elem) (s : State) : Host.Outcome State Fault Refusal :=
  .next (exportRx s n head stamp member.val side (.exported member side claim tick elems))

/-- The copy an importing unit takes of a member in a set (R328): newest TICK, then highest claim. -/
def bestExport (l : List Input) (m : Fin 8) : Option (Nat × BitVec 32 × List Elem) :=
  l.foldl (fun best i =>
    match i.body with
    | .exported member _ claim tick el =>
      if member = m then
        match best with
        | some (t, c, _) =>
          if t < tick ∨ (t = tick ∧ c.toNat < claim.toNat) then some (tick, claim, el) else best
        | none => some (tick, claim, el)
      else best
    | _ => best) none

/-- The exports of an agreed set become imports (R328, R329). -/
def exportInputs (s : State) (l : List Input) : State :=
  (List.finRange 8).foldl (fun s m =>
    match bestExport l m with
    | none => s
    | some (t, _, el) =>
      let cur := s.csc.imports.find? (·.member = m)
      if (match cur with | some i => decide (t < i.tick) | none => false) then s
      else
        let s := { s with csc := { s.csc with imports := (s.csc.imports.filter (·.member ≠ m)) ++ [⟨m, t, el⟩] } }
        (((running s).map (·.points)).getD []).foldl (fun s p =>
          match p.bind with
          | .cascade w x =>
            if w = m.val ∧ !isOutPoint s p.num then
              match el[x]? with
              | some e => produce s p.num e.value (qualOf e.qual.toNat)
              | none => s
            else s
          | _ => s) s) s

/-- The exported points of the running program by export index (R327). -/
def exportPoints (s : State) : List (Nat × Nat) :=
  (((running s).map (·.points)).getD []).filterMap fun p =>
    match p.bind with
    | .cascade _ x => if isOutPoint s p.num then some (x, p.num) else none
    | _ => none

/-- EXPORT at the emission phase of tick k + 1, with the values committed in tick k (R327). -/
def emitExports (s : State) : State :=
  let pts := exportPoints s
  if pts.isEmpty ∨ s.rdu.claimHeld.isNone then s
  else
    let n := pts.foldl (fun a e => max a (e.1 + 1)) 0
    let img := s.csa.snap.img
    let el := (List.range n).map fun x => match pts.find? (·.1 = x) with
      | some (_, p) => let v := (tget img p).getD freshPoint; (⟨v.value, BitVec.ofNat 3 (qualCode v.qual)⟩ : Elem)
      | none => ⟨0, BitVec.ofNat 3 (qualCode .bad)⟩
    let b : InBody := .exported (ownMember s) (ownSide s) (myClaim s) (s.tb.tick - 1) el
    sendWhere s (fun m => treeLink s m.val) (.exported b)

/-- The cascade's part of a tick edge: the choice of R323, the marker of R325, ROSTER and STATE of R324. -/
def cascadeEdge (s : State) : State :=
  let s := if choiceDue s then chooseParent s else s
  if !rdB s Reg.CSC_CFG_EN then s
  else
    let s := showTree s
    if isRoot s then
      let s := sendWhere s (fun m => clOk s m.val) (.tickMark s.tb.tick 0)
      if s.csc.rosterDue then sendRoster s else s
    else match parentLink s with
      | some n => sendCasc s n (.state (myUnit s))
      | none => s

end Sys2Proof.Machine
end

