-- ==== Sys2Proof/Machine/Sets.lean ====
section
/-! DEFINITION. Agreed input sets (R301 to R305, 13_redundant_pairs.md): how a set is formed from lists, what a command
that is an input does at its agreement, and what a set does at the edge at which it becomes current. -/

namespace Sys2Proof.Machine

/-! ### Forming a set (R304) -/

/-- Inputs of an FBC or NPC source, which are de-duplicated. -/
def busSource (i : Input) : Bool := decide (i.id.source < 48)

/-- Two inputs of the two sides are the same message (R304). -/
def sameInput (a b : Input) : Bool :=
  busSource a && decide (a.id = b.id ∧ a.body = b.body ∧ a.side ≠ b.side)
    && decide (a.stamp ≤ b.stamp + 5000 ∧ b.stamp ≤ a.stamp + 5000)

/-- The order of a set: timestamp, source code, identifier, side A first. -/
def inputLe (a b : Input) : Bool :=
  if a.stamp ≠ b.stamp then a.stamp < b.stamp
  else if a.id.source ≠ b.id.source then a.id.source < b.id.source
  else if a.id.ident ≠ b.id.ident then a.id.ident < b.id.ident
  else !a.side || b.side

/-- Puts an input behind those that come before it or are equal to it. -/
def inputPut (l : List Input) (i : Input) : List Input :=
  (l.takeWhile fun x => inputLe x i) ++ i :: l.dropWhile fun x => inputLe x i

/-- The inputs in order, equal ones in order of receipt. -/
def inputSort (l : List Input) : List Input := l.foldl inputPut []

/-- Merges side A's inputs, in order, each with the earliest equal input of side B not yet merged; the copy with the
earlier timestamp is kept. Answers the kept copies and what is left of side B. -/
def mergeSides : List Input → List Input → List Input × List Input
  | [], b => ([], b)
  | i :: l, b =>
    match b.find? (sameInput i) with
    | some j =>
      let r := mergeSides l (b.erase j)
      ((if j.stamp < i.stamp then j else i) :: r.1, r.2)
    | none => let r := mergeSides l b; (i :: r.1, r.2)

/-- Drops, for each input of the set before, the earliest input of the other side that duplicates it. -/
def dropRepeats : List Input → List Input → List Input
  | [], l => l
  | p :: ps, l => match l.find? (sameInput p) with
    | some j => dropRepeats ps (l.erase j)
    | none => dropRepeats ps l

/-- The set formed from the inputs of the lists a VERDICT names: de-duplicated against the set before and across the
sides, and ordered (R304). -/
def formSet (prev l : List Input) : List Input :=
  let l := dropRepeats prev (inputSort l)
  let m := mergeSides (l.filter fun i => !i.side) (l.filter fun i => i.side)
  inputSort (m.1 ++ m.2)

/-! ### Agreement -/

/-- The end of a pair command (Table 13.13). -/
def rduEnd (s : State) (code rsn : Nat) : State :=
  setStatus s Reg.RDU_CMDSTS_CC Reg.RDU_CMDSTS_RSN Reg.RDU_CMDSTS_PEND code rsn

/-- The claim of a unit that takes over or becomes ACTIVE by a swap: C + 1, its own being C − 1 (Table 13.4). -/
def nextClaim (s : State) : Nat := (s.rdu.claimHeld.getD 0).toNat + 2

/-- Stores the claim a STANDBY unit is about to take (R308); above the range it takes none (R312). -/
def takeClaim (s : State) : State :=
  if 2 ^ 32 ≤ nextClaim s then addCause s .claimExhausted else storeClaim s (BitVec.ofNat 32 (nextClaim s))

/-- SWAP at its agreement in tick j (R320): the roles exchange at edge j + 1, once for all the SWAPs of the set; with a
takeover decided it is dropped (R321). -/
def agreeRduSwap (s : State) (own : Bool) : State :=
  if s.rdu.takeAt.isSome then (if own then rduEnd s CC.failRefused Rsn.modeBusy else s)
  else if s.rdu.swapEdge.isSome then
    { s with rdu := { s.rdu with swapEdge := s.rdu.swapEdge.map fun e => (e.1, e.2 || own) } }
  else if inStep s then
    let s := { s with rdu := { s.rdu with swapEdge := some (s.tb.tick + 1, own) } }
    if modeIs s = .standby then takeClaim s else s
  else if own then rduEnd s CC.failRefused Rsn.noPartner else s

/-- What an input does when the set that holds it is formed: the commands whose checks are made at agreement. -/
def agreeInput (s : State) (i : Input) : State :=
  match i.body with
  | .arm ks fr => agreeArm s (mine s i) ks fr
  | .olcAbort w => agreeAbort s i w
  | .swap kf => agreeFacetSwap s (mine s i) kf
  | .facetAbort w => agreeFacetAbort s i w
  | .loopSwap _ _ => agreeLcmd s (mine s i) i.body
  | .groupSwap _ _ => agreeLcmd s (mine s i) i.body
  | .rduSwap => agreeRduSwap s (mine s i)
  | _ => s

/-- An input that a unit in RESYNC acts on at its agreement: an ABORT. -/
def agreesInResync (i : Input) : Bool :=
  match i.body with
  | .olcAbort _ => true
  | .facetAbort _ => true
  | _ => false

/-- A set formed in this tick: its commands are agreed, and it becomes current at the next edge (R301). A
unit in RESYNC runs no program, so it arms nothing. -/
def agreeSet (s : State) (l : List Input) : State :=
  let a : AgreedSet := ⟨s.tb.tick + 1, l⟩
  let s := { s with rdu := { s.rdu with
    agreed := s.rdu.agreed ++ [a], prevSet := l, built := s.tb.tick } }
  (if modeIs s = .resync then l.filter agreesInResync else l).foldl agreeInput s

/-- A host command that no set takes ends in its own register, at the unit it was written to. -/
def endHost (s : State) (i : Input) (c r : Nat) : State :=
  match i.body with
  | .forceSet _ _ => frcEnd s c r
  | .forceRelease _ => frcEnd s c r
  | .forceReleaseAll => frcEnd s c r
  | .arm _ _ => olcEnd s c r
  | .olcAbort _ => if s.csa.armed.isSome then s else olcEnd s c r
  | .swap _ => fctEnd s c r
  | .facetAbort _ => if s.fct.armed.isSome then s else fctEnd s c r
  | .loopSwap _ _ => lcEnd s c r
  | .groupSwap _ _ => lcEnd s c r
  | .loopClear _ => lcEnd s c r
  | .loopClearAll => lcEnd s c r
  | .release _ => vcmdEnd s c r
  | .clearMm _ => vcmdEnd s c r
  | .rduSwap => rduEnd s c r
  | .rduClear => rduEnd s c r
  | _ => s

/-- A host command whose list was dropped ends (R303). -/
def dropHost (s : State) (i : Input) : State := endHost s i CC.failPeerUnreachable Rsn.chordLate

/-! ### A set becomes current -/

/-- The counters of the RDU (Tables 13.15, 13.17) at 0. -/
def rduZero (s : State) : State :=
  let s := wr (wr s Reg.RDU_AGSTS_LATE 0) Reg.RDU_AGSTS_EXCL 0
  wr (wr s Reg.RDU_CHSTS_CRCERR 0 0) Reg.RDU_CHSTS_CRCERR 0 1

/-- One input that no unit's own part of the set handles. -/
def applyInput (s : State) (i : Input) : State :=
  match i.body with
  | .forceSet _ _ => forceInput s i
  | .forceRelease _ => forceInput s i
  | .forceReleaseAll => forceInput s i
  | .loopClear _ => clearInput s (mine s i) i.body
  | .loopClearAll => clearInput s (mine s i) i.body
  | .rduClear => let s := rduZero s; if mine s i then rduEnd s CC.done 0 else s
  | .linkState r down =>
    let l := s.rdu.links.filter (· ≠ (r, i.side))
    { s with rdu := { s.rdu with links := if down then l ++ [(r, i.side)] else l } }
  | _ => s

/-- A set takes effect at its edge: commands and link states in order, the postings of metering and of the solver, the
Vertex messages, the imports. -/
def applySet (s : State) (l : List Input) : State :=
  exportInputs (vertexInputs (mailboxEdge (meterSet (l.foldl applyInput s) l) l) l) l

end Sys2Proof.Machine
end

