-- ==== Sys2Proof/Machine/Rdu.lean ====
section
/-! DEFINITION. The Redundancy Unit (13_redundant_pairs.md): the Chord links, pairing, the lists and verdicts of input
agreement, staying in step, takeover and the state copy. -/

namespace Sys2Proof.Machine

/-! ### Claims held and the state copy, resyncing side (R308, R316 to R319, R436) -/

/-- The unit holds a claim, or none (Table 13.4); a new one is sent in CLAIM. -/
def holdClaim (s : State) (c : Option (BitVec 32)) : State :=
  let s := wrB { s with rdu := { s.rdu with claimHeld := c } } Reg.RDU_STATUS_HELD c.isSome
  match c with
  | some x => if linked s then sendChord s none s.tb.tick false (.claim x s.tb.tick) else s
  | none => s

/-- The number of a region (Table 13.7). -/
def regionNo : RegionData → Nat
  | .program _ => 0
  | .facet _ => 1
  | .forces _ => 2
  | .banks .. => 3
  | .retained _ => 4
  | .data _ => 5
  | .image _ => 6
  | .loops .. => 7
  | .mailbox .. => 8
  | .vertex .. => 9
  | .thermal _ => 10

/-- The end of a copy. -/
def copyEnd (s : State) (code rsn : Nat) : State :=
  let s := setStatus (putCopy s none) Reg.RDU_CPSTS_CC Reg.RDU_CPSTS_RSN Reg.RDU_CPSTS_PEND code rsn
  wr s Reg.RDU_CPSTS_STATE 0

/-- A copy whose partner is lost after it was answered, before a restart too, is abandoned (R319). -/
def abandonCopy (s : State) : State :=
  match s.rdu.copy with
  | some c => match c.answered with
    | some kc =>
      let s := event s Ev.resyncAbandoned .critical
        (lowHigh kc ++ [rd s Reg.RDU_CPMASK_DONEMASK, rd s Reg.RDU_CPSTS_REGION, rd s Reg.RDU_CPBYTES_BYTES])
      addCause (copyEnd s CC.failAbandoned 0) (.abandoned (rd s Reg.RDU_CPMASK_DONEMASK))
    | none => s
  | none => s

/-! ### Frames (R299) -/

/-- What every valid frame tells: the partner is heard, its mode and SAVE flag. -/
def noteFrame (s : State) (h : ChordHead) : State :=
  let s := wr s Reg.RDU_STATUS_PMODE (modeCode h.mode)
  let s := { s with rdu := { s.rdu with
    partnerSave := h.save, saveHeard := if h.save then some s.tb.tick else s.rdu.saveHeard } }
  let s := match s.rdu.copy with
    | some c =>
      if h.save then copyEnd s CC.failPower 0
      else if c.answered.isSome ∧ h.mode ≠ .active then abandonCopy s
      else s
    | none => s
  let s := if h.mode ≠ .resync ∨ h.save then
      { s with rdu := { s.rdu with copyReq := false, sendCopy := none } } else s
  copyStart (showRdu s)

/-- Takes a frame off a link: only HELLO and KEEP on an unpaired one, and of each FSEQ the first copy. The Boolean says
whether the frame is new. -/
def chordTake (s : State) (n : Fin 2) (h : ChordHead) (hello : Bool) : State × Bool :=
  if !rdB s Reg.RDU_CHSTS_LOCK n.val || decide (resState s (chRes n.val) = .retired)
      || (!hello && !rdB s Reg.RDU_CHSTS_PAIRED n.val) then (s, false)
  else
    let s := { s with rdu := { s.rdu with silent := false } }
    let put := fun (g : List (BitVec 32 × Bool)) (f : BitVec 32) =>
      (noteFrame { s with rdu := { s.rdu with fseqIn := some f, gaps := g } } h, true)
    match s.rdu.fseqIn with
    | none => put [] h.fseq
    | some f =>
      if newer32 h.fseq f then
        let miss := (List.range ((h.fseq - f).toNat - 1)).map fun i => (f + 1 + BitVec.ofNat 32 i, false)
        put (s.rdu.gaps ++ miss) h.fseq
      else if s.rdu.gaps.any (·.1 = h.fseq) then put (s.rdu.gaps.filter (·.1 ≠ h.fseq)) f
      else (s, false)

/-! ### Training, latency and the pairing frames (R297, R298, R300) -/

/-- CHORD_TRAINED (R297): the link locks on its lanes and rate and carries HELLO. -/
def chordTrained (s : State) (n : Fin 2) (lanes : Nat) (rate : Bool) (lat : Nat) : State :=
  if resState s (chRes n.val) = .retired ∨ lanes = 0 then s
  else
    let other := rdB s Reg.RDU_CHSTS_LOCK (1 - n.val)
    let s := if other then s else { s with rdu := { s.rdu with fseqIn := none, gaps := [] } }
    let s := { s with rdu := { s.rdu with absent := false } }
    let s := wrB (wr (wr s Reg.RDU_CHSTS_LOCK 1 n.val) Reg.RDU_CHSTS_LANES (min 4 lanes) n.val) Reg.RDU_CHSTS_RATE rate n.val
    let s := wr (wr s Reg.RDU_CHLAT_LAT lat n.val) Reg.RDU_CHSTS_RSN (if rdB s Reg.RDU_CFG_PAIRED then 0 else 6) n.val
    let s := if lanes < 4 then event s Ev.chordLanes .warning [] else s
    sendHello (showRdu (showLink s n.val)) n

/-- CHORD_TRAINED. -/
def execChordTrained (n : Fin 2) (lanes : Fin 8) (rate : Bool) (lat : Nat) (s : State) :
    Host.Outcome State Fault Refusal := .next (chordTrained s n lanes.val rate lat)

/-- The link is without lock; with the other one without it too, the time of R311 runs. -/
def chDown (s : State) (n : Nat) : State :=
  let was := rdB s Reg.RDU_CHSTS_LOCK n
  let s := unpair (wr (wr s Reg.RDU_CHSTS_LOCK 0 n) Reg.RDU_CHSTS_LANES 0 n) n
  let s := if was && !rdB s Reg.RDU_CHSTS_LOCK (1 - n) then { s with rdu := { s.rdu with unlockedFrom := s.tb.now } } else s
  showRdu (showLink s n)

/-- CHORD_LOCK_LOST (R297). -/
def execChordLockLost (n : Fin 2) (s : State) : Host.Outcome State Fault Refusal := .next (chDown s n.val)

/-- CHORD_CRC_ERROR (R299): an upset of the link; with both retired the class's FAULTMAP byte decides. -/
def chordCrc (s : State) (n : Fin 2) : State :=
  (upset (bump s Reg.RDU_CHSTS_CRCERR n.val) (chRes n.val) fun s =>
    let s := chDown s n.val
    if rdB s Reg.RDU_CFG_PAIRED && decide (resState s (chRes (1 - n.val)) = .retired) then holdCause s .chord else s).1

/-- CHORD_CRC_ERROR. -/
def execChordCrcError (n : Fin 2) (s : State) : Host.Outcome State Fault Refusal := .next (chordCrc s n)

/-- The latency of a Chord link is measured (R300): the link's fitness is judged anew. -/
def latency (s : State) (n : Fin 2) (lat : Nat) : State :=
  if !rdB s Reg.RDU_CHSTS_LOCK n.val then s
  else
    let s := showLink (wr s Reg.RDU_CHLAT_LAT lat n.val) n.val
    match s.rdu.hello with
    | some h =>
      if rdB s Reg.RDU_CHSTS_PAIRED n.val || decide (rd s Reg.RDU_CHSTS_RSN n.val = 5) then judgeLink s n.val h
      else showRdu s
    | none => showRdu s

/-- LATENCY_MEASURE (R300, R322). -/
def execLatencyMeasure (l : SerialLink) (lat : Nat) (s : State) : Host.Outcome State Fault Refusal :=
  .next (match l with
    | .chord n => latency s n lat
    | .cascade n =>
      if rdB s Reg.CSC_CLSTS_LOCK n.val then { s with csc := { s.csc with lat := tput s.csc.lat n.val lat } } else s)

/-- HELLO (R298, R309): the link pairs or is refused; a held claim of the other side is heard. -/
def helloRx (s : State) (n : Fin 2) (head : ChordHead) (h : Hello) : State :=
  if !rdB s Reg.RDU_CHSTS_LOCK n.val ∨ resState s (chRes n.val) = .retired then s
  else
    let s := judgeLink { s with rdu := { s.rdu with hello := some h } } n.val h
    let s := (chordTake s n head true).1
    if head.held && decide (h.side ≠ ownSide s) then hearClaim s h.claim else s

/-- HELLO. -/
def execHello (n : Fin 2) (head : ChordHead) (h : Hello) (s : State) : Host.Outcome State Fault Refusal :=
  .next (helloRx s n head h)

/-- KEEP (R299). -/
def execKeep (l : SerialLink) (head : ChordHead) (s : State) : Host.Outcome State Fault Refusal :=
  .next (match l with
    | .chord n => (chordTake s n head true).1
    | .cascade n => (clTake s n head true).1)

/-- The Chord gaps not yet requested are requested, once. -/
def chordGaps (s : State) (n : Fin 2) : State :=
  let l := (s.rdu.gaps.filter fun g => !g.2).map (·.1)
  if l.isEmpty then s
  else sendChord { s with rdu := { s.rdu with gaps := s.rdu.gaps.map fun g => (g.1, true) } } (some n) s.tb.tick false
    (.resend l)

/-- FSEQ_GAP_TIMEOUT (R299, R322). -/
def execFseqGapTimeout (l : SerialLink) (s : State) : Host.Outcome State Fault Refusal :=
  .next (match l with
    | .chord n => chordGaps s n
    | .cascade n => askGaps s n)

/-! ### Lists (R301 to R303) -/

/-- The partner's list of a tick. -/
def hisList (s : State) (j : Nat) : PartnerList := (s.rdu.partner.find? (·.tick = j)).getD ⟨j, [], none⟩

/-- Puts the partner's list of a tick. -/
def putHis (s : State) (l : PartnerList) : State :=
  { s with rdu := { s.rdu with partner := (s.rdu.partner.filter (·.tick ≠ l.tick)) ++ [l] } }

/-- The partner's CLOSE is in hand, its count and digest matching the INPUT frames received (R302). -/
def listWhole (l : PartnerList) : Bool :=
  match l.close with
  | some (n, d) => decide (n = l.inputs.length) && decide (d = inputsDigest l.inputs)
  | none => false

/-- The own list of a tick. -/
def ownList (s : State) (j : Nat) : List Input := (s.rdu.own.filter (·.1 = j)).flatMap (·.2)

/-- Drops the own lists of the ticks before tick k. -/
def dropOwn (s : State) (k : Nat) : State := { s with rdu := { s.rdu with own := s.rdu.own.filter fun e => k ≤ e.1 } }

/-- Drops the partner's lists of the ticks before tick k. -/
def dropHis (s : State) (k : Nat) : State :=
  { s with rdu := { s.rdu with partner := s.rdu.partner.filter fun e => k ≤ e.tick } }

/-- A unit that closes its own list alone notes the link states its partner forwards at once: DESIGN CHOICE (log entry
103). -/
def noteLink (s : State) (i : Input) : State :=
  match i.body with
  | .linkState .. => applyInput s i
  | _ => s

/-- The closing unit at phase 1 of tick j + 1 (R302, R303): its own list, the partner's when it is whole, and one
carried; a unit that is not ACTIVE, or whose links carried nothing in tick j, closes its own list alone; a list missing
now may still be carried, one missing a tick later is dropped and counted. -/
def closeSet (s : State) : State :=
  let j := s.tb.tick - 1
  let own := (s.rdu.own.filter fun e => e.1 < s.tb.tick).flatMap (·.2)
  if !linked s ∨ j < s.rdu.carryFrom ∨ emitMode s ≠ .active then
    let k := s.tb.tick
    let s := (s.rdu.partner.flatMap (·.inputs)).foldl noteLink s
    agreeSet (dropHis (dropOwn { s with rdu := { s.rdu with late := [], lateRun := false } } k) k) (inputSort own)
  else
    let his := hisList s j
    let here := listWhole his
    let lates := s.rdu.late.map (hisList s)
    let carried := lates.filter listWhole
    let lost := (lates.filter fun l => !listWhole l).foldl (fun n l => n + l.inputs.length) 0
    let s := bump (bump s Reg.RDU_AGSTS_LATE 0 carried.length) Reg.RDU_AGSTS_EXCL 0 lost
    let s := if !here && !s.rdu.lateRun then event s Ev.chordLate .warning [] else s
    let s := { s with rdu := { s.rdu with late := if here then [] else [j], lateRun := !here } }
    let set := formSet s.rdu.prevSet (own ++ (if here then his.inputs else []) ++ carried.flatMap (·.inputs))
    let s := dropOwn (dropHis s (if here then s.tb.tick else j)) s.tb.tick
    let s := sendChord s none s.tb.tick (!carried.isEmpty)
      (.verdict ⟨true, here, !carried.isEmpty, set.length, inputsDigest set⟩)
    agreeSet s set

/-- A unit declared out of step in this tick (R306): shown, recorded, and due to RESYNC; an ACTIVE unit yields. -/
def outOfStep (s : State) (cause : Nat) : State :=
  let m := emitMode s
  if (m = .active ∨ m = .standby) ∧ !(s.ssu.causes.any fun c => match c with | .outOfStep .. => true | _ => false) then
    let s := wr (wr s Reg.RDU_OOS_CAUSE cause) Reg.RDU_OOS_TICK s.tb.tick
    let s := event s Ev.outOfStep .warning []
    let s := addCause s (.outOfStep cause s.tb.tick)
    if m = .active ∧ inStep s then putYield s (s.tb.tick + 1) 2 else s
  else s

/-- A unit that builds its sets from the partner's VERDICT: STANDBY and RESYNC (R305, R316). -/
def follows (s : State) : Bool :=
  match emitMode s with
  | .standby => true
  | .resync => true
  | _ => false

/-- Ends the host commands of own lists that the VERDICTs left out (R303). -/
def dropLate (s : State) : State :=
  let old := s.rdu.own.filter fun e => e.1 + 2 ≤ s.tb.tick
  let s := { s with rdu := { s.rdu with own := s.rdu.own.filter fun e => s.tb.tick < e.1 + 2 } }
  (old.flatMap (·.2)).foldl dropHost s

/-- Builds the set of the present tick from the VERDICT, once it and every list it names are in hand (R305); a set that
does not match the VERDICT's count and digest declares the unit out of step, its own commands staying in its lists. -/
def buildSet (s : State) : State :=
  match s.rdu.verdict with
  | none => s
  | some (t, v) =>
    if !follows s ∨ t ≠ s.tb.tick then s
    else
      let his := hisList s (t - 1)
      if v.own && !listWhole his then s
      else
        let l := (if v.own then his.inputs else []) ++ (if v.partner then ownList s (t - 1) else [])
          ++ (if v.carried then ownList s (t - 2) else [])
        let set := formSet s.rdu.prevSet l
        let used := fun (j : Nat) => (v.partner && decide (j = t - 1)) || (v.carried && decide (j = t - 2))
        let s := { s with rdu := { s.rdu with verdict := none } }
        if set.length ≠ v.count ∨ inputsDigest set ≠ v.digest then outOfStep (dropHis s t) 3
        else
          let s := { s with rdu := { s.rdu with own := s.rdu.own.filter fun e => !used e.1 } }
          agreeSet (dropLate (dropHis s t)) set

/-- INPUT (R301): the partner's input joins its list. -/
def execInput (n : Fin 2) (head : ChordHead) (i : Input) (s : State) : Host.Outcome State Fault Refusal :=
  .next (let r := chordTake s n head false
    if r.2 then
      let l := hisList r.1 (tickOf s i.stamp)
      buildSet (putHis r.1 { l with inputs := l.inputs ++ [i] })
    else r.1)

/-- A unit in STANDBY or RESYNC steers its rate to its partner's tick edges (R33), which the CLOSE the partner sends at
each edge shows: DESIGN CHOICE (log entry 66). -/
def followPartner (s : State) : State :=
  if modeIs s = .standby ∨ modeIs s = .resync then
    let (k, s) := nextFree s
    let (ref, slew, s) := neededRate s (freeWord k).toInt
    setRate s ref slew
  else s

/-- CLOSE (R302, R33). -/
def execClose (n : Fin 2) (head : ChordHead) (count : Nat) (digest : BitVec 64) (s : State) :
    Host.Outcome State Fault Refusal :=
  .next (let r := chordTake s n head false
    if r.2 then buildSet (putHis (followPartner r.1) { hisList r.1 head.tick with close := some (count, digest) })
    else r.1)

/-- VERDICT (R305): a carried list goes with LATE in its header (R303). -/
def execVerdict (n : Fin 2) (head : ChordHead) (v : Verdict) (s : State) : Host.Outcome State Fault Refusal :=
  .next (let r := chordTake s n head false
    let v := { v with carried := v.carried || head.late }
    if r.2 then buildSet { r.1 with rdu := { r.1.rdu with verdict := some (head.tick, v) } } else r.1)

/-! ### Claims (R308, R309) -/

/-- CLAIM (R309). -/
def execClaim (n : Fin 2) (head : ChordHead) (claim : BitVec 32) (_edge : Nat) (s : State) :
    Host.Outcome State Fault Refusal :=
  .next (let r := chordTake s n head false
    if r.2 then hearClaim r.1 claim else r.1)

/-! ### Takeover (R314, R315) -/

/-- The first tick edge at least 5 µs from now. -/
def edgeAfter (s : State) : Nat := (s.tb.now + 5000 + tickNs s - 1) / tickNs s

/-- The set of the present tick closed alone: the own list and every input the partner forwarded (R314). -/
def closeAlone (s : State) : State :=
  if s.rdu.built = s.tb.tick then s
  else
    let k := s.tb.tick
    let l := (s.rdu.own.filter fun e => e.1 < k).flatMap (·.2)
      ++ (s.rdu.partner.filter fun e => e.tick < k).flatMap (·.inputs)
    let s := dropOwn (dropHis { s with rdu := { s.rdu with verdict := none } } k) k
    agreeSet s (formSet s.rdu.prevSet l)

/-- A takeover is decided (R314, R308): for a row of Table 13.5, not before an edge. The claim C + 1 is stored. -/
def takeOver (s : State) (row edge : Nat) : State :=
  if emitMode s ≠ .standby ∨ s.rdu.takeAt.isSome then s
  else
    let k := s.tb.tick
    let s := event s Ev.takeover .warning ((causeCode row).toNat :: lowHigh k)
    takeClaim { s with rdu := { s.rdu with takeAt := some (max edge (edgeAfter s), row, k) } }

/-- YIELD (R314). -/
def execYield (n : Fin 2) (head : ChordHead) (edge reason : Nat) (s : State) : Host.Outcome State Fault Refusal :=
  .next (let r := chordTake s n head false
    if r.2 then takeOver r.1 reason edge else r.1)

/-- The partner declared itself out of step: it yields for that row of Table 13.5, or has gone to RESYNC. A NONCOMMIT of
its own it tells in no other way: DEDUCED (log entry 101). -/
def partnerDeclared (s : State) : Bool :=
  (match s.rdu.takeAt with | some (_, row, _) => decide (row = 2) | none => false)
    || decide (modeOf (rd s Reg.RDU_STATUS_PMODE) = .resync)

/-- VERDICT_LIMIT (R305, R306, R314): phase 1 + AGREE % of T. A STANDBY unit without its set takes over when the partner
is silent, and is out of step when it is still heard; with it, the digests of the tick before are compared. -/
def verdictLimit (s : State) : State :=
  let s := advance s (s.tb.tick * tickNs s + 2 * rd s Reg.TBC_TICKCFG_AGREE * tickNs s / 100)
  if emitMode s ≠ .standby then s
  else
    let k := s.tb.tick
    let s :=
      if s.rdu.built = k then s
      else if s.rdu.takeAt.isSome then closeAlone s
      else if s.rdu.silent then closeAlone (takeOver s 1 0)
      else outOfStep s 2
    let own := s.rdu.ownDigest.find? (·.1 = k - 1)
    let his := s.rdu.hisDigest.find? (·.1 = k - 1)
    match own, his with
    | some a, some b =>
      if a.2 ≠ b.2 ∧ !s.rdu.nonCommit.contains (k - 1) ∧ !partnerDeclared s then outOfStep s 4 else s
    | _, _ => s

/-- VERDICT_LIMIT. -/
def execVerdictLimit (s : State) : Host.Outcome State Fault Refusal := .next (verdictLimit s)

/-- PARTNER_SILENCE (R299, R314, R319): no frame on any link for 4 µs; a copy that was answered is abandoned. -/
def execPartnerSilence (s : State) : Host.Outcome State Fault Refusal :=
  .next (showRdu (abandonCopy { s with rdu := { s.rdu with silent := true } }))

/-- PARTNER_ABSENT_EXPIRY (R311): no link has had lock for ABSENT seconds. -/
def execPartnerAbsentExpiry (s : State) : Host.Outcome State Fault Refusal :=
  .next (
    let due := s.rdu.unlockedFrom + max 1 (rd s Reg.RDU_CFG_ABSENT) * 10 ^ 9
    if rdB s Reg.RDU_CHSTS_LOCK 0 || rdB s Reg.RDU_CHSTS_LOCK 1 || decide (s.tb.now < due) then s
    else { s with rdu := { s.rdu with absent := true } })

/-! ### Tick digests (R306) -/

/-- The commits of a tick, the points in rising order. -/
def commitsOf (s : State) (k : Nat) : CommitRec :=
  let c := match s.rdu.commits.find? (·.tick = k) with | some c => c | none => ⟨k, [], [], [], [], 0⟩
  { c with points := (c.points.foldl (fun (t : Tbl (Word × Qual)) e => tput t e.1 e.2) []).map fun e => (e.1, e.2.1, e.2.2) }

/-- A copy's first tick in step is checked when both digests are known (R318): equal, it is complete; else it starts
again. -/
def copyVerify (s : State) : State :=
  match s.rdu.copy with
  | some c => match c.exec with
    | some m =>
      match s.rdu.ownDigest.find? (·.1 = m), s.rdu.hisDigest.find? (·.1 = m) with
      | some a, some b => if a.2 = b.2 then addCause s .copyComplete else askCopy s c.since c.answered
      | _, _ => s
    | none => s
  | none => s

/-- The bytes that the commits of a tick overwrite in regions 4 to 10: the data words and points, and the record of each
loop at its size in region 7. -/
def commitBytes (c : CommitRec) : Nat :=
  8 * ((c.data.map fun e => e.1 / 8).dedup.length + (c.retained.map fun e => e.1 / 8).dedup.length)
    + 16 * c.points.length + 128 * c.loops.length

/-- The pre-image buffer (R316). -/
def preImageMax : Nat := 2 * 2 ^ 20

/-- The lanes over which a copy goes: those of the links that carry traffic. -/
def copyLanes (s : State) : Nat :=
  s.rdu.carries.foldl (fun m n => if rdB s Reg.RDU_CHSTS_PAIRED n then max m (rd s Reg.RDU_CHSTS_LANES n) else m) 0

/-- The copy being sent goes on by a tick: COMMITS, the regions at 1.0 GB/s per lane less the commit stream, and what the
commits overwrite of the regions not yet sent goes to the pre-image buffer, whose overflow ends the copy (R316, R318). -/
def sendOn (s : State) (c : CommitRec) : State :=
  match s.rdu.sendCopy with
  | some r =>
    let s := sendChord s none c.tick false (.commits c)
    let b := commitBytes c
    let r := { r with left := r.left - (copyLanes s * tickNs s - b), preImage := if r.left = 0 then 0 else r.preImage + b }
    { s with rdu := { s.rdu with sendCopy := if preImageMax < r.preImage then none else some r } }
  | none => s

/-- A unit is out of step for an instance or loop of its own that failed for a hardware cause, unless its digest shows
that the partner failed alike (R306). -/
def nonCommitDeclared (s : State) (k : Nat) (own : BitVec 64) : Bool :=
  s.rdu.nonCommit.contains k && inStep s && !(s.rdu.hisDigest.any fun e => decide (e.1 = k) && decide (e.2 = own))

/-- The tick digest after phase 2: sent to a paired partner, with the commits to one that is being copied to. A unit
whose own instance or loop failed for a hardware cause is out of step. -/
def digestTick (s : State) : State :=
  let k := s.tb.tick
  let c := commitsOf s k
  let c := { c with digest := commitDigest c }
  let s := { s with rdu := { s.rdu with
    ownDigest := (s.rdu.ownDigest.filter fun e => k < e.1 + 3) ++ [(k, c.digest)]
    hisDigest := s.rdu.hisDigest.filter fun e => k < e.1 + 3
    commits := s.rdu.commits.filter fun e => k < e.tick + 2 } }
  let s := if linked s then sendChord s none k false (.digest c.digest) else s
  let s := sendOn s c
  let s := if nonCommitDeclared s k c.digest then outOfStep s 1 else s
  copyVerify { s with rdu := { s.rdu with nonCommit := s.rdu.nonCommit.filter fun j => k < j + 3 } }

/-- DIGEST (R306). -/
def execDigest (n : Fin 2) (head : ChordHead) (d : BitVec 64) (s : State) : Host.Outcome State Fault Refusal :=
  .next (let r := chordTake s n head false
    if r.2 then copyVerify { r.1 with rdu := { r.1.rdu with hisDigest := r.1.rdu.hisDigest ++ [(head.tick, d)] } }
    else r.1)

/-! ### The state copy, ACTIVE side (R316) -/

/-- The register fields of a list that differ from their reset values. -/
def copyFlds (s : State) (fs : List Field) : Tbl Nat := s.flds.filter fun e => fs.any fun f => e.1 / 8192 = f.id

/-- Register fields taken from a copy. -/
def putFlds (s : State) (fs : List Field) (t : Tbl Nat) : State :=
  { s with flds := t.foldl (fun m e => tput m e.1 e.2) (s.flds.filter fun e => !fs.any fun f => e.1 / 8192 = f.id) }

/-- The fields of the regions that carry some (Table 13.7). -/
def bankFlds : List Field := [Reg.LPE_LSTS_BANK, Reg.LPE_LSTS_PENDSWAP]
def loopFlds : List Field :=
  [Reg.LPE_LSTS_QUAL, Reg.LPE_LSTS_MODE, Reg.LPE_LSTS_SATHI, Reg.LPE_LSTS_SATLO, Reg.LPE_LSTS_RLIM, Reg.LPE_LSTS_IHOLD]
def mboxFlds : List Field := [Reg.LSV_MBX0_QUAL, Reg.LSV_MBX1_SEQ, Reg.LSV_MBX2_ACKSEQ]
def ctxFlds : List Field :=
  [Reg.NPC_VSTS_QUAL, Reg.NPC_VSTS_MSTATE, Reg.NPC_VSTS_ADM, Reg.NPC_VSTS_REACH, Reg.NPC_VSTS_MED, Reg.NPC_VSTS_LINK,
   Reg.NPC_VSTS_MM, Reg.NPC_VSTS_TRUNC, Reg.NPC_VSTS_SESSION]

/-- The regions of Table 13.7 as they stand; program and facet only where the partner's digests differ. -/
def regions (s : State) : List RegionData :=
  let h := s.rdu.hello
  let prog := match running s with
    | some p => if (match h with | some h => decide (h.progDigest = BitVec.ofNat 64 (digest8 p.digest)) | none => false)
      then [] else [RegionData.program p.raw]
    | none => []
  let facet := match s.fct.active with
    | some f => if (match h with | some h => decide (h.facetDigest = BitVec.ofNat 64 (digest8 f.digest)) | none => false)
      then [] else [RegionData.facet f.raw]
    | none => []
  let steps := s.mte.chans.filterMap fun (c, x) => if 32 ≤ c then x.open_.map fun i => (c, i.count) else none
  prog ++ facet ++ [.forces s.csa.forces, .banks s.lpe.bankA s.lpe.bankB (copyFlds s bankFlds), .retained s.csa.rmem,
    .data s.csa.dmem, .image s.csa.img, .loops s.lpe.runs (copyFlds s loopFlds), .mailbox s.lsv.mbx (copyFlds s mboxFlds),
    .vertex s.npc.ctxs (copyFlds s ctxFlds), .thermal steps]

/-- COPYREQ (R316): answered at the next edge at which the unit is ACTIVE. -/
def execCopyreq (n : Fin 2) (head : ChordHead) (s : State) : Host.Outcome State Fault Refusal :=
  .next (let r := chordTake s n head false
    if r.2 then
      let s := dropLinks r.1 (!ownSide r.1)
      { s with rdu := { s.rdu with copyReq := true } }
    else r.1)

/-- The bytes of a region as it is sent (R316, Table 13.7): 0, 1, 2, 8 and 9 at the size of their content, by the sizes of
their elements there, the others full. -/
def regionBytes : RegionData → Nat
  | .program raw => raw.length
  | .facet raw => raw.length
  | .forces l => 32 * l.length
  | .banks .. => 192 * 1024
  | .retained _ => 64 * 1024
  | .data _ => 8192 * 1024
  | .image _ => 1024 * 1024
  | .loops .. => 128 * 1024
  | .mailbox l _ => l.foldl (fun n e => n + 8 * e.2.elems.length) 0
  | .vertex l _ => 128 * l.length
  | .thermal _ => 1024

/-- The copy at a tick edge: a request is answered with the regions as they stand, that edge being the snapshot edge. -/
def answerCopy (s : State) : State :=
  if modeIs s = .active ∧ s.rdu.copyReq ∧ linked s then
    let l := regions s
    let run : SendRun := ⟨s.tb.tick, l.foldl (fun n d => n + regionBytes d) 0, 0⟩
    let s := { s with rdu := { s.rdu with copyReq := false, sendCopy := some run } }
    let s := l.foldl (fun s d => sendChord s none run.kc false (.region d)) s
    tellLinks (sendChord s none run.kc false .copyEnd)
  else s

/-- A switch or swap at an edge restarts a copy under way (R318). -/
def restartCopy (s : State) : State :=
  if s.rdu.sendCopy.isSome then { s with rdu := { s.rdu with copyReq := true, sendCopy := none } } else s

/-! ### The state copy, resyncing side again -/

/-- Stages regions 0 to 3 in the slots the unit does not use (R317). -/
def stageRegion (s : State) (d : RegionData) : State :=
  let r := nextSlots s
  let image := fun (k : Nat) (raw : List Byte) => { s with nvs := { s.nvs with images := tput s.nvs.images k raw } }
  match d with
  | .program raw => image (if r.prog then 0 else 1) raw
  | .facet raw => image (if r.facet then 2 else 3) raw
  | .forces l => recWrite s (0x40 + if r.force then 0 else 0x10000) (.forces l)
  | .banks x y flds =>
    (List.range 1024).foldl (fun s n =>
      let sel := (tget flds (Reg.LPE_LSTS_BANK.key n)).getD 0 = 1
      let ws := (bankWords (if sel then y else x) n).zipIdx.map fun (w, i) => (i, w)
      recWrite s (0x400 + n + if r.bank then 0 else 0x10000) (.coef sel ws)) s
  | _ => s

/-- The verification of a copied image (R409). -/
def regionAuth (s : State) (d : RegionData) : Option Nat :=
  match d with
  | .program raw => verifyImage s.ssu.otp false raw
  | .facet raw => verifyImage s.ssu.otp true raw
  | _ => none

/-- REGION (R316): `bytes` of it have come, all of them when `whole`; its TICK is the snapshot edge. A newer snapshot
starts the copy again. -/
def region (s : State) (kc bytes : Nat) (whole : Bool) (d : RegionData) : State :=
  match s.rdu.copy with
  | none => s
  | some c =>
    if modeIs s ≠ .resync then s
    else
      let again := match c.kc with | some k => decide (k ≠ kc) | none => true
      let c := if again then { freshCopy c.since (some kc) with kc := some kc } else c
      let s := if again then wr s Reg.RDU_CPMASK_DONEMASK 0 else s
      let r := regionNo d
      let s := wr (wr (wr s Reg.RDU_CPSTS_STATE 2) Reg.RDU_CPSTS_REGION r) Reg.RDU_CPBYTES_BYTES bytes
      if !whole then putCopy s (some c)
      else match regionAuth s d with
        | some e => copyEnd { s with rdu := { s.rdu with noCopy := true } } CC.failAuth e
        | none =>
          let m := rd s Reg.RDU_CPMASK_DONEMASK
          let s := if bitsOf m r 1 = 1 then s else wr s Reg.RDU_CPMASK_DONEMASK (m + 2 ^ r)
          putCopy (stageRegion s d) (some { c with regions := (c.regions.filter fun x => regionNo x ≠ r) ++ [d] })

/-- REGION. -/
def execRegion (n : Fin 2) (head : ChordHead) (bytes : Nat) (whole : Bool) (d : RegionData) (s : State) :
    Host.Outcome State Fault Refusal :=
  .next (let r := chordTake s n head false
    if r.2 then region r.1 head.tick bytes whole d else r.1)

/-- COMMITS (R318): the commit stream. -/
def execCommits (n : Fin 2) (head : ChordHead) (c : CommitRec) (s : State) : Host.Outcome State Fault Refusal :=
  .next (let r := chordTake s n head false
    if r.2 then
      match r.1.rdu.copy with
      | some x => putCopy r.1 (some { x with stream := (x.stream.filter (·.tick ≠ c.tick)) ++ [c] })
      | none => r.1
    else r.1)

/-- COPYEND (R316): the regions are complete and the unit catches up. -/
def execCopyend (n : Fin 2) (head : ChordHead) (s : State) : Host.Outcome State Fault Refusal :=
  .next (let r := chordTake s n head false
    if r.2 then
      match r.1.rdu.copy with
      | some x => if x.kc.isSome then
          putCopy (wr (wr r.1 Reg.RDU_CPSTS_STATE 3) Reg.RDU_CPSTS_REGION 11) (some { x with ended := true }) else r.1
      | none => r.1
    else r.1)

/-- COPY_TIME_LIMIT (R318): 60 s after COPYREQ; a new copy is requested. -/
def execCopyTimeLimit (s : State) : Host.Outcome State Fault Refusal :=
  .next (match s.rdu.copy with
    | some c => if c.since + 60000000000 ≤ s.tb.now then copyStart (copyEnd s CC.failBudget Rsn.copyRate) else s
    | none => s)

/-- A region takes effect. -/
def applyRegion (s : State) (d : RegionData) : State :=
  match d with
  | .program raw => setMaxAge (putHalf s (rd s Reg.CSA_OLC_ACTHALF) (some (parseProgram raw))) (parseProgram raw)
  | .facet raw =>
    let old := s.fct.active
    let f := parseFacet raw
    npcFacet (fbcFacet (meterFacet old (lpeFacet old (putActive s (some f)))) f) old
  | .forces l => putForces s l
  | .banks a b flds => putFlds { s with lpe := { s.lpe with bankA := a, bankB := b } } bankFlds flds
  | .retained m => { s with csa := { s.csa with rmem := m } }
  | .data m => { s with csa := { s.csa with dmem := m } }
  | .image m => { s with csa := { s.csa with img := m, outNext := [] } }
  | .loops l flds => putFlds { s with lpe := { s.lpe with runs := l, reqs := [], results := [] } } loopFlds flds
  | .mailbox l flds => putFlds { s with lsv := { s.lsv with mbx := l, mbxNew := [] } } mboxFlds flds
  | .vertex l flds => setVsum (putFlds { s with npc := { s.npc with ctxs := l } } ctxFlds flds)
  | .thermal l => l.foldl (fun s (c, n) =>
      let x := chanOf s c
      match x.open_ with
      | some i => setChan s c { x with open_ := some { i with count := n } }
      | none => s) s

/-- The commits of a tick take effect, the points in the generation after it (R77). -/
def applyCommit (s : State) (c : CommitRec) : State :=
  let d := c.data.foldl (fun m e => Memory.setByte m e.1 e.2) s.csa.dmem
  let r := c.retained.foldl (fun m e => Memory.setByte m e.1 e.2) s.csa.rmem
  let s := { s with csa := { s.csa with dmem := d, rmem := r } }
  let put := fun (s : State) (p : Nat) (v : Word) (q : Qual) =>
    { s with csa := { s.csa with img := tput s.csa.img p ⟨v, q, BitVec.ofNat 32 c.tick⟩ } }
  let s := c.points.foldl (fun s e => put s e.1 e.2.1 e.2.2) s
  c.loops.foldl (fun s r =>
    let s := putResult s r
    match (wires s).find? (·.1 = r.loop) with
    | some (_, w) => put s w.outPt (BitVec.ofInt 64 r.run.out) r.run.outQ
    | none => s) s

/-- The commit stream holds every tick from the snapshot edge up to the one before edge k, and the set of edge k is in
hand (R318). -/
def caughtUp (s : State) (c : CopyRun) (k : Nat) : Bool :=
  match c.kc with
  | some kc => c.ended && c.exec.isNone && decide (kc < k)
      && (List.range (k - kc)).all (fun i => c.stream.any (·.tick = kc + i))
      && s.rdu.agreed.any (·.edge = k)
  | none => false

/-- At edge k a resyncing unit that has caught up takes the copied state, the commits and the sets since the snapshot,
and executes tick k itself (R318). -/
def catchUp (s : State) (k : Nat) : State :=
  match s.rdu.copy with
  | some c =>
    if modeIs s = .resync ∧ caughtUp s c k then
      let kc := c.kc.getD k
      let s := mapSequencers (c.regions.foldl applyRegion s)
      let sets := s.rdu.agreed
      let s := (List.range (k - kc)).foldl (fun s i =>
        let s := match c.stream.find? (·.tick = kc + i) with | some x => applyCommit s x | none => s
        let l := (sets.filter fun a => a.edge = kc + i + 1).flatMap (·.inputs)
        let s := applySet { s with tb := { s.tb with tick := kc + i + 1 } } l
        if kc + i + 1 < k then followEmission (noteElems (takeSnap s)) (kc + i + 1) else s) s
      let s := { s with tb := { s.tb with tick := k }, rdu := { s.rdu with agreed := s.rdu.agreed.filter fun a => k < a.edge } }
      putCopy { wr s Reg.RDU_CPSTS_STATE 4 with rdu := { s.rdu with applied := true } } (some { c with exec := some k })
    else s
  | none => s

/-! ### Pair commands (R320) -/

/-- A pair command: BUSY while one is pending, BAD_MODE in TEST (R397). -/
def rduCmd (s : State) (f : State → State) : State :=
  if rdB s Reg.RDU_CMDSTS_PEND then wr (wr s Reg.RDU_CMDSTS_CC CC.failRefused) Reg.RDU_CMDSTS_RSN Rsn.busy
  else if modeIs s = .test then rduEnd s CC.failRefused Rsn.badMode
  else f s

/-- RDU_SWAP. -/
def execRduSwap (s : State) : Host.Outcome State Fault Refusal :=
  .next (rduCmd s fun s =>
    if modeIs s ≠ .active ∧ modeIs s ≠ .standby then rduEnd s CC.failRefused Rsn.badMode
    else if !inStep s then rduEnd s CC.failRefused Rsn.noPartner
    else submitHost (wr s Reg.RDU_CMDSTS_PEND 1) Reg.RDU_CMD_CMD .rduSwap)

/-- RDU_CLEAR_COUNTERS: an input in ACTIVE and STANDBY, at once elsewhere. -/
def execRduClearCounters (s : State) : Host.Outcome State Fault Refusal :=
  .next (rduCmd s fun s =>
    if modeIs s = .active ∨ modeIs s = .standby then
      submitHost (wr s Reg.RDU_CMDSTS_PEND 1) Reg.RDU_CMD_CMD .rduClear
    else rduEnd (rduZero s) CC.done 0)

end Sys2Proof.Machine
end

