-- ==== Sys2Proof/Machine/Evr.lean ====
section
/-! DEFINITION. The commands of the Event Recorder and of the non-volatile store (15_nonvolatile_store.md,
16_event_recorder.md). -/

namespace Sys2Proof.Machine

/-! ### The bytes of a slot (R350, R352) -/

/-- One bit of CRC-16/CCITT (Table 16.2). -/
def crc16Bit (c : BitVec 16) : BitVec 16 := if c.msb then (c <<< 1) ^^^ 0x1021 else c <<< 1

/-- CRC-16/CCITT over bytes: polynomial 0x1021, initial 0xFFFF, no reflection, no final XOR. -/
def crc16 (bs : List Byte) : BitVec 16 :=
  bs.foldl (fun (c : BitVec 16) (b : Byte) =>
    let w : BitVec 16 := b.setWidth 16
    let c := c ^^^ (w <<< 8)
    crc16Bit (crc16Bit (crc16Bit (crc16Bit (crc16Bit (crc16Bit (crc16Bit (crc16Bit c)))))))) 0xFFFF

/-- FLAGS of a slot (R350). -/
def slotFlags (r : Rec) (idx len : Nat) : Nat :=
  r.source + (if r.staged then 16 else 0) + (if r.timeLate then 32 else 0)
    + (if len = 1 then 0 else if idx = 0 then len - 1 else idx) * 256

/-- TYPE of a slot (Table 16.1). -/
def slotType (idx len : Nat) : Nat := if len = 1 then 0 else if idx = 0 then 1 else if idx + 1 = len then 3 else 2

/-- The 32 bytes of a slot (Table 16.2). -/
def slotBytes (sl : Slot) : List Byte :=
  let r := sl.record
  let w0 := r.code + sevCode r.sev * 2 ^ 16 + slotType sl.idx sl.len * 2 ^ 18 + slotFlags r sl.idx sl.len * 2 ^ 20
  let data := (List.range 4).flatMap fun k => leBytes 4 ((r.words[4 * sl.idx + k]?).getD 0).toNat
  let head := leBytes 4 w0 ++ leBytes 4 r.opsec.toNat ++ leBytes 3 r.pcc.toNat ++ leBytes 1 r.sub.toNat ++ data
  head ++ leBytes 2 (crc16 head).toNat ++ leBytes 2 0xA5C3

/-- The bytes of a log slot as a read finds them: a slot holding no record reads 0 (shipped zero, or its mark is
cleared and its bytes are not kept by the model: log entry 8). -/
def logSlotBytes (s : State) (x : Nat) : List Byte :=
  match tget s.evr.log x with
  | some sl => slotBytes sl
  | none => List.replicate 32 0

/-! ### Commands of the recorder (R358–R363) -/

/-- The end of an `EVR_CMD` command. -/
def evrEnd (s : State) (code reason : Nat) : State :=
  setStatus s Reg.EVR_CMDSTS_CC Reg.EVR_CMDSTS_RSN Reg.EVR_CMDSTS_PEND code reason

/-- An `EVR_CMD` command: BUSY while one is pending, BAD_MODE in TEST (R397), else its own rule. -/
def evrCmd (s : State) (f : State → State) : State :=
  if rdB s Reg.EVR_CMDSTS_PEND then
    wr (wr s Reg.EVR_CMDSTS_CC CC.failRefused) Reg.EVR_CMDSTS_RSN Rsn.busy
  else if modeIs s = .test then evrEnd s CC.failRefused Rsn.badMode
  else f s

/-- FREEZE (R360, R363): stops writes to the log; refused in RECALL and SAVE. -/
def freeze (s : State) : State :=
  if modeIs s = .recall || modeIs s = .save then evrEnd s CC.failRefused Rsn.badMode
  else
    let at_ := match s.evr.frozenAt with | some t => t | none => rd s Reg.EVR_OPSEC_OPSEC
    evrEnd (wr { s with evr := { s.evr with frozenAt := some at_ } } Reg.EVR_STATUS_FROZEN 1) CC.done 0

/-- FREEZE. -/
def execFreeze (s : State) : Host.Outcome State Fault Refusal := .next (evrCmd s freeze)

/-- THAW (R361, R363). -/
def thaw (s : State) : State :=
  if rdB s Reg.EVR_STATUS_FROZEN then evrEnd (endFreeze s) CC.done 0 else evrEnd s CC.failRefused Rsn.notFrozen

/-- THAW. -/
def execThaw (s : State) : Host.Outcome State Fault Refusal := .next (evrCmd s thaw)

/-- Every LOST and DROP count at 0 (R363). -/
def clearCounts (s : State) : State :=
  (List.range 4).foldl (fun s i => wr (wr s Reg.EVR_LOSTDROP_LOST 0 i) Reg.EVR_LOSTDROP_DROP 0 i) s

/-- CLEAR_COUNTS. -/
def execClearCounts (s : State) : Host.Outcome State Fault Refusal :=
  .next (evrCmd s fun s => evrEnd (clearCounts s) CC.done 0)

/-- The sub-second of the calendar as it has come to count: of the pulses within a second no row tells, so it is a free
value below 2^15 (log entry 109). -/
def countSub (s : State) : State :=
  { s with rtc := { s.rtc with sub := (freeWord s.free).toNat % 32768 }, free := s.free + 1 }

/-- The four parameters of a TIME_ANCHOR (R355); the calendar is untrusted while OSF is set (17). -/
def anchorWords (s : State) : List Nat :=
  lowHigh s.rtc.secs ++
    [s.rtc.sub, (if rdB s Reg.TBC_RTCSTS_OSF then 0 else 1) + rd s Reg.TBC_RTCSTS_SRC * 2]

/-- Records a TIME_ANCHOR with its parameters. -/
def recordAnchor (s : State) (l : List Nat) : State := event s Ev.timeAnchor .notice l

/-- Writes every queued event record, in order. -/
def evrDrain (s : State) : State :=
  let s := match s.nvs.cur with
    | some ⟨_, .event _, _⟩ => nvsFinish s
    | _ => s
  let held := s.nvs.susp.filterMap fun q => match q.what with | .event r => some r | _ => none
  let s := held.foldl evrFinish { s with nvs := { s.nvs with
    susp := s.nvs.susp.filter fun q => match q.what with | .event _ => false | _ => true } }
  let l := s.nvs.queue.filterMap fun q => match q.what with | .event r => some r | _ => none
  let s := setQueue s (s.nvs.queue.filter fun q => match q.what with | .event _ => false | _ => true)
  l.foldl (fun s r => evrFinish (evrPlace s r) r) s

/-- CLEAR_LOG (R363): in HALT and out of a freeze; records already accepted are written first; every slot becomes
invalid, head and cursor go to 0, then LOG_CLEARED and a TIME_ANCHOR are written, and the command ends when that anchor
is complete. -/
def clearLog (s : State) : State :=
  if modeIs s ≠ .halt then evrEnd s CC.failRefused Rsn.badMode
  else if rdB s Reg.EVR_STATUS_FROZEN then evrEnd s CC.failRefused Rsn.frozen
  else
    let s := evrDrain s
    let s := { s with evr := { s.evr with log := [], placing := none } }
    let s := countSub (wr (wr s Reg.EVR_HEAD_HEAD 0) Reg.EVR_CURSOR_CURSOR 0)
    wr (recordAnchor (event s Ev.logCleared .notice []) (anchorWords s)) Reg.EVR_CMDSTS_PEND 1

/-- CLEAR_LOG. -/
def execClearLog (s : State) : Host.Outcome State Fault Refusal := .next (evrCmd s clearLog)

/-- A freeze has lasted FRZMAX seconds, 0 taken as 1 (Table 16.6). -/
def freezeOver (s : State) : Bool :=
  rdB s Reg.EVR_STATUS_FROZEN && (match s.evr.frozenAt with
    | some t => decide (t + max 1 (rd s Reg.EVR_CFG_FRZMAX) ≤ rd s Reg.EVR_OPSEC_OPSEC)
    | none => true)

/-- FREEZE_TIMEOUT (R361): the freeze ends and FREEZE_TIMEOUT is recorded. -/
def execFreezeTimeout (s : State) : Host.Outcome State Fault Refusal :=
  .next (if freezeOver s then event (endFreeze s) Ev.freezeTimeout .notice [] else s)

/-- CURSOR_WRITE (R358): the host moves the cursor; the slots passed count as read. -/
def execCursorWrite (v : BitVec 15) (s : State) : Host.Outcome State Fault Refusal :=
  .next (wr s Reg.EVR_CURSOR_CURSOR v.toNat)

/-- TIME_ANCHOR (R355): written when one is due, with what was captured as its operating second began. -/
def execTimeAnchor (s : State) : Host.Outcome State Fault Refusal :=
  .next (match s.evr.anchorDue with
    | some l => recordAnchor { s with evr := { s.evr with anchorDue := none } } l
    | none => s)

/-- The minutes between anchors; 0 is taken as 1 (Table 16.6). -/
def anchorSeconds (s : State) : Nat := (max 1 (rd s Reg.EVR_CFG_ANCHOR)) * 60

/-- OPSEC_ADVANCE (R354, R355): the operating seconds advance, the sub-sequence starts anew, and an anchor falls due.
While recall runs the count is not yet known. -/
def opsecAdvance (s : State) : State :=
  if recalling s then s
  else
    let o := (rd s Reg.EVR_OPSEC_OPSEC + 1) % 2 ^ 32
    let due := s.rtc.changed || (match s.evr.anchorAt with | some t => t ≤ o | none => false)
    let s := wr (if due then countSub s else s) Reg.EVR_OPSEC_OPSEC o
    let next := if due then some (o + anchorSeconds s) else s.evr.anchorAt
    { s with evr := { s.evr with sub := 0, anchorDue := if due then some (anchorWords s) else s.evr.anchorDue, anchorAt := next },
             rtc := { s.rtc with changed := false } }

/-- OPSEC_ADVANCE. -/
def execOpsecAdvance (s : State) : Host.Outcome State Fault Refusal := .next (opsecAdvance s)

/-! ### Commands of the store -/

/-- NVS_WRITE_START (R342). -/
def execNvsWriteStart (s : State) : Host.Outcome State Fault Refusal := .next (nvsStart s)

/-- NVS_WRITE_COMPLETE (R336, R343): the write in progress is valid and reported; a CLEAR_LOG ends with its anchor. -/
def nvsComplete (s : State) : State :=
  let anchor := match s.nvs.cur with
    | some ⟨_, .event r, _⟩ => r.code = Ev.timeAnchor
    | _ => false
  let s := nvsFinish s
  if anchor && rdB s Reg.EVR_CMDSTS_PEND then evrEnd s CC.done 0 else s

/-- NVS_WRITE_COMPLETE. -/
def execNvsWriteComplete (s : State) : Host.Outcome State Fault Refusal := .next (nvsComplete s)

/-- The payload of a retained-area save (R344); area, tick and digest are taken when its write starts. -/
def retainedData (s : State) (kind : Nat) : RecData := .retained kind s.tb.tick (runningDigest s) s.csa.rmem

/-- RETAINED_PERIODIC_SAVE (R344), class 4; the area exists outside RECALL and TEST. -/
def execRetainedPeriodicSave (s : State) : Host.Outcome State Fault Refusal :=
  .next (if modeIs s = .recall || modeIs s = .test then s else nvsSave s 4 (retainedData s 0) (.retained 0))

/-- Pages of the SPARE partition (Table 15.1). -/
def sparePages : Nat := 352

/-- Remaps a page to the lowest free spare, or shows that none is left (R348). -/
def remapPage (s : State) (page : Nat) : State :=
  if s.nvs.remaps.length < sparePages then
    let s := { s with nvs := { s.nvs with remaps := s.nvs.remaps ++ [page] } }
    let s := wr s Reg.NVS_STATUS_SPARES (sparePages - s.nvs.remaps.length)
    event (nvsSave s 3 (retireData s) .retire) Ev.nvsRemap .notice []
  else event (wr s Reg.NVS_STATUS_MSTATE (mstateCode .suspect)) Ev.nvsNoSpare .critical []

/-- A copy that holds an uncorrectable word becomes invalid; from a valid other copy it is rewritten in class 3
(R348). -/
def loseCopy (s : State) (typ : Nat) (b : Bool) : State :=
  let p := recGet s typ
  let bad := fun (c : RecCopy) => { c with valid := false, uncorr := true }
  let p := if b then { p with b := p.b.map bad } else { p with a := p.a.map bad }
  let s := recPut s typ p
  match pairNewest p with
  | some c => nvsRequest s ⟨3, .record typ c.data, .scrub⟩
  | none => s

/-- SCRUB (R347, R348): one page read twice, in the modes that scrub. A weak page is refreshed, one weak again in the
same pass is remapped; an uncorrectable word invalidates its copy, and a page uncorrectable twice is remapped. -/
def scrub (s : State) (corrected uncorr : Bool) (copy : Option (Nat × Bool)) : State :=
  let m := modeIs s
  if m = .recall || m = .test || m = .save then s
  else
    let page := rd s Reg.NVS_SCRUB_PAGE
    let s := wr s Reg.NVS_SCRUB_PAGE ((page + 1) % 16384)
    let again := s.nvs.refreshed.contains page
    let twice := s.nvs.uncorrOnce.contains page
    let s :=
      if corrected && !uncorr then
        if again then remapPage s page
        else
          let s := bump s Reg.NVS_SCRUB_REFR
          let s := { s with nvs := { s.nvs with refreshed := s.nvs.refreshed ++ [page] } }
          nvsRequest s ⟨7, .refresh page, .scrub⟩
      else s
    let s :=
      if uncorr then
        let s := event (bump s Reg.NVS_SCRUB_UNCORR) Ev.nvsUncorr .warning []
        let s := match copy with | some (t, b) => loseCopy s t b | none => s
        if twice then remapPage s page
        else { s with nvs := { s.nvs with uncorrOnce := s.nvs.uncorrOnce ++ [page] } }
      else s
    if page = 16383 then { s with nvs := { s.nvs with refreshed := [] } } else s

/-- SCRUB. -/
def execScrub (corrected uncorr : Bool) (copy : Option (Nat × Bool)) (s : State) : Host.Outcome State Fault Refusal :=
  .next (scrub s corrected uncorr copy)

/-- The number a record's TYPE carries (R335): of a program record its low byte, of a coefficient record its low ten
bits. -/
def recNumber (t : Nat) : Nat :=
  if 0x400 ≤ t % 0x10000 then t % 0x400 else if 0x100 ≤ t % 0x10000 then t % 0x100 else 0

/-- NVS_WEAR (R346): the highest record write rate of the hour, recorded above 30 per second. -/
def nvsWear (s : State) : State :=
  let best := s.nvs.writes.foldl (fun (b : Nat × Nat) e => if b.2 < e.2 then e else b) (0, 0)
  let s := wr s Reg.NVS_WEAR_TYPE (best.1 % 0x10000)
  let s := wr s Reg.NVS_WEAR_RATE (min (best.2 / 3600) 65535)
  let s := { s with nvs := { s.nvs with writes := [] } }
  if 30 * 3600 < best.2 then event s Ev.nvsWear .warning [best.1 % 0x10000, recNumber best.1] else s

/-- NVS_WEAR. -/
def execNvsWear (s : State) : Host.Outcome State Fault Refusal := .next (nvsWear s)

/-- A byte of a record's payload where the spec lays it out: a program record's data, and the area behind the 64-byte
header of a copy of the retained area (R344); none where it does not. -/
def payloadByte (d : RecData) (o : Nat) : Option Byte :=
  match d with
  | .prog l => some (l.getD o 0)
  | .retained _ _ _ area => if o < 56 then none else some (Memory.byte area (o - 56))
  | _ => none

/-- The CRC of a copy (Table 15.2), where the whole payload is laid out. -/
def copyCrc (typ : Nat) (c : RecCopy) : Option (List Byte) :=
  match c.data with
  | .prog l => some (leBytes 4 (crc32 (leBytes 2 typ ++ leBytes 2 l.length ++ leBytes 4 c.seq.toNat ++ l)).toNat)
  | _ => none

/-- Byte `o` of a valid copy (Table 15.2), little-endian (R4); none where the spec does not give it. -/
def copyByte (typ : Nat) (c : RecCopy) (o : Nat) : Option Byte :=
  let n := payloadLen c.data
  if c.uncorr || !c.valid then none
  else if o < 8 then (leBytes 2 typ ++ leBytes 2 n ++ leBytes 4 c.seq.toNat)[o]?
  else if o < 8 + n then payloadByte c.data (o - 8)
  else if o < 12 + n then (copyCrc typ c).bind (·[o - 8 - n]?)
  else (leBytes 4 0xA5C35A3C)[o - 12 - n]?

/-- The place of a copy in the array, a heartbeat's at its position (R337). -/
def copyPlace (typ : Nat) (b : Bool) (c : RecCopy) : Nat :=
  let (base, _, off) := recPlace typ b
  base + off + if typ = 0x31 then 1024 * (c.seq.toNat / 2 % 16) else 0

/-- The byte of the array that a held copy of a record has at an address. -/
def recordByte (s : State) (a : Nat) : Option Byte :=
  s.nvs.recs.findSome? fun (t, p) =>
    let of := fun (b : Bool) (c : Option RecCopy) => c.bind fun c =>
      let at_ := copyPlace t b c
      if at_ ≤ a ∧ a < at_ + payloadLen c.data + 16 then copyByte (t % 0x10000) c (a - at_) else none
    (of false p.a).orElse fun _ => of true p.b

/-- A byte of the array through the NVS window: image slots, the event log and the copies of records as they stand; what
the spec does not lay out is a free value (log entry 8). The Boolean says whether a free value was taken. -/
def arrayByte (s : State) (a : Nat) : Byte × Bool :=
  let img := fun (k base : Nat) => (((((tget s.nvs.images k).getD [])[a - base]?).getD 0), false)
  if 0x300000 ≤ a ∧ a < 0x400000 then
    ((((logSlotBytes s ((a - 0x300000) / 32))[(a - 0x300000) % 32]?).getD 0), false)
  else if 0x100000 ≤ a ∧ a < 0x140000 then img 2 0x100000
  else if 0x140000 ≤ a ∧ a < 0x180000 then img 3 0x140000
  else if 0x180000 ≤ a ∧ a < 0x240000 then img 0 0x180000
  else if 0x240000 ≤ a ∧ a < 0x300000 then img 1 0x240000
  else match recordByte s a with
    | some b => (b, false)
    | none => (freeByte s.free, true)

/-- The four bytes of a window read, low first, each free one taking the next free value. -/
def arrayBytes (s : State) (a : Nat) : Nat → List Byte × State
  | 0 => ([], s)
  | n + 1 =>
    let b := arrayByte s a
    let s := if b.2 then { s with free := s.free + 1 } else s
    let r := arrayBytes s (a + 1) n
    (b.1 :: r.1, r.2)

/-- A word of the NVS or the EVR window (R341, R359); during recall it is 0 and BUSYRD is set. -/
def nvsWindow (s : State) (a : Nat) : Nat × State :=
  if recalling s then (0, wr s Reg.NVS_STATUS_BUSYRD 1)
  else if 0x3100000 ≤ a ∧ a < 0x3101000 then
    let slot := (rd s Reg.EVR_CURSOR_CURSOR + (a - 0x3100000) / 32) % logSlots
    (leNat (((logSlotBytes s slot).drop ((a - 0x3100000) % 32)).take 4), s)
  else
    let r := arrayBytes s (rd s Reg.NVS_RDBASE_BASE * 65536 + a % 65536) 4
    (leNat r.1, r.2)

/-- NVS_WINDOW_READ. -/
def execNvsWindowRead (addr : BitVec 26) (s : State) : Host.Outcome State Fault Refusal :=
  .next (emitRead (nvsWindow s addr.toNat))

end Sys2Proof.Machine
end

