-- ==== Sys2Proof/Machine/Rtc.lean ====
section
/-! DEFINITION. The calendar of the battery domain and its trim (R365 to R376, 17_real_time_clock.md). -/

namespace Sys2Proof.Machine

/-! ### The calendar (R368, R369) -/

/-- The seconds of 400 years, the range of the calendar. -/
def calRange : Nat := 12622780800

/-- A leap year, counted from 2000 (R368). -/
def leapYear (y : Nat) : Bool := decide (y % 4 = 0 ∧ y % 100 ≠ 0) || decide (y % 400 = 0)

/-- Days of a month, January 1. -/
def monthDays (y m : Nat) : Nat :=
  if m = 2 then (if leapYear y then 29 else 28)
  else if m = 4 ∨ m = 6 ∨ m = 9 ∨ m = 11 then 30 else 31

/-- Days before a year, counted from 2000. -/
def daysBefore (y : Nat) : Nat := 365 * y + (y + 3) / 4 - (y + 99) / 100 + (y + 399) / 400

/-- Days before a month of a year. -/
def monthBefore (y m : Nat) : Nat := ((List.range (m - 1)).map fun i => monthDays y (i + 1)).sum

/-- The count of a date and time, the year from 2000. -/
def secsOf (y m d h mi sec : Nat) : Nat := (daysBefore y + monthBefore y m + (d - 1)) * 86400 + h * 3600 + mi * 60 + sec

/-- The year from 2000 a day lies in: the estimate day ÷ 366 and the years after it that have begun. -/
def yearOf (day : Nat) : Nat :=
  let y0 := day / 366
  y0 + ((List.range 3).filter fun i => daysBefore (y0 + i + 1) ≤ day).length

/-- The month of a day of a year. -/
def monthOf (y rest : Nat) : Nat := 1 + ((List.range 11).filter fun i => monthBefore y (i + 2) ≤ rest).length

/-- Latches every calendar register (R369). -/
def latchRtc (s : State) : State :=
  let s := countSub s
  let c := s.rtc.secs
  let day := c / 86400
  let y := yearOf day
  let rest := day - daysBefore y
  let m := monthOf y rest
  let t := c % 86400
  [(Reg.TBC_RTCCNT_LO_CNT, c % 2 ^ 32), (Reg.TBC_RTCCNT_HI_CNT, c / 2 ^ 32), (Reg.TBC_RTCSUB_SUB, s.rtc.sub),
   (Reg.TBC_RTCDATE_YEAR, y), (Reg.TBC_RTCDATE_MONTH, m), (Reg.TBC_RTCDATE_DAY, rest - monthBefore y m + 1),
   (Reg.TBC_RTCDATE_WDAY, (day + 6) % 7), (Reg.TBC_RTCTIME_SEC, t % 60), (Reg.TBC_RTCTIME_MIN, t / 60 % 60),
   (Reg.TBC_RTCTIME_HOUR, t / 3600)].foldl (fun s e => wr s e.1 e.2) s

/-- The low word of the calendar count, every calendar register being latched. -/
def rtcLoRead (s : State) : Nat × State :=
  let s := latchRtc s
  (rd s Reg.TBC_RTCCNT_LO_CNT, s)

/-- RTCCNT_LO_READ (R369). -/
def execRtccntLoRead (s : State) : Host.Outcome State Fault Refusal := .next (emitRead (rtcLoRead s))

/-- Marks a change of the calendar or of OSF, which a TIME_ANCHOR follows (R372, R355). -/
def rtcChanged (s : State) : State := { s with rtc := { s.rtc with changed := true } }

/-- Sets OSF (R366). -/
def setOsf (s : State) : State := rtcChanged (wr s Reg.TBC_RTCSTS_OSF 1)

/-- CALENDAR_SECOND (R368): the count advances; after the last second of the range it is 0 and OSF is set. -/
def execCalendarSecond (s : State) : Host.Outcome State Fault Refusal :=
  .next (let n := s.rtc.secs + 1
    let s := { s with rtc := { s.rtc with secs := n % calRange, sub := 0 } }
    if n = calRange then setOsf s else s)

/-- OSCILLATOR_STOP (R366): OSF is set and the retention check word invalidated. -/
def execOscillatorStop (s : State) : Host.Outcome State Fault Refusal :=
  .next (let s := setOsf s
    { s with rtc := { s.rtc with check := false } })

/-! ### Setting the calendar (R370 to R372) -/

/-- The staged date and time as a count, none where R370 rejects it. -/
def stagedSecs (s : State) : Option Nat :=
  let d := rd s Reg.TBC_RTCWDATE_WDATE
  let t := rd s Reg.TBC_RTCWTIME_WTIME
  let y := bitsOf d 0 12
  let m := bitsOf d 12 4
  let day := bitsOf d 16 5
  let sec := bitsOf t 0 6
  let mi := bitsOf t 6 6
  let h := bitsOf t 12 5
  if 2000 ≤ y ∧ y ≤ 2399 ∧ 1 ≤ m ∧ m ≤ 12 ∧ 1 ≤ day ∧ day ≤ monthDays (y - 2000) m ∧ h ≤ 23 ∧ mi ≤ 59 ∧ sec ≤ 59 then
    some (secsOf (y - 2000) m day h mi sec)
  else none

/-- The end of a SET. -/
def rtcEnd (s : State) (code rsn : Nat) : State :=
  setStatus s Reg.TBC_RTCCMDSTS_CC Reg.TBC_RTCCMDSTS_RSN Reg.TBC_RTCCMDSTS_PEND code rsn

/-- RTC_SET (R370): checked whole; an accepted one waits for the second boundary. -/
def rtcSet (s : State) : State :=
  if rdB s Reg.TBC_RTCCMDSTS_PEND then
    wr (wr s Reg.TBC_RTCCMDSTS_CC CC.failRefused) Reg.TBC_RTCCMDSTS_RSN Rsn.busy
  else if modeIs s = .test then rtcEnd s CC.failRefused Rsn.badMode
  else match stagedSecs s with
    | none => rtcEnd (wr s Reg.TBC_RTCSTS_BADWRITE 1) CC.failRefused Rsn.badDate
    | some c => wr { s with rtc := { s.rtc with set := some (c, 2) } } Reg.TBC_RTCCMDSTS_PEND 1

/-- RTC_SET. -/
def execRtcSet (s : State) : Host.Outcome State Fault Refusal := .next (rtcSet s)

/-- The calendar takes a count from a source (R370 to R372): OSF clears, SRC names the source, and a change of more than
1 s is recorded. -/
def setCalendar (s : State) (c src : Nat) : State :=
  let old := s.rtc.secs
  let s := { s with rtc := { s.rtc with secs := c, sub := 0, set := none } }
  let s := rtcChanged (wr (wr s Reg.TBC_RTCSTS_OSF 0) Reg.TBC_RTCSTS_SRC src)
  if old + 1 < c ∨ c + 1 < old then event s Ev.rtcSet .notice (lowHigh old ++ lowHigh c ++ [src]) else s

/-- RTC_SET_APPLY (R370, R371): at the second boundary a host SET takes its count; a set from a source takes that of the
time base at the boundary, corrected as the check found. -/
def rtcSetApply (s : State) : State :=
  match s.rtc.set with
  | none => s
  | some (c, 2) => rtcEnd (setCalendar s c 2) CC.done 0
  | some (c, src) => setCalendar s ((s.tb.now / 1000000000 + calRange - c) % calRange) src

/-- RTC_SET_APPLY. -/
def execRtcSetApply (s : State) : Host.Outcome State Fault Refusal := .next (rtcSetApply s)

/-- CALENDAR_CHECK (R371): under PTP or Apex the calendar is compared with ⌊TIME ÷ 10^9⌋ less the change of
currentUtcOffset since it was latched, and set at the next boundary when OSF is 1 or they differ by more than STEPMAX. A
host SET that is pending comes first (Table 17.1). -/
def calendarCheck (s : State) (utcOffset : Int) : State :=
  let src := rd s Reg.TBC_DSTS_SRC
  if (src = 1 ∨ src = 2) ∧ s.rtc.set = none then
    let change : Int := if src = 1 then (match s.tb.ptpUtc with | some u => utcOffset - u | none => 0) else 0
    let want : Int := (s.tb.now / 1000000000 : Nat) - change
    let diff := (want - s.rtc.secs).natAbs * 1000
    if rdB s Reg.TBC_RTCSTS_OSF ∨ rd s Reg.TBC_RTCCFG_STEPMAX < diff then
      { s with rtc := { s.rtc with set := some ((change % calRange).toNat, if src = 1 then 1 else 3) } }
    else s
  else s

/-- CALENDAR_CHECK. -/
def execCalendarCheck (utcOffset : Int) (s : State) : Host.Outcome State Fault Refusal := .next (calendarCheck s utcOffset)

/-! ### Trim (R373 to R375) -/

/-- A quotient rounded to the nearest whole number, ties away from zero. -/
def roundDiv (a : Int) (b : Nat) : Int :=
  let q : Int := ((2 * a.natAbs + b) / (2 * b) : Nat)
  if a < 0 then -q else q

/-- TRIM of a measurement of `p` pulses against `r` seconds (R374). -/
def trimOf (p r w : Nat) : Int := -roundDiv (((p : Int) - 32768 * r) * 2 ^ w) r

/-- Whether a completed measurement is applied (R374, R375). -/
def trimApplies (s : State) (grid good : Bool) : Bool :=
  let days := rd s Reg.TBC_TRIMCFG_MEASDAYS
  let src := rd s Reg.TBC_DSTS_SRC
  good && (if grid then
      rdB s Reg.TBC_TRIMCFG_GRIDEN && decide (rd s Reg.TBC_TRIMCFG_GRIDERR * 1000000 ≤ 5 * days * 86400)
        && (match s.rtc.trimAt with | some t => decide (t + days * 86400 * 1000000000 ≤ s.tb.now) | none => true)
    else rdB s Reg.TBC_TRIMCFG_TBEN && decide (src = 1 ∨ src = 2))

/-- TRIM_MEASUREMENT_END (R374, R375): of `pulses` against `refS` seconds; `good` when the measurement was not discarded
and, of the grid, covered at least 90 % of its window. -/
def trimEnd (s : State) (grid : Bool) (pulses refS : Nat) (good : Bool) : State :=
  if trimApplies s grid good && decide (0 < refS) then
    let t := trimOf pulses refS (rd s Reg.TBC_TRIM_W)
    if t < -32768 ∨ 32767 < t then event s Ev.trimRange .warning []
    else
      let old := signedOf 16 (rd s Reg.TBC_TRIM_TRIM)
      let s := wr s Reg.TBC_TRIM_TRIM (patternOf 16 t)
      let s := if grid then s else { s with rtc := { s.rtc with trimAt := some s.tb.now } }
      let err := roundDiv (((pulses : Int) - 32768 * refS) * 1000000000) (32768 * refS)
      event s Ev.rtcTrim .notice [patternOf 32 old, patternOf 32 t, if grid then 1 else 0, patternOf 32 err]
  else s

/-- TRIM_MEASUREMENT_END. -/
def execTrimMeasurementEnd (grid : Bool) (pulses refS : Nat) (good : Bool) (s : State) :
    Host.Outcome State Fault Refusal := .next (trimEnd s grid pulses refS good)

/-- TRIM_WINDOW_START (R373): a new TRIM or W takes effect. -/
def execTrimWindowStart (s : State) : Host.Outcome State Fault Refusal :=
  .next { s with rtc := { s.rtc with trim := signedOf 16 (rd s Reg.TBC_TRIM_TRIM), w := rd s Reg.TBC_TRIM_W } }

end Sys2Proof.Machine
end

