-- ==== Sys2Proof/Machine/Ssu.lean ====
section
/-! DEFINITION. Commands of the supervisor that stand alone: service commands (R394), the host watchdog timer, supply and
temperature readings (R377, R384, R429). -/

namespace Sys2Proof.Machine

/-- The fields held in the NVS configuration record. -/
def configFields : List Field :=
  [Reg.RDU_CFG_PAIRED, Reg.RDU_CFG_ABSENT, Reg.CSC_CFG_EN, Reg.SSU_WDTCFG_HOSTEN, Reg.SSU_WDTCFG_ACT,
   Reg.SSU_WDTCFG_HOSTTO, Reg.SSU_FWIN_WINDOW, Reg.EVR_CFG_ANCHOR, Reg.EVR_CFG_FRZMAX, Reg.HMX_DDRCFG_DRAM,
   Reg.HMX_DDRCFG_RATE]

/-- The payload of the configuration record: the BIST-request flag, the number of entries CLEAR_RETIRE cleared, and the
configuration fields that differ from their reset values. -/
def configData (s : State) : RecData :=
  .config s.ssu.bistReq s.ssu.cleared (s.flds.filter fun e => configFields.any fun f => e.1 / 8192 = f.id)

/-- The end of a service command. -/
def svcEnd (s : State) (code reason : Nat) : State :=
  setStatus s Reg.SSU_SVCSTS_CC Reg.SSU_SVCSTS_RSN Reg.SSU_SVCSTS_PEND code reason

/-- A service command (R394, Table 19.7): BUSY while one is pending, BAD_MODE outside HALT, BAD_KEY with another key. -/
def svcCmd (s : State) (key : BitVec 16) (f : State → State) : State :=
  if rdB s Reg.SSU_SVCSTS_PEND then
    wr (wr s Reg.SSU_SVCSTS_CC CC.failRefused) Reg.SSU_SVCSTS_RSN Rsn.busy
  else if modeIs s ≠ .halt then svcEnd s CC.failRefused Rsn.badMode
  else if key ≠ 0x5E7C then svcEnd s CC.failRefused Rsn.badKey
  else f s

/-- CLEAR_RETIRE (R394): writes the cleared list and the BIST-request flag; DONE when both are written. The cleared
resources return only through the next reset. -/
def clearRetire (s : State) : State :=
  let n := s.ssu.cleared + (retireList s).length
  let s := { s with ssu := { s.ssu with unlisted := s.ssu.retired.length, bistReq := true, cleared := n, svc := some 1 } }
  let s := wr (wr s Reg.SSU_SVCSTS_RETFULL 0) Reg.SSU_SVCSTS_PEND 1
  nvsSave (nvsSave s 3 (retireData s) .retire) 3 (configData s) .clearRetire

/-- CLEAR_RETIRE. -/
def execClearRetire (key : BitVec 16) (s : State) : Host.Outcome State Fault Refusal :=
  .next (svcCmd s key clearRetire)

/-- RESET_CLAIM (R394, R312): the stored claim becomes 1 on side A and 0 on side B. -/
def execResetClaim (key : BitVec 16) (s : State) : Host.Outcome State Fault Refusal :=
  .next (svcCmd s key fun s =>
    storeClaim (wr { s with ssu := { s.ssu with svc := some 2 } } Reg.SSU_SVCSTS_PEND 1)
      (if ownSide s then 0 else 1))

/-- WDT_KICK (R384): 0x4B1C restarts the host timer, any other value is ignored. -/
def execWdtKick (v : BitVec 32) (s : State) : Host.Outcome State Fault Refusal :=
  .next (if v.toNat % 2 ^ 16 = 0x4B1C then { s with ssu := { s.ssu with wdtFrom := some s.tb.now } } else s)

/-- VBAT_LOW (R377): VBATLOW follows the reading and causes no reset. -/
def execVbatLow (low : Bool) (s : State) : Host.Outcome State Fault Refusal :=
  .next (wrB s Reg.SSU_SUPPLY_VBATLOW low)

/-- TEMPERATURE_UPDATE (R429): TJ takes the reading and MAX the higher, both signed. -/
def execTemperatureUpdate (tj : BitVec 12) (s : State) : Host.Outcome State Fault Refusal :=
  let s := wr s Reg.SSU_TEMP_TJ tj.toNat
  .next (if signedOf 12 (rd s Reg.SSU_TEMP_MAX) < tj.toInt then wr s Reg.SSU_TEMP_MAX tj.toNat else s)

end Sys2Proof.Machine
end

