-- ==== Sys2Proof/Machine/Boot.lean ====
section
/-! DEFINITION. The five resets, recall and the end of RECALL (R14, R24, R383 to R389, R338 to R345, R354, R404 to R409,
R418, R419): what a reset keeps, what recall restores, and how the device leaves RECALL for TEST or HALT. -/

namespace Sys2Proof.Machine

/-! ### Work cut short by a reset (R24) -/

/-- 1 for a set bit. -/
def one (b : Bool) : Nat := if b then 1 else 0

/-- The inputs written to this unit that are not yet agreed. -/
def waitingInputs (s : State) (f : InBody → Bool) : Nat :=
  ((s.rdu.own.flatMap (·.2)).filter fun i => f i.body && mine s i).length

/-- The ABORTs that await their agreement beside an armed change or swap, whose PEND bit they share. -/
def abortsHeld (s : State) (facet : Bool) : Nat :=
  if (if facet then s.fct.armed else s.csa.armed).isNone then 0
  else waitingInputs s fun b => match b with
    | .olcAbort _ => !facet
    | .facetAbort _ => facet
    | _ => false

/-- The units of work a reset now would cut short, by subsystem code (Table 0.5). -/
def cutCounts (s : State) : List (Nat × Nat) :=
  let sum := fun (l : List Nat) => l.foldl (· + ·) 0
  let events := s.nvs.queue.filter fun q => match q.what with | .event _ => true | _ => false
  let inFlight := s.nvs.cur.toList ++ s.nvs.susp
  let flight := inFlight.filter fun q => match q.what with | .event _ => true | _ => false
  let sqs := (List.finRange 18).map fun q => s.csa.seqs[q].queue.length + one s.csa.seqs[q].cur.isSome
  let bufs := (List.finRange 24).map fun n =>
    ((s.fbc[n].tb.toList).filter (·.isSome)).length + one (match s.fbc[n].tb[2] with | some r => r.cancel | none => false) + s.fbc[n].queue.length + one (rdB s Reg.FBCn_CTLSTS_PEND n.val)
  [(0x0, one s.ssu.cmd.isSome + one s.ssu.wave.isSome + one (rdB s Reg.SSU_SVCSTS_PEND) + one s.ssu.quote.isSome
      + one (rdB s Reg.SSU_OTPSTS_PEND)),
   (0x1, one (rdB s Reg.TBC_RTCCMDSTS_PEND)),
   (0x2, sum sqs + sum (s.csa.failRuns.map fun e => e.2.count) + one (rdB s Reg.CSA_FRCSTS_PEND)
      + one (rdB s Reg.CSA_OLC_PEND) + abortsHeld s false + one (rdB s Reg.CSA_OLC_SLOTPEND)),
   (0x3, one (rdB s Reg.LPE_LCSTS_PEND)),
   (0x4, one (rdB s Reg.LSV_CANCELSTS_PEND)),
   (0x5, one (rdB s Reg.MTE_CALSTS_PEND)),
   (0x6, one (rdB s Reg.FCT_SWSTS_PEND) + abortsHeld s true + one (rdB s Reg.FCT_STATUS_SLOTPEND)),
   (0x7, sum bufs),
   (0x8, sum (s.npc.ctxs.map fun e => e.2.copies.length) + one (rdB s Reg.NPC_VCMDSTS_PEND)),
   (0x9, one (rdB s Reg.RDU_CMDSTS_PEND) + one (rdB s Reg.RDU_CPSTS_PEND)),
   (0xB, s.nvs.queue.length - events.length + (inFlight.length - flight.length)),
   (0xC, s.evr.staging.length + events.length + flight.length + one (rdB s Reg.EVR_CMDSTS_PEND))]

/-- The loops whose inactive bank or pending swap a reset discards (R123). -/
def discardedBanks (s : State) : Nat :=
  let words := s.lpe.bankA.map (·.1 / 24) ++ s.lpe.bankB.map (·.1 / 24)
  let touched := (setElems s Reg.LPE_LSTS_PENDSWAP ++ words).eraseDups
  (touched.filter fun n =>
    rdB s Reg.LPE_LSTS_PENDSWAP n || decide (bankWords s.lpe.bankA n ≠ bankWords s.lpe.bankB n)).length

/-- The facets a reset discards (R214): a shadow PREPARED or ARMED, and an active one whose slot record is not yet
rewritten. -/
def discardedFacets (s : State) : List Facet :=
  (if 2 ≤ rd s Reg.FCT_STATUS_SHSTATE then s.fct.shadow.toList else [])
    ++ (if rdB s Reg.FCT_STATUS_SLOTPEND then s.fct.active.toList else [])

/-! ### The reset (R383, R388) -/

/-- A save of the NVS save engine, made at once and whole (R385). -/
def saveNow (s : State) (r : WriteReq) : State := nvsFinish (beginWrite s r false)

/-- The saves before a WDT or HST reset (R385): retained area and metering record, kind RESET. -/
def resetSaves (s : State) : State :=
  let s := saveNow s ⟨2, .record 0x50 (retainedData s 2), .retained 2⟩
  saveNow s ⟨2, .record 0x30 (.meter (meterRec s 2)), .meter 2⟩

/-- The numbers of the fields that no reset clears. -/
def keepIds : List Nat := (Reg.table.filter (·.keep)).map (·.id)

/-- What the host must find in its rings after a reset of a kind (R23). -/
def leftCode (kind : Nat) : Nat × Nat := (if kind ≤ 1 then CC.failPower else CC.failAbandoned, 0)

/-- What shows a present condition rather than its reset value as soon as the device knows it (R432): the Metering
Engine is OFFLINE in RECALL (Table 8.12) and the host link is down until it trains (Table 12.5). -/
def showReset (s : State) : State :=
  let s := wr s Reg.MTE_STATUS_MSTATE (mstateCode .offline)
  wr (showCsc (showRdu s)) Reg.HMX_STATUS_QUAL (qualCode (if rdB s Reg.HMX_STATUS_LINKUP then .good else .stale))

/-- The state after a reset but for its cause: what Table 18.5 keeps, all else as after power-on. -/
def clearedBy (s : State) (kind : Nat) (straps : Straps) : State :=
  let z := State.reset
  let cuts := (cutCounts s).foldl (fun t e => addCut t e.1 e.2) s.ssu.cuts
  { z with
    flds := s.flds.filter fun e => keepIds.contains (e.1 / 8192)
    rtc := { s.rtc with set := none, trimAt := none }
    ssu := { z.ssu with straps := straps, otp := s.ssu.otp, cuts := cuts
                        tap := if kind = 0 then .idcode else s.ssu.tap }
    lpe := { z.lpe with discarded := s.lpe.discarded + discardedBanks s }
    nvs := { z.nvs with recs := s.nvs.recs, images := s.nvs.images }
    evr := { z.evr with log := s.evr.log }
    hmx := { z.hmx with left := Vector.replicate 5 (some (leftCode kind)) }
    recvs := s.recvs, out := s.out, free := s.free, pending := s.pending }

/-- A reset of a kind (Table 18.3: 0 POR, 1 BOR, 2 PIN, 3 WDT, 4 HST): a WDT or HST reset saves first, outside RECALL
and TEST; the state is lost but for what Table 18.5 keeps; the straps are sampled and RECALL begins. -/
def resetBy (s : State) (kind rail wdsrc : Nat) (straps : Straps) : State :=
  let m := modeIs s
  let saves := decide (3 ≤ kind) && decide (m ≠ .recall) && decide (m ≠ .test)
  let done := decide (m = .save) && s.ssu.saveDone
  let s := if saves then resetSaves s else s
  let lost := discardedFacets s
  let s := clearedBy s kind straps
  let s := wr (wr (wr s Reg.SSU_RSTCAUSE_KIND kind) Reg.SSU_RSTCAUSE_RAIL rail) Reg.SSU_RSTCAUSE_WDSRC wdsrc
  let s := wrB (wrB s Reg.SSU_RSTCAUSE_INSAVE (decide (m = .save))) Reg.SSU_RSTCAUSE_SAVEDONE done
  let s := wrB s Reg.SSU_RSTCAUSE_RSTSAVE saves
  let s := lost.foldl (fun s f => event s Ev.shadowDiscarded .notice (lowHigh (digest8 f.digest))) s
  showReset s

/-- POR (R377): the release of the power-on reset. -/
def execPor (straps : Straps) (s : State) : Host.Outcome State Fault Refusal := .next (resetBy s 0 0 0 straps)

/-- BOR (R377): a rail below its reset threshold for 1 µs. -/
def execBor (rail : Fin 6) (straps : Straps) (s : State) : Host.Outcome State Fault Refusal :=
  .next (resetBy s 1 rail.val 0 straps)

/-- A low level of RST_N is taken (R419): from 10 µs always, below 9.96 µs never, between as the phase of SYSCLK
falls. -/
def pinTaken (lowNs : Nat) (phaseTakes : Bool) : Bool := decide (10000 ≤ lowNs) || (decide (9960 ≤ lowNs) && phaseTakes)

/-- PIN_RESET (R419). -/
def execPinReset (lowNs : Nat) (phaseTakes : Bool) (straps : Straps) (s : State) : Host.Outcome State Fault Refusal :=
  .next (if pinTaken lowNs phaseTakes then resetBy s 2 0 0 straps else s)

/-- WDT_RESET (R384): an internal cause. -/
def execWdtReset (straps : Straps) (s : State) : Host.Outcome State Fault Refusal := .next (resetBy s 3 0 0 straps)

/-- HST_RESET (R383): GO with KEY 0x4810; any other write is ignored. -/
def execHstReset (v : BitVec 32) (straps : Straps) (s : State) : Host.Outcome State Fault Refusal :=
  .next (if v.toNat % 2 = 1 ∧ v.toNat / 2 ^ 16 = 0x4810 then resetBy s 4 0 0 straps else s)

/-- FUNCTION_LEVEL_RESET (R286): an HST reset. -/
def execFunctionLevelReset (straps : Straps) (s : State) : Host.Outcome State Fault Refusal :=
  .next (resetBy s 4 0 0 straps)

/-! ### Recall (R338, R341, R348) -/

/-- The records recall reads (R341): all but the force and bank records of the slots that are not live. -/
def recallReads (s : State) (typ : Nat) : Bool :=
  let (fr, b) := ((slotRecord s).force, (slotRecord s).bank)
  let base := typ % 0x10000
  let upper := decide (0x10000 ≤ typ)
  if base = 0x40 then upper = fr else if 0x400 ≤ base then upper = b else true

/-- A record as recall resolves it (R338): two valid copies of one SEQ that differ are in conflict; one with no valid
copy that was written before is lost; an uncorrectable copy is recorded, and rewritten from the other. The list takes
what must be rewritten. -/
def resolve (a : State × List WriteReq) (e : Nat × PRec) : State × List WriteReq :=
  let (s, redo) := a
  let (typ, p) := e
  if !recallReads s typ then a
  else
    let clash := match p.a, p.b with
      | some x, some y => x.valid && y.valid && decide (x.seq = y.seq) && decide (x.data ≠ y.data)
      | _, _ => false
    let s := if clash then event (recPut s typ { p with conflict := true }) Ev.nvsConflict .warning [typ % 0x10000] else s
    let bad := (p.a.toList ++ p.b.toList).filter (·.uncorr)
    let s := bad.foldl (fun s _ => event s Ev.nvsUncorr .warning []) s
    match pairNewest p with
    | some c => (s, if bad.isEmpty then redo else redo ++ [⟨3, .record typ c.data, .scrub⟩])
    | none => (if p.a.isSome || p.b.isSome then event s Ev.nvsLost .critical [typ % 0x10000] else s, redo)

/-- The retirement list and the page remaps (R335, R393): every listed resource reads RETIRED. -/
def recallRetired (s : State) : State :=
  let (l, remaps) := match recRead s 0x10 with | some (.retire l r) => (l, r) | _ => ([], [])
  let s := { s with ssu := { s.ssu with retired := l, unlisted := 0 }, nvs := { s.nvs with remaps := remaps } }
  let s := l.foldl markRetired s
  let s := wrB (wr s Reg.SSU_SVCSTS_RETCNT (min 127 l.length)) Reg.SSU_SVCSTS_RETFULL (decide (128 ≤ l.length))
  wr s Reg.NVS_STATUS_SPARES (sparePages - remaps.length)

/-- The configuration record: the BIST-request flag, the entries cleared and the fields it holds. -/
def recallConfig (s : State) : State :=
  let (req, n, vals) := match recRead s 3 with | some (.config b n v) => (b, n, v) | _ => (false, 0, [])
  let keep := s.flds.filter fun e => !configFields.any fun f => e.1 / 8192 = f.id
  { s with ssu := { s.ssu with bistReq := req, cleared := n }, flds := vals.foldl (fun t e => tput t e.1 e.2) keep }

/-- CALGEN of each feeder as the calibration partition has it. -/
def recallCalgen (s : State) : State :=
  match recRead s 0x20 with
  | some (.cal _ _ _ g) => g.foldl (fun s e => wr s Reg.MTE_FSTS_CALGEN e.2 e.1) s
  | _ => s

/-- The calibration partition: a pending shadow set takes effect at the first latch (R224). -/
def recallCal (s : State) : State :=
  match recRead s 0x20 with
  | some (.cal a sh p _) => recallCalgen { s with mte := { s.mte with active := a, shadow := sh, shadowPend := p } }
  | _ => s

/-- The time key of a record (R354) as one number. -/
def timeKey (r : Rec) : Nat := (r.pcc.toNat * 2 ^ 32 + r.opsec.toNat) * 256 + r.sub.toNat

/-- The complete records of the log, each with its first slot. -/
def logRecords (log : Tbl Slot) : List (Nat × Slot) :=
  log.filter fun e => decide (e.2.idx = 0) && (match ownerOf log e.1 with | some o => decide (o.1 = e.1) | none => false)

/-- The complete record with the newest time key. -/
def newestRecord (log : Tbl Slot) : Option (Nat × Slot) :=
  (logRecords log).foldl (fun b e =>
    match b with
    | some x => if timeKey x.2.record < timeKey e.2.record then some e else b
    | none => some e) none

/-- Finds the head of the log (R357); the cursor is set to it, and WRAPPED if the log is full. -/
def recallLog (s : State) : State :=
  let head := match newestRecord s.evr.log with | some (x, sl) => (x + sl.len) % logSlots | none => 0
  let full := ((logRecords s.evr.log).foldl (fun n e => n + e.2.len) 0) = logSlots
  wrB (wr (wr s Reg.EVR_HEAD_HEAD head) Reg.EVR_CURSOR_CURSOR head) Reg.EVR_STATUS_WRAPPED (decide full)

/-- OPSEC and PCC as recall finds them (R354), on the first pass after a reset: OPSEC resumes after the newest of
heartbeat and log, PCC rises after a POR or BOR and is stored. -/
def recallTime (s : State) : State :=
  let (pcc, resumed) := match recRead s 4 with | some (.power p r) => (p, r) | _ => (0, false)
  let s := wrB s Reg.SSU_RSTCAUSE_RESUMED resumed
  if s.ssu.bistDone then s
  else
    let beat := match recRead s 0x31 with | some (.beat b) => b.opsec.toNat | _ => 0
    let newest := match newestRecord s.evr.log with | some (_, sl) => sl.record.opsec.toNat | none => 0
    let s := wr s Reg.EVR_OPSEC_OPSEC ((max beat newest + 1) % 2 ^ 32)
    wr s Reg.EVR_PCC_PCC (if rd s Reg.SSU_RSTCAUSE_KIND ≤ 1 then (pcc.toNat + 1) % 2 ^ 24 else pcc.toNat)

/-- The power-cycle record with the present count, RESUMED kept as found. -/
def powerData (s : State) (resumed : Bool) : RecData := .power (BitVec.ofNat 24 (rd s Reg.EVR_PCC_PCC)) resumed

/-- The records accepted during recall take their time fields and go to the log (R354, R356). -/
def stampStaged (s : State) : State :=
  let n := s.evr.staging.length
  let stamp := fun (r : Rec) (i : Nat) => { r with
    opsec := BitVec.ofNat 32 (rd s Reg.EVR_OPSEC_OPSEC), pcc := BitVec.ofNat 24 (rd s Reg.EVR_PCC_PCC),
    sub := BitVec.ofNat 8 (s.evr.sub + i) }
  let l := s.evr.staging.zipIdx.map fun e => stamp e.1 e.2
  evrFlush { s with evr := { s.evr with staging := l, sub := s.evr.sub + n } }

/-- The retention check word of the battery domain (R366): found invalid, the calendar, TRIM and W take their starting
values. -/
def recallCalendar (s : State) : State :=
  if s.rtc.check then wr s Reg.TBC_RTCSTS_CHKOK 1
  else
    let s := { s with rtc := { s.rtc with secs := 0, sub := 0, trim := 0, w := 16, check := true } }
    rtcChanged (wr (wr (wr s Reg.TBC_TRIM_TRIM 0) Reg.TBC_TRIM_W 16) Reg.TBC_RTCSTS_CHKOK 0)

/-- BIST is requested and has not run since the reset (Table 1.4). -/
def bistWanted (s : State) : Bool :=
  !s.ssu.bistDone && (s.ssu.otp.bistStart || decide (s.ssu.straps.bootSrc = 2) || s.ssu.bistReq)

/-- The container of a live slot, when the slot record names one. -/
def liveImage (s : State) (facet : Bool) : Option (List Byte) :=
  match recRead s 1 with
  | some (.slots r) =>
    let i := liveSlot r facet
    if r.images[i].1 = 0 then none else tget s.nvs.images i.val
  | _ => none

/-- The live program, verified (R409): valid, it becomes the program of half 0 and its settings apply. -/
def bootProgram (s : State) : State :=
  match liveImage s false with
  | none => resetSettings s
  | some c => match verifyImage s.ssu.otp false c with
    | some r => resetSettings (wr s Reg.SSU_SECSTS_PRSN r)
    | none =>
      let p := parseProgram c
      let s := { s with csa := { s.csa with half0 := some p, half1 := none } }
      let s := wr (wr (wr s Reg.CSA_OLC_ACTHALF 0) Reg.CSA_STATUS_PROGVALID 1) Reg.SSU_SECSTS_PRSN 0
      applySettings (wr s Reg.SSU_SVN_PSVN p.svn) p

/-- The live facet, verified: valid, it is the active facet, and buses and ports start under it. -/
def bootFacet (s : State) : State :=
  match liveImage s true with
  | none => s
  | some c => match verifyImage s.ssu.otp true c with
    | some r => wr s Reg.SSU_SECSTS_FRSN r
    | none =>
      let f := parseFacet c
      let s := wrB s Reg.FCT_STATUS_ACTSLOT (slotRecord s).facet
      let s := wr (wr (putActive s (some f)) Reg.SSU_SVN_FSVN f.svn) Reg.SSU_SECSTS_FRSN 0
      npcFacet (fbcFacet s f) none

/-- The images restored in RECALL (Table 20.2): none with boot source 3. -/
def bootImages (s : State) : State :=
  if s.ssu.straps.bootSrc = 3 then resetSettings s else bootFacet (bootProgram s)

/-- The time base starts from the calendar on the first pass. -/
def startTime (s : State) : State :=
  if s.ssu.bistDone then s
  else
    let s := countSub s
    setTime s (s.rtc.secs * 10 ^ 9 + s.rtc.sub * 10 ^ 9 / 2 ^ 15)

/-- The buses and ports as they stand with the facet that runs, or with none (R432): before a facet enables them they
are OFFLINE, and a port without link is STALE. -/
def showLinks (s : State) : State := showFbc ((List.finRange 16).foldl showPort s)

/-- Recall completes (R341): every record is resolved, what recall restores takes its place, and the store takes writes
from here on. -/
def recallDone (s : State) (us : Nat) : State :=
  let (s, redo) := s.nvs.recs.foldl resolve (s, [])
  let s := recallCal (recallConfig (recallRetired s))
  let s := wr s Reg.RDU_CLAIM_OWN (match recRead s 2 with | some (.claim c) => c.toNat | _ => 0)
  let s := if s.mte.found.isSome then s else { s with mte := { s.mte with found := some (meterFound s) } }
  let s := recallCalendar (recallTime (recallLog s))
  let s := stampStaged (wr (wr s Reg.NVS_STATUS_RECALL 0) Reg.NVS_STATUS_RECUS us)
  let s := redo.foldl nvsRequest s
  let s := nvsSave s 3 (powerData s (rdB s Reg.SSU_RSTCAUSE_RESUMED)) .power
  let s := showCsc (showRdu (showLink (showLink { s with ssu := { s.ssu with recalled := true } } 0) 1))
  let s := showTiles s
  showLinks (if bistWanted s then s else startTime (bootImages s))

/-! ### Leaving RECALL (R386, R398) -/

/-- Sets the mode (R14); the Metering Engine is OFFLINE in RECALL and in service out of it (Table 8.12). -/
def setMode (s : State) (m : Mode) : State :=
  let s := if m = .recall then wr s Reg.MTE_STATUS_MSTATE (mstateCode .offline)
    else if modeIs s = .recall then wr s Reg.MTE_STATUS_MSTATE (mstateCode .inService) else s
  wr (wr s Reg.SSU_MODE_PRIOR (rd s Reg.SSU_MODE_MODE)) Reg.SSU_MODE_MODE (modeCode m)

/-- What a RECALL reports as it ends: one RESET_CUT for each subsystem with something cut short (R24), and the entries
CLEAR_RETIRE cleared (R394). -/
def recallReports (s : State) : State :=
  let s := s.ssu.cuts.foldl (fun s e => event s (Ev.resetCut e.1) .warning [e.2]) s
  let s := { s with ssu := { s.ssu with cuts := [] } }
  if s.ssu.cleared = 0 then s
  else
    let s := event s Ev.retireCleared .notice [s.ssu.cleared]
    let s := { s with ssu := { s.ssu with cleared := 0 } }
    nvsSave s 3 (configData s) .config

/-- TEST is entered (R394): the BIST-request flag is set and written, and wave 0 comes first. -/
def enterTest (s : State) : State :=
  let s := { s with ssu := { s.ssu with bistReq := true, wave := none, nextWave := 0 } }
  setMode (nvsSave s 3 (configData s) .config) .test

/-- RECALL ends in TEST once recall and the key check are complete and BIST is requested (Table 1.4). -/
def recallToTest (s : State) : State :=
  if modeIs s = .recall ∧ s.ssu.recalled ∧ s.ssu.keyed ∧ bistWanted s then enterTest (recallReports s) else s

/-- NVS_RECALL_COMPLETE (R341): ends the recall that runs. -/
def execNvsRecallComplete (us : BitVec 12) (s : State) : Host.Outcome State Fault Refusal :=
  .next (if recalling s then recallToTest (recallDone s us.toNat) else s)

/-- The key check (R404, R414): the root slots are shown, and the port locks when one is usable. -/
def keyCheck (s : State) : State :=
  let s := wr (showOtp s) Reg.SSU_SECSTS_BOOTSRC s.ssu.straps.bootSrc.val
  let lock := decide (0 < rd s Reg.SSU_SECSTS_USABLE)
  let s := wrB s Reg.SSU_SECSTS_JTAGLOCK lock
  let s := { s with ssu := { s.ssu with keyed := true } }
  if tapLocked s ∧ s.ssu.tap ≠ .idcode then { s with ssu := { s.ssu with tap := .bypass } } else s

/-- KEY_CHECK_COMPLETE (R414): in RECALL. -/
def execKeyCheckComplete (s : State) : Host.Outcome State Fault Refusal :=
  .next (if modeIs s = .recall then recallToTest (keyCheck s) else s)

/-- The force table as the live slot has it, on the program that runs (R86). -/
def restoreForces (s : State) : State :=
  let l := match recRead s (0x40 + if (slotRecord s).force then 0x10000 else 0) with | some (.forces l) => l | _ => []
  let points := ((running s).map (·.points)).getD []
  let keep := l.filterMap fun f => (points.find? (·.vid = f.vid)).map fun d => { f with point := d.num }
  let gone := l.filter fun f => !points.any (·.vid = f.vid)
  releaseForces s keep (gone.map fun f => (f.vid, Rsn.deleted))

/-- The coefficient banks of the live slot (R123): each loop's active bank, the inactive one equal to it. -/
def restoreBanks (s : State) : State :=
  let up := if (slotRecord s).bank then 0x10000 else 0
  let s := { s with lpe := { s.lpe with bankA := [], bankB := [] } }
  (List.range 1024).foldl (fun s n =>
    match recRead s (0x400 + n + up) with
    | some (.coef sel ws) =>
      let put := fun (t : Tbl (BitVec 32)) => ws.foldl (fun t e => tset 0 t (n * 24 + e.1) e.2) t
      wr (wrB { s with lpe := { s.lpe with bankA := put s.lpe.bankA, bankB := put s.lpe.bankB } } Reg.LPE_LSTS_BANK sel n)
        Reg.LPE_LSTS_PENDSWAP 0 n
    | _ => wr (wr s Reg.LPE_LSTS_BANK 0 n) Reg.LPE_LSTS_PENDSWAP 0 n) s

/-- The retained area (R345, R381, R99): the newest valid copy when it is of the running program, else the program's
initial data. A copy of kind PERIODIC, or of a SAVE that was survived, is stale. -/
def restoreRetained (s : State) : State :=
  let init := fun (s : State) => { s with csa := { s.csa with rmem := match running s with
    | some p => initSpace p .retained
    | none => [] } }
  match recRead s 0x50 with
  | some (.retained kind tick dig area) =>
    if running s = none ∨ dig ≠ runningDigest s then
      event (wr (init s) Reg.NVS_RETSTS_STALE 1) Ev.retainedStale .warning (lowHigh tick)
    else
      let stale := decide (kind = 0) || (decide (kind = 1) && rdB s Reg.SSU_RSTCAUSE_RESUMED)
      let s := { s with csa := { s.csa with rmem := area } }
      let s := wrB (wr (wr s Reg.NVS_RETSTS_KIND kind) Reg.NVS_RETSTS_TICK tick) Reg.NVS_RETSTS_STALE stale
      if stale then event s Ev.retainedStale .warning (lowHigh tick) else s
  | _ => event (init s) Ev.retainedInit .notice []

/-- The counts of DEGRADED_START (R398): retired resources per class. -/
def retiredCounts (s : State) : List Nat :=
  (List.range 16).map fun c => (s.ssu.retired.filter fun r => classIndex r.cls = c).length

/-- The units under the program and facet that recall restored. -/
def startUnits (s : State) : State :=
  let s := restoreForces s
  let s := event s Ev.forcesRestored .notice [s.csa.forces.length]
  let s := event (restoreBanks s) Ev.banksRestored .notice [s.lpe.discarded]
  let s := { s with lpe := { s.lpe with discarded := 0 } }
  let s := match running s with | some p => initData s p | none => s
  let s := restoreRetained s
  let s := lpeFacet none (setSpares (mapSequencers s))
  let s := match s.fct.active with | some f => meterFields s f.meter | none => s
  let s := recallCalgen (meterRestore (assignBanks (meterStates s)) (rdB s Reg.SSU_RSTCAUSE_RESUMED))
  lanesChanged (showTiles s)

/-- HALT after RECALL (Table 1.4): everything is restored and a degraded start is recorded. -/
def recallToHalt (s : State) : State :=
  let s := startUnits (recallReports s)
  let counts := retiredCounts s
  let s := if (counts.take 11).any (0 < ·) then event s Ev.degradedStart .warning counts else s
  let s := { s with
    ssu := { s.ssu with causes := [] }
    evr := { s.evr with anchorAt := some (rd s Reg.EVR_OPSEC_OPSEC + 1) } }
  showRdu (setMode s .halt)

/-- RECALL_END (R386): once recall and the key check are complete. -/
def execRecallEnd (s : State) : Host.Outcome State Fault Refusal :=
  .next (if modeIs s = .recall ∧ s.ssu.recalled ∧ s.ssu.keyed then
      (if bistWanted s then recallToTest s else recallToHalt s) else s)

end Sys2Proof.Machine
end

