-- ==== Sys2Proof/Machine/Save.lean ====
section
/-! DEFINITION. SAVE (R15, R16, R378 to R381, 18_supply_reset_modes.md): the power warning, what it stops and saves, the
judgement of the pair and the return. The mode transitions at a tick edge that use them follow in Modes. -/

namespace Sys2Proof.Machine

/-! ### Ending what a mode change cuts short -/

/-- The end of a mode command (R18, Table 1.5). -/
def modeEnd (s : State) (code rsn : Nat) : State :=
  setStatus { s with ssu := { s.ssu with cmd := none } } Reg.SSU_MODE_LASTCC Reg.SSU_MODE_LASTRSN Reg.SSU_MODE_PEND
    code rsn

/-- A waiting mode command is dropped (R17). -/
def dropCmd (s : State) : State := if s.ssu.cmd.isSome then modeEnd s CC.failRefused Rsn.modeBusy else s

/-- A waiting role swap is dropped (R17, R320). -/
def dropSwap (s : State) : State :=
  match s.rdu.swapEdge with
  | some (_, own) =>
    let s := { s with rdu := { s.rdu with swapEdge := none } }
    if own then rduEnd s CC.failRefused Rsn.modeBusy else s
  | none => s

/-- A fault of a class with no spare is present (R17, R390): a tick fault; tasks suspended; no lane, tile, filter bank
role, Chord link, accepted cascade link or endpoint left; a bus or port in use retired; an essential resource retired. A
page without a spare stays in use (R348). -/
def faultPresent (s : State) (c : FClass) : Bool :=
  let has := fun (r : Resource) => s.ssu.retired.contains r
  match c with
  | .timebase => rdB s Reg.TBC_STATUS_TICKFAULT
  | .sequencer => decide (rd s Reg.CSA_STATUS_QUAL = qualCode .retired)
  | .loop => decide (lanesUp s = 0)
  | .solver => decide (tilesUp s = 0)
  | .meter => decide (rd s Reg.MTE_STATUS_QUAL = qualCode .retired)
  | .fieldbus => (List.finRange 24).any fun n => has ⟨.fieldbus, n.val⟩ && busUsed s n
  | .network => (List.finRange 16).any fun p => has ⟨.network, p.val⟩ && (portRec s p).isSome
  | .chord => rdB s Reg.RDU_CFG_PAIRED && has ⟨.chord, 0⟩ && has ⟨.chord, 1⟩
  | .cascade => (List.range 4).any (fun n => has ⟨.cascade, n⟩) && !(List.range 4).any (clOk s)
  | .nvs => false
  | .host => has ⟨.host, 0⟩
  | .essential => s.ssu.retired.any fun r => r.cls = .essential

/-- A fault with no spare whose class maps to hold is present. -/
def faultHolds (s : State) : Bool :=
  [FClass.timebase, .sequencer, .loop, .solver, .meter, .fieldbus, .network, .chord, .cascade, .nvs, .host,
    .essential].any fun c => holds s c && faultPresent s c

/-- A LOAD or PREPARE that still fetches its image ends. -/
def endFetch (s : State) (code rsn : Nat) : State :=
  let s := if s.csa.loading = some [] then loadFail s code rsn else s
  if s.fct.preparing = some [] then prepareFail s code rsn else s

/-- The writes of image slots, queued or in progress, end (Table 15.5). -/
def endImageWrites (s : State) (code rsn : Nat) : State :=
  let five := fun (q : WriteReq) => decide (q.cls = 5)
  let l := (s.nvs.cur.toList ++ s.nvs.susp ++ s.nvs.queue).filter five
  let keep := fun (q : WriteReq) => !five q
  let s := { s with nvs := { s.nvs with cur := s.nvs.cur.filter keep, susp := s.nvs.susp.filter keep } }
  let s := setQueue s (s.nvs.queue.filter keep)
  l.foldl (fun s q => nvsReport s q.cls q.who code rsn) s

/-- An armed change and an armed swap that phase 2 has not fixed end (Tables 4.8, 9.3); `st` says whether the images
stay loaded (2) or go (0). -/
def endArmed (s : State) (code rsn st : Nat) : State :=
  let open_ := fun (a : Option Armed) => (match a with | some a => !a.fixed | none => false : Bool)
  let s := if open_ s.csa.armed then disarm s code rsn st else s
  if open_ s.fct.armed then disarmSwap s code rsn st else s

/-- The descriptors a DMA queue holds end (R289), within `fuel` of them. -/
def endDma (q : Fin 4) (code rsn : Nat) : Nat → State → State
  | 0, s => s
  | fuel + 1, s => if dmaBusy s q then endDma q code rsn fuel (dmaEnd s q code rsn) else s

/-- Forgets an unended copy and what it has put in force (R317, R436): the unit's own program, facet, forces and banks
are restored from its slots. -/
def restoreOwn (s : State) : State :=
  if s.rdu.applied then
    let s := { s with rdu := { s.rdu with applied := false } }
    let half := rd s Reg.CSA_OLC_ACTHALF
    let s := match liveImage s false with
      | some raw => setMaxAge (putHalf s half (some (parseProgram raw))) (parseProgram raw)
      | none => putHalf s half none
    let old := s.fct.active
    let s := match liveImage s true with
      | some raw =>
        let f := parseFacet raw
        npcFacet (fbcFacet (meterFacet old (lpeFacet old (putActive s (some f)))) f) old
      | none => s
    restoreBanks (restoreForces (mapSequencers s))
  else s

/-- A copy under way ends when the unit leaves RESYNC other than to STANDBY (R436). -/
def leaveCopy (s : State) (code rsn : Nat) : State :=
  restoreOwn (if s.rdu.copy.isSome then copyEnd s code rsn else s)

/-! ### Pins -/

/-- `SAFE_N` is asserted (R13). -/
def safeAsserted (s : State) : Bool :=
  decide (modeIs s = .safehold) || (decide (modeIs s = .save) && decide (priorMode s = .safehold))

/-! ### SAVE entry (R378, R379, Table 18.2) -/

/-- A save of the NVS chain is requested: in class 2, whatever the queue holds; a queued, unstarted request to the same
record is replaced (R343). -/
def saveRequest (s : State) (d : RecData) (who : Requester) : State :=
  let r : WriteReq := ⟨2, .record (recType d) d, who⟩
  let old := s.nvs.queue.filter fun q => sameRecord q.what r.what
  let s := setQueue s ((s.nvs.queue.filter fun q => !sameRecord q.what r.what) ++ [r])
  old.foldl (fun s q => nvsReport s q.cls q.who CC.failCancelled Rsn.superseded) s

/-- The NVS chain N2 to N5. -/
def saveChain (s : State) : State :=
  let s := saveRequest s (retainedData s 1) (.retained 1)
  let s := saveRequest s (.beat (beatRec s)) .beat
  let s := saveRequest s (.meter (meterRec s 1)) (.meter 1)
  saveRequest s (powerData s false) .power

/-- The stop chain S1 and S2: solver, DMA, images on their way, copy, calibration and quote end FAIL_POWER, and
non-critical buses and ports stop. -/
def stopChain (s : State) : State :=
  let s := dropHandles (stopAll s CC.failPower 0)
  let s := wr s Reg.LSV_STATUS_MSTATE (mstateCode .offline)
  let s := (List.finRange 4).foldl (fun s q => endDma q CC.failPower 0 4096 s) s
  let s := endImageWrites (endFetch s CC.failPower 0) CC.failPower 0
  let s := calStop (endArmed s CC.failPower 0 2) (fun _ => true) CC.failPower 0
  let s := leaveCopy s CC.failPower 0
  let s := if s.ssu.quote.isSome then quoteEnd s CC.failPower 0 else s
  let s := if rdB s Reg.EVR_STATUS_FROZEN then endFreeze s else s
  vertexSave (npcSave (fbcSave s))

/-- SAVE is entered at once. -/
def saveEntry (s : State) : State :=
  let s := bump (dropSwap (dropCmd s)) Reg.SSU_SAVESTS_SAVECNT
  let s := { s with
    ssu := { s.ssu with
      causes := [], saveDone := false, judged := false, apart := false, saveTick := s.tb.tick }
    rdu := { s.rdu with copyReq := false, sendCopy := none }
    hmx := { s.hmx with selfRefresh := true } }
  let s := stopChain (setMode s .save)
  let s := showLoops s
  showCsc (showRdu (saveChain s))

/-! ### BIST cut short by a warning (R15, R397) -/

/-- The status fields that read TESTING under a wave of Table 19.2. -/
def waveFields (w : Nat) : List (Field × Nat) :=
  let all := fun (f : Field) (a n : Nat) => (List.range n).map fun i => (f, a + i)
  match w with
  | 0 => [(Reg.SSU_STATUS_MSTATE, 0), (Reg.TBC_STATUS_MSTATE, 0), (Reg.FCT_STATUS_MSTATE, 0),
      (Reg.EVR_STATUS_MSTATE, 0), (Reg.NVS_STATUS_MSTATE, 0)]
  | 1 => (Reg.CSA_STATUS_MSTATE, 0) :: all Reg.CSA_SQSTS_MSTATE 0 18
  | 2 => [(Reg.LPE_STATUS_MSTATE, 0), (Reg.MTE_STATUS_MSTATE, 0)] ++ all Reg.LPE_LANESTS_MSTATE 0 8
      ++ all Reg.MTE_BANKSTS_MSTATE 0 8
  | 3 => (Reg.LSV_STATUS_MSTATE, 0) :: all Reg.LSV_TILESTS_MSTATE 0 8
  | 4 => (Reg.LSV_STATUS_MSTATE, 0) :: all Reg.LSV_TILESTS_MSTATE 8 8
  | 5 => [(Reg.FBC_STATUS_MSTATE, 0), (Reg.NPC_STATUS_MSTATE, 0), (Reg.RDU_STATUS_MSTATE, 0),
      (Reg.CSC_STATUS_MSTATE, 0)] ++ all Reg.FBCn_STATUS_MSTATE 0 24 ++ all Reg.NPCp_STATUS_MSTATE 0 16
      ++ all Reg.RDU_CHSTS_MSTATE 0 2 ++ all Reg.CSC_CLSTS_MSTATE 0 4
  | _ => []

/-- The fields of the wave that runs take back what they read before it, but for a resource it has retired. -/
def waveShown (s : State) : State :=
  match s.ssu.wave with
  | none => s
  | some w =>
    let l := (waveFields w).zip s.ssu.under
    let s := l.foldl (fun s e => if rd s e.1.1 e.1.2 = mstateCode .testing then wr s e.1.1 e.2 e.1.2 else s) s
    { s with ssu := { s.ssu with wave := none, under := [] } }

/-- The report of a wave (R397, R402). -/
def waveReport (s : State) (w code rsn failed : Nat) (sev : Sev) : State :=
  let s := wr (wr s Reg.SSU_BISTSTS_CC code w) Reg.SSU_BISTSTS_RSN rsn w
  let s := wr (wr s Reg.SSU_BISTSTS_FAILED (min 127 failed) w) Reg.SSU_BISTSTS_RAN 1 w
  event s Ev.bistWave sev [w, code, rsn, failed]

/-- A heartbeat that waited for a wave (R205). -/
def lateBeat (s : State) : State :=
  if s.mte.beatDue then heartbeat { s with mte := { s.mte with beatDue := false } } else s

/-- A power warning ends the wave in flight FAIL_POWER; it runs again. -/
def waveCut (s : State) : State :=
  match s.ssu.wave with
  | some w => lateBeat (waveReport (showCsc (showRdu (waveShown s))) w CC.failPower 0 0 .notice)
  | none => s

/-! ### The power warning (R15, R378, R389) -/

/-- The power-cycle record is requested with RESUMED 0 again, for a warning that meets a complete SAVE. -/
def saveAgain (s : State) : State := if s.ssu.saveDone then saveRequest s (powerData s false) .power else s

/-- POWER_WARNING. -/
def powerWarning (s : State) : State :=
  if rdB s Reg.SSU_SUPPLY_WARN then s
  else
    let s := wr (wr s Reg.SSU_SUPPLY_WARN 1) Reg.SSU_SUPPLY_WARNSEEN 1
    let s := { s with ssu := { s.ssu with warnN := false } }
    let s := event s Ev.powerWarning .notice [modeCode (modeIs s)]
    match modeIs s with
    | .recall => s
    | .test => waveCut s
    | .save => saveAgain s
    | _ => saveEntry s

/-- POWER_WARNING. -/
def execPowerWarning (s : State) : Host.Outcome State Fault Refusal := .next (powerWarning s)

/-- SAVE is over when the sequence is complete and the warning has cleared (R380). -/
def saveOver (s : State) : Bool :=
  decide (modeIs s = .save) && s.ssu.saveDone && !rdB s Reg.SSU_SUPPLY_WARN

/-- What follows a warning that clears or a sequence that completes: outside SAVE `WARN_N` is released; with SAVE over
it is too, and the power-cycle record is written with RESUMED 1. -/
def saveRelease (s : State) : State :=
  if rdB s Reg.SSU_SUPPLY_WARN then s
  else if modeIs s ≠ .save then { s with ssu := { s.ssu with warnN := true } }
  else if saveOver s then nvsSave { s with ssu := { s.ssu with warnN := true } } 3 (powerData s true) .power
  else s

/-- WARNING_CLEARED (R378). -/
def execWarningCleared (s : State) : Host.Outcome State Fault Refusal :=
  .next (if rdB s Reg.SSU_SUPPLY_WARN then saveRelease (wr s Reg.SSU_SUPPLY_WARN 0) else s)

/-- SAVE_SEQUENCE_COMPLETE (R379): both chains have ended; every save is made. -/
def saveComplete (s : State) (us : Nat) : State :=
  if modeIs s = .save ∧ !s.ssu.saveDone then
    let s := wr (nvsDrain 2 1024 s) Reg.SSU_SAVESTS_LASTUS us
    saveRelease { s with ssu := { s.ssu with saveDone := true } }
  else s

/-- SAVE_SEQUENCE_COMPLETE. -/
def execSaveSequenceComplete (us : BitVec 16) (s : State) : Host.Outcome State Fault Refusal :=
  .next (saveComplete s us.toNat)

/-! ### The judgement of the pair and the return (R16, R380) -/

/-- A paired link shows the partner in a mode in which it runs (R311). -/
def partnerRuns (s : State) : Bool :=
  paired s && !s.rdu.silent && (match modeOf (rd s Reg.RDU_STATUS_PMODE) with
    | .halt => false
    | .test => false
    | .recall => false
    | _ => true)

/-- The partner has shown SAVE for the same ticks (R16): its latest frame carries the flag, or one that came since the
tick before this unit's own entry. -/
def saveShown (s : State) : Bool :=
  s.rdu.partnerSave || (match s.rdu.saveHeard with | some k => decide (s.ssu.saveTick ≤ k + 1) | none => false)

/-- A running partner does not count as in SAVE for the same ticks (R16). -/
def saveApart (s : State) : Bool := partnerRuns s && !saveShown s

/-- The judgement at phase 1 of the first tick after SAVE entry, which nothing later changes: an ACTIVE unit whose running
partner does not count as in SAVE yields at the next edge. -/
def saveJudge (s : State) : State :=
  if modeIs s = .save ∧ !s.ssu.judged ∧ s.tb.tick = s.ssu.saveTick + 1 then
    let s := { s with ssu := { s.ssu with judged := true, apart := saveApart s } }
    if priorMode s = .active ∧ s.ssu.apart then
      putYield s (s.tb.tick + 1) 5
    else s
  else s

/-- The mode SAVE returns to (Table 1.4): RESYNC when the judgement of phase 1 found a running partner out of SAVE; a SAVE
that ends before that phase is judged as it ends. -/
def saveBack (s : State) : Mode :=
  let p := priorMode s
  if (p = .active ∨ p = .standby) ∧ (if s.ssu.judged then s.ssu.apart else saveApart s) then .resync else p

/-- What stopped in SAVE runs again, the mode being the one returned to: buses and ports, solver, tasks and loops, the
host rings; the DDR5 leaves self-refresh (R296). -/
def saveResume (s : State) : State :=
  let s := { s with hmx := { s.hmx with selfRefresh := false } }
  let s := vertexResume (npcResume (fbcResume (missResume s)))
  let s := wr s Reg.LSV_STATUS_MSTATE (mstateCode .inService)
  flushLatch (showLoops (startLoops s fun w => !w.crit))

end Sys2Proof.Machine
end

