-- ==== Sys2Proof/Machine/Modes.lean ====
section
/-! DEFINITION. The mode commands and the mode transitions at a tick edge (R12 to R18, R311, R312, R387,
01_architecture.md, 13_redundant_pairs.md): what each command checks, which one transition an edge takes, and what
entering a mode does. -/

namespace Sys2Proof.Machine

/-! ### RUN and autostart: the checks (R104, R311, R312, R387, R398, R409) -/

/-- A reason and the item `CSA_OLCREF` names, if the refusal names one. -/
abbrev StartRefusal := Nat × Nat × Option Refuse

/-- What refuses a start, whatever the partner: a retired essential resource, an image that failed its verification or
is missing, a program over its budget at the tick length, a logical sequencer without a physical one where the class
holds. -/
def startCheck (s : State) : Option StartRefusal :=
  if s.ssu.retired.any fun r => r.cls = .essential then some (CC.failRefused, Rsn.essential, none)
  else match running s, s.fct.active with
    | some p, some f =>
      match checkBudget p (tickNs s) with
      | some r => some (CC.failRefused, r.rsn, some r)
      | none =>
        if seqHolds (some f) ∧ (unmappedOf s p).isSome then some (CC.failRefused, Rsn.noSequencer, none) else none
    | none, _ =>
      if rd s Reg.SSU_SECSTS_PRSN ≠ 0 then some (CC.failAuth, rd s Reg.SSU_SECSTS_PRSN, none)
      else some (CC.failRefused, Rsn.noProgram, none)
    | some _, none =>
      if rd s Reg.SSU_SECSTS_FRSN ≠ 0 then some (CC.failAuth, rd s Reg.SSU_SECSTS_FRSN, none)
      else some (CC.failRefused, Rsn.noProgram, none)

/-- The partner's stored claim, as its latest HELLO or claim gave it; 0 while no HELLO has been heard since the reset,
of which the spec does not speak: DESIGN CHOICE (log entry 51). -/
def partnerClaim (s : State) : Nat := match s.rdu.hello with | some h => h.claim.toNat | none => 0

/-- The comparison of Table 1.4 with a partner that does not run: the higher stored claim wins, side A at a tie.
Against a partner from which no HELLO was ever heard this unit wins: DESIGN CHOICE (log entry 51). -/
def winsStart (s : State) : Bool :=
  match s.rdu.hello with
  | none => true
  | some h =>
    let own := rd s Reg.RDU_CLAIM_OWN
    decide (h.claim.toNat < own) || (decide (own = h.claim.toNat) && !ownSide s)

/-- Where a start goes (R311, Table 1.4); none until the partner's mode is known. -/
def startTarget (s : State) : Option Mode :=
  let compared : Mode := if winsStart s then .active else .resync
  if !rdB s Reg.RDU_CFG_PAIRED then some .active
  else if paired s && !s.rdu.silent then
    match modeOf (rd s Reg.RDU_STATUS_PMODE) with
    | .active => some .resync
    | .standby => some .resync
    | .halt => some (if s.rdu.partnerSave then .active else compared)
    | .resync => some .active
    | .safehold => some .active
    | _ => some compared
  else if s.rdu.absent then some compared
  else none

/-- Ends a start with a refusal. -/
def startRefuse (s : State) (r : StartRefusal) : State :=
  let s := match r.2.2 with | some x => olcRef s x | none => s
  modeEnd s r.1 r.2.1

/-! ### Mode commands (R18, Table 1.6) -/

/-- A command whose mode has a row in Table 1.4. -/
def modeTakes (c : ModeCmd) (m : Mode) : Bool :=
  match c with
  | .run => decide (m = .halt)
  | .stop => decide (m = .active) || decide (m = .standby) || decide (m = .resync)
  | .hold => decide (m = .active) || decide (m = .standby)
  | .release => decide (m = .safehold)
  | .test => decide (m = .halt)

/-- A refusal of a mode command; PEND stays as it is. -/
def modeRefuse (s : State) (rsn : Nat) : State :=
  wr (wr s Reg.SSU_MODE_LASTCC CC.failRefused) Reg.SSU_MODE_LASTRSN rsn

/-- An accepted command waits for `edges` tick edges. -/
def modeAccept (s : State) (c : ModeCmd) (edges : Nat) : State :=
  wr { s with ssu := { s.ssu with cmd := some c, cmdEdges := edges } } Reg.SSU_MODE_PEND 1

/-- A mode command as written: MODE_BUSY while one waits, BAD_MODE in a mode without a row. -/
def modeCmd (s : State) (c : ModeCmd) (f : State → State) : State :=
  if rdB s Reg.SSU_MODE_PEND then modeRefuse s Rsn.modeBusy
  else if modeTakes c (modeIs s) then f s
  else modeRefuse s Rsn.badMode

/-- RUN as written: what refuses it now ends it now. -/
def runCmd (s : State) : State :=
  match startCheck s with
  | some r => startRefuse s r
  | none => if (startTarget s).isSome then modeAccept s .run 1 else modeRefuse s Rsn.partnerUnknown

/-- RUN. -/
def execRun (s : State) : Host.Outcome State Fault Refusal := .next (modeCmd s .run runCmd)

/-- STOP as written: an ACTIVE unit with a STANDBY partner yields at the second edge and stops there. -/
def stopCmd (s : State) : State :=
  if modeIs s = .active ∧ inStep s then sendYield (modeAccept s .stop 2) (s.tb.tick + 2) 3 else modeAccept s .stop 1

/-- STOP. -/
def execStop (s : State) : Host.Outcome State Fault Refusal := .next (modeCmd s .stop stopCmd)

/-- HOLD. An ACTIVE unit with a STANDBY partner yields at the next edge (Table 13.5). -/
def execHold (s : State) : Host.Outcome State Fault Refusal :=
  .next (modeCmd s .hold fun s => sendYield (modeAccept s .hold 1) (s.tb.tick + 1) 4)

/-- RELEASE. -/
def execRelease (s : State) : Host.Outcome State Fault Refusal :=
  .next (modeCmd s .release fun s => modeAccept s .release 1)

/-- TEST. -/
def execTest (s : State) : Host.Outcome State Fault Refusal := .next (modeCmd s .test fun s => modeAccept s .test 1)

/-! ### Entering a mode -/

/-- What every transition into a mode shows. -/
def shown (s : State) : State := reparent (showCsc (showRdu s))

/-- The pair's pending changes of role are forgotten. -/
def clearRoles (s : State) : State :=
  { dropSwap s with rdu := { (dropSwap s).rdu with
    yieldEdge := none, takeAt := none, copyReq := false, sendCopy := none, noCopy := false } }

/-- Every host command of an own list that is not yet agreed ends as the mode changes, a SWAP as Table 13.10 gives. -/
def endOwn (s : State) : State :=
  let l := (s.rdu.own.flatMap (·.2)).filter (·.id.source = 64)
  let own := s.rdu.own.map fun e => (e.1, e.2.filter (·.id.source ≠ 64))
  l.foldl (fun s i => match i.body with
    | .rduSwap => endHost s i CC.failRefused Rsn.modeBusy
    | _ => endHost s i CC.failCancelled Rsn.modeChange) { s with rdu := { s.rdu with own := own } }

/-- Entry to SAFEHOLD (Tables 1.3, 1.4): from ACTIVE without a YIELD safe values are emitted for the claim window; else
outputs are withheld at once and no claim is held. -/
def enterSafehold (s : State) (k : Nat) : State :=
  let s := endArmed s CC.failCancelled Rsn.modeChange 2
  let hold := decide (modeIs s = .active) && s.rdu.yieldEdge.isNone
  let s := restoreOwn (clearRoles s)
  let s := setMode s .safehold
  shown (if hold then { s with ssu := { s.ssu with holdUntil := some (k + (vcfg s).cw) } }
    else holdClaim { s with ssu := { s.ssu with holdUntil := none } } none)

/-- Entry to HALT by STOP or RELEASE: tasks stop, no claim is held; after a STOP a time source blocked in the running
mode may qualify again (R27). -/
def enterHalt (s : State) (stop : Bool) : State :=
  let s := endArmed s CC.failCancelled Rsn.modeChange 2
  let s := leaveCopy (clearRoles s) CC.failCancelled Rsn.modeChange
  let s := { s with
    ssu := { s.ssu with holdUntil := none }
    tb := { s.tb with blockedPtp := s.tb.blockedPtp && !stop, blockedApex := s.tb.blockedApex && !stop } }
  shown (setMode (holdClaim s none) .halt)

/-- Entry to RESYNC (R306, R316, Tables 4.8, 9.3): no claim is held, no I/O image is kept, no image is loaded and the
shadow is EMPTY; a copy is asked for. -/
def enterResync (s : State) : State :=
  let s := endOwn (clearRoles s)
  let s := { s with csa := { s.csa with img := [], outNext := [], snap := { s.csa.snap with img := [] } } }
  let s := endArmed s CC.failCancelled Rsn.modeChange 0
  let s := endImageWrites (endFetch s CC.failCancelled Rsn.modeChange) CC.failCancelled Rsn.modeChange
  let s := putHalf (olcState s 0) (otherHalf s) none
  let s := shState (putShadow s none) 0
  let s := if s.lpe.lcmd.isSome then lcEnd { s with lpe := { s.lpe with lcmd := none } } CC.failCancelled Rsn.modeChange
    else s
  copyStart (shown (setMode (holdClaim s none) .resync))

/-- Entry to ACTIVE from HALT with a claim (Table 1.4, R308): it is written before the first emission. -/
def enterActive (s : State) (claim : Nat) : State :=
  let s := setMode (storeClaim s (BitVec.ofNat 32 claim)) .active
  let s := holdClaim s (some (BitVec.ofNat 32 claim))
  startLoops (shown s) fun _ => true

/-- A STANDBY unit becomes ACTIVE with C + 1 (R314, R320), the claim being stored since the decision. -/
def enterTakeover (s : State) : State :=
  let c := BitVec.ofNat 32 (nextClaim s)
  shown (holdClaim (setMode { s with rdu := { s.rdu with takeAt := none } } .active) (some c))

/-- The unended copies, which the unit emits too, are its own: they carry its claim (R263, R313). -/
def copyClaims (s : State) (c : BitVec 32) : State :=
  { s with npc := { s.npc with ctxs := s.npc.ctxs.map fun e =>
    (e.1, { e.2 with copies := e.2.copies.map fun k => { k with claim := c } }) } }

/-- Entry to STANDBY after a copy (R317, R318): the partner's claim − 1, the slot records switched to what was staged,
and the copy DONE. -/
def enterStandby (s : State) : State :=
  let regs := match s.rdu.copy with | some c => c.regions.map regionNo | none => []
  let c := BitVec.ofNat 32 (rd s Reg.RDU_PCLAIM_PARTNER - 1)
  let s := storeClaim s c
  let r := nextSlots s
  let hasF := regs.contains 1
  let d : RecData := .slots (noteImages s
    { r with prog := r.prog ^^ regs.contains 0, facet := r.facet ^^ hasF, force := !r.force, bank := !r.bank })
  let who : Requester := if rdB s Reg.CSA_OLC_SLOTPEND then .slotProg else if rdB s Reg.FCT_STATUS_SLOTPEND then .slotFacet
    else .none
  let s := nvsSave s 3 d who
  let s := if hasF then wrB s Reg.FCT_STATUS_ACTSLOT (r.facet ^^ hasF) else s
  let s := copyEnd { s with rdu := { s.rdu with applied := false, noCopy := false } } CC.done 0
  shown (holdClaim (setMode (copyClaims s c) .standby) (some c))

/-- TEST from HALT (R207, R396, Table 6.8): the retained area is saved with kind RESET and the metering record with kind
STOP, held jobs and what is under way end FAIL_CANCELLED MODE_CHANGE. -/
def testFromHalt (s : State) : State :=
  let c := CC.failCancelled
  let r := Rsn.modeChange
  let s := endImageWrites (endFetch s c r) c r
  let s := calStop s (fun _ => true) c r
  let s := clearMailbox (dropHandles (stopAll s c r))
  let s := (List.finRange 24).foldl (fun s n => endAllTx s n c r) s
  let s := s.npc.ctxs.foldl (fun s e => endCopies s e.1 c r) s
  let s := saveNow (closeAll s) ⟨2, .record 0x50 (retainedData s 2), .retained 2⟩
  let s := saveNow s ⟨2, .record 0x30 (.meter (meterRec s 3)), .meter 3⟩
  let s := (List.range 198).foldl (fun s i => wr s Reg.MTE_INSTS_QUAL (qualCode .bad) i) s
  let s := { s with mte := { s.mte with found := none } }
  shown (enterTest s)

/-! ### The transition of an edge (R17) -/

/-- A claim that would pass 0xFFFF_FFFF is not taken (R312). -/
def exhaust (s : State) (k : Nat) : State := enterSafehold (event s Ev.claimExhausted .critical []) k

/-- A STANDBY unit becomes ACTIVE, or goes to SAFEHOLD where its claim would pass the range (R312). -/
def takeRole (s : State) (k : Nat) : State := if 2 ^ 32 ≤ nextClaim s then exhaust s k else enterTakeover s

/-- A start at an edge (R14): the claim is max(own stored, partner stored) + 1. -/
def startAt (s : State) (k : Nat) (m : Mode) : State :=
  if m = .resync then modeEnd (enterResync s) CC.done 0
  else
    let own := rd s Reg.RDU_CLAIM_OWN
    let n := (if rdB s Reg.RDU_CFG_PAIRED then max own (partnerClaim s) else own) + 1
    if 2 ^ 32 ≤ n then dropCmd (exhaust s k) else modeEnd (enterActive s n) CC.done 0

/-- RUN at its edge: it waits for the PTP source (R387), and is checked again. -/
def runAt (s : State) (k : Nat) : State :=
  if startWaits s then s
  else match startCheck s with
    | some r => startRefuse s r
    | none => match startTarget s with
      | some m => startAt s k m
      | none => modeEnd s CC.failRefused Rsn.partnerUnknown

/-- The autostart bit is set in the active facet and the boot source honours it (Tables 1.4, 20.2): a standing cause. -/
def autoWanted (s : State) : Bool :=
  (match s.fct.active with | some f => f.autostart | none => false)
    && decide (s.ssu.straps.bootSrc ≠ 1)

/-- An autostart at an edge: it waits for the partner's mode and the PTP source; a refusal is reported, and the bit is
judged afresh at the next edge (R17). -/
def autoAt (s : State) (k : Nat) : State :=
  if startWaits s then s
  else match startCheck s with
    | some r => startRefuse s r
    | none => match startTarget s with
      | some m => startAt s k m
      | none => s

/-- A waiting mode command at an edge (R18). -/
def cmdAt (s : State) (k : Nat) (c : ModeCmd) : State :=
  if 1 < s.ssu.cmdEdges then { s with ssu := { s.ssu with cmdEdges := s.ssu.cmdEdges - 1 } }
  else if !modeTakes c (modeIs s) then modeEnd s CC.failRefused Rsn.badMode
  else match c with
    | .run => runAt s k
    | .stop => modeEnd (enterHalt s true) CC.done 0
    | .hold => modeEnd (enterSafehold s k) CC.done 0
    | .release => modeEnd (enterHalt s false) CC.done 0
    | .test => testFromHalt (modeEnd s CC.done 0)

/-- Rank 6: the mode command, or the autostart. -/
def rank6 (s : State) (k : Nat) : State :=
  match s.ssu.cmd with
  | some c => cmdAt s k c
  | none => if autoWanted s ∧ modeIs s = .halt then autoAt s k else s

/-- Rank 5: the role swap agreed in the tick before (R320). -/
def rank5 (s : State) (k : Nat) (own : Bool) : State :=
  let s := { s with rdu := { s.rdu with swapEdge := none } }
  let s := if modeIs s = .standby then takeRole s k else shown (setMode s .standby)
  if own then rduEnd s CC.done 0 else s

/-- A fault to SAFEHOLD meets the mode (Table 1.4): judged at every edge, by the facet then active. -/
def faultMeets (s : State) : Bool := (decide (modeIs s = .active) || decide (modeIs s = .standby)) && faultHolds s

/-- The other causes of rank 3 that meet the mode: an abandoned copy, claim exhaustion. -/
def meetsRank3 (s : State) (c : Cause) : Bool :=
  let m := modeIs s
  match c with
  | .abandoned _ => decide (m = .resync)
  | .claimExhausted => decide (m = .standby)
  | _ => false

/-- The causes of rank 4 that take a unit in step to RESYNC. -/
def meetsResync (s : State) (c : Cause) : Bool :=
  (decide (modeIs s = .active) || decide (modeIs s = .standby)) && (match c with
    | .higherClaim _ => true
    | .outOfStep .. => true
    | _ => false)

/-- A takeover is due at an edge. -/
def takeoverDue (s : State) (k : Nat) : Bool :=
  decide (modeIs s = .standby) && (match s.rdu.takeAt with | some (e, _, _) => decide (e ≤ k) | none => false)

/-- Rank 3: SAFEHOLD. -/
def rank3 (s : State) (k : Nat) : State :=
  let s := if s.ssu.causes.contains .claimExhausted then event s Ev.claimExhausted .critical [] else s
  enterSafehold s k

/-- The one transition of an edge outside RECALL, TEST and SAVE; what ranks lower in this tick is dropped. -/
def rankedAt (s : State) (k : Nat) : State :=
  let l := s.ssu.causes
  let s :=
    if l.any (meetsRank3 s) || faultMeets s then dropCmd (dropSwap (rank3 s k))
    else if l.any (meetsResync s) then dropCmd (dropSwap (enterResync s))
    else if takeoverDue s k then dropCmd (takeRole (dropSwap s) k)
    else if l.contains .copyComplete ∧ modeIs s = .resync ∧ s.rdu.copy.isSome then dropCmd (dropSwap (enterStandby s))
    else match s.rdu.swapEdge with
      | some (_, own) =>
        if modeIs s = .active ∨ modeIs s = .standby then dropCmd (rank5 s k own) else rank6 (dropSwap s) k
      | none => rank6 s k
  { s with ssu := { s.ssu with causes := [] } }

/-- A unit in SAVE that is declared out of step emits no more from the next edge, takes no role, and goes to RESYNC when
SAVE ends (R306): DEDUCED (log entry 102). -/
def saveOutOfStep (s : State) : State :=
  if s.ssu.causes.any fun c => match c with | .outOfStep .. => true | _ => false then
    holdClaim { s with
      ssu := { s.ssu with judged := true, apart := true }
      rdu := { s.rdu with takeAt := none } } none
  else s

/-- The edge of a unit in SAVE: it yields its claim where it said so, and leaves SAVE once that is over (R16, R380). -/
def saveAt (s : State) (k : Nat) : State :=
  let s := saveOutOfStep (dropSwap s)
  let s := match s.rdu.yieldEdge with
    | some (e, _) => if e ≤ k ∧ s.rdu.claimHeld.isSome then holdClaim s none else s
    | none => s
  let s := { s with ssu := { s.ssu with causes := [] } }
  if saveOver s then
    let back := saveBack s
    let p := priorMode s
    let s := saveResume (setMode s p)
    let s := if back = .resync ∧ p ≠ .resync then enterResync s else copyStart (shown s)
    wr s Reg.SSU_MODE_PRIOR (modeCode .save)
  else s

/-- The claim window of SAFEHOLD ends: outputs are withheld and no claim is held (Table 1.3). -/
def windowEnds (s : State) (k : Nat) : State :=
  match s.ssu.holdUntil with
  | some e => if e ≤ k then holdClaim { s with ssu := { s.ssu with holdUntil := none } } none else s
  | none => s

/-- The mode part of tick edge k. -/
def modeEdge (s : State) (k : Nat) : State :=
  let s := windowEnds s k
  match modeIs s with
  | .recall => s
  | .test => s
  | .save => saveAt s k
  | _ => rankedAt s k

end Sys2Proof.Machine
end

