-- ==== Sys2Proof/Machine/Bist.lean ====
section
/-! DEFINITION. BIST (R395 to R398, 19_self_test_and_faults.md), the host watchdog (R384) and the endpoint reset
(R286). -/

namespace Sys2Proof.Machine

/-! ### BIST waves (Table 19.2) -/

/-- BIST_WAVE_START: the next wave, in TEST and with no warning in force; what it covers reads TESTING, but for a
retired resource. -/
def waveStart (s : State) : State :=
  if modeIs s = .test ∧ s.ssu.wave.isNone ∧ s.ssu.nextWave < 6 ∧ !rdB s Reg.SSU_SUPPLY_WARN then
    let w := s.ssu.nextWave
    let l := waveFields w
    let under := l.map fun e => rd s e.1 e.2
    let s := l.foldl (fun s e =>
      if rd s e.1 e.2 = mstateCode .retired then s else wr s e.1 (mstateCode .testing) e.2) s
    { s with ssu := { s.ssu with wave := some w, under := under } }
  else s

/-- BIST_WAVE_START. -/
def execBistWaveStart (s : State) : Host.Outcome State Fault Refusal := .next (waveStart s)

/-- The resources a wave covers. -/
def waveCovers (w : Nat) (r : Resource) : Bool :=
  match r.cls, w with
  | .essential, 0 => true
  | .timebase, 0 => true
  | .nvs, 0 => true
  | .sequencer, 1 => true
  | .essential, 1 => true
  | .loop, 2 => true
  | .meter, 2 => true
  | .solver, 3 => decide (r.idx < 8)
  | .solver, 4 => decide (8 ≤ r.idx) && decide (r.idx < 16)
  | .solver, 5 => decide (16 ≤ r.idx)
  | .fieldbus, 5 => true
  | .network, 5 => true
  | .chord, 5 => true
  | .cascade, 5 => true
  | _, _ => false

/-- The memories a TEST leaves cleared (R396), as after a reset; a shadow facet goes with SHADOW_DISCARDED (R214). -/
def clearTested (s : State) : State :=
  let z := State.reset
  let lost := discardedFacets s
  let s := { s with
    csa := { z.csa with nvst := s.csa.nvst, failRuns := s.csa.failRuns, lastKs := s.csa.lastKs }
    lpe := { z.lpe with discarded := s.lpe.discarded + discardedBanks s }
    lsv := { z.lsv with sqDone := s.lsv.sqDone, reported := s.lsv.reported, cqTail := s.lsv.cqTail, next := s.lsv.next,
                        cqRead := s.lsv.cqRead, sqHead := s.lsv.sqHead }
    fct := { z.fct with lastKf := s.fct.lastKf }
    npc := z.npc
    hmx := { s.hmx with sram := [], ddr := [] } }
  let s := wr (wr (olcState s 0) Reg.CSA_STATUS_PROGVALID 0) Reg.CSA_OLC_ACTHALF 0
  let s := putForces (shState (putShadow (putActive s none) none) 0) []
  let s := (List.finRange 24).foldl (fun s n => setDepth (setFifo (setCtl s n Ctl.reset) n []) n) s
  let s := lost.foldl (fun s f => event s Ev.shadowDiscarded .notice (lowHigh (digest8 f.digest))) s
  setVsum s

/-- TEST ends: the BIST-request flag is cleared and written, the tested memories are cleared and RECALL runs again
(Table 1.4, R394); no reset takes place. -/
def testEnds (s : State) : State :=
  let s := { s with ssu := { s.ssu with bistReq := false } }
  let s := clearTested (nvsDrain 7 2048 (nvsSave s 3 (configData s) .config))
  let s := { s with ssu := { s.ssu with bistDone := true, recalled := false } }
  shown (wr (setMode s .recall) Reg.NVS_STATUS_RECALL 1)

/-- A wave ends (R397): its failed resources are retired, it is reported, and the last one ends TEST. -/
def waveEnd (s : State) (failed : List Resource) (ms : Nat) : State :=
  match s.ssu.wave with
  | none => s
  | some w =>
    let bad := (failed.filter (waveCovers w)).eraseDups
    let s := bad.foldl (fun s r => (retire s r true id).1) s
    let s := showLinks (showCsc (showRdu (waveShown s)))
    let s := wr (if bad.any (·.cls = .solver) then showTiles s else s) Reg.SSU_BISTSTS_MS ms w
    let s := if bad.isEmpty then waveReport s w CC.done 0 0 .notice
      else waveReport s w CC.doneDegraded Rsn.bistFail bad.length .warning
    let s := lateBeat { s with ssu := { s.ssu with nextWave := w + 1 } }
    if w = 5 then testEnds s else s

/-- BIST_WAVE_END. -/
def execBistWaveEnd (failed : List Resource) (ms : BitVec 8) (s : State) : Host.Outcome State Fault Refusal :=
  .next (waveEnd s failed ms.toNat)

/-! ### Fault windows (R391) -/

/-- The status of the unit a resource belongs to follows the resource's own (R435, Tables 10.12, 13.9, 14.4). -/
def showUnit (s : State) (r : Resource) : State :=
  match r.cls with
  | .fieldbus => showCtl s (Fin.ofNat 24 r.idx)
  | .network => showPort s (Fin.ofNat 16 r.idx)
  | .chord => showRdu (showLink s r.idx)
  | .cascade => showCsc s
  | _ => s

/-- FAULT_WINDOW_CLOSE (R391). -/
def execFaultWindowClose (r : Resource) (s : State) : Host.Outcome State Fault Refusal :=
  .next (if s.ssu.windows.any (·.res = r) then showUnit (windowClose s r) r else windowClose s r)

/-! ### The host watchdog (R384) -/

/-- The host timer's limit in ns: HOSTTO seconds, 0 taken as 1. -/
def hostLimit (s : State) : Nat := max 1 (rd s Reg.SSU_WDTCFG_HOSTTO) * 10 ^ 9

/-- The host timer has run out. -/
def hostExpired (s : State) : Bool :=
  rdB s Reg.SSU_WDTCFG_HOSTEN && (match s.ssu.wdtFrom with
    | some t => decide (t + hostLimit s ≤ s.tb.now)
    | none => true)

/-- HOST_WATCHDOG_EXPIRY: with ACT a WDT reset, else HOST_WD and the timer anew. -/
def execHostWatchdogExpiry (straps : Straps) (s : State) : Host.Outcome State Fault Refusal :=
  .next (if !hostExpired s then s
    else if rdB s Reg.SSU_WDTCFG_ACT then resetBy s 3 0 1 straps
    else event { s with ssu := { s.ssu with wdtFrom := some s.tb.now } } Ev.hostWd .warning [])

/-! ### The endpoint reset (R286) -/

/-- The held jobs go: they are reported when the ring is enabled again; the parts of a partitioned solve are told, and a
cancel that awaits one has come too late. -/
def dropJobs (s : State) : State :=
  let s := s.lsv.held.foldl (fun s j => settleCancel (tellParts s j CC.failCancelled 0) j false) s
  setHeld { s with lsv := { s.lsv with cjob := none } } []

/-- The rings are disabled. -/
def disableRings (s : State) : State :=
  let s := wr (wr (wr s Reg.LSV_RINGCFG_EN 0) Reg.MTE_LRCFG_EN 0) Reg.NPC_VRCFG_EN 0
  (List.range 4).foldl (fun s q => wr s Reg.HMX_DMACFG_EN 0 q) s

/-- ENDPOINT_RESET. -/
def endpointReset (s : State) : State :=
  let c := CC.failAbandoned
  let r := Rsn.hostReset
  let s := endFetch (disableRings (dropJobs s)) c r
  let s := if s.ssu.quote.isSome then quoteEnd s c r else s
  let s := { s with hmx := { s.hmx with left := s.hmx.left.map fun o => some (o.getD (c, r)),
                                        dmaEcc := Vector.replicate 4 false, cfgReady := false } }
  let s := wr (bump s Reg.HMX_STATUS_EPRST) Reg.HMX_STATUS_LINKUP 0
  wr (wr s Reg.HMX_STATUS_WIDTH 0) Reg.HMX_STATUS_QUAL (qualCode .stale)

/-- ENDPOINT_RESET. -/
def execEndpointReset (s : State) : Host.Outcome State Fault Refusal := .next (endpointReset s)

end Sys2Proof.Machine
end

