-- ==== Sys2Proof/Machine/Tick.lean ====
section
/-! DEFINITION. The tick (R28 to R33, R219, R301, R302, 02_tick_and_time_base.md): what happens at an edge, in order, and
at phases 1, 2 and 3 of a tick. -/

namespace Sys2Proof.Machine

/-! ### Emission (R262, R313, R315) -/

/-- A YIELD withholds emission from its edge (R315). -/
def withheld (s : State) (k : Nat) : Bool := match s.rdu.yieldEdge with | some (e, _) => decide (e ≤ k) | none => false

/-- The emission at phase 0: an ACTIVE unit's outputs and exports, the safe values of SAFEHOLD; a unit in RESYNC that
executes in step follows what its partner emits (R318). -/
def emitPhase0 (s : State) (k : Nat) : State :=
  match emitMode s with
  | .active => if withheld s k then s else emitExports (emitPhase s)
  | .safehold => emitPhase s
  | .resync => if s.rdu.copy.any (·.exec.isSome) then followEmission s k else s
  | _ => s

/-- The emission at phase 3: a STANDBY unit's copies. -/
def emitPhase3 (s : State) : State :=
  match emitMode s with
  | .standby => emitExports (emitPhase s)
  | _ => s

/-! ### Phases -/

/-- Moves the time base to a phase of the present tick, `pct` % of it after the edge (Table 2.1). -/
def toPhase (s : State) (pct : Nat) : State := advance s (s.tb.tick * tickNs s + pct * tickNs s / 100)

/-- PHASE_1 (R302, R305, R16): the unit that closes sets closes the one of this tick, another builds it when it can; a
RESYNC unit without a paired link drops what waits. -/
def phase1 (s : State) : State :=
  if s.tb.ph1 then s
  else
    let s := toPhase { s with tb := { s.tb with ph1 := true } } (rd s Reg.TBC_TICKCFG_AGREE)
    let s := saveJudge s
    if follows s then (if emitMode s = .resync ∧ !paired s then dropLate s else buildSet s)
    else closeSet s

/-- PHASE_1. -/
def execPhase1 (s : State) : Host.Outcome State Fault Refusal := .next (phase1 s)

/-- PHASE_2 (R31, R41, R97, R216, R218, R306): the commit deadline; changes due at the next edge are checked and
fixed; the tick digest is formed. -/
def phase2 (s : State) : State :=
  if s.tb.ph2 then s
  else
    let s := toPhase { s with tb := { s.tb with ph2 := true } } 90
    let s := recheck (lpePhase2 (csaPhase2 s))
    if runsControl s then digestTick s else s

/-- PHASE_2. -/
def execPhase2 (s : State) : Host.Outcome State Fault Refusal := .next (phase2 s)

/-- PHASE_3 (R313). -/
def phase3 (s : State) : State :=
  if s.tb.ph3 then s else emitPhase3 (toPhase { s with tb := { s.tb with ph3 := true } } 25)

/-- PHASE_3. -/
def execPhase3 (s : State) : Host.Outcome State Fault Refusal := .next (phase3 s)

/-! ### The edge -/

/-- What the tick that ends still owes: its phases, a swap in HALT written after phase 2, and the set of a tick whose
partner fell silent (R314). -/
def endTick (s : State) : State :=
  let s := phase2 (phase3 (phase1 s))
  let late : Bool := match s.fct.armed with
    | some a => decide (modeIs s = .halt ∧ a.ks = s.tb.tick + 1) && !a.fixed
    | none => false
  let s := if late then recheck s else s
  if takeoverDue s (s.tb.tick + 1) then closeAlone s else s

/-- Tick k begins (R28): the outputs committed in the tick before form the new image generation (R77). -/
def beginTick (s : State) (k : Nat) : State :=
  let s := advance { s with tb := { s.tb with tick := k, ph1 := false, ph2 := false, ph3 := false } } (k * tickNs s)
  let img := s.csa.outNext.foldl (fun m e => tput m e.1 ⟨e.2.1, e.2.2, BitVec.ofNat 32 (k - 1)⟩) s.csa.img
  { s with csa := { s.csa with img := img, outNext := [] } }

/-- The facet swap at edge k (R217): the units take their parts of the new facet. -/
def facetSwap (s : State) (k : Nat) : State :=
  match s.fct.armed, s.fct.shadow with
  | some a, some f =>
    if a.ks = k ∧ a.fixed then
      let old := s.fct.active
      let s := meterFacet old (lpeFacet old (exchangeFacets s a f))
      let s := npcFacet (fbcFacet s f) old
      restartCopy (if modeIs s = .save then vertexSave (npcSave (fbcSave s)) else s)
    else s
  | _, _ => s

/-- The program switch at edge k, with what follows it in the contexts and in a copy under way (R318). -/
def switchAt (s : State) (k : Nat) : State :=
  let old := s
  let s := programSwitch s k
  let due : Bool := decide (old.csa.armed.isSome ∧ s.csa.lastKs = k ∧ old.csa.lastKs ≠ k)
  let s := if due then restartCopy (vertexRebind s) else s
  if due || decide (modeIs s = .halt) then showPtps s else s

/-- The agreed set of edge k takes effect (R301): not in a unit that stays in RESYNC and has not caught up, which keeps
the sets for its catch-up (R318); its mailbox slots age meanwhile (R180). -/
def setEdge (s : State) (was : Mode) (k : Nat) : State :=
  let copying := decide (was = .resync) && decide (modeIs s = .resync)
    && (match s.rdu.copy with | some c => c.exec.isNone | none => true)
  if copying then
    let s := mailboxAge { s with lsv := { s.lsv with mbxNew := [] } }
    if s.rdu.copy.isSome then catchUp s k else { s with rdu := { s.rdu with agreed := [] } }
  else
    let l := (s.rdu.agreed.filter (·.edge = k)).flatMap (·.inputs)
    applySet { s with rdu := { s.rdu with agreed := s.rdu.agreed.filter fun a => k < a.edge } } l

/-- CLOSE for the tick that ended (R301). -/
def sendClose (s : State) (k : Nat) : State :=
  let l := ownList s (k - 1)
  if linked s then sendChord s none (k - 1) false (.close l.length (inputsDigest l)) else s

/-- The links that are paired and fit carry agreement traffic from this edge (R297). With the first of them the partner
is told this unit's link states, and a copy it has not begun is requested of it again. -/
def carryEdge (s : State) (k : Nat) : State :=
  let was := linked s
  let l := (List.range 2).filter fun n => rdB s Reg.RDU_CHSTS_PAIRED n && chFit s n
  let s := { s with rdu := { s.rdu with carries := l } }
  if was || !linked s then s
  else
    let s := tellLinks (dropLinks { s with rdu := { s.rdu with carryFrom := k } } (!ownSide s))
    match s.rdu.copy with
    | some c => if modeIs s = .resync ∧ c.kc.isNone then askCopy s c.since c.answered else s
    | none => s

/-- A new claim of an ACTIVE unit is announced at once (R310). -/
def noteClaim (s : State) (held : Option (BitVec 32)) : State :=
  if s.rdu.claimHeld.isSome ∧ s.rdu.claimHeld ≠ held then claimNote s else s

/-- The sequencers retired in the tick before are mapped anew (R103). -/
def remapEdge (s : State) : State :=
  match modeIs s with
  | .recall => s
  | .test => s
  | _ => remapRetired s

/-- Tasks are released and loops sample on the snapshot of the edge (R76, R105); metering takes its part. -/
def releaseEdge (s : State) (k : Nat) : State := meterEdge (lcmdSettle (sampleLoops (releaseTasks (noteElems (takeSnap s)) k) k)) k

/-- TICK_EDGE (R28, R219): swap, switch, bank swaps, remaps, mode transition; then the agreed set, release and sampling,
emission, and what the pair exchanges at an edge. -/
def tickEdge (s : State) : State :=
  let s := endTick s
  let k := s.tb.tick + 1
  let was := modeIs s
  let held := s.rdu.claimHeld
  let s := swapDisabled (switchAt (facetSwap (beginTick s k) k) k)
  let s := cascadeEdge (sourceEdge (modeEdge (remapEdge s) k))
  let s := noteClaim (emitPhase0 (releaseEdge (setEdge s was k) k) k) held
  copyStart (answerCopy (carryEdge (sendClose (quoteCapture s) k) k))

/-- TICK_EDGE. -/
def execTickEdge (s : State) : Host.Outcome State Fault Refusal := .next (tickEdge s)

end Sys2Proof.Machine
end

