-- ==== Sys2Proof/WellFormed.lean ====
section
/-! DEFINITION. Well-formed commands: the operand ranges the spec gives beyond what the operands' types say. -/

namespace Sys2Proof

/-- The codes a command register does not define (the rules that answer BAD_COMMAND). -/
def CmdReg.undefinedCode : CmdReg → Nat → Bool
  | .modeCmd, c => 6 ≤ c && c ≤ 15
  | .olc, c => 5 ≤ c && c ≤ 7
  | .lcmd, c => 5 ≤ c && c ≤ 7
  | .fctCmd, c => 5 ≤ c && c ≤ 7
  | .vcmd, c => c = 3
  | .rduCmd, c => 3 ≤ c && c ≤ 7
  | .evrCmd, c => 5 ≤ c && c ≤ 7
  | .fbcCtl _, c => 4 ≤ c && c ≤ 7
  | .fbcTx _, c => c = 3
  | .svcCmd, c => c = 3
  | .otpCmd, c => c = 7

/-- A well-formed command. A KCIS row names a word R50 accepts (a BR forward, a LOOP with BOUND and BODY, an EVT code
of R67, counts in range); a register row names a 4-byte-aligned address; BAD_COMMAND names an undefined code. -/
def Instr.wf : Instr → Bool
  | .br _ _ off => 1 ≤ off.toInt
  | .loop _ _ _ bound body => bound ≠ 0 && body ≠ 0
  | .evt _ _ _ _ code _ => 0xE000 ≤ code.toNat && code.toNat ≤ 0xEFFF
  | .mbxcp _ _ _ _ _ n => 1 ≤ n.toNat && n.toNat ≤ 256
  | .nvwr _ _ _ _ _ len => 1 ≤ len.toNat && len.toNat ≤ 240
  | .registerWrite addr _ _ => addr.toNat % 4 = 0
  | .readClear addr _ => addr.toNat % 4 = 0
  | .badCommand r c => r.undefinedCode c
  | _ => true

end Sys2Proof
end

