-- ==== Sys2Proof/Machine/HostCmd.lean ====
section
/-! DEFINITION. The command registers (R18, R433): what a host write of a command register's value does, which is what the
row of the command it selects does, and BAD_COMMAND for a code that selects none. -/

namespace Sys2Proof.Machine

/-! ### Undefined command codes -/

/-- The status fields of a command register: code, reason, the pending bit when it has one, and the index. -/
def cmdStatus : CmdReg → Field × Field × Option Field × Nat
  | .modeCmd => (Reg.SSU_MODE_LASTCC, Reg.SSU_MODE_LASTRSN, some Reg.SSU_MODE_PEND, 0)
  | .olc => (Reg.CSA_OLC_CC, Reg.CSA_OLC_RSN, some Reg.CSA_OLC_PEND, 0)
  | .lcmd => (Reg.LPE_LCSTS_CC, Reg.LPE_LCSTS_RSN, some Reg.LPE_LCSTS_PEND, 0)
  | .fctCmd => (Reg.FCT_SWSTS_CC, Reg.FCT_SWSTS_RSN, some Reg.FCT_SWSTS_PEND, 0)
  | .vcmd => (Reg.NPC_VCMDSTS_CC, Reg.NPC_VCMDSTS_RSN, some Reg.NPC_VCMDSTS_PEND, 0)
  | .rduCmd => (Reg.RDU_CMDSTS_CC, Reg.RDU_CMDSTS_RSN, some Reg.RDU_CMDSTS_PEND, 0)
  | .evrCmd => (Reg.EVR_CMDSTS_CC, Reg.EVR_CMDSTS_RSN, some Reg.EVR_CMDSTS_PEND, 0)
  | .fbcCtl n => (Reg.FBCn_CTLSTS_CC, Reg.FBCn_CTLSTS_RSN, some Reg.FBCn_CTLSTS_PEND, n.val)
  | .fbcTx n => (Reg.FBCn_TXCMD_CANCC, Reg.FBCn_TXCMD_CANRSN, none, n.val)
  | .svcCmd => (Reg.SSU_SVCSTS_CC, Reg.SSU_SVCSTS_RSN, some Reg.SSU_SVCSTS_PEND, 0)
  | .otpCmd => (Reg.SSU_OTPSTS_CC, Reg.SSU_OTPSTS_RSN, some Reg.SSU_OTPSTS_PEND, 0)

/-- The reason of a command written while one is pending: MODE_BUSY for a mode command (R18), else BUSY. -/
def busyReason (r : CmdReg) : Nat := if r = .modeCmd then Rsn.modeBusy else Rsn.busy

/-- BAD_COMMAND (R18, Table 4.10 and its like): an undefined code ends FAIL_REFUSED with BAD_COMMAND, or as busy while a
command is pending; a defined code is no bad command and has its own row. -/
def badCommand (s : State) (r : CmdReg) (code : Nat) : State :=
  let (cc, rsn, pend, i) := cmdStatus r
  let busy := match pend with | some p => rdB s p i | none => false
  if r.undefinedCode code then wr (wr s cc CC.failRefused i) rsn (if busy then busyReason r else Rsn.badCommand) i else s

/-- BAD_COMMAND. -/
def execBadCommand (r : CmdReg) (code : Nat) (s : State) : Host.Outcome State Fault Refusal := .next (badCommand s r code)

/-! ### Writes that issue a command -/

/-- A command the block runs as its row's meaning, or nothing for the code 0 (no action). -/
def codeCmd (s : State) (r : CmdReg) (code : Nat) (l : List (Host.Outcome State Fault Refusal)) :
    Option (Host.Outcome State Fault Refusal) :=
  if code = 0 then none
  else match l[code - 1]? with
    | some o => some o
    | none => some (execBadCommand r code s)

/-- `SSU_OTPCMD`: whether the fuses take is the part's to show, a free value where no row carries it (log entry 70). -/
def otpCommand (s : State) (v : BitVec 32) : Option (Host.Outcome State Fault Refusal) :=
  if v.toNat % 8 = 0 then none
  else
    let key : BitVec 16 := (v >>> 16).setWidth 16
    let index : Fin 4 := Fin.ofNat 4 (v.toNat / 16)
    let value : BitVec 7 := (v >>> 8).setWidth 7
    let (k, s) := nextFree s
    let ok := freeBool k
    codeCmd s .otpCmd (v.toNat % 8) [execProgramRoot key index ok s, execRevoke key index ok s, execRaisePfloor key value ok s,
      execRaiseFfloor key value ok s, execSetBiststart key ok s, execJtagOff key ok s]

/-- Where TB2 stands as a cancel is registered: before its commit point or after it is a free value (log entry 70)
while its frame is the one chosen. -/
def cancelAt (s : State) (n : Fin 24) : CancelAt :=
  if (ctl s n).sel = some 2 then (if freeBool s.free then .afterCommit else .beforeCommit) else .idle

/-- A write to a command register of an FBC instance. -/
def fbcCommand (s : State) (n : Fin 24) (o : Nat) (v : BitVec 32) : Option (Host.Outcome State Fault Refusal) :=
  if o = 0x10 then codeCmd s (.fbcCtl n) (v.toNat % 8) [execProbe n s, execRecover n s, execClearCounters n s]
  else if o = 0x20 then
    let t := if v.toNat % 4 = 2 then { s with free := s.free + 1 } else s
    codeCmd s (.fbcTx n) (v.toNat % 4) [execTxRequest n s, execTxCancel n (cancelAt s n) t]
  else if o = 0x40 then (if v.toNat % 2 = 1 then some (execRxDiscard n s) else none)
  else if o = 0x50 then
    [execFilterAdd n s, execFilterRemove n (Fin.ofNat 64 (v.toNat / 256)) s, execFilterRemoveAll n s][v.toNat % 4 - 1]?.filter
      fun _ => v.toNat % 4 ≠ 0
  else none

/-- What a 32-bit write of `v` at `a` does where it issues a command or writes a register that has a row; none
elsewhere, and for the code 0 of a command register. A host reset keeps the straps as sampled last; the SQHEAD that a
doorbell reads from host memory is a free value (log entry 70). -/
def hostCommand (s : State) (a : Nat) (v : BitVec 32) : Option (Host.Outcome State Fault Refusal) :=
  let n := v.toNat
  let go := n % 2 = 1
  let key : BitVec 16 := (v >>> 16).setWidth 16
  if a = Reg.SSU_WDTKICK_KICK.addr then some (execWdtKick v s)
  else if a = Reg.SSU_RSTCMD_GO.addr then some (execHstReset v s.ssu.straps s)
  else if a = Reg.SSU_SVCCMD_CMD.addr then codeCmd s .svcCmd (n % 4) [execClearRetire key s, execResetClaim key s]
  else if a = Reg.SSU_MODECMD_CMD.addr then
    codeCmd s .modeCmd (n % 16) [execRun s, execStop s, execHold s, execRelease s, execTest s]
  else if a = Reg.SSU_OTPCMD_CMD.addr then otpCommand s v
  else if a = Reg.SSU_QCMD_GO.addr then (if go then some (execQuote s) else none)
  else if a = Reg.TBC_RTCCMD_SET.addr then (if go then some (execRtcSet s) else none)
  else if a = Reg.CSA_OLC_CMD.addr then
    let fr := decide (n / 8 % 2 = 1)
    let s := if n % 8 = 0 then s else wrB s Reg.CSA_OLC_FORCE_RELEASE fr
    codeCmd s .olc (n % 8) [execLoad fr s, execArm fr s, execOlcAbort fr s, execActivate fr s]
  else if a = Reg.CSA_FRCCMD_CMD.addr then
    if n % 4 = 0 then none else [execForceSet s, execForceRelease s, execForceReleaseAll s][n % 4 - 1]?
  else if a = Reg.LPE_LCMD_CMD.addr then
    let loop : Fin 1024 := Fin.ofNat 1024 (n / 16)
    codeCmd s .lcmd (n % 8) [execLcmdSwapLoop loop s, execLcmdSwapGroup (Fin.ofNat 16 (n / 2 ^ 16)) s,
      execLcmdClearLoop loop s, execLcmdClearAll s]
  else if a = Reg.LSV_DOORBELL_RING.addr then
    let (k, s) := nextFree s
    some (execLsvDoorbell ((freeWord k).setWidth 32) s)
  else if a = Reg.LSV_CANCELCMD_GO.addr then (if go then some (execCancelJob s) else none)
  else if a = Reg.MTE_CALCMD_CMD.addr then
    if n % 4 = 0 then none else [execCalStart s, execCalAbort s, execCalWrite s][n % 4 - 1]?
  else if a = Reg.FCT_CMD_CMD.addr then
    codeCmd s .fctCmd (n % 8) [execPrepare s, execSwap s, execFacetAbort s, execDiscard s]
  else if a = Reg.NPC_VCMD_CMD.addr then
    let x : Fin 2048 := Fin.ofNat 2048 (n / 2 ^ 16)
    codeCmd s .vcmd (n % 4) [execVcmdRelease x s, execClearmm x s]
  else if a = Reg.RDU_CMD_CMD.addr then codeCmd s .rduCmd (n % 8) [execRduSwap s, execRduClearCounters s]
  else if a = Reg.EVR_CMD_CMD.addr then
    codeCmd s .evrCmd (n % 8) [execFreeze s, execThaw s, execClearCounts s, execClearLog s]
  else if a = Reg.EVR_CURSOR_CURSOR.addr then some (execCursorWrite (v.setWidth 15) s)
  else match Reg.HMX_DMADB_HEAD.indexAt a with
    | some q => some (execDmaDoorbell (Fin.ofNat 4 q) v s)
    | none =>
      if 0x1D00000 ≤ a ∧ a < 0x1D00000 + 24 * 65536 then
        fbcCommand s (Fin.ofNat 24 ((a - 0x1D00000) / 65536)) (a % 65536) v
      else none

end Sys2Proof.Machine
end

