-- ==== Sys2Proof/Machine/KcisCtl.lean ====
section
/-! DEFINITION. Control instructions (Table 3.10, R57–R59, R69); END stands with the commit in Csa.lean. -/

namespace Sys2Proof.Machine

/-- NOP. -/
def execNop (sq : Sq) (g : Guard) (s : State) : Host.Outcome State Fault Refusal :=
  .next (kcis s sq g fun i => i)

/-- BR: pc := pc + off. -/
def execBr (sq : Sq) (g : Guard) (off : BitVec 32) (s : State) : Host.Outcome State Fault Refusal :=
  .next (kcisJump s sq g fun i => { i with pc := pcPlus i off })

/-- The iterations a LOOP runs (R57): BOUND when RA is 0, else w[RA] as a signed number, clamped to BOUND with LOOPCLAMP
and to 0 from below. -/
def loopCount (i : Inst) (a : Reg) (bound : BitVec 16) : Nat × Bool :=
  if a = 0 then (bound.toNat, false)
  else if (bound.toNat : Int) < (rW i a).toInt then (bound.toNat, true)
  else ((rW i a).toInt.toNat, false)

/-- LOOP (R57). -/
def execLoop (sq : Sq) (d a : Reg) (bound body : BitVec 16) (s : State) : Host.Outcome State Fault Refusal :=
  .next (kcisJump s sq .always fun i =>
    let n := loopCount i a bound
    let i := setFlagIf i .loopclamp n.2
    if n.1 = 0 then goto i (i.pc + body.toNat + 1)
    else
      setW { i with pc := i.pc + 1,
                    loops := ⟨d, 0, n.1, i.pc + 1, i.pc + body.toNat, i.rets.length⟩ :: i.loops } d 0)

/-- CALL: pushes pc + 1 and goes to pc + off. -/
def execCall (sq : Sq) (g : Guard) (off : BitVec 32) (s : State) : Host.Outcome State Fault Refusal :=
  .next (kcisJump s sq g fun i => { i with pc := pcPlus i off, rets := (i.pc + 1) :: i.rets })

/-- RET: pc := pop. The loader refuses a program in which a RET can be reached outside a called routine (R59); with an
empty return stack the word only advances (log entry 11). -/
def execRet (sq : Sq) (g : Guard) (s : State) : Host.Outcome State Fault Refusal :=
  .next (kcisJump s sq g fun i =>
    match i.rets with
    | r :: rs => goto { i with rets := rs } r
    | [] => nextWord i)

/-- RDFLG: rd := zext(TFLAGS). -/
def execRdflg (sq : Sq) (g : Guard) (d : Reg) (s : State) : Host.Outcome State Fault Refusal :=
  .next (kcis s sq g fun i => setW i d (i.tflags.setWidth 64))

end Sys2Proof.Machine
end

