-- ==== Sys2Proof/Machine/KcisEng.lean ====
section
/-! DEFINITION. Engine instructions (Table 3.13, R65–R68): reads return what the input snapshot holds, writes become
requests that take effect at commit. -/

namespace Sys2Proof.Machine

/-- A register word as a saved table of fields makes it up. -/
def wordIn (t : Tbl Nat) (l : List Field) (i : Nat) : Nat :=
  l.foldl (fun acc f => acc + rdIn t f i * 2 ^ f.lsb) 0

/-- The fields of the Vertex status word (Table 11.14). -/
def vertexWord : List Field :=
  [Reg.NPC_VSTS_QUAL, Reg.NPC_VSTS_MSTATE, Reg.NPC_VSTS_ADM, Reg.NPC_VSTS_REACH, Reg.NPC_VSTS_MED, Reg.NPC_VSTS_LINK,
   Reg.NPC_VSTS_MM, Reg.NPC_VSTS_TRUNC, Reg.NPC_VSTS_SESSION]

/-- The fields of the loop status word (Table 5.15). -/
def loopWord : List Field :=
  [Reg.LPE_LSTS_QUAL, Reg.LPE_LSTS_MSTATE, Reg.LPE_LSTS_MODE, Reg.LPE_LSTS_BANK, Reg.LPE_LSTS_PENDSWAP,
   Reg.LPE_LSTS_SATHI, Reg.LPE_LSTS_SATLO, Reg.LPE_LSTS_RLIM, Reg.LPE_LSTS_IHOLD, Reg.LPE_LSTS_S_ASAT,
   Reg.LPE_LSTS_S_SATHI, Reg.LPE_LSTS_S_SATLO, Reg.LPE_LSTS_S_RLIM, Reg.LPE_LSTS_S_PVFAIL, Reg.LPE_LSTS_S_SPFAIL,
   Reg.LPE_LSTS_S_FFFAIL, Reg.LPE_LSTS_S_DCGAIN, Reg.LPE_LSTS_S_SKIP, Reg.LPE_LSTS_S_REQIGN, Reg.LPE_LSTS_S_SWAPPED]

/-- An engine read: a number in range gives a value, another 0 and ADDR (R53). -/
def engRead (i : Inst) (d a : Reg) (bound : Nat) (f : Nat → Word) : Inst :=
  let n := (rW i a).toNat
  if n < bound then setW i d (f n) else setFlag (setW i d 0) .addr

/-- VSTAT: the Vertex status word of the snapshot. -/
def execVstat (sq : Sq) (g : Guard) (d a : Reg) (s : State) : Host.Outcome State Fault Refusal :=
  .next (kcis s sq g fun i => engRead i d a 2048 fun n => BitVec.ofNat 64 (wordIn s.csa.snap.flds vertexWord n))

/-- LRD: a loop field of the snapshot, sign-extended; the status word zero-extended (R65). The process value is PVLAST
and the set-point SPLAST of the state record (DESIGN CHOICE, log 58: R65 does not say which stored values they are).
-/
def execLrd (sq : Sq) (g : Guard) (f : LrdField) (d a : Reg) (s : State) : Host.Outcome State Fault Refusal :=
  .next (kcis s sq g fun i => engRead i d a 1024 fun n =>
    let r := tget s.csa.snap.loops n
    match f with
    | .output => ofInt64 ((r.map (·.out)).getD 0)
    | .process => ofInt64 ((r.map (·.st.pvlast)).getD 0)
    | .setpoint => ofInt64 ((r.map (·.st.splast)).getD 0)
    | .status => BitVec.ofNat 64 (wordIn s.csa.snap.flds loopWord n))

/-- The mailbox status word (03, operand layouts): status pair, NEW, the job's code, the sequence number. -/
def mbxWord (s : State) (n : Nat) : Nat :=
  let m := tget s.csa.snap.mbx n
  rdIn s.csa.snap.flds Reg.LSV_MBX0_QUAL n + rdIn s.csa.snap.flds Reg.LSV_MBX0_MSTATE n * 8
    + (if s.csa.snap.mbxNew.contains n then 64 else 0)
    + ((m.map (·.code)).getD 0) * 2 ^ 8 + ((m.map (·.seq.toNat)).getD 0) * 2 ^ 32

/-- MBXST: status word, element count or job tag of a mailbox slot. -/
def execMbxst (sq : Sq) (g : Guard) (f : MbxField) (d a : Reg) (s : State) : Host.Outcome State Fault Refusal :=
  .next (kcis s sq g fun i => engRead i d a 16 fun n =>
    let m := tget s.csa.snap.mbx n
    match f with
    | .status => BitVec.ofNat 64 (mbxWord s n)
    | .count => BitVec.ofNat 64 ((m.map (·.elems.length)).getD 0)
    | .tag => (m.map (·.tag)).getD 0)

/-- MBXCP: copies `n` elements of a slot to space D through the journal. A slot number above 15, or a target that is
not an aligned range of one segment of the task, is an address fault and copies nothing; an element beyond the count
is copied as 0 and sets ADDR. -/
def execMbxcp (sq : Sq) (g : Guard) (d a b : Reg) (n : BitVec 9) (s : State) : Host.Outcome State Fault Refusal :=
  .next (kcis s sq g fun i =>
    let slot := (rW i a).toNat
    let ea := (rW i d).toNat
    let first := (rW i b).toNat
    if slot < 16 && validAccess s i .data ea (8 * n.toNat) 8 then
      let els := ((tget s.csa.snap.mbx slot).map (·.elems)).getD []
      let bytes := (List.range n.toNat).flatMap fun k => leBytes 8 ((els[first + k]?).getD 0).toNat
      setFlagIf (journalBytes i .data ea bytes) .addr (els.length < first + n.toNat)
    else setFlag i .addr)

/-- Adds an engine request (R66). -/
def addReq (i : Inst) (r : EngReq) : Inst := { i with reqs := i.reqs ++ [r] }

/-- A loop request: only to a loop the task table assigns to the task (R53). -/
def loopReq (s : State) (i : Inst) (a : Reg) (r : Nat → EngReq) : Inst :=
  let n := (rW i a).toNat
  match taskOf s i.task with
  | some t => if n < 1024 && t.loops.contains n then addReq i (r n) else setFlag i .addr
  | none => setFlag i .addr

/-- LSP: requests a set-point in Q8.24. -/
def execLsp (sq : Sq) (g : Guard) (a b : Reg) (s : State) : Host.Outcome State Fault Refusal :=
  .next (kcis s sq g fun i => loopReq s i a fun n => .lsp n ((rW i b).setWidth 32))

/-- LCTL.AUTO. -/
def execLctlAuto (sq : Sq) (g : Guard) (a _b : Reg) (s : State) : Host.Outcome State Fault Refusal :=
  .next (kcis s sq g fun i => loopReq s i a fun n => .lctl n .auto)

/-- LCTL.MANUAL with output rb[31:0]. -/
def execLctlManual (sq : Sq) (g : Guard) (a b : Reg) (s : State) : Host.Outcome State Fault Refusal :=
  .next (kcis s sq g fun i => loopReq s i a fun n => .lctl n (.manual ((rW i b).setWidth 32)))

/-- LCTL.TRACK of rb[31:0]. -/
def execLctlTrack (sq : Sq) (g : Guard) (a b : Reg) (s : State) : Host.Outcome State Fault Refusal :=
  .next (kcis s sq g fun i => loopReq s i a fun n => .lctl n (.track ((rW i b).setWidth 32)))

/-- LCTL.BANK_SWAP. -/
def execLctlBankSwap (sq : Sq) (g : Guard) (a _b : Reg) (s : State) : Host.Outcome State Fault Refusal :=
  .next (kcis s sq g fun i => loopReq s i a fun n => .lctl n .bankSwap)

/-- LCTL.RESET_I. -/
def execLctlResetI (sq : Sq) (g : Guard) (a _b : Reg) (s : State) : Host.Outcome State Fault Refusal :=
  .next (kcis s sq g fun i => loopReq s i a fun n => .lctl n .resetI)

/-- MBXACK: requests the release of a mailbox slot. -/
def execMbxack (sq : Sq) (g : Guard) (a : Reg) (s : State) : Host.Outcome State Fault Refusal :=
  .next (kcis s sq g fun i =>
    let n := (rW i a).toNat
    if n < 16 then addReq i (.mbxAck n) else setFlag i .addr)

/-- The severity of a code of Table 16.1. -/
def sevOf (n : Nat) : Sev :=
  match n with
  | 0 => .info | 1 => .notice | 2 => .warning | _ => .critical

/-- EVT (R67): posts a program event at commit; beyond the eighth it posts nothing, sets EVTLIM and counts a drop of
its severity at once. -/
def execEvt (sq : Sq) (g : Guard) (a b : Reg) (code : BitVec 16) (sev : Fin 4) (s : State) :
    Host.Outcome State Fault Refusal :=
  let over8 := match instOf s sq with
    | some i => guardOk i g && 8 ≤ i.evts.length
    | none => false
  let s' := kcis s sq g fun i =>
    if 8 ≤ i.evts.length then setFlag i .evtlim
    else { i with evts := i.evts ++ [⟨code, sevOf sev, rW i a, rW i b⟩] }
  .next (if over8 then evrDrop s' (sevOf sev) else s')

/-- NVWR (R68): copies its bytes when it executes, by byte access through the journal, and requests the write. -/
def execNvwr (sq : Sq) (g : Guard) (sp : Space) (a b : Reg) (len : BitVec 8) (s : State) :
    Host.Outcome State Fault Refusal :=
  .next (kcis s sq g fun i =>
    let r := (rW i a).toNat
    let ea := (rW i b).toNat
    if r < 256 && inSegment s i.task sp ea len.toNat then addReq i (.nvwr r (instBytes s i sp ea len.toNat))
    else setFlag i .addr)

/-- NVWS (R68): the write status of a program record, of the snapshot (R65). -/
def execNvws (sq : Sq) (g : Guard) (d a : Reg) (s : State) : Host.Outcome State Fault Refusal :=
  .next (kcis s sq g fun i => engRead i d a 256 fun n =>
    match tget s.csa.snap.nvst n with
    | some st => BitVec.ofNat 64 (st.cc + st.rsn * 2 ^ 8 + (if st.pend then 2 ^ 16 else 0) + st.count.toNat * 2 ^ 32)
    | none => 0)

end Sys2Proof.Machine
end

