-- ==== Sys2Proof/Machine/KcisInt.lean ====
section
/-! DEFINITION. Integer, compare, predicate and accumulator instructions (Tables 3.5 and 3.6, R47, R55), each on the
running instance of its sequencer. -/

namespace Sys2Proof.Machine

/-- A register form: rd := f(ra, rb). -/
def alu (s : State) (sq : Sq) (g : Guard) (d a b : Reg) (f : Word → Word → Word) : Host.Outcome State Fault Refusal :=
  .next (kcis s sq g fun i => setW i d (f (rW i a) (rW i b)))

/-- An immediate form: rd := f(ra). -/
def aluImm (s : State) (sq : Sq) (g : Guard) (d a : Reg) (f : Word → Word) : Host.Outcome State Fault Refusal :=
  .next (kcis s sq g fun i => setW i d (f (rW i a)))

/-- A saturating form: rd := sat64(f(ra, rb)), SAT set when that changed the value. -/
def aluSat (s : State) (sq : Sq) (g : Guard) (d a b : Reg) (f : Int → Int → Int) : Host.Outcome State Fault Refusal :=
  .next (kcis s sq g fun i =>
    let r := satTo 64 (f (rW i a).toInt (rW i b).toInt)
    setFlagIf (setW i d (ofInt64 r.1)) .sat r.2)

/-- DIV of R55: quotient, DIVZ, SAT. -/
def divS (x y : Int) : Int × Bool × Bool :=
  if y = 0 then (if x = 0 then 0 else if 0 < x then 2 ^ 63 - 1 else -(2 ^ 63), true, false)
  else if x = -(2 ^ 63) ∧ y = -1 then (2 ^ 63 - 1, false, true)
  else (Int.tdiv x y, false, false)

/-- REM of R55: remainder with the sign of ra, DIVZ. -/
def remS (x y : Int) : Int × Bool :=
  if y = 0 then (x, true) else if x = -(2 ^ 63) ∧ y = -1 then (0, false) else (Int.tmod x y, false)

/-- QMUL of R55: the product of bits 31:0, rounded by `n` bits away from zero at ties, saturated to 32 bits. -/
def qmul (x y : Word) (n : Nat) : Int × Bool := satTo 32 (roundAway (low32 x * low32 y) n)

/-- The compare conditions of CMP and CMPI. -/
def compare (c : Cond) (x y : Word) : Bool :=
  match c with
  | .eq => x = y
  | .ne => x ≠ y
  | .lt => x.toInt < y.toInt
  | .ge => y.toInt ≤ x.toInt
  | .ltu => x.toNat < y.toNat
  | .geu => y.toNat ≤ x.toNat

/-- The predicate functions of PLOG. -/
def plog (f : PFun) (x y : Bool) : Bool :=
  match f with
  | .and => x && y
  | .or => x || y
  | .xor => x != y
  | .andn => x && !y
  | .not => !x
  | .set => true
  | .clr => false
  | .mov => x

/-- An accumulator form: acc := sat96(v), SAT set when that changed the value. -/
def accSat (i : Inst) (k : Acc) (v : Int) : Inst :=
  let r := sat96 v
  setFlagIf (setAcc i k (BitVec.ofInt 96 r.1)) .sat r.2

/-- ADD: rd := ra + rb. -/
def execAdd (sq : Sq) (g : Guard) (d a b : Reg) (s : State) :
    Host.Outcome State Fault Refusal :=
  alu s sq g d a b (fun x y => x + y)

/-- SUB: rd := ra − rb. -/
def execSub (sq : Sq) (g : Guard) (d a b : Reg) (s : State) :
    Host.Outcome State Fault Refusal :=
  alu s sq g d a b (fun x y => x - y)

/-- AND. -/
def execAndr (sq : Sq) (g : Guard) (d a b : Reg) (s : State) :
    Host.Outcome State Fault Refusal :=
  alu s sq g d a b (fun x y => x &&& y)

/-- OR. -/
def execOrr (sq : Sq) (g : Guard) (d a b : Reg) (s : State) :
    Host.Outcome State Fault Refusal :=
  alu s sq g d a b (fun x y => x ||| y)

/-- XOR. -/
def execXorr (sq : Sq) (g : Guard) (d a b : Reg) (s : State) :
    Host.Outcome State Fault Refusal :=
  alu s sq g d a b (fun x y => x ^^^ y)

/-- SHL: rd := ra << rb[5:0]. -/
def execShl (sq : Sq) (g : Guard) (d a b : Reg) (s : State) :
    Host.Outcome State Fault Refusal :=
  alu s sq g d a b (fun x y => x <<< (y.toNat % 64))

/-- SHR: zero fill. -/
def execShr (sq : Sq) (g : Guard) (d a b : Reg) (s : State) :
    Host.Outcome State Fault Refusal :=
  alu s sq g d a b (fun x y => x >>> (y.toNat % 64))

/-- SAR: sign fill. -/
def execSar (sq : Sq) (g : Guard) (d a b : Reg) (s : State) :
    Host.Outcome State Fault Refusal :=
  alu s sq g d a b (fun x y => x.sshiftRight (y.toNat % 64))

/-- MIN: signed minimum. -/
def execMins (sq : Sq) (g : Guard) (d a b : Reg) (s : State) :
    Host.Outcome State Fault Refusal :=
  alu s sq g d a b (fun x y => if x.toInt ≤ y.toInt then x else y)

/-- MAX: signed maximum. -/
def execMaxs (sq : Sq) (g : Guard) (d a b : Reg) (s : State) :
    Host.Outcome State Fault Refusal :=
  alu s sq g d a b (fun x y => if x.toInt ≤ y.toInt then y else x)

/-- MUL: low 64 bits of the product. -/
def execMul (sq : Sq) (g : Guard) (d a b : Reg) (s : State) :
    Host.Outcome State Fault Refusal :=
  alu s sq g d a b (fun x y => x * y)

/-- MULH: high 64 bits of the signed 128-bit product. -/
def execMulh (sq : Sq) (g : Guard) (d a b : Reg) (s : State) :
    Host.Outcome State Fault Refusal :=
  alu s sq g d a b (fun x y => ofInt64 (x.toInt * y.toInt / 2 ^ 64))

/-- ADDS: rd := sat64(ra + rb). -/
def execAdds (sq : Sq) (g : Guard) (d a b : Reg) (s : State) :
    Host.Outcome State Fault Refusal :=
  aluSat s sq g d a b fun x y => x + y

/-- SUBS: rd := sat64(ra − rb). -/
def execSubs (sq : Sq) (g : Guard) (d a b : Reg) (s : State) :
    Host.Outcome State Fault Refusal :=
  aluSat s sq g d a b fun x y => x - y

/-- QMUL (R55). -/
def execQmul (sq : Sq) (g : Guard) (d a b : Reg) (n : Fin 64) (s : State) :
    Host.Outcome State Fault Refusal :=
  .next (kcis s sq g fun i =>
    let r := qmul (rW i a) (rW i b) n
    setFlagIf (setW i d (ofInt64 r.1)) .sat r.2)

/-- DIV (R55). -/
def execDiv (sq : Sq) (g : Guard) (d a b : Reg) (s : State) :
    Host.Outcome State Fault Refusal :=
  .next (kcis s sq g fun i =>
    let r := divS (rW i a).toInt (rW i b).toInt
    setFlagIf (setFlagIf (setW i d (ofInt64 r.1)) .divz r.2.1) .sat r.2.2)

/-- DIVU (R55): rb = 0 gives 2^64 − 1 and DIVZ. -/
def execDivu (sq : Sq) (g : Guard) (d a b : Reg) (s : State) :
    Host.Outcome State Fault Refusal :=
  .next (kcis s sq g fun i =>
    let z := rW i b = 0
    setFlagIf (setW i d (if z then BitVec.allOnes 64 else rW i a / rW i b)) .divz z)

/-- REM (R55). -/
def execRem (sq : Sq) (g : Guard) (d a b : Reg) (s : State) :
    Host.Outcome State Fault Refusal :=
  .next (kcis s sq g fun i =>
    let r := remS (rW i a).toInt (rW i b).toInt
    setFlagIf (setW i d (ofInt64 r.1)) .divz r.2)

/-- ABS: rd := sat64(|ra|). -/
def execAbsr (sq : Sq) (g : Guard) (d a : Reg) (s : State) :
    Host.Outcome State Fault Refusal :=
  .next (kcis s sq g fun i =>
    let r := satTo 64 ((rW i a).toInt.natAbs : Int)
    setFlagIf (setW i d (ofInt64 r.1)) .sat r.2)

/-- SEL: rd := ra when the predicate is 1, else rb. -/
def execSel (sq : Sq) (g : Guard) (d a b : Reg) (p : Pred) (s : State) :
    Host.Outcome State Fault Refusal :=
  .next (kcis s sq g fun i => setW i d (if rP i p then rW i a else rW i b))

/-- ADDI: rd := ra + sext(imm). -/
def execAddi (sq : Sq) (g : Guard) (d a : Reg) (imm : BitVec 32) (s : State) :
    Host.Outcome State Fault Refusal :=
  aluImm s sq g d a fun x => x + sextImm imm

/-- ANDI: zext(imm). -/
def execAndi (sq : Sq) (g : Guard) (d a : Reg) (imm : BitVec 32) (s : State) :
    Host.Outcome State Fault Refusal :=
  aluImm s sq g d a fun x => x &&& zextImm imm

/-- ORI: zext(imm). -/
def execOri (sq : Sq) (g : Guard) (d a : Reg) (imm : BitVec 32) (s : State) :
    Host.Outcome State Fault Refusal :=
  aluImm s sq g d a fun x => x ||| zextImm imm

/-- XORI: zext(imm). -/
def execXori (sq : Sq) (g : Guard) (d a : Reg) (imm : BitVec 32) (s : State) :
    Host.Outcome State Fault Refusal :=
  aluImm s sq g d a fun x => x ^^^ zextImm imm

/-- SHLI. -/
def execShli (sq : Sq) (g : Guard) (d a : Reg) (n : Fin 64) (s : State) :
    Host.Outcome State Fault Refusal :=
  aluImm s sq g d a fun x => x <<< n.val

/-- SHRI. -/
def execShri (sq : Sq) (g : Guard) (d a : Reg) (n : Fin 64) (s : State) :
    Host.Outcome State Fault Refusal :=
  aluImm s sq g d a fun x => x >>> n.val

/-- SARI. -/
def execSari (sq : Sq) (g : Guard) (d a : Reg) (n : Fin 64) (s : State) :
    Host.Outcome State Fault Refusal :=
  aluImm s sq g d a fun x => x.sshiftRight n.val

/-- LDIL: rd := sext(imm). -/
def execLdil (sq : Sq) (g : Guard) (d : Reg) (imm : BitVec 32) (s : State) :
    Host.Outcome State Fault Refusal :=
  .next (kcis s sq g fun i => setW i d (sextImm imm))

/-- LDIH: rd := (imm << 32) or zext(rd[31:0]). -/
def execLdih (sq : Sq) (g : Guard) (d : Reg) (imm : BitVec 32) (s : State) :
    Host.Outcome State Fault Refusal :=
  .next (kcis s sq g fun i => setW i d (imm ++ (rW i d).setWidth 32))

/-- CMP: p[pd] := c(ra, rb). -/
def execCmp (sq : Sq) (g : Guard) (c : Cond) (p : Pred) (a b : Reg) (s : State) :
    Host.Outcome State Fault Refusal :=
  .next (kcis s sq g fun i => setP i p (compare c (rW i a) (rW i b)))

/-- CMPI: p[pd] := c(ra, sext(imm)). -/
def execCmpi (sq : Sq) (g : Guard) (c : Cond) (p : Pred) (a : Reg) (imm : BitVec 32) (s : State) :
    Host.Outcome State Fault Refusal :=
  .next (kcis s sq g fun i => setP i p (compare c (rW i a) (sextImm imm)))

/-- PLOG: p[pd] := f(p[pa], p[pb]). -/
def execPlog (sq : Sq) (g : Guard) (f : PFun) (p q r : Pred) (s : State) :
    Host.Outcome State Fault Refusal :=
  .next (kcis s sq g fun i => setP i p (plog f (rP i q) (rP i r)))

/-- MAC: acc := sat96(acc + sext(ra[31:0]) × sext(rb[31:0])). -/
def execMac (sq : Sq) (g : Guard) (k : Acc) (a b : Reg) (s : State) :
    Host.Outcome State Fault Refusal :=
  .next (kcis s sq g fun i => accSat i k ((rAcc i k).toInt + low32 (rW i a) * low32 (rW i b)))

/-- MSU: acc := sat96(acc − sext(ra[31:0]) × sext(rb[31:0])). -/
def execMsu (sq : Sq) (g : Guard) (k : Acc) (a b : Reg) (s : State) :
    Host.Outcome State Fault Refusal :=
  .next (kcis s sq g fun i => accSat i k ((rAcc i k).toInt - low32 (rW i a) * low32 (rW i b)))

/-- ACLR: acc := 0. -/
def execAclr (sq : Sq) (g : Guard) (k : Acc) (s : State) :
    Host.Outcome State Fault Refusal :=
  .next (kcis s sq g fun i => setAcc i k 0)

/-- ARD: the accumulator shifted right by `n`, rounded away from zero at ties, saturated to 64 (ARD.L) or 32 bits
(ARD.S). -/
def execArd (sq : Sq) (g : Guard) (long : Bool) (d : Reg) (k : Acc) (n : Fin 64) (s : State) :
    Host.Outcome State Fault Refusal :=
  .next (kcis s sq g fun i =>
    let r := satTo (if long then 64 else 32) (roundAway (rAcc i k).toInt n)
    setFlagIf (setW i d (ofInt64 r.1)) .sat r.2)

/-- AMOV: acc := sext96(ra). -/
def execAmov (sq : Sq) (g : Guard) (k : Acc) (a : Reg) (s : State) :
    Host.Outcome State Fault Refusal :=
  .next (kcis s sq g fun i => setAcc i k ((rW i a).signExtend 96))

end Sys2Proof.Machine
end

