-- ==== Sys2Proof/Machine/KcisMem.lean ====
section
/-! DEFINITION. Memory and point instructions (Table 3.9, R51–R54) and time, timer, counter and edge instructions
(Tables 3.11 and 3.12, R38, R62–R64). -/

namespace Sys2Proof.Machine

/-! ### Loads, stores and points -/

/-- A load: on an address fault 0 and ADDR (R53). -/
def load (s : State) (sp : Space) (sz : Size) (d a : Reg) (disp : BitVec 32) (ext : Nat → Word) (i : Inst) : Inst :=
  let ea := effAddr i a disp
  let n := sizeBytes sz
  if validAccess s i sp ea n n then setW i d (ext (leNat (instBytes s i sp ea n)))
  else setFlag (setW i d 0) .addr

/-- LD: zero-extending load. -/
def execLd (sq : Sq) (g : Guard) (sp : Space) (sz : Size) (d a : Reg) (disp : BitVec 32) (s : State) :
    Host.Outcome State Fault Refusal :=
  .next (kcis s sq g (load s sp sz d a disp (BitVec.ofNat 64)))

/-- LDS: sign-extending load. -/
def execLds (sq : Sq) (g : Guard) (sp : Space) (sz : Size) (d a : Reg) (disp : BitVec 32) (s : State) :
    Host.Outcome State Fault Refusal :=
  .next (kcis s sq g (load s sp sz d a disp fun v => ofInt64 (signedOf (8 * sizeBytes sz) v)))

/-- ST: a store into the journal; on an address fault nothing but ADDR (R52, R53). -/
def execSt (sq : Sq) (g : Guard) (sp : Space) (sz : Size) (b a : Reg) (disp : BitVec 32) (s : State) :
    Host.Outcome State Fault Refusal :=
  .next (kcis s sq g fun i =>
    let ea := effAddr i a disp
    let n := sizeBytes sz
    if validAccess s i sp ea n n then journalBytes i sp ea (leBytes n (rW i b).toNat) else setFlag i .addr)

/-- The point slot the snapshot holds; a point not yet produced holds VALUE 0 and quality BAD (Table 4.4). -/
def snapPoint (s : State) (p : Nat) : PSlot := (tget s.csa.snap.img p).getD ⟨0, .bad, 0⟩

/-- LDP (R54): value and quality of an input point of the task; outside its list 0, BAD and ADDR (R53). With RD = RB
the quality, written last, remains (DESIGN CHOICE, log 57: R54 does not say which of the two does). -/
def execLdp (sq : Sq) (g : Guard) (d b a : Reg) (disp : BitVec 32) (s : State) : Host.Outcome State Fault Refusal :=
  .next (kcis s sq g fun i =>
    match (taskOf s i.task).bind fun t => t.inList[effAddr i a disp]? with
    | some p =>
      let v := snapPoint s p
      setW (setW i d v.value) b (BitVec.ofNat 64 (qualCode v.qual))
    | none => setFlag (setW (setW i d 0) b (BitVec.ofNat 64 (qualCode .bad))) .addr)

/-- The quality STP stores: GOOD, SUBSTITUTED and BAD as written, any other as BAD with QUALW (R54). -/
def stpQual (q : Nat) : Qual × Bool :=
  if q = 0 then (.good, false) else if q = 3 then (.substituted, false) else if q = 4 then (.bad, false) else (.bad, true)

/-- STP (R54): writes an output point of the task into the output image. -/
def execStp (sq : Sq) (g : Guard) (d b a : Reg) (disp : BitVec 32) (s : State) : Host.Outcome State Fault Refusal :=
  .next (kcis s sq g fun i =>
    match (taskOf s i.task).bind fun t => t.outList[effAddr i a disp]? with
    | some p =>
      let q := stpQual ((rW i b).toNat % 8)
      setFlagIf { i with outs := tput i.outs p (rW i d, q.1) } .qualw q.2
    | none => setFlag i .addr)

/-! ### Time -/

/-- TIME: the release stamp (R38). -/
def execTime (sq : Sq) (g : Guard) (d : Reg) (s : State) : Host.Outcome State Fault Refusal :=
  .next (kcis s sq g fun i => setW i d (BitVec.ofNat 64 i.stamp))

/-- TICKN: the release tick. -/
def execTickn (sq : Sq) (g : Guard) (d : Reg) (s : State) : Host.Outcome State Fault Refusal :=
  .next (kcis s sq g fun i => setW i d (BitVec.ofNat 64 i.tick))

/-! ### Timers -/

/-- A timer record (Table 3.12). -/
structure TimerRec where
  start : Nat
  preset : Nat
  ctrl : Nat

/-- Bit `n` of a control word. -/
def ctrlBit (c n : Nat) : Bool := c / 2 ^ n % 2 = 1

/-- A control word with bit `n` set to a value. -/
def setCtrl (c n : Nat) (b : Bool) : Nat := c - (c / 2 ^ n % 2) * 2 ^ n + (if b then 2 ^ n else 0)

/-- The timer limit PRESET × UNIT in ns (Table 3.12). -/
def timerLimit (t : TimerRec) : Nat :=
  t.preset * (match t.ctrl % 4 with | 0 => 1000 | 1 => 1000000 | 2 => 1000000000 | _ => 60000000000)

/-- s − START ≥ limit, compared exactly. -/
def timerDone (t : TimerRec) (s : Nat) : Bool := (timerLimit t : Int) ≤ (s : Int) - t.start

/-- TON of R62. -/
def tonStep (t : TimerRec) (s : Nat) (x : Bool) : TimerRec :=
  if !x then { t with ctrl := setCtrl (setCtrl t.ctrl 2 false) 3 false }
  else
    let t := if ctrlBit t.ctrl 2 then t else { t with start := s, ctrl := setCtrl t.ctrl 2 true }
    if timerDone t s then { t with ctrl := setCtrl t.ctrl 3 true } else t

/-- TOF of R62. -/
def tofStep (t : TimerRec) (s : Nat) (x : Bool) : TimerRec :=
  if x then { t with ctrl := setCtrl (setCtrl t.ctrl 2 false) 3 true }
  else if ctrlBit t.ctrl 3 then
    let t := if ctrlBit t.ctrl 2 then t else { t with start := s, ctrl := setCtrl t.ctrl 2 true }
    if timerDone t s then { t with ctrl := setCtrl (setCtrl t.ctrl 3 false) 2 false } else t
  else t

/-- TP of R62. -/
def tpStep (t : TimerRec) (s : Nat) (x : Bool) : TimerRec :=
  let t := if ctrlBit t.ctrl 2 && timerDone t s then { t with ctrl := setCtrl (setCtrl t.ctrl 2 false) 3 false } else t
  let t :=
    if !ctrlBit t.ctrl 2 && x && !ctrlBit t.ctrl 4 then
      { t with start := s, ctrl := setCtrl (setCtrl t.ctrl 2 true) 3 true }
    else t
  { t with ctrl := setCtrl t.ctrl 4 x }

/-- A record instruction: on an address fault 0 to the predicate and ADDR, the record untouched (R53); otherwise the
record's bytes are read through the journal, stepped and placed in the journal. -/
def recordOp (s : State) (sp : Space) (n : Nat) (p : Pred) (a : Reg) (disp : BitVec 32)
    (step : Inst → List Byte → List Byte × Bool × Bool) (i : Inst) : Inst :=
  let ea := effAddr i a disp
  if validAccess s i sp ea n n then
    let r := step i (instBytes s i sp ea n)
    setFlagIf (setP (journalBytes i sp ea r.1) p r.2.1) .sat r.2.2
  else setFlag (setP i p false) .addr

/-- A timer on its record's bytes. -/
def timerOn (f : TimerRec → Nat → Bool → TimerRec) (q : Pred) (i : Inst) (bs : List Byte) : List Byte × Bool × Bool :=
  let t := f ⟨leAt bs 0 8, leAt bs 8 4, leAt bs 12 4⟩ i.stamp (rP i q)
  (leBytes 8 t.start ++ leBytes 4 t.preset ++ leBytes 4 t.ctrl, ctrlBit t.ctrl 3, false)

/-- TON. -/
def execTon (sq : Sq) (g : Guard) (sp : Space) (p q : Pred) (a : Reg) (disp : BitVec 32) (s : State) :
    Host.Outcome State Fault Refusal :=
  .next (kcis s sq g (recordOp s sp 16 p a disp (timerOn tonStep q)))

/-- TOF. -/
def execTof (sq : Sq) (g : Guard) (sp : Space) (p q : Pred) (a : Reg) (disp : BitVec 32) (s : State) :
    Host.Outcome State Fault Refusal :=
  .next (kcis s sq g (recordOp s sp 16 p a disp (timerOn tofStep q)))

/-- TP. -/
def execTp (sq : Sq) (g : Guard) (sp : Space) (p q : Pred) (a : Reg) (disp : BitVec 32) (s : State) :
    Host.Outcome State Fault Refusal :=
  .next (kcis s sq g (recordOp s sp 16 p a disp (timerOn tpStep q)))

/-! ### Counters and edges -/

/-- A counter record stepped (R63): up or down by 1 on a rising x, saturating at its signed 32-bit bound; PREV := x. -/
def counterOn (down : Bool) (q : Pred) (i : Inst) (bs : List Byte) : List Byte × Bool × Bool :=
  let count := signedOf 32 (leAt bs 0 4)
  let preset := signedOf 32 (leAt bs 4 4)
  let ctrl := leAt bs 8 4
  let x := rP i q
  let r := if x && !ctrlBit ctrl 4 then satTo 32 (if down then count - 1 else count + 1) else (count, false)
  let done := if down then r.1 ≤ 0 else preset ≤ r.1
  (leBytes 4 (patternOf 32 r.1) ++ leBytes 4 (leAt bs 4 4) ++ leBytes 4 (setCtrl ctrl 4 x) ++ bs.drop 12, done, r.2)

/-- CTU. -/
def execCtu (sq : Sq) (g : Guard) (sp : Space) (p q : Pred) (a : Reg) (disp : BitVec 32) (s : State) :
    Host.Outcome State Fault Refusal :=
  .next (kcis s sq g (recordOp s sp 16 p a disp (counterOn false q)))

/-- CTD. -/
def execCtd (sq : Sq) (g : Guard) (sp : Space) (p q : Pred) (a : Reg) (disp : BitVec 32) (s : State) :
    Host.Outcome State Fault Refusal :=
  .next (kcis s sq g (recordOp s sp 16 p a disp (counterOn true q)))

/-- An edge record stepped (R63). -/
def edgeOn (m : EdgeMode) (q : Pred) (i : Inst) (bs : List Byte) : List Byte × Bool × Bool :=
  let ctrl := leAt bs 0 8
  let x := rP i q
  let prev := ctrlBit ctrl 4
  let hit := match m with
    | .rising => x && !prev
    | .falling => !x && prev
    | .either => x != prev
  (leBytes 8 (setCtrl ctrl 4 x), hit, false)

/-- EDGE. -/
def execEdge (sq : Sq) (g : Guard) (sp : Space) (m : EdgeMode) (p q : Pred) (a : Reg) (disp : BitVec 32) (s : State) :
    Host.Outcome State Fault Refusal :=
  .next (kcis s sq g (recordOp s sp 8 p a disp (edgeOn m q)))

/-- RATE (R64): counts per second in Q47.16, exact, truncated and saturated; a record fault gives 0 and ADDR. -/
def execRate (sq : Sq) (g : Guard) (sp : Space) (d b a : Reg) (disp : BitVec 32) (s : State) :
    Host.Outcome State Fault Refusal :=
  .next (kcis s sq g fun i =>
    let ea := effAddr i a disp
    if validAccess s i sp ea 16 16 then
      let bs := instBytes s i sp ea 16
      let pstamp := leAt bs 0 8
      let v := (rW i b).toInt
      let r : Int × Bool :=
        if pstamp = 0 ∨ i.stamp = pstamp then (0, false)
        else satTo 64 (Int.tdiv ((v - signedOf 64 (leAt bs 8 8)) * (10 ^ 9 * 2 ^ 16)) ((i.stamp : Int) - pstamp))
      let bs' := if i.stamp = pstamp then bs else leBytes 8 i.stamp ++ leBytes 8 (rW i b).toNat
      setFlagIf (setW (journalBytes i sp ea bs') d (ofInt64 r.1)) .sat r.2
    else setFlag (setW i d 0) .addr)

end Sys2Proof.Machine
end

