-- ==== Sys2Proof/Machine/Regs.lean ====
section
/-! DEFINITION. Host access to BAR0: reads and writes of registers and windows by their access codes (R3, R5, R20, R431,
R433), accesses to reserved addresses (R20, R287). A command register's write acts as the
command's own row does; a read of a register that acts by a rule of its own (R44, R369, R241, R359) acts so. -/

namespace Sys2Proof.Machine

/-! ### Windows -/

/-- The element and the byte offset in it of an address in an array of `count` elements of `stride` bytes. -/
def inArr (a base stride count : Nat) : Option (Nat × Nat) :=
  if base ≤ a ∧ a < base + stride * count then some ((a - base) / stride, (a - base) % stride) else none

/-- The word at a byte offset; 0 past the end. -/
def wordAt (bs : List Byte) (off : Nat) : Nat := leAt bs off 4

/-- `n` octets of a number in network order, as an address is held (R4). -/
def octets (n v : Nat) : List Byte := (leBytes n v).reverse

/-- An entry of `CSA_FRCTAB`. -/
def forceBytes (f : Force) : List Byte :=
  leBytes 4 (f.vid % 2 ^ 24 + f.typ % 16 * 2 ^ 24 + 2 ^ 31) ++ leBytes 4 (f.point % 2 ^ 15) ++ leBytes 8 f.value.toNat
    ++ leBytes 8 f.lastw.toNat

/-- A wiring record (Table 5.1). -/
def wireBytes (w : Wire) : List Byte :=
  leBytes 2 (one w.en + 2 * one w.crit + 4 * w.initMode + 16 * one w.cascTrack + 32 * w.spKind + 128 * w.group)
    ++ leBytes 2 w.period ++ leBytes 2 w.offset ++ leBytes 2 0 ++ leBytes 4 w.pvPt ++ leBytes 4 w.spRef
    ++ leBytes 4 (w.ffPt.getD 0xFFFFFFFF) ++ leBytes 4 w.outPt ++ leBytes 4 (patternOf 32 w.initSp)
    ++ leBytes 4 (patternOf 32 w.initMan)

/-- A loop state record (Table 5.4); 0 until the loop's first sample. -/
def loopBytes (r : LoopRun) : List Byte :=
  let q := fun (v : Int) => leBytes 4 (patternOf 32 v)
  let b := fun (x : Biq) => q x.x1 ++ q x.x2 ++ q x.y1 ++ q x.y2
  if r.init && decide (r.st.tick = 0) then []
  else leBytes 8 (patternOf 64 r.st.i) ++ q r.st.xprev ++ q r.st.d ++ q r.st.eprev ++ q r.st.uprev ++ q r.st.splast
    ++ q r.st.fflast ++ q r.st.manval ++ q r.st.trkval ++ b r.st.b1 ++ b r.st.b2 ++ q r.st.pvlast
    ++ leBytes 4 r.st.tick.toNat

/-- A coefficient set of a modulator input in 16 bytes; one never written has GAIN 1.0, OFFSET 0 and PHASE 0 (log entry
3). -/
def coefSetBytes (c : Option CoefSet) : List Byte :=
  match c with
  | some c => leBytes 4 c.gain.toNat ++ leBytes 4 c.offset.toNat ++ leBytes 2 c.phase.toNat ++ leBytes 6 0
  | none => leBytes 16 0x40000000

/-- A context as `NPC_VCTX` shows it; its peer entry has the context's own number (R279). -/
def ctxBytes (c : Ctx) (v : Nat) : List Byte :=
  leBytes 8 c.stationId.toNat ++ leBytes 2 c.maxFrame ++ leBytes 2 c.rpTicks ++ leBytes 2 c.noutB ++ leBytes 2 c.ninB
    ++ leBytes 4 c.lastSeq.toNat ++ leBytes 4 c.lastAck.toNat ++ leBytes 2 c.endpoint.udpPort.toNat
    ++ leBytes 2 c.endpoint.vlan.toNat ++ leBytes 4 v

/-- The endpoint of the peer entry `i` of a port. -/
def peerOf (s : State) (p i : Nat) : Option Endpoint :=
  match ctxOf s i with
  | some c =>
    match c.endpoint.link with
    | .port q => if q.val = p then some c.endpoint else none
    | .bus _ => none
  | none => none

/-- Word `k` of TB2 as it reads back (Table 10.6): LEN as DLC gives it, the fields of received frames 0. -/
def txShow (c : Ctl) (k : Nat) : Nat :=
  match k with
  | 1 => txWord c 1 % 32 + dlcLen (hostFrame c).fdf (txWord c 1 % 16) * 2 ^ 16
  | 2 => 0
  | k => txWord c k

/-- The two words of a filter of `FBCn_FLT`. -/
def filtBytes (f : Option Filt) : List Byte :=
  match f with
  | some f => leBytes 4 (f.fid.toNat + one f.ide * 2 ^ 29 + (if f.offload then 2 else 1) * 2 ^ 30) ++ leBytes 4 f.mask.toNat
  | none => []

/-- A word of an FBC instance outside its fields: `FBCn_TSC` (R239), TB2 and the filter table. -/
def fbcWord (s : State) (n : Fin 24) (o : Nat) : Option Nat :=
  let c := ctl s n
  if o = 0x1C then some (s.tb.now / 10 % 2 ^ 32)
  else if 0x100 ≤ o ∧ o < 0x14C then some (txShow c ((o - 0x100) / 4))
  else if 0x400 ≤ o ∧ o < 0x600 then some (wordAt (filtBytes (tget c.filters ((o - 0x400) / 8))) (o % 8))
  else none

/-- A word of a port's peer tables (R279). -/
def peerWord (s : State) (p o : Nat) : Option Nat :=
  if 0x4000 ≤ o ∧ o < 0xC000 then
    some (match peerOf s p ((o - 0x4000) / 16) with | some e => wordAt (octets 16 e.addr.toNat) (o % 16) | none => 0)
  else if 0xC000 ≤ o then
    some (match peerOf s p ((o - 0xC000) / 8) with | some e => wordAt (octets 6 e.mac.toNat) (o % 8) | none => 0)
  else none

/-- The pending bits of the MSI-X vectors as a number. -/
def pbaBits (s : State) : Nat := s.hmx.msixPend.foldl (fun n v => n + 2 ^ v) 0

/-- The windows whose read changes nothing, by address: a word, or none outside them. -/
def windowWord (s : State) (a : Nat) : Option Nat :=
  ([(inArr a 0x400 256 1).map fun (_, o) =>
      wordAt (s.ssu.otp.roots.toList.flatMap fun r => r.digest.getD (leBytes 64 0)) o,
    (inArr a 0x600 520 1).map fun (_, o) => leNat ((List.range 4).map fun i => idPub (o + i)),
    (inArr a 0x802000 32 512).map fun (n, o) => wordAt ((s.csa.forces[n]?).elim [] forceBytes) o,
    (inArr a 0xC08000 64 1024).map fun (n, o) =>
      wordAt ((s.fct.active.bind fun f => f.loops[n]?).elim [] wireBytes) o,
    (inArr a 0xD00000 128 1024).map fun (n, o) => if o < 96 then ((tget s.lpe.bankA (n * 24 + o / 4)).getD 0).toNat else 0,
    (inArr a 0xD20000 128 1024).map fun (n, o) => if o < 96 then ((tget s.lpe.bankB (n * 24 + o / 4)).getD 0).toNat else 0,
    (inArr a 0xD40000 128 1024).map fun (n, o) => wordAt ((tget s.lpe.runs n).elim [] loopBytes) o,
    (inArr a 0x1410000 128 96).map fun (c, o) => wordAt ((chanOf s c).latch.elim [] latchBytes) o,
    (inArr a 0x1420000 32 198).map fun (i, o) =>
      wordAt (coefSetBytes (tget s.mte.active i) ++ coefSetBytes (tget s.mte.shadow i)) o,
    (inArr a 0x1D00000 0x10000 24).bind fun (n, o) => fbcWord s (Fin.ofNat 24 n) o,
    (inArr a 0x2100000 0x10000 16).bind fun (p, o) => peerWord s p o,
    (inArr a 0x2220000 32 2048).map fun (v, o) => wordAt ((ctxOf s v).elim [] fun c => ctxBytes c v) o,
    (inArr a 0x3500000 16 64).map fun (v, o) => (msixWord s (v * 4 + o / 4)).toNat,
    (inArr a 0x3501000 8 1).map fun (_, o) => bitsOf (pbaBits s) (8 * o) 32] : List (Option Nat)).findSome? id

/-! ### Reads -/

/-- Clears the RC fields a read has returned: each shows its reset value again, which is 0 but for `SSU_TEMP.MAX`
(R5). -/
def readClear (s : State) (l : List (Field × Nat)) : State :=
  l.foldl (fun s e => if e.1.acc = .rc then wr s e.1 (e.1.resetAt e.2) e.2 else s) s

/-- A 32-bit read at an aligned address; none at a reserved address or an undefined offset. -/
def readWord (s : State) (a : Nat) : Option (Nat × State) :=
  if a = 0x400028 then some (timeLoRead s false)
  else if a = 0x400030 then some (timeLoRead s true)
  else if a = 0x400104 then some (rtcLoRead s)
  else if a = 0x1000050 then some (perfLoRead s false)
  else if a = 0x1000058 then some (perfLoRead s true)
  else if (0x2D00000 ≤ a ∧ a < 0x2D10000) ∨ (0x3100000 ≤ a ∧ a < 0x3101000) then some (nvsWindow s a)
  else
    match (inArr a 0x1D00200 0x10000 24).filter (·.2 < 76) with
    | some (n, o) => some (rxwin s (Fin.ofNat 24 n) (o / 4))
    | none =>
      match windowWord s a with
      | some v => some (v, s)
      | none => if (fieldsAt a).isEmpty then none else some (readFields s (fieldsAt a), readClear s (fieldsAt a))

/-- An access that R20 counts. -/
def countAccess (s : State) : State := bump s Reg.HMX_HERR_ACC

/-- A 32-bit half of a read (R20): 0 and counted where nothing is defined. -/
def readHalf (s : State) (a : Nat) : Nat × State :=
  match readWord s a with
  | some r => r
  | none => (0, countAccess s)

/-- A host read (R20): 64 bits are two 32-bit reads, lower address first; a misaligned one is a reserved access. -/
def hostRead (s : State) (a : Nat) (wide : Bool) : Nat × State :=
  if a % 4 ≠ 0 then (0, countAccess s)
  else if wide then
    let l := readHalf s a
    let h := readHalf l.2 (a + 4)
    (l.1 + 2 ^ 32 * h.1, h.2)
  else readHalf s a

/-- READ_CLEAR (R5). -/
def execReadClear (addr : BitVec 26) (wide : Bool) (s : State) : Host.Outcome State Fault Refusal :=
  .next (emitRead (hostRead s addr.toNat wide))

/-! ### Writes -/

/-- A field that takes no write in the present state: ring bases and sizes of an enabled ring, the rings of the Lattice
Solver also while jobs are held (R157), the calibration configuration during a run. -/
def locked (s : State) (f : Field) (i : Nat) : Bool :=
  if f.id = Reg.MTE_LRCFG_LRLOG.id ∨ f.id = Reg.MTE_LRBASE_LO_BASE.id ∨ f.id = Reg.MTE_LRBASE_HI_BASE.id then
    rdB s Reg.MTE_LRCFG_EN
  else if f.id = Reg.NPC_VRCFG_VRLOG.id ∨ f.id = Reg.NPC_VRBASE_LO_BASE.id ∨ f.id = Reg.NPC_VRBASE_HI_BASE.id then
    rdB s Reg.NPC_VRCFG_EN
  else if f.id = Reg.HMX_DMABASE_LO_BASE.id ∨ f.id = Reg.HMX_DMABASE_HI_BASE.id then rdB s Reg.HMX_DMACFG_EN i
  else if Reg.LSV_CTLADDR_LO_CTLADDR.id ≤ f.id ∧ f.id ≤ Reg.LSV_CQBASE_HI_CQBASE.id then
    rdB s Reg.LSV_RINGCFG_EN || !s.lsv.held.isEmpty
  else if Reg.MTE_CALCFG_FEEDER.id ≤ f.id ∧ f.id ≤ Reg.MTE_CALTOL_ACCP.id then rdB s Reg.MTE_CALSTS_PEND
  else false

/-- A value lies in the range the Meaning of a field gives (R431); ZONE is signed. -/
def inRange (f : Field) (x : Nat) : Bool :=
  if f.id = Reg.TBC_RTCCFG_ZONE.id then decide (-48 ≤ signedOf 8 x ∧ signedOf 8 x ≤ 56)
  else decide (f.lo ≤ x ∧ x ≤ f.hi)

/-- What a field holds after a write of its register, by its own access code and by the state before the write, whatever
the register's other fields take (Table 0.3, R433); none when it keeps its value. -/
def fieldTakes (s : State) (v : Nat) (f : Field) (i : Nat) : Option Nat :=
  let x := bitsOf v f.lsb f.width
  match f.acc with
  | .rw => if inRange f x && !locked s f i then some x else none
  | .rwh => if modeIs s = .halt && inRange f x && !locked s f i then some x else none
  | .w1c => if x = 1 then some 0 else none
  | _ => none

/-- Every field of a written register, each as the state `old` before the write decides. -/
def writeFields (old : State) (v : Nat) (l : List (Field × Nat)) : State :=
  l.foldl (fun s e => match fieldTakes old v e.1 e.2 with | some x => wr s e.1 x e.2 | none => s) old

/-- The enable bit of a latch or Vertex ring: a size outside 6 to 14 refuses EN (Tables 8.16, 11.12). A base that is not
4 KiB aligned does not: DESIGN CHOICE (log entry 100). -/
def ringEn (old s : State) (en log : Field) (v : Nat) : State :=
  if v % 2 = 0 then wr s en 0
  else if rdB old en then wr s en 1
  else wrB s en (decide (6 ≤ rd s log ∧ rd s log ≤ 14))

/-- `MTE_MODCFG` (Table 8.13, R188): in HALT a DIV outside its range changes nothing and sets BADCFG, a change restarts
the filters. -/
def modcfgWrite (s : State) (v : Nat) : State :=
  let s := if bitsOf v 23 1 = 1 then wr s Reg.MTE_MODCFG_BADCFG 0 else s
  let div := bitsOf v 0 10
  let dly := bitsOf v 16 7
  if modeIs s ≠ .halt then s
  else if div < 157 ∨ 625 < div then wr s Reg.MTE_MODCFG_BADCFG 1
  else if div = rd s Reg.MTE_MODCFG_DIV ∧ dly = rd s Reg.MTE_MODCFG_SAMPDLY then s
  else restartFilters (wr (wr s Reg.MTE_MODCFG_DIV div) Reg.MTE_MODCFG_SAMPDLY dly)

/-- What follows a write of fields: the host timer starts with HOSTEN, the status of the pair and the cascade follow
their configuration, and a changed field of the configuration record is written to the NVS. -/
def afterWrite (old s : State) (l : List (Field × Nat)) : State :=
  let chg := fun (f : Field) => rd s f != rd old f
  let s := if chg Reg.SSU_WDTCFG_HOSTEN then { s with ssu := { s.ssu with wdtFrom := some s.tb.now } } else s
  let s := if chg Reg.CSC_CFG_EN then reparent (showCsc s) else s
  let s := if chg Reg.RDU_CFG_PAIRED then pairedChanged s else s
  let s := if chg Reg.TBC_DISC_PTPEN || chg Reg.TBC_DISC_PTPPORT then showPtps s else s
  if l.any fun e => configFields.any (·.id = e.1.id) && rd s e.1 e.2 != rd old e.1 e.2 then
    nvsSave s 3 (configData s) .config
  else s

/-- The windows that take writes: the coefficient banks (R119), TB2 and the MSI-X table; the read-only ones ignore them.
None outside every window. -/
def windowWrite32 (s : State) (a : Nat) (v : BitVec 32) : Option State :=
  let coef := fun (bank : Bool) (e : Nat × Nat) =>
    if h : e.2 / 4 < 24 then coefWrite s bank (Fin.ofNat 1024 e.1) ⟨e.2 / 4, h⟩ v else s
  match inArr a 0xD00000 128 1024 with
  | some e => some (coef false e)
  | none => match inArr a 0xD20000 128 1024 with
    | some e => some (coef true e)
    | none => match (inArr a 0x1D00100 0x10000 24).filter (·.2 < 76) with
      | some (n, o) =>
        let n := Fin.ofNat 24 n
        some (setCtl s n { ctl s n with txw := tput (ctl s n).txw (o / 4) v })
      | none => match inArr a 0x3500000 16 64 with
        | some (k, o) => some (msixWrite s (k * 4 + o / 4) v)
        | none =>
          if (windowWord s a).isSome || decide (0x2D00000 ≤ a ∧ a < 0x2D10000) || decide (0x3100000 ≤ a ∧ a < 0x3101000)
              || ((inArr a 0x1D00200 0x10000 24).filter (·.2 < 76)).isSome then some s
          else none

/-- The `n` descriptors of `size` bytes from `first` that an enabling write reads from host memory: their bytes are free
values (log entry 70). -/
def freeDescs (s : State) (first n size ring : Nat) : List LeftDesc × State :=
  ((List.range n).map fun k => ⟨(first + k) % ring, (List.range size).map fun i => freeByte (s.free + size * k + i)⟩,
   { s with free := s.free + size * n })

/-- A write of `LSV_RINGCFG`: one that sets EN is RING_ENABLE, whose control block and descriptors are free values. -/
def ringWrite (s : State) (v : BitVec 32) : State :=
  if v.toNat % 2 = 0 then ringDisable (ringEnable s v 0 0 0 0 []) v
  else if rdB s Reg.LSV_RINGCFG_EN then ringEnable s v 0 0 0 0 []
  else
    let w := fun (k : Nat) => (freeWord (s.free + k)).setWidth 32
    let size := 2 ^ min 12 (bitsOf v.toNat 1 4)
    let n := ((w 1).toNat % size + size - (w 0).toNat % size) % size
    let r := freeDescs { s with free := s.free + 4 } ((w 0).toNat % size) n 128 size
    ringEnable r.2 v (w 0) (w 1) (w 2) (w 3) r.1

/-- A write of `HMX_DMACFG`: one that sets EN is DMA_QUEUE_ENABLE, whose descriptors are free values. -/
def dmaWrite (s : State) (q : Fin 4) (v : BitVec 32) : State :=
  if v.toNat % 2 = 0 ∨ rdB s Reg.HMX_DMACFG_EN q.val then dmaEnable s q v []
  else
    let tail := rd s Reg.HMX_DMATAIL_TAIL q.val
    let n := min ((s.hmx.dmaHead[q] + 2 ^ 32 - tail) % 2 ^ 32) (2 ^ min 12 (bitsOf v.toNat 1 4))
    let r := freeDescs s tail n 32 (2 ^ 32)
    dmaEnable r.2 q v r.1

/-- A 32-bit write at an aligned address (R433); one that issues a command does what the command's row does; a
register with a row of its own takes its fields by that row. -/
def writeWord (s : State) (a : Nat) (v : BitVec 32) : State :=
  match hostCommand s a v with
  | some (.next t) => t
  | some _ => s
  | none =>
  if a = Reg.TBC_TICKCFG_TICKLEN.addr then tickcfgWrite s v
  else if a = Reg.HMX_SPLIT_SRAMHOST.addr then splitWrite s v
  else if a = Reg.MTE_MODCFG_DIV.addr then modcfgWrite s v.toNat
  else if a = Reg.LSV_RINGCFG_EN.addr then ringWrite s v
  else
    match Reg.HMX_DMACFG_EN.indexAt a with
    | some q => dmaWrite s (Fin.ofNat 4 q) v
    | none =>
      match windowWrite32 s a v with
      | some s => s
      | none =>
        let l := fieldsAt a
        if l.isEmpty then countAccess s
        else
          let t := writeFields s v.toNat l
          let t := if a = Reg.MTE_LRCFG_EN.addr then flushLatch (ringEn s t Reg.MTE_LRCFG_EN Reg.MTE_LRCFG_LRLOG v.toNat)
            else if a = Reg.NPC_VRCFG_EN.addr then ringEn s t Reg.NPC_VRCFG_EN Reg.NPC_VRCFG_VRLOG v.toNat
            else t
          afterWrite s t l

/-- A host write (R20): 64 bits are two 32-bit writes, lower address first; a misaligned one is a reserved access. -/
def hostWrite (s : State) (a : Nat) (wide : Bool) (v : BitVec 64) : State :=
  if a % 4 ≠ 0 then countAccess s
  else if wide then writeWord (writeWord s a (v.setWidth 32)) (a + 4) ((v >>> 32).setWidth 32)
  else writeWord s a (v.setWidth 32)

/-- REGISTER_WRITE (R433, R431). -/
def execRegisterWrite (addr : BitVec 26) (wide : Bool) (v : BitVec 64) (s : State) : Host.Outcome State Fault Refusal :=
  .next (hostWrite s addr.toNat wide v)

/-! ### Reserved accesses -/

/-- An aligned 32-bit access at an address meets nothing that is defined. -/
def undefinedAt (s : State) (a : Nat) : Bool := (readWord s a).isNone

/-- RESERVED_ACCESS (R20, R287). An access of wrong size or alignment counts once in `HMX_HERR.ACC`; a read returns 0,
a write is ignored. In one of 4 or 8 bytes each 32-bit half at an undefined address counts and is 0 or ignored, and a
half that meets a defined offset is an access of its own. The row carries no data: what a write puts into such a half
is a free value (log entry 70). -/
def execReservedAccess (addr : BitVec 26) (bytes : Nat) (write : Bool) (s : State) : Host.Outcome State Fault Refusal :=
  let a := addr.toNat
  .next (
    if a % 4 ≠ 0 ∨ (bytes ≠ 4 ∧ bytes ≠ 8) then
      if write then countAccess s else emitRead (0, countAccess s)
    else if !write then emitRead (hostRead s a (bytes = 8))
    else if undefinedAt s a && (bytes = 4 || undefinedAt s (a + 4)) then hostWrite s a (bytes = 8) 0
    else let (k, s) := nextFree s; hostWrite s a (bytes = 8) (freeWord k))

end Sys2Proof.Machine
end

