-- ==== Sys2Proof/Machine/Dispatch.lean ====
section
/-! DEFINITION. The dispatcher: one arm per command, each a direct call of its meaning. -/

namespace Sys2Proof.Machine

/-- The effect of a command on everything but the queue. -/
def exec (i : Instr) (s : State) : Host.Outcome State Fault Refusal :=
  match i with
  | .registerWrite addr wide v => Sys2Proof.Machine.execRegisterWrite addr wide v s
  | .reservedAccess addr bytes write => Sys2Proof.Machine.execReservedAccess addr bytes write s
  | .readClear addr wide => Sys2Proof.Machine.execReadClear addr wide s
  | .timeLoRead tickno => Sys2Proof.Machine.execTimeLoRead tickno s
  | .perfLoRead cyc => Sys2Proof.Machine.execPerfLoRead cyc s
  | .rtccntLoRead => Sys2Proof.Machine.execRtccntLoRead s
  | .por straps => Sys2Proof.Machine.execPor straps s
  | .bor rail straps => Sys2Proof.Machine.execBor rail straps s
  | .pinReset lowNs phaseTakes straps => Sys2Proof.Machine.execPinReset lowNs phaseTakes straps s
  | .wdtReset straps => Sys2Proof.Machine.execWdtReset straps s
  | .hstReset v straps => Sys2Proof.Machine.execHstReset v straps s
  | .functionLevelReset straps => Sys2Proof.Machine.execFunctionLevelReset straps s
  | .nvsRecallComplete us => Sys2Proof.Machine.execNvsRecallComplete us s
  | .keyCheckComplete => Sys2Proof.Machine.execKeyCheckComplete s
  | .recallEnd => Sys2Proof.Machine.execRecallEnd s
  | .run => Sys2Proof.Machine.execRun s
  | .stop => Sys2Proof.Machine.execStop s
  | .hold => Sys2Proof.Machine.execHold s
  | .release => Sys2Proof.Machine.execRelease s
  | .test => Sys2Proof.Machine.execTest s
  | .badCommand r code => Sys2Proof.Machine.execBadCommand r code s
  | .tickEdge => Sys2Proof.Machine.execTickEdge s
  | .phase1 => Sys2Proof.Machine.execPhase1 s
  | .phase2 => Sys2Proof.Machine.execPhase2 s
  | .phase3 => Sys2Proof.Machine.execPhase3 s
  | .tickFault => Sys2Proof.Machine.execTickFault s
  | .tickcfgWrite v => Sys2Proof.Machine.execTickcfgWrite v s
  | .ptpQualify utcOffset => Sys2Proof.Machine.execPtpQualify utcOffset s
  | .ptpSourceLost => Sys2Proof.Machine.execPtpSourceLost s
  | .apexSourceLost => Sys2Proof.Machine.execApexSourceLost s
  | .ptpSyncRx port m stamp => Sys2Proof.Machine.execPtpSyncRx port m stamp s
  | .ptpSyncTx port => Sys2Proof.Machine.execPtpSyncTx port s
  | .ptpDelayReq r => Sys2Proof.Machine.execPtpDelayReq r s
  | .startWaitExpiry => Sys2Proof.Machine.execStartWaitExpiry s
  | .add sq g d a b => Sys2Proof.Machine.execAdd sq g d a b s
  | .sub sq g d a b => Sys2Proof.Machine.execSub sq g d a b s
  | .andr sq g d a b => Sys2Proof.Machine.execAndr sq g d a b s
  | .orr sq g d a b => Sys2Proof.Machine.execOrr sq g d a b s
  | .xorr sq g d a b => Sys2Proof.Machine.execXorr sq g d a b s
  | .shl sq g d a b => Sys2Proof.Machine.execShl sq g d a b s
  | .shr sq g d a b => Sys2Proof.Machine.execShr sq g d a b s
  | .sar sq g d a b => Sys2Proof.Machine.execSar sq g d a b s
  | .adds sq g d a b => Sys2Proof.Machine.execAdds sq g d a b s
  | .subs sq g d a b => Sys2Proof.Machine.execSubs sq g d a b s
  | .mins sq g d a b => Sys2Proof.Machine.execMins sq g d a b s
  | .maxs sq g d a b => Sys2Proof.Machine.execMaxs sq g d a b s
  | .mul sq g d a b => Sys2Proof.Machine.execMul sq g d a b s
  | .mulh sq g d a b => Sys2Proof.Machine.execMulh sq g d a b s
  | .qmul sq g d a b n => Sys2Proof.Machine.execQmul sq g d a b n s
  | .div sq g d a b => Sys2Proof.Machine.execDiv sq g d a b s
  | .divu sq g d a b => Sys2Proof.Machine.execDivu sq g d a b s
  | .rem sq g d a b => Sys2Proof.Machine.execRem sq g d a b s
  | .absr sq g d a => Sys2Proof.Machine.execAbsr sq g d a s
  | .sel sq g d a b p => Sys2Proof.Machine.execSel sq g d a b p s
  | .addi sq g d a imm => Sys2Proof.Machine.execAddi sq g d a imm s
  | .andi sq g d a imm => Sys2Proof.Machine.execAndi sq g d a imm s
  | .ori sq g d a imm => Sys2Proof.Machine.execOri sq g d a imm s
  | .xori sq g d a imm => Sys2Proof.Machine.execXori sq g d a imm s
  | .shli sq g d a n => Sys2Proof.Machine.execShli sq g d a n s
  | .shri sq g d a n => Sys2Proof.Machine.execShri sq g d a n s
  | .sari sq g d a n => Sys2Proof.Machine.execSari sq g d a n s
  | .ldil sq g d imm => Sys2Proof.Machine.execLdil sq g d imm s
  | .ldih sq g d imm => Sys2Proof.Machine.execLdih sq g d imm s
  | .cmp sq g c p a b => Sys2Proof.Machine.execCmp sq g c p a b s
  | .cmpi sq g c p a imm => Sys2Proof.Machine.execCmpi sq g c p a imm s
  | .plog sq g f p q r => Sys2Proof.Machine.execPlog sq g f p q r s
  | .mac sq g k a b => Sys2Proof.Machine.execMac sq g k a b s
  | .msu sq g k a b => Sys2Proof.Machine.execMsu sq g k a b s
  | .aclr sq g k => Sys2Proof.Machine.execAclr sq g k s
  | .ard sq g long d k n => Sys2Proof.Machine.execArd sq g long d k n s
  | .amov sq g k a => Sys2Proof.Machine.execAmov sq g k a s
  | .fadd sq g p d a b => Sys2Proof.Machine.execFadd sq g p d a b s
  | .fsub sq g p d a b => Sys2Proof.Machine.execFsub sq g p d a b s
  | .fmul sq g p d a b => Sys2Proof.Machine.execFmul sq g p d a b s
  | .fma sq g p d a b => Sys2Proof.Machine.execFma sq g p d a b s
  | .fdiv sq g p d a b => Sys2Proof.Machine.execFdiv sq g p d a b s
  | .fsqrt sq g p d a => Sys2Proof.Machine.execFsqrt sq g p d a s
  | .fmin sq g p d a b => Sys2Proof.Machine.execFmin sq g p d a b s
  | .fmax sq g p d a b => Sys2Proof.Machine.execFmax sq g p d a b s
  | .fcmp sq g p c q a b => Sys2Proof.Machine.execFcmp sq g p c q a b s
  | .fcvt sq g f d a => Sys2Proof.Machine.execFcvt sq g f d a s
  | .ld sq g sp sz d a disp => Sys2Proof.Machine.execLd sq g sp sz d a disp s
  | .lds sq g sp sz d a disp => Sys2Proof.Machine.execLds sq g sp sz d a disp s
  | .st sq g sp sz b a disp => Sys2Proof.Machine.execSt sq g sp sz b a disp s
  | .ldp sq g d b a disp => Sys2Proof.Machine.execLdp sq g d b a disp s
  | .stp sq g d b a disp => Sys2Proof.Machine.execStp sq g d b a disp s
  | .nop sq g => Sys2Proof.Machine.execNop sq g s
  | .endInst sq => Sys2Proof.Machine.execEndInst sq s
  | .br sq g off => Sys2Proof.Machine.execBr sq g off s
  | .loop sq d a bound body => Sys2Proof.Machine.execLoop sq d a bound body s
  | .call sq g off => Sys2Proof.Machine.execCall sq g off s
  | .ret sq g => Sys2Proof.Machine.execRet sq g s
  | .rdflg sq g d => Sys2Proof.Machine.execRdflg sq g d s
  | .time sq g d => Sys2Proof.Machine.execTime sq g d s
  | .tickn sq g d => Sys2Proof.Machine.execTickn sq g d s
  | .ton sq g sp p q a disp => Sys2Proof.Machine.execTon sq g sp p q a disp s
  | .tof sq g sp p q a disp => Sys2Proof.Machine.execTof sq g sp p q a disp s
  | .tp sq g sp p q a disp => Sys2Proof.Machine.execTp sq g sp p q a disp s
  | .ctu sq g sp p q a disp => Sys2Proof.Machine.execCtu sq g sp p q a disp s
  | .ctd sq g sp p q a disp => Sys2Proof.Machine.execCtd sq g sp p q a disp s
  | .edge sq g sp m p q a disp => Sys2Proof.Machine.execEdge sq g sp m p q a disp s
  | .rate sq g sp d b a disp => Sys2Proof.Machine.execRate sq g sp d b a disp s
  | .vstat sq g d a => Sys2Proof.Machine.execVstat sq g d a s
  | .lsp sq g a b => Sys2Proof.Machine.execLsp sq g a b s
  | .lrd sq g f d a => Sys2Proof.Machine.execLrd sq g f d a s
  | .lctlAuto sq g a b => Sys2Proof.Machine.execLctlAuto sq g a b s
  | .lctlManual sq g a b => Sys2Proof.Machine.execLctlManual sq g a b s
  | .lctlTrack sq g a b => Sys2Proof.Machine.execLctlTrack sq g a b s
  | .lctlBankSwap sq g a b => Sys2Proof.Machine.execLctlBankSwap sq g a b s
  | .lctlResetI sq g a b => Sys2Proof.Machine.execLctlResetI sq g a b s
  | .mbxst sq g f d a => Sys2Proof.Machine.execMbxst sq g f d a s
  | .mbxcp sq g d a b n => Sys2Proof.Machine.execMbxcp sq g d a b n s
  | .mbxack sq g a => Sys2Proof.Machine.execMbxack sq g a s
  | .evt sq g a b code sev => Sys2Proof.Machine.execEvt sq g a b code sev s
  | .nvwr sq g sp a b len => Sys2Proof.Machine.execNvwr sq g sp a b len s
  | .nvws sq g d a => Sys2Proof.Machine.execNvws sq g d a s
  | .fetchEccError sq => Sys2Proof.Machine.execFetchEccError sq s
  | .load fr => Sys2Proof.Machine.execLoad fr s
  | .loadFetchComplete f => Sys2Proof.Machine.execLoadFetchComplete f s
  | .arm fr => Sys2Proof.Machine.execArm fr s
  | .olcAbort fr => Sys2Proof.Machine.execOlcAbort fr s
  | .activate fr => Sys2Proof.Machine.execActivate fr s
  | .forceSet => Sys2Proof.Machine.execForceSet s
  | .forceRelease => Sys2Proof.Machine.execForceRelease s
  | .forceReleaseAll => Sys2Proof.Machine.execForceReleaseAll s
  | .lpeRunComplete => Sys2Proof.Machine.execLpeRunComplete s
  | .laneError lane loop again => Sys2Proof.Machine.execLaneError lane loop again s
  | .coefWrite bank loop word v => Sys2Proof.Machine.execCoefWrite bank loop word v s
  | .lcmdSwapLoop loop => Sys2Proof.Machine.execLcmdSwapLoop loop s
  | .lcmdSwapGroup group => Sys2Proof.Machine.execLcmdSwapGroup group s
  | .lcmdClearLoop loop => Sys2Proof.Machine.execLcmdClearLoop loop s
  | .lcmdClearAll => Sys2Proof.Machine.execLcmdClearAll s
  | .lsvDoorbell sqHead => Sys2Proof.Machine.execLsvDoorbell sqHead s
  | .descriptorFetch bytes cqRead => Sys2Proof.Machine.execDescriptorFetch bytes cqRead s
  | .jobStart o => Sys2Proof.Machine.execJobStart o s
  | .jobComplete o => Sys2Proof.Machine.execJobComplete o s
  | .jobBudgetExpiry us => Sys2Proof.Machine.execJobBudgetExpiry us s
  | .cancelJob => Sys2Proof.Machine.execCancelJob s
  | .ringEnable v sqDone sqHead cqTail cqRead left => Sys2Proof.Machine.execRingEnable v sqDone sqHead cqTail cqRead left s
  | .ringDisable v => Sys2Proof.Machine.execRingDisable v s
  | .tileUpset tile corrected word => Sys2Proof.Machine.execTileUpset tile corrected word s
  | .partJoin n head src dst cjob ncpl => Sys2Proof.Machine.execPartJoin n head src dst cjob ncpl s
  | .joinWaitExpiry => Sys2Proof.Machine.execJoinWaitExpiry s
  | .schur n head src dst vals => Sys2Proof.Machine.execSchur n head src dst vals s
  | .cplrhs n head src dst vals => Sys2Proof.Machine.execCplrhs n head src dst vals s
  | .cplstep n head src dst vals => Sys2Proof.Machine.execCplstep n head src dst vals s
  | .cplreply n head src dst vals => Sys2Proof.Machine.execCplreply n head src dst vals s
  | .cplend n head src dst code rsn o => Sys2Proof.Machine.execCplend n head src dst code rsn o s
  | .cplwaitExpiry => Sys2Proof.Machine.execCplwaitExpiry s
  | .lineCycleEnd f o => Sys2Proof.Machine.execLineCycleEnd f o s
  | .novoltTimeout f => Sys2Proof.Machine.execNovoltTimeout f s
  | .inputStuck inp => Sys2Proof.Machine.execInputStuck inp s
  | .inputUnstuck inp => Sys2Proof.Machine.execInputUnstuck inp s
  | .filterBankFault b => Sys2Proof.Machine.execFilterBankFault b s
  | .pulseEdge p at_ heldNs => Sys2Proof.Machine.execPulseEdge p at_ heldNs s
  | .latchRecordRx r => Sys2Proof.Machine.execLatchRecordRx r s
  | .pairmissTimeout c => Sys2Proof.Machine.execPairmissTimeout c s
  | .meterPeriodicSave => Sys2Proof.Machine.execMeterPeriodicSave s
  | .heartbeat => Sys2Proof.Machine.execHeartbeat s
  | .calStart => Sys2Proof.Machine.execCalStart s
  | .calAbort => Sys2Proof.Machine.execCalAbort s
  | .calWrite => Sys2Proof.Machine.execCalWrite s
  | .calWindowEnd => Sys2Proof.Machine.execCalWindowEnd s
  | .calVerifyEnd => Sys2Proof.Machine.execCalVerifyEnd s
  | .prepare => Sys2Proof.Machine.execPrepare s
  | .prepareFetchComplete f => Sys2Proof.Machine.execPrepareFetchComplete f s
  | .swap => Sys2Proof.Machine.execSwap s
  | .facetAbort => Sys2Proof.Machine.execFacetAbort s
  | .discard => Sys2Proof.Machine.execDiscard s
  | .probe n => Sys2Proof.Machine.execProbe n s
  | .probeComplete n seen => Sys2Proof.Machine.execProbeComplete n seen s
  | .recover n => Sys2Proof.Machine.execRecover n s
  | .recoveryComplete n => Sys2Proof.Machine.execRecoveryComplete n s
  | .clearCounters n => Sys2Proof.Machine.execClearCounters n s
  | .txRequest n => Sys2Proof.Machine.execTxRequest n s
  | .txCancel n at_ => Sys2Proof.Machine.execTxCancel n at_ s
  | .frameTxComplete n b stamp => Sys2Proof.Machine.execFrameTxComplete n b stamp s
  | .txError n b err dataPhase inDataOrCrc => Sys2Proof.Machine.execTxError n b err dataPhase inDataOrCrc s
  | .frameRx n f esi sofNs validNs => Sys2Proof.Machine.execFrameRx n f esi sofNs validNs s
  | .rxwinHeadRead n => Sys2Proof.Machine.execRxwinHeadRead n s
  | .rxwinLastRead n => Sys2Proof.Machine.execRxwinLastRead n s
  | .rxDiscard n => Sys2Proof.Machine.execRxDiscard n s
  | .filterAdd n => Sys2Proof.Machine.execFilterAdd n s
  | .filterRemove n index => Sys2Proof.Machine.execFilterRemove n index s
  | .filterRemoveAll n => Sys2Proof.Machine.execFilterRemoveAll n s
  | .queueEntryExpiry n onWire => Sys2Proof.Machine.execQueueEntryExpiry n onWire s
  | .fbcParityError n tx rx => Sys2Proof.Machine.execFbcParityError n tx rx s
  | .join ep stamp h b => Sys2Proof.Machine.execJoin ep stamp h b s
  | .leave ep stamp h stationId => Sys2Proof.Machine.execLeave ep stamp h stationId s
  | .cack ep stamp h ackSeq => Sys2Proof.Machine.execCack ep stamp h ackSeq s
  | .report ep stamp h ackSeq elems => Sys2Proof.Machine.execReport ep stamp h ackSeq elems s
  | .mismatch ep stamp h b => Sys2Proof.Machine.execMismatch ep stamp h b s
  | .copyTimeout v => Sys2Proof.Machine.execCopyTimeout v s
  | .reportMiss v => Sys2Proof.Machine.execReportMiss v s
  | .deliveryRunTimeout v => Sys2Proof.Machine.execDeliveryRunTimeout v s
  | .segmentTimeout n id => Sys2Proof.Machine.execSegmentTimeout n id s
  | .vcmdRelease v => Sys2Proof.Machine.execVcmdRelease v s
  | .clearmm v => Sys2Proof.Machine.execClearmm v s
  | .claimnoteSend => Sys2Proof.Machine.execClaimnoteSend s
  | .claimnote port member side claim => Sys2Proof.Machine.execClaimnote port member side claim s
  | .linkUp p speed aneg => Sys2Proof.Machine.execLinkUp p speed aneg s
  | .linkDown p => Sys2Proof.Machine.execLinkDown p s
  | .portParityError u => Sys2Proof.Machine.execPortParityError u s
  | .arpEchoReply p k src mac => Sys2Proof.Machine.execArpEchoReply p k src mac s
  | .endpointReset => Sys2Proof.Machine.execEndpointReset s
  | .msixUnmask vec => Sys2Proof.Machine.execMsixUnmask vec s
  | .dmaDoorbell q head => Sys2Proof.Machine.execDmaDoorbell q head s
  | .dmaDescriptorEnd q desc seen => Sys2Proof.Machine.execDmaDescriptorEnd q desc seen s
  | .dmaQueueEnable q v left => Sys2Proof.Machine.execDmaQueueEnable q v left s
  | .splitWrite v => Sys2Proof.Machine.execSplitWrite v s
  | .bar2Refused off bytes wr => Sys2Proof.Machine.execBar2Refused off bytes wr s
  | .ddrTrainComplete ch0 ch1 size => Sys2Proof.Machine.execDdrTrainComplete ch0 ch1 size s
  | .ddrUncorrectable ch where_ => Sys2Proof.Machine.execDdrUncorrectable ch where_ s
  | .ddrPatrolScrub corrected => Sys2Proof.Machine.execDdrPatrolScrub corrected s
  | .chordTrained n lanes rate lat => Sys2Proof.Machine.execChordTrained n lanes rate lat s
  | .chordLockLost n => Sys2Proof.Machine.execChordLockLost n s
  | .hello n head h => Sys2Proof.Machine.execHello n head h s
  | .keep l head => Sys2Proof.Machine.execKeep l head s
  | .input n head inp => Sys2Proof.Machine.execInput n head inp s
  | .close n head count digest => Sys2Proof.Machine.execClose n head count digest s
  | .verdict n head v => Sys2Proof.Machine.execVerdict n head v s
  | .digest n head d => Sys2Proof.Machine.execDigest n head d s
  | .yield n head edge reason => Sys2Proof.Machine.execYield n head edge reason s
  | .claim n head claim edge => Sys2Proof.Machine.execClaim n head claim edge s
  | .copyreq n head => Sys2Proof.Machine.execCopyreq n head s
  | .region n head bytes whole d => Sys2Proof.Machine.execRegion n head bytes whole d s
  | .commits n head c => Sys2Proof.Machine.execCommits n head c s
  | .copyend n head => Sys2Proof.Machine.execCopyend n head s
  | .fseqGapTimeout l => Sys2Proof.Machine.execFseqGapTimeout l s
  | .chordCrcError n => Sys2Proof.Machine.execChordCrcError n s
  | .latencyMeasure l lat => Sys2Proof.Machine.execLatencyMeasure l lat s
  | .verdictLimit => Sys2Proof.Machine.execVerdictLimit s
  | .partnerSilence => Sys2Proof.Machine.execPartnerSilence s
  | .copyTimeLimit => Sys2Proof.Machine.execCopyTimeLimit s
  | .partnerAbsentExpiry => Sys2Proof.Machine.execPartnerAbsentExpiry s
  | .rduSwap => Sys2Proof.Machine.execRduSwap s
  | .rduClearCounters => Sys2Proof.Machine.execRduClearCounters s
  | .cascadeTrained n lanes lat => Sys2Proof.Machine.execCascadeTrained n lanes lat s
  | .chello n head h => Sys2Proof.Machine.execChello n head h s
  | .tickmark n head k delay stamp hops => Sys2Proof.Machine.execTickmark n head k delay stamp hops s
  | .roster n head units => Sys2Proof.Machine.execRoster n head units s
  | .rosterBroadcast => Sys2Proof.Machine.execRosterBroadcast s
  | .stateFrame n head u => Sys2Proof.Machine.execStateFrame n head u s
  | .memberLost member side => Sys2Proof.Machine.execMemberLost member side s
  | .exportFrame n head m side c k stamp l => Sys2Proof.Machine.execExportFrame n head m side c k stamp l s
  | .nvsWriteStart => Sys2Proof.Machine.execNvsWriteStart s
  | .nvsWriteComplete => Sys2Proof.Machine.execNvsWriteComplete s
  | .retainedPeriodicSave => Sys2Proof.Machine.execRetainedPeriodicSave s
  | .scrub corrected uncorr copy => Sys2Proof.Machine.execScrub corrected uncorr copy s
  | .nvsWear => Sys2Proof.Machine.execNvsWear s
  | .freeze => Sys2Proof.Machine.execFreeze s
  | .thaw => Sys2Proof.Machine.execThaw s
  | .clearCounts => Sys2Proof.Machine.execClearCounts s
  | .clearLog => Sys2Proof.Machine.execClearLog s
  | .freezeTimeout => Sys2Proof.Machine.execFreezeTimeout s
  | .cursorWrite v => Sys2Proof.Machine.execCursorWrite v s
  | .timeAnchor => Sys2Proof.Machine.execTimeAnchor s
  | .opsecAdvance => Sys2Proof.Machine.execOpsecAdvance s
  | .rtcSet => Sys2Proof.Machine.execRtcSet s
  | .rtcSetApply => Sys2Proof.Machine.execRtcSetApply s
  | .calendarCheck utcOffset => Sys2Proof.Machine.execCalendarCheck utcOffset s
  | .trimMeasurementEnd grid pulses refS good => Sys2Proof.Machine.execTrimMeasurementEnd grid pulses refS good s
  | .trimWindowStart => Sys2Proof.Machine.execTrimWindowStart s
  | .oscillatorStop => Sys2Proof.Machine.execOscillatorStop s
  | .powerWarning => Sys2Proof.Machine.execPowerWarning s
  | .warningCleared => Sys2Proof.Machine.execWarningCleared s
  | .saveSequenceComplete us => Sys2Proof.Machine.execSaveSequenceComplete us s
  | .hostWatchdogExpiry straps => Sys2Proof.Machine.execHostWatchdogExpiry straps s
  | .wdtKick v => Sys2Proof.Machine.execWdtKick v s
  | .bistWaveStart => Sys2Proof.Machine.execBistWaveStart s
  | .bistWaveEnd failed ms => Sys2Proof.Machine.execBistWaveEnd failed ms s
  | .faultWindowClose r => Sys2Proof.Machine.execFaultWindowClose r s
  | .clearRetire key => Sys2Proof.Machine.execClearRetire key s
  | .resetClaim key => Sys2Proof.Machine.execResetClaim key s
  | .programRoot key index ok => Sys2Proof.Machine.execProgramRoot key index ok s
  | .revoke key index ok => Sys2Proof.Machine.execRevoke key index ok s
  | .raisePfloor key value ok => Sys2Proof.Machine.execRaisePfloor key value ok s
  | .raiseFfloor key value ok => Sys2Proof.Machine.execRaiseFfloor key value ok s
  | .setBiststart key ok => Sys2Proof.Machine.execSetBiststart key ok s
  | .jtagOff key ok => Sys2Proof.Machine.execJtagOff key ok s
  | .quote => Sys2Proof.Machine.execQuote s
  | .quoteComplete ok => Sys2Proof.Machine.execQuoteComplete ok s
  | .jtagInstruction ti => Sys2Proof.Machine.execJtagInstruction ti s
  | .arbitrationLoss n b => Sys2Proof.Machine.execArbitrationLoss n b s
  | .receiveError n err dataPhase => Sys2Proof.Machine.execReceiveError n err dataPhase s
  | .frameDropped p k => Sys2Proof.Machine.execFrameDropped p k s
  | .cascadeLockLost n => Sys2Proof.Machine.execCascadeLockLost n s
  | .cascadeCrcError n => Sys2Proof.Machine.execCascadeCrcError n s
  | .pcieLinkTrained gen width => Sys2Proof.Machine.execPcieLinkTrained gen width s
  | .vbatLow low => Sys2Proof.Machine.execVbatLow low s
  | .calendarSecond => Sys2Proof.Machine.execCalendarSecond s
  | .nvsWindowRead addr => Sys2Proof.Machine.execNvsWindowRead addr s
  | .temperatureUpdate tj => Sys2Proof.Machine.execTemperatureUpdate tj s
  | .cmdCopy stationId c now => Sys2Proof.Machine.execCmdCopy stationId c now s
  | .joinAck stationId b => Sys2Proof.Machine.execJoinAck stationId b s
  | .receiverSafeState stationId now => Sys2Proof.Machine.execReceiverSafeState stationId now s

end Sys2Proof.Machine
end

