-- ==== Sys2Proof/Safety.lean ====
section
/-! DEFINITION. The terms the claims use: completion of a command, what a KCIS instruction may write, and the invariant
of the control memories. -/

namespace Sys2Proof.Machine

/-- A command completes with an effect: it answers a next state, and the effect holds of that state. -/
def Completes (o : Host.Outcome State Fault Refusal) (effect : State → Prop) : Prop := ∃ t, o = .next t ∧ effect t

/-- Every register field but those listed reads in `t` as it read in `s`. -/
def FieldsBut (s t : State) (l : List (Field × Nat)) : Prop :=
  ∀ (f : Field) (i : Nat), (∀ e ∈ l, f.key i ≠ e.1.key e.2) → rd t f i = rd s f i

/-- Nothing differs between two states but the register fields listed. -/
def OnlyFields (s t : State) (l : List (Field × Nat)) : Prop := { t with flds := s.flds } = s ∧ FieldsBut s t l

/-- A BAR0 address whose write a row of its own carries out, whose enable bit the write checks (Tables 8.16, 11.12), or
whose change the ports show (`TBC_DISC`, R282). -/
def ownWrite (a : Nat) : Bool :=
  [Reg.TBC_TICKCFG_TICKLEN.addr, Reg.TBC_DISC_APEXEN.addr, Reg.HMX_SPLIT_SRAMHOST.addr, Reg.MTE_MODCFG_DIV.addr, Reg.LSV_RINGCFG_EN.addr,
    Reg.MTE_LRCFG_EN.addr, Reg.NPC_VRCFG_EN.addr].contains a || (Reg.HMX_DMACFG_EN.indexAt a).isSome

/-- A BAR0 address whose read acts by a row of its own, or which lies in a window of the store. -/
def ownRead (a : Nat) : Bool :=
  [0x400028, 0x400030, 0x400104, 0x1000050, 0x1000058].contains a || decide (0x2D00000 ≤ a ∧ a < 0x2D10000)
    || decide (0x3100000 ≤ a ∧ a < 0x3101000) || ((inArr a 0x1D00200 0x10000 24).filter (·.2 < 76)).isSome

/-- The outcome in which an instance, gone on to its next word, stands in its sequencer. -/
def ran (s : State) (sq : Sq) (i : Inst) : Host.Outcome State Fault Refusal := .next (setInst s sq (nextWord i))

/-- The sequencer and guard of a KCIS instruction that may carry a guard (Table 3.10: LOOP and END may not). -/
def seqGuard : Instr → Option (Sq × Guard)
  | .add q g _ _ _ => some (q, g) | .sub q g _ _ _ => some (q, g) | .andr q g _ _ _ => some (q, g)
  | .orr q g _ _ _ => some (q, g) | .xorr q g _ _ _ => some (q, g) | .shl q g _ _ _ => some (q, g)
  | .shr q g _ _ _ => some (q, g) | .sar q g _ _ _ => some (q, g) | .adds q g _ _ _ => some (q, g)
  | .subs q g _ _ _ => some (q, g) | .mins q g _ _ _ => some (q, g) | .maxs q g _ _ _ => some (q, g)
  | .mul q g _ _ _ => some (q, g) | .mulh q g _ _ _ => some (q, g) | .qmul q g _ _ _ _ => some (q, g)
  | .div q g _ _ _ => some (q, g) | .divu q g _ _ _ => some (q, g) | .rem q g _ _ _ => some (q, g)
  | .absr q g _ _ => some (q, g) | .sel q g _ _ _ _ => some (q, g) | .addi q g _ _ _ => some (q, g)
  | .andi q g _ _ _ => some (q, g) | .ori q g _ _ _ => some (q, g) | .xori q g _ _ _ => some (q, g)
  | .shli q g _ _ _ => some (q, g) | .shri q g _ _ _ => some (q, g) | .sari q g _ _ _ => some (q, g)
  | .ldil q g _ _ => some (q, g) | .ldih q g _ _ => some (q, g) | .cmp q g _ _ _ _ => some (q, g)
  | .cmpi q g _ _ _ _ => some (q, g) | .plog q g _ _ _ _ => some (q, g) | .mac q g _ _ _ => some (q, g)
  | .msu q g _ _ _ => some (q, g) | .aclr q g _ => some (q, g) | .ard q g _ _ _ _ => some (q, g)
  | .amov q g _ _ => some (q, g) | .fadd q g _ _ _ _ => some (q, g) | .fsub q g _ _ _ _ => some (q, g)
  | .fmul q g _ _ _ _ => some (q, g) | .fma q g _ _ _ _ => some (q, g) | .fdiv q g _ _ _ _ => some (q, g)
  | .fsqrt q g _ _ _ => some (q, g) | .fmin q g _ _ _ _ => some (q, g) | .fmax q g _ _ _ _ => some (q, g)
  | .fcmp q g _ _ _ _ _ => some (q, g) | .fcvt q g _ _ _ => some (q, g) | .ld q g _ _ _ _ _ => some (q, g)
  | .lds q g _ _ _ _ _ => some (q, g) | .st q g _ _ _ _ _ => some (q, g) | .ldp q g _ _ _ _ => some (q, g)
  | .stp q g _ _ _ _ => some (q, g) | .nop q g => some (q, g) | .br q g _ => some (q, g)
  | .call q g _ => some (q, g) | .ret q g => some (q, g) | .rdflg q g _ => some (q, g)
  | .time q g _ => some (q, g) | .tickn q g _ => some (q, g) | .ton q g _ _ _ _ _ => some (q, g)
  | .tof q g _ _ _ _ _ => some (q, g) | .tp q g _ _ _ _ _ => some (q, g) | .ctu q g _ _ _ _ _ => some (q, g)
  | .ctd q g _ _ _ _ _ => some (q, g) | .edge q g _ _ _ _ _ _ => some (q, g) | .rate q g _ _ _ _ _ => some (q, g)
  | .vstat q g _ _ => some (q, g) | .lsp q g _ _ => some (q, g) | .lrd q g _ _ _ => some (q, g)
  | .lctlAuto q g _ _ => some (q, g) | .lctlManual q g _ _ => some (q, g) | .lctlTrack q g _ _ => some (q, g)
  | .lctlBankSwap q g _ _ => some (q, g) | .lctlResetI q g _ _ => some (q, g) | .mbxst q g _ _ _ => some (q, g)
  | .mbxcp q g _ _ _ _ => some (q, g) | .mbxack q g _ => some (q, g) | .evt q g _ _ _ _ => some (q, g)
  | .nvwr q g _ _ _ _ => some (q, g) | .nvws q g _ _ => some (q, g)
  | _ => none

/-- The registers a KCIS instruction may write, its loops' registers apart. -/
def destRegs : Instr → List Reg
  | .add _ _ d _ _ => [d] | .sub _ _ d _ _ => [d] | .andr _ _ d _ _ => [d] | .orr _ _ d _ _ => [d]
  | .xorr _ _ d _ _ => [d] | .shl _ _ d _ _ => [d] | .shr _ _ d _ _ => [d] | .sar _ _ d _ _ => [d]
  | .adds _ _ d _ _ => [d] | .subs _ _ d _ _ => [d] | .mins _ _ d _ _ => [d] | .maxs _ _ d _ _ => [d]
  | .mul _ _ d _ _ => [d] | .mulh _ _ d _ _ => [d] | .qmul _ _ d _ _ _ => [d] | .div _ _ d _ _ => [d]
  | .divu _ _ d _ _ => [d] | .rem _ _ d _ _ => [d] | .absr _ _ d _ => [d] | .sel _ _ d _ _ _ => [d]
  | .addi _ _ d _ _ => [d] | .andi _ _ d _ _ => [d] | .ori _ _ d _ _ => [d] | .xori _ _ d _ _ => [d]
  | .shli _ _ d _ _ => [d] | .shri _ _ d _ _ => [d] | .sari _ _ d _ _ => [d] | .ldil _ _ d _ => [d]
  | .ldih _ _ d _ => [d] | .ard _ _ _ d _ _ => [d] | .fadd _ _ _ d _ _ => [d] | .fsub _ _ _ d _ _ => [d]
  | .fmul _ _ _ d _ _ => [d] | .fma _ _ _ d _ _ => [d] | .fdiv _ _ _ d _ _ => [d] | .fsqrt _ _ _ d _ => [d]
  | .fmin _ _ _ d _ _ => [d] | .fmax _ _ _ d _ _ => [d] | .fcvt _ _ _ d _ => [d] | .ld _ _ _ _ d _ _ => [d]
  | .lds _ _ _ _ d _ _ => [d] | .ldp _ _ d b _ _ => [d, b] | .rdflg _ _ d => [d] | .time _ _ d => [d]
  | .tickn _ _ d => [d] | .rate _ _ _ d _ _ _ => [d] | .vstat _ _ d _ => [d] | .lrd _ _ _ d _ => [d]
  | .mbxst _ _ _ d _ => [d] | .nvws _ _ d _ => [d]
  | _ => []

/-- The predicates a KCIS instruction may write. -/
def destPreds : Instr → List Pred
  | .cmp _ _ _ p _ _ => [p] | .cmpi _ _ _ p _ _ => [p] | .plog _ _ _ p _ _ => [p] | .fcmp _ _ _ _ q _ _ => [q]
  | .ton _ _ _ p _ _ _ => [p] | .tof _ _ _ p _ _ _ => [p] | .tp _ _ _ p _ _ _ => [p] | .ctu _ _ _ p _ _ _ => [p]
  | .ctd _ _ _ p _ _ _ => [p] | .edge _ _ _ _ p _ _ _ => [p]
  | _ => []

/-- The accumulators a KCIS instruction may write. -/
def destAccs : Instr → List Acc
  | .mac _ _ k _ _ => [k] | .msu _ _ k _ _ => [k] | .aclr _ _ k => [k] | .amov _ _ k _ => [k]
  | _ => []

/-- The flags a KCIS instruction may set (Tables 3.5 to 3.13). -/
def destFlags : Instr → List TFlag
  | .adds .. => [.sat] | .subs .. => [.sat] | .qmul .. => [.sat] | .absr .. => [.sat] | .div .. => [.divz, .sat]
  | .divu .. => [.divz] | .rem .. => [.divz] | .mac .. => [.sat] | .msu .. => [.sat] | .ard .. => [.sat]
  | .fadd .. => [.fpinv, .fpovf] | .fsub .. => [.fpinv, .fpovf] | .fmul .. => [.fpinv, .fpovf]
  | .fma .. => [.fpinv, .fpovf] | .fdiv .. => [.fpinv, .fpovf] | .fsqrt .. => [.fpinv]
  | .fmin .. => [.fpinv] | .fmax .. => [.fpinv] | .fcmp .. => [.fpinv]
  | .fcvt .. => [.fpinv, .fpovf, .sat] | .ld .. => [.addr] | .lds .. => [.addr] | .st .. => [.addr]
  | .ldp .. => [.addr] | .stp .. => [.addr, .qualw] | .ton .. => [.addr] | .tof .. => [.addr]
  | .tp .. => [.addr] | .ctu .. => [.addr, .sat] | .ctd .. => [.addr, .sat] | .edge .. => [.addr]
  | .rate .. => [.addr, .sat] | .vstat .. => [.addr] | .lsp .. => [.addr] | .lrd .. => [.addr]
  | .lctlAuto .. => [.addr] | .lctlManual .. => [.addr] | .lctlTrack .. => [.addr] | .lctlBankSwap .. => [.addr]
  | .lctlResetI .. => [.addr] | .mbxst .. => [.addr] | .mbxcp .. => [.addr] | .mbxack .. => [.addr]
  | .evt .. => [.evtlim] | .nvwr .. => [.addr] | .nvws .. => [.addr]
  | _ => []

/-- The bytes a KCIS instruction stores to: space, first address and how many, computed from the instance as it stood
before. -/
def storeRange (i : Inst) : Instr → Option (Space × Nat × Nat)
  | .st _ _ sp sz _ a disp => some (sp, effAddr i a disp, sizeBytes sz)
  | .ton _ _ sp _ _ a disp => some (sp, effAddr i a disp, 16)
  | .tof _ _ sp _ _ a disp => some (sp, effAddr i a disp, 16)
  | .tp _ _ sp _ _ a disp => some (sp, effAddr i a disp, 16)
  | .ctu _ _ sp _ _ a disp => some (sp, effAddr i a disp, 16)
  | .ctd _ _ sp _ _ a disp => some (sp, effAddr i a disp, 16)
  | .edge _ _ sp _ _ _ a disp => some (sp, effAddr i a disp, 8)
  | .rate _ _ sp _ _ a disp => some (sp, effAddr i a disp, 16)
  | .mbxcp _ _ d _ _ n => some (.data, (rW i d).toNat, 8 * n.toNat)
  | _ => none

/-- An address outside the bytes stored to. -/
def outsideStore (r : Option (Space × Nat × Nat)) (sp : Space) (a : Nat) : Prop :=
  match r with
  | none => True
  | some (sp', ea, n) => sp ≠ sp' ∨ a < ea ∨ ea + n ≤ a

/-- The registers the instance's open LOOPs count in. -/
def loopRegs (i : Inst) : List Reg := i.loops.map (·.reg)

/-- No fault window of a resource is over (R391), so that what meets it meets it within the window. -/
abbrev WindowRuns (s : State) (r : Resource) : Prop :=
  ∀ w ∈ s.ssu.windows, w.res = r → faultOver s r w.tick = false

/-- A frame of a partitioned solve goes out to a unit: on the tree link towards it, when there is one (R323). -/
def SentPart (s t : State) (dst : CAddr) (f : CplFrame) : Prop :=
  ∀ k, linkTo s dst = some k → treeLink s k.val = true → ∃ h, Out.casc k h (.part (myAddr s) dst f) ∈ t.out

/-- The invariant of the control memories: the data memory and the retained area are in canonical form, every task a
sequencer runs or holds waiting is one of the 64, and every running instance has a journal and output writes with rising
keys and nothing written to w0 (R46). -/
def MemInv (s : State) : Prop :=
  Memory.wf s.csa.dmem = true ∧ Memory.wf s.csa.rmem = true ∧
    ∀ sq : Sq, (∀ n ∈ (s.csa.seqs[sq]).queue, n < 64) ∧
      ∀ i, instOf s sq = some i →
        i.task < 64 ∧ Tbl.rising i.journal = true ∧ Tbl.rising i.outs = true ∧ i.w[0] = 0

end Sys2Proof.Machine
end

