-- ==== Sys2Proof/Certificates/Slice0/Obligations.lean ====
section
/-! DEFINITION. The statements for the provers, one `def Obligations.<Name> : Prop` each. A statement about a command is
written as the next state it answers, or with `Completes`, so that it also says where the command completes; hypotheses
are on the state and the operands alone. Statements with several parts are conjunctions, a part for each group of rules
their docstrings name. -/

open Sys2Proof Sys2Proof.Machine

/-- The block takes the command at the front of its queue and runs it with the queue's rest, and idles on an empty
queue (log entry 10). Every command of the table, each constructor of `Instr` with every operand and in every state,
completes: it answers a next state, and none stops. What that state holds is the command's own effect, which the other
statements give; that effect is the count for RESERVED_ACCESS (R20), the refusal for BAD_COMMAND (R18), the fault
shown for TICK_FAULT (R43), the work of their instants for TICK_EDGE, PHASE_1, PHASE_2 and PHASE_3 (R31), and no
change for an event that its unit does not await. The queue is the model's own; the spec has none. -/
def Obligations.StepRunsFrontCommand : Prop :=
  (∀ (c : Instr) (s : State), step { s with pending := c :: s.pending } = exec c s) ∧
  (∀ s : State, s.pending = [] → step s = .next s) ∧
  (∀ (c : Instr) (s : State), ∃ t, exec c s = .next t)

/-- KCIS decoding and encoding agree: a well-formed instruction, with every operand at every value its encoding admits,
has a word, and the decoder reads the instruction back from it (Tables 3.2 to 3.13). -/
def Obligations.KcisDecodeOfEncode : Prop :=
  ∀ (c : Instr) (sq : Sq), c.wf = true →
    (∃ g, seqGuard c = some (sq, g)) ∨ c = .endInst sq ∨ (∃ d a bound body, c = .loop sq d a bound body) →
    ∃ w, kEncode c = some w ∧ kDecode sq w = some c

/-- Words written out field by field from Table 3.2 (OP, G, GN, GP, RD, RA, RB, SUB, IMM), one for each family of
KCIS. -/
def Obligations.KcisWords : Prop :=
  ∀ sq : Sq,
    kDecode sq (0b00010000#8 ++ 0b0#1 ++ 0b0#1 ++ 0b000#3 ++ 0b00001#5 ++ 0b00010#5 ++ 0b00011#5 ++ 0b0000#4 ++ 0x0#32)
      = some (.add sq .always 1 2 3) ∧
    kDecode sq (0b00101000#8 ++ 0b1#1 ++ 0b1#1 ++ 0b101#3 ++ 0b00001#5 ++ 0b00010#5 ++ 0b00000#5 ++ 0b0000#4 ++ 0xFFFFFFFF#32)
      = some (.addi sq (.on 5 true) 1 2 0xFFFFFFFF) ∧
    kDecode sq (0b01010010#8 ++ 0b1#1 ++ 0b0#1 ++ 0b011#3 ++ 0b00000#5 ++ 0b00100#5 ++ 0b00101#5 ++ 0b0110#4 ++ 0x00000008#32)
      = some (.st sq (.on 3 false) .retained .b32 5 4 8) ∧
    kDecode sq (0b01001000#8 ++ 0b0#1 ++ 0b0#1 ++ 0b000#3 ++ 0b00111#5 ++ 0b00001#5 ++ 0b00010#5 ++ 0b0101#4 ++ 0x0#32)
      = some (.fcmp sq .always .single .le 7 1 2) ∧
    kDecode sq (0b01101111#8 ++ 0b0#1 ++ 0b0#1 ++ 0b000#3 ++ 0b00000#5 ++ 0b00001#5 ++ 0b00010#5 ++ 0b0000#4 ++ 0x0002E001#32)
      = some (.evt sq .always 1 2 0xE001 2) ∧
    kDecode sq (0b00000100#8 ++ 0b0#1 ++ 0b0#1 ++ 0b000#3 ++ 0b00001#5 ++ 0b00000#5 ++ 0b00000#5 ++ 0b0000#4 ++ 0x000A0003#32)
      = some (.loop sq 1 0 10 3) ∧
    kDecode sq 0 = none

/-- R49: when a guard lets an instruction execute.

R49: a guarded instruction whose guard fails changes nothing but the word it stands at. -/
def Obligations.GuardedExecution : Prop :=
  (∀ (i : Inst) (p : Pred) (neg : Bool),
    guardOk i .always = true ∧
    (guardOk i (.on p neg) = true ↔ (neg = false ∧ rP i p = true) ∨ (neg = true ∧ rP i p = false))) ∧
  (∀ (c : Instr) (s : State) (sq : Sq) (g : Guard) (i : Inst),
    seqGuard c = some (sq, g) → instOf s sq = some i → guardOk i g = false → exec c s = ran s sq i)

/-- The frame of KCIS: an instruction other than END changes nothing outside the instance of its sequencer (EVT beyond
the eighth also counts a drop, stated with EVT); in the instance it leaves every register but its destinations and the
registers of open LOOPs, every predicate and accumulator but its destinations, and every stored byte outside the bytes
it stores to; it sets no flag but its own and clears none (R69). A store form whose address is refused stores nothing
and is inside the same bound. -/
def Obligations.KcisFrame : Prop :=
  ∀ (c : Instr) (s t : State) (sq : Sq) (g : Guard) (i : Inst),
    seqGuard c = some (sq, g) → (∀ g a b code sev, c ≠ .evt sq g a b code sev) → instOf s sq = some i →
    exec c s = .next t →
    ∃ j : Inst, t = setInst s sq j ∧
      (∀ r, r ∉ destRegs c → r ∉ loopRegs i → rW j r = rW i r) ∧
      (∀ p, p ∉ destPreds c → rP j p = rP i p) ∧
      (∀ k, k ∉ destAccs c → rAcc j k = rAcc i k) ∧
      (∀ f, hasFlag i f = true → hasFlag j f = true) ∧
      (∀ f, f ∉ destFlags c → hasFlag j f = hasFlag i f) ∧
      (∀ sp a, outsideStore (storeRange i c) sp a → instByte t j sp a = instByte s i sp a) ∧
      j.task = i.task ∧ j.tick = i.tick ∧ j.stamp = i.stamp

/-- Table 3.5, register forms that set no flag.

Table 3.5, forms that clamp: ADDS, SUBS and ABS clamp the exact value to the signed 64-bit range and set SAT exactly
when that changes it.

Table 3.5, immediate forms and SEL. -/
def Obligations.IntegerArithmeticResults : Prop :=
  (∀ (s : State) (sq : Sq) (g : Guard) (d a b : Reg) (i : Inst),
    instOf s sq = some i → guardOk i g = true →
    exec (.add sq g d a b) s = ran s sq (setW i d (rW i a + rW i b)) ∧
    exec (.sub sq g d a b) s = ran s sq (setW i d (rW i a - rW i b)) ∧
    exec (.andr sq g d a b) s = ran s sq (setW i d (rW i a &&& rW i b)) ∧
    exec (.orr sq g d a b) s = ran s sq (setW i d (rW i a ||| rW i b)) ∧
    exec (.xorr sq g d a b) s = ran s sq (setW i d (rW i a ^^^ rW i b)) ∧
    exec (.shl sq g d a b) s = ran s sq (setW i d (rW i a <<< ((rW i b).extractLsb' 0 6).toNat)) ∧
    exec (.shr sq g d a b) s = ran s sq (setW i d (rW i a >>> ((rW i b).extractLsb' 0 6).toNat)) ∧
    exec (.sar sq g d a b) s = ran s sq (setW i d ((rW i a).sshiftRight ((rW i b).extractLsb' 0 6).toNat)) ∧
    exec (.mins sq g d a b) s = ran s sq (setW i d (BitVec.ofInt 64 (min (rW i a).toInt (rW i b).toInt))) ∧
    exec (.maxs sq g d a b) s = ran s sq (setW i d (BitVec.ofInt 64 (max (rW i a).toInt (rW i b).toInt))) ∧
    exec (.mul sq g d a b) s = ran s sq (setW i d (BitVec.ofNat 64 ((rW i a).toNat * (rW i b).toNat))) ∧
    exec (.mulh sq g d a b) s =
      ran s sq (setW i d (BitVec.extractLsb' 64 64 (BitVec.ofInt 128 ((rW i a).toInt * (rW i b).toInt))))) ∧
  (∀ (s : State) (sq : Sq) (g : Guard) (d a b : Reg) (i : Inst),
    instOf s sq = some i → guardOk i g = true →
    ∀ (c : Instr) (v : Int),
      (c = .adds sq g d a b ∧ v = (rW i a).toInt + (rW i b).toInt) ∨
      (c = .subs sq g d a b ∧ v = (rW i a).toInt - (rW i b).toInt) ∨
      (c = .absr sq g d a ∧ v = |(rW i a).toInt|) →
      (-(2 ^ 63) ≤ v → v ≤ 2 ^ 63 - 1 → exec c s = ran s sq (setW i d (BitVec.ofInt 64 v))) ∧
      (2 ^ 63 - 1 < v → exec c s = ran s sq (setFlag (setW i d (BitVec.ofInt 64 (2 ^ 63 - 1))) .sat)) ∧
      (v < -(2 ^ 63) → exec c s = ran s sq (setFlag (setW i d (BitVec.ofInt 64 (-(2 ^ 63)))) .sat))) ∧
  (∀ (s : State) (sq : Sq) (g : Guard) (d a b : Reg) (imm : BitVec 32) (n : Fin 64) (p : Pred) (i : Inst),
    instOf s sq = some i → guardOk i g = true →
    exec (.addi sq g d a imm) s = ran s sq (setW i d (rW i a + imm.signExtend 64)) ∧
    exec (.andi sq g d a imm) s = ran s sq (setW i d (rW i a &&& imm.setWidth 64)) ∧
    exec (.ori sq g d a imm) s = ran s sq (setW i d (rW i a ||| imm.setWidth 64)) ∧
    exec (.xori sq g d a imm) s = ran s sq (setW i d (rW i a ^^^ imm.setWidth 64)) ∧
    exec (.shli sq g d a n) s = ran s sq (setW i d (rW i a <<< n.val)) ∧
    exec (.shri sq g d a n) s = ran s sq (setW i d (rW i a >>> n.val)) ∧
    exec (.sari sq g d a n) s = ran s sq (setW i d ((rW i a).sshiftRight n.val)) ∧
    exec (.ldil sq g d imm) s = ran s sq (setW i d (imm.signExtend 64)) ∧
    exec (.ldih sq g d imm) s =
      ran s sq (setW i d ((imm.setWidth 64 <<< 32) ||| ((rW i d).setWidth 32).setWidth 64)) ∧
    (rP i p = true → exec (.sel sq g d a b p) s = ran s sq (setW i d (rW i a))) ∧
    (rP i p = false → exec (.sel sq g d a b p) s = ran s sq (setW i d (rW i b))))

/-- R46: a write to w0 is discarded and w0 reads as zero. -/
def Obligations.RegisterZero : Prop :=
  ∀ (i : Inst) (v : Word) (r : Reg),
    rW i 0 = 0 ∧ setW i 0 v = i ∧ (r ≠ 0 → rW (setW i r v) r = v) ∧ (∀ q, q ≠ r → rW (setW i r v) q = rW i q) ∧
    rF i .double 0 = .fin false 0 (-1074) ∧ rF i .single 0 = .fin false 0 (-149)

/-- R55: QMUL rounds the exact product of bits 31:0 to nearest, ties away from zero, and saturates to 32 bits.

R55: DIV, DIVU and REM, every case. -/
def Obligations.FixedPointAndDivisionResults : Prop :=
  (∀ (s : State) (sq : Sq) (g : Guard) (d a b : Reg) (n : Fin 64) (i : Inst),
    instOf s sq = some i → guardOk i g = true →
    ∀ t m : Int, t = ((rW i a).setWidth 32).toInt * ((rW i b).setWidth 32).toInt →
      m = (if n.val = 0 then t else if 0 ≤ t then (t + 2 ^ (n.val - 1)) / 2 ^ n.val else -((-t + 2 ^ (n.val - 1)) / 2 ^ n.val)) →
      (-(2 ^ 31) ≤ m → m ≤ 2 ^ 31 - 1 →
        exec (.qmul sq g d a b n) s = ran s sq (setW i d (BitVec.ofInt 64 m))) ∧
      (2 ^ 31 - 1 < m →
        exec (.qmul sq g d a b n) s = ran s sq (setFlag (setW i d (BitVec.ofInt 64 (2 ^ 31 - 1))) .sat)) ∧
      (m < -(2 ^ 31) →
        exec (.qmul sq g d a b n) s = ran s sq (setFlag (setW i d (BitVec.ofInt 64 (-(2 ^ 31)))) .sat))) ∧
  (∀ (s : State) (sq : Sq) (g : Guard) (d a b : Reg) (i : Inst),
    instOf s sq = some i → guardOk i g = true →
    (rW i b = 0 →
      (rW i a = 0 → exec (.div sq g d a b) s = ran s sq (setFlag (setW i d 0) .divz)) ∧
      (0 < (rW i a).toInt →
        exec (.div sq g d a b) s = ran s sq (setFlag (setW i d (BitVec.ofInt 64 (2 ^ 63 - 1))) .divz)) ∧
      ((rW i a).toInt < 0 →
        exec (.div sq g d a b) s = ran s sq (setFlag (setW i d (BitVec.ofInt 64 (-(2 ^ 63)))) .divz)) ∧
      exec (.divu sq g d a b) s = ran s sq (setFlag (setW i d (BitVec.ofNat 64 (2 ^ 64 - 1))) .divz) ∧
      exec (.rem sq g d a b) s = ran s sq (setFlag (setW i d (rW i a)) .divz)) ∧
    ((rW i a).toInt = -(2 ^ 63) → (rW i b).toInt = -1 →
      exec (.div sq g d a b) s = ran s sq (setFlag (setW i d (BitVec.ofInt 64 (2 ^ 63 - 1))) .sat) ∧
      exec (.rem sq g d a b) s = ran s sq (setW i d 0)) ∧
    (rW i b ≠ 0 → ¬((rW i a).toInt = -(2 ^ 63) ∧ (rW i b).toInt = -1) →
      exec (.div sq g d a b) s = ran s sq (setW i d (BitVec.ofInt 64 ((rW i a).toInt.tdiv (rW i b).toInt))) ∧
      exec (.rem sq g d a b) s = ran s sq (setW i d (BitVec.ofInt 64 ((rW i a).toInt.tmod (rW i b).toInt)))) ∧
    (rW i b ≠ 0 →
      exec (.divu sq g d a b) s = ran s sq (setW i d (BitVec.ofNat 64 ((rW i a).toNat / (rW i b).toNat)))))

/-- Table 3.5, compares and predicate logic: the conditions and functions of SUB.

Table 3.6: MAC and MSU clamp to ±(2^95 − 1) with SAT, ACLR, AMOV, and ARD, which rounds to nearest, ties away from
zero, and leaves the accumulator. -/
def Obligations.PredicateAndAccumulatorResults : Prop :=
  (∀ (s : State) (sq : Sq) (g : Guard) (p q r : Pred) (a b : Reg) (imm : BitVec 32) (i : Inst),
    instOf s sq = some i → guardOk i g = true →
    (∀ (c : Cond) (y : Word) (h : Bool),
      (c = .eq ∧ h = decide (rW i a = y)) ∨ (c = .ne ∧ h = decide (rW i a ≠ y)) ∨
      (c = .lt ∧ h = decide ((rW i a).toInt < y.toInt)) ∨ (c = .ge ∧ h = decide ((rW i a).toInt ≥ y.toInt)) ∨
      (c = .ltu ∧ h = decide ((rW i a).toNat < y.toNat)) ∨ (c = .geu ∧ h = decide ((rW i a).toNat ≥ y.toNat)) →
      (y = rW i b → exec (.cmp sq g c p a b) s = ran s sq (setP i p h)) ∧
      (y = imm.signExtend 64 → exec (.cmpi sq g c p a imm) s = ran s sq (setP i p h))) ∧
    exec (.plog sq g .and p q r) s = ran s sq (setP i p (rP i q && rP i r)) ∧
    exec (.plog sq g .or p q r) s = ran s sq (setP i p (rP i q || rP i r)) ∧
    exec (.plog sq g .xor p q r) s = ran s sq (setP i p (rP i q ^^ rP i r)) ∧
    exec (.plog sq g .andn p q r) s = ran s sq (setP i p (rP i q && !rP i r)) ∧
    exec (.plog sq g .not p q r) s = ran s sq (setP i p (!rP i q)) ∧
    exec (.plog sq g .set p q r) s = ran s sq (setP i p true) ∧
    exec (.plog sq g .clr p q r) s = ran s sq (setP i p false) ∧
    exec (.plog sq g .mov p q r) s = ran s sq (setP i p (rP i q))) ∧
  (∀ (s : State) (sq : Sq) (g : Guard) (k : Acc) (d a b : Reg) (n : Fin 64) (i : Inst),
    instOf s sq = some i → guardOk i g = true →
    (∀ (c : Instr) (v : Int),
      (c = .mac sq g k a b ∧ v = (rAcc i k).toInt + ((rW i a).setWidth 32).toInt * ((rW i b).setWidth 32).toInt) ∨
      (c = .msu sq g k a b ∧ v = (rAcc i k).toInt - ((rW i a).setWidth 32).toInt * ((rW i b).setWidth 32).toInt) →
      (-(2 ^ 95 - 1) ≤ v → v ≤ 2 ^ 95 - 1 → exec c s = ran s sq (setAcc i k (BitVec.ofInt 96 v))) ∧
      (2 ^ 95 - 1 < v → exec c s = ran s sq (setFlag (setAcc i k (BitVec.ofInt 96 (2 ^ 95 - 1))) .sat)) ∧
      (v < -(2 ^ 95 - 1) → exec c s = ran s sq (setFlag (setAcc i k (BitVec.ofInt 96 (-(2 ^ 95 - 1)))) .sat))) ∧
    exec (.aclr sq g k) s = ran s sq (setAcc i k 0) ∧
    exec (.amov sq g k a) s = ran s sq (setAcc i k ((rW i a).signExtend 96)) ∧
    (∀ (long : Bool) (w : Nat) (t m : Int), w = (if long then 63 else 31) → t = (rAcc i k).toInt →
      m = (if n.val = 0 then t else if 0 ≤ t then (t + 2 ^ (n.val - 1)) / 2 ^ n.val else -((-t + 2 ^ (n.val - 1)) / 2 ^ n.val)) →
      (-(2 ^ w) ≤ m → m ≤ 2 ^ w - 1 → exec (.ard sq g long d k n) s = ran s sq (setW i d (BitVec.ofInt 64 m))) ∧
      (2 ^ w - 1 < m →
        exec (.ard sq g long d k n) s = ran s sq (setFlag (setW i d (BitVec.ofInt 64 (2 ^ w - 1))) .sat)) ∧
      (m < -(2 ^ w) →
        exec (.ard sq g long d k n) s = ran s sq (setFlag (setW i d (BitVec.ofInt 64 (-(2 ^ w)))) .sat))))

/-- Tables 3.7 and 3.8: each floating-point form writes the rounded result of its operation on the operands read in its
precision, with FPINV and FPOVF as the result says; FCMP writes a predicate; a conversion to fixed point or integer
sets SAT when it saturates.

R56, NaN operands: a quiet NaN operand gives the default quiet NaN without FPINV, a signalling one with it; FMIN and
FMAX return the operand that is not a NaN, with FPINV only for a signalling NaN; a NaN converts to 0 with FPINV. -/
def Obligations.FloatResults : Prop :=
  (∀ (s : State) (sq : Sq) (g : Guard) (p : Prec) (d a b : Reg) (q : Pred) (i : Inst) (f : FFmt) (x y z : FVal),
    instOf s sq = some i → guardOk i g = true → f = fmtOf p → x = rF i p a → y = rF i p b → z = rF i p d →
    (∀ (c : Instr) (r : FRes),
      (c = .fadd sq g p d a b ∧ r = fAdd f x y) ∨ (c = .fsub sq g p d a b ∧ r = fAdd f x (fNeg y)) ∨
      (c = .fmul sq g p d a b ∧ r = fMul f x y) ∨ (c = .fma sq g p d a b ∧ r = fFma f z x y) ∨
      (c = .fdiv sq g p d a b ∧ r = fDiv f x y) ∨ (c = .fsqrt sq g p d a ∧ r = fSqrt f x) ∨
      (c = .fmin sq g p d a b ∧ r = fMinMax f false (fBits i p a) (fBits i p b)) ∨
      (c = .fmax sq g p d a b ∧ r = fMinMax f true (fBits i p a) (fBits i p b)) ∨
      (c = .fcvt sq g .qd d a ∧ r = fOfInt fmt64 ((rW i a).setWidth 32).toInt (-24)) ∨
      (c = .fcvt sq g .qs d a ∧ r = fOfInt fmt32 ((rW i a).setWidth 32).toInt (-24)) ∨
      (c = .fcvt sq g .id d a ∧ r = fOfInt fmt64 (rW i a).toInt 0) ∨
      (c = .fcvt sq g .sd d a ∧ r = fConv fmt64 (rF i .single a)) ∨
      (c = .fcvt sq g .ds d a ∧ r = fConv fmt32 (rF i .double a)) →
      exec c s = ran s sq (setFlagIf (setFlagIf (setW i d (BitVec.ofNat 64 r.bits)) .fpinv r.inv) .fpovf r.ovf)) ∧
    (∀ (c : Instr) (v : Int) (inv sat : Bool),
      (c = .fcvt sq g .dq d a ∧ (v, inv, sat) = fToInt 32 24 (rF i .double a)) ∨
      (c = .fcvt sq g .sq d a ∧ (v, inv, sat) = fToInt 32 24 (rF i .single a)) ∨
      (c = .fcvt sq g .di d a ∧ (v, inv, sat) = fToInt 64 0 (rF i .double a)) →
      exec c s = ran s sq (setFlagIf (setFlagIf (setW i d (BitVec.ofInt 64 v)) .fpinv inv) .sat sat)) ∧
    (∀ (c : FCond) (h : Bool),
      (c = .un ∧ h = (x.isNan || y.isNan)) ∨
      (c ≠ .un ∧ (x.isNan || y.isNan) = true ∧ h = false) ∨
      ((x.isNan || y.isNan) = false ∧
        ((c = .eq ∧ h = decide (fOrder x y = 0)) ∨ (c = .lt ∧ h = decide (fOrder x y < 0)) ∨
         (c = .le ∧ h = decide (fOrder x y ≤ 0)))) →
      exec (.fcmp sq g p c q a b) s =
        ran s sq (setFlagIf (setP i q h) .fpinv (decide (x = .nan true) || decide (y = .nan true))))) ∧
  (∀ (f : FFmt) (v : FVal) (l : List FVal) (x y : Nat),
    fNan fmt64 = 0x7FF8000000000000 ∧ fNan fmt32 = 0x7FC00000 ∧
    (l = [.nan false, v] ∨ l = [v, .nan false] → v ≠ .nan true → ∀ r : FRes, r = ⟨fNan f, false, false⟩ →
      (∀ a b, l = [a, b] → fAdd f a b = r ∧ fMul f a b = r ∧ fDiv f a b = r)) ∧
    (l = [.nan true, v] ∨ l = [v, .nan true] → ∀ r : FRes, r = ⟨fNan f, true, false⟩ →
      (∀ a b, l = [a, b] → fAdd f a b = r ∧ fMul f a b = r ∧ fDiv f a b = r)) ∧
    (∀ g : Bool, fSqrt f (.nan g) = ⟨fNan f, g, false⟩ ∧ fConv f (.nan g) = ⟨fNan f, g, false⟩ ∧
      (∀ w k, fToInt w k (.nan g) = (0, true, false))) ∧
    ((fRead f x).isNan = true → (fRead f y).isNan = false →
      fMinMax f false x y = ⟨y, decide (fRead f x = .nan true), false⟩ ∧
      fMinMax f true x y = ⟨y, decide (fRead f x = .nan true), false⟩ ∧
      fMinMax f false y x = ⟨y, decide (fRead f x = .nan true), false⟩ ∧
      fMinMax f true y x = ⟨y, decide (fRead f x = .nan true), false⟩))

/-- R56: a result in range is the nearest number of the format: no finite number of the format lies nearer to the exact
value ±m × 2^e than the rounded one. -/
def Obligations.FloatRoundsToNearest : Prop :=
  ∀ (p : Prec) (neg : Bool) (m : Nat) (e : Int), m ≠ 0 → (fRound (fmtOf p) neg m e false).ovf = false →
    ∃ (m' : Nat) (e' : Int), fRead (fmtOf p) (fRound (fmtOf p) neg m e false).bits = .fin neg m' e' ∧
      ∀ (n : Nat) (k : Int), n < 2 ^ (fmtOf p).p → (fmtOf p).emin ≤ k → k + ((fmtOf p).p : Int) - 1 ≤ (fmtOf p).emax →
        |(m' : ℚ) * 2 ^ e' - (m : ℚ) * 2 ^ e| ≤ |(n : ℚ) * 2 ^ k - (m : ℚ) * 2 ^ e|

/-- R51 to R53, loads: a valid access reads its bytes, little-endian, as the instance sees them, zero-extended by LD and
sign-extended by LDS; an address fault gives 0 and ADDR.

R52 and R53, stores: a valid access places the low bytes of rb in the journal, where the instance reads them back,
and every other byte reads as before; an address fault places nothing and sets ADDR. The memories themselves are
unchanged. -/
def Obligations.LoadAndStoreResults : Prop :=
  (∀ (s : State) (sq : Sq) (g : Guard) (sp : Space) (sz : Size) (d a : Reg) (disp : BitVec 32) (i : Inst) (ea n v : Nat),
    instOf s sq = some i → guardOk i g = true → ea = (rW i a + disp.signExtend 64).toNat →
    (sz = .b8 ∧ n = 1 ∨ sz = .b16 ∧ n = 2 ∨ sz = .b32 ∧ n = 4 ∨ sz = .b64 ∧ n = 8) →
    v = ((List.range n).map fun k => (instByte s i sp (ea + k)).toNat * 256 ^ k).sum →
    (ea % n = 0 ∧ inSegment s i.task sp ea n = true →
      exec (.ld sq g sp sz d a disp) s = ran s sq (setW i d (BitVec.ofNat 64 v)) ∧
      exec (.lds sq g sp sz d a disp) s =
        ran s sq (setW i d (BitVec.ofInt 64 (if v < 2 ^ (8 * n - 1) then v else (v : Int) - 2 ^ (8 * n))))) ∧
    (¬(ea % n = 0 ∧ inSegment s i.task sp ea n = true) →
      exec (.ld sq g sp sz d a disp) s = ran s sq (setFlag (setW i d 0) .addr) ∧
      exec (.lds sq g sp sz d a disp) s = ran s sq (setFlag (setW i d 0) .addr))) ∧
  (∀ (s : State) (sq : Sq) (g : Guard) (sp : Space) (sz : Size) (b a : Reg) (disp : BitVec 32) (i : Inst) (ea n : Nat),
    instOf s sq = some i → guardOk i g = true → ea = (rW i a + disp.signExtend 64).toNat →
    (sz = .b8 ∧ n = 1 ∨ sz = .b16 ∧ n = 2 ∨ sz = .b32 ∧ n = 4 ∨ sz = .b64 ∧ n = 8) →
    (ea % n = 0 ∧ inSegment s i.task sp ea n = true →
      ∃ j, exec (.st sq g sp sz b a disp) s = ran s sq j ∧
        (∀ k, k < n → instByte s j sp (ea + k) = (rW i b).extractLsb' (8 * k) 8) ∧
        (∀ sp' x, (sp' ≠ sp ∨ x < ea ∨ ea + n ≤ x) → instByte s j sp' x = instByte s i sp' x) ∧
        j.w = i.w ∧ j.p = i.p ∧ j.tflags = i.tflags ∧ j.pc = i.pc) ∧
    (¬(ea % n = 0 ∧ inSegment s i.task sp ea n = true) →
      exec (.st sq g sp sz b a disp) s = ran s sq (setFlag i .addr)))

/-- R54: LDP and STP. -/
def Obligations.PointResults : Prop :=
  ∀ (s : State) (sq : Sq) (g : Guard) (d b a : Reg) (disp : BitVec 32) (i : Inst) (t : TaskEntry) (x : Nat),
    instOf s sq = some i → guardOk i g = true → taskOf s i.task = some t → x = (rW i a + disp.signExtend 64).toNat →
    (∀ pt, t.inList[x]? = some pt → ∀ v : PSlot, v = (tget s.csa.snap.img pt).getD ⟨0, .bad, 0⟩ →
      exec (.ldp sq g d b a disp) s =
        ran s sq (setW (setW i d v.value) b (BitVec.ofNat 64 (qualCode v.qual)))) ∧
    (t.inList[x]? = none →
      exec (.ldp sq g d b a disp) s = ran s sq (setFlag (setW (setW i d 0) b 4) .addr)) ∧
    (∀ pt, t.outList[x]? = some pt → ∀ (q : Qual) (w : Bool),
      ((rW i b).toNat % 8 = 0 ∧ q = .good ∧ w = false ∨ (rW i b).toNat % 8 = 3 ∧ q = .substituted ∧ w = false ∨
       (rW i b).toNat % 8 = 4 ∧ q = .bad ∧ w = false ∨
       (rW i b).toNat % 8 ∉ [0, 3, 4] ∧ q = .bad ∧ w = true) →
      ∃ j, exec (.stp sq g d b a disp) s = ran s sq j ∧ tget j.outs pt = some (rW i d, q) ∧
        (∀ pt', pt' ≠ pt → tget j.outs pt' = tget i.outs pt') ∧
        hasFlag j .qualw = (w || hasFlag i .qualw) ∧ j.w = i.w ∧ j.journal = i.journal) ∧
    (t.outList[x]? = none → exec (.stp sq g d b a disp) s = ran s sq (setFlag i .addr))

/-- R38, and Table 3.10 and Table 3.11: TIME, TICKN, RDFLG and NOP.

Table 3.10 and R57: BR, CALL, RET and LOOP. RET goes on where its CALL pushed; a LOOP of n iterations opens with
index 0 at its first body word, and one of no iterations goes on after the body.

R57: the closing of an iteration. At the word after its body an open LOOP of the present call depth goes back to
its first body word with the next index, until its count is done; then the instance goes on there. -/
def Obligations.ControlFlowResults : Prop :=
  (∀ (s : State) (sq : Sq) (g : Guard) (d : Reg) (i : Inst),
    instOf s sq = some i → guardOk i g = true →
    exec (.time sq g d) s = ran s sq (setW i d (BitVec.ofNat 64 i.stamp)) ∧
    exec (.tickn sq g d) s = ran s sq (setW i d (BitVec.ofNat 64 i.tick)) ∧
    exec (.rdflg sq g d) s = ran s sq (setW i d (i.tflags.setWidth 64)) ∧
    exec (.nop sq g) s = ran s sq i) ∧
  (∀ (s : State) (sq : Sq) (g : Guard) (off : BitVec 32) (d a : Reg) (bound body : BitVec 16) (i : Inst),
    instOf s sq = some i → guardOk i g = true →
    (0 ≤ (i.pc : Int) + off.toInt →
      Completes (exec (.br sq g off) s) (fun t => ∃ j, t = setInst s sq j ∧ (j.pc : Int) = i.pc + off.toInt ∧
        j = { i with pc := j.pc }) ∧
      Completes (exec (.call sq g off) s) (fun t => ∃ j, t = setInst s sq j ∧ (j.pc : Int) = i.pc + off.toInt ∧
        j = { i with pc := j.pc, rets := (i.pc + 1) :: i.rets })) ∧
    (∀ r rs, i.rets = r :: rs → exec (.ret sq g) s = .next (setInst s sq (goto { i with rets := rs } r))) ∧
    (∀ n : Int, n = (if a = 0 then (bound.toNat : Int) else (rW i a).toInt) →
      ∀ j, j = (if (bound.toNat : Int) < n then setFlag i .loopclamp else i) →
      (0 < n → 0 < bound.toNat →
        exec (.loop sq d a bound body) s = .next (setInst s sq (setW { j with
          pc := i.pc + 1
          loops := ⟨d, 0, (min n bound.toNat).toNat, i.pc + 1, i.pc + body.toNat, i.rets.length⟩ :: i.loops } d 0))) ∧
      (n ≤ 0 → exec (.loop sq d a bound body) s = .next (setInst s sq (goto j (i.pc + body.toNat + 1)))))) ∧
  (∀ (i : Inst) (f : LoopFrame) (fs : List LoopFrame),
    i.loops = f :: fs → f.depth = i.rets.length → i.pc = f.last →
    (f.i + 1 < f.n → nextWord i =
      setW { i with pc := f.first, loops := { f with i := f.i + 1 } :: fs } f.reg (BitVec.ofNat 64 (f.i + 1))) ∧
    (f.n ≤ f.i + 1 → fs = [] → nextWord i = { i with pc := f.last + 1, loops := [] }) ∧
    (∀ x : Inst, x.loops = [] → nextWord x = { x with pc := x.pc + 1 }))

/-- R62: the timers. With s the release stamp, x the input, U the limit PRESET × UNIT in ns and the record's START, RUN,
Q and PREV, each timer leaves what its listing says, and the predicate takes Q. The other bits of CTRL are kept.

R62 and R53: a timer reads its 16-byte record as the instance sees it, steps it, places it in the journal and
writes Q to pd; where the record's address faults it writes 0 to pd, sets ADDR and leaves the record. -/
def Obligations.TimerResults : Prop :=
  (∀ (t : TimerRec) (s : Nat) (x : Bool) (lim : Nat),
    lim = t.preset * (if t.ctrl % 4 = 0 then 10 ^ 3 else if t.ctrl % 4 = 1 then 10 ^ 6 else if t.ctrl % 4 = 2 then 10 ^ 9 else 60 * 10 ^ 9) →
    ∀ (run q prev : Bool), run = ctrlBit t.ctrl 2 → q = ctrlBit t.ctrl 3 → prev = ctrlBit t.ctrl 4 →
    ∀ (start' : Nat) (due : Bool), start' = (if run then t.start else s) → due = decide (s ≥ start' + lim) →
    (∀ u, u = tonStep t s x →
      (x = false → u.start = t.start ∧ ctrlBit u.ctrl 2 = false ∧ ctrlBit u.ctrl 3 = false) ∧
      (x = true → u.start = start' ∧ ctrlBit u.ctrl 2 = true ∧ ctrlBit u.ctrl 3 = (q || due)) ∧
      ctrlBit u.ctrl 4 = prev ∧ u.preset = t.preset ∧ u.ctrl % 4 = t.ctrl % 4) ∧
    (∀ u, u = tofStep t s x →
      (x = true → u.start = t.start ∧ ctrlBit u.ctrl 2 = false ∧ ctrlBit u.ctrl 3 = true) ∧
      (x = false → q = false → u = t) ∧
      (x = false → q = true → u.start = start' ∧ ctrlBit u.ctrl 2 = !due ∧ ctrlBit u.ctrl 3 = !due) ∧
      ctrlBit u.ctrl 4 = prev ∧ u.preset = t.preset ∧ u.ctrl % 4 = t.ctrl % 4) ∧
    (∀ u ended, u = tpStep t s x → ended = (run && decide (s ≥ t.start + lim)) →
      ((!run || ended) = true → x = true → prev = false →
        u.start = s ∧ ctrlBit u.ctrl 2 = true ∧ ctrlBit u.ctrl 3 = true) ∧
      (¬((!run || ended) = true ∧ x = true ∧ prev = false) →
        u.start = t.start ∧ ctrlBit u.ctrl 2 = (run && !ended) ∧ ctrlBit u.ctrl 3 = (q && !ended)) ∧
      ctrlBit u.ctrl 4 = x ∧ u.preset = t.preset ∧ u.ctrl % 4 = t.ctrl % 4)) ∧
  (∀ (s : State) (sq : Sq) (g : Guard) (sp : Space) (p q : Pred) (a : Reg) (disp : BitVec 32) (i : Inst) (ea : Nat),
    instOf s sq = some i → guardOk i g = true → ea = (rW i a + disp.signExtend 64).toNat →
    ∀ (c : Instr) (f : TimerRec → Nat → Bool → TimerRec),
      (c = .ton sq g sp p q a disp ∧ f = tonStep) ∨ (c = .tof sq g sp p q a disp ∧ f = tofStep) ∨
      (c = .tp sq g sp p q a disp ∧ f = tpStep) →
      (ea % 16 = 0 ∧ inSegment s i.task sp ea 16 = true →
        ∀ (bs : List Byte) (u : TimerRec), bs = instBytes s i sp ea 16 →
          u = f ⟨leAt bs 0 8, leAt bs 8 4, leAt bs 12 4⟩ i.stamp (rP i q) →
          exec c s = ran s sq (setP
            (journalBytes i sp ea (leBytes 8 u.start ++ leBytes 4 u.preset ++ leBytes 4 u.ctrl)) p (ctrlBit u.ctrl 3))) ∧
      (¬(ea % 16 = 0 ∧ inSegment s i.task sp ea 16 = true) →
        exec c s = ran s sq (setFlag (setP i p false) .addr)))

/-- R63 and R53: CTU, CTD and EDGE. -/
def Obligations.CounterAndEdgeResults : Prop :=
  ∀ (s : State) (sq : Sq) (g : Guard) (sp : Space) (p q : Pred) (m : EdgeMode) (a : Reg) (disp : BitVec 32) (i : Inst)
    (ea : Nat) (x : Bool),
    instOf s sq = some i → guardOk i g = true → ea = (rW i a + disp.signExtend 64).toNat → x = rP i q →
    (ea % 16 = 0 ∧ inSegment s i.task sp ea 16 = true →
      ∀ (bs : List Byte) (count preset : Int) (ctrl : Nat), bs = instBytes s i sp ea 16 →
        count = signedOf 32 (leAt bs 0 4) → preset = signedOf 32 (leAt bs 4 4) → ctrl = leAt bs 8 4 →
        ∀ (rise : Bool), rise = (x && !ctrlBit ctrl 4) →
        ∀ (c : Instr) (step bound n : Int) (done sat : Bool),
          (c = .ctu sq g sp p q a disp ∧ step = 1 ∧ bound = 2 ^ 31 - 1 ∧ done = decide (n ≥ preset)) ∨
          (c = .ctd sq g sp p q a disp ∧ step = -1 ∧ bound = -(2 ^ 31) ∧ done = decide (n ≤ 0)) →
          (n = if rise then (if count = bound then bound else count + step) else count) →
          (sat = (rise && decide (count = bound))) →
          exec c s = ran s sq (setFlagIf (setP (journalBytes i sp ea
            (leBytes 4 (patternOf 32 n) ++ leBytes 4 (leAt bs 4 4) ++ leBytes 4 (setCtrl ctrl 4 x) ++ bs.drop 12))
            p done) .sat sat)) ∧
    (ea % 8 = 0 ∧ inSegment s i.task sp ea 8 = true →
      ∀ (ctrl : Nat) (prev hit : Bool), ctrl = leAt (instBytes s i sp ea 8) 0 8 → prev = ctrlBit ctrl 4 →
        (m = .rising ∧ hit = (x && !prev) ∨ m = .falling ∧ hit = (!x && prev) ∨ m = .either ∧ hit = (x ^^ prev)) →
        exec (.edge sq g sp m p q a disp) s =
          ran s sq (setP (journalBytes i sp ea (leBytes 8 (setCtrl ctrl 4 x))) p hit)) ∧
    (¬(ea % 16 = 0 ∧ inSegment s i.task sp ea 16 = true) →
      exec (.ctu sq g sp p q a disp) s = ran s sq (setFlag (setP i p false) .addr) ∧
      exec (.ctd sq g sp p q a disp) s = ran s sq (setFlag (setP i p false) .addr)) ∧
    (¬(ea % 8 = 0 ∧ inSegment s i.task sp ea 8 = true) →
      exec (.edge sq g sp m p q a disp) s = ran s sq (setFlag (setP i p false) .addr))

/-- R64 and R53: RATE. -/
def Obligations.RateResult : Prop :=
  ∀ (s : State) (sq : Sq) (g : Guard) (sp : Space) (d b a : Reg) (disp : BitVec 32) (i : Inst) (ea : Nat),
    instOf s sq = some i → guardOk i g = true → ea = (rW i a + disp.signExtend 64).toNat →
    (ea % 16 = 0 ∧ inSegment s i.task sp ea 16 = true →
      ∀ (bs : List Byte) (pstamp : Nat) (pcount v : Int), bs = instBytes s i sp ea 16 → pstamp = leAt bs 0 8 →
        pcount = signedOf 64 (leAt bs 8 8) →
        v = (((rW i b).toInt - pcount) * (10 ^ 9 * 2 ^ 16)).tdiv ((i.stamp : Int) - pstamp) →
        (i.stamp = pstamp → exec (.rate sq g sp d b a disp) s = ran s sq (setW (journalBytes i sp ea bs) d 0)) ∧
        (i.stamp ≠ pstamp →
          ∀ j, j = journalBytes i sp ea (leBytes 8 i.stamp ++ leBytes 8 (rW i b).toNat) →
          (pstamp = 0 → exec (.rate sq g sp d b a disp) s = ran s sq (setW j d 0)) ∧
          (pstamp ≠ 0 → -(2 ^ 63) ≤ v → v ≤ 2 ^ 63 - 1 →
            exec (.rate sq g sp d b a disp) s = ran s sq (setW j d (BitVec.ofInt 64 v))) ∧
          (pstamp ≠ 0 → 2 ^ 63 - 1 < v →
            exec (.rate sq g sp d b a disp) s = ran s sq (setFlag (setW j d (BitVec.ofInt 64 (2 ^ 63 - 1))) .sat)) ∧
          (pstamp ≠ 0 → v < -(2 ^ 63) →
            exec (.rate sq g sp d b a disp) s = ran s sq (setFlag (setW j d (BitVec.ofInt 64 (-(2 ^ 63)))) .sat)))) ∧
    (¬(ea % 16 = 0 ∧ inSegment s i.task sp ea 16 = true) →
      exec (.rate sq g sp d b a disp) s = ran s sq (setFlag (setW i d 0) .addr))

/-- R65 and R53: the engine reads return what the instance's snapshot holds, and a number out of range gives 0 and
ADDR.

R65 and Table 3.13: MBXCP copies n elements of a slot to data memory through the journal, an element beyond the
count as 0 with ADDR; an address fault copies nothing. -/
def Obligations.EngineReadsAndMailboxCopy : Prop :=
  (∀ (s : State) (sq : Sq) (g : Guard) (d a : Reg) (i : Inst) (n : Nat),
    instOf s sq = some i → guardOk i g = true → n = (rW i a).toNat →
    ∀ (c : Instr) (bound : Nat) (v : Word) (st : NvStat), st = (tget s.csa.snap.nvst n).getD ⟨0, 0, false, 0⟩ →
      (c = .vstat sq g d a ∧ bound = 2048 ∧ v = BitVec.ofNat 64 (wordIn s.csa.snap.flds vertexWord n)) ∨
      (c = .lrd sq g .output d a ∧ bound = 1024 ∧ v = BitVec.ofInt 64 (((tget s.csa.snap.loops n).map (·.out)).getD 0)) ∨
      (c = .lrd sq g .process d a ∧ bound = 1024 ∧
        v = BitVec.ofInt 64 (((tget s.csa.snap.loops n).map (·.st.pvlast)).getD 0)) ∨
      (c = .lrd sq g .setpoint d a ∧ bound = 1024 ∧
        v = BitVec.ofInt 64 (((tget s.csa.snap.loops n).map (·.st.splast)).getD 0)) ∨
      (c = .lrd sq g .status d a ∧ bound = 1024 ∧ v = BitVec.ofNat 64 (wordIn s.csa.snap.flds loopWord n)) ∨
      (c = .mbxst sq g .status d a ∧ bound = 16 ∧ v = BitVec.ofNat 64 (mbxWord s n)) ∨
      (c = .mbxst sq g .count d a ∧ bound = 16 ∧
        v = BitVec.ofNat 64 (((tget s.csa.snap.mbx n).map (·.elems.length)).getD 0)) ∨
      (c = .mbxst sq g .tag d a ∧ bound = 16 ∧ v = ((tget s.csa.snap.mbx n).map (·.tag)).getD 0) ∨
      (c = .nvws sq g d a ∧ bound = 256 ∧
        v = BitVec.ofNat 64 (st.cc + st.rsn * 2 ^ 8 + (if st.pend then 2 ^ 16 else 0) + st.count.toNat * 2 ^ 32)) →
      (n < bound → exec c s = ran s sq (setW i d v)) ∧
      (bound ≤ n → exec c s = ran s sq (setFlag (setW i d 0) .addr))) ∧
  (∀ (s : State) (sq : Sq) (g : Guard) (d a b : Reg) (n : BitVec 9) (i : Inst) (ea slot first : Nat),
    instOf s sq = some i → guardOk i g = true → ea = (rW i d).toNat → slot = (rW i a).toNat → first = (rW i b).toNat →
    ∀ (ok : Bool), ok = decide (slot < 16 ∧ ea % 8 = 0 ∧ inSegment s i.task .data ea (8 * n.toNat) = true) →
    (ok = true →
      ∀ els : List Word, els = ((tget s.csa.snap.mbx slot).map (·.elems)).getD [] →
      ∃ j, exec (.mbxcp sq g d a b n) s = ran s sq j ∧
        (∀ k x, k < n.toNat → x < 8 →
          instByte s j .data (ea + 8 * k + x) = ((els[first + k]?).getD 0).extractLsb' (8 * x) 8) ∧
        hasFlag j .addr = (hasFlag i .addr || decide (els.length < first + n.toNat)) ∧ j.w = i.w ∧ j.p = i.p) ∧
    (ok = false → exec (.mbxcp sq g d a b n) s = ran s sq (setFlag i .addr)))

/-- R66 and R53: the loop requests, to a loop the task table assigns to the task, are added in order to the instance's
requests; any other number issues none and sets ADDR. MBXACK takes slots 0 to 15.

R68 and R53: NVWR copies its bytes when it executes and requests the write; a record above 255 or a range outside
the task's segments issues none and sets ADDR.

R67: EVT posts an event with its code, severity and both registers; beyond the eighth it posts nothing, sets EVTLIM
and increments the EVR drop counter of its severity. -/
def Obligations.EngineRequestsAndEvents : Prop :=
  (∀ (s : State) (sq : Sq) (g : Guard) (a b : Reg) (i : Inst) (t : TaskEntry) (n : Nat) (v : BitVec 32),
    instOf s sq = some i → guardOk i g = true → taskOf s i.task = some t → n = (rW i a).toNat → v = (rW i b).setWidth 32 →
    (∀ (c : Instr) (r : EngReq),
      (c = .lsp sq g a b ∧ r = .lsp n v) ∨ (c = .lctlAuto sq g a b ∧ r = .lctl n .auto) ∨
      (c = .lctlManual sq g a b ∧ r = .lctl n (.manual v)) ∨ (c = .lctlTrack sq g a b ∧ r = .lctl n (.track v)) ∨
      (c = .lctlBankSwap sq g a b ∧ r = .lctl n .bankSwap) ∨ (c = .lctlResetI sq g a b ∧ r = .lctl n .resetI) →
      (n < 1024 → n ∈ t.loops → exec c s = ran s sq { i with reqs := i.reqs ++ [r] }) ∧
      (¬(n < 1024 ∧ n ∈ t.loops) → exec c s = ran s sq (setFlag i .addr))) ∧
    (n < 16 → exec (.mbxack sq g a) s = ran s sq { i with reqs := i.reqs ++ [.mbxAck n] }) ∧
    (16 ≤ n → exec (.mbxack sq g a) s = ran s sq (setFlag i .addr))) ∧
  (∀ (s : State) (sq : Sq) (g : Guard) (sp : Space) (a b : Reg) (len : BitVec 8) (i : Inst) (r ea : Nat),
    instOf s sq = some i → guardOk i g = true → r = (rW i a).toNat → ea = (rW i b).toNat →
    (r < 256 → inSegment s i.task sp ea len.toNat = true →
      exec (.nvwr sq g sp a b len) s =
        ran s sq { i with reqs := i.reqs ++ [.nvwr r ((List.range len.toNat).map fun k => instByte s i sp (ea + k))] }) ∧
    (¬(r < 256 ∧ inSegment s i.task sp ea len.toNat = true) →
      exec (.nvwr sq g sp a b len) s = ran s sq (setFlag i .addr))) ∧
  (∀ (s : State) (sq : Sq) (g : Guard) (a b : Reg) (code : BitVec 16) (n : Fin 4) (sev : Sev) (i : Inst),
    instOf s sq = some i → guardOk i g = true → sevCode sev = n.val →
    (i.evts.length < 8 → exec (.evt sq g a b code n) s =
      ran s sq { i with evts := i.evts ++ [⟨code, sev, rW i a, rW i b⟩] }) ∧
    (8 ≤ i.evts.length →
      Completes (exec (.evt sq g a b code n) s) fun t =>
        instOf t sq = some (nextWord (setFlag i .evtlim)) ∧
        (∀ k : Nat, k < 4 → rd t Reg.EVR_LOSTDROP_DROP k =
          if k = n.val then min (rd s Reg.EVR_LOSTDROP_DROP k + 1) (2 ^ Reg.EVR_LOSTDROP_DROP.width - 1)
          else rd s Reg.EVR_LOSTDROP_DROP k)))

/-- R78, R53 and R79: END. Without ADDR the instance commits as one whole: the memories take the journal, the output
image takes its writes, and the task ends DONE with QUAL GOOD; with ADDR it does not commit, both memories and the
output image stay, and the task ends FAIL_REFUSED ADDR_FAULT. Either way TFLAGS is copied (R69) and the sequencer goes
on to its next waiting instance.

R61 and R101: a fetch error stops the instance at once, without a commit: the memories and the output image stay,
the task ends FAIL_TRANSIENT_EXHAUSTED FETCH_ECC (FAIL_RESOURCE_RETIRED where the fault, the second within the fault
window, retires the sequencer) and the sequencer, IN_SERVICE before, is SUSPECT. -/
def Obligations.EndOfInstance : Prop :=
  (∀ (s : State) (sq : Sq) (i : Inst), MemInv s → instOf s sq = some i →
    Completes (exec (.endInst sq) s) fun t =>
      (hasFlag i .addr = false →
        (∀ a, Memory.byte t.csa.dmem a = instByte s i .data a) ∧
        (∀ a, Memory.byte t.csa.rmem a = instByte s i .retained a) ∧
        (∀ pt, tget t.csa.outNext pt = (tget i.outs pt).or (tget s.csa.outNext pt)) ∧
        rd t Reg.CSA_TASKSTS_CC i.task = CC.done ∧ rd t Reg.CSA_TASKSTS_RSN i.task = 0 ∧
        rd t Reg.CSA_TASKSTS_QUAL i.task = qualCode .good) ∧
      (hasFlag i .addr = true →
        t.csa.dmem = s.csa.dmem ∧ t.csa.rmem = s.csa.rmem ∧ t.csa.outNext = s.csa.outNext ∧
        rd t Reg.CSA_TASKSTS_CC i.task = CC.failRefused ∧ rd t Reg.CSA_TASKSTS_RSN i.task = Rsn.addrFault ∧
        i.task ∈ t.csa.failed ∧
        (i.task ∈ s.csa.failed → rd t Reg.CSA_TASKSTS_QUAL i.task = qualCode .stale)) ∧
      rd t Reg.CSA_TASKSTS_TFLAGS i.task = i.tflags.toNat ∧
      (∀ q, q = (s.csa.seqs[sq]).queue →
        (q = [] → instOf t sq = none) ∧
        (∀ n l, q = n :: l → (instOf t sq).map (·.task) = some n ∧ (t.csa.seqs[sq]).queue = l))) ∧
  (∀ (s : State) (sq : Sq) (i : Inst), MemInv s → instOf s sq = some i → (s.csa.seqs[sq]).queue = [] →
    WindowRuns s (sqRes sq) →
    Completes (exec (.fetchEccError sq) s) fun t =>
      t.csa.dmem = s.csa.dmem ∧ t.csa.rmem = s.csa.rmem ∧ t.csa.outNext = s.csa.outNext ∧ instOf t sq = none ∧
      (rd s Reg.CSA_SQSTS_MSTATE sq = mstateCode .inService →
        rd t Reg.CSA_SQSTS_MSTATE sq = mstateCode .suspect ∧ rd t Reg.CSA_SQSTS_FCOUNT sq = 1 ∧
        rd t Reg.CSA_TASKSTS_CC i.task = CC.failTransientExhausted ∧ rd t Reg.CSA_TASKSTS_RSN i.task = Rsn.fetchEcc) ∧
      (rd s Reg.CSA_SQSTS_MSTATE sq = mstateCode .suspect → sqRes sq ∉ s.ssu.retired → (retireList s).length < 128 →
        rd t Reg.CSA_SQSTS_MSTATE sq = mstateCode .retired ∧
        rd t Reg.CSA_TASKSTS_CC i.task = CC.failResourceRetired))

/-- Every KCIS instruction at the front of the queue, END and LOOP among them, keeps the invariant of the control
memories: their canonical form, the journals, the output writes, the task numbers, and nothing written to w0. -/
def Obligations.KcisKeepsMemInv : Prop :=
  ∀ (c : Instr) (rest : List Instr) (s t : State),
    s.pending = c :: rest → MemInv s →
    (∃ q g, seqGuard c = some (q, g)) ∨ (∃ q, c = .endInst q) ∨ (∃ q, c = .fetchEccError q) ∨
      (∃ q d a bound body, c = .loop q d a bound body) →
    step s = .next t → MemInv t

/-- R5, R431, R433: a 32-bit write takes each field of a register by its own access code and by the state before the
write: RW in range and not locked, RWH in HALT alone, W1C cleared by a 1, every other field kept. Nothing else changes,
at a register with no row of its own and no further effect (the configuration record's fields, `configFields`, are
written to the NVS as well). A write that issues a command does what the command's own row does. -/
def Obligations.RegisterWriteTakesFields : Prop :=
  ∀ (s : State) (addr : BitVec 26) (v : BitVec 64) (a x : Nat) (l : List (Field × Nat)),
    a = addr.toNat → l = fieldsAt a → x = v.toNat % 2 ^ 32 → a % 4 = 0 → l ≠ [] → ownWrite a = false →
    windowWrite32 s a (v.setWidth 32) = none → (∀ e ∈ l, configFields.any (·.id = e.1.id) = false) →
    (∀ o, hostCommand s a (v.setWidth 32) = some o → exec (.registerWrite addr false v) s = o) ∧
    (hostCommand s a (v.setWidth 32) = none → Completes (exec (.registerWrite addr false v) s) fun t =>
      OnlyFields s t l ∧ ∀ e ∈ l, rd t e.1 e.2 =
        match e.1.acc with
        | .rw => if inRange e.1 (bitsOf x e.1.lsb e.1.width) && !locked s e.1 e.2 then bitsOf x e.1.lsb e.1.width
            else rd s e.1 e.2
        | .rwh => if modeIs s = .halt && inRange e.1 (bitsOf x e.1.lsb e.1.width) && !locked s e.1 e.2 then
            bitsOf x e.1.lsb e.1.width else rd s e.1 e.2
        | .w1c => if bitsOf x e.1.lsb e.1.width = 1 then 0 else rd s e.1 e.2
        | .ro => rd s e.1 e.2
        | .wo => rd s e.1 e.2
        | .rc => rd s e.1 e.2)

/-- R5, R20: a 32-bit read puts out the register's readable fields, reserved bits and WO fields 0, and returns each RC
field to its reset value; a 64-bit read is two 32-bit reads, the lower address first.

R44, R174 (performance counters) and R369: a read of a low word puts it out and latches the high word of the same
value; a read of `TBC_RTCCNT_LO` latches every calendar register of one second. -/
def Obligations.RegisterReads : Prop :=
  (∀ (s : State) (addr : BitVec 26) (a : Nat), a = addr.toNat → a % 4 = 0 →
    (∀ (l : List (Field × Nat)), l = fieldsAt a → l ≠ [] → ownRead a = false → windowWord s a = none →
      Completes (exec (.readClear addr false) s) fun t =>
        t.out = s.out ++ [.readData (BitVec.ofNat 64
          ((l.map fun e => if e.1.acc = .wo then 0 else rd s e.1 e.2 * 2 ^ e.1.lsb).sum))] ∧
        (∀ e ∈ l, rd t e.1 e.2 = if e.1.acc = .rc then e.1.resetAt e.2 else rd s e.1 e.2) ∧
        FieldsBut s t (l.filter fun e => e.1.acc = .rc) ∧ { t with flds := s.flds, out := s.out } = s) ∧
    (a + 4 < 2 ^ 26 → ∀ (x y : Nat) (t u : State), hostRead s a false = (x, t) → hostRead t (a + 4) false = (y, u) →
      exec (.readClear addr true) s = .next (emit u (.readData (BitVec.ofNat 64 (x + 2 ^ 32 * y))))) ∧
    (a + 4 < 2 ^ 26 → ∀ (v : BitVec 64) (t : State), exec (.registerWrite addr false v) s = .next t →
      exec (.registerWrite addr true v) s = exec (.registerWrite (addr + 4) false (v >>> 32)) t)) ∧
  (∀ (s : State),
    Completes (exec (.timeLoRead false) s) (fun t =>
      t.out = s.out ++ [.readData (BitVec.ofNat 64 (s.tb.now % 2 ^ 32))] ∧
      rd t Reg.TBC_TIME_LO_TIME = s.tb.now % 2 ^ 32 ∧ rd t Reg.TBC_TIME_HI_TIME = s.tb.now / 2 ^ 32 % 2 ^ 32) ∧
    Completes (exec (.timeLoRead true) s) (fun t =>
      t.out = s.out ++ [.readData (BitVec.ofNat 64 (s.tb.tick % 2 ^ 32))] ∧
      rd t Reg.TBC_TICKNO_LO_TICKNO = s.tb.tick % 2 ^ 32 ∧ rd t Reg.TBC_TICKNO_HI_TICKNO = s.tb.tick / 2 ^ 32 % 2 ^ 32) ∧
    Completes (exec (.perfLoRead false) s) (fun t =>
      t.out = s.out ++ [.readData (s.lsv.flop % 2 ^ 32)] ∧
      rd t Reg.LSV_PERF_FLOP_HI_FLOP = s.lsv.flop.toNat / 2 ^ 32) ∧
    Completes (exec (.perfLoRead true) s) (fun t =>
      t.out = s.out ++ [.readData (s.lsv.cyc % 2 ^ 32)] ∧ rd t Reg.LSV_PERF_CYC_HI_CYC = s.lsv.cyc.toNat / 2 ^ 32) ∧
    Completes (exec .rtccntLoRead s) (fun t => t.out = s.out ++ [.readData (BitVec.ofNat 64 (rd t Reg.TBC_RTCCNT_LO_CNT))] ∧
      rd t Reg.TBC_RTCCNT_LO_CNT = s.rtc.secs % 2 ^ 32 ∧
      rd t Reg.TBC_RTCCNT_HI_CNT = s.rtc.secs / 2 ^ 32 % 2 ^ Reg.TBC_RTCCNT_HI_CNT.width))

/-- R20, R287: an access of wrong size or alignment counts once in `HMX_HERR.ACC`, and so does each 32-bit half at an
undefined address; a read puts out 0, a write is ignored. A half that meets a defined offset is an access of its own: the
read is a READ_CLEAR, and the write a REGISTER_WRITE of data that the row does not carry (a free value, log entry 70).

R18 and the rules of the other command registers: an undefined command code ends FAIL_REFUSED with BAD_COMMAND, or
while a command is pending with MODE_BUSY (mode commands) or BUSY, and changes nothing else. Where the spec does not say
which of the two reasons goes first, the model's choice is log entry 40. -/
def Obligations.RefusedRegisterAccesses : Prop :=
  (∀ (s : State) (addr : BitVec 26) (bytes : Nat) (write : Bool), let a := addr.toNat
    let counts := fun (n : Nat) => Completes (exec (.reservedAccess addr bytes write) s) fun t =>
      rd t Reg.HMX_HERR_ACC = min (rd s Reg.HMX_HERR_ACC + n) (2 ^ Reg.HMX_HERR_ACC.width - 1) ∧
      FieldsBut s t [(Reg.HMX_HERR_ACC, 0)] ∧ { t with flds := s.flds, out := s.out } = s ∧
      t.out = if write then s.out else s.out ++ [.readData 0]
    (a % 4 ≠ 0 ∨ (bytes ≠ 4 ∧ bytes ≠ 8) → counts 1) ∧
    (a % 4 = 0 → bytes = 4 → undefinedAt s a = true → counts 1) ∧
    (a % 4 = 0 → bytes = 8 → undefinedAt s a = true → undefinedAt s (a + 4) = true → counts 2) ∧
    (a % 4 = 0 → (bytes = 4 ∨ bytes = 8) →
      (write = false → exec (.reservedAccess addr bytes write) s = exec (.readClear addr (bytes = 8)) s) ∧
      (write = true → (undefinedAt s a = false ∨ bytes = 8 ∧ undefinedAt s (a + 4) = false) →
        ∃ v, exec (.reservedAccess addr bytes write) s =
          exec (.registerWrite addr (bytes = 8) v) { s with free := s.free + 1 }))) ∧
  (∀ (s : State) (r : CmdReg) (code : Nat) (cc rsn : Field) (pend : Option Field) (i : Nat),
    Instr.wf (.badCommand r code) = true → cmdStatus r = (cc, rsn, pend, i) →
    Completes (exec (.badCommand r code) s) fun t =>
      rd t cc i = CC.failRefused ∧
      rd t rsn i = (if (pend.map fun p => rdB s p i) = some true then (if r = .modeCmd then Rsn.modeBusy else Rsn.busy)
        else Rsn.badCommand) ∧
      OnlyFields s t [(cc, i), (rsn, i)])

/-- R383, R388, R419, R286, R384 (Tables 18.3, 18.5): each reset records its cause and leaves the device in RECALL with the
straps sampled and the units empty; a WDT or HST reset outside RECALL and TEST saves first (R385), and without that the
store, the event log, the OTP, the calendar and every field that no reset clears are kept but for the record of the
cause. Where a level of RST_N between 9.96 and 10 µs falls in the phase of SYSCLK is an operand (log entry 41).

R377, R419, R383: a low level of RST_N shorter than the filter takes, and a write of `SSU_HSTRST` without GO or with
another key, cause no reset. -/
def Obligations.ResetsLeaveRecall : Prop :=
  (∀ (s : State) (straps : Straps) (c : Instr) (kind rail wd : Nat) (saves : Bool)
    (r : Fin 6) (low since : Nat) (ph : Bool) (v : BitVec 32),
    (c = .por straps ∧ kind = 0 ∧ rail = 0 ∧ wd = 0 ∨
     c = .bor r straps ∧ rail = r.val ∧ kind = 1 ∧ wd = 0 ∨
     c = .pinReset low ph straps ∧ (10000 ≤ low ∨ 9960 ≤ low ∧ ph = true) ∧ kind = 2 ∧ rail = 0 ∧ wd = 0 ∨
     c = .wdtReset straps ∧ kind = 3 ∧ rail = 0 ∧ wd = 0 ∨
     c = .hostWatchdogExpiry straps ∧ rdB s Reg.SSU_WDTCFG_HOSTEN = true ∧ rdB s Reg.SSU_WDTCFG_ACT = true ∧
       s.ssu.wdtFrom = some since ∧ since + max 1 (rd s Reg.SSU_WDTCFG_HOSTTO) * 10 ^ 9 ≤ s.tb.now ∧
       kind = 3 ∧ rail = 0 ∧ wd = 1 ∨
     c = .hstReset v straps ∧ v.toNat % 2 = 1 ∧ v.toNat / 2 ^ 16 = 0x4810 ∧ kind = 4 ∧ rail = 0 ∧ wd = 0 ∨
     c = .functionLevelReset straps ∧ kind = 4 ∧ rail = 0 ∧ wd = 0) →
    saves = (decide (3 ≤ kind) && decide (modeIs s ≠ .recall) && decide (modeIs s ≠ .test)) →
    Completes (exec c s) fun t =>
      modeIs t = .recall ∧ rdB t Reg.NVS_STATUS_RECALL = true ∧
      rd t Reg.SSU_RSTCAUSE_KIND = kind ∧ rd t Reg.SSU_RSTCAUSE_RAIL = rail ∧ rd t Reg.SSU_RSTCAUSE_WDSRC = wd ∧
      rdB t Reg.SSU_RSTCAUSE_INSAVE = decide (modeIs s = .save) ∧ rdB t Reg.SSU_RSTCAUSE_RSTSAVE = saves ∧
      rdB t Reg.SSU_RSTCAUSE_SAVEDONE = (decide (modeIs s = .save) && s.ssu.saveDone) ∧
      t.ssu.straps = straps ∧ t.csa = State.reset.csa ∧ t.lsv = State.reset.lsv ∧ t.mte = State.reset.mte ∧
      t.fct = State.reset.fct ∧ t.fbc = State.reset.fbc ∧ t.npc = State.reset.npc ∧ t.rdu = State.reset.rdu ∧
      t.nvs.queue = [] ∧ t.pending = s.pending ∧
      (saves = false →
        t.nvs.recs = s.nvs.recs ∧ t.nvs.images = s.nvs.images ∧ t.evr.log = s.evr.log ∧ t.ssu.otp = s.ssu.otp ∧
        t.rtc.secs = s.rtc.secs ∧
        ∀ f ∈ Reg.table, f.keep = true → (f.id < Reg.SSU_RSTCAUSE_KIND.id ∨ Reg.SSU_RSTCAUSE_RESUMED.id ≤ f.id) →
          ∀ i < f.count, rd t f i = rd s f i)) ∧
  (∀ (s : State) (straps : Straps) (low : Nat) (ph : Bool) (v : BitVec 32),
    (low < 9960 ∨ (low < 10000 ∧ ph = false) → exec (.pinReset low ph straps) s = .next s) ∧
    (v.toNat % 2 = 0 ∨ v.toNat / 2 ^ 16 ≠ 0x4810 → exec (.hstReset v straps) s = .next s))

/-- R386, R341 and Table 1.4: the machine right after reset is in RECALL with recall running, no command pending, the
fields at the values the spec gives for reset, empty memories in canonical form and no instance running. -/
def Obligations.ResetState : Prop :=
  modeIs State.reset = .recall ∧ rdB State.reset Reg.NVS_STATUS_RECALL = true ∧ State.reset.pending = [] ∧
  rd State.reset Reg.TBC_TICKCFG_TICKLEN = 10 ∧ rd State.reset Reg.TBC_TICKCFG_AGREE = 20 ∧
  rd State.reset Reg.SSU_TEMP_MAX = 0x800 ∧ rd State.reset Reg.RDU_CLAIM_OWN = 0 ∧
  (∀ sq : Sq, instOf State.reset sq = none) ∧ MemInv State.reset

/-- R341, R354, R308 (Table 1.4): NVS_RECALL_COMPLETE ends the recall that runs. With a store that holds nothing, nothing
staged or queued, no BIST wanted, a tile in service and no partner heard, RECALL reads 0 with the time it took, the claim reads 0, every spare page is
there, PCC counts 1 after a POR or BOR, OPSEC resumes after the newest record of the log, and the power-cycle record is
requested. Outside recall the command does nothing.

R404, R414: the key check of RECALL shows the root slots and locks the test access port when one is usable; a locked
port that does not hold IDCODE selects BYPASS. R386 and Table 1.4: RECALL_END, once recall and the key check are
complete, leaves RECALL for HALT, or for TEST with the BIST-request flag set while BIST is wanted. -/
def Obligations.RecallAndItsEnd : Prop :=
  (∀ (s : State) (us : BitVec 12),
    ((modeIs s = .recall ∧ rdB s Reg.NVS_STATUS_RECALL = true) →
      s.nvs.recs = [] → s.nvs.queue = [] → s.evr.staging = [] → bistWanted s = false → s.ssu.bistReq = false →
      s.ssu.bistDone = false → 0 < tilesUp s → s.rdu.hello = none →
      Completes (exec (.nvsRecallComplete us) s) fun t =>
        modeIs t = .recall ∧ t.ssu.recalled = true ∧ rdB t Reg.NVS_STATUS_RECALL = false ∧
        rd t Reg.NVS_STATUS_RECUS = us.toNat ∧ rd t Reg.RDU_CLAIM_OWN = 0 ∧ rd t Reg.NVS_STATUS_SPARES = sparePages ∧
        rd t Reg.EVR_PCC_PCC = (if rd s Reg.SSU_RSTCAUSE_KIND ≤ 1 then 1 else 0) ∧
        rd t Reg.EVR_OPSEC_OPSEC =
          ((match newestRecord s.evr.log with | some (_, sl) => sl.record.opsec.toNat | none => 0) + 1) % 2 ^ 32 ∧
        t.nvs.queue = [⟨3, .record 4 (.power (BitVec.ofNat 24 (rd t Reg.EVR_PCC_PCC)) false), .power⟩]) ∧
    ((modeIs s ≠ .recall ∨ rdB s Reg.NVS_STATUS_RECALL = false) → exec (.nvsRecallComplete us) s = .next s)) ∧
  (∀ (s : State), modeIs s = .recall →
    ((s.ssu.recalled = false ∨ bistWanted s = false) →
      Completes (exec .keyCheckComplete s) fun t =>
        t.ssu.keyed = true ∧ rdB t Reg.SSU_SECSTS_JTAGLOCK = decide (0 < rd t Reg.SSU_SECSTS_USABLE) ∧
        rd t Reg.SSU_SECSTS_USABLE = rootMask s rootUsable % 2 ^ Reg.SSU_SECSTS_USABLE.width ∧
        rd t Reg.SSU_SECSTS_BOOTSRC = s.ssu.straps.bootSrc.val ∧
        t.ssu.tap = (if (s.ssu.otp.jtagOff = true ∨ 0 < rd t Reg.SSU_SECSTS_USABLE) ∧ s.ssu.tap ≠ .idcode then .bypass
          else s.ssu.tap) ∧ modeIs t = .recall) ∧
    (s.ssu.recalled = true → s.ssu.keyed = true →
      (bistWanted s = false → Completes (exec .recallEnd s) fun t =>
        modeIs t = .halt ∧ t.ssu.causes = [] ∧
        t.evr.anchorAt = some (rd t Reg.EVR_OPSEC_OPSEC + 1)) ∧
      (bistWanted s = true → Completes (exec .recallEnd s) fun t =>
        modeIs t = .test ∧ t.ssu.bistReq = true ∧ t.ssu.nextWave = 0 ∧ t.ssu.wave = none)) ∧
    ((s.ssu.recalled = false ∨ s.ssu.keyed = false) → exec .recallEnd s = .next s))

/-- R18, Table 1.4: a mode command whose mode has a row waits for its edge with PEND 1 (RUN when nothing refuses the start
and the partner's mode is known, R311, R398). An ACTIVE unit with a STANDBY partner yields for it, unless it yields at
that edge or an earlier one already (R315).

R18: a mode command while one is pending ends FAIL_REFUSED with MODE_BUSY, and one in a mode without a row for it
with BAD_MODE; nothing else changes. -/
def Obligations.ModeCommands : Prop :=
  (∀ (s : State) (c : Instr) (m : ModeCmd),
    rdB s Reg.SSU_MODE_PEND = false →
    (c = .run ∧ m = .run ∧ modeIs s = .halt ∧ startCheck s = none ∧ (startTarget s).isSome = true ∨
     c = .stop ∧ m = .stop ∧ (modeIs s = .active ∨ modeIs s = .standby ∨ modeIs s = .resync) ∨
     c = .hold ∧ m = .hold ∧ (modeIs s = .active ∨ modeIs s = .standby) ∨
     c = .release ∧ m = .release ∧ modeIs s = .safehold ∨ c = .test ∧ m = .test ∧ modeIs s = .halt) →
    Completes (exec c s) fun t =>
      rd t Reg.SSU_MODE_PEND = 1 ∧ FieldsBut s t [(Reg.SSU_MODE_PEND, 0)] ∧ t.ssu.cmd = some m ∧
      t.ssu.cmdEdges = (if m = .stop ∧ modeIs s = .active ∧ rd s Reg.RDU_STATUS_PAIRST = 2 then 2 else 1) ∧
      ∀ e row, (m = .stop ∧ e = s.tb.tick + 2 ∧ row = 3 ∨ m = .hold ∧ e = s.tb.tick + 1 ∧ row = 4) →
        t.rdu.yieldEdge = (if modeIs s = .active ∧ rd s Reg.RDU_STATUS_PAIRST = 2 ∧
          (∀ y, s.rdu.yieldEdge = some y → e < y.1) then some (e, row) else s.rdu.yieldEdge)) ∧
  (∀ (s : State) (c : Instr) (m : ModeCmd),
    (c = .run ∧ m = .run ∨ c = .stop ∧ m = .stop ∨ c = .hold ∧ m = .hold ∨ c = .release ∧ m = .release ∨
      c = .test ∧ m = .test) →
    (rdB s Reg.SSU_MODE_PEND = true ∨
      (m = .run ∨ m = .test) ∧ modeIs s ≠ .halt ∨
      m = .stop ∧ modeIs s ≠ .active ∧ modeIs s ≠ .standby ∧ modeIs s ≠ .resync ∨
      m = .hold ∧ modeIs s ≠ .active ∧ modeIs s ≠ .standby ∨ m = .release ∧ modeIs s ≠ .safehold) →
    Completes (exec c s) fun t =>
      rd t Reg.SSU_MODE_LASTCC = CC.failRefused ∧
      rd t Reg.SSU_MODE_LASTRSN = (if rdB s Reg.SSU_MODE_PEND then Rsn.modeBusy else Rsn.badMode) ∧
      OnlyFields s t [(Reg.SSU_MODE_LASTCC, 0), (Reg.SSU_MODE_LASTRSN, 0)])

/-- R15, R378 (Table 1.4): POWER_WARNING shows the warning, asserts WARN_N and is recorded with the mode; in RECALL it
causes nothing else, and one that meets a warning in force does nothing.

R378, R379, R380: with the warning over, WARN_N is released outside SAVE and in a SAVE whose sequence is complete,
which requests the power-cycle record with RESUMED 1; an incomplete SAVE waits. SAVE_SEQUENCE_COMPLETE marks the
sequence complete with its duration once, and the SAVE goes on while the warning is in force. -/
def Obligations.PowerWarningAndSave : Prop :=
  (∀ (s : State),
    (rdB s Reg.SSU_SUPPLY_WARN = true → exec .powerWarning s = .next s) ∧
    (rdB s Reg.SSU_SUPPLY_WARN = false → modeIs s = .recall →
      Completes (exec .powerWarning s) fun t =>
        rd t Reg.SSU_SUPPLY_WARN = 1 ∧ rd t Reg.SSU_SUPPLY_WARNSEEN = 1 ∧ t.ssu.warnN = false ∧ modeIs t = .recall ∧
        t = event { wr (wr s Reg.SSU_SUPPLY_WARN 1) Reg.SSU_SUPPLY_WARNSEEN 1 with ssu := { s.ssu with warnN := false } }
          Ev.powerWarning .notice [0])) ∧
  (∀ (s : State),
    (rdB s Reg.SSU_SUPPLY_WARN = true →
      (modeIs s ≠ .save →
        exec .warningCleared s = .next { wr s Reg.SSU_SUPPLY_WARN 0 with ssu := { s.ssu with warnN := true } }) ∧
      (modeIs s = .save → s.ssu.saveDone = false → exec .warningCleared s = .next (wr s Reg.SSU_SUPPLY_WARN 0)) ∧
      (modeIs s = .save → s.ssu.saveDone = true → s.nvs.queue = [] →
        Completes (exec .warningCleared s) fun t =>
          rd t Reg.SSU_SUPPLY_WARN = 0 ∧ t.ssu.warnN = true ∧ modeIs t = .save ∧
          t.nvs.queue = [⟨3, .record 4 (.power (BitVec.ofNat 24 (rd s Reg.EVR_PCC_PCC)) true), .power⟩]) ∧
      ∀ us : BitVec 16, modeIs s = .save → s.ssu.saveDone = false → s.nvs.queue = [] → s.nvs.susp = [] →
        s.nvs.cur = none →
        exec (.saveSequenceComplete us) s =
          .next { wr s Reg.SSU_SAVESTS_LASTUS us.toNat with ssu := { s.ssu with saveDone := true } }) ∧
    (rdB s Reg.SSU_SUPPLY_WARN = false → exec .warningCleared s = .next s) ∧
    ∀ us : BitVec 16, modeIs s ≠ .save ∨ s.ssu.saveDone = true → exec (.saveSequenceComplete us) s = .next s)

/-- R302, R305, R41, R31, R313 (Table 2.1): the phases of a tick. At phase 1 a single unit closes the list of the tick
before as the set of the next edge; at phase 2 the commit deadline meets no instance and nothing is armed; at phase 3
only a STANDBY unit emits, outputs and exports. Each phase of a tick happens once.

R28 (R17): TICK_EDGE, in a unit in RECALL with nothing running, armed, waiting or agreed: the tick counts up by one, its
instant is TICKNO × T, its phases are still to come, and the mode stays.

R30, R40, R431, R433: TICKCFG_WRITE. In HALT both values are taken when both lie in their ranges, and a new TICKLEN
gives the tick count of the new length; any other write changes neither and sets BADCFG, and outside HALT only bit 16
acts, which clears BADCFG.

R43: TICK_FAULT shows TICKFAULT 1 and QUAL BAD, is recorded, and is a standing cause of SAFEHOLD. -/
def Obligations.TickPhasesAndEdge : Prop :=
  (∀ (s : State), let T := tickNs s; let k := s.tb.tick
    let at_ := fun (pct : Nat) => max s.tb.now (min (k * T + pct * T / 100) ((k + 1) * T - 1))
    (s.tb.ph1 = false → linked s = false →
      (modeIs s = .halt ∨ modeIs s = .active ∨ modeIs s = .safehold) → (∀ e ∈ s.rdu.own, k ≤ e.1) → s.rdu.partner = [] →
      Completes (exec .phase1 s) fun t =>
        t.tb = { s.tb with ph1 := true, now := at_ (rd s Reg.TBC_TICKCFG_AGREE) } ∧
        t.rdu.agreed = s.rdu.agreed ++ [⟨k + 1, []⟩] ∧ t.rdu.built = k ∧ t.rdu.own = s.rdu.own) ∧
    (s.tb.ph2 = false → (∀ sq, instOf s sq = none) → s.csa.armed = none → s.fct.armed = none →
      (modeIs s = .halt ∨ modeIs s = .safehold) →
      s.lpe.results = [] →
      exec .phase2 s = .next { s with tb := { s.tb with ph2 := true, now := at_ 90 }, lpe := { s.lpe with run := none } }) ∧
    (s.tb.ph3 = false → modeIs s ≠ .standby → modeIs s ≠ .save →
      exec .phase3 s = .next { s with tb := { s.tb with ph3 := true, now := at_ 25 } }) ∧
    (s.tb.ph3 = false → modeIs s = .standby → exec .phase3 s =
      .next (emitExports (emitPhase { s with tb := { s.tb with ph3 := true, now := at_ 25 } }))) ∧
    (s.tb.ph1 = true → exec .phase1 s = .next s) ∧ (s.tb.ph2 = true → exec .phase2 s = .next s) ∧
    (s.tb.ph3 = true → exec .phase3 s = .next s)) ∧
  (∀ (s : State), modeIs s = .recall → (∀ sq, instOf s sq = none) → s.csa.armed = none → s.fct.armed = none →
    s.csa.outNext = [] → s.rdu.own = [] → s.rdu.partner = [] → s.rdu.agreed = [] → s.ssu.holdUntil = none → s.lpe.lcmd = none →
    s.lsv.mbx = [] → s.npc.ctxs = [] → s.csc.reparent = false → rdB s Reg.CSC_CFG_EN = false →
    setElems s Reg.LPE_LSTS_PENDSWAP = [] →
    Completes (exec .tickEdge s) fun t =>
      t.tb.tick = s.tb.tick + 1 ∧ t.tb.ph1 = false ∧ t.tb.ph2 = false ∧ t.tb.ph3 = false ∧ modeIs t = .recall ∧
      (s.tb.now ≤ (s.tb.tick + 1) * tickNs s → rd s Reg.TBC_TICKCFG_AGREE ≤ 100 →
        t.tb.now = (s.tb.tick + 1) * tickNs s)) ∧
  (∀ (s : State) (v : BitVec 32) (len ag : Nat), len = v.toNat % 256 → ag = v.toNat / 256 % 256 →
    (modeIs s = .halt → 5 ≤ len → len ≤ 200 → 10 ≤ ag → ag ≤ 50 →
      Completes (exec (.tickcfgWrite v) s) fun t =>
        rd t Reg.TBC_TICKCFG_TICKLEN = len ∧ rd t Reg.TBC_TICKCFG_AGREE = ag ∧
        rd t Reg.TBC_TICKCFG_BADCFG = (if v.toNat / 2 ^ 16 % 2 = 1 then 0 else rd s Reg.TBC_TICKCFG_BADCFG) ∧
        t.tb.now = s.tb.now ∧
        (len = rd s Reg.TBC_TICKCFG_TICKLEN → s.tb.tick = s.tb.now / tickNs s → t.tb.tick = s.tb.tick) ∧
        (len ≠ rd s Reg.TBC_TICKCFG_TICKLEN → t.tb.tick = s.tb.now / (len * 10000))) ∧
    (modeIs s = .halt → (len < 5 ∨ 200 < len ∨ ag < 10 ∨ 50 < ag) →
      Completes (exec (.tickcfgWrite v) s) fun t =>
        rd t Reg.TBC_TICKCFG_BADCFG = 1 ∧ OnlyFields s t [(Reg.TBC_TICKCFG_BADCFG, 0)]) ∧
    (modeIs s ≠ .halt →
      exec (.tickcfgWrite v) s =
        .next (if v.toNat / 2 ^ 16 % 2 = 1 then wr s Reg.TBC_TICKCFG_BADCFG 0 else s))) ∧
  (∀ (s : State), Completes (exec .tickFault s) fun t =>
    rd t Reg.TBC_STATUS_TICKFAULT = 1 ∧ rd t Reg.TBC_STATUS_QUAL = qualCode .bad ∧ faultPresent t .timebase = true ∧
    modeIs t = modeIs s ∧ t.csa = s.csa)

/-- R17, R18, R14 (Table 1.4): the transition of an edge. A fault of a class that holds takes an ACTIVE or STANDBY
unit to SAFEHOLD (rank 3) and drops a waiting command FAIL_REFUSED MODE_BUSY; with no cause of a higher rank a waiting
STOP or RELEASE ends in HALT and a HOLD in SAFEHOLD, DONE. -/
def Obligations.EdgeTransitions : Prop :=
  ∀ (s : State) (k : Nat), s.ssu.holdUntil = none → s.ssu.cmdEdges ≤ 1 →
    (modeIs s = .active ∨ modeIs s = .standby ∨ modeIs s = .safehold ∨ modeIs s = .resync) →
    ((modeIs s = .active ∨ modeIs s = .standby) →
      ∀ cls, faultPresent s cls = true → holds s cls = true →
      ∀ t, t = modeEdge s k → modeIs t = .safehold ∧ t.ssu.cmd = none ∧ t.rdu.swapEdge = none ∧
        (s.ssu.cmd.isSome = true → rd t Reg.SSU_MODE_LASTCC = CC.failRefused ∧
          rd t Reg.SSU_MODE_LASTRSN = Rsn.modeBusy ∧ rd t Reg.SSU_MODE_PEND = 0)) ∧
    (s.ssu.causes = [] → faultHolds s = false → s.rdu.swapEdge = none → s.rdu.takeAt = none →
      ∀ (c : ModeCmd) (t : State), s.ssu.cmd = some c → t = modeEdge s k →
        (c = .stop ∧ modeIs s ≠ .safehold ∨ c = .release ∧ modeIs s = .safehold → modeIs t = .halt) ∧
        (c = .hold ∧ (modeIs s = .active ∨ modeIs s = .standby) → modeIs t = .safehold) ∧
        ((c = .stop ∧ modeIs s ≠ .safehold ∨ c = .release ∧ modeIs s = .safehold ∨
            c = .hold ∧ (modeIs s = .active ∨ modeIs s = .standby)) →
          t.ssu.cmd = none ∧ rd t Reg.SSU_MODE_LASTCC = CC.done ∧ rd t Reg.SSU_MODE_LASTRSN = 0 ∧
          rd t Reg.SSU_MODE_PEND = 0))

/-- R87, R89, R90, R96, R100, R434: the program commands with no command pending. LOAD starts a fetch into the inactive half;
a fetch that ends carries the image through its checks or ends the LOAD; ARM and ABORT are inputs to the tick; ACTIVATE
of a loaded program on a unit with no force ends DONE or DONE_DEGRADED, the halves having changed places.

R84, R85: the force commands with none pending. In HALT they take effect at once: a VID that the running program does
not name ends FAIL_REFUSED NO_VID, a new force joins the table of 512, one in place takes the value, a release removes
it; in ACTIVE, STANDBY and SAFEHOLD they are inputs to the tick. -/
def Obligations.ProgramAndForceCommands : Prop :=
  (∀ (s : State) (fr : Bool),
    (rdB s Reg.CSA_OLC_PEND = false → (modeIs s = .halt ∨ modeIs s = .active ∨ modeIs s = .standby) →
      Completes (exec (.load fr) s) fun t =>
        rd t Reg.CSA_OLC_PEND = 1 ∧ rd t Reg.CSA_OLC_STATE = 1 ∧ rdB t Reg.CSA_OLC_FORCE_RELEASE = fr ∧
        t.csa.loading = some [] ∧ loaded t = none ∧ t.csa.dmem = s.csa.dmem ∧ t.csa.seqs = s.csa.seqs) ∧
    (s.csa.loading = some [] →
      (Completes (exec (.loadFetchComplete .hostAbort) s) fun t =>
        t.csa.loading = none ∧ rd t Reg.CSA_OLC_STATE = 0 ∧ rd t Reg.CSA_OLC_PEND = 0 ∧
        rd t Reg.CSA_OLC_CC = CC.failPeerUnreachable ∧ rd t Reg.CSA_OLC_RSN = Rsn.hostAbort) ∧
      ∀ (c : List Byte), recalling s = false → s.nvs.queue = [] →
        Completes (exec (.loadFetchComplete (.bytes c)) s) fun t =>
          match verifyImage s.ssu.otp false c with
          | some r => t.csa.loading = none ∧ rd t Reg.CSA_OLC_STATE = 0 ∧ rd t Reg.CSA_OLC_PEND = 0 ∧
              rd t Reg.CSA_OLC_CC = CC.failAuth ∧ rd t Reg.CSA_OLC_RSN = r % 256
          | none => match checkProgram (parseProgram c) s.fct.active (ownMember s).val (tickNs s)
              (changeBase s (parseProgram c)) with
            | some r => t.csa.loading = none ∧ rd t Reg.CSA_OLC_STATE = 0 ∧ rd t Reg.CSA_OLC_PEND = 0 ∧
                rd t Reg.CSA_OLC_CC = CC.failRefused ∧ rd t Reg.CSA_OLC_RSN = r.rsn % 256
            | none => (writeRange s (.image false (!liveProgSlot s) c)).fits = true → t.csa.loading = some c ∧ loaded t = some (parseProgram c) ∧
                t.nvs.queue = [⟨5, .image false (!liveProgSlot s) c, .load⟩]) ∧
    (∀ (k ks : Nat), k = tickOf s s.tb.now → ks = rd64 s Reg.CSA_OLCTICK_LO_KS Reg.CSA_OLCTICK_HI_KS →
      (rdB s Reg.CSA_OLC_PEND = false → (modeIs s = .active ∨ modeIs s = .standby) → rd s Reg.CSA_OLC_STATE = 2 →
        Completes (exec (.arm fr) s) fun t =>
          rd t Reg.CSA_OLC_PEND = 1 ∧
          t.rdu.own = listPut s.rdu.own k ⟨s.tb.now, ⟨64, Reg.CSA_OLC_CMD.addr⟩, ownSide s, .arm ks fr⟩) ∧
      ((rdB s Reg.CSA_OLC_PEND = false ∨ armPending s = true) →
        Completes (exec (.olcAbort fr) s) fun t =>
          rd t Reg.CSA_OLC_PEND = 1 ∧
          t.rdu.own = listPut s.rdu.own k ⟨s.tb.now, ⟨64, Reg.CSA_OLC_CMD.addr⟩, ownSide s, .olcAbort s.tb.tick⟩)) ∧
    (∀ p, rdB s Reg.CSA_OLC_PEND = false → modeIs s = .halt → rd s Reg.CSA_OLC_STATE = 2 → loaded s = some p →
      ((facetAt s (s.tb.tick + 1)).bind fun f => firstOf [checkWiring f p, checkMeterPoints f p]) = none → s.csa.forces = [] →
      Completes (exec (.activate fr) s) fun t =>
        (rd t Reg.CSA_OLC_CC = CC.done ∨ rd t Reg.CSA_OLC_CC = CC.doneDegraded) ∧ rd t Reg.CSA_OLC_RSN = 0 ∧
        rd t Reg.CSA_OLC_PEND = 0)) ∧
  (∀ (s : State) (vid : Nat) (v : Word), rdB s Reg.CSA_FRCSTS_PEND = false → vid = rd s Reg.CSA_FRCVID_VID →
    v = BitVec.ofNat 64 (rd s Reg.CSA_FRCVAL_LO_VAL + 2 ^ 32 * rd s Reg.CSA_FRCVAL_HI_VAL) →
    (modeIs s = .halt →
      (pointOfVid s vid = none → ∀ c, (c = .forceSet ∨ c = .forceRelease) →
        Completes (exec c s) fun t => rd t Reg.CSA_FRCSTS_CC = CC.failRefused ∧ rd t Reg.CSA_FRCSTS_RSN = Rsn.noVid ∧
          rd t Reg.CSA_FRCSTS_PEND = 0 ∧ t.csa.forces = s.csa.forces) ∧
      (∀ d, pointOfVid s vid = some d →
        (s.csa.forces.find? (·.vid = vid) = none → s.csa.forces.length < 512 →
          Completes (exec .forceSet s) fun t => rd t Reg.CSA_FRCSTS_CC = CC.done ∧ rd t Reg.CSA_FRCSTS_PEND = 0 ∧
            t.csa.forces = s.csa.forces ++ [⟨vid, d.typ, d.num, v, ((tget s.csa.img d.num).map (·.value)).getD 0⟩]) ∧
        (∀ f, s.csa.forces.find? (·.vid = vid) = some f →
          Completes (exec .forceSet s) fun t => rd t Reg.CSA_FRCSTS_CC = CC.done ∧ rd t Reg.CSA_FRCSTS_PEND = 0 ∧
            t.csa.forces = s.csa.forces.map fun g => if g.vid = vid then { f with value := v } else g) ∧
        Completes (exec .forceRelease s) fun t => rd t Reg.CSA_FRCSTS_CC = CC.done ∧ rd t Reg.CSA_FRCSTS_PEND = 0 ∧
          t.csa.forces = s.csa.forces.filter (·.vid ≠ vid)) ∧
      Completes (exec .forceReleaseAll s) fun t => rd t Reg.CSA_FRCSTS_CC = CC.done ∧ rd t Reg.CSA_FRCSTS_PEND = 0 ∧
        t.csa.forces = []) ∧
    ((modeIs s = .active ∨ modeIs s = .standby ∨ modeIs s = .safehold) →
      ∀ (c : Instr) (b : InBody), (c = .forceSet ∧ b = .forceSet vid v ∨ c = .forceRelease ∧ b = .forceRelease vid ∨
          c = .forceReleaseAll ∧ b = .forceReleaseAll) →
        Completes (exec c s) fun t => rd t Reg.CSA_FRCSTS_PEND = 1 ∧ t.csa.forces = s.csa.forces ∧
          t.rdu.own = listPut s.rdu.own (tickOf s s.tb.now) ⟨s.tb.now, ⟨64, Reg.CSA_FRCCMD_CMD.addr⟩, ownSide s, b⟩))

/-- R118, R119, R124: the Loop Engine's own events. A run that completes commits each sample: state record, status word and
output point of its loop. A coefficient word goes to the inactive bank of a loop without a pending swap, else WRBLK is
set. A lane error makes an in-service lane SUSPECT; a loop whose recomputation failed too skips its sample. With no run under way LPE_RUN_COMPLETE does nothing.

R122, R125: the host loop commands with none pending. In ACTIVE and STANDBY they are inputs to the tick. In HALT a CLEAR
clears the sticky flags it names at once, and in a single unit a swap whose CRC matches the inactive banks pends on
every loop it targets, one whose CRC does not ends FAIL_REFUSED BANK_CHECK and one without a loop NO_LOOP. -/
def Obligations.LoopEngine : Prop :=
  (∀ (s : State),
    (runsControl s = true → s.lpe.run.isSome = true →
      Completes (exec .lpeRunComplete s) (fun t => t.lpe.results = [] ∧ t.lpe.bankA = s.lpe.bankA) ∧
      ∀ (r : LoopRes) (w : Wire), s.lpe.results = [r] → r.loop < 1024 → (wires s).find? (·.1 = r.loop) = some (r.loop, w) →
        Completes (exec .lpeRunComplete s) fun t =>
          t.lpe.results = [] ∧ tget t.lpe.runs r.loop = some r.run ∧
          rd t Reg.LPE_LSTS_QUAL r.loop = qualCode (loopQual t r.loop w) ∧
          (lanesUp s ≠ 0 → modeIs s ≠ .save → loopQual t r.loop w = r.run.outQ) ∧ rd t Reg.LPE_LSTS_MODE r.loop = lmodeCode r.mode ∧
          rdB t Reg.LPE_LSTS_SATHI r.loop = r.cur.getLsbD 0 ∧ rdB t Reg.LPE_LSTS_SATLO r.loop = r.cur.getLsbD 1 ∧
          tget t.csa.outNext w.outPt = some (BitVec.ofInt 64 r.run.out, r.run.outQ) ∧
          ∀ p, p ≠ w.outPt → tget t.csa.outNext p = tget s.csa.outNext p) ∧
    (s.lpe.run = none → exec .lpeRunComplete s = .next s) ∧
    (∀ (bank : Bool) (loop : Fin 1024) (word : Fin 24) (v : BitVec 32),
      (bank ≠ rdB s Reg.LPE_LSTS_BANK loop.val → rdB s Reg.LPE_LSTS_PENDSWAP loop.val = false →
        Completes (exec (.coefWrite bank loop word v) s) fun t =>
          t.flds = s.flds ∧
          (∀ b a, (tget (if b then t.lpe.bankB else t.lpe.bankA) a).getD 0 =
            if b = bank ∧ a = loop.val * 24 + word.val then v
            else (tget (if b then s.lpe.bankB else s.lpe.bankA) a).getD 0) ∧ t.lpe.runs = s.lpe.runs) ∧
      (bank = rdB s Reg.LPE_LSTS_BANK loop.val ∨ rdB s Reg.LPE_LSTS_PENDSWAP loop.val = true →
        exec (.coefWrite bank loop word v) s = .next (wr s Reg.LPE_STATUS_WRBLK 1))) ∧
    (∀ (lane : Fin 8) (loop : Fin 1024) (again hit : Bool), rd s Reg.LPE_LANESTS_MSTATE lane.val = mstateCode .inService →
      WindowRuns s ⟨.loop, lane.val⟩ → hit = (s.lpe.run.isSome && s.lpe.results.any (·.loop = loop.val)) →
      Completes (exec (.laneError lane loop again) s) fun t =>
        rd t Reg.LPE_LANESTS_MSTATE lane.val = mstateCode .suspect ∧ rd t Reg.LPE_LANESTS_FCOUNT lane.val = 1 ∧
        t.ssu.windows = s.ssu.windows ++ [⟨⟨.loop, lane.val⟩, .inService, s.tb.tick⟩] ∧
        ((again && hit) = false → t.lpe.results = s.lpe.results) ∧
        ((again && hit) = true → rd t Reg.LPE_LSTS_S_SKIP loop.val = 1 ∧
          (∀ r ∈ t.lpe.results, r.loop ≠ loop.val) ∧
          ((∀ e ∈ wires s, ¬(e.2.spKind = 2 ∧ e.2.spRef = loop.val)) →
            t.lpe.results = s.lpe.results.filter (·.loop ≠ loop.val))))) ∧
  (∀ (s : State) (loop : Fin 1024) (group : Fin 16) (crc : BitVec 32), rdB s Reg.LPE_LCSTS_PEND = false →
    crc = BitVec.ofNat 32 (rd s Reg.LPE_LCRC_CRC) →
    ((modeIs s = .active ∨ modeIs s = .standby) →
      ∀ (c : Instr) (b : InBody), (c = .lcmdSwapLoop loop ∧ b = .loopSwap loop.val crc ∨
          c = .lcmdSwapGroup group ∧ b = .groupSwap group.val crc ∨ c = .lcmdClearLoop loop ∧ b = .loopClear loop.val ∨
          c = .lcmdClearAll ∧ b = .loopClearAll) →
        Completes (exec c s) fun t => rd t Reg.LPE_LCSTS_PEND = 1 ∧ rd t Reg.LPE_LCSTS_SIDE = 0 ∧
          t.rdu.own = listPut s.rdu.own (tickOf s s.tb.now) ⟨s.tb.now, ⟨64, Reg.LPE_LCMD_CMD.addr⟩, ownSide s, b⟩) ∧
    (modeIs s = .halt →
      (∀ (c : Instr) (l : List Nat), (c = .lcmdClearLoop loop ∧ l = [loop.val] ∨ c = .lcmdClearAll ∧ l = List.range 1024) →
        Completes (exec c s) fun t =>
          rd t Reg.LPE_LCSTS_CC = CC.done ∧ rd t Reg.LPE_LCSTS_PEND = 0 ∧
          ∀ n ∈ l, ∀ f ∈ [Reg.LPE_LSTS_S_ASAT, Reg.LPE_LSTS_S_SATHI, Reg.LPE_LSTS_S_SATLO, Reg.LPE_LSTS_S_RLIM,
            Reg.LPE_LSTS_S_PVFAIL, Reg.LPE_LSTS_S_SPFAIL, Reg.LPE_LSTS_S_FFFAIL, Reg.LPE_LSTS_S_DCGAIN,
            Reg.LPE_LSTS_S_SKIP, Reg.LPE_LSTS_S_REQIGN, Reg.LPE_LSTS_S_SWAPPED], rd t f n = 0) ∧
      (paired s = false →
        ∀ (c : Instr) (l : List Nat), (c = .lcmdSwapLoop loop ∧ l = [loop.val] ∨
            c = .lcmdSwapGroup group ∧ l = ((wires s).filter (·.2.group = group.val)).map (·.1)) →
          (l = [] → Completes (exec c s) fun t => rd t Reg.LPE_LCSTS_CC = CC.failRefused ∧
            rd t Reg.LPE_LCSTS_RSN = Rsn.noLoop ∧ rd t Reg.LPE_LCSTS_PEND = 0) ∧
          (l ≠ [] → banksCrc s l = crc → Completes (exec c s) fun t =>
            t.lpe.lcmd = some ⟨l, false⟩ ∧ rd t Reg.LPE_LCSTS_PEND = 1 ∧ ∀ n ∈ l, rd t Reg.LPE_LSTS_PENDSWAP n = 1) ∧
          (l ≠ [] → banksCrc s l ≠ crc → Completes (exec c s) fun t =>
            rd t Reg.LPE_LCSTS_CC = CC.failRefused ∧ rd t Reg.LPE_LCSTS_RSN = Rsn.bankCheck ∧
            rd t Reg.LPE_LCSTS_PEND = 0 ∧ rd t Reg.LPE_LCSTS_SIDE = (if ownSide s then 2 else 1) ∧
            t.lpe.lcmd = s.lpe.lcmd))))

/-- R127, R130, R131, R139, R148, R152, R154 (Tables 6.2, 6.8): the life of a job in the queue. A doorbell moves the
head; a sound descriptor is held in fetch order; a job that starts runs with its fingerprint and placement, FREE
ending at once with its handle invalid; a job that completes, outruns its budget or is cancelled is held no more, and
the cancel of a running one waits for its outcome. -/
def Obligations.SolverJobs : Prop :=
  ∀ (s : State),
    (∀ v : BitVec 32, rdB s Reg.LSV_RINGCFG_EN = true →
      exec (.lsvDoorbell v) s = .next { s with lsv := { s.lsv with sqHead := v.toNat % 2 ^ rd s Reg.LSV_RINGCFG_SQLOG } }) ∧
    (∀ (d : List Byte) (v : BitVec 32) (s' : State),
      s' = { s with lsv := { s.lsv with cqRead := v.toNat % 2 ^ rd s Reg.LSV_RINGCFG_CQLOG } } →
      rdB s Reg.LSV_RINGCFG_EN = true → lsvRuns s = true → s.lsv.next ≠ s.lsv.sqHead → 0 < cqFree s' →
      (descBad d = false → s.lsv.held.length < 64 → tilesUp s ≠ 0 →
        Completes (exec (.descriptorFetch d v) s) fun t =>
          t.lsv.held = s.lsv.held ++ [newJob d s.lsv.next] ∧ rd t Reg.LSV_QSTS_DEPTH = s.lsv.held.length + 1 ∧
          t.lsv.next = (s.lsv.next + 1) % 2 ^ rd s Reg.LSV_RINGCFG_SQLOG ∧ t.out = s.out) ∧
      (descBad d = true → Completes (exec (.descriptorFetch d v) s) fun t =>
        t.lsv.held = s.lsv.held ∧ t.lsv.cqTail = (s.lsv.cqTail + 1) % 2 ^ rd s Reg.LSV_RINGCFG_CQLOG)) ∧
    (∀ (j : Job) (o : JobOperands), lsvRuns s = true → s.lsv.held.any (·.running) = false →
      nextJob s.lsv.held = some j →
      (dKind j.desc = 7 → dHandle j.desc < 32 → Completes (exec (.jobStart o) s) fun t =>
        rd t Reg.LSV_HANDLE0_VALID (dHandle j.desc) = 0 ∧ t.lsv.held = s.lsv.held.filter (·.index ≠ j.index)) ∧
      (∀ (data : JobData) (s' : State) (fp : BitVec 64) (order : List Nat) (cs : List (List Nat)) (sr dd : Nat) (ddr : Bool)
          (tiles : List Nat), dKind j.desc < 5 → loadLinear s o j.desc = (data, s') → fp = fingerprint j.desc [] data →
        operandsBad j.desc [] data fp = none → dUseH j.desc = false → order = jobOrder j.desc [] data →
        cs = jobStructs j.desc [] data order →
        placeJob s' j.desc cs (frontHomes j.desc [] data order cs (tilesUp s')) none = some (sr, dd, ddr, tiles) →
        Completes (exec (.jobStart o) s) fun t =>
          t.lsv.held = (s.lsv.held.map fun k => if k.index = j.index then
            { j with running := true, startNs := s.tb.now, ext := [], fprint := fp, data := data, warmRej := false,
                     warm := none, order := order, ddr := ddr, sramKib := sr, ddrKib := dd, tiles := tiles } else k) ∧
          t.out = s.out)) ∧
    (∀ (j : Job) (o : JobObs), runningJob s = some j → (isQp j.desc && xMember j.ext) = false → j.cancel = false →
      (dBudget j.desc = 0 ∨ runTime (advance s o.at_) j < dBudget j.desc) →
      Completes (exec (.jobComplete o) s) fun t => t = finishJob (advance s o.at_) j (jobEnd j) o ∧
        t.lsv.held = s.lsv.held.filter (·.index ≠ j.index) ∧ t.lsv.flop = o.flop ∧ t.lsv.cyc = o.cyc ∧
        t.lsv.cqTail = (s.lsv.cqTail + 1) % 2 ^ rd s Reg.LSV_RINGCFG_CQLOG) ∧
    (∀ (j : Job) (us : Nat), runningJob s = some j → dBudget j.desc ≠ 0 →
      dBudget j.desc ≤ runTime (advance s (j.startNs + us * 1000)) j →
      Completes (exec (.jobBudgetExpiry us) s) fun t => t.lsv.held = s.lsv.held.filter (·.index ≠ j.index)) ∧
    (rdB s Reg.LSV_CANCELSTS_PEND = false → modeIs s ≠ .test →
      ∀ tag, tag = rd s Reg.LSV_CANCEL_LO_TAG + 2 ^ 32 * rd s Reg.LSV_CANCEL_HI_TAG →
      ((∀ j ∈ s.lsv.held, dTag j.desc = tag → j.running = false) → Completes (exec .cancelJob s) fun t =>
        (∀ j ∈ t.lsv.held, j ∈ s.lsv.held ∧ dTag j.desc ≠ tag) ∧ rd t Reg.LSV_CANCELSTS_PEND = 0 ∧
        (if ∃ j ∈ s.lsv.held, dTag j.desc = tag then rd t Reg.LSV_CANCELSTS_CC = CC.done ∧ rd t Reg.LSV_CANCELSTS_RSN = 0
          else rd t Reg.LSV_CANCELSTS_CC = CC.failRefused ∧ rd t Reg.LSV_CANCELSTS_RSN = Rsn.noJob ∧
            t.lsv.held = s.lsv.held)) ∧
      ∀ j, s.lsv.held = [j] → j.running = true → dTag j.desc = tag → Completes (exec .cancelJob s) fun t =>
        rd t Reg.LSV_CANCELSTS_PEND = 1 ∧ t.lsv.held = [{ j with cancel := true }] ∧ t.lsv.cancel = some false)

/-- R129, R157, R155, R156, R391, R392, R292 (Tables 6.12, 12.7): the submission ring, the tiles and the split. -/
def Obligations.SolverRingTilesSplit : Prop :=
  ∀ (s : State),
    (∀ (v sqDone sqHead cqTail cqRead : BitVec 32) (left : List LeftDesc) (sl cl : Nat),
      rdB s Reg.LSV_RINGCFG_EN = false → s.lsv.held = [] → v.toNat % 2 = 1 →
      sl = v.toNat / 2 % 16 → cl = v.toNat / 32 % 16 → 6 ≤ sl → sl ≤ cl → cl ≤ 12 →
      rd64 s Reg.LSV_SQBASE_LO_SQBASE Reg.LSV_SQBASE_HI_SQBASE % 4096 = 0 →
      rd64 s Reg.LSV_CQBASE_LO_CQBASE Reg.LSV_CQBASE_HI_CQBASE % 4096 = 0 →
      rd64 s Reg.LSV_CTLADDR_LO_CTLADDR Reg.LSV_CTLADDR_HI_CTLADDR % 64 = 0 → s.hmx.left[4] = none →
      Completes (exec (.ringEnable v sqDone sqHead cqTail cqRead left) s) fun t =>
        rd t Reg.LSV_RINGCFG_EN = 1 ∧ rd t Reg.LSV_RINGCFG_SQLOG = sl ∧ rd t Reg.LSV_RINGCFG_CQLOG = cl ∧
        rd t Reg.LSV_QSTS_RECOVERED = 1 ∧ t.lsv.sqDone = sqDone.toNat % 2 ^ sl ∧ t.lsv.next = sqDone.toNat % 2 ^ sl ∧
        t.lsv.sqHead = sqHead.toNat % 2 ^ sl ∧ t.lsv.cqTail = cqTail.toNat % 2 ^ cl ∧
        t.lsv.cqRead = cqRead.toNat % 2 ^ cl ∧ t.lsv.reported = []) ∧
    (∀ v : BitVec 32, Completes (exec (.ringDisable v) s) fun t => rd t Reg.LSV_RINGCFG_EN = 0 ∧ t.lsv = s.lsv ∧
      OnlyFields s t [(Reg.LSV_RINGCFG_EN, 0), (Reg.LSV_RINGCFG_BADCFG, 0)]) ∧
    (∀ (tile : Fin 16) (word : Nat) (r : Resource), rd s Reg.LSV_TILESTS_MSTATE tile.val = mstateCode .inService →
      r = ⟨.solver, tile.val⟩ → WindowRuns s r →
      Completes (exec (.tileUpset tile true word) s) (fun t =>
        rd t Reg.LSV_TILESTS_CORR tile.val = min (rd s Reg.LSV_TILESTS_CORR tile.val + 1) (2 ^ Reg.LSV_TILESTS_CORR.width - 1) ∧
        t.lsv = s.lsv ∧
        ((∀ e ∈ s.ssu.corrOnce, e.1 = r → e.2.1 = word → faultOver s r e.2.2 = true) →
          rd t Reg.LSV_TILESTS_MSTATE tile.val = mstateCode .inService ∧ (r, word, s.tb.tick) ∈ t.ssu.corrOnce) ∧
        ((∃ e ∈ s.ssu.corrOnce, e.1 = r ∧ e.2.1 = word ∧ faultOver s r e.2.2 = false) →
          rd t Reg.LSV_TILESTS_MSTATE tile.val = mstateCode .suspect ∧ rd t Reg.LSV_TILESTS_FCOUNT tile.val = 1)) ∧
      Completes (exec (.tileUpset tile false word) s) fun t =>
        rd t Reg.LSV_TILESTS_MSTATE tile.val = mstateCode .suspect ∧ rd t Reg.LSV_TILESTS_FCOUNT tile.val = 1 ∧
        t.ssu.windows = s.ssu.windows ++ [⟨⟨.solver, tile.val⟩, .inService, s.tb.tick⟩] ∧
        (runningJob s = none → t.lsv = s.lsv) ∧
        (∀ j, runningJob s = some j → j.retried = true → t.lsv.held = s.lsv.held.filter (·.index ≠ j.index)) ∧
        ∀ j, runningJob s = some j → j.retried = false → isQp j.desc = false →
          t.lsv.held = s.lsv.held.map fun k => if k.index = j.index then { j with retried := true } else k) ∧
    (∀ (v : BitVec 32) (sh ws : Nat), sh = v.toNat % 4096 → ws = v.toNat / 4096 % 1024 →
      (rdB s Reg.LSV_RINGCFG_EN = false → rd s Reg.LSV_QSTS_DEPTH = 0 → sh ≤ 3584 → sh % 64 = 0 →
        Completes (exec (.splitWrite v) s) fun t =>
          rd t Reg.HMX_SPLIT_SRAMHOST = sh ∧ rd t Reg.HMX_SPLIT_DDRWS = ws ∧
          (sh ≠ rd s Reg.HMX_SPLIT_SRAMHOST ∨ ws ≠ rd s Reg.HMX_SPLIT_DDRWS →
            ∀ n < 32, rd t Reg.LSV_HANDLE0_VALID n = 0)) ∧
      ((rdB s Reg.LSV_RINGCFG_EN = true ∨ rd s Reg.LSV_QSTS_DEPTH ≠ 0 ∨ 3584 < sh ∨ sh % 64 ≠ 0) →
        Completes (exec (.splitWrite v) s) fun t => rd t Reg.HMX_SPLIT_BADCFG = 1 ∧
          OnlyFields s t [(Reg.HMX_SPLIT_BADCFG, 0)]))

/-- R183, R184, R323, R330, R331, R332 (Table 14.2): the parts of a partitioned solve. A frame that is new on its link
and addressed to this unit acts here, one for another unit is sent on, and one that is not new does nothing. The
coordinator admits a member of its solve within the join wait, answers any other NO_CJOB and ends the solve on another
NCPL or when the wait is over; it gathers the contributions of every part to the present step, its own among them, and
replies when the last has come. A member part goes on with a reply, ends by CPLEND with the code and reason it carries,
and ends CASCADE_LOST when it waited too long; a CPLEND at a coordinator tells it of a part that failed. -/
def Obligations.PartitionedSolve : Prop :=
  (∀ (s : State) (n : Fin 4) (head : ChordHead) (src dst : CAddr) (cmd : Instr) (f : CplFrame) (cjob : BitVec 32) (ncpl : Nat)
      (vals : List Word) (code rsn : BitVec 8) (o : JobObs),
    (cmd = .partJoin n head src dst cjob ncpl ∧ f = .join cjob ncpl ∨ cmd = .schur n head src dst vals ∧ f = .schur vals ∨
      cmd = .cplrhs n head src dst vals ∧ f = .rhs vals ∨ cmd = .cplstep n head src dst vals ∧ f = .step vals ∨
      cmd = .cplreply n head src dst vals ∧ f = .reply vals ∨
      cmd = .cplend n head src dst code rsn o ∧ f = .finish code.toNat rsn.toNat) →
    ((clTake s n head false).2 = false → exec cmd s = .next s) ∧
    ((clTake s n head false).2 = true → dst ≠ myAddr s → (ownMember s ≠ 0 ∨ dst.member ≠ 0 ∨ rdB s Reg.RDU_CFG_PAIRED = true) →
      exec cmd s = .next (sendPart (clTake s n head false).1 src dst f))) ∧
  (∀ (s u : State) (n : Fin 4) (head : ChordHead) (src dst : CAddr),
    clTake s n head false = (u, true) → dst = myAddr s →
    (∀ (cjob : BitVec 32) (ncpl : Nat),
      (s.lsv.cjob = none → exec (.partJoin n head src dst cjob ncpl) s =
        .next (sendPart u (myAddr u) src (.finish CC.failRefused Rsn.noCjob))) ∧
      ∀ c, s.lsv.cjob = some c →
        (c.cjob ≠ cjob ∨ src.side ≠ partSide s ∨ c.open_ = false →
          exec (.partJoin n head src dst cjob ncpl) s =
            .next (sendPart u (myAddr u) src (.finish CC.failRefused Rsn.noCjob))) ∧
        (c.cjob = cjob → src.side = partSide s → c.open_ = true →
          (c.ncpl = ncpl → c.got.length ≤ c.joined.length →
            Completes (exec (.partJoin n head src dst cjob ncpl) s) fun t => t.out = s.out ∧
              ∃ c', t.lsv.cjob = some c' ∧ src.member ∈ c'.joined ∧ (∀ x ∈ c.joined, x ∈ c'.joined) ∧ c'.cjob = cjob ∧
                (c'.open_ = false ↔ ∀ x : Fin 8, x ≠ 0 → c.awaited.getLsbD x.val = true → x ∈ c'.joined)) ∧
          (c.ncpl ≠ ncpl → Completes (exec (.partJoin n head src dst cjob ncpl) s) fun t => t.lsv.cjob = none ∧
            ∀ j, runningJob s = some j → t.lsv.held = s.lsv.held.filter (·.index ≠ j.index)))) ∧
    (∀ (cmd : Instr) (vals : List Word) (c c' : Coord), s.lsv.cjob = some c → c.open_ = false → src.member ∈ c.joined →
      (∀ g ∈ c.got, g.member ≠ src.member) → c' = { c with got := c.got ++ [⟨src.member, vals⟩] } →
      (cmd = .schur n head src dst vals ∧ c.step = 1 ∨ cmd = .cplrhs n head src dst vals ∧ (c.step = 2 ∨ c.step = 4) ∨
        cmd = .cplstep n head src dst vals ∧ (c.step = 3 ∨ c.step = 5)) →
      (c.got.length < c.joined.length → exec cmd s = .next { u with lsv := { u.lsv with cjob := some c' } }) ∧
      ∀ j w, c.joined.length ≤ c.got.length → runningJob s = some j → j.kept = some w → j.failed = none →
        ∀ g s', g = inOrder c'.got → s' = contribute u c src.member vals →
        (c.step = 1 → exec cmd s = .next (coordTests s' c' j w g)) ∧
        (c.step = 2 ∨ c.step = 4 → exec cmd s = .next (coordSolve s' c' j w g)) ∧
        (c.step = 5 → Completes (exec cmd s) fun t => (t.lsv.cjob.map (·.step)) = some 1 ∧
          ∀ x ∈ c.joined, SentPart u t ⟨x, partSide s⟩ (.reply [dMin dOne (dMul (xTau j.ext) (partMin g 0))])) ∧
        (c.step = 3 → Completes (exec cmd s) fun t => (t.lsv.cjob.map (·.step)) = some 4 ∧
          ∃ sigma, (∀ x ∈ c.joined, SentPart u t ⟨x, partSide s⟩ (.reply [partMin g 0, sigma])) ∧
            (c.mc = 0 → sigma = 0) ∧
            (c.mc ≠ 0 → sigma = dCube (dDiv (dDiv (partSum g 1) c.mc) (dDiv c.comp c.mc))))) ∧
    (∀ j, memberPart s = some j →
      (∀ vals, exec (.cplreply n head src dst vals) s =
        .next (partReply { u with free := s.free + 1 } j (atLeast s.free 0) vals)) ∧
      (∀ code rsn o, j.cancel = false → (dBudget j.desc = 0 ∨ runTime (advance s o.at_) j < dBudget j.desc) →
        Completes (exec (.cplend n head src dst code rsn o) s) fun t =>
          t.lsv.held = s.lsv.held.filter (·.index ≠ j.index) ∧ t.lsv.flop = o.flop ∧ t.lsv.cyc = o.cyc)) ∧
    (∀ c code rsn o, s.lsv.cjob = some c → src.member ∈ c.joined →
      Completes (exec (.cplend n head src dst code rsn o) s) fun t => t.lsv.cjob = none ∧
        ∀ j, runningJob s = some j → t.lsv.held = s.lsv.held.filter (·.index ≠ j.index))) ∧
  (∀ (s : State),
    (∀ c j, s.lsv.cjob = some c → c.open_ = true → coordJob s = some j →
      ∀ stop, stop = j.waitFrom + xCplWait j.ext * 1000 → stop ≤ (advance s stop).tb.now →
      Completes (exec .joinWaitExpiry s) fun t => t.lsv.cjob = none ∧ t.lsv.held = s.lsv.held.filter (·.index ≠ j.index) ∧
        ∀ x ∈ c.joined, SentPart s t ⟨x, partSide s⟩ (.finish CC.failPeerUnreachable Rsn.memberLost)) ∧
    (∀ j, memberPart s = some j → ∀ stop, stop = j.waitFrom + xCplWait j.ext * 1000 → stop ≤ (advance s stop).tb.now →
      Completes (exec .cplwaitExpiry s) fun t => t.lsv.held = s.lsv.held.filter (·.index ≠ j.index)))

/-- R189, R191 to R196, R199 (Tables 8.5, 8.7): the Metering Engine's inputs. The bits of a feeder that meters go through
its chains, and each sample may end a cycle, which adds its energies to the accumulators and counts in the open interval;
one that is not under NOVOLT is 14.29 to 25.00 ms long. A feeder without voltage is
marked; an input stuck reads BAD and spoils the cycle; an upset makes a bank SUSPECT; an accepted pulse counts and a short
one is a glitch (what the 1 MHz sampling leaves open is a free value, log entry 18).

R205, R209: latch records across a pair and the periodic records. A partner's record with no own one to meet is kept;
one that meets an own record, and a wait of 2 ms without one, decide it. The metering record is requested with kind
PERIODIC outside SAVE, and the heartbeat record once recall is over, unless a BIST wave tests the store. -/
def Obligations.Metering : Prop :=
  ((∀ (g : FeederCfg) (st st' : FeedSt) (x : Sample) (a b : Nat), feedSample g st x = (st', some b) → st.from_ = some a →
    st'.novolt = false → a + 14290000 ≤ b ∧ b ≤ a + 25000000) ∧
  ∀ (s : State), metering s = true →
    (∀ (f : Fin 33) (o : CycleObs),
      (feedCfg s f.val = none ∨ feedsOn s f.val = false ∨ chanState s f.val = .retired →
        exec (.lineCycleEnd f o) s = .next s) ∧
      ∀ (g : FeederCfg) (st : FeedSt) (l : List Sample), feedCfg s f.val = some g → feedsOn s f.val = true →
        chanState s f.val ≠ .retired → takeBits s f.val g o = (st, l) →
        (exec (.lineCycleEnd f o) s =
          .next (l.foldl (meterSample f.val g) (sampleInputs (setFeed s f.val st) f.val st.clip))) ∧
        ∀ (x : Chan) (iv : Interval) (y : Sample) (st' : FeedSt) (a b : Nat) (q : CycleQ) (p : Word), f.val < 32 →
          l = [y] → feedSample g st y = (st', some b) → st.from_ = some a → st.hit = [] →
          (∀ i ∈ inputsOf f.val, rdB s Reg.MTE_INSTS_STUCK i = false) → x = chanOf s f.val → x.open_ = some iv →
          x.fcfg = some g → st.subst = false → iv.count + 1 < g.n → q = cycleOf g st'.hist a b → p = sum3 q.p →
          Completes (exec (.lineCycleEnd f o) s) fun t =>
            chanOf t f.val = { x with
              acc := feederEnergy x.acc p (sum3 q.q) (b - a)
              open_ := some { iv with count := iv.count + 1, pmax := dMax iv.pmax (dAbs p), pos := iv.pos || !dIsNeg p,
                                      neg := iv.neg || dIsNeg p } } ∧
            (feedOf t f.val).prev = some q ∧ rdB t Reg.MTE_FSTS_NOVOLT f.val = st'.novolt ∧ t.csa = s.csa) ∧
    (∀ f : Fin 32, (chanOf s f.val).open_.isSome = true →
      Completes (exec (.novoltTimeout f) s) fun t => rd t Reg.MTE_FSTS_NOVOLT f.val = 1 ∧
        rd t Reg.MTE_FSTS_FLAGS f.val = (rd s Reg.MTE_FSTS_FLAGS f.val ||| 8) % 2 ^ Reg.MTE_FSTS_FLAGS.width ∧
        OnlyFields s t [(Reg.MTE_FSTS_NOVOLT, f.val), (Reg.MTE_FSTS_FLAGS, f.val)]) ∧
    (∀ (i : Fin 198) (c : Instr) (stuck : Bool), rd s Reg.MTE_INSTS_MSTATE i.val ≠ mstateCode .retired →
      (c = .inputStuck i ∧ stuck = true ∨ c = .inputUnstuck i ∧ stuck = false) →
      Completes (exec c s) fun t => rdB t Reg.MTE_INSTS_STUCK i.val = stuck ∧
        rd t Reg.MTE_INSTS_QUAL i.val = qualCode (if stuck then .bad else .good) ∧
        (stuck = true → i.val ∈ (feedOf t (i.val / 6)).hit) ∧
        FieldsBut s t [(Reg.MTE_INSTS_STUCK, i.val), (Reg.MTE_INSTS_QUAL, i.val)] ∧
        t.mte.chans = s.mte.chans ∧ { t with flds := s.flds, mte := s.mte } = s) ∧
    (∀ b : Fin 8, rd s Reg.MTE_BANKSTS_MSTATE b.val = mstateCode .inService → WindowRuns s ⟨.meter, b.val⟩ →
      Completes (exec (.filterBankFault b) s) fun t => rd t Reg.MTE_BANKSTS_MSTATE b.val = mstateCode .suspect ∧
        rd t Reg.MTE_BANKSTS_FCOUNT b.val = 1 ∧
        t.ssu.windows = s.ssu.windows ++ [⟨⟨.meter, b.val⟩, .inService, s.tb.tick⟩] ∧ t.mte = s.mte) ∧
    (∀ (p : Fin 32) (g : PulseCfg) (edge held : Nat), pulseCfg s p.val = some g → g.en = true →
      ((g.deb + 2) * 1000 ≤ held → Completes (exec (.pulseEdge p edge held) s) fun t =>
        pulseOf t p.val = { pulseOf s p.val with
          count := (pulseOf s p.val).count + 1, lastEdge := some edge, newEdges := (pulseOf s p.val).newEdges + 1 } ∧
        t.flds = s.flds) ∧
      (held < g.deb * 1000 → Completes (exec (.pulseEdge p edge held) s) fun t =>
        rd t Reg.MTE_INSTS_GLITCH p.val =
          min (rd s Reg.MTE_INSTS_GLITCH p.val + 1) (2 ^ Reg.MTE_INSTS_GLITCH.width - 1) ∧ t.mte = s.mte))) ∧
  (∀ (s : State),
    (metering s = true → ∀ r : LatchRec,
      (s.mte.waiting.find? (fun w => formPair w.record r) = none →
        Completes (exec (.latchRecordRx r) s) fun t =>
          (chanOf t (recChan r)).partnerAcc = some (r.seq, r.acc) ∧ t.mte.waiting = s.mte.waiting ∧
          ∃ d, t.mte.partner = s.mte.partner.filter (fun o => recChan o.record ≠ recChan r) ++ [⟨r, d⟩]) ∧
      ∀ w, s.mte.waiting.find? (fun w => formPair w.record r) = some w →
        Completes (exec (.latchRecordRx r) s) fun t =>
          t.mte.waiting = s.mte.waiting.erase w ∧ t.mte.partner = s.mte.partner) ∧
    (∀ (c : Fin 96) (w : LatchWait) (bits : Nat), s.mte.waiting.find? (fun w => recChan w.record = c.val) = some w →
      bits = (if paired s = true ∧ (modeOf (rd s Reg.RDU_STATUS_PMODE) = .recall ∨ modeOf (rd s Reg.RDU_STATUS_PMODE) = .test)
        then 0 else 256) →
      Completes (exec (.pairmissTimeout c) s) fun t =>
        t.mte.waiting = s.mte.waiting.erase w ∧
        (∀ l, (chanOf s c.val).latch = some l → l.seq = w.record.seq →
          (chanOf t c.val).latch = some { w.record with flags := w.record.flags ||| BitVec.ofNat 16 bits })) ∧
    (metering s = true → modeIs s ≠ .save → s.nvs.queue = [] →
      (writeRange s (.record 0x30 (.meter (meterRec s 0)))).fits = true →
      Completes (exec .meterPeriodicSave s) fun t =>
        t.nvs.queue = [⟨4, .record 0x30 (.meter (meterRec s 0)), .meter 0⟩] ∧ t.mte = s.mte) ∧
    (recalling s = false →
      (s.ssu.wave = some 0 → exec .heartbeat s = .next { s with mte := { s.mte with beatDue := true } }) ∧
      (s.ssu.wave ≠ some 0 → s.nvs.queue = [] → (writeRange s (.record 0x31 (.beat (beatRec s)))).fits = true →
        Completes (exec .heartbeat s) fun t =>
        t.nvs.queue = [⟨4, .record 0x31 (.beat (beatRec s)), .beat⟩] ∧ t.mte = s.mte)))

/-- R221 to R226 (Table 9.4): a calibration run. START begins one with an enabled feeder, sound references and no
shadow set waiting; a bad window is discarded, the third in a row ending the run; the first good one starts the
comparison; a verification that passes requests the write of the sets and one that fails ends the run; ABORT ends a
run whose write has not started; in HALT a WRITE requests the write of one set. -/
def Obligations.CalibrationCommands : Prop :=
  ∀ (s : State) (f : Nat), f = rd s Reg.MTE_CALCFG_FEEDER →
    (∀ g, rdB s Reg.MTE_CALSTS_PEND = false → modeIs s ≠ .recall → modeIs s ≠ .test → modeIs s ≠ .save →
      feederCfg s f = some g → g.en = true → f < 32 → refFault s = false → shadowWaits s f = false →
      Completes (exec .calStart s) fun t =>
        rd t Reg.MTE_CALSTS_PEND = 1 ∧ rd t Reg.MTE_CALSTS_STAGE = 1 ∧ rd t Reg.MTE_CALSTS_WIN = 0 ∧
        ∃ r, t.mte.cal = some r ∧ r.feeder.val = f ∧ r.prev = [] ∧ r.discarded = 0 ∧ r.cycles = 0) ∧
    (∀ r, s.mte.cal = some r →
      (calWriting s = false → Completes (exec .calAbort s) fun t =>
        t.mte.cal = none ∧ rd t Reg.MTE_CALSTS_CC = CC.failCancelled ∧ rd t Reg.MTE_CALSTS_RSN = 0 ∧
        rd t Reg.MTE_CALSTS_PEND = 0 ∧ rd t Reg.MTE_CALSTS_STAGE = 0 ∧ ∀ q ∈ t.nvs.queue, q.who ≠ .cal) ∧
      (calWriting s = true → exec .calAbort s =
        .next { s with mte := { s.mte with cal := some { r with lateAbort := true } } }) ∧
      (windowOver s r = false → ∀ c, c = .calWindowEnd ∨ c = .calVerifyEnd → exec c s = .next s) ∧
      (metering s = true → windowOver s r = true →
        (calBad r = true → ∀ c, (c = .calWindowEnd ∧ rd s Reg.MTE_CALSTS_STAGE = 1 ∨
            c = .calVerifyEnd ∧ rd s Reg.MTE_CALSTS_STAGE = 2) →
          Completes (exec c s) fun t =>
            if r.discarded = 2 then t.mte.cal = none ∧ rd t Reg.MTE_CALSTS_CC = CC.failTransientExhausted ∧
              rd t Reg.MTE_CALSTS_RSN = Rsn.signalFault ∧ rd t Reg.MTE_CALSTS_PEND = 0
            else t = { s with mte := { s.mte with cal := some { nextWindow s r with discarded := r.discarded + 1 } } }) ∧
        (calBad r = false → rd s Reg.MTE_CALSTS_STAGE = 1 → r.prev = [] →
          rd s Reg.MTE_CALSTS_WIN + 1 < rd s Reg.MTE_CALCFG_WMAX → Completes (exec .calWindowEnd s) fun t =>
            rd t Reg.MTE_CALSTS_WIN = (rd s Reg.MTE_CALSTS_WIN + 1) % 2 ^ Reg.MTE_CALSTS_WIN.width ∧
            t.mte.cal = some { nextWindow s r with prev := (List.finRange 6).map (calForm s r), discarded := 0 }) ∧
        (calBad r = false → rd s Reg.MTE_CALSTS_STAGE = 2 → s.nvs.queue = [] →
          (writeRange s (.record 0x20 (calRecord s (calSets s)))).fits = true → Completes (exec .calVerifyEnd s) fun t =>
            (∀ j : Fin 6, rd t Reg.MTE_CALRES_GERR j.val = sat16 (calErrors r j).1 ∧
              rd t Reg.MTE_CALRES_PERR j.val = sat16 (calErrors r j).2.1) ∧
            ((∀ j, calAccepts s r (calErrors r j) = true) →
              rd t Reg.MTE_CALSTS_STAGE = 3 ∧ t.mte = s.mte ∧
              t.nvs.queue = [⟨3, .record 0x20 (calRecord s (calSets s)), .cal⟩]) ∧
            ((∃ j, calAccepts s r (calErrors r j) = false) →
              t.mte.cal = none ∧ rd t Reg.MTE_CALSTS_CC = CC.failNumeric ∧ rd t Reg.MTE_CALSTS_RSN = Rsn.acceptFail ∧
              rd t Reg.MTE_CALSTS_PEND = 0)))) ∧
    (∀ (i : Nat) (v : CoefSet) (u : State), rdB s Reg.MTE_CALSTS_PEND = false → modeIs s = .halt →
      i = rd s Reg.MTE_CALWR2_INPUT →
      (i < 192 → shadowWaits s (i / 6) = false) → s.nvs.queue = [] →
      v = ⟨BitVec.ofNat 32 (rd s Reg.MTE_CALWR0_GAIN), BitVec.ofNat 32 (rd s Reg.MTE_CALWR1_OFFSET),
        BitVec.ofNat 16 (rd s Reg.MTE_CALWR2_PHASE)⟩ →
      u = { s with mte := { s.mte with calPut := [(i, v)] } } →
      (writeRange u (.record 0x20 (calRecord u (calSets u)))).fits = true →
      Completes (exec .calWrite s) fun t => rd t Reg.MTE_CALSTS_PEND = 1 ∧ t.mte = u.mte ∧
        t.nvs.queue = [⟨3, .record 0x20 (calRecord u (calSets u)), .cal⟩])

/-- R213, R215, R220 (Tables 9.2, 9.3): the facet commands with none pending. PREPARE starts a fetch into the shadow; a
fetch that ends carries the facet through its checks or leaves the shadow EMPTY; SWAP in HALT is due at the next edge,
elsewhere it and ABORT are inputs to the tick; DISCARD empties a shadow that is not armed. -/
def Obligations.FacetCommands : Prop :=
  ∀ (s : State),
    (rdB s Reg.FCT_SWSTS_PEND = false →
      ((modeIs s = .halt ∨ modeIs s = .active ∨ modeIs s = .standby ∨ modeIs s = .safehold) →
        rd s Reg.FCT_STATUS_SHSTATE ≠ 3 → Completes (exec .prepare s) fun t =>
          rd t Reg.FCT_SWSTS_PEND = 1 ∧ rd t Reg.FCT_STATUS_SHSTATE = 1 ∧ t.fct.shadow = none ∧
          t.fct.preparing = some [] ∧ t.fct.active = s.fct.active) ∧
      (modeIs s ≠ .test → rd s Reg.FCT_STATUS_SHSTATE ≠ 3 → Completes (exec .discard s) fun t =>
        t.fct.shadow = none ∧ rd t Reg.FCT_STATUS_SHSTATE = 0 ∧ rd t Reg.FCT_SWSTS_CC = CC.done ∧
        t.fct.active = s.fct.active) ∧
      ((modeIs s = .halt ∨ modeIs s = .active ∨ modeIs s = .standby) → rd s Reg.FCT_STATUS_SHSTATE = 2 →
        s.fct.shadow.bind (modChange s) = none →
        Completes (exec .swap s) fun t => rd t Reg.FCT_SWSTS_PEND = 1 ∧
          if modeIs s = .halt then
            t.fct.armed = some ⟨s.tb.tick + 1, false, false, false⟩ ∧ rd t Reg.FCT_STATUS_SHSTATE = 3
          else t.fct.armed = s.fct.armed ∧ t.rdu.own = listPut s.rdu.own (tickOf s s.tb.now) ⟨s.tb.now,
            ⟨64, Reg.FCT_CMD_CMD.addr⟩, ownSide s, .swap (rd64 s Reg.FCT_SWAPTICK_LO_KF Reg.FCT_SWAPTICK_HI_KF)⟩)) ∧
    (modeIs s ≠ .test → (rdB s Reg.FCT_SWSTS_PEND = false ∨ swapPending s = true) →
      Completes (exec .facetAbort s) fun t => rd t Reg.FCT_SWSTS_PEND = 1 ∧
        t.rdu.own = listPut s.rdu.own (tickOf s s.tb.now) ⟨s.tb.now, ⟨64, Reg.FCT_CMD_CMD.addr⟩, ownSide s,
          .facetAbort s.tb.tick⟩) ∧
    (s.fct.preparing = some [] →
      (Completes (exec (.prepareFetchComplete .hostAbort) s) fun t =>
        t.fct.preparing = none ∧ t.fct.shadow = none ∧ rd t Reg.FCT_STATUS_SHSTATE = 0 ∧ rd t Reg.FCT_SWSTS_PEND = 0 ∧
        rd t Reg.FCT_SWSTS_CC = CC.failPeerUnreachable ∧ rd t Reg.FCT_SWSTS_RSN = Rsn.hostAbort) ∧
      ∀ (c : List Byte), recalling s = false → s.nvs.queue = [] →
        Completes (exec (.prepareFetchComplete (.bytes c)) s) fun t =>
          match verifyImage s.ssu.otp true c with
          | some r => t.fct.preparing = none ∧ t.fct.shadow = none ∧ rd t Reg.FCT_STATUS_SHSTATE = 0 ∧
              rd t Reg.FCT_SWSTS_PEND = 0 ∧ rd t Reg.FCT_SWSTS_CC = CC.failAuth ∧ rd t Reg.FCT_SWSTS_RSN = r % 256
          | none => match firstOf [checkFacet c (running s), modChange s (parseFacet c), portChange s (parseFacet c)] with
            | some r => t.fct.preparing = none ∧ t.fct.shadow = none ∧ rd t Reg.FCT_STATUS_SHSTATE = 0 ∧
                rd t Reg.FCT_SWSTS_PEND = 0 ∧ rd t Reg.FCT_SWSTS_CC = CC.failRefused ∧
                rd t Reg.FCT_SWSTS_RSN = r.rsn % 256 ∧ rd t Reg.FCT_REF_KIND = r.kind % 2 ^ Reg.FCT_REF_KIND.width ∧
                rd t Reg.FCT_REF_ITEM = r.item % 2 ^ Reg.FCT_REF_ITEM.width
            | none => (writeRange s (.image true (freeFacetSlot s) c)).fits = true → t.fct.preparing = some c ∧ t.fct.shadow = some (parseFacet c) ∧
                t.nvs.queue = [⟨5, .image true (freeFacetSlot s) c, .prepare⟩])

/-- R26, R27, R35, R36, R281, R282, R371, R387: the time sources. A Sync of the selected master on the slave port, with
the path delay known, measures an offset. It moves the time base in RECALL and HALT from 1 µs on, when no source of a
higher rank is selected (log entries 25 and 52), and in the other modes steers it within ±100 ppm while PTP is selected; a
source whose correction would be larger (a free value, log entry 25) or which is beyond 1 ms in those modes is
disqualified. A Delay_Resp to the own request gives the path delay. Qualification latches currentUtcOffset; a lost source
is disqualified, the Apex source while no link brings markers; the start wait ends; a master port puts out SYNC at its
interval and the answer to DELAY_REQ (log entry 97). -/
def Obligations.TimeSourceEvents : Prop :=
  ∀ (s : State) (p : Fin 16) (r : PortRec), portRec s p = some r → portUp s p = true →
    (ptpSlave s p = true → ∀ (h : PtpHead) (stamp : Nat) (u : State), vlanOk r h.vlan = true → h.domain.toNat = r.ptpDom →
      u = advance s stamp → (bestMaster u).map (·.src) = some h.src →
      (∀ (origin d off need : Int), s.npc.ptp.delay = some d →
        off = d - ((stamp : Int) - r.rxLat - h.corr - fromPtp u origin) → need = (freeWord s.free).toInt →
        (mayStep s = true → 1000 ≤ off.natAbs → rd s Reg.TBC_DSTS_SRC ≤ 1 →
          Completes (exec (.ptpSyncRx p (.sync h false origin) stamp) s) fun t => t.tb.ptpOffset = off ∧
            t.tb.now = ((u.tb.now : Int) + off).toNat ∧ t.tb.tick = t.tb.now / tickNs s ∧
            rd t Reg.NPCp_STATUS_PTPST p.val = if 100000 < need.natAbs then 1 else 2) ∧
        ((mayStep s = true ∧ (off.natAbs < 1000 ∨ 1 < rd s Reg.TBC_DSTS_SRC) ∨ mayStep s = false ∧ off.natAbs ≤ 1000000) →
          Completes (exec (.ptpSyncRx p (.sync h false origin) stamp) s) fun t => t.tb.now = u.tb.now ∧
            t.tb.ptpOffset = off ∧ t.out = s.out ++ [.ptpDelayReq p (portTag r) r.ptpDom s.npc.ptp.reqSeq] ∧
            (rd s Reg.TBC_DSTS_SRC = 1 → off.natAbs < 2 ^ 31 → signedOf 32 (rd t Reg.TBC_OFFSET_OFFSET) = off) ∧
            (∃ slew : Int, slew.natAbs ≤ 50000 ∧ 0 ≤ slew * off ∧ (off = 0 → slew = 0) ∧
              ((need + slew).natAbs ≤ 100000 → rd t Reg.NPCp_STATUS_PTPST p.val = 2 ∧
                t.tb.ptpGood = (if off.natAbs < 1000 then some (s.tb.ptpGood.getD u.tb.now) else none) ∧
                (rd s Reg.TBC_DSTS_SRC = 1 →
                  signedOf 32 (rd t Reg.TBC_RATE_RATE) = max (-50000) (min 50000 need) + slew)) ∧
              (100000 < (need + slew).natAbs → rd t Reg.NPCp_STATUS_PTPST p.val = 1 ∧ rd t Reg.TBC_DSTS_PTPQ = 0 ∧
                t.tb.ptpGood = none ∧ rd t Reg.TBC_RATE_RATE = rd s Reg.TBC_RATE_RATE)) ∧
            FieldsBut s t [(Reg.NPCp_STATUS_PTPST, p.val), (Reg.TBC_OFFSET_OFFSET, 0), (Reg.TBC_RATE_RATE, 0),
              (Reg.TBC_DSTS_PTPQ, 0)]) ∧
        (mayStep s = false → 1000000 < off.natAbs →
          Completes (exec (.ptpSyncRx p (.sync h false origin) stamp) s) fun t => rd t Reg.TBC_DSTS_STEPBLK = 1 ∧
            rd t Reg.TBC_DSTS_PTPQ = 0 ∧
            t.tb = { u.tb with ptpOffset := off, ptpGood := none, blockedPtp := true })) ∧
      (∀ (received sent ms : Int), s.npc.ptp.req = some (h.seq, sent) → s.npc.ptp.ms = some ms →
        exec (.ptpSyncRx p (.delayResp h ⟨s.ssu.otp.devid, BitVec.ofNat 16 (p.val + 1)⟩ received) stamp) s =
          .next { u with npc := { s.npc with ptp := { s.npc.ptp with
            req := none, delay := some ((ms + (fromPtp u received - h.corr - sent)) / 2) } } })) ∧
    (ptpSlave s p = true → s.tb.blockedPtp = false → ∀ (since : Nat) (utc : Int), s.tb.ptpGood = some since →
      since + max 1 (rd s Reg.TBC_DISC_QUALTIME) * 10 ^ 9 ≤ s.tb.now →
      Completes (exec (.ptpQualify utc) s) fun t => rd t Reg.TBC_DSTS_PTPQ = 1 ∧
        t.tb = { s.tb with ptpUtc := some utc } ∧ OnlyFields { s with tb := t.tb } t [(Reg.TBC_DSTS_PTPQ, 0)]) ∧
    (Completes (exec .ptpSourceLost s) fun t => rd t Reg.TBC_DSTS_PTPQ = 0 ∧ t.tb = { s.tb with ptpGood := none } ∧
      (ptpSlave s p = true → rd t Reg.NPCp_STATUS_PTPST p.val =
        if rd s Reg.NPCp_STATUS_PTPST p.val = 2 then 1 else rd s Reg.NPCp_STATUS_PTPST p.val)) ∧
    ((∀ n, n < 4 → brings s n = false) → Completes (exec .apexSourceLost s) fun t => rd t Reg.TBC_DSTS_APEXQ = 0 ∧
      t = { wr s Reg.TBC_DSTS_APEXQ 0 with
        tb := { s.tb with apexLost := s.tb.apexLost || rd s Reg.TBC_DSTS_SRC = 2, apexBack := none } }) ∧
    ((∃ n, n < 4 ∧ brings s n = true) → exec .apexSourceLost s = .next s) ∧
    (modeIs s = .halt → exec .startWaitExpiry s = .next { s with tb := { s.tb with waitOver := true } }) ∧
    (ptpSends s p = true →
      (dueAgain s s.npc.ptp.syncAt p.val (syncNs r) = true → ∀ n, n = (tget s.npc.ptp.seqs p.val).getD 0 →
        Completes (exec (.ptpSyncTx p) s) fun t => rd t Reg.NPCp_STATUS_PTPST p.val = 3 ∧
          t.out = s.out ++
            (if dueAgain s s.npc.ptp.announceAt p.val (2 * 10 ^ 9) then [.ptpAnnounce p (portTag r) r.ptpDom r.prio1 248]
              else []) ++
            [.ptpSync p (portTag r) r.ptpDom n (if r.twoStep then none else some (txTime s r))] ++
            if r.twoStep then [.ptpFollowUp p (portTag r) r.ptpDom n (txTime s r)] else []) ∧
      (dueAgain s s.npc.ptp.syncAt p.val (syncNs r) = false → exec (.ptpSyncTx p) s = .next s) ∧
      ∀ q : DelayReqRx, q.port = p → vlanOk r q.h.vlan = true → q.h.domain.toNat = r.ptpDom →
        exec (.ptpDelayReq q) s = .next (emit (advance s q.stamp)
          (.ptpDelayResp p (portTag r) r.ptpDom q.h.seq q.h.src ((q.stamp : Int) - r.rxLat))))

/-- R229, R230, R236 (Table 10.9): the commands of a controller with none pending. A PROBE in HALT of an enabled bus in mode
0 waits for its outcome, whose mode the bus then takes; in a fixed mode it is done at once. RECOVER of a bus that is off
waits for the recovery, which clears both error counters; CLEAR clears the clash counter.

R237, R238 (Tables 10.11, 10.12): the filters of a controller outside TEST. ADD takes the lowest free index and ends
FILTER_FULL with none, the last index being the offload's; REMOVE removes a filter of the host and ends NOT_OWNER for any other index; REMOVE_ALL leaves the
filters of the offload alone. Nothing else of the controller changes. -/
def Obligations.BusControlAndFilters : Prop :=
  (∀ (s : State) (n : Fin 24) (c : Ctl), c = s.fbc[n] →
    (∀ (b : BusRec), c.bus = some b → b.en = true →
      (rdB s Reg.FBCn_CTLSTS_PEND n = false → modeIs s = .halt → resState s ⟨.fieldbus, n.val⟩ ≠ .retired →
        (b.mode = 0 → Completes (exec (.probe n) s) fun t => rd t Reg.FBCn_CTLSTS_PEND n = 1 ∧
          rd t Reg.FBCn_STATUS_PMODE n = 0 ∧ rd t Reg.FBCn_STATUS_PROBE n = 0 ∧
          t.out = s.out ++ if canDrive s n then [.probeFrame n (probeFrame b) 3] else []) ∧
        ((b.mode = 1 ∨ b.mode = 2) → Completes (exec (.probe n) s) fun t => rd t Reg.FBCn_CTLSTS_PEND n = 0 ∧
          rd t Reg.FBCn_CTLSTS_CC n = CC.done ∧ rd t Reg.FBCn_STATUS_PMODE n = b.mode ∧
          rd t Reg.FBCn_STATUS_PROBE n = 4)) ∧
      (b.mode = 0 → rd s Reg.FBCn_STATUS_PMODE n = 0 → ∀ (o : ProbeSeen) (x : Nat × Nat),
        (o = .errorAfterFdf ∧ x = (2, 2) ∨ o = .threeAcked ∧ x = (1, 1) ∨ o = .noAck ∧ x = (3, 2)) →
        (canDrive s n = true ∨ o = .noAck) →
        Completes (exec (.probeComplete n o) s) fun t =>
          rd t Reg.FBCn_STATUS_PROBE n = x.1 ∧ rd t Reg.FBCn_STATUS_PMODE n = x.2 ∧
          (rdB s Reg.FBCn_CTLSTS_PEND n = true → rdB s Reg.FBCn_STATUS_RECOV n = false →
            rd t Reg.FBCn_CTLSTS_PEND n = 0 ∧ rd t Reg.FBCn_CTLSTS_CC n = CC.done))) ∧
    (rdB s Reg.FBCn_CTLSTS_PEND n = false →
      (modeIs s = .halt ∨ modeIs s = .active ∨ modeIs s = .standby ∨ modeIs s = .safehold) →
      (rdB s Reg.FBCn_STATUS_BUSOFF n = true → Completes (exec (.recover n) s) fun t =>
        rd t Reg.FBCn_CTLSTS_PEND n = 1 ∧ rd t Reg.FBCn_STATUS_RECOV n = 1 ∧
        OnlyFields s t [(Reg.FBCn_CTLSTS_PEND, n), (Reg.FBCn_STATUS_RECOV, n)]) ∧
      (rdB s Reg.FBCn_STATUS_BUSOFF n = false → Completes (exec (.recover n) s) fun t =>
        rd t Reg.FBCn_CTLSTS_PEND n = 0 ∧ rd t Reg.FBCn_CTLSTS_CC n = CC.failRefused ∧
        rd t Reg.FBCn_CTLSTS_RSN n = Rsn.notBusoff)) ∧
    (rdB s Reg.FBCn_STATUS_RECOV n = true → Completes (exec (.recoveryComplete n) s) fun t =>
      rd t Reg.FBCn_ERR_TEC n = 0 ∧ rd t Reg.FBCn_ERR_REC n = 0 ∧ rd t Reg.FBCn_STATUS_BUSOFF n = 0 ∧
      rd t Reg.FBCn_STATUS_RECOV n = 0 ∧ rd t Reg.FBCn_STATUS_EPASS n = 0 ∧ rd t Reg.FBCn_CTLSTS_PEND n = 0 ∧
      rd t Reg.FBCn_CTLSTS_CC n = CC.done) ∧
    (rdB s Reg.FBCn_CTLSTS_PEND n = false → modeIs s ≠ .test → Completes (exec (.clearCounters n) s) fun t =>
      rd t Reg.FBCn_ERR_CLASH n = 0 ∧ rd t Reg.FBCn_CTLSTS_PEND n = 0 ∧ rd t Reg.FBCn_CTLSTS_CC n = CC.done ∧
      rd t Reg.FBCn_CTLSTS_RSN n = 0 ∧
      OnlyFields s t [(Reg.FBCn_ERR_CLASH, n), (Reg.FBCn_CTLSTS_PEND, n), (Reg.FBCn_CTLSTS_CC, n),
        (Reg.FBCn_CTLSTS_RSN, n)])) ∧
  (∀ (s : State) (n : Fin 24) (l : Tbl Filt), modeIs s ≠ .test → l = s.fbc[n].filters →
    (∀ i : Nat, i < 63 → tget l i = none → (∀ j, j < i → tget l j ≠ none) →
      Completes (exec (.filterAdd n) s) fun t =>
        rd t Reg.FBCn_FLTSTS_CC n = CC.done ∧ rd t Reg.FBCn_FLTSTS_ADDED n = i ∧
        t.fbc = s.fbc.set n { s.fbc[n] with
          filters := tput l i ⟨BitVec.ofNat 29 (rd s Reg.FBCn_FLTID_FID n),
            rdB s Reg.FBCn_FLTID_IDE n, BitVec.ofNat 29 (rd s Reg.FBCn_FLTMASK_FMASK n), false⟩
          fltWas := s.fbc[n].fltWas ++ [(s.tb.now, l)] }) ∧
    ((∀ j, j < 63 → tget l j ≠ none) → Completes (exec (.filterAdd n) s) fun t =>
      rd t Reg.FBCn_FLTSTS_CC n = CC.failRefused ∧ rd t Reg.FBCn_FLTSTS_RSN n = Rsn.filterFull ∧ t.fbc = s.fbc) ∧
    (∀ i : Fin 64, Completes (exec (.filterRemove n i) s) fun t =>
      match tget l i.val with
      | some f => if f.offload then rd t Reg.FBCn_FLTSTS_CC n = CC.failRefused ∧
            rd t Reg.FBCn_FLTSTS_RSN n = Rsn.notOwner ∧ t.fbc = s.fbc
          else rd t Reg.FBCn_FLTSTS_CC n = CC.done ∧ t.fbc[n].filters = l.filter (fun e => e.1 ≠ i.val)
      | none => rd t Reg.FBCn_FLTSTS_CC n = CC.failRefused ∧ rd t Reg.FBCn_FLTSTS_RSN n = Rsn.notOwner ∧
          t.fbc = s.fbc) ∧
    (Completes (exec (.filterRemoveAll n) s) fun t => rd t Reg.FBCn_FLTSTS_CC n = CC.done ∧
      t.fbc = s.fbc.set n { s.fbc[n] with 
        filters := l.filter (fun e => e.2.offload), fltWas := s.fbc[n].fltWas ++ [(s.tb.now, l)] }))

/-- R231 to R235, R243, R244 (Tables 10.4, 10.6, 10.10): transmission with nothing in the queue of the offload, of a
controller that neither SAVE nor a new record stops. A
request loads TB2, or ends BUSY while it is loaded; a cancel before the commit point ends the request, one after it
waits for the attempt; a frame that completes is put out with its time stamp and lowers TEC; an error raises TEC by 8
(not every one, log entry 29) and above 255 the controller is bus-off and every loaded request ends; a lost
arbitration chooses again, the lowest arbitration key or the lowest buffer by TXORDER; no expired entry stays. -/
def Obligations.BusTransmission : Prop :=
  ∀ (s : State) (n : Fin 24) (c : Ctl), c = s.fbc[n] →
    (∀ (b : BusRec) (f : CanFrame), c.bus = some b → b.en = true → b.tb2Host = true → modeIs s ≠ .test → f = hostFrame c →
      ((c.tb[2]).isSome = true → Completes (exec (.txRequest n) s) fun t =>
        rd t Reg.FBCn_TXSTS2_CC n = CC.failRefused ∧ rd t Reg.FBCn_TXSTS2_RSN n = Rsn.busy ∧ t.fbc = s.fbc) ∧
      (c.tb[2] = none → (f.fdf = true ∨ f.dlc.toNat ≤ 8) → ¬(f.rtr = true ∧ f.fdf = true) →
        (bitsOf (txWord c 1) 4 1 = 1 → b.brs = true) → (f.fdf = true → busClassic s n = false) →
        resState s ⟨.fieldbus, n.val⟩ ≠ .retired → c.stopped = false → c.stopping = false → rdB s Reg.FBCn_STATUS_BUSOFF n = false →
        Completes (exec (.txRequest n) s) fun t =>
          rd t Reg.FBCn_TXSTS2_PEND n = 1 ∧ rd t Reg.FBCn_TXSTS2_RETRIES n = 0 ∧
          t.fbc[n].tb = c.tb.set 2 (some ⟨f, true, none, none, 0, 0, false, false⟩) ∧ t.out = s.out)) ∧
    (c.queue = [] → c.stopping = false → c.nextBus = none →
      (modeIs s ≠ .test → ∀ (p : CancelAt),
        (c.tb[2] = none → Completes (exec (.txCancel n p) s) fun t =>
          rd t Reg.FBCn_TXCMD_CANCC n = CC.failRefused ∧ rd t Reg.FBCn_TXCMD_CANRSN n = Rsn.noFrame ∧ t.fbc = s.fbc) ∧
        (∀ r, c.tb[2] = some r → r.host = true → (p ≠ .afterCommit ∨ c.sel ≠ some 2) →
          Completes (exec (.txCancel n p) s) fun t =>
            rd t Reg.FBCn_TXCMD_CANCC n = CC.done ∧ rd t Reg.FBCn_TXSTS2_CC n = CC.failCancelled ∧
            rd t Reg.FBCn_TXSTS2_PEND n = 0 ∧ t.fbc[n].tb = c.tb.set 2 none) ∧
        (∀ r, c.tb[2] = some r → r.host = true → p = .afterCommit → c.sel = some 2 →
          exec (.txCancel n p) s =
            .next { s with fbc := s.fbc.set n { c with tb := c.tb.set 2 (some { r with cancel := true }) } })) ∧
      ∀ (b : Fin 3) (r : TxReq), c.tb[b] = some r → c.sel = some b →
        (∀ stamp, Completes (exec (.frameTxComplete n b stamp) s) fun t =>
          t.out = s.out ++ [.canFrame n r.frame (r.frame.fdf && rdB s Reg.FBCn_STATUS_EPASS n)] ∧ rd t (txFields b).2.2.2.2 n = stamp / 10 % 2 ^ 32 ∧
          rd t (txFields b).1 n = (if r.errors = 0 then CC.done else CC.doneAfterRetry) ∧
          rd t (txFields b).2.1 n = (if r.host && r.cancel then Rsn.cancelTooLate else 0) ∧
          rd t (txFields b).2.2.1 n = 0 ∧ rd t Reg.FBCn_ERR_TEC n = (rd s Reg.FBCn_ERR_TEC n - 1) % 2 ^ 9 ∧
          t.fbc[n].tb = c.tb.set b none) ∧
        ∀ (e : CanErr) (dp dc : Bool), Completes (exec (.txError n b e dp dc) s) fun t => ∃ add : Nat,
          (if e = .stuff ∧ dp = false ∧ dc = false ∨ e = .ack ∧ rdB s Reg.FBCn_STATUS_EPASS n = true then
            add = 0 ∨ add = 8 else add = 8) ∧
          rd t Reg.FBCn_ERR_TEC n = min 256 (rd s Reg.FBCn_ERR_TEC n + add) ∧ rd t Reg.FBCn_ERR_LEC n = lecOf e ∧
          rdB t Reg.FBCn_ERR_LPH n = dp ∧ rd t (txFields b).2.2.2.1 n = min (r.errors + 1) 127 ∧
          (255 < rd s Reg.FBCn_ERR_TEC n + add → rd t Reg.FBCn_STATUS_BUSOFF n = 1 ∧ ∀ j : Fin 3, t.fbc[n].tb[j] = none) ∧
          (rd s Reg.FBCn_ERR_TEC n + add ≤ 255 → r.cancel = false →
            rd t Reg.FBCn_STATUS_BUSOFF n = rd s Reg.FBCn_STATUS_BUSOFF n ∧
            ∃ r', t.fbc[n].tb[b] = some r' ∧ r'.errors = r.errors + 1 ∧ r'.clash = clashCount r e dc)) ∧
    (∀ (b : Fin 3) (br : BusRec), c.queue = [] → c.stopping = false → c.nextBus = none → c.sel = some b → c.bus = some br → busRuns s n = true →
      Completes (exec (.arbitrationLoss n b) s) fun t =>
        { t with fbc := s.fbc } = s ∧ t.fbc = s.fbc.set n { c with sel := t.fbc[n].sel } ∧
        (t.fbc[n].sel = none → ∀ (j : Fin 3) (r : TxReq), c.tb[j] = some r → busClassic s n = true ∧ r.frame.fdf = true) ∧
        ∀ (j k : Fin 3) (r : TxReq), t.fbc[n].sel = some j → c.tb[k] = some r →
          (busClassic s n = true → r.frame.fdf = false) →
          ∃ q, c.tb[j] = some q ∧ (if br.txOrder then j.val ≤ k.val else arbKey q.frame ≤ arbKey r.frame)) ∧
    (Completes (exec (.queueEntryExpiry n none) s) fun t =>
      (∀ e ∈ t.fbc[n].queue, e ∈ c.queue ∧ s.tb.tick < e.expiry) ∧
      (∀ (b : Fin 3) (r : TxReq) (x : Nat), t.fbc[n].tb[b] = some r → r.expiry = some x → s.tb.tick < x) ∧
      ((∀ b : Fin 3, c.tb[b] = none) → rd t Reg.FBCn_QSTS_EXPIRED n = min (rd s Reg.FBCn_QSTS_EXPIRED n +
        (c.queue.filter fun e => e.expiry ≤ s.tb.tick).length) (2 ^ Reg.FBCn_QSTS_EXPIRED.width - 1)))

/-- R227, R237, R240 to R242, R245, R254 (Tables 10.6, 10.8): reception. A frame no filter takes is counted, one a
filter of the host that was in force at its start takes enters the FIFO of 64 with its filter and time stamp or is counted in RXOVF, a first segment
the offload takes is held; a valid frame lowers REC and an error raises it, by 8 for a bit error (log entry 29). Word
0 of the head frame takes the read lock, its last word and DISCARD remove it. A parity error ends the request or drops
the frame it hits and makes the controller SUSPECT. -/
def Obligations.BusReception : Prop :=
  ∀ (s : State) (n : Fin 24) (c : Ctl), c = s.fbc[n] →
    (busRuns s n = true →
      (∀ (f : CanFrame) (esi : Bool) (sof valid : Nat), rd s Reg.FBCn_ERR_REC n ≤ 127 →
        (filtTake (filtersAt s n sof).1 f = none → Completes (exec (.frameRx n f esi sof valid) s) fun t =>
          rd t Reg.FBCn_RXSTS_UNMATCHED n =
            min (rd s Reg.FBCn_RXSTS_UNMATCHED n + 1) (2 ^ Reg.FBCn_RXSTS_UNMATCHED.width - 1) ∧
          rd t Reg.FBCn_ERR_REC n = rd s Reg.FBCn_ERR_REC n - 1 ∧ t.fbc[n].fifo = c.fifo) ∧
        (∀ i flt, filtTake (filtersAt s n sof).1 f = some (i, flt) → flt.offload = false →
          Completes (exec (.frameRx n f esi sof valid) s) fun t =>
            rd t Reg.FBCn_ERR_REC n = rd s Reg.FBCn_ERR_REC n - 1 ∧
            if c.fifo.length < 64 then
              t.fbc[n].fifo = c.fifo ++ [⟨f, esi, f.fdf, i, BitVec.ofNat 32 (sof / 10)⟩] ∧
              rd t Reg.FBCn_RXSTS_COUNT n = c.fifo.length + 1 ∧
              rd t Reg.FBCn_RXSTS_RXOVF n = rd s Reg.FBCn_RXSTS_RXOVF n
            else t.fbc[n].fifo = c.fifo ∧ rd t Reg.FBCn_RXSTS_RXOVF n =
              min (rd s Reg.FBCn_RXSTS_RXOVF n + 1) (2 ^ Reg.FBCn_RXSTS_RXOVF.width - 1)) ∧
        (∀ i flt d l, filtTake (filtersAt s n sof).1 f = some (i, flt) → flt.offload = true → frameData f = d :: l →
          d.toNat % 8 = 0 → d.getLsbD 7 = false → tget c.parts f.id.toNat = none →
          Completes (exec (.frameRx n f esi sof valid) s) fun t =>
            tget t.fbc[n].parts f.id.toNat = some ⟨1, l, valid⟩ ∧ t.fbc[n].fifo = c.fifo)) ∧
      ∀ (e : CanErr) (dp : Bool), Completes (exec (.receiveError n e dp) s) fun t =>
        rd t Reg.FBCn_ERR_REC n =
          min 255 (rd s Reg.FBCn_ERR_REC n + if e = .bit0 ∨ e = .bit1 then 8 else 1) ∧ rd t Reg.FBCn_ERR_LEC n = lecOf e ∧
        rdB t Reg.FBCn_ERR_LPH n = dp ∧
        rdB t Reg.FBCn_STATUS_EPASS n = decide (128 ≤ rd s Reg.FBCn_ERR_TEC n ∨ 128 ≤ rd t Reg.FBCn_ERR_REC n)) ∧
    (c.fifo = [] → exec (.rxwinHeadRead n) s = .next (emit s (.readData 0)) ∧
      exec (.rxwinLastRead n) s = .next (emit s (.readData 0))) ∧
    (∀ f l, c.fifo = f :: l →
      (Completes (exec (.rxwinHeadRead n) s) fun t => rd t Reg.FBCn_RXSTS_LOCK n = 1 ∧ t.fbc = s.fbc ∧
        t.out = s.out ++ [.readData (BitVec.ofNat 64 (rxWord f 0))]) ∧
      (Completes (exec (.rxwinLastRead n) s) fun t => rd t Reg.FBCn_RXSTS_LOCK n = 0 ∧ t.fbc[n].fifo = l ∧
        rd t Reg.FBCn_RXSTS_COUNT n = l.length % 2 ^ Reg.FBCn_RXSTS_COUNT.width ∧
        t.out = s.out ++ [.readData (BitVec.ofNat 64 (rxWord f (rxLast f)))]) ∧
      (Completes (exec (.rxDiscard n) s) fun t => rd t Reg.FBCn_RXSTS_LOCK n = 0 ∧ t.fbc[n].fifo = l ∧
        rd t Reg.FBCn_RXSTS_COUNT n = l.length % 2 ^ Reg.FBCn_RXSTS_COUNT.width ∧ t.out = s.out)) ∧
    (rd s Reg.FBCn_STATUS_MSTATE n = mstateCode .inService → WindowRuns s ⟨.fieldbus, n.val⟩ → c.queue = [] →
      c.stopping = false → c.nextBus = none → ∀ (tx : Option (Fin 3)) (rx : Option (Fin 64)),
      Completes (exec (.fbcParityError n tx rx) s) fun t =>
        rd t Reg.FBCn_STATUS_MSTATE n = mstateCode .suspect ∧ rd t Reg.FBCn_STATUS_FCOUNT n = 1 ∧
        t.ssu.windows = s.ssu.windows ++ [⟨⟨.fieldbus, n.val⟩, .inService, s.tb.tick⟩] ∧
        (∀ b r, tx = some b → c.tb[b] = some r → t.fbc[n].tb[b] = none ∧
          rd t (txFields b).1 n = CC.failTransientExhausted ∧ rd t (txFields b).2.1 n = Rsn.parity ∧
          rd t (txFields b).2.2.1 n = 0) ∧
        (∀ i : Fin 64, rx = some i → i.val < c.fifo.length → t.fbc[n].fifo = c.fifo.eraseIdx i.val ∧
          rd t Reg.FBCn_RXSTS_RXOVF n =
            min (rd s Reg.FBCn_RXSTS_RXOVF n + 1) (2 ^ Reg.FBCn_RXSTS_RXOVF.width - 1)))

/-- R249 to R252, R256, R259 to R261, R264, R270, R278: what the offload makes of a message of a station. On a link that
takes it a message of the right VER and LEN becomes an input stamped at its receipt, one of a wrong VER or LEN or from
another endpoint than its context's is counted in BADMSG, and one that names no session is answered with a REJOIN, at
most one a second to an endpoint. One that a port does not take is counted in DROPPED. The contexts change only when the
input is agreed. -/
def Obligations.VertexMessages : Prop :=
  ∀ (s : State) (ep : Endpoint) (stamp : Nat) (h : VHead), vListens s = true →
    (linkTakes s ep h.dst = true →
      let dropped := fun (m : Instr) => Completes (exec m s) fun t => t.npc = s.npc ∧ t.tb = (advance s stamp).tb ∧
        t.rdu = s.rdu ∧ rd t Reg.NPC_VSUM_BADMSG = min (rd s Reg.NPC_VSUM_BADMSG + 1) 255
      let taken := fun (m : Instr) (typ len sid : Nat) (b : InBody) =>
        (h.ver = 1 → h.len.toNat = len → Completes (exec m s) fun t => t.npc = s.npc ∧ t.tb = (advance s stamp).tb ∧
          t.flds = s.flds ∧ t.rdu = { s.rdu with
            fseqOut := t.rdu.fseqOut
            own := listPut s.rdu.own (tickOf s stamp) ⟨stamp, ⟨(vSource s ep typ h.stream.toNat sid b).1,
              (vSource s ep typ h.stream.toNat sid b).2⟩, ownSide s, b⟩ }) ∧
        ((h.ver ≠ 1 ∨ h.len.toNat ≠ len) → dropped m)
      let ofSession := fun (m : Instr) (typ len : Nat) (b : InBody) =>
        modeIs s ≠ .resync → h.ver = 1 → h.len.toNat = len →
        (∀ v c, streamCtx s h.stream.toNat = some (v, c) → c.session = h.session →
          (sameSource c.endpoint ep = true → taken m typ len 0 b) ∧ (sameSource c.endpoint ep = false → dropped m)) ∧
        (((streamCtx s h.stream.toNat).all fun e => e.2.session ≠ h.session) = true → ∀ (key : Nat) (u : State),
          key = (match ep.link with | .bus _ => h.stream.toNat % 2048 | .port _ => 0) → u = advance s stamp →
          Completes (exec m s) fun t => t.rdu = s.rdu ∧ t.npc.ctxs = s.npc.ctxs ∧ t.tb = u.tb ∧
            if ∃ e ∈ s.npc.rejoined, sameSource e.1 ep = true ∧ e.2.1 = key ∧ u.tb.now < e.2.2 + 1000000000 then
              t.npc = s.npc ∧ t.out = s.out
            else (ep, key, u.tb.now) ∈ t.npc.rejoined ∧
              (emitMode s = .standby → t.out = s.out ∧
                t.npc.rejoins = s.npc.rejoins ++ [(ep, h.stream.toNat, h.stream.toNat % 2048)]) ∧
              ∀ p r, ep.link = .port p → portRec s p = some r → emitMode s ≠ .standby →
                t.out = s.out ++ [.udp (portSrc s r ep.addr) ep 4 ⟨1, h.stream, 0, myClaim s, 0, 0, ep.addr⟩ []])
      (∀ j : JoinBody,
        (j.stationId ≠ 0 → taken (.join ep stamp h j) 1 24 j.stationId.toNat (.join ep j)) ∧
        (j.stationId = 0 → dropped (.join ep stamp h j))) ∧
      (∀ i : BitVec 64,
        (((s.npc.ctxs.find? (·.2.stationId = i)).all fun e => sameSource e.2.endpoint ep) = true →
          taken (.leave ep stamp h i) 3 8 i.toNat (.leave ep i)) ∧
        (∀ v c, s.npc.ctxs.find? (·.2.stationId = i) = some (v, c) → sameSource c.endpoint ep = false →
          dropped (.leave ep stamp h i))) ∧
      (∀ a, ofSession (.cack ep stamp h a) 0x11 4 (.cack ep h.stream h.session a)) ∧
      (∀ a l, ofSession (.report ep stamp h a l) 0x20 (4 + blockLen l.length)
        (.report ep h.stream h.session h.seq a l)) ∧
      ∀ x, ofSession (.mismatch ep stamp h x) 0x12 28 (.mismatch ep h.stream h.session x)) ∧
    (∀ (p : Fin 16) (m : Instr) j i a l x, linkTakes s ep h.dst = false → ep.link = .port p → portUp s p = true →
      (m = .join ep stamp h j ∨ m = .leave ep stamp h i ∨ m = .cack ep stamp h a ∨ m = .report ep stamp h a l ∨
        m = .mismatch ep stamp h x) →
      Completes (exec m s) fun t =>
        rd t Reg.NPCp_STATUS_DROPPED p.val =
          min (rd s Reg.NPCp_STATUS_DROPPED p.val + 1) (2 ^ Reg.NPCp_STATUS_DROPPED.width - 1) ∧
        OnlyFields s t [(Reg.NPCp_STATUS_DROPPED, p.val)])

/-- R254, R264, R266, R271: the times of a context. A copy unended at its limit ends, counted in UNREACH, and the context
becomes unreachable; so it does when reports are missing, its copies standing; a delivery run is written after a second;
segments without a successor are dropped after 10,000 nominal bit times and counted.

R259, R274 (Table 11.15): the context commands with none pending. In HALT they act at once on an admitted context, a
RELEASE freeing it and CLEARMM clearing its count, and end NOT_ADMITTED for any other; in the running modes and SAFEHOLD
they are inputs to the tick. -/
def Obligations.VertexTimesAndCommands : Prop :=
  (∀ (s : State) (v : Fin 2048) (c : Ctx), tget s.npc.ctxs v.val = some c →
    (∀ k ∈ c.copies, k.first + (k.retry + 1) * k.ackTo ≤ s.tb.tick →
      Completes (exec (.copyTimeout v) s) fun t => rdB t Reg.NPC_VSTS_REACH v.val = false ∧
        ∃ c', tget t.npc.ctxs v.val = some c' ∧ c'.session = c.session ∧ c'.lastSeq = c.lastSeq ∧
          (∀ k' ∈ c'.copies, k' ∈ c.copies ∧ s.tb.tick < k'.first + (k'.retry + 1) * k'.ackTo) ∧
          (c.copies = [k] → rd t Reg.NPC_VCNT2_UNREACH v.val =
            min (rd s Reg.NPC_VCNT2_UNREACH v.val + 1) (2 ^ Reg.NPC_VCNT2_UNREACH.width - 1))) ∧
    ((∀ k ∈ c.copies, s.tb.tick < k.first + (k.retry + 1) * k.ackTo) → exec (.copyTimeout v) s = .next s) ∧
    (linkStopped s c.endpoint.link = false →
      (c.missFrom + c.missMax * c.rpTicks ≤ s.tb.tick → Completes (exec (.reportMiss v) s) fun t =>
        rdB t Reg.NPC_VSTS_REACH v.val = false ∧ t.npc = s.npc) ∧
      (s.tb.tick < c.missFrom + c.missMax * c.rpTicks → exec (.reportMiss v) s = .next s)) ∧
    (∀ r, c.run = some r →
      (r.since + 1000000000 ≤ s.tb.now → Completes (exec (.deliveryRunTimeout v) s) fun t =>
        tget t.npc.ctxs v.val = some { c with run := none } ∧
        (rdB s Reg.NPC_VRCFG_EN = false →
          rd t Reg.NPC_VRDROP_VRDROP = min (rd s Reg.NPC_VRDROP_VRDROP + 1) (2 ^ 32 - 1)) ∧
        (rdB s Reg.NPC_VRCFG_EN = true → rd s Reg.NPC_VRHEAD_HEAD = rd s Reg.NPC_VRREAD_READ →
          rd t Reg.NPC_VRHEAD_HEAD = (rd s Reg.NPC_VRHEAD_HEAD + 1) % 2 ^ 32)) ∧
      (s.tb.now < r.since + 1000000000 → exec (.deliveryRunTimeout v) s = .next s)) ∧
    ∀ (n : Fin 24) (id : BitVec 29) (p : Partial) (b : BusRec), tget s.fbc[n].parts id.toNat = some p →
      s.fbc[n].bus = some b →
      p.last + 10000 * (b.nbrp * (1 + b.ntseg1 + b.ntseg2)) * 25 / 2 ≤ s.tb.now →
      Completes (exec (.segmentTimeout n id) s) fun t => tget t.fbc[n].parts id.toNat = none ∧
        rd t Reg.NPC_VSUM_BADMSG = min (rd s Reg.NPC_VSUM_BADMSG + 1) 255 ∧ t.fbc[n].fifo = s.fbc[n].fifo) ∧
  (∀ (s : State) (v : Fin 2048), rdB s Reg.NPC_VCMDSTS_PEND = false →
    (modeIs s = .halt → (tget s.npc.ctxs v.val).isSome = true →
      (Completes (exec (.vcmdRelease v) s) fun t => tget t.npc.ctxs v.val = none ∧ rd t Reg.NPC_VSTS_ADM v.val = 0 ∧
        rd t Reg.NPC_VSTS_QUAL v.val = qualCode .bad ∧ rd t Reg.NPC_VCMDSTS_CC = CC.done ∧
        rd t Reg.NPC_VCMDSTS_PEND = 0 ∧ ∀ w, w ≠ v.val → tget t.npc.ctxs w = tget s.npc.ctxs w) ∧
      (Completes (exec (.clearmm v) s) fun t => rd t Reg.NPC_VMM_MMCNT v.val = 0 ∧
        rd t Reg.NPC_VCMDSTS_CC = CC.done ∧ rd t Reg.NPC_VCMDSTS_PEND = 0 ∧ (tget t.npc.ctxs v.val).isSome = true)) ∧
    (∀ (c : Instr) (b : InBody), (c = .vcmdRelease v ∧ b = .release v.val ∨ c = .clearmm v ∧ b = .clearMm v.val) →
      (modeIs s = .halt → tget s.npc.ctxs v.val = none → Completes (exec c s) fun t =>
        rd t Reg.NPC_VCMDSTS_CC = CC.failRefused ∧ rd t Reg.NPC_VCMDSTS_RSN = Rsn.notAdmitted ∧
        rd t Reg.NPC_VCMDSTS_PEND = 0 ∧ t.npc = s.npc) ∧
      ((modeIs s = .active ∨ modeIs s = .standby ∨ modeIs s = .safehold) → Completes (exec c s) fun t =>
        rd t Reg.NPC_VCMDSTS_PEND = 1 ∧ t.npc = s.npc ∧ t.rdu.own = listPut s.rdu.own (tickOf s s.tb.now)
          ⟨s.tb.now, ⟨64, Reg.NPC_VCMD_CMD.addr⟩, ownSide s, b⟩)))

/-- R309, R310: CLAIMNOTEs. An ACTIVE unit sends its claim to every group endpoint of every port that is up, another sends
none; one of the other side of the own member is heard: it shows in PCLAIM, and an ACTIVE unit that hears one above its
own, a STANDBY unit that hears one above its partner's and side B that hears its own have the cause to resynchronise.

R267 to R269: the receiver of a command stream. A JOIN_ACK with RESULT 0 clears its stream state. A newer copy under the
highest claim heard within CW, or one below it, is acted on and acknowledged; under a lower claim it is counted alone; an
older copy is acknowledged when its SEQ and claim are known, reported when its digest differs, and counted when it is too
late. Without a CMD for RPTICKS + CW ticks the receiver takes its safe state. -/
def Obligations.ClaimsAndStationReceiver : Prop :=
  (∀ (s : State),
    (modeIs s = .active → Completes (exec .claimnoteSend s) fun t => { t with out := s.out } = s ∧
      ∃ l, t.out = s.out ++ l ∧
        (∀ o ∈ l, ∃ sr ep h b, o = .udp sr ep 5 h b ∧ h.claim = myClaim s ∧ b =
          [if ownSide s then 1 else 0, BitVec.ofNat 8 (ownMember s).val, 0, 0]) ∧
        ∀ p r, portRec s p = some r → portUp s p = true → ∀ ep ∈ groupEps s p r,
          ∃ h b, Out.udp (portSrc s r ep.addr) ep 5 h b ∈ l) ∧
    (modeIs s ≠ .active → exec .claimnoteSend s = .next s) ∧
    ∀ (p : Fin 16) (claim : BitVec 32), portUp s p = true → vListens s = true →
      (∀ side, side ≠ ownSide s → Completes (exec (.claimnote p (ownMember s) side claim) s) fun t =>
        rd t Reg.RDU_PCLAIM_PARTNER = claim.toNat ∧
        ∀ own, s.rdu.claimHeld = some own →
          ((modeIs s = .active ∧ own.toNat < claim.toNat ∨ modeIs s = .standby ∧ own.toNat + 1 < claim.toNat ∨
              (modeIs s = .active ∨ modeIs s = .standby) ∧ claim = own ∧ ownSide s = true) →
            .higherClaim claim ∈ t.ssu.causes) ∧
          (claim.toNat < own.toNat → t.ssu = s.ssu)) ∧
      (∀ m side, (m ≠ ownMember s ∨ side = ownSide s) → exec (.claimnote p m side claim) s = .next s)) ∧
  (∀ (s : State) (sid : BitVec 64),
    (∀ b : JoinAckBody, b.stationId = sid → b.result = 0 → Completes (exec (.joinAck sid b) s) fun t =>
      (∃ r, recvOf t sid = some r ∧ r.stream = b.stream ∧ r.session = b.session ∧ r.last = 0 ∧ r.hist = [] ∧
        r.heard = [] ∧ r.cw = b.cw ∧ r.rpTicks = b.rpTicks ∧ r.tickNs = b.tickNs) ∧
      (∀ x, x ≠ sid → recvOf t x = recvOf s x) ∧ { t with recvs := s.recvs } = s) ∧
    (∀ b : JoinAckBody, (b.stationId ≠ sid ∨ b.result ≠ 0) → exec (.joinAck sid b) s = .next s) ∧
    ∀ (r : Recv), recvOf s sid = some r →
      (∀ (c : CmdCopy) (now : Nat),
        ((c.stream ≠ r.stream ∨ c.session ≠ r.session) → exec (.cmdCopy sid c now) s = .next s) ∧
        (c.stream = r.stream → c.session = r.session →
          (newer32 c.seq r.last = true →
            ((∀ e ∈ r.heard, e.1.toNat ≤ c.claim.toNat + 1) → Completes (exec (.cmdCopy sid c now) s) fun t =>
              t.out = s.out ++ [.cack r.stream r.session c.seq] ∧ ∃ r', recvOf t sid = some r' ∧ r'.last = c.seq ∧
                r'.acted = c.elems ∧ r'.safe = false ∧ r'.lastCmd = now) ∧
            (∀ e ∈ r.heard, now ≤ e.2 + r.cw * r.tickNs → c.claim.toNat + 1 < e.1.toNat →
              Completes (exec (.cmdCopy sid c now) s) fun t => t.out = s.out ∧ ∃ r', recvOf t sid = some r' ∧
                r'.last = r.last ∧ r'.acted = r.acted ∧ r'.lowClaim = r.lowClaim + 1)) ∧
          (newer32 c.seq r.last = false →
            (∀ q cl dg, r.hist.find? (·.1 = c.seq) = some (q, cl, dg) →
              Completes (exec (.cmdCopy sid c now) s) fun t =>
                t.out = s.out
                  ++ (if dg ≠ c.digest ∧ q ∉ r.mmSent then
                    [.mismatch r.stream r.session ⟨q, cl, c.claim, dg, c.digest⟩] else [])
                  ++ (if c.claim = cl then [.cack r.stream r.session r.last] else []) ∧
                ∃ r', recvOf t sid = some r' ∧ r'.last = r.last ∧ r'.acted = r.acted) ∧
            (r.hist.find? (·.1 = c.seq) = none → Completes (exec (.cmdCopy sid c now) s) fun t => t.out = s.out ∧
              ∃ r', recvOf t sid = some r' ∧ r'.late = r.late + 1 ∧ r'.acted = r.acted)))) ∧
      ∀ now : Nat,
        (r.lastCmd + (r.rpTicks + r.cw) * r.tickNs ≤ now → Completes (exec (.receiverSafeState sid now) s) fun t =>
          recvOf t sid = some { r with safe := true } ∧ { t with recvs := s.recvs } = s) ∧
        (now < r.lastCmd + (r.rpTicks + r.cw) * r.tickNs → exec (.receiverSafeState sid now) s = .next s))

/-- R276, R278, R281 to R283, R249, R391 (Tables 12.1, 12.10): the ports. A link comes up at a speed its record allows
and shows its part in PTP, one refused stays down with ANEGF; a link that falls loses its PTP source; a parity error
makes a port in service SUSPECT and ends the copy whose transmit it cuts (log entry 99); requests for an own address are
answered to their sender, and frames not accepted or malformed counted.
-/
def Obligations.PortEvents : Prop :=
  ∀ (s : State) (p : Fin 16),
    (∀ (r : PortRec) (speed : Fin 4), portRec s p = some r → linkRetired s (.port p) = false →
      (speedAllowed r speed.val = true → Completes (exec (.linkUp p speed false) s) fun t =>
        rd t Reg.NPCp_STATUS_LINK p.val = 1 ∧ rd t Reg.NPCp_STATUS_SPEED p.val = speed.val ∧
        rd t Reg.NPCp_STATUS_ANEGF p.val = 0 ∧
        rd t Reg.NPCp_STATUS_PTPST p.val =
          if ptpSlave s p then (if rd s Reg.NPCp_STATUS_PTPST p.val = 2 then 2 else 1) else if ptpMaster s p then 3 else 0) ∧
      (∀ refused, (refused = true ∨ speedAllowed r speed.val = false) →
        Completes (exec (.linkUp p speed refused) s) fun t => rd t Reg.NPCp_STATUS_LINK p.val = 0 ∧
          rd t Reg.NPCp_STATUS_ANEGF p.val = 1 ∧ rd t Reg.NPCp_STATUS_PTPST p.val = 0)) ∧
    (Completes (exec (.linkDown p) s) fun t => rd t Reg.NPCp_STATUS_LINK p.val = 0 ∧
      rd t Reg.NPCp_STATUS_PTPST p.val = 0 ∧ (ptpSlave s p = true → rd t Reg.TBC_DSTS_PTPQ = 0) ∧
      rd t Reg.NPCp_STATUS_QUAL p.val =
        qualCode (if linkRetired s (.port p) then .retired else .stale) ∧ t.npc.ctxs = s.npc.ctxs) ∧
    (rd s Reg.NPCp_STATUS_MSTATE p.val = mstateCode .inService → WindowRuns s ⟨.network, p.val⟩ →
      (Completes (exec (.portParityError ⟨p, none⟩) s) fun t =>
        rd t Reg.NPCp_STATUS_MSTATE p.val = mstateCode .suspect ∧ rd t Reg.NPCp_STATUS_FCOUNT p.val = 1 ∧
        t.ssu.windows = s.ssu.windows ++ [⟨⟨.network, p.val⟩, .inService, s.tb.tick⟩] ∧
        OnlyFields { s with ssu := t.ssu } t [(Reg.NPCp_STATUS_MSTATE, p.val), (Reg.NPCp_STATUS_FCOUNT, p.val)]) ∧
      ∀ (v : Fin 2048) (c : Ctx), tget s.npc.ctxs v.val = some c → c.endpoint.link = .port p →
        (∃ k ∈ c.copies, k.seq = c.lastSeq) → c.run = none → Completes (exec (.portParityError ⟨p, some v⟩) s) fun t =>
          rd t Reg.NPCp_STATUS_MSTATE p.val = mstateCode .suspect ∧ tget t.npc.ctxs v.val = some { c with
            copies := c.copies.filter (·.seq ≠ c.lastSeq)
            run := some ⟨CC.failTransientExhausted, Rsn.parity, c.lastSeq, 1, s.tb.now⟩ }) ∧
    (portUp s p = true →
      (∀ (r : PortRec) k src mac, vListens s = true → portRec s p = some r →
        (answers s r k src = true → exec (.arpEchoReply p k src mac) s =
          .next (emit s (.reply p k (portSrc s r src.target) src.addr mac))) ∧
        (answers s r k src = false → Completes (exec (.arpEchoReply p k src mac) s) fun t =>
          rd t Reg.NPCp_STATUS_DROPPED p.val =
            min (rd s Reg.NPCp_STATUS_DROPPED p.val + 1) (2 ^ Reg.NPCp_STATUS_DROPPED.width - 1) ∧
          OnlyFields s t [(Reg.NPCp_STATUS_DROPPED, p.val)])) ∧
      ∀ k, Completes (exec (.frameDropped p k) s) fun t =>
        if k = .notAccepted then
          rd t Reg.NPCp_STATUS_DROPPED p.val =
            min (rd s Reg.NPCp_STATUS_DROPPED p.val + 1) (2 ^ Reg.NPCp_STATUS_DROPPED.width - 1) ∧
          OnlyFields s t [(Reg.NPCp_STATUS_DROPPED, p.val)]
        else rd t Reg.NPC_VSUM_BADMSG = min (rd s Reg.NPC_VSUM_BADMSG + 1) 255 ∧
          OnlyFields s t [(Reg.NPC_VSUM_BADMSG, 0)])

/-- R285, R288, R289 (Tables 12.4, 12.9): vectors and DMA queues. Clearing a mask sends a pending message once; the
doorbell sets the head alone; a descriptor that ends writes its code and reason, then DONE, then TAIL, then raises the
vector; a queue starts only with a ring of 2^6 to 2^12 entries, the descriptors a reset left being reported first. -/
def Obligations.VectorsAndDma : Prop :=
  ∀ (s : State),
    (∀ v : Fin 64, Completes (exec (.msixUnmask v) s) fun t => msixMasked t v.val = false ∧ t.flds = s.flds ∧
      (v.val ∈ s.hmx.msixPend → t.out = s.out ++ [.msix v.val] ∧ v.val ∉ t.hmx.msixPend) ∧
      (v.val ∉ s.hmx.msixPend → t.out = s.out ∧ t.hmx.msixPend = s.hmx.msixPend)) ∧
    ∀ (q : Fin 4),
      (∀ head, exec (.dmaDoorbell q head) s =
        .next { s with hmx := { s.hmx with dmaHead := s.hmx.dmaHead.set q head.toNat } }) ∧
      (dmaBusy s q = true → lsvRuns s = true → ∀ (d : List Byte) (seen : DmaSeen) (slot : Nat),
        slot = rd64 s Reg.HMX_DMABASE_LO_BASE Reg.HMX_DMABASE_HI_BASE q +
          32 * (rd s Reg.HMX_DMATAIL_TAIL q % 2 ^ rd s Reg.HMX_DMACFG_LOG q) →
        Completes (exec (.dmaDescriptorEnd q d seen) s) fun t =>
          rd t Reg.HMX_DMATAIL_TAIL q = (rd s Reg.HMX_DMATAIL_TAIL q + 1) % 2 ^ 32 ∧
          ∃ (l : List Out) (code rsn : Nat),
            t.out = s.out ++ l ++ (if rsn = Rsn.hostAbort then [.aer] else []) ++
              [.hostWrite (slot + 21) [BitVec.ofNat 8 code, BitVec.ofNat 8 rsn],
              .hostWrite (slot + 23) [1]] ++
              (if msixMasked s (rd s Reg.HMX_DMACFG_VEC q) then [] else [.msix (rd s Reg.HMX_DMACFG_VEC q)]) ∧
            match dmaCheck s d with
            | some r => l = [] ∧ (code, rsn) = r ∧ t.hmx.sram = s.hmx.sram ∧ t.hmx.ddr = s.hmx.ddr
            | none =>
              (code, rsn) = (if s.hmx.dmaEcc[q] then (CC.failTransientExhausted, Rsn.memEcc) else match seen with
                | .ok _ => (CC.done, 0)
                | .hostAbort _ => if inWindow (leAt d 0 8) && inWindow (leAt d 8 8) then (CC.done, 0)
                    else (CC.failPeerUnreachable, Rsn.hostAbort)
                | .memEcc => if inWindow (leAt d 0 8) then (CC.failTransientExhausted, Rsn.memEcc) else (CC.done, 0)) ∧
              (inWindow (leAt d 8 8) = true → l = []) ∧
              (inWindow (leAt d 8 8) = false → ∃ bs, l = [.hostWrite (lowAddr (leAt d 8 8)) bs]) ∧
              ∀ bs, (seen = .ok bs ∨ seen = .hostAbort bs) → inWindow (leAt d 0 8) = false → ∃ k,
                (code = CC.done → bs.length ≤ k) ∧
                let w := windowWrite s (lowAddr (leAt d 8 8)) ((bs.take (leAt d 16 4)).take k)
                t.hmx.sram = w.hmx.sram ∧ t.hmx.ddr = w.hmx.ddr) ∧
      ∀ (v : BitVec 32) (left : List LeftDesc),
        (v.toNat % 2 = 0 → Completes (exec (.dmaQueueEnable q v left) s) fun t =>
          rd t Reg.HMX_DMACFG_EN q = 0 ∧ rd t Reg.HMX_DMACFG_VEC q = bitsOf v.toNat 5 6 ∧ t.hmx = s.hmx ∧
          t.out = s.out) ∧
        (v.toNat % 2 = 1 → rd s Reg.HMX_DMACFG_EN q = 0 →
          ((bitsOf v.toNat 1 4 < 6 ∨ 12 < bitsOf v.toNat 1 4) →
            Completes (exec (.dmaQueueEnable q v left) s) fun t => rd t Reg.HMX_DMACFG_EN q = 0 ∧ t.out = s.out) ∧
          (6 ≤ bitsOf v.toNat 1 4 → bitsOf v.toNat 1 4 ≤ 12 →
            Completes (exec (.dmaQueueEnable q v left) s) fun t =>
              rd t Reg.HMX_DMACFG_EN q = 1 ∧ rd t Reg.HMX_DMACFG_LOG q = bitsOf v.toNat 1 4 ∧
              rd t Reg.HMX_DMACFG_VEC q = bitsOf v.toNat 5 6 ∧ t.hmx.left[q.val] = none ∧
              (s.hmx.left[q.val] = none → t.out = s.out) ∧
              ∀ e, s.hmx.left[q.val] = some e → rd s Reg.HMX_DMATAIL_TAIL q < 2 ^ 32 →
                rd t Reg.HMX_DMATAIL_TAIL q = (rd s Reg.HMX_DMATAIL_TAIL q + min (2 ^ bitsOf v.toNat 1 4)
                  ((s.hmx.dmaHead[q] + 2 ^ 32 - rd s Reg.HMX_DMATAIL_TAIL q) % 2 ^ 32)) % 2 ^ 32))

/-- R284, R286, R287, R290, R291, R294, R295: host memory and the link. A refused BAR2 access reads 0 or changes
nothing and is counted; training shows each channel, its rate and the size; an uncorrectable error is an upset of its
channel, spoils the copy of the descriptor it hits or poisons the read; patrol corrections count; a trained link shows
its rate and width and answers configuration requests (log entry 100); an endpoint reset disables every ring, drops the held jobs and marks what each ring left. -/
def Obligations.HostMemoryEvents : Prop :=
  ∀ (s : State),
    (∀ (off n : Nat) (w : Option (List Byte)), windowOk s (bar2Addr s off) n = false →
      Completes (exec (.bar2Refused off n w) s) fun t =>
        rd t Reg.HMX_HERR_ACC = min (rd s Reg.HMX_HERR_ACC + 1) 65535 ∧ OnlyFields { s with out := t.out } t
          [(Reg.HMX_HERR_ACC, 0)] ∧ t.out = s.out ++ (if w.isNone then [.readData 0] else [])) ∧
    (∀ (off n : Nat) (bs : List Byte), windowOk s (bar2Addr s off) n = true →
      exec (.bar2Refused off n (some bs)) s = .next (windowWrite s (bar2Addr s off) (bs.take n))) ∧
    (modeIs s = .recall → rd s Reg.HMX_DDRCFG_DRAM ≠ 0 → ∀ (c0 c1 : Option (Fin 4)) (size : BitVec 10),
      (∀ r, (c0 = some r ∨ c1 = some r) → rd s Reg.HMX_DDRCFG_RATE ≤ r.val) → 128 ≤ size.toNat → size.toNat ≤ 512 →
      Completes (exec (.ddrTrainComplete c0 c1 size) s) fun t =>
        rdB t Reg.HMX_DDRSTS_CH0 = c0.isSome ∧ rdB t Reg.HMX_DDRSTS_CH1 = c1.isSome ∧
        (∀ r, c0 = some r → rd t Reg.HMX_DDRSTS_RATE0 = r.val) ∧
        (∀ r, c1 = some r → rd t Reg.HMX_DDRSTS_RATE1 = r.val) ∧
        rd t Reg.HMX_DDRSTS_SIZE = if c0 = none ∧ c1 = none then 0
          else if c0 = none ∨ c1 = none then size.toNat / 2 else size.toNat) ∧
    (ddrAwake s = true → ∀ (ch : Fin 2) (place : Nat), resState s ⟨.solver, 16 + ch.val⟩ = .inService →
      Completes (exec (.ddrUncorrectable ch place) s) fun t =>
        (5 ≤ place → t = { s with out := s.out ++ [.poisoned], ssu := t.ssu } ∧
          t.ssu.windows = s.ssu.windows ++ [⟨⟨.solver, 16 + ch.val⟩, .inService, s.tb.tick⟩]) ∧
        (∀ q : Fin 4, place = q.val + 1 → dmaBusy s q = true →
          t.hmx = { s.hmx with dmaEcc := s.hmx.dmaEcc.set q true } ∧ t.out = s.out)) ∧
    (ddrAwake s = true → ∀ k, Completes (exec (.ddrPatrolScrub k) s) fun t =>
      rd t Reg.HMX_DDRSTS_CORR = min (rd s Reg.HMX_DDRSTS_CORR + k) 65535 ∧ OnlyFields s t [(Reg.HMX_DDRSTS_CORR, 0)]) ∧
    (∀ (gen : Fin 4) (width : Fin 8), (width = 1 ∨ width = 2 ∨ width = 4) → Completes (exec (.pcieLinkTrained gen width) s) fun t =>
      rd t Reg.HMX_STATUS_GEN = gen.val ∧ rd t Reg.HMX_STATUS_WIDTH = width.val ∧ rd t Reg.HMX_STATUS_LINKUP = 1 ∧
      rd t Reg.HMX_STATUS_QUAL = qualCode .good ∧ (pcieConfig t).isSome = true ∧
      OnlyFields { s with hmx := { s.hmx with cfgReady := true } } t [(Reg.HMX_STATUS_GEN, 0), (Reg.HMX_STATUS_WIDTH, 0),
        (Reg.HMX_STATUS_LINKUP, 0), (Reg.HMX_STATUS_QUAL, 0)]) ∧
    (Completes (exec .endpointReset s) fun t =>
      rd t Reg.HMX_STATUS_LINKUP = 0 ∧ rd t Reg.HMX_STATUS_EPRST = min (rd s Reg.HMX_STATUS_EPRST + 1) 255 ∧
      rd t Reg.HMX_STATUS_QUAL = qualCode .stale ∧ pcieConfig t = none ∧ rd t Reg.LSV_RINGCFG_EN = 0 ∧ rd t Reg.MTE_LRCFG_EN = 0 ∧
      rd t Reg.NPC_VRCFG_EN = 0 ∧ (∀ q : Fin 4, rd t Reg.HMX_DMACFG_EN q = 0) ∧ t.lsv.held = [] ∧ t.ssu.quote = none ∧
      ∀ i : Fin 5, t.hmx.left[i] = some ((s.hmx.left[i]).getD (CC.failAbandoned, Rsn.hostReset)))

/-- R297 to R300 (Table 13.17): a Chord link. Trained on at least one lane it has lock and says HELLO; without lock it is
unpaired; a corrupt frame is counted and an upset; its latency is measured. A HELLO pairs it when side, tick, agreement
margin, version and latency fit, else its reason is shown. A new frame tells the partner's mode, and so does one
that fills a gap; one already taken tells nothing more, and a gap is requested again once.

R298 (Table 13.17): why a link does not pair, in the order in which the reasons are judged. -/
def Obligations.ChordLink : Prop :=
  (∀ (s : State) (n : Fin 2), resState s (chRes n) ≠ .retired →
    (∀ (lanes : Fin 8) (rate : Bool) (lat : Nat), lanes.val ≠ 0 →
      Completes (exec (.chordTrained n lanes rate lat) s) fun t => rd t Reg.RDU_CHSTS_LOCK n = 1 ∧
        rd t Reg.RDU_CHSTS_LANES n = min 4 lanes.val ∧ rdB t Reg.RDU_CHSTS_RATE n = rate ∧
        rd t Reg.RDU_CHLAT_LAT n = lat % 2 ^ 32 ∧ t.rdu.absent = false ∧
        t.out = s.out ++ [.chord (some n) (frameHead s false s.rdu.fseqOut s.tb.tick) (.hello (ownHello s))]) ∧
    (Completes (exec (.chordLockLost n) s) fun t => rd t Reg.RDU_CHSTS_LOCK n = 0 ∧ rd t Reg.RDU_CHSTS_LANES n = 0 ∧
      rdB t Reg.RDU_CHSTS_PAIRED n = false ∧ rd t Reg.RDU_CHSTS_QUAL n = qualCode .stale) ∧
    (resState s (chRes n) = .inService → WindowRuns s (chRes n) → Completes (exec (.chordCrcError n) s) fun t =>
      rd t Reg.RDU_CHSTS_CRCERR n = min (rd s Reg.RDU_CHSTS_CRCERR n + 1) 4095 ∧
      rd t Reg.RDU_CHSTS_MSTATE n = mstateCode .suspect ∧ rd t Reg.RDU_CHSTS_FCOUNT n = 1 ∧ t.rdu = s.rdu) ∧
    (rdB s Reg.RDU_CHSTS_LOCK n = false → ∀ lat, exec (.latencyMeasure (.chord n) lat) s = .next s) ∧
    (rdB s Reg.RDU_CHSTS_LOCK n = true →
      (∀ lat, Completes (exec (.latencyMeasure (.chord n) lat) s) fun t => rd t Reg.RDU_CHLAT_LAT n = lat % 2 ^ 32) ∧
      (∀ (head : ChordHead) (h : Hello), Completes (exec (.hello n head h) s) fun t =>
        rd t Reg.RDU_CHSTS_RSN n = pairReason s n h ∧ rdB t Reg.RDU_CHSTS_PAIRED n = decide (pairReason s n h = 0)) ∧
      ∀ (head : ChordHead),
        let told := fun (t : State) => rd t Reg.RDU_STATUS_PMODE = modeCode head.mode ∧
          t.rdu.partnerSave = head.save ∧ t.rdu.silent = false
        (s.rdu.fseqIn = none → Completes (exec (.keep (.chord n) head) s) fun t => told t ∧ t.rdu.fseqIn = some head.fseq ∧
          t.rdu.gaps = []) ∧
        (∀ f, s.rdu.fseqIn = some f → newer32 head.fseq f = true → Completes (exec (.keep (.chord n) head) s) fun t => told t ∧
          t.rdu.fseqIn = some head.fseq ∧ t.rdu.gaps = s.rdu.gaps ++
            (List.range ((head.fseq - f).toNat - 1)).map fun i => (f + 1 + BitVec.ofNat 32 i, false)) ∧
        (∀ f, s.rdu.fseqIn = some f → newer32 head.fseq f = false → head.fseq ∈ s.rdu.gaps.map (·.1) →
          Completes (exec (.keep (.chord n) head) s) fun t => told t ∧ t.rdu.fseqIn = some f ∧
            t.rdu.gaps = s.rdu.gaps.filter fun g => g.1 ≠ head.fseq) ∧
        (∀ f, s.rdu.fseqIn = some f → newer32 head.fseq f = false → head.fseq ∉ s.rdu.gaps.map (·.1) →
          exec (.keep (.chord n) head) s = .next { s with rdu := { s.rdu with silent := false } })) ∧
    (false ∈ s.rdu.gaps.map (·.2) → Completes (exec (.fseqGapTimeout (.chord n)) s) fun t =>
      t.out = s.out ++ [.chord (some n) (frameHead s false s.rdu.fseqOut s.tb.tick)
        (.resend ((s.rdu.gaps.filter fun g => !g.2).map (·.1)))] ∧
      t.rdu = { s.rdu with fseqOut := s.rdu.fseqOut + 1, gaps := s.rdu.gaps.map fun g => (g.1, true) }) ∧
    (false ∉ s.rdu.gaps.map (·.2) → exec (.fseqGapTimeout (.chord n)) s = .next s)) ∧
  (∀ (s : State) (n : Nat) (h : Hello),
    (pairReason s n h = 0 ↔ rdB s Reg.RDU_CFG_PAIRED = true ∧ h.side ≠ ownSide s ∧
      h.ticklen = rd s Reg.TBC_TICKCFG_TICKLEN ∧ h.agree = rd s Reg.TBC_TICKCFG_AGREE ∧
      rd s Reg.TBC_TICKCFG_AGREE ≤ 40 ∧ h.version = 1 ∧ rdB s Reg.RDU_CHSTS_LOCK n = true ∧
      resState s (chRes n) ≠ .retired ∧
      (rd s Reg.RDU_CHLAT_LAT n + 1000) * 100 ≤ rd s Reg.TBC_TICKCFG_AGREE * (rd s Reg.TBC_TICKCFG_TICKLEN * 10000)) ∧
    (rdB s Reg.RDU_CFG_PAIRED = true → h.side = ownSide s → pairReason s n h = 1) ∧ pairReason s n h ≤ 6)

/-- R301 to R306, R309, R314 (Tables 13.3 to 13.6): the frames of a pair that a unit takes as new. An INPUT joins the
partner's list of its tick, a CLOSE closes it, a VERDICT that must wait waits, a DIGEST is kept, a YIELD makes a STANDBY
unit take over at the edge it names or the first one 5 µs away, and a CLAIM is heard. -/
def Obligations.PairFrames : Prop :=
  ∀ (s : State) (n : Fin 2) (head : ChordHead), (chordTake s n head false).2 = true →
    (s.rdu.verdict = none →
      (∀ (i : Input), Completes (exec (.input n head i) s) fun t =>
        hisList t (tickOf s i.stamp) =
          { hisList s (tickOf s i.stamp) with inputs := (hisList s (tickOf s i.stamp)).inputs ++ [i] } ∧
        (∀ j, j ≠ tickOf s i.stamp → hisList t j = hisList s j) ∧ (modeIs s ≠ .resync → t.rdu.own = s.rdu.own)) ∧
      (∀ (count : Nat) (d : BitVec 64), Completes (exec (.close n head count d) s) fun t =>
        hisList t head.tick = { hisList s head.tick with close := some (count, d) } ∧
        (∀ j, j ≠ head.tick → hisList t j = hisList s j) ∧ (modeIs s ≠ .resync → t.rdu.own = s.rdu.own))) ∧
    (∀ (v : Verdict),
      ((emitMode s ≠ .standby ∧ emitMode s ≠ .resync) ∨ head.tick ≠ s.tb.tick ∨
          v.own = true ∧ listWhole (hisList s (head.tick - 1)) = false) →
        Completes (exec (.verdict n head v) s) fun t =>
          t.rdu.verdict = some (head.tick, { v with carried := v.carried || head.late }) ∧ t.rdu.agreed = s.rdu.agreed) ∧
    (∀ (v : Verdict) (set : List Input), emitMode s = .standby → head.tick = s.tb.tick → head.late = false → v = ⟨false, true, false, set.length,
        inputsDigest set⟩ → set = formSet s.rdu.prevSet (ownList s (head.tick - 1)) →
      Completes (exec (.verdict n head v) s) fun t => t.rdu.verdict = none ∧ t.rdu.built = s.tb.tick ∧
        t.rdu.prevSet = set ∧ t.rdu.agreed = s.rdu.agreed ++ [⟨s.tb.tick + 1, set⟩]) ∧
    (∀ d, Completes (exec (.digest n head d) s) fun t => t.rdu.hisDigest = s.rdu.hisDigest ++ [(head.tick, d)]) ∧
    (∀ (edge reason : Nat), emitMode s = .standby → s.rdu.takeAt = none →
      Completes (exec (.yield n head edge reason) s) fun t =>
        t.rdu.takeAt = some (max edge (edgeAfter s), reason, s.tb.tick)) ∧
    ∀ (c : BitVec 32) (edge : Nat), Completes (exec (.claim n head c edge) s) fun t =>
      rd t Reg.RDU_PCLAIM_PARTNER = c.toNat ∧
      ∀ own, s.rdu.claimHeld = some own → modeIs s = .active → own.toNat < c.toNat → .higherClaim c ∈ t.ssu.causes

/-- R316 to R318 (Table 13.16): the state copy of a unit in RESYNC from an ACTIVE partner. The ACTIVE unit notes the
request; a region under way shows its number and bytes, a whole one is kept and marked done; the commit stream is kept
by tick; the end lets the unit catch up; a copy not complete in 60 s ends FAIL_BUDGET COPY_RATE. -/
def Obligations.PairCopy : Prop :=
  ∀ (s : State) (n : Fin 2) (head : ChordHead),
    ((chordTake s n head false).2 = true →
      (Completes (exec (.copyreq n head) s) fun t => t.rdu.copyReq = true) ∧
      ∀ (c : CopyRun), s.rdu.copy = some c → head.save = false → head.mode = .active →
        (modeIs s = .resync → c.kc = some head.tick → ∀ (bytes : Nat) (m : Tbl Byte),
          (Completes (exec (.region n head bytes false (.data m)) s) fun t => t.rdu.copy = some c ∧
            rd t Reg.RDU_CPSTS_STATE = 2 ∧ rd t Reg.RDU_CPSTS_REGION = 5 ∧
            rd t Reg.RDU_CPBYTES_BYTES = bytes % 2 ^ 32 ∧ t.csa.dmem = s.csa.dmem) ∧
          (Completes (exec (.region n head bytes true (.data m)) s) fun t => t.csa.dmem = s.csa.dmem ∧
            bitsOf (rd t Reg.RDU_CPMASK_DONEMASK) 5 1 = 1 ∧
            t.rdu.copy = some { c with regions := c.regions.filter (fun x => regionNo x ≠ 5) ++ [.data m] })) ∧
        (∀ r : CommitRec, Completes (exec (.commits n head r) s) fun t =>
          t.rdu.copy = some { c with stream := c.stream.filter (fun x => x.tick ≠ r.tick) ++ [r] } ∧
          t.csa = s.csa) ∧
        (c.kc.isSome = true → Completes (exec (.copyend n head) s) fun t =>
          t.rdu.copy = some { c with ended := true } ∧ rd t Reg.RDU_CPSTS_STATE = 3 ∧ rd t Reg.RDU_CPSTS_REGION = 11)) ∧
    (∀ (c : CopyRun), s.rdu.copy = some c →
      (c.since + 60000000000 ≤ s.tb.now → Completes (exec .copyTimeLimit s) fun t =>
        rd t Reg.RDU_CPSTS_CC = CC.failBudget ∧ rd t Reg.RDU_CPSTS_RSN = Rsn.copyRate ∧
        if modeIs s = .resync ∧ linked s = true ∧ s.rdu.partnerSave = false ∧ s.rdu.noCopy = false then
          t.rdu.copy = some (freshCopy s.tb.now none) ∧ rd t Reg.RDU_CPSTS_PEND = 1 ∧
          ∃ l h, t.out = s.out ++ l ++ [.chord none h .copyReq] ∧ ∀ o ∈ l, ∃ h' i, o = .chord none h' (.input i)
        else t.rdu.copy = none ∧ rd t Reg.RDU_CPSTS_PEND = 0 ∧ t.out = s.out) ∧
      (s.tb.now < c.since + 60000000000 → exec .copyTimeLimit s = .next s))

/-- R299, R305, R306, R311, R314, R320: what a pair decides by time and by command. At the verdict limit a STANDBY unit
without its set takes over from a silent partner and is out of step with one it hears; with its set and equal digests it
goes on, and with unequal ones it is out of step unless its partner declared itself so (log entry 101); silence shows in
PAIRST; absence needs both links without lock for ABSENT seconds; SWAP in step and CLEAR are inputs in the modes
that run, and CLEAR elsewhere clears the counters at once. -/
def Obligations.PairDecisions : Prop :=
  ∀ (s : State),
    (∀ u, u = advance s (s.tb.tick * tickNs s + 2 * rd s Reg.TBC_TICKCFG_AGREE * tickNs s / 100) →
      (emitMode s ≠ .standby → exec .verdictLimit s = .next u) ∧
      (emitMode s = .standby → s.rdu.built = s.tb.tick → s.rdu.ownDigest.find? (·.1 = s.tb.tick - 1) = none →
        exec .verdictLimit s = .next u) ∧
      (emitMode s = .standby → s.rdu.built = s.tb.tick → ∀ a b,
        s.rdu.ownDigest.find? (·.1 = s.tb.tick - 1) = some a → s.rdu.hisDigest.find? (·.1 = s.tb.tick - 1) = some b →
        (a.2 = b.2 → exec .verdictLimit s = .next u) ∧
        (a.2 ≠ b.2 → s.tb.tick - 1 ∉ s.rdu.nonCommit → partnerDeclared s = false → s.ssu.causes = [] →
          Completes (exec .verdictLimit s) fun t =>
            rd t Reg.RDU_OOS_CAUSE = 4 ∧ t.ssu.causes = [.outOfStep 4 s.tb.tick])) ∧
      (emitMode s = .standby → s.rdu.built ≠ s.tb.tick → s.rdu.takeAt = none →
        (s.rdu.silent = false → s.ssu.causes = [] → Completes (exec .verdictLimit s) fun t =>
          rd t Reg.RDU_OOS_CAUSE = 2 ∧ t.ssu.causes = [.outOfStep 2 s.tb.tick] ∧ t.rdu.takeAt = none) ∧
        (s.rdu.silent = true → Completes (exec .verdictLimit s) fun t =>
          t.rdu.takeAt = some (edgeAfter u, 1, s.tb.tick) ∧ t.rdu.built = s.tb.tick))) ∧
    (Completes (exec .partnerSilence s) fun t => t.rdu.silent = true ∧
      rd t Reg.RDU_STATUS_PAIRST = if rdB s Reg.RDU_CFG_PAIRED then (if s.rdu.wasPaired then 3 else 1) else 0) ∧
    ((rdB s Reg.RDU_CHSTS_LOCK 0 = true ∨ rdB s Reg.RDU_CHSTS_LOCK 1 = true ∨
        s.tb.now < s.rdu.unlockedFrom + max 1 (rd s Reg.RDU_CFG_ABSENT) * 10 ^ 9) →
      exec .partnerAbsentExpiry s = .next s) ∧
    (rdB s Reg.RDU_CHSTS_LOCK 0 = false → rdB s Reg.RDU_CHSTS_LOCK 1 = false →
      s.rdu.unlockedFrom + max 1 (rd s Reg.RDU_CFG_ABSENT) * 10 ^ 9 ≤ s.tb.now →
      exec .partnerAbsentExpiry s = .next { s with rdu := { s.rdu with absent := true } }) ∧
    (rdB s Reg.RDU_CMDSTS_PEND = false →
      ((modeIs s = .active ∨ modeIs s = .standby) →
        (rd s Reg.RDU_STATUS_PAIRST ≠ 2 → Completes (exec .rduSwap s) fun t =>
          rd t Reg.RDU_CMDSTS_CC = CC.failRefused ∧ rd t Reg.RDU_CMDSTS_RSN = Rsn.noPartner ∧
          rd t Reg.RDU_CMDSTS_PEND = 0 ∧ t.rdu = s.rdu) ∧
        ∀ (c : Instr) (b : InBody), (c = .rduSwap ∧ b = .rduSwap ∧ rd s Reg.RDU_STATUS_PAIRST = 2 ∨
            c = .rduClearCounters ∧ b = .rduClear) →
          Completes (exec c s) fun t => rd t Reg.RDU_CMDSTS_PEND = 1 ∧ t.rdu.own = listPut s.rdu.own
            (tickOf s s.tb.now) ⟨s.tb.now, ⟨64, Reg.RDU_CMD_CMD.addr⟩, ownSide s, b⟩) ∧
      (modeIs s ≠ .active → modeIs s ≠ .standby → modeIs s ≠ .test →
        (Completes (exec .rduSwap s) fun t => rd t Reg.RDU_CMDSTS_CC = CC.failRefused ∧
          rd t Reg.RDU_CMDSTS_RSN = Rsn.badMode ∧ t.rdu = s.rdu) ∧
        Completes (exec .rduClearCounters s) fun t => rd t Reg.RDU_CMDSTS_CC = CC.done ∧
          rd t Reg.RDU_CMDSTS_PEND = 0 ∧ rd t Reg.RDU_AGSTS_LATE = 0 ∧ rd t Reg.RDU_AGSTS_EXCL = 0 ∧
          rd t Reg.RDU_CHSTS_CRCERR 0 = 0 ∧ rd t Reg.RDU_CHSTS_CRCERR 1 = 0 ∧ t.rdu = s.rdu))

/-- R322 to R325, R328 (Tables 14.1 to 14.7), R299: the cascade. A trained link has lock and says CHELLO; without lock it
is no link of the tree; a CHELLO is taken or its reason shown; of each FSEQ the first frame is taken, and a gap is asked
for once. The marker of the parent gives SKEW and PATHLAT, and the first of a tick goes on with the delay of its link;
the root takes the state of its units and loses one silent for three ticks, others forward it; the roster comes from the
parent; an export is an input to the tick. -/
def Obligations.CascadeEvents : Prop :=
  ∀ (s : State) (n : Fin 4),
    (rdB s Reg.CSC_CFG_EN = true → resState s ⟨.cascade, n.val⟩ ≠ .retired → ∀ (lanes : Fin 8) (lat : Nat), lanes ≠ 0 →
      Completes (exec (.cascadeTrained n lanes lat) s) fun t => rd t Reg.CSC_CLSTS_LOCK n = 1 ∧
        rd t Reg.CSC_CLSTS_LANES n = min 4 lanes.val ∧ rd t Reg.CSC_CLSTS_RSN n = 0 ∧ tget t.csc.lat n.val = some lat ∧
        clOk t n.val = false ∧ t.out = s.out ++ [.casc n
          (frameHead s false ((tget s.csc.seqOut n.val).getD 0) s.tb.tick) (.chello (ownChello s))]) ∧
    (Completes (exec (.cascadeLockLost n) s) fun t => rd t Reg.CSC_CLSTS_LOCK n = 0 ∧ rd t Reg.CSC_CLSTS_LANES n = 0 ∧
      rd t Reg.CSC_CLSTS_ROLE n = 0 ∧ clOk t n.val = false ∧ t.csc = { (dropLink s n.val).csc with reparent := true }) ∧
    (resState s ⟨.cascade, n.val⟩ = .inService → WindowRuns s ⟨.cascade, n.val⟩ →
      Completes (exec (.cascadeCrcError n) s) fun t =>
        rd t Reg.CSC_CLSTS_CRCERR n = min (rd s Reg.CSC_CLSTS_CRCERR n + 1) 4095 ∧
        rd t Reg.CSC_CLSTS_MSTATE n = mstateCode .suspect ∧ rd t Reg.CSC_CLSTS_FCOUNT n = 1 ∧ t.csc = s.csc) ∧
    (rdB s Reg.CSC_CLSTS_LOCK n = true → ∀ lat, exec (.latencyMeasure (.cascade n) lat) s =
      .next { s with csc := { s.csc with lat := tput s.csc.lat n.val lat } }) ∧
    (∀ l, l = (s.csc.gaps.filter fun g => decide (g.1 = n.val) && !g.2.2).map (·.2.1) →
      (l = [] → exec (.fseqGapTimeout (.cascade n)) s = .next s) ∧
      (l ≠ [] → Completes (exec (.fseqGapTimeout (.cascade n)) s) fun t => t.out = s.out ++ [.casc n
        (frameHead s false ((tget s.csc.seqOut n.val).getD 0) s.tb.tick) (.resend l)] ∧
        ∀ g ∈ t.csc.gaps, g.1 = n.val → g.2.2 = true)) ∧
    (rdB s Reg.CSC_CFG_EN = true → rdB s Reg.CSC_CLSTS_LOCK n = true → resState s ⟨.cascade, n.val⟩ ≠ .retired →
      ∀ (head : ChordHead),
        (tget s.csc.seqIn n.val = none → Completes (exec (.keep (.cascade n) head) s) fun t =>
          tget t.csc.seqIn n.val = some head.fseq ∧ t.csc.gaps = s.csc.gaps) ∧
        (∀ f, tget s.csc.seqIn n.val = some f → newer32 head.fseq f = true →
          Completes (exec (.keep (.cascade n) head) s) fun t => tget t.csc.seqIn n.val = some head.fseq ∧
            t.csc.gaps = s.csc.gaps ++ (List.range ((head.fseq - f).toNat - 1)).map fun i =>
              (n.val, f + 1 + BitVec.ofNat 32 i, false)) ∧
        (∀ f, tget s.csc.seqIn n.val = some f → newer32 head.fseq f = false →
          (∀ g ∈ s.csc.gaps, g.1 = n.val → g.2.1 ≠ head.fseq) →
          ∀ h, exec (.chello n head h) s = .next s ∧ exec (.keep (.cascade n) head) s = .next s)) ∧
    (∀ (head : ChordHead) (h : CHello), (clTake s n head true).2 = true →
      Completes (exec (.chello n head h) s) fun t => rd t Reg.CSC_CLSTS_RSN n = chelloReason s n h ∧
        t.csc.reparent = true ∧ if chelloReason s n h = 0 then tget t.csc.far n = some h ∧ clOk t n.val = true ∧
          ⟨h.member, h.side, h.mode, h.claim, s.tb.tick⟩ ∈ t.csc.units
        else t.csc.far = s.csc.far ∧ clOk t n.val = false) ∧
    (∀ (head : ChordHead), (clTake s n head false).2 = true →
      (isRoot s = false →
        (∀ (k delay stamp hops total : Nat), total = delay + (tget s.csc.lat n.val).getD 0 →
          Completes (exec (.tickmark n head k delay stamp hops) s) fun t =>
            (mayStep s = false → tget t.csc.hops n.val = some (hops, s.tb.tick) ∧ tget t.csc.marks n.val = some s.tb.tick) ∧
            (rd s Reg.CSC_STATUS_PARENT = n.val → rd t Reg.CSC_PATHLAT_PATHLAT = total % 2 ^ 32 ∧
              rd t Reg.CSC_SKEW_SKEW = patternOf 32 ((stamp : Int) - total - k * tickNs s)) ∧
            (rd s Reg.CSC_STATUS_PARENT ≠ n.val → FieldsBut s t [(Reg.CSC_STATUS_QUAL, 0), (Reg.CSC_STATUS_MSTATE, 0),
              (Reg.CSC_STATUS_ROOT, 0), (Reg.CSC_STATUS_MEMBER, 0)]) ∧
            ((∀ m, s.csc.markSeen = some m → m < k) → t.csc.markSeen = some k ∧
              ∀ m : Fin 4, m ≠ n → clOk s m = true → ∃ h d, total ≤ d ∧ Out.casc m h (.tickMark k d) ∈ t.out) ∧
            (∀ m, s.csc.markSeen = some m → k ≤ m → t.out = s.out)) ∧
        (∀ l, (parentLink s = some n → Completes (exec (.roster n head l) s) fun t =>
            rd t Reg.CSC_ROSTER_UNITS = (rosterBits l).toNat ∧ t.csc.reparent = true ∧
            ∀ m : Fin 4, m ≠ n → treeLink s m = true → ∃ h, Out.casc m h (.roster l) ∈ t.out) ∧
          (parentLink s ≠ some n → exec (.roster n head l) s = .next (clTake s n head false).1)) ∧
        (∀ (m : Fin 4) (u : RUnit), m ≠ n → parentLink s = some m → clOk s m.val = true →
          Completes (exec (.stateFrame n head u) s) fun t => (∃ h, t.out = s.out ++ [.casc m h (.state u)]) ∧
            tget t.csc.routes (rosterBit u.member u.side) = some (n, s.tb.tick))) ∧
      (isRoot s = true → parentLink s ≠ some n → ∀ (u : RUnit), (u.mode ≠ .save ∨ u.side ≠ partSide s) →
        Completes (exec (.stateFrame n head u) s) fun t =>
          ⟨u.member, u.side, u.mode, u.claim, s.tb.tick⟩ ∈ t.csc.units ∧ t.out = s.out) ∧
      (treeLink s n.val = true → ∀ (u : Fin 8) (side : Side) (c : BitVec 32) (k stamp : Nat) (l : List Elem),
        Completes (exec (.exportFrame n head u side c k stamp l) s) fun t => t.rdu.own = listPut s.rdu.own (tickOf s stamp)
          ⟨stamp, ⟨68, u.val + (if side then 8 else 0)⟩, ownSide s, .exported u side c k l⟩ ∧
          ∀ m : Fin 4, m ≠ n → treeLink s m = true → ∃ h, Out.casc m h (.exported (.exported u side c k l)) ∈ t.out)) ∧
    (isRoot s = true →
      (Completes (exec .rosterBroadcast s) fun t => rd t Reg.CSC_ROSTER_UNITS = (rosterUnits s).toNat ∧
        t.csc.rosterDue = false ∧
        ∀ m : Fin 4, treeLink s m = true → ∃ h, Out.casc m h (.roster (rosterList s)) ∈ t.out) ∧
      ∀ (m : Fin 8) (side : Side) (u : CUnit), (s.csc.units.find? fun v => v.member = m && v.side = side) = some u →
        (u.last + 3 ≤ s.tb.tick → Completes (exec (.memberLost m side) s) fun t => t.csc.units = s.csc.units.erase u ∧
          rd t Reg.CSC_ROSTER_UNITS = (rosterUnits t).toNat ∧ t.csc.rosterDue = true) ∧
        (s.tb.tick < u.last + 3 → exec (.memberLost m side) s = .next s))

/-- R336, R337, R342, R343: the write engine takes the request of the lowest class, starts it when it is idle or
writes a higher class, which it suspends, and on completion holds the record: what recall would read of it is what was
written, whatever its two copies held before. -/
def Obligations.WriteEngine : Prop :=
  ∀ (s : State),
    (∀ r b, nextReq s.nvs.susp s.nvs.queue = some (r, b) →
      r ∈ s.nvs.susp ++ s.nvs.queue ∧ ∀ q ∈ s.nvs.susp ++ s.nvs.queue, 1 ≤ q.cls → q.cls ≤ 7 → r.cls ≤ q.cls) ∧
    (nextReq s.nvs.susp s.nvs.queue = none → exec .nvsWriteStart s = .next s) ∧
    (∀ r ty d, nextReq s.nvs.susp s.nvs.queue = some (r, false) → r.what = .record ty d →
      (∀ c, s.nvs.cur = some c → c.cls ≤ r.cls → exec .nvsWriteStart s = .next s) ∧
      (s.nvs.cur = none → s.nvs.susp = [] → Completes (exec .nvsWriteStart s) fun t =>
        t.nvs.cur = some { r with what := captureAtStart s r } ∧ t.nvs.queue = s.nvs.queue.erase r ∧
        t.nvs.susp = []) ∧
      (∀ c, s.nvs.cur = some c → r.cls < c.cls → sameRecord c.what r.what = false → s.nvs.susp = [] →
        Completes (exec .nvsWriteStart s) fun t =>
          t.nvs.cur = some { r with what := captureAtStart s r } ∧ t.nvs.queue = s.nvs.queue.erase r ∧
          t.nvs.susp = [c])) ∧
    (s.nvs.cur = none → exec .nvsWriteComplete s = .next s) ∧
    (∀ cls ty d who, s.nvs.cur = some ⟨cls, .record ty d, who⟩ → Completes (exec .nvsWriteComplete s) fun t =>
      t.nvs.cur = none ∧ recRead t ty = some d ∧ t.nvs.queue = s.nvs.queue ∧
      ∀ x, x ≠ ty → recRead t x = recRead s x) ∧
    (∀ cls r who x, s.nvs.cur = some ⟨cls, .event r, who⟩ → s.evr.placing = some x → recSlots r ≤ logSlots →
      Completes (exec .nvsWriteComplete s) fun t => t.nvs.cur = none ∧ t.evr.placing = none ∧
        (∀ j, j < recSlots r → tget t.evr.log ((x + j) % logSlots) = some ⟨r, j, recSlots r⟩) ∧
        (r.code = Ev.timeAnchor → rdB t Reg.EVR_CMDSTS_PEND = false))

/-- R341, R344, R346 to R348, R359: the other commands of the store. The retained area is saved outside RECALL and TEST;
one page at a time is scrubbed, a weak one refreshed and an uncorrectable one counted; the hour's highest write rate is
shown; a window reads as 0 with BUSYRD while recall runs, and the event window reads the slots from the cursor on. -/
def Obligations.StoreCommands : Prop :=
  ∀ (s : State),
    (modeIs s ≠ .recall → modeIs s ≠ .test → s.nvs.queue = [] →
      Completes (exec .retainedPeriodicSave s) fun t => t.nvs.queue = [⟨4, .record 0x50 (retainedData s 0), .retained 0⟩] ∧
        t.csa = s.csa) ∧
    ((modeIs s = .recall ∨ modeIs s = .test) → exec .retainedPeriodicSave s = .next s) ∧
    ((modeIs s = .recall ∨ modeIs s = .test ∨ modeIs s = .save) → ∀ a b c, exec (.scrub a b c) s = .next s) ∧
    (∀ page, modeIs s ≠ .recall → modeIs s ≠ .test → modeIs s ≠ .save → page = rd s Reg.NVS_SCRUB_PAGE →
      (Completes (exec (.scrub false false none) s) fun t => rd t Reg.NVS_SCRUB_PAGE = (page + 1) % 16384 ∧
        t.nvs.queue = s.nvs.queue) ∧
      (page < 16384 → page ∉ s.nvs.refreshed → s.nvs.queue = [] → Completes (exec (.scrub true false none) s) fun t =>
        rd t Reg.NVS_SCRUB_PAGE = (page + 1) % 16384 ∧
        rd t Reg.NVS_SCRUB_REFR = min (rd s Reg.NVS_SCRUB_REFR + 1) 1023 ∧
        t.nvs.queue = [⟨7, .refresh page, .scrub⟩]) ∧
      (page ∉ s.nvs.uncorrOnce → Completes (exec (.scrub false true none) s) fun t =>
        rd t Reg.NVS_SCRUB_UNCORR = min (rd s Reg.NVS_SCRUB_UNCORR + 1) 255 ∧ page ∈ t.nvs.uncorrOnce ∧
        t.nvs.remaps = s.nvs.remaps)) ∧
    (Completes (exec .nvsWear s) fun t => t.nvs.writes = [] ∧
      ∀ ty k, s.nvs.writes = [(ty, k)] → 0 < k → rd t Reg.NVS_WEAR_TYPE = ty % 65536 ∧
        rd t Reg.NVS_WEAR_RATE = min (k / 3600) 65535) ∧
    ∀ (a : BitVec 26),
      (recalling s = true → Completes (exec (.nvsWindowRead a) s) fun t => t.out = s.out ++ [.readData 0] ∧
        rd t Reg.NVS_STATUS_BUSYRD = 1) ∧
      (recalling s = false → 0x3100000 ≤ a.toNat → a.toNat < 0x3101000 → exec (.nvsWindowRead a) s = .next
        (emit s (.readData (BitVec.ofNat 64 (leNat (((logSlotBytes s ((rd s Reg.EVR_CURSOR_CURSOR +
          (a.toNat - 0x3100000) / 32) % logSlots)).drop ((a.toNat - 0x3100000) % 32)).take 4))))))

/-- R354, R355, R358, R360, R361, R363 (Tables 16.5, 16.6): the commands and times of the event recorder. FREEZE holds
the log and THAW or its limit releases it; counts and the log are cleared; the cursor moves; an anchor that is due is
recorded with what was captured as its operating second began; the operating seconds advance and number their records
anew. -/
def Obligations.RecorderCommands : Prop :=
  ∀ (s : State),
    (rdB s Reg.EVR_CMDSTS_PEND = false → modeIs s ≠ .test →
      (modeIs s ≠ .recall → modeIs s ≠ .save → Completes (exec .freeze s) fun t => rd t Reg.EVR_STATUS_FROZEN = 1 ∧
        rd t Reg.EVR_CMDSTS_CC = CC.done ∧ rd t Reg.EVR_CMDSTS_PEND = 0 ∧ t.evr.log = s.evr.log ∧
        t.evr.frozenAt = some (s.evr.frozenAt.getD (rd s Reg.EVR_OPSEC_OPSEC))) ∧
      ((modeIs s = .recall ∨ modeIs s = .save) → Completes (exec .freeze s) fun t =>
        rd t Reg.EVR_CMDSTS_CC = CC.failRefused ∧ rd t Reg.EVR_CMDSTS_RSN = Rsn.badMode ∧ t.evr = s.evr) ∧
      (rdB s Reg.EVR_STATUS_FROZEN = true → recalling s = false → Completes (exec .thaw s) fun t =>
        rd t Reg.EVR_STATUS_FROZEN = 0 ∧ rd t Reg.EVR_CMDSTS_CC = CC.done ∧ t.evr.frozenAt = none ∧ t.evr.staging = [] ∧
        (s.nvs.queue = [] → s.evr.drops = Vector.replicate 4 0 → s.evr.staging.length ≤ 512 →
          t.nvs.queue = s.evr.staging.map fun r => ⟨6, .event r, .none⟩)) ∧
      (rdB s Reg.EVR_STATUS_FROZEN = false → Completes (exec .thaw s) fun t =>
        rd t Reg.EVR_CMDSTS_CC = CC.failRefused ∧ rd t Reg.EVR_CMDSTS_RSN = Rsn.notFrozen ∧ t.evr = s.evr) ∧
      (Completes (exec .clearCounts s) fun t => rd t Reg.EVR_CMDSTS_CC = CC.done ∧
        ∀ i, i < 4 → rd t Reg.EVR_LOSTDROP_LOST i = 0 ∧ rd t Reg.EVR_LOSTDROP_DROP i = 0) ∧
      (modeIs s = .halt → rdB s Reg.EVR_STATUS_FROZEN = false → Completes (exec .clearLog s) fun t =>
        t.evr.log = [] ∧ rd t Reg.EVR_HEAD_HEAD = 0 ∧ rd t Reg.EVR_CURSOR_CURSOR = 0 ∧
        rd t Reg.EVR_CMDSTS_PEND = 1)) ∧
    (freezeOver s = true → Completes (exec .freezeTimeout s) fun t =>
      rd t Reg.EVR_STATUS_FROZEN = 0 ∧ t.evr.frozenAt = none ∧ t.evr.log = s.evr.log) ∧
    ((rdB s Reg.EVR_STATUS_FROZEN = false ∨ ∃ k, s.evr.frozenAt = some k ∧
        rd s Reg.EVR_OPSEC_OPSEC < k + max 1 (rd s Reg.EVR_CFG_FRZMAX)) → exec .freezeTimeout s = .next s) ∧
    (∀ v : BitVec 15, Completes (exec (.cursorWrite v) s) fun t => rd t Reg.EVR_CURSOR_CURSOR = v.toNat ∧
      OnlyFields s t [(Reg.EVR_CURSOR_CURSOR, 0)]) ∧
    (s.evr.anchorDue = none → exec .timeAnchor s = .next s) ∧
    (∀ l, s.evr.anchorDue = some l → recalling s = false → rdB s Reg.EVR_STATUS_FROZEN = false → s.evr.sub < 256 →
      s.nvs.queue = [] → Completes (exec .timeAnchor s) fun t => t.evr.anchorDue = none ∧
        t.nvs.queue = [⟨6, .event ⟨Ev.timeAnchor, Ev.timeAnchor / 256, .notice, l.map (BitVec.ofNat 32),
          BitVec.ofNat 32 (rd s Reg.EVR_OPSEC_OPSEC), BitVec.ofNat 24 (rd s Reg.EVR_PCC_PCC), BitVec.ofNat 8 s.evr.sub,
          false, false⟩, .none⟩] ∧ t.evr.sub = s.evr.sub + 1) ∧
    (recalling s = true → exec .opsecAdvance s = .next s) ∧
    (recalling s = false → Completes (exec .opsecAdvance s) fun t =>
      rd t Reg.EVR_OPSEC_OPSEC = (rd s Reg.EVR_OPSEC_OPSEC + 1) % 2 ^ 32 ∧ t.evr.sub = 0 ∧ t.rtc.changed = false ∧
      ((s.rtc.changed = true ∨ ∃ a, s.evr.anchorAt = some a ∧ a ≤ rd t Reg.EVR_OPSEC_OPSEC) →
        t.evr.anchorDue = some (anchorWords { s with rtc := { s.rtc with sub := t.rtc.sub } })) ∧
      (s.rtc.changed = false → (∀ a, s.evr.anchorAt = some a → rd t Reg.EVR_OPSEC_OPSEC < a) →
        t.evr.anchorDue = s.evr.anchorDue ∧ t.rtc = s.rtc) ∧ t.evr.log = s.evr.log)

/-- R366, R368, R370 to R375 (Tables 17.1 to 17.5): the calendar and its trim. SET checks the staged date whole and waits for
the second boundary, which takes it; a check against PTP or Apex sets the calendar when OSF is 1 or the difference passes
STEPMAX; the count advances in seconds and wraps with OSF; a measurement gives TRIM within its range, and a window takes
TRIM and W.

R368, R369: the calendar registers show what a staged date says: a SET that is accepted and taken reads back its year,
month, day, hour, minute and second. -/
def Obligations.Calendar : Prop :=
  (∀ (s : State),
    (rdB s Reg.TBC_RTCCMDSTS_PEND = false → modeIs s ≠ .test →
      (∀ c, stagedSecs s = some c → Completes (exec .rtcSet s) fun t => rd t Reg.TBC_RTCCMDSTS_PEND = 1 ∧
        t.rtc = { s.rtc with set := some (c, 2) }) ∧
      (stagedSecs s = none → Completes (exec .rtcSet s) fun t => rd t Reg.TBC_RTCCMDSTS_CC = CC.failRefused ∧
        rd t Reg.TBC_RTCCMDSTS_RSN = Rsn.badDate ∧ rd t Reg.TBC_RTCSTS_BADWRITE = 1 ∧ t.rtc = s.rtc)) ∧
    (s.rtc.set = none → exec .rtcSetApply s = .next s) ∧
    (∀ c, s.rtc.set = some (c, 2) → Completes (exec .rtcSetApply s) fun t =>
      t.rtc = { s.rtc with secs := c, sub := 0, set := none, changed := true } ∧ rd t Reg.TBC_RTCSTS_OSF = 0 ∧
      rd t Reg.TBC_RTCSTS_SRC = 2 ∧ rd t Reg.TBC_RTCCMDSTS_CC = CC.done ∧ rd t Reg.TBC_RTCCMDSTS_PEND = 0) ∧
    (∀ utc : Int,
      (rd s Reg.TBC_DSTS_SRC ≠ 1 → rd s Reg.TBC_DSTS_SRC ≠ 2 → exec (.calendarCheck utc) s = .next s) ∧
      (rd s Reg.TBC_DSTS_SRC = 2 → s.rtc.set = none →
        (rdB s Reg.TBC_RTCSTS_OSF = true ∨
            rd s Reg.TBC_RTCCFG_STEPMAX < (((s.tb.now / 1000000000 : Nat) : Int) - s.rtc.secs).natAbs * 1000 →
          exec (.calendarCheck utc) s = .next { s with rtc := { s.rtc with set := some (0, 3) } }) ∧
        (rdB s Reg.TBC_RTCSTS_OSF = false →
            (((s.tb.now / 1000000000 : Nat) : Int) - s.rtc.secs).natAbs * 1000 ≤ rd s Reg.TBC_RTCCFG_STEPMAX →
          exec (.calendarCheck utc) s = .next s))) ∧
    (Completes (exec .calendarSecond s) fun t => t.rtc.sub = 0 ∧
      t.rtc.secs = (s.rtc.secs + 1) % 12622780800 ∧
      (s.rtc.secs + 1 = 12622780800 → rd t Reg.TBC_RTCSTS_OSF = 1) ∧
      (s.rtc.secs + 1 ≠ 12622780800 → t.flds = s.flds)) ∧
    (Completes (exec .oscillatorStop s) fun t => rd t Reg.TBC_RTCSTS_OSF = 1 ∧
      t.rtc = { s.rtc with check := false, changed := true }) ∧
    (∀ (p r : Nat), rdB s Reg.TBC_TRIMCFG_TBEN = true → (rd s Reg.TBC_DSTS_SRC = 1 ∨ rd s Reg.TBC_DSTS_SRC = 2) → 0 < r →
      Completes (exec (.trimMeasurementEnd false p r true) s) fun t =>
        if -32768 ≤ trimOf p r (rd s Reg.TBC_TRIM_W) ∧ trimOf p r (rd s Reg.TBC_TRIM_W) ≤ 32767 then
          signedOf 16 (rd t Reg.TBC_TRIM_TRIM) = trimOf p r (rd s Reg.TBC_TRIM_W) ∧
          t.rtc = { s.rtc with trimAt := some s.tb.now }
        else rd t Reg.TBC_TRIM_TRIM = rd s Reg.TBC_TRIM_TRIM ∧ t.rtc = s.rtc) ∧
    (∀ grid p r, exec (.trimMeasurementEnd grid p r false) s = .next s) ∧
    exec .trimWindowStart s =
      .next { s with rtc := { s.rtc with trim := signedOf 16 (rd s Reg.TBC_TRIM_TRIM), w := rd s Reg.TBC_TRIM_W } }) ∧
  (∀ (s : State) (y m d h mi sec : Nat), y < 400 → 1 ≤ m → m ≤ 12 → 1 ≤ d → d ≤ monthDays y m → h < 24 → mi < 60 →
    sec < 60 → s.rtc.secs = secsOf y m d h mi sec →
    Completes (exec .rtccntLoRead s) fun t =>
      rd t Reg.TBC_RTCDATE_YEAR = y ∧ rd t Reg.TBC_RTCDATE_MONTH = m ∧ rd t Reg.TBC_RTCDATE_DAY = d ∧
      rd t Reg.TBC_RTCTIME_HOUR = h ∧ rd t Reg.TBC_RTCTIME_MIN = mi ∧ rd t Reg.TBC_RTCTIME_SEC = sec ∧
      rd64 t Reg.TBC_RTCCNT_LO_CNT Reg.TBC_RTCCNT_HI_CNT = s.rtc.secs)

/-- R384, R391, R394 to R397, R429 (Tables 19.2, 19.7): the supervisor's tests and service. A wave starts in TEST
without a warning and covers its resources; one that ends without a failure is reported DONE, its status restored, and
the last one ends TEST in RECALL; a fault window closes, when it is over, to the state before it; the service commands need HALT and
their key; the host watchdog, the battery level and the temperature follow what the host and the sensors say. -/
def Obligations.ServiceEvents : Prop :=
  ∀ (s : State),
    (modeIs s = .test → s.ssu.wave = none → s.ssu.nextWave < 6 → rdB s Reg.SSU_SUPPLY_WARN = false →
      Completes (exec .bistWaveStart s) fun t => t.ssu.wave = some s.ssu.nextWave ∧
        ∀ e ∈ waveFields s.ssu.nextWave, rd t e.1 e.2 =
          if rd s e.1 e.2 = mstateCode .retired then mstateCode .retired else mstateCode .testing) ∧
    ((modeIs s ≠ .test ∨ s.ssu.wave ≠ none ∨ rdB s Reg.SSU_SUPPLY_WARN = true) → exec .bistWaveStart s = .next s) ∧
    (∀ w (ms : BitVec 8), s.ssu.wave = some w → w < 5 → s.mte.beatDue = false →
      Completes (exec (.bistWaveEnd [] ms) s) fun t => t.ssu.wave = none ∧ t.ssu.nextWave = w + 1 ∧
        rd t Reg.SSU_BISTSTS_CC w = CC.done ∧ rd t Reg.SSU_BISTSTS_FAILED w = 0 ∧ rd t Reg.SSU_BISTSTS_RAN w = 1 ∧
        rd t Reg.SSU_BISTSTS_MS w = ms.toNat ∧ t.ssu.retired = s.ssu.retired) ∧
    (∀ (ms : BitVec 8), s.ssu.wave = some 5 → Completes (exec (.bistWaveEnd [] ms) s) fun t =>
      modeIs t = .recall ∧ t.ssu.bistReq = false ∧ t.ssu.bistDone = true ∧ t.csa.dmem = [] ∧ t.csa.rmem = []) ∧
    (∀ (i : Fin 8) (w : FWindow), s.ssu.windows.find? (·.res = ⟨.loop, i.val⟩) = some w →
      (faultOver s ⟨.loop, i.val⟩ w.tick = true → Completes (exec (.faultWindowClose ⟨.loop, i.val⟩) s) fun t =>
        rd t Reg.LPE_LANESTS_MSTATE i = mstateCode w.prior ∧ rd t Reg.LPE_LANESTS_FCOUNT i = 0 ∧
        t.ssu.windows = s.ssu.windows.filter (·.res ≠ ⟨.loop, i.val⟩)) ∧
      (faultOver s ⟨.loop, i.val⟩ w.tick = false → exec (.faultWindowClose ⟨.loop, i.val⟩) s = .next s)) ∧
    (rdB s Reg.SSU_SVCSTS_PEND = false → ∀ (key : BitVec 16),
      ((modeIs s ≠ .halt ∨ key ≠ 0x5E7C) → ∀ c, (c = .clearRetire key ∨ c = .resetClaim key) →
        Completes (exec c s) fun t => rd t Reg.SSU_SVCSTS_CC = CC.failRefused ∧ rd t Reg.SSU_SVCSTS_PEND = 0 ∧
          rd t Reg.SSU_SVCSTS_RSN = (if modeIs s ≠ .halt then Rsn.badMode else Rsn.badKey) ∧ t.ssu = s.ssu) ∧
      (modeIs s = .halt →
        (s.nvs.queue = [] → s.nvs.remaps.length ≤ sparePages → (writeRange s (.record 0x03 (configData s))).fits = true →
          Completes (exec (.clearRetire 0x5E7C) s) fun t => retireList t = [] ∧ t.ssu.retired = s.ssu.retired ∧
          t.ssu.bistReq = true ∧ rd t Reg.SSU_SVCSTS_PEND = 1 ∧
          t.nvs.queue.map (·.what) = [.record 0x10 (retireData t), .record 0x03 (configData t)]) ∧
        (s.nvs.queue = [] → s.nvs.susp = [] → s.nvs.cur = none → Completes (exec (.resetClaim 0x5E7C) s) fun t =>
          rd t Reg.RDU_CLAIM_OWN = (if ownSide s then 0 else 1) ∧ rd t Reg.SSU_SVCSTS_CC = CC.done ∧
          rd t Reg.SSU_SVCSTS_PEND = 0 ∧ recRead t 2 = some (.claim (if ownSide s then 0 else 1))))) ∧
    (∀ v : BitVec 32, (v.toNat % 2 ^ 16 = 0x4B1C →
        exec (.wdtKick v) s = .next { s with ssu := { s.ssu with wdtFrom := some s.tb.now } }) ∧
      (v.toNat % 2 ^ 16 ≠ 0x4B1C → exec (.wdtKick v) s = .next s)) ∧
    (∀ st, hostExpired s = true → rdB s Reg.SSU_WDTCFG_ACT = false →
      Completes (exec (.hostWatchdogExpiry st) s) fun t => t.ssu = { s.ssu with wdtFrom := some s.tb.now } ∧
        modeIs t = modeIs s ∧ t.csa = s.csa) ∧
    (∀ low, Completes (exec (.vbatLow low) s) fun t => rdB t Reg.SSU_SUPPLY_VBATLOW = low ∧
      OnlyFields s t [(Reg.SSU_SUPPLY_VBATLOW, 0)]) ∧
    ∀ tj : BitVec 12, Completes (exec (.temperatureUpdate tj) s) fun t => rd t Reg.SSU_TEMP_TJ = tj.toNat ∧
      (signedOf 12 (rd s Reg.SSU_TEMP_MAX) < tj.toInt → rd t Reg.SSU_TEMP_MAX = tj.toNat) ∧
      (tj.toInt ≤ signedOf 12 (rd s Reg.SSU_TEMP_MAX) → rd t Reg.SSU_TEMP_MAX = rd s Reg.SSU_TEMP_MAX) ∧
      OnlyFields s t [(Reg.SSU_TEMP_TJ, 0), (Reg.SSU_TEMP_MAX, 0)]

/-- R404, R410 to R414 (Tables 20.9 to 20.12): the OTP, quotes and the test port. In HALT, with the key, no warning
and no quote in progress, a root is programmed into a slot never used, revoked while another is usable, a floor raised
up to 64, a policy bit blown; nothing is ever cleared. A quote waits for the tick edge and is written whole; a locked
port offers BYPASS and IDCODE alone. -/
def Obligations.SecurityCommands : Prop :=
  ∀ (s : State) (o : Otp), o = s.ssu.otp →
    (rdB s Reg.SSU_OTPSTS_PEND = false → rdB s Reg.SSU_SUPPLY_WARN = false →
      (modeIs s = .halt → ∀ (key : BitVec 16), key ≠ 0x07B7 →
        let badKey := fun (c : Instr) => Completes (exec c s) fun t => rd t Reg.SSU_OTPSTS_CC = CC.failRefused ∧
          rd t Reg.SSU_OTPSTS_RSN = Rsn.badKey ∧ t.ssu = s.ssu
        (∀ i, badKey (.programRoot key i true) ∧ badKey (.revoke key i true)) ∧
        (∀ v, badKey (.raisePfloor key v true) ∧ badKey (.raiseFfloor key v true)) ∧
        badKey (.setBiststart key true) ∧ badKey (.jtagOff key true)) ∧
      (modeIs s = .halt → s.ssu.quote = none →
        (∀ i : Fin 4,
          (o.roots[i].digest = none → o.roots[i].checkOk = true →
            Completes (exec (.programRoot 0x07B7 i true) s) fun t => rd t Reg.SSU_OTPSTS_CC = CC.done ∧
              t.ssu.otp = { o with roots := o.roots.set i ⟨otpData s, true, o.roots[i].revoked⟩ }) ∧
          (o.roots[i].digest.isSome = true → Completes (exec (.programRoot 0x07B7 i true) s) fun t =>
            rd t Reg.SSU_OTPSTS_CC = CC.failRefused ∧ rd t Reg.SSU_OTPSTS_RSN = Rsn.otpUsed ∧ t.ssu = s.ssu) ∧
          ((∃ j : Fin 4, j ≠ i ∧ rootUsable o.roots[j] = true) →
            Completes (exec (.revoke 0x07B7 i true) s) fun t => rd t Reg.SSU_OTPSTS_CC = CC.done ∧
              t.ssu.otp = { o with roots := o.roots.set i { o.roots[i] with revoked := true } }) ∧
          ((∀ j : Fin 4, j ≠ i → rootUsable o.roots[j] = false) →
            Completes (exec (.revoke 0x07B7 i true) s) fun t => rd t Reg.SSU_OTPSTS_CC = CC.failRefused ∧
              rd t Reg.SSU_OTPSTS_RSN = Rsn.lastKey ∧ t.ssu = s.ssu)) ∧
        (∀ v : BitVec 7,
          (o.pfloor < v.toNat → v.toNat ≤ 64 → Completes (exec (.raisePfloor 0x07B7 v true) s) fun t =>
            rd t Reg.SSU_OTPSTS_CC = CC.done ∧ t.ssu.otp = { o with pfloor := v.toNat }) ∧
          (o.ffloor < v.toNat → v.toNat ≤ 64 → Completes (exec (.raiseFfloor 0x07B7 v true) s) fun t =>
            rd t Reg.SSU_OTPSTS_CC = CC.done ∧ t.ssu.otp = { o with ffloor := v.toNat }) ∧
          ((v.toNat ≤ o.pfloor ∨ 64 < v.toNat) → Completes (exec (.raisePfloor 0x07B7 v true) s) fun t =>
            rd t Reg.SSU_OTPSTS_CC = CC.failRefused ∧ rd t Reg.SSU_OTPSTS_RSN = Rsn.outOfRange ∧ t.ssu = s.ssu)) ∧
        (Completes (exec (.setBiststart 0x07B7 true) s) fun t => rd t Reg.SSU_OTPSTS_CC = CC.done ∧
          t.ssu.otp = { o with bistStart := true } ∧ rd t Reg.SSU_SECSTS_BISTSTART = 1) ∧
        Completes (exec (.jtagOff 0x07B7 true) s) fun t => rd t Reg.SSU_OTPSTS_CC = CC.done ∧
          t.ssu.otp = { o with jtagOff := true } ∧ rd t Reg.SSU_SECSTS_JTAGOFF = 1)) ∧
    (rdB s Reg.SSU_QSTS_PEND = false → modeIs s ≠ .recall → modeIs s ≠ .test → modeIs s ≠ .save →
      Completes (exec .quote s) fun t => rd t Reg.SSU_QSTS_PEND = 1 ∧
        t.ssu = { s.ssu with quote := some ⟨rd64 s Reg.SSU_QADDR_LO_ADDR Reg.SSU_QADDR_HI_ADDR, none⟩ }) ∧
    (∀ a body, s.ssu.quote = some ⟨a, some body⟩ → s.ssu.otpWait = none →
      (Completes (exec (.quoteComplete true) s) fun t => rd t Reg.SSU_QSTS_CC = CC.done ∧ rd t Reg.SSU_QSTS_PEND = 0 ∧
        t.ssu.quote = none ∧ ∃ sig : List Byte, sig.length = 512 ∧ t.out = s.out ++ [.hostWrite a (body ++ sig)]) ∧
      Completes (exec (.quoteComplete false) s) fun t => rd t Reg.SSU_QSTS_CC = CC.failPeerUnreachable ∧
        rd t Reg.SSU_QSTS_RSN = Rsn.hostAbort ∧ t.ssu.quote = none ∧
        rd t Reg.HMX_HERR_PCIE = min (rd s Reg.HMX_HERR_PCIE + 1) (2 ^ Reg.HMX_HERR_PCIE.width - 1) ∧ t.out = s.out ++ [.aer]) ∧
    ∀ i : TapInstr, exec (.jtagInstruction i) s = .next { s with ssu := { s.ssu with tap :=
      if (o.jtagOff = true ∨ rdB s Reg.SSU_SECSTS_JTAGLOCK = true) ∧ (i = .extest ∨ i = .samplePreload) then .bypass else i } }
end

