-- ==== Sys2Proof/Laws/Tables.lean ====
section
/-! SUPPORT. The sparse tables: reading after a write, and the canonical form every operation keeps. -/

namespace Sys2Proof.Machine

variable {α : Type}

@[simp] theorem tget_nil (k : Nat) : tget ([] : Tbl α) k = none := rfl

theorem tget_cons (k' : Nat) (v : α) (t : Tbl α) (k : Nat) :
    tget ((k', v) :: t) k = if k' = k then some v else tget t k := rfl

/-- A read of the key just written. -/
@[simp] theorem tget_tput_same (t : Tbl α) (k : Nat) (v : α) : tget (tput t k v) k = some v := by
  induction t with
  | nil => simp [tput, tget]
  | cons e t ih =>
    obtain ⟨k', v'⟩ := e
    by_cases h : k < k'
    · simp [tput, h, tget]
    · by_cases h2 : k = k'
      · simp [tput, h2, tget]
      · simp [tput, h, h2, tget, ih, Ne.symm h2]

/-- A read of another key. -/
theorem tget_tput_ne {k k2 : Nat} (h : k2 ≠ k) (t : Tbl α) (v : α) : tget (tput t k v) k2 = tget t k2 := by
  induction t with
  | nil => simp [tput, tget, h.symm]
  | cons e t ih =>
    obtain ⟨k', v'⟩ := e
    by_cases h1 : k < k'
    · simp [tput, h1, tget, h.symm]
    · by_cases h2 : k = k'
      · subst h2; simp [tput, tget, h.symm]
      · simp [tput, h1, h2, tget, ih]

@[simp] theorem tget_tdel_same (t : Tbl α) (k : Nat) : tget (tdel t k) k = none := by
  induction t with
  | nil => rfl
  | cons e t ih =>
    obtain ⟨k', v'⟩ := e
    by_cases h : k' = k
    · simpa [tdel, List.filter_cons, h] using ih
    · simpa [tdel, List.filter_cons, h, tget_cons] using ih

theorem tget_tdel_ne {k k2 : Nat} (h : k2 ≠ k) (t : Tbl α) : tget (tdel t k) k2 = tget t k2 := by
  induction t with
  | nil => rfl
  | cons e t ih =>
    obtain ⟨k', v'⟩ := e
    by_cases h1 : k' = k
    · subst h1
      simpa [tdel, List.filter_cons, tget_cons, h.symm] using ih
    · by_cases h2 : k' = k2
      · subst h2
        simp [tdel, h1, tget_cons]
      · simpa [tdel, List.filter_cons, h1, h2, tget_cons] using ih

/-- A read, with the default of an absent entry, of the key just set. -/
theorem tget_tset_same [DecidableEq α] (d : α) (t : Tbl α) (k : Nat) (v : α) :
    (tget (tset d t k v) k).getD d = v := by
  by_cases h : v = d <;> simp [tset, h]

theorem tget_tset_ne [DecidableEq α] {k k2 : Nat} (h : k2 ≠ k) (d : α) (t : Tbl α) (v : α) :
    tget (tset d t k v) k2 = tget t k2 := by
  by_cases h1 : v = d
  · simp [tset, h1, tget_tdel_ne h]
  · simp [tset, h1, tget_tput_ne h]

/-! ### The canonical form -/

/-- Every key of a table is above a bound. -/
def Tbl.above (lo : Nat) (t : Tbl α) : Prop := ∀ e ∈ t, lo < e.1

theorem Tbl.rising_cons (e : Nat × α) (t : Tbl α) :
    Tbl.rising (e :: t) = true ↔ Tbl.above e.1 t ∧ Tbl.rising t = true := by
  induction t generalizing e with
  | nil => simp [Tbl.rising, Tbl.above]
  | cons f t ih =>
    simp only [Tbl.rising, Bool.and_eq_true, decide_eq_true_eq]
    constructor
    · rintro ⟨h1, h2⟩
      refine ⟨?_, h2⟩
      intro x hx
      rcases List.mem_cons.1 hx with rfl | hx
      · exact h1
      · exact lt_trans h1 (((ih f).1 h2).1 x hx)
    · rintro ⟨h1, h2⟩
      exact ⟨h1 f (by simp), h2⟩

theorem mem_tput {t : Tbl α} {k : Nat} {v : α} {e : Nat × α} (h : e ∈ tput t k v) : e = (k, v) ∨ e ∈ t := by
  induction t with
  | nil => simpa [tput] using h
  | cons f t ih =>
    obtain ⟨k', v'⟩ := f
    by_cases h1 : k < k'
    · simpa [tput, h1] using h
    · by_cases h2 : k = k'
      · subst h2
        simp only [tput, lt_irrefl, if_false, if_true, List.mem_cons] at h
        rcases h with h | h
        · exact .inl h
        · exact .inr (List.mem_cons_of_mem _ h)
      · simp only [tput, h1, h2, if_false, List.mem_cons] at h
        rcases h with h | h
        · exact .inr (by simp [h])
        · rcases ih h with h | h
          · exact .inl h
          · exact .inr (List.mem_cons_of_mem _ h)

/-- Putting an entry keeps the keys rising. -/
theorem Tbl.rising_tput {t : Tbl α} (h : Tbl.rising t = true) (k : Nat) (v : α) :
    Tbl.rising (tput t k v) = true := by
  induction t with
  | nil => rfl
  | cons f t ih =>
    obtain ⟨k', v'⟩ := f
    obtain ⟨ha, hr⟩ := (Tbl.rising_cons _ _).1 h
    by_cases h1 : k < k'
    · rw [tput, if_pos h1, Tbl.rising_cons]
      refine ⟨?_, h⟩
      intro x hx
      rcases List.mem_cons.1 hx with rfl | hx
      · exact h1
      · exact lt_trans h1 (ha x hx)
    · by_cases h2 : k = k'
      · subst h2
        rw [tput, if_neg h1, if_pos rfl, Tbl.rising_cons]
        exact ⟨ha, hr⟩
      · rw [tput, if_neg h1, if_neg h2, Tbl.rising_cons]
        refine ⟨?_, ih hr⟩
        intro x hx
        rcases mem_tput hx with rfl | hx
        · show k' < k; omega
        · exact ha x hx

/-- Taking entries away keeps the keys rising. -/
theorem Tbl.rising_filter {t : Tbl α} (h : Tbl.rising t = true) (p : Nat × α → Bool) :
    Tbl.rising (List.filter p t : Tbl α) = true := by
  induction t with
  | nil => rfl
  | cons f t ih =>
    obtain ⟨ha, hr⟩ := (Tbl.rising_cons _ _).1 h
    by_cases hp : p f = true
    · rw [List.filter_cons_of_pos hp, Tbl.rising_cons]
      refine ⟨?_, ih hr⟩
      intro x hx
      exact ha x (List.mem_filter.1 hx).1
    · rw [List.filter_cons_of_neg hp]
      exact ih hr

/-- Setting an entry keeps the canonical form. -/
theorem Tbl.canon_tset [DecidableEq α] {d : α} {t : Tbl α} (h : Tbl.canon d t = true) (k : Nat) (v : α) :
    Tbl.canon d (tset d t k v) = true := by
  simp only [Tbl.canon, Bool.and_eq_true, List.all_eq_true, decide_eq_true_eq] at h ⊢
  obtain ⟨hr, hd⟩ := h
  by_cases hv : v = d
  · rw [tset, if_pos hv]
    refine ⟨Tbl.rising_filter hr _, fun e he => hd e (List.mem_filter.1 he).1⟩
  · rw [tset, if_neg hv]
    refine ⟨Tbl.rising_tput hr k v, fun e he => ?_⟩
    rcases mem_tput he with rfl | he
    · exact hv
    · exact hd e he

end Sys2Proof.Machine
end

