-- ==== Sys2Proof/Laws/Fields.lean ====
section
/-! SUPPORT. The register fields: what a write leaves in every field. -/

namespace Sys2Proof.Machine

/-- The normal form of a field read: the table alone. -/
theorem rd_eq (s : State) (f : Field) (i : Nat) : rd s f i = rdIn s.flds f i := rfl

theorem rdB_eq (s : State) (f : Field) (i : Nat) : rdB s f i = decide (rdIn s.flds f i = 1) := rfl

@[simp] theorem wr_flds (s : State) (f : Field) (v i : Nat) : (wr s f v i).flds = wrTbl s.flds f i v := rfl

@[simp] theorem wrB_flds (s : State) (f : Field) (b : Bool) (i : Nat) :
    (wrB s f b i).flds = wrTbl s.flds f i (if b then 1 else 0) := rfl

/-- The element written reads as the value cut to the field's width. -/
@[simp] theorem rdIn_wrTbl_same (t : Tbl Nat) (f : Field) (i v : Nat) :
    rdIn (wrTbl t f i v) f i = v % 2 ^ f.width := tget_tset_same _ _ _ _

/-- Every other element keeps its value. -/
theorem rdIn_wrTbl_ne {f g : Field} {i j : Nat} (h : g.key j ≠ f.key i) (t : Tbl Nat) (v : Nat) :
    rdIn (wrTbl t f i v) g j = rdIn t g j := by
  simp [rdIn, wrTbl, tget_tset_ne h]

/-- Another element of the same field keeps its value. -/
theorem rdIn_wrTbl_elem {f : Field} {i j : Nat} (h : j ≠ i) (t : Tbl Nat) (v : Nat) :
    rdIn (wrTbl t f i v) f j = rdIn t f j :=
  rdIn_wrTbl_ne (by simp only [Field.key]; omega) t v

/-- Elements of fields with different numbers are different, for the elements a field can have. -/
theorem key_ne_of_id {f g : Field} {i j : Nat} (h : g.id ≠ f.id) (hi : i < 8192) (hj : j < 8192) :
    g.key j ≠ f.key i := by
  simp only [Field.key]; omega

@[simp] theorem rd_wr_same (s : State) (f : Field) (i v : Nat) : rd (wr s f v i) f i = v % 2 ^ f.width :=
  rdIn_wrTbl_same _ _ _ _

theorem rd_wr_ne {f g : Field} {i j : Nat} (h : g.key j ≠ f.key i) (s : State) (v : Nat) :
    rd (wr s f v i) g j = rd s g j := rdIn_wrTbl_ne h _ _

/-- A command status after it is set: code, reason, PEND 0. -/
theorem setStatus_reads {cc rsn pend : Field} {i : Nat} (s : State) (code reason : Nat)
    (h1 : cc.key i ≠ rsn.key i) (h2 : cc.key i ≠ pend.key i) (h3 : rsn.key i ≠ pend.key i) :
    rd (setStatus s cc rsn pend code reason i) cc i = code % 2 ^ cc.width ∧
    rd (setStatus s cc rsn pend code reason i) rsn i = reason % 2 ^ rsn.width ∧
    rd (setStatus s cc rsn pend code reason i) pend i = 0 := by
  refine ⟨?_, ?_, ?_⟩
  · simp only [setStatus]; rw [rd_wr_ne h2, rd_wr_ne h1, rd_wr_same]
  · simp only [setStatus]; rw [rd_wr_ne h3, rd_wr_same]
  · simp [setStatus]

end Sys2Proof.Machine
end

