-- ==== Sys2Proof/Laws/Memory.lean ====
section
/-! SUPPORT. The byte memories: a write is read back, leaves every other byte alone and keeps the canonical form. -/

namespace Sys2Proof.Machine

@[simp] theorem Memory.byte_setByte_same (m : Tbl Byte) (a : Nat) (b : Byte) :
    Memory.byte (Memory.setByte m a b) a = b := tget_tset_same _ _ _ _

theorem Memory.byte_setByte_ne {a a2 : Nat} (h : a2 ≠ a) (m : Tbl Byte) (b : Byte) :
    Memory.byte (Memory.setByte m a b) a2 = Memory.byte m a2 := by
  simp [Memory.byte, Memory.setByte, tget_tset_ne h]

theorem Memory.wf_setByte {m : Tbl Byte} (h : Memory.wf m = true) (a : Nat) (b : Byte) :
    Memory.wf (Memory.setByte m a b) = true := Tbl.canon_tset h a b

theorem Memory.wf_setBytes {m : Tbl Byte} (h : Memory.wf m = true) (a : Nat) (bs : List Byte) :
    Memory.wf (Memory.setBytes m a bs) = true := by
  induction bs generalizing m a with
  | nil => exact h
  | cons b bs ih => exact ih (Memory.wf_setByte h a b) (a + 1)

/-- A write of a range leaves every byte outside it alone. -/
theorem Memory.byte_setBytes_outside (bs : List Byte) (m : Tbl Byte) (a x : Nat) (h : x < a ∨ a + bs.length ≤ x) :
    Memory.byte (Memory.setBytes m a bs) x = Memory.byte m x := by
  induction bs generalizing m a with
  | nil => rfl
  | cons b bs ih =>
    have h1 : x < a + 1 ∨ a + 1 + bs.length ≤ x := by
      simp only [List.length_cons] at h; omega
    have h2 : x ≠ a := by simp only [List.length_cons] at h; omega
    exact (ih _ _ h1).trans (Memory.byte_setByte_ne h2 m b)

/-- A write of a range reads back byte by byte. -/
theorem Memory.byte_setBytes_inside (bs : List Byte) (m : Tbl Byte) (a k : Nat) (h : k < bs.length) :
    Memory.byte (Memory.setBytes m a bs) (a + k) = bs[k] := by
  induction bs generalizing m a k with
  | nil => simp at h
  | cons b bs ih =>
    cases k with
    | zero =>
      rw [Memory.setBytes, Memory.byte_setBytes_outside _ _ _ _ (.inl (by omega))]
      simp
    | succ k =>
      have := ih (Memory.setByte m a b) (a + 1) k (by simpa using h)
      rw [Memory.setBytes, show a + (k + 1) = a + 1 + k by omega, this]
      simp

end Sys2Proof.Machine
end

