-- ==== Sys2Proof/Laws/State.lean ====
section
/-! SUPPORT. What the shared operations leave unchanged, one lemma for each component of the state. -/

namespace Sys2Proof.Machine

/-! ### Register fields, output and the time base -/

@[simp] theorem wr_tb (s : State) (f : Field) (v i : Nat) : (wr s f v i).tb = s.tb := rfl
@[simp] theorem wr_rtc (s : State) (f : Field) (v i : Nat) : (wr s f v i).rtc = s.rtc := rfl
@[simp] theorem wr_ssu (s : State) (f : Field) (v i : Nat) : (wr s f v i).ssu = s.ssu := rfl
@[simp] theorem wr_csa (s : State) (f : Field) (v i : Nat) : (wr s f v i).csa = s.csa := rfl
@[simp] theorem wr_lpe (s : State) (f : Field) (v i : Nat) : (wr s f v i).lpe = s.lpe := rfl
@[simp] theorem wr_lsv (s : State) (f : Field) (v i : Nat) : (wr s f v i).lsv = s.lsv := rfl
@[simp] theorem wr_mte (s : State) (f : Field) (v i : Nat) : (wr s f v i).mte = s.mte := rfl
@[simp] theorem wr_fct (s : State) (f : Field) (v i : Nat) : (wr s f v i).fct = s.fct := rfl
@[simp] theorem wr_fbc (s : State) (f : Field) (v i : Nat) : (wr s f v i).fbc = s.fbc := rfl
@[simp] theorem wr_npc (s : State) (f : Field) (v i : Nat) : (wr s f v i).npc = s.npc := rfl
@[simp] theorem wr_rdu (s : State) (f : Field) (v i : Nat) : (wr s f v i).rdu = s.rdu := rfl
@[simp] theorem wr_csc (s : State) (f : Field) (v i : Nat) : (wr s f v i).csc = s.csc := rfl
@[simp] theorem wr_nvs (s : State) (f : Field) (v i : Nat) : (wr s f v i).nvs = s.nvs := rfl
@[simp] theorem wr_evr (s : State) (f : Field) (v i : Nat) : (wr s f v i).evr = s.evr := rfl
@[simp] theorem wr_hmx (s : State) (f : Field) (v i : Nat) : (wr s f v i).hmx = s.hmx := rfl
@[simp] theorem wr_recvs (s : State) (f : Field) (v i : Nat) : (wr s f v i).recvs = s.recvs := rfl
@[simp] theorem wr_out (s : State) (f : Field) (v i : Nat) : (wr s f v i).out = s.out := rfl
@[simp] theorem wr_free (s : State) (f : Field) (v i : Nat) : (wr s f v i).free = s.free := rfl
@[simp] theorem wr_pending (s : State) (f : Field) (v i : Nat) : (wr s f v i).pending = s.pending := rfl
@[simp] theorem wrB_tb (s : State) (f : Field) (b : Bool) (i : Nat) : (wrB s f b i).tb = s.tb := rfl
@[simp] theorem wrB_rtc (s : State) (f : Field) (b : Bool) (i : Nat) : (wrB s f b i).rtc = s.rtc := rfl
@[simp] theorem wrB_ssu (s : State) (f : Field) (b : Bool) (i : Nat) : (wrB s f b i).ssu = s.ssu := rfl
@[simp] theorem wrB_csa (s : State) (f : Field) (b : Bool) (i : Nat) : (wrB s f b i).csa = s.csa := rfl
@[simp] theorem wrB_lpe (s : State) (f : Field) (b : Bool) (i : Nat) : (wrB s f b i).lpe = s.lpe := rfl
@[simp] theorem wrB_lsv (s : State) (f : Field) (b : Bool) (i : Nat) : (wrB s f b i).lsv = s.lsv := rfl
@[simp] theorem wrB_mte (s : State) (f : Field) (b : Bool) (i : Nat) : (wrB s f b i).mte = s.mte := rfl
@[simp] theorem wrB_fct (s : State) (f : Field) (b : Bool) (i : Nat) : (wrB s f b i).fct = s.fct := rfl
@[simp] theorem wrB_fbc (s : State) (f : Field) (b : Bool) (i : Nat) : (wrB s f b i).fbc = s.fbc := rfl
@[simp] theorem wrB_npc (s : State) (f : Field) (b : Bool) (i : Nat) : (wrB s f b i).npc = s.npc := rfl
@[simp] theorem wrB_rdu (s : State) (f : Field) (b : Bool) (i : Nat) : (wrB s f b i).rdu = s.rdu := rfl
@[simp] theorem wrB_csc (s : State) (f : Field) (b : Bool) (i : Nat) : (wrB s f b i).csc = s.csc := rfl
@[simp] theorem wrB_nvs (s : State) (f : Field) (b : Bool) (i : Nat) : (wrB s f b i).nvs = s.nvs := rfl
@[simp] theorem wrB_evr (s : State) (f : Field) (b : Bool) (i : Nat) : (wrB s f b i).evr = s.evr := rfl
@[simp] theorem wrB_hmx (s : State) (f : Field) (b : Bool) (i : Nat) : (wrB s f b i).hmx = s.hmx := rfl
@[simp] theorem wrB_recvs (s : State) (f : Field) (b : Bool) (i : Nat) : (wrB s f b i).recvs = s.recvs := rfl
@[simp] theorem wrB_out (s : State) (f : Field) (b : Bool) (i : Nat) : (wrB s f b i).out = s.out := rfl
@[simp] theorem wrB_free (s : State) (f : Field) (b : Bool) (i : Nat) : (wrB s f b i).free = s.free := rfl
@[simp] theorem wrB_pending (s : State) (f : Field) (b : Bool) (i : Nat) : (wrB s f b i).pending = s.pending := rfl
@[simp] theorem bump_tb (s : State) (f : Field) (i n : Nat) : (bump s f i n).tb = s.tb := rfl
@[simp] theorem bump_rtc (s : State) (f : Field) (i n : Nat) : (bump s f i n).rtc = s.rtc := rfl
@[simp] theorem bump_ssu (s : State) (f : Field) (i n : Nat) : (bump s f i n).ssu = s.ssu := rfl
@[simp] theorem bump_csa (s : State) (f : Field) (i n : Nat) : (bump s f i n).csa = s.csa := rfl
@[simp] theorem bump_lpe (s : State) (f : Field) (i n : Nat) : (bump s f i n).lpe = s.lpe := rfl
@[simp] theorem bump_lsv (s : State) (f : Field) (i n : Nat) : (bump s f i n).lsv = s.lsv := rfl
@[simp] theorem bump_mte (s : State) (f : Field) (i n : Nat) : (bump s f i n).mte = s.mte := rfl
@[simp] theorem bump_fct (s : State) (f : Field) (i n : Nat) : (bump s f i n).fct = s.fct := rfl
@[simp] theorem bump_fbc (s : State) (f : Field) (i n : Nat) : (bump s f i n).fbc = s.fbc := rfl
@[simp] theorem bump_npc (s : State) (f : Field) (i n : Nat) : (bump s f i n).npc = s.npc := rfl
@[simp] theorem bump_rdu (s : State) (f : Field) (i n : Nat) : (bump s f i n).rdu = s.rdu := rfl
@[simp] theorem bump_csc (s : State) (f : Field) (i n : Nat) : (bump s f i n).csc = s.csc := rfl
@[simp] theorem bump_nvs (s : State) (f : Field) (i n : Nat) : (bump s f i n).nvs = s.nvs := rfl
@[simp] theorem bump_evr (s : State) (f : Field) (i n : Nat) : (bump s f i n).evr = s.evr := rfl
@[simp] theorem bump_hmx (s : State) (f : Field) (i n : Nat) : (bump s f i n).hmx = s.hmx := rfl
@[simp] theorem bump_recvs (s : State) (f : Field) (i n : Nat) : (bump s f i n).recvs = s.recvs := rfl
@[simp] theorem bump_out (s : State) (f : Field) (i n : Nat) : (bump s f i n).out = s.out := rfl
@[simp] theorem bump_free (s : State) (f : Field) (i n : Nat) : (bump s f i n).free = s.free := rfl
@[simp] theorem bump_pending (s : State) (f : Field) (i n : Nat) : (bump s f i n).pending = s.pending := rfl
@[simp] theorem setStatus_tb (s : State) (a b d : Field) (x y i : Nat) : (setStatus s a b d x y i).tb = s.tb := rfl
@[simp] theorem setStatus_rtc (s : State) (a b d : Field) (x y i : Nat) : (setStatus s a b d x y i).rtc = s.rtc := rfl
@[simp] theorem setStatus_ssu (s : State) (a b d : Field) (x y i : Nat) : (setStatus s a b d x y i).ssu = s.ssu := rfl
@[simp] theorem setStatus_csa (s : State) (a b d : Field) (x y i : Nat) : (setStatus s a b d x y i).csa = s.csa := rfl
@[simp] theorem setStatus_lpe (s : State) (a b d : Field) (x y i : Nat) : (setStatus s a b d x y i).lpe = s.lpe := rfl
@[simp] theorem setStatus_lsv (s : State) (a b d : Field) (x y i : Nat) : (setStatus s a b d x y i).lsv = s.lsv := rfl
@[simp] theorem setStatus_mte (s : State) (a b d : Field) (x y i : Nat) : (setStatus s a b d x y i).mte = s.mte := rfl
@[simp] theorem setStatus_fct (s : State) (a b d : Field) (x y i : Nat) : (setStatus s a b d x y i).fct = s.fct := rfl
@[simp] theorem setStatus_fbc (s : State) (a b d : Field) (x y i : Nat) : (setStatus s a b d x y i).fbc = s.fbc := rfl
@[simp] theorem setStatus_npc (s : State) (a b d : Field) (x y i : Nat) : (setStatus s a b d x y i).npc = s.npc := rfl
@[simp] theorem setStatus_rdu (s : State) (a b d : Field) (x y i : Nat) : (setStatus s a b d x y i).rdu = s.rdu := rfl
@[simp] theorem setStatus_csc (s : State) (a b d : Field) (x y i : Nat) : (setStatus s a b d x y i).csc = s.csc := rfl
@[simp] theorem setStatus_nvs (s : State) (a b d : Field) (x y i : Nat) : (setStatus s a b d x y i).nvs = s.nvs := rfl
@[simp] theorem setStatus_evr (s : State) (a b d : Field) (x y i : Nat) : (setStatus s a b d x y i).evr = s.evr := rfl
@[simp] theorem setStatus_hmx (s : State) (a b d : Field) (x y i : Nat) : (setStatus s a b d x y i).hmx = s.hmx := rfl
@[simp] theorem setStatus_recvs (s : State) (a b d : Field) (x y i : Nat) : (setStatus s a b d x y i).recvs = s.recvs := rfl
@[simp] theorem setStatus_out (s : State) (a b d : Field) (x y i : Nat) : (setStatus s a b d x y i).out = s.out := rfl
@[simp] theorem setStatus_free (s : State) (a b d : Field) (x y i : Nat) : (setStatus s a b d x y i).free = s.free := rfl
@[simp] theorem setStatus_pending (s : State) (a b d : Field) (x y i : Nat) : (setStatus s a b d x y i).pending = s.pending := rfl
@[simp] theorem emit_flds (s : State) (o : Out) : (emit s o).flds = s.flds := rfl
@[simp] theorem emit_tb (s : State) (o : Out) : (emit s o).tb = s.tb := rfl
@[simp] theorem emit_rtc (s : State) (o : Out) : (emit s o).rtc = s.rtc := rfl
@[simp] theorem emit_ssu (s : State) (o : Out) : (emit s o).ssu = s.ssu := rfl
@[simp] theorem emit_csa (s : State) (o : Out) : (emit s o).csa = s.csa := rfl
@[simp] theorem emit_lpe (s : State) (o : Out) : (emit s o).lpe = s.lpe := rfl
@[simp] theorem emit_lsv (s : State) (o : Out) : (emit s o).lsv = s.lsv := rfl
@[simp] theorem emit_mte (s : State) (o : Out) : (emit s o).mte = s.mte := rfl
@[simp] theorem emit_fct (s : State) (o : Out) : (emit s o).fct = s.fct := rfl
@[simp] theorem emit_fbc (s : State) (o : Out) : (emit s o).fbc = s.fbc := rfl
@[simp] theorem emit_npc (s : State) (o : Out) : (emit s o).npc = s.npc := rfl
@[simp] theorem emit_rdu (s : State) (o : Out) : (emit s o).rdu = s.rdu := rfl
@[simp] theorem emit_csc (s : State) (o : Out) : (emit s o).csc = s.csc := rfl
@[simp] theorem emit_nvs (s : State) (o : Out) : (emit s o).nvs = s.nvs := rfl
@[simp] theorem emit_evr (s : State) (o : Out) : (emit s o).evr = s.evr := rfl
@[simp] theorem emit_hmx (s : State) (o : Out) : (emit s o).hmx = s.hmx := rfl
@[simp] theorem emit_recvs (s : State) (o : Out) : (emit s o).recvs = s.recvs := rfl
@[simp] theorem emit_free (s : State) (o : Out) : (emit s o).free = s.free := rfl
@[simp] theorem emit_pending (s : State) (o : Out) : (emit s o).pending = s.pending := rfl
@[simp] theorem emit_out (s : State) (o : Out) : (emit s o).out = s.out ++ [o] := rfl
@[simp] theorem advance_flds (s : State) (t : Nat) : (advance s t).flds = s.flds := rfl
@[simp] theorem advance_rtc (s : State) (t : Nat) : (advance s t).rtc = s.rtc := rfl
@[simp] theorem advance_ssu (s : State) (t : Nat) : (advance s t).ssu = s.ssu := rfl
@[simp] theorem advance_csa (s : State) (t : Nat) : (advance s t).csa = s.csa := rfl
@[simp] theorem advance_lpe (s : State) (t : Nat) : (advance s t).lpe = s.lpe := rfl
@[simp] theorem advance_lsv (s : State) (t : Nat) : (advance s t).lsv = s.lsv := rfl
@[simp] theorem advance_mte (s : State) (t : Nat) : (advance s t).mte = s.mte := rfl
@[simp] theorem advance_fct (s : State) (t : Nat) : (advance s t).fct = s.fct := rfl
@[simp] theorem advance_fbc (s : State) (t : Nat) : (advance s t).fbc = s.fbc := rfl
@[simp] theorem advance_npc (s : State) (t : Nat) : (advance s t).npc = s.npc := rfl
@[simp] theorem advance_rdu (s : State) (t : Nat) : (advance s t).rdu = s.rdu := rfl
@[simp] theorem advance_csc (s : State) (t : Nat) : (advance s t).csc = s.csc := rfl
@[simp] theorem advance_nvs (s : State) (t : Nat) : (advance s t).nvs = s.nvs := rfl
@[simp] theorem advance_evr (s : State) (t : Nat) : (advance s t).evr = s.evr := rfl
@[simp] theorem advance_hmx (s : State) (t : Nat) : (advance s t).hmx = s.hmx := rfl
@[simp] theorem advance_recvs (s : State) (t : Nat) : (advance s t).recvs = s.recvs := rfl
@[simp] theorem advance_out (s : State) (t : Nat) : (advance s t).out = s.out := rfl
@[simp] theorem advance_free (s : State) (t : Nat) : (advance s t).free = s.free := rfl
@[simp] theorem advance_pending (s : State) (t : Nat) : (advance s t).pending = s.pending := rfl
@[simp] theorem advance_now (s : State) (t : Nat) : (advance s t).tb.now = max s.tb.now (min t ((s.tb.tick + 1) * tickNs s - 1)) := rfl
@[simp] theorem advance_tick (s : State) (t : Nat) : (advance s t).tb.tick = s.tb.tick := rfl

@[simp] theorem bump_flds (s : State) (f : Field) (i n : Nat) :
    (bump s f i n).flds = wrTbl s.flds f i (min (rdIn s.flds f i + n) (2 ^ f.width - 1)) := rfl

@[simp] theorem setStatus_flds (s : State) (cc rsn pend : Field) (code reason i : Nat) :
    (setStatus s cc rsn pend code reason i).flds =
      wrTbl (wrTbl (wrTbl s.flds cc i code) rsn i reason) pend i 0 := rfl

/-- A counter after it is raised. -/
theorem bump_same (s : State) (f : Field) (i n : Nat) :
    rd (bump s f i n) f i = min (rd s f i + n) (2 ^ f.width - 1) := by
  have h : min (rd s f i + n) (2 ^ f.width - 1) < 2 ^ f.width := by
    have := Nat.two_pow_pos f.width
    omega
  simp only [bump, rd_wr_same]
  exact Nat.mod_eq_of_lt h

/-! ### Event records -/

/-- The fields the acceptance of a record may write. -/
def evrKeys (k : Nat) : Prop :=
  k ≠ Reg.EVR_STATUS_STAGED.key 0 ∧ k ≠ Reg.NVS_WQ_DEPTH.key 0 ∧ ∀ i < 4, k ≠ Reg.EVR_LOSTDROP_DROP.key i

/-- A field other than those of the recorder and of the queue's depth. -/
theorem evrKeys_of_id {g : Field} {j : Nat} (hj : j < 8192) (h1 : g.id ≠ Reg.EVR_STATUS_STAGED.id)
    (h2 : g.id ≠ Reg.NVS_WQ_DEPTH.id) (h3 : g.id ≠ Reg.EVR_LOSTDROP_DROP.id) : evrKeys (g.key j) :=
  ⟨key_ne_of_id h1 (by omega) hj, key_ne_of_id h2 (by omega) hj, fun _ hi => key_ne_of_id h3 (by omega) hj⟩

theorem sevCode_lt (x : Sev) : sevCode x < 4 := by cases x <;> decide

/-- The acceptance of a record changes the recorder, the write queue and their fields alone. -/
theorem evrAccept_frame (s : State) (code source : Nat) (sev : Sev) (words : List (BitVec 32)) :
    ∃ f n e, evrAccept s code source sev words = { s with flds := f, nvs := n, evr := e } ∧
      (∀ g : Field, ∀ j, evrKeys (g.key j) → rdIn f g j = rdIn s.flds g j) ∧
      n.recs = s.nvs.recs ∧ n.images = s.nvs.images ∧ n.cur = s.nvs.cur ∧ e.log = s.evr.log := by
  have drop : ∀ u : State, ∃ f n e, evrDrop u sev = { u with flds := f, nvs := n, evr := e } ∧
      (∀ g : Field, ∀ j, evrKeys (g.key j) → rdIn f g j = rdIn u.flds g j) ∧
      n.recs = u.nvs.recs ∧ n.images = u.nvs.images ∧ n.cur = u.nvs.cur ∧ e.log = u.evr.log := by
    intro u
    by_cases h : rdB (bump u Reg.EVR_LOSTDROP_DROP (sevCode sev)) Reg.EVR_STATUS_FROZEN = true
    · refine ⟨_, _, _, if_pos h, ?_, ?_, ?_, ?_, ?_⟩
      · exact fun g j h => rdIn_wrTbl_ne (h.2.2 _ (sevCode_lt sev)) _ _
      all_goals rfl
    · refine ⟨_, _, _, if_neg h, ?_, ?_, ?_, ?_, ?_⟩
      · exact fun g j h => rdIn_wrTbl_ne (h.2.2 _ (sevCode_lt sev)) _ _
      all_goals rfl
  have stage : ∀ (u : State) (r : Rec), r.sev = sev → ∃ f n e, evrStage u r = { u with flds := f, nvs := n, evr := e } ∧
      (∀ g : Field, ∀ j, evrKeys (g.key j) → rdIn f g j = rdIn u.flds g j) ∧
      n.recs = u.nvs.recs ∧ n.images = u.nvs.images ∧ n.cur = u.nvs.cur ∧ e.log = u.evr.log := by
    intro u r hr
    by_cases h : u.evr.staging.length < 64
    · refine ⟨_, _, _, if_pos h, ?_, ?_, ?_, ?_, ?_⟩
      · exact fun g j h => rdIn_wrTbl_ne h.1 _ _
      all_goals rfl
    · rw [show evrStage u r = evrDrop u r.sev by unfold evrStage; exact if_neg h, hr]; exact drop u
  have queue : ∀ (u : State) (r : Rec), r.sev = sev → ∃ f n e, evrQueue u r = { u with flds := f, nvs := n, evr := e } ∧
      (∀ g : Field, ∀ j, evrKeys (g.key j) → rdIn f g j = rdIn u.flds g j) ∧
      n.recs = u.nvs.recs ∧ n.images = u.nvs.images ∧ n.cur = u.nvs.cur ∧ e.log = u.evr.log := by
    intro u r hr
    by_cases h : u.nvs.queue.length < 512
    · refine ⟨_, _, _, if_pos h, ?_, ?_, ?_, ?_, ?_⟩
      · exact fun g j h => rdIn_wrTbl_ne h.2.1 _ _
      all_goals rfl
    · rw [show evrQueue u r = evrDrop u r.sev by unfold evrQueue; exact if_neg h, hr]; exact drop u
  by_cases h1 : recalling s = true
  · rw [show evrAccept s code source sev words = _ by unfold evrAccept; exact if_pos h1]
    exact stage _ _ rfl
  · by_cases h2 : 256 ≤ s.evr.sub
    · rw [show evrAccept s code source sev words = evrDrop s sev by simp only [evrAccept, h1, h2, if_true]; rfl]
      exact drop s
    · unfold evrAccept
      rw [if_neg h1, if_neg h2]
      dsimp only
      by_cases h3 : rdB s Reg.EVR_STATUS_FROZEN = true
      · simp only [if_pos h3]
        obtain ⟨f, n, e, h, hf, h1, h2, h3, h4⟩ := stage { s with evr := { s.evr with sub := s.evr.sub + 1 } } ⟨code, source, sev, words, BitVec.ofNat 32 (rd s Reg.EVR_OPSEC_OPSEC),
          BitVec.ofNat 24 (rd s Reg.EVR_PCC_PCC), BitVec.ofNat 8 s.evr.sub, rdB s Reg.EVR_STATUS_FROZEN, false⟩ rfl
        exact ⟨f, n, e, h, hf, h1, h2, h3, h4⟩
      · simp only [if_neg h3]
        obtain ⟨f, n, e, h, hf, h1, h2, h3, h4⟩ := queue { s with evr := { s.evr with sub := s.evr.sub + 1 } } ⟨code, source, sev, words, BitVec.ofNat 32 (rd s Reg.EVR_OPSEC_OPSEC),
          BitVec.ofNat 24 (rd s Reg.EVR_PCC_PCC), BitVec.ofNat 8 s.evr.sub, rdB s Reg.EVR_STATUS_FROZEN, false⟩ rfl
        exact ⟨f, n, e, h, hf, h1, h2, h3, h4⟩

/-- A device event changes the recorder, the write queue and their fields alone. -/
theorem event_frame (s : State) (code : Nat) (sev : Sev) (ps : List Nat) :
    ∃ f n e, event s code sev ps = { s with flds := f, nvs := n, evr := e } ∧
      (∀ g : Field, ∀ j, evrKeys (g.key j) → rdIn f g j = rdIn s.flds g j) ∧
      n.recs = s.nvs.recs ∧ n.images = s.nvs.images ∧ n.cur = s.nvs.cur ∧ e.log = s.evr.log :=
  evrAccept_frame _ _ _ _ _

@[simp] theorem event_tb (s : State) (code : Nat) (sev : Sev) (ps : List Nat) : (event s code sev ps).tb = s.tb := by
  obtain ⟨_, _, _, h, -⟩ := event_frame s code sev ps; rw [h]
@[simp] theorem event_rtc (s : State) (code : Nat) (sev : Sev) (ps : List Nat) : (event s code sev ps).rtc = s.rtc := by
  obtain ⟨_, _, _, h, -⟩ := event_frame s code sev ps; rw [h]
@[simp] theorem event_ssu (s : State) (code : Nat) (sev : Sev) (ps : List Nat) : (event s code sev ps).ssu = s.ssu := by
  obtain ⟨_, _, _, h, -⟩ := event_frame s code sev ps; rw [h]
@[simp] theorem event_csa (s : State) (code : Nat) (sev : Sev) (ps : List Nat) : (event s code sev ps).csa = s.csa := by
  obtain ⟨_, _, _, h, -⟩ := event_frame s code sev ps; rw [h]
@[simp] theorem event_lpe (s : State) (code : Nat) (sev : Sev) (ps : List Nat) : (event s code sev ps).lpe = s.lpe := by
  obtain ⟨_, _, _, h, -⟩ := event_frame s code sev ps; rw [h]
@[simp] theorem event_lsv (s : State) (code : Nat) (sev : Sev) (ps : List Nat) : (event s code sev ps).lsv = s.lsv := by
  obtain ⟨_, _, _, h, -⟩ := event_frame s code sev ps; rw [h]
@[simp] theorem event_mte (s : State) (code : Nat) (sev : Sev) (ps : List Nat) : (event s code sev ps).mte = s.mte := by
  obtain ⟨_, _, _, h, -⟩ := event_frame s code sev ps; rw [h]
@[simp] theorem event_fct (s : State) (code : Nat) (sev : Sev) (ps : List Nat) : (event s code sev ps).fct = s.fct := by
  obtain ⟨_, _, _, h, -⟩ := event_frame s code sev ps; rw [h]
@[simp] theorem event_fbc (s : State) (code : Nat) (sev : Sev) (ps : List Nat) : (event s code sev ps).fbc = s.fbc := by
  obtain ⟨_, _, _, h, -⟩ := event_frame s code sev ps; rw [h]
@[simp] theorem event_npc (s : State) (code : Nat) (sev : Sev) (ps : List Nat) : (event s code sev ps).npc = s.npc := by
  obtain ⟨_, _, _, h, -⟩ := event_frame s code sev ps; rw [h]
@[simp] theorem event_rdu (s : State) (code : Nat) (sev : Sev) (ps : List Nat) : (event s code sev ps).rdu = s.rdu := by
  obtain ⟨_, _, _, h, -⟩ := event_frame s code sev ps; rw [h]
@[simp] theorem event_csc (s : State) (code : Nat) (sev : Sev) (ps : List Nat) : (event s code sev ps).csc = s.csc := by
  obtain ⟨_, _, _, h, -⟩ := event_frame s code sev ps; rw [h]
@[simp] theorem event_hmx (s : State) (code : Nat) (sev : Sev) (ps : List Nat) : (event s code sev ps).hmx = s.hmx := by
  obtain ⟨_, _, _, h, -⟩ := event_frame s code sev ps; rw [h]
@[simp] theorem event_recvs (s : State) (code : Nat) (sev : Sev) (ps : List Nat) : (event s code sev ps).recvs = s.recvs := by
  obtain ⟨_, _, _, h, -⟩ := event_frame s code sev ps; rw [h]
@[simp] theorem event_out (s : State) (code : Nat) (sev : Sev) (ps : List Nat) : (event s code sev ps).out = s.out := by
  obtain ⟨_, _, _, h, -⟩ := event_frame s code sev ps; rw [h]
@[simp] theorem event_free (s : State) (code : Nat) (sev : Sev) (ps : List Nat) : (event s code sev ps).free = s.free := by
  obtain ⟨_, _, _, h, -⟩ := event_frame s code sev ps; rw [h]
@[simp] theorem event_pending (s : State) (code : Nat) (sev : Sev) (ps : List Nat) : (event s code sev ps).pending = s.pending := by
  obtain ⟨_, _, _, h, -⟩ := event_frame s code sev ps; rw [h]

/-- A device event leaves every field outside the recorder and the queue's depth alone. -/
theorem event_rdIn (s : State) (code : Nat) (sev : Sev) (ps : List Nat) {g : Field} {j : Nat} (h : evrKeys (g.key j)) :
    rdIn (event s code sev ps).flds g j = rdIn s.flds g j := by
  obtain ⟨_, _, _, h1, h2, -⟩ := event_frame s code sev ps; rw [h1]; exact h2 g j h

end Sys2Proof.Machine
end

