-- ==== Sys2Proof/Laws/Kcis.lean ====
section
/-! SUPPORT. KCIS: saturation, rounding, the journal and little-endian bytes. -/

namespace Sys2Proof.Machine

/-! ### Saturation and rounding -/

theorem satTo_inside (w : Nat) (v : Int) (h1 : -(2 ^ (w - 1)) ≤ v) (h2 : v ≤ 2 ^ (w - 1) - 1) :
    satTo w v = (v, false) := by
  simp only [satTo]; rw [if_neg (by omega), if_neg (by omega)]

theorem satTo_above (w : Nat) (v : Int) (h : 2 ^ (w - 1) - 1 < v) : satTo w v = (2 ^ (w - 1) - 1, true) := by
  simp only [satTo]; rw [if_pos (by omega)]

theorem satTo_below (w : Nat) (v : Int) (h : v < -(2 ^ (w - 1))) : satTo w v = (-(2 ^ (w - 1)), true) := by
  have : (0 : Int) < 2 ^ (w - 1) := by positivity
  simp only [satTo]; rw [if_neg (by omega), if_pos (by omega)]

theorem sat96_inside (v : Int) (h1 : -(2 ^ 95 - 1) ≤ v) (h2 : v ≤ 2 ^ 95 - 1) : sat96 v = (v, false) := by
  simp only [sat96]; rw [if_neg (by omega), if_neg (by omega)]

/-- The rounding of QMUL and ARD as their listings write it. -/
theorem roundAway_eq (t : Int) (n : Nat) :
    roundAway t n =
      if n = 0 then t else if 0 ≤ t then (t + 2 ^ (n - 1)) / 2 ^ n else -((-t + 2 ^ (n - 1)) / 2 ^ n) := by
  unfold roundAway
  by_cases h : n = 0
  · simp [h]
  · simp only [h, if_false]
    by_cases ht : 0 ≤ t
    · simp only [ht, if_true]
      push_cast
      rw [abs_of_nonneg ht]
    · simp only [ht, if_false]
      push_cast
      rw [abs_of_neg (by omega)]

/-- The high half of a 128-bit product. -/
theorem mulh_word (v : Int) : BitVec.extractLsb' 64 64 (BitVec.ofInt 128 v) = ofInt64 (v / 2 ^ 64) := by
  simp only [ofInt64]
  apply BitVec.eq_of_toNat_eq
  simp only [BitVec.extractLsb'_toNat, BitVec.toNat_ofInt, Nat.shiftRight_eq_div_pow]
  omega

/-- The word LDIH writes. -/
theorem ldih_word (imm : BitVec 32) (x : Word) :
    imm ++ x.setWidth 32 = (imm.setWidth 64 <<< 32) ||| (x.setWidth 32).setWidth 64 := by
  apply BitVec.eq_of_getLsbD_eq
  intro k hk
  simp only [BitVec.getLsbD_append, BitVec.getLsbD_or, BitVec.getLsbD_shiftLeft, BitVec.getLsbD_setWidth]
  by_cases h : k < 32
  · simp [h]; omega
  · simp [h, hk]; omega

/-! ### Little-endian bytes -/

@[simp] theorem leBytes_length (n v : Nat) : (leBytes n v).length = n := by
  induction n generalizing v with
  | zero => rfl
  | succ n ih => simp [leBytes, ih]

theorem leBytes_getElem (n v k : Nat) (h : k < (leBytes n v).length) :
    (leBytes n v)[k] = BitVec.ofNat 8 (v / 256 ^ k) := by
  induction n generalizing v k with
  | zero => simp [leBytes] at h
  | succ n ih =>
    cases k with
    | zero => simp [leBytes]; apply BitVec.eq_of_toNat_eq; simp
    | succ k =>
      simp only [leBytes, List.getElem_cons_succ]
      rw [ih]
      rw [Nat.div_div_eq_div_mul, pow_succ']

/-- A byte of a word's little-endian bytes is the byte of the word. -/
theorem leBytes_word (n : Nat) (w : Word) (k : Nat) (h : k < (leBytes n w.toNat).length) :
    (leBytes n w.toNat)[k] = w.extractLsb' (8 * k) 8 := by
  rw [leBytes_getElem]
  apply BitVec.eq_of_toNat_eq
  have h8 : 256 ^ k = 2 ^ (8 * k) := by rw [pow_mul]; norm_num
  simp [BitVec.extractLsb'_toNat, Nat.shiftRight_eq_div_pow, h8]

theorem leNat_map_range (f : Nat → Byte) (n : Nat) :
    leNat ((List.range n).map f) = ((List.range n).map fun k => (f k).toNat * 256 ^ k).sum := by
  induction n generalizing f with
  | zero => rfl
  | succ n ih =>
    rw [List.range_succ_eq_map]
    simp only [List.map_cons, List.map_map, leNat, List.sum_cons, pow_zero, mul_one]
    have h1 : List.map (f ∘ Nat.succ) (List.range n) = List.map (fun k => f (k + 1)) (List.range n) := rfl
    rw [h1, ih (fun k => f (k + 1)), ← List.sum_map_mul_left]
    congr 2
    apply List.map_congr_left
    intro k _
    simp only [Function.comp, Nat.succ_eq_add_one, pow_succ]; ring

theorem leNat_lt (l : List Byte) : leNat l < 2 ^ (8 * l.length) := by
  induction l with
  | nil => simp [leNat]
  | cons b l ih =>
    have := b.isLt
    simp only [leNat, List.length_cons]
    rw [show 8 * (l.length + 1) = 8 * l.length + 8 by ring, pow_add]
    omega

/-! ### The journal -/

theorem jkey_inj {sp sp' : Space} {a a' : Nat} (h : jkey sp a = jkey sp' a') : sp = sp' ∧ a = a' := by
  cases sp <;> cases sp' <;> simp [jkey] at h ⊢ <;> omega

/-- A store into the journal changes nothing else of the instance. -/
theorem journalBytes_fields (i : Inst) (sp : Space) (a : Nat) (bs : List Byte) :
    ∃ j, journalBytes i sp a bs = { i with journal := j } := by
  induction bs generalizing i a with
  | nil => exact ⟨_, rfl⟩
  | cons b bs ih =>
    obtain ⟨j, h⟩ := ih { i with journal := tput i.journal (jkey sp a) b } (a + 1)
    exact ⟨j, h⟩

theorem journalBytes_outside (i : Inst) (sp sp' : Space) (a x : Nat) (bs : List Byte)
    (h : sp' ≠ sp ∨ x < a ∨ a + bs.length ≤ x) :
    tget (journalBytes i sp a bs).journal (jkey sp' x) = tget i.journal (jkey sp' x) := by
  induction bs generalizing i a with
  | nil => rfl
  | cons b bs ih =>
    simp only [List.length_cons] at h
    rw [journalBytes, ih _ _ (by rcases h with h | h | h; exact .inl h; right; left; omega; right; right; omega)]
    apply tget_tput_ne
    intro he
    obtain ⟨h1, h2⟩ := jkey_inj he
    rcases h with h | h | h
    · exact h h1
    · omega
    · omega

theorem journalBytes_inside (i : Inst) (sp : Space) (a k : Nat) (bs : List Byte) (h : k < bs.length) :
    tget (journalBytes i sp a bs).journal (jkey sp (a + k)) = some bs[k] := by
  induction bs generalizing i a k with
  | nil => simp at h
  | cons b bs ih =>
    cases k with
    | zero => rw [journalBytes, journalBytes_outside _ _ _ _ _ _ (.inr (.inl (by omega)))]; simp
    | succ k =>
      rw [journalBytes, show a + (k + 1) = (a + 1) + k by omega, ih _ _ _ (by simpa using h)]
      simp

/-- A byte the instance sees after a store, outside the store. -/
theorem instByte_outside (s : State) (i : Inst) (sp sp' : Space) (a x : Nat) (bs : List Byte)
    (h : sp' ≠ sp ∨ x < a ∨ a + bs.length ≤ x) :
    instByte s (journalBytes i sp a bs) sp' x = instByte s i sp' x := by
  simp only [instByte, journalBytes_outside _ _ _ _ _ _ h]

/-- A byte the instance sees after a store, inside the store. -/
theorem instByte_inside (s : State) (i : Inst) (sp : Space) (a k : Nat) (bs : List Byte) (h : k < bs.length) :
    instByte s (journalBytes i sp a bs) sp (a + k) = bs[k] := by
  simp only [instByte, journalBytes_inside _ _ _ _ _ h]

/-! ### The instance of a sequencer -/

@[simp] theorem instOf_setInst_same (s : State) (sq : Sq) (i : Inst) : instOf (setInst s sq i) sq = some i := by
  simp [instOf, setInst]

theorem instOf_setInst_ne {sq q : Sq} (h : q ≠ sq) (s : State) (i : Inst) :
    instOf (setInst s sq i) q = instOf s q := by
  simp only [instOf, setInst]
  congr 1
  exact Vector.getElem_set_ne _ _ (fun hv => h (Fin.ext hv.symm))

@[simp] theorem setInst_queue (s : State) (sq q : Sq) (i : Inst) :
    ((setInst s sq i).csa.seqs[q]).queue = (s.csa.seqs[q]).queue := by
  by_cases h : q = sq
  · subst h; simp [setInst]
  · simp only [setInst]
    congr 1
    exact Vector.getElem_set_ne _ _ (fun hv => h (Fin.ext hv.symm))

@[simp] theorem setInst_dmem (s : State) (sq : Sq) (i : Inst) : (setInst s sq i).csa.dmem = s.csa.dmem := rfl
@[simp] theorem setInst_rmem (s : State) (sq : Sq) (i : Inst) : (setInst s sq i).csa.rmem = s.csa.rmem := rfl
@[simp] theorem setInst_flds (s : State) (sq : Sq) (i : Inst) : (setInst s sq i).flds = s.flds := rfl

end Sys2Proof.Machine
end

