-- ==== Sys2Proof/Tests/Slice0.lean ====
section
/-! SUPPORT. Tests: ill-formed commands refused, KCIS words decoded, figures of the spec's worked examples, and for every
statement with hypotheses states and operands that meet them (`witness_<Statement>_…`). The expected results are the spec's. -/

namespace Sys2Proof.Tests
open Sys2Proof Sys2Proof.Machine
set_option maxRecDepth 4000
set_option Elab.async false

/-! ### A running task instance -/

/-- A task with an input point 4, an output point 6, loop 9, and segments of both spaces. -/
def kTask : TaskEntry := ⟨true, false, 0, 1, 0, 0, 100, [4], [6], [⟨.data, 0, 4096⟩, ⟨.retained, 64, 256⟩], [9]⟩

/-- A program of that task. -/
def kProg : Program := ⟨[], 1, 0, ⟨100, 20, 0, 1, []⟩, [0, 0], [kTask], [], [], [], none, []⟩

/-- An instance of the task with some registers set: tick 5, stamp 5 ms, word 3, predicate p1 true. -/
def kInst (l : List (Reg × Word)) : Inst :=
  { task := 0, tick := 5, stamp := 5000000, pc := 3, w := l.foldl (fun v e => v.set e.1 e.2) (Vector.replicate 32 0),
    p := #v[false, true, false, false, false, false, false, false], acc0 := 0, acc1 := 0, tflags := 0, loops := [],
    rets := [], journal := [], outs := [], reqs := [], evts := [] }

/-- A unit that runs the program, its sequencer 0 an instance. -/
def kRun (i : Inst) : State :=
  let s := wr (wr State.reset Reg.CSA_STATUS_PROGVALID 1) Reg.SSU_MODE_MODE 3
  setInst { s with csa := { s.csa with half0 := some kProg } } 0 i

/-- The same with some registers of the instance set. -/
def kRegs (l : List (Reg × Word)) : State := kRun (kInst l)

/-- An instance with some registers and acc0 set. -/
def kAccI (a : BitVec 96) (l : List (Reg × Word)) : Inst := { kInst l with acc0 := a }

/-- A unit that runs it. -/
def kAcc (a : BitVec 96) (l : List (Reg × Word)) : State := kRun (kAccI a l)

/-- A unit that runs an instance, with bytes stored in its data memory. -/
def kMem (l : List (Nat × List Byte)) (i : Inst) : State :=
  let s := kRun i
  { s with csa := { s.csa with dmem := l.foldl (fun m e => Memory.setBytes m e.1 e.2) [] } }

/-- An instance with engine requests, events and call stack of the lengths a statement asks about. -/
def kEvts (n : Nat) : Inst := { kInst [(1, 7)] with evts := List.replicate n ⟨0xE000, .info, 0, 0⟩ }

/-- An instance in a call. -/
def kCall : Inst := { kInst [] with rets := [9] }

/-- An instance at the last word of an open LOOP, in iteration `k` of 3. -/
def kLoop (k : Nat) : Inst := { kInst [] with loops := [⟨5, k, 3, 2, 3, 0⟩] }

/-- An instance whose TFLAGS are given. -/
def kFlags (f : BitVec 8) : Inst := { kInst [] with tflags := f, journal := [(16, 7)], outs := [(6, (1, .good))] }

/-- A unit whose snapshot holds a mailbox slot, loop values and a write status. -/
def kSnap (i : Inst) : State :=
  let s := kRun i
  { s with csa := { s.csa with snap := { s.csa.snap with
      mbx := [(15, ⟨[11, 12, 13], 99, 0, 4, 2⟩)]
      nvst := [(255, ⟨1, 2, true, 3⟩)] } } }

/-! ### States of the other units -/

/-- Register fields set one after the other: field, element, value. -/
def withF (s : State) (l : List (Field × Nat × Nat)) : State := l.foldl (fun s e => wr s e.1 e.2.2 e.2.1) s

/-- A unit after reset brought to a mode, with some register fields set. -/
def inMode (m : Mode) (l : List (Field × Nat × Nat)) : State :=
  withF { wr State.reset Reg.SSU_MODE_MODE (modeCode m) with
    ssu := { State.reset.ssu with recalled := true, keyed := true } } ((Reg.NVS_STATUS_RECALL, 0, 0) :: l)

/-- A facet with no loop, channel, bus or port, that holds on no fault. -/
def aFacet : Facet :=
  { digest := [], svn := 1, keyIdx := 0, autostart := false, faultMap := [], fbcCrit := 0, npcCrit := 0, safe := [],
    loops := [], meter := default, buses := [], ports := [], vertex := default, raw := [] }

/-- A program as the active half of a unit. -/
def withProg (p : Program) (s : State) : State :=
  wr { s with csa := { s.csa with half0 := some p } } Reg.CSA_STATUS_PROGVALID 1

/-- A facet in force. -/
def withFacet (f : Facet) (s : State) : State := { s with fct := { s.fct with active := some f } }

/-- A loop at rest. -/
def aRun : LoopRun :=
  ⟨⟨0, 0, 0, 0, 0, 0, 0, 0, 0, ⟨0, 0, 0, 0⟩, ⟨0, 0, 0, 0⟩, 0, 0⟩, .auto, some 5, 9, .good, false, false⟩

/-- An enabled loop of group 3, its output at point 6. -/
def aWire : Wire :=
  ⟨true, false, 0, false, 0, 3, 1, 0, 4, 0, none, 6, 0, 0⟩

/-- A facet with one loop, the first. -/
def loopFacet : Facet := { aFacet with loops := [aWire] }

/-- A descriptor of a dense job with one unknown: kind, options, handle, tag 5, budget 40 µs. -/
def aDesc (kind opt handle : Byte) : List Byte :=
  [kind, 0, 2, 0, opt, handle, 255, 0] ++ leBytes 8 5 ++ leBytes 4 1 ++ leBytes 4 0 ++ leBytes 4 0 ++ leBytes 4 0 ++
    leBytes 8 0 ++ leBytes 8 0x3FF0000000000000 ++ leBytes 8 0 ++ leBytes 8 0 ++ leBytes 4 40 ++ leBytes 60 0

/-- A held job. -/
def aJob (kind opt : Byte) (index : Nat) (running : Bool) : Job :=
  { newJob (aDesc kind opt 31) index with running := running, retried := true }

/-- A part of a partitioned solve that runs: solve 7, four coupled unknowns. -/
def aPart : Job :=
  { aJob 5 0 0 true with ext := leBytes 24 0 ++ [0, 1] ++ leBytes 206 0 ++ leBytes 4 7 ++ leBytes 4 4 ++ leBytes 16 0 }

/-- Operands with nothing in them. -/
def noOperands : JobOperands :=
  ⟨[]⟩

/-- A job that ends at once. -/
def noWork : JobObs := ⟨0, 2, 3⟩

/-- A solver with a ring of 64 entries, jobs held, five descriptors waiting, and a coordinator. -/
def solver (l : List Job) (c : Option Coord) (fs : List (Field × Nat × Nat)) : State :=
  { inMode .active ([(Reg.LSV_RINGCFG_EN, 0, 1), (Reg.LSV_RINGCFG_SQLOG, 0, 6), (Reg.LSV_RINGCFG_CQLOG, 0, 6)] ++ fs) with
    lsv := { State.reset.lsv with held := l, sqHead := 5, cjob := c } }

/-- A coordinator of solve 7 with four coupled unknowns and members joined. -/
def aCoord (awaited : BitVec 8) (joined : List (Fin 8)) (open_ : Bool) (step : Nat) (got : List PartMsg) : Coord :=
  ⟨7, 4, awaited, joined, open_, step, got, [], none, 0, 0, 0⟩

/-! ### Well-formed commands: one ill-formed term for each check -/

theorem test_wf_br : (Instr.br 0 .always 0).wf = false ∧ (Instr.br 0 .always 0x80000000).wf = false ∧
    (Instr.br 0 .always 1).wf = true := by decide
theorem test_wf_loop : (Instr.loop 0 1 0 0 5).wf = false ∧ (Instr.loop 0 1 0 5 0).wf = false ∧
    (Instr.loop 0 1 0 1 1).wf = true := by decide
theorem test_wf_evt : (Instr.evt 0 .always 1 2 0xDFFF 0).wf = false ∧ (Instr.evt 0 .always 1 2 0xF000 0).wf = false ∧
    (Instr.evt 0 .always 1 2 0xEFFF 3).wf = true := by decide
theorem test_wf_mbxcp : (Instr.mbxcp 0 .always 1 2 3 0).wf = false ∧ (Instr.mbxcp 0 .always 1 2 3 257).wf = false ∧
    (Instr.mbxcp 0 .always 1 2 3 256).wf = true := by decide
theorem test_wf_nvwr : (Instr.nvwr 0 .always .data 1 2 0).wf = false ∧ (Instr.nvwr 0 .always .data 1 2 241).wf = false ∧
    (Instr.nvwr 0 .always .data 1 2 240).wf = true := by decide
theorem test_wf_registerWrite : (Instr.registerWrite 0x102 false 0).wf = false ∧
    (Instr.registerWrite 0x104 true 0).wf = true := by decide
theorem test_wf_readClear : (Instr.readClear 0x801 false).wf = false ∧ (Instr.readClear 0x800 false).wf = true := by decide
theorem test_wf_badCommand : (Instr.badCommand .modeCmd 5).wf = false ∧ (Instr.badCommand .modeCmd 6).wf = true := by decide

/-! ### KCIS words, written out from Table 3.2 and the opcode tables of 03 -/

/-- A word by its fields: OP, G, GN, GP, RD, RA, RB, SUB, IMM (Table 3.2). -/
def kWord (op : BitVec 8) (g gn : BitVec 1) (gp : BitVec 3) (d a b : BitVec 5) (sub : BitVec 4) (imm : BitVec 32) :
    BitVec 64 :=
  op ++ g ++ gn ++ gp ++ d ++ a ++ b ++ sub ++ imm

/-- The two encodings R50 writes out. -/
theorem test_decode_examples : kDecode 4 0x0400800000180009 = some (.loop 4 2 0 24 9) ∧
    kDecode 4 0x2FC9400000000000 = some (.ldil 4 (.on 1 true) 5 0) := by decide
/-- Table 3.5. -/
theorem test_decode_integer : kDecode 0 (kWord 0x1E 0 0 0 1 2 3 0 28) = some (.qmul 0 .always 1 2 3 28) ∧
    kDecode 0 (kWord 0x2E 0 0 0 7 8 0 0 63) = some (.sari 0 .always 7 8 63) ∧
    kDecode 0 (kWord 0x36 1 0 2 1 3 4 3 0) = some (.plog 0 (.on 2 false) .andn 1 3 4) := by decide
/-- Table 3.6. -/
theorem test_decode_accumulator : kDecode 0 (kWord 0x38 0 0 0 1 2 3 0 0) = some (.mac 0 .always 1 2 3) ∧
    kDecode 0 (kWord 0x38 0 0 0 2 2 3 0 0) = none := by decide
/-- Tables 3.7 and 3.8. -/
theorem test_decode_float : kDecode 0 (kWord 0x43 0 0 0 1 2 3 1 0) = some (.fma 0 .always .single 1 2 3) ∧
    kDecode 0 (kWord 0x49 0 0 0 1 2 0 3 0) = some (.fcvt 0 .always .di 1 2) ∧
    kDecode 0 (kWord 0x49 0 0 0 1 2 0 8 0) = none := by decide
/-- Table 3.9. -/
theorem test_decode_memory : kDecode 0 (kWord 0x52 0 0 0 0 4 5 6 8) = some (.st 0 .always .retained .b32 5 4 8) ∧
    kDecode 0 (kWord 0x53 0 0 0 1 3 2 0 4) = some (.ldp 0 .always 1 2 3 4) ∧
    kDecode 0 (kWord 0x52 0 0 0 0 4 5 8 8) = none := by decide
/-- Table 3.10; a guard on END is refused. -/
theorem test_decode_control : kDecode 0 (kWord 0x03 1 1 7 0 0 0 0 4) = some (.br 0 (.on 7 true) 4) ∧
    kDecode 0 (kWord 0x02 0 0 0 0 0 0 0 0) = some (.endInst 0) ∧ kDecode 0 (kWord 0x02 1 0 0 0 0 0 0 0) = none := by decide
/-- Table 3.11. -/
theorem test_decode_timer : kDecode 0 (kWord 0x5A 0 0 0 3 1 5 4 16) = some (.ton 0 .always .retained 3 5 1 16) := by decide
/-- Table 3.13. -/
theorem test_decode_engine : kDecode 0 (kWord 0x6F 0 0 0 0 1 2 0 0x0002E001) = some (.evt 0 .always 1 2 0xE001 2) ∧
    kDecode 0 (kWord 0x6F 0 0 0 0 1 2 0 0x0002DFFF) = none := by decide
/-- R50: the all-zero word, and GN with no guard. -/
theorem test_decode_refused : kDecode 0 0 = none ∧ kDecode 0 (kWord 0x10 0 1 0 1 2 3 0 0) = none := by decide

/-! ### Figures of the spec's worked examples -/

/-- R7: 3 is newer than 0xFFFFFFFE, and not the other way round. -/
theorem test_newer : seqNewer (3 : BitVec 32) 0xFFFFFFFE = true ∧ seqNewer (0xFFFFFFFE : BitVec 32) 3 = false := by decide

/-- The trim of the worked example of 17. -/
theorem test_trim : trimOf 117966156 3600 16 = -24685 := by decide

/-- Task T7 of 03 (Table 3.16). -/
def taskT7 : List (BitVec 64) :=
  [0x0400800000180009, kWord 0x53 0 0 0 3 2 4 0 0, kWord 0x53 0 0 0 5 2 6 0 24, kWord 0x13 0 0 0 8 4 6 0 0,
   kWord 0x35 0 0 0 1 8 0 0 0, kWord 0x49 0 0 0 3 3 0 0 0, kWord 0x49 0 0 0 5 5 0 0 0, 0x2FC9400000000000,
   kWord 0x43 0 0 0 10 3 5 0 0, kWord 0x40 0 0 0 7 7 5 0 0] ++
  [kWord 0x48 0 0 0 2 7 0 0 0, kWord 0x03 1 0 2 0 0 0 0 6, kWord 0x44 0 0 0 9 10 7 0 0, kWord 0x49 0 0 0 9 9 0 1 0,
   kWord 0x2F 0 0 0 11 0 0 0 40, kWord 0x69 0 0 0 0 11 9 0 0, kWord 0x02 0 0 0 0 0 0 0 0, kWord 0x2F 0 0 0 12 0 0 0 40,
   kWord 0x6F 0 0 0 0 12 0 0 0x0002E101, kWord 0x02 0 0 0 0 0 0 0 0]

/-- R70: its cost is 642 cycles. -/
theorem test_cost_T7 : worstCost { kProg with code := taskT7 } kTask = 642 := by decide +kernel

/-! ### The worked example of 06: a repeated constraint (Table 6.9) -/

/-- The job of the example with a right-hand side, its factor in binary64, the sums taken one after another. -/
def example69 (b : List Word) : JobEnd :=
  let d := [4, 2, 0, 0, 0x10, 255, 255, 0] ++ leBytes 8 1 ++ leBytes 4 4 ++ leBytes 4 2 ++ leBytes 4 7 ++ leBytes 4 1 ++
    leBytes 8 0 ++ leBytes 8 0x3D719799812DEA11 ++ leBytes 8 0x3DDB7CDFD9D7BDBB ++ leBytes 8 0 ++ leBytes 64 0
  let a : Csc := ⟨[0, 3, 6, 7, 7], [0, 2, 3, 1, 2, 3, 2], [dOne, dOne, dOne, dOne, dOne, dOne, 0]⟩
  linearEnd (fun _ n => treeChain n)
    { newJob d 0 with data := { (default : JobData) with a := a, perm := [0, 1, 2, 3], rhs := b }, order := [0, 1, 2, 3] }

/-- Consistent data: DONE_DEGRADED PIVOT_REGULARISED, X = (0.5, 0.5, −0.5, 0), the last a quotient of 0 by a negative
pivot. -/
theorem test_example_consistent :
    ((example69 [0, 0, dOne, dOne]).code, (example69 [0, 0, dOne, dOne]).rsn, (example69 [0, 0, dOne, dOne]).flags,
      (example69 [0, 0, dOne, dOne]).pivreg, (example69 [0, 0, dOne, dOne]).refsteps) =
      (CC.doneDegraded, Rsn.pivotRegularised, jfPivot, 1, 0) ∧
    (example69 [0, 0, dOne, dOne]).x = [0x3FE0000000000000, 0x3FE0000000000000, 0xBFE0000000000000, 0x8000000000000000] := by
  decide +kernel

/-- Data that disagree by 10^−6: FAIL_NUMERIC RESIDUAL_UNMET after one step that stalls. -/
theorem test_example_inconsistent :
    ((example69 [0, 0, dOne, 0x3FF000010C6F7A0B]).code, (example69 [0, 0, dOne, 0x3FF000010C6F7A0B]).rsn,
      (example69 [0, 0, dOne, 0x3FF000010C6F7A0B]).flags, (example69 [0, 0, dOne, 0x3FF000010C6F7A0B]).refsteps) =
      (CC.failNumeric, Rsn.residualUnmet, jfPivot + jfStall + jfUnmet, 1) := by
  decide +kernel

/-! ### States of the witnesses, part 4 -/

/-- A unit whose host watchdog has expired this instant. -/
def wdtDue : State :=
  { inMode .active [(Reg.SSU_WDTCFG_HOSTEN, 0, 1), (Reg.SSU_WDTCFG_ACT, 0, 1), (Reg.SSU_WDTCFG_HOSTTO, 0, 2)] with
    ssu := { (inMode .active []).ssu with wdtFrom := some 7 }, tb := { State.reset.tb with now := 2000000007 } }

/-- A unit at the end of RECALL with a test wanted. -/
def bistDue : State :=
  { inMode .recall [] with ssu := { (inMode .recall []).ssu with bistReq := true } }

/-- A single unit that can start. -/
def startable : State :=
  { inMode .halt [(Reg.CSA_STATUS_PROGVALID, 0, 1)] with csa := { State.reset.csa with half0 := some { kProg with tasks := [] } }, fct := { State.reset.fct with active := some aFacet } }

/-- A unit in SAVE whose sequence is complete, the warning in force. -/
def saved : State :=
  { inMode .save [(Reg.SSU_SUPPLY_WARN, 0, 1)] with ssu := { (inMode .save []).ssu with saveDone := true } }

/-- A unit whose phases of the tick are over. -/
def phasesDone : State :=
  { inMode .active [] with tb := { State.reset.tb with ph1 := true, ph2 := true, ph3 := true } }

/-- An ACTIVE unit with a time-base fault and a STOP waiting. -/
def faulted : State :=
  { inMode .active [(Reg.SSU_MODE_PEND, 0, 1), (Reg.TBC_STATUS_TICKFAULT, 0, 1)] with ssu := { (inMode .active []).ssu with cmd := some .stop, cmdEdges := 1 } }

/-- A unit in ACTIVE with STOP waiting. -/
def stopActive : State :=
  { inMode .active [(Reg.SSU_MODE_PEND, 0, 1)] with ssu := { (inMode .active []).ssu with cmd := some .stop, cmdEdges := 1 } }

/-- A unit in SAFEHOLD with RELEASE waiting. -/
def releaseSafehold : State :=
  { inMode .safehold [(Reg.SSU_MODE_PEND, 0, 1)] with ssu := { (inMode .safehold []).ssu with cmd := some .release, cmdEdges := 1 } }

/-- A unit in STANDBY with HOLD waiting. -/
def holdStandby : State :=
  { inMode .standby [(Reg.SSU_MODE_PEND, 0, 1)] with ssu := { (inMode .standby []).ssu with cmd := some .hold, cmdEdges := 1 } }

/-- A unit in RESYNC with STOP waiting. -/
def stopResync : State :=
  { inMode .resync [(Reg.SSU_MODE_PEND, 0, 1)] with ssu := { (inMode .resync []).ssu with cmd := some .stop, cmdEdges := 1 } }

/-! ### States of the witnesses, part 5 -/

/-- A LOAD whose fetch runs. -/
def fetching : State :=
  { inMode .halt [(Reg.CSA_OLC_PEND, 0, 1), (Reg.CSA_OLC_STATE, 0, 1)] with csa := { State.reset.csa with loading := some [] } }

/-- The program loaded. -/
def nextProg : Program :=
  { kProg with svn := 2, tasks := [] }

/-- A unit in HALT with a program loaded beside the one in force. -/
def ready : State :=
  { withFacet aFacet (withProg kProg (inMode .halt [(Reg.CSA_OLC_STATE, 0, 2)])) with
    csa := { (withProg kProg State.reset).csa with half1 := some nextProg } }

/-- A unit with a change armed. -/
def armedOlc : State :=
  { inMode .active [(Reg.CSA_OLC_PEND, 0, 1)] with csa := { State.reset.csa with armed := some ⟨9, false, false, false⟩ } }

/-- A program that names a point by VID 33. -/
def named : Program :=
  { kProg with points := [⟨4, 33, 1, .local⟩] }

/-- A unit with a force on that point. -/
def forced : State :=
  { withProg named (inMode .halt [(Reg.CSA_FRCVID_VID, 0, 33)]) with
    csa := { (withProg named State.reset).csa with forces := [⟨33, 1, 4, 7, 0⟩] } }

/-- An ACTIVE unit with a computed sample of its loop. -/
def sampled : State :=
  { withFacet loopFacet (inMode .active []) with lpe := { State.reset.lpe with results := [⟨0, aRun, .auto, 1, 0⟩], run := some [1, 0, 0, 0] } }

/-- A unit in SAVE whose run goes on. -/
def savedRun : State :=
  { inMode .save [(Reg.SSU_MODE_PRIOR, 0, 4)] with lpe := { State.reset.lpe with run := some [] } }

/-- A unit in HALT with a loop, the CRC register at the value of its inactive bank. -/
def crcReady : State :=
  withF (withFacet loopFacet (inMode .halt [])) [(Reg.LPE_LCRC_CRC, 0, (banksCrc State.reset [0]).toNat)]

/-! ### States of the witnesses, part 6 -/

/-- The operands of the job, all of host memory reading 0. -/
def jobLoaded : JobData :=
  (loadLinear (solver [aJob 1 0 3 false, aJob 4 2 4 false] none []) noOperands (aJob 4 2 4 false).desc).1

/-- The unit once they are loaded. -/
def loadedS : State :=
  (loadLinear (solver [aJob 1 0 3 false, aJob 4 2 4 false] none []) noOperands (aJob 4 2 4 false).desc).2

/-- The columns of its factor. -/
def jobCols : List (List Nat) :=
  jobStructs (aJob 4 2 4 false).desc [] jobLoaded (jobOrder (aJob 4 2 4 false).desc [] jobLoaded)

/-- Where it goes. -/
def jobPlace : Nat × Nat × Bool × List Nat :=
  (placeJob loadedS (aJob 4 2 4 false).desc jobCols (frontHomes (aJob 4 2 4 false).desc [] jobLoaded (jobOrder (aJob 4 2 4 false).desc [] jobLoaded) jobCols (tilesUp loadedS)) none).getD (0, 0, false, [])

/-- A job that runs. -/
def doneJob : Job :=
  { aJob 1 0 3 true with data := jobLoaded, order := [0] }

/-- A unit whose job has run its 40 µs. -/
def overdue : State :=
  { solver [aJob 1 0 3 true] none [] with tb := { State.reset.tb with now := 40000 } }

/-- A unit whose submission ring is disabled, its left work reported. -/
def ringOff : State :=
  { inMode .active [] with hmx := { State.reset.hmx with left := Vector.replicate 5 none } }

/-- A part that keeps an iterate. -/
def aMember : Job :=
  { aPart with kept := some (qpFrom (jobRed aPart) aPart) }

/-- A job that has not been repeated yet. -/
def newlyJob : Job :=
  { aJob 1 0 3 true with retried := false }

/-- A unit whose tile 15 has had a word corrected in an earlier tick. -/
def corrected : State :=
  { inMode .active [] with ssu := { (inMode .active []).ssu with corrOnce := [(⟨.solver, 15⟩, 9, 0)] } }

/-- The same unit in a cascade, its link 1 a tree link on which the STATE of members 1 and 2 comes. -/
def inTree (s : State) : State :=
  { withF s [(Reg.CSC_CFG_EN, 0, 1), (Reg.CSC_CLSTS_LOCK, 1, 1)] with csc := { State.reset.csc with accepted := [1], tree := [1], routes := [(2, (1, 0)), (4, (1, 0))] } }

/-! ### States of the witnesses, part 7 -/

/-- An enabled feeder of 50 Hz and ten cycles, 256 V and 10 A full scale, nominal 230 V. -/
def aFeeder : FeederCfg :=
  ⟨true, 50, 10, 0x43800000, 0x41200000, 0x43660000, 0, false⟩

/-- A facet that meters its first feeder and its first pulse input. -/
def meterFacet1 : Facet :=
  { aFacet with meter := { (default : MeterCfg) with div := 157, feeders := [aFeeder], pulses := [⟨true, 4⟩] } }

/-- A unit that meters. -/
def measured : State :=
  withFacet meterFacet1 (inMode .active [])

/-- A channel with an open interval. -/
def openCh : Chan :=
  { freshChan with fcfg := some aFeeder, open_ := some ⟨0, 2, 0, 0, false, false, Vector.replicate 6 0⟩ }

/-- A unit with an open interval of its feeder. -/
def opened : State :=
  { measured with mte := { State.reset.mte with chans := [(0, openCh)] } }

/-- A signal path about to cross. -/
def aPath : FeedSt :=
  { freshFeed with hist := [⟨19968750, #v[-1073741824, 0, 0], #v[0, 0, 0], #v[0, 0, 0], #v[0, 0, 0], #v[0, 0, 0, 0, 0, 0], true⟩], taken := some 5000, from_ := some 5000, armed := true }

/-- The sample at which it crosses. -/
def aSample : Sample :=
  ⟨20000000, #v[1073741824, 0, 0], #v[0, 0, 0], #v[0, 0, 0], #v[0, 0, 0], #v[0, 0, 0, 0, 0, 0], true⟩

/-- A calibration run of the first feeder, its window of two samples over. -/
def calRun (level : Int) (discarded : Nat) : CalRun :=
  let l := [(0, Vector.replicate 6 level), (31250, Vector.replicate 6 (-level))]
  ⟨0, [], [], discarded, 5, false, false, 0, 62500, 0x4049000000000000, l, l⟩

/-- A unit with that run. -/
def calUnder (r : CalRun) (l : List (Field × Nat × Nat)) : State :=
  { withFacet meterFacet1 (inMode .active l) with mte := { State.reset.mte with cal := some r } }

/-- A unit whose run's write has been started and stands suspended. -/
def calLate : State :=
  { calUnder (calRun 0 0) [] with nvs := { State.reset.nvs with susp := [⟨3, .record 0x20 default, .cal⟩] } }

/-- A unit that meters, in TEST at the wave of the store. -/
def storeWave : State :=
  { measured with ssu := { measured.ssu with wave := some 0 } }

/-- A latch record of the first feeder. -/
def aLatch : LatchRec :=
  ⟨false, 0, 3, 0, 1000, 10, 0, 0, 0, 0, [1, 2, 3, 4, 5, 6], 0, 9, 1⟩

/-- A unit whose record waits for the partner. -/
def latchWaits : State :=
  { measured with mte := { State.reset.mte with waiting := [⟨aLatch, some [1, 2, 0, 0, 0, 0]⟩] } }

/-- A unit in HALT with a facet prepared. -/
def prepared : State :=
  { inMode .halt [(Reg.FCT_STATUS_SHSTATE, 0, 2)] with fct := { State.reset.fct with shadow := some meterFacet1 } }

/-- A unit with a swap armed. -/
def armedFct : State :=
  { inMode .active [(Reg.FCT_SWSTS_PEND, 0, 1)] with fct := { State.reset.fct with armed := some ⟨9, false, false, false⟩ } }

/-- A PREPARE whose fetch runs. -/
def fetchingFct : State :=
  { inMode .halt [(Reg.FCT_SWSTS_PEND, 0, 1), (Reg.FCT_STATUS_SHSTATE, 0, 1)] with fct := { State.reset.fct with preparing := some [] } }

/-! ### States of the witnesses, part 8 -/

/-- An enabled port at every speed. -/
def aPort : PortRec :=
  { (default : PortRec) with en := true, ipv4 := true, ipv6 := true, speeds := 7, ip4Grp := 0xEF000001, ip6Grp := 0xFF020000000000000000000000000001 }

/-- A port that is a PTP master with Follow_Ups. -/
def masterPort : PortRec :=
  { aPort with ptpMaster := true, twoStep := true }

/-- A facet with three ports, the second and third PTP masters. -/
def portFacet : Facet :=
  { aFacet with ports := [aPort, masterPort, { masterPort with twoStep := false }], vertex := ⟨47810, 8, 2, 20, 3, 10, 10000, 1472, true, true, true⟩ }

/-- A unit with its ports up, the first its PTP slave port. -/
def onPorts (m : Mode) (l : List (Field × Nat × Nat)) : State :=
  withFacet portFacet (inMode m ([(Reg.NPCp_STATUS_LINK, 0, 1), (Reg.NPCp_STATUS_LINK, 1, 1), (Reg.NPCp_STATUS_LINK, 2, 1), (Reg.NPCp_STATUS_MSTATE, 0, 0), (Reg.NPCp_STATUS_MSTATE, 1, 0), (Reg.NPCp_STATUS_MSTATE, 2, 0), (Reg.TBC_DISC_PTPEN, 0, 1), (Reg.TBC_DISC_PTPPORT, 0, 0)] ++ l))

/-- A unit that hears one PTP master, the path delay known and measured again. -/
def ptpHeard (s : State) : State :=
  { s with npc := { s.npc with ptp := { s.npc.ptp with masters := [⟨default, default, [0, 0]⟩], delay := some 100, req := some (0, 50), ms := some 900 } } }

/-- A unit whose PTP offset has been good from 0 to 60 s. -/
def ptpSteady (s : State) : State :=
  { s with tb := { s.tb with now := 60000000000, ptpGood := some 0 } }

/-- A unit whose link 1 brings tick markers. -/
def marked (s : State) : State :=
  { inTree s with csc := { (inTree s).csc with marks := [(1, 0)] } }

/-- A unit that has sent a Sync on its second port this instant. -/
def justSynced (s : State) : State :=
  { s with npc := { s.npc with ptp := { s.npc.ptp with syncAt := [(1, 0)], announceAt := [(1, 0)] } } }

/-- The head of a PTP message. -/
def aPtpHead : PtpHead :=
  ⟨.ether, none, 0, ⟨0, 0⟩, 0, 0⟩

/-- The time of a Sync that shows an offset, received at 7 µs with a path delay of 100 ns. -/
def syncTime (off : Int) : Int := off + 6900 + 946684800 * 10 ^ 9

/-- An enabled bus to be probed, TB2 the host's. -/
def aBus : BusRec :=
  { (default : BusRec) with en := true, brs := true, tb2Host := true, nbrp := 1, ntseg1 := 13, ntseg2 := 2, probeId := 0x123 }

/-- Its controller. -/
def aCtl : Ctl :=
  { Ctl.reset with bus := some aBus }

/-- A unit with a controller on bus 0 and a fixed FD bus 5. -/
def onBus (m : Mode) (c : Ctl) (l : List (Field × Nat × Nat)) : State :=
  { withF (inMode m ([(Reg.FBCn_STATUS_MSTATE, 0, 0), (Reg.FBCn_STATUS_MSTATE, 5, 0)] ++ l)) [] with fbc := (State.reset.fbc.set 0 c).set 5 { aCtl with bus := some { aBus with mode := 1 } } }

/-- Filters at every index, the last the offload's. -/
def fullFilters : Tbl Filt :=
  (List.range 64).map fun i => (i, ⟨1, true, 2, decide (i = 63)⟩)

/-- A classic frame of two bytes. -/
def aFrame : CanFrame :=
  ⟨0x155 * 2 ^ 18, false, false, false, false, 2, [0xAA, 0x55]⟩

/-- An FD frame of twelve bytes. -/
def fdFrame : CanFrame :=
  ⟨0x154 * 2 ^ 18, false, false, true, true, 9, List.replicate 12 7⟩

/-- A received frame. -/
def aRx : RxFrame :=
  ⟨aFrame, false, false, 5, 77⟩

/-- A first segment. -/
def segFrame : CanFrame :=
  ⟨0x2000003, true, false, false, false, 8, [0, 1, 1, 2, 3, 4, 5, 6]⟩

/-! ### States of the witnesses, part 9 -/

/-- A station on the first port, by IPv4. -/
def ep4 : Endpoint :=
  ⟨.port 0, 0, 0xFFFF0A000001, 0x020000000001, 47810⟩

/-- A context with one copy unended and an open delivery run. -/
def aCtx : Ctx :=
  ⟨0x77, ep4, 200, 10, 2, 1, 2, 0x21, 5, 0, none, 0, 0, [], [⟨5, 1, 100, 1, [], 2, 3⟩], some ⟨4, 0, 3, 2, 50⟩, 3, true, false⟩

/-- A unit that has admitted a station as Vertex 3. -/
def ctxUnit (m : Mode) (l : List (Field × Nat × Nat)) : State :=
  { onPorts m ([(Reg.NPC_VSTS_ADM, 3, 1), (Reg.NPC_VSTS_REACH, 3, 1)] ++ l) with npc := { State.reset.npc with ctxs := [(3, aCtx)] } }

/-- A header of the stream of Vertex 3. -/
def head (v : BitVec 8) (len ses : BitVec 16) : VHead :=
  ⟨v, 3, 9, 1, len, ses, 0xFFFFEF000001⟩

/-- A header to an address that is not the unit's. -/
def strayHead : VHead :=
  { head 1 24 0x21 with dst := 0 }

/-- The unit that has just answered that station with a REJOIN. -/
def rejoinedUnit : State :=
  { ctxUnit .active [] with npc := { (ctxUnit .active []).npc with rejoined := [(ep4, 0, 0)] } }

/-- Another station of that port. -/
def ep5 : Endpoint :=
  { ep4 with addr := 0xFFFF0A000002 }

/-- The first station, no delivery run open. -/
def calmCtx : Ctx :=
  { aCtx with run := none }

/-- A unit that has admitted it. -/
def calmUnit : State :=
  { ctxUnit .active [] with npc := { (ctxUnit .active []).npc with ctxs := [(3, calmCtx)] } }

/-- A unit at a tick and an instant. -/
def atTime (s : State) (tick now : Nat) : State :=
  { s with tb := { State.reset.tb with tick := tick, now := now } }

/-- A controller with a message under reassembly. -/
def segBus : Ctl :=
  { aCtl with parts := [(0x2000003, ⟨1, [1], 1000⟩)] }

/-- The unit with that controller as bus 0. -/
def segUnit (s : State) : State :=
  { s with fbc := State.reset.fbc.set 0 segBus }

/-- A unit that holds claim 9. -/
def claimed (m : Mode) (l : List (Field × Nat × Nat)) : State :=
  { onPorts m l with rdu := { State.reset.rdu with claimHeld := some 9 } }

/-- A receiver that acted on copy 5 under claim 2. -/
def aRecv : Recv :=
  ⟨0x77, 3, 0x21, 5, [(4, 1, 44), (5, 2, 55)], [(2, 1000)], [4], false, 1000, 10, 8, 1000000, 0, 0, []⟩

/-- A unit with that receiver. -/
def receiver : State :=
  { inMode .active [] with recvs := [aRecv] }

/-- A JOIN_ACK. -/
def anAck (sid : BitVec 64) (result : BitVec 8) : JoinAckBody :=
  { (default : JoinAckBody) with stationId := sid, result := result, stream := 9, session := 7, cw := 8, rpTicks := 10 }

/-- A unit with two messages pending. -/
def vectors : State :=
  { inMode .active [] with hmx := { State.reset.hmx with msixPend := [63, 2], msixTab := [(11, 1)] } }

/-- A unit whose DMA queue 1 has descriptors waiting. -/
def dmaUnit (m : Mode) (l : List (Field × Nat × Nat)) : State :=
  { inMode m ([(Reg.HMX_DMACFG_EN, 1, 1), (Reg.HMX_DMACFG_LOG, 1, 6), (Reg.HMX_DMATAIL_TAIL, 1, 4294967295), (Reg.HMX_SPLIT_SRAMHOST, 0, 64)] ++ l) with hmx := { State.reset.hmx with dmaHead := #v[0, 5, 0, 0], left := #v[none, none, some (25, 3), none, none], sram := (List.range 8).map fun i => (0x3F0000 + i, 7) } }

/-- A descriptor that copies 8 bytes. -/
def dmaDesc (src dst : Nat) : List Byte :=
  leBytes 8 src ++ leBytes 8 dst ++ leBytes 4 8 ++ leBytes 12 0

/-- A unit with jobs held, a ring and a queue enabled. -/
def linked : State :=
  { solver [aJob 1 0 0 true, aJob 1 0 1 false] none [(Reg.MTE_LRCFG_EN, 0, 1), (Reg.HMX_DMACFG_EN, 3, 1)] with hmx := { State.reset.hmx with left := #v[none, none, some (25, 3), none, none] } }

/-! ### States of the witnesses, part 10 -/

/-- A unit of a pair in step, its first Chord link paired. -/
def pairUnit (m : Mode) (l : List (Field × Nat × Nat)) : State :=
  inMode m ([(Reg.RDU_CFG_PAIRED, 0, 1), (Reg.TBC_TICKCFG_TICKLEN, 0, 100), (Reg.TBC_TICKCFG_AGREE, 0, 20), (Reg.RDU_CHSTS_LOCK, 0, 1), (Reg.RDU_CHSTS_PAIRED, 0, 1), (Reg.RDU_CHLAT_LAT, 0, 300), (Reg.RDU_STATUS_PAIRST, 0, 2)] ++ l)

/-- A unit with its pair state given. -/
def withRdu (s : State) (r : RduSt) : State :=
  { s with rdu := r }

/-- A frame header of the partner. -/
def aHead (save : Bool) (m : Mode) (f : BitVec 32) (k : Nat) : ChordHead :=
  ⟨true, save, false, m, true, f, k⟩

/-- A HELLO. -/
def aHello (side : Side) (len ag ver : Nat) : Hello :=
  ⟨ver, side, len, ag, 8, .standby, 0, 0, false⟩

/-- A unit that misses frame 5, and has asked for frame 6. -/
def gapped : RduSt :=
  { State.reset.rdu with fseqIn := some 7, gaps := [(5, false), (6, true)], silent := true }

/-- A unit that has asked for all it misses. -/
def asked : RduSt :=
  { State.reset.rdu with gaps := [(6, true)] }

/-- Lists of a pair. -/
def hisLists : RduSt :=
  { State.reset.rdu with partner := [⟨3, [⟨3000000, ⟨64, 9⟩, true, .rduClear⟩], none⟩, ⟨5, [], none⟩], own := [(4, [⟨4000000, ⟨64, 8⟩, false, .rduClear⟩])], fseqIn := some 8 }

/-- A unit at a tick and an instant. -/
def atTick (s : State) (k now : Nat) : State :=
  { s with tb := { State.reset.tb with tick := k, now := now } }

/-- A unit that holds claim 9. -/
def claimed9 : RduSt :=
  { State.reset.rdu with claimHeld := some 9 }

/-- A copy under way, its snapshot edge 5. -/
def aCopy : CopyRun :=
  ⟨1000, some 5, some 5, [.data [], .forces []], false, [⟨5, [], [], [], [], 0⟩], none⟩

/-- A unit that is copied to. -/
def copying : RduSt :=
  { State.reset.rdu with copy := some aCopy }

/-- What a STANDBY unit knows at its verdict limit. -/
def decided (own his : List (Nat × BitVec 64)) (built : Nat) (silent : Bool) : RduSt :=
  { State.reset.rdu with ownDigest := own, hisDigest := his, built := built, silent := silent, wasPaired := true }

/-- A CHELLO. -/
def farHello : CHello :=
  ⟨1, 3, true, 100, .active, 5, 1⟩

/-- A unit in a cascade with two accepted links. -/
def cascUnit (m : Mode) (strap : Fin 8) (l : List (Field × Nat × Nat)) : State :=
  { inMode m ([(Reg.CSC_CFG_EN, 0, 1), (Reg.TBC_TICKCFG_TICKLEN, 0, 100), (Reg.CSC_CLSTS_LOCK, 1, 1), (Reg.CSC_CLSTS_LOCK, 2, 1), (Reg.CSC_CLSTS_ROLE, 2, 2)] ++ l) with csc := { State.reset.csc with far := [(1, farHello), (2, farHello)], accepted := [1, 2], tree := [1, 2], lat := [(1, 250), (2, 250)], units := [⟨3, true, .active, 5, 7⟩] }, ssu := { (inMode m []).ssu with straps := ⟨strap, false, 0⟩ } }

/-- A unit whose link 1 has brought frame 7 and misses frames 5 and 6, the second asked for. -/
def gappedLink : State :=
  { cascUnit .active 2 [] with csc := { (cascUnit .active 2 []).csc with seqIn := [(1, 7)], gaps := [(1, 5, false), (1, 6, true)] } }

/-- Such a unit that has passed on the marker of edge 6. -/
def markedLink : State :=
  { cascUnit .active 2 [(Reg.CSC_STATUS_PARENT, 0, 1)] with csc := { (cascUnit .active 2 []).csc with markSeen := some 6 } }

/-- The state of a unit of member 4. -/
def aUnit : RUnit :=
  ⟨4, true, .active, 9⟩

/-- A CHELLO of another version. -/
def badHello : CHello :=
  { farHello with version := 2 }

/-! ### States of the witnesses, part 11 -/

/-- A unit with its store given. -/
def nvsUnit (m : Mode) (v : NvsSt) (l : List (Field × Nat × Nat)) : State :=
  { inMode m l with nvs := v }

/-- A request of class 3. -/
def req3 : WriteReq :=
  ⟨3, .record 0x10 (.retire [] []), .retire⟩

/-- A request to write an event record of two slots. -/
def req6 : WriteReq :=
  ⟨6, .event ⟨0xA003, 10, .notice, [1, 2, 3, 4, 5], 7, 8, 9, false, false⟩, .none⟩

/-- A request of class 7. -/
def req7 : WriteReq :=
  ⟨7, .refresh 9, .scrub⟩

/-- A request to save the retained area. -/
def req4 : WriteReq :=
  ⟨4, .record 0x50 (.retained 0 0 [] []), .retained 0⟩

/-- An event record of two slots. -/
def rec2 : Rec :=
  ⟨0xA003, 10, .notice, [1, 2, 3, 4, 5], 7, 8, 9, false, false⟩

/-- A unit that writes an event record at the end of the log. -/
def placingUnit (r : Rec) : State :=
  { nvsUnit .active { State.reset.nvs with cur := some ⟨6, .event r, .none⟩ } [(Reg.EVR_CMDSTS_PEND, 0, 1)] with evr := { State.reset.evr with placing := some 32767 } }

/-- A TIME_ANCHOR. -/
def anchorRec : Rec :=
  { rec2 with code := Ev.timeAnchor, words := [1, 2, 3, 4] }

/-- A unit whose log is frozen, with records staged. -/
def frozenUnit (l : List Rec) : State :=
  { inMode .active [(Reg.EVR_STATUS_FROZEN, 0, 1)] with evr := { State.reset.evr with staging := l, frozenAt := some 3 } }

/-- A unit with an anchor due. -/
def anchored (sub : Nat) : State :=
  { inMode .active [] with evr := { State.reset.evr with anchorDue := some [1, 2, 3, 4], sub := sub } }

/-- A unit whose calendar and pending set are given, at 5 s of its time base. -/
def calUnit (c : Nat) (set : Option (Nat × Nat)) (l : List (Field × Nat × Nat)) : State :=
  { inMode .active l with rtc := { State.reset.rtc with secs := c, set := set }, tb := { State.reset.tb with now := 5000000000 } }

/-- A unit in TEST at a wave. -/
def waveUnit (w : Option Nat) (next : Nat) (l : List (Field × Nat × Nat)) : State :=
  { inMode .test l with ssu := { (inMode .test []).ssu with wave := w, nextWave := next, under := (waveFields next).map fun _ => 0 } }

/-- An open fault window of lane 7. -/
def aWindow : FWindow :=
  ⟨⟨.loop, 7⟩, .inService, 3⟩

/-- A unit with that window open. -/
def windowed : State :=
  { inMode .active [(Reg.LPE_LANESTS_MSTATE, 7, 2), (Reg.LPE_LANESTS_FCOUNT, 7, 1)] with ssu := { (inMode .active []).ssu with windows := [aWindow] } }

/-- A unit whose host has not kicked the watchdog for a minute. -/
def hostLate : State :=
  { inMode .active [(Reg.SSU_WDTCFG_HOSTEN, 0, 1)] with ssu := { (inMode .active []).ssu with wdtFrom := some 0 }, tb := { State.reset.tb with now := 60000000000 } }

/-- A unit in HALT with one root programmed. -/
def keyed : State :=
  { inMode .halt [] with ssu := { (inMode .halt []).ssu with otp := { State.reset.ssu.otp with roots := #v[⟨some [1], true, false⟩, ⟨none, true, false⟩, ⟨none, true, false⟩, ⟨none, true, false⟩] } } }

/-- A unit with a quote captured. -/
def quoting : State :=
  { inMode .active [] with ssu := { (inMode .active []).ssu with quote := some ⟨4096, some [1, 2]⟩ } }

/-! ### States of the witnesses, part 12 -/

/-- A signal path without voltage, one modulator bit before its next sample. -/
def darkPath : FeedSt :=
  { freshFeed with chains := Vector.replicate 6 { freshChain with cnt := 511 }, from_ := some 5000, taken := some 5000 }

/-- A unit with an open interval whose feeder has lost its voltage. -/
def darkUnit : State :=
  { opened with mte := { opened.mte with feeds := [(0, darkPath)] } }

/-- The bits of one sample. -/
def oneSample : CycleObs :=
  ⟨30300000, Vector.replicate 6 [true]⟩

/-! ### Witnesses -/

theorem witness_GuardedExecution :
    seqGuard (Instr.add 0 (Guard.on 2 false) 1 1 1) = some (0, Guard.on 2 false) ∧
    instOf (kRegs []) 0 = some (kInst []) ∧
    guardOk (kInst []) (Guard.on 2 false) = false ∧
    seqGuard (Instr.br 0 (Guard.on 1 true) (4 : BitVec 32)) = some (0, Guard.on 1 true) ∧
    guardOk (kInst []) (Guard.on 1 true) = false := by
  and_intros <;> decide +kernel

theorem witness_IntegerArithmeticResults :
    instOf (kRegs [(1, -1), (2, 65)]) 0 = some (kInst [(1, -1), (2, 65)]) ∧
    guardOk (kInst [(1, -1), (2, 65)]) (Guard.on 1 false) = true ∧
    instOf (kRegs [(1, 1), (2, 9223372036854775806)]) 0 = some (kInst [(1, 1), (2, 9223372036854775806)]) ∧
    guardOk (kInst [(1, 1), (2, 9223372036854775806)]) Guard.always = true ∧
    -(2 : ℤ) ^ 63 ≤ BitVec.toInt (rW (kInst [(1, 1), (2, 9223372036854775806)]) 1) + BitVec.toInt (rW (kInst [(1, 1), (2, 9223372036854775806)]) 2) ∧
    BitVec.toInt (rW (kInst [(1, 1), (2, 9223372036854775806)]) 1) + BitVec.toInt (rW (kInst [(1, 1), (2, 9223372036854775806)]) 2) ≤ (2 : ℤ) ^ 63 - (1 : ℤ) ∧
    instOf (kRegs [(1, 1), (2, 9223372036854775807)]) 0 = some (kInst [(1, 1), (2, 9223372036854775807)]) ∧
    guardOk (kInst [(1, 1), (2, 9223372036854775807)]) Guard.always = true ∧
    (2 : ℤ) ^ 63 - (1 : ℤ) < BitVec.toInt (rW (kInst [(1, 1), (2, 9223372036854775807)]) 1) + BitVec.toInt (rW (kInst [(1, 1), (2, 9223372036854775807)]) 2) ∧
    instOf (kRegs [(1, 9223372036854775808), (2, 1)]) 0 = some (kInst [(1, 9223372036854775808), (2, 1)]) ∧
    guardOk (kInst [(1, 9223372036854775808), (2, 1)]) Guard.always = true ∧
    BitVec.toInt (rW (kInst [(1, 9223372036854775808), (2, 1)]) 1) - BitVec.toInt (rW (kInst [(1, 9223372036854775808), (2, 1)]) 2) < -(2 : ℤ) ^ 63 ∧
    (2 : ℤ) ^ 63 - (1 : ℤ) < |BitVec.toInt (rW (kInst [(1, 9223372036854775808), (2, 1)]) 1)| ∧
    instOf (kRegs [(1, 7), (2, 9)]) 0 = some (kInst [(1, 7), (2, 9)]) ∧
    guardOk (kInst [(1, 7), (2, 9)]) Guard.always = true ∧
    rP (kInst [(1, 7), (2, 9)]) 1 = true ∧
    rP (kInst [(1, 7), (2, 9)]) 0 = false := by
  and_intros <;> decide +kernel

theorem witness_FixedPointAndDivisionResults_1 :
    instOf (kRegs [(1, 2147483647), (2, 2)]) 0 = some (kInst [(1, 2147483647), (2, 2)]) ∧
    guardOk (kInst [(1, 2147483647), (2, 2)]) Guard.always = true ∧
    (4294967294 : ℤ) = (BitVec.setWidth 32 (rW (kInst [(1, 2147483647), (2, 2)]) 1)).toInt * (BitVec.setWidth 32 (rW (kInst [(1, 2147483647), (2, 2)]) 2)).toInt ∧
    ((2147483647 : ℤ) = if (1 : Fin 64).val = 0 then (4294967294 : ℤ) else if (0 : ℤ) ≤ (4294967294 : ℤ) then ((4294967294 : ℤ) + (2 : ℤ) ^ ((1 : Fin 64).val - 1)) / (2 : ℤ) ^ (1 : Fin 64).val else -(((-4294967294 : ℤ) + (2 : ℤ) ^ ((1 : Fin 64).val - 1)) / (2 : ℤ) ^ (1 : Fin 64).val)) ∧
    -(2 : ℤ) ^ 31 ≤ (2147483647 : ℤ) ∧
    (2147483647 : ℤ) ≤ (2 : ℤ) ^ 31 - (1 : ℤ) ∧
    ((4294967294 : ℤ) = if (0 : Fin 64).val = 0 then (4294967294 : ℤ) else if (0 : ℤ) ≤ (4294967294 : ℤ) then ((4294967294 : ℤ) + (2 : ℤ) ^ ((0 : Fin 64).val - 1)) / (2 : ℤ) ^ (0 : Fin 64).val else -(((-4294967294 : ℤ) + (2 : ℤ) ^ ((0 : Fin 64).val - 1)) / (2 : ℤ) ^ (0 : Fin 64).val)) ∧
    (2 : ℤ) ^ 31 - (1 : ℤ) < (4294967294 : ℤ) ∧
    instOf (kRegs [(1, 2147483648), (2, 2147483647)]) 0 = some (kInst [(1, 2147483648), (2, 2147483647)]) ∧
    guardOk (kInst [(1, 2147483648), (2, 2147483647)]) Guard.always = true ∧
    (-4611686016279904256 : ℤ) = (BitVec.setWidth 32 (rW (kInst [(1, 2147483648), (2, 2147483647)]) 1)).toInt * (BitVec.setWidth 32 (rW (kInst [(1, 2147483648), (2, 2147483647)]) 2)).toInt ∧
    ((-4611686016279904256 : ℤ) = if (0 : Fin 64).val = 0 then (-4611686016279904256 : ℤ) else if (0 : ℤ) ≤ (-4611686016279904256 : ℤ) then ((-4611686016279904256 : ℤ) + (2 : ℤ) ^ ((0 : Fin 64).val - 1)) / (2 : ℤ) ^ (0 : Fin 64).val else -((-(-4611686016279904256 : ℤ) + (2 : ℤ) ^ ((0 : Fin 64).val - 1)) / (2 : ℤ) ^ (0 : Fin 64).val)) ∧
    (-4611686016279904256 : ℤ) < -(2 : ℤ) ^ 31 ∧
    instOf (kRegs [(1, -3), (2, 1)]) 0 = some (kInst [(1, -3), (2, 1)]) ∧
    guardOk (kInst [(1, -3), (2, 1)]) Guard.always = true ∧
    (-3 : ℤ) = (BitVec.setWidth 32 (rW (kInst [(1, -3), (2, 1)]) 1)).toInt * (BitVec.setWidth 32 (rW (kInst [(1, -3), (2, 1)]) 2)).toInt ∧
    ((-2 : ℤ) = if (1 : Fin 64).val = 0 then (-3 : ℤ) else if (0 : ℤ) ≤ (-3 : ℤ) then ((-3 : ℤ) + (2 : ℤ) ^ ((1 : Fin 64).val - 1)) / (2 : ℤ) ^ (1 : Fin 64).val else -((-(-3 : ℤ) + (2 : ℤ) ^ ((1 : Fin 64).val - 1)) / (2 : ℤ) ^ (1 : Fin 64).val)) ∧
    -(2 : ℤ) ^ 31 ≤ (-2 : ℤ) ∧
    (-2 : ℤ) ≤ (2 : ℤ) ^ 31 - (1 : ℤ) ∧
    instOf (kRegs [(1, 0), (2, 0)]) 0 = some (kInst [(1, 0), (2, 0)]) ∧
    guardOk (kInst [(1, 0), (2, 0)]) Guard.always = true ∧
    rW (kInst [(1, 0), (2, 0)]) 2 = (0 : Word) ∧
    rW (kInst [(1, 0), (2, 0)]) 1 = (0 : Word) := by
  and_intros <;> decide +kernel

theorem witness_FixedPointAndDivisionResults_2 :
    instOf (kRegs [(1, 1), (2, 0)]) 0 = some (kInst [(1, 1), (2, 0)]) ∧
    guardOk (kInst [(1, 1), (2, 0)]) Guard.always = true ∧
    rW (kInst [(1, 1), (2, 0)]) 2 = (0 : Word) ∧
    (0 : ℤ) < BitVec.toInt (rW (kInst [(1, 1), (2, 0)]) 1) ∧
    instOf (kRegs [(1, -1), (2, 0)]) 0 = some (kInst [(1, -1), (2, 0)]) ∧
    guardOk (kInst [(1, -1), (2, 0)]) Guard.always = true ∧
    rW (kInst [(1, -1), (2, 0)]) 2 = (0 : Word) ∧
    BitVec.toInt (rW (kInst [(1, -1), (2, 0)]) 1) < (0 : ℤ) ∧
    instOf (kRegs [(1, 9223372036854775808), (2, -1)]) 0 = some (kInst [(1, 9223372036854775808), (2, -1)]) ∧
    guardOk (kInst [(1, 9223372036854775808), (2, -1)]) Guard.always = true ∧
    BitVec.toInt (rW (kInst [(1, 9223372036854775808), (2, -1)]) 1) = -(2 : ℤ) ^ 63 ∧
    BitVec.toInt (rW (kInst [(1, 9223372036854775808), (2, -1)]) 2) = (-1 : ℤ) ∧
    instOf (kRegs [(1, 9223372036854775808), (2, 1)]) 0 = some (kInst [(1, 9223372036854775808), (2, 1)]) ∧
    guardOk (kInst [(1, 9223372036854775808), (2, 1)]) Guard.always = true ∧
    rW (kInst [(1, 9223372036854775808), (2, 1)]) 2 ≠ (0 : Word) ∧
    (¬(BitVec.toInt (rW (kInst [(1, 9223372036854775808), (2, 1)]) 1) = -(2 : ℤ) ^ 63 ∧ BitVec.toInt (rW (kInst [(1, 9223372036854775808), (2, 1)]) 2) = (-1 : ℤ))) ∧
    instOf (kRegs [(1, -7), (2, 2)]) 0 = some (kInst [(1, -7), (2, 2)]) ∧
    guardOk (kInst [(1, -7), (2, 2)]) Guard.always = true ∧
    rW (kInst [(1, -7), (2, 2)]) 2 ≠ (0 : Word) ∧
    (¬(BitVec.toInt (rW (kInst [(1, -7), (2, 2)]) 1) = -(2 : ℤ) ^ 63 ∧ BitVec.toInt (rW (kInst [(1, -7), (2, 2)]) 2) = (-1 : ℤ))) := by
  and_intros <;> decide +kernel

theorem witness_PredicateAndAccumulatorResults_1 :
    instOf (kRegs [(1, 5), (2, 5)]) 0 = some (kInst [(1, 5), (2, 5)]) ∧
    guardOk (kInst [(1, 5), (2, 5)]) Guard.always = true ∧
    (5 : Word) = rW (kInst [(1, 5), (2, 5)]) 2 ∧
    instOf (kRegs [(1, -1), (2, 0)]) 0 = some (kInst [(1, -1), (2, 0)]) ∧
    guardOk (kInst [(1, -1), (2, 0)]) Guard.always = true ∧
    (0 : Word) = rW (kInst [(1, -1), (2, 0)]) 2 ∧
    instOf (kRegs [(1, -1)]) 0 = some (kInst [(1, -1)]) ∧
    guardOk (kInst [(1, -1)]) Guard.always = true ∧
    (-1 : Word) = BitVec.signExtend 64 (4294967295 : BitVec 32) ∧
    instOf (kAcc ((2 : BitVec 96) ^ 95 - (2 : BitVec 96)) [(1, (1 : Word)), (2, (1 : Word))]) 0 = some (kAccI ((2 : BitVec 96) ^ 95 - (2 : BitVec 96)) [(1, (1 : Word)), (2, (1 : Word))]) ∧
    guardOk (kAccI ((2 : BitVec 96) ^ 95 - (2 : BitVec 96)) [(1, (1 : Word)), (2, (1 : Word))]) Guard.always = true ∧
    -((2 : ℤ) ^ 95 - (1 : ℤ)) ≤ (rAcc (kAccI ((2 : BitVec 96) ^ 95 - (2 : BitVec 96)) [(1, (1 : Word)), (2, (1 : Word))]) false).toInt + (BitVec.setWidth 32 (rW (kAccI ((2 : BitVec 96) ^ 95 - (2 : BitVec 96)) [(1, (1 : Word)), (2, (1 : Word))]) 1)).toInt * (BitVec.setWidth 32 (rW (kAccI ((2 : BitVec 96) ^ 95 - (2 : BitVec 96)) [(1, (1 : Word)), (2, (1 : Word))]) 2)).toInt ∧
    (rAcc (kAccI ((2 : BitVec 96) ^ 95 - (2 : BitVec 96)) [(1, (1 : Word)), (2, (1 : Word))]) false).toInt + (BitVec.setWidth 32 (rW (kAccI ((2 : BitVec 96) ^ 95 - (2 : BitVec 96)) [(1, (1 : Word)), (2, (1 : Word))]) 1)).toInt * (BitVec.setWidth 32 (rW (kAccI ((2 : BitVec 96) ^ 95 - (2 : BitVec 96)) [(1, (1 : Word)), (2, (1 : Word))]) 2)).toInt ≤ (2 : ℤ) ^ 95 - (1 : ℤ) ∧
    instOf (kAcc ((2 : BitVec 96) ^ 95 - (1 : BitVec 96)) [(1, (1 : Word)), (2, (1 : Word))]) 0 = some (kAccI ((2 : BitVec 96) ^ 95 - (1 : BitVec 96)) [(1, (1 : Word)), (2, (1 : Word))]) ∧
    guardOk (kAccI ((2 : BitVec 96) ^ 95 - (1 : BitVec 96)) [(1, (1 : Word)), (2, (1 : Word))]) Guard.always = true ∧
    (2 : ℤ) ^ 95 - (1 : ℤ) < (rAcc (kAccI ((2 : BitVec 96) ^ 95 - (1 : BitVec 96)) [(1, (1 : Word)), (2, (1 : Word))]) false).toInt + (BitVec.setWidth 32 (rW (kAccI ((2 : BitVec 96) ^ 95 - (1 : BitVec 96)) [(1, (1 : Word)), (2, (1 : Word))]) 1)).toInt * (BitVec.setWidth 32 (rW (kAccI ((2 : BitVec 96) ^ 95 - (1 : BitVec 96)) [(1, (1 : Word)), (2, (1 : Word))]) 2)).toInt ∧
    instOf (kAcc (-(2 : BitVec 96) ^ 95 + (1 : BitVec 96)) [(1, (1 : Word)), (2, (1 : Word))]) 0 = some (kAccI (-(2 : BitVec 96) ^ 95 + (1 : BitVec 96)) [(1, (1 : Word)), (2, (1 : Word))]) ∧
    guardOk (kAccI (-(2 : BitVec 96) ^ 95 + (1 : BitVec 96)) [(1, (1 : Word)), (2, (1 : Word))]) Guard.always = true ∧
    (rAcc (kAccI (-(2 : BitVec 96) ^ 95 + (1 : BitVec 96)) [(1, (1 : Word)), (2, (1 : Word))]) false).toInt - (BitVec.setWidth 32 (rW (kAccI (-(2 : BitVec 96) ^ 95 + (1 : BitVec 96)) [(1, (1 : Word)), (2, (1 : Word))]) 1)).toInt * (BitVec.setWidth 32 (rW (kAccI (-(2 : BitVec 96) ^ 95 + (1 : BitVec 96)) [(1, (1 : Word)), (2, (1 : Word))]) 2)).toInt < -((2 : ℤ) ^ 95 - (1 : ℤ)) ∧
    instOf (kAcc (-(2 : BitVec 96) ^ 95 + (2 : BitVec 96)) [(1, (1 : Word)), (2, (1 : Word))]) 0 = some (kAccI (-(2 : BitVec 96) ^ 95 + (2 : BitVec 96)) [(1, (1 : Word)), (2, (1 : Word))]) ∧
    guardOk (kAccI (-(2 : BitVec 96) ^ 95 + (2 : BitVec 96)) [(1, (1 : Word)), (2, (1 : Word))]) Guard.always = true ∧
    -((2 : ℤ) ^ 95 - (1 : ℤ)) ≤ (rAcc (kAccI (-(2 : BitVec 96) ^ 95 + (2 : BitVec 96)) [(1, (1 : Word)), (2, (1 : Word))]) false).toInt - (BitVec.setWidth 32 (rW (kAccI (-(2 : BitVec 96) ^ 95 + (2 : BitVec 96)) [(1, (1 : Word)), (2, (1 : Word))]) 1)).toInt * (BitVec.setWidth 32 (rW (kAccI (-(2 : BitVec 96) ^ 95 + (2 : BitVec 96)) [(1, (1 : Word)), (2, (1 : Word))]) 2)).toInt ∧
    (rAcc (kAccI (-(2 : BitVec 96) ^ 95 + (2 : BitVec 96)) [(1, (1 : Word)), (2, (1 : Word))]) false).toInt - (BitVec.setWidth 32 (rW (kAccI (-(2 : BitVec 96) ^ 95 + (2 : BitVec 96)) [(1, (1 : Word)), (2, (1 : Word))]) 1)).toInt * (BitVec.setWidth 32 (rW (kAccI (-(2 : BitVec 96) ^ 95 + (2 : BitVec 96)) [(1, (1 : Word)), (2, (1 : Word))]) 2)).toInt ≤ (2 : ℤ) ^ 95 - (1 : ℤ) := by
  and_intros <;> decide +kernel

theorem witness_PredicateAndAccumulatorResults_2 :
    instOf (kAcc ((2 : BitVec 96) ^ 31 - (1 : BitVec 96)) []) 0 = some (kAccI ((2 : BitVec 96) ^ 31 - (1 : BitVec 96)) []) ∧
    guardOk (kAccI ((2 : BitVec 96) ^ 31 - (1 : BitVec 96)) []) Guard.always = true ∧
    (31 = if false = true then 63 else 31) ∧
    (2147483647 : ℤ) = (rAcc (kAccI ((2 : BitVec 96) ^ 31 - (1 : BitVec 96)) []) false).toInt ∧
    ((2147483647 : ℤ) = if (0 : Fin 64).val = 0 then (2147483647 : ℤ) else if (0 : ℤ) ≤ (2147483647 : ℤ) then ((2147483647 : ℤ) + (2 : ℤ) ^ ((0 : Fin 64).val - 1)) / (2 : ℤ) ^ (0 : Fin 64).val else -(((-2147483647 : ℤ) + (2 : ℤ) ^ ((0 : Fin 64).val - 1)) / (2 : ℤ) ^ (0 : Fin 64).val)) ∧
    -(2 : ℤ) ^ 31 ≤ (2147483647 : ℤ) ∧
    (2147483647 : ℤ) ≤ (2 : ℤ) ^ 31 - (1 : ℤ) ∧
    instOf (kAcc ((2 : BitVec 96) ^ 31) []) 0 = some (kAccI ((2 : BitVec 96) ^ 31) []) ∧
    guardOk (kAccI ((2 : BitVec 96) ^ 31) []) Guard.always = true ∧
    (2147483648 : ℤ) = (rAcc (kAccI ((2 : BitVec 96) ^ 31) []) false).toInt ∧
    ((2147483648 : ℤ) = if (0 : Fin 64).val = 0 then (2147483648 : ℤ) else if (0 : ℤ) ≤ (2147483648 : ℤ) then ((2147483648 : ℤ) + (2 : ℤ) ^ ((0 : Fin 64).val - 1)) / (2 : ℤ) ^ (0 : Fin 64).val else -(((-2147483648 : ℤ) + (2 : ℤ) ^ ((0 : Fin 64).val - 1)) / (2 : ℤ) ^ (0 : Fin 64).val)) ∧
    (2 : ℤ) ^ 31 - (1 : ℤ) < (2147483648 : ℤ) ∧
    instOf (kAcc ((2 : BitVec 96) ^ 32 - (1 : BitVec 96)) []) 0 = some (kAccI ((2 : BitVec 96) ^ 32 - (1 : BitVec 96)) []) ∧
    guardOk (kAccI ((2 : BitVec 96) ^ 32 - (1 : BitVec 96)) []) Guard.always = true ∧
    (4294967295 : ℤ) = (rAcc (kAccI ((2 : BitVec 96) ^ 32 - (1 : BitVec 96)) []) false).toInt ∧
    ((2147483648 : ℤ) = if (1 : Fin 64).val = 0 then (4294967295 : ℤ) else if (0 : ℤ) ≤ (4294967295 : ℤ) then ((4294967295 : ℤ) + (2 : ℤ) ^ ((1 : Fin 64).val - 1)) / (2 : ℤ) ^ (1 : Fin 64).val else -(((-4294967295 : ℤ) + (2 : ℤ) ^ ((1 : Fin 64).val - 1)) / (2 : ℤ) ^ (1 : Fin 64).val)) ∧
    instOf (kAcc (-(2 : BitVec 96) ^ 31 - (1 : BitVec 96)) []) 0 = some (kAccI (-(2 : BitVec 96) ^ 31 - (1 : BitVec 96)) []) ∧
    guardOk (kAccI (-(2 : BitVec 96) ^ 31 - (1 : BitVec 96)) []) Guard.always = true ∧
    (-2147483649 : ℤ) = (rAcc (kAccI (-(2 : BitVec 96) ^ 31 - (1 : BitVec 96)) []) false).toInt ∧
    ((-2147483649 : ℤ) = if (0 : Fin 64).val = 0 then (-2147483649 : ℤ) else if (0 : ℤ) ≤ (-2147483649 : ℤ) then ((-2147483649 : ℤ) + (2 : ℤ) ^ ((0 : Fin 64).val - 1)) / (2 : ℤ) ^ (0 : Fin 64).val else -((-(-2147483649 : ℤ) + (2 : ℤ) ^ ((0 : Fin 64).val - 1)) / (2 : ℤ) ^ (0 : Fin 64).val)) ∧
    (-2147483649 : ℤ) < -(2 : ℤ) ^ 31 := by
  and_intros <;> decide +kernel

theorem witness_PredicateAndAccumulatorResults_3 :
    instOf (kAcc (-(2 : BitVec 96) ^ 63) []) 0 = some (kAccI (-(2 : BitVec 96) ^ 63) []) ∧
    guardOk (kAccI (-(2 : BitVec 96) ^ 63) []) Guard.always = true ∧
    (63 = if true = true then 63 else 31) ∧
    (-9223372036854775808 : ℤ) = (rAcc (kAccI (-(2 : BitVec 96) ^ 63) []) false).toInt ∧
    ((-9223372036854775808 : ℤ) = if (0 : Fin 64).val = 0 then (-9223372036854775808 : ℤ) else if (0 : ℤ) ≤ (-9223372036854775808 : ℤ) then ((-9223372036854775808 : ℤ) + (2 : ℤ) ^ ((0 : Fin 64).val - 1)) / (2 : ℤ) ^ (0 : Fin 64).val else -((-(-9223372036854775808 : ℤ) + (2 : ℤ) ^ ((0 : Fin 64).val - 1)) / (2 : ℤ) ^ (0 : Fin 64).val)) ∧
    -(2 : ℤ) ^ 63 ≤ (-9223372036854775808 : ℤ) ∧
    (-9223372036854775808 : ℤ) ≤ (2 : ℤ) ^ 63 - (1 : ℤ) ∧
    instOf (kAcc ((2 : BitVec 96) ^ 63) []) 0 = some (kAccI ((2 : BitVec 96) ^ 63) []) ∧
    guardOk (kAccI ((2 : BitVec 96) ^ 63) []) Guard.always = true ∧
    (9223372036854775808 : ℤ) = (rAcc (kAccI ((2 : BitVec 96) ^ 63) []) false).toInt ∧
    ((9223372036854775808 : ℤ) = if (0 : Fin 64).val = 0 then (9223372036854775808 : ℤ) else if (0 : ℤ) ≤ (9223372036854775808 : ℤ) then ((9223372036854775808 : ℤ) + (2 : ℤ) ^ ((0 : Fin 64).val - 1)) / (2 : ℤ) ^ (0 : Fin 64).val else -(((-9223372036854775808 : ℤ) + (2 : ℤ) ^ ((0 : Fin 64).val - 1)) / (2 : ℤ) ^ (0 : Fin 64).val)) ∧
    (2 : ℤ) ^ 63 - (1 : ℤ) < (9223372036854775808 : ℤ) ∧
    instOf (kAcc (-(2 : BitVec 96) ^ 64 - (1 : BitVec 96)) []) 0 = some (kAccI (-(2 : BitVec 96) ^ 64 - (1 : BitVec 96)) []) ∧
    guardOk (kAccI (-(2 : BitVec 96) ^ 64 - (1 : BitVec 96)) []) Guard.always = true ∧
    (-18446744073709551617 : ℤ) = (rAcc (kAccI (-(2 : BitVec 96) ^ 64 - (1 : BitVec 96)) []) false).toInt ∧
    ((-9223372036854775809 : ℤ) = if (1 : Fin 64).val = 0 then (-18446744073709551617 : ℤ) else if (0 : ℤ) ≤ (-18446744073709551617 : ℤ) then ((-18446744073709551617 : ℤ) + (2 : ℤ) ^ ((1 : Fin 64).val - 1)) / (2 : ℤ) ^ (1 : Fin 64).val else -((-(-18446744073709551617 : ℤ) + (2 : ℤ) ^ ((1 : Fin 64).val - 1)) / (2 : ℤ) ^ (1 : Fin 64).val)) ∧
    (-9223372036854775809 : ℤ) < -(2 : ℤ) ^ 63 ∧
    instOf (kAcc (-3 : BitVec 96) []) 0 = some (kAccI (-3 : BitVec 96) []) ∧
    guardOk (kAccI (-3 : BitVec 96) []) Guard.always = true ∧
    (-3 : ℤ) = (rAcc (kAccI (-3 : BitVec 96) []) false).toInt ∧
    ((-2 : ℤ) = if (1 : Fin 64).val = 0 then (-3 : ℤ) else if (0 : ℤ) ≤ (-3 : ℤ) then ((-3 : ℤ) + (2 : ℤ) ^ ((1 : Fin 64).val - 1)) / (2 : ℤ) ^ (1 : Fin 64).val else -((-(-3 : ℤ) + (2 : ℤ) ^ ((1 : Fin 64).val - 1)) / (2 : ℤ) ^ (1 : Fin 64).val)) ∧
    -(2 : ℤ) ^ 63 ≤ (-2 : ℤ) ∧
    (-2 : ℤ) ≤ (2 : ℤ) ^ 63 - (1 : ℤ) := by
  and_intros <;> decide +kernel

theorem witness_FloatResults_1 :
    instOf (kRegs [(1, 9218868437227405311), (2, 9218868437227405311)]) 0 = some (kInst [(1, 9218868437227405311), (2, 9218868437227405311)]) ∧
    guardOk (kInst [(1, 9218868437227405311), (2, 9218868437227405311)]) Guard.always = true ∧
    instOf (kRegs [(1, 4607182418800017408), (2, 9218868437227405313)]) 0 = some (kInst [(1, 4607182418800017408), (2, 9218868437227405313)]) ∧
    guardOk (kInst [(1, 4607182418800017408), (2, 9218868437227405313)]) Guard.always = true ∧
    instOf (kRegs [(1, 4607182418800017408), (2, 0)]) 0 = some (kInst [(1, 4607182418800017408), (2, 0)]) ∧
    guardOk (kInst [(1, 4607182418800017408), (2, 0)]) Guard.always = true ∧
    instOf (kRegs [(1, 1065353216), (2, 1073741824)]) 0 = some (kInst [(1, 1065353216), (2, 1073741824)]) ∧
    guardOk (kInst [(1, 1065353216), (2, 1073741824)]) Guard.always = true ∧
    instOf (kRegs [(1, 4607182418800017408), (2, 4607182418800017408), (3, 4607182418800017408)]) 0 = some (kInst [(1, 4607182418800017408), (2, 4607182418800017408), (3, 4607182418800017408)]) ∧
    guardOk (kInst [(1, 4607182418800017408), (2, 4607182418800017408), (3, 4607182418800017408)]) Guard.always = true ∧
    instOf (kRegs [(1, 13830554455654793216)]) 0 = some (kInst [(1, 13830554455654793216)]) ∧
    guardOk (kInst [(1, 13830554455654793216)]) Guard.always = true ∧
    instOf (kRegs [(1, 9221120237041090560), (2, 4607182418800017408)]) 0 = some (kInst [(1, 9221120237041090560), (2, 4607182418800017408)]) ∧
    guardOk (kInst [(1, 9221120237041090560), (2, 4607182418800017408)]) Guard.always = true ∧
    instOf (kRegs [(1, 9218868437227405313), (2, 4607182418800017408)]) 0 = some (kInst [(1, 9218868437227405313), (2, 4607182418800017408)]) ∧
    guardOk (kInst [(1, 9218868437227405313), (2, 4607182418800017408)]) Guard.always = true ∧
    instOf (kRegs [(1, 2147483648)]) 0 = some (kInst [(1, 2147483648)]) ∧
    guardOk (kInst [(1, 2147483648)]) Guard.always = true ∧
    instOf (kRegs [(1, 2139095041)]) 0 = some (kInst [(1, 2139095041)]) ∧
    guardOk (kInst [(1, 2139095041)]) Guard.always = true ∧
    instOf (kRegs [(1, 9218868437227405311)]) 0 = some (kInst [(1, 9218868437227405311)]) ∧
    guardOk (kInst [(1, 9218868437227405311)]) Guard.always = true := by
  and_intros <;> decide +kernel

theorem witness_FloatResults_2 :
    instOf (kRegs [(1, 4607182418800017408)]) 0 = some (kInst [(1, 4607182418800017408)]) ∧
    guardOk (kInst [(1, 4607182418800017408)]) Guard.always = true ∧
    ((16777216 : ℤ), false, false) = fToInt 32 24 (rF (kInst [(1, 4607182418800017408)]) Prec.double 1) ∧
    instOf (kRegs [(1, 1124073472)]) 0 = some (kInst [(1, 1124073472)]) ∧
    guardOk (kInst [(1, 1124073472)]) Guard.always = true ∧
    ((2147483647 : ℤ), false, true) = fToInt 32 24 (rF (kInst [(1, 1124073472)]) Prec.single 1) ∧
    instOf (kRegs [(1, 9221120237041090560)]) 0 = some (kInst [(1, 9221120237041090560)]) ∧
    guardOk (kInst [(1, 9221120237041090560)]) Guard.always = true ∧
    ((0 : ℤ), true, false) = fToInt 64 0 (rF (kInst [(1, 9221120237041090560)]) Prec.double 1) ∧
    instOf (kRegs [(1, 9221120237041090560), (2, 4607182418800017408)]) 0 = some (kInst [(1, 9221120237041090560), (2, 4607182418800017408)]) ∧
    guardOk (kInst [(1, 9221120237041090560), (2, 4607182418800017408)]) Guard.always = true ∧
    true = ((rF (kInst [(1, 9221120237041090560), (2, 4607182418800017408)]) Prec.double 1).isNan || (rF (kInst [(1, 9221120237041090560), (2, 4607182418800017408)]) Prec.double 2).isNan) ∧
    instOf (kRegs [(1, 9218868437227405313), (2, 4607182418800017408)]) 0 = some (kInst [(1, 9218868437227405313), (2, 4607182418800017408)]) ∧
    guardOk (kInst [(1, 9218868437227405313), (2, 4607182418800017408)]) Guard.always = true ∧
    FCond.le ≠ FCond.un ∧
    ((rF (kInst [(1, 9218868437227405313), (2, 4607182418800017408)]) Prec.double 1).isNan || (rF (kInst [(1, 9218868437227405313), (2, 4607182418800017408)]) Prec.double 2).isNan) = true ∧
    instOf (kRegs [(1, 9223372036854775808), (2, 0)]) 0 = some (kInst [(1, 9223372036854775808), (2, 0)]) ∧
    guardOk (kInst [(1, 9223372036854775808), (2, 0)]) Guard.always = true ∧
    ((rF (kInst [(1, 9223372036854775808), (2, 0)]) Prec.double 1).isNan || (rF (kInst [(1, 9223372036854775808), (2, 0)]) Prec.double 2).isNan) = false ∧
    true = decide (fOrder (rF (kInst [(1, 9223372036854775808), (2, 0)]) Prec.double 1) (rF (kInst [(1, 9223372036854775808), (2, 0)]) Prec.double 2) = (0 : ℤ)) ∧
    false = decide (fOrder (rF (kInst [(1, 9223372036854775808), (2, 0)]) Prec.double 1) (rF (kInst [(1, 9223372036854775808), (2, 0)]) Prec.double 2) < (0 : ℤ)) := by
  and_intros <;> decide +kernel

theorem witness_FloatResults_3 :
    instOf (kRegs [(1, 0), (2, 4607182418800017408)]) 0 = some (kInst [(1, 0), (2, 4607182418800017408)]) ∧
    guardOk (kInst [(1, 0), (2, 4607182418800017408)]) Guard.always = true ∧
    ((rF (kInst [(1, 0), (2, 4607182418800017408)]) Prec.double 1).isNan || (rF (kInst [(1, 0), (2, 4607182418800017408)]) Prec.double 2).isNan) = false ∧
    true = decide (fOrder (rF (kInst [(1, 0), (2, 4607182418800017408)]) Prec.double 1) (rF (kInst [(1, 0), (2, 4607182418800017408)]) Prec.double 2) ≤ (0 : ℤ)) ∧
    FVal.inf true ≠ FVal.nan true ∧
    (fRead fmt64 9218868437227405313).isNan = true ∧
    (fRead fmt64 0).isNan = false := by
  and_intros <;> decide +kernel

theorem witness_FloatRoundsToNearest :
    9007199254740993 ≠ 0 ∧
    (fRound (fmtOf Prec.double) true 9007199254740993 (-1074 : ℤ) false).ovf = false ∧
    16777215 ≠ 0 ∧
    (fRound (fmtOf Prec.single) false 16777215 (104 : ℤ) false).ovf = false := by
  and_intros <;> decide +kernel

theorem witness_LoadAndStoreResults_1 :
    instOf (kMem [(8, [(255 : Byte), (128 : Byte), (0 : Byte), (0 : Byte), (0 : Byte), (0 : Byte), (0 : Byte), (128 : Byte)])] (kInst [(1, 8)])) 0 = some (kInst [(1, 8)]) ∧
    guardOk (kInst [(1, 8)]) Guard.always = true ∧
    8 = BitVec.toNat (rW (kInst [(1, 8)]) 1 + BitVec.signExtend 64 (0 : BitVec 32)) ∧
    9223372036854808831 = (List.map (fun k => BitVec.toNat (instByte (kMem [(8, [(255 : Byte), (128 : Byte), (0 : Byte), (0 : Byte), (0 : Byte), (0 : Byte), (0 : Byte), (128 : Byte)])] (kInst [(1, 8)])) (kInst [(1, 8)]) Space.data (8 + k)) * 256 ^ k) (List.range 8)).sum ∧
    8 % 8 = 0 ∧
    inSegment (kMem [(8, [(255 : Byte), (128 : Byte), (0 : Byte), (0 : Byte), (0 : Byte), (0 : Byte), (0 : Byte), (128 : Byte)])] (kInst [(1, 8)])) (kInst [(1, 8)]).task Space.data 8 8 = true ∧
    33023 = (List.map (fun k => BitVec.toNat (instByte (kMem [(8, [(255 : Byte), (128 : Byte), (0 : Byte), (0 : Byte), (0 : Byte), (0 : Byte), (0 : Byte), (128 : Byte)])] (kInst [(1, 8)])) (kInst [(1, 8)]) Space.data (8 + k)) * 256 ^ k) (List.range 2)).sum ∧
    8 % 2 = 0 ∧
    inSegment (kMem [(8, [(255 : Byte), (128 : Byte), (0 : Byte), (0 : Byte), (0 : Byte), (0 : Byte), (0 : Byte), (128 : Byte)])] (kInst [(1, 8)])) (kInst [(1, 8)]).task Space.data 8 2 = true ∧
    instOf (kMem [(8, [(255 : Byte), (128 : Byte), (0 : Byte), (0 : Byte), (0 : Byte), (0 : Byte), (0 : Byte), (128 : Byte)])] (kInst [(1, 4095)])) 0 = some (kInst [(1, 4095)]) ∧
    guardOk (kInst [(1, 4095)]) Guard.always = true ∧
    4095 = BitVec.toNat (rW (kInst [(1, 4095)]) 1 + BitVec.signExtend 64 (0 : BitVec 32)) ∧
    0 = (List.map (fun k => BitVec.toNat (instByte (kMem [(8, [(255 : Byte), (128 : Byte), (0 : Byte), (0 : Byte), (0 : Byte), (0 : Byte), (0 : Byte), (128 : Byte)])] (kInst [(1, 4095)])) (kInst [(1, 4095)]) Space.data (4095 + k)) * 256 ^ k) (List.range 1)).sum ∧
    4095 % 1 = 0 ∧
    inSegment (kMem [(8, [(255 : Byte), (128 : Byte), (0 : Byte), (0 : Byte), (0 : Byte), (0 : Byte), (0 : Byte), (128 : Byte)])] (kInst [(1, 4095)])) (kInst [(1, 4095)]).task Space.data 4095 1 = true ∧
    instOf (kMem [(8, [(255 : Byte), (128 : Byte), (0 : Byte), (0 : Byte), (0 : Byte), (0 : Byte), (0 : Byte), (128 : Byte)])] (kInst [(1, 4088)])) 0 = some (kInst [(1, 4088)]) ∧
    guardOk (kInst [(1, 4088)]) Guard.always = true ∧
    4088 = BitVec.toNat (rW (kInst [(1, 4088)]) 1 + BitVec.signExtend 64 (0 : BitVec 32)) ∧
    0 = (List.map (fun k => BitVec.toNat (instByte (kMem [(8, [(255 : Byte), (128 : Byte), (0 : Byte), (0 : Byte), (0 : Byte), (0 : Byte), (0 : Byte), (128 : Byte)])] (kInst [(1, 4088)])) (kInst [(1, 4088)]) Space.data (4088 + k)) * 256 ^ k) (List.range 8)).sum ∧
    4088 % 8 = 0 ∧
    inSegment (kMem [(8, [(255 : Byte), (128 : Byte), (0 : Byte), (0 : Byte), (0 : Byte), (0 : Byte), (0 : Byte), (128 : Byte)])] (kInst [(1, 4088)])) (kInst [(1, 4088)]).task Space.data 4088 8 = true := by
  and_intros <;> decide +kernel

theorem witness_LoadAndStoreResults_2 :
    instOf (kMem [(8, [(255 : Byte), (128 : Byte), (0 : Byte), (0 : Byte), (0 : Byte), (0 : Byte), (0 : Byte), (128 : Byte)])] (kInst [(1, 4096)])) 0 = some (kInst [(1, 4096)]) ∧
    guardOk (kInst [(1, 4096)]) Guard.always = true ∧
    4096 = BitVec.toNat (rW (kInst [(1, 4096)]) 1 + BitVec.signExtend 64 (0 : BitVec 32)) ∧
    0 = (List.map (fun k => BitVec.toNat (instByte (kMem [(8, [(255 : Byte), (128 : Byte), (0 : Byte), (0 : Byte), (0 : Byte), (0 : Byte), (0 : Byte), (128 : Byte)])] (kInst [(1, 4096)])) (kInst [(1, 4096)]) Space.data (4096 + k)) * 256 ^ k) (List.range 8)).sum ∧
    (¬(4096 % 8 = 0 ∧ inSegment (kMem [(8, [(255 : Byte), (128 : Byte), (0 : Byte), (0 : Byte), (0 : Byte), (0 : Byte), (0 : Byte), (128 : Byte)])] (kInst [(1, 4096)])) (kInst [(1, 4096)]).task Space.data 4096 8 = true)) ∧
    instOf (kMem [(8, [(255 : Byte), (128 : Byte), (0 : Byte), (0 : Byte), (0 : Byte), (0 : Byte), (0 : Byte), (128 : Byte)])] (kInst [(1, 6)])) 0 = some (kInst [(1, 6)]) ∧
    guardOk (kInst [(1, 6)]) Guard.always = true ∧
    6 = BitVec.toNat (rW (kInst [(1, 6)]) 1 + BitVec.signExtend 64 (0 : BitVec 32)) ∧
    2164195328 = (List.map (fun k => BitVec.toNat (instByte (kMem [(8, [(255 : Byte), (128 : Byte), (0 : Byte), (0 : Byte), (0 : Byte), (0 : Byte), (0 : Byte), (128 : Byte)])] (kInst [(1, 6)])) (kInst [(1, 6)]) Space.data (6 + k)) * 256 ^ k) (List.range 4)).sum ∧
    (¬(6 % 4 = 0 ∧ inSegment (kMem [(8, [(255 : Byte), (128 : Byte), (0 : Byte), (0 : Byte), (0 : Byte), (0 : Byte), (0 : Byte), (128 : Byte)])] (kInst [(1, 6)])) (kInst [(1, 6)]).task Space.data 6 4 = true)) ∧
    instOf (kMem [(8, [(255 : Byte), (128 : Byte), (0 : Byte), (0 : Byte), (0 : Byte), (0 : Byte), (0 : Byte), (128 : Byte)])] (kInst [(1, 63)])) 0 = some (kInst [(1, 63)]) ∧
    guardOk (kInst [(1, 63)]) Guard.always = true ∧
    63 = BitVec.toNat (rW (kInst [(1, 63)]) 1 + BitVec.signExtend 64 (0 : BitVec 32)) ∧
    0 = (List.map (fun k => BitVec.toNat (instByte (kMem [(8, [(255 : Byte), (128 : Byte), (0 : Byte), (0 : Byte), (0 : Byte), (0 : Byte), (0 : Byte), (128 : Byte)])] (kInst [(1, 63)])) (kInst [(1, 63)]) Space.retained (63 + k)) * 256 ^ k) (List.range 1)).sum ∧
    (¬(63 % 1 = 0 ∧ inSegment (kMem [(8, [(255 : Byte), (128 : Byte), (0 : Byte), (0 : Byte), (0 : Byte), (0 : Byte), (0 : Byte), (128 : Byte)])] (kInst [(1, 63)])) (kInst [(1, 63)]).task Space.retained 63 1 = true)) ∧
    instOf (kMem [(8, [(255 : Byte), (128 : Byte), (0 : Byte), (0 : Byte), (0 : Byte), (0 : Byte), (0 : Byte), (128 : Byte)])] (kInst [(1, 64)])) 0 = some (kInst [(1, 64)]) ∧
    guardOk (kInst [(1, 64)]) Guard.always = true ∧
    64 = BitVec.toNat (rW (kInst [(1, 64)]) 1 + BitVec.signExtend 64 (0 : BitVec 32)) ∧
    0 = (List.map (fun k => BitVec.toNat (instByte (kMem [(8, [(255 : Byte), (128 : Byte), (0 : Byte), (0 : Byte), (0 : Byte), (0 : Byte), (0 : Byte), (128 : Byte)])] (kInst [(1, 64)])) (kInst [(1, 64)]) Space.retained (64 + k)) * 256 ^ k) (List.range 4)).sum ∧
    64 % 4 = 0 ∧
    inSegment (kMem [(8, [(255 : Byte), (128 : Byte), (0 : Byte), (0 : Byte), (0 : Byte), (0 : Byte), (0 : Byte), (128 : Byte)])] (kInst [(1, 64)])) (kInst [(1, 64)]).task Space.retained 64 4 = true := by
  and_intros <;> decide +kernel

theorem witness_LoadAndStoreResults_3 :
    instOf (kMem [(8, [(255 : Byte), (128 : Byte), (0 : Byte), (0 : Byte), (0 : Byte), (0 : Byte), (0 : Byte), (128 : Byte)])] (kInst [(1, 8)])) 0 = some (kInst [(1, 8)]) ∧
    guardOk (kInst [(1, 8)]) Guard.always = true ∧
    8 = BitVec.toNat (rW (kInst [(1, 8)]) 1 + BitVec.signExtend 64 (0 : BitVec 32)) ∧
    8 % 8 = 0 ∧
    inSegment (kMem [(8, [(255 : Byte), (128 : Byte), (0 : Byte), (0 : Byte), (0 : Byte), (0 : Byte), (0 : Byte), (128 : Byte)])] (kInst [(1, 8)])) (kInst [(1, 8)]).task Space.data 8 8 = true ∧
    8 % 2 = 0 ∧
    inSegment (kMem [(8, [(255 : Byte), (128 : Byte), (0 : Byte), (0 : Byte), (0 : Byte), (0 : Byte), (0 : Byte), (128 : Byte)])] (kInst [(1, 8)])) (kInst [(1, 8)]).task Space.data 8 2 = true ∧
    instOf (kMem [(8, [(255 : Byte), (128 : Byte), (0 : Byte), (0 : Byte), (0 : Byte), (0 : Byte), (0 : Byte), (128 : Byte)])] (kInst [(1, 4095)])) 0 = some (kInst [(1, 4095)]) ∧
    guardOk (kInst [(1, 4095)]) Guard.always = true ∧
    4095 = BitVec.toNat (rW (kInst [(1, 4095)]) 1 + BitVec.signExtend 64 (0 : BitVec 32)) ∧
    4095 % 1 = 0 ∧
    inSegment (kMem [(8, [(255 : Byte), (128 : Byte), (0 : Byte), (0 : Byte), (0 : Byte), (0 : Byte), (0 : Byte), (128 : Byte)])] (kInst [(1, 4095)])) (kInst [(1, 4095)]).task Space.data 4095 1 = true ∧
    instOf (kMem [(8, [(255 : Byte), (128 : Byte), (0 : Byte), (0 : Byte), (0 : Byte), (0 : Byte), (0 : Byte), (128 : Byte)])] (kInst [(1, 4088)])) 0 = some (kInst [(1, 4088)]) ∧
    guardOk (kInst [(1, 4088)]) Guard.always = true ∧
    4088 = BitVec.toNat (rW (kInst [(1, 4088)]) 1 + BitVec.signExtend 64 (0 : BitVec 32)) ∧
    4088 % 8 = 0 ∧
    inSegment (kMem [(8, [(255 : Byte), (128 : Byte), (0 : Byte), (0 : Byte), (0 : Byte), (0 : Byte), (0 : Byte), (128 : Byte)])] (kInst [(1, 4088)])) (kInst [(1, 4088)]).task Space.data 4088 8 = true ∧
    instOf (kMem [(8, [(255 : Byte), (128 : Byte), (0 : Byte), (0 : Byte), (0 : Byte), (0 : Byte), (0 : Byte), (128 : Byte)])] (kInst [(1, 4096)])) 0 = some (kInst [(1, 4096)]) ∧
    guardOk (kInst [(1, 4096)]) Guard.always = true ∧
    4096 = BitVec.toNat (rW (kInst [(1, 4096)]) 1 + BitVec.signExtend 64 (0 : BitVec 32)) ∧
    (¬(4096 % 8 = 0 ∧ inSegment (kMem [(8, [(255 : Byte), (128 : Byte), (0 : Byte), (0 : Byte), (0 : Byte), (0 : Byte), (0 : Byte), (128 : Byte)])] (kInst [(1, 4096)])) (kInst [(1, 4096)]).task Space.data 4096 8 = true)) := by
  and_intros <;> decide +kernel

theorem witness_LoadAndStoreResults_4 :
    instOf (kMem [(8, [(255 : Byte), (128 : Byte), (0 : Byte), (0 : Byte), (0 : Byte), (0 : Byte), (0 : Byte), (128 : Byte)])] (kInst [(1, 6)])) 0 = some (kInst [(1, 6)]) ∧
    guardOk (kInst [(1, 6)]) Guard.always = true ∧
    6 = BitVec.toNat (rW (kInst [(1, 6)]) 1 + BitVec.signExtend 64 (0 : BitVec 32)) ∧
    (¬(6 % 4 = 0 ∧ inSegment (kMem [(8, [(255 : Byte), (128 : Byte), (0 : Byte), (0 : Byte), (0 : Byte), (0 : Byte), (0 : Byte), (128 : Byte)])] (kInst [(1, 6)])) (kInst [(1, 6)]).task Space.data 6 4 = true)) ∧
    instOf (kMem [(8, [(255 : Byte), (128 : Byte), (0 : Byte), (0 : Byte), (0 : Byte), (0 : Byte), (0 : Byte), (128 : Byte)])] (kInst [(1, 63)])) 0 = some (kInst [(1, 63)]) ∧
    guardOk (kInst [(1, 63)]) Guard.always = true ∧
    63 = BitVec.toNat (rW (kInst [(1, 63)]) 1 + BitVec.signExtend 64 (0 : BitVec 32)) ∧
    (¬(63 % 1 = 0 ∧ inSegment (kMem [(8, [(255 : Byte), (128 : Byte), (0 : Byte), (0 : Byte), (0 : Byte), (0 : Byte), (0 : Byte), (128 : Byte)])] (kInst [(1, 63)])) (kInst [(1, 63)]).task Space.retained 63 1 = true)) ∧
    instOf (kMem [(8, [(255 : Byte), (128 : Byte), (0 : Byte), (0 : Byte), (0 : Byte), (0 : Byte), (0 : Byte), (128 : Byte)])] (kInst [(1, 64)])) 0 = some (kInst [(1, 64)]) ∧
    guardOk (kInst [(1, 64)]) Guard.always = true ∧
    64 = BitVec.toNat (rW (kInst [(1, 64)]) 1 + BitVec.signExtend 64 (0 : BitVec 32)) ∧
    64 % 4 = 0 ∧
    inSegment (kMem [(8, [(255 : Byte), (128 : Byte), (0 : Byte), (0 : Byte), (0 : Byte), (0 : Byte), (0 : Byte), (128 : Byte)])] (kInst [(1, 64)])) (kInst [(1, 64)]).task Space.retained 64 4 = true := by
  and_intros <;> decide +kernel

theorem witness_PointResults_1 :
    instOf (kRegs [(1, 0)]) 0 = some (kInst [(1, 0)]) ∧
    guardOk (kInst [(1, 0)]) Guard.always = true ∧
    taskOf (kRegs [(1, 0)]) (kInst [(1, 0)]).task = some kTask ∧
    0 = BitVec.toNat (rW (kInst [(1, 0)]) 1 + BitVec.signExtend 64 (0 : BitVec 32)) ∧
    kTask.inList[0]? = some 4 ∧
    instOf (kRegs [(1, 1)]) 0 = some (kInst [(1, 1)]) ∧
    guardOk (kInst [(1, 1)]) Guard.always = true ∧
    taskOf (kRegs [(1, 1)]) (kInst [(1, 1)]).task = some kTask ∧
    1 = BitVec.toNat (rW (kInst [(1, 1)]) 1 + BitVec.signExtend 64 (0 : BitVec 32)) ∧
    kTask.inList[1]? = none ∧
    kTask.outList[1]? = none ∧
    instOf (kRegs [(1, 0), (2, 0), (3, 77)]) 0 = some (kInst [(1, 0), (2, 0), (3, 77)]) ∧
    guardOk (kInst [(1, 0), (2, 0), (3, 77)]) Guard.always = true ∧
    taskOf (kRegs [(1, 0), (2, 0), (3, 77)]) (kInst [(1, 0), (2, 0), (3, 77)]).task = some kTask ∧
    0 = BitVec.toNat (rW (kInst [(1, 0), (2, 0), (3, 77)]) 1 + BitVec.signExtend 64 (0 : BitVec 32)) ∧
    kTask.outList[0]? = some 6 ∧
    BitVec.toNat (rW (kInst [(1, 0), (2, 0), (3, 77)]) 2) % 8 = 0 ∧
    instOf (kRegs [(1, 0), (2, 3), (3, 77)]) 0 = some (kInst [(1, 0), (2, 3), (3, 77)]) ∧
    guardOk (kInst [(1, 0), (2, 3), (3, 77)]) Guard.always = true ∧
    taskOf (kRegs [(1, 0), (2, 3), (3, 77)]) (kInst [(1, 0), (2, 3), (3, 77)]).task = some kTask ∧
    0 = BitVec.toNat (rW (kInst [(1, 0), (2, 3), (3, 77)]) 1 + BitVec.signExtend 64 (0 : BitVec 32)) ∧
    BitVec.toNat (rW (kInst [(1, 0), (2, 3), (3, 77)]) 2) % 8 = 3 := by
  and_intros <;> decide +kernel

theorem witness_PointResults_2 :
    instOf (kRegs [(1, 0), (2, 4), (3, 77)]) 0 = some (kInst [(1, 0), (2, 4), (3, 77)]) ∧
    guardOk (kInst [(1, 0), (2, 4), (3, 77)]) Guard.always = true ∧
    taskOf (kRegs [(1, 0), (2, 4), (3, 77)]) (kInst [(1, 0), (2, 4), (3, 77)]).task = some kTask ∧
    0 = BitVec.toNat (rW (kInst [(1, 0), (2, 4), (3, 77)]) 1 + BitVec.signExtend 64 (0 : BitVec 32)) ∧
    kTask.outList[0]? = some 6 ∧
    BitVec.toNat (rW (kInst [(1, 0), (2, 4), (3, 77)]) 2) % 8 = 4 ∧
    instOf (kRegs [(1, 0), (2, 1), (3, 77)]) 0 = some (kInst [(1, 0), (2, 1), (3, 77)]) ∧
    guardOk (kInst [(1, 0), (2, 1), (3, 77)]) Guard.always = true ∧
    taskOf (kRegs [(1, 0), (2, 1), (3, 77)]) (kInst [(1, 0), (2, 1), (3, 77)]).task = some kTask ∧
    0 = BitVec.toNat (rW (kInst [(1, 0), (2, 1), (3, 77)]) 1 + BitVec.signExtend 64 (0 : BitVec 32)) ∧
    BitVec.toNat (rW (kInst [(1, 0), (2, 1), (3, 77)]) 2) % 8 ∉ [0, 3, 4] ∧
    instOf (kRegs [(1, 0), (2, 8), (3, 77)]) 0 = some (kInst [(1, 0), (2, 8), (3, 77)]) ∧
    guardOk (kInst [(1, 0), (2, 8), (3, 77)]) Guard.always = true ∧
    taskOf (kRegs [(1, 0), (2, 8), (3, 77)]) (kInst [(1, 0), (2, 8), (3, 77)]).task = some kTask ∧
    0 = BitVec.toNat (rW (kInst [(1, 0), (2, 8), (3, 77)]) 1 + BitVec.signExtend 64 (0 : BitVec 32)) ∧
    BitVec.toNat (rW (kInst [(1, 0), (2, 8), (3, 77)]) 2) % 8 = 0 := by
  and_intros <;> decide +kernel

theorem witness_ControlFlowResults_1 :
    instOf (kRegs []) 0 = some (kInst []) ∧
    guardOk (kInst []) Guard.always = true ∧
    (0 : ℤ) ≤ ↑(kInst []).pc + BitVec.toInt (1 : BitVec 32) ∧
    (0 : ℤ) ≤ ↑(kInst []).pc + (-3 : BitVec 32).toInt ∧
    instOf (kRun kCall) 0 = some kCall ∧
    guardOk kCall Guard.always = true ∧
    kCall.rets = [9] ∧
    ((5 : ℤ) = if 0 = 0 then ↑(BitVec.toNat (5 : BitVec 16)) else BitVec.toInt (rW (kInst []) 0)) ∧
    (0 : ℤ) < (5 : ℤ) ∧
    0 < BitVec.toNat (5 : BitVec 16) ∧
    instOf (kRegs [(1, 1)]) 0 = some (kInst [(1, 1)]) ∧
    guardOk (kInst [(1, 1)]) Guard.always = true ∧
    ((1 : ℤ) = if 1 = 0 then ↑(BitVec.toNat (1 : BitVec 16)) else BitVec.toInt (rW (kInst [(1, 1)]) 1)) ∧
    (0 : ℤ) < (1 : ℤ) ∧
    0 < BitVec.toNat (1 : BitVec 16) ∧
    instOf (kRegs [(1, 6)]) 0 = some (kInst [(1, 6)]) ∧
    guardOk (kInst [(1, 6)]) Guard.always = true ∧
    ((6 : ℤ) = if 1 = 0 then ↑(BitVec.toNat (5 : BitVec 16)) else BitVec.toInt (rW (kInst [(1, 6)]) 1)) ∧
    (0 : ℤ) < (6 : ℤ) ∧
    instOf (kRegs [(1, 0)]) 0 = some (kInst [(1, 0)]) ∧
    guardOk (kInst [(1, 0)]) Guard.always = true ∧
    ((0 : ℤ) = if 1 = 0 then ↑(BitVec.toNat (5 : BitVec 16)) else BitVec.toInt (rW (kInst [(1, 0)]) 1)) ∧
    (0 : ℤ) ≤ (0 : ℤ) := by
  and_intros <;> decide +kernel

theorem witness_ControlFlowResults_2 :
    instOf (kRegs [(1, -1)]) 0 = some (kInst [(1, -1)]) ∧
    guardOk (kInst [(1, -1)]) Guard.always = true ∧
    ((-1 : ℤ) = if 1 = 0 then ↑(BitVec.toNat (65535 : BitVec 16)) else BitVec.toInt (rW (kInst [(1, -1)]) 1)) ∧
    (-1 : ℤ) ≤ (0 : ℤ) ∧
    instOf (kRegs []) 0 = some (kInst []) ∧
    guardOk (kInst []) Guard.always = true ∧
    ((0 : ℤ) = if 0 = 0 then ↑(BitVec.toNat (0 : BitVec 16)) else BitVec.toInt (rW (kInst []) 0)) ∧
    (0 : ℤ) ≤ (0 : ℤ) ∧
    (kLoop 1).loops = [{ reg := 5, i := 1, n := 3, first := 2, last := 3, depth := 0 : LoopFrame }] ∧
    { reg := 5, i := 1, n := 3, first := 2, last := 3, depth := 0 : LoopFrame }.depth = (kLoop 1).rets.length ∧
    (kLoop 1).pc = { reg := 5, i := 1, n := 3, first := 2, last := 3, depth := 0 : LoopFrame }.last ∧
    { reg := 5, i := 1, n := 3, first := 2, last := 3, depth := 0 : LoopFrame }.i + 1 < { reg := 5, i := 1, n := 3, first := 2, last := 3, depth := 0 : LoopFrame }.n ∧
    (kLoop 2).loops = [{ reg := 5, i := 2, n := 3, first := 2, last := 3, depth := 0 : LoopFrame }] ∧
    { reg := 5, i := 2, n := 3, first := 2, last := 3, depth := 0 : LoopFrame }.depth = (kLoop 2).rets.length ∧
    (kLoop 2).pc = { reg := 5, i := 2, n := 3, first := 2, last := 3, depth := 0 : LoopFrame }.last ∧
    { reg := 5, i := 2, n := 3, first := 2, last := 3, depth := 0 : LoopFrame }.n ≤ { reg := 5, i := 2, n := 3, first := 2, last := 3, depth := 0 : LoopFrame }.i + 1 := by
  and_intros <;> decide +kernel

theorem witness_TimerResults_1 :
    (5000000 = { start := 0, preset := 5, ctrl := 1 : TimerRec }.preset * if { start := 0, preset := 5, ctrl := 1 : TimerRec }.ctrl % 4 = 0 then 10 ^ 3 else if { start := 0, preset := 5, ctrl := 1 : TimerRec }.ctrl % 4 = 1 then 10 ^ 6 else if { start := 0, preset := 5, ctrl := 1 : TimerRec }.ctrl % 4 = 2 then 10 ^ 9 else 60 * 10 ^ 9) ∧
    false = ctrlBit { start := 0, preset := 5, ctrl := 1 : TimerRec }.ctrl 2 ∧
    false = ctrlBit { start := 0, preset := 5, ctrl := 1 : TimerRec }.ctrl 3 ∧
    false = ctrlBit { start := 0, preset := 5, ctrl := 1 : TimerRec }.ctrl 4 ∧
    (7 = if false = true then { start := 0, preset := 5, ctrl := 1 : TimerRec }.start else 7) ∧
    false = decide (7 ≥ 7 + 5000000) ∧
    (5000000 = { start := 1000000, preset := 5, ctrl := 5 : TimerRec }.preset * if { start := 1000000, preset := 5, ctrl := 5 : TimerRec }.ctrl % 4 = 0 then 10 ^ 3 else if { start := 1000000, preset := 5, ctrl := 5 : TimerRec }.ctrl % 4 = 1 then 10 ^ 6 else if { start := 1000000, preset := 5, ctrl := 5 : TimerRec }.ctrl % 4 = 2 then 10 ^ 9 else 60 * 10 ^ 9) ∧
    true = ctrlBit { start := 1000000, preset := 5, ctrl := 5 : TimerRec }.ctrl 2 ∧
    false = ctrlBit { start := 1000000, preset := 5, ctrl := 5 : TimerRec }.ctrl 3 ∧
    false = ctrlBit { start := 1000000, preset := 5, ctrl := 5 : TimerRec }.ctrl 4 ∧
    (1000000 = if true = true then { start := 1000000, preset := 5, ctrl := 5 : TimerRec }.start else 6000000) ∧
    true = decide (6000000 ≥ 1000000 + 5000000) ∧
    (1000000 = if true = true then { start := 1000000, preset := 5, ctrl := 5 : TimerRec }.start else 5999999) ∧
    false = decide (5999999 ≥ 1000000 + 5000000) ∧
    (5000 = { start := 0, preset := 5, ctrl := 8 : TimerRec }.preset * if { start := 0, preset := 5, ctrl := 8 : TimerRec }.ctrl % 4 = 0 then 10 ^ 3 else if { start := 0, preset := 5, ctrl := 8 : TimerRec }.ctrl % 4 = 1 then 10 ^ 6 else if { start := 0, preset := 5, ctrl := 8 : TimerRec }.ctrl % 4 = 2 then 10 ^ 9 else 60 * 10 ^ 9) ∧
    false = ctrlBit { start := 0, preset := 5, ctrl := 8 : TimerRec }.ctrl 2 ∧
    true = ctrlBit { start := 0, preset := 5, ctrl := 8 : TimerRec }.ctrl 3 ∧
    false = ctrlBit { start := 0, preset := 5, ctrl := 8 : TimerRec }.ctrl 4 ∧
    (7 = if false = true then { start := 0, preset := 5, ctrl := 8 : TimerRec }.start else 7) ∧
    false = decide (7 ≥ 7 + 5000) := by
  and_intros <;> decide +kernel

theorem witness_TimerResults_2 :
    (5000 = { start := 0, preset := 5, ctrl := 0 : TimerRec }.preset * if { start := 0, preset := 5, ctrl := 0 : TimerRec }.ctrl % 4 = 0 then 10 ^ 3 else if { start := 0, preset := 5, ctrl := 0 : TimerRec }.ctrl % 4 = 1 then 10 ^ 6 else if { start := 0, preset := 5, ctrl := 0 : TimerRec }.ctrl % 4 = 2 then 10 ^ 9 else 60 * 10 ^ 9) ∧
    false = ctrlBit { start := 0, preset := 5, ctrl := 0 : TimerRec }.ctrl 2 ∧
    false = ctrlBit { start := 0, preset := 5, ctrl := 0 : TimerRec }.ctrl 3 ∧
    false = ctrlBit { start := 0, preset := 5, ctrl := 0 : TimerRec }.ctrl 4 ∧
    (7 = if false = true then { start := 0, preset := 5, ctrl := 0 : TimerRec }.start else 7) ∧
    false = decide (7 ≥ 7 + 5000) ∧
    (5000 = { start := 1000, preset := 5, ctrl := 12 : TimerRec }.preset * if { start := 1000, preset := 5, ctrl := 12 : TimerRec }.ctrl % 4 = 0 then 10 ^ 3 else if { start := 1000, preset := 5, ctrl := 12 : TimerRec }.ctrl % 4 = 1 then 10 ^ 6 else if { start := 1000, preset := 5, ctrl := 12 : TimerRec }.ctrl % 4 = 2 then 10 ^ 9 else 60 * 10 ^ 9) ∧
    true = ctrlBit { start := 1000, preset := 5, ctrl := 12 : TimerRec }.ctrl 2 ∧
    true = ctrlBit { start := 1000, preset := 5, ctrl := 12 : TimerRec }.ctrl 3 ∧
    false = ctrlBit { start := 1000, preset := 5, ctrl := 12 : TimerRec }.ctrl 4 ∧
    (1000 = if true = true then { start := 1000, preset := 5, ctrl := 12 : TimerRec }.start else 6000) ∧
    true = decide (6000 ≥ 1000 + 5000) ∧
    (1000 = if true = true then { start := 1000, preset := 5, ctrl := 12 : TimerRec }.start else 5999) ∧
    false = decide (5999 ≥ 1000 + 5000) ∧
    false = (false && decide (7 ≥ { start := 0, preset := 5, ctrl := 0 : TimerRec }.start + 5000)) ∧
    (!false || false) = true ∧
    true = (true && decide (6000 ≥ { start := 1000, preset := 5, ctrl := 12 : TimerRec }.start + 5000)) ∧
    (!true || true) = true ∧
    false = (true && decide (5999 ≥ { start := 1000, preset := 5, ctrl := 12 : TimerRec }.start + 5000)) ∧
    (¬((!true || false) = true ∧ true = true ∧ false = false)) := by
  and_intros <;> decide +kernel

theorem witness_TimerResults_3 :
    (300000000000 = { start := 1000, preset := 5, ctrl := 19 : TimerRec }.preset * if { start := 1000, preset := 5, ctrl := 19 : TimerRec }.ctrl % 4 = 0 then 10 ^ 3 else if { start := 1000, preset := 5, ctrl := 19 : TimerRec }.ctrl % 4 = 1 then 10 ^ 6 else if { start := 1000, preset := 5, ctrl := 19 : TimerRec }.ctrl % 4 = 2 then 10 ^ 9 else 60 * 10 ^ 9) ∧
    false = ctrlBit { start := 1000, preset := 5, ctrl := 19 : TimerRec }.ctrl 2 ∧
    false = ctrlBit { start := 1000, preset := 5, ctrl := 19 : TimerRec }.ctrl 3 ∧
    true = ctrlBit { start := 1000, preset := 5, ctrl := 19 : TimerRec }.ctrl 4 ∧
    (9 = if false = true then { start := 1000, preset := 5, ctrl := 19 : TimerRec }.start else 9) ∧
    false = decide (9 ≥ 9 + 300000000000) ∧
    false = (false && decide (9 ≥ { start := 1000, preset := 5, ctrl := 19 : TimerRec }.start + 300000000000)) ∧
    (¬((!false || false) = true ∧ true = true ∧ true = false)) ∧
    instOf (kMem [(4080, leBytes 8 1000 ++ leBytes 4 5 ++ leBytes 4 5)] (kInst [(1, 4080)])) 0 = some (kInst [(1, 4080)]) ∧
    guardOk (kInst [(1, 4080)]) Guard.always = true ∧
    4080 = BitVec.toNat (rW (kInst [(1, 4080)]) 1 + BitVec.signExtend 64 (0 : BitVec 32)) ∧
    4080 % 16 = 0 ∧
    inSegment (kMem [(4080, leBytes 8 1000 ++ leBytes 4 5 ++ leBytes 4 5)] (kInst [(1, 4080)])) (kInst [(1, 4080)]).task Space.data 4080 16 = true ∧
    instOf (kMem [(4080, leBytes 8 1000 ++ leBytes 4 5 ++ leBytes 4 5)] (kInst [(1, 4088)])) 0 = some (kInst [(1, 4088)]) ∧
    guardOk (kInst [(1, 4088)]) Guard.always = true ∧
    4088 = BitVec.toNat (rW (kInst [(1, 4088)]) 1 + BitVec.signExtend 64 (0 : BitVec 32)) ∧
    (¬(4088 % 16 = 0 ∧ inSegment (kMem [(4080, leBytes 8 1000 ++ leBytes 4 5 ++ leBytes 4 5)] (kInst [(1, 4088)])) (kInst [(1, 4088)]).task Space.data 4088 16 = true)) ∧
    instOf (kMem [(4080, leBytes 8 1000 ++ leBytes 4 5 ++ leBytes 4 5)] (kInst [(1, 4096)])) 0 = some (kInst [(1, 4096)]) ∧
    guardOk (kInst [(1, 4096)]) Guard.always = true ∧
    4096 = BitVec.toNat (rW (kInst [(1, 4096)]) 1 + BitVec.signExtend 64 (0 : BitVec 32)) ∧
    (¬(4096 % 16 = 0 ∧ inSegment (kMem [(4080, leBytes 8 1000 ++ leBytes 4 5 ++ leBytes 4 5)] (kInst [(1, 4096)])) (kInst [(1, 4096)]).task Space.data 4096 16 = true)) := by
  and_intros <;> decide +kernel

theorem witness_CounterAndEdgeResults_1 :
    instOf (kMem [(16, leBytes 4 2147483647 ++ leBytes 4 5 ++ leBytes 4 0)] (kInst [(1, 16)])) 0 = some (kInst [(1, 16)]) ∧
    guardOk (kInst [(1, 16)]) Guard.always = true ∧
    16 = BitVec.toNat (rW (kInst [(1, 16)]) 1 + BitVec.signExtend 64 (0 : BitVec 32)) ∧
    true = rP (kInst [(1, 16)]) 1 ∧
    16 % 16 = 0 ∧
    inSegment (kMem [(16, leBytes 4 2147483647 ++ leBytes 4 5 ++ leBytes 4 0)] (kInst [(1, 16)])) (kInst [(1, 16)]).task Space.data 16 16 = true ∧
    (2147483647 : ℤ) = signedOf 32 (leAt (instBytes (kMem [(16, leBytes 4 2147483647 ++ leBytes 4 5 ++ leBytes 4 0)] (kInst [(1, 16)])) (kInst [(1, 16)]) Space.data 16 16) 0 4) ∧
    (5 : ℤ) = signedOf 32 (leAt (instBytes (kMem [(16, leBytes 4 2147483647 ++ leBytes 4 5 ++ leBytes 4 0)] (kInst [(1, 16)])) (kInst [(1, 16)]) Space.data 16 16) 4 4) ∧
    0 = leAt (instBytes (kMem [(16, leBytes 4 2147483647 ++ leBytes 4 5 ++ leBytes 4 0)] (kInst [(1, 16)])) (kInst [(1, 16)]) Space.data 16 16) 8 4 ∧
    true = (true && !ctrlBit 0 4) ∧
    true = decide ((2147483647 : ℤ) ≥ (5 : ℤ)) ∧
    ((2147483647 : ℤ) = if true = true then if (2147483647 : ℤ) = (2 : ℤ) ^ 31 - (1 : ℤ) then (2 : ℤ) ^ 31 - (1 : ℤ) else (2147483647 : ℤ) + (1 : ℤ) else (2147483647 : ℤ)) ∧
    true = (true && decide ((2147483647 : ℤ) = (2 : ℤ) ^ 31 - (1 : ℤ))) ∧
    instOf (kMem [(16, leBytes 4 4 ++ leBytes 4 5 ++ leBytes 4 0)] (kInst [(1, 16)])) 0 = some (kInst [(1, 16)]) ∧
    inSegment (kMem [(16, leBytes 4 4 ++ leBytes 4 5 ++ leBytes 4 0)] (kInst [(1, 16)])) (kInst [(1, 16)]).task Space.data 16 16 = true ∧
    (4 : ℤ) = signedOf 32 (leAt (instBytes (kMem [(16, leBytes 4 4 ++ leBytes 4 5 ++ leBytes 4 0)] (kInst [(1, 16)])) (kInst [(1, 16)]) Space.data 16 16) 0 4) ∧
    (5 : ℤ) = signedOf 32 (leAt (instBytes (kMem [(16, leBytes 4 4 ++ leBytes 4 5 ++ leBytes 4 0)] (kInst [(1, 16)])) (kInst [(1, 16)]) Space.data 16 16) 4 4) ∧
    0 = leAt (instBytes (kMem [(16, leBytes 4 4 ++ leBytes 4 5 ++ leBytes 4 0)] (kInst [(1, 16)])) (kInst [(1, 16)]) Space.data 16 16) 8 4 ∧
    true = decide ((5 : ℤ) ≥ (5 : ℤ)) ∧
    ((5 : ℤ) = if true = true then if (4 : ℤ) = (2 : ℤ) ^ 31 - (1 : ℤ) then (2 : ℤ) ^ 31 - (1 : ℤ) else (4 : ℤ) + (1 : ℤ) else (4 : ℤ)) ∧
    false = (true && decide ((4 : ℤ) = (2 : ℤ) ^ 31 - (1 : ℤ))) := by
  and_intros <;> decide +kernel

theorem witness_CounterAndEdgeResults_2 :
    instOf (kMem [(16, leBytes 4 4 ++ leBytes 4 5 ++ leBytes 4 16)] (kInst [(1, 16)])) 0 = some (kInst [(1, 16)]) ∧
    guardOk (kInst [(1, 16)]) Guard.always = true ∧
    16 = BitVec.toNat (rW (kInst [(1, 16)]) 1 + BitVec.signExtend 64 (0 : BitVec 32)) ∧
    true = rP (kInst [(1, 16)]) 1 ∧
    16 % 16 = 0 ∧
    inSegment (kMem [(16, leBytes 4 4 ++ leBytes 4 5 ++ leBytes 4 16)] (kInst [(1, 16)])) (kInst [(1, 16)]).task Space.data 16 16 = true ∧
    (4 : ℤ) = signedOf 32 (leAt (instBytes (kMem [(16, leBytes 4 4 ++ leBytes 4 5 ++ leBytes 4 16)] (kInst [(1, 16)])) (kInst [(1, 16)]) Space.data 16 16) 0 4) ∧
    (5 : ℤ) = signedOf 32 (leAt (instBytes (kMem [(16, leBytes 4 4 ++ leBytes 4 5 ++ leBytes 4 16)] (kInst [(1, 16)])) (kInst [(1, 16)]) Space.data 16 16) 4 4) ∧
    16 = leAt (instBytes (kMem [(16, leBytes 4 4 ++ leBytes 4 5 ++ leBytes 4 16)] (kInst [(1, 16)])) (kInst [(1, 16)]) Space.data 16 16) 8 4 ∧
    false = (true && !ctrlBit 16 4) ∧
    false = decide ((4 : ℤ) ≥ (5 : ℤ)) ∧
    ((4 : ℤ) = if false = true then if (4 : ℤ) = (2 : ℤ) ^ 31 - (1 : ℤ) then (2 : ℤ) ^ 31 - (1 : ℤ) else (4 : ℤ) + (1 : ℤ) else (4 : ℤ)) ∧
    false = (false && decide ((4 : ℤ) = (2 : ℤ) ^ 31 - (1 : ℤ))) ∧
    instOf (kMem [(16, leBytes 4 2147483648 ++ leBytes 4 5 ++ leBytes 4 0)] (kInst [(1, 16)])) 0 = some (kInst [(1, 16)]) ∧
    inSegment (kMem [(16, leBytes 4 2147483648 ++ leBytes 4 5 ++ leBytes 4 0)] (kInst [(1, 16)])) (kInst [(1, 16)]).task Space.data 16 16 = true ∧
    (-2147483648 : ℤ) = signedOf 32 (leAt (instBytes (kMem [(16, leBytes 4 2147483648 ++ leBytes 4 5 ++ leBytes 4 0)] (kInst [(1, 16)])) (kInst [(1, 16)]) Space.data 16 16) 0 4) ∧
    (5 : ℤ) = signedOf 32 (leAt (instBytes (kMem [(16, leBytes 4 2147483648 ++ leBytes 4 5 ++ leBytes 4 0)] (kInst [(1, 16)])) (kInst [(1, 16)]) Space.data 16 16) 4 4) ∧
    0 = leAt (instBytes (kMem [(16, leBytes 4 2147483648 ++ leBytes 4 5 ++ leBytes 4 0)] (kInst [(1, 16)])) (kInst [(1, 16)]) Space.data 16 16) 8 4 ∧
    true = (true && !ctrlBit 0 4) ∧
    true = decide ((-2147483648 : ℤ) ≤ (0 : ℤ)) ∧
    ((-2147483648 : ℤ) = if true = true then if (-2147483648 : ℤ) = -(2 : ℤ) ^ 31 then -(2 : ℤ) ^ 31 else (-2147483648 : ℤ) + (-1 : ℤ) else (-2147483648 : ℤ)) ∧
    true = (true && decide ((-2147483648 : ℤ) = -(2 : ℤ) ^ 31)) := by
  and_intros <;> decide +kernel

theorem witness_CounterAndEdgeResults_3 :
    instOf (kMem [(16, leBytes 4 2 ++ leBytes 4 5 ++ leBytes 4 0)] (kInst [(1, 16)])) 0 = some (kInst [(1, 16)]) ∧
    guardOk (kInst [(1, 16)]) Guard.always = true ∧
    16 = BitVec.toNat (rW (kInst [(1, 16)]) 1 + BitVec.signExtend 64 (0 : BitVec 32)) ∧
    true = rP (kInst [(1, 16)]) 1 ∧
    16 % 16 = 0 ∧
    inSegment (kMem [(16, leBytes 4 2 ++ leBytes 4 5 ++ leBytes 4 0)] (kInst [(1, 16)])) (kInst [(1, 16)]).task Space.data 16 16 = true ∧
    (2 : ℤ) = signedOf 32 (leAt (instBytes (kMem [(16, leBytes 4 2 ++ leBytes 4 5 ++ leBytes 4 0)] (kInst [(1, 16)])) (kInst [(1, 16)]) Space.data 16 16) 0 4) ∧
    (5 : ℤ) = signedOf 32 (leAt (instBytes (kMem [(16, leBytes 4 2 ++ leBytes 4 5 ++ leBytes 4 0)] (kInst [(1, 16)])) (kInst [(1, 16)]) Space.data 16 16) 4 4) ∧
    0 = leAt (instBytes (kMem [(16, leBytes 4 2 ++ leBytes 4 5 ++ leBytes 4 0)] (kInst [(1, 16)])) (kInst [(1, 16)]) Space.data 16 16) 8 4 ∧
    true = (true && !ctrlBit 0 4) ∧
    false = decide ((1 : ℤ) ≤ (0 : ℤ)) ∧
    ((1 : ℤ) = if true = true then if (2 : ℤ) = -(2 : ℤ) ^ 31 then -(2 : ℤ) ^ 31 else (2 : ℤ) + (-1 : ℤ) else (2 : ℤ)) ∧
    false = (true && decide ((2 : ℤ) = -(2 : ℤ) ^ 31)) ∧
    instOf (kMem [(16, leBytes 4 1 ++ leBytes 4 5 ++ leBytes 4 0)] (kInst [(1, 16)])) 0 = some (kInst [(1, 16)]) ∧
    false = rP (kInst [(1, 16)]) 0 ∧
    inSegment (kMem [(16, leBytes 4 1 ++ leBytes 4 5 ++ leBytes 4 0)] (kInst [(1, 16)])) (kInst [(1, 16)]).task Space.data 16 16 = true ∧
    (1 : ℤ) = signedOf 32 (leAt (instBytes (kMem [(16, leBytes 4 1 ++ leBytes 4 5 ++ leBytes 4 0)] (kInst [(1, 16)])) (kInst [(1, 16)]) Space.data 16 16) 0 4) ∧
    (5 : ℤ) = signedOf 32 (leAt (instBytes (kMem [(16, leBytes 4 1 ++ leBytes 4 5 ++ leBytes 4 0)] (kInst [(1, 16)])) (kInst [(1, 16)]) Space.data 16 16) 4 4) ∧
    0 = leAt (instBytes (kMem [(16, leBytes 4 1 ++ leBytes 4 5 ++ leBytes 4 0)] (kInst [(1, 16)])) (kInst [(1, 16)]) Space.data 16 16) 8 4 ∧
    false = (false && !ctrlBit 0 4) ∧
    ((1 : ℤ) = if false = true then if (1 : ℤ) = -(2 : ℤ) ^ 31 then -(2 : ℤ) ^ 31 else (1 : ℤ) + (-1 : ℤ) else (1 : ℤ)) ∧
    false = (false && decide ((1 : ℤ) = -(2 : ℤ) ^ 31)) := by
  and_intros <;> decide +kernel

theorem witness_CounterAndEdgeResults_4 :
    instOf (kMem [(8, leBytes 8 0)] (kInst [(1, 8)])) 0 = some (kInst [(1, 8)]) ∧
    guardOk (kInst [(1, 8)]) Guard.always = true ∧
    8 = BitVec.toNat (rW (kInst [(1, 8)]) 1 + BitVec.signExtend 64 (0 : BitVec 32)) ∧
    true = rP (kInst [(1, 8)]) 1 ∧
    8 % 8 = 0 ∧
    inSegment (kMem [(8, leBytes 8 0)] (kInst [(1, 8)])) (kInst [(1, 8)]).task Space.data 8 8 = true ∧
    0 = leAt (instBytes (kMem [(8, leBytes 8 0)] (kInst [(1, 8)])) (kInst [(1, 8)]) Space.data 8 8) 0 8 ∧
    false = ctrlBit 0 4 ∧
    true = (true && !false) ∧
    instOf (kMem [(8, leBytes 8 16)] (kInst [(1, 8)])) 0 = some (kInst [(1, 8)]) ∧
    inSegment (kMem [(8, leBytes 8 16)] (kInst [(1, 8)])) (kInst [(1, 8)]).task Space.data 8 8 = true ∧
    16 = leAt (instBytes (kMem [(8, leBytes 8 16)] (kInst [(1, 8)])) (kInst [(1, 8)]) Space.data 8 8) 0 8 ∧
    true = ctrlBit 16 4 ∧
    false = (true && !true) ∧
    false = rP (kInst [(1, 8)]) 0 ∧
    true = (!false && true) ∧
    false = (false ^^ false) ∧
    true = (true ^^ false) ∧
    instOf (kRegs [(1, 8)]) 0 = some (kInst [(1, 8)]) ∧
    (¬(8 % 16 = 0 ∧ inSegment (kRegs [(1, 8)]) (kInst [(1, 8)]).task Space.data 8 16 = true)) := by
  and_intros <;> decide +kernel

theorem witness_CounterAndEdgeResults_5 :
    instOf (kRegs [(1, 4)]) 0 = some (kInst [(1, 4)]) ∧
    guardOk (kInst [(1, 4)]) Guard.always = true ∧
    4 = BitVec.toNat (rW (kInst [(1, 4)]) 1 + BitVec.signExtend 64 (0 : BitVec 32)) ∧
    true = rP (kInst [(1, 4)]) 1 ∧
    (¬(4 % 8 = 0 ∧ inSegment (kRegs [(1, 4)]) (kInst [(1, 4)]).task Space.data 4 8 = true)) := by
  and_intros <;> decide +kernel

theorem witness_RateResult_1 :
    instOf (kMem [(16, leBytes 8 5000000 ++ leBytes 8 3)] (kInst [(1, 16), (2, 9)])) 0 = some (kInst [(1, 16), (2, 9)]) ∧
    guardOk (kInst [(1, 16), (2, 9)]) Guard.always = true ∧
    16 = BitVec.toNat (rW (kInst [(1, 16), (2, 9)]) 1 + BitVec.signExtend 64 (0 : BitVec 32)) ∧
    16 % 16 = 0 ∧
    inSegment (kMem [(16, leBytes 8 5000000 ++ leBytes 8 3)] (kInst [(1, 16), (2, 9)])) (kInst [(1, 16), (2, 9)]).task Space.data 16 16 = true ∧
    5000000 = leAt (instBytes (kMem [(16, leBytes 8 5000000 ++ leBytes 8 3)] (kInst [(1, 16), (2, 9)])) (kInst [(1, 16), (2, 9)]) Space.data 16 16) 0 8 ∧
    (3 : ℤ) = signedOf 64 (leAt (instBytes (kMem [(16, leBytes 8 5000000 ++ leBytes 8 3)] (kInst [(1, 16), (2, 9)])) (kInst [(1, 16), (2, 9)]) Space.data 16 16) 8 8) ∧
    (0 : ℤ) = ((BitVec.toInt (rW (kInst [(1, 16), (2, 9)]) 2) - (3 : ℤ)) * ((10 : ℤ) ^ 9 * (2 : ℤ) ^ 16)).tdiv (↑(kInst [(1, 16), (2, 9)]).stamp - ↑5000000) ∧
    (kInst [(1, 16), (2, 9)]).stamp = 5000000 ∧
    instOf (kMem [(16, leBytes 8 0 ++ leBytes 8 3)] (kInst [(1, 16), (2, 9)])) 0 = some (kInst [(1, 16), (2, 9)]) ∧
    inSegment (kMem [(16, leBytes 8 0 ++ leBytes 8 3)] (kInst [(1, 16), (2, 9)])) (kInst [(1, 16), (2, 9)]).task Space.data 16 16 = true ∧
    0 = leAt (instBytes (kMem [(16, leBytes 8 0 ++ leBytes 8 3)] (kInst [(1, 16), (2, 9)])) (kInst [(1, 16), (2, 9)]) Space.data 16 16) 0 8 ∧
    (3 : ℤ) = signedOf 64 (leAt (instBytes (kMem [(16, leBytes 8 0 ++ leBytes 8 3)] (kInst [(1, 16), (2, 9)])) (kInst [(1, 16), (2, 9)]) Space.data 16 16) 8 8) ∧
    (78643200 : ℤ) = ((BitVec.toInt (rW (kInst [(1, 16), (2, 9)]) 2) - (3 : ℤ)) * ((10 : ℤ) ^ 9 * (2 : ℤ) ^ 16)).tdiv (↑(kInst [(1, 16), (2, 9)]).stamp - ↑0) ∧
    (kInst [(1, 16), (2, 9)]).stamp ≠ 0 ∧
    instOf (kMem [(16, leBytes 8 4000000 ++ leBytes 8 3)] (kInst [(1, 16), (2, 9)])) 0 = some (kInst [(1, 16), (2, 9)]) ∧
    inSegment (kMem [(16, leBytes 8 4000000 ++ leBytes 8 3)] (kInst [(1, 16), (2, 9)])) (kInst [(1, 16), (2, 9)]).task Space.data 16 16 = true ∧
    4000000 = leAt (instBytes (kMem [(16, leBytes 8 4000000 ++ leBytes 8 3)] (kInst [(1, 16), (2, 9)])) (kInst [(1, 16), (2, 9)]) Space.data 16 16) 0 8 ∧
    (3 : ℤ) = signedOf 64 (leAt (instBytes (kMem [(16, leBytes 8 4000000 ++ leBytes 8 3)] (kInst [(1, 16), (2, 9)])) (kInst [(1, 16), (2, 9)]) Space.data 16 16) 8 8) ∧
    (393216000 : ℤ) = ((BitVec.toInt (rW (kInst [(1, 16), (2, 9)]) 2) - (3 : ℤ)) * ((10 : ℤ) ^ 9 * (2 : ℤ) ^ 16)).tdiv (↑(kInst [(1, 16), (2, 9)]).stamp - ↑4000000) ∧
    (kInst [(1, 16), (2, 9)]).stamp ≠ 4000000 ∧
    4000000 ≠ 0 ∧
    -(2 : ℤ) ^ 63 ≤ (393216000 : ℤ) ∧
    (393216000 : ℤ) ≤ (2 : ℤ) ^ 63 - (1 : ℤ) := by
  and_intros <;> decide +kernel

theorem witness_RateResult_2 :
    instOf (kMem [(16, leBytes 8 4999999 ++ leBytes 8 0)] (kInst [(1, 16), (2, 9223372036854775807)])) 0 = some (kInst [(1, 16), (2, 9223372036854775807)]) ∧
    guardOk (kInst [(1, 16), (2, 9223372036854775807)]) Guard.always = true ∧
    16 = BitVec.toNat (rW (kInst [(1, 16), (2, 9223372036854775807)]) 1 + BitVec.signExtend 64 (0 : BitVec 32)) ∧
    16 % 16 = 0 ∧
    inSegment (kMem [(16, leBytes 8 4999999 ++ leBytes 8 0)] (kInst [(1, 16), (2, 9223372036854775807)])) (kInst [(1, 16), (2, 9223372036854775807)]).task Space.data 16 16 = true ∧
    4999999 = leAt (instBytes (kMem [(16, leBytes 8 4999999 ++ leBytes 8 0)] (kInst [(1, 16), (2, 9223372036854775807)])) (kInst [(1, 16), (2, 9223372036854775807)]) Space.data 16 16) 0 8 ∧
    (0 : ℤ) = signedOf 64 (leAt (instBytes (kMem [(16, leBytes 8 4999999 ++ leBytes 8 0)] (kInst [(1, 16), (2, 9223372036854775807)])) (kInst [(1, 16), (2, 9223372036854775807)]) Space.data 16 16) 8 8) ∧
    (604462909807314587287552000000000 : ℤ) = ((BitVec.toInt (rW (kInst [(1, 16), (2, 9223372036854775807)]) 2) - (0 : ℤ)) * ((10 : ℤ) ^ 9 * (2 : ℤ) ^ 16)).tdiv (↑(kInst [(1, 16), (2, 9223372036854775807)]).stamp - ↑4999999) ∧
    (kInst [(1, 16), (2, 9223372036854775807)]).stamp ≠ 4999999 ∧
    4999999 ≠ 0 ∧
    (2 : ℤ) ^ 63 - (1 : ℤ) < (604462909807314587287552000000000 : ℤ) ∧
    instOf (kMem [(16, leBytes 8 4999999 ++ leBytes 8 0)] (kInst [(1, 16), (2, 9223372036854775808)])) 0 = some (kInst [(1, 16), (2, 9223372036854775808)]) ∧
    guardOk (kInst [(1, 16), (2, 9223372036854775808)]) Guard.always = true ∧
    16 = BitVec.toNat (rW (kInst [(1, 16), (2, 9223372036854775808)]) 1 + BitVec.signExtend 64 (0 : BitVec 32)) ∧
    inSegment (kMem [(16, leBytes 8 4999999 ++ leBytes 8 0)] (kInst [(1, 16), (2, 9223372036854775808)])) (kInst [(1, 16), (2, 9223372036854775808)]).task Space.data 16 16 = true ∧
    4999999 = leAt (instBytes (kMem [(16, leBytes 8 4999999 ++ leBytes 8 0)] (kInst [(1, 16), (2, 9223372036854775808)])) (kInst [(1, 16), (2, 9223372036854775808)]) Space.data 16 16) 0 8 ∧
    (0 : ℤ) = signedOf 64 (leAt (instBytes (kMem [(16, leBytes 8 4999999 ++ leBytes 8 0)] (kInst [(1, 16), (2, 9223372036854775808)])) (kInst [(1, 16), (2, 9223372036854775808)]) Space.data 16 16) 8 8) ∧
    (-604462909807314587353088000000000 : ℤ) = ((BitVec.toInt (rW (kInst [(1, 16), (2, 9223372036854775808)]) 2) - (0 : ℤ)) * ((10 : ℤ) ^ 9 * (2 : ℤ) ^ 16)).tdiv (↑(kInst [(1, 16), (2, 9223372036854775808)]).stamp - ↑4999999) ∧
    (kInst [(1, 16), (2, 9223372036854775808)]).stamp ≠ 4999999 ∧
    (-604462909807314587353088000000000 : ℤ) < -(2 : ℤ) ^ 63 ∧
    instOf (kMem [(16, leBytes 8 0 ++ leBytes 8 0)] (kInst [(1, 8), (2, 0)])) 0 = some (kInst [(1, 8), (2, 0)]) ∧
    guardOk (kInst [(1, 8), (2, 0)]) Guard.always = true ∧
    8 = BitVec.toNat (rW (kInst [(1, 8), (2, 0)]) 1 + BitVec.signExtend 64 (0 : BitVec 32)) ∧
    (¬(8 % 16 = 0 ∧ inSegment (kMem [(16, leBytes 8 0 ++ leBytes 8 0)] (kInst [(1, 8), (2, 0)])) (kInst [(1, 8), (2, 0)]).task Space.data 8 16 = true)) := by
  and_intros <;> decide +kernel

theorem witness_EngineReadsAndMailboxCopy_1 :
    instOf (kSnap (kInst [(1, 2047)])) 0 = some (kInst [(1, 2047)]) ∧
    guardOk (kInst [(1, 2047)]) Guard.always = true ∧
    2047 = BitVec.toNat (rW (kInst [(1, 2047)]) 1) ∧
    2047 < 2048 ∧
    instOf (kSnap (kInst [(1, 2048)])) 0 = some (kInst [(1, 2048)]) ∧
    guardOk (kInst [(1, 2048)]) Guard.always = true ∧
    2048 = BitVec.toNat (rW (kInst [(1, 2048)]) 1) ∧
    2048 ≤ 2048 ∧
    instOf (kSnap (kInst [(1, 1023)])) 0 = some (kInst [(1, 1023)]) ∧
    guardOk (kInst [(1, 1023)]) Guard.always = true ∧
    1023 = BitVec.toNat (rW (kInst [(1, 1023)]) 1) ∧
    1023 < 1024 ∧
    instOf (kSnap (kInst [(1, 1024)])) 0 = some (kInst [(1, 1024)]) ∧
    guardOk (kInst [(1, 1024)]) Guard.always = true ∧
    1024 = BitVec.toNat (rW (kInst [(1, 1024)]) 1) ∧
    1024 ≤ 1024 ∧
    instOf (kSnap (kInst [(1, 15)])) 0 = some (kInst [(1, 15)]) ∧
    guardOk (kInst [(1, 15)]) Guard.always = true ∧
    15 = BitVec.toNat (rW (kInst [(1, 15)]) 1) ∧
    15 < 16 ∧
    instOf (kSnap (kInst [(1, 16)])) 0 = some (kInst [(1, 16)]) ∧
    guardOk (kInst [(1, 16)]) Guard.always = true ∧
    16 = BitVec.toNat (rW (kInst [(1, 16)]) 1) ∧
    16 ≤ 16 := by
  and_intros <;> decide +kernel

theorem witness_EngineReadsAndMailboxCopy_2 :
    instOf (kSnap (kInst [(1, 255)])) 0 = some (kInst [(1, 255)]) ∧
    guardOk (kInst [(1, 255)]) Guard.always = true ∧
    255 = BitVec.toNat (rW (kInst [(1, 255)]) 1) ∧
    255 < 256 ∧
    instOf (kSnap (kInst [(1, 256)])) 0 = some (kInst [(1, 256)]) ∧
    guardOk (kInst [(1, 256)]) Guard.always = true ∧
    256 = BitVec.toNat (rW (kInst [(1, 256)]) 1) ∧
    256 ≤ 256 ∧
    instOf (kSnap (kInst [(1, 15), (2, 0), (4, 8)])) 0 = some (kInst [(1, 15), (2, 0), (4, 8)]) ∧
    guardOk (kInst [(1, 15), (2, 0), (4, 8)]) Guard.always = true ∧
    8 = BitVec.toNat (rW (kInst [(1, 15), (2, 0), (4, 8)]) 4) ∧
    15 = BitVec.toNat (rW (kInst [(1, 15), (2, 0), (4, 8)]) 1) ∧
    0 = BitVec.toNat (rW (kInst [(1, 15), (2, 0), (4, 8)]) 2) ∧
    (true = decide (15 < 16 ∧ 8 % 8 = 0 ∧ inSegment (kSnap (kInst [(1, 15), (2, 0), (4, 8)])) (kInst [(1, 15), (2, 0), (4, 8)]).task Space.data 8 (8 * BitVec.toNat (3 : BitVec 9)) = true)) ∧
    instOf (kSnap (kInst [(1, 15), (2, 1), (4, 8)])) 0 = some (kInst [(1, 15), (2, 1), (4, 8)]) ∧
    guardOk (kInst [(1, 15), (2, 1), (4, 8)]) Guard.always = true ∧
    8 = BitVec.toNat (rW (kInst [(1, 15), (2, 1), (4, 8)]) 4) ∧
    15 = BitVec.toNat (rW (kInst [(1, 15), (2, 1), (4, 8)]) 1) ∧
    1 = BitVec.toNat (rW (kInst [(1, 15), (2, 1), (4, 8)]) 2) ∧
    (true = decide (15 < 16 ∧ 8 % 8 = 0 ∧ inSegment (kSnap (kInst [(1, 15), (2, 1), (4, 8)])) (kInst [(1, 15), (2, 1), (4, 8)]).task Space.data 8 (8 * BitVec.toNat (3 : BitVec 9)) = true)) := by
  and_intros <;> decide +kernel

theorem witness_EngineReadsAndMailboxCopy_3 :
    instOf (kSnap (kInst [(1, 14), (2, 0), (4, 0)])) 0 = some (kInst [(1, 14), (2, 0), (4, 0)]) ∧
    guardOk (kInst [(1, 14), (2, 0), (4, 0)]) Guard.always = true ∧
    0 = BitVec.toNat (rW (kInst [(1, 14), (2, 0), (4, 0)]) 4) ∧
    14 = BitVec.toNat (rW (kInst [(1, 14), (2, 0), (4, 0)]) 1) ∧
    0 = BitVec.toNat (rW (kInst [(1, 14), (2, 0), (4, 0)]) 2) ∧
    (true = decide (14 < 16 ∧ 0 % 8 = 0 ∧ inSegment (kSnap (kInst [(1, 14), (2, 0), (4, 0)])) (kInst [(1, 14), (2, 0), (4, 0)]).task Space.data 0 (8 * BitVec.toNat (256 : BitVec 9)) = true)) ∧
    instOf (kSnap (kInst [(1, 15), (2, 0), (4, 4092)])) 0 = some (kInst [(1, 15), (2, 0), (4, 4092)]) ∧
    guardOk (kInst [(1, 15), (2, 0), (4, 4092)]) Guard.always = true ∧
    4092 = BitVec.toNat (rW (kInst [(1, 15), (2, 0), (4, 4092)]) 4) ∧
    15 = BitVec.toNat (rW (kInst [(1, 15), (2, 0), (4, 4092)]) 1) ∧
    0 = BitVec.toNat (rW (kInst [(1, 15), (2, 0), (4, 4092)]) 2) ∧
    (false = decide (15 < 16 ∧ 4092 % 8 = 0 ∧ inSegment (kSnap (kInst [(1, 15), (2, 0), (4, 4092)])) (kInst [(1, 15), (2, 0), (4, 4092)]).task Space.data 4092 (8 * BitVec.toNat (1 : BitVec 9)) = true)) ∧
    instOf (kSnap (kInst [(1, 16), (2, 0), (4, 8)])) 0 = some (kInst [(1, 16), (2, 0), (4, 8)]) ∧
    guardOk (kInst [(1, 16), (2, 0), (4, 8)]) Guard.always = true ∧
    8 = BitVec.toNat (rW (kInst [(1, 16), (2, 0), (4, 8)]) 4) ∧
    16 = BitVec.toNat (rW (kInst [(1, 16), (2, 0), (4, 8)]) 1) ∧
    0 = BitVec.toNat (rW (kInst [(1, 16), (2, 0), (4, 8)]) 2) ∧
    (false = decide (16 < 16 ∧ 8 % 8 = 0 ∧ inSegment (kSnap (kInst [(1, 16), (2, 0), (4, 8)])) (kInst [(1, 16), (2, 0), (4, 8)]).task Space.data 8 (8 * BitVec.toNat (1 : BitVec 9)) = true)) ∧
    instOf (kSnap (kInst [(1, 15), (2, 0), (4, 4)])) 0 = some (kInst [(1, 15), (2, 0), (4, 4)]) ∧
    guardOk (kInst [(1, 15), (2, 0), (4, 4)]) Guard.always = true ∧
    4 = BitVec.toNat (rW (kInst [(1, 15), (2, 0), (4, 4)]) 4) ∧
    15 = BitVec.toNat (rW (kInst [(1, 15), (2, 0), (4, 4)]) 1) ∧
    0 = BitVec.toNat (rW (kInst [(1, 15), (2, 0), (4, 4)]) 2) ∧
    (false = decide (15 < 16 ∧ 4 % 8 = 0 ∧ inSegment (kSnap (kInst [(1, 15), (2, 0), (4, 4)])) (kInst [(1, 15), (2, 0), (4, 4)]).task Space.data 4 (8 * BitVec.toNat (1 : BitVec 9)) = true)) := by
  and_intros <;> decide +kernel

theorem witness_EngineRequestsAndEvents_1 :
    instOf (kRegs [(1, 9), (2, 5)]) 0 = some (kInst [(1, 9), (2, 5)]) ∧
    guardOk (kInst [(1, 9), (2, 5)]) Guard.always = true ∧
    taskOf (kRegs [(1, 9), (2, 5)]) (kInst [(1, 9), (2, 5)]).task = some kTask ∧
    9 = BitVec.toNat (rW (kInst [(1, 9), (2, 5)]) 1) ∧
    (5 : BitVec 32) = BitVec.setWidth 32 (rW (kInst [(1, 9), (2, 5)]) 2) ∧
    9 < 1024 ∧
    9 ∈ kTask.loops ∧
    instOf (kRegs [(1, 8), (2, 5)]) 0 = some (kInst [(1, 8), (2, 5)]) ∧
    guardOk (kInst [(1, 8), (2, 5)]) Guard.always = true ∧
    taskOf (kRegs [(1, 8), (2, 5)]) (kInst [(1, 8), (2, 5)]).task = some kTask ∧
    8 = BitVec.toNat (rW (kInst [(1, 8), (2, 5)]) 1) ∧
    (5 : BitVec 32) = BitVec.setWidth 32 (rW (kInst [(1, 8), (2, 5)]) 2) ∧
    (¬(8 < 1024 ∧ 8 ∈ kTask.loops)) ∧
    instOf (kRegs [(1, 15)]) 0 = some (kInst [(1, 15)]) ∧
    guardOk (kInst [(1, 15)]) Guard.always = true ∧
    taskOf (kRegs [(1, 15)]) (kInst [(1, 15)]).task = some kTask ∧
    15 = BitVec.toNat (rW (kInst [(1, 15)]) 1) ∧
    (0 : BitVec 32) = BitVec.setWidth 32 (rW (kInst [(1, 15)]) 2) ∧
    15 < 16 := by
  and_intros <;> decide +kernel

theorem witness_EngineRequestsAndEvents_2 :
    instOf (kRegs [(1, 16)]) 0 = some (kInst [(1, 16)]) ∧
    guardOk (kInst [(1, 16)]) Guard.always = true ∧
    taskOf (kRegs [(1, 16)]) (kInst [(1, 16)]).task = some kTask ∧
    16 = BitVec.toNat (rW (kInst [(1, 16)]) 1) ∧
    (0 : BitVec 32) = BitVec.setWidth 32 (rW (kInst [(1, 16)]) 2) ∧
    16 ≤ 16 ∧
    instOf (kRegs [(1, 255), (2, 64)]) 0 = some (kInst [(1, 255), (2, 64)]) ∧
    guardOk (kInst [(1, 255), (2, 64)]) Guard.always = true ∧
    255 = BitVec.toNat (rW (kInst [(1, 255), (2, 64)]) 1) ∧
    64 = BitVec.toNat (rW (kInst [(1, 255), (2, 64)]) 2) ∧
    255 < 256 ∧
    inSegment (kRegs [(1, 255), (2, 64)]) (kInst [(1, 255), (2, 64)]).task Space.retained 64 (BitVec.toNat (240 : BitVec 8)) = true ∧
    instOf (kRegs [(1, 0), (2, 4095)]) 0 = some (kInst [(1, 0), (2, 4095)]) ∧
    guardOk (kInst [(1, 0), (2, 4095)]) Guard.always = true ∧
    0 = BitVec.toNat (rW (kInst [(1, 0), (2, 4095)]) 1) ∧
    4095 = BitVec.toNat (rW (kInst [(1, 0), (2, 4095)]) 2) ∧
    0 < 256 ∧
    inSegment (kRegs [(1, 0), (2, 4095)]) (kInst [(1, 0), (2, 4095)]).task Space.data 4095 (BitVec.toNat (1 : BitVec 8)) = true ∧
    instOf (kRegs [(1, 256), (2, 0)]) 0 = some (kInst [(1, 256), (2, 0)]) ∧
    guardOk (kInst [(1, 256), (2, 0)]) Guard.always = true ∧
    256 = BitVec.toNat (rW (kInst [(1, 256), (2, 0)]) 1) ∧
    0 = BitVec.toNat (rW (kInst [(1, 256), (2, 0)]) 2) ∧
    (¬(256 < 256 ∧ inSegment (kRegs [(1, 256), (2, 0)]) (kInst [(1, 256), (2, 0)]).task Space.data 0 (BitVec.toNat (1 : BitVec 8)) = true)) ∧
    (¬(0 < 256 ∧ inSegment (kRegs [(1, 0), (2, 4095)]) (kInst [(1, 0), (2, 4095)]).task Space.data 4095 (BitVec.toNat (2 : BitVec 8)) = true)) := by
  and_intros <;> decide +kernel

theorem witness_EngineRequestsAndEvents_3 :
    instOf (kRun (kEvts 7)) 0 = some (kEvts 7) ∧
    guardOk (kEvts 7) Guard.always = true ∧
    sevCode Sev.critical = (3 : Fin 4).val ∧
    (kEvts 7).evts.length < 8 ∧
    instOf (kRun (kEvts 8)) 0 = some (kEvts 8) ∧
    guardOk (kEvts 8) Guard.always = true ∧
    8 ≤ (kEvts 8).evts.length := by
  and_intros <;> decide +kernel

theorem witness_RegisterWriteTakesFields_1 :
    20971548 = BitVec.toNat (20971548 : BitVec 26) ∧
    4294967295 = BitVec.toNat (4294967295 : BitVec 64) % 2 ^ 32 ∧
    20971548 % 4 = 0 ∧
    fieldsAt 20971548 ≠ [] ∧
    ownWrite 20971548 = false ∧
    windowWrite32 (inMode Mode.halt []) 20971548 (BitVec.setWidth 32 (4294967295 : BitVec 64)) = none ∧
    (∀ e ∈ fieldsAt 20971548, (configFields.any fun x => decide (x.id = e.1.id)) = false) ∧
    hostCommand (inMode Mode.halt []) 20971548 (BitVec.setWidth 32 (4294967295 : BitVec 64)) = none ∧
    windowWrite32 (inMode Mode.active []) 20971548 (BitVec.setWidth 32 (4294967295 : BitVec 64)) = none ∧
    hostCommand (inMode Mode.active []) 20971548 (BitVec.setWidth 32 (4294967295 : BitVec 64)) = none ∧
    16 = BitVec.toNat (16 : BitVec 26) ∧
    256 = BitVec.toNat (256 : BitVec 64) % 2 ^ 32 ∧
    16 % 4 = 0 ∧
    fieldsAt 16 ≠ [] ∧
    ownWrite 16 = false ∧
    windowWrite32 (inMode Mode.halt [(Reg.SSU_SUPPLY_WARNSEEN, 0, 1)]) 16 (BitVec.setWidth 32 (256 : BitVec 64)) = none ∧
    (∀ e ∈ fieldsAt 16, (configFields.any fun x => decide (x.id = e.1.id)) = false) ∧
    hostCommand (inMode Mode.halt [(Reg.SSU_SUPPLY_WARNSEEN, 0, 1)]) 16 (BitVec.setWidth 32 (256 : BitVec 64)) = none := by
  and_intros <;> decide +kernel

theorem witness_RegisterWriteTakesFields_2 :
    4194584 = BitVec.toNat (4194584 : BitVec 26) ∧
    3 = BitVec.toNat (3 : BitVec 64) % 2 ^ 32 ∧
    4194584 % 4 = 0 ∧
    fieldsAt 4194584 ≠ [] ∧
    ownWrite 4194584 = false ∧
    windowWrite32 (inMode Mode.active []) 4194584 (BitVec.setWidth 32 (3 : BitVec 64)) = none ∧
    (∀ e ∈ fieldsAt 4194584, (configFields.any fun x => decide (x.id = e.1.id)) = false) ∧
    hostCommand (inMode Mode.active []) 4194584 (BitVec.setWidth 32 (3 : BitVec 64)) = none ∧
    4294967295 = BitVec.toNat (4294967295 : BitVec 64) % 2 ^ 32 ∧
    windowWrite32 (inMode Mode.active []) 4194584 (BitVec.setWidth 32 (4294967295 : BitVec 64)) = none ∧
    hostCommand (inMode Mode.active []) 4194584 (BitVec.setWidth 32 (4294967295 : BitVec 64)) = none ∧
    0 = BitVec.toNat (0 : BitVec 26) ∧
    255 = BitVec.toNat (255 : BitVec 64) % 2 ^ 32 ∧
    0 % 4 = 0 ∧
    fieldsAt 0 ≠ [] ∧
    ownWrite 0 = false ∧
    windowWrite32 (inMode Mode.halt []) 0 (BitVec.setWidth 32 (255 : BitVec 64)) = none ∧
    (∀ e ∈ fieldsAt 0, (configFields.any fun x => decide (x.id = e.1.id)) = false) ∧
    hostCommand (inMode Mode.halt []) 0 (BitVec.setWidth 32 (255 : BitVec 64)) = none := by
  and_intros <;> decide +kernel

theorem witness_RegisterReads :
    24 = BitVec.toNat (24 : BitVec 26) ∧
    24 % 4 = 0 ∧
    fieldsAt 24 ≠ [] ∧
    ownRead 24 = false ∧
    windowWord (inMode Mode.halt [(Reg.SSU_SAVESTS_SAVECNT, 0, 9)]) 24 = none ∧
    0 = BitVec.toNat (0 : BitVec 26) ∧
    0 % 4 = 0 ∧
    fieldsAt 0 ≠ [] ∧
    ownRead 0 = false ∧
    windowWord (inMode Mode.active []) 0 = none := by
  and_intros <;> decide +kernel

theorem witness_RefusedRegisterAccesses_1 :
    BitVec.toNat (2 : BitVec 26) % 4 ≠ 0 ∧
    5 ≠ 4 ∧
    5 ≠ 8 ∧
    BitVec.toNat (67108856 : BitVec 26) % 4 = 0 ∧
    undefinedAt (inMode Mode.halt []) (BitVec.toNat (67108856 : BitVec 26)) = true ∧
    undefinedAt (inMode Mode.halt []) (BitVec.toNat (67108856 : BitVec 26) + 4) = true ∧
    BitVec.toNat (67108848 : BitVec 26) % 4 = 0 ∧
    undefinedAt (inMode Mode.halt []) (BitVec.toNat (67108848 : BitVec 26)) = true ∧
    undefinedAt (inMode Mode.halt []) (BitVec.toNat (67108848 : BitVec 26) + 4) = true ∧
    BitVec.toNat (4 : BitVec 26) % 4 = 0 ∧
    BitVec.toNat (0 : BitVec 26) % 4 = 0 ∧
    undefinedAt (inMode Mode.halt []) (BitVec.toNat (0 : BitVec 26)) = false ∧
    (Instr.badCommand CmdReg.modeCmd 6).wf = true ∧
    cmdStatus CmdReg.modeCmd = ((cmdStatus CmdReg.modeCmd).1, (cmdStatus CmdReg.modeCmd).2.1, (cmdStatus CmdReg.modeCmd).2.2.1, (cmdStatus CmdReg.modeCmd).2.2.2) ∧
    (Instr.badCommand CmdReg.modeCmd 15).wf = true ∧
    (Instr.badCommand CmdReg.olc 5).wf = true ∧
    cmdStatus CmdReg.olc = ((cmdStatus CmdReg.olc).1, (cmdStatus CmdReg.olc).2.1, (cmdStatus CmdReg.olc).2.2.1, (cmdStatus CmdReg.olc).2.2.2) ∧
    (Instr.badCommand CmdReg.lcmd 7).wf = true ∧
    cmdStatus CmdReg.lcmd = ((cmdStatus CmdReg.lcmd).1, (cmdStatus CmdReg.lcmd).2.1, (cmdStatus CmdReg.lcmd).2.2.1, (cmdStatus CmdReg.lcmd).2.2.2) ∧
    (Instr.badCommand CmdReg.fctCmd 5).wf = true ∧
    cmdStatus CmdReg.fctCmd = ((cmdStatus CmdReg.fctCmd).1, (cmdStatus CmdReg.fctCmd).2.1, (cmdStatus CmdReg.fctCmd).2.2.1, (cmdStatus CmdReg.fctCmd).2.2.2) ∧
    (Instr.badCommand CmdReg.vcmd 3).wf = true ∧
    cmdStatus CmdReg.vcmd = ((cmdStatus CmdReg.vcmd).1, (cmdStatus CmdReg.vcmd).2.1, (cmdStatus CmdReg.vcmd).2.2.1, (cmdStatus CmdReg.vcmd).2.2.2) := by
  and_intros <;> decide +kernel

theorem witness_RefusedRegisterAccesses_2 :
    (Instr.badCommand CmdReg.rduCmd 3).wf = true ∧
    cmdStatus CmdReg.rduCmd = ((cmdStatus CmdReg.rduCmd).1, (cmdStatus CmdReg.rduCmd).2.1, (cmdStatus CmdReg.rduCmd).2.2.1, (cmdStatus CmdReg.rduCmd).2.2.2) ∧
    (Instr.badCommand CmdReg.evrCmd 5).wf = true ∧
    cmdStatus CmdReg.evrCmd = ((cmdStatus CmdReg.evrCmd).1, (cmdStatus CmdReg.evrCmd).2.1, (cmdStatus CmdReg.evrCmd).2.2.1, (cmdStatus CmdReg.evrCmd).2.2.2) ∧
    (Instr.badCommand (CmdReg.fbcCtl (23 : Fin 24)) 4).wf = true ∧
    cmdStatus (CmdReg.fbcCtl (23 : Fin 24)) = ((cmdStatus (CmdReg.fbcCtl (23 : Fin 24))).1, (cmdStatus (CmdReg.fbcCtl (23 : Fin 24))).2.1, (cmdStatus (CmdReg.fbcCtl (23 : Fin 24))).2.2.1, (cmdStatus (CmdReg.fbcCtl (23 : Fin 24))).2.2.2) ∧
    (Instr.badCommand (CmdReg.fbcTx (0 : Fin 24)) 3).wf = true ∧
    cmdStatus (CmdReg.fbcTx (0 : Fin 24)) = ((cmdStatus (CmdReg.fbcTx (0 : Fin 24))).1, (cmdStatus (CmdReg.fbcTx (0 : Fin 24))).2.1, (cmdStatus (CmdReg.fbcTx (0 : Fin 24))).2.2.1, (cmdStatus (CmdReg.fbcTx (0 : Fin 24))).2.2.2) ∧
    (Instr.badCommand CmdReg.svcCmd 3).wf = true ∧
    cmdStatus CmdReg.svcCmd = ((cmdStatus CmdReg.svcCmd).1, (cmdStatus CmdReg.svcCmd).2.1, (cmdStatus CmdReg.svcCmd).2.2.1, (cmdStatus CmdReg.svcCmd).2.2.2) ∧
    (Instr.badCommand CmdReg.otpCmd 7).wf = true ∧
    cmdStatus CmdReg.otpCmd = ((cmdStatus CmdReg.otpCmd).1, (cmdStatus CmdReg.otpCmd).2.1, (cmdStatus CmdReg.otpCmd).2.2.1, (cmdStatus CmdReg.otpCmd).2.2.2) ∧
    (Instr.badCommand CmdReg.modeCmd 6).wf = true ∧
    cmdStatus CmdReg.modeCmd = (Reg.SSU_MODE_LASTCC, Reg.SSU_MODE_LASTRSN, some Reg.SSU_MODE_PEND, 0) ∧
    (Instr.badCommand (CmdReg.fbcCtl (2 : Fin 24)) 4).wf = true ∧
    cmdStatus (CmdReg.fbcCtl (2 : Fin 24)) = (Reg.FBCn_CTLSTS_CC, Reg.FBCn_CTLSTS_RSN, some Reg.FBCn_CTLSTS_PEND, 2) := by
  and_intros <;> decide +kernel

theorem witness_ResetsLeaveRecall :
    false = (decide (3 ≤ 0) && decide (modeIs (inMode Mode.active []) ≠ Mode.recall) && decide (modeIs (inMode Mode.active []) ≠ Mode.test)) ∧
    5 = (5 : Fin 6).val ∧
    false = (decide (3 ≤ 1) && decide (modeIs (inMode Mode.save []) ≠ Mode.recall) && decide (modeIs (inMode Mode.save []) ≠ Mode.test)) ∧
    10000 ≤ 10000 ∧
    false = (decide (3 ≤ 2) && decide (modeIs (inMode Mode.active []) ≠ Mode.recall) && decide (modeIs (inMode Mode.active []) ≠ Mode.test)) ∧
    9960 ≤ 9960 ∧
    false = (decide (3 ≤ 3) && decide (modeIs (inMode Mode.recall []) ≠ Mode.recall) && decide (modeIs (inMode Mode.recall []) ≠ Mode.test)) ∧
    true = (decide (3 ≤ 3) && decide (modeIs (inMode Mode.active []) ≠ Mode.recall) && decide (modeIs (inMode Mode.active []) ≠ Mode.test)) ∧
    rdB wdtDue Reg.SSU_WDTCFG_HOSTEN = true ∧
    rdB wdtDue Reg.SSU_WDTCFG_ACT = true ∧
    wdtDue.ssu.wdtFrom = some 7 ∧
    7 + max 1 (rd wdtDue Reg.SSU_WDTCFG_HOSTTO) * 10 ^ 9 ≤ wdtDue.tb.now ∧
    true = (decide (3 ≤ 3) && decide (modeIs wdtDue ≠ Mode.recall) && decide (modeIs wdtDue ≠ Mode.test)) ∧
    BitVec.toNat (1209008129 : BitVec 32) % 2 = 1 ∧
    BitVec.toNat (1209008129 : BitVec 32) / 2 ^ 16 = 18448 ∧
    true = (decide (3 ≤ 4) && decide (modeIs (inMode Mode.halt []) ≠ Mode.recall) && decide (modeIs (inMode Mode.halt []) ≠ Mode.test)) ∧
    false = (decide (3 ≤ 4) && decide (modeIs (inMode Mode.test []) ≠ Mode.recall) && decide (modeIs (inMode Mode.test []) ≠ Mode.test)) ∧
    9959 < 9960 ∧
    9999 < 10000 ∧
    BitVec.toNat (1209008128 : BitVec 32) % 2 = 0 ∧
    BitVec.toNat (1209073665 : BitVec 32) / 2 ^ 16 ≠ 18448 := by
  and_intros <;> decide +kernel

theorem witness_RecallAndItsEnd :
    modeIs State.reset = Mode.recall ∧
    rdB State.reset Reg.NVS_STATUS_RECALL = true ∧
    State.reset.nvs.recs = [] ∧
    State.reset.nvs.queue = [] ∧
    State.reset.evr.staging = [] ∧
    bistWanted State.reset = false ∧
    State.reset.ssu.bistReq = false ∧
    State.reset.ssu.bistDone = false ∧
    modeIs (inMode Mode.halt []) ≠ Mode.recall ∧
    rdB (inMode Mode.recall []) Reg.NVS_STATUS_RECALL = false ∧
    State.reset.ssu.recalled = false ∧
    modeIs (inMode Mode.recall []) = Mode.recall ∧
    bistWanted (inMode Mode.recall []) = false ∧
    (inMode Mode.recall []).ssu.recalled = true ∧
    (inMode Mode.recall []).ssu.keyed = true ∧
    modeIs bistDue = Mode.recall ∧
    bistDue.ssu.recalled = true ∧
    bistDue.ssu.keyed = true ∧
    bistWanted bistDue = true := by
  and_intros <;> decide +kernel

theorem witness_ModeCommands_1 :
    rdB startable Reg.SSU_MODE_PEND = false ∧
    modeIs startable = Mode.halt ∧
    startCheck startable = none ∧
    (startTarget startable).isSome = true ∧
    rdB (inMode Mode.active []) Reg.SSU_MODE_PEND = false ∧
    modeIs (inMode Mode.active []) = Mode.active ∧
    rdB (inMode Mode.standby []) Reg.SSU_MODE_PEND = false ∧
    modeIs (inMode Mode.standby []) = Mode.standby ∧
    rdB (inMode Mode.resync []) Reg.SSU_MODE_PEND = false ∧
    modeIs (inMode Mode.resync []) = Mode.resync ∧
    rdB (inMode Mode.active [(Reg.RDU_STATUS_PAIRST, 0, 2)]) Reg.SSU_MODE_PEND = false ∧
    modeIs (inMode Mode.active [(Reg.RDU_STATUS_PAIRST, 0, 2)]) = Mode.active ∧
    rdB (inMode Mode.safehold []) Reg.SSU_MODE_PEND = false ∧
    modeIs (inMode Mode.safehold []) = Mode.safehold ∧
    rdB (inMode Mode.halt []) Reg.SSU_MODE_PEND = false ∧
    modeIs (inMode Mode.halt []) = Mode.halt ∧
    rdB (inMode Mode.halt [(Reg.SSU_MODE_PEND, 0, 1)]) Reg.SSU_MODE_PEND = true ∧
    modeIs (inMode Mode.safehold []) ≠ Mode.halt ∧
    modeIs (inMode Mode.active []) ≠ Mode.halt ∧
    modeIs (inMode Mode.halt []) ≠ Mode.active ∧
    modeIs (inMode Mode.halt []) ≠ Mode.standby ∧
    modeIs (inMode Mode.halt []) ≠ Mode.resync ∧
    modeIs (inMode Mode.resync []) ≠ Mode.active ∧
    modeIs (inMode Mode.resync []) ≠ Mode.standby := by
  and_intros <;> decide +kernel

theorem witness_ModeCommands_2 :
    modeIs (inMode Mode.halt []) ≠ Mode.safehold := by
  decide +kernel

theorem witness_PowerWarningAndSave :
    rdB (inMode Mode.halt [(Reg.SSU_SUPPLY_WARN, 0, 1)]) Reg.SSU_SUPPLY_WARN = true ∧
    rdB (inMode Mode.recall []) Reg.SSU_SUPPLY_WARN = false ∧
    modeIs (inMode Mode.recall []) = Mode.recall ∧
    modeIs (inMode Mode.halt [(Reg.SSU_SUPPLY_WARN, 0, 1)]) ≠ Mode.save ∧
    rdB (inMode Mode.save [(Reg.SSU_SUPPLY_WARN, 0, 1)]) Reg.SSU_SUPPLY_WARN = true ∧
    modeIs (inMode Mode.save [(Reg.SSU_SUPPLY_WARN, 0, 1)]) = Mode.save ∧
    (inMode Mode.save [(Reg.SSU_SUPPLY_WARN, 0, 1)]).ssu.saveDone = false ∧
    rdB saved Reg.SSU_SUPPLY_WARN = true ∧
    modeIs saved = Mode.save ∧
    saved.ssu.saveDone = true ∧
    saved.nvs.queue = [] ∧
    (inMode Mode.save [(Reg.SSU_SUPPLY_WARN, 0, 1)]).nvs.queue = [] ∧
    (inMode Mode.save [(Reg.SSU_SUPPLY_WARN, 0, 1)]).nvs.susp = [] ∧
    (inMode Mode.save [(Reg.SSU_SUPPLY_WARN, 0, 1)]).nvs.cur = none ∧
    rdB (inMode Mode.save []) Reg.SSU_SUPPLY_WARN = false ∧
    modeIs (inMode Mode.halt []) ≠ Mode.save := by
  and_intros <;> decide +kernel

theorem witness_TickPhasesAndEdge_1 :
    (inMode Mode.halt []).tb.ph1 = false ∧
    paired (inMode Mode.halt []) = false ∧
    modeIs (inMode Mode.halt []) = Mode.halt ∧
    (∀ e ∈ (inMode Mode.halt []).rdu.own, (inMode Mode.halt []).tb.tick ≤ e.1) ∧
    (inMode Mode.active []).tb.ph1 = false ∧
    paired (inMode Mode.active []) = false ∧
    modeIs (inMode Mode.active []) = Mode.active ∧
    (∀ e ∈ (inMode Mode.active []).rdu.own, (inMode Mode.active []).tb.tick ≤ e.1) ∧
    (inMode Mode.safehold []).tb.ph1 = false ∧
    paired (inMode Mode.safehold []) = false ∧
    modeIs (inMode Mode.safehold []) = Mode.safehold ∧
    (∀ e ∈ (inMode Mode.safehold []).rdu.own, (inMode Mode.safehold []).tb.tick ≤ e.1) ∧
    (inMode Mode.halt []).tb.ph2 = false ∧
    (∀ (sq : Sq), instOf (inMode Mode.halt []) sq = none) ∧
    (inMode Mode.halt []).csa.armed = none ∧
    (inMode Mode.halt []).fct.armed = none ∧
    (inMode Mode.halt []).lpe.results = [] ∧
    (inMode Mode.safehold []).tb.ph2 = false ∧
    (∀ (sq : Sq), instOf (inMode Mode.safehold []) sq = none) ∧
    (inMode Mode.safehold []).csa.armed = none ∧
    (inMode Mode.safehold []).fct.armed = none ∧
    (inMode Mode.safehold []).lpe.results = [] := by
  and_intros <;> decide +kernel

theorem witness_TickPhasesAndEdge_2 :
    (inMode Mode.halt []).tb.ph3 = false ∧
    modeIs (inMode Mode.halt []) ≠ Mode.standby ∧
    modeIs (inMode Mode.halt []) ≠ Mode.save ∧
    (inMode Mode.standby []).tb.ph3 = false ∧
    modeIs (inMode Mode.standby []) = Mode.standby ∧
    phasesDone.tb.ph1 = true ∧
    phasesDone.tb.ph2 = true ∧
    phasesDone.tb.ph3 = true ∧
    modeIs State.reset = Mode.recall ∧
    (∀ (sq : Sq), instOf State.reset sq = none) ∧
    State.reset.csa.armed = none ∧
    State.reset.fct.armed = none ∧
    State.reset.csa.outNext = [] ∧
    State.reset.rdu.own = [] ∧
    State.reset.rdu.agreed = [] ∧
    State.reset.ssu.holdUntil = none ∧
    State.reset.lpe.lcmd = none ∧
    State.reset.lsv.mbx = [] ∧
    State.reset.npc.ctxs = [] ∧
    State.reset.csc.reparent = false ∧
    rdB State.reset Reg.CSC_CFG_EN = false ∧
    setElems State.reset Reg.LPE_LSTS_PENDSWAP = [] := by
  and_intros <;> decide +kernel

theorem witness_TickPhasesAndEdge_3 :
    5 = BitVec.toNat (12805 : BitVec 32) % 256 ∧
    50 = BitVec.toNat (12805 : BitVec 32) / 256 % 256 ∧
    modeIs (inMode Mode.halt []) = Mode.halt ∧
    5 ≤ 5 ∧
    5 ≤ 200 ∧
    10 ≤ 50 ∧
    50 ≤ 50 ∧
    200 = BitVec.toNat (68296 : BitVec 32) % 256 ∧
    10 = BitVec.toNat (68296 : BitVec 32) / 256 % 256 ∧
    200 ≤ 200 ∧
    10 ≤ 10 ∧
    4 = BitVec.toNat (12804 : BitVec 32) % 256 ∧
    50 = BitVec.toNat (12804 : BitVec 32) / 256 % 256 ∧
    4 < 5 ∧
    200 = BitVec.toNat (13256 : BitVec 32) % 256 ∧
    51 = BitVec.toNat (13256 : BitVec 32) / 256 % 256 ∧
    50 < 51 ∧
    200 = BitVec.toNat (2504 : BitVec 32) % 256 ∧
    9 = BitVec.toNat (2504 : BitVec 32) / 256 % 256 ∧
    9 < 10 ∧
    201 = BitVec.toNat (13001 : BitVec 32) % 256 ∧
    50 = BitVec.toNat (13001 : BitVec 32) / 256 % 256 ∧
    200 < 201 := by
  and_intros <;> decide +kernel

theorem witness_TickPhasesAndEdge_4 :
    0 = BitVec.toNat (65536 : BitVec 32) % 256 ∧
    0 = BitVec.toNat (65536 : BitVec 32) / 256 % 256 ∧
    modeIs (inMode Mode.active []) ≠ Mode.halt ∧
    5 = BitVec.toNat (12805 : BitVec 32) % 256 ∧
    50 = BitVec.toNat (12805 : BitVec 32) / 256 % 256 ∧
    modeIs (inMode Mode.test []) ≠ Mode.halt := by
  and_intros <;> decide +kernel

theorem witness_EdgeTransitions_1 :
    faulted.ssu.holdUntil = none ∧
    faulted.ssu.cmdEdges ≤ 1 ∧
    modeIs faulted = Mode.active ∧
    faultPresent faulted FClass.timebase = true ∧
    holds faulted FClass.timebase = true ∧
    stopActive.ssu.holdUntil = none ∧
    stopActive.ssu.cmdEdges ≤ 1 ∧
    modeIs stopActive = Mode.active ∧
    stopActive.ssu.causes = [] ∧
    faultHolds stopActive = false ∧
    stopActive.rdu.swapEdge = none ∧
    stopActive.rdu.takeAt = none ∧
    stopActive.ssu.cmd = some ModeCmd.stop ∧
    modeIs stopActive ≠ Mode.safehold ∧
    releaseSafehold.ssu.holdUntil = none ∧
    releaseSafehold.ssu.cmdEdges ≤ 1 ∧
    modeIs releaseSafehold = Mode.safehold ∧
    releaseSafehold.ssu.causes = [] ∧
    faultHolds releaseSafehold = false ∧
    releaseSafehold.rdu.swapEdge = none ∧
    releaseSafehold.rdu.takeAt = none ∧
    releaseSafehold.ssu.cmd = some ModeCmd.release := by
  and_intros <;> decide +kernel

theorem witness_EdgeTransitions_2 :
    holdStandby.ssu.holdUntil = none ∧
    holdStandby.ssu.cmdEdges ≤ 1 ∧
    modeIs holdStandby = Mode.standby ∧
    holdStandby.ssu.causes = [] ∧
    faultHolds holdStandby = false ∧
    holdStandby.rdu.swapEdge = none ∧
    holdStandby.rdu.takeAt = none ∧
    holdStandby.ssu.cmd = some ModeCmd.hold ∧
    stopResync.ssu.holdUntil = none ∧
    stopResync.ssu.cmdEdges ≤ 1 ∧
    modeIs stopResync = Mode.resync ∧
    stopResync.ssu.causes = [] ∧
    faultHolds stopResync = false ∧
    stopResync.rdu.swapEdge = none ∧
    stopResync.rdu.takeAt = none ∧
    stopResync.ssu.cmd = some ModeCmd.stop ∧
    modeIs stopResync ≠ Mode.safehold := by
  and_intros <;> decide +kernel

theorem witness_ProgramAndForceCommands_1 :
    rdB (inMode Mode.halt []) Reg.CSA_OLC_PEND = false ∧
    modeIs (inMode Mode.halt []) = Mode.halt ∧
    rdB (inMode Mode.active []) Reg.CSA_OLC_PEND = false ∧
    modeIs (inMode Mode.active []) = Mode.active ∧
    rdB (inMode Mode.standby []) Reg.CSA_OLC_PEND = false ∧
    modeIs (inMode Mode.standby []) = Mode.standby ∧
    fetching.csa.loading = some [] ∧
    recalling fetching = false ∧
    fetching.nvs.queue = [] ∧
    0 = tickOf (inMode Mode.active [(Reg.CSA_OLC_STATE, 0, 2)]) (inMode Mode.active [(Reg.CSA_OLC_STATE, 0, 2)]).tb.now ∧
    0 = rd64 (inMode Mode.active [(Reg.CSA_OLC_STATE, 0, 2)]) Reg.CSA_OLCTICK_LO_KS Reg.CSA_OLCTICK_HI_KS ∧
    rdB (inMode Mode.active [(Reg.CSA_OLC_STATE, 0, 2)]) Reg.CSA_OLC_PEND = false ∧
    modeIs (inMode Mode.active [(Reg.CSA_OLC_STATE, 0, 2)]) = Mode.active ∧
    rd (inMode Mode.active [(Reg.CSA_OLC_STATE, 0, 2)]) Reg.CSA_OLC_STATE = 2 ∧
    0 = tickOf (inMode Mode.standby [(Reg.CSA_OLC_STATE, 0, 2)]) (inMode Mode.standby [(Reg.CSA_OLC_STATE, 0, 2)]).tb.now ∧
    0 = rd64 (inMode Mode.standby [(Reg.CSA_OLC_STATE, 0, 2)]) Reg.CSA_OLCTICK_LO_KS Reg.CSA_OLCTICK_HI_KS ∧
    rdB (inMode Mode.standby [(Reg.CSA_OLC_STATE, 0, 2)]) Reg.CSA_OLC_PEND = false ∧
    modeIs (inMode Mode.standby [(Reg.CSA_OLC_STATE, 0, 2)]) = Mode.standby ∧
    rd (inMode Mode.standby [(Reg.CSA_OLC_STATE, 0, 2)]) Reg.CSA_OLC_STATE = 2 ∧
    0 = tickOf (inMode Mode.halt []) (inMode Mode.halt []).tb.now ∧
    0 = rd64 (inMode Mode.halt []) Reg.CSA_OLCTICK_LO_KS Reg.CSA_OLCTICK_HI_KS := by
  and_intros <;> decide +kernel

theorem witness_ProgramAndForceCommands_2 :
    rdB ready Reg.CSA_OLC_PEND = false ∧
    modeIs ready = Mode.halt ∧
    rd ready Reg.CSA_OLC_STATE = 2 ∧
    loaded ready = some nextProg ∧
    ((facetAt ready (ready.tb.tick + 1)).bind fun f => firstOf [checkWiring f nextProg, checkMeterPoints f nextProg]) = none ∧
    ready.csa.forces = [] ∧
    0 = tickOf armedOlc armedOlc.tb.now ∧
    0 = rd64 armedOlc Reg.CSA_OLCTICK_LO_KS Reg.CSA_OLCTICK_HI_KS ∧
    armPending armedOlc = true ∧
    rdB (withProg named (inMode Mode.halt [(Reg.CSA_FRCVID_VID, 0, 34)])) Reg.CSA_FRCSTS_PEND = false ∧
    34 = rd (withProg named (inMode Mode.halt [(Reg.CSA_FRCVID_VID, 0, 34)])) Reg.CSA_FRCVID_VID ∧
    (0 : BitVec 64) = BitVec.ofNat 64 (rd (withProg named (inMode Mode.halt [(Reg.CSA_FRCVID_VID, 0, 34)])) Reg.CSA_FRCVAL_LO_VAL + 2 ^ 32 * rd (withProg named (inMode Mode.halt [(Reg.CSA_FRCVID_VID, 0, 34)])) Reg.CSA_FRCVAL_HI_VAL) ∧
    modeIs (withProg named (inMode Mode.halt [(Reg.CSA_FRCVID_VID, 0, 34)])) = Mode.halt ∧
    pointOfVid (withProg named (inMode Mode.halt [(Reg.CSA_FRCVID_VID, 0, 34)])) 34 = none ∧
    rdB (withProg named (inMode Mode.halt [(Reg.CSA_FRCVID_VID, 0, 33)])) Reg.CSA_FRCSTS_PEND = false ∧
    33 = rd (withProg named (inMode Mode.halt [(Reg.CSA_FRCVID_VID, 0, 33)])) Reg.CSA_FRCVID_VID ∧
    (0 : BitVec 64) = BitVec.ofNat 64 (rd (withProg named (inMode Mode.halt [(Reg.CSA_FRCVID_VID, 0, 33)])) Reg.CSA_FRCVAL_LO_VAL + 2 ^ 32 * rd (withProg named (inMode Mode.halt [(Reg.CSA_FRCVID_VID, 0, 33)])) Reg.CSA_FRCVAL_HI_VAL) ∧
    modeIs (withProg named (inMode Mode.halt [(Reg.CSA_FRCVID_VID, 0, 33)])) = Mode.halt ∧
    pointOfVid (withProg named (inMode Mode.halt [(Reg.CSA_FRCVID_VID, 0, 33)])) 33 = some { num := 4, vid := 33, typ := 1, bind := Bind.local : PointDef } ∧
    List.find? (fun x => decide (x.vid = 33)) (withProg named (inMode Mode.halt [(Reg.CSA_FRCVID_VID, 0, 33)])).csa.forces = none ∧
    (withProg named (inMode Mode.halt [(Reg.CSA_FRCVID_VID, 0, 33)])).csa.forces.length < 512 := by
  and_intros <;> decide +kernel

theorem witness_ProgramAndForceCommands_3 :
    rdB forced Reg.CSA_FRCSTS_PEND = false ∧
    33 = rd forced Reg.CSA_FRCVID_VID ∧
    (0 : BitVec 64) = BitVec.ofNat 64 (rd forced Reg.CSA_FRCVAL_LO_VAL + 2 ^ 32 * rd forced Reg.CSA_FRCVAL_HI_VAL) ∧
    modeIs forced = Mode.halt ∧
    pointOfVid forced 33 = some { num := 4, vid := 33, typ := 1, bind := Bind.local : PointDef } ∧
    List.find? (fun x => decide (x.vid = 33)) forced.csa.forces = some { vid := 33, typ := 1, point := 4, value := (7 : Word), lastw := (0 : Word) : Force } ∧
    rdB (inMode Mode.active [(Reg.CSA_FRCVID_VID, 0, 33)]) Reg.CSA_FRCSTS_PEND = false ∧
    33 = rd (inMode Mode.active [(Reg.CSA_FRCVID_VID, 0, 33)]) Reg.CSA_FRCVID_VID ∧
    (0 : Word) = BitVec.ofNat 64 (rd (inMode Mode.active [(Reg.CSA_FRCVID_VID, 0, 33)]) Reg.CSA_FRCVAL_LO_VAL + 2 ^ 32 * rd (inMode Mode.active [(Reg.CSA_FRCVID_VID, 0, 33)]) Reg.CSA_FRCVAL_HI_VAL) ∧
    modeIs (inMode Mode.active [(Reg.CSA_FRCVID_VID, 0, 33)]) = Mode.active ∧
    rdB (inMode Mode.standby [(Reg.CSA_FRCVID_VID, 0, 33)]) Reg.CSA_FRCSTS_PEND = false ∧
    33 = rd (inMode Mode.standby [(Reg.CSA_FRCVID_VID, 0, 33)]) Reg.CSA_FRCVID_VID ∧
    (0 : Word) = BitVec.ofNat 64 (rd (inMode Mode.standby [(Reg.CSA_FRCVID_VID, 0, 33)]) Reg.CSA_FRCVAL_LO_VAL + 2 ^ 32 * rd (inMode Mode.standby [(Reg.CSA_FRCVID_VID, 0, 33)]) Reg.CSA_FRCVAL_HI_VAL) ∧
    modeIs (inMode Mode.standby [(Reg.CSA_FRCVID_VID, 0, 33)]) = Mode.standby ∧
    rdB (inMode Mode.safehold [(Reg.CSA_FRCVID_VID, 0, 33)]) Reg.CSA_FRCSTS_PEND = false ∧
    33 = rd (inMode Mode.safehold [(Reg.CSA_FRCVID_VID, 0, 33)]) Reg.CSA_FRCVID_VID ∧
    (0 : Word) = BitVec.ofNat 64 (rd (inMode Mode.safehold [(Reg.CSA_FRCVID_VID, 0, 33)]) Reg.CSA_FRCVAL_LO_VAL + 2 ^ 32 * rd (inMode Mode.safehold [(Reg.CSA_FRCVID_VID, 0, 33)]) Reg.CSA_FRCVAL_HI_VAL) ∧
    modeIs (inMode Mode.safehold [(Reg.CSA_FRCVID_VID, 0, 33)]) = Mode.safehold := by
  and_intros <;> decide +kernel

theorem witness_LoopEngine_1 :
    runsControl sampled = true ∧
    sampled.lpe.run.isSome = true ∧
    sampled.lpe.results = [{ loop := 0, run := aRun, mode := LMode.auto, cur := (1 : BitVec 4), sticky := (0 : BitVec 11) : LoopRes }] ∧
    { loop := 0, run := aRun, mode := LMode.auto, cur := (1 : BitVec 4), sticky := (0 : BitVec 11) : LoopRes }.loop < 1024 ∧
    List.find? (fun x => decide (x.1 = { loop := 0, run := aRun, mode := LMode.auto, cur := (1 : BitVec 4), sticky := (0 : BitVec 11) : LoopRes }.loop)) (wires sampled) = some ({ loop := 0, run := aRun, mode := LMode.auto, cur := (1 : BitVec 4), sticky := (0 : BitVec 11) : LoopRes }.loop, aWire) ∧
    runsControl savedRun = true ∧
    savedRun.lpe.run.isSome = true ∧
    (inMode Mode.active []).lpe.run = none ∧
    true ≠ rdB (inMode Mode.active []) Reg.LPE_LSTS_BANK (1023 : Fin 1024).val ∧
    rdB (inMode Mode.active []) Reg.LPE_LSTS_PENDSWAP (1023 : Fin 1024).val = false ∧
    false ≠ rdB (inMode Mode.active [(Reg.LPE_LSTS_BANK, 1023, 1)]) Reg.LPE_LSTS_BANK (1023 : Fin 1024).val ∧
    rdB (inMode Mode.active [(Reg.LPE_LSTS_BANK, 1023, 1)]) Reg.LPE_LSTS_PENDSWAP (1023 : Fin 1024).val = false ∧
    false = rdB (inMode Mode.active []) Reg.LPE_LSTS_BANK (1023 : Fin 1024).val ∧
    rdB (inMode Mode.active [(Reg.LPE_LSTS_PENDSWAP, 0, 1)]) Reg.LPE_LSTS_PENDSWAP (0 : Fin 1024).val = true ∧
    rd sampled Reg.LPE_LANESTS_MSTATE (7 : Fin 8).val = mstateCode MState.inService ∧
    WindowRuns sampled { cls := FClass.loop, idx := (7 : Fin 8).val : Resource } ∧
    true = (sampled.lpe.run.isSome && sampled.lpe.results.any fun x => decide (x.loop = (0 : Fin 1024).val)) ∧
    rd sampled Reg.LPE_LANESTS_MSTATE (0 : Fin 8).val = mstateCode MState.inService ∧
    WindowRuns sampled { cls := FClass.loop, idx := (0 : Fin 8).val : Resource } ∧
    false = (sampled.lpe.run.isSome && sampled.lpe.results.any fun x => decide (x.loop = (9 : Fin 1024).val)) ∧
    rd (inMode Mode.halt []) Reg.LPE_LANESTS_MSTATE (3 : Fin 8).val = mstateCode MState.inService ∧
    WindowRuns (inMode Mode.halt []) { cls := FClass.loop, idx := (3 : Fin 8).val : Resource } ∧
    false = ((inMode Mode.halt []).lpe.run.isSome && (inMode Mode.halt []).lpe.results.any fun x => decide (x.loop = (0 : Fin 1024).val)) := by
  and_intros <;> decide +kernel

theorem witness_LoopEngine_2 :
    rdB (inMode Mode.active []) Reg.LPE_LCSTS_PEND = false ∧
    (0 : BitVec 32) = BitVec.ofNat 32 (rd (inMode Mode.active []) Reg.LPE_LCRC_CRC) ∧
    modeIs (inMode Mode.active []) = Mode.active ∧
    InBody.loopSwap 1023 (0 : BitVec 32) = InBody.loopSwap (1023 : Fin 1024).val (0 : BitVec 32) ∧
    rdB (inMode Mode.standby []) Reg.LPE_LCSTS_PEND = false ∧
    (0 : BitVec 32) = BitVec.ofNat 32 (rd (inMode Mode.standby []) Reg.LPE_LCRC_CRC) ∧
    modeIs (inMode Mode.standby []) = Mode.standby ∧
    InBody.groupSwap 15 (0 : BitVec 32) = InBody.groupSwap (15 : Fin 16).val (0 : BitVec 32) ∧
    InBody.loopClear 1023 = InBody.loopClear (1023 : Fin 1024).val ∧
    rdB (inMode Mode.halt [(Reg.LPE_LSTS_S_ASAT, 1023, 1)]) Reg.LPE_LCSTS_PEND = false ∧
    (0 : BitVec 32) = BitVec.ofNat 32 (rd (inMode Mode.halt [(Reg.LPE_LSTS_S_ASAT, 1023, 1)]) Reg.LPE_LCRC_CRC) ∧
    modeIs (inMode Mode.halt [(Reg.LPE_LSTS_S_ASAT, 1023, 1)]) = Mode.halt ∧
    [1023] = [(1023 : Fin 1024).val] ∧
    rdB (inMode Mode.halt []) Reg.LPE_LCSTS_PEND = false ∧
    (0 : BitVec 32) = BitVec.ofNat 32 (rd (inMode Mode.halt []) Reg.LPE_LCRC_CRC) ∧
    modeIs (inMode Mode.halt []) = Mode.halt ∧
    paired (inMode Mode.halt []) = false ∧
    List.map (fun x => x.1) (List.filter (fun x => decide (x.2.group = (15 : Fin 16).val)) (wires (inMode Mode.halt []))) = [] ∧
    rdB crcReady Reg.LPE_LCSTS_PEND = false ∧
    (3136578990 : BitVec 32) = BitVec.ofNat 32 (rd crcReady Reg.LPE_LCRC_CRC) ∧
    modeIs crcReady = Mode.halt ∧
    paired crcReady = false ∧
    [(0 : Fin 1024).val] ≠ [] ∧
    banksCrc crcReady [(0 : Fin 1024).val] = (3136578990 : BitVec 32) := by
  and_intros <;> decide +kernel

theorem witness_LoopEngine_3 :
    rdB crcReady Reg.LPE_LCSTS_PEND = false ∧
    (3136578990 : BitVec 32) = BitVec.ofNat 32 (rd crcReady Reg.LPE_LCRC_CRC) ∧
    modeIs crcReady = Mode.halt ∧
    paired crcReady = false ∧
    List.map (fun x => x.1) (List.filter (fun x => decide (x.2.group = (3 : Fin 16).val)) (wires crcReady)) ≠ [] ∧
    banksCrc crcReady (List.map (fun x => x.1) (List.filter (fun x => decide (x.2.group = (3 : Fin 16).val)) (wires crcReady))) = (3136578990 : BitVec 32) ∧
    rdB (withFacet loopFacet (inMode Mode.halt [])) Reg.LPE_LCSTS_PEND = false ∧
    (0 : BitVec 32) = BitVec.ofNat 32 (rd (withFacet loopFacet (inMode Mode.halt [])) Reg.LPE_LCRC_CRC) ∧
    modeIs (withFacet loopFacet (inMode Mode.halt [])) = Mode.halt ∧
    paired (withFacet loopFacet (inMode Mode.halt [])) = false ∧
    [(0 : Fin 1024).val] ≠ [] ∧
    banksCrc (withFacet loopFacet (inMode Mode.halt [])) [(0 : Fin 1024).val] ≠ (0 : BitVec 32) := by
  and_intros <;> decide +kernel

theorem witness_SolverJobs_1 :
    rdB (solver [] none []) Reg.LSV_RINGCFG_EN = true ∧
    lsvRuns (solver [] none []) = true ∧
    (solver [] none []).lsv.next ≠ (solver [] none []).lsv.sqHead ∧
    0 < cqFree { flds := (solver [] none []).flds, tb := (solver [] none []).tb, rtc := (solver [] none []).rtc, ssu := (solver [] none []).ssu, csa := (solver [] none []).csa, lpe := (solver [] none []).lpe, lsv := have __src := (solver [] none []).lsv; { held := __src.held, next := __src.next, sqDone := __src.sqDone, reported := __src.reported, cqTail := __src.cqTail, cqRead := BitVec.toNat (64 : BitVec 32) % 2 ^ rd (solver [] none []) Reg.LSV_RINGCFG_CQLOG, sqHead := __src.sqHead, cjob := __src.cjob, handles := __src.handles, lastUse := __src.lastUse, useClock := __src.useClock, cancel := __src.cancel, mbx := __src.mbx, mbxNew := __src.mbxNew, flop := __src.flop, cyc := __src.cyc : LsvSt }, mte := (solver [] none []).mte, fct := (solver [] none []).fct, fbc := (solver [] none []).fbc, npc := (solver [] none []).npc, rdu := (solver [] none []).rdu, csc := (solver [] none []).csc, nvs := (solver [] none []).nvs, evr := (solver [] none []).evr, hmx := (solver [] none []).hmx, recvs := (solver [] none []).recvs, out := (solver [] none []).out, free := (solver [] none []).free, pending := (solver [] none []).pending : State } ∧
    descBad (aDesc (1 : Byte) (0 : Byte) (0 : Byte)) = false ∧
    (solver [] none []).lsv.held.length < 64 ∧
    tilesUp (solver [] none []) ≠ 0 ∧
    descBad (aDesc (0 : Byte) (0 : Byte) (0 : Byte)) = true ∧
    rdB (solver [aJob (1 : Byte) (0 : Byte) 0 true] none []) Reg.LSV_RINGCFG_EN = true ∧
    lsvRuns (solver [aJob (1 : Byte) (0 : Byte) 0 true] none []) = true ∧
    (solver [aJob (1 : Byte) (0 : Byte) 0 true] none []).lsv.next ≠ (solver [aJob (1 : Byte) (0 : Byte) 0 true] none []).lsv.sqHead ∧
    0 < cqFree { flds := (solver [aJob (1 : Byte) (0 : Byte) 0 true] none []).flds, tb := (solver [aJob (1 : Byte) (0 : Byte) 0 true] none []).tb, rtc := (solver [aJob (1 : Byte) (0 : Byte) 0 true] none []).rtc, ssu := (solver [aJob (1 : Byte) (0 : Byte) 0 true] none []).ssu, csa := (solver [aJob (1 : Byte) (0 : Byte) 0 true] none []).csa, lpe := (solver [aJob (1 : Byte) (0 : Byte) 0 true] none []).lpe, lsv := have __src := (solver [aJob (1 : Byte) (0 : Byte) 0 true] none []).lsv; { held := __src.held, next := __src.next, sqDone := __src.sqDone, reported := __src.reported, cqTail := __src.cqTail, cqRead := BitVec.toNat (0 : BitVec 32) % 2 ^ rd (solver [aJob (1 : Byte) (0 : Byte) 0 true] none []) Reg.LSV_RINGCFG_CQLOG, sqHead := __src.sqHead, cjob := __src.cjob, handles := __src.handles, lastUse := __src.lastUse, useClock := __src.useClock, cancel := __src.cancel, mbx := __src.mbx, mbxNew := __src.mbxNew, flop := __src.flop, cyc := __src.cyc : LsvSt }, mte := (solver [aJob (1 : Byte) (0 : Byte) 0 true] none []).mte, fct := (solver [aJob (1 : Byte) (0 : Byte) 0 true] none []).fct, fbc := (solver [aJob (1 : Byte) (0 : Byte) 0 true] none []).fbc, npc := (solver [aJob (1 : Byte) (0 : Byte) 0 true] none []).npc, rdu := (solver [aJob (1 : Byte) (0 : Byte) 0 true] none []).rdu, csc := (solver [aJob (1 : Byte) (0 : Byte) 0 true] none []).csc, nvs := (solver [aJob (1 : Byte) (0 : Byte) 0 true] none []).nvs, evr := (solver [aJob (1 : Byte) (0 : Byte) 0 true] none []).evr, hmx := (solver [aJob (1 : Byte) (0 : Byte) 0 true] none []).hmx, recvs := (solver [aJob (1 : Byte) (0 : Byte) 0 true] none []).recvs, out := (solver [aJob (1 : Byte) (0 : Byte) 0 true] none []).out, free := (solver [aJob (1 : Byte) (0 : Byte) 0 true] none []).free, pending := (solver [aJob (1 : Byte) (0 : Byte) 0 true] none []).pending : State } ∧
    descBad (aDesc (2 : Byte) (3 : Byte) (0 : Byte)) = false ∧
    (solver [aJob (1 : Byte) (0 : Byte) 0 true] none []).lsv.held.length < 64 ∧
    tilesUp (solver [aJob (1 : Byte) (0 : Byte) 0 true] none []) ≠ 0 ∧
    lsvRuns (solver [aJob (7 : Byte) (0 : Byte) 3 false] none []) = true ∧
    ((solver [aJob (7 : Byte) (0 : Byte) 3 false] none []).lsv.held.any fun x => x.running) = false ∧
    nextJob (solver [aJob (7 : Byte) (0 : Byte) 3 false] none []).lsv.held = some (aJob (7 : Byte) (0 : Byte) 3 false) ∧
    dKind (aJob (7 : Byte) (0 : Byte) 3 false).desc = 7 ∧
    dHandle (aJob (7 : Byte) (0 : Byte) 3 false).desc < 32 := by
  and_intros <;> decide +kernel

theorem witness_SolverJobs_2 :
    lsvRuns (solver [aJob (1 : Byte) (0 : Byte) 3 false, aJob (4 : Byte) (2 : Byte) 4 false] none []) = true ∧
    ((solver [aJob (1 : Byte) (0 : Byte) 3 false, aJob (4 : Byte) (2 : Byte) 4 false] none []).lsv.held.any fun x => x.running) = false ∧
    nextJob (solver [aJob (1 : Byte) (0 : Byte) 3 false, aJob (4 : Byte) (2 : Byte) 4 false] none []).lsv.held = some (aJob (4 : Byte) (2 : Byte) 4 false) ∧
    dKind (aJob (4 : Byte) (2 : Byte) 4 false).desc < 5 ∧
    loadLinear (solver [aJob (1 : Byte) (0 : Byte) 3 false, aJob (4 : Byte) (2 : Byte) 4 false] none []) noOperands (aJob (4 : Byte) (2 : Byte) 4 false).desc = (jobLoaded, loadedS) ∧
    operandsBad (aJob (4 : Byte) (2 : Byte) 4 false).desc [] jobLoaded (fingerprint (aJob (4 : Byte) (2 : Byte) 4 false).desc [] jobLoaded) = none ∧
    dUseH (aJob (4 : Byte) (2 : Byte) 4 false).desc = false ∧
    jobCols = jobStructs (aJob (4 : Byte) (2 : Byte) 4 false).desc [] jobLoaded (jobOrder (aJob (4 : Byte) (2 : Byte) 4 false).desc [] jobLoaded) ∧
    runningJob (solver [doneJob] none []) = some doneJob ∧
    (isQp doneJob.desc && xMember doneJob.ext) = false ∧
    doneJob.cancel = false ∧
    runTime (advance (solver [doneJob] none []) noWork.at_) doneJob < dBudget doneJob.desc ∧
    runningJob overdue = some (aJob (1 : Byte) (0 : Byte) 3 true) ∧
    dBudget (aJob (1 : Byte) (0 : Byte) 3 true).desc ≠ 0 ∧
    dBudget (aJob (1 : Byte) (0 : Byte) 3 true).desc ≤ runTime (advance overdue ((aJob (1 : Byte) (0 : Byte) 3 true).startNs + 40 * 1000)) (aJob (1 : Byte) (0 : Byte) 3 true) ∧
    rdB (solver [aJob (1 : Byte) (0 : Byte) 4 false] none [(Reg.LSV_CANCEL_LO_TAG, 0, 5)]) Reg.LSV_CANCELSTS_PEND = false ∧
    modeIs (solver [aJob (1 : Byte) (0 : Byte) 4 false] none [(Reg.LSV_CANCEL_LO_TAG, 0, 5)]) ≠ Mode.test ∧
    5 = rd (solver [aJob (1 : Byte) (0 : Byte) 4 false] none [(Reg.LSV_CANCEL_LO_TAG, 0, 5)]) Reg.LSV_CANCEL_LO_TAG + 2 ^ 32 * rd (solver [aJob (1 : Byte) (0 : Byte) 4 false] none [(Reg.LSV_CANCEL_LO_TAG, 0, 5)]) Reg.LSV_CANCEL_HI_TAG ∧
    (∀ j ∈ (solver [aJob (1 : Byte) (0 : Byte) 4 false] none [(Reg.LSV_CANCEL_LO_TAG, 0, 5)]).lsv.held, dTag j.desc = 5 → j.running = false) ∧
    rdB (solver [] none []) Reg.LSV_CANCELSTS_PEND = false ∧
    modeIs (solver [] none []) ≠ Mode.test ∧
    0 = rd (solver [] none []) Reg.LSV_CANCEL_LO_TAG + 2 ^ 32 * rd (solver [] none []) Reg.LSV_CANCEL_HI_TAG ∧
    (∀ j ∈ (solver [] none []).lsv.held, dTag j.desc = 0 → j.running = false) := by
  and_intros <;> decide +kernel

theorem witness_SolverJobs_3 :
    rdB (solver [aJob (1 : Byte) (0 : Byte) 4 true] none [(Reg.LSV_CANCEL_LO_TAG, 0, 5)]) Reg.LSV_CANCELSTS_PEND = false ∧
    modeIs (solver [aJob (1 : Byte) (0 : Byte) 4 true] none [(Reg.LSV_CANCEL_LO_TAG, 0, 5)]) ≠ Mode.test ∧
    5 = rd (solver [aJob (1 : Byte) (0 : Byte) 4 true] none [(Reg.LSV_CANCEL_LO_TAG, 0, 5)]) Reg.LSV_CANCEL_LO_TAG + 2 ^ 32 * rd (solver [aJob (1 : Byte) (0 : Byte) 4 true] none [(Reg.LSV_CANCEL_LO_TAG, 0, 5)]) Reg.LSV_CANCEL_HI_TAG ∧
    (solver [aJob (1 : Byte) (0 : Byte) 4 true] none [(Reg.LSV_CANCEL_LO_TAG, 0, 5)]).lsv.held = [aJob (1 : Byte) (0 : Byte) 4 true] ∧
    (aJob (1 : Byte) (0 : Byte) 4 true).running = true ∧
    dTag (aJob (1 : Byte) (0 : Byte) 4 true).desc = 5 := by
  and_intros <;> decide +kernel

theorem witness_SolverRingTilesSplit_1 :
    rdB ringOff Reg.LSV_RINGCFG_EN = false ∧
    ringOff.lsv.held = [] ∧
    BitVec.toNat (205 : BitVec 32) % 2 = 1 ∧
    6 = BitVec.toNat (205 : BitVec 32) / 2 % 16 ∧
    6 = BitVec.toNat (205 : BitVec 32) / 32 % 16 ∧
    6 ≤ 6 ∧
    6 ≤ 12 ∧
    rd64 ringOff Reg.LSV_SQBASE_LO_SQBASE Reg.LSV_SQBASE_HI_SQBASE % 4096 = 0 ∧
    rd64 ringOff Reg.LSV_CQBASE_LO_CQBASE Reg.LSV_CQBASE_HI_CQBASE % 4096 = 0 ∧
    rd64 ringOff Reg.LSV_CTLADDR_LO_CTLADDR Reg.LSV_CTLADDR_HI_CTLADDR % 64 = 0 ∧
    ringOff.hmx.left[4] = none ∧
    BitVec.toNat (409 : BitVec 32) % 2 = 1 ∧
    12 = BitVec.toNat (409 : BitVec 32) / 2 % 16 ∧
    12 = BitVec.toNat (409 : BitVec 32) / 32 % 16 ∧
    12 ≤ 12 ∧
    BitVec.toNat (397 : BitVec 32) % 2 = 1 ∧
    6 = BitVec.toNat (397 : BitVec 32) / 2 % 16 ∧
    12 = BitVec.toNat (397 : BitVec 32) / 32 % 16 ∧
    rd (inMode Mode.active []) Reg.LSV_TILESTS_MSTATE (15 : Fin 16).val = mstateCode MState.inService ∧
    WindowRuns (inMode Mode.active []) { cls := FClass.solver, idx := (15 : Fin 16).val : Resource } ∧
    rd (inMode Mode.active []) Reg.LSV_TILESTS_MSTATE (0 : Fin 16).val = mstateCode MState.inService ∧
    WindowRuns (inMode Mode.active []) { cls := FClass.solver, idx := (0 : Fin 16).val : Resource } ∧
    rd (solver [aJob (1 : Byte) (0 : Byte) 3 true] none []) Reg.LSV_TILESTS_MSTATE (15 : Fin 16).val = mstateCode MState.inService ∧
    WindowRuns (solver [aJob (1 : Byte) (0 : Byte) 3 true] none []) { cls := FClass.solver, idx := (15 : Fin 16).val : Resource } := by
  and_intros <;> decide +kernel

theorem witness_SolverRingTilesSplit_2 :
    rd (solver [newlyJob] none []) Reg.LSV_TILESTS_MSTATE (15 : Fin 16).val = mstateCode MState.inService ∧
    WindowRuns (solver [newlyJob] none []) { cls := FClass.solver, idx := (15 : Fin 16).val : Resource } ∧
    rd corrected Reg.LSV_TILESTS_MSTATE (15 : Fin 16).val = mstateCode MState.inService ∧
    WindowRuns corrected { cls := FClass.solver, idx := (15 : Fin 16).val : Resource } ∧
    3584 = BitVec.toNat (4193792 : BitVec 32) % 4096 ∧
    1023 = BitVec.toNat (4193792 : BitVec 32) / 4096 % 1024 ∧
    rdB (inMode Mode.active []) Reg.LSV_RINGCFG_EN = false ∧
    rd (inMode Mode.active []) Reg.LSV_QSTS_DEPTH = 0 ∧
    3584 ≤ 3584 ∧
    3584 % 64 = 0 ∧
    0 = BitVec.toNat (0 : BitVec 32) % 4096 ∧
    0 = BitVec.toNat (0 : BitVec 32) / 4096 % 1024 ∧
    0 ≤ 3584 ∧
    0 % 64 = 0 ∧
    3648 = BitVec.toNat (3648 : BitVec 32) % 4096 ∧
    0 = BitVec.toNat (3648 : BitVec 32) / 4096 % 1024 ∧
    3584 < 3648 ∧
    32 = BitVec.toNat (32 : BitVec 32) % 4096 ∧
    0 = BitVec.toNat (32 : BitVec 32) / 4096 % 1024 ∧
    32 % 64 ≠ 0 ∧
    rdB (solver [] none []) Reg.LSV_RINGCFG_EN = true ∧
    rd (inMode Mode.halt [(Reg.LSV_QSTS_DEPTH, 0, 1)]) Reg.LSV_QSTS_DEPTH ≠ 0 := by
  and_intros <;> decide +kernel

theorem witness_PartitionedSolve_1 :
    (clTake (solver [] none []) (1 : Fin 4) (aHead false Mode.active (9 : BitVec 32) 5) false).2 = false ∧
    (clTake (inTree (solver [] none [])) (1 : Fin 4) (aHead false Mode.active (9 : BitVec 32) 5) false).2 = true ∧
    { member := (2 : Fin 8), side := false : CAddr } ≠ myAddr (inTree (solver [] none [])) ∧
    { member := (2 : Fin 8), side := false : CAddr }.member ≠ (0 : Fin 8) ∧
    CplFrame.finish 32 1 = CplFrame.finish (BitVec.toNat (32 : BitVec 8)) (BitVec.toNat (1 : BitVec 8)) ∧
    clTake (inTree (solver [] none [])) (1 : Fin 4) (aHead false Mode.active (9 : BitVec 32) 5) false = ((clTake (inTree (solver [] none [])) (1 : Fin 4) (aHead false Mode.active (9 : BitVec 32) 5) false).1, true) ∧
    { member := (0 : Fin 8), side := false : CAddr } = myAddr (inTree (solver [] none [])) ∧
    (inTree (solver [] none [])).lsv.cjob = none ∧
    clTake (inTree (solver [aPart] (some (aCoord (254 : BitVec 8) [(1 : Fin 8)] true 1 [])) [])) (1 : Fin 4) (aHead false Mode.active (9 : BitVec 32) 5) false = ((clTake (inTree (solver [aPart] (some (aCoord (254 : BitVec 8) [(1 : Fin 8)] true 1 [])) [])) (1 : Fin 4) (aHead false Mode.active (9 : BitVec 32) 5) false).1, true) ∧
    { member := (0 : Fin 8), side := false : CAddr } = myAddr (inTree (solver [aPart] (some (aCoord (254 : BitVec 8) [(1 : Fin 8)] true 1 [])) [])) ∧
    (inTree (solver [aPart] (some (aCoord (254 : BitVec 8) [(1 : Fin 8)] true 1 [])) [])).lsv.cjob = some (aCoord (254 : BitVec 8) [(1 : Fin 8)] true 1 []) ∧
    (aCoord (254 : BitVec 8) [(1 : Fin 8)] true 1 []).cjob ≠ (8 : BitVec 32) ∧
    { member := (7 : Fin 8), side := true : CAddr }.side ≠ partSide (inTree (solver [aPart] (some (aCoord (254 : BitVec 8) [(1 : Fin 8)] true 1 [])) [])) ∧
    clTake (inTree (solver [aPart] (some (aCoord (254 : BitVec 8) [(1 : Fin 8)] false 1 [])) [])) (1 : Fin 4) (aHead false Mode.active (9 : BitVec 32) 5) false = ((clTake (inTree (solver [aPart] (some (aCoord (254 : BitVec 8) [(1 : Fin 8)] false 1 [])) [])) (1 : Fin 4) (aHead false Mode.active (9 : BitVec 32) 5) false).1, true) ∧
    { member := (0 : Fin 8), side := false : CAddr } = myAddr (inTree (solver [aPart] (some (aCoord (254 : BitVec 8) [(1 : Fin 8)] false 1 [])) [])) ∧
    (inTree (solver [aPart] (some (aCoord (254 : BitVec 8) [(1 : Fin 8)] false 1 [])) [])).lsv.cjob = some (aCoord (254 : BitVec 8) [(1 : Fin 8)] false 1 []) ∧
    (aCoord (254 : BitVec 8) [(1 : Fin 8)] false 1 []).open_ = false ∧
    (aCoord (254 : BitVec 8) [(1 : Fin 8)] true 1 []).cjob = (7 : BitVec 32) ∧
    { member := (7 : Fin 8), side := false : CAddr }.side = partSide (inTree (solver [aPart] (some (aCoord (254 : BitVec 8) [(1 : Fin 8)] true 1 [])) [])) ∧
    (aCoord (254 : BitVec 8) [(1 : Fin 8)] true 1 []).open_ = true ∧
    (aCoord (254 : BitVec 8) [(1 : Fin 8)] true 1 []).ncpl = 4 ∧
    (aCoord (254 : BitVec 8) [(1 : Fin 8)] true 1 []).got.length ≤ (aCoord (254 : BitVec 8) [(1 : Fin 8)] true 1 []).joined.length := by
  and_intros <;> decide +kernel

theorem witness_PartitionedSolve_2 :
    clTake (inTree (solver [aPart] (some (aCoord (6 : BitVec 8) [(1 : Fin 8)] true 1 [])) [])) (1 : Fin 4) (aHead false Mode.active (9 : BitVec 32) 5) false = ((clTake (inTree (solver [aPart] (some (aCoord (6 : BitVec 8) [(1 : Fin 8)] true 1 [])) [])) (1 : Fin 4) (aHead false Mode.active (9 : BitVec 32) 5) false).1, true) ∧
    { member := (0 : Fin 8), side := false : CAddr } = myAddr (inTree (solver [aPart] (some (aCoord (6 : BitVec 8) [(1 : Fin 8)] true 1 [])) [])) ∧
    (inTree (solver [aPart] (some (aCoord (6 : BitVec 8) [(1 : Fin 8)] true 1 [])) [])).lsv.cjob = some (aCoord (6 : BitVec 8) [(1 : Fin 8)] true 1 []) ∧
    (aCoord (6 : BitVec 8) [(1 : Fin 8)] true 1 []).cjob = (7 : BitVec 32) ∧
    { member := (2 : Fin 8), side := false : CAddr }.side = partSide (inTree (solver [aPart] (some (aCoord (6 : BitVec 8) [(1 : Fin 8)] true 1 [])) [])) ∧
    (aCoord (6 : BitVec 8) [(1 : Fin 8)] true 1 []).open_ = true ∧
    (aCoord (6 : BitVec 8) [(1 : Fin 8)] true 1 []).ncpl = 4 ∧
    (aCoord (6 : BitVec 8) [(1 : Fin 8)] true 1 []).got.length ≤ (aCoord (6 : BitVec 8) [(1 : Fin 8)] true 1 []).joined.length ∧
    clTake (inTree (solver [aPart] (some (aCoord (254 : BitVec 8) [(1 : Fin 8)] true 1 [])) [])) (1 : Fin 4) (aHead false Mode.active (9 : BitVec 32) 5) false = ((clTake (inTree (solver [aPart] (some (aCoord (254 : BitVec 8) [(1 : Fin 8)] true 1 [])) [])) (1 : Fin 4) (aHead false Mode.active (9 : BitVec 32) 5) false).1, true) ∧
    { member := (0 : Fin 8), side := false : CAddr } = myAddr (inTree (solver [aPart] (some (aCoord (254 : BitVec 8) [(1 : Fin 8)] true 1 [])) [])) ∧
    (inTree (solver [aPart] (some (aCoord (254 : BitVec 8) [(1 : Fin 8)] true 1 [])) [])).lsv.cjob = some (aCoord (254 : BitVec 8) [(1 : Fin 8)] true 1 []) ∧
    (aCoord (254 : BitVec 8) [(1 : Fin 8)] true 1 []).cjob = (7 : BitVec 32) ∧
    { member := (7 : Fin 8), side := false : CAddr }.side = partSide (inTree (solver [aPart] (some (aCoord (254 : BitVec 8) [(1 : Fin 8)] true 1 [])) [])) ∧
    (aCoord (254 : BitVec 8) [(1 : Fin 8)] true 1 []).open_ = true ∧
    (aCoord (254 : BitVec 8) [(1 : Fin 8)] true 1 []).ncpl ≠ 5 ∧
    clTake (inTree (solver [aPart] (some (aCoord (6 : BitVec 8) [(1 : Fin 8), (2 : Fin 8)] false 1 [])) [])) (1 : Fin 4) (aHead false Mode.active (9 : BitVec 32) 5) false = ((clTake (inTree (solver [aPart] (some (aCoord (6 : BitVec 8) [(1 : Fin 8), (2 : Fin 8)] false 1 [])) [])) (1 : Fin 4) (aHead false Mode.active (9 : BitVec 32) 5) false).1, true) ∧
    { member := (0 : Fin 8), side := false : CAddr } = myAddr (inTree (solver [aPart] (some (aCoord (6 : BitVec 8) [(1 : Fin 8), (2 : Fin 8)] false 1 [])) [])) ∧
    (inTree (solver [aPart] (some (aCoord (6 : BitVec 8) [(1 : Fin 8), (2 : Fin 8)] false 1 [])) [])).lsv.cjob = some (aCoord (6 : BitVec 8) [(1 : Fin 8), (2 : Fin 8)] false 1 []) ∧
    (aCoord (6 : BitVec 8) [(1 : Fin 8), (2 : Fin 8)] false 1 []).open_ = false ∧
    { member := (2 : Fin 8), side := false : CAddr }.member ∈ (aCoord (6 : BitVec 8) [(1 : Fin 8), (2 : Fin 8)] false 1 []).joined ∧
    (∀ g ∈ (aCoord (6 : BitVec 8) [(1 : Fin 8), (2 : Fin 8)] false 1 []).got, g.member ≠ { member := (2 : Fin 8), side := false : CAddr }.member) ∧
    (aCoord (6 : BitVec 8) [(1 : Fin 8), (2 : Fin 8)] false 1 []).step = 1 ∧
    (aCoord (6 : BitVec 8) [(1 : Fin 8), (2 : Fin 8)] false 1 []).got.length < (aCoord (6 : BitVec 8) [(1 : Fin 8), (2 : Fin 8)] false 1 []).joined.length := by
  and_intros <;> decide +kernel

theorem witness_PartitionedSolve_3 :
    clTake (inTree (solver [aMember] (some (aCoord (6 : BitVec 8) [(1 : Fin 8), (2 : Fin 8)] false 1 [{ member := (0 : Fin 8), vals := [(3 : Word)] : PartMsg }, { member := (1 : Fin 8), vals := [(9 : Word)] : PartMsg }])) [])) (1 : Fin 4) (aHead false Mode.active (9 : BitVec 32) 5) false = ((clTake (inTree (solver [aMember] (some (aCoord (6 : BitVec 8) [(1 : Fin 8), (2 : Fin 8)] false 1 [{ member := (0 : Fin 8), vals := [(3 : Word)] : PartMsg }, { member := (1 : Fin 8), vals := [(9 : Word)] : PartMsg }])) [])) (1 : Fin 4) (aHead false Mode.active (9 : BitVec 32) 5) false).1, true) ∧
    { member := (0 : Fin 8), side := false : CAddr } = myAddr (inTree (solver [aMember] (some (aCoord (6 : BitVec 8) [(1 : Fin 8), (2 : Fin 8)] false 1 [{ member := (0 : Fin 8), vals := [(3 : Word)] : PartMsg }, { member := (1 : Fin 8), vals := [(9 : Word)] : PartMsg }])) [])) ∧
    (inTree (solver [aMember] (some (aCoord (6 : BitVec 8) [(1 : Fin 8), (2 : Fin 8)] false 1 [{ member := (0 : Fin 8), vals := [(3 : Word)] : PartMsg }, { member := (1 : Fin 8), vals := [(9 : Word)] : PartMsg }])) [])).lsv.cjob = some (aCoord (6 : BitVec 8) [(1 : Fin 8), (2 : Fin 8)] false 1 [{ member := (0 : Fin 8), vals := [(3 : Word)] : PartMsg }, { member := (1 : Fin 8), vals := [(9 : Word)] : PartMsg }]) ∧
    (aCoord (6 : BitVec 8) [(1 : Fin 8), (2 : Fin 8)] false 1 [{ member := (0 : Fin 8), vals := [(3 : Word)] : PartMsg }, { member := (1 : Fin 8), vals := [(9 : Word)] : PartMsg }]).open_ = false ∧
    { member := (2 : Fin 8), side := false : CAddr }.member ∈ (aCoord (6 : BitVec 8) [(1 : Fin 8), (2 : Fin 8)] false 1 [{ member := (0 : Fin 8), vals := [(3 : Word)] : PartMsg }, { member := (1 : Fin 8), vals := [(9 : Word)] : PartMsg }]).joined ∧
    (∀ g ∈ (aCoord (6 : BitVec 8) [(1 : Fin 8), (2 : Fin 8)] false 1 [{ member := (0 : Fin 8), vals := [(3 : Word)] : PartMsg }, { member := (1 : Fin 8), vals := [(9 : Word)] : PartMsg }]).got, g.member ≠ { member := (2 : Fin 8), side := false : CAddr }.member) ∧
    (aCoord (6 : BitVec 8) [(1 : Fin 8), (2 : Fin 8)] false 1 [{ member := (0 : Fin 8), vals := [(3 : Word)] : PartMsg }, { member := (1 : Fin 8), vals := [(9 : Word)] : PartMsg }]).step = 1 ∧
    (aCoord (6 : BitVec 8) [(1 : Fin 8), (2 : Fin 8)] false 1 [{ member := (0 : Fin 8), vals := [(3 : Word)] : PartMsg }, { member := (1 : Fin 8), vals := [(9 : Word)] : PartMsg }]).joined.length ≤ (aCoord (6 : BitVec 8) [(1 : Fin 8), (2 : Fin 8)] false 1 [{ member := (0 : Fin 8), vals := [(3 : Word)] : PartMsg }, { member := (1 : Fin 8), vals := [(9 : Word)] : PartMsg }]).got.length ∧
    runningJob (inTree (solver [aMember] (some (aCoord (6 : BitVec 8) [(1 : Fin 8), (2 : Fin 8)] false 1 [{ member := (0 : Fin 8), vals := [(3 : Word)] : PartMsg }, { member := (1 : Fin 8), vals := [(9 : Word)] : PartMsg }])) [])) = some aMember ∧
    aMember.kept = some (qpFrom (jobRed aPart) aPart) ∧
    aMember.failed = none ∧
    clTake (inTree (solver [aPart] (some (aCoord (6 : BitVec 8) [(1 : Fin 8), (2 : Fin 8)] false 2 [])) [])) (1 : Fin 4) (aHead false Mode.active (9 : BitVec 32) 5) false = ((clTake (inTree (solver [aPart] (some (aCoord (6 : BitVec 8) [(1 : Fin 8), (2 : Fin 8)] false 2 [])) [])) (1 : Fin 4) (aHead false Mode.active (9 : BitVec 32) 5) false).1, true) ∧
    { member := (0 : Fin 8), side := false : CAddr } = myAddr (inTree (solver [aPart] (some (aCoord (6 : BitVec 8) [(1 : Fin 8), (2 : Fin 8)] false 2 [])) [])) ∧
    (inTree (solver [aPart] (some (aCoord (6 : BitVec 8) [(1 : Fin 8), (2 : Fin 8)] false 2 [])) [])).lsv.cjob = some (aCoord (6 : BitVec 8) [(1 : Fin 8), (2 : Fin 8)] false 2 []) ∧
    (aCoord (6 : BitVec 8) [(1 : Fin 8), (2 : Fin 8)] false 2 []).open_ = false ∧
    { member := (2 : Fin 8), side := false : CAddr }.member ∈ (aCoord (6 : BitVec 8) [(1 : Fin 8), (2 : Fin 8)] false 2 []).joined ∧
    (∀ g ∈ (aCoord (6 : BitVec 8) [(1 : Fin 8), (2 : Fin 8)] false 2 []).got, g.member ≠ { member := (2 : Fin 8), side := false : CAddr }.member) ∧
    (aCoord (6 : BitVec 8) [(1 : Fin 8), (2 : Fin 8)] false 2 []).step = 2 ∧
    (aCoord (6 : BitVec 8) [(1 : Fin 8), (2 : Fin 8)] false 2 []).got.length < (aCoord (6 : BitVec 8) [(1 : Fin 8), (2 : Fin 8)] false 2 []).joined.length := by
  and_intros <;> decide +kernel

theorem witness_PartitionedSolve_4 :
    clTake (inTree (solver [aMember] (some (aCoord (6 : BitVec 8) [(1 : Fin 8), (2 : Fin 8)] false 2 [{ member := (0 : Fin 8), vals := [(3 : Word)] : PartMsg }, { member := (1 : Fin 8), vals := [(9 : Word)] : PartMsg }])) [])) (1 : Fin 4) (aHead false Mode.active (9 : BitVec 32) 5) false = ((clTake (inTree (solver [aMember] (some (aCoord (6 : BitVec 8) [(1 : Fin 8), (2 : Fin 8)] false 2 [{ member := (0 : Fin 8), vals := [(3 : Word)] : PartMsg }, { member := (1 : Fin 8), vals := [(9 : Word)] : PartMsg }])) [])) (1 : Fin 4) (aHead false Mode.active (9 : BitVec 32) 5) false).1, true) ∧
    { member := (0 : Fin 8), side := false : CAddr } = myAddr (inTree (solver [aMember] (some (aCoord (6 : BitVec 8) [(1 : Fin 8), (2 : Fin 8)] false 2 [{ member := (0 : Fin 8), vals := [(3 : Word)] : PartMsg }, { member := (1 : Fin 8), vals := [(9 : Word)] : PartMsg }])) [])) ∧
    (inTree (solver [aMember] (some (aCoord (6 : BitVec 8) [(1 : Fin 8), (2 : Fin 8)] false 2 [{ member := (0 : Fin 8), vals := [(3 : Word)] : PartMsg }, { member := (1 : Fin 8), vals := [(9 : Word)] : PartMsg }])) [])).lsv.cjob = some (aCoord (6 : BitVec 8) [(1 : Fin 8), (2 : Fin 8)] false 2 [{ member := (0 : Fin 8), vals := [(3 : Word)] : PartMsg }, { member := (1 : Fin 8), vals := [(9 : Word)] : PartMsg }]) ∧
    (aCoord (6 : BitVec 8) [(1 : Fin 8), (2 : Fin 8)] false 2 [{ member := (0 : Fin 8), vals := [(3 : Word)] : PartMsg }, { member := (1 : Fin 8), vals := [(9 : Word)] : PartMsg }]).open_ = false ∧
    { member := (2 : Fin 8), side := false : CAddr }.member ∈ (aCoord (6 : BitVec 8) [(1 : Fin 8), (2 : Fin 8)] false 2 [{ member := (0 : Fin 8), vals := [(3 : Word)] : PartMsg }, { member := (1 : Fin 8), vals := [(9 : Word)] : PartMsg }]).joined ∧
    (∀ g ∈ (aCoord (6 : BitVec 8) [(1 : Fin 8), (2 : Fin 8)] false 2 [{ member := (0 : Fin 8), vals := [(3 : Word)] : PartMsg }, { member := (1 : Fin 8), vals := [(9 : Word)] : PartMsg }]).got, g.member ≠ { member := (2 : Fin 8), side := false : CAddr }.member) ∧
    (aCoord (6 : BitVec 8) [(1 : Fin 8), (2 : Fin 8)] false 2 [{ member := (0 : Fin 8), vals := [(3 : Word)] : PartMsg }, { member := (1 : Fin 8), vals := [(9 : Word)] : PartMsg }]).step = 2 ∧
    (aCoord (6 : BitVec 8) [(1 : Fin 8), (2 : Fin 8)] false 2 [{ member := (0 : Fin 8), vals := [(3 : Word)] : PartMsg }, { member := (1 : Fin 8), vals := [(9 : Word)] : PartMsg }]).joined.length ≤ (aCoord (6 : BitVec 8) [(1 : Fin 8), (2 : Fin 8)] false 2 [{ member := (0 : Fin 8), vals := [(3 : Word)] : PartMsg }, { member := (1 : Fin 8), vals := [(9 : Word)] : PartMsg }]).got.length ∧
    runningJob (inTree (solver [aMember] (some (aCoord (6 : BitVec 8) [(1 : Fin 8), (2 : Fin 8)] false 2 [{ member := (0 : Fin 8), vals := [(3 : Word)] : PartMsg }, { member := (1 : Fin 8), vals := [(9 : Word)] : PartMsg }])) [])) = some aMember ∧
    aMember.kept = some (qpFrom (jobRed aPart) aPart) ∧
    aMember.failed = none ∧
    clTake (inTree (solver [aPart] (some (aCoord (6 : BitVec 8) [(1 : Fin 8), (2 : Fin 8)] false 4 [])) [])) (1 : Fin 4) (aHead false Mode.active (9 : BitVec 32) 5) false = ((clTake (inTree (solver [aPart] (some (aCoord (6 : BitVec 8) [(1 : Fin 8), (2 : Fin 8)] false 4 [])) [])) (1 : Fin 4) (aHead false Mode.active (9 : BitVec 32) 5) false).1, true) ∧
    { member := (0 : Fin 8), side := false : CAddr } = myAddr (inTree (solver [aPart] (some (aCoord (6 : BitVec 8) [(1 : Fin 8), (2 : Fin 8)] false 4 [])) [])) ∧
    (inTree (solver [aPart] (some (aCoord (6 : BitVec 8) [(1 : Fin 8), (2 : Fin 8)] false 4 [])) [])).lsv.cjob = some (aCoord (6 : BitVec 8) [(1 : Fin 8), (2 : Fin 8)] false 4 []) ∧
    (aCoord (6 : BitVec 8) [(1 : Fin 8), (2 : Fin 8)] false 4 []).open_ = false ∧
    { member := (2 : Fin 8), side := false : CAddr }.member ∈ (aCoord (6 : BitVec 8) [(1 : Fin 8), (2 : Fin 8)] false 4 []).joined ∧
    (∀ g ∈ (aCoord (6 : BitVec 8) [(1 : Fin 8), (2 : Fin 8)] false 4 []).got, g.member ≠ { member := (2 : Fin 8), side := false : CAddr }.member) ∧
    (aCoord (6 : BitVec 8) [(1 : Fin 8), (2 : Fin 8)] false 4 []).step = 4 ∧
    (aCoord (6 : BitVec 8) [(1 : Fin 8), (2 : Fin 8)] false 4 []).got.length < (aCoord (6 : BitVec 8) [(1 : Fin 8), (2 : Fin 8)] false 4 []).joined.length := by
  and_intros <;> decide +kernel

theorem witness_PartitionedSolve_5 :
    clTake (inTree (solver [aMember] (some (aCoord (6 : BitVec 8) [(1 : Fin 8), (2 : Fin 8)] false 4 [{ member := (0 : Fin 8), vals := [(3 : Word)] : PartMsg }, { member := (1 : Fin 8), vals := [(9 : Word)] : PartMsg }])) [])) (1 : Fin 4) (aHead false Mode.active (9 : BitVec 32) 5) false = ((clTake (inTree (solver [aMember] (some (aCoord (6 : BitVec 8) [(1 : Fin 8), (2 : Fin 8)] false 4 [{ member := (0 : Fin 8), vals := [(3 : Word)] : PartMsg }, { member := (1 : Fin 8), vals := [(9 : Word)] : PartMsg }])) [])) (1 : Fin 4) (aHead false Mode.active (9 : BitVec 32) 5) false).1, true) ∧
    { member := (0 : Fin 8), side := false : CAddr } = myAddr (inTree (solver [aMember] (some (aCoord (6 : BitVec 8) [(1 : Fin 8), (2 : Fin 8)] false 4 [{ member := (0 : Fin 8), vals := [(3 : Word)] : PartMsg }, { member := (1 : Fin 8), vals := [(9 : Word)] : PartMsg }])) [])) ∧
    (inTree (solver [aMember] (some (aCoord (6 : BitVec 8) [(1 : Fin 8), (2 : Fin 8)] false 4 [{ member := (0 : Fin 8), vals := [(3 : Word)] : PartMsg }, { member := (1 : Fin 8), vals := [(9 : Word)] : PartMsg }])) [])).lsv.cjob = some (aCoord (6 : BitVec 8) [(1 : Fin 8), (2 : Fin 8)] false 4 [{ member := (0 : Fin 8), vals := [(3 : Word)] : PartMsg }, { member := (1 : Fin 8), vals := [(9 : Word)] : PartMsg }]) ∧
    (aCoord (6 : BitVec 8) [(1 : Fin 8), (2 : Fin 8)] false 4 [{ member := (0 : Fin 8), vals := [(3 : Word)] : PartMsg }, { member := (1 : Fin 8), vals := [(9 : Word)] : PartMsg }]).open_ = false ∧
    { member := (2 : Fin 8), side := false : CAddr }.member ∈ (aCoord (6 : BitVec 8) [(1 : Fin 8), (2 : Fin 8)] false 4 [{ member := (0 : Fin 8), vals := [(3 : Word)] : PartMsg }, { member := (1 : Fin 8), vals := [(9 : Word)] : PartMsg }]).joined ∧
    (∀ g ∈ (aCoord (6 : BitVec 8) [(1 : Fin 8), (2 : Fin 8)] false 4 [{ member := (0 : Fin 8), vals := [(3 : Word)] : PartMsg }, { member := (1 : Fin 8), vals := [(9 : Word)] : PartMsg }]).got, g.member ≠ { member := (2 : Fin 8), side := false : CAddr }.member) ∧
    (aCoord (6 : BitVec 8) [(1 : Fin 8), (2 : Fin 8)] false 4 [{ member := (0 : Fin 8), vals := [(3 : Word)] : PartMsg }, { member := (1 : Fin 8), vals := [(9 : Word)] : PartMsg }]).step = 4 ∧
    (aCoord (6 : BitVec 8) [(1 : Fin 8), (2 : Fin 8)] false 4 [{ member := (0 : Fin 8), vals := [(3 : Word)] : PartMsg }, { member := (1 : Fin 8), vals := [(9 : Word)] : PartMsg }]).joined.length ≤ (aCoord (6 : BitVec 8) [(1 : Fin 8), (2 : Fin 8)] false 4 [{ member := (0 : Fin 8), vals := [(3 : Word)] : PartMsg }, { member := (1 : Fin 8), vals := [(9 : Word)] : PartMsg }]).got.length ∧
    runningJob (inTree (solver [aMember] (some (aCoord (6 : BitVec 8) [(1 : Fin 8), (2 : Fin 8)] false 4 [{ member := (0 : Fin 8), vals := [(3 : Word)] : PartMsg }, { member := (1 : Fin 8), vals := [(9 : Word)] : PartMsg }])) [])) = some aMember ∧
    aMember.kept = some (qpFrom (jobRed aPart) aPart) ∧
    aMember.failed = none ∧
    clTake (inTree (solver [aPart] (some (aCoord (6 : BitVec 8) [(1 : Fin 8), (2 : Fin 8)] false 3 [])) [])) (1 : Fin 4) (aHead false Mode.active (9 : BitVec 32) 5) false = ((clTake (inTree (solver [aPart] (some (aCoord (6 : BitVec 8) [(1 : Fin 8), (2 : Fin 8)] false 3 [])) [])) (1 : Fin 4) (aHead false Mode.active (9 : BitVec 32) 5) false).1, true) ∧
    { member := (0 : Fin 8), side := false : CAddr } = myAddr (inTree (solver [aPart] (some (aCoord (6 : BitVec 8) [(1 : Fin 8), (2 : Fin 8)] false 3 [])) [])) ∧
    (inTree (solver [aPart] (some (aCoord (6 : BitVec 8) [(1 : Fin 8), (2 : Fin 8)] false 3 [])) [])).lsv.cjob = some (aCoord (6 : BitVec 8) [(1 : Fin 8), (2 : Fin 8)] false 3 []) ∧
    (aCoord (6 : BitVec 8) [(1 : Fin 8), (2 : Fin 8)] false 3 []).open_ = false ∧
    { member := (2 : Fin 8), side := false : CAddr }.member ∈ (aCoord (6 : BitVec 8) [(1 : Fin 8), (2 : Fin 8)] false 3 []).joined ∧
    (∀ g ∈ (aCoord (6 : BitVec 8) [(1 : Fin 8), (2 : Fin 8)] false 3 []).got, g.member ≠ { member := (2 : Fin 8), side := false : CAddr }.member) ∧
    (aCoord (6 : BitVec 8) [(1 : Fin 8), (2 : Fin 8)] false 3 []).step = 3 ∧
    (aCoord (6 : BitVec 8) [(1 : Fin 8), (2 : Fin 8)] false 3 []).got.length < (aCoord (6 : BitVec 8) [(1 : Fin 8), (2 : Fin 8)] false 3 []).joined.length := by
  and_intros <;> decide +kernel

theorem witness_PartitionedSolve_6 :
    clTake (inTree (solver [aMember] (some (aCoord (6 : BitVec 8) [(1 : Fin 8), (2 : Fin 8)] false 3 [{ member := (0 : Fin 8), vals := [(3 : Word)] : PartMsg }, { member := (1 : Fin 8), vals := [(9 : Word)] : PartMsg }])) [])) (1 : Fin 4) (aHead false Mode.active (9 : BitVec 32) 5) false = ((clTake (inTree (solver [aMember] (some (aCoord (6 : BitVec 8) [(1 : Fin 8), (2 : Fin 8)] false 3 [{ member := (0 : Fin 8), vals := [(3 : Word)] : PartMsg }, { member := (1 : Fin 8), vals := [(9 : Word)] : PartMsg }])) [])) (1 : Fin 4) (aHead false Mode.active (9 : BitVec 32) 5) false).1, true) ∧
    { member := (0 : Fin 8), side := false : CAddr } = myAddr (inTree (solver [aMember] (some (aCoord (6 : BitVec 8) [(1 : Fin 8), (2 : Fin 8)] false 3 [{ member := (0 : Fin 8), vals := [(3 : Word)] : PartMsg }, { member := (1 : Fin 8), vals := [(9 : Word)] : PartMsg }])) [])) ∧
    (inTree (solver [aMember] (some (aCoord (6 : BitVec 8) [(1 : Fin 8), (2 : Fin 8)] false 3 [{ member := (0 : Fin 8), vals := [(3 : Word)] : PartMsg }, { member := (1 : Fin 8), vals := [(9 : Word)] : PartMsg }])) [])).lsv.cjob = some (aCoord (6 : BitVec 8) [(1 : Fin 8), (2 : Fin 8)] false 3 [{ member := (0 : Fin 8), vals := [(3 : Word)] : PartMsg }, { member := (1 : Fin 8), vals := [(9 : Word)] : PartMsg }]) ∧
    (aCoord (6 : BitVec 8) [(1 : Fin 8), (2 : Fin 8)] false 3 [{ member := (0 : Fin 8), vals := [(3 : Word)] : PartMsg }, { member := (1 : Fin 8), vals := [(9 : Word)] : PartMsg }]).open_ = false ∧
    { member := (2 : Fin 8), side := false : CAddr }.member ∈ (aCoord (6 : BitVec 8) [(1 : Fin 8), (2 : Fin 8)] false 3 [{ member := (0 : Fin 8), vals := [(3 : Word)] : PartMsg }, { member := (1 : Fin 8), vals := [(9 : Word)] : PartMsg }]).joined ∧
    (∀ g ∈ (aCoord (6 : BitVec 8) [(1 : Fin 8), (2 : Fin 8)] false 3 [{ member := (0 : Fin 8), vals := [(3 : Word)] : PartMsg }, { member := (1 : Fin 8), vals := [(9 : Word)] : PartMsg }]).got, g.member ≠ { member := (2 : Fin 8), side := false : CAddr }.member) ∧
    (aCoord (6 : BitVec 8) [(1 : Fin 8), (2 : Fin 8)] false 3 [{ member := (0 : Fin 8), vals := [(3 : Word)] : PartMsg }, { member := (1 : Fin 8), vals := [(9 : Word)] : PartMsg }]).step = 3 ∧
    (aCoord (6 : BitVec 8) [(1 : Fin 8), (2 : Fin 8)] false 3 [{ member := (0 : Fin 8), vals := [(3 : Word)] : PartMsg }, { member := (1 : Fin 8), vals := [(9 : Word)] : PartMsg }]).joined.length ≤ (aCoord (6 : BitVec 8) [(1 : Fin 8), (2 : Fin 8)] false 3 [{ member := (0 : Fin 8), vals := [(3 : Word)] : PartMsg }, { member := (1 : Fin 8), vals := [(9 : Word)] : PartMsg }]).got.length ∧
    runningJob (inTree (solver [aMember] (some (aCoord (6 : BitVec 8) [(1 : Fin 8), (2 : Fin 8)] false 3 [{ member := (0 : Fin 8), vals := [(3 : Word)] : PartMsg }, { member := (1 : Fin 8), vals := [(9 : Word)] : PartMsg }])) [])) = some aMember ∧
    aMember.kept = some (qpFrom (jobRed aPart) aPart) ∧
    aMember.failed = none ∧
    clTake (inTree (solver [aPart] (some (aCoord (6 : BitVec 8) [(1 : Fin 8), (2 : Fin 8)] false 5 [])) [])) (1 : Fin 4) (aHead false Mode.active (9 : BitVec 32) 5) false = ((clTake (inTree (solver [aPart] (some (aCoord (6 : BitVec 8) [(1 : Fin 8), (2 : Fin 8)] false 5 [])) [])) (1 : Fin 4) (aHead false Mode.active (9 : BitVec 32) 5) false).1, true) ∧
    { member := (0 : Fin 8), side := false : CAddr } = myAddr (inTree (solver [aPart] (some (aCoord (6 : BitVec 8) [(1 : Fin 8), (2 : Fin 8)] false 5 [])) [])) ∧
    (inTree (solver [aPart] (some (aCoord (6 : BitVec 8) [(1 : Fin 8), (2 : Fin 8)] false 5 [])) [])).lsv.cjob = some (aCoord (6 : BitVec 8) [(1 : Fin 8), (2 : Fin 8)] false 5 []) ∧
    (aCoord (6 : BitVec 8) [(1 : Fin 8), (2 : Fin 8)] false 5 []).open_ = false ∧
    { member := (2 : Fin 8), side := false : CAddr }.member ∈ (aCoord (6 : BitVec 8) [(1 : Fin 8), (2 : Fin 8)] false 5 []).joined ∧
    (∀ g ∈ (aCoord (6 : BitVec 8) [(1 : Fin 8), (2 : Fin 8)] false 5 []).got, g.member ≠ { member := (2 : Fin 8), side := false : CAddr }.member) ∧
    (aCoord (6 : BitVec 8) [(1 : Fin 8), (2 : Fin 8)] false 5 []).step = 5 ∧
    (aCoord (6 : BitVec 8) [(1 : Fin 8), (2 : Fin 8)] false 5 []).got.length < (aCoord (6 : BitVec 8) [(1 : Fin 8), (2 : Fin 8)] false 5 []).joined.length := by
  and_intros <;> decide +kernel

theorem witness_PartitionedSolve_7 :
    clTake (inTree (solver [aMember] (some (aCoord (6 : BitVec 8) [(1 : Fin 8), (2 : Fin 8)] false 5 [{ member := (0 : Fin 8), vals := [(3 : Word)] : PartMsg }, { member := (1 : Fin 8), vals := [(9 : Word)] : PartMsg }])) [])) (1 : Fin 4) (aHead false Mode.active (9 : BitVec 32) 5) false = ((clTake (inTree (solver [aMember] (some (aCoord (6 : BitVec 8) [(1 : Fin 8), (2 : Fin 8)] false 5 [{ member := (0 : Fin 8), vals := [(3 : Word)] : PartMsg }, { member := (1 : Fin 8), vals := [(9 : Word)] : PartMsg }])) [])) (1 : Fin 4) (aHead false Mode.active (9 : BitVec 32) 5) false).1, true) ∧
    { member := (0 : Fin 8), side := false : CAddr } = myAddr (inTree (solver [aMember] (some (aCoord (6 : BitVec 8) [(1 : Fin 8), (2 : Fin 8)] false 5 [{ member := (0 : Fin 8), vals := [(3 : Word)] : PartMsg }, { member := (1 : Fin 8), vals := [(9 : Word)] : PartMsg }])) [])) ∧
    (inTree (solver [aMember] (some (aCoord (6 : BitVec 8) [(1 : Fin 8), (2 : Fin 8)] false 5 [{ member := (0 : Fin 8), vals := [(3 : Word)] : PartMsg }, { member := (1 : Fin 8), vals := [(9 : Word)] : PartMsg }])) [])).lsv.cjob = some (aCoord (6 : BitVec 8) [(1 : Fin 8), (2 : Fin 8)] false 5 [{ member := (0 : Fin 8), vals := [(3 : Word)] : PartMsg }, { member := (1 : Fin 8), vals := [(9 : Word)] : PartMsg }]) ∧
    (aCoord (6 : BitVec 8) [(1 : Fin 8), (2 : Fin 8)] false 5 [{ member := (0 : Fin 8), vals := [(3 : Word)] : PartMsg }, { member := (1 : Fin 8), vals := [(9 : Word)] : PartMsg }]).open_ = false ∧
    { member := (2 : Fin 8), side := false : CAddr }.member ∈ (aCoord (6 : BitVec 8) [(1 : Fin 8), (2 : Fin 8)] false 5 [{ member := (0 : Fin 8), vals := [(3 : Word)] : PartMsg }, { member := (1 : Fin 8), vals := [(9 : Word)] : PartMsg }]).joined ∧
    (∀ g ∈ (aCoord (6 : BitVec 8) [(1 : Fin 8), (2 : Fin 8)] false 5 [{ member := (0 : Fin 8), vals := [(3 : Word)] : PartMsg }, { member := (1 : Fin 8), vals := [(9 : Word)] : PartMsg }]).got, g.member ≠ { member := (2 : Fin 8), side := false : CAddr }.member) ∧
    (aCoord (6 : BitVec 8) [(1 : Fin 8), (2 : Fin 8)] false 5 [{ member := (0 : Fin 8), vals := [(3 : Word)] : PartMsg }, { member := (1 : Fin 8), vals := [(9 : Word)] : PartMsg }]).step = 5 ∧
    (aCoord (6 : BitVec 8) [(1 : Fin 8), (2 : Fin 8)] false 5 [{ member := (0 : Fin 8), vals := [(3 : Word)] : PartMsg }, { member := (1 : Fin 8), vals := [(9 : Word)] : PartMsg }]).joined.length ≤ (aCoord (6 : BitVec 8) [(1 : Fin 8), (2 : Fin 8)] false 5 [{ member := (0 : Fin 8), vals := [(3 : Word)] : PartMsg }, { member := (1 : Fin 8), vals := [(9 : Word)] : PartMsg }]).got.length ∧
    runningJob (inTree (solver [aMember] (some (aCoord (6 : BitVec 8) [(1 : Fin 8), (2 : Fin 8)] false 5 [{ member := (0 : Fin 8), vals := [(3 : Word)] : PartMsg }, { member := (1 : Fin 8), vals := [(9 : Word)] : PartMsg }])) [])) = some aMember ∧
    aMember.kept = some (qpFrom (jobRed aPart) aPart) ∧
    aMember.failed = none ∧
    clTake (inTree (solver [aPart] none [])) (1 : Fin 4) (aHead false Mode.active (9 : BitVec 32) 5) false = ((clTake (inTree (solver [aPart] none [])) (1 : Fin 4) (aHead false Mode.active (9 : BitVec 32) 5) false).1, true) ∧
    { member := (0 : Fin 8), side := false : CAddr } = myAddr (inTree (solver [aPart] none [])) ∧
    memberPart (inTree (solver [aPart] none [])) = some aPart ∧
    aPart.cancel = false ∧
    runTime (advance (inTree (solver [aPart] none [])) noWork.at_) aPart < dBudget aPart.desc ∧
    clTake (inTree (solver [aPart] (some (aCoord (6 : BitVec 8) [(1 : Fin 8), (2 : Fin 8)] false 1 [])) [])) (1 : Fin 4) (aHead false Mode.active (9 : BitVec 32) 5) false = ((clTake (inTree (solver [aPart] (some (aCoord (6 : BitVec 8) [(1 : Fin 8), (2 : Fin 8)] false 1 [])) [])) (1 : Fin 4) (aHead false Mode.active (9 : BitVec 32) 5) false).1, true) ∧
    { member := (0 : Fin 8), side := false : CAddr } = myAddr (inTree (solver [aPart] (some (aCoord (6 : BitVec 8) [(1 : Fin 8), (2 : Fin 8)] false 1 [])) [])) ∧
    (inTree (solver [aPart] (some (aCoord (6 : BitVec 8) [(1 : Fin 8), (2 : Fin 8)] false 1 [])) [])).lsv.cjob = some (aCoord (6 : BitVec 8) [(1 : Fin 8), (2 : Fin 8)] false 1 []) ∧
    { member := (2 : Fin 8), side := false : CAddr }.member ∈ (aCoord (6 : BitVec 8) [(1 : Fin 8), (2 : Fin 8)] false 1 []).joined := by
  and_intros <;> decide +kernel

theorem witness_PartitionedSolve_8 :
    (inTree (solver [aPart] (some (aCoord (254 : BitVec 8) [(1 : Fin 8)] true 1 [])) [])).lsv.cjob = some (aCoord (254 : BitVec 8) [(1 : Fin 8)] true 1 []) ∧
    (aCoord (254 : BitVec 8) [(1 : Fin 8)] true 1 []).open_ = true ∧
    coordJob (inTree (solver [aPart] (some (aCoord (254 : BitVec 8) [(1 : Fin 8)] true 1 [])) [])) = some aPart ∧
    0 = aPart.waitFrom + xCplWait aPart.ext * 1000 ∧
    0 ≤ (advance (inTree (solver [aPart] (some (aCoord (254 : BitVec 8) [(1 : Fin 8)] true 1 [])) [])) 0).tb.now ∧
    memberPart (inTree (solver [aPart] none [])) = some aPart ∧
    0 ≤ (advance (inTree (solver [aPart] none [])) 0).tb.now := by
  and_intros <;> decide +kernel

theorem witness_Metering_1 :
    feedSample aFeeder aPath aSample = ((feedSample aFeeder aPath aSample).1, some 19984375) ∧
    aPath.from_ = some 5000 ∧
    (feedSample aFeeder aPath aSample).1.novolt = false ∧
    metering measured = true ∧
    feedCfg measured (31 : Fin 33).val = none ∧
    feedCfg measured (0 : Fin 33).val = some aFeeder ∧
    feedsOn measured (0 : Fin 33).val = true ∧
    chanState measured (0 : Fin 33).val ≠ MState.retired ∧
    takeBits measured ((0 : Fin 33).val) aFeeder { endNs := 0, bits := Vector.replicate 6 [] : CycleObs } = ((takeBits measured 0 aFeeder { endNs := 0, bits := Vector.replicate 6 [] : CycleObs }).1, (takeBits measured 0 aFeeder { endNs := 0, bits := Vector.replicate 6 [] : CycleObs }).2) ∧
    metering opened = true ∧
    (chanOf opened (0 : Fin 32).val).open_.isSome = true ∧
    rd measured Reg.MTE_INSTS_MSTATE (197 : Fin 198).val ≠ mstateCode MState.retired ∧
    rd measured Reg.MTE_INSTS_MSTATE (0 : Fin 198).val ≠ mstateCode MState.retired ∧
    rd measured Reg.MTE_BANKSTS_MSTATE (7 : Fin 8).val = mstateCode MState.inService ∧
    WindowRuns measured { cls := FClass.meter, idx := (7 : Fin 8).val : Resource } ∧
    pulseCfg measured (0 : Fin 32).val = some { en := true, deb := 4 : PulseCfg } ∧
    { en := true, deb := 4 : PulseCfg }.en = true ∧
    ({ en := true, deb := 4 : PulseCfg }.deb + 2) * 1000 ≤ 6000 ∧
    3999 < { en := true, deb := 4 : PulseCfg }.deb * 1000 ∧
    List.find? (fun w => formPair w.record aLatch) measured.mte.waiting = none ∧
    metering latchWaits = true ∧
    List.find? (fun w => formPair w.record aLatch) latchWaits.mte.waiting = some { record := aLatch, deltas := some [1, 2, 0, 0, 0, 0] : LatchWait } ∧
    List.find? (fun w => decide (recChan w.record = (0 : Fin 96).val)) latchWaits.mte.waiting = some { record := aLatch, deltas := some [1, 2, 0, 0, 0, 0] : LatchWait } ∧
    (256 = if paired latchWaits = true ∧ (modeOf (rd latchWaits Reg.RDU_STATUS_PMODE) = Mode.recall ∨ modeOf (rd latchWaits Reg.RDU_STATUS_PMODE) = Mode.test) then 0 else 256) := by
  and_intros <;> decide +kernel

theorem witness_Metering_2 :
    List.find? (fun w => decide (recChan w.record = (0 : Fin 96).val)) (withF latchWaits [(Reg.RDU_CHSTS_PAIRED, 0, 1), (Reg.RDU_STATUS_PMODE, 0, 5)]).mte.waiting = some { record := aLatch, deltas := some [1, 2, 0, 0, 0, 0] : LatchWait } ∧
    (256 = if paired (withF latchWaits [(Reg.RDU_CHSTS_PAIRED, 0, 1), (Reg.RDU_STATUS_PMODE, 0, 5)]) = true ∧ (modeOf (rd (withF latchWaits [(Reg.RDU_CHSTS_PAIRED, 0, 1), (Reg.RDU_STATUS_PMODE, 0, 5)]) Reg.RDU_STATUS_PMODE) = Mode.recall ∨ modeOf (rd (withF latchWaits [(Reg.RDU_CHSTS_PAIRED, 0, 1), (Reg.RDU_STATUS_PMODE, 0, 5)]) Reg.RDU_STATUS_PMODE) = Mode.test) then 0 else 256) ∧
    metering measured = true ∧
    modeIs measured ≠ Mode.save ∧
    measured.nvs.queue = [] ∧
    (writeRange measured (WriteWhat.record 48 (RecData.meter (meterRec measured 0)))).fits = true ∧
    recalling measured = false ∧
    measured.ssu.wave ≠ some 0 ∧
    (writeRange measured (WriteWhat.record 49 (RecData.beat (beatRec measured)))).fits = true ∧
    recalling storeWave = false ∧
    storeWave.ssu.wave = some 0 := by
  and_intros <;> decide +kernel

theorem witness_CalibrationCommands_1 :
    0 = rd measured Reg.MTE_CALCFG_FEEDER ∧
    rdB measured Reg.MTE_CALSTS_PEND = false ∧
    modeIs measured ≠ Mode.recall ∧
    modeIs measured ≠ Mode.test ∧
    modeIs measured ≠ Mode.save ∧
    feederCfg measured 0 = some aFeeder ∧
    aFeeder.en = true ∧
    0 < 32 ∧
    refFault measured = false ∧
    shadowWaits measured 0 = false ∧
    0 = rd (calUnder (calRun (0 : ℤ) 0) []) Reg.MTE_CALCFG_FEEDER ∧
    (calUnder (calRun (0 : ℤ) 0) []).mte.cal = some (calRun (0 : ℤ) 0) ∧
    calWriting (calUnder (calRun (0 : ℤ) 0) []) = false ∧
    0 = rd calLate Reg.MTE_CALCFG_FEEDER ∧
    calLate.mte.cal = some (calRun (0 : ℤ) 0) ∧
    calWriting calLate = true ∧
    0 = rd (calUnder (calRun (0 : ℤ) 0) [(Reg.MTE_CALCFG_W, 0, 6)]) Reg.MTE_CALCFG_FEEDER ∧
    (calUnder (calRun (0 : ℤ) 0) [(Reg.MTE_CALCFG_W, 0, 6)]).mte.cal = some (calRun (0 : ℤ) 0) ∧
    windowOver (calUnder (calRun (0 : ℤ) 0) [(Reg.MTE_CALCFG_W, 0, 6)]) (calRun (0 : ℤ) 0) = false := by
  and_intros <;> decide +kernel

theorem witness_CalibrationCommands_2 :
    0 = rd (calUnder (calRun (0 : ℤ) 0) [(Reg.MTE_CALSTS_STAGE, 0, 1), (Reg.MTE_CALCFG_W, 0, 1), (Reg.MTE_CALCFG_WMAX, 0, 10), (Reg.MTE_CALTOL_ACCG, 0, 200), (Reg.MTE_CALTOL_ACCP, 0, 50)]) Reg.MTE_CALCFG_FEEDER ∧
    (calUnder (calRun (0 : ℤ) 0) [(Reg.MTE_CALSTS_STAGE, 0, 1), (Reg.MTE_CALCFG_W, 0, 1), (Reg.MTE_CALCFG_WMAX, 0, 10), (Reg.MTE_CALTOL_ACCG, 0, 200), (Reg.MTE_CALTOL_ACCP, 0, 50)]).mte.cal = some (calRun (0 : ℤ) 0) ∧
    metering (calUnder (calRun (0 : ℤ) 0) [(Reg.MTE_CALSTS_STAGE, 0, 1), (Reg.MTE_CALCFG_W, 0, 1), (Reg.MTE_CALCFG_WMAX, 0, 10), (Reg.MTE_CALTOL_ACCG, 0, 200), (Reg.MTE_CALTOL_ACCP, 0, 50)]) = true ∧
    windowOver (calUnder (calRun (0 : ℤ) 0) [(Reg.MTE_CALSTS_STAGE, 0, 1), (Reg.MTE_CALCFG_W, 0, 1), (Reg.MTE_CALCFG_WMAX, 0, 10), (Reg.MTE_CALTOL_ACCG, 0, 200), (Reg.MTE_CALTOL_ACCP, 0, 50)]) (calRun (0 : ℤ) 0) = true ∧
    calBad (calRun (0 : ℤ) 0) = true ∧
    rd (calUnder (calRun (0 : ℤ) 0) [(Reg.MTE_CALSTS_STAGE, 0, 1), (Reg.MTE_CALCFG_W, 0, 1), (Reg.MTE_CALCFG_WMAX, 0, 10), (Reg.MTE_CALTOL_ACCG, 0, 200), (Reg.MTE_CALTOL_ACCP, 0, 50)]) Reg.MTE_CALSTS_STAGE = 1 ∧
    0 = rd (calUnder (calRun (0 : ℤ) 0) [(Reg.MTE_CALSTS_STAGE, 0, 2), (Reg.MTE_CALCFG_W, 0, 1), (Reg.MTE_CALCFG_WMAX, 0, 10), (Reg.MTE_CALTOL_ACCG, 0, 200), (Reg.MTE_CALTOL_ACCP, 0, 50)]) Reg.MTE_CALCFG_FEEDER ∧
    (calUnder (calRun (0 : ℤ) 0) [(Reg.MTE_CALSTS_STAGE, 0, 2), (Reg.MTE_CALCFG_W, 0, 1), (Reg.MTE_CALCFG_WMAX, 0, 10), (Reg.MTE_CALTOL_ACCG, 0, 200), (Reg.MTE_CALTOL_ACCP, 0, 50)]).mte.cal = some (calRun (0 : ℤ) 0) ∧
    metering (calUnder (calRun (0 : ℤ) 0) [(Reg.MTE_CALSTS_STAGE, 0, 2), (Reg.MTE_CALCFG_W, 0, 1), (Reg.MTE_CALCFG_WMAX, 0, 10), (Reg.MTE_CALTOL_ACCG, 0, 200), (Reg.MTE_CALTOL_ACCP, 0, 50)]) = true ∧
    windowOver (calUnder (calRun (0 : ℤ) 0) [(Reg.MTE_CALSTS_STAGE, 0, 2), (Reg.MTE_CALCFG_W, 0, 1), (Reg.MTE_CALCFG_WMAX, 0, 10), (Reg.MTE_CALTOL_ACCG, 0, 200), (Reg.MTE_CALTOL_ACCP, 0, 50)]) (calRun (0 : ℤ) 0) = true ∧
    rd (calUnder (calRun (0 : ℤ) 0) [(Reg.MTE_CALSTS_STAGE, 0, 2), (Reg.MTE_CALCFG_W, 0, 1), (Reg.MTE_CALCFG_WMAX, 0, 10), (Reg.MTE_CALTOL_ACCG, 0, 200), (Reg.MTE_CALTOL_ACCP, 0, 50)]) Reg.MTE_CALSTS_STAGE = 2 ∧
    0 = rd (calUnder (calRun (0 : ℤ) 1) [(Reg.MTE_CALSTS_STAGE, 0, 1), (Reg.MTE_CALCFG_W, 0, 1), (Reg.MTE_CALCFG_WMAX, 0, 10), (Reg.MTE_CALTOL_ACCG, 0, 200), (Reg.MTE_CALTOL_ACCP, 0, 50)]) Reg.MTE_CALCFG_FEEDER ∧
    (calUnder (calRun (0 : ℤ) 1) [(Reg.MTE_CALSTS_STAGE, 0, 1), (Reg.MTE_CALCFG_W, 0, 1), (Reg.MTE_CALCFG_WMAX, 0, 10), (Reg.MTE_CALTOL_ACCG, 0, 200), (Reg.MTE_CALTOL_ACCP, 0, 50)]).mte.cal = some (calRun (0 : ℤ) 1) ∧
    metering (calUnder (calRun (0 : ℤ) 1) [(Reg.MTE_CALSTS_STAGE, 0, 1), (Reg.MTE_CALCFG_W, 0, 1), (Reg.MTE_CALCFG_WMAX, 0, 10), (Reg.MTE_CALTOL_ACCG, 0, 200), (Reg.MTE_CALTOL_ACCP, 0, 50)]) = true ∧
    windowOver (calUnder (calRun (0 : ℤ) 1) [(Reg.MTE_CALSTS_STAGE, 0, 1), (Reg.MTE_CALCFG_W, 0, 1), (Reg.MTE_CALCFG_WMAX, 0, 10), (Reg.MTE_CALTOL_ACCG, 0, 200), (Reg.MTE_CALTOL_ACCP, 0, 50)]) (calRun (0 : ℤ) 1) = true ∧
    calBad (calRun (0 : ℤ) 1) = true ∧
    rd (calUnder (calRun (0 : ℤ) 1) [(Reg.MTE_CALSTS_STAGE, 0, 1), (Reg.MTE_CALCFG_W, 0, 1), (Reg.MTE_CALCFG_WMAX, 0, 10), (Reg.MTE_CALTOL_ACCG, 0, 200), (Reg.MTE_CALTOL_ACCP, 0, 50)]) Reg.MTE_CALSTS_STAGE = 1 ∧
    0 = rd (calUnder (calRun (0 : ℤ) 1) [(Reg.MTE_CALSTS_STAGE, 0, 2), (Reg.MTE_CALCFG_W, 0, 1), (Reg.MTE_CALCFG_WMAX, 0, 10), (Reg.MTE_CALTOL_ACCG, 0, 200), (Reg.MTE_CALTOL_ACCP, 0, 50)]) Reg.MTE_CALCFG_FEEDER ∧
    (calUnder (calRun (0 : ℤ) 1) [(Reg.MTE_CALSTS_STAGE, 0, 2), (Reg.MTE_CALCFG_W, 0, 1), (Reg.MTE_CALCFG_WMAX, 0, 10), (Reg.MTE_CALTOL_ACCG, 0, 200), (Reg.MTE_CALTOL_ACCP, 0, 50)]).mte.cal = some (calRun (0 : ℤ) 1) ∧
    metering (calUnder (calRun (0 : ℤ) 1) [(Reg.MTE_CALSTS_STAGE, 0, 2), (Reg.MTE_CALCFG_W, 0, 1), (Reg.MTE_CALCFG_WMAX, 0, 10), (Reg.MTE_CALTOL_ACCG, 0, 200), (Reg.MTE_CALTOL_ACCP, 0, 50)]) = true ∧
    windowOver (calUnder (calRun (0 : ℤ) 1) [(Reg.MTE_CALSTS_STAGE, 0, 2), (Reg.MTE_CALCFG_W, 0, 1), (Reg.MTE_CALCFG_WMAX, 0, 10), (Reg.MTE_CALTOL_ACCG, 0, 200), (Reg.MTE_CALTOL_ACCP, 0, 50)]) (calRun (0 : ℤ) 1) = true ∧
    rd (calUnder (calRun (0 : ℤ) 1) [(Reg.MTE_CALSTS_STAGE, 0, 2), (Reg.MTE_CALCFG_W, 0, 1), (Reg.MTE_CALCFG_WMAX, 0, 10), (Reg.MTE_CALTOL_ACCG, 0, 200), (Reg.MTE_CALTOL_ACCP, 0, 50)]) Reg.MTE_CALSTS_STAGE = 2 := by
  and_intros <;> decide +kernel

theorem witness_CalibrationCommands_3 :
    0 = rd (calUnder (calRun (0 : ℤ) 2) [(Reg.MTE_CALSTS_STAGE, 0, 1), (Reg.MTE_CALCFG_W, 0, 1), (Reg.MTE_CALCFG_WMAX, 0, 10), (Reg.MTE_CALTOL_ACCG, 0, 200), (Reg.MTE_CALTOL_ACCP, 0, 50)]) Reg.MTE_CALCFG_FEEDER ∧
    (calUnder (calRun (0 : ℤ) 2) [(Reg.MTE_CALSTS_STAGE, 0, 1), (Reg.MTE_CALCFG_W, 0, 1), (Reg.MTE_CALCFG_WMAX, 0, 10), (Reg.MTE_CALTOL_ACCG, 0, 200), (Reg.MTE_CALTOL_ACCP, 0, 50)]).mte.cal = some (calRun (0 : ℤ) 2) ∧
    metering (calUnder (calRun (0 : ℤ) 2) [(Reg.MTE_CALSTS_STAGE, 0, 1), (Reg.MTE_CALCFG_W, 0, 1), (Reg.MTE_CALCFG_WMAX, 0, 10), (Reg.MTE_CALTOL_ACCG, 0, 200), (Reg.MTE_CALTOL_ACCP, 0, 50)]) = true ∧
    windowOver (calUnder (calRun (0 : ℤ) 2) [(Reg.MTE_CALSTS_STAGE, 0, 1), (Reg.MTE_CALCFG_W, 0, 1), (Reg.MTE_CALCFG_WMAX, 0, 10), (Reg.MTE_CALTOL_ACCG, 0, 200), (Reg.MTE_CALTOL_ACCP, 0, 50)]) (calRun (0 : ℤ) 2) = true ∧
    calBad (calRun (0 : ℤ) 2) = true ∧
    rd (calUnder (calRun (0 : ℤ) 2) [(Reg.MTE_CALSTS_STAGE, 0, 1), (Reg.MTE_CALCFG_W, 0, 1), (Reg.MTE_CALCFG_WMAX, 0, 10), (Reg.MTE_CALTOL_ACCG, 0, 200), (Reg.MTE_CALTOL_ACCP, 0, 50)]) Reg.MTE_CALSTS_STAGE = 1 ∧
    0 = rd (calUnder (calRun (0 : ℤ) 2) [(Reg.MTE_CALSTS_STAGE, 0, 2), (Reg.MTE_CALCFG_W, 0, 1), (Reg.MTE_CALCFG_WMAX, 0, 10), (Reg.MTE_CALTOL_ACCG, 0, 200), (Reg.MTE_CALTOL_ACCP, 0, 50)]) Reg.MTE_CALCFG_FEEDER ∧
    (calUnder (calRun (0 : ℤ) 2) [(Reg.MTE_CALSTS_STAGE, 0, 2), (Reg.MTE_CALCFG_W, 0, 1), (Reg.MTE_CALCFG_WMAX, 0, 10), (Reg.MTE_CALTOL_ACCG, 0, 200), (Reg.MTE_CALTOL_ACCP, 0, 50)]).mte.cal = some (calRun (0 : ℤ) 2) ∧
    metering (calUnder (calRun (0 : ℤ) 2) [(Reg.MTE_CALSTS_STAGE, 0, 2), (Reg.MTE_CALCFG_W, 0, 1), (Reg.MTE_CALCFG_WMAX, 0, 10), (Reg.MTE_CALTOL_ACCG, 0, 200), (Reg.MTE_CALTOL_ACCP, 0, 50)]) = true ∧
    windowOver (calUnder (calRun (0 : ℤ) 2) [(Reg.MTE_CALSTS_STAGE, 0, 2), (Reg.MTE_CALCFG_W, 0, 1), (Reg.MTE_CALCFG_WMAX, 0, 10), (Reg.MTE_CALTOL_ACCG, 0, 200), (Reg.MTE_CALTOL_ACCP, 0, 50)]) (calRun (0 : ℤ) 2) = true ∧
    rd (calUnder (calRun (0 : ℤ) 2) [(Reg.MTE_CALSTS_STAGE, 0, 2), (Reg.MTE_CALCFG_W, 0, 1), (Reg.MTE_CALCFG_WMAX, 0, 10), (Reg.MTE_CALTOL_ACCG, 0, 200), (Reg.MTE_CALTOL_ACCP, 0, 50)]) Reg.MTE_CALSTS_STAGE = 2 ∧
    0 = rd (calUnder (calRun (1073741824 : ℤ) 2) [(Reg.MTE_CALSTS_STAGE, 0, 1), (Reg.MTE_CALCFG_W, 0, 1), (Reg.MTE_CALCFG_WMAX, 0, 10), (Reg.MTE_CALTOL_ACCG, 0, 200), (Reg.MTE_CALTOL_ACCP, 0, 50)]) Reg.MTE_CALCFG_FEEDER ∧
    (calUnder (calRun (1073741824 : ℤ) 2) [(Reg.MTE_CALSTS_STAGE, 0, 1), (Reg.MTE_CALCFG_W, 0, 1), (Reg.MTE_CALCFG_WMAX, 0, 10), (Reg.MTE_CALTOL_ACCG, 0, 200), (Reg.MTE_CALTOL_ACCP, 0, 50)]).mte.cal = some (calRun (1073741824 : ℤ) 2) ∧
    metering (calUnder (calRun (1073741824 : ℤ) 2) [(Reg.MTE_CALSTS_STAGE, 0, 1), (Reg.MTE_CALCFG_W, 0, 1), (Reg.MTE_CALCFG_WMAX, 0, 10), (Reg.MTE_CALTOL_ACCG, 0, 200), (Reg.MTE_CALTOL_ACCP, 0, 50)]) = true ∧
    windowOver (calUnder (calRun (1073741824 : ℤ) 2) [(Reg.MTE_CALSTS_STAGE, 0, 1), (Reg.MTE_CALCFG_W, 0, 1), (Reg.MTE_CALCFG_WMAX, 0, 10), (Reg.MTE_CALTOL_ACCG, 0, 200), (Reg.MTE_CALTOL_ACCP, 0, 50)]) (calRun (1073741824 : ℤ) 2) = true ∧
    calBad (calRun (1073741824 : ℤ) 2) = false ∧
    rd (calUnder (calRun (1073741824 : ℤ) 2) [(Reg.MTE_CALSTS_STAGE, 0, 1), (Reg.MTE_CALCFG_W, 0, 1), (Reg.MTE_CALCFG_WMAX, 0, 10), (Reg.MTE_CALTOL_ACCG, 0, 200), (Reg.MTE_CALTOL_ACCP, 0, 50)]) Reg.MTE_CALSTS_STAGE = 1 ∧
    (calRun (1073741824 : ℤ) 2).prev = [] ∧
    rd (calUnder (calRun (1073741824 : ℤ) 2) [(Reg.MTE_CALSTS_STAGE, 0, 1), (Reg.MTE_CALCFG_W, 0, 1), (Reg.MTE_CALCFG_WMAX, 0, 10), (Reg.MTE_CALTOL_ACCG, 0, 200), (Reg.MTE_CALTOL_ACCP, 0, 50)]) Reg.MTE_CALSTS_WIN + 1 < rd (calUnder (calRun (1073741824 : ℤ) 2) [(Reg.MTE_CALSTS_STAGE, 0, 1), (Reg.MTE_CALCFG_W, 0, 1), (Reg.MTE_CALCFG_WMAX, 0, 10), (Reg.MTE_CALTOL_ACCG, 0, 200), (Reg.MTE_CALTOL_ACCP, 0, 50)]) Reg.MTE_CALCFG_WMAX := by
  and_intros <;> decide +kernel

theorem witness_CalibrationCommands_4 :
    0 = rd (calUnder (calRun (1073741824 : ℤ) 2) [(Reg.MTE_CALSTS_STAGE, 0, 2), (Reg.MTE_CALCFG_W, 0, 1), (Reg.MTE_CALCFG_WMAX, 0, 10), (Reg.MTE_CALTOL_ACCG, 0, 200), (Reg.MTE_CALTOL_ACCP, 0, 50)]) Reg.MTE_CALCFG_FEEDER ∧
    (calUnder (calRun (1073741824 : ℤ) 2) [(Reg.MTE_CALSTS_STAGE, 0, 2), (Reg.MTE_CALCFG_W, 0, 1), (Reg.MTE_CALCFG_WMAX, 0, 10), (Reg.MTE_CALTOL_ACCG, 0, 200), (Reg.MTE_CALTOL_ACCP, 0, 50)]).mte.cal = some (calRun (1073741824 : ℤ) 2) ∧
    metering (calUnder (calRun (1073741824 : ℤ) 2) [(Reg.MTE_CALSTS_STAGE, 0, 2), (Reg.MTE_CALCFG_W, 0, 1), (Reg.MTE_CALCFG_WMAX, 0, 10), (Reg.MTE_CALTOL_ACCG, 0, 200), (Reg.MTE_CALTOL_ACCP, 0, 50)]) = true ∧
    windowOver (calUnder (calRun (1073741824 : ℤ) 2) [(Reg.MTE_CALSTS_STAGE, 0, 2), (Reg.MTE_CALCFG_W, 0, 1), (Reg.MTE_CALCFG_WMAX, 0, 10), (Reg.MTE_CALTOL_ACCG, 0, 200), (Reg.MTE_CALTOL_ACCP, 0, 50)]) (calRun (1073741824 : ℤ) 2) = true ∧
    calBad (calRun (1073741824 : ℤ) 2) = false ∧
    rd (calUnder (calRun (1073741824 : ℤ) 2) [(Reg.MTE_CALSTS_STAGE, 0, 2), (Reg.MTE_CALCFG_W, 0, 1), (Reg.MTE_CALCFG_WMAX, 0, 10), (Reg.MTE_CALTOL_ACCG, 0, 200), (Reg.MTE_CALTOL_ACCP, 0, 50)]) Reg.MTE_CALSTS_STAGE = 2 ∧
    (calUnder (calRun (1073741824 : ℤ) 2) [(Reg.MTE_CALSTS_STAGE, 0, 2), (Reg.MTE_CALCFG_W, 0, 1), (Reg.MTE_CALCFG_WMAX, 0, 10), (Reg.MTE_CALTOL_ACCG, 0, 200), (Reg.MTE_CALTOL_ACCP, 0, 50)]).nvs.queue = [] ∧
    (writeRange (calUnder (calRun (1073741824 : ℤ) 2) [(Reg.MTE_CALSTS_STAGE, 0, 2), (Reg.MTE_CALCFG_W, 0, 1), (Reg.MTE_CALCFG_WMAX, 0, 10), (Reg.MTE_CALTOL_ACCG, 0, 200), (Reg.MTE_CALTOL_ACCP, 0, 50)]) (WriteWhat.record 32 (calRecord (calUnder (calRun (1073741824 : ℤ) 2) [(Reg.MTE_CALSTS_STAGE, 0, 2), (Reg.MTE_CALCFG_W, 0, 1), (Reg.MTE_CALCFG_WMAX, 0, 10), (Reg.MTE_CALTOL_ACCG, 0, 200), (Reg.MTE_CALTOL_ACCP, 0, 50)]) (calSets (calUnder (calRun (1073741824 : ℤ) 2) [(Reg.MTE_CALSTS_STAGE, 0, 2), (Reg.MTE_CALCFG_W, 0, 1), (Reg.MTE_CALCFG_WMAX, 0, 10), (Reg.MTE_CALTOL_ACCG, 0, 200), (Reg.MTE_CALTOL_ACCP, 0, 50)]))))).fits = true ∧
    0 = rd (inMode Mode.halt [(Reg.MTE_CALWR2_INPUT, 0, 191)]) Reg.MTE_CALCFG_FEEDER ∧
    rdB (inMode Mode.halt [(Reg.MTE_CALWR2_INPUT, 0, 191)]) Reg.MTE_CALSTS_PEND = false ∧
    modeIs (inMode Mode.halt [(Reg.MTE_CALWR2_INPUT, 0, 191)]) = Mode.halt ∧
    191 = rd (inMode Mode.halt [(Reg.MTE_CALWR2_INPUT, 0, 191)]) Reg.MTE_CALWR2_INPUT ∧
    (191 < 192 → shadowWaits (inMode Mode.halt [(Reg.MTE_CALWR2_INPUT, 0, 191)]) (191 / 6 : ℕ) = false) ∧
    (inMode Mode.halt [(Reg.MTE_CALWR2_INPUT, 0, 191)]).nvs.queue = [] ∧
    (writeRange { flds := (inMode Mode.halt [(Reg.MTE_CALWR2_INPUT, 0, 191)]).flds, tb := (inMode Mode.halt [(Reg.MTE_CALWR2_INPUT, 0, 191)]).tb, rtc := (inMode Mode.halt [(Reg.MTE_CALWR2_INPUT, 0, 191)]).rtc, ssu := (inMode Mode.halt [(Reg.MTE_CALWR2_INPUT, 0, 191)]).ssu, csa := (inMode Mode.halt [(Reg.MTE_CALWR2_INPUT, 0, 191)]).csa, lpe := (inMode Mode.halt [(Reg.MTE_CALWR2_INPUT, 0, 191)]).lpe, lsv := (inMode Mode.halt [(Reg.MTE_CALWR2_INPUT, 0, 191)]).lsv, mte := have __src := (inMode Mode.halt [(Reg.MTE_CALWR2_INPUT, 0, 191)]).mte; { chans := __src.chans, pulses := __src.pulses, feeds := __src.feeds, restartNs := __src.restartNs, active := __src.active, shadow := __src.shadow, shadowPend := __src.shadowPend, waiting := __src.waiting, partner := __src.partner, staging := __src.staging, cal := __src.cal, calPut := [(191, { gain := BitVec.ofNat 32 (rd (inMode Mode.halt [(Reg.MTE_CALWR2_INPUT, 0, 191)]) Reg.MTE_CALWR0_GAIN), offset := BitVec.ofNat 32 (rd (inMode Mode.halt [(Reg.MTE_CALWR2_INPUT, 0, 191)]) Reg.MTE_CALWR1_OFFSET), phase := BitVec.ofNat 16 (rd (inMode Mode.halt [(Reg.MTE_CALWR2_INPUT, 0, 191)]) Reg.MTE_CALWR2_PHASE) : CoefSet })], calWait := __src.calWait, beatDue := __src.beatDue, found := __src.found : MteSt }, fct := (inMode Mode.halt [(Reg.MTE_CALWR2_INPUT, 0, 191)]).fct, fbc := (inMode Mode.halt [(Reg.MTE_CALWR2_INPUT, 0, 191)]).fbc, npc := (inMode Mode.halt [(Reg.MTE_CALWR2_INPUT, 0, 191)]).npc, rdu := (inMode Mode.halt [(Reg.MTE_CALWR2_INPUT, 0, 191)]).rdu, csc := (inMode Mode.halt [(Reg.MTE_CALWR2_INPUT, 0, 191)]).csc, nvs := (inMode Mode.halt [(Reg.MTE_CALWR2_INPUT, 0, 191)]).nvs, evr := (inMode Mode.halt [(Reg.MTE_CALWR2_INPUT, 0, 191)]).evr, hmx := (inMode Mode.halt [(Reg.MTE_CALWR2_INPUT, 0, 191)]).hmx, recvs := (inMode Mode.halt [(Reg.MTE_CALWR2_INPUT, 0, 191)]).recvs, out := (inMode Mode.halt [(Reg.MTE_CALWR2_INPUT, 0, 191)]).out, free := (inMode Mode.halt [(Reg.MTE_CALWR2_INPUT, 0, 191)]).free, pending := (inMode Mode.halt [(Reg.MTE_CALWR2_INPUT, 0, 191)]).pending : State } (WriteWhat.record 32 (calRecord { flds := (inMode Mode.halt [(Reg.MTE_CALWR2_INPUT, 0, 191)]).flds, tb := (inMode Mode.halt [(Reg.MTE_CALWR2_INPUT, 0, 191)]).tb, rtc := (inMode Mode.halt [(Reg.MTE_CALWR2_INPUT, 0, 191)]).rtc, ssu := (inMode Mode.halt [(Reg.MTE_CALWR2_INPUT, 0, 191)]).ssu, csa := (inMode Mode.halt [(Reg.MTE_CALWR2_INPUT, 0, 191)]).csa, lpe := (inMode Mode.halt [(Reg.MTE_CALWR2_INPUT, 0, 191)]).lpe, lsv := (inMode Mode.halt [(Reg.MTE_CALWR2_INPUT, 0, 191)]).lsv, mte := have __src := (inMode Mode.halt [(Reg.MTE_CALWR2_INPUT, 0, 191)]).mte; { chans := __src.chans, pulses := __src.pulses, feeds := __src.feeds, restartNs := __src.restartNs, active := __src.active, shadow := __src.shadow, shadowPend := __src.shadowPend, waiting := __src.waiting, partner := __src.partner, staging := __src.staging, cal := __src.cal, calPut := [(191, { gain := BitVec.ofNat 32 (rd (inMode Mode.halt [(Reg.MTE_CALWR2_INPUT, 0, 191)]) Reg.MTE_CALWR0_GAIN), offset := BitVec.ofNat 32 (rd (inMode Mode.halt [(Reg.MTE_CALWR2_INPUT, 0, 191)]) Reg.MTE_CALWR1_OFFSET), phase := BitVec.ofNat 16 (rd (inMode Mode.halt [(Reg.MTE_CALWR2_INPUT, 0, 191)]) Reg.MTE_CALWR2_PHASE) : CoefSet })], calWait := __src.calWait, beatDue := __src.beatDue, found := __src.found : MteSt }, fct := (inMode Mode.halt [(Reg.MTE_CALWR2_INPUT, 0, 191)]).fct, fbc := (inMode Mode.halt [(Reg.MTE_CALWR2_INPUT, 0, 191)]).fbc, npc := (inMode Mode.halt [(Reg.MTE_CALWR2_INPUT, 0, 191)]).npc, rdu := (inMode Mode.halt [(Reg.MTE_CALWR2_INPUT, 0, 191)]).rdu, csc := (inMode Mode.halt [(Reg.MTE_CALWR2_INPUT, 0, 191)]).csc, nvs := (inMode Mode.halt [(Reg.MTE_CALWR2_INPUT, 0, 191)]).nvs, evr := (inMode Mode.halt [(Reg.MTE_CALWR2_INPUT, 0, 191)]).evr, hmx := (inMode Mode.halt [(Reg.MTE_CALWR2_INPUT, 0, 191)]).hmx, recvs := (inMode Mode.halt [(Reg.MTE_CALWR2_INPUT, 0, 191)]).recvs, out := (inMode Mode.halt [(Reg.MTE_CALWR2_INPUT, 0, 191)]).out, free := (inMode Mode.halt [(Reg.MTE_CALWR2_INPUT, 0, 191)]).free, pending := (inMode Mode.halt [(Reg.MTE_CALWR2_INPUT, 0, 191)]).pending : State } (calSets { flds := (inMode Mode.halt [(Reg.MTE_CALWR2_INPUT, 0, 191)]).flds, tb := (inMode Mode.halt [(Reg.MTE_CALWR2_INPUT, 0, 191)]).tb, rtc := (inMode Mode.halt [(Reg.MTE_CALWR2_INPUT, 0, 191)]).rtc, ssu := (inMode Mode.halt [(Reg.MTE_CALWR2_INPUT, 0, 191)]).ssu, csa := (inMode Mode.halt [(Reg.MTE_CALWR2_INPUT, 0, 191)]).csa, lpe := (inMode Mode.halt [(Reg.MTE_CALWR2_INPUT, 0, 191)]).lpe, lsv := (inMode Mode.halt [(Reg.MTE_CALWR2_INPUT, 0, 191)]).lsv, mte := have __src := (inMode Mode.halt [(Reg.MTE_CALWR2_INPUT, 0, 191)]).mte; { chans := __src.chans, pulses := __src.pulses, feeds := __src.feeds, restartNs := __src.restartNs, active := __src.active, shadow := __src.shadow, shadowPend := __src.shadowPend, waiting := __src.waiting, partner := __src.partner, staging := __src.staging, cal := __src.cal, calPut := [(191, { gain := BitVec.ofNat 32 (rd (inMode Mode.halt [(Reg.MTE_CALWR2_INPUT, 0, 191)]) Reg.MTE_CALWR0_GAIN), offset := BitVec.ofNat 32 (rd (inMode Mode.halt [(Reg.MTE_CALWR2_INPUT, 0, 191)]) Reg.MTE_CALWR1_OFFSET), phase := BitVec.ofNat 16 (rd (inMode Mode.halt [(Reg.MTE_CALWR2_INPUT, 0, 191)]) Reg.MTE_CALWR2_PHASE) : CoefSet })], calWait := __src.calWait, beatDue := __src.beatDue, found := __src.found : MteSt }, fct := (inMode Mode.halt [(Reg.MTE_CALWR2_INPUT, 0, 191)]).fct, fbc := (inMode Mode.halt [(Reg.MTE_CALWR2_INPUT, 0, 191)]).fbc, npc := (inMode Mode.halt [(Reg.MTE_CALWR2_INPUT, 0, 191)]).npc, rdu := (inMode Mode.halt [(Reg.MTE_CALWR2_INPUT, 0, 191)]).rdu, csc := (inMode Mode.halt [(Reg.MTE_CALWR2_INPUT, 0, 191)]).csc, nvs := (inMode Mode.halt [(Reg.MTE_CALWR2_INPUT, 0, 191)]).nvs, evr := (inMode Mode.halt [(Reg.MTE_CALWR2_INPUT, 0, 191)]).evr, hmx := (inMode Mode.halt [(Reg.MTE_CALWR2_INPUT, 0, 191)]).hmx, recvs := (inMode Mode.halt [(Reg.MTE_CALWR2_INPUT, 0, 191)]).recvs, out := (inMode Mode.halt [(Reg.MTE_CALWR2_INPUT, 0, 191)]).out, free := (inMode Mode.halt [(Reg.MTE_CALWR2_INPUT, 0, 191)]).free, pending := (inMode Mode.halt [(Reg.MTE_CALWR2_INPUT, 0, 191)]).pending : State })))).fits = true ∧
    0 = rd (inMode Mode.halt [(Reg.MTE_CALWR2_INPUT, 0, 197)]) Reg.MTE_CALCFG_FEEDER ∧
    rdB (inMode Mode.halt [(Reg.MTE_CALWR2_INPUT, 0, 197)]) Reg.MTE_CALSTS_PEND = false ∧
    modeIs (inMode Mode.halt [(Reg.MTE_CALWR2_INPUT, 0, 197)]) = Mode.halt ∧
    197 = rd (inMode Mode.halt [(Reg.MTE_CALWR2_INPUT, 0, 197)]) Reg.MTE_CALWR2_INPUT ∧
    (197 < 192 → shadowWaits (inMode Mode.halt [(Reg.MTE_CALWR2_INPUT, 0, 197)]) (197 / 6 : ℕ) = false) ∧
    (inMode Mode.halt [(Reg.MTE_CALWR2_INPUT, 0, 197)]).nvs.queue = [] ∧
    (writeRange { flds := (inMode Mode.halt [(Reg.MTE_CALWR2_INPUT, 0, 197)]).flds, tb := (inMode Mode.halt [(Reg.MTE_CALWR2_INPUT, 0, 197)]).tb, rtc := (inMode Mode.halt [(Reg.MTE_CALWR2_INPUT, 0, 197)]).rtc, ssu := (inMode Mode.halt [(Reg.MTE_CALWR2_INPUT, 0, 197)]).ssu, csa := (inMode Mode.halt [(Reg.MTE_CALWR2_INPUT, 0, 197)]).csa, lpe := (inMode Mode.halt [(Reg.MTE_CALWR2_INPUT, 0, 197)]).lpe, lsv := (inMode Mode.halt [(Reg.MTE_CALWR2_INPUT, 0, 197)]).lsv, mte := have __src := (inMode Mode.halt [(Reg.MTE_CALWR2_INPUT, 0, 197)]).mte; { chans := __src.chans, pulses := __src.pulses, feeds := __src.feeds, restartNs := __src.restartNs, active := __src.active, shadow := __src.shadow, shadowPend := __src.shadowPend, waiting := __src.waiting, partner := __src.partner, staging := __src.staging, cal := __src.cal, calPut := [(197, { gain := BitVec.ofNat 32 (rd (inMode Mode.halt [(Reg.MTE_CALWR2_INPUT, 0, 197)]) Reg.MTE_CALWR0_GAIN), offset := BitVec.ofNat 32 (rd (inMode Mode.halt [(Reg.MTE_CALWR2_INPUT, 0, 197)]) Reg.MTE_CALWR1_OFFSET), phase := BitVec.ofNat 16 (rd (inMode Mode.halt [(Reg.MTE_CALWR2_INPUT, 0, 197)]) Reg.MTE_CALWR2_PHASE) : CoefSet })], calWait := __src.calWait, beatDue := __src.beatDue, found := __src.found : MteSt }, fct := (inMode Mode.halt [(Reg.MTE_CALWR2_INPUT, 0, 197)]).fct, fbc := (inMode Mode.halt [(Reg.MTE_CALWR2_INPUT, 0, 197)]).fbc, npc := (inMode Mode.halt [(Reg.MTE_CALWR2_INPUT, 0, 197)]).npc, rdu := (inMode Mode.halt [(Reg.MTE_CALWR2_INPUT, 0, 197)]).rdu, csc := (inMode Mode.halt [(Reg.MTE_CALWR2_INPUT, 0, 197)]).csc, nvs := (inMode Mode.halt [(Reg.MTE_CALWR2_INPUT, 0, 197)]).nvs, evr := (inMode Mode.halt [(Reg.MTE_CALWR2_INPUT, 0, 197)]).evr, hmx := (inMode Mode.halt [(Reg.MTE_CALWR2_INPUT, 0, 197)]).hmx, recvs := (inMode Mode.halt [(Reg.MTE_CALWR2_INPUT, 0, 197)]).recvs, out := (inMode Mode.halt [(Reg.MTE_CALWR2_INPUT, 0, 197)]).out, free := (inMode Mode.halt [(Reg.MTE_CALWR2_INPUT, 0, 197)]).free, pending := (inMode Mode.halt [(Reg.MTE_CALWR2_INPUT, 0, 197)]).pending : State } (WriteWhat.record 32 (calRecord { flds := (inMode Mode.halt [(Reg.MTE_CALWR2_INPUT, 0, 197)]).flds, tb := (inMode Mode.halt [(Reg.MTE_CALWR2_INPUT, 0, 197)]).tb, rtc := (inMode Mode.halt [(Reg.MTE_CALWR2_INPUT, 0, 197)]).rtc, ssu := (inMode Mode.halt [(Reg.MTE_CALWR2_INPUT, 0, 197)]).ssu, csa := (inMode Mode.halt [(Reg.MTE_CALWR2_INPUT, 0, 197)]).csa, lpe := (inMode Mode.halt [(Reg.MTE_CALWR2_INPUT, 0, 197)]).lpe, lsv := (inMode Mode.halt [(Reg.MTE_CALWR2_INPUT, 0, 197)]).lsv, mte := have __src := (inMode Mode.halt [(Reg.MTE_CALWR2_INPUT, 0, 197)]).mte; { chans := __src.chans, pulses := __src.pulses, feeds := __src.feeds, restartNs := __src.restartNs, active := __src.active, shadow := __src.shadow, shadowPend := __src.shadowPend, waiting := __src.waiting, partner := __src.partner, staging := __src.staging, cal := __src.cal, calPut := [(197, { gain := BitVec.ofNat 32 (rd (inMode Mode.halt [(Reg.MTE_CALWR2_INPUT, 0, 197)]) Reg.MTE_CALWR0_GAIN), offset := BitVec.ofNat 32 (rd (inMode Mode.halt [(Reg.MTE_CALWR2_INPUT, 0, 197)]) Reg.MTE_CALWR1_OFFSET), phase := BitVec.ofNat 16 (rd (inMode Mode.halt [(Reg.MTE_CALWR2_INPUT, 0, 197)]) Reg.MTE_CALWR2_PHASE) : CoefSet })], calWait := __src.calWait, beatDue := __src.beatDue, found := __src.found : MteSt }, fct := (inMode Mode.halt [(Reg.MTE_CALWR2_INPUT, 0, 197)]).fct, fbc := (inMode Mode.halt [(Reg.MTE_CALWR2_INPUT, 0, 197)]).fbc, npc := (inMode Mode.halt [(Reg.MTE_CALWR2_INPUT, 0, 197)]).npc, rdu := (inMode Mode.halt [(Reg.MTE_CALWR2_INPUT, 0, 197)]).rdu, csc := (inMode Mode.halt [(Reg.MTE_CALWR2_INPUT, 0, 197)]).csc, nvs := (inMode Mode.halt [(Reg.MTE_CALWR2_INPUT, 0, 197)]).nvs, evr := (inMode Mode.halt [(Reg.MTE_CALWR2_INPUT, 0, 197)]).evr, hmx := (inMode Mode.halt [(Reg.MTE_CALWR2_INPUT, 0, 197)]).hmx, recvs := (inMode Mode.halt [(Reg.MTE_CALWR2_INPUT, 0, 197)]).recvs, out := (inMode Mode.halt [(Reg.MTE_CALWR2_INPUT, 0, 197)]).out, free := (inMode Mode.halt [(Reg.MTE_CALWR2_INPUT, 0, 197)]).free, pending := (inMode Mode.halt [(Reg.MTE_CALWR2_INPUT, 0, 197)]).pending : State } (calSets { flds := (inMode Mode.halt [(Reg.MTE_CALWR2_INPUT, 0, 197)]).flds, tb := (inMode Mode.halt [(Reg.MTE_CALWR2_INPUT, 0, 197)]).tb, rtc := (inMode Mode.halt [(Reg.MTE_CALWR2_INPUT, 0, 197)]).rtc, ssu := (inMode Mode.halt [(Reg.MTE_CALWR2_INPUT, 0, 197)]).ssu, csa := (inMode Mode.halt [(Reg.MTE_CALWR2_INPUT, 0, 197)]).csa, lpe := (inMode Mode.halt [(Reg.MTE_CALWR2_INPUT, 0, 197)]).lpe, lsv := (inMode Mode.halt [(Reg.MTE_CALWR2_INPUT, 0, 197)]).lsv, mte := have __src := (inMode Mode.halt [(Reg.MTE_CALWR2_INPUT, 0, 197)]).mte; { chans := __src.chans, pulses := __src.pulses, feeds := __src.feeds, restartNs := __src.restartNs, active := __src.active, shadow := __src.shadow, shadowPend := __src.shadowPend, waiting := __src.waiting, partner := __src.partner, staging := __src.staging, cal := __src.cal, calPut := [(197, { gain := BitVec.ofNat 32 (rd (inMode Mode.halt [(Reg.MTE_CALWR2_INPUT, 0, 197)]) Reg.MTE_CALWR0_GAIN), offset := BitVec.ofNat 32 (rd (inMode Mode.halt [(Reg.MTE_CALWR2_INPUT, 0, 197)]) Reg.MTE_CALWR1_OFFSET), phase := BitVec.ofNat 16 (rd (inMode Mode.halt [(Reg.MTE_CALWR2_INPUT, 0, 197)]) Reg.MTE_CALWR2_PHASE) : CoefSet })], calWait := __src.calWait, beatDue := __src.beatDue, found := __src.found : MteSt }, fct := (inMode Mode.halt [(Reg.MTE_CALWR2_INPUT, 0, 197)]).fct, fbc := (inMode Mode.halt [(Reg.MTE_CALWR2_INPUT, 0, 197)]).fbc, npc := (inMode Mode.halt [(Reg.MTE_CALWR2_INPUT, 0, 197)]).npc, rdu := (inMode Mode.halt [(Reg.MTE_CALWR2_INPUT, 0, 197)]).rdu, csc := (inMode Mode.halt [(Reg.MTE_CALWR2_INPUT, 0, 197)]).csc, nvs := (inMode Mode.halt [(Reg.MTE_CALWR2_INPUT, 0, 197)]).nvs, evr := (inMode Mode.halt [(Reg.MTE_CALWR2_INPUT, 0, 197)]).evr, hmx := (inMode Mode.halt [(Reg.MTE_CALWR2_INPUT, 0, 197)]).hmx, recvs := (inMode Mode.halt [(Reg.MTE_CALWR2_INPUT, 0, 197)]).recvs, out := (inMode Mode.halt [(Reg.MTE_CALWR2_INPUT, 0, 197)]).out, free := (inMode Mode.halt [(Reg.MTE_CALWR2_INPUT, 0, 197)]).free, pending := (inMode Mode.halt [(Reg.MTE_CALWR2_INPUT, 0, 197)]).pending : State })))).fits = true := by
  and_intros <;> decide +kernel

theorem witness_FacetCommands_1 :
    rdB (inMode Mode.halt []) Reg.FCT_SWSTS_PEND = false ∧
    modeIs (inMode Mode.halt []) = Mode.halt ∧
    rd (inMode Mode.halt []) Reg.FCT_STATUS_SHSTATE ≠ 3 ∧
    rdB (inMode Mode.active []) Reg.FCT_SWSTS_PEND = false ∧
    modeIs (inMode Mode.active []) = Mode.active ∧
    rd (inMode Mode.active []) Reg.FCT_STATUS_SHSTATE ≠ 3 ∧
    rdB (inMode Mode.standby []) Reg.FCT_SWSTS_PEND = false ∧
    modeIs (inMode Mode.standby []) = Mode.standby ∧
    rd (inMode Mode.standby []) Reg.FCT_STATUS_SHSTATE ≠ 3 ∧
    rdB (inMode Mode.safehold []) Reg.FCT_SWSTS_PEND = false ∧
    modeIs (inMode Mode.safehold []) = Mode.safehold ∧
    rd (inMode Mode.safehold []) Reg.FCT_STATUS_SHSTATE ≠ 3 ∧
    rdB (inMode Mode.halt [(Reg.FCT_STATUS_SHSTATE, 0, 2)]) Reg.FCT_SWSTS_PEND = false ∧
    modeIs (inMode Mode.halt [(Reg.FCT_STATUS_SHSTATE, 0, 2)]) ≠ Mode.test ∧
    rd (inMode Mode.halt [(Reg.FCT_STATUS_SHSTATE, 0, 2)]) Reg.FCT_STATUS_SHSTATE ≠ 3 ∧
    rdB (inMode Mode.save []) Reg.FCT_SWSTS_PEND = false ∧
    modeIs (inMode Mode.save []) ≠ Mode.test ∧
    rd (inMode Mode.save []) Reg.FCT_STATUS_SHSTATE ≠ 3 ∧
    rdB prepared Reg.FCT_SWSTS_PEND = false ∧
    modeIs prepared = Mode.halt ∧
    rd prepared Reg.FCT_STATUS_SHSTATE = 2 ∧
    prepared.fct.shadow.bind (modChange prepared) = none := by
  and_intros <;> decide +kernel

theorem witness_FacetCommands_2 :
    rdB (inMode Mode.active [(Reg.FCT_STATUS_SHSTATE, 0, 2)]) Reg.FCT_SWSTS_PEND = false ∧
    modeIs (inMode Mode.active [(Reg.FCT_STATUS_SHSTATE, 0, 2)]) = Mode.active ∧
    rd (inMode Mode.active [(Reg.FCT_STATUS_SHSTATE, 0, 2)]) Reg.FCT_STATUS_SHSTATE = 2 ∧
    (inMode Mode.active [(Reg.FCT_STATUS_SHSTATE, 0, 2)]).fct.shadow.bind (modChange (inMode Mode.active [(Reg.FCT_STATUS_SHSTATE, 0, 2)])) = none ∧
    rdB (inMode Mode.standby [(Reg.FCT_STATUS_SHSTATE, 0, 2)]) Reg.FCT_SWSTS_PEND = false ∧
    modeIs (inMode Mode.standby [(Reg.FCT_STATUS_SHSTATE, 0, 2)]) = Mode.standby ∧
    rd (inMode Mode.standby [(Reg.FCT_STATUS_SHSTATE, 0, 2)]) Reg.FCT_STATUS_SHSTATE = 2 ∧
    (inMode Mode.standby [(Reg.FCT_STATUS_SHSTATE, 0, 2)]).fct.shadow.bind (modChange (inMode Mode.standby [(Reg.FCT_STATUS_SHSTATE, 0, 2)])) = none ∧
    modeIs (inMode Mode.halt []) ≠ Mode.test ∧
    rdB (inMode Mode.halt []) Reg.FCT_SWSTS_PEND = false ∧
    modeIs armedFct ≠ Mode.test ∧
    swapPending armedFct = true ∧
    fetchingFct.fct.preparing = some [] ∧
    recalling fetchingFct = false ∧
    fetchingFct.nvs.queue = [] := by
  and_intros <;> decide +kernel

theorem witness_TimeSourceEvents_1 :
    portRec (ptpHeard (onPorts Mode.halt [(Reg.TBC_DSTS_SRC, 0, 1)])) (0 : Fin 16) = some aPort ∧
    portUp (ptpHeard (onPorts Mode.halt [(Reg.TBC_DSTS_SRC, 0, 1)])) (0 : Fin 16) = true ∧
    ptpSlave (ptpHeard (onPorts Mode.halt [(Reg.TBC_DSTS_SRC, 0, 1)])) (0 : Fin 16) = true ∧
    vlanOk aPort aPtpHead.vlan = true ∧
    aPtpHead.domain.toNat = aPort.ptpDom ∧
    Option.map (fun x => x.src) (bestMaster (advance (ptpHeard (onPorts Mode.halt [(Reg.TBC_DSTS_SRC, 0, 1)])) 7000)) = some aPtpHead.src ∧
    (ptpHeard (onPorts Mode.halt [(Reg.TBC_DSTS_SRC, 0, 1)])).npc.ptp.delay = some (100 : ℤ) ∧
    (1000 : ℤ) = (100 : ℤ) - (↑7000 - ↑aPort.rxLat - aPtpHead.corr - fromPtp (advance (ptpHeard (onPorts Mode.halt [(Reg.TBC_DSTS_SRC, 0, 1)])) 7000) (syncTime (1000 : ℤ))) ∧
    mayStep (ptpHeard (onPorts Mode.halt [(Reg.TBC_DSTS_SRC, 0, 1)])) = true ∧
    1000 ≤ Int.natAbs (1000 : ℤ) ∧
    rd (ptpHeard (onPorts Mode.halt [(Reg.TBC_DSTS_SRC, 0, 1)])) Reg.TBC_DSTS_SRC ≤ 1 ∧
    portRec (ptpHeard (onPorts Mode.recall [(Reg.TBC_DSTS_SRC, 0, 0)])) (0 : Fin 16) = some aPort ∧
    portUp (ptpHeard (onPorts Mode.recall [(Reg.TBC_DSTS_SRC, 0, 0)])) (0 : Fin 16) = true ∧
    ptpSlave (ptpHeard (onPorts Mode.recall [(Reg.TBC_DSTS_SRC, 0, 0)])) (0 : Fin 16) = true ∧
    Option.map (fun x => x.src) (bestMaster (advance (ptpHeard (onPorts Mode.recall [(Reg.TBC_DSTS_SRC, 0, 0)])) 7000)) = some aPtpHead.src ∧
    (ptpHeard (onPorts Mode.recall [(Reg.TBC_DSTS_SRC, 0, 0)])).npc.ptp.delay = some (100 : ℤ) ∧
    (-5000 : ℤ) = (100 : ℤ) - (↑7000 - ↑aPort.rxLat - aPtpHead.corr - fromPtp (advance (ptpHeard (onPorts Mode.recall [(Reg.TBC_DSTS_SRC, 0, 0)])) 7000) (syncTime (-5000 : ℤ))) ∧
    mayStep (ptpHeard (onPorts Mode.recall [(Reg.TBC_DSTS_SRC, 0, 0)])) = true ∧
    1000 ≤ (-5000 : ℤ).natAbs ∧
    rd (ptpHeard (onPorts Mode.recall [(Reg.TBC_DSTS_SRC, 0, 0)])) Reg.TBC_DSTS_SRC ≤ 1 ∧
    (999 : ℤ) = (100 : ℤ) - (↑7000 - ↑aPort.rxLat - aPtpHead.corr - fromPtp (advance (ptpHeard (onPorts Mode.halt [(Reg.TBC_DSTS_SRC, 0, 1)])) 7000) (syncTime (999 : ℤ))) ∧
    Int.natAbs (999 : ℤ) < 1000 := by
  and_intros <;> decide +kernel

theorem witness_TimeSourceEvents_2 :
    portRec (ptpHeard (onPorts Mode.halt [(Reg.TBC_DSTS_SRC, 0, 2)])) (0 : Fin 16) = some aPort ∧
    portUp (ptpHeard (onPorts Mode.halt [(Reg.TBC_DSTS_SRC, 0, 2)])) (0 : Fin 16) = true ∧
    ptpSlave (ptpHeard (onPorts Mode.halt [(Reg.TBC_DSTS_SRC, 0, 2)])) (0 : Fin 16) = true ∧
    vlanOk aPort aPtpHead.vlan = true ∧
    aPtpHead.domain.toNat = aPort.ptpDom ∧
    Option.map (fun x => x.src) (bestMaster (advance (ptpHeard (onPorts Mode.halt [(Reg.TBC_DSTS_SRC, 0, 2)])) 7000)) = some aPtpHead.src ∧
    (ptpHeard (onPorts Mode.halt [(Reg.TBC_DSTS_SRC, 0, 2)])).npc.ptp.delay = some (100 : ℤ) ∧
    (5000 : ℤ) = (100 : ℤ) - (↑7000 - ↑aPort.rxLat - aPtpHead.corr - fromPtp (advance (ptpHeard (onPorts Mode.halt [(Reg.TBC_DSTS_SRC, 0, 2)])) 7000) (syncTime (5000 : ℤ))) ∧
    mayStep (ptpHeard (onPorts Mode.halt [(Reg.TBC_DSTS_SRC, 0, 2)])) = true ∧
    1 < rd (ptpHeard (onPorts Mode.halt [(Reg.TBC_DSTS_SRC, 0, 2)])) Reg.TBC_DSTS_SRC ∧
    portRec (ptpHeard (onPorts Mode.active [(Reg.TBC_DSTS_SRC, 0, 1)])) (0 : Fin 16) = some aPort ∧
    portUp (ptpHeard (onPorts Mode.active [(Reg.TBC_DSTS_SRC, 0, 1)])) (0 : Fin 16) = true ∧
    ptpSlave (ptpHeard (onPorts Mode.active [(Reg.TBC_DSTS_SRC, 0, 1)])) (0 : Fin 16) = true ∧
    Option.map (fun x => x.src) (bestMaster (advance (ptpHeard (onPorts Mode.active [(Reg.TBC_DSTS_SRC, 0, 1)])) 7000)) = some aPtpHead.src ∧
    (ptpHeard (onPorts Mode.active [(Reg.TBC_DSTS_SRC, 0, 1)])).npc.ptp.delay = some (100 : ℤ) ∧
    (1000000 : ℤ) = (100 : ℤ) - (↑7000 - ↑aPort.rxLat - aPtpHead.corr - fromPtp (advance (ptpHeard (onPorts Mode.active [(Reg.TBC_DSTS_SRC, 0, 1)])) 7000) (syncTime (1000000 : ℤ))) ∧
    mayStep (ptpHeard (onPorts Mode.active [(Reg.TBC_DSTS_SRC, 0, 1)])) = false ∧
    Int.natAbs (1000000 : ℤ) ≤ 1000000 := by
  and_intros <;> decide +kernel

theorem witness_TimeSourceEvents_3 :
    portRec (ptpHeard (onPorts Mode.active [(Reg.TBC_DSTS_SRC, 0, 0)])) (0 : Fin 16) = some aPort ∧
    portUp (ptpHeard (onPorts Mode.active [(Reg.TBC_DSTS_SRC, 0, 0)])) (0 : Fin 16) = true ∧
    ptpSlave (ptpHeard (onPorts Mode.active [(Reg.TBC_DSTS_SRC, 0, 0)])) (0 : Fin 16) = true ∧
    vlanOk aPort aPtpHead.vlan = true ∧
    aPtpHead.domain.toNat = aPort.ptpDom ∧
    Option.map (fun x => x.src) (bestMaster (advance (ptpHeard (onPorts Mode.active [(Reg.TBC_DSTS_SRC, 0, 0)])) 7000)) = some aPtpHead.src ∧
    (ptpHeard (onPorts Mode.active [(Reg.TBC_DSTS_SRC, 0, 0)])).npc.ptp.delay = some (100 : ℤ) ∧
    (-1000000 : ℤ) = (100 : ℤ) - (↑7000 - ↑aPort.rxLat - aPtpHead.corr - fromPtp (advance (ptpHeard (onPorts Mode.active [(Reg.TBC_DSTS_SRC, 0, 0)])) 7000) (syncTime (-1000000 : ℤ))) ∧
    mayStep (ptpHeard (onPorts Mode.active [(Reg.TBC_DSTS_SRC, 0, 0)])) = false ∧
    (-1000000 : ℤ).natAbs ≤ 1000000 ∧
    portRec (ptpHeard (onPorts Mode.active [(Reg.TBC_DSTS_SRC, 0, 1)])) (0 : Fin 16) = some aPort ∧
    portUp (ptpHeard (onPorts Mode.active [(Reg.TBC_DSTS_SRC, 0, 1)])) (0 : Fin 16) = true ∧
    ptpSlave (ptpHeard (onPorts Mode.active [(Reg.TBC_DSTS_SRC, 0, 1)])) (0 : Fin 16) = true ∧
    Option.map (fun x => x.src) (bestMaster (advance (ptpHeard (onPorts Mode.active [(Reg.TBC_DSTS_SRC, 0, 1)])) 7000)) = some aPtpHead.src ∧
    (ptpHeard (onPorts Mode.active [(Reg.TBC_DSTS_SRC, 0, 1)])).npc.ptp.delay = some (100 : ℤ) ∧
    (0 : ℤ) = (100 : ℤ) - (↑7000 - ↑aPort.rxLat - aPtpHead.corr - fromPtp (advance (ptpHeard (onPorts Mode.active [(Reg.TBC_DSTS_SRC, 0, 1)])) 7000) (syncTime (0 : ℤ))) ∧
    mayStep (ptpHeard (onPorts Mode.active [(Reg.TBC_DSTS_SRC, 0, 1)])) = false ∧
    Int.natAbs (0 : ℤ) ≤ 1000000 ∧
    (1000001 : ℤ) = (100 : ℤ) - (↑7000 - ↑aPort.rxLat - aPtpHead.corr - fromPtp (advance (ptpHeard (onPorts Mode.active [(Reg.TBC_DSTS_SRC, 0, 1)])) 7000) (syncTime (1000001 : ℤ))) ∧
    1000000 < Int.natAbs (1000001 : ℤ) := by
  and_intros <;> decide +kernel

theorem witness_TimeSourceEvents_4 :
    portRec (ptpHeard (onPorts Mode.standby [(Reg.TBC_DSTS_SRC, 0, 0)])) (0 : Fin 16) = some aPort ∧
    portUp (ptpHeard (onPorts Mode.standby [(Reg.TBC_DSTS_SRC, 0, 0)])) (0 : Fin 16) = true ∧
    ptpSlave (ptpHeard (onPorts Mode.standby [(Reg.TBC_DSTS_SRC, 0, 0)])) (0 : Fin 16) = true ∧
    vlanOk aPort aPtpHead.vlan = true ∧
    aPtpHead.domain.toNat = aPort.ptpDom ∧
    Option.map (fun x => x.src) (bestMaster (advance (ptpHeard (onPorts Mode.standby [(Reg.TBC_DSTS_SRC, 0, 0)])) 7000)) = some aPtpHead.src ∧
    (ptpHeard (onPorts Mode.standby [(Reg.TBC_DSTS_SRC, 0, 0)])).npc.ptp.delay = some (100 : ℤ) ∧
    (-1000001 : ℤ) = (100 : ℤ) - (↑7000 - ↑aPort.rxLat - aPtpHead.corr - fromPtp (advance (ptpHeard (onPorts Mode.standby [(Reg.TBC_DSTS_SRC, 0, 0)])) 7000) (syncTime (-1000001 : ℤ))) ∧
    mayStep (ptpHeard (onPorts Mode.standby [(Reg.TBC_DSTS_SRC, 0, 0)])) = false ∧
    1000000 < (-1000001 : ℤ).natAbs ∧
    portRec (ptpHeard (onPorts Mode.active [])) (0 : Fin 16) = some aPort ∧
    portUp (ptpHeard (onPorts Mode.active [])) (0 : Fin 16) = true ∧
    ptpSlave (ptpHeard (onPorts Mode.active [])) (0 : Fin 16) = true ∧
    Option.map (fun x => x.src) (bestMaster (advance (ptpHeard (onPorts Mode.active [])) 7000)) = some aPtpHead.src ∧
    (ptpHeard (onPorts Mode.active [])).npc.ptp.req = some (aPtpHead.seq, (50 : ℤ)) ∧
    (ptpHeard (onPorts Mode.active [])).npc.ptp.ms = some (900 : ℤ) ∧
    portRec (ptpSteady (onPorts Mode.active [])) (0 : Fin 16) = some aPort ∧
    portUp (ptpSteady (onPorts Mode.active [])) (0 : Fin 16) = true ∧
    ptpSlave (ptpSteady (onPorts Mode.active [])) (0 : Fin 16) = true ∧
    (ptpSteady (onPorts Mode.active [])).tb.blockedPtp = false ∧
    (ptpSteady (onPorts Mode.active [])).tb.ptpGood = some 0 ∧
    0 + max 1 (rd (ptpSteady (onPorts Mode.active [])) Reg.TBC_DISC_QUALTIME) * 10 ^ 9 ≤ (ptpSteady (onPorts Mode.active [])).tb.now ∧
    portRec (onPorts Mode.active [(Reg.NPCp_STATUS_PTPST, 0, 2)]) (0 : Fin 16) = some aPort ∧
    portUp (onPorts Mode.active [(Reg.NPCp_STATUS_PTPST, 0, 2)]) (0 : Fin 16) = true := by
  and_intros <;> decide +kernel

theorem witness_TimeSourceEvents_5 :
    portRec (onPorts Mode.active []) (0 : Fin 16) = some aPort ∧
    portUp (onPorts Mode.active []) (0 : Fin 16) = true ∧
    portRec (onPorts Mode.active [(Reg.TBC_DSTS_SRC, 0, 2)]) (0 : Fin 16) = some aPort ∧
    portUp (onPorts Mode.active [(Reg.TBC_DSTS_SRC, 0, 2)]) (0 : Fin 16) = true ∧
    (∀ n < 4, brings (onPorts Mode.active [(Reg.TBC_DSTS_SRC, 0, 2)]) n = false) ∧
    portRec (marked (onPorts Mode.active [(Reg.TBC_DSTS_SRC, 0, 2)])) (0 : Fin 16) = some aPort ∧
    portUp (marked (onPorts Mode.active [(Reg.TBC_DSTS_SRC, 0, 2)])) (0 : Fin 16) = true ∧
    (∃ n < 4, brings (marked (onPorts Mode.active [(Reg.TBC_DSTS_SRC, 0, 2)])) n = true) ∧
    portRec (onPorts Mode.halt []) (0 : Fin 16) = some aPort ∧
    portUp (onPorts Mode.halt []) (0 : Fin 16) = true ∧
    modeIs (onPorts Mode.halt []) = Mode.halt ∧
    portRec (onPorts Mode.active []) (1 : Fin 16) = some masterPort ∧
    portUp (onPorts Mode.active []) (1 : Fin 16) = true ∧
    ptpSends (onPorts Mode.active []) (1 : Fin 16) = true ∧
    dueAgain (onPorts Mode.active []) (onPorts Mode.active []).npc.ptp.syncAt ((1 : Fin 16).val) (syncNs masterPort) = true ∧
    (0 : BitVec 16) = (tget (onPorts Mode.active []).npc.ptp.seqs (1 : Fin 16).val).getD (0 : BitVec 16) ∧
    portRec (onPorts Mode.active []) (2 : Fin 16) = some (let __src := masterPort; { en := __src.en, ifMode := __src.ifMode, ipv4 := __src.ipv4, ipv6 := __src.ipv6, vlanEn := __src.vlanEn, ptpMaster := __src.ptpMaster, twoStep := false, speeds := __src.speeds, ptpDom := __src.ptpDom, vlan := __src.vlan, macA := __src.macA, macB := __src.macB, ip4A := __src.ip4A, ip4B := __src.ip4B, ip4Pfx := __src.ip4Pfx, ip6Pfx := __src.ip6Pfx, logSync := __src.logSync, prio1 := __src.prio1, ip4Grp := __src.ip4Grp, ip6A := __src.ip6A, ip6B := __src.ip6B, ip6Grp := __src.ip6Grp, txLat := __src.txLat, rxLat := __src.rxLat : PortRec }) ∧
    portUp (onPorts Mode.active []) (2 : Fin 16) = true ∧
    ptpSends (onPorts Mode.active []) (2 : Fin 16) = true ∧
    dueAgain (onPorts Mode.active []) (onPorts Mode.active []).npc.ptp.syncAt ((2 : Fin 16).val) (syncNs (let __src := masterPort; { en := __src.en, ifMode := __src.ifMode, ipv4 := __src.ipv4, ipv6 := __src.ipv6, vlanEn := __src.vlanEn, ptpMaster := __src.ptpMaster, twoStep := false, speeds := __src.speeds, ptpDom := __src.ptpDom, vlan := __src.vlan, macA := __src.macA, macB := __src.macB, ip4A := __src.ip4A, ip4B := __src.ip4B, ip4Pfx := __src.ip4Pfx, ip6Pfx := __src.ip6Pfx, logSync := __src.logSync, prio1 := __src.prio1, ip4Grp := __src.ip4Grp, ip6A := __src.ip6A, ip6B := __src.ip6B, ip6Grp := __src.ip6Grp, txLat := __src.txLat, rxLat := __src.rxLat : PortRec })) = true ∧
    (0 : BitVec 16) = (tget (onPorts Mode.active []).npc.ptp.seqs (2 : Fin 16).val).getD (0 : BitVec 16) := by
  and_intros <;> decide +kernel

theorem witness_TimeSourceEvents_6 :
    portRec (onPorts Mode.halt []) (1 : Fin 16) = some masterPort ∧
    portUp (onPorts Mode.halt []) (1 : Fin 16) = true ∧
    ptpSends (onPorts Mode.halt []) (1 : Fin 16) = true ∧
    dueAgain (onPorts Mode.halt []) (onPorts Mode.halt []).npc.ptp.syncAt ((1 : Fin 16).val) (syncNs masterPort) = true ∧
    (0 : BitVec 16) = (tget (onPorts Mode.halt []).npc.ptp.seqs (1 : Fin 16).val).getD (0 : BitVec 16) ∧
    portRec (onPorts Mode.halt []) (2 : Fin 16) = some (let __src := masterPort; { en := __src.en, ifMode := __src.ifMode, ipv4 := __src.ipv4, ipv6 := __src.ipv6, vlanEn := __src.vlanEn, ptpMaster := __src.ptpMaster, twoStep := false, speeds := __src.speeds, ptpDom := __src.ptpDom, vlan := __src.vlan, macA := __src.macA, macB := __src.macB, ip4A := __src.ip4A, ip4B := __src.ip4B, ip4Pfx := __src.ip4Pfx, ip6Pfx := __src.ip6Pfx, logSync := __src.logSync, prio1 := __src.prio1, ip4Grp := __src.ip4Grp, ip6A := __src.ip6A, ip6B := __src.ip6B, ip6Grp := __src.ip6Grp, txLat := __src.txLat, rxLat := __src.rxLat : PortRec }) ∧
    portUp (onPorts Mode.halt []) (2 : Fin 16) = true ∧
    ptpSends (onPorts Mode.halt []) (2 : Fin 16) = true ∧
    dueAgain (onPorts Mode.halt []) (onPorts Mode.halt []).npc.ptp.syncAt ((2 : Fin 16).val) (syncNs (let __src := masterPort; { en := __src.en, ifMode := __src.ifMode, ipv4 := __src.ipv4, ipv6 := __src.ipv6, vlanEn := __src.vlanEn, ptpMaster := __src.ptpMaster, twoStep := false, speeds := __src.speeds, ptpDom := __src.ptpDom, vlan := __src.vlan, macA := __src.macA, macB := __src.macB, ip4A := __src.ip4A, ip4B := __src.ip4B, ip4Pfx := __src.ip4Pfx, ip6Pfx := __src.ip6Pfx, logSync := __src.logSync, prio1 := __src.prio1, ip4Grp := __src.ip4Grp, ip6A := __src.ip6A, ip6B := __src.ip6B, ip6Grp := __src.ip6Grp, txLat := __src.txLat, rxLat := __src.rxLat : PortRec })) = true ∧
    (0 : BitVec 16) = (tget (onPorts Mode.halt []).npc.ptp.seqs (2 : Fin 16).val).getD (0 : BitVec 16) ∧
    portRec (onPorts Mode.safehold []) (1 : Fin 16) = some masterPort ∧
    portUp (onPorts Mode.safehold []) (1 : Fin 16) = true ∧
    ptpSends (onPorts Mode.safehold []) (1 : Fin 16) = true ∧
    dueAgain (onPorts Mode.safehold []) (onPorts Mode.safehold []).npc.ptp.syncAt ((1 : Fin 16).val) (syncNs masterPort) = true ∧
    (0 : BitVec 16) = (tget (onPorts Mode.safehold []).npc.ptp.seqs (1 : Fin 16).val).getD (0 : BitVec 16) ∧
    portRec (onPorts Mode.safehold []) (2 : Fin 16) = some (let __src := masterPort; { en := __src.en, ifMode := __src.ifMode, ipv4 := __src.ipv4, ipv6 := __src.ipv6, vlanEn := __src.vlanEn, ptpMaster := __src.ptpMaster, twoStep := false, speeds := __src.speeds, ptpDom := __src.ptpDom, vlan := __src.vlan, macA := __src.macA, macB := __src.macB, ip4A := __src.ip4A, ip4B := __src.ip4B, ip4Pfx := __src.ip4Pfx, ip6Pfx := __src.ip6Pfx, logSync := __src.logSync, prio1 := __src.prio1, ip4Grp := __src.ip4Grp, ip6A := __src.ip6A, ip6B := __src.ip6B, ip6Grp := __src.ip6Grp, txLat := __src.txLat, rxLat := __src.rxLat : PortRec }) ∧
    portUp (onPorts Mode.safehold []) (2 : Fin 16) = true ∧
    ptpSends (onPorts Mode.safehold []) (2 : Fin 16) = true ∧
    dueAgain (onPorts Mode.safehold []) (onPorts Mode.safehold []).npc.ptp.syncAt ((2 : Fin 16).val) (syncNs (let __src := masterPort; { en := __src.en, ifMode := __src.ifMode, ipv4 := __src.ipv4, ipv6 := __src.ipv6, vlanEn := __src.vlanEn, ptpMaster := __src.ptpMaster, twoStep := false, speeds := __src.speeds, ptpDom := __src.ptpDom, vlan := __src.vlan, macA := __src.macA, macB := __src.macB, ip4A := __src.ip4A, ip4B := __src.ip4B, ip4Pfx := __src.ip4Pfx, ip6Pfx := __src.ip6Pfx, logSync := __src.logSync, prio1 := __src.prio1, ip4Grp := __src.ip4Grp, ip6A := __src.ip6A, ip6B := __src.ip6B, ip6Grp := __src.ip6Grp, txLat := __src.txLat, rxLat := __src.rxLat : PortRec })) = true ∧
    (0 : BitVec 16) = (tget (onPorts Mode.safehold []).npc.ptp.seqs (2 : Fin 16).val).getD (0 : BitVec 16) ∧
    portRec (justSynced (onPorts Mode.active [])) (1 : Fin 16) = some masterPort ∧
    portUp (justSynced (onPorts Mode.active [])) (1 : Fin 16) = true ∧
    ptpSends (justSynced (onPorts Mode.active [])) (1 : Fin 16) = true ∧
    dueAgain (justSynced (onPorts Mode.active [])) (justSynced (onPorts Mode.active [])).npc.ptp.syncAt ((1 : Fin 16).val) (syncNs masterPort) = false := by
  and_intros <;> decide +kernel

theorem witness_TimeSourceEvents_7 :
    portRec (onPorts Mode.active []) (1 : Fin 16) = some masterPort ∧
    portUp (onPorts Mode.active []) (1 : Fin 16) = true ∧
    ptpSends (onPorts Mode.active []) (1 : Fin 16) = true ∧
    { port := (1 : Fin 16), h := aPtpHead, stamp := 7000 : DelayReqRx }.port = (1 : Fin 16) ∧
    vlanOk masterPort { port := (1 : Fin 16), h := aPtpHead, stamp := 7000 : DelayReqRx }.h.vlan = true ∧
    { port := (1 : Fin 16), h := aPtpHead, stamp := 7000 : DelayReqRx }.h.domain.toNat = masterPort.ptpDom := by
  and_intros <;> decide +kernel

theorem witness_BusControlAndFilters_1 :
    (onBus Mode.halt aCtl []).fbc[(0 : Fin 24)] = (onBus Mode.halt aCtl []).fbc[(0 : Fin 24)] ∧
    (onBus Mode.halt aCtl []).fbc[(0 : Fin 24)].bus = some aBus ∧
    aBus.en = true ∧
    rdB (onBus Mode.halt aCtl []) Reg.FBCn_CTLSTS_PEND (0 : Fin 24).val = false ∧
    modeIs (onBus Mode.halt aCtl []) = Mode.halt ∧
    resState (onBus Mode.halt aCtl []) { cls := FClass.fieldbus, idx := (0 : Fin 24).val : Resource } ≠ MState.retired ∧
    aBus.mode = 0 ∧
    (onBus Mode.halt aCtl []).fbc[(5 : Fin 24)] = (onBus Mode.halt aCtl []).fbc[(5 : Fin 24)] ∧
    (onBus Mode.halt aCtl []).fbc[(5 : Fin 24)].bus = some (let __src := aBus; { en := __src.en, mode := 1, brs := __src.brs, txOrder := __src.txOrder, tb2Host := __src.tb2Host, tdcEn := __src.tdcEn, nbrp := __src.nbrp, ntseg1 := __src.ntseg1, ntseg2 := __src.ntseg2, nsjw := __src.nsjw, dbrp := __src.dbrp, dtseg1 := __src.dtseg1, dtseg2 := __src.dtseg2, dsjw := __src.dsjw, tdco := __src.tdco, clashN := __src.clashN, probeId := __src.probeId : BusRec }) ∧
    (let __src := aBus; { en := __src.en, mode := 1, brs := __src.brs, txOrder := __src.txOrder, tb2Host := __src.tb2Host, tdcEn := __src.tdcEn, nbrp := __src.nbrp, ntseg1 := __src.ntseg1, ntseg2 := __src.ntseg2, nsjw := __src.nsjw, dbrp := __src.dbrp, dtseg1 := __src.dtseg1, dtseg2 := __src.dtseg2, dsjw := __src.dsjw, tdco := __src.tdco, clashN := __src.clashN, probeId := __src.probeId : BusRec }).en = true ∧
    rdB (onBus Mode.halt aCtl []) Reg.FBCn_CTLSTS_PEND (5 : Fin 24).val = false ∧
    resState (onBus Mode.halt aCtl []) { cls := FClass.fieldbus, idx := (5 : Fin 24).val : Resource } ≠ MState.retired ∧
    (let __src := aBus; { en := __src.en, mode := 1, brs := __src.brs, txOrder := __src.txOrder, tb2Host := __src.tb2Host, tdcEn := __src.tdcEn, nbrp := __src.nbrp, ntseg1 := __src.ntseg1, ntseg2 := __src.ntseg2, nsjw := __src.nsjw, dbrp := __src.dbrp, dtseg1 := __src.dtseg1, dtseg2 := __src.dtseg2, dsjw := __src.dsjw, tdco := __src.tdco, clashN := __src.clashN, probeId := __src.probeId : BusRec }).mode = 1 ∧
    (onBus Mode.halt (let __src := aCtl; { tb := __src.tb, sel := __src.sel, fifo := __src.fifo, filters := __src.filters, queue := __src.queue, bus := some (let __src := aBus; { en := __src.en, mode := 2, brs := __src.brs, txOrder := __src.txOrder, tb2Host := __src.tb2Host, tdcEn := __src.tdcEn, nbrp := __src.nbrp, ntseg1 := __src.ntseg1, ntseg2 := __src.ntseg2, nsjw := __src.nsjw, dbrp := __src.dbrp, dtseg1 := __src.dtseg1, dtseg2 := __src.dtseg2, dsjw := __src.dsjw, tdco := __src.tdco, clashN := __src.clashN, probeId := __src.probeId : BusRec }), txw := __src.txw, ovfSeen := __src.ovfSeen, parts := __src.parts, stopped := __src.stopped, stopping := __src.stopping, nextBus := __src.nextBus, fltWas := __src.fltWas : Ctl }) []).fbc[(0 : Fin 24)] = (onBus Mode.halt (let __src := aCtl; { tb := __src.tb, sel := __src.sel, fifo := __src.fifo, filters := __src.filters, queue := __src.queue, bus := some (let __src := aBus; { en := __src.en, mode := 2, brs := __src.brs, txOrder := __src.txOrder, tb2Host := __src.tb2Host, tdcEn := __src.tdcEn, nbrp := __src.nbrp, ntseg1 := __src.ntseg1, ntseg2 := __src.ntseg2, nsjw := __src.nsjw, dbrp := __src.dbrp, dtseg1 := __src.dtseg1, dtseg2 := __src.dtseg2, dsjw := __src.dsjw, tdco := __src.tdco, clashN := __src.clashN, probeId := __src.probeId : BusRec }), txw := __src.txw, ovfSeen := __src.ovfSeen, parts := __src.parts, stopped := __src.stopped, stopping := __src.stopping, nextBus := __src.nextBus, fltWas := __src.fltWas : Ctl }) []).fbc[(0 : Fin 24)] ∧
    (onBus Mode.halt (let __src := aCtl; { tb := __src.tb, sel := __src.sel, fifo := __src.fifo, filters := __src.filters, queue := __src.queue, bus := some (let __src := aBus; { en := __src.en, mode := 2, brs := __src.brs, txOrder := __src.txOrder, tb2Host := __src.tb2Host, tdcEn := __src.tdcEn, nbrp := __src.nbrp, ntseg1 := __src.ntseg1, ntseg2 := __src.ntseg2, nsjw := __src.nsjw, dbrp := __src.dbrp, dtseg1 := __src.dtseg1, dtseg2 := __src.dtseg2, dsjw := __src.dsjw, tdco := __src.tdco, clashN := __src.clashN, probeId := __src.probeId : BusRec }), txw := __src.txw, ovfSeen := __src.ovfSeen, parts := __src.parts, stopped := __src.stopped, stopping := __src.stopping, nextBus := __src.nextBus, fltWas := __src.fltWas : Ctl }) []).fbc[(0 : Fin 24)].bus = some (let __src := aBus; { en := __src.en, mode := 2, brs := __src.brs, txOrder := __src.txOrder, tb2Host := __src.tb2Host, tdcEn := __src.tdcEn, nbrp := __src.nbrp, ntseg1 := __src.ntseg1, ntseg2 := __src.ntseg2, nsjw := __src.nsjw, dbrp := __src.dbrp, dtseg1 := __src.dtseg1, dtseg2 := __src.dtseg2, dsjw := __src.dsjw, tdco := __src.tdco, clashN := __src.clashN, probeId := __src.probeId : BusRec }) ∧
    (let __src := aBus; { en := __src.en, mode := 2, brs := __src.brs, txOrder := __src.txOrder, tb2Host := __src.tb2Host, tdcEn := __src.tdcEn, nbrp := __src.nbrp, ntseg1 := __src.ntseg1, ntseg2 := __src.ntseg2, nsjw := __src.nsjw, dbrp := __src.dbrp, dtseg1 := __src.dtseg1, dtseg2 := __src.dtseg2, dsjw := __src.dsjw, tdco := __src.tdco, clashN := __src.clashN, probeId := __src.probeId : BusRec }).en = true ∧
    rdB (onBus Mode.halt (let __src := aCtl; { tb := __src.tb, sel := __src.sel, fifo := __src.fifo, filters := __src.filters, queue := __src.queue, bus := some (let __src := aBus; { en := __src.en, mode := 2, brs := __src.brs, txOrder := __src.txOrder, tb2Host := __src.tb2Host, tdcEn := __src.tdcEn, nbrp := __src.nbrp, ntseg1 := __src.ntseg1, ntseg2 := __src.ntseg2, nsjw := __src.nsjw, dbrp := __src.dbrp, dtseg1 := __src.dtseg1, dtseg2 := __src.dtseg2, dsjw := __src.dsjw, tdco := __src.tdco, clashN := __src.clashN, probeId := __src.probeId : BusRec }), txw := __src.txw, ovfSeen := __src.ovfSeen, parts := __src.parts, stopped := __src.stopped, stopping := __src.stopping, nextBus := __src.nextBus, fltWas := __src.fltWas : Ctl }) []) Reg.FBCn_CTLSTS_PEND (0 : Fin 24).val = false ∧
    modeIs (onBus Mode.halt (let __src := aCtl; { tb := __src.tb, sel := __src.sel, fifo := __src.fifo, filters := __src.filters, queue := __src.queue, bus := some (let __src := aBus; { en := __src.en, mode := 2, brs := __src.brs, txOrder := __src.txOrder, tb2Host := __src.tb2Host, tdcEn := __src.tdcEn, nbrp := __src.nbrp, ntseg1 := __src.ntseg1, ntseg2 := __src.ntseg2, nsjw := __src.nsjw, dbrp := __src.dbrp, dtseg1 := __src.dtseg1, dtseg2 := __src.dtseg2, dsjw := __src.dsjw, tdco := __src.tdco, clashN := __src.clashN, probeId := __src.probeId : BusRec }), txw := __src.txw, ovfSeen := __src.ovfSeen, parts := __src.parts, stopped := __src.stopped, stopping := __src.stopping, nextBus := __src.nextBus, fltWas := __src.fltWas : Ctl }) []) = Mode.halt ∧
    resState (onBus Mode.halt (let __src := aCtl; { tb := __src.tb, sel := __src.sel, fifo := __src.fifo, filters := __src.filters, queue := __src.queue, bus := some (let __src := aBus; { en := __src.en, mode := 2, brs := __src.brs, txOrder := __src.txOrder, tb2Host := __src.tb2Host, tdcEn := __src.tdcEn, nbrp := __src.nbrp, ntseg1 := __src.ntseg1, ntseg2 := __src.ntseg2, nsjw := __src.nsjw, dbrp := __src.dbrp, dtseg1 := __src.dtseg1, dtseg2 := __src.dtseg2, dsjw := __src.dsjw, tdco := __src.tdco, clashN := __src.clashN, probeId := __src.probeId : BusRec }), txw := __src.txw, ovfSeen := __src.ovfSeen, parts := __src.parts, stopped := __src.stopped, stopping := __src.stopping, nextBus := __src.nextBus, fltWas := __src.fltWas : Ctl }) []) { cls := FClass.fieldbus, idx := (0 : Fin 24).val : Resource } ≠ MState.retired ∧
    (let __src := aBus; { en := __src.en, mode := 2, brs := __src.brs, txOrder := __src.txOrder, tb2Host := __src.tb2Host, tdcEn := __src.tdcEn, nbrp := __src.nbrp, ntseg1 := __src.ntseg1, ntseg2 := __src.ntseg2, nsjw := __src.nsjw, dbrp := __src.dbrp, dtseg1 := __src.dtseg1, dtseg2 := __src.dtseg2, dsjw := __src.dsjw, tdco := __src.tdco, clashN := __src.clashN, probeId := __src.probeId : BusRec }).mode = 2 ∧
    (onBus Mode.halt aCtl [(Reg.FBCn_CTLSTS_PEND, 0, 1)]).fbc[(0 : Fin 24)] = (onBus Mode.halt aCtl [(Reg.FBCn_CTLSTS_PEND, 0, 1)]).fbc[(0 : Fin 24)] ∧
    (onBus Mode.halt aCtl [(Reg.FBCn_CTLSTS_PEND, 0, 1)]).fbc[(0 : Fin 24)].bus = some aBus ∧
    rd (onBus Mode.halt aCtl [(Reg.FBCn_CTLSTS_PEND, 0, 1)]) Reg.FBCn_STATUS_PMODE (0 : Fin 24).val = 0 ∧
    canDrive (onBus Mode.halt aCtl [(Reg.FBCn_CTLSTS_PEND, 0, 1)]) (0 : Fin 24) = true := by
  and_intros <;> decide +kernel

theorem witness_BusControlAndFilters_2 :
    (onBus Mode.halt aCtl [(Reg.FBCn_STATUS_BUSOFF, 0, 1)]).fbc[(0 : Fin 24)] = (onBus Mode.halt aCtl [(Reg.FBCn_STATUS_BUSOFF, 0, 1)]).fbc[(0 : Fin 24)] ∧
    rdB (onBus Mode.halt aCtl [(Reg.FBCn_STATUS_BUSOFF, 0, 1)]) Reg.FBCn_CTLSTS_PEND (0 : Fin 24).val = false ∧
    modeIs (onBus Mode.halt aCtl [(Reg.FBCn_STATUS_BUSOFF, 0, 1)]) = Mode.halt ∧
    rdB (onBus Mode.halt aCtl [(Reg.FBCn_STATUS_BUSOFF, 0, 1)]) Reg.FBCn_STATUS_BUSOFF (0 : Fin 24).val = true ∧
    (onBus Mode.halt aCtl []).fbc[(0 : Fin 24)] = (onBus Mode.halt aCtl []).fbc[(0 : Fin 24)] ∧
    rdB (onBus Mode.halt aCtl []) Reg.FBCn_CTLSTS_PEND (0 : Fin 24).val = false ∧
    modeIs (onBus Mode.halt aCtl []) = Mode.halt ∧
    rdB (onBus Mode.halt aCtl []) Reg.FBCn_STATUS_BUSOFF (0 : Fin 24).val = false ∧
    (onBus Mode.active aCtl [(Reg.FBCn_STATUS_BUSOFF, 0, 1)]).fbc[(0 : Fin 24)] = (onBus Mode.active aCtl [(Reg.FBCn_STATUS_BUSOFF, 0, 1)]).fbc[(0 : Fin 24)] ∧
    rdB (onBus Mode.active aCtl [(Reg.FBCn_STATUS_BUSOFF, 0, 1)]) Reg.FBCn_CTLSTS_PEND (0 : Fin 24).val = false ∧
    modeIs (onBus Mode.active aCtl [(Reg.FBCn_STATUS_BUSOFF, 0, 1)]) = Mode.active ∧
    rdB (onBus Mode.active aCtl [(Reg.FBCn_STATUS_BUSOFF, 0, 1)]) Reg.FBCn_STATUS_BUSOFF (0 : Fin 24).val = true ∧
    (onBus Mode.active aCtl []).fbc[(0 : Fin 24)] = (onBus Mode.active aCtl []).fbc[(0 : Fin 24)] ∧
    rdB (onBus Mode.active aCtl []) Reg.FBCn_CTLSTS_PEND (0 : Fin 24).val = false ∧
    modeIs (onBus Mode.active aCtl []) = Mode.active ∧
    rdB (onBus Mode.active aCtl []) Reg.FBCn_STATUS_BUSOFF (0 : Fin 24).val = false ∧
    (onBus Mode.standby aCtl [(Reg.FBCn_STATUS_BUSOFF, 0, 1)]).fbc[(0 : Fin 24)] = (onBus Mode.standby aCtl [(Reg.FBCn_STATUS_BUSOFF, 0, 1)]).fbc[(0 : Fin 24)] ∧
    rdB (onBus Mode.standby aCtl [(Reg.FBCn_STATUS_BUSOFF, 0, 1)]) Reg.FBCn_CTLSTS_PEND (0 : Fin 24).val = false ∧
    modeIs (onBus Mode.standby aCtl [(Reg.FBCn_STATUS_BUSOFF, 0, 1)]) = Mode.standby ∧
    rdB (onBus Mode.standby aCtl [(Reg.FBCn_STATUS_BUSOFF, 0, 1)]) Reg.FBCn_STATUS_BUSOFF (0 : Fin 24).val = true ∧
    (onBus Mode.standby aCtl []).fbc[(0 : Fin 24)] = (onBus Mode.standby aCtl []).fbc[(0 : Fin 24)] ∧
    rdB (onBus Mode.standby aCtl []) Reg.FBCn_CTLSTS_PEND (0 : Fin 24).val = false ∧
    modeIs (onBus Mode.standby aCtl []) = Mode.standby ∧
    rdB (onBus Mode.standby aCtl []) Reg.FBCn_STATUS_BUSOFF (0 : Fin 24).val = false := by
  and_intros <;> decide +kernel

theorem witness_BusControlAndFilters_3 :
    (onBus Mode.safehold aCtl [(Reg.FBCn_STATUS_BUSOFF, 0, 1)]).fbc[(0 : Fin 24)] = (onBus Mode.safehold aCtl [(Reg.FBCn_STATUS_BUSOFF, 0, 1)]).fbc[(0 : Fin 24)] ∧
    rdB (onBus Mode.safehold aCtl [(Reg.FBCn_STATUS_BUSOFF, 0, 1)]) Reg.FBCn_CTLSTS_PEND (0 : Fin 24).val = false ∧
    modeIs (onBus Mode.safehold aCtl [(Reg.FBCn_STATUS_BUSOFF, 0, 1)]) = Mode.safehold ∧
    rdB (onBus Mode.safehold aCtl [(Reg.FBCn_STATUS_BUSOFF, 0, 1)]) Reg.FBCn_STATUS_BUSOFF (0 : Fin 24).val = true ∧
    (onBus Mode.safehold aCtl []).fbc[(0 : Fin 24)] = (onBus Mode.safehold aCtl []).fbc[(0 : Fin 24)] ∧
    rdB (onBus Mode.safehold aCtl []) Reg.FBCn_CTLSTS_PEND (0 : Fin 24).val = false ∧
    modeIs (onBus Mode.safehold aCtl []) = Mode.safehold ∧
    rdB (onBus Mode.safehold aCtl []) Reg.FBCn_STATUS_BUSOFF (0 : Fin 24).val = false ∧
    (onBus Mode.active aCtl [(Reg.FBCn_STATUS_RECOV, 0, 1), (Reg.FBCn_STATUS_BUSOFF, 0, 1), (Reg.FBCn_ERR_TEC, 0, 256), (Reg.FBCn_CTLSTS_PEND, 0, 1)]).fbc[(0 : Fin 24)] = (onBus Mode.active aCtl [(Reg.FBCn_STATUS_RECOV, 0, 1), (Reg.FBCn_STATUS_BUSOFF, 0, 1), (Reg.FBCn_ERR_TEC, 0, 256), (Reg.FBCn_CTLSTS_PEND, 0, 1)]).fbc[(0 : Fin 24)] ∧
    rdB (onBus Mode.active aCtl [(Reg.FBCn_STATUS_RECOV, 0, 1), (Reg.FBCn_STATUS_BUSOFF, 0, 1), (Reg.FBCn_ERR_TEC, 0, 256), (Reg.FBCn_CTLSTS_PEND, 0, 1)]) Reg.FBCn_STATUS_RECOV (0 : Fin 24).val = true ∧
    (onBus Mode.active aCtl [(Reg.FBCn_ERR_CLASH, 0, 3)]).fbc[(0 : Fin 24)] = (onBus Mode.active aCtl [(Reg.FBCn_ERR_CLASH, 0, 3)]).fbc[(0 : Fin 24)] ∧
    rdB (onBus Mode.active aCtl [(Reg.FBCn_ERR_CLASH, 0, 3)]) Reg.FBCn_CTLSTS_PEND (0 : Fin 24).val = false ∧
    modeIs (onBus Mode.active aCtl [(Reg.FBCn_ERR_CLASH, 0, 3)]) ≠ Mode.test ∧
    modeIs (onBus Mode.active (let __src := aCtl; { tb := __src.tb, sel := __src.sel, fifo := __src.fifo, filters := [(0, { fid := (1 : BitVec 29), ide := true, mask := (2 : BitVec 29), offload := true : Filt }), (2, { fid := (1 : BitVec 29), ide := true, mask := (2 : BitVec 29), offload := false : Filt })], queue := __src.queue, bus := __src.bus, txw := __src.txw, ovfSeen := __src.ovfSeen, parts := __src.parts, stopped := __src.stopped, stopping := __src.stopping, nextBus := __src.nextBus, fltWas := __src.fltWas : Ctl }) [(Reg.FBCn_FLTID_FID, 0, 9)]) ≠ Mode.test ∧
    (onBus Mode.active (let __src := aCtl; { tb := __src.tb, sel := __src.sel, fifo := __src.fifo, filters := [(0, { fid := (1 : BitVec 29), ide := true, mask := (2 : BitVec 29), offload := true : Filt }), (2, { fid := (1 : BitVec 29), ide := true, mask := (2 : BitVec 29), offload := false : Filt })], queue := __src.queue, bus := __src.bus, txw := __src.txw, ovfSeen := __src.ovfSeen, parts := __src.parts, stopped := __src.stopped, stopping := __src.stopping, nextBus := __src.nextBus, fltWas := __src.fltWas : Ctl }) [(Reg.FBCn_FLTID_FID, 0, 9)]).fbc[(0 : Fin 24)].filters = (onBus Mode.active (let __src := aCtl; { tb := __src.tb, sel := __src.sel, fifo := __src.fifo, filters := [(0, { fid := (1 : BitVec 29), ide := true, mask := (2 : BitVec 29), offload := true : Filt }), (2, { fid := (1 : BitVec 29), ide := true, mask := (2 : BitVec 29), offload := false : Filt })], queue := __src.queue, bus := __src.bus, txw := __src.txw, ovfSeen := __src.ovfSeen, parts := __src.parts, stopped := __src.stopped, stopping := __src.stopping, nextBus := __src.nextBus, fltWas := __src.fltWas : Ctl }) [(Reg.FBCn_FLTID_FID, 0, 9)]).fbc[(0 : Fin 24)].filters ∧
    1 < 63 ∧
    tget (onBus Mode.active (let __src := aCtl; { tb := __src.tb, sel := __src.sel, fifo := __src.fifo, filters := [(0, { fid := (1 : BitVec 29), ide := true, mask := (2 : BitVec 29), offload := true : Filt }), (2, { fid := (1 : BitVec 29), ide := true, mask := (2 : BitVec 29), offload := false : Filt })], queue := __src.queue, bus := __src.bus, txw := __src.txw, ovfSeen := __src.ovfSeen, parts := __src.parts, stopped := __src.stopped, stopping := __src.stopping, nextBus := __src.nextBus, fltWas := __src.fltWas : Ctl }) [(Reg.FBCn_FLTID_FID, 0, 9)]).fbc[(0 : Fin 24)].filters 1 = none ∧
    (∀ j < 1, tget (onBus Mode.active (let __src := aCtl; { tb := __src.tb, sel := __src.sel, fifo := __src.fifo, filters := [(0, { fid := (1 : BitVec 29), ide := true, mask := (2 : BitVec 29), offload := true : Filt }), (2, { fid := (1 : BitVec 29), ide := true, mask := (2 : BitVec 29), offload := false : Filt })], queue := __src.queue, bus := __src.bus, txw := __src.txw, ovfSeen := __src.ovfSeen, parts := __src.parts, stopped := __src.stopped, stopping := __src.stopping, nextBus := __src.nextBus, fltWas := __src.fltWas : Ctl }) [(Reg.FBCn_FLTID_FID, 0, 9)]).fbc[(0 : Fin 24)].filters j ≠ none) ∧
    modeIs (onBus Mode.active aCtl []) ≠ Mode.test ∧
    (onBus Mode.active aCtl []).fbc[(0 : Fin 24)].filters = (onBus Mode.active aCtl []).fbc[(0 : Fin 24)].filters ∧
    0 < 63 ∧
    tget (onBus Mode.active aCtl []).fbc[(0 : Fin 24)].filters 0 = none ∧
    (∀ j < 0, tget (onBus Mode.active aCtl []).fbc[(0 : Fin 24)].filters j ≠ none) := by
  and_intros <;> decide +kernel

theorem witness_BusControlAndFilters_4 :
    modeIs (onBus Mode.active (let __src := aCtl; { tb := __src.tb, sel := __src.sel, fifo := __src.fifo, filters := List.take 62 fullFilters, queue := __src.queue, bus := __src.bus, txw := __src.txw, ovfSeen := __src.ovfSeen, parts := __src.parts, stopped := __src.stopped, stopping := __src.stopping, nextBus := __src.nextBus, fltWas := __src.fltWas : Ctl }) []) ≠ Mode.test ∧
    (onBus Mode.active (let __src := aCtl; { tb := __src.tb, sel := __src.sel, fifo := __src.fifo, filters := List.take 62 fullFilters, queue := __src.queue, bus := __src.bus, txw := __src.txw, ovfSeen := __src.ovfSeen, parts := __src.parts, stopped := __src.stopped, stopping := __src.stopping, nextBus := __src.nextBus, fltWas := __src.fltWas : Ctl }) []).fbc[(0 : Fin 24)].filters = (onBus Mode.active (let __src := aCtl; { tb := __src.tb, sel := __src.sel, fifo := __src.fifo, filters := List.take 62 fullFilters, queue := __src.queue, bus := __src.bus, txw := __src.txw, ovfSeen := __src.ovfSeen, parts := __src.parts, stopped := __src.stopped, stopping := __src.stopping, nextBus := __src.nextBus, fltWas := __src.fltWas : Ctl }) []).fbc[(0 : Fin 24)].filters ∧
    62 < 63 ∧
    tget (onBus Mode.active (let __src := aCtl; { tb := __src.tb, sel := __src.sel, fifo := __src.fifo, filters := List.take 62 fullFilters, queue := __src.queue, bus := __src.bus, txw := __src.txw, ovfSeen := __src.ovfSeen, parts := __src.parts, stopped := __src.stopped, stopping := __src.stopping, nextBus := __src.nextBus, fltWas := __src.fltWas : Ctl }) []).fbc[(0 : Fin 24)].filters 62 = none ∧
    (∀ j < 62, tget (onBus Mode.active (let __src := aCtl; { tb := __src.tb, sel := __src.sel, fifo := __src.fifo, filters := List.take 62 fullFilters, queue := __src.queue, bus := __src.bus, txw := __src.txw, ovfSeen := __src.ovfSeen, parts := __src.parts, stopped := __src.stopped, stopping := __src.stopping, nextBus := __src.nextBus, fltWas := __src.fltWas : Ctl }) []).fbc[(0 : Fin 24)].filters j ≠ none) ∧
    modeIs (onBus Mode.active (let __src := aCtl; { tb := __src.tb, sel := __src.sel, fifo := __src.fifo, filters := fullFilters, queue := __src.queue, bus := __src.bus, txw := __src.txw, ovfSeen := __src.ovfSeen, parts := __src.parts, stopped := __src.stopped, stopping := __src.stopping, nextBus := __src.nextBus, fltWas := __src.fltWas : Ctl }) []) ≠ Mode.test ∧
    (onBus Mode.active (let __src := aCtl; { tb := __src.tb, sel := __src.sel, fifo := __src.fifo, filters := fullFilters, queue := __src.queue, bus := __src.bus, txw := __src.txw, ovfSeen := __src.ovfSeen, parts := __src.parts, stopped := __src.stopped, stopping := __src.stopping, nextBus := __src.nextBus, fltWas := __src.fltWas : Ctl }) []).fbc[(0 : Fin 24)].filters = (onBus Mode.active (let __src := aCtl; { tb := __src.tb, sel := __src.sel, fifo := __src.fifo, filters := fullFilters, queue := __src.queue, bus := __src.bus, txw := __src.txw, ovfSeen := __src.ovfSeen, parts := __src.parts, stopped := __src.stopped, stopping := __src.stopping, nextBus := __src.nextBus, fltWas := __src.fltWas : Ctl }) []).fbc[(0 : Fin 24)].filters ∧
    (∀ j < 63, tget (onBus Mode.active (let __src := aCtl; { tb := __src.tb, sel := __src.sel, fifo := __src.fifo, filters := fullFilters, queue := __src.queue, bus := __src.bus, txw := __src.txw, ovfSeen := __src.ovfSeen, parts := __src.parts, stopped := __src.stopped, stopping := __src.stopping, nextBus := __src.nextBus, fltWas := __src.fltWas : Ctl }) []).fbc[(0 : Fin 24)].filters j ≠ none) ∧
    modeIs (onBus Mode.active (let __src := aCtl; { tb := __src.tb, sel := __src.sel, fifo := __src.fifo, filters := [(0, { fid := (1 : BitVec 29), ide := true, mask := (2 : BitVec 29), offload := true : Filt }), (2, { fid := (1 : BitVec 29), ide := true, mask := (2 : BitVec 29), offload := false : Filt })], queue := __src.queue, bus := __src.bus, txw := __src.txw, ovfSeen := __src.ovfSeen, parts := __src.parts, stopped := __src.stopped, stopping := __src.stopping, nextBus := __src.nextBus, fltWas := __src.fltWas : Ctl }) []) ≠ Mode.test ∧
    (onBus Mode.active (let __src := aCtl; { tb := __src.tb, sel := __src.sel, fifo := __src.fifo, filters := [(0, { fid := (1 : BitVec 29), ide := true, mask := (2 : BitVec 29), offload := true : Filt }), (2, { fid := (1 : BitVec 29), ide := true, mask := (2 : BitVec 29), offload := false : Filt })], queue := __src.queue, bus := __src.bus, txw := __src.txw, ovfSeen := __src.ovfSeen, parts := __src.parts, stopped := __src.stopped, stopping := __src.stopping, nextBus := __src.nextBus, fltWas := __src.fltWas : Ctl }) []).fbc[(0 : Fin 24)].filters = (onBus Mode.active (let __src := aCtl; { tb := __src.tb, sel := __src.sel, fifo := __src.fifo, filters := [(0, { fid := (1 : BitVec 29), ide := true, mask := (2 : BitVec 29), offload := true : Filt }), (2, { fid := (1 : BitVec 29), ide := true, mask := (2 : BitVec 29), offload := false : Filt })], queue := __src.queue, bus := __src.bus, txw := __src.txw, ovfSeen := __src.ovfSeen, parts := __src.parts, stopped := __src.stopped, stopping := __src.stopping, nextBus := __src.nextBus, fltWas := __src.fltWas : Ctl }) []).fbc[(0 : Fin 24)].filters := by
  and_intros <;> decide +kernel

theorem witness_BusTransmission_1 :
    (onBus Mode.active (let __src := aCtl; { tb := #v[none, none, some { frame := aFrame, host := true, expiry := none, vertex := none, errors := 0, clash := 0, clashRec := false, cancel := false : TxReq }], sel := none, fifo := __src.fifo, filters := __src.filters, queue := __src.queue, bus := __src.bus, txw := __src.txw, ovfSeen := __src.ovfSeen, parts := __src.parts, stopped := __src.stopped, stopping := __src.stopping, nextBus := __src.nextBus, fltWas := __src.fltWas : Ctl }) []).fbc[(0 : Fin 24)] = (onBus Mode.active (let __src := aCtl; { tb := #v[none, none, some { frame := aFrame, host := true, expiry := none, vertex := none, errors := 0, clash := 0, clashRec := false, cancel := false : TxReq }], sel := none, fifo := __src.fifo, filters := __src.filters, queue := __src.queue, bus := __src.bus, txw := __src.txw, ovfSeen := __src.ovfSeen, parts := __src.parts, stopped := __src.stopped, stopping := __src.stopping, nextBus := __src.nextBus, fltWas := __src.fltWas : Ctl }) []).fbc[(0 : Fin 24)] ∧
    (onBus Mode.active (let __src := aCtl; { tb := #v[none, none, some { frame := aFrame, host := true, expiry := none, vertex := none, errors := 0, clash := 0, clashRec := false, cancel := false : TxReq }], sel := none, fifo := __src.fifo, filters := __src.filters, queue := __src.queue, bus := __src.bus, txw := __src.txw, ovfSeen := __src.ovfSeen, parts := __src.parts, stopped := __src.stopped, stopping := __src.stopping, nextBus := __src.nextBus, fltWas := __src.fltWas : Ctl }) []).fbc[(0 : Fin 24)].bus = some aBus ∧
    aBus.en = true ∧
    aBus.tb2Host = true ∧
    modeIs (onBus Mode.active (let __src := aCtl; { tb := #v[none, none, some { frame := aFrame, host := true, expiry := none, vertex := none, errors := 0, clash := 0, clashRec := false, cancel := false : TxReq }], sel := none, fifo := __src.fifo, filters := __src.filters, queue := __src.queue, bus := __src.bus, txw := __src.txw, ovfSeen := __src.ovfSeen, parts := __src.parts, stopped := __src.stopped, stopping := __src.stopping, nextBus := __src.nextBus, fltWas := __src.fltWas : Ctl }) []) ≠ Mode.test ∧
    hostFrame (let __src := aCtl; { tb := #v[none, none, some { frame := aFrame, host := true, expiry := none, vertex := none, errors := 0, clash := 0, clashRec := false, cancel := false : TxReq }], sel := none, fifo := __src.fifo, filters := __src.filters, queue := __src.queue, bus := __src.bus, txw := __src.txw, ovfSeen := __src.ovfSeen, parts := __src.parts, stopped := __src.stopped, stopping := __src.stopping, nextBus := __src.nextBus, fltWas := __src.fltWas : Ctl }) = hostFrame (onBus Mode.active (let __src := aCtl; { tb := #v[none, none, some { frame := aFrame, host := true, expiry := none, vertex := none, errors := 0, clash := 0, clashRec := false, cancel := false : TxReq }], sel := none, fifo := __src.fifo, filters := __src.filters, queue := __src.queue, bus := __src.bus, txw := __src.txw, ovfSeen := __src.ovfSeen, parts := __src.parts, stopped := __src.stopped, stopping := __src.stopping, nextBus := __src.nextBus, fltWas := __src.fltWas : Ctl }) []).fbc[(0 : Fin 24)] ∧
    (onBus Mode.active (let __src := aCtl; { tb := #v[none, none, some { frame := aFrame, host := true, expiry := none, vertex := none, errors := 0, clash := 0, clashRec := false, cancel := false : TxReq }], sel := none, fifo := __src.fifo, filters := __src.filters, queue := __src.queue, bus := __src.bus, txw := __src.txw, ovfSeen := __src.ovfSeen, parts := __src.parts, stopped := __src.stopped, stopping := __src.stopping, nextBus := __src.nextBus, fltWas := __src.fltWas : Ctl }) []).fbc[(0 : Fin 24)].tb[2].isSome = true ∧
    (onBus Mode.active aCtl [(Reg.FBCn_STATUS_PMODE, 0, 1)]).fbc[(0 : Fin 24)] = (onBus Mode.active aCtl [(Reg.FBCn_STATUS_PMODE, 0, 1)]).fbc[(0 : Fin 24)] ∧
    (onBus Mode.active aCtl [(Reg.FBCn_STATUS_PMODE, 0, 1)]).fbc[(0 : Fin 24)].bus = some aBus ∧
    modeIs (onBus Mode.active aCtl [(Reg.FBCn_STATUS_PMODE, 0, 1)]) ≠ Mode.test ∧
    hostFrame aCtl = hostFrame (onBus Mode.active aCtl [(Reg.FBCn_STATUS_PMODE, 0, 1)]).fbc[(0 : Fin 24)] ∧
    (onBus Mode.active aCtl [(Reg.FBCn_STATUS_PMODE, 0, 1)]).fbc[(0 : Fin 24)].tb[2] = none ∧
    (hostFrame aCtl).dlc.toNat ≤ 8 ∧
    (¬((hostFrame aCtl).rtr = true ∧ (hostFrame aCtl).fdf = true)) ∧
    (bitsOf (txWord (onBus Mode.active aCtl [(Reg.FBCn_STATUS_PMODE, 0, 1)]).fbc[(0 : Fin 24)] 1) 4 1 = 1 → aBus.brs = true) ∧
    ((hostFrame aCtl).fdf = true → busClassic (onBus Mode.active aCtl [(Reg.FBCn_STATUS_PMODE, 0, 1)]) (0 : Fin 24) = false) ∧
    resState (onBus Mode.active aCtl [(Reg.FBCn_STATUS_PMODE, 0, 1)]) { cls := FClass.fieldbus, idx := (0 : Fin 24).val : Resource } ≠ MState.retired ∧
    (onBus Mode.active aCtl [(Reg.FBCn_STATUS_PMODE, 0, 1)]).fbc[(0 : Fin 24)].stopped = false ∧
    (onBus Mode.active aCtl [(Reg.FBCn_STATUS_PMODE, 0, 1)]).fbc[(0 : Fin 24)].stopping = false ∧
    rdB (onBus Mode.active aCtl [(Reg.FBCn_STATUS_PMODE, 0, 1)]) Reg.FBCn_STATUS_BUSOFF (0 : Fin 24).val = false := by
  and_intros <;> decide +kernel

theorem witness_BusTransmission_2 :
    (onBus Mode.active (let __src := aCtl; { tb := __src.tb, sel := __src.sel, fifo := __src.fifo, filters := __src.filters, queue := __src.queue, bus := __src.bus, txw := [(0, (2684354901 : BitVec 32)), (1, (25 : BitVec 32))], ovfSeen := __src.ovfSeen, parts := __src.parts, stopped := __src.stopped, stopping := __src.stopping, nextBus := __src.nextBus, fltWas := __src.fltWas : Ctl }) [(Reg.FBCn_STATUS_PMODE, 0, 1)]).fbc[(0 : Fin 24)] = (onBus Mode.active (let __src := aCtl; { tb := __src.tb, sel := __src.sel, fifo := __src.fifo, filters := __src.filters, queue := __src.queue, bus := __src.bus, txw := [(0, (2684354901 : BitVec 32)), (1, (25 : BitVec 32))], ovfSeen := __src.ovfSeen, parts := __src.parts, stopped := __src.stopped, stopping := __src.stopping, nextBus := __src.nextBus, fltWas := __src.fltWas : Ctl }) [(Reg.FBCn_STATUS_PMODE, 0, 1)]).fbc[(0 : Fin 24)] ∧
    (onBus Mode.active (let __src := aCtl; { tb := __src.tb, sel := __src.sel, fifo := __src.fifo, filters := __src.filters, queue := __src.queue, bus := __src.bus, txw := [(0, (2684354901 : BitVec 32)), (1, (25 : BitVec 32))], ovfSeen := __src.ovfSeen, parts := __src.parts, stopped := __src.stopped, stopping := __src.stopping, nextBus := __src.nextBus, fltWas := __src.fltWas : Ctl }) [(Reg.FBCn_STATUS_PMODE, 0, 1)]).fbc[(0 : Fin 24)].bus = some aBus ∧
    aBus.en = true ∧
    aBus.tb2Host = true ∧
    modeIs (onBus Mode.active (let __src := aCtl; { tb := __src.tb, sel := __src.sel, fifo := __src.fifo, filters := __src.filters, queue := __src.queue, bus := __src.bus, txw := [(0, (2684354901 : BitVec 32)), (1, (25 : BitVec 32))], ovfSeen := __src.ovfSeen, parts := __src.parts, stopped := __src.stopped, stopping := __src.stopping, nextBus := __src.nextBus, fltWas := __src.fltWas : Ctl }) [(Reg.FBCn_STATUS_PMODE, 0, 1)]) ≠ Mode.test ∧
    hostFrame (let __src := aCtl; { tb := __src.tb, sel := __src.sel, fifo := __src.fifo, filters := __src.filters, queue := __src.queue, bus := __src.bus, txw := [(0, (2684354901 : BitVec 32)), (1, (25 : BitVec 32))], ovfSeen := __src.ovfSeen, parts := __src.parts, stopped := __src.stopped, stopping := __src.stopping, nextBus := __src.nextBus, fltWas := __src.fltWas : Ctl }) = hostFrame (onBus Mode.active (let __src := aCtl; { tb := __src.tb, sel := __src.sel, fifo := __src.fifo, filters := __src.filters, queue := __src.queue, bus := __src.bus, txw := [(0, (2684354901 : BitVec 32)), (1, (25 : BitVec 32))], ovfSeen := __src.ovfSeen, parts := __src.parts, stopped := __src.stopped, stopping := __src.stopping, nextBus := __src.nextBus, fltWas := __src.fltWas : Ctl }) [(Reg.FBCn_STATUS_PMODE, 0, 1)]).fbc[(0 : Fin 24)] ∧
    (onBus Mode.active (let __src := aCtl; { tb := __src.tb, sel := __src.sel, fifo := __src.fifo, filters := __src.filters, queue := __src.queue, bus := __src.bus, txw := [(0, (2684354901 : BitVec 32)), (1, (25 : BitVec 32))], ovfSeen := __src.ovfSeen, parts := __src.parts, stopped := __src.stopped, stopping := __src.stopping, nextBus := __src.nextBus, fltWas := __src.fltWas : Ctl }) [(Reg.FBCn_STATUS_PMODE, 0, 1)]).fbc[(0 : Fin 24)].tb[2] = none ∧
    (hostFrame (let __src := aCtl; { tb := __src.tb, sel := __src.sel, fifo := __src.fifo, filters := __src.filters, queue := __src.queue, bus := __src.bus, txw := [(0, (2684354901 : BitVec 32)), (1, (25 : BitVec 32))], ovfSeen := __src.ovfSeen, parts := __src.parts, stopped := __src.stopped, stopping := __src.stopping, nextBus := __src.nextBus, fltWas := __src.fltWas : Ctl })).fdf = true ∧
    (¬((hostFrame (let __src := aCtl; { tb := __src.tb, sel := __src.sel, fifo := __src.fifo, filters := __src.filters, queue := __src.queue, bus := __src.bus, txw := [(0, (2684354901 : BitVec 32)), (1, (25 : BitVec 32))], ovfSeen := __src.ovfSeen, parts := __src.parts, stopped := __src.stopped, stopping := __src.stopping, nextBus := __src.nextBus, fltWas := __src.fltWas : Ctl })).rtr = true ∧ (hostFrame (let __src := aCtl; { tb := __src.tb, sel := __src.sel, fifo := __src.fifo, filters := __src.filters, queue := __src.queue, bus := __src.bus, txw := [(0, (2684354901 : BitVec 32)), (1, (25 : BitVec 32))], ovfSeen := __src.ovfSeen, parts := __src.parts, stopped := __src.stopped, stopping := __src.stopping, nextBus := __src.nextBus, fltWas := __src.fltWas : Ctl })).fdf = true)) ∧
    (bitsOf (txWord (onBus Mode.active (let __src := aCtl; { tb := __src.tb, sel := __src.sel, fifo := __src.fifo, filters := __src.filters, queue := __src.queue, bus := __src.bus, txw := [(0, (2684354901 : BitVec 32)), (1, (25 : BitVec 32))], ovfSeen := __src.ovfSeen, parts := __src.parts, stopped := __src.stopped, stopping := __src.stopping, nextBus := __src.nextBus, fltWas := __src.fltWas : Ctl }) [(Reg.FBCn_STATUS_PMODE, 0, 1)]).fbc[(0 : Fin 24)] 1) 4 1 = 1 → aBus.brs = true) ∧
    ((hostFrame (let __src := aCtl; { tb := __src.tb, sel := __src.sel, fifo := __src.fifo, filters := __src.filters, queue := __src.queue, bus := __src.bus, txw := [(0, (2684354901 : BitVec 32)), (1, (25 : BitVec 32))], ovfSeen := __src.ovfSeen, parts := __src.parts, stopped := __src.stopped, stopping := __src.stopping, nextBus := __src.nextBus, fltWas := __src.fltWas : Ctl })).fdf = true → busClassic (onBus Mode.active (let __src := aCtl; { tb := __src.tb, sel := __src.sel, fifo := __src.fifo, filters := __src.filters, queue := __src.queue, bus := __src.bus, txw := [(0, (2684354901 : BitVec 32)), (1, (25 : BitVec 32))], ovfSeen := __src.ovfSeen, parts := __src.parts, stopped := __src.stopped, stopping := __src.stopping, nextBus := __src.nextBus, fltWas := __src.fltWas : Ctl }) [(Reg.FBCn_STATUS_PMODE, 0, 1)]) (0 : Fin 24) = false) ∧
    resState (onBus Mode.active (let __src := aCtl; { tb := __src.tb, sel := __src.sel, fifo := __src.fifo, filters := __src.filters, queue := __src.queue, bus := __src.bus, txw := [(0, (2684354901 : BitVec 32)), (1, (25 : BitVec 32))], ovfSeen := __src.ovfSeen, parts := __src.parts, stopped := __src.stopped, stopping := __src.stopping, nextBus := __src.nextBus, fltWas := __src.fltWas : Ctl }) [(Reg.FBCn_STATUS_PMODE, 0, 1)]) { cls := FClass.fieldbus, idx := (0 : Fin 24).val : Resource } ≠ MState.retired ∧
    (onBus Mode.active (let __src := aCtl; { tb := __src.tb, sel := __src.sel, fifo := __src.fifo, filters := __src.filters, queue := __src.queue, bus := __src.bus, txw := [(0, (2684354901 : BitVec 32)), (1, (25 : BitVec 32))], ovfSeen := __src.ovfSeen, parts := __src.parts, stopped := __src.stopped, stopping := __src.stopping, nextBus := __src.nextBus, fltWas := __src.fltWas : Ctl }) [(Reg.FBCn_STATUS_PMODE, 0, 1)]).fbc[(0 : Fin 24)].stopped = false ∧
    (onBus Mode.active (let __src := aCtl; { tb := __src.tb, sel := __src.sel, fifo := __src.fifo, filters := __src.filters, queue := __src.queue, bus := __src.bus, txw := [(0, (2684354901 : BitVec 32)), (1, (25 : BitVec 32))], ovfSeen := __src.ovfSeen, parts := __src.parts, stopped := __src.stopped, stopping := __src.stopping, nextBus := __src.nextBus, fltWas := __src.fltWas : Ctl }) [(Reg.FBCn_STATUS_PMODE, 0, 1)]).fbc[(0 : Fin 24)].stopping = false ∧
    rdB (onBus Mode.active (let __src := aCtl; { tb := __src.tb, sel := __src.sel, fifo := __src.fifo, filters := __src.filters, queue := __src.queue, bus := __src.bus, txw := [(0, (2684354901 : BitVec 32)), (1, (25 : BitVec 32))], ovfSeen := __src.ovfSeen, parts := __src.parts, stopped := __src.stopped, stopping := __src.stopping, nextBus := __src.nextBus, fltWas := __src.fltWas : Ctl }) [(Reg.FBCn_STATUS_PMODE, 0, 1)]) Reg.FBCn_STATUS_BUSOFF (0 : Fin 24).val = false ∧
    (onBus Mode.active aCtl []).fbc[(0 : Fin 24)] = (onBus Mode.active aCtl []).fbc[(0 : Fin 24)] ∧
    (onBus Mode.active aCtl []).fbc[(0 : Fin 24)].queue = [] ∧
    (onBus Mode.active aCtl []).fbc[(0 : Fin 24)].stopping = false ∧
    (onBus Mode.active aCtl []).fbc[(0 : Fin 24)].nextBus = none ∧
    modeIs (onBus Mode.active aCtl []) ≠ Mode.test ∧
    (onBus Mode.active aCtl []).fbc[(0 : Fin 24)].tb[2] = none := by
  and_intros <;> decide +kernel

theorem witness_BusTransmission_3 :
    (onBus Mode.active (let __src := aCtl; { tb := #v[none, none, some { frame := aFrame, host := true, expiry := none, vertex := none, errors := 0, clash := 0, clashRec := false, cancel := false : TxReq }], sel := some (2 : Fin 3), fifo := __src.fifo, filters := __src.filters, queue := __src.queue, bus := __src.bus, txw := __src.txw, ovfSeen := __src.ovfSeen, parts := __src.parts, stopped := __src.stopped, stopping := __src.stopping, nextBus := __src.nextBus, fltWas := __src.fltWas : Ctl }) [(Reg.FBCn_STATUS_PMODE, 0, 1)]).fbc[(0 : Fin 24)] = (onBus Mode.active (let __src := aCtl; { tb := #v[none, none, some { frame := aFrame, host := true, expiry := none, vertex := none, errors := 0, clash := 0, clashRec := false, cancel := false : TxReq }], sel := some (2 : Fin 3), fifo := __src.fifo, filters := __src.filters, queue := __src.queue, bus := __src.bus, txw := __src.txw, ovfSeen := __src.ovfSeen, parts := __src.parts, stopped := __src.stopped, stopping := __src.stopping, nextBus := __src.nextBus, fltWas := __src.fltWas : Ctl }) [(Reg.FBCn_STATUS_PMODE, 0, 1)]).fbc[(0 : Fin 24)] ∧
    (onBus Mode.active (let __src := aCtl; { tb := #v[none, none, some { frame := aFrame, host := true, expiry := none, vertex := none, errors := 0, clash := 0, clashRec := false, cancel := false : TxReq }], sel := some (2 : Fin 3), fifo := __src.fifo, filters := __src.filters, queue := __src.queue, bus := __src.bus, txw := __src.txw, ovfSeen := __src.ovfSeen, parts := __src.parts, stopped := __src.stopped, stopping := __src.stopping, nextBus := __src.nextBus, fltWas := __src.fltWas : Ctl }) [(Reg.FBCn_STATUS_PMODE, 0, 1)]).fbc[(0 : Fin 24)].queue = [] ∧
    (onBus Mode.active (let __src := aCtl; { tb := #v[none, none, some { frame := aFrame, host := true, expiry := none, vertex := none, errors := 0, clash := 0, clashRec := false, cancel := false : TxReq }], sel := some (2 : Fin 3), fifo := __src.fifo, filters := __src.filters, queue := __src.queue, bus := __src.bus, txw := __src.txw, ovfSeen := __src.ovfSeen, parts := __src.parts, stopped := __src.stopped, stopping := __src.stopping, nextBus := __src.nextBus, fltWas := __src.fltWas : Ctl }) [(Reg.FBCn_STATUS_PMODE, 0, 1)]).fbc[(0 : Fin 24)].stopping = false ∧
    (onBus Mode.active (let __src := aCtl; { tb := #v[none, none, some { frame := aFrame, host := true, expiry := none, vertex := none, errors := 0, clash := 0, clashRec := false, cancel := false : TxReq }], sel := some (2 : Fin 3), fifo := __src.fifo, filters := __src.filters, queue := __src.queue, bus := __src.bus, txw := __src.txw, ovfSeen := __src.ovfSeen, parts := __src.parts, stopped := __src.stopped, stopping := __src.stopping, nextBus := __src.nextBus, fltWas := __src.fltWas : Ctl }) [(Reg.FBCn_STATUS_PMODE, 0, 1)]).fbc[(0 : Fin 24)].nextBus = none ∧
    modeIs (onBus Mode.active (let __src := aCtl; { tb := #v[none, none, some { frame := aFrame, host := true, expiry := none, vertex := none, errors := 0, clash := 0, clashRec := false, cancel := false : TxReq }], sel := some (2 : Fin 3), fifo := __src.fifo, filters := __src.filters, queue := __src.queue, bus := __src.bus, txw := __src.txw, ovfSeen := __src.ovfSeen, parts := __src.parts, stopped := __src.stopped, stopping := __src.stopping, nextBus := __src.nextBus, fltWas := __src.fltWas : Ctl }) [(Reg.FBCn_STATUS_PMODE, 0, 1)]) ≠ Mode.test ∧
    (onBus Mode.active (let __src := aCtl; { tb := #v[none, none, some { frame := aFrame, host := true, expiry := none, vertex := none, errors := 0, clash := 0, clashRec := false, cancel := false : TxReq }], sel := some (2 : Fin 3), fifo := __src.fifo, filters := __src.filters, queue := __src.queue, bus := __src.bus, txw := __src.txw, ovfSeen := __src.ovfSeen, parts := __src.parts, stopped := __src.stopped, stopping := __src.stopping, nextBus := __src.nextBus, fltWas := __src.fltWas : Ctl }) [(Reg.FBCn_STATUS_PMODE, 0, 1)]).fbc[(0 : Fin 24)].tb[2] = some { frame := aFrame, host := true, expiry := none, vertex := none, errors := 0, clash := 0, clashRec := false, cancel := false : TxReq } ∧
    { frame := aFrame, host := true, expiry := none, vertex := none, errors := 0, clash := 0, clashRec := false, cancel := false : TxReq }.host = true ∧
    CancelAt.beforeCommit ≠ CancelAt.afterCommit ∧
    (onBus Mode.active (let __src := aCtl; { tb := #v[none, none, some { frame := aFrame, host := true, expiry := none, vertex := none, errors := 0, clash := 0, clashRec := false, cancel := false : TxReq }], sel := some (1 : Fin 3), fifo := __src.fifo, filters := __src.filters, queue := __src.queue, bus := __src.bus, txw := __src.txw, ovfSeen := __src.ovfSeen, parts := __src.parts, stopped := __src.stopped, stopping := __src.stopping, nextBus := __src.nextBus, fltWas := __src.fltWas : Ctl }) [(Reg.FBCn_STATUS_PMODE, 0, 1)]).fbc[(0 : Fin 24)] = (onBus Mode.active (let __src := aCtl; { tb := #v[none, none, some { frame := aFrame, host := true, expiry := none, vertex := none, errors := 0, clash := 0, clashRec := false, cancel := false : TxReq }], sel := some (1 : Fin 3), fifo := __src.fifo, filters := __src.filters, queue := __src.queue, bus := __src.bus, txw := __src.txw, ovfSeen := __src.ovfSeen, parts := __src.parts, stopped := __src.stopped, stopping := __src.stopping, nextBus := __src.nextBus, fltWas := __src.fltWas : Ctl }) [(Reg.FBCn_STATUS_PMODE, 0, 1)]).fbc[(0 : Fin 24)] ∧
    (onBus Mode.active (let __src := aCtl; { tb := #v[none, none, some { frame := aFrame, host := true, expiry := none, vertex := none, errors := 0, clash := 0, clashRec := false, cancel := false : TxReq }], sel := some (1 : Fin 3), fifo := __src.fifo, filters := __src.filters, queue := __src.queue, bus := __src.bus, txw := __src.txw, ovfSeen := __src.ovfSeen, parts := __src.parts, stopped := __src.stopped, stopping := __src.stopping, nextBus := __src.nextBus, fltWas := __src.fltWas : Ctl }) [(Reg.FBCn_STATUS_PMODE, 0, 1)]).fbc[(0 : Fin 24)].queue = [] ∧
    (onBus Mode.active (let __src := aCtl; { tb := #v[none, none, some { frame := aFrame, host := true, expiry := none, vertex := none, errors := 0, clash := 0, clashRec := false, cancel := false : TxReq }], sel := some (1 : Fin 3), fifo := __src.fifo, filters := __src.filters, queue := __src.queue, bus := __src.bus, txw := __src.txw, ovfSeen := __src.ovfSeen, parts := __src.parts, stopped := __src.stopped, stopping := __src.stopping, nextBus := __src.nextBus, fltWas := __src.fltWas : Ctl }) [(Reg.FBCn_STATUS_PMODE, 0, 1)]).fbc[(0 : Fin 24)].stopping = false ∧
    (onBus Mode.active (let __src := aCtl; { tb := #v[none, none, some { frame := aFrame, host := true, expiry := none, vertex := none, errors := 0, clash := 0, clashRec := false, cancel := false : TxReq }], sel := some (1 : Fin 3), fifo := __src.fifo, filters := __src.filters, queue := __src.queue, bus := __src.bus, txw := __src.txw, ovfSeen := __src.ovfSeen, parts := __src.parts, stopped := __src.stopped, stopping := __src.stopping, nextBus := __src.nextBus, fltWas := __src.fltWas : Ctl }) [(Reg.FBCn_STATUS_PMODE, 0, 1)]).fbc[(0 : Fin 24)].nextBus = none ∧
    modeIs (onBus Mode.active (let __src := aCtl; { tb := #v[none, none, some { frame := aFrame, host := true, expiry := none, vertex := none, errors := 0, clash := 0, clashRec := false, cancel := false : TxReq }], sel := some (1 : Fin 3), fifo := __src.fifo, filters := __src.filters, queue := __src.queue, bus := __src.bus, txw := __src.txw, ovfSeen := __src.ovfSeen, parts := __src.parts, stopped := __src.stopped, stopping := __src.stopping, nextBus := __src.nextBus, fltWas := __src.fltWas : Ctl }) [(Reg.FBCn_STATUS_PMODE, 0, 1)]) ≠ Mode.test ∧
    (onBus Mode.active (let __src := aCtl; { tb := #v[none, none, some { frame := aFrame, host := true, expiry := none, vertex := none, errors := 0, clash := 0, clashRec := false, cancel := false : TxReq }], sel := some (1 : Fin 3), fifo := __src.fifo, filters := __src.filters, queue := __src.queue, bus := __src.bus, txw := __src.txw, ovfSeen := __src.ovfSeen, parts := __src.parts, stopped := __src.stopped, stopping := __src.stopping, nextBus := __src.nextBus, fltWas := __src.fltWas : Ctl }) [(Reg.FBCn_STATUS_PMODE, 0, 1)]).fbc[(0 : Fin 24)].tb[2] = some { frame := aFrame, host := true, expiry := none, vertex := none, errors := 0, clash := 0, clashRec := false, cancel := false : TxReq } ∧
    (onBus Mode.active (let __src := aCtl; { tb := #v[none, none, some { frame := aFrame, host := true, expiry := none, vertex := none, errors := 0, clash := 0, clashRec := false, cancel := false : TxReq }], sel := some (1 : Fin 3), fifo := __src.fifo, filters := __src.filters, queue := __src.queue, bus := __src.bus, txw := __src.txw, ovfSeen := __src.ovfSeen, parts := __src.parts, stopped := __src.stopped, stopping := __src.stopping, nextBus := __src.nextBus, fltWas := __src.fltWas : Ctl }) [(Reg.FBCn_STATUS_PMODE, 0, 1)]).fbc[(0 : Fin 24)].sel ≠ some (2 : Fin 3) ∧
    (onBus Mode.active (let __src := aCtl; { tb := #v[none, none, some { frame := aFrame, host := true, expiry := none, vertex := none, errors := 0, clash := 0, clashRec := false, cancel := false : TxReq }], sel := some (2 : Fin 3), fifo := __src.fifo, filters := __src.filters, queue := __src.queue, bus := __src.bus, txw := __src.txw, ovfSeen := __src.ovfSeen, parts := __src.parts, stopped := __src.stopped, stopping := __src.stopping, nextBus := __src.nextBus, fltWas := __src.fltWas : Ctl }) [(Reg.FBCn_STATUS_PMODE, 0, 1)]).fbc[(0 : Fin 24)].sel = some (2 : Fin 3) ∧
    (onBus Mode.active (let __src := aCtl; { tb := #v[none, some { frame := fdFrame, host := false, expiry := some 9, vertex := none, errors := 0, clash := 0, clashRec := false, cancel := false : TxReq }, some { frame := aFrame, host := true, expiry := none, vertex := none, errors := 0, clash := 0, clashRec := false, cancel := false : TxReq }], sel := some (2 : Fin 3), fifo := __src.fifo, filters := __src.filters, queue := __src.queue, bus := __src.bus, txw := __src.txw, ovfSeen := __src.ovfSeen, parts := __src.parts, stopped := __src.stopped, stopping := __src.stopping, nextBus := __src.nextBus, fltWas := __src.fltWas : Ctl }) [(Reg.FBCn_STATUS_PMODE, 0, 1)]).fbc[(0 : Fin 24)] = (onBus Mode.active (let __src := aCtl; { tb := #v[none, some { frame := fdFrame, host := false, expiry := some 9, vertex := none, errors := 0, clash := 0, clashRec := false, cancel := false : TxReq }, some { frame := aFrame, host := true, expiry := none, vertex := none, errors := 0, clash := 0, clashRec := false, cancel := false : TxReq }], sel := some (2 : Fin 3), fifo := __src.fifo, filters := __src.filters, queue := __src.queue, bus := __src.bus, txw := __src.txw, ovfSeen := __src.ovfSeen, parts := __src.parts, stopped := __src.stopped, stopping := __src.stopping, nextBus := __src.nextBus, fltWas := __src.fltWas : Ctl }) [(Reg.FBCn_STATUS_PMODE, 0, 1)]).fbc[(0 : Fin 24)] ∧
    (onBus Mode.active (let __src := aCtl; { tb := #v[none, some { frame := fdFrame, host := false, expiry := some 9, vertex := none, errors := 0, clash := 0, clashRec := false, cancel := false : TxReq }, some { frame := aFrame, host := true, expiry := none, vertex := none, errors := 0, clash := 0, clashRec := false, cancel := false : TxReq }], sel := some (2 : Fin 3), fifo := __src.fifo, filters := __src.filters, queue := __src.queue, bus := __src.bus, txw := __src.txw, ovfSeen := __src.ovfSeen, parts := __src.parts, stopped := __src.stopped, stopping := __src.stopping, nextBus := __src.nextBus, fltWas := __src.fltWas : Ctl }) [(Reg.FBCn_STATUS_PMODE, 0, 1)]).fbc[(0 : Fin 24)].queue = [] ∧
    (onBus Mode.active (let __src := aCtl; { tb := #v[none, some { frame := fdFrame, host := false, expiry := some 9, vertex := none, errors := 0, clash := 0, clashRec := false, cancel := false : TxReq }, some { frame := aFrame, host := true, expiry := none, vertex := none, errors := 0, clash := 0, clashRec := false, cancel := false : TxReq }], sel := some (2 : Fin 3), fifo := __src.fifo, filters := __src.filters, queue := __src.queue, bus := __src.bus, txw := __src.txw, ovfSeen := __src.ovfSeen, parts := __src.parts, stopped := __src.stopped, stopping := __src.stopping, nextBus := __src.nextBus, fltWas := __src.fltWas : Ctl }) [(Reg.FBCn_STATUS_PMODE, 0, 1)]).fbc[(0 : Fin 24)].stopping = false ∧
    (onBus Mode.active (let __src := aCtl; { tb := #v[none, some { frame := fdFrame, host := false, expiry := some 9, vertex := none, errors := 0, clash := 0, clashRec := false, cancel := false : TxReq }, some { frame := aFrame, host := true, expiry := none, vertex := none, errors := 0, clash := 0, clashRec := false, cancel := false : TxReq }], sel := some (2 : Fin 3), fifo := __src.fifo, filters := __src.filters, queue := __src.queue, bus := __src.bus, txw := __src.txw, ovfSeen := __src.ovfSeen, parts := __src.parts, stopped := __src.stopped, stopping := __src.stopping, nextBus := __src.nextBus, fltWas := __src.fltWas : Ctl }) [(Reg.FBCn_STATUS_PMODE, 0, 1)]).fbc[(0 : Fin 24)].nextBus = none ∧
    (onBus Mode.active (let __src := aCtl; { tb := #v[none, some { frame := fdFrame, host := false, expiry := some 9, vertex := none, errors := 0, clash := 0, clashRec := false, cancel := false : TxReq }, some { frame := aFrame, host := true, expiry := none, vertex := none, errors := 0, clash := 0, clashRec := false, cancel := false : TxReq }], sel := some (2 : Fin 3), fifo := __src.fifo, filters := __src.filters, queue := __src.queue, bus := __src.bus, txw := __src.txw, ovfSeen := __src.ovfSeen, parts := __src.parts, stopped := __src.stopped, stopping := __src.stopping, nextBus := __src.nextBus, fltWas := __src.fltWas : Ctl }) [(Reg.FBCn_STATUS_PMODE, 0, 1)]).fbc[(0 : Fin 24)].tb[(2 : Fin 3)] = some { frame := aFrame, host := true, expiry := none, vertex := none, errors := 0, clash := 0, clashRec := false, cancel := false : TxReq } ∧
    (onBus Mode.active (let __src := aCtl; { tb := #v[none, some { frame := fdFrame, host := false, expiry := some 9, vertex := none, errors := 0, clash := 0, clashRec := false, cancel := false : TxReq }, some { frame := aFrame, host := true, expiry := none, vertex := none, errors := 0, clash := 0, clashRec := false, cancel := false : TxReq }], sel := some (2 : Fin 3), fifo := __src.fifo, filters := __src.filters, queue := __src.queue, bus := __src.bus, txw := __src.txw, ovfSeen := __src.ovfSeen, parts := __src.parts, stopped := __src.stopped, stopping := __src.stopping, nextBus := __src.nextBus, fltWas := __src.fltWas : Ctl }) [(Reg.FBCn_STATUS_PMODE, 0, 1)]).fbc[(0 : Fin 24)].sel = some (2 : Fin 3) := by
  and_intros <;> decide +kernel

theorem witness_BusTransmission_4 :
    (onBus Mode.active (let __src := aCtl; { tb := #v[some { frame := fdFrame, host := false, expiry := some 9, vertex := some (3, (7 : BitVec 32)), errors := 2, clash := 0, clashRec := false, cancel := false : TxReq }, none, none], sel := some (0 : Fin 3), fifo := __src.fifo, filters := __src.filters, queue := __src.queue, bus := __src.bus, txw := __src.txw, ovfSeen := __src.ovfSeen, parts := __src.parts, stopped := __src.stopped, stopping := __src.stopping, nextBus := __src.nextBus, fltWas := __src.fltWas : Ctl }) [(Reg.FBCn_STATUS_PMODE, 0, 1), (Reg.FBCn_ERR_TEC, 0, 128), (Reg.FBCn_STATUS_EPASS, 0, 1)]).fbc[(0 : Fin 24)] = (onBus Mode.active (let __src := aCtl; { tb := #v[some { frame := fdFrame, host := false, expiry := some 9, vertex := some (3, (7 : BitVec 32)), errors := 2, clash := 0, clashRec := false, cancel := false : TxReq }, none, none], sel := some (0 : Fin 3), fifo := __src.fifo, filters := __src.filters, queue := __src.queue, bus := __src.bus, txw := __src.txw, ovfSeen := __src.ovfSeen, parts := __src.parts, stopped := __src.stopped, stopping := __src.stopping, nextBus := __src.nextBus, fltWas := __src.fltWas : Ctl }) [(Reg.FBCn_STATUS_PMODE, 0, 1), (Reg.FBCn_ERR_TEC, 0, 128), (Reg.FBCn_STATUS_EPASS, 0, 1)]).fbc[(0 : Fin 24)] ∧
    (onBus Mode.active (let __src := aCtl; { tb := #v[some { frame := fdFrame, host := false, expiry := some 9, vertex := some (3, (7 : BitVec 32)), errors := 2, clash := 0, clashRec := false, cancel := false : TxReq }, none, none], sel := some (0 : Fin 3), fifo := __src.fifo, filters := __src.filters, queue := __src.queue, bus := __src.bus, txw := __src.txw, ovfSeen := __src.ovfSeen, parts := __src.parts, stopped := __src.stopped, stopping := __src.stopping, nextBus := __src.nextBus, fltWas := __src.fltWas : Ctl }) [(Reg.FBCn_STATUS_PMODE, 0, 1), (Reg.FBCn_ERR_TEC, 0, 128), (Reg.FBCn_STATUS_EPASS, 0, 1)]).fbc[(0 : Fin 24)].queue = [] ∧
    (onBus Mode.active (let __src := aCtl; { tb := #v[some { frame := fdFrame, host := false, expiry := some 9, vertex := some (3, (7 : BitVec 32)), errors := 2, clash := 0, clashRec := false, cancel := false : TxReq }, none, none], sel := some (0 : Fin 3), fifo := __src.fifo, filters := __src.filters, queue := __src.queue, bus := __src.bus, txw := __src.txw, ovfSeen := __src.ovfSeen, parts := __src.parts, stopped := __src.stopped, stopping := __src.stopping, nextBus := __src.nextBus, fltWas := __src.fltWas : Ctl }) [(Reg.FBCn_STATUS_PMODE, 0, 1), (Reg.FBCn_ERR_TEC, 0, 128), (Reg.FBCn_STATUS_EPASS, 0, 1)]).fbc[(0 : Fin 24)].stopping = false ∧
    (onBus Mode.active (let __src := aCtl; { tb := #v[some { frame := fdFrame, host := false, expiry := some 9, vertex := some (3, (7 : BitVec 32)), errors := 2, clash := 0, clashRec := false, cancel := false : TxReq }, none, none], sel := some (0 : Fin 3), fifo := __src.fifo, filters := __src.filters, queue := __src.queue, bus := __src.bus, txw := __src.txw, ovfSeen := __src.ovfSeen, parts := __src.parts, stopped := __src.stopped, stopping := __src.stopping, nextBus := __src.nextBus, fltWas := __src.fltWas : Ctl }) [(Reg.FBCn_STATUS_PMODE, 0, 1), (Reg.FBCn_ERR_TEC, 0, 128), (Reg.FBCn_STATUS_EPASS, 0, 1)]).fbc[(0 : Fin 24)].nextBus = none ∧
    (onBus Mode.active (let __src := aCtl; { tb := #v[some { frame := fdFrame, host := false, expiry := some 9, vertex := some (3, (7 : BitVec 32)), errors := 2, clash := 0, clashRec := false, cancel := false : TxReq }, none, none], sel := some (0 : Fin 3), fifo := __src.fifo, filters := __src.filters, queue := __src.queue, bus := __src.bus, txw := __src.txw, ovfSeen := __src.ovfSeen, parts := __src.parts, stopped := __src.stopped, stopping := __src.stopping, nextBus := __src.nextBus, fltWas := __src.fltWas : Ctl }) [(Reg.FBCn_STATUS_PMODE, 0, 1), (Reg.FBCn_ERR_TEC, 0, 128), (Reg.FBCn_STATUS_EPASS, 0, 1)]).fbc[(0 : Fin 24)].tb[(0 : Fin 3)] = some { frame := fdFrame, host := false, expiry := some 9, vertex := some (3, (7 : BitVec 32)), errors := 2, clash := 0, clashRec := false, cancel := false : TxReq } ∧
    (onBus Mode.active (let __src := aCtl; { tb := #v[some { frame := fdFrame, host := false, expiry := some 9, vertex := some (3, (7 : BitVec 32)), errors := 2, clash := 0, clashRec := false, cancel := false : TxReq }, none, none], sel := some (0 : Fin 3), fifo := __src.fifo, filters := __src.filters, queue := __src.queue, bus := __src.bus, txw := __src.txw, ovfSeen := __src.ovfSeen, parts := __src.parts, stopped := __src.stopped, stopping := __src.stopping, nextBus := __src.nextBus, fltWas := __src.fltWas : Ctl }) [(Reg.FBCn_STATUS_PMODE, 0, 1), (Reg.FBCn_ERR_TEC, 0, 128), (Reg.FBCn_STATUS_EPASS, 0, 1)]).fbc[(0 : Fin 24)].sel = some (0 : Fin 3) ∧
    (onBus Mode.active (let __src := aCtl; { tb := #v[none, none, some { frame := aFrame, host := true, expiry := none, vertex := none, errors := 127, clash := 0, clashRec := true, cancel := false : TxReq }], sel := some (2 : Fin 3), fifo := __src.fifo, filters := __src.filters, queue := __src.queue, bus := __src.bus, txw := __src.txw, ovfSeen := __src.ovfSeen, parts := __src.parts, stopped := __src.stopped, stopping := __src.stopping, nextBus := __src.nextBus, fltWas := __src.fltWas : Ctl }) [(Reg.FBCn_STATUS_PMODE, 0, 1), (Reg.FBCn_ERR_TEC, 0, 248)]).fbc[(0 : Fin 24)] = (onBus Mode.active (let __src := aCtl; { tb := #v[none, none, some { frame := aFrame, host := true, expiry := none, vertex := none, errors := 127, clash := 0, clashRec := true, cancel := false : TxReq }], sel := some (2 : Fin 3), fifo := __src.fifo, filters := __src.filters, queue := __src.queue, bus := __src.bus, txw := __src.txw, ovfSeen := __src.ovfSeen, parts := __src.parts, stopped := __src.stopped, stopping := __src.stopping, nextBus := __src.nextBus, fltWas := __src.fltWas : Ctl }) [(Reg.FBCn_STATUS_PMODE, 0, 1), (Reg.FBCn_ERR_TEC, 0, 248)]).fbc[(0 : Fin 24)] ∧
    (onBus Mode.active (let __src := aCtl; { tb := #v[none, none, some { frame := aFrame, host := true, expiry := none, vertex := none, errors := 127, clash := 0, clashRec := true, cancel := false : TxReq }], sel := some (2 : Fin 3), fifo := __src.fifo, filters := __src.filters, queue := __src.queue, bus := __src.bus, txw := __src.txw, ovfSeen := __src.ovfSeen, parts := __src.parts, stopped := __src.stopped, stopping := __src.stopping, nextBus := __src.nextBus, fltWas := __src.fltWas : Ctl }) [(Reg.FBCn_STATUS_PMODE, 0, 1), (Reg.FBCn_ERR_TEC, 0, 248)]).fbc[(0 : Fin 24)].queue = [] ∧
    (onBus Mode.active (let __src := aCtl; { tb := #v[none, none, some { frame := aFrame, host := true, expiry := none, vertex := none, errors := 127, clash := 0, clashRec := true, cancel := false : TxReq }], sel := some (2 : Fin 3), fifo := __src.fifo, filters := __src.filters, queue := __src.queue, bus := __src.bus, txw := __src.txw, ovfSeen := __src.ovfSeen, parts := __src.parts, stopped := __src.stopped, stopping := __src.stopping, nextBus := __src.nextBus, fltWas := __src.fltWas : Ctl }) [(Reg.FBCn_STATUS_PMODE, 0, 1), (Reg.FBCn_ERR_TEC, 0, 248)]).fbc[(0 : Fin 24)].stopping = false ∧
    (onBus Mode.active (let __src := aCtl; { tb := #v[none, none, some { frame := aFrame, host := true, expiry := none, vertex := none, errors := 127, clash := 0, clashRec := true, cancel := false : TxReq }], sel := some (2 : Fin 3), fifo := __src.fifo, filters := __src.filters, queue := __src.queue, bus := __src.bus, txw := __src.txw, ovfSeen := __src.ovfSeen, parts := __src.parts, stopped := __src.stopped, stopping := __src.stopping, nextBus := __src.nextBus, fltWas := __src.fltWas : Ctl }) [(Reg.FBCn_STATUS_PMODE, 0, 1), (Reg.FBCn_ERR_TEC, 0, 248)]).fbc[(0 : Fin 24)].nextBus = none ∧
    (onBus Mode.active (let __src := aCtl; { tb := #v[none, none, some { frame := aFrame, host := true, expiry := none, vertex := none, errors := 127, clash := 0, clashRec := true, cancel := false : TxReq }], sel := some (2 : Fin 3), fifo := __src.fifo, filters := __src.filters, queue := __src.queue, bus := __src.bus, txw := __src.txw, ovfSeen := __src.ovfSeen, parts := __src.parts, stopped := __src.stopped, stopping := __src.stopping, nextBus := __src.nextBus, fltWas := __src.fltWas : Ctl }) [(Reg.FBCn_STATUS_PMODE, 0, 1), (Reg.FBCn_ERR_TEC, 0, 248)]).fbc[(0 : Fin 24)].tb[(2 : Fin 3)] = some { frame := aFrame, host := true, expiry := none, vertex := none, errors := 127, clash := 0, clashRec := true, cancel := false : TxReq } ∧
    (onBus Mode.active (let __src := aCtl; { tb := #v[none, none, some { frame := aFrame, host := true, expiry := none, vertex := none, errors := 127, clash := 0, clashRec := true, cancel := false : TxReq }], sel := some (2 : Fin 3), fifo := __src.fifo, filters := __src.filters, queue := __src.queue, bus := __src.bus, txw := __src.txw, ovfSeen := __src.ovfSeen, parts := __src.parts, stopped := __src.stopped, stopping := __src.stopping, nextBus := __src.nextBus, fltWas := __src.fltWas : Ctl }) [(Reg.FBCn_STATUS_PMODE, 0, 1), (Reg.FBCn_ERR_TEC, 0, 248)]).fbc[(0 : Fin 24)].sel = some (2 : Fin 3) ∧
    (onBus Mode.active (let __src := aCtl; { tb := #v[none, some { frame := fdFrame, host := false, expiry := some 9, vertex := none, errors := 0, clash := 0, clashRec := false, cancel := false : TxReq }, some { frame := aFrame, host := true, expiry := none, vertex := none, errors := 0, clash := 0, clashRec := false, cancel := false : TxReq }], sel := some (1 : Fin 3), fifo := __src.fifo, filters := __src.filters, queue := __src.queue, bus := __src.bus, txw := __src.txw, ovfSeen := __src.ovfSeen, parts := __src.parts, stopped := __src.stopped, stopping := __src.stopping, nextBus := __src.nextBus, fltWas := __src.fltWas : Ctl }) [(Reg.FBCn_STATUS_PMODE, 0, 1), (Reg.FBCn_ERR_TEC, 0, 247)]).fbc[(0 : Fin 24)] = (onBus Mode.active (let __src := aCtl; { tb := #v[none, some { frame := fdFrame, host := false, expiry := some 9, vertex := none, errors := 0, clash := 0, clashRec := false, cancel := false : TxReq }, some { frame := aFrame, host := true, expiry := none, vertex := none, errors := 0, clash := 0, clashRec := false, cancel := false : TxReq }], sel := some (1 : Fin 3), fifo := __src.fifo, filters := __src.filters, queue := __src.queue, bus := __src.bus, txw := __src.txw, ovfSeen := __src.ovfSeen, parts := __src.parts, stopped := __src.stopped, stopping := __src.stopping, nextBus := __src.nextBus, fltWas := __src.fltWas : Ctl }) [(Reg.FBCn_STATUS_PMODE, 0, 1), (Reg.FBCn_ERR_TEC, 0, 247)]).fbc[(0 : Fin 24)] ∧
    (onBus Mode.active (let __src := aCtl; { tb := #v[none, some { frame := fdFrame, host := false, expiry := some 9, vertex := none, errors := 0, clash := 0, clashRec := false, cancel := false : TxReq }, some { frame := aFrame, host := true, expiry := none, vertex := none, errors := 0, clash := 0, clashRec := false, cancel := false : TxReq }], sel := some (1 : Fin 3), fifo := __src.fifo, filters := __src.filters, queue := __src.queue, bus := __src.bus, txw := __src.txw, ovfSeen := __src.ovfSeen, parts := __src.parts, stopped := __src.stopped, stopping := __src.stopping, nextBus := __src.nextBus, fltWas := __src.fltWas : Ctl }) [(Reg.FBCn_STATUS_PMODE, 0, 1), (Reg.FBCn_ERR_TEC, 0, 247)]).fbc[(0 : Fin 24)].queue = [] ∧
    (onBus Mode.active (let __src := aCtl; { tb := #v[none, some { frame := fdFrame, host := false, expiry := some 9, vertex := none, errors := 0, clash := 0, clashRec := false, cancel := false : TxReq }, some { frame := aFrame, host := true, expiry := none, vertex := none, errors := 0, clash := 0, clashRec := false, cancel := false : TxReq }], sel := some (1 : Fin 3), fifo := __src.fifo, filters := __src.filters, queue := __src.queue, bus := __src.bus, txw := __src.txw, ovfSeen := __src.ovfSeen, parts := __src.parts, stopped := __src.stopped, stopping := __src.stopping, nextBus := __src.nextBus, fltWas := __src.fltWas : Ctl }) [(Reg.FBCn_STATUS_PMODE, 0, 1), (Reg.FBCn_ERR_TEC, 0, 247)]).fbc[(0 : Fin 24)].stopping = false ∧
    (onBus Mode.active (let __src := aCtl; { tb := #v[none, some { frame := fdFrame, host := false, expiry := some 9, vertex := none, errors := 0, clash := 0, clashRec := false, cancel := false : TxReq }, some { frame := aFrame, host := true, expiry := none, vertex := none, errors := 0, clash := 0, clashRec := false, cancel := false : TxReq }], sel := some (1 : Fin 3), fifo := __src.fifo, filters := __src.filters, queue := __src.queue, bus := __src.bus, txw := __src.txw, ovfSeen := __src.ovfSeen, parts := __src.parts, stopped := __src.stopped, stopping := __src.stopping, nextBus := __src.nextBus, fltWas := __src.fltWas : Ctl }) [(Reg.FBCn_STATUS_PMODE, 0, 1), (Reg.FBCn_ERR_TEC, 0, 247)]).fbc[(0 : Fin 24)].nextBus = none ∧
    (onBus Mode.active (let __src := aCtl; { tb := #v[none, some { frame := fdFrame, host := false, expiry := some 9, vertex := none, errors := 0, clash := 0, clashRec := false, cancel := false : TxReq }, some { frame := aFrame, host := true, expiry := none, vertex := none, errors := 0, clash := 0, clashRec := false, cancel := false : TxReq }], sel := some (1 : Fin 3), fifo := __src.fifo, filters := __src.filters, queue := __src.queue, bus := __src.bus, txw := __src.txw, ovfSeen := __src.ovfSeen, parts := __src.parts, stopped := __src.stopped, stopping := __src.stopping, nextBus := __src.nextBus, fltWas := __src.fltWas : Ctl }) [(Reg.FBCn_STATUS_PMODE, 0, 1), (Reg.FBCn_ERR_TEC, 0, 247)]).fbc[(0 : Fin 24)].tb[(1 : Fin 3)] = some { frame := fdFrame, host := false, expiry := some 9, vertex := none, errors := 0, clash := 0, clashRec := false, cancel := false : TxReq } ∧
    (onBus Mode.active (let __src := aCtl; { tb := #v[none, some { frame := fdFrame, host := false, expiry := some 9, vertex := none, errors := 0, clash := 0, clashRec := false, cancel := false : TxReq }, some { frame := aFrame, host := true, expiry := none, vertex := none, errors := 0, clash := 0, clashRec := false, cancel := false : TxReq }], sel := some (1 : Fin 3), fifo := __src.fifo, filters := __src.filters, queue := __src.queue, bus := __src.bus, txw := __src.txw, ovfSeen := __src.ovfSeen, parts := __src.parts, stopped := __src.stopped, stopping := __src.stopping, nextBus := __src.nextBus, fltWas := __src.fltWas : Ctl }) [(Reg.FBCn_STATUS_PMODE, 0, 1), (Reg.FBCn_ERR_TEC, 0, 247)]).fbc[(0 : Fin 24)].sel = some (1 : Fin 3) := by
  and_intros <;> decide +kernel

theorem witness_BusTransmission_5 :
    (onBus Mode.active (let __src := aCtl; { tb := #v[some { frame := fdFrame, host := false, expiry := none, vertex := none, errors := 0, clash := 0, clashRec := false, cancel := false : TxReq }, none, some { frame := aFrame, host := true, expiry := none, vertex := none, errors := 0, clash := 0, clashRec := false, cancel := false : TxReq }], sel := some (2 : Fin 3), fifo := __src.fifo, filters := __src.filters, queue := __src.queue, bus := __src.bus, txw := __src.txw, ovfSeen := __src.ovfSeen, parts := __src.parts, stopped := __src.stopped, stopping := __src.stopping, nextBus := __src.nextBus, fltWas := __src.fltWas : Ctl }) [(Reg.FBCn_STATUS_PMODE, 0, 1)]).fbc[(0 : Fin 24)] = (onBus Mode.active (let __src := aCtl; { tb := #v[some { frame := fdFrame, host := false, expiry := none, vertex := none, errors := 0, clash := 0, clashRec := false, cancel := false : TxReq }, none, some { frame := aFrame, host := true, expiry := none, vertex := none, errors := 0, clash := 0, clashRec := false, cancel := false : TxReq }], sel := some (2 : Fin 3), fifo := __src.fifo, filters := __src.filters, queue := __src.queue, bus := __src.bus, txw := __src.txw, ovfSeen := __src.ovfSeen, parts := __src.parts, stopped := __src.stopped, stopping := __src.stopping, nextBus := __src.nextBus, fltWas := __src.fltWas : Ctl }) [(Reg.FBCn_STATUS_PMODE, 0, 1)]).fbc[(0 : Fin 24)] ∧
    (onBus Mode.active (let __src := aCtl; { tb := #v[some { frame := fdFrame, host := false, expiry := none, vertex := none, errors := 0, clash := 0, clashRec := false, cancel := false : TxReq }, none, some { frame := aFrame, host := true, expiry := none, vertex := none, errors := 0, clash := 0, clashRec := false, cancel := false : TxReq }], sel := some (2 : Fin 3), fifo := __src.fifo, filters := __src.filters, queue := __src.queue, bus := __src.bus, txw := __src.txw, ovfSeen := __src.ovfSeen, parts := __src.parts, stopped := __src.stopped, stopping := __src.stopping, nextBus := __src.nextBus, fltWas := __src.fltWas : Ctl }) [(Reg.FBCn_STATUS_PMODE, 0, 1)]).fbc[(0 : Fin 24)].queue = [] ∧
    (onBus Mode.active (let __src := aCtl; { tb := #v[some { frame := fdFrame, host := false, expiry := none, vertex := none, errors := 0, clash := 0, clashRec := false, cancel := false : TxReq }, none, some { frame := aFrame, host := true, expiry := none, vertex := none, errors := 0, clash := 0, clashRec := false, cancel := false : TxReq }], sel := some (2 : Fin 3), fifo := __src.fifo, filters := __src.filters, queue := __src.queue, bus := __src.bus, txw := __src.txw, ovfSeen := __src.ovfSeen, parts := __src.parts, stopped := __src.stopped, stopping := __src.stopping, nextBus := __src.nextBus, fltWas := __src.fltWas : Ctl }) [(Reg.FBCn_STATUS_PMODE, 0, 1)]).fbc[(0 : Fin 24)].stopping = false ∧
    (onBus Mode.active (let __src := aCtl; { tb := #v[some { frame := fdFrame, host := false, expiry := none, vertex := none, errors := 0, clash := 0, clashRec := false, cancel := false : TxReq }, none, some { frame := aFrame, host := true, expiry := none, vertex := none, errors := 0, clash := 0, clashRec := false, cancel := false : TxReq }], sel := some (2 : Fin 3), fifo := __src.fifo, filters := __src.filters, queue := __src.queue, bus := __src.bus, txw := __src.txw, ovfSeen := __src.ovfSeen, parts := __src.parts, stopped := __src.stopped, stopping := __src.stopping, nextBus := __src.nextBus, fltWas := __src.fltWas : Ctl }) [(Reg.FBCn_STATUS_PMODE, 0, 1)]).fbc[(0 : Fin 24)].nextBus = none ∧
    (onBus Mode.active (let __src := aCtl; { tb := #v[some { frame := fdFrame, host := false, expiry := none, vertex := none, errors := 0, clash := 0, clashRec := false, cancel := false : TxReq }, none, some { frame := aFrame, host := true, expiry := none, vertex := none, errors := 0, clash := 0, clashRec := false, cancel := false : TxReq }], sel := some (2 : Fin 3), fifo := __src.fifo, filters := __src.filters, queue := __src.queue, bus := __src.bus, txw := __src.txw, ovfSeen := __src.ovfSeen, parts := __src.parts, stopped := __src.stopped, stopping := __src.stopping, nextBus := __src.nextBus, fltWas := __src.fltWas : Ctl }) [(Reg.FBCn_STATUS_PMODE, 0, 1)]).fbc[(0 : Fin 24)].sel = some (2 : Fin 3) ∧
    (onBus Mode.active (let __src := aCtl; { tb := #v[some { frame := fdFrame, host := false, expiry := none, vertex := none, errors := 0, clash := 0, clashRec := false, cancel := false : TxReq }, none, some { frame := aFrame, host := true, expiry := none, vertex := none, errors := 0, clash := 0, clashRec := false, cancel := false : TxReq }], sel := some (2 : Fin 3), fifo := __src.fifo, filters := __src.filters, queue := __src.queue, bus := __src.bus, txw := __src.txw, ovfSeen := __src.ovfSeen, parts := __src.parts, stopped := __src.stopped, stopping := __src.stopping, nextBus := __src.nextBus, fltWas := __src.fltWas : Ctl }) [(Reg.FBCn_STATUS_PMODE, 0, 1)]).fbc[(0 : Fin 24)].bus = some aBus ∧
    busRuns (onBus Mode.active (let __src := aCtl; { tb := #v[some { frame := fdFrame, host := false, expiry := none, vertex := none, errors := 0, clash := 0, clashRec := false, cancel := false : TxReq }, none, some { frame := aFrame, host := true, expiry := none, vertex := none, errors := 0, clash := 0, clashRec := false, cancel := false : TxReq }], sel := some (2 : Fin 3), fifo := __src.fifo, filters := __src.filters, queue := __src.queue, bus := __src.bus, txw := __src.txw, ovfSeen := __src.ovfSeen, parts := __src.parts, stopped := __src.stopped, stopping := __src.stopping, nextBus := __src.nextBus, fltWas := __src.fltWas : Ctl }) [(Reg.FBCn_STATUS_PMODE, 0, 1)]) (0 : Fin 24) = true ∧
    (onBus Mode.active (let __src := aCtl; { tb := #v[some { frame := fdFrame, host := false, expiry := none, vertex := none, errors := 0, clash := 0, clashRec := false, cancel := false : TxReq }, none, some { frame := aFrame, host := true, expiry := none, vertex := none, errors := 0, clash := 0, clashRec := false, cancel := false : TxReq }], sel := some (2 : Fin 3), fifo := __src.fifo, filters := __src.filters, queue := __src.queue, bus := __src.bus, txw := __src.txw, ovfSeen := __src.ovfSeen, parts := __src.parts, stopped := __src.stopped, stopping := __src.stopping, nextBus := __src.nextBus, fltWas := __src.fltWas : Ctl }) [(Reg.FBCn_STATUS_PMODE, 0, 2)]).fbc[(0 : Fin 24)] = (onBus Mode.active (let __src := aCtl; { tb := #v[some { frame := fdFrame, host := false, expiry := none, vertex := none, errors := 0, clash := 0, clashRec := false, cancel := false : TxReq }, none, some { frame := aFrame, host := true, expiry := none, vertex := none, errors := 0, clash := 0, clashRec := false, cancel := false : TxReq }], sel := some (2 : Fin 3), fifo := __src.fifo, filters := __src.filters, queue := __src.queue, bus := __src.bus, txw := __src.txw, ovfSeen := __src.ovfSeen, parts := __src.parts, stopped := __src.stopped, stopping := __src.stopping, nextBus := __src.nextBus, fltWas := __src.fltWas : Ctl }) [(Reg.FBCn_STATUS_PMODE, 0, 2)]).fbc[(0 : Fin 24)] ∧
    (onBus Mode.active (let __src := aCtl; { tb := #v[some { frame := fdFrame, host := false, expiry := none, vertex := none, errors := 0, clash := 0, clashRec := false, cancel := false : TxReq }, none, some { frame := aFrame, host := true, expiry := none, vertex := none, errors := 0, clash := 0, clashRec := false, cancel := false : TxReq }], sel := some (2 : Fin 3), fifo := __src.fifo, filters := __src.filters, queue := __src.queue, bus := __src.bus, txw := __src.txw, ovfSeen := __src.ovfSeen, parts := __src.parts, stopped := __src.stopped, stopping := __src.stopping, nextBus := __src.nextBus, fltWas := __src.fltWas : Ctl }) [(Reg.FBCn_STATUS_PMODE, 0, 2)]).fbc[(0 : Fin 24)].queue = [] ∧
    (onBus Mode.active (let __src := aCtl; { tb := #v[some { frame := fdFrame, host := false, expiry := none, vertex := none, errors := 0, clash := 0, clashRec := false, cancel := false : TxReq }, none, some { frame := aFrame, host := true, expiry := none, vertex := none, errors := 0, clash := 0, clashRec := false, cancel := false : TxReq }], sel := some (2 : Fin 3), fifo := __src.fifo, filters := __src.filters, queue := __src.queue, bus := __src.bus, txw := __src.txw, ovfSeen := __src.ovfSeen, parts := __src.parts, stopped := __src.stopped, stopping := __src.stopping, nextBus := __src.nextBus, fltWas := __src.fltWas : Ctl }) [(Reg.FBCn_STATUS_PMODE, 0, 2)]).fbc[(0 : Fin 24)].stopping = false ∧
    (onBus Mode.active (let __src := aCtl; { tb := #v[some { frame := fdFrame, host := false, expiry := none, vertex := none, errors := 0, clash := 0, clashRec := false, cancel := false : TxReq }, none, some { frame := aFrame, host := true, expiry := none, vertex := none, errors := 0, clash := 0, clashRec := false, cancel := false : TxReq }], sel := some (2 : Fin 3), fifo := __src.fifo, filters := __src.filters, queue := __src.queue, bus := __src.bus, txw := __src.txw, ovfSeen := __src.ovfSeen, parts := __src.parts, stopped := __src.stopped, stopping := __src.stopping, nextBus := __src.nextBus, fltWas := __src.fltWas : Ctl }) [(Reg.FBCn_STATUS_PMODE, 0, 2)]).fbc[(0 : Fin 24)].nextBus = none ∧
    (onBus Mode.active (let __src := aCtl; { tb := #v[some { frame := fdFrame, host := false, expiry := none, vertex := none, errors := 0, clash := 0, clashRec := false, cancel := false : TxReq }, none, some { frame := aFrame, host := true, expiry := none, vertex := none, errors := 0, clash := 0, clashRec := false, cancel := false : TxReq }], sel := some (2 : Fin 3), fifo := __src.fifo, filters := __src.filters, queue := __src.queue, bus := __src.bus, txw := __src.txw, ovfSeen := __src.ovfSeen, parts := __src.parts, stopped := __src.stopped, stopping := __src.stopping, nextBus := __src.nextBus, fltWas := __src.fltWas : Ctl }) [(Reg.FBCn_STATUS_PMODE, 0, 2)]).fbc[(0 : Fin 24)].sel = some (2 : Fin 3) ∧
    (onBus Mode.active (let __src := aCtl; { tb := #v[some { frame := fdFrame, host := false, expiry := none, vertex := none, errors := 0, clash := 0, clashRec := false, cancel := false : TxReq }, none, some { frame := aFrame, host := true, expiry := none, vertex := none, errors := 0, clash := 0, clashRec := false, cancel := false : TxReq }], sel := some (2 : Fin 3), fifo := __src.fifo, filters := __src.filters, queue := __src.queue, bus := __src.bus, txw := __src.txw, ovfSeen := __src.ovfSeen, parts := __src.parts, stopped := __src.stopped, stopping := __src.stopping, nextBus := __src.nextBus, fltWas := __src.fltWas : Ctl }) [(Reg.FBCn_STATUS_PMODE, 0, 2)]).fbc[(0 : Fin 24)].bus = some aBus ∧
    busRuns (onBus Mode.active (let __src := aCtl; { tb := #v[some { frame := fdFrame, host := false, expiry := none, vertex := none, errors := 0, clash := 0, clashRec := false, cancel := false : TxReq }, none, some { frame := aFrame, host := true, expiry := none, vertex := none, errors := 0, clash := 0, clashRec := false, cancel := false : TxReq }], sel := some (2 : Fin 3), fifo := __src.fifo, filters := __src.filters, queue := __src.queue, bus := __src.bus, txw := __src.txw, ovfSeen := __src.ovfSeen, parts := __src.parts, stopped := __src.stopped, stopping := __src.stopping, nextBus := __src.nextBus, fltWas := __src.fltWas : Ctl }) [(Reg.FBCn_STATUS_PMODE, 0, 2)]) (0 : Fin 24) = true ∧
    (onBus Mode.active (let __src := aCtl; { tb := #v[some { frame := fdFrame, host := false, expiry := none, vertex := none, errors := 0, clash := 0, clashRec := false, cancel := false : TxReq }, none, none], sel := some (0 : Fin 3), fifo := __src.fifo, filters := __src.filters, queue := __src.queue, bus := __src.bus, txw := __src.txw, ovfSeen := __src.ovfSeen, parts := __src.parts, stopped := __src.stopped, stopping := __src.stopping, nextBus := __src.nextBus, fltWas := __src.fltWas : Ctl }) [(Reg.FBCn_STATUS_PMODE, 0, 2)]).fbc[(0 : Fin 24)] = (onBus Mode.active (let __src := aCtl; { tb := #v[some { frame := fdFrame, host := false, expiry := none, vertex := none, errors := 0, clash := 0, clashRec := false, cancel := false : TxReq }, none, none], sel := some (0 : Fin 3), fifo := __src.fifo, filters := __src.filters, queue := __src.queue, bus := __src.bus, txw := __src.txw, ovfSeen := __src.ovfSeen, parts := __src.parts, stopped := __src.stopped, stopping := __src.stopping, nextBus := __src.nextBus, fltWas := __src.fltWas : Ctl }) [(Reg.FBCn_STATUS_PMODE, 0, 2)]).fbc[(0 : Fin 24)] ∧
    (onBus Mode.active (let __src := aCtl; { tb := #v[some { frame := fdFrame, host := false, expiry := none, vertex := none, errors := 0, clash := 0, clashRec := false, cancel := false : TxReq }, none, none], sel := some (0 : Fin 3), fifo := __src.fifo, filters := __src.filters, queue := __src.queue, bus := __src.bus, txw := __src.txw, ovfSeen := __src.ovfSeen, parts := __src.parts, stopped := __src.stopped, stopping := __src.stopping, nextBus := __src.nextBus, fltWas := __src.fltWas : Ctl }) [(Reg.FBCn_STATUS_PMODE, 0, 2)]).fbc[(0 : Fin 24)].queue = [] ∧
    (onBus Mode.active (let __src := aCtl; { tb := #v[some { frame := fdFrame, host := false, expiry := none, vertex := none, errors := 0, clash := 0, clashRec := false, cancel := false : TxReq }, none, none], sel := some (0 : Fin 3), fifo := __src.fifo, filters := __src.filters, queue := __src.queue, bus := __src.bus, txw := __src.txw, ovfSeen := __src.ovfSeen, parts := __src.parts, stopped := __src.stopped, stopping := __src.stopping, nextBus := __src.nextBus, fltWas := __src.fltWas : Ctl }) [(Reg.FBCn_STATUS_PMODE, 0, 2)]).fbc[(0 : Fin 24)].stopping = false ∧
    (onBus Mode.active (let __src := aCtl; { tb := #v[some { frame := fdFrame, host := false, expiry := none, vertex := none, errors := 0, clash := 0, clashRec := false, cancel := false : TxReq }, none, none], sel := some (0 : Fin 3), fifo := __src.fifo, filters := __src.filters, queue := __src.queue, bus := __src.bus, txw := __src.txw, ovfSeen := __src.ovfSeen, parts := __src.parts, stopped := __src.stopped, stopping := __src.stopping, nextBus := __src.nextBus, fltWas := __src.fltWas : Ctl }) [(Reg.FBCn_STATUS_PMODE, 0, 2)]).fbc[(0 : Fin 24)].nextBus = none ∧
    (onBus Mode.active (let __src := aCtl; { tb := #v[some { frame := fdFrame, host := false, expiry := none, vertex := none, errors := 0, clash := 0, clashRec := false, cancel := false : TxReq }, none, none], sel := some (0 : Fin 3), fifo := __src.fifo, filters := __src.filters, queue := __src.queue, bus := __src.bus, txw := __src.txw, ovfSeen := __src.ovfSeen, parts := __src.parts, stopped := __src.stopped, stopping := __src.stopping, nextBus := __src.nextBus, fltWas := __src.fltWas : Ctl }) [(Reg.FBCn_STATUS_PMODE, 0, 2)]).fbc[(0 : Fin 24)].sel = some (0 : Fin 3) ∧
    (onBus Mode.active (let __src := aCtl; { tb := #v[some { frame := fdFrame, host := false, expiry := none, vertex := none, errors := 0, clash := 0, clashRec := false, cancel := false : TxReq }, none, none], sel := some (0 : Fin 3), fifo := __src.fifo, filters := __src.filters, queue := __src.queue, bus := __src.bus, txw := __src.txw, ovfSeen := __src.ovfSeen, parts := __src.parts, stopped := __src.stopped, stopping := __src.stopping, nextBus := __src.nextBus, fltWas := __src.fltWas : Ctl }) [(Reg.FBCn_STATUS_PMODE, 0, 2)]).fbc[(0 : Fin 24)].bus = some aBus ∧
    busRuns (onBus Mode.active (let __src := aCtl; { tb := #v[some { frame := fdFrame, host := false, expiry := none, vertex := none, errors := 0, clash := 0, clashRec := false, cancel := false : TxReq }, none, none], sel := some (0 : Fin 3), fifo := __src.fifo, filters := __src.filters, queue := __src.queue, bus := __src.bus, txw := __src.txw, ovfSeen := __src.ovfSeen, parts := __src.parts, stopped := __src.stopped, stopping := __src.stopping, nextBus := __src.nextBus, fltWas := __src.fltWas : Ctl }) [(Reg.FBCn_STATUS_PMODE, 0, 2)]) (0 : Fin 24) = true ∧
    (onBus Mode.active (let __src := aCtl; { tb := __src.tb, sel := __src.sel, fifo := __src.fifo, filters := __src.filters, queue := [{ frame := aFrame, expiry := 0, vertex := 3, seq := (4 : BitVec 32), arrival := 0 : QEntry }, { frame := aFrame, expiry := 9, vertex := 3, seq := (5 : BitVec 32), arrival := 1 : QEntry }], bus := __src.bus, txw := __src.txw, ovfSeen := __src.ovfSeen, parts := __src.parts, stopped := __src.stopped, stopping := __src.stopping, nextBus := __src.nextBus, fltWas := __src.fltWas : Ctl }) []).fbc[(0 : Fin 24)] = (onBus Mode.active (let __src := aCtl; { tb := __src.tb, sel := __src.sel, fifo := __src.fifo, filters := __src.filters, queue := [{ frame := aFrame, expiry := 0, vertex := 3, seq := (4 : BitVec 32), arrival := 0 : QEntry }, { frame := aFrame, expiry := 9, vertex := 3, seq := (5 : BitVec 32), arrival := 1 : QEntry }], bus := __src.bus, txw := __src.txw, ovfSeen := __src.ovfSeen, parts := __src.parts, stopped := __src.stopped, stopping := __src.stopping, nextBus := __src.nextBus, fltWas := __src.fltWas : Ctl }) []).fbc[(0 : Fin 24)] ∧
    (onBus Mode.active (let __src := aCtl; { tb := #v[some { frame := aFrame, host := false, expiry := some 0, vertex := none, errors := 0, clash := 0, clashRec := false, cancel := false : TxReq }, none, none], sel := none, fifo := __src.fifo, filters := __src.filters, queue := __src.queue, bus := __src.bus, txw := __src.txw, ovfSeen := __src.ovfSeen, parts := __src.parts, stopped := __src.stopped, stopping := __src.stopping, nextBus := __src.nextBus, fltWas := __src.fltWas : Ctl }) []).fbc[(0 : Fin 24)] = (onBus Mode.active (let __src := aCtl; { tb := #v[some { frame := aFrame, host := false, expiry := some 0, vertex := none, errors := 0, clash := 0, clashRec := false, cancel := false : TxReq }, none, none], sel := none, fifo := __src.fifo, filters := __src.filters, queue := __src.queue, bus := __src.bus, txw := __src.txw, ovfSeen := __src.ovfSeen, parts := __src.parts, stopped := __src.stopped, stopping := __src.stopping, nextBus := __src.nextBus, fltWas := __src.fltWas : Ctl }) []).fbc[(0 : Fin 24)] := by
  and_intros <;> decide +kernel

theorem witness_BusReception_1 :
    (onBus Mode.active aCtl [(Reg.FBCn_STATUS_PMODE, 0, 1), (Reg.FBCn_ERR_REC, 0, 0)]).fbc[(0 : Fin 24)] = (onBus Mode.active aCtl [(Reg.FBCn_STATUS_PMODE, 0, 1), (Reg.FBCn_ERR_REC, 0, 0)]).fbc[(0 : Fin 24)] ∧
    busRuns (onBus Mode.active aCtl [(Reg.FBCn_STATUS_PMODE, 0, 1), (Reg.FBCn_ERR_REC, 0, 0)]) (0 : Fin 24) = true ∧
    rd (onBus Mode.active aCtl [(Reg.FBCn_STATUS_PMODE, 0, 1), (Reg.FBCn_ERR_REC, 0, 0)]) Reg.FBCn_ERR_REC (0 : Fin 24).val ≤ 127 ∧
    filtTake (filtersAt (onBus Mode.active aCtl [(Reg.FBCn_STATUS_PMODE, 0, 1), (Reg.FBCn_ERR_REC, 0, 0)]) (0 : Fin 24) 1000).1 aFrame = none ∧
    (onBus Mode.active aCtl [(Reg.FBCn_STATUS_PMODE, 0, 1), (Reg.FBCn_ERR_REC, 0, 127)]).fbc[(0 : Fin 24)] = (onBus Mode.active aCtl [(Reg.FBCn_STATUS_PMODE, 0, 1), (Reg.FBCn_ERR_REC, 0, 127)]).fbc[(0 : Fin 24)] ∧
    busRuns (onBus Mode.active aCtl [(Reg.FBCn_STATUS_PMODE, 0, 1), (Reg.FBCn_ERR_REC, 0, 127)]) (0 : Fin 24) = true ∧
    rd (onBus Mode.active aCtl [(Reg.FBCn_STATUS_PMODE, 0, 1), (Reg.FBCn_ERR_REC, 0, 127)]) Reg.FBCn_ERR_REC (0 : Fin 24).val ≤ 127 ∧
    filtTake (filtersAt (onBus Mode.active aCtl [(Reg.FBCn_STATUS_PMODE, 0, 1), (Reg.FBCn_ERR_REC, 0, 127)]) (0 : Fin 24) 1000).1 aFrame = none ∧
    (onBus Mode.active (let __src := aCtl; { tb := __src.tb, sel := __src.sel, fifo := __src.fifo, filters := [(5, { fid := (341 : BitVec 29) * (2 : BitVec 29) ^ 18, ide := false, mask := (536870911 : BitVec 29), offload := false : Filt })], queue := __src.queue, bus := __src.bus, txw := __src.txw, ovfSeen := __src.ovfSeen, parts := __src.parts, stopped := __src.stopped, stopping := __src.stopping, nextBus := __src.nextBus, fltWas := __src.fltWas : Ctl }) [(Reg.FBCn_STATUS_PMODE, 0, 1), (Reg.FBCn_ERR_REC, 0, 1)]).fbc[(0 : Fin 24)] = (onBus Mode.active (let __src := aCtl; { tb := __src.tb, sel := __src.sel, fifo := __src.fifo, filters := [(5, { fid := (341 : BitVec 29) * (2 : BitVec 29) ^ 18, ide := false, mask := (536870911 : BitVec 29), offload := false : Filt })], queue := __src.queue, bus := __src.bus, txw := __src.txw, ovfSeen := __src.ovfSeen, parts := __src.parts, stopped := __src.stopped, stopping := __src.stopping, nextBus := __src.nextBus, fltWas := __src.fltWas : Ctl }) [(Reg.FBCn_STATUS_PMODE, 0, 1), (Reg.FBCn_ERR_REC, 0, 1)]).fbc[(0 : Fin 24)] ∧
    busRuns (onBus Mode.active (let __src := aCtl; { tb := __src.tb, sel := __src.sel, fifo := __src.fifo, filters := [(5, { fid := (341 : BitVec 29) * (2 : BitVec 29) ^ 18, ide := false, mask := (536870911 : BitVec 29), offload := false : Filt })], queue := __src.queue, bus := __src.bus, txw := __src.txw, ovfSeen := __src.ovfSeen, parts := __src.parts, stopped := __src.stopped, stopping := __src.stopping, nextBus := __src.nextBus, fltWas := __src.fltWas : Ctl }) [(Reg.FBCn_STATUS_PMODE, 0, 1), (Reg.FBCn_ERR_REC, 0, 1)]) (0 : Fin 24) = true ∧
    rd (onBus Mode.active (let __src := aCtl; { tb := __src.tb, sel := __src.sel, fifo := __src.fifo, filters := [(5, { fid := (341 : BitVec 29) * (2 : BitVec 29) ^ 18, ide := false, mask := (536870911 : BitVec 29), offload := false : Filt })], queue := __src.queue, bus := __src.bus, txw := __src.txw, ovfSeen := __src.ovfSeen, parts := __src.parts, stopped := __src.stopped, stopping := __src.stopping, nextBus := __src.nextBus, fltWas := __src.fltWas : Ctl }) [(Reg.FBCn_STATUS_PMODE, 0, 1), (Reg.FBCn_ERR_REC, 0, 1)]) Reg.FBCn_ERR_REC (0 : Fin 24).val ≤ 127 ∧
    filtTake (filtersAt (onBus Mode.active (let __src := aCtl; { tb := __src.tb, sel := __src.sel, fifo := __src.fifo, filters := [(5, { fid := (341 : BitVec 29) * (2 : BitVec 29) ^ 18, ide := false, mask := (536870911 : BitVec 29), offload := false : Filt })], queue := __src.queue, bus := __src.bus, txw := __src.txw, ovfSeen := __src.ovfSeen, parts := __src.parts, stopped := __src.stopped, stopping := __src.stopping, nextBus := __src.nextBus, fltWas := __src.fltWas : Ctl }) [(Reg.FBCn_STATUS_PMODE, 0, 1), (Reg.FBCn_ERR_REC, 0, 1)]) (0 : Fin 24) 1000).1 aFrame = some (5, { fid := (341 : BitVec 29) * (2 : BitVec 29) ^ 18, ide := false, mask := (536870911 : BitVec 29), offload := false : Filt }) ∧
    { fid := (341 : BitVec 29) * (2 : BitVec 29) ^ 18, ide := false, mask := (536870911 : BitVec 29), offload := false : Filt }.offload = false ∧
    (onBus Mode.active (let __src := aCtl; { tb := __src.tb, sel := __src.sel, fifo := List.replicate 63 aRx, filters := [(5, { fid := (341 : BitVec 29) * (2 : BitVec 29) ^ 18, ide := false, mask := (536870911 : BitVec 29), offload := false : Filt })], queue := __src.queue, bus := __src.bus, txw := __src.txw, ovfSeen := __src.ovfSeen, parts := __src.parts, stopped := __src.stopped, stopping := __src.stopping, nextBus := __src.nextBus, fltWas := __src.fltWas : Ctl }) [(Reg.FBCn_STATUS_PMODE, 0, 1), (Reg.FBCn_ERR_REC, 0, 1)]).fbc[(0 : Fin 24)] = (onBus Mode.active (let __src := aCtl; { tb := __src.tb, sel := __src.sel, fifo := List.replicate 63 aRx, filters := [(5, { fid := (341 : BitVec 29) * (2 : BitVec 29) ^ 18, ide := false, mask := (536870911 : BitVec 29), offload := false : Filt })], queue := __src.queue, bus := __src.bus, txw := __src.txw, ovfSeen := __src.ovfSeen, parts := __src.parts, stopped := __src.stopped, stopping := __src.stopping, nextBus := __src.nextBus, fltWas := __src.fltWas : Ctl }) [(Reg.FBCn_STATUS_PMODE, 0, 1), (Reg.FBCn_ERR_REC, 0, 1)]).fbc[(0 : Fin 24)] ∧
    busRuns (onBus Mode.active (let __src := aCtl; { tb := __src.tb, sel := __src.sel, fifo := List.replicate 63 aRx, filters := [(5, { fid := (341 : BitVec 29) * (2 : BitVec 29) ^ 18, ide := false, mask := (536870911 : BitVec 29), offload := false : Filt })], queue := __src.queue, bus := __src.bus, txw := __src.txw, ovfSeen := __src.ovfSeen, parts := __src.parts, stopped := __src.stopped, stopping := __src.stopping, nextBus := __src.nextBus, fltWas := __src.fltWas : Ctl }) [(Reg.FBCn_STATUS_PMODE, 0, 1), (Reg.FBCn_ERR_REC, 0, 1)]) (0 : Fin 24) = true ∧
    rd (onBus Mode.active (let __src := aCtl; { tb := __src.tb, sel := __src.sel, fifo := List.replicate 63 aRx, filters := [(5, { fid := (341 : BitVec 29) * (2 : BitVec 29) ^ 18, ide := false, mask := (536870911 : BitVec 29), offload := false : Filt })], queue := __src.queue, bus := __src.bus, txw := __src.txw, ovfSeen := __src.ovfSeen, parts := __src.parts, stopped := __src.stopped, stopping := __src.stopping, nextBus := __src.nextBus, fltWas := __src.fltWas : Ctl }) [(Reg.FBCn_STATUS_PMODE, 0, 1), (Reg.FBCn_ERR_REC, 0, 1)]) Reg.FBCn_ERR_REC (0 : Fin 24).val ≤ 127 ∧
    filtTake (filtersAt (onBus Mode.active (let __src := aCtl; { tb := __src.tb, sel := __src.sel, fifo := List.replicate 63 aRx, filters := [(5, { fid := (341 : BitVec 29) * (2 : BitVec 29) ^ 18, ide := false, mask := (536870911 : BitVec 29), offload := false : Filt })], queue := __src.queue, bus := __src.bus, txw := __src.txw, ovfSeen := __src.ovfSeen, parts := __src.parts, stopped := __src.stopped, stopping := __src.stopping, nextBus := __src.nextBus, fltWas := __src.fltWas : Ctl }) [(Reg.FBCn_STATUS_PMODE, 0, 1), (Reg.FBCn_ERR_REC, 0, 1)]) (0 : Fin 24) 1000).1 aFrame = some (5, { fid := (341 : BitVec 29) * (2 : BitVec 29) ^ 18, ide := false, mask := (536870911 : BitVec 29), offload := false : Filt }) ∧
    (onBus Mode.active (let __src := aCtl; { tb := __src.tb, sel := __src.sel, fifo := List.replicate 64 aRx, filters := [(5, { fid := (341 : BitVec 29) * (2 : BitVec 29) ^ 18, ide := false, mask := (536870911 : BitVec 29), offload := false : Filt })], queue := __src.queue, bus := __src.bus, txw := __src.txw, ovfSeen := __src.ovfSeen, parts := __src.parts, stopped := __src.stopped, stopping := __src.stopping, nextBus := __src.nextBus, fltWas := __src.fltWas : Ctl }) [(Reg.FBCn_STATUS_PMODE, 0, 1), (Reg.FBCn_ERR_REC, 0, 1)]).fbc[(0 : Fin 24)] = (onBus Mode.active (let __src := aCtl; { tb := __src.tb, sel := __src.sel, fifo := List.replicate 64 aRx, filters := [(5, { fid := (341 : BitVec 29) * (2 : BitVec 29) ^ 18, ide := false, mask := (536870911 : BitVec 29), offload := false : Filt })], queue := __src.queue, bus := __src.bus, txw := __src.txw, ovfSeen := __src.ovfSeen, parts := __src.parts, stopped := __src.stopped, stopping := __src.stopping, nextBus := __src.nextBus, fltWas := __src.fltWas : Ctl }) [(Reg.FBCn_STATUS_PMODE, 0, 1), (Reg.FBCn_ERR_REC, 0, 1)]).fbc[(0 : Fin 24)] ∧
    busRuns (onBus Mode.active (let __src := aCtl; { tb := __src.tb, sel := __src.sel, fifo := List.replicate 64 aRx, filters := [(5, { fid := (341 : BitVec 29) * (2 : BitVec 29) ^ 18, ide := false, mask := (536870911 : BitVec 29), offload := false : Filt })], queue := __src.queue, bus := __src.bus, txw := __src.txw, ovfSeen := __src.ovfSeen, parts := __src.parts, stopped := __src.stopped, stopping := __src.stopping, nextBus := __src.nextBus, fltWas := __src.fltWas : Ctl }) [(Reg.FBCn_STATUS_PMODE, 0, 1), (Reg.FBCn_ERR_REC, 0, 1)]) (0 : Fin 24) = true ∧
    rd (onBus Mode.active (let __src := aCtl; { tb := __src.tb, sel := __src.sel, fifo := List.replicate 64 aRx, filters := [(5, { fid := (341 : BitVec 29) * (2 : BitVec 29) ^ 18, ide := false, mask := (536870911 : BitVec 29), offload := false : Filt })], queue := __src.queue, bus := __src.bus, txw := __src.txw, ovfSeen := __src.ovfSeen, parts := __src.parts, stopped := __src.stopped, stopping := __src.stopping, nextBus := __src.nextBus, fltWas := __src.fltWas : Ctl }) [(Reg.FBCn_STATUS_PMODE, 0, 1), (Reg.FBCn_ERR_REC, 0, 1)]) Reg.FBCn_ERR_REC (0 : Fin 24).val ≤ 127 ∧
    filtTake (filtersAt (onBus Mode.active (let __src := aCtl; { tb := __src.tb, sel := __src.sel, fifo := List.replicate 64 aRx, filters := [(5, { fid := (341 : BitVec 29) * (2 : BitVec 29) ^ 18, ide := false, mask := (536870911 : BitVec 29), offload := false : Filt })], queue := __src.queue, bus := __src.bus, txw := __src.txw, ovfSeen := __src.ovfSeen, parts := __src.parts, stopped := __src.stopped, stopping := __src.stopping, nextBus := __src.nextBus, fltWas := __src.fltWas : Ctl }) [(Reg.FBCn_STATUS_PMODE, 0, 1), (Reg.FBCn_ERR_REC, 0, 1)]) (0 : Fin 24) 1000).1 aFrame = some (5, { fid := (341 : BitVec 29) * (2 : BitVec 29) ^ 18, ide := false, mask := (536870911 : BitVec 29), offload := false : Filt }) := by
  and_intros <;> decide +kernel

theorem witness_BusReception_2 :
    (onBus Mode.active (let __src := aCtl; { tb := __src.tb, sel := __src.sel, fifo := __src.fifo, filters := [(9, { fid := (0 : BitVec 29), ide := true, mask := (0 : BitVec 29), offload := true : Filt })], queue := __src.queue, bus := __src.bus, txw := __src.txw, ovfSeen := __src.ovfSeen, parts := __src.parts, stopped := __src.stopped, stopping := __src.stopping, nextBus := __src.nextBus, fltWas := __src.fltWas : Ctl }) [(Reg.FBCn_STATUS_PMODE, 0, 1)]).fbc[(0 : Fin 24)] = (onBus Mode.active (let __src := aCtl; { tb := __src.tb, sel := __src.sel, fifo := __src.fifo, filters := [(9, { fid := (0 : BitVec 29), ide := true, mask := (0 : BitVec 29), offload := true : Filt })], queue := __src.queue, bus := __src.bus, txw := __src.txw, ovfSeen := __src.ovfSeen, parts := __src.parts, stopped := __src.stopped, stopping := __src.stopping, nextBus := __src.nextBus, fltWas := __src.fltWas : Ctl }) [(Reg.FBCn_STATUS_PMODE, 0, 1)]).fbc[(0 : Fin 24)] ∧
    busRuns (onBus Mode.active (let __src := aCtl; { tb := __src.tb, sel := __src.sel, fifo := __src.fifo, filters := [(9, { fid := (0 : BitVec 29), ide := true, mask := (0 : BitVec 29), offload := true : Filt })], queue := __src.queue, bus := __src.bus, txw := __src.txw, ovfSeen := __src.ovfSeen, parts := __src.parts, stopped := __src.stopped, stopping := __src.stopping, nextBus := __src.nextBus, fltWas := __src.fltWas : Ctl }) [(Reg.FBCn_STATUS_PMODE, 0, 1)]) (0 : Fin 24) = true ∧
    rd (onBus Mode.active (let __src := aCtl; { tb := __src.tb, sel := __src.sel, fifo := __src.fifo, filters := [(9, { fid := (0 : BitVec 29), ide := true, mask := (0 : BitVec 29), offload := true : Filt })], queue := __src.queue, bus := __src.bus, txw := __src.txw, ovfSeen := __src.ovfSeen, parts := __src.parts, stopped := __src.stopped, stopping := __src.stopping, nextBus := __src.nextBus, fltWas := __src.fltWas : Ctl }) [(Reg.FBCn_STATUS_PMODE, 0, 1)]) Reg.FBCn_ERR_REC (0 : Fin 24).val ≤ 127 ∧
    filtTake (filtersAt (onBus Mode.active (let __src := aCtl; { tb := __src.tb, sel := __src.sel, fifo := __src.fifo, filters := [(9, { fid := (0 : BitVec 29), ide := true, mask := (0 : BitVec 29), offload := true : Filt })], queue := __src.queue, bus := __src.bus, txw := __src.txw, ovfSeen := __src.ovfSeen, parts := __src.parts, stopped := __src.stopped, stopping := __src.stopping, nextBus := __src.nextBus, fltWas := __src.fltWas : Ctl }) [(Reg.FBCn_STATUS_PMODE, 0, 1)]) (0 : Fin 24) 1000).1 segFrame = some (9, { fid := (0 : BitVec 29), ide := true, mask := (0 : BitVec 29), offload := true : Filt }) ∧
    { fid := (0 : BitVec 29), ide := true, mask := (0 : BitVec 29), offload := true : Filt }.offload = true ∧
    frameData segFrame = [(0 : Byte), (1 : Byte), (1 : Byte), (2 : Byte), (3 : Byte), (4 : Byte), (5 : Byte), (6 : Byte)] ∧
    BitVec.toNat (0 : Byte) % 8 = 0 ∧
    BitVec.getLsbD (0 : Byte) 7 = false ∧
    tget (onBus Mode.active (let __src := aCtl; { tb := __src.tb, sel := __src.sel, fifo := __src.fifo, filters := [(9, { fid := (0 : BitVec 29), ide := true, mask := (0 : BitVec 29), offload := true : Filt })], queue := __src.queue, bus := __src.bus, txw := __src.txw, ovfSeen := __src.ovfSeen, parts := __src.parts, stopped := __src.stopped, stopping := __src.stopping, nextBus := __src.nextBus, fltWas := __src.fltWas : Ctl }) [(Reg.FBCn_STATUS_PMODE, 0, 1)]).fbc[(0 : Fin 24)].parts segFrame.id.toNat = none ∧
    (onBus Mode.active aCtl [(Reg.FBCn_STATUS_PMODE, 0, 1), (Reg.FBCn_ERR_REC, 0, 0)]).fbc[(0 : Fin 24)] = (onBus Mode.active aCtl [(Reg.FBCn_STATUS_PMODE, 0, 1), (Reg.FBCn_ERR_REC, 0, 0)]).fbc[(0 : Fin 24)] ∧
    busRuns (onBus Mode.active aCtl [(Reg.FBCn_STATUS_PMODE, 0, 1), (Reg.FBCn_ERR_REC, 0, 0)]) (0 : Fin 24) = true ∧
    (onBus Mode.active aCtl [(Reg.FBCn_STATUS_PMODE, 0, 1), (Reg.FBCn_ERR_REC, 0, 127)]).fbc[(0 : Fin 24)] = (onBus Mode.active aCtl [(Reg.FBCn_STATUS_PMODE, 0, 1), (Reg.FBCn_ERR_REC, 0, 127)]).fbc[(0 : Fin 24)] ∧
    busRuns (onBus Mode.active aCtl [(Reg.FBCn_STATUS_PMODE, 0, 1), (Reg.FBCn_ERR_REC, 0, 127)]) (0 : Fin 24) = true ∧
    (onBus Mode.active aCtl [(Reg.FBCn_STATUS_PMODE, 0, 1), (Reg.FBCn_ERR_REC, 0, 250)]).fbc[(0 : Fin 24)] = (onBus Mode.active aCtl [(Reg.FBCn_STATUS_PMODE, 0, 1), (Reg.FBCn_ERR_REC, 0, 250)]).fbc[(0 : Fin 24)] ∧
    busRuns (onBus Mode.active aCtl [(Reg.FBCn_STATUS_PMODE, 0, 1), (Reg.FBCn_ERR_REC, 0, 250)]) (0 : Fin 24) = true ∧
    (onBus Mode.active aCtl []).fbc[(0 : Fin 24)] = (onBus Mode.active aCtl []).fbc[(0 : Fin 24)] ∧
    (onBus Mode.active aCtl []).fbc[(0 : Fin 24)].fifo = [] ∧
    (onBus Mode.active (let __src := aCtl; { tb := __src.tb, sel := __src.sel, fifo := [aRx, aRx], filters := __src.filters, queue := __src.queue, bus := __src.bus, txw := __src.txw, ovfSeen := __src.ovfSeen, parts := __src.parts, stopped := __src.stopped, stopping := __src.stopping, nextBus := __src.nextBus, fltWas := __src.fltWas : Ctl }) []).fbc[(0 : Fin 24)] = (onBus Mode.active (let __src := aCtl; { tb := __src.tb, sel := __src.sel, fifo := [aRx, aRx], filters := __src.filters, queue := __src.queue, bus := __src.bus, txw := __src.txw, ovfSeen := __src.ovfSeen, parts := __src.parts, stopped := __src.stopped, stopping := __src.stopping, nextBus := __src.nextBus, fltWas := __src.fltWas : Ctl }) []).fbc[(0 : Fin 24)] ∧
    (onBus Mode.active (let __src := aCtl; { tb := __src.tb, sel := __src.sel, fifo := [aRx, aRx], filters := __src.filters, queue := __src.queue, bus := __src.bus, txw := __src.txw, ovfSeen := __src.ovfSeen, parts := __src.parts, stopped := __src.stopped, stopping := __src.stopping, nextBus := __src.nextBus, fltWas := __src.fltWas : Ctl }) []).fbc[(0 : Fin 24)].fifo = [aRx, aRx] := by
  and_intros <;> decide +kernel

theorem witness_BusReception_3 :
    (onBus Mode.active (let __src := aCtl; { tb := #v[none, some { frame := aFrame, host := true, expiry := none, vertex := none, errors := 0, clash := 0, clashRec := false, cancel := false : TxReq }, none], sel := some (1 : Fin 3), fifo := [aRx, aRx], filters := __src.filters, queue := __src.queue, bus := __src.bus, txw := __src.txw, ovfSeen := __src.ovfSeen, parts := __src.parts, stopped := __src.stopped, stopping := __src.stopping, nextBus := __src.nextBus, fltWas := __src.fltWas : Ctl }) [(Reg.FBCn_STATUS_PMODE, 0, 1)]).fbc[(0 : Fin 24)] = (onBus Mode.active (let __src := aCtl; { tb := #v[none, some { frame := aFrame, host := true, expiry := none, vertex := none, errors := 0, clash := 0, clashRec := false, cancel := false : TxReq }, none], sel := some (1 : Fin 3), fifo := [aRx, aRx], filters := __src.filters, queue := __src.queue, bus := __src.bus, txw := __src.txw, ovfSeen := __src.ovfSeen, parts := __src.parts, stopped := __src.stopped, stopping := __src.stopping, nextBus := __src.nextBus, fltWas := __src.fltWas : Ctl }) [(Reg.FBCn_STATUS_PMODE, 0, 1)]).fbc[(0 : Fin 24)] ∧
    rd (onBus Mode.active (let __src := aCtl; { tb := #v[none, some { frame := aFrame, host := true, expiry := none, vertex := none, errors := 0, clash := 0, clashRec := false, cancel := false : TxReq }, none], sel := some (1 : Fin 3), fifo := [aRx, aRx], filters := __src.filters, queue := __src.queue, bus := __src.bus, txw := __src.txw, ovfSeen := __src.ovfSeen, parts := __src.parts, stopped := __src.stopped, stopping := __src.stopping, nextBus := __src.nextBus, fltWas := __src.fltWas : Ctl }) [(Reg.FBCn_STATUS_PMODE, 0, 1)]) Reg.FBCn_STATUS_MSTATE (0 : Fin 24).val = mstateCode MState.inService ∧
    WindowRuns (onBus Mode.active (let __src := aCtl; { tb := #v[none, some { frame := aFrame, host := true, expiry := none, vertex := none, errors := 0, clash := 0, clashRec := false, cancel := false : TxReq }, none], sel := some (1 : Fin 3), fifo := [aRx, aRx], filters := __src.filters, queue := __src.queue, bus := __src.bus, txw := __src.txw, ovfSeen := __src.ovfSeen, parts := __src.parts, stopped := __src.stopped, stopping := __src.stopping, nextBus := __src.nextBus, fltWas := __src.fltWas : Ctl }) [(Reg.FBCn_STATUS_PMODE, 0, 1)]) { cls := FClass.fieldbus, idx := (0 : Fin 24).val : Resource } ∧
    (onBus Mode.active (let __src := aCtl; { tb := #v[none, some { frame := aFrame, host := true, expiry := none, vertex := none, errors := 0, clash := 0, clashRec := false, cancel := false : TxReq }, none], sel := some (1 : Fin 3), fifo := [aRx, aRx], filters := __src.filters, queue := __src.queue, bus := __src.bus, txw := __src.txw, ovfSeen := __src.ovfSeen, parts := __src.parts, stopped := __src.stopped, stopping := __src.stopping, nextBus := __src.nextBus, fltWas := __src.fltWas : Ctl }) [(Reg.FBCn_STATUS_PMODE, 0, 1)]).fbc[(0 : Fin 24)].queue = [] ∧
    (onBus Mode.active (let __src := aCtl; { tb := #v[none, some { frame := aFrame, host := true, expiry := none, vertex := none, errors := 0, clash := 0, clashRec := false, cancel := false : TxReq }, none], sel := some (1 : Fin 3), fifo := [aRx, aRx], filters := __src.filters, queue := __src.queue, bus := __src.bus, txw := __src.txw, ovfSeen := __src.ovfSeen, parts := __src.parts, stopped := __src.stopped, stopping := __src.stopping, nextBus := __src.nextBus, fltWas := __src.fltWas : Ctl }) [(Reg.FBCn_STATUS_PMODE, 0, 1)]).fbc[(0 : Fin 24)].stopping = false ∧
    (onBus Mode.active (let __src := aCtl; { tb := #v[none, some { frame := aFrame, host := true, expiry := none, vertex := none, errors := 0, clash := 0, clashRec := false, cancel := false : TxReq }, none], sel := some (1 : Fin 3), fifo := [aRx, aRx], filters := __src.filters, queue := __src.queue, bus := __src.bus, txw := __src.txw, ovfSeen := __src.ovfSeen, parts := __src.parts, stopped := __src.stopped, stopping := __src.stopping, nextBus := __src.nextBus, fltWas := __src.fltWas : Ctl }) [(Reg.FBCn_STATUS_PMODE, 0, 1)]).fbc[(0 : Fin 24)].nextBus = none := by
  and_intros <;> decide +kernel

theorem witness_VertexMessages_1 :
    vListens (ctxUnit Mode.active []) = true ∧
    linkTakes (ctxUnit Mode.active []) ep4 (head (1 : BitVec 8) (24 : BitVec 16) (33 : BitVec 16)).dst = true ∧
    { stationId := (119 : BitVec 64), verMin := (1 : BitVec 8), verMax := (1 : BitVec 8), reqV := (3 : BitVec 16), maxRx := (200 : BitVec 16), nin := (1 : BitVec 16), rpus := (1000 : BitVec 32), nout := (2 : BitVec 32) : JoinBody }.stationId ≠ (0 : BitVec 64) ∧
    (head (1 : BitVec 8) (24 : BitVec 16) (33 : BitVec 16)).ver = (1 : BitVec 8) ∧
    (head (1 : BitVec 8) (24 : BitVec 16) (33 : BitVec 16)).len.toNat = 24 ∧
    linkTakes (ctxUnit Mode.active []) ep4 (head (1 : BitVec 8) (25 : BitVec 16) (33 : BitVec 16)).dst = true ∧
    (head (1 : BitVec 8) (25 : BitVec 16) (33 : BitVec 16)).len.toNat ≠ 24 ∧
    linkTakes (ctxUnit Mode.active []) ep4 (head (2 : BitVec 8) (24 : BitVec 16) (33 : BitVec 16)).dst = true ∧
    (head (2 : BitVec 8) (24 : BitVec 16) (33 : BitVec 16)).ver ≠ (1 : BitVec 8) ∧
    { stationId := (0 : BitVec 64), verMin := (1 : BitVec 8), verMax := (1 : BitVec 8), reqV := (3 : BitVec 16), maxRx := (200 : BitVec 16), nin := (1 : BitVec 16), rpus := (1000 : BitVec 32), nout := (2 : BitVec 32) : JoinBody }.stationId = (0 : BitVec 64) ∧
    linkTakes (ctxUnit Mode.active []) ep4 (head (1 : BitVec 8) (8 : BitVec 16) (33 : BitVec 16)).dst = true ∧
    Option.all (fun e => sameSource e.2.endpoint ep4) (List.find? (fun x => decide (x.2.stationId = (119 : BitVec 64))) (ctxUnit Mode.active []).npc.ctxs) = true ∧
    (head (1 : BitVec 8) (8 : BitVec 16) (33 : BitVec 16)).ver = (1 : BitVec 8) ∧
    (head (1 : BitVec 8) (8 : BitVec 16) (33 : BitVec 16)).len.toNat = 8 ∧
    Option.all (fun e => sameSource e.2.endpoint ep4) (List.find? (fun x => decide (x.2.stationId = (120 : BitVec 64))) (ctxUnit Mode.active []).npc.ctxs) = true ∧
    linkTakes (ctxUnit Mode.active []) ep4 (head (1 : BitVec 8) (9 : BitVec 16) (33 : BitVec 16)).dst = true ∧
    (head (1 : BitVec 8) (9 : BitVec 16) (33 : BitVec 16)).len.toNat ≠ 8 ∧
    linkTakes (ctxUnit Mode.active []) ep5 (head (1 : BitVec 8) (8 : BitVec 16) (33 : BitVec 16)).dst = true ∧
    List.find? (fun x => decide (x.2.stationId = (119 : BitVec 64))) (ctxUnit Mode.active []).npc.ctxs = some (3, aCtx) ∧
    sameSource aCtx.endpoint ep5 = false := by
  and_intros <;> decide +kernel

theorem witness_VertexMessages_2 :
    vListens (ctxUnit Mode.active []) = true ∧
    linkTakes (ctxUnit Mode.active []) ep4 (head (1 : BitVec 8) (4 : BitVec 16) (33 : BitVec 16)).dst = true ∧
    modeIs (ctxUnit Mode.active []) ≠ Mode.resync ∧
    (head (1 : BitVec 8) (4 : BitVec 16) (33 : BitVec 16)).ver = (1 : BitVec 8) ∧
    (head (1 : BitVec 8) (4 : BitVec 16) (33 : BitVec 16)).len.toNat = 4 ∧
    streamCtx (ctxUnit Mode.active []) (head (1 : BitVec 8) (4 : BitVec 16) (33 : BitVec 16)).stream.toNat = some (3, aCtx) ∧
    aCtx.session = (head (1 : BitVec 8) (4 : BitVec 16) (33 : BitVec 16)).session ∧
    sameSource aCtx.endpoint ep4 = true ∧
    linkTakes (ctxUnit Mode.active []) ep5 (head (1 : BitVec 8) (4 : BitVec 16) (33 : BitVec 16)).dst = true ∧
    sameSource aCtx.endpoint ep5 = false ∧
    linkTakes (ctxUnit Mode.active []) ep4 (head (1 : BitVec 8) (4 : BitVec 16) (34 : BitVec 16)).dst = true ∧
    (head (1 : BitVec 8) (4 : BitVec 16) (34 : BitVec 16)).ver = (1 : BitVec 8) ∧
    (head (1 : BitVec 8) (4 : BitVec 16) (34 : BitVec 16)).len.toNat = 4 ∧
    Option.all (fun e => decide (e.2.session ≠ (head (1 : BitVec 8) (4 : BitVec 16) (34 : BitVec 16)).session)) (streamCtx (ctxUnit Mode.active []) (head (1 : BitVec 8) (4 : BitVec 16) (34 : BitVec 16)).stream.toNat) = true ∧
    (0 = match ep4.link with | Link.bus _ => (head (1 : BitVec 8) (4 : BitVec 16) (34 : BitVec 16)).stream.toNat % 2048 | Link.port _ => 0) ∧
    vListens (ctxUnit Mode.standby []) = true ∧
    linkTakes (ctxUnit Mode.standby []) ep4 (head (1 : BitVec 8) (4 : BitVec 16) (34 : BitVec 16)).dst = true ∧
    modeIs (ctxUnit Mode.standby []) ≠ Mode.resync ∧
    Option.all (fun e => decide (e.2.session ≠ (head (1 : BitVec 8) (4 : BitVec 16) (34 : BitVec 16)).session)) (streamCtx (ctxUnit Mode.standby []) (head (1 : BitVec 8) (4 : BitVec 16) (34 : BitVec 16)).stream.toNat) = true ∧
    vListens rejoinedUnit = true ∧
    linkTakes rejoinedUnit ep4 (head (1 : BitVec 8) (4 : BitVec 16) (34 : BitVec 16)).dst = true ∧
    modeIs rejoinedUnit ≠ Mode.resync ∧
    Option.all (fun e => decide (e.2.session ≠ (head (1 : BitVec 8) (4 : BitVec 16) (34 : BitVec 16)).session)) (streamCtx rejoinedUnit (head (1 : BitVec 8) (4 : BitVec 16) (34 : BitVec 16)).stream.toNat) = true := by
  and_intros <;> decide +kernel

theorem witness_VertexMessages_3 :
    vListens (ctxUnit Mode.active []) = true ∧
    linkTakes (ctxUnit Mode.active []) ep4 (head (1 : BitVec 8) (17 : BitVec 16) (33 : BitVec 16)).dst = true ∧
    modeIs (ctxUnit Mode.active []) ≠ Mode.resync ∧
    (head (1 : BitVec 8) (17 : BitVec 16) (33 : BitVec 16)).ver = (1 : BitVec 8) ∧
    (head (1 : BitVec 8) (17 : BitVec 16) (33 : BitVec 16)).len.toNat = 4 + blockLen [{ value := (3 : Word), qual := (0 : BitVec 3) : Elem }].length ∧
    streamCtx (ctxUnit Mode.active []) (head (1 : BitVec 8) (17 : BitVec 16) (33 : BitVec 16)).stream.toNat = some (3, aCtx) ∧
    aCtx.session = (head (1 : BitVec 8) (17 : BitVec 16) (33 : BitVec 16)).session ∧
    sameSource aCtx.endpoint ep4 = true ∧
    linkTakes (ctxUnit Mode.active []) ep5 (head (1 : BitVec 8) (17 : BitVec 16) (33 : BitVec 16)).dst = true ∧
    sameSource aCtx.endpoint ep5 = false ∧
    linkTakes (ctxUnit Mode.active []) ep4 (head (1 : BitVec 8) (17 : BitVec 16) (34 : BitVec 16)).dst = true ∧
    (head (1 : BitVec 8) (17 : BitVec 16) (34 : BitVec 16)).ver = (1 : BitVec 8) ∧
    (head (1 : BitVec 8) (17 : BitVec 16) (34 : BitVec 16)).len.toNat = 4 + blockLen [{ value := (3 : Word), qual := (0 : BitVec 3) : Elem }].length ∧
    Option.all (fun e => decide (e.2.session ≠ (head (1 : BitVec 8) (17 : BitVec 16) (34 : BitVec 16)).session)) (streamCtx (ctxUnit Mode.active []) (head (1 : BitVec 8) (17 : BitVec 16) (34 : BitVec 16)).stream.toNat) = true ∧
    (0 = match ep4.link with | Link.bus _ => (head (1 : BitVec 8) (17 : BitVec 16) (34 : BitVec 16)).stream.toNat % 2048 | Link.port _ => 0) ∧
    vListens (ctxUnit Mode.standby []) = true ∧
    linkTakes (ctxUnit Mode.standby []) ep4 (head (1 : BitVec 8) (17 : BitVec 16) (34 : BitVec 16)).dst = true ∧
    modeIs (ctxUnit Mode.standby []) ≠ Mode.resync ∧
    Option.all (fun e => decide (e.2.session ≠ (head (1 : BitVec 8) (17 : BitVec 16) (34 : BitVec 16)).session)) (streamCtx (ctxUnit Mode.standby []) (head (1 : BitVec 8) (17 : BitVec 16) (34 : BitVec 16)).stream.toNat) = true ∧
    vListens rejoinedUnit = true ∧
    linkTakes rejoinedUnit ep4 (head (1 : BitVec 8) (17 : BitVec 16) (34 : BitVec 16)).dst = true ∧
    modeIs rejoinedUnit ≠ Mode.resync ∧
    Option.all (fun e => decide (e.2.session ≠ (head (1 : BitVec 8) (17 : BitVec 16) (34 : BitVec 16)).session)) (streamCtx rejoinedUnit (head (1 : BitVec 8) (17 : BitVec 16) (34 : BitVec 16)).stream.toNat) = true := by
  and_intros <;> decide +kernel

theorem witness_VertexMessages_4 :
    vListens (ctxUnit Mode.active []) = true ∧
    linkTakes (ctxUnit Mode.active []) ep4 (head (1 : BitVec 8) (28 : BitVec 16) (33 : BitVec 16)).dst = true ∧
    modeIs (ctxUnit Mode.active []) ≠ Mode.resync ∧
    (head (1 : BitVec 8) (28 : BitVec 16) (33 : BitVec 16)).ver = (1 : BitVec 8) ∧
    (head (1 : BitVec 8) (28 : BitVec 16) (33 : BitVec 16)).len.toNat = 28 ∧
    streamCtx (ctxUnit Mode.active []) (head (1 : BitVec 8) (28 : BitVec 16) (33 : BitVec 16)).stream.toNat = some (3, aCtx) ∧
    aCtx.session = (head (1 : BitVec 8) (28 : BitVec 16) (33 : BitVec 16)).session ∧
    sameSource aCtx.endpoint ep4 = true ∧
    linkTakes (ctxUnit Mode.active []) ep5 (head (1 : BitVec 8) (28 : BitVec 16) (33 : BitVec 16)).dst = true ∧
    sameSource aCtx.endpoint ep5 = false ∧
    linkTakes (ctxUnit Mode.active []) ep4 (head (1 : BitVec 8) (28 : BitVec 16) (34 : BitVec 16)).dst = true ∧
    (head (1 : BitVec 8) (28 : BitVec 16) (34 : BitVec 16)).ver = (1 : BitVec 8) ∧
    (head (1 : BitVec 8) (28 : BitVec 16) (34 : BitVec 16)).len.toNat = 28 ∧
    Option.all (fun e => decide (e.2.session ≠ (head (1 : BitVec 8) (28 : BitVec 16) (34 : BitVec 16)).session)) (streamCtx (ctxUnit Mode.active []) (head (1 : BitVec 8) (28 : BitVec 16) (34 : BitVec 16)).stream.toNat) = true ∧
    (0 = match ep4.link with | Link.bus _ => (head (1 : BitVec 8) (28 : BitVec 16) (34 : BitVec 16)).stream.toNat % 2048 | Link.port _ => 0) ∧
    vListens (ctxUnit Mode.standby []) = true ∧
    linkTakes (ctxUnit Mode.standby []) ep4 (head (1 : BitVec 8) (28 : BitVec 16) (34 : BitVec 16)).dst = true ∧
    modeIs (ctxUnit Mode.standby []) ≠ Mode.resync ∧
    Option.all (fun e => decide (e.2.session ≠ (head (1 : BitVec 8) (28 : BitVec 16) (34 : BitVec 16)).session)) (streamCtx (ctxUnit Mode.standby []) (head (1 : BitVec 8) (28 : BitVec 16) (34 : BitVec 16)).stream.toNat) = true ∧
    vListens rejoinedUnit = true ∧
    linkTakes rejoinedUnit ep4 (head (1 : BitVec 8) (28 : BitVec 16) (34 : BitVec 16)).dst = true ∧
    modeIs rejoinedUnit ≠ Mode.resync ∧
    Option.all (fun e => decide (e.2.session ≠ (head (1 : BitVec 8) (28 : BitVec 16) (34 : BitVec 16)).session)) (streamCtx rejoinedUnit (head (1 : BitVec 8) (28 : BitVec 16) (34 : BitVec 16)).stream.toNat) = true := by
  and_intros <;> decide +kernel

theorem witness_VertexMessages_5 :
    vListens (ctxUnit Mode.active []) = true ∧
    linkTakes (ctxUnit Mode.active []) ep4 strayHead.dst = false ∧
    ep4.link = Link.port (0 : Fin 16) ∧
    portUp (ctxUnit Mode.active []) (0 : Fin 16) = true := by
  and_intros <;> decide +kernel

theorem witness_VertexTimesAndCommands_1 :
    tget (atTime (ctxUnit Mode.active []) 108 0).npc.ctxs (3 : Fin 2048).val = some aCtx ∧
    { seq := (5 : BitVec 32), claim := (1 : BitVec 32), first := 100, retries := 1, elems := [], ackTo := 2, retry := 3 : Copy } ∈ aCtx.copies ∧
    { seq := (5 : BitVec 32), claim := (1 : BitVec 32), first := 100, retries := 1, elems := [], ackTo := 2, retry := 3 : Copy }.first + ({ seq := (5 : BitVec 32), claim := (1 : BitVec 32), first := 100, retries := 1, elems := [], ackTo := 2, retry := 3 : Copy }.retry + 1) * { seq := (5 : BitVec 32), claim := (1 : BitVec 32), first := 100, retries := 1, elems := [], ackTo := 2, retry := 3 : Copy }.ackTo ≤ (atTime (ctxUnit Mode.active []) 108 0).tb.tick ∧
    tget (atTime (ctxUnit Mode.active []) 107 0).npc.ctxs (3 : Fin 2048).val = some aCtx ∧
    (∀ k ∈ aCtx.copies, (atTime (ctxUnit Mode.active []) 107 0).tb.tick < k.first + (k.retry + 1) * k.ackTo) ∧
    tget (atTime (ctxUnit Mode.active []) 30 0).npc.ctxs (3 : Fin 2048).val = some aCtx ∧
    linkStopped (atTime (ctxUnit Mode.active []) 30 0) aCtx.endpoint.link = false ∧
    aCtx.missFrom + aCtx.missMax * aCtx.rpTicks ≤ (atTime (ctxUnit Mode.active []) 30 0).tb.tick ∧
    tget (atTime (ctxUnit Mode.active []) 29 0).npc.ctxs (3 : Fin 2048).val = some aCtx ∧
    linkStopped (atTime (ctxUnit Mode.active []) 29 0) aCtx.endpoint.link = false ∧
    (atTime (ctxUnit Mode.active []) 29 0).tb.tick < aCtx.missFrom + aCtx.missMax * aCtx.rpTicks ∧
    tget (atTime (ctxUnit Mode.active [(Reg.NPC_VRCFG_EN, 0, 0)]) 30 1000000050).npc.ctxs (3 : Fin 2048).val = some aCtx ∧
    aCtx.run = some { code := 4, rsn := 0, seq := (3 : BitVec 32), count := 2, since := 50 : DelRun } ∧
    { code := 4, rsn := 0, seq := (3 : BitVec 32), count := 2, since := 50 : DelRun }.since + 1000000000 ≤ (atTime (ctxUnit Mode.active [(Reg.NPC_VRCFG_EN, 0, 0)]) 30 1000000050).tb.now ∧
    tget (atTime (ctxUnit Mode.active [(Reg.NPC_VRCFG_EN, 0, 1)]) 30 1000000050).npc.ctxs (3 : Fin 2048).val = some aCtx ∧
    { code := 4, rsn := 0, seq := (3 : BitVec 32), count := 2, since := 50 : DelRun }.since + 1000000000 ≤ (atTime (ctxUnit Mode.active [(Reg.NPC_VRCFG_EN, 0, 1)]) 30 1000000050).tb.now ∧
    tget (atTime (ctxUnit Mode.active []) 30 1000000049).npc.ctxs (3 : Fin 2048).val = some aCtx ∧
    (atTime (ctxUnit Mode.active []) 30 1000000049).tb.now < { code := 4, rsn := 0, seq := (3 : BitVec 32), count := 2, since := 50 : DelRun }.since + 1000000000 ∧
    tget (segUnit (atTime (ctxUnit Mode.active []) 30 2001000)).npc.ctxs (3 : Fin 2048).val = some aCtx ∧
    tget (segUnit (atTime (ctxUnit Mode.active []) 30 2001000)).fbc[(0 : Fin 24)].parts (BitVec.toNat (33554435 : BitVec 29)) = some { next := 1, bytes := [(1 : Byte)], last := 1000 : Partial } ∧
    (segUnit (atTime (ctxUnit Mode.active []) 30 2001000)).fbc[(0 : Fin 24)].bus = some aBus ∧
    { next := 1, bytes := [(1 : Byte)], last := 1000 : Partial }.last + 10000 * (aBus.nbrp * (1 + aBus.ntseg1 + aBus.ntseg2)) * 25 / 2 ≤ (segUnit (atTime (ctxUnit Mode.active []) 30 2001000)).tb.now := by
  and_intros <;> decide +kernel

theorem witness_VertexTimesAndCommands_2 :
    rdB (ctxUnit Mode.halt []) Reg.NPC_VCMDSTS_PEND = false ∧
    modeIs (ctxUnit Mode.halt []) = Mode.halt ∧
    (tget (ctxUnit Mode.halt []).npc.ctxs (3 : Fin 2048).val).isSome = true ∧
    InBody.release 2047 = InBody.release (2047 : Fin 2048).val ∧
    tget (ctxUnit Mode.halt []).npc.ctxs (2047 : Fin 2048).val = none ∧
    InBody.clearMm 2047 = InBody.clearMm (2047 : Fin 2048).val ∧
    rdB (ctxUnit Mode.active []) Reg.NPC_VCMDSTS_PEND = false ∧
    InBody.release 3 = InBody.release (3 : Fin 2048).val ∧
    modeIs (ctxUnit Mode.active []) = Mode.active ∧
    InBody.clearMm 3 = InBody.clearMm (3 : Fin 2048).val ∧
    rdB (ctxUnit Mode.standby []) Reg.NPC_VCMDSTS_PEND = false ∧
    modeIs (ctxUnit Mode.standby []) = Mode.standby ∧
    rdB (ctxUnit Mode.safehold []) Reg.NPC_VCMDSTS_PEND = false ∧
    modeIs (ctxUnit Mode.safehold []) = Mode.safehold := by
  and_intros <;> decide +kernel

theorem witness_ClaimsAndStationReceiver_1 :
    modeIs (claimed Mode.active []) = Mode.active ∧
    modeIs (claimed Mode.standby []) ≠ Mode.active ∧
    portUp (claimed Mode.active []) (0 : Fin 16) = true ∧
    vListens (claimed Mode.active []) = true ∧
    (!ownSide (claimed Mode.active [])) ≠ ownSide (claimed Mode.active []) ∧
    (1 : Fin 8) ≠ ownMember (claimed Mode.active []) ∧
    false = ownSide (claimed Mode.active []) ∧
    (anAck (119 : BitVec 64) (0 : BitVec 8)).stationId = (119 : BitVec 64) ∧
    (anAck (119 : BitVec 64) (0 : BitVec 8)).result = (0 : BitVec 8) ∧
    (anAck (120 : BitVec 64) (0 : BitVec 8)).stationId = (120 : BitVec 64) ∧
    (anAck (120 : BitVec 64) (0 : BitVec 8)).result = (0 : BitVec 8) ∧
    (anAck (120 : BitVec 64) (0 : BitVec 8)).stationId ≠ (119 : BitVec 64) ∧
    (anAck (119 : BitVec 64) (1 : BitVec 8)).result ≠ (0 : BitVec 8) ∧
    recvOf receiver (119 : BitVec 64) = some aRecv ∧
    { stream := (3 : BitVec 16), session := (32 : BitVec 16), seq := (6 : BitVec 32), claim := (2 : BitVec 32), digest := (66 : BitVec 64), elems := [{ value := (1 : Word), qual := (0 : BitVec 3) : Elem }] : CmdCopy }.session ≠ aRecv.session ∧
    { stream := (4 : BitVec 16), session := (33 : BitVec 16), seq := (6 : BitVec 32), claim := (2 : BitVec 32), digest := (66 : BitVec 64), elems := [{ value := (1 : Word), qual := (0 : BitVec 3) : Elem }] : CmdCopy }.stream ≠ aRecv.stream ∧
    { stream := (3 : BitVec 16), session := (33 : BitVec 16), seq := (6 : BitVec 32), claim := (1 : BitVec 32), digest := (66 : BitVec 64), elems := [{ value := (1 : Word), qual := (0 : BitVec 3) : Elem }] : CmdCopy }.stream = aRecv.stream ∧
    { stream := (3 : BitVec 16), session := (33 : BitVec 16), seq := (6 : BitVec 32), claim := (1 : BitVec 32), digest := (66 : BitVec 64), elems := [{ value := (1 : Word), qual := (0 : BitVec 3) : Elem }] : CmdCopy }.session = aRecv.session ∧
    newer32 { stream := (3 : BitVec 16), session := (33 : BitVec 16), seq := (6 : BitVec 32), claim := (1 : BitVec 32), digest := (66 : BitVec 64), elems := [{ value := (1 : Word), qual := (0 : BitVec 3) : Elem }] : CmdCopy }.seq aRecv.last = true ∧
    (∀ e ∈ aRecv.heard, e.1.toNat ≤ { stream := (3 : BitVec 16), session := (33 : BitVec 16), seq := (6 : BitVec 32), claim := (1 : BitVec 32), digest := (66 : BitVec 64), elems := [{ value := (1 : Word), qual := (0 : BitVec 3) : Elem }] : CmdCopy }.claim.toNat + 1) ∧
    { stream := (3 : BitVec 16), session := (33 : BitVec 16), seq := (6 : BitVec 32), claim := (2 : BitVec 32), digest := (66 : BitVec 64), elems := [{ value := (1 : Word), qual := (0 : BitVec 3) : Elem }] : CmdCopy }.stream = aRecv.stream ∧
    { stream := (3 : BitVec 16), session := (33 : BitVec 16), seq := (6 : BitVec 32), claim := (2 : BitVec 32), digest := (66 : BitVec 64), elems := [{ value := (1 : Word), qual := (0 : BitVec 3) : Elem }] : CmdCopy }.session = aRecv.session ∧
    newer32 { stream := (3 : BitVec 16), session := (33 : BitVec 16), seq := (6 : BitVec 32), claim := (2 : BitVec 32), digest := (66 : BitVec 64), elems := [{ value := (1 : Word), qual := (0 : BitVec 3) : Elem }] : CmdCopy }.seq aRecv.last = true ∧
    (∀ e ∈ aRecv.heard, e.1.toNat ≤ { stream := (3 : BitVec 16), session := (33 : BitVec 16), seq := (6 : BitVec 32), claim := (2 : BitVec 32), digest := (66 : BitVec 64), elems := [{ value := (1 : Word), qual := (0 : BitVec 3) : Elem }] : CmdCopy }.claim.toNat + 1) := by
  and_intros <;> decide +kernel

theorem witness_ClaimsAndStationReceiver_2 :
    recvOf receiver (119 : BitVec 64) = some aRecv ∧
    { stream := (3 : BitVec 16), session := (33 : BitVec 16), seq := (6 : BitVec 32), claim := (0 : BitVec 32), digest := (66 : BitVec 64), elems := [{ value := (1 : Word), qual := (0 : BitVec 3) : Elem }] : CmdCopy }.stream = aRecv.stream ∧
    { stream := (3 : BitVec 16), session := (33 : BitVec 16), seq := (6 : BitVec 32), claim := (0 : BitVec 32), digest := (66 : BitVec 64), elems := [{ value := (1 : Word), qual := (0 : BitVec 3) : Elem }] : CmdCopy }.session = aRecv.session ∧
    newer32 { stream := (3 : BitVec 16), session := (33 : BitVec 16), seq := (6 : BitVec 32), claim := (0 : BitVec 32), digest := (66 : BitVec 64), elems := [{ value := (1 : Word), qual := (0 : BitVec 3) : Elem }] : CmdCopy }.seq aRecv.last = true ∧
    ((2 : BitVec 32), 1000) ∈ aRecv.heard ∧
    8001000 ≤ ((2 : BitVec 32), 1000).2 + aRecv.cw * aRecv.tickNs ∧
    { stream := (3 : BitVec 16), session := (33 : BitVec 16), seq := (6 : BitVec 32), claim := (0 : BitVec 32), digest := (66 : BitVec 64), elems := [{ value := (1 : Word), qual := (0 : BitVec 3) : Elem }] : CmdCopy }.claim.toNat + 1 < ((2 : BitVec 32), 1000).1.toNat ∧
    { stream := (3 : BitVec 16), session := (33 : BitVec 16), seq := (6 : BitVec 32), claim := (3 : BitVec 32), digest := (66 : BitVec 64), elems := [{ value := (1 : Word), qual := (0 : BitVec 3) : Elem }] : CmdCopy }.stream = aRecv.stream ∧
    { stream := (3 : BitVec 16), session := (33 : BitVec 16), seq := (6 : BitVec 32), claim := (3 : BitVec 32), digest := (66 : BitVec 64), elems := [{ value := (1 : Word), qual := (0 : BitVec 3) : Elem }] : CmdCopy }.session = aRecv.session ∧
    newer32 { stream := (3 : BitVec 16), session := (33 : BitVec 16), seq := (6 : BitVec 32), claim := (3 : BitVec 32), digest := (66 : BitVec 64), elems := [{ value := (1 : Word), qual := (0 : BitVec 3) : Elem }] : CmdCopy }.seq aRecv.last = true ∧
    (∀ e ∈ aRecv.heard, e.1.toNat ≤ { stream := (3 : BitVec 16), session := (33 : BitVec 16), seq := (6 : BitVec 32), claim := (3 : BitVec 32), digest := (66 : BitVec 64), elems := [{ value := (1 : Word), qual := (0 : BitVec 3) : Elem }] : CmdCopy }.claim.toNat + 1) ∧
    { stream := (3 : BitVec 16), session := (33 : BitVec 16), seq := (5 : BitVec 32), claim := (2 : BitVec 32), digest := (55 : BitVec 64), elems := [{ value := (1 : Word), qual := (0 : BitVec 3) : Elem }] : CmdCopy }.stream = aRecv.stream ∧
    { stream := (3 : BitVec 16), session := (33 : BitVec 16), seq := (5 : BitVec 32), claim := (2 : BitVec 32), digest := (55 : BitVec 64), elems := [{ value := (1 : Word), qual := (0 : BitVec 3) : Elem }] : CmdCopy }.session = aRecv.session ∧
    newer32 { stream := (3 : BitVec 16), session := (33 : BitVec 16), seq := (5 : BitVec 32), claim := (2 : BitVec 32), digest := (55 : BitVec 64), elems := [{ value := (1 : Word), qual := (0 : BitVec 3) : Elem }] : CmdCopy }.seq aRecv.last = false ∧
    List.find? (fun x => decide (x.1 = { stream := (3 : BitVec 16), session := (33 : BitVec 16), seq := (5 : BitVec 32), claim := (2 : BitVec 32), digest := (55 : BitVec 64), elems := [{ value := (1 : Word), qual := (0 : BitVec 3) : Elem }] : CmdCopy }.seq)) aRecv.hist = some ((5 : BitVec 32), (2 : BitVec 32), (55 : BitVec 64)) ∧
    { stream := (3 : BitVec 16), session := (33 : BitVec 16), seq := (5 : BitVec 32), claim := (1 : BitVec 32), digest := (56 : BitVec 64), elems := [{ value := (1 : Word), qual := (0 : BitVec 3) : Elem }] : CmdCopy }.stream = aRecv.stream ∧
    { stream := (3 : BitVec 16), session := (33 : BitVec 16), seq := (5 : BitVec 32), claim := (1 : BitVec 32), digest := (56 : BitVec 64), elems := [{ value := (1 : Word), qual := (0 : BitVec 3) : Elem }] : CmdCopy }.session = aRecv.session ∧
    newer32 { stream := (3 : BitVec 16), session := (33 : BitVec 16), seq := (5 : BitVec 32), claim := (1 : BitVec 32), digest := (56 : BitVec 64), elems := [{ value := (1 : Word), qual := (0 : BitVec 3) : Elem }] : CmdCopy }.seq aRecv.last = false ∧
    List.find? (fun x => decide (x.1 = { stream := (3 : BitVec 16), session := (33 : BitVec 16), seq := (5 : BitVec 32), claim := (1 : BitVec 32), digest := (56 : BitVec 64), elems := [{ value := (1 : Word), qual := (0 : BitVec 3) : Elem }] : CmdCopy }.seq)) aRecv.hist = some ((5 : BitVec 32), (2 : BitVec 32), (55 : BitVec 64)) ∧
    { stream := (3 : BitVec 16), session := (33 : BitVec 16), seq := (4 : BitVec 32), claim := (1 : BitVec 32), digest := (45 : BitVec 64), elems := [{ value := (1 : Word), qual := (0 : BitVec 3) : Elem }] : CmdCopy }.stream = aRecv.stream ∧
    { stream := (3 : BitVec 16), session := (33 : BitVec 16), seq := (4 : BitVec 32), claim := (1 : BitVec 32), digest := (45 : BitVec 64), elems := [{ value := (1 : Word), qual := (0 : BitVec 3) : Elem }] : CmdCopy }.session = aRecv.session ∧
    newer32 { stream := (3 : BitVec 16), session := (33 : BitVec 16), seq := (4 : BitVec 32), claim := (1 : BitVec 32), digest := (45 : BitVec 64), elems := [{ value := (1 : Word), qual := (0 : BitVec 3) : Elem }] : CmdCopy }.seq aRecv.last = false ∧
    List.find? (fun x => decide (x.1 = { stream := (3 : BitVec 16), session := (33 : BitVec 16), seq := (4 : BitVec 32), claim := (1 : BitVec 32), digest := (45 : BitVec 64), elems := [{ value := (1 : Word), qual := (0 : BitVec 3) : Elem }] : CmdCopy }.seq)) aRecv.hist = some ((4 : BitVec 32), (1 : BitVec 32), (44 : BitVec 64)) := by
  and_intros <;> decide +kernel

theorem witness_ClaimsAndStationReceiver_3 :
    recvOf receiver (119 : BitVec 64) = some aRecv ∧
    { stream := (3 : BitVec 16), session := (33 : BitVec 16), seq := (3 : BitVec 32), claim := (2 : BitVec 32), digest := (55 : BitVec 64), elems := [{ value := (1 : Word), qual := (0 : BitVec 3) : Elem }] : CmdCopy }.stream = aRecv.stream ∧
    { stream := (3 : BitVec 16), session := (33 : BitVec 16), seq := (3 : BitVec 32), claim := (2 : BitVec 32), digest := (55 : BitVec 64), elems := [{ value := (1 : Word), qual := (0 : BitVec 3) : Elem }] : CmdCopy }.session = aRecv.session ∧
    newer32 { stream := (3 : BitVec 16), session := (33 : BitVec 16), seq := (3 : BitVec 32), claim := (2 : BitVec 32), digest := (55 : BitVec 64), elems := [{ value := (1 : Word), qual := (0 : BitVec 3) : Elem }] : CmdCopy }.seq aRecv.last = false ∧
    List.find? (fun x => decide (x.1 = { stream := (3 : BitVec 16), session := (33 : BitVec 16), seq := (3 : BitVec 32), claim := (2 : BitVec 32), digest := (55 : BitVec 64), elems := [{ value := (1 : Word), qual := (0 : BitVec 3) : Elem }] : CmdCopy }.seq)) aRecv.hist = none ∧
    aRecv.lastCmd + (aRecv.rpTicks + aRecv.cw) * aRecv.tickNs ≤ 18001000 ∧
    18000999 < aRecv.lastCmd + (aRecv.rpTicks + aRecv.cw) * aRecv.tickNs := by
  and_intros <;> decide +kernel

theorem witness_PortEvents :
    portRec (onPorts Mode.active []) (0 : Fin 16) = some aPort ∧
    linkRetired (onPorts Mode.active []) (Link.port (0 : Fin 16)) = false ∧
    speedAllowed aPort (2 : Fin 4).val = true ∧
    speedAllowed aPort (3 : Fin 4).val = false ∧
    portRec (onPorts Mode.active []) (1 : Fin 16) = some (let __src := aPort; { en := __src.en, ifMode := __src.ifMode, ipv4 := __src.ipv4, ipv6 := __src.ipv6, vlanEn := __src.vlanEn, ptpMaster := true, twoStep := true, speeds := __src.speeds, ptpDom := __src.ptpDom, vlan := __src.vlan, macA := __src.macA, macB := __src.macB, ip4A := __src.ip4A, ip4B := __src.ip4B, ip4Pfx := __src.ip4Pfx, ip6Pfx := __src.ip6Pfx, logSync := __src.logSync, prio1 := __src.prio1, ip4Grp := __src.ip4Grp, ip6A := __src.ip6A, ip6B := __src.ip6B, ip6Grp := __src.ip6Grp, txLat := __src.txLat, rxLat := __src.rxLat : PortRec }) ∧
    linkRetired (onPorts Mode.active []) (Link.port (1 : Fin 16)) = false ∧
    speedAllowed (let __src := aPort; { en := __src.en, ifMode := __src.ifMode, ipv4 := __src.ipv4, ipv6 := __src.ipv6, vlanEn := __src.vlanEn, ptpMaster := true, twoStep := true, speeds := __src.speeds, ptpDom := __src.ptpDom, vlan := __src.vlan, macA := __src.macA, macB := __src.macB, ip4A := __src.ip4A, ip4B := __src.ip4B, ip4Pfx := __src.ip4Pfx, ip6Pfx := __src.ip6Pfx, logSync := __src.logSync, prio1 := __src.prio1, ip4Grp := __src.ip4Grp, ip6A := __src.ip6A, ip6B := __src.ip6B, ip6Grp := __src.ip6Grp, txLat := __src.txLat, rxLat := __src.rxLat : PortRec }) (0 : Fin 4).val = true ∧
    speedAllowed (let __src := aPort; { en := __src.en, ifMode := __src.ifMode, ipv4 := __src.ipv4, ipv6 := __src.ipv6, vlanEn := __src.vlanEn, ptpMaster := true, twoStep := true, speeds := __src.speeds, ptpDom := __src.ptpDom, vlan := __src.vlan, macA := __src.macA, macB := __src.macB, ip4A := __src.ip4A, ip4B := __src.ip4B, ip4Pfx := __src.ip4Pfx, ip6Pfx := __src.ip6Pfx, logSync := __src.logSync, prio1 := __src.prio1, ip4Grp := __src.ip4Grp, ip6A := __src.ip6A, ip6B := __src.ip6B, ip6Grp := __src.ip6Grp, txLat := __src.txLat, rxLat := __src.rxLat : PortRec }) (3 : Fin 4).val = false ∧
    rd (onPorts Mode.active []) Reg.NPCp_STATUS_MSTATE (0 : Fin 16).val = mstateCode MState.inService ∧
    WindowRuns (onPorts Mode.active []) { cls := FClass.network, idx := (0 : Fin 16).val : Resource } ∧
    rd calmUnit Reg.NPCp_STATUS_MSTATE (0 : Fin 16).val = mstateCode MState.inService ∧
    WindowRuns calmUnit { cls := FClass.network, idx := (0 : Fin 16).val : Resource } ∧
    tget calmUnit.npc.ctxs (3 : Fin 2048).val = some calmCtx ∧
    calmCtx.endpoint.link = Link.port (0 : Fin 16) ∧
    (∃ k ∈ calmCtx.copies, k.seq = calmCtx.lastSeq) ∧
    calmCtx.run = none ∧
    portUp (onPorts Mode.active []) (0 : Fin 16) = true ∧
    vListens (onPorts Mode.active []) = true ∧
    answers (onPorts Mode.active []) aPort EchoKind.arp { addr := (6 : BitVec 128), target := (281470681743360 : BitVec 128), vlan := none : EchoSrc } = true ∧
    answers (onPorts Mode.active []) aPort EchoKind.echo4 { addr := (6 : BitVec 128), target := (281470681743360 : BitVec 128), vlan := none : EchoSrc } = true ∧
    answers (onPorts Mode.active []) aPort EchoKind.neighbour { addr := (6 : BitVec 128), target := (0 : BitVec 128), vlan := none : EchoSrc } = true ∧
    answers (onPorts Mode.active []) aPort EchoKind.echo6 { addr := (6 : BitVec 128), target := (0 : BitVec 128), vlan := none : EchoSrc } = true ∧
    answers (onPorts Mode.active []) aPort EchoKind.arp { addr := (6 : BitVec 128), target := (5 : BitVec 128), vlan := none : EchoSrc } = false ∧
    portUp (onPorts Mode.active []) (1 : Fin 16) = true := by
  and_intros <;> decide +kernel

theorem witness_VectorsAndDma_1 :
    dmaBusy (dmaUnit Mode.halt []) (1 : Fin 4) = true ∧
    lsvRuns (dmaUnit Mode.halt []) = true ∧
    2016 = rd64 (dmaUnit Mode.halt []) Reg.HMX_DMABASE_LO_BASE Reg.HMX_DMABASE_HI_BASE (1 : Fin 4).val + 32 * (rd (dmaUnit Mode.halt []) Reg.HMX_DMATAIL_TAIL (1 : Fin 4).val % 2 ^ rd (dmaUnit Mode.halt []) Reg.HMX_DMACFG_LOG (1 : Fin 4).val) ∧
    dmaBusy (dmaUnit Mode.active []) (1 : Fin 4) = true ∧
    lsvRuns (dmaUnit Mode.active []) = true ∧
    2016 = rd64 (dmaUnit Mode.active []) Reg.HMX_DMABASE_LO_BASE Reg.HMX_DMABASE_HI_BASE (1 : Fin 4).val + 32 * (rd (dmaUnit Mode.active []) Reg.HMX_DMATAIL_TAIL (1 : Fin 4).val % 2 ^ rd (dmaUnit Mode.active []) Reg.HMX_DMACFG_LOG (1 : Fin 4).val) ∧
    dmaBusy (dmaUnit Mode.standby []) (1 : Fin 4) = true ∧
    lsvRuns (dmaUnit Mode.standby []) = true ∧
    2016 = rd64 (dmaUnit Mode.standby []) Reg.HMX_DMABASE_LO_BASE Reg.HMX_DMABASE_HI_BASE (1 : Fin 4).val + 32 * (rd (dmaUnit Mode.standby []) Reg.HMX_DMATAIL_TAIL (1 : Fin 4).val % 2 ^ rd (dmaUnit Mode.standby []) Reg.HMX_DMACFG_LOG (1 : Fin 4).val) ∧
    dmaBusy (dmaUnit Mode.resync []) (1 : Fin 4) = true ∧
    lsvRuns (dmaUnit Mode.resync []) = true ∧
    2016 = rd64 (dmaUnit Mode.resync []) Reg.HMX_DMABASE_LO_BASE Reg.HMX_DMABASE_HI_BASE (1 : Fin 4).val + 32 * (rd (dmaUnit Mode.resync []) Reg.HMX_DMATAIL_TAIL (1 : Fin 4).val % 2 ^ rd (dmaUnit Mode.resync []) Reg.HMX_DMACFG_LOG (1 : Fin 4).val) ∧
    dmaBusy (dmaUnit Mode.safehold []) (1 : Fin 4) = true ∧
    lsvRuns (dmaUnit Mode.safehold []) = true ∧
    2016 = rd64 (dmaUnit Mode.safehold []) Reg.HMX_DMABASE_LO_BASE Reg.HMX_DMABASE_HI_BASE (1 : Fin 4).val + 32 * (rd (dmaUnit Mode.safehold []) Reg.HMX_DMATAIL_TAIL (1 : Fin 4).val % 2 ^ rd (dmaUnit Mode.safehold []) Reg.HMX_DMACFG_LOG (1 : Fin 4).val) ∧
    BitVec.toNat (96 : BitVec 32) % 2 = 0 ∧
    BitVec.toNat (0 : BitVec 32) % 2 = 0 ∧
    BitVec.toNat (107 : BitVec 32) % 2 = 1 ∧
    rd (dmaUnit Mode.active []) Reg.HMX_DMACFG_EN (2 : Fin 4).val = 0 ∧
    bitsOf (BitVec.toNat (107 : BitVec 32)) 1 4 < 6 ∧
    BitVec.toNat (123 : BitVec 32) % 2 = 1 ∧
    12 < bitsOf (BitVec.toNat (123 : BitVec 32)) 1 4 := by
  and_intros <;> decide +kernel

theorem witness_VectorsAndDma_2 :
    BitVec.toNat (109 : BitVec 32) % 2 = 1 ∧
    rd (dmaUnit Mode.active []) Reg.HMX_DMACFG_EN (2 : Fin 4).val = 0 ∧
    6 ≤ bitsOf (BitVec.toNat (109 : BitVec 32)) 1 4 ∧
    bitsOf (BitVec.toNat (109 : BitVec 32)) 1 4 ≤ 12 ∧
    rd (dmaUnit Mode.active []) Reg.HMX_DMACFG_EN (0 : Fin 4).val = 0 ∧
    BitVec.toNat (121 : BitVec 32) % 2 = 1 ∧
    6 ≤ bitsOf (BitVec.toNat (121 : BitVec 32)) 1 4 ∧
    bitsOf (BitVec.toNat (121 : BitVec 32)) 1 4 ≤ 12 := by
  and_intros <;> decide +kernel

theorem witness_HostMemoryEvents :
    windowOk (dmaUnit Mode.active []) (bar2Addr (dmaUnit Mode.active []) 0) 8 = false ∧
    windowOk (dmaUnit Mode.active []) (bar2Addr (dmaUnit Mode.active []) 4128768) 8 = true ∧
    modeIs (inMode Mode.recall [(Reg.HMX_DDRCFG_DRAM, 0, 1)]) = Mode.recall ∧
    rd (inMode Mode.recall [(Reg.HMX_DDRCFG_DRAM, 0, 1)]) Reg.HMX_DDRCFG_DRAM ≠ 0 ∧
    (∀ (r : Fin 4), none = some r ∨ none = some r → rd (inMode Mode.recall [(Reg.HMX_DDRCFG_DRAM, 0, 1)]) Reg.HMX_DDRCFG_RATE ≤ ↑r) ∧
    128 ≤ BitVec.toNat (256 : BitVec 10) ∧
    BitVec.toNat (256 : BitVec 10) ≤ 512 ∧
    (∀ (r : Fin 4), some (2 : Fin 4) = some r ∨ none = some r → rd (inMode Mode.recall [(Reg.HMX_DDRCFG_DRAM, 0, 1)]) Reg.HMX_DDRCFG_RATE ≤ ↑r) ∧
    (∀ (r : Fin 4), some (0 : Fin 4) = some r ∨ some (3 : Fin 4) = some r → rd (inMode Mode.recall [(Reg.HMX_DDRCFG_DRAM, 0, 1)]) Reg.HMX_DDRCFG_RATE ≤ ↑r) ∧
    (∀ (r : Fin 4), some (1 : Fin 4) = some r ∨ some (1 : Fin 4) = some r → rd (inMode Mode.recall [(Reg.HMX_DDRCFG_DRAM, 0, 1)]) Reg.HMX_DDRCFG_RATE ≤ ↑r) ∧
    128 ≤ BitVec.toNat (128 : BitVec 10) ∧
    BitVec.toNat (128 : BitVec 10) ≤ 512 ∧
    128 ≤ BitVec.toNat (512 : BitVec 10) ∧
    BitVec.toNat (512 : BitVec 10) ≤ 512 ∧
    ddrAwake (dmaUnit Mode.active [(Reg.HMX_DDRCFG_DRAM, 0, 1), (Reg.HMX_DDRSTS_CH0, 0, 1), (Reg.HMX_DDRSTS_CH1, 0, 1)]) = true ∧
    resState (dmaUnit Mode.active [(Reg.HMX_DDRCFG_DRAM, 0, 1), (Reg.HMX_DDRSTS_CH0, 0, 1), (Reg.HMX_DDRSTS_CH1, 0, 1)]) { cls := FClass.solver, idx := 16 + (0 : Fin 2).val : Resource } = MState.inService ∧
    (1 : Fin 8) = (1 : Fin 8) ∧
    (2 : Fin 8) = (2 : Fin 8) ∧
    (4 : Fin 8) = (4 : Fin 8) := by
  and_intros <;> decide +kernel

theorem witness_ChordLink_1 :
    resState (pairUnit Mode.active []) (chRes (0 : Fin 2).val) ≠ MState.retired ∧
    (4 : Fin 8).val ≠ 0 ∧
    resState (pairUnit Mode.active []) (chRes (1 : Fin 2).val) ≠ MState.retired ∧
    (7 : Fin 8).val ≠ 0 ∧
    (1 : Fin 8).val ≠ 0 ∧
    resState (pairUnit Mode.active []) (chRes (0 : Fin 2).val) = MState.inService ∧
    WindowRuns (pairUnit Mode.active []) (chRes (0 : Fin 2).val) ∧
    rdB (pairUnit Mode.active []) Reg.RDU_CHSTS_LOCK (1 : Fin 2).val = false ∧
    rdB (pairUnit Mode.active []) Reg.RDU_CHSTS_LOCK (0 : Fin 2).val = true ∧
    (pairUnit Mode.active []).rdu.fseqIn = none ∧
    resState (withRdu (pairUnit Mode.active []) gapped) (chRes (0 : Fin 2).val) ≠ MState.retired ∧
    rdB (withRdu (pairUnit Mode.active []) gapped) Reg.RDU_CHSTS_LOCK (0 : Fin 2).val = true ∧
    (withRdu (pairUnit Mode.active []) gapped).rdu.fseqIn = some (7 : BitVec 32) ∧
    newer32 (aHead true Mode.standby (10 : BitVec 32) 5).fseq (7 : BitVec 32) = true ∧
    newer32 (aHead false Mode.standby (5 : BitVec 32) 5).fseq (7 : BitVec 32) = false ∧
    (aHead false Mode.standby (5 : BitVec 32) 5).fseq ∈ List.map (fun x => x.1) (withRdu (pairUnit Mode.active []) gapped).rdu.gaps ∧
    newer32 (aHead false Mode.standby (7 : BitVec 32) 5).fseq (7 : BitVec 32) = false ∧
    (aHead false Mode.standby (7 : BitVec 32) 5).fseq ∉ List.map (fun x => x.1) (withRdu (pairUnit Mode.active []) gapped).rdu.gaps ∧
    newer32 (aHead false Mode.standby (4294967280 : BitVec 32) 5).fseq (7 : BitVec 32) = false ∧
    (aHead false Mode.standby (4294967280 : BitVec 32) 5).fseq ∉ List.map (fun x => x.1) (withRdu (pairUnit Mode.active []) gapped).rdu.gaps ∧
    false ∈ List.map (fun x => x.2) (withRdu (pairUnit Mode.active []) gapped).rdu.gaps ∧
    resState (withRdu (pairUnit Mode.active []) asked) (chRes (0 : Fin 2).val) ≠ MState.retired ∧
    false ∉ List.map (fun x => x.2) (withRdu (pairUnit Mode.active []) asked).rdu.gaps := by
  and_intros <;> decide +kernel

theorem witness_ChordLink_2 :
    rdB (pairUnit Mode.active []) Reg.RDU_CFG_PAIRED = true ∧
    (aHello false 100 20 1).side = ownSide (pairUnit Mode.active []) := by
  and_intros <;> decide +kernel

theorem witness_PairFrames :
    (chordTake (withRdu (pairUnit Mode.active []) hisLists) (0 : Fin 2) (aHead false Mode.active (9 : BitVec 32) 5) false).2 = true ∧
    (withRdu (pairUnit Mode.active []) hisLists).rdu.verdict = none ∧
    (chordTake (withRdu (pairUnit Mode.standby []) hisLists) (0 : Fin 2) (aHead false Mode.active (9 : BitVec 32) 5) false).2 = true ∧
    (withRdu (pairUnit Mode.standby []) hisLists).rdu.verdict = none ∧
    emitMode (withRdu (pairUnit Mode.active []) hisLists) ≠ Mode.standby ∧
    emitMode (withRdu (pairUnit Mode.active []) hisLists) ≠ Mode.resync ∧
    (chordTake (atTick (withRdu (pairUnit Mode.standby []) hisLists) 4 0) (0 : Fin 2) (aHead false Mode.active (9 : BitVec 32) 5) false).2 = true ∧
    (aHead false Mode.active (9 : BitVec 32) 5).tick ≠ (atTick (withRdu (pairUnit Mode.standby []) hisLists) 4 0).tb.tick ∧
    (chordTake (atTick (withRdu (pairUnit Mode.standby []) hisLists) 5 5000000) (0 : Fin 2) (aHead false Mode.active (9 : BitVec 32) 5) false).2 = true ∧
    { own := true, partner := true, carried := false, count := 3, digest := (7 : BitVec 64) : Verdict }.own = true ∧
    listWhole (hisList (atTick (withRdu (pairUnit Mode.standby []) hisLists) 5 5000000) ((aHead false Mode.active (9 : BitVec 32) 5).tick - 1)) = false ∧
    emitMode (atTick (withRdu (pairUnit Mode.standby []) hisLists) 5 5000000) = Mode.standby ∧
    (aHead false Mode.active (9 : BitVec 32) 5).tick = (atTick (withRdu (pairUnit Mode.standby []) hisLists) 5 5000000).tb.tick ∧
    (aHead false Mode.active (9 : BitVec 32) 5).late = false ∧
    emitMode (withRdu (pairUnit Mode.standby []) hisLists) = Mode.standby ∧
    (withRdu (pairUnit Mode.standby []) hisLists).rdu.takeAt = none ∧
    (atTick (withRdu (pairUnit Mode.standby []) hisLists) 5 5000000).rdu.takeAt = none ∧
    (chordTake (withRdu (pairUnit Mode.active []) claimed9) (0 : Fin 2) (aHead false Mode.active (9 : BitVec 32) 5) false).2 = true := by
  and_intros <;> decide +kernel

theorem witness_PairCopy :
    (chordTake (pairUnit Mode.active []) (0 : Fin 2) (aHead false Mode.active (9 : BitVec 32) 5) false).2 = true ∧
    (chordTake (withRdu (pairUnit Mode.resync []) copying) (0 : Fin 2) (aHead false Mode.active (9 : BitVec 32) 5) false).2 = true ∧
    (withRdu (pairUnit Mode.resync []) copying).rdu.copy = some aCopy ∧
    (aHead false Mode.active (9 : BitVec 32) 5).save = false ∧
    (aHead false Mode.active (9 : BitVec 32) 5).mode = Mode.active ∧
    modeIs (withRdu (pairUnit Mode.resync []) copying) = Mode.resync ∧
    aCopy.kc = some (aHead false Mode.active (9 : BitVec 32) 5).tick ∧
    aCopy.kc.isSome = true ∧
    (atTick (withRdu (pairUnit Mode.resync []) copying) 9 60000001000).rdu.copy = some aCopy ∧
    aCopy.since + 60000000000 ≤ (atTick (withRdu (pairUnit Mode.resync []) copying) 9 60000001000).tb.now ∧
    (atTick (withRdu (pairUnit Mode.halt []) copying) 9 60000001000).rdu.copy = some aCopy ∧
    aCopy.since + 60000000000 ≤ (atTick (withRdu (pairUnit Mode.halt []) copying) 9 60000001000).tb.now ∧
    (atTick (withRdu (pairUnit Mode.resync []) copying) 9 60000000999).rdu.copy = some aCopy ∧
    (atTick (withRdu (pairUnit Mode.resync []) copying) 9 60000000999).tb.now < aCopy.since + 60000000000 := by
  and_intros <;> decide +kernel

theorem witness_PairDecisions_1 :
    emitMode (pairUnit Mode.active []) ≠ Mode.standby ∧
    emitMode (atTick (withRdu (pairUnit Mode.standby []) (decided [] [] 5 false)) 5 5000000) = Mode.standby ∧
    (atTick (withRdu (pairUnit Mode.standby []) (decided [] [] 5 false)) 5 5000000).rdu.built = (atTick (withRdu (pairUnit Mode.standby []) (decided [] [] 5 false)) 5 5000000).tb.tick ∧
    List.find? (fun x => decide (x.1 = (atTick (withRdu (pairUnit Mode.standby []) (decided [] [] 5 false)) 5 5000000).tb.tick - 1)) (atTick (withRdu (pairUnit Mode.standby []) (decided [] [] 5 false)) 5 5000000).rdu.ownDigest = none ∧
    emitMode (atTick (withRdu (pairUnit Mode.standby []) (decided [(4, (7 : BitVec 64))] [(4, (7 : BitVec 64))] 5 false)) 5 5000000) = Mode.standby ∧
    (atTick (withRdu (pairUnit Mode.standby []) (decided [(4, (7 : BitVec 64))] [(4, (7 : BitVec 64))] 5 false)) 5 5000000).rdu.built = (atTick (withRdu (pairUnit Mode.standby []) (decided [(4, (7 : BitVec 64))] [(4, (7 : BitVec 64))] 5 false)) 5 5000000).tb.tick ∧
    List.find? (fun x => decide (x.1 = (atTick (withRdu (pairUnit Mode.standby []) (decided [(4, (7 : BitVec 64))] [(4, (7 : BitVec 64))] 5 false)) 5 5000000).tb.tick - 1)) (atTick (withRdu (pairUnit Mode.standby []) (decided [(4, (7 : BitVec 64))] [(4, (7 : BitVec 64))] 5 false)) 5 5000000).rdu.ownDigest = some (4, (7 : BitVec 64)) ∧
    List.find? (fun x => decide (x.1 = (atTick (withRdu (pairUnit Mode.standby []) (decided [(4, (7 : BitVec 64))] [(4, (7 : BitVec 64))] 5 false)) 5 5000000).tb.tick - 1)) (atTick (withRdu (pairUnit Mode.standby []) (decided [(4, (7 : BitVec 64))] [(4, (7 : BitVec 64))] 5 false)) 5 5000000).rdu.hisDigest = some (4, (7 : BitVec 64)) ∧
    emitMode (atTick (withRdu (pairUnit Mode.standby []) (decided [(4, (7 : BitVec 64))] [(4, (8 : BitVec 64))] 5 false)) 5 5000000) = Mode.standby ∧
    (atTick (withRdu (pairUnit Mode.standby []) (decided [(4, (7 : BitVec 64))] [(4, (8 : BitVec 64))] 5 false)) 5 5000000).rdu.built = (atTick (withRdu (pairUnit Mode.standby []) (decided [(4, (7 : BitVec 64))] [(4, (8 : BitVec 64))] 5 false)) 5 5000000).tb.tick ∧
    List.find? (fun x => decide (x.1 = (atTick (withRdu (pairUnit Mode.standby []) (decided [(4, (7 : BitVec 64))] [(4, (8 : BitVec 64))] 5 false)) 5 5000000).tb.tick - 1)) (atTick (withRdu (pairUnit Mode.standby []) (decided [(4, (7 : BitVec 64))] [(4, (8 : BitVec 64))] 5 false)) 5 5000000).rdu.ownDigest = some (4, (7 : BitVec 64)) ∧
    List.find? (fun x => decide (x.1 = (atTick (withRdu (pairUnit Mode.standby []) (decided [(4, (7 : BitVec 64))] [(4, (8 : BitVec 64))] 5 false)) 5 5000000).tb.tick - 1)) (atTick (withRdu (pairUnit Mode.standby []) (decided [(4, (7 : BitVec 64))] [(4, (8 : BitVec 64))] 5 false)) 5 5000000).rdu.hisDigest = some (4, (8 : BitVec 64)) ∧
    (4, (7 : BitVec 64)).2 ≠ (4, (8 : BitVec 64)).2 ∧
    (atTick (withRdu (pairUnit Mode.standby []) (decided [(4, (7 : BitVec 64))] [(4, (8 : BitVec 64))] 5 false)) 5 5000000).tb.tick - 1 ∉ (atTick (withRdu (pairUnit Mode.standby []) (decided [(4, (7 : BitVec 64))] [(4, (8 : BitVec 64))] 5 false)) 5 5000000).rdu.nonCommit ∧
    partnerDeclared (atTick (withRdu (pairUnit Mode.standby []) (decided [(4, (7 : BitVec 64))] [(4, (8 : BitVec 64))] 5 false)) 5 5000000) = false ∧
    (atTick (withRdu (pairUnit Mode.standby []) (decided [(4, (7 : BitVec 64))] [(4, (8 : BitVec 64))] 5 false)) 5 5000000).ssu.causes = [] ∧
    emitMode (atTick (withRdu (pairUnit Mode.standby []) (decided [] [] 4 false)) 5 5000000) = Mode.standby ∧
    (atTick (withRdu (pairUnit Mode.standby []) (decided [] [] 4 false)) 5 5000000).rdu.built ≠ (atTick (withRdu (pairUnit Mode.standby []) (decided [] [] 4 false)) 5 5000000).tb.tick ∧
    (atTick (withRdu (pairUnit Mode.standby []) (decided [] [] 4 false)) 5 5000000).rdu.takeAt = none ∧
    (atTick (withRdu (pairUnit Mode.standby []) (decided [] [] 4 false)) 5 5000000).rdu.silent = false ∧
    (atTick (withRdu (pairUnit Mode.standby []) (decided [] [] 4 false)) 5 5000000).ssu.causes = [] := by
  and_intros <;> decide +kernel

theorem witness_PairDecisions_2 :
    emitMode (atTick (withRdu (pairUnit Mode.standby []) (decided [] [] 4 true)) 5 5000000) = Mode.standby ∧
    (atTick (withRdu (pairUnit Mode.standby []) (decided [] [] 4 true)) 5 5000000).rdu.built ≠ (atTick (withRdu (pairUnit Mode.standby []) (decided [] [] 4 true)) 5 5000000).tb.tick ∧
    (atTick (withRdu (pairUnit Mode.standby []) (decided [] [] 4 true)) 5 5000000).rdu.takeAt = none ∧
    (atTick (withRdu (pairUnit Mode.standby []) (decided [] [] 4 true)) 5 5000000).rdu.silent = true ∧
    rdB (pairUnit Mode.active []) Reg.RDU_CHSTS_LOCK = true ∧
    rdB (inMode Mode.active [(Reg.RDU_CHSTS_LOCK, 1, 1)]) Reg.RDU_CHSTS_LOCK 1 = true ∧
    rdB (atTick (inMode Mode.active []) 5 60000000000) Reg.RDU_CHSTS_LOCK = false ∧
    rdB (atTick (inMode Mode.active []) 5 60000000000) Reg.RDU_CHSTS_LOCK 1 = false ∧
    (atTick (inMode Mode.active []) 5 60000000000).rdu.unlockedFrom + max 1 (rd (atTick (inMode Mode.active []) 5 60000000000) Reg.RDU_CFG_ABSENT) * 10 ^ 9 ≤ (atTick (inMode Mode.active []) 5 60000000000).tb.now ∧
    (inMode Mode.active []).tb.now < (inMode Mode.active []).rdu.unlockedFrom + max 1 (rd (inMode Mode.active []) Reg.RDU_CFG_ABSENT) * 10 ^ 9 ∧
    rdB (pairUnit Mode.active [(Reg.RDU_STATUS_PAIRST, 0, 1)]) Reg.RDU_CMDSTS_PEND = false ∧
    modeIs (pairUnit Mode.active [(Reg.RDU_STATUS_PAIRST, 0, 1)]) = Mode.active ∧
    rd (pairUnit Mode.active [(Reg.RDU_STATUS_PAIRST, 0, 1)]) Reg.RDU_STATUS_PAIRST ≠ 2 ∧
    rdB (pairUnit Mode.active []) Reg.RDU_CMDSTS_PEND = false ∧
    modeIs (pairUnit Mode.active []) = Mode.active ∧
    rd (pairUnit Mode.active []) Reg.RDU_STATUS_PAIRST = 2 ∧
    rdB (pairUnit Mode.standby [(Reg.RDU_STATUS_PAIRST, 0, 1)]) Reg.RDU_CMDSTS_PEND = false ∧
    modeIs (pairUnit Mode.standby [(Reg.RDU_STATUS_PAIRST, 0, 1)]) = Mode.standby ∧
    rd (pairUnit Mode.standby [(Reg.RDU_STATUS_PAIRST, 0, 1)]) Reg.RDU_STATUS_PAIRST ≠ 2 ∧
    rdB (pairUnit Mode.standby []) Reg.RDU_CMDSTS_PEND = false ∧
    modeIs (pairUnit Mode.standby []) = Mode.standby ∧
    rd (pairUnit Mode.standby []) Reg.RDU_STATUS_PAIRST = 2 := by
  and_intros <;> decide +kernel

theorem witness_PairDecisions_3 :
    rdB (pairUnit Mode.halt [(Reg.RDU_CHSTS_CRCERR, 1, 3)]) Reg.RDU_CMDSTS_PEND = false ∧
    modeIs (pairUnit Mode.halt [(Reg.RDU_CHSTS_CRCERR, 1, 3)]) ≠ Mode.active ∧
    modeIs (pairUnit Mode.halt [(Reg.RDU_CHSTS_CRCERR, 1, 3)]) ≠ Mode.standby ∧
    modeIs (pairUnit Mode.halt [(Reg.RDU_CHSTS_CRCERR, 1, 3)]) ≠ Mode.test ∧
    rdB (pairUnit Mode.safehold [(Reg.RDU_CHSTS_CRCERR, 1, 3)]) Reg.RDU_CMDSTS_PEND = false ∧
    modeIs (pairUnit Mode.safehold [(Reg.RDU_CHSTS_CRCERR, 1, 3)]) ≠ Mode.active ∧
    modeIs (pairUnit Mode.safehold [(Reg.RDU_CHSTS_CRCERR, 1, 3)]) ≠ Mode.standby ∧
    modeIs (pairUnit Mode.safehold [(Reg.RDU_CHSTS_CRCERR, 1, 3)]) ≠ Mode.test := by
  and_intros <;> decide +kernel

theorem witness_CascadeEvents_1 :
    rdB (cascUnit Mode.active (2 : Fin 8) [(Reg.CSC_STATUS_PARENT, 0, 1), (Reg.CSC_STATUS_HOPS, 0, 2)]) Reg.CSC_CFG_EN = true ∧
    resState (cascUnit Mode.active (2 : Fin 8) [(Reg.CSC_STATUS_PARENT, 0, 1), (Reg.CSC_STATUS_HOPS, 0, 2)]) { cls := FClass.cascade, idx := (3 : Fin 4).val : Resource } ≠ MState.retired ∧
    (1 : Fin 8) ≠ (0 : Fin 8) ∧
    (7 : Fin 8) ≠ (0 : Fin 8) ∧
    resState (cascUnit Mode.active (2 : Fin 8) [(Reg.CSC_STATUS_PARENT, 0, 1), (Reg.CSC_STATUS_HOPS, 0, 2)]) { cls := FClass.cascade, idx := (3 : Fin 4).val : Resource } = MState.inService ∧
    WindowRuns (cascUnit Mode.active (2 : Fin 8) [(Reg.CSC_STATUS_PARENT, 0, 1), (Reg.CSC_STATUS_HOPS, 0, 2)]) { cls := FClass.cascade, idx := (3 : Fin 4).val : Resource } ∧
    rdB (cascUnit Mode.active (2 : Fin 8) [(Reg.CSC_STATUS_PARENT, 0, 1), (Reg.CSC_STATUS_HOPS, 0, 2)]) Reg.CSC_CLSTS_LOCK (1 : Fin 4).val = true ∧
    List.map (fun x => x.2.1) (List.filter (fun g => decide (g.1 = (1 : Fin 4).val) && !g.2.2) (cascUnit Mode.active (2 : Fin 8) [(Reg.CSC_STATUS_PARENT, 0, 1), (Reg.CSC_STATUS_HOPS, 0, 2)]).csc.gaps) = [] ∧
    [(5 : BitVec 32)] = List.map (fun x => x.2.1) (List.filter (fun g => decide (g.1 = (1 : Fin 4).val) && !g.2.2) gappedLink.csc.gaps) ∧
    [(5 : BitVec 32)] ≠ [] ∧
    resState (cascUnit Mode.active (2 : Fin 8) [(Reg.CSC_STATUS_PARENT, 0, 1), (Reg.CSC_STATUS_HOPS, 0, 2)]) { cls := FClass.cascade, idx := (1 : Fin 4).val : Resource } ≠ MState.retired ∧
    tget (cascUnit Mode.active (2 : Fin 8) [(Reg.CSC_STATUS_PARENT, 0, 1), (Reg.CSC_STATUS_HOPS, 0, 2)]).csc.seqIn (1 : Fin 4).val = none ∧
    rdB gappedLink Reg.CSC_CFG_EN = true ∧
    rdB gappedLink Reg.CSC_CLSTS_LOCK (1 : Fin 4).val = true ∧
    resState gappedLink { cls := FClass.cascade, idx := (1 : Fin 4).val : Resource } ≠ MState.retired ∧
    tget gappedLink.csc.seqIn (1 : Fin 4).val = some (7 : BitVec 32) ∧
    newer32 (aHead false Mode.active (10 : BitVec 32) 5).fseq (7 : BitVec 32) = true ∧
    newer32 (aHead false Mode.active (4 : BitVec 32) 5).fseq (7 : BitVec 32) = false ∧
    (∀ g ∈ gappedLink.csc.gaps, g.1 = (1 : Fin 4).val → g.2.1 ≠ (aHead false Mode.active (4 : BitVec 32) 5).fseq) ∧
    newer32 (aHead false Mode.active (7 : BitVec 32) 5).fseq (7 : BitVec 32) = false ∧
    (∀ g ∈ gappedLink.csc.gaps, g.1 = (1 : Fin 4).val → g.2.1 ≠ (aHead false Mode.active (7 : BitVec 32) 5).fseq) ∧
    (clTake (cascUnit Mode.active (2 : Fin 8) [(Reg.CSC_STATUS_PARENT, 0, 1), (Reg.CSC_STATUS_HOPS, 0, 2)]) (1 : Fin 4) (aHead false Mode.active (9 : BitVec 32) 5) true).2 = true := by
  and_intros <;> decide +kernel

theorem witness_CascadeEvents_2 :
    (clTake (cascUnit Mode.active (2 : Fin 8) [(Reg.CSC_STATUS_PARENT, 0, 1), (Reg.CSC_STATUS_HOPS, 0, 2)]) (1 : Fin 4) (aHead false Mode.active (9 : BitVec 32) 5) false).2 = true ∧
    isRoot (cascUnit Mode.active (2 : Fin 8) [(Reg.CSC_STATUS_PARENT, 0, 1), (Reg.CSC_STATUS_HOPS, 0, 2)]) = false ∧
    350 = 100 + (tget (cascUnit Mode.active (2 : Fin 8) [(Reg.CSC_STATUS_PARENT, 0, 1), (Reg.CSC_STATUS_HOPS, 0, 2)]).csc.lat (1 : Fin 4).val).getD 0 ∧
    (clTake (cascUnit Mode.active (2 : Fin 8) [(Reg.CSC_STATUS_PARENT, 0, 2), (Reg.CSC_STATUS_HOPS, 0, 2)]) (1 : Fin 4) (aHead false Mode.active (9 : BitVec 32) 5) false).2 = true ∧
    isRoot (cascUnit Mode.active (2 : Fin 8) [(Reg.CSC_STATUS_PARENT, 0, 2), (Reg.CSC_STATUS_HOPS, 0, 2)]) = false ∧
    350 = 100 + (tget (cascUnit Mode.active (2 : Fin 8) [(Reg.CSC_STATUS_PARENT, 0, 2), (Reg.CSC_STATUS_HOPS, 0, 2)]).csc.lat (1 : Fin 4).val).getD 0 ∧
    (clTake markedLink (1 : Fin 4) (aHead false Mode.active (9 : BitVec 32) 5) false).2 = true ∧
    isRoot markedLink = false ∧
    350 = 100 + (tget markedLink.csc.lat (1 : Fin 4).val).getD 0 ∧
    parentLink (cascUnit Mode.active (2 : Fin 8) [(Reg.CSC_STATUS_PARENT, 0, 1), (Reg.CSC_STATUS_HOPS, 0, 2)]) = some (1 : Fin 4) ∧
    parentLink (cascUnit Mode.active (2 : Fin 8) [(Reg.CSC_STATUS_PARENT, 0, 2), (Reg.CSC_STATUS_HOPS, 0, 2)]) ≠ some (1 : Fin 4) ∧
    (2 : Fin 4) ≠ (1 : Fin 4) ∧
    parentLink (cascUnit Mode.active (2 : Fin 8) [(Reg.CSC_STATUS_PARENT, 0, 2), (Reg.CSC_STATUS_HOPS, 0, 2)]) = some (2 : Fin 4) ∧
    clOk (cascUnit Mode.active (2 : Fin 8) [(Reg.CSC_STATUS_PARENT, 0, 2), (Reg.CSC_STATUS_HOPS, 0, 2)]) (2 : Fin 4).val = true ∧
    (clTake (cascUnit Mode.active (0 : Fin 8) [(Reg.CSC_STATUS_PARENT, 0, 7)]) (1 : Fin 4) (aHead false Mode.active (9 : BitVec 32) 5) false).2 = true ∧
    isRoot (cascUnit Mode.active (0 : Fin 8) [(Reg.CSC_STATUS_PARENT, 0, 7)]) = true ∧
    parentLink (cascUnit Mode.active (0 : Fin 8) [(Reg.CSC_STATUS_PARENT, 0, 7)]) ≠ some (1 : Fin 4) ∧
    aUnit.mode ≠ Mode.save ∧
    treeLink (cascUnit Mode.active (2 : Fin 8) [(Reg.CSC_STATUS_PARENT, 0, 1), (Reg.CSC_STATUS_HOPS, 0, 2)]) (1 : Fin 4).val = true ∧
    isRoot (cascUnit Mode.active (0 : Fin 8) []) = true ∧
    isRoot (atTick (cascUnit Mode.active (0 : Fin 8) []) 10 0) = true ∧
    List.find? (fun v => decide (v.member = (3 : Fin 8)) && decide (v.side = true)) (atTick (cascUnit Mode.active (0 : Fin 8) []) 10 0).csc.units = some { member := (3 : Fin 8), side := true, mode := Mode.active, claim := (5 : BitVec 32), last := 7 : CUnit } ∧
    { member := (3 : Fin 8), side := true, mode := Mode.active, claim := (5 : BitVec 32), last := 7 : CUnit }.last + 3 ≤ (atTick (cascUnit Mode.active (0 : Fin 8) []) 10 0).tb.tick := by
  and_intros <;> decide +kernel

theorem witness_CascadeEvents_3 :
    isRoot (atTick (cascUnit Mode.active (0 : Fin 8) []) 9 0) = true ∧
    List.find? (fun v => decide (v.member = (3 : Fin 8)) && decide (v.side = true)) (atTick (cascUnit Mode.active (0 : Fin 8) []) 9 0).csc.units = some { member := (3 : Fin 8), side := true, mode := Mode.active, claim := (5 : BitVec 32), last := 7 : CUnit } ∧
    (atTick (cascUnit Mode.active (0 : Fin 8) []) 9 0).tb.tick < { member := (3 : Fin 8), side := true, mode := Mode.active, claim := (5 : BitVec 32), last := 7 : CUnit }.last + 3 := by
  and_intros <;> decide +kernel

theorem witness_WriteEngine_1 :
    nextReq (nvsUnit Mode.active (let __src := State.reset.nvs; { recs := __src.recs, images := __src.images, queue := [req7, req3], cur := __src.cur, susp := __src.susp, writes := __src.writes, remaps := __src.remaps, refreshed := __src.refreshed, uncorrOnce := __src.uncorrOnce : NvsSt }) []).nvs.susp (nvsUnit Mode.active (let __src := State.reset.nvs; { recs := __src.recs, images := __src.images, queue := [req7, req3], cur := __src.cur, susp := __src.susp, writes := __src.writes, remaps := __src.remaps, refreshed := __src.refreshed, uncorrOnce := __src.uncorrOnce : NvsSt }) []).nvs.queue = some (req3, false) ∧
    nextReq (inMode Mode.active []).nvs.susp (inMode Mode.active []).nvs.queue = none ∧
    nextReq (nvsUnit Mode.active (let __src := State.reset.nvs; { recs := __src.recs, images := __src.images, queue := [req7, req3], cur := some req3, susp := __src.susp, writes := __src.writes, remaps := __src.remaps, refreshed := __src.refreshed, uncorrOnce := __src.uncorrOnce : NvsSt }) []).nvs.susp (nvsUnit Mode.active (let __src := State.reset.nvs; { recs := __src.recs, images := __src.images, queue := [req7, req3], cur := some req3, susp := __src.susp, writes := __src.writes, remaps := __src.remaps, refreshed := __src.refreshed, uncorrOnce := __src.uncorrOnce : NvsSt }) []).nvs.queue = some (req3, false) ∧
    req3.what = WriteWhat.record 16 (RecData.retire [] []) ∧
    (nvsUnit Mode.active (let __src := State.reset.nvs; { recs := __src.recs, images := __src.images, queue := [req7, req3], cur := some req3, susp := __src.susp, writes := __src.writes, remaps := __src.remaps, refreshed := __src.refreshed, uncorrOnce := __src.uncorrOnce : NvsSt }) []).nvs.cur = some req3 ∧
    req3.cls ≤ req3.cls ∧
    (nvsUnit Mode.active (let __src := State.reset.nvs; { recs := __src.recs, images := __src.images, queue := [req7, req3], cur := __src.cur, susp := __src.susp, writes := __src.writes, remaps := __src.remaps, refreshed := __src.refreshed, uncorrOnce := __src.uncorrOnce : NvsSt }) []).nvs.cur = none ∧
    (nvsUnit Mode.active (let __src := State.reset.nvs; { recs := __src.recs, images := __src.images, queue := [req7, req3], cur := __src.cur, susp := __src.susp, writes := __src.writes, remaps := __src.remaps, refreshed := __src.refreshed, uncorrOnce := __src.uncorrOnce : NvsSt }) []).nvs.susp = [] ∧
    nextReq (nvsUnit Mode.active (let __src := State.reset.nvs; { recs := __src.recs, images := __src.images, queue := [req4], cur := __src.cur, susp := __src.susp, writes := __src.writes, remaps := __src.remaps, refreshed := __src.refreshed, uncorrOnce := __src.uncorrOnce : NvsSt }) []).nvs.susp (nvsUnit Mode.active (let __src := State.reset.nvs; { recs := __src.recs, images := __src.images, queue := [req4], cur := __src.cur, susp := __src.susp, writes := __src.writes, remaps := __src.remaps, refreshed := __src.refreshed, uncorrOnce := __src.uncorrOnce : NvsSt }) []).nvs.queue = some (req4, false) ∧
    req4.what = WriteWhat.record 80 (RecData.retained 0 0 [] []) ∧
    (nvsUnit Mode.active (let __src := State.reset.nvs; { recs := __src.recs, images := __src.images, queue := [req4], cur := __src.cur, susp := __src.susp, writes := __src.writes, remaps := __src.remaps, refreshed := __src.refreshed, uncorrOnce := __src.uncorrOnce : NvsSt }) []).nvs.cur = none ∧
    (nvsUnit Mode.active (let __src := State.reset.nvs; { recs := __src.recs, images := __src.images, queue := [req4], cur := __src.cur, susp := __src.susp, writes := __src.writes, remaps := __src.remaps, refreshed := __src.refreshed, uncorrOnce := __src.uncorrOnce : NvsSt }) []).nvs.susp = [] ∧
    nextReq (nvsUnit Mode.active (let __src := State.reset.nvs; { recs := __src.recs, images := __src.images, queue := [req7, req3], cur := some req7, susp := __src.susp, writes := __src.writes, remaps := __src.remaps, refreshed := __src.refreshed, uncorrOnce := __src.uncorrOnce : NvsSt }) []).nvs.susp (nvsUnit Mode.active (let __src := State.reset.nvs; { recs := __src.recs, images := __src.images, queue := [req7, req3], cur := some req7, susp := __src.susp, writes := __src.writes, remaps := __src.remaps, refreshed := __src.refreshed, uncorrOnce := __src.uncorrOnce : NvsSt }) []).nvs.queue = some (req3, false) ∧
    (nvsUnit Mode.active (let __src := State.reset.nvs; { recs := __src.recs, images := __src.images, queue := [req7, req3], cur := some req7, susp := __src.susp, writes := __src.writes, remaps := __src.remaps, refreshed := __src.refreshed, uncorrOnce := __src.uncorrOnce : NvsSt }) []).nvs.cur = some req7 ∧
    req3.cls < req7.cls ∧
    sameRecord req7.what req3.what = false ∧
    (nvsUnit Mode.active (let __src := State.reset.nvs; { recs := __src.recs, images := __src.images, queue := [req7, req3], cur := some req7, susp := __src.susp, writes := __src.writes, remaps := __src.remaps, refreshed := __src.refreshed, uncorrOnce := __src.uncorrOnce : NvsSt }) []).nvs.susp = [] ∧
    (inMode Mode.active []).nvs.cur = none ∧
    (nvsUnit Mode.active (let __src := State.reset.nvs; { recs := [(2, { a := some { seq := (1 : BitVec 32), data := RecData.claim (4 : BitVec 32), valid := true, uncorr := false : RecCopy }, b := some { seq := (2 : BitVec 32), data := RecData.claim (5 : BitVec 32), valid := true, uncorr := false : RecCopy }, conflict := false : PRec })], images := __src.images, queue := __src.queue, cur := some { cls := 1, what := WriteWhat.record 2 (RecData.claim (7 : BitVec 32)), who := Requester.claim : WriteReq }, susp := __src.susp, writes := __src.writes, remaps := __src.remaps, refreshed := __src.refreshed, uncorrOnce := __src.uncorrOnce : NvsSt }) []).nvs.cur = some { cls := 1, what := WriteWhat.record 2 (RecData.claim (7 : BitVec 32)), who := Requester.claim : WriteReq } ∧
    (nvsUnit Mode.active (let __src := State.reset.nvs; { recs := [(2, { a := some { seq := (4294967295 : BitVec 32), data := RecData.claim (4 : BitVec 32), valid := true, uncorr := false : RecCopy }, b := some { seq := (0 : BitVec 32), data := RecData.claim (5 : BitVec 32), valid := true, uncorr := false : RecCopy }, conflict := false : PRec })], images := __src.images, queue := __src.queue, cur := some { cls := 1, what := WriteWhat.record 2 (RecData.claim (7 : BitVec 32)), who := Requester.claim : WriteReq }, susp := __src.susp, writes := __src.writes, remaps := __src.remaps, refreshed := __src.refreshed, uncorrOnce := __src.uncorrOnce : NvsSt }) []).nvs.cur = some { cls := 1, what := WriteWhat.record 2 (RecData.claim (7 : BitVec 32)), who := Requester.claim : WriteReq } ∧
    (nvsUnit Mode.active (let __src := State.reset.nvs; { recs := [(2, { a := some { seq := (3 : BitVec 32), data := RecData.claim (4 : BitVec 32), valid := true, uncorr := false : RecCopy }, b := some { seq := (3 : BitVec 32), data := RecData.claim (5 : BitVec 32), valid := true, uncorr := false : RecCopy }, conflict := true : PRec })], images := __src.images, queue := __src.queue, cur := some { cls := 1, what := WriteWhat.record 2 (RecData.claim (7 : BitVec 32)), who := Requester.claim : WriteReq }, susp := __src.susp, writes := __src.writes, remaps := __src.remaps, refreshed := __src.refreshed, uncorrOnce := __src.uncorrOnce : NvsSt }) []).nvs.cur = some { cls := 1, what := WriteWhat.record 2 (RecData.claim (7 : BitVec 32)), who := Requester.claim : WriteReq } ∧
    (placingUnit rec2).nvs.cur = some { cls := 6, what := WriteWhat.event rec2, who := Requester.none : WriteReq } ∧
    (placingUnit rec2).evr.placing = some 32767 ∧
    recSlots rec2 ≤ logSlots := by
  and_intros <;> decide +kernel

theorem witness_WriteEngine_2 :
    (placingUnit anchorRec).nvs.cur = some { cls := 6, what := WriteWhat.event anchorRec, who := Requester.none : WriteReq } ∧
    (placingUnit anchorRec).evr.placing = some 32767 ∧
    recSlots anchorRec ≤ logSlots := by
  and_intros <;> decide +kernel

theorem witness_StoreCommands :
    modeIs (inMode Mode.active []) ≠ Mode.recall ∧
    modeIs (inMode Mode.active []) ≠ Mode.test ∧
    (inMode Mode.active []).nvs.queue = [] ∧
    modeIs (inMode Mode.recall []) = Mode.recall ∧
    modeIs (inMode Mode.test []) = Mode.test ∧
    modeIs (inMode Mode.save []) = Mode.save ∧
    modeIs (inMode Mode.active [(Reg.NVS_SCRUB_PAGE, 0, 16383)]) ≠ Mode.recall ∧
    modeIs (inMode Mode.active [(Reg.NVS_SCRUB_PAGE, 0, 16383)]) ≠ Mode.test ∧
    modeIs (inMode Mode.active [(Reg.NVS_SCRUB_PAGE, 0, 16383)]) ≠ Mode.save ∧
    16383 = rd (inMode Mode.active [(Reg.NVS_SCRUB_PAGE, 0, 16383)]) Reg.NVS_SCRUB_PAGE ∧
    16383 < 16384 ∧
    16383 ∉ (inMode Mode.active [(Reg.NVS_SCRUB_PAGE, 0, 16383)]).nvs.refreshed ∧
    (inMode Mode.active [(Reg.NVS_SCRUB_PAGE, 0, 16383)]).nvs.queue = [] ∧
    16383 ∉ (inMode Mode.active [(Reg.NVS_SCRUB_PAGE, 0, 16383)]).nvs.uncorrOnce ∧
    recalling State.reset = true ∧
    recalling (inMode Mode.active [(Reg.EVR_CURSOR_CURSOR, 0, 32767)]) = false ∧
    51380224 ≤ BitVec.toNat (51380224 : BitVec 26) ∧
    BitVec.toNat (51380224 : BitVec 26) < 51384320 ∧
    51380224 ≤ BitVec.toNat (51384316 : BitVec 26) ∧
    BitVec.toNat (51384316 : BitVec 26) < 51384320 := by
  and_intros <;> decide +kernel

theorem witness_RecorderCommands_1 :
    rdB (inMode Mode.active []) Reg.EVR_CMDSTS_PEND = false ∧
    modeIs (inMode Mode.active []) ≠ Mode.test ∧
    modeIs (inMode Mode.active []) ≠ Mode.recall ∧
    modeIs (inMode Mode.active []) ≠ Mode.save ∧
    rdB (inMode Mode.recall []) Reg.EVR_CMDSTS_PEND = false ∧
    modeIs (inMode Mode.recall []) ≠ Mode.test ∧
    modeIs (inMode Mode.recall []) = Mode.recall ∧
    rdB (inMode Mode.save []) Reg.EVR_CMDSTS_PEND = false ∧
    modeIs (inMode Mode.save []) ≠ Mode.test ∧
    modeIs (inMode Mode.save []) = Mode.save ∧
    rdB (frozenUnit [rec2]) Reg.EVR_CMDSTS_PEND = false ∧
    modeIs (frozenUnit [rec2]) ≠ Mode.test ∧
    rdB (frozenUnit [rec2]) Reg.EVR_STATUS_FROZEN = true ∧
    recalling (frozenUnit [rec2]) = false ∧
    rdB (inMode Mode.active []) Reg.EVR_STATUS_FROZEN = false ∧
    rdB (inMode Mode.halt []) Reg.EVR_CMDSTS_PEND = false ∧
    modeIs (inMode Mode.halt []) ≠ Mode.test ∧
    modeIs (inMode Mode.halt []) = Mode.halt ∧
    rdB (inMode Mode.halt []) Reg.EVR_STATUS_FROZEN = false ∧
    freezeOver (withF (frozenUnit [rec2]) [(Reg.EVR_OPSEC_OPSEC, 0, 4000000000)]) = true ∧
    (∃ k, (withF (frozenUnit []) [(Reg.EVR_CFG_FRZMAX, 0, 600)]).evr.frozenAt = some k ∧ rd (withF (frozenUnit []) [(Reg.EVR_CFG_FRZMAX, 0, 600)]) Reg.EVR_OPSEC_OPSEC < k + max 1 (rd (withF (frozenUnit []) [(Reg.EVR_CFG_FRZMAX, 0, 600)]) Reg.EVR_CFG_FRZMAX)) ∧
    (inMode Mode.active []).evr.anchorDue = none := by
  and_intros <;> decide +kernel

theorem witness_RecorderCommands_2 :
    (anchored 255).evr.anchorDue = some [1, 2, 3, 4] ∧
    recalling (anchored 255) = false ∧
    rdB (anchored 255) Reg.EVR_STATUS_FROZEN = false ∧
    (anchored 255).evr.sub < 256 ∧
    (anchored 255).nvs.queue = [] ∧
    recalling State.reset = true ∧
    recalling (inMode Mode.active [(Reg.EVR_OPSEC_OPSEC, 0, 4294967295)]) = false := by
  and_intros <;> decide +kernel

theorem witness_Calendar_1 :
    rdB (inMode Mode.active [(Reg.TBC_RTCWDATE_WDATE, 0, 1910736)]) Reg.TBC_RTCCMDSTS_PEND = false ∧
    modeIs (inMode Mode.active [(Reg.TBC_RTCWDATE_WDATE, 0, 1910736)]) ≠ Mode.test ∧
    stagedSecs (inMode Mode.active [(Reg.TBC_RTCWDATE_WDATE, 0, 1910736)]) = some (secsOf 0 2 29 0 0 0) ∧
    rdB (inMode Mode.active [(Reg.TBC_RTCWDATE_WDATE, 0, 2083167)]) Reg.TBC_RTCCMDSTS_PEND = false ∧
    modeIs (inMode Mode.active [(Reg.TBC_RTCWDATE_WDATE, 0, 2083167)]) ≠ Mode.test ∧
    stagedSecs (inMode Mode.active [(Reg.TBC_RTCWDATE_WDATE, 0, 2083167)]) = some (secsOf 399 12 31 0 0 0) ∧
    rdB (inMode Mode.active [(Reg.TBC_RTCWDATE_WDATE, 0, 1910836)]) Reg.TBC_RTCCMDSTS_PEND = false ∧
    modeIs (inMode Mode.active [(Reg.TBC_RTCWDATE_WDATE, 0, 1910836)]) ≠ Mode.test ∧
    stagedSecs (inMode Mode.active [(Reg.TBC_RTCWDATE_WDATE, 0, 1910836)]) = none ∧
    rdB (inMode Mode.active [(Reg.TBC_RTCWDATE_WDATE, 0, 71631)]) Reg.TBC_RTCCMDSTS_PEND = false ∧
    modeIs (inMode Mode.active [(Reg.TBC_RTCWDATE_WDATE, 0, 71631)]) ≠ Mode.test ∧
    stagedSecs (inMode Mode.active [(Reg.TBC_RTCWDATE_WDATE, 0, 71631)]) = none ∧
    rdB (inMode Mode.active [(Reg.TBC_RTCWDATE_WDATE, 0, 72032)]) Reg.TBC_RTCCMDSTS_PEND = false ∧
    modeIs (inMode Mode.active [(Reg.TBC_RTCWDATE_WDATE, 0, 72032)]) ≠ Mode.test ∧
    stagedSecs (inMode Mode.active [(Reg.TBC_RTCWDATE_WDATE, 0, 72032)]) = none ∧
    rdB (inMode Mode.active [(Reg.TBC_RTCWDATE_WDATE, 0, 67536)]) Reg.TBC_RTCCMDSTS_PEND = false ∧
    modeIs (inMode Mode.active [(Reg.TBC_RTCWDATE_WDATE, 0, 67536)]) ≠ Mode.test ∧
    stagedSecs (inMode Mode.active [(Reg.TBC_RTCWDATE_WDATE, 0, 67536)]) = none ∧
    rdB (inMode Mode.active [(Reg.TBC_RTCWDATE_WDATE, 0, 120784)]) Reg.TBC_RTCCMDSTS_PEND = false ∧
    modeIs (inMode Mode.active [(Reg.TBC_RTCWDATE_WDATE, 0, 120784)]) ≠ Mode.test ∧
    stagedSecs (inMode Mode.active [(Reg.TBC_RTCWDATE_WDATE, 0, 120784)]) = none ∧
    rdB (inMode Mode.active [(Reg.TBC_RTCWDATE_WDATE, 0, 2050001)]) Reg.TBC_RTCCMDSTS_PEND = false ∧
    modeIs (inMode Mode.active [(Reg.TBC_RTCWDATE_WDATE, 0, 2050001)]) ≠ Mode.test ∧
    stagedSecs (inMode Mode.active [(Reg.TBC_RTCWDATE_WDATE, 0, 2050001)]) = none := by
  and_intros <;> decide +kernel

theorem witness_Calendar_2 :
    (calUnit 9 none []).rtc.set = none ∧
    (calUnit 9 (some (77, 2)) []).rtc.set = some (77, 2) ∧
    rd (calUnit 9 none []) Reg.TBC_DSTS_SRC ≠ 1 ∧
    rd (calUnit 9 none []) Reg.TBC_DSTS_SRC ≠ 2 ∧
    rd (calUnit 5 none [(Reg.TBC_DSTS_SRC, 0, 2), (Reg.TBC_RTCCFG_STEPMAX, 0, 1000), (Reg.TBC_RTCSTS_OSF, 0, 1)]) Reg.TBC_DSTS_SRC = 2 ∧
    (calUnit 5 none [(Reg.TBC_DSTS_SRC, 0, 2), (Reg.TBC_RTCCFG_STEPMAX, 0, 1000), (Reg.TBC_RTCSTS_OSF, 0, 1)]).rtc.set = none ∧
    rdB (calUnit 5 none [(Reg.TBC_DSTS_SRC, 0, 2), (Reg.TBC_RTCCFG_STEPMAX, 0, 1000), (Reg.TBC_RTCSTS_OSF, 0, 1)]) Reg.TBC_RTCSTS_OSF = true ∧
    rd (calUnit 7 none [(Reg.TBC_DSTS_SRC, 0, 2), (Reg.TBC_RTCCFG_STEPMAX, 0, 1000), (Reg.TBC_RTCSTS_OSF, 0, 0)]) Reg.TBC_DSTS_SRC = 2 ∧
    (calUnit 7 none [(Reg.TBC_DSTS_SRC, 0, 2), (Reg.TBC_RTCCFG_STEPMAX, 0, 1000), (Reg.TBC_RTCSTS_OSF, 0, 0)]).rtc.set = none ∧
    rd (calUnit 7 none [(Reg.TBC_DSTS_SRC, 0, 2), (Reg.TBC_RTCCFG_STEPMAX, 0, 1000), (Reg.TBC_RTCSTS_OSF, 0, 0)]) Reg.TBC_RTCCFG_STEPMAX < (Int.ofNat ((calUnit 7 none [(Reg.TBC_DSTS_SRC, 0, 2), (Reg.TBC_RTCCFG_STEPMAX, 0, 1000), (Reg.TBC_RTCSTS_OSF, 0, 0)]).tb.now / 1000000000) - Int.ofNat (calUnit 7 none [(Reg.TBC_DSTS_SRC, 0, 2), (Reg.TBC_RTCCFG_STEPMAX, 0, 1000), (Reg.TBC_RTCSTS_OSF, 0, 0)]).rtc.secs).natAbs * 1000 ∧
    rd (calUnit 6 none [(Reg.TBC_DSTS_SRC, 0, 2), (Reg.TBC_RTCCFG_STEPMAX, 0, 1000), (Reg.TBC_RTCSTS_OSF, 0, 0)]) Reg.TBC_DSTS_SRC = 2 ∧
    (calUnit 6 none [(Reg.TBC_DSTS_SRC, 0, 2), (Reg.TBC_RTCCFG_STEPMAX, 0, 1000), (Reg.TBC_RTCSTS_OSF, 0, 0)]).rtc.set = none ∧
    rdB (calUnit 6 none [(Reg.TBC_DSTS_SRC, 0, 2), (Reg.TBC_RTCCFG_STEPMAX, 0, 1000), (Reg.TBC_RTCSTS_OSF, 0, 0)]) Reg.TBC_RTCSTS_OSF = false ∧
    (Int.ofNat ((calUnit 6 none [(Reg.TBC_DSTS_SRC, 0, 2), (Reg.TBC_RTCCFG_STEPMAX, 0, 1000), (Reg.TBC_RTCSTS_OSF, 0, 0)]).tb.now / 1000000000) - Int.ofNat (calUnit 6 none [(Reg.TBC_DSTS_SRC, 0, 2), (Reg.TBC_RTCCFG_STEPMAX, 0, 1000), (Reg.TBC_RTCSTS_OSF, 0, 0)]).rtc.secs).natAbs * 1000 ≤ rd (calUnit 6 none [(Reg.TBC_DSTS_SRC, 0, 2), (Reg.TBC_RTCCFG_STEPMAX, 0, 1000), (Reg.TBC_RTCSTS_OSF, 0, 0)]) Reg.TBC_RTCCFG_STEPMAX ∧
    rdB (calUnit 8 none [(Reg.TBC_DSTS_SRC, 0, 1), (Reg.TBC_TRIMCFG_TBEN, 0, 1), (Reg.TBC_TRIM_W, 0, 5)]) Reg.TBC_TRIMCFG_TBEN = true ∧
    rd (calUnit 8 none [(Reg.TBC_DSTS_SRC, 0, 1), (Reg.TBC_TRIMCFG_TBEN, 0, 1), (Reg.TBC_TRIM_W, 0, 5)]) Reg.TBC_DSTS_SRC = 1 ∧
    0 < 1 ∧
    rdB (calUnit 8 none [(Reg.TBC_DSTS_SRC, 0, 2), (Reg.TBC_TRIMCFG_TBEN, 0, 1), (Reg.TBC_TRIM_W, 0, 5)]) Reg.TBC_TRIMCFG_TBEN = true ∧
    rd (calUnit 8 none [(Reg.TBC_DSTS_SRC, 0, 2), (Reg.TBC_TRIMCFG_TBEN, 0, 1), (Reg.TBC_TRIM_W, 0, 5)]) Reg.TBC_DSTS_SRC = 2 := by
  and_intros <;> decide +kernel

theorem witness_Calendar_3 :
    0 < 400 ∧
    1 ≤ 1 ∧
    1 ≤ 12 ∧
    1 ≤ monthDays 0 1 ∧
    0 < 24 ∧
    0 < 60 ∧
    (calUnit (secsOf 0 1 1 0 0 0) none []).rtc.secs = secsOf 0 1 1 0 0 0 ∧
    399 < 400 ∧
    12 ≤ 12 ∧
    1 ≤ 31 ∧
    31 ≤ monthDays 399 12 ∧
    23 < 24 ∧
    59 < 60 ∧
    (calUnit (secsOf 399 12 31 23 59 59) none []).rtc.secs = secsOf 399 12 31 23 59 59 ∧
    100 < 400 ∧
    1 ≤ 2 ∧
    2 ≤ 12 ∧
    1 ≤ 28 ∧
    28 ≤ monthDays 100 2 ∧
    1 < 24 ∧
    2 < 60 ∧
    3 < 60 ∧
    (calUnit (secsOf 100 2 28 1 2 3) none []).rtc.secs = secsOf 100 2 28 1 2 3 := by
  and_intros <;> decide +kernel

theorem witness_Calendar_4 :
    96 < 400 ∧
    1 ≤ 2 ∧
    2 ≤ 12 ∧
    1 ≤ 29 ∧
    29 ≤ monthDays 96 2 ∧
    1 < 24 ∧
    2 < 60 ∧
    3 < 60 ∧
    (calUnit (secsOf 96 2 29 1 2 3) none []).rtc.secs = secsOf 96 2 29 1 2 3 := by
  and_intros <;> decide +kernel

theorem witness_ServiceEvents_1 :
    modeIs (waveUnit none 0 [(Reg.LPE_LANESTS_MSTATE, 2, 3)]) = Mode.test ∧
    (waveUnit none 0 [(Reg.LPE_LANESTS_MSTATE, 2, 3)]).ssu.wave = none ∧
    (waveUnit none 0 [(Reg.LPE_LANESTS_MSTATE, 2, 3)]).ssu.nextWave < 6 ∧
    rdB (waveUnit none 0 [(Reg.LPE_LANESTS_MSTATE, 2, 3)]) Reg.SSU_SUPPLY_WARN = false ∧
    modeIs (waveUnit none 5 [(Reg.LPE_LANESTS_MSTATE, 2, 3)]) = Mode.test ∧
    (waveUnit none 5 [(Reg.LPE_LANESTS_MSTATE, 2, 3)]).ssu.wave = none ∧
    (waveUnit none 5 [(Reg.LPE_LANESTS_MSTATE, 2, 3)]).ssu.nextWave < 6 ∧
    rdB (waveUnit none 5 [(Reg.LPE_LANESTS_MSTATE, 2, 3)]) Reg.SSU_SUPPLY_WARN = false ∧
    modeIs (inMode Mode.active []) ≠ Mode.test ∧
    (waveUnit (some 1) 1 []).ssu.wave ≠ none ∧
    rdB (waveUnit none 1 [(Reg.SSU_SUPPLY_WARN, 0, 1)]) Reg.SSU_SUPPLY_WARN = true ∧
    (waveUnit (some 0) 0 []).ssu.wave = some 0 ∧
    0 < 5 ∧
    (waveUnit (some 0) 0 []).mte.beatDue = false ∧
    (waveUnit (some 4) 4 []).ssu.wave = some 4 ∧
    4 < 5 ∧
    (waveUnit (some 4) 4 []).mte.beatDue = false ∧
    (waveUnit (some 5) 5 []).ssu.wave = some 5 ∧
    List.find? (fun x => decide (x.res = { cls := FClass.loop, idx := (7 : Fin 8).val : Resource })) windowed.ssu.windows = some aWindow ∧
    rdB (inMode Mode.active []) Reg.SSU_SVCSTS_PEND = false ∧
    modeIs (inMode Mode.active []) ≠ Mode.halt ∧
    rdB (inMode Mode.halt []) Reg.SSU_SVCSTS_PEND = false ∧
    (24189 : BitVec 16) ≠ (24188 : BitVec 16) := by
  and_intros <;> decide +kernel

theorem witness_ServiceEvents_2 :
    rdB (inMode Mode.halt []) Reg.SSU_SVCSTS_PEND = false ∧
    modeIs (inMode Mode.halt []) = Mode.halt ∧
    (inMode Mode.halt []).nvs.queue = [] ∧
    (inMode Mode.halt []).nvs.remaps.length ≤ sparePages ∧
    (writeRange (inMode Mode.halt []) (WriteWhat.record 3 (configData (inMode Mode.halt [])))).fits = true ∧
    (inMode Mode.halt []).nvs.susp = [] ∧
    (inMode Mode.halt []).nvs.cur = none ∧
    BitVec.toNat (305416988 : BitVec 32) % 2 ^ 16 = 19228 ∧
    BitVec.toNat (19229 : BitVec 32) % 2 ^ 16 ≠ 19228 ∧
    hostExpired hostLate = true ∧
    rdB hostLate Reg.SSU_WDTCFG_ACT = false := by
  and_intros <;> decide +kernel

theorem witness_SecurityCommands_1 :
    rdB keyed Reg.SSU_OTPSTS_PEND = false ∧
    rdB keyed Reg.SSU_SUPPLY_WARN = false ∧
    modeIs keyed = Mode.halt ∧
    (1976 : BitVec 16) ≠ (1975 : BitVec 16) ∧
    keyed.ssu.quote = none ∧
    keyed.ssu.otp.roots[(1 : Fin 4)].digest = none ∧
    keyed.ssu.otp.roots[(1 : Fin 4)].checkOk = true ∧
    keyed.ssu.otp.roots[(0 : Fin 4)].digest.isSome = true ∧
    (∃ j, j ≠ (1 : Fin 4) ∧ rootUsable keyed.ssu.otp.roots[j] = true) ∧
    (∀ (j : Fin 4), j ≠ (0 : Fin 4) → rootUsable keyed.ssu.otp.roots[j] = false) ∧
    keyed.ssu.otp.pfloor < BitVec.toNat (1 : BitVec 7) ∧
    BitVec.toNat (1 : BitVec 7) ≤ 64 ∧
    keyed.ssu.otp.ffloor < BitVec.toNat (1 : BitVec 7) ∧
    keyed.ssu.otp.pfloor < BitVec.toNat (64 : BitVec 7) ∧
    BitVec.toNat (64 : BitVec 7) ≤ 64 ∧
    keyed.ssu.otp.ffloor < BitVec.toNat (64 : BitVec 7) ∧
    BitVec.toNat (0 : BitVec 7) ≤ keyed.ssu.otp.pfloor ∧
    64 < BitVec.toNat (65 : BitVec 7) ∧
    64 < BitVec.toNat (127 : BitVec 7) ∧
    rdB (inMode Mode.active []) Reg.SSU_QSTS_PEND = false ∧
    modeIs (inMode Mode.active []) ≠ Mode.recall ∧
    modeIs (inMode Mode.active []) ≠ Mode.test ∧
    modeIs (inMode Mode.active []) ≠ Mode.save := by
  and_intros <;> decide +kernel

theorem witness_SecurityCommands_2 :
    rdB (inMode Mode.safehold []) Reg.SSU_QSTS_PEND = false ∧
    modeIs (inMode Mode.safehold []) ≠ Mode.recall ∧
    modeIs (inMode Mode.safehold []) ≠ Mode.test ∧
    modeIs (inMode Mode.safehold []) ≠ Mode.save ∧
    quoting.ssu.quote = some { addr := 4096, body := some [(1 : Byte), (2 : Byte)] : QuoteRun } ∧
    quoting.ssu.otpWait = none := by
  and_intros <;> decide +kernel

/-- A fold stays within a bound that each of its steps keeps. -/
theorem foldl_le_of {α : Type} (f : Nat → α → Nat) (c : Nat) (l : List α) (a : Nat) (ha : a ≤ c)
    (h : ∀ b x, x ∈ l → b ≤ c → f b x ≤ c) : l.foldl f a ≤ c := by
  induction l generalizing a with
  | nil => exact ha
  | cons x l ih => exact ih _ (h a x (by simp) ha) fun b y hy hb => h b y (by simp [hy]) hb

/-- Of front 0 alone a set of fronts holds at most that one, once. -/
theorem one_front (l : List Nat) : (l.filter (· < 1)).eraseDups = [] ∨ (l.filter (· < 1)).eraseDups = [0] := by
  have hz : ∀ m : List Nat, (∀ x ∈ m, x = 0) → m.eraseDups = [] ∨ m.eraseDups = [0] := by
    intro m hm
    cases m with
    | nil => exact .inl (by simp)
    | cons x m =>
      have hx : x = 0 := hm x (by simp)
      subst hx
      have : m.filter (fun b => !b == 0) = [] := by
        rw [List.filter_eq_nil_iff]
        intro y hy
        simp [hm y (by simp [hy])]
      exact .inr (by rw [List.eraseDups_cons, this]; simp)
  exact hz _ fun x hx => by simp at hx; omega

/-- One front of 1 KiB: no set of fronts, and no share of a tile, is larger. -/
theorem front_peaks_one (d : List Byte) (homes : List (List Nat)) (f : Option Nat × Nat) (t : Nat) (h : frontKib d f = 1) :
    (frontPeaks d homes [f] t).1 ≤ 1 ∧ (frontPeaks d homes [f] t).2 ≤ 1 := by
  have hs : ∀ l ∈ (List.range [f].length).map (fun g => [g]) ++
      (frontsTogether [f] t).map fun l => (l.filter (· < [f].length)).eraseDups, l = [] ∨ l = [0] := by
    intro l hl
    rcases List.mem_append.1 hl with hl | hl
    · simp at hl; exact .inr hl
    · obtain ⟨m, -, rfl⟩ := List.mem_map.1 hl; exact one_front m
  constructor
  · refine foldl_le_of _ 1 _ 0 (by omega) fun b l hl hb => ?_
    rcases hs l hl with rfl | rfl <;> simp [h] <;> omega
  · refine foldl_le_of _ 1 _ 0 (by omega) fun b l hl hb => foldl_le_of _ 1 _ b hb fun c i _ hc => ?_
    rcases hs l hl with rfl | rfl
    · simp; omega
    · simp only [List.foldl_cons, List.foldl_nil, frontTiles, h, List.getD_cons_zero]; split <;> simp <;> omega
/-- SolverJobs: the first job that loads finds room. -/
theorem witness_SolverJobs_place : ∃ sr dd ddr tiles, placeJob loadedS (aJob 4 2 4 false).desc jobCols
    (frontHomes (aJob 4 2 4 false).desc [] jobLoaded (jobOrder (aJob 4 2 4 false).desc [] jobLoaded) jobCols (tilesUp loadedS))
      none = some (sr, dd, ddr, tiles) := by
  have hk : ¬(dKind (aJob 4 2 4 false).desc = 3 ∧ ((none : Option HandleData).bind (·.factor)).isSome = true) := by decide +kernel
  have hf : frontsOf jobCols = [(none, 1)] := by decide +kernel
  have h1 : frontKib (aJob 4 2 4 false).desc (none, 1) = 1 := by decide +kernel
  have hr : sramRoom loadedS = 65536 := by decide +kernel
  have hc : factorKib (aJob 4 2 4 false).desc jobCols = 1 := by decide +kernel
  have hh : rd loadedS Reg.HMX_SPLIT_SRAMHOST = 0 := by decide +kernel
  have hp := front_peaks_one (aJob 4 2 4 false).desc (frontHomes (aJob 4 2 4 false).desc [] jobLoaded
    (jobOrder (aJob 4 2 4 false).desc [] jobLoaded) jobCols (tilesUp loadedS)) (none, 1) (tilesUp loadedS) h1
  generalize (frontHomes (aJob 4 2 4 false).desc [] jobLoaded (jobOrder (aJob 4 2 4 false).desc [] jobLoaded) jobCols
    (tilesUp loadedS)) = homes at hp ⊢
  have hd : rdB loadedS Reg.LSV_HANDLE0_DDR (dHandle (aJob 4 2 4 false).desc) = false := by decide +kernel
  have hq : ¬dKind (aJob 4 2 4 false).desc = 1 := by decide +kernel
  simp only [placeJob, if_neg hk, hf, hc, hr, hh, hd, if_neg hq]
  rw [if_neg (by omega), if_pos (by simp only [Option.map_none, Option.getD_none]; have := hp.1; split <;> omega)]
  exact ⟨_, _, _, _, rfl⟩

/-- StepRunsFrontCommand: an idle unit. -/
theorem witness_StepRunsFrontCommand : State.reset.pending = [] := by decide

/-- KcisDecodeOfEncode: a guarded instruction, END and LOOP. -/
theorem witness_KcisDecodeOfEncode :
    ((Instr.br 0 (.on 3 true) 1).wf = true ∧ seqGuard (.br 0 (.on 3 true) 1) = some (0, .on 3 true)) ∧
    ((Instr.mbxcp 5 .always 1 2 7 256).wf = true ∧ ∃ g, seqGuard (.mbxcp 5 .always 1 2 7 256) = some (5, g)) ∧
    (Instr.endInst 17).wf = true ∧ (Instr.loop 1 2 0 1 65535).wf = true :=
  ⟨⟨by decide, by decide⟩, ⟨by decide, _, rfl⟩, by decide, by decide⟩

/-- KcisFrame: an addition that executes and a store whose address is refused. -/
theorem witness_KcisFrame :
    (seqGuard (.add 0 .always 3 1 2) = some (0, .always) ∧ instOf (kRegs [(1, 7)]) 0 = some (kInst [(1, 7)]) ∧
      ∃ t, exec (.add 0 .always 3 1 2) (kRegs [(1, 7)]) = .next t) ∧
    (seqGuard (.st 0 .always .data .b64 1 1 0) = some (0, .always) ∧
      ∃ t, exec (.st 0 .always .data .b64 1 1 0) (kRegs [(1, 7)]) = .next t) :=
  ⟨⟨rfl, by decide +kernel, _, rfl⟩, rfl, _, rfl⟩

/-- The invariant of the control memories holds of a unit at rest but for one instance that meets it. -/
theorem memInv_one (s : State) (i : Inst) (hd : Memory.wf s.csa.dmem = true) (hr : Memory.wf s.csa.rmem = true)
    (hs : s.csa.seqs = Vector.replicate 18 (⟨none, []⟩ : Seqr)) (ht : i.task < 64) (hj : Tbl.rising i.journal = true)
    (ho : Tbl.rising i.outs = true) (hz : i.w[0] = 0) : MemInv (setInst s 0 i) := by
  refine ⟨hd, hr, fun sq => ⟨?_, fun k hk => ?_⟩⟩
  · rw [setInst_queue]; simp [hs]
  · by_cases h : sq = 0
    · subst h
      obtain rfl : i = k := by simpa using hk
      exact ⟨ht, hj, ho, hz⟩
    · rw [instOf_setInst_ne h] at hk
      simp [instOf, hs] at hk

/-- The unit the tests of KCIS run, at rest but for its instance, meets the invariant. -/
theorem memInv_kRun (i : Inst) (ht : i.task < 64) (hj : Tbl.rising i.journal = true) (ho : Tbl.rising i.outs = true)
    (hz : i.w[0] = 0) : MemInv (kRun i) := by
  refine memInv_one _ i ?_ ?_ ?_ ht hj ho hz <;> rfl

/-- The invariant looks at the control memories alone. -/
theorem memInv_csa {s t : State} (h : t.csa = s.csa) (hi : MemInv s) : MemInv t := by
  unfold MemInv instOf at *
  rw [h]
  exact hi

/-- EndOfInstance: END without and with ADDR, and a fetch error in an IN_SERVICE and in a SUSPECT sequencer. -/
theorem witness_EndOfInstance :
    (MemInv (kRun (kFlags 0)) ∧ instOf (kRun (kFlags 0)) 0 = some (kFlags 0) ∧ hasFlag (kFlags 0) .addr = false) ∧
    (MemInv (kRun (kFlags 16)) ∧ instOf (kRun (kFlags 16)) 0 = some (kFlags 16) ∧ hasFlag (kFlags 16) .addr = true) ∧
    ((kRun (kFlags 0)).csa.seqs[0]).queue = [] ∧
    rd (kRun (kFlags 0)) Reg.CSA_SQSTS_MSTATE 0 = mstateCode .inService ∧
    (MemInv (wr (kRun (kFlags 0)) Reg.CSA_SQSTS_MSTATE 2) ∧
      rd (wr (kRun (kFlags 0)) Reg.CSA_SQSTS_MSTATE 2) Reg.CSA_SQSTS_MSTATE 0 = mstateCode .suspect ∧
      sqRes 0 ∉ (wr (kRun (kFlags 0)) Reg.CSA_SQSTS_MSTATE 2).ssu.retired ∧
      (wr (kRun (kFlags 0)) Reg.CSA_SQSTS_MSTATE 2).ssu.retired.length < 128) :=
  have h := fun f => memInv_kRun (kFlags f) (show 0 < 64 by decide) rfl rfl rfl
  ⟨⟨h 0, by decide +kernel, by decide⟩, ⟨h 16, by decide +kernel, by decide⟩, rfl, by decide +kernel,
    memInv_csa (s := kRun (kFlags 0)) rfl (h 0), by decide +kernel, by decide, by decide⟩

/-- KcisKeepsMemInv: an instruction at the front of the queue of such a unit, END, LOOP and a fetch error. -/
theorem witness_KcisKeepsMemInv (c : Instr) (hc : c = .add 0 .always 3 1 2 ∨ c = .endInst 0 ∨ c = .fetchEccError 0 ∨
    c = .loop 0 1 0 4 2) :
    MemInv { kRegs [(1, 7)] with pending := [c] } ∧ ∃ t, step { kRegs [(1, 7)] with pending := [c] } = .next t := by
  refine ⟨memInv_csa (s := kRegs [(1, 7)]) rfl
    (memInv_kRun (kInst [(1, 7)]) (by decide) (by decide) (by decide) (by decide)), ?_⟩
  rcases hc with rfl | rfl | rfl | rfl <;> exact ⟨_, rfl⟩

/-- RegisterWriteTakesFields: a write that issues the STOP command. -/
theorem witness_RegisterWriteTakesFields_command :
    (∃ l, l = fieldsAt 0x104 ∧ l ≠ [] ∧ ∀ e ∈ l, configFields.any (·.id = e.1.id) = false) ∧ ownWrite 0x104 = false ∧
    windowWrite32 (inMode .active []) 0x104 (BitVec.setWidth 32 (2 : BitVec 64)) = none ∧
    hostCommand (inMode .active []) 0x104 (BitVec.setWidth 32 (2 : BitVec 64)) = some (execStop (inMode .active [])) :=
  ⟨⟨_, rfl, by decide, by decide⟩, by decide, by decide +kernel, rfl⟩

/-- Bits that give one sample, at 30,003,125 ns. -/
theorem one_sample : ∃ st y, takeBits darkUnit 0 aFeeder oneSample = (st, [y]) ∧ y.at_ = 30003125 ∧
    st.from_ = some 5000 ∧ st.taken = some 5000 ∧ st.armed = false ∧ st.hit = [] ∧ st.subst = false := by
  have h : ((takeBits darkUnit 0 aFeeder oneSample).2.map fun y => y.at_) = [30003125] := by decide +kernel
  have hf : (takeBits darkUnit 0 aFeeder oneSample).1.from_ = some 5000 := by decide +kernel
  have ht : (takeBits darkUnit 0 aFeeder oneSample).1.taken = some 5000 := by decide +kernel
  have ha : (takeBits darkUnit 0 aFeeder oneSample).1.armed = false := by decide +kernel
  have hh : (takeBits darkUnit 0 aFeeder oneSample).1.hit = [] := by decide +kernel
  have hb : (takeBits darkUnit 0 aFeeder oneSample).1.subst = false := by decide +kernel
  obtain ⟨y, hy, hat⟩ := List.map_eq_singleton_iff.1 h
  exact ⟨_, y, Prod.ext rfl hy, hat, hf, ht, ha, hh, hb⟩

/-- Metering: such a sample ends a cycle of fixed length of a feeder without voltage, whose channel meters. -/
theorem witness_Metering_sample : ∃ (st st' : FeedSt) (y : Sample) (iv : Interval),
    (metering darkUnit = true ∧ feedCfg darkUnit 0 = some aFeeder ∧ feedsOn darkUnit 0 = true ∧
      chanState darkUnit 0 ≠ .retired) ∧
    takeBits darkUnit 0 aFeeder oneSample = (st, [y]) ∧ feedSample aFeeder st y = (st', some 20005000) ∧
    st.from_ = some 5000 ∧ st.hit = [] ∧ (∀ i ∈ inputsOf 0, rdB darkUnit Reg.MTE_INSTS_STUCK i = false) ∧
    chanOf darkUnit 0 = openCh ∧ openCh.open_ = some iv ∧ openCh.fcfg = some aFeeder ∧ st.subst = false ∧
    iv.count + 1 < aFeeder.n := by
  obtain ⟨st, y, hl, hat, hf, ht, ha, hh, hb⟩ := one_sample
  have he : 5000 + fixedCycle aFeeder = 20005000 := by decide
  have hs : (feedSample aFeeder st y).2 = some 20005000 := by
    simp [feedSample, hf, ht, ha, hat, he]
  exact ⟨st, _, y, _, by decide +kernel, hl, Prod.ext rfl hs, hf, hh, by decide +kernel, rfl, rfl, rfl, hb, by decide⟩

end Sys2Proof.Tests
end

section
/-! SUPPORT. The registers at an address: whose fields they are, and that no two of them share a storage key. -/

namespace Sys2Proof.Machine

/-- The fields are numbered in the order of the table. -/
theorem table_ids : Reg.table.map Field.id = List.range 565 := by decide +kernel

/-- A field of the table is told by its number. -/
theorem table_eq_of_id {f g : Field} (hf : f ∈ Reg.table) (hg : g ∈ Reg.table) (h : f.id = g.id) : f = g :=
  List.inj_on_of_nodup_map (table_ids ▸ List.nodup_range) hf hg h

theorem table_count_le : ∀ f ∈ Reg.table, f.count ≤ 8192 := by decide +kernel

theorem mem_fieldsAt {a : Nat} {e : Field × Nat} :
    e ∈ fieldsAt a ↔ e.1 ∈ Reg.table ∧ e.1.indexAt a = some e.2 := by
  obtain ⟨f, i⟩ := e
  simp only [fieldsAt, List.mem_filterMap, Option.map_eq_some_iff, Prod.mk.injEq]
  constructor
  · rintro ⟨g, hg, j, hj, rfl, rfl⟩
    exact ⟨hg, hj⟩
  · rintro ⟨hf, hi⟩
    exact ⟨f, hf, i, hi, rfl, rfl⟩

/-- An index an address selects stays below the block of keys of its field. -/
theorem indexAt_lt {f : Field} {a i : Nat} (hf : f ∈ Reg.table) (h : f.indexAt a = some i) : i < 8192 := by
  have hc := table_count_le f hf
  unfold Field.indexAt at h
  split_ifs at h with _ _ _ hlt <;> simp only [Option.some.injEq] at h
  · omega
  · exact h ▸ hlt.2.trans_le hc

/-- No two fields of a register share a storage key. -/
theorem fieldsAt_keys_ne (a : Nat) : (fieldsAt a).Pairwise fun d e => d.1.key d.2 ≠ e.1.key e.2 := by
  have hids : Reg.table.Pairwise fun f g => f.id ≠ g.id :=
    List.pairwise_map.1 (table_ids ▸ List.nodup_range)
  refine List.pairwise_filterMap.2 (hids.imp_of_mem fun {f g} hf hg hne => ?_)
  simp only [Option.map_eq_some_iff]
  rintro _ ⟨i, hi, rfl⟩ _ ⟨j, hj, rfl⟩
  exact key_ne_of_id hne (indexAt_lt hg hj) (indexAt_lt hf hi)

/-- The first element of a field whose number no field of a register has is kept in a key of its own. -/
theorem key_ne_of_id_notin {a : Nat} {f : Field} (h : ∀ e ∈ fieldsAt a, f.id ≠ e.1.id) :
    ∀ e ∈ fieldsAt a, f.key 0 ≠ e.1.key e.2 := fun e he =>
  have hm := mem_fieldsAt.1 he
  key_ne_of_id (h e he) (indexAt_lt hm.1 hm.2) (by decide)

end Sys2Proof.Machine
end

section
/-! SUPPORT. Writing the fields of a register one after another by a rule that gives some of them a value: what a host
write and the clearing that follows a read have in common (R5). -/

namespace Sys2Proof.Machine

/-- Sets every listed field to which a rule gives a value. -/
def setFields (g : Field × Nat → Option Nat) (s : State) (l : List (Field × Nat)) : State :=
  l.foldl (fun s e => match g e with | some x => wr s e.1 x e.2 | none => s) s

/-- What a read puts back: the reset value of an RC field. -/
def clearsTo (e : Field × Nat) : Option Nat := if e.1.acc = .rc then some (e.1.resetAt e.2) else none

theorem writeFields_eq_setFields (s : State) (v : Nat) (l : List (Field × Nat)) :
    writeFields s v l = setFields (fun e => fieldTakes s v e.1 e.2) s l := rfl

theorem readClear_eq_setFields (s : State) (l : List (Field × Nat)) : readClear s l = setFields clearsTo s l := by
  unfold readClear setFields
  congr
  funext t e
  by_cases h : e.1.acc = .rc <;> simp [clearsTo, h]

variable {g : Field × Nat → Option Nat}

theorem setFields_cons_some {e : Field × Nat} {x : Nat} (h : g e = some x) (s : State) (l : List (Field × Nat)) :
    setFields g s (e :: l) = setFields g (wr s e.1 x e.2) l := by
  simp [setFields, h]

theorem setFields_cons_none {e : Field × Nat} (h : g e = none) (s : State) (l : List (Field × Nat)) :
    setFields g s (e :: l) = setFields g s l := by
  simp [setFields, h]

/-- Nothing but the table of fields changes. -/
theorem setFields_frame (g : Field × Nat → Option Nat) (s : State) (l : List (Field × Nat)) :
    ∃ t, setFields g s l = { s with flds := t } := by
  induction l generalizing s with
  | nil => exact ⟨s.flds, rfl⟩
  | cons e l ih =>
    cases h : g e with
    | none => rw [setFields_cons_none h]; exact ih s
    | some x =>
      rw [setFields_cons_some h]
      obtain ⟨t, ht⟩ := ih (wr s e.1 x e.2)
      exact ⟨t, ht⟩

/-- A field that is none of those given a value keeps its own. -/
theorem rd_setFields_ne {f : Field} {i : Nat} {s : State} {l : List (Field × Nat)}
    (h : ∀ e ∈ l, (g e).isSome → f.key i ≠ e.1.key e.2) : rd (setFields g s l) f i = rd s f i := by
  induction l generalizing s with
  | nil => rfl
  | cons e l ih =>
    have hl : ∀ e ∈ l, (g e).isSome → f.key i ≠ e.1.key e.2 := fun d hd => h d (List.mem_cons_of_mem _ hd)
    cases hg : g e with
    | none => rw [setFields_cons_none hg, ih hl]
    | some x => rw [setFields_cons_some hg, ih hl, rd_wr_ne (h e List.mem_cons_self (by simp [hg]))]

/-- A listed field holds the value given to it, cut to its width, or keeps its own. -/
theorem rd_setFields_mem {e : Field × Nat} {s : State} {l : List (Field × Nat)}
    (hd : l.Pairwise fun d e => d.1.key d.2 ≠ e.1.key e.2) (he : e ∈ l) :
    rd (setFields g s l) e.1 e.2 = (g e).elim (rd s e.1 e.2) (· % 2 ^ e.1.width) := by
  induction l generalizing s with
  | nil => cases he
  | cons d l ih =>
    obtain ⟨hne, hl⟩ := List.pairwise_cons.1 hd
    rcases List.mem_cons.1 he with rfl | he
    · have hrest : ∀ u, rd (setFields g u l) e.1 e.2 = rd u e.1 e.2 := fun u =>
        rd_setFields_ne fun d hd _ => hne d hd
      cases hg : g e with
      | none => rw [setFields_cons_none hg, hrest]; rfl
      | some x => rw [setFields_cons_some hg, hrest, rd_wr_same]; rfl
    · cases hg : g d with
      | none => rw [setFields_cons_none hg, ih hl he]
      | some x => rw [setFields_cons_some hg, ih hl he, rd_wr_ne (hne e he).symm]

end Sys2Proof.Machine
end

section
/-! SUPPORT. Host writes (R20, R431, R433): a write of a command register completes, a write of a plain register sets
its fields and nothing follows it. -/

namespace Sys2Proof.Machine

/-! ### Writes that issue a command -/

/-- The command a write issues, if any, answers a next state. -/
def Answers (x : Option (Host.Outcome State Fault Refusal)) : Prop := ∀ o ∈ x, ∃ t, o = .next t

theorem answers_none : Answers none := fun _ h => nomatch h

theorem answers_next (t : State) : Answers (some (.next t)) := fun _ h => ⟨t, (Option.some.inj h).symm⟩

theorem answers_ite {c : Prop} [Decidable c] {x y : Option (Host.Outcome State Fault Refusal)} (hx : Answers x)
    (hy : Answers y) : Answers (if c then x else y) := by
  split
  · exact hx
  · exact hy

/-- The choice of a command from a list of commands that all answer. -/
theorem answers_choice (l : List State) (k : Nat) : Answers (l.map Host.Outcome.next)[k]? := by
  intro o ho
  obtain ⟨t, -, rfl⟩ := List.mem_map.1 (List.mem_of_getElem? ho)
  exact ⟨t, rfl⟩

/-- A command register answers when its commands do: an undefined code is answered by BAD_COMMAND. -/
theorem codeCmd_answers (s : State) (r : CmdReg) (code : Nat) (l : List State) :
    Answers (codeCmd s r code (l.map Host.Outcome.next)) := by
  unfold codeCmd
  refine answers_ite answers_none ?_
  have hl := answers_choice l (code - 1)
  cases h : (l.map Host.Outcome.next)[code - 1]? with
  | none => exact answers_next _
  | some o => rwa [h] at hl

theorem otpCommand_answers (s : State) (v : BitVec 32) : Answers (otpCommand s v) :=
  answers_ite answers_none (codeCmd_answers _ _ _ [_, _, _, _, _, _])

theorem fbcCommand_answers (s : State) (n : Fin 24) (o : Nat) (v : BitVec 32) : Answers (fbcCommand s n o v) := by
  refine answers_ite (codeCmd_answers _ _ _ [_, _, _]) <| answers_ite (codeCmd_answers _ _ _ [_, _]) <|
    answers_ite (answers_ite (answers_next _) answers_none) <| answers_ite ?_ answers_none
  exact fun o ho => answers_choice [_, _, _] _ o (Option.mem_filter_iff.1 ho).1

/-- A write that issues a command completes (R433): every command register's commands do. -/
theorem hostCommand_answers (s : State) (a : Nat) (v : BitVec 32) : Answers (hostCommand s a v) := by
  refine
    answers_ite (answers_next _) <|                                      -- SSU_WDTKICK
    answers_ite (answers_next _) <|                                      -- SSU_RSTCMD
    answers_ite (codeCmd_answers _ _ _ [_, _]) <|                        -- SSU_SVCCMD
    answers_ite (codeCmd_answers _ _ _ [_, _, _, _, _]) <|               -- SSU_MODECMD
    answers_ite (otpCommand_answers s v) <|                              -- SSU_OTPCMD
    answers_ite (answers_ite (answers_next _) answers_none) <|           -- SSU_QCMD
    answers_ite (answers_ite (answers_next _) answers_none) <|           -- TBC_RTCCMD
    answers_ite (codeCmd_answers _ _ _ [_, _, _, _]) <|                  -- CSA_OLC
    answers_ite (answers_ite answers_none (answers_choice [_, _, _] _)) <| -- CSA_FRCCMD
    answers_ite (codeCmd_answers _ _ _ [_, _, _, _]) <|                  -- LPE_LCMD
    answers_ite (answers_next _) <|                                      -- LSV_DOORBELL
    answers_ite (answers_ite (answers_next _) answers_none) <|           -- LSV_CANCELCMD
    answers_ite (answers_ite answers_none (answers_choice [_, _, _] _)) <| -- MTE_CALCMD
    answers_ite (codeCmd_answers _ _ _ [_, _, _, _]) <|                  -- FCT_CMD
    answers_ite (codeCmd_answers _ _ _ [_, _]) <|                        -- NPC_VCMD
    answers_ite (codeCmd_answers _ _ _ [_, _]) <|                        -- RDU_CMD
    answers_ite (codeCmd_answers _ _ _ [_, _, _, _]) <|                  -- EVR_CMD
    answers_ite (answers_next _) ?_                                      -- EVR_CURSOR
  cases Reg.HMX_DMADB_HEAD.indexAt a with
  | some q => exact answers_next _
  | none => exact answers_ite (fbcCommand_answers s _ _ v) answers_none

/-- A write that issues a command does what the command's own row does. -/
theorem writeWord_of_hostCommand {s : State} {a : Nat} {v : BitVec 32} {o : Host.Outcome State Fault Refusal}
    (h : hostCommand s a v = some o) : .next (writeWord s a v) = o := by
  obtain ⟨t, rfl⟩ := hostCommand_answers s a v o h
  simp only [writeWord, h]

/-! ### Writes of plain registers -/

/-- The fields whose change has an effect of its own: the host timer, the cascade, the pair and the PTP ports follow
them. -/
def followedFields : List Field :=
  [Reg.SSU_WDTCFG_HOSTEN, Reg.CSC_CFG_EN, Reg.RDU_CFG_PAIRED, Reg.TBC_DISC_PTPEN, Reg.TBC_DISC_PTPPORT]

/-- Nothing follows a write that changes no followed field and none of the configuration record. -/
theorem afterWrite_of_kept {old s : State} {l : List (Field × Nat)}
    (hl : ∀ e ∈ l, configFields.any (·.id = e.1.id) = false) (hk : ∀ f ∈ followedFields, rd s f = rd old f) :
    afterWrite old s l = s := by
  have hc : (l.any fun e => configFields.any (·.id = e.1.id) && rd s e.1 e.2 != rd old e.1 e.2) = false :=
    List.any_eq_false.2 fun e he => by simp [hl e he]
  simp only [followedFields, List.forall_mem_cons] at hk
  obtain ⟨hwd, hcsc, hpair, hpen, hport, -⟩ := hk
  simp [afterWrite, hwd, hcsc, hpair, hpen, hport, hc]

/-- A followed field stands in the configuration record or in the one register of `TBC_DISC`. -/
theorem followedFields_place :
    ∀ f ∈ followedFields, f ∈ configFields ∨ f ∈ Reg.table ∧ f.stride = 0 ∧ ownWrite f.addr = true := by
  decide +kernel

theorem addr_of_indexAt {f : Field} {a i : Nat} (hf : f.stride = 0) (h : f.indexAt a = some i) : a = f.addr := by
  unfold Field.indexAt at h
  split_ifs at h
  assumption

/-- A register without a row of its own and outside the configuration record holds no followed field. -/
theorem followedFields_notin {a : Nat} (ha : ownWrite a = false)
    (hl : ∀ e ∈ fieldsAt a, configFields.any (·.id = e.1.id) = false) {f : Field} (hf : f ∈ followedFields) :
    ∀ e ∈ fieldsAt a, f.id ≠ e.1.id := by
  intro e he hid
  rcases followedFields_place f hf with hc | ⟨hft, hst, hown⟩
  · exact List.any_eq_false.1 (hl e he) f hc (decide_eq_true hid)
  · obtain ⟨hmem, hidx⟩ := mem_fieldsAt.1 he
    rw [← table_eq_of_id hft hmem hid] at hidx
    rw [← addr_of_indexAt hst hidx, ha] at hown
    cases hown

/-- The addresses `ownWrite` leaves out. -/
theorem ownWrite_eq_false {a : Nat} (h : ownWrite a = false) :
    a ≠ Reg.TBC_TICKCFG_TICKLEN.addr ∧ a ≠ Reg.HMX_SPLIT_SRAMHOST.addr ∧ a ≠ Reg.MTE_MODCFG_DIV.addr ∧
      a ≠ Reg.LSV_RINGCFG_EN.addr ∧ a ≠ Reg.MTE_LRCFG_EN.addr ∧ a ≠ Reg.NPC_VRCFG_EN.addr ∧
      Reg.HMX_DMACFG_EN.indexAt a = none := by
  simp only [ownWrite, Bool.or_eq_false_iff, List.contains_eq_mem, decide_eq_false_iff_not, List.mem_cons, not_or,
    Option.isSome_eq_false_iff, Option.isNone_iff_eq_none] at h
  obtain ⟨⟨htick, -, hsplit, hmod, hring, hlr, hvr, -⟩, hdma⟩ := h
  exact ⟨htick, hsplit, hmod, hring, hlr, hvr, hdma⟩

/-- A write of a register with no row of its own and no further effect sets its fields alone (R5, R433). -/
theorem writeWord_eq_writeFields {s : State} {a : Nat} {v : BitVec 32} (hne : fieldsAt a ≠ []) (ha : ownWrite a = false)
    (hwin : windowWrite32 s a v = none) (hl : ∀ e ∈ fieldsAt a, configFields.any (·.id = e.1.id) = false)
    (hcmd : hostCommand s a v = none) : writeWord s a v = writeFields s v.toNat (fieldsAt a) := by
  obtain ⟨htick, hsplit, hmod, hring, hlr, hvr, hdma⟩ := ownWrite_eq_false ha
  have hafter : afterWrite s (writeFields s v.toNat (fieldsAt a)) (fieldsAt a) = writeFields s v.toNat (fieldsAt a) :=
    afterWrite_of_kept hl fun f hf => rd_setFields_ne fun e he _ =>
      key_ne_of_id_notin (followedFields_notin ha hl hf) e he
  simp [writeWord, hcmd, htick, hsplit, hmod, hring, hlr, hvr, hdma, hwin, hne, hafter]

theorem bitsOf_mod (v lo w : Nat) : bitsOf v lo w % 2 ^ w = bitsOf v lo w := Nat.mod_mod _ _

/-- What a field reads as once it has taken its part of a write, by its access code (Table 0.3). -/
theorem fieldTakes_value (s : State) (x : Nat) (e : Field × Nat) :
    (fieldTakes s x e.1 e.2).elim (rd s e.1 e.2) (· % 2 ^ e.1.width) =
      match e.1.acc with
      | .rw => if inRange e.1 (bitsOf x e.1.lsb e.1.width) && !locked s e.1 e.2 then bitsOf x e.1.lsb e.1.width
          else rd s e.1 e.2
      | .rwh => if modeIs s = .halt && inRange e.1 (bitsOf x e.1.lsb e.1.width) && !locked s e.1 e.2 then
          bitsOf x e.1.lsb e.1.width else rd s e.1 e.2
      | .w1c => if bitsOf x e.1.lsb e.1.width = 1 then 0 else rd s e.1 e.2
      | .ro => rd s e.1 e.2
      | .wo => rd s e.1 e.2
      | .rc => rd s e.1 e.2 := by
  unfold fieldTakes
  cases e.1.acc with
  | rw | rwh => dsimp only; split <;> simp [bitsOf_mod]
  | w1c => dsimp only; split <;> simp
  | ro | wo | rc => rfl

/-- A write of a register by its fields changes nothing but them. -/
theorem writeFields_onlyFields (s : State) (v : Nat) (l : List (Field × Nat)) : OnlyFields s (writeFields s v l) l := by
  obtain ⟨t, ht⟩ := setFields_frame (fun e => fieldTakes s v e.1 e.2) s l
  refine ⟨by rw [writeFields_eq_setFields, ht], fun f i h => rd_setFields_ne fun e he _ => h e he⟩

theorem exec_registerWrite (addr : BitVec 26) (wide : Bool) (v : BitVec 64) (s : State) :
    exec (.registerWrite addr wide v) s = .next (hostWrite s addr.toNat wide v) := rfl

theorem hostWrite_aligned {s : State} {a : Nat} (ha : a % 4 = 0) (v : BitVec 64) :
    hostWrite s a false v = writeWord s a (v.setWidth 32) := by
  simp [hostWrite, ha]

theorem hostWrite_wide {s : State} {a : Nat} (ha : a % 4 = 0) (v : BitVec 64) :
    hostWrite s a true v = writeWord (writeWord s a (v.setWidth 32)) (a + 4) ((v >>> 32).setWidth 32) := by
  simp [hostWrite, ha]

/-- Settles O22: a command register's write is its command's row, and any other's sets its fields alone, each as the
state before the write decides. -/
theorem registerWriteTakesFields : Obligations.RegisterWriteTakesFields := by
  intro s addr v a x l ha hl hx hal hne hown hwin hconf
  subst hl
  have hexec : exec (.registerWrite addr false v) s = .next (writeWord s a (v.setWidth 32)) := by
    rw [exec_registerWrite, ← ha, hostWrite_aligned hal]
  refine ⟨fun o ho => hexec.trans (writeWord_of_hostCommand ho), fun hcmd => ⟨_, hexec, ?_⟩⟩
  have hv : (v.setWidth 32).toNat = x := by rw [hx, BitVec.toNat_setWidth]
  rw [writeWord_eq_writeFields hne hown hwin hconf hcmd, hv]
  refine ⟨writeFields_onlyFields s x _, fun e he => ?_⟩
  rw [writeFields_eq_setFields, rd_setFields_mem (fieldsAt_keys_ne a) he]
  exact fieldTakes_value s x e

end Sys2Proof.Machine
end

section
/-! SUPPORT. Host reads (R5, R20) and the latches of low words (R44, R174, R369). -/

namespace Sys2Proof.Machine

/-- The register a read puts out is the sum of its readable fields, each at its place. -/
theorem readFields_eq_sum (s : State) (l : List (Field × Nat)) :
    readFields s l = (l.map fun e => if e.1.acc = .wo then 0 else rd s e.1 e.2 * 2 ^ e.1.lsb).sum := by
  induction l with
  | nil => rfl
  | cons e l ih => rw [readFields, ih, List.map_cons, List.sum_cons]

theorem rc_reset_lt :
    ∀ f ∈ Reg.table.filter (·.acc = .rc), f.id ≠ Reg.SSU_FWIN_WINDOW.id ∧ f.reset < 2 ^ f.width := by
  decide +kernel

/-- The reset value of an RC field fits its width. -/
theorem resetAt_mod_of_rc {f : Field} (hf : f ∈ Reg.table) (h : f.acc = .rc) (i : Nat) :
    f.resetAt i % 2 ^ f.width = f.resetAt i := by
  obtain ⟨hid, hlt⟩ := rc_reset_lt f (List.mem_filter.2 ⟨hf, decide_eq_true h⟩)
  rw [Field.resetAt, if_neg hid, Nat.mod_eq_of_lt hlt]

/-- A read returns each RC field of the register to its reset value and keeps the others (R5, log entry 86). -/
theorem rd_readClear_mem {s : State} {a : Nat} {e : Field × Nat} (he : e ∈ fieldsAt a) :
    rd (readClear s (fieldsAt a)) e.1 e.2 = if e.1.acc = .rc then e.1.resetAt e.2 else rd s e.1 e.2 := by
  rw [readClear_eq_setFields, rd_setFields_mem (fieldsAt_keys_ne a) he]
  by_cases h : e.1.acc = .rc
  · simp [clearsTo, h, resetAt_mod_of_rc (mem_fieldsAt.1 he).1 h]
  · simp [clearsTo, h]

/-- A read writes no field but the RC fields of the register. -/
theorem readClear_fieldsBut (s : State) (l : List (Field × Nat)) :
    FieldsBut s (readClear s l) (l.filter fun e => e.1.acc = .rc) := by
  intro f i h
  rw [readClear_eq_setFields]
  refine rd_setFields_ne fun e he hc => h e (List.mem_filter.2 ⟨he, ?_⟩)
  simpa [clearsTo] using hc

/-- The addresses `ownRead` leaves out. -/
theorem ownRead_eq_false {a : Nat} (h : ownRead a = false) :
    (a ≠ 0x400028 ∧ a ≠ 0x400030 ∧ a ≠ 0x400104 ∧ a ≠ 0x1000050 ∧ a ≠ 0x1000058) ∧
      ¬((0x2D00000 ≤ a ∧ a < 0x2D10000) ∨ (0x3100000 ≤ a ∧ a < 0x3101000)) ∧
      (inArr a 0x1D00200 0x10000 24).filter (·.2 < 76) = none := by
  simp only [ownRead, Bool.or_eq_false_iff, List.contains_eq_mem, decide_eq_false_iff_not, List.mem_cons, not_or,
    List.not_mem_nil, not_false_eq_true, and_true, Option.isSome_eq_false_iff, Option.isNone_iff_eq_none] at h
  obtain ⟨⟨⟨haddr, hnvs⟩, hrd⟩, hrx⟩ := h
  exact ⟨haddr, not_or.2 ⟨hnvs, hrd⟩, hrx⟩

/-- A read of a plain register puts out its fields and clears the RC ones. -/
theorem readHalf_eq_fields {s : State} {a : Nat} (hne : fieldsAt a ≠ []) (ha : ownRead a = false)
    (hwin : windowWord s a = none) : readHalf s a = (readFields s (fieldsAt a), readClear s (fieldsAt a)) := by
  obtain ⟨⟨htime, htick, hrtc, hflop, hcyc⟩, hnvs, hrx⟩ := ownRead_eq_false ha
  simp [readHalf, readWord, htime, htick, hrtc, hflop, hcyc, hnvs, hrx, hwin, hne]

theorem hostRead_aligned {s : State} {a : Nat} (ha : a % 4 = 0) : hostRead s a false = readHalf s a := by
  simp [hostRead, ha]

/-- What is put out changes no field. -/
theorem rd_emit (s : State) (o : Out) (f : Field) (i : Nat) : rd (emit s o) f i = rd s f i := rfl

theorem fieldsBut_emit (s t : State) (o : Out) (l : List (Field × Nat)) :
    FieldsBut s (emit t o) l ↔ FieldsBut s t l := Iff.rfl

theorem exec_readClear (addr : BitVec 26) (wide : Bool) (s : State) :
    exec (.readClear addr wide) s = .next (emitRead (hostRead s addr.toNat wide)) := rfl

/-- A 32-bit read of a plain register. -/
theorem readClear_register {s : State} {addr : BitVec 26} {a : Nat} (ha : a = addr.toNat) (hal : a % 4 = 0)
    (hne : fieldsAt a ≠ []) (hown : ownRead a = false) (hwin : windowWord s a = none) :
    Completes (exec (.readClear addr false) s) fun t =>
      t.out = s.out ++ [.readData (BitVec.ofNat 64
        (((fieldsAt a).map fun e => if e.1.acc = .wo then 0 else rd s e.1 e.2 * 2 ^ e.1.lsb).sum))] ∧
      (∀ e ∈ fieldsAt a, rd t e.1 e.2 = if e.1.acc = .rc then e.1.resetAt e.2 else rd s e.1 e.2) ∧
      FieldsBut s t ((fieldsAt a).filter fun e => e.1.acc = .rc) ∧ { t with flds := s.flds, out := s.out } = s := by
  have hread : exec (.readClear addr false) s =
      .next (emit (readClear s (fieldsAt a)) (.readData (BitVec.ofNat 64 (readFields s (fieldsAt a))))) := by
    rw [exec_readClear, ← ha, hostRead_aligned hal, readHalf_eq_fields hne hown hwin, emitRead]
  obtain ⟨t, ht⟩ := setFields_frame clearsTo s (fieldsAt a)
  rw [← readClear_eq_setFields] at ht
  refine ⟨_, hread, ?_⟩
  simp only [emit_out, rd_emit, fieldsBut_emit, ← readFields_eq_sum]
  refine ⟨?_, fun e he => rd_readClear_mem he, readClear_fieldsBut s _, ?_⟩
  · rw [ht]
  · rw [ht, emit]

theorem hostRead_wide {s t u : State} {a x y : Nat} (ha : a % 4 = 0) (hlo : readHalf s a = (x, t))
    (hhi : readHalf t (a + 4) = (y, u)) : hostRead s a true = (x + 2 ^ 32 * y, u) := by
  simp [hostRead, ha, hlo, hhi]

/-- A 64-bit read is two 32-bit reads, the lower address first. -/
theorem readClear_wide {s t u : State} {addr : BitVec 26} {x y : Nat} (hal : addr.toNat % 4 = 0)
    (hlo : hostRead s addr.toNat false = (x, t)) (hhi : hostRead t (addr.toNat + 4) false = (y, u)) :
    exec (.readClear addr true) s = .next (emit u (.readData (BitVec.ofNat 64 (x + 2 ^ 32 * y)))) := by
  rw [hostRead_aligned hal] at hlo
  rw [hostRead_aligned (by omega)] at hhi
  rw [exec_readClear, hostRead_wide hal hlo hhi, emitRead]

/-- A 64-bit write is two 32-bit writes, the lower address first. -/
theorem registerWrite_wide {s t : State} {addr : BitVec 26} {v : BitVec 64} (hal : addr.toNat % 4 = 0)
    (hlt : addr.toNat + 4 < 2 ^ 26) (hlo : exec (.registerWrite addr false v) s = .next t) :
    exec (.registerWrite addr true v) s = exec (.registerWrite (addr + 4) false (v >>> 32)) t := by
  have hhi : (addr + 4).toNat = addr.toNat + 4 := by bv_omega
  rw [exec_registerWrite, hostWrite_aligned hal] at hlo
  rw [exec_registerWrite, exec_registerWrite, hhi, hostWrite_aligned (by omega), hostWrite_wide hal,
    Host.Outcome.next.inj hlo]

/-! ### Latches of low words -/

/-- Two fields written one after the other. -/
theorem rd_wr_wr {lo hi : Field} (h : lo.key 0 ≠ hi.key 0) (s : State) (u v : Nat) :
    rd (wr (wr s lo u) hi v) lo = u % 2 ^ lo.width ∧ rd (wr (wr s lo u) hi v) hi = v % 2 ^ hi.width :=
  ⟨(rd_wr_ne h _ _).trans (rd_wr_same _ _ _ _), rd_wr_same _ _ _ _⟩

/-- TIME_LO_READ of the time (R44): the low word is put out and its high word latched of the same value. -/
theorem timeLoRead_time (s : State) :
    Completes (exec (.timeLoRead false) s) fun t =>
      t.out = s.out ++ [.readData (BitVec.ofNat 64 (s.tb.now % 2 ^ 32))] ∧
      rd t Reg.TBC_TIME_LO_TIME = s.tb.now % 2 ^ 32 ∧ rd t Reg.TBC_TIME_HI_TIME = s.tb.now / 2 ^ 32 % 2 ^ 32 := by
  exact ⟨_, rfl, rfl, rd_wr_wr (by decide) _ _ _⟩

/-- TIME_LO_READ of the tick number. -/
theorem timeLoRead_tickno (s : State) :
    Completes (exec (.timeLoRead true) s) fun t =>
      t.out = s.out ++ [.readData (BitVec.ofNat 64 (s.tb.tick % 2 ^ 32))] ∧
      rd t Reg.TBC_TICKNO_LO_TICKNO = s.tb.tick % 2 ^ 32 ∧
      rd t Reg.TBC_TICKNO_HI_TICKNO = s.tb.tick / 2 ^ 32 % 2 ^ 32 := by
  exact ⟨_, rfl, rfl, rd_wr_wr (by decide) _ _ _⟩

/-- The low word of a 64-bit counter as it is put out. -/
theorem ofNat_low_word (w : BitVec 64) : BitVec.ofNat 64 (w.toNat % 2 ^ 32) = w % 2 ^ 32 := by
  apply BitVec.eq_of_toNat_eq
  rw [BitVec.toNat_ofNat, BitVec.toNat_umod]
  have := w.isLt
  exact Nat.mod_eq_of_lt (by omega)

theorem high_word_mod (w : BitVec 64) : w.toNat / 2 ^ 32 % 2 ^ 32 = w.toNat / 2 ^ 32 :=
  Nat.mod_eq_of_lt (by have := w.isLt; omega)

/-- PERF_LO_READ (R44, R174): the low word of the counter is put out and its high word latched. -/
theorem perfLoRead_latches (s : State) (cyc : Bool) {w : BitVec 64} {f : Field}
    (hw : w = if cyc then s.lsv.cyc else s.lsv.flop)
    (hf : f = if cyc then Reg.LSV_PERF_CYC_HI_CYC else Reg.LSV_PERF_FLOP_HI_FLOP) :
    Completes (exec (.perfLoRead cyc) s) fun t =>
      t.out = s.out ++ [.readData (w % 2 ^ 32)] ∧ rd t f = w.toNat / 2 ^ 32 := by
  have hwidth : f.width = 32 := by cases cyc <;> exact hf ▸ rfl
  refine ⟨emit (wr s f (w.toNat / 2 ^ 32)) (.readData (w % 2 ^ 32)), ?_, rfl, ?_⟩
  · rw [← ofNat_low_word, hw, hf]; rfl
  · exact (rd_wr_same s f 0 _).trans (by rw [hwidth, high_word_mod])

/-- The calendar registers that are latched after the two words of the count. -/
def calendarFields : List Field :=
  [Reg.TBC_RTCSUB_SUB, Reg.TBC_RTCDATE_YEAR, Reg.TBC_RTCDATE_MONTH, Reg.TBC_RTCDATE_DAY, Reg.TBC_RTCDATE_WDAY,
    Reg.TBC_RTCTIME_SEC, Reg.TBC_RTCTIME_MIN, Reg.TBC_RTCTIME_HOUR]

/-- A field outside a list of fields written in turn keeps its value. -/
theorem rd_foldl_wr_ne {f : Field} {fs : List Field} (h : ∀ g ∈ fs, f.key 0 ≠ g.key 0) {l : List (Field × Nat)}
    (hl : l.map Prod.fst = fs) (s : State) : rd (l.foldl (fun s e => wr s e.1 e.2) s) f = rd s f := by
  subst hl
  induction l generalizing s with
  | nil => rfl
  | cons e l ih =>
    obtain ⟨he, hrest⟩ := List.forall_mem_cons.1 h
    exact (ih _ hrest).trans (rd_wr_ne he _ _)

theorem out_foldl_wr (l : List (Field × Nat)) (s : State) : (l.foldl (fun s e => wr s e.1 e.2) s).out = s.out := by
  induction l generalizing s with
  | nil => rfl
  | cons e l ih => exact ih _

/-- The two words of the count are latched first, then the calendar. -/
theorem latchRtc_eq (s : State) : ∃ l : List (Field × Nat), l.map Prod.fst = calendarFields ∧
    latchRtc s =
      ((Reg.TBC_RTCCNT_LO_CNT, s.rtc.secs % 2 ^ 32) :: (Reg.TBC_RTCCNT_HI_CNT, s.rtc.secs / 2 ^ 32) :: l).foldl
        (fun s e => wr s e.1 e.2) (countSub s) := by
  refine ⟨_, ?_, by unfold latchRtc; rfl⟩
  rfl

theorem latchRtc_out (s : State) : (latchRtc s).out = s.out := by
  obtain ⟨l, -, hlatch⟩ := latchRtc_eq s
  rw [hlatch, out_foldl_wr]
  rfl

/-- The two words latched are those of the count. -/
theorem latchRtc_count (s : State) :
    rd (latchRtc s) Reg.TBC_RTCCNT_LO_CNT = s.rtc.secs % 2 ^ 32 ∧
      rd (latchRtc s) Reg.TBC_RTCCNT_HI_CNT = s.rtc.secs / 2 ^ 32 % 2 ^ Reg.TBC_RTCCNT_HI_CNT.width := by
  obtain ⟨l, hl, hlatch⟩ := latchRtc_eq s
  rw [hlatch, List.foldl_cons, List.foldl_cons, rd_foldl_wr_ne (by decide) hl, rd_foldl_wr_ne (by decide) hl]
  obtain ⟨hlo, hhi⟩ := rd_wr_wr (lo := Reg.TBC_RTCCNT_LO_CNT) (hi := Reg.TBC_RTCCNT_HI_CNT) (by decide) (countSub s)
    (s.rtc.secs % 2 ^ 32) (s.rtc.secs / 2 ^ 32)
  exact ⟨hlo.trans (Nat.mod_mod _ _), hhi⟩

/-- RTCCNT_LO_READ (R369): the low word of the calendar count is put out and every calendar register latched. -/
theorem rtccntLoRead_latches (s : State) :
    Completes (exec .rtccntLoRead s) fun t =>
      t.out = s.out ++ [.readData (BitVec.ofNat 64 (rd t Reg.TBC_RTCCNT_LO_CNT))] ∧
      rd t Reg.TBC_RTCCNT_LO_CNT = s.rtc.secs % 2 ^ 32 ∧
      rd t Reg.TBC_RTCCNT_HI_CNT = s.rtc.secs / 2 ^ 32 % 2 ^ Reg.TBC_RTCCNT_HI_CNT.width := by
  obtain ⟨hlo, hhi⟩ := latchRtc_count s
  refine ⟨emit (latchRtc s) (.readData (BitVec.ofNat 64 (rd (latchRtc s) Reg.TBC_RTCCNT_LO_CNT))), rfl, ?_⟩
  simp only [rd_emit, emit_out, latchRtc_out]
  exact ⟨trivial, hlo, hhi⟩

/-- Settles O23: a plain read puts out the fields and clears the RC ones, wide accesses are two narrow ones, and a low
word is put out with its high word latched. -/
theorem registerReads : Obligations.RegisterReads := by
  refine ⟨?_, fun s => ⟨timeLoRead_time s, timeLoRead_tickno s, perfLoRead_latches s false rfl rfl,
    perfLoRead_latches s true rfl rfl, rtccntLoRead_latches s⟩⟩
  rintro s addr a rfl hal
  refine ⟨?_, fun _ x y t u hlo hhi => readClear_wide hal hlo hhi, fun hlt v t hlo => registerWrite_wide hal hlt hlo⟩
  rintro l rfl hne hown hwin
  exact readClear_register rfl hal hne hown hwin

end Sys2Proof.Machine
end

section
/-! SUPPORT. The System Supervisor is left alone by what the other units do on a change of facet, program or store: the
frame that the mode transitions need. -/

namespace Sys2Proof.Machine

/-! ### Choices and folds -/

/-- A choice keeps what both of its sides keep. -/
theorem ite_keeps {β : Type} {p : State → β} {c : Prop} [Decidable c] {x : β} {s t : State} (hs : p s = x)
    (ht : p t = x) : p (if c then s else t) = x := by
  split
  · exact hs
  · exact ht

/-- A choice keeps the waiting mode command when both of its sides do. -/
theorem ite_cmd {c : Prop} [Decidable c] {x : Option ModeCmd} {s t : State} (hs : s.ssu.cmd = x) (ht : t.ssu.cmd = x) :
    (if c then s else t).ssu.cmd = x :=
  ite_keeps (p := (·.ssu.cmd)) hs ht

theorem ite_ssu (c : Prop) [Decidable c] (s t : State) : (if c then s else t).ssu = if c then s.ssu else t.ssu :=
  apply_ite State.ssu c s t

/-- A fold keeps what each of its steps keeps. -/
theorem foldl_keeps {α β : Type} (p : State → β) {f : State → α → State} (h : ∀ s x, p (f s x) = p s) (l : List α)
    (s : State) : p (l.foldl f s) = p s := by
  induction l generalizing s with
  | nil => rfl
  | cons x l ih => exact (ih _).trans (h s x)

theorem foldl_ssu {α : Type} {f : State → α → State} (h : ∀ s x, (f s x).ssu = s.ssu) (l : List α) (s : State) :
    (l.foldl f s).ssu = s.ssu := foldl_keeps State.ssu h l s

/-! ### Output, agreement and the Vertex offload -/

@[simp] theorem msix_ssu (s : State) (v : Nat) : (msix s v).ssu = s.ssu := by
  simp [msix, ite_ssu]

@[simp] theorem sendChord_ssu (s : State) (l : Option (Fin 2)) (k : Nat) (late : Bool) (b : ChordBody) :
    (sendChord s l k late b).ssu = s.ssu := rfl

@[simp] theorem submit_ssu (s : State) (stamp source ident : Nat) (b : InBody) :
    (submit s stamp source ident b).ssu = s.ssu := by
  simp [submit, ite_ssu]

@[simp] theorem linkChange_ssu (s : State) (r : Resource) : (linkChange s r).ssu = s.ssu := submit_ssu _ _ _ _ _

@[simp] theorem ringPut_ssu (s : State) (e : REntry) : (ringPut s e).ssu = s.ssu := by
  simp [ringPut, ite_ssu]

@[simp] theorem setCtx_ssu (s : State) (v : Nat) (c : Ctx) : (setCtx s v c).ssu = s.ssu := rfl

@[simp] theorem writeRun_ssu (s : State) (v : Nat) (c : Ctx) (r : DelRun) : (writeRun s v c r).ssu = s.ssu :=
  ringPut_ssu _ _

@[simp] theorem endCopy_ssu (s : State) (v : Nat) (seq : BitVec 32) (code rsn : Nat) :
    (endCopy s v seq code rsn).ssu = s.ssu := by
  unfold endCopy
  split
  · rfl
  · dsimp only
    split <;> simp [ite_ssu]

@[simp] theorem endCopies_ssu (s : State) (v code rsn : Nat) : (endCopies s v code rsn).ssu = s.ssu := by
  unfold endCopies
  split
  · rfl
  · exact foldl_ssu (fun _ _ => endCopy_ssu _ _ _ _ _) _ _

@[simp] theorem showCtx_ssu (s : State) (v : Nat) : (showCtx s v).ssu = s.ssu := by
  unfold showCtx
  split <;> rfl

@[simp] theorem endLink_ssu (s : State) (l : Link) (code rsn : Nat) : (endLink s l code rsn).ssu = s.ssu :=
  foldl_ssu (fun _ _ => by simp) _ _

/-! ### Ports and PTP -/

@[simp] theorem showPort_ssu (s : State) (p : Fin 16) : (showPort s p).ssu = s.ssu := rfl

@[simp] theorem showPtp_ssu (s : State) (p : Fin 16) : (showPtp s p).ssu = s.ssu := rfl

@[simp] theorem ptpLost_ssu (s : State) : (ptpLost s).ssu = s.ssu := by
  unfold ptpLost
  exact ite_keeps rfl rfl

@[simp] theorem portDown_ssu (s : State) (p : Fin 16) : (portDown s p).ssu = s.ssu := by
  simp [portDown, ite_ssu]

@[simp] theorem npcFacet_ssu (s : State) (old : Option Facet) : (npcFacet s old).ssu = s.ssu := by
  refine foldl_ssu (fun s p => ?_) _ _
  dsimp only
  split <;> simp [apply_ite (fun t : State => t.ssu), apply_ite (fun t : State => showPtp t p)]

/-! ### Field buses -/

@[simp] theorem setCtl_ssu (s : State) (n : Fin 24) (c : Ctl) : (setCtl s n c).ssu = s.ssu := rfl

@[simp] theorem setDepth_ssu (s : State) (n : Fin 24) : (setDepth s n).ssu = s.ssu := rfl

@[simp] theorem showFbc_ssu (s : State) : (showFbc s).ssu = s.ssu := by
  unfold showFbc
  rfl

@[simp] theorem showCtl_ssu (s : State) (n : Fin 24) : (showCtl s n).ssu = s.ssu := showFbc_ssu _

@[simp] theorem choose_ssu (s : State) (n : Fin 24) : (choose s n).ssu = s.ssu := rfl

@[simp] theorem freeWire_ssu (s : State) (n : Fin 24) : (freeWire s n).ssu = s.ssu := rfl

@[simp] theorem endTx_ssu (s : State) (n : Fin 24) (b : Fin 3) (code rsn : Nat) :
    (endTx s n b code rsn).ssu = s.ssu := by
  unfold endTx
  generalize txFields b = fs
  obtain ⟨cc, rs, pend, retries, ts⟩ := fs
  dsimp only
  split <;> rfl

@[simp] theorem endAllTx_ssu (s : State) (n : Fin 24) (code rsn : Nat) : (endAllTx s n code rsn).ssu = s.ssu :=
  (setDepth_ssu _ _).trans <| (setCtl_ssu _ _ _).trans <| foldl_ssu (fun _ _ => endTx_ssu _ _ _ _ _) _ _

@[simp] theorem loadTb_ssu (s : State) (n : Fin 24) (b : Fin 3) (r : TxReq) : (loadTb s n b r).ssu = s.ssu := by
  simp [loadTb, ite_ssu]

@[simp] theorem loadHead_ssu (s : State) (n : Fin 24) : (loadHead s n).ssu = s.ssu := by
  unfold loadHead
  dsimp only
  split
  · simp [ite_ssu]
  · rfl

@[simp] theorem loadQueue_ssu (s : State) (n : Fin 24) : (loadQueue s n).ssu = s.ssu := by
  simp [loadQueue]

@[simp] theorem afterTx_ssu (s : State) (n : Fin 24) : (afterTx s n).ssu = s.ssu := by
  simp [afterTx, ite_ssu]

@[simp] theorem probeOutcome_ssu (s : State) (n : Fin 24) (o m : Nat) : (probeOutcome s n o m).ssu = s.ssu := by
  simp [probeOutcome]

@[simp] theorem sendProbe_ssu (s : State) (n : Fin 24) (b : BusRec) : (sendProbe s n b).ssu = s.ssu := by
  simp [sendProbe, ite_ssu]

@[simp] theorem startBus_ssu (s : State) (n : Fin 24) : (startBus s n).ssu = s.ssu := by
  unfold startBus
  dsimp only
  split <;> simp [ite_ssu]

@[simp] theorem takeBus_ssu (s : State) (n : Fin 24) (b : BusRec) : (takeBus s n b).ssu = s.ssu := by
  unfold takeBus
  extract_lets c was dropHost u changed c' c'' v w
  have hu : u.ssu = s.ssu := ite_keeps (endTx_ssu _ _ _ _ _) rfl
  have hv : v.ssu = u.ssu := showCtl_ssu _ _
  have hw : w.ssu = u.ssu := ite_keeps hv ((linkChange_ssu _ _).trans hv)
  exact (ite_keeps (startBus_ssu _ _) (afterTx_ssu _ _)).trans (hw.trans hu)

@[simp] theorem applyBus_ssu (s : State) (n : Fin 24) (b : BusRec) : (applyBus s n b).ssu = s.ssu := by
  unfold applyBus
  extract_lets c was u c' v w x waits
  have hu : u.ssu = s.ssu := ite_keeps ((endLink_ssu _ _ _ _).trans (endAllTx_ssu _ _ _ _)) rfl
  have hx : x.ssu = s.ssu := (showCtl_ssu _ _).trans hu
  exact ite_keeps (ite_keeps ((linkChange_ssu _ _).trans hx) hx) (ite_keeps rfl (takeBus_ssu _ _ _))

@[simp] theorem fbcFacet_ssu (s : State) (f : Facet) : (fbcFacet s f).ssu = s.ssu := by
  refine foldl_ssu (fun s n => ?_) _ _
  split
  · exact applyBus_ssu _ _ _
  · rfl

/-! ### Metering -/

@[simp] theorem setChan_ssu (s : State) (c : Nat) (x : Chan) : (setChan s c x).ssu = s.ssu := rfl

@[simp] theorem setChanState_ssu (s : State) (c : Nat) (m : MState) : (setChanState s c m).ssu = s.ssu := rfl

@[simp] theorem produce_ssu (s : State) (p : Nat) (v : Word) (q : Qual) : (produce s p v q).ssu = s.ssu := rfl

@[simp] theorem ringLatch_ssu (s : State) (r : LatchRec) : (ringLatch s r).ssu = s.ssu := by
  simp [ringLatch, ite_ssu]

@[simp] theorem writeLatch_ssu (s : State) (r : LatchRec) : (writeLatch s r).ssu = s.ssu := by
  simp [writeLatch, ite_ssu]

@[simp] theorem decideLatch_ssu (s : State) (r : LatchRec) (bits : Nat) : (decideLatch s r bits).ssu = s.ssu := by
  simp [decideLatch, ite_ssu]

@[simp] theorem pairPasses_ssu (s : State) (thermal : Bool) (a b : Option (List Nat)) :
    (pairPasses s thermal a b).2.ssu = s.ssu := by
  unfold pairPasses
  split <;> rfl

@[simp] theorem offerLatch_ssu (s : State) (w : LatchWait) : (offerLatch s w).ssu = s.ssu := by
  unfold offerLatch
  extract_lets u
  have hu : u.ssu = s.ssu := ite_keeps rfl rfl
  refine ite_keeps ((decideLatch_ssu _ _ _).trans hu) ?_
  split
  · exact (decideLatch_ssu _ _ _).trans ((pairPasses_ssu _ _ _ _).trans hu)
  · exact hu

@[simp] theorem postMeter_ssu (s : State) (stamp chan : Nat) (l : List (Nat × Word × Qual))
    (n : List (Nat × BitVec 64)) : (postMeter s stamp chan l n).ssu = s.ssu := by
  unfold postMeter
  split <;> simp

@[simp] theorem closeInterval_ssu (s : State) (c fin bits : Nat) : (closeInterval s c fin bits).ssu = s.ssu := by
  unfold closeInterval
  dsimp only
  split <;> simp

@[simp] theorem restartFilters_ssu (s : State) : (restartFilters s).ssu = s.ssu := by
  refine foldl_ssu (fun s f => ?_) _ _
  rw [ite_ssu, foldl_ssu fun s k => ?_]
  · simp
  · split <;> rfl

@[simp] theorem meterFields_ssu (s : State) (m : MeterCfg) : (meterFields s m).ssu = s.ssu := rfl

@[simp] theorem meterStates_ssu (s : State) : (meterStates s).ssu = s.ssu := by
  refine (foldl_ssu (fun s i => ?_) _ _).trans (foldl_ssu (fun s c => ?_) _ _) <;> simp [ite_ssu]

/-- What a retired source shows: each of its points takes the quality RETIRED. -/
theorem retirePoints_ssu (s : State) (a n : Nat) : ((List.range n).foldl (fun s k =>
      let p := ptBase s + a + k
      let v := (tget s.csa.img p).getD freshPoint
      if v.qual = .retired then s else produce s p v.value .retired) s).ssu = s.ssu :=
  foldl_ssu (fun _ _ => by dsimp only; split <;> rfl) _ _

@[simp] theorem showRetired_ssu (s : State) : (showRetired s).ssu = s.ssu := by
  unfold showRetired
  extract_lets ret u
  have hu : u.ssu = s.ssu := foldl_ssu (fun _ _ => ite_keeps (retirePoints_ssu _ _ _) rfl) _ _
  exact ite_keeps rfl (ite_keeps ((retirePoints_ssu _ _ _).trans hu) hu)

@[simp] theorem meterFacet_ssu (old : Option Facet) (s : State) : (meterFacet old s).ssu = s.ssu := by
  unfold meterFacet
  split
  · rfl
  · simp only [showRetired_ssu, meterStates_ssu, ite_ssu, restartFilters_ssu, meterFields_ssu, ite_self]
    exact foldl_ssu (fun _ _ => by simp [ite_ssu]) _ _

/-! ### Loops and sequencers -/

@[simp] theorem showLoop_ssu (s : State) (n : Nat) (w : Wire) : (showLoop s n w).ssu = s.ssu := rfl

@[simp] theorem showLoops_ssu (s : State) : (showLoops s).ssu = s.ssu :=
  foldl_ssu (fun _ _ => showLoop_ssu _ _ _) _ _

@[simp] theorem lpeFacet_ssu (old : Option Facet) (s : State) : (lpeFacet old s).ssu = s.ssu := by
  refine (showLoops_ssu _).trans (foldl_ssu (fun s n => ?_) _ _)
  refine ite_keeps rfl ?_
  split
  · rfl
  · refine ite_keeps (ite_keeps ?_ rfl) rfl
    split <;> rfl

@[simp] theorem mapTask_ssu (s : State) (t : TaskEntry) (n : Nat) : (mapTask s t n).ssu = s.ssu := by
  unfold mapTask
  exact ite_keeps (p := State.ssu) rfl rfl

@[simp] theorem setSpares_ssu (s : State) : (setSpares s).ssu = s.ssu := rfl

@[simp] theorem suspendLogical_ssu (s : State) (l : Nat) : (suspendLogical s l).ssu = s.ssu := by
  unfold suspendLogical
  extract_lets ts u
  have hu : u.ssu = s.ssu := by
    refine foldl_ssu (fun s e => ?_) _ _
    exact ite_keeps rfl rfl
  exact (event_ssu _ _ _ _).trans hu

@[simp] theorem mapSequencers_ssu (s : State) : (mapSequencers s).ssu = s.ssu := by
  unfold mapSequencers
  split
  · rfl
  · rw [setSpares_ssu, foldl_ssu, foldl_ssu, foldl_ssu]
    case h =>
      refine fun s q => ite_keeps rfl ?_
      dsimp only
      split <;> exact ite_keeps (p := State.ssu) rfl rfl
    case h => exact fun _ _ => mapTask_ssu _ _ _
    case h => exact fun _ _ => ite_keeps (suspendLogical_ssu _ _) rfl

/-! ### What an unended copy had put in force -/

@[simp] theorem putHalf_ssu (s : State) (h : Nat) (p : Option Program) : (putHalf s h p).ssu = s.ssu :=
  ite_keeps rfl rfl

@[simp] theorem setMaxAge_ssu (s : State) (p : Program) : (setMaxAge s p).ssu = s.ssu := by
  refine foldl_ssu (fun s e => ?_) _ _
  rfl

@[simp] theorem putActive_ssu (s : State) (f : Option Facet) : (putActive s f).ssu = s.ssu := rfl

@[simp] theorem restoreBanks_ssu (s : State) : (restoreBanks s).ssu = s.ssu := by
  refine foldl_ssu (fun s n => ?_) _ _
  split <;> rfl

/-! ### The waiting mode command under a write to the store

A write to the store may report to a service command, so the part that stays is the mode command. -/

@[simp] theorem setQueue_ssu (s : State) (l : List WriteReq) : (setQueue s l).ssu = s.ssu := rfl

@[simp] theorem nvsFail_ssu (s : State) (cls code reason : Nat) : (nvsFail s cls code reason).ssu = s.ssu :=
  ite_keeps rfl rfl

@[simp] theorem slotWritten_ssu (s : State) (code : Nat) (prog : Bool) : (slotWritten s code prog).ssu = s.ssu := by
  simp [slotWritten, ite_ssu]

@[simp] theorem calWritten_ssu (s : State) (code reason : Nat) : (calWritten s code reason).ssu = s.ssu := by
  unfold calWritten
  refine ite_keeps ?_ rfl
  dsimp only
  split
  · rfl
  · exact ite_keeps rfl rfl

@[simp] theorem noShadow_ssu (s : State) : (noShadow s).ssu = s.ssu := rfl

theorem nvsReport_cmd (s : State) (cls : Nat) (who : Requester) (code reason : Nat) :
    (nvsReport s cls who code reason).ssu.cmd = s.ssu.cmd := by
  have h : (nvsFail s cls code reason).ssu.cmd = s.ssu.cmd := by rw [nvsFail_ssu]
  cases who with
  | prepare => simp [nvsReport, ite_ssu]
  | slotProg | slotFacet => exact (congrArg SsuSt.cmd (slotWritten_ssu _ _ _)).trans h
  | clearRetire | claim => exact ite_cmd h h
  | cal => exact (congrArg SsuSt.cmd (calWritten_ssu _ _ _)).trans h
  | _ => exact h

theorem nvsRequest_cmd (s : State) (r : WriteReq) : (nvsRequest s r).ssu.cmd = s.ssu.cmd := by
  unfold nvsRequest
  refine ite_cmd (nvsReport_cmd _ _ _ _ _) <| ite_cmd (nvsReport_cmd _ _ _ _ _) ?_
  split
  · exact nvsReport_cmd _ _ _ _ _
  · exact ite_cmd (nvsReport_cmd _ _ _ _ _) rfl

theorem nvsSave_cmd (s : State) (cls : Nat) (d : RecData) (who : Requester) (n : Nat) :
    (nvsSave s cls d who n).ssu.cmd = s.ssu.cmd := nvsRequest_cmd _ _

theorem releaseForces_cmd (s : State) (l : List Force) (rel : List (Nat × Nat)) :
    (releaseForces s l rel).ssu.cmd = s.ssu.cmd := by
  unfold releaseForces
  extract_lets u v
  have hv : v.ssu.cmd = s.ssu.cmd := ite_cmd rfl (nvsSave_cmd _ _ _ _ _)
  have hfold : (rel.foldl (fun s e => event s Ev.forceReleased .notice [e.1, e.2]) v).ssu = v.ssu :=
    foldl_ssu (fun _ _ => event_ssu _ _ _ _) _ _
  rw [hfold, hv]

theorem restoreForces_cmd (s : State) : (restoreForces s).ssu.cmd = s.ssu.cmd := releaseForces_cmd _ _ _

/-- Forgetting a copy that is not in force changes nothing; one in force is undone on a state with the same supervisor:
the sequencers are mapped, and the forces and banks restored last (R317, R436). -/
theorem restoreOwn_cases (s : State) : restoreOwn s = s ∨
    ∃ u, u.ssu = s.ssu ∧ restoreOwn s = restoreBanks (restoreForces (mapSequencers u)) := by
  by_cases h : s.rdu.applied = true
  · refine .inr ⟨_, ?_, if_pos h⟩
    split <;> split <;> simp
  · exact .inl (if_neg h)

/-- Forgetting an unended copy leaves the waiting mode command. -/
theorem restoreOwn_cmd (s : State) : (restoreOwn s).ssu.cmd = s.ssu.cmd := by
  rcases restoreOwn_cases s with h | ⟨u, hu, h⟩
  · rw [h]
  · rw [h, restoreBanks_ssu, restoreForces_cmd, mapSequencers_ssu, hu]

end Sys2Proof.Machine
end

section
/-! SUPPORT. The mode (R12) and the mode command register (R18): what keeps them, what a transition leaves in them, and
the transition an edge takes (R17, Table 1.4). -/

namespace Sys2Proof.Machine

/-! ### The mode -/

theorem modeIs_ssu (s : State) (x : SsuSt) : modeIs { s with ssu := x } = modeIs s := rfl

theorem modeIs_wr {f : Field} {i : Nat} (h : Reg.SSU_MODE_MODE.key 0 ≠ f.key i) (s : State) (v : Nat) :
    modeIs (wr s f v i) = modeIs s := congrArg modeOf (rd_wr_ne h s v)

theorem modeIs_wrB {f : Field} {i : Nat} (h : Reg.SSU_MODE_MODE.key 0 ≠ f.key i) (s : State) (b : Bool) :
    modeIs (wrB s f b i) = modeIs s := modeIs_wr h s _

theorem modeIs_event (s : State) (code : Nat) (sev : Sev) (ps : List Nat) :
    modeIs (event s code sev ps) = modeIs s :=
  congrArg modeOf (event_rdIn s code sev ps (evrKeys_of_id (by decide) (by decide) (by decide) (by decide)))

theorem modeIs_setMode (s : State) (m : Mode) : modeIs (setMode s m) = m := by
  unfold modeIs setMode
  rw [rd_wr_same]
  cases m <;> rfl

theorem modeIs_setStatus {cc rsn pend : Field} {i : Nat} (s : State) (code reason : Nat)
    (hcc : Reg.SSU_MODE_MODE.key 0 ≠ cc.key i) (hrsn : Reg.SSU_MODE_MODE.key 0 ≠ rsn.key i)
    (hpend : Reg.SSU_MODE_MODE.key 0 ≠ pend.key i) : modeIs (setStatus s cc rsn pend code reason i) = modeIs s := by
  unfold setStatus
  rw [modeIs_wr hpend, modeIs_wr hrsn, modeIs_wr hcc]

theorem modeIs_showCsc (s : State) : modeIs (showCsc s) = modeIs s := by
  unfold showCsc
  rw [modeIs_wr (by decide), modeIs_wrB (by decide), modeIs_wr (by decide), modeIs_wr (by decide)]

theorem modeIs_showRdu (s : State) : modeIs (showRdu s) = modeIs s := by
  unfold showRdu
  extract_lets dead q old new u v w
  have hw : modeIs w = modeIs s := by
    rw [modeIs_wrB (by decide), modeIs_wrB (by decide), modeIs_wr (by decide), modeIs_wr (by decide),
      modeIs_wr (by decide)]
  exact ite_keeps ((modeIs_event _ _ _ _).trans hw) hw

theorem modeIs_reparent (s : State) : modeIs (reparent s) = modeIs s := rfl

/-- What a transition shows leaves the mode. -/
theorem modeIs_shown (s : State) : modeIs (shown s) = modeIs s :=
  (modeIs_reparent _).trans <| (modeIs_showCsc _).trans (modeIs_showRdu s)

theorem modeIs_sendChord (s : State) (l : Option (Fin 2)) (k : Nat) (late : Bool) (b : ChordBody) :
    modeIs (sendChord s l k late b) = modeIs s := rfl

theorem modeIs_holdClaim (s : State) (c : Option (BitVec 32)) : modeIs (holdClaim s c) = modeIs s := by
  have hw : ∀ u : State, u.flds = s.flds → modeIs (wrB u Reg.RDU_STATUS_HELD c.isSome) = modeIs s := fun u hu =>
    (modeIs_wrB (by decide) u _).trans (congrArg (fun f => modeOf (rdIn f Reg.SSU_MODE_MODE 0)) hu)
  unfold holdClaim
  cases c with
  | none => exact hw _ rfl
  | some x => exact ite_keeps ((modeIs_sendChord _ _ _ _ _).trans (hw _ rfl)) (hw _ rfl)

/-! ### The end of a mode command -/

@[simp] theorem modeEnd_cmd (s : State) (code rsn : Nat) : (modeEnd s code rsn).ssu.cmd = none := rfl

@[simp] theorem modeEnd_rdu (s : State) (code rsn : Nat) : (modeEnd s code rsn).rdu = s.rdu := rfl

theorem modeIs_modeEnd (s : State) (code rsn : Nat) : modeIs (modeEnd s code rsn) = modeIs s :=
  modeIs_setStatus _ _ _ (by decide) (by decide) (by decide)

/-- A mode command that ends shows its code and reason, and pends no more. -/
theorem modeEnd_reads (s : State) (code rsn : Nat) :
    rd (modeEnd s code rsn) Reg.SSU_MODE_LASTCC = code % 2 ^ Reg.SSU_MODE_LASTCC.width ∧
      rd (modeEnd s code rsn) Reg.SSU_MODE_LASTRSN = rsn % 2 ^ Reg.SSU_MODE_LASTRSN.width ∧
      rd (modeEnd s code rsn) Reg.SSU_MODE_PEND = 0 :=
  setStatus_reads _ _ _ (by decide) (by decide) (by decide)

theorem dropCmd_cmd (s : State) : (dropCmd s).ssu.cmd = none := by
  unfold dropCmd
  split
  · rfl
  · exact Option.not_isSome_iff_eq_none.1 ‹_›

theorem dropCmd_rdu (s : State) : (dropCmd s).rdu = s.rdu := ite_keeps rfl rfl

theorem modeIs_dropCmd (s : State) : modeIs (dropCmd s) = modeIs s := ite_keeps (modeIs_modeEnd _ _ _) rfl

theorem dropCmd_of_isSome {s : State} (h : s.ssu.cmd.isSome = true) :
    dropCmd s = modeEnd s CC.failRefused Rsn.modeBusy := if_pos h

/-! ### A role swap that is dropped -/

@[simp] theorem dropSwap_ssu (s : State) : (dropSwap s).ssu = s.ssu := by
  unfold dropSwap
  split
  · exact ite_keeps rfl rfl
  · rfl

theorem dropSwap_swapEdge (s : State) : (dropSwap s).rdu.swapEdge = none := by
  unfold dropSwap
  split
  · exact ite_keeps (p := fun s => s.rdu.swapEdge) rfl rfl
  · assumption

theorem modeIs_dropSwap (s : State) : modeIs (dropSwap s) = modeIs s := by
  unfold dropSwap
  split
  · exact ite_keeps (modeIs_setStatus _ _ _ (by decide) (by decide) (by decide)) rfl
  · rfl

/-! ### Entry to SAFEHOLD and HALT -/

@[simp] theorem disarm_ssu (s : State) (code rsn st : Nat) : (disarm s code rsn st).ssu = s.ssu := rfl

@[simp] theorem putShadow_ssu (s : State) (f : Option Facet) : (putShadow s f).ssu = s.ssu := rfl

@[simp] theorem disarmSwap_ssu (s : State) (code rsn st : Nat) : (disarmSwap s code rsn st).ssu = s.ssu := by
  have h : (if st = 0 then putShadow s none else s).ssu = s.ssu := ite_keeps (putShadow_ssu _ _) rfl
  exact h

@[simp] theorem endArmed_ssu (s : State) (code rsn st : Nat) : (endArmed s code rsn st).ssu = s.ssu := by
  unfold endArmed
  extract_lets open_ u
  have hu : u.ssu = s.ssu := ite_keeps (disarm_ssu _ _ _ _) rfl
  exact ite_keeps ((disarmSwap_ssu _ _ _ _).trans hu) hu

@[simp] theorem clearRoles_ssu (s : State) : (clearRoles s).ssu = s.ssu := dropSwap_ssu s

@[simp] theorem setMode_ssu (s : State) (m : Mode) : (setMode s m).ssu = s.ssu := by
  unfold setMode
  exact ite_keeps (p := State.ssu) rfl (ite_keeps rfl rfl)

@[simp] theorem reparent_ssu (s : State) : (reparent s).ssu = s.ssu := rfl

@[simp] theorem showCsc_ssu (s : State) : (showCsc s).ssu = s.ssu := rfl

@[simp] theorem showRdu_ssu (s : State) : (showRdu s).ssu = s.ssu := by
  unfold showRdu
  extract_lets dead q old new u v w
  have hw : w.ssu = s.ssu := by simp only [w, v, u, wrB_ssu, wr_ssu]
  exact ite_keeps ((event_ssu _ _ _ _).trans hw) hw

@[simp] theorem shown_ssu (s : State) : (shown s).ssu = s.ssu :=
  (reparent_ssu _).trans <| (showCsc_ssu _).trans (showRdu_ssu s)

@[simp] theorem holdClaim_ssu (s : State) (c : Option (BitVec 32)) : (holdClaim s c).ssu = s.ssu := by
  cases c with
  | none => rfl
  | some x => exact ite_keeps rfl rfl

theorem modeIs_enterSafehold (s : State) (k : Nat) : modeIs (enterSafehold s k) = .safehold := by
  unfold enterSafehold
  extract_lets u hold v w
  have hw : ∀ x, modeIs { w with ssu := x } = .safehold := fun x => (modeIs_ssu w x).trans (modeIs_setMode v _)
  rw [modeIs_shown]
  exact ite_keeps (hw _) ((modeIs_holdClaim _ _).trans (hw _))

/-- Entry to SAFEHOLD leaves the waiting mode command to what took the unit there. -/
theorem enterSafehold_cmd (s : State) (k : Nat) : (enterSafehold s k).ssu.cmd = s.ssu.cmd := by
  unfold enterSafehold
  extract_lets u hold v w
  have hw : w.ssu.cmd = s.ssu.cmd := by
    simp only [w, v, u, setMode_ssu, restoreOwn_cmd, clearRoles_ssu, endArmed_ssu]
  rw [shown_ssu]
  exact ite_cmd hw ((congrArg SsuSt.cmd (holdClaim_ssu _ _)).trans hw)

theorem modeIs_enterHalt (s : State) (stop : Bool) : modeIs (enterHalt s stop) = .halt :=
  (modeIs_shown _).trans (modeIs_setMode _ _)

/-! ### The transition of an edge -/

/-- The causes of an edge are forgotten after it. -/
def forgetCauses (s : State) : State := { s with ssu := { s.ssu with causes := [] } }

theorem modeIs_forgetCauses (s : State) : modeIs (forgetCauses s) = modeIs s := rfl

theorem forgetCauses_rdu (s : State) : (forgetCauses s).rdu = s.rdu := rfl

theorem forgetCauses_cmd (s : State) : (forgetCauses s).ssu.cmd = s.ssu.cmd := rfl

theorem rd_forgetCauses (s : State) (f : Field) (i : Nat) : rd (forgetCauses s) f i = rd s f i := rfl

theorem modeIs_rank3 (s : State) (k : Nat) : modeIs (rank3 s k) = .safehold := modeIs_enterSafehold _ _

theorem rank3_cmd (s : State) (k : Nat) : (rank3 s k).ssu.cmd = s.ssu.cmd :=
  (enterSafehold_cmd _ _).trans (ite_cmd (congrArg SsuSt.cmd (event_ssu _ _ _ _)) rfl)

/-- A fault that is present and whose class holds is a fault that holds. -/
theorem faultHolds_of_present {s : State} {c : FClass} (hp : faultPresent s c = true) (hh : holds s c = true) :
    faultHolds s = true :=
  List.any_eq_true.2 ⟨c, by cases c <;> decide, by rw [hh, hp]; rfl⟩

/-- Outside RECALL, TEST and SAVE, and with no claim window running, an edge takes the transition of its rank. -/
theorem modeEdge_eq_rankedAt {s : State} (k : Nat) (hw : s.ssu.holdUntil = none)
    (hm : modeIs s = .active ∨ modeIs s = .standby ∨ modeIs s = .safehold ∨ modeIs s = .resync) :
    modeEdge s k = rankedAt s k := by
  have hwin : windowEnds s k = s := by simp [windowEnds, hw]
  unfold modeEdge
  rw [hwin]
  rcases hm with h | h | h | h <;> simp [h]

/-- Rank 3: a fault that holds takes the unit to SAFEHOLD and drops what waits. -/
theorem rankedAt_of_faultMeets {s : State} (k : Nat) (h : faultMeets s = true) :
    rankedAt s k = forgetCauses (dropCmd (dropSwap (rank3 s k))) := by
  unfold rankedAt
  simp [h, forgetCauses]

/-- Rank 6: with no cause of a higher rank the waiting command takes its turn. -/
theorem rankedAt_of_cmd {s : State} {c : ModeCmd} (k : Nat) (hcauses : s.ssu.causes = [])
    (hfault : faultHolds s = false) (hswap : s.rdu.swapEdge = none) (htake : s.rdu.takeAt = none) (hc : s.ssu.cmd = some c) :
    rankedAt s k = forgetCauses (cmdAt s k c) := by
  have hmeets : faultMeets s = false := by simp [faultMeets, hfault]
  have hdue : takeoverDue s k = false := by simp [takeoverDue, htake]
  unfold rankedAt
  simp [hcauses, hmeets, hdue, hswap, rank6, hc, forgetCauses]

/-- STOP, HOLD and RELEASE end DONE at their edge in a mode with a row for them. -/
theorem cmdAt_ends {s : State} {c : ModeCmd} (k : Nat) (hedges : s.ssu.cmdEdges ≤ 1)
    (ht : modeTakes c (modeIs s) = true) (hc : c = .stop ∨ c = .hold ∨ c = .release) :
    ∃ u, cmdAt s k c = modeEnd u CC.done 0 ∧ modeIs u = if c = .hold then .safehold else .halt := by
  have hcmd : ∀ u, (if 1 < s.ssu.cmdEdges then { s with ssu := { s.ssu with cmdEdges := s.ssu.cmdEdges - 1 } }
      else if (!modeTakes c (modeIs s)) = true then modeEnd s CC.failRefused Rsn.badMode else u) = u := fun u => by
    rw [if_neg (by omega), ht]; rfl
  rcases hc with rfl | rfl | rfl
  · exact ⟨_, hcmd _, modeIs_enterHalt s true⟩
  · exact ⟨_, hcmd _, modeIs_enterSafehold s k⟩
  · exact ⟨_, hcmd _, modeIs_enterHalt s false⟩

/-- Settles O31: a fault that holds is met at rank 3 before any command; with nothing of a higher rank the waiting
command ends with the transition of its row. -/
theorem edgeTransitions : Obligations.EdgeTransitions := by
  intro s k hwin hedges hmode
  refine ⟨?_, ?_⟩
  · rintro hrun cls hpres hhold t rfl
    have hmeets : faultMeets s = true := by
      rw [faultMeets, faultHolds_of_present hpres hhold]
      rcases hrun with h | h <;> simp [h]
    rw [modeEdge_eq_rankedAt k hwin hmode, rankedAt_of_faultMeets k hmeets]
    simp only [modeIs_forgetCauses, forgetCauses_cmd, forgetCauses_rdu, rd_forgetCauses]
    refine ⟨?_, dropCmd_cmd _, ?_, fun hcmd => ?_⟩
    · rw [modeIs_dropCmd, modeIs_dropSwap, modeIs_rank3]
    · rw [dropCmd_rdu, dropSwap_swapEdge]
    · have hkept : (dropSwap (rank3 s k)).ssu.cmd.isSome = true := by rwa [dropSwap_ssu, rank3_cmd]
      rw [dropCmd_of_isSome hkept]
      exact modeEnd_reads _ _ _
  · rintro hcauses hfault hswap htake c t hc rfl
    rw [modeEdge_eq_rankedAt k hwin hmode, rankedAt_of_cmd k hcauses hfault hswap htake hc]
    simp only [modeIs_forgetCauses, forgetCauses_cmd, rd_forgetCauses]
    have ends (hrow : c = .stop ∧ modeIs s ≠ .safehold ∨ c = .release ∧ modeIs s = .safehold ∨
        c = .hold ∧ (modeIs s = .active ∨ modeIs s = .standby)) :
        ∃ u, cmdAt s k c = modeEnd u CC.done 0 ∧ modeIs u = if c = .hold then .safehold else .halt := by
      rcases hrow with ⟨rfl, h⟩ | ⟨rfl, h⟩ | ⟨rfl, h⟩
      · exact cmdAt_ends k hedges (by simpa [modeTakes, h, or_assoc] using hmode) (.inl rfl)
      · exact cmdAt_ends k hedges (by simp [modeTakes, h]) (.inr (.inr rfl))
      · exact cmdAt_ends k hedges (by simpa [modeTakes] using h) (.inr (.inl rfl))
    refine ⟨fun hrow => ?_, fun hrow => ?_, fun hrow => ?_⟩
    · obtain ⟨u, hu, hm⟩ := ends (hrow.imp_right .inl)
      rw [hu, modeIs_modeEnd, hm, if_neg (by rintro rfl; simp at hrow)]
    · obtain ⟨u, hu, hm⟩ := ends (.inr (.inr hrow))
      rw [hu, modeIs_modeEnd, hm, if_pos hrow.1]
    · obtain ⟨u, hu, -⟩ := ends hrow
      rw [hu]
      exact ⟨modeEnd_cmd _ _ _, modeEnd_reads _ _ _⟩

end Sys2Proof.Machine
end

section
/-! SUPPORT. The mode commands (R18, Table 1.4): a command waits for its edge with PEND 1, an ACTIVE unit with a STANDBY
partner yields for it (R315), and any other command ends with its reason. -/

namespace Sys2Proof.Machine

/-! ### Status fields written together -/

/-- A code and a reason written together are read back, and nothing else changes. -/
theorem wr_pair {cc rsn : Field} {i : Nat} (h : cc.key i ≠ rsn.key i) (s : State) (x y : Nat) :
    rd (wr (wr s cc x i) rsn y i) cc i = x % 2 ^ cc.width ∧
      rd (wr (wr s cc x i) rsn y i) rsn i = y % 2 ^ rsn.width ∧
      OnlyFields s (wr (wr s cc x i) rsn y i) [(cc, i), (rsn, i)] := by
  refine ⟨(rd_wr_ne h _ _).trans (rd_wr_same _ _ _ _), rd_wr_same _ _ _ _, rfl, fun f j hf => ?_⟩
  rw [rd_wr_ne (hf (rsn, i) (by simp)), rd_wr_ne (hf (cc, i) (by simp))]

/-! ### The announcement of a YIELD -/

theorem putYield_frame (s : State) (e row : Nat) :
    (putYield s e row).flds = s.flds ∧ (putYield s e row).ssu = s.ssu :=
  ⟨ite_keeps (p := State.flds) rfl rfl, ite_keeps (p := State.ssu) rfl rfl⟩

theorem yieldStands_iff (s : State) (e : Nat) :
    yieldStands s e = true ↔ ¬ ∀ y, s.rdu.yieldEdge = some y → e < y.1 := by
  unfold yieldStands
  cases s.rdu.yieldEdge <;> simp

/-- A YIELD for an edge takes the place of none or of a later one, and leaves any other (R315). -/
theorem putYield_yieldEdge (s : State) (e row : Nat) :
    ((∀ y, s.rdu.yieldEdge = some y → e < y.1) → (putYield s e row).rdu.yieldEdge = some (e, row)) ∧
      (¬ (∀ y, s.rdu.yieldEdge = some y → e < y.1) → (putYield s e row).rdu.yieldEdge = s.rdu.yieldEdge) := by
  refine ⟨fun h => ?_, fun h => ?_⟩
  · rw [putYield, if_neg (by rw [yieldStands_iff]; exact not_not_intro h)]
    rfl
  · rw [putYield, if_pos ((yieldStands_iff s e).2 h)]

theorem sendYield_frame (s : State) (e row : Nat) :
    (sendYield s e row).flds = s.flds ∧ (sendYield s e row).ssu = s.ssu :=
  ⟨ite_keeps (p := State.flds) (putYield_frame _ _ _).1 rfl, ite_keeps (p := State.ssu) (putYield_frame _ _ _).2 rfl⟩

/-- An ACTIVE unit in step yields, unless a YIELD for that edge or an earlier one stands. -/
theorem sendYield_yieldEdge (s : State) (e row : Nat) :
    (modeIs s = .active ∧ rd s Reg.RDU_STATUS_PAIRST = 2 ∧ (∀ y, s.rdu.yieldEdge = some y → e < y.1) →
        (sendYield s e row).rdu.yieldEdge = some (e, row)) ∧
      (¬ (modeIs s = .active ∧ rd s Reg.RDU_STATUS_PAIRST = 2 ∧ ∀ y, s.rdu.yieldEdge = some y → e < y.1) →
        (sendYield s e row).rdu.yieldEdge = s.rdu.yieldEdge) := by
  obtain ⟨hput, hkeep⟩ := putYield_yieldEdge s e row
  by_cases h : modeIs s = .active ∧ rd s Reg.RDU_STATUS_PAIRST = 2
  · rw [sendYield, if_pos h]
    exact ⟨fun hy => hput hy.2.2, fun hn => hkeep fun hy => hn ⟨h.1, h.2, hy⟩⟩
  · rw [sendYield, if_neg h]
    exact ⟨fun hy => absurd ⟨hy.1, hy.2.1⟩ h, fun _ => rfl⟩

/-! ### A command that waits -/

theorem modeCmd_of_takes {s : State} {c : ModeCmd} (f : State → State) (hp : rdB s Reg.SSU_MODE_PEND = false)
    (ht : modeTakes c (modeIs s) = true) : modeCmd s c f = f s := by
  simp [modeCmd, hp, ht]

/-- A command that waits shows PEND 1 alone, and is kept with its number of edges. -/
theorem waits_of_accept {s t : State} {m : ModeCmd} {n : Nat} (hf : t.flds = (modeAccept s m n).flds)
    (hs : t.ssu = (modeAccept s m n).ssu) :
    rd t Reg.SSU_MODE_PEND = 1 ∧ FieldsBut s t [(Reg.SSU_MODE_PEND, 0)] ∧ t.ssu.cmd = some m ∧ t.ssu.cmdEdges = n := by
  have hrd (f : Field) (i : Nat) : rd t f i = rd (modeAccept s m n) f i := congrArg (rdIn · f i) hf
  have hbut : FieldsBut s t [(Reg.SSU_MODE_PEND, 0)] := fun f i h =>
    (hrd f i).trans (rd_wr_ne (h (Reg.SSU_MODE_PEND, 0) (by simp)) _ _)
  refine ⟨(hrd _ _).trans (rd_wr_same _ _ _ _), hbut, ?_, ?_⟩
  · rw [hs]; rfl
  · rw [hs]; rfl

theorem modeIs_modeAccept (s : State) (m : ModeCmd) (n : Nat) : modeIs (modeAccept s m n) = modeIs s :=
  modeIs_wr (by decide) _ _

theorem pairst_modeAccept (s : State) (m : ModeCmd) (n : Nat) :
    rd (modeAccept s m n) Reg.RDU_STATUS_PAIRST = rd s Reg.RDU_STATUS_PAIRST :=
  rd_wr_ne (by decide) _ _

/-- The YIELD for a command just accepted depends on the state before it. -/
theorem yieldEdge_of_accept (s : State) (m : ModeCmd) (n e row : Nat) :
    (sendYield (modeAccept s m n) e row).rdu.yieldEdge =
      if modeIs s = .active ∧ rd s Reg.RDU_STATUS_PAIRST = 2 ∧ (∀ y, s.rdu.yieldEdge = some y → e < y.1) then
        some (e, row) else s.rdu.yieldEdge := by
  obtain ⟨hput, hkeep⟩ := sendYield_yieldEdge (modeAccept s m n) e row
  rw [modeIs_modeAccept, pairst_modeAccept] at hput hkeep
  split
  · exact hput ‹_›
  · exact hkeep ‹_›

/-- STOP as accepted: an ACTIVE unit with a STANDBY partner waits for the second edge and yields there, any other for
the next edge. -/
theorem stopCmd_waits (s : State) :
    (∀ n, n = (if modeIs s = .active ∧ rd s Reg.RDU_STATUS_PAIRST = 2 then 2 else 1) →
        (stopCmd s).flds = (modeAccept s .stop n).flds ∧ (stopCmd s).ssu = (modeAccept s .stop n).ssu) ∧
      (stopCmd s).rdu.yieldEdge = if modeIs s = .active ∧ rd s Reg.RDU_STATUS_PAIRST = 2 ∧
        (∀ y, s.rdu.yieldEdge = some y → s.tb.tick + 2 < y.1) then some (s.tb.tick + 2, 3) else s.rdu.yieldEdge := by
  by_cases h : modeIs s = .active ∧ rd s Reg.RDU_STATUS_PAIRST = 2
  · have hstop : stopCmd s = sendYield (modeAccept s .stop 2) (s.tb.tick + 2) 3 :=
      if_pos (h.imp_right fun h => decide_eq_true h)
    rw [hstop, if_pos h]
    exact ⟨fun n hn => hn ▸ sendYield_frame _ _ _, yieldEdge_of_accept _ _ _ _ _⟩
  · have hstop : stopCmd s = modeAccept s .stop 1 := if_neg fun hin => h (hin.imp_right fun h => of_decide_eq_true h)
    rw [hstop, if_neg h, if_neg fun hy => h ⟨hy.1, hy.2.1⟩]
    exact ⟨fun n hn => hn ▸ ⟨rfl, rfl⟩, rfl⟩

/-! ### A command that is refused -/

theorem modeCmd_of_refused {s : State} {c : ModeCmd} (f : State → State)
    (h : rdB s Reg.SSU_MODE_PEND = true ∨ modeTakes c (modeIs s) = false) :
    modeCmd s c f = modeRefuse s (if rdB s Reg.SSU_MODE_PEND then Rsn.modeBusy else Rsn.badMode) := by
  unfold modeCmd
  by_cases hp : rdB s Reg.SSU_MODE_PEND = true
  · simp [hp]
  · simp [hp, h.resolve_left hp]

/-- A refused mode command shows FAIL_REFUSED and its reason, and changes nothing else. -/
theorem modeCmd_refused_reads {s : State} {c : ModeCmd} (f : State → State)
    (h : rdB s Reg.SSU_MODE_PEND = true ∨ modeTakes c (modeIs s) = false) :
    rd (modeCmd s c f) Reg.SSU_MODE_LASTCC = CC.failRefused ∧
      rd (modeCmd s c f) Reg.SSU_MODE_LASTRSN = (if rdB s Reg.SSU_MODE_PEND then Rsn.modeBusy else Rsn.badMode) ∧
      OnlyFields s (modeCmd s c f) [(Reg.SSU_MODE_LASTCC, 0), (Reg.SSU_MODE_LASTRSN, 0)] := by
  have hwidth : (if rdB s Reg.SSU_MODE_PEND then Rsn.modeBusy else Rsn.badMode) % 2 ^ Reg.SSU_MODE_LASTRSN.width =
      if rdB s Reg.SSU_MODE_PEND then Rsn.modeBusy else Rsn.badMode := by split <;> rfl
  rw [modeCmd_of_refused f h]
  obtain ⟨hcc, hrsn, honly⟩ := wr_pair (cc := Reg.SSU_MODE_LASTCC) (rsn := Reg.SSU_MODE_LASTRSN) (i := 0) (by decide) s
    CC.failRefused (if rdB s Reg.SSU_MODE_PEND then Rsn.modeBusy else Rsn.badMode)
  exact ⟨hcc, hrsn.trans hwidth, honly⟩

/-- Settles O28: an accepted command waits with its edges and its YIELD, and any other is refused with its reason. -/
theorem modeCommands : Obligations.ModeCommands := by
  refine ⟨?_, ?_⟩
  · rintro s c m hp hrow
    have accepted {f : State → State} {t : State} (ht : modeTakes m (modeIs s) = true)
        (hexec : exec c s = .next (modeCmd s m f)) (hft : f s = t) : exec c s = .next t := by
      rw [hexec, modeCmd_of_takes f hp ht, hft]
    rcases hrow with ⟨rfl, rfl, hm, hcheck, htarget⟩ | ⟨rfl, rfl, hm⟩ | ⟨rfl, rfl, hm⟩ | ⟨rfl, rfl, hm⟩ | ⟨rfl, rfl, hm⟩
    case inl =>
      have hrun : runCmd s = modeAccept s .run 1 := by simp [runCmd, hcheck, htarget]
      obtain ⟨hpend, hbut, hcmd, hedges⟩ := waits_of_accept (s := s) (m := .run) (n := 1) rfl rfl
      exact ⟨_, accepted (by simp [modeTakes, hm]) rfl hrun, hpend, hbut, hcmd, hedges, by simp⟩
    case inr.inl =>
      obtain ⟨hwait, hy⟩ := stopCmd_waits s
      obtain ⟨hf, hs⟩ := hwait _ rfl
      obtain ⟨hpend, hbut, hcmd, hedges⟩ := waits_of_accept hf hs
      refine ⟨_, accepted (by simpa [modeTakes, or_assoc] using hm) rfl rfl, hpend, hbut, hcmd, ?_, ?_⟩
      · simpa using hedges
      · rintro e row (⟨-, rfl, rfl⟩ | ⟨h, -⟩)
        · exact hy
        · cases h
    case inr.inr.inl =>
      obtain ⟨hf, hs⟩ := sendYield_frame (modeAccept s .hold 1) (s.tb.tick + 1) 4
      obtain ⟨hpend, hbut, hcmd, hedges⟩ := waits_of_accept hf hs
      refine ⟨_, accepted (by simpa [modeTakes] using hm) rfl rfl, hpend, hbut, hcmd, hedges, ?_⟩
      rintro e row (⟨h, -⟩ | ⟨-, rfl, rfl⟩)
      · cases h
      · exact yieldEdge_of_accept _ _ _ _ _
    case inr.inr.inr.inl =>
      obtain ⟨hpend, hbut, hcmd, hedges⟩ := waits_of_accept (s := s) (m := .release) (n := 1) rfl rfl
      exact ⟨_, accepted (by simp [modeTakes, hm]) rfl rfl, hpend, hbut, hcmd, hedges, by simp⟩
    case inr.inr.inr.inr =>
      obtain ⟨hpend, hbut, hcmd, hedges⟩ := waits_of_accept (s := s) (m := .test) (n := 1) rfl rfl
      exact ⟨_, accepted (by simp [modeTakes, hm]) rfl rfl, hpend, hbut, hcmd, hedges, by simp⟩
  · rintro s c m hc hrefused
    have hno : rdB s Reg.SSU_MODE_PEND = true ∨ modeTakes m (modeIs s) = false := by
      rcases hrefused with h | ⟨rfl | rfl, h⟩ | ⟨rfl, ha, hs, hr⟩ | ⟨rfl, ha, hs⟩ | ⟨rfl, h⟩ <;> simp [modeTakes, *]
    rcases hc with ⟨rfl, rfl⟩ | ⟨rfl, rfl⟩ | ⟨rfl, rfl⟩ | ⟨rfl, rfl⟩ | ⟨rfl, rfl⟩ <;>
      exact ⟨_, rfl, modeCmd_refused_reads _ hno⟩

end Sys2Proof.Machine
end

section
/-! SUPPORT. The power warning and the save sequence (R15, R378 to R380): the request to the store that ends a SAVE, and
when `WARN_N` is released. -/

namespace Sys2Proof.Machine

/-! ### Requests to an idle store -/

/-- A record that fits its place is queued alone by a store that holds no request. -/
theorem nvsSave_of_idle {s : State} {cls : Nat} {d : RecData} {who : Requester} (hr : recalling s = false)
    (hfit : (writeRange s (.record (recType d) d)).fits = true) (hq : s.nvs.queue = []) :
    nvsSave s cls d who = setQueue s [⟨cls, .record (recType d) d, who⟩] := by
  simp [nvsSave, nvsRequest, hr, hfit, hq]

/-- The power-cycle record fits its place, whichever copy it goes to. -/
theorem power_fits (s : State) (n : BitVec 24) (resumed : Bool) :
    (writeRange s (.record 4 (.power n resumed))).fits = true := by
  simp only [writeRange]
  cases pairWritesB (recGet s 4) <;> rfl

/-- A store with nothing queued and nothing suspended drains at once. -/
theorem nvsDrain_of_idle {s : State} (cls fuel : Nat) (hs : s.nvs.susp = []) (hq : s.nvs.queue = []) :
    nvsDrain cls fuel s = s := by
  cases fuel with
  | zero => rfl
  | succ fuel =>
    have hnone : nextReq s.nvs.susp s.nvs.queue = none := by simp [nextReq, hs, hq]
    simp [nvsDrain, hnone]

theorem rd_setQueue {f : Field} {i : Nat} (h : f.key i ≠ Reg.NVS_WQ_DEPTH.key 0) (s : State) (l : List WriteReq) :
    rd (setQueue s l) f i = rd s f i := rd_wr_ne h _ _

theorem recalling_of_save {s : State} (h : modeIs s = .save) : recalling s = false := by simp [recalling, h]

/-! ### What follows a warning that clears or a sequence that completes -/

theorem saveRelease_of_warn {s : State} (h : rdB s Reg.SSU_SUPPLY_WARN = true) : saveRelease s = s := if_pos h

theorem saveRelease_outside {s : State} (hw : rdB s Reg.SSU_SUPPLY_WARN = false) (hm : modeIs s ≠ .save) :
    saveRelease s = { s with ssu := { s.ssu with warnN := true } } := by
  simp [saveRelease, hw, hm]

theorem saveRelease_incomplete {s : State} (hm : modeIs s = .save) (hd : s.ssu.saveDone = false) :
    saveRelease s = s := by
  simp [saveRelease, hm, saveOver, hd]

/-- A SAVE that is over releases `WARN_N` and requests the power-cycle record with RESUMED 1. -/
theorem saveRelease_over {s : State} (hw : rdB s Reg.SSU_SUPPLY_WARN = false) (hm : modeIs s = .save)
    (hd : s.ssu.saveDone = true) (hq : s.nvs.queue = []) :
    saveRelease s = setQueue { s with ssu := { s.ssu with warnN := true } }
      [⟨3, .record 4 (.power (BitVec.ofNat 24 (rd s Reg.EVR_PCC_PCC)) true), .power⟩] := by
  have hsave : saveRelease s = nvsSave { s with ssu := { s.ssu with warnN := true } } 3 (powerData s true) .power := by
    simp [saveRelease, hw, hm, saveOver, hd]
  rw [hsave]
  exact nvsSave_of_idle (recalling_of_save hm) (power_fits _ _ _) hq

/-! ### The commands -/

theorem rdB_warn_cleared (s : State) : rdB (wr s Reg.SSU_SUPPLY_WARN 0) Reg.SSU_SUPPLY_WARN = false :=
  decide_eq_false (by rw [rd_wr_same]; decide)

theorem modeIs_warn_cleared (s : State) : modeIs (wr s Reg.SSU_SUPPLY_WARN 0) = modeIs s := modeIs_wr (by decide) _ _

theorem exec_warningCleared {s : State} (h : rdB s Reg.SSU_SUPPLY_WARN = true) :
    exec .warningCleared s = .next (saveRelease (wr s Reg.SSU_SUPPLY_WARN 0)) :=
  congrArg Host.Outcome.next (if_pos h)

theorem exec_warningCleared_of_none {s : State} (h : rdB s Reg.SSU_SUPPLY_WARN = false) :
    exec .warningCleared s = .next s :=
  congrArg Host.Outcome.next (if_neg (by simp [h]))

/-- A device event keeps a field of the supply. -/
theorem rd_event_supply (s : State) (code : Nat) (sev : Sev) (ps : List Nat) {f : Field}
    (hf : f = Reg.SSU_SUPPLY_WARN ∨ f = Reg.SSU_SUPPLY_WARNSEEN) : rd (event s code sev ps) f = rd s f :=
  event_rdIn s code sev ps (by
    rcases hf with rfl | rfl <;> exact evrKeys_of_id (by decide) (by decide) (by decide) (by decide))

/-- A new warning in RECALL is shown and recorded with the mode, and nothing follows (R15). -/
theorem powerWarning_in_recall {s : State} (hw : rdB s Reg.SSU_SUPPLY_WARN = false) (hm : modeIs s = .recall) :
    powerWarning s = event { wr (wr s Reg.SSU_SUPPLY_WARN 1) Reg.SSU_SUPPLY_WARNSEEN 1 with
      ssu := { s.ssu with warnN := false } } Ev.powerWarning .notice [0] := by
  unfold powerWarning
  rw [if_neg (by simp [hw])]
  extract_lets shownWarn _ asserted recorded
  have hshown : modeIs shownWarn = .recall := by rw [modeIs_wr (by decide), modeIs_wr (by decide), hm]
  have hasserted : modeIs asserted = .recall := hshown
  have hrecorded : modeIs recorded = .recall := (modeIs_event _ _ _ _).trans hasserted
  have heq : recorded = event asserted Ev.powerWarning .notice [0] := by simp only [recorded, hasserted, modeCode]
  simp only [hrecorded]
  exact heq

/-- What POWER_WARNING leaves in RECALL: the warning shown, `WARN_N` asserted, the mode kept. -/
theorem powerWarning_recall_reads {s : State} (hw : rdB s Reg.SSU_SUPPLY_WARN = false) (hm : modeIs s = .recall) :
    Completes (exec .powerWarning s) fun t =>
      rd t Reg.SSU_SUPPLY_WARN = 1 ∧ rd t Reg.SSU_SUPPLY_WARNSEEN = 1 ∧ t.ssu.warnN = false ∧ modeIs t = .recall ∧
      t = event { wr (wr s Reg.SSU_SUPPLY_WARN 1) Reg.SSU_SUPPLY_WARNSEEN 1 with ssu := { s.ssu with warnN := false } }
        Ev.powerWarning .notice [0] := by
  obtain ⟨hwarn, hseen⟩ := rd_wr_wr (lo := Reg.SSU_SUPPLY_WARN) (hi := Reg.SSU_SUPPLY_WARNSEEN) (by decide) s 1 1
  refine ⟨_, congrArg Host.Outcome.next (powerWarning_in_recall hw hm), ?_, ?_, ?_, ?_, rfl⟩
  · exact (rd_event_supply _ _ _ _ (.inl rfl)).trans hwarn
  · exact (rd_event_supply _ _ _ _ (.inr rfl)).trans hseen
  · rw [event_ssu]
  · rw [modeIs_event, modeIs_ssu, modeIs_wr (by decide), modeIs_wr (by decide), hm]

/-- Settles O29: a new warning in RECALL is shown and recorded only; one that clears releases `WARN_N` where no SAVE
waits for its sequence, and the sequence completes once. -/
theorem powerWarningAndSave : Obligations.PowerWarningAndSave := by
  have warned (s : State) (hw : rdB s Reg.SSU_SUPPLY_WARN = true) : exec .powerWarning s = .next s :=
    congrArg Host.Outcome.next (if_pos hw)
  have completed (s : State) (us : BitVec 16) (h : modeIs s ≠ .save ∨ s.ssu.saveDone = true) :
      exec (.saveSequenceComplete us) s = .next s :=
    congrArg Host.Outcome.next (if_neg (by rcases h with h | h <;> simp [h]))
  refine ⟨fun s => ⟨warned s, powerWarning_recall_reads⟩,
    fun s => ⟨fun hw => ?_, exec_warningCleared_of_none, completed s⟩⟩
  have hcleared := rdB_warn_cleared s
  have hmode := modeIs_warn_cleared s
  refine ⟨fun hm => ?_, fun hm hd => ?_, fun hm hd hq => ?_, fun us hm hd hq hs _ => ?_⟩
  · rw [exec_warningCleared hw, saveRelease_outside hcleared (hmode ▸ hm)]
    rfl
  · rw [exec_warningCleared hw, saveRelease_incomplete (hmode.trans hm) hd]
  · refine ⟨_, exec_warningCleared hw, ?_⟩
    rw [saveRelease_over hcleared (hmode.trans hm) hd hq, rd_wr_ne (by decide) s]
    refine ⟨?_, rfl, ?_, rfl⟩
    · exact (rd_setQueue (by decide) _ _).trans (rd_wr_same s Reg.SSU_SUPPLY_WARN 0 0)
    · exact (modeIs_wr (by decide) _ _).trans (hmode.trans hm)
  · have hdrain := nvsDrain_of_idle 2 1024 hs hq
    have hwarn : rdB (wr s Reg.SSU_SAVESTS_LASTUS us.toNat) Reg.SSU_SUPPLY_WARN = true := by
      rw [rdB, rd_wr_ne (by decide)]; exact hw
    have hcomplete : saveComplete s us.toNat =
        saveRelease { wr s Reg.SSU_SAVESTS_LASTUS us.toNat with ssu := { s.ssu with saveDone := true } } := by
      simp [saveComplete, hm, hd, hdrain]
    exact congrArg Host.Outcome.next (hcomplete.trans (saveRelease_of_warn hwarn))

end Sys2Proof.Machine
end

section
/-! SUPPORT. Refused accesses (R20, R287) and undefined command codes (R18): an undefined address is one with no row of
its own, no window and no field, a write there counts as a read does, and an undefined code ends with its reason. -/

namespace Sys2Proof.Machine

/-! ### Undefined addresses -/

theorem ite_some_eq_none {α : Type} {c : Prop} [Decidable c] {x : α} {y : Option α} :
    (if c then some x else y) = none ↔ ¬ c ∧ y = none := by
  by_cases h : c <;> simp [h]

/-- Nothing is defined at an address with no row of its own, no window and no field. -/
theorem undefinedAt_iff (s : State) (a : Nat) :
    undefinedAt s a = true ↔ ownRead a = false ∧ windowWord s a = none ∧ fieldsAt a = [] := by
  constructor
  · intro h
    simp only [undefinedAt, Option.isNone_iff_eq_none, readWord, ite_some_eq_none] at h
    obtain ⟨htime, htick, hrtc, hflop, hcyc, hnvs, h⟩ := h
    obtain ⟨hrx, hwin, hf⟩ : (inArr a 0x1D00200 0x10000 24).filter (·.2 < 76) = none ∧ windowWord s a = none ∧
        fieldsAt a = [] := by
      revert h
      cases (inArr a 0x1D00200 0x10000 24).filter (·.2 < 76) with
      | some e => simp
      | none => cases windowWord s a <;> simp
    rw [not_or] at hnvs
    refine ⟨?_, hwin, hf⟩
    simp [ownRead, htime, htick, hrtc, hflop, hcyc, hnvs, hrx]
  · rintro ⟨hown, hwin, hf⟩
    obtain ⟨⟨htime, htick, hrtc, hflop, hcyc⟩, hnvs, hrx⟩ := ownRead_eq_false hown
    simp [undefinedAt, readWord, htime, htick, hrtc, hflop, hcyc, hnvs, hrx, hwin, hf]

/-- No window shows the count of refused accesses. -/
theorem windowWord_countAccess (s : State) (a : Nat) : windowWord (countAccess s) a = windowWord s a := rfl

theorem undefinedAt_countAccess (s : State) (a : Nat) : undefinedAt (countAccess s) a = undefinedAt s a := by
  rw [Bool.eq_iff_iff, undefinedAt_iff, undefinedAt_iff, windowWord_countAccess]

theorem readHalf_of_undefined {s : State} {a : Nat} (h : undefinedAt s a = true) :
    readHalf s a = (0, countAccess s) := by
  rw [undefinedAt, Option.isNone_iff_eq_none] at h
  simp [readHalf, h]

/-! ### Writes at an undefined address -/

/-- The registers whose write issues a command or acts by a row of its own hold fields. -/
theorem commandAddr_fields : ∀ a ∈ [Reg.SSU_WDTKICK_KICK.addr, Reg.SSU_RSTCMD_GO.addr, Reg.SSU_SVCCMD_CMD.addr,
    Reg.SSU_MODECMD_CMD.addr, Reg.SSU_OTPCMD_CMD.addr, Reg.SSU_QCMD_GO.addr, Reg.TBC_RTCCMD_SET.addr,
    Reg.CSA_OLC_CMD.addr, Reg.CSA_FRCCMD_CMD.addr, Reg.LPE_LCMD_CMD.addr, Reg.LSV_DOORBELL_RING.addr,
    Reg.LSV_CANCELCMD_GO.addr, Reg.MTE_CALCMD_CMD.addr, Reg.FCT_CMD_CMD.addr, Reg.NPC_VCMD_CMD.addr,
    Reg.RDU_CMD_CMD.addr, Reg.EVR_CMD_CMD.addr, Reg.EVR_CURSOR_CURSOR.addr, Reg.TBC_TICKCFG_TICKLEN.addr,
    Reg.HMX_SPLIT_SRAMHOST.addr, Reg.MTE_MODCFG_DIV.addr, Reg.LSV_RINGCFG_EN.addr], fieldsAt a ≠ [] := by
  decide +kernel

/-- An address without a field is none of a field's. -/
theorem indexAt_none {a : Nat} (h : fieldsAt a = []) {f : Field} (hf : f ∈ Reg.table) : f.indexAt a = none := by
  by_contra hne
  obtain ⟨i, hi⟩ := Option.ne_none_iff_exists'.1 hne
  have hmem : (f, i) ∈ fieldsAt a := mem_fieldsAt.2 ⟨hf, hi⟩
  rw [h] at hmem
  cases hmem

/-- A write of 0 issues no command of a field bus. -/
theorem fbcCommand_zero (s : State) (n : Fin 24) (o : Nat) : fbcCommand s n o 0#32 = none := by
  simp [fbcCommand, codeCmd]

/-- A write of 0 where no field is issues no command. -/
theorem hostCommand_zero {s : State} {a : Nat} (h : fieldsAt a = []) : hostCommand s a 0#32 = none := by
  have hne : ∀ b, fieldsAt b ≠ [] → a ≠ b := fun b hb hab => hb (hab ▸ h)
  have hcmd := fun b hb => hne b (commandAddr_fields b hb)
  simp only [List.forall_mem_cons] at hcmd
  simp [hostCommand, hcmd, indexAt_none h (f := Reg.HMX_DMADB_HEAD) (by decide +kernel), fbcCommand_zero]

/-- The windows a write may reach lie in those a read shows. -/
theorem windowWrite32_none {s : State} {a : Nat} (hown : ownRead a = false) (hwin : windowWord s a = none)
    (v : BitVec 32) : windowWrite32 s a v = none := by
  obtain ⟨-, hnvs, hrx⟩ := ownRead_eq_false hown
  have hall := List.findSome?_eq_none_iff.1 hwin
  simp only [List.forall_mem_cons, id_eq, Option.map_eq_none_iff, Option.bind_eq_none_iff] at hall
  obtain ⟨-, -, -, -, hcoefA, hcoefB, -, -, -, hfbc, -, -, hmsix, -⟩ := hall
  have htx : (inArr a 0x1D00100 0x10000 24).filter (·.2 < 76) = none := by
    rw [Option.filter_eq_none_iff]
    rintro ⟨n, o⟩ hat ho
    obtain ⟨ha, rfl, rfl⟩ : (0x1D00100 ≤ a ∧ a < 0x1D00100 + 0x10000 * 24) ∧ (a - 0x1D00100) / 0x10000 = n ∧
        (a - 0x1D00100) % 0x10000 = o := by simpa [inArr] using hat
    have ho' : (a - 0x1D00100) % 0x10000 < 76 := of_decide_eq_true ho
    have hwide : inArr a 0x1D00000 0x10000 24 = some ((a - 0x1D00000) / 0x10000, (a - 0x1D00000) % 0x10000) :=
      if_pos (by omega)
    have hword := hfbc _ hwide
    simp only [fbcWord] at hword
    rw [if_neg (by omega), if_pos (by omega)] at hword
    cases hword
  rw [not_or] at hnvs
  simp [windowWrite32, hcoefA, hcoefB, htx, hmsix, hwin, hnvs, hrx]

/-- A write of 0 at an undefined address is ignored and counted. -/
theorem writeWord_of_undefined {s : State} {a : Nat} (h : undefinedAt s a = true) :
    writeWord s a 0#32 = countAccess s := by
  obtain ⟨hown, hwin, hf⟩ := (undefinedAt_iff s a).1 h
  have hne : ∀ b, fieldsAt b ≠ [] → a ≠ b := fun b hb hab => hb (hab ▸ hf)
  have hcmd := fun b hb => hne b (commandAddr_fields b hb)
  simp only [List.forall_mem_cons] at hcmd
  simp [writeWord, hostCommand_zero hf, hcmd, indexAt_none hf (f := Reg.HMX_DMACFG_EN) (by decide +kernel),
    windowWrite32_none hown hwin, hf]

/-! ### The count of refused accesses -/

/-- `t` is `s` with `n` more accesses counted in `HMX_HERR.ACC`, up to the counter's end. -/
structure Counted (s t : State) (n : Nat) : Prop where
  count : rd t Reg.HMX_HERR_ACC = min (rd s Reg.HMX_HERR_ACC + n) (2 ^ Reg.HMX_HERR_ACC.width - 1)
  but : FieldsBut s t [(Reg.HMX_HERR_ACC, 0)]
  frame : { t with flds := s.flds } = s

theorem counted_one (s : State) : Counted s (countAccess s) 1 where
  count := bump_same s _ 0 1
  but := fun _ _ h => rd_wr_ne (h (Reg.HMX_HERR_ACC, 0) (by simp)) _ _
  frame := rfl

theorem counted_two (s : State) : Counted s (countAccess (countAccess s)) 2 where
  count := by
    rw [(counted_one _).count, (counted_one s).count]
    omega
  but := fun f i h => ((counted_one _).but f i h).trans ((counted_one s).but f i h)
  frame := rfl

/-- What a refused access leaves: its count, and 0 put out by a read. -/
def refused (write : Bool) (u : State) : State := if write then u else emitRead (0, u)

theorem refused_effect {s u : State} {n : Nat} (h : Counted s u n) (write : Bool) :
    rd (refused write u) Reg.HMX_HERR_ACC = min (rd s Reg.HMX_HERR_ACC + n) (2 ^ Reg.HMX_HERR_ACC.width - 1) ∧
      FieldsBut s (refused write u) [(Reg.HMX_HERR_ACC, 0)] ∧
      { refused write u with flds := s.flds, out := s.out } = s ∧
      (refused write u).out = if write then s.out else s.out ++ [.readData 0] := by
  have hout : u.out = s.out := by
    have hframe := congrArg State.out h.frame
    exact hframe
  have hframe : { u with flds := s.flds, out := s.out } = s := by rw [← hout]; exact h.frame
  cases write with
  | true => exact ⟨h.count, h.but, hframe, hout⟩
  | false =>
    refine ⟨h.count, (fieldsBut_emit s u _ _).2 h.but, hframe, ?_⟩
    change u.out ++ _ = s.out ++ _
    rw [hout]
    rfl

/-! ### Refused accesses -/

/-- An access of wrong size or alignment counts once (R20). -/
theorem reservedAccess_misfit {s : State} {addr : BitVec 26} {bytes : Nat} (write : Bool)
    (h : addr.toNat % 4 ≠ 0 ∨ (bytes ≠ 4 ∧ bytes ≠ 8)) :
    exec (.reservedAccess addr bytes write) s = .next (refused write (countAccess s)) :=
  congrArg Host.Outcome.next (if_pos h)

/-- A fitting read is a READ_CLEAR. -/
theorem reservedAccess_read {addr : BitVec 26} {bytes : Nat} (s : State) (ha : addr.toNat % 4 = 0)
    (hb : bytes = 4 ∨ bytes = 8) :
    exec (.reservedAccess addr bytes false) s = exec (.readClear addr (bytes = 8)) s :=
  congrArg Host.Outcome.next (if_neg (by omega))

/-- A fitting write where nothing is defined is a write of 0. -/
theorem reservedAccess_write_undefined {s : State} {addr : BitVec 26} {bytes : Nat} (ha : addr.toNat % 4 = 0)
    (hb : bytes = 4 ∨ bytes = 8) (hu : undefinedAt s addr.toNat = true)
    (hu4 : bytes = 8 → undefinedAt s (addr.toNat + 4) = true) :
    exec (.reservedAccess addr bytes true) s = .next (hostWrite s addr.toNat (bytes = 8) 0) := by
  have hc : (undefinedAt s addr.toNat && (decide (bytes = 4) || undefinedAt s (addr.toNat + 4))) = true := by
    rcases hb with rfl | rfl
    · simp [hu]
    · simp [hu, hu4]
  exact congrArg Host.Outcome.next ((if_neg (by omega)).trans ((if_neg (by simp)).trans (if_pos hc)))

/-- A fitting write that meets a defined half is a REGISTER_WRITE of a free value (log entry 70). -/
theorem reservedAccess_write_defined {s : State} {addr : BitVec 26} {bytes : Nat} (ha : addr.toNat % 4 = 0)
    (hb : bytes = 4 ∨ bytes = 8)
    (hd : undefinedAt s addr.toNat = false ∨ bytes = 8 ∧ undefinedAt s (addr.toNat + 4) = false) :
    exec (.reservedAccess addr bytes true) s =
      exec (.registerWrite addr (bytes = 8) (freeWord s.free)) { s with free := s.free + 1 } := by
  have hc : ¬ (undefinedAt s addr.toNat && (decide (bytes = 4) || undefinedAt s (addr.toNat + 4))) = true := by
    rcases hd with hd | ⟨rfl, hd⟩ <;> simp [hd]
  exact congrArg Host.Outcome.next ((if_neg (by omega)).trans ((if_neg (by simp)).trans (if_neg hc)))

/-- A 32-bit access where nothing is defined counts once. -/
theorem reservedAccess_narrow {s : State} {addr : BitVec 26} (write : Bool) (ha : addr.toNat % 4 = 0)
    (hu : undefinedAt s addr.toNat = true) :
    exec (.reservedAccess addr 4 write) s = .next (refused write (countAccess s)) := by
  cases write with
  | true =>
    rw [reservedAccess_write_undefined ha (.inl rfl) hu (by simp)]
    exact congrArg Host.Outcome.next ((hostWrite_aligned ha 0).trans (writeWord_of_undefined hu))
  | false =>
    rw [reservedAccess_read s ha (.inl rfl)]
    exact congrArg (fun r => Host.Outcome.next (emitRead r)) ((hostRead_aligned ha).trans (readHalf_of_undefined hu))

/-- A 64-bit access with nothing defined in either half counts twice. -/
theorem reservedAccess_wide {s : State} {addr : BitVec 26} (write : Bool) (ha : addr.toNat % 4 = 0)
    (hu : undefinedAt s addr.toNat = true) (hu4 : undefinedAt s (addr.toNat + 4) = true) :
    exec (.reservedAccess addr 8 write) s = .next (refused write (countAccess (countAccess s))) := by
  rw [← undefinedAt_countAccess] at hu4
  cases write with
  | true =>
    rw [reservedAccess_write_undefined ha (.inr rfl) hu fun _ => (undefinedAt_countAccess s _).symm.trans hu4]
    refine congrArg Host.Outcome.next ((hostWrite_wide ha 0).trans ?_)
    exact (congrArg (writeWord · _ _) (writeWord_of_undefined hu)).trans (writeWord_of_undefined hu4)
  | false =>
    rw [reservedAccess_read s ha (.inr rfl)]
    exact congrArg (fun r => Host.Outcome.next (emitRead r))
      (hostRead_wide ha (readHalf_of_undefined hu) (readHalf_of_undefined hu4))

/-! ### Undefined command codes -/

/-- The status of every command register keeps code and reason in fields of their own, wide enough for the refusals. -/
theorem cmdStatus_fits (r : CmdReg) :
    (cmdStatus r).1.key (cmdStatus r).2.2.2 ≠ (cmdStatus r).2.1.key (cmdStatus r).2.2.2 ∧
      CC.failRefused < 2 ^ (cmdStatus r).1.width ∧
      Rsn.modeBusy < 2 ^ (cmdStatus r).2.1.width ∧ Rsn.busy < 2 ^ (cmdStatus r).2.1.width ∧
      Rsn.badCommand < 2 ^ (cmdStatus r).2.1.width := by
  cases r with
  | fbcCtl n => revert n; decide
  | fbcTx n => revert n; decide
  | _ => decide

/-- An undefined code ends FAIL_REFUSED, with BAD_COMMAND or as busy (R18), and changes nothing else. -/
theorem badCommand_reads (s : State) {r : CmdReg} {code : Nat} {cc rsn : Field} {pend : Option Field} {i : Nat}
    (hcode : r.undefinedCode code = true) (hst : cmdStatus r = (cc, rsn, pend, i)) :
    Completes (exec (.badCommand r code) s) fun t =>
      rd t cc i = CC.failRefused ∧
      rd t rsn i = (if (pend.map fun p => rdB s p i) = some true then (if r = .modeCmd then Rsn.modeBusy else Rsn.busy)
        else Rsn.badCommand) ∧
      OnlyFields s t [(cc, i), (rsn, i)] := by
  obtain ⟨hkey, hcc, hmode, hbusy, hbad⟩ := cmdStatus_fits r
  rw [hst] at hkey hcc hmode hbusy hbad
  set reason := if (pend.map fun p => rdB s p i) = some true then (if r = .modeCmd then Rsn.modeBusy else Rsn.busy)
    else Rsn.badCommand with hreason
  have hfits : reason < 2 ^ rsn.width := by
    rw [hreason]
    split_ifs
    · exact hmode
    · exact hbusy
    · exact hbad
  have hexec : badCommand s r code = wr (wr s cc CC.failRefused i) rsn reason i := by
    simp only [badCommand, hst, hcode, if_true, hreason]
    cases pend <;> simp [busyReason]
  obtain ⟨hrcc, hrrsn, honly⟩ := wr_pair hkey s CC.failRefused reason
  exact ⟨_, congrArg Host.Outcome.next hexec, hrcc.trans (Nat.mod_eq_of_lt hcc),
    hrrsn.trans (Nat.mod_eq_of_lt hfits), honly⟩

/-- Settles O24: accesses that meet nothing are counted, those that meet a register are its own reads and writes, and an
undefined command code ends with its reason. -/
theorem refusedRegisterAccesses : Obligations.RefusedRegisterAccesses := by
  refine ⟨fun s addr bytes write => ⟨?_, ?_, ?_, ?_⟩, fun s r code cc rsn pend i hwf hst => badCommand_reads s hwf hst⟩
  · exact fun h => ⟨_, reservedAccess_misfit write h, refused_effect (counted_one s) write⟩
  · rintro ha rfl hu
    exact ⟨_, reservedAccess_narrow write ha hu, refused_effect (counted_one s) write⟩
  · rintro ha rfl hu hu4
    exact ⟨_, reservedAccess_wide write ha hu hu4, refused_effect (counted_two s) write⟩
  · refine fun ha hb => ⟨?_, ?_⟩
    · rintro rfl
      exact reservedAccess_read s ha hb
    · rintro rfl hd
      exact ⟨_, reservedAccess_write_defined ha hb hd⟩

end Sys2Proof.Machine
end

section
/-! SUPPORT. Control instructions (R38, R57, Tables 3.10, 3.11): what an instruction of a running task answers when its
guard holds, the iterations of a LOOP, and the word a task goes on at. -/

namespace Sys2Proof.Machine

/-! ### Instructions of a running task -/

/-- An instruction whose guard holds acts and goes on at the next word. -/
theorem kcis_of_guardOk {s : State} {sq : Sq} {g : Guard} {i : Inst} (hi : instOf s sq = some i)
    (hg : guardOk i g = true) (body : Inst → Inst) :
    Host.Outcome.next (kcis s sq g body) = ran s sq (body i) := by
  simp [kcis, hi, hg, ran]

/-- A control transfer whose guard holds places the word itself. -/
theorem kcisJump_of_guardOk {s : State} {sq : Sq} {g : Guard} {i : Inst} (hi : instOf s sq = some i)
    (hg : guardOk i g = true) (body : Inst → Inst) : kcisJump s sq g body = setInst s sq (body i) := by
  simp [kcisJump, hi, hg]

/-- A word offset that stays at or above word 0 is added as it is. -/
theorem pcPlus_of_nonneg {i : Inst} {off : BitVec 32} (h : 0 ≤ (i.pc : Int) + off.toInt) :
    (pcPlus i off : Int) = i.pc + off.toInt := Int.toNat_of_nonneg h

/-! ### The iterations of a LOOP (R57) -/

/-- The number of iterations a LOOP asks for: BOUND with no register, else the register's signed value. -/
def askedCount (i : Inst) (a : Reg) (bound : BitVec 16) : Int :=
  if a = 0 then (bound.toNat : Int) else (rW i a).toInt

/-- What is asked for is clamped to BOUND from above, which sets LOOPCLAMP, and to 0 from below. -/
theorem loopCount_eq (i : Inst) (a : Reg) (bound : BitVec 16) :
    loopCount i a bound =
      ((min (askedCount i a bound) bound.toNat).toNat, decide ((bound.toNat : Int) < askedCount i a bound)) := by
  unfold loopCount askedCount
  split_ifs with ha hb
  · simp
  · simp [hb, min_eq_right hb.le]
  · simp [hb, min_eq_left (not_lt.1 hb)]

/-- The flag of a clamped LOOP. -/
theorem setFlagIf_decide (i : Inst) (f : TFlag) (c : Prop) [Decidable c] :
    setFlagIf i f (decide c) = if c then setFlag i f else i := by
  by_cases h : c <;> simp [setFlagIf, h]

/-- A LOOP places its frame, or skips its body when nothing is asked for. -/
theorem execLoop_eq {s : State} {sq : Sq} {i : Inst} (hi : instOf s sq = some i) (d a : Reg) (bound body : BitVec 16)
    {n : Int} (hn : n = askedCount i a bound) {j : Inst}
    (hj : j = if (bound.toNat : Int) < n then setFlag i .loopclamp else i) :
    exec (.loop sq d a bound body) s = .next (setInst s sq
      (if (min n bound.toNat).toNat = 0 then goto j (j.pc + body.toNat + 1)
        else setW { j with
          pc := j.pc + 1
          loops := ⟨d, 0, (min n bound.toNat).toNat, j.pc + 1, j.pc + body.toNat, j.rets.length⟩ :: j.loops } d 0)) := by
  show Host.Outcome.next (kcisJump _ _ _ _) = _
  rw [kcisJump_of_guardOk hi rfl]
  simp only [loopCount_eq, setFlagIf_decide, ← hn, ← hj]

/-- Setting LOOPCLAMP moves neither the word nor the open loops and calls. -/
theorem clamped_frame {i j : Inst} {c : Prop} [Decidable c] (hj : j = if c then setFlag i .loopclamp else i) :
    j.pc = i.pc ∧ j.loops = i.loops ∧ j.rets = i.rets := by
  subst hj
  split_ifs <;> exact ⟨rfl, rfl, rfl⟩

/-! ### The next word (R57) -/

/-- With no loop open a task goes on at the next word. -/
theorem nextWord_of_no_loops {i : Inst} (h : i.loops = []) : nextWord i = { i with pc := i.pc + 1 } := by
  simp [nextWord, goto, h, closeLoops]

/-- After the last word of its body an open loop of the present call depth with iterations left goes back to its first
word. -/
theorem nextWord_repeats {i : Inst} {f : LoopFrame} {fs : List LoopFrame} (hl : i.loops = f :: fs)
    (hdepth : f.depth = i.rets.length) (hpc : i.pc = f.last) (hmore : f.i + 1 < f.n) :
    nextWord i =
      setW { i with pc := f.first, loops := { f with i := f.i + 1 } :: fs } f.reg (BitVec.ofNat 64 (f.i + 1)) := by
  simp [nextWord, goto, hl, closeLoops, hdepth, hpc, hmore]

/-- After its last iteration a loop with none around it closes, and the task goes on there. -/
theorem nextWord_closes {i : Inst} {f : LoopFrame} (hl : i.loops = [f]) (hdepth : f.depth = i.rets.length)
    (hpc : i.pc = f.last) (hdone : f.n ≤ f.i + 1) : nextWord i = { i with pc := f.last + 1, loops := [] } := by
  simp [nextWord, goto, hl, closeLoops, hdepth, hpc, Nat.not_lt.2 hdone]

/-- Settles O14: the reads of time and flags, the control transfers by `kcisJump`, and the closing of an iteration by the
cases of `closeLoops`. -/
theorem controlFlowResults : Obligations.ControlFlowResults := by
  refine ⟨fun s sq g d i hi hg => ?_, fun s sq g off d a bound body i hi hg => ⟨fun hoff => ?_, ?_, ?_⟩, ?_⟩
  · exact ⟨kcis_of_guardOk hi hg _, kcis_of_guardOk hi hg _, kcis_of_guardOk hi hg _, kcis_of_guardOk hi hg _⟩
  · have hpc := pcPlus_of_nonneg hoff
    exact ⟨⟨_, congrArg Host.Outcome.next (kcisJump_of_guardOk hi hg _), _, rfl, hpc, rfl⟩,
      ⟨_, congrArg Host.Outcome.next (kcisJump_of_guardOk hi hg _), _, rfl, hpc, rfl⟩⟩
  · intro r rs hrets
    show Host.Outcome.next (kcisJump _ _ _ _) = _
    rw [kcisJump_of_guardOk hi hg]
    simp only [hrets]
  · intro n hn j hj
    obtain ⟨hpc, hloops, hr⟩ := clamped_frame hj
    rw [execLoop_eq hi d a bound body hn hj, hpc, hloops, hr]
    refine ⟨fun hpos hbound => ?_, fun hneg => ?_⟩
    · rw [if_neg (by omega)]
    · rw [if_pos (by omega)]
  · rintro i f fs hl hdepth hpc
    refine ⟨nextWord_repeats hl hdepth hpc, ?_, fun x hx => nextWord_of_no_loops hx⟩
    rintro hdone rfl
    exact nextWord_closes hl hdepth hpc hdone

end Sys2Proof.Machine
end

section
/-! SUPPORT. The time base (R26 to R28): the fields that a change leaves, and the state after the time base is set. -/

namespace Sys2Proof.Machine

/-! ### Fields left alone -/

theorem fieldsBut_of_flds {s t : State} (h : t.flds = s.flds) (l : List (Field × Nat)) : FieldsBut s t l :=
  fun f i _ => congrArg (rdIn · f i) h

theorem fieldsBut_wr {f : Field} {i : Nat} {l : List (Field × Nat)} (h : (f, i) ∈ l) (s : State) (v : Nat) :
    FieldsBut s (wr s f v i) l := fun _ _ hg => rd_wr_ne (hg _ h) s v

theorem FieldsBut.trans {s t u : State} {l : List (Field × Nat)} (h : FieldsBut s t l) (h' : FieldsBut t u l) :
    FieldsBut s u l := fun f i hf => (h' f i hf).trans (h f i hf)

theorem FieldsBut.mono {s t : State} {l m : List (Field × Nat)} (h : FieldsBut s t l) (hl : l ⊆ m) :
    FieldsBut s t m := fun f i hf => h f i fun e he => hf e (hl he)

/-! ### Setting the time base -/

/-- Setting the time base writes no field but the edge of a swap that waits for the next one. -/
theorem setTime_fieldsBut (s : State) (t : Nat) :
    FieldsBut s (setTime s t) [(Reg.FCT_SWAPTICK_LO_KF, 0), (Reg.FCT_SWAPTICK_HI_KF, 0)] := by
  have hswap : ∀ (u : State) (k : Nat),
      FieldsBut u (moveSwap u k) [(Reg.FCT_SWAPTICK_LO_KF, 0), (Reg.FCT_SWAPTICK_HI_KF, 0)] := by
    intro u k
    unfold moveSwap
    split
    · exact (fieldsBut_wr (by simp) _ _).trans (fieldsBut_wr (by simp) _ _)
    · exact fun _ _ _ => rfl
  exact (hswap (moveTimes s s.tb.tick (t / tickNs s) s.tb.now t) _).trans (fieldsBut_of_flds rfl _)

theorem rd_setTime {f : Field} {i : Nat} (hlo : f.key i ≠ Reg.FCT_SWAPTICK_LO_KF.key 0)
    (hhi : f.key i ≠ Reg.FCT_SWAPTICK_HI_KF.key 0) (s : State) (t : Nat) : rd (setTime s t) f i = rd s f i :=
  setTime_fieldsBut s t f i (by simp [hlo, hhi])

@[simp] theorem setTime_now (s : State) (t : Nat) : (setTime s t).tb.now = t := rfl

@[simp] theorem setTime_tick (s : State) (t : Nat) : (setTime s t).tb.tick = t / tickNs s := rfl

/-- Setting the time base moves the time sources no other way than with it. -/
@[simp] theorem setTime_ptpOffset (s : State) (t : Nat) : (setTime s t).tb.ptpOffset = s.tb.ptpOffset := by
  have hswap : ∀ (u : State) (k : Nat), (moveSwap u k).tb.ptpOffset = u.tb.ptpOffset := by
    intro u k
    unfold moveSwap
    split <;> rfl
  exact hswap (moveTimes s s.tb.tick (t / tickNs s) s.tb.now t) _

end Sys2Proof.Machine
end

section
/-! SUPPORT. The time sources (R26, R27, R34 to R36, R281, R282): what a measured offset, a lost source and a message of the
selected master leave. -/

namespace Sys2Proof.Machine

/-! ### The PTP port and its state -/

/-- A field of one register is none of the fields PTPST of a port. -/
theorem ptpst_key_ne {f : Field} (h : f.id < Reg.NPCp_STATUS_PTPST.id) (p : Nat) :
    Reg.NPCp_STATUS_PTPST.key p ≠ f.key 0 := by
  simp only [Field.key]; omega

theorem ptpPort_of_ptpSlave {s : State} {p : Fin 16} (h : ptpSlave s p = true) :
    rd s Reg.TBC_DISC_PTPPORT = p.val := by
  simpa using (Bool.and_eq_true_iff.1 h).2

/-! ### A source that is lost (R35) -/

/-- The PTP source forgotten, PTPST apart. -/
def ptpDropped (s : State) : State :=
  { wr s Reg.TBC_DSTS_PTPQ 0 with
    tb := { s.tb with ptpGood := none }
    npc := { s.npc with ptp := { s.npc.ptp with sync := none, ms := none, req := none } } }

theorem rd_ptpDropped (s : State) (f : Field) (i : Nat) :
    rd (ptpDropped s) f i = rd (wr s Reg.TBC_DSTS_PTPQ 0) f i := rfl

/-- A lost source is forgotten, and PTPST of its port leaves 2. -/
theorem ptpLost_eq (s : State) :
    ptpLost s = if rd s Reg.NPCp_STATUS_PTPST (rd s Reg.TBC_DISC_PTPPORT) = 2 then
      wr (ptpDropped s) Reg.NPCp_STATUS_PTPST 1 (rd s Reg.TBC_DISC_PTPPORT) else ptpDropped s := by
  have hport : rd (ptpDropped s) Reg.TBC_DISC_PTPPORT = rd s Reg.TBC_DISC_PTPPORT :=
    (rd_ptpDropped _ _ _).trans (rd_wr_ne (by decide) s 0)
  have hst (j : Nat) : rd (ptpDropped s) Reg.NPCp_STATUS_PTPST j = rd s Reg.NPCp_STATUS_PTPST j :=
    (rd_ptpDropped _ _ _).trans (rd_wr_ne (ptpst_key_ne (by decide) j) s 0)
  show (if rd (ptpDropped s) Reg.NPCp_STATUS_PTPST (rd (ptpDropped s) Reg.TBC_DISC_PTPPORT) = 2 then
    wr (ptpDropped s) Reg.NPCp_STATUS_PTPST 1 (rd (ptpDropped s) Reg.TBC_DISC_PTPPORT) else ptpDropped s) = _
  rw [hport, hst]

@[simp] theorem ptpLost_tb (s : State) : (ptpLost s).tb = { s.tb with ptpGood := none } := by
  rw [ptpLost_eq]
  exact ite_keeps (p := State.tb) rfl rfl

@[simp] theorem ptpLost_out (s : State) : (ptpLost s).out = s.out := by
  rw [ptpLost_eq]
  exact ite_keeps (p := State.out) rfl rfl

theorem ptpLost_ptpq (s : State) : rd (ptpLost s) Reg.TBC_DSTS_PTPQ = 0 := by
  rw [ptpLost_eq]
  have hdropped : rd (ptpDropped s) Reg.TBC_DSTS_PTPQ = 0 :=
    (rd_ptpDropped _ _ _).trans (rd_wr_same s _ 0 0)
  exact ite_keeps (p := (rd · Reg.TBC_DSTS_PTPQ 0))
    ((rd_wr_ne (ptpst_key_ne (by decide) _).symm _ _).trans hdropped) hdropped

section

variable {s : State} {p : Fin 16}

theorem ptpLost_ptpst (h : ptpSlave s p = true) : rd (ptpLost s) Reg.NPCp_STATUS_PTPST p.val =
    if rd s Reg.NPCp_STATUS_PTPST p.val = 2 then 1 else rd s Reg.NPCp_STATUS_PTPST p.val := by
  rw [ptpLost_eq, ptpPort_of_ptpSlave h]
  split_ifs with hst
  · exact rd_wr_same _ _ _ _
  · exact (rd_ptpDropped _ _ _).trans (rd_wr_ne (ptpst_key_ne (by decide) _) s 0)

theorem ptpLost_fieldsBut (h : ptpSlave s p = true) :
    FieldsBut s (ptpLost s) [(Reg.NPCp_STATUS_PTPST, p.val), (Reg.TBC_DSTS_PTPQ, 0)] := by
  have hdropped : FieldsBut s (ptpDropped s) [(Reg.NPCp_STATUS_PTPST, p.val), (Reg.TBC_DSTS_PTPQ, 0)] :=
    FieldsBut.trans (fieldsBut_wr (f := Reg.TBC_DSTS_PTPQ) (i := 0) (by simp) s 0) (fieldsBut_of_flds rfl _)
  rw [ptpLost_eq, ptpPort_of_ptpSlave h]
  split_ifs
  · exact hdropped.trans (fieldsBut_wr (by simp) _ _)
  · exact hdropped

end

/-! ### Following a source (R26, log entry 25) -/

/-- The slew taken from a free value: toward the source, and none for an offset of 0. -/
def slewOf (n : Nat) (off : Int) : Int :=
  let m : Int := ((freeWord n).toNat % 50001 : Nat)
  if off = 0 then 0 else if 0 < off then m else -m

theorem slewOf_bound (n : Nat) (off : Int) : (slewOf n off).natAbs ≤ 50000 := by
  simp only [slewOf]
  split_ifs <;> omega

theorem slewOf_toward (n : Nat) (off : Int) : 0 ≤ slewOf n off * off := by
  simp only [slewOf]
  split_ifs with h0 hpos
  · simp
  · exact Int.mul_nonneg (by omega) hpos.le
  · exact Int.mul_nonneg_of_nonpos_of_nonpos (by omega) (by omega)

theorem slewOf_zero (n : Nat) : slewOf n 0 = 0 := rfl

/-- The state after the two free values of a correction are taken. -/
def rateDrawn (s : State) : State := { s with free := s.free + 2 }

theorem neededRate_eq (s : State) (off : Int) :
    neededRate s off = ((freeWord s.free).toInt, slewOf (s.free + 1) off, rateDrawn s) := rfl

/-- A number of 32 bits is read back from its pattern. -/
theorem signedOf_patternOf {v : Int} (hlo : -(2 ^ 31) ≤ v) (hhi : v < 2 ^ 31) :
    signedOf 32 (patternOf 32 v % 2 ^ 32) = v := by
  simp only [signedOf, patternOf]
  split_ifs <;> omega

/-- What following the PTP source at an offset leaves, the correction being `need` for the clock and `slew` for the
offset: within 100 ppm the rate of the selected source is set, beyond it the source is lost. -/
structure Followed (s t : State) (p : Fin 16) (need slew : Int) : Prop where
  tb : { t.tb with ptpGood := s.tb.ptpGood } = s.tb
  out : t.out = s.out
  fields : FieldsBut s t [(Reg.NPCp_STATUS_PTPST, p.val), (Reg.TBC_RATE_RATE, 0), (Reg.TBC_DSTS_PTPQ, 0)]
  kept : (need + slew).natAbs ≤ 100000 →
    t.tb = s.tb ∧ rd t Reg.NPCp_STATUS_PTPST p.val = rd s Reg.NPCp_STATUS_PTPST p.val ∧
      (rd s Reg.TBC_DSTS_SRC = 1 → signedOf 32 (rd t Reg.TBC_RATE_RATE) = max (-50000) (min 50000 need) + slew)
  lost : 100000 < (need + slew).natAbs →
    t.tb.ptpGood = none ∧ rd t Reg.TBC_DSTS_PTPQ = 0 ∧ rd t Reg.TBC_RATE_RATE = rd s Reg.TBC_RATE_RATE ∧
      rd t Reg.NPCp_STATUS_PTPST p.val =
        if rd s Reg.NPCp_STATUS_PTPST p.val = 2 then 1 else rd s Reg.NPCp_STATUS_PTPST p.val

/-- Beyond 100 ppm following the PTP source is losing it. -/
theorem followSource_lost {s : State} {off : Int}
    (h : 100000 < ((freeWord s.free).toInt + slewOf (s.free + 1) off).natAbs) :
    followSource s 1 off = ptpLost (rateDrawn s) := by
  simp only [followSource, neededRate_eq]
  exact if_pos h

/-- Within 100 ppm following the PTP source sets the rate when it is selected. -/
theorem followSource_kept {s : State} {off : Int}
    (h : ((freeWord s.free).toInt + slewOf (s.free + 1) off).natAbs ≤ 100000) :
    followSource s 1 off = if rd s Reg.TBC_DSTS_SRC = 1 then
      setRate (rateDrawn s) (freeWord s.free).toInt (slewOf (s.free + 1) off) else rateDrawn s := by
  simp only [followSource, neededRate_eq]
  exact if_neg (Nat.not_lt.2 h)

theorem followSource_followed {s : State} {p : Fin 16} (hp : ptpSlave s p = true) (off : Int) :
    Followed s (followSource s 1 off) p (freeWord s.free).toInt (slewOf (s.free + 1) off) := by
  set need := (freeWord s.free).toInt with hneed
  set slew := slewOf (s.free + 1) off with hslew
  by_cases h : 100000 < (need + slew).natAbs
  · have hfields := ptpLost_fieldsBut (s := rateDrawn s) hp
    rw [followSource_lost h]
    refine ⟨by rw [ptpLost_tb]; rfl, ptpLost_out _, hfields.mono (by simp), fun hk => absurd h (Nat.not_lt.2 hk),
      fun _ => ⟨by rw [ptpLost_tb], ptpLost_ptpq _, ?_, ptpLost_ptpst (s := rateDrawn s) hp⟩⟩
    exact hfields _ _ (by
      simp only [List.forall_mem_cons, List.not_mem_nil, false_implies, implies_true, and_true]
      exact ⟨(ptpst_key_ne (by decide) _).symm, by decide⟩)
  · rw [followSource_kept (Nat.not_lt.1 h)]
    by_cases hsrc : rd s Reg.TBC_DSTS_SRC = 1
    · rw [if_pos hsrc]
      refine ⟨rfl, rfl, fieldsBut_wr (by simp) (rateDrawn s) _, fun _ => ⟨rfl, ?_, fun _ => ?_⟩,
        fun hl => absurd hl h⟩
      · exact rd_wr_ne (ptpst_key_ne (by decide) _) (rateDrawn s) _
      · have hbound := slewOf_bound (s.free + 1) off
        rw [← hslew] at hbound
        exact (congrArg (signedOf 32) (rd_wr_same _ _ _ _)).trans (signedOf_patternOf (by omega) (by omega))
    · rw [if_neg hsrc]
      exact ⟨rfl, rfl, fun _ _ _ => rfl, fun _ => ⟨rfl, rfl, fun hs => absurd hs hsrc⟩, fun hl => absurd hl h⟩

/-! ### A measured offset (R27, R35) -/

/-- A measured offset is shown while its source is selected. -/
def offsetShown (s : State) (off : Int) : State := if rd s Reg.TBC_DSTS_SRC = 1 then showOffset s off else s

theorem offsetShown_frame (s : State) (off : Int) : { offsetShown s off with flds := s.flds } = s :=
  ite_keeps (s := showOffset s off) (t := s) (p := fun t => { t with flds := s.flds }) rfl rfl

theorem offsetShown_fieldsBut (s : State) (off : Int) : FieldsBut s (offsetShown s off) [(Reg.TBC_OFFSET_OFFSET, 0)] := by
  unfold offsetShown
  split_ifs
  · exact fieldsBut_wr (by simp) s _
  · exact fun _ _ _ => rfl

theorem mayStep_of_mode {s t : State} (h : rd t Reg.SSU_MODE_MODE = rd s Reg.SSU_MODE_MODE) : mayStep t = mayStep s := by
  have hmode : modeIs t = modeIs s := congrArg modeOf h
  unfold mayStep
  rw [hmode]

theorem mayStep_offsetShown (s : State) (off : Int) : mayStep (offsetShown s off) = mayStep s :=
  mayStep_of_mode (offsetShown_fieldsBut s off _ _ (by simp [Field.key, Reg.SSU_MODE_MODE, Reg.TBC_OFFSET_OFFSET]))

section

variable {s : State} {off : Int}

/-- In RECALL and HALT an offset from 1 µs on, of a source that none ranks above, moves the time base. -/
theorem sourceOffset_of_steps (hm : mayStep s = true) (hoff : 1000 ≤ off.natAbs)
    (hsrc : rd s Reg.TBC_DSTS_SRC ≤ 1) : sourceOffset s 1 off =
      setTime (followSource (offsetShown s off) 1 0) ((followSource (offsetShown s off) 1 0).tb.now + off).toNat := by
  have hm' : mayStep (offsetShown s off) = true := (mayStep_offsetShown s off).trans hm
  show (if mayStep (offsetShown s off) then _ else _) = _
  rw [if_pos hm', if_pos ⟨by simp only [stepBound]; omega, hsrc⟩]
  rfl

/-- Any other offset is slewed out, but for one beyond 1 ms in a running mode. -/
theorem sourceOffset_of_follows (h : mayStep s = true ∧ (off.natAbs < 1000 ∨ 1 < rd s Reg.TBC_DSTS_SRC) ∨
    mayStep s = false ∧ off.natAbs ≤ 1000000) : sourceOffset s 1 off = followSource (offsetShown s off) 1 off := by
  have hm' := mayStep_offsetShown s off
  show (if mayStep (offsetShown s off) then _ else _) = _
  rcases h with ⟨hm, h⟩ | ⟨hm, h⟩
  · rw [if_pos (hm'.trans hm), if_neg (by simp only [stepBound]; omega)]
    rfl
  · rw [if_neg (by simp [hm', hm]), if_neg (by omega)]
    rfl

/-- In a running mode a source beyond 1 ms is blocked. -/
theorem sourceOffset_of_blocks (hm : mayStep s = false) (h : 1000000 < off.natAbs) :
    sourceOffset s 1 off = blockSource (offsetShown s off) 1 := by
  have hm' := mayStep_offsetShown s off
  show (if mayStep (offsetShown s off) then _ else _) = _
  rw [if_neg (by simp [hm', hm]), if_pos h]
  rfl

/-- The PTP source lost and blocked, and STEPBLK shown. -/
def blockNoted (s : State) : State :=
  wr { ptpLost s with tb := { s.tb with ptpGood := none, blockedPtp := true } } Reg.TBC_DSTS_STEPBLK 1

/-- Blocking the PTP source is recorded once. -/
theorem blockSource_eq (s : State) : blockSource s 1 =
    if s.tb.blockedPtp then blockNoted s else event (blockNoted s) Ev.timeStepBlocked .warning [] := by
  simp [blockSource, disqualify, blockNoted]

theorem blockSource_reads (s : State) : rd (blockSource s 1) Reg.TBC_DSTS_STEPBLK = 1 ∧
    rd (blockSource s 1) Reg.TBC_DSTS_PTPQ = 0 ∧
    (blockSource s 1).tb = { s.tb with ptpGood := none, blockedPtp := true } := by
  have hblk : rd (blockNoted s) Reg.TBC_DSTS_STEPBLK = 1 := rd_wr_same _ _ _ _
  have hq : rd (blockNoted s) Reg.TBC_DSTS_PTPQ = 0 := (rd_wr_ne (by decide) _ 1).trans (ptpLost_ptpq s)
  rw [blockSource_eq]
  split_ifs
  · exact ⟨hblk, hq, rfl⟩
  · exact ⟨(event_rdIn _ _ _ _ (evrKeys_of_id (by decide) (by decide) (by decide) (by decide))).trans hblk,
      (event_rdIn _ _ _ _ (evrKeys_of_id (by decide) (by decide) (by decide) (by decide))).trans hq, event_tb _ _ _ _⟩

end

/-! ### A Sync of the selected master (R281) -/

/-- The state that a Sync leaves before its offset moves or steers the time base. -/
def syncNoted (s : State) (p : Fin 16) (r : PortRec) (ms off : Int) : State :=
  { emit (wr s Reg.NPCp_STATUS_PTPST 2 p.val) (.ptpDelayReq p (portTag r) r.ptpDom s.npc.ptp.reqSeq) with
    npc := { s.npc with ptp := { s.npc.ptp with
      sync := none, ms := some ms, req := some (s.npc.ptp.reqSeq, txTime s r), reqSeq := s.npc.ptp.reqSeq + 1 } }
    tb := { s.tb with
      ptpOffset := off, ptpGood := if off.natAbs < 1000 then some (s.tb.ptpGood.getD s.tb.now) else none } }

theorem ptpSynced_of_delay {s : State} {d : Int} (h : s.npc.ptp.delay = some d) (p : Fin 16) (r : PortRec) (ms : Int) :
    ptpSynced s p r ms = sourceOffset (syncNoted s p r ms (d - ms)) 1 (d - ms) := by
  simp only [ptpSynced, syncNoted, h]
  rfl

theorem rd_syncNoted (s : State) (p : Fin 16) (r : PortRec) (ms off : Int) (f : Field) (i : Nat) :
    rd (syncNoted s p r ms off) f i = rd (wr s Reg.NPCp_STATUS_PTPST 2 p.val) f i := rfl

/-- What a Sync on the slave port leaves as its offset enters the time base: the offset shown and noted, the next request
for the delay, and PTPST 2. -/
structure Measured (s w : State) (p : Fin 16) (r : PortRec) (off : Int) : Prop where
  tb : w.tb = { s.tb with
    ptpOffset := off, ptpGood := if off.natAbs < 1000 then some (s.tb.ptpGood.getD s.tb.now) else none }
  free : w.free = s.free
  out : w.out = s.out ++ [.ptpDelayReq p (portTag r) r.ptpDom s.npc.ptp.reqSeq]
  fields : FieldsBut s w [(Reg.NPCp_STATUS_PTPST, p.val), (Reg.TBC_OFFSET_OFFSET, 0)]
  ptpst : rd w Reg.NPCp_STATUS_PTPST p.val = 2
  shown : rd s Reg.TBC_DSTS_SRC = 1 → off.natAbs < 2 ^ 31 → signedOf 32 (rd w Reg.TBC_OFFSET_OFFSET) = off

theorem measured_offsetShown (s : State) (p : Fin 16) (r : PortRec) (ms off : Int) :
    Measured s (offsetShown (syncNoted s p r ms off) off) p r off := by
  have hframe := offsetShown_frame (syncNoted s p r ms off) off
  have hbut := offsetShown_fieldsBut (syncNoted s p r ms off) off
  refine ⟨(congrArg State.tb hframe :), (congrArg State.free hframe :), (congrArg State.out hframe :), ?_, ?_,
    fun hsrc hoff => ?_⟩
  · exact FieldsBut.trans (t := syncNoted s p r ms off)
      (FieldsBut.trans (fieldsBut_wr (f := Reg.NPCp_STATUS_PTPST) (i := p.val) (by simp) s 2) (fieldsBut_of_flds rfl _))
      (hbut.mono (by simp))
  · refine (hbut _ _ fun e he => ?_).trans ((rd_syncNoted _ _ _ _ _ _ _).trans (rd_wr_same s _ _ _))
    rw [List.mem_singleton.1 he]
    exact ptpst_key_ne (by decide) _
  · have hsel : rd (syncNoted s p r ms off) Reg.TBC_DSTS_SRC = 1 :=
      (rd_syncNoted _ _ _ _ _ _ _).trans ((rd_wr_ne (ptpst_key_ne (by decide) _).symm s 2).trans hsrc)
    rw [offsetShown, if_pos hsel]
    refine (congrArg (signedOf 32) (rd_wr_same _ _ _ _)).trans ?_
    rw [show max (-(2 ^ 31 - 1)) (min (2 ^ 31 - 1) off) = off by omega]
    exact signedOf_patternOf (by omega) (by omega)

section

variable {s w : State} {p : Fin 16} {r : PortRec} {off : Int}

/-- The registers of one element but OFFSET are as before the Sync. -/
theorem Measured.rd_eq (h : Measured s w p r off) {f : Field} (hst : f.id < Reg.NPCp_STATUS_PTPST.id)
    (hoff : f.key 0 ≠ Reg.TBC_OFFSET_OFFSET.key 0) : rd w f = rd s f :=
  h.fields f 0 (by simp [(ptpst_key_ne hst p.val).symm, hoff])

theorem Measured.ptpSlave (h : Measured s w p r off) (hp : ptpSlave s p = true) : ptpSlave w p = true := by
  have hen : rdB w Reg.TBC_DISC_PTPEN = rdB s Reg.TBC_DISC_PTPEN := by
    unfold rdB
    rw [h.rd_eq (by decide) (by decide)]
  unfold Machine.ptpSlave at hp ⊢
  rw [hen, h.rd_eq (by decide) (by decide)]
  exact hp

theorem Measured.now (h : Measured s w p r off) : w.tb.now = s.tb.now := by rw [h.tb]

theorem Measured.ptpOffset (h : Measured s w p r off) : w.tb.ptpOffset = off := by rw [h.tb]

/-- What a Sync leaves when its offset moves the time base. -/
theorem Measured.stepped (h : Measured s w p r off) (hp : Machine.ptpSlave s p = true) :
    let t := setTime (followSource w 1 0) ((followSource w 1 0).tb.now + off).toNat
    t.tb.ptpOffset = off ∧ t.tb.now = ((s.tb.now : Int) + off).toNat ∧ t.tb.tick = t.tb.now / tickNs s ∧
      rd t Reg.NPCp_STATUS_PTPST p.val = if 100000 < (freeWord s.free).toInt.natAbs then 1 else 2 := by
  have hf := followSource_followed (h.ptpSlave hp) 0
  rw [h.free, slewOf_zero] at hf
  have hnow : (followSource w 1 0).tb.now = s.tb.now :=
    (congrArg TbSt.now hf.tb : _ = w.tb.now).trans h.now
  have hlen : tickNs (followSource w 1 0) = tickNs s := by
    unfold tickNs
    rw [hf.fields _ 0 (by simp [(ptpst_key_ne (f := Reg.TBC_TICKCFG_TICKLEN) (by decide) p.val).symm]; decide),
      h.rd_eq (by decide) (by decide)]
  refine ⟨?_, ?_, ?_, ?_⟩
  · rw [setTime_ptpOffset]
    exact (congrArg TbSt.ptpOffset hf.tb : _ = w.tb.ptpOffset).trans h.ptpOffset
  · rw [setTime_now, hnow]
  · rw [setTime_tick, setTime_now, hlen]
  · rw [rd_setTime (ptpst_key_ne (by decide) _) (ptpst_key_ne (by decide) _)]
    split_ifs with hneed
    · obtain ⟨-, -, -, hst⟩ := hf.lost (by rwa [add_zero])
      rw [hst, h.ptpst, if_pos rfl]
    · obtain ⟨-, hst, -⟩ := hf.kept (by rw [add_zero]; omega)
      rw [hst, h.ptpst]

/-- What a Sync leaves when its offset steers the time base. -/
theorem Measured.followed (h : Measured s w p r off) (hp : Machine.ptpSlave s p = true) {need : Int}
    (hneed : need = (freeWord s.free).toInt) :
    let t := followSource w 1 off
    t.tb.now = s.tb.now ∧ t.tb.ptpOffset = off ∧
    t.out = s.out ++ [.ptpDelayReq p (portTag r) r.ptpDom s.npc.ptp.reqSeq] ∧
    (rd s Reg.TBC_DSTS_SRC = 1 → off.natAbs < 2 ^ 31 → signedOf 32 (rd t Reg.TBC_OFFSET_OFFSET) = off) ∧
    (∃ slew : Int, slew.natAbs ≤ 50000 ∧ 0 ≤ slew * off ∧ (off = 0 → slew = 0) ∧
      ((need + slew).natAbs ≤ 100000 → rd t Reg.NPCp_STATUS_PTPST p.val = 2 ∧
        t.tb.ptpGood = (if off.natAbs < 1000 then some (s.tb.ptpGood.getD s.tb.now) else none) ∧
        (rd s Reg.TBC_DSTS_SRC = 1 →
          signedOf 32 (rd t Reg.TBC_RATE_RATE) = max (-50000) (min 50000 need) + slew)) ∧
      (100000 < (need + slew).natAbs → rd t Reg.NPCp_STATUS_PTPST p.val = 1 ∧ rd t Reg.TBC_DSTS_PTPQ = 0 ∧
        t.tb.ptpGood = none ∧ rd t Reg.TBC_RATE_RATE = rd s Reg.TBC_RATE_RATE)) ∧
    FieldsBut s t [(Reg.NPCp_STATUS_PTPST, p.val), (Reg.TBC_OFFSET_OFFSET, 0), (Reg.TBC_RATE_RATE, 0),
      (Reg.TBC_DSTS_PTPQ, 0)] := by
  have hf := followSource_followed (h.ptpSlave hp) off
  rw [h.free, ← hneed] at hf
  refine ⟨?_, ?_, hf.out.trans h.out, fun hsrc hoff => ?_, ⟨slewOf (s.free + 1) off, slewOf_bound _ _,
    slewOf_toward _ _, ?_, fun hk => ?_, fun hl => ?_⟩, ?_⟩
  · exact (congrArg TbSt.now hf.tb : _ = w.tb.now).trans h.now
  · exact (congrArg TbSt.ptpOffset hf.tb : _ = w.tb.ptpOffset).trans h.ptpOffset
  · rw [hf.fields Reg.TBC_OFFSET_OFFSET 0
      (by simp [(ptpst_key_ne (f := Reg.TBC_OFFSET_OFFSET) (by decide) p.val).symm]; decide)]
    exact h.shown hsrc hoff
  · rintro rfl
    exact slewOf_zero _
  · obtain ⟨htb, hst, hrate⟩ := hf.kept hk
    exact ⟨hst.trans h.ptpst, by rw [htb, h.tb], fun hsrc => hrate ((h.rd_eq (by decide) (by decide)).trans hsrc)⟩
  · obtain ⟨hgood, hq, hrate, hst⟩ := hf.lost hl
    exact ⟨by rw [hst, h.ptpst, if_pos rfl], hq, hgood, hrate.trans (h.rd_eq (by decide) (by decide))⟩
  · exact (h.fields.mono (by simp)).trans (hf.fields.mono (by simp))

end

/-! ### The commands -/

section

variable {s : State} {p : Fin 16} {r : PortRec}

/-- A message of the selected master, other than an Announce, counts on the slave port. -/
theorem ptpSyncRx_of_selected (hr : portRec s p = some r) (hup : portUp s p = true) (hp : ptpSlave s p = true)
    {m : PtpMsg} {h : PtpHead} {stamp : Nat} (hm : ∀ h c, m ≠ .announce h c) (hh : ptpHead m = h)
    (hv : vlanOk r h.vlan = true) (hd : h.domain.toNat = r.ptpDom)
    (hb : (bestMaster (advance s stamp)).map (·.src) = some h.src) :
    ptpSyncRx s p m stamp = ptpFrom (advance s stamp) p r m stamp := by
  subst hh
  unfold ptpSyncRx
  rw [hr]
  dsimp only
  rw [if_neg (by simp [hup]), if_neg (by simp [hv]), if_neg (by simp [hp, hd])]
  cases m with
  | announce h c => exact absurd rfl (hm h c)
  | sync | followUp | delayResp => exact if_pos hb

/-- A Delay_Resp to the own request gives the path delay, half of both ways. -/
theorem ptpFrom_delayResp {h : PtpHead} {stamp : Nat} {received sent ms : Int}
    (hreq : s.npc.ptp.req = some (h.seq, sent)) (hms : s.npc.ptp.ms = some ms) :
    ptpFrom s p r (.delayResp h ⟨s.ssu.otp.devid, BitVec.ofNat 16 (p.val + 1)⟩ received) stamp =
      { s with npc := { s.npc with ptp := { s.npc.ptp with
        req := none, delay := some ((ms + (fromPtp s received - h.corr - sent)) / 2) } } } := by
  simp [ptpFrom, hreq, hms]

/-- A Sync of the selected master, the path delay being known, gives the offset to the time base. -/
theorem exec_sync (hr : portRec s p = some r) (hup : portUp s p = true) (hp : ptpSlave s p = true) {h : PtpHead}
    {stamp : Nat} {u : State} (hv : vlanOk r h.vlan = true) (hd : h.domain.toNat = r.ptpDom) (hu : u = advance s stamp)
    (hb : (bestMaster u).map (·.src) = some h.src) {origin d off : Int} (hdelay : s.npc.ptp.delay = some d)
    (hoff : off = d - ((stamp : Int) - r.rxLat - h.corr - fromPtp u origin)) :
    ∃ ms, exec (.ptpSyncRx p (.sync h false origin) stamp) s = .next (sourceOffset (syncNoted u p r ms off) 1 off) := by
  subst hu hoff
  have hfrom : ptpFrom (advance s stamp) p r (.sync h false origin) stamp =
      ptpSynced (advance s stamp) p r (stamp - r.rxLat - h.corr - fromPtp (advance s stamp) origin) := rfl
  refine ⟨stamp - r.rxLat - h.corr - fromPtp (advance s stamp) origin, ?_⟩
  show Host.Outcome.next (ptpSyncRx _ _ _ _) = _
  rw [ptpSyncRx_of_selected (m := .sync h false origin) hr hup hp (by simp) rfl hv hd hb, hfrom, ptpSynced_of_delay (s := advance s stamp) hdelay]

/-- The PTP source qualifies by the latched currentUtcOffset. -/
theorem exec_ptpQualify (hup : portUp s p = true) (hp : ptpSlave s p = true) (hblocked : s.tb.blockedPtp = false)
    {since : Nat} (hgood : s.tb.ptpGood = some since) (hdue : since + qualNs s ≤ s.tb.now) (utc : Int) :
    exec (.ptpQualify utc) s = .next { wr s Reg.TBC_DSTS_PTPQ 1 with tb := { s.tb with ptpUtc := some utc } } := by
  have hport : Fin.ofNat 16 (rd s Reg.TBC_DISC_PTPPORT) = p := by
    rw [ptpPort_of_ptpSlave hp]
    exact Fin.ofNat_val_eq_self p
  have hen : rdB s Reg.TBC_DISC_PTPEN = true := (Bool.and_eq_true_iff.1 hp).1
  have hready : ptpReady s = true := by
    unfold ptpReady
    rw [hen, hblocked, hport, hup, hgood]
    simpa using hdue
  show Host.Outcome.next (if ptpReady s = true then _ else _) = _
  rw [if_pos hready]

/-- An Announce goes out where it is due. -/
def announced (s : State) (p : Fin 16) (r : PortRec) : State :=
  if dueAgain s s.npc.ptp.announceAt p.val (2 * 10 ^ 9) then
    emit { s with npc := { s.npc with ptp := { s.npc.ptp with announceAt := tput s.npc.ptp.announceAt p.val s.tb.now } } }
      (.ptpAnnounce p (portTag r) r.ptpDom r.prio1 248)
  else s

/-- A Sync goes out, with its number and, of a one-step port, its time. -/
def syncPut (s : State) (p : Fin 16) (r : PortRec) (n : BitVec 16) (t : Int) : State :=
  emit (wr { s with npc := { s.npc with ptp := { s.npc.ptp with
      seqs := tput s.npc.ptp.seqs p.val (n + 1), syncAt := tput s.npc.ptp.syncAt p.val s.tb.now } } }
    Reg.NPCp_STATUS_PTPST 3 p.val) (.ptpSync p (portTag r) r.ptpDom n (if r.twoStep then none else some t))

theorem announced_out (s : State) (p : Fin 16) (r : PortRec) : (announced s p r).out = s.out ++
    if dueAgain s s.npc.ptp.announceAt p.val (2 * 10 ^ 9) then [.ptpAnnounce p (portTag r) r.ptpDom r.prio1 248]
      else [] := by
  unfold announced
  split_ifs
  · rfl
  · exact (List.append_nil _).symm

theorem syncPut_ptpst (s : State) (p : Fin 16) (r : PortRec) (n : BitVec 16) (t : Int) :
    rd (syncPut s p r n t) Reg.NPCp_STATUS_PTPST p.val = 3 := rd_wr_same s Reg.NPCp_STATUS_PTPST p.val 3

/-- A Sync goes out behind an Announce that is due, and before the Follow_Up of a two-step port. -/
theorem sendSync_eq (s : State) (p : Fin 16) (r : PortRec) {n : BitVec 16}
    (hn : n = (tget s.npc.ptp.seqs p.val).getD 0) : sendSync s p r =
      if r.twoStep then emit (syncPut (announced s p r) p r n (txTime s r))
        (.ptpFollowUp p (portTag r) r.ptpDom n (txTime s r)) else syncPut (announced s p r) p r n (txTime s r) := by
  have hkept : (announced s p r).npc.ptp.seqs = s.npc.ptp.seqs ∧ (announced s p r).npc.ptp.syncAt = s.npc.ptp.syncAt :=
    ⟨ite_keeps (p := (·.npc.ptp.seqs)) rfl rfl, ite_keeps (p := (·.npc.ptp.syncAt)) rfl rfl⟩
  subst hn
  unfold syncPut
  rw [hkept.1, hkept.2]
  rfl

end

/-- Settles O40: a Sync by the three cases of `sourceOffset`, the other events by what each leaves. -/
theorem timeSourceEvents : Obligations.TimeSourceEvents := by
  intro s p r hr hup
  refine ⟨fun hp h stamp u hv hd hu hb => ⟨fun origin d off need hdelay hoff hneed => ?_,
    fun received sent ms hreq hms => ?_⟩, fun hp hblocked since utc hgood hdue => ?_, ?_, fun hno => ?_, fun hsome => ?_,
    fun hhalt => ?_, fun hsends => ⟨fun hdue n hn => ?_, fun hnot => ?_, fun q hq hv hd => ?_⟩⟩
  · obtain ⟨ms, hexec⟩ := exec_sync hr hup hp hv hd hu hb hdelay hoff
    have hmeas := measured_offsetShown u p r ms off
    have hmode : mayStep (syncNoted u p r ms off) = mayStep s := by
      subst hu
      exact mayStep_of_mode ((rd_syncNoted _ _ _ _ _ _ _).trans (rd_wr_ne (ptpst_key_ne (by decide) _).symm _ _))
    have hsrc : rd (syncNoted u p r ms off) Reg.TBC_DSTS_SRC = rd s Reg.TBC_DSTS_SRC := by
      subst hu
      exact (rd_syncNoted _ _ _ _ _ _ _).trans (rd_wr_ne (ptpst_key_ne (by decide) _).symm _ _)
    refine ⟨fun hm ho hs => ?_, fun hcase => ?_, fun hm ho => ?_⟩
    · refine ⟨_, hexec.trans (congrArg _ (sourceOffset_of_steps (hmode.trans hm) ho (hsrc ▸ hs))), ?_⟩
      subst hu hneed
      exact hmeas.stepped hp
    · rw [← hmode, ← hsrc] at hcase
      refine ⟨_, hexec.trans (congrArg _ (sourceOffset_of_follows hcase)), ?_⟩
      subst hu
      exact hmeas.followed hp hneed
    · obtain ⟨hblk, hq, htb⟩ := blockSource_reads (offsetShown (syncNoted u p r ms off) off)
      refine ⟨_, hexec.trans (congrArg _ (sourceOffset_of_blocks (hmode.trans hm) ho)), hblk, hq, htb.trans ?_⟩
      rw [hmeas.tb]
  · subst hu
    show Host.Outcome.next (ptpSyncRx _ _ _ _) = _
    rw [ptpSyncRx_of_selected (m := .delayResp h _ received) hr hup hp (by simp) rfl hv hd hb]
    exact congrArg _ (ptpFrom_delayResp hreq hms)
  · refine ⟨_, exec_ptpQualify hup hp hblocked hgood hdue utc, rd_wr_same s Reg.TBC_DSTS_PTPQ 0 1, rfl, rfl, ?_⟩
    exact fieldsBut_wr (f := Reg.TBC_DSTS_PTPQ) (i := 0) (by simp) { s with tb := { s.tb with ptpUtc := some utc } } 1
  · exact ⟨_, rfl, ptpLost_ptpq s, ptpLost_tb s, ptpLost_ptpst⟩
  · have hnone : (List.range 4).any (brings s) = false := by simpa using hno
    refine ⟨apexLoss s, ?_, rd_wr_same s Reg.TBC_DSTS_APEXQ 0 0, rfl⟩
    show Host.Outcome.next (if (List.range 4).any (brings s) = true then _ else _) = _
    rw [hnone]
    rfl
  · have hany : (List.range 4).any (brings s) = true := by simpa using hsome
    show Host.Outcome.next (if (List.range 4).any (brings s) = true then _ else _) = _
    rw [if_pos hany]
  · exact congrArg _ (if_pos hhalt)
  · refine ⟨sendSync s p r, ?_, ?_, ?_⟩
    · show Host.Outcome.next (ptpSyncTx s p) = _
      simp only [ptpSyncTx, hr, hsends, hdue, Bool.and_self, if_true]
    · have hst := syncPut_ptpst (announced s p r) p r n (txTime s r)
      rw [sendSync_eq s p r hn]
      exact ite_keeps (p := (rd · Reg.NPCp_STATUS_PTPST p.val)) hst hst
    · rw [sendSync_eq s p r hn, ← announced_out]
      split_ifs with h2
      · simp [syncPut, h2]
      · simp [syncPut, h2]
  · show Host.Outcome.next (ptpSyncTx s p) = _
    simp [ptpSyncTx, hr, hnot]
  · subst hq
    show Host.Outcome.next (ptpDelayReq s q) = _
    simp [ptpDelayReq, hr, hup, hsends, hv, hd]

end Sys2Proof.Machine
end

section
/-! SUPPORT. What the course of a tick turns on (R28 to R31): the instant, the tick and its phases, the mode, the tick
configuration, the agreed sets and the armed changes. What the units do at an edge and at a change of the tick
configuration leaves it alone. -/

namespace Sys2Proof.Machine

/-- What the course of a tick turns on. -/
structure Course where
  now : Nat
  tick : Nat
  ph1 : Bool
  ph2 : Bool
  ph3 : Bool
  mode : Nat
  len : Nat
  agree : Nat
  bad : Nat
  sets : List AgreedSet
  prog : Option Armed
  facet : Option Armed

/-- The course of a state. -/
def course (s : State) : Course where
  now := s.tb.now
  tick := s.tb.tick
  ph1 := s.tb.ph1
  ph2 := s.tb.ph2
  ph3 := s.tb.ph3
  mode := rd s Reg.SSU_MODE_MODE
  len := rd s Reg.TBC_TICKCFG_TICKLEN
  agree := rd s Reg.TBC_TICKCFG_AGREE
  bad := rd s Reg.TBC_TICKCFG_BADCFG
  sets := s.rdu.agreed
  prog := s.csa.armed
  facet := s.fct.armed

theorem modeIs_of_course {s t : State} (h : course t = course s) : modeIs t = modeIs s :=
  congrArg modeOf (congrArg Course.mode h)

theorem tickNs_of_course {s t : State} (h : course t = course s) : tickNs t = tickNs s := by
  have hlen : rd t Reg.TBC_TICKCFG_TICKLEN = rd s Reg.TBC_TICKCFG_TICKLEN := congrArg Course.len h
  simp only [tickNs, hlen]

/-! ### Register fields, output and events -/

/-- The fields of the course. -/
def courseKey (k : Nat) : Bool :=
  [Reg.SSU_MODE_MODE, Reg.TBC_TICKCFG_TICKLEN, Reg.TBC_TICKCFG_AGREE, Reg.TBC_TICKCFG_BADCFG].any fun f => f.key 0 = k

/-- Every field behind BADCFG in the table, whatever its element, is none of the course's. -/
theorem courseKey_of_id {f : Field} (h : Reg.TBC_TICKCFG_BADCFG.id < f.id) (i : Nat) : courseKey (f.key i) = false := by
  have hbad : 104 < f.id := by simpa [Reg.TBC_TICKCFG_BADCFG] using h
  simp [courseKey, Field.key, Reg.SSU_MODE_MODE, Reg.TBC_TICKCFG_TICKLEN, Reg.TBC_TICKCFG_AGREE,
    Reg.TBC_TICKCFG_BADCFG]
  omega

/-- States that differ in other fields, and in nothing else of the course, have one course. -/
theorem course_of_fields {s t : State} (hf : ∀ f : Field, courseKey (f.key 0) = true → rd t f = rd s f)
    (htb : t.tb = s.tb) (hrdu : t.rdu.agreed = s.rdu.agreed) (hcsa : t.csa.armed = s.csa.armed)
    (hfct : t.fct.armed = s.fct.armed) : course t = course s := by
  simp only [course, htb, hrdu, hcsa, hfct, hf _ (by decide : courseKey (Reg.SSU_MODE_MODE.key 0) = true),
    hf _ (by decide : courseKey (Reg.TBC_TICKCFG_TICKLEN.key 0) = true),
    hf _ (by decide : courseKey (Reg.TBC_TICKCFG_AGREE.key 0) = true),
    hf _ (by decide : courseKey (Reg.TBC_TICKCFG_BADCFG.key 0) = true)]

theorem course_wr {f : Field} {i : Nat} (h : courseKey (f.key i) = false) (s : State) (v : Nat) :
    course (wr s f v i) = course s :=
  course_of_fields (fun g hg => rd_wr_ne (by rintro hk; rw [hk, h] at hg; cases hg) s v) rfl rfl rfl rfl

theorem course_wr_of_id {f : Field} (h : Reg.TBC_TICKCFG_BADCFG.id < f.id) (s : State) (v i : Nat) :
    course (wr s f v i) = course s := course_wr (courseKey_of_id h i) s v

theorem course_wrB_of_id {f : Field} (h : Reg.TBC_TICKCFG_BADCFG.id < f.id) (s : State) (b : Bool) (i : Nat) :
    course (wrB s f b i) = course s := course_wr_of_id h s _ i

theorem course_bump_of_id {f : Field} (h : Reg.TBC_TICKCFG_BADCFG.id < f.id) (s : State) (i n : Nat) :
    course (bump s f i n) = course s := course_wr_of_id h s _ i

theorem course_setStatus_of_id {cc rsn pend : Field} (hcc : Reg.TBC_TICKCFG_BADCFG.id < cc.id)
    (hrsn : Reg.TBC_TICKCFG_BADCFG.id < rsn.id) (hpend : Reg.TBC_TICKCFG_BADCFG.id < pend.id) (s : State)
    (code reason i : Nat) : course (setStatus s cc rsn pend code reason i) = course s :=
  (course_wr_of_id hpend _ _ _).trans <| (course_wr_of_id hrsn _ _ _).trans (course_wr_of_id hcc _ _ _)

theorem course_event (s : State) (code : Nat) (sev : Sev) (ps : List Nat) :
    course (event s code sev ps) = course s := by
  have hkey {f : Field} (h : courseKey (f.key 0) = true) : evrKeys (f.key 0) := by
    have hne (g : Field) (i : Nat) (hg : Reg.TBC_TICKCFG_BADCFG.id < g.id) : f.key 0 ≠ g.key i := by
      rintro hk
      rw [hk, courseKey_of_id hg] at h
      cases h
    exact ⟨hne _ _ (by decide), hne _ _ (by decide), fun i _ => hne _ _ (by decide)⟩
  exact course_of_fields (fun f hf => event_rdIn s code sev ps (hkey hf)) (event_tb _ _ _ _)
    (congrArg RduSt.agreed (event_rdu _ _ _ _)) (congrArg CsaSt.armed (event_csa _ _ _ _))
    (congrArg FctSt.armed (event_fct _ _ _ _))

theorem course_sendChord (s : State) (l : Option (Fin 2)) (k : Nat) (late : Bool) (b : ChordBody) :
    course (sendChord s l k late b) = course s := rfl

/-! ### Requests to the store -/

theorem course_setQueue (s : State) (l : List WriteReq) : course (setQueue s l) = course s :=
  course_wr_of_id (by decide) { s with nvs := { s.nvs with queue := l } } _ _

theorem course_nvsFail (s : State) (cls code reason : Nat) : course (nvsFail s cls code reason) = course s :=
  ite_keeps rfl <| (course_wr_of_id (by decide) _ _ _).trans <| (course_wr_of_id (by decide) _ _ _).trans
    (course_wr_of_id (by decide) _ _ _)

theorem course_slotWritten (s : State) (code : Nat) (prog : Bool) : course (slotWritten s code prog) = course s := by
  unfold slotWritten
  extract_lets waits u
  have hu : course u = course s := ite_keeps (course_wr_of_id (by decide) _ _ _) rfl
  exact ite_keeps rfl (ite_keeps ((course_wr_of_id (by decide) _ _ _).trans hu) hu)

theorem course_calWritten (s : State) (code reason : Nat) : course (calWritten s code reason) = course s := by
  have hfin (m : MteSt) (c r k : Nat) : course (wr (setStatus { s with mte := m } Reg.MTE_CALSTS_CC Reg.MTE_CALSTS_RSN
      Reg.MTE_CALSTS_PEND c r) Reg.MTE_CALSTS_STAGE k) = course s :=
    (course_wr_of_id (by decide) _ _ _).trans <|
      course_setStatus_of_id (by decide) (by decide) (by decide) { s with mte := m } c r 0
  unfold calWritten
  refine ite_keeps ?_ rfl
  dsimp only
  split
  · exact hfin _ _ _ _
  · exact ite_keeps (hfin _ _ _ _) (hfin _ _ _ _)

theorem course_noShadow (s : State) : course (noShadow s) = course s :=
  (course_wr_of_id (by decide) _ _ _).trans (course_wr_of_id (by decide) _ _ _)

/-- The end of a service command that waited on a write. -/
theorem course_svcEnd (s : State) (code reason : Nat) : course (setStatus { s with ssu := { s.ssu with svc := none } }
    Reg.SSU_SVCSTS_CC Reg.SSU_SVCSTS_RSN Reg.SSU_SVCSTS_PEND code reason) = course s :=
  (course_wr (by decide) _ _).trans <| (course_wr (by decide) _ _).trans <|
    course_wr (f := Reg.SSU_SVCSTS_CC) (i := 0) (by decide) { s with ssu := { s.ssu with svc := none } } code

theorem course_nvsReport (s : State) (cls : Nat) (who : Requester) (code reason : Nat) :
    course (nvsReport s cls who code reason) = course s := by
  have h := course_nvsFail s cls code reason
  unfold nvsReport
  extract_lets u
  cases who with
  | meter => exact (course_wr_of_id (by decide) _ _ _).trans <| (course_wr_of_id (by decide) _ _ _).trans h
  | load =>
    exact (course_setStatus_of_id (by decide) (by decide) (by decide) _ _ _ _).trans <|
      (course_wr_of_id (by decide) { u with csa := { u.csa with loading := none } } _ _).trans h
  | prepare =>
    dsimp only
    refine (course_setStatus_of_id (by decide) (by decide) (by decide) _ _ _ _).trans <|
      (course_wr_of_id (by decide) _ _ _).trans ?_
    exact ite_keeps h ((course_noShadow _).trans h)
  | slotProg | slotFacet => exact (course_slotWritten _ _ _).trans h
  | clearRetire | claim => exact ite_keeps ((course_svcEnd _ _ _).trans h) h
  | cal => exact (course_calWritten _ _ _).trans h
  | _ => exact h

theorem course_nvsRequest (s : State) (r : WriteReq) : course (nvsRequest s r) = course s := by
  unfold nvsRequest
  refine ite_keeps (course_nvsReport _ _ _ _ _) <| ite_keeps (course_nvsReport _ _ _ _ _) ?_
  split
  · exact (course_nvsReport _ _ _ _ _).trans (course_setQueue _ _)
  · exact ite_keeps (course_nvsReport _ _ _ _ _) (course_setQueue _ _)

theorem course_nvsSave (s : State) (cls : Nat) (d : RecData) (who : Requester) (n : Nat) :
    course (nvsSave s cls d who n) = course s := course_nvsRequest _ _

/-! ### Faults of loop lanes -/

theorem course_putYield (s : State) (e row : Nat) : course (putYield s e row) = course s := ite_keeps rfl rfl

theorem course_holdCause (s : State) (c : FClass) : course (holdCause s c) = course s :=
  ite_keeps (ite_keeps (course_putYield _ _ _) rfl) rfl

theorem course_setResState_loop (s : State) (n : Nat) (m : MState) : course (setResState s ⟨.loop, n⟩ m) = course s :=
  course_wr_of_id (f := Reg.LPE_LANESTS_MSTATE) (by decide) s _ n

theorem course_setFcount_loop (s : State) (n k : Nat) : course (setFcount s ⟨.loop, n⟩ k) = course s :=
  course_wr_of_id (f := Reg.LPE_LANESTS_FCOUNT) (by decide) s k n

theorem course_windowClose_loop (s : State) (n : Nat) : course (windowClose s ⟨.loop, n⟩) = course s := by
  unfold windowClose
  split
  · rfl
  · exact ite_keeps ((course_setFcount_loop _ _ _).trans (course_setResState_loop _ _ _)) rfl

section

variable {work : State → State} (hwork : ∀ s, course (work s) = course s)
include hwork

theorem course_retire_loop (s : State) (n : Nat) (bist : Bool) :
    course (retire s ⟨.loop, n⟩ bist work).1 = course s := by
  have hmark : course (markRetired s ⟨.loop, n⟩) = course s :=
    (course_wr_of_id (f := Reg.LPE_LANESTS_QUAL) (by decide) _ _ n).trans
      (course_wr_of_id (f := Reg.LPE_LANESTS_MSTATE) (by decide) s _ n)
  unfold retire
  rw [apply_ite Prod.fst, apply_ite Prod.fst]
  refine ite_keeps rfl <| ite_keeps ((course_event _ _ _ _).trans (course_setResState_loop _ _ _)) ?_
  refine (course_event _ _ _ _).trans <| (course_nvsSave _ _ _ _ _).trans ?_
  have hout (u : SsuSt) := (hwork { dropWindow (markRetired s ⟨.loop, n⟩) ⟨.loop, n⟩ with ssu := u }).trans hmark
  exact ite_keeps ((course_wr (by decide) _ _).trans (hout _)) (hout _)

theorem course_upset_loop (s : State) (n : Nat) : course (upset s ⟨.loop, n⟩ work).1 = course s := by
  have hclose := course_windowClose_loop s n
  have hopen (m : MState) (k : Nat) :
      course (setFcount (setResState (windowClose s ⟨.loop, n⟩) ⟨.loop, n⟩ m) ⟨.loop, n⟩ k) = course s :=
    (course_setFcount_loop _ _ _).trans <| (course_setResState_loop _ _ _).trans hclose
  unfold upset
  dsimp only
  split
  · exact hopen .suspect 1
  · exact hopen .suspect 1
  · exact (course_retire_loop hwork _ _ _).trans <| (course_setFcount_loop _ _ _).trans hclose
  · exact hclose

end

/-! ### The Loop Engine -/

theorem course_saveCoef (s : State) (n : Nat) : course (saveCoef s n) = course s := course_nvsSave _ _ _ _ _

theorem course_swapBank (s : State) (n : Nat) : course (swapBank s n) = course s := by
  unfold swapBank
  refine ite_keeps ?_ rfl
  extract_lets u o c bad _ w x _ z
  have hw : course w = course s := by
    refine Eq.trans ?_ (course_wr_of_id (f := Reg.LPE_LSTS_PENDSWAP) (by decide) s 0 n)
    simp only [w]
    split <;> rfl
  have hx : course x = course s :=
    (course_wr_of_id (by decide) _ _ _).trans <| (course_wr_of_id (by decide) _ _ _).trans hw
  have hz : course z = course s := by
    refine Eq.trans ?_ hx
    simp only [z]
    split
    · exact ite_keeps rfl (ite_keeps (course_wr_of_id (by decide) { x with lpe := _ } _ _) rfl)
    · rfl
  exact ite_keeps ((course_wr_of_id (by decide) _ _ _).trans hw) ((course_saveCoef _ _).trans hz)

theorem course_swapDisabled (s : State) : course (swapDisabled s) = course s :=
  foldl_keeps course course_swapBank _ _

theorem course_showLoops (s : State) : course (showLoops s) = course s :=
  foldl_keeps course (fun _ _ => course_wr_of_id (by decide) _ _ _) _ _

theorem course_undoSample (s : State) (w : LoopWas) : course (undoSample s w) = course s := by
  unfold undoSample
  extract_lets n runs _ u v
  split
  · rfl
  · next shown awaited _ =>
    extract_lets x _ y
    have hx : course x = course s :=
      (course_wrB_of_id (by decide) _ _ _).trans <| (course_wr_of_id (by decide) _ _ _).trans
        (course_wr_of_id (by decide) u _ _)
    have hy : course y = course s := by
      refine Eq.trans ?_ hx
      simp only [y]
      split
      · exact ite_keeps rfl rfl
      · rfl
    exact (course_saveCoef _ _).trans hy

theorem course_skipLoop (s : State) (n : Nat) : course (skipLoop s n) = course s := by
  unfold skipLoop
  extract_lets _ u v
  have hu : course u = course s := by
    simp only [u]
    split
    · exact course_undoSample { s with lpe := _ } _
    · rfl
  exact (course_wr_of_id (f := Reg.LPE_LSTS_S_SKIP) (by decide) u 1 n).trans hu

theorem course_lanesChanged (s : State) : course (lanesChanged s) = course s := by
  have hshow := course_wr_of_id (f := Reg.LPE_STATUS_LANES) (by decide) s (lanesUp s) 0
  have hskip := (foldl_keeps course course_skipLoop
    ((wr s Reg.LPE_STATUS_LANES (lanesUp s)).lpe.results.map (·.loop)) _).trans hshow
  exact ite_keeps ((course_holdCause _ _).trans <| (course_wr_of_id (by decide) _ _ _).trans <|
    (course_showLoops _).trans hskip) hshow

/-- The deadline of the Loop Engine, met or missed, leaves the course. -/
theorem course_lpePhase2 (s : State) : course (lpePhase2 s) = course s := by
  have hskip := foldl_keeps course course_skipLoop (s.lpe.results.map (·.loop)) s
  refine ite_keeps ?_ rfl
  refine (foldl_keeps course (fun a n => course_upset_loop course_lanesChanged a n) _ _).trans ?_
  exact hskip

theorem course_lcmdSettle (s : State) : course (lcmdSettle s) = course s := by
  unfold lcmdSettle
  split
  · exact ite_keeps (course_setStatus_of_id (by decide) (by decide) (by decide) { s with lpe := _ } _ _ _) rfl
  · rfl

end Sys2Proof.Machine
end

section
/-! SUPPORT. The phases of a tick (R302, R305, R41, R31, R313) in a unit that closes its own set and runs nothing, and
the end of a tick in RECALL: still the same tick, with no input agreed and nothing armed. -/

namespace Sys2Proof.Machine

/-! ### Phases -/

/-- Nothing runs on any sequencer: the commit deadline meets none of them. -/
theorem csaPhase2_idle {s : State} (h : ∀ sq, instOf s sq = none) : csaPhase2 s = s := by
  unfold csaPhase2
  generalize List.finRange 18 = l
  induction l with
  | nil => rfl
  | cons sq l ih => simpa only [List.foldl_cons, h sq] using ih

theorem recheck_unarmed {s : State} (hp : s.csa.armed = none) (hf : s.fct.armed = none) : recheck s = s := by
  simp [recheck, hp, hf, firstOf]

/-- A unit that closes no set with a partner closes its own: with no input of an earlier tick it is the empty one. -/
theorem closeSet_quiet {s : State} (halone : linked s = false ∨ emitMode s ≠ .active)
    (hown : ∀ e ∈ s.rdu.own, s.tb.tick ≤ e.1) (hpartner : s.rdu.partner = []) :
    closeSet s = { s with rdu := { s.rdu with
      late := [], lateRun := false, agreed := s.rdu.agreed ++ [⟨s.tb.tick + 1, []⟩], prevSet := [],
      built := s.tb.tick } } := by
  have hcond : !linked s ∨ s.tb.tick - 1 < s.rdu.carryFrom ∨ emitMode s ≠ .active := by
    rcases halone with h | h
    · exact .inl (by simp [h])
    · exact .inr (.inr h)
  have hsent : (s.rdu.own.filter fun e => e.1 < s.tb.tick) = [] :=
    List.filter_eq_nil_iff.2 fun e he => by simpa using hown e he
  have hkept : (s.rdu.own.filter fun e => s.tb.tick ≤ e.1) = s.rdu.own :=
    List.filter_eq_self.2 fun e he => by simpa using hown e he
  unfold closeSet
  dsimp only
  rw [if_pos hcond]
  simp [hsent, hpartner, inputSort, dropOwn, dropHis, hkept, agreeSet]

theorem saveJudge_of_ne_save {s : State} (h : modeIs s ≠ .save) : saveJudge s = s := by
  simp [saveJudge, h]

theorem emitMode_of_ne_save {s : State} (h : modeIs s ≠ .save) : emitMode s = modeIs s := by
  simp [emitMode, h]

/-- The state at phase 1 of a unit that closes the empty set for itself. -/
def quietPhase1 (s : State) : State :=
  let u := toPhase { s with tb := { s.tb with ph1 := true } } (rd s Reg.TBC_TICKCFG_AGREE)
  { u with rdu := { u.rdu with
    late := [], lateRun := false, agreed := u.rdu.agreed ++ [⟨u.tb.tick + 1, []⟩], prevSet := [], built := u.tb.tick } }

theorem phase1_quiet {s : State} (hph : s.tb.ph1 = false) (hsave : modeIs s ≠ .save) (hstandby : modeIs s ≠ .standby)
    (hresync : modeIs s ≠ .resync) (halone : linked s = false ∨ modeIs s ≠ .active)
    (hown : ∀ e ∈ s.rdu.own, s.tb.tick ≤ e.1) (hpartner : s.rdu.partner = []) : phase1 s = quietPhase1 s := by
  have hemit := emitMode_of_ne_save hsave
  have hfollows :
      follows (toPhase { s with tb := { s.tb with ph1 := true } } (rd s Reg.TBC_TICKCFG_AGREE)) = false := by
    show follows s = false
    unfold follows
    rw [hemit]
    split
    · contradiction
    · contradiction
    · rfl
  unfold phase1
  rw [if_neg (by simp [hph])]
  dsimp only
  rw [saveJudge_of_ne_save (by exact hsave), if_neg (by simp [hfollows])]
  refine closeSet_quiet (halone.imp id fun h => ?_) hown hpartner
  exact fun he => h (hemit.symm.trans he)

theorem phase3_silent {s : State} (hph : s.tb.ph3 = false) (hsave : modeIs s ≠ .save) (hstandby : modeIs s ≠ .standby) :
    phase3 s = toPhase { s with tb := { s.tb with ph3 := true } } 25 := by
  have hemit : emitMode (toPhase { s with tb := { s.tb with ph3 := true } } 25) ≠ .standby :=
    fun he => hstandby ((emitMode_of_ne_save hsave).symm.trans he)
  unfold phase3
  rw [if_neg (by simp [hph])]
  unfold emitPhase3
  split
  · contradiction
  · rfl

theorem phase2_idle {s : State} (hph : s.tb.ph2 = false) (hidle : ∀ sq, instOf s sq = none) :
    phase2 s = (let t := recheck (lpePhase2 (toPhase { s with tb := { s.tb with ph2 := true } } 90))
      if runsControl t then digestTick t else t) := by
  unfold phase2
  rw [if_neg (by simp [hph])]
  dsimp only
  rw [csaPhase2_idle (by exact hidle)]

/-! ### The end of a tick in RECALL -/

theorem runsControl_recall {s : State} (h : modeIs s = .recall) : runsControl s = false := by
  simp [runsControl, h]

/-- The state `t` is one of the same tick as `s`, not later than its last instant unless `s` was, with the same
mode, tick length and armed changes. -/
structure WithinTick (s t : State) : Prop where
  tick : t.tb.tick = s.tb.tick
  now : t.tb.now ≤ max s.tb.now ((s.tb.tick + 1) * tickNs s - 1)
  len : tickNs t = tickNs s
  mode : modeIs t = modeIs s
  prog : t.csa.armed = s.csa.armed
  facet : t.fct.armed = s.fct.armed

theorem WithinTick.refl (s : State) : WithinTick s s := ⟨rfl, le_max_left _ _, rfl, rfl, rfl, rfl⟩

theorem WithinTick.trans {s t u : State} (h : WithinTick s t) (h' : WithinTick t u) : WithinTick s u where
  tick := h'.tick.trans h.tick
  now := by
    have := h'.now
    rw [h.tick, h.len] at this
    exact this.trans (max_le h.now (le_max_right _ _))
  len := h'.len.trans h.len
  mode := h'.mode.trans h.mode
  prog := h'.prog.trans h.prog
  facet := h'.facet.trans h.facet

theorem withinTick_of_course {s t : State} (h : course t = course s) : WithinTick s t where
  tick := congrArg Course.tick h
  now := (congrArg Course.now h).le.trans (le_max_left _ _)
  len := tickNs_of_course h
  mode := modeIs_of_course h
  prog := congrArg Course.prog h
  facet := congrArg Course.facet h

theorem withinTick_toPhase (s : State) (a b c : Bool) (pct : Nat) :
    WithinTick s (toPhase { s with tb := { s.tb with ph1 := a, ph2 := b, ph3 := c } } pct) :=
  ⟨rfl, max_le_max le_rfl (min_le_right _ _), rfl, rfl, rfl, rfl⟩

theorem withinTick_quietPhase1 (s : State) : WithinTick s (quietPhase1 s) :=
  ⟨rfl, max_le_max le_rfl (min_le_right _ _), rfl, rfl, rfl, rfl⟩

/-- No input waits in an agreed set. -/
def NoneAgreed (s : State) : Prop := ∀ a ∈ s.rdu.agreed, a.inputs = []

theorem noneAgreed_of_course {s t : State} (h : course t = course s) (hs : NoneAgreed s) : NoneAgreed t := by
  have hsets : t.rdu.agreed = s.rdu.agreed := congrArg Course.sets h
  rwa [NoneAgreed, hsets]

section

variable {s : State} (hmode : modeIs s = .recall)
include hmode

theorem phase1_recall (hown : s.rdu.own = []) (hpartner : s.rdu.partner = []) (hnone : NoneAgreed s) :
    WithinTick s (phase1 s) ∧ NoneAgreed (phase1 s) ∧ (phase1 s).csa = s.csa := by
  cases hph : s.tb.ph1 with
  | true =>
    have hdone : phase1 s = s := by simp [phase1, hph]
    rw [hdone]
    exact ⟨.refl s, hnone, rfl⟩
  | false =>
    rw [phase1_quiet hph (by simp [hmode]) (by simp [hmode]) (by simp [hmode]) (by simp [hmode]) (by simp [hown])
      hpartner]
    refine ⟨withinTick_quietPhase1 s, fun a ha => ?_, rfl⟩
    rcases List.mem_append.1 ha with ha | ha
    · exact hnone a ha
    · rw [List.mem_singleton.1 ha]

theorem phase3_recall (hnone : NoneAgreed s) :
    WithinTick s (phase3 s) ∧ NoneAgreed (phase3 s) ∧ (phase3 s).csa = s.csa := by
  cases hph : s.tb.ph3 with
  | true =>
    have hdone : phase3 s = s := by simp [phase3, hph]
    rw [hdone]
    exact ⟨.refl s, hnone, rfl⟩
  | false =>
    rw [phase3_silent hph (by simp [hmode]) (by simp [hmode])]
    exact ⟨withinTick_toPhase s s.tb.ph1 s.tb.ph2 true 25, hnone, rfl⟩

theorem phase2_recall (hidle : ∀ sq, instOf s sq = none) (hprog : s.csa.armed = none) (hfacet : s.fct.armed = none)
    (hnone : NoneAgreed s) : WithinTick s (phase2 s) ∧ NoneAgreed (phase2 s) := by
  cases hph : s.tb.ph2 with
  | true =>
    have hdone : phase2 s = s := by simp [phase2, hph]
    rw [hdone]
    exact ⟨.refl s, hnone⟩
  | false =>
    have hcourse := course_lpePhase2 (toPhase { s with tb := { s.tb with ph2 := true } } 90)
    have hwithin := (withinTick_toPhase s s.tb.ph1 true s.tb.ph3 90).trans (withinTick_of_course hcourse)
    rw [phase2_idle hph hidle]
    dsimp only
    rw [recheck_unarmed (hwithin.prog.trans hprog) (hwithin.facet.trans hfacet),
      if_neg (by simp [runsControl_recall (hwithin.mode.trans hmode)])]
    exact ⟨hwithin, noneAgreed_of_course hcourse hnone⟩

theorem endTick_recall (hidle : ∀ sq, instOf s sq = none) (hprog : s.csa.armed = none) (hfacet : s.fct.armed = none)
    (hown : s.rdu.own = []) (hpartner : s.rdu.partner = []) (hnone : NoneAgreed s) :
    WithinTick s (endTick s) ∧ NoneAgreed (endTick s) := by
  obtain ⟨hw1, hn1, hc1⟩ := phase1_recall hmode hown hpartner hnone
  obtain ⟨hw3, hn3, hc3⟩ := phase3_recall (hw1.mode.trans hmode) hn1
  have hw13 := hw1.trans hw3
  have hidle3 (sq : Sq) : instOf (phase3 (phase1 s)) sq = none := by
    rw [instOf, hc3, hc1]
    exact hidle sq
  obtain ⟨hw2, hn2⟩ := phase2_recall (hw13.mode.trans hmode) hidle3 (hw13.prog.trans hprog) (hw13.facet.trans hfacet)
    hn3
  have hw := hw13.trans hw2
  have hend : endTick s = phase2 (phase3 (phase1 s)) := by
    simp [endTick, takeoverDue, hw.facet.trans hfacet, hw.mode.trans hmode]
  rw [hend]
  exact ⟨hw, hn2⟩

end

end Sys2Proof.Machine
end

section
/-! SUPPORT. TICK_EDGE in a unit in RECALL with nothing running, armed, waiting or agreed (R28, R17): every unit's part
of the edge leaves the course, so that the tick, its instant and its phases move by `beginTick` alone. -/

namespace Sys2Proof.Machine

/-! ### Swap, switch and mode transition -/

theorem facetSwap_unarmed {s : State} (h : s.fct.armed = none) (k : Nat) : facetSwap s k = s := by
  unfold facetSwap
  rw [h]

theorem programSwitch_unarmed {s : State} (h : s.csa.armed = none) (k : Nat) : programSwitch s k = s := by
  unfold programSwitch
  rw [h]

theorem switchAt_unarmed {s : State} (h : s.csa.armed = none) (hmode : modeIs s ≠ .halt) (k : Nat) :
    switchAt s k = s := by
  simp [switchAt, programSwitch_unarmed h, h, hmode]

theorem course_beginTick (s : State) (k : Nat) : course (beginTick s k) = { course s with
    now := max s.tb.now (min (k * tickNs s) ((k + 1) * tickNs s - 1)), tick := k,
    ph1 := false, ph2 := false, ph3 := false } :=
  rfl

theorem course_holdClaim (s : State) (c : Option (BitVec 32)) : course (holdClaim s c) = course s := by
  have hheld := course_wrB_of_id (f := Reg.RDU_STATUS_HELD) (by decide) { s with rdu := { s.rdu with claimHeld := c } }
    c.isSome 0
  cases c with
  | none => exact hheld
  | some x => exact ite_keeps hheld hheld

theorem course_windowEnds (s : State) (k : Nat) : course (windowEnds s k) = course s := by
  unfold windowEnds
  split
  · exact ite_keeps (course_holdClaim { s with ssu := _ } none) rfl
  · rfl

theorem course_modeEdge_recall {s : State} (h : modeIs s = .recall) (k : Nat) : course (modeEdge s k) = course s := by
  have hends := course_windowEnds s k
  have hmode : modeIs (windowEnds s k) = .recall := (modeIs_of_course hends).trans h
  unfold modeEdge
  dsimp only
  rw [hmode]
  exact hends

theorem remapEdge_recall {s : State} (h : modeIs s = .recall) : remapEdge s = s := by
  unfold remapEdge
  rw [h]

/-! ### Time sources and the cascade -/

theorem course_sourceEdge (s : State) : course (sourceEdge s) = course s := by
  have hsrc : course (wrB (wr s Reg.TBC_DSTS_SRC (bestSource s)) Reg.TBC_DSTS_HOLDOVER (decide (bestSource s = 0))) =
      course s :=
    (course_wr (by decide) _ _).trans (course_wr (by decide) s _)
  refine ite_keeps rfl <| (course_event _ _ _ _).trans ?_
  have hoff := ite_keeps (c := bestSource s = 0)
    ((course_wr (f := Reg.TBC_OFFSET_OFFSET) (i := 0) (by decide) _ 0).trans hsrc) hsrc
  exact ite_keeps hoff hoff

theorem course_showRoles (s : State) : course (showRoles s) = course s :=
  foldl_keeps course (fun _ _ => course_wr_of_id (by decide) _ _ _) _ _

theorem course_showCsc (s : State) : course (showCsc s) = course s :=
  (course_wr_of_id (by decide) _ _ _).trans <| (course_wrB_of_id (by decide) _ _ _).trans <|
    (course_wr_of_id (by decide) _ _ _).trans (course_wr_of_id (by decide) _ _ _)

theorem course_csc (s : State) (c : CscSt) : course { s with csc := c } = course s := rfl

theorem course_showTree (s : State) : course (showTree s) = course s := by
  have hroles := course_showRoles s
  unfold showTree
  extract_lets u
  exact (course_showCsc _).trans <| (course_csc u _).trans hroles

theorem course_chooseParent (s : State) : course (chooseParent s) = course s := by
  unfold chooseParent
  extract_lets p root hops _ u v w
  have hu : course u = course s := ite_keeps rfl rfl
  have hv : course v = course s :=
    ite_keeps ((course_wr_of_id (by decide) _ _ _).trans <| (course_wr_of_id (by decide) _ _ _).trans hu) hu
  have hw : course w = course s :=
    (course_wr_of_id (by decide) _ _ _).trans <| (course_wr_of_id (by decide) _ _ _).trans hv
  exact (course_showTree _).trans hw

theorem course_sendCasc (s : State) (n : Fin 4) (b : CascBody) : course (sendCasc s n b) = course s := rfl

theorem course_sendWhere (s : State) (p : Fin 4 → Bool) (b : CascBody) : course (sendWhere s p b) = course s :=
  foldl_keeps course (fun s n => course_sendCasc s n b) _ _

theorem course_sendRoster (s : State) : course (sendRoster s) = course s :=
  ite_keeps ((course_sendWhere _ _ _).trans (course_wr_of_id (by decide) { s with csc := _ } _ _)) rfl

theorem course_cascadeEdge (s : State) : course (cascadeEdge s) = course s := by
  have hchosen : course (if choiceDue s then chooseParent s else s) = course s := ite_keeps (course_chooseParent s) rfl
  unfold cascadeEdge
  generalize (if choiceDue s then chooseParent s else s) = u at *
  have htree : course (showTree u) = course s := (course_showTree _).trans hchosen
  dsimp only
  generalize showTree u = v at *
  have hmark : course (sendWhere v (fun m => clOk v m.val) (.tickMark v.tb.tick 0)) = course s :=
    (course_sendWhere _ _ _).trans htree
  refine ite_keeps hchosen <| ite_keeps (ite_keeps ((course_sendRoster _).trans hmark) hmark) ?_
  split
  · exact htree
  · exact htree

/-! ### The agreed set of an edge -/

theorem meterSet_nil (s : State) : meterSet s [] = s := rfl

theorem exportInputs_nil (s : State) : exportInputs s [] = s := rfl

theorem course_mailboxAge (s : State) : course (mailboxAge s) = course s := by
  refine foldl_keeps course (fun s n => ?_) _ _
  split
  · exact ite_keeps rfl (course_wr_of_id (by decide) _ _ _)
  · rfl

theorem course_mailboxEdge_nil (s : State) : course (mailboxEdge s []) = course s := by
  refine (course_mailboxAge _).trans ?_
  refine (foldl_keeps course (fun s n => ?_) _ _).trans rfl
  rw [show (if modeIs _ = Mode.test then ([] : List Input) else []) = [] from ite_self _]
  rfl

theorem course_vertexInputs_nil (s : State) : course (vertexInputs s []) = course s :=
  foldl_keeps course (fun _ _ => course_wr_of_id (by decide) _ _ _) s.npc.ctxs { s with npc := _ }

theorem course_applySet_nil (s : State) : course (applySet s []) = course s := by
  unfold applySet
  rw [exportInputs_nil, List.foldl_nil, meterSet_nil]
  exact (course_vertexInputs_nil _).trans (course_mailboxEdge_nil s)

/-- With no input agreed the set of an edge does no more than leave the list of sets. -/
theorem course_setEdge_none {s : State} (h : NoneAgreed s) (k : Nat) : course (setEdge s .recall k) =
    { course s with sets := s.rdu.agreed.filter fun a => k < a.edge } := by
  have hinputs : (s.rdu.agreed.filter (·.edge = k)).flatMap (·.inputs) = [] :=
    List.flatMap_eq_nil_iff.2 fun a ha => h a (List.mem_of_mem_filter ha)
  unfold setEdge
  simp only [hinputs]
  exact course_applySet_nil { s with rdu := _ }

/-! ### Release, sampling and emission -/

theorem course_setCtx (s : State) (v : Nat) (c : Ctx) : course (setCtx s v c) = course s := rfl

theorem course_noteElems (s : State) : course (noteElems s) = course s :=
  foldl_keeps course (fun s (e : Nat × Ctx) => course_setCtx s e.1 { e.2 with
    lastElems := outElems s s.csa.snap.img e.1 e.2,
    changed := decide (e.2.lastElems ≠ outElems s s.csa.snap.img e.1 e.2) && decide (e.2.lastElems ≠ []) }) _ _

theorem releaseTasks_idle {s : State} (h : runsControl s = false) (k : Nat) : releaseTasks s k = s := by
  have hdue : dueTasks s k = [] := by simp [dueTasks, h]
  simp [releaseTasks, hdue]

theorem course_sampleLoops_idle {s : State} (h : runsControl s = false) (k : Nat) :
    course (sampleLoops s k) = course s := by
  have hdue : sampling s k = [] := by simp [sampling, h]
  unfold sampleLoops
  simp only [hdue, List.filter_nil, List.foldl_nil]
  exact foldl_keeps course (fun _ _ => rfl) _ _

theorem meterEdge_recall {s : State} (h : modeIs s = .recall) (k : Nat) : meterEdge s k = s := by
  simp [meterEdge, metering, h]

theorem course_releaseEdge_recall {s : State} (h : modeIs s = .recall) (k : Nat) :
    course (releaseEdge s k) = course s := by
  have hnoted : course (noteElems (takeSnap s)) = course s := course_noteElems _
  have hcontrol := runsControl_recall ((modeIs_of_course hnoted).trans h)
  have hsettled : course (lcmdSettle (sampleLoops (noteElems (takeSnap s)) k)) = course s :=
    (course_lcmdSettle _).trans <| (course_sampleLoops_idle hcontrol k).trans hnoted
  unfold releaseEdge
  rw [releaseTasks_idle hcontrol, meterEdge_recall ((modeIs_of_course hsettled).trans h)]
  exact hsettled

theorem emitPhase0_recall {s : State} (h : modeIs s = .recall) (k : Nat) : emitPhase0 s k = s := by
  unfold emitPhase0
  rw [emitMode_of_ne_save (by simp [h]), h]

/-! ### What the pair exchanges -/

theorem noteClaim_recall {s : State} (h : modeIs s = .recall) (held : Option (BitVec 32)) : noteClaim s held = s := by
  simp [noteClaim, claimNote, h]

theorem course_quoteCapture (s : State) : course (quoteCapture s) = course s := by
  unfold quoteCapture
  split
  · exact ite_keeps rfl rfl
  · rfl

theorem course_sendClose (s : State) (k : Nat) : course (sendClose s k) = course s := ite_keeps rfl rfl

theorem course_submit (s : State) (stamp source ident : Nat) (body : InBody) :
    course (submit s stamp source ident body) = course s := ite_keeps rfl rfl

theorem course_tellLinks (s : State) : course (tellLinks s) = course s :=
  foldl_keeps course (fun _ _ => course_submit _ _ _ _ _) _ _

theorem course_carryEdge_recall {s : State} (h : modeIs s = .recall) (k : Nat) : course (carryEdge s k) = course s := by
  unfold carryEdge
  extract_lets was l _ u _ v
  have hv : course v = course s := course_tellLinks _
  refine ite_keeps rfl ?_
  split
  · rw [if_neg fun hc => by simp [modeIs_of_course hv, h] at hc]
    exact hv
  · exact hv

theorem answerCopy_recall {s : State} (h : modeIs s = .recall) : answerCopy s = s := by
  simp [answerCopy, h]

theorem copyStart_of_ne_resync {s : State} (h : modeIs s ≠ .resync) : copyStart s = s := by
  simp [copyStart, h]

/-! ### The edge -/

/-- The course across an edge in RECALL: `beginTick` moves it on, and the sets that wait are those of later edges. -/
theorem course_tickEdge_recall {s : State} (hmode : modeIs s = .recall) (hprog : s.csa.armed = none)
    (hfacet : s.fct.armed = none) (hend : WithinTick s (endTick s)) (hnone : NoneAgreed (endTick s)) :
    ∃ sets, course (tickEdge s) = { course (beginTick (endTick s) (s.tb.tick + 1)) with sets := sets } := by
  have hk : (endTick s).tb.tick + 1 = s.tb.tick + 1 := by rw [hend.tick]
  have hwas := hend.mode.trans hmode
  have hprog' := hend.prog.trans hprog
  have hfacet' := hend.facet.trans hfacet
  unfold tickEdge
  generalize endTick s = u at *
  generalize s.tb.tick + 1 = k at *
  have hbegun : modeIs (beginTick u k) = .recall := hwas
  have hbnone : NoneAgreed (beginTick u k) := hnone
  dsimp only
  rw [hk, hwas, facetSwap_unarmed (s := beginTick u k) hfacet', switchAt_unarmed (s := beginTick u k) hprog'
    (by simp [hbegun])]
  generalize beginTick u k = b at *
  generalize u.rdu.claimHeld = held
  have hswap := course_swapDisabled b
  have hswapMode := (modeIs_of_course hswap).trans hbegun
  rw [remapEdge_recall hswapMode]
  have hedge : course (cascadeEdge (sourceEdge (modeEdge (swapDisabled b) k))) = course b :=
    (course_cascadeEdge _).trans <| (course_sourceEdge _).trans <| (course_modeEdge_recall hswapMode k).trans hswap
  generalize cascadeEdge (sourceEdge (modeEdge (swapDisabled b) k)) = v at *
  have hset := course_setEdge_none (noneAgreed_of_course hedge hbnone) k
  rw [hedge] at hset
  have hsetMode : modeIs (setEdge v .recall k) = .recall :=
    (congrArg (fun c => modeOf (Course.mode c)) hset).trans hbegun
  have hrel := (course_releaseEdge_recall hsetMode k).trans hset
  have hrelMode := (modeIs_of_course (course_releaseEdge_recall hsetMode k)).trans hsetMode
  rw [emitPhase0_recall hrelMode, noteClaim_recall hrelMode]
  generalize releaseEdge (setEdge v .recall k) k = w at *
  have hclose : course (sendClose (quoteCapture w) k) = course w := (course_sendClose _ _).trans (course_quoteCapture w)
  have hcarry := (course_carryEdge_recall ((modeIs_of_course hclose).trans hrelMode) k).trans hclose
  have hcarryMode := (modeIs_of_course hcarry).trans hrelMode
  rw [answerCopy_recall hcarryMode, copyStart_of_ne_resync (by simp [hcarryMode])]
  exact ⟨_, hcarry.trans hrel⟩

end Sys2Proof.Machine
end

section
/-! SUPPORT. The tick configuration and a tick fault (R30, R40, R43): what TICKCFG_WRITE takes and refuses, and what a
tick of a new length shows the partner and counts. -/

namespace Sys2Proof.Machine

/-! ### The redundancy links after a change of the tick -/

theorem course_showLink (s : State) (n : Nat) : course (showLink s n) = course s :=
  ite_keeps rfl <| (course_wr_of_id (by decide) _ _ _).trans (course_wr_of_id (by decide) _ _ _)

theorem course_showRdu (s : State) : course (showRdu s) = course s := by
  unfold showRdu
  extract_lets dead q old new u v w
  have hshown : course v = course s := (course_wr_of_id (by decide) _ _ _).trans <|
    (course_wr_of_id (by decide) _ _ _).trans (course_wr_of_id (by decide) _ _ _)
  have hw : course w = course s :=
    (course_wrB_of_id (by decide) _ _ _).trans <| (course_wrB_of_id (by decide) _ _ _).trans hshown
  exact ite_keeps ((course_event _ _ _ _).trans hw) hw

theorem course_sendCopyReq (s : State) : course (sendCopyReq s) = course s := rfl

theorem course_askCopy (s : State) (since : Nat) (answered : Option Nat) :
    course (askCopy s since answered) = course s := by
  have htold := course_tellLinks { s with rdu := { s.rdu with links := (downLinks s).map fun r => (r, ownSide s) } }
  unfold askCopy
  generalize tellLinks _ = u at *
  dsimp only [List.foldl_cons, List.foldl_nil]
  have hstate := course_wr_of_id (f := Reg.RDU_CPSTS_STATE) (by decide)
    (putCopy u (some (freshCopy since answered))) 1 0
  exact (course_sendCopyReq _).trans <| (course_wr_of_id (f := Reg.RDU_CPBYTES_BYTES) (by decide) _ _ _).trans <|
    (course_wr_of_id (f := Reg.RDU_CPMASK_DONEMASK) (by decide) _ _ _).trans <|
    (course_wr_of_id (f := Reg.RDU_CPSTS_PEND) (by decide) _ _ _).trans <|
    (course_wr_of_id (f := Reg.RDU_CPSTS_REGION) (by decide) _ _ _).trans <| hstate.trans htold

theorem course_copyStart (s : State) : course (copyStart s) = course s := ite_keeps (course_askCopy _ _ _) rfl

theorem course_unpair (s : State) (n : Nat) : course (unpair s n) = course s := by
  have hdown := course_wr_of_id (f := Reg.RDU_CHSTS_PAIRED) (by decide)
    { s with rdu := { s.rdu with carries := s.rdu.carries.filter (· ≠ n) } } 0 n
  exact ite_keeps (ite_keeps ((course_event _ _ _ _).trans hdown) hdown) rfl

theorem course_judgeLink (s : State) (n : Nat) (h : Hello) : course (judgeLink s n h) = course s := by
  have hrsn := course_wr_of_id (f := Reg.RDU_CHSTS_RSN) (by decide) s (pairReason s n h) n
  unfold judgeLink
  extract_lets r old was u _ v w x
  have hu : course u = course s := hrsn
  have hv : course (showLink v n) = course s :=
    (course_showLink _ _).trans <| (course_wr_of_id (by decide) { u with rdu := _ } _ _).trans hu
  have hw : course w = course s := (course_unpair _ _).trans <| (course_showLink _ _).trans hu
  have hx : course x = course s := ite_keeps ((course_event _ _ _ _).trans hw) hw
  exact ite_keeps ((course_copyStart _).trans <| (course_showRdu _).trans hv) ((course_showRdu _).trans hx)

/-- The time base of a tick of another length, at the instant it has. -/
def retimed (s : State) : State := if tickOf s s.tb.now = s.tb.tick then s else setTime s s.tb.now

theorem course_ticksChanged (s : State) : course (ticksChanged s) = course (retimed s) := by
  refine foldl_keeps course (fun s n => ?_) _ _
  have hlink := course_showLink s n
  extract_lets u v
  have hv : course v = course s := by
    refine Eq.trans ?_ hlink
    simp only [v]
    split
    · exact ite_keeps (course_judgeLink _ _ _) (course_showRdu _)
    · exact course_showRdu _
  exact ite_keeps hv hv

@[simp] theorem retimed_now (s : State) : (retimed s).tb.now = s.tb.now := ite_keeps (p := fun t => t.tb.now) rfl rfl

@[simp] theorem retimed_tick (s : State) : (retimed s).tb.tick = s.tb.now / tickNs s := by
  unfold retimed
  split
  · next h => exact h.symm
  · rfl

theorem rd_retimed {f : Field} {i : Nat} (hlo : f.key i ≠ Reg.FCT_SWAPTICK_LO_KF.key 0)
    (hhi : f.key i ≠ Reg.FCT_SWAPTICK_HI_KF.key 0) (s : State) : rd (retimed s) f i = rd s f i :=
  ite_keeps (p := fun t => rd t f i) rfl (rd_setTime hlo hhi s _)

/-! ### TICKCFG_WRITE -/

theorem course_olcRef (s : State) (r : Refuse) : course (olcRef s r) = course s :=
  (course_wr_of_id (by decide) _ _ _).trans (course_wr_of_id (by decide) { s with csa := _ } _ _)

/-- The state with both values of a write in its fields. -/
def withTickcfg (s : State) (len ag : Nat) : State := wr (wr s Reg.TBC_TICKCFG_TICKLEN len) Reg.TBC_TICKCFG_AGREE ag

/-- What bit 16 of a write does. -/
def badcfgCleared (s : State) (v : BitVec 32) : State :=
  if bitsOf v.toNat 16 1 = 1 then wr s Reg.TBC_TICKCFG_BADCFG 0 else s

theorem modeIs_badcfgCleared (s : State) (v : BitVec 32) : modeIs (badcfgCleared s v) = modeIs s :=
  ite_keeps (modeIs_wr (by decide) s 0) rfl

theorem tickcfgWrite_elsewhere {s : State} (h : modeIs s ≠ .halt) (v : BitVec 32) :
    tickcfgWrite s v = badcfgCleared s v :=
  if_pos (by rwa [← modeIs_badcfgCleared s v] at h)

theorem tickcfgWrite_bad {s : State} {v : BitVec 32} (h : modeIs s = .halt)
    (hbad : bitsOf v.toNat 0 8 < 5 ∨ 200 < bitsOf v.toNat 0 8 ∨ bitsOf v.toNat 8 8 < 10 ∨ 50 < bitsOf v.toNat 8 8) :
    tickcfgWrite s v = wr (badcfgCleared s v) Reg.TBC_TICKCFG_BADCFG 1 :=
  (if_neg (by rw [← modeIs_badcfgCleared s v] at h; exact not_not.2 h)).trans (if_pos hbad)

theorem course_tickcfgWrite_good {s : State} {v : BitVec 32} (h : modeIs s = .halt)
    (hgood : ¬(bitsOf v.toNat 0 8 < 5 ∨ 200 < bitsOf v.toNat 0 8 ∨ bitsOf v.toNat 8 8 < 10 ∨ 50 < bitsOf v.toNat 8 8)) :
    course (tickcfgWrite s v) = course (settingsDone (badcfgCleared s v)
      (withTickcfg (badcfgCleared s v) (bitsOf v.toNat 0 8) (bitsOf v.toNat 8 8))) := by
  refine (congrArg course ((if_neg ?_).trans (if_neg hgood))).trans ?_
  · rw [← modeIs_badcfgCleared s v] at h
    exact not_not.2 h
  · refine ite_keeps ?_ rfl
    split
    · exact course_olcRef _ _
    · rfl

end Sys2Proof.Machine
end

section
/-! SUPPORT. The phases of a tick, its edge, the tick configuration and a tick fault (O30). -/

namespace Sys2Proof.Machine

/-! ### Phases -/

theorem lpePhase2_no_results {s : State} (h : s.lpe.results = []) :
    lpePhase2 s = { s with lpe := { s.lpe with run := none } } := by
  unfold lpePhase2
  rw [if_neg (by simp [h])]

theorem phase2_quiet {s : State} (hph : s.tb.ph2 = false) (hidle : ∀ sq, instOf s sq = none)
    (hprog : s.csa.armed = none) (hfacet : s.fct.armed = none) (hcontrol : runsControl s = false)
    (hresults : s.lpe.results = []) :
    phase2 s = (let t := toPhase { s with tb := { s.tb with ph2 := true } } 90
      { t with lpe := { t.lpe with run := none } }) := by
  rw [phase2_idle hph hidle, lpePhase2_no_results (by exact hresults),
    recheck_unarmed (by exact hprog) (by exact hfacet)]
  exact if_neg (by exact ne_true_of_eq_false hcontrol)

theorem phase3_standby {s : State} (hph : s.tb.ph3 = false) (hmode : modeIs s = .standby) :
    phase3 s = emitExports (emitPhase (toPhase { s with tb := { s.tb with ph3 := true } } 25)) := by
  have hemit : emitMode (toPhase { s with tb := { s.tb with ph3 := true } } 25) = .standby :=
    (emitMode_of_ne_save (s := s) (by simp [hmode])).trans hmode
  unfold phase3
  rw [if_neg (by simp [hph])]
  unfold emitPhase3
  rw [hemit]

/-! ### The edge -/

theorem tickEdge_recall {s t : State} (ht : t = tickEdge s) (hmode : modeIs s = .recall)
    (hidle : ∀ sq, instOf s sq = none) (hprog : s.csa.armed = none) (hfacet : s.fct.armed = none)
    (hown : s.rdu.own = []) (hpartner : s.rdu.partner = []) (hagreed : s.rdu.agreed = []) :
    t.tb.tick = s.tb.tick + 1 ∧ t.tb.ph1 = false ∧ t.tb.ph2 = false ∧ t.tb.ph3 = false ∧ modeIs t = .recall ∧
      (s.tb.now ≤ (s.tb.tick + 1) * tickNs s → t.tb.now = (s.tb.tick + 1) * tickNs s) := by
  obtain ⟨hend, hnone⟩ := endTick_recall hmode hidle hprog hfacet hown hpartner (by simp [NoneAgreed, hagreed])
  obtain ⟨sets, hcourse⟩ := course_tickEdge_recall hmode hprog hfacet hend hnone
  rw [← ht, course_beginTick, hend.len] at hcourse
  clear ht hnone
  generalize endTick s = u at *
  have hmode' : modeIs t = modeIs u := congrArg modeOf (congrArg Course.mode hcourse)
  refine ⟨congrArg Course.tick hcourse, congrArg Course.ph1 hcourse, congrArg Course.ph2 hcourse,
    congrArg Course.ph3 hcourse, hmode'.trans (hend.mode.trans hmode), fun hle => ?_⟩
  have hlate := hend.now
  refine (congrArg Course.now hcourse).trans ?_
  dsimp only
  have hnext := Nat.add_one_mul (s.tb.tick + 1) (tickNs s)
  have hzero : tickNs s = 0 → (s.tb.tick + 1) * tickNs s = 0 := fun h => by rw [h, Nat.mul_zero]
  generalize (s.tb.tick + 1) * tickNs s = edge at *
  generalize (s.tb.tick + 1 + 1) * tickNs s = later at *
  omega

/-! ### TICKCFG_WRITE -/

theorem bitsOf_ticklen (x : Nat) : bitsOf x 0 8 = x % 256 := by simp [bitsOf]

theorem bitsOf_agree (x : Nat) : bitsOf x 8 8 = x / 256 % 256 := rfl

theorem bitsOf_badcfg (x : Nat) : bitsOf x 16 1 = x / 2 ^ 16 % 2 := rfl

/-- The time base that a write of both values leaves. -/
def tickcfgTaken (s : State) (len ag : Nat) : State :=
  if rd s Reg.TBC_TICKCFG_TICKLEN = rd (withTickcfg s len ag) Reg.TBC_TICKCFG_TICKLEN ∧
    rd s Reg.TBC_TICKCFG_AGREE = rd (withTickcfg s len ag) Reg.TBC_TICKCFG_AGREE then withTickcfg s len ag
  else retimed (withTickcfg s len ag)

theorem course_settingsDone (s : State) (len ag : Nat) :
    course (settingsDone s (withTickcfg s len ag)) = course (tickcfgTaken s len ag) := by
  unfold settingsDone tickcfgTaken
  split
  · rfl
  · exact course_ticksChanged _

section

variable (s : State) {len ag : Nat} (hlen : len ≤ 200) (hag : ag ≤ 50)

include hlen in
theorem rd_withTickcfg_ticklen : rd (withTickcfg s len ag) Reg.TBC_TICKCFG_TICKLEN = len :=
  (rd_wr_ne (by decide) _ _).trans <| (rd_wr_same s Reg.TBC_TICKCFG_TICKLEN 0 len).trans
    (Nat.mod_eq_of_lt (show len < 256 by omega))

include hag in
theorem rd_withTickcfg_agree : rd (withTickcfg s len ag) Reg.TBC_TICKCFG_AGREE = ag :=
  (rd_wr_same _ Reg.TBC_TICKCFG_AGREE 0 ag).trans (Nat.mod_eq_of_lt (show ag < 256 by omega))

theorem rd_withTickcfg_badcfg : rd (withTickcfg s len ag) Reg.TBC_TICKCFG_BADCFG = rd s Reg.TBC_TICKCFG_BADCFG :=
  (rd_wr_ne (by decide) _ _).trans (rd_wr_ne (by decide) _ _)

theorem rd_tickcfgTaken {f : Field} (hlo : f.key 0 ≠ Reg.FCT_SWAPTICK_LO_KF.key 0)
    (hhi : f.key 0 ≠ Reg.FCT_SWAPTICK_HI_KF.key 0) : rd (tickcfgTaken s len ag) f = rd (withTickcfg s len ag) f :=
  ite_keeps (p := fun t => rd t f) rfl (rd_retimed hlo hhi _)

theorem tickcfgTaken_now : (tickcfgTaken s len ag).tb.now = s.tb.now :=
  ite_keeps (p := fun t => t.tb.now) rfl (retimed_now _)

include hlen in
theorem tickNs_withTickcfg : tickNs (withTickcfg s len ag) = len * 10000 := by
  rw [tickNs, rd_withTickcfg_ticklen s hlen]

include hlen in
theorem tickcfgTaken_tick_same (hsame : len = rd s Reg.TBC_TICKCFG_TICKLEN) (htick : s.tb.tick = s.tb.now / tickNs s) :
    (tickcfgTaken s len ag).tb.tick = s.tb.tick := by
  refine ite_keeps (p := fun t => t.tb.tick) rfl ?_
  rw [retimed_tick, tickNs_withTickcfg s hlen, hsame]
  exact htick.symm

include hlen in
theorem tickcfgTaken_tick_new (hnew : len ≠ rd s Reg.TBC_TICKCFG_TICKLEN) :
    (tickcfgTaken s len ag).tb.tick = s.tb.now / (len * 10000) := by
  unfold tickcfgTaken
  rw [if_neg fun h => hnew (h.1.trans (rd_withTickcfg_ticklen s hlen)).symm, retimed_tick, tickNs_withTickcfg s hlen]
  rfl

end

theorem rd_badcfgCleared (s : State) (v : BitVec 32) : rd (badcfgCleared s v) Reg.TBC_TICKCFG_BADCFG =
    (if v.toNat / 2 ^ 16 % 2 = 1 then 0 else rd s Reg.TBC_TICKCFG_BADCFG) := by
  unfold badcfgCleared
  rw [bitsOf_badcfg]
  split
  · exact rd_wr_same s Reg.TBC_TICKCFG_BADCFG 0 0
  · rfl

theorem rd_badcfgCleared_ticklen (s : State) (v : BitVec 32) :
    rd (badcfgCleared s v) Reg.TBC_TICKCFG_TICKLEN = rd s Reg.TBC_TICKCFG_TICKLEN :=
  ite_keeps (p := fun t => rd t Reg.TBC_TICKCFG_TICKLEN) (rd_wr_ne (by decide) s 0) rfl

theorem badcfgCleared_tb (s : State) (v : BitVec 32) : (badcfgCleared s v).tb = s.tb :=
  ite_keeps (p := State.tb) rfl rfl

/-- A write that is taken, in HALT: both values, the tick count of a new length and the same instant. -/
theorem tickcfgWrite_good {s : State} {v : BitVec 32} {len ag : Nat} (hl : len = v.toNat % 256)
    (ha : ag = v.toNat / 256 % 256) (h : modeIs s = .halt) (hlo : 5 ≤ len) (hhi : len ≤ 200) (halo : 10 ≤ ag)
    (hahi : ag ≤ 50) :
    let t := tickcfgWrite s v
    rd t Reg.TBC_TICKCFG_TICKLEN = len ∧ rd t Reg.TBC_TICKCFG_AGREE = ag ∧
      rd t Reg.TBC_TICKCFG_BADCFG = (if v.toNat / 2 ^ 16 % 2 = 1 then 0 else rd s Reg.TBC_TICKCFG_BADCFG) ∧
      t.tb.now = s.tb.now ∧
      (len = rd s Reg.TBC_TICKCFG_TICKLEN → s.tb.tick = s.tb.now / tickNs s → t.tb.tick = s.tb.tick) ∧
      (len ≠ rd s Reg.TBC_TICKCFG_TICKLEN → t.tb.tick = s.tb.now / (len * 10000)) := by
  have hcourse := course_tickcfgWrite_good h (v := v) (by rw [bitsOf_ticklen, bitsOf_agree, ← hl, ← ha]; omega)
  rw [course_settingsDone, bitsOf_ticklen, bitsOf_agree, ← hl, ← ha] at hcourse
  have hlenRead := rd_badcfgCleared_ticklen s v
  have htb := badcfgCleared_tb s v
  have hbad := rd_badcfgCleared s v
  generalize badcfgCleared s v = u at *
  have htick : (tickcfgWrite s v).tb.tick = (tickcfgTaken u len ag).tb.tick := congrArg Course.tick hcourse
  have hns : tickNs u = tickNs s := by rw [tickNs, tickNs, hlenRead]
  refine ⟨(congrArg Course.len hcourse).trans ?_, (congrArg Course.agree hcourse).trans ?_,
    (congrArg Course.bad hcourse).trans ?_, (congrArg Course.now hcourse).trans ?_, fun hsame hsync => ?_,
    fun hnew => ?_⟩
  · exact (rd_tickcfgTaken u (by decide) (by decide)).trans (rd_withTickcfg_ticklen u hhi)
  · exact (rd_tickcfgTaken u (by decide) (by decide)).trans (rd_withTickcfg_agree u hahi)
  · exact (rd_tickcfgTaken u (by decide) (by decide)).trans <| (rd_withTickcfg_badcfg u).trans hbad
  · exact (tickcfgTaken_now u).trans (congrArg TbSt.now htb)
  · rw [htick, tickcfgTaken_tick_same u hhi (hsame.trans hlenRead.symm) (by rw [htb, hns]; exact hsync), htb]
  · rw [htick, tickcfgTaken_tick_new u hhi (hlenRead ▸ hnew), htb]

/-- A write that is refused, in HALT, changes BADCFG alone. -/
theorem tickcfgWrite_refused {s : State} {v : BitVec 32} (h : modeIs s = .halt)
    (hbad : bitsOf v.toNat 0 8 < 5 ∨ 200 < bitsOf v.toNat 0 8 ∨ bitsOf v.toNat 8 8 < 10 ∨ 50 < bitsOf v.toNat 8 8) :
    rd (tickcfgWrite s v) Reg.TBC_TICKCFG_BADCFG = 1 ∧
      OnlyFields s (tickcfgWrite s v) [(Reg.TBC_TICKCFG_BADCFG, 0)] := by
  have hcleared : OnlyFields s (badcfgCleared s v) [(Reg.TBC_TICKCFG_BADCFG, 0)] := by
    unfold badcfgCleared
    split
    · exact ⟨rfl, fieldsBut_wr (by simp) s 0⟩
    · exact ⟨rfl, fun _ _ _ => rfl⟩
  rw [tickcfgWrite_bad h hbad]
  generalize badcfgCleared s v = u at *
  exact ⟨rd_wr_same u Reg.TBC_TICKCFG_BADCFG 0 1, hcleared.1, hcleared.2.trans (fieldsBut_wr (by simp) u 1)⟩

/-! ### TICK_FAULT -/

theorem holdCause_flds (s : State) (c : FClass) : (holdCause s c).flds = s.flds :=
  ite_keeps (p := State.flds) (ite_keeps (p := State.flds) (ite_keeps (p := State.flds) rfl rfl) rfl) rfl

theorem holdCause_csa (s : State) (c : FClass) : (holdCause s c).csa = s.csa :=
  ite_keeps (p := State.csa) (ite_keeps (p := State.csa) (ite_keeps (p := State.csa) rfl rfl) rfl) rfl

theorem rd_holdCause (s : State) (c : FClass) (f : Field) (i : Nat) : rd (holdCause s c) f i = rd s f i :=
  congrArg (fun t => rdIn t f i) (holdCause_flds s c)

theorem tickFault_effect (s : State) : let t := tickFault s
    rd t Reg.TBC_STATUS_TICKFAULT = 1 ∧ rd t Reg.TBC_STATUS_QUAL = qualCode .bad ∧ faultPresent t .timebase = true ∧
      modeIs t = modeIs s ∧ t.csa = s.csa := by
  have hrd {f : Field} (h : evrKeys (f.key 0)) : rd (tickFault s) f =
      rd (wr (wr s Reg.TBC_STATUS_TICKFAULT 1) Reg.TBC_STATUS_QUAL (qualCode .bad)) f :=
    (rd_holdCause _ _ _ _).trans (event_rdIn _ _ _ _ h)
  have hfault : rd (tickFault s) Reg.TBC_STATUS_TICKFAULT = 1 :=
    (hrd (evrKeys_of_id (by decide) (by decide) (by decide) (by decide))).trans <|
      (rd_wr_ne (by decide) _ _).trans (rd_wr_same s Reg.TBC_STATUS_TICKFAULT 0 1)
  have hqual : rd (tickFault s) Reg.TBC_STATUS_QUAL = qualCode .bad :=
    (hrd (evrKeys_of_id (by decide) (by decide) (by decide) (by decide))).trans
      (rd_wr_same (wr s Reg.TBC_STATUS_TICKFAULT 1) Reg.TBC_STATUS_QUAL 0 (qualCode .bad))
  have hmode : modeIs (tickFault s) = modeIs s :=
    congrArg modeOf <| (hrd (evrKeys_of_id (by decide) (by decide) (by decide) (by decide))).trans <|
      (rd_wr_ne (by decide) _ _).trans (rd_wr_ne (by decide) s 1)
  exact ⟨hfault, hqual, by simp [faultPresent, rdB, hfault], hmode, (holdCause_csa _ _).trans (event_csa _ _ _ _)⟩

/-- Settles O30, a phase by its equation for a quiet unit, the edge in RECALL by the course of the tick, which every
unit's part of the edge leaves alone, and TICKCFG_WRITE by the course after the settings are done. -/
theorem tickPhasesAndEdge : Obligations.TickPhasesAndEdge := by
  refine ⟨fun s => ⟨?_, ?_, ?_, ?_, ?_, ?_, ?_⟩, ?_, ?_, ?_⟩
  · intro hph hlinked hmode hown hpartner
    have hquiet : modeIs s ≠ .save ∧ modeIs s ≠ .standby ∧ modeIs s ≠ .resync := by
      rcases hmode with h | h | h <;> simp [h]
    obtain ⟨hsave, hstandby, hresync⟩ := hquiet
    have hphase := phase1_quiet hph hsave hstandby hresync (.inl hlinked) hown hpartner
    exact ⟨quietPhase1 s, congrArg Host.Outcome.next hphase, rfl, rfl, rfl, rfl⟩
  · intro hph hidle hprog hfacet hmode hresults
    have hcontrol : runsControl s = false := by
      rcases hmode with h | h <;> simp [runsControl, h]
    exact congrArg Host.Outcome.next (phase2_quiet hph hidle hprog hfacet hcontrol hresults)
  · intro hph hstandby hsave
    exact congrArg Host.Outcome.next (phase3_silent hph hsave hstandby)
  · intro hph hmode
    exact congrArg Host.Outcome.next (phase3_standby hph hmode)
  · intro hph
    exact congrArg Host.Outcome.next (if_pos hph)
  · intro hph
    exact congrArg Host.Outcome.next (if_pos hph)
  · intro hph
    exact congrArg Host.Outcome.next (if_pos hph)
  · intro s hmode hidle hprog hfacet _ hown hpartner hagreed _ _ _ _ _ _ _
    obtain ⟨htick, hph1, hph2, hph3, hmode', hnow⟩ :=
      tickEdge_recall rfl hmode hidle hprog hfacet hown hpartner hagreed
    exact ⟨tickEdge s, rfl, htick, hph1, hph2, hph3, hmode', fun hle _ => hnow hle⟩
  · intro s v len ag hl ha
    refine ⟨fun h hlo hhi halo hahi => ?_, fun h hbad => ?_, fun h => ?_⟩
    · exact ⟨tickcfgWrite s v, rfl, tickcfgWrite_good hl ha h hlo hhi halo hahi⟩
    · rw [hl, ha, ← bitsOf_ticklen, ← bitsOf_agree] at hbad
      exact ⟨tickcfgWrite s v, rfl, tickcfgWrite_refused h hbad⟩
    · exact congrArg Host.Outcome.next (tickcfgWrite_elsewhere h v)
  · exact fun s => ⟨tickFault s, rfl, tickFault_effect s⟩

end Sys2Proof.Machine
end

section
/-! SUPPORT. What a KCIS instruction may change in the task its sequencer runs (R45, R46, R49, R52, R69): the rules of the
operations that instruction bodies are made of, and what each instruction is as an act on the task. -/

namespace Sys2Proof.Machine

/-! ### Flags (R69) -/

/-- Setting a flag sets that flag alone. -/
theorem hasFlag_setFlag (i : Inst) (f h : TFlag) :
    hasFlag (setFlag i f) h = (hasFlag i h || decide (h = f)) := by
  have hmask : flagMask f &&& flagMask h = if h = f then flagMask f else 0 := by
    cases f <;> cases h <;> decide
  have hne : flagMask f ≠ 0 := by cases f <;> decide
  have hand : (i.tflags ||| flagMask f) &&& flagMask h = i.tflags &&& flagMask h ||| (flagMask f &&& flagMask h) := by
    ext k
    simp [Bool.and_or_distrib_right]
  simp only [hasFlag, setFlag, hand, hmask]
  by_cases h1 : h = f
  · subst h1
    simp [BitVec.or_eq_zero_iff, show ¬flagMask h = 0#8 from hne]
  · simp [h1]

theorem hasFlag_setFlagIf (i : Inst) (f h : TFlag) (b : Bool) :
    hasFlag (setFlagIf i f b) h = (hasFlag i h || (b && decide (h = f))) := by
  cases b <;> simp [setFlagIf, hasFlag_setFlag]

theorem hasFlag_setFlagIf_same (i : Inst) (f : TFlag) (b : Bool) : hasFlag (setFlagIf i f b) f = (hasFlag i f || b) := by
  rw [hasFlag_setFlagIf, decide_eq_true rfl, Bool.and_true]

@[simp] theorem setFlagIf_w (i : Inst) (f : TFlag) (b : Bool) : (setFlagIf i f b).w = i.w := by cases b <;> rfl

@[simp] theorem setFlagIf_p (i : Inst) (f : TFlag) (b : Bool) : (setFlagIf i f b).p = i.p := by cases b <;> rfl

@[simp] theorem setFlagIf_outs (i : Inst) (f : TFlag) (b : Bool) : (setFlagIf i f b).outs = i.outs := by
  cases b <;> rfl

@[simp] theorem setFlagIf_journal (i : Inst) (f : TFlag) (b : Bool) : (setFlagIf i f b).journal = i.journal := by
  cases b <;> rfl

/-! ### Registers, predicates and accumulators (R45, R46) -/

theorem rW_setW_same {i : Inst} {r : Reg} (h : r ≠ 0) (v : Word) : rW (setW i r v) r = v := by
  simp [rW, setW, h]

theorem rW_setW_ne {i : Inst} {q r : Reg} (h : q ≠ r) (v : Word) : rW (setW i r v) q = rW i q := by
  by_cases hr : r = 0
  · simp [setW, hr]
  · simp only [rW, setW, if_neg hr]
    congr 1
    exact Vector.getElem_set_ne _ _ fun hv => h (Fin.ext hv.symm)

/-- Register 0 is stored as it was: a write to it is discarded. -/
theorem setW_zero (i : Inst) (r : Reg) (v : Word) : (setW i r v).w[0] = i.w[0] := by
  by_cases hr : r = 0
  · simp [setW, hr]
  · simp only [setW, if_neg hr]
    exact Vector.getElem_set_ne _ _ fun hv => hr (Fin.ext hv)

theorem rP_setP_ne {i : Inst} {q p : Pred} (h : q ≠ p) (b : Bool) : rP (setP i p b) q = rP i q := by
  simp only [rP, setP]
  exact Vector.getElem_set_ne _ _ fun hv => h (Fin.ext hv.symm)

theorem rAcc_setAcc_ne {i : Inst} {k l : Acc} (h : l ≠ k) (v : BitVec 96) : rAcc (setAcc i k v) l = rAcc i l := by
  cases k <;> cases l <;> simp_all [rAcc, setAcc]

/-! ### What a write of registers, flags and accumulators leaves unchanged -/

/-- A register write changes the registers alone. -/
theorem setW_frame (i : Inst) (r : Reg) (v : Word) : ∃ w, setW i r v = { i with w := w } := by
  unfold setW
  split
  · exact ⟨i.w, rfl⟩
  · exact ⟨_, rfl⟩

theorem setFlagIf_frame (i : Inst) (f : TFlag) (b : Bool) : ∃ t, setFlagIf i f b = { i with tflags := t } := by
  cases b
  · exact ⟨i.tflags, rfl⟩
  · exact ⟨_, rfl⟩

theorem setAcc_frame (i : Inst) (k : Acc) (v : BitVec 96) :
    ∃ a b, setAcc i k v = { i with acc0 := a, acc1 := b } := by
  cases k
  · exact ⟨_, i.acc1, rfl⟩
  · exact ⟨i.acc0, _, rfl⟩

/-! ### The closing of iterations (R57) -/

/-- Closing iterations keeps frames of the open loops, and the index it writes belongs to one of them. -/
theorem closeLoops_regs (depth pc : Nat) (l : List LoopFrame) :
    (∀ f ∈ (closeLoops depth pc l).1, f.reg ∈ l.map (·.reg)) ∧
      ∀ r n, (closeLoops depth pc l).2.2 = some (r, n) → r ∈ l.map (·.reg) := by
  induction l with
  | nil => simp [closeLoops]
  | cons f fs ih =>
    obtain ⟨ihf, ihw⟩ := ih
    unfold closeLoops
    split_ifs with hend hmore
    · refine ⟨fun e he => ?_, fun r n h => ?_⟩
      · rcases List.mem_cons.1 he with rfl | he
        · exact List.mem_cons_self
        · exact List.mem_cons_of_mem _ (List.mem_map_of_mem he)
      · obtain ⟨rfl, -⟩ := Prod.mk.inj (Option.some.inj h)
        exact List.mem_cons_self
    · exact ⟨fun e he => List.mem_cons_of_mem _ (ihf e he), fun r n h => List.mem_cons_of_mem _ (ihw r n h)⟩
    · exact ⟨fun e he => List.mem_map_of_mem he, fun r n h => by cases h⟩

/-- Going on at a word moves the program counter and the open loops, and may write the index of one of them. -/
theorem goto_cases (i : Inst) (pc : Nat) : ∃ (pc' : Nat) (fs : List LoopFrame), (∀ f ∈ fs, f.reg ∈ loopRegs i) ∧
    (goto i pc = { i with pc := pc', loops := fs } ∨
      ∃ r ∈ loopRegs i, ∃ v, goto i pc = setW { i with pc := pc', loops := fs } r v) := by
  obtain ⟨hfs, hwr⟩ := closeLoops_regs i.rets.length pc i.loops
  refine ⟨(closeLoops i.rets.length pc i.loops).2.1, (closeLoops i.rets.length pc i.loops).1, hfs, ?_⟩
  unfold goto
  generalize closeLoops i.rets.length pc i.loops = x at *
  obtain ⟨fs, pc', _ | ⟨r, n⟩⟩ := x
  · exact .inl rfl
  · exact .inr ⟨r, hwr r n rfl, _, rfl⟩

/-! ### The invariant of a running task -/

/-- What `MemInv` says of a task that runs. -/
structure TaskInv (i : Inst) : Prop where
  task : i.task < 64
  journal : Tbl.rising i.journal = true
  outs : Tbl.rising i.outs = true
  zero : i.w[0] = 0

namespace TaskInv

variable {i : Inst}

theorem setW (h : TaskInv i) (r : Reg) (v : Word) : TaskInv (setW i r v) := by
  have hzero := (setW_zero i r v).trans h.zero
  obtain ⟨w, hw⟩ := setW_frame i r v
  rw [hw] at hzero ⊢
  exact ⟨h.task, h.journal, h.outs, hzero⟩

theorem setFlagIf (h : TaskInv i) (f : TFlag) (b : Bool) : TaskInv (setFlagIf i f b) := by
  obtain ⟨t, ht⟩ := setFlagIf_frame i f b
  rw [ht]
  exact ⟨h.task, h.journal, h.outs, h.zero⟩

theorem setAcc (h : TaskInv i) (k : Acc) (v : BitVec 96) : TaskInv (setAcc i k v) := by
  obtain ⟨a, b, hab⟩ := setAcc_frame i k v
  rw [hab]
  exact ⟨h.task, h.journal, h.outs, h.zero⟩

theorem journalBytes (h : TaskInv i) (sp : Space) (a : Nat) (bs : List Byte) : TaskInv (journalBytes i sp a bs) := by
  induction bs generalizing i a with
  | nil => exact h
  | cons b bs ih =>
    exact ih (i := { i with journal := tput i.journal (jkey sp a) b })
      ⟨h.task, Tbl.rising_tput h.journal _ _, h.outs, h.zero⟩ (a + 1)

theorem goto (h : TaskInv i) (pc : Nat) : TaskInv (goto i pc) := by
  obtain ⟨pc', fs, -, hgo | ⟨r, -, v, hgo⟩⟩ := goto_cases i pc <;> rw [hgo]
  · exact ⟨h.task, h.journal, h.outs, h.zero⟩
  · exact TaskInv.setW (i := { i with pc := pc', loops := fs }) ⟨h.task, h.journal, h.outs, h.zero⟩ r v

end TaskInv

/-! ### The writes of an instruction -/

/-- `j` is what the instruction `c` may make of the task `i`, before or after it goes on: the bound of `KcisFrame`, with
the invariant of a running task. -/
structure Writes (c : Instr) (i j : Inst) : Prop where
  regs : ∀ r, r ∉ destRegs c → r ∉ loopRegs i → rW j r = rW i r
  preds : ∀ p, p ∉ destPreds c → rP j p = rP i p
  accs : ∀ k, k ∉ destAccs c → rAcc j k = rAcc i k
  set_flags : ∀ f, hasFlag i f = true → hasFlag j f = true
  flags : ∀ f, f ∉ destFlags c → hasFlag j f = hasFlag i f
  bytes : ∀ sp a, outsideStore (storeRange i c) sp a → tget j.journal (jkey sp a) = tget i.journal (jkey sp a)
  task : j.task = i.task
  tick : j.tick = i.tick
  stamp : j.stamp = i.stamp
  loops : ∀ r ∈ loopRegs j, r ∈ loopRegs i
  inv : TaskInv i → TaskInv j

namespace Writes

variable {c : Instr} {i j : Inst}

theorem refl (c : Instr) (i : Inst) : Writes c i i :=
  ⟨fun _ _ _ => rfl, fun _ _ => rfl, fun _ _ => rfl, fun _ h => h, fun _ _ => rfl, fun _ _ _ => rfl, rfl, rfl, rfl,
    fun _ h => h, id⟩

/-- Writing a register the instruction may write. -/
theorem setW_of (h : Writes c i j) {r : Reg} (hr : r ∈ destRegs c ∨ r ∈ loopRegs i) (v : Word) :
    Writes c i (setW j r v) := by
  have hregs : ∀ q, q ∉ destRegs c → q ∉ loopRegs i → rW (Machine.setW j r v) q = rW i q := fun q hd hl =>
    (rW_setW_ne (by rintro rfl; exact hr.elim hd hl) v).trans (h.regs q hd hl)
  have hinv := fun hi => (h.inv hi).setW r v
  obtain ⟨w, hw⟩ := setW_frame j r v
  rw [hw] at hregs hinv ⊢
  exact ⟨hregs, h.preds, h.accs, h.set_flags, h.flags, h.bytes, h.task, h.tick, h.stamp, h.loops, hinv⟩

theorem setW (h : Writes c i j) {r : Reg} (hr : r ∈ destRegs c) (v : Word) : Writes c i (setW j r v) :=
  h.setW_of (.inl hr) v

theorem setP (h : Writes c i j) {p : Pred} (hp : p ∈ destPreds c) (b : Bool) : Writes c i (setP j p b) :=
  { h with
    preds := fun q hq => (rP_setP_ne (by rintro rfl; exact hq hp) b).trans (h.preds q hq)
    inv := fun hi => let hj := h.inv hi; ⟨hj.task, hj.journal, hj.outs, hj.zero⟩ }

theorem setAcc (h : Writes c i j) {k : Acc} (hk : k ∈ destAccs c) (v : BitVec 96) : Writes c i (setAcc j k v) := by
  have haccs : ∀ l, l ∉ destAccs c → rAcc (Machine.setAcc j k v) l = rAcc i l := fun l hl =>
    (rAcc_setAcc_ne (by rintro rfl; exact hl hk) v).trans (h.accs l hl)
  have hinv := fun hi => (h.inv hi).setAcc k v
  obtain ⟨a, b, hab⟩ := setAcc_frame j k v
  rw [hab] at haccs hinv ⊢
  exact ⟨h.regs, h.preds, haccs, h.set_flags, h.flags, h.bytes, h.task, h.tick, h.stamp, h.loops, hinv⟩

/-- Setting a flag of the instruction when a condition holds. -/
theorem setFlagIf (h : Writes c i j) {f : TFlag} (hf : f ∈ destFlags c) (b : Bool) : Writes c i (setFlagIf j f b) := by
  have hset : ∀ e, hasFlag i e = true → hasFlag (Machine.setFlagIf j f b) e = true := fun e he => by
    rw [hasFlag_setFlagIf, h.set_flags e he, Bool.true_or]
  have hflags : ∀ e, e ∉ destFlags c → hasFlag (Machine.setFlagIf j f b) e = hasFlag i e := fun e he => by
    have hne : e ≠ f := by rintro rfl; exact he hf
    simp [hasFlag_setFlagIf, hne, h.flags e he]
  have hinv := fun hi => (h.inv hi).setFlagIf f b
  obtain ⟨t, ht⟩ := setFlagIf_frame j f b
  rw [ht] at hset hflags hinv ⊢
  exact ⟨h.regs, h.preds, h.accs, hset, hflags, h.bytes, h.task, h.tick, h.stamp, h.loops, hinv⟩

theorem setFlag (h : Writes c i j) {f : TFlag} (hf : f ∈ destFlags c) : Writes c i (setFlag j f) :=
  h.setFlagIf hf true

/-- Placing bytes within those the instruction stores to. -/
theorem journalBytes (h : Writes c i j) {sp : Space} {a n : Nat} (hc : storeRange i c = some (sp, a, n))
    {bs : List Byte} (hlen : bs.length = n) : Writes c i (journalBytes j sp a bs) := by
  have hbytes : ∀ sp' x, outsideStore (storeRange i c) sp' x →
      tget (Machine.journalBytes j sp a bs).journal (jkey sp' x) = tget i.journal (jkey sp' x) := fun sp' x hout => by
    rw [journalBytes_outside _ _ _ _ _ _ (by rw [hc] at hout; subst hlen; exact hout)]
    exact h.bytes sp' x hout
  have hinv := fun hi => (h.inv hi).journalBytes sp a bs
  obtain ⟨t, ht⟩ := journalBytes_fields j sp a bs
  rw [ht] at hbytes hinv ⊢
  exact ⟨h.regs, h.preds, h.accs, h.set_flags, h.flags, hbytes, h.task, h.tick, h.stamp, h.loops, hinv⟩

theorem addReq (h : Writes c i j) (r : EngReq) : Writes c i (addReq j r) :=
  { h with inv := fun hi => let hj := h.inv hi; ⟨hj.task, hj.journal, hj.outs, hj.zero⟩ }

theorem putOut (h : Writes c i j) (k : Nat) (v : Word × Qual) : Writes c i { j with outs := tput j.outs k v } :=
  { h with inv := fun hi => let hj := h.inv hi; ⟨hj.task, hj.journal, Tbl.rising_tput hj.outs k v, hj.zero⟩ }

theorem addEvt (h : Writes c i j) (e : Post) : Writes c i { j with evts := j.evts ++ [e] } :=
  { h with inv := fun hi => let hj := h.inv hi; ⟨hj.task, hj.journal, hj.outs, hj.zero⟩ }

/-- A transfer of control with the calls open after it. -/
theorem jump (h : Writes c i j) (pc : Nat) (rets : List Nat) : Writes c i { j with pc := pc, rets := rets } :=
  { h with inv := fun hi => let hj := h.inv hi; ⟨hj.task, hj.journal, hj.outs, hj.zero⟩ }

/-- Going on at a word, with the iterations that close there. -/
theorem goto (h : Writes c i j) (pc : Nat) : Writes c i (goto j pc) := by
  obtain ⟨pc', fs, hfs, hgo⟩ := goto_cases j pc
  have hmoved : Writes c i { j with pc := pc', loops := fs } :=
    { h with
      loops := fun r hr => by
        obtain ⟨f, hf, rfl⟩ := List.mem_map.1 hr
        exact h.loops _ (hfs f hf)
      inv := fun hi => let hj := h.inv hi; ⟨hj.task, hj.journal, hj.outs, hj.zero⟩ }
  obtain hgo | ⟨r, hr, v, hgo⟩ := hgo <;> rw [hgo]
  · exact hmoved
  · exact hmoved.setW_of (.inr (h.loops r hr)) v

theorem nextWord (h : Writes c i j) : Writes c i (nextWord j) := h.goto _

end Writes

end Sys2Proof.Machine
end

section
/-! SUPPORT. Rounding to a format (R56): the significand and exponent a value is rounded to, when packing them overflows,
what is read back from them, and that no number of the format lies nearer (O11). -/

namespace Sys2Proof.Machine

/-! ### Significand and exponent -/

/-- The exponent of the last place of the rounded value. -/
def lastPlace (f : FFmt) (m : Nat) (e : Int) : Int := max (e + (Nat.log2 m + 1 : Nat) - f.p) f.emin

/-- A number divided by 2^sh, to nearest with ties to even; `sticky` breaks a tie upward. -/
def divEven (m sh : Nat) (sticky : Bool) : Nat :=
  if m % 2 ^ sh > 2 ^ (sh - 1) ∨ (m % 2 ^ sh = 2 ^ (sh - 1) ∧ (sticky ∨ m / 2 ^ sh % 2 = 1)) then m / 2 ^ sh + 1
  else m / 2 ^ sh

/-- The significand of ±m·2^e counted in units of 2^q. -/
def significand (m : Nat) (e q : Int) (sticky : Bool) : Nat :=
  if q ≤ e then m * 2 ^ (e - q).toNat else divEven m (q - e).toNat sticky

/-- The pattern of ±r·2^q, r below 2^p, or the overflow. -/
def fPack (f : FFmt) (neg : Bool) (r : Nat) (q : Int) : FRes :=
  if r < 2 ^ (f.p - 1) then ⟨fZero f neg + r, false, false⟩
  else if q + (f.p - 1 : Nat) > f.emax then ⟨fInf f neg, false, true⟩
  else ⟨fZero f neg + ((q - f.emin).toNat + 1) * 2 ^ (f.p - 1) + (r - 2 ^ (f.p - 1)), false, false⟩

/-- Rounding packs the significand, or carries into the next exponent when it is rounded up to 2^p. -/
theorem fRound_eq (f : FFmt) (neg : Bool) {m : Nat} (hm : m ≠ 0) (e : Int) (sticky : Bool) :
    fRound f neg m e sticky =
      if significand m e (lastPlace f m e) sticky = 2 ^ f.p then fPack f neg (2 ^ (f.p - 1)) (lastPlace f m e + 1)
      else fPack f neg (significand m e (lastPlace f m e) sticky) (lastPlace f m e) := by
  have hcarry : fRound f neg m e sticky = (fun x : Nat × Int => fPack f neg x.1 x.2)
      (if significand m e (lastPlace f m e) sticky = 2 ^ f.p then (2 ^ (f.p - 1), lastPlace f m e + 1)
        else (significand m e (lastPlace f m e) sticky, lastPlace f m e)) := if_neg hm
  rw [hcarry]
  split <;> rfl

/-! ### Overflow -/

theorem fPack_ovf_of_le {f : FFmt} {q : Int} (h : q + (f.p - 1 : Nat) ≤ f.emax) (neg : Bool) (r : Nat) :
    (fPack f neg r q).ovf = false := by
  unfold fPack
  rw [if_neg (c := q + (f.p - 1 : Nat) > f.emax) (by omega)]
  split <;> rfl

/-- A value below 2^emax is rounded without overflow. -/
theorem fRound_ovf_of_lt {f : FFmt} {m b : Nat} {e : Int} (hp : 1 ≤ f.p) (hm : m < 2 ^ b) (hb : e + b ≤ f.emax)
    (hmin : f.emin + f.p ≤ f.emax) (neg sticky : Bool) : (fRound f neg m e sticky).ovf = false := by
  by_cases h0 : m = 0
  · simp [fRound, h0]
  · have hlog : Nat.log2 m < b := (Nat.log2_lt h0).2 hm
    have hq : lastPlace f m e + f.p ≤ f.emax := by unfold lastPlace; omega
    rw [fRound_eq f neg h0]
    split <;> exact fPack_ovf_of_le (by omega) _ _

/-- A packed value that did not overflow is in the range of the format. -/
theorem le_of_fPack_ovf {f : FFmt} {neg : Bool} {r : Nat} {q : Int} (h : (fPack f neg r q).ovf = false)
    (hr : 2 ^ (f.p - 1) ≤ r) : q + (f.p - 1 : Nat) ≤ f.emax := by
  by_contra hlt
  simp [fPack, Nat.not_lt.2 hr, Int.not_le.1 hlt] at h

/-! ### The bounds of the significand -/

theorem divEven_le (m sh : Nat) (sticky : Bool) : divEven m sh sticky ≤ m / 2 ^ sh + 1 := by
  unfold divEven; split <;> omega

theorem le_divEven (m sh : Nat) (sticky : Bool) : m / 2 ^ sh ≤ divEven m sh sticky := by
  unfold divEven; split <;> omega

theorem significand_le (f : FFmt) (m : Nat) (e : Int) (sticky : Bool) :
    significand m e (lastPlace f m e) sticky ≤ 2 ^ f.p := by
  have hlt := Nat.lt_log2_self (n := m)
  unfold significand
  split
  case isTrue h =>
    have hsum : Nat.log2 m + 1 + (e - lastPlace f m e).toNat ≤ f.p := by unfold lastPlace at *; omega
    calc m * 2 ^ (e - lastPlace f m e).toNat
        ≤ 2 ^ (Nat.log2 m + 1) * 2 ^ (e - lastPlace f m e).toNat := Nat.mul_le_mul_right _ hlt.le
      _ = 2 ^ (Nat.log2 m + 1 + (e - lastPlace f m e).toNat) := (pow_add _ _ _).symm
      _ ≤ 2 ^ f.p := Nat.pow_le_pow_right (by decide) hsum
  case isFalse h =>
    refine (divEven_le _ _ _).trans ?_
    have hsum : Nat.log2 m + 1 ≤ f.p + (lastPlace f m e - e).toNat := by unfold lastPlace at *; omega
    have : m < 2 ^ f.p * 2 ^ (lastPlace f m e - e).toNat := by
      rw [← pow_add]; exact hlt.trans_le (Nat.pow_le_pow_right (by decide) hsum)
    exact Nat.div_lt_of_lt_mul (by rwa [mul_comm])

/-- Above the least exponent the significand has all its p bits. -/
theorem le_significand {f : FFmt} (hp : 1 ≤ f.p) {m : Nat} (hm : m ≠ 0) {e : Int} (h : f.emin < lastPlace f m e)
    (sticky : Bool) : 2 ^ (f.p - 1) ≤ significand m e (lastPlace f m e) sticky := by
  have hle := Nat.log2_self_le hm
  have hq : lastPlace f m e = e + (Nat.log2 m + 1 : Nat) - f.p := by unfold lastPlace at *; omega
  unfold significand
  split
  case isTrue h =>
    calc 2 ^ (f.p - 1) = 2 ^ (Nat.log2 m) * 2 ^ (e - lastPlace f m e).toNat := by rw [← pow_add]; congr 1; omega
      _ ≤ m * 2 ^ (e - lastPlace f m e).toNat := Nat.mul_le_mul_right _ hle
  case isFalse h =>
    refine le_trans ?_ (le_divEven _ _ _)
    rw [Nat.le_div_iff_mul_le (Nat.two_pow_pos _), ← pow_add]
    exact (Nat.pow_le_pow_right (by decide) (by omega)).trans hle

/-! ### Reading a packed value back -/

/-- What ties a format's fields together: the greatest exponent has the code below that of the infinities. -/
structure FFmt.Ok (f : FFmt) : Prop where
  two_le_p : 2 ≤ f.p
  two_le_ew : 2 ≤ f.ew
  range : f.emax - (f.p - 1 : Nat) - f.emin + 1 = 2 ^ f.ew - 2

theorem fmtOf_ok (p : Prec) : (fmtOf p).Ok := by
  cases p <;> exact ⟨by decide, by decide, by decide⟩

/-- The fields of a pattern of a sign, an exponent code and a fraction. -/
theorem pattern_fields {f : FFmt} (hp : 1 ≤ f.p) (neg : Bool) {x y : Nat} (hx : x < 2 ^ f.ew) (hy : y < 2 ^ (f.p - 1)) :
    let w := fZero f neg + x * 2 ^ (f.p - 1) + y
    w % 2 ^ (f.p - 1) = y ∧ w / 2 ^ (f.p - 1) % 2 ^ f.ew = x ∧
      decide (w / 2 ^ (f.ew + f.p - 1) % 2 = 1) = neg := by
  have hsplit : 2 ^ (f.ew + f.p - 1) = 2 ^ (f.p - 1) * 2 ^ f.ew := by rw [← pow_add]; congr 1; omega
  have hsign : fZero f neg = 2 ^ (f.p - 1) * (2 ^ f.ew * neg.toNat) := by
    cases neg <;> simp [fZero, hsplit]
  intro w
  have hw : w = y + 2 ^ (f.p - 1) * (x + 2 ^ f.ew * neg.toNat) := by simp only [w, hsign]; ring
  have hdiv : w / 2 ^ (f.p - 1) = x + 2 ^ f.ew * neg.toNat := by
    rw [hw, Nat.add_mul_div_left _ _ (Nat.two_pow_pos _), Nat.div_eq_of_lt hy, Nat.zero_add]
  refine ⟨?_, ?_, ?_⟩
  · rw [hw, Nat.add_mul_mod_self_left, Nat.mod_eq_of_lt hy]
  · rw [hdiv, Nat.add_mul_mod_self_left, Nat.mod_eq_of_lt hx]
  · rw [hsplit, ← Nat.div_div_eq_div_mul, hdiv, Nat.add_mul_div_left _ _ (Nat.two_pow_pos _), Nat.div_eq_of_lt hx]
    cases neg <;> rfl

theorem fRead_pattern {f : FFmt} (hp : 1 ≤ f.p) (neg : Bool) {x y : Nat} (hx : x < 2 ^ f.ew - 1)
    (hy : y < 2 ^ (f.p - 1)) :
    fRead f (fZero f neg + x * 2 ^ (f.p - 1) + y) =
      if x = 0 then .fin neg y f.emin else .fin neg (y + 2 ^ (f.p - 1)) (f.emin + (x - 1 : Nat)) := by
  obtain ⟨hfrac, hexp, hneg⟩ := pattern_fields hp neg (x := x) (y := y) (by omega) hy
  unfold fRead
  simp only [hfrac, hexp, hneg]
  rw [if_neg (by omega)]

/-- A significand below 2^p is read back, where it has all its bits or stands at the least exponent. -/
theorem fRead_fPack {f : FFmt} (hf : f.Ok) {neg : Bool} {r : Nat} {q : Int} (hr : r < 2 ^ f.p) (hq : f.emin ≤ q)
    (hfull : f.emin < q → 2 ^ (f.p - 1) ≤ r) (hovf : (fPack f neg r q).ovf = false) :
    fRead f (fPack f neg r q).bits = .fin neg r q := by
  obtain ⟨hp, hew, hrange⟩ := hf
  have htwo : 2 ^ f.p = 2 * 2 ^ (f.p - 1) := by rw [← pow_succ']; congr 1; omega
  have hbig : 2 ^ 2 ≤ 2 ^ f.ew := Nat.pow_le_pow_right (by decide) hew
  have hcast : ((2 ^ f.ew : Nat) : Int) = 2 ^ f.ew := by push_cast; rfl
  by_cases hlt : r < 2 ^ (f.p - 1)
  · obtain rfl : q = f.emin := by
      by_contra hne
      exact absurd (hfull (by omega)) (by omega)
    have hread := fRead_pattern (f := f) (by omega) neg (x := 0) (y := r) (by omega) hlt
    simpa [fPack, hlt] using hread
  · have hle := le_of_fPack_ovf hovf (by omega)
    have hread := fRead_pattern (f := f) (by omega) neg (x := (q - f.emin).toNat + 1) (y := r - 2 ^ (f.p - 1))
      (by omega) (by omega)
    rw [if_neg (by omega)] at hread
    simp only [fPack, if_neg hlt, if_neg (show ¬q + (f.p - 1 : Nat) > f.emax by omega)]
    rw [hread]
    congr 1 <;> omega

/-! ### The nearest number of a format -/

/-- A quotient rounded to nearest is as near as any other number. -/
theorem divEven_nearest (m : Nat) {sh : Nat} (hsh : 1 ≤ sh) (z : Int) :
    |(divEven m sh false : Int) * 2 ^ sh - m| ≤ |z * 2 ^ sh - m| := by
  have hhalf : 2 ^ sh = 2 * 2 ^ (sh - 1) := by rw [← pow_succ']; congr 1; omega
  have hm := Nat.div_add_mod' m (2 ^ sh)
  have hrem := Nat.mod_lt m (Nat.two_pow_pos sh)
  have hr : (m / 2 ^ sh : Nat) ≤ divEven m sh false ∧ (divEven m sh false = m / 2 ^ sh ∧ m % 2 ^ sh ≤ 2 ^ (sh - 1) ∨
      divEven m sh false = m / 2 ^ sh + 1 ∧ 2 ^ (sh - 1) ≤ m % 2 ^ sh) := by
    unfold divEven; split <;> omega
  have hcast : (2 : Int) ^ sh = ((2 ^ sh : Nat) : Int) := by push_cast; rfl
  rw [hcast]
  generalize m % 2 ^ sh = rem at *
  generalize m / 2 ^ sh = t at *
  generalize divEven m sh false = r at *
  generalize 2 ^ sh = d at *
  have hup : ((t : Int) + 1) * d = t * d + d := by ring
  have hz : z * d ≤ t * d ∨ (t + 1) * d ≤ z * (d : Int) := by
    rcases le_or_gt z t with h | h
    · exact .inl (Int.mul_le_mul_of_nonneg_right h (by omega))
    · exact .inr (Int.mul_le_mul_of_nonneg_right h (by omega))
  have hmz : (m : Int) = t * d + rem := by exact_mod_cast hm.symm
  obtain ⟨-, ⟨rfl, hle⟩ | ⟨rfl, hle⟩⟩ := hr
  · rw [abs_of_nonpos (by omega), le_abs]
    omega
  · push_cast at hz ⊢
    rw [abs_of_nonneg (by linarith), le_abs]
    omega

/-- Rounded to units of 2^q, a value is as near as any other number of such units. -/
theorem significand_nearest (m : Nat) (e q : Int) (z : Int) :
    |(significand m e q false : ℚ) * 2 ^ q - m * 2 ^ e| ≤ |(z : ℚ) * 2 ^ q - m * 2 ^ e| := by
  unfold significand
  split
  case isTrue h =>
    have hexact : ((m * 2 ^ (e - q).toNat : Nat) : ℚ) * 2 ^ q = m * 2 ^ e := by
      push_cast
      rw [mul_assoc, ← zpow_natCast, ← zpow_add₀ two_ne_zero]
      congr 2
      omega
    rw [hexact, sub_self, abs_zero]
    exact abs_nonneg _
  case isFalse h =>
    have hunit : (2 : ℚ) ^ q = 2 ^ (q - e).toNat * 2 ^ e := by
      rw [← zpow_natCast, ← zpow_add₀ two_ne_zero]
      congr 1
      omega
    have hnear := divEven_nearest m (sh := (q - e).toNat) (by omega) z
    have hscale (a : ℚ) : a * 2 ^ q - m * 2 ^ e = (a * 2 ^ (q - e).toNat - m) * 2 ^ e := by rw [hunit]; ring
    rw [hscale, hscale, abs_mul, abs_mul]
    exact mul_le_mul_of_nonneg_right (by exact_mod_cast hnear) (abs_nonneg _)

/-- A value rounded to a format is as near as any number of p bits at or above the least exponent. -/
theorem significand_nearest_format {f : FFmt} (hp : 1 ≤ f.p) {m : Nat} (hm : m ≠ 0) (e : Int) {n : Nat} {k : Int}
    (hn : n < 2 ^ f.p) (hk : f.emin ≤ k) :
    |(significand m e (lastPlace f m e) false : ℚ) * 2 ^ lastPlace f m e - m * 2 ^ e| ≤ |(n : ℚ) * 2 ^ k - m * 2 ^ e| := by
  rcases le_or_gt (lastPlace f m e) k with hqk | hqk
  · have hz := significand_nearest m e (lastPlace f m e) ((n * 2 ^ (k - lastPlace f m e).toNat : Nat) : Int)
    have hsame : ((n * 2 ^ (k - lastPlace f m e).toNat : Nat) : ℚ) * 2 ^ lastPlace f m e = n * 2 ^ k := by
      push_cast
      rw [mul_assoc, ← zpow_natCast, ← zpow_add₀ two_ne_zero]
      congr 2
      omega
    rwa [Int.cast_natCast, hsame] at hz
  · have hz := significand_nearest m e (lastPlace f m e) ((2 ^ (f.p - 1) : Nat) : Int)
    have hq : lastPlace f m e = e + (Nat.log2 m + 1 : Nat) - f.p := by unfold lastPlace at *; omega
    have hbelow : (n : ℚ) * 2 ^ k ≤ (2 ^ (f.p - 1) : Nat) * 2 ^ lastPlace f m e := by
      calc (n : ℚ) * 2 ^ k ≤ 2 ^ f.p * 2 ^ (lastPlace f m e - 1) := by
            gcongr
            · exact_mod_cast hn.le
            · norm_num
            · omega
        _ = (2 ^ (f.p - 1) : Nat) * 2 ^ lastPlace f m e := by
            push_cast
            rw [← zpow_natCast, ← zpow_natCast, ← zpow_add₀ two_ne_zero, ← zpow_add₀ two_ne_zero]
            congr 1
            omega
    have habove : ((2 ^ (f.p - 1) : Nat) : ℚ) * 2 ^ lastPlace f m e ≤ m * 2 ^ e := by
      calc ((2 ^ (f.p - 1) : Nat) : ℚ) * 2 ^ lastPlace f m e = 2 ^ Nat.log2 m * 2 ^ e := by
            push_cast
            rw [← zpow_natCast, ← zpow_natCast, ← zpow_add₀ two_ne_zero, ← zpow_add₀ two_ne_zero]
            congr 1
            omega
        _ ≤ m * 2 ^ e := by
            gcongr
            exact_mod_cast Nat.log2_self_le hm
    rw [Int.cast_natCast, abs_of_nonpos (sub_nonpos.2 habove)] at hz
    rw [abs_of_nonpos (sub_nonpos.2 (hbelow.trans habove))]
    linarith

/-- Settles O11: what is read back is the significand at its last place, or 2^p carried into the next exponent, and
neither is farther from the exact value than any number of the format. -/
theorem floatRoundsToNearest : Obligations.FloatRoundsToNearest := by
  intro p neg m e hm hovf
  have hf := fmtOf_ok p
  have hp : 1 ≤ (fmtOf p).p := Nat.le_of_succ_le hf.two_le_p
  have hnear := fun n k hn hk (_ : k + ((fmtOf p).p : Int) - 1 ≤ (fmtOf p).emax) =>
    significand_nearest_format (f := fmtOf p) hp hm e (n := n) (k := k) hn hk
  have hmin : (fmtOf p).emin ≤ lastPlace (fmtOf p) m e := le_max_right _ _
  have hle := significand_le (fmtOf p) m e false
  have hfull := fun h => le_significand hp hm (e := e) h false
  rw [fRound_eq _ _ hm] at hovf ⊢
  generalize significand m e (lastPlace (fmtOf p) m e) false = r at *
  split_ifs at hovf ⊢ with hcarry
  · refine ⟨_, _, fRead_fPack hf ?_ (by omega) (fun _ => le_rfl) hovf, fun n k hn hk hr => ?_⟩
    · exact Nat.pow_lt_pow_right (by decide) (by omega)
    · have hsame : ((2 ^ ((fmtOf p).p - 1) : Nat) : ℚ) * 2 ^ (lastPlace (fmtOf p) m e + 1)
          = (r : ℚ) * 2 ^ lastPlace (fmtOf p) m e := by
        rw [hcarry, zpow_add_one₀ two_ne_zero]
        push_cast
        rw [mul_comm ((2 : ℚ) ^ lastPlace (fmtOf p) m e), ← mul_assoc, ← pow_succ, Nat.sub_add_cancel hp]
      rw [hsame]
      exact hnear n k hn hk hr
  · refine ⟨_, _, fRead_fPack hf (by omega) hmin hfull hovf, hnear⟩

end Sys2Proof.Machine
end

section
/-! SUPPORT. Which floating-point results cannot overflow (R56): square roots of operands read from registers, minima and
maxima. -/

namespace Sys2Proof.Machine

/-- The bits of an integer root found below bit `n`. -/
theorem isqrt_lt (x n r : Nat) : isqrt x n r < r + 2 ^ n := by
  induction n generalizing r with
  | zero => simp [isqrt]
  | succ n ih =>
    have hclear := ih r
    have hset := ih (r + 2 ^ n)
    rw [pow_succ]
    unfold isqrt
    split <;> omega

/-- A finite value read from a pattern has p bits and stays in the exponents of the format. -/
theorem fRead_bounds {f : FFmt} (hf : f.Ok) {w : Nat} {neg : Bool} {m : Nat} {e : Int} (h : fRead f w = .fin neg m e) :
    m < 2 ^ f.p ∧ e + (f.p - 1 : Nat) ≤ f.emax := by
  obtain ⟨hp, hew, hrange⟩ := hf
  have htwo : 2 ^ f.p = 2 * 2 ^ (f.p - 1) := by rw [← pow_succ']; congr 1; omega
  have hbig : 2 ^ 2 ≤ 2 ^ f.ew := Nat.pow_le_pow_right (by decide) hew
  have hcast : ((2 ^ f.ew : Nat) : Int) = 2 ^ f.ew := by push_cast; rfl
  have hfrac := Nat.mod_lt w (Nat.two_pow_pos (f.p - 1))
  have hexp := Nat.mod_lt (w / 2 ^ (f.p - 1)) (Nat.two_pow_pos f.ew)
  unfold fRead at h
  dsimp only at h
  split_ifs at h with htop hinf hsub
  · obtain ⟨-, rfl, rfl⟩ := FVal.fin.inj h
    omega
  · obtain ⟨-, rfl, rfl⟩ := FVal.fin.inj h
    omega

/-- The root of a value within the format lies far below its greatest exponent. -/
theorem fSqrt_ovf {f : FFmt} (hf : f.Ok) (hmax : 3 ≤ f.emax) (w : Nat) : (fSqrt f (fRead f w)).ovf = false := by
  cases hread : fRead f w with
  | nan s => rfl
  | inf n => cases n <;> rfl
  | fin n m e =>
    obtain ⟨hm, he⟩ := fRead_bounds hf hread
    obtain ⟨hp, hew, hrange⟩ := hf
    have hbig : 2 ^ 2 ≤ 2 ^ f.ew := Nat.pow_le_pow_right (by decide) hew
    have hcast : ((2 ^ f.ew : Nat) : Int) = 2 ^ f.ew := by push_cast; rfl
    have hround {x b : Nat} {y : Int} {sticky : Bool} (hx : x < 2 ^ b) (hb : b ≤ 3 * f.p + 7) (hy : y ≤ e - 2 * (f.p + 3)) :
        (fRound f false (isqrt x (Nat.log2 x / 2 + 1) 0) (y / 2) sticky).ovf = false := by
      have hlog : Nat.log2 x < 3 * f.p + 7 := by
        rcases eq_or_ne x 0 with rfl | h0
        · simp
        · exact ((Nat.log2_lt h0).2 hx).trans_le hb
      have hroot := isqrt_lt x (Nat.log2 x / 2 + 1) 0
      rw [Nat.zero_add] at hroot
      exact fRound_ovf_of_lt (by omega) hroot (by omega) (by omega) _ _
    have hshift (k : Nat) : m * 2 ^ k < 2 ^ (f.p + k) := by
      rw [pow_add]
      exact Nat.mul_lt_mul_of_pos_right hm (Nat.two_pow_pos k)
    unfold fSqrt
    by_cases h0 : m = 0
    · simp [h0]
    cases n with
    | true => simp [h0, fInvalid]
    | false =>
      by_cases heven : e % 2 = 0
      · simp only [h0, heven, if_true, if_false, Bool.false_eq_true]
        exact hround (hshift _) (by omega) (by omega)
      · simp only [h0, heven, if_false, Bool.false_eq_true]
        exact hround (hshift _) (by omega) (by omega)

theorem fMinMax_ovf (f : FFmt) (mx : Bool) (x y : Nat) : (fMinMax f mx x y).ovf = false := by
  unfold fMinMax
  dsimp only
  split_ifs <;> rfl

end Sys2Proof.Machine
end

section
/-! SUPPORT. Every KCIS instruction that may carry a guard, but EVT, is an act on the task of its sequencer within the
writes of the instruction (R47, R49, Tables 3.5 to 3.13). -/

namespace Sys2Proof.Machine

/-! ### The bodies that instructions share -/

theorem instBytes_length (s : State) (i : Inst) (sp : Space) (a n : Nat) : (instBytes s i sp a n).length = n := by
  simp [instBytes]

namespace Writes

variable {c : Instr} {i j : Inst}

theorem putF (h : Writes c i j) {d : Reg} (hd : d ∈ destRegs c) (hinv : .fpinv ∈ destFlags c) {r : FRes}
    (hovf : r.ovf = false ∨ .fpovf ∈ destFlags c) : Writes c i (putF j d r) := by
  have hset := (h.setW hd (BitVec.ofNat 64 r.bits)).setFlagIf hinv r.inv
  rcases hovf with hovf | hovf
  · unfold Machine.putF setFFlags
    rw [hovf]
    exact hset
  · exact hset.setFlagIf hovf r.ovf

theorem putInt (h : Writes c i j) {d : Reg} (hd : d ∈ destRegs c) (hinv : .fpinv ∈ destFlags c)
    (hsat : .sat ∈ destFlags c) (r : Int × Bool × Bool) : Writes c i (putInt j d r) :=
  ((h.setW hd _).setFlagIf hinv _).setFlagIf hsat _

/-- A result with a flag of the instruction. -/
theorem setW_setFlagIf (h : Writes c i j) {d : Reg} (hd : d ∈ destRegs c) {f : TFlag} (hf : f ∈ destFlags c) (v : Word)
    (b : Bool) : Writes c i (Machine.setFlagIf (Machine.setW j d v) f b) :=
  (h.setW hd v).setFlagIf hf b

theorem accSat (h : Writes c i j) {k : Acc} (hk : k ∈ destAccs c) (hsat : .sat ∈ destFlags c) (v : Int) :
    Writes c i (accSat j k v) :=
  (h.setAcc hk _).setFlagIf hsat _

/-- An access that is refused writes 0 and sets ADDR (R53). -/
theorem refused (h : Writes c i j) {d : Reg} (hd : d ∈ destRegs c) (haddr : .addr ∈ destFlags c) :
    Writes c i (Machine.setFlag (Machine.setW j d 0) .addr) :=
  (h.setW hd 0).setFlag haddr

theorem load (s : State) (sp : Space) (sz : Size) {d : Reg} (hd : d ∈ destRegs c) (haddr : .addr ∈ destFlags c) (a : Reg)
    (disp : BitVec 32) (ext : Nat → Word) (i : Inst) : Writes c i (load s sp sz d a disp ext i) := by
  unfold Machine.load
  dsimp only
  split
  · exact (refl c i).setW hd _
  · exact (refl c i).refused hd haddr

theorem engRead {d : Reg} (hd : d ∈ destRegs c) (haddr : .addr ∈ destFlags c) (a : Reg) (bound : Nat) (f : Nat → Word)
    (i : Inst) : Writes c i (engRead i d a bound f) := by
  unfold Machine.engRead
  dsimp only
  split
  · exact (refl c i).setW hd _
  · exact (refl c i).refused hd haddr

theorem loopReq (s : State) (haddr : .addr ∈ destFlags c) (a : Reg) (r : Nat → EngReq) (i : Inst) :
    Writes c i (loopReq s i a r) := by
  unfold Machine.loopReq
  dsimp only
  split
  · split
    · exact (refl c i).addReq _
    · exact (refl c i).setFlag haddr
  · exact (refl c i).setFlag haddr

/-- A record instruction places its record where the instruction stores (R53, R62, R63). -/
theorem recordOp (s : State) {sp : Space} {n : Nat} {p : Pred} {a : Reg} {disp : BitVec 32}
    {step : Inst → List Byte → List Byte × Bool × Bool} (hp : p ∈ destPreds c) (haddr : .addr ∈ destFlags c)
    (hlen : ∀ i bs, bs.length = n → (step i bs).1.length = n)
    (hsat : (∀ i bs, (step i bs).2.2 = false) ∨ .sat ∈ destFlags c) (i : Inst)
    (hc : storeRange i c = some (sp, effAddr i a disp, n)) : Writes c i (recordOp s sp n p a disp step i) := by
  unfold Machine.recordOp
  dsimp only
  split
  · have hset := ((refl c i).journalBytes hc (hlen i _ (instBytes_length s i sp (effAddr i a disp) n))).setP hp
      (step i (instBytes s i sp (effAddr i a disp) n)).2.1
    rcases hsat with hsat | hsat
    · rw [hsat]
      exact hset
    · exact hset.setFlagIf hsat _
  · exact ((refl c i).setP hp false).setFlag haddr

end Writes

/-! ### Conversions (Table 3.8) -/

theorem writes_fcvt (sq : Sq) (g : Guard) (h : Cvt) (d a : Reg) (i : Inst) :
    Writes (.fcvt sq g h d a) i (fcvt h d a i) := by
  have hd : d ∈ destRegs (.fcvt sq g h d a) := List.mem_singleton_self d
  have hinv : TFlag.fpinv ∈ destFlags (.fcvt sq g h d a) := .head _
  have hovf : TFlag.fpovf ∈ destFlags (.fcvt sq g h d a) := .tail _ (.head _)
  have hsat : TFlag.sat ∈ destFlags (.fcvt sq g h d a) := .tail _ (.tail _ (.head _))
  cases h with
  | qd | id | sd | ds | qs => exact (Writes.refl _ i).putF hd hinv (.inr hovf)
  | dq | di | sq => exact (Writes.refl _ i).putInt hd hinv hsat _

/-! ### Records -/

theorem timerOn_length (f : TimerRec → Nat → Bool → TimerRec) (q : Pred) (i : Inst) (bs : List Byte) :
    (timerOn f q i bs).1.length = 16 := by
  simp [timerOn]

theorem counterOn_length (down : Bool) (q : Pred) (i : Inst) {bs : List Byte} (h : bs.length = 16) :
    (counterOn down q i bs).1.length = 16 := by
  simp [counterOn, h]

theorem edgeOn_length (m : EdgeMode) (q : Pred) (i : Inst) (bs : List Byte) : (edgeOn m q i bs).1.length = 8 := by
  simp [edgeOn]

/-! ### Acts -/

/-- The instruction acts on the task of a sequencer when its guard holds, within the writes of the instruction, and a task
whose guard fails goes on at the next word. -/
def Acts (c : Instr) (s : State) (sq : Sq) (g : Guard) : Prop :=
  ∃ f : Inst → Inst, exec c s = .next (kcisJump s sq g f) ∧ ∀ i, Writes c i (f i)

theorem kcis_eq_kcisJump (s : State) (sq : Sq) (g : Guard) (body : Inst → Inst) :
    kcis s sq g body = kcisJump s sq g fun i => nextWord (body i) := by
  unfold kcis kcisJump
  split
  · rfl
  · rw [apply_ite nextWord]

theorem acts_kcis {c : Instr} {s : State} {sq : Sq} {g : Guard} {f : Inst → Inst}
    (hexec : exec c s = .next (kcis s sq g f)) (hf : ∀ i, Writes c i (f i)) : Acts c s sq g :=
  ⟨_, hexec.trans (congrArg _ (kcis_eq_kcisJump s sq g f)), fun i => (hf i).nextWord⟩

theorem acts_of_seqGuard {c : Instr} {sq : Sq} {g : Guard} (h : seqGuard c = some (sq, g))
    (hevt : ∀ g a b code sev, c ≠ .evt sq g a b code sev) (s : State) : Acts c s sq g := by
  have hmem {α : Type} (x : α) : x ∈ [x] := List.mem_singleton_self x
  cases c with
  | add | sub | andr | orr | xorr | shl | shr | sar | mins | maxs | mul | mulh | sel | addi | andi | ori | xori | shli
  | shri | sari | ldil | ldih | rdflg | time | tickn =>
    cases h
    exact acts_kcis rfl fun i => (Writes.refl _ i).setW (hmem _) _
  | adds | subs | qmul | divu | rem | absr | ard =>
    cases h
    exact acts_kcis rfl fun i => (Writes.refl _ i).setW_setFlagIf (hmem _) (hmem _) _ _
  | div =>
    cases h
    exact acts_kcis rfl fun i =>
      ((Writes.refl _ i).setW_setFlagIf (hmem _) (.head _) _ _).setFlagIf (.tail _ (hmem _)) _
  | cmp | cmpi | plog =>
    cases h
    exact acts_kcis rfl fun i => (Writes.refl _ i).setP (hmem _) _
  | mac | msu =>
    cases h
    exact acts_kcis rfl fun i => (Writes.refl _ i).accSat (hmem _) (hmem _) _
  | aclr | amov =>
    cases h
    exact acts_kcis rfl fun i => (Writes.refl _ i).setAcc (hmem _) _
  | fadd | fsub | fmul | fma | fdiv =>
    cases h
    exact acts_kcis rfl fun i => (Writes.refl _ i).putF (hmem _) (.head _) (.inr (.tail _ (hmem _)))
  | fsqrt _ _ p =>
    cases h
    have hmax : 3 ≤ (fmtOf p).emax := by cases p <;> decide
    exact acts_kcis rfl fun i => (Writes.refl _ i).putF (hmem _) (hmem _) (.inl (fSqrt_ovf (fmtOf_ok p) hmax _))
  | fmin | fmax =>
    cases h
    exact acts_kcis rfl fun i => (Writes.refl _ i).putF (hmem _) (hmem _) (.inl (fMinMax_ovf _ _ _ _))
  | fcmp =>
    cases h
    exact acts_kcis rfl fun i => ((Writes.refl _ i).setP (hmem _) _).setFlagIf (hmem _) _
  | fcvt =>
    cases h
    exact acts_kcis rfl fun i => writes_fcvt _ _ _ _ _ i
  | ld | lds =>
    cases h
    exact acts_kcis rfl fun i => Writes.load s _ _ (hmem _) (hmem _) _ _ _ i
  | st =>
    cases h
    refine acts_kcis rfl fun i => ?_
    dsimp only
    split
    · exact (Writes.refl _ i).journalBytes rfl (leBytes_length _ _)
    · exact (Writes.refl _ i).setFlag (hmem _)
  | ldp =>
    cases h
    refine acts_kcis rfl fun i => ?_
    dsimp only
    split
    · exact ((Writes.refl _ i).setW (.head _) _).setW (.tail _ (hmem _)) _
    · exact (((Writes.refl _ i).setW (.head _) _).setW (.tail _ (hmem _)) _).setFlag (hmem _)
  | stp =>
    cases h
    refine acts_kcis rfl fun i => ?_
    dsimp only
    split
    · exact ((Writes.refl _ i).putOut _ _).setFlagIf (.tail _ (hmem _)) _
    · exact (Writes.refl _ i).setFlag (.head _)
  | nop =>
    cases h
    exact acts_kcis rfl fun i => Writes.refl _ i
  | br | call =>
    cases h
    exact ⟨_, rfl, fun i => (Writes.refl _ i).jump _ _⟩
  | ret =>
    cases h
    refine ⟨_, rfl, fun i => ?_⟩
    split
    · exact ((Writes.refl _ i).jump i.pc _).goto _
    · exact (Writes.refl _ i).nextWord
  | ton | tof | tp =>
    cases h
    exact acts_kcis rfl fun i => Writes.recordOp s (hmem _) (hmem _) (fun i bs _ => timerOn_length _ _ i bs)
      (.inl fun _ _ => rfl) i rfl
  | ctu | ctd =>
    cases h
    exact acts_kcis rfl fun i => Writes.recordOp s (hmem _) (.head _) (fun i _ => counterOn_length _ _ i)
      (.inr (.tail _ (hmem _))) i rfl
  | edge =>
    cases h
    exact acts_kcis rfl fun i => Writes.recordOp s (hmem _) (hmem _) (fun i bs _ => edgeOn_length _ _ i bs)
      (.inl fun _ _ => rfl) i rfl
  | rate =>
    cases h
    refine acts_kcis rfl fun i => ?_
    dsimp only
    split
    · refine (((Writes.refl _ i).journalBytes rfl ?_).setW (hmem _) _).setFlagIf (.tail _ (hmem _)) _
      split
      · exact instBytes_length _ _ _ _ _
      · simp
    · exact (Writes.refl _ i).refused (hmem _) (.head _)
  | vstat | lrd | mbxst | nvws =>
    cases h
    exact acts_kcis rfl fun i => Writes.engRead (hmem _) (hmem _) _ _ _ i
  | lsp | lctlAuto | lctlManual | lctlTrack | lctlBankSwap | lctlResetI =>
    cases h
    exact acts_kcis rfl fun i => Writes.loopReq s (hmem _) _ _ i
  | mbxcp =>
    cases h
    refine acts_kcis rfl fun i => ?_
    dsimp only
    split
    · exact ((Writes.refl _ i).journalBytes rfl (by simp [List.length_flatMap, mul_comm])).setFlagIf (hmem _) _
    · exact (Writes.refl _ i).setFlag (hmem _)
  | mbxack | nvwr =>
    cases h
    refine acts_kcis rfl fun i => ?_
    dsimp only
    split
    · exact (Writes.refl _ i).addReq _
    · exact (Writes.refl _ i).setFlag (hmem _)
  | evt =>
    cases h
    exact absurd rfl (hevt _ _ _ _ _)
  | _ => exact nomatch h

end Sys2Proof.Machine
end

section
/-! SUPPORT. The guard (R49), the frame of KCIS (R69) and the invariant of the control memories under every instruction,
END and a fetch error among them (R46, R52, R78). -/

namespace Sys2Proof.Machine

/-! ### The guard (R49) -/

theorem guardOk_on_iff (i : Inst) (p : Pred) (neg : Bool) :
    guardOk i (.on p neg) = true ↔ (neg = false ∧ rP i p = true) ∨ (neg = true ∧ rP i p = false) := by
  cases neg <;> simp [guardOk]

/-- A task whose guard fails goes on at the next word. -/
theorem kcisJump_of_not_guardOk {s : State} {sq : Sq} {g : Guard} {i : Inst} (hi : instOf s sq = some i)
    (hg : guardOk i g = false) (body : Inst → Inst) : kcisJump s sq g body = setInst s sq (nextWord i) := by
  simp [kcisJump, hi, hg]

theorem kcisJump_of_idle {s : State} {sq : Sq} (hi : instOf s sq = none) (g : Guard) (body : Inst → Inst) :
    kcisJump s sq g body = s := by
  simp [kcisJump, hi]

/-! ### EVT (R67) -/

/-- What EVT makes of the task. -/
def postEvt (a b : Reg) (code : BitVec 16) (sev : Sev) (i : Inst) : Inst :=
  if 8 ≤ i.evts.length then setFlag i .evtlim else { i with evts := i.evts ++ [⟨code, sev, rW i a, rW i b⟩] }

/-- The task of a sequencer is about to post beyond its eighth event. -/
def EvtFull (s : State) (sq : Sq) (g : Guard) : Prop :=
  ∃ i, instOf s sq = some i ∧ guardOk i g = true ∧ 8 ≤ i.evts.length

/-- A post beyond the eighth counts a drop besides its act on the task. -/
theorem execEvt_of_full {s : State} {sq : Sq} {g : Guard} (h : EvtFull s sq g) (a b : Reg) (code : BitVec 16)
    (n : Fin 4) :
    exec (.evt sq g a b code n) s = .next (evrDrop (kcis s sq g (postEvt a b code (sevOf n))) (sevOf n)) := by
  obtain ⟨i, hi, hg, hfull⟩ := h
  show execEvt sq g a b code n s = _
  unfold execEvt
  rw [hi]
  exact congrArg _ (if_pos (Bool.and_eq_true_iff.2 ⟨hg, decide_eq_true hfull⟩))

/-- Every other EVT is its act on the task. -/
theorem execEvt_of_not_full {s : State} {sq : Sq} {g : Guard} (h : ¬EvtFull s sq g) (a b : Reg) (code : BitVec 16)
    (n : Fin 4) : exec (.evt sq g a b code n) s = .next (kcis s sq g (postEvt a b code (sevOf n))) := by
  show execEvt sq g a b code n s = _
  unfold execEvt
  cases hi : instOf s sq with
  | none => rfl
  | some i =>
    refine congrArg _ (if_neg fun hover => h ⟨i, hi, ?_⟩)
    obtain ⟨hg, hfull⟩ := Bool.and_eq_true_iff.1 hover
    exact ⟨hg, of_decide_eq_true hfull⟩

theorem writes_postEvt (sq : Sq) (g : Guard) (a b : Reg) (code : BitVec 16) (n : Fin 4) (i : Inst) :
    Writes (.evt sq g a b code n) i (postEvt a b code (sevOf n) i) := by
  unfold postEvt
  split
  · exact (Writes.refl _ i).setFlag (List.mem_singleton_self _)
  · exact (Writes.refl _ i).addEvt _

/-- Settles O4: the cases of the guard, and the acts of the instructions on a task whose guard fails. -/
theorem guardedExecution : Obligations.GuardedExecution := by
  refine ⟨fun i p neg => ⟨rfl, guardOk_on_iff i p neg⟩, fun c s sq g i hc hi hg => ?_⟩
  by_cases hevt : ∃ g a b code n, c = .evt sq g a b code n
  · obtain ⟨g', a, b, code, n, rfl⟩ := hevt
    obtain ⟨-, rfl⟩ := Prod.mk.inj (Option.some.inj hc)
    have hroom : ¬EvtFull s sq g' := by
      rintro ⟨j, hj, hgj, -⟩
      obtain rfl : i = j := Option.some.inj (hi.symm.trans hj)
      exact absurd hgj (by simp [hg])
    rw [execEvt_of_not_full hroom, kcis_eq_kcisJump, kcisJump_of_not_guardOk hi hg]
    rfl
  · obtain ⟨f, hexec, -⟩ := acts_of_seqGuard hc (fun g a b code n h => hevt ⟨g, a, b, code, n, h⟩) s
    rw [hexec, kcisJump_of_not_guardOk hi hg]
    rfl

/-- Settles O5: where its guard holds an instruction makes of the task what lies within its writes, and where it fails
the task goes on at the next word. -/
theorem kcisFrame : Obligations.KcisFrame := by
  intro c s t sq g i hc hevt hi ht
  obtain ⟨f, hexec, hf⟩ := acts_of_seqGuard hc hevt s
  have hj : ∃ j, kcisJump s sq g f = setInst s sq j ∧ Writes c i j := by
    cases hg : guardOk i g with
    | true => exact ⟨_, kcisJump_of_guardOk hi hg f, hf i⟩
    | false => exact ⟨_, kcisJump_of_not_guardOk hi hg f, (Writes.refl c i).nextWord⟩
  obtain ⟨j, hset, hw⟩ := hj
  rw [hexec, hset] at ht
  obtain rfl := Host.Outcome.next.inj ht
  refine ⟨j, rfl, hw.regs, hw.preds, hw.accs, hw.set_flags, hw.flags, fun sp a hout => ?_, hw.task, hw.tick, hw.stamp⟩
  have hmem : memOf (setInst s sq j) sp = memOf s sp := by cases sp <;> rfl
  simp only [instByte, hw.bytes sp a hout, hmem]

end Sys2Proof.Machine
end

section
/-! SUPPORT. The invariant of the control memories (R46, R52, R78): what leaves the control memories and the sequencers
alone, and what the end of a task keeps. -/

namespace Sys2Proof.Machine

/-! ### The control memories and the sequencers -/

/-- What the invariant of the control memories speaks of. -/
def control (s : State) : Tbl Byte × Tbl Byte × Vector Seqr 18 := (s.csa.dmem, s.csa.rmem, s.csa.seqs)

theorem control_of_csa {s t : State} (h : t.csa = s.csa) : control t = control s := by
  simp only [control, h]

theorem memInv_of_control {s t : State} (h : control t = control s) (hs : MemInv s) : MemInv t := by
  obtain ⟨hd, hr, hq⟩ : t.csa.dmem = s.csa.dmem ∧ t.csa.rmem = s.csa.rmem ∧ t.csa.seqs = s.csa.seqs := by
    simpa [control] using h
  unfold MemInv instOf at *
  rw [hd, hr, hq]
  exact hs

theorem memInv_of_csa {s t : State} (h : t.csa = s.csa) (hs : MemInv s) : MemInv t :=
  memInv_of_control (control_of_csa h) hs

theorem memInv_iff (s : State) : MemInv s ↔ Memory.wf s.csa.dmem = true ∧ Memory.wf s.csa.rmem = true ∧
    ∀ sq : Sq, (∀ n ∈ (s.csa.seqs[sq]).queue, n < 64) ∧ ∀ i, instOf s sq = some i → TaskInv i :=
  and_congr_right fun _ => and_congr_right fun _ => forall_congr' fun _ => and_congr_right fun _ =>
    forall_congr' fun _ => imp_congr_right fun _ =>
      ⟨fun ⟨ht, hj, ho, hz⟩ => ⟨ht, hj, ho, hz⟩, fun ⟨ht, hj, ho, hz⟩ => ⟨ht, hj, ho, hz⟩⟩

/-- A sequencer given another task and queue that meet the invariant. -/
theorem memInv_setSeq {s : State} (hs : MemInv s) (sq : Sq) {q : Seqr} (hqueue : ∀ n ∈ q.queue, n < 64)
    (htask : ∀ i, q.cur = some i → TaskInv i) :
    MemInv { s with csa := { s.csa with seqs := s.csa.seqs.set sq q } } := by
  obtain ⟨hd, hr, hall⟩ := (memInv_iff s).1 hs
  refine (memInv_iff _).2 ⟨hd, hr, fun p => ?_⟩
  rcases eq_or_ne p sq with rfl | hne
  · simpa [instOf] using ⟨hqueue, htask⟩
  · have hsame : (s.csa.seqs.set sq q)[p] = s.csa.seqs[p] :=
      Vector.getElem_set_ne _ _ fun hv => hne (Fin.ext hv.symm)
    simpa [instOf, hsame] using hall p

theorem memInv_setInst {s : State} (hs : MemInv s) (sq : Sq) {i : Inst} (hi : TaskInv i) : MemInv (setInst s sq i) :=
  memInv_setSeq hs sq (((memInv_iff s).1 hs).2.2 sq).1 fun _ hj => Option.some.inj hj ▸ hi

theorem taskInv_of_memInv {s : State} (hs : MemInv s) {sq : Sq} {i : Inst} (hi : instOf s sq = some i) : TaskInv i :=
  (((memInv_iff s).1 hs).2.2 sq).2 i hi

/-- An act on the running task keeps the invariant when it keeps that of the task. -/
theorem memInv_kcisJump {s : State} (hs : MemInv s) (sq : Sq) (g : Guard) {f : Inst → Inst}
    (hf : ∀ i, TaskInv i → TaskInv (f i)) : MemInv (kcisJump s sq g f) := by
  cases hi : instOf s sq with
  | none => rwa [kcisJump_of_idle hi]
  | some i =>
    have hinv := taskInv_of_memInv hs hi
    cases hg : guardOk i g with
    | true => rw [kcisJump_of_guardOk hi hg]; exact memInv_setInst hs sq (hf i hinv)
    | false => rw [kcisJump_of_not_guardOk hi hg]; exact memInv_setInst hs sq (hinv.goto _)

/-! ### The store and the recorder -/

theorem evrAccept_csa (s : State) (code source : Nat) (sev : Sev) (words : List (BitVec 32)) :
    (evrAccept s code source sev words).csa = s.csa := by
  obtain ⟨f, n, e, h, -⟩ := evrAccept_frame s code source sev words
  rw [h]

theorem evrDrop_csa (s : State) (sev : Sev) : (evrDrop s sev).csa = s.csa := by
  unfold evrDrop
  exact ite_keeps (p := State.csa) rfl rfl

theorem control_event (s : State) (code : Nat) (sev : Sev) (ps : List Nat) :
    control (event s code sev ps) = control s := control_of_csa (event_csa _ _ _ _)

theorem slotWritten_csa (s : State) (code : Nat) (prog : Bool) : (slotWritten s code prog).csa = s.csa := by
  unfold slotWritten
  extract_lets waits u
  have hu : u.csa = s.csa := ite_keeps (p := State.csa) rfl rfl
  exact ite_keeps (p := State.csa) rfl (ite_keeps (p := State.csa) hu hu)

theorem calWritten_csa (s : State) (code reason : Nat) : (calWritten s code reason).csa = s.csa := by
  unfold calWritten
  refine ite_keeps (p := State.csa) ?_ rfl
  dsimp only
  split
  · rfl
  · exact ite_keeps (p := State.csa) rfl rfl

theorem control_nvsReport (s : State) (cls : Nat) (who : Requester) (code reason : Nat) :
    control (nvsReport s cls who code reason) = control s := by
  have h : control (nvsFail s cls code reason) = control s := ite_keeps rfl rfl
  cases who with
  | prepare =>
    have hshadow (t : State) : control (if code < 0x10 then t else noShadow t) = control t := ite_keeps rfl rfl
    exact (hshadow _).trans h
  | slotProg | slotFacet => exact (control_of_csa (slotWritten_csa _ _ _)).trans h
  | clearRetire | claim => exact ite_keeps h h
  | cal => exact (control_of_csa (calWritten_csa _ _ _)).trans h
  | _ => exact h

theorem control_nvsRequest (s : State) (r : WriteReq) : control (nvsRequest s r) = control s := by
  unfold nvsRequest
  refine ite_keeps (control_nvsReport _ _ _ _ _) <| ite_keeps (control_nvsReport _ _ _ _ _) ?_
  split
  · exact control_nvsReport _ _ _ _ _
  · exact ite_keeps (control_nvsReport _ _ _ _ _) rfl

theorem control_nvsSave (s : State) (cls : Nat) (d : RecData) (who : Requester) (n : Nat) :
    control (nvsSave s cls d who n) = control s := control_nvsRequest _ _

/-! ### The end of a task (R78 to R80) -/

theorem control_endRun (s : State) (task : Nat) : control (endRun s task) = control s := by
  unfold endRun
  split
  · rfl
  · exact control_event _ _ _ _

theorem control_addRun (s : State) (task code rsn tick : Nat) : control (addRun s task code rsn tick) = control s := by
  unfold addRun
  dsimp only
  split
  · exact ite_keeps (ite_keeps (control_endRun _ _) rfl) (control_endRun _ _)
  · rfl

theorem control_failInst (s : State) (i : Inst) (code rsn : Nat) (hw : Bool) :
    control (failInst s i code rsn hw) = control s := by
  have hrun : control (addRun (reportInst s i code rsn) i.task code rsn i.tick) = control s := control_addRun _ _ _ _ _
  unfold failInst
  dsimp only
  exact ite_keeps (ite_keeps (p := control) hrun hrun) (ite_keeps hrun hrun)

theorem control_applyReq (s : State) (r : EngReq) : control (applyReq s r) = control s := by
  cases r with
  | lctl n h => cases h <;> rfl
  | nvwr n d => exact ite_keeps (control_nvsReport _ _ _ _ _) (control_nvsSave _ _ _ _ _)
  | _ => rfl

theorem control_applyEvt (s : State) (e : Post) : control (applyEvt s e) = control s :=
  control_of_csa (evrAccept_csa _ _ _ _ _)

theorem wf_setBytes_of_journal {m : Tbl Byte} (h : Memory.wf m = true) (l : List (Nat × Byte)) :
    Memory.wf (l.foldl (fun m e => Memory.setByte m (e.1 / 2) e.2) m) = true := by
  induction l generalizing m with
  | nil => exact h
  | cons e l ih => exact ih (Memory.wf_setByte h _ _)

/-- The journal applied keeps the memories in canonical form. -/
theorem memInv_applyJournal {s : State} (hs : MemInv s) (j : Tbl Byte) : MemInv (applyJournal s j) :=
  ⟨wf_setBytes_of_journal hs.1 _, wf_setBytes_of_journal hs.2.1 _, hs.2.2⟩

theorem memInv_commitInst {s : State} (hs : MemInv s) (i : Inst) : MemInv (commitInst s i) := by
  refine memInv_of_control ?_ (memInv_applyJournal hs i.journal)
  unfold commitInst
  extract_lets u v w x
  have hv : control v = control u := foldl_keeps control control_applyReq _ _
  have hw : control w = control v := foldl_keeps control control_applyEvt _ _
  have hx : control x = control w := (control_endRun _ _).trans rfl
  exact hx.trans (hw.trans hv)

theorem taskInv_newInst (s : State) {task : Nat} (h : task < 64) : TaskInv (newInst s task) :=
  ⟨h, rfl, rfl, by simp [newInst]⟩

/-- The next waiting task starts with every register 0 and nothing written. -/
theorem memInv_startNext {s : State} (hs : MemInv s) (sq : Sq) : MemInv (startNext s sq) := by
  have hqueue := (((memInv_iff s).1 hs).2.2 sq).1
  unfold startNext
  dsimp only
  split
  case h_1 n l hl =>
    rw [hl] at hqueue
    refine memInv_setSeq hs sq (fun m hm => hqueue m (List.mem_cons_of_mem _ hm)) fun i hi => ?_
    exact Option.some.inj hi ▸ taskInv_newInst s (hqueue n List.mem_cons_self)
  case h_2 => exact memInv_setSeq hs sq (by simp) (by simp)

/-! ### Faults of a resource (R391, R393) -/

theorem setResState_csa (s : State) (r : Resource) (m : MState) : (setResState s r m).csa = s.csa := by
  unfold setResState
  split <;> rfl

theorem setFcount_csa (s : State) (r : Resource) (n : Nat) : (setFcount s r n).csa = s.csa := by
  unfold setFcount
  split <;> rfl

theorem markRetired_csa (s : State) (r : Resource) : (markRetired s r).csa = s.csa := by
  unfold markRetired
  split <;> rfl

theorem windowClose_csa (s : State) (r : Resource) : (windowClose s r).csa = s.csa := by
  unfold windowClose
  split
  · rfl
  · exact ite_keeps (p := State.csa) ((setFcount_csa _ _ _).trans (setResState_csa _ _ _)) rfl

section

variable {work : State → State} (hwork : ∀ s, MemInv s → MemInv (work s))
include hwork

/-- A resource retired with work of its owner that keeps the invariant. -/
theorem memInv_retire {s : State} (hs : MemInv s) (r : Resource) (bist : Bool) : MemInv (retire s r bist work).1 := by
  unfold retire
  rw [apply_ite Prod.fst, apply_ite Prod.fst]
  split
  · exact hs
  split
  · exact memInv_of_csa ((event_csa _ _ _ _).trans (setResState_csa _ _ _)) hs
  · dsimp only
    refine memInv_of_control ((control_event _ _ _ _).trans ((control_nvsSave _ _ _ _ _).trans (ite_keeps rfl rfl))) ?_
    exact hwork _ (memInv_of_csa (markRetired_csa s r) hs)

theorem memInv_upset {s : State} (hs : MemInv s) (r : Resource) : MemInv (upset s r work).1 := by
  have hclose : MemInv (windowClose s r) := memInv_of_csa (windowClose_csa s r) hs
  unfold upset
  dsimp only
  split
  · exact memInv_of_csa ((setFcount_csa _ _ _).trans (setResState_csa _ _ _)) hclose
  · exact memInv_of_csa ((setFcount_csa _ _ _).trans (setResState_csa _ _ _)) hclose
  · exact memInv_retire hwork (memInv_of_csa (setFcount_csa _ _ _) hclose) _ _
  · exact hclose

end

/-- The tasks of a sequencer that is retired all end. -/
theorem memInv_failAll {s : State} (hs : MemInv s) (sq : Sq) (code rsn : Nat) : MemInv (failAll s sq code rsn) := by
  unfold failAll
  exact memInv_of_control (foldl_keeps control (fun s i => control_failInst s i code rsn true) _ _)
    (memInv_setSeq hs sq (q := ⟨none, []⟩) (by simp) (by simp))

theorem memInv_spareCheck {s : State} (hs : MemInv s) : MemInv (spareCheck s) := by
  unfold spareCheck
  exact memInv_of_csa (ite_keeps (p := State.csa) (holdCause_csa _ _) rfl) hs

/-! ### The instructions -/

theorem memInv_loop {s : State} (hs : MemInv s) (sq : Sq) (d a : Reg) (bound body : BitVec 16) {t : State}
    (h : exec (.loop sq d a bound body) s = .next t) : MemInv t := by
  obtain rfl := Host.Outcome.next.inj h
  refine memInv_kcisJump hs sq .always fun i hi => ?_
  have hclamp := hi.setFlagIf .loopclamp (loopCount i a bound).2
  dsimp only
  split
  · exact hclamp.goto _
  · refine TaskInv.setW ?_ d 0
    exact ⟨hclamp.task, hclamp.journal, hclamp.outs, hclamp.zero⟩

theorem memInv_endInst {s : State} (hs : MemInv s) (sq : Sq) {t : State} (h : exec (.endInst sq) s = .next t) :
    MemInv t := by
  obtain rfl := Host.Outcome.next.inj h
  split
  · exact hs
  · refine memInv_startNext ?_ sq
    split
    · exact memInv_of_control (control_failInst _ _ _ _ _) hs
    · exact memInv_commitInst hs _

theorem memInv_fetchEccError {s : State} (hs : MemInv s) (sq : Sq) {t : State}
    (h : exec (.fetchEccError sq) s = .next t) : MemInv t := by
  obtain rfl := Host.Outcome.next.inj h
  split
  · exact hs
  · have hupset := memInv_upset (work := fun s => spareCheck (failAll s sq CC.failResourceRetired 0))
      (fun u hu => memInv_spareCheck (memInv_failAll hu sq _ _)) hs (sqRes sq)
    dsimp only
    refine memInv_of_csa (event_csa _ _ _ _) ?_
    split
    · exact hupset
    · exact memInv_startNext (memInv_of_control (control_failInst _ _ _ _ _) hupset) sq

theorem memInv_guarded {s : State} (hs : MemInv s) {c : Instr} {sq : Sq} {g : Guard} (hc : seqGuard c = some (sq, g))
    {t : State} (h : exec c s = .next t) : MemInv t := by
  by_cases hevt : ∃ g a b code n, c = .evt sq g a b code n
  · obtain ⟨g', a, b, code, n, rfl⟩ := hevt
    have hpost : MemInv (kcis s sq g' (postEvt a b code (sevOf n))) := by
      rw [kcis_eq_kcisJump]
      exact memInv_kcisJump hs sq g' fun i => (writes_postEvt sq g' a b code n i).nextWord.inv
    by_cases hfull : EvtFull s sq g'
    · rw [execEvt_of_full hfull] at h
      exact Host.Outcome.next.inj h ▸ memInv_of_csa (evrDrop_csa _ _) hpost
    · rw [execEvt_of_not_full hfull] at h
      exact Host.Outcome.next.inj h ▸ hpost
  · obtain ⟨f, hexec, hf⟩ := acts_of_seqGuard hc (fun g a b code n h => hevt ⟨g, a, b, code, n, h⟩) s
    obtain rfl := Host.Outcome.next.inj (hexec.symm.trans h)
    exact memInv_kcisJump hs sq g fun i => (hf i).inv

/-- Settles O21: every instruction's act on the task keeps the invariant of the task, and the end of a task applies its
journal byte by byte and starts a fresh one. -/
theorem kcisKeepsMemInv : Obligations.KcisKeepsMemInv := by
  intro c rest s t hpending hs hc ht
  have hinv : MemInv { s with pending := rest } := memInv_of_csa (by rfl) hs
  have hstep : exec c { s with pending := rest } = .next t := by
    rw [← ht]
    simp only [step, hpending]
  rcases hc with ⟨q, g, hq⟩ | ⟨q, rfl⟩ | ⟨q, rfl⟩ | ⟨q, d, a, bound, body, rfl⟩
  · exact memInv_guarded hinv hq hstep
  · exact memInv_endInst hinv q hstep
  · exact memInv_fetchEccError hinv q hstep
  · exact memInv_loop hinv q d a bound body hstep

end Sys2Proof.Machine
end

section
/-! SUPPORT. The words of KCIS (Tables 3.2 to 3.13, R48 to R50): every operand is read back from the bits it is written in,
and every instruction from its word. -/

namespace Sys2Proof

/-! ### Fields and guards (Table 3.2, R49) -/

/-- The fields of a word are those it was packed from: each stands above those to its right. -/
theorem kUnpack_kPack (f : KFields) : kUnpack (kPack f) = f := by
  obtain ⟨op, g, gn, gp, rd, ra, rb, sub, imm⟩ := f
  simp only [kUnpack, kPack, KFields.mk.injEq]
  refine ⟨?op, ?_, ?_, ?_, ?_, ?_, ?_, ?_, ?_⟩
  case op =>
    repeat refine (BitVec.extractLsb'_append_eq_of_le (by decide)).trans ?_
    exact BitVec.extractLsb'_eq_self
  all_goals
    repeat refine (BitVec.extractLsb'_append_eq_of_le (by decide)).trans ?_
    exact BitVec.extractLsb'_append_eq_right

theorem kDecode_kPack (sq : Sq) (f : KFields) : kDecode sq (kPack f) = kOfFields sq f := by
  unfold kDecode
  rw [kUnpack_kPack]

theorem guardOf_kf (op : BitVec 8) (g : Guard) (rd ra rb : BitVec 5) (sub : BitVec 4) (imm : BitVec 32) :
    guardOf (kf op g rd ra rb sub imm) = some g := by
  cases g with
  | always => rfl
  | on p neg => cases neg <;> rfl

/-! ### Operands (Tables 3.2 to 3.13) -/

theorem predOf_predBits (p : Pred) : predOf (predBits p) = some p := by
  revert p; decide

theorem predOf_selBits (p : Pred) : predOf ((BitVec.ofNat 4 p.val).setWidth 5) = some p := by
  revert p; decide

theorem accOf_accBits (k : Acc) : accOf (accBits k) = some k := by
  cases k <;> rfl

theorem shiftOf_shiftBits (n : Fin 64) : shiftOf (shiftBits n) = some n := by
  revert n; decide

theorem memSub_memBits (sp : Space) (sz : Size) : memSub (memBits sp sz) = some (sp, sz) := by
  cases sp <;> cases sz <;> rfl

theorem spaceOf_spaceBits (sp : Space) : spaceOf (spaceBits sp) = some sp := by
  cases sp <;> rfl

theorem edgeSub_edgeBits (sp : Space) (m : EdgeMode) : edgeSub (edgeBits sp m) = some (sp, m) := by
  cases sp <;> cases m <;> rfl

theorem condOf_condBits (c : Cond) : condOf (condBits c) = some c := by
  cases c <;> rfl

theorem pfunOf_pfunBits (h : PFun) : pfunOf (pfunBits h) = some h := by
  cases h <;> rfl

theorem precOf_precBits (p : Prec) : precOf (precBits p) = some p := by
  cases p <;> rfl

theorem fcmpOf_fcmpBits (c : FCond) (p : Prec) : fcmpOf (fcmpBits c p) = some (c, p) := by
  cases c <;> cases p <;> rfl

theorem cvtOf_cvtBits (h : Cvt) : cvtOf (cvtBits h) = some h := by
  cases h <;> rfl

theorem lrdOf_lrdBits (h : LrdField) : lrdOf (lrdBits h) = some h := by
  cases h <;> rfl

theorem mbxOf_mbxBits (h : MbxField) : mbxOf (mbxBits h) = some h := by
  cases h <;> rfl

/-- ARD.L and ARD.S are told apart as the precisions are. -/
theorem longOf_bit (long : Bool) :
    (precOf (if long then 1 else 0)).map (fun x => decide (x = .single)) = some long := by
  cases long <;> rfl

theorem countOf_setWidth {n : BitVec 9} (h1 : 1 ≤ n.toNat) (h2 : n.toNat ≤ 256) :
    countOf (n.setWidth 32) = some n := by
  have hn : (n.setWidth 32).toNat = n.toNat := by simp; omega
  unfold countOf
  rw [hn, if_pos ⟨h1, h2⟩]
  exact congrArg some (BitVec.eq_of_toNat_eq (by simp))

theorem lenOf_setWidth {n : BitVec 8} (h1 : 1 ≤ n.toNat) (h2 : n.toNat ≤ 240) :
    lenOf (n.setWidth 32) = some n := by
  have hn : (n.setWidth 32).toNat = n.toNat := by simp; omega
  unfold lenOf
  rw [hn, if_pos ⟨h1, h2⟩]
  exact congrArg some (BitVec.eq_of_toNat_eq (by simp))

theorem evtOf_evtBits {code : BitVec 16} (sev : Fin 4) (h1 : 0xE000 ≤ code.toNat) (h2 : code.toNat ≤ 0xEFFF) :
    evtOf (evtBits code sev) = some (code, sev) := by
  have hzero : (evtBits code sev).extractLsb' 18 14 = 0 :=
    (BitVec.extractLsb'_append_eq_of_le (by decide)).trans BitVec.extractLsb'_append_eq_left
  have hcode : (evtBits code sev).extractLsb' 0 16 = code := BitVec.extractLsb'_append_eq_right
  have hsev : (evtBits code sev).extractLsb' 16 2 = BitVec.ofFin sev :=
    (BitVec.extractLsb'_append_eq_of_le (by decide)).trans BitVec.extractLsb'_append_eq_right
  unfold evtOf
  rw [hzero, hcode, hsev, if_pos ⟨rfl, h1, h2⟩]

/-- BOUND and BODY of a LOOP. -/
theorem loop_halves (bound body : BitVec 16) :
    (bound ++ body : BitVec 32).extractLsb' 16 16 = bound ∧ (bound ++ body : BitVec 32).extractLsb' 0 16 = body :=
  ⟨BitVec.extractLsb'_append_eq_left, BitVec.extractLsb'_append_eq_right⟩

/-! ### Instructions -/

theorem bind_eq_some_of {α β : Type} {x : Option α} {a : α} (h : x = some a) {f : α → Option β} {b : β}
    (hf : f a = some b) : x.bind f = some b := by
  rw [h]
  exact hf

/-- The fields of a well-formed instruction that may carry a guard spell it again under that guard. -/
theorem kGuarded_kFields {c : Instr} {sq : Sq} {g : Guard} (h : Machine.seqGuard c = some (sq, g)) (hwf : c.wf = true) :
    ∃ (op : BitVec 8) (rd ra rb : BitVec 5) (sub : BitVec 4) (imm : BitVec 32),
      kFields c = some (kf op g rd ra rb sub imm) ∧ op.toNat ≠ 2 ∧ op.toNat ≠ 4 ∧
        kGuarded sq g (kf op g rd ra rb sub imm) = some c := by
  cases c with
  | add | sub | andr | orr | xorr | shl | shr | sar | adds | subs | mins | maxs | mul | mulh | div | divu | rem | absr
  | addi | andi | ori | xori | ldil | ldih | ldp | stp | nop | br | call | ret | rdflg | time | tickn | vstat | lsp
  | lctlAuto | lctlManual | lctlTrack | lctlBankSwap | lctlResetI | mbxack | nvws =>
    cases h
    exact ⟨_, _, _, _, _, _, rfl, by decide, by decide, rfl⟩
  | qmul | shli | shri | sari =>
    cases h
    exact ⟨_, _, _, _, _, _, rfl, by decide, by decide, bind_eq_some_of (shiftOf_shiftBits _) rfl⟩
  | sel =>
    cases h
    exact ⟨_, _, _, _, _, _, rfl, by decide, by decide, bind_eq_some_of (predOf_selBits _) rfl⟩
  | cmp | cmpi =>
    cases h
    exact ⟨_, _, _, _, _, _, rfl, by decide, by decide,
      bind_eq_some_of (condOf_condBits _) (bind_eq_some_of (predOf_predBits _) rfl)⟩
  | plog =>
    cases h
    exact ⟨_, _, _, _, _, _, rfl, by decide, by decide, bind_eq_some_of (pfunOf_pfunBits _)
      (bind_eq_some_of (predOf_predBits _) (bind_eq_some_of (predOf_predBits _)
        (bind_eq_some_of (predOf_predBits _) rfl)))⟩
  | mac | msu | aclr | amov =>
    cases h
    exact ⟨_, _, _, _, _, _, rfl, by decide, by decide, bind_eq_some_of (accOf_accBits _) rfl⟩
  | ard =>
    cases h
    exact ⟨_, _, _, _, _, _, rfl, by decide, by decide, bind_eq_some_of (longOf_bit _)
      (bind_eq_some_of (accOf_accBits _) (bind_eq_some_of (shiftOf_shiftBits _) rfl))⟩
  | fadd | fsub | fmul | fma | fdiv | fsqrt | fmin | fmax =>
    cases h
    exact ⟨_, _, _, _, _, _, rfl, by decide, by decide, bind_eq_some_of (precOf_precBits _) rfl⟩
  | fcmp =>
    cases h
    exact ⟨_, _, _, _, _, _, rfl, by decide, by decide,
      bind_eq_some_of (fcmpOf_fcmpBits _ _) (bind_eq_some_of (predOf_predBits _) rfl)⟩
  | fcvt =>
    cases h
    exact ⟨_, _, _, _, _, _, rfl, by decide, by decide, bind_eq_some_of (cvtOf_cvtBits _) rfl⟩
  | ld | lds | st =>
    cases h
    exact ⟨_, _, _, _, _, _, rfl, by decide, by decide, bind_eq_some_of (memSub_memBits _ _) rfl⟩
  | ton | tof | tp | ctu | ctd =>
    cases h
    exact ⟨_, _, _, _, _, _, rfl, by decide, by decide, bind_eq_some_of (spaceOf_spaceBits _)
      (bind_eq_some_of (predOf_predBits _) (bind_eq_some_of (predOf_predBits _) rfl))⟩
  | edge =>
    cases h
    exact ⟨_, _, _, _, _, _, rfl, by decide, by decide, bind_eq_some_of (edgeSub_edgeBits _ _)
      (bind_eq_some_of (predOf_predBits _) (bind_eq_some_of (predOf_predBits _) rfl))⟩
  | rate =>
    cases h
    exact ⟨_, _, _, _, _, _, rfl, by decide, by decide, bind_eq_some_of (spaceOf_spaceBits _) rfl⟩
  | lrd =>
    cases h
    exact ⟨_, _, _, _, _, _, rfl, by decide, by decide, bind_eq_some_of (lrdOf_lrdBits _) rfl⟩
  | mbxst =>
    cases h
    exact ⟨_, _, _, _, _, _, rfl, by decide, by decide, bind_eq_some_of (mbxOf_mbxBits _) rfl⟩
  | mbxcp =>
    cases h
    obtain ⟨h1, h2⟩ : 1 ≤ _ ∧ _ ≤ 256 := by simpa [Instr.wf] using hwf
    exact ⟨_, _, _, _, _, _, rfl, by decide, by decide, bind_eq_some_of (countOf_setWidth h1 h2) rfl⟩
  | evt =>
    cases h
    obtain ⟨h1, h2⟩ : 0xE000 ≤ _ ∧ _ ≤ 0xEFFF := by simpa [Instr.wf] using hwf
    exact ⟨_, _, _, _, _, _, rfl, by decide, by decide, bind_eq_some_of (evtOf_evtBits _ h1 h2) rfl⟩
  | nvwr =>
    cases h
    obtain ⟨h1, h2⟩ : 1 ≤ _ ∧ _ ≤ 240 := by simpa [Instr.wf] using hwf
    exact ⟨_, _, _, _, _, _, rfl, by decide, by decide, bind_eq_some_of (spaceOf_spaceBits _)
      (bind_eq_some_of (lenOf_setWidth h1 h2) rfl)⟩
  | _ => cases h

/-- A word of fields under a guard spells what `kGuarded` reads, but for END and LOOP. -/
theorem kOfFields_kf (sq : Sq) (g : Guard) {op : BitVec 8} (h2 : op.toNat ≠ 2) (h4 : op.toNat ≠ 4)
    (rd ra rb : BitVec 5) (sub : BitVec 4) (imm : BitVec 32) :
    kOfFields sq (kf op g rd ra rb sub imm) = kGuarded sq g (kf op g rd ra rb sub imm) := by
  have hop : (kf op g rd ra rb sub imm).op = op := rfl
  unfold kOfFields
  rw [guardOf_kf, Option.bind_some, hop]
  split
  · exact absurd ‹_› h2
  · exact absurd ‹_› h4
  · rfl

/-- Settles O2: the word packs the fields, END and LOOP are read from theirs, and every other instruction by the table of
those that may carry a guard. -/
theorem kcisDecodeOfEncode : Obligations.KcisDecodeOfEncode := by
  intro c sq hwf hc
  have hword {f : KFields} (hf : kFields c = some f) (hof : kOfFields sq f = some c) :
      ∃ w, kEncode c = some w ∧ kDecode sq w = some c :=
    ⟨kPack f, congrArg (Option.map kPack) hf, (kDecode_kPack sq f).trans hof⟩
  rcases hc with ⟨g, hg⟩ | rfl | ⟨d, a, bound, body, rfl⟩
  · obtain ⟨op, rd, ra, rb, sub, imm, hf, h2, h4, hread⟩ := kGuarded_kFields hg hwf
    exact hword hf ((kOfFields_kf sq g h2 h4 rd ra rb sub imm).trans hread)
  · exact hword rfl rfl
  · obtain ⟨hbound, hbody⟩ := loop_halves bound body
    refine hword rfl (bind_eq_some_of (guardOf_kf _ _ _ _ _ _ _) ?_)
    show some (Instr.loop sq d a ((bound ++ body : BitVec 32).extractLsb' 16 16)
      ((bound ++ body : BitVec 32).extractLsb' 0 16)) = _
    rw [hbound, hbody]

end Sys2Proof
end

section
/-! SUPPORT. Integer results (Tables 3.5 and 3.6, R45, R46, R55): words as exact numbers, and results that are clamped with
SAT. -/

namespace Sys2Proof.Machine

/-! ### Register 0 (R46) -/

/-- The pattern 0 is +0.0 in either precision. -/
theorem fRead_zero (p : Prec) : fRead (fmtOf p) 0 = .fin false 0 (fmtOf p).emin := by
  cases p <;> decide

/-- Settles O7: register 0 is read as zero, and zero is read as +0.0 in either precision. -/
theorem registerZero : Obligations.RegisterZero := by
  intro i v r
  exact ⟨rfl, rfl, fun hr => rW_setW_same hr v, fun q hq => rW_setW_ne hq v, fRead_zero .double,
    fRead_zero .single⟩

/-! ### Words as exact numbers -/

theorem toNat_low6 (x : Word) : (x.extractLsb' 0 6).toNat = x.toNat % 64 := by
  simp

theorem min_word (x y : Word) : (if x.toInt ≤ y.toInt then x else y) = BitVec.ofInt 64 (min x.toInt y.toInt) := by
  rw [min_def, apply_ite (BitVec.ofInt 64), BitVec.ofInt_toInt, BitVec.ofInt_toInt]

theorem max_word (x y : Word) : (if x.toInt ≤ y.toInt then y else x) = BitVec.ofInt 64 (max x.toInt y.toInt) := by
  rw [max_def, apply_ite (BitVec.ofInt 64), BitVec.ofInt_toInt, BitVec.ofInt_toInt]

theorem mul_word (x y : Word) : x * y = BitVec.ofNat 64 (x.toNat * y.toNat) := BitVec.mul_def

/-! ### Clamped results -/

/-- A result clamped to `w` bits in a register, with SAT when that changes it. -/
def putSat (w : Nat) (i : Inst) (d : Reg) (v : Int) : Inst :=
  setFlagIf (setW i d (ofInt64 (satTo w v).1)) .sat (satTo w v).2

/-- The three cases of a result clamped to one sign bit and `w` others. -/
theorem results_of_putSat {c : Instr} {s : State} {sq : Sq} {i : Inst} {d : Reg} {w : Nat} {v : Int}
    (h : exec c s = ran s sq (putSat (w + 1) i d v)) :
    (-(2 ^ w) ≤ v → v ≤ 2 ^ w - 1 → exec c s = ran s sq (setW i d (BitVec.ofInt 64 v))) ∧
    (2 ^ w - 1 < v → exec c s = ran s sq (setFlag (setW i d (BitVec.ofInt 64 (2 ^ w - 1))) .sat)) ∧
    (v < -(2 ^ w) → exec c s = ran s sq (setFlag (setW i d (BitVec.ofInt 64 (-(2 ^ w)))) .sat)) := by
  refine ⟨fun hlo hhi => ?_, fun hhi => ?_, fun hlo => ?_⟩ <;> rw [h, putSat]
  · rw [satTo_inside (w + 1) v hlo hhi]; rfl
  · rw [satTo_above (w + 1) v hhi]; rfl
  · rw [satTo_below (w + 1) v hlo]; rfl

/-- Settles O6: each form is its body on the task, the words read as exact numbers and the clamped forms by the three
cases of a clamp. -/
theorem integerArithmeticResults : Obligations.IntegerArithmeticResults := by
  refine ⟨fun s sq g d a b i hi hg => ?_, fun s sq g d a b i hi hg c v hc => ?_,
    fun s sq g d a b imm n p i hi hg => ?_⟩
  · have hact := kcis_of_guardOk hi hg
    rw [toNat_low6, ← min_word, ← max_word, ← mul_word, mulh_word]
    exact ⟨hact _, hact _, hact _, hact _, hact _, hact _, hact _, hact _, hact _, hact _, hact _, hact _⟩
  · refine results_of_putSat (w := 63) ?_
    rcases hc with ⟨rfl, rfl⟩ | ⟨rfl, rfl⟩ | ⟨rfl, rfl⟩
    · exact kcis_of_guardOk hi hg _
    · exact kcis_of_guardOk hi hg _
    · rw [Int.abs_eq_natAbs]
      exact kcis_of_guardOk hi hg _
  · have hact := kcis_of_guardOk hi hg
    have hsel : exec (.sel sq g d a b p) s = ran s sq (setW i d (if rP i p then rW i a else rW i b)) := hact _
    rw [← ldih_word]
    exact ⟨hact _, hact _, hact _, hact _, hact _, hact _, hact _, hact _, hact _,
      fun hp => by rw [hsel, hp]; rfl, fun hp => by rw [hsel, hp]; rfl⟩

/-! ### Fixed point and division (R55) -/

theorem qmul_eq {s : State} {sq : Sq} {g : Guard} {i : Inst} (hi : instOf s sq = some i) (hg : guardOk i g = true)
    (d a b : Reg) (n : Fin 64) :
    exec (.qmul sq g d a b n) s = ran s sq (putSat 32 i d (roundAway (low32 (rW i a) * low32 (rW i b)) n)) :=
  kcis_of_guardOk hi hg _

/-- A division as its quotient, DIVZ and SAT. -/
theorem div_eq {s : State} {sq : Sq} {g : Guard} {i : Inst} (hi : instOf s sq = some i) (hg : guardOk i g = true)
    (d a b : Reg) {q : Int} {z sat : Bool} (h : divS (rW i a).toInt (rW i b).toInt = (q, z, sat)) :
    exec (.div sq g d a b) s = ran s sq (setFlagIf (setFlagIf (setW i d (ofInt64 q)) .divz z) .sat sat) := by
  have hact : exec (.div sq g d a b) s = _ := kcis_of_guardOk hi hg _
  rw [hact, h]

theorem rem_eq {s : State} {sq : Sq} {g : Guard} {i : Inst} (hi : instOf s sq = some i) (hg : guardOk i g = true)
    (d a b : Reg) {r : Int} {z : Bool} (h : remS (rW i a).toInt (rW i b).toInt = (r, z)) :
    exec (.rem sq g d a b) s = ran s sq (setFlagIf (setW i d (ofInt64 r)) .divz z) := by
  have hact : exec (.rem sq g d a b) s = _ := kcis_of_guardOk hi hg _
  rw [hact, h]

theorem divu_eq {s : State} {sq : Sq} {g : Guard} {i : Inst} (hi : instOf s sq = some i) (hg : guardOk i g = true)
    (d a b : Reg) :
    exec (.divu sq g d a b) s = ran s sq (setFlagIf
      (setW i d (if rW i b = 0 then BitVec.allOnes 64 else rW i a / rW i b)) .divz (decide (rW i b = 0))) :=
  kcis_of_guardOk hi hg _

/-- Settles O8: QMUL by the three cases of its clamp, the divisions by the cases of R55. -/
theorem fixedPointAndDivisionResults : Obligations.FixedPointAndDivisionResults := by
  refine ⟨fun s sq g d a b n i hi hg t m ht hm => ?_, fun s sq g d a b i hi hg => ⟨fun hb => ?_, fun ha hb => ?_,
    fun hb hne => ?_, fun hb => ?_⟩⟩
  · refine results_of_putSat (w := 31) ?_
    rw [hm, ht, ← roundAway_eq]
    exact qmul_eq hi hg d a b n
  · have hb0 : (rW i b).toInt = 0 := by rw [hb]; rfl
    refine ⟨fun ha => ?_, fun ha => ?_, fun ha => ?_, ?_, ?_⟩
    · exact div_eq (q := 0) (z := true) (sat := false) hi hg d a b (by simp [divS, hb0, ha])
    · exact div_eq (z := true) (sat := false) hi hg d a b (by rw [divS, if_pos hb0, if_neg (by omega), if_pos ha])
    · exact div_eq (z := true) (sat := false) hi hg d a b (by rw [divS, if_pos hb0, if_neg (by omega), if_neg (by omega)])
    · rw [divu_eq hi hg, if_pos hb, decide_eq_true hb]
      rfl
    · rw [rem_eq hi hg d a b (if_pos hb0), ofInt64, BitVec.ofInt_toInt]
      rfl
  · have hover : ¬(rW i b).toInt = 0 := by omega
    exact ⟨div_eq (z := false) (sat := true) hi hg d a b (by rw [divS, if_neg hover, if_pos ⟨ha, hb⟩]),
      rem_eq (r := 0) (z := false) hi hg d a b (by rw [remS, if_neg hover, if_pos ⟨ha, hb⟩])⟩
  · have hb0 : ¬(rW i b).toInt = 0 := fun h => hb (BitVec.eq_of_toInt_eq h)
    exact ⟨div_eq (z := false) (sat := false) hi hg d a b (by rw [divS, if_neg hb0, if_neg hne]),
      rem_eq (z := false) hi hg d a b (by rw [remS, if_neg hb0, if_neg hne])⟩
  · rw [divu_eq hi hg, if_neg hb, decide_eq_false hb, BitVec.udiv_def]
    rfl

end Sys2Proof.Machine
end

section
/-! SUPPORT. Predicates and accumulators (Tables 3.5 and 3.6, R45). -/

namespace Sys2Proof.Machine

/-! ### Clamped accumulators -/

theorem sat96_above (v : Int) (h : 2 ^ 95 - 1 < v) : sat96 v = (2 ^ 95 - 1, true) := by
  rw [sat96, if_pos h]

theorem sat96_below (v : Int) (h : v < -(2 ^ 95 - 1)) : sat96 v = (-(2 ^ 95 - 1), true) := by
  rw [sat96, if_neg (by omega), if_pos h]

/-- The three cases of an accumulator clamped to ±(2^95 − 1). -/
theorem results_of_accSat {c : Instr} {s : State} {sq : Sq} {i : Inst} {k : Acc} {v : Int}
    (h : exec c s = ran s sq (accSat i k v)) :
    (-(2 ^ 95 - 1) ≤ v → v ≤ 2 ^ 95 - 1 → exec c s = ran s sq (setAcc i k (BitVec.ofInt 96 v))) ∧
    (2 ^ 95 - 1 < v → exec c s = ran s sq (setFlag (setAcc i k (BitVec.ofInt 96 (2 ^ 95 - 1))) .sat)) ∧
    (v < -(2 ^ 95 - 1) → exec c s = ran s sq (setFlag (setAcc i k (BitVec.ofInt 96 (-(2 ^ 95 - 1)))) .sat)) := by
  refine ⟨fun hlo hhi => ?_, fun hhi => ?_, fun hlo => ?_⟩ <;> rw [h, accSat]
  · rw [sat96_inside v hlo hhi]; rfl
  · rw [sat96_above v hhi]; rfl
  · rw [sat96_below v hlo]; rfl

/-- ARD rounds away from zero at ties and clamps to 64 or 32 bits. -/
theorem ard_eq {s : State} {sq : Sq} {g : Guard} {i : Inst} (hi : instOf s sq = some i) (hg : guardOk i g = true)
    (long : Bool) (d : Reg) (k : Acc) (n : Fin 64) :
    exec (.ard sq g long d k n) s =
      ran s sq (putSat ((if long then 63 else 31) + 1) i d (roundAway (rAcc i k).toInt n)) := by
  have hact : exec (.ard sq g long d k n) s = _ := kcis_of_guardOk hi hg _
  cases long <;> exact hact

/-- Settles O9: the compares and predicate functions one by one, MAC and MSU by the three cases of their clamp, and ARD by
those of its own. -/
theorem predicateAndAccumulatorResults : Obligations.PredicateAndAccumulatorResults := by
  refine ⟨fun s sq g p q r a b imm i hi hg => ?_, fun s sq g k d a b n i hi hg => ?_⟩
  · have hact := kcis_of_guardOk hi hg
    refine ⟨fun c y h hc => ?_, hact _, hact _, hact _, hact _, hact _, hact _, hact _, hact _⟩
    have hcompare : compare c (rW i a) y = h := by
      rcases hc with ⟨rfl, rfl⟩ | ⟨rfl, rfl⟩ | ⟨rfl, rfl⟩ | ⟨rfl, rfl⟩ | ⟨rfl, rfl⟩ | ⟨rfl, rfl⟩ <;> rfl
    rw [← hcompare]
    refine ⟨?_, ?_⟩ <;> rintro rfl <;> exact hact _
  · have hact := kcis_of_guardOk hi hg
    refine ⟨fun c v hc => results_of_accSat ?_, hact _, hact _, fun long w t m hw ht hm => ?_⟩
    · rcases hc with ⟨rfl, rfl⟩ | ⟨rfl, rfl⟩ <;> exact hact _
    · subst hw
      refine results_of_putSat ?_
      rw [hm, ht, ← roundAway_eq]
      exact ard_eq hi hg long d k n

end Sys2Proof.Machine
end

section
/-! SUPPORT. Floating-point results and what NaN operands give (Tables 3.7 and 3.8, R56). -/

namespace Sys2Proof.Machine

/-! ### NaN operands -/

/-- A NaN operand of a sum, product or quotient gives the NaN result of both operands. -/
theorem nanRes_of_isNan {a b : FVal} (h : (a.isNan || b.isNan) = true) (f : FFmt) :
    fAdd f a b = fNanRes f [a, b] ∧ fMul f a b = fNanRes f [a, b] ∧ fDiv f a b = fNanRes f [a, b] := by
  unfold fAdd fMul fDiv
  exact ⟨if_pos h, if_pos h, if_pos h⟩

/-- The NaN result is invalid exactly for a signalling operand. -/
theorem fNanRes_eq {l : List FVal} {b : Bool} (h : FVal.nan true ∈ l ↔ b = true) (f : FFmt) :
    fNanRes f l = ⟨fNan f, b, false⟩ := by
  have hcontains : l.contains (.nan true) = b := Bool.eq_iff_iff.2 (List.contains_iff_mem.trans h)
  rw [fNanRes, hcontains]

/-- A quiet NaN with an operand that does not signal, in either place. -/
theorem quiet_operands {l : List FVal} {v : FVal} (h : l = [.nan false, v] ∨ l = [v, .nan false]) (hv : v ≠ .nan true)
    {a b : FVal} (hl : l = [a, b]) (f : FFmt) :
    (a.isNan || b.isNan) = true ∧ fNanRes f [a, b] = ⟨fNan f, false, false⟩ := by
  rcases h with rfl | rfl <;> cases hl
  · exact ⟨rfl, fNanRes_eq (by simp [hv.symm]) f⟩
  · exact ⟨Bool.or_true _, fNanRes_eq (by simp [hv.symm]) f⟩

/-- A signalling NaN with any operand, in either place. -/
theorem signalling_operands {l : List FVal} {v : FVal} (h : l = [.nan true, v] ∨ l = [v, .nan true]) {a b : FVal}
    (hl : l = [a, b]) (f : FFmt) :
    (a.isNan || b.isNan) = true ∧ fNanRes f [a, b] = ⟨fNan f, true, false⟩ := by
  rcases h with rfl | rfl <;> cases hl
  · exact ⟨rfl, fNanRes_eq (by simp) f⟩
  · exact ⟨Bool.or_true _, fNanRes_eq (by simp) f⟩

/-- Exactly one NaN operand of a minimum or maximum gives the other one. -/
theorem fMinMax_one_nan (f : FFmt) (mx : Bool) {x y : Nat} (hx : (fRead f x).isNan = true)
    (hy : (fRead f y).isNan = false) :
    fMinMax f mx x y = ⟨y, decide (fRead f x = .nan true), false⟩ ∧
      fMinMax f mx y x = ⟨y, decide (fRead f x = .nan true), false⟩ := by
  have hne : fRead f y ≠ .nan true := by rintro h; rw [h] at hy; cases hy
  unfold fMinMax
  simp [hx, hy, hne]

/-! ### Compares -/

/-- With a NaN operand UN holds and no order does. -/
theorem fCompare_nan {c : FCond} {x y : FVal} (h : (x.isNan || y.isNan) = true) : fCompare c x y = decide (c = .un) := by
  cases c <;> simp only [fCompare, h] <;> rfl

theorem fCompare_ordered {x y : FVal} (h : (x.isNan || y.isNan) = false) :
    fCompare .eq x y = decide (fOrder x y = 0) ∧ fCompare .lt x y = decide (fOrder x y < 0) ∧
      fCompare .le x y = decide (fOrder x y ≤ 0) := by
  simp [fCompare, h]

/-- Settles O10: each form's result with its flags, a conversion's with SAT, the compares with and without a NaN, and the
NaN result of every operation. -/
theorem floatResults : Obligations.FloatResults := by
  refine ⟨fun s sq g p d a b q i f x y z hi hg hf hx hy hz => ?_, fun f v l x y => ?_⟩
  · have hact := kcis_of_guardOk hi hg
    subst hf hx hy hz
    refine ⟨fun c r hc => ?_, fun c v inv sat hc => ?_, fun c h hc => ?_⟩
    · rcases hc with ⟨rfl, rfl⟩ | ⟨rfl, rfl⟩ | ⟨rfl, rfl⟩ | ⟨rfl, rfl⟩ | ⟨rfl, rfl⟩ | ⟨rfl, rfl⟩ | ⟨rfl, rfl⟩ | ⟨rfl, rfl⟩ |
        ⟨rfl, rfl⟩ | ⟨rfl, rfl⟩ | ⟨rfl, rfl⟩ | ⟨rfl, rfl⟩ | ⟨rfl, rfl⟩ <;> exact hact _
    · rcases hc with ⟨rfl, hr⟩ | ⟨rfl, hr⟩ | ⟨rfl, hr⟩ <;>
        exact (hact _).trans (congrArg (fun r => ran s sq (putInt i d r)) hr.symm)
    · have hcompare : fCompare c (rF i p a) (rF i p b) = h := by
        rcases hc with ⟨rfl, rfl⟩ | ⟨hc, hnan, rfl⟩ | ⟨hnum, hc⟩
        · rfl
        · rw [fCompare_nan hnan, decide_eq_false hc]
        · obtain ⟨heq, hlt, hle⟩ := fCompare_ordered hnum
          rcases hc with ⟨rfl, rfl⟩ | ⟨rfl, rfl⟩ | ⟨rfl, rfl⟩
          · exact heq
          · exact hlt
          · exact hle
      rw [← hcompare]
      exact hact _
  · refine ⟨by decide, by decide, fun hl hv r hr a b hab => ?_, fun hl r hr a b hab => ?_,
      fun g => ⟨rfl, rfl, fun _ _ => rfl⟩, fun hx hy => ?_⟩
    · obtain ⟨hnan, hres⟩ := quiet_operands hl hv hab f
      rw [hr, ← hres]
      exact nanRes_of_isNan hnan f
    · obtain ⟨hnan, hres⟩ := signalling_operands hl hab f
      rw [hr, ← hres]
      exact nanRes_of_isNan hnan f
    · obtain ⟨hmin, hmin'⟩ := fMinMax_one_nan f false hx hy
      obtain ⟨hmax, hmax'⟩ := fMinMax_one_nan f true hx hy
      exact ⟨hmin, hmax, hmin', hmax'⟩

end Sys2Proof.Machine
end

section
/-! SUPPORT. Loads, stores and points (Table 3.9, R51 to R54). -/

namespace Sys2Proof.Machine

/-! ### Addresses (R51) -/

/-- An access to `n` bytes is valid when it is aligned and within a segment of the task. -/
theorem validAccess_iff (s : State) (i : Inst) (sp : Space) (ea n align : Nat) :
    validAccess s i sp ea n align = true ↔ ea % align = 0 ∧ inSegment s i.task sp ea n = true := by
  simp [validAccess]

theorem sizeBytes_eq {sz : Size} {n : Nat}
    (h : sz = .b8 ∧ n = 1 ∨ sz = .b16 ∧ n = 2 ∨ sz = .b32 ∧ n = 4 ∨ sz = .b64 ∧ n = 8) : sizeBytes sz = n := by
  rcases h with ⟨rfl, rfl⟩ | ⟨rfl, rfl⟩ | ⟨rfl, rfl⟩ | ⟨rfl, rfl⟩ <;> rfl

/-! ### Loads -/

theorem leNat_instBytes (s : State) (i : Inst) (sp : Space) (ea n : Nat) :
    leNat (instBytes s i sp ea n) = ((List.range n).map fun k => (instByte s i sp (ea + k)).toNat * 256 ^ k).sum :=
  leNat_map_range _ _

/-- The bytes of a load read as two's complement. -/
theorem signedOf_leNat {bs : List Byte} {n : Nat} (hlen : bs.length = n) :
    signedOf (8 * n) (leNat bs) =
      if leNat bs < 2 ^ (8 * n - 1) then (leNat bs : Int) else (leNat bs : Int) - 2 ^ (8 * n) := by
  have hlt : leNat bs % 2 ^ (8 * n) = leNat bs := Nat.mod_eq_of_lt (hlen ▸ leNat_lt bs)
  simp [signedOf, hlt]

theorem load_of_valid {s : State} {i : Inst} {sp : Space} {sz : Size} {a : Reg} {disp : BitVec 32}
    (h : validAccess s i sp (effAddr i a disp) (sizeBytes sz) (sizeBytes sz) = true) (d : Reg) (ext : Nat → Word) :
    load s sp sz d a disp ext i = setW i d (ext (leNat (instBytes s i sp (effAddr i a disp) (sizeBytes sz)))) :=
  if_pos h

theorem load_of_fault {s : State} {i : Inst} {sp : Space} {sz : Size} {a : Reg} {disp : BitVec 32}
    (h : ¬validAccess s i sp (effAddr i a disp) (sizeBytes sz) (sizeBytes sz) = true) (d : Reg) (ext : Nat → Word) :
    load s sp sz d a disp ext i = setFlag (setW i d 0) .addr :=
  if_neg h

/-! ### Stores -/

/-- What a store into the journal leaves: its bytes are read back, every other byte and the rest of the task stay. -/
theorem journalBytes_effect (s : State) (i : Inst) (sp : Space) (ea : Nat) (bs : List Byte) :
    (∀ k (h : k < bs.length), instByte s (journalBytes i sp ea bs) sp (ea + k) = bs[k]) ∧
    (∀ sp' x, (sp' ≠ sp ∨ x < ea ∨ ea + bs.length ≤ x) →
      instByte s (journalBytes i sp ea bs) sp' x = instByte s i sp' x) ∧
    ∃ t, journalBytes i sp ea bs = { i with journal := t } :=
  ⟨fun k h => instByte_inside s i sp ea k bs h, fun sp' x h => instByte_outside s i sp sp' ea x bs h,
    journalBytes_fields i sp ea bs⟩

theorem st_eq {s : State} {sq : Sq} {g : Guard} {i : Inst} (hi : instOf s sq = some i) (hg : guardOk i g = true)
    (sp : Space) (sz : Size) (b a : Reg) (disp : BitVec 32) :
    exec (.st sq g sp sz b a disp) s = ran s sq
      (if validAccess s i sp (effAddr i a disp) (sizeBytes sz) (sizeBytes sz) then
        journalBytes i sp (effAddr i a disp) (leBytes (sizeBytes sz) (rW i b).toNat) else setFlag i .addr) :=
  kcis_of_guardOk hi hg _

/-- Settles O12: a valid load reads the bytes as the task sees them, a valid store is read back byte by byte, and a
refused access does what R53 says. -/
theorem loadAndStoreResults : Obligations.LoadAndStoreResults := by
  refine ⟨fun s sq g sp sz d a disp i ea n v hi hg hea hsz hv => ?_, fun s sq g sp sz b a disp i ea n hi hg hea hsz => ?_⟩
  · obtain rfl := sizeBytes_eq hsz
    rw [← leNat_instBytes] at hv
    obtain rfl : ea = effAddr i a disp := hea
    rw [← validAccess_iff]
    have hact := kcis_of_guardOk hi hg
    refine ⟨fun hok => ⟨?_, ?_⟩, fun hbad => ⟨?_, ?_⟩⟩
    · exact (hact _).trans (congrArg (ran s sq) (by rw [load_of_valid hok, hv]))
    · exact (hact _).trans (congrArg (ran s sq) (by
        rw [load_of_valid hok, hv, signedOf_leNat (instBytes_length _ _ _ _ _)]; rfl))
    · exact (hact _).trans (congrArg (ran s sq) (load_of_fault hbad _ _))
    · exact (hact _).trans (congrArg (ran s sq) (load_of_fault hbad _ _))
  · obtain rfl := sizeBytes_eq hsz
    obtain rfl : ea = effAddr i a disp := hea
    rw [← validAccess_iff, st_eq hi hg]
    refine ⟨fun hok => ?_, fun hbad => by rw [if_neg hbad]⟩
    rw [if_pos hok]
    obtain ⟨hin, hout, t, ht⟩ :=
      journalBytes_effect s i sp (effAddr i a disp) (leBytes (sizeBytes sz) (rW i b).toNat)
    refine ⟨_, rfl, fun k hk => ?_, fun sp' x hx => hout sp' x (by rwa [leBytes_length]), ?_⟩
    · rw [hin k (by rwa [leBytes_length]), leBytes_word]
    · rw [ht]
      exact ⟨rfl, rfl, rfl, rfl⟩

/-! ### Points (R54) -/

/-- A point of the input list of a task. -/
theorem ldp_eq {s : State} {sq : Sq} {g : Guard} {i : Inst} {t : TaskEntry} (hi : instOf s sq = some i)
    (hg : guardOk i g = true) (ht : taskOf s i.task = some t) (d b a : Reg) (disp : BitVec 32) {p : Option Nat}
    (hp : t.inList[effAddr i a disp]? = p) :
    exec (.ldp sq g d b a disp) s = ran s sq (p.elim (setFlag (setW (setW i d 0) b 4) .addr)
      fun p => setW (setW i d (snapPoint s p).value) b (BitVec.ofNat 64 (qualCode (snapPoint s p).qual))) := by
  have hact : exec (.ldp sq g d b a disp) s = _ := kcis_of_guardOk hi hg _
  rw [hact, ht, Option.bind_some, hp]
  cases p <;> rfl

/-- A point of the output list of a task. -/
theorem stp_eq {s : State} {sq : Sq} {g : Guard} {i : Inst} {t : TaskEntry} (hi : instOf s sq = some i)
    (hg : guardOk i g = true) (ht : taskOf s i.task = some t) (d b a : Reg) (disp : BitVec 32) {p : Option Nat}
    (hp : t.outList[effAddr i a disp]? = p) :
    exec (.stp sq g d b a disp) s = ran s sq (p.elim (setFlag i .addr) fun p =>
      setFlagIf { i with outs := tput i.outs p (rW i d, (stpQual ((rW i b).toNat % 8)).1) } .qualw
        (stpQual ((rW i b).toNat % 8)).2) := by
  have hact : exec (.stp sq g d b a disp) s = _ := kcis_of_guardOk hi hg _
  rw [hact, ht, Option.bind_some, hp]
  cases p <;> rfl

/-- The quality STP stores for a code, and whether QUALW is set. -/
theorem stpQual_eq {n : Nat} {q : Qual} {w : Bool} (h : n = 0 ∧ q = .good ∧ w = false ∨
    n = 3 ∧ q = .substituted ∧ w = false ∨ n = 4 ∧ q = .bad ∧ w = false ∨ n ∉ [0, 3, 4] ∧ q = .bad ∧ w = true) :
    stpQual n = (q, w) := by
  rcases h with ⟨rfl, rfl, rfl⟩ | ⟨rfl, rfl, rfl⟩ | ⟨rfl, rfl, rfl⟩ | ⟨hn, rfl, rfl⟩
  · rfl
  · rfl
  · rfl
  · simp only [List.mem_cons, List.not_mem_nil, or_false, not_or] at hn
    obtain ⟨h0, h3, h4⟩ := hn
    rw [stpQual, if_neg h0, if_neg h3, if_neg h4]

/-- Settles O13: LDP and STP by whether the index is in the list of the task. -/
theorem pointResults : Obligations.PointResults := by
  intro s sq g d b a disp i t x hi hg ht hx
  obtain rfl : x = effAddr i a disp := hx
  refine ⟨fun pt hp v hv => ?_, fun hp => ldp_eq hi hg ht d b a disp hp, fun pt hp q w hq => ?_,
    fun hp => stp_eq hi hg ht d b a disp hp⟩
  · obtain rfl : v = snapPoint s pt := hv
    exact ldp_eq hi hg ht d b a disp hp
  · have hstp := stp_eq hi hg ht d b a disp hp
    rw [stpQual_eq hq] at hstp
    refine ⟨setFlagIf { i with outs := tput i.outs pt (rW i d, q) } .qualw w, hstp, ?_⟩
    rw [setFlagIf_outs, setFlagIf_w, setFlagIf_journal, hasFlag_setFlagIf_same]
    exact ⟨tget_tput_same _ _ _, fun pt' h => tget_tput_ne h _ _, Bool.or_comm _ _, rfl, rfl⟩

end Sys2Proof.Machine
end

section
/-! SUPPORT. Timers, counters, edges and rates on their records (Table 3.12, R62 to R64). -/

namespace Sys2Proof.Machine

/-! ### Bits of a control word -/

theorem ctrlBit_eq_testBit (c n : Nat) : ctrlBit c n = c.testBit n :=
  (Nat.testBit_eq_decide_div_mod_eq).symm

/-- A control word with a bit set: the bits above it, the bit, the bits below it. -/
theorem setCtrl_eq (c n : Nat) (b : Bool) :
    setCtrl c n b = 2 ^ n * (2 * (c / 2 ^ n / 2) + b.toNat) + c % 2 ^ n := by
  have hc := Nat.div_add_mod c (2 ^ n)
  have hbit := Nat.div_add_mod (c / 2 ^ n) 2
  have hsplit : 2 ^ n * (c / 2 ^ n) = 2 ^ n * (2 * (c / 2 ^ n / 2)) + c / 2 ^ n % 2 * 2 ^ n := by
    rw [mul_comm (c / 2 ^ n % 2), ← mul_add, hbit]
  unfold setCtrl
  rw [mul_add]
  cases b <;> simp <;> omega

@[simp] theorem ctrlBit_setCtrl (c n m : Nat) (b : Bool) :
    ctrlBit (setCtrl c n b) m = if m = n then b else ctrlBit c m := by
  have hlow := Nat.mod_lt c (Nat.two_pow_pos n)
  rw [ctrlBit_eq_testBit, setCtrl_eq, Nat.testBit_two_pow_mul_add _ hlow]
  rcases lt_trichotomy m n with h | rfl | h
  · rw [if_pos h, if_neg h.ne, ctrlBit_eq_testBit, Nat.testBit_mod_two_pow, decide_eq_true h, Bool.true_and]
  · cases b <;> simp [Nat.testBit_zero]
  · obtain ⟨k, rfl⟩ := Nat.exists_eq_add_of_lt h
    rw [if_neg (by omega), if_neg (by omega), ctrlBit_eq_testBit, show n + k + 1 - n = k + 1 by omega,
      Nat.testBit_succ, show n + k + 1 = k + (n + 1) by omega, ← Nat.testBit_div_two_pow]
    congr 1
    rw [pow_succ, ← Nat.div_div_eq_div_mul]
    cases b <;> simp
    omega

@[simp] theorem setCtrl_mod_four {n : Nat} (hn : 2 ≤ n) (c : Nat) (b : Bool) : setCtrl c n b % 4 = c % 4 := by
  obtain ⟨k, rfl⟩ := Nat.exists_eq_add_of_le hn
  have hpow : 2 ^ (2 + k) = 4 * 2 ^ k := by rw [pow_add]; rfl
  rw [setCtrl_eq, hpow, mul_assoc, Nat.mul_add_mod, Nat.mod_mod_of_dvd c (Dvd.intro _ rfl)]

/-! ### Timers (R62) -/

/-- The limit of a timer as its listing writes it. -/
theorem timerLimit_eq (t : TimerRec) : timerLimit t = t.preset *
    (if t.ctrl % 4 = 0 then 10 ^ 3 else if t.ctrl % 4 = 1 then 10 ^ 6 else if t.ctrl % 4 = 2 then 10 ^ 9 else 60 * 10 ^ 9) := by
  have hlt := Nat.mod_lt t.ctrl (show 0 < 4 by decide)
  unfold timerLimit
  generalize t.ctrl % 4 = u at *
  interval_cases u <;> rfl

theorem timerDone_eq (t : TimerRec) (s : Nat) : timerDone t s = decide (s ≥ t.start + timerLimit t) := by
  unfold timerDone
  congr 1
  exact propext (by omega)

/-- The timer with its run begun, unless it runs already. -/
def begun (t : TimerRec) (s : Nat) : TimerRec :=
  if ctrlBit t.ctrl 2 then t else { t with start := s, ctrl := setCtrl t.ctrl 2 true }

theorem begun_fields (t : TimerRec) (s : Nat) :
    (begun t s).start = (if ctrlBit t.ctrl 2 then t.start else s) ∧ (begun t s).preset = t.preset ∧
      ctrlBit (begun t s).ctrl 2 = true ∧ ctrlBit (begun t s).ctrl 3 = ctrlBit t.ctrl 3 ∧
      ctrlBit (begun t s).ctrl 4 = ctrlBit t.ctrl 4 ∧ (begun t s).ctrl % 4 = t.ctrl % 4 := by
  unfold begun
  by_cases hrun : ctrlBit t.ctrl 2 = true <;> simp [hrun]

theorem timerLimit_begun (t : TimerRec) (s : Nat) : timerLimit (begun t s) = timerLimit t := by
  obtain ⟨-, hpreset, -, -, -, hunit⟩ := begun_fields t s
  simp only [timerLimit, hpreset, hunit]

theorem timerDone_begun (t : TimerRec) (s : Nat) :
    timerDone (begun t s) s = decide (s ≥ (if ctrlBit t.ctrl 2 then t.start else s) + timerLimit t) := by
  obtain ⟨hstart, -⟩ := begun_fields t s
  rw [timerDone_eq, hstart, timerLimit_begun]

/-- TON: off while its input is off, else running, and on from its limit. -/
theorem tonStep_fields (t : TimerRec) (s : Nat) (x : Bool) :
    (x = false → (tonStep t s x).start = t.start ∧ ctrlBit (tonStep t s x).ctrl 2 = false ∧
      ctrlBit (tonStep t s x).ctrl 3 = false) ∧
    (x = true → (tonStep t s x).start = (begun t s).start ∧ ctrlBit (tonStep t s x).ctrl 2 = true ∧
      ctrlBit (tonStep t s x).ctrl 3 = (ctrlBit t.ctrl 3 || timerDone (begun t s) s)) ∧
    ctrlBit (tonStep t s x).ctrl 4 = ctrlBit t.ctrl 4 ∧ (tonStep t s x).preset = t.preset ∧
    (tonStep t s x).ctrl % 4 = t.ctrl % 4 := by
  obtain ⟨hstart, hpreset, hrun, hq, hprev, hunit⟩ := begun_fields t s
  cases x with
  | false => simp [tonStep]
  | true =>
    have hstep : tonStep t s true =
        if timerDone (begun t s) s then { begun t s with ctrl := setCtrl (begun t s).ctrl 3 true } else begun t s := rfl
    rw [hstep]
    cases timerDone (begun t s) s <;> simp [hpreset, hrun, hq, hprev, hunit]

/-- TOF: on while its input is on; once that is off, running until its limit, if it was on. -/
theorem tofStep_fields (t : TimerRec) (s : Nat) (x : Bool) :
    (x = true → (tofStep t s x).start = t.start ∧ ctrlBit (tofStep t s x).ctrl 2 = false ∧
      ctrlBit (tofStep t s x).ctrl 3 = true) ∧
    (x = false → ctrlBit t.ctrl 3 = false → tofStep t s x = t) ∧
    (x = false → ctrlBit t.ctrl 3 = true → (tofStep t s x).start = (begun t s).start ∧
      ctrlBit (tofStep t s x).ctrl 2 = !timerDone (begun t s) s ∧
      ctrlBit (tofStep t s x).ctrl 3 = !timerDone (begun t s) s) ∧
    ctrlBit (tofStep t s x).ctrl 4 = ctrlBit t.ctrl 4 ∧ (tofStep t s x).preset = t.preset ∧
    (tofStep t s x).ctrl % 4 = t.ctrl % 4 := by
  obtain ⟨hstart, hpreset, hrun, hq, hprev, hunit⟩ := begun_fields t s
  cases x with
  | true => simp [tofStep]
  | false =>
    have hstep : tofStep t s false = if ctrlBit t.ctrl 3 then
        if timerDone (begun t s) s then
          { begun t s with ctrl := setCtrl (setCtrl (begun t s).ctrl 3 false) 2 false } else begun t s
      else t := rfl
    rw [hstep]
    cases hon : ctrlBit t.ctrl 3 <;> cases timerDone (begun t s) s <;> simp [hpreset, hrun, hq, hprev, hunit, hon]

/-- The pulse timer with a run that has reached its limit ended. -/
def ended (t : TimerRec) (s : Nat) : TimerRec :=
  if ctrlBit t.ctrl 2 && timerDone t s then { t with ctrl := setCtrl (setCtrl t.ctrl 2 false) 3 false } else t

theorem ended_fields (t : TimerRec) (s : Nat) :
    (ended t s).start = t.start ∧ (ended t s).preset = t.preset ∧
      ctrlBit (ended t s).ctrl 2 = (ctrlBit t.ctrl 2 && !(ctrlBit t.ctrl 2 && timerDone t s)) ∧
      ctrlBit (ended t s).ctrl 3 = (ctrlBit t.ctrl 3 && !(ctrlBit t.ctrl 2 && timerDone t s)) ∧
      ctrlBit (ended t s).ctrl 4 = ctrlBit t.ctrl 4 ∧ (ended t s).ctrl % 4 = t.ctrl % 4 := by
  unfold ended
  cases hend : ctrlBit t.ctrl 2 && timerDone t s <;> simp

/-- TP: a pulse begins on a rising input when none runs, and a run ends at its limit. -/
theorem tpStep_fields (t : TimerRec) (s : Nat) (x : Bool) :
    ((!ctrlBit (ended t s).ctrl 2) = true → x = true → ctrlBit t.ctrl 4 = false →
      (tpStep t s x).start = s ∧ ctrlBit (tpStep t s x).ctrl 2 = true ∧ ctrlBit (tpStep t s x).ctrl 3 = true) ∧
    (¬((!ctrlBit (ended t s).ctrl 2) = true ∧ x = true ∧ ctrlBit t.ctrl 4 = false) →
      (tpStep t s x).start = t.start ∧ ctrlBit (tpStep t s x).ctrl 2 = ctrlBit (ended t s).ctrl 2 ∧
      ctrlBit (tpStep t s x).ctrl 3 = ctrlBit (ended t s).ctrl 3) ∧
    ctrlBit (tpStep t s x).ctrl 4 = x ∧ (tpStep t s x).preset = t.preset ∧ (tpStep t s x).ctrl % 4 = t.ctrl % 4 := by
  obtain ⟨hstart, hpreset, -, -, hprev, hunit⟩ := ended_fields t s
  have hstep : tpStep t s x = (let u := if !ctrlBit (ended t s).ctrl 2 && x && !ctrlBit (ended t s).ctrl 4 then
      { ended t s with start := s, ctrl := setCtrl (setCtrl (ended t s).ctrl 2 true) 3 true } else ended t s
    { u with ctrl := setCtrl u.ctrl 4 x }) := rfl
  rw [hstep, hprev]
  cases hrun : ctrlBit (ended t s).ctrl 2 <;> cases x <;> cases hp : ctrlBit t.ctrl 4 <;>
    simp [hstart, hpreset, hunit, hrun]

/-! ### Records (R53) -/

section

variable {s : State} {i : Inst} {sp : Space} {n : Nat} {a : Reg} {disp : BitVec 32}

theorem recordOp_of_valid (h : validAccess s i sp (effAddr i a disp) n n = true) (p : Pred)
    (step : Inst → List Byte → List Byte × Bool × Bool) :
    recordOp s sp n p a disp step i =
      let r := step i (instBytes s i sp (effAddr i a disp) n)
      setFlagIf (setP (journalBytes i sp (effAddr i a disp) r.1) p r.2.1) .sat r.2.2 :=
  if_pos h

theorem recordOp_of_fault (h : ¬validAccess s i sp (effAddr i a disp) n n = true) (p : Pred)
    (step : Inst → List Byte → List Byte × Bool × Bool) :
    recordOp s sp n p a disp step i = setFlag (setP i p false) .addr :=
  if_neg h

end

/-- Settles O15: the steps of the three timers field by field, and the record they are stepped in. -/
theorem timerResults : Obligations.TimerResults := by
  refine ⟨fun t s x lim hlim run q prev hrun hq hprev start' due hstart hdue => ?_, ?_⟩
  · rw [← timerLimit_eq] at hlim
    have hbegun : (begun t s).start = start' := by rw [(begun_fields t s).1, hstart, hrun]
    have hdone : timerDone (begun t s) s = due := by rw [timerDone_begun, hdue, hstart, hrun, hlim]
    subst hrun hq hprev
    rw [← hbegun, ← hdone]
    refine ⟨?_, ?_, ?_⟩
    · rintro u rfl
      exact tonStep_fields t s x
    · rintro u rfl
      exact tofStep_fields t s x
    · rintro u e rfl he
      obtain ⟨-, -, hrun, hq, -, -⟩ := ended_fields t s
      have hstep := tpStep_fields t s x
      rw [hrun, hq, timerDone_eq, ← hlim, ← he, Bool.not_and, Bool.not_not] at hstep
      exact hstep
  · intro s sq g sp p q a disp i ea hi hg hea c f hc
    obtain rfl : ea = effAddr i a disp := hea
    rw [← validAccess_iff]
    have hexec : exec c s = ran s sq (recordOp s sp 16 p a disp (timerOn f q) i) := by
      rcases hc with ⟨rfl, rfl⟩ | ⟨rfl, rfl⟩ | ⟨rfl, rfl⟩ <;> exact kcis_of_guardOk hi hg _
    refine ⟨fun hok bs u hbs hu => ?_, fun hbad => ?_⟩
    · rw [hexec, recordOp_of_valid hok, hu, hbs]
      rfl
    · rw [hexec, recordOp_of_fault hbad]

end Sys2Proof.Machine
end

section
/-! SUPPORT. Counters, edges and rates (R63, R64). -/

namespace Sys2Proof.Machine

/-! ### Counters and edges (R63) -/

theorem signedOf_range {w : Nat} (hw : 1 ≤ w) (v : Nat) :
    -(2 ^ (w - 1)) ≤ signedOf w v ∧ signedOf w v ≤ 2 ^ (w - 1) - 1 := by
  have hlt := Nat.mod_lt v (Nat.two_pow_pos w)
  have hhalf : 2 ^ w = 2 * 2 ^ (w - 1) := by rw [← pow_succ']; congr 1; omega
  have hcast : (2 : Int) ^ (w - 1) = ((2 ^ (w - 1) : Nat) : Int) := by push_cast; rfl
  unfold signedOf
  rw [hcast]
  split <;> omega

/-- A signed 32-bit count up by one, held at its greatest value. -/
theorem satTo_up {n : Int} (hlo : -(2 ^ 31) ≤ n) (hhi : n ≤ 2 ^ 31 - 1) :
    satTo 32 (n + 1) = (if n = 2 ^ 31 - 1 then 2 ^ 31 - 1 else n + 1, decide (n = 2 ^ 31 - 1)) := by
  by_cases h : n = 2 ^ 31 - 1
  · rw [satTo_above 32 _ (by norm_num; omega), if_pos h, decide_eq_true h]
  · rw [satTo_inside 32 _ (by norm_num; omega) (by norm_num; omega), if_neg h, decide_eq_false h]

/-- A signed 32-bit count down by one, held at its least value. -/
theorem satTo_down {n : Int} (hlo : -(2 ^ 31) ≤ n) (hhi : n ≤ 2 ^ 31 - 1) :
    satTo 32 (n - 1) = (if n = -(2 ^ 31) then -(2 ^ 31) else n - 1, decide (n = -(2 ^ 31))) := by
  by_cases h : n = -(2 ^ 31)
  · rw [satTo_below 32 _ (by norm_num; omega), if_pos h, decide_eq_true h]
  · rw [satTo_inside 32 _ (by norm_num; omega) (by norm_num; omega), if_neg h, decide_eq_false h]

/-- What a counter counts to, and whether it is held at its bound. -/
theorem counter_value (down : Bool) {count : Int} (hlo : -(2 ^ 31) ≤ count) (hhi : count ≤ 2 ^ 31 - 1) (rise : Bool)
    {bound : Int} (hbound : bound = if down then -(2 ^ 31) else 2 ^ 31 - 1) :
    (if rise then satTo 32 (if down then count - 1 else count + 1) else (count, false)) =
      (if rise then (if count = bound then bound else count + (if down then -1 else 1)) else count,
        rise && decide (count = bound)) := by
  subst hbound
  cases rise with
  | false => rfl
  | true =>
    cases down with
    | false => exact satTo_up hlo hhi
    | true => exact satTo_down hlo hhi

/-- A counter record stepped, in the words of its listing. -/
theorem counterOn_eq (down : Bool) (q : Pred) (i : Inst) (bs : List Byte) {count bound n : Int} {ctrl : Nat}
    {rise sat : Bool} (hcount : count = signedOf 32 (leAt bs 0 4)) (hctrl : ctrl = leAt bs 8 4)
    (hrise : rise = (rP i q && !ctrlBit ctrl 4)) (hbound : bound = if down then -(2 ^ 31) else 2 ^ 31 - 1)
    (hn : n = if rise then (if count = bound then bound else count + (if down then -1 else 1)) else count)
    (hsat : sat = (rise && decide (count = bound))) :
    counterOn down q i bs = (leBytes 4 (patternOf 32 n) ++ leBytes 4 (leAt bs 4 4) ++
      leBytes 4 (setCtrl ctrl 4 (rP i q)) ++ bs.drop 12,
      if down then decide (n ≤ 0) else decide (n ≥ signedOf 32 (leAt bs 4 4)), sat) := by
  obtain ⟨hlo, hhi⟩ := signedOf_range (w := 32) (by decide) (leAt bs 0 4)
  have hvalue := counter_value down hlo hhi rise hbound
  rw [← hcount, ← hn, ← hsat] at hvalue
  unfold counterOn
  simp only [← hcount, ← hctrl, ← hrise, hvalue]
  cases down <;> rfl

theorem edgeOn_eq {m : EdgeMode} {q : Pred} {i : Inst} {bs : List Byte} {ctrl : Nat} {prev hit : Bool}
    (hctrl : ctrl = leAt bs 0 8) (hprev : prev = ctrlBit ctrl 4)
    (hhit : m = .rising ∧ hit = (rP i q && !prev) ∨ m = .falling ∧ hit = (!rP i q && prev) ∨
      m = .either ∧ hit = (rP i q ^^ prev)) :
    edgeOn m q i bs = (leBytes 8 (setCtrl ctrl 4 (rP i q)), hit, false) := by
  subst hprev hctrl
  rcases hhit with ⟨rfl, rfl⟩ | ⟨rfl, rfl⟩ | ⟨rfl, rfl⟩ <;> rfl

/-- Settles O16: a counter's record by the cases of its direction, an edge's by those of its mode, and a fault by R53. -/
theorem counterAndEdgeResults : Obligations.CounterAndEdgeResults := by
  intro s sq g sp p q m a disp i ea x hi hg hea hx
  obtain rfl : ea = effAddr i a disp := hea
  have hrecord (n : Nat) := validAccess_iff s i sp (effAddr i a disp) n n
  rw [← hrecord, ← hrecord]
  have hact := kcis_of_guardOk hi hg
  subst hx
  refine ⟨fun hok bs count preset ctrl hbs hcount hpreset hctrl rise hrise c step bound n done sat hc hn hsat => ?_,
    fun hok ctrl prev hit hctrl hprev hhit => ?_, fun hbad => ⟨?_, ?_⟩, fun hbad => ?_⟩
  · subst hbs
    rcases hc with ⟨rfl, rfl, hbound, rfl⟩ | ⟨rfl, rfl, hbound, rfl⟩
    · have hstep := counterOn_eq false q i _ hcount hctrl hrise hbound hn hsat
      refine (hact _).trans (congrArg (ran s sq) ?_)
      rw [recordOp_of_valid hok, hstep, hpreset]
      rfl
    · have hstep := counterOn_eq true q i _ hcount hctrl hrise hbound hn hsat
      refine (hact _).trans (congrArg (ran s sq) ?_)
      rw [recordOp_of_valid hok, hstep]
      rfl
  · refine (hact _).trans (congrArg (ran s sq) ?_)
    rw [recordOp_of_valid hok, edgeOn_eq hctrl hprev hhit]
    rfl
  · exact (hact _).trans (congrArg (ran s sq) (recordOp_of_fault hbad p _))
  · exact (hact _).trans (congrArg (ran s sq) (recordOp_of_fault hbad p _))
  · exact (hact _).trans (congrArg (ran s sq) (recordOp_of_fault hbad p _))

/-! ### Rates (R64) -/

/-- What a rate leaves where its record is valid: the value, clamped with SAT, and the record with the new stamp and
count. -/
def rateStep (i : Inst) (sp : Space) (ea : Nat) (d : Reg) (count : Word) (bs : List Byte) : Inst :=
  if leAt bs 0 8 = 0 ∨ i.stamp = leAt bs 0 8 then
    setW (journalBytes i sp ea (if i.stamp = leAt bs 0 8 then bs else leBytes 8 i.stamp ++ leBytes 8 count.toNat)) d 0
  else
    putSat 64 (journalBytes i sp ea (leBytes 8 i.stamp ++ leBytes 8 count.toNat)) d
      (((count.toInt - signedOf 64 (leAt bs 8 8)) * (10 ^ 9 * 2 ^ 16)).tdiv ((i.stamp : Int) - leAt bs 0 8))

theorem rate_eq {s : State} {sq : Sq} {g : Guard} {i : Inst} (hi : instOf s sq = some i) (hg : guardOk i g = true)
    (sp : Space) (d b a : Reg) (disp : BitVec 32) :
    exec (.rate sq g sp d b a disp) s = ran s sq
      (if validAccess s i sp (effAddr i a disp) 16 16 then
        rateStep i sp (effAddr i a disp) d (rW i b) (instBytes s i sp (effAddr i a disp) 16)
      else setFlag (setW i d 0) .addr) := by
  refine (kcis_of_guardOk hi hg _).trans (congrArg (ran s sq) (if_congr Iff.rfl ?_ rfl))
  unfold rateStep
  by_cases hfirst : leAt (instBytes s i sp (effAddr i a disp) 16) 0 8 = 0 ∨
      i.stamp = leAt (instBytes s i sp (effAddr i a disp) 16) 0 8
  · simp only [if_pos hfirst]
    rfl
  · simp only [if_neg hfirst, if_neg (not_or.1 hfirst).2]
    rfl

/-- Settles O17: a first call and a repeated stamp give 0, every other call the clamped rate, and a fault 0 with ADDR. -/
theorem rateResult : Obligations.RateResult := by
  intro s sq g sp d b a disp i ea hi hg hea
  obtain rfl : ea = effAddr i a disp := hea
  rw [← validAccess_iff]
  have hrate := rate_eq hi hg sp d b a disp
  refine ⟨fun hok bs pstamp pcount v hbs hpstamp hpcount hv => ?_, fun hbad => by rw [hrate, if_neg hbad]⟩
  rw [if_pos hok, ← hbs] at hrate
  unfold rateStep at hrate
  rw [← hpstamp, ← hpcount, ← hv] at hrate
  refine ⟨fun hsame => ?_, fun hnew j hj => ⟨fun hfirst => ?_, ?_⟩⟩
  · rw [hrate, if_pos (.inr hsame), if_pos hsame]
  · rw [hrate, if_pos (.inl hfirst), if_neg hnew, hj]
  · have hvalue (h0 : pstamp ≠ 0) : exec (.rate sq g sp d b a disp) s = ran s sq (putSat (63 + 1) j d v) := by
      rw [hrate, if_neg (not_or.2 ⟨h0, hnew⟩), hj]
    exact ⟨fun h0 => (results_of_putSat (hvalue h0)).1, fun h0 => (results_of_putSat (hvalue h0)).2.1,
      fun h0 => (results_of_putSat (hvalue h0)).2.2⟩

end Sys2Proof.Machine
end

section
/-! SUPPORT. Engine reads, the mailbox copy, requests and events (Table 3.13, R53, R65 to R68). -/

namespace Sys2Proof.Machine

/-! ### Reads of the snapshot (R65) -/

/-- An engine read gives the value of a number in range, and 0 with ADDR beyond it. -/
theorem results_of_engRead {c : Instr} {s : State} {sq : Sq} {i : Inst} {d a : Reg} {bound n : Nat} {f : Nat → Word}
    {v : Word} (h : exec c s = ran s sq (engRead i d a bound f)) (hn : n = (rW i a).toNat) (hv : f n = v) :
    (n < bound → exec c s = ran s sq (setW i d v)) ∧ (bound ≤ n → exec c s = ran s sq (setFlag (setW i d 0) .addr)) := by
  subst hn hv
  rw [h]
  exact ⟨fun hlt => congrArg (ran s sq) (if_pos hlt), fun hle => congrArg (ran s sq) (if_neg (Nat.not_lt.2 hle))⟩

/-! ### The mailbox copy -/

/-- Pieces of one length joined: element `x` of piece `k`. -/
theorem getElem?_flatMap_pieces {α β : Type} {m : Nat} {f : α → List β} (hf : ∀ e, (f e).length = m) (l : List α)
    {x : Nat} (hx : x < m) (k : Nat) : (l.flatMap f)[m * k + x]? = l[k]?.bind fun e => (f e)[x]? := by
  induction l generalizing k with
  | nil => simp
  | cons e l ih =>
    rw [List.flatMap_cons]
    cases k with
    | zero => rw [List.getElem?_append_left (by rw [hf]; omega)]; simp
    | succ k =>
      have hpos : m * (k + 1) + x = m + (m * k + x) := by ring
      rw [hpos, List.getElem?_append_right (by rw [hf]; omega), hf, Nat.add_sub_cancel_left, ih]
      rfl

theorem instByte_setFlagIf (s : State) (i : Inst) (f : TFlag) (b : Bool) (sp : Space) (a : Nat) :
    instByte s (setFlagIf i f b) sp a = instByte s i sp a := by
  cases b <;> rfl

/-- Words stored one after another are read back byte by byte. -/
theorem instByte_words (s : State) (i : Inst) (sp : Space) (ea : Nat) (w : Nat → Word) {n k x : Nat} (hk : k < n)
    (hx : x < 8) :
    instByte s (journalBytes i sp ea ((List.range n).flatMap fun k => leBytes 8 (w k).toNat)) sp (ea + 8 * k + x) =
      (w k).extractLsb' (8 * x) 8 := by
  have hlen : ((List.range n).flatMap fun k => leBytes 8 (w k).toNat).length = 8 * n := by
    simp [List.length_flatMap, mul_comm]
  have hbyte := getElem?_flatMap_pieces (m := 8) (fun k => leBytes_length 8 (w k).toNat) (List.range n) hx k
  rw [List.getElem?_range hk, Option.bind_some, List.getElem?_eq_getElem (by rw [hlen]; omega),
    List.getElem?_eq_getElem (by rwa [leBytes_length]), leBytes_word] at hbyte
  rw [Nat.add_assoc, instByte_inside s i sp ea (8 * k + x) _ (by rw [hlen]; omega)]
  exact Option.some.inj hbyte

/-- What a mailbox copy makes of a task when its slot and its target are valid. -/
def copied (s : State) (i : Inst) (d a b : Reg) (n : BitVec 9) : Inst :=
  let els := ((tget s.csa.snap.mbx (rW i a).toNat).map (·.elems)).getD []
  setFlagIf (journalBytes i .data (rW i d).toNat ((List.range n.toNat).flatMap fun k =>
    leBytes 8 ((els[(rW i b).toNat + k]?).getD 0).toNat)) .addr (decide (els.length < (rW i b).toNat + n.toNat))

theorem mbxcp_eq {s : State} {sq : Sq} {g : Guard} {i : Inst} (hi : instOf s sq = some i) (hg : guardOk i g = true)
    (d a b : Reg) (n : BitVec 9) {ok : Bool} (hok : ok = decide ((rW i a).toNat < 16 ∧ (rW i d).toNat % 8 = 0 ∧
      inSegment s i.task .data (rW i d).toNat (8 * n.toNat) = true)) :
    exec (.mbxcp sq g d a b n) s = ran s sq (if ok then copied s i d a b n else setFlag i .addr) := by
  have hcond : (decide ((rW i a).toNat < 16) && validAccess s i .data (rW i d).toNat (8 * n.toNat) 8) = ok := by
    rw [hok, Bool.eq_iff_iff, Bool.and_eq_true, decide_eq_true_iff, decide_eq_true_iff, validAccess_iff]
  rw [← hcond]
  exact kcis_of_guardOk hi hg _

/-- Settles O18: each read by its number, and the copy by the bytes of its elements. -/
theorem engineReadsAndMailboxCopy : Obligations.EngineReadsAndMailboxCopy := by
  refine ⟨fun s sq g d a i n hi hg hn c bound v st hst hc => ?_,
    fun s sq g d a b n i ea slot first hi hg hea hslot hfirst ok hok => ?_⟩
  · have hact := kcis_of_guardOk hi hg
    rcases hc with ⟨rfl, rfl, rfl⟩ | ⟨rfl, rfl, rfl⟩ | ⟨rfl, rfl, rfl⟩ | ⟨rfl, rfl, rfl⟩ | ⟨rfl, rfl, rfl⟩ | ⟨rfl, rfl, rfl⟩ |
      ⟨rfl, rfl, rfl⟩ | ⟨rfl, rfl, rfl⟩ | ⟨rfl, rfl, rfl⟩
    case inr.inr.inr.inr.inr.inr.inr.inr =>
      refine results_of_engRead (hact _) hn ?_
      rw [hst]
      cases tget s.csa.snap.nvst n <;> rfl
    all_goals exact results_of_engRead (hact _) hn rfl
  · subst hea hslot hfirst
    have hcopy := mbxcp_eq hi hg d a b n hok
    refine ⟨fun h els hels => ?_, fun h => by rw [hcopy, h]; rfl⟩
    rw [h, if_pos rfl] at hcopy
    refine ⟨_, hcopy, fun k x hk hx => ?_, ?_⟩
    · rw [copied, instByte_setFlagIf, instByte_words s i .data _ _ hk hx, hels]
    · unfold copied
      rw [← hels, setFlagIf_w, setFlagIf_p, hasFlag_setFlagIf_same]
      obtain ⟨t, ht⟩ := journalBytes_fields i .data (rW i d).toNat ((List.range n.toNat).flatMap fun k =>
        leBytes 8 ((els[(rW i b).toNat + k]?).getD 0).toNat)
      rw [ht]
      exact ⟨rfl, rfl, rfl⟩

/-! ### Requests and events (R66 to R68) -/

theorem sevOf_sevCode (sev : Sev) : sevOf (sevCode sev) = sev := by
  cases sev <;> rfl

/-- A loop request to a loop of the task joins its requests, and one to any other sets ADDR. -/
theorem results_of_loopReq {c : Instr} {s : State} {sq : Sq} {i : Inst} {a : Reg} {t : TaskEntry} {n : Nat}
    {f : Nat → EngReq} {r : EngReq} (h : exec c s = ran s sq (loopReq s i a f)) (ht : taskOf s i.task = some t)
    (hn : n = (rW i a).toNat) (hr : f n = r) :
    (n < 1024 → n ∈ t.loops → exec c s = ran s sq { i with reqs := i.reqs ++ [r] }) ∧
    (¬(n < 1024 ∧ n ∈ t.loops) → exec c s = ran s sq (setFlag i .addr)) := by
  subst hn hr
  have hcond : (decide ((rW i a).toNat < 1024) && t.loops.contains (rW i a).toNat) = true ↔
      (rW i a).toNat < 1024 ∧ (rW i a).toNat ∈ t.loops := by simp
  rw [h]
  unfold loopReq
  rw [ht]
  exact ⟨fun hlt hmem => congrArg (ran s sq) (if_pos (hcond.2 ⟨hlt, hmem⟩)),
    fun hbad => congrArg (ran s sq) (if_neg fun h => hbad (hcond.1 h))⟩

theorem nvwr_eq {s : State} {sq : Sq} {g : Guard} {i : Inst} (hi : instOf s sq = some i) (hg : guardOk i g = true)
    (sp : Space) (a b : Reg) (len : BitVec 8) :
    exec (.nvwr sq g sp a b len) s = ran s sq
      (if (rW i a).toNat < 256 ∧ inSegment s i.task sp (rW i b).toNat len.toNat = true then
        addReq i (.nvwr (rW i a).toNat (instBytes s i sp (rW i b).toNat len.toNat)) else setFlag i .addr) :=
  (kcis_of_guardOk hi hg _).trans (congrArg (ran s sq) (if_congr (by simp) rfl rfl))

/-- A dropped record raises the drop counter of its severity alone. -/
theorem rd_evrDrop_drop (s : State) (sev : Sev) (k : Nat) :
    rd (evrDrop s sev) Reg.EVR_LOSTDROP_DROP k = if k = sevCode sev then
      min (rd s Reg.EVR_LOSTDROP_DROP k + 1) (2 ^ Reg.EVR_LOSTDROP_DROP.width - 1) else rd s Reg.EVR_LOSTDROP_DROP k := by
  have hflds : (evrDrop s sev).flds = (bump s Reg.EVR_LOSTDROP_DROP (sevCode sev)).flds := by
    unfold evrDrop
    exact ite_keeps (p := State.flds) rfl rfl
  have hrd : rd (evrDrop s sev) Reg.EVR_LOSTDROP_DROP k = rd (bump s Reg.EVR_LOSTDROP_DROP (sevCode sev)) _ k :=
    congrArg (fun t => rdIn t Reg.EVR_LOSTDROP_DROP k) hflds
  rw [hrd]
  by_cases hk : k = sevCode sev
  · rw [if_pos hk, hk, bump_same]
  · rw [if_neg hk]
    exact rdIn_wrTbl_elem hk _ _

/-- Settles O19: the requests by whether their number is the task's, EVT by whether there is room for an eighth post. -/
theorem engineRequestsAndEvents : Obligations.EngineRequestsAndEvents := by
  refine ⟨fun s sq g a b i t n v hi hg ht hn hv => ⟨fun c r hc => ?_, fun hlt => ?_, fun hle => ?_⟩,
    fun s sq g sp a b len i r ea hi hg hr hea => ⟨fun hlt hseg => ?_, fun hbad => ?_⟩,
    fun s sq g a b code n sev i hi hg hsev => ⟨fun hroom => ?_, fun hfull => ?_⟩⟩
  · have hact := kcis_of_guardOk hi hg
    subst hv
    rcases hc with ⟨rfl, rfl⟩ | ⟨rfl, rfl⟩ | ⟨rfl, rfl⟩ | ⟨rfl, rfl⟩ | ⟨rfl, rfl⟩ | ⟨rfl, rfl⟩ <;>
      exact results_of_loopReq (hact _) ht hn rfl
  · subst hn
    exact (kcis_of_guardOk hi hg _).trans (congrArg (ran s sq) (if_pos hlt))
  · subst hn
    exact (kcis_of_guardOk hi hg _).trans (congrArg (ran s sq) (if_neg (Nat.not_lt.2 hle)))
  · subst hr hea
    exact (nvwr_eq hi hg sp a b len).trans (congrArg (ran s sq) (if_pos ⟨hlt, hseg⟩))
  · subst hr hea
    exact (nvwr_eq hi hg sp a b len).trans (congrArg (ran s sq) (if_neg hbad))
  · have hempty : ¬EvtFull s sq g := by
      rintro ⟨j, hj, -, hfull⟩
      obtain rfl : i = j := Option.some.inj (hi.symm.trans hj)
      omega
    rw [execEvt_of_not_full hempty, ← hsev, sevOf_sevCode, kcis_of_guardOk hi hg, postEvt, if_neg (by omega)]
  · refine ⟨_, execEvt_of_full ⟨i, hi, hg, hfull⟩ a b code n, ?_, fun k _ => ?_⟩
    · rw [instOf, evrDrop_csa, kcis_eq_kcisJump, kcisJump_of_guardOk hi hg, postEvt, if_pos hfull]
      exact instOf_setInst_same s sq _
    · rw [rd_evrDrop_drop, ← hsev, sevOf_sevCode, kcis_eq_kcisJump, kcisJump_of_guardOk hi hg]
      rfl

end Sys2Proof.Machine
end

section
/-! SUPPORT. What the store and the recorder leave of the Control Sequencer Array: its state but for the write statuses,
the LOAD and the runs of failures, and the force, sequencer and task status words (Tables 4.15 to 4.18). -/

namespace Sys2Proof.Machine

/-! ### The array apart from its reports -/

/-- The keys of the fields from `CSA_FRCCMD` to `CSA_TASKTICK`. -/
def csaKey (k : Nat) : Bool := decide (Reg.CSA_FRCCMD_CMD.key 0 ≤ k ∧ k < Reg.CSA_TASKTICK_TICK.key 8192)

theorem csaKey_iff {k : Nat} : csaKey k = true ↔ 171 * 8192 ≤ k ∧ k < 189 * 8192 := decide_eq_true_iff

/-- A status field of a sequencer or a task is one of these. -/
theorem csaKey_of_id {f : Field} {i : Nat} (hlo : Reg.CSA_FRCCMD_CMD.id ≤ f.id) (hhi : f.id ≤ Reg.CSA_TASKTICK_TICK.id)
    (hi : i < 8192) : csaKey (f.key i) = true := by
  simp only [Reg.CSA_FRCCMD_CMD, Reg.CSA_TASKTICK_TICK] at hlo hhi
  rw [csaKey_iff, Field.key]
  omega

/-- A field behind them in the table, whatever its element, is none of them. -/
theorem csaKey_of_id_gt {f : Field} (h : Reg.CSA_TASKTICK_TICK.id < f.id) (i : Nat) : csaKey (f.key i) = false := by
  have hid : 188 < f.id := h
  rw [← Bool.not_eq_true, csaKey_iff, Field.key]
  omega

/-- The array's state without the write statuses, the LOAD and the runs of failures, and its status words. -/
structure CsaView where
  core : CsaSt
  words : Field → Nat → Nat

/-- What the store and the recorder leave alone. -/
def csaView (s : State) : CsaView where
  core := { s.csa with nvst := [], loading := none, failRuns := [] }
  words f i := if csaKey (f.key i) then rd s f i else 0

theorem rd_of_csaView {s t : State} (h : csaView t = csaView s) {f : Field} {i : Nat} (hk : csaKey (f.key i) = true) :
    rd t f i = rd s f i := by
  simpa [csaView, hk] using congrFun (congrFun (congrArg CsaView.words h) f) i

theorem csaView_wr {f : Field} {i : Nat} (h : csaKey (f.key i) = false) (s : State) (v : Nat) :
    csaView (wr s f v i) = csaView s := by
  simp only [csaView, wr_csa, CsaView.mk.injEq, true_and]
  funext g j
  refine ite_congr rfl (fun hg => rd_wr_ne ?_ s v) fun _ => rfl
  rintro hk
  rw [hk, h] at hg
  cases hg

theorem csaView_setStatus {cc rsn pend : Field} (hcc : csaKey (cc.key 0) = false) (hrsn : csaKey (rsn.key 0) = false)
    (hpend : csaKey (pend.key 0) = false) (s : State) (code reason : Nat) :
    csaView (setStatus s cc rsn pend code reason) = csaView s :=
  (csaView_wr hpend _ _).trans <| (csaView_wr hrsn _ _).trans (csaView_wr hcc _ _)

theorem csaView_evrAccept (s : State) (code source : Nat) (sev : Sev) (words : List (BitVec 32)) :
    csaView (evrAccept s code source sev words) = csaView s := by
  obtain ⟨f, n, e, h, hrd, -⟩ := evrAccept_frame s code source sev words
  rw [h]
  simp only [csaView, CsaView.mk.injEq, true_and]
  funext g j
  refine ite_congr rfl (fun hg => hrd g j ?_) fun _ => rfl
  have hne (r : Field) (i : Nat) (hr : csaKey (r.key i) = false) : g.key j ≠ r.key i := by
    rintro hk
    rw [hk, hr] at hg
    cases hg
  exact ⟨hne _ _ (by decide), hne _ _ (by decide), fun i _ => hne _ _ (csaKey_of_id_gt (by decide) i)⟩

theorem csaView_event (s : State) (code : Nat) (sev : Sev) (ps : List Nat) :
    csaView (event s code sev ps) = csaView s := csaView_evrAccept _ _ _ _ _

/-! ### The store -/

theorem csaView_setQueue (s : State) (l : List WriteReq) : csaView (setQueue s l) = csaView s :=
  csaView_wr (by decide) { s with nvs := { s.nvs with queue := l } } _

theorem csaView_nvsFail (s : State) (cls code reason : Nat) : csaView (nvsFail s cls code reason) = csaView s :=
  ite_keeps rfl <| (csaView_wr (by decide) _ _).trans <| (csaView_wr (by decide) _ _).trans (csaView_wr (by decide) _ _)

theorem csaView_slotWritten (s : State) (code : Nat) (prog : Bool) : csaView (slotWritten s code prog) = csaView s := by
  unfold slotWritten
  extract_lets waits u
  have hu : csaView u = csaView s := ite_keeps (csaView_wr (by decide) _ _) rfl
  exact ite_keeps rfl (ite_keeps ((csaView_wr (by decide) _ _).trans hu) hu)

theorem csaView_calWritten (s : State) (code reason : Nat) : csaView (calWritten s code reason) = csaView s := by
  have hfin (m : MteSt) (c r k : Nat) : csaView (wr (setStatus { s with mte := m } Reg.MTE_CALSTS_CC Reg.MTE_CALSTS_RSN
      Reg.MTE_CALSTS_PEND c r) Reg.MTE_CALSTS_STAGE k) = csaView s :=
    (csaView_wr (by decide) _ _).trans <|
      csaView_setStatus (by decide) (by decide) (by decide) { s with mte := m } c r
  unfold calWritten
  refine ite_keeps ?_ rfl
  dsimp only
  split
  · exact hfin _ _ _ _
  · exact ite_keeps (hfin _ _ _ _) (hfin _ _ _ _)

theorem csaView_noShadow (s : State) : csaView (noShadow s) = csaView s :=
  (csaView_wr (by decide) _ _).trans (csaView_wr (by decide) _ _)

theorem csaView_nvsReport (s : State) (cls : Nat) (who : Requester) (code reason : Nat) :
    csaView (nvsReport s cls who code reason) = csaView s := by
  have h := csaView_nvsFail s cls code reason
  unfold nvsReport
  extract_lets u
  have hsvc : csaView (setStatus { u with ssu := { u.ssu with svc := none } } Reg.SSU_SVCSTS_CC Reg.SSU_SVCSTS_RSN
      Reg.SSU_SVCSTS_PEND code reason) = csaView s :=
    (csaView_setStatus (by decide) (by decide) (by decide) _ _ _).trans h
  cases who with
  | nvwr n => exact h
  | meter => exact (csaView_wr (by decide) _ _).trans <| (csaView_wr (by decide) _ _).trans h
  | load =>
    exact (csaView_setStatus (by decide) (by decide) (by decide) _ _ _).trans <|
      (csaView_wr (by decide) { u with csa := { u.csa with loading := none } } _).trans h
  | prepare =>
    dsimp only
    refine (csaView_setStatus (by decide) (by decide) (by decide) _ _ _).trans <| (csaView_wr (by decide) _ _).trans ?_
    exact ite_keeps h ((csaView_noShadow _).trans h)
  | slotProg | slotFacet => exact (csaView_slotWritten _ _ _).trans h
  | clearRetire | claim => exact ite_keeps hsvc h
  | cal => exact (csaView_calWritten _ _ _).trans h
  | _ => exact h

theorem csaView_nvsRequest (s : State) (r : WriteReq) : csaView (nvsRequest s r) = csaView s := by
  unfold nvsRequest
  refine ite_keeps (csaView_nvsReport _ _ _ _ _) <| ite_keeps (csaView_nvsReport _ _ _ _ _) ?_
  split
  · exact (csaView_nvsReport _ _ _ _ _).trans (csaView_setQueue _ _)
  · exact ite_keeps (csaView_nvsReport _ _ _ _ _) (csaView_setQueue _ _)

theorem csaView_nvsSave (s : State) (cls : Nat) (d : RecData) (who : Requester) (n : Nat) :
    csaView (nvsSave s cls d who n) = csaView s := csaView_nvsRequest _ _

/-! ### What a commit asks for (R66 to R68), and the runs of failures (R80) -/

theorem csaView_applyReq (s : State) (r : EngReq) : csaView (applyReq s r) = csaView s := by
  cases r with
  | lctl n h =>
    cases h with
    | bankSwap => exact csaView_wr (csaKey_of_id_gt (by decide) n) _ _
    | _ => rfl
  | mbxAck n => exact csaView_wr (csaKey_of_id_gt (by decide) n) _ _
  | nvwr n d => exact ite_keeps (csaView_nvsReport _ _ _ _ _) (csaView_nvsSave _ _ _ _ _)
  | _ => rfl

theorem csaView_applyEvt (s : State) (e : Post) : csaView (applyEvt s e) = csaView s := csaView_evrAccept _ _ _ _ _

theorem csaView_endRun (s : State) (task : Nat) : csaView (endRun s task) = csaView s := by
  unfold endRun
  split
  · rfl
  · exact csaView_event _ _ _ _

theorem csaView_addRun (s : State) (task code rsn tick : Nat) : csaView (addRun s task code rsn tick) = csaView s := by
  have hput (u : State) (l : Tbl FailRun) : csaView { u with csa := { u.csa with failRuns := l } } = csaView u := rfl
  unfold addRun
  extract_lets put
  split
  case h_1 r _ =>
    exact ite_keeps (ite_keeps ((csaView_endRun _ _).trans (hput _ _)) (hput _ _))
      ((hput _ _).trans (csaView_endRun _ _))
  case h_2 => exact hput _ _

end Sys2Proof.Machine
end

section
/-! SUPPORT. The end of a task's run (R53, R78, R79): the bytes and points a commit leaves, the task status of a run that
commits and of one that does not, and the next task of the sequencer. -/

namespace Sys2Proof.Machine

/-! ### Tables applied entry by entry -/

theorem tget_eq_none_of_above {α : Type} {t : Tbl α} {lo k : Nat} (h : Tbl.above lo t) (hk : k ≤ lo) :
    tget t k = none := by
  induction t with
  | nil => rfl
  | cons e t ih =>
    have he : lo < e.1 := h e List.mem_cons_self
    rw [tget_cons, if_neg (by omega)]
    exact ih fun x hx => h x (List.mem_cons_of_mem _ hx)

/-- The writes of a table with rising keys, applied over another, are read back where there are any. -/
theorem tget_foldl_tput {α : Type} {l : Tbl α} (hl : Tbl.rising l = true) (m : Tbl α) (k : Nat) :
    tget (l.foldl (fun m e => tput m e.1 e.2) m) k = (tget l k).or (tget m k) := by
  induction l generalizing m with
  | nil => rfl
  | cons e l ih =>
    obtain ⟨habove, hrising⟩ := (Tbl.rising_cons _ _).1 hl
    rw [List.foldl_cons, ih hrising, tget_cons]
    rcases eq_or_ne e.1 k with rfl | hne
    · simp [tget_eq_none_of_above habove le_rfl]
    · rw [if_neg hne, tget_tput_ne hne.symm]

/-- The bytes of one space in a journal with rising keys, applied to a memory: the journal's where there is one. -/
theorem byte_foldl_journal {j : Tbl Byte} (hj : Tbl.rising j = true) (c : Nat) (hc : c < 2) (m : Tbl Byte) (a : Nat) :
    Memory.byte ((j.filter fun e => decide (e.1 % 2 = c)).foldl (fun m e => Memory.setByte m (e.1 / 2) e.2) m) a =
      (tget j (2 * a + c)).getD (Memory.byte m a) := by
  induction j generalizing m with
  | nil => rfl
  | cons e j ih =>
    obtain ⟨habove, hrising⟩ := (Tbl.rising_cons _ _).1 hj
    rw [tget_cons]
    by_cases hspace : e.1 % 2 = c
    · rw [List.filter_cons_of_pos (by simpa using hspace), List.foldl_cons, ih hrising]
      rcases eq_or_ne e.1 (2 * a + c) with hkey | hne
      · have haddr : e.1 / 2 = a := by omega
        rw [tget_eq_none_of_above habove hkey.ge, if_pos hkey, haddr]
        exact Memory.byte_setByte_same _ _ _
      · rw [if_neg hne, Memory.byte_setByte_ne (by omega)]
    · rw [List.filter_cons_of_neg (by simpa using hspace), if_neg (by omega)]
      exact ih hrising m

/-- A byte as the task sees it is the journal's, else the memory's. -/
theorem instByte_eq_getD (s : State) (i : Inst) (sp : Space) (a : Nat) :
    instByte s i sp a = (tget i.journal (jkey sp a)).getD (Memory.byte (memOf s sp) a) := by
  unfold instByte
  cases tget i.journal (jkey sp a) <;> rfl

/-! ### What the end of a run may change -/

/-- The control memories with the sequencers, and the output image. -/
def workspace (s : State) : (Tbl Byte × Tbl Byte × Vector Seqr 18) × Tbl (Word × Qual) := (control s, s.csa.outNext)

theorem workspace_of_csaView {s t : State} (h : csaView t = csaView s) : workspace t = workspace s :=
  congrArg (fun v : CsaView => ((v.core.dmem, v.core.rmem, v.core.seqs), v.core.outNext)) h

theorem workspace_of_csa {s t : State} (h : t.csa = s.csa) : workspace t = workspace s := by
  simp only [workspace, control, h]

theorem workspace_reportInst (s : State) (i : Inst) (code rsn : Nat) :
    workspace (reportInst s i code rsn) = workspace s := rfl

/-- A miss noted (R79): the first by the task's number, a further one by STALE. -/
def missNoted (s : State) (n : Nat) : State :=
  if s.csa.failed.contains n then
    wr { s with csa := { s.csa with stale := s.csa.stale.filter (· ≠ n) ++ [n] } } Reg.CSA_TASKSTS_QUAL
      (qualCode .stale) n
  else { s with csa := { s.csa with failed := s.csa.failed ++ [n] } }

theorem workspace_missNoted (s : State) (n : Nat) : workspace (missNoted s n) = workspace s :=
  ite_keeps (p := workspace) rfl rfl

/-- A run that did not commit is reported and counted, and its miss noted. -/
theorem failInst_effect (s : State) (i : Inst) (code rsn : Nat) (hw : Bool) :
    (failInst s i code rsn hw).csa = (missNoted (addRun (reportInst s i code rsn) i.task code rsn i.tick) i.task).csa ∧
      (failInst s i code rsn hw).flds =
        (missNoted (addRun (reportInst s i code rsn) i.task code rsn i.tick) i.task).flds :=
  ⟨ite_keeps (p := State.csa) rfl rfl, ite_keeps (p := State.flds) rfl rfl⟩

theorem workspace_failInst (s : State) (i : Inst) (code rsn : Nat) (hw : Bool) :
    workspace (failInst s i code rsn hw) = workspace s :=
  (workspace_of_csa (failInst_effect s i code rsn hw).1).trans <| (workspace_missNoted _ _).trans <|
    (workspace_of_csaView (csaView_addRun _ _ _ _ _)).trans (workspace_reportInst _ _ _ _)

/-- The state before the requests and events of a commit: memories, output image and the commits of the tick. -/
def committed (s : State) (i : Inst) : State := noteCommit (applyOuts (applyJournal s i.journal) i.outs) i

/-- The state after the requests and events of a commit (R66 to R68). -/
def posted (s : State) (i : Inst) : State := i.evts.foldl applyEvt ((lastWrites i.reqs).foldl applyReq (committed s i))

/-- That state with the report of the run's end. -/
def reported (s : State) (i : Inst) : State :=
  endRun (reportInst (posted s i) i CC.done 0) i.task

theorem commitInst_eq (s : State) (i : Inst) :
    commitInst s i = wr (freshTask (reported s i) i.task) Reg.CSA_TASKSTS_QUAL (qualCode .good) i.task := rfl

theorem workspace_commitInst (s : State) (i : Inst) : workspace (commitInst s i) = workspace (committed s i) := by
  have hfresh (t : State) (n v : Nat) : workspace (wr (freshTask t n) Reg.CSA_TASKSTS_QUAL v n) = workspace t := rfl
  have hreqs : csaView ((lastWrites i.reqs).foldl applyReq (committed s i)) = csaView (committed s i) :=
    foldl_keeps csaView csaView_applyReq _ _
  have hposted : csaView (posted s i) = csaView (committed s i) :=
    (foldl_keeps csaView csaView_applyEvt i.evts _).trans hreqs
  calc workspace (commitInst s i) = workspace (reported s i) :=
        (congrArg workspace (commitInst_eq s i)).trans (hfresh _ _ _)
    _ = workspace (reportInst (posted s i) i CC.done 0) := workspace_of_csaView (csaView_endRun _ _)
    _ = workspace (committed s i) := (workspace_reportInst _ _ _ _).trans (workspace_of_csaView hposted)

theorem byte_dmem_committed (s : State) {i : Inst} (h : Tbl.rising i.journal = true) (a : Nat) :
    Memory.byte (committed s i).csa.dmem a = instByte s i .data a :=
  (byte_foldl_journal h 0 (by decide) _ a).trans (instByte_eq_getD s i .data a).symm

theorem byte_rmem_committed (s : State) {i : Inst} (h : Tbl.rising i.journal = true) (a : Nat) :
    Memory.byte (committed s i).csa.rmem a = instByte s i .retained a :=
  (byte_foldl_journal h 1 (by decide) _ a).trans (instByte_eq_getD s i .retained a).symm

theorem outNext_committed (s : State) {i : Inst} (h : Tbl.rising i.outs = true) (pt : Nat) :
    tget (committed s i).csa.outNext pt = (tget i.outs pt).or (tget s.csa.outNext pt) := tget_foldl_tput h _ pt

/-! ### The task status of an end (Table 4.18) -/

theorem taskKey {f : Field} {n : Nat} (hn : n < 64) (hlo : Reg.CSA_SQSTS_QUAL.id ≤ f.id)
    (hhi : f.id ≤ Reg.CSA_TASKTICK_TICK.id) : csaKey (f.key n) = true :=
  csaKey_of_id (le_trans (by decide) hlo) hhi (by omega)

/-- The report of an end: code, reason and TFLAGS of the task (Table 4.18). -/
theorem reportInst_reads (s : State) {i : Inst} (hi : i.task < 64) (code rsn : Nat) :
    rd (reportInst s i code rsn) Reg.CSA_TASKSTS_CC i.task = code % 2 ^ 8 ∧
      rd (reportInst s i code rsn) Reg.CSA_TASKSTS_RSN i.task = rsn % 2 ^ 8 ∧
      rd (reportInst s i code rsn) Reg.CSA_TASKSTS_TFLAGS i.task = i.tflags.toNat := by
  have hne {f g : Field} (h : f.id ≠ g.id) : f.key i.task ≠ g.key i.task := key_ne_of_id h (by omega) (by omega)
  unfold reportInst
  refine ⟨?_, ?_, ?_⟩
  · rw [rd_wr_ne (hne (by decide)), rd_wr_ne (hne (by decide)), rd_wr_ne (hne (by decide)), rd_wr_same]
    rfl
  · rw [rd_wr_ne (hne (by decide)), rd_wr_ne (hne (by decide)), rd_wr_same]
    rfl
  · rw [rd_wr_ne (hne (by decide)), rd_wr_same]
    exact Nat.mod_eq_of_lt i.tflags.isLt

theorem rd_reportInst_below (s : State) (i : Inst) (code rsn : Nat) {f : Field} {j : Nat}
    (hf : f.id < Reg.CSA_TASKSTS_QUAL.id) (hj : j < 8192) : rd (reportInst s i code rsn) f j = rd s f j := by
  have hne {g : Field} (hg : Reg.CSA_TASKSTS_QUAL.id ≤ g.id) : f.key j ≠ g.key i.task := by
    have hid : f.id + 1 ≤ g.id := le_trans hf hg
    simp only [Field.key]
    omega
  unfold reportInst
  rw [rd_wr_ne (hne (by decide)), rd_wr_ne (hne (by decide)), rd_wr_ne (hne (by decide)), rd_wr_ne (hne (by decide))]

/-- A run that did not commit leaves of the array's status words what its report leaves, but for its QUAL. -/
theorem rd_failInst (s : State) (i : Inst) (code rsn : Nat) (hw : Bool) {f : Field} {j : Nat}
    (hk : csaKey (f.key j) = true) (hq : f.key j ≠ Reg.CSA_TASKSTS_QUAL.key i.task) :
    rd (failInst s i code rsn hw) f j = rd (reportInst s i code rsn) f j := by
  have hmiss (t : State) : rd (missNoted t i.task) f j = rd t f j :=
    ite_keeps (p := fun t => rd t f j) (rd_wr_ne hq _ _) rfl
  calc rd (failInst s i code rsn hw) f j =
          rd (missNoted (addRun (reportInst s i code rsn) i.task code rsn i.tick) i.task) f j :=
        congrArg (fun t => rdIn t f j) (failInst_effect s i code rsn hw).2
    _ = rd (reportInst s i code rsn) f j := (hmiss _).trans (rd_of_csaView (csaView_addRun _ _ _ _ _) hk)

/-- The miss is noted, and the second in a row makes the outputs STALE (R79). -/
theorem failInst_missed (s : State) (i : Inst) (code rsn : Nat) (hw : Bool) :
    i.task ∈ (failInst s i code rsn hw).csa.failed ∧
      (i.task ∈ s.csa.failed → rd (failInst s i code rsn hw) Reg.CSA_TASKSTS_QUAL i.task = qualCode .stale) := by
  obtain ⟨hcsa, hflds⟩ := failInst_effect s i code rsn hw
  have hfailed : (addRun (reportInst s i code rsn) i.task code rsn i.tick).csa.failed = s.csa.failed :=
    congrArg (fun v => v.core.failed) (csaView_addRun (reportInst s i code rsn) i.task code rsn i.tick)
  rw [hcsa, rd_eq, hflds]
  generalize addRun (reportInst s i code rsn) i.task code rsn i.tick = t at hfailed ⊢
  rw [← hfailed]
  by_cases hmem : i.task ∈ t.csa.failed
  · rw [missNoted, if_pos (by simpa using hmem)]
    exact ⟨hmem, fun _ => (rd_wr_same _ _ _ _).trans (by decide)⟩
  · rw [missNoted, if_neg (by simpa using hmem)]
    exact ⟨by simp, fun h => absurd h hmem⟩

theorem commitInst_reads (s : State) {i : Inst} (hi : i.task < 64) :
    rd (commitInst s i) Reg.CSA_TASKSTS_CC i.task = CC.done ∧ rd (commitInst s i) Reg.CSA_TASKSTS_RSN i.task = 0 ∧
      rd (commitInst s i) Reg.CSA_TASKSTS_TFLAGS i.task = i.tflags.toNat ∧
      rd (commitInst s i) Reg.CSA_TASKSTS_QUAL i.task = qualCode .good := by
  have hrd {f : Field} (hlo : Reg.CSA_TASKSTS_QUAL.id < f.id) (hhi : f.id ≤ Reg.CSA_TASKTICK_TICK.id) :
      rd (commitInst s i) f i.task = rd (reportInst (posted s i) i CC.done 0) f i.task :=
    (rd_wr_ne (key_ne_of_id hlo.ne' (by omega) (by omega)) _ _).trans <|
      rd_of_csaView (csaView_endRun _ _) (taskKey hi (le_trans (by decide) hlo.le) hhi)
  obtain ⟨hcc, hrsn, hflags⟩ := reportInst_reads (posted s i) hi CC.done 0
  refine ⟨(hrd (by decide) (by decide)).trans hcc, (hrd (by decide) (by decide)).trans hrsn,
    (hrd (by decide) (by decide)).trans hflags, ?_⟩
  rw [commitInst_eq, rd_wr_same]
  decide

/-- The end of a run that did not commit: code, reason and TFLAGS. -/
theorem failInst_reads (s : State) {i : Inst} (hi : i.task < 64) (code rsn : Nat) (hw : Bool) :
    rd (failInst s i code rsn hw) Reg.CSA_TASKSTS_CC i.task = code % 2 ^ 8 ∧
      rd (failInst s i code rsn hw) Reg.CSA_TASKSTS_RSN i.task = rsn % 2 ^ 8 ∧
      rd (failInst s i code rsn hw) Reg.CSA_TASKSTS_TFLAGS i.task = i.tflags.toNat := by
  have hrd {f : Field} (hlo : Reg.CSA_TASKSTS_QUAL.id < f.id) (hhi : f.id ≤ Reg.CSA_TASKTICK_TICK.id) :
      rd (failInst s i code rsn hw) f i.task = rd (reportInst s i code rsn) f i.task :=
    rd_failInst s i code rsn hw (taskKey hi (le_trans (by decide) hlo.le) hhi)
      (key_ne_of_id hlo.ne' (by omega) (by omega))
  obtain ⟨hcc, hrsn, hflags⟩ := reportInst_reads s hi code rsn
  exact ⟨(hrd (by decide) (by decide)).trans hcc, (hrd (by decide) (by decide)).trans hrsn,
    (hrd (by decide) (by decide)).trans hflags⟩

/-- A failed run leaves the status of a sequencer alone. -/
theorem rd_failInst_below (s : State) (i : Inst) (code rsn : Nat) (hw : Bool) {f : Field} {j : Nat}
    (hlo : Reg.CSA_SQSTS_QUAL.id ≤ f.id) (hhi : f.id < Reg.CSA_TASKSTS_QUAL.id) (hj : j < 64) :
    rd (failInst s i code rsn hw) f j = rd s f j := by
  refine (rd_failInst s i code rsn hw (taskKey hj hlo (le_trans hhi.le (by decide))) ?_).trans
    (rd_reportInst_below s i code rsn hhi (by omega))
  have hid : f.id + 1 ≤ Reg.CSA_TASKSTS_QUAL.id := hhi
  simp only [Field.key]
  omega

/-! ### The next task of a sequencer (R74) -/

theorem startNext_idle {s : State} {sq : Sq} (h : (s.csa.seqs[sq]).queue = []) : instOf (startNext s sq) sq = none := by
  rw [Fin.getElem_fin] at h
  simp [startNext, instOf, h]

theorem startNext_takes {s : State} {sq : Sq} {n : Nat} {l : List Nat} (h : (s.csa.seqs[sq]).queue = n :: l) :
    (instOf (startNext s sq) sq).map (·.task) = some n ∧ ((startNext s sq).csa.seqs[sq]).queue = l := by
  rw [Fin.getElem_fin] at h
  simp [startNext, instOf, h, newInst]

/-! ### END -/

/-- The end that END gives a run. -/
def instEnded (s : State) (i : Inst) : State :=
  if hasFlag i .addr then failInst s i CC.failRefused Rsn.addrFault false else commitInst s i

theorem exec_endInst {s : State} {sq : Sq} {i : Inst} (h : instOf s sq = some i) :
    exec (.endInst sq) s = .next (startNext (instEnded s i) sq) := by
  show execEndInst sq s = _
  simp only [execEndInst, h, instEnded]

theorem seqs_instEnded (s : State) (i : Inst) : (instEnded s i).csa.seqs = s.csa.seqs := by
  have hfail := congrArg (·.1.2.2) (workspace_failInst s i CC.failRefused Rsn.addrFault false)
  have hcommit := congrArg (·.1.2.2) (workspace_commitInst s i)
  exact ite_keeps (p := fun t => t.csa.seqs) hfail hcommit

theorem instEnded_tflags (s : State) {i : Inst} (hi : i.task < 64) :
    rd (instEnded s i) Reg.CSA_TASKSTS_TFLAGS i.task = i.tflags.toNat :=
  ite_keeps (p := fun t => rd t Reg.CSA_TASKSTS_TFLAGS i.task) (failInst_reads s hi _ _ _).2.2
    (commitInst_reads s hi).2.2.1

/-- Without ADDR the run commits: memories, output image and task status. -/
theorem instEnded_commits (s : State) {i : Inst} (hi : TaskInv i) (hok : hasFlag i .addr = false) :
    (∀ a, Memory.byte (instEnded s i).csa.dmem a = instByte s i .data a) ∧
      (∀ a, Memory.byte (instEnded s i).csa.rmem a = instByte s i .retained a) ∧
      (∀ pt, tget (instEnded s i).csa.outNext pt = (tget i.outs pt).or (tget s.csa.outNext pt)) ∧
      rd (instEnded s i) Reg.CSA_TASKSTS_CC i.task = CC.done ∧ rd (instEnded s i) Reg.CSA_TASKSTS_RSN i.task = 0 ∧
      rd (instEnded s i) Reg.CSA_TASKSTS_QUAL i.task = qualCode .good := by
  have hwork := workspace_commitInst s i
  obtain ⟨hcc, hrsn, -, hqual⟩ := commitInst_reads s hi.task
  rw [show instEnded s i = commitInst s i from if_neg (by simp [hok])]
  refine ⟨fun a => ?_, fun a => ?_, fun pt => ?_, hcc, hrsn, hqual⟩
  · exact (congrArg (fun w => Memory.byte w.1.1 a) hwork).trans (byte_dmem_committed s hi.journal a)
  · exact (congrArg (fun w => Memory.byte w.1.2.1 a) hwork).trans (byte_rmem_committed s hi.journal a)
  · exact (congrArg (fun w => tget w.2 pt) hwork).trans (outNext_committed s hi.outs pt)

/-- With ADDR it does not: memories and output image stay, and the miss is noted. -/
theorem instEnded_refused (s : State) {i : Inst} (hi : TaskInv i) (haddr : hasFlag i .addr = true) :
    (instEnded s i).csa.dmem = s.csa.dmem ∧ (instEnded s i).csa.rmem = s.csa.rmem ∧
      (instEnded s i).csa.outNext = s.csa.outNext ∧
      rd (instEnded s i) Reg.CSA_TASKSTS_CC i.task = CC.failRefused ∧
      rd (instEnded s i) Reg.CSA_TASKSTS_RSN i.task = Rsn.addrFault ∧ i.task ∈ (instEnded s i).csa.failed ∧
      (i.task ∈ s.csa.failed → rd (instEnded s i) Reg.CSA_TASKSTS_QUAL i.task = qualCode .stale) := by
  have hwork := workspace_failInst s i CC.failRefused Rsn.addrFault false
  obtain ⟨hcc, hrsn, -⟩ := failInst_reads s hi.task CC.failRefused Rsn.addrFault false
  obtain ⟨hmissed, hstale⟩ := failInst_missed s i CC.failRefused Rsn.addrFault false
  rw [show instEnded s i = failInst s i CC.failRefused Rsn.addrFault false from if_pos haddr]
  exact ⟨congrArg (·.1.1) hwork, congrArg (·.1.2.1) hwork, congrArg (·.2) hwork, hcc, hrsn, hmissed, hstale⟩

end Sys2Proof.Machine
end

section
/-! SUPPORT. A fetch error of a sequencer (R61, R101, R391, R393): the upset it is, and how it ends the task's run. -/

namespace Sys2Proof.Machine

/-! ### The upset of a sequencer (R391) -/

theorem windowClose_of_runs {s : State} {r : Resource} (h : WindowRuns s r) : windowClose s r = s := by
  unfold windowClose
  split
  · rfl
  case h_2 w hw =>
    have hres : w.res = r := by simpa using List.find?_some hw
    exact if_neg (by simp [h w (List.mem_of_find?_eq_some hw) hres])

/-- A write of another field of a sequencer's status word leaves its MSTATE. -/
theorem rd_mstate_wr (s : State) (sq : Sq) (m : MState) {f : Field} (hf : Reg.CSA_SQSTS_MSTATE.id ≠ f.id) (v : Nat) :
    rd (wr (wr s Reg.CSA_SQSTS_MSTATE (mstateCode m) sq) f v sq) Reg.CSA_SQSTS_MSTATE sq = mstateCode m := by
  rw [rd_wr_ne (key_ne_of_id hf (by omega) (by omega)), rd_wr_same]
  cases m <;> rfl

/-- A sequencer IN_SERVICE becomes SUSPECT with one fault counted. -/
theorem upset_of_inService {s : State} {sq : Sq} (h : WindowRuns s (sqRes sq))
    (hm : rd s Reg.CSA_SQSTS_MSTATE sq = mstateCode .inService) (work : State → State) :
    (upset s (sqRes sq) work).2 = false ∧
      rd (upset s (sqRes sq) work).1 Reg.CSA_SQSTS_MSTATE sq = mstateCode .suspect ∧
      rd (upset s (sqRes sq) work).1 Reg.CSA_SQSTS_FCOUNT sq = 1 := by
  have hstate : resState s (sqRes sq) = .inService := congrArg mstateOf hm
  unfold upset
  rw [windowClose_of_runs h]
  simp only [hstate]
  exact ⟨trivial, rd_mstate_wr s sq .suspect (f := Reg.CSA_SQSTS_FCOUNT) (by decide) 1,
    rd_wr_same (wr s Reg.CSA_SQSTS_MSTATE (mstateCode .suspect) sq) Reg.CSA_SQSTS_FCOUNT sq 1⟩

/-- A resource that is not retired leaves the array's state alone. -/
theorem retire_alive {s : State} {r : Resource} {bist : Bool} {work : State → State}
    (h : (retire s r bist work).2 = false) : (retire s r bist work).1.csa = s.csa := by
  unfold retire at h ⊢
  split at h
  case isTrue hknown => rw [if_pos hknown]
  split at h
  case isTrue hnew hfull =>
    rw [if_neg hnew, if_pos hfull]
    exact (event_csa _ _ _ _).trans (setResState_csa _ _ _)
  case isFalse => cases h

/-- A resource marked RETIRED and put on the list, before its owner's work (R393). -/
def markedRetired (s : State) (r : Resource) : State :=
  let t := dropWindow (markRetired s r) r
  { t with ssu := { t.ssu with retired := t.ssu.retired ++ [r] } }

/-- A sequencer that is retired: what its owner does for want of it, on a state in which it is marked RETIRED, is all
that the array sees. -/
theorem retire_dead {s : State} {sq : Sq} {bist : Bool} {work : State → State}
    (h : (retire s (sqRes sq) bist work).2 = true) :
    ∃ u, u.csa = s.csa ∧ rd u Reg.CSA_SQSTS_MSTATE sq = mstateCode .retired ∧
      csaView (retire s (sqRes sq) bist work).1 = csaView (work u) := by
  unfold retire at h ⊢
  split at h
  case isTrue => cases h
  split at h
  case isTrue => cases h
  case isFalse hnew hroom =>
    rw [if_neg hnew, if_neg hroom]
    have hfull (t : State) : csaView (if (retireList t).length = 128 then wr t Reg.SSU_SVCSTS_RETFULL 1 else t) =
        csaView t := ite_keeps (csaView_wr (by decide) t 1) rfl
    refine ⟨markedRetired s (sqRes sq), markRetired_csa s (sqRes sq), ?_, (csaView_event _ _ _ _).trans <|
      (csaView_nvsSave _ _ _ _ _).trans (hfull _)⟩
    exact rd_mstate_wr s sq .retired (f := Reg.CSA_SQSTS_QUAL) (by decide) (qualCode .retired)

theorem upset_alive {s : State} {r : Resource} {work : State → State} (h : (upset s r work).2 = false) :
    (upset s r work).1.csa = s.csa := by
  have hmark (m : MState) (n : Nat) : (setFcount (setResState (windowClose s r) r m) r n).csa = s.csa :=
    (setFcount_csa _ _ _).trans <| (setResState_csa _ _ _).trans (windowClose_csa _ _)
  unfold upset at h ⊢
  dsimp only at h ⊢
  split at h
  case h_1 | h_2 => exact hmark _ _
  case h_3 => exact (retire_alive h).trans <| (setFcount_csa _ _ _).trans (windowClose_csa _ _)
  case h_4 => exact windowClose_csa _ _

theorem upset_dead {s : State} {sq : Sq} {work : State → State} (h : (upset s (sqRes sq) work).2 = true) :
    ∃ u, u.csa = s.csa ∧ rd u Reg.CSA_SQSTS_MSTATE sq = mstateCode .retired ∧
      csaView (upset s (sqRes sq) work).1 = csaView (work u) := by
  unfold upset at h ⊢
  dsimp only at h ⊢
  split at h
  case h_3 =>
    obtain ⟨u, hcsa, hm, hview⟩ := retire_dead h
    exact ⟨u, hcsa.trans <| (setFcount_csa _ _ _).trans (windowClose_csa _ _), hm, hview⟩
  all_goals cases h

/-- The second fault within the window retires a sequencer, unless the list is full. -/
theorem upset_of_suspect {s : State} {sq : Sq} (h : WindowRuns s (sqRes sq))
    (hm : rd s Reg.CSA_SQSTS_MSTATE sq = mstateCode .suspect) (hnew : sqRes sq ∉ s.ssu.retired)
    (hroom : (retireList s).length < 128) (work : State → State) : (upset s (sqRes sq) work).2 = true := by
  have hstate : resState s (sqRes sq) = .suspect := congrArg mstateOf hm
  unfold upset
  rw [windowClose_of_runs h]
  simp only [hstate]
  unfold retire
  rw [if_neg (by simpa [setFcount, statusOf, sqRes] using hnew),
    if_neg (by simpa [setFcount, statusOf, sqRes, retireList] using hroom)]

/-! ### The work of a sequencer that is retired (R101, R104) -/

theorem spareCheck_csa (s : State) : (spareCheck s).csa = s.csa := by
  unfold spareCheck
  exact ite_keeps (p := State.csa) (holdCause_csa _ _) rfl

theorem spareCheck_flds (s : State) : (spareCheck s).flds = s.flds := by
  unfold spareCheck
  exact ite_keeps (p := State.flds) (holdCause_flds _ _) rfl

/-- A sequencer given up: it runs nothing and holds nothing waiting. -/
def idled (s : State) (sq : Sq) : State := { s with csa := { s.csa with seqs := s.csa.seqs.set sq ⟨none, []⟩ } }

theorem workspace_failAll (s : State) (sq : Sq) (code rsn : Nat) :
    workspace (failAll s sq code rsn) = workspace (idled s sq) :=
  foldl_keeps workspace (fun s i => workspace_failInst s i code rsn true) _ _

/-- With nothing waiting the one run ends. -/
theorem failAll_single {s : State} {sq : Sq} {i : Inst} (hi : instOf s sq = some i)
    (hq : (s.csa.seqs[sq]).queue = []) (code rsn : Nat) :
    failAll s sq code rsn = failInst (idled s sq) i code rsn true := by
  rw [instOf, Fin.getElem_fin] at hi
  rw [Fin.getElem_fin] at hq
  simp [failAll, hi, hq, idled]

/-- What retiring a sequencer does for its tasks. -/
def abandon (sq : Sq) (s : State) : State := spareCheck (failAll s sq CC.failResourceRetired 0)

theorem workspace_abandon (sq : Sq) (s : State) : workspace (abandon sq s) = workspace (idled s sq) :=
  (workspace_of_csa (spareCheck_csa _)).trans (workspace_failAll _ _ _ _)

theorem rd_abandon {s : State} {sq : Sq} {i : Inst} (hi : instOf s sq = some i) (hq : (s.csa.seqs[sq]).queue = [])
    (f : Field) (j : Nat) : rd (abandon sq s) f j = rd (failInst (idled s sq) i CC.failResourceRetired 0 true) f j := by
  rw [← failAll_single hi hq]
  exact congrArg (fun t => rdIn t f j) (spareCheck_flds _)

/-! ### FETCH_ECC_ERROR -/

/-- The sequencer and its task after a fetch error, before the repair is recorded. -/
def fetchFailed (s : State) (sq : Sq) (i : Inst) : State :=
  if (upset s (sqRes sq) (abandon sq)).2 then (upset s (sqRes sq) (abandon sq)).1
  else startNext (failInst (upset s (sqRes sq) (abandon sq)).1 i CC.failTransientExhausted Rsn.fetchEcc true) sq

theorem exec_fetchEccError {s : State} {sq : Sq} {i : Inst} (h : instOf s sq = some i) :
    exec (.fetchEccError sq) s = .next (event (fetchFailed s sq i) Ev.pstoreRepair .warning []) := by
  show execFetchEccError sq s = _
  simp only [execFetchEccError, h]
  rfl

/-- Whether it retires the sequencer or not, the memories and the output image stay and the sequencer stands idle. -/
theorem fetchFailed_workspace {s : State} {sq : Sq} {i : Inst} (hq : (s.csa.seqs[sq]).queue = []) :
    workspace (fetchFailed s sq i) = workspace (idled s sq) := by
  unfold fetchFailed
  split
  case isTrue hdead =>
    obtain ⟨u, hcsa, -, hview⟩ := upset_dead hdead
    have hidled : (idled u sq).csa = (idled s sq).csa := by simp only [idled, hcsa]
    exact (workspace_of_csaView hview).trans <| (workspace_abandon sq u).trans (workspace_of_csa hidled)
  case isFalse halive =>
    have hcsa := upset_alive (by simpa using halive)
    have hfail := (workspace_failInst (upset s (sqRes sq) (abandon sq)).1 i CC.failTransientExhausted Rsn.fetchEcc
      true).trans (workspace_of_csa hcsa)
    generalize failInst (upset s (sqRes sq) (abandon sq)).1 i CC.failTransientExhausted Rsn.fetchEcc true = v at hfail ⊢
    simp only [workspace, control, Prod.mk.injEq] at hfail
    obtain ⟨⟨hd, hr, hs⟩, ho⟩ := hfail
    rw [Fin.getElem_fin] at hq
    simp [workspace, control, startNext, idled, hd, hr, hs, ho, hq]

theorem instOf_of_workspace {s t : State} {sq : Sq} (h : workspace t = workspace (idled s sq)) :
    instOf t sq = none := by
  have hseqs : t.csa.seqs = s.csa.seqs.set sq ⟨none, []⟩ := congrArg (·.1.2.2) h
  simp [instOf, hseqs]

/-- The first fault of a sequencer in service: it is SUSPECT, and the run ends FETCH_ECC. -/
theorem fetchFailed_inService {s : State} {sq : Sq} {i : Inst} (hi : i.task < 64) (hruns : WindowRuns s (sqRes sq))
    (hm : rd s Reg.CSA_SQSTS_MSTATE sq = mstateCode .inService) :
    rd (fetchFailed s sq i) Reg.CSA_SQSTS_MSTATE sq = mstateCode .suspect ∧
      rd (fetchFailed s sq i) Reg.CSA_SQSTS_FCOUNT sq = 1 ∧
      rd (fetchFailed s sq i) Reg.CSA_TASKSTS_CC i.task = CC.failTransientExhausted ∧
      rd (fetchFailed s sq i) Reg.CSA_TASKSTS_RSN i.task = Rsn.fetchEcc := by
  obtain ⟨halive, hmstate, hcount⟩ := upset_of_inService hruns hm (abandon sq)
  have hrd (f : Field) (j : Nat) : rd (fetchFailed s sq i) f j =
      rd (failInst (upset s (sqRes sq) (abandon sq)).1 i CC.failTransientExhausted Rsn.fetchEcc true) f j := by
    unfold fetchFailed
    rw [if_neg (by simp [halive])]
    rfl
  obtain ⟨hcc, hrsn, -⟩ := failInst_reads (upset s (sqRes sq) (abandon sq)).1 hi CC.failTransientExhausted
    Rsn.fetchEcc true
  refine ⟨?_, ?_, (hrd _ _).trans hcc, (hrd _ _).trans hrsn⟩
  · rw [hrd, rd_failInst_below _ _ _ _ _ (by decide) (by decide) (by omega), hmstate]
  · rw [hrd, rd_failInst_below _ _ _ _ _ (by decide) (by decide) (by omega), hcount]

/-- The fault that retires a sequencer ends its task's run FAIL_RESOURCE_RETIRED. -/
theorem fetchFailed_suspect {s : State} {sq : Sq} {i : Inst} (hi : instOf s sq = some i) (htask : i.task < 64)
    (hq : (s.csa.seqs[sq]).queue = []) (hdead : (upset s (sqRes sq) (abandon sq)).2 = true) :
    rd (fetchFailed s sq i) Reg.CSA_SQSTS_MSTATE sq = mstateCode .retired ∧
      rd (fetchFailed s sq i) Reg.CSA_TASKSTS_CC i.task = CC.failResourceRetired := by
  obtain ⟨u, hcsa, hm, hview⟩ := upset_dead hdead
  have hrd {f : Field} {j : Nat} (hk : csaKey (f.key j) = true) : rd (fetchFailed s sq i) f j =
      rd (failInst (idled u sq) i CC.failResourceRetired 0 true) f j := by
    rw [fetchFailed, if_pos hdead, rd_of_csaView hview hk]
    exact rd_abandon (by rw [instOf, hcsa]; exact hi) (by rw [hcsa]; exact hq) f j
  obtain ⟨hcc, -⟩ := failInst_reads (idled u sq) htask CC.failResourceRetired 0 true
  refine ⟨?_, (hrd (taskKey htask (by decide) (by decide))).trans hcc⟩
  rw [hrd (taskKey (by omega) (by decide) (by decide)),
    rd_failInst_below _ _ _ _ _ (by decide) (by decide) (by omega)]
  exact hm

/-! ### The end of a run -/

/-- Settles O20: END by the flag ADDR, and a fetch error by the management state of its sequencer. -/
theorem endOfInstance : Obligations.EndOfInstance := by
  refine ⟨fun s sq i hinv hi => ?_, fun s sq i hinv hi hq hruns => ?_⟩
  · have htask := taskInv_of_memInv hinv hi
    refine ⟨_, exec_endInst hi, instEnded_commits s htask, instEnded_refused s htask, instEnded_tflags s htask.task, ?_⟩
    rintro q rfl
    rw [← seqs_instEnded s i]
    exact ⟨startNext_idle, fun n l => startNext_takes⟩
  · have htask := (taskInv_of_memInv hinv hi).task
    have hwork := (workspace_of_csaView (csaView_event (fetchFailed s sq i) Ev.pstoreRepair .warning [])).trans
      (fetchFailed_workspace hq)
    have hrd {f : Field} {n : Nat} (hn : n < 64) (hlo : Reg.CSA_SQSTS_QUAL.id ≤ f.id)
        (hhi : f.id ≤ Reg.CSA_TASKTICK_TICK.id) :
        rd (event (fetchFailed s sq i) Ev.pstoreRepair .warning []) f n = rd (fetchFailed s sq i) f n :=
      rd_of_csaView (csaView_event _ _ _ _) (taskKey hn hlo hhi)
    refine ⟨_, exec_fetchEccError hi, congrArg (·.1.1) hwork, congrArg (·.1.2.1) hwork, congrArg (·.2) hwork,
      instOf_of_workspace hwork, fun hm => ?_, fun hm hnew hroom => ?_⟩
    · rw [hrd (by omega) (by decide) (by decide), hrd (by omega) (by decide) (by decide),
        hrd htask (by decide) (by decide), hrd htask (by decide) (by decide)]
      exact fetchFailed_inService htask hruns hm
    · rw [hrd (by omega) (by decide) (by decide), hrd htask (by decide) (by decide)]
      exact fetchFailed_suspect hi htask hq (upset_of_suspect hruns hm hnew hroom _)

end Sys2Proof.Machine
end

section
/-! SUPPORT. Commands that are inputs to the tick (R301), the command register of the program (R433, R434) and the force
commands (R84, R85), for a register on which nothing pends. -/

namespace Sys2Proof.Machine

/-! ### Inputs to the tick -/

/-- A command submitted is listed with its stamp, and leaves the registers and the array alone. -/
theorem submitHost_effect (s : State) (reg : Field) (b : InBody) :
    (submitHost s reg b).rdu.own = listPut s.rdu.own (tickOf s s.tb.now) ⟨s.tb.now, ⟨64, reg.addr⟩, ownSide s, b⟩ ∧
      (submitHost s reg b).flds = s.flds ∧ (submitHost s reg b).csa = s.csa :=
  ⟨ite_keeps (p := fun t => t.rdu.own) rfl rfl, ite_keeps (p := State.flds) rfl rfl, ite_keeps (p := State.csa) rfl rfl⟩

theorem tickOf_wr {f : Field} (h : Reg.TBC_TICKCFG_TICKLEN.key 0 ≠ f.key 0) (s : State) (v t : Nat) :
    tickOf (wr s f v) t = tickOf s t := by
  simp only [tickOf, tickNs, rd_wr_ne h]

/-- A command that pends as an input: PEND is 1, and the input is listed. -/
theorem submitHost_pends (s : State) (reg : Field) {pend : Field}
    (hw : 1 % 2 ^ pend.width = 1) (hlen : Reg.TBC_TICKCFG_TICKLEN.key 0 ≠ pend.key 0) (b : InBody) :
    rd (submitHost (wr s pend 1) reg b) pend = 1 ∧ (submitHost (wr s pend 1) reg b).csa = s.csa ∧
      (submitHost (wr s pend 1) reg b).rdu.own =
        listPut s.rdu.own (tickOf s s.tb.now) ⟨s.tb.now, ⟨64, reg.addr⟩, ownSide s, b⟩ := by
  obtain ⟨hown, hflds, hcsa⟩ := submitHost_effect (wr s pend 1) reg b
  refine ⟨?_, hcsa, ?_⟩
  · rw [rd_eq, hflds]
    exact (rd_wr_same s pend 0 1).trans hw
  · rw [hown, tickOf_wr hlen]
    rfl

/-! ### The program's command register -/

/-- A command that passes the checks of R434 acts on the register with its FORCE_RELEASE. -/
theorem olcCmd_acts {s : State} {fr busyOk modeOk verified : Bool}
    (hfree : rdB s Reg.CSA_OLC_PEND = false ∨ busyOk = true) (hmode : modeOk = true) (hstate : verified = true → rd s Reg.CSA_OLC_STATE = 2) (f : State → State) :
    olcCmd s fr busyOk modeOk verified f = f (wrB s Reg.CSA_OLC_FORCE_RELEASE fr) := by
  have hpend : rdB (wrB s Reg.CSA_OLC_FORCE_RELEASE fr) Reg.CSA_OLC_PEND = rdB s Reg.CSA_OLC_PEND :=
    congrArg (fun n => decide (n = 1)) (rd_wr_ne (by decide) s _)
  have hst : rd (wrB s Reg.CSA_OLC_FORCE_RELEASE fr) Reg.CSA_OLC_STATE = rd s Reg.CSA_OLC_STATE :=
    rd_wr_ne (by decide) s _
  have hbusy : ¬(rdB s Reg.CSA_OLC_PEND && !busyOk) = true := by
    rcases hfree with h | h <;> simp [h]
  have hverified : ¬(verified && decide (rd s Reg.CSA_OLC_STATE ≠ 2)) = true := by
    cases verified with
    | false => simp
    | true => simp [hstate rfl]
  unfold olcCmd
  dsimp only
  rw [hpend, hst, if_neg hbusy, if_neg (by simp [hmode]), if_neg hverified]

theorem olcEnd_reads (s : State) (code rsn : Nat) :
    rd (olcEnd s code rsn) Reg.CSA_OLC_CC = code % 256 ∧ rd (olcEnd s code rsn) Reg.CSA_OLC_RSN = rsn % 256 ∧
      rd (olcEnd s code rsn) Reg.CSA_OLC_PEND = 0 :=
  setStatus_reads s code rsn (by decide) (by decide) (by decide)

theorem halfOf_putHalf (s : State) (h : Nat) (p : Option Program) : halfOf (putHalf s h p) h = p := by
  unfold halfOf putHalf
  split <;> rfl

theorem putHalf_flds (s : State) (h : Nat) (p : Option Program) : (putHalf s h p).flds = s.flds :=
  ite_keeps (p := State.flds) rfl rfl

theorem putHalf_nvs (s : State) (h : Nat) (p : Option Program) : (putHalf s h p).nvs = s.nvs :=
  ite_keeps (p := State.nvs) rfl rfl

theorem putHalf_csa (s : State) (h : Nat) (p : Option Program) :
    (putHalf s h p).csa.dmem = s.csa.dmem ∧ (putHalf s h p).csa.seqs = s.csa.seqs ∧
      (putHalf s h p).csa.loading = s.csa.loading :=
  ⟨ite_keeps (p := fun t => t.csa.dmem) rfl rfl, ite_keeps (p := fun t => t.csa.seqs) rfl rfl,
    ite_keeps (p := fun t => t.csa.loading) rfl rfl⟩

/-! ### LOAD (R87, R89) -/

/-- The fetch begins: the inactive half is emptied. -/
theorem olcLoad_effect (s : State) :
    rd (olcLoad s) Reg.CSA_OLC_PEND = 1 ∧ rd (olcLoad s) Reg.CSA_OLC_STATE = 1 ∧
      rd (olcLoad s) Reg.CSA_OLC_FORCE_RELEASE = rd s Reg.CSA_OLC_FORCE_RELEASE ∧
      (olcLoad s).csa.loading = some [] ∧ loaded (olcLoad s) = none ∧ (olcLoad s).csa.dmem = s.csa.dmem ∧
      (olcLoad s).csa.seqs = s.csa.seqs := by
  have hflds : (olcLoad s).flds = (olcState (wr s Reg.CSA_OLC_PEND 1) 1).flds := putHalf_flds _ _ _
  have hrd (f : Field) : rd (olcLoad s) f = rd (olcState (wr s Reg.CSA_OLC_PEND 1) 1) f :=
    congrArg (fun t => rdIn t f) hflds
  have hhalf : otherHalf (olcLoad s) = otherHalf s := by
    unfold otherHalf
    rw [hrd, olcState, rd_wr_ne (by decide), rd_wr_ne (by decide)]
  obtain ⟨hd, hs, -⟩ := putHalf_csa (olcState (wr s Reg.CSA_OLC_PEND 1) 1) (otherHalf s) none
  refine ⟨?_, ?_, ?_, rfl, ?_, hd, hs⟩
  · rw [hrd, olcState, rd_wr_ne (by decide), rd_wr_same]
    rfl
  · rw [hrd, olcState, rd_wr_same]
    rfl
  · rw [hrd, olcState, rd_wr_ne (by decide), rd_wr_ne (by decide)]
  · rw [loaded, hhalf]
    exact halfOf_putHalf (olcState (wr s Reg.CSA_OLC_PEND 1) 1) (otherHalf s) none

theorem loadFail_effect (s : State) (code rsn : Nat) :
    (loadFail s code rsn).csa.loading = none ∧ rd (loadFail s code rsn) Reg.CSA_OLC_STATE = 0 ∧
      rd (loadFail s code rsn) Reg.CSA_OLC_PEND = 0 ∧ rd (loadFail s code rsn) Reg.CSA_OLC_CC = code % 256 ∧
      rd (loadFail s code rsn) Reg.CSA_OLC_RSN = rsn % 256 := by
  obtain ⟨hcc, hrsn, hpend⟩ := olcEnd_reads (olcState { s with csa := { s.csa with loading := none } } 0) code rsn
  refine ⟨rfl, ?_, hpend, hcc, hrsn⟩
  unfold loadFail olcEnd setStatus
  rw [rd_wr_ne (by decide), rd_wr_ne (by decide), rd_wr_ne (by decide)]
  exact rd_wr_same _ _ _ _

/-- A request that fits its place is queued alone by a store that holds none. -/
theorem nvsRequest_of_idle {s : State} {r : WriteReq} (hr : recalling s = false)
    (hfit : (writeRange s r.what).fits = true) (hq : s.nvs.queue = []) : nvsRequest s r = setQueue s [r] := by
  simp [nvsRequest, hr, hfit, hq]

/-- The state in which a fetched image that passed its checks stands in the inactive half. -/
def imageHeld (s : State) (c : List Byte) : State :=
  putHalf { s with csa := { s.csa with loading := some c } } (otherHalf s) (some (parseProgram c))

theorem loadImage_accepted {s : State} {c : List Byte} (hr : recalling s = false) (hq : s.nvs.queue = [])
    (hverify : verifyImage s.ssu.otp false c = none)
    (hcheck : checkProgram (parseProgram c) s.fct.active (ownMember s).val (tickNs s)
      (changeBase s (parseProgram c)) = none)
    (hfit : (writeRange s (.image false (!liveProgSlot s) c)).fits = true) :
    loadImage s c = setQueue (imageHeld s c) [⟨5, .image false (!liveProgSlot s) c, .load⟩] := by
  have hflds : (imageHeld s c).flds = s.flds := putHalf_flds _ _ _
  have hnvs : (imageHeld s c).nvs = s.nvs := putHalf_nvs _ _ _
  have hslot : liveProgSlot (imageHeld s c) = liveProgSlot s := by
    simp only [liveProgSlot, nextSlots, recRead, recGet, hnvs]
  have hrecall : recalling (imageHeld s c) = recalling s := congrArg (fun f =>
    decide (modeOf (rdIn f Reg.SSU_MODE_MODE) = .recall) && decide (rdIn f Reg.NVS_STATUS_RECALL = 1)) hflds
  have hload : loadImage s c =
      nvsRequest (imageHeld s c) ⟨5, .image false (!liveProgSlot (imageHeld s c)) c, .load⟩ := by
    simp only [loadImage, hverify, hcheck]
    rfl
  rw [hload, hslot]
  exact nvsRequest_of_idle (hrecall.trans hr) hfit ((congrArg NvsSt.queue hnvs).trans hq)

theorem imageHeld_effect (s : State) (c : List Byte) (l : List WriteReq) :
    (setQueue (imageHeld s c) l).csa.loading = some c ∧ loaded (setQueue (imageHeld s c) l) = some (parseProgram c) ∧
      (setQueue (imageHeld s c) l).nvs.queue = l := by
  have hflds : (imageHeld s c).flds = s.flds := putHalf_flds _ _ _
  have hhalf : otherHalf (setQueue (imageHeld s c) l) = otherHalf s := by
    unfold otherHalf
    rw [rd_setQueue (by decide), rd_eq, hflds]
    rfl
  obtain ⟨-, -, hloading⟩ := putHalf_csa { s with csa := { s.csa with loading := some c } } (otherHalf s)
    (some (parseProgram c))
  refine ⟨hloading, ?_, rfl⟩
  rw [loaded, hhalf]
  exact halfOf_putHalf { s with csa := { s.csa with loading := some c } } (otherHalf s) (some (parseProgram c))

theorem exec_loadFetchComplete {s : State} (h : s.csa.loading = some []) :
    exec (.loadFetchComplete .hostAbort) s =
        .next (loadFail (hostAborted s) CC.failPeerUnreachable Rsn.hostAbort) ∧
      ∀ c, exec (.loadFetchComplete (.bytes c)) s = .next (loadImage s c) :=
  ⟨congrArg Host.Outcome.next (if_pos h), fun _ => congrArg Host.Outcome.next (if_pos h)⟩

/-- An image that cannot be verified ends the LOAD FAIL_AUTH. -/
theorem loadImage_unverified {s : State} {c : List Byte} {r : Nat} (h : verifyImage s.ssu.otp false c = some r) :
    loadImage s c = loadFail s CC.failAuth r := by
  simp only [loadImage, h]

/-- One that fails a check ends it FAIL_REFUSED, with the refusal noted. -/
theorem loadImage_refused {s : State} {c : List Byte} {r : Refuse} (hverify : verifyImage s.ssu.otp false c = none)
    (hcheck : checkProgram (parseProgram c) s.fct.active (ownMember s).val (tickNs s)
      (changeBase s (parseProgram c)) = some r) :
    loadImage s c = loadFail (olcRef s r) CC.failRefused r.rsn := by
  simp only [loadImage, hverify, hcheck]

/-! ### ACTIVATE (R90) -/

theorem loaded_of_csa {s t : State} (h : t.csa = s.csa) (hhalf : rd t Reg.CSA_OLC_ACTHALF = rd s Reg.CSA_OLC_ACTHALF) :
    loaded t = loaded s := by
  unfold loaded halfOf otherHalf
  rw [h, hhalf]

/-- With the facet's checks passed and no force in place an activation ends in one of the two outcomes of a switch. -/
theorem activate_ends {s : State} {p : Program} (hload : loaded s = some p)
    (hcheck : ((facetAt s (s.tb.tick + 1)).bind fun f => firstOf [checkWiring f p, checkMeterPoints f p]) = none)
    (hforces : s.csa.forces = []) (fr : Bool) :
    ∃ u sat rel, activate s fr = olcEnd u (switchCode sat rel) 0 := by
  have hclash : (if fr then none else forceTypeClash s p) = none := by
    simp [forceTypeClash, typeClash, hforces]
  unfold activate
  simp only [hload, hcheck, hclash]
  exact ⟨_, _, _, rfl⟩

theorem switchCode_cases (sat rel : Nat) : switchCode sat rel = CC.done ∨ switchCode sat rel = CC.doneDegraded := by
  unfold switchCode
  split
  · exact .inl rfl
  · exact .inr rfl

/-! ### Force commands (R84, R85) -/

theorem forceCmd_halt {s : State} (hp : rdB s Reg.CSA_FRCSTS_PEND = false) (hm : modeIs s = .halt) (b : InBody) :
    forceCmd s b = frcEnd (applyForce s b).1 (applyForce s b).2.1 (applyForce s b).2.2 := by
  simp [forceCmd, hp, hm]

theorem forceCmd_input {s : State} (hp : rdB s Reg.CSA_FRCSTS_PEND = false)
    (hm : modeIs s = .active ∨ modeIs s = .standby ∨ modeIs s = .safehold) (b : InBody) :
    forceCmd s b = submitHost (wr s Reg.CSA_FRCSTS_PEND 1) Reg.CSA_FRCCMD_CMD b := by
  rcases hm with hm | hm | hm <;> simp [forceCmd, hp, hm]

/-- The end of a force command that is refused. -/
theorem frcEnd_noVid (s : State) : rd (frcEnd s CC.failRefused Rsn.noVid) Reg.CSA_FRCSTS_CC = CC.failRefused ∧
    rd (frcEnd s CC.failRefused Rsn.noVid) Reg.CSA_FRCSTS_RSN = Rsn.noVid ∧
    rd (frcEnd s CC.failRefused Rsn.noVid) Reg.CSA_FRCSTS_PEND = 0 :=
  setStatus_reads s CC.failRefused Rsn.noVid (by decide) (by decide) (by decide)

/-- A force command that ends DONE leaves the table it made. -/
theorem frcEnd_done (s : State) (l : List Force) :
    rd (frcEnd (saveForces (putForces s l)) CC.done 0) Reg.CSA_FRCSTS_CC = CC.done ∧
      rd (frcEnd (saveForces (putForces s l)) CC.done 0) Reg.CSA_FRCSTS_PEND = 0 ∧
      (frcEnd (saveForces (putForces s l)) CC.done 0).csa.forces = l := by
  obtain ⟨hcc, -, hpend⟩ := setStatus_reads (cc := Reg.CSA_FRCSTS_CC) (rsn := Reg.CSA_FRCSTS_RSN)
    (pend := Reg.CSA_FRCSTS_PEND) (i := 0) (saveForces (putForces s l)) CC.done 0 (by decide) (by decide) (by decide)
  exact ⟨hcc, hpend, congrArg (fun v => v.core.forces) (csaView_nvsSave (putForces s l) _ _ _ _)⟩

theorem applyForce_noVid {s : State} {vid : Nat} (h : pointOfVid s vid = none) (v : Word) :
    applyForce s (.forceSet vid v) = (s, CC.failRefused, Rsn.noVid) ∧
      applyForce s (.forceRelease vid) = (s, CC.failRefused, Rsn.noVid) := by
  simp [applyForce, h]

/-- A new force joins the table. -/
theorem applyForce_new {s : State} {vid : Nat} {d : PointDef} (hd : pointOfVid s vid = some d)
    (hnew : s.csa.forces.find? (·.vid = vid) = none) (hroom : s.csa.forces.length < 512) (v : Word) :
    applyForce s (.forceSet vid v) = (saveForces (putForces s (s.csa.forces ++
      [⟨vid, d.typ, d.num, v, ((tget s.csa.img d.num).map (·.value)).getD 0⟩])), CC.done, 0) := by
  simp only [applyForce, hd, hnew, if_neg (Nat.not_le.2 hroom)]

/-- One in place takes the value. -/
theorem applyForce_again {s : State} {vid : Nat} {d : PointDef} {f : Force} (hd : pointOfVid s vid = some d)
    (hf : s.csa.forces.find? (·.vid = vid) = some f) (v : Word) :
    applyForce s (.forceSet vid v) = (saveForces (putForces s (s.csa.forces.map fun g =>
      if g.vid = vid then { f with value := v } else g)), CC.done, 0) := by
  simp only [applyForce, hd, hf]

theorem applyForce_release {s : State} {vid : Nat} {d : PointDef} (hd : pointOfVid s vid = some d) :
    applyForce s (.forceRelease vid) =
      (saveForces (putForces s (s.csa.forces.filter (·.vid ≠ vid))), CC.done, 0) := by
  simp [applyForce, hd]

/-! ### The commands -/

section

variable {s : State} {fr : Bool}

theorem load_effect (hp : rdB s Reg.CSA_OLC_PEND = false)
    (hm : modeIs s = .halt ∨ modeIs s = .active ∨ modeIs s = .standby) :
    Completes (exec (.load fr) s) fun t =>
      rd t Reg.CSA_OLC_PEND = 1 ∧ rd t Reg.CSA_OLC_STATE = 1 ∧ rdB t Reg.CSA_OLC_FORCE_RELEASE = fr ∧
      t.csa.loading = some [] ∧ loaded t = none ∧ t.csa.dmem = s.csa.dmem ∧ t.csa.seqs = s.csa.seqs := by
  have hmode : loadMode s = true := by
    rcases hm with h | h | h <;> simp [loadMode, h]
  obtain ⟨hpend, hstate, hfr, hloading, hloaded, hd, hs⟩ := olcLoad_effect (wrB s Reg.CSA_OLC_FORCE_RELEASE fr)
  refine ⟨_, congrArg Host.Outcome.next (olcCmd_acts (.inl hp) hmode (by simp) olcLoad), hpend, hstate, ?_, hloading,
    hloaded, hd, hs⟩
  rw [rdB, hfr, wrB, rd_wr_same]
  cases fr <;> rfl

/-- ARM and ABORT, accepted, pend as the input they carry. -/
theorem olcInput_effect {c : Instr} {b : InBody}
    (h : exec c s = .next (submitHost (wr (wrB s Reg.CSA_OLC_FORCE_RELEASE fr) Reg.CSA_OLC_PEND 1) Reg.CSA_OLC_CMD b)) :
    Completes (exec c s) fun t => rd t Reg.CSA_OLC_PEND = 1 ∧ t.rdu.own =
      listPut s.rdu.own (tickOf s s.tb.now) ⟨s.tb.now, ⟨64, Reg.CSA_OLC_CMD.addr⟩, ownSide s, b⟩ := by
  obtain ⟨hpend, -, hown⟩ := submitHost_pends (wrB s Reg.CSA_OLC_FORCE_RELEASE fr) Reg.CSA_OLC_CMD
    (pend := Reg.CSA_OLC_PEND) (by decide) (by decide) b
  have htick : tickOf (wrB s Reg.CSA_OLC_FORCE_RELEASE fr) s.tb.now = tickOf s s.tb.now := tickOf_wr (by decide) s _ _
  exact ⟨_, h, hpend, hown.trans (by rw [wrB_tb, htick]; rfl)⟩

theorem exec_arm (hp : rdB s Reg.CSA_OLC_PEND = false) (hm : modeIs s = .active ∨ modeIs s = .standby)
    (hst : rd s Reg.CSA_OLC_STATE = 2) :
    exec (.arm fr) s = .next (submitHost (wr (wrB s Reg.CSA_OLC_FORCE_RELEASE fr) Reg.CSA_OLC_PEND 1) Reg.CSA_OLC_CMD
      (.arm (rd64 s Reg.CSA_OLCTICK_LO_KS Reg.CSA_OLCTICK_HI_KS) fr)) := by
  have hks : rd64 (wrB s Reg.CSA_OLC_FORCE_RELEASE fr) Reg.CSA_OLCTICK_LO_KS Reg.CSA_OLCTICK_HI_KS =
      rd64 s Reg.CSA_OLCTICK_LO_KS Reg.CSA_OLCTICK_HI_KS := by
    simp only [rd64, wrB, rd_wr_ne (show Reg.CSA_OLCTICK_LO_KS.key 0 ≠ Reg.CSA_OLC_FORCE_RELEASE.key 0 by decide),
      rd_wr_ne (show Reg.CSA_OLCTICK_HI_KS.key 0 ≠ Reg.CSA_OLC_FORCE_RELEASE.key 0 by decide)]
  rw [← hks]
  exact congrArg Host.Outcome.next (olcCmd_acts (.inl hp) (by simpa using hm) (fun _ => hst) _)

theorem exec_olcAbort (h : rdB s Reg.CSA_OLC_PEND = false ∨ armPending s = true) :
    exec (.olcAbort fr) s = .next (submitHost (wr (wrB s Reg.CSA_OLC_FORCE_RELEASE fr) Reg.CSA_OLC_PEND 1)
      Reg.CSA_OLC_CMD (.olcAbort s.tb.tick)) :=
  congrArg Host.Outcome.next (olcCmd_acts h rfl (by simp) _)

theorem activate_effect {p : Program} (hp : rdB s Reg.CSA_OLC_PEND = false) (hm : modeIs s = .halt)
    (hst : rd s Reg.CSA_OLC_STATE = 2) (hload : loaded s = some p)
    (hcheck : ((facetAt s (s.tb.tick + 1)).bind fun f => firstOf [checkWiring f p, checkMeterPoints f p]) = none)
    (hforces : s.csa.forces = []) :
    Completes (exec (.activate fr) s) fun t =>
      (rd t Reg.CSA_OLC_CC = CC.done ∨ rd t Reg.CSA_OLC_CC = CC.doneDegraded) ∧ rd t Reg.CSA_OLC_RSN = 0 ∧
      rd t Reg.CSA_OLC_PEND = 0 := by
  have hhalf : rd (wrB s Reg.CSA_OLC_FORCE_RELEASE fr) Reg.CSA_OLC_ACTHALF = rd s Reg.CSA_OLC_ACTHALF :=
    rd_wr_ne (by decide) s _
  have hload' : loaded (wrB s Reg.CSA_OLC_FORCE_RELEASE fr) = some p :=
    (loaded_of_csa (by rfl) hhalf).trans hload
  obtain ⟨u, sat, rel, hact⟩ := activate_ends hload' hcheck hforces fr
  obtain ⟨hcc, hrsn, hpend⟩ := olcEnd_reads u (switchCode sat rel) 0
  refine ⟨_, congrArg Host.Outcome.next ((olcCmd_acts (.inl hp) (by simp [hm]) (fun _ => hst) _).trans hact), ?_, hrsn,
    hpend⟩
  rw [hcc]
  rcases switchCode_cases sat rel with h | h <;> rw [h]
  · exact .inl rfl
  · exact .inr rfl

/-- A force command that takes effect at once in HALT. -/
theorem force_done {c : Instr} {b : InBody} (hp : rdB s Reg.CSA_FRCSTS_PEND = false) (hm : modeIs s = .halt)
    (hc : exec c s = .next (forceCmd s b)) {l : List Force}
    (hb : applyForce s b = (saveForces (putForces s l), CC.done, 0)) :
    Completes (exec c s) fun t =>
      rd t Reg.CSA_FRCSTS_CC = CC.done ∧ rd t Reg.CSA_FRCSTS_PEND = 0 ∧ t.csa.forces = l := by
  refine ⟨_, hc, ?_⟩
  rw [forceCmd_halt hp hm, hb]
  exact frcEnd_done s l

/-- One that names no VID of the running program is refused there. -/
theorem force_noVid {c : Instr} {b : InBody} (hp : rdB s Reg.CSA_FRCSTS_PEND = false) (hm : modeIs s = .halt)
    (hc : exec c s = .next (forceCmd s b)) (hb : applyForce s b = (s, CC.failRefused, Rsn.noVid)) :
    Completes (exec c s) fun t => rd t Reg.CSA_FRCSTS_CC = CC.failRefused ∧ rd t Reg.CSA_FRCSTS_RSN = Rsn.noVid ∧
      rd t Reg.CSA_FRCSTS_PEND = 0 ∧ t.csa.forces = s.csa.forces := by
  obtain ⟨hcc, hrsn, hpend⟩ := frcEnd_noVid s
  refine ⟨_, hc, ?_⟩
  rw [forceCmd_halt hp hm, hb]
  exact ⟨hcc, hrsn, hpend, rfl⟩

/-- In the modes with a tick it pends as an input. -/
theorem force_pends {c : Instr} {b : InBody} (hp : rdB s Reg.CSA_FRCSTS_PEND = false)
    (hm : modeIs s = .active ∨ modeIs s = .standby ∨ modeIs s = .safehold) (hc : exec c s = .next (forceCmd s b)) :
    Completes (exec c s) fun t => rd t Reg.CSA_FRCSTS_PEND = 1 ∧ t.csa.forces = s.csa.forces ∧
      t.rdu.own = listPut s.rdu.own (tickOf s s.tb.now) ⟨s.tb.now, ⟨64, Reg.CSA_FRCCMD_CMD.addr⟩, ownSide s, b⟩ := by
  obtain ⟨hpend, hcsa, hown⟩ := submitHost_pends s Reg.CSA_FRCCMD_CMD (pend := Reg.CSA_FRCSTS_PEND) (by decide)
    (by decide) b
  refine ⟨_, hc, ?_⟩
  rw [forceCmd_input hp hm]
  exact ⟨hpend, congrArg CsaSt.forces hcsa, hown⟩

end

/-- Settles O32: the program commands by what each does past the checks of R434, a fetched image by its checks, and the
force commands by their mode. -/
theorem programAndForceCommands : Obligations.ProgramAndForceCommands := by
  refine ⟨fun s fr => ⟨load_effect, fun hl => ⟨?_, fun c hr hq => ?_⟩, ?_, fun p hp hm hst hload hcheck hforces =>
    activate_effect hp hm hst hload hcheck hforces⟩, fun s vid v hp hvid hv => ⟨fun hm => ?_, ?_⟩⟩
  · exact ⟨_, (exec_loadFetchComplete hl).1, loadFail_effect _ _ _⟩
  · refine ⟨_, (exec_loadFetchComplete hl).2 c, ?_⟩
    split
    case h_1 r hverify =>
      rw [loadImage_unverified hverify]
      exact loadFail_effect _ _ _
    case h_2 hverify =>
      split
      case h_1 r hcheck =>
        rw [loadImage_refused hverify hcheck]
        exact loadFail_effect _ _ _
      case h_2 hcheck =>
        intro hfit
        rw [loadImage_accepted hr hq hverify hcheck hfit]
        exact imageHeld_effect _ _ _
  · rintro k ks rfl rfl
    exact ⟨fun hp hm hst => olcInput_effect (exec_arm hp hm hst), fun h => olcInput_effect (exec_olcAbort h)⟩
  · subst hvid hv
    refine ⟨fun hnone c hc => ?_, fun d hd => ⟨fun hnew hroom => ?_, fun f hf => ?_, ?_⟩, ?_⟩
    · have ⟨hset, hrelease⟩ := applyForce_noVid hnone
        (BitVec.ofNat 64 (rd64 s Reg.CSA_FRCVAL_LO_VAL Reg.CSA_FRCVAL_HI_VAL))
      rcases hc with rfl | rfl
      · exact force_noVid hp hm rfl hset
      · exact force_noVid hp hm rfl hrelease
    · exact force_done hp hm rfl (applyForce_new hd hnew hroom _)
    · exact force_done hp hm rfl (applyForce_again hd hf _)
    · exact force_done hp hm rfl (applyForce_release hd)
    · exact force_done hp hm rfl (b := .forceReleaseAll) rfl
  · subst hvid hv
    rintro hm c b (⟨rfl, rfl⟩ | ⟨rfl, rfl⟩ | ⟨rfl, rfl⟩) <;> exact force_pends hp hm rfl

end Sys2Proof.Machine
end

section
/-! SUPPORT. Register fields set together to one value, and what the store leaves alone: any view of the state in which
neither its own data and fields nor those of its requesters show (R343). -/

namespace Sys2Proof.Machine

/-! ### Fields set together -/

/-- A fold keeps what its steps on the listed elements keep. -/
theorem foldl_keeps_mem {α β : Type} (p : State → β) {f : State → α → State} {l : List α}
    (h : ∀ x ∈ l, ∀ s, p (f s x) = p s) (s : State) : p (l.foldl f s) = p s :=
  List.foldlRecOn (motive := fun t => p t = p s) l f rfl fun t ht x hx => (h x hx t).trans ht

theorem rd_wr_of_id_ne {f g : Field} {i j : Nat} (h : g.id ≠ f.id) (hi : i < 8192) (hj : j < 8192) (s : State)
    (v : Nat) : rd (wr s f v i) g j = rd s g j := rd_wr_ne (key_ne_of_id h hi hj) s v

/-- Every element of a field keeps its value when a field before it in the table is written. -/
theorem rd_wr_of_id_lt {f g : Field} (h : f.id < g.id) (j : Nat) (s : State) (v : Nat) :
    rd (wr s f v) g j = rd s g j := rd_wr_ne (by simp only [Field.key]; omega) s v

theorem rdB_wrB_same {f : Field} (hw : f.width = 1) (s : State) (b : Bool) (i : Nat) : rdB (wrB s f b i) f i = b := by
  cases b <;> simp [rdB, wrB, hw]

/-- A list of one-bit fields whose reset value is 0. -/
def FlagBits (l : List (Field × Nat)) : Prop := ∀ e ∈ l, e.1.width = 1 ∧ e.1.resetAt e.2 = 0

/-- A bit keeps the value that another bit, or the same one, is set to. -/
theorem rd_wr_keeps {v : Nat} (hv : v < 2) {d e : Field × Nat} (hd : d.1.width = 1 ∧ d.1.resetAt d.2 = 0)
    (he : e.1.resetAt e.2 = 0) {s : State} (h : rd s e.1 e.2 = v) : rd (wr s d.1 v d.2) e.1 e.2 = v := by
  by_cases hk : e.1.key e.2 = d.1.key d.2
  · have hsame : rd (wr s d.1 v d.2) e.1 e.2 = rd (wr s d.1 v d.2) d.1 d.2 := by
      simp only [rd, hk, he, hd.2]
    rw [hsame, rd_wr_same, hd.1]
    omega
  · rw [rd_wr_ne hk, h]

/-- Bits set together to one value, in whatever order and however often, hold it. -/
theorem rd_setFields_flagBits {v : Nat} (hv : v < 2) {l : List (Field × Nat)} (hl : FlagBits l) {e : Field × Nat}
    (he : e ∈ l) (s : State) : rd (setFields (fun _ => some v) s l) e.1 e.2 = v := by
  obtain ⟨hwidth, hreset⟩ := hl e he
  obtain ⟨l₁, l₂, rfl⟩ := List.append_of_mem he
  refine (congrArg (fun t => rd t e.1 e.2) List.foldl_append).trans ?_
  refine List.foldlRecOn (motive := fun t => rd t e.1 e.2 = v) l₂ _ ?_ fun t ht d hd => ?_
  · exact (rd_wr_same _ _ _ _).trans (by rw [hwidth]; omega)
  · exact rd_wr_keeps hv (hl d (by simp [hd])) hreset ht

/-! ### The store -/

/-- The fields that the store and the reports of its writes set. -/
def storeFields : List Field :=
  [Reg.NVS_WQ_CLASS, Reg.NVS_WQ_CC, Reg.NVS_WQ_RSN, Reg.NVS_WQ_DEPTH, Reg.MTE_SAVESTS_CC, Reg.MTE_SAVESTS_RSN,
    Reg.MTE_CALSTS_CC, Reg.MTE_CALSTS_RSN, Reg.MTE_CALSTS_PEND, Reg.MTE_CALSTS_STAGE, Reg.CSA_OLC_STATE,
    Reg.CSA_OLC_CC, Reg.CSA_OLC_RSN, Reg.CSA_OLC_PEND, Reg.CSA_OLC_SLOTPEND, Reg.FCT_STATUS_SHSTATE,
    Reg.FCT_STATUS_SLOTPEND, Reg.FCT_SHDIG_LO_SHDIG, Reg.FCT_SHDIG_HI_SHDIG, Reg.FCT_SWSTS_CC, Reg.FCT_SWSTS_RSN,
    Reg.FCT_SWSTS_PEND, Reg.SSU_SVCSTS_CC, Reg.SSU_SVCSTS_RSN, Reg.SSU_SVCSTS_PEND]

/-- A view of the state in which what the store and its requesters keep of a write does not show. -/
structure StoreBlind {β : Type} (p : State → β) : Prop where
  field : ∀ f ∈ storeFields, ∀ s v, p (wr s f v) = p s
  nvs : ∀ s x, p { s with nvs := x } = p s
  csa : ∀ s x, p { s with csa := x } = p s
  mte : ∀ s x, p { s with mte := x } = p s
  shadow : ∀ s x y, p { s with fct := { s.fct with preparing := x, shadow := y } } = p s
  service : ∀ s x, p { s with ssu := { s.ssu with svc := x } } = p s

namespace StoreBlind

variable {β : Type} {p : State → β} (h : StoreBlind p)
include h

theorem setStatus {cc rsn pend : Field} (hmem : cc ∈ storeFields ∧ rsn ∈ storeFields ∧ pend ∈ storeFields) (s : State)
    (code reason : Nat) : p (setStatus s cc rsn pend code reason) = p s := by
  obtain ⟨hcc, hrsn, hpend⟩ := hmem
  exact (h.field _ hpend _ _).trans <| (h.field _ hrsn _ _).trans (h.field _ hcc _ _)

theorem setQueue (s : State) (l : List WriteReq) : p (setQueue s l) = p s :=
  (h.field _ (by decide) _ _).trans (h.nvs s _)

theorem nvsFail (s : State) (cls code reason : Nat) : p (nvsFail s cls code reason) = p s :=
  ite_keeps rfl <| (h.field _ (by decide) _ _).trans <| (h.field _ (by decide) _ _).trans (h.field _ (by decide) _ _)

theorem slotWritten (s : State) (code : Nat) (prog : Bool) : p (slotWritten s code prog) = p s := by
  unfold Machine.slotWritten
  extract_lets waits u
  have hu : p u = p s := ite_keeps (h.field _ (by decide) _ _) rfl
  exact ite_keeps rfl (ite_keeps ((h.field _ (by decide) _ _).trans hu) hu)

theorem calWritten (s : State) (code reason : Nat) : p (calWritten s code reason) = p s := by
  have hfin (m : MteSt) (c r k : Nat) : p (wr (Machine.setStatus { s with mte := m } Reg.MTE_CALSTS_CC
      Reg.MTE_CALSTS_RSN Reg.MTE_CALSTS_PEND c r) Reg.MTE_CALSTS_STAGE k) = p s :=
    (h.field _ (by decide) _ _).trans <| (h.setStatus (by decide) _ _ _).trans (h.mte s m)
  unfold Machine.calWritten
  refine ite_keeps ?_ rfl
  dsimp only
  split
  · exact hfin _ _ _ _
  · exact ite_keeps (hfin _ _ _ _) (hfin _ _ _ _)

/-- The report of a PREPARE's write. -/
theorem prepareReport (s : State) (x : Option (List Byte)) (y : Option Facet) (c : Prop) [Decidable c]
    (state code reason : Nat) :
    p (Machine.setStatus (wr (if c then { s with fct := { s.fct with preparing := x, shadow := y } } else
      noShadow { s with fct := { s.fct with preparing := x, shadow := y } }) Reg.FCT_STATUS_SHSTATE state)
      Reg.FCT_SWSTS_CC Reg.FCT_SWSTS_RSN Reg.FCT_SWSTS_PEND code reason) = p s := by
  refine (h.setStatus (by decide) _ _ _).trans <| (h.field _ (by decide) _ _).trans ?_
  exact ite_keeps (h.shadow s x y) <|
    (h.field _ (by decide) _ _).trans <| (h.field _ (by decide) _ _).trans (h.shadow s x y)

theorem nvsReport (s : State) (cls : Nat) (who : Requester) (code reason : Nat) :
    p (nvsReport s cls who code reason) = p s := by
  refine Eq.trans ?_ (h.nvsFail s cls code reason)
  unfold Machine.nvsReport
  generalize Machine.nvsFail s cls code reason = u
  have hsvc : p (Machine.setStatus { u with ssu := { u.ssu with svc := none } } Reg.SSU_SVCSTS_CC Reg.SSU_SVCSTS_RSN
      Reg.SSU_SVCSTS_PEND code reason) = p u := (h.setStatus (by decide) _ _ _).trans (h.service u none)
  cases who with
  | nvwr n => exact h.csa u _
  | meter => exact (h.field _ (by decide) _ _).trans (h.field _ (by decide) _ _)
  | load => exact (h.setStatus (by decide) _ _ _).trans <| (h.field _ (by decide) _ _).trans (h.csa u _)
  | prepare => exact h.prepareReport u _ _ _ _ _ _
  | slotProg | slotFacet => exact h.slotWritten _ _ _
  | clearRetire | claim => exact ite_keeps hsvc rfl
  | cal => exact h.calWritten _ _ _
  | _ => rfl

theorem nvsRequest (s : State) (r : WriteReq) : p (nvsRequest s r) = p s := by
  unfold Machine.nvsRequest
  refine ite_keeps (h.nvsReport _ _ _ _ _) <| ite_keeps (h.nvsReport _ _ _ _ _) ?_
  split
  · exact (h.nvsReport _ _ _ _ _).trans (h.setQueue _ _)
  · exact ite_keeps (h.nvsReport _ _ _ _ _) (h.setQueue _ _)

theorem nvsSave (s : State) (cls : Nat) (d : RecData) (who : Requester) (n : Nat) :
    p (nvsSave s cls d who n) = p s := h.nvsRequest _ _

end StoreBlind

end Sys2Proof.Machine
end

section
/-! SUPPORT. The completion of a run of the Loop Engine (R114, R118): a result in the state record, the status word and
the output point of its loop. -/

namespace Sys2Proof.Machine

/-! ### What the quality of an output turns on (R114) -/

/-- The mode with the one before it, the lanes, and whether a copy is executed in step. -/
structure Outlook where
  mode : Nat
  prior : Nat
  lanes : List Nat
  copy : Option CopyRun

/-- The outlook of a state. -/
def outlook (s : State) : Outlook where
  mode := rd s Reg.SSU_MODE_MODE
  prior := rd s Reg.SSU_MODE_PRIOR
  lanes := (List.range 8).map fun n => rd s Reg.LPE_LANESTS_MSTATE n
  copy := s.rdu.copy

theorem modeIs_of_outlook {s t : State} (h : outlook t = outlook s) : modeIs t = modeIs s :=
  congrArg modeOf (congrArg Outlook.mode h)

theorem runsControl_of_outlook {s t : State} (h : outlook t = outlook s) : runsControl t = runsControl s := by
  have hprior : priorMode t = priorMode s := congrArg modeOf (congrArg Outlook.prior h)
  have hcopy : t.rdu.copy = s.rdu.copy := congrArg Outlook.copy h
  simp only [runsControl, modeIs_of_outlook h, hprior, hcopy]

theorem lanesUp_of_outlook {s t : State} (h : outlook t = outlook s) : lanesUp t = lanesUp s := by
  have hlanes (u : State) : lanesUp u = ((outlook u).lanes.filter (· ≠ mstateCode .retired)).length := by
    rw [lanesUp, outlook, List.filter_map, List.length_map]
    rfl
  rw [hlanes, hlanes, h]

/-- With the same outlook and run a loop's output has the same quality. -/
theorem loopQual_of_outlook {s t : State} (h : outlook t = outlook s) {n : Nat}
    (hrun : tget t.lpe.runs n = tget s.lpe.runs n) (w : Wire) : loopQual t n w = loopQual s n w := by
  simp only [loopQual, hrun, lanesUp_of_outlook h, modeIs_of_outlook h, runsControl_of_outlook h]

theorem outlook_of_flds {s t : State} (h : t.flds = s.flds) (hcopy : t.rdu.copy = s.rdu.copy) :
    outlook t = outlook s := by
  simp only [outlook, hcopy, rd_eq, h]

/-- A write of another field leaves the outlook. -/
theorem outlook_wr {f : Field} {i : Nat} (hf : Reg.LPE_LANESTS_MSTATE.id ≠ f.id) (hlo : Reg.SSU_MODE_PRIOR.id < f.id)
    (hi : i < 8192) (s : State) (v : Nat) : outlook (wr s f v i) = outlook s := by
  have hprior : Reg.SSU_MODE_PRIOR.id ≠ f.id := hlo.ne
  have hmode : Reg.SSU_MODE_MODE.id ≠ f.id := (lt_trans (by decide) hlo).ne
  have hlanes : ((List.range 8).map fun n => rd (wr s f v i) Reg.LPE_LANESTS_MSTATE n) =
      (List.range 8).map fun n => rd s Reg.LPE_LANESTS_MSTATE n :=
    List.map_congr_left fun n hn => rd_wr_of_id_ne hf hi ((List.mem_range.1 hn).trans (by decide)) s v
  simp only [outlook, wr_rdu, hlanes, rd_wr_of_id_ne hprior hi (by decide : (0 : Nat) < 8192),
    rd_wr_of_id_ne hmode hi (by decide : (0 : Nat) < 8192)]

/-- In a mode that samples every loop the quality of an output is that of its latest sample. -/
theorem loopQual_sampled {s : State} {n : Nat} {r : LoopRun} (hrun : tget s.lpe.runs n = some r)
    (hlanes : lanesUp s ≠ 0) (hmode : modeIs s ≠ .save) (w : Wire) : loopQual s n w = r.outQ := by
  simp [loopQual, hrun, hlanes, hmode]

/-! ### A result in the state record and the status word -/

/-- A result in the state record of its loop. -/
def withRun (s : State) (r : LoopRes) : State :=
  { s with lpe := { s.lpe with runs := tput s.lpe.runs r.loop r.run } }

/-- The current flags of a result (R111). -/
def showCurrent (s : State) (r : LoopRes) : State :=
  wrB (wrB (wrB (wrB s Reg.LPE_LSTS_SATHI (r.cur.getLsbD 0) r.loop) Reg.LPE_LSTS_SATLO (r.cur.getLsbD 1) r.loop)
    Reg.LPE_LSTS_RLIM (r.cur.getLsbD 2) r.loop) Reg.LPE_LSTS_IHOLD (r.cur.getLsbD 3) r.loop

/-- The sticky flags that a sample may set, lowest bit of a result first. -/
def sampleSticky : List Field :=
  [Reg.LPE_LSTS_S_ASAT, Reg.LPE_LSTS_S_SATHI, Reg.LPE_LSTS_S_SATLO, Reg.LPE_LSTS_S_RLIM, Reg.LPE_LSTS_S_PVFAIL,
    Reg.LPE_LSTS_S_SPFAIL, Reg.LPE_LSTS_S_FFFAIL, Reg.LPE_LSTS_S_DCGAIN]

/-- The sticky flags of a result. -/
def showSticky (s : State) (r : LoopRes) : State :=
  sampleSticky.zipIdx.foldl (fun s e => if r.sticky.getLsbD e.2 then wr s e.1 1 r.loop else s) s

/-- The quality of a wired loop's output. -/
def showQual (s : State) (r : LoopRes) : State :=
  match (wires s).find? (·.1 = r.loop) with | some (_, w) => showLoop s r.loop w | none => s

/-- The status word before its flags: quality, management state and mode. -/
def showMode (s : State) (r : LoopRes) : State :=
  wr (wr (showQual (withRun s r) r) Reg.LPE_LSTS_MSTATE 0 r.loop) Reg.LPE_LSTS_MODE (lmodeCode r.mode) r.loop

theorem putResult_eq (s : State) (r : LoopRes) :
    putResult s r = showSticky (showCurrent (showMode s r) r) r := rfl

theorem showQual_of_wired {s : State} {r : LoopRes} {w : Wire}
    (hw : (wires s).find? (·.1 = r.loop) = some (r.loop, w)) : showQual s r = showLoop s r.loop w := by
  simp only [showQual, hw]

/-- The sticky flags leave every other field and every other part of the state. -/
theorem showSticky_keeps {β : Type} {p : State → β} {r : LoopRes}
    (h : ∀ f ∈ sampleSticky, ∀ u, p (wr u f 1 r.loop) = p u) (u : State) : p (showSticky u r) = p u :=
  foldl_keeps_mem p (fun e he _ => ite_keeps (h e.1 (List.fst_mem_of_mem_zipIdx he) _) rfl) u

/-- What does not show in the status word a result leaves as the state record has it. -/
theorem putResult_keeps {β : Type} {p : State → β} {r : LoopRes}
    (h : ∀ f, Reg.LPE_LANESTS_FCOUNT.id < f.id → ∀ u v, p (wr u f v r.loop) = p u) (s : State) :
    p (putResult s r) = p (withRun s r) := by
  have hsticky : ∀ f ∈ sampleSticky, Reg.LPE_LANESTS_FCOUNT.id < f.id := by decide
  have hqual (u : State) : p (showQual u r) = p u := by
    unfold showQual
    split
    · exact h _ (by decide) _ _
    · rfl
  rw [putResult_eq, showSticky_keeps fun f hf u => h f (hsticky f hf) u 1]
  iterate 6 refine (h _ (by decide) _ _).trans ?_
  exact hqual _

theorem qualCode_mod (q : Qual) : qualCode q % 2 ^ Reg.LPE_LSTS_QUAL.width = qualCode q := by cases q <;> rfl

theorem lmodeCode_mod (m : LMode) : lmodeCode m % 2 ^ Reg.LPE_LSTS_MODE.width = lmodeCode m := by cases m <;> rfl

section

variable {s : State} {r : LoopRes} {w : Wire}

/-- A field of the status word that is no sticky flag is read past them. -/
theorem rd_showSticky (hn : r.loop < 1024) {f : Field} (hf : ∀ g ∈ sampleSticky, f.id ≠ g.id) (u : State) :
    rd (showSticky u r) f r.loop = rd u f r.loop :=
  showSticky_keeps (p := fun t => rd t f r.loop) (fun g hg t => rd_wr_of_id_ne (hf g hg) (by omega) (by omega) t 1) u

theorem rd_showCurrent (hn : r.loop < 1024) {f : Field} (hf : f.id < Reg.LPE_LSTS_SATHI.id) (u : State) :
    rd (showCurrent u r) f r.loop = rd u f r.loop := by
  have hpast {g : Field} (hg : Reg.LPE_LSTS_SATHI.id ≤ g.id) (t : State) (b : Bool) :
      rd (wrB t g b r.loop) f r.loop = rd t f r.loop := rd_wr_of_id_ne (by omega) (by omega) (by omega) t _
  simp only [showCurrent]
  iterate 4 rw [hpast (by decide)]

theorem showCurrent_reads (hn : r.loop < 1024) (u : State) :
    rdB (showCurrent u r) Reg.LPE_LSTS_SATHI r.loop = r.cur.getLsbD 0 ∧
      rdB (showCurrent u r) Reg.LPE_LSTS_SATLO r.loop = r.cur.getLsbD 1 := by
  have hpast {f g : Field} (hne : f.id ≠ g.id) (t : State) (b : Bool) :
      rdB (wrB t g b r.loop) f r.loop = rdB t f r.loop := by
    simp only [rdB, wrB, rd_wr_of_id_ne hne (by omega : r.loop < 8192) (by omega : r.loop < 8192)]
  simp only [showCurrent]
  constructor
  · iterate 3 rw [hpast (by decide)]
    exact rdB_wrB_same rfl _ _ _
  · iterate 2 rw [hpast (by decide)]
    exact rdB_wrB_same rfl _ _ _

/-- The status word of a loop after its result (Table 5.15). -/
theorem putResult_reads (hw : (wires s).find? (·.1 = r.loop) = some (r.loop, w)) (hn : r.loop < 1024) :
    rd (putResult s r) Reg.LPE_LSTS_QUAL r.loop = qualCode (loopQual (withRun s r) r.loop w) ∧
      rd (putResult s r) Reg.LPE_LSTS_MODE r.loop = lmodeCode r.mode ∧
      rdB (putResult s r) Reg.LPE_LSTS_SATHI r.loop = r.cur.getLsbD 0 ∧
      rdB (putResult s r) Reg.LPE_LSTS_SATLO r.loop = r.cur.getLsbD 1 := by
  have hi : r.loop < 8192 := by omega
  obtain ⟨hsathi, hsatlo⟩ := showCurrent_reads hn (showMode s r)
  rw [putResult_eq, rdB, rdB, rd_showSticky hn (by decide), rd_showSticky hn (by decide), rd_showSticky hn (by decide),
    rd_showSticky hn (by decide), rd_showCurrent hn (by decide), rd_showCurrent hn (by decide)]
  refine ⟨?_, (rd_wr_same _ _ _ _).trans (lmodeCode_mod _), hsathi, hsatlo⟩
  rw [showMode, rd_wr_of_id_ne (by decide) hi hi, rd_wr_of_id_ne (by decide) hi hi,
    showQual_of_wired (s := withRun s r) hw]
  exact (rd_wr_same _ _ _ _).trans (qualCode_mod _)

/-! ### A result committed -/

/-- A committed result shows in its status word, its state record and its output point, and in no other point. -/
theorem commitLoop_effect (hw : (wires s).find? (·.1 = r.loop) = some (r.loop, w)) :
    (commitLoop s r).flds = (putResult s r).flds ∧ (commitLoop s r).rdu = s.rdu ∧
      tget (commitLoop s r).lpe.runs r.loop = some r.run ∧
      (commitLoop s r).csa.outNext = tput s.csa.outNext w.outPt (BitVec.ofInt 64 r.run.out, r.run.outQ) := by
  have hlpe : (putResult s r).lpe = (withRun s r).lpe := putResult_keeps (fun _ _ _ _ => rfl) s
  have hrdu : (putResult s r).rdu = s.rdu := putResult_keeps (p := State.rdu) (fun _ _ _ _ => rfl) s
  have hcsa : (putResult s r).csa = s.csa := putResult_keeps (p := State.csa) (fun _ _ _ _ => rfl) s
  have hwires : wires (putResult s r) = wires s := putResult_keeps (p := wires) (fun _ _ _ _ => rfl) s
  simp only [commitLoop, hwires, hw, hlpe, hrdu, hcsa]
  exact ⟨trivial, trivial, tget_tput_same _ _ _, trivial⟩

/-- A committed result leaves what the quality of an output turns on. -/
theorem outlook_commitLoop (hw : (wires s).find? (·.1 = r.loop) = some (r.loop, w)) (hn : r.loop < 1024) :
    outlook (commitLoop s r) = outlook s := by
  obtain ⟨hflds, hrdu, -, -⟩ := commitLoop_effect hw
  have hput : (putResult s r).rdu = s.rdu := putResult_keeps (p := State.rdu) (fun _ _ _ _ => rfl) s
  refine (outlook_of_flds hflds (congrArg RduSt.copy (hrdu.trans hput.symm))).trans ?_
  exact putResult_keeps (fun f hf u v =>
    outlook_wr (lt_trans (by decide) hf).ne (lt_trans (by decide) hf) (by omega) u v) s

end

theorem commitLoop_bankA (s : State) (r : LoopRes) : (commitLoop s r).lpe.bankA = s.lpe.bankA := by
  have hput : (putResult s r).lpe.bankA = s.lpe.bankA :=
    putResult_keeps (p := fun t => t.lpe.bankA) (fun _ _ _ _ => rfl) s
  unfold commitLoop
  dsimp only
  split <;> exact hput

/-! ### The end of a run -/

/-- The results of a run committed and noted for the partner. -/
def resultsCommitted (s : State) : State :=
  let t := noteLoops (s.lpe.results.foldl commitLoop s) s.lpe.results
  { t with lpe := { t.lpe with results := [], run := none } }

/-- The cycles of a run shown (Table 5.11). -/
def showCycles (s : State) (cyc : Nat) : State :=
  let t := wr s Reg.LPE_TIMING_LASTCYC cyc
  wr t Reg.LPE_TIMING_MAXCYC (max cyc (rd t Reg.LPE_TIMING_MAXCYC))

/-- The run is over, its results committed and its time shown (R118). -/
def runEnded (s : State) (perRank : List Nat) : State :=
  showCycles (resultsCommitted s) (runCycles (max 1 (lanesUp s)) perRank + 24 * s.lpe.retries)

theorem exec_lpeRunComplete {s : State} {perRank : List Nat} (hrun : s.lpe.run = some perRank)
    (hruns : runsControl s = true) : exec .lpeRunComplete s = .next (runEnded s perRank) := by
  show Host.Outcome.next (if runsControl s then lpeComplete s else s) = _
  rw [if_pos hruns, lpeComplete, hrun]
  rfl

theorem exec_lpeRunComplete_idle {s : State} (h : s.lpe.run = none) : exec .lpeRunComplete s = .next s := by
  show Host.Outcome.next (if runsControl s then lpeComplete s else s) = _
  rw [lpeComplete, h, ite_self]

/-- The end of a run drops its results and leaves bank A. -/
theorem runEnded_lpe (s : State) (perRank : List Nat) :
    (runEnded s perRank).lpe.results = [] ∧ (runEnded s perRank).lpe.bankA = s.lpe.bankA :=
  ⟨rfl, foldl_keeps (fun t => t.lpe.bankA) commitLoop_bankA s.lpe.results s⟩

section

variable {s : State} {r : LoopRes} {w : Wire}

theorem outlook_showCycles (s : State) (cyc : Nat) : outlook (showCycles s cyc) = outlook s :=
  (outlook_wr (by decide) (by decide) (by decide) _ _).trans (outlook_wr (by decide) (by decide) (by decide) _ _)

theorem rd_showCycles {f : Field} (hf : Reg.LPE_TIMING_MAXCYC.id < f.id) (s : State) (cyc i : Nat) :
    rd (showCycles s cyc) f i = rd s f i :=
  (rd_wr_of_id_lt hf i _ _).trans (rd_wr_of_id_lt (lt_trans (by decide) hf) i _ _)

/-- The only result of a run is committed as it is alone, and noted. -/
theorem resultsCommitted_single (hres : s.lpe.results = [r]) :
    (resultsCommitted s).flds = (commitLoop s r).flds ∧ (resultsCommitted s).csa = (commitLoop s r).csa ∧
      (resultsCommitted s).lpe.runs = (commitLoop s r).lpe.runs ∧
      (resultsCommitted s).rdu.copy = (commitLoop s r).rdu.copy := by
  simp only [resultsCommitted, hres, List.foldl_cons, List.foldl_nil]
  exact ⟨rfl, rfl, rfl, rfl⟩

/-- The one result of a run in the state record, the status word and the output point of its loop. -/
theorem runEnded_commits (hres : s.lpe.results = [r]) (hn : r.loop < 1024)
    (hw : (wires s).find? (·.1 = r.loop) = some (r.loop, w)) {perRank : List Nat} {t : State}
    (ht : t = runEnded s perRank) :
    t.lpe.results = [] ∧ tget t.lpe.runs r.loop = some r.run ∧
      rd t Reg.LPE_LSTS_QUAL r.loop = qualCode (loopQual t r.loop w) ∧
      (lanesUp s ≠ 0 → modeIs s ≠ .save → loopQual t r.loop w = r.run.outQ) ∧
      rd t Reg.LPE_LSTS_MODE r.loop = lmodeCode r.mode ∧
      rdB t Reg.LPE_LSTS_SATHI r.loop = r.cur.getLsbD 0 ∧ rdB t Reg.LPE_LSTS_SATLO r.loop = r.cur.getLsbD 1 ∧
      tget t.csa.outNext w.outPt = some (BitVec.ofInt 64 r.run.out, r.run.outQ) ∧
      ∀ p, p ≠ w.outPt → tget t.csa.outNext p = tget s.csa.outNext p := by
  subst ht
  obtain ⟨hregs, hcsa, hruns, hcopy⟩ := resultsCommitted_single hres
  obtain ⟨hflds, -, hrun, hout⟩ := commitLoop_effect hw
  obtain ⟨hqual, hmode, hsathi, hsatlo⟩ := putResult_reads hw hn
  have hword {f : Field} (hf : Reg.LPE_TIMING_MAXCYC.id < f.id) :
      rd (runEnded s perRank) f r.loop = rd (putResult s r) f r.loop :=
    (rd_showCycles hf _ _ _).trans (congrArg (rdIn · f r.loop) (hregs.trans hflds))
  have hends : outlook (runEnded s perRank) = outlook s :=
    (outlook_showCycles _ _).trans <| (outlook_of_flds hregs hcopy).trans (outlook_commitLoop hw hn)
  have hrec : tget (runEnded s perRank).lpe.runs r.loop = some r.run := (congrArg (tget · r.loop) hruns).trans hrun
  have hpoints : (runEnded s perRank).csa.outNext =
      tput s.csa.outNext w.outPt (BitVec.ofInt 64 r.run.out, r.run.outQ) := (congrArg CsaSt.outNext hcsa).trans hout
  refine ⟨rfl, hrec, ?_, fun hlanes hsave => ?_, ?_, ?_, ?_, ?_, fun p hp => ?_⟩
  · rw [hword (by decide), hqual, loopQual_of_outlook (s := withRun s r) hends (hrec.trans (tget_tput_same _ _ _).symm)]
  · exact loopQual_sampled hrec (by rwa [lanesUp_of_outlook hends]) (by rwa [modeIs_of_outlook hends]) w
  · rw [hword (by decide), hmode]
  · simpa only [rdB, hword (f := Reg.LPE_LSTS_SATHI) (by decide)] using hsathi
  · simpa only [rdB, hword (f := Reg.LPE_LSTS_SATLO) (by decide)] using hsatlo
  · rw [hpoints, tget_tput_same]
  · rw [hpoints, tget_tput_ne hp]

end

end Sys2Proof.Machine
end

section
/-! SUPPORT. Coefficient writes (R119) and the errors of lanes (R124, R391): the upset of a lane, and a sample
skipped. -/

namespace Sys2Proof.Machine

/-! ### Coefficient writes (R119) -/

theorem getD_tget_tset {α : Type} [DecidableEq α] (d : α) (t : Tbl α) (k : Nat) (v : α) (a : Nat) :
    (tget (tset d t k v) a).getD d = if a = k then v else (tget t a).getD d := by
  split
  case isTrue h => rw [h, tget_tset_same]
  case isFalse h => rw [tget_tset_ne h]

theorem exec_coefWrite_ignored {s : State} {bank : Bool} {loop : Fin 1024}
    (h : bank = rdB s Reg.LPE_LSTS_BANK loop.val ∨ rdB s Reg.LPE_LSTS_PENDSWAP loop.val = true) (word : Fin 24)
    (v : BitVec 32) : exec (.coefWrite bank loop word v) s = .next (wr s Reg.LPE_STATUS_WRBLK 1) :=
  congrArg Host.Outcome.next (if_pos (by simpa using h))

theorem exec_coefWrite_taken {s : State} {bank : Bool} {loop : Fin 1024}
    (hbank : bank ≠ rdB s Reg.LPE_LSTS_BANK loop.val)
    (hpend : rdB s Reg.LPE_LSTS_PENDSWAP loop.val = false) (word : Fin 24) (v : BitVec 32) :
    Completes (exec (.coefWrite bank loop word v) s) fun t => t.flds = s.flds ∧
      (∀ b a, (tget (if b then t.lpe.bankB else t.lpe.bankA) a).getD 0 =
        if b = bank ∧ a = loop.val * 24 + word.val then v
        else (tget (if b then s.lpe.bankB else s.lpe.bankA) a).getD 0) ∧ t.lpe.runs = s.lpe.runs := by
  refine ⟨_, congrArg Host.Outcome.next (if_neg (by simp [hbank, hpend])), ?_⟩
  cases bank with
  | false => exact ⟨rfl, fun b a => by cases b <;> simp [getD_tget_tset], rfl⟩
  | true => exact ⟨rfl, fun b a => by cases b <;> simp [getD_tget_tset], rfl⟩

/-! ### What a skipped sample leaves of the lanes -/

/-- What the errors of a lane turn on: the fault windows, the facet, the results that wait, and the lane's status
word. -/
structure LaneView where
  windows : List FWindow
  facet : Option Facet
  results : List LoopRes
  mstate : Nat
  fcount : Nat

/-- The view of a lane. -/
def laneView (lane : Fin 8) (s : State) : LaneView where
  windows := s.ssu.windows
  facet := s.fct.active
  results := s.lpe.results
  mstate := rd s Reg.LPE_LANESTS_MSTATE lane.val
  fcount := rd s Reg.LPE_LANESTS_FCOUNT lane.val

theorem wires_of_facet {s t : State} (h : t.fct.active = s.fct.active) : wires t = wires s := by
  simp only [wires, h]

theorem laneView_wr {f : Field} {i : Nat} (lane : Fin 8)
    (h : ∀ g ∈ [Reg.LPE_LANESTS_MSTATE, Reg.LPE_LANESTS_FCOUNT], g.key lane.val ≠ f.key i) (s : State) (v : Nat) :
    laneView lane (wr s f v i) = laneView lane s := by
  simp only [laneView, rd_wr_ne (h Reg.LPE_LANESTS_MSTATE (by simp)), rd_wr_ne (h Reg.LPE_LANESTS_FCOUNT (by simp)),
    wr_ssu, wr_fct, wr_lpe]

/-- A status word of a loop is none of a lane's. -/
theorem laneView_wr_loop {f : Field} (h : Reg.LPE_LANESTS_FCOUNT.id < f.id) (lane : Fin 8) (s : State) (v i : Nat) :
    laneView lane (wr s f v i) = laneView lane s :=
  laneView_wr lane (fun g hg => by
    have hle : g.id ≤ Reg.LPE_LANESTS_FCOUNT.id := by revert g; decide
    simp only [Field.key]
    omega) s v

theorem storeBlind_laneView (lane : Fin 8) : StoreBlind (laneView lane) where
  field f hf s v := by
    have hne : ∀ f ∈ storeFields, ∀ g ∈ [Reg.LPE_LANESTS_MSTATE, Reg.LPE_LANESTS_FCOUNT], g.id ≠ f.id := by decide
    exact laneView_wr lane (fun g hg => key_ne_of_id (hne f hf g hg) (by decide) (by omega)) s v
  nvs _ _ := rfl
  csa _ _ := rfl
  mte _ _ := rfl
  shadow _ _ _ := rfl
  service _ _ := rfl

theorem laneView_undoSample (lane : Fin 8) (s : State) (w : LoopWas) :
    laneView lane (undoSample s w) = laneView lane s := by
  unfold undoSample
  extract_lets n runs _ u v
  split
  · rfl
  next shown awaited _ =>
    extract_lets x _ y
    have hx : laneView lane x = laneView lane s :=
      (laneView_wr_loop (by decide) lane _ _ _).trans <| (laneView_wr_loop (by decide) lane _ _ _).trans
        (laneView_wr_loop (by decide) lane u _ _)
    have hy : laneView lane y = laneView lane s := by
      refine Eq.trans ?_ hx
      simp only [y]
      split
      · exact ite_keeps rfl rfl
      · rfl
    exact ((storeBlind_laneView lane).nvsSave _ _ _ _ _).trans hy

/-! ### The results without a skipped sample (R116, R124) -/

/-- One result taken over without the samples of some loops: one whose set-point comes from such a loop is computed
anew, and joins them. -/
def recompute (s : State) (a : List LoopRes × List Nat) (r : LoopRes) : List LoopRes × List Nat :=
  match (wires s).find? fun (i, w) => i = r.loop && w.spKind = 2 && a.2.contains w.spRef with
  | some (_, w) =>
    (a.1 ++ [computeLoop { s with lpe := { s.lpe with results := a.1 } } s.tb.tick r.loop w], a.2 ++ [r.loop])
  | none => (a.1 ++ [r], a.2)

theorem withoutLoop_eq (s : State) (n : Nat) :
    withoutLoop s n = ((s.lpe.results.filter (·.loop ≠ n)).foldl (recompute s) ([], [n])).1 := rfl

/-- The skipped loop has no result left. -/
theorem loop_ne_of_mem_withoutLoop {s : State} {n : Nat} {r : LoopRes} (h : r ∈ withoutLoop s n) : r.loop ≠ n := by
  rw [withoutLoop_eq] at h
  refine List.foldlRecOn (motive := fun a => ∀ r ∈ a.1, r.loop ≠ n) _ (recompute s) (by simp) ?_ r h
  intro a ha x hx
  have hxn : x.loop ≠ n := by simpa using (List.mem_filter.1 hx).2
  unfold recompute
  split <;> exact List.forall_mem_append.2 ⟨ha, by simpa [computeLoop] using hxn⟩

/-- With no loop whose set-point comes from the skipped one, every other result stands. -/
theorem withoutLoop_of_no_follower {s : State} {n : Nat} (h : ∀ e ∈ wires s, ¬(e.2.spKind = 2 ∧ e.2.spRef = n)) :
    withoutLoop s n = s.lpe.results.filter (·.loop ≠ n) := by
  have hstep (l : List LoopRes) (r : LoopRes) : recompute s (l, [n]) r = (l ++ [r], [n]) := by
    have hnone : ((wires s).find? fun (i, w) => i = r.loop && w.spKind = 2 && [n].contains w.spRef) = none :=
      List.find?_eq_none.2 fun e he => by simpa using fun _ hk => by simpa using not_and.1 (h e he) hk
    simp only [recompute, hnone]
  have hfold (l acc : List LoopRes) : l.foldl (recompute s) (acc, [n]) = (acc ++ l, [n]) := by
    induction l generalizing acc with
    | nil => simp
    | cons r l ih => rw [List.foldl_cons, hstep, ih, List.append_assoc]; rfl
  rw [withoutLoop_eq, hfold]
  rfl

/-- A skipped sample: S_SKIP is set and its result dropped; the lanes, their windows and the facet stay. -/
theorem skipLoop_effect (s : State) (n : Nat) (lane : Fin 8) :
    laneView lane (skipLoop s n) = { laneView lane s with results := (skipLoop s n).lpe.results } ∧
      rd (skipLoop s n) Reg.LPE_LSTS_S_SKIP n = 1 ∧ (∀ r ∈ (skipLoop s n).lpe.results, r.loop ≠ n) ∧
      ((∀ e ∈ wires s, ¬(e.2.spKind = 2 ∧ e.2.spRef = n)) →
        (skipLoop s n).lpe.results = s.lpe.results.filter (·.loop ≠ n)) := by
  unfold skipLoop
  extract_lets _ u v
  have hu : laneView lane u = laneView lane s := by
    simp only [u]
    split
    · exact laneView_undoSample lane _ _
    · rfl
  have hv : laneView lane v = laneView lane s := (laneView_wr_loop (by decide) lane u 1 n).trans hu
  have hwires : wires v = wires s := wires_of_facet (congrArg LaneView.facet hv)
  have hres : v.lpe.results = s.lpe.results := congrArg LaneView.results hv
  refine ⟨congrArg (fun x : LaneView => { x with results := withoutLoop v n }) hv,
    rd_wr_same u Reg.LPE_LSTS_S_SKIP n 1, fun r hr => loop_ne_of_mem_withoutLoop hr, fun h => ?_⟩
  rw [← hres]
  exact withoutLoop_of_no_follower (by rwa [hwires])

/-! ### The upset of a lane (R391) -/

/-- A lane that has suffered its first upset. -/
def laneSuspect (s : State) (lane : Fin 8) : State :=
  let t := wr (wr s Reg.LPE_LANESTS_MSTATE (mstateCode .suspect) lane.val) Reg.LPE_LANESTS_FCOUNT 1 lane.val
  { t with ssu := { t.ssu with windows := t.ssu.windows ++ [⟨⟨.loop, lane.val⟩, .inService, t.tb.tick⟩] } }

theorem upset_lane {s : State} {lane : Fin 8} (hruns : WindowRuns s ⟨.loop, lane.val⟩)
    (hm : rd s Reg.LPE_LANESTS_MSTATE lane.val = mstateCode .inService) (work : State → State) :
    upset s ⟨.loop, lane.val⟩ work = (laneSuspect s lane, false) := by
  have hstate : resState s ⟨.loop, lane.val⟩ = .inService := congrArg mstateOf hm
  unfold upset
  rw [windowClose_of_runs hruns]
  simp only [hstate]
  rfl

theorem laneView_laneSuspect (s : State) (lane : Fin 8) : laneView lane (laneSuspect s lane) =
    { laneView lane s with mstate := mstateCode .suspect, fcount := 1,
                           windows := s.ssu.windows ++ [⟨⟨.loop, lane.val⟩, .inService, s.tb.tick⟩] } := by
  have hm : rd (laneSuspect s lane) Reg.LPE_LANESTS_MSTATE lane.val = mstateCode .suspect :=
    (rd_wr_of_id_ne (f := Reg.LPE_LANESTS_FCOUNT) (i := lane.val) (by decide) (by omega) (by omega) _ 1).trans
      (rd_wr_same s Reg.LPE_LANESTS_MSTATE lane.val (mstateCode .suspect))
  have hc : rd (laneSuspect s lane) Reg.LPE_LANESTS_FCOUNT lane.val = 1 :=
    rd_wr_same (wr s Reg.LPE_LANESTS_MSTATE _ lane.val) Reg.LPE_LANESTS_FCOUNT lane.val 1
  simp only [laneView, hm, hc]
  rfl

/-- A lane SUSPECT, with the recomputation of a sample under way counted. -/
def laneRetried (s : State) (lane : Fin 8) (hit : Bool) : State :=
  if hit then { laneSuspect s lane with lpe := { s.lpe with retries := s.lpe.retries + 1 } } else laneSuspect s lane

theorem laneView_laneRetried (s : State) (lane : Fin 8) (hit : Bool) :
    laneView lane (laneRetried s lane hit) = laneView lane (laneSuspect s lane) := ite_keeps rfl rfl

theorem exec_laneError {s : State} {lane : Fin 8} {loop : Fin 1024} {hit : Bool}
    (hm : rd s Reg.LPE_LANESTS_MSTATE lane.val = mstateCode .inService) (hruns : WindowRuns s ⟨.loop, lane.val⟩)
    (hhit : hit = (s.lpe.run.isSome && s.lpe.results.any (·.loop = loop.val))) (again : Bool) :
    exec (.laneError lane loop again) s = .next
      (if again && hit then skipLoop (laneRetried s lane hit) loop.val else laneRetried s lane hit) := by
  have halive : ¬rd s Reg.LPE_LANESTS_MSTATE lane.val = mstateCode .retired := by rw [hm]; decide
  refine congrArg Host.Outcome.next ((if_neg halive).trans ?_)
  rw [upset_lane hruns hm, hhit]
  rfl

theorem laneError_effect {s : State} {lane : Fin 8} {loop : Fin 1024} {hit : Bool}
    (hm : rd s Reg.LPE_LANESTS_MSTATE lane.val = mstateCode .inService) (hruns : WindowRuns s ⟨.loop, lane.val⟩)
    (hhit : hit = (s.lpe.run.isSome && s.lpe.results.any (·.loop = loop.val))) (again : Bool) :
    Completes (exec (.laneError lane loop again) s) fun t =>
      rd t Reg.LPE_LANESTS_MSTATE lane.val = mstateCode .suspect ∧ rd t Reg.LPE_LANESTS_FCOUNT lane.val = 1 ∧
      t.ssu.windows = s.ssu.windows ++ [⟨⟨.loop, lane.val⟩, .inService, s.tb.tick⟩] ∧
      ((again && hit) = false → t.lpe.results = s.lpe.results) ∧
      ((again && hit) = true → rd t Reg.LPE_LSTS_S_SKIP loop.val = 1 ∧ (∀ r ∈ t.lpe.results, r.loop ≠ loop.val) ∧
        ((∀ e ∈ wires s, ¬(e.2.spKind = 2 ∧ e.2.spRef = loop.val)) →
          t.lpe.results = s.lpe.results.filter (·.loop ≠ loop.val))) := by
  refine ⟨_, exec_laneError hm hruns hhit again, ?_⟩
  have hview := (laneView_laneRetried s lane hit).trans (laneView_laneSuspect s lane)
  have hres : (laneRetried s lane hit).lpe.results = s.lpe.results := congrArg LaneView.results hview
  have hwires : wires (laneRetried s lane hit) = wires s := wires_of_facet (congrArg LaneView.facet hview)
  cases hskip : again && hit with
  | false =>
    exact ⟨congrArg LaneView.mstate hview, congrArg LaneView.fcount hview, congrArg LaneView.windows hview,
      fun _ => hres, by simp⟩
  | true =>
    obtain ⟨hlane, hflag, hgone, hrest⟩ := skipLoop_effect (laneRetried s lane hit) loop.val lane
    rw [hview] at hlane
    rw [hwires, hres] at hrest
    exact ⟨congrArg LaneView.mstate hlane, congrArg LaneView.fcount hlane, congrArg LaneView.windows hlane,
      by simp, fun _ => ⟨hflag, hgone, hrest⟩⟩

end Sys2Proof.Machine
end

section
/-! SUPPORT. The host loop commands (R122, R125): an input to the tick, and in HALT a CLEAR or a swap at once. -/

namespace Sys2Proof.Machine

/-! ### A command accepted -/

/-- A loop command accepted: it pends, and no side has failed a check. -/
def lcmdTaken (s : State) : State := wr (wr s Reg.LPE_LCSTS_PEND 1) Reg.LPE_LCSTS_SIDE 0

/-- A field behind the command's status in the table is left by it. -/
theorem rd_lcmdTaken {f : Field} (h : Reg.LPE_LCSTS_SIDE.id < f.id) (i : Nat) (s : State) :
    rd (lcmdTaken s) f i = rd s f i :=
  (rd_wr_of_id_lt h i _ _).trans (rd_wr_of_id_lt (lt_trans (by decide) h) i _ _)

theorem lcmdTaken_pend (s : State) : rd (lcmdTaken s) Reg.LPE_LCSTS_PEND = 1 :=
  (rd_wr_ne (by decide) (wr s Reg.LPE_LCSTS_PEND 1) 0).trans (rd_wr_same s Reg.LPE_LCSTS_PEND 0 1)

theorem lcmdTaken_side (s : State) : rd (lcmdTaken s) Reg.LPE_LCSTS_SIDE = 0 :=
  rd_wr_same (wr s Reg.LPE_LCSTS_PEND 1) Reg.LPE_LCSTS_SIDE 0 0

theorem lcmd_input {s : State} (hp : rdB s Reg.LPE_LCSTS_PEND = false) (hm : modeIs s = .active ∨ modeIs s = .standby)
    (b : InBody) : lcmd s b = submitHost (lcmdTaken s) Reg.LPE_LCMD_CMD b := by
  rcases hm with hm | hm <;> simp [lcmd, hp, hm, lcmdTaken]

theorem lcmd_halt {s : State} (hp : rdB s Reg.LPE_LCSTS_PEND = false) (hm : modeIs s = .halt) (b : InBody) :
    lcmd s b = clearInput (agreeLcmd (lcmdTaken s) true b) true b := by
  simp [lcmd, hp, hm, lcmdTaken]

/-- A loop command that is an input pends and is listed. -/
theorem lcmd_pends {s : State} {c : Instr} {b : InBody} (hp : rdB s Reg.LPE_LCSTS_PEND = false)
    (hm : modeIs s = .active ∨ modeIs s = .standby) (hc : exec c s = .next (lcmd s b)) :
    Completes (exec c s) fun t => rd t Reg.LPE_LCSTS_PEND = 1 ∧ rd t Reg.LPE_LCSTS_SIDE = 0 ∧
      t.rdu.own = listPut s.rdu.own (tickOf s s.tb.now) ⟨s.tb.now, ⟨64, Reg.LPE_LCMD_CMD.addr⟩, ownSide s, b⟩ := by
  obtain ⟨hown, hflds, -⟩ := submitHost_effect (lcmdTaken s) Reg.LPE_LCMD_CMD b
  have htick : tickOf (lcmdTaken s) s.tb.now = tickOf s s.tb.now :=
    (tickOf_wr (by decide) _ _ _).trans (tickOf_wr (by decide) _ _ _)
  refine ⟨_, hc.trans (congrArg Host.Outcome.next (lcmd_input hp hm b)),
    (congrArg (rdIn · Reg.LPE_LCSTS_PEND 0) hflds).trans (lcmdTaken_pend s),
    (congrArg (rdIn · Reg.LPE_LCSTS_SIDE 0) hflds).trans (lcmdTaken_side s), ?_⟩
  rw [hown, ← htick]
  rfl

/-! ### The end of a command -/

theorem lcEnd_reads (s : State) (code rsn : Nat) :
    rd (lcEnd s code rsn) Reg.LPE_LCSTS_CC = code % 256 ∧ rd (lcEnd s code rsn) Reg.LPE_LCSTS_RSN = rsn % 256 ∧
      rd (lcEnd s code rsn) Reg.LPE_LCSTS_PEND = 0 :=
  setStatus_reads s code rsn (by decide) (by decide) (by decide)

theorem rd_lcEnd {f : Field} (h : Reg.LPE_LCSTS_PEND.id < f.id) (i : Nat) (s : State) (code rsn : Nat) :
    rd (lcEnd s code rsn) f i = rd s f i := by
  rw [lcEnd, setStatus, rd_wr_of_id_lt h, rd_wr_of_id_lt (lt_trans (by decide) h),
    rd_wr_of_id_lt (lt_trans (by decide) h)]

/-! ### CLEAR (R125) -/

/-- The sticky flags of a loop (Table 5.15). -/
def stickyFlags : List Field :=
  sampleSticky ++ [Reg.LPE_LSTS_S_SKIP, Reg.LPE_LSTS_S_REQIGN, Reg.LPE_LSTS_S_SWAPPED]

/-- The sticky flags of some loops, cleared together. -/
theorem foldl_clearSticky (l : List Nat) (s : State) :
    l.foldl clearSticky s = setFields (fun _ => some 0) s (l.flatMap fun n => stickyFlags.map (·, n)) := by
  rw [setFields, List.foldl_flatMap]
  rfl

theorem rd_foldl_clearSticky {l : List Nat} {n : Nat} (hn : n ∈ l) {f : Field} (hf : f ∈ stickyFlags) (s : State) :
    rd (l.foldl clearSticky s) f n = 0 := by
  have hbits : ∀ g ∈ stickyFlags, g.width = 1 ∧ g.resetAt 0 = 0 ∧ g.id ≠ Reg.SSU_FWIN_WINDOW.id := by decide
  rw [foldl_clearSticky]
  refine rd_setFields_flagBits (e := (f, n)) (by decide) (fun e he => ?_)
    (List.mem_flatMap.2 ⟨n, hn, List.mem_map_of_mem hf⟩) s
  obtain ⟨m, -, hm⟩ := List.mem_flatMap.1 he
  obtain ⟨g, hg, rfl⟩ := List.mem_map.1 hm
  obtain ⟨hwidth, hreset, hid⟩ := hbits g hg
  exact ⟨hwidth, by simpa [Field.resetAt, hid] using hreset⟩

theorem clearInput_loop (s : State) (n : Nat) :
    clearInput s true (.loopClear n) = lcEnd ([n].foldl clearSticky s) CC.done 0 := by
  simp only [clearInput, if_true, List.foldl_cons, List.foldl_nil]

theorem clearInput_all (s : State) :
    clearInput s true .loopClearAll = lcEnd ((List.range 1024).foldl clearSticky s) CC.done 0 := by
  simp only [clearInput, if_true]

/-- A CLEAR at once: it ends DONE, and no flag of its loops stands. -/
theorem clear_done {s : State} {c : Instr} {b : InBody} {l : List Nat} (hp : rdB s Reg.LPE_LCSTS_PEND = false)
    (hm : modeIs s = .halt) (hc : exec c s = .next (lcmd s b)) (hagree : ∀ t own, agreeLcmd t own b = t)
    (hclear : ∀ t, clearInput t true b = lcEnd (l.foldl clearSticky t) CC.done 0) :
    Completes (exec c s) fun t => rd t Reg.LPE_LCSTS_CC = CC.done ∧ rd t Reg.LPE_LCSTS_PEND = 0 ∧
      ∀ n ∈ l, ∀ f ∈ stickyFlags, rd t f n = 0 := by
  have hid : ∀ f ∈ stickyFlags, Reg.LPE_LCSTS_PEND.id < f.id := by decide
  refine ⟨_, hc, ?_⟩
  rw [lcmd_halt hp hm, hagree, hclear]
  obtain ⟨hcc, -, hpend⟩ := lcEnd_reads (l.foldl clearSticky (lcmdTaken s)) CC.done 0
  refine ⟨hcc, hpend, fun n hn f hf => ?_⟩
  rw [rd_lcEnd (hid f hf)]
  exact rd_foldl_clearSticky hn hf _

/-! ### A swap (R122) -/

theorem partnerAgrees_single {s : State} (h : paired s = false) : partnerAgrees s = (true, s) := by
  simp [partnerAgrees, h]

theorem paired_lcmdTaken (s : State) : paired (lcmdTaken s) = paired s := by
  have hid : Reg.LPE_LCSTS_SIDE.id < Reg.RDU_CHSTS_PAIRED.id := by decide
  simp only [paired, rdB, rd_lcmdTaken hid]

theorem banksCrc_lcmdTaken (s : State) (l : List Nat) : banksCrc (lcmdTaken s) l = banksCrc s l := by
  have hid : Reg.LPE_LCSTS_SIDE.id < Reg.LPE_LSTS_BANK.id := by decide
  simp only [banksCrc, idleBank, rdB, rd_lcmdTaken hid]
  rfl

/-- PENDSWAP on every loop of a list. -/
theorem rd_foldl_pendswap {l : List Nat} {n : Nat} (hn : n ∈ l) (s : State) :
    rd (l.foldl (fun s n => wr s Reg.LPE_LSTS_PENDSWAP 1 n) s) Reg.LPE_LSTS_PENDSWAP n = 1 := by
  have hfold : l.foldl (fun s n => wr s Reg.LPE_LSTS_PENDSWAP 1 n) s =
      setFields (fun _ => some 1) s (l.map (Reg.LPE_LSTS_PENDSWAP, ·)) := by
    rw [setFields, List.foldl_map]
  rw [hfold]
  refine rd_setFields_flagBits (e := (Reg.LPE_LSTS_PENDSWAP, n)) (by decide) (fun e he => ?_)
    (List.mem_map_of_mem hn) s
  obtain ⟨m, -, rfl⟩ := List.mem_map.1 he
  exact ⟨rfl, rfl⟩

section

variable {s : State} {l : List Nat} {crc : BitVec 32}

theorem agreeSwap_empty (s : State) (crc : BitVec 32) :
    agreeSwap s true [] crc = lcEnd s CC.failRefused Rsn.noLoop := rfl

theorem agreeSwap_passed (hpair : paired s = false) (hl : l ≠ []) (hcrc : banksCrc s l = crc) :
    agreeSwap s true l crc =
      { l.foldl (fun s n => wr s Reg.LPE_LSTS_PENDSWAP 1 n) s with
        lpe := { (l.foldl (fun s n => wr s Reg.LPE_LSTS_PENDSWAP 1 n) s).lpe with lcmd := some ⟨l, false⟩ } } := by
  simp [agreeSwap, hl, hcrc, partnerAgrees_single hpair]

theorem agreeSwap_failed (hpair : paired s = false) (hl : l ≠ []) (hcrc : banksCrc s l ≠ crc) :
    agreeSwap s true l crc =
      lcEnd (wr s Reg.LPE_LCSTS_SIDE (if ownSide s then 2 else 1)) CC.failRefused Rsn.bankCheck := by
  simp [agreeSwap, hl, hcrc, partnerAgrees_single hpair]

/-- A swap in HALT of a single unit: refused without a loop or for its CRC, and pending on every loop otherwise. -/
theorem swap_effect {c : Instr} {b : InBody} (hp : rdB s Reg.LPE_LCSTS_PEND = false) (hm : modeIs s = .halt)
    (hpair : paired s = false) (hc : exec c s = .next (lcmd s b))
    (hagree : agreeLcmd (lcmdTaken s) true b = agreeSwap (lcmdTaken s) true l crc)
    (hclear : ∀ t, clearInput t true b = t) :
    (l = [] → Completes (exec c s) fun t => rd t Reg.LPE_LCSTS_CC = CC.failRefused ∧
      rd t Reg.LPE_LCSTS_RSN = Rsn.noLoop ∧ rd t Reg.LPE_LCSTS_PEND = 0) ∧
    (l ≠ [] → banksCrc s l = crc → Completes (exec c s) fun t =>
      t.lpe.lcmd = some ⟨l, false⟩ ∧ rd t Reg.LPE_LCSTS_PEND = 1 ∧ ∀ n ∈ l, rd t Reg.LPE_LSTS_PENDSWAP n = 1) ∧
    (l ≠ [] → banksCrc s l ≠ crc → Completes (exec c s) fun t =>
      rd t Reg.LPE_LCSTS_CC = CC.failRefused ∧ rd t Reg.LPE_LCSTS_RSN = Rsn.bankCheck ∧
      rd t Reg.LPE_LCSTS_PEND = 0 ∧ rd t Reg.LPE_LCSTS_SIDE = (if ownSide s then 2 else 1) ∧
      t.lpe.lcmd = s.lpe.lcmd) := by
  have hnext : exec c s = .next (agreeSwap (lcmdTaken s) true l crc) := by
    rw [hc, lcmd_halt hp hm, hclear, hagree]
  have hpair' : paired (lcmdTaken s) = false := (paired_lcmdTaken s).trans hpair
  refine ⟨fun hl => ⟨_, hnext, ?_⟩, fun hl hcrc => ⟨_, hnext, ?_⟩, fun hl hcrc => ⟨_, hnext, ?_⟩⟩
  · rw [hl, agreeSwap_empty]
    exact lcEnd_reads (lcmdTaken s) CC.failRefused Rsn.noLoop
  · rw [agreeSwap_passed hpair' hl (by rwa [banksCrc_lcmdTaken])]
    refine ⟨rfl, ?_, fun n hn => rd_foldl_pendswap hn (lcmdTaken s)⟩
    refine Eq.trans ?_ (lcmdTaken_pend s)
    have hne (n : Nat) : Reg.LPE_LCSTS_PEND.key 0 ≠ Reg.LPE_LSTS_PENDSWAP.key n := by
      simp only [Field.key, Reg.LPE_LCSTS_PEND, Reg.LPE_LSTS_PENDSWAP]
      omega
    exact foldl_keeps (fun t => rd t Reg.LPE_LCSTS_PEND) (fun t n => rd_wr_ne (hne n) t 1) l (lcmdTaken s)
  · rw [agreeSwap_failed hpair' hl (by rwa [banksCrc_lcmdTaken])]
    obtain ⟨hcc, hrsn, hpend⟩ := lcEnd_reads
      (wr (lcmdTaken s) Reg.LPE_LCSTS_SIDE (if ownSide (lcmdTaken s) then 2 else 1)) CC.failRefused Rsn.bankCheck
    refine ⟨hcc, hrsn, hpend, ?_, rfl⟩
    rw [rd_lcEnd (by decide), rd_wr_same]
    show (if ownSide s then 2 else 1) % 4 = _
    split <;> rfl

end

/-! ### The Loop Engine -/

/-- Settles O33: a run by its one result (log entry 14), a coefficient word by its bank, a lane's error by the upset it
is and the sample it skips, and the host commands by their mode, a swap in HALT pending as log entry 108 has it. -/
theorem loopEngine : Obligations.LoopEngine := by
  refine ⟨fun s => ⟨fun hruns hrun => ?_, exec_lpeRunComplete_idle, fun bank loop word v => ⟨fun hbank hpend =>
    exec_coefWrite_taken hbank hpend word v, fun h => exec_coefWrite_ignored h word v⟩, fun lane loop again hit hm hwin
    hhit => laneError_effect hm hwin hhit again⟩, fun s loop group crc hp hcrc => ⟨?_, fun hm => ⟨?_, fun hpair => ?_⟩⟩⟩
  · obtain ⟨perRank, hper⟩ := Option.isSome_iff_exists.1 hrun
    have hnext := exec_lpeRunComplete hper hruns
    exact ⟨⟨_, hnext, runEnded_lpe s perRank⟩, fun r w hres hn hw => ⟨_, hnext, runEnded_commits hres hn hw rfl⟩⟩
  · subst hcrc
    rintro hm c b (⟨rfl, rfl⟩ | ⟨rfl, rfl⟩ | ⟨rfl, rfl⟩ | ⟨rfl, rfl⟩) <;> exact lcmd_pends hp hm rfl
  · rintro c l (⟨rfl, hl⟩ | ⟨rfl, hl⟩)
    · exact clear_done hp hm (b := .loopClear loop.val) rfl (fun _ _ => rfl) fun t => by rw [hl, clearInput_loop]
    · exact clear_done hp hm (b := .loopClearAll) rfl (fun _ _ => rfl) fun t => by rw [hl, clearInput_all]
  · subst hcrc
    rintro c l (⟨rfl, rfl⟩ | ⟨rfl, rfl⟩)
    · exact swap_effect hp hm hpair (b := .loopSwap loop.val _) rfl rfl fun _ => rfl
    · exact swap_effect hp hm hpair (b := .groupSwap group.val _) rfl rfl fun _ => rfl

end Sys2Proof.Machine
end

section
/-! SUPPORT. What a job's frames, reports and writes to memory leave alone (R128, R134, R171, R184, R331): the
registers, the supervisor, and all that the Lattice Solver holds but its coordinator. -/

namespace Sys2Proof.Machine

/-! ### The view -/

/-- What the queue of the Lattice Solver turns on: the registers, the supervisor, and what the solver holds but for its
coordinator. -/
structure SolverView where
  flds : Tbl Nat
  ssu : SsuSt
  lsv : LsvSt

/-- The view of a state. -/
def solverView (s : State) : SolverView := ⟨s.flds, s.ssu, { s.lsv with cjob := none }⟩

theorem rd_of_solverView {s t : State} (h : solverView t = solverView s) (f : Field) (i : Nat) : rd t f i = rd s f i :=
  congrArg (fun v : SolverView => rdIn v.flds f i) h

theorem solverView_msix (s : State) (vec : Nat) : solverView (msix s vec) = solverView s :=
  ite_keeps (ite_keeps rfl rfl) rfl

theorem solverView_submit (s : State) (stamp source ident : Nat) (b : InBody) :
    solverView (submit s stamp source ident b) = solverView s := ite_keeps rfl rfl

/-! ### Frames of a solve (R330 to R332) -/

theorem solverView_sendPart (s : State) (src dst : CAddr) (f : CplFrame) :
    solverView (sendPart s src dst f) = solverView s := by
  unfold sendPart
  split
  · exact ite_keeps rfl rfl
  · rfl

theorem solverView_sendParts (s : State) (l : List (Fin 8)) (f : CplFrame) :
    solverView (sendParts s l f) = solverView s := foldl_keeps solverView (fun _ _ => solverView_sendPart _ _ _ _) l s

theorem solverView_tellParts (s : State) (j : Job) (code rsn : Nat) :
    solverView (tellParts s j code rsn) = solverView s := by
  unfold tellParts
  refine ite_keeps rfl ?_
  split
  · exact solverView_sendParts _ _ _
  · exact ite_keeps rfl (solverView_sendPart _ _ _ _)

/-- A job that is no part of a partitioned solve has no other part to tell. -/
theorem tellParts_alone {j : Job} (h : (isQp j.desc && xMember j.ext) = false) (s : State) (code rsn : Nat) :
    tellParts s j code rsn = s := if_pos (by rw [h]; rfl)

/-! ### Writes to memory (R134, R171) -/

theorem solverView_windowWrite (s : State) (a : Nat) (bs : List Byte) :
    solverView (windowWrite s a bs) = solverView s := by
  induction bs generalizing s a with
  | nil => rfl
  | cons b bs ih => exact ih _ _

theorem solverView_deviceWrite (s : State) (a : Nat) (bs : List Byte) :
    solverView (deviceWrite s a bs) = solverView s := ite_keeps (solverView_windowWrite _ _ _) rfl

theorem solverView_writeReport (s : State) (j : Job) (e : JobEnd) : solverView (writeReport s j e) = solverView s := by
  unfold writeReport
  split
  · exact ite_keeps (solverView_deviceWrite _ _ _) rfl
  · rfl

/-- What a stopped job has reached takes free values at most. -/
theorem solverView_reachedBy (s : State) (j : Job) : solverView (reachedBy s j).2 = solverView s := by
  unfold reachedBy
  split
  · rfl
  · split <;> rfl

/-! ### Reads of operands (R137, R149) -/

/-- Free values may have been taken, and nothing else differs. -/
def FreeMoved (s t : State) : Prop := { t with free := s.free } = s

theorem FreeMoved.refl (s : State) : FreeMoved s s := rfl

theorem FreeMoved.trans {s t u : State} (h : FreeMoved s t) (h' : FreeMoved t u) : FreeMoved s u := by
  unfold FreeMoved at *
  rw [← h, ← h']

theorem windowRead_moved (s : State) (a n : Nat) : FreeMoved s (windowRead s a n).2 := by
  induction n generalizing s a with
  | zero => exact .refl s
  | succ n ih =>
    unfold windowRead
    extract_lets t
    split
    next b u hread =>
    have hbyte : FreeMoved s u := by
      split at hread <;> cases hread <;> rfl
    exact hbyte.trans (ih _ _)

theorem loadBytes_moved (s : State) (o : JobOperands) (a n : Nat) : FreeMoved s (loadBytes s o a n).2 := by
  unfold loadBytes
  split
  · exact windowRead_moved _ _ _
  · exact .refl s

theorem loadNats_moved (k : Nat) (s : State) (o : JobOperands) (a n : Nat) : FreeMoved s (loadNats k s o a n).2 :=
  loadBytes_moved s o a (k * n)

theorem loadWords_moved (s : State) (o : JobOperands) (a n : Nat) : FreeMoved s (loadWords s o a n).2 :=
  loadNats_moved 8 s o a n

theorem loadCsc_moved (s : State) (o : JobOperands) (ptr idx val cols nnz vals : Nat) :
    FreeMoved s (loadCsc s o ptr idx val cols nnz vals).2 :=
  ((loadNats_moved _ _ _ _ _).trans (loadNats_moved _ _ _ _ _)).trans (loadWords_moved _ _ _ _)

theorem FreeMoved.of_eq {α : Type} {s u : State} {a : α} {r : α × State} (h : r = (a, u)) (hr : FreeMoved s r.2) :
    FreeMoved s u := by
  subst h
  exact hr

/-- An operand that is loaded or left out. -/
theorem freeMoved_ite {α : Type} {c : Prop} [Decidable c] {x y : α × State} {s : State} (hx : FreeMoved s x.2)
    (hy : FreeMoved s y.2) : FreeMoved s (if c then x else y).2 := by
  split
  · exact hx
  · exact hy

/-- Loading the operands of a linear job takes free values at most: bytes of the window that nothing has written. -/
theorem loadLinear_moved (s : State) (o : JobOperands) (d : List Byte) : FreeMoved s (loadLinear s o d).2 := by
  unfold loadLinear
  extract_lets n b vals
  split
  next a u ha =>
  split
  next perm v hperm =>
  split
  next rhs w hrhs =>
  have hu : FreeMoved s u := .of_eq ha (freeMoved_ite (loadWords_moved _ _ _ _) (loadCsc_moved _ _ _ _ _ _ _ _))
  have hv : FreeMoved u v := .of_eq hperm (freeMoved_ite (loadNats_moved _ _ _ _ _) (.refl u))
  have hw : FreeMoved v w := .of_eq hrhs (freeMoved_ite (loadWords_moved _ _ _ _) (.refl v))
  exact (hu.trans hv).trans hw

end Sys2Proof.Machine
end

section
/-! SUPPORT. The end of a job (R128, R150 to R154, Tables 6.5, 6.8): its entry is the next of the completion ring, and
it is held no longer. -/

namespace Sys2Proof.Machine

/-! ### The view -/

/-- The registers that the end of a job writes: the queue's state, the performance counters and the status of a
cancel. -/
def jobFields : List Field :=
  [Reg.LSV_QSTS_DEPTH, Reg.LSV_QSTS_BUSY, Reg.LSV_PERF_FLOP_LO_FLOP, Reg.LSV_PERF_CYC_LO_CYC, Reg.LSV_CANCELSTS_CC,
    Reg.LSV_CANCELSTS_RSN, Reg.LSV_CANCELSTS_PEND]

/-- What the end of a job turns on: the jobs held, the completion ring, the performance counters, the supervisor, and
every register but those of the queue itself. -/
structure QueueView where
  held : List Job
  tail : Nat
  flop : BitVec 64
  cyc : BitVec 64
  ssu : SsuSt
  field : Field → Nat → Nat

/-- The view of a state. -/
def queueView (s : State) : QueueView where
  held := s.lsv.held
  tail := s.lsv.cqTail
  flop := s.lsv.flop
  cyc := s.lsv.cyc
  ssu := s.ssu
  field f i := if (∀ g ∈ jobFields, f.id ≠ g.id) ∧ i < 8192 then rd s f i else 0

theorem rd_of_queueView {s t : State} (h : (queueView t).field = (queueView s).field) {f : Field}
    (hf : ∀ g ∈ jobFields, f.id ≠ g.id) {i : Nat} (hi : i < 8192) : rd t f i = rd s f i := by
  simpa only [queueView, if_pos (And.intro hf hi)] using congrFun (congrFun h f) i

theorem queueView_wr {g : Field} (hg : g ∈ jobFields) (s : State) (v : Nat) : queueView (wr s g v) = queueView s := by
  have hfield : (queueView (wr s g v)).field = (queueView s).field := by
    funext f i
    simp only [queueView]
    split
    next h => exact rd_wr_of_id_ne (h.1 g hg) (by decide) h.2 s v
    next => rfl
  exact congrArg (fun x => { queueView s with field := x }) hfield

theorem queueView_of_solverView {s t : State} (h : solverView t = solverView s) : queueView t = queueView s :=
  congrArg (fun v : SolverView => (⟨v.lsv.held, v.lsv.cqTail, v.lsv.flop, v.lsv.cyc, v.ssu, fun f i =>
    if (∀ g ∈ jobFields, f.id ≠ g.id) ∧ i < 8192 then rdIn v.flds f i else 0⟩ : QueueView)) h

theorem cqSize_of_queueView {s t : State} (h : (queueView t).field = (queueView s).field) : cqSize t = cqSize s :=
  congrArg (2 ^ ·) (rd_of_queueView h (by decide) (by decide))

/-! ### The steps of an end -/

theorem queueView_setHeld (s : State) (l : List Job) : queueView (setHeld s l) = { queueView s with held := l } :=
  (queueView_wr (by decide) _ _).trans (queueView_wr (by decide) _ _)

theorem queueView_setPerf (s : State) (flop cyc : BitVec 64) :
    queueView (setPerf s flop cyc) = { queueView s with flop := flop, cyc := cyc } :=
  (queueView_wr (by decide) _ _).trans (queueView_wr (by decide) _ _)

theorem queueView_cancelEnd (s : State) (code rsn : Nat) : queueView (cancelEnd s code rsn) = queueView s :=
  (queueView_wr (by decide) _ _).trans <| (queueView_wr (by decide) _ _).trans (queueView_wr (by decide) _ _)

theorem queueView_settleCancel (s : State) (j : Job) (cancelled : Bool) :
    queueView (settleCancel s j cancelled) = queueView s :=
  ite_keeps rfl (ite_keeps (queueView_cancelEnd _ _ _) (queueView_cancelEnd _ _ _))

/-- A completion entry takes the next place of its ring. -/
theorem queueView_writeEntry (s : State) (index : Nat) (entry : List Byte) :
    queueView (writeEntry s index entry) = { queueView s with tail := (s.lsv.cqTail + 1) % cqSize s } :=
  queueView_of_solverView (solverView_msix _ _)

/-- The view after a job's outcome was reported. -/
def QueueView.ended (v : QueueView) (j : Job) (size : Nat) : QueueView :=
  { v with held := v.held.filter (·.index ≠ j.index), tail := (v.tail + 1) % size }

theorem queueView_closeJob (s : State) (j : Job) (e : JobEnd) (cancelled : Bool) :
    queueView (closeJob s j e cancelled) = (queueView s).ended j (cqSize s) := by
  unfold closeJob
  extract_lets t _ u
  have hu : queueView u = queueView s := (ite_keeps rfl rfl : queueView u = queueView t).trans
    (queueView_settleCancel s j cancelled)
  have hheld := queueView_setHeld u (u.lsv.held.filter (·.index ≠ j.index))
  have hsize : cqSize (setHeld u (u.lsv.held.filter (·.index ≠ j.index))) = cqSize s :=
    (cqSize_of_queueView (s := u) (by rw [hheld])).trans (cqSize_of_queueView (congrArg QueueView.field hu))
  rw [queueView_writeEntry, hheld, hsize]
  exact congrArg (fun v : QueueView => v.ended j (cqSize s)) hu

/-! ### A job stopped or completed -/

/-- A job that is stopped: only the flops and cycles of its entry are left open. -/
theorem queueView_haltJob (s : State) (j : Job) (code rsn : Nat) : ∃ flop cyc,
    queueView (haltJob s j code rsn) = { (queueView s).ended j (cqSize s) with flop := flop, cyc := cyc } := by
  unfold haltJob
  split
  next e u hreach =>
  extract_lets e' w x
  have hu : queueView u = queueView s := by
    have h := solverView_reachedBy s j
    rw [hreach] at h
    exact queueView_of_solverView h
  have hw : queueView w = queueView s := (queueView_of_solverView (solverView_writeReport u j e')).trans hu
  have hx : ∃ flop cyc, queueView x = { queueView s with flop := flop, cyc := cyc } := by
    rw [← hw]
    simp only [x]
    split
    · exact ⟨_, _, queueView_setPerf _ _ _⟩
    · exact ⟨_, _, queueView_setPerf _ _ _⟩
  obtain ⟨flop, cyc, hx⟩ := hx
  refine ⟨flop, cyc, ?_⟩
  rw [queueView_closeJob, hx, cqSize_of_queueView (t := x) (s := s) (by rw [hx])]
  rfl

theorem queueView_stopJob (s : State) (j : Job) (code rsn : Nat) : ∃ flop cyc,
    queueView (stopJob s j code rsn) = { (queueView s).ended j (cqSize s) with flop := flop, cyc := cyc } := by
  unfold stopJob
  have htell (t : State) (ht : queueView t = queueView s) : ∃ flop cyc,
      queueView (haltJob t j code rsn) = { (queueView s).ended j (cqSize s) with flop := flop, cyc := cyc } := by
    obtain ⟨flop, cyc, h⟩ := queueView_haltJob t j code rsn
    exact ⟨flop, cyc, by rw [h, ht, cqSize_of_queueView (congrArg QueueView.field ht)]⟩
  exact htell _ (ite_keeps rfl (queueView_of_solverView (solverView_tellParts s j code rsn)))

theorem held_stopJob (s : State) (j : Job) (code rsn : Nat) :
    (stopJob s j code rsn).lsv.held = s.lsv.held.filter (·.index ≠ j.index) := by
  obtain ⟨_, _, h⟩ := queueView_stopJob s j code rsn
  exact congrArg QueueView.held h

theorem stopJob_ssu (s : State) (j : Job) (code rsn : Nat) : (stopJob s j code rsn).ssu = s.ssu := by
  obtain ⟨_, _, h⟩ := queueView_stopJob s j code rsn
  exact congrArg QueueView.ssu h

theorem rd_stopJob {f : Field} (hf : ∀ g ∈ jobFields, f.id ≠ g.id) {i : Nat} (hi : i < 8192) (s : State) (j : Job)
    (code rsn : Nat) : rd (stopJob s j code rsn) f i = rd s f i := by
  obtain ⟨_, _, h⟩ := queueView_stopJob s j code rsn
  exact rd_of_queueView (by rw [h]; rfl) hf hi

/-- Jobs that end one after another: none of their indices is held any longer. -/
theorem held_foldl_stopJob (l : List Job) (s : State) (code rsn : Nat) :
    (l.foldl (fun s j => stopJob s j code rsn) s).lsv.held =
      s.lsv.held.filter fun k => ∀ j ∈ l, k.index ≠ j.index := by
  induction l generalizing s with
  | nil => simp
  | cons j l ih =>
    rw [List.foldl_cons, ih, held_stopJob, List.filter_filter]
    simp [Bool.and_comm]

end Sys2Proof.Machine
end

section
/-! SUPPORT. The handles of the Lattice Solver (R139 to R141): what dropping, saving and evicting them leaves alone. -/

namespace Sys2Proof.Machine

/-! ### The registers of a handle -/

/-- The registers of a handle (Table 6.17). -/
def handleFields : List Field :=
  [Reg.LSV_HANDLE0_VALID, Reg.LSV_HANDLE0_CONTENT, Reg.LSV_HANDLE0_FPREC, Reg.LSV_HANDLE0_DDR, Reg.LSV_HANDLE1_SIZEKIB,
    Reg.LSV_HANDLE2_FPRINT, Reg.LSV_HANDLE3_FPRINT]

theorem dHandle_lt (d : List Byte) : dHandle d < 256 := by
  have hlen : ((d.drop 5).take 1).length ≤ 1 := by simp
  calc dHandle d < 2 ^ (8 * ((d.drop 5).take 1).length) := leNat_lt _
    _ ≤ 2 ^ 8 := Nat.pow_le_pow_right (by decide) (by omega)

theorem dropHandle_eq_foldl (s : State) (n : Nat) :
    dropHandle s n = handleFields.foldl (fun s f => wr s f 0 n)
      { s with lsv := { s.lsv with handles := tdel s.lsv.handles n } } := rfl

/-- A handle dropped is its registers set to 0. -/
theorem dropHandle_eq (s : State) (n : Nat) :
    dropHandle s n = setFields (fun _ => some 0) { s with lsv := { s.lsv with handles := tdel s.lsv.handles n } }
      (handleFields.map (·, n)) := by
  rw [dropHandle_eq_foldl, setFields, List.foldl_map]

theorem rd_dropHandle_same {f : Field} (hf : f ∈ handleFields) (s : State) (n : Nat) : rd (dropHandle s n) f n = 0 := by
  have hids : handleFields.Pairwise fun f g => f.id ≠ g.id := by decide
  have hkeys : (handleFields.map (·, n)).Pairwise fun d e => d.1.key d.2 ≠ e.1.key e.2 :=
    List.pairwise_map.2 (hids.imp fun h => by simp only [Field.key]; omega)
  rw [dropHandle_eq]
  exact (rd_setFields_mem hkeys (List.mem_map_of_mem hf)).trans (Nat.zero_mod _)

/-- The registers of another handle keep their values. -/
theorem rd_dropHandle_ne {n i : Nat} (h : i ≠ n) (hn : n < 8192) (hi : i < 8192) (s : State) (f : Field) :
    rd (dropHandle s n) f i = rd s f i := by
  rw [dropHandle_eq]
  refine rd_setFields_ne fun e he _ => ?_
  obtain ⟨g, -, rfl⟩ := List.mem_map.1 he
  simp only [Field.key]
  omega

/-- Of handles dropped one after another each has its registers at 0. -/
theorem rd_foldl_dropHandle {f : Field} (hf : f ∈ handleFields) {l : List Nat} (hl : ∀ m ∈ l, m < 8192) {n : Nat}
    (hn : n ∈ l) (s : State) : rd (l.foldl dropHandle s) f n = 0 := by
  obtain ⟨l₁, l₂, rfl⟩ := List.append_of_mem hn
  rw [List.foldl_append, List.foldl_cons]
  refine List.foldlRecOn (motive := fun t => rd t f n = 0) l₂ _ (rd_dropHandle_same hf _ _) fun t ht m hm => ?_
  by_cases h : n = m
  · exact h ▸ rd_dropHandle_same hf t n
  · rw [rd_dropHandle_ne h (hl m (by simp [hm])) (hl n hn), ht]

/-! ### Views in which no handle shows -/

/-- A view of the state in which neither the contents of the handles nor their registers show. -/
structure HandleBlind {β : Type} (p : State → β) : Prop where
  field : ∀ f ∈ handleFields, ∀ s v, ∀ i < 256, p (wr s f v i) = p s
  content : ∀ s x y z, p { s with lsv := { s.lsv with handles := x, lastUse := y, useClock := z } } = p s

/-- A field that is none of a handle's. -/
theorem handleBlind_rd {f : Field} (hf : ∀ g ∈ handleFields, f.id ≠ g.id) {i : Nat} (hi : i < 8192) :
    HandleBlind fun s => rd s f i where
  field g hg s v j hj := rd_wr_of_id_ne (hf g hg) (by omega) hi s v
  content _ _ _ _ := rfl

theorem handleBlind_held : HandleBlind fun s => s.lsv.held := ⟨fun _ _ _ _ _ _ => rfl, fun _ _ _ _ => rfl⟩

theorem handleBlind_tail : HandleBlind fun s => s.lsv.cqTail := ⟨fun _ _ _ _ _ _ => rfl, fun _ _ _ _ => rfl⟩

theorem handleBlind_out : HandleBlind State.out := ⟨fun _ _ _ _ _ _ => rfl, fun _ _ _ _ => rfl⟩

/-- What a search picks out of a list, by keeping a choice or taking the next, is of the list. -/
theorem mem_of_foldl_choice {l : List Nat} {f : Option Nat → Nat → Option Nat} (hf : ∀ b n, f b n = b ∨ f b n = some n)
    {m : Nat} (h : l.foldl f none = some m) : m ∈ l := by
  refine List.foldlRecOn (motive := fun b => ∀ m, b = some m → m ∈ l) l f (by simp) (fun b hb n hn k hk => ?_) m h
  rcases hf b n with h | h <;> rw [h] at hk
  · exact hb k hk
  · exact Option.some.inj hk ▸ hn

namespace HandleBlind

variable {β : Type} {p : State → β} (h : HandleBlind p)
include h

theorem dropHandle {n : Nat} (hn : n < 256) (s : State) : p (dropHandle s n) = p s := by
  rw [dropHandle_eq_foldl, foldl_keeps_mem p fun f hf t => h.field f hf t 0 n hn]
  exact h.content s _ s.lsv.lastUse s.lsv.useClock

theorem touchHandle (s : State) (n : Nat) : p (touchHandle s n) = p s := h.content s s.lsv.handles _ _

theorem saveHandle (s : State) (j : Job) (f : Option Factor) : p (saveHandle s j f) = p s := by
  have hn := dHandle_lt j.desc
  have hwr {g : Field} (hg : g ∈ handleFields) (t : State) (v : Nat) : p (wr t g v (dHandle j.desc)) = p t :=
    h.field g hg t v _ hn
  unfold Machine.saveHandle
  extract_lets n f size _ a b c d
  calc p (Machine.touchHandle _ n) = p (wr (wr d _ _ n) _ _ n) := h.touchHandle _ _
    _ = p d := (hwr (by decide) _ _).trans (hwr (by decide) _ _)
    _ = p c := hwr (by decide) _ _
    _ = p b := (hwr (by decide) _ _).trans (hwr (by decide) _ _)
    _ = p a := (hwr (by decide) _ _).trans (hwr (by decide) _ _)
    _ = p s := h.content s _ s.lsv.lastUse s.lsv.useClock

theorem evict (ddr : Bool) (but : List Nat) (need room fuel : Nat) (s : State) :
    p (evict ddr but need room fuel s) = p s := by
  induction fuel generalizing s with
  | zero => rfl
  | succ fuel ih =>
    unfold Machine.evict
    extract_lets c age
    refine ite_keeps rfl ?_
    split
    next n hn =>
      have hmem : n ∈ c := by
        refine mem_of_foldl_choice (fun b m => ?_) hn
        split
        · exact (ite_eq_or_eq _ _ _).symm
        · exact .inr rfl
      have hlt : n < 32 := List.mem_range.1 (List.mem_of_mem_filter hmem)
      exact (ih _).trans (h.dropHandle (by omega) s)
    next => rfl

end HandleBlind

end Sys2Proof.Machine
end

section
/-! SUPPORT. The start of a job (R131, R137 to R141, R148): a FREE ends at once, and a linear job without a warm start
runs with its operands, its ordering and its placement. -/

namespace Sys2Proof.Machine

/-! ### Placement -/

/-- The registers that the room for a job is computed from. -/
def roomFields : List Field :=
  [Reg.LSV_TILESTS_MSTATE, Reg.HMX_SPLIT_SRAMHOST, Reg.HMX_SPLIT_DDRWS, Reg.HMX_DDRSTS_SIZE, Reg.HMX_DDRCFG_DRAM,
    Reg.HMX_DDRSTS_CH0, Reg.HMX_DDRSTS_CH1]

/-- The room for jobs is that of another state in which its registers read the same. -/
theorem room_congr {s t : State} (h : ∀ f ∈ roomFields, ∀ i < 16, rd t f i = rd s f i) :
    tilesUp t = tilesUp s ∧ serviceTiles t = serviceTiles s ∧ sramRoom t = sramRoom s ∧ ddrRoom t = ddrRoom s := by
  have hserve : serviceTiles t = serviceTiles s := List.filter_congr fun i hi => by
    simp only [tileState, h Reg.LSV_TILESTS_MSTATE (by decide) i (List.mem_range.1 hi)]
  have htiles : tilesUp t = tilesUp s := congrArg List.length hserve
  have hrd {f : Field} (hf : f ∈ roomFields) : rd t f = rd s f := h f hf 0 (by decide)
  refine ⟨htiles, hserve, ?_, ?_⟩
  · simp only [sramRoom, htiles, hrd (f := Reg.HMX_SPLIT_SRAMHOST) (by decide)]
  · have hup : ddrUp t = ddrUp s := by
      simp only [ddrUp, rdB, hrd (f := Reg.HMX_DDRCFG_DRAM) (by decide), hrd (f := Reg.HMX_DDRSTS_CH0) (by decide),
        hrd (f := Reg.HMX_DDRSTS_CH1) (by decide)]
    simp only [ddrRoom, hup, hrd (f := Reg.HMX_SPLIT_DDRWS) (by decide), hrd (f := Reg.HMX_DDRSTS_SIZE) (by decide)]

/-- The place of a job that uses no handle's content depends on the room alone. -/
theorem placeJob_congr {s t : State} (h : ∀ f ∈ roomFields, ∀ i < 16, rd t f i = rd s f i) (d : List Byte)
    (cs homes : List (List Nat)) : placeJob t d cs homes none = placeJob s d cs homes none := by
  obtain ⟨htiles, hserve, hsram, hddr⟩ := room_congr h
  simp only [placeJob, htiles, hserve, hsram, hddr, h Reg.HMX_SPLIT_SRAMHOST (by decide) 0 (by decide),
    Option.map_none, Option.bind_none, Option.getD_none, ite_self, Option.isSome_none, Bool.false_eq_true,
    and_false, if_false]

/-- The state in which the handle a job is to save is invalid, when that is done ahead of its placement (R140). -/
def handleSpared (c : Bool) (s : State) (n : Nat) : State := if c then dropHandle s n else s

theorem HandleBlind.handleSpared {β : Type} {p : State → β} (h : HandleBlind p) (c : Bool) (s : State) {n : Nat}
    (hn : n < 256) : p (handleSpared c s n) = p s := ite_keeps (h.dropHandle hn s) rfl

theorem room_handleSpared (c : Bool) (s : State) {n : Nat} (hn : n < 256) :
    ∀ f ∈ roomFields, ∀ i < 16, rd (handleSpared c s n) f i = rd s f i := fun f hf i hi =>
  have hids : ∀ f ∈ roomFields, ∀ g ∈ handleFields, f.id ≠ g.id := by decide
  (handleBlind_rd (hids f hf) (by omega)).handleSpared c s hn

/-! ### The start -/

/-- FREE: its handle is invalidated, and it ends DONE (R139). -/
theorem startJob_free {j : Job} (h : dKind j.desc = 7) (part : State → Job → State) (s : State) (o : JobOperands) :
    startJob part s j o = stopJob (dropHandle s (dHandle j.desc)) j CC.done 0 := if_pos h

/-- A linear job as it runs from a state on, with no warm start: its fingerprint, its operands, its ordering and its
placement. -/
def startedJob (s : State) (j : Job) (fp : BitVec 64) (data : JobData) (order : List Nat) (sr dd : Nat) (ddr : Bool)
    (tiles : List Nat) : Job :=
  { j with running := true, startNs := s.tb.now, ext := [], fprint := fp, data := data, warmRej := false, warm := none,
           order := order, ddr := ddr, sramKib := sr, ddrKib := dd, tiles := tiles }

/-- A linear job that passes its checks and finds room runs, once its handle is invalidated and others have made
room. -/
theorem startJob_linear {part : State → Job → State} {s u : State} {j : Job} {o : JobOperands} {data : JobData}
    {fp : BitVec 64} {order : List Nat} {cs : List (List Nat)} {sr dd : Nat} {ddr : Bool} {tiles : List Nat}
    (hkind : dKind j.desc < 5) (hload : loadLinear s o j.desc = (data, u)) (hfp : fp = fingerprint j.desc [] data)
    (hok : operandsBad j.desc [] data fp = none) (hcold : dUseH j.desc = false)
    (horder : order = jobOrder j.desc [] data) (hcs : cs = jobStructs j.desc [] data order)
    (hplace : placeJob u j.desc cs (frontHomes j.desc [] data order cs (tilesUp u)) none = some (sr, dd, ddr, tiles)) :
    ∃ v, startJob part s j o = putJob v (startedJob s j fp data order sr dd ddr tiles) ∧
      ∀ {β : Type} {p : State → β}, HandleBlind p → p v = p u := by
  have hqp : isQp j.desc = false := by
    have h5 : dKind j.desc ≠ 5 := by omega
    have h6 : dKind j.desc ≠ 6 := by omega
    simp [isQp, h5, h6]
  have hn := dHandle_lt j.desc
  have hroom := room_handleSpared (dSaveH j.desc && decide (dKind j.desc = 1)) u hn
  have hplace' := (placeJob_congr hroom j.desc cs (frontHomes j.desc [] data order cs (tilesUp u))).trans hplace
  rw [← (room_congr hroom).1] at hplace'
  subst hfp horder hcs
  unfold startJob
  simp only [handleSpared] at hplace'
  simp only [if_neg (show ¬dKind j.desc = 7 by omega), hqp, Bool.false_eq_true, if_false, Bool.false_and, hload, hok,
    hcold, Bool.or_self, ite_self, hplace']
  refine ⟨_, rfl, fun h => ?_⟩
  refine (ite_keeps (h.dropHandle hn _) rfl).trans ?_
  rw [h.evict, h.evict]
  exact h.handleSpared _ _ hn

end Sys2Proof.Machine
end

section
/-! SUPPORT. The queue of the Lattice Solver (R127 to R131, R139, R148, R152, R154): a job fetched, started, completed,
out of budget and cancelled. -/

namespace Sys2Proof.Machine

theorem rd_depth_setHeld (s : State) {l : List Job} (h : l.length < 128) :
    rd (setHeld s l) Reg.LSV_QSTS_DEPTH = l.length :=
  (rd_wr_ne (by decide) _ _).trans <| (rd_wr_same _ Reg.LSV_QSTS_DEPTH 0 _).trans (Nat.mod_eq_of_lt h)

/-! ### Fetching (R127) -/

/-- The state with the host's read index as a fetch sees it. -/
def cqReadSeen (s : State) (v : BitVec 32) : State :=
  { s with lsv := { s.lsv with cqRead := v.toNat % 2 ^ rd s Reg.LSV_RINGCFG_CQLOG } }

/-- The state in which the descriptor at `next` has been taken. -/
def descTaken (s : State) (v : BitVec 32) : State :=
  { cqReadSeen s v with lsv := { (cqReadSeen s v).lsv with next := (s.lsv.next + 1) % 2 ^ rd s Reg.LSV_RINGCFG_SQLOG } }

section

variable {s : State} {d : List Byte} {v : BitVec 32} (hen : rdB s Reg.LSV_RINGCFG_EN = true) (hruns : lsvRuns s = true)
  (hnew : s.lsv.next ≠ s.lsv.sqHead) (hfree : 0 < cqFree (cqReadSeen s v))
include hen hruns hnew hfree

/-- Fetching is due: nothing holds the descriptor back. -/
theorem fetch_due : ¬(!(rdB (cqReadSeen s v) Reg.LSV_RINGCFG_EN && lsvRuns (cqReadSeen s v) &&
    (cqReadSeen s v).lsv.next != (cqReadSeen s v).lsv.sqHead && decide (0 < cqFree (cqReadSeen s v)))) = true := by
  have hen' : rdB (cqReadSeen s v) Reg.LSV_RINGCFG_EN = true := hen
  have hruns' : lsvRuns (cqReadSeen s v) = true := hruns
  have hnew' : (cqReadSeen s v).lsv.next ≠ (cqReadSeen s v).lsv.sqHead := hnew
  simp [hen', hruns', hnew', hfree]

theorem fetchDesc_of_bad (hbad : descBad d = true) : ∃ entry,
    fetchDesc s d v = writeEntry (setPerf (descTaken s v) 0 0) s.lsv.next entry :=
  ⟨_, (if_neg (fetch_due hen hruns hnew hfree)).trans (if_pos hbad)⟩

theorem fetchDesc_of_sound (hsound : descBad d = false) (hroom : s.lsv.held.length < 64) (htiles : tilesUp s ≠ 0) :
    fetchDesc s d v = setHeld (descTaken s v) (s.lsv.held ++ [newJob d s.lsv.next]) :=
  (if_neg (fetch_due hen hruns hnew hfree)).trans <| (if_neg (by simp [hsound])).trans <|
    (if_neg (Nat.not_le.2 hroom)).trans (if_neg htiles)

/-- A sound descriptor is held as a job, behind those before it. -/
theorem descriptorFetch_sound (hsound : descBad d = false) (hroom : s.lsv.held.length < 64) (htiles : tilesUp s ≠ 0) :
    Completes (exec (.descriptorFetch d v) s) fun t =>
      t.lsv.held = s.lsv.held ++ [newJob d s.lsv.next] ∧ rd t Reg.LSV_QSTS_DEPTH = s.lsv.held.length + 1 ∧
      t.lsv.next = (s.lsv.next + 1) % 2 ^ rd s Reg.LSV_RINGCFG_SQLOG ∧ t.out = s.out := by
  refine ⟨_, congrArg Host.Outcome.next (fetchDesc_of_sound hen hruns hnew hfree hsound hroom htiles), rfl, ?_, rfl,
    rfl⟩
  rw [rd_depth_setHeld _ (by simp; omega)]
  simp

/-- A descriptor that fails its checks is reported, and not held. -/
theorem descriptorFetch_bad (hbad : descBad d = true) :
    Completes (exec (.descriptorFetch d v) s) fun t =>
      t.lsv.held = s.lsv.held ∧ t.lsv.cqTail = (s.lsv.cqTail + 1) % 2 ^ rd s Reg.LSV_RINGCFG_CQLOG := by
  obtain ⟨entry, heq⟩ := fetchDesc_of_bad hen hruns hnew hfree hbad
  have hperf := queueView_setPerf (descTaken s v) 0 0
  have hview := queueView_writeEntry (setPerf (descTaken s v) 0 0) s.lsv.next entry
  rw [hperf, cqSize_of_queueView (s := descTaken s v) (by rw [hperf])] at hview
  exact ⟨_, congrArg Host.Outcome.next heq, congrArg QueueView.held hview, congrArg QueueView.tail hview⟩

end

/-! ### Starting (R131, R139, R148) -/

theorem mem_of_nextJob {l : List Job} {j : Job} (h : nextJob l = some j) : j ∈ l := by
  obtain ⟨_, -, hfind⟩ := List.exists_of_findSome?_eq_some h
  exact List.mem_of_find?_eq_some hfind

section

variable {s : State} {j : Job} {o : JobOperands} (hruns : lsvRuns s = true) (hidle : s.lsv.held.any (·.running) = false)
  (hnext : nextJob s.lsv.held = some j)
include hruns hidle hnext

theorem exec_jobStart : exec (.jobStart o) s = .next (startJob partStart s j o) := by
  show execJobStart o s = _
  simp only [execJobStart, hruns, hidle, hnext, Bool.not_false, Bool.and_self, if_true]

/-- A FREE ends as it starts, and leaves its handle invalid. -/
theorem jobStart_free (hkind : dKind j.desc = 7) : Completes (exec (.jobStart o) s) fun t =>
    rd t Reg.LSV_HANDLE0_VALID (dHandle j.desc) = 0 ∧ t.lsv.held = s.lsv.held.filter (·.index ≠ j.index) := by
  have hn := dHandle_lt j.desc
  refine ⟨_, (exec_jobStart hruns hidle hnext).trans (congrArg Host.Outcome.next (startJob_free hkind _ s o)), ?_, ?_⟩
  · rw [rd_stopJob (by decide) (by omega)]
    exact rd_dropHandle_same (by decide) s _
  · rw [held_stopJob]
    exact congrArg (List.filter (·.index ≠ j.index)) (handleBlind_held.dropHandle hn s)

/-- A linear job without a warm start runs where it is placed. -/
theorem jobStart_linear {u : State} {data : JobData} {fp : BitVec 64} {order : List Nat} {cs : List (List Nat)}
    {sr dd : Nat} {ddr : Bool} {tiles : List Nat} (hkind : dKind j.desc < 5) (hload : loadLinear s o j.desc = (data, u))
    (hfp : fp = fingerprint j.desc [] data) (hok : operandsBad j.desc [] data fp = none) (hcold : dUseH j.desc = false)
    (horder : order = jobOrder j.desc [] data) (hcs : cs = jobStructs j.desc [] data order)
    (hplace : placeJob u j.desc cs (frontHomes j.desc [] data order cs (tilesUp u)) none = some (sr, dd, ddr, tiles)) :
    Completes (exec (.jobStart o) s) fun t =>
      t.lsv.held = (s.lsv.held.map fun k =>
        if k.index = j.index then startedJob s j fp data order sr dd ddr tiles else k) ∧
      t.out = s.out := by
  obtain ⟨v, hstart, hkeeps⟩ :=
    startJob_linear (part := partStart) hkind hload hfp hok hcold horder hcs hplace
  have hmoved : FreeMoved s u := .of_eq hload (loadLinear_moved s o j.desc)
  have hheld : v.lsv.held = s.lsv.held := (hkeeps handleBlind_held).trans (congrArg (·.lsv.held) hmoved)
  have hout : v.out = s.out := (hkeeps handleBlind_out).trans (congrArg (·.out) hmoved)
  refine ⟨_, (exec_jobStart hruns hidle hnext).trans (congrArg Host.Outcome.next hstart), ?_, hout⟩
  exact congrArg (List.map _) hheld

end

/-! ### Completing (R150, R152) -/

/-- The jobs held, the performance counters and the completion ring after the end of a job. -/
theorem finishJob_effect (s : State) (j : Job) (e : JobEnd) (o : JobObs) :
    (finishJob s j e o).lsv.held = s.lsv.held.filter (·.index ≠ j.index) ∧ (finishJob s j e o).lsv.flop = o.flop ∧
      (finishJob s j e o).lsv.cyc = o.cyc ∧ (finishJob s j e o).lsv.cqTail = (s.lsv.cqTail + 1) % cqSize s := by
  unfold finishJob
  extract_lets ok a b c save d posts el w e'
  have ha : solverView a = solverView s := ite_keeps (solverView_deviceWrite _ _ _) rfl
  have hb : solverView b = solverView s := by
    refine Eq.trans ?_ ha
    simp only [b]
    split
    · exact ite_keeps (solverView_deviceWrite _ _ _) rfl
    · rfl
  have hc : solverView c = solverView s := (solverView_writeReport b j e).trans hb
  have hd {β : Type} {p : State → β} (h : HandleBlind p) : p d = p c := ite_keeps (h.saveHandle c j _) rfl
  have hw : solverView w = solverView d := ite_keeps (solverView_submit _ _ _ _ _) rfl
  have hheld : w.lsv.held = s.lsv.held := (congrArg (·.lsv.held) hw).trans <|
    (hd handleBlind_held).trans (congrArg (·.lsv.held) hc)
  have htail : w.lsv.cqTail = s.lsv.cqTail := (congrArg (·.lsv.cqTail) hw).trans <|
    (hd handleBlind_tail).trans (congrArg (·.lsv.cqTail) hc)
  have hlog : rd w Reg.LSV_RINGCFG_CQLOG = rd s Reg.LSV_RINGCFG_CQLOG := (rd_of_solverView hw _ _).trans <|
    (hd (handleBlind_rd (by decide) (by decide))).trans (rd_of_solverView hc _ _)
  have hperf := queueView_setPerf w o.flop o.cyc
  have hview := queueView_closeJob (setPerf w o.flop o.cyc) j e' false
  rw [hperf, cqSize_of_queueView (s := w) (by rw [hperf])] at hview
  rw [← hheld, ← htail, cqSize, ← hlog]
  exact ⟨congrArg QueueView.held hview, congrArg QueueView.flop hview, congrArg QueueView.cyc hview,
    congrArg QueueView.tail hview⟩

/-- A job that is no part of a partitioned solve, is within its budget and is not cancelled ends with its outcome. -/
theorem exec_jobComplete {s : State} {j : Job} {o : JobObs} (hrun : runningJob s = some j)
    (hown : (isQp j.desc && xMember j.ext) = false) (hcancel : j.cancel = false)
    (hbudget : dBudget j.desc = 0 ∨ runTime (advance s o.at_) j < dBudget j.desc) :
    exec (.jobComplete o) s = .next (finishJob (advance s o.at_) j (jobEnd j) o) := by
  have hshared : sharedSolve (advance s o.at_) j = false := by simp [sharedSolve, hown]
  have hlate : (dBudget j.desc != 0 && decide (dBudget j.desc ≤ runTime (advance s o.at_) j)) = false := by
    simpa [or_iff_not_imp_left] using hbudget
  show execJobComplete o s = _
  simp only [execJobComplete, hrun, hshared, completeJob, hlate, hcancel, tellParts_alone hown, ite_self,
    Bool.not_false, if_true, Bool.false_and, Bool.false_eq_true, if_false]

/-- A job that reaches its budget ends, and is held no longer. -/
theorem jobBudgetExpiry_effect {s : State} {j : Job} {us : Nat} (hrun : runningJob s = some j)
    (hset : dBudget j.desc ≠ 0) (hover : dBudget j.desc ≤ runTime (advance s (j.startNs + us * 1000)) j) :
    Completes (exec (.jobBudgetExpiry us) s) fun t => t.lsv.held = s.lsv.held.filter (·.index ≠ j.index) := by
  refine ⟨stopJob (advance s (j.startNs + us * 1000)) j CC.failBudget 0, ?_, held_stopJob _ _ _ _⟩
  show execJobBudgetExpiry us s = _
  simp [execJobBudgetExpiry, hrun, hset, hover]

/-! ### Cancelling (R154) -/

theorem cancelEnd_reads (s : State) (code rsn : Nat) :
    rd (cancelEnd s code rsn) Reg.LSV_CANCELSTS_CC = code % 256 ∧
      rd (cancelEnd s code rsn) Reg.LSV_CANCELSTS_RSN = rsn % 256 ∧
      rd (cancelEnd s code rsn) Reg.LSV_CANCELSTS_PEND = 0 :=
  setStatus_reads s code rsn (by decide) (by decide) (by decide)

/-- The held jobs of a tag. -/
def taggedJobs (s : State) (tag : Nat) : List Job := s.lsv.held.filter fun j => dTag j.desc = tag

/-- The end of each job of a list by a cancel, in their order. -/
def stopCancelled (s : State) (l : List Job) : State := l.foldl (fun s j => stopJob s j CC.failCancelled 0) s

section

variable {s : State} {tag : Nat} (hpend : rdB s Reg.LSV_CANCELSTS_PEND = false) (hmode : modeIs s ≠ .test)
  (htag : tag = rd s Reg.LSV_CANCEL_LO_TAG + 2 ^ 32 * rd s Reg.LSV_CANCEL_HI_TAG)
include hpend hmode htag

/-- A cancel that meets queued jobs alone ends with them, and one that meets none is refused. -/
theorem exec_cancelJob_queued (hq : ∀ j ∈ taggedJobs s tag, j.running = false) :
    exec .cancelJob s = .next
      (if (taggedJobs s tag).isEmpty then cancelEnd (stopCancelled s (taggedJobs s tag)) CC.failRefused Rsn.noJob
        else cancelEnd (stopCancelled s (taggedJobs s tag)) CC.done 0) := by
  have htag' : rd64 s Reg.LSV_CANCEL_LO_TAG Reg.LSV_CANCEL_HI_TAG = tag := htag.symm
  have hqueued : (taggedJobs s tag).filter (fun j => !j.running) = taggedJobs s tag :=
    List.filter_eq_self.2 fun j hj => by simp [hq j hj]
  have hnone : (taggedJobs s tag).find? (·.running) = none := List.find?_eq_none.2 fun j hj => by simp [hq j hj]
  refine congrArg Host.Outcome.next ((if_neg (by simp [hpend])).trans ((if_neg hmode).trans ?_))
  simp only [taggedJobs] at hqueued hnone
  simp only [htag', hqueued, hnone]
  rfl

/-- A cancel that meets the running job waits for its outcome. -/
theorem exec_cancelJob_running {j : Job} (hheld : s.lsv.held = [j]) (hrun : j.running = true)
    (hj : dTag j.desc = tag) : exec .cancelJob s = .next
      (wr (putJob { s with lsv := { s.lsv with cancel := some false } } { j with cancel := true })
        Reg.LSV_CANCELSTS_PEND 1) := by
  subst htag
  refine congrArg Host.Outcome.next ((if_neg (by simp [hpend])).trans ((if_neg hmode).trans ?_))
  simp [rd64, hheld, hj, hrun]

/-- The cancel of queued jobs alone: none of its tag is held any longer. -/
theorem cancelJob_queued (hq : ∀ j ∈ s.lsv.held, dTag j.desc = tag → j.running = false) :
    Completes (exec .cancelJob s) fun t =>
      (∀ j ∈ t.lsv.held, j ∈ s.lsv.held ∧ dTag j.desc ≠ tag) ∧ rd t Reg.LSV_CANCELSTS_PEND = 0 ∧
      (if ∃ j ∈ s.lsv.held, dTag j.desc = tag then rd t Reg.LSV_CANCELSTS_CC = CC.done ∧ rd t Reg.LSV_CANCELSTS_RSN = 0
        else rd t Reg.LSV_CANCELSTS_CC = CC.failRefused ∧ rd t Reg.LSV_CANCELSTS_RSN = Rsn.noJob ∧
          t.lsv.held = s.lsv.held) := by
  have hmem {j : Job} : j ∈ taggedJobs s tag ↔ j ∈ s.lsv.held ∧ dTag j.desc = tag := by simp [taggedJobs]
  have hnext := exec_cancelJob_queued hpend hmode htag fun j hj => hq j (hmem.1 hj).1 (hmem.1 hj).2
  have hrest : ∀ j ∈ (stopCancelled s (taggedJobs s tag)).lsv.held, j ∈ s.lsv.held ∧ dTag j.desc ≠ tag := by
    intro j hj
    rw [stopCancelled, held_foldl_stopJob, List.mem_filter, decide_eq_true_iff] at hj
    exact ⟨hj.1, fun h => hj.2 j (hmem.2 ⟨hj.1, h⟩) rfl⟩
  refine ⟨_, hnext, ?_⟩
  by_cases hany : ∃ j ∈ s.lsv.held, dTag j.desc = tag
  · have hne : ¬(taggedJobs s tag).isEmpty = true := by
      obtain ⟨j, hj⟩ := hany
      simpa using List.ne_nil_of_mem (hmem.2 hj)
    rw [if_neg hne]
    obtain ⟨hcc, hrsn, hpend⟩ := cancelEnd_reads (stopCancelled s (taggedJobs s tag)) CC.done 0
    refine ⟨hrest, hpend, ?_⟩
    rw [if_pos hany]
    exact ⟨hcc, hrsn⟩
  · have hnil : taggedJobs s tag = [] := List.eq_nil_iff_forall_not_mem.2 fun j hj => hany ⟨j, hmem.1 hj⟩
    rw [hnil] at hrest ⊢
    rw [if_pos List.isEmpty_nil]
    obtain ⟨hcc, hrsn, hpend⟩ := cancelEnd_reads s CC.failRefused Rsn.noJob
    refine ⟨hrest, hpend, ?_⟩
    rw [if_neg hany]
    exact ⟨hcc, hrsn, rfl⟩

/-- The cancel of the one job, which runs: the command waits for its outcome. -/
theorem cancelJob_running {j : Job} (hheld : s.lsv.held = [j]) (hrun : j.running = true) (hj : dTag j.desc = tag) :
    Completes (exec .cancelJob s) fun t => rd t Reg.LSV_CANCELSTS_PEND = 1 ∧
      t.lsv.held = [{ j with cancel := true }] ∧ t.lsv.cancel = some false := by
  refine ⟨_, exec_cancelJob_running hpend hmode htag hheld hrun hj, rd_wr_same _ Reg.LSV_CANCELSTS_PEND 0 1, ?_, rfl⟩
  show s.lsv.held.map _ = _
  simp [hheld]

end

/-! ### The life of a job -/

/-- Settles O34: each command by what it makes of the queue; a start by the placement, on which the handle it spares has
no bearing, and an end by the view of the queue after it. -/
theorem solverJobs : Obligations.SolverJobs := by
  intro s
  refine ⟨fun v hen => congrArg Host.Outcome.next (if_pos hen), ?_, ?_, ?_, fun j us hrun hset hover =>
    jobBudgetExpiry_effect hrun hset hover, fun hpend hmode tag htag => ⟨cancelJob_queued hpend hmode htag,
    fun j hheld hrun hj => cancelJob_running hpend hmode htag hheld hrun hj⟩⟩
  · rintro d v s' rfl hen hruns hnew hfree
    exact ⟨descriptorFetch_sound hen hruns hnew hfree, descriptorFetch_bad hen hruns hnew hfree⟩
  · intro j o hruns hidle hnext
    refine ⟨fun hkind _ => jobStart_free hruns hidle hnext hkind, ?_⟩
    intro data s' fp order cs sr dd ddr tiles hkind hload hfp hok hcold horder hcs hplace
    exact jobStart_linear hruns hidle hnext hkind hload hfp hok hcold horder hcs hplace
  · intro j o hrun hown hcancel hbudget
    obtain ⟨hheld, hflop, hcyc, htail⟩ := finishJob_effect (advance s o.at_) j (jobEnd j) o
    exact ⟨_, exec_jobComplete hrun hown hcancel hbudget, rfl, hheld, hflop, hcyc, htail⟩

end Sys2Proof.Machine
end

section
/-! SUPPORT. The submission ring and the split (R129, R157, R292, Tables 6.12, 12.7): a configuration taken and one
refused. -/

namespace Sys2Proof.Machine

/-! ### The ring (R129, R157) -/

/-- A write of a set bit 15 clears BADCFG. -/
def ringBadcfgCleared (s : State) (v : BitVec 32) : State :=
  if bitsOf v.toNat 15 1 = 1 then wr s Reg.LSV_RINGCFG_BADCFG 0 else s

theorem ringBadcfgCleared_onlyFields (s : State) (v : BitVec 32) :
    OnlyFields s (ringBadcfgCleared s v) [(Reg.LSV_RINGCFG_BADCFG, 0)] := by
  unfold ringBadcfgCleared
  split
  · exact ⟨rfl, fieldsBut_wr (by simp) s 0⟩
  · exact ⟨rfl, fun _ _ _ => rfl⟩

theorem ringDisable_effect (s : State) (v : BitVec 32) : Completes (exec (.ringDisable v) s) fun t =>
    rd t Reg.LSV_RINGCFG_EN = 0 ∧ t.lsv = s.lsv ∧
      OnlyFields s t [(Reg.LSV_RINGCFG_EN, 0), (Reg.LSV_RINGCFG_BADCFG, 0)] := by
  obtain ⟨hrest, hfields⟩ := ringBadcfgCleared_onlyFields s v
  refine ⟨wr (ringBadcfgCleared s v) Reg.LSV_RINGCFG_EN 0, rfl, rd_wr_same _ Reg.LSV_RINGCFG_EN 0 0,
    congrArg (·.lsv) hrest, hrest, ?_⟩
  exact (hfields.mono (by simp)).trans (fieldsBut_wr (by simp) _ 0)

/-- The state with the sizes and the vector that a write of the ring's configuration gives. -/
def ringSized (s : State) (v : BitVec 32) : State :=
  wr (wr (wr (ringBadcfgCleared s v) Reg.LSV_RINGCFG_SQLOG (bitsOf v.toNat 1 4)) Reg.LSV_RINGCFG_CQLOG
    (bitsOf v.toNat 5 4)) Reg.LSV_RINGCFG_VEC (bitsOf v.toNat 9 6)

theorem ringSized_rest (s : State) (v : BitVec 32) : { ringSized s v with flds := s.flds } = s :=
  (ringBadcfgCleared_onlyFields s v).1

theorem ringSized_sqlog (s : State) (v : BitVec 32) :
    rd (ringSized s v) Reg.LSV_RINGCFG_SQLOG = v.toNat / 2 % 16 :=
  (rd_wr_ne (by decide) _ _).trans <| (rd_wr_ne (by decide) _ _).trans <|
    (rd_wr_same _ Reg.LSV_RINGCFG_SQLOG 0 _).trans (Nat.mod_mod _ 16)

theorem ringSized_cqlog (s : State) (v : BitVec 32) :
    rd (ringSized s v) Reg.LSV_RINGCFG_CQLOG = v.toNat / 32 % 16 :=
  (rd_wr_ne (by decide) _ _).trans <| (rd_wr_same _ Reg.LSV_RINGCFG_CQLOG 0 _).trans (Nat.mod_mod _ 16)

/-- A register behind the ring's configuration in the table is left by it. -/
theorem rd_ringSized {f : Field} (h : Reg.LSV_RINGCFG_BADCFG.id < f.id) (s : State) (v : BitVec 32) :
    rd (ringSized s v) f = rd s f := by
  have hne : f.key 0 ≠ Reg.LSV_RINGCFG_BADCFG.key 0 := by simp only [Field.key]; omega
  rw [ringSized, rd_wr_of_id_lt (lt_trans (by decide) h), rd_wr_of_id_lt (lt_trans (by decide) h),
    rd_wr_of_id_lt (lt_trans (by decide) h)]
  exact (ringBadcfgCleared_onlyFields s v).2 f 0 (by simpa using hne)

theorem rd64_ringSized {lo hi : Field} (hlo : Reg.LSV_RINGCFG_BADCFG.id < lo.id)
    (hhi : Reg.LSV_RINGCFG_BADCFG.id < hi.id) (s : State) (v : BitVec 32) : rd64 (ringSized s v) lo hi = rd64 s lo hi := by
  simp only [rd64, rd_ringSized hlo, rd_ringSized hhi]

/-- The state in which the ring has been enabled with the host's indices and no job held. -/
def ringStarted (s : State) (sqDone sqHead cqTail cqRead : BitVec 32) : State :=
  let t := wr s Reg.LSV_RINGCFG_EN 1
  { t with lsv := { t.lsv with sqDone := sqDone.toNat % sqSize t, sqHead := sqHead.toNat % sqSize t,
                               cqTail := cqTail.toNat % cqSize t, cqRead := cqRead.toNat % cqSize t,
                               next := sqDone.toNat % sqSize t, reported := [] } }

/-- A sound configuration of a ring that is off, with no job held and nothing left by a reset, enables it. -/
theorem ringEnable_of_sound {s : State} {v sqDone sqHead cqTail cqRead : BitVec 32} {sl cl : Nat}
    (hoff : rdB s Reg.LSV_RINGCFG_EN = false) (hheld : s.lsv.held = []) (hen : v.toNat % 2 = 1)
    (hsl : sl = v.toNat / 2 % 16) (hcl : cl = v.toNat / 32 % 16) (hmin : 6 ≤ sl) (hle : sl ≤ cl) (hmax : cl ≤ 12)
    (hsq : rd64 s Reg.LSV_SQBASE_LO_SQBASE Reg.LSV_SQBASE_HI_SQBASE % 4096 = 0)
    (hcq : rd64 s Reg.LSV_CQBASE_LO_CQBASE Reg.LSV_CQBASE_HI_CQBASE % 4096 = 0)
    (hctl : rd64 s Reg.LSV_CTLADDR_LO_CTLADDR Reg.LSV_CTLADDR_HI_CTLADDR % 64 = 0) (hleft : s.hmx.left[4] = none)
    (left : List LeftDesc) :
    ringEnable s v sqDone sqHead cqTail cqRead left =
      wr (takeLeft (ringStarted (ringSized s v) sqDone sqHead cqTail cqRead) 4).2 Reg.LSV_QSTS_RECOVERED 1 := by
  have hsize : rd (ringSized s v) Reg.LSV_RINGCFG_SQLOG = sl ∧ rd (ringSized s v) Reg.LSV_RINGCFG_CQLOG = cl :=
    ⟨hsl ▸ ringSized_sqlog s v, hcl ▸ ringSized_cqlog s v⟩
  have hbase : rd64 (ringSized s v) Reg.LSV_SQBASE_LO_SQBASE Reg.LSV_SQBASE_HI_SQBASE % 4096 = 0 ∧
      rd64 (ringSized s v) Reg.LSV_CQBASE_LO_CQBASE Reg.LSV_CQBASE_HI_CQBASE % 4096 = 0 ∧
      rd64 (ringSized s v) Reg.LSV_CTLADDR_LO_CTLADDR Reg.LSV_CTLADDR_HI_CTLADDR % 64 = 0 := by
    rw [rd64_ringSized (by decide) (by decide), rd64_ringSized (by decide) (by decide),
      rd64_ringSized (by decide) (by decide)]
    exact ⟨hsq, hcq, hctl⟩
  have hlsv : (ringSized s v).lsv = s.lsv := congrArg (·.lsv) (ringSized_rest s v)
  have hhmx : (ringSized s v).hmx = s.hmx := congrArg (·.hmx) (ringSized_rest s v)
  have hcleared : (ringBadcfgCleared s v).lsv = s.lsv := congrArg (·.lsv) (ringBadcfgCleared_onlyFields s v).1
  unfold ringEnable
  extract_lets x was a b sl' cl' mis t n c _ w
  have hb : b = ringSized s v := if_pos (by simp [was, hoff, show a.lsv = s.lsv from hcleared, hheld])
  clear_value b
  subst hb
  have hgo : ¬(was || decide (x % 2 = 0)) = true := by simp [was, hoff, x, hen]
  have hok : ¬(sl' < 6 ∨ 12 < sl' ∨ cl' < 6 ∨ 12 < cl' ∨ cl' < sl' ∨
      mis Reg.LSV_SQBASE_LO_SQBASE Reg.LSV_SQBASE_HI_SQBASE 4096 = true ∨
      mis Reg.LSV_CQBASE_LO_CQBASE Reg.LSV_CQBASE_HI_CQBASE 4096 = true ∨
      mis Reg.LSV_CTLADDR_LO_CTLADDR Reg.LSV_CTLADDR_HI_CTLADDR 64 = true) := by
    simp only [sl', cl', mis, hsize.1, hsize.2, hbase.1, hbase.2.1, hbase.2.2, bne_self_eq_false, Bool.false_eq_true,
      or_false]
    omega
  have hw : w = ringStarted (ringSized s v) sqDone sqHead cqTail cqRead :=
    if_pos (by simp [t, hlsv, hheld])
  have hnone : (takeLeft w 4).1 = none := by
    rw [hw]
    exact (congrArg (·.left[4]) hhmx).trans hleft
  rw [if_neg hgo, if_neg hok, ← hw]
  split
  next o u htake =>
  rw [htake] at hnone ⊢
  obtain rfl : o = none := hnone
  rfl

/-- An enabled ring has the sizes written and takes its indices from the host, modulo its sizes (R126). -/
theorem ringEnable_effect {s : State} {v sqDone sqHead cqTail cqRead : BitVec 32} {left : List LeftDesc} {sl cl : Nat}
    (hoff : rdB s Reg.LSV_RINGCFG_EN = false) (hheld : s.lsv.held = []) (hen : v.toNat % 2 = 1)
    (hsl : sl = v.toNat / 2 % 16) (hcl : cl = v.toNat / 32 % 16) (hmin : 6 ≤ sl) (hle : sl ≤ cl) (hmax : cl ≤ 12)
    (hsq : rd64 s Reg.LSV_SQBASE_LO_SQBASE Reg.LSV_SQBASE_HI_SQBASE % 4096 = 0)
    (hcq : rd64 s Reg.LSV_CQBASE_LO_CQBASE Reg.LSV_CQBASE_HI_CQBASE % 4096 = 0)
    (hctl : rd64 s Reg.LSV_CTLADDR_LO_CTLADDR Reg.LSV_CTLADDR_HI_CTLADDR % 64 = 0) (hleft : s.hmx.left[4] = none) :
    Completes (exec (.ringEnable v sqDone sqHead cqTail cqRead left) s) fun t =>
      rd t Reg.LSV_RINGCFG_EN = 1 ∧ rd t Reg.LSV_RINGCFG_SQLOG = sl ∧ rd t Reg.LSV_RINGCFG_CQLOG = cl ∧
      rd t Reg.LSV_QSTS_RECOVERED = 1 ∧ t.lsv.sqDone = sqDone.toNat % 2 ^ sl ∧ t.lsv.next = sqDone.toNat % 2 ^ sl ∧
      t.lsv.sqHead = sqHead.toNat % 2 ^ sl ∧ t.lsv.cqTail = cqTail.toNat % 2 ^ cl ∧
      t.lsv.cqRead = cqRead.toNat % 2 ^ cl ∧ t.lsv.reported = [] := by
  have hslog : rd (wr (ringSized s v) Reg.LSV_RINGCFG_EN 1) Reg.LSV_RINGCFG_SQLOG = sl :=
    (rd_wr_ne (by decide) _ _).trans (hsl ▸ ringSized_sqlog s v)
  have hclog : rd (wr (ringSized s v) Reg.LSV_RINGCFG_EN 1) Reg.LSV_RINGCFG_CQLOG = cl :=
    (rd_wr_ne (by decide) _ _).trans (hcl ▸ ringSized_cqlog s v)
  have hsqs (b : BitVec 32) : b.toNat % sqSize (wr (ringSized s v) Reg.LSV_RINGCFG_EN 1) = b.toNat % 2 ^ sl :=
    congrArg (fun n => b.toNat % 2 ^ n) hslog
  have hcqs (b : BitVec 32) : b.toNat % cqSize (wr (ringSized s v) Reg.LSV_RINGCFG_EN 1) = b.toNat % 2 ^ cl :=
    congrArg (fun n => b.toNat % 2 ^ n) hclog
  exact ⟨_, congrArg Host.Outcome.next
      (ringEnable_of_sound hoff hheld hen hsl hcl hmin hle hmax hsq hcq hctl hleft left),
    (rd_wr_ne (by decide) _ _).trans (rd_wr_same (ringSized s v) Reg.LSV_RINGCFG_EN 0 1),
    (rd_wr_ne (by decide) _ _).trans hslog, (rd_wr_ne (by decide) _ _).trans hclog,
    rd_wr_same _ Reg.LSV_QSTS_RECOVERED 0 1, hsqs sqDone, hsqs sqDone, hsqs sqHead, hcqs cqTail, hcqs cqRead, rfl⟩

/-! ### The split (R292) -/

/-- A write of a set bit 22 clears BADCFG. -/
def splitBadcfgCleared (s : State) (v : BitVec 32) : State :=
  if bitsOf v.toNat 22 1 = 1 then wr s Reg.HMX_SPLIT_BADCFG 0 else s

theorem splitBadcfgCleared_onlyFields (s : State) (v : BitVec 32) :
    OnlyFields s (splitBadcfgCleared s v) [(Reg.HMX_SPLIT_BADCFG, 0)] := by
  unfold splitBadcfgCleared
  split
  · exact ⟨rfl, fieldsBut_wr (by simp) s 0⟩
  · exact ⟨rfl, fun _ _ _ => rfl⟩

theorem rd_splitBadcfgCleared {f : Field} (h : f.key 0 ≠ Reg.HMX_SPLIT_BADCFG.key 0) (s : State) (v : BitVec 32) :
    rd (splitBadcfgCleared s v) f = rd s f := (splitBadcfgCleared_onlyFields s v).2 f 0 (by simpa using h)

/-- What refuses a write of the split. -/
def splitRefused (s : State) (v : BitVec 32) : Prop :=
  rdB s Reg.LSV_RINGCFG_EN = true ∨ rd s Reg.LSV_QSTS_DEPTH ≠ 0 ∨ 3584 < v.toNat % 4096 ∨ v.toNat % 4096 % 64 ≠ 0

/-- The test of a write of the split, on the state with BADCFG cleared. -/
theorem split_test_iff (s : State) (v : BitVec 32) :
    (rdB (splitBadcfgCleared s v) Reg.LSV_RINGCFG_EN || rd (splitBadcfgCleared s v) Reg.LSV_QSTS_DEPTH != 0 ||
      decide (3584 < bitsOf v.toNat 0 12) || bitsOf v.toNat 0 12 % 64 != 0) = true ↔ splitRefused s v := by
  have hbits : bitsOf v.toNat 0 12 = v.toNat % 4096 := by simp [bitsOf]
  rw [rdB, rd_splitBadcfgCleared (by decide), rd_splitBadcfgCleared (by decide), hbits]
  simp [splitRefused, rdB, or_assoc]

theorem splitWrite_refused {s : State} {v : BitVec 32} (h : splitRefused s v) :
    Completes (exec (.splitWrite v) s) fun t => rd t Reg.HMX_SPLIT_BADCFG = 1 ∧
      OnlyFields s t [(Reg.HMX_SPLIT_BADCFG, 0)] := by
  obtain ⟨hrest, hfields⟩ := splitBadcfgCleared_onlyFields s v
  exact ⟨wr (splitBadcfgCleared s v) Reg.HMX_SPLIT_BADCFG 1,
    congrArg Host.Outcome.next (if_pos ((split_test_iff s v).2 h)), rd_wr_same _ Reg.HMX_SPLIT_BADCFG 0 1, hrest,
    hfields.trans (fieldsBut_wr (by simp) _ 1)⟩

/-- A field that is no handle's is left by dropping them all. -/
theorem rd_dropHandles {f : Field} (hf : ∀ g ∈ handleFields, f.id ≠ g.id) (s : State) :
    rd (dropHandles s) f = rd s f :=
  foldl_keeps_mem (fun t => rd t f)
    (fun n hn t => (handleBlind_rd hf (by decide)).dropHandle (lt_trans (List.mem_range.1 hn) (by decide)) t) s

/-- A split that is taken stands, and one that differs from the last invalidates every handle. -/
theorem splitWrite_taken {s : State} {v : BitVec 32} (h : ¬splitRefused s v) :
    Completes (exec (.splitWrite v) s) fun t =>
      rd t Reg.HMX_SPLIT_SRAMHOST = v.toNat % 4096 ∧ rd t Reg.HMX_SPLIT_DDRWS = v.toNat / 4096 % 1024 ∧
      (v.toNat % 4096 ≠ rd s Reg.HMX_SPLIT_SRAMHOST ∨ v.toNat / 4096 % 1024 ≠ rd s Reg.HMX_SPLIT_DDRWS →
        ∀ n < 32, rd t Reg.LSV_HANDLE0_VALID n = 0) := by
  have hsh : bitsOf v.toNat 0 12 = v.toNat % 4096 := by simp [bitsOf]
  have hws : bitsOf v.toNat 12 10 = v.toNat / 4096 % 1024 := rfl
  have hhost := rd_splitBadcfgCleared (f := Reg.HMX_SPLIT_SRAMHOST) (by decide) s v
  have hwork := rd_splitBadcfgCleared (f := Reg.HMX_SPLIT_DDRWS) (by decide) s v
  have htest := mt (split_test_iff s v).1 h
  by_cases hsame : bitsOf v.toNat 0 12 = rd (splitBadcfgCleared s v) Reg.HMX_SPLIT_SRAMHOST ∧
      bitsOf v.toNat 12 10 = rd (splitBadcfgCleared s v) Reg.HMX_SPLIT_DDRWS
  · refine ⟨splitBadcfgCleared s v, congrArg Host.Outcome.next ((if_neg htest).trans (if_pos hsame)), ?_⟩
    rw [hhost, hwork, hsh, hws] at hsame
    exact ⟨hhost.trans hsame.1.symm, hwork.trans hsame.2.symm, fun hne => absurd hsame (not_and_or.2 hne)⟩
  · refine ⟨_, congrArg Host.Outcome.next ((if_neg htest).trans (if_neg hsame)), ?_, ?_, fun _ n hn => ?_⟩
    · rw [rd_dropHandles (by decide), rd_wr_ne (by decide), rd_wr_same, hsh]
      exact Nat.mod_mod _ 4096
    · rw [rd_dropHandles (by decide), rd_wr_same, hws]
      exact Nat.mod_mod _ 1024
    · exact rd_foldl_dropHandle (by decide) (fun m hm => lt_trans (List.mem_range.1 hm) (by decide))
        (List.mem_range.2 hn) _

end Sys2Proof.Machine
end

section
/-! SUPPORT. The upset of a tile (R155, R391, R392): the tile becomes SUSPECT, and the running job restarts or ends. -/

namespace Sys2Proof.Machine

/-! ### The tile -/

/-- A tile as a resource that faults can retire. -/
abbrev tileRes (tile : Fin 16) : Resource := ⟨.solver, tile.val⟩

/-- A tile that has suffered its first upset. -/
def tileSuspect (s : State) (tile : Fin 16) : State :=
  let t := wr (wr s Reg.LSV_TILESTS_MSTATE (mstateCode .suspect) tile.val) Reg.LSV_TILESTS_FCOUNT 1 tile.val
  { t with ssu := { t.ssu with windows := t.ssu.windows ++ [⟨tileRes tile, .inService, t.tb.tick⟩] } }

theorem statusOf_tile (tile : Fin 16) : statusOf (tileRes tile) =
    some (Reg.LSV_TILESTS_QUAL, Reg.LSV_TILESTS_MSTATE, some Reg.LSV_TILESTS_FCOUNT, tile.val) := if_pos tile.isLt

theorem upset_tile {s : State} {tile : Fin 16} (hruns : WindowRuns s (tileRes tile))
    (hm : rd s Reg.LSV_TILESTS_MSTATE tile.val = mstateCode .inService) (work : State → State) :
    upset s (tileRes tile) work = (tileSuspect s tile, false) := by
  have hstate : resState s (tileRes tile) = .inService := by
    simp only [resState, statusOf_tile, hm]
    rfl
  unfold upset
  rw [windowClose_of_runs hruns]
  simp only [hstate, setResState, setFcount, statusOf_tile]
  rfl

theorem tileSuspect_mstate (s : State) (tile : Fin 16) :
    rd (tileSuspect s tile) Reg.LSV_TILESTS_MSTATE tile.val = mstateCode .suspect :=
  (rd_wr_of_id_ne (f := Reg.LSV_TILESTS_FCOUNT) (i := tile.val) (by decide) (by omega) (by omega) _ 1).trans
    (rd_wr_same s Reg.LSV_TILESTS_MSTATE tile.val (mstateCode .suspect))

theorem tileSuspect_fcount (s : State) (tile : Fin 16) : rd (tileSuspect s tile) Reg.LSV_TILESTS_FCOUNT tile.val = 1 :=
  rd_wr_same (wr s Reg.LSV_TILESTS_MSTATE _ tile.val) Reg.LSV_TILESTS_FCOUNT tile.val 1

theorem tileSuspect_corr (s : State) (tile : Fin 16) :
    rd (tileSuspect s tile) Reg.LSV_TILESTS_CORR tile.val = rd s Reg.LSV_TILESTS_CORR tile.val :=
  (rd_wr_of_id_ne (f := Reg.LSV_TILESTS_FCOUNT) (i := tile.val) (by decide) (by omega) (by omega) _ 1).trans
    (rd_wr_of_id_ne (by decide) (by omega) (by omega) s _)

/-! ### Corrected errors (R392) -/

/-- A register other than the tick's length and the fault windows has no part in whether a window is over. -/
theorem faultOver_wr {f : Field} {i : Nat} (hi : i < 8192) (htick : f.id ≠ Reg.TBC_TICKCFG_TICKLEN.id)
    (hwin : f.id ≠ Reg.SSU_FWIN_WINDOW.id) (s : State) (v : Nat) (r : Resource) (k : Nat) :
    faultOver (wr s f v i) r k = faultOver s r k := by
  have hclass : ∀ c : FClass, classIndex c < 8192 := by intro c; cases c <;> decide
  have hlen : rd (wr s f v i) Reg.TBC_TICKCFG_TICKLEN = rd s Reg.TBC_TICKCFG_TICKLEN :=
    rd_wr_of_id_ne htick.symm hi (by decide) s v
  have htime : tickNs (wr s f v i) = tickNs s := congrArg (· * 10000) hlen
  have hwindow : faultWindow (wr s f v i) r.cls = faultWindow s r.cls := by
    simp only [faultWindow, rd_wr_of_id_ne hwin.symm hi (hclass _)]
  rw [faultOver, htime, hwindow]
  rfl

/-- The state with another list of the words corrected once. -/
def withCorrOnce (s : State) (l : List (Resource × Nat × Nat)) : State := { s with ssu := { s.ssu with corrOnce := l } }

theorem correctedTwice_of_once {s : State} {r : Resource} {word : Nat}
    (h : ∀ e ∈ s.ssu.corrOnce, e.1 = r → e.2.1 = word → faultOver s r e.2.2 = true) :
    ∃ l, correctedTwice s r word = (withCorrOnce s l, false) ∧ (r, word, s.tb.tick) ∈ l := by
  have hnew : ¬(s.ssu.corrOnce.any fun e => decide (e.1 = r ∧ e.2.1 = word) && !faultOver s r e.2.2) = true := by
    simp only [List.any_eq_true, not_exists]
    rintro e ⟨he, hcond⟩
    obtain ⟨hsame, hruns⟩ := Bool.and_eq_true_iff.1 hcond
    obtain ⟨hr, hword⟩ := of_decide_eq_true hsame
    simp [h e he hr hword] at hruns
  exact ⟨_, if_neg hnew, by simp⟩

theorem correctedTwice_of_twice {s : State} {r : Resource} {word : Nat}
    (h : ∃ e ∈ s.ssu.corrOnce, e.1 = r ∧ e.2.1 = word ∧ faultOver s r e.2.2 = false) :
    correctedTwice s r word = (s, true) := by
  obtain ⟨e, he, hr, hword, hruns⟩ := h
  exact if_pos (List.any_eq_true.2 ⟨e, he, by simp [hr, hword, hruns]⟩)

section

variable {s : State} {tile : Fin 16} (hm : rd s Reg.LSV_TILESTS_MSTATE tile.val = mstateCode .inService)
include hm

/-- A corrected error of a tile in service counts, and is an upset when it is the second of its word. -/
theorem exec_tileUpset_corrected (word : Nat) {t : State} {twice : Bool}
    (h : correctedTwice (bump s Reg.LSV_TILESTS_CORR tile.val) (tileRes tile) word = (t, twice)) :
    exec (.tileUpset tile true word) s = .next
      (if twice then (upset t (tileRes tile) fun s => tileRetired s tile.val).1 else t) := by
  have halive : ¬tileState s tile.val = .retired := by rw [tileState, hm]; decide
  refine congrArg Host.Outcome.next ((if_neg halive).trans ((if_pos rfl).trans ?_))
  rw [h]

theorem tileCorrected_mstate :
    rd (bump s Reg.LSV_TILESTS_CORR tile.val) Reg.LSV_TILESTS_MSTATE tile.val = mstateCode .inService :=
  (rd_wr_of_id_ne (by decide) (by omega) (by omega) s _).trans hm

variable (hruns : WindowRuns s (tileRes tile))
include hruns

/-- A corrected error counts; the second in one word within the window is an upset, and the job goes on in either
case. -/
theorem tileUpset_corrected (word : Nat) : Completes (exec (.tileUpset tile true word) s) fun t =>
    rd t Reg.LSV_TILESTS_CORR tile.val =
      min (rd s Reg.LSV_TILESTS_CORR tile.val + 1) (2 ^ Reg.LSV_TILESTS_CORR.width - 1) ∧
    t.lsv = s.lsv ∧
    ((∀ e ∈ s.ssu.corrOnce, e.1 = tileRes tile → e.2.1 = word → faultOver s (tileRes tile) e.2.2 = true) →
      rd t Reg.LSV_TILESTS_MSTATE tile.val = mstateCode .inService ∧ (tileRes tile, word, s.tb.tick) ∈ t.ssu.corrOnce) ∧
    ((∃ e ∈ s.ssu.corrOnce, e.1 = tileRes tile ∧ e.2.1 = word ∧ faultOver s (tileRes tile) e.2.2 = false) →
      rd t Reg.LSV_TILESTS_MSTATE tile.val = mstateCode .suspect ∧ rd t Reg.LSV_TILESTS_FCOUNT tile.val = 1) := by
  have hover (k : Nat) : faultOver (bump s Reg.LSV_TILESTS_CORR tile.val) (tileRes tile) k =
      faultOver s (tileRes tile) k := faultOver_wr (by omega) (by decide) (by decide) s _ _ _
  have hcount := bump_same s Reg.LSV_TILESTS_CORR tile.val 1
  by_cases htwice : ∃ e ∈ s.ssu.corrOnce, e.1 = tileRes tile ∧ e.2.1 = word ∧ faultOver s (tileRes tile) e.2.2 = false
  · have heq := correctedTwice_of_twice (s := bump s Reg.LSV_TILESTS_CORR tile.val) (r := tileRes tile) (word := word)
      (by simpa only [hover, bump_ssu] using htwice)
    have hupset := upset_tile (fun w hw hr => (hover w.tick).trans (hruns w hw hr)) (tileCorrected_mstate hm)
      fun s => tileRetired s tile.val
    refine ⟨tileSuspect (bump s Reg.LSV_TILESTS_CORR tile.val) tile, ?_, (tileSuspect_corr _ _).trans hcount, rfl,
      fun honce => ?_, fun _ => ⟨tileSuspect_mstate _ _, tileSuspect_fcount _ _⟩⟩
    · rw [exec_tileUpset_corrected hm word heq, if_pos rfl, hupset]
    · obtain ⟨e, he, hr, hword, hin⟩ := htwice
      exact absurd (honce e he hr hword) (by simp [hin])
  · obtain ⟨l, heq, hl⟩ := correctedTwice_of_once (s := bump s Reg.LSV_TILESTS_CORR tile.val) (r := tileRes tile)
      (word := word) fun e he hr hword => by
        rw [hover]
        by_contra hin
        exact htwice ⟨e, he, hr, hword, by simpa using hin⟩
    exact ⟨withCorrOnce (bump s Reg.LSV_TILESTS_CORR tile.val) l, exec_tileUpset_corrected hm word heq, hcount, rfl,
      fun _ => ⟨tileCorrected_mstate hm, hl⟩, fun h => absurd h htwice⟩

end

/-! ### Uncorrected errors (R155) -/

theorem upsetJob_of_idle {s : State} (h : runningJob s = none) : upsetJob s = s := by
  simp only [upsetJob, h]

theorem upsetJob_of_retried {s : State} {j : Job} (h : runningJob s = some j) (hr : j.retried = true) :
    upsetJob s = stopJob s j CC.failTransientExhausted Rsn.tileUpset := by
  simp only [upsetJob, h, hr, if_true]

theorem upsetJob_of_first {s : State} {j : Job} (h : runningJob s = some j) (hr : j.retried = false) :
    upsetJob s = putJob (keepIterate s j).1 { (keepIterate s j).2 with retried := true } := by
  simp only [upsetJob, h, hr, Bool.false_eq_true, if_false]

/-- Only a programme keeps an iterate. -/
theorem keepIterate_linear {j : Job} (h : isQp j.desc = false) (s : State) : keepIterate s j = (s, j) := by
  simp [keepIterate, h]

theorem keepIterate_moved (s : State) (j : Job) : FreeMoved s (keepIterate s j).1 := by
  unfold keepIterate
  split <;> rfl

/-- What the running job does about an upset leaves the supervisor, and every register but the queue's, alone. -/
theorem queueView_upsetJob (s : State) : ∃ held tail flop cyc,
    queueView (upsetJob s) = { queueView s with held := held, tail := tail, flop := flop, cyc := cyc } := by
  cases hrun : runningJob s with
  | none => exact ⟨_, _, _, _, congrArg queueView (upsetJob_of_idle hrun)⟩
  | some j =>
    cases hr : j.retried with
    | true =>
      rw [upsetJob_of_retried hrun hr]
      obtain ⟨flop, cyc, h⟩ := queueView_stopJob s j CC.failTransientExhausted Rsn.tileUpset
      exact ⟨_, _, flop, cyc, h⟩
    | false =>
      have hview : queueView { (keepIterate s j).1 with free := s.free } = queueView s :=
        congrArg queueView (keepIterate_moved s j)
      rw [upsetJob_of_first hrun hr]
      rw [← hview]
      exact ⟨_, _, _, _, queueView_setHeld _ _⟩

/-- An uncorrected error of a tile in service: the tile becomes SUSPECT, and the running job restarts, or ends when it
has restarted before. -/
theorem tileUpset_uncorrected {s : State} {tile : Fin 16} (hruns : WindowRuns s (tileRes tile))
    (hm : rd s Reg.LSV_TILESTS_MSTATE tile.val = mstateCode .inService) (word : Nat) :
    Completes (exec (.tileUpset tile false word) s) fun t =>
      rd t Reg.LSV_TILESTS_MSTATE tile.val = mstateCode .suspect ∧ rd t Reg.LSV_TILESTS_FCOUNT tile.val = 1 ∧
      t.ssu.windows = s.ssu.windows ++ [⟨tileRes tile, .inService, s.tb.tick⟩] ∧
      (runningJob s = none → t.lsv = s.lsv) ∧
      (∀ j, runningJob s = some j → j.retried = true → t.lsv.held = s.lsv.held.filter (·.index ≠ j.index)) ∧
      ∀ j, runningJob s = some j → j.retried = false → isQp j.desc = false →
        t.lsv.held = s.lsv.held.map fun k => if k.index = j.index then { j with retried := true } else k := by
  have halive : ¬tileState s tile.val = .retired := by rw [tileState, hm]; decide
  have hexec : exec (.tileUpset tile false word) s = .next (upsetJob (tileSuspect s tile)) := by
    refine congrArg Host.Outcome.next ((if_neg halive).trans ((if_neg (by decide)).trans ?_))
    rw [upset_tile hruns hm]
    rfl
  obtain ⟨_, _, _, _, hview⟩ := queueView_upsetJob (tileSuspect s tile)
  have hrd {f : Field} (hf : ∀ g ∈ jobFields, f.id ≠ g.id) :
      rd (upsetJob (tileSuspect s tile)) f tile.val = rd (tileSuspect s tile) f tile.val :=
    rd_of_queueView (by rw [hview]) hf (by omega)
  refine ⟨_, hexec, (hrd (by decide)).trans (tileSuspect_mstate s tile),
    (hrd (by decide)).trans (tileSuspect_fcount s tile), congrArg (fun v : QueueView => v.ssu.windows) hview,
    fun hidle => ?_, fun j hrun hr => ?_, fun j hrun hr hlin => ?_⟩
  · exact congrArg (·.lsv) (upsetJob_of_idle (s := tileSuspect s tile) hidle)
  · rw [upsetJob_of_retried (s := tileSuspect s tile) hrun hr, held_stopJob]
    rfl
  · rw [upsetJob_of_first (s := tileSuspect s tile) hrun hr, keepIterate_linear hlin]
    rfl

/-! ### The ring, the tiles and the split -/

/-- Settles O35: the ring by its sizes and the indices of the host, a tile's errors by whether they are an upset, and
the split by whether it is refused. -/
theorem solverRingTilesSplit : Obligations.SolverRingTilesSplit := by
  intro s
  refine ⟨?_, ringDisable_effect s, ?_, ?_⟩
  · intro v sqDone sqHead cqTail cqRead left sl cl hoff hheld hen hsl hcl hmin hle hmax hsq hcq hctl hleft
    exact ringEnable_effect hoff hheld hen hsl hcl hmin hle hmax hsq hcq hctl hleft
  · rintro tile word r hm rfl hruns
    exact ⟨tileUpset_corrected hm hruns word, tileUpset_uncorrected hruns hm word⟩
  · rintro v sh ws rfl rfl
    refine ⟨fun hoff hempty hroom hstep => splitWrite_taken ?_, splitWrite_refused⟩
    rintro (hen | hdepth | hbig | hodd)
    · exact absurd hen (by simp [hoff])
    · exact hdepth hempty
    · omega
    · exact hodd hstep

end Sys2Proof.Machine
end

section
/-! SUPPORT. The frames of a partitioned solve (R322, R323, R330): what sending and taking them leaves alone, and to
whom they go. -/

namespace Sys2Proof.Machine

/-! ### What was put out -/

/-- What a state has put out it has still put out in another, before anything else. -/
def OutKept (s t : State) : Prop := ∃ l, t.out = s.out ++ l

theorem OutKept.of_eq {s t : State} (h : t.out = s.out) : OutKept s t := ⟨[], by rw [h, List.append_nil]⟩

theorem OutKept.refl (s : State) : OutKept s s := .of_eq rfl

theorem OutKept.trans {s t u : State} (h : OutKept s t) (h' : OutKept t u) : OutKept s u := by
  obtain ⟨l, hl⟩ := h
  obtain ⟨m, hm⟩ := h'
  exact ⟨l ++ m, by rw [hm, hl, List.append_assoc]⟩

theorem outKept_emit (s : State) (o : Out) : OutKept s (emit s o) := ⟨[o], rfl⟩

/-! ### Frames sent -/

/-- A frame sent keeps whatever a frame on a link keeps. -/
theorem sendPart_keeps {β : Type} {p : State → β} (h : ∀ s n b, p (sendCasc s n b) = p s) (s : State) (src dst : CAddr)
    (f : CplFrame) : p (sendPart s src dst f) = p s := by
  unfold sendPart
  split
  · exact ite_keeps (h _ _ _) rfl
  · rfl

theorem sendParts_keeps {β : Type} {p : State → β} (h : ∀ s n b, p (sendCasc s n b) = p s) (s : State)
    (l : List (Fin 8)) (f : CplFrame) : p (sendParts s l f) = p s :=
  foldl_keeps p (fun _ _ => sendPart_keeps h _ _ _ _) l s

theorem sendPart_lsv (s : State) (src dst : CAddr) (f : CplFrame) : (sendPart s src dst f).lsv = s.lsv :=
  sendPart_keeps (p := State.lsv) (fun _ _ _ => rfl) s src dst f

theorem sendParts_lsv (s : State) (l : List (Fin 8)) (f : CplFrame) : (sendParts s l f).lsv = s.lsv :=
  sendParts_keeps (p := State.lsv) (fun _ _ _ => rfl) s l f

theorem outKept_sendPart (s : State) (src dst : CAddr) (f : CplFrame) : OutKept s (sendPart s src dst f) := by
  unfold sendPart
  split
  · split
    · exact outKept_emit s _
    · exact .refl s
  · exact .refl s

theorem outKept_sendParts (s : State) (l : List (Fin 8)) (f : CplFrame) : OutKept s (sendParts s l f) :=
  List.foldlRecOn (motive := OutKept s) l _ (.refl s) fun _ ht _ _ => ht.trans (outKept_sendPart _ _ _ _)

/-! ### The way of a frame -/

/-- The state but for what has no part in the way of a frame (R323): the time, the coordinator, and what was sent. -/
def wayView (s : State) : State :=
  { s with tb := { s.tb with now := 0 }, lsv := { s.lsv with cjob := none }, out := [],
           csc := { s.csc with seqOut := [] } }

section

variable {s t u : State} {dst : CAddr} {f : CplFrame}

theorem partSide_of_wayView (h : wayView t = wayView s) : partSide t = partSide s := (congrArg partSide h :)

/-- A frame sent stays sent. -/
theorem SentPart.mono (h : SentPart s t dst f) (hout : OutKept t u) : SentPart s u dst f := by
  intro k hk htree
  obtain ⟨head, hmem⟩ := h k hk htree
  obtain ⟨l, hl⟩ := hout
  exact ⟨head, hl ▸ List.mem_append_left l hmem⟩

theorem SentPart.of_wayView (h : SentPart s t dst f) (hs : wayView s = wayView u) : SentPart u t dst f := by
  have hlink : linkTo s dst = linkTo u dst := (congrArg (linkTo · dst) hs :)
  have htree : treeLink s = treeLink u := (congrArg treeLink hs :)
  have haddr : myAddr s = myAddr u := (congrArg myAddr hs :)
  unfold SentPart at *
  rwa [← hlink, ← haddr, ← htree]

end

theorem sentPart_sendPart (s : State) (dst : CAddr) (f : CplFrame) :
    SentPart s (sendPart s (myAddr s) dst f) dst f := by
  intro k hlink htree
  simp only [sendPart, hlink, htree, if_true]
  exact ⟨_, List.mem_append_right _ (List.mem_singleton_self _)⟩

/-- A frame sent to each of a list of members goes out to every one of them. -/
theorem sentPart_sendParts {x : Fin 8} {l : List (Fin 8)} (hx : x ∈ l) (s : State) (f : CplFrame) :
    SentPart s (sendParts s l f) ⟨x, partSide s⟩ f := by
  induction l generalizing s with
  | nil => cases hx
  | cons m l ih =>
    have hfirst : wayView (sendPart s (myAddr s) ⟨m, partSide s⟩ f) = wayView s :=
      sendPart_keeps (fun _ _ _ => rfl) _ _ _ _
    rcases List.mem_cons.1 hx with rfl | hx
    · exact (sentPart_sendPart s _ f).mono (outKept_sendParts _ l f)
    · have hrest := (ih hx (sendPart s (myAddr s) ⟨m, partSide s⟩ f)).of_wayView hfirst
      rwa [partSide_of_wayView hfirst] at hrest

/-! ### Frames taken -/

/-- The state but for the frames taken off its links. -/
def untaken (s : State) : State := { s with csc := { s.csc with seqIn := [], gaps := [] } }

/-- A frame taken changes nothing but what is known of the frames of its link, and one that is not new nothing at
all. -/
theorem clTake_cases (s : State) (n : Fin 4) (head : ChordHead) (hello : Bool) :
    clTake s n head hello = (s, false) ∨
      (clTake s n head hello).2 = true ∧ untaken (clTake s n head hello).1 = untaken s := by
  unfold clTake
  split
  · exact .inl rfl
  · extract_lets put
    split
    · exact .inr ⟨rfl, rfl⟩
    · split
      · exact .inr ⟨rfl, rfl⟩
      · split
        · exact .inr ⟨rfl, rfl⟩
        · exact .inl rfl

theorem clTake_old {s : State} {n : Fin 4} {head : ChordHead} {hello : Bool} (h : (clTake s n head hello).2 = false) :
    clTake s n head hello = (s, false) :=
  (clTake_cases s n head hello).resolve_right fun hnew => by simp [h] at hnew

theorem untaken_of_new {s u : State} {n : Fin 4} {head : ChordHead} {hello : Bool}
    (h : clTake s n head hello = (u, true)) : untaken u = untaken s := by
  rcases clTake_cases s n head hello with hold | ⟨-, hnew⟩
  · simp [h] at hold
  · rwa [h] at hnew

theorem myAddr_of_untaken {s u : State} (h : untaken u = untaken s) : myAddr u = myAddr s := (congrArg myAddr h :)

theorem partSide_of_untaken {s u : State} (h : untaken u = untaken s) : partSide u = partSide s :=
  (congrArg partSide h :)

theorem lsv_of_untaken {s u : State} (h : untaken u = untaken s) : u.lsv = s.lsv := (congrArg State.lsv h :)

/-! ### Frames for this unit and for others (R323) -/

section

variable {s u : State} {n : Fin 4} {head : ChordHead} {src dst : CAddr} {f : CplFrame} {act : State → State}

theorem partFrame_old (h : (clTake s n head false).2 = false) : partFrame s n head src dst f act = s := by
  simp [partFrame, clTake_old h]

theorem partFrame_here (h : clTake s n head false = (u, true)) (hdst : dst = myAddr s) :
    partFrame s n head src dst f act = act u := by
  simp [partFrame, h, hdst, myAddr_of_untaken (untaken_of_new h)]

/-- A frame for another unit is sent on, but for one that ends at a single M0 (log entry 110). -/
theorem partFrame_forward (h : clTake s n head false = (u, true)) (hdst : dst ≠ myAddr s)
    (hway : ownMember s ≠ 0 ∨ dst.member ≠ 0 ∨ rdB s Reg.RDU_CFG_PAIRED = true) :
    partFrame s n head src dst f act = sendPart u src dst f := by
  have hview := untaken_of_new h
  have haddr := myAddr_of_untaken hview
  have hown : ownMember u = ownMember s := congrArg CAddr.member haddr
  have hpair : rdB u Reg.RDU_CFG_PAIRED = rdB s Reg.RDU_CFG_PAIRED := (congrArg (rdB · Reg.RDU_CFG_PAIRED) hview :)
  have hlast : (decide (ownMember s = 0) && decide (dst.member = 0) && !rdB s Reg.RDU_CFG_PAIRED) = false := by
    rcases hway with h | h | h <;> simp [h]
  simp only [partFrame, h, haddr, hown, hpair, hlast, hdst, Bool.not_true, decide_false, Bool.or_self,
    Bool.false_eq_true, if_false]

/-- A command that carries a frame of a solve does what its frame asks for where it is taken. -/
theorem exec_partCmd {cmd : Instr} {cjob : BitVec 32} {ncpl : Nat} {vals : List Word} {code rsn : BitVec 8}
    {o : JobObs}
    (h : cmd = .partJoin n head src dst cjob ncpl ∧ f = .join cjob ncpl ∨
      cmd = .schur n head src dst vals ∧ f = .schur vals ∨ cmd = .cplrhs n head src dst vals ∧ f = .rhs vals ∨
      cmd = .cplstep n head src dst vals ∧ f = .step vals ∨ cmd = .cplreply n head src dst vals ∧ f = .reply vals ∨
      cmd = .cplend n head src dst code rsn o ∧ f = .finish code.toNat rsn.toNat) (s : State) :
    ∃ act, exec cmd s = .next (partFrame s n head src dst f act) := by
  rcases h with ⟨rfl, rfl⟩ | ⟨rfl, rfl⟩ | ⟨rfl, rfl⟩ | ⟨rfl, rfl⟩ | ⟨rfl, rfl⟩ | ⟨rfl, rfl⟩ <;> exact ⟨_, rfl⟩

end

end Sys2Proof.Machine
end

section
/-! SUPPORT. The end of a part (R183, R184, R332): what it puts out comes after what was put out before, and a
coordinator ends with it. -/

namespace Sys2Proof.Machine

/-! ### What the end of a job puts out -/

theorem outKept_msix (s : State) (vec : Nat) : OutKept s (msix s vec) := by
  unfold msix
  split
  · exact .of_eq (ite_keeps (p := State.out) rfl rfl)
  · exact outKept_emit s _

theorem windowWrite_out (s : State) (a : Nat) (bs : List Byte) : (windowWrite s a bs).out = s.out := by
  induction bs generalizing s a with
  | nil => rfl
  | cons b bs ih => exact ih _ _

theorem outKept_deviceWrite (s : State) (a : Nat) (bs : List Byte) : OutKept s (deviceWrite s a bs) := by
  unfold deviceWrite
  split
  · exact .of_eq (windowWrite_out _ _ _)
  · exact outKept_emit s _

theorem outKept_writeReport (s : State) (j : Job) (e : JobEnd) : OutKept s (writeReport s j e) := by
  unfold writeReport
  split
  · split
    · exact outKept_deviceWrite _ _ _
    · exact .refl s
  · exact .refl s

theorem reachedBy_out (s : State) (j : Job) : (reachedBy s j).2.out = s.out := by
  unfold reachedBy
  split
  · rfl
  · split <;> rfl

theorem settleCancel_out (s : State) (j : Job) (cancelled : Bool) : (settleCancel s j cancelled).out = s.out :=
  ite_keeps (p := State.out) rfl (ite_keeps (p := State.out) rfl rfl)

theorem outKept_writeEntry (s : State) (index : Nat) (entry : List Byte) : OutKept s (writeEntry s index entry) := by
  unfold writeEntry
  extract_lets cq sq t u tail r l v
  have ht : OutKept s t := outKept_emit _ _
  have hu : OutKept t u := outKept_emit _ _
  have hv : OutKept u v := .of_eq rfl
  have hctl : OutKept v (ctlWrite (ctlWrite v 8 tail) 4 r.1) := (outKept_emit _ _).trans (outKept_emit _ _)
  exact (((ht.trans hu).trans hv).trans hctl).trans (outKept_msix _ _)

theorem outKept_closeJob (s : State) (j : Job) (e : JobEnd) (cancelled : Bool) :
    OutKept s (closeJob s j e cancelled) := by
  unfold closeJob
  extract_lets t _ u
  have ht : OutKept s t := .of_eq (settleCancel_out s j cancelled)
  have hu : OutKept t u := .of_eq (ite_keeps (p := State.out) rfl rfl)
  have hheld : OutKept u (setHeld u (u.lsv.held.filter (·.index ≠ j.index))) := .of_eq rfl
  exact ((ht.trans hu).trans hheld).trans (outKept_writeEntry _ _ _)

theorem outKept_haltJob (s : State) (j : Job) (code rsn : Nat) : OutKept s (haltJob s j code rsn) := by
  unfold haltJob
  split
  next e u hreach =>
  extract_lets e' w x
  have hu : OutKept s u := .of_eq (by simpa only [hreach] using reachedBy_out s j)
  have hw : OutKept u w := outKept_writeReport u j e'
  have hx : OutKept w x := .of_eq (ite_keeps (p := State.out) rfl rfl)
  exact ((hu.trans hw).trans hx).trans (outKept_closeJob _ _ _ _)

/-! ### The coordinator -/

theorem msix_cjob (s : State) (vec : Nat) : (msix s vec).lsv.cjob = s.lsv.cjob :=
  ite_keeps (p := (·.lsv.cjob)) (ite_keeps (p := (·.lsv.cjob)) rfl rfl) rfl

theorem writeEntry_cjob (s : State) (index : Nat) (entry : List Byte) :
    (writeEntry s index entry).lsv.cjob = s.lsv.cjob := msix_cjob _ _

/-- A coordinator ends with the job that runs. -/
theorem haltJob_cjob {j : Job} (hrun : j.running = true) (s : State) (code rsn : Nat) :
    (haltJob s j code rsn).lsv.cjob = none := by
  unfold haltJob closeJob
  split
  simp only [hrun, if_true]
  exact writeEntry_cjob _ _ _

theorem held_haltJob (s : State) (j : Job) (code rsn : Nat) :
    (haltJob s j code rsn).lsv.held = s.lsv.held.filter (·.index ≠ j.index) := by
  obtain ⟨_, _, h⟩ := queueView_haltJob s j code rsn
  exact congrArg QueueView.held h

theorem running_of_runningJob {s : State} {j : Job} (h : runningJob s = some j) : j.running = true :=
  List.find?_some h

theorem runningJob_congr {s t : State} (h : t.lsv.held = s.lsv.held) : runningJob t = runningJob s := by
  rw [runningJob, h, runningJob]

/-- The state in which a solve has no coordinator. -/
def uncoordinated (s : State) : State := { s with lsv := { s.lsv with cjob := none } }

/-- The state in which the coordinator of a solve has told every part of its end. -/
def toldEnd (s : State) (c : Coord) (code rsn : Nat) : State :=
  sendParts (uncoordinated s) c.joined (.finish code rsn)

theorem toldEnd_lsv (s : State) (c : Coord) (code rsn : Nat) :
    (toldEnd s c code rsn).lsv = { s.lsv with cjob := none } := sendParts_lsv _ _ _

theorem sentPart_toldEnd {x : Fin 8} {c : Coord} (hx : x ∈ c.joined) (s : State) (code rsn : Nat) :
    SentPart s (toldEnd s c code rsn) ⟨x, partSide s⟩ (.finish code rsn) :=
  (sentPart_sendParts hx (uncoordinated s) (.finish code rsn)).of_wayView rfl

section

variable {s : State} {c : Coord} (hc : s.lsv.cjob = some c) (code rsn : Nat)
include hc

theorem endSolve_idle (hidle : runningJob s = none) : endSolve s code rsn = toldEnd s c code rsn := by
  have hidle' : runningJob (toldEnd s c code rsn) = none := (runningJob_congr (by rw [toldEnd_lsv])).trans hidle
  simp only [toldEnd, uncoordinated] at hidle' ⊢
  simp only [endSolve, hc, hidle']

theorem endSolve_running {j : Job} (hrun : runningJob s = some j) :
    endSolve s code rsn = haltJob (toldEnd s c code rsn) j code rsn := by
  have hrun' : runningJob (toldEnd s c code rsn) = some j := (runningJob_congr (by rw [toldEnd_lsv])).trans hrun
  simp only [toldEnd, uncoordinated] at hrun' ⊢
  simp only [endSolve, hc, hrun']

theorem endSolve_cjob : (endSolve s code rsn).lsv.cjob = none := by
  cases hrun : runningJob s with
  | none => rw [endSolve_idle hc code rsn hrun, toldEnd_lsv]
  | some j =>
    rw [endSolve_running hc code rsn hrun]
    exact haltJob_cjob (running_of_runningJob hrun) _ _ _

theorem held_endSolve {j : Job} (hrun : runningJob s = some j) :
    (endSolve s code rsn).lsv.held = s.lsv.held.filter (·.index ≠ j.index) := by
  rw [endSolve_running hc code rsn hrun, held_haltJob, toldEnd_lsv]

/-- Every part is told of the end of a solve. -/
theorem sentPart_endSolve {x : Fin 8} (hx : x ∈ c.joined) :
    SentPart s (endSolve s code rsn) ⟨x, partSide s⟩ (.finish code rsn) := by
  have htold := sentPart_toldEnd hx s code rsn
  cases hrun : runningJob s with
  | none => rwa [endSolve_idle hc code rsn hrun]
  | some j =>
    rw [endSolve_running hc code rsn hrun]
    exact htold.mono (outKept_haltJob _ _ _ _)

end

end Sys2Proof.Machine
end

section
/-! SUPPORT. The coordinator of a partitioned solve (R330, R331, Table 14.2): a member that joins, a contribution kept,
and the step that the last contribution ends. -/

namespace Sys2Proof.Machine

/-! ### Joining -/

/-- A coordinator that a member has joined. -/
def withMember (c : Coord) (m : Fin 8) : Coord :=
  { c with joined := if c.joined.contains m then c.joined else c.joined ++ [m] }

theorem mem_withMember {c : Coord} {m x : Fin 8} : x ∈ (withMember c m).joined ↔ x = m ∨ x ∈ c.joined := by
  unfold withMember
  split
  next h =>
    have hm : m ∈ c.joined := List.contains_iff_mem.1 h
    exact ⟨.inr, fun hx => hx.elim (· ▸ hm) id⟩
  next => simp [or_comm]

theorem length_le_withMember (c : Coord) (m : Fin 8) : c.joined.length ≤ (withMember c m).joined.length := by
  unfold withMember
  split <;> simp

theorem allJoined_iff (c : Coord) :
    allJoined c = true ↔ ∀ x : Fin 8, x ≠ 0 → c.awaited.getLsbD x.val = true → x ∈ c.joined := by
  simp [allJoined, or_iff_not_imp_left]

/-- The coordinator waits for a part. -/
theorem coordReply_of_missing {s : State} {c : Coord} (hc : s.lsv.cjob = some c)
    (hlen : c.got.length < c.joined.length + 1) : coordReply s = s := by
  unfold coordReply
  split
  next c' j hc' hrun =>
    obtain rfl : c = c' := Option.some.inj (hc.symm.trans hc')
    split
    · exact if_pos (by simp [hlen])
    · rfl
  · rfl

/-- The state with another coordinator. -/
def withCoord (s : State) (c : Coord) : State := { s with lsv := { s.lsv with cjob := some c } }

section

variable {s : State} {c : Coord} {src : CAddr} {cjob : BitVec 32} {ncpl : Nat}

theorem joinPart_none (h : s.lsv.cjob = none) :
    joinPart s src cjob ncpl = sendPart s (myAddr s) src (.finish CC.failRefused Rsn.noCjob) := by
  simp only [joinPart, h]

variable (hc : s.lsv.cjob = some c)
include hc

theorem joinPart_refused (h : c.cjob ≠ cjob ∨ src.side ≠ partSide s ∨ c.open_ = false) :
    joinPart s src cjob ncpl = sendPart s (myAddr s) src (.finish CC.failRefused Rsn.noCjob) := by
  simp only [joinPart, hc, if_pos h]

variable (hjob : c.cjob = cjob) (hside : src.side = partSide s) (hopen : c.open_ = true)
include hjob hside hopen

theorem joinPart_mismatch (hncpl : c.ncpl ≠ ncpl) : joinPart s src cjob ncpl =
    endSolve (withCoord s (withMember c src.member)) CC.failRefused Rsn.cplMismatch := by
  have htake : ¬(c.cjob ≠ cjob ∨ src.side ≠ partSide s ∨ c.open_ = false) := by simp [hjob, hside, hopen]
  simp only [joinPart, hc, if_neg htake, if_pos hncpl]
  rfl

/-- A member of the solve: the coordinator waits for its part from here on. -/
theorem joinPart_joined (hncpl : c.ncpl = ncpl) (hlen : c.got.length ≤ c.joined.length) :
    joinPart s src cjob ncpl =
      withCoord s { withMember c src.member with open_ := !allJoined (withMember c src.member) } := by
  have htake : ¬(c.cjob ≠ cjob ∨ src.side ≠ partSide s ∨ c.open_ = false) := by simp [hjob, hside, hopen]
  have hmissing : c.got.length < (withMember c src.member).joined.length + 1 :=
    Nat.lt_succ_of_le (hlen.trans (length_le_withMember c src.member))
  simp only [joinPart, hc, if_neg htake, if_neg (not_not.2 hncpl)]
  exact coordReply_of_missing (s := withCoord s _) rfl hmissing

end

/-! ### The part of the coordinator itself -/

/-- What the part of the coordinator itself leaves alone as it goes on: what was put out and the step. -/
def coordView (s : State) : List Out × Option Nat := (s.out, s.lsv.cjob.map (·.step))

/-- A coordinator's own contribution is kept, and goes out to nobody. -/
theorem coordView_partSend {s : State} (h : s.lsv.cjob.isSome = true) (j : Job) (step : Nat) (vals : List Word) :
    coordView (partSend s j step vals) = coordView s := by
  obtain ⟨c, hc⟩ := Option.isSome_iff_exists.1 h
  have hput : (putJob s { j with cplStep := step, waitFrom := s.tb.now }).lsv.cjob = some c := hc
  simp only [partSend, hput]
  simp only [coordView, hc]
  rfl

theorem coordView_partFail (s : State) (j : Job) (e : JobEnd) : coordView (partFail s j e) = coordView s := rfl

section

variable {s : State} (h : s.lsv.cjob.isSome = true)
include h

theorem coordView_partRound (j : Job) : coordView (partRound s j) = coordView s := by
  unfold partRound
  extract_lets red w v n phi best t w'
  refine ite_keeps (coordView_partFail _ _ _) ?_
  split
  · exact coordView_partFail t _ _
  · exact coordView_partFail t _ _
  · exact coordView_partSend (s := t) h _ _ _

theorem coordView_partReduce (j : Job) (w : QpWork) (p : PartWork) (step : Nat) (b : List Word) :
    coordView (partReduce s j w p step b) = coordView s :=
  ite_keeps (coordView_partFail _ _ _) (coordView_partSend h _ _ _)

theorem coordView_partReply (j : Job) (mu : Word) (vals : List Word) :
    coordView (partReply s j mu vals) = coordView s := by
  unfold partReply
  split
  · extract_lets red v none_
    split
    · exact coordView_partReduce h _ _ _ _ _
    · exact ite_keeps (coordView_partFail _ _ _) (coordView_partSend h _ _ _)
    · exact ite_keeps (coordView_partFail _ _ _) (coordView_partReduce h _ _ _ _ _)
    · exact ite_keeps (coordView_partFail _ _ _) (coordView_partSend h _ _ _)
    · exact ite_keeps (coordView_partFail _ _ _) (coordView_partRound h _)
  · rfl

end

/-- The coordinator at the step that follows, none of whose contributions is there. -/
def nextStep (c : Coord) : Coord := { c with step := c.step % 5 + 1, got := [] }

/-- The coordinator goes on: it stands at the step that follows, and every part that joined has its reply. -/
theorem coordNext_effect (s : State) (c : Coord) (j : Job) (vals : List Word) :
    (coordNext s c j vals).lsv.cjob.map (·.step) = some (c.step % 5 + 1) ∧
      ∀ x ∈ c.joined, SentPart s (coordNext s c j vals) ⟨x, partSide s⟩ (.reply vals) := by
  have hcjob : (sendParts (withCoord s (nextStep c)) c.joined (.reply vals)).lsv.cjob = some (nextStep c) :=
    congrArg LsvSt.cjob (sendParts_lsv _ c.joined (.reply vals))
  have hview : coordView (coordNext s c j vals) =
      coordView (sendParts (withCoord s (nextStep c)) c.joined (.reply vals)) :=
    coordView_partReply (s := putJob _ j) (Option.isSome_iff_exists.2 ⟨_, hcjob⟩) j _ vals
  refine ⟨(congrArg Prod.snd hview).trans (congrArg (Option.map Coord.step) hcjob), fun x hx => ?_⟩
  have hsent := sentPart_sendParts hx (withCoord s (nextStep c)) (.reply vals)
  exact (hsent.of_wayView rfl).mono (.of_eq (congrArg Prod.fst hview))

/-! ### Gathering -/

theorem partMsg_new {s : State} {c : Coord} {m : Fin 8} (hc : s.lsv.cjob = some c) (hm : m ∈ c.joined)
    (hnew : ∀ g ∈ c.got, g.member ≠ m) {steps : List Nat} (hstep : c.step ∈ steps) (vals : List Word) :
    partMsg s steps m vals = coordReply (contribute s c m vals) := by
  have hdue : ¬(!c.joined.contains m || !steps.contains c.step || c.got.any (·.member = m)) = true := by
    simpa [hm, hstep] using hnew
  simp only [partMsg, hc, if_neg hdue]

section

variable {s : State} {c : Coord} {j : Job} {w : QpWork} {g : List (List Word)} (hc : s.lsv.cjob = some c)
  (hopen : c.open_ = false) (hlen : c.joined.length < c.got.length) (hg : g = inOrder c.got)
  (hrun : runningJob s = some j) (hkept : j.kept = some w) (hsound : j.failed = none)
include hc hopen hlen hg hrun hkept hsound

/-- With the contributions of every part there, the coordinator does what its step asks for. -/
theorem coordReply_of_complete :
    (c.step = 1 → coordReply s = coordTests s c j w g) ∧
    (c.step = 2 ∨ c.step = 4 → coordReply s = coordSolve s c j w g) ∧
    (c.step = 3 → coordReply s = coordNext s c j [partMin g 0,
      if c.mc = 0 then 0 else dCube (dDiv (dDiv (partSum g 1) c.mc) (if c.mc = 0 then 0 else dDiv c.comp c.mc))]) ∧
    (c.step = 5 → coordReply s = coordNext s c j [dMin dOne (dMul (xTau j.ext) (partMin g 0))]) := by
  have hall : ¬(c.open_ || j.failed.isSome || decide (c.got.length < c.joined.length + 1)) = true := by
    simpa [hopen, hsound] using Nat.succ_le_of_lt hlen
  subst hg
  refine ⟨fun h => ?_, ?_, fun h => ?_, fun h => ?_⟩
  · simp only [coordReply, hc, hrun, hkept, if_neg hall, h]
  · rintro (h | h) <;> simp only [coordReply, hc, hrun, hkept, if_neg hall, h]
  · simp only [coordReply, hc, hrun, hkept, if_neg hall, h]
  · simp only [coordReply, hc, hrun, hkept, if_neg hall, h]

end

/-! ### A CPLEND (R184, R332) -/

/-- The state in which one free value has been taken. -/
def freeTaken (s : State) : State := { s with free := s.free + 1 }

/-- Work that is complete, within its budget and not cancelled has its own outcome. -/
theorem completeJob_inTime {s : State} {j : Job} (hcancel : j.cancel = false)
    (hbudget : dBudget j.desc = 0 ∨ runTime s j < dBudget j.desc) (e : JobEnd) (o : JobObs) :
    completeJob s j e o false = finishJob s j e o := by
  have hlate : (dBudget j.desc != 0 && decide (dBudget j.desc ≤ runTime s j)) = false := by
    simpa [or_iff_not_imp_left] using hbudget
  simp only [completeJob, hlate, hcancel, Bool.false_and, Bool.false_eq_true, if_false]

theorem takeEnd_member {s : State} {j : Job} {o : JobObs} (hj : memberPart s = some j) (hcancel : j.cancel = false)
    (hbudget : dBudget j.desc = 0 ∨ runTime (advance s o.at_) j < dBudget j.desc) (src : CAddr) (code rsn : Nat) :
    takeEnd s src code rsn o =
      finishJob (freeTaken (advance s o.at_)) j (partEnd (advance s o.at_) j code rsn) o := by
  simp only [takeEnd, hj]
  exact completeJob_inTime (s := freeTaken (advance s o.at_)) hcancel hbudget _ o

theorem takeEnd_coordinator {s : State} {c : Coord} {src : CAddr} (hc : s.lsv.cjob = some c)
    (hm : src.member ∈ c.joined) (code rsn : Nat) (o : JobObs) :
    takeEnd s src code rsn o = endSolve (advance s o.at_) CC.failPeerUnreachable (failRsn code) := by
  have hmember : memberPart s = none := by simp only [memberPart, hc]
  simp only [takeEnd, hmember, hc, if_pos (List.contains_iff_mem.2 hm)]

end Sys2Proof.Machine
end

section
/-! SUPPORT. The commands of a partitioned solve (R183, R184, R330 to R332, Table 14.2) whose frame is new and addressed
to this unit, and the ends of the waits. -/

namespace Sys2Proof.Machine

section

variable {s u : State} {n : Fin 4} {head : ChordHead} {src dst : CAddr}
  (htake : clTake s n head false = (u, true)) (hdst : dst = myAddr s)
include htake hdst

/-! ### Joining (R330) -/

theorem exec_partJoin_here (cjob : BitVec 32) (ncpl : Nat) :
    exec (.partJoin n head src dst cjob ncpl) s = .next (joinPart u src cjob ncpl) :=
  congrArg Host.Outcome.next (partFrame_here htake hdst)

theorem exec_partJoin_none (h : s.lsv.cjob = none) (cjob : BitVec 32) (ncpl : Nat) :
    exec (.partJoin n head src dst cjob ncpl) s =
      .next (sendPart u (myAddr u) src (.finish CC.failRefused Rsn.noCjob)) := by
  rw [exec_partJoin_here htake hdst, joinPart_none (by rw [lsv_of_untaken (untaken_of_new htake), h])]

section

variable {c : Coord} {cjob : BitVec 32} {ncpl : Nat} (hc : s.lsv.cjob = some c)
include hc

theorem exec_partJoin_refused (h : c.cjob ≠ cjob ∨ src.side ≠ partSide s ∨ c.open_ = false) :
    exec (.partJoin n head src dst cjob ncpl) s =
      .next (sendPart u (myAddr u) src (.finish CC.failRefused Rsn.noCjob)) := by
  have hview := untaken_of_new htake
  rw [exec_partJoin_here htake hdst, joinPart_refused (by rw [lsv_of_untaken hview, hc])]
  rwa [partSide_of_untaken hview]

variable (hjob : c.cjob = cjob) (hside : src.side = partSide s) (hopen : c.open_ = true)
include hjob hside hopen

/-- A member of the solve is one of its parts from here on, and the join wait ends with the last one awaited. -/
theorem partJoin_joined (hncpl : c.ncpl = ncpl) (hlen : c.got.length ≤ c.joined.length) :
    Completes (exec (.partJoin n head src dst cjob ncpl) s) fun t => t.out = s.out ∧
      ∃ c', t.lsv.cjob = some c' ∧ src.member ∈ c'.joined ∧ (∀ x ∈ c.joined, x ∈ c'.joined) ∧ c'.cjob = cjob ∧
        (c'.open_ = false ↔ ∀ x : Fin 8, x ≠ 0 → c.awaited.getLsbD x.val = true → x ∈ c'.joined) := by
  have hview := untaken_of_new htake
  have hjoin := joinPart_joined (by rw [lsv_of_untaken hview, hc]) hjob (hside.trans (partSide_of_untaken hview).symm)
    hopen hncpl hlen
  refine ⟨_, (exec_partJoin_here htake hdst cjob ncpl).trans (congrArg Host.Outcome.next hjoin),
    (congrArg State.out hview :), _, rfl, mem_withMember.2 (.inl rfl), fun x hx => mem_withMember.2 (.inr hx), hjob, ?_⟩
  rw [Bool.not_eq_false', allJoined_iff]
  rfl

/-- A member with another NCPL ends the solve. -/
theorem partJoin_mismatch (hncpl : c.ncpl ≠ ncpl) :
    Completes (exec (.partJoin n head src dst cjob ncpl) s) fun t => t.lsv.cjob = none ∧
      ∀ j, runningJob s = some j → t.lsv.held = s.lsv.held.filter (·.index ≠ j.index) := by
  have hview := untaken_of_new htake
  have hheld : u.lsv.held = s.lsv.held := by rw [lsv_of_untaken hview]
  have hjoin := joinPart_mismatch (by rw [lsv_of_untaken hview, hc]) hjob
    (hside.trans (partSide_of_untaken hview).symm) hopen hncpl
  refine ⟨_, (exec_partJoin_here htake hdst cjob ncpl).trans (congrArg Host.Outcome.next hjoin),
    endSolve_cjob rfl _ _, fun j hrun => ?_⟩
  rw [held_endSolve (s := withCoord u _) rfl _ _ ((runningJob_congr hheld).trans hrun), ← hheld]
  rfl

end

/-! ### Contributions (R331) -/

section

variable {cmd : Instr} {vals : List Word} {c : Coord} (hc : s.lsv.cjob = some c) (hopen : c.open_ = false)
  (hm : src.member ∈ c.joined) (hnew : ∀ g ∈ c.got, g.member ≠ src.member)
  (hcmd : cmd = .schur n head src dst vals ∧ c.step = 1 ∨
    cmd = .cplrhs n head src dst vals ∧ (c.step = 2 ∨ c.step = 4) ∨
    cmd = .cplstep n head src dst vals ∧ (c.step = 3 ∨ c.step = 5))
include hc hm hnew hcmd

/-- A contribution to the present step is kept, and the coordinator replies when it is the last. -/
theorem exec_contribution : exec cmd s = .next (coordReply (contribute u c src.member vals)) := by
  have hcu : u.lsv.cjob = some c := by rw [lsv_of_untaken (untaken_of_new htake), hc]
  have hmsg {steps : List Nat} (hstep : c.step ∈ steps) (f : CplFrame) :
      partFrame s n head src dst f (fun s => partMsg s steps src.member vals) =
        coordReply (contribute u c src.member vals) :=
    (partFrame_here htake hdst).trans (partMsg_new hcu hm hnew hstep vals)
  rcases hcmd with ⟨rfl, h⟩ | ⟨rfl, h⟩ | ⟨rfl, h⟩
  · exact congrArg Host.Outcome.next (hmsg (by simp [h]) _)
  · exact congrArg Host.Outcome.next (hmsg (by simpa using h) _)
  · exact congrArg Host.Outcome.next (hmsg (by simpa using h) _)

theorem exec_contribution_kept (hlen : c.got.length < c.joined.length) :
    exec cmd s = .next (contribute u c src.member vals) := by
  rw [exec_contribution htake hdst hc hm hnew hcmd]
  exact congrArg Host.Outcome.next (coordReply_of_missing rfl (by simpa using hlen))

include hopen

/-- The last contribution to a step: what the coordinator does with those of every part. -/
theorem contribution_last {c' : Coord} (hc' : c' = { c with got := c.got ++ [⟨src.member, vals⟩] }) {j : Job}
    {w : QpWork} (hlen : c.joined.length ≤ c.got.length) (hrun : runningJob s = some j) (hkept : j.kept = some w)
    (hsound : j.failed = none) {g : List (List Word)} (hg : g = inOrder c'.got) {s' : State}
    (hs' : s' = contribute u c src.member vals) :
    (c.step = 1 → exec cmd s = .next (coordTests s' c' j w g)) ∧
    (c.step = 2 ∨ c.step = 4 → exec cmd s = .next (coordSolve s' c' j w g)) ∧
    (c.step = 5 → Completes (exec cmd s) fun t => (t.lsv.cjob.map (·.step)) = some 1 ∧
      ∀ x ∈ c.joined, SentPart u t ⟨x, partSide s⟩ (.reply [dMin dOne (dMul (xTau j.ext) (partMin g 0))])) ∧
    (c.step = 3 → Completes (exec cmd s) fun t => (t.lsv.cjob.map (·.step)) = some 4 ∧
      ∃ sigma, (∀ x ∈ c.joined, SentPart u t ⟨x, partSide s⟩ (.reply [partMin g 0, sigma])) ∧
        (c.mc = 0 → sigma = 0) ∧
        (c.mc ≠ 0 → sigma = dCube (dDiv (dDiv (partSum g 1) c.mc) (dDiv c.comp c.mc)))) := by
  subst hc' hs'
  have hview := untaken_of_new htake
  have hlsv := lsv_of_untaken hview
  have hrun' : runningJob (contribute u c src.member vals) = some j :=
    (runningJob_congr (congrArg LsvSt.held hlsv)).trans hrun
  obtain ⟨htests, hsolve, hcorr, hround⟩ := coordReply_of_complete (s := contribute u c src.member vals) rfl hopen
    (by simpa [Nat.lt_succ_iff] using hlen) hg hrun' hkept hsound
  have hexec := exec_contribution htake hdst hc hm hnew hcmd
  have hnext (vals' : List Word) {t : State}
      (ht : t = coordNext (contribute u c src.member vals)
        { c with got := c.got ++ [⟨src.member, vals⟩] } j vals') :
      t.lsv.cjob.map (·.step) = some (c.step % 5 + 1) ∧
        ∀ x ∈ c.joined, SentPart u t ⟨x, partSide s⟩ (.reply vals') := by
    subst ht
    obtain ⟨hstep, hsent⟩ := coordNext_effect (contribute u c src.member vals)
      { c with got := c.got ++ [⟨src.member, vals⟩] } j vals'
    rw [← partSide_of_untaken hview]
    exact ⟨hstep, fun x hx => (hsent x hx).of_wayView rfl⟩
  refine ⟨fun h => by rw [hexec, htests h], fun h => by rw [hexec, hsolve h], fun h => ?_, fun h => ?_⟩
  · obtain ⟨hstep, hsent⟩ := hnext _ (hround h)
    exact ⟨_, hexec, by rw [hstep, h], hsent⟩
  · obtain ⟨hstep, hsent⟩ := hnext _ (hcorr h)
    exact ⟨_, hexec, by rw [hstep, h], _, hsent, fun hz => if_pos hz, fun hz => by simp only [if_neg hz]⟩

end

/-! ### Replies and ends (R183, R332) -/

theorem exec_cplreply_member {j : Job} (hj : memberPart s = some j) (vals : List Word) :
    exec (.cplreply n head src dst vals) s =
      .next (partReply { u with free := s.free + 1 } j (atLeast s.free 0) vals) := by
  have hview := untaken_of_new htake
  have hj' : memberPart u = some j := (congrArg memberPart hview :).trans hj
  have hfree : u.free = s.free := (congrArg State.free hview :)
  refine congrArg Host.Outcome.next ((partFrame_here htake hdst).trans ?_)
  simp only [takeReply, hj', hfree]

/-- A part ends by the CPLEND of its coordinator, unless it was cancelled or is over its budget. -/
theorem cplend_member {j : Job} (hj : memberPart s = some j) {o : JobObs} (hcancel : j.cancel = false)
    (hbudget : dBudget j.desc = 0 ∨ runTime (advance s o.at_) j < dBudget j.desc) (code rsn : BitVec 8) :
    Completes (exec (.cplend n head src dst code rsn o) s) fun t =>
      t.lsv.held = s.lsv.held.filter (·.index ≠ j.index) ∧ t.lsv.flop = o.flop ∧ t.lsv.cyc = o.cyc := by
  have hview := untaken_of_new htake
  have hj' : memberPart u = some j := (congrArg memberPart hview :).trans hj
  have htime : runTime (advance u o.at_) j = runTime (advance s o.at_) j :=
    (congrArg (fun v : State => runTime (advance v o.at_) j) hview :)
  have hend := takeEnd_member hj' hcancel (htime ▸ hbudget) src code.toNat rsn.toNat
  obtain ⟨hheld, hflop, hcyc, -⟩ := finishJob_effect (freeTaken (advance u o.at_)) j
    (partEnd (advance u o.at_) j code.toNat rsn.toNat) o
  refine ⟨_, congrArg Host.Outcome.next ((partFrame_here htake hdst).trans hend), ?_, hflop, hcyc⟩
  rw [hheld, ← lsv_of_untaken hview]
  rfl

/-- A part that failed ends the solve of its coordinator (log entry 88). -/
theorem cplend_coordinator {c : Coord} (hc : s.lsv.cjob = some c) (hm : src.member ∈ c.joined) (code rsn : BitVec 8)
    (o : JobObs) : Completes (exec (.cplend n head src dst code rsn o) s) fun t => t.lsv.cjob = none ∧
      ∀ j, runningJob s = some j → t.lsv.held = s.lsv.held.filter (·.index ≠ j.index) := by
  have hlsv := lsv_of_untaken (untaken_of_new htake)
  have hheld : u.lsv.held = s.lsv.held := by rw [hlsv]
  have hcu : u.lsv.cjob = some c := by rw [hlsv, hc]
  have hend := takeEnd_coordinator hcu hm code.toNat rsn.toNat o
  refine ⟨_, congrArg Host.Outcome.next ((partFrame_here htake hdst).trans hend),
    endSolve_cjob (s := advance u o.at_) hcu _ _, fun j hrun => ?_⟩
  rw [held_endSolve (s := advance u o.at_) hcu _ _ ((runningJob_congr hheld).trans hrun), ← hheld]
  rfl

end

/-! ### Waits that end (R184, R330) -/

section

variable {s : State} {j : Job} {stop : Nat} (hstop : stop = j.waitFrom + xCplWait j.ext * 1000)
  (hover : stop ≤ (advance s stop).tb.now)
include hstop hover

/-- The join wait is over: the solve ends, and the parts that joined are told. -/
theorem joinWaitExpiry_effect {c : Coord} (hc : s.lsv.cjob = some c) (hopen : c.open_ = true)
    (hj : coordJob s = some j) : Completes (exec .joinWaitExpiry s) fun t =>
      t.lsv.cjob = none ∧ t.lsv.held = s.lsv.held.filter (·.index ≠ j.index) ∧
        ∀ x ∈ c.joined, SentPart s t ⟨x, partSide s⟩ (.finish CC.failPeerUnreachable Rsn.memberLost) := by
  have hrun : runningJob s = some j := by simpa only [coordJob, hc] using hj
  have hexec : exec .joinWaitExpiry s =
      .next (endSolve (advance s stop) CC.failPeerUnreachable Rsn.memberLost) := by
    subst hstop
    show execJoinWaitExpiry s = _
    simp only [execJoinWaitExpiry, hc, hj, hopen, decide_eq_true hover, Bool.and_self, if_true]
  exact ⟨_, hexec, endSolve_cjob (s := advance s stop) hc _ _, held_endSolve (s := advance s stop) hc _ _ hrun,
    fun x hx => (sentPart_endSolve (s := advance s stop) hc _ _ hx).of_wayView rfl⟩

/-- A part that waited too long for a reply ends. -/
theorem cplwaitExpiry_effect (hj : memberPart s = some j) : Completes (exec .cplwaitExpiry s) fun t =>
    t.lsv.held = s.lsv.held.filter (·.index ≠ j.index) := by
  have hexec : exec .cplwaitExpiry s =
      .next (haltJob (advance s stop) j CC.failPeerUnreachable Rsn.cascadeLost) := by
    subst hstop
    show execCplwaitExpiry s = _
    simp only [execCplwaitExpiry, hj, if_pos hover]
  exact ⟨_, hexec, held_haltJob (advance s stop) j _ _⟩

end

/-! ### The parts of a solve -/

/-- Settles O36: a frame by whether it is new and for this unit (log entry 110), a member by whether the join wait of
its solve runs (log entry 75), a contribution by whether it is the last of its step, and the ends by who takes them (log
entry 88). -/
theorem partitionedSolve : Obligations.PartitionedSolve := by
  refine ⟨?_, fun s u n head src dst htake hdst => ⟨?_, ?_, ?_, ?_⟩, fun s => ⟨?_, ?_⟩⟩
  · intro s n head src dst cmd f cjob ncpl vals code rsn o hcmd
    obtain ⟨act, hexec⟩ := exec_partCmd hcmd s
    rw [hexec]
    exact ⟨fun hold => congrArg Host.Outcome.next (partFrame_old hold), fun hnew hother hway =>
      congrArg Host.Outcome.next (partFrame_forward (Prod.ext rfl hnew) hother hway)⟩
  · intro cjob ncpl
    refine ⟨fun h => exec_partJoin_none htake hdst h cjob ncpl, fun c hc =>
      ⟨exec_partJoin_refused htake hdst hc, fun hjob hside hopen => ⟨?_, ?_⟩⟩⟩
    · exact partJoin_joined htake hdst hc hjob hside hopen
    · exact partJoin_mismatch htake hdst hc hjob hside hopen
  · rintro cmd vals c c' hc hopen hm hnew hc' hcmd
    refine ⟨fun hlen => ?_, fun j w hlen hrun hkept hsound g s' hg hs' => ?_⟩
    · subst hc'
      exact exec_contribution_kept htake hdst hc hm hnew hcmd hlen
    · exact contribution_last htake hdst hc hopen hm hnew hcmd hc' hlen hrun hkept hsound hg hs'
  · intro j hj
    exact ⟨exec_cplreply_member htake hdst hj, fun code rsn o hcancel hbudget =>
      cplend_member htake hdst hj hcancel hbudget code rsn⟩
  · intro c code rsn o hc hm
    exact cplend_coordinator htake hdst hc hm code rsn o
  · intro c j hc hopen hj stop hstop hover
    exact joinWaitExpiry_effect hstop hover hc hopen hj
  · intro j hj stop hstop hover
    exact cplwaitExpiry_effect hstop hover hj

end Sys2Proof.Machine
end

section
/-! SUPPORT. The state of the Metering Engine (R189 to R196): the rules of its channels, signal paths, pulse inputs and
flags, what its calibration notes leave alone, and which cycles its samples end. -/

namespace Sys2Proof.Machine

/-! ### Channels, signal paths and pulse inputs -/

@[simp] theorem chanOf_setChan_same (s : State) (c : Nat) (x : Chan) : chanOf (setChan s c x) c = x := by
  simp [chanOf, setChan]

@[simp] theorem feedOf_setFeed_same (s : State) (f : Nat) (x : FeedSt) : feedOf (setFeed s f x) f = x := by
  simp [feedOf, setFeed]

@[simp] theorem pulseOf_setPulse_same (s : State) (p : Nat) (x : Pulse) : pulseOf (setPulse s p x) p = x := by
  simp [pulseOf, setPulse]

theorem chanOf_of_chans {s t : State} (h : t.mte.chans = s.mte.chans) (c : Nat) : chanOf t c = chanOf s c := by
  simp only [chanOf, h]

theorem feedOf_of_feeds {s t : State} (h : t.mte.feeds = s.mte.feeds) (f : Nat) : feedOf t f = feedOf s f := by
  simp only [feedOf, h]

/-! ### Flags of the open interval (Table 8.7) -/

theorem addFlags_feeder {f : Nat} (hf : f < 32) (s : State) (bits : Nat) :
    addFlags s f bits = wr s Reg.MTE_FSTS_FLAGS (rd s Reg.MTE_FSTS_FLAGS f ||| bits) f := by
  simp only [addFlags, chanField, if_pos hf]

/-- A feeder's flags leave its NOVOLT alone. -/
theorem rd_novolt_addFlags {f : Nat} (hf : f < 32) (s : State) (bits : Nat) :
    rd (addFlags s f bits) Reg.MTE_FSTS_NOVOLT f = rd s Reg.MTE_FSTS_NOVOLT f := by
  rw [addFlags_feeder hf]
  exact rd_wr_of_id_ne (by decide) (by omega) (by omega) _ _

/-! ### Calibration notes -/

/-- The state with another calibration run. -/
def withCal (s : State) (r : Option CalRun) : State := { s with mte := { s.mte with cal := r } }

theorem eq_withCal_self (s : State) : ∃ r, s = withCal s r := ⟨s.mte.cal, rfl⟩

theorem ite_eq_withCal {c : Prop} [Decidable c] {s t u : State} (ht : ∃ r, t = withCal s r)
    (hu : ∃ r, u = withCal s r) : ∃ r, (if c then t else u) = withCal s r := by
  split
  · exact ht
  · exact hu

theorem calHit_eq_withCal (s : State) (i : Nat) : ∃ r, calHit s i = withCal s r := by
  unfold calHit
  split
  · exact ite_eq_withCal ⟨_, rfl⟩ (eq_withCal_self s)
  · exact eq_withCal_self s

theorem calSample_eq_withCal (s : State) (f : Nat) (x : Sample) : ∃ r, calSample s f x = withCal s r := by
  unfold calSample
  split
  · exact ite_eq_withCal ⟨_, rfl⟩ (ite_eq_withCal ⟨_, rfl⟩ (eq_withCal_self s))
  · exact eq_withCal_self s

theorem calCycle_eq_withCal (s : State) (f a fin : Nat) : ∃ r, calCycle s f a fin = withCal s r := by
  unfold calCycle
  split
  · exact ite_eq_withCal ⟨_, rfl⟩ (eq_withCal_self s)
  · exact eq_withCal_self s

/-! ### The samples of a feeder (R193) -/

/-- A sample leaves the faults of the cycle under way and the cycle before alone. -/
theorem feedSample_keeps (g : FeederCfg) (st : FeedSt) (x : Sample) :
    (feedSample g st x).1.hit = st.hit ∧ (feedSample g st x).1.subst = st.subst := by
  unfold feedSample
  extract_lets cross at_ hist low accepted taken novolt st'
  split
  · exact ⟨rfl, rfl⟩
  · split
    · split <;> exact ⟨rfl, rfl⟩
    · dsimp only
      split <;> exact ⟨rfl, rfl⟩

/-- While the voltage is there, only a crossing 14.29 to 25.00 ms after the last boundary ends a cycle. -/
theorem feedSample_crossing {g : FeederCfg} {st st' : FeedSt} {x : Sample} {a b : Nat}
    (h : feedSample g st x = (st', some b)) (ha : st.from_ = some a) (hvolt : st'.novolt = false) :
    crossingOk a b = true := by
  unfold feedSample at h
  extract_lets cross at_ hist low accepted taken novolt st₁ at h
  split at h
  case isTrue haccepted =>
    obtain ⟨-, rfl⟩ : _ ∧ at_ = b := by simpa using h
    have hok : (cross && !low && crossingOk a at_) = true := by simpa only [accepted, ha] using haccepted
    exact (Bool.and_eq_true_iff.1 hok).2
  case isFalse =>
    have hfrom : st₁.from_ = some a := ha
    simp only [hfrom] at h
    split at h
    case isTrue hfixed =>
      obtain rfl : _ = st' := congrArg Prod.fst h
      have hnovolt : novolt = true := (Bool.and_eq_true_iff.1 hfixed).1
      exact absurd (hnovolt.symm.trans hvolt) (by decide)
    case isFalse => cases congrArg Prod.snd h

end Sys2Proof.Machine
end

section
/-! SUPPORT. A line cycle of a feeder (R193 to R195, R199): what its samples leave alone, and how a cycle that no fault
spoils is billed. -/

namespace Sys2Proof.Machine

/-! ### The view -/

/-- What the billing of a path's cycle turns on: the channels, the signal paths, and which inputs of the path are stuck;
with the control array, which metering leaves alone. -/
structure CycleView where
  chans : Tbl Chan
  feeds : Tbl FeedSt
  stuck : List Nat
  csa : CsaSt

/-- The view of a state. -/
def cycleView (f : Nat) (s : State) : CycleView :=
  ⟨s.mte.chans, s.mte.feeds, (inputsOf f).filter (isStuck s), s.csa⟩

theorem lt_of_mem_inputsOf {f i : Nat} (h : i ∈ inputsOf f) : i < 6 * f + 6 := by
  obtain ⟨j, hj, rfl⟩ := List.mem_map.1 h
  have := List.mem_range.1 hj
  omega

theorem cycleView_wr {f i : Nat} {e : Field} (hf : f < 1000) (he : Reg.MTE_INSTS_STUCK.id ≠ e.id) (hi : i < 8192)
    (s : State) (v : Nat) : cycleView f (wr s e v i) = cycleView f s := by
  have hstuck : (inputsOf f).filter (isStuck (wr s e v i)) = (inputsOf f).filter (isStuck s) :=
    List.filter_congr fun j hj => by
      have := lt_of_mem_inputsOf hj
      simp only [isStuck, rdB, rd_wr_of_id_ne he hi (by omega : j < 8192)]
  exact congrArg (CycleView.mk s.mte.chans s.mte.feeds · s.csa) hstuck

theorem cycleView_sampleInputs {f : Nat} (hf : f < 1000) (s : State) (clip : List Nat) :
    cycleView f (sampleInputs s f clip) = cycleView f s := by
  refine foldl_keeps_mem (cycleView f) (fun i hi s => ?_) s
  have hi8 : i < 8192 := by
    have := lt_of_mem_inputsOf hi
    omega
  extract_lets u
  have hu : cycleView f u = cycleView f s := ite_keeps rfl (cycleView_wr hf (by decide) hi8 _ _)
  obtain ⟨r, hr⟩ := calHit_eq_withCal (wr u Reg.MTE_INSTS_S_CLIP 1 i) i
  refine ite_keeps ?_ hu
  rw [hr]
  exact (cycleView_wr hf (by decide) hi8 u 1).trans hu

theorem cycleView_calSample (f : Nat) (s : State) (h : Nat) (x : Sample) :
    cycleView f (calSample s h x) = cycleView f s := by
  obtain ⟨r, hr⟩ := calSample_eq_withCal s h x
  rw [hr]
  rfl

/-- A posting is an input to the tick. -/
theorem cycleView_postMeter (f : Nat) (s : State) (stamp chan : Nat) (l : List (Nat × Word × Qual))
    (n : List (Nat × BitVec 64)) : cycleView f (postMeter s stamp chan l n) = cycleView f s := by
  unfold postMeter
  split
  · exact ite_keeps rfl rfl
  · rfl

theorem cycleView_postCycle (f : Nat) (s : State) (h : Nat) (g : FeederCfg) (st : FeedSt) (o : CycleQ)
    (hit : List Nat) : cycleView f (postCycle s h g st o hit) = cycleView f s := by
  unfold postCycle
  exact cycleView_postMeter _ _ _ _ _ _

/-! ### A cycle that counts (R195, R199) -/

/-- The path and channel of a feeder at the end of a cycle which no fault spoils and with which the open interval is not
full. -/
structure SoundCycle (s : State) (f : Nat) (g : FeederCfg) (st : FeedSt) (iv : Interval) : Prop where
  feeder : f < 32
  hit : st.hit = []
  subst : st.subst = false
  unstuck : (inputsOf f).filter (isStuck s) = []
  opened : (chanOf s f).open_ = some iv
  cfg : (chanOf s f).fcfg = some g
  room : iv.count + 1 < g.n

/-- A channel with one more cycle measured in its open interval. -/
def billedChan (x : Chan) (iv : Interval) (o : CycleQ) : Chan :=
  { x with acc := feederEnergy x.acc (sum3 o.p) (sum3 o.q) o.durNs
           open_ := some { iv with count := iv.count + 1, pmax := dMax iv.pmax (dAbs (sum3 o.p))
                                   pos := iv.pos || !dIsNeg (sum3 o.p), neg := iv.neg || dIsNeg (sum3 o.p) } }

/-- A cycle of a feeder has been measured and counted. -/
structure CycleCounted (s t : State) (f : Nat) (iv : Interval) (o : CycleQ) : Prop where
  chan : chanOf t f = billedChan (chanOf s f) iv o
  prev : (feedOf t f).prev = some o
  csa : t.csa = s.csa

section

variable {s u : State} {f : Nat} {g : FeederCfg} {st : FeedSt} {iv : Interval}

theorem chanOf_of_cycleView (hview : cycleView f u = cycleView f s) : chanOf u f = chanOf s f :=
  chanOf_of_chans (congrArg CycleView.chans hview) f

theorem feedOf_of_cycleView (hview : cycleView f u = cycleView f s) : feedOf u f = feedOf s f :=
  feedOf_of_feeds (congrArg CycleView.feeds hview) f

theorem SoundCycle.of_cycleView (h : SoundCycle s f g st iv) (hview : cycleView f u = cycleView f s) :
    SoundCycle u f g st iv where
  feeder := h.feeder
  hit := h.hit
  subst := h.subst
  unstuck := (congrArg CycleView.stuck hview).trans h.unstuck
  opened := by rw [chanOf_of_cycleView hview, h.opened]
  cfg := by rw [chanOf_of_cycleView hview, h.cfg]
  room := h.room

theorem CycleCounted.of_cycleView {t : State} {o : CycleQ} (h : CycleCounted u t f iv o)
    (hview : cycleView f u = cycleView f s) : CycleCounted s t f iv o where
  chan := by rw [h.chan, chanOf_of_cycleView hview]
  prev := h.prev
  csa := h.csa.trans (congrArg CycleView.csa hview)

theorem SoundCycle.setFeed (h : SoundCycle s f g st iv) (x : FeedSt) : SoundCycle (setFeed s f x) f g st iv :=
  ⟨h.feeder, h.hit, h.subst, h.unstuck, h.opened, h.cfg, h.room⟩

theorem SoundCycle.sampled (h : SoundCycle s f g st iv) (y : Sample) : SoundCycle s f g (feedSample g st y).1 iv := by
  obtain ⟨hhit, hsubst⟩ := feedSample_keeps g st y
  exact { h with hit := hhit.trans h.hit, subst := hsubst.trans h.subst }

/-- A sound cycle adds to the channel and may set flags. -/
theorem billCycle_counted (h : SoundCycle s f g st iv) (fin : Nat) (o : CycleQ) : ∃ bits,
    billCycle s f fin st o false = addFlags (setChan s f (billedChan (chanOf s f) iv o)) f bits := by
  simp only [billCycle, billedChan, h.opened, h.cfg, cycleMeasured, cycleShown, h.subst, Bool.not_false, Bool.true_or,
    Bool.and_true, Bool.true_and, Bool.false_eq_true, if_true, if_false, Nat.add_zero, if_neg (Nat.not_le.2 h.room)]
  exact ⟨_, rfl⟩

/-- The path from which the cycle that ends now can be substituted later. -/
def keptPrev (s : State) (f : Nat) (o : CycleQ) : State := setFeed s f { feedOf s f with prev := some o }

/-- The boundary that ends a sound cycle posts it, keeps it and bills it. -/
theorem endCycle_sound (h : SoundCycle s f g st iv) {fin a : Nat} {o : CycleQ} (ho : o = cycleOf g st.hist a fin) :
    endCycle s f fin g (some a) st = calCycle (billCycle (keptPrev (postCycle
      (setFeed s f { st with clip := [], hit := [], subst := false }) f g st o []) f o) f fin st o false) f a fin := by
  have hf32 : f ≠ 32 := by have := h.feeder; omega
  have hsound : (inputsOf f).any ([] : List Nat).contains = false := List.any_eq_false.2 fun _ _ => by simp
  simp only [endCycle, h.hit, h.unstuck, List.nil_append, hsound, ← ho, keepCycle, cycleMeasured, h.subst,
    Bool.not_false, Bool.true_or, Bool.and_self, if_true, if_neg hf32]
  rfl

theorem endCycle_counted (h : SoundCycle s f g st iv) {fin a : Nat} {o : CycleQ} (ho : o = cycleOf g st.hist a fin) :
    CycleCounted s (endCycle s f fin g (some a) st) f iv o := by
  rw [endCycle_sound h ho]
  generalize hu : setFeed s f { st with clip := [], hit := [], subst := false } = u
  have hview := cycleView_postCycle f u f g st o []
  have hsound : SoundCycle (postCycle u f g st o []) f g st iv := (hu ▸ h.setFeed _).of_cycleView hview
  generalize postCycle u f g st o [] = v at hview hsound
  obtain ⟨bits, hbill⟩ : ∃ bits, billCycle (keptPrev v f o) f fin st o false =
      addFlags (setChan (keptPrev v f o) f (billedChan (chanOf v f) iv o)) f bits :=
    billCycle_counted (hsound.setFeed _) fin o
  obtain ⟨r, hcal⟩ := calCycle_eq_withCal (billCycle (keptPrev v f o) f fin st o false) f a fin
  have hcounted : CycleCounted v (calCycle (billCycle (keptPrev v f o) f fin st o false) f a fin) f iv o := by
    rw [hcal, hbill]
    exact ⟨chanOf_setChan_same (keptPrev v f o) f _, congrArg FeedSt.prev (feedOf_setFeed_same v f _), rfl⟩
  obtain ⟨hchan, hprev, hcsa⟩ := hcounted.of_cycleView hview
  subst hu
  exact ⟨hchan, hprev, hcsa⟩

end

theorem showNovolt_feeder {f : Nat} (hf : f < 32) (s : State) (on : Bool) :
    (showNovolt s f on).mte = s.mte ∧ (showNovolt s f on).csa = s.csa ∧
      rdB (showNovolt s f on) Reg.MTE_FSTS_NOVOLT f = on := by
  have hset : rdB (wrB s Reg.MTE_FSTS_NOVOLT on f) Reg.MTE_FSTS_NOVOLT f = on := rdB_wrB_same rfl s on f
  unfold showNovolt
  rw [if_neg (by omega)]
  refine ⟨ite_keeps (p := State.mte) rfl rfl, ite_keeps (p := State.csa) rfl rfl, ?_⟩
  refine ite_keeps (p := (rdB · Reg.MTE_FSTS_NOVOLT f)) ?_ hset
  exact (congrArg (fun v => decide (v = 1)) (rd_novolt_addFlags hf _ _)).trans hset

/-- A sample that ends a sound cycle. -/
theorem meterSample_counted {s : State} {f : Nat} {g : FeederCfg} {st' : FeedSt} {iv : Interval} {y : Sample}
    {a b : Nat} (h : SoundCycle s f g (feedOf s f) iv) (hy : feedSample g (feedOf s f) y = (st', some b))
    (ha : (feedOf s f).from_ = some a) :
    CycleCounted s (meterSample f g s y) f iv (cycleOf g st'.hist a b) ∧
      rdB (meterSample f g s y) Reg.MTE_FSTS_NOVOLT f = st'.novolt := by
  have hview : cycleView f (calSample (advance s (y.at_ + chainDelay)) f y) = cycleView f s :=
    cycleView_calSample f _ f y
  generalize hu : calSample (advance s (y.at_ + chainDelay)) f y = u at hview
  have hst' : st' = (feedSample g (feedOf s f) y).1 := by rw [hy]
  have hcount : CycleCounted u (endCycle u f b g (some a) st') f iv (cycleOf g st'.hist a b) :=
    endCycle_counted (hst' ▸ (h.sampled y).of_cycleView hview) rfl
  generalize hw : endCycle u f b g (some a) st' = w at hcount
  have hsample : meterSample f g s y = showNovolt (setFeed w f (trimHist (feedOf w f) y.at_)) f st'.novolt := by
    have hfeed : feedOf (advance s (y.at_ + chainDelay)) f = feedOf s f := rfl
    simp only [meterSample, hfeed, hy, hu, ha, hw]
  obtain ⟨hmte, hcsa, hnovolt⟩ := showNovolt_feeder h.feeder (setFeed w f (trimHist (feedOf w f) y.at_)) st'.novolt
  rw [hsample]
  refine ⟨CycleCounted.of_cycleView ⟨?_, ?_, hcsa.trans hcount.csa⟩ hview, hnovolt⟩
  · exact (chanOf_of_chans (congrArg MteSt.chans hmte :) f).trans hcount.chan
  · rw [feedOf_of_feeds (congrArg MteSt.feeds hmte), feedOf_setFeed_same]
    exact hcount.prev

/-! ### The bits of a feeder's inputs (R189) -/

theorem exec_lineCycleEnd_idle {s : State} {f : Fin 33}
    (h : feedCfg s f.val = none ∨ feedsOn s f.val = false ∨ chanState s f.val = .retired) (o : CycleObs) :
    exec (.lineCycleEnd f o) s = .next s := by
  show execLineCycleEnd f o s = _
  unfold execLineCycleEnd
  split
  case h_1 g hg =>
    have hskip : (metering s && chanState s f.val != .retired && feedsOn s f.val) = false := by
      rcases h with h | h | h
      · simp [h] at hg
      · simp [h]
      · simp [h]
    simp only [hskip, Bool.false_eq_true, if_false]
  case h_2 => rfl

theorem exec_lineCycleEnd_meters {s : State} {f : Fin 33} {o : CycleObs} {g : FeederCfg} {st : FeedSt} {l : List Sample}
    (hm : metering s = true) (hg : feedCfg s f.val = some g) (hon : feedsOn s f.val = true)
    (hlive : chanState s f.val ≠ .retired) (hbits : takeBits s f.val g o = (st, l)) :
    exec (.lineCycleEnd f o) s =
      .next (l.foldl (meterSample f.val g) (sampleInputs (setFeed s f.val st) f.val st.clip)) := by
  show execLineCycleEnd f o s = _
  simp only [execLineCycleEnd, hg, hm, hon, bne_iff_ne.2 hlive, Bool.and_self, if_true, hbits]

/-- The one sample of a feeder's bits ends a sound cycle. -/
theorem sample_counted {s : State} {f : Nat} {g : FeederCfg} {st st' : FeedSt} {iv : Interval} {y : Sample} {a b : Nat}
    (h : SoundCycle s f g st iv) (hy : feedSample g st y = (st', some b)) (ha : st.from_ = some a) {t : State}
    (ht : t = meterSample f g (sampleInputs (setFeed s f st) f st.clip) y) :
    CycleCounted s t f iv (cycleOf g st'.hist a b) ∧ rdB t Reg.MTE_FSTS_NOVOLT f = st'.novolt := by
  have hview := cycleView_sampleInputs (Nat.lt_trans h.feeder (by decide)) (setFeed s f st) st.clip
  have hsound := (h.setFeed st).of_cycleView hview
  generalize sampleInputs (setFeed s f st) f st.clip = u at hview hsound ht
  have hfeed : feedOf u f = st := (feedOf_of_cycleView hview).trans (feedOf_setFeed_same s f st)
  rw [← hfeed] at hy ha hsound
  obtain ⟨hcount, hnovolt⟩ := meterSample_counted hsound hy ha
  obtain ⟨hchan, hprev, hcsa⟩ := hcount.of_cycleView hview
  rw [ht]
  exact ⟨⟨hchan, hprev, hcsa⟩, hnovolt⟩

end Sys2Proof.Machine
end

section
/-! SUPPORT. Input faults, filter banks and pulses (R191 to R193, R196). -/

namespace Sys2Proof.Machine

/-! ### A feeder without voltage (R193) -/

theorem novoltTimeout_effect {s : State} {f : Fin 32} (hm : metering s = true)
    (hopen : (chanOf s f.val).open_.isSome = true) : Completes (exec (.novoltTimeout f) s) fun t =>
      rd t Reg.MTE_FSTS_NOVOLT f.val = 1 ∧
        rd t Reg.MTE_FSTS_FLAGS f.val = (rd s Reg.MTE_FSTS_FLAGS f.val ||| 8) % 2 ^ Reg.MTE_FSTS_FLAGS.width ∧
        OnlyFields s t [(Reg.MTE_FSTS_NOVOLT, f.val), (Reg.MTE_FSTS_FLAGS, f.val)] := by
  have hexec : exec (.novoltTimeout f) s =
      .next (addFlags (wr s Reg.MTE_FSTS_NOVOLT 1 f.val) f.val flNovolt) :=
    congrArg Host.Outcome.next (if_pos (by rw [hm, hopen]; rfl))
  have hflags : rd (wr s Reg.MTE_FSTS_NOVOLT 1 f.val) Reg.MTE_FSTS_FLAGS f.val = rd s Reg.MTE_FSTS_FLAGS f.val :=
    rd_wr_of_id_ne (by decide) (by omega) (by omega) s 1
  refine ⟨_, hexec, ?_, ?_, ?_⟩
  · rw [rd_novolt_addFlags f.isLt, rd_wr_same]
    rfl
  · rw [addFlags_feeder f.isLt, rd_wr_same, hflags]
    rfl
  · rw [addFlags_feeder f.isLt]
    exact ⟨rfl, (fieldsBut_wr (by simp) s 1).trans (fieldsBut_wr (by simp) _ _)⟩

/-! ### Stuck inputs (R191) -/

/-- An input shown stuck or not, with its quality. -/
def inputShown (s : State) (i : Nat) (stuck : Bool) : State :=
  wr (wrB s Reg.MTE_INSTS_STUCK stuck i) Reg.MTE_INSTS_QUAL (qualCode (if stuck then .bad else .good)) i

theorem inputShown_reads {i : Nat} (hi : i < 8192) (s : State) (stuck : Bool) :
    rdB (inputShown s i stuck) Reg.MTE_INSTS_STUCK i = stuck ∧
      rd (inputShown s i stuck) Reg.MTE_INSTS_QUAL i = qualCode (if stuck then .bad else .good) ∧
      FieldsBut s (inputShown s i stuck) [(Reg.MTE_INSTS_STUCK, i), (Reg.MTE_INSTS_QUAL, i)] := by
  refine ⟨?_, ?_, (fieldsBut_wr (by simp) s _).trans (fieldsBut_wr (by simp) _ _)⟩
  · refine Eq.trans ?_ (rdB_wrB_same (f := Reg.MTE_INSTS_STUCK) rfl s stuck i)
    exact congrArg (fun v => decide (v = 1)) (rd_wr_of_id_ne (by decide) hi hi _ _)
  · exact (rd_wr_same _ _ _ _).trans (by cases stuck <;> rfl)

/-- The cycle under way of an input's path cannot use the input. -/
def withHit (s : State) (i : Nat) : State :=
  setFeed s (i / 6) { feedOf s (i / 6) with hit := (feedOf s (i / 6)).hit ++ [i] }

theorem mem_hit_withHit (s : State) (i : Nat) : i ∈ (feedOf (withHit s i) (i / 6)).hit := by
  simp [withHit]

theorem inputStuck_effect {s : State} {i : Fin 198} {c : Instr} {stuck : Bool} (hm : metering s = true)
    (hlive : rd s Reg.MTE_INSTS_MSTATE i.val ≠ mstateCode .retired)
    (hc : c = .inputStuck i ∧ stuck = true ∨ c = .inputUnstuck i ∧ stuck = false) :
    Completes (exec c s) fun t => rdB t Reg.MTE_INSTS_STUCK i.val = stuck ∧
      rd t Reg.MTE_INSTS_QUAL i.val = qualCode (if stuck then .bad else .good) ∧
      (stuck = true → i.val ∈ (feedOf t (i.val / 6)).hit) ∧
      FieldsBut s t [(Reg.MTE_INSTS_STUCK, i.val), (Reg.MTE_INSTS_QUAL, i.val)] ∧
      t.mte.chans = s.mte.chans ∧ { t with flds := s.flds, mte := s.mte } = s := by
  have hserved : (metering s && rd s Reg.MTE_INSTS_MSTATE i.val != mstateCode .retired) = true := by simp [hm, hlive]
  rcases hc with ⟨rfl, rfl⟩ | ⟨rfl, rfl⟩
  · obtain ⟨r, hr⟩ := calHit_eq_withCal (withHit s i.val) i.val
    have hexec : exec (.inputStuck i) s = .next (inputShown (withCal (withHit s i.val) r) i.val true) := by
      rw [← hr]
      exact congrArg Host.Outcome.next (if_pos hserved)
    obtain ⟨hstuck, hqual, hrest⟩ := inputShown_reads (i := i.val) (by omega) (withCal (withHit s i.val) r) true
    exact ⟨_, hexec, hstuck, hqual, fun _ => mem_hit_withHit s i.val, hrest, rfl, rfl⟩
  · obtain ⟨hstuck, hqual, hrest⟩ := inputShown_reads (i := i.val) (by omega) s false
    exact ⟨_, congrArg Host.Outcome.next (if_pos hserved), hstuck, hqual, by simp, hrest, rfl, rfl⟩

/-! ### The upset of a filter bank (R192, R391) -/

/-- A bank that has suffered its first upset. -/
def bankSuspect (s : State) (b : Fin 8) : State :=
  let t := wr (wr s Reg.MTE_BANKSTS_MSTATE (mstateCode .suspect) b.val) Reg.MTE_BANKSTS_FCOUNT 1 b.val
  { t with ssu := { t.ssu with windows := t.ssu.windows ++ [⟨⟨.meter, b.val⟩, .inService, t.tb.tick⟩] } }

theorem upset_bank {s : State} {b : Fin 8} (hruns : WindowRuns s ⟨.meter, b.val⟩)
    (hm : rd s Reg.MTE_BANKSTS_MSTATE b.val = mstateCode .inService) (work : State → State) :
    upset s ⟨.meter, b.val⟩ work = (bankSuspect s b, false) := by
  have hstate : resState s ⟨.meter, b.val⟩ = .inService := congrArg mstateOf hm
  unfold upset
  rw [windowClose_of_runs hruns]
  simp only [hstate]
  rfl

/-- The count of the banks and the spare are all that `MTE_STATUS` shows of them. -/
theorem rd_showBanks {e : Field} {i : Nat} (hbanks : e.id ≠ Reg.MTE_STATUS_BANKS.id)
    (hspare : e.id ≠ Reg.MTE_STATUS_SPARE.id) (hi : i < 8192) (s : State) : rd (showBanks s) e i = rd s e i :=
  (rd_wr_of_id_ne hspare (by omega) hi _ _).trans (rd_wr_of_id_ne hbanks (by omega) hi s _)

theorem filterBankFault_effect {s : State} {b : Fin 8} (hmeter : metering s = true)
    (hm : rd s Reg.MTE_BANKSTS_MSTATE b.val = mstateCode .inService) (hruns : WindowRuns s ⟨.meter, b.val⟩) :
    Completes (exec (.filterBankFault b) s) fun t => rd t Reg.MTE_BANKSTS_MSTATE b.val = mstateCode .suspect ∧
      rd t Reg.MTE_BANKSTS_FCOUNT b.val = 1 ∧
      t.ssu.windows = s.ssu.windows ++ [⟨⟨.meter, b.val⟩, .inService, s.tb.tick⟩] ∧ t.mte = s.mte := by
  have hexec : exec (.filterBankFault b) s = .next (showBanks (bankSuspect s b)) := by
    refine congrArg Host.Outcome.next ((if_pos hmeter).trans ?_)
    simp only [bankFault, upset_bank hruns hm, Bool.false_eq_true, if_false]
  refine ⟨_, hexec, ?_, ?_, rfl, rfl⟩
  · rw [rd_showBanks (by decide) (by decide) (by omega)]
    exact (rd_wr_of_id_ne (f := Reg.MTE_BANKSTS_FCOUNT) (by decide) (by omega) (by omega) _ 1).trans
      (rd_wr_same s Reg.MTE_BANKSTS_MSTATE b.val _)
  · rw [rd_showBanks (by decide) (by decide) (by omega)]
    exact rd_wr_same (wr s Reg.MTE_BANKSTS_MSTATE _ b.val) Reg.MTE_BANKSTS_FCOUNT b.val 1

/-! ### Pulses (R196) -/

section

variable {s : State} {p : Fin 32} {g : PulseCfg} {held : Nat} (hm : metering s = true)
  (hg : pulseCfg s p.val = some g) (hen : g.en = true)
include hm hg hen

theorem pulseEdge_accepted (hheld : (g.deb + 2) * 1000 ≤ held) (edge : Nat) :
    Completes (exec (.pulseEdge p edge held) s) fun t =>
      pulseOf t p.val = { pulseOf s p.val with
        count := (pulseOf s p.val).count + 1, lastEdge := some edge, newEdges := (pulseOf s p.val).newEdges + 1 } ∧
      t.flds = s.flds := by
  have hlong : ¬held < g.deb * 1000 := by omega
  have hexec : exec (.pulseEdge p edge held) s = .next (setPulse (advance s edge) p.val { pulseOf s p.val with
      count := (pulseOf s p.val).count + 1, lastEdge := some edge, newEdges := (pulseOf s p.val).newEdges + 1 }) := by
    show execPulseEdge p edge held s = _
    simp only [execPulseEdge, hg, hen, hm, Bool.and_self, if_true, if_neg hlong, if_pos hheld]
    rfl
  exact ⟨_, hexec, pulseOf_setPulse_same _ _ _, rfl⟩

theorem pulseEdge_glitch (hheld : held < g.deb * 1000) (edge : Nat) :
    Completes (exec (.pulseEdge p edge held) s) fun t =>
      rd t Reg.MTE_INSTS_GLITCH p.val =
        min (rd s Reg.MTE_INSTS_GLITCH p.val + 1) (2 ^ Reg.MTE_INSTS_GLITCH.width - 1) ∧ t.mte = s.mte := by
  have hexec : exec (.pulseEdge p edge held) s = .next (bump (advance s edge) Reg.MTE_INSTS_GLITCH p.val) := by
    show execPulseEdge p edge held s = _
    simp only [execPulseEdge, hg, hen, hm, Bool.and_self, if_true, if_pos hheld, Bool.false_eq_true, if_false]
  exact ⟨_, hexec, bump_same (advance s edge) _ _ _, rfl⟩

end

end Sys2Proof.Machine
end

section
/-! SUPPORT. Latch records across a pair (R202, R209) and the periodic records (R205). -/

namespace Sys2Proof.Machine

/-! ### A decided record -/

/-- The engine but for the records that wait for the host ring. -/
def unstaged (s : State) : MteSt := { s.mte with staging := [] }

@[simp] theorem msix_mte (s : State) (vec : Nat) : (msix s vec).mte = s.mte :=
  ite_keeps (p := State.mte) (ite_keeps (p := State.mte) rfl rfl) rfl

theorem ringLatch_mte (s : State) (r : LatchRec) : (ringLatch s r).mte = s.mte :=
  ite_keeps (p := State.mte) rfl (msix_mte _ _)

theorem unstaged_writeLatch (s : State) (r : LatchRec) : unstaged (writeLatch s r) = unstaged s :=
  ite_keeps (ite_keeps rfl rfl) (congrArg (fun m : MteSt => { m with staging := [] }) (ringLatch_mte s r))

/-- A record with the flags its comparison adds. -/
def decided (r : LatchRec) (bits : Nat) : LatchRec := { r with flags := r.flags ||| BitVec.ofNat 16 bits }

/-- A decided record takes the place of the same one in its channel; nothing else of the engine shows it but the
channel's run of differing intervals. -/
theorem unstaged_decideLatch (s : State) (r : LatchRec) (bits : Nat) : ∃ x : Chan,
    unstaged (decideLatch s r bits) = unstaged (setChan s (recChan r) x) ∧
      ∀ l, (chanOf s (recChan r)).latch = some l → l.seq = r.seq → x.latch = some (decided r bits) := by
  unfold decideLatch
  extract_lets c r' x x' diff run u v
  refine ⟨{ x' with diffRun := if diff then run + 1 else 0 }, (unstaged_writeLatch _ _).trans ?_, fun l hl hseq => ?_⟩
  · have hv : v.mte = u.mte :=
      ite_keeps (p := State.mte) (ite_keeps (p := State.mte) (event_mte _ _ _ _) rfl)
        (ite_keeps (p := State.mte) rfl (event_mte _ _ _ _))
    exact congrArg (fun m : MteSt => { m with staging := [] }) hv
  · have hx : x.latch = some l := hl
    simp only [x', hx, hseq, r', if_true]
    rfl

/-! ### The partner's records (R209) -/

theorem pairPasses_mte (s : State) (thermal : Bool) (a b : Option (List Nat)) :
    (pairPasses s thermal a b).2.mte = s.mte := by
  unfold pairPasses
  split <;> rfl

/-- The partner's accumulators in a record's channel are those of the record. -/
def withPartner (s : State) (r : LatchRec) : State :=
  setChan s (recChan r) { chanOf s (recChan r) with partnerAcc := some (r.seq, r.acc) }

/-- What the partner's accumulators have gained since the record before, when that one is known (R209). -/
def partnerDeltas (x : Chan) (r : LatchRec) : Option (List Nat) :=
  (x.partnerAcc.filter fun a => a.1 + 1 = r.seq).map fun a =>
    (List.range 6).map fun i => (r.acc.getD i 0 - a.2.getD i 0).toNat

/-- An own record waits no more. -/
def unwaited (s : State) (w : LatchWait) : State :=
  { s with mte := { s.mte with waiting := s.mte.waiting.erase w } }

section

variable {s : State} {r : LatchRec} (hm : metering s = true)
include hm

theorem latchRecordRx_kept (h : s.mte.waiting.find? (fun w => formPair w.record r) = none) :
    Completes (exec (.latchRecordRx r) s) fun t =>
      (chanOf t (recChan r)).partnerAcc = some (r.seq, r.acc) ∧ t.mte.waiting = s.mte.waiting ∧
      ∃ d, t.mte.partner = s.mte.partner.filter (fun o => recChan o.record ≠ recChan r) ++ [⟨r, d⟩] := by
  have hwait : (withPartner s r).mte.waiting.find? (fun w => formPair w.record r) = none := h
  have hexec : exec (.latchRecordRx r) s =
      .next { withPartner s r with mte := { (withPartner s r).mte with
        partner := s.mte.partner.filter (fun o => recChan o.record ≠ recChan r) ++
          [⟨r, partnerDeltas (chanOf s (recChan r)) r⟩] } } := by
    refine congrArg Host.Outcome.next ((if_pos hm).trans ?_)
    dsimp only
    split
    case h_1 w hw => cases hwait.symm.trans hw
    case h_2 => rfl
  have hchan := chanOf_setChan_same s (recChan r)
    { chanOf s (recChan r) with partnerAcc := some (r.seq, r.acc) }
  exact ⟨_, hexec, congrArg Chan.partnerAcc hchan, rfl, _, rfl⟩

theorem latchRecordRx_meets {w : LatchWait}
    (h : s.mte.waiting.find? (fun w => formPair w.record r) = some w) :
    Completes (exec (.latchRecordRx r) s) fun t =>
      t.mte.waiting = s.mte.waiting.erase w ∧ t.mte.partner = s.mte.partner := by
  have hwait : (withPartner s r).mte.waiting.find? (fun w => formPair w.record r) = some w := h
  generalize hp : pairPasses (unwaited (withPartner s r) w) r.thermal w.deltas
    (partnerDeltas (chanOf s (recChan r)) r) = p
  have hexec : exec (.latchRecordRx r) s = .next (decideLatch p.2 w.record (if p.1 then 0 else flPairdiff)) := by
    refine congrArg Host.Outcome.next ((if_pos hm).trans ?_)
    dsimp only
    split
    case h_1 w' hw =>
      obtain rfl : w = w' := Option.some.inj (hwait.symm.trans hw)
      subst hp
      rfl
    case h_2 hw => cases hwait.symm.trans hw
  have hmte : p.2.mte = (unwaited (withPartner s r) w).mte := hp ▸ pairPasses_mte _ _ _ _
  obtain ⟨x, hview, -⟩ := unstaged_decideLatch p.2 w.record (if p.1 then 0 else flPairdiff)
  exact ⟨_, hexec, (congrArg MteSt.waiting hview).trans (congrArg MteSt.waiting hmte),
    (congrArg MteSt.partner hview).trans (congrArg MteSt.partner hmte :)⟩

end

theorem pairmissTimeout_effect {s : State} {c : Fin 96} {w : LatchWait} {bits : Nat}
    (h : s.mte.waiting.find? (fun w => recChan w.record = c.val) = some w)
    (hbits : bits = if paired s = true ∧ (modeOf (rd s Reg.RDU_STATUS_PMODE) = .recall ∨
      modeOf (rd s Reg.RDU_STATUS_PMODE) = .test) then 0 else 256) :
    Completes (exec (.pairmissTimeout c) s) fun t => t.mte.waiting = s.mte.waiting.erase w ∧
      ∀ l, (chanOf s c.val).latch = some l → l.seq = w.record.seq →
        (chanOf t c.val).latch = some (decided w.record bits) := by
  have hchan : recChan w.record = c.val := by simpa using List.find?_some h
  have hexec : exec (.pairmissTimeout c) s = .next (decideLatch (unwaited s w) w.record bits) := by
    subst hbits
    show execPairmissTimeout c s = _
    simp only [execPairmissTimeout, h, Bool.and_eq_true, Bool.or_eq_true, decide_eq_true_eq]
    rfl
  obtain ⟨x, hview, hlatch⟩ := unstaged_decideLatch (unwaited s w) w.record bits
  rw [hchan] at hview hlatch
  have hx : chanOf (decideLatch (unwaited s w) w.record bits) c.val = x :=
    (chanOf_of_chans (congrArg MteSt.chans hview :) c.val).trans (chanOf_setChan_same _ _ _)
  exact ⟨_, hexec, (congrArg MteSt.waiting hview :), fun l hl hseq => hx ▸ hlatch l hl hseq⟩

/-! ### The periodic records (R205) -/

theorem recalling_of_metering {s : State} (h : metering s = true) : recalling s = false := by
  have hmode : modeIs s ≠ .recall := fun hrecall => by simp [metering, hrecall] at h
  simp [recalling, hmode]

theorem meterPeriodicSave_effect {s : State} (hm : metering s = true) (hsave : modeIs s ≠ .save)
    (hq : s.nvs.queue = []) (hfit : (writeRange s (.record 0x30 (.meter (meterRec s 0)))).fits = true) :
    Completes (exec .meterPeriodicSave s) fun t =>
      t.nvs.queue = [⟨4, .record 0x30 (.meter (meterRec s 0)), .meter 0⟩] ∧ t.mte = s.mte := by
  have hexec : exec .meterPeriodicSave s =
      .next (setQueue s [⟨4, .record 0x30 (.meter (meterRec s 0)), .meter 0⟩]) :=
    congrArg Host.Outcome.next <| (if_pos (by simp [hm, hsave])).trans <|
      nvsSave_of_idle (recalling_of_metering hm) hfit hq
  exact ⟨_, hexec, rfl, rfl⟩

theorem exec_heartbeat_waits {s : State} (hr : recalling s = false) (hwave : s.ssu.wave = some 0) :
    exec .heartbeat s = .next { s with mte := { s.mte with beatDue := true } } :=
  congrArg Host.Outcome.next ((if_neg (by simp [hr])).trans (if_pos hwave))

theorem heartbeat_effect {s : State} (hr : recalling s = false) (hwave : s.ssu.wave ≠ some 0)
    (hq : s.nvs.queue = []) (hfit : (writeRange s (.record 0x31 (.beat (beatRec s)))).fits = true) :
    Completes (exec .heartbeat s) fun t =>
      t.nvs.queue = [⟨4, .record 0x31 (.beat (beatRec s)), .beat⟩] ∧ t.mte = s.mte := by
  have hexec : exec .heartbeat s = .next (setQueue s [⟨4, .record 0x31 (.beat (beatRec s)), .beat⟩]) :=
    congrArg Host.Outcome.next <| (if_neg (by simp [hr])).trans <| (if_neg hwave).trans <|
      nvsSave_of_idle hr hfit hq
  exact ⟨_, hexec, rfl, rfl⟩

/-! ### Metering -/

/-- Settles O37: a boundary by whether the voltage is there, the bits of a feeder by whether it meters, and each event by
the one lemma that says what it leaves; a cycle that no fault spoils is counted by `sample_counted`. -/
theorem meteringEngine : Obligations.Metering := by
  refine ⟨⟨fun g st st' x a b hx ha hvolt => ?_, fun s hm => ⟨fun f o => ⟨?_, ?_⟩, ?_, ?_, ?_, ?_⟩⟩,
    fun s => ⟨?_, ?_, ?_, ?_⟩⟩
  · simpa [crossingOk] using feedSample_crossing hx ha hvolt
  · exact fun h => exec_lineCycleEnd_idle h o
  · intro g st l hg hon hlive hbits
    have hexec := exec_lineCycleEnd_meters hm hg hon hlive hbits
    refine ⟨hexec, ?_⟩
    rintro x iv y st' a b q p hf rfl hy ha hhit hstuck rfl hopen hcfg hsubst hroom rfl rfl
    have hnone : (inputsOf f.val).filter (isStuck s) = [] :=
      List.filter_eq_nil_iff.2 fun i hi => Bool.not_eq_true _ ▸ hstuck i hi
    obtain ⟨⟨hchan, hprev, hcsa⟩, hnovolt⟩ :=
      sample_counted ⟨hf, hhit, hsubst, hnone, hopen, hcfg, hroom⟩ hy ha rfl
    exact ⟨_, hexec, hchan, hprev, hnovolt, hcsa⟩
  · exact fun f hopen => novoltTimeout_effect hm hopen
  · exact fun i c stuck hlive hc => inputStuck_effect hm hlive hc
  · exact fun b hserves hruns => filterBankFault_effect hm hserves hruns
  · exact fun p g edge held hg hen =>
      ⟨fun h => pulseEdge_accepted hm hg hen h edge, fun h => pulseEdge_glitch hm hg hen h edge⟩
  · exact fun hm r => ⟨latchRecordRx_kept hm, fun w => latchRecordRx_meets hm⟩
  · exact fun c w bits => pairmissTimeout_effect
  · exact meterPeriodicSave_effect
  · exact fun hr => ⟨exec_heartbeat_waits hr, heartbeat_effect hr⟩

end Sys2Proof.Machine
end

section
/-! SUPPORT. Calibration runs (R221 to R226, Table 9.4): START, ABORT and WRITE, the end of a run, its windows and its
verification. -/

namespace Sys2Proof.Machine

/-! ### Register fields -/

/-- Every element of a field keeps its value when any element of a field before it in the table is written. -/
theorem rd_wr_elem_of_id_lt {f g : Field} (h : f.id < g.id) {i : Nat} (hi : i < 8192) (j : Nat) (s : State) (v : Nat) :
    rd (wr s f v i) g j = rd s g j := rd_wr_ne (by simp only [Field.key]; omega) s v

/-- Recall shows in two fields. -/
theorem recalling_of_fields {s t : State} (hmode : rd t Reg.SSU_MODE_MODE = rd s Reg.SSU_MODE_MODE)
    (hrecall : rd t Reg.NVS_STATUS_RECALL = rd s Reg.NVS_STATUS_RECALL) : recalling t = recalling s :=
  congrArg₂ (fun m n => decide (modeOf m = .recall) && decide (n = 1)) hmode hrecall

theorem recalling_wr {f : Field} {i : Nat} (hmode : Reg.SSU_MODE_MODE.key 0 ≠ f.key i)
    (hrecall : Reg.NVS_STATUS_RECALL.key 0 ≠ f.key i) (s : State) (v : Nat) : recalling (wr s f v i) = recalling s :=
  recalling_of_fields (rd_wr_ne hmode s v) (rd_wr_ne hrecall s v)

theorem setQueue_mte (s : State) (l : List WriteReq) : (setQueue s l).mte = s.mte := rfl

/-- A fold holds the value to which one of its steps sets a view that every other step keeps. -/
theorem foldl_sets {α β : Type} {p : State → β} {f : State → α → State} {l : List α} {x : α} {v : β} (hx : x ∈ l)
    (hset : ∀ s, p (f s x) = v) (hkeep : ∀ y, y ≠ x → ∀ s, p (f s y) = p s) (s : State) : p (l.foldl f s) = v := by
  obtain ⟨l₁, l₂, rfl⟩ := List.append_of_mem hx
  refine (congrArg p List.foldl_append).trans ?_
  refine List.foldlRecOn (motive := fun t => p t = v) l₂ f (hset _) fun t ht y _ => ?_
  by_cases hy : y = x
  · exact hy ▸ hset t
  · exact (hkeep y hy t).trans ht

/-! ### START and ABORT (R224, R225) -/

theorem calStart_accepted {s : State} {g : FeederCfg} (hp : rdB s Reg.MTE_CALSTS_PEND = false)
    (hrecall : modeIs s ≠ .recall) (htest : modeIs s ≠ .test) (hsave : modeIs s ≠ .save)
    (hg : feederCfg s (rd s Reg.MTE_CALCFG_FEEDER) = some g) (hen : g.en = true)
    (hf : rd s Reg.MTE_CALCFG_FEEDER < 32) (href : refFault s = false)
    (hwait : shadowWaits s (rd s Reg.MTE_CALCFG_FEEDER) = false) :
    Completes (exec .calStart s) fun t =>
      rd t Reg.MTE_CALSTS_PEND = 1 ∧ rd t Reg.MTE_CALSTS_STAGE = 1 ∧ rd t Reg.MTE_CALSTS_WIN = 0 ∧
      ∃ r, t.mte.cal = some r ∧ r.feeder.val = rd s Reg.MTE_CALCFG_FEEDER ∧ r.prev = [] ∧ r.discarded = 0 ∧
        r.cycles = 0 := by
  refine ⟨_, rfl, ?_⟩
  unfold calStart
  -- in none of the modes of Table 9.4 that refuse it, START goes on to its other checks
  simp only [hp, hg, hen, href, hwait, Bool.false_eq_true, Bool.not_true, if_false]
  refine ⟨?_, ?_, rd_wr_same _ _ _ _, _, rfl, Nat.mod_eq_of_lt hf, rfl, rfl, rfl⟩
  all_goals
    simp (disch := decide) only [rd_eq, wr_flds, rdIn_wrTbl_ne, rdIn_wrTbl_same]
    rfl

/-- A run that ends leaves its outcome and no run. -/
theorem calEnd_effect (s : State) (code rsn : Nat) :
    (calEnd s code rsn).mte.cal = none ∧ rd (calEnd s code rsn) Reg.MTE_CALSTS_CC = code % 256 ∧
      rd (calEnd s code rsn) Reg.MTE_CALSTS_RSN = rsn % 256 ∧ rd (calEnd s code rsn) Reg.MTE_CALSTS_PEND = 0 ∧
      rd (calEnd s code rsn) Reg.MTE_CALSTS_STAGE = 0 := by
  obtain ⟨hcc, hrsn, hpend⟩ := setStatus_reads (cc := Reg.MTE_CALSTS_CC) (rsn := Reg.MTE_CALSTS_RSN)
    (pend := Reg.MTE_CALSTS_PEND) (i := 0) { s with mte := { s.mte with cal := none } } code rsn (by decide) (by decide)
    (by decide)
  exact ⟨rfl, (rd_wr_ne (by decide) _ _).trans hcc, (rd_wr_ne (by decide) _ _).trans hrsn,
    (rd_wr_ne (by decide) _ _).trans hpend, rd_wr_same _ _ _ _⟩

section

variable {s : State} {r : CalRun} (hr : s.mte.cal = some r)
include hr

theorem calAbort_unwritten (hw : calWriting s = false) : Completes (exec .calAbort s) fun t =>
    t.mte.cal = none ∧ rd t Reg.MTE_CALSTS_CC = CC.failCancelled ∧ rd t Reg.MTE_CALSTS_RSN = 0 ∧
    rd t Reg.MTE_CALSTS_PEND = 0 ∧ rd t Reg.MTE_CALSTS_STAGE = 0 ∧ ∀ q ∈ t.nvs.queue, q.who ≠ .cal := by
  have hexec : exec .calAbort s = .next (calDrop s CC.failCancelled 0) :=
    congrArg Host.Outcome.next (by simp [calAbort, hr, hw])
  obtain ⟨hcal, hcc, hrsn, hpend, hstage⟩ :=
    calEnd_effect (setQueue s (s.nvs.queue.filter fun q => q.who ≠ .cal)) CC.failCancelled 0
  exact ⟨_, hexec, hcal, hcc, hrsn, hpend, hstage, fun q hq => of_decide_eq_true (List.mem_filter.1 hq).2⟩

theorem exec_calAbort_writing (hw : calWriting s = true) :
    exec .calAbort s = .next { s with mte := { s.mte with cal := some { r with lateAbort := true } } } :=
  congrArg Host.Outcome.next (by simp [calAbort, hr, hw])

/-! ### Windows (R221, R222) -/

/-- Before the end of a window neither command does anything. -/
theorem exec_calWindow_open (ho : windowOver s r = false) {c : Instr} (hc : c = .calWindowEnd ∨ c = .calVerifyEnd) :
    exec c s = .next s := by
  have hwindow : calWindow s = s := by simp [calWindow, hr, ho]
  have hverify : calVerify s = s := by simp [calVerify, hr, ho]
  rcases hc with rfl | rfl
  · exact congrArg Host.Outcome.next (ite_keeps (p := id) hwindow rfl)
  · exact congrArg Host.Outcome.next (ite_keeps (p := id) hverify rfl)

/-- A bad window is discarded in either stage. -/
theorem exec_calWindow_bad (hm : metering s = true) (ho : windowOver s r = true) (hb : calBad r = true) {c : Instr}
    (hc : c = .calWindowEnd ∧ rd s Reg.MTE_CALSTS_STAGE = 1 ∨ c = .calVerifyEnd ∧ rd s Reg.MTE_CALSTS_STAGE = 2) :
    exec c s = .next (calDiscard s r) := by
  rcases hc with ⟨rfl, hstage⟩ | ⟨rfl, hstage⟩
  · exact congrArg Host.Outcome.next ((if_pos hm).trans (by simp [calWindow, hr, ho, hb, hstage]))
  · exact congrArg Host.Outcome.next ((if_pos hm).trans (by simp [calVerify, hr, ho, hb, hstage]))

end

theorem calDiscard_effect (s : State) (r : CalRun) :
    if r.discarded = 2 then (calDiscard s r).mte.cal = none ∧
        rd (calDiscard s r) Reg.MTE_CALSTS_CC = CC.failTransientExhausted ∧
        rd (calDiscard s r) Reg.MTE_CALSTS_RSN = Rsn.signalFault ∧ rd (calDiscard s r) Reg.MTE_CALSTS_PEND = 0
    else calDiscard s r =
      { s with mte := { s.mte with cal := some { nextWindow s r with discarded := r.discarded + 1 } } } := by
  split
  case isTrue h =>
    have hend : calDiscard s r = calEnd s CC.failTransientExhausted Rsn.signalFault := by simp [calDiscard, h]
    obtain ⟨hcal, hcc, hrsn, hpend, -⟩ := calEnd_effect s CC.failTransientExhausted Rsn.signalFault
    rw [hend]
    exact ⟨hcal, hcc, hrsn, hpend⟩
  case isFalse h => simp [calDiscard, h]

/-- The inputs' STUCK bits alone tell whether a new window is spoilt. -/
theorem nextWindow_wr {f : Field} (h : f.id < Reg.MTE_INSTS_STUCK.id) (s : State) (v : Nat) (r : CalRun) :
    nextWindow (wr s f v) r = nextWindow s r := by
  have hstuck : isStuck (wr s f v) = isStuck s :=
    funext fun i => congrArg (fun n => decide (n = 1)) (rd_wr_of_id_lt h i s v)
  simp only [nextWindow, windowSpoilt, hstuck]

/-- With no window before it a good window, short of the limit, is kept to compare the next one with. -/
theorem calWindow_first {s : State} {r : CalRun} (hr : s.mte.cal = some r) (hm : metering s = true)
    (ho : windowOver s r = true) (hb : calBad r = false) (hstage : rd s Reg.MTE_CALSTS_STAGE = 1) (hprev : r.prev = [])
    (hmax : rd s Reg.MTE_CALSTS_WIN + 1 < rd s Reg.MTE_CALCFG_WMAX) :
    Completes (exec .calWindowEnd s) fun t =>
      rd t Reg.MTE_CALSTS_WIN = (rd s Reg.MTE_CALSTS_WIN + 1) % 2 ^ Reg.MTE_CALSTS_WIN.width ∧
      t.mte.cal = some { nextWindow s r with prev := (List.finRange 6).map (calForm s r), discarded := 0 } := by
  generalize hu : wr s Reg.MTE_CALSTS_WIN (rd s Reg.MTE_CALSTS_WIN + 1) = u
  have hwmax : rd u Reg.MTE_CALCFG_WMAX = rd s Reg.MTE_CALCFG_WMAX := hu ▸ rd_wr_ne (by decide) _ _
  have hnext : nextWindow u r = nextWindow s r := hu ▸ nextWindow_wr (by decide) _ _ _
  have hexec : exec .calWindowEnd s = .next (withCal u
      (some { nextWindow u r with prev := (List.finRange 6).map (calForm s r), discarded := 0 })) := by
    refine congrArg Host.Outcome.next ((if_pos hm).trans ?_)
    simp [calWindow, hr, ho, hb, hstage, hprev, hu, hwmax, Nat.not_le.2 hmax, withCal]
  exact ⟨_, hexec, hu ▸ rd_wr_same _ _ _ _, by rw [← hnext]; rfl⟩

/-! ### The partition of the sets (R223, R226) -/

/-- Of the registers the calibration partition holds the CALGEN counts alone. -/
theorem calRecord_wr {f : Field} (h : f.id < Reg.MTE_FSTS_CALGEN.id) {i : Nat} (hi : i < 8192) (s : State) (v : Nat)
    (put : List (Nat × CoefSet)) : calRecord (wr s f v i) put = calRecord s put := by
  simp only [calRecord, meterRec, wr_mte, rd_wr_elem_of_id_lt h hi]

/-- The write of the calibration partition for a run or a WRITE. -/
def calRequest (s : State) : WriteReq := ⟨3, .record 0x20 (calRecord s (calSets s)), .cal⟩

theorem calRequest_wr {f : Field} (h : f.id < Reg.MTE_FSTS_CALGEN.id) {i : Nat} (hi : i < 8192) (s : State) (v : Nat) :
    calRequest (wr s f v i) = calRequest s := by
  have hsets : calSets (wr s f v i) = calSets s := rfl
  simp only [calRequest, hsets, calRecord_wr h hi]

theorem nvsSave_calRecord {s : State} (hrecall : recalling s = false) (hq : s.nvs.queue = [])
    (hfit : (writeRange s (calRequest s).what).fits = true) :
    nvsSave s 3 (calRecord s (calSets s)) .cal = setQueue s [calRequest s] :=
  nvsSave_of_idle hrecall hfit hq

/-- A WRITE in HALT requests the write of the one set it names. -/
theorem calWrite_effect {s : State} {i : Nat} {v : CoefSet} {u : State} (hp : rdB s Reg.MTE_CALSTS_PEND = false)
    (hm : modeIs s = .halt) (hi : i = rd s Reg.MTE_CALWR2_INPUT) (hwait : i < 192 → shadowWaits s (i / 6) = false)
    (hq : s.nvs.queue = [])
    (hv : v = ⟨BitVec.ofNat 32 (rd s Reg.MTE_CALWR0_GAIN), BitVec.ofNat 32 (rd s Reg.MTE_CALWR1_OFFSET),
      BitVec.ofNat 16 (rd s Reg.MTE_CALWR2_PHASE)⟩)
    (hu : u = { s with mte := { s.mte with calPut := [(i, v)] } })
    (hfit : (writeRange u (calRequest u).what).fits = true) :
    Completes (exec .calWrite s) fun t =>
      rd t Reg.MTE_CALSTS_PEND = 1 ∧ t.mte = u.mte ∧ t.nvs.queue = [calRequest u] := by
  generalize ht : wr u Reg.MTE_CALSTS_PEND 1 = t
  have hexec : exec .calWrite s = .next (nvsSave t 3 (calRecord t (calSets t)) .cal) := by
    subst ht hu hv hi
    refine congrArg Host.Outcome.next ?_
    by_cases h : rd s Reg.MTE_CALWR2_INPUT < 192 <;> simp [calWrite, hp, hm, h, hwait]
  have hreq : calRequest t = calRequest u := ht ▸ calRequest_wr (by decide) (by decide) u 1
  have hnvs : t.nvs = s.nvs := by rw [← ht, wr_nvs, hu]
  have hrecall : recalling t = false := by
    have hs : recalling s = false := by simp [recalling, hm]
    rw [← ht, recalling_wr (by decide) (by decide), hu]
    exact hs
  have hfit' : (writeRange t (calRequest t).what).fits = true := by
    rw [hreq, ← ht]
    exact hfit
  rw [nvsSave_calRecord hrecall ((congrArg NvsSt.queue hnvs).trans hq) hfit', hreq] at hexec
  refine ⟨_, hexec, (rd_setQueue (by decide) _ _).trans ?_, ?_, rfl⟩
  · rw [← ht]
    exact rd_wr_same u _ 0 1
  · rw [setQueue_mte, ← ht, wr_mte]

/-! ### Verification (R223) -/

/-- The errors of the six inputs, written as they are found. -/
def putErrors (s : State) (r : CalRun) : State :=
  (List.finRange 6).foldl (fun s j => wr (wr s Reg.MTE_CALRES_GERR (sat16 (calErrors r j).1) j)
    Reg.MTE_CALRES_PERR (sat16 (calErrors r j).2.1) j) s

/-- A view in which the results do not show is left alone. -/
theorem putErrors_keeps {β : Type} (p : State → β)
    (h : ∀ f ∈ [Reg.MTE_CALRES_GERR, Reg.MTE_CALRES_PERR], ∀ j < 6, ∀ s v, p (wr s f v j) = p s) (s : State)
    (r : CalRun) : p (putErrors s r) = p s :=
  foldl_keeps p (fun _ (j : Fin 6) => (h _ (by simp) j j.isLt _ _).trans (h _ (by simp) j j.isLt _ _)) _ _

theorem sat16_lt (e : Word) : sat16 e < 2 ^ 16 := by
  simp only [sat16, patternOf]
  omega

/-- Each result holds the errors of its input. -/
theorem rd_putErrors (s : State) (r : CalRun) (j : Fin 6) :
    rd (putErrors s r) Reg.MTE_CALRES_GERR j.val = sat16 (calErrors r j).1 ∧
      rd (putErrors s r) Reg.MTE_CALRES_PERR j.val = sat16 (calErrors r j).2.1 := by
  have hne (i : Fin 6) : i ≠ j → ∀ f : Field, f.key j.val ≠ f.key i.val := fun h f hk =>
    h (Fin.ext (by simp only [Field.key] at hk; omega))
  have hother (i k : Fin 6) : Reg.MTE_CALRES_GERR.key i.val ≠ Reg.MTE_CALRES_PERR.key k.val :=
    key_ne_of_id (by decide) (by omega) (by omega)
  refine ⟨foldl_sets (p := fun t => rd t Reg.MTE_CALRES_GERR j.val) (List.mem_finRange j) (fun t => ?_)
    (fun i hi t => ?_) s, foldl_sets (p := fun t => rd t Reg.MTE_CALRES_PERR j.val) (List.mem_finRange j) (fun t => ?_)
    (fun i hi t => ?_) s⟩
  · exact (rd_wr_ne (hother j j) _ _).trans ((rd_wr_same _ _ _ _).trans (Nat.mod_eq_of_lt (sat16_lt _)))
  · exact (rd_wr_ne (hother j i) _ _).trans (rd_wr_ne (hne i hi _) _ _)
  · exact (rd_wr_same _ _ _ _).trans (Nat.mod_eq_of_lt (sat16_lt _))
  · exact (rd_wr_ne (hne i hi _) _ _).trans (rd_wr_ne (hother i j).symm _ _)

theorem rd_calEnd_of_id_lt {g : Field} (h : Reg.MTE_CALSTS_STAGE.id < g.id) (j : Nat) (s : State) (code rsn : Nat) :
    rd (calEnd s code rsn) g j = rd s g j := by
  have hlt {f : Field} (hf : f.id ≤ Reg.MTE_CALSTS_STAGE.id) (t : State) (v : Nat) : rd (wr t f v) g j = rd t g j :=
    rd_wr_of_id_lt (hf.trans_lt h) j t v
  exact (hlt (by decide) _ _).trans <| (hlt (by decide) _ _).trans <| (hlt (by decide) _ _).trans <|
    hlt (f := Reg.MTE_CALSTS_CC) (by decide) { s with mte := { s.mte with cal := none } } code

/-- The results do not show in the tolerances and the configuration by which they are accepted. -/
theorem calAccepts_putErrors (s : State) (r q : CalRun) (e : Word × Word × Word) :
    calAccepts (putErrors s r) q e = calAccepts s q e := by
  refine putErrors_keeps (fun t => calAccepts t q e) (fun f hf j hj t v => ?_) s r
  have hrd {g : Field} (hg : ∀ f ∈ [Reg.MTE_CALRES_GERR, Reg.MTE_CALRES_PERR], g.id ≠ f.id) :
      rd (wr t f v j) g = rd t g := rd_wr_of_id_ne (hg f hf) (by omega) (by decide) t v
  simp only [calAccepts, hrd (g := Reg.MTE_CALTOL_ACCG) (by decide), hrd (g := Reg.MTE_CALTOL_ACCP) (by decide)]
  rfl

/-- The results with the stage in which the write is awaited. -/
def verified (s : State) (r : CalRun) : State := wr (putErrors s r) Reg.MTE_CALSTS_STAGE 3

/-- A view in which neither shows is left alone. -/
theorem verified_keeps {β : Type} (p : State → β) (h : ∀ f ∈ [Reg.MTE_CALSTS_STAGE, Reg.MTE_CALRES_GERR,
    Reg.MTE_CALRES_PERR], ∀ j < 6, ∀ s v, p (wr s f v j) = p s) (s : State) (r : CalRun) : p (verified s r) = p s :=
  (h _ (by simp) 0 (by decide) _ _).trans <|
    putErrors_keeps p (fun f hf => h f (List.mem_cons_of_mem _ hf)) s r

theorem rd_stage_verified (s : State) (r : CalRun) : rd (verified s r) Reg.MTE_CALSTS_STAGE = 3 :=
  rd_wr_same (putErrors s r) Reg.MTE_CALSTS_STAGE 0 3

theorem verified_mte (s : State) (r : CalRun) : (verified s r).mte = s.mte :=
  verified_keeps State.mte (fun _ _ _ _ _ _ => rfl) s r

theorem verified_nvs (s : State) (r : CalRun) : (verified s r).nvs = s.nvs :=
  verified_keeps State.nvs (fun _ _ _ _ _ _ => rfl) s r

theorem recalling_verified (s : State) (r : CalRun) : recalling (verified s r) = recalling s := by
  refine verified_keeps recalling (fun f hf j hj t v => ?_) s r
  have hids : ∀ f ∈ [Reg.MTE_CALSTS_STAGE, Reg.MTE_CALRES_GERR, Reg.MTE_CALRES_PERR],
      Reg.SSU_MODE_MODE.id ≠ f.id ∧ Reg.NVS_STATUS_RECALL.id ≠ f.id := by decide
  obtain ⟨hmode, hrecall⟩ := hids f hf
  exact recalling_wr (key_ne_of_id hmode (by omega) (by decide)) (key_ne_of_id hrecall (by omega) (by decide)) t v

theorem calRequest_verified (s : State) (r : CalRun) : calRequest (verified s r) = calRequest s := by
  refine verified_keeps calRequest (fun f hf j hj t v => ?_) s r
  have hids : ∀ f ∈ [Reg.MTE_CALSTS_STAGE, Reg.MTE_CALRES_GERR, Reg.MTE_CALRES_PERR],
      f.id < Reg.MTE_FSTS_CALGEN.id := by decide
  exact calRequest_wr (hids f hf) (by omega) t v

section

variable {s : State} {r : CalRun} (hr : s.mte.cal = some r) (ho : windowOver s r = true) (hb : calBad r = false)
  (hstage : rd s Reg.MTE_CALSTS_STAGE = 2)
include hr ho hb hstage

/-- A good verification window leaves its results, and requests the write of the sets or ends the run. -/
theorem calVerify_good : calVerify s =
    if ((List.finRange 6).map (calErrors r)).all (calAccepts (putErrors s r) r) then
      nvsSave (verified s r) 3 (calRecord (verified s r) (calSets (verified s r))) .cal
    else calEnd (putErrors s r) CC.failNumeric Rsn.acceptFail := by
  unfold calVerify
  rw [hr]
  dsimp only
  rw [if_neg (by simp [hstage, ho]), if_neg (by simp [hb])]
  rfl

theorem calVerify_accepted (hrecall : recalling s = false) (hq : s.nvs.queue = [])
    (hfit : (writeRange s (calRequest s).what).fits = true) (hall : ∀ j, calAccepts s r (calErrors r j) = true) :
    calVerify s = setQueue (verified s r) [calRequest s] := by
  have hacc : ((List.finRange 6).map (calErrors r)).all (calAccepts (putErrors s r) r) = true := by
    simp [List.all_eq_true, calAccepts_putErrors, hall]
  have hrange (w : WriteWhat) : writeRange (verified s r) w = writeRange s w :=
    verified_keeps (fun t => writeRange t w) (fun _ _ _ _ _ _ => rfl) s r
  have hwhat : (writeRange (verified s r) (calRequest (verified s r)).what).fits = true := by
    rw [calRequest_verified, hrange, hfit]
  rw [calVerify_good hr ho hb hstage, if_pos hacc,
    nvsSave_calRecord ((recalling_verified s r).trans hrecall) ((congrArg NvsSt.queue (verified_nvs s r)).trans hq) hwhat,
    calRequest_verified]

theorem calVerify_refused (h : ∃ j, calAccepts s r (calErrors r j) = false) :
    calVerify s = calEnd (putErrors s r) CC.failNumeric Rsn.acceptFail := by
  obtain ⟨j, hj⟩ := h
  have hacc : ¬((List.finRange 6).map (calErrors r)).all (calAccepts (putErrors s r) r) = true := fun hall => by
    have hmem := List.all_eq_true.1 hall _ (List.mem_map_of_mem (List.mem_finRange j))
    simp [calAccepts_putErrors, hj] at hmem
  rw [calVerify_good hr ho hb hstage, if_neg hacc]

/-- The results stand after either outcome. -/
theorem rd_calVerify_errors (hrecall : recalling s = false) (hq : s.nvs.queue = [])
    (hfit : (writeRange s (calRequest s).what).fits = true) (j : Fin 6) :
    rd (calVerify s) Reg.MTE_CALRES_GERR j.val = sat16 (calErrors r j).1 ∧
      rd (calVerify s) Reg.MTE_CALRES_PERR j.val = sat16 (calErrors r j).2.1 := by
  have hkeep : ∀ g ∈ [Reg.MTE_CALRES_GERR, Reg.MTE_CALRES_PERR],
      rd (calVerify s) g j.val = rd (putErrors s r) g j.val := fun g hg => by
    have hids : ∀ g ∈ [Reg.MTE_CALRES_GERR, Reg.MTE_CALRES_PERR],
        Reg.MTE_CALSTS_STAGE.id < g.id ∧ g.id ≠ Reg.NVS_WQ_DEPTH.id := by decide
    obtain ⟨hlt, hne⟩ := hids g hg
    by_cases hall : ∀ i, calAccepts s r (calErrors r i) = true
    · rw [calVerify_accepted hr ho hb hstage hrecall hq hfit hall,
        rd_setQueue (key_ne_of_id hne (by decide) (by omega)), verified, rd_wr_of_id_lt hlt]
    · rw [calVerify_refused hr ho hb hstage (by simpa using hall), rd_calEnd_of_id_lt hlt]
  rw [hkeep _ (by simp), hkeep _ (by simp)]
  exact rd_putErrors s r j

end

/-- Settles O38: a window by whether it is over and whether it is bad, a verification by whether every input's errors are
accepted, and a WRITE by the one request it makes. -/
theorem calibrationCommands : Obligations.CalibrationCommands := by
  rintro s f rfl
  refine ⟨fun g hp hrecall htest hsave hg hen hf href hwait =>
    calStart_accepted hp hrecall htest hsave hg hen hf href hwait, fun r hr => ⟨calAbort_unwritten hr,
      exec_calAbort_writing hr, fun ho c => exec_calWindow_open hr ho, fun hm ho => ⟨fun hb c hc => ?_,
        fun hb hstage => calWindow_first hr hm ho hb hstage, fun hb hstage hq hfit => ?_⟩⟩,
    fun i v u hp hm hi hwait hq hv hu hfit => calWrite_effect hp hm hi hwait hq hv hu hfit⟩
  · exact ⟨_, exec_calWindow_bad hr hm ho hb hc, calDiscard_effect s r⟩
  · have hexec : exec .calVerifyEnd s = .next (calVerify s) := congrArg Host.Outcome.next (if_pos hm)
    have hrecall := recalling_of_metering hm
    refine ⟨_, hexec, rd_calVerify_errors hr ho hb hstage hrecall hq hfit, fun hall => ?_, fun hex => ?_⟩
    · rw [calVerify_accepted hr ho hb hstage hrecall hq hfit hall]
      exact ⟨(rd_setQueue (by decide) _ _).trans (rd_stage_verified s r), (setQueue_mte _ _).trans (verified_mte s r),
        rfl⟩
    · rw [calVerify_refused hr ho hb hstage hex]
      obtain ⟨hcal, hcc, hrsn, hpend, -⟩ := calEnd_effect (putErrors s r) CC.failNumeric Rsn.acceptFail
      exact ⟨hcal, hcc, hrsn, hpend⟩

end Sys2Proof.Machine
end

section
/-! SUPPORT. The facet commands with none pending (R215, R220) and the end of a facet fetch (R213). -/

namespace Sys2Proof.Machine

/-! ### Commands and their end -/

/-- A command is accepted with none pending, and ABORT also while a SWAP is (R220). -/
theorem fctCmd_accepted {s : State} {busyOk : Bool} (h : rdB s Reg.FCT_SWSTS_PEND = false ∨ busyOk = true)
    (f : State → State) : fctCmd s busyOk f = f s := by
  rcases h with h | h <;> simp [fctCmd, h]

theorem fctEnd_reads (s : State) (code rsn : Nat) :
    rd (fctEnd s code rsn) Reg.FCT_SWSTS_CC = code % 256 ∧ rd (fctEnd s code rsn) Reg.FCT_SWSTS_RSN = rsn % 256 ∧
      rd (fctEnd s code rsn) Reg.FCT_SWSTS_PEND = 0 :=
  setStatus_reads s code rsn (by decide) (by decide) (by decide)

/-- Other fields keep their values when a command ends. -/
theorem rd_fctEnd {g : Field} (h : ∀ f ∈ [Reg.FCT_SWSTS_CC, Reg.FCT_SWSTS_RSN, Reg.FCT_SWSTS_PEND], g.key 0 ≠ f.key 0)
    (s : State) (code rsn : Nat) : rd (fctEnd s code rsn) g = rd s g :=
  (rd_wr_ne (h _ (by simp)) _ _).trans <| (rd_wr_ne (h _ (by simp)) _ _).trans (rd_wr_ne (h _ (by simp)) _ _)

/-! ### The shadow -/

/-- The shadow facet and its digest alone change. -/
theorem rd_putShadow {g : Field} (h : ∀ f ∈ [Reg.FCT_SHDIG_LO_SHDIG, Reg.FCT_SHDIG_HI_SHDIG], g.key 0 ≠ f.key 0)
    (s : State) (x : Option Facet) : rd (putShadow s x) g = rd s g :=
  (rd_wr_ne (h _ (by simp)) _ _).trans <|
    rd_wr_ne (f := Reg.FCT_SHDIG_LO_SHDIG) (h _ (by simp)) { s with fct := { s.fct with shadow := x } } _

/-- A PREPARE that fails leaves the shadow EMPTY. -/
theorem prepareFail_effect (s : State) (code rsn : Nat) :
    (prepareFail s code rsn).fct.preparing = none ∧ (prepareFail s code rsn).fct.shadow = none ∧
      rd (prepareFail s code rsn) Reg.FCT_STATUS_SHSTATE = 0 ∧ rd (prepareFail s code rsn) Reg.FCT_SWSTS_PEND = 0 ∧
      rd (prepareFail s code rsn) Reg.FCT_SWSTS_CC = code % 256 ∧
      rd (prepareFail s code rsn) Reg.FCT_SWSTS_RSN = rsn % 256 := by
  obtain ⟨hcc, hrsn, hpend⟩ :=
    fctEnd_reads (shState (putShadow { s with fct := { s.fct with preparing := none } } none) 0) code rsn
  exact ⟨rfl, rfl, (rd_fctEnd (by decide) _ _ _).trans (rd_wr_same _ _ _ _), hpend, hcc, hrsn⟩

/-- The item a refusal names stands after the PREPARE has ended. -/
theorem rd_prepareFail_fctRef (s : State) (r : Refuse) (code rsn : Nat) :
    rd (prepareFail (fctRef s r) code rsn) Reg.FCT_REF_KIND = r.kind % 2 ^ Reg.FCT_REF_KIND.width ∧
      rd (prepareFail (fctRef s r) code rsn) Reg.FCT_REF_ITEM = r.item % 2 ^ Reg.FCT_REF_ITEM.width := by
  have hkeep : ∀ g ∈ [Reg.FCT_REF_KIND, Reg.FCT_REF_ITEM],
      rd (prepareFail (fctRef s r) code rsn) g = rd (fctRef s r) g := fun g hg => by
    have hkeys : ∀ g ∈ [Reg.FCT_REF_KIND, Reg.FCT_REF_ITEM],
        (∀ f ∈ [Reg.FCT_SWSTS_CC, Reg.FCT_SWSTS_RSN, Reg.FCT_SWSTS_PEND], g.key 0 ≠ f.key 0) ∧
          g.key 0 ≠ Reg.FCT_STATUS_SHSTATE.key 0 ∧
          ∀ f ∈ [Reg.FCT_SHDIG_LO_SHDIG, Reg.FCT_SHDIG_HI_SHDIG], g.key 0 ≠ f.key 0 := by decide
    obtain ⟨hend, hstate, hshadow⟩ := hkeys g hg
    exact (rd_fctEnd hend _ _ _).trans <| (rd_wr_ne hstate _ _).trans (rd_putShadow hshadow _ _)
  rw [hkeep _ (by simp), hkeep _ (by simp)]
  exact ⟨(rd_wr_ne (by decide) _ _).trans (rd_wr_same _ _ _ _), rd_wr_same _ _ _ _⟩

/-! ### PREPARE and DISCARD (R213) -/

section

variable {s : State}

theorem prepare_effect (hp : rdB s Reg.FCT_SWSTS_PEND = false)
    (hm : modeIs s = .halt ∨ modeIs s = .active ∨ modeIs s = .standby ∨ modeIs s = .safehold)
    (hst : rd s Reg.FCT_STATUS_SHSTATE ≠ 3) :
    Completes (exec .prepare s) fun t =>
      rd t Reg.FCT_SWSTS_PEND = 1 ∧ rd t Reg.FCT_STATUS_SHSTATE = 1 ∧ t.fct.shadow = none ∧
      t.fct.preparing = some [] ∧ t.fct.active = s.fct.active := by
  have hmode : prepareMode s = true := by
    rcases hm with h | h | h | h <;> simp [prepareMode, h]
  generalize hu : shState (wr (putShadow s none) Reg.FCT_SWSTS_PEND 1) 1 = u
  have hexec : exec .prepare s = .next { u with fct := { u.fct with preparing := some [] } } :=
    congrArg Host.Outcome.next ((fctCmd_accepted (.inl hp) _).trans (by simp [prepare, hmode, hst, hu]))
  have hpend : rd u Reg.FCT_SWSTS_PEND = 1 :=
    hu ▸ (rd_wr_ne (by decide) _ _).trans (rd_wr_same (putShadow s none) _ 0 1)
  have hstate : rd u Reg.FCT_STATUS_SHSTATE = 1 := hu ▸ rd_wr_same _ Reg.FCT_STATUS_SHSTATE 0 1
  refine ⟨_, hexec, hpend, hstate, ?_, rfl, ?_⟩ <;> exact hu ▸ rfl

theorem discard_effect (hp : rdB s Reg.FCT_SWSTS_PEND = false) (hm : modeIs s ≠ .test)
    (hst : rd s Reg.FCT_STATUS_SHSTATE ≠ 3) :
    Completes (exec .discard s) fun t =>
      t.fct.shadow = none ∧ rd t Reg.FCT_STATUS_SHSTATE = 0 ∧ rd t Reg.FCT_SWSTS_CC = CC.done ∧
      t.fct.active = s.fct.active := by
  have hexec : exec .discard s = .next (fctEnd (shState (putShadow s none) 0) CC.done 0) :=
    congrArg Host.Outcome.next ((fctCmd_accepted (.inl hp) _).trans (by simp [discard, hm, hst]))
  obtain ⟨hcc, -, -⟩ := fctEnd_reads (shState (putShadow s none) 0) CC.done 0
  exact ⟨_, hexec, rfl, (rd_fctEnd (by decide) _ _ _).trans (rd_wr_same _ _ _ _), hcc, rfl⟩

/-! ### SWAP and ABORT (R215, R220) -/

theorem armSwap_effect (s : State) (k : Nat) (fixed : Bool) :
    rd (armSwap s k fixed) Reg.FCT_SWSTS_PEND = 1 ∧ rd (armSwap s k fixed) Reg.FCT_STATUS_SHSTATE = 3 ∧
      (armSwap s k fixed).fct.armed = some ⟨k, false, fixed, false⟩ :=
  ⟨(rd_wr_ne (by decide) _ _).trans (rd_wr_same _ _ _ _), rd_wr_same _ _ _ _, rfl⟩

theorem submitHost_fct (s : State) (reg : Field) (b : InBody) : (submitHost s reg b).fct = s.fct :=
  ite_keeps (p := State.fct) rfl rfl

/-- SWAP of a PREPARED facet that keeps what it must: due at the next edge in HALT, an input to the tick elsewhere. -/
theorem swapCmd_accepted (hm : modeIs s = .halt ∨ modeIs s = .active ∨ modeIs s = .standby)
    (hst : rd s Reg.FCT_STATUS_SHSTATE = 2) (hmod : s.fct.shadow.bind (modChange s) = none) :
    swapCmd s = if modeIs s = .halt then armSwap s (s.tb.tick + 1) false
      else submitHost (wr s Reg.FCT_SWSTS_PEND 1) Reg.FCT_CMD_CMD
        (.swap (rd64 s Reg.FCT_SWAPTICK_LO_KF Reg.FCT_SWAPTICK_HI_KF)) := by
  have hmode : ¬(modeIs s ≠ .halt ∧ modeIs s ≠ .active ∧ modeIs s ≠ .standby) := by
    rcases hm with h | h | h <;> simp [h]
  unfold swapCmd
  dsimp only
  rw [if_neg hmode, if_neg (not_not.2 hst), hmod]

theorem facetSwap_effect (hp : rdB s Reg.FCT_SWSTS_PEND = false)
    (hm : modeIs s = .halt ∨ modeIs s = .active ∨ modeIs s = .standby) (hst : rd s Reg.FCT_STATUS_SHSTATE = 2)
    (hmod : s.fct.shadow.bind (modChange s) = none) :
    Completes (exec .swap s) fun t => rd t Reg.FCT_SWSTS_PEND = 1 ∧
      if modeIs s = .halt then
        t.fct.armed = some ⟨s.tb.tick + 1, false, false, false⟩ ∧ rd t Reg.FCT_STATUS_SHSTATE = 3
      else t.fct.armed = s.fct.armed ∧ t.rdu.own = listPut s.rdu.own (tickOf s s.tb.now) ⟨s.tb.now,
        ⟨64, Reg.FCT_CMD_CMD.addr⟩, ownSide s, .swap (rd64 s Reg.FCT_SWAPTICK_LO_KF Reg.FCT_SWAPTICK_HI_KF)⟩ := by
  have hexec : exec .swap s = .next (swapCmd s) := congrArg Host.Outcome.next (fctCmd_accepted (.inl hp) _)
  refine ⟨_, hexec, ?_⟩
  rw [swapCmd_accepted hm hst hmod]
  split
  · obtain ⟨hpend, hstate, harmed⟩ := armSwap_effect s (s.tb.tick + 1) false
    exact ⟨hpend, harmed, hstate⟩
  · obtain ⟨hpend, -, hown⟩ := submitHost_pends s Reg.FCT_CMD_CMD (pend := Reg.FCT_SWSTS_PEND) (by decide) (by decide)
      (.swap (rd64 s Reg.FCT_SWAPTICK_LO_KF Reg.FCT_SWAPTICK_HI_KF))
    exact ⟨hpend, congrArg FctSt.armed (submitHost_fct _ _ _), hown⟩

theorem facetAbort_effect (hm : modeIs s ≠ .test) (h : rdB s Reg.FCT_SWSTS_PEND = false ∨ swapPending s = true) :
    Completes (exec .facetAbort s) fun t => rd t Reg.FCT_SWSTS_PEND = 1 ∧
      t.rdu.own = listPut s.rdu.own (tickOf s s.tb.now) ⟨s.tb.now, ⟨64, Reg.FCT_CMD_CMD.addr⟩, ownSide s,
        .facetAbort s.tb.tick⟩ := by
  obtain ⟨hpend, -, hown⟩ := submitHost_pends s Reg.FCT_CMD_CMD (pend := Reg.FCT_SWSTS_PEND) (by decide) (by decide)
    (.facetAbort s.tb.tick)
  exact ⟨_, congrArg Host.Outcome.next ((fctCmd_accepted h _).trans (if_neg hm)), hpend, hown⟩

/-! ### The end of a fetch (R213) -/

theorem exec_prepareFetchComplete (h : s.fct.preparing = some []) :
    exec (.prepareFetchComplete .hostAbort) s =
        .next (prepareFail (hostAborted s) CC.failPeerUnreachable Rsn.hostAbort) ∧
      ∀ c, exec (.prepareFetchComplete (.bytes c)) s = .next (prepareImage s c) :=
  ⟨congrArg Host.Outcome.next (if_pos h), fun _ => congrArg Host.Outcome.next (if_pos h)⟩

variable {c : List Byte}

theorem prepareImage_unverified {r : Nat} (h : verifyImage s.ssu.otp true c = some r) :
    prepareImage s c = prepareFail s CC.failAuth r := by
  simp only [prepareImage, h]

/-- The first failed check of a facet with a good signature. -/
def facetRefusal (s : State) (c : List Byte) : Option Refuse :=
  firstOf [checkFacet c (running s), modChange s (parseFacet c), portChange s (parseFacet c)]

theorem prepareImage_refused {r : Refuse} (hverify : verifyImage s.ssu.otp true c = none)
    (hcheck : facetRefusal s c = some r) : prepareImage s c = prepareFail (fctRef s r) CC.failRefused r.rsn := by
  unfold facetRefusal at hcheck
  simp only [prepareImage, hverify, hcheck]

/-- The state in which a fetched facet that passed its checks stands in the shadow. -/
def facetHeld (s : State) (c : List Byte) : State :=
  putShadow { s with fct := { s.fct with preparing := some c } } (some (parseFacet c))

theorem rd_facetHeld {g : Field} (h : ∀ f ∈ [Reg.FCT_SHDIG_LO_SHDIG, Reg.FCT_SHDIG_HI_SHDIG], g.key 0 ≠ f.key 0) :
    rd (facetHeld s c) g = rd s g := rd_putShadow h _ _

theorem prepareImage_accepted (hr : recalling s = false) (hq : s.nvs.queue = [])
    (hverify : verifyImage s.ssu.otp true c = none) (hcheck : facetRefusal s c = none)
    (hfit : (writeRange s (.image true (freeFacetSlot s) c)).fits = true) :
    prepareImage s c = setQueue (facetHeld s c) [⟨5, .image true (freeFacetSlot s) c, .prepare⟩] := by
  have hslot : freeFacetSlot (facetHeld s c) = freeFacetSlot s :=
    congrArg (fun n => !decide (n = 1)) (rd_facetHeld (g := Reg.FCT_STATUS_ACTSLOT) (by decide))
  have hrecall : recalling (facetHeld s c) = recalling s :=
    recalling_of_fields (rd_facetHeld (by decide)) (rd_facetHeld (by decide))
  have himage : prepareImage s c =
      nvsRequest (facetHeld s c) ⟨5, .image true (freeFacetSlot (facetHeld s c)) c, .prepare⟩ := by
    unfold facetRefusal at hcheck
    simp only [prepareImage, hverify, hcheck]
    rfl
  rw [himage, hslot]
  exact nvsRequest_of_idle (hrecall.trans hr) hfit hq

end

/-- Settles O39: each command by what it does once it is accepted, SWAP by the mode, and a fetched facet by its checks. -/
theorem facetCommands : Obligations.FacetCommands := by
  refine fun s => ⟨fun hp => ⟨prepare_effect hp, discard_effect hp, facetSwap_effect hp⟩, facetAbort_effect, fun hf =>
    ⟨⟨_, (exec_prepareFetchComplete hf).1, prepareFail_effect _ _ _⟩, fun c hr hq => ?_⟩⟩
  refine ⟨_, (exec_prepareFetchComplete hf).2 c, ?_⟩
  split
  case h_1 r hverify =>
    rw [prepareImage_unverified hverify]
    exact prepareFail_effect _ _ _
  case h_2 hverify =>
    split
    case h_1 r hcheck =>
      rw [prepareImage_refused hverify hcheck]
      obtain ⟨hprep, hshadow, hstate, hpend, hcc, hrsn⟩ := prepareFail_effect (fctRef s r) CC.failRefused r.rsn
      exact ⟨hprep, hshadow, hstate, hpend, hcc, hrsn, rd_prepareFail_fctRef s r _ _⟩
    case h_2 hcheck =>
      intro hfit
      rw [prepareImage_accepted hr hq hverify hcheck hfit]
      exact ⟨rfl, rfl, rfl⟩

end Sys2Proof.Machine
end

section
/-! SUPPORT. The controllers of the field buses: a controller and its register fields after a change of either, the end of a
request (R232), and what sending, stopping and the taking of a record leave alone. -/

namespace Sys2Proof.Machine

/-! ### Controllers -/

theorem getElem_set_fin {α : Type} {k : Nat} (v : Vector α k) (i j : Fin k) (x : α) :
    (v.set i x)[j] = if i = j then x else v[j] := by
  simp [Vector.getElem_set, Fin.ext_iff]

@[simp] theorem getElem_set_fin_self {α : Type} {k : Nat} (v : Vector α k) (i : Fin k) (x : α) : (v.set i x)[i] = x :=
  Vector.getElem_set_self _

section

variable (s : State) (n : Fin 24) (c d : Ctl)

@[simp] theorem ctl_setCtl : ctl (setCtl s n c) n = c := getElem_set_fin_self _ _ _

theorem ctl_setCtl_of_ne {m : Fin 24} (h : m ≠ n) : ctl (setCtl s m c) n = ctl s n :=
  (getElem_set_fin _ _ _ _).trans (if_neg h)

@[simp] theorem setCtl_setCtl : setCtl (setCtl s n c) n d = setCtl s n d := by
  simp [setCtl, Vector.set_set]

@[simp] theorem setCtl_ctl : setCtl s n (ctl s n) = s := by
  simp [setCtl, ctl]

@[simp] theorem rd_setCtl (f : Field) (i : Nat) : rd (setCtl s n c) f i = rd s f i := rfl

@[simp] theorem ctl_wr (f : Field) (v i : Nat) : ctl (wr s f v i) n = ctl s n := rfl

theorem ctl_of_fbc {s t : State} (h : t.fbc = s.fbc) (n : Fin 24) : ctl t n = ctl s n :=
  congrArg (fun v : Vector Ctl 24 => v[n]) h

@[simp] theorem ctl_event (code : Nat) (sev : Sev) (ps : List Nat) : ctl (event s code sev ps) n = ctl s n := by
  simp [ctl]

theorem showFbc_fbc : (showFbc s).fbc = s.fbc := by
  unfold showFbc
  rfl

theorem showCtl_fbc (m : Fin 24) : (showCtl s m).fbc = s.fbc := showFbc_fbc _

@[simp] theorem ctl_showCtl (m : Fin 24) : ctl (showCtl s m) n = ctl s n :=
  ctl_of_fbc (showCtl_fbc s m) n

theorem linkChange_fbc (r : Resource) : (linkChange s r).fbc = s.fbc := ite_keeps (p := State.fbc) rfl rfl

@[simp] theorem ctl_linkChange (r : Resource) : ctl (linkChange s r) n = ctl s n :=
  ctl_of_fbc (linkChange_fbc s r) n

end

theorem ctl_freeWire (s : State) (n : Fin 24) : ctl (freeWire s n) n = { ctl s n with sel := none } := ctl_setCtl _ _ _

theorem ctl_choose (s : State) (n : Fin 24) : ∃ x, ctl (choose s n) n = { ctl s n with sel := x } :=
  ⟨_, ctl_setCtl s n _⟩

@[simp] theorem ctl_setDepth (s : State) (n m : Fin 24) : ctl (setDepth s m) n = ctl s n := rfl

@[simp] theorem ctl_ctlEnd (s : State) (n m : Fin 24) (code rsn : Nat) : ctl (ctlEnd s m code rsn) n = ctl s n := rfl

/-! ### Register fields of a controller -/

@[simp] theorem rd_wr_ctl {f g : Field} {n m : Fin 24} (h : g.id ≠ f.id) (s : State) (v : Nat) :
    rd (wr s f v n) g m = rd s g m := rd_wr_of_id_ne h (by omega) (by omega) s v

theorem rdB_of_rd {s t : State} {f : Field} {i : Nat} (h : rd t f i = rd s f i) : rdB t f i = rdB s f i :=
  congrArg (fun v => decide (v = 1)) h

/-! ### Views -/

/-- The fields that the loading of a request and the queue set. -/
def sendFields : List Field :=
  [Reg.FBCn_TXSTS0_PEND, Reg.FBCn_TXSTS0_RETRIES, Reg.FBCn_TXSTS1_PEND, Reg.FBCn_TXSTS1_RETRIES,
    Reg.FBCn_TXSTS2_PEND, Reg.FBCn_TXSTS2_RETRIES, Reg.FBCn_QSTS_DEPTH]

/-- The fields that the end of a request sets. -/
def endFields : List Field :=
  [Reg.FBCn_TXSTS0_CC, Reg.FBCn_TXSTS0_RSN, Reg.FBCn_TXSTS1_CC, Reg.FBCn_TXSTS1_RSN, Reg.FBCn_TXSTS2_CC,
    Reg.FBCn_TXSTS2_RSN] ++ sendFields

/-- The fields of the status pair over all controllers (R435). -/
def pairFields : List Field := [Reg.FBC_STATUS_QUAL, Reg.FBC_STATUS_MSTATE]

/-- The fields of the status pairs. -/
def showFields : List Field := [Reg.FBCn_STATUS_QUAL, Reg.FBCn_STATUS_MSTATE] ++ pairFields

/-- The fields that the end of a controller command sets. -/
def commandFields : List Field := [Reg.FBCn_CTLSTS_CC, Reg.FBCn_CTLSTS_RSN, Reg.FBCn_CTLSTS_PEND]

/-- The fields that the start of a bus sets. -/
def startFields : List Field := [Reg.FBCn_STATUS_PMODE, Reg.FBCn_STATUS_PROBE] ++ sendFields

/-- The fields that a controller sets once its wire is free. -/
def wireFields : List Field := endFields ++ startFields ++ showFields ++ commandFields ++ [Reg.FBCn_STATUS_RECOV]

/-- The fields that the acceptance of a record sets. -/
def recorderFields : List Field := [Reg.EVR_STATUS_STAGED, Reg.NVS_WQ_DEPTH, Reg.EVR_LOSTDROP_DROP]

/-- A view of the state in which neither the listed fields of a controller show, nor what else of it a free wire changes,
nor what it records and sends. -/
structure CtlBlind {β : Type} (l : List Field) (p : State → β) : Prop where
  field : ∀ f ∈ l, ∀ s v i, i < 24 → p (wr s f v i) = p s
  control : ∀ s n c, c.fifo = (ctl s n).fifo → c.parts = (ctl s n).parts → p (setCtl s n c) = p s
  record : ∀ s code sev ps, p (event s code sev ps) = p s
  output : ∀ s o, p (emit s o) = p s
  redundancy : ∀ s x, p { s with rdu := x } = p s

theorem ctlBlind_rd {l : List Field} {g : Field} (h : ∀ f ∈ recorderFields ++ l, g.id ≠ f.id) (n : Fin 24) :
    CtlBlind l (rd · g n) where
  field f hf s v i hi := rd_wr_of_id_ne (h f (by simp [hf])) (by omega) (by omega) s v
  control _ _ _ _ _ := rfl
  record s code sev ps := event_rdIn s code sev ps <| evrKeys_of_id (by omega) (h _ (by simp [recorderFields]))
    (h _ (by simp [recorderFields])) (h _ (by simp [recorderFields]))
  output _ _ := rfl
  redundancy _ _ := rfl

theorem ctlBlind_of_ctl {β : Type} {q : Ctl → β} (h : ∀ c d, c.fifo = d.fifo → c.parts = d.parts → q c = q d)
    (l : List Field) (n : Fin 24) : CtlBlind l fun s => q (ctl s n) where
  field _ _ _ _ _ _ := rfl
  control s m c hfifo hparts := by
    by_cases hm : m = n
    · subst hm
      exact (congrArg q (ctl_setCtl s m c)).trans (h _ _ hfifo hparts)
    · exact congrArg q (ctl_setCtl_of_ne s n c hm)
  record s code sev ps := congrArg q (ctl_event s n code sev ps)
  output _ _ := rfl
  redundancy _ _ := rfl

theorem ctlBlind_fifo (l : List Field) (n : Fin 24) : CtlBlind l fun s => (ctl s n).fifo :=
  ctlBlind_of_ctl (q := Ctl.fifo) (fun _ _ h _ => h) l n

theorem ctlBlind_parts (l : List Field) (n : Fin 24) : CtlBlind l fun s => (ctl s n).parts :=
  ctlBlind_of_ctl (q := Ctl.parts) (fun _ _ _ h => h) l n

theorem ctlBlind_tb (l : List Field) : CtlBlind l State.tb where
  field _ _ _ _ _ _ := rfl
  control _ _ _ _ _ := rfl
  record := event_tb
  output _ _ := rfl
  redundancy _ _ := rfl

/-! ### Status fields of a buffer -/

theorem txFields_mem (b : Fin 3) : (txFields b).1 ∈ endFields ∧ (txFields b).2.1 ∈ endFields ∧
    (txFields b).2.2.1 ∈ sendFields ∧ (txFields b).2.2.2.1 ∈ sendFields := by
  revert b
  decide

theorem txFields_width (b : Fin 3) : (txFields b).1.width = 8 ∧ (txFields b).2.1.width = 8 ∧
    (txFields b).2.2.1.width = 1 ∧ (txFields b).2.2.2.1.width = 7 := by
  revert b
  decide

/-- The status fields of a buffer are different. -/
theorem txFields_ne (b : Fin 3) : (txFields b).1.id ≠ (txFields b).2.1.id ∧ (txFields b).1.id ≠ (txFields b).2.2.1.id ∧
    (txFields b).1.id ≠ (txFields b).2.2.2.1.id ∧ (txFields b).2.1.id ≠ (txFields b).2.2.1.id ∧
    (txFields b).2.1.id ≠ (txFields b).2.2.2.1.id ∧ (txFields b).2.2.1.id ≠ (txFields b).2.2.2.1.id := by
  revert b
  decide

theorem sendFields_subset : sendFields ⊆ endFields := List.subset_append_right _ _

theorem loadTb_eq (s : State) (n : Fin 24) (b : Fin 3) (r : TxReq) : loadTb s n b r =
    let t := setCtl (wr (wr s (txFields b).2.2.1 1 n) (txFields b).2.2.2.1 0 n) n
      { ctl s n with tb := (ctl s n).tb.set b (some r) }
    if (ctl s n).sel.isNone then choose t n else t := rfl

theorem endTx_of_none {s : State} {n : Fin 24} {b : Fin 3} (h : (ctl s n).tb[b] = none) (code rsn : Nat) :
    endTx s n b code rsn = s := by
  simp only [endTx, h]

/-- The status fields of a buffer whose request has ended. -/
def txEnded (s : State) (n : Fin 24) (b : Fin 3) (errors code rsn : Nat) : State :=
  wr (wr (wr (wr s (txFields b).1 code n) (txFields b).2.1 rsn n) (txFields b).2.2.1 0 n) (txFields b).2.2.2.1
    (min errors 127) n

theorem endTx_of_some {s : State} {n : Fin 24} {b : Fin 3} {r : TxReq} (h : (ctl s n).tb[b] = some r)
    (code rsn : Nat) : endTx s n b code rsn = setCtl (txEnded s n b r.errors code rsn) n
      { ctl s n with tb := (ctl s n).tb.set b none, sel := if (ctl s n).sel = some b then none else (ctl s n).sel } := by
  simp only [endTx, h]
  rfl

theorem ctl_endTx (s : State) (n : Fin 24) (b : Fin 3) (code rsn : Nat) : ∃ x, ctl (endTx s n b code rsn) n =
    { ctl s n with tb := (ctl s n).tb.set b none, sel := x } := by
  cases h : (ctl s n).tb[b] with
  | none =>
    have hset : (ctl s n).tb.set b none = (ctl s n).tb := by
      rw [← h]
      exact Vector.set_getElem_self _
    rw [endTx_of_none h, hset]
    exact ⟨_, rfl⟩
  | some r =>
    rw [endTx_of_some h]
    exact ⟨_, ctl_setCtl _ _ _⟩

/-- What the end of a request shows. -/
theorem endTx_reads {s : State} {n : Fin 24} {b : Fin 3} {r : TxReq} (h : (ctl s n).tb[b] = some r) (code rsn : Nat) :
    rd (endTx s n b code rsn) (txFields b).1 n = code % 256 ∧
      rd (endTx s n b code rsn) (txFields b).2.1 n = rsn % 256 ∧
      rd (endTx s n b code rsn) (txFields b).2.2.1 n = 0 ∧
      rd (endTx s n b code rsn) (txFields b).2.2.2.1 n = min r.errors 127 := by
  obtain ⟨hcc, hrsn, hpend, hretries⟩ := txFields_width b
  obtain ⟨hcr, hcp, hct, hrp, hrt, hpt⟩ := txFields_ne b
  have hmin : min r.errors 127 % 2 ^ 7 = min r.errors 127 := by omega
  simp only [endTx_of_some h, txEnded, rd_setCtl, rd_wr_same, rd_wr_ctl hcr, rd_wr_ctl hcp, rd_wr_ctl hct, rd_wr_ctl hrp,
    rd_wr_ctl hrt, rd_wr_ctl hpt, hcc, hrsn, hpend, hretries, hmin]
  exact ⟨rfl, rfl, rfl, trivial⟩

/-! ### What a free wire leaves alone -/

namespace CtlBlind

variable {β : Type} {l : List Field} {p : State → β}

section

variable (h : CtlBlind l p)
include h

theorem mono {k : List Field} (hk : k ⊆ l) : CtlBlind k p := { h with field := fun f hf => h.field f (hk hf) }

theorem choose (s : State) (n : Fin 24) : p (choose s n) = p s := h.control s n _ (by rfl) (by rfl)

theorem freeWire (s : State) (n : Fin 24) : p (freeWire s n) = p s := h.control s n _ (by rfl) (by rfl)

theorem linkChange (s : State) (r : Resource) : p (linkChange s r) = p s :=
  ite_keeps ((h.redundancy _ _).trans <| (h.output _ _).trans (h.redundancy _ _)) (h.redundancy _ _)

theorem sendProbe (s : State) (n : Fin 24) (b : BusRec) : p (sendProbe s n b) = p s := ite_keeps (h.output _ _) rfl

end

/-! ### Loading -/

section

variable (h : CtlBlind sendFields p)
include h

theorem setDepth (s : State) (n : Fin 24) : p (setDepth s n) = p s := h.field _ (by decide) _ _ _ n.isLt

theorem loadTb (s : State) (n : Fin 24) (b : Fin 3) (r : TxReq) : p (loadTb s n b r) = p s := by
  obtain ⟨-, -, hpend, hretries⟩ := txFields_mem b
  have hload : p (setCtl (wr (wr s (txFields b).2.2.1 1 n) (txFields b).2.2.2.1 0 n) n
      { ctl s n with tb := (ctl s n).tb.set b (some r) }) = p s :=
    (h.control _ n _ (by rfl) (by rfl)).trans <| (h.field _ hretries _ _ _ n.isLt).trans (h.field _ hpend _ _ _ n.isLt)
  exact ite_keeps ((h.choose _ _).trans hload) hload

theorem loadHead (s : State) (n : Fin 24) : p (loadHead s n) = p s := by
  unfold Machine.loadHead
  dsimp only
  split
  · exact ite_keeps ((h.setDepth _ _).trans <| (h.loadTb _ _ _ _).trans (h.control s n _ (by rfl) (by rfl))) rfl
  · rfl

theorem loadQueue (s : State) (n : Fin 24) : p (loadQueue s n) = p s :=
  (h.loadHead _ _).trans <| (h.loadHead _ _).trans (h.loadHead _ _)

theorem afterTx (s : State) (n : Fin 24) : p (afterTx s n) = p s :=
  ite_keeps ((h.choose _ _).trans (h.loadQueue _ _)) (h.loadQueue _ _)

theorem goOn (s : State) (n : Fin 24) : p (goOn s n) = p s := by
  unfold Machine.goOn
  split
  · exact ite_keeps (h.sendProbe _ _ _) (h.afterTx _ _)
  · rfl

end

/-! ### Starting a bus -/

section

variable (h : CtlBlind startFields p)
include h

theorem probeOutcome (s : State) (n : Fin 24) (outcome pmode : Nat) : p (probeOutcome s n outcome pmode) = p s :=
  ((h.mono (List.subset_append_right _ _)).afterTx _ _).trans <| (h.record _ _ _ _).trans <|
    (h.field _ (by decide) _ _ _ n.isLt).trans (h.field _ (by decide) _ _ _ n.isLt)

theorem startBus (s : State) (n : Fin 24) : p (startBus s n) = p s := by
  have hfree : p (Machine.freeWire s n) = p s := h.freeWire s n
  unfold Machine.startBus
  dsimp only
  split
  · exact hfree
  · refine ite_keeps hfree <| ite_keeps ((h.probeOutcome _ _ _ _).trans hfree) <|
      ite_keeps ((h.probeOutcome _ _ _ _).trans hfree) <| (h.sendProbe _ _ _).trans ?_
    exact (h.field _ (by decide) _ _ _ n.isLt).trans <| (h.field _ (by decide) _ _ _ n.isLt).trans hfree

end

/-! ### The status pairs and the ends of commands and requests -/

theorem showFbc (h : CtlBlind pairFields p) (s : State) : p (showFbc s) = p s :=
  (h.field _ (by decide) _ _ _ (by decide)).trans (h.field _ (by decide) _ _ _ (by decide))

theorem showCtl (h : CtlBlind showFields p) (s : State) (n : Fin 24) : p (showCtl s n) = p s :=
  ((h.mono (by decide)).showFbc _).trans <| (h.field _ (by decide) _ _ _ n.isLt).trans (h.field _ (by decide) _ _ _ n.isLt)

theorem ctlEnd (h : CtlBlind commandFields p) (s : State) (n : Fin 24) (code rsn : Nat) :
    p (ctlEnd s n code rsn) = p s :=
  (h.field _ (by decide) _ _ _ n.isLt).trans <| (h.field _ (by decide) _ _ _ n.isLt).trans
    (h.field _ (by decide) _ _ _ n.isLt)

section

variable (h : CtlBlind endFields p)
include h

theorem endTx (s : State) (n : Fin 24) (b : Fin 3) (code rsn : Nat) : p (endTx s n b code rsn) = p s := by
  obtain ⟨hcc, hrsn, hpend, hretries⟩ := txFields_mem b
  cases hb : (ctl s n).tb[b] with
  | none => rw [endTx_of_none hb]
  | some r =>
    rw [endTx_of_some hb]
    refine (h.control _ n _ (by rfl) (by rfl)).trans <| (h.field _ (sendFields_subset hretries) _ _ _ n.isLt).trans ?_
    exact (h.field _ (sendFields_subset hpend) _ _ _ n.isLt).trans <|
      (h.field _ hrsn _ _ _ n.isLt).trans (h.field _ hcc _ _ _ n.isLt)

theorem endAllTx (s : State) (n : Fin 24) (code rsn : Nat) : p (endAllTx s n code rsn) = p s := by
  unfold Machine.endAllTx
  extract_lets u
  have hu : p u = p s := foldl_keeps p (fun s b => h.endTx s n b code rsn) _ _
  exact ((h.mono sendFields_subset).setDepth _ _).trans <| (h.control u n _ (by rfl) (by rfl)).trans hu

end

/-! ### A free wire -/

section

variable (h : CtlBlind wireFields p)
include h

theorem stopCtl (s : State) (n : Fin 24) : p (stopCtl s n) = p s := by
  have hstop (v : State) : p (setCtl v n { ctl v n with stopped := true, stopping := false, sel := none }) = p v :=
    h.control v n _ rfl rfl
  unfold Machine.stopCtl
  extract_lets u v
  have hu : p u = p s := (h.mono (by decide)).endAllTx _ _ _ _
  have hv : p v = p u :=
    ite_keeps (((h.mono (by decide)).ctlEnd _ _ _ _).trans (h.field _ (by decide) _ _ _ n.isLt)) rfl
  exact (h.linkChange _ _).trans <| ((h.mono (by decide)).showCtl _ _).trans <| (hstop v).trans (hv.trans hu)

theorem takeBus (s : State) (n : Fin 24) (b : BusRec) : p (takeBus s n b) = p s := by
  unfold Machine.takeBus
  extract_lets c was dropHost u changed c' c'' v w
  have hu : p u = p s := ite_keeps ((h.mono (by decide)).endTx _ _ _ _ _) rfl
  have hv : p v = p u := ((h.mono (by decide)).showCtl _ _).trans (h.control u n _ (by rfl) (by rfl))
  have hw : p w = p u := ite_keeps hv ((h.linkChange _ _).trans hv)
  refine Eq.trans (ite_keeps ?_ ?_) (hw.trans hu)
  · exact (h.mono (by decide)).startBus _ _
  · exact (h.mono (by decide)).afterTx _ _

theorem settle (s : State) (n : Fin 24) : p (settle s n) = p s := by
  unfold Machine.settle
  dsimp only
  refine ite_keeps rfl <| ite_keeps (h.stopCtl _ _) ?_
  split
  · exact h.takeBus _ _ _
  · exact (h.mono (by decide)).afterTx _ _

theorem wireFreed (s : State) (n : Fin 24) : p (Machine.settle (Machine.freeWire s n) n) = p s :=
  (h.settle _ _).trans (h.freeWire s n)

end

end CtlBlind

/-! ### A free wire with nothing waiting for it -/

/-- The offload's queue is empty, and neither SAVE nor a new record waits for the wire. -/
structure NothingWaits (c : Ctl) : Prop where
  queue : c.queue = []
  stopping : c.stopping = false
  nextBus : c.nextBus = none

theorem settle_idle {s : State} {n : Fin 24} (h : NothingWaits (ctl s n)) :
    settle s n = if (ctl s n).sel.isSome then s else choose s n := by
  have hload : loadQueue s n = s := by simp only [loadQueue, loadHead, h.queue]
  unfold settle afterTx
  simp only [h.stopping, h.nextBus, hload]
  cases (ctl s n).sel <;> rfl

theorem settle_idle_eq {s : State} {n : Fin 24} (h : NothingWaits (ctl s n)) :
    ∃ x, settle s n = setCtl s n { ctl s n with sel := x } := by
  rw [settle_idle h]
  split
  · exact ⟨_, (setCtl_ctl s n).symm⟩
  · exact ⟨_, rfl⟩

theorem nothingWaits_endTx {s : State} {n : Fin 24} (h : NothingWaits (ctl s n)) (b : Fin 3) (code rsn : Nat) :
    NothingWaits (ctl (endTx s n b code rsn) n) := by
  obtain ⟨x, hx⟩ := ctl_endTx s n b code rsn
  rw [hx]
  exact ⟨h.queue, h.stopping, h.nextBus⟩

end Sys2Proof.Machine
end

section
/-! SUPPORT. The commands of a field bus controller (R229, R230, R236) and its filters (R237, R238). -/

namespace Sys2Proof.Machine

/-! ### Commands and their end -/

section

variable {s : State} {n : Fin 24}

theorem ctlCmd_accepted (hp : rdB s Reg.FBCn_CTLSTS_PEND n = false) (hm : modeIs s ≠ .test) (f : State → State) :
    ctlCmd s n f = f s := by
  simp [ctlCmd, hp, hm]

theorem ctlEnd_reads (s : State) (n : Fin 24) (code rsn : Nat) :
    rd (ctlEnd s n code rsn) Reg.FBCn_CTLSTS_CC n = code % 256 ∧
      rd (ctlEnd s n code rsn) Reg.FBCn_CTLSTS_RSN n = rsn % 256 ∧
      rd (ctlEnd s n code rsn) Reg.FBCn_CTLSTS_PEND n = 0 :=
  setStatus_reads s code rsn (key_ne_of_id (by decide) (by omega) (by omega))
    (key_ne_of_id (by decide) (by omega) (by omega)) (key_ne_of_id (by decide) (by omega) (by omega))

theorem rd_ctlEnd {g : Field} (h : ∀ f ∈ recorderFields ++ commandFields, g.id ≠ f.id) (s : State) (n : Fin 24)
    (code rsn : Nat) : rd (ctlEnd s n code rsn) g n = rd s g n := (ctlBlind_rd h n).ctlEnd _ _ _ _

/-! ### Probing and starting (R229, R230) -/

/-- Whether a controller may drive its bus shows in its record, whether SAVE stopped it, BUSOFF and MSTATE. -/
theorem canDrive_congr {t : State} (hbus : (ctl t n).bus = (ctl s n).bus) (hstop : (ctl t n).stopped = (ctl s n).stopped)
    (hoff : rd t Reg.FBCn_STATUS_BUSOFF n = rd s Reg.FBCn_STATUS_BUSOFF n)
    (hstate : rd t Reg.FBCn_STATUS_MSTATE n = rd s Reg.FBCn_STATUS_MSTATE n) : canDrive t n = canDrive s n := by
  have hres : resState t ⟨.fieldbus, n.val⟩ = resState s ⟨.fieldbus, n.val⟩ := congrArg mstateOf hstate
  simp only [canDrive, hbus, hstop, rdB_of_rd hoff, hres]

theorem probeOutcome_reads (s : State) (n : Fin 24) (outcome pmode : Nat) :
    rd (probeOutcome s n outcome pmode) Reg.FBCn_STATUS_PROBE n = outcome % 8 ∧
      rd (probeOutcome s n outcome pmode) Reg.FBCn_STATUS_PMODE n = pmode % 4 := by
  have hkeep {g : Field} (hg : ∀ f ∈ recorderFields ++ sendFields, g.id ≠ f.id) :
      rd (probeOutcome s n outcome pmode) g n =
        rd (wr (wr s Reg.FBCn_STATUS_PMODE pmode n) Reg.FBCn_STATUS_PROBE outcome n) g n :=
    ((ctlBlind_rd hg n).afterTx _ _).trans ((ctlBlind_rd hg n).record _ _ _ _)
  exact ⟨(hkeep (by decide)).trans (rd_wr_same _ _ _ _),
    (hkeep (by decide)).trans <| (rd_wr_ctl (by decide) _ _).trans (rd_wr_same _ _ _ _)⟩

variable {b : BusRec} (hbus : (ctl s n).bus = some b) (hen : b.en = true)
include hbus hen

theorem startBus_fixed (hres : resState s ⟨.fieldbus, n.val⟩ ≠ .retired) (hm : b.mode = 1 ∨ b.mode = 2) :
    startBus s n = probeOutcome (freeWire s n) n 4 b.mode := by
  have hbus' : (ctl (freeWire s n) n).bus = some b := by simpa [freeWire] using hbus
  have hres' : resState (freeWire s n) ⟨.fieldbus, n.val⟩ ≠ .retired := hres
  unfold startBus
  rcases hm with hm | hm <;> simp [hbus', hen, hres', hm]

theorem startBus_probes (hres : resState s ⟨.fieldbus, n.val⟩ ≠ .retired) (hm : b.mode = 0) :
    startBus s n =
      sendProbe (wr (wr (freeWire s n) Reg.FBCn_STATUS_PMODE 0 n) Reg.FBCn_STATUS_PROBE 0 n) n b := by
  have hbus' : (ctl (freeWire s n) n).bus = some b := by simpa [freeWire] using hbus
  have hres' : resState (freeWire s n) ⟨.fieldbus, n.val⟩ ≠ .retired := hres
  unfold startBus
  simp [hbus', hen, hres', hm]

theorem probeCmd_accepted (hp : rdB s Reg.FBCn_CTLSTS_PEND n = false) (hm : modeIs s = .halt)
    (hres : resState s ⟨.fieldbus, n.val⟩ ≠ .retired) :
    probeCmd s n = if b.mode = 0 then startBus (wr s Reg.FBCn_CTLSTS_PEND 1 n) n else ctlEnd (startBus s n) n CC.done 0 := by
  unfold probeCmd
  rw [ctlCmd_accepted hp (by simp [hm])]
  simp [hbus, hm, hen, hres]

theorem probe_of_probed (hp : rdB s Reg.FBCn_CTLSTS_PEND n = false) (hm : modeIs s = .halt)
    (hres : resState s ⟨.fieldbus, n.val⟩ ≠ .retired) (hmode : b.mode = 0) :
    Completes (exec (.probe n) s) fun t => rd t Reg.FBCn_CTLSTS_PEND n = 1 ∧ rd t Reg.FBCn_STATUS_PMODE n = 0 ∧
      rd t Reg.FBCn_STATUS_PROBE n = 0 ∧
      t.out = s.out ++ if canDrive s n then [.probeFrame n (probeFrame b) 3] else [] := by
  refine ⟨_, congrArg Host.Outcome.next (probeCmd_accepted hbus hen hp hm hres), ?_⟩
  have hres' : resState (wr s Reg.FBCn_CTLSTS_PEND 1 n) ⟨.fieldbus, n.val⟩ ≠ .retired := by
    rwa [show resState (wr s Reg.FBCn_CTLSTS_PEND 1 n) ⟨.fieldbus, n.val⟩ = resState s ⟨.fieldbus, n.val⟩ from
      congrArg mstateOf (rd_wr_ctl (by decide) s 1)]
  rw [if_pos hmode, startBus_probes (s := wr s Reg.FBCn_CTLSTS_PEND 1 n) hbus hen hres' hmode]
  have hkeep {g : Field} (hg : ∀ f ∈ recorderFields, g.id ≠ f.id) (u : State) : rd (sendProbe u n b) g n = rd u g n :=
    (ctlBlind_rd (l := []) (by simpa using hg) n).sendProbe _ _ _
  refine ⟨?_, ?_, ?_, ?_⟩
  · rw [hkeep (by decide), rd_wr_ctl (by decide), rd_wr_ctl (by decide)]
    exact rd_wr_same s Reg.FBCn_CTLSTS_PEND n 1
  · rw [hkeep (by decide), rd_wr_ctl (by decide), rd_wr_same]
    rfl
  · rw [hkeep (by decide), rd_wr_same]
    rfl
  · unfold sendProbe
    rw [canDrive_congr (s := s) (by simp [freeWire]) (by simp [freeWire])]
    · split <;> simp [freeWire, setCtl]
    all_goals
      rw [rd_wr_ctl (by decide), rd_wr_ctl (by decide)]
      exact rd_wr_ctl (f := Reg.FBCn_CTLSTS_PEND) (by decide) s 1

theorem probe_of_fixed (hp : rdB s Reg.FBCn_CTLSTS_PEND n = false) (hm : modeIs s = .halt)
    (hres : resState s ⟨.fieldbus, n.val⟩ ≠ .retired) (hmode : b.mode = 1 ∨ b.mode = 2) :
    Completes (exec (.probe n) s) fun t => rd t Reg.FBCn_CTLSTS_PEND n = 0 ∧ rd t Reg.FBCn_CTLSTS_CC n = CC.done ∧
      rd t Reg.FBCn_STATUS_PMODE n = b.mode ∧ rd t Reg.FBCn_STATUS_PROBE n = 4 := by
  refine ⟨_, congrArg Host.Outcome.next (probeCmd_accepted hbus hen hp hm hres), ?_⟩
  rw [if_neg (by omega), startBus_fixed hbus hen hres hmode]
  obtain ⟨hcc, -, hpend⟩ := ctlEnd_reads (probeOutcome (freeWire s n) n 4 b.mode) n CC.done 0
  obtain ⟨hprobe, hpmode⟩ := probeOutcome_reads (freeWire s n) n 4 b.mode
  refine ⟨hpend, hcc, ?_, (rd_ctlEnd (by decide) _ _ _ _).trans hprobe⟩
  rw [rd_ctlEnd (by decide), hpmode]
  omega

end

/-! ### The outcome of a probe (R229, Table 10.3) -/

/-- The outcome of the probe frames and the mode the bus takes (Table 10.3). -/
def probeResult : ProbeSeen → Nat × Nat
  | .errorAfterFdf => (2, 2)
  | .threeAcked => (1, 1)
  | .noAck => (3, 2)

/-- The error fields of a controller. -/
def errorFields : List Field :=
  [Reg.FBCn_STATUS_EPASS, Reg.FBCn_ERR_TEC, Reg.FBCn_ERR_LEC, Reg.FBCn_ERR_LPH]

theorem rd_setEpass {g : Field} (h : g.id ≠ Reg.FBCn_STATUS_EPASS.id) (s : State) (n : Fin 24) :
    rd (setEpass s n) g n = rd s g n := rd_wr_ctl h _ _

theorem setEpass_epass (s : State) (n : Fin 24) : rdB (setEpass s n) Reg.FBCn_STATUS_EPASS n =
    decide (128 ≤ rd s Reg.FBCn_ERR_TEC n ∨ 128 ≤ rd s Reg.FBCn_ERR_REC n) := rdB_wrB_same rfl _ _ _

/-- LEC and LPH after an error, which sets nothing else (Table 10.9). -/
theorem setLec_reads (s : State) (n : Fin 24) (e : CanErr) (dp : Bool) :
    rd (setLec s n e dp) Reg.FBCn_ERR_LEC n = lecOf e ∧ rdB (setLec s n e dp) Reg.FBCn_ERR_LPH n = dp ∧
      ∀ g : Field, g.id ≠ Reg.FBCn_ERR_LEC.id → g.id ≠ Reg.FBCn_ERR_LPH.id → rd (setLec s n e dp) g n = rd s g n := by
  refine ⟨(rd_wr_ctl (by decide) _ _).trans <| (rd_wr_same _ _ _ _).trans ?_, rdB_wrB_same rfl _ _ _,
    fun g hlec hlph => (rd_wr_ctl hlph _ _).trans (rd_wr_ctl hlec _ _)⟩
  cases e <;> rfl

/-- The probe frames leave nothing but error counts, and take free values for those no command tells. -/
theorem rd_probeErrors {g : Field} (h : ∀ f ∈ errorFields, g.id ≠ f.id) (s : State) (n : Fin 24) (o : ProbeSeen) :
    rd (probeErrors s n o) g n = rd s g n := by
  have hep : g.id ≠ Reg.FBCn_STATUS_EPASS.id := h _ (by simp [errorFields])
  have htec : g.id ≠ Reg.FBCn_ERR_TEC.id := h _ (by simp [errorFields])
  have hlec : g.id ≠ Reg.FBCn_ERR_LEC.id := h _ (by simp [errorFields])
  have hlph : g.id ≠ Reg.FBCn_ERR_LPH.id := h _ (by simp [errorFields])
  cases o with
  | errorAfterFdf =>
    exact (rd_setEpass hep _ _).trans <| (rd_wr_ctl htec _ _).trans <| (rd_wr_ctl hlph _ _).trans (rd_wr_ctl hlec _ _)
  | threeAcked => exact (rd_setEpass hep _ _).trans (rd_wr_ctl htec _ _)
  | noAck =>
    refine ite_keeps (p := (rd · g n)) ?_ rfl
    exact (rd_setEpass hep _ _).trans <| (rd_wr_ctl htec _ _).trans ((setLec_reads _ _ _ _).2.2 g hlec hlph)

section

variable {s : State} {n : Fin 24} {b : BusRec}

theorem probeComplete_accepted (hbus : (ctl s n).bus = some b) (hen : b.en = true) (hmode : b.mode = 0)
    (hpmode : rd s Reg.FBCn_STATUS_PMODE n = 0) {o : ProbeSeen} (hdrive : canDrive s n = true ∨ o = .noAck) :
    probeComplete s n o =
      let t := probeOutcome (probeErrors s n o) n (probeResult o).1 (probeResult o).2
      if rdB t Reg.FBCn_CTLSTS_PEND n && !rdB t Reg.FBCn_STATUS_RECOV n then ctlEnd t n CC.done 0 else t := by
  have hown : ¬(!b.en ∨ b.mode ≠ 0 ∨ rd s Reg.FBCn_STATUS_PMODE n ≠ 0 ∨ (!canDrive s n ∧ o ≠ .noAck)) := by
    rcases hdrive with h | h <;> simp [hen, hmode, hpmode, h]
  simp only [probeComplete, hbus, if_neg hown]
  cases o <;> rfl

theorem probeComplete_effect (hbus : (ctl s n).bus = some b) (hen : b.en = true) (hmode : b.mode = 0)
    (hpmode : rd s Reg.FBCn_STATUS_PMODE n = 0) {o : ProbeSeen} (hdrive : canDrive s n = true ∨ o = .noAck) :
    Completes (exec (.probeComplete n o) s) fun t =>
      rd t Reg.FBCn_STATUS_PROBE n = (probeResult o).1 ∧ rd t Reg.FBCn_STATUS_PMODE n = (probeResult o).2 ∧
      (rdB s Reg.FBCn_CTLSTS_PEND n = true → rdB s Reg.FBCn_STATUS_RECOV n = false →
        rd t Reg.FBCn_CTLSTS_PEND n = 0 ∧ rd t Reg.FBCn_CTLSTS_CC n = CC.done) := by
  refine ⟨_, congrArg Host.Outcome.next (probeComplete_accepted hbus hen hmode hpmode hdrive), ?_⟩
  extract_lets t
  have hkeep {g : Field} (hg : ∀ f ∈ recorderFields ++ startFields, g.id ≠ f.id)
      (he : ∀ f ∈ errorFields, g.id ≠ f.id) : rd t g n = rd s g n :=
    ((ctlBlind_rd hg n).probeOutcome _ _ _ _).trans (rd_probeErrors he s n o)
  have hreads : rd t Reg.FBCn_STATUS_PROBE n = (probeResult o).1 ∧ rd t Reg.FBCn_STATUS_PMODE n = (probeResult o).2 := by
    obtain ⟨hprobe, hmode⟩ := probeOutcome_reads (probeErrors s n o) n (probeResult o).1 (probeResult o).2
    exact ⟨hprobe.trans (by cases o <;> rfl), hmode.trans (by cases o <;> rfl)⟩
  rw [rdB_of_rd (hkeep (g := Reg.FBCn_CTLSTS_PEND) (by decide) (by decide)),
    rdB_of_rd (hkeep (g := Reg.FBCn_STATUS_RECOV) (by decide) (by decide))]
  split
  case isTrue =>
    obtain ⟨hcc, -, hpend⟩ := ctlEnd_reads t n CC.done 0
    exact ⟨(rd_ctlEnd (by decide) _ _ _ _).trans hreads.1, (rd_ctlEnd (by decide) _ _ _ _).trans hreads.2,
      fun _ _ => ⟨hpend, hcc⟩⟩
  case isFalse hwaits => exact ⟨hreads.1, hreads.2, fun hp hr => absurd (by simp [hp, hr]) hwaits⟩

/-! ### Recovery (R236) and CLEAR -/

theorem recover_accepted (hp : rdB s Reg.FBCn_CTLSTS_PEND n = false)
    (hm : modeIs s = .halt ∨ modeIs s = .active ∨ modeIs s = .standby ∨ modeIs s = .safehold) :
    recover s n = if rdB s Reg.FBCn_STATUS_BUSOFF n then
        wr (wr s Reg.FBCn_CTLSTS_PEND 1 n) Reg.FBCn_STATUS_RECOV 1 n
      else ctlEnd s n CC.failRefused Rsn.notBusoff := by
  unfold recover
  rw [ctlCmd_accepted hp (by rcases hm with h | h | h | h <;> simp [h])]
  rcases hm with h | h | h | h <;> cases rdB s Reg.FBCn_STATUS_BUSOFF n <;> simp [h]

theorem recover_effect (hp : rdB s Reg.FBCn_CTLSTS_PEND n = false)
    (hm : modeIs s = .halt ∨ modeIs s = .active ∨ modeIs s = .standby ∨ modeIs s = .safehold) :
    (rdB s Reg.FBCn_STATUS_BUSOFF n = true → Completes (exec (.recover n) s) fun t =>
      rd t Reg.FBCn_CTLSTS_PEND n = 1 ∧ rd t Reg.FBCn_STATUS_RECOV n = 1 ∧
      OnlyFields s t [(Reg.FBCn_CTLSTS_PEND, n), (Reg.FBCn_STATUS_RECOV, n)]) ∧
    (rdB s Reg.FBCn_STATUS_BUSOFF n = false → Completes (exec (.recover n) s) fun t =>
      rd t Reg.FBCn_CTLSTS_PEND n = 0 ∧ rd t Reg.FBCn_CTLSTS_CC n = CC.failRefused ∧
      rd t Reg.FBCn_CTLSTS_RSN n = Rsn.notBusoff) := by
  have hexec : exec (.recover n) s = .next _ := congrArg Host.Outcome.next (recover_accepted hp hm)
  refine ⟨fun hoff => ⟨_, hexec, ?_⟩, fun hon => ⟨_, hexec, ?_⟩⟩
  · rw [if_pos hoff]
    exact wr_pair (key_ne_of_id (by decide) (by omega) (by omega)) s 1 1
  · rw [if_neg (by simp [hon])]
    obtain ⟨hcc, hrsn, hpend⟩ := ctlEnd_reads s n CC.failRefused Rsn.notBusoff
    exact ⟨hpend, hcc, hrsn⟩

theorem clearCounters_effect (hp : rdB s Reg.FBCn_CTLSTS_PEND n = false) (hm : modeIs s ≠ .test) :
    Completes (exec (.clearCounters n) s) fun t => rd t Reg.FBCn_ERR_CLASH n = 0 ∧ rd t Reg.FBCn_CTLSTS_PEND n = 0 ∧
      rd t Reg.FBCn_CTLSTS_CC n = CC.done ∧ rd t Reg.FBCn_CTLSTS_RSN n = 0 ∧
      OnlyFields s t [(Reg.FBCn_ERR_CLASH, n), (Reg.FBCn_CTLSTS_PEND, n), (Reg.FBCn_CTLSTS_CC, n),
        (Reg.FBCn_CTLSTS_RSN, n)] := by
  refine ⟨_, congrArg Host.Outcome.next (ctlCmd_accepted hp hm _), ?_⟩
  obtain ⟨hcc, hrsn, hpend⟩ := ctlEnd_reads (wr s Reg.FBCn_ERR_CLASH 0 n) n CC.done 0
  refine ⟨(rd_ctlEnd (by decide) _ _ _ _).trans (rd_wr_same _ _ _ _), hpend, hcc, hrsn, rfl, ?_⟩
  exact (fieldsBut_wr (by simp) _ _).trans <| (fieldsBut_wr (by simp) _ _).trans <|
    (fieldsBut_wr (by simp) _ _).trans (fieldsBut_wr (by simp) _ _)

/-- A controller whose recovery is complete, before it goes on. -/
def recovered (s : State) (n : Fin 24) : State :=
  wr (wr (setEpass (wr (wr s Reg.FBCn_ERR_TEC 0 n) Reg.FBCn_ERR_REC 0 n) n) Reg.FBCn_STATUS_BUSOFF 0 n)
    Reg.FBCn_STATUS_RECOV 0 n

theorem recovered_reads (s : State) (n : Fin 24) :
    rd (recovered s n) Reg.FBCn_ERR_TEC n = 0 ∧ rd (recovered s n) Reg.FBCn_ERR_REC n = 0 ∧
      rd (recovered s n) Reg.FBCn_STATUS_BUSOFF n = 0 ∧ rd (recovered s n) Reg.FBCn_STATUS_RECOV n = 0 ∧
      rd (recovered s n) Reg.FBCn_STATUS_EPASS n = 0 := by
  simp (disch := decide) [recovered, setEpass, wrB, rd_wr_ctl]

theorem recoveryComplete_effect (hr : rdB s Reg.FBCn_STATUS_RECOV n = true) :
    Completes (exec (.recoveryComplete n) s) fun t =>
      rd t Reg.FBCn_ERR_TEC n = 0 ∧ rd t Reg.FBCn_ERR_REC n = 0 ∧ rd t Reg.FBCn_STATUS_BUSOFF n = 0 ∧
      rd t Reg.FBCn_STATUS_RECOV n = 0 ∧ rd t Reg.FBCn_STATUS_EPASS n = 0 ∧ rd t Reg.FBCn_CTLSTS_PEND n = 0 ∧
      rd t Reg.FBCn_CTLSTS_CC n = CC.done := by
  refine ⟨_, congrArg Host.Outcome.next (if_pos hr), ?_⟩
  extract_lets u v
  have hgo {g : Field} (hg : ∀ f ∈ recorderFields ++ sendFields, g.id ≠ f.id) (w : State) : rd (goOn w n) g n = rd w g n :=
    (ctlBlind_rd hg n).goOn _ _
  have hkeep {g : Field} (hg : ∀ f ∈ recorderFields ++ (sendFields ++ commandFields ++ showFields), g.id ≠ f.id) (w : State) :
      rd (goOn (ctlEnd (event (showCtl w n) Ev.busRecovered .notice []) n CC.done 0) n) g n = rd w g n := by
    have hblind := ctlBlind_rd hg n
    exact ((hblind.mono (by decide)).goOn _ _).trans <| ((hblind.mono (by decide)).ctlEnd _ _ _ _).trans <|
      (hblind.record _ _ _ _).trans ((hblind.mono (by decide)).showCtl _ _)
  obtain ⟨htec, hrec, hoff, hrecov, hepass⟩ := recovered_reads s n
  obtain ⟨hcc, -, hpend⟩ := ctlEnd_reads (event (showCtl (recovered s n) n) Ev.busRecovered .notice []) n CC.done 0
  exact ⟨(hkeep (by decide) _).trans htec, (hkeep (by decide) _).trans hrec, (hkeep (by decide) _).trans hoff,
    (hkeep (by decide) _).trans hrecov, (hkeep (by decide) _).trans hepass, (hgo (by decide) _).trans hpend,
    (hgo (by decide) _).trans hcc⟩

/-! ### Filters (R237, R238) -/

theorem fltEnd_reads (s : State) (n : Fin 24) (code rsn : Nat) :
    rd (fltEnd s n code rsn) Reg.FBCn_FLTSTS_CC n = code % 256 ∧
      rd (fltEnd s n code rsn) Reg.FBCn_FLTSTS_RSN n = rsn % 256 ∧ (fltEnd s n code rsn).fbc = s.fbc :=
  ⟨(rd_wr_ctl (by decide) _ _).trans (rd_wr_same _ _ _ _), rd_wr_same _ _ _ _, rfl⟩

/-- The filter that the host's registers spell. -/
def hostFilter (s : State) (n : Fin 24) : Filt :=
  ⟨BitVec.ofNat 29 (rd s Reg.FBCn_FLTID_FID n), rdB s Reg.FBCn_FLTID_IDE n,
    BitVec.ofNat 29 (rd s Reg.FBCn_FLTMASK_FMASK n), false⟩

theorem exec_filterAdd_of_free (hm : modeIs s ≠ .test) {i : Nat} (hi : i < 63) (hfree : tget (ctl s n).filters i = none)
    (hlow : ∀ j, j < i → tget (ctl s n).filters j ≠ none) :
    exec (.filterAdd n) s = .next (wr (fltEnd (setFilters s n (tput (ctl s n).filters i (hostFilter s n))) n CC.done 0)
      Reg.FBCn_FLTSTS_ADDED i n) := by
  have hfind : (List.range 63).find? (fun j => (tget (ctl s n).filters j).isNone) = some i :=
    List.find?_range_eq_some.2 ⟨by simp [hfree], List.mem_range.2 hi, fun j hj => by
      simpa [Option.isSome_iff_ne_none] using hlow j hj⟩
  refine congrArg Host.Outcome.next ((if_neg hm).trans ?_)
  simp only [hfind]
  rfl

theorem filterAdd_of_free (hm : modeIs s ≠ .test) {i : Nat} (hi : i < 63) (hfree : tget (ctl s n).filters i = none)
    (hlow : ∀ j, j < i → tget (ctl s n).filters j ≠ none) :
    Completes (exec (.filterAdd n) s) fun t =>
      rd t Reg.FBCn_FLTSTS_CC n = CC.done ∧ rd t Reg.FBCn_FLTSTS_ADDED n = i ∧
      t.fbc = s.fbc.set n { ctl s n with
        filters := tput (ctl s n).filters i (hostFilter s n)
        fltWas := (ctl s n).fltWas ++ [(s.tb.now, (ctl s n).filters)] } := by
  refine ⟨_, exec_filterAdd_of_free hm hi hfree hlow, ?_, ?_, rfl⟩
  · exact (rd_wr_ctl (by decide) _ _).trans (fltEnd_reads _ _ _ _).1
  · exact (rd_wr_same _ _ _ _).trans (Nat.mod_eq_of_lt (hi.trans (by decide)))

theorem filterAdd_of_full (hm : modeIs s ≠ .test) (hfull : ∀ j, j < 63 → tget (ctl s n).filters j ≠ none) :
    Completes (exec (.filterAdd n) s) fun t =>
      rd t Reg.FBCn_FLTSTS_CC n = CC.failRefused ∧ rd t Reg.FBCn_FLTSTS_RSN n = Rsn.filterFull ∧ t.fbc = s.fbc := by
  have hfind : (List.range 63).find? (fun j => (tget (ctl s n).filters j).isNone) = none :=
    List.find?_eq_none.2 fun j hj => by simpa using hfull j (List.mem_range.1 hj)
  refine ⟨fltEnd s n CC.failRefused Rsn.filterFull, congrArg Host.Outcome.next ((if_neg hm).trans ?_),
    fltEnd_reads _ _ _ _⟩
  simp only [hfind]

theorem filterRemove_effect (hm : modeIs s ≠ .test) (i : Fin 64) :
    Completes (exec (.filterRemove n i) s) fun t =>
      match tget (ctl s n).filters i.val with
      | some f => if f.offload then rd t Reg.FBCn_FLTSTS_CC n = CC.failRefused ∧
            rd t Reg.FBCn_FLTSTS_RSN n = Rsn.notOwner ∧ t.fbc = s.fbc
          else rd t Reg.FBCn_FLTSTS_CC n = CC.done ∧ (ctl t n).filters = (ctl s n).filters.filter (fun e => e.1 ≠ i.val)
      | none => rd t Reg.FBCn_FLTSTS_CC n = CC.failRefused ∧ rd t Reg.FBCn_FLTSTS_RSN n = Rsn.notOwner ∧
          t.fbc = s.fbc := by
  refine ⟨_, congrArg Host.Outcome.next (if_neg hm), ?_⟩
  cases tget (ctl s n).filters i.val with
  | none => exact fltEnd_reads _ _ _ _
  | some f =>
    cases hf : f.offload with
    | true =>
      simp only [hf, if_true]
      exact fltEnd_reads _ _ _ _
    | false =>
      simp only [hf, Bool.false_eq_true, if_false]
      exact ⟨(fltEnd_reads _ _ _ _).1, congrArg Ctl.filters (ctl_setCtl s n _)⟩

theorem filterRemoveAll_effect (hm : modeIs s ≠ .test) :
    Completes (exec (.filterRemoveAll n) s) fun t => rd t Reg.FBCn_FLTSTS_CC n = CC.done ∧
      t.fbc = s.fbc.set n { ctl s n with
        filters := (ctl s n).filters.filter (fun e => e.2.offload)
        fltWas := (ctl s n).fltWas ++ [(s.tb.now, (ctl s n).filters)] } :=
  ⟨_, congrArg Host.Outcome.next (if_neg hm), (fltEnd_reads _ _ _ _).1, rfl⟩

end

/-- Settles O41: each command past the checks it shares with the others, and each filter command by what its index holds. -/
theorem busControlAndFilters : Obligations.BusControlAndFilters := by
  refine ⟨fun s n c hc => ?_, fun s n l hm hl => ?_⟩
  · subst hc
    refine ⟨fun b hbus hen => ⟨fun hp hm hres => ⟨probe_of_probed hbus hen hp hm hres,
        probe_of_fixed hbus hen hp hm hres⟩, fun hmode hpmode o x hx => ?_⟩,
      recover_effect, recoveryComplete_effect, clearCounters_effect⟩
    have hresult : x = probeResult o := by
      rcases hx with ⟨rfl, rfl⟩ | ⟨rfl, rfl⟩ | ⟨rfl, rfl⟩ <;> rfl
    exact hresult ▸ probeComplete_effect hbus hen hmode hpmode
  · subst hl
    exact ⟨fun i hi => filterAdd_of_free hm hi, filterAdd_of_full hm, filterRemove_effect hm, filterRemoveAll_effect hm⟩

end Sys2Proof.Machine
end

section
/-! SUPPORT. Reception (R227, R237, R240 to R242, R254): what a frame and an error leave in the fields, the FIFO and the
messages under reassembly, and the receive window. -/

namespace Sys2Proof.Machine

/-! ### Claims that are heard (R309) -/

theorem addCause_fbc (s : State) (c : Cause) : (addCause s c).fbc = s.fbc := ite_keeps (p := State.fbc) rfl rfl

theorem hearClaim_fbc (s : State) (c : BitVec 32) : (hearClaim s c).fbc = s.fbc := by
  unfold hearClaim
  dsimp only
  split
  · rfl
  · exact ite_keeps (p := State.fbc) (addCause_fbc _ _) rfl

theorem rd_hearClaim {g : Field} (h : g.id ≠ Reg.RDU_PCLAIM_PARTNER.id) (n : Fin 24) (s : State) (c : BitVec 32) :
    rd (hearClaim s c) g n = rd s g n := by
  have hclaim (x : RduSt) : rd (wr { s with rdu := x } Reg.RDU_PCLAIM_PARTNER c.toNat) g n = rd s g n :=
    rd_wr_of_id_ne h (by omega) (by omega) _ _
  have hcause (t : State) (x : Cause) : rd (addCause t x) g n = rd t g n := ite_keeps (p := (rd · g n)) rfl rfl
  unfold hearClaim
  dsimp only
  split
  · exact hclaim _
  · exact ite_keeps (p := (rd · g n)) ((hcause _ _).trans (hclaim _)) (hclaim _)

theorem hearOnBus_fbc (s : State) (f : CanFrame) : (hearOnBus s f).fbc = s.fbc :=
  ite_keeps (p := State.fbc) (hearClaim_fbc _ _) rfl

theorem rd_hearOnBus {g : Field} (h : g.id ≠ Reg.RDU_PCLAIM_PARTNER.id) (n : Fin 24) (s : State) (f : CanFrame) :
    rd (hearOnBus s f) g n = rd s g n := ite_keeps (p := (rd · g n)) (rd_hearClaim h n _ _) rfl

/-! ### A frame received (R237, R240) -/

/-- The state in which a valid frame has lowered REC and been heard, with the earlier filters it is past forgotten. -/
def frameHeard (s : State) (n : Fin 24) (f : CanFrame) (sof valid : Nat) : State :=
  (filtersAt (hearOnBus (setEpass (wr (advance s valid) Reg.FBCn_ERR_REC (rd s Reg.FBCn_ERR_REC n - 1) n) n) f) n sof).2

/-- The frame is taken by a filter, or counted. -/
def frameTaken (s : State) (n : Fin 24) (f : CanFrame) (esi : Bool) (sof valid : Nat) : Option (Nat × Filt) → State
  | none => bump s Reg.FBCn_RXSTS_UNMATCHED n
  | some (i, flt) => if flt.offload then segmentRx s n f valid
      else fifoPut s n ⟨f, esi, f.fdf, i, BitVec.ofNat 32 (sof / 10)⟩

section

variable {s : State} {n : Fin 24} {f : CanFrame} {esi : Bool} {sof valid : Nat}

theorem filtersAt_congr {t : State} (h : t.fbc = s.fbc) : (filtersAt t n sof).1 = (filtersAt s n sof).1 := by
  simp only [filtersAt, ctl, h]

theorem exec_frameRx (hruns : busRuns s n = true) (hrec : rd s Reg.FBCn_ERR_REC n ≤ 127) :
    exec (.frameRx n f esi sof valid) s = .next (settle (freeWire (frameTaken (frameHeard s n f sof valid) n f esi sof valid
      (filtTake (filtersAt s n sof).1 f)) n) n) := by
  have hfilters := filtersAt_congr (n := n) (sof := sof) (hearOnBus_fbc
    (setEpass (wr (advance s valid) Reg.FBCn_ERR_REC (rd s Reg.FBCn_ERR_REC n - 1) n) n) f)
  have hrec' : rd (advance s valid) Reg.FBCn_ERR_REC n ≤ 127 := hrec
  refine congrArg Host.Outcome.next ?_
  simp only [frameRx, hruns, if_pos hrec', Bool.not_true, Bool.false_eq_true, if_false]
  rw [← show (filtersAt _ n sof).1 = (filtersAt s n sof).1 from hfilters]
  rfl

/-- A frame heard leaves the FIFO and the messages under reassembly. -/
theorem ctl_frameHeard (s : State) (n : Fin 24) (f : CanFrame) (sof valid : Nat) :
    (ctl (frameHeard s n f sof valid) n).fifo = (ctl s n).fifo ∧
      (ctl (frameHeard s n f sof valid) n).parts = (ctl s n).parts := by
  have hheard := ctl_of_fbc (hearOnBus_fbc
    (setEpass (wr (advance s valid) Reg.FBCn_ERR_REC (rd s Reg.FBCn_ERR_REC n - 1) n) n) f) n
  simp only [frameHeard, filtersAt, ctl_setCtl, hheard]
  exact ⟨rfl, rfl⟩

/-- The fields that a frame sets as it is heard. -/
def heardFields : List Field := [Reg.FBCn_ERR_REC, Reg.FBCn_STATUS_EPASS, Reg.RDU_PCLAIM_PARTNER]

theorem rd_frameHeard {g : Field} (h : ∀ e ∈ heardFields, g.id ≠ e.id) :
    rd (frameHeard s n f sof valid) g n = rd s g n :=
  (rd_hearOnBus (h _ (by simp [heardFields])) n _ f).trans <|
    (rd_wr_ctl (h _ (by simp [heardFields])) _ _).trans (rd_wr_ctl (h _ (by simp [heardFields])) _ _)

theorem rec_frameHeard (hrec : rd s Reg.FBCn_ERR_REC n ≤ 127) :
    rd (frameHeard s n f sof valid) Reg.FBCn_ERR_REC n = rd s Reg.FBCn_ERR_REC n - 1 := by
  refine (rd_hearOnBus (by decide) n _ f).trans <| (rd_wr_ctl (by decide) _ _).trans <| (rd_wr_same _ _ _ _).trans ?_
  exact Nat.mod_eq_of_lt (lt_of_le_of_lt (Nat.sub_le _ _) (lt_of_le_of_lt hrec (by decide)))

end

/-! ### What becomes of the frame (R237, R242, R254) -/

section

variable (s : State) (n : Fin 24) (f : RxFrame)

theorem fifoPut_of_room (h : (ctl s n).fifo.length < 64) : (ctl (fifoPut s n f) n).fifo = (ctl s n).fifo ++ [f] ∧
    rd (fifoPut s n f) Reg.FBCn_RXSTS_COUNT n = (ctl s n).fifo.length + 1 ∧
    ∀ g : Field, g.id ≠ Reg.FBCn_RXSTS_COUNT.id → rd (fifoPut s n f) g n = rd s g n := by
  have hput : fifoPut s n f = setFifo s n ((ctl s n).fifo ++ [f]) := if_pos h
  rw [hput]
  refine ⟨congrArg Ctl.fifo (ctl_setCtl s n _), (rd_wr_same _ _ _ _).trans ?_, fun g hg => rd_wr_ctl hg _ _⟩
  rw [List.length_append, List.length_singleton]
  exact Nat.mod_eq_of_lt (lt_of_le_of_lt h (by decide))

theorem fifoPut_of_full (h : ¬(ctl s n).fifo.length < 64) : (ctl (fifoPut s n f) n).fifo = (ctl s n).fifo ∧
    rd (fifoPut s n f) Reg.FBCn_RXSTS_RXOVF n =
      min (rd s Reg.FBCn_RXSTS_RXOVF n + 1) (2 ^ Reg.FBCn_RXSTS_RXOVF.width - 1) ∧
    ∀ g : Field, (∀ e ∈ recorderFields, g.id ≠ e.id) → g.id ≠ Reg.FBCn_RXSTS_RXOVF.id →
      rd (fifoPut s n f) g n = rd s g n := by
  have hview {β : Type} {p : State → β} (hp : CtlBlind [] p) :
      p (fifoPut s n f) = p (bump s Reg.FBCn_RXSTS_RXOVF n) :=
    (congrArg p (if_neg h)).trans (ite_keeps rfl ((hp.record _ _ _ _).trans (hp.control _ n _ rfl rfl)))
  refine ⟨hview (ctlBlind_fifo [] n), (hview (ctlBlind_rd (by decide) n)).trans (bump_same _ _ _ _), fun g hr hg => ?_⟩
  exact (hview (ctlBlind_rd (by simpa using hr) n)).trans (rd_wr_ctl hg _ _)

end

theorem segmentRx_first {s : State} {n : Fin 24} {f : CanFrame} {d : Byte} {l : List Byte} (hdata : frameData f = d :: l)
    (hfirst : d.toNat % 8 = 0) (hlast : d.getLsbD 7 = false) (hnew : tget (ctl s n).parts f.id.toNat = none)
    (valid : Nat) : segmentRx s n f valid =
      setCtl s n { ctl s n with parts := tput (ctl s n).parts f.id.toNat ⟨1, l, valid⟩ } := by
  have hmore : d[7] = false := by simpa using hlast
  simp [segmentRx, hdata, hfirst, hmore, hnew]

/-! ### An error met as the controller receives (R227) -/

/-- A controller that has met an error as it receives, its wire not yet free. -/
def receiveErrorShown (s : State) (n : Fin 24) (e : CanErr) (dp : Bool) : State :=
  setEpass (wr (setLec s n e dp) Reg.FBCn_ERR_REC
    (min 255 (rd (setLec s n e dp) Reg.FBCn_ERR_REC n + if e = .bit0 ∨ e = .bit1 then 8 else 1)) n) n

theorem receiveErrorShown_reads (s : State) (n : Fin 24) (e : CanErr) (dp : Bool) :
    rd (receiveErrorShown s n e dp) Reg.FBCn_ERR_REC n =
        min 255 (rd s Reg.FBCn_ERR_REC n + if e = .bit0 ∨ e = .bit1 then 8 else 1) ∧
      rd (receiveErrorShown s n e dp) Reg.FBCn_ERR_LEC n = lecOf e ∧
      rdB (receiveErrorShown s n e dp) Reg.FBCn_ERR_LPH n = dp ∧
      rdB (receiveErrorShown s n e dp) Reg.FBCn_STATUS_EPASS n =
        decide (128 ≤ rd s Reg.FBCn_ERR_TEC n ∨ 128 ≤ rd (receiveErrorShown s n e dp) Reg.FBCn_ERR_REC n) := by
  obtain ⟨hlec, hlph, hrest⟩ := setLec_reads s n e dp
  have hshown {g : Field} (hg : g.id ≠ Reg.FBCn_STATUS_EPASS.id) (hr : g.id ≠ Reg.FBCn_ERR_REC.id) :
      rd (receiveErrorShown s n e dp) g n = rd (setLec s n e dp) g n := (rd_setEpass hg _ _).trans (rd_wr_ctl hr _ _)
  refine ⟨(rd_setEpass (by decide) _ _).trans <| (rd_wr_same _ _ _ _).trans ?_, (hshown (by decide) (by decide)).trans hlec,
    (rdB_of_rd (hshown (by decide) (by decide))).trans hlph, (setEpass_epass _ _).trans ?_⟩
  · rw [hrest _ (by decide) (by decide)]
    exact Nat.mod_eq_of_lt (lt_of_le_of_lt (min_le_left _ _) (by decide))
  · rw [rd_wr_ctl (by decide), hrest _ (by decide) (by decide)]
    exact congrArg (fun k => decide (128 ≤ rd s Reg.FBCn_ERR_TEC n ∨ 128 ≤ k)) (rd_setEpass (by decide) _ _).symm

/-! ### FRAME_RX -/

section

variable {s : State} {n : Fin 24} (hruns : busRuns s n = true)
include hruns

section

variable {f : CanFrame} {sof : Nat} (hrec : rd s Reg.FBCn_ERR_REC n ≤ 127) (esi : Bool) (valid : Nat)
include hrec

theorem frameRx_unmatched (htake : filtTake (filtersAt s n sof).1 f = none) :
    Completes (exec (.frameRx n f esi sof valid) s) fun t =>
      rd t Reg.FBCn_RXSTS_UNMATCHED n =
        min (rd s Reg.FBCn_RXSTS_UNMATCHED n + 1) (2 ^ Reg.FBCn_RXSTS_UNMATCHED.width - 1) ∧
      rd t Reg.FBCn_ERR_REC n = rd s Reg.FBCn_ERR_REC n - 1 ∧ (ctl t n).fifo = (ctl s n).fifo := by
  refine ⟨_, exec_frameRx hruns hrec, ?_⟩
  rw [htake]
  refine ⟨?_, ?_, ?_⟩
  · refine ((ctlBlind_rd (by decide) n).wireFreed _ _).trans <| (bump_same _ _ _ _).trans ?_
    rw [rd_frameHeard (by decide)]
  · exact ((ctlBlind_rd (by decide) n).wireFreed _ _).trans <| (rd_wr_ctl (by decide) _ _).trans (rec_frameHeard hrec)
  · exact ((ctlBlind_fifo _ n).wireFreed _ _).trans (ctl_frameHeard s n f sof valid).1

theorem frameRx_host {i : Nat} {flt : Filt} (htake : filtTake (filtersAt s n sof).1 f = some (i, flt))
    (hhost : flt.offload = false) : Completes (exec (.frameRx n f esi sof valid) s) fun t =>
      rd t Reg.FBCn_ERR_REC n = rd s Reg.FBCn_ERR_REC n - 1 ∧
      if (ctl s n).fifo.length < 64 then
        (ctl t n).fifo = (ctl s n).fifo ++ [⟨f, esi, f.fdf, i, BitVec.ofNat 32 (sof / 10)⟩] ∧
        rd t Reg.FBCn_RXSTS_COUNT n = (ctl s n).fifo.length + 1 ∧
        rd t Reg.FBCn_RXSTS_RXOVF n = rd s Reg.FBCn_RXSTS_RXOVF n
      else (ctl t n).fifo = (ctl s n).fifo ∧ rd t Reg.FBCn_RXSTS_RXOVF n =
        min (rd s Reg.FBCn_RXSTS_RXOVF n + 1) (2 ^ Reg.FBCn_RXSTS_RXOVF.width - 1) := by
  refine ⟨_, exec_frameRx hruns hrec, ?_⟩
  rw [htake]
  simp only [frameTaken, hhost, Bool.false_eq_true, if_false]
  have hfifo := (ctl_frameHeard s n f sof valid).1
  have hovf : rd (frameHeard s n f sof valid) Reg.FBCn_RXSTS_RXOVF n = rd s Reg.FBCn_RXSTS_RXOVF n :=
    rd_frameHeard (by decide)
  have hrec' := rec_frameHeard (f := f) (sof := sof) (valid := valid) hrec
  have hend {g : Field} (hg : ∀ e ∈ recorderFields ++ wireFields, g.id ≠ e.id) (u : State) :
      rd (settle (freeWire u n) n) g n = rd u g n := (ctlBlind_rd hg n).wireFreed _ _
  have hkept (u : State) : (ctl (settle (freeWire u n) n) n).fifo = (ctl u n).fifo := (ctlBlind_fifo _ n).wireFreed _ _
  rw [hend (by decide), hend (by decide), hend (by decide), hkept, ← hfifo, ← hovf, ← hrec']
  split
  case isTrue hroom =>
    obtain ⟨hput, hcount, hrest⟩ := fifoPut_of_room _ n ⟨f, esi, f.fdf, i, BitVec.ofNat 32 (sof / 10)⟩ hroom
    exact ⟨hrest _ (by decide), hput, hcount, hrest _ (by decide)⟩
  case isFalse hfull =>
    obtain ⟨hput, hlost, hrest⟩ := fifoPut_of_full _ n ⟨f, esi, f.fdf, i, BitVec.ofNat 32 (sof / 10)⟩ hfull
    exact ⟨hrest _ (by decide) (by decide), hput, hlost⟩

theorem frameRx_segment {i : Nat} {flt : Filt} {d : Byte} {l : List Byte}
    (htake : filtTake (filtersAt s n sof).1 f = some (i, flt)) (hoff : flt.offload = true) (hdata : frameData f = d :: l)
    (hfirst : d.toNat % 8 = 0) (hlast : d.getLsbD 7 = false) (hnew : tget (ctl s n).parts f.id.toNat = none) :
    Completes (exec (.frameRx n f esi sof valid) s) fun t =>
      tget (ctl t n).parts f.id.toNat = some ⟨1, l, valid⟩ ∧ (ctl t n).fifo = (ctl s n).fifo := by
  refine ⟨_, exec_frameRx hruns hrec, ?_⟩
  rw [htake]
  obtain ⟨hfifo, hparts⟩ := ctl_frameHeard s n f sof valid
  have hseg := segmentRx_first hdata hfirst hlast (hparts ▸ hnew) valid
  simp only [frameTaken, hoff, if_true, hseg]
  have hend {β : Type} {p : State → β} (hp : CtlBlind wireFields p) (u : State) : p (settle (freeWire u n) n) = p u :=
    hp.wireFreed u n
  rw [hend (ctlBlind_parts _ n), hend (ctlBlind_fifo _ n), ctl_setCtl]
  exact ⟨tget_tput_same _ _ _, hfifo⟩

end

/-! ### RECEIVE_ERROR (R227) -/

theorem receiveError_effect (e : CanErr) (dp : Bool) : Completes (exec (.receiveError n e dp) s) fun t =>
    rd t Reg.FBCn_ERR_REC n =
      min 255 (rd s Reg.FBCn_ERR_REC n + if e = .bit0 ∨ e = .bit1 then 8 else 1) ∧ rd t Reg.FBCn_ERR_LEC n = lecOf e ∧
    rdB t Reg.FBCn_ERR_LPH n = dp ∧
    rdB t Reg.FBCn_STATUS_EPASS n = decide (128 ≤ rd s Reg.FBCn_ERR_TEC n ∨ 128 ≤ rd t Reg.FBCn_ERR_REC n) := by
  refine ⟨_, congrArg Host.Outcome.next (if_pos hruns), ?_⟩
  have hend {g : Field} (hg : ∀ e ∈ recorderFields ++ wireFields, g.id ≠ e.id) (u : State) :
      rd (settle (freeWire u n) n) g n = rd u g n := (ctlBlind_rd hg n).wireFreed _ _
  obtain ⟨hrec, hlec, hlph, hep⟩ := receiveErrorShown_reads s n e dp
  have hrec' := (hend (by decide) (receiveErrorShown s n e dp)).trans hrec
  refine ⟨hrec', (hend (by decide) _).trans hlec, (rdB_of_rd (hend (by decide) _)).trans hlph,
    (rdB_of_rd (hend (by decide) _)).trans (hep.trans ?_)⟩
  rw [← hrec] at hrec'
  exact congrArg (fun k => decide (128 ≤ rd s Reg.FBCn_ERR_TEC n ∨ 128 ≤ k)) hrec'.symm

end

/-! ### The receive window (R241) -/

section

variable {s : State} {n : Fin 24}

theorem rxwin_empty (h : (ctl s n).fifo = []) :
    exec (.rxwinHeadRead n) s = .next (emit s (.readData 0)) ∧
      exec (.rxwinLastRead n) s = .next (emit s (.readData 0)) := by
  have hwin (k : Nat) : rxwin s n k = (0, s) := by simp only [rxwin, h]
  exact ⟨congrArg (fun r => Host.Outcome.next (emitRead r)) (hwin _),
    congrArg (fun r => Host.Outcome.next (emitRead r)) (hwin _)⟩

theorem popFifo_reads {f : RxFrame} {l : List RxFrame} (h : (ctl s n).fifo = f :: l) :
    rd (popFifo s n) Reg.FBCn_RXSTS_LOCK n = 0 ∧ (ctl (popFifo s n) n).fifo = l ∧
      rd (popFifo s n) Reg.FBCn_RXSTS_COUNT n = l.length % 2 ^ Reg.FBCn_RXSTS_COUNT.width ∧ (popFifo s n).out = s.out := by
  have hpop : popFifo s n = wr (setFifo s n l) Reg.FBCn_RXSTS_LOCK 0 n := by simp [popFifo, h]
  rw [hpop]
  exact ⟨rd_wr_same _ _ _ _, congrArg Ctl.fifo (ctl_setCtl s n _),
    (rd_wr_ctl (by decide) _ _).trans (rd_wr_same _ _ _ _), rfl⟩

variable {f : RxFrame} {l : List RxFrame} (h : (ctl s n).fifo = f :: l)
include h

theorem rxwinHeadRead_effect : Completes (exec (.rxwinHeadRead n) s) fun t =>
    rd t Reg.FBCn_RXSTS_LOCK n = 1 ∧ t.fbc = s.fbc ∧ t.out = s.out ++ [.readData (BitVec.ofNat 64 (rxWord f 0))] := by
  have hwin : rxwin s n 0 = (rxWord f 0, wr s Reg.FBCn_RXSTS_LOCK 1 n) := by simp [rxwin, h]
  exact ⟨_, congrArg (fun r => Host.Outcome.next (emitRead r)) hwin, rd_wr_same s Reg.FBCn_RXSTS_LOCK n 1, rfl, rfl⟩

theorem rxwinLastRead_effect : Completes (exec (.rxwinLastRead n) s) fun t =>
    rd t Reg.FBCn_RXSTS_LOCK n = 0 ∧ (ctl t n).fifo = l ∧
      rd t Reg.FBCn_RXSTS_COUNT n = l.length % 2 ^ Reg.FBCn_RXSTS_COUNT.width ∧
      t.out = s.out ++ [.readData (BitVec.ofNat 64 (rxWord f (rxLast f)))] := by
  have hlast : rxLast f ≠ 0 := by simp [rxLast]
  have hwin : rxwin s n (headLast s n) = (rxWord f (rxLast f), popFifo s n) := by simp [rxwin, headLast, h, hlast]
  obtain ⟨hlock, hfifo, hcount, hout⟩ := popFifo_reads h
  exact ⟨_, congrArg (fun r => Host.Outcome.next (emitRead r)) hwin, hlock, hfifo, hcount, congrArg (· ++ [_]) hout⟩

theorem rxDiscard_effect : Completes (exec (.rxDiscard n) s) fun t =>
    rd t Reg.FBCn_RXSTS_LOCK n = 0 ∧ (ctl t n).fifo = l ∧
      rd t Reg.FBCn_RXSTS_COUNT n = l.length % 2 ^ Reg.FBCn_RXSTS_COUNT.width ∧ t.out = s.out :=
  ⟨_, rfl, popFifo_reads h⟩

end

end Sys2Proof.Machine
end

section
/-! SUPPORT. Parity errors of a field bus controller (R245, R391): the request or the received frame they hit, and the upset
they are. -/

namespace Sys2Proof.Machine

/-! ### The upset (R391) -/

/-- A controller that has suffered its first upset. -/
def busSuspect (s : State) (n : Fin 24) : State :=
  let t := wr (wr s Reg.FBCn_STATUS_MSTATE (mstateCode .suspect) n) Reg.FBCn_STATUS_FCOUNT 1 n
  { t with ssu := { t.ssu with windows := t.ssu.windows ++ [⟨⟨.fieldbus, n.val⟩, .inService, t.tb.tick⟩] } }

theorem upset_bus {s : State} {n : Fin 24} (hruns : WindowRuns s ⟨.fieldbus, n.val⟩)
    (hm : rd s Reg.FBCn_STATUS_MSTATE n = mstateCode .inService) (work : State → State) :
    upset s ⟨.fieldbus, n.val⟩ work = (busSuspect s n, false) := by
  have hstate : resState s ⟨.fieldbus, n.val⟩ = .inService := congrArg mstateOf hm
  unfold upset
  rw [windowClose_of_runs hruns]
  simp only [hstate]
  rfl

theorem busSuspect_reads (s : State) (n : Fin 24) :
    rd (busSuspect s n) Reg.FBCn_STATUS_MSTATE n = mstateCode .suspect ∧ rd (busSuspect s n) Reg.FBCn_STATUS_FCOUNT n = 1 ∧
      ∀ g : Field, g.id ≠ Reg.FBCn_STATUS_MSTATE.id → g.id ≠ Reg.FBCn_STATUS_FCOUNT.id →
        rd (busSuspect s n) g n = rd s g n :=
  ⟨(rd_wr_ctl (f := Reg.FBCn_STATUS_FCOUNT) (by decide) _ 1).trans (rd_wr_same s Reg.FBCn_STATUS_MSTATE n _),
    rd_wr_same (wr s Reg.FBCn_STATUS_MSTATE _ n) Reg.FBCn_STATUS_FCOUNT n 1,
    fun _ hm hf => (rd_wr_ctl hf _ 1).trans (rd_wr_ctl hm s _)⟩

/-- The windows of a class are judged by the tick's length and the class's own window. -/
theorem windowRuns_bus {s t : State} {n : Fin 24} (h : WindowRuns s ⟨.fieldbus, n.val⟩) (hssu : t.ssu = s.ssu)
    (htb : t.tb = s.tb) (hlen : rd t Reg.TBC_TICKCFG_TICKLEN = rd s Reg.TBC_TICKCFG_TICKLEN)
    (hwin : rd t Reg.SSU_FWIN_WINDOW (classIndex .fieldbus) = rd s Reg.SSU_FWIN_WINDOW (classIndex .fieldbus)) :
    WindowRuns t ⟨.fieldbus, n.val⟩ := by
  intro w hw hres
  have hover : faultOver t ⟨.fieldbus, n.val⟩ w.tick = faultOver s ⟨.fieldbus, n.val⟩ w.tick := by
    simp only [faultOver, faultWindow, tickNs, hlen, hwin, htb]
  exact hover.trans (h w (hssu ▸ hw) hres)

/-! ### The request and the frame that are hit (R245) -/

/-- The state in which the request hit has ended. -/
def parityTx (s : State) (n : Fin 24) : Option (Fin 3) → State
  | some b => endTx s n b CC.failTransientExhausted Rsn.parity
  | none => s

/-- The state in which the received frame hit is dropped. -/
def parityRx (s : State) (n : Fin 24) : Option (Fin 64) → State
  | some i =>
    let l := (ctl s n).fifo
    if i.val < l.length then
      let t := bump (setFifo s n (l.eraseIdx i.val)) Reg.FBCn_RXSTS_RXOVF n
      if i.val = 0 then wr t Reg.FBCn_RXSTS_LOCK 0 n else t
    else s
  | none => s

/-- The fields that the drop of a received frame sets. -/
def dropFields : List Field := [Reg.FBCn_RXSTS_COUNT, Reg.FBCn_RXSTS_RXOVF, Reg.FBCn_RXSTS_LOCK]

section

variable (s : State) (n : Fin 24)

theorem parityTx_ssu (tx : Option (Fin 3)) : (parityTx s n tx).ssu = s.ssu := by
  cases tx <;> simp [parityTx]

theorem parityRx_keeps {β : Type} {p : State → β} (hfield : ∀ f ∈ dropFields, ∀ t v, p (wr t f v n) = p t)
    (hfifo : ∀ t l o, p (setCtl t n { ctl t n with fifo := l, ovfSeen := o }) = p t) (rx : Option (Fin 64)) :
    p (parityRx s n rx) = p s := by
  cases rx with
  | none => rfl
  | some i =>
    have hdrop : p (bump (setFifo s n ((ctl s n).fifo.eraseIdx i.val)) Reg.FBCn_RXSTS_RXOVF n) = p s :=
      (hfield _ (by decide) _ _).trans <| (hfield _ (by decide) _ _).trans (hfifo s _ _)
    exact ite_keeps (ite_keeps ((hfield _ (by decide) _ _).trans hdrop) hdrop) rfl

theorem rd_parityRx {g : Field} {i : Nat} (h : ∀ f ∈ dropFields, g.id ≠ f.id) (hi : i < 8192) (rx : Option (Fin 64)) :
    rd (parityRx s n rx) g i = rd s g i :=
  parityRx_keeps (p := (rd · g i)) s n (fun f hf t v => rd_wr_of_id_ne (h f hf) (by omega) hi t v) (fun _ _ _ => rfl) rx

theorem ctl_parityRx {β : Type} {q : Ctl → β} (h : ∀ c l o, q { c with fifo := l, ovfSeen := o } = q c)
    (rx : Option (Fin 64)) : q (ctl (parityRx s n rx) n) = q (ctl s n) :=
  parityRx_keeps (p := fun t => q (ctl t n)) s n (fun _ _ _ _ => rfl)
    (fun t l o => (congrArg q (ctl_setCtl t n _)).trans (h _ l o)) rx

theorem parityRx_dropped {i : Fin 64} (h : i.val < (ctl s n).fifo.length) :
    (ctl (parityRx s n (some i)) n).fifo = (ctl s n).fifo.eraseIdx i.val ∧
      rd (parityRx s n (some i)) Reg.FBCn_RXSTS_RXOVF n =
        min (rd s Reg.FBCn_RXSTS_RXOVF n + 1) (2 ^ Reg.FBCn_RXSTS_RXOVF.width - 1) := by
  have hovf : rd (bump (setFifo s n ((ctl s n).fifo.eraseIdx i.val)) Reg.FBCn_RXSTS_RXOVF n) Reg.FBCn_RXSTS_RXOVF n =
      min (rd s Reg.FBCn_RXSTS_RXOVF n + 1) (2 ^ Reg.FBCn_RXSTS_RXOVF.width - 1) := by
    rw [bump_same]
    exact congrArg (fun v => min (v + 1) _) (rd_wr_ctl (by decide) _ _)
  simp only [parityRx, if_pos h]
  exact ⟨ite_keeps (p := fun t => (ctl t n).fifo) (congrArg Ctl.fifo (ctl_setCtl s n _))
      (congrArg Ctl.fifo (ctl_setCtl s n _)),
    ite_keeps (p := (rd · Reg.FBCn_RXSTS_RXOVF n)) ((rd_wr_ctl (by decide) _ _).trans hovf) hovf⟩

end

/-- The state after both. -/
def parityMet (s : State) (n : Fin 24) (tx : Option (Fin 3)) (rx : Option (Fin 64)) : State :=
  parityRx (parityTx s n tx) n rx

section

variable (s : State) (n : Fin 24) (tx : Option (Fin 3)) (rx : Option (Fin 64))

theorem parityTx_keeps {β : Type} {p : State → β} (h : CtlBlind endFields p) : p (parityTx s n tx) = p s := by
  cases tx with
  | none => rfl
  | some b => exact h.endTx s n b _ _

theorem parityMet_ssu : (parityMet s n tx rx).ssu = s.ssu :=
  (parityRx_keeps (p := State.ssu) _ n (fun _ _ _ _ => rfl) (fun _ _ _ => rfl) rx).trans (parityTx_ssu s n tx)

theorem parityMet_tb : (parityMet s n tx rx).tb = s.tb :=
  (parityRx_keeps (p := State.tb) _ n (fun _ _ _ _ => rfl) (fun _ _ _ => rfl) rx).trans
    (parityTx_keeps s n tx (ctlBlind_tb _))

theorem rd_parityMet {g : Field} (h : ∀ f ∈ recorderFields ++ endFields, g.id ≠ f.id) (hd : ∀ f ∈ dropFields, g.id ≠ f.id)
    (m : Fin 24) : rd (parityMet s n tx rx) g m = rd s g m :=
  (rd_parityRx _ n hd (by omega) rx).trans (parityTx_keeps s n tx (ctlBlind_rd h m))

theorem nothingWaits_parityMet (h : NothingWaits (ctl s n)) : NothingWaits (ctl (parityMet s n tx rx) n) := by
  have htx : NothingWaits (ctl (parityTx s n tx) n) := by
    cases tx with
    | none => exact h
    | some b => exact nothingWaits_endTx h b _ _
  exact ⟨(ctl_parityRx (q := Ctl.queue) _ n (fun _ _ _ => rfl) rx).trans htx.queue,
    (ctl_parityRx (q := Ctl.stopping) _ n (fun _ _ _ => rfl) rx).trans htx.stopping,
    (ctl_parityRx (q := Ctl.nextBus) _ n (fun _ _ _ => rfl) rx).trans htx.nextBus⟩

/-- The request hit has ended with PARITY. -/
theorem parityMet_request {b : Fin 3} {r : TxReq} (h : (ctl s n).tb[b] = some r) :
    (ctl (parityMet s n (some b) rx) n).tb[b] = none ∧
      rd (parityMet s n (some b) rx) (txFields b).1 n = CC.failTransientExhausted ∧
      rd (parityMet s n (some b) rx) (txFields b).2.1 n = Rsn.parity ∧
      rd (parityMet s n (some b) rx) (txFields b).2.2.1 n = 0 := by
  have hids : ∀ b : Fin 3, ∀ f ∈ dropFields, (txFields b).1.id ≠ f.id ∧ (txFields b).2.1.id ≠ f.id ∧
      (txFields b).2.2.1.id ≠ f.id := by decide
  obtain ⟨hcc, hrsn, hpend, -⟩ := endTx_reads h CC.failTransientExhausted Rsn.parity
  refine ⟨?_, (rd_parityRx _ n (fun f hf => (hids b f hf).1) (by omega) rx).trans hcc,
    (rd_parityRx _ n (fun f hf => (hids b f hf).2.1) (by omega) rx).trans hrsn,
    (rd_parityRx _ n (fun f hf => (hids b f hf).2.2) (by omega) rx).trans hpend⟩
  refine (ctl_parityRx (q := fun c : Ctl => c.tb[b]) _ n (fun _ _ _ => rfl) rx).trans ?_
  obtain ⟨x, hx⟩ := ctl_endTx s n b CC.failTransientExhausted Rsn.parity
  simp only [parityTx, hx, getElem_set_fin_self]

/-- The frame hit is dropped. -/
theorem parityMet_frame {i : Fin 64} (h : i.val < (ctl s n).fifo.length) :
    (ctl (parityMet s n tx (some i)) n).fifo = (ctl s n).fifo.eraseIdx i.val ∧
      rd (parityMet s n tx (some i)) Reg.FBCn_RXSTS_RXOVF n =
        min (rd s Reg.FBCn_RXSTS_RXOVF n + 1) (2 ^ Reg.FBCn_RXSTS_RXOVF.width - 1) := by
  have hfifo : (ctl (parityTx s n tx) n).fifo = (ctl s n).fifo := parityTx_keeps s n tx (ctlBlind_fifo _ n)
  have hovf : rd (parityTx s n tx) Reg.FBCn_RXSTS_RXOVF n = rd s Reg.FBCn_RXSTS_RXOVF n :=
    parityTx_keeps s n tx (ctlBlind_rd (by decide) n)
  obtain ⟨hdrop, hlost⟩ := parityRx_dropped (parityTx s n tx) n (i := i) (hfifo.symm ▸ h)
  rw [hfifo] at hdrop
  rw [hovf] at hlost
  exact ⟨hdrop, hlost⟩

end

/-! ### FBC_PARITY_ERROR -/

section

variable {s : State} {n : Fin 24} (hm : rd s Reg.FBCn_STATUS_MSTATE n = mstateCode .inService)
  (hruns : WindowRuns s ⟨.fieldbus, n.val⟩) (tx : Option (Fin 3)) (rx : Option (Fin 64))
include hm hruns

theorem exec_fbcParityError : exec (.fbcParityError n tx rx) s =
    .next (settle (showFbc (busSuspect (parityMet s n tx rx) n)) n) := by
  have hwindows := windowRuns_bus hruns (parityMet_ssu s n tx rx) (parityMet_tb s n tx rx)
    (rd_parityMet s n tx rx (by decide) (by decide) 0) (rd_parityMet s n tx rx (by decide) (by decide) 5)
  exact congrArg (fun r : State × Bool => Host.Outcome.next (if r.2 then r.1 else settle (showFbc r.1) n))
    (upset_bus hwindows ((rd_parityMet s n tx rx (by decide) (by decide) n).trans hm) _)

theorem fbcParityError_effect (hwaits : NothingWaits (ctl s n)) : Completes (exec (.fbcParityError n tx rx) s) fun t =>
    rd t Reg.FBCn_STATUS_MSTATE n = mstateCode .suspect ∧ rd t Reg.FBCn_STATUS_FCOUNT n = 1 ∧
    t.ssu.windows = s.ssu.windows ++ [⟨⟨.fieldbus, n.val⟩, .inService, s.tb.tick⟩] ∧
    (∀ b r, tx = some b → (ctl s n).tb[b] = some r → (ctl t n).tb[b] = none ∧
      rd t (txFields b).1 n = CC.failTransientExhausted ∧ rd t (txFields b).2.1 n = Rsn.parity ∧
      rd t (txFields b).2.2.1 n = 0) ∧
    (∀ i : Fin 64, rx = some i → i.val < (ctl s n).fifo.length → (ctl t n).fifo = (ctl s n).fifo.eraseIdx i.val ∧
      rd t Reg.FBCn_RXSTS_RXOVF n =
        min (rd s Reg.FBCn_RXSTS_RXOVF n + 1) (2 ^ Reg.FBCn_RXSTS_RXOVF.width - 1)) := by
  refine ⟨_, exec_fbcParityError hm hruns tx rx, ?_⟩
  have hctl : ctl (showFbc (busSuspect (parityMet s n tx rx) n)) n = ctl (parityMet s n tx rx) n :=
    ctl_of_fbc (showFbc_fbc _) n
  obtain ⟨x, hx⟩ := settle_idle_eq (s := showFbc (busSuspect (parityMet s n tx rx) n))
    (hctl ▸ nothingWaits_parityMet s n tx rx hwaits)
  obtain ⟨hstate, hcount, hrest⟩ := busSuspect_reads (parityMet s n tx rx) n
  have hshow {g : Field} (hg : ∀ f ∈ recorderFields ++ pairFields, g.id ≠ f.id) (u : State) :
      rd (showFbc u) g n = rd u g n := (ctlBlind_rd hg n).showFbc u
  have hkeep {g : Field} (hg : ∀ f ∈ recorderFields ++ pairFields ++ [Reg.FBCn_STATUS_MSTATE, Reg.FBCn_STATUS_FCOUNT],
      g.id ≠ f.id) : rd (showFbc (busSuspect (parityMet s n tx rx) n)) g n = rd (parityMet s n tx rx) g n :=
    (hshow (fun f hf => hg f (List.mem_append_left _ hf)) _).trans (hrest g (hg _ (by simp)) (hg _ (by simp)))
  simp only [hx, rd_setCtl, ctl_setCtl, hctl]
  refine ⟨(hshow (by decide) _).trans hstate, (hshow (by decide) _).trans hcount, ?_, ?_, ?_⟩
  · rw [setCtl_ssu, showFbc_ssu]
    simp [busSuspect, parityMet_ssu, parityMet_tb]
  · rintro b r rfl hr
    have hids : ∀ b : Fin 3, ∀ f ∈ recorderFields ++ pairFields ++ [Reg.FBCn_STATUS_MSTATE, Reg.FBCn_STATUS_FCOUNT],
        (txFields b).1.id ≠ f.id ∧ (txFields b).2.1.id ≠ f.id ∧ (txFields b).2.2.1.id ≠ f.id := by decide
    rw [hkeep fun f hf => (hids b f hf).1, hkeep fun f hf => (hids b f hf).2.1, hkeep fun f hf => (hids b f hf).2.2]
    exact parityMet_request s n rx hr
  · rintro i rfl hi
    rw [hkeep (by decide)]
    exact parityMet_frame s n tx hi

end

/-- Settles O43: a frame by the filter that takes it, an error by its kind, the head of the FIFO by its first and last word,
and a parity error as the first upset of the controller. -/
theorem busReception : Obligations.BusReception := by
  rintro s n c rfl
  refine ⟨fun hruns => ⟨fun f esi sof valid hrec => ⟨frameRx_unmatched hruns hrec esi valid,
      fun i flt => frameRx_host hruns hrec esi valid, fun i flt d l => frameRx_segment hruns hrec esi valid⟩,
      receiveError_effect hruns⟩, rxwin_empty,
    fun f l h => ⟨rxwinHeadRead_effect h, rxwinLastRead_effect h, rxDiscard_effect h⟩,
    fun hm hruns hqueue hstop hbus tx rx => fbcParityError_effect hm hruns tx rx ⟨hqueue, hstop, hbus⟩⟩

end Sys2Proof.Machine
end

section
/-! SUPPORT. Requests of the host and attempts on the wire (R231 to R235, R243): what loading, cancelling and completing a
request leave, and which buffer the controller chooses. -/

namespace Sys2Proof.Machine

/-! ### Requests (R231, R243) -/

/-- A request loaded, with the choice it leads to. -/
theorem loadTb_eq_setCtl (s : State) (n : Fin 24) (b : Fin 3) (r : TxReq) : ∃ x, loadTb s n b r =
    setCtl (wr (wr s (txFields b).2.2.1 1 n) (txFields b).2.2.2.1 0 n) n
      { ctl s n with tb := (ctl s n).tb.set b (some r), sel := x } := by
  rw [loadTb_eq]
  dsimp only
  split
  · exact ⟨_, by rw [choose, setCtl_setCtl, ctl_setCtl]⟩
  · exact ⟨_, rfl⟩

section

variable {s : State} {n : Fin 24} {b : BusRec} (hbus : (ctl s n).bus = some b) (hen : b.en = true)
  (hhost : b.tb2Host = true) (hm : modeIs s ≠ .test)
include hbus hen hhost hm

theorem txRequest_busy (hload : ((ctl s n).tb[2]).isSome = true) : Completes (exec (.txRequest n) s) fun t =>
    rd t Reg.FBCn_TXSTS2_CC n = CC.failRefused ∧ rd t Reg.FBCn_TXSTS2_RSN n = Rsn.busy ∧ t.fbc = s.fbc := by
  have hrefuse : txRequest s n = txRefuse s n CC.failRefused Rsn.busy := by
    have hload' : ((ctl s n).tb[(2 : Fin 3)]).isSome = true := hload
    simp only [txRequest, if_neg hm, hbus, hen, hhost, hload', Bool.not_true, Bool.or_false, Bool.false_eq_true, if_false,
      if_true]
  obtain ⟨hcc, hrsn, -⟩ := wr_pair (cc := Reg.FBCn_TXSTS2_CC) (rsn := Reg.FBCn_TXSTS2_RSN) (i := n)
    (key_ne_of_id (by decide) (by omega) (by omega)) s CC.failRefused Rsn.busy
  exact ⟨_, congrArg Host.Outcome.next hrefuse, hcc, hrsn, rfl⟩

/-- Nothing stands against a request of the host: TB2 is free, the frame fits its format and its bus, and the controller
sends. -/
structure Requestable (s : State) (n : Fin 24) (b : BusRec) : Prop where
  free : (ctl s n).tb[(2 : Fin 3)] = none
  dlc : (hostFrame (ctl s n)).fdf = true ∨ (hostFrame (ctl s n)).dlc.toNat ≤ 8
  remote : ¬((hostFrame (ctl s n)).rtr = true ∧ (hostFrame (ctl s n)).fdf = true)
  brs : bitsOf (txWord (ctl s n) 1) 4 1 = 1 → b.brs = true
  classic : (hostFrame (ctl s n)).fdf = true → busClassic s n = false
  alive : resState s ⟨.fieldbus, n.val⟩ ≠ .retired
  stopped : (ctl s n).stopped = false
  stopping : (ctl s n).stopping = false
  busOn : rdB s Reg.FBCn_STATUS_BUSOFF n = false

theorem txRequest_accepted (h : Requestable s n b) :
    txRequest s n = loadTb s n 2 ⟨hostFrame (ctl s n), true, none, none, 0, 0, false, false⟩ := by
  have hgood : ((!(hostFrame (ctl s n)).fdf && decide (8 < (hostFrame (ctl s n)).dlc.toNat)) ||
      ((hostFrame (ctl s n)).rtr && (hostFrame (ctl s n)).fdf) ||
      (decide (bitsOf (txWord (ctl s n) 1) 4 1 = 1) && !b.brs)) = false := by
    simp only [Bool.or_eq_false_iff, Bool.and_eq_false_iff, Bool.not_eq_false', decide_eq_false_iff_not, not_lt]
    refine ⟨⟨h.dlc, by simpa [← Bool.and_eq_false_iff] using h.remote⟩, ?_⟩
    by_cases hb : bitsOf (txWord (ctl s n) 1) 4 1 = 1
    · exact .inr (h.brs hb)
    · exact .inl hb
  have hfd : ¬(busClassic s n = true ∧ (hostFrame (ctl s n)).fdf = true) := fun ⟨hc, hf⟩ => by
    simp [h.classic hf] at hc
  simp only [txRequest, if_neg hm, hbus, hen, hhost, h.free, hgood, if_neg hfd, if_neg h.alive, h.stopped, h.stopping, h.busOn,
    Option.isSome_none, Bool.not_true, Bool.or_false, Bool.false_eq_true, if_false]

theorem txRequest_loads (h : Requestable s n b) : Completes (exec (.txRequest n) s) fun t =>
    rd t Reg.FBCn_TXSTS2_PEND n = 1 ∧ rd t Reg.FBCn_TXSTS2_RETRIES n = 0 ∧
    (ctl t n).tb = (ctl s n).tb.set 2 (some ⟨hostFrame (ctl s n), true, none, none, 0, 0, false, false⟩) ∧
    t.out = s.out := by
  obtain ⟨x, hx⟩ := loadTb_eq_setCtl s n 2 ⟨hostFrame (ctl s n), true, none, none, 0, 0, false, false⟩
  refine ⟨_, congrArg Host.Outcome.next ((txRequest_accepted hbus hen hhost hm h).trans hx), ?_, ?_,
    congrArg Ctl.tb (ctl_setCtl _ _ _), rfl⟩
  · exact (rd_wr_ctl (f := Reg.FBCn_TXSTS2_RETRIES) (n := n) (by decide) _ 0).trans (rd_wr_same s Reg.FBCn_TXSTS2_PEND n 1)
  · exact rd_wr_same _ Reg.FBCn_TXSTS2_RETRIES n 0

end

/-! ### Cancels (R233) -/

theorem txCancelEnd_reads (s : State) (n : Fin 24) (code rsn : Nat) :
    rd (txCancelEnd s n code rsn) Reg.FBCn_TXCMD_CANCC n = code % 256 ∧
      rd (txCancelEnd s n code rsn) Reg.FBCn_TXCMD_CANRSN n = rsn % 256 ∧
      ∀ g : Field, g.id ≠ Reg.FBCn_TXCMD_CANCC.id → g.id ≠ Reg.FBCn_TXCMD_CANRSN.id →
        rd (txCancelEnd s n code rsn) g n = rd s g n :=
  ⟨(rd_wr_ctl (by decide) _ _).trans (rd_wr_same _ _ _ _), rd_wr_same _ _ _ _,
    fun _ hcc hrsn => (rd_wr_ctl hrsn _ _).trans (rd_wr_ctl hcc _ _)⟩

theorem tb_endTx (s : State) (n : Fin 24) (b j : Fin 3) (code rsn : Nat) :
    (ctl (endTx s n b code rsn) n).tb[j] = if b = j then none else (ctl s n).tb[j] := by
  obtain ⟨x, hx⟩ := ctl_endTx s n b code rsn
  rw [hx]
  exact getElem_set_fin _ _ _ _

section

variable {s : State} {n : Fin 24} (hm : modeIs s ≠ .test) (p : CancelAt)
include hm

theorem txCancel_of_free (h : (ctl s n).tb[2] = none) : Completes (exec (.txCancel n p) s) fun t =>
    rd t Reg.FBCn_TXCMD_CANCC n = CC.failRefused ∧ rd t Reg.FBCn_TXCMD_CANRSN n = Rsn.noFrame ∧ t.fbc = s.fbc := by
  have h' : (ctl s n).tb[(2 : Fin 3)] = none := h
  have hend : txCancel s n p = txCancelEnd s n CC.failRefused Rsn.noFrame := by
    simp only [txCancel, if_neg hm, h']
  obtain ⟨hcc, hrsn, -⟩ := txCancelEnd_reads s n CC.failRefused Rsn.noFrame
  exact ⟨_, congrArg Host.Outcome.next hend, hcc, hrsn, rfl⟩

variable {r : TxReq} (hr : (ctl s n).tb[2] = some r) (hhost : r.host = true)
include hr hhost

theorem txCancel_before (hwaits : NothingWaits (ctl s n)) (hp : p ≠ .afterCommit ∨ (ctl s n).sel ≠ some 2) :
    Completes (exec (.txCancel n p) s) fun t =>
      rd t Reg.FBCn_TXCMD_CANCC n = CC.done ∧ rd t Reg.FBCn_TXSTS2_CC n = CC.failCancelled ∧
      rd t Reg.FBCn_TXSTS2_PEND n = 0 ∧ (ctl t n).tb = (ctl s n).tb.set 2 none := by
  have hr' : (ctl s n).tb[(2 : Fin 3)] = some r := hr
  have hend : txCancel s n p = settle (txCancelEnd (endTx s n 2 CC.failCancelled 0) n CC.done 0) n := by
    have hp' : ¬(p = .afterCommit ∧ (ctl s n).sel = some 2) := by tauto
    simp only [txCancel, if_neg hm, hr', hhost, if_neg hp', Bool.not_true, Bool.false_eq_true, if_false]
  obtain ⟨x, hx⟩ := settle_idle_eq (s := txCancelEnd (endTx s n 2 CC.failCancelled 0) n CC.done 0)
    (nothingWaits_endTx hwaits _ _ _)
  obtain ⟨y, hy⟩ := ctl_endTx s n 2 CC.failCancelled 0
  obtain ⟨hcc, -, hpend, -⟩ := endTx_reads hr' CC.failCancelled 0
  obtain ⟨hcan, -, hrest⟩ := txCancelEnd_reads (endTx s n 2 CC.failCancelled 0) n CC.done 0
  exact ⟨_, congrArg Host.Outcome.next (hend.trans hx), hcan, (hrest _ (by decide) (by decide)).trans hcc,
    (hrest _ (by decide) (by decide)).trans hpend, (congrArg Ctl.tb (ctl_setCtl _ _ _)).trans (congrArg Ctl.tb hy)⟩

theorem txCancel_after (hp : p = .afterCommit) (hsel : (ctl s n).sel = some 2) : exec (.txCancel n p) s =
    .next (setCtl s n { ctl s n with tb := (ctl s n).tb.set 2 (some { r with cancel := true }) }) := by
  have hr' : (ctl s n).tb[(2 : Fin 3)] = some r := hr
  refine congrArg Host.Outcome.next ?_
  simp only [txCancel, if_neg hm, hr', hhost, hp, hsel, and_self, Bool.not_true, Bool.false_eq_true, if_false, if_true]
  rfl

end

/-! ### A frame that completes (R232, R233) -/

theorem txStamp_width (b : Fin 3) : (txFields b).2.2.2.2.width = 32 := by
  revert b
  decide

/-- The state in which the frame of a buffer is out, stamped, and counted in TEC (Table 10.4). -/
def frameSent (s : State) (n : Fin 24) (b : Fin 3) (r : TxReq) (sof : Nat) : State :=
  let t := wr (emit s (.canFrame n r.frame (r.frame.fdf && rdB s Reg.FBCn_STATUS_EPASS n))) (txFields b).2.2.2.2
    (sof / 10 % 2 ^ 32) n
  setEpass (wr t Reg.FBCn_ERR_TEC (rd t Reg.FBCn_ERR_TEC n - 1) n) n

/-- The state in which a request that has been sent has ended (R233). -/
def txReported (s : State) (n : Fin 24) (b : Fin 3) (r : TxReq) : State :=
  let late := r.host && r.cancel
  let t := endTx s n b (if r.errors = 0 then CC.done else CC.doneAfterRetry) (if late then Rsn.cancelTooLate else 0)
  if late then txCancelEnd t n CC.failRefused Rsn.cancelTooLate else t

section

variable {s : State} {n : Fin 24} {b : Fin 3} {r : TxReq}

theorem frameSent_reads (s : State) (n : Fin 24) (b : Fin 3) (r : TxReq) (sof : Nat) :
    rd (frameSent s n b r sof) (txFields b).2.2.2.2 n = sof / 10 % 2 ^ 32 ∧
      rd (frameSent s n b r sof) Reg.FBCn_ERR_TEC n = (rd s Reg.FBCn_ERR_TEC n - 1) % 2 ^ 9 := by
  have hids : ∀ b : Fin 3, (txFields b).2.2.2.2.id ≠ Reg.FBCn_ERR_TEC.id ∧
      (txFields b).2.2.2.2.id ≠ Reg.FBCn_STATUS_EPASS.id := by decide
  obtain ⟨htec, hep⟩ := hids b
  constructor
  · refine (rd_setEpass hep _ _).trans <| (rd_wr_ctl htec _ _).trans <| (rd_wr_same _ _ _ _).trans ?_
    rw [txStamp_width, Nat.mod_mod]
  · refine (rd_setEpass (by decide) _ _).trans <| (rd_wr_same _ _ _ _).trans ?_
    rw [rd_wr_ctl htec.symm]
    rfl

theorem endTx_out (s : State) (n : Fin 24) (b : Fin 3) (code rsn : Nat) : (endTx s n b code rsn).out = s.out := by
  cases h : (ctl s n).tb[b] with
  | none => rw [endTx_of_none h]
  | some r =>
    rw [endTx_of_some h]
    rfl

/-- The report of a request changes what its end does, and the status of a cancel that came too late. -/
theorem txReported_keeps {β : Type} {p : State → β} {x : β} {s : State}
    (hend : ∀ code rsn, p (endTx s n b code rsn) = x) (hcancel : ∀ t code rsn, p (txCancelEnd t n code rsn) = p t) :
    p (txReported s n b r) = x :=
  ite_keeps ((hcancel _ _ _).trans (hend _ _)) (hend _ _)

theorem ctl_txReported (s : State) (n : Fin 24) (b : Fin 3) (r : TxReq) : ∃ x, ctl (txReported s n b r) n =
    { ctl s n with tb := (ctl s n).tb.set b none, sel := x } := by
  have hctl : ctl (txReported s n b r) n = ctl (endTx s n b (if r.errors = 0 then CC.done else CC.doneAfterRetry)
      (if r.host && r.cancel then Rsn.cancelTooLate else 0)) n := ite_keeps (p := (ctl · n)) rfl rfl
  rw [hctl]
  exact ctl_endTx _ _ _ _ _

theorem txReported_reads (hr : (ctl s n).tb[b] = some r) :
    rd (txReported s n b r) (txFields b).1 n = (if r.errors = 0 then CC.done else CC.doneAfterRetry) ∧
      rd (txReported s n b r) (txFields b).2.1 n = (if r.host && r.cancel then Rsn.cancelTooLate else 0) ∧
      rd (txReported s n b r) (txFields b).2.2.1 n = 0 := by
  obtain ⟨hcc, hrsn, hpend, -⟩ := endTx_reads hr (if r.errors = 0 then CC.done else CC.doneAfterRetry)
    (if r.host && r.cancel then Rsn.cancelTooLate else 0)
  have hids : ∀ b : Fin 3, ∀ g ∈ [(txFields b).1, (txFields b).2.1, (txFields b).2.2.1],
      g.id ≠ Reg.FBCn_TXCMD_CANCC.id ∧ g.id ≠ Reg.FBCn_TXCMD_CANRSN.id := by decide
  have hkeep {g : Field} (hg : g ∈ [(txFields b).1, (txFields b).2.1, (txFields b).2.2.1]) :
      rd (txReported s n b r) g n = rd (endTx s n b (if r.errors = 0 then CC.done else CC.doneAfterRetry)
        (if r.host && r.cancel then Rsn.cancelTooLate else 0)) g n :=
    ite_keeps (p := (rd · g n)) ((txCancelEnd_reads _ _ _ _).2.2 g (hids b g hg).1 (hids b g hg).2) rfl
  refine ⟨(hkeep (by simp)).trans (hcc.trans ?_), (hkeep (by simp)).trans (hrsn.trans ?_), (hkeep (by simp)).trans hpend⟩
  · split <;> rfl
  · split <;> rfl

theorem txComplete_eq (hr : (ctl s n).tb[b] = some r) (hsel : (ctl s n).sel = some b) (sof : Nat) :
    txComplete s n b sof = settle (txReported (frameSent s n b r sof) n b r) n := by
  simp only [txComplete, hr]
  exact if_neg (not_not.2 hsel)

theorem frameTxComplete_effect (hwaits : NothingWaits (ctl s n)) (hr : (ctl s n).tb[b] = some r)
    (hsel : (ctl s n).sel = some b) (sof : Nat) : Completes (exec (.frameTxComplete n b sof) s) fun t =>
      t.out = s.out ++ [.canFrame n r.frame (r.frame.fdf && rdB s Reg.FBCn_STATUS_EPASS n)] ∧
      rd t (txFields b).2.2.2.2 n = sof / 10 % 2 ^ 32 ∧
      rd t (txFields b).1 n = (if r.errors = 0 then CC.done else CC.doneAfterRetry) ∧
      rd t (txFields b).2.1 n = (if r.host && r.cancel then Rsn.cancelTooLate else 0) ∧
      rd t (txFields b).2.2.1 n = 0 ∧ rd t Reg.FBCn_ERR_TEC n = (rd s Reg.FBCn_ERR_TEC n - 1) % 2 ^ 9 ∧
      (ctl t n).tb = (ctl s n).tb.set b none := by
  obtain ⟨y, hy⟩ := ctl_txReported (frameSent s n b r sof) n b r
  obtain ⟨x, hx⟩ := settle_idle_eq (s := txReported (frameSent s n b r sof) n b r) (n := n)
    (hy ▸ ⟨hwaits.queue, hwaits.stopping, hwaits.nextBus⟩)
  obtain ⟨hstamp, htec⟩ := frameSent_reads s n b r sof
  obtain ⟨hcc, hrsn, hpend⟩ := txReported_reads (s := frameSent s n b r sof) hr
  have hids : ∀ b : Fin 3, ∀ g ∈ [(txFields b).2.2.2.2, Reg.FBCn_ERR_TEC],
      (∀ f ∈ recorderFields ++ endFields, g.id ≠ f.id) ∧ g.id ≠ Reg.FBCn_TXCMD_CANCC.id ∧
        g.id ≠ Reg.FBCn_TXCMD_CANRSN.id := by decide
  have hkeep {g : Field} (hg : g ∈ [(txFields b).2.2.2.2, Reg.FBCn_ERR_TEC]) (u : State) :
      rd (txReported u n b r) g n = rd u g n := by
    obtain ⟨hend, hcc, hrsn⟩ := hids b g hg
    exact txReported_keeps (p := (rd · g n)) (fun _ _ => (ctlBlind_rd hend n).endTx _ _ _ _ _)
      fun t code rsn => (txCancelEnd_reads t n code rsn).2.2 g hcc hrsn
  refine ⟨_, congrArg Host.Outcome.next ((txComplete_eq hr hsel sof).trans hx), ?_, (hkeep (by simp) _).trans hstamp, hcc,
    hrsn, hpend, (hkeep (by simp) _).trans htec, (congrArg Ctl.tb (ctl_setCtl _ _ _)).trans (congrArg Ctl.tb hy)⟩
  exact txReported_keeps (p := State.out) (fun _ _ => endTx_out _ _ _ _ _) fun _ _ _ => rfl

end

/-! ### The choice of the next frame (R231) -/

/-- One step of the choice. -/
def txPick (c : Ctl) (classic : Bool) (best : Option (Fin 3)) (b : Fin 3) : Option (Fin 3) :=
  match c.tb[b].filter fun r => !(classic && r.frame.fdf) with
  | none => best
  | some r => match best with
    | none => some b
    | some o => match c.tb[o] with
      | some q => if orderById c && decide (arbKey r.frame < arbKey q.frame) then some b else best
      | none => some b

theorem txChoice_eq_foldl (c : Ctl) (classic : Bool) :
    txChoice c classic = (List.finRange 3).foldl (txPick c classic) none := rfl

/-- A loaded buffer whose frame the bus takes. -/
def Sendable (c : Ctl) (classic : Bool) (b : Fin 3) : Prop := ∃ r, c.tb[b] = some r ∧ (classic = true → r.frame.fdf = false)

/-- The place of a loaded buffer in the order of sending: lower first. -/
def txPlace (c : Ctl) (b : Fin 3) : Nat :=
  match c.tb[b] with
  | some r => if orderById c then arbKey r.frame else b.val
  | none => 0

section

variable {c : Ctl} {classic : Bool}

theorem filter_of_fits {b : Fin 3} {r : TxReq} (hr : c.tb[b] = some r) (hs : classic = true → r.frame.fdf = false) :
    c.tb[b].filter (fun r => !(classic && r.frame.fdf)) = some r := by
  rw [hr]
  cases classic <;> simp [hs]

theorem txPick_unsendable {b : Fin 3} (h : ¬Sendable c classic b) (best : Option (Fin 3)) :
    txPick c classic best b = best := by
  have hnone : c.tb[b].filter (fun r => !(classic && r.frame.fdf)) = none :=
    Option.filter_eq_none_iff.2 fun r hr hs => h ⟨r, hr, fun hc => by simpa [hc] using hs⟩
  simp only [txPick, hnone]

theorem txPick_first {b : Fin 3} (h : Sendable c classic b) : txPick c classic none b = some b := by
  obtain ⟨r, hr, hs⟩ := h
  simp only [txPick, filter_of_fits hr hs]

/-- A buffer after the chosen one takes its place when it goes before it. -/
theorem txPick_next {b o : Fin 3} (h : Sendable c classic b) (ho : Sendable c classic o) (hlt : o < b) :
    txPick c classic (some o) b = if txPlace c b < txPlace c o then some b else some o := by
  obtain ⟨r, hr, hs⟩ := h
  obtain ⟨q, hq, -⟩ := ho
  simp only [txPick, filter_of_fits hr hs, hq]
  cases hid : orderById c with
  | true => simp [txPlace, hr, hq, hid]
  | false => simp [txPlace, hr, hq, hid, Nat.not_lt.2 (Fin.le_def.1 hlt.le)]

/-- A step takes the earlier chosen buffer or the next, whichever goes first. -/
theorem txPick_spec {best : Option (Fin 3)} {b : Fin 3} (hbest : ∀ o, best = some o → Sendable c classic o ∧ o < b) :
    (txPick c classic best b = none → best = none ∧ ¬Sendable c classic b) ∧
      (∀ j, txPick c classic best b = some j → Sendable c classic j ∧ (best = some j ∨ j = b)) ∧
      ∀ k, best = some k ∨ k = b ∧ Sendable c classic b →
        ∃ j, txPick c classic best b = some j ∧ txPlace c j ≤ txPlace c k := by
  by_cases hs : Sendable c classic b
  · cases best with
    | none =>
      rw [txPick_first hs]
      refine ⟨by simp, fun j hj => ?_, fun k hk => ⟨b, rfl, ?_⟩⟩
      · cases hj
        exact ⟨hs, .inr rfl⟩
      · rcases hk with hk | ⟨rfl, -⟩
        · cases hk
        · exact le_rfl
    | some o =>
      obtain ⟨ho, hlt⟩ := hbest o rfl
      rw [txPick_next hs ho hlt]
      split
      case isTrue hfirst =>
        refine ⟨by simp, fun j hj => ?_, fun k hk => ⟨b, rfl, ?_⟩⟩
        · cases hj
          exact ⟨hs, .inr rfl⟩
        · rcases hk with hk | ⟨rfl, -⟩
          · cases hk
            exact hfirst.le
          · exact le_rfl
      case isFalse hlast =>
        refine ⟨by simp, fun j hj => ?_, fun k hk => ⟨o, rfl, ?_⟩⟩
        · cases hj
          exact ⟨ho, .inl rfl⟩
        · rcases hk with hk | ⟨rfl, -⟩
          · cases hk
            exact le_rfl
          · exact not_lt.1 hlast
  · rw [txPick_unsendable hs]
    refine ⟨fun h => ⟨h, hs⟩, fun j hj => ⟨(hbest j hj).1, .inl hj⟩, fun k hk => ?_⟩
    rcases hk with hk | ⟨-, hk⟩
    · exact ⟨k, hk, le_rfl⟩
    · exact absurd hk hs

/-- The choice among a list of buffers that rises, and one chosen before them. -/
theorem foldl_txPick {l : List (Fin 3)} (hl : l.Pairwise (· < ·)) {best : Option (Fin 3)}
    (hbest : ∀ o, best = some o → Sendable c classic o ∧ ∀ k ∈ l, o < k) :
    (l.foldl (txPick c classic) best = none → best = none ∧ ∀ k ∈ l, ¬Sendable c classic k) ∧
      ∀ j, l.foldl (txPick c classic) best = some j → Sendable c classic j ∧
        ∀ k, best = some k ∨ k ∈ l ∧ Sendable c classic k → txPlace c j ≤ txPlace c k := by
  induction l generalizing best with
  | nil => exact ⟨fun h => ⟨h, by simp⟩, fun j hj => ⟨(hbest j hj).1, fun k hk => by simp_all⟩⟩
  | cons b l ih =>
    obtain ⟨hb, hl⟩ := List.pairwise_cons.1 hl
    obtain ⟨hnone, hsome, hmin⟩ := txPick_spec fun o ho => ⟨(hbest o ho).1, (hbest o ho).2 b (by simp)⟩
    obtain ⟨ihnone, ihsome⟩ := ih hl fun j hj => ⟨(hsome j hj).1, fun k hk => (hsome j hj).2.elim
      (fun h => (hbest j h).2 k (List.mem_cons_of_mem _ hk)) fun h => h ▸ hb k hk⟩
    refine ⟨fun h => ?_, fun j hj => ⟨(ihsome j hj).1, fun k hk => ?_⟩⟩
    · obtain ⟨hpick, hrest⟩ := ihnone h
      obtain ⟨hfree, hs⟩ := hnone hpick
      exact ⟨hfree, List.forall_mem_cons.2 ⟨hs, hrest⟩⟩
    · have hsooner : best = some k ∨ k = b ∧ Sendable c classic b → txPlace c j ≤ txPlace c k := fun hk => by
        obtain ⟨i, hi, hle⟩ := hmin k hk
        exact ((ihsome j hj).2 i (.inl hi)).trans hle
      rcases hk with hk | ⟨hk, hs⟩
      · exact hsooner (.inl hk)
      · rcases List.mem_cons.1 hk with rfl | hk
        · exact hsooner (.inr ⟨rfl, hs⟩)
        · exact (ihsome j hj).2 k (.inr ⟨hk, hs⟩)

theorem txChoice_none (h : txChoice c classic = none) (b : Fin 3) : ¬Sendable c classic b :=
  ((foldl_txPick (List.pairwise_lt_finRange 3) (by simp)).1 ((txChoice_eq_foldl c classic).symm.trans h)).2 b
    (List.mem_finRange b)

theorem txChoice_some {j : Fin 3} (h : txChoice c classic = some j) : Sendable c classic j ∧
    ∀ k, Sendable c classic k → txPlace c j ≤ txPlace c k := by
  obtain ⟨hs, hmin⟩ := (foldl_txPick (List.pairwise_lt_finRange 3) (by simp)).2 j
    ((txChoice_eq_foldl c classic).symm.trans h)
  exact ⟨hs, fun k hk => hmin k (.inr ⟨List.mem_finRange k, hk⟩)⟩

end

/-! ### A lost arbitration (R231, R232, R234) -/

section

variable {s : State} {n : Fin 24}

theorem exec_arbitrationLoss {b : Fin 3} (hwaits : NothingWaits (ctl s n)) (hsel : (ctl s n).sel = some b)
    (hruns : busRuns s n = true) : exec (.arbitrationLoss n b) s =
      .next (setCtl s n { ctl s n with sel := txChoice (ctl s n) (busClassic s n) }) := by
  have hfree := ctl_freeWire s n
  have hruns' : busRuns (freeWire s n) n = true := by
    rw [← hruns, busRuns, busRuns, hfree]
    rfl
  refine congrArg Host.Outcome.next ((if_pos hsel).trans ?_)
  rw [settle_idle (hfree ▸ ⟨hwaits.queue, hwaits.stopping, hwaits.nextBus⟩), hfree]
  simp only [Option.isSome_none, Bool.false_eq_true, if_false, choose, hruns', if_true, hfree]
  exact setCtl_setCtl _ _ _ _

theorem arbitrationLoss_effect {b : Fin 3} {br : BusRec} (hwaits : NothingWaits (ctl s n))
    (hsel : (ctl s n).sel = some b) (hbus : (ctl s n).bus = some br) (hruns : busRuns s n = true) :
    Completes (exec (.arbitrationLoss n b) s) fun t =>
      { t with fbc := s.fbc } = s ∧ t.fbc = s.fbc.set n { ctl s n with sel := (ctl t n).sel } ∧
      ((ctl t n).sel = none → ∀ (j : Fin 3) (r : TxReq), (ctl s n).tb[j] = some r →
        busClassic s n = true ∧ r.frame.fdf = true) ∧
      ∀ (j k : Fin 3) (r : TxReq), (ctl t n).sel = some j → (ctl s n).tb[k] = some r →
        (busClassic s n = true → r.frame.fdf = false) →
        ∃ q, (ctl s n).tb[j] = some q ∧ (if br.txOrder then j.val ≤ k.val else arbKey q.frame ≤ arbKey r.frame) := by
  refine ⟨_, exec_arbitrationLoss hwaits hsel hruns, rfl, ?_, ?_⟩
  · rw [ctl_setCtl]
    rfl
  rw [ctl_setCtl]
  refine ⟨fun hnone j r hr => ?_, fun j k r hj hk hclassic => ?_⟩
  · by_contra hfits
    exact txChoice_none hnone j ⟨r, hr, fun hc => by simpa [hc] using hfits⟩
  · obtain ⟨⟨q, hq, -⟩, hmin⟩ := txChoice_some hj
    have hplace := hmin k ⟨r, hk, hclassic⟩
    have hid : orderById (ctl s n) = !br.txOrder := by simp only [orderById, hbus]
    refine ⟨q, hq, ?_⟩
    cases horder : br.txOrder <;> simpa [txPlace, hq, hk, hid, horder] using hplace

end

end Sys2Proof.Machine
end

section
/-! SUPPORT. Attempts that end in an error (R227, R232 to R235): the count of the attempt, the error registers, a cancel that
takes effect, and bus-off. -/

namespace Sys2Proof.Machine

/-! ### The stages of TX_ERROR -/

/-- A request after an attempt that ended in an error. -/
def failedAttempt (c : Ctl) (r : TxReq) (e : CanErr) (dc : Bool) : TxReq :=
  { r with
    errors := r.errors + 1
    clash := clashCount r e dc
    clashRec := r.clashRec || (!r.clashRec && decide (clashCount r e dc = clashN c)) }

/-- The attempt is counted, and a clash that reaches CLASHN recorded (R234). -/
def attemptCounted (s : State) (n : Fin 24) (b : Fin 3) (r : TxReq) (e : CanErr) (dc : Bool) : State :=
  let t := wr (setCtl s n { ctl s n with tb := (ctl s n).tb.set b (some (failedAttempt (ctl s n) r e dc)) })
    (txFields b).2.2.2.1 (min (r.errors + 1) 127) n
  if !r.clashRec && decide (clashCount r e dc = clashN (ctl s n)) then
    event (bump t Reg.FBCn_ERR_CLASH n) Ev.idclash .warning [n.val, r.frame.id.toNat, b.val]
  else t

/-- The error registers after an error that adds `add` to TEC. -/
def errorShown (s : State) (n : Fin 24) (e : CanErr) (dp : Bool) (add : Nat) : State :=
  setEpass (wr (setLec s n e dp) Reg.FBCn_ERR_TEC (min 256 (rd s Reg.FBCn_ERR_TEC n + add)) n) n

/-- A pending cancel takes effect, an expiry only while the controller stays on (Table 10.5). -/
def cancelTaken (s : State) (n : Fin 24) (b : Fin 3) (r : TxReq) (off : Bool) : State :=
  if r.cancel && !(off && !r.host) then
    if r.host then txCancelEnd (endTx s n b CC.failCancelled 0) n CC.done 0
    else bump (endTx s n b CC.failBudget Rsn.expired) Reg.FBCn_QSTS_EXPIRED n
  else s

/-- The wire after an error: bus-off, or free. -/
def wireFailed (s : State) (n : Fin 24) (off : Bool) : State := if off then goBusOff s n else freeWire s n

section

variable {s : State} {n : Fin 24} {b : Fin 3} {r : TxReq}

theorem txError_eq (hr : (ctl s n).tb[b] = some r) (hsel : (ctl s n).sel = some b) (e : CanErr) (dp dc : Bool) :
    txError s n b e dp dc =
      let step := tecStep (attemptCounted s n b r e dc) n e dp dc
      let off := decide (255 < min 256 (rd step.2 Reg.FBCn_ERR_TEC n + step.1))
      settle (wireFailed (cancelTaken (errorShown step.2 n e dp step.1) n b r off) n off) n := by
  simp only [txError, hr]
  refine (if_neg (not_not.2 hsel)).trans ?_
  rfl

end

/-! ### What each stage leaves -/

/-- What an error adds to TEC (R227): 8, and by a free value perhaps nothing where no command tells (log entry 29). -/
theorem tecStep_spec (s : State) (n : Fin 24) (e : CanErr) (dp dc : Bool) :
    (if e = .stuff ∧ dp = false ∧ dc = false ∨ e = .ack ∧ rdB s Reg.FBCn_STATUS_EPASS n = true then
      (tecStep s n e dp dc).1 = 0 ∨ (tecStep s n e dp dc).1 = 8 else (tecStep s n e dp dc).1 = 8) ∧
    ∃ k, (tecStep s n e dp dc).2 = { s with free := k } := by
  have hcond : (e = .stuff && !dp && !dc || e = .ack && rdB s Reg.FBCn_STATUS_EPASS n) = true ↔
      e = .stuff ∧ dp = false ∧ dc = false ∨ e = .ack ∧ rdB s Reg.FBCn_STATUS_EPASS n = true := by
    simp [and_assoc]
  simp only [tecStep, hcond]
  split
  · exact ⟨by split <;> simp, _, rfl⟩
  · exact ⟨rfl, _, rfl⟩

section

variable (s : State) (n : Fin 24) (b : Fin 3) (r : TxReq) (e : CanErr) (dp dc : Bool)

theorem ctl_attemptCounted : ctl (attemptCounted s n b r e dc) n =
    { ctl s n with tb := (ctl s n).tb.set b (some (failedAttempt (ctl s n) r e dc)) } :=
  ite_keeps (p := (ctl · n)) ((ctl_event _ _ _ _ _).trans (ctl_setCtl s n _)) (ctl_setCtl s n _)

theorem rd_attemptCounted {g : Field} (h : ∀ f ∈ recorderFields ++ [Reg.FBCn_ERR_CLASH], g.id ≠ f.id) :
    rd (attemptCounted s n b r e dc) g n = rd (wr s (txFields b).2.2.2.1 (min (r.errors + 1) 127) n) g n :=
  ite_keeps (p := (rd · g n)) (((ctlBlind_rd (l := [Reg.FBCn_ERR_CLASH]) h n).record _ _ _ _).trans
    (rd_wr_ctl (h _ (by simp)) _ _)) rfl

theorem retries_attemptCounted :
    rd (attemptCounted s n b r e dc) (txFields b).2.2.2.1 n = min (r.errors + 1) 127 := by
  have hids : ∀ b : Fin 3, ∀ f ∈ recorderFields ++ [Reg.FBCn_ERR_CLASH], (txFields b).2.2.2.1.id ≠ f.id := by decide
  rw [rd_attemptCounted s n b r e dc (hids b), rd_wr_same, (txFields_width b).2.2.2]
  omega

/-- The error registers, which are all that is set. -/
theorem errorShown_reads (add : Nat) :
    rd (errorShown s n e dp add) Reg.FBCn_ERR_TEC n = min 256 (rd s Reg.FBCn_ERR_TEC n + add) ∧
      rd (errorShown s n e dp add) Reg.FBCn_ERR_LEC n = lecOf e ∧
      rdB (errorShown s n e dp add) Reg.FBCn_ERR_LPH n = dp ∧
      ∀ g : Field, (∀ f ∈ errorFields, g.id ≠ f.id) → rd (errorShown s n e dp add) g n = rd s g n := by
  obtain ⟨hlec, hlph, hrest⟩ := setLec_reads s n e dp
  have hshown {g : Field} (hg : g.id ≠ Reg.FBCn_STATUS_EPASS.id) (ht : g.id ≠ Reg.FBCn_ERR_TEC.id) :
      rd (errorShown s n e dp add) g n = rd (setLec s n e dp) g n := (rd_setEpass hg _ _).trans (rd_wr_ctl ht _ _)
  refine ⟨(rd_setEpass (by decide) _ _).trans <| (rd_wr_same _ _ _ _).trans <| Nat.mod_eq_of_lt ?_,
    (hshown (by decide) (by decide)).trans hlec, (rdB_of_rd (hshown (by decide) (by decide))).trans hlph, fun g hg => ?_⟩
  · exact lt_of_le_of_lt (min_le_left _ _) (by decide)
  · exact (hshown (hg _ (by decide)) (hg _ (by decide))).trans (hrest g (hg _ (by decide)) (hg _ (by decide)))

end

/-! ### The end of an attempt's requests -/

/-- The fields that the end of a failed attempt sets beside those of a free wire. -/
def failFields : List Field := wireFields ++
  [Reg.FBCn_TXCMD_CANCC, Reg.FBCn_TXCMD_CANRSN, Reg.FBCn_QSTS_EXPIRED, Reg.FBCn_STATUS_BUSOFF]

/-- The state of a controller that goes bus-off in which every loaded request has ended (R235). -/
def busOffEnded (s : State) (n : Fin 24) : State :=
  (List.finRange 3).foldl (fun s b => endTx s n b CC.failTransientExhausted Rsn.busOff)
    (wr (wr s Reg.FBCn_STATUS_BUSOFF 1 n) Reg.FBCn_STATUS_QUAL (qualCode .stale) n)

theorem goBusOff_eq (s : State) (n : Fin 24) :
    goBusOff s n = showCtl (event (freeWire (busOffEnded s n) n) Ev.busOff .warning []) n := rfl

theorem ctl_goBusOff (s : State) (n : Fin 24) : ctl (goBusOff s n) n = { ctl (busOffEnded s n) n with sel := none } := by
  rw [goBusOff_eq, ctl_showCtl, ctl_event]
  exact ctl_setCtl _ _ _

namespace CtlBlind

variable {β : Type} {l : List Field} {p : State → β}

theorem cancelTaken (h : CtlBlind failFields p) (s : State) (n : Fin 24) (b : Fin 3) (r : TxReq) (off : Bool) :
    p (cancelTaken s n b r off) = p s := by
  have hend (code rsn : Nat) : p (Machine.endTx s n b code rsn) = p s := (h.mono (by decide)).endTx _ _ _ _ _
  refine ite_keeps (ite_keeps ?_ ?_) rfl
  · exact (h.field _ (by decide) _ _ _ n.isLt).trans <| (h.field _ (by decide) _ _ _ n.isLt).trans (hend _ _)
  · exact (h.field _ (by decide) _ _ _ n.isLt).trans (hend _ _)

/-- What bus-off ends and shows beside BUSOFF. -/
theorem busOff (h : CtlBlind (endFields ++ showFields) p) (s : State) (n : Fin 24) :
    p (goBusOff s n) = p (wr s Reg.FBCn_STATUS_BUSOFF 1 n) := by
  have hend : p (busOffEnded s n) = p (wr s Reg.FBCn_STATUS_BUSOFF 1 n) :=
    (foldl_keeps p (fun t b => (h.mono (by decide)).endTx t n b _ _) _ _).trans (h.field _ (by decide) _ _ _ n.isLt)
  exact ((h.mono (by decide)).showCtl _ _).trans <| (h.record _ _ _ _).trans ((h.freeWire _ _).trans hend)

theorem wireFailed (h : CtlBlind failFields p) (s : State) (n : Fin 24) (off : Bool) : p (wireFailed s n off) = p s :=
  ite_keeps (((h.mono (by decide)).busOff _ _).trans (h.field _ (by decide) _ _ _ n.isLt)) (h.freeWire _ _)

end CtlBlind

/-- Nothing waits for the wire, and a buffer's request, while it is still loaded, shows as many retries as it has met
errors. -/
structure AttemptEnds (s : State) (n : Fin 24) (b : Fin 3) (k : Nat) : Prop where
  waits : NothingWaits (ctl s n)
  retries : rd s (txFields b).2.2.2.1 n = min k 127
  errors : ∀ r, (ctl s n).tb[b] = some r → r.errors = k

namespace AttemptEnds

variable {s : State} {n : Fin 24} {b : Fin 3} {k : Nat} (h : AttemptEnds s n b k)
include h

theorem congr {t : State} {x : Option (Fin 3)} (hctl : ctl t n = { ctl s n with sel := x })
    (hrd : rd t (txFields b).2.2.2.1 n = rd s (txFields b).2.2.2.1 n) : AttemptEnds t n b k where
  waits := hctl ▸ ⟨h.waits.queue, h.waits.stopping, h.waits.nextBus⟩
  retries := hrd.trans h.retries
  errors r hr := h.errors r (by rwa [hctl] at hr)

theorem endTx (j : Fin 3) (code rsn : Nat) : AttemptEnds (endTx s n j code rsn) n b k where
  waits := nothingWaits_endTx h.waits _ _ _
  retries := by
    cases hj : (ctl s n).tb[j] with
    | none => rw [endTx_of_none hj, h.retries]
    | some r =>
      by_cases hb : b = j
      · subst hb
        rw [(endTx_reads hj code rsn).2.2.2, h.errors r hj]
      · have hids : ∀ b j : Fin 3, b ≠ j → ∀ f ∈ [(txFields j).1, (txFields j).2.1, (txFields j).2.2.1,
            (txFields j).2.2.2.1], (txFields b).2.2.2.1.id ≠ f.id := by decide
        have hne {f : Field} (hf : f ∈ _) (u : State) (v : Nat) := rd_wr_ctl (n := n) (m := n) (hids b j hb f hf) u v
        rw [endTx_of_some hj, rd_setCtl, txEnded, hne (by simp), hne (by simp), hne (by simp), hne (by simp), h.retries]
  errors r hr := by
    rw [tb_endTx] at hr
    split at hr
    · cases hr
    · exact h.errors r hr

theorem cancelTaken (j : Fin 3) (r : TxReq) (off : Bool) : AttemptEnds (cancelTaken s n j r off) n b k := by
  have hids : ∀ b : Fin 3, (txFields b).2.2.2.1.id ≠ Reg.FBCn_TXCMD_CANCC.id ∧
      (txFields b).2.2.2.1.id ≠ Reg.FBCn_TXCMD_CANRSN.id ∧ (txFields b).2.2.2.1.id ≠ Reg.FBCn_QSTS_EXPIRED.id := by decide
  obtain ⟨hcc, hrsn, hexp⟩ := hids b
  unfold Machine.cancelTaken
  split
  · split
    · exact (h.endTx j CC.failCancelled 0).congr rfl ((txCancelEnd_reads _ _ _ _).2.2 _ hcc hrsn)
    · exact (h.endTx j CC.failBudget Rsn.expired).congr rfl (rd_wr_ctl hexp _ _)
  · exact h

theorem busOff : AttemptEnds (goBusOff s n) n b k := by
  have hids : ∀ b : Fin 3, (txFields b).2.2.2.1.id ≠ Reg.FBCn_STATUS_BUSOFF.id ∧
      (txFields b).2.2.2.1.id ≠ Reg.FBCn_STATUS_QUAL.id ∧ ∀ f ∈ recorderFields ++ showFields, (txFields b).2.2.2.1.id ≠ f.id := by
    decide
  obtain ⟨hoff, hqual, hshow⟩ := hids b
  have hshown : AttemptEnds (wr (wr s Reg.FBCn_STATUS_BUSOFF 1 n) Reg.FBCn_STATUS_QUAL (qualCode .stale) n) n b k :=
    h.congr (x := (ctl s n).sel) rfl ((rd_wr_ctl hqual _ _).trans (rd_wr_ctl hoff _ _))
  have hend : AttemptEnds (busOffEnded s n) n b k := by
    unfold busOffEnded
    exact List.foldlRecOn (motive := fun t => AttemptEnds t n b k) _ _ hshown fun t ht j _ => ht.endTx j _ _
  refine hend.congr (ctl_goBusOff s n) ?_
  rw [goBusOff_eq]
  have hblind := ctlBlind_rd hshow n
  exact (hblind.showCtl _ _).trans <| (hblind.record _ _ _ _).trans (hblind.freeWire _ _)

theorem wireFailed (off : Bool) : AttemptEnds (wireFailed s n off) n b k := by
  cases off with
  | true => exact h.busOff
  | false => exact h.congr (ctl_setCtl _ _ _) rfl

end AttemptEnds

theorem tb_busOffEnded (s : State) (n : Fin 24) (j : Fin 3) : (ctl (busOffEnded s n) n).tb[j] = none :=
  foldl_sets (p := fun t => (ctl t n).tb[j]) (f := fun s b => endTx s n b CC.failTransientExhausted Rsn.busOff)
    (List.mem_finRange j) (fun t => (tb_endTx t n j j _ _).trans (if_pos rfl))
    (fun i hi t => (tb_endTx t n i j _ _).trans (if_neg hi)) _

theorem tb_goBusOff (s : State) (n : Fin 24) (j : Fin 3) : (ctl (goBusOff s n) n).tb[j] = none := by
  rw [ctl_goBusOff]
  exact tb_busOffEnded s n j

theorem tb_wireFailed (s : State) (n : Fin 24) (off : Bool) (j : Fin 3) :
    (ctl (wireFailed s n off) n).tb[j] = if off then none else (ctl s n).tb[j] := by
  cases off with
  | true => exact tb_goBusOff s n j
  | false => simp only [wireFailed, ctl_freeWire, Bool.false_eq_true, if_false]

theorem rd_busOff_wireFailed (s : State) (n : Fin 24) (off : Bool) :
    rd (wireFailed s n off) Reg.FBCn_STATUS_BUSOFF n = if off then 1 else rd s Reg.FBCn_STATUS_BUSOFF n := by
  have hblind : CtlBlind (endFields ++ showFields) (rd · Reg.FBCn_STATUS_BUSOFF n) := ctlBlind_rd (by decide) n
  cases off with
  | true => exact (hblind.busOff s n).trans (rd_wr_same s Reg.FBCn_STATUS_BUSOFF n 1)
  | false => rfl

/-! ### TX_ERROR -/

section

variable {s : State} {n : Fin 24} {b : Fin 3} {r : TxReq} (hwaits : NothingWaits (ctl s n))
  (hr : (ctl s n).tb[b] = some r) (hsel : (ctl s n).sel = some b) (e : CanErr) (dp dc : Bool)

/-- The state in which the error shows in the registers, before any request ends. -/
structure ErrorMet (s : State) (n : Fin 24) (b : Fin 3) (r : TxReq) (e : CanErr) (dp dc : Bool) (add : Nat)
    (u : State) : Prop where
  tec : rd u Reg.FBCn_ERR_TEC n = min 256 (rd s Reg.FBCn_ERR_TEC n + add)
  lec : rd u Reg.FBCn_ERR_LEC n = lecOf e
  lph : rdB u Reg.FBCn_ERR_LPH n = dp
  busOff : rd u Reg.FBCn_STATUS_BUSOFF n = rd s Reg.FBCn_STATUS_BUSOFF n
  ends : AttemptEnds u n b (r.errors + 1)
  request : (ctl u n).tb[b] = some (failedAttempt (ctl s n) r e dc)

include hwaits in
theorem errorMet_of_free (add k : Nat) :
    ErrorMet s n b r e dp dc add (errorShown { attemptCounted s n b r e dc with free := k } n e dp add) := by
  have hids : ∀ b : Fin 3, (∀ f ∈ errorFields, (txFields b).2.2.2.1.id ≠ f.id) ∧
      Reg.FBCn_ERR_TEC.id ≠ (txFields b).2.2.2.1.id ∧ Reg.FBCn_STATUS_BUSOFF.id ≠ (txFields b).2.2.2.1.id := by decide
  obtain ⟨herr, htecb, hoffb⟩ := hids b
  have hcounted {g : Field} (h : ∀ f ∈ recorderFields ++ [Reg.FBCn_ERR_CLASH], g.id ≠ f.id)
      (hb : g.id ≠ (txFields b).2.2.2.1.id) : rd (attemptCounted s n b r e dc) g n = rd s g n :=
    (rd_attemptCounted s n b r e dc h).trans (rd_wr_ctl hb _ _)
  obtain ⟨htec, hlec, hlph, hrest⟩ := errorShown_reads { attemptCounted s n b r e dc with free := k } n e dp add
  have hctl : ctl (errorShown { attemptCounted s n b r e dc with free := k } n e dp add) n = _ :=
    ctl_attemptCounted s n b r e dc
  have hload := (congrArg (fun c : Ctl => c.tb[b]) hctl).trans (getElem_set_fin_self _ _ _)
  refine ⟨htec.trans ?_, hlec, hlph, (hrest _ (by decide)).trans (hcounted (by decide) hoffb), ⟨?_, ?_, fun q hq => ?_⟩, hload⟩
  · exact congrArg (fun v => min 256 (v + add)) (hcounted (by decide) htecb)
  · exact hctl ▸ ⟨hwaits.queue, hwaits.stopping, hwaits.nextBus⟩
  · exact (hrest _ herr).trans (retries_attemptCounted s n b r e dc)
  · cases hload.symm.trans hq
    rfl

include hwaits hr hsel in
theorem txError_stages : ∃ add u,
    (if e = .stuff ∧ dp = false ∧ dc = false ∨ e = .ack ∧ rdB s Reg.FBCn_STATUS_EPASS n = true then
      add = 0 ∨ add = 8 else add = 8) ∧ ErrorMet s n b r e dp dc add u ∧
    exec (.txError n b e dp dc) s = .next (settle (wireFailed
      (cancelTaken u n b r (decide (255 < rd s Reg.FBCn_ERR_TEC n + add))) n
      (decide (255 < rd s Reg.FBCn_ERR_TEC n + add))) n) := by
  have hids : ∀ b : Fin 3, Reg.FBCn_ERR_TEC.id ≠ (txFields b).2.2.2.1.id ∧
      Reg.FBCn_STATUS_EPASS.id ≠ (txFields b).2.2.2.1.id := by decide
  obtain ⟨htecb, hepb⟩ := hids b
  obtain ⟨hadd, k, hfree⟩ := tecStep_spec (attemptCounted s n b r e dc) n e dp dc
  have hep : rdB (attemptCounted s n b r e dc) Reg.FBCn_STATUS_EPASS n = rdB s Reg.FBCn_STATUS_EPASS n :=
    rdB_of_rd ((rd_attemptCounted s n b r e dc (by decide)).trans (rd_wr_ctl hepb _ _))
  have htec : rd { attemptCounted s n b r e dc with free := k } Reg.FBCn_ERR_TEC n = rd s Reg.FBCn_ERR_TEC n :=
    (rd_attemptCounted s n b r e dc (by decide)).trans (rd_wr_ctl htecb _ _)
  rw [hep] at hadd
  refine ⟨_, _, hadd, errorMet_of_free hwaits e dp dc _ k, ?_⟩
  have hover (add : Nat) : decide (255 < min 256 (rd s Reg.FBCn_ERR_TEC n + add)) =
      decide (255 < rd s Reg.FBCn_ERR_TEC n + add) := by
    rw [decide_eq_decide]
    omega
  refine congrArg Host.Outcome.next ((txError_eq hr hsel e dp dc).trans ?_)
  simp only [hfree, htec, hover]

include hwaits hr hsel in
theorem txError_effect : Completes (exec (.txError n b e dp dc) s) fun t => ∃ add : Nat,
    (if e = .stuff ∧ dp = false ∧ dc = false ∨ e = .ack ∧ rdB s Reg.FBCn_STATUS_EPASS n = true then
      add = 0 ∨ add = 8 else add = 8) ∧
    rd t Reg.FBCn_ERR_TEC n = min 256 (rd s Reg.FBCn_ERR_TEC n + add) ∧ rd t Reg.FBCn_ERR_LEC n = lecOf e ∧
    rdB t Reg.FBCn_ERR_LPH n = dp ∧ rd t (txFields b).2.2.2.1 n = min (r.errors + 1) 127 ∧
    (255 < rd s Reg.FBCn_ERR_TEC n + add →
      rd t Reg.FBCn_STATUS_BUSOFF n = 1 ∧ ∀ j : Fin 3, (ctl t n).tb[j] = none) ∧
    (rd s Reg.FBCn_ERR_TEC n + add ≤ 255 → r.cancel = false →
      rd t Reg.FBCn_STATUS_BUSOFF n = rd s Reg.FBCn_STATUS_BUSOFF n ∧
      ∃ r', (ctl t n).tb[b] = some r' ∧ r'.errors = r.errors + 1 ∧ r'.clash = clashCount r e dc) := by
  obtain ⟨add, u, hadd, hmet, hexec⟩ := txError_stages hwaits hr hsel e dp dc
  generalize hoff : decide (255 < rd s Reg.FBCn_ERR_TEC n + add) = off at hexec
  have hend := (hmet.ends.cancelTaken b r off).wireFailed off
  obtain ⟨x, hx⟩ := settle_idle_eq hend.waits
  rw [hx] at hexec
  have hkeep {g : Field} (h : ∀ f ∈ recorderFields ++ failFields, g.id ≠ f.id) :
      rd (wireFailed (cancelTaken u n b r off) n off) g n = rd u g n :=
    ((ctlBlind_rd h n).wireFailed _ _ _).trans ((ctlBlind_rd h n).cancelTaken _ _ _ _ _)
  refine ⟨_, hexec, add, hadd, (hkeep (by decide)).trans hmet.tec, (hkeep (by decide)).trans hmet.lec,
    (rdB_of_rd (hkeep (by decide))).trans hmet.lph, hend.retries, fun hover => ?_, fun hin hstay => ?_⟩
  · obtain rfl : off = true := hoff ▸ decide_eq_true hover
    simp only [rd_setCtl, ctl_setCtl, tb_wireFailed, rd_busOff_wireFailed, if_true]
    exact ⟨trivial, fun _ => trivial⟩
  · obtain rfl : off = false := hoff ▸ decide_eq_false (by omega)
    have hkept : cancelTaken u n b r false = u := if_neg (by simp [hstay])
    simp only [hkept, rd_setCtl, ctl_setCtl, tb_wireFailed, rd_busOff_wireFailed, Bool.false_eq_true, if_false]
    exact ⟨hmet.busOff, _, hmet.request, rfl, rfl⟩

end

end Sys2Proof.Machine
end

section
/-! SUPPORT. Expiry (R244): what a controller still holds once a tick has expired its entries, through all that it does on a
free wire. -/

namespace Sys2Proof.Machine

/-! ### What is still alive -/

/-- The queue holds entries of `q` that a tick has not expired, and no loaded request is expired. -/
structure Live (q : List QEntry) (k : Nat) (c : Ctl) : Prop where
  queue : ∀ e ∈ c.queue, e ∈ q ∧ k < e.expiry
  loaded : ∀ (b : Fin 3) (r : TxReq) (x : Nat), c.tb[b] = some r → r.expiry = some x → k < x

theorem mem_insertWhile {α : Type} {p : α → Bool} {l : List α} {x e : α}
    (h : e ∈ l.takeWhile p ++ x :: l.dropWhile p) : e = x ∨ e ∈ l := by
  rcases List.mem_append.1 h with h | h
  · exact .inr ((List.takeWhile_prefix p).subset h)
  · exact (List.mem_cons.1 h).imp_right fun h => (List.dropWhile_suffix p).subset h

theorem mem_foldl_insert {α : Type} {put : List α → α → List α} (hput : ∀ l x e, e ∈ put l x → e = x ∨ e ∈ l)
    {l m : List α} {e : α} (h : e ∈ l.foldl put m) : e ∈ l ∨ e ∈ m := by
  induction l generalizing m with
  | nil => exact .inr h
  | cons x l ih =>
    rcases ih h with h | h
    · exact .inl (List.mem_cons_of_mem _ h)
    · exact (hput m x e h).imp_left fun h => by simp [h]

/-- A new order of the queue brings no entry in (R244). -/
theorem mem_queueOrder {c : Ctl} {e : QEntry} (h : e ∈ queueOrder c) : e ∈ c.queue := by
  have harrival {e : QEntry} (h : e ∈ c.queue.foldl arrivalPut []) : e ∈ c.queue :=
    (mem_foldl_insert (fun _ _ _ h => mem_insertWhile h) h).elim id (by simp)
  have hpriority {e : QEntry} {l : List QEntry} (h : e ∈ l.foldl (queuePut true) []) : e ∈ l :=
    (mem_foldl_insert (put := queuePut true) (fun _ _ _ h => mem_insertWhile h) h).elim id (by simp)
  unfold queueOrder at h
  dsimp only at h
  split at h
  · exact harrival (hpriority h)
  · exact harrival h

namespace Live

variable {q : List QEntry} {k : Nat}

/-- A controller that lets go of entries and requests holds live ones still. -/
theorem drop {c d : Ctl} (h : Live q k c) (hqueue : ∀ e ∈ d.queue, e ∈ c.queue)
    (htb : ∀ b : Fin 3, d.tb[b] = none ∨ d.tb[b] = c.tb[b]) : Live q k d where
  queue e he := h.queue e (hqueue e he)
  loaded b r x hr hx := (htb b).elim (fun hb => by simp [hb] at hr) fun hb => h.loaded b r x (hb ▸ hr) hx

/-- The same requests and entries are as live. -/
theorem congr {c d : Ctl} (h : Live q k c) (hqueue : d.queue = c.queue) (htb : d.tb = c.tb) : Live q k d :=
  h.drop (fun _ he => hqueue ▸ he) fun _ => .inr (by rw [htb])

variable {s : State} {n : Fin 24} (h : Live q k (ctl s n))
include h

theorem choose : Live q k (ctl (choose s n) n) := by
  obtain ⟨x, hx⟩ := ctl_choose s n
  rw [hx]
  exact h.congr rfl rfl

theorem freeWire : Live q k (ctl (freeWire s n) n) := by
  rw [ctl_freeWire]
  exact h.congr rfl rfl

theorem endTx (b : Fin 3) (code rsn : Nat) : Live q k (ctl (endTx s n b code rsn) n) := by
  refine h.drop (fun e he => ?_) fun j => ?_
  · obtain ⟨x, hx⟩ := ctl_endTx s n b code rsn
    rwa [hx] at he
  · rw [tb_endTx]
    split
    · exact .inl rfl
    · exact .inr rfl

theorem endAllTx (code rsn : Nat) : Live q k (ctl (endAllTx s n code rsn) n) := by
  unfold Machine.endAllTx
  extract_lets u
  have hu : Live q k (ctl u n) :=
    List.foldlRecOn (motive := fun t => Live q k (ctl t n)) _ _ h fun t ht b _ => ht.endTx b _ _
  rw [ctl_setDepth, ctl_setCtl]
  exact hu.drop (by simp) fun _ => .inr rfl

theorem loadTb (b : Fin 3) {r : TxReq} (hr : ∀ x, r.expiry = some x → k < x) : Live q k (ctl (loadTb s n b r) n) := by
  obtain ⟨x, hx⟩ := loadTb_eq_setCtl s n b r
  rw [hx, ctl_setCtl]
  refine ⟨h.queue, fun j p y hp hy => ?_⟩
  rw [show _ = _ from getElem_set_fin (ctl s n).tb b j (some r)] at hp
  split at hp
  · cases hp
    exact hr y hy
  · exact h.loaded j p y hp hy

theorem loadHead : Live q k (ctl (loadHead s n) n) := by
  unfold Machine.loadHead
  dsimp only
  split
  case h_1 e l b hqueue _ =>
    split
    · have he := h.queue e (by simp [hqueue])
      have hrest : Live q k (ctl (setCtl s n { ctl s n with queue := l }) n) := by
        rw [ctl_setCtl]
        exact h.drop (fun x hx => by simp [hqueue, hx]) fun _ => .inr rfl
      exact hrest.loadTb b fun x hx => Option.some.inj hx ▸ he.2
    · exact h
  case h_2 => exact h

theorem loadQueue : Live q k (ctl (loadQueue s n) n) := h.loadHead.loadHead.loadHead

theorem afterTx : Live q k (ctl (afterTx s n) n) := by
  unfold Machine.afterTx
  dsimp only
  split
  · exact h.loadQueue.choose
  · exact h.loadQueue

theorem probeOutcome (outcome pmode : Nat) : Live q k (ctl (probeOutcome s n outcome pmode) n) := by
  refine Live.afterTx ?_
  rwa [ctl_event]

theorem startBus : Live q k (ctl (startBus s n) n) := by
  unfold Machine.startBus
  dsimp only
  split
  · exact h.freeWire
  · split
    · exact h.freeWire
    split
    · exact h.freeWire.probeOutcome 4 1
    split
    · exact h.freeWire.probeOutcome 4 2
    · have hsend (t : State) (b : BusRec) : ctl (sendProbe t n b) n = ctl t n := ite_keeps (p := (ctl · n)) rfl rfl
      rw [hsend]
      exact h.freeWire

theorem stopCtl : Live q k (ctl (stopCtl s n) n) := by
  have hrecov (t : State) : ctl (if rdB t Reg.FBCn_STATUS_RECOV n then
      ctlEnd (wr t Reg.FBCn_STATUS_RECOV 0 n) n CC.failPower 0 else t) n = ctl t n := by
    split <;> simp
  have hstopped (t : State) (ht : Live q k (ctl t n)) : Live q k (ctl (linkChange (showCtl (setCtl t n
      { ctl t n with stopped := true, stopping := false, sel := none }) n) ⟨.fieldbus, n.val⟩) n) := by
    rw [ctl_linkChange, ctl_showCtl, ctl_setCtl]
    exact ht.congr rfl rfl
  unfold Machine.stopCtl
  extract_lets u v
  have hv : Live q k (ctl v n) := by
    rw [show ctl v n = ctl u n from hrecov u]
    exact h.endAllTx _ _
  exact hstopped v hv

/-- A record that takes effect brings no entry and no request in. -/
theorem takeBus (b : BusRec) : Live q k (ctl (takeBus s n b) n) := by
  have hdrop (c : Bool) : Live q k (ctl (if c then Machine.endTx s n 2 CC.failCancelled Rsn.configChange else s) n) := by
    split
    · exact h.endTx _ _ _
    · exact h
  have htaken (t : State) (c : Ctl) (he : Live q k c) :
      Live q k (ctl (showCtl (setCtl t n { c with queue := queueOrder c }) n) n) := by
    rw [ctl_showCtl, ctl_setCtl]
    exact he.drop (fun e he => mem_queueOrder he) fun _ => .inr rfl
  have hlinked (c : Bool) (t : State) : ctl (if c then t else linkChange t ⟨.fieldbus, n.val⟩) n = ctl t n := by
    split <;> simp
  unfold Machine.takeBus
  extract_lets c was dropHost u changed c' c'' v w
  have hu : Live q k (ctl u n) := hdrop dropHost
  have hv : Live q k (ctl v n) := htaken u c'' (hu.congr rfl rfl)
  have hw : Live q k (ctl w n) := by
    rw [show ctl w n = ctl v n from hlinked was v]
    exact hv
  split
  · exact hw.startBus
  · exact hw.afterTx

theorem settle : Live q k (ctl (settle s n) n) := by
  unfold Machine.settle
  dsimp only
  split
  · exact h
  split
  · exact h.stopCtl
  split
  · exact h.takeBus _
  · exact h.afterTx

end Live

/-! ### The entries and requests that expire -/

/-- The queue without its expired entries, which are counted. -/
def queueExpired (s : State) (n : Fin 24) : State :=
  bump (setDepth (setCtl s n { ctl s n with queue := (ctl s n).queue.filter fun e => s.tb.tick < e.expiry }) n)
    Reg.FBCn_QSTS_EXPIRED n ((ctl s n).queue.filter fun e => e.expiry ≤ s.tb.tick).length

/-- The request of a buffer ends when it is expired, no frame of it being on the wire. -/
def expireTb (s : State) (n : Fin 24) (b : Fin 3) : State :=
  match (ctl s n).tb[b] with
  | some r => match r.expiry with
    | some x => if x ≤ s.tb.tick then bump (endTx s n b CC.failBudget Rsn.expired) Reg.FBCn_QSTS_EXPIRED n else s
    | none => s
  | none => s

/-- The state in which all that is expired has ended. -/
def allExpired (s : State) (n : Fin 24) : State := (List.finRange 3).foldl (fun s b => expireTb s n b) (queueExpired s n)

/-- The request of a buffer, when there is one with an expiry, is not expired. -/
def TbLive (s : State) (n : Fin 24) (b : Fin 3) : Prop :=
  ∀ r x, (ctl s n).tb[b] = some r → r.expiry = some x → s.tb.tick < x

section

variable (s : State) (n : Fin 24) (b : Fin 3)

theorem exec_queueEntryExpiry : exec (.queueEntryExpiry n none) s = .next (settle (loadQueue (allExpired s n) n) n) := by
  refine congrArg Host.Outcome.next ?_
  simp only [queueExpiry, reduceCtorEq, false_and, if_false]
  rfl

theorem expireTb_cases : expireTb s n b = s ∧ TbLive s n b ∨
    expireTb s n b = bump (endTx s n b CC.failBudget Rsn.expired) Reg.FBCn_QSTS_EXPIRED n := by
  unfold expireTb TbLive
  cases hr : (ctl s n).tb[b] with
  | none => exact .inl ⟨rfl, by simp⟩
  | some r =>
    cases hx : r.expiry with
    | none => exact .inl ⟨by simp only [hx], by rintro _ x ⟨⟩ h; simp [hx] at h⟩
    | some x =>
      by_cases hlate : x ≤ s.tb.tick
      · exact .inr (by simp only [hx, if_pos hlate])
      · refine .inl ⟨by simp only [hx, if_neg hlate], ?_⟩
        rintro _ y ⟨⟩ h
        cases hx.symm.trans h
        exact not_le.1 hlate

theorem expireTb_keeps {β : Type} {p : State → β} (hend : ∀ code rsn, p (endTx s n b code rsn) = p s)
    (hcount : ∀ t, p (bump t Reg.FBCn_QSTS_EXPIRED n) = p t) : p (expireTb s n b) = p s := by
  rcases expireTb_cases s n b with ⟨h, -⟩ | h
  · rw [h]
  · rw [h, hcount, hend]

theorem expireTb_tb : (expireTb s n b).tb = s.tb :=
  expireTb_keeps s n b (p := State.tb) (fun _ _ => (ctlBlind_tb _).endTx _ _ _ _ _) fun _ => rfl

theorem tbLive_expireTb : TbLive (expireTb s n b) n b := by
  rcases expireTb_cases s n b with ⟨h, hlive⟩ | h
  · rwa [h]
  · intro r x hr
    rw [h] at hr
    cases hr.symm.trans ((tb_endTx s n b b _ _).trans (if_pos rfl))

theorem tbLive_expireTb_of_ne {j : Fin 3} (hj : j ≠ b) : TbLive (expireTb s n j) n b = TbLive s n b := by
  have htb : (ctl (expireTb s n j) n).tb[b] = (ctl s n).tb[b] :=
    expireTb_keeps s n j (p := fun t => (ctl t n).tb[b]) (fun _ _ => (tb_endTx s n j b _ _).trans (if_neg hj)) fun _ => rfl
  simp only [TbLive, htb, expireTb_tb]

theorem allExpired_tb : (allExpired s n).tb = s.tb := foldl_keeps State.tb (fun t b => expireTb_tb t n b) _ _

/-- What is left is alive. -/
theorem live_allExpired : Live (ctl s n).queue s.tb.tick (ctl (allExpired s n) n) := by
  have hqueue : (ctl (allExpired s n) n).queue = (ctl s n).queue.filter fun e => s.tb.tick < e.expiry := by
    have hstep (t : State) (b : Fin 3) : (ctl (expireTb t n b) n).queue = (ctl t n).queue :=
      expireTb_keeps t n b (p := fun t => (ctl t n).queue) (fun code rsn => by
        obtain ⟨x, hx⟩ := ctl_endTx t n b code rsn
        rw [hx]) fun _ => rfl
    refine (foldl_keeps (fun t => (ctl t n).queue) hstep _ _).trans ?_
    exact congrArg Ctl.queue (ctl_setCtl s n _)
  refine ⟨fun e he => ?_, fun b r x hr hx => ?_⟩
  · rw [hqueue] at he
    simpa using he
  · have hlive : TbLive (allExpired s n) n b := of_eq_true <|
      foldl_sets (p := fun t => TbLive t n b) (f := fun t b => expireTb t n b) (List.mem_finRange b)
        (fun t => eq_true (tbLive_expireTb t n b)) (fun j hj t => tbLive_expireTb_of_ne t n b hj) _
    have hlate := hlive r x hr hx
    rwa [allExpired_tb] at hlate

/-- With no request loaded the expired entries of the queue alone are counted. -/
theorem expired_allExpired (h : ∀ b : Fin 3, (ctl s n).tb[b] = none) :
    rd (allExpired s n) Reg.FBCn_QSTS_EXPIRED n = min (rd s Reg.FBCn_QSTS_EXPIRED n +
      ((ctl s n).queue.filter fun e => e.expiry ≤ s.tb.tick).length) (2 ^ Reg.FBCn_QSTS_EXPIRED.width - 1) := by
  have hfree (b : Fin 3) : expireTb (queueExpired s n) n b = queueExpired s n := by
    have hb : (ctl (queueExpired s n) n).tb[b] = none := (congrArg (fun c : Ctl => c.tb[b]) (ctl_setCtl s n _)).trans (h b)
    simp only [expireTb, hb]
  have hall : allExpired s n = queueExpired s n := List.foldl_fixed' hfree _
  rw [hall, queueExpired, bump_same]
  exact congrArg (fun v => min (v + _) _) (rd_wr_ctl (by decide) _ _)

theorem queueEntryExpiry_effect : Completes (exec (.queueEntryExpiry n none) s) fun t =>
    (∀ e ∈ (ctl t n).queue, e ∈ (ctl s n).queue ∧ s.tb.tick < e.expiry) ∧
    (∀ (b : Fin 3) (r : TxReq) (x : Nat), (ctl t n).tb[b] = some r → r.expiry = some x → s.tb.tick < x) ∧
    ((∀ b : Fin 3, (ctl s n).tb[b] = none) → rd t Reg.FBCn_QSTS_EXPIRED n = min (rd s Reg.FBCn_QSTS_EXPIRED n +
      ((ctl s n).queue.filter fun e => e.expiry ≤ s.tb.tick).length) (2 ^ Reg.FBCn_QSTS_EXPIRED.width - 1)) := by
  have hlive := (live_allExpired s n).loadQueue.settle
  have hblind : CtlBlind wireFields (rd · Reg.FBCn_QSTS_EXPIRED n) := ctlBlind_rd (by decide) n
  exact ⟨_, exec_queueEntryExpiry s n, hlive.queue, hlive.loaded, fun h => (hblind.settle _ _).trans <|
    ((hblind.mono (by decide)).loadQueue _ _).trans (expired_allExpired s n h)⟩

end

/-- Settles O42: a request and a cancel by what TB2 holds, a frame that completes and an error by the stages of each, a lost
arbitration by the choice, and an expiry by what stays alive on a free wire. -/
theorem busTransmission : Obligations.BusTransmission := by
  rintro s n c rfl
  refine ⟨fun b f hbus hen hhost hm hf => ?_, fun hqueue hstop hnext => ?_, fun b br hqueue hstop hnext hsel hbus hruns =>
    arbitrationLoss_effect ⟨hqueue, hstop, hnext⟩ hsel hbus hruns, queueEntryExpiry_effect s n⟩
  · subst hf
    exact ⟨txRequest_busy hbus hen hhost hm, fun hfree hdlc hrtr hbrs hclassic hres hstopped hstop hoff =>
      txRequest_loads hbus hen hhost hm ⟨hfree, hdlc, hrtr, hbrs, hclassic, hres, hstopped, hstop, hoff⟩⟩
  · have hwaits : NothingWaits (ctl s n) := ⟨hqueue, hstop, hnext⟩
    refine ⟨fun hm p => ⟨txCancel_of_free hm p, fun r hr hhost => txCancel_before hm p hr hhost hwaits,
      fun r hr hhost => txCancel_after hm p hr hhost⟩, fun b r hr hsel => ⟨frameTxComplete_effect hwaits hr hsel,
      fun e dp dc => txError_effect hwaits hr hsel e dp dc⟩⟩

end Sys2Proof.Machine
end

section
/-! SUPPORT. The machine right after reset (R386, R341), words of KCIS written out (Table 3.2), and the completion of every
command. -/

namespace Sys2Proof.Machine

theorem instOf_reset (sq : Sq) : instOf State.reset sq = none := by
  simp [instOf, State.reset]

/-- No sequencer runs or holds a task after reset, and the memories are empty. -/
theorem memInv_reset : MemInv State.reset := by
  refine (memInv_iff State.reset).2 ⟨rfl, rfl, fun sq => ⟨fun n hn => ?_, fun i hi => ?_⟩⟩
  · have hqueue : (State.reset.csa.seqs[sq]).queue = [] := by simp [State.reset]
    rw [hqueue] at hn
    cases hn
  · cases (instOf_reset sq).symm.trans hi

/-- Settles O26: each field is read from the table of reset values, and the control memories are empty. -/
theorem resetState : Obligations.ResetState :=
  ⟨rfl, rfl, rfl, rfl, rfl, rfl, rfl, instOf_reset, memInv_reset⟩

/-- Settles O3: each word is read field by field. -/
theorem kcisWords : Obligations.KcisWords := fun _ => ⟨rfl, rfl, rfl, rfl, rfl, rfl, rfl⟩

/-- Each arm of the dispatcher is the next state of its command's meaning. -/
theorem exec_completes (c : Instr) (s : State) : ∃ t, exec c s = .next t := by
  cases c <;> exact ⟨_, rfl⟩

/-- Settles O1: a command is run with the rest of the queue, an empty queue idles, and every arm answers a next state. -/
theorem stepRunsFrontCommand : Obligations.StepRunsFrontCommand := by
  refine ⟨fun c s => rfl, fun s h => ?_, exec_completes⟩
  simp only [step, h]

end Sys2Proof.Machine
end

section
/-! SUPPORT. What a field reads after the shared operations on other fields: events, status words, counters and requests to
the store. -/

namespace Sys2Proof.Machine

theorem rd_event {g : Field} {j : Nat} (h : ∀ f ∈ recorderFields, g.id ≠ f.id) (hj : j < 8192) (s : State) (code : Nat)
    (sev : Sev) (ps : List Nat) : rd (event s code sev ps) g j = rd s g j :=
  event_rdIn s code sev ps <| evrKeys_of_id hj (h _ (by simp [recorderFields])) (h _ (by simp [recorderFields]))
    (h _ (by simp [recorderFields]))

theorem rd_bump_ne {f g : Field} {i j : Nat} (h : g.key j ≠ f.key i) (s : State) (n : Nat) :
    rd (bump s f i n) g j = rd s g j := rd_wr_ne h _ _

theorem rd_setStatus_ne {cc rsn pend g : Field} {i j : Nat} (hcc : g.key j ≠ cc.key i) (hrsn : g.key j ≠ rsn.key i)
    (hpend : g.key j ≠ pend.key i) (s : State) (code reason : Nat) :
    rd (setStatus s cc rsn pend code reason i) g j = rd s g j :=
  (rd_wr_ne hpend _ _).trans <| (rd_wr_ne hrsn _ _).trans (rd_wr_ne hcc _ _)

/-- A field that neither the store nor the reports of its writes set. -/
theorem storeBlind_rd {g : Field} {j : Nat} (h : ∀ f ∈ storeFields, g.id ≠ f.id) (hj : j < 8192) :
    StoreBlind (rd · g j) where
  field f hf s v := rd_wr_of_id_ne (h f hf) (by omega) hj s v
  nvs _ _ := rfl
  csa _ _ := rfl
  mte _ _ := rfl
  shadow _ _ _ := rfl
  service _ _ := rfl

theorem modeIs_of_rd {s t : State} (h : rd t Reg.SSU_MODE_MODE = rd s Reg.SSU_MODE_MODE) : modeIs t = modeIs s :=
  congrArg modeOf h

end Sys2Proof.Machine
end

section
/-! SUPPORT. The calendar (R366, R368 to R372): SET and its second boundary, the check against a source, the second and the
oscillator's stop. -/

namespace Sys2Proof.Machine

/-! ### SET (R370) -/

theorem rtcEnd_reads (s : State) (code rsn : Nat) :
    rd (rtcEnd s code rsn) Reg.TBC_RTCCMDSTS_CC = code % 2 ^ 8 ∧ rd (rtcEnd s code rsn) Reg.TBC_RTCCMDSTS_RSN = rsn % 2 ^ 8 ∧
      rd (rtcEnd s code rsn) Reg.TBC_RTCCMDSTS_PEND = 0 :=
  setStatus_reads s code rsn (by decide) (by decide) (by decide)

section

variable {s : State} (hp : rdB s Reg.TBC_RTCCMDSTS_PEND = false) (hm : modeIs s ≠ .test)
include hp hm

theorem rtcSet_accepted {c : Nat} (hc : stagedSecs s = some c) : Completes (exec .rtcSet s) fun t =>
    rd t Reg.TBC_RTCCMDSTS_PEND = 1 ∧ t.rtc = { s.rtc with set := some (c, 2) } := by
  have hset : rtcSet s = wr { s with rtc := { s.rtc with set := some (c, 2) } } Reg.TBC_RTCCMDSTS_PEND 1 := by
    simp [rtcSet, hp, hm, hc]
  exact ⟨_, congrArg Host.Outcome.next hset, rd_wr_same _ _ _ _, rfl⟩

theorem rtcSet_refused (hc : stagedSecs s = none) : Completes (exec .rtcSet s) fun t =>
    rd t Reg.TBC_RTCCMDSTS_CC = CC.failRefused ∧ rd t Reg.TBC_RTCCMDSTS_RSN = Rsn.badDate ∧
      rd t Reg.TBC_RTCSTS_BADWRITE = 1 ∧ t.rtc = s.rtc := by
  have hset : rtcSet s = rtcEnd (wr s Reg.TBC_RTCSTS_BADWRITE 1) CC.failRefused Rsn.badDate := by
    simp [rtcSet, hp, hm, hc]
  obtain ⟨hcc, hrsn, -⟩ := rtcEnd_reads (wr s Reg.TBC_RTCSTS_BADWRITE 1) CC.failRefused Rsn.badDate
  exact ⟨_, congrArg Host.Outcome.next hset, hcc, hrsn,
    (rd_setStatus_ne (by decide) (by decide) (by decide) _ _ _).trans (rd_wr_same _ _ _ _), rfl⟩

end

/-- The calendar and its fields once a count is taken, before the record of the change. -/
def calendarTaken (s : State) (c src : Nat) : State :=
  rtcChanged (wr (wr { s with rtc := { s.rtc with secs := c, sub := 0, set := none } } Reg.TBC_RTCSTS_OSF 0)
    Reg.TBC_RTCSTS_SRC src)

theorem setCalendar_eq (s : State) (c src : Nat) : setCalendar s c src =
    if s.rtc.secs + 1 < c ∨ c + 1 < s.rtc.secs then
      event (calendarTaken s c src) Ev.rtcSet .notice (lowHigh s.rtc.secs ++ lowHigh c ++ [src])
    else calendarTaken s c src := rfl

theorem setCalendar_rtc (s : State) (c src : Nat) :
    (setCalendar s c src).rtc = { s.rtc with secs := c, sub := 0, set := none, changed := true } := by
  rw [setCalendar_eq]
  exact ite_keeps (p := State.rtc) (event_rtc _ _ _ _) rfl

theorem rd_setCalendar {g : Field} (h : ∀ f ∈ recorderFields, g.id ≠ f.id) (s : State) (c src : Nat) :
    rd (setCalendar s c src) g = rd (calendarTaken s c src) g := by
  rw [setCalendar_eq]
  exact ite_keeps (p := fun t => rd t g) (rd_event h (by decide) _ _ _ _) rfl

theorem calendarTaken_reads (s : State) (c src : Nat) : rd (calendarTaken s c src) Reg.TBC_RTCSTS_OSF = 0 ∧
    rd (calendarTaken s c src) Reg.TBC_RTCSTS_SRC = src % 4 :=
  rd_wr_wr (by decide) { s with rtc := { s.rtc with secs := c, sub := 0, set := none } } 0 src

theorem rtcSetApply_host {s : State} {c : Nat} (h : s.rtc.set = some (c, 2)) : Completes (exec .rtcSetApply s) fun t =>
    t.rtc = { s.rtc with secs := c, sub := 0, set := none, changed := true } ∧ rd t Reg.TBC_RTCSTS_OSF = 0 ∧
      rd t Reg.TBC_RTCSTS_SRC = 2 ∧ rd t Reg.TBC_RTCCMDSTS_CC = CC.done ∧ rd t Reg.TBC_RTCCMDSTS_PEND = 0 := by
  have happly : rtcSetApply s = rtcEnd (setCalendar s c 2) CC.done 0 := by simp [rtcSetApply, h]
  obtain ⟨hcc, -, hpend⟩ := rtcEnd_reads (setCalendar s c 2) CC.done 0
  obtain ⟨hosf, hsrc⟩ := calendarTaken_reads s c 2
  have hkeep {g : Field} (hg : ∀ f ∈ recorderFields, g.id ≠ f.id) (hcc : g.key 0 ≠ Reg.TBC_RTCCMDSTS_CC.key 0)
      (hrsn : g.key 0 ≠ Reg.TBC_RTCCMDSTS_RSN.key 0) (hpend : g.key 0 ≠ Reg.TBC_RTCCMDSTS_PEND.key 0) :
      rd (rtcEnd (setCalendar s c 2) CC.done 0) g = rd (calendarTaken s c 2) g :=
    (rd_setStatus_ne hcc hrsn hpend _ _ _).trans (rd_setCalendar hg s c 2)
  exact ⟨_, congrArg Host.Outcome.next happly, setCalendar_rtc s c 2,
    (hkeep (by decide) (by decide) (by decide) (by decide)).trans hosf,
    (hkeep (by decide) (by decide) (by decide) (by decide)).trans hsrc, hcc, hpend⟩

/-! ### The check against a source (R371) -/

theorem calendarCheck_of_local {s : State} (h1 : rd s Reg.TBC_DSTS_SRC ≠ 1) (h2 : rd s Reg.TBC_DSTS_SRC ≠ 2) (utc : Int) :
    exec (.calendarCheck utc) s = .next s := by
  have hcheck : calendarCheck s utc = s := by simp [calendarCheck, h1, h2]
  exact congrArg Host.Outcome.next hcheck

/-- Under Apex the count wanted is that of the time base alone. -/
theorem calendarCheck_of_apex {s : State} (hsrc : rd s Reg.TBC_DSTS_SRC = 2) (hset : s.rtc.set = none) (utc : Int) :
    calendarCheck s utc = if rdB s Reg.TBC_RTCSTS_OSF = true ∨
        rd s Reg.TBC_RTCCFG_STEPMAX < (((s.tb.now / 1000000000 : Nat) : Int) - s.rtc.secs).natAbs * 1000 then
      { s with rtc := { s.rtc with set := some (0, 3) } } else s := by
  simp [calendarCheck, hsrc, hset]

/-! ### The second and the oscillator (R366, R368) -/

theorem setOsf_osf (s : State) : rd (setOsf s) Reg.TBC_RTCSTS_OSF = 1 :=
  rd_wr_same s Reg.TBC_RTCSTS_OSF 0 1

theorem calendarSecond_effect (s : State) : Completes (exec .calendarSecond s) fun t => t.rtc.sub = 0 ∧
    t.rtc.secs = (s.rtc.secs + 1) % 12622780800 ∧ (s.rtc.secs + 1 = 12622780800 → rd t Reg.TBC_RTCSTS_OSF = 1) ∧
    (s.rtc.secs + 1 ≠ 12622780800 → t.flds = s.flds) := by
  refine ⟨_, rfl, ?_⟩
  by_cases hwrap : s.rtc.secs + 1 = calRange
  · rw [if_pos hwrap]
    exact ⟨rfl, rfl, fun _ => setOsf_osf _, fun h => absurd hwrap h⟩
  · rw [if_neg hwrap]
    exact ⟨rfl, rfl, fun h => absurd h hwrap, fun _ => rfl⟩

theorem oscillatorStop_effect (s : State) : Completes (exec .oscillatorStop s) fun t => rd t Reg.TBC_RTCSTS_OSF = 1 ∧
    t.rtc = { s.rtc with check := false, changed := true } := ⟨_, rfl, setOsf_osf s, rfl⟩

end Sys2Proof.Machine
end

section
/-! SUPPORT. The trim of the calendar (R373 to R375). -/

namespace Sys2Proof.Machine

/-- A number of 16 bits is read back from its pattern. -/
theorem signedOf_patternOf_16 {v : Int} (hlo : -32768 ≤ v) (hhi : v ≤ 32767) :
    signedOf 16 (patternOf 16 v % 2 ^ 16) = v := by
  simp only [signedOf, patternOf]
  norm_num
  split_ifs <;> omega

/-- A measurement of a time-base source is applied where it is enabled and the source is PTP or Apex. -/
theorem trimApplies_source {s : State} (hen : rdB s Reg.TBC_TRIMCFG_TBEN = true)
    (hsrc : rd s Reg.TBC_DSTS_SRC = 1 ∨ rd s Reg.TBC_DSTS_SRC = 2) : trimApplies s false true = true := by
  simp [trimApplies, hen, hsrc]

section

variable {s : State} {p r : Nat} (happlies : trimApplies s false true = true) (hr : 0 < r)
include happlies hr

theorem trimEnd_outside (h : trimOf p r (rd s Reg.TBC_TRIM_W) < -32768 ∨ 32767 < trimOf p r (rd s Reg.TBC_TRIM_W)) :
    trimEnd s false p r true = event s Ev.trimRange .warning [] := by
  unfold trimEnd
  rw [if_pos (by simp [happlies, hr])]
  exact if_pos h

theorem trimEnd_inside (h : ¬(trimOf p r (rd s Reg.TBC_TRIM_W) < -32768 ∨ 32767 < trimOf p r (rd s Reg.TBC_TRIM_W))) :
    ∃ ps, trimEnd s false p r true =
      event { wr s Reg.TBC_TRIM_TRIM (patternOf 16 (trimOf p r (rd s Reg.TBC_TRIM_W))) with
        rtc := { s.rtc with trimAt := some s.tb.now } } Ev.rtcTrim .notice ps := by
  unfold trimEnd
  rw [if_pos (by simp [happlies, hr])]
  exact ⟨_, if_neg h⟩

end

theorem trimEnd_effect {s : State} {p r : Nat} (hen : rdB s Reg.TBC_TRIMCFG_TBEN = true)
    (hsrc : rd s Reg.TBC_DSTS_SRC = 1 ∨ rd s Reg.TBC_DSTS_SRC = 2) (hr : 0 < r) :
    Completes (exec (.trimMeasurementEnd false p r true) s) fun t =>
      if -32768 ≤ trimOf p r (rd s Reg.TBC_TRIM_W) ∧ trimOf p r (rd s Reg.TBC_TRIM_W) ≤ 32767 then
        signedOf 16 (rd t Reg.TBC_TRIM_TRIM) = trimOf p r (rd s Reg.TBC_TRIM_W) ∧
        t.rtc = { s.rtc with trimAt := some s.tb.now }
      else rd t Reg.TBC_TRIM_TRIM = rd s Reg.TBC_TRIM_TRIM ∧ t.rtc = s.rtc := by
  have hkeep (t : State) (code : Nat) (sev : Sev) (ps : List Nat) :
      rd (event t code sev ps) Reg.TBC_TRIM_TRIM = rd t Reg.TBC_TRIM_TRIM := rd_event (by decide) (by decide) _ _ _ _
  by_cases hout : trimOf p r (rd s Reg.TBC_TRIM_W) < -32768 ∨ 32767 < trimOf p r (rd s Reg.TBC_TRIM_W)
  · refine ⟨_, congrArg Host.Outcome.next (trimEnd_outside (trimApplies_source hen hsrc) hr hout), ?_⟩
    beta_reduce
    rw [if_neg (by omega)]
    exact ⟨hkeep _ _ _ _, event_rtc _ _ _ _⟩
  · obtain ⟨ps, hend⟩ := trimEnd_inside (trimApplies_source hen hsrc) hr hout
    refine ⟨_, congrArg Host.Outcome.next hend, ?_⟩
    beta_reduce
    rw [if_pos (by omega), hkeep]
    refine ⟨?_, event_rtc _ _ _ _⟩
    exact (congrArg (signedOf 16) (rd_wr_same s Reg.TBC_TRIM_TRIM 0 _)).trans
      (signedOf_patternOf_16 (by omega) (by omega))

theorem trimEnd_discarded (s : State) (grid : Bool) (p r : Nat) :
    exec (.trimMeasurementEnd grid p r false) s = .next s := by
  have hend : trimEnd s grid p r false = s := by simp [trimEnd, trimApplies]
  exact congrArg Host.Outcome.next hend

end Sys2Proof.Machine
end

section
/-! SUPPORT. The calendar registers read back the date of their count (R368, R369): the year and the month of a day are
found by the years and months that have begun. -/

namespace Sys2Proof.Machine

/-! ### The year and the month of a day -/

theorem length_filter_lt_range (n k : Nat) : ((List.range n).filter fun i => i < k).length = min n k := by
  induction n with
  | zero => simp
  | succ n ih =>
    rw [List.range_succ, List.filter_append, List.length_append, ih]
    by_cases h : n < k
    · simp [h]; omega
    · simp [h]; omega

/-- Of periods that begin at `f` one after another, `k` is the one a day lies in: those after `a` that have begun are
counted. -/
theorem count_begun {f : Nat → Nat} (hf : Monotone f) {a n k day : Nat} (hlo : f k ≤ day) (hhi : day < f (k + 1))
    (ha : a ≤ k) (hn : k ≤ a + n) : a + ((List.range n).filter fun i => f (a + i + 1) ≤ day).length = k := by
  have hbegun (i : Nat) : f (a + i + 1) ≤ day ↔ i < k - a := by
    refine ⟨fun h => ?_, fun h => (hf (by omega : a + i + 1 ≤ k)).trans hlo⟩
    by_contra hi
    exact absurd (hhi.trans_le (hf (by omega : k + 1 ≤ a + i + 1))) (by omega)
  simp only [hbegun, length_filter_lt_range]
  omega

/-- A year that is a multiple of `n` has one multiple more before the next. -/
theorem multiples_succ (y n : Nat) : (y + 1 + n) / (n + 1) = (y + n) / (n + 1) + if y % (n + 1) = 0 then 1 else 0 := by
  have hdvd : n + 1 ∣ y + n + 1 ↔ y % (n + 1) = 0 := by
    rw [Nat.add_assoc, Nat.dvd_add_left (dvd_refl (n + 1)), Nat.dvd_iff_mod_eq_zero]
  rw [Nat.add_right_comm, Nat.succ_div, if_congr hdvd rfl rfl]

theorem daysBefore_succ (y : Nat) : daysBefore (y + 1) = daysBefore y + if leapYear y then 366 else 365 := by
  have hleap : leapYear y = true ↔ (y % 4 = 0 ∧ y % 100 ≠ 0) ∨ y % 400 = 0 := by simp [leapYear]
  have hcentury : y % 400 = 0 → y % 100 = 0 := by omega
  have hfourth : y % 100 = 0 → y % 4 = 0 := by omega
  have hle : (y + 99) / 100 ≤ 365 * y := by omega
  simp only [daysBefore, multiples_succ y 3, multiples_succ y 99, multiples_succ y 399, hleap]
  generalize (y + 3) / (3 + 1) = a, (y + 99) / (99 + 1) = b, (y + 399) / (399 + 1) = c at *
  split_ifs <;> omega

theorem daysBefore_mono : Monotone daysBefore := monotone_nat_of_le_succ fun y => by
  rw [daysBefore_succ]
  split <;> omega

theorem daysBefore_bounds (y : Nat) : 365 * y ≤ daysBefore y ∧ daysBefore y ≤ 366 * y := by
  induction y with
  | zero => exact ⟨le_rfl, le_rfl⟩
  | succ y ih =>
    rw [daysBefore_succ]
    split <;> omega

theorem yearOf_eq {y day : Nat} (hy : y < 400) (hlo : daysBefore y ≤ day) (hhi : day < daysBefore (y + 1)) :
    yearOf day = y := by
  have hbelow := (daysBefore_bounds y).1
  have habove := (daysBefore_bounds (y + 1)).2
  rw [yearOf]
  exact count_begun daysBefore_mono hlo hhi (by omega) (by omega)

theorem monthBefore_succ (y : Nat) {m : Nat} (hm : 1 ≤ m) : monthBefore y (m + 1) = monthBefore y m + monthDays y m := by
  obtain ⟨k, rfl⟩ := Nat.exists_eq_add_of_le' hm
  simp [monthBefore, List.range_succ]

theorem monthBefore_mono (y : Nat) : Monotone (monthBefore y) := monotone_nat_of_le_succ fun m => by
  rcases m with _ | m
  · exact le_rfl
  · exact (Nat.le_add_right _ _).trans_eq (monthBefore_succ y (Nat.le_add_left 1 m)).symm

/-- The months of a year fill it. -/
theorem monthBefore_thirteen (y : Nat) : monthBefore y 13 = if leapYear y then 366 else 365 := by
  simp only [monthBefore, monthDays]
  cases leapYear y <;> rfl

theorem monthOf_eq {y m rest : Nat} (hm : 1 ≤ m ∧ m ≤ 12) (hlo : monthBefore y m ≤ rest)
    (hhi : rest < monthBefore y (m + 1)) : monthOf y rest = m := by
  have h := count_begun (monthBefore_mono y) (a := 1) (n := 11) hlo hhi hm.1 (by omega)
  simpa only [monthOf, Nat.add_comm 1, Nat.add_assoc] using h

theorem monthDays_le (y m : Nat) : monthDays y m ≤ 31 := by
  simp only [monthDays]
  split_ifs <;> omega

/-! ### The registers -/

theorem exec_rtccntLoRead (s : State) : exec .rtccntLoRead s = .next
    (emit (latchRtc s) (.readData (BitVec.ofNat 64 (rd (latchRtc s) Reg.TBC_RTCCNT_LO_CNT)))) := rfl

/-- The calendar fields as they are latched, the sub-seconds and the weekday left open. -/
theorem latchRtc_reads (s : State) {day y rest m : Nat} (hday : day = s.rtc.secs / 86400) (hy : y = yearOf day)
    (hrest : rest = day - daysBefore y) (hm : m = monthOf y rest) :
    rd (latchRtc s) Reg.TBC_RTCDATE_YEAR = y % 512 ∧ rd (latchRtc s) Reg.TBC_RTCDATE_MONTH = m % 16 ∧
      rd (latchRtc s) Reg.TBC_RTCDATE_DAY = (rest - monthBefore y m + 1) % 32 ∧
      rd (latchRtc s) Reg.TBC_RTCTIME_HOUR = s.rtc.secs % 86400 / 3600 % 32 ∧
      rd (latchRtc s) Reg.TBC_RTCTIME_MIN = s.rtc.secs % 86400 / 60 % 60 % 64 ∧
      rd (latchRtc s) Reg.TBC_RTCTIME_SEC = s.rtc.secs % 86400 % 60 % 64 := by
  subst hm hrest hy hday
  unfold latchRtc
  simp (disch := decide) only [List.foldl_cons, List.foldl_nil, rd_wr_ne, rd_wr_same]
  exact ⟨rfl, rfl, rfl, rfl, rfl, rfl⟩

theorem latchRtc_date {s : State} {y m d h mi sec : Nat} (hy : y < 400) (hm : 1 ≤ m ∧ m ≤ 12)
    (hd : 1 ≤ d ∧ d ≤ monthDays y m) (hh : h < 24) (hmi : mi < 60) (hsec : sec < 60)
    (hsecs : s.rtc.secs = secsOf y m d h mi sec) :
    rd (latchRtc s) Reg.TBC_RTCDATE_YEAR = y ∧ rd (latchRtc s) Reg.TBC_RTCDATE_MONTH = m ∧
      rd (latchRtc s) Reg.TBC_RTCDATE_DAY = d ∧ rd (latchRtc s) Reg.TBC_RTCTIME_HOUR = h ∧
      rd (latchRtc s) Reg.TBC_RTCTIME_MIN = mi ∧ rd (latchRtc s) Reg.TBC_RTCTIME_SEC = sec := by
  have hday : daysBefore y + monthBefore y m + (d - 1) = s.rtc.secs / 86400 := by
    simp only [hsecs, secsOf]
    omega
  have htime : h * 3600 + mi * 60 + sec = s.rtc.secs % 86400 := by
    simp only [hsecs, secsOf]
    omega
  have hsucc := monthBefore_succ y hm.1
  have hlast : monthBefore y (m + 1) ≤ monthBefore y 13 := monthBefore_mono y (by omega)
  have hnext : daysBefore (y + 1) = daysBefore y + monthBefore y 13 := by
    rw [daysBefore_succ, monthBefore_thirteen]
  have hyear := yearOf_eq (y := y) (day := s.rtc.secs / 86400) hy (by omega) (by omega)
  have hmonth := monthOf_eq (y := y) (rest := s.rtc.secs / 86400 - daysBefore y) hm (by omega) (by omega)
  obtain ⟨hyr, hmo, hdy, hhr, hmn, hsc⟩ := latchRtc_reads s rfl hyear.symm rfl hmonth.symm
  have hdays := monthDays_le y m
  rw [hyr, hmo, hdy, hhr, hmn, hsc, ← htime, ← hday]
  omega

/-- A count within the 400 years is the two words latched of it. -/
theorem latchRtc_words {s : State} (h : s.rtc.secs < calRange) :
    rd64 (latchRtc s) Reg.TBC_RTCCNT_LO_CNT Reg.TBC_RTCCNT_HI_CNT = s.rtc.secs := by
  obtain ⟨hlo, hhi⟩ := latchRtc_count s
  have hhi' : rd (latchRtc s) Reg.TBC_RTCCNT_HI_CNT = s.rtc.secs / 2 ^ 32 % 4 := hhi
  simp only [calRange] at h
  simp only [rd64, hlo, hhi']
  omega

theorem secsOf_lt {y m d h mi sec : Nat} (hy : y < 400) (hm : 1 ≤ m ∧ m ≤ 12) (hd : 1 ≤ d ∧ d ≤ monthDays y m)
    (hh : h < 24) (hmi : mi < 60) (hsec : sec < 60) : secsOf y m d h mi sec < calRange := by
  have hsucc := monthBefore_succ y hm.1
  have hlast : monthBefore y (m + 1) ≤ monthBefore y 13 := monthBefore_mono y (by omega)
  have hnext : daysBefore (y + 1) = daysBefore y + monthBefore y 13 := by
    rw [daysBefore_succ, monthBefore_thirteen]
  have hend : daysBefore (y + 1) ≤ daysBefore 400 := daysBefore_mono (by omega)
  have hrange : daysBefore 400 = 146097 := rfl
  simp only [secsOf, calRange]
  omega

/-- Settles O58: SET and its boundary by what is staged, the check by the source, a measurement by its range; a date is
read back from the years and the months that have begun by its day. -/
theorem calendar : Obligations.Calendar := by
  refine ⟨fun s => ⟨fun hp hm => ⟨fun c hc => rtcSet_accepted hp hm hc, fun hc => rtcSet_refused hp hm hc⟩, fun h => ?_,
    fun c h => rtcSetApply_host h, fun utc => ⟨fun h1 h2 => calendarCheck_of_local h1 h2 utc, fun hsrc hset => ?_⟩,
    calendarSecond_effect s, oscillatorStop_effect s, fun p r hen hsrc hr => trimEnd_effect hen hsrc hr,
    fun grid p r => trimEnd_discarded s grid p r, rfl⟩, ?_⟩
  · have happly : rtcSetApply s = s := by simp [rtcSetApply, h]
    exact congrArg Host.Outcome.next happly
  · have hcheck : exec (.calendarCheck utc) s = .next (calendarCheck s utc) := rfl
    rw [hcheck, calendarCheck_of_apex hsrc hset]
    refine ⟨fun h => congrArg _ (if_pos h), fun hosf hle => congrArg _ (if_neg ?_)⟩
    rw [hosf]
    exact fun h => h.elim Bool.false_ne_true (by omega)
  · intro s y m d h mi sec hy hm1 hm2 hd1 hd2 hh hmi hsec hsecs
    obtain ⟨hyear, hmonth, hday, hhour, hmin, hs⟩ := latchRtc_date hy ⟨hm1, hm2⟩ ⟨hd1, hd2⟩ hh hmi hsec hsecs
    have hlt : s.rtc.secs < calRange := hsecs ▸ secsOf_lt hy ⟨hm1, hm2⟩ ⟨hd1, hd2⟩ hh hmi hsec
    have hwords := latchRtc_words hlt
    refine ⟨_, exec_rtccntLoRead s, ?_⟩
    simp only [rd64, rd_emit] at hwords ⊢
    exact ⟨hyear, hmonth, hday, hhour, hmin, hs, hwords⟩

end Sys2Proof.Machine
end

section
/-! SUPPORT. The Event Recorder (R354, R355, R358, R360, R361, R363): what the acceptance of a record leaves of the recorder,
the end of a freeze, the commands and the operating seconds. -/

namespace Sys2Proof.Machine

/-! ### The acceptance of records -/

/-- The recorder apart from what the acceptance of a record changes of it. -/
def recorderRest (s : State) : EvrSt := { s.evr with staging := [], sub := 0, drops := Vector.replicate 4 0 }

theorem recorderRest_evrDrop (s : State) (sev : Sev) : recorderRest (evrDrop s sev) = recorderRest s :=
  ite_keeps (p := recorderRest) rfl rfl

theorem recorderRest_evrQueue (s : State) (r : Rec) : recorderRest (evrQueue s r) = recorderRest s :=
  ite_keeps (p := recorderRest) rfl (recorderRest_evrDrop _ _)

theorem recorderRest_evrStage (s : State) (r : Rec) : recorderRest (evrStage s r) = recorderRest s :=
  ite_keeps (p := recorderRest) rfl (recorderRest_evrDrop _ _)

theorem recorderRest_event (s : State) (code : Nat) (sev : Sev) (ps : List Nat) :
    recorderRest (event s code sev ps) = recorderRest s := by
  unfold event evrAccept
  refine ite_keeps (recorderRest_evrStage _ _) <| ite_keeps (recorderRest_evrDrop _ _) ?_
  exact ite_keeps ((recorderRest_evrStage _ _).trans rfl) ((recorderRest_evrQueue _ _).trans rfl)

theorem evr_log_of_rest {s t : State} (h : recorderRest t = recorderRest s) : t.evr.log = s.evr.log :=
  (congrArg EvrSt.log h :)

theorem frozenAt_of_rest {s t : State} (h : recorderRest t = recorderRest s) : t.evr.frozenAt = s.evr.frozenAt :=
  (congrArg EvrSt.frozenAt h :)

theorem rd_evrDrop {g : Field} {j : Nat} (h : ∀ f ∈ recorderFields, g.id ≠ f.id) (hj : j < 8192) (s : State) (sev : Sev) :
    rd (evrDrop s sev) g j = rd s g j :=
  have hdrop : rd (bump s Reg.EVR_LOSTDROP_DROP (sevCode sev)) g j = rd s g j :=
    rd_wr_of_id_ne (h _ (by simp [recorderFields])) (by have := sevCode_lt sev; omega) hj _ _
  ite_keeps (p := (rd · g j)) hdrop hdrop

theorem rd_evrQueue {g : Field} {j : Nat} (h : ∀ f ∈ recorderFields, g.id ≠ f.id) (hj : j < 8192) (s : State) (r : Rec) :
    rd (evrQueue s r) g j = rd s g j :=
  ite_keeps (p := (rd · g j)) (rd_wr_of_id_ne (h _ (by simp [recorderFields])) (by decide) hj _ _) (rd_evrDrop h hj _ _)

theorem evrDrop_staging (s : State) (sev : Sev) : (evrDrop s sev).evr.staging = s.evr.staging :=
  ite_keeps (p := fun t => t.evr.staging) rfl rfl

theorem evrQueue_staging (s : State) (r : Rec) : (evrQueue s r).evr.staging = s.evr.staging :=
  ite_keeps (p := fun t => t.evr.staging) rfl (evrDrop_staging _ _)

/-- A record accepted with room in the queue, outside recall and a freeze, waits as the last request of class 6 (R354). -/
theorem event_queued {s : State} (hrecall : recalling s = false) (hfrozen : rdB s Reg.EVR_STATUS_FROZEN = false)
    (hsub : s.evr.sub < 256) (hroom : s.nvs.queue.length < 512) (code : Nat) (sev : Sev) (ps : List Nat) :
    event s code sev ps = setQueue { s with evr := { s.evr with sub := s.evr.sub + 1 } }
      (s.nvs.queue ++ [⟨6, .event ⟨code, code / 256, sev, ps.map (BitVec.ofNat 32),
        BitVec.ofNat 32 (rd s Reg.EVR_OPSEC_OPSEC), BitVec.ofNat 24 (rd s Reg.EVR_PCC_PCC), BitVec.ofNat 8 s.evr.sub,
        false, false⟩, .none⟩]) := by
  unfold event evrAccept evrQueue
  rw [if_neg (by simp [hrecall]), if_neg (by omega)]
  simp only [hfrozen, Bool.false_eq_true, if_false]
  exact if_pos hroom

/-! ### The end of a freeze (R361) -/

theorem queue_foldl_evrQueue {l : List Rec} {s : State} (h : s.nvs.queue.length + l.length ≤ 512) :
    (l.foldl evrQueue s).nvs.queue = s.nvs.queue ++ l.map fun r => ⟨6, .event r, .none⟩ := by
  induction l generalizing s with
  | nil => simp
  | cons r l ih =>
    simp only [List.length_cons] at h
    have hroom : (evrQueue s r).nvs.queue = s.nvs.queue ++ [⟨6, .event r, .none⟩] := by
      rw [evrQueue, if_pos (by omega)]
      rfl
    rw [List.foldl_cons, ih (by rw [hroom]; simp; omega), hroom]
    simp

/-- The recorder at the end of a freeze, its staged records not yet moved. -/
def unfrozen (s : State) : State :=
  { wr s Reg.EVR_STATUS_FROZEN 0 with evr := { s.evr with frozenAt := none, drops := Vector.replicate 4 0 } }

theorem rd_unfrozen (s : State) (g : Field) : rd (unfrozen s) g = rd (wr s Reg.EVR_STATUS_FROZEN 0) g := rfl

theorem endFreeze_eq (s : State) : endFreeze s =
    if s.evr.drops.toList.all (· = 0) then evrFlush (unfrozen s)
    else event (evrFlush (unfrozen s)) Ev.eventsDropped .warning s.evr.drops.toList := rfl

theorem recorderRest_evrFlush (s : State) : recorderRest (evrFlush s) = recorderRest s :=
  (foldl_keeps recorderRest recorderRest_evrQueue _ _).trans rfl

theorem recorderRest_endFreeze (s : State) : recorderRest (endFreeze s) = { recorderRest s with frozenAt := none } := by
  have hflush : recorderRest (evrFlush (unfrozen s)) = { recorderRest s with frozenAt := none } := recorderRest_evrFlush _
  rw [endFreeze_eq]
  split
  · exact hflush
  · exact (recorderRest_event _ _ _ _).trans hflush

theorem endFreeze_log (s : State) : (endFreeze s).evr.log = s.evr.log :=
  (congrArg EvrSt.log (recorderRest_endFreeze s) :)

theorem endFreeze_frozenAt (s : State) : (endFreeze s).evr.frozenAt = none :=
  (congrArg EvrSt.frozenAt (recorderRest_endFreeze s) :)

theorem rd_evrFlush {g : Field} (h : ∀ f ∈ recorderFields, g.id ≠ f.id) (s : State) : rd (evrFlush s) g = rd s g :=
  (foldl_keeps (rd · g) (fun t r => rd_evrQueue h (by decide) t r) _ _).trans
    (rd_wr_of_id_ne (h _ (by simp [recorderFields])) (by decide) (by decide) { s with evr := { s.evr with staging := [] } } 0)

theorem rd_endFreeze {g : Field} (h : ∀ f ∈ recorderFields, g.id ≠ f.id) (s : State) :
    rd (endFreeze s) g = rd (wr s Reg.EVR_STATUS_FROZEN 0) g := by
  rw [endFreeze_eq]
  exact ite_keeps (p := (rd · g)) (rd_evrFlush h _) ((rd_event h (by decide) _ _ _ _).trans (rd_evrFlush h _))

theorem endFreeze_frozen (s : State) : rd (endFreeze s) Reg.EVR_STATUS_FROZEN = 0 :=
  (rd_endFreeze (by decide) s).trans (rd_wr_same _ _ _ _)

theorem evrFlush_staging (s : State) : (evrFlush s).evr.staging = [] :=
  foldl_keeps (fun t => t.evr.staging) evrQueue_staging s.evr.staging
    (wr { s with evr := { s.evr with staging := [] } } Reg.EVR_STATUS_STAGED 0)

/-- Outside recall a record that is accepted when no freeze is in place is not staged. -/
theorem event_staging {s : State} (hrecall : recalling s = false) (hfrozen : rd s Reg.EVR_STATUS_FROZEN = 0) (code : Nat)
    (sev : Sev) (ps : List Nat) : (event s code sev ps).evr.staging = s.evr.staging := by
  have hthawed : rdB s Reg.EVR_STATUS_FROZEN = false := by simp [rdB, hfrozen]
  unfold event evrAccept
  rw [if_neg (by simp [hrecall])]
  refine ite_keeps (p := fun t => t.evr.staging) (evrDrop_staging _ _) ?_
  simp only [hthawed, Bool.false_eq_true, if_false]
  exact (evrQueue_staging _ _).trans rfl

theorem recalling_evrFlush (s : State) : recalling (evrFlush (unfrozen s)) = recalling s :=
  recalling_of_fields
    ((rd_evrFlush (by decide) _).trans <| (rd_unfrozen s _).trans (rd_wr_ne (by decide) s 0))
    ((rd_evrFlush (by decide) _).trans <| (rd_unfrozen s _).trans (rd_wr_ne (by decide) s 0))

theorem endFreeze_staging {s : State} (hrecall : recalling s = false) : (endFreeze s).evr.staging = [] := by
  rw [endFreeze_eq]
  refine ite_keeps (p := fun t => t.evr.staging) (evrFlush_staging _) ((event_staging ?_ ?_ _ _ _).trans (evrFlush_staging _))
  · rw [recalling_evrFlush, hrecall]
  · exact (rd_evrFlush (by decide) _).trans <| (rd_unfrozen s _).trans (rd_wr_same s _ 0 0)

/-- With no record dropped the staged records are the requests, in order. -/
theorem endFreeze_queue {s : State} (hqueue : s.nvs.queue = []) (hdrops : s.evr.drops = Vector.replicate 4 0)
    (hlen : s.evr.staging.length ≤ 512) : (endFreeze s).nvs.queue = s.evr.staging.map fun r => ⟨6, .event r, .none⟩ := by
  have hnone : (s.evr.drops.toList.all (· = 0)) = true := by rw [hdrops]; decide
  rw [endFreeze_eq, if_pos hnone]
  refine (queue_foldl_evrQueue (l := s.evr.staging) ?_).trans ?_
  · simpa [unfrozen, hqueue] using hlen
  · simp [unfrozen, hqueue]

/-! ### The commands (R358, R360, R363) -/

theorem evrCmd_accepted {s : State} (hp : rdB s Reg.EVR_CMDSTS_PEND = false) (hm : modeIs s ≠ .test)
    (f : State → State) : evrCmd s f = f s := by
  simp [evrCmd, hp, hm]

theorem evrEnd_reads (s : State) (code rsn : Nat) :
    rd (evrEnd s code rsn) Reg.EVR_CMDSTS_CC = code % 2 ^ 8 ∧ rd (evrEnd s code rsn) Reg.EVR_CMDSTS_RSN = rsn % 2 ^ 8 ∧
      rd (evrEnd s code rsn) Reg.EVR_CMDSTS_PEND = 0 :=
  setStatus_reads s code rsn (by decide) (by decide) (by decide)

section

variable {s : State} (hp : rdB s Reg.EVR_CMDSTS_PEND = false) (hm : modeIs s ≠ .test)
include hp hm

theorem freeze_effect (hr : modeIs s ≠ .recall) (hs : modeIs s ≠ .save) : Completes (exec .freeze s) fun t =>
    rd t Reg.EVR_STATUS_FROZEN = 1 ∧ rd t Reg.EVR_CMDSTS_CC = CC.done ∧ rd t Reg.EVR_CMDSTS_PEND = 0 ∧
    t.evr.log = s.evr.log ∧ t.evr.frozenAt = some (s.evr.frozenAt.getD (rd s Reg.EVR_OPSEC_OPSEC)) := by
  have hfreeze : exec .freeze s = .next (evrEnd (wr { s with evr := { s.evr with
      frozenAt := some (s.evr.frozenAt.getD (rd s Reg.EVR_OPSEC_OPSEC)) } } Reg.EVR_STATUS_FROZEN 1) CC.done 0) := by
    refine congrArg Host.Outcome.next ((evrCmd_accepted hp hm freeze).trans ?_)
    simp only [freeze, hr, hs]
    cases s.evr.frozenAt <;> rfl
  obtain ⟨hcc, -, hpend⟩ := evrEnd_reads (wr { s with evr := { s.evr with
      frozenAt := some (s.evr.frozenAt.getD (rd s Reg.EVR_OPSEC_OPSEC)) } } Reg.EVR_STATUS_FROZEN 1) CC.done 0
  exact ⟨_, hfreeze, (rd_setStatus_ne (by decide) (by decide) (by decide) _ _ _).trans (rd_wr_same _ _ _ _), hcc, hpend,
    rfl, rfl⟩

theorem freeze_refused (h : modeIs s = .recall ∨ modeIs s = .save) : Completes (exec .freeze s) fun t =>
    rd t Reg.EVR_CMDSTS_CC = CC.failRefused ∧ rd t Reg.EVR_CMDSTS_RSN = Rsn.badMode ∧ t.evr = s.evr := by
  have hfreeze : freeze s = evrEnd s CC.failRefused Rsn.badMode := if_pos (by simpa using h)
  obtain ⟨hcc, hrsn, -⟩ := evrEnd_reads s CC.failRefused Rsn.badMode
  exact ⟨_, congrArg Host.Outcome.next ((evrCmd_accepted hp hm freeze).trans hfreeze), hcc, hrsn, rfl⟩

theorem thaw_effect (hf : rdB s Reg.EVR_STATUS_FROZEN = true) (hrecall : recalling s = false) :
    Completes (exec .thaw s) fun t => rd t Reg.EVR_STATUS_FROZEN = 0 ∧ rd t Reg.EVR_CMDSTS_CC = CC.done ∧
      t.evr.frozenAt = none ∧ t.evr.staging = [] ∧
      (s.nvs.queue = [] → s.evr.drops = Vector.replicate 4 0 → s.evr.staging.length ≤ 512 →
        t.nvs.queue = s.evr.staging.map fun r => ⟨6, .event r, .none⟩) := by
  have hthaw : thaw s = evrEnd (endFreeze s) CC.done 0 := if_pos hf
  obtain ⟨hcc, -, -⟩ := evrEnd_reads (endFreeze s) CC.done 0
  exact ⟨_, congrArg Host.Outcome.next ((evrCmd_accepted hp hm thaw).trans hthaw),
    (rd_setStatus_ne (by decide) (by decide) (by decide) _ _ _).trans (endFreeze_frozen s), hcc, endFreeze_frozenAt s,
    endFreeze_staging hrecall, endFreeze_queue⟩

theorem thaw_refused (hf : rdB s Reg.EVR_STATUS_FROZEN = false) : Completes (exec .thaw s) fun t =>
    rd t Reg.EVR_CMDSTS_CC = CC.failRefused ∧ rd t Reg.EVR_CMDSTS_RSN = Rsn.notFrozen ∧ t.evr = s.evr := by
  have hthaw : thaw s = evrEnd s CC.failRefused Rsn.notFrozen := if_neg (by simp [hf])
  obtain ⟨hcc, hrsn, -⟩ := evrEnd_reads s CC.failRefused Rsn.notFrozen
  exact ⟨_, congrArg Host.Outcome.next ((evrCmd_accepted hp hm thaw).trans hthaw), hcc, hrsn, rfl⟩

end

/-- Both counts of every severity read 0. -/
theorem rd_clearCounts (s : State) {i : Nat} (hi : i < 4) :
    rd (clearCounts s) Reg.EVR_LOSTDROP_LOST i = 0 ∧ rd (clearCounts s) Reg.EVR_LOSTDROP_DROP i = 0 := by
  unfold clearCounts
  interval_cases i <;>
    simp (disch := decide) only [List.range_succ, List.range_zero, List.nil_append, List.foldl_append, List.foldl_cons,
      List.foldl_nil, rd_wr_ne, rd_wr_same, Nat.zero_mod, and_self]

theorem clearCounts_effect {s : State} (hp : rdB s Reg.EVR_CMDSTS_PEND = false) (hm : modeIs s ≠ .test) :
    Completes (exec .clearCounts s) fun t => rd t Reg.EVR_CMDSTS_CC = CC.done ∧
      ∀ i, i < 4 → rd t Reg.EVR_LOSTDROP_LOST i = 0 ∧ rd t Reg.EVR_LOSTDROP_DROP i = 0 := by
  obtain ⟨hcc, -, -⟩ := evrEnd_reads (clearCounts s) CC.done 0
  refine ⟨_, congrArg Host.Outcome.next (evrCmd_accepted hp hm _), hcc, fun i hi => ?_⟩
  obtain ⟨hlost, hdrop⟩ := rd_clearCounts s hi
  have hkey {g f : Field} (h : g.id ≠ f.id) : g.key i ≠ f.key 0 := key_ne_of_id h (by decide) (by omega)
  exact ⟨(rd_setStatus_ne (hkey (by decide)) (hkey (by decide)) (hkey (by decide)) _ _ _).trans hlost,
    (rd_setStatus_ne (hkey (by decide)) (hkey (by decide)) (hkey (by decide)) _ _ _).trans hdrop⟩

/-- The log without a record. -/
def withoutLog (s : State) : State := { s with evr := { s.evr with log := [], placing := none } }

/-- The log emptied by CLEAR_LOG, before what is recorded of it. -/
def logEmptied (s : State) : State :=
  countSub (wr (wr (withoutLog (evrDrain s)) Reg.EVR_HEAD_HEAD 0) Reg.EVR_CURSOR_CURSOR 0)

/-- An emptied log with LOG_CLEARED and its TIME_ANCHOR recorded. -/
def clearingRecorded (u : State) : State := recordAnchor (event u Ev.logCleared .notice []) (anchorWords u)

theorem clearLog_eq {s : State} (hm : modeIs s = .halt) (hf : rdB s Reg.EVR_STATUS_FROZEN = false) :
    clearLog s = wr (clearingRecorded (logEmptied s)) Reg.EVR_CMDSTS_PEND 1 := by
  unfold clearLog
  rw [if_neg (by simp [hm]), if_neg (by simp [hf])]
  rfl

theorem logEmptied_reads (s : State) :
    rd (logEmptied s) Reg.EVR_HEAD_HEAD = 0 ∧ rd (logEmptied s) Reg.EVR_CURSOR_CURSOR = 0 :=
  rd_wr_wr (lo := Reg.EVR_HEAD_HEAD) (hi := Reg.EVR_CURSOR_CURSOR) (by decide) (withoutLog (evrDrain s)) 0 0

theorem logEmptied_log (s : State) : (logEmptied s).evr.log = [] := rfl

theorem rd_clearingRecorded {g : Field} (h : ∀ f ∈ recorderFields, g.id ≠ f.id) (u : State) :
    rd (clearingRecorded u) g = rd u g := (rd_event h (by decide) _ _ _ _).trans (rd_event h (by decide) _ _ _ _)

theorem clearingRecorded_log (u : State) : (clearingRecorded u).evr.log = u.evr.log :=
  (evr_log_of_rest (recorderRest_event _ _ _ _)).trans (evr_log_of_rest (recorderRest_event u Ev.logCleared .notice []))

theorem clearLog_effect {s : State} (hp : rdB s Reg.EVR_CMDSTS_PEND = false) (hm : modeIs s = .halt)
    (hf : rdB s Reg.EVR_STATUS_FROZEN = false) : Completes (exec .clearLog s) fun t => t.evr.log = [] ∧
      rd t Reg.EVR_HEAD_HEAD = 0 ∧ rd t Reg.EVR_CURSOR_CURSOR = 0 ∧ rd t Reg.EVR_CMDSTS_PEND = 1 := by
  have hclear := (evrCmd_accepted hp (by simp [hm]) clearLog).trans (clearLog_eq hm hf)
  refine ⟨_, congrArg Host.Outcome.next hclear, ?_⟩
  obtain ⟨hhead, hcursor⟩ := logEmptied_reads s
  rw [← rd_clearingRecorded (by decide)] at hhead hcursor
  have hlog : (clearingRecorded (logEmptied s)).evr.log = [] :=
    (clearingRecorded_log _).trans (logEmptied_log s)
  generalize clearingRecorded (logEmptied s) = u at *
  exact ⟨hlog, (rd_wr_ne (by decide) _ _).trans hhead, (rd_wr_ne (by decide) _ _).trans hcursor, rd_wr_same _ _ _ _⟩

theorem freezeTimeout_effect {s : State} (h : freezeOver s = true) : Completes (exec .freezeTimeout s) fun t =>
    rd t Reg.EVR_STATUS_FROZEN = 0 ∧ t.evr.frozenAt = none ∧ t.evr.log = s.evr.log := by
  have hrest := recorderRest_event (endFreeze s) Ev.freezeTimeout .notice []
  exact ⟨_, congrArg Host.Outcome.next (if_pos h), (rd_event (by decide) (by decide) _ _ _ _).trans (endFreeze_frozen s),
    (frozenAt_of_rest hrest).trans (endFreeze_frozenAt s), (evr_log_of_rest hrest).trans (endFreeze_log s)⟩

theorem freezeOver_false {s : State} (h : rdB s Reg.EVR_STATUS_FROZEN = false ∨ ∃ k, s.evr.frozenAt = some k ∧
    rd s Reg.EVR_OPSEC_OPSEC < k + max 1 (rd s Reg.EVR_CFG_FRZMAX)) : freezeOver s = false := by
  rcases h with hf | ⟨k, hk, hlt⟩
  · simp [freezeOver, hf]
  · simp [freezeOver, hk, hlt]

theorem cursorWrite_effect (s : State) (v : BitVec 15) : Completes (exec (.cursorWrite v) s) fun t =>
    rd t Reg.EVR_CURSOR_CURSOR = v.toNat ∧ OnlyFields s t [(Reg.EVR_CURSOR_CURSOR, 0)] :=
  ⟨_, rfl, (rd_wr_same _ _ _ _).trans (Nat.mod_eq_of_lt v.isLt), rfl, fieldsBut_wr (by simp) _ _⟩

/-! ### Time anchors and the operating seconds (R354, R355) -/

/-- The anchor that was due is no longer. -/
def anchorTaken (s : State) : State := { s with evr := { s.evr with anchorDue := none } }

theorem timeAnchor_effect {s : State} {l : List Nat} (hdue : s.evr.anchorDue = some l) (hrecall : recalling s = false)
    (hf : rdB s Reg.EVR_STATUS_FROZEN = false) (hsub : s.evr.sub < 256) (hq : s.nvs.queue = []) :
    Completes (exec .timeAnchor s) fun t => t.evr.anchorDue = none ∧
      t.nvs.queue = [⟨6, .event ⟨Ev.timeAnchor, Ev.timeAnchor / 256, .notice, l.map (BitVec.ofNat 32),
        BitVec.ofNat 32 (rd s Reg.EVR_OPSEC_OPSEC), BitVec.ofNat 24 (rd s Reg.EVR_PCC_PCC), BitVec.ofNat 8 s.evr.sub,
        false, false⟩, .none⟩] ∧ t.evr.sub = s.evr.sub + 1 := by
  have hexec : exec .timeAnchor s = .next (event (anchorTaken s) Ev.timeAnchor .notice l) :=
    congrArg Host.Outcome.next (by simp only [hdue]; rfl)
  have hroom : (anchorTaken s).nvs.queue.length < 512 := by simp [anchorTaken, hq]
  have hqueued := event_queued (s := anchorTaken s) hrecall hf hsub hroom Ev.timeAnchor .notice l
  refine ⟨_, hexec.trans (congrArg Host.Outcome.next hqueued), rfl, ?_, rfl⟩
  exact (congrArg (· ++ _) hq :)

/-- A second of operation makes an anchor due (R355): the calendar was changed, or the time of the next has come. -/
def anchorFalls (s : State) : Bool :=
  s.rtc.changed || (match s.evr.anchorAt with
    | some t => decide (t ≤ (rd s Reg.EVR_OPSEC_OPSEC + 1) % 2 ^ 32)
    | none => false)

theorem anchorFalls_iff (s : State) : anchorFalls s = true ↔ s.rtc.changed = true ∨
    ∃ a, s.evr.anchorAt = some a ∧ a ≤ (rd s Reg.EVR_OPSEC_OPSEC + 1) % 2 ^ 32 := by
  cases h : s.evr.anchorAt <;> simp [anchorFalls, h]

/-- The second counted, the sub-seconds of the calendar taken where an anchor is due. -/
def secondCounted (s : State) : State :=
  wr (if anchorFalls s then countSub s else s) Reg.EVR_OPSEC_OPSEC ((rd s Reg.EVR_OPSEC_OPSEC + 1) % 2 ^ 32)

theorem opsecAdvance_eq {s : State} (hrecall : recalling s = false) : opsecAdvance s = { secondCounted s with
    evr := { (secondCounted s).evr with
      sub := 0
      anchorDue := if anchorFalls s then some (anchorWords (secondCounted s)) else (secondCounted s).evr.anchorDue
      anchorAt := if anchorFalls s then some ((rd s Reg.EVR_OPSEC_OPSEC + 1) % 2 ^ 32 + anchorSeconds (secondCounted s))
        else (secondCounted s).evr.anchorAt }
    rtc := { (secondCounted s).rtc with changed := false } } := by
  unfold opsecAdvance
  rw [if_neg (by simp [hrecall])]
  rfl

theorem secondCounted_evr (s : State) : (secondCounted s).evr = s.evr := ite_keeps (p := State.evr) rfl rfl

theorem secondCounted_opsec (s : State) :
    rd (secondCounted s) Reg.EVR_OPSEC_OPSEC = (rd s Reg.EVR_OPSEC_OPSEC + 1) % 2 ^ 32 :=
  (rd_wr_same _ _ _ _).trans (Nat.mod_mod _ _)

theorem secondCounted_rtc {s : State} (h : anchorFalls s = false) : (secondCounted s).rtc = s.rtc := by
  simp [secondCounted, h]

/-- An anchor has the count of the calendar and of its sub-seconds. -/
theorem anchorWords_secondCounted (s : State) : anchorWords (secondCounted s) =
    anchorWords { s with rtc := { s.rtc with sub := (secondCounted s).rtc.sub } } := by
  have hsecs : (secondCounted s).rtc.secs = s.rtc.secs := ite_keeps (p := fun t => t.rtc.secs) rfl rfl
  have hkeep {g : Field} (hg : g.key 0 ≠ Reg.EVR_OPSEC_OPSEC.key 0) : rd (secondCounted s) g = rd s g :=
    (rd_wr_ne hg _ _).trans (ite_keeps (p := (rd · g)) rfl rfl)
  have hsrc : rd (secondCounted s) Reg.TBC_RTCSTS_SRC = rd s Reg.TBC_RTCSTS_SRC := hkeep (by decide)
  have hosf : rdB (secondCounted s) Reg.TBC_RTCSTS_OSF = rdB s Reg.TBC_RTCSTS_OSF := rdB_of_rd (hkeep (by decide))
  simp only [anchorWords, hsecs, hsrc, hosf]
  rfl

theorem opsecAdvance_effect {s : State} (hrecall : recalling s = false) : Completes (exec .opsecAdvance s) fun t =>
    rd t Reg.EVR_OPSEC_OPSEC = (rd s Reg.EVR_OPSEC_OPSEC + 1) % 2 ^ 32 ∧ t.evr.sub = 0 ∧ t.rtc.changed = false ∧
    ((s.rtc.changed = true ∨ ∃ a, s.evr.anchorAt = some a ∧ a ≤ rd t Reg.EVR_OPSEC_OPSEC) →
      t.evr.anchorDue = some (anchorWords { s with rtc := { s.rtc with sub := t.rtc.sub } })) ∧
    (s.rtc.changed = false → (∀ a, s.evr.anchorAt = some a → rd t Reg.EVR_OPSEC_OPSEC < a) →
      t.evr.anchorDue = s.evr.anchorDue ∧ t.rtc = s.rtc) ∧ t.evr.log = s.evr.log := by
  have hevr := secondCounted_evr s
  have hopsec : rd (opsecAdvance s) Reg.EVR_OPSEC_OPSEC = (rd s Reg.EVR_OPSEC_OPSEC + 1) % 2 ^ 32 := by
    rw [opsecAdvance_eq hrecall]
    exact secondCounted_opsec s
  refine ⟨_, rfl, hopsec, ?_⟩
  rw [hopsec, opsecAdvance_eq hrecall]
  refine ⟨rfl, rfl, fun h => ?_, fun hc ha => ?_, (congrArg EvrSt.log hevr :)⟩
  · exact (if_pos ((anchorFalls_iff s).2 h)).trans (congrArg some (anchorWords_secondCounted s))
  · have hnot : anchorFalls s = false := by
      rw [Bool.eq_false_iff]
      intro h
      rcases (anchorFalls_iff s).1 h with h | ⟨a, h1, h2⟩
      · rw [hc] at h; cases h
      · exact absurd (ha a h1) (by omega)
    refine ⟨(if_neg (by simp [hnot])).trans (congrArg EvrSt.anchorDue hevr :), ?_⟩
    rw [secondCounted_rtc hnot]
    exact (congrArg (fun c => { s.rtc with changed := c }) hc.symm :)

/-- Settles O57: the commands past the checks they share, the end of a freeze by the records staged, an anchor by what
was captured, and a second by whether an anchor falls due. -/
theorem recorderCommands : Obligations.RecorderCommands := by
  refine fun s => ⟨fun hp hm => ⟨freeze_effect hp hm, freeze_refused hp hm, thaw_effect hp hm, thaw_refused hp hm,
    clearCounts_effect hp hm, clearLog_effect hp⟩, freezeTimeout_effect, fun h => ?_, cursorWrite_effect s, fun h => ?_,
    fun l => timeAnchor_effect, fun h => ?_, opsecAdvance_effect⟩
  · exact congrArg Host.Outcome.next (if_neg (by simp [freezeOver_false h]))
  · exact congrArg Host.Outcome.next (by simp only [h])
  · exact congrArg Host.Outcome.next (if_pos h)

end Sys2Proof.Machine
end

section
/-! SUPPORT. The write engine (R336, R337, R342, R343): the request it takes next, what the start and the end of a write
leave in the store, and what recall reads of a record. -/

namespace Sys2Proof.Machine

/-! ### The reports of writes -/

theorem nvsFail_nvs (s : State) (cls code reason : Nat) : (nvsFail s cls code reason).nvs = s.nvs :=
  ite_keeps (p := State.nvs) rfl rfl

theorem slotWritten_nvs (s : State) (code : Nat) (prog : Bool) : (slotWritten s code prog).nvs = s.nvs := by
  unfold slotWritten
  extract_lets waits u
  have hu : u.nvs = s.nvs := ite_keeps (p := State.nvs) rfl rfl
  exact ite_keeps (p := State.nvs) rfl (ite_keeps (p := State.nvs) hu hu)

theorem calWritten_nvs (s : State) (code reason : Nat) : (calWritten s code reason).nvs = s.nvs := by
  unfold calWritten
  refine ite_keeps (p := State.nvs) ?_ rfl
  dsimp only
  split
  · rfl
  · exact ite_keeps (p := State.nvs) rfl rfl

/-- The report of a write changes nothing in the store. -/
theorem nvsReport_nvs (s : State) (cls : Nat) (who : Requester) (code reason : Nat) :
    (nvsReport s cls who code reason).nvs = s.nvs := by
  have h := nvsFail_nvs s cls code reason
  unfold nvsReport
  generalize nvsFail s cls code reason = u at *
  cases who with
  | prepare =>
    simp only [setStatus_nvs, wr_nvs]
    exact ite_keeps (p := State.nvs) h h
  | slotProg | slotFacet => exact (slotWritten_nvs _ _ _).trans h
  | clearRetire | claim => exact ite_keeps (p := State.nvs) h h
  | cal => exact (calWritten_nvs _ _ _).trans h
  | _ => exact h

/-- The report of a write changes nothing in the recorder. -/
theorem nvsReport_evr (s : State) (cls : Nat) (who : Requester) (code reason : Nat) :
    (nvsReport s cls who code reason).evr = s.evr :=
  StoreBlind.nvsReport (p := State.evr) ⟨fun _ _ _ _ => rfl, fun _ _ => rfl, fun _ _ => rfl, fun _ _ => rfl, fun _ _ _ => rfl,
    fun _ _ => rfl⟩ s cls who code reason

/-! ### The request taken next (R342) -/

/-- The request of a class that is taken: a suspended one before a queued one. -/
def pickReq (susp queue : List WriteReq) (c : Nat) : Option (WriteReq × Bool) :=
  match susp.find? (·.cls = c) with
  | some r => some (r, true)
  | none => (queue.find? (·.cls = c)).map fun r => (r, false)

theorem nextReq_eq (susp queue : List WriteReq) : nextReq susp queue = [1, 2, 3, 4, 5, 6, 7].findSome? (pickReq susp queue) :=
  rfl

theorem pickReq_some {susp queue : List WriteReq} {c : Nat} {r : WriteReq} {b : Bool}
    (h : pickReq susp queue c = some (r, b)) : r ∈ susp ++ queue ∧ r.cls = c := by
  unfold pickReq at h
  split at h
  next x hx =>
    cases h
    exact ⟨List.mem_append_left _ (List.mem_of_find?_eq_some hx), by simpa using List.find?_some hx⟩
  next hx =>
    obtain ⟨q, hq, he⟩ := Option.map_eq_some_iff.1 h
    cases he
    exact ⟨List.mem_append_right _ (List.mem_of_find?_eq_some hq), by simpa using List.find?_some hq⟩

theorem pickReq_none {susp queue : List WriteReq} {c : Nat} (h : pickReq susp queue c = none) {q : WriteReq}
    (hq : q ∈ susp ++ queue) : q.cls ≠ c := by
  unfold pickReq at h
  split at h
  · cases h
  next hx =>
    rcases List.mem_append.1 hq with hq | hq
    · simpa using List.find?_eq_none.1 hx q hq
    · simpa using List.find?_eq_none.1 (Option.map_eq_none_iff.1 h) q hq

/-- The request taken next is held, and none is of a lower class. -/
theorem nextReq_lowest {susp queue : List WriteReq} {r : WriteReq} {b : Bool} (h : nextReq susp queue = some (r, b)) :
    r ∈ susp ++ queue ∧ ∀ q ∈ susp ++ queue, 1 ≤ q.cls → q.cls ≤ 7 → r.cls ≤ q.cls := by
  rw [nextReq_eq, List.findSome?_eq_some_iff] at h
  obtain ⟨before, c, after, hclasses, hpick, hnone⟩ := h
  obtain ⟨hmem, hcls⟩ := pickReq_some hpick
  refine ⟨hmem, fun q hq hlo hhi => ?_⟩
  by_contra hlt
  have hsorted : (before ++ c :: after).Pairwise (· < ·) := hclasses ▸ by decide
  have hall : q.cls ∈ before ++ c :: after := by
    rw [← hclasses]
    simp only [List.mem_cons, List.not_mem_nil, or_false]
    omega
  have hafter := (List.pairwise_cons.1 (List.pairwise_append.1 hsorted).2.1).1
  rcases List.mem_append.1 hall with hb | hc
  · exact pickReq_none (hnone _ hb) hq rfl
  · rcases List.mem_cons.1 hc with he | ha
    · omega
    · have := hafter _ ha
      omega

/-! ### The start of a write (R342) -/

theorem sameRecord_captureAtStart (s : State) (r : WriteReq) (w : WriteWhat) :
    sameRecord w (captureAtStart s r) = sameRecord w r.what := by
  have htype : reqType (captureAtStart s r) = reqType r.what := by
    unfold captureAtStart
    split <;> simp_all [reqType]
  simp only [sameRecord, htype]

theorem captureAtStart_record {s : State} {r : WriteReq} {ty : Nat} {d : RecData} (h : r.what = .record ty d) :
    ∃ d', captureAtStart s r = .record ty d' := by
  unfold captureAtStart
  split <;> simp_all

/-- A write of a record that starts with no other write of it suspended. -/
theorem beginWrite_record {s : State} {r : WriteReq} {ty : Nat} {d : RecData} (hwhat : r.what = .record ty d)
    {susp : List WriteReq} (hsusp : susp = s.nvs.susp ++ s.nvs.cur.toList)
    (hother : ∀ o ∈ susp, sameRecord o.what r.what = false) :
    (beginWrite s r false).nvs.cur = some { r with what := captureAtStart s r } ∧
      (beginWrite s r false).nvs.queue = s.nvs.queue.erase r ∧ (beginWrite s r false).nvs.susp = susp := by
  have hnone : (susp.filter fun o => sameRecord o.what (captureAtStart s r)) = [] := by
    simp only [sameRecord_captureAtStart]
    exact List.filter_eq_nil_iff.2 fun o ho => by simp [hother o ho]
  have hkept : (susp.filter fun o => !sameRecord o.what (captureAtStart s r)) = susp := by
    simp only [sameRecord_captureAtStart]
    exact List.filter_eq_self.2 fun o ho => by simp [hother o ho]
  obtain ⟨d', hd'⟩ := captureAtStart_record (s := s) hwhat
  rw [hd'] at hnone hkept
  unfold beginWrite
  cases hcur : s.nvs.cur with
  | none =>
    obtain rfl : susp = s.nvs.susp := by simpa [hcur] using hsusp
    simp only [Bool.false_eq_true, if_false, hd', hnone, hkept, List.foldl_nil]
    exact ⟨rfl, rfl, rfl⟩
  | some c =>
    obtain rfl : susp = s.nvs.susp ++ [c] := by simpa [hcur] using hsusp
    simp only [Bool.false_eq_true, if_false, hd', hnone, hkept, List.foldl_nil]
    exact ⟨rfl, rfl, rfl⟩

theorem nvsStart_of_none {s : State} (h : nextReq s.nvs.susp s.nvs.queue = none) : nvsStart s = s := by
  simp [nvsStart, h]

section

variable {s : State} {r : WriteReq} {ty : Nat} {d : RecData} (hnext : nextReq s.nvs.susp s.nvs.queue = some (r, false))
  (hwhat : r.what = .record ty d)
include hnext

theorem nvsStart_waits {c : WriteReq} (hcur : s.nvs.cur = some c) (hle : c.cls ≤ r.cls) : exec .nvsWriteStart s = .next s := by
  have hstart : nvsStart s = s := by simp [nvsStart, hnext, startsNow, hcur, hle]
  exact congrArg Host.Outcome.next hstart

include hwhat

theorem nvsStart_idle (hcur : s.nvs.cur = none) (hsusp : s.nvs.susp = []) : Completes (exec .nvsWriteStart s) fun t =>
    t.nvs.cur = some { r with what := captureAtStart s r } ∧ t.nvs.queue = s.nvs.queue.erase r ∧ t.nvs.susp = [] := by
  have hstart : nvsStart s = beginWrite s r false := by simp [nvsStart, hnext, startsNow, hcur]
  exact ⟨_, congrArg Host.Outcome.next hstart, beginWrite_record hwhat (susp := []) (by simp [hcur, hsusp]) (by simp)⟩

theorem nvsStart_suspends {c : WriteReq} (hcur : s.nvs.cur = some c) (hlt : r.cls < c.cls)
    (hsame : sameRecord c.what r.what = false) (hsusp : s.nvs.susp = []) :
    Completes (exec .nvsWriteStart s) fun t =>
      t.nvs.cur = some { r with what := captureAtStart s r } ∧ t.nvs.queue = s.nvs.queue.erase r ∧ t.nvs.susp = [c] := by
  have hstart : nvsStart s = beginWrite s r false := by simp [nvsStart, hnext, startsNow, hcur, hlt]
  exact ⟨_, congrArg Host.Outcome.next hstart, beginWrite_record hwhat (susp := [c]) (by simp [hcur, hsusp])
    (by simpa using hsame)⟩

end

/-! ### What recall reads of a record (R337, R338) -/

theorem seqNewer_succ (x : BitVec 32) : seqNewer (x + 1#32) x = true := by simp [seqNewer]

theorem seqNewer_of_succ (x : BitVec 32) : seqNewer x (x + 1#32) = false := by simp [seqNewer]

/-- The copy written becomes the newest valid one, whatever the two copies held. -/
theorem pairNewest_pairWrite (p : PRec) (d : RecData) : (pairNewest (pairWrite p d)).map (·.data) = some d := by
  obtain ⟨a, b, conflict⟩ := p
  rcases a with _ | ⟨sa, da, va, ua⟩ <;> rcases b with _ | ⟨sb, db, vb, ub⟩
  · rfl
  · cases vb <;> simp [pairWrite, pairWritesB, pairNextSeq, pairNewest, seqNewer_of_succ]
  · cases va <;> simp [pairWrite, pairWritesB, pairNextSeq, pairNewest, seqNewer_succ]
  · cases va <;> cases vb <;> cases hn : seqNewer sb sa <;>
      simp [pairWrite, pairWritesB, pairNextSeq, pairNewest, seqNewer_of_succ, seqNewer_succ, hn]

theorem recRead_of_recs {s t : State} (h : t.nvs.recs = s.nvs.recs) (ty : Nat) : recRead t ty = recRead s ty := by
  simp only [recRead, recGet, h]

theorem recRead_recWrite (s : State) (ty : Nat) (d : RecData) : recRead (recWrite s ty d) ty = some d := by
  have hget (p : PRec) : recGet (recPut s ty p) ty = p := by simp [recGet, recPut]
  simp only [recRead, recWrite, hget, pairNewest_pairWrite]

theorem recRead_recWrite_ne {ty x : Nat} (h : x ≠ ty) (s : State) (d : RecData) :
    recRead (recWrite s ty d) x = recRead s x := by
  simp only [recRead, recGet, recWrite, recPut, tget_tput_ne h]

/-! ### The end of a write (R336, R343) -/

/-- The store with no write in progress. -/
def withoutCur (s : State) : State := { s with nvs := { s.nvs with cur := none } }

theorem nvsFinish_of_some {s : State} {r : WriteReq} (h : s.nvs.cur = some r) :
    nvsFinish s = nvsReport (applyWrite (withoutCur s) r.what) r.cls r.who CC.done 0 := by
  unfold nvsFinish
  rw [h]
  rfl

/-- A record written: its pair, and nothing else of the records, the queue and the write in progress. -/
theorem applyWrite_record (s : State) (ty : Nat) (d : RecData) :
    (applyWrite s (.record ty d)).nvs.recs = (recWrite s ty d).nvs.recs ∧
      (applyWrite s (.record ty d)).nvs.queue = s.nvs.queue ∧ (applyWrite s (.record ty d)).nvs.cur = s.nvs.cur := by
  unfold applyWrite
  cases d <;> exact ⟨rfl, rfl, rfl⟩

theorem nvsComplete_record {s : State} {cls ty : Nat} {d : RecData} {who : Requester}
    (hcur : s.nvs.cur = some ⟨cls, .record ty d, who⟩) : Completes (exec .nvsWriteComplete s) fun t =>
      t.nvs.cur = none ∧ recRead t ty = some d ∧ t.nvs.queue = s.nvs.queue ∧
      ∀ x, x ≠ ty → recRead t x = recRead s x := by
  have hcomplete : nvsComplete s = nvsFinish s := by simp [nvsComplete, hcur]
  refine ⟨_, congrArg Host.Outcome.next (hcomplete.trans (nvsFinish_of_some hcur)), ?_⟩
  obtain ⟨hrecs, hqueue, hidle⟩ := applyWrite_record (withoutCur s) ty d
  have hnvs := nvsReport_nvs (applyWrite (withoutCur s) (.record ty d)) cls who CC.done 0
  have hread := recRead_of_recs ((congrArg NvsSt.recs hnvs).trans hrecs)
  refine ⟨(congrArg NvsSt.cur hnvs).trans hidle, (hread ty).trans (recRead_recWrite _ _ _),
    (congrArg NvsSt.queue hnvs).trans hqueue, fun x hx => (hread x).trans (recRead_recWrite_ne hx _ _)⟩

/-- Slots put one after another, each at its own place. -/
theorem tget_foldl_slots {α : Type} (f : Nat → Nat) (v : Nat → α) (n : Nat) (l : Tbl α) {j : Nat} (hj : j < n)
    (hinj : ∀ i < n, i ≠ j → f i ≠ f j) :
    tget ((List.range n).foldl (fun l j => tput l (f j) (v j)) l) (f j) = some (v j) := by
  induction n with
  | zero => omega
  | succ n ih =>
    rw [List.range_succ, List.foldl_append, List.foldl_cons, List.foldl_nil]
    by_cases h : j = n
    · rw [h, tget_tput_same]
    · rw [tget_tput_ne (Ne.symm (hinj n (by omega) (Ne.symm h)))]
      exact ih (by omega) fun i hi => hinj i (by omega)

theorem evrFinish_slots {s : State} {r : Rec} {x : Nat} (hplace : s.evr.placing = some x) (hfit : recSlots r ≤ logSlots) :
    (evrFinish s r).evr.placing = none ∧
      ∀ j, j < recSlots r → tget (evrFinish s r).evr.log ((x + j) % logSlots) = some ⟨r, j, recSlots r⟩ := by
  have hfinish : evrFinish s r = { s with evr := { s.evr with
      placing := none
      log := (List.range (recSlots r)).foldl (fun l j => tput l ((x + j) % logSlots) ⟨r, j, recSlots r⟩) s.evr.log } } := by
    unfold evrFinish
    rw [hplace]
  rw [hfinish]
  refine ⟨rfl, fun j hj => ?_⟩
  refine tget_foldl_slots (fun j => (x + j) % logSlots) (fun j => (⟨r, j, recSlots r⟩ : Slot)) _ _ hj fun i hi hij => ?_
  simp only [logSlots] at hfit ⊢
  omega

theorem nvsComplete_event {s : State} {cls : Nat} {r : Rec} {who : Requester} {x : Nat}
    (hcur : s.nvs.cur = some ⟨cls, .event r, who⟩) (hplace : s.evr.placing = some x) (hfit : recSlots r ≤ logSlots) :
    Completes (exec .nvsWriteComplete s) fun t => t.nvs.cur = none ∧ t.evr.placing = none ∧
      (∀ j, j < recSlots r → tget t.evr.log ((x + j) % logSlots) = some ⟨r, j, recSlots r⟩) ∧
      (r.code = Ev.timeAnchor → rdB t Reg.EVR_CMDSTS_PEND = false) := by
  have hcomplete : exec .nvsWriteComplete s = .next (if (decide (r.code = Ev.timeAnchor) &&
      rdB (nvsFinish s) Reg.EVR_CMDSTS_PEND) = true then evrEnd (nvsFinish s) CC.done 0 else nvsFinish s) :=
    congrArg Host.Outcome.next (by simp only [nvsComplete, hcur])
  have hslots := evrFinish_slots (s := withoutCur s) hplace hfit
  have hfinish := nvsFinish_of_some hcur
  have hevr : (nvsFinish s).evr = (evrFinish (withoutCur s) r).evr := by
    rw [hfinish]
    exact nvsReport_evr _ _ _ _ _
  have hidle : (nvsFinish s).nvs.cur = none := by
    rw [hfinish, nvsReport_nvs]
    simp only [applyWrite, evrFinish]
    split <;> rfl
  rw [← hevr] at hslots
  refine ⟨_, hcomplete, ?_⟩
  generalize nvsFinish s = u at *
  by_cases hend : r.code = Ev.timeAnchor ∧ rdB u Reg.EVR_CMDSTS_PEND = true
  · rw [if_pos (by simpa using hend)]
    exact ⟨hidle, hslots.1, hslots.2, fun _ => by simp [rdB, (evrEnd_reads u CC.done 0).2.2]⟩
  · rw [if_neg (by simpa using hend)]
    exact ⟨hidle, hslots.1, hslots.2, fun hcode => by simpa [hcode] using hend⟩

/-- Settles O55: the request by the classes in order, a start by what the engine writes, and an end by the copy that is
written, which is then the newest valid one. -/
theorem writeEngine : Obligations.WriteEngine := by
  refine fun s => ⟨fun r b => nextReq_lowest, fun h => congrArg Host.Outcome.next (nvsStart_of_none h),
    fun r ty d hnext hwhat => ⟨fun c hcur hle => nvsStart_waits hnext hcur hle, nvsStart_idle hnext hwhat,
      fun c hcur hlt hsame hsusp => nvsStart_suspends hnext hwhat hcur hlt hsame hsusp⟩, fun h => ?_,
    fun cls ty d who => nvsComplete_record, fun cls r who x => nvsComplete_event⟩
  exact congrArg Host.Outcome.next (by simp [nvsComplete, nvsFinish, h])

end Sys2Proof.Machine
end

section
/-! SUPPORT. The other commands of the store (R341, R344, R346 to R348, R359): the periodic save, the scrub, the highest write
rate and the windows. -/

namespace Sys2Proof.Machine

/-! ### What the acceptance of a record leaves of the store -/

/-- The store apart from its queue. -/
def storeRest (s : State) : NvsSt := { s.nvs with queue := [] }

theorem storeRest_evrDrop (s : State) (sev : Sev) : storeRest (evrDrop s sev) = storeRest s :=
  ite_keeps (p := storeRest) rfl rfl

theorem storeRest_evrQueue (s : State) (r : Rec) : storeRest (evrQueue s r) = storeRest s :=
  ite_keeps (p := storeRest) rfl (storeRest_evrDrop _ _)

theorem storeRest_evrStage (s : State) (r : Rec) : storeRest (evrStage s r) = storeRest s :=
  ite_keeps (p := storeRest) rfl (storeRest_evrDrop _ _)

theorem storeRest_event (s : State) (code : Nat) (sev : Sev) (ps : List Nat) :
    storeRest (event s code sev ps) = storeRest s := by
  unfold event evrAccept
  refine ite_keeps (storeRest_evrStage _ _) <| ite_keeps (storeRest_evrDrop _ _) ?_
  exact ite_keeps ((storeRest_evrStage _ _).trans rfl) ((storeRest_evrQueue _ _).trans rfl)

theorem recalling_of_mode {s : State} (h : modeIs s ≠ .recall) : recalling s = false := by simp [recalling, h]

/-! ### The periodic save of the retained area (R344) -/

theorem retained_fits (s : State) (kind tick : Nat) (digest : List Byte) (area : Tbl Byte) :
    (writeRange s (.record 0x50 (.retained kind tick digest area))).fits = true := by
  simp only [writeRange]
  cases pairWritesB (recGet s 0x50) <;> simp [recPlace, NvRange.fits, payloadLen]

theorem retainedPeriodicSave_effect {s : State} (hr : modeIs s ≠ .recall) (ht : modeIs s ≠ .test) (hq : s.nvs.queue = []) :
    Completes (exec .retainedPeriodicSave s) fun t => t.nvs.queue = [⟨4, .record 0x50 (retainedData s 0), .retained 0⟩] ∧
      t.csa = s.csa := by
  have hexec : exec .retainedPeriodicSave s = .next (nvsSave s 4 (retainedData s 0) (.retained 0)) :=
    congrArg Host.Outcome.next (if_neg (by simp [hr, ht]))
  have hsave := nvsSave_of_idle (cls := 4) (d := retainedData s 0) (who := .retained 0) (recalling_of_mode hr)
    (retained_fits s _ _ _ _) hq
  exact ⟨_, hexec.trans (congrArg Host.Outcome.next hsave), rfl, rfl⟩

/-! ### The scrub (R347, R348) -/

/-- The scrub gone on to the next page. -/
def pageMoved (s : State) (page : Nat) : State := wr s Reg.NVS_SCRUB_PAGE ((page + 1) % 16384)

/-- At the end of a pass every page may be refreshed again. -/
def passEnded (s : State) (page : Nat) : State :=
  if page = 16383 then { s with nvs := { s.nvs with refreshed := [] } } else s

theorem passEnded_keeps {β : Type} {p : State → β} {s : State} {page : Nat}
    (h : p { s with nvs := { s.nvs with refreshed := [] } } = p s) : p (passEnded s page) = p s := ite_keeps h rfl

theorem rd_passEnded (s : State) (page : Nat) (f : Field) : rd (passEnded s page) f = rd s f :=
  passEnded_keeps (p := (rd · f)) rfl

theorem passEnded_queue (s : State) (page : Nat) : (passEnded s page).nvs.queue = s.nvs.queue :=
  passEnded_keeps (p := fun t => t.nvs.queue) rfl

theorem passEnded_remaps (s : State) (page : Nat) : (passEnded s page).nvs.remaps = s.nvs.remaps :=
  passEnded_keeps (p := fun t => t.nvs.remaps) rfl

theorem passEnded_uncorrOnce (s : State) (page : Nat) : (passEnded s page).nvs.uncorrOnce = s.nvs.uncorrOnce :=
  passEnded_keeps (p := fun t => t.nvs.uncorrOnce) rfl

theorem rd_pageMoved (s : State) (page : Nat) : rd (pageMoved s page) Reg.NVS_SCRUB_PAGE = (page + 1) % 16384 :=
  (rd_wr_same _ _ _ _).trans (Nat.mod_mod _ _)

/-- A weak page counted and noted as refreshed in this pass. -/
def pageWeak (s : State) (page : Nat) : State :=
  { bump (pageMoved s page) Reg.NVS_SCRUB_REFR with
    nvs := { s.nvs with refreshed := s.nvs.refreshed ++ [page] } }

/-- An uncorrectable page counted and reported. -/
def pageReported (s : State) (page : Nat) : State :=
  event (bump (pageMoved s page) Reg.NVS_SCRUB_UNCORR) Ev.nvsUncorr .warning []

/-- A page noted in the list of those uncorrectable once. -/
def notedOnce (s : State) (page : Nat) : State := { s with nvs := { s.nvs with uncorrOnce := s.nvs.uncorrOnce ++ [page] } }

theorem rd_notedOnce (s : State) (page : Nat) (f : Field) : rd (notedOnce s page) f = rd s f := rfl

theorem mem_notedOnce (s : State) (page : Nat) : page ∈ (notedOnce s page).nvs.uncorrOnce :=
  List.mem_append_right _ (List.mem_singleton_self _)

theorem notedOnce_remaps (s : State) (page : Nat) : (notedOnce s page).nvs.remaps = s.nvs.remaps := rfl

/-- An uncorrectable page reported and noted. -/
def pageNoted (s : State) (page : Nat) : State := notedOnce (pageReported s page) page

theorem rd_refr_of_weak (s : State) (page : Nat) :
    rd (pageWeak s page) Reg.NVS_SCRUB_REFR = min (rd s Reg.NVS_SCRUB_REFR + 1) 1023 := by
  have hread : rd (pageMoved s page) Reg.NVS_SCRUB_REFR = rd s Reg.NVS_SCRUB_REFR := rd_wr_ne (by decide) _ _
  exact (bump_same _ _ _ _).trans (by rw [hread]; rfl)

theorem rd_page_of_weak (s : State) (page : Nat) : rd (pageWeak s page) Reg.NVS_SCRUB_PAGE = (page + 1) % 16384 :=
  (rd_bump_ne (by decide) _ _).trans (rd_pageMoved s page)

theorem refresh_fits (s : State) {page : Nat} (h : page < 16384) : (writeRange s (.refresh page)).fits = true :=
  decide_eq_true (show 256 * page + 256 ≤ 0x400000 by omega)

theorem modeIs_pageWeak (s : State) (page : Nat) : modeIs (pageWeak s page) = modeIs s :=
  modeIs_of_rd ((rd_bump_ne (by decide) _ _).trans (rd_wr_ne (by decide) _ _))

theorem rd_uncorr_of_noted (s : State) (page : Nat) :
    rd (pageNoted s page) Reg.NVS_SCRUB_UNCORR = min (rd s Reg.NVS_SCRUB_UNCORR + 1) 255 := by
  have hread : rd (pageMoved s page) Reg.NVS_SCRUB_UNCORR = rd s Reg.NVS_SCRUB_UNCORR := rd_wr_ne (by decide) _ _
  rw [pageNoted, rd_notedOnce, pageReported, rd_event (by decide) (by decide), bump_same, hread]
  rfl

theorem pageReported_remaps (s : State) (page : Nat) : (pageReported s page).nvs.remaps = s.nvs.remaps :=
  (congrArg NvsSt.remaps (storeRest_event (bump (pageMoved s page) Reg.NVS_SCRUB_UNCORR) _ _ _) :)

section

variable {s : State} {page : Nat} (hr : modeIs s ≠ .recall) (ht : modeIs s ≠ .test) (hs : modeIs s ≠ .save)
  (hpage : page = rd s Reg.NVS_SCRUB_PAGE)
include hr ht hs hpage

theorem scrub_clean : Completes (exec (.scrub false false none) s) fun t =>
    rd t Reg.NVS_SCRUB_PAGE = (page + 1) % 16384 ∧ t.nvs.queue = s.nvs.queue := by
  have hscrub : scrub s false false none = passEnded (pageMoved s page) page := by
    subst hpage
    unfold scrub
    rw [if_neg (by simp [hr, ht, hs])]
    rfl
  exact ⟨_, congrArg Host.Outcome.next hscrub, (rd_passEnded _ _ _).trans (rd_pageMoved _ _),
    passEnded_queue _ _⟩

theorem scrub_weak (hlt : page < 16384) (hfirst : page ∉ s.nvs.refreshed) (hq : s.nvs.queue = []) :
    Completes (exec (.scrub true false none) s) fun t => rd t Reg.NVS_SCRUB_PAGE = (page + 1) % 16384 ∧
      rd t Reg.NVS_SCRUB_REFR = min (rd s Reg.NVS_SCRUB_REFR + 1) 1023 ∧
      t.nvs.queue = [⟨7, .refresh page, .scrub⟩] := by
  have hrequest : nvsRequest (pageWeak s page) ⟨7, .refresh page, .scrub⟩ =
      setQueue (pageWeak s page) [⟨7, .refresh page, .scrub⟩] :=
    nvsRequest_of_idle (recalling_of_mode (by rwa [modeIs_pageWeak])) (refresh_fits _ hlt) hq
  have hscrub : scrub s true false none = passEnded (setQueue (pageWeak s page) [⟨7, .refresh page, .scrub⟩]) page := by
    rw [← hrequest]
    subst hpage
    have hagain : (wr s Reg.NVS_SCRUB_PAGE ((rd s Reg.NVS_SCRUB_PAGE + 1) % 16384)).nvs.refreshed.contains
        (rd s Reg.NVS_SCRUB_PAGE) = false := by simpa using hfirst
    unfold scrub pageWeak pageMoved passEnded
    rw [if_neg (by simp [hr, ht, hs])]
    simp only [hagain, Bool.not_false, Bool.and_true, Bool.false_eq_true, if_false, if_true]
    rfl
  refine ⟨_, congrArg Host.Outcome.next hscrub, ?_, ?_, passEnded_queue _ _⟩
  · rw [rd_passEnded, rd_setQueue (by decide)]
    exact rd_page_of_weak s page
  · rw [rd_passEnded, rd_setQueue (by decide)]
    exact rd_refr_of_weak s page

theorem scrub_uncorrectable (hfirst : page ∉ s.nvs.uncorrOnce) :
    Completes (exec (.scrub false true none) s) fun t =>
      rd t Reg.NVS_SCRUB_UNCORR = min (rd s Reg.NVS_SCRUB_UNCORR + 1) 255 ∧ page ∈ t.nvs.uncorrOnce ∧
      t.nvs.remaps = s.nvs.remaps := by
  have hscrub : scrub s false true none = passEnded (pageNoted s page) page := by
    subst hpage
    have htwice : (wr s Reg.NVS_SCRUB_PAGE ((rd s Reg.NVS_SCRUB_PAGE + 1) % 16384)).nvs.uncorrOnce.contains
        (rd s Reg.NVS_SCRUB_PAGE) = false := by simpa using hfirst
    unfold scrub pageNoted notedOnce pageReported pageMoved passEnded
    rw [if_neg (by simp [hr, ht, hs])]
    simp only [htwice, Bool.false_and, Bool.false_eq_true, if_false, if_true]
  refine ⟨_, congrArg Host.Outcome.next hscrub, (rd_passEnded _ _ _).trans (rd_uncorr_of_noted s page), ?_,
    (passEnded_remaps _ _).trans ((notedOnce_remaps _ _).trans (pageReported_remaps s page))⟩
  rw [passEnded_uncorrOnce]
  exact mem_notedOnce _ page

end

/-! ### The highest write rate of the hour (R346) -/

/-- The record that was written most often since the last measurement, with its count. -/
def busiest (s : State) : Nat × Nat :=
  s.nvs.writes.foldl (fun (b : Nat × Nat) e => if b.2 < e.2 then e else b) (0, 0)

/-- The rate of the busiest record shown and the counts begun anew. -/
def rateShown (s : State) : State :=
  let t := wr (wr s Reg.NVS_WEAR_TYPE ((busiest s).1 % 0x10000)) Reg.NVS_WEAR_RATE (min ((busiest s).2 / 3600) 65535)
  { t with nvs := { t.nvs with writes := [] } }

theorem nvsWear_eq (s : State) : nvsWear s = if 30 * 3600 < (busiest s).2 then
    event (rateShown s) Ev.nvsWear .warning [(busiest s).1 % 0x10000, recNumber (busiest s).1] else rateShown s := rfl

theorem nvsWear_writes (s : State) : (nvsWear s).nvs.writes = [] := by
  rw [nvsWear_eq]
  exact ite_keeps (p := fun t => t.nvs.writes) (congrArg NvsSt.writes (storeRest_event _ _ _ _)) rfl

theorem rd_nvsWear {f : Field} (h : ∀ g ∈ recorderFields, f.id ≠ g.id) (s : State) :
    rd (nvsWear s) f = rd (rateShown s) f := by
  rw [nvsWear_eq]
  exact ite_keeps (p := (rd · f)) (rd_event h (by decide) _ _ _ _) rfl

theorem busiest_of_one {s : State} {ty k : Nat} (h : s.nvs.writes = [(ty, k)]) (hk : 0 < k) : busiest s = (ty, k) := by
  simp [busiest, h, hk]

theorem nvsWear_of_one {s : State} {ty k : Nat} (h : s.nvs.writes = [(ty, k)]) (hk : 0 < k) :
    rd (nvsWear s) Reg.NVS_WEAR_TYPE = ty % 65536 ∧ rd (nvsWear s) Reg.NVS_WEAR_RATE = min (k / 3600) 65535 := by
  have hbusy := busiest_of_one h hk
  have hrate : rd (rateShown s) Reg.NVS_WEAR_RATE = min (k / 3600) 65535 % 65536 :=
    (rd_wr_same _ _ _ _).trans (by rw [hbusy]; rfl)
  have htype : rd (rateShown s) Reg.NVS_WEAR_TYPE = ty % 65536 % 65536 :=
    (rd_wr_ne (by decide) _ _).trans ((rd_wr_same _ _ _ _).trans (by rw [hbusy]; rfl))
  rw [rd_nvsWear (by decide), rd_nvsWear (by decide), hrate, htype]
  omega

theorem nvsWindow_eventLog {s : State} {a : Nat} (hr : recalling s = false) (hlo : 0x3100000 ≤ a) (hhi : a < 0x3101000) :
    nvsWindow s a = (leNat (((logSlotBytes s ((rd s Reg.EVR_CURSOR_CURSOR + (a - 0x3100000) / 32) % logSlots)).drop
      ((a - 0x3100000) % 32)).take 4), s) := by
  simp only [nvsWindow, hr, Bool.false_eq_true, if_false, and_self, hlo, hhi, if_true]

/-- Settles O56, clause by clause: the periodic save, the scrub of a clean, a weak and an uncorrectable page, the highest
write rate, and a window during recall and outside it. -/
theorem storeCommands : Obligations.StoreCommands := by
  unfold Obligations.StoreCommands
  intro s
  refine ⟨fun hr ht hq => retainedPeriodicSave_effect hr ht hq, fun h => ?_, fun h a b c => ?_, fun page hr ht hs hpage =>
    ⟨scrub_clean hr ht hs hpage, scrub_weak hr ht hs hpage, scrub_uncorrectable hr ht hs hpage⟩,
    ⟨_, rfl, nvsWear_writes s, fun ty k => nvsWear_of_one⟩, fun a => ⟨fun h => ?_, fun h hlo hhi => ?_⟩⟩
  · exact congrArg Host.Outcome.next (if_pos (by simpa using h))
  · exact congrArg Host.Outcome.next (if_pos (by simpa [or_assoc] using h))
  · have hread : nvsWindow s a.toNat = (0, wr s Reg.NVS_STATUS_BUSYRD 1) := if_pos h
    exact ⟨_, congrArg (fun r => Host.Outcome.next (emitRead r)) hread, rfl, (rd_emit _ _ _ _).trans (rd_wr_same _ _ _ _)⟩
  · have hread := nvsWindow_eventLog h hlo hhi
    have hexec : exec (.nvsWindowRead a) s = .next (emitRead (nvsWindow s a.toNat)) := rfl
    rw [hexec, hread, emitRead]

end Sys2Proof.Machine
end

section
/-! SUPPORT. The OTP, quotes and the test port (R404, R410 to R414): the ends of a command, what a changed OTP leaves of the
rest, and the end of a quote. -/

namespace Sys2Proof.Machine

/-! ### The ends of a command -/

theorem otpEnd_reads (s : State) (code rsn : Nat) :
    rd (otpEnd s code rsn) Reg.SSU_OTPSTS_CC = code % 256 ∧ rd (otpEnd s code rsn) Reg.SSU_OTPSTS_RSN = rsn % 256 := by
  obtain ⟨hcc, hrsn, -⟩ := setStatus_reads (cc := Reg.SSU_OTPSTS_CC) (rsn := Reg.SSU_OTPSTS_RSN)
    (pend := Reg.SSU_OTPSTS_PEND) (i := 0) s code rsn (by decide) (by decide) (by decide)
  exact ⟨hcc, hrsn⟩

@[simp] theorem otpEnd_ssu (s : State) (code rsn : Nat) : (otpEnd s code rsn).ssu = s.ssu := rfl

theorem rd_otpEnd {g : Field} (h : ∀ f ∈ [Reg.SSU_OTPSTS_CC, Reg.SSU_OTPSTS_RSN, Reg.SSU_OTPSTS_PEND], g.key 0 ≠ f.key 0)
    (s : State) (code rsn : Nat) : rd (otpEnd s code rsn) g = rd s g :=
  rd_setStatus_ne (h _ (by simp)) (h _ (by simp)) (h _ (by simp)) _ _ _

/-- A command refused for a reason: CC and RSN say so and the unit stands as it was. -/
def OtpRefused (rsn : Nat) (s t : State) : Prop :=
  rd t Reg.SSU_OTPSTS_CC = CC.failRefused ∧ rd t Reg.SSU_OTPSTS_RSN = rsn ∧ t.ssu = s.ssu

theorem otpRefused_end {rsn : Nat} (h : rsn < 256) (s : State) : OtpRefused rsn s (otpEnd s CC.failRefused rsn) :=
  ⟨(otpEnd_reads _ _ _).1, (otpEnd_reads _ _ _).2.trans (Nat.mod_eq_of_lt h), rfl⟩

/-! ### A changed OTP -/

@[simp] theorem putOtp_otp (s : State) (o : Otp) : (putOtp s o).ssu.otp = o := rfl

theorem otpRecheck_keeps {β : Type} {p : State → β} (hload : ∀ s n h x, p (olcState (putHalf s h x) n) = p s)
    (hshadow : ∀ s n x, p (shState (putShadow s x) n) = p s) (s : State) : p (otpRecheck s) = p s := by
  unfold otpRecheck
  dsimp only
  split
  · split
    · exact ite_keeps ((hshadow _ _ _).trans (ite_keeps (hload _ _ _ _) rfl)) (ite_keeps (hload _ _ _ _) rfl)
    · exact ite_keeps (hshadow _ _ _) rfl
  · split
    · exact ite_keeps (hload _ _ _ _) rfl
    · rfl

@[simp] theorem otpRecheck_ssu (s : State) : (otpRecheck s).ssu = s.ssu :=
  otpRecheck_keeps (p := State.ssu) (fun s _ h x => putHalf_ssu s h x) (fun _ _ _ => rfl) s

/-- A fuse write that reads back right ends DONE with the OTP it wrote. -/
theorem otpDone_reads (s : State) : rd (otpDone s true) Reg.SSU_OTPSTS_CC = CC.done ∧ (otpDone s true).ssu.otp = s.ssu.otp :=
  ⟨(otpEnd_reads s CC.done 0).1, rfl⟩

theorem rd_policy_shown (s : State) (o : Otp) : rd (putOtp s o) Reg.SSU_SECSTS_BISTSTART = o.bistStart.toNat ∧
    rd (putOtp s o) Reg.SSU_SECSTS_JTAGOFF = o.jtagOff.toNat := by
  have hbit (b : Bool) : (if b then 1 else 0) % 2 = b.toNat := by cases b <;> rfl
  constructor <;> simp (disch := decide) only [putOtp, showOtp, wrB, rd_wr_ne, rd_wr_same] <;> exact hbit _

/-! ### The commands in HALT -/

section

variable {s : State} (hp : rdB s Reg.SSU_OTPSTS_PEND = false) (hw : rdB s Reg.SSU_SUPPLY_WARN = false)
  (hm : modeIs s = .halt)
include hp hw hm

theorem otpCmd_badKey {key : BitVec 16} (hk : key ≠ 0x07B7) (c : OtpCmd) :
    OtpRefused Rsn.badKey s (otpCmd s key c) := by
  have h : otpCmd s key c = otpEnd s CC.failRefused Rsn.badKey :=
    (if_neg (by simp [hp])).trans <| (if_neg (by simp [hm, hw])).trans (if_pos hk)
  rw [h]
  exact otpRefused_end (by decide) s

theorem otpCmd_runs (hq : s.ssu.quote = none) (c : OtpCmd) : otpCmd s 0x07B7 c = otpRun s c := by
  simp [otpCmd, hp, hw, hm, hq]

end

theorem programRoot_takes {s : State} {i : Fin 4} (hd : s.ssu.otp.roots[i].digest = none)
    (hc : s.ssu.otp.roots[i].checkOk = true) :
    rd (programRoot s i true) Reg.SSU_OTPSTS_CC = CC.done ∧ (programRoot s i true).ssu.otp =
      { s.ssu.otp with roots := s.ssu.otp.roots.set i ⟨otpData s, true, s.ssu.otp.roots[i].revoked⟩ } := by
  have h : programRoot s i true = otpDone (putOtp s { s.ssu.otp with
      roots := s.ssu.otp.roots.set i ⟨otpData s, true, s.ssu.otp.roots[i].revoked⟩ }) true := by
    simp only [programRoot, hd, hc, Option.isSome_none, Bool.not_true, Bool.or_self, Bool.false_eq_true, if_false]
  rw [h]
  exact otpDone_reads _

theorem programRoot_used {s : State} {i : Fin 4} (hd : s.ssu.otp.roots[i].digest.isSome = true) :
    OtpRefused Rsn.otpUsed s (programRoot s i true) := by
  have h : programRoot s i true = otpEnd s CC.failRefused Rsn.otpUsed := by
    simp only [programRoot, hd, Bool.true_or, if_true]
  rw [h]
  exact otpRefused_end (by decide) s

theorem revokeRoot_takes {s : State} {i : Fin 4} (h : ∃ j : Fin 4, j ≠ i ∧ rootUsable s.ssu.otp.roots[j] = true) :
    rd (revokeRoot s i true) Reg.SSU_OTPSTS_CC = CC.done ∧ (revokeRoot s i true).ssu.otp =
      { s.ssu.otp with roots := s.ssu.otp.roots.set i { s.ssu.otp.roots[i] with revoked := true } } := by
  have hany : ((List.finRange 4).any fun j => j ≠ i && rootUsable s.ssu.otp.roots[j]) = true := by
    obtain ⟨j, hj, hu⟩ := h
    exact List.any_eq_true.mpr ⟨j, List.mem_finRange j, by simp only [hu, Bool.and_true]; simpa using hj⟩
  rw [revokeRoot, if_pos hany]
  exact ⟨(otpDone_reads _).1, by rw [(otpDone_reads _).2, otpRecheck_ssu]; rfl⟩

theorem revokeRoot_last {s : State} {i : Fin 4} (h : ∀ j : Fin 4, j ≠ i → rootUsable s.ssu.otp.roots[j] = false) :
    OtpRefused Rsn.lastKey s (revokeRoot s i true) := by
  have hany : ((List.finRange 4).any fun j => j ≠ i && rootUsable s.ssu.otp.roots[j]) = false := by
    refine List.any_eq_false.mpr fun j _ => ?_
    by_cases hj : j = i
    · simp [hj]
    · simp only [h j hj, Bool.and_false]; decide
  have hlast : revokeRoot s i true = otpEnd s CC.failRefused Rsn.lastKey := if_neg (by rw [hany]; decide)
  rw [hlast]
  exact otpRefused_end (by decide) s

theorem raiseFloor_takes {s : State} {facet : Bool} {v : Nat}
    (hlo : (if facet then s.ssu.otp.ffloor else s.ssu.otp.pfloor) < v) (hhi : v ≤ 64) :
    rd (raiseFloor s facet v true) Reg.SSU_OTPSTS_CC = CC.done ∧ (raiseFloor s facet v true).ssu.otp =
      if facet then { s.ssu.otp with ffloor := v } else { s.ssu.otp with pfloor := v } := by
  have h : raiseFloor s facet v true = otpDone (otpRecheck (putOtp s
      (if facet then { s.ssu.otp with ffloor := v } else { s.ssu.otp with pfloor := v }))) true := if_neg (by omega)
  rw [h]
  exact ⟨(otpDone_reads _).1, by rw [(otpDone_reads _).2, otpRecheck_ssu]; rfl⟩

theorem raiseFloor_refused {s : State} {v : Nat} (h : v ≤ s.ssu.otp.pfloor ∨ 64 < v) :
    OtpRefused Rsn.outOfRange s (raiseFloor s false v true) := by
  have hout : raiseFloor s false v true = otpEnd s CC.failRefused Rsn.outOfRange := if_pos h
  rw [hout]
  exact otpRefused_end (by decide) s

theorem blowPolicy_bistStart (s : State) : rd (blowPolicy s false true) Reg.SSU_OTPSTS_CC = CC.done ∧
    (blowPolicy s false true).ssu.otp = { s.ssu.otp with bistStart := true } ∧
    rd (blowPolicy s false true) Reg.SSU_SECSTS_BISTSTART = 1 := by
  have h : blowPolicy s false true = otpDone (putOtp s { s.ssu.otp with bistStart := true }) true := by
    simp only [blowPolicy, Bool.not_false, Bool.or_true, Bool.not_true, Bool.or_false]
  rw [h]
  exact ⟨(otpDone_reads _).1, rfl, (rd_otpEnd (by decide) _ _ _).trans (rd_policy_shown _ _).1⟩

theorem blowPolicy_jtagOff (s : State) : rd (blowPolicy s true true) Reg.SSU_OTPSTS_CC = CC.done ∧
    (blowPolicy s true true).ssu.otp = { s.ssu.otp with jtagOff := true } ∧
    rd (blowPolicy s true true) Reg.SSU_SECSTS_JTAGOFF = 1 := by
  have h : blowPolicy s true true = otpDone (putOtp s { s.ssu.otp with jtagOff := true }) true := by
    simp only [blowPolicy, Bool.not_true, Bool.or_false, Bool.or_true]
  rw [h]
  exact ⟨(otpDone_reads _).1, rfl, (rd_otpEnd (by decide) _ _ _).trans (rd_policy_shown _ _).2⟩

/-! ### Quotes (R412, R413) -/

/-- A state whose quote is over, its status written. -/
def quoteOver (s : State) (code rsn : Nat) : State :=
  setStatus { s with ssu := { s.ssu with quote := none } } Reg.SSU_QSTS_CC Reg.SSU_QSTS_RSN Reg.SSU_QSTS_PEND code rsn

theorem quoteEnd_of_none {s : State} (h : s.ssu.otpWait = none) (code rsn : Nat) :
    quoteEnd s code rsn = quoteOver s code rsn := by
  have hwait : (quoteOver s code rsn).ssu.otpWait = none := h
  unfold quoteOver at hwait
  simp only [quoteEnd, hwait]
  rfl

theorem quoteOver_reads (s : State) (code rsn : Nat) : rd (quoteOver s code rsn) Reg.SSU_QSTS_CC = code % 256 ∧
    rd (quoteOver s code rsn) Reg.SSU_QSTS_RSN = rsn % 256 ∧ rd (quoteOver s code rsn) Reg.SSU_QSTS_PEND = 0 :=
  setStatus_reads _ code rsn (by decide) (by decide) (by decide)

theorem rd_quoteOver {g : Field} (h : ∀ f ∈ [Reg.SSU_QSTS_CC, Reg.SSU_QSTS_RSN, Reg.SSU_QSTS_PEND], g.key 0 ≠ f.key 0)
    (s : State) (code rsn : Nat) : rd (quoteOver s code rsn) g = rd s g :=
  rd_setStatus_ne (h _ (by simp)) (h _ (by simp)) (h _ (by simp)) _ _ _

theorem quoteCmd_takes {s : State} (hp : rdB s Reg.SSU_QSTS_PEND = false) (hr : modeIs s ≠ .recall) (ht : modeIs s ≠ .test)
    (hs : modeIs s ≠ .save) : quoteCmd s = wr { s with ssu := { s.ssu with
      quote := some ⟨rd64 s Reg.SSU_QADDR_LO_ADDR Reg.SSU_QADDR_HI_ADDR, none⟩ } } Reg.SSU_QSTS_PEND 1 := by
  unfold quoteCmd
  dsimp only
  rw [if_neg (by simp [hp])]
  cases hm : modeIs s <;> simp_all

/-- The free bytes that stand for a signature. -/
def freeSig (s : State) : List Byte := (List.range 512).map fun i => freeByte (s.free + i)

/-- A quote put out, its signature taken from the free values. -/
def quoteSent (s : State) (a : Nat) (body : List Byte) : State :=
  emit { s with free := s.free + 512 } (.hostWrite a (body ++ freeSig s))

section

variable {s : State} {a : Nat} {body : List Byte} (hq : s.ssu.quote = some ⟨a, some body⟩) (hw : s.ssu.otpWait = none)
include hq hw

theorem quoteComplete_written : Completes (exec (.quoteComplete true) s) fun t => rd t Reg.SSU_QSTS_CC = CC.done ∧
    rd t Reg.SSU_QSTS_PEND = 0 ∧ t.ssu.quote = none ∧
    ∃ sig : List Byte, sig.length = 512 ∧ t.out = s.out ++ [.hostWrite a (body ++ sig)] := by
  have h : quoteComplete s true = quoteOver (quoteSent s a body) CC.done 0 := by
    rw [← quoteEnd_of_none (s := quoteSent s a body) hw]
    simp only [quoteComplete, hq, if_true, quoteSent, freeSig]
  obtain ⟨hcc, -, hpend⟩ := quoteOver_reads (quoteSent s a body) CC.done 0
  exact ⟨_, congrArg Host.Outcome.next h, hcc, hpend, rfl, freeSig s, by simp [freeSig], rfl⟩

theorem quoteComplete_aborted : Completes (exec (.quoteComplete false) s) fun t =>
    rd t Reg.SSU_QSTS_CC = CC.failPeerUnreachable ∧ rd t Reg.SSU_QSTS_RSN = Rsn.hostAbort ∧ t.ssu.quote = none ∧
    rd t Reg.HMX_HERR_PCIE = min (rd s Reg.HMX_HERR_PCIE + 1) (2 ^ Reg.HMX_HERR_PCIE.width - 1) ∧
    t.out = s.out ++ [.aer] := by
  have h : quoteComplete s false = quoteOver (hostAborted s) CC.failPeerUnreachable Rsn.hostAbort := by
    rw [← quoteEnd_of_none (s := hostAborted s) hw]
    simp only [quoteComplete, hq, Bool.false_eq_true, if_false]
  obtain ⟨hcc, hrsn, -⟩ := quoteOver_reads (hostAborted s) CC.failPeerUnreachable Rsn.hostAbort
  exact ⟨_, congrArg Host.Outcome.next h, hcc, hrsn, rfl,
    (rd_quoteOver (by decide) _ _ _).trans (bump_same s Reg.HMX_HERR_PCIE 0 1), rfl⟩

end

/-! ### The test access port (R414) -/

theorem tapTakes_eq (s : State) (i : TapInstr) : tapTakes s i =
    if (s.ssu.otp.jtagOff = true ∨ rdB s Reg.SSU_SECSTS_JTAGLOCK = true) ∧ (i = .extest ∨ i = .samplePreload)
    then .bypass else i := by
  cases i <;> simp [tapTakes, tapLocked]

/-- Settles O60, clause by clause: the commands refused for their key, those that run in HALT, the quote from its request
to its end, and the test access port. -/
theorem securityCommands : Obligations.SecurityCommands := by
  unfold Obligations.SecurityCommands
  rintro s o rfl
  refine ⟨fun hp hw => ⟨fun hm key hk => ?_, fun hm hq => ?_⟩, fun hp hr ht hs => ?_, fun a body hq hw =>
    ⟨quoteComplete_written hq hw, quoteComplete_aborted hq hw⟩, fun i => ?_⟩
  · have hbad (c : OtpCmd) := otpCmd_badKey hp hw hm hk c
    exact ⟨fun i => ⟨⟨_, rfl, hbad (.programRoot i true)⟩, ⟨_, rfl, hbad (.revoke i true)⟩⟩,
      fun v => ⟨⟨_, rfl, hbad (.raise false v true)⟩, ⟨_, rfl, hbad (.raise true v true)⟩⟩,
      ⟨_, rfl, hbad (.policy false true)⟩, ⟨_, rfl, hbad (.policy true true)⟩⟩
  · have hruns (c : OtpCmd) : (.next (otpCmd s 0x07B7 c) : Host.Outcome State Fault Refusal) = .next (otpRun s c) :=
      congrArg Host.Outcome.next (otpCmd_runs hp hw hm hq c)
    refine ⟨fun i => ⟨fun hd hc => ⟨_, hruns (.programRoot i true), programRoot_takes hd hc⟩,
      fun hd => ⟨_, hruns (.programRoot i true), programRoot_used hd⟩,
      fun h => ⟨_, hruns (.revoke i true), revokeRoot_takes h⟩, fun h => ⟨_, hruns (.revoke i true), revokeRoot_last h⟩⟩,
      fun v => ⟨fun hlo hhi => ⟨_, hruns (.raise false v true), raiseFloor_takes (facet := false) hlo hhi⟩,
        fun hlo hhi => ⟨_, hruns (.raise true v true), raiseFloor_takes (facet := true) hlo hhi⟩,
        fun h => ⟨_, hruns (.raise false v true), raiseFloor_refused h⟩⟩,
      ⟨_, hruns (.policy false true), blowPolicy_bistStart s⟩, ⟨_, hruns (.policy true true), blowPolicy_jtagOff s⟩⟩
  · exact ⟨_, congrArg Host.Outcome.next (quoteCmd_takes hp hr ht hs), rd_wr_same _ _ _ _, rfl⟩
  · exact congrArg (fun x => Host.Outcome.next { s with ssu := { s.ssu with tap := x } }) (tapTakes_eq s i)

end Sys2Proof.Machine
end

section
/-! SUPPORT. Vectors and DMA queues (R285, R288, R289): the unmasking of a vector, what the end of a descriptor reads and puts
out, the copy of one that passed its checks, and the start of a queue. -/

namespace Sys2Proof.Machine

/-! ### Vectors -/

theorem msixUnmask_effect (s : State) (v : Fin 64) : Completes (exec (.msixUnmask v) s) fun t =>
    msixMasked t v.val = false ∧ t.flds = s.flds ∧
      (v.val ∈ s.hmx.msixPend → t.out = s.out ++ [.msix v.val] ∧ v.val ∉ t.hmx.msixPend) ∧
      (v.val ∉ s.hmx.msixPend → t.out = s.out ∧ t.hmx.msixPend = s.hmx.msixPend) := by
  let w := msixWord s (v.val * 4 + 3) &&& ~~~1
  let u : State := { s with hmx := { s.hmx with msixTab := tput s.hmx.msixTab (v.val * 4 + 3) w } }
  have hmask : msixMasked u v.val = false := by
    simp [msixMasked, msixWord, u, w]
  have hwrite : msixWrite s (v.val * 4 + 3) w = if u.hmx.msixPend.contains v.val then
      emit { u with hmx := { u.hmx with msixPend := u.hmx.msixPend.filter (· ≠ v.val) } } (.msix v.val) else u := by
    have hvec : (v.val * 4 + 3) / 4 = v.val := by omega
    unfold msixWrite
    dsimp only
    rw [hvec, hmask]
    rfl
  refine ⟨_, congrArg Host.Outcome.next hwrite, ?_⟩
  by_cases h : v.val ∈ s.hmx.msixPend
  · rw [if_pos (List.contains_iff_mem.mpr h)]
    exact ⟨hmask, rfl, fun _ => ⟨rfl, by simp⟩, fun hn => absurd h hn⟩
  · rw [if_neg (mt List.contains_iff_mem.mp h)]
    exact ⟨hmask, rfl, fun hp => absurd hp h, fun _ => ⟨rfl, rfl⟩⟩

theorem msix_keeps {β : Type} {p : State → β} (hout : ∀ s o, p (emit s o) = p s)
    (hpend : ∀ s l, p { s with hmx := { s.hmx with msixPend := l } } = p s) (s : State) (v : Nat) : p (msix s v) = p s :=
  ite_keeps (p := p) (ite_keeps (p := p) rfl (hpend _ _)) (hout _ _)

theorem msix_out (s : State) (v : Nat) : (msix s v).out = s.out ++ if msixMasked s v then [] else [.msix v] := by
  unfold msix
  split
  · rw [List.append_nil]
    exact ite_keeps (p := State.out) rfl rfl
  · rfl

/-! ### The end of a descriptor (R288) -/

/-- The place of the descriptor at TAIL in the ring of a queue. -/
def dmaSlot (s : State) (q : Fin 4) : Nat :=
  rd64 s Reg.HMX_DMABASE_LO_BASE Reg.HMX_DMABASE_HI_BASE q +
    32 * (rd s Reg.HMX_DMATAIL_TAIL q % 2 ^ rd s Reg.HMX_DMACFG_LOG q)

/-- The message of a queue's vector. -/
def dmaBell (s : State) (q : Fin 4) : List Out :=
  if msixMasked s (rd s Reg.HMX_DMACFG_VEC q) then [] else [.msix (rd s Reg.HMX_DMACFG_VEC q)]

/-- The state in which the end of a descriptor raises its vector. -/
def dmaEnded (s : State) (q : Fin 4) (code rsn : Nat) : State :=
  let t := emit (emit s (.hostWrite (dmaSlot s q + 21) [BitVec.ofNat 8 code, BitVec.ofNat 8 rsn]))
    (.hostWrite (dmaSlot s q + 23) [1])
  wr { t with hmx := { t.hmx with dmaEcc := t.hmx.dmaEcc.set q false } } Reg.HMX_DMATAIL_TAIL
    (rd s Reg.HMX_DMATAIL_TAIL q + 1) q

theorem dmaEnd_eq (s : State) (q : Fin 4) (code rsn : Nat) :
    dmaEnd s q code rsn = msix (dmaEnded s q code rsn) (rd s Reg.HMX_DMACFG_VEC q) := rfl

theorem dmaEnd_out (s : State) (q : Fin 4) (code rsn : Nat) : (dmaEnd s q code rsn).out = s.out ++
    [.hostWrite (dmaSlot s q + 21) [BitVec.ofNat 8 code, BitVec.ofNat 8 rsn], .hostWrite (dmaSlot s q + 23) [1]] ++
    dmaBell s q := by
  rw [dmaEnd_eq, msix_out]
  simp only [dmaEnded, wr, emit, List.append_assoc, List.cons_append, List.nil_append]
  rfl

theorem rd_dmaEnd (s : State) (q : Fin 4) (code rsn : Nat) (f : Field) (i : Nat) :
    rd (dmaEnd s q code rsn) f i = rd (dmaEnded s q code rsn) f i :=
  msix_keeps (p := fun t => rd t f i) (fun _ _ => rfl) (fun _ _ => rfl) _ _

theorem rd_tail_dmaEnd (s : State) (q : Fin 4) (code rsn : Nat) :
    rd (dmaEnd s q code rsn) Reg.HMX_DMATAIL_TAIL q = (rd s Reg.HMX_DMATAIL_TAIL q + 1) % 2 ^ 32 :=
  (rd_dmaEnd _ _ _ _ _ _).trans (rd_wr_same _ _ _ _)

theorem rd_dmaEnd_ne {g : Field} {q : Fin 4} {j : Nat} (h : g.id ≠ Reg.HMX_DMATAIL_TAIL.id) (hj : j < 8192) (s : State)
    (code rsn : Nat) : rd (dmaEnd s q code rsn) g j = rd s g j :=
  (rd_dmaEnd _ _ _ _ _ _).trans (rd_wr_of_id_ne h (by omega) hj _ _)

theorem dmaEnd_keeps {β : Type} {p : State → β} (hout : ∀ s o, p (emit s o) = p s) (hwr : ∀ s f v i, p (wr s f v i) = p s)
    (hhmx : ∀ s l e, p { s with hmx := { s.hmx with msixPend := l, dmaEcc := e } } = p s) (s : State) (q : Fin 4)
    (code rsn : Nat) : p (dmaEnd s q code rsn) = p s := by
  rw [dmaEnd_eq, msix_keeps hout (fun s l => hhmx s l s.hmx.dmaEcc)]
  exact (hwr _ _ _ _).trans <| (hhmx _ _ _).trans <| (hout _ _).trans (hout _ _)

/-! ### The copy of a descriptor (R289) -/

/-- What the end of a descriptor reads stands as it was. -/
def DmaSame (s t : State) : Prop :=
  (∀ f : Field, Reg.HMX_HERR_PCIE.id < f.id → ∀ i, rd t f i = rd s f i) ∧ t.hmx.msixTab = s.hmx.msixTab

theorem DmaSame.of_flds {s t : State} (h : t.flds = s.flds) (hm : t.hmx.msixTab = s.hmx.msixTab) : DmaSame s t :=
  ⟨fun f _ i => congrArg (rdIn · f i) h, hm⟩

theorem dmaSame_aborted (s : State) : DmaSame s (hostAborted s) := ⟨fun _ h i => rd_wr_of_id_lt h i s _, rfl⟩

theorem DmaSame.trans {s t u : State} (h : DmaSame s t) (h' : DmaSame t u) : DmaSame s u :=
  ⟨fun f hf i => (h'.1 f hf i).trans (h.1 f hf i), h'.2.trans h.2⟩

theorem DmaSame.slot {s t : State} (h : DmaSame s t) (q : Fin 4) : dmaSlot t q = dmaSlot s q := by
  unfold dmaSlot rd64
  rw [h.1 Reg.HMX_DMABASE_LO_BASE (by decide), h.1 Reg.HMX_DMABASE_HI_BASE (by decide), h.1 Reg.HMX_DMATAIL_TAIL (by decide),
    h.1 Reg.HMX_DMACFG_LOG (by decide)]

theorem DmaSame.bell {s t : State} (h : DmaSame s t) (q : Fin 4) : dmaBell t q = dmaBell s q := by
  unfold dmaBell msixMasked msixWord
  rw [h.1 Reg.HMX_DMACFG_VEC (by decide), h.2]

theorem DmaSame.tail {s t : State} (h : DmaSame s t) (q : Fin 4) : rd t Reg.HMX_DMATAIL_TAIL q = rd s Reg.HMX_DMATAIL_TAIL q :=
  h.1 _ (by decide) _

theorem windowWrite_keeps {β : Type} {p : State → β}
    (h : ∀ (s : State) x y, p { s with hmx := { s.hmx with sram := x, ddr := y } } = p s) (s : State) (a : Nat)
    (bs : List Byte) : p (windowWrite s a bs) = p s := by
  induction bs generalizing s a with
  | nil => rfl
  | cons b bs ih =>
    refine (ih _ _).trans ?_
    split
    · exact h s _ s.hmx.ddr
    · exact h s s.hmx.sram _

theorem windowWrite_hmx {s t : State} (h : t.hmx = s.hmx) (a : Nat) (bs : List Byte) :
    (windowWrite t a bs).hmx = (windowWrite s a bs).hmx := by
  induction bs generalizing s t a with
  | nil => exact h
  | cons b bs ih => exact ih (by simp only [h]) _

/-- What a copy that puts bytes at its destination leaves, and what it puts out. -/
structure Copied (s t : State) (d : List Byte) (l : List Out) : Prop where
  same : DmaSame s t
  out : t.out = s.out ++ l
  inside : inWindow (leAt d 8 8) = true → l = []
  outside : inWindow (leAt d 8 8) = false → ∃ bs, l = [.hostWrite (lowAddr (leAt d 8 8)) bs]

theorem copied_deviceWrite {s t : State} (h : FreeMoved s t) (d bs : List Byte) :
    ∃ l, Copied s (deviceWrite t (leAt d 8 8) bs) d l := by
  have hflds : t.flds = s.flds := (congrArg State.flds h :)
  have hhmx : t.hmx = s.hmx := (congrArg State.hmx h :)
  have hout : t.out = s.out := (congrArg State.out h :)
  unfold deviceWrite
  cases hw : inWindow (leAt d 8 8)
  case true =>
    refine ⟨[], ⟨.of_flds ?_ ?_, ?_, fun _ => rfl, fun hn => absurd (hw.symm.trans hn) (by decide)⟩⟩
    · exact (windowWrite_keeps (p := State.flds) (fun _ _ _ => rfl) _ _ _).trans hflds
    · exact (windowWrite_keeps (p := fun u => u.hmx.msixTab) (fun _ _ _ => rfl) _ _ _).trans (congrArg HmxSt.msixTab hhmx)
    · exact (windowWrite_out _ _ _).trans (hout.trans (List.append_nil _).symm)
  case false =>
    exact ⟨_, ⟨.of_flds hflds (congrArg HmxSt.msixTab hhmx), congrArg (· ++ _) hout,
      fun hn => absurd (hw.symm.trans hn) (by decide), fun _ => ⟨bs, rfl⟩⟩⟩

/-- The bytes of host memory that a copy has seen. -/
def seenBytes : DmaSeen → List Byte
  | .ok bs => bs
  | .hostAbort bs => bs
  | .memEcc => []

/-- The outcome of a copy by what it has seen (Table 12.4). -/
def copyOutcome (ecc : Bool) (d : List Byte) (seen : DmaSeen) : Nat × Nat :=
  if ecc then (CC.failTransientExhausted, Rsn.memEcc) else match seen with
    | .ok _ => (CC.done, 0)
    | .hostAbort _ => if inWindow (leAt d 0 8) && inWindow (leAt d 8 8) then (CC.done, 0)
        else (CC.failPeerUnreachable, Rsn.hostAbort)
    | .memEcc => if inWindow (leAt d 0 8) then (CC.failTransientExhausted, Rsn.memEcc) else (CC.done, 0)

theorem copyOutcome_done {ecc : Bool} {d : List Byte} {seen : DmaSeen} (h : (copyOutcome ecc d seen).1 = CC.done) :
    (copyOutcome ecc d seen).2 = 0 := by
  revert h
  unfold copyOutcome
  split
  · intro h; cases h
  · split
    · exact fun _ => rfl
    · split
      · exact fun _ => rfl
      · intro h; cases h
    · split
      · intro h; cases h
      · exact fun _ => rfl

/-- The memory after a copy, before its end is reported. -/
def copyMade (s : State) (d : List Byte) (o : Nat × Nat) (host : List Byte) : State :=
  if o.1 = CC.done then deviceWrite (dmaBytes s d host).2 (leAt d 8 8) (dmaBytes s d host).1
  else dmaPart s d host

theorem dmaCopy_eq (s : State) (q : Fin 4) (d : List Byte) (seen : DmaSeen) (o : Nat × Nat)
    (ho : o = copyOutcome s.hmx.dmaEcc[q] d seen) :
    dmaCopy s q d seen = dmaEnd (if o.2 = Rsn.hostAbort then hostAborted (copyMade s d o (seenBytes seen))
      else copyMade s d o (seenBytes seen)) q o.1 o.2 := by
  have habort : CC.failPeerUnreachable ≠ CC.done := by decide
  have hecc : CC.failTransientExhausted ≠ CC.done := by decide
  have hmem : Rsn.memEcc ≠ Rsn.hostAbort := by decide
  have hnone : 0 ≠ Rsn.hostAbort := by decide
  subst ho
  cases seen with
  | ok bs => cases he : s.hmx.dmaEcc[q] <;> simp [dmaCopy, copyOutcome, copyMade, seenBytes, he, hnone, hecc, hmem]
  | hostAbort bs =>
    cases hs : inWindow (leAt d 0 8) <;> cases hd : inWindow (leAt d 8 8) <;> cases he : s.hmx.dmaEcc[q] <;>
      simp [dmaCopy, copyOutcome, copyMade, seenBytes, he, hs, hd, hnone, habort, hecc, hmem]
  | memEcc =>
    cases hs : inWindow (leAt d 0 8) <;> cases he : s.hmx.dmaEcc[q] <;>
      simp [dmaCopy, copyOutcome, copyMade, seenBytes, he, hs, hnone, hecc, hmem]

theorem dmaBytes_moved (s : State) (d host : List Byte) : FreeMoved s (dmaBytes s d host).2 :=
  freeMoved_ite (windowRead_moved _ _ _) (.refl s)

theorem copied_made (s : State) (d : List Byte) (o : Nat × Nat) (host : List Byte) :
    ∃ l, Copied s (copyMade s d o host) d l := by
  unfold copyMade
  split
  · exact copied_deviceWrite (dmaBytes_moved s d host) d _
  · exact copied_deviceWrite ((dmaBytes_moved s d host).trans (u := (nextFree (dmaBytes s d host).2).2) rfl) d _

theorem Copied.aborted {s t : State} {d : List Byte} {l : List Out} (h : Copied s t d l) (rsn : Nat) :
    DmaSame s (if rsn = Rsn.hostAbort then hostAborted t else t) ∧
      (if rsn = Rsn.hostAbort then hostAborted t else t).out =
        s.out ++ l ++ (if rsn = Rsn.hostAbort then [.aer] else []) := by
  split
  · exact ⟨h.same.trans (dmaSame_aborted t), congrArg (· ++ [Out.aer]) h.out⟩
  · exact ⟨h.same, h.out.trans (List.append_nil _).symm⟩

/-- From host memory a copy writes as many of the bytes it has seen as it moved, all of them when it ends DONE. -/
theorem copyMade_window {s : State} {d : List Byte} (o : Nat × Nat) (host : List Byte) (hsrc : inWindow (leAt d 0 8) = false)
    (hdst : inWindow (leAt d 8 8) = true) : ∃ k, (o.1 = CC.done → host.length ≤ k) ∧
      (copyMade s d o host).hmx = (windowWrite s (lowAddr (leAt d 8 8)) ((host.take (leAt d 16 4)).take k)).hmx := by
  have hbytes : dmaBytes s d host = (host.take (leAt d 16 4), s) := if_neg (by simp [hsrc])
  unfold copyMade
  split
  next hdone =>
    refine ⟨host.length, fun _ => le_rfl, ?_⟩
    rw [hbytes, deviceWrite, if_pos hdst, List.take_of_length_le (List.length_take_le' _ _)]
  next hpart =>
    refine ⟨(freeWord s.free).toNat % ((host.take (leAt d 16 4)).length + 1), fun h => absurd h hpart, ?_⟩
    simp only [dmaPart, hbytes, deviceWrite, hdst, if_true, nextFree]
    exact windowWrite_hmx (s := s) (t := { s with free := s.free + 1 }) rfl _ _

theorem hostAborted_hmx (c : Prop) [Decidable c] (s : State) : (if c then hostAborted s else s).hmx = s.hmx :=
  ite_keeps (p := State.hmx) rfl rfl

theorem dmaEnd_memory (s : State) (q : Fin 4) (code rsn : Nat) :
    (dmaEnd s q code rsn).hmx.sram = s.hmx.sram ∧ (dmaEnd s q code rsn).hmx.ddr = s.hmx.ddr :=
  ⟨dmaEnd_keeps (p := fun t => t.hmx.sram) (fun _ _ => rfl) (fun _ _ _ _ => rfl) (fun _ _ _ => rfl) _ _ _ _,
    dmaEnd_keeps (p := fun t => t.hmx.ddr) (fun _ _ => rfl) (fun _ _ _ _ => rfl) (fun _ _ _ => rfl) _ _ _ _⟩

/-- A descriptor that is refused is not one aborted by the host, and one that is not has an end in the window. -/
theorem dmaCheck_refusal {s : State} {d : List Byte} {r : Nat × Nat} (h : dmaCheck s d = some r) : r.2 ≠ Rsn.hostAbort := by
  unfold dmaCheck at h
  dsimp only at h
  split at h
  · cases h; decide
  · split at h
    · cases h; decide
    · cases h

theorem inWindow_of_dmaCheck {s : State} {d : List Byte} (h : dmaCheck s d = none) (hsrc : inWindow (leAt d 0 8) = false) :
    inWindow (leAt d 8 8) = true := by
  by_contra hdst
  unfold dmaCheck at h
  dsimp only at h
  rw [if_pos (by simp [hsrc, hdst])] at h
  cases h

/-- What is put out when a descriptor of a queue ends after its copy. -/
theorem dmaEnd_out_after {s t : State} {q : Fin 4} {l : List Out} (hsame : DmaSame s t) (hout : t.out = s.out ++ l)
    (code rsn : Nat) : (dmaEnd t q code rsn).out = s.out ++ l ++
      [.hostWrite (dmaSlot s q + 21) [BitVec.ofNat 8 code, BitVec.ofNat 8 rsn], .hostWrite (dmaSlot s q + 23) [1]] ++
      dmaBell s q := by
  rw [dmaEnd_out, hout, hsame.slot, hsame.bell]

/-! ### The start of a queue (R288) -/

theorem dmaReport_keeps {β : Type} {p : State → β} {q : Fin 4} (hend : ∀ s code rsn, p (dmaEnd s q code rsn) = p s)
    (hwr : ∀ s v, p (wr s Reg.HMX_DMATAIL_TAIL v q) = p s) (code rsn : Nat) (left : List LeftDesc) (n : Nat) (s : State) :
    p (dmaReport s q code rsn left n) = p s := by
  induction n generalizing s with
  | zero => rfl
  | succ n ih => exact (ih _).trans (ite_keeps (hwr _ _) (hend _ _ _))

theorem rd_tail_dmaReport (q : Fin 4) (code rsn : Nat) (left : List LeftDesc) (n : Nat) (s : State)
    (h : rd s Reg.HMX_DMATAIL_TAIL q < 2 ^ 32) :
    rd (dmaReport s q code rsn left n) Reg.HMX_DMATAIL_TAIL q = (rd s Reg.HMX_DMATAIL_TAIL q + n) % 2 ^ 32 := by
  induction n generalizing s with
  | zero => exact (Nat.mod_eq_of_lt h).symm
  | succ n ih =>
    have hstep (c : Prop) [Decidable c] : rd (if c then wr s Reg.HMX_DMATAIL_TAIL (rd s Reg.HMX_DMATAIL_TAIL q + 1) q
        else dmaEnd s q code rsn) Reg.HMX_DMATAIL_TAIL q = (rd s Reg.HMX_DMATAIL_TAIL q + 1) % 2 ^ 32 := by
      split
      · exact rd_wr_same _ _ _ _
      · exact rd_tail_dmaEnd _ _ _ _
    refine (ih _ (by rw [hstep]; exact Nat.mod_lt _ (by decide))).trans ?_
    rw [hstep]
    omega

/-- A queue configured as a write of `HMX_DMACFG` says: its vector, and its size while it does not run. -/
def dmaSet (s : State) (q : Fin 4) (x : Nat) : State :=
  let t := wr s Reg.HMX_DMACFG_VEC (bitsOf x 5 6) q
  if rdB s Reg.HMX_DMACFG_EN q then t else wr t Reg.HMX_DMACFG_LOG (bitsOf x 1 4) q

theorem dmaSet_keeps {β : Type} {p : State → β} (h : ∀ s f v i, p (wr s f v i) = p s) (s : State) (q : Fin 4) (x : Nat) :
    p (dmaSet s q x) = p s := ite_keeps (p := p) (h _ _ _ _) ((h _ _ _ _).trans (h _ _ _ _))

theorem rd_dmaSet {g : Field} (hv : g.id ≠ Reg.HMX_DMACFG_VEC.id) (hl : g.id ≠ Reg.HMX_DMACFG_LOG.id) (s : State)
    (q : Fin 4) (x : Nat) : rd (dmaSet s q x) g q = rd s g q :=
  ite_keeps (p := fun t => rd t g q) (rd_wr_of_id_ne hv (by omega) (by omega) _ _)
    ((rd_wr_of_id_ne hl (by omega) (by omega) _ _).trans (rd_wr_of_id_ne hv (by omega) (by omega) _ _))

theorem rd_vec_dmaSet (s : State) (q : Fin 4) (x : Nat) : rd (dmaSet s q x) Reg.HMX_DMACFG_VEC q = bitsOf x 5 6 := by
  have hlog (t : State) (v : Nat) : rd (wr t Reg.HMX_DMACFG_LOG v q) Reg.HMX_DMACFG_VEC q = rd t Reg.HMX_DMACFG_VEC q :=
    rd_wr_of_id_ne (by decide) (by omega) (by omega) _ _
  have hread : rd (dmaSet s q x) Reg.HMX_DMACFG_VEC q = bitsOf x 5 6 % 64 := by
    unfold dmaSet
    dsimp only
    split
    · exact rd_wr_same _ _ _ _
    · exact (hlog _ _).trans (rd_wr_same _ _ _ _)
  exact hread.trans (Nat.mod_eq_of_lt (Nat.mod_lt _ (by decide)))

theorem rd_log_dmaSet {s : State} {q : Fin 4} (h : rdB s Reg.HMX_DMACFG_EN q = false) (x : Nat) :
    rd (dmaSet s q x) Reg.HMX_DMACFG_LOG q = bitsOf x 1 4 := by
  unfold dmaSet
  rw [h]
  exact (rd_wr_same _ _ _ _).trans (Nat.mod_eq_of_lt (Nat.mod_lt _ (by decide)))

/-- A queue that starts, what a reset left in its ring taken. -/
def dmaStarted (s : State) (q : Fin 4) (x : Nat) : State :=
  let t := wr (dmaSet s q x) Reg.HMX_DMACFG_EN 1 q
  { t with hmx := { t.hmx with left := t.hmx.left.set q.val none } }

theorem rd_dmaStarted (s : State) (q : Fin 4) (x : Nat) (g : Field) (i : Nat) :
    rd (dmaStarted s q x) g i = rd (wr (dmaSet s q x) Reg.HMX_DMACFG_EN 1 q) g i := rfl

theorem dmaSet_hmx (s : State) (q : Fin 4) (x : Nat) : (dmaSet s q x).hmx = s.hmx :=
  dmaSet_keeps (p := State.hmx) (fun _ _ _ _ => rfl) s q x

theorem dmaSet_out (s : State) (q : Fin 4) (x : Nat) : (dmaSet s q x).out = s.out :=
  dmaSet_keeps (p := State.out) (fun _ _ _ _ => rfl) s q x

theorem dmaEnable_eq (s : State) (q : Fin 4) (v : BitVec 32) (left : List LeftDesc) : dmaEnable s q v left =
    if v.toNat % 2 = 0 then wr (dmaSet s q v.toNat) Reg.HMX_DMACFG_EN 0 q
    else if rdB s Reg.HMX_DMACFG_EN q ∨ rd (dmaSet s q v.toNat) Reg.HMX_DMACFG_LOG q < 6 ∨
      12 < rd (dmaSet s q v.toNat) Reg.HMX_DMACFG_LOG q then dmaSet s q v.toNat
    else match (dmaSet s q v.toNat).hmx.left[q.val] with
      | none => dmaStarted s q v.toNat
      | some (code, rsn) => dmaReport (dmaStarted s q v.toNat) q code rsn left (min
          (((dmaSet s q v.toNat).hmx.dmaHead[q] + 2 ^ 32 - rd (dmaStarted s q v.toNat) Reg.HMX_DMATAIL_TAIL q) % 2 ^ 32)
          (2 ^ rd (dmaSet s q v.toNat) Reg.HMX_DMACFG_LOG q)) := rfl

theorem dmaEnable_stops {s : State} {q : Fin 4} {v : BitVec 32} (h : v.toNat % 2 = 0) (left : List LeftDesc) :
    dmaEnable s q v left = wr (dmaSet s q v.toNat) Reg.HMX_DMACFG_EN 0 q := if_pos h

section

variable {s : State} {q : Fin 4} {v : BitVec 32} (hv : v.toNat % 2 = 1) (hoff : rdB s Reg.HMX_DMACFG_EN q = false)
include hv hoff

theorem dmaEnable_refused (hlog : bitsOf v.toNat 1 4 < 6 ∨ 12 < bitsOf v.toNat 1 4) (left : List LeftDesc) :
    dmaEnable s q v left = dmaSet s q v.toNat := by
  rw [dmaEnable_eq, if_neg (by omega), if_pos (by rw [rd_log_dmaSet hoff]; exact .inr hlog)]

theorem dmaEnable_starts (hlo : 6 ≤ bitsOf v.toNat 1 4) (hhi : bitsOf v.toNat 1 4 ≤ 12) (left : List LeftDesc) :
    dmaEnable s q v left = match s.hmx.left[q.val] with
      | none => dmaStarted s q v.toNat
      | some (code, rsn) => dmaReport (dmaStarted s q v.toNat) q code rsn left (min
          ((s.hmx.dmaHead[q] + 2 ^ 32 - rd (dmaStarted s q v.toNat) Reg.HMX_DMATAIL_TAIL q) % 2 ^ 32)
          (2 ^ bitsOf v.toNat 1 4)) := by
  rw [dmaEnable_eq, if_neg (by omega), rd_log_dmaSet hoff, if_neg (by rw [hoff]; simp; omega), dmaSet_hmx]

end

/-- What a queue that starts shows. -/
theorem dmaStarted_reads {s : State} {q : Fin 4} (hoff : rdB s Reg.HMX_DMACFG_EN q = false) (x : Nat) :
    rd (dmaStarted s q x) Reg.HMX_DMACFG_EN q = 1 ∧ rd (dmaStarted s q x) Reg.HMX_DMACFG_LOG q = bitsOf x 1 4 ∧
    rd (dmaStarted s q x) Reg.HMX_DMACFG_VEC q = bitsOf x 5 6 ∧
    rd (dmaStarted s q x) Reg.HMX_DMATAIL_TAIL q = rd s Reg.HMX_DMATAIL_TAIL q := by
  have hne {g : Field} (h : g.id ≠ Reg.HMX_DMACFG_EN.id) : rd (dmaStarted s q x) g q = rd (dmaSet s q x) g q :=
    (rd_dmaStarted _ _ _ _ _).trans (rd_wr_of_id_ne h (by omega) (by omega) _ _)
  exact ⟨(rd_dmaStarted _ _ _ _ _).trans (rd_wr_same _ _ _ _), (hne (by decide)).trans (rd_log_dmaSet hoff x), (hne (by decide)).trans (rd_vec_dmaSet s q x),
    (hne (by decide)).trans (rd_dmaSet (by decide) (by decide) s q x)⟩

theorem dmaStarted_left (s : State) (q : Fin 4) (x : Nat) : (dmaStarted s q x).hmx.left[q.val] = none :=
  Vector.getElem_set_self _

theorem rd_dmaReport {g : Field} (h : g.id ≠ Reg.HMX_DMATAIL_TAIL.id) (s : State) (q : Fin 4) (code rsn : Nat)
    (left : List LeftDesc) (n : Nat) : rd (dmaReport s q code rsn left n) g q = rd s g q :=
  dmaReport_keeps (p := fun t => rd t g q) (fun _ _ _ => rd_dmaEnd_ne h (by omega) _ _ _)
    (fun _ _ => rd_wr_of_id_ne h (by omega) (by omega) _ _) _ _ _ _ _

theorem dmaReport_left (s : State) (q : Fin 4) (code rsn : Nat) (left : List LeftDesc) (n : Nat) :
    (dmaReport s q code rsn left n).hmx.left = s.hmx.left :=
  dmaReport_keeps (p := fun t => t.hmx.left) (fun s code rsn => dmaEnd_keeps (p := fun t => t.hmx.left) (fun _ _ => rfl)
    (fun _ _ _ _ => rfl) (fun _ _ _ => rfl) s q code rsn) (fun _ _ => rfl) _ _ _ _ _

theorem dmaEnable_effect (s : State) (q : Fin 4) (v : BitVec 32) (left : List LeftDesc) :
    (v.toNat % 2 = 0 → Completes (exec (.dmaQueueEnable q v left) s) fun t =>
      rd t Reg.HMX_DMACFG_EN q = 0 ∧ rd t Reg.HMX_DMACFG_VEC q = bitsOf v.toNat 5 6 ∧ t.hmx = s.hmx ∧ t.out = s.out) ∧
    (v.toNat % 2 = 1 → rd s Reg.HMX_DMACFG_EN q = 0 →
      ((bitsOf v.toNat 1 4 < 6 ∨ 12 < bitsOf v.toNat 1 4) →
        Completes (exec (.dmaQueueEnable q v left) s) fun t => rd t Reg.HMX_DMACFG_EN q = 0 ∧ t.out = s.out) ∧
      (6 ≤ bitsOf v.toNat 1 4 → bitsOf v.toNat 1 4 ≤ 12 →
        Completes (exec (.dmaQueueEnable q v left) s) fun t =>
          rd t Reg.HMX_DMACFG_EN q = 1 ∧ rd t Reg.HMX_DMACFG_LOG q = bitsOf v.toNat 1 4 ∧
          rd t Reg.HMX_DMACFG_VEC q = bitsOf v.toNat 5 6 ∧ t.hmx.left[q.val] = none ∧
          (s.hmx.left[q.val] = none → t.out = s.out) ∧
          ∀ e, s.hmx.left[q.val] = some e → rd s Reg.HMX_DMATAIL_TAIL q < 2 ^ 32 →
            rd t Reg.HMX_DMATAIL_TAIL q = (rd s Reg.HMX_DMATAIL_TAIL q + min (2 ^ bitsOf v.toNat 1 4)
              ((s.hmx.dmaHead[q] + 2 ^ 32 - rd s Reg.HMX_DMATAIL_TAIL q) % 2 ^ 32)) % 2 ^ 32)) := by
  refine ⟨fun hv => ?_, fun hv hen => ?_⟩
  · exact ⟨_, congrArg Host.Outcome.next (dmaEnable_stops hv left), rd_wr_same _ _ _ _,
      (rd_wr_of_id_ne (by decide) (by omega) (by omega) _ _).trans (rd_vec_dmaSet s q _), dmaSet_hmx s q _, dmaSet_out s q _⟩
  have hoff : rdB s Reg.HMX_DMACFG_EN q = false := by simp [rdB, hen]
  refine ⟨fun hlog => ?_, fun hlo hhi => ?_⟩
  · exact ⟨_, congrArg Host.Outcome.next (dmaEnable_refused hv hoff hlog left),
      (rd_dmaSet (by decide) (by decide) s q _).trans hen, dmaSet_out s q _⟩
  obtain ⟨hon, hsize, hvec, htail⟩ := dmaStarted_reads hoff v.toNat
  refine ⟨_, congrArg Host.Outcome.next (dmaEnable_starts hv hoff hlo hhi left), ?_⟩
  rw [htail]
  cases hleft : s.hmx.left[q.val] with
  | none =>
    exact ⟨hon, hsize, hvec, dmaStarted_left s q _, fun _ => dmaSet_out s q _, fun e he => absurd he (by simp)⟩
  | some e =>
    refine ⟨(rd_dmaReport (by decide) _ _ _ _ _ _).trans hon, (rd_dmaReport (by decide) _ _ _ _ _ _).trans hsize,
      (rd_dmaReport (by decide) _ _ _ _ _ _).trans hvec, ?_, fun h => absurd h (by simp), fun _ _ hlt => ?_⟩
    · simp only [dmaReport_left]
      exact dmaStarted_left s q _
    · rw [rd_tail_dmaReport _ _ _ _ _ _ (by rwa [htail]), htail, Nat.min_comm]

/-! ### The end of a descriptor, with or without its copy -/

theorem dmaDescriptorEnd_effect {s : State} {q : Fin 4} (hbusy : dmaBusy s q = true) (hruns : lsvRuns s = true)
    (d : List Byte) (seen : DmaSeen) : Completes (exec (.dmaDescriptorEnd q d seen) s) fun t =>
      rd t Reg.HMX_DMATAIL_TAIL q = (rd s Reg.HMX_DMATAIL_TAIL q + 1) % 2 ^ 32 ∧
      ∃ (l : List Out) (code rsn : Nat),
        t.out = s.out ++ l ++ (if rsn = Rsn.hostAbort then [.aer] else []) ++
          [.hostWrite (dmaSlot s q + 21) [BitVec.ofNat 8 code, BitVec.ofNat 8 rsn],
          .hostWrite (dmaSlot s q + 23) [1]] ++ dmaBell s q ∧
        match dmaCheck s d with
        | some r => l = [] ∧ (code, rsn) = r ∧ t.hmx.sram = s.hmx.sram ∧ t.hmx.ddr = s.hmx.ddr
        | none =>
          (code, rsn) = copyOutcome s.hmx.dmaEcc[q] d seen ∧
          (inWindow (leAt d 8 8) = true → l = []) ∧
          (inWindow (leAt d 8 8) = false → ∃ bs, l = [.hostWrite (lowAddr (leAt d 8 8)) bs]) ∧
          ∀ bs, (seen = .ok bs ∨ seen = .hostAbort bs) → inWindow (leAt d 0 8) = false → ∃ k,
            (code = CC.done → bs.length ≤ k) ∧
            let w := windowWrite s (lowAddr (leAt d 8 8)) ((bs.take (leAt d 16 4)).take k)
            t.hmx.sram = w.hmx.sram ∧ t.hmx.ddr = w.hmx.ddr := by
  have hexec : exec (.dmaDescriptorEnd q d seen) s = .next (match dmaCheck s d with
      | some r => dmaEnd s q r.1 r.2
      | none => dmaCopy s q d seen) := congrArg Host.Outcome.next (if_pos (by rw [hbusy, hruns]; rfl))
  refine ⟨_, hexec, ?_⟩
  cases hcheck : dmaCheck s d with
  | some r =>
    refine ⟨rd_tail_dmaEnd _ _ _ _, [], r.1, r.2, ?_, rfl, rfl, (dmaEnd_memory s q r.1 r.2).1, (dmaEnd_memory s q r.1 r.2).2⟩
    rw [if_neg (dmaCheck_refusal hcheck), List.append_nil]
    exact dmaEnd_out_after (t := s) (l := []) (.of_flds rfl rfl) (List.append_nil _).symm _ _
  | none =>
    obtain ⟨o, ho⟩ : ∃ o, o = copyOutcome s.hmx.dmaEcc[q] d seen := ⟨_, rfl⟩
    obtain ⟨l, hcopy⟩ := copied_made s d o (seenBytes seen)
    obtain ⟨hsame, hout⟩ := hcopy.aborted o.2
    dsimp only
    rw [dmaCopy_eq s q d seen o ho]
    refine ⟨(rd_tail_dmaEnd _ _ _ _).trans (by rw [hsame.tail]), l, o.1, o.2, ?_, ho, hcopy.inside, hcopy.outside,
      fun bs hseen hsrc => ?_⟩
    · rw [List.append_assoc s.out] at hout ⊢
      exact dmaEnd_out_after hsame hout o.1 o.2
    · have hbytes : seenBytes seen = bs := by rcases hseen with rfl | rfl <;> rfl
      obtain ⟨k, hk, hmem⟩ := copyMade_window (s := s) o (seenBytes seen) hsrc (inWindow_of_dmaCheck hcheck hsrc)
      rw [hbytes] at hk hmem ⊢
      exact ⟨k, hk, by rw [(dmaEnd_memory _ _ _ _).1, hostAborted_hmx, hmem], by
        rw [(dmaEnd_memory _ _ _ _).2, hostAborted_hmx, hmem]⟩

/-- Settles O48: the unmasking of a vector, the doorbell, the end of a descriptor and the start of a queue. -/
theorem vectorsAndDma : Obligations.VectorsAndDma := by
  unfold Obligations.VectorsAndDma
  refine fun s => ⟨fun v => msixUnmask_effect s v, fun q => ⟨fun head => rfl, fun hbusy hruns d seen slot hslot => ?_,
    fun v left => dmaEnable_effect s q v left⟩⟩
  subst hslot
  exact dmaDescriptorEnd_effect hbusy hruns d seen

end Sys2Proof.Machine
end

section
/-! SUPPORT. Host memory and the host link (R284, R286, R287, R290, R291, R294, R295): the upset of a channel, the training of
the memory and of the link, and the endpoint reset. -/

namespace Sys2Proof.Machine

/-! ### Accesses and training -/

theorem bar2Refused_effect {s : State} {off n : Nat} (h : windowOk s (bar2Addr s off) n = false) (w : Option (List Byte)) :
    Completes (exec (.bar2Refused off n w) s) fun t =>
      rd t Reg.HMX_HERR_ACC = min (rd s Reg.HMX_HERR_ACC + 1) 65535 ∧
      OnlyFields { s with out := t.out } t [(Reg.HMX_HERR_ACC, 0)] ∧
      t.out = s.out ++ (if w.isNone then [.readData 0] else []) := by
  have hcount := bump_same s Reg.HMX_HERR_ACC 0 1
  have hrest : FieldsBut s (bump s Reg.HMX_HERR_ACC) [(Reg.HMX_HERR_ACC, 0)] := fieldsBut_wr (by simp) _ _
  cases w with
  | none =>
    refine ⟨emit (bump s Reg.HMX_HERR_ACC) (.readData 0), ?_, hcount, ⟨rfl, hrest⟩, rfl⟩
    exact congrArg Host.Outcome.next (by simp only [h, Bool.false_eq_true, if_false])
  | some bs =>
    refine ⟨bump s Reg.HMX_HERR_ACC, ?_, hcount, ⟨rfl, hrest⟩, (List.append_nil _).symm⟩
    exact congrArg Host.Outcome.next (by simp only [h, Bool.false_eq_true, if_false])

theorem bar2Refused_taken {s : State} {off n : Nat} (h : windowOk s (bar2Addr s off) n = true) (bs : List Byte) :
    exec (.bar2Refused off n (some bs)) s = .next (windowWrite s (bar2Addr s off) (bs.take n)) :=
  congrArg Host.Outcome.next (by simp only [h, if_true])

/-- The rate code of a channel: 0 for one that is disabled. -/
def rateCode (c : Option (Fin 4)) : Nat := match c with | some r => r.val | none => 0

/-- The memory as its training ended. -/
def ddrShown (s : State) (c0 c1 : Option (Fin 4)) (size : BitVec 10) : State :=
  let t := wrB (wrB s Reg.HMX_DDRSTS_CH0 c0.isSome) Reg.HMX_DDRSTS_CH1 c1.isSome
  let t := wr (wr t Reg.HMX_DDRSTS_RATE0 (rateCode c0)) Reg.HMX_DDRSTS_RATE1 (rateCode c1)
  wr t Reg.HMX_DDRSTS_SIZE (if c0.isNone && c1.isNone then 0
    else if c0.isSome && c1.isSome then size.toNat else size.toNat / 2)

/-- A rate below the one that is configured, or no channel at all. -/
def ddrDegraded (s : State) (c : Option (Fin 4)) : Bool :=
  match c with | some r => decide (rd s Reg.HMX_DDRCFG_RATE < r.val) | none => true

theorem ddrTrain_eq {s : State} {c0 c1 : Option (Fin 4)} {size : BitVec 10} (hm : modeIs s = .recall)
    (hd : rd s Reg.HMX_DDRCFG_DRAM ≠ 0) (hrate : ∀ r, (c0 = some r ∨ c1 = some r) → rd s Reg.HMX_DDRCFG_RATE ≤ r.val)
    (hlo : 128 ≤ size.toNat) (hhi : size.toNat ≤ 512) : ddrTrain s c0 c1 size =
      if ddrDegraded s c0 || ddrDegraded s c1 then
        event (ddrShown s c0 c1 size) Ev.ddrTrain .warning [rateCode c0, rateCode c1]
      else ddrShown s c0 c1 size := by
  have hslow {c : Option (Fin 4)} (hc : ∀ r, c = some r → rd s Reg.HMX_DDRCFG_RATE ≤ r.val) :
      ¬(c.any fun r => decide (r.val < rd s Reg.HMX_DDRCFG_RATE)) = true := by
    cases c with
    | none => simp
    | some r => have := hc r rfl; simp; omega
  have h0 := hslow fun r hr => hrate r (.inl hr)
  have h1 := hslow fun r hr => hrate r (.inr hr)
  exact if_neg (not_or.mpr ⟨not_not.mpr hm, not_or.mpr ⟨hd, not_or.mpr ⟨h0, not_or.mpr ⟨h1, by omega⟩⟩⟩⟩)

theorem ddrShown_reads (s : State) (c0 c1 : Option (Fin 4)) (size : BitVec 10) :
    rdB (ddrShown s c0 c1 size) Reg.HMX_DDRSTS_CH0 = c0.isSome ∧ rdB (ddrShown s c0 c1 size) Reg.HMX_DDRSTS_CH1 = c1.isSome ∧
    rd (ddrShown s c0 c1 size) Reg.HMX_DDRSTS_RATE0 = rateCode c0 % 4 ∧
    rd (ddrShown s c0 c1 size) Reg.HMX_DDRSTS_RATE1 = rateCode c1 % 4 ∧
    rd (ddrShown s c0 c1 size) Reg.HMX_DDRSTS_SIZE = (if c0.isNone && c1.isNone then 0
      else if c0.isSome && c1.isSome then size.toNat else size.toNat / 2) % 1024 := by
  have hbit (b : Bool) : decide ((if b then 1 else 0) % 2 = 1) = b := by cases b <;> rfl
  refine ⟨?_, ?_, ?_, ?_, ?_⟩
  · simp (disch := decide) only [rdB, ddrShown, wrB, rd_wr_ne, rd_wr_same]
    exact hbit _
  · simp (disch := decide) only [rdB, ddrShown, wrB, rd_wr_ne, rd_wr_same]
    exact hbit _
  · simp (disch := decide) only [ddrShown, rd_wr_ne, rd_wr_same]
    rfl
  · simp (disch := decide) only [ddrShown, rd_wr_ne, rd_wr_same]
    rfl
  · exact rd_wr_same _ _ _ _

theorem rd_ddrTrain {g : Field} (h : ∀ f ∈ recorderFields, g.id ≠ f.id) (c : Prop) [Decidable c] (s : State)
    (ps : List Nat) : rd (if c then event s Ev.ddrTrain .warning ps else s) g = rd s g :=
  ite_keeps (p := (rd · g)) (rd_event h (by decide) _ _ _ _) rfl

theorem ddrTrain_effect {s : State} {c0 c1 : Option (Fin 4)} {size : BitVec 10} (hm : modeIs s = .recall)
    (hd : rd s Reg.HMX_DDRCFG_DRAM ≠ 0) (hrate : ∀ r, (c0 = some r ∨ c1 = some r) → rd s Reg.HMX_DDRCFG_RATE ≤ r.val)
    (hlo : 128 ≤ size.toNat) (hhi : size.toNat ≤ 512) : Completes (exec (.ddrTrainComplete c0 c1 size) s) fun t =>
      rdB t Reg.HMX_DDRSTS_CH0 = c0.isSome ∧ rdB t Reg.HMX_DDRSTS_CH1 = c1.isSome ∧
      (∀ r, c0 = some r → rd t Reg.HMX_DDRSTS_RATE0 = r.val) ∧
      (∀ r, c1 = some r → rd t Reg.HMX_DDRSTS_RATE1 = r.val) ∧
      rd t Reg.HMX_DDRSTS_SIZE = if c0 = none ∧ c1 = none then 0
        else if c0 = none ∨ c1 = none then size.toNat / 2 else size.toNat := by
  obtain ⟨hch0, hch1, hrate0, hrate1, hsize⟩ := ddrShown_reads s c0 c1 size
  refine ⟨_, congrArg Host.Outcome.next (ddrTrain_eq hm hd hrate hlo hhi), ?_, ?_, fun r hr => ?_, fun r hr => ?_, ?_⟩
  · exact (rdB_of_rd (rd_ddrTrain (by decide) _ _ _)).trans hch0
  · exact (rdB_of_rd (rd_ddrTrain (by decide) _ _ _)).trans hch1
  · rw [rd_ddrTrain (by decide), hrate0, hr]
    exact Nat.mod_eq_of_lt r.isLt
  · rw [rd_ddrTrain (by decide), hrate1, hr]
    exact Nat.mod_eq_of_lt r.isLt
  · rw [rd_ddrTrain (by decide), hsize]
    cases c0 <;> cases c1 <;> simp <;> omega

/-! ### The upset of a channel (R295, R391) -/

/-- A channel of the host memory that has suffered its first upset: it has no status word of its own. -/
def channelSuspect (s : State) (r : Resource) : State :=
  { s with ssu := { s.ssu with windows := s.ssu.windows ++ [⟨r, .inService, s.tb.tick⟩] } }

theorem windowClose_of_inService {s : State} {r : Resource} (hword : statusOf r = none) (h : resState s r = .inService) :
    windowClose s r = s := by
  have hnone : s.ssu.windows.any (·.res = r) = false := by
    simp only [resState, hword] at h
    by_contra hany
    simp only [Bool.not_eq_false] at hany
    rw [hany] at h
    split at h <;> cases h
  have hfind : s.ssu.windows.find? (·.res = r) = none := by
    rw [List.find?_eq_none]
    exact List.any_eq_false.mp hnone
  unfold windowClose
  rw [hfind]

theorem upset_channel {s : State} {r : Resource} (hword : statusOf r = none) (h : resState s r = .inService)
    (work : State → State) : upset s r work = (channelSuspect s r, false) := by
  unfold upset
  rw [windowClose_of_inService hword h]
  simp only [h, setResState, setFcount, hword]
  rfl

theorem statusOf_channel (ch : Fin 2) : statusOf ⟨.solver, 16 + ch.val⟩ = none :=
  if_neg (show ¬16 + ch.val < 16 by omega)

theorem ddrUncorr_effect {s : State} (hawake : ddrAwake s = true) {ch : Fin 2}
    (hch : resState s ⟨.solver, 16 + ch.val⟩ = .inService) (place : Nat) :
    Completes (exec (.ddrUncorrectable ch place) s) fun t =>
      (5 ≤ place → t = { s with out := s.out ++ [.poisoned], ssu := t.ssu } ∧
        t.ssu.windows = s.ssu.windows ++ [⟨⟨.solver, 16 + ch.val⟩, .inService, s.tb.tick⟩]) ∧
      (∀ q : Fin 4, place = q.val + 1 → dmaBusy s q = true →
        t.hmx = { s.hmx with dmaEcc := s.hmx.dmaEcc.set q true } ∧ t.out = s.out) := by
  have hupset := upset_channel (statusOf_channel ch) hch (fun s => ddrRetired s ch)
  refine ⟨_, rfl, fun hp => ?_, fun q hq hbusy => ?_⟩
  · have hend : ddrUncorr s ch place = emit (channelSuspect s ⟨.solver, 16 + ch.val⟩) .poisoned := by
      simp only [ddrUncorr, hawake, hupset, Bool.not_true, Bool.false_eq_true, if_false]
      rw [if_neg (by omega), dif_neg (by omega)]
    rw [hend]
    exact ⟨rfl, rfl⟩
  · subst hq
    have hbusy' : dmaBusy (channelSuspect s ⟨.solver, 16 + ch.val⟩) q = true := hbusy
    have hend : ddrUncorr s ch (q.val + 1) = { channelSuspect s ⟨.solver, 16 + ch.val⟩ with
        hmx := { s.hmx with dmaEcc := s.hmx.dmaEcc.set q true } } := by
      simp only [ddrUncorr, hawake, hupset, Bool.not_true, Bool.false_eq_true, if_false]
      rw [if_neg (by omega), dif_pos (by omega)]
      exact if_pos hbusy'
    rw [hend]
    exact ⟨rfl, rfl⟩

theorem ddrPatrolScrub_effect {s : State} (h : ddrAwake s = true) (k : Nat) :
    Completes (exec (.ddrPatrolScrub k) s) fun t =>
      rd t Reg.HMX_DDRSTS_CORR = min (rd s Reg.HMX_DDRSTS_CORR + k) 65535 ∧ OnlyFields s t [(Reg.HMX_DDRSTS_CORR, 0)] :=
  ⟨_, congrArg Host.Outcome.next (if_pos h), bump_same s Reg.HMX_DDRSTS_CORR 0 k, rfl, fieldsBut_wr (by simp) _ _⟩

/-! ### The link (R284, R287) -/

theorem pcieLinkTrained_effect (s : State) (gen : Fin 4) {width : Fin 8} (h : width = 1 ∨ width = 2 ∨ width = 4) :
    Completes (exec (.pcieLinkTrained gen width) s) fun t =>
      rd t Reg.HMX_STATUS_GEN = gen.val ∧ rd t Reg.HMX_STATUS_WIDTH = width.val ∧ rd t Reg.HMX_STATUS_LINKUP = 1 ∧
      rd t Reg.HMX_STATUS_QUAL = qualCode .good ∧ (pcieConfig t).isSome = true ∧
      OnlyFields { s with hmx := { s.hmx with cfgReady := true } } t [(Reg.HMX_STATUS_GEN, 0), (Reg.HMX_STATUS_WIDTH, 0),
        (Reg.HMX_STATUS_LINKUP, 0), (Reg.HMX_STATUS_QUAL, 0)] := by
  let l := wr (wr (wr (wr s Reg.HMX_STATUS_GEN gen.val) Reg.HMX_STATUS_WIDTH width.val) Reg.HMX_STATUS_LINKUP 1)
    Reg.HMX_STATUS_QUAL 0
  have hgen : rd l Reg.HMX_STATUS_GEN = gen.val % 4 := by
    simp (disch := decide) only [l, rd_wr_ne, rd_wr_same]
    rfl
  have hwidth : rd l Reg.HMX_STATUS_WIDTH = width.val % 8 := by
    simp (disch := decide) only [l, rd_wr_ne, rd_wr_same]
    rfl
  have hup : rd l Reg.HMX_STATUS_LINKUP = 1 := by
    simp (disch := decide) only [l, rd_wr_ne, rd_wr_same]
    rfl
  have hqual : rd l Reg.HMX_STATUS_QUAL = 0 := rd_wr_same _ _ _ _
  have hfields : FieldsBut s l [(Reg.HMX_STATUS_GEN, 0), (Reg.HMX_STATUS_WIDTH, 0), (Reg.HMX_STATUS_LINKUP, 0),
      (Reg.HMX_STATUS_QUAL, 0)] :=
    (((fieldsBut_wr (by simp) s _).trans (fieldsBut_wr (by simp) _ _)).trans (fieldsBut_wr (by simp) _ _)).trans
      (fieldsBut_wr (by simp) _ _)
  exact ⟨_, congrArg Host.Outcome.next (if_pos h), hgen.trans (Nat.mod_eq_of_lt gen.isLt),
    hwidth.trans (Nat.mod_eq_of_lt width.isLt), hup, hqual, rfl, rfl, hfields⟩

/-! ### The endpoint reset (R286) -/

/-- The fields that the end of the held jobs, of the fetches and of a quote set. -/
def endpointFields : List Field := [Reg.LSV_CANCELSTS_CC, Reg.LSV_CANCELSTS_RSN, Reg.LSV_CANCELSTS_PEND, Reg.LSV_QSTS_DEPTH,
  Reg.LSV_QSTS_BUSY, Reg.CSA_OLC_STATE, Reg.CSA_OLC_CC, Reg.CSA_OLC_RSN, Reg.CSA_OLC_PEND, Reg.FCT_STATUS_SHSTATE,
  Reg.FCT_SHDIG_LO_SHDIG, Reg.FCT_SHDIG_HI_SHDIG, Reg.FCT_SWSTS_CC, Reg.FCT_SWSTS_RSN, Reg.FCT_SWSTS_PEND,
  Reg.SSU_QSTS_CC, Reg.SSU_QSTS_RSN, Reg.SSU_QSTS_PEND, Reg.SSU_OTPSTS_CC, Reg.SSU_OTPSTS_RSN, Reg.SSU_OTPSTS_PEND,
  Reg.SSU_SECSTS_USABLE, Reg.SSU_SECSTS_REVOKED, Reg.SSU_SECSTS_JTAGOFF, Reg.SSU_SECSTS_BISTSTART, Reg.SSU_SVN_PFLOOR,
  Reg.SSU_SVN_FFLOOR, Reg.SSU_DEVID_LO_DEVID, Reg.SSU_DEVID_HI_DEVID]

/-- A view of the state in which those ends do not show. -/
structure EndpointBlind {β : Type} (p : State → β) : Prop where
  field : ∀ f ∈ endpointFields, ∀ s v, p (wr s f v) = p s
  csa : ∀ s x, p { s with csa := x } = p s
  fct : ∀ s x, p { s with fct := x } = p s
  otp : ∀ s x, p { s with ssu := { s.ssu with otp := x } } = p s
  free : ∀ s x, p { s with free := x } = p s

/-- A state whose waiting OTP command is taken. -/
def waitTaken (s : State) : State := { s with ssu := { s.ssu with otpWait := none } }

theorem quoteEnd_of_some {s : State} {c : OtpCmd} (h : s.ssu.otpWait = some c) (code rsn : Nat) :
    quoteEnd s code rsn = otpRun (waitTaken (quoteOver s code rsn)) c := by
  have hwait : (quoteOver s code rsn).ssu.otpWait = some c := h
  unfold quoteOver at hwait
  simp only [quoteEnd, hwait]
  rfl

theorem waitTaken_quoteOver (s : State) (code rsn : Nat) : (waitTaken (quoteOver s code rsn)).ssu.quote = none := rfl

namespace EndpointBlind

variable {β : Type} {p : State → β} (h : EndpointBlind p)
include h

theorem setStatus {cc rsn pend : Field}
    (hmem : cc ∈ endpointFields ∧ rsn ∈ endpointFields ∧ pend ∈ endpointFields) (s : State) (code reason : Nat) :
    p (setStatus s cc rsn pend code reason) = p s := by
  obtain ⟨hcc, hrsn, hpend⟩ := hmem
  exact (h.field _ hpend _ _).trans <| (h.field _ hrsn _ _).trans (h.field _ hcc _ _)

theorem otpDone (s : State) (ok : Bool) : p (otpDone s ok) = p s :=
  ite_keeps (p := p) (h.setStatus (by decide) _ _ _) (h.setStatus (by decide) _ _ _)

theorem showOtp (s : State) : p (showOtp s) = p s := by
  unfold Machine.showOtp wrB
  dsimp only
  iterate 8 rw [h.field _ (by decide)]

theorem putOtp (s : State) (o : Otp) : p (putOtp s o) = p s := (h.showOtp _).trans (h.otp _ _)

theorem putHalf (s : State) (n : Nat) (x : Option Program) : p (putHalf s n x) = p s :=
  ite_keeps (p := p) (h.csa s _) (h.csa s _)

theorem putShadow (s : State) (x : Option Facet) : p (putShadow s x) = p s :=
  (h.field _ (by decide) _ _).trans <| (h.field _ (by decide) _ _).trans (h.fct s _)

theorem otpRecheck (s : State) : p (otpRecheck s) = p s :=
  otpRecheck_keeps (fun s _ n x => (h.field _ (by decide) _ _).trans (h.putHalf s n x))
    (fun s _ x => (h.field _ (by decide) _ _).trans (h.putShadow s x)) s

theorem raiseFloor (s : State) (facet : Bool) (v : Nat) (ok : Bool) : p (raiseFloor s facet v ok) = p s := by
  refine ite_keeps (p := p) (h.setStatus (by decide) _ _ _) ((h.otpDone _ _).trans <| (h.otpRecheck _).trans <|
    (h.putOtp _ _).trans ?_)
  cases ok
  · exact h.free s _
  · rfl

/-- What an OTP command does. -/
theorem otpRun (s : State) (c : OtpCmd) : p (otpRun s c) = p s := by
  cases c with
  | programRoot i ok => exact ite_keeps (p := p) (h.setStatus (by decide) _ _ _) ((h.otpDone _ _).trans (h.putOtp _ _))
  | revoke i ok =>
    exact ite_keeps (p := p) ((h.otpDone _ _).trans <| (h.otpRecheck _).trans (h.putOtp _ _))
      (h.setStatus (by decide) _ _ _)
  | raise facet v ok => exact h.raiseFloor s facet v.toNat ok
  | policy jtag ok => exact (h.otpDone _ _).trans (h.putOtp _ _)

theorem endFetch (s : State) (code rsn : Nat) : p (endFetch s code rsn) = p s := by
  have hload (s : State) : p (loadFail s code rsn) = p s :=
    (h.setStatus (by decide) _ _ _).trans <| (h.field _ (by decide) _ _).trans (h.csa s _)
  have hprepare (s : State) : p (prepareFail s code rsn) = p s :=
    (h.setStatus (by decide) _ _ _).trans <| (h.field _ (by decide) _ _).trans <| (h.putShadow _ _).trans (h.fct s _)
  exact ite_keeps (p := p) ((hprepare _).trans (ite_keeps (p := p) (hload _) rfl)) (ite_keeps (p := p) (hload _) rfl)

theorem settleCancel (hlsv : ∀ s x, p { s with lsv := x } = p s) (s : State) (j : Job) (cancelled : Bool) :
    p (settleCancel s j cancelled) = p s :=
  ite_keeps (p := p) rfl <| ite_keeps (p := p) ((h.setStatus (by decide) _ _ _).trans (hlsv s _))
    ((h.setStatus (by decide) _ _ _).trans (hlsv s _))

omit h in
theorem tellParts (hlsv : ∀ s x, p { s with lsv := x } = p s) (hcasc : ∀ s n b, p (sendCasc s n b) = p s) (s : State)
    (j : Job) (code rsn : Nat) : p (tellParts s j code rsn) = p s := by
  unfold Machine.tellParts
  refine ite_keeps (p := p) rfl ?_
  split
  · exact (sendParts_keeps hcasc _ _ _).trans (hlsv s _)
  · exact ite_keeps (p := p) rfl (sendPart_keeps hcasc _ _ _ _)

theorem setHeld (hlsv : ∀ s x, p { s with lsv := x } = p s) (s : State) (l : List Job) : p (setHeld s l) = p s :=
  (h.field _ (by decide) _ _).trans <| (h.field _ (by decide) _ _).trans (hlsv s _)

theorem dropJobs (hlsv : ∀ s x, p { s with lsv := x } = p s) (hcasc : ∀ s n b, p (sendCasc s n b) = p s) (s : State) :
    p (dropJobs s) = p s :=
  (h.setHeld hlsv _ _).trans <| (hlsv _ _).trans <| foldl_keeps p (fun s _ => (h.settleCancel hlsv _ _ _).trans
    (tellParts hlsv hcasc s _ _ _)) _ s

/-- The end of a quote, with the OTP command that waited for it. -/
theorem quoteEnd (hquote : ∀ s q w, p { s with ssu := { s.ssu with quote := q, otpWait := w } } = p s) (s : State)
    (code rsn : Nat) : p (quoteEnd s code rsn) = p s := by
  have hover (s : State) : p (quoteOver s code rsn) = p s :=
    (h.setStatus (by decide) _ _ _).trans (hquote s none s.ssu.otpWait)
  cases hw : s.ssu.otpWait with
  | none => rw [quoteEnd_of_none hw, hover]
  | some c =>
    rw [quoteEnd_of_some hw, h.otpRun]
    exact (hquote _ _ none).trans (hover s)

end EndpointBlind

/-- A field that those ends do not set. -/
theorem endpointBlind_rd {g : Field} {j : Nat} (h : ∀ f ∈ endpointFields, g.id ≠ f.id) (hj : j < 8192) :
    EndpointBlind (rd · g j) where
  field f hf s v := rd_wr_of_id_ne (h f hf) (by omega) hj s v
  csa _ _ := rfl
  fct _ _ := rfl
  otp _ _ := rfl
  free _ _ := rfl

theorem disableRings_keeps {β : Type} {p : State → β} (h : ∀ s f v i, p (wr s f v i) = p s) (s : State) :
    p (disableRings s) = p s :=
  (foldl_keeps p (fun _ _ => h _ _ _ _) _ _).trans <| (h _ _ _ _).trans <| (h _ _ _ _).trans (h _ _ _ _)

/-- A state whose jobs, rings, fetches and quote an endpoint reset has ended. -/
def endpointEnded (s : State) : State :=
  let u := endFetch (disableRings (dropJobs s)) CC.failAbandoned Rsn.hostReset
  if u.ssu.quote.isSome then quoteEnd u CC.failAbandoned Rsn.hostReset else u

theorem endpointEnded_keeps {β : Type} {p : State → β} (h : EndpointBlind p)
    (hquote : ∀ s q w, p { s with ssu := { s.ssu with quote := q, otpWait := w } } = p s) (s : State) :
    p (endpointEnded s) = p (disableRings (dropJobs s)) :=
  (ite_keeps (p := p) (h.quoteEnd hquote _ _ _) rfl).trans (h.endFetch _ _ _)

theorem endpointEnded_quote (s : State) : (endpointEnded s).ssu.quote = none := by
  have hblind : EndpointBlind (fun t => t.ssu.quote) :=
    ⟨fun _ _ _ _ => rfl, fun _ _ => rfl, fun _ _ => rfl, fun _ _ => rfl, fun _ _ => rfl⟩
  unfold endpointEnded
  dsimp only
  split
  · cases hw : (endFetch (disableRings (dropJobs s)) CC.failAbandoned Rsn.hostReset).ssu.otpWait with
    | none => rw [quoteEnd_of_none hw]; rfl
    | some c => rw [quoteEnd_of_some hw, hblind.otpRun, waitTaken_quoteOver]
  next h => simpa using h

/-- The rings are disabled and stay so. -/
theorem endpointEnded_rings (s : State) : rd (endpointEnded s) Reg.LSV_RINGCFG_EN = 0 ∧
    rd (endpointEnded s) Reg.MTE_LRCFG_EN = 0 ∧ rd (endpointEnded s) Reg.NPC_VRCFG_EN = 0 ∧
    ∀ q : Fin 4, rd (endpointEnded s) Reg.HMX_DMACFG_EN q = 0 := by
  have hkeep {g : Field} (h : ∀ f ∈ endpointFields, g.id ≠ f.id) {j : Nat} (hj : j < 8192) :
      rd (endpointEnded s) g j = rd (disableRings (dropJobs s)) g j :=
    endpointEnded_keeps (endpointBlind_rd h hj) (fun _ _ _ => rfl) s
  have hring {g : Field} (h : g.id < Reg.HMX_DMACFG_EN.id) (u : State) :
      rd ((List.range 4).foldl (fun s q => wr s Reg.HMX_DMACFG_EN 0 q) u) g = rd u g :=
    foldl_keeps_mem (rd · g) (fun q hq _ => rd_wr_of_id_ne h.ne (by have := List.mem_range.1 hq; omega) (by decide) _ _) u
  refine ⟨(hkeep (by decide) (by decide)).trans ((hring (by decide) _).trans ?_),
    (hkeep (by decide) (by decide)).trans ((hring (by decide) _).trans ?_),
    (hkeep (by decide) (by decide)).trans ((hring (by decide) _).trans ?_),
    fun q => (hkeep (by decide) (by omega)).trans ?_⟩
  · exact (rd_wr_ne (by decide) _ _).trans <| (rd_wr_ne (by decide) _ _).trans (rd_wr_same _ _ _ _)
  · exact (rd_wr_ne (by decide) _ _).trans (rd_wr_same _ _ _ _)
  · exact rd_wr_same _ _ _ _
  · exact foldl_sets (p := (rd · Reg.HMX_DMACFG_EN q)) (List.mem_range.mpr q.isLt) (fun _ => rd_wr_same _ _ _ _)
      (fun y hy _ => rd_wr_ne (by simp only [Field.key]; omega) _ _) _

theorem endpointEnded_eprst (s : State) : rd (endpointEnded s) Reg.HMX_STATUS_EPRST = rd s Reg.HMX_STATUS_EPRST := by
  have hblind := endpointBlind_rd (g := Reg.HMX_STATUS_EPRST) (j := 0) (by decide) (by decide)
  refine (endpointEnded_keeps hblind (fun _ _ _ => rfl) s).trans ?_
  refine Eq.trans ?_ (hblind.dropJobs (fun _ _ => rfl) (fun _ _ _ => rfl) s)
  refine (foldl_keeps_mem (rd · Reg.HMX_STATUS_EPRST) (fun q hq _ => rd_wr_of_id_ne (by decide) ?_ (by decide) _ _) _).trans ?_
  · have := List.mem_range.1 hq
    omega
  · exact (rd_wr_ne (by decide) _ _).trans <| (rd_wr_ne (by decide) _ _).trans (rd_wr_ne (by decide) _ _)

theorem endpointEnded_hmx (s : State) : (endpointEnded s).hmx = s.hmx := by
  have hblind : EndpointBlind State.hmx :=
    ⟨fun _ _ _ _ => rfl, fun _ _ => rfl, fun _ _ => rfl, fun _ _ => rfl, fun _ _ => rfl⟩
  exact (endpointEnded_keeps hblind (fun _ _ _ => rfl) s).trans <|
    (disableRings_keeps (fun _ _ _ _ => rfl) _).trans (hblind.dropJobs (fun _ _ => rfl) (fun _ _ _ => rfl) s)

theorem endpointEnded_held (s : State) : (endpointEnded s).lsv.held = [] := by
  have hblind : EndpointBlind (fun t => t.lsv.held) :=
    ⟨fun _ _ _ _ => rfl, fun _ _ => rfl, fun _ _ => rfl, fun _ _ => rfl, fun _ _ => rfl⟩
  exact (endpointEnded_keeps hblind (fun _ _ _ => rfl) s).trans 
    ((disableRings_keeps (p := fun t => t.lsv.held) (fun _ _ _ _ => rfl) _).trans rfl)

/-- The memory of the host interface after an endpoint reset. -/
def leftMarked (h : HmxSt) : HmxSt :=
  { h with left := h.left.map fun o => some (o.getD (CC.failAbandoned, Rsn.hostReset)),
           dmaEcc := Vector.replicate 4 false, cfgReady := false }

/-- A link that an endpoint reset has taken down, the reset counted. -/
def linkLost (s : State) : State :=
  let t := wr (bump { s with hmx := leftMarked s.hmx } Reg.HMX_STATUS_EPRST) Reg.HMX_STATUS_LINKUP 0
  wr (wr t Reg.HMX_STATUS_WIDTH 0) Reg.HMX_STATUS_QUAL (qualCode .stale)

theorem linkLost_reads (s : State) : rd (linkLost s) Reg.HMX_STATUS_LINKUP = 0 ∧
    rd (linkLost s) Reg.HMX_STATUS_EPRST = min (rd s Reg.HMX_STATUS_EPRST + 1) 255 ∧
    rd (linkLost s) Reg.HMX_STATUS_QUAL = qualCode .stale ∧ pcieConfig (linkLost s) = none := by
  refine ⟨?_, ?_, rd_wr_same _ _ _ _, rfl⟩
  · exact (rd_wr_ne (by decide) _ _).trans <| (rd_wr_ne (by decide) _ _).trans (rd_wr_same _ _ _ _)
  · exact (rd_wr_ne (by decide) _ _).trans <| (rd_wr_ne (by decide) _ _).trans <|
      (rd_wr_ne (by decide) _ _).trans (bump_same _ _ _ _)

theorem rd_linkLost {g : Field} {j : Nat} (h : ∀ f ∈ [Reg.HMX_STATUS_QUAL, Reg.HMX_STATUS_WIDTH, Reg.HMX_STATUS_LINKUP,
    Reg.HMX_STATUS_EPRST], g.id ≠ f.id) (hj : j < 8192) (s : State) : rd (linkLost s) g j = rd s g j := by
  simp only [List.forall_mem_cons] at h
  obtain ⟨hqual, hwidth, hup, hcount, -⟩ := h
  exact (rd_wr_of_id_ne hqual (by decide) hj _ _).trans <| (rd_wr_of_id_ne hwidth (by decide) hj _ _).trans <|
    (rd_wr_of_id_ne hup (by decide) hj _ _).trans (rd_wr_of_id_ne hcount (by decide) hj _ _)

theorem leftMarked_left (h : HmxSt) (i : Fin 5) :
    (leftMarked h).left[i] = some ((h.left[i]).getD (CC.failAbandoned, Rsn.hostReset)) := Vector.getElem_map _ _

theorem endpointReset_effect (s : State) : Completes (exec .endpointReset s) fun t =>
    rd t Reg.HMX_STATUS_LINKUP = 0 ∧ rd t Reg.HMX_STATUS_EPRST = min (rd s Reg.HMX_STATUS_EPRST + 1) 255 ∧
    rd t Reg.HMX_STATUS_QUAL = qualCode .stale ∧ pcieConfig t = none ∧ rd t Reg.LSV_RINGCFG_EN = 0 ∧
    rd t Reg.MTE_LRCFG_EN = 0 ∧ rd t Reg.NPC_VRCFG_EN = 0 ∧ (∀ q : Fin 4, rd t Reg.HMX_DMACFG_EN q = 0) ∧
    t.lsv.held = [] ∧ t.ssu.quote = none ∧
    ∀ i : Fin 5, t.hmx.left[i] = some ((s.hmx.left[i]).getD (CC.failAbandoned, Rsn.hostReset)) := by
  have hexec : exec .endpointReset s = .next (linkLost (endpointEnded s)) := rfl
  obtain ⟨hup, hcount, hqual, hconfig⟩ := linkLost_reads (endpointEnded s)
  obtain ⟨hlsv, hmte, hnpc, hdma⟩ := endpointEnded_rings s
  rw [endpointEnded_eprst] at hcount
  have hhmx : (linkLost (endpointEnded s)).hmx = leftMarked s.hmx := congrArg leftMarked (endpointEnded_hmx s)
  refine ⟨_, hexec, hup, hcount, hqual, hconfig, (rd_linkLost (by decide) (by decide) _).trans hlsv,
    (rd_linkLost (by decide) (by decide) _).trans hmte, (rd_linkLost (by decide) (by decide) _).trans hnpc,
    fun q => (rd_linkLost (by decide) (by omega) _).trans (hdma q), endpointEnded_held s, endpointEnded_quote s,
    fun i => ?_⟩
  rw [hhmx]
  exact leftMarked_left s.hmx i

/-- Settles O49: a refused access, the training of the memory, its errors and corrections, the trained link and the
endpoint reset. -/
theorem hostMemoryEvents : Obligations.HostMemoryEvents := by
  unfold Obligations.HostMemoryEvents
  exact fun s => ⟨fun off n w h => bar2Refused_effect h w, fun off n bs h => bar2Refused_taken h bs,
    fun hm hd c0 c1 size hrate hlo hhi => ddrTrain_effect hm hd hrate hlo hhi,
    fun hawake ch place hch => ddrUncorr_effect hawake hch place, fun hawake k => ddrPatrolScrub_effect hawake k,
    fun gen width h => pcieLinkTrained_effect s gen h, endpointReset_effect s⟩

end Sys2Proof.Machine
end

section
/-! SUPPORT. What the write engine leaves alone (R336, R342, R353, R357): the start and the end of a write change the store, the
event log and their fields, the claim and what the requesters keep. -/

namespace Sys2Proof.Machine

/-- The fields that the engine sets besides those of the store. -/
def engineFields : List Field := [Reg.EVR_LOSTDROP_LOST, Reg.EVR_LOSTDROP_DROP, Reg.EVR_STATUS_WRAPPED, Reg.EVR_HEAD_HEAD,
  Reg.EVR_CURSOR_CURSOR, Reg.RDU_CLAIM_OWN]

/-- A view of the state in which neither the store nor the event log nor what is kept of their writes shows. -/
structure EngineBlind {β : Type} (p : State → β) : Prop where
  store : StoreBlind p
  field : ∀ f ∈ engineFields, ∀ s v i, i < 8192 → p (wr s f v i) = p s
  evr : ∀ s x, p { s with evr := x } = p s
  cuts : ∀ s x, p { s with ssu := { s.ssu with cuts := x } } = p s

theorem engineBlind_rd {g : Field} {j : Nat} (hs : ∀ f ∈ storeFields, g.id ≠ f.id) (he : ∀ f ∈ engineFields, g.id ≠ f.id)
    (hj : j < 8192) : EngineBlind (rd · g j) where
  store := storeBlind_rd hs hj
  field f hf s v _ hi := rd_wr_of_id_ne (he f hf) hi hj s v
  evr _ _ := rfl
  cuts _ _ := rfl

namespace EngineBlind

variable {β : Type} {p : State → β} (h : EngineBlind p)
include h

theorem evrDrop (s : State) (sev : Sev) : p (evrDrop s sev) = p s := by
  have hdrop : p (bump s Reg.EVR_LOSTDROP_DROP (sevCode sev)) = p s := h.field _ (by decide) _ _ _ ((sevCode_lt sev).trans (by decide))
  exact ite_keeps ((h.evr _ _).trans hdrop) hdrop

theorem lostCounted (l : List (Nat × Slot)) (s : State) :
    p (l.foldl (fun s o => countLost s o.2.record.sev) s) = p s :=
  foldl_keeps p (fun _ _ => h.field _ (by decide) _ _ _ ((sevCode_lt _).trans (by decide))) l s

theorem evrPlace (s : State) (r : Rec) : p (evrPlace s r) = p s := by
  unfold Machine.evrPlace
  dsimp only
  split
  · exact (h.store.nvs _ _).trans (h.evrDrop _ _)
  · have hlost (l : List (Nat × Slot)) (c : Bool) : p (if c then l.foldl (fun s o => countLost s o.2.record.sev) s
        else wr (l.foldl (fun s o => countLost s o.2.record.sev) s) Reg.EVR_STATUS_WRAPPED 1) = p s :=
      ite_keeps (h.lostCounted l s) ((h.field _ (by decide) _ _ _ (by decide)).trans (h.lostCounted l s))
    refine ite_keeps ((h.field _ (by decide) _ _ _ (by decide)).trans ?_) ?_ <;>
      exact (h.field _ (by decide) _ _ _ (by decide)).trans ((h.evr _ _).trans (hlost _ _))

theorem endLower (s : State) (r old : WriteReq) : p (endLower s r old) = p s :=
  ite_keeps (h.store.nvsReport _ _ _ _ _) <| ite_keeps (h.cuts _ _) (h.store.nvsReport _ _ _ _ _)

theorem beginWrite (s : State) (r : WriteReq) (resumed : Bool) : p (beginWrite s r resumed) = p s := by
  have hstart (l : List WriteReq) (r : WriteReq) (x : NvsSt) (q : List WriteReq) :
      p (l.foldl (fun s o => Machine.endLower s r o) (setQueue { s with nvs := x } q)) = p s :=
    (foldl_keeps p (fun _ _ => h.endLower _ _ _) l _).trans <| (h.store.setQueue _ _).trans (h.store.nvs s x)
  unfold Machine.beginWrite
  refine ite_keeps (hstart _ _ _ _) ?_
  split
  · exact (h.store.nvs _ _).trans (hstart _ _ _ _)
  · exact (h.evrPlace _ _).trans (hstart _ _ _ _)
  · exact hstart _ _ _ _

theorem nvsStart (s : State) : p (nvsStart s) = p s := by
  unfold Machine.nvsStart
  split
  · rfl
  · exact ite_keeps (h.beginWrite _ _ _) rfl

theorem evrFinish (s : State) (r : Rec) : p (evrFinish s r) = p s := by
  unfold Machine.evrFinish
  split
  · rfl
  · exact h.evr s _

theorem applyWrite (s : State) (w : WriteWhat) : p (applyWrite s w) = p s := by
  unfold Machine.applyWrite
  split
  · dsimp only
    split
    · exact (h.field _ (by decide) _ _ _ (by decide)).trans <| (h.store.nvs _ _).trans (h.store.nvs s _)
    · exact (h.store.nvs _ _).trans (h.store.nvs s _)
  · exact h.store.nvs s _
  · exact h.evrFinish s _
  · rfl

theorem nvsFinish (s : State) : p (nvsFinish s) = p s := by
  unfold Machine.nvsFinish
  split
  · rfl
  · exact (h.store.nvsReport _ _ _ _ _).trans <| (h.applyWrite _ _).trans (h.store.nvs s _)

/-- What the engine writes in a row. -/
theorem nvsDrain (cls fuel : Nat) (s : State) : p (nvsDrain cls fuel s) = p s := by
  induction fuel generalizing s with
  | zero => rfl
  | succ fuel ih =>
    unfold Machine.nvsDrain
    split
    · rfl
    · exact ite_keeps ((ih _).trans <| (h.nvsFinish _).trans (h.nvsStart s)) rfl

theorem storeClaim (s : State) (c : BitVec 32) : p (storeClaim s c) = p s :=
  (h.nvsDrain _ _ _).trans (h.store.nvsSave s _ _ _ _)

end EngineBlind

/-! ### A claim is written at once (R308) -/

theorem claim_fits (s : State) (c : BitVec 32) : (writeRange s (.record 2 (.claim c))).fits = true := by
  simp only [writeRange]
  cases pairWritesB (recGet s 2) <;> simp [recPlace, NvRange.fits, payloadLen]

/-- The request for a claim's record. -/
def claimReq (c : BitVec 32) : WriteReq := ⟨1, .record 2 (.claim c), .claim⟩

/-- A state in which the write of a claim is under way and no other. -/
def claimBegun (s : State) (c : BitVec 32) : State :=
  let t := setQueue { s with nvs := { s.nvs with cur := some (claimReq c), susp := [] } } []
  recPut t 2 (pairBegin (recGet t 2))

theorem nextReq_claim {s : State} (hsusp : s.nvs.susp = []) (c : BitVec 32) :
    nextReq (setQueue s [claimReq c]).nvs.susp (setQueue s [claimReq c]).nvs.queue = some (claimReq c, false) := by
  have hs : (setQueue s [claimReq c]).nvs.susp = [] := hsusp
  have hq : (setQueue s [claimReq c]).nvs.queue = [claimReq c] := rfl
  rw [hs, hq]
  rfl

theorem nvsStart_claim {s : State} (hsusp : s.nvs.susp = []) (hcur : s.nvs.cur = none) (c : BitVec 32) :
    nvsStart (setQueue s [claimReq c]) = claimBegun (setQueue s [claimReq c]) c := by
  have hstarts : startsNow (setQueue s [claimReq c]) (claimReq c) = true := by
    have hc : (setQueue s [claimReq c]).nvs.cur = none := hcur
    simp [startsNow, hc]
  have hbegin : beginWrite (setQueue s [claimReq c]) (claimReq c) false = claimBegun (setQueue s [claimReq c]) c := by
    have hs : (setQueue s [claimReq c]).nvs.susp = [] := hsusp
    have hc : (setQueue s [claimReq c]).nvs.cur = none := hcur
    have hq : (setQueue s [claimReq c]).nvs.queue = [claimReq c] := rfl
    have hwhat : captureAtStart (setQueue s [claimReq c]) (claimReq c) = .record 2 (.claim c) := rfl
    unfold beginWrite
    simp only [hs, hc, hq, hwhat, List.filter_nil, List.foldl_nil, Bool.false_eq_true, if_false, List.erase_cons_head]
    rfl
  unfold nvsStart
  rw [nextReq_claim hsusp]
  exact (if_pos hstarts).trans hbegin

/-- The state in which a claim's record is written and its requester not yet told. -/
def claimStored (s : State) (c : BitVec 32) : State :=
  applyWrite (withoutCur (claimBegun (setQueue s [claimReq c]) c)) (.record 2 (.claim c))

theorem storeClaim_eq {s : State} (hr : recalling s = false) (hq : s.nvs.queue = []) (hsusp : s.nvs.susp = [])
    (hcur : s.nvs.cur = none) (c : BitVec 32) : storeClaim s c = nvsReport (claimStored s c) 1 .claim CC.done 0 := by
  have hsave : nvsSave s 1 (.claim c) .claim = setQueue s [claimReq c] :=
    nvsSave_of_idle hr (claim_fits s c) hq
  have hfinish : nvsFinish (claimBegun (setQueue s [claimReq c]) c) = nvsReport (claimStored s c) 1 .claim CC.done 0 :=
    nvsFinish_of_some (r := claimReq c) rfl
  unfold storeClaim
  rw [hsave, nvsDrain, nextReq_claim hsusp]
  exact (if_pos le_rfl).trans (by rw [nvsStart_claim hsusp hcur, hfinish]; rfl)

theorem claimStored_reads (s : State) (c : BitVec 32) : recRead (claimStored s c) 2 = some (.claim c) ∧
    rd (claimStored s c) Reg.RDU_CLAIM_OWN = c.toNat % 2 ^ Reg.RDU_CLAIM_OWN.width :=
  ⟨(recRead_of_recs (applyWrite_record _ 2 (.claim c)).1 2).trans (recRead_recWrite _ _ _), rd_wr_same _ _ _ _⟩

theorem claimStored_ssu (s : State) (c : BitVec 32) : (claimStored s c).ssu = s.ssu := rfl

end Sys2Proof.Machine
end

section
/-! SUPPORT. The tests of the supervisor and its service (R384, R391, R394 to R397, R429): the start and the end of a wave, the
end of TEST, the close of a fault window, the service commands and the sensors. -/

namespace Sys2Proof.Machine

/-! ### The start of a wave (R395) -/

/-- A covered status word reads TESTING, but for one that is RETIRED. -/
def coverField (s : State) (e : Field × Nat) : State :=
  if rd s e.1 e.2 = mstateCode .retired then s else wr s e.1 (mstateCode .testing) e.2

theorem rd_coverField_ne {s : State} {f : Field} {i : Nat} {e : Field × Nat} (h : f.key i ≠ e.1.key e.2) :
    rd (coverField s e) f i = rd s f i := ite_keeps (p := (rd · f i)) rfl (rd_wr_ne h _ _)

theorem rd_coverField_same (s : State) {e : Field × Nat} (hw : e.1.width = 3) : rd (coverField s e) e.1 e.2 =
    if rd s e.1 e.2 = mstateCode .retired then mstateCode .retired else mstateCode .testing := by
  unfold coverField
  split
  next h => exact h
  next h => rw [rd_wr_same, hw]; rfl

theorem rd_coverFields {l : List (Field × Nat)} (hkeys : (l.map fun e => e.1.key e.2).Nodup)
    (hwidth : ∀ e ∈ l, e.1.width = 3) {e : Field × Nat} (he : e ∈ l) (s : State) : rd (l.foldl coverField s) e.1 e.2 =
      if rd s e.1 e.2 = mstateCode .retired then mstateCode .retired else mstateCode .testing := by
  induction l generalizing s with
  | nil => cases he
  | cons x l ih =>
    rw [List.map_cons, List.nodup_cons] at hkeys
    obtain ⟨hx, hl⟩ := hkeys
    rw [List.foldl_cons]
    by_cases hmem : e ∈ l
    · have hne : e.1.key e.2 ≠ x.1.key x.2 := fun h => hx (h ▸ List.mem_map_of_mem (f := fun e => e.1.key e.2) hmem)
      rw [ih hl (fun y hy => hwidth y (List.mem_cons_of_mem _ hy)) hmem, rd_coverField_ne hne]
    · obtain rfl : e = x := (List.mem_cons.1 he).resolve_right hmem
      have hne : ∀ y ∈ l, e.1.key e.2 ≠ y.1.key y.2 := fun y hy h => hx (List.mem_map.2 ⟨y, hy, h.symm⟩)
      exact (foldl_keeps_mem (rd · e.1 e.2) (fun y hy t => rd_coverField_ne (hne y hy)) _).trans
        (rd_coverField_same s (hwidth e he))

/-- The status words of a wave are distinct fields of MSTATE. -/
theorem waveFields_keys {w : Nat} (h : w < 6) : ((waveFields w).map fun e => e.1.key e.2).Nodup ∧
    ∀ e ∈ waveFields w, e.1.width = 3 := by
  interval_cases w <;> decide +kernel

theorem waveStart_effect {s : State} (hm : modeIs s = .test) (hwave : s.ssu.wave = none) (hnext : s.ssu.nextWave < 6)
    (hwarn : rdB s Reg.SSU_SUPPLY_WARN = false) : Completes (exec .bistWaveStart s) fun t =>
      t.ssu.wave = some s.ssu.nextWave ∧ ∀ e ∈ waveFields s.ssu.nextWave, rd t e.1 e.2 =
        if rd s e.1 e.2 = mstateCode .retired then mstateCode .retired else mstateCode .testing := by
  obtain ⟨hkeys, hwidth⟩ := waveFields_keys hnext
  have hstart : exec .bistWaveStart s = .next { (waveFields s.ssu.nextWave).foldl coverField s with
      ssu := { ((waveFields s.ssu.nextWave).foldl coverField s).ssu with
        wave := some s.ssu.nextWave, under := (waveFields s.ssu.nextWave).map fun e => rd s e.1 e.2 } } :=
    congrArg Host.Outcome.next (if_pos ⟨hm, by simp [hwave], hnext, by simp [hwarn]⟩)
  exact ⟨_, hstart, rfl, fun e he => rd_coverFields hkeys hwidth he s⟩

theorem waveStart_waits {s : State} (h : modeIs s ≠ .test ∨ s.ssu.wave ≠ none ∨ rdB s Reg.SSU_SUPPLY_WARN = true) :
    exec .bistWaveStart s = .next s := by
  refine congrArg Host.Outcome.next (if_neg ?_)
  rintro ⟨hm, hwave, -, hwarn⟩
  rcases h with h | h | h
  · exact h hm
  · exact h (Option.isNone_iff_eq_none.1 hwave)
  · simp [h] at hwarn

/-! ### The end of a wave (R397) -/

section

variable {β : Type} {p : State → β} (hwr : ∀ s f v i, p (wr s f v i) = p s)
  (hevent : ∀ s code sev ps, p (event s code sev ps) = p s)
include hwr

theorem showCsc_keeps (s : State) : p (showCsc s) = p s := by
  unfold showCsc wrB
  simp only [hwr]

theorem showLinks_keeps (s : State) : p (showLinks s) = p s :=
  (hwr _ _ _ _).trans <| (hwr _ _ _ _).trans <| foldl_keeps p (fun _ _ => (hwr _ _ _ _).trans (hwr _ _ _ _)) _ s

include hevent

theorem showRdu_keeps (s : State) : p (showRdu s) = p s := by
  unfold showRdu wrB
  exact ite_keeps ((hevent _ _ _ _).trans (by simp only [hwr])) (by simp only [hwr])

theorem unitsShown_keeps (s : State) : p (showLinks (showCsc (showRdu s))) = p s :=
  (showLinks_keeps hwr _).trans <| (showCsc_keeps hwr _).trans (showRdu_keeps hwr hevent s)

end

/-- What a wave covered shown as it was before it. -/
def waveRestored (s : State) (w : Nat) : State :=
  ((waveFields w).zip s.ssu.under).foldl
    (fun s e => if rd s e.1.1 e.1.2 = mstateCode .testing then wr s e.1.1 e.2 e.1.2 else s) s

/-- A state in which no wave runs. -/
def waveCleared (s : State) : State := { s with ssu := { s.ssu with wave := none, under := [] } }

theorem waveShown_of_some {s : State} {w : Nat} (h : s.ssu.wave = some w) : waveShown s = waveCleared (waveRestored s w) := by
  unfold waveShown
  rw [h]
  rfl

theorem waveRestored_keeps {β : Type} {p : State → β} (hwr : ∀ s f v i, p (wr s f v i) = p s) (s : State) (w : Nat) :
    p (waveRestored s w) = p s := foldl_keeps p (fun _ _ => ite_keeps (hwr _ _ _ _) rfl) _ s

/-- A wave without a failure reported. -/
def waveDone (s : State) (w ms : Nat) : State :=
  waveReport (wr (showLinks (showCsc (showRdu (waveShown s)))) Reg.SSU_BISTSTS_MS ms w) w CC.done 0 0 .notice

/-- The next wave in turn. -/
def waveNext (s : State) (n : Nat) : State := { s with ssu := { s.ssu with nextWave := n } }

theorem rd_waveNext (s : State) (n : Nat) (f : Field) (i : Nat) : rd (waveNext s n) f i = rd s f i := rfl

theorem waveEnd_passed {s : State} {w : Nat} (h : s.ssu.wave = some w) (ms : Nat) : waveEnd s [] ms =
    if w = 5 then testEnds (lateBeat (waveNext (waveDone s w ms) (w + 1)))
    else lateBeat (waveNext (waveDone s w ms) (w + 1)) := by
  unfold waveEnd
  rw [h]
  rfl

theorem waveDone_reads (s : State) {w : Nat} (hw : w < 8192) (ms : Nat) :
    rd (waveDone s w ms) Reg.SSU_BISTSTS_CC w = CC.done ∧ rd (waveDone s w ms) Reg.SSU_BISTSTS_FAILED w = 0 ∧
    rd (waveDone s w ms) Reg.SSU_BISTSTS_RAN w = 1 ∧ rd (waveDone s w ms) Reg.SSU_BISTSTS_MS w = ms % 256 := by
  unfold waveDone waveReport
  dsimp only
  generalize showLinks (showCsc (showRdu (waveShown s))) = u
  refine ⟨?_, ?_, ?_, ?_⟩ <;> rw [rd_event (by decide) hw]
  · rw [rd_wr_of_id_ne (by decide) hw hw, rd_wr_of_id_ne (by decide) hw hw, rd_wr_of_id_ne (by decide) hw hw, rd_wr_same]
    rfl
  · rw [rd_wr_of_id_ne (by decide) hw hw, rd_wr_same]
    rfl
  · rw [rd_wr_same]
    rfl
  · rw [rd_wr_of_id_ne (by decide) hw hw, rd_wr_of_id_ne (by decide) hw hw, rd_wr_of_id_ne (by decide) hw hw,
      rd_wr_of_id_ne (by decide) hw hw, rd_wr_same]
    rfl

theorem waveDone_keeps {β : Type} {p : State → β} (hwr : ∀ s f v i, p (wr s f v i) = p s)
    (hevent : ∀ s code sev ps, p (event s code sev ps) = p s) (s : State) (w ms : Nat) :
    p (waveDone s w ms) = p (waveShown s) := by
  unfold waveDone waveReport
  rw [hevent]
  simp only [hwr]
  exact unitsShown_keeps hwr hevent _

theorem waveDone_ssu {s : State} {w : Nat} (h : s.ssu.wave = some w) (ms : Nat) :
    (waveDone s w ms).ssu = { s.ssu with wave := none, under := [] } := by
  rw [waveDone_keeps (p := State.ssu) (fun _ _ _ _ => rfl) event_ssu, waveShown_of_some h]
  exact congrArg (fun x : SsuSt => { x with wave := none, under := [] })
    (waveRestored_keeps (p := State.ssu) (fun _ _ _ _ => rfl) s w)

theorem waveDone_mte {s : State} {w : Nat} (h : s.ssu.wave = some w) (ms : Nat) : (waveDone s w ms).mte = s.mte := by
  rw [waveDone_keeps (p := State.mte) (fun _ _ _ _ => rfl) event_mte, waveShown_of_some h]
  exact waveRestored_keeps (p := State.mte) (fun _ _ _ _ => rfl) s w

theorem waveEnd_effect {s : State} {w : Nat} {ms : BitVec 8} (h : s.ssu.wave = some w) (hw : w < 5)
    (hbeat : s.mte.beatDue = false) : Completes (exec (.bistWaveEnd [] ms) s) fun t =>
      t.ssu.wave = none ∧ t.ssu.nextWave = w + 1 ∧ rd t Reg.SSU_BISTSTS_CC w = CC.done ∧
      rd t Reg.SSU_BISTSTS_FAILED w = 0 ∧ rd t Reg.SSU_BISTSTS_RAN w = 1 ∧ rd t Reg.SSU_BISTSTS_MS w = ms.toNat ∧
      t.ssu.retired = s.ssu.retired := by
  have hend : waveEnd s [] ms.toNat = waveNext (waveDone s w ms.toNat) (w + 1) := by
    rw [waveEnd_passed h, if_neg (by omega)]
    exact if_neg (by
      have hm : (waveNext (waveDone s w ms.toNat) (w + 1)).mte = s.mte := waveDone_mte h ms.toNat
      rw [hm, hbeat]
      decide)
  obtain ⟨hcc, hfailed, hran, hms⟩ := waveDone_reads s (w := w) (by omega) ms.toNat
  have hssu : (waveNext (waveDone s w ms.toNat) (w + 1)).ssu =
      { s.ssu with wave := none, under := [], nextWave := w + 1 } :=
    congrArg (fun x : SsuSt => { x with nextWave := w + 1 }) (waveDone_ssu h ms.toNat)
  refine ⟨_, congrArg Host.Outcome.next hend, ?_⟩
  simp only [rd_waveNext, hssu]
  exact ⟨trivial, trivial, hcc, hfailed, hran, hms.trans (Nat.mod_eq_of_lt ms.isLt), trivial⟩

/-! ### The end of TEST (R394, R396) -/

/-- The memories that a TEST leaves cleared. -/
def testCleared (s : State) : State :=
  let z := State.reset
  { s with
    csa := { z.csa with nvst := s.csa.nvst, failRuns := s.csa.failRuns, lastKs := s.csa.lastKs }
    lpe := { z.lpe with discarded := s.lpe.discarded + discardedBanks s }
    lsv := { z.lsv with sqDone := s.lsv.sqDone, reported := s.lsv.reported, cqTail := s.lsv.cqTail, next := s.lsv.next,
                        cqRead := s.lsv.cqRead, sqHead := s.lsv.sqHead }
    fct := { z.fct with lastKf := s.fct.lastKf }
    npc := z.npc
    hmx := { s.hmx with sram := [], ddr := [] } }

/-- What the registers, the facets, the forces and the buffers of a cleared unit show does not bear on the rest. -/
theorem clearTested_keeps {β : Type} {p : State → β} (hwr : ∀ s f v i, p (wr s f v i) = p s)
    (hevent : ∀ s code sev ps, p (event s code sev ps) = p s) (hfct : ∀ s x, p { s with fct := x } = p s)
    (hforces : ∀ (s : State) l, p { s with csa := { s.csa with forces := l } } = p s)
    (hfbc : ∀ s x, p { s with fbc := x } = p s) (s : State) : p (clearTested s) = p (testCleared s) := by
  have hforces' (s : State) (l : List Force) : p (putForces s l) = p s := (hwr _ _ _ _).trans (hforces s l)
  have hshadow (s : State) (x : Option Facet) : p (putShadow s x) = p s :=
    (hwr _ _ _ _).trans <| (hwr _ _ _ _).trans (hfct s _)
  have hactive (s : State) (x : Option Facet) : p (putActive s x) = p s :=
    (hwr _ _ _ _).trans <| (hwr _ _ _ _).trans (hfct s _)
  have hbus (s : State) (n : Fin 24) : p (setDepth (setFifo (setCtl s n Ctl.reset) n []) n) = p s :=
    (hwr _ _ _ _).trans <| (hwr _ _ _ _).trans <| (hfbc _ _).trans (hfbc s _)
  refine (hwr _ _ _ _).trans <| (hwr _ _ _ _).trans <| (foldl_keeps p (fun s _ => hevent _ _ _ _) _ _).trans <|
    (foldl_keeps p (fun s _ => hbus s _) _ _).trans <| (hforces' _ _).trans <| (hwr _ _ _ _).trans <|
    (hshadow _ _).trans <| (hactive _ _).trans <| (hwr _ _ _ _).trans <| (hwr _ _ _ _).trans <| (hwr _ _ _ _).trans ?_
  rfl

theorem clearTested_ssu (s : State) : (clearTested s).ssu = s.ssu :=
  clearTested_keeps (p := State.ssu) (fun _ _ _ _ => rfl) event_ssu (fun _ _ => rfl) (fun _ _ => rfl) (fun _ _ => rfl) s

theorem clearTested_memories (s : State) : (clearTested s).csa.dmem = [] ∧ (clearTested s).csa.rmem = [] :=
  ⟨clearTested_keeps (p := fun t => t.csa.dmem) (fun _ _ _ _ => rfl) (fun _ _ _ _ => by rw [event_csa]) (fun _ _ => rfl)
    (fun _ _ => rfl) (fun _ _ => rfl) s,
   clearTested_keeps (p := fun t => t.csa.rmem) (fun _ _ _ _ => rfl) (fun _ _ _ _ => by rw [event_csa]) (fun _ _ => rfl)
    (fun _ _ => rfl) (fun _ _ => rfl) s⟩

/-- The BIST-request flag cleared and written with the configuration. -/
def requestCleared (s : State) : State :=
  let t : State := { s with ssu := { s.ssu with bistReq := false } }
  nvsDrain 7 2048 (nvsSave t 3 (configData t) .config)

theorem requestCleared_bistReq (s : State) : (requestCleared s).ssu.bistReq = false := by
  have hblind : EngineBlind (fun t => t.ssu.bistReq) :=
    ⟨⟨fun _ _ _ _ => rfl, fun _ _ => rfl, fun _ _ => rfl, fun _ _ => rfl, fun _ _ _ => rfl, fun _ _ => rfl⟩,
      fun _ _ _ _ _ _ => rfl, fun _ _ => rfl, fun _ _ => rfl⟩
  exact (hblind.nvsDrain _ _ _).trans (hblind.store.nvsSave _ _ _ _ _)

/-- A state whose test is over and whose recall has yet to run. -/
def testOver (s : State) : State := { s with ssu := { s.ssu with bistDone := true, recalled := false } }

theorem testEnds_eq (s : State) : testEnds s =
    shown (wr (setMode (testOver (clearTested (requestCleared s))) .recall) Reg.NVS_STATUS_RECALL 1) := by
  simp only [testEnds, requestCleared, testOver]

theorem shown_csa (s : State) : (shown s).csa = s.csa :=
  (showCsc_keeps (p := State.csa) (fun _ _ _ _ => rfl) _).trans
    (showRdu_keeps (p := State.csa) (fun _ _ _ _ => rfl) event_csa s)

theorem setMode_csa (s : State) (m : Mode) : (setMode s m).csa = s.csa :=
  ite_keeps (p := State.csa) rfl (ite_keeps (p := State.csa) rfl rfl)

theorem testEnds_effect (s : State) : modeIs (testEnds s) = .recall ∧ (testEnds s).ssu.bistReq = false ∧
    (testEnds s).ssu.bistDone = true ∧ (testEnds s).csa.dmem = [] ∧ (testEnds s).csa.rmem = [] := by
  obtain ⟨hdmem, hrmem⟩ := clearTested_memories (requestCleared s)
  have hreq := (congrArg SsuSt.bistReq (clearTested_ssu (requestCleared s))).trans (requestCleared_bistReq s)
  rw [testEnds_eq]
  generalize clearTested (requestCleared s) = u at *
  have hssu : (shown (wr (setMode (testOver u) .recall) Reg.NVS_STATUS_RECALL 1)).ssu = (testOver u).ssu := by
    rw [shown_ssu, wr_ssu, setMode_ssu]
  have hcsa : (shown (wr (setMode (testOver u) .recall) Reg.NVS_STATUS_RECALL 1)).csa = u.csa :=
    (shown_csa _).trans (setMode_csa _ _)
  refine ⟨?_, (congrArg SsuSt.bistReq hssu).trans hreq, congrArg SsuSt.bistDone hssu, by rw [hcsa, hdmem],
    by rw [hcsa, hrmem]⟩
  rw [modeIs_shown, modeIs_wr (by decide), modeIs_setMode]

theorem waveEnd_last {s : State} {ms : BitVec 8} (h : s.ssu.wave = some 5) :
    Completes (exec (.bistWaveEnd [] ms) s) fun t => modeIs t = .recall ∧ t.ssu.bistReq = false ∧ t.ssu.bistDone = true ∧
      t.csa.dmem = [] ∧ t.csa.rmem = [] :=
  ⟨_, congrArg Host.Outcome.next (waveEnd_passed h ms.toNat), testEnds_effect _⟩

/-! ### The close of a fault window (R391) -/

theorem faultWindowClose_loop (s : State) (i : Fin 8) :
    exec (.faultWindowClose ⟨.loop, i.val⟩) s = .next (windowClose s ⟨.loop, i.val⟩) :=
  congrArg Host.Outcome.next (ite_self _)

section

variable {s : State} {i : Fin 8} {w : FWindow} (h : s.ssu.windows.find? (·.res = ⟨.loop, i.val⟩) = some w)
include h

theorem faultWindow_over (hover : faultOver s ⟨.loop, i.val⟩ w.tick = true) :
    Completes (exec (.faultWindowClose ⟨.loop, i.val⟩) s) fun t =>
      rd t Reg.LPE_LANESTS_MSTATE i = mstateCode w.prior ∧ rd t Reg.LPE_LANESTS_FCOUNT i = 0 ∧
      t.ssu.windows = s.ssu.windows.filter (·.res ≠ ⟨.loop, i.val⟩) := by
  have hclose : windowClose s ⟨.loop, i.val⟩ = wr (wr (dropWindow s ⟨.loop, i.val⟩) Reg.LPE_LANESTS_MSTATE
      (mstateCode w.prior) i) Reg.LPE_LANESTS_FCOUNT 0 i := by
    unfold windowClose
    rw [h]
    exact if_pos hover
  refine ⟨_, (faultWindowClose_loop s i).trans (congrArg Host.Outcome.next hclose), ?_, rd_wr_same _ _ _ _, rfl⟩
  rw [rd_wr_of_id_ne (by decide) (by omega) (by omega), rd_wr_same]
  cases w.prior <;> rfl

theorem faultWindow_open (hopen : faultOver s ⟨.loop, i.val⟩ w.tick = false) :
    exec (.faultWindowClose ⟨.loop, i.val⟩) s = .next s := by
  have hclose : windowClose s ⟨.loop, i.val⟩ = s := by
    unfold windowClose
    rw [h]
    exact if_neg (by simp [hopen])
  exact (faultWindowClose_loop s i).trans (congrArg Host.Outcome.next hclose)

end

/-! ### The service commands (R394, R310) -/

theorem svcCmd_refused {s : State} (hp : rdB s Reg.SSU_SVCSTS_PEND = false) {key : BitVec 16}
    (h : modeIs s ≠ .halt ∨ key ≠ 0x5E7C) (f : State → State) :
    rd (svcCmd s key f) Reg.SSU_SVCSTS_CC = CC.failRefused ∧ rd (svcCmd s key f) Reg.SSU_SVCSTS_PEND = 0 ∧
    rd (svcCmd s key f) Reg.SSU_SVCSTS_RSN = (if modeIs s ≠ .halt then Rsn.badMode else Rsn.badKey) ∧
    (svcCmd s key f).ssu = s.ssu := by
  have hend : svcCmd s key f = svcEnd s CC.failRefused (if modeIs s ≠ .halt then Rsn.badMode else Rsn.badKey) := by
    unfold svcCmd
    rw [if_neg (by simp [hp])]
    by_cases hm : modeIs s = .halt
    · rw [if_neg (not_not.2 hm), if_neg (not_not.2 hm), if_pos (h.resolve_left (not_not.2 hm))]
    · rw [if_pos hm, if_pos hm]
  obtain ⟨hcc, hrsn, hpend⟩ := setStatus_reads (cc := Reg.SSU_SVCSTS_CC) (rsn := Reg.SSU_SVCSTS_RSN)
    (pend := Reg.SSU_SVCSTS_PEND) (i := 0) s CC.failRefused (if modeIs s ≠ .halt then Rsn.badMode else Rsn.badKey)
    (by decide) (by decide) (by decide)
  rw [hend]
  refine ⟨hcc, hpend, hrsn.trans ?_, rfl⟩
  split <;> rfl

theorem svcCmd_runs {s : State} (hp : rdB s Reg.SSU_SVCSTS_PEND = false) (hm : modeIs s = .halt) (f : State → State) :
    svcCmd s 0x5E7C f = f s :=
  (if_neg (by simp [hp])).trans <| (if_neg (not_not.2 hm)).trans (if_neg (by decide))

theorem filter_tput {α : Type} {P : Nat → Bool} {k : Nat} (h : P k = false) (t : Tbl α) (v : α) :
    (tput t k v).filter (fun e => P e.1) = t.filter fun e => P e.1 := by
  induction t with
  | nil => simp [tput, h]
  | cons e t ih =>
    obtain ⟨k', v'⟩ := e
    unfold tput
    split
    · rw [List.filter_cons_of_neg (by simp [h])]
    · split
      next he => subst he; rw [List.filter_cons_of_neg (by simp [h]), List.filter_cons_of_neg (by simp [h])]
      next => simp only [List.filter_cons, ih]

theorem filter_tdel {α : Type} {P : Nat → Bool} {k : Nat} (h : P k = false) (t : Tbl α) :
    (tdel t k).filter (fun e => P e.1) = t.filter fun e => P e.1 := by
  rw [tdel, List.filter_filter]
  refine List.filter_congr fun e _ => ?_
  by_cases hk : e.1 = k
  · simp [hk, h]
  · simp [hk]

/-- A number of a field that the configuration record holds. -/
def isConfig (id : Nat) : Bool := configFields.any fun f => id = f.id

theorem configData_wr {f : Field} {i : Nat} (hf : isConfig f.id = false) (hi : i < 8192) (s : State) (v : Nat) :
    configData (wr s f v i) = configData s := by
  have hkey : isConfig (f.key i / 8192) = false := by
    have hid : f.key i / 8192 = f.id := by simp only [Field.key]; omega
    rw [hid, hf]
  have hflds : (wr s f v i).flds.filter (fun e => isConfig (e.1 / 8192)) = s.flds.filter fun e => isConfig (e.1 / 8192) := by
    unfold wr wrTbl tset
    dsimp only
    split
    · exact filter_tdel (P := fun k => isConfig (k / 8192)) hkey _
    · exact filter_tput (P := fun k => isConfig (k / 8192)) hkey _ _
  exact congrArg (RecData.config s.ssu.bistReq s.ssu.cleared) hflds

theorem configData_setQueue (s : State) (l : List WriteReq) : configData (setQueue s l) = configData s :=
  configData_wr (by decide) (by decide) { s with nvs := { s.nvs with queue := l } } l.length

/-- A request for a record of which none waits goes to the end of the queue. -/
theorem nvsRequest_of_new {s : State} {r : WriteReq} (hr : recalling s = false)
    (hfit : (writeRange s r.what).fits = true)
    (hnew : (s.nvs.queue.find? fun q => sameRecord q.what r.what) = none) (hlen : s.nvs.queue.length < 512) :
    nvsRequest s r = setQueue s (s.nvs.queue ++ [r]) := by
  unfold nvsRequest
  rw [if_neg (by simp [hr]), if_neg (by simp [hfit]), hnew]
  exact if_neg (by simp; omega)

/-- A state whose retirement list is cleared and whose BIST is requested. -/
def listCleared (s : State) : State :=
  let t : State := { s with ssu := { s.ssu with unlisted := s.ssu.retired.length, bistReq := true,
                                                cleared := s.ssu.cleared + (retireList s).length, svc := some 1 } }
  wr (wr t Reg.SSU_SVCSTS_RETFULL 0) Reg.SSU_SVCSTS_PEND 1

theorem retireList_cleared (s : State) : retireList (listCleared s) = [] := List.drop_length

theorem retire_fits {s : State} (hlist : retireList s = []) (h : s.nvs.remaps.length ≤ sparePages) :
    (writeRange s (.record 0x10 (retireData s))).fits = true := by
  have hlen : s.nvs.remaps.length ≤ 352 := h
  simp only [writeRange, retireData, hlist]
  cases pairWritesB (recGet s 0x10) <;> simp [recPlace, NvRange.fits, payloadLen] <;> omega

theorem configData_listCleared (s : State) : ∃ b n l, configData s = .config b n l ∧
    ∃ b' n', configData (listCleared s) = .config b' n' l :=
  ⟨_, _, _, rfl, _, _, (configData_wr (by decide) (by decide) _ _).trans (configData_wr (by decide) (by decide) _ _)⟩

theorem modeIs_listCleared (s : State) : modeIs (listCleared s) = modeIs s :=
  (modeIs_wr (by decide) _ _).trans (modeIs_wr (by decide) _ _)

/-- The queue with the requests for the retirement list and the configuration. -/
def clearRequests (s : State) : List WriteReq :=
  [⟨3, .record 0x10 (retireData (listCleared s)), .retire⟩, ⟨3, .record 0x03 (configData (listCleared s)), .clearRetire⟩]

theorem clearRetire_eq {s : State} (hm : modeIs s = .halt) (hq : s.nvs.queue = [])
    (hremaps : s.nvs.remaps.length ≤ sparePages) (hfit : (writeRange s (.record 0x03 (configData s))).fits = true) :
    clearRetire s = setQueue (setQueue (listCleared s) ((clearRequests s).take 1)) (clearRequests s) := by
  have hmode : recalling (listCleared s) = false := recalling_of_mode (by rw [modeIs_listCleared, hm]; decide)
  have hfirst : nvsSave (listCleared s) 3 (retireData (listCleared s)) .retire =
      setQueue (listCleared s) ((clearRequests s).take 1) :=
    nvsSave_of_idle hmode (retire_fits (retireList_cleared s) hremaps) hq
  have hrecall : recalling (setQueue (listCleared s) ((clearRequests s).take 1)) = false :=
    recalling_of_mode (by rw [setQueue, modeIs_wr (by decide)]; exact (modeIs_listCleared s).trans_ne (by rw [hm]; decide))
  have hroom : (writeRange (setQueue (listCleared s) ((clearRequests s).take 1))
      (.record 0x03 (configData (listCleared s)))).fits = true := by
    obtain ⟨b, n, l, hold, b', n', hnew⟩ := configData_listCleared s
    rw [hold] at hfit
    rw [hnew]
    exact hfit
  have hsecond := nvsRequest_of_new (s := setQueue (listCleared s) ((clearRequests s).take 1))
    (r := ⟨3, .record 0x03 (configData (listCleared s)), .clearRetire⟩) hrecall hroom rfl
    (show 1 < 512 by decide)
  calc clearRetire s
      = nvsSave (nvsSave (listCleared s) 3 (retireData (listCleared s)) .retire) 3 (configData (listCleared s))
          .clearRetire := rfl
    _ = setQueue (setQueue (listCleared s) ((clearRequests s).take 1)) (clearRequests s) := by
        rw [hfirst]
        exact hsecond

theorem clearRetire_effect {s : State} (hp : rdB s Reg.SSU_SVCSTS_PEND = false) (hm : modeIs s = .halt)
    (hq : s.nvs.queue = []) (hremaps : s.nvs.remaps.length ≤ sparePages)
    (hfit : (writeRange s (.record 0x03 (configData s))).fits = true) :
    Completes (exec (.clearRetire 0x5E7C) s) fun t => retireList t = [] ∧ t.ssu.retired = s.ssu.retired ∧
      t.ssu.bistReq = true ∧ rd t Reg.SSU_SVCSTS_PEND = 1 ∧
      t.nvs.queue.map (·.what) = [.record 0x10 (retireData t), .record 0x03 (configData t)] := by
  refine ⟨_, congrArg Host.Outcome.next ((svcCmd_runs hp hm clearRetire).trans (clearRetire_eq hm hq hremaps hfit)),
    retireList_cleared s, rfl, rfl, ?_, ?_⟩
  · rw [rd_setQueue (by decide), rd_setQueue (by decide)]
    exact rd_wr_same _ _ _ _
  · have hconfig : configData (setQueue (setQueue (listCleared s) ((clearRequests s).take 1)) (clearRequests s)) =
        configData (listCleared s) := by rw [configData_setQueue, configData_setQueue]
    rw [hconfig]
    rfl

/-- A claim reset under way. -/
def claimReset (s : State) : State := wr { s with ssu := { s.ssu with svc := some 2 } } Reg.SSU_SVCSTS_PEND 1

/-- A state in which no service command waits for the store. -/
def svcOver (s : State) : State := { s with ssu := { s.ssu with svc := none } }

theorem nvsReport_claim {s : State} (h : s.ssu.svc = some 2) :
    nvsReport s 1 .claim CC.done 0 = svcEnd (svcOver s) CC.done 0 := by
  have hfail : nvsFail s 1 CC.done 0 = s := if_pos (by decide)
  unfold nvsReport
  rw [hfail]
  exact if_pos h

theorem svcEnd_done (s : State) : rd (svcEnd s CC.done 0) Reg.SSU_SVCSTS_CC = CC.done ∧
    rd (svcEnd s CC.done 0) Reg.SSU_SVCSTS_PEND = 0 := by
  obtain ⟨hcc, -, hpend⟩ := setStatus_reads (cc := Reg.SSU_SVCSTS_CC) (rsn := Reg.SSU_SVCSTS_RSN)
    (pend := Reg.SSU_SVCSTS_PEND) (i := 0) s CC.done 0 (by decide) (by decide) (by decide)
  exact ⟨hcc, hpend⟩

theorem rd_claim_svcEnd (s : State) (code rsn : Nat) :
    rd (svcEnd (svcOver s) code rsn) Reg.RDU_CLAIM_OWN = rd s Reg.RDU_CLAIM_OWN :=
  rd_setStatus_ne (by decide) (by decide) (by decide) _ _ _

theorem recRead_svcEnd (s : State) (code rsn ty : Nat) : recRead (svcEnd (svcOver s) code rsn) ty = recRead s ty := rfl

theorem resetClaim_effect {s : State} (hp : rdB s Reg.SSU_SVCSTS_PEND = false) (hm : modeIs s = .halt)
    (hq : s.nvs.queue = []) (hsusp : s.nvs.susp = []) (hcur : s.nvs.cur = none) :
    Completes (exec (.resetClaim 0x5E7C) s) fun t =>
      rd t Reg.RDU_CLAIM_OWN = (if ownSide s then 0 else 1) ∧ rd t Reg.SSU_SVCSTS_CC = CC.done ∧
      rd t Reg.SSU_SVCSTS_PEND = 0 ∧ recRead t 2 = some (.claim (if ownSide s then 0 else 1)) := by
  have hmode : recalling (claimReset s) = false :=
    recalling_of_mode (by rw [claimReset, modeIs_wr (by decide)]; exact hm.trans_ne (by decide))
  obtain ⟨c, hc⟩ : ∃ c : BitVec 32, c = if ownSide s then 0 else 1 := ⟨_, rfl⟩
  have hvalue : c.toNat % 2 ^ Reg.RDU_CLAIM_OWN.width = if ownSide s then 0 else 1 := by
    rw [hc]
    split <;> rfl
  have hstore := storeClaim_eq (s := claimReset s) hmode hq hsusp hcur c
  have htold := nvsReport_claim (s := claimStored (claimReset s) c) rfl
  have hexec : exec (.resetClaim 0x5E7C) s = .next (storeClaim (claimReset s) c) := by
    rw [hc]
    exact congrArg Host.Outcome.next (svcCmd_runs hp hm _)
  obtain ⟨hread, hown⟩ := claimStored_reads (claimReset s) c
  rw [← hc]
  obtain ⟨hcc, hpend⟩ := svcEnd_done (svcOver (claimStored (claimReset s) c))
  exact ⟨_, hexec.trans (congrArg Host.Outcome.next (hstore.trans htold)),
    (rd_claim_svcEnd _ _ _).trans (hown.trans hvalue), hcc, hpend, (recRead_svcEnd _ _ _ _).trans hread⟩

/-! ### The host watchdog, the battery and the temperature (R384, R429) -/

theorem hostWatchdog_records {s : State} (h : hostExpired s = true) (hact : rdB s Reg.SSU_WDTCFG_ACT = false)
    (st : Straps) : Completes (exec (.hostWatchdogExpiry st) s) fun t =>
      t.ssu = { s.ssu with wdtFrom := some s.tb.now } ∧ modeIs t = modeIs s ∧ t.csa = s.csa :=
  ⟨_, congrArg Host.Outcome.next ((if_neg (by simp [h])).trans (if_neg (by simp [hact]))), event_ssu _ _ _ _,
    modeIs_event _ _ _ _, event_csa _ _ _ _⟩

theorem temperatureUpdate_effect (s : State) (tj : BitVec 12) : Completes (exec (.temperatureUpdate tj) s) fun t =>
    rd t Reg.SSU_TEMP_TJ = tj.toNat ∧
    (signedOf 12 (rd s Reg.SSU_TEMP_MAX) < tj.toInt → rd t Reg.SSU_TEMP_MAX = tj.toNat) ∧
    (tj.toInt ≤ signedOf 12 (rd s Reg.SSU_TEMP_MAX) → rd t Reg.SSU_TEMP_MAX = rd s Reg.SSU_TEMP_MAX) ∧
    OnlyFields s t [(Reg.SSU_TEMP_TJ, 0), (Reg.SSU_TEMP_MAX, 0)] := by
  have hmax : rd (wr s Reg.SSU_TEMP_TJ tj.toNat) Reg.SSU_TEMP_MAX = rd s Reg.SSU_TEMP_MAX := rd_wr_ne (by decide) _ _
  have hwhole : tj.toNat % 4096 = tj.toNat := Nat.mod_eq_of_lt tj.isLt
  have hexec : exec (.temperatureUpdate tj) s = .next (if signedOf 12 (rd s Reg.SSU_TEMP_MAX) < tj.toInt then
      wr (wr s Reg.SSU_TEMP_TJ tj.toNat) Reg.SSU_TEMP_MAX tj.toNat else wr s Reg.SSU_TEMP_TJ tj.toNat) := by
    rw [← hmax]
    rfl
  refine ⟨_, hexec, ?_⟩
  have htj : FieldsBut s (wr s Reg.SSU_TEMP_TJ tj.toNat) [(Reg.SSU_TEMP_TJ, 0), (Reg.SSU_TEMP_MAX, 0)] :=
    fieldsBut_wr (by simp) _ _
  split
  next h =>
    exact ⟨(rd_wr_ne (by decide) _ _).trans ((rd_wr_same _ _ _ _).trans hwhole),
      fun _ => (rd_wr_same _ _ _ _).trans hwhole, fun hle => absurd h (not_lt.2 hle), rfl,
      htj.trans (fieldsBut_wr (by simp) _ _)⟩
  next h =>
    exact ⟨(rd_wr_same _ _ _ _).trans hwhole, fun hlt => absurd hlt h, fun _ => hmax, rfl, htj⟩

/-- Settles O59: the waves, the end of TEST, the fault window, the service commands, the host watchdog and the sensors. -/
theorem serviceEvents : Obligations.ServiceEvents := by
  unfold Obligations.ServiceEvents
  refine fun s => ⟨waveStart_effect, waveStart_waits, fun w ms h hw hbeat => waveEnd_effect h hw hbeat,
    fun ms h => waveEnd_last h, fun i w h => ⟨faultWindow_over h, faultWindow_open h⟩, fun hp key => ⟨?_, fun hm =>
      ⟨fun hq hremaps hfit => clearRetire_effect hp hm hq hremaps hfit,
        fun hq hsusp hcur => resetClaim_effect hp hm hq hsusp hcur⟩⟩,
    fun v => ⟨fun h => congrArg Host.Outcome.next (if_pos h), fun h => congrArg Host.Outcome.next (if_neg h)⟩,
    fun st h hact => hostWatchdog_records h hact st,
    fun low => ⟨_, rfl, rdB_wrB_same rfl _ _ _, rfl, fieldsBut_wr (by simp) _ _⟩, fun tj => temperatureUpdate_effect s tj⟩
  rintro h c (rfl | rfl)
  · exact ⟨_, rfl, svcCmd_refused hp h _⟩
  · exact ⟨_, rfl, svcCmd_refused hp h _⟩

end Sys2Proof.Machine
end

section
/-! SUPPORT. CLAIMNOTEs and the receiver of a command stream (R267 to R269, R309, R310): what an ACTIVE unit sends, a claim
that is heard, and the copies that a receiver takes. -/

namespace Sys2Proof.Machine

/-! ### CLAIMNOTEs sent (R310) -/

/-- A state that puts out more. -/
def putOut (s : State) (l : List Out) : State := { s with out := s.out ++ l }

theorem foldl_putOut {α : Type} {s : State} {f : State → α → State} {g : α → List Out}
    (h : ∀ l x, f (putOut s l) x = putOut s (l ++ g x)) (xs : List α) (l : List Out) :
    xs.foldl f (putOut s l) = putOut s (l ++ xs.flatMap g) := by
  induction xs generalizing l with
  | nil => simp
  | cons x xs ih => rw [List.foldl_cons, h, ih, List.flatMap_cons, List.append_assoc]

/-- What a CLAIMNOTE says of the unit. -/
def noteBody (s : State) : List Byte := [if ownSide s then 1 else 0, BitVec.ofNat 8 (ownMember s).val, 0, 0]

/-- The CLAIMNOTE to an endpoint. -/
def claimFrame (s : State) (r : PortRec) (ep : Endpoint) : Out :=
  .udp (portSrc s r ep.addr) ep 5
    ⟨1, BitVec.ofNat 16 0, 0, myClaim s, BitVec.ofNat 16 (noteBody s).length, 0, ep.addr⟩ (noteBody s)

/-- The CLAIMNOTEs of a port. -/
def portNotes (s : State) (p : Fin 16) : List Out :=
  match portRec s p with
  | some r => if portUp s p then (groupEps s p r).map (claimFrame s r) else []
  | none => []

theorem link_of_groupEps {s : State} {p : Fin 16} {r : PortRec} {ep : Endpoint} (h : ep ∈ groupEps s p r) :
    ep.link = .port p := by
  unfold groupEps at h
  rcases List.mem_append.1 h with h | h <;> split at h <;> simp_all

/-- A CLAIMNOTE sent in a state that differs in what it has put out alone. -/
theorem vSend_note {s : State} {p : Fin 16} {r : PortRec} (hr : portRec s p = some r) (hup : portUp s p = true)
    {ep : Endpoint} (hlink : ep.link = .port p) (l : List Out) :
    vSend (putOut s l) ep 5 0 0 (myClaim s) 0 (noteBody s) 0 0 = putOut s (l ++ [claimFrame s r ep]) := by
  have hr' : portRec (putOut s l) p = some r := hr
  have hup' : portUp (putOut s l) p = true := hup
  unfold vSend
  rw [hlink]
  dsimp only
  rw [hr']
  dsimp only
  rw [if_pos hup']
  exact congrArg (fun x => { s with out := x }) (List.append_assoc _ _ _)

/-- The CLAIMNOTEs of a port sent. -/
def portNoted (s : State) (p : Fin 16) : State :=
  match portRec s p with
  | some r => if portUp s p then
      (groupEps s p r).foldl (fun s ep => vSend s ep 5 0 0 (myClaim s) 0 (noteBody s) 0 0) s
    else s
  | none => s

theorem portNoted_putOut (s : State) (p : Fin 16) (l : List Out) :
    portNoted (putOut s l) p = putOut s (l ++ portNotes s p) := by
  have hrec : portRec (putOut s l) p = portRec s p := rfl
  have hport : portUp (putOut s l) p = portUp s p := rfl
  have hnone : putOut s l = putOut s (l ++ []) := by rw [List.append_nil]
  unfold portNoted portNotes
  rw [hrec, hport]
  cases hr : portRec s p with
  | none => exact hnone
  | some r =>
    dsimp only
    by_cases hup : portUp s p = true
    · rw [if_pos hup, if_pos hup]
      have hfold (eps : List Endpoint) (hlinks : ∀ ep ∈ eps, ep.link = .port p) (l : List Out) :
          eps.foldl (fun s ep => vSend s ep 5 0 0 (myClaim s) 0 (noteBody s) 0 0) (putOut s l) =
            putOut s (l ++ eps.map (claimFrame s r)) := by
        induction eps generalizing l with
        | nil => simp
        | cons ep eps ih =>
          have hsent : vSend (putOut s l) ep 5 0 0 (myClaim (putOut s l)) 0 (noteBody (putOut s l)) 0 0 =
              putOut s (l ++ [claimFrame s r ep]) := vSend_note hr hup (hlinks ep List.mem_cons_self) l
          rw [List.foldl_cons, hsent, ih (fun e he => hlinks e (List.mem_cons_of_mem _ he)), List.append_assoc]
          rfl
      exact hfold (groupEps s p r) (fun _ => link_of_groupEps) l
    · rw [if_neg hup, if_neg hup]
      exact hnone

theorem claimNote_active {s : State} (h : modeIs s = .active) :
    claimNote s = putOut s ((List.finRange 16).flatMap (portNotes s)) := by
  have hnil : s = putOut s [] := by simp [putOut]
  have hfold : (List.finRange 16).foldl portNoted (putOut s []) = putOut s ((List.finRange 16).flatMap (portNotes s)) :=
    foldl_putOut (fun l p => portNoted_putOut s p l) (List.finRange 16) []
  rw [← hnil] at hfold
  exact (if_pos h).trans hfold

theorem claimnoteSend_effect {s : State} (h : modeIs s = .active) : Completes (exec .claimnoteSend s) fun t =>
    { t with out := s.out } = s ∧ ∃ l, t.out = s.out ++ l ∧
      (∀ o ∈ l, ∃ sr ep h b, o = .udp sr ep 5 h b ∧ h.claim = myClaim s ∧ b =
        [if ownSide s then 1 else 0, BitVec.ofNat 8 (ownMember s).val, 0, 0]) ∧
      ∀ p r, portRec s p = some r → portUp s p = true → ∀ ep ∈ groupEps s p r,
        ∃ h b, Out.udp (portSrc s r ep.addr) ep 5 h b ∈ l := by
  refine ⟨_, congrArg Host.Outcome.next (claimNote_active h), rfl, _, rfl, fun o ho => ?_, fun p r hr hup ep hep => ?_⟩
  · obtain ⟨p, -, ho⟩ := List.mem_flatMap.1 ho
    unfold portNotes at ho
    split at ho
    · split at ho
      · obtain ⟨ep, -, rfl⟩ := List.mem_map.1 ho
        exact ⟨_, _, _, _, rfl, rfl, rfl⟩
      · cases ho
    · cases ho
  · have hmem : claimFrame s r ep ∈ portNotes s p := by
      unfold portNotes
      rw [hr]
      dsimp only
      rw [if_pos hup]
      exact List.mem_map_of_mem hep
    exact ⟨_, _, List.mem_flatMap.2 ⟨p, List.mem_finRange p, hmem⟩⟩

/-! ### CLAIMNOTEs heard (R309) -/

/-- A claim of the other side shown. -/
def claimShown (s : State) (c : BitVec 32) : State :=
  wr { s with rdu := { s.rdu with hello := s.rdu.hello.map fun h => { h with claim := c } } } Reg.RDU_PCLAIM_PARTNER c.toNat

theorem modeIs_claimShown (s : State) (c : BitVec 32) : modeIs (claimShown s c) = modeIs s := modeIs_wr (by decide) _ _

theorem mem_addCause (s : State) (c : Cause) : c ∈ (addCause s c).ssu.causes := by
  unfold addCause
  split
  next h => exact List.contains_iff_mem.1 h
  next => exact List.mem_append_right _ (List.mem_singleton_self c)

/-- A claim above that of the unit, or of its partner, or a claim of its own that side B hears. -/
def claimAbove (s : State) (own c : BitVec 32) : Bool :=
  (match modeIs s with
    | .active => decide (own.toNat < c.toNat)
    | .standby => decide (own.toNat + 1 < c.toNat)
    | _ => false) || (decide (c = own) && ownSide s && (modeIs s = .active || modeIs s = .standby))

theorem hearClaim_of_some {s : State} {own : BitVec 32} (h : s.rdu.claimHeld = some own) (c : BitVec 32) :
    hearClaim s c = if claimAbove s own c then addCause (claimShown s c) (.higherClaim c) else claimShown s c := by
  have hheld : (claimShown s c).rdu.claimHeld = some own := h
  have hmode := modeIs_claimShown s c
  unfold claimShown at hheld hmode
  unfold hearClaim
  simp only [hheld, hmode, claimAbove, claimShown]
  rfl

theorem rd_partner_hearClaim (s : State) (c : BitVec 32) : rd (hearClaim s c) Reg.RDU_PCLAIM_PARTNER = c.toNat := by
  have hshown : rd (claimShown s c) Reg.RDU_PCLAIM_PARTNER = c.toNat :=
    (rd_wr_same _ _ _ _).trans (Nat.mod_eq_of_lt c.isLt)
  cases h : s.rdu.claimHeld with
  | none =>
    have hheard : hearClaim s c = claimShown s c := by
      have hheld : (claimShown s c).rdu.claimHeld = none := h
      unfold claimShown at hheld
      simp only [hearClaim, hheld]
      rfl
    rw [hheard, hshown]
  | some own =>
    rw [hearClaim_of_some h]
    have hcause (t : State) (x : Cause) : rd (addCause t x) Reg.RDU_PCLAIM_PARTNER = rd t Reg.RDU_PCLAIM_PARTNER :=
      ite_keeps (p := (rd · Reg.RDU_PCLAIM_PARTNER)) rfl rfl
    exact (ite_keeps (p := (rd · Reg.RDU_PCLAIM_PARTNER)) (hcause _ _) rfl).trans hshown

theorem claimnote_heard {s : State} {p : Fin 16} (hup : portUp s p = true) (hlisten : vListens s = true) {side : Side}
    (hside : side ≠ ownSide s) (claim : BitVec 32) : Completes (exec (.claimnote p (ownMember s) side claim) s) fun t =>
      rd t Reg.RDU_PCLAIM_PARTNER = claim.toNat ∧
      ∀ own, s.rdu.claimHeld = some own →
        ((modeIs s = .active ∧ own.toNat < claim.toNat ∨ modeIs s = .standby ∧ own.toNat + 1 < claim.toNat ∨
            (modeIs s = .active ∨ modeIs s = .standby) ∧ claim = own ∧ ownSide s = true) →
          .higherClaim claim ∈ t.ssu.causes) ∧
        (claim.toNat < own.toNat → t.ssu = s.ssu) := by
  have hexec : exec (.claimnote p (ownMember s) side claim) s = .next (hearClaim s claim) :=
    congrArg Host.Outcome.next (if_pos (by simp [hup, hlisten, hside]))
  refine ⟨_, hexec, rd_partner_hearClaim s claim, fun own hown => ⟨fun h => ?_, fun hlt => ?_⟩⟩
  · have habove : claimAbove s own claim = true := by
      unfold claimAbove
      rcases h with ⟨hm, hlt⟩ | ⟨hm, hlt⟩ | ⟨hm, rfl, hb⟩
      · simp [hm, hlt]
      · simp [hm, hlt]
      · rcases hm with hm | hm <;> simp [hm, hb]
    rw [hearClaim_of_some hown, if_pos habove]
    exact mem_addCause _ _
  · have habove : claimAbove s own claim = false := by
      have hne : claim ≠ own := by rintro rfl; exact lt_irrefl _ hlt
      unfold claimAbove
      split <;> simp [hne] <;> omega
    rw [hearClaim_of_some hown, if_neg (by simp [habove])]
    rfl

theorem claimnote_passed {s : State} {m : Fin 8} {side : Side} (h : m ≠ ownMember s ∨ side = ownSide s) (p : Fin 16)
    (claim : BitVec 32) : exec (.claimnote p m side claim) s = .next s := by
  refine congrArg Host.Outcome.next (if_neg ?_)
  rcases h with h | h <;> simp [h]

/-! ### The receivers of the station -/

theorem recvOf_stationId {s : State} {sid : BitVec 64} {r : Recv} (h : recvOf s sid = some r) : r.stationId = sid := by
  simpa using List.find?_some h

theorem recvOf_setRecv_same (s : State) (r : Recv) : recvOf (setRecv s r) r.stationId = some r := by
  unfold recvOf setRecv
  dsimp only
  rw [List.find?_append, List.find?_eq_none.2 (fun x hx => by simpa using (List.mem_filter.1 hx).2)]
  simp

theorem recvOf_setRecv_ne {s : State} {r : Recv} {x : BitVec 64} (h : x ≠ r.stationId) :
    recvOf (setRecv s r) x = recvOf s x := by
  unfold recvOf setRecv
  dsimp only
  rw [List.find?_append, List.find?_filter]
  have hlast : [r].find? (fun y => decide (y.stationId = x)) = none := by simp [h.symm]
  rw [hlast, Option.or_none]
  refine List.find?_congr fun y _ => ?_
  by_cases hy : y.stationId = x
  · simp [hy, h]
  · simp [hy]

/-- Stores of receivers aside, a state is as it was. -/
theorem setRecv_rest (s : State) (r : Recv) : { setRecv s r with recvs := s.recvs } = s := rfl

theorem joinAck_taken {s : State} {sid : BitVec 64} {b : JoinAckBody} (hid : b.stationId = sid) (hres : b.result = 0) :
    Completes (exec (.joinAck sid b) s) fun t =>
      (∃ r, recvOf t sid = some r ∧ r.stream = b.stream ∧ r.session = b.session ∧ r.last = 0 ∧ r.hist = [] ∧
        r.heard = [] ∧ r.cw = b.cw ∧ r.rpTicks = b.rpTicks ∧ r.tickNs = b.tickNs) ∧
      (∀ x, x ≠ sid → recvOf t x = recvOf s x) ∧ { t with recvs := s.recvs } = s := by
  refine ⟨_, congrArg Host.Outcome.next (if_pos ⟨hid, hres⟩), ⟨_, recvOf_setRecv_same s _, ?_⟩,
    fun x hx => recvOf_setRecv_ne hx, setRecv_rest s _⟩
  exact ⟨rfl, rfl, rfl, rfl, rfl, rfl, rfl, rfl⟩

theorem joinAck_passed {sid : BitVec 64} {b : JoinAckBody} (h : b.stationId ≠ sid ∨ b.result ≠ 0) (s : State) :
    exec (.joinAck sid b) s = .next s := congrArg Host.Outcome.next (if_neg (not_and_or.2 h))

theorem safeState_taken {s : State} {sid : BitVec 64} {r : Recv} (hr : recvOf s sid = some r) {now : Nat}
    (h : r.lastCmd + (r.rpTicks + r.cw) * r.tickNs ≤ now) : Completes (exec (.receiverSafeState sid now) s) fun t =>
      recvOf t sid = some { r with safe := true } ∧ { t with recvs := s.recvs } = s := by
  obtain rfl := recvOf_stationId hr
  have hexec : exec (.receiverSafeState r.stationId now) s = .next (setRecv s { r with safe := true }) := by
    refine congrArg Host.Outcome.next ?_
    rw [hr]
    exact if_pos h
  exact ⟨_, hexec, recvOf_setRecv_same s { r with safe := true }, setRecv_rest s _⟩

theorem safeState_waits {s : State} {sid : BitVec 64} {r : Recv} (hr : recvOf s sid = some r) {now : Nat}
    (h : now < r.lastCmd + (r.rpTicks + r.cw) * r.tickNs) : exec (.receiverSafeState sid now) s = .next s := by
  refine congrArg Host.Outcome.next ?_
  rw [hr]
  exact if_neg (Nat.not_le.2 h)

/-! ### The claims a receiver has heard (R267) -/

/-- The claims heard within CW, with that of a copy. -/
def heardWith (r : Recv) (c : CmdCopy) (now : Nat) : List (BitVec 32 × Nat) :=
  ((r.heard.filter (·.1 ≠ c.claim)) ++ [(c.claim, now)]).filter fun e => now ≤ e.2 + r.cw * r.tickNs

/-- The highest claim of a list. -/
def highestClaim (l : List (BitVec 32 × Nat)) : Nat := l.foldl (fun m e => max m e.1.toNat) 0

theorem foldl_claims_le {l : List (BitVec 32 × Nat)} {m n : Nat} :
    l.foldl (fun m e => max m e.1.toNat) m ≤ n ↔ m ≤ n ∧ ∀ e ∈ l, e.1.toNat ≤ n := by
  induction l generalizing m with
  | nil => simp
  | cons x l ih => rw [List.foldl_cons, ih, max_le_iff, List.forall_mem_cons, and_assoc]

theorem highestClaim_le {l : List (BitVec 32 × Nat)} {n : Nat} : highestClaim l ≤ n ↔ ∀ e ∈ l, e.1.toNat ≤ n := by
  simp [highestClaim, foldl_claims_le]

theorem le_highestClaim {l : List (BitVec 32 × Nat)} {e : BitVec 32 × Nat} (h : e ∈ l) : e.1.toNat ≤ highestClaim l :=
  highestClaim_le.1 le_rfl e h

theorem mem_heardWith_own (r : Recv) (c : CmdCopy) (now : Nat) : (c.claim, now) ∈ heardWith r c now := by
  simp [heardWith]

theorem mem_heardWith {r : Recv} {c : CmdCopy} {now : Nat} {e : BitVec 32 × Nat} (h : e ∈ heardWith r c now) :
    e ∈ r.heard ∨ e = (c.claim, now) := by
  rcases List.mem_append.1 (List.mem_filter.1 h).1 with h | h
  · exact .inl (List.mem_filter.1 h).1
  · exact .inr (List.mem_singleton.1 h)

theorem mem_heardWith_of_fresh {r : Recv} {c : CmdCopy} {now : Nat} {e : BitVec 32 × Nat} (he : e ∈ r.heard)
    (hfresh : now ≤ e.2 + r.cw * r.tickNs) (hne : e.1 ≠ c.claim) : e ∈ heardWith r c now :=
  List.mem_filter.2 ⟨List.mem_append_left _ (List.mem_filter.2 ⟨he, by simp [hne]⟩), by simp [hfresh]⟩

/-- No claim heard is more than one above that of a copy: it is acted on. -/
theorem highest_of_heard {r : Recv} {c : CmdCopy} (h : ∀ e ∈ r.heard, e.1.toNat ≤ c.claim.toNat + 1) (now : Nat) :
    c.claim.toNat = highestClaim (heardWith r c now) ∨ c.claim.toNat + 1 = highestClaim (heardWith r c now) := by
  have hown : c.claim.toNat ≤ highestClaim (heardWith r c now) := le_highestClaim (mem_heardWith_own r c now)
  have hall : highestClaim (heardWith r c now) ≤ c.claim.toNat + 1 := by
    refine highestClaim_le.2 fun e he => ?_
    rcases mem_heardWith he with he | rfl
    · exact h e he
    · exact Nat.le_succ _
  omega

/-- A claim more than one above that of a copy was heard within CW. -/
theorem highest_of_fresh {r : Recv} {c : CmdCopy} {now : Nat} {e : BitVec 32 × Nat} (he : e ∈ r.heard)
    (hfresh : now ≤ e.2 + r.cw * r.tickNs) (hlow : c.claim.toNat + 1 < e.1.toNat) :
    ¬(c.claim.toNat = highestClaim (heardWith r c now) ∨ c.claim.toNat + 1 = highestClaim (heardWith r c now)) := by
  have hne : e.1 ≠ c.claim := by rintro h; rw [h] at hlow; omega
  have := le_highestClaim (mem_heardWith_of_fresh he hfresh hne)
  omega

/-! ### The copies of a stream (R267) -/

/-- A receiver that has heard a copy. -/
def copyHeard (r : Recv) (c : CmdCopy) (now : Nat) : Recv := { r with heard := heardWith r c now, lastCmd := now }

/-- An older copy whose SEQ is known. -/
theorem recvCopy_known {r : Recv} {c : CmdCopy} {now : Nat} {q cl : BitVec 32} {dg : BitVec 64}
    (hold : newer32 c.seq r.last = false) (hfind : r.hist.find? (·.1 = c.seq) = some (q, cl, dg)) :
    recvCopy r c now = (if dg ≠ c.digest ∧ q ∉ r.mmSent then { copyHeard r c now with mmSent := r.mmSent ++ [q] }
        else copyHeard r c now, if c.claim = cl then some r.last else none,
      if dg ≠ c.digest ∧ q ∉ r.mmSent then some ⟨q, cl, c.claim, dg, c.digest⟩ else none) := by
  have hbad : (decide (dg ≠ c.digest) && !r.mmSent.contains q) = decide (dg ≠ c.digest ∧ q ∉ r.mmSent) := by
    simp [Bool.decide_and]
  refine (if_neg (by simp [hold])).trans ?_
  simp only [hfind, hbad, decide_eq_true_eq]
  rfl

/-- What a receiver puts out for a copy. -/
def copyAnswers (r : Recv) (ack : Option (BitVec 32)) (mm : Option MismatchBody) : List Out :=
  (match mm with | some b => [.mismatch r.stream r.session b] | none => [])
    ++ (match ack with | some a => [.cack r.stream r.session a] | none => [])

/-- A copy of the receiver's stream and session gives what its rules give. -/
theorem cmdCopy_taken {s : State} {sid : BitVec 64} {r r' : Recv} {c : CmdCopy} {now : Nat} {ack : Option (BitVec 32)}
    {mm : Option MismatchBody} (hr : recvOf s sid = some r) (hstream : c.stream = r.stream)
    (hsession : c.session = r.session) (hcopy : recvCopy r c now = (r', ack, mm)) (hid : r'.stationId = r.stationId) :
    Completes (exec (.cmdCopy sid c now) s) fun t => t.out = s.out ++ copyAnswers r' ack mm ∧ recvOf t sid = some r' := by
  obtain rfl := recvOf_stationId hr
  have hstored : recvOf (setRecv s r') r.stationId = some r' := hid ▸ recvOf_setRecv_same s r'
  refine ⟨_, rfl, ?_⟩
  unfold cmdCopy
  rw [hr]
  dsimp only
  rw [if_neg (by simp [hstream, hsession]), hcopy]
  cases mm <;> cases ack
  · exact ⟨(List.append_nil _).symm, hstored⟩
  · exact ⟨rfl, hstored⟩
  · exact ⟨rfl, hstored⟩
  · exact ⟨List.append_assoc _ _ _, hstored⟩

theorem cmdCopy_other {s : State} {sid : BitVec 64} {r : Recv} (hr : recvOf s sid = some r) {c : CmdCopy}
    (h : c.stream ≠ r.stream ∨ c.session ≠ r.session) (now : Nat) : exec (.cmdCopy sid c now) s = .next s := by
  refine congrArg Host.Outcome.next ?_
  unfold cmdCopy
  rw [hr]
  exact if_pos h

section

variable {s : State} {sid : BitVec 64} {r : Recv} {c : CmdCopy} {now : Nat} (hr : recvOf s sid = some r)
  (hstream : c.stream = r.stream) (hsession : c.session = r.session)
include hr hstream hsession

theorem cmdCopy_acted (hnew : newer32 c.seq r.last = true) (h : ∀ e ∈ r.heard, e.1.toNat ≤ c.claim.toNat + 1) :
    Completes (exec (.cmdCopy sid c now) s) fun t => t.out = s.out ++ [.cack r.stream r.session c.seq] ∧
      ∃ r', recvOf t sid = some r' ∧ r'.last = c.seq ∧ r'.acted = c.elems ∧ r'.safe = false ∧ r'.lastCmd = now := by
  obtain ⟨r', hcopy, hid, hst, hse, hrest⟩ : ∃ r', recvCopy r c now = (r', some c.seq, none) ∧
      r'.stationId = r.stationId ∧ r'.stream = r.stream ∧ r'.session = r.session ∧ r'.last = c.seq ∧ r'.acted = c.elems ∧
      r'.safe = false ∧ r'.lastCmd = now :=
    ⟨_, (if_pos hnew).trans (if_pos (highest_of_heard h now)), rfl, rfl, rfl, rfl, rfl, rfl, rfl⟩
  obtain ⟨t, hexec, hout, hstored⟩ := cmdCopy_taken hr hstream hsession hcopy hid
  refine ⟨t, hexec, ?_, r', hstored, hrest⟩
  rw [hout, copyAnswers, hst, hse]
  rfl

theorem cmdCopy_low (hnew : newer32 c.seq r.last = true) {e : BitVec 32 × Nat} (he : e ∈ r.heard)
    (hfresh : now ≤ e.2 + r.cw * r.tickNs) (hlow : c.claim.toNat + 1 < e.1.toNat) :
    Completes (exec (.cmdCopy sid c now) s) fun t => t.out = s.out ∧ ∃ r', recvOf t sid = some r' ∧
      r'.last = r.last ∧ r'.acted = r.acted ∧ r'.lowClaim = r.lowClaim + 1 := by
  obtain ⟨r', hcopy, hid, hrest⟩ : ∃ r', recvCopy r c now = (r', none, none) ∧ r'.stationId = r.stationId ∧
      r'.last = r.last ∧ r'.acted = r.acted ∧ r'.lowClaim = r.lowClaim + 1 :=
    ⟨_, (if_pos hnew).trans (if_neg (highest_of_fresh he hfresh hlow)), rfl, rfl, rfl, rfl⟩
  obtain ⟨t, hexec, hout, hstored⟩ := cmdCopy_taken hr hstream hsession hcopy hid
  exact ⟨t, hexec, hout.trans (List.append_nil _), r', hstored, hrest⟩

theorem cmdCopy_known (hold : newer32 c.seq r.last = false) {q cl : BitVec 32} {dg : BitVec 64}
    (hfind : r.hist.find? (·.1 = c.seq) = some (q, cl, dg)) : Completes (exec (.cmdCopy sid c now) s) fun t =>
      t.out = s.out
        ++ (if dg ≠ c.digest ∧ q ∉ r.mmSent then
          [.mismatch r.stream r.session ⟨q, cl, c.claim, dg, c.digest⟩] else [])
        ++ (if c.claim = cl then [.cack r.stream r.session r.last] else []) ∧
      ∃ r', recvOf t sid = some r' ∧ r'.last = r.last ∧ r'.acted = r.acted := by
  have hcopy := recvCopy_known (now := now) hold hfind
  by_cases hbad : dg ≠ c.digest ∧ q ∉ r.mmSent
  · rw [if_pos hbad, if_pos hbad] at hcopy
    obtain ⟨t, hexec, hout, hstored⟩ := cmdCopy_taken hr hstream hsession hcopy rfl
    refine ⟨t, hexec, ?_, _, hstored, rfl, rfl⟩
    rw [hout, if_pos hbad, List.append_assoc]
    by_cases hcl : c.claim = cl <;> simp [hcl, copyAnswers, copyHeard]
  · rw [if_neg hbad, if_neg hbad] at hcopy
    obtain ⟨t, hexec, hout, hstored⟩ := cmdCopy_taken hr hstream hsession hcopy rfl
    refine ⟨t, hexec, ?_, _, hstored, rfl, rfl⟩
    rw [hout, if_neg hbad]
    by_cases hcl : c.claim = cl <;> simp [hcl, copyAnswers, copyHeard]

theorem cmdCopy_late (hold : newer32 c.seq r.last = false) (hfind : r.hist.find? (·.1 = c.seq) = none) :
    Completes (exec (.cmdCopy sid c now) s) fun t => t.out = s.out ∧
      ∃ r', recvOf t sid = some r' ∧ r'.late = r.late + 1 ∧ r'.acted = r.acted := by
  obtain ⟨r', hcopy, hid, hrest⟩ : ∃ r', recvCopy r c now = (r', none, none) ∧ r'.stationId = r.stationId ∧
      r'.late = r.late + 1 ∧ r'.acted = r.acted := by
    refine ⟨{ copyHeard r c now with late := r.late + 1 }, (if_neg (by simp [hold])).trans ?_, rfl, rfl, rfl⟩
    simp only [hfind]
    rfl
  obtain ⟨t, hexec, hout, hstored⟩ := cmdCopy_taken hr hstream hsession hcopy hid
  exact ⟨t, hexec, hout.trans (List.append_nil _), r', hstored, hrest⟩

end

/-- Settles O46: CLAIMNOTEs sent and heard, and the receiver of a command stream. -/
theorem claimsAndStationReceiver : Obligations.ClaimsAndStationReceiver := by
  unfold Obligations.ClaimsAndStationReceiver
  refine ⟨fun s => ⟨claimnoteSend_effect, fun h => congrArg Host.Outcome.next (if_neg h), fun p claim hup hlisten =>
    ⟨fun side hside => claimnote_heard hup hlisten hside claim, fun m side h => claimnote_passed h p claim⟩⟩,
    fun s sid => ⟨fun b => joinAck_taken, fun b h => joinAck_passed h s, fun r hr => ⟨fun c now => ⟨fun h =>
      cmdCopy_other hr h now, fun hstream hsession => ⟨fun hnew => ⟨cmdCopy_acted hr hstream hsession hnew,
        fun e he => cmdCopy_low hr hstream hsession hnew he⟩, fun hold => ⟨fun q cl dg =>
          cmdCopy_known hr hstream hsession hold, cmdCopy_late hr hstream hsession hold⟩⟩⟩,
      fun now => ⟨safeState_taken hr, safeState_waits hr⟩⟩⟩⟩

end Sys2Proof.Machine
end

section
/-! SUPPORT. What a frame of the partner changes (R299, R316, R319): its header tells the partner's mode, a copy may end or be
asked for, and the rest of the Redundancy Unit stands. -/

namespace Sys2Proof.Machine

/-! ### Views in which a frame's header does not show -/

/-- The fields that a header sets besides the partner's mode. -/
def frameFields : List Field := [Reg.RDU_STATUS_QUAL, Reg.RDU_STATUS_PAIRST, Reg.RDU_STATUS_MSTATE, Reg.RDU_STATUS_SIDE,
  Reg.RDU_STATUS_HELD, Reg.RDU_CPSTS_STATE, Reg.RDU_CPSTS_REGION, Reg.RDU_CPSTS_PEND, Reg.RDU_CPSTS_CC, Reg.RDU_CPSTS_RSN,
  Reg.RDU_CPMASK_DONEMASK, Reg.RDU_CPBYTES_BYTES]

/-- A view of the state in which the end of a copy and the status of the pair do not show. -/
structure FrameBlind {β : Type} (p : State → β) : Prop where
  field : ∀ f ∈ frameFields, ∀ s v, p (wr s f v) = p s
  event : ∀ s code sev ps, p (event s code sev ps) = p s
  causes : ∀ s x, p { s with ssu := { s.ssu with causes := x } } = p s
  copy : ∀ (s : State) x y z, p { s with rdu := { s.rdu with copy := x, copyReq := y, sendCopy := z } } = p s

/-- A view in which the request for a copy does not show either. -/
structure AskBlind {β : Type} (p : State → β) : Prop extends FrameBlind p where
  out : ∀ s o, p (emit s o) = p s
  told : ∀ (s : State) x y z, p { s with rdu := { s.rdu with own := x, links := y, fseqOut := z } } = p s

namespace FrameBlind

variable {β : Type} {p : State → β} (h : FrameBlind p)
include h

theorem addCause (s : State) (c : Cause) : p (addCause s c) = p s := ite_keeps rfl (h.causes s _)

theorem putCopy (s : State) (c : Option CopyRun) : p (putCopy s c) = p s := h.copy s c _ _

theorem copyEnd (s : State) (code rsn : Nat) : p (copyEnd s code rsn) = p s :=
  (h.field _ (by decide) _ _).trans <| (h.field _ (by decide) _ _).trans <| (h.field _ (by decide) _ _).trans <|
    (h.field _ (by decide) _ _).trans (h.putCopy s none)

theorem abandonCopy (s : State) : p (abandonCopy s) = p s := by
  unfold Machine.abandonCopy
  split
  · split
    · exact (h.addCause _ _).trans <| (h.copyEnd _ _ _).trans (h.event s _ _ _)
    · rfl
  · rfl

theorem showRdu (s : State) : p (showRdu s) = p s := by
  have hfields (q m x y z : Nat) : p (wr (wr (wr (wr (wr s Reg.RDU_STATUS_QUAL q) Reg.RDU_STATUS_PAIRST m)
      Reg.RDU_STATUS_MSTATE x) Reg.RDU_STATUS_SIDE y) Reg.RDU_STATUS_HELD z) = p s :=
    (h.field _ (by decide) _ _).trans <| (h.field _ (by decide) _ _).trans <| (h.field _ (by decide) _ _).trans <|
      (h.field _ (by decide) _ _).trans (h.field _ (by decide) _ _)
  unfold Machine.showRdu
  exact ite_keeps ((h.event _ _ _ _).trans (hfields _ _ _ _ _)) (hfields _ _ _ _ _)

end FrameBlind

namespace AskBlind

variable {β : Type} {p : State → β} (h : AskBlind p)
include h

theorem sendChord (s : State) (l : Option (Fin 2)) (k : Nat) (late : Bool) (b : ChordBody) :
    p (sendChord s l k late b) = p s := (h.told _ _ _ _).trans (h.out s _)

theorem submit (s : State) (stamp source ident : Nat) (b : InBody) : p (submit s stamp source ident b) = p s :=
  ite_keeps ((h.sendChord _ _ _ _ _).trans (h.told s _ _ _)) (h.told s _ _ _)

theorem linkChange (s : State) (r : Resource) : p (linkChange s r) = p s := h.submit _ _ _ _ _

theorem tellLinks (s : State) : p (tellLinks s) = p s := foldl_keeps p (fun _ _ => h.linkChange _ _) _ s

theorem askCopy (s : State) (since : Nat) (answered : Option Nat) : p (askCopy s since answered) = p s :=
  (h.sendChord _ _ _ _ _).trans <| (h.field _ (by decide) _ _).trans <| (h.field _ (by decide) _ _).trans <|
    (h.field _ (by decide) _ _).trans <| (h.field _ (by decide) _ _).trans <| (h.field _ (by decide) _ _).trans <|
    (h.putCopy _ _).trans <| (h.tellLinks _).trans (h.told s _ _ _)

theorem copyStart (s : State) : p (copyStart s) = p s := ite_keeps (h.askCopy _ _ _) rfl

end AskBlind

/-! ### The header -/

/-- What a header tells at once: the partner's mode and its SAVE flag. -/
def noteTold (s : State) (h : ChordHead) : State :=
  let t := wr s Reg.RDU_STATUS_PMODE (modeCode h.mode)
  { t with rdu := { t.rdu with
    partnerSave := h.save, saveHeard := if h.save then some t.tb.tick else t.rdu.saveHeard } }

/-- The copy after a header: it ends with the partner's entry to SAVE and is abandoned when the partner is no longer
ACTIVE. -/
def copyTold (s : State) (h : ChordHead) : State :=
  match s.rdu.copy with
  | some c =>
    if h.save then copyEnd s CC.failPower 0
    else if c.answered.isSome ∧ h.mode ≠ .active then abandonCopy s
    else s
  | none => s

/-- A partner that is not in RESYNC, or enters SAVE, asks for no copy. -/
def askDropped (s : State) (h : ChordHead) : State :=
  if h.mode ≠ .resync ∨ h.save then { s with rdu := { s.rdu with copyReq := false, sendCopy := none } } else s

theorem noteFrame_eq (s : State) (h : ChordHead) :
    noteFrame s h = copyStart (showRdu (askDropped (copyTold (noteTold s h) h) h)) := rfl

theorem FrameBlind.shown {β : Type} {p : State → β} (hp : FrameBlind p) (s : State) (h : ChordHead) :
    p (Machine.showRdu (askDropped (copyTold s h) h)) = p s := by
  refine (hp.showRdu _).trans ((ite_keeps (hp.copy _ _ _ _) rfl).trans ?_)
  unfold copyTold
  split
  · exact ite_keeps (hp.copyEnd _ _ _) (ite_keeps (hp.abandonCopy _) rfl)
  · rfl

theorem AskBlind.noteFrame {β : Type} {p : State → β} (hp : AskBlind p) (s : State) (h : ChordHead) :
    p (noteFrame s h) = p (noteTold s h) := (hp.copyStart _).trans (hp.shown _ _)

theorem modeIs_noteFrame_steps (s : State) (h : ChordHead) :
    modeIs (showRdu (askDropped (copyTold (noteTold s h) h) h)) = modeIs s :=
  (FrameBlind.shown (p := modeIs) ⟨fun f hf _ _ => modeIs_wr (by revert f; decide) _ _, modeIs_event, fun _ _ => rfl,
    fun _ _ _ _ => rfl⟩ _ _).trans (modeIs_wr (by decide) _ _)

/-- A unit that is not in RESYNC asks for no copy. -/
theorem FrameBlind.noteFrame {β : Type} {p : State → β} (hp : FrameBlind p) {s : State} (hm : modeIs s ≠ .resync)
    (h : ChordHead) : p (noteFrame s h) = p (noteTold s h) := by
  rw [noteFrame_eq, copyStart_of_ne_resync (by rwa [modeIs_noteFrame_steps])]
  exact hp.shown _ _

/-! ### Frames taken -/

/-- A frame counted among those received. -/
def chordHeard (s : State) (f : BitVec 32) (g : List (BitVec 32 × Bool)) : State :=
  { s with rdu := { s.rdu with silent := false, fseqIn := some f, gaps := g } }

/-- The frames missed between two numbers. -/
def framesMissed (f g : BitVec 32) : List (BitVec 32 × Bool) :=
  (List.range ((g - f).toNat - 1)).map fun i => (f + 1 + BitVec.ofNat 32 i, false)

/-- A link whose frames are taken: with lock, not RETIRED, and paired unless the frame is HELLO or KEEP. -/
def chordOpen (s : State) (n : Fin 2) (hello : Bool) : Bool :=
  rdB s Reg.RDU_CHSTS_LOCK n && decide (resState s (chRes n) ≠ .retired) && (hello || rdB s Reg.RDU_CHSTS_PAIRED n)

theorem chordTake_shut {s : State} {n : Fin 2} {hello : Bool} (ho : chordOpen s n hello = false) (h : ChordHead) :
    chordTake s n h hello = (s, false) := by
  unfold chordTake
  refine if_pos ?_
  revert ho
  unfold chordOpen
  cases rdB s Reg.RDU_CHSTS_LOCK n <;> cases hello <;> cases rdB s Reg.RDU_CHSTS_PAIRED n <;> simp

section

variable {s : State} {n : Fin 2} {hello : Bool} (ho : chordOpen s n hello = true)
include ho

theorem chordTake_open (h : ChordHead) : chordTake s n h hello = match s.rdu.fseqIn with
    | none => (noteFrame (chordHeard s h.fseq []) h, true)
    | some f =>
      if newer32 h.fseq f then (noteFrame (chordHeard s h.fseq (s.rdu.gaps ++ framesMissed f h.fseq)) h, true)
      else if s.rdu.gaps.any (·.1 = h.fseq) then
        (noteFrame (chordHeard s f (s.rdu.gaps.filter (·.1 ≠ h.fseq))) h, true)
      else ({ s with rdu := { s.rdu with silent := false } }, false) := by
  unfold chordTake
  refine if_neg ?_
  revert ho
  unfold chordOpen
  cases rdB s Reg.RDU_CHSTS_LOCK n <;> cases hello <;> cases rdB s Reg.RDU_CHSTS_PAIRED n <;> simp

end

/-- What the Redundancy Unit takes off a link: nothing, a copy of a frame it has, or a new one, whose header it notes. -/
theorem chordTake_cases (s : State) (n : Fin 2) (h : ChordHead) (hello : Bool) :
    chordTake s n h hello = (s, false) ∨
    chordTake s n h hello = ({ s with rdu := { s.rdu with silent := false } }, false) ∨
    ∃ f g, chordTake s n h hello = (noteFrame (chordHeard s f g) h, true) := by
  cases ho : chordOpen s n hello with
  | false => exact .inl (chordTake_shut ho h)
  | true =>
    rw [chordTake_open ho]
    split
    · exact .inr (.inr ⟨_, _, rfl⟩)
    · split
      · exact .inr (.inr ⟨_, _, rfl⟩)
      · split
        · exact .inr (.inr ⟨_, _, rfl⟩)
        · exact .inr (.inl rfl)

theorem chordTake_new {s : State} {n : Fin 2} {h : ChordHead} {hello : Bool} (hnew : (chordTake s n h hello).2 = true) :
    ∃ f g, chordTake s n h hello = (noteFrame (chordHeard s f g) h, true) := by
  rcases chordTake_cases s n h hello with heq | heq | hex
  · rw [heq] at hnew
    cases hnew
  · rw [heq] at hnew
    cases hnew
  · exact hex

/-- A view in which what a frame's header tells does not show is as before, whatever the frame. -/
theorem AskBlind.chordTake {β : Type} {p : State → β} (hp : AskBlind p)
    (htold : ∀ (s : State) (h : ChordHead), p (noteTold s h) = p s)
    (hheard : ∀ (s : State) a b c, p { s with rdu := { s.rdu with silent := a, fseqIn := b, gaps := c } } = p s)
    (s : State) (n : Fin 2) (h : ChordHead) (hello : Bool) : p (chordTake s n h hello).1 = p s := by
  rcases chordTake_cases s n h hello with heq | heq | ⟨f, g, heq⟩
  · rw [heq]
  · rw [heq]
    exact hheard s false _ _
  · rw [heq]
    exact (hp.noteFrame _ _).trans ((htold _ _).trans (hheard s _ _ _))

/-- The Redundancy Unit but for what a header tells, what a copy changes and what is sent. -/
def chordRest (r : RduSt) : RduSt :=
  { r with fseqIn := none, gaps := [], silent := false, partnerSave := false, saveHeard := none, copy := none,
           copyReq := false, sendCopy := none, own := [], links := [], fseqOut := 0 }

theorem chordTake_rest (s : State) (n : Fin 2) (head : ChordHead) (hello : Bool) :
    chordRest (chordTake s n head hello).1.rdu = chordRest s.rdu :=
  AskBlind.chordTake (p := fun t => chordRest t.rdu)
    ⟨⟨fun _ _ _ _ => rfl, fun _ _ _ _ => by rw [event_rdu], fun _ _ => rfl, fun _ _ _ _ => rfl⟩, fun _ _ => rfl,
      fun _ _ _ _ => rfl⟩ (fun _ _ => rfl) (fun _ _ _ _ => rfl) s n head hello

/-- A field that no header sets. -/
theorem askBlind_rd {g : Field} {j : Nat} (hf : ∀ f ∈ frameFields, g.id ≠ f.id) (hr : ∀ f ∈ recorderFields, g.id ≠ f.id)
    (hj : j < 8192) : AskBlind (rd · g j) where
  field f h s v := rd_wr_of_id_ne (hf f h) (by omega) hj s v
  event s code sev ps := rd_event hr hj s code sev ps
  causes _ _ := rfl
  copy _ _ _ _ := rfl
  out _ _ := rfl
  told _ _ _ _ := rfl

theorem rd_chordTake {g : Field} {j : Nat} (hf : ∀ f ∈ Reg.RDU_STATUS_PMODE :: frameFields, g.id ≠ f.id)
    (hr : ∀ f ∈ recorderFields, g.id ≠ f.id) (hj : j < 8192) (s : State) (n : Fin 2) (head : ChordHead) (hello : Bool) :
    rd (chordTake s n head hello).1 g j = rd s g j :=
  (askBlind_rd (fun f h => hf f (List.mem_cons_of_mem _ h)) hr hj).chordTake
    (fun _ _ => rd_wr_of_id_ne (hf _ List.mem_cons_self) (by omega) hj _ _) (fun _ _ _ _ => rfl) s n head hello

theorem chordTake_tb (s : State) (n : Fin 2) (head : ChordHead) (hello : Bool) :
    (chordTake s n head hello).1.tb = s.tb :=
  AskBlind.chordTake (p := State.tb) ⟨⟨fun _ _ _ _ => rfl, event_tb, fun _ _ => rfl, fun _ _ _ _ => rfl⟩,
    fun _ _ => rfl, fun _ _ _ _ => rfl⟩ (fun _ _ => rfl) (fun _ _ _ _ => rfl) s n head hello

theorem chordTake_csa (s : State) (n : Fin 2) (head : ChordHead) (hello : Bool) :
    (chordTake s n head hello).1.csa = s.csa :=
  AskBlind.chordTake (p := State.csa) ⟨⟨fun _ _ _ _ => rfl, event_csa, fun _ _ => rfl, fun _ _ _ _ => rfl⟩,
    fun _ _ => rfl, fun _ _ _ _ => rfl⟩ (fun _ _ => rfl) (fun _ _ _ _ => rfl) s n head hello

theorem modeIs_chordTake (s : State) (n : Fin 2) (head : ChordHead) (hello : Bool) :
    modeIs (chordTake s n head hello).1 = modeIs s :=
  modeIs_of_rd (rd_chordTake (by decide) (by decide) (by decide) s n head hello)

theorem emitMode_of_rd {s t : State} (hm : rd t Reg.SSU_MODE_MODE = rd s Reg.SSU_MODE_MODE)
    (hp : rd t Reg.SSU_MODE_PRIOR = rd s Reg.SSU_MODE_PRIOR) : emitMode t = emitMode s := by
  have hmode : modeIs t = modeIs s := modeIs_of_rd hm
  have hprior : priorMode t = priorMode s := congrArg modeOf hp
  unfold emitMode
  rw [hmode, hprior]

theorem emitMode_chordTake (s : State) (n : Fin 2) (head : ChordHead) (hello : Bool) :
    emitMode (chordTake s n head hello).1 = emitMode s :=
  emitMode_of_rd (rd_chordTake (by decide) (by decide) (by decide) s n head hello)
    (rd_chordTake (by decide) (by decide) (by decide) s n head hello)

theorem tickNs_chordTake (s : State) (n : Fin 2) (head : ChordHead) (hello : Bool) :
    tickNs (chordTake s n head hello).1 = tickNs s :=
  congrArg (· * 10000) (rd_chordTake (by decide) (by decide) (by decide) s n head hello)

theorem chordTake_straps (s : State) (n : Fin 2) (head : ChordHead) (hello : Bool) :
    (chordTake s n head hello).1.ssu.straps = s.ssu.straps :=
  AskBlind.chordTake (p := fun t => t.ssu.straps) ⟨⟨fun _ _ _ _ => rfl, fun _ _ _ _ => by rw [event_ssu], fun _ _ => rfl,
    fun _ _ _ _ => rfl⟩, fun _ _ => rfl, fun _ _ _ _ => rfl⟩ (fun _ _ => rfl) (fun _ _ _ _ => rfl) s n head hello

theorem ownSide_chordTake (s : State) (n : Fin 2) (head : ChordHead) (hello : Bool) :
    ownSide (chordTake s n head hello).1 = ownSide s := congrArg Straps.side (chordTake_straps s n head hello)

/-- A unit that is not in RESYNC keeps its own lists. -/
theorem chordTake_own {s : State} (hm : modeIs s ≠ .resync) (n : Fin 2) (head : ChordHead) (hello : Bool) :
    (chordTake s n head hello).1.rdu.own = s.rdu.own := by
  have hblind : FrameBlind (fun t => t.rdu.own) :=
    ⟨fun _ _ _ _ => rfl, fun _ _ _ _ => by rw [event_rdu], fun _ _ => rfl, fun _ _ _ _ => rfl⟩
  rcases chordTake_cases s n head hello with heq | heq | ⟨f, g, heq⟩
  · rw [heq]
  · rw [heq]
  · rw [heq]
    exact hblind.noteFrame (s := chordHeard s f g) hm head

end Sys2Proof.Machine
end

section
/-! SUPPORT. The frames of a pair that a unit takes as new (R301 to R306, R309, R314): what agreement and a takeover leave of the
Redundancy Unit, and what each frame changes of it. -/

namespace Sys2Proof.Machine

/-! ### What agreement leaves of the Redundancy Unit (R304) -/

/-- The Redundancy Unit but for a swap that is agreed. -/
def sansSwap (s : State) : RduSt := { s.rdu with swapEdge := none }

theorem partnerAgrees_rdu (s : State) : (partnerAgrees s).2.rdu = s.rdu := by
  unfold partnerAgrees
  split <;> rfl

theorem refuseArm_rdu (s : State) (rsn : Nat) : (refuseArm s rsn).rdu = s.rdu := ite_keeps (p := State.rdu) rfl rfl

theorem refuseSwap_rdu (s : State) (rsn : Nat) : (refuseSwap s rsn).rdu = s.rdu := ite_keeps (p := State.rdu) rfl rfl

theorem agreeArm_rdu (s : State) (own : Bool) (ks : Nat) (fr : Bool) : (agreeArm s own ks fr).rdu = s.rdu := by
  have hagrees := partnerAgrees_rdu s
  unfold agreeArm
  generalize partnerAgrees s = a at hagrees ⊢
  obtain ⟨same, t⟩ := a
  refine ite_keeps (p := State.rdu) (ite_keeps (p := State.rdu) (refuseArm_rdu _ _) rfl)
    (ite_keeps (p := State.rdu) (refuseArm_rdu _ _) ?_)
  dsimp only at hagrees ⊢
  split
  · refine ite_keeps (p := State.rdu) ((refuseArm_rdu _ _).trans hagrees)
      (ite_keeps (p := State.rdu) ((refuseArm_rdu _ _).trans hagrees) ?_)
    split
    · exact hagrees
    · exact hagrees
  · exact (refuseArm_rdu _ _).trans hagrees

theorem agreeAbort_rdu (s : State) (i : Input) (written : Nat) : (agreeAbort s i written).rdu = s.rdu := by
  unfold agreeAbort
  split
  · exact ite_keeps (p := State.rdu) rfl rfl
  · exact ite_keeps (p := State.rdu) rfl rfl

theorem agreeFacetSwap_rdu (s : State) (own : Bool) (kf : Nat) : (agreeFacetSwap s own kf).rdu = s.rdu := by
  have hagrees := partnerAgrees_rdu s
  unfold agreeFacetSwap
  generalize partnerAgrees s = a at hagrees ⊢
  obtain ⟨same, t⟩ := a
  dsimp only at hagrees ⊢
  have hrefused (rsn : Nat) : (refuseSwap t rsn).rdu = s.rdu := (refuseSwap_rdu _ _).trans hagrees
  exact ite_keeps (p := State.rdu) (ite_keeps (p := State.rdu) (hrefused _) hagrees) <|
    ite_keeps (p := State.rdu) (hrefused _) <| ite_keeps (p := State.rdu) (hrefused _) <|
    ite_keeps (p := State.rdu) (hrefused _) <| ite_keeps (p := State.rdu) (hrefused _) hagrees

theorem agreeFacetAbort_rdu (s : State) (i : Input) (written : Nat) : (agreeFacetAbort s i written).rdu = s.rdu := by
  unfold agreeFacetAbort
  split
  · exact ite_keeps (p := State.rdu) rfl rfl
  · exact ite_keeps (p := State.rdu) rfl rfl

theorem agreeSwap_rdu (s : State) (own : Bool) (targets : List Nat) (crc : BitVec 32) :
    (agreeSwap s own targets crc).rdu = s.rdu := by
  have hagrees := partnerAgrees_rdu s
  unfold agreeSwap
  generalize partnerAgrees s = a at hagrees ⊢
  obtain ⟨other, t⟩ := a
  dsimp only at hagrees ⊢
  have hpending : (targets.foldl (fun s n => wr s Reg.LPE_LSTS_PENDSWAP 1 n) t).rdu = s.rdu :=
    (foldl_keeps State.rdu (fun s n => wr_rdu s Reg.LPE_LSTS_PENDSWAP 1 n) targets t).trans hagrees
  exact ite_keeps (p := State.rdu) (ite_keeps (p := State.rdu) rfl rfl) <|
    ite_keeps (p := State.rdu) (ite_keeps (p := State.rdu) hpending hpending) (ite_keeps (p := State.rdu) hagrees hagrees)

theorem agreeLcmd_rdu (s : State) (own : Bool) (b : InBody) : (agreeLcmd s own b).rdu = s.rdu := by
  unfold agreeLcmd
  split
  · exact agreeSwap_rdu _ _ _ _
  · exact agreeSwap_rdu _ _ _ _
  · rfl

theorem engineBlind_rdu : EngineBlind State.rdu :=
  ⟨⟨fun _ _ _ _ => rfl, fun _ _ => rfl, fun _ _ => rfl, fun _ _ => rfl, fun _ _ _ => rfl, fun _ _ => rfl⟩,
    fun _ _ _ _ _ _ => rfl, fun _ _ => rfl, fun _ _ => rfl⟩

theorem addCause_rdu (s : State) (c : Cause) : (addCause s c).rdu = s.rdu := ite_keeps (p := State.rdu) rfl rfl

theorem takeClaim_rdu (s : State) : (takeClaim s).rdu = s.rdu :=
  ite_keeps (p := State.rdu) (addCause_rdu _ _) (engineBlind_rdu.storeClaim _ _)

theorem agreeRduSwap_sansSwap (s : State) (own : Bool) : sansSwap (agreeRduSwap s own) = sansSwap s := by
  have htaken (t : State) : sansSwap (takeClaim t) = sansSwap t := by
    unfold sansSwap
    rw [takeClaim_rdu]
  exact ite_keeps (p := sansSwap) (ite_keeps (p := sansSwap) rfl rfl) <| ite_keeps (p := sansSwap) rfl <|
    ite_keeps (p := sansSwap) (ite_keeps (p := sansSwap) (htaken _) rfl) (ite_keeps (p := sansSwap) rfl rfl)

theorem agreeInput_sansSwap (s : State) (i : Input) : sansSwap (agreeInput s i) = sansSwap s := by
  have hrdu {t : State} (h : t.rdu = s.rdu) : sansSwap t = sansSwap s := by
    unfold sansSwap
    rw [h]
  unfold agreeInput
  split
  · exact hrdu (agreeArm_rdu _ _ _ _)
  · exact hrdu (agreeAbort_rdu _ _ _)
  · exact hrdu (agreeFacetSwap_rdu _ _ _)
  · exact hrdu (agreeFacetAbort_rdu _ _ _)
  · exact hrdu (agreeLcmd_rdu _ _ _)
  · exact hrdu (agreeLcmd_rdu _ _ _)
  · exact agreeRduSwap_sansSwap _ _
  · rfl

theorem agreeSet_sansSwap (s : State) (l : List Input) : sansSwap (agreeSet s l) =
    { s.rdu with agreed := s.rdu.agreed ++ [⟨s.tb.tick + 1, l⟩], prevSet := l, built := s.tb.tick, swapEdge := none } :=
  foldl_keeps sansSwap agreeInput_sansSwap _ _

/-! ### What a list that is dropped leaves (R303) -/

theorem endHost_rdu (s : State) (i : Input) (c r : Nat) : (endHost s i c r).rdu = s.rdu := by
  unfold endHost
  split <;> simp [frcEnd, olcEnd, fctEnd, lcEnd, vcmdEnd, rduEnd, apply_ite State.rdu]

theorem endHost_tb (s : State) (i : Input) (c r : Nat) : (endHost s i c r).tb = s.tb := by
  unfold endHost
  split <;> simp [frcEnd, olcEnd, fctEnd, lcEnd, vcmdEnd, rduEnd, apply_ite State.tb]

theorem dropLate_rdu (s : State) : (dropLate s).rdu =
    { s.rdu with own := s.rdu.own.filter fun e => s.tb.tick < e.1 + 2 } :=
  foldl_keeps State.rdu (fun _ _ => endHost_rdu _ _ _ _) _ _

theorem dropLate_tb (s : State) : (dropLate s).tb = s.tb := foldl_keeps State.tb (fun _ _ => endHost_tb _ _ _ _) _ _

/-! ### INPUT and CLOSE (R301, R302) -/

theorem buildSet_of_none {s : State} (h : s.rdu.verdict = none) : buildSet s = s := by
  unfold buildSet
  rw [h]

theorem hisList_of_partner {s t : State} (h : t.rdu.partner = s.rdu.partner) (j : Nat) : hisList t j = hisList s j := by
  unfold hisList
  rw [h]

theorem hisList_tick (s : State) (j : Nat) : (hisList s j).tick = j := by
  unfold hisList
  cases h : s.rdu.partner.find? (·.tick = j) with
  | none => rfl
  | some l =>
    have htick := List.find?_some h
    exact of_decide_eq_true htick

theorem hisList_putHis_same (s : State) (l : PartnerList) : hisList (putHis s l) l.tick = l := by
  have hnone : (s.rdu.partner.filter (·.tick ≠ l.tick)).find? (·.tick = l.tick) = none :=
    List.find?_eq_none.2 fun x hx => by
      have hne := of_decide_eq_true (List.mem_filter.1 hx).2
      simpa using hne
  unfold hisList putHis
  simp only [List.find?_append, hnone]
  simp

theorem hisList_putHis_ne (s : State) {l : PartnerList} {j : Nat} (h : j ≠ l.tick) : hisList (putHis s l) j = hisList s j := by
  have hfilter : (s.rdu.partner.filter (·.tick ≠ l.tick)).find? (·.tick = j) = s.rdu.partner.find? (·.tick = j) := by
    rw [List.find?_filter]
    refine congrArg (fun p => s.rdu.partner.find? p) (funext fun x => ?_)
    by_cases hx : x.tick = j
    · simp [hx, h]
    · simp [hx]
  unfold hisList putHis
  simp only [List.find?_append, hfilter]
  simp [Ne.symm h]

theorem followPartner_rdu (s : State) : (followPartner s).rdu = s.rdu := ite_keeps (p := State.rdu) rfl rfl

/-- A frame taken as new is acted on. -/
theorem completes_taken {s : State} {n : Fin 2} {head : ChordHead} {c : Instr} {f : State → State} {P : State → Prop}
    (hc : exec c s = .next (if (chordTake s n head false).2 then f (chordTake s n head false).1
      else (chordTake s n head false).1))
    (hnew : (chordTake s n head false).2 = true) (hp : P (f (chordTake s n head false).1)) : Completes (exec c s) P :=
  ⟨_, hc.trans (congrArg Host.Outcome.next (if_pos hnew)), hp⟩

/-- The partner's list of a tick is put, and no VERDICT waits for it. -/
theorem putHis_completes {s : State} {n : Fin 2} {head : ChordHead} {c : Instr} {f : State → State} {l : PartnerList}
    (hc : exec c s = .next (if (chordTake s n head false).2 then f (chordTake s n head false).1
      else (chordTake s n head false).1))
    (hnew : (chordTake s n head false).2 = true) (hnone : s.rdu.verdict = none) {u : State}
    (hu : u.rdu = (chordTake s n head false).1.rdu) (hf : f (chordTake s n head false).1 = buildSet (putHis u l)) :
    Completes (exec c s) fun t => hisList t l.tick = l ∧ (∀ j, j ≠ l.tick → hisList t j = hisList s j) ∧
      (modeIs s ≠ .resync → t.rdu.own = s.rdu.own) := by
  have hrest := chordTake_rest s n head false
  have hverdict : (putHis u l).rdu.verdict = none :=
    (congrArg RduSt.verdict hu).trans ((congrArg RduSt.verdict hrest :).trans hnone)
  refine completes_taken hc hnew ?_
  rw [hf, buildSet_of_none hverdict]
  refine ⟨hisList_putHis_same u l, fun j hj => ?_, fun hm => ?_⟩
  · exact (hisList_putHis_ne u hj).trans
      (hisList_of_partner ((congrArg RduSt.partner hu).trans (congrArg RduSt.partner hrest :)) j)
  · exact (congrArg RduSt.own hu).trans (chordTake_own hm n head false)

theorem input_completes {s : State} {n : Fin 2} {head : ChordHead} (hnew : (chordTake s n head false).2 = true)
    (hnone : s.rdu.verdict = none) (i : Input) : Completes (exec (.input n head i) s) fun t =>
      hisList t (tickOf s i.stamp) =
        { hisList s (tickOf s i.stamp) with inputs := (hisList s (tickOf s i.stamp)).inputs ++ [i] } ∧
      (∀ j, j ≠ tickOf s i.stamp → hisList t j = hisList s j) ∧ (modeIs s ≠ .resync → t.rdu.own = s.rdu.own) := by
  have hlist : hisList (chordTake s n head false).1 (tickOf s i.stamp) = hisList s (tickOf s i.stamp) :=
    hisList_of_partner (congrArg RduSt.partner (chordTake_rest s n head false) :) _
  have hput := putHis_completes (c := .input n head i) (f := fun t => buildSet (putHis t
    { hisList t (tickOf s i.stamp) with inputs := (hisList t (tickOf s i.stamp)).inputs ++ [i] })) rfl hnew hnone rfl rfl
  simp only [hlist, hisList_tick] at hput ⊢
  exact hput

theorem close_completes {s : State} {n : Fin 2} {head : ChordHead} (hnew : (chordTake s n head false).2 = true)
    (hnone : s.rdu.verdict = none) (count : Nat) (d : BitVec 64) : Completes (exec (.close n head count d) s) fun t =>
      hisList t head.tick = { hisList s head.tick with close := some (count, d) } ∧
      (∀ j, j ≠ head.tick → hisList t j = hisList s j) ∧ (modeIs s ≠ .resync → t.rdu.own = s.rdu.own) := by
  have hlist : hisList (chordTake s n head false).1 head.tick = hisList s head.tick :=
    hisList_of_partner (congrArg RduSt.partner (chordTake_rest s n head false) :) _
  have hput := putHis_completes (c := .close n head count d) (f := fun t => buildSet (putHis (followPartner t)
    { hisList t head.tick with close := some (count, d) })) rfl hnew hnone (followPartner_rdu _) rfl
  simp only [hlist, hisList_tick] at hput ⊢
  exact hput

/-! ### VERDICT (R305) -/

/-- A VERDICT in hand. -/
def verdictHeld (s : State) (k : Nat) (v : Verdict) : State := { s with rdu := { s.rdu with verdict := some (k, v) } }

/-- A VERDICT that no unit that follows can act on yet waits. -/
theorem buildSet_waits {s : State} {k : Nat} {v : Verdict}
    (h : (emitMode s ≠ .standby ∧ emitMode s ≠ .resync) ∨ k ≠ s.tb.tick ∨
      v.own = true ∧ listWhole (hisList s (k - 1)) = false) :
    buildSet (verdictHeld s k v) = verdictHeld s k v := by
  have hmode : follows (verdictHeld s k v) = follows s := rfl
  have hhis : hisList (verdictHeld s k v) (k - 1) = hisList s (k - 1) := rfl
  unfold buildSet
  show (if !follows (verdictHeld s k v) ∨ k ≠ s.tb.tick then _ else _) = _
  rw [hmode]
  rcases h with ⟨hs, hr⟩ | hk | ⟨hown, hlist⟩
  · have hf : follows s = false := by
      unfold follows
      split <;> simp_all
    exact if_pos (.inl (by simp [hf]))
  · exact if_pos (.inr hk)
  · exact ite_eq_left_iff.2 fun _ => if_pos (by rw [hhis, hown, hlist]; rfl)

theorem verdict_waits {s : State} {n : Fin 2} {head : ChordHead} (hnew : (chordTake s n head false).2 = true)
    {v : Verdict} (h : (emitMode s ≠ .standby ∧ emitMode s ≠ .resync) ∨ head.tick ≠ s.tb.tick ∨
      v.own = true ∧ listWhole (hisList s (head.tick - 1)) = false) :
    Completes (exec (.verdict n head v) s) fun t =>
      t.rdu.verdict = some (head.tick, { v with carried := v.carried || head.late }) ∧ t.rdu.agreed = s.rdu.agreed := by
  have hrest := chordTake_rest s n head false
  refine completes_taken (f := fun t => buildSet (verdictHeld t head.tick { v with carried := v.carried || head.late }))
    rfl hnew ?_
  rw [buildSet_waits (by rwa [emitMode_chordTake, chordTake_tb, hisList_of_partner (congrArg RduSt.partner hrest :)])]
  exact ⟨rfl, (congrArg RduSt.agreed hrest :)⟩

theorem follows_of_standby {s : State} (h : emitMode s = .standby) : follows s = true := by
  unfold follows
  rw [h]

/-- A VERDICT that names the unit's own list alone, and its set. -/
theorem buildSet_own {s : State} (hm : emitMode s = .standby) {set : List Input}
    (hset : set = formSet s.rdu.prevSet (ownList s (s.tb.tick - 1))) :
    ∃ w, buildSet (verdictHeld s s.tb.tick ⟨false, true, false, set.length, inputsDigest set⟩) = agreeSet w set ∧
      w.tb = s.tb ∧ w.rdu.verdict = none ∧ w.rdu.agreed = s.rdu.agreed := by
  have hfollows : follows (verdictHeld s s.tb.tick ⟨false, true, false, set.length, inputsDigest set⟩) = true :=
    follows_of_standby hm
  have hlist : ([] ++ ownList (verdictHeld s s.tb.tick ⟨false, true, false, set.length, inputsDigest set⟩)
      (s.tb.tick - 1)) ++ [] = ownList s (s.tb.tick - 1) := by
    rw [List.append_nil, List.nil_append]
    rfl
  unfold buildSet
  dsimp only [verdictHeld] at hfollows hlist ⊢
  simp only [hfollows, Bool.not_true, Bool.false_eq_true, ne_eq, not_true_eq_false, or_self, if_false, if_true,
    Bool.false_and, hlist, ← hset]
  exact ⟨_, rfl, (dropLate_tb _).trans rfl, (congrArg RduSt.verdict (dropLate_rdu _)).trans rfl,
    (congrArg RduSt.agreed (dropLate_rdu _)).trans rfl⟩

theorem ne_resync_of_standby {s : State} (h : emitMode s = .standby) : modeIs s ≠ .resync := by
  intro hm
  unfold emitMode at h
  rw [hm] at h
  cases h

theorem verdict_built {s : State} {n : Fin 2} {head : ChordHead} (hnew : (chordTake s n head false).2 = true)
    (hm : emitMode s = .standby) (htick : head.tick = s.tb.tick) (hlate : head.late = false) {set : List Input}
    (hset : set = formSet s.rdu.prevSet (ownList s (head.tick - 1))) :
    Completes (exec (.verdict n head ⟨false, true, false, set.length, inputsDigest set⟩) s) fun t =>
      t.rdu.verdict = none ∧ t.rdu.built = s.tb.tick ∧ t.rdu.prevSet = set ∧
      t.rdu.agreed = s.rdu.agreed ++ [⟨s.tb.tick + 1, set⟩] := by
  have hrest := chordTake_rest s n head false
  have hprev : (chordTake s n head false).1.rdu.prevSet = s.rdu.prevSet := (congrArg RduSt.prevSet hrest :)
  have htaken : (chordTake s n head false).1.rdu.agreed = s.rdu.agreed := (congrArg RduSt.agreed hrest :)
  have htb := chordTake_tb s n head false
  have hown : ownList (chordTake s n head false).1 = ownList s := by
    unfold ownList
    rw [chordTake_own (ne_resync_of_standby hm)]
  refine completes_taken (f := fun t => buildSet (verdictHeld t head.tick
    ⟨false, true, false || head.late, set.length, inputsDigest set⟩)) rfl hnew ?_
  obtain ⟨w, hw, hwtb, hverdict, hagreed⟩ := buildSet_own (s := (chordTake s n head false).1) (set := set)
    (by rwa [emitMode_chordTake]) (by rw [hset, htick, htb, hown, hprev])
  rw [hlate, htick, ← htb, Bool.or_false, hw]
  have hset := agreeSet_sansSwap w set
  refine ⟨(congrArg RduSt.verdict hset :).trans hverdict, ?_, (congrArg RduSt.prevSet hset :), ?_⟩
  · exact (congrArg RduSt.built hset :).trans (congrArg (·.tick) hwtb)
  · refine (congrArg RduSt.agreed hset :).trans ?_
    dsimp only
    rw [hagreed, hwtb, htaken]

/-! ### DIGEST, YIELD and CLAIM (R306, R309, R314) -/

theorem copyVerify_hisDigest (s : State) : (copyVerify s).rdu.hisDigest = s.rdu.hisDigest := by
  have hblind : AskBlind (fun t => t.rdu.hisDigest) :=
    ⟨⟨fun _ _ _ _ => rfl, fun _ _ _ _ => by rw [event_rdu], fun _ _ => rfl, fun _ _ _ _ => rfl⟩, fun _ _ => rfl,
      fun _ _ _ _ => rfl⟩
  unfold copyVerify
  split
  · split
    · split
      · exact ite_keeps (p := fun t => t.rdu.hisDigest) (hblind.addCause _ _) (hblind.askCopy _ _ _)
      · rfl
    · rfl
  · rfl

theorem edgeAfter_of {s t : State} (htb : t.tb = s.tb) (hns : tickNs t = tickNs s) : edgeAfter t = edgeAfter s := by
  unfold edgeAfter
  rw [htb, hns]

theorem tickNs_event (s : State) (code : Nat) (sev : Sev) (ps : List Nat) : tickNs (event s code sev ps) = tickNs s :=
  congrArg (· * 10000) (rd_event (by decide) (by decide) _ _ _ _)

/-- A takeover decided. -/
theorem takeOver_rdu {s : State} (hm : emitMode s = .standby) (hnone : s.rdu.takeAt = none) (row edge : Nat) :
    (takeOver s row edge).rdu = { s.rdu with takeAt := some (max edge (edgeAfter s), row, s.tb.tick) } := by
  unfold takeOver
  rw [if_neg (by simp [hm, hnone]), takeClaim_rdu, edgeAfter_of (event_tb _ _ _ _) (tickNs_event _ _ _ _), event_rdu]

/-- Settles O51: what each frame changes of the Redundancy Unit, which a frame's header leaves as it is but for the partner's
mode and a copy. -/
theorem pairFrames : Obligations.PairFrames := by
  intro s n head hnew
  have hrest := chordTake_rest s n head false
  refine ⟨fun hnone => ⟨input_completes hnew hnone, close_completes hnew hnone⟩, fun v => verdict_waits hnew, ?_,
    fun d => ?_, fun edge reason hm hnone => ?_, fun c edge => ?_⟩
  · rintro v set hm htick hlate rfl hset
    exact verdict_built hnew hm htick hlate hset
  · refine completes_taken (f := fun t => copyVerify { t with rdu := { t.rdu with
      hisDigest := t.rdu.hisDigest ++ [(head.tick, d)] } }) rfl hnew ?_
    exact (copyVerify_hisDigest _).trans (congrArg (· ++ [(head.tick, d)]) (congrArg RduSt.hisDigest hrest :))
  · refine completes_taken (f := fun t => takeOver t reason edge) rfl hnew ?_
    rw [takeOver_rdu (by rwa [emitMode_chordTake]) ((congrArg RduSt.takeAt hrest :).trans hnone), chordTake_tb,
      edgeAfter_of (chordTake_tb _ _ _ _) (tickNs_chordTake _ _ _ _)]
  · refine completes_taken (f := fun t => hearClaim t c) rfl hnew ⟨rd_partner_hearClaim _ _, ?_⟩
    intro own hheld hm hlt
    have hheld' : (chordTake s n head false).1.rdu.claimHeld = some own := (congrArg RduSt.claimHeld hrest :).trans hheld
    rw [hearClaim_of_some hheld', if_pos (by simp [claimAbove, modeIs_chordTake, hm, hlt])]
    exact mem_addCause _ _

end Sys2Proof.Machine
end

section
/-! SUPPORT. What a pair decides by time and by command (R299, R305, R306, R311, R314, R320): the verdict limit, silence and
absence of the partner, and the pair commands. -/

namespace Sys2Proof.Machine

/-! ### Out of step (R306) -/

/-- OOS shown and recorded. -/
def oosShown (s : State) (cause : Nat) : State :=
  event (wr (wr s Reg.RDU_OOS_CAUSE cause) Reg.RDU_OOS_TICK s.tb.tick) Ev.outOfStep .warning []

/-- A unit declared out of step: shown, recorded, and due to RESYNC. -/
def oosDeclared (s : State) (cause : Nat) : State :=
  addCause (oosShown s cause) (.outOfStep cause (oosShown s cause).tb.tick)

theorem oosShown_tb (s : State) (cause : Nat) : (oosShown s cause).tb = s.tb := event_tb _ _ _ _

theorem oosShown_causes (s : State) (cause : Nat) : (oosShown s cause).ssu.causes = s.ssu.causes :=
  congrArg SsuSt.causes (event_ssu _ _ _ _)

theorem oosDeclared_rdu (s : State) (cause : Nat) : (oosDeclared s cause).rdu = s.rdu :=
  (addCause_rdu _ _).trans (event_rdu _ _ _ _)

theorem rd_addCause (s : State) (c : Cause) (g : Field) (j : Nat) : rd (addCause s c) g j = rd s g j :=
  ite_keeps (p := (rd · g j)) rfl rfl

theorem rd_cause_oosDeclared (s : State) (cause : Nat) :
    rd (oosDeclared s cause) Reg.RDU_OOS_CAUSE = cause % 2 ^ Reg.RDU_OOS_CAUSE.width := by
  unfold oosDeclared oosShown
  rw [rd_addCause, rd_event (by decide) (by decide), rd_wr_ne (by decide), rd_wr_same]

theorem oosDeclared_causes {s : State} (h : s.ssu.causes = []) (cause : Nat) :
    (oosDeclared s cause).ssu.causes = [.outOfStep cause s.tb.tick] := by
  unfold oosDeclared addCause
  rw [oosShown_causes, oosShown_tb, h]
  rfl

/-- A unit in STANDBY, no cause being held yet. -/
theorem outOfStep_standby {s : State} (hm : emitMode s = .standby) (hnone : s.ssu.causes = []) (cause : Nat) :
    outOfStep s cause = oosDeclared s cause := by
  unfold outOfStep
  rw [hm, hnone]
  exact (if_pos ⟨.inr rfl, rfl⟩).trans (if_neg (fun h : Mode.standby = Mode.active ∧ _ => nomatch h.1))

/-- A unit that is out of step already stays as it is. -/
theorem outOfStep_again {s : State} {c k : Nat} (h : s.ssu.causes = [.outOfStep c k]) (cause : Nat) :
    outOfStep s cause = s := by
  unfold outOfStep
  rw [h]
  exact if_neg fun hs => nomatch hs.2

/-- The set that is built and the takeover that is decided. -/
def takenSet (s : State) : Option (Nat × Nat × Nat) × Nat := (s.rdu.takeAt, s.rdu.built)

theorem takenSet_outOfStep (s : State) (cause : Nat) : takenSet (outOfStep s cause) = takenSet s := by
  have hshown : takenSet (oosDeclared s cause) = takenSet s := by
    unfold takenSet
    rw [oosDeclared_rdu]
  have hyield (t : State) (e row : Nat) : takenSet (putYield t e row) = takenSet t := ite_keeps (p := takenSet) rfl rfl
  exact ite_keeps (p := takenSet) (ite_keeps (p := takenSet) ((hyield _ _ _).trans hshown) hshown) rfl

/-! ### The verdict limit (R305, R306, R314) -/

/-- The end of a verdict limit: the digests of the tick before are compared. -/
def digestsJudged (k : Nat) (t : State) : State :=
  match t.rdu.ownDigest.find? (·.1 = k - 1), t.rdu.hisDigest.find? (·.1 = k - 1) with
  | some a, some b =>
    if a.2 ≠ b.2 ∧ !t.rdu.nonCommit.contains (k - 1) ∧ !partnerDeclared t then outOfStep t 4 else t
  | _, _ => t

theorem digestsJudged_cases (k : Nat) (t : State) : digestsJudged k t = outOfStep t 4 ∨ digestsJudged k t = t := by
  unfold digestsJudged
  split
  · split
    · exact .inl rfl
    · exact .inr rfl
  · exact .inr rfl

/-- The instant of the verdict limit. -/
def atLimit (s : State) : State :=
  advance s (s.tb.tick * tickNs s + 2 * rd s Reg.TBC_TICKCFG_AGREE * tickNs s / 100)

theorem exec_verdictLimit (s : State) : exec .verdictLimit s = .next (verdictLimit s) := rfl

theorem verdictLimit_of_ne_standby {s : State} (h : emitMode s ≠ .standby) : verdictLimit s = atLimit s := if_pos h

theorem verdictLimit_standby {s : State} (h : emitMode s = .standby) : verdictLimit s = digestsJudged s.tb.tick
    (if s.rdu.built = s.tb.tick then atLimit s
      else if s.rdu.takeAt.isSome then closeAlone (atLimit s)
      else if s.rdu.silent then closeAlone (takeOver (atLimit s) 1 0)
      else outOfStep (atLimit s) 2) := if_neg (not_not_intro h)

theorem verdictLimit_built {s : State} (h : emitMode s = .standby) (hbuilt : s.rdu.built = s.tb.tick) :
    verdictLimit s = digestsJudged s.tb.tick (atLimit s) := by
  rw [verdictLimit_standby h, if_pos hbuilt]

/-- A unit in STANDBY without its set that hears its partner. -/
theorem verdictLimit_heard {s : State} (h : emitMode s = .standby) (hbuilt : s.rdu.built ≠ s.tb.tick)
    (hnone : s.rdu.takeAt = none) (hheard : s.rdu.silent = false) (hcauses : s.ssu.causes = []) :
    verdictLimit s = oosDeclared (atLimit s) 2 := by
  have hstep : outOfStep (atLimit s) 2 = oosDeclared (atLimit s) 2 := outOfStep_standby (s := atLimit s) h hcauses 2
  rw [verdictLimit_standby h, if_neg hbuilt, hnone, hheard, if_neg (by decide), if_neg (by decide), hstep]
  rcases digestsJudged_cases s.tb.tick (oosDeclared (atLimit s) 2) with hj | hj
  · rw [hj]
    exact outOfStep_again (oosDeclared_causes (s := atLimit s) hcauses 2) 4
  · exact hj

theorem takeOver_tb (s : State) (row edge : Nat) : (takeOver s row edge).tb = s.tb := by
  have hblind : EngineBlind State.tb :=
    ⟨⟨fun _ _ _ _ => rfl, fun _ _ => rfl, fun _ _ => rfl, fun _ _ => rfl, fun _ _ _ => rfl, fun _ _ => rfl⟩,
      fun _ _ _ _ _ _ => rfl, fun _ _ => rfl, fun _ _ => rfl⟩
  have hcause (t : State) (c : Cause) : (addCause t c).tb = t.tb := ite_keeps (p := State.tb) rfl rfl
  have hclaim (t : State) : (takeClaim t).tb = t.tb := ite_keeps (p := State.tb) (hcause _ _) (hblind.storeClaim _ _)
  exact ite_keeps (p := State.tb) rfl ((hclaim _).trans (event_tb s _ _ _))

/-- The set of a tick closed alone: a takeover that is decided stands. -/
theorem takenSet_closeAlone {s : State} (h : s.rdu.built ≠ s.tb.tick) :
    takenSet (closeAlone s) = (s.rdu.takeAt, s.tb.tick) := by
  unfold closeAlone
  rw [if_neg h]
  dsimp only
  generalize formSet _ _ = set
  generalize hu : dropOwn _ _ = u
  have hset := agreeSet_sansSwap u set
  have htake : u.rdu.takeAt = s.rdu.takeAt := by rw [← hu]; rfl
  have htick : u.tb.tick = s.tb.tick := by rw [← hu]; rfl
  rw [← htake, ← htick]
  exact Prod.ext (congrArg RduSt.takeAt hset :) (congrArg RduSt.built hset :)

theorem verdictLimit_silent {s : State} (h : emitMode s = .standby) (hbuilt : s.rdu.built ≠ s.tb.tick)
    (hnone : s.rdu.takeAt = none) (hsilent : s.rdu.silent = true) :
    takenSet (verdictLimit s) = (some (edgeAfter (atLimit s), 1, s.tb.tick), s.tb.tick) := by
  have hrdu : (takeOver (atLimit s) 1 0).rdu =
      { s.rdu with takeAt := some (max 0 (edgeAfter (atLimit s)), 1, s.tb.tick) } := takeOver_rdu (s := atLimit s) h hnone 1 0
  have htick : (takeOver (atLimit s) 1 0).tb.tick = s.tb.tick := congrArg (·.tick) (takeOver_tb (atLimit s) 1 0)
  have hclosed := takenSet_closeAlone (s := takeOver (atLimit s) 1 0) (by rwa [hrdu, htick])
  rw [hrdu, htick, Nat.zero_max] at hclosed
  rw [verdictLimit_standby h, if_neg hbuilt, hnone, hsilent, if_neg (by decide), if_pos rfl]
  rcases digestsJudged_cases s.tb.tick (closeAlone (takeOver (atLimit s) 1 0)) with hj | hj
  · rw [hj, takenSet_outOfStep, hclosed]
  · rw [hj, hclosed]

/-! ### Silence of the partner (R299, R319) -/

theorem rd_pairst_showRdu (s : State) : rd (showRdu s) Reg.RDU_STATUS_PAIRST = pairState s := by
  have hlt : pairState s < 4 := by
    unfold pairState
    split_ifs <;> decide
  have hread (q m x y z : Nat) : rd (wr (wr (wr (wr (wr s Reg.RDU_STATUS_QUAL q) Reg.RDU_STATUS_PAIRST m)
      Reg.RDU_STATUS_MSTATE x) Reg.RDU_STATUS_SIDE y) Reg.RDU_STATUS_HELD z) Reg.RDU_STATUS_PAIRST = m % 4 := by
    simp (disch := decide) only [rd_wr_ne, rd_wr_same]
    rfl
  refine Eq.trans ?_ (Nat.mod_eq_of_lt hlt)
  exact ite_keeps (p := (rd · Reg.RDU_STATUS_PAIRST)) ((rd_event (by decide) (by decide) _ _ _ _).trans (hread _ _ _ _ _))
    (hread _ _ _ _ _)

/-- What is shown of a partner that is silent. -/
theorem pairState_silent {s : State} (h : s.rdu.silent = true) :
    pairState s = if rdB s Reg.RDU_CFG_PAIRED then (if s.rdu.wasPaired then 3 else 1) else 0 := by
  unfold pairState
  rw [h]
  cases rdB s Reg.RDU_CFG_PAIRED <;> simp

theorem partnerSilence_completes (s : State) : Completes (exec .partnerSilence s) fun t => t.rdu.silent = true ∧
    rd t Reg.RDU_STATUS_PAIRST = if rdB s Reg.RDU_CFG_PAIRED then (if s.rdu.wasPaired then 3 else 1) else 0 := by
  have hblind : FrameBlind (fun t => (t.rdu.silent, t.rdu.wasPaired, rdB t Reg.RDU_CFG_PAIRED)) := by
    refine ⟨fun f hf s v => ?_, fun s code sev ps => ?_, fun _ _ => rfl, fun _ _ _ _ => rfl⟩
    · have hcfg : rd (wr s f v) Reg.RDU_CFG_PAIRED = rd s Reg.RDU_CFG_PAIRED :=
        rd_wr_of_id_ne (by revert f; decide) (by decide) (by decide) _ _
      rw [rdB_of_rd hcfg]
      rfl
    · rw [event_rdu, rdB_of_rd (rd_event (by decide) (by decide) s code sev ps)]
  have habandoned := hblind.abandonCopy { s with rdu := { s.rdu with silent := true } }
  have hsilent : (abandonCopy { s with rdu := { s.rdu with silent := true } }).rdu.silent = true :=
    (congrArg Prod.fst habandoned :)
  have hpaired := congrArg (fun x => if x.2.2 then (if x.2.1 then 3 else 1) else 0) habandoned
  refine ⟨_, rfl, ?_, ?_⟩
  · exact (congrArg RduSt.silent (showRdu_keeps (p := State.rdu) (fun _ _ _ _ => rfl) event_rdu _)).trans hsilent
  · rw [rd_pairst_showRdu, pairState_silent hsilent]
    exact hpaired

/-! ### The pair commands (R320) -/

section

variable {s : State} (hpend : rdB s Reg.RDU_CMDSTS_PEND = false)
include hpend

theorem rduCmd_runs (h : modeIs s ≠ .test) (f : State → State) : rduCmd s f = f s := by
  unfold rduCmd
  rw [hpend]
  exact if_neg h

theorem rduSwap_runs (h : modeIs s ≠ .test) : exec .rduSwap s = .next (
    if modeIs s ≠ .active ∧ modeIs s ≠ .standby then rduEnd s CC.failRefused Rsn.badMode
    else if !inStep s then rduEnd s CC.failRefused Rsn.noPartner
    else submitHost (wr s Reg.RDU_CMDSTS_PEND 1) Reg.RDU_CMD_CMD .rduSwap) :=
  congrArg Host.Outcome.next (rduCmd_runs hpend h _)

theorem rduClear_runs (h : modeIs s ≠ .test) : exec .rduClearCounters s = .next (
    if modeIs s = .active ∨ modeIs s = .standby then
      submitHost (wr s Reg.RDU_CMDSTS_PEND 1) Reg.RDU_CMD_CMD .rduClear
    else rduEnd (rduZero s) CC.done 0) :=
  congrArg Host.Outcome.next (rduCmd_runs hpend h _)

end

theorem rduEnd_reads (s : State) (code rsn : Nat) : rd (rduEnd s code rsn) Reg.RDU_CMDSTS_CC = code % 256 ∧
    rd (rduEnd s code rsn) Reg.RDU_CMDSTS_RSN = rsn % 256 ∧ rd (rduEnd s code rsn) Reg.RDU_CMDSTS_PEND = 0 :=
  setStatus_reads s code rsn (by decide) (by decide) (by decide)

/-- A pair command in a mode that runs is an input. -/
theorem rduInput_pends (s : State) (b : InBody) :
    rd (submitHost (wr s Reg.RDU_CMDSTS_PEND 1) Reg.RDU_CMD_CMD b) Reg.RDU_CMDSTS_PEND = 1 ∧
    (submitHost (wr s Reg.RDU_CMDSTS_PEND 1) Reg.RDU_CMD_CMD b).rdu.own = listPut s.rdu.own
      (tickOf s s.tb.now) ⟨s.tb.now, ⟨64, Reg.RDU_CMD_CMD.addr⟩, ownSide s, b⟩ := by
  obtain ⟨hread, -, hown⟩ := submitHost_pends s Reg.RDU_CMD_CMD (pend := Reg.RDU_CMDSTS_PEND) (by decide) (by decide) b
  exact ⟨hread, hown⟩

/-- The counters cleared at once. -/
theorem rduZero_reads (s : State) (code rsn : Nat) : rd (rduEnd (rduZero s) code rsn) Reg.RDU_AGSTS_LATE = 0 ∧
    rd (rduEnd (rduZero s) code rsn) Reg.RDU_AGSTS_EXCL = 0 ∧ rd (rduEnd (rduZero s) code rsn) Reg.RDU_CHSTS_CRCERR 0 = 0 ∧
    rd (rduEnd (rduZero s) code rsn) Reg.RDU_CHSTS_CRCERR 1 = 0 := by
  unfold rduEnd rduZero setStatus
  simp (disch := decide) only [rd_wr_ne, rd_wr_same, Nat.zero_mod, and_self]

theorem rduRunning_completes {s : State} (hpend : rdB s Reg.RDU_CMDSTS_PEND = false)
    (hm : modeIs s = .active ∨ modeIs s = .standby) :
    (rd s Reg.RDU_STATUS_PAIRST ≠ 2 → Completes (exec .rduSwap s) fun t =>
      rd t Reg.RDU_CMDSTS_CC = CC.failRefused ∧ rd t Reg.RDU_CMDSTS_RSN = Rsn.noPartner ∧
      rd t Reg.RDU_CMDSTS_PEND = 0 ∧ t.rdu = s.rdu) ∧
    ∀ (c : Instr) (b : InBody), (c = .rduSwap ∧ b = .rduSwap ∧ rd s Reg.RDU_STATUS_PAIRST = 2 ∨
        c = .rduClearCounters ∧ b = .rduClear) →
      Completes (exec c s) fun t => rd t Reg.RDU_CMDSTS_PEND = 1 ∧ t.rdu.own = listPut s.rdu.own
        (tickOf s s.tb.now) ⟨s.tb.now, ⟨64, Reg.RDU_CMD_CMD.addr⟩, ownSide s, b⟩ := by
  have htest : modeIs s ≠ .test := by rcases hm with h | h <;> simp [h]
  have hruns : ¬ (modeIs s ≠ .active ∧ modeIs s ≠ .standby) := by rcases hm with h | h <;> simp [h]
  have hswap := rduSwap_runs hpend htest
  rw [if_neg hruns] at hswap
  refine ⟨fun hstep => ⟨_, hswap.trans (congrArg Host.Outcome.next (if_pos (by simpa [inStep] using hstep))), ?_⟩, ?_⟩
  · obtain ⟨hcc, hrsn, hend⟩ := rduEnd_reads s CC.failRefused Rsn.noPartner
    exact ⟨hcc, hrsn, hend, rfl⟩
  · rintro c b (⟨rfl, rfl, hstep⟩ | ⟨rfl, rfl⟩)
    · exact ⟨_, hswap.trans (congrArg Host.Outcome.next (if_neg (by simpa [inStep] using hstep))), rduInput_pends s _⟩
    · exact ⟨_, (rduClear_runs hpend htest).trans (congrArg Host.Outcome.next (if_pos hm)), rduInput_pends s _⟩

theorem rduElsewhere_completes {s : State} (hpend : rdB s Reg.RDU_CMDSTS_PEND = false) (hactive : modeIs s ≠ .active)
    (hstandby : modeIs s ≠ .standby) (htest : modeIs s ≠ .test) :
    (Completes (exec .rduSwap s) fun t => rd t Reg.RDU_CMDSTS_CC = CC.failRefused ∧
      rd t Reg.RDU_CMDSTS_RSN = Rsn.badMode ∧ t.rdu = s.rdu) ∧
    Completes (exec .rduClearCounters s) fun t => rd t Reg.RDU_CMDSTS_CC = CC.done ∧
      rd t Reg.RDU_CMDSTS_PEND = 0 ∧ rd t Reg.RDU_AGSTS_LATE = 0 ∧ rd t Reg.RDU_AGSTS_EXCL = 0 ∧
      rd t Reg.RDU_CHSTS_CRCERR 0 = 0 ∧ rd t Reg.RDU_CHSTS_CRCERR 1 = 0 ∧ t.rdu = s.rdu := by
  obtain ⟨hcc, hrsn, -⟩ := rduEnd_reads s CC.failRefused Rsn.badMode
  obtain ⟨hdone, -, hend⟩ := rduEnd_reads (rduZero s) CC.done 0
  obtain ⟨hlate, hexcl, hcrc0, hcrc1⟩ := rduZero_reads s CC.done 0
  exact ⟨⟨_, (rduSwap_runs hpend htest).trans (congrArg Host.Outcome.next (if_pos ⟨hactive, hstandby⟩)), hcc, hrsn, rfl⟩,
    _, (rduClear_runs hpend htest).trans (congrArg Host.Outcome.next (if_neg (by simp [hactive, hstandby]))),
    hdone, hend, hlate, hexcl, hcrc0, hcrc1, rfl⟩

theorem verdictLimit_digests {s : State} (h : emitMode s = .standby) (hbuilt : s.rdu.built = s.tb.tick)
    {a b : Nat × BitVec 64} (ha : s.rdu.ownDigest.find? (·.1 = s.tb.tick - 1) = some a)
    (hb : s.rdu.hisDigest.find? (·.1 = s.tb.tick - 1) = some b) : verdictLimit s =
      if a.2 ≠ b.2 ∧ !s.rdu.nonCommit.contains (s.tb.tick - 1) ∧ !partnerDeclared s then outOfStep (atLimit s) 4
      else atLimit s := by
  have ha' : (atLimit s).rdu.ownDigest.find? (·.1 = s.tb.tick - 1) = some a := ha
  have hb' : (atLimit s).rdu.hisDigest.find? (·.1 = s.tb.tick - 1) = some b := hb
  rw [verdictLimit_built h hbuilt]
  unfold digestsJudged
  rw [ha', hb']
  rfl

/-- Settles O53: the verdict limit by the unit's set, its partner and the digests of the tick before; the silence and the
absence of a partner; and the pair commands by mode. -/
theorem pairDecisions : Obligations.PairDecisions := by
  intro s
  refine ⟨?_, partnerSilence_completes s, fun h => ?_, fun h0 h1 hdue => ?_, fun hpend => ⟨fun hm => rduRunning_completes hpend hm,
    fun ha hs ht => rduElsewhere_completes hpend ha hs ht⟩⟩
  · rintro u rfl
    refine ⟨fun hm => congrArg Host.Outcome.next (verdictLimit_of_ne_standby hm), fun hm hbuilt hnone => ?_,
      fun hm hbuilt a b ha hb => ⟨fun heq => ?_, fun hne hcommit hpartner hcauses => ?_⟩, fun hm hbuilt hnone =>
      ⟨fun hheard hcauses => ?_, fun hsilent => ?_⟩⟩
    · have hnone' : (atLimit s).rdu.ownDigest.find? (·.1 = s.tb.tick - 1) = none := hnone
      have hlimit := verdictLimit_built hm hbuilt
      unfold digestsJudged at hlimit
      rw [hnone'] at hlimit
      exact congrArg Host.Outcome.next hlimit
    · have hlimit := verdictLimit_digests hm hbuilt ha hb
      rw [if_neg (fun h => h.1 heq)] at hlimit
      exact congrArg Host.Outcome.next hlimit
    · have hlimit := verdictLimit_digests hm hbuilt ha hb
      rw [if_pos ⟨hne, by simpa using hcommit, by simp [hpartner]⟩,
        outOfStep_standby (s := atLimit s) hm hcauses] at hlimit
      exact ⟨_, congrArg Host.Outcome.next hlimit, rd_cause_oosDeclared _ _, oosDeclared_causes (s := atLimit s) hcauses 4⟩
    · exact ⟨_, congrArg Host.Outcome.next (verdictLimit_heard hm hbuilt hnone hheard hcauses), rd_cause_oosDeclared _ _,
        oosDeclared_causes (s := atLimit s) hcauses 2, (congrArg RduSt.takeAt (oosDeclared_rdu (atLimit s) 2)).trans hnone⟩
    · have hlimit := verdictLimit_silent hm hbuilt hnone hsilent
      exact ⟨_, rfl, congrArg Prod.fst hlimit, congrArg Prod.snd hlimit⟩
  · refine congrArg Host.Outcome.next (if_pos ?_)
    rcases h with h | h | h <;> simp only [h, decide_true, Bool.or_true, Bool.true_or]
  · exact congrArg Host.Outcome.next (if_neg (by simp [h0, h1]; omega))

end Sys2Proof.Machine
end

section
/-! SUPPORT. The state copy of a unit in RESYNC (R316 to R318): a copy under way stands while its partner stays ACTIVE, and what
each frame of it and its end change. -/

namespace Sys2Proof.Machine

/-! ### A copy under way -/

theorem askDropped_copy (s : State) (h : ChordHead) : (askDropped s h).rdu.copy = s.rdu.copy :=
  ite_keeps (p := fun t => t.rdu.copy) rfl rfl

/-- A copy stands while the partner is ACTIVE and out of SAVE. -/
theorem noteFrame_of_copying {s : State} {c : CopyRun} (hcopy : s.rdu.copy = some c) {h : ChordHead}
    (hsave : h.save = false) (hmode : h.mode = .active) : noteFrame s h = showRdu (askDropped (noteTold s h) h) := by
  have htold : (noteTold s h).rdu.copy = some c := hcopy
  have hkept : copyTold (noteTold s h) h = noteTold s h := by
    unfold copyTold
    rw [htold]
    simp [hsave, hmode]
  have hcopying : (showRdu (askDropped (noteTold s h) h)).rdu.copy = some c := by
    rw [showRdu_keeps (p := State.rdu) (fun _ _ _ _ => rfl) event_rdu]
    exact (askDropped_copy _ _).trans htold
  rw [noteFrame_eq, hkept]
  unfold copyStart
  exact if_neg fun hc => by simp [hcopying] at hc

theorem chordTake_copy {s : State} {c : CopyRun} (hcopy : s.rdu.copy = some c) {head : ChordHead}
    (hsave : head.save = false) (hmode : head.mode = .active) (n : Fin 2) (hello : Bool) :
    (chordTake s n head hello).1.rdu.copy = some c := by
  rcases chordTake_cases s n head hello with heq | heq | ⟨f, g, heq⟩
  · rw [heq]
    exact hcopy
  · rw [heq]
    exact hcopy
  · rw [heq]
    have hheard : (chordHeard s f g).rdu.copy = some c := hcopy
    rw [noteFrame_of_copying hheard hsave hmode, showRdu_keeps (p := State.rdu) (fun _ _ _ _ => rfl) event_rdu]
    exact (askDropped_copy _ _).trans hcopy

/-! ### The frames of a copy (R316, R317) -/

/-- The region under way shown. -/
def regionShown (s : State) (r bytes : Nat) : State :=
  wr (wr (wr s Reg.RDU_CPSTS_STATE 2) Reg.RDU_CPSTS_REGION r) Reg.RDU_CPBYTES_BYTES bytes

/-- A region whose bytes are whole, marked done. -/
def regionDone (s : State) (r : Nat) : State :=
  if bitsOf (rd s Reg.RDU_CPMASK_DONEMASK) r 1 = 1 then s
  else wr s Reg.RDU_CPMASK_DONEMASK (rd s Reg.RDU_CPMASK_DONEMASK + 2 ^ r)

section

variable {s : State} {c : CopyRun} {kc : Nat} (hm : modeIs s = .resync) (hcopy : s.rdu.copy = some c)
  (hkc : c.kc = some kc)
include hm hcopy hkc

theorem region_underWay (bytes : Nat) (d : RegionData) :
    region s kc bytes false d = putCopy (regionShown s (regionNo d) bytes) (some c) := by
  unfold region
  rw [hcopy]
  dsimp only
  rw [if_neg (by simp [hm]), hkc]
  simp only [ne_eq, not_true_eq_false, decide_false, Bool.false_eq_true, if_false, Bool.not_false, if_true]
  rfl

theorem region_data (bytes : Nat) (m : Tbl Byte) : region s kc bytes true (.data m) =
    putCopy (regionDone (regionShown s 5 bytes) 5)
      (some { c with regions := c.regions.filter (fun x => regionNo x ≠ 5) ++ [.data m] }) := by
  have hauth (t : State) : regionAuth t (.data m) = none := rfl
  have hnone (t : State) : stageRegion t (.data m) = t := rfl
  unfold region
  rw [hcopy]
  dsimp only
  rw [if_neg (by simp [hm])]
  simp only [hkc, ne_eq, not_true_eq_false, decide_false, Bool.false_eq_true, if_false, Bool.not_true, hauth, hnone]
  rfl

end

theorem regionShown_reads (s : State) (bytes : Nat) : rd (regionShown s 5 bytes) Reg.RDU_CPSTS_STATE = 2 ∧
    rd (regionShown s 5 bytes) Reg.RDU_CPSTS_REGION = 5 ∧
    rd (regionShown s 5 bytes) Reg.RDU_CPBYTES_BYTES = bytes % 2 ^ 32 := by
  unfold regionShown
  refine ⟨?_, ?_, rd_wr_same _ _ _ _⟩
  · simp (disch := decide) only [rd_wr_ne, rd_wr_same]
    rfl
  · simp (disch := decide) only [rd_wr_ne, rd_wr_same]
    rfl

theorem regionDone_marks (s : State) : bitsOf (rd (regionDone s 5) Reg.RDU_CPMASK_DONEMASK) 5 1 = 1 := by
  unfold regionDone
  split
  next h => exact h
  next h =>
    rw [rd_wr_same]
    revert h
    generalize rd s Reg.RDU_CPMASK_DONEMASK = m
    unfold bitsOf
    show _ → (m + 2 ^ 5) % 2 ^ 12 / 2 ^ 5 % 2 ^ 1 = 1
    omega

theorem regionDone_csa (s : State) (r : Nat) : (regionDone s r).csa = s.csa := ite_keeps (p := State.csa) rfl rfl

/-! ### The time limit (R318) -/

/-- The fields of a copy come before those of the links. -/
theorem linked_of {s t : State} (hcarries : t.rdu.carries = s.rdu.carries)
    (hpaired : ∀ n, rd t Reg.RDU_CHSTS_PAIRED n = rd s Reg.RDU_CHSTS_PAIRED n) : linked t = linked s := by
  unfold linked
  rw [hcarries]
  exact congrArg s.rdu.carries.any (funext fun n => rdB_of_rd (hpaired n))

theorem rd_paired_copyEnd (s : State) (code rsn n : Nat) :
    rd (copyEnd s code rsn) Reg.RDU_CHSTS_PAIRED n = rd s Reg.RDU_CHSTS_PAIRED n :=
  (rd_wr_of_id_lt (by decide) _ _ _).trans <| (rd_wr_of_id_lt (by decide) _ _ _).trans <|
    (rd_wr_of_id_lt (by decide) _ _ _).trans (rd_wr_of_id_lt (by decide) _ _ _)

theorem copyEnd_reads (s : State) (code rsn : Nat) : rd (copyEnd s code rsn) Reg.RDU_CPSTS_CC = code % 256 ∧
    rd (copyEnd s code rsn) Reg.RDU_CPSTS_RSN = rsn % 256 ∧ rd (copyEnd s code rsn) Reg.RDU_CPSTS_PEND = 0 := by
  obtain ⟨hcc, hrsn, hpend⟩ := setStatus_reads (cc := Reg.RDU_CPSTS_CC) (rsn := Reg.RDU_CPSTS_RSN)
    (pend := Reg.RDU_CPSTS_PEND) (i := 0) (putCopy s none) code rsn (by decide) (by decide) (by decide)
  exact ⟨(rd_wr_ne (by decide) _ _).trans hcc, (rd_wr_ne (by decide) _ _).trans hrsn,
    (rd_wr_ne (by decide) _ _).trans hpend⟩

/-- Frames that tell link states alone were put out. -/
def ToldLinks (s t : State) : Prop := ∃ l, t.out = s.out ++ l ∧ ∀ o ∈ l, ∃ h i, o = Out.chord none h (.input i)

theorem ToldLinks.refl (s : State) : ToldLinks s s :=
  ⟨[], (List.append_nil _).symm, fun _ ho => absurd ho List.not_mem_nil⟩

theorem sendChord_out (s : State) (l : Option (Fin 2)) (k : Nat) (late : Bool) (b : ChordBody) :
    (sendChord s l k late b).out = s.out ++ [.chord l (frameHead s late s.rdu.fseqOut k) b] := rfl

theorem toldLinks_submit (s : State) (stamp source ident : Nat) (b : InBody) :
    ToldLinks s (submit s stamp source ident b) := by
  unfold submit
  dsimp only
  split
  · refine ⟨_, sendChord_out _ _ _ _ _, fun o ho => ?_⟩
    rw [List.mem_singleton.1 ho]
    exact ⟨_, _, rfl⟩
  · exact ToldLinks.refl s

theorem ToldLinks.trans {s t u : State} (hst : ToldLinks s t) (htu : ToldLinks t u) : ToldLinks s u := by
  obtain ⟨l, hl, hlinks⟩ := hst
  obtain ⟨m, hm, hmore⟩ := htu
  refine ⟨l ++ m, by rw [hm, hl, List.append_assoc], fun o ho => ?_⟩
  exact (List.mem_append.1 ho).elim (hlinks o) (hmore o)

theorem toldLinks_tellLinks (s : State) : ToldLinks s (tellLinks s) :=
  List.foldlRecOn (motive := ToldLinks s) (downLinks s) linkChange (ToldLinks.refl s)
    fun _ ht _ _ => ht.trans (toldLinks_submit _ _ _ _ _)

theorem rd_tellLinks (s : State) (g : Field) (j : Nat) : rd (tellLinks s) g j = rd s g j :=
  foldl_keeps (rd · g j) (f := linkChange) (fun _ _ => ite_keeps (p := (rd · g j)) rfl rfl) _ s

/-- The status of a copy asked for. -/
def copyAsked (s : State) : State :=
  wr (wr (wr (wr (wr s Reg.RDU_CPSTS_STATE 1) Reg.RDU_CPSTS_REGION 0) Reg.RDU_CPSTS_PEND 1) Reg.RDU_CPMASK_DONEMASK 0)
    Reg.RDU_CPBYTES_BYTES 0

theorem askCopy_eq (s : State) (since : Nat) (answered : Option Nat) : askCopy s since answered = sendCopyReq (copyAsked
    (putCopy (tellLinks { s with rdu := { s.rdu with links := (downLinks s).map fun r => (r, ownSide s) } })
      (some (freshCopy since answered)))) := rfl

/-- A copy asked for: it pends, its end before shows, and COPYREQ goes behind the link states. -/
theorem askCopy_reads (s : State) (since : Nat) (answered : Option Nat) :
    rd (askCopy s since answered) Reg.RDU_CPSTS_PEND = 1 ∧
    rd (askCopy s since answered) Reg.RDU_CPSTS_CC = rd s Reg.RDU_CPSTS_CC ∧
    rd (askCopy s since answered) Reg.RDU_CPSTS_RSN = rd s Reg.RDU_CPSTS_RSN ∧
    (askCopy s since answered).rdu.copy = some (freshCopy since answered) ∧
    ∃ l h, (askCopy s since answered).out = s.out ++ l ++ [.chord none h .copyReq] ∧
      ∀ o ∈ l, ∃ h' i, o = .chord none h' (.input i) := by
  rw [askCopy_eq]
  have hlinks := toldLinks_tellLinks { s with rdu := { s.rdu with links := (downLinks s).map fun r => (r, ownSide s) } }
  have hkept (g : Field) : rd (tellLinks { s with rdu := { s.rdu with
      links := (downLinks s).map fun r => (r, ownSide s) } }) g = rd s g := rd_tellLinks _ _ _
  generalize tellLinks _ = t at hlinks hkept ⊢
  obtain ⟨l, hout, hl⟩ := hlinks
  have hread (g : Field) : rd (sendCopyReq (copyAsked (putCopy t (some (freshCopy since answered))))) g =
      rd (copyAsked (putCopy t (some (freshCopy since answered)))) g := rfl
  have hcopy (g : Field) : rd (putCopy t (some (freshCopy since answered))) g = rd s g := hkept g
  simp only [hread]
  unfold copyAsked
  refine ⟨?_, ?_, ?_, rfl, l, _, congrArg (· ++ _) hout, hl⟩
  · simp (disch := decide) only [rd_wr_ne, rd_wr_same]
    rfl
  · simp (disch := decide) only [rd_wr_ne, hcopy]
  · simp (disch := decide) only [rd_wr_ne, hcopy]

theorem copyTimeLimit_due {s : State} {c : CopyRun} (hcopy : s.rdu.copy = some c)
    (hdue : c.since + 60000000000 ≤ s.tb.now) : Completes (exec .copyTimeLimit s) fun t =>
      rd t Reg.RDU_CPSTS_CC = CC.failBudget ∧ rd t Reg.RDU_CPSTS_RSN = Rsn.copyRate ∧
      if modeIs s = .resync ∧ linked s = true ∧ s.rdu.partnerSave = false ∧ s.rdu.noCopy = false then
        t.rdu.copy = some (freshCopy s.tb.now none) ∧ rd t Reg.RDU_CPSTS_PEND = 1 ∧
        ∃ l h, t.out = s.out ++ l ++ [.chord none h .copyReq] ∧ ∀ o ∈ l, ∃ h' i, o = .chord none h' (.input i)
      else t.rdu.copy = none ∧ rd t Reg.RDU_CPSTS_PEND = 0 ∧ t.out = s.out := by
  have hexec : exec .copyTimeLimit s = .next (copyStart (copyEnd s CC.failBudget Rsn.copyRate)) := by
    show Host.Outcome.next (match s.rdu.copy with
      | some c => if c.since + 60000000000 ≤ s.tb.now then copyStart (copyEnd s CC.failBudget Rsn.copyRate) else s
      | none => s) = _
    rw [hcopy]
    exact congrArg Host.Outcome.next (if_pos hdue)
  obtain ⟨hcc, hrsn, hpend⟩ := copyEnd_reads s CC.failBudget Rsn.copyRate
  have hmode : modeIs (copyEnd s CC.failBudget Rsn.copyRate) = modeIs s := by
    refine modeIs_of_rd ?_
    unfold copyEnd setStatus
    simp (disch := decide) only [rd_wr_ne]
    rfl
  have hlinked := linked_of (s := s) (t := copyEnd s CC.failBudget Rsn.copyRate) rfl (rd_paired_copyEnd s _ _)
  have hstart : copyStart (copyEnd s CC.failBudget Rsn.copyRate) =
      if modeIs s = .resync ∧ linked s = true ∧ s.rdu.partnerSave = false ∧ s.rdu.noCopy = false then
        askCopy (copyEnd s CC.failBudget Rsn.copyRate) s.tb.now none
      else copyEnd s CC.failBudget Rsn.copyRate := by
    unfold copyStart
    rw [hmode, hlinked]
    refine if_congr ?_ rfl rfl
    have hnone : (copyEnd s CC.failBudget Rsn.copyRate).rdu.copy = none := rfl
    have hsave : (copyEnd s CC.failBudget Rsn.copyRate).rdu.partnerSave = s.rdu.partnerSave := rfl
    have hno : (copyEnd s CC.failBudget Rsn.copyRate).rdu.noCopy = s.rdu.noCopy := rfl
    rw [hnone, hsave, hno]
    simp
  refine ⟨_, hexec, ?_⟩
  rw [hstart]
  split
  · obtain ⟨hasked, hcc', hrsn', hcopied, hout⟩ := askCopy_reads (copyEnd s CC.failBudget Rsn.copyRate) s.tb.now none
    exact ⟨hcc'.trans hcc, hrsn'.trans hrsn, hcopied, hasked, hout⟩
  · exact ⟨hcc, hrsn, rfl, hpend, rfl⟩

/-- Settles O52: a copy under way stands through the header of an ACTIVE partner's frame; then each frame of the copy by the
run it finds, and the limit by its instant. -/
theorem pairCopy : Obligations.PairCopy := by
  intro s n head
  have hcsa := chordTake_csa s n head false
  refine ⟨fun hnew => ⟨completes_taken (f := fun t => { dropLinks t (!ownSide t) with
    rdu := { (dropLinks t (!ownSide t)).rdu with copyReq := true } }) rfl hnew rfl, fun c hcopy hsave hmode => ?_⟩,
    fun c hcopy => ⟨copyTimeLimit_due hcopy, fun hearly => ?_⟩⟩
  · have htaken := chordTake_copy hcopy hsave hmode n false
    refine ⟨fun hm hkc bytes m => ⟨?_, ?_⟩, fun r => ?_, fun hkc => ?_⟩
    · refine completes_taken (f := fun t => region t head.tick bytes false (.data m)) rfl hnew ?_
      obtain ⟨hstate, hregion, hbytes⟩ := regionShown_reads (chordTake s n head false).1 bytes
      rw [region_underWay (by rwa [modeIs_chordTake]) htaken hkc]
      exact ⟨rfl, hstate, hregion, hbytes, congrArg CsaSt.dmem hcsa⟩
    · refine completes_taken (f := fun t => region t head.tick bytes true (.data m)) rfl hnew ?_
      rw [region_data (by rwa [modeIs_chordTake]) htaken hkc]
      exact ⟨congrArg CsaSt.dmem ((regionDone_csa _ _).trans hcsa), regionDone_marks _, rfl⟩
    · refine completes_taken (f := fun t => match t.rdu.copy with
        | some x => putCopy t (some { x with stream := x.stream.filter (fun x => x.tick ≠ r.tick) ++ [r] })
        | none => t) rfl hnew ?_
      rw [htaken]
      exact ⟨rfl, hcsa⟩
    · refine completes_taken (f := fun t => match t.rdu.copy with
        | some x => if x.kc.isSome then
            putCopy (wr (wr t Reg.RDU_CPSTS_STATE 3) Reg.RDU_CPSTS_REGION 11) (some { x with ended := true }) else t
        | none => t) rfl hnew ?_
      rw [htaken]
      dsimp only
      rw [if_pos hkc]
      have hstate (t : State) : rd (wr (wr t Reg.RDU_CPSTS_STATE 3) Reg.RDU_CPSTS_REGION 11) Reg.RDU_CPSTS_STATE = 3 :=
        (rd_wr_ne (by decide) _ _).trans (rd_wr_same _ _ _ _)
      have hregion (t : State) : rd (wr t Reg.RDU_CPSTS_REGION 11) Reg.RDU_CPSTS_REGION = 11 := rd_wr_same _ _ _ _
      exact ⟨rfl, hstate _, hregion _⟩
  · show Host.Outcome.next (match s.rdu.copy with
      | some c => if c.since + 60000000000 ≤ s.tb.now then copyStart (copyEnd s CC.failBudget Rsn.copyRate) else s
      | none => s) = _
    rw [hcopy]
    exact congrArg Host.Outcome.next (if_neg (by omega))

end Sys2Proof.Machine
end

section
/-! SUPPORT. A Chord link (R297 to R300, Table 13.17): its lock, its latency and its upset, the HELLO that pairs it or not, and the
frames it brings. -/

namespace Sys2Proof.Machine

/-! ### The status of a link and of the pair -/

section

variable {g : Field} {j : Nat} (hj : j < 8192)
include hj

theorem rd_showLink (hq : g.id ≠ Reg.RDU_CHSTS_QUAL.id) (hm : g.id ≠ Reg.RDU_CHSTS_MSTATE.id) {n : Nat} (hn : n < 8192)
    (s : State) : rd (showLink s n) g j = rd s g j :=
  ite_keeps (p := (rd · g j)) rfl ((rd_wr_of_id_ne hq hn hj _ _).trans (rd_wr_of_id_ne hm hn hj s _))

theorem rd_showRdu (hf : ∀ f ∈ frameFields, g.id ≠ f.id) (hr : ∀ f ∈ recorderFields, g.id ≠ f.id) (s : State) :
    rd (showRdu s) g j = rd s g j := (askBlind_rd hf hr hj).showRdu s

theorem rd_unpair (hp : g.id ≠ Reg.RDU_CHSTS_PAIRED.id) (hr : ∀ f ∈ recorderFields, g.id ≠ f.id) {n : Nat} (hn : n < 8192)
    (s : State) : rd (unpair s n) g j = rd s g j := by
  have hread (t : State) : rd (wr t Reg.RDU_CHSTS_PAIRED 0 n) g j = rd t g j := rd_wr_of_id_ne hp hn hj t 0
  exact ite_keeps (p := (rd · g j)) (ite_keeps (p := (rd · g j)) ((rd_event hr hj _ _ _ _).trans (hread _)) (hread _)) rfl

end

/-- A link no longer paired. -/
def unpaired (s : State) (n : Nat) : State :=
  wr { s with rdu := { s.rdu with carries := s.rdu.carries.filter (· ≠ n) } } Reg.RDU_CHSTS_PAIRED 0 n

theorem unpair_of_paired {s : State} {n : Nat} (h : rdB s Reg.RDU_CHSTS_PAIRED n = true) : unpair s n =
    if paired (unpaired s n) then event (unpaired s n) Ev.chordLink .warning [] else unpaired s n := if_pos h

theorem rdB_paired_unpair (s : State) (n : Fin 2) : rdB (unpair s n) Reg.RDU_CHSTS_PAIRED n = false := by
  cases hp : rdB s Reg.RDU_CHSTS_PAIRED n with
  | false =>
    unfold unpair
    rw [hp]
    exact hp
  | true =>
    have hclear : rd (unpaired s n) Reg.RDU_CHSTS_PAIRED n = 0 := rd_wr_same _ _ _ _
    have hread : rd (unpair s n) Reg.RDU_CHSTS_PAIRED n = 0 := by
      rw [unpair_of_paired hp]
      exact ite_keeps (p := (rd · Reg.RDU_CHSTS_PAIRED n)) ((rd_event (by decide) (by omega) _ _ _ _).trans hclear) hclear
    simp [rdB, hread]

/-- A link without lock is STALE. -/
theorem qual_showLink {s : State} {n : Fin 2} (hm : resState s (chRes n) ≠ .retired)
    (hlock : rdB s Reg.RDU_CHSTS_LOCK n = false) : rd (showLink s n) Reg.RDU_CHSTS_QUAL n = qualCode .stale := by
  unfold showLink
  rw [if_neg hm, hlock]
  exact rd_wr_same _ _ _ _

/-! ### Lock lost (R297) -/

/-- A link without lock or lanes, unpaired. -/
def linkDown (s : State) (n : Nat) : State := unpair (wr (wr s Reg.RDU_CHSTS_LOCK 0 n) Reg.RDU_CHSTS_LANES 0 n) n

/-- The time of R311 starts when the last link loses its lock. -/
def lockTimed (s : State) (was : Bool) (n : Nat) : State :=
  if was && !rdB s Reg.RDU_CHSTS_LOCK (1 - n) then { s with rdu := { s.rdu with unlockedFrom := s.tb.now } } else s

theorem chDown_eq (s : State) (n : Nat) :
    chDown s n = showRdu (showLink (lockTimed (linkDown s n) (rdB s Reg.RDU_CHSTS_LOCK n) n) n) := rfl

theorem rd_lockTimed (s : State) (was : Bool) (n : Nat) (g : Field) (j : Nat) : rd (lockTimed s was n) g j = rd s g j :=
  ite_keeps (p := (rd · g j)) rfl rfl

theorem linkDown_reads (s : State) (n : Fin 2) : rd (linkDown s n) Reg.RDU_CHSTS_LOCK n = 0 ∧
    rd (linkDown s n) Reg.RDU_CHSTS_LANES n = 0 ∧ rdB (linkDown s n) Reg.RDU_CHSTS_PAIRED n = false ∧
    rd (linkDown s n) Reg.RDU_CHSTS_MSTATE n = rd s Reg.RDU_CHSTS_MSTATE n := by
  refine ⟨?_, ?_, rdB_paired_unpair _ n, ?_⟩
  · refine (rd_unpair (by omega) (by decide) (by decide) (by omega) _).trans ?_
    exact (rd_wr_of_id_ne (by decide) (by omega) (by omega) _ _).trans (rd_wr_same s Reg.RDU_CHSTS_LOCK n 0)
  · exact (rd_unpair (by omega) (by decide) (by decide) (by omega) _).trans (rd_wr_same _ Reg.RDU_CHSTS_LANES n 0)
  · refine (rd_unpair (by omega) (by decide) (by decide) (by omega) _).trans ?_
    exact (rd_wr_of_id_ne (by decide) (by omega) (by omega) _ _).trans (rd_wr_of_id_ne (by decide) (by omega) (by omega) s 0)

theorem chDown_reads {s : State} {n : Fin 2} (hm : resState s (chRes n) ≠ .retired) :
    rd (chDown s n) Reg.RDU_CHSTS_LOCK n = 0 ∧ rd (chDown s n) Reg.RDU_CHSTS_LANES n = 0 ∧
    rdB (chDown s n) Reg.RDU_CHSTS_PAIRED n = false ∧ rd (chDown s n) Reg.RDU_CHSTS_QUAL n = qualCode .stale := by
  obtain ⟨hlock, hlanes, hpaired, hmstate⟩ := linkDown_reads s n
  rw [chDown_eq]
  generalize hu : lockTimed (linkDown s n) _ _ = u
  have hread (g : Field) : rd u g n = rd (linkDown s n) g n := hu ▸ rd_lockTimed _ _ _ _ _
  have hshown {g : Field} (hf : ∀ f ∈ Reg.RDU_CHSTS_QUAL :: Reg.RDU_CHSTS_MSTATE :: frameFields, g.id ≠ f.id)
      (hr : ∀ f ∈ recorderFields, g.id ≠ f.id) : rd (showRdu (showLink u n)) g n = rd (linkDown s n) g n :=
    ((rd_showRdu (by omega) (fun f h => hf f (List.mem_cons_of_mem _ (List.mem_cons_of_mem _ h))) hr _).trans
      (rd_showLink (by omega) (hf _ List.mem_cons_self) (hf _ (List.mem_cons_of_mem _ List.mem_cons_self)) (by omega)
        u)).trans (hread g)
  refine ⟨(hshown (by decide) (by decide)).trans hlock, (hshown (by decide) (by decide)).trans hlanes,
    (rdB_of_rd (hshown (by decide) (by decide))).trans hpaired, ?_⟩
  refine (rd_showRdu (by omega) (by decide) (by decide) _).trans (qual_showLink ?_ ?_)
  · exact (congrArg mstateOf ((hread Reg.RDU_CHSTS_MSTATE).trans hmstate)).trans_ne hm
  · rw [rdB_of_rd (hread Reg.RDU_CHSTS_LOCK)]
    simp [rdB, hlock]

/-! ### A corrupt frame (R299, R391) -/

/-- A link that has suffered its first upset. -/
def chordSuspect (s : State) (n : Fin 2) : State :=
  let t := wr (wr s Reg.RDU_CHSTS_MSTATE (mstateCode .suspect) n) Reg.RDU_CHSTS_FCOUNT 1 n
  { t with ssu := { t.ssu with windows := t.ssu.windows ++ [⟨chRes n, .inService, s.tb.tick⟩] } }

theorem upset_chord {s : State} {n : Fin 2} (hruns : WindowRuns s (chRes n)) (hm : resState s (chRes n) = .inService)
    (work : State → State) : upset s (chRes n) work = (chordSuspect s n, false) := by
  unfold upset
  rw [windowClose_of_runs hruns]
  simp only [hm]
  rfl

theorem chordSuspect_reads (s : State) (n : Fin 2) :
    rd (chordSuspect s n) Reg.RDU_CHSTS_CRCERR n = rd s Reg.RDU_CHSTS_CRCERR n ∧
    rd (chordSuspect s n) Reg.RDU_CHSTS_MSTATE n = mstateCode .suspect ∧ rd (chordSuspect s n) Reg.RDU_CHSTS_FCOUNT n = 1 := by
  have hread (g : Field) : rd (chordSuspect s n) g n =
      rd (wr (wr s Reg.RDU_CHSTS_MSTATE (mstateCode .suspect) n) Reg.RDU_CHSTS_FCOUNT 1 n) g n := rfl
  refine ⟨?_, ?_, ?_⟩
  · rw [hread, rd_wr_of_id_ne (by decide) (by omega) (by omega), rd_wr_of_id_ne (by decide) (by omega) (by omega)]
  · rw [hread, rd_wr_of_id_ne (by decide) (by omega) (by omega), rd_wr_same]
    rfl
  · rw [hread, rd_wr_same]
    rfl

theorem chordCrc_completes {s : State} {n : Fin 2} (hm : resState s (chRes n) = .inService) (hruns : WindowRuns s (chRes n)) :
    Completes (exec (.chordCrcError n) s) fun t => rd t Reg.RDU_CHSTS_CRCERR n = min (rd s Reg.RDU_CHSTS_CRCERR n + 1) 4095 ∧
      rd t Reg.RDU_CHSTS_MSTATE n = mstateCode .suspect ∧ rd t Reg.RDU_CHSTS_FCOUNT n = 1 ∧ t.rdu = s.rdu := by
  have hstate : resState (bump s Reg.RDU_CHSTS_CRCERR n) (chRes n) = .inService :=
    (congrArg mstateOf (rd_wr_of_id_ne (f := Reg.RDU_CHSTS_CRCERR) (g := Reg.RDU_CHSTS_MSTATE) (i := n) (j := n) (by decide)
      (by omega) (by omega) s _)).trans hm
  have hkeeps : WindowRuns (bump s Reg.RDU_CHSTS_CRCERR n) (chRes n) := by
    intro w hw hres
    exact (faultOver_wr (i := n.val) (by omega) (by decide) (by decide) s _ _ _).trans (hruns w hw hres)
  have hexec : exec (.chordCrcError n) s = .next (chordSuspect (bump s Reg.RDU_CHSTS_CRCERR n) n) :=
    congrArg (fun r => Host.Outcome.next (Prod.fst r)) (upset_chord hkeeps hstate _)
  obtain ⟨hcrc, hmstate, hfcount⟩ := chordSuspect_reads (bump s Reg.RDU_CHSTS_CRCERR n) n
  exact ⟨_, hexec, hcrc.trans (bump_same s Reg.RDU_CHSTS_CRCERR n 1), hmstate, hfcount, rfl⟩

/-! ### A link that trains (R297) -/

/-- The fields that HELLO and the header of a frame carry. -/
def helloFields : List Field := [Reg.SSU_MODE_MODE, Reg.SSU_MODE_PRIOR, Reg.TBC_TICKCFG_TICKLEN, Reg.TBC_TICKCFG_AGREE,
  Reg.RDU_CLAIM_OWN, Reg.CSA_STATUS_PROGVALID, Reg.CSA_OLC_ACTHALF]

/-- What the next frame of a unit tells, and what it has put out. -/
def helloView (s : State) : ChordHead × Hello × BitVec 32 × Nat × List Out :=
  (frameHead s false s.rdu.fseqOut s.tb.tick, ownHello s, s.rdu.fseqOut, s.tb.tick, s.out)

theorem helloView_of {s t : State} (hf : ∀ g ∈ helloFields, rd t g = rd s g) (hstraps : t.ssu.straps = s.ssu.straps)
    (hheld : t.rdu.claimHeld = s.rdu.claimHeld) (hseq : t.rdu.fseqOut = s.rdu.fseqOut) (htb : t.tb = s.tb)
    (hcsa : t.csa = s.csa) (hfct : t.fct = s.fct) (hout : t.out = s.out) : helloView t = helloView s := by
  have hmode : modeIs t = modeIs s := modeIs_of_rd (hf _ (by decide))
  have hemit : emitMode t = emitMode s := emitMode_of_rd (hf _ (by decide)) (hf _ (by decide))
  have hside : ownSide t = ownSide s := congrArg Straps.side hstraps
  have hrun : running t = running s := by
    unfold running
    rw [rdB_of_rd (hf Reg.CSA_STATUS_PROGVALID (by decide)), hf Reg.CSA_OLC_ACTHALF (by decide), hcsa]
  unfold helloView frameHead ownHello
  rw [hmode, hemit, hside, hrun, hf _ (by decide), hf Reg.TBC_TICKCFG_AGREE (by decide), hf Reg.RDU_CLAIM_OWN (by decide),
    hheld, hseq, htb, hfct, hout]

theorem helloView_wr {f : Field} {i : Nat} (hf : ∀ g ∈ helloFields, g.id ≠ f.id) (hi : i < 8192) (s : State) (v : Nat) :
    helloView (wr s f v i) = helloView s :=
  helloView_of (fun g hg => rd_wr_of_id_ne (hf g hg) hi (by decide) s v) rfl rfl rfl rfl rfl rfl rfl

theorem helloView_event (s : State) (code : Nat) (sev : Sev) (ps : List Nat) :
    helloView (event s code sev ps) = helloView s :=
  helloView_of (fun g hg => rd_event (by revert g; decide) (by decide) s code sev ps)
    (congrArg SsuSt.straps (event_ssu _ _ _ _)) (congrArg RduSt.claimHeld (event_rdu _ _ _ _))
    (congrArg RduSt.fseqOut (event_rdu _ _ _ _)) (event_tb _ _ _ _) (event_csa _ _ _ _) (event_fct _ _ _ _)
    (event_out _ _ _ _)

theorem frameBlind_helloView : FrameBlind helloView where
  field f hf s v := helloView_wr (by revert f; decide) (by decide) s v
  event := helloView_event
  causes _ _ := rfl
  copy _ _ _ _ := rfl

/-- The lock of a link, none being left of the frames before when neither link had lock. -/
def lockOpened (s : State) (n : Nat) : State :=
  let t := if rdB s Reg.RDU_CHSTS_LOCK (1 - n) then s else { s with rdu := { s.rdu with fseqIn := none, gaps := [] } }
  { t with rdu := { t.rdu with absent := false } }

/-- Lock, lanes and rate shown. -/
def lanesShown (s : State) (n lanes : Nat) (rate : Bool) : State :=
  wrB (wr (wr s Reg.RDU_CHSTS_LOCK 1 n) Reg.RDU_CHSTS_LANES (min 4 lanes) n) Reg.RDU_CHSTS_RATE rate n

/-- The latency shown, and no reason but that of a unit that is not paired. -/
def latShown (s : State) (n lat rsn : Nat) : State := wr (wr s Reg.RDU_CHLAT_LAT lat n) Reg.RDU_CHSTS_RSN rsn n

/-- A link on fewer than four lanes is recorded. -/
def lanesTold (s : State) (lanes : Nat) : State := if lanes < 4 then event s Ev.chordLanes .warning [] else s

theorem chordTrained_eq {s : State} {n : Fin 2} {lanes : Nat} (hm : resState s (chRes n) ≠ .retired) (hl : lanes ≠ 0)
    (rate : Bool) (lat : Nat) : ∃ rsn, chordTrained s n lanes rate lat = sendHello (showRdu (showLink
      (lanesTold (latShown (lanesShown (lockOpened s n) n lanes rate) n lat rsn) lanes) n)) n := by
  refine ⟨_, if_neg ?_⟩
  simp [hm, hl]

theorem lockOpened_helloView (s : State) (n : Nat) : helloView (lockOpened s n) = helloView s := by
  unfold lockOpened
  split <;> rfl

theorem lanesTold_reads {g : Field} {j : Nat} (hr : ∀ f ∈ recorderFields, g.id ≠ f.id) (hj : j < 8192) (s : State)
    (lanes : Nat) : rd (lanesTold s lanes) g j = rd s g j := ite_keeps (p := (rd · g j)) (rd_event hr hj _ _ _ _) rfl

theorem lanesTold_rdu (s : State) (lanes : Nat) : (lanesTold s lanes).rdu = s.rdu :=
  ite_keeps (p := State.rdu) (event_rdu _ _ _ _) rfl

theorem rdu_showLink (s : State) (n : Nat) : (showLink s n).rdu = s.rdu := ite_keeps (p := State.rdu) rfl rfl

theorem trainedShown_helloView (s : State) (n : Fin 2) (lanes : Nat) (rate : Bool) (lat rsn : Nat) :
    helloView (showRdu (showLink (lanesTold (latShown (lanesShown (lockOpened s n) n lanes rate) n lat rsn) lanes) n)) =
      helloView s := by
  have hlink (t : State) : helloView (showLink t n) = helloView t :=
    ite_keeps (p := helloView) rfl ((helloView_wr (by decide) (by omega) _ _).trans (helloView_wr (by decide) (by omega) _ _))
  have hlat (t : State) : helloView (latShown t n lat rsn) = helloView t :=
    (helloView_wr (by decide) (by omega) _ _).trans (helloView_wr (by decide) (by omega) _ _)
  have hlanes (t : State) : helloView (lanesShown t n lanes rate) = helloView t :=
    (helloView_wr (by decide) (by omega) _ _).trans <|
      (helloView_wr (by decide) (by omega) _ _).trans (helloView_wr (by decide) (by omega) _ _)
  have htold (t : State) : helloView (lanesTold t lanes) = helloView t := ite_keeps (p := helloView) (helloView_event _ _ _ _) rfl
  exact (frameBlind_helloView.showRdu _).trans <| (hlink _).trans <| (htold _).trans <| (hlat _).trans <|
    (hlanes _).trans (lockOpened_helloView s n)

theorem trainedShown_reads (s : State) (n : Fin 2) (lanes : Nat) (rate : Bool) (lat rsn : Nat) :
    rd (latShown (lanesShown s n lanes rate) n lat rsn) Reg.RDU_CHSTS_LOCK n = 1 ∧
    rd (latShown (lanesShown s n lanes rate) n lat rsn) Reg.RDU_CHSTS_LANES n = min 4 lanes % 8 ∧
    rdB (latShown (lanesShown s n lanes rate) n lat rsn) Reg.RDU_CHSTS_RATE n = rate ∧
    rd (latShown (lanesShown s n lanes rate) n lat rsn) Reg.RDU_CHLAT_LAT n = lat % 2 ^ 32 := by
  have hlat {g : Field} (hl : g.id ≠ Reg.RDU_CHLAT_LAT.id) (hr : g.id ≠ Reg.RDU_CHSTS_RSN.id) :
      rd (latShown (lanesShown s n lanes rate) n lat rsn) g n = rd (lanesShown s n lanes rate) g n :=
    (rd_wr_of_id_ne hr (by omega) (by omega) _ _).trans (rd_wr_of_id_ne hl (by omega) (by omega) _ _)
  have hrate {g : Field} (hr : g.id ≠ Reg.RDU_CHSTS_RATE.id) : rd (lanesShown s n lanes rate) g n =
      rd (wr (wr s Reg.RDU_CHSTS_LOCK 1 n) Reg.RDU_CHSTS_LANES (min 4 lanes) n) g n :=
    rd_wr_of_id_ne hr (by omega) (by omega) _ _
  refine ⟨?_, ?_, ?_, ?_⟩
  · rw [hlat (by decide) (by decide), hrate (by decide), rd_wr_of_id_ne (by decide) (by omega) (by omega), rd_wr_same]
    rfl
  · rw [hlat (by decide) (by decide), hrate (by decide), rd_wr_same]
    rfl
  · rw [rdB_of_rd (hlat (by decide) (by decide))]
    exact rdB_wrB_same rfl _ _ _
  · exact (rd_wr_of_id_ne (by decide) (by omega) (by omega) _ _).trans (rd_wr_same _ Reg.RDU_CHLAT_LAT n lat)

theorem chordTrained_completes {s : State} {n : Fin 2} (hm : resState s (chRes n) ≠ .retired) {lanes : Fin 8}
    (hl : lanes.val ≠ 0) (rate : Bool) (lat : Nat) :
    Completes (exec (.chordTrained n lanes rate lat) s) fun t => rd t Reg.RDU_CHSTS_LOCK n = 1 ∧
      rd t Reg.RDU_CHSTS_LANES n = min 4 lanes.val ∧ rdB t Reg.RDU_CHSTS_RATE n = rate ∧
      rd t Reg.RDU_CHLAT_LAT n = lat % 2 ^ 32 ∧ t.rdu.absent = false ∧
      t.out = s.out ++ [.chord (some n) (frameHead s false s.rdu.fseqOut s.tb.tick) (.hello (ownHello s))] := by
  obtain ⟨rsn, heq⟩ := chordTrained_eq hm hl rate lat
  refine ⟨_, congrArg Host.Outcome.next heq, ?_⟩
  obtain ⟨hlock, hlanes, hrate, hlat⟩ := trainedShown_reads (lockOpened s n) n lanes rate lat rsn
  have hview := trainedShown_helloView s n lanes rate lat rsn
  have habsent : (latShown (lanesShown (lockOpened s n) n lanes rate) n lat rsn).rdu.absent = false := rfl
  have hread {g : Field} (hf : ∀ f ∈ Reg.RDU_CHSTS_QUAL :: Reg.RDU_CHSTS_MSTATE :: frameFields, g.id ≠ f.id)
      (hr : ∀ f ∈ recorderFields, g.id ≠ f.id) : rd (showRdu (showLink
        (lanesTold (latShown (lanesShown (lockOpened s n) n lanes rate) n lat rsn) lanes) n)) g n =
        rd (latShown (lanesShown (lockOpened s n) n lanes rate) n lat rsn) g n :=
    ((rd_showRdu (by omega) (fun f h => hf f (List.mem_cons_of_mem _ (List.mem_cons_of_mem _ h))) hr _).trans
      (rd_showLink (by omega) (hf _ List.mem_cons_self) (hf _ (List.mem_cons_of_mem _ List.mem_cons_self)) (by omega)
        _)).trans (lanesTold_reads hr (by omega) _ _)
  have hrdu : (showRdu (showLink (lanesTold (latShown (lanesShown (lockOpened s n) n lanes rate) n lat rsn) lanes) n)).rdu =
      (latShown (lanesShown (lockOpened s n) n lanes rate) n lat rsn).rdu := by
    rw [showRdu_keeps (p := State.rdu) (fun _ _ _ _ => rfl) event_rdu]
    exact (rdu_showLink _ _).trans (lanesTold_rdu _ _)
  have hlock' := (hread (g := Reg.RDU_CHSTS_LOCK) (by decide) (by decide)).trans hlock
  have hlanes' := (hread (g := Reg.RDU_CHSTS_LANES) (by decide) (by decide)).trans hlanes
  have hrate' := (rdB_of_rd (hread (g := Reg.RDU_CHSTS_RATE) (by decide) (by decide))).trans hrate
  have hlat' := (hread (g := Reg.RDU_CHLAT_LAT) (by decide) (by decide)).trans hlat
  generalize showRdu _ = u at hview hrdu hlock' hlanes' hrate' hlat' ⊢
  refine ⟨hlock', hlanes'.trans (Nat.mod_eq_of_lt (by omega)), hrate', hlat', (congrArg RduSt.absent hrdu).trans habsent, ?_⟩
  show u.out ++ [.chord (some n) (frameHead u false u.rdu.fseqOut u.tb.tick) (.hello (ownHello u))] = _
  obtain ⟨hhead, hhello, -, -, hout⟩ := by simpa only [helloView, Prod.mk.injEq] using hview
  rw [hhead, hhello, hout]

/-! ### A HELLO judged (R298, R311) -/

/-- A link paired. -/
def linkPaired (s : State) (n : Nat) : State :=
  wr { s with rdu := { s.rdu with wasPaired := true } } Reg.RDU_CHSTS_PAIRED 1 n

/-- A refusal that is new is recorded. -/
def refusalTold (s : State) (told : Prop) [Decidable told] : State :=
  if told then event s Ev.chordRefused .warning [] else s

theorem judgeLink_pairs {s : State} {n : Nat} {h : Hello} (hr : pairReason s n h = 0) : judgeLink s n h =
    copyStart (showRdu (showLink (linkPaired (wr s Reg.RDU_CHSTS_RSN (pairReason s n h) n) n) n)) := if_pos hr

theorem judgeLink_refuses {s : State} {n : Nat} {h : Hello} (hr : pairReason s n h ≠ 0) : judgeLink s n h =
    showRdu (refusalTold (unpair (showLink (wr s Reg.RDU_CHSTS_RSN (pairReason s n h) n) n) n)
      (pairReason s n h ≠ 6 ∧ (pairReason s n h ≠ rd s Reg.RDU_CHSTS_RSN n ∨ rdB s Reg.RDU_CHSTS_PAIRED n))) := if_neg hr

/-- The fields that the judgement of a link sets. -/
def linkFields : List Field := Reg.RDU_CHSTS_QUAL :: Reg.RDU_CHSTS_MSTATE :: frameFields

section

variable {g : Field} {n : Fin 2} (hf : ∀ f ∈ linkFields, g.id ≠ f.id) (hr : ∀ f ∈ recorderFields, g.id ≠ f.id)
include hf hr

theorem rd_linkShown (s : State) : rd (copyStart (showRdu (showLink s n))) g n = rd s g n := by
  have hframe : ∀ f ∈ frameFields, g.id ≠ f.id := fun f h => hf f (List.mem_cons_of_mem _ (List.mem_cons_of_mem _ h))
  exact ((askBlind_rd hframe hr (by omega)).copyStart _).trans <| (rd_showRdu (by omega) hframe hr _).trans
    (rd_showLink (by omega) (hf _ List.mem_cons_self) (hf _ (List.mem_cons_of_mem _ List.mem_cons_self)) (by omega) s)

theorem rd_refusalShown (s : State) (told : Prop) [Decidable told] : rd (showRdu (refusalTold s told)) g n = rd s g n := by
  refine (rd_showRdu (by omega) (fun f h => hf f (List.mem_cons_of_mem _ (List.mem_cons_of_mem _ h))) hr _).trans ?_
  exact ite_keeps (p := (rd · g n)) (rd_event hr (by omega) _ _ _ _) rfl

theorem rd_judgeLink_pairs {s : State} {h : Hello} (hzero : pairReason s n h = 0) : rd (judgeLink s n h) g n =
    rd (linkPaired (wr s Reg.RDU_CHSTS_RSN (pairReason s n h) n) n) g n := by
  rw [judgeLink_pairs hzero, rd_linkShown hf hr]

theorem rd_judgeLink_refuses {s : State} {h : Hello} (hpos : pairReason s n h ≠ 0) : rd (judgeLink s n h) g n =
    rd (unpair (showLink (wr s Reg.RDU_CHSTS_RSN (pairReason s n h) n) n) n) g n := by
  rw [judgeLink_refuses hpos, rd_refusalShown hf hr]

/-- A field that no judgement sets. -/
theorem rd_judgeLink (hrsn : g.id ≠ Reg.RDU_CHSTS_RSN.id) (hpaired : g.id ≠ Reg.RDU_CHSTS_PAIRED.id) (s : State)
    (h : Hello) : rd (judgeLink s n h) g n = rd s g n := by
  have hread : rd (wr s Reg.RDU_CHSTS_RSN (pairReason s n h) n) g n = rd s g n :=
    rd_wr_of_id_ne hrsn (by omega) (by omega) _ _
  by_cases hzero : pairReason s n h = 0
  · rw [rd_judgeLink_pairs hf hr hzero]
    exact (rd_wr_of_id_ne hpaired (by omega) (by omega) _ _).trans hread
  · rw [rd_judgeLink_refuses hf hr hzero]
    refine (rd_unpair (by omega) hpaired hr (by omega) _).trans (Eq.trans ?_ hread)
    exact rd_showLink (by omega) (hf _ List.mem_cons_self) (hf _ (List.mem_cons_of_mem _ List.mem_cons_self)) (by omega) _

end

theorem pairReason_le (s : State) (n : Nat) (h : Hello) : pairReason s n h ≤ 6 := by
  unfold pairReason
  dsimp only
  split_ifs <;> decide

theorem judgeLink_reads (s : State) (n : Fin 2) (h : Hello) : rd (judgeLink s n h) Reg.RDU_CHSTS_RSN n = pairReason s n h ∧
    rdB (judgeLink s n h) Reg.RDU_CHSTS_PAIRED n = decide (pairReason s n h = 0) := by
  have hle := pairReason_le s n h
  have hrsn : rd (wr s Reg.RDU_CHSTS_RSN (pairReason s n h) n) Reg.RDU_CHSTS_RSN n = pairReason s n h :=
    (rd_wr_same _ _ _ _).trans (Nat.mod_eq_of_lt (hle.trans_lt (by decide)))
  by_cases hzero : pairReason s n h = 0
  · have hpaired (t : State) : rd (linkPaired t n) Reg.RDU_CHSTS_PAIRED n = 1 := rd_wr_same _ _ _ _
    refine ⟨?_, ?_⟩
    · rw [rd_judgeLink_pairs (by decide) (by decide) hzero]
      exact (rd_wr_of_id_ne (by decide) (by omega) (by omega) _ _).trans hrsn
    · rw [rdB_of_rd (rd_judgeLink_pairs (by decide) (by decide) hzero)]
      simp [rdB, hpaired, hzero]
  · refine ⟨?_, ?_⟩
    · rw [rd_judgeLink_refuses (by decide) (by decide) hzero]
      exact (rd_unpair (by omega) (by decide) (by decide) (by omega) _).trans <|
        (rd_showLink (by omega) (by decide) (by decide) (by omega) _).trans hrsn
    · rw [rdB_of_rd (rd_judgeLink_refuses (by decide) (by decide) hzero), rdB_paired_unpair]
      simp [hzero]

/-! ### Latency and HELLO (R298, R300) -/

theorem rd_latency {s : State} {n : Fin 2} (hlock : rdB s Reg.RDU_CHSTS_LOCK n = true) (lat : Nat) :
    rd (latency s n lat) Reg.RDU_CHLAT_LAT n = lat % 2 ^ 32 := by
  have hlat : rd (showLink (wr s Reg.RDU_CHLAT_LAT lat n) n) Reg.RDU_CHLAT_LAT n = lat % 2 ^ 32 :=
    (rd_showLink (by omega) (by decide) (by decide) (by omega) _).trans (rd_wr_same s Reg.RDU_CHLAT_LAT n lat)
  have hshown (t : State) : rd (showRdu t) Reg.RDU_CHLAT_LAT n = rd t Reg.RDU_CHLAT_LAT n :=
    rd_showRdu (by omega) (by decide) (by decide) t
  unfold latency
  rw [hlock]
  refine Eq.trans ?_ hlat
  generalize showLink _ _ = t
  simp only [Bool.not_true, Bool.false_eq_true, if_false]
  split
  · exact ite_keeps (p := (rd · Reg.RDU_CHLAT_LAT n)) (rd_judgeLink (by decide) (by decide) (by decide) (by decide) _ _)
      (hshown t)
  · exact hshown t

theorem hello_completes {s : State} {n : Fin 2} (hlock : rdB s Reg.RDU_CHSTS_LOCK n = true)
    (hm : resState s (chRes n) ≠ .retired) (head : ChordHead) (h : Hello) :
    Completes (exec (.hello n head h) s) fun t => rd t Reg.RDU_CHSTS_RSN n = pairReason s n h ∧
      rdB t Reg.RDU_CHSTS_PAIRED n = decide (pairReason s n h = 0) := by
  have hsame : pairReason { s with rdu := { s.rdu with hello := some h } } n h = pairReason s n h := rfl
  obtain ⟨hrsn, hpaired⟩ := judgeLink_reads { s with rdu := { s.rdu with hello := some h } } n h
  rw [hsame] at hrsn hpaired
  have hkept {g : Field} (hf : ∀ f ∈ Reg.RDU_PCLAIM_PARTNER :: Reg.RDU_STATUS_PMODE :: frameFields, g.id ≠ f.id)
      (hr : ∀ f ∈ recorderFields, g.id ≠ f.id) : rd (helloRx s n head h) g n =
        rd (judgeLink { s with rdu := { s.rdu with hello := some h } } n h) g n := by
    unfold helloRx
    rw [if_neg (by simp [hlock, hm])]
    have htaken := rd_chordTake (j := n) (fun f h => hf f (List.mem_cons_of_mem _ h)) hr (by omega)
      (judgeLink { s with rdu := { s.rdu with hello := some h } } n h) n head true
    exact ite_keeps (p := (rd · g n))
      ((rd_hearClaim (hf _ List.mem_cons_self) ⟨n.val, by omega⟩ _ _).trans htaken) htaken
  exact ⟨_, rfl, (hkept (by decide) (by decide)).trans hrsn, (rdB_of_rd (hkept (by decide) (by decide))).trans hpaired⟩

/-! ### KEEP and the gaps (R299) -/

/-- What a frame's header tells, and what stands of the numbers of the frames. -/
theorem noteFrame_tells (s : State) (head : ChordHead) : rd (noteFrame s head) Reg.RDU_STATUS_PMODE = modeCode head.mode ∧
    (noteFrame s head).rdu.partnerSave = head.save ∧ (noteFrame s head).rdu.silent = s.rdu.silent ∧
    (noteFrame s head).rdu.fseqIn = s.rdu.fseqIn ∧ (noteFrame s head).rdu.gaps = s.rdu.gaps := by
  have hlt : modeCode head.mode < 8 := by cases head.mode <;> decide
  have hblind : AskBlind (fun t => (t.rdu.partnerSave, t.rdu.silent, t.rdu.fseqIn, t.rdu.gaps)) :=
    ⟨⟨fun _ _ _ _ => rfl, fun _ _ _ _ => by rw [event_rdu], fun _ _ => rfl, fun _ _ _ _ => rfl⟩, fun _ _ => rfl,
      fun _ _ _ _ => rfl⟩
  have hrdu := hblind.noteFrame s head
  have hmode := (askBlind_rd (g := Reg.RDU_STATUS_PMODE) (j := 0) (by decide) (by decide) (by decide)).noteFrame s head
  refine ⟨hmode.trans ((rd_wr_same s Reg.RDU_STATUS_PMODE 0 _).trans (Nat.mod_eq_of_lt hlt)), ?_⟩
  simpa only [noteTold, Prod.mk.injEq, wr_rdu] using hrdu

theorem exec_keep (n : Fin 2) (head : ChordHead) (s : State) :
    exec (.keep (.chord n) head) s = .next (chordTake s n head true).1 := rfl

theorem chordOpen_hello {s : State} {n : Fin 2} (hlock : rdB s Reg.RDU_CHSTS_LOCK n = true)
    (hm : resState s (chRes n) ≠ .retired) : chordOpen s n true = true := by simp [chordOpen, hlock, hm]

/-- A KEEP that is taken as new. -/
theorem keep_told {s : State} {n : Fin 2} {head : ChordHead} {f : BitVec 32} {g : List (BitVec 32 × Bool)}
    (hnew : chordTake s n head true = (noteFrame (chordHeard s f g) head, true)) :
    Completes (exec (.keep (.chord n) head) s) fun t => (rd t Reg.RDU_STATUS_PMODE = modeCode head.mode ∧
      t.rdu.partnerSave = head.save ∧ t.rdu.silent = false) ∧ t.rdu.fseqIn = some f ∧ t.rdu.gaps = g := by
  obtain ⟨hmode, hsave, hsilent, hseq, hgaps⟩ := noteFrame_tells (chordHeard s f g) head
  exact ⟨_, (exec_keep n head s).trans (congrArg (fun r => Host.Outcome.next (Prod.fst r)) hnew),
    ⟨hmode, hsave, hsilent⟩, hseq, hgaps⟩

section

variable {s : State} {n : Fin 2} (hopen : chordOpen s n true = true) {head : ChordHead}
include hopen

theorem keep_first (hnone : s.rdu.fseqIn = none) : Completes (exec (.keep (.chord n) head) s) fun t =>
    (rd t Reg.RDU_STATUS_PMODE = modeCode head.mode ∧ t.rdu.partnerSave = head.save ∧ t.rdu.silent = false) ∧
      t.rdu.fseqIn = some head.fseq ∧ t.rdu.gaps = [] := by
  refine keep_told ?_
  rw [chordTake_open hopen, hnone]

variable {f : BitVec 32} (hf : s.rdu.fseqIn = some f)
include hf

theorem keep_newer (hnew : newer32 head.fseq f = true) : Completes (exec (.keep (.chord n) head) s) fun t =>
    (rd t Reg.RDU_STATUS_PMODE = modeCode head.mode ∧ t.rdu.partnerSave = head.save ∧ t.rdu.silent = false) ∧
      t.rdu.fseqIn = some head.fseq ∧ t.rdu.gaps = s.rdu.gaps ++ framesMissed f head.fseq := by
  refine keep_told ?_
  rw [chordTake_open hopen, hf]
  exact if_pos hnew

variable (hold : newer32 head.fseq f = false)
include hold

theorem keep_gap (hgap : head.fseq ∈ s.rdu.gaps.map (·.1)) : Completes (exec (.keep (.chord n) head) s) fun t =>
    (rd t Reg.RDU_STATUS_PMODE = modeCode head.mode ∧ t.rdu.partnerSave = head.save ∧ t.rdu.silent = false) ∧
      t.rdu.fseqIn = some f ∧ t.rdu.gaps = s.rdu.gaps.filter fun g => g.1 ≠ head.fseq := by
  have hany : s.rdu.gaps.any (·.1 = head.fseq) = true := by
    obtain ⟨g, hg, heq⟩ := List.mem_map.1 hgap
    exact List.any_eq_true.2 ⟨g, hg, decide_eq_true heq⟩
  refine keep_told ?_
  rw [chordTake_open hopen, hf]
  exact (if_neg (by simp [hold])).trans (if_pos hany)

theorem keep_taken (hgap : head.fseq ∉ s.rdu.gaps.map (·.1)) : exec (.keep (.chord n) head) s =
    .next { s with rdu := { s.rdu with silent := false } } := by
  have hany : ¬ s.rdu.gaps.any (·.1 = head.fseq) = true := fun h => by
    obtain ⟨g, hg, heq⟩ := List.any_eq_true.1 h
    exact hgap (List.mem_map.2 ⟨g, hg, of_decide_eq_true heq⟩)
  have htake : chordTake s n head true = ({ s with rdu := { s.rdu with silent := false } }, false) := by
    rw [chordTake_open hopen, hf]
    exact (if_neg (by simp [hold])).trans (if_neg hany)
  exact (exec_keep n head s).trans (congrArg (fun r => Host.Outcome.next (Prod.fst r)) htake)

end

/-- The gaps not yet requested are none exactly when every gap is marked. -/
theorem gapsAsked_isEmpty (l : List (BitVec 32 × Bool)) :
    ((l.filter fun g => !g.2).map (·.1)).isEmpty = true ↔ false ∉ l.map (·.2) := by
  rw [List.isEmpty_iff, List.map_eq_nil_iff, List.filter_eq_nil_iff, List.mem_map]
  constructor
  · rintro h ⟨g, hg, hfalse⟩
    exact h g hg (by simp [hfalse])
  · intro h g hg hnot
    exact h ⟨g, hg, by simpa using hnot⟩

/-- Why a link pairs (Table 13.17). -/
theorem pairReason_eq_zero (s : State) (n : Nat) (h : Hello) : pairReason s n h = 0 ↔
    rdB s Reg.RDU_CFG_PAIRED = true ∧ h.side ≠ ownSide s ∧ h.ticklen = rd s Reg.TBC_TICKCFG_TICKLEN ∧
    h.agree = rd s Reg.TBC_TICKCFG_AGREE ∧ rd s Reg.TBC_TICKCFG_AGREE ≤ 40 ∧ h.version = 1 ∧
    rdB s Reg.RDU_CHSTS_LOCK n = true ∧ resState s (chRes n) ≠ .retired ∧
    (rd s Reg.RDU_CHLAT_LAT n + 1000) * 100 ≤ rd s Reg.TBC_TICKCFG_AGREE * (rd s Reg.TBC_TICKCFG_TICKLEN * 10000) := by
  have hfit : chFit s n = true ↔ rdB s Reg.RDU_CHSTS_LOCK n = true ∧ resState s (chRes n) ≠ .retired ∧
      (rd s Reg.RDU_CHLAT_LAT n + 1000) * 100 ≤ rd s Reg.TBC_TICKCFG_AGREE * (rd s Reg.TBC_TICKCFG_TICKLEN * 10000) := by
    unfold chFit tickNs
    simp only [Bool.and_eq_true, decide_eq_true_eq, and_assoc]
  rw [← hfit]
  unfold pairReason
  dsimp only
  split_ifs <;> simp_all
  omega

/-- Settles O50: the lock, the lanes and the HELLO of a link that trains; its loss, its upset and its latency; the judgement of a
HELLO; and of a frame's header by the number it carries. -/
theorem chordLink : Obligations.ChordLink := by
  refine ⟨fun s n hm => ⟨fun lanes rate lat hl => chordTrained_completes hm hl rate lat, ⟨_, rfl, chDown_reads hm⟩,
    chordCrc_completes, fun hlock lat => ?_, fun hlock => ⟨fun lat => ⟨_, rfl, rd_latency hlock lat⟩, hello_completes hlock hm,
      fun head => ?_⟩, fun hgap => ?_, fun hgap => ?_⟩,
    fun s n h => ⟨pairReason_eq_zero s n h, fun hcfg hside => ?_, pairReason_le s n h⟩⟩
  · exact congrArg Host.Outcome.next (if_pos (by simp [hlock]))
  · intro told
    have hopen := chordOpen_hello hlock hm
    exact ⟨keep_first hopen, fun f hf => keep_newer hopen hf, fun f hf hold => keep_gap hopen hf hold,
      fun f hf hold => keep_taken hopen hf hold⟩
  · refine ⟨_, congrArg Host.Outcome.next (if_neg ?_), rfl, rfl⟩
    rw [gapsAsked_isEmpty]
    exact not_not_intro hgap
  · exact congrArg Host.Outcome.next (if_pos ((gapsAsked_isEmpty _).2 hgap))
  · unfold pairReason
    simp [hcfg, hside]

end Sys2Proof.Machine
end

section
/-! SUPPORT. Recall of an empty store, the key check and the end of RECALL (R308, R341, R354, R386, R404, R414): what is recalled,
and that starting the units from nothing leaves it. -/

namespace Sys2Proof.Machine

/-! ### What recall shows -/

/-- The fields that recall shows, and those its course depends on. -/
def recalledFields : List Field := [Reg.SSU_MODE_MODE, Reg.NVS_STATUS_RECALL, Reg.NVS_STATUS_RECUS, Reg.RDU_CLAIM_OWN,
  Reg.NVS_STATUS_SPARES, Reg.EVR_PCC_PCC, Reg.EVR_OPSEC_OPSEC, Reg.RDU_CFG_PAIRED, Reg.LSV_TILESTS_MSTATE]

/-- What recall has found: its fields, the store, what the supervisor and the partner say. -/
def recallView (s : State) : (Field → Fin 16 → Nat) × NvsSt × (Bool × Bool × Otp × Straps × Bool) × Option Hello :=
  (fun g i => if g ∈ recalledFields then rd s g i else 0, s.nvs,
    (s.ssu.recalled, s.ssu.bistDone, s.ssu.otp, s.ssu.straps, s.ssu.bistReq), s.rdu.hello)

theorem rd_of_recallView {s t : State} (h : recallView t = recallView s) {g : Field} (hg : g ∈ recalledFields) (i : Fin 16) :
    rd t g i = rd s g i := by
  have hread := congrFun (congrFun (congrArg Prod.fst h) g) i
  simpa only [recallView, if_pos hg] using hread

theorem read_of_recallView {s t : State} (h : recallView t = recallView s) {g : Field} (hg : g ∈ recalledFields) :
    rd t g = rd s g := rd_of_recallView h hg 0

theorem keeps_of_recallView {s t : State} (h : recallView t = recallView s) : t.nvs = s.nvs ∧ t.rdu.hello = s.rdu.hello ∧
    t.ssu.recalled = s.ssu.recalled ∧ t.ssu.bistDone = s.ssu.bistDone ∧ t.ssu.otp = s.ssu.otp ∧
    t.ssu.straps = s.ssu.straps ∧ t.ssu.bistReq = s.ssu.bistReq := by
  simp only [recallView, Prod.mk.injEq] at h
  obtain ⟨-, hnvs, ⟨hrecalled, hdone, hotp, hstraps, hreq⟩, hhello⟩ := h
  exact ⟨hnvs, hhello, hrecalled, hdone, hotp, hstraps, hreq⟩

theorem recallView_wr {f : Field} (hf : ∀ g ∈ recalledFields, g.id ≠ f.id) {i : Nat} (hi : i < 8192) (s : State) (v : Nat) :
    recallView (wr s f v i) = recallView s := by
  refine Prod.ext (funext fun g => funext fun j => ?_) rfl
  by_cases hg : g ∈ recalledFields
  · exact (if_pos hg).trans ((rd_wr_of_id_ne (hf g hg) hi (by omega) s v).trans (if_pos hg).symm)
  · exact (if_neg hg).trans (if_neg hg).symm

/-! ### The units started from nothing -/

theorem recallView_showLink (s : State) {n : Nat} (hn : n < 8192) : recallView (showLink s n) = recallView s :=
  ite_keeps (p := recallView) rfl ((recallView_wr (by decide) hn _ _).trans (recallView_wr (by decide) hn s _))

/-- A unit that is not paired by its configuration shows no partner. -/
theorem recallView_showRdu {s : State} (h : rdB s Reg.RDU_CFG_PAIRED = false) : recallView (showRdu s) = recallView s := by
  have hstate : pairState s = 0 := by
    unfold pairState
    rw [h]
    rfl
  unfold showRdu
  rw [hstate]
  rw [if_neg fun h => absurd h.1 (by decide)]
  exact (recallView_wr (by decide) (by decide) _ _).trans <| (recallView_wr (by decide) (by decide) _ _).trans <|
    (recallView_wr (by decide) (by decide) _ _).trans <| (recallView_wr (by decide) (by decide) _ _).trans
      (recallView_wr (by decide) (by decide) s _)

theorem recallView_showCsc (s : State) : recallView (showCsc s) = recallView s :=
  (recallView_wr (by decide) (by decide) _ _).trans <| (recallView_wr (by decide) (by decide) _ _).trans <|
    (recallView_wr (by decide) (by decide) _ _).trans (recallView_wr (by decide) (by decide) s _)

theorem recallView_showLinks (s : State) : recallView (showLinks s) = recallView s := by
  have hport (t : State) (p : Fin 16) : recallView (showPort t p) = recallView t :=
    (recallView_wr (by decide) (by omega) _ _).trans (recallView_wr (by decide) (by omega) t _)
  exact (recallView_wr (by decide) (by decide) _ _).trans <| (recallView_wr (by decide) (by decide) _ _).trans
    (foldl_keeps recallView hport _ s)

theorem tilesUp_of_recallView {s t : State} (h : recallView t = recallView s) : tilesUp t = tilesUp s := by
  unfold tilesUp
  refine congrArg List.length (List.filter_congr fun i hi => ?_)
  have hread := rd_of_recallView h (g := Reg.LSV_TILESTS_MSTATE) (by decide) ⟨i, List.mem_range.1 hi⟩
  unfold tileState
  rw [hread]

theorem recallView_showTiles {s : State} (h : 0 < tilesUp s) : recallView (showTiles s) = recallView s := by
  have hkept (v : Nat) : recallView (wr s Reg.LSV_STATUS_TILES v) = recallView s := recallView_wr (by decide) (by decide) s v
  have hup : tilesUp (wr s Reg.LSV_STATUS_TILES (tilesUp s)) ≠ 0 := by
    rw [tilesUp_of_recallView (hkept _)]
    omega
  exact (congrArg recallView (if_neg hup)).trans (hkept _)

theorem recallView_setTime (s : State) (t : Nat) : recallView (setTime s t) = recallView s := by
  have hswap (u : State) (k : Nat) : recallView (moveSwap u k) = recallView u := by
    unfold moveSwap
    split
    · exact (recallView_wr (by decide) (by decide) _ _).trans (recallView_wr (by decide) (by decide) _ _)
    · rfl
  exact (hswap (moveTimes s s.tb.tick (t / tickNs s) s.tb.now t) (t / tickNs s)).trans rfl

/-- A unit that has heard no partner and is paired with none by its configuration. -/
def Alone (s : State) : Prop := s.rdu.hello = none ∧ rdB s Reg.RDU_CFG_PAIRED = false

theorem Alone.of_view {s t : State} (hs : Alone s) (h : recallView t = recallView s) : Alone t :=
  ⟨(keeps_of_recallView h).2.1.trans hs.1, (rdB_of_rd (read_of_recallView h (by decide))).trans hs.2⟩

/-- What a change of the tick does to a link. -/
def tickJudged (s : State) (n : Nat) : State :=
  let s := showLink s n
  let s := match s.rdu.hello with
    | some h =>
      if rdB s Reg.RDU_CHSTS_PAIRED n || (decide (rd s Reg.RDU_CHSTS_RSN n ≠ 0) && rdB s Reg.RDU_CHSTS_LOCK n) then
        judgeLink s n h
      else showRdu s
    | none => showRdu s
  if rdB s Reg.RDU_CHSTS_LOCK n && rdB s Reg.RDU_CFG_PAIRED then sendHello s (Fin.ofNat 2 n) else s

theorem ticksChanged_eq (s : State) : ticksChanged s =
    [0, 1].foldl tickJudged (if tickOf s s.tb.now = s.tb.tick then s else setTime s s.tb.now) := rfl

theorem recallView_tickJudged {s : State} (h : Alone s) {n : Nat} (hn : n < 8192) :
    recallView (tickJudged s n) = recallView s := by
  have hlink := recallView_showLink s hn
  have hshown := (recallView_showRdu (h.of_view hlink).2).trans hlink
  have hnone := (h.of_view hlink).1
  have hpaired := (h.of_view hshown).2
  unfold tickJudged
  dsimp only
  rw [hnone]
  dsimp only
  rw [hpaired, Bool.and_false]
  exact hshown

/-- A unit that is alone judges no partner. -/
theorem recallView_ticksChanged {s : State} (h : Alone s) : recallView (ticksChanged s) = recallView s := by
  have hset : recallView (if tickOf s s.tb.now = s.tb.tick then s else setTime s s.tb.now) = recallView s :=
    ite_keeps rfl (recallView_setTime s _)
  have hfirst := (recallView_tickJudged (h.of_view hset) (n := 0) (by decide)).trans hset
  rw [ticksChanged_eq, List.foldl_cons, List.foldl_cons, List.foldl_nil,
    recallView_tickJudged (h.of_view hfirst) (by decide), hfirst]

theorem recallView_settingsDone (old : State) {s : State} (h : Alone s) : recallView (settingsDone old s) = recallView s :=
  ite_keeps rfl (recallView_ticksChanged h)

/-- The settings of a program at their reset values. -/
def settingsZero (s : State) : State :=
  (List.range 16).foldl (fun s i => wr s Reg.LSV_MBX0_MAXAGE (Reg.LSV_MBX0_MAXAGE.resetAt i) i)
    ([Reg.TBC_TICKCFG_TICKLEN, Reg.TBC_TICKCFG_AGREE, Reg.TBC_DISC_APEXEN, Reg.TBC_DISC_PTPEN, Reg.TBC_DISC_PTPPORT,
      Reg.TBC_DISC_QUALTIME, Reg.NVS_RETCFG_PERIOD].foldl (fun s f => wr s f (f.resetAt 0)) s)

theorem recallView_settingsZero (s : State) : recallView (settingsZero s) = recallView s :=
  (foldl_keeps_mem recallView
    (fun i hi u => recallView_wr (by decide) ((List.mem_range.1 hi).trans (by decide)) u _) _).trans
    (foldl_keeps_mem recallView (fun f hf u => recallView_wr (by revert f; decide) (by decide) u _) s)

theorem resetSettings_eq (s : State) : resetSettings s = settingsDone s (settingsZero s) := rfl

theorem recallView_resetSettings {s : State} (h : Alone s) : recallView (resetSettings s) = recallView s := by
  have hzero := recallView_settingsZero s
  rw [resetSettings_eq, recallView_settingsDone _ (h.of_view hzero), hzero]

theorem recRead_of_empty {s : State} (h : s.nvs.recs = []) (typ : Nat) : recRead s typ = none := by
  unfold recRead recGet
  rw [h]
  rfl

/-- Nothing is restored from a store without a slot record. -/
theorem recallView_bootImages {s : State} (h : Alone s) (hempty : s.nvs.recs = []) :
    recallView (bootImages s) = recallView s := by
  have hnone {t : State} (ht : t.nvs.recs = []) (facet : Bool) : liveImage t facet = none := by
    unfold liveImage
    rw [recRead_of_empty ht]
  have hreset := recallView_resetSettings h
  have hprogram : bootProgram s = resetSettings s := by
    unfold bootProgram
    rw [hnone hempty]
  have hfacet : bootFacet (resetSettings s) = resetSettings s := by
    unfold bootFacet
    rw [hnone ((congrArg NvsSt.recs (keeps_of_recallView hreset).1).trans hempty)]
  unfold bootImages
  rw [hprogram, hfacet]
  exact ite_keeps hreset hreset

theorem recallView_startTime (s : State) : recallView (startTime s) = recallView s :=
  ite_keeps rfl (recallView_setTime (countSub s) _)

/-! ### What recall finds in an empty store (R308, R341, R354) -/

/-- No resource retired, and every spare page there. -/
def nothingRetired (s : State) : State :=
  wr (wrB (wr { s with ssu := { s.ssu with retired := [], unlisted := 0 }, nvs := { s.nvs with remaps := [] } }
    Reg.SSU_SVCSTS_RETCNT 0) Reg.SSU_SVCSTS_RETFULL false) Reg.NVS_STATUS_SPARES sparePages

/-- The configuration without a record. -/
def configReset (s : State) : State :=
  { s with ssu := { s.ssu with bistReq := false, cleared := 0 },
           flds := s.flds.filter fun e => !configFields.any fun f => e.1 / 8192 = f.id }

/-- The metering records as recall found them. -/
def meterNoted (s : State) : State :=
  if s.mte.found.isSome then s else { s with mte := { s.mte with found := some (meterFound s) } }

/-- OPSEC and PCC as recall finds them without a record. -/
def timeFound (s : State) : State :=
  let s := wrB s Reg.SSU_RSTCAUSE_RESUMED false
  let s := wr s Reg.EVR_OPSEC_OPSEC
    (((match newestRecord s.evr.log with | some (_, sl) => sl.record.opsec.toNat | none => 0) + 1) % 2 ^ 32)
  wr s Reg.EVR_PCC_PCC (if rd s Reg.SSU_RSTCAUSE_KIND ≤ 1 then 1 else 0)

/-- The end of recall shown; nothing is staged. -/
def recallEnded (s : State) (us : Nat) : State :=
  let s := wr (wr s Reg.NVS_STATUS_RECALL 0) Reg.NVS_STATUS_RECUS us
  wr { s with evr := { s.evr with staging := [] } } Reg.EVR_STATUS_STAGED 0

/-- Recall of an empty store up to the time it finds. -/
def logFound (s : State) : State := recallLog (meterNoted (wr (configReset (nothingRetired s)) Reg.RDU_CLAIM_OWN 0))

/-- Recall of an empty store up to the writes it requests. -/
def emptyRecalled (s : State) (us : Nat) : State := recallEnded (recallCalendar (timeFound (logFound s))) us

/-- What recall up to there leaves as it is. -/
theorem meterNoted_cases (s : State) : ∃ m, meterNoted s = { s with mte := m } := by
  unfold meterNoted
  split
  · exact ⟨_, rfl⟩
  · exact ⟨_, rfl⟩

theorem logFound_keeps (s : State) : (logFound s).nvs = { s.nvs with remaps := [] } ∧ (logFound s).evr = s.evr ∧
    (logFound s).ssu = { s.ssu with retired := [], unlisted := 0, bistReq := false, cleared := 0 } ∧
    (logFound s).rdu = s.rdu := by
  obtain ⟨m, hm⟩ := meterNoted_cases (wr (configReset (nothingRetired s)) Reg.RDU_CLAIM_OWN 0)
  unfold logFound
  rw [hm]
  exact ⟨rfl, rfl, rfl, rfl⟩

theorem recallTime_of_empty {s : State} (hrecs : s.nvs.recs = []) (hbist : s.ssu.bistDone = false) :
    recallTime s = timeFound s := by
  have hpower := recRead_of_empty hrecs 4
  have hbeat : recRead (wrB s Reg.SSU_RSTCAUSE_RESUMED false) 0x31 = none := recRead_of_empty hrecs _
  have hdone : (wrB s Reg.SSU_RSTCAUSE_RESUMED false).ssu.bistDone = false := hbist
  unfold recallTime
  rw [hpower]
  dsimp only
  rw [hdone, hbeat]
  simp only [Bool.false_eq_true, if_false, Nat.zero_max]
  rfl

theorem stampStaged_of_none {s : State} (h : s.evr.staging = []) : stampStaged s =
    wr { s with evr := { s.evr with staging := [] } } Reg.EVR_STATUS_STAGED 0 := by
  unfold stampStaged
  rw [h]
  rfl

/-- Recall that has taken place. -/
def recalledNow (s : State) : State := { s with ssu := { s.ssu with recalled := true } }

/-- The power-cycle record requested and the units shown. -/
def recallSaved (s : State) : State :=
  showTiles (showCsc (showRdu (showLink (showLink (recalledNow
    (nvsSave s 3 (powerData s (rdB s Reg.SSU_RSTCAUSE_RESUMED)) .power)) 0) 1)))

/-- The images and the time restored, unless a test comes first. -/
def recallBooted (s : State) : State := showLinks (if bistWanted s then s else startTime (bootImages s))

section

variable {s : State} (hrecs : s.nvs.recs = []) (hstaging : s.evr.staging = []) (hbist : s.ssu.bistDone = false)
include hrecs hstaging hbist

theorem recallDone_of_empty (us : Nat) : recallDone s us = recallBooted (recallSaved (emptyRecalled s us)) := by
  have hretired : recallRetired s = nothingRetired s := by
    unfold recallRetired
    rw [recRead_of_empty hrecs]
    rfl
  have hconfig : recallConfig (nothingRetired s) = configReset (nothingRetired s) := by
    unfold recallConfig
    rw [recRead_of_empty (s := nothingRetired s) hrecs]
    rfl
  have hcal : recallCal (configReset (nothingRetired s)) = configReset (nothingRetired s) := by
    unfold recallCal
    rw [recRead_of_empty (s := configReset (nothingRetired s)) hrecs]
  have hclaim : recRead (configReset (nothingRetired s)) 2 = none := recRead_of_empty hrecs 2
  obtain ⟨hnvs, hevr, hssu, -⟩ := logFound_keeps s
  have htime : recallTime (logFound s) = timeFound (logFound s) :=
    recallTime_of_empty ((congrArg NvsSt.recs hnvs).trans hrecs) ((congrArg SsuSt.bistDone hssu).trans hbist)
  have hnone : (recallCalendar (timeFound (logFound s))).evr.staging = [] := by
    have hkept : (recallCalendar (timeFound (logFound s))).evr = (logFound s).evr := ite_keeps (p := State.evr) rfl rfl
    rw [hkept, hevr, hstaging]
  have hstamp : stampStaged (wr (wr (recallCalendar (timeFound (logFound s))) Reg.NVS_STATUS_RECALL 0)
      Reg.NVS_STATUS_RECUS us) = emptyRecalled s us := stampStaged_of_none hnone
  simp only [logFound, meterNoted] at htime hstamp
  unfold recallDone
  rw [hrecs]
  simp only [List.foldl_nil, hretired, hconfig, hcal, hclaim, htime, hstamp]
  generalize emptyRecalled s us = t
  rfl

end

theorem tget_filter {α : Type} (P : Nat → Bool) (t : Tbl α) (k : Nat) :
    tget (t.filter fun e => P e.1) k = if P k then tget t k else none := by
  induction t with
  | nil => simp [tget]
  | cons e t ih =>
    obtain ⟨k', v⟩ := e
    by_cases hk : k' = k
    · subst hk
      by_cases hP : P k' = true
      · simp [tget, hP]
      · simp [hP, ih]
    · by_cases hP : P k' = true
      · simp [tget, hP, hk, ih]
      · simp [tget, hP, hk, ih]

/-! ### The fields that recall of an empty store shows -/

section

variable {g : Field} {j : Nat} (hj : j < 8192) (s : State)
include hj

theorem rd_configReset (h : ∀ f ∈ configFields, g.id ≠ f.id) : rd (configReset s) g j = rd s g j := by
  have hkey : (g.key j) / 8192 = g.id := by
    unfold Field.key
    omega
  have hkept : (!configFields.any fun f => decide ((g.key j) / 8192 = f.id)) = true := by
    rw [hkey]
    simpa using h
  exact congrArg (fun x => x.getD (g.resetAt j))
    ((tget_filter (fun k => !configFields.any fun f => k / 8192 = f.id) s.flds (g.key j)).trans (if_pos hkept))

theorem rd_configReset_of_mem (h : g ∈ configFields) : rd (configReset s) g j = g.resetAt j := by
  have hkey : (g.key j) / 8192 = g.id := by
    unfold Field.key
    omega
  have hgone : (!configFields.any fun f => decide ((g.key j) / 8192 = f.id)) ≠ true := by
    rw [hkey]
    simpa using ⟨g, h, rfl⟩
  exact congrArg (fun x => x.getD (g.resetAt j))
    ((tget_filter (fun k => !configFields.any fun f => k / 8192 = f.id) s.flds (g.key j)).trans (if_neg hgone))

/-- The fields that recall sets when it finds nothing, besides the configuration and what it shows last. -/
def foundFields : List Field := [Reg.SSU_SVCSTS_RETCNT, Reg.SSU_SVCSTS_RETFULL, Reg.EVR_HEAD_HEAD, Reg.EVR_CURSOR_CURSOR,
  Reg.EVR_STATUS_WRAPPED, Reg.TBC_RTCSTS_CHKOK, Reg.TBC_TRIM_TRIM, Reg.TBC_TRIM_W,
  Reg.EVR_STATUS_STAGED]

variable (hf : ∀ f ∈ foundFields, g.id ≠ f.id)
include hf

theorem rd_nothingRetired (hs : g.id ≠ Reg.NVS_STATUS_SPARES.id) : rd (nothingRetired s) g j = rd s g j :=
  (rd_wr_of_id_ne hs (by decide) hj _ _).trans <| (rd_wr_of_id_ne (hf _ (by decide)) (by decide) hj _ _).trans
    (rd_wr_of_id_ne (hf _ (by decide)) (by decide) hj _ _)

theorem rd_logFound (hc : g.id ≠ Reg.RDU_CLAIM_OWN.id) : rd (logFound s) g j = rd (configReset (nothingRetired s)) g j := by
  obtain ⟨m, hm⟩ := meterNoted_cases (wr (configReset (nothingRetired s)) Reg.RDU_CLAIM_OWN 0)
  unfold logFound
  rw [hm]
  exact (rd_wr_of_id_ne (hf Reg.EVR_STATUS_WRAPPED (by decide)) (by decide) hj _ _).trans <|
    (rd_wr_of_id_ne (hf Reg.EVR_CURSOR_CURSOR (by decide)) (by decide) hj _ _).trans <|
    (rd_wr_of_id_ne (hf Reg.EVR_HEAD_HEAD (by decide)) (by decide) hj _ _).trans <|
    rd_wr_of_id_ne hc (by decide) hj (configReset (nothingRetired s)) 0

omit hf in
theorem rd_timeFound (hr : g.id ≠ Reg.SSU_RSTCAUSE_RESUMED.id) (ho : g.id ≠ Reg.EVR_OPSEC_OPSEC.id) (hp : g.id ≠ Reg.EVR_PCC_PCC.id) :
    rd (timeFound s) g j = rd s g j :=
  (rd_wr_of_id_ne hp (by decide) hj _ _).trans <| (rd_wr_of_id_ne ho (by decide) hj _ _).trans
    (rd_wr_of_id_ne hr (by decide) hj _ _)

theorem rd_recallCalendar : rd (recallCalendar s) g j = rd s g j := by
  have hread (t : State) : rd (wr (wr (wr t Reg.TBC_TRIM_TRIM 0) Reg.TBC_TRIM_W 16) Reg.TBC_RTCSTS_CHKOK 0) g j = rd t g j :=
    (rd_wr_of_id_ne (hf Reg.TBC_RTCSTS_CHKOK (by decide)) (by decide) hj _ _).trans <|
      (rd_wr_of_id_ne (hf Reg.TBC_TRIM_W (by decide)) (by decide) hj _ _).trans
        (rd_wr_of_id_ne (hf Reg.TBC_TRIM_TRIM (by decide)) (by decide) hj _ _)
  exact ite_keeps (p := (rd · g j)) (rd_wr_of_id_ne (hf Reg.TBC_RTCSTS_CHKOK (by decide)) (by decide) hj _ _)
    (hread { s with rtc := { s.rtc with secs := 0, sub := 0, trim := 0, w := 16, check := true } })

/-- A field that recall shows before its end. -/
theorem rd_emptyRecalled (hr : g.id ≠ Reg.NVS_STATUS_RECALL.id) (hu : g.id ≠ Reg.NVS_STATUS_RECUS.id) (us : Nat) :
    rd (emptyRecalled s us) g j = rd (timeFound (logFound s)) g j :=
  ((rd_wr_of_id_ne (hf Reg.EVR_STATUS_STAGED (by decide)) (by decide) hj _ _).trans <|
    (rd_wr_of_id_ne hu (by decide) hj _ _).trans (rd_wr_of_id_ne hr (by decide) hj _ _)).trans
    (rd_recallCalendar hj _ hf)

end

/-- A field that recall of an empty store leaves as it is. -/
theorem rd_emptyRecalled_kept {g : Field} {j : Nat} (hj : j < 8192) (s : State) (hf : ∀ f ∈ foundFields, g.id ≠ f.id)
    (hcfg : ∀ f ∈ configFields, g.id ≠ f.id)
    (hset : ∀ f ∈ [Reg.SSU_RSTCAUSE_RESUMED, Reg.NVS_STATUS_RECALL, Reg.NVS_STATUS_RECUS, Reg.EVR_OPSEC_OPSEC, Reg.EVR_PCC_PCC,
      Reg.RDU_CLAIM_OWN, Reg.NVS_STATUS_SPARES], g.id ≠ f.id) (us : Nat) : rd (emptyRecalled s us) g j = rd s g j := by
  rw [rd_emptyRecalled hj s hf (hset _ (by decide)) (hset _ (by decide)), rd_timeFound hj _ (hset _ (by decide))
    (hset _ (by decide)) (hset _ (by decide)), rd_logFound hj s hf (hset _ (by decide)), rd_configReset hj _ hcfg,
    rd_nothingRetired hj s hf (hset _ (by decide))]

theorem timeFound_reads (s : State) : rd (timeFound s) Reg.EVR_OPSEC_OPSEC =
      ((match newestRecord s.evr.log with | some (_, sl) => sl.record.opsec.toNat | none => 0) + 1) % 2 ^ 32 ∧
    rd (timeFound s) Reg.EVR_PCC_PCC = (if rd s Reg.SSU_RSTCAUSE_KIND ≤ 1 then 1 else 0) := by
  have hkind (v : Nat) : rd (wr (wrB s Reg.SSU_RSTCAUSE_RESUMED false) Reg.EVR_OPSEC_OPSEC v) Reg.SSU_RSTCAUSE_KIND =
      rd s Reg.SSU_RSTCAUSE_KIND := by
    unfold wrB
    rw [rd_wr_ne (by decide), rd_wr_ne (by decide)]
  refine ⟨?_, ?_⟩
  · refine (rd_wr_ne (by decide) _ _).trans ((rd_wr_same _ _ _ _).trans ?_)
    exact Nat.mod_mod_of_dvd _ (dvd_refl _)
  · refine (rd_wr_same _ _ _ _).trans ?_
    rw [hkind]
    split <;> rfl

theorem emptyRecalled_reads (s : State) (us : BitVec 12) :
    rd (emptyRecalled s us.toNat) Reg.NVS_STATUS_RECALL = 0 ∧
    rd (emptyRecalled s us.toNat) Reg.NVS_STATUS_RECUS = us.toNat ∧
    rd (emptyRecalled s us.toNat) Reg.RDU_CLAIM_OWN = 0 ∧
    rd (emptyRecalled s us.toNat) Reg.NVS_STATUS_SPARES = sparePages ∧
    rd (emptyRecalled s us.toNat) Reg.RDU_CFG_PAIRED = 0 ∧
    rd (emptyRecalled s us.toNat) Reg.SSU_RSTCAUSE_RESUMED = 0 := by
  have hconfigured {g : Field} (hf : ∀ f ∈ foundFields, g.id ≠ f.id) (hr : g.id ≠ Reg.NVS_STATUS_RECALL.id)
      (hu : g.id ≠ Reg.NVS_STATUS_RECUS.id) (hd : g.id ≠ Reg.SSU_RSTCAUSE_RESUMED.id) (ho : g.id ≠ Reg.EVR_OPSEC_OPSEC.id) (hp : g.id ≠ Reg.EVR_PCC_PCC.id) :
      rd (emptyRecalled s us.toNat) g = rd (logFound s) g :=
    (rd_emptyRecalled (by decide) s hf hr hu _).trans (rd_timeFound (by decide) _ hd ho hp)
  refine ⟨?_, ?_, ?_, ?_, ?_, ?_⟩
  · unfold emptyRecalled recallEnded
    exact (rd_wr_ne (by decide) _ _).trans <| (rd_wr_ne (by decide) _ _).trans (rd_wr_same _ _ _ _)
  · unfold emptyRecalled recallEnded
    exact (rd_wr_ne (by decide) _ _).trans <| (rd_wr_same _ _ _ _).trans (Nat.mod_eq_of_lt us.isLt)
  · rw [hconfigured (by decide) (by decide) (by decide) (by decide) (by decide) (by decide)]
    obtain ⟨m, hm⟩ := meterNoted_cases (wr (configReset (nothingRetired s)) Reg.RDU_CLAIM_OWN 0)
    unfold logFound
    rw [hm]
    exact (rd_wr_ne (by decide) _ _).trans <| (rd_wr_ne (by decide) _ _).trans <| (rd_wr_ne (by decide) _ _).trans
      (rd_wr_same (configReset (nothingRetired s)) Reg.RDU_CLAIM_OWN 0 0)
  · rw [hconfigured (by decide) (by decide) (by decide) (by decide) (by decide) (by decide),
      rd_logFound (by decide) s (by decide) (by decide), rd_configReset (by decide) _ (by decide)]
    exact rd_wr_same _ Reg.NVS_STATUS_SPARES 0 sparePages
  · rw [hconfigured (by decide) (by decide) (by decide) (by decide) (by decide) (by decide),
      rd_logFound (by decide) s (by decide) (by decide), rd_configReset_of_mem (by decide) _ (by decide)]
    rfl
  · have hresumed : rd (timeFound (logFound s)) Reg.SSU_RSTCAUSE_RESUMED = 0 :=
      (rd_wr_ne (by decide) _ _).trans <| (rd_wr_ne (by decide) _ _).trans (rd_wr_same _ _ _ _)
    exact (rd_emptyRecalled (by decide) s (by decide) (by decide) (by decide) _).trans hresumed

theorem emptyRecalled_time (s : State) (us : Nat) : rd (emptyRecalled s us) Reg.EVR_OPSEC_OPSEC =
      ((match newestRecord s.evr.log with | some (_, sl) => sl.record.opsec.toNat | none => 0) + 1) % 2 ^ 32 ∧
    rd (emptyRecalled s us) Reg.EVR_PCC_PCC = (if rd s Reg.SSU_RSTCAUSE_KIND ≤ 1 then 1 else 0) := by
  obtain ⟨hopsec, hpcc⟩ := timeFound_reads (logFound s)
  obtain ⟨-, hevr, -, -⟩ := logFound_keeps s
  have hkind : rd (logFound s) Reg.SSU_RSTCAUSE_KIND = rd s Reg.SSU_RSTCAUSE_KIND := by
    rw [rd_logFound (by decide) s (by decide) (by decide), rd_configReset (by decide) _ (by decide),
      rd_nothingRetired (by decide) s (by decide) (by decide)]
  rw [hevr] at hopsec
  rw [hkind] at hpcc
  exact ⟨(rd_emptyRecalled (by decide) s (by decide) (by decide) (by decide) _).trans hopsec,
    (rd_emptyRecalled (by decide) s (by decide) (by decide) (by decide) _).trans hpcc⟩

/-! ### Recall of an empty store as a whole -/

theorem recallCalendar_keeps (s : State) : (recallCalendar s).nvs = s.nvs ∧ (recallCalendar s).ssu = s.ssu ∧
    (recallCalendar s).rdu = s.rdu :=
  ⟨ite_keeps (p := State.nvs) rfl rfl, ite_keeps (p := State.ssu) rfl rfl, ite_keeps (p := State.rdu) rfl rfl⟩

theorem emptyRecalled_keeps (s : State) (us : Nat) : (emptyRecalled s us).nvs = { s.nvs with remaps := [] } ∧
    (emptyRecalled s us).ssu = { s.ssu with retired := [], unlisted := 0, bistReq := false, cleared := 0 } ∧
    (emptyRecalled s us).rdu = s.rdu := by
  obtain ⟨hnvs, -, hssu, hrdu⟩ := logFound_keeps s
  obtain ⟨hcnvs, hcssu, hcrdu⟩ := recallCalendar_keeps (timeFound (logFound s))
  exact ⟨hcnvs.trans hnvs, hcssu.trans hssu, hcrdu.trans hrdu⟩

/-- The request that recall leaves: the power-cycle record. -/
def powerReq (s : State) : WriteReq :=
  ⟨3, .record 4 (.power (BitVec.ofNat 24 (rd s Reg.EVR_PCC_PCC)) (rdB s Reg.SSU_RSTCAUSE_RESUMED)), .power⟩

/-- Recall that has requested the power-cycle record. -/
def powerAsked (s : State) : State := recalledNow (setQueue s [powerReq s])

theorem rd_powerAsked {g : Field} (hg : g.id ≠ Reg.NVS_WQ_DEPTH.id) {j : Nat} (hj : j < 8192) (s : State) :
    rd (powerAsked s) g j = rd s g j := by
  have hflds : (powerAsked s).flds = (setQueue s [powerReq s]).flds := rfl
  rw [rd_eq, hflds]
  exact rd_setQueue (key_ne_of_id hg (by decide) hj) s [powerReq s]

/-- A unit alone whose recall is over shows what it has found and requested. -/
theorem recallView_recallSaved {s : State} (halone : Alone s) (hr : recalling s = false) (hq : s.nvs.queue = [])
    (htiles : 0 < tilesUp s) : recallView (recallSaved s) = recallView (powerAsked s) := by
  have hsave : nvsSave s 3 (powerData s (rdB s Reg.SSU_RSTCAUSE_RESUMED)) .power = setQueue s [powerReq s] :=
    nvsSave_of_idle hr (power_fits s _ _) hq
  have hasked : Alone (powerAsked s) :=
    ⟨halone.1, (rdB_of_rd (rd_powerAsked (by decide) (by decide) s)).trans halone.2⟩
  have hup : tilesUp (powerAsked s) = tilesUp s := by
    unfold tilesUp
    refine congrArg List.length (List.filter_congr fun i hi => ?_)
    unfold tileState
    rw [rd_powerAsked (by decide) ((List.mem_range.1 hi).trans (by decide))]
  have hlinks : recallView (showLink (showLink (powerAsked s) 0) 1) = recallView (powerAsked s) :=
    (recallView_showLink _ (by decide)).trans (recallView_showLink _ (by decide))
  have hshown := (recallView_showCsc _).trans ((recallView_showRdu (hasked.of_view hlinks).2).trans hlinks)
  have hpos := (tilesUp_of_recallView hshown).trans hup
  unfold recallSaved
  rw [hsave]
  exact (recallView_showTiles (hpos.symm ▸ htiles)).trans hshown

/-- No test being wanted, the rest of recall leaves what it has found. -/
theorem recallView_recallBooted {s : State} (halone : Alone s) (hrecs : s.nvs.recs = []) (hwant : bistWanted s = false) :
    recallView (recallBooted s) = recallView s := by
  unfold recallBooted
  rw [hwant]
  exact (recallView_showLinks _).trans ((recallView_startTime _).trans (recallView_bootImages halone hrecs))

theorem bistWanted_of_view {s t : State} (h : recallView t = recallView s) : bistWanted t = bistWanted s := by
  obtain ⟨-, -, -, hdone, hotp, hstraps, hreq⟩ := keeps_of_recallView h
  unfold bistWanted
  rw [hdone, hotp, hstraps, hreq]

theorem recallComplete_empty {s : State} (us : BitVec 12) (hm : modeIs s = .recall)
    (hr : rdB s Reg.NVS_STATUS_RECALL = true) (hrecs : s.nvs.recs = []) (hq : s.nvs.queue = [])
    (hstaging : s.evr.staging = []) (hwant : bistWanted s = false) (hreq : s.ssu.bistReq = false)
    (hdone : s.ssu.bistDone = false) (htiles : 0 < tilesUp s) (hhello : s.rdu.hello = none) :
    Completes (exec (.nvsRecallComplete us) s) fun t =>
      modeIs t = .recall ∧ t.ssu.recalled = true ∧ rdB t Reg.NVS_STATUS_RECALL = false ∧
      rd t Reg.NVS_STATUS_RECUS = us.toNat ∧ rd t Reg.RDU_CLAIM_OWN = 0 ∧ rd t Reg.NVS_STATUS_SPARES = sparePages ∧
      rd t Reg.EVR_PCC_PCC = (if rd s Reg.SSU_RSTCAUSE_KIND ≤ 1 then 1 else 0) ∧
      rd t Reg.EVR_OPSEC_OPSEC =
        ((match newestRecord s.evr.log with | some (_, sl) => sl.record.opsec.toNat | none => 0) + 1) % 2 ^ 32 ∧
      t.nvs.queue = [⟨3, .record 4 (.power (BitVec.ofNat 24 (rd t Reg.EVR_PCC_PCC)) false), .power⟩] := by
  obtain ⟨hrecall, hrecus, hclaim, hspares, hpaired, hresumed⟩ := emptyRecalled_reads s us
  obtain ⟨hopsec, hpcc⟩ := emptyRecalled_time s us.toNat
  obtain ⟨hnvs, hssu, hrdu⟩ := emptyRecalled_keeps s us.toNat
  have hmode : modeIs (emptyRecalled s us.toNat) = .recall :=
    (modeIs_of_rd (rd_emptyRecalled_kept (by decide) s (by decide) (by decide) (by decide) _)).trans hm
  have hup : tilesUp (emptyRecalled s us.toNat) = tilesUp s := by
    unfold tilesUp
    refine congrArg List.length (List.filter_congr fun i hi => ?_)
    unfold tileState
    rw [rd_emptyRecalled_kept ((List.mem_range.1 hi).trans (by decide)) s (by decide) (by decide) (by decide)]
  have hdoneAll := recallDone_of_empty hrecs hstaging hdone us.toNat
  generalize emptyRecalled s us.toNat = e at *
  have halone : Alone e := ⟨(congrArg RduSt.hello hrdu).trans hhello, by simp [rdB, hpaired]⟩
  have hrecalling : recalling e = false := by simp [recalling, rdB, hrecall]
  have hsaved := recallView_recallSaved halone hrecalling ((congrArg NvsSt.queue hnvs).trans hq) (hup.symm ▸ htiles)
  have hkept := keeps_of_recallView hsaved
  have hwantSaved : bistWanted (recallSaved e) = false := by
    have hasked : (powerAsked e).ssu = { e.ssu with recalled := true } := rfl
    rw [bistWanted_of_view hsaved, ← hwant]
    unfold bistWanted
    rw [hasked, hssu, hreq]
  have haloneSaved : Alone (recallSaved e) := by
    refine ⟨hkept.2.1.trans halone.1, ?_⟩
    rw [rdB_of_rd (read_of_recallView hsaved (by decide))]
    exact (rdB_of_rd (rd_powerAsked (by decide) (by decide) e)).trans halone.2
  have hrecsSaved : (recallSaved e).nvs.recs = [] :=
    (congrArg NvsSt.recs hkept.1).trans ((congrArg NvsSt.recs hnvs).trans hrecs)
  have hview := (recallView_recallBooted haloneSaved hrecsSaved hwantSaved).trans hsaved
  have hread {g : Field} (hg : g ∈ recalledFields) : rd (recallBooted (recallSaved e)) g = rd e g :=
    (read_of_recallView hview hg).trans (rd_powerAsked (by revert g; decide) (by decide) e)
  have hexec : exec (.nvsRecallComplete us) s = .next (recallBooted (recallSaved e)) := by
    have hruns : recalling s = true := by simp [recalling, hm, hr]
    refine (congrArg Host.Outcome.next (if_pos hruns)).trans ?_
    rw [hdoneAll]
    refine congrArg Host.Outcome.next (if_neg fun h => ?_)
    rw [bistWanted_of_view hview, ← bistWanted_of_view hsaved, hwantSaved] at h
    exact absurd h.2.2.2 (by decide)
  refine ⟨_, hexec, (modeIs_of_rd (hread (by decide))).trans hmode, (keeps_of_recallView hview).2.2.1, ?_,
    (hread (by decide)).trans hrecus, (hread (by decide)).trans hclaim, (hread (by decide)).trans hspares,
    (hread (by decide)).trans hpcc, (hread (by decide)).trans hopsec, ?_⟩
  · simp [rdB, hread (g := Reg.NVS_STATUS_RECALL) (by decide), hrecall]
  · refine (congrArg NvsSt.queue (keeps_of_recallView hview).1).trans ?_
    show [powerReq e] = _
    unfold powerReq
    rw [hread (g := Reg.EVR_PCC_PCC) (by decide)]
    simp [rdB, hresumed]

/-! ### The key check (R404, R414) -/

/-- The root slots shown. -/
def keysShown (s : State) : State := wr (showOtp s) Reg.SSU_SECSTS_BOOTSRC s.ssu.straps.bootSrc.val

/-- The test access port locked when a root is usable. -/
def keysLocked (s : State) : State :=
  let t := wrB (keysShown s) Reg.SSU_SECSTS_JTAGLOCK (decide (0 < rd (keysShown s) Reg.SSU_SECSTS_USABLE))
  { t with ssu := { t.ssu with keyed := true } }

/-- A locked port that does not hold IDCODE selects BYPASS. -/
def tapShut (s : State) : State :=
  if tapLocked s ∧ s.ssu.tap ≠ .idcode then { s with ssu := { s.ssu with tap := .bypass } } else s

theorem keyCheck_eq (s : State) : keyCheck s = tapShut (keysLocked s) := rfl

theorem keysLocked_reads (s : State) :
    rd (keysLocked s) Reg.SSU_SECSTS_USABLE = rootMask s rootUsable % 2 ^ Reg.SSU_SECSTS_USABLE.width ∧
    rd (keysLocked s) Reg.SSU_SECSTS_BOOTSRC = s.ssu.straps.bootSrc.val ∧
    rdB (keysLocked s) Reg.SSU_SECSTS_JTAGLOCK = decide (0 < rd (keysLocked s) Reg.SSU_SECSTS_USABLE) ∧
    rd (keysLocked s) Reg.SSU_MODE_MODE = rd s Reg.SSU_MODE_MODE := by
  have husable : rd (keysLocked s) Reg.SSU_SECSTS_USABLE = rd (keysShown s) Reg.SSU_SECSTS_USABLE := rd_wr_ne (by decide) _ _
  refine ⟨?_, ?_, ?_, ?_⟩
  · rw [husable]
    unfold keysShown showOtp wrB
    simp (disch := decide) only [rd_wr_ne, rd_wr_same]
  · have hboot : rd (keysLocked s) Reg.SSU_SECSTS_BOOTSRC = rd (keysShown s) Reg.SSU_SECSTS_BOOTSRC := rd_wr_ne (by decide) _ _
    rw [hboot]
    unfold keysShown
    rw [rd_wr_same]
    exact Nat.mod_eq_of_lt s.ssu.straps.bootSrc.isLt
  · rw [husable]
    exact rdB_wrB_same rfl _ _ _
  · have hmode : rd (keysLocked s) Reg.SSU_MODE_MODE = rd (keysShown s) Reg.SSU_MODE_MODE := rd_wr_ne (by decide) _ _
    rw [hmode]
    unfold keysShown showOtp wrB
    simp (disch := decide) only [rd_wr_ne]

theorem tapShut_reads (s : State) : (tapShut s).flds = s.flds ∧ (tapShut s).ssu.keyed = s.ssu.keyed ∧
    (tapShut s).ssu.recalled = s.ssu.recalled ∧ bistWanted (tapShut s) = bistWanted s ∧
    (tapShut s).ssu.tap = if tapLocked s ∧ s.ssu.tap ≠ .idcode then .bypass else s.ssu.tap := by
  unfold tapShut
  split <;> exact ⟨rfl, rfl, rfl, rfl, rfl⟩

theorem tapLocked_keysLocked (s : State) : tapLocked (keysLocked s) = true ↔
    s.ssu.otp.jtagOff = true ∨ 0 < rd (keysLocked s) Reg.SSU_SECSTS_USABLE := by
  obtain ⟨-, -, hlock, -⟩ := keysLocked_reads s
  unfold tapLocked
  rw [hlock, Bool.or_eq_true, decide_eq_true_eq]
  exact Iff.rfl

theorem keyCheck_completes {s : State} (hm : modeIs s = .recall) (h : s.ssu.recalled = false ∨ bistWanted s = false) :
    Completes (exec .keyCheckComplete s) fun t =>
      t.ssu.keyed = true ∧ rdB t Reg.SSU_SECSTS_JTAGLOCK = decide (0 < rd t Reg.SSU_SECSTS_USABLE) ∧
      rd t Reg.SSU_SECSTS_USABLE = rootMask s rootUsable % 2 ^ Reg.SSU_SECSTS_USABLE.width ∧
      rd t Reg.SSU_SECSTS_BOOTSRC = s.ssu.straps.bootSrc.val ∧
      t.ssu.tap = (if (s.ssu.otp.jtagOff = true ∨ 0 < rd t Reg.SSU_SECSTS_USABLE) ∧ s.ssu.tap ≠ .idcode then .bypass
        else s.ssu.tap) ∧ modeIs t = .recall := by
  obtain ⟨husable, hboot, hlock, hmode⟩ := keysLocked_reads s
  obtain ⟨hflds, hkeyed, hrecalled, hwanted, htap⟩ := tapShut_reads (keysLocked s)
  have hread (g : Field) : rd (tapShut (keysLocked s)) g = rd (keysLocked s) g := by rw [rd_eq, hflds]; rfl
  have hstays : ¬ (modeIs (tapShut (keysLocked s)) = .recall ∧ (tapShut (keysLocked s)).ssu.recalled ∧
      (tapShut (keysLocked s)).ssu.keyed ∧ bistWanted (tapShut (keysLocked s))) := by
    rintro ⟨-, hr, -, hb⟩
    rw [hrecalled] at hr
    rw [hwanted] at hb
    have hr' : s.ssu.recalled = true := hr
    have hb' : bistWanted s = true := hb
    rcases h with h | h
    · exact absurd (h.symm.trans hr') (by decide)
    · exact absurd (h.symm.trans hb') (by decide)
  have hexec : exec .keyCheckComplete s = .next (tapShut (keysLocked s)) := by
    refine (congrArg Host.Outcome.next (if_pos hm)).trans ?_
    rw [keyCheck_eq]
    exact congrArg Host.Outcome.next (if_neg hstays)
  refine ⟨_, hexec, hkeyed, ?_, (hread _).trans husable, (hread _).trans hboot, ?_, ?_⟩
  · rw [rdB_of_rd (hread _), hread]
    exact hlock
  · rw [htap, hread]
    exact if_congr (and_congr (tapLocked_keysLocked s) Iff.rfl) rfl rfl
  · exact (modeIs_of_rd ((hread _).trans hmode)).trans hm

/-! ### The end of RECALL (R386) -/

theorem event_anchorAt (s : State) (code : Nat) (sev : Sev) (ps : List Nat) :
    (event s code sev ps).evr.anchorAt = s.evr.anchorAt := by
  have hdrop (t : State) (v : Sev) : (evrDrop t v).evr.anchorAt = t.evr.anchorAt := ite_keeps (p := fun t => t.evr.anchorAt) rfl rfl
  have hstage (t : State) (r : Rec) : (evrStage t r).evr.anchorAt = t.evr.anchorAt :=
    ite_keeps (p := fun t => t.evr.anchorAt) rfl (hdrop t _)
  have hqueue (t : State) (r : Rec) : (evrQueue t r).evr.anchorAt = t.evr.anchorAt :=
    ite_keeps (p := fun t => t.evr.anchorAt) rfl (hdrop t _)
  exact ite_keeps (p := fun t => t.evr.anchorAt) (hstage _ _) <|
    ite_keeps (p := fun t => t.evr.anchorAt) (hdrop s _) <|
    ite_keeps (p := fun t => t.evr.anchorAt) (hstage _ _) (hqueue _ _)

/-- No cause is held, and the first anchor is due. -/
def haltAnchored (s : State) : State :=
  { s with ssu := { s.ssu with causes := [] }, evr := { s.evr with anchorAt := some (rd s Reg.EVR_OPSEC_OPSEC + 1) } }

theorem recallToHalt_eq (s : State) : ∃ u, recallToHalt s = showRdu (setMode (haltAnchored u) .halt) := by
  unfold recallToHalt
  generalize startUnits (recallReports s) = u
  exact ⟨_, rfl⟩

theorem setMode_evr (s : State) (m : Mode) : (setMode s m).evr = s.evr :=
  ite_keeps (p := State.evr) rfl (ite_keeps (p := State.evr) rfl rfl)

theorem rd_setMode_ne {g : Field} (h : ∀ f ∈ [Reg.MTE_STATUS_MSTATE, Reg.SSU_MODE_PRIOR, Reg.SSU_MODE_MODE], g.id ≠ f.id)
    (s : State) (m : Mode) : rd (setMode s m) g = rd s g := by
  have hstate (v : Nat) : rd (wr s Reg.MTE_STATUS_MSTATE v) g = rd s g :=
    rd_wr_of_id_ne (h _ (by decide)) (by decide) (by decide) s v
  exact (rd_wr_of_id_ne (h _ (by decide)) (by decide) (by decide) _ _).trans <|
    (rd_wr_of_id_ne (h _ (by decide)) (by decide) (by decide) _ _).trans <|
    ite_keeps (p := (rd · g)) (hstate _) (ite_keeps (p := (rd · g)) (hstate _) rfl)

theorem recallToHalt_reads (s : State) : modeIs (recallToHalt s) = .halt ∧ (recallToHalt s).ssu.causes = [] ∧
    (recallToHalt s).evr.anchorAt = some (rd (recallToHalt s) Reg.EVR_OPSEC_OPSEC + 1) := by
  obtain ⟨u, heq⟩ := recallToHalt_eq s
  rw [heq]
  have hanchored : (haltAnchored u).evr.anchorAt = some (rd u Reg.EVR_OPSEC_OPSEC + 1) := rfl
  have hcauses : (haltAnchored u).ssu.causes = [] := rfl
  have hopsec : rd (haltAnchored u) Reg.EVR_OPSEC_OPSEC = rd u Reg.EVR_OPSEC_OPSEC := rfl
  have hshown (t : State) : rd (showRdu t) Reg.EVR_OPSEC_OPSEC = rd t Reg.EVR_OPSEC_OPSEC :=
    rd_showRdu (by decide) (by decide) (by decide) t
  generalize haltAnchored u = v at *
  refine ⟨(modeIs_showRdu _).trans (modeIs_setMode _ _), ?_, ?_⟩
  · rw [showRdu_ssu, setMode_ssu]
    exact hcauses
  · rw [showRdu_keeps (p := fun t => t.evr.anchorAt) (fun _ _ _ _ => rfl) event_anchorAt, setMode_evr, hanchored, hshown,
      rd_setMode_ne (by decide), hopsec]

theorem enterTest_reads (s : State) : modeIs (enterTest s) = .test ∧ (enterTest s).ssu.bistReq = true ∧
    (enterTest s).ssu.nextWave = 0 ∧ (enterTest s).ssu.wave = none := by
  have hblind : StoreBlind (fun t => (t.ssu.bistReq, t.ssu.nextWave, t.ssu.wave)) :=
    ⟨fun _ _ _ _ => rfl, fun _ _ => rfl, fun _ _ => rfl, fun _ _ => rfl, fun _ _ _ => rfl, fun _ _ => rfl⟩
  have hsaved := hblind.nvsSave { s with ssu := { s.ssu with bistReq := true, wave := none, nextWave := 0 } } 3
    (configData { s with ssu := { s.ssu with bistReq := true, wave := none, nextWave := 0 } }) .config 0
  simp only [Prod.mk.injEq] at hsaved
  obtain ⟨hreq, hnext, hwave⟩ := hsaved
  unfold enterTest
  refine ⟨modeIs_setMode _ _, ?_, ?_, ?_⟩
  · rw [setMode_ssu]
    exact hreq
  · rw [setMode_ssu]
    exact hnext
  · rw [setMode_ssu]
    exact hwave

/-- Settles O27: what recall of an empty store finds stands until its end, the key check reads the root slots it shows, and
RECALL_END goes by what is wanted of BIST. -/
theorem recallAndItsEnd : Obligations.RecallAndItsEnd := by
  refine ⟨fun s us => ⟨fun ⟨hm, hr⟩ hrecs hq hstaging hwant hreq hdone htiles hhello =>
    recallComplete_empty us hm hr hrecs hq hstaging hwant hreq hdone htiles hhello, fun h => ?_⟩, fun s hm =>
    ⟨keyCheck_completes hm, fun hrecalled hkeyed => ⟨fun hwant => ?_, fun hwant => ?_⟩, fun h => ?_⟩⟩
  · refine congrArg Host.Outcome.next (if_neg ?_)
    rcases h with h | h <;> simp [recalling, h]
  · have hexec : exec .recallEnd s = .next (recallToHalt s) :=
      congrArg Host.Outcome.next ((if_pos ⟨hm, hrecalled, hkeyed⟩).trans (if_neg (by simp [hwant])))
    exact ⟨_, hexec, recallToHalt_reads s⟩
  · have hexec : exec .recallEnd s = .next (enterTest (recallReports s)) :=
      congrArg Host.Outcome.next ((if_pos ⟨hm, hrecalled, hkeyed⟩).trans <| (if_pos hwant).trans
        (if_pos ⟨hm, hrecalled, hkeyed, hwant⟩))
    exact ⟨_, hexec, enterTest_reads _⟩
  · refine congrArg Host.Outcome.next (if_neg ?_)
    rcases h with h | h <;> simp [h]

end Sys2Proof.Machine
end

section
/-! SUPPORT. The resets (R377, R383 to R386, R388, R419): the cause recorded, what Table 18.5 keeps, and the records of a RECALL that
has just begun, which go to the staging queue. -/

namespace Sys2Proof.Machine

/-! ### The parts of a reset -/

/-- A WDT or HST reset outside RECALL and TEST saves first. -/
def resetSaving (s : State) (kind : Nat) : Bool :=
  decide (3 ≤ kind) && decide (modeIs s ≠ .recall) && decide (modeIs s ≠ .test)

/-- The state saved before a reset. -/
def savedFor (s : State) (kind : Nat) : State := if resetSaving s kind then resetSaves s else s

/-- The cause of a reset recorded. -/
def causeRecorded (s : State) (kind rail wd : Nat) (inSave done saves : Bool) : State :=
  wrB (wrB (wrB (wr (wr (wr s Reg.SSU_RSTCAUSE_KIND kind) Reg.SSU_RSTCAUSE_RAIL rail) Reg.SSU_RSTCAUSE_WDSRC wd)
    Reg.SSU_RSTCAUSE_INSAVE inSave) Reg.SSU_RSTCAUSE_SAVEDONE done) Reg.SSU_RSTCAUSE_RSTSAVE saves

/-- A facet that a reset discards is recorded. -/
def discardTold (s : State) (f : Facet) : State := event s Ev.shadowDiscarded .notice (lowHigh (digest8 f.digest))

theorem resetBy_eq (s : State) (kind rail wd : Nat) (straps : Straps) : resetBy s kind rail wd straps =
    showReset ((discardedFacets (savedFor s kind)).foldl discardTold
      (causeRecorded (clearedBy (savedFor s kind) kind straps) kind rail wd (decide (modeIs s = .save))
        (decide (modeIs s = .save) && s.ssu.saveDone) (resetSaving s kind))) := by
  have hfold : discardTold = fun s f => event s Ev.shadowDiscarded .notice (lowHigh (digest8 f.digest)) := rfl
  simp only [resetBy, savedFor, resetSaving, causeRecorded, hfold]
  rfl

/-! ### What the records and the status of a RECALL that begins leave -/

/-- The fields that show a present condition right after a reset. -/
def conditionFields : List Field := Reg.MTE_STATUS_MSTATE :: Reg.HMX_STATUS_QUAL :: Reg.CSC_STATUS_QUAL ::
  Reg.CSC_STATUS_MSTATE :: Reg.CSC_STATUS_MEMBER :: Reg.CSC_STATUS_ROOT :: frameFields

section

variable {β : Type} {p : State → β} (hwr : ∀ s f v i, p (wr s f v i) = p s)
  (hevent : ∀ s code sev ps, p (event s code sev ps) = p s)
include hwr hevent

theorem showReset_keeps (s : State) : p (showReset s) = p s :=
  (hwr _ _ _ _).trans <| (showCsc_keeps hwr _).trans <| (showRdu_keeps hwr hevent _).trans (hwr _ _ _ _)

omit hwr in
theorem discarded_keeps (l : List Facet) (s : State) : p (l.foldl discardTold s) = p s :=
  foldl_keeps p (fun _ _ => hevent _ _ _ _) l s

omit hevent in
theorem causeRecorded_keeps (s : State) (kind rail wd : Nat) (a b c : Bool) : p (causeRecorded s kind rail wd a b c) = p s :=
  (hwr _ _ _ _).trans <| (hwr _ _ _ _).trans <| (hwr _ _ _ _).trans <| (hwr _ _ _ _).trans <| (hwr _ _ _ _).trans
    (hwr _ _ _ _)

theorem resetBy_keeps (s : State) (kind rail wd : Nat) (straps : Straps) :
    p (resetBy s kind rail wd straps) = p (clearedBy (savedFor s kind) kind straps) := by
  rw [resetBy_eq, showReset_keeps hwr hevent, discarded_keeps hevent, causeRecorded_keeps hwr]

end

theorem rd_showReset {g : Field} {j : Nat} (hf : ∀ f ∈ conditionFields, g.id ≠ f.id) (hr : ∀ f ∈ recorderFields, g.id ≠ f.id)
    (hj : j < 8192) (s : State) : rd (showReset s) g j = rd s g j := by
  have hcsc (t : State) : rd (showCsc t) g j = rd t g j :=
    (rd_wr_of_id_ne (hf _ (by decide)) (by decide) hj _ _).trans <|
      (rd_wr_of_id_ne (hf _ (by decide)) (by decide) hj _ _).trans <|
      (rd_wr_of_id_ne (hf _ (by decide)) (by decide) hj _ _).trans (rd_wr_of_id_ne (hf _ (by decide)) (by decide) hj _ _)
  have hframe : ∀ f ∈ frameFields, g.id ≠ f.id := fun f h => hf f (by
    unfold conditionFields
    simp [h])
  exact (rd_wr_of_id_ne (hf _ (by decide)) (by decide) hj _ _).trans <| (hcsc _).trans <|
    (rd_showRdu hj hframe hr _).trans (rd_wr_of_id_ne (hf _ (by decide)) (by decide) hj s _)

theorem rd_discarded {g : Field} {j : Nat} (hr : ∀ f ∈ recorderFields, g.id ≠ f.id) (hj : j < 8192) (l : List Facet)
    (s : State) : rd (l.foldl discardTold s) g j = rd s g j :=
  foldl_keeps (rd · g j) (fun t _ => rd_event hr hj t _ _ _) l s

/-- A field that neither records nor present conditions show. -/
theorem rd_resetBy {g : Field} {j : Nat} (hf : ∀ f ∈ conditionFields, g.id ≠ f.id) (hr : ∀ f ∈ recorderFields, g.id ≠ f.id)
    (hj : j < 8192) (s : State) (kind rail wd : Nat) (straps : Straps) : rd (resetBy s kind rail wd straps) g j =
      rd (causeRecorded (clearedBy (savedFor s kind) kind straps) kind rail wd (decide (modeIs s = .save))
        (decide (modeIs s = .save) && s.ssu.saveDone) (resetSaving s kind)) g j := by
  rw [resetBy_eq, rd_showReset hf hr hj, rd_discarded hr hj]

theorem rdB_wrB_ne {f g : Field} {i j : Nat} (h : g.key j ≠ f.key i) (s : State) (b : Bool) :
    rdB (wrB s f b i) g j = rdB s g j := rdB_of_rd (rd_wr_ne h _ _)

theorem causeRecorded_reads (s : State) {kind rail wd : Nat} (hkind : kind < 8) (hrail : rail < 8) (hwd : wd < 2)
    (a b c : Bool) : rd (causeRecorded s kind rail wd a b c) Reg.SSU_RSTCAUSE_KIND = kind ∧
    rd (causeRecorded s kind rail wd a b c) Reg.SSU_RSTCAUSE_RAIL = rail ∧
    rd (causeRecorded s kind rail wd a b c) Reg.SSU_RSTCAUSE_WDSRC = wd ∧
    rdB (causeRecorded s kind rail wd a b c) Reg.SSU_RSTCAUSE_INSAVE = a ∧
    rdB (causeRecorded s kind rail wd a b c) Reg.SSU_RSTCAUSE_SAVEDONE = b ∧
    rdB (causeRecorded s kind rail wd a b c) Reg.SSU_RSTCAUSE_RSTSAVE = c := by
  unfold causeRecorded
  refine ⟨?_, ?_, ?_, ?_, ?_, rdB_wrB_same rfl _ _ _⟩
  · unfold wrB
    simp (disch := decide) only [rd_wr_ne, rd_wr_same]
    exact Nat.mod_eq_of_lt hkind
  · unfold wrB
    simp (disch := decide) only [rd_wr_ne, rd_wr_same]
    exact Nat.mod_eq_of_lt hrail
  · unfold wrB
    simp (disch := decide) only [rd_wr_ne, rd_wr_same]
    exact Nat.mod_eq_of_lt hwd
  · rw [rdB_wrB_ne (by decide), rdB_wrB_ne (by decide)]
    exact rdB_wrB_same rfl _ _ _
  · rw [rdB_wrB_ne (by decide)]
    exact rdB_wrB_same rfl _ _ _

/-- A field that the record of the cause is not part of. -/
theorem rd_causeRecorded {g : Field} {j : Nat} (h : g.id < Reg.SSU_RSTCAUSE_KIND.id ∨ Reg.SSU_RSTCAUSE_RESUMED.id ≤ g.id)
    (hj : j < 8192) (s : State) (kind rail wd : Nat) (a b c : Bool) :
    rd (causeRecorded s kind rail wd a b c) g j = rd s g j := by
  have hne : ∀ f ∈ [Reg.SSU_RSTCAUSE_KIND, Reg.SSU_RSTCAUSE_RAIL, Reg.SSU_RSTCAUSE_WDSRC, Reg.SSU_RSTCAUSE_INSAVE,
      Reg.SSU_RSTCAUSE_SAVEDONE, Reg.SSU_RSTCAUSE_RSTSAVE], g.id ≠ f.id := by
    intro f hf
    have hid : Reg.SSU_RSTCAUSE_KIND.id ≤ f.id ∧ f.id < Reg.SSU_RSTCAUSE_RESUMED.id := by
      revert f
      decide
    omega
  exact (rd_wr_of_id_ne (hne _ (by decide)) (by decide) hj _ _).trans <|
    (rd_wr_of_id_ne (hne _ (by decide)) (by decide) hj _ _).trans <|
    (rd_wr_of_id_ne (hne _ (by decide)) (by decide) hj _ _).trans <|
    (rd_wr_of_id_ne (hne _ (by decide)) (by decide) hj _ _).trans <|
    (rd_wr_of_id_ne (hne _ (by decide)) (by decide) hj _ _).trans (rd_wr_of_id_ne (hne _ (by decide)) (by decide) hj s _)

/-! ### What a reset clears and keeps (Table 18.5) -/

/-- A field is kept or at its reset value. -/
theorem rd_clearedBy (s : State) (kind : Nat) (straps : Straps) {g : Field} {j : Nat} (hj : j < 8192) :
    rd (clearedBy s kind straps) g j = if keepIds.contains g.id then rd s g j else g.resetAt j := by
  have hkey : (g.key j) / 8192 = g.id := by
    unfold Field.key
    omega
  have hread : rd (clearedBy s kind straps) g j =
      (if keepIds.contains (g.key j / 8192) then tget s.flds (g.key j) else none).getD (g.resetAt j) :=
    congrArg (fun x => x.getD (g.resetAt j)) (tget_filter (fun k => keepIds.contains (k / 8192)) s.flds (g.key j))
  rw [hread, hkey]
  split <;> rfl

/-- No field that a reset keeps records or shows a present condition. -/
theorem kept_ne_shown : ∀ f ∈ Reg.table, f.keep = true → ∀ g ∈ conditionFields ++ recorderFields, f.id ≠ g.id := by
  decide +kernel

theorem keepIds_of_keep {f : Field} (hf : f ∈ Reg.table) (hkeep : f.keep = true) : keepIds.contains f.id = true :=
  List.contains_iff_mem.2 (List.mem_map_of_mem (List.mem_filter.2 ⟨hf, hkeep⟩))

theorem engineBlind_pending : EngineBlind State.pending :=
  ⟨⟨fun _ _ _ _ => rfl, fun _ _ => rfl, fun _ _ => rfl, fun _ _ => rfl, fun _ _ _ => rfl, fun _ _ => rfl⟩,
    fun _ _ _ _ _ _ => rfl, fun _ _ => rfl, fun _ _ => rfl⟩

theorem savedFor_pending (s : State) (kind : Nat) : (savedFor s kind).pending = s.pending := by
  have hnow (t : State) (r : WriteReq) : (saveNow t r).pending = t.pending :=
    (engineBlind_pending.nvsFinish _).trans (engineBlind_pending.beginWrite _ _ _)
  exact ite_keeps (p := State.pending) ((hnow _ _).trans (hnow _ _)) rfl

theorem savedFor_of_not {s : State} {kind : Nat} (h : resetSaving s kind = false) : savedFor s kind = s := by
  unfold savedFor
  rw [h]
  rfl

/-! ### Records while recall runs (R354) -/

/-- A unit whose recall runs stages its records. -/
theorem event_nvs_of_recalling {s : State} (h : recalling s = true) (code : Nat) (sev : Sev) (ps : List Nat) :
    (event s code sev ps).nvs = s.nvs := by
  have hdrop (t : State) (v : Sev) : (evrDrop t v).nvs = t.nvs := ite_keeps (p := State.nvs) rfl rfl
  exact (congrArg State.nvs (if_pos h)).trans (ite_keeps (p := State.nvs) rfl (hdrop _ _))

theorem recalling_event (s : State) (code : Nat) (sev : Sev) (ps : List Nat) :
    recalling (event s code sev ps) = recalling s :=
  recalling_of_fields (rd_event (by decide) (by decide) _ _ _ _) (rd_event (by decide) (by decide) _ _ _ _)

theorem showRdu_nvs_of_recalling {s : State} (h : recalling s = true) : (showRdu s).nvs = s.nvs := by
  have hrun (q m x y z : Nat) : recalling (wr (wr (wr (wr (wr s Reg.RDU_STATUS_QUAL q) Reg.RDU_STATUS_PAIRST m)
      Reg.RDU_STATUS_MSTATE x) Reg.RDU_STATUS_SIDE y) Reg.RDU_STATUS_HELD z) = true := by
    iterate 5 rw [recalling_wr (by decide) (by decide)]
    exact h
  unfold showRdu
  exact ite_keeps (p := State.nvs) (event_nvs_of_recalling (hrun _ _ _ _ _) _ _ _) rfl

theorem showReset_nvs_of_recalling {s : State} (h : recalling s = true) : (showReset s).nvs = s.nvs := by
  have hrun : recalling (wr s Reg.MTE_STATUS_MSTATE (mstateCode .offline)) = true := by
    rw [recalling_wr (by decide) (by decide)]
    exact h
  have hrdu := showRdu_nvs_of_recalling hrun
  have hcsc := showCsc_keeps (p := State.nvs) (fun _ _ _ _ => rfl)
    (showRdu (wr s Reg.MTE_STATUS_MSTATE (mstateCode .offline)))
  unfold showReset
  exact hcsc.trans hrdu

/-- What a RECALL that begins records leaves the write queue as it is. -/
theorem resetBy_nvs (s : State) (kind rail wd : Nat) (straps : Straps) :
    (resetBy s kind rail wd straps).nvs = (clearedBy (savedFor s kind) kind straps).nvs := by
  rw [resetBy_eq]
  have hrun : recalling (causeRecorded (clearedBy (savedFor s kind) kind straps) kind rail wd (decide (modeIs s = .save))
      (decide (modeIs s = .save) && s.ssu.saveDone) (resetSaving s kind)) = true := by
    have hcleared : recalling (clearedBy (savedFor s kind) kind straps) = true := by
      have hmode : rd (clearedBy (savedFor s kind) kind straps) Reg.SSU_MODE_MODE = 0 :=
        (rd_clearedBy _ _ _ (by decide)).trans (if_neg (by decide +kernel))
      have hrecall : rd (clearedBy (savedFor s kind) kind straps) Reg.NVS_STATUS_RECALL = 1 :=
        (rd_clearedBy _ _ _ (by decide)).trans (if_neg (by decide +kernel))
      unfold recalling rdB modeIs
      rw [hmode, hrecall]
      rfl
    unfold causeRecorded wrB
    iterate 6 rw [recalling_wr (by decide) (by decide)]
    exact hcleared
  have hnvs := causeRecorded_keeps (p := State.nvs) (fun _ _ _ _ => rfl) (clearedBy (savedFor s kind) kind straps) kind rail wd
    (decide (modeIs s = .save)) (decide (modeIs s = .save) && s.ssu.saveDone) (resetSaving s kind)
  generalize causeRecorded _ _ _ _ _ _ _ = u at hrun hnvs ⊢
  have hlist (l : List Facet) (t : State) (ht : recalling t = true) :
      (l.foldl discardTold t).nvs = t.nvs ∧ recalling (l.foldl discardTold t) = true := by
    induction l generalizing t with
    | nil => exact ⟨rfl, ht⟩
    | cons f l ih =>
      obtain ⟨hl, hr⟩ := ih (discardTold t f) ((recalling_event _ _ _ _).trans ht)
      exact ⟨hl.trans (event_nvs_of_recalling ht _ _ _), hr⟩
  obtain ⟨hl, hr⟩ := hlist (discardedFacets (savedFor s kind)) u hrun
  generalize List.foldl discardTold u _ = v at hl hr ⊢
  rw [showReset_nvs_of_recalling hr, hl, hnvs]

/-! ### What every reset leaves -/

/-- What a reset leaves whatever its cause: RECALL running, the cause, and the units as after power-on. -/
theorem resetBy_effect (s : State) {kind rail wd : Nat} (straps : Straps) (hkind : kind < 8) (hrail : rail < 8)
    (hwd : wd < 2) :
    modeIs (resetBy s kind rail wd straps) = .recall ∧ rdB (resetBy s kind rail wd straps) Reg.NVS_STATUS_RECALL = true ∧
    rd (resetBy s kind rail wd straps) Reg.SSU_RSTCAUSE_KIND = kind ∧
    rd (resetBy s kind rail wd straps) Reg.SSU_RSTCAUSE_RAIL = rail ∧
    rd (resetBy s kind rail wd straps) Reg.SSU_RSTCAUSE_WDSRC = wd ∧
    rdB (resetBy s kind rail wd straps) Reg.SSU_RSTCAUSE_INSAVE = decide (modeIs s = .save) ∧
    rdB (resetBy s kind rail wd straps) Reg.SSU_RSTCAUSE_RSTSAVE = resetSaving s kind ∧
    rdB (resetBy s kind rail wd straps) Reg.SSU_RSTCAUSE_SAVEDONE = (decide (modeIs s = .save) && s.ssu.saveDone) := by
  have hread {g : Field} (hf : ∀ f ∈ conditionFields, g.id ≠ f.id) (hr : ∀ f ∈ recorderFields, g.id ≠ f.id) :=
    rd_resetBy hf hr (j := 0) (by decide) s kind rail wd straps
  obtain ⟨hk, hl, hw, hin, hdone, hsaves⟩ := causeRecorded_reads (clearedBy (savedFor s kind) kind straps) hkind hrail hwd
    (decide (modeIs s = .save)) (decide (modeIs s = .save) && s.ssu.saveDone) (resetSaving s kind)
  have hmode : rd (resetBy s kind rail wd straps) Reg.SSU_MODE_MODE = 0 := by
    rw [hread (by decide) (by decide), rd_causeRecorded (by decide) (by decide), rd_clearedBy _ _ _ (by decide)]
    exact if_neg (by decide +kernel)
  have hrecall : rd (resetBy s kind rail wd straps) Reg.NVS_STATUS_RECALL = 1 := by
    rw [hread (by decide) (by decide), rd_causeRecorded (by decide) (by decide), rd_clearedBy _ _ _ (by decide)]
    exact if_neg (by decide +kernel)
  refine ⟨congrArg modeOf hmode, by simp [rdB, hrecall], (hread (by decide) (by decide)).trans hk,
    (hread (by decide) (by decide)).trans hl, (hread (by decide) (by decide)).trans hw,
    (rdB_of_rd (hread (by decide) (by decide))).trans hin, (rdB_of_rd (hread (by decide) (by decide))).trans hsaves,
    (rdB_of_rd (hread (by decide) (by decide))).trans hdone⟩

/-- The units as after power-on. -/
theorem resetBy_units (s : State) (kind rail wd : Nat) (straps : Straps) :
    (resetBy s kind rail wd straps).ssu.straps = straps ∧ (resetBy s kind rail wd straps).csa = State.reset.csa ∧
    (resetBy s kind rail wd straps).lsv = State.reset.lsv ∧ (resetBy s kind rail wd straps).mte = State.reset.mte ∧
    (resetBy s kind rail wd straps).fct = State.reset.fct ∧ (resetBy s kind rail wd straps).fbc = State.reset.fbc ∧
    (resetBy s kind rail wd straps).npc = State.reset.npc ∧ (resetBy s kind rail wd straps).rdu = State.reset.rdu ∧
    (resetBy s kind rail wd straps).nvs.queue = [] ∧ (resetBy s kind rail wd straps).pending = s.pending :=
  ⟨resetBy_keeps (p := fun t => t.ssu.straps) (fun _ _ _ _ => rfl) (fun _ _ _ _ => by rw [event_ssu]) s kind rail wd straps,
    resetBy_keeps (p := State.csa) (fun _ _ _ _ => rfl) event_csa s kind rail wd straps,
    resetBy_keeps (p := State.lsv) (fun _ _ _ _ => rfl) event_lsv s kind rail wd straps,
    resetBy_keeps (p := State.mte) (fun _ _ _ _ => rfl) event_mte s kind rail wd straps,
    resetBy_keeps (p := State.fct) (fun _ _ _ _ => rfl) event_fct s kind rail wd straps,
    resetBy_keeps (p := State.fbc) (fun _ _ _ _ => rfl) event_fbc s kind rail wd straps,
    resetBy_keeps (p := State.npc) (fun _ _ _ _ => rfl) event_npc s kind rail wd straps,
    resetBy_keeps (p := State.rdu) (fun _ _ _ _ => rfl) event_rdu s kind rail wd straps,
    congrArg NvsSt.queue (resetBy_nvs s kind rail wd straps),
    (resetBy_keeps (p := State.pending) (fun _ _ _ _ => rfl) event_pending s kind rail wd straps).trans
      (savedFor_pending s kind)⟩

/-- What a reset that saves nothing keeps. -/
theorem resetBy_kept {s : State} {kind : Nat} (h : resetSaving s kind = false) (rail wd : Nat) (straps : Straps) :
    (resetBy s kind rail wd straps).nvs.recs = s.nvs.recs ∧ (resetBy s kind rail wd straps).nvs.images = s.nvs.images ∧
    (resetBy s kind rail wd straps).evr.log = s.evr.log ∧ (resetBy s kind rail wd straps).ssu.otp = s.ssu.otp ∧
    (resetBy s kind rail wd straps).rtc.secs = s.rtc.secs ∧
    ∀ f ∈ Reg.table, f.keep = true → (f.id < Reg.SSU_RSTCAUSE_KIND.id ∨ Reg.SSU_RSTCAUSE_RESUMED.id ≤ f.id) →
      ∀ i < f.count, rd (resetBy s kind rail wd straps) f i = rd s f i := by
  have hnvs := resetBy_nvs s kind rail wd straps
  have hsaved := savedFor_of_not h
  have hlog (t : State) (code : Nat) (sev : Sev) (ps : List Nat) : (event t code sev ps).evr.log = t.evr.log := by
    obtain ⟨_, _, e, heq, -, -, -, -, hkept⟩ := event_frame t code sev ps
    rw [heq]
    exact hkept
  have hlogs := resetBy_keeps (p := fun t => t.evr.log) (fun _ _ _ _ => rfl) hlog s kind rail wd straps
  have hotp := resetBy_keeps (p := fun t => t.ssu.otp) (fun _ _ _ _ => rfl) (fun _ _ _ _ => by rw [event_ssu]) s kind rail wd straps
  have hsecs := resetBy_keeps (p := fun t => t.rtc.secs) (fun _ _ _ _ => rfl) (fun _ _ _ _ => by rw [event_rtc]) s kind rail wd straps
  rw [hsaved] at hnvs hlogs hotp hsecs
  refine ⟨(congrArg NvsSt.recs hnvs :), (congrArg NvsSt.images hnvs :), hlogs, hotp, hsecs, fun f hf hkeep hid i hi => ?_⟩
  have hi' : i < 8192 := hi.trans_le (table_count_le f hf)
  have hne := kept_ne_shown f hf hkeep
  rw [rd_resetBy (fun g hg => hne g (List.mem_append_left _ hg)) (fun g hg => hne g (List.mem_append_right _ hg)) hi', hsaved,
    rd_causeRecorded hid hi', rd_clearedBy _ _ _ hi', if_pos (keepIds_of_keep hf hkeep)]

/-- The commands that reset the device, each with its cause. -/
theorem exec_resets {s : State} {straps : Straps} {c : Instr} {kind rail wd : Nat} {r : Fin 6} {low since : Nat} {ph : Bool}
    {v : BitVec 32} (hc : c = .por straps ∧ kind = 0 ∧ rail = 0 ∧ wd = 0 ∨
     c = .bor r straps ∧ rail = r.val ∧ kind = 1 ∧ wd = 0 ∨
     c = .pinReset low ph straps ∧ (10000 ≤ low ∨ 9960 ≤ low ∧ ph = true) ∧ kind = 2 ∧ rail = 0 ∧ wd = 0 ∨
     c = .wdtReset straps ∧ kind = 3 ∧ rail = 0 ∧ wd = 0 ∨
     c = .hostWatchdogExpiry straps ∧ rdB s Reg.SSU_WDTCFG_HOSTEN = true ∧ rdB s Reg.SSU_WDTCFG_ACT = true ∧
       s.ssu.wdtFrom = some since ∧ since + max 1 (rd s Reg.SSU_WDTCFG_HOSTTO) * 10 ^ 9 ≤ s.tb.now ∧
       kind = 3 ∧ rail = 0 ∧ wd = 1 ∨
     c = .hstReset v straps ∧ v.toNat % 2 = 1 ∧ v.toNat / 2 ^ 16 = 0x4810 ∧ kind = 4 ∧ rail = 0 ∧ wd = 0 ∨
     c = .functionLevelReset straps ∧ kind = 4 ∧ rail = 0 ∧ wd = 0) :
    exec c s = .next (resetBy s kind rail wd straps) ∧ kind < 8 ∧ rail < 8 ∧ wd < 2 := by
  rcases hc with ⟨rfl, rfl, rfl, rfl⟩ | ⟨rfl, rfl, rfl, rfl⟩ | ⟨rfl, hlow, rfl, rfl, rfl⟩ | ⟨rfl, rfl, rfl, rfl⟩ |
    ⟨rfl, hen, hact, hfrom, hdue, rfl, rfl, rfl⟩ | ⟨rfl, hgo, hkey, rfl, rfl, rfl⟩ | ⟨rfl, rfl, rfl, rfl⟩
  · exact ⟨rfl, by decide, by decide, by decide⟩
  · exact ⟨rfl, by decide, by omega, by decide⟩
  · refine ⟨congrArg Host.Outcome.next (if_pos ?_), by decide, by decide, by decide⟩
    rcases hlow with hlow | ⟨hlow, rfl⟩ <;> simp [pinTaken, hlow]
  · exact ⟨rfl, by decide, by decide, by decide⟩
  · have hexpired : hostExpired s = true := by
      unfold hostExpired hostLimit
      rw [hen, hfrom]
      simp only [Bool.true_and, decide_eq_true_eq]
      exact hdue
    exact ⟨congrArg Host.Outcome.next ((if_neg (by simp [hexpired])).trans (if_pos hact)), by decide, by decide, by decide⟩
  · exact ⟨congrArg Host.Outcome.next (if_pos ⟨hgo, hkey⟩), by decide, by decide, by decide⟩
  · exact ⟨rfl, by decide, by decide, by decide⟩

/-- Settles O25: each command of a reset is the reset of its cause, whose effect is one; the others pass the state on. -/
theorem resetsLeaveRecall : Obligations.ResetsLeaveRecall := by
  refine ⟨fun s straps c kind rail wd saves r low since ph v hc hsaves => ?_, fun s straps low ph v => ⟨fun h => ?_, fun h => ?_⟩⟩
  · obtain ⟨hexec, hkind, hrail, hwd⟩ := exec_resets hc
    obtain ⟨hmode, hrecall, hk, hl, hw, hin, hrst, hdone⟩ := resetBy_effect s straps hkind hrail hwd
    obtain ⟨hstraps, hcsa, hlsv, hmte, hfct, hfbc, hnpc, hrdu, hqueue, hpending⟩ := resetBy_units s kind rail wd straps
    subst hsaves
    exact ⟨_, hexec, hmode, hrecall, hk, hl, hw, hin, hrst, hdone, hstraps, hcsa, hlsv, hmte, hfct, hfbc, hnpc, hrdu,
      hqueue, hpending, fun hnot => resetBy_kept hnot rail wd straps⟩
  · refine congrArg Host.Outcome.next (if_neg ?_)
    unfold pinTaken
    rcases h with h | ⟨h, rfl⟩
    · simp
      omega
    · simp
      omega
  · refine congrArg Host.Outcome.next (if_neg ?_)
    rcases h with h | h <;> omega

end Sys2Proof.Machine
end

section
/-! SUPPORT. Messages of stations (R249 to R252, R256, R259 to R261, R264, R270, R278): the input that one becomes, the
count of one dropped and the REJOIN that answers one without a session. -/

namespace Sys2Proof.Machine

/-! ### What a message in the queue of a bus leaves alone -/

/-- The state but for its fields and the controllers of its buses. -/
def besidesBuses (s : State) : State := { s with flds := [], fbc := Vector.replicate 24 Ctl.reset }

theorem besidesBuses_loadTb (s : State) (n : Fin 24) (b : Fin 3) (r : TxReq) :
    besidesBuses (loadTb s n b r) = besidesBuses s := by
  rw [loadTb_eq]
  exact ite_keeps rfl rfl

theorem besidesBuses_loadHead (s : State) (n : Fin 24) : besidesBuses (loadHead s n) = besidesBuses s := by
  unfold loadHead
  dsimp only
  split
  · refine ite_keeps ?_ rfl
    exact besidesBuses_loadTb _ _ _ _
  · rfl

theorem besidesBuses_loadQueue (s : State) (n : Fin 24) : besidesBuses (loadQueue s n) = besidesBuses s :=
  (besidesBuses_loadHead _ n).trans <| (besidesBuses_loadHead _ n).trans (besidesBuses_loadHead s n)

theorem besidesBuses_offer (s : State) (n : Fin 24) (e : QEntry) : besidesBuses (offer s n e) = besidesBuses s :=
  ite_keeps rfl <| ite_keeps rfl (besidesBuses_loadQueue _ n)

theorem besidesBuses_vSend_bus {n : Fin 24} {ep : Endpoint} (h : ep.link = .bus n) (s : State) (typ stream : Nat)
    (seq claim : BitVec 32) (session : BitVec 16) (body : List Byte) (v expiry : Nat) :
    besidesBuses (vSend s ep typ stream seq claim session body v expiry) = besidesBuses s := by
  simp only [vSend, h]
  exact ite_keeps rfl (foldl_keeps besidesBuses (fun _ _ => besidesBuses_offer _ n _) _ s)

/-- A message to an endpoint changes neither the contexts and REJOINs nor the agreement nor the time. -/
theorem vSend_keeps (s : State) (ep : Endpoint) (typ stream : Nat) (seq claim : BitVec 32) (session : BitVec 16)
    (body : List Byte) (v expiry : Nat) : (vSend s ep typ stream seq claim session body v expiry).npc = s.npc ∧
      (vSend s ep typ stream seq claim session body v expiry).rdu = s.rdu ∧
      (vSend s ep typ stream seq claim session body v expiry).tb = s.tb := by
  cases hl : ep.link with
  | bus n =>
    have hkeep := besidesBuses_vSend_bus hl s typ stream seq claim session body v expiry
    exact ⟨(congrArg State.npc hkeep :), (congrArg State.rdu hkeep :), (congrArg State.tb hkeep :)⟩
  | port p =>
    simp only [vSend, hl]
    split
    · split <;> exact ⟨rfl, rfl, rfl⟩
    · exact ⟨rfl, rfl, rfl⟩

theorem vSend_port {s : State} {ep : Endpoint} {p : Fin 16} {r : PortRec} (hl : ep.link = .port p)
    (hr : portRec s p = some r) (hup : portUp s p = true) (typ stream : Nat) (seq claim : BitVec 32)
    (session : BitVec 16) (body : List Byte) (v expiry : Nat) :
    vSend s ep typ stream seq claim session body v expiry = emit s (.udp (portSrc s r ep.addr) ep typ
      ⟨1, BitVec.ofNat 16 stream, seq, claim, BitVec.ofNat 16 body.length, session, ep.addr⟩ body) := by
  simp only [vSend, hl, hr]
  exact if_pos hup

/-! ### A message dropped and a message taken -/

/-- A message is dropped and counted. -/
def MessageDropped (s : State) (stamp : Nat) (t : State) : Prop :=
  t.npc = s.npc ∧ t.tb = (advance s stamp).tb ∧ t.rdu = s.rdu ∧
    rd t Reg.NPC_VSUM_BADMSG = min (rd s Reg.NPC_VSUM_BADMSG + 1) 255

/-- A message is an input, stamped and listed. -/
def MessageTaken (s : State) (stamp source ident : Nat) (b : InBody) (t : State) : Prop :=
  t.npc = s.npc ∧ t.tb = (advance s stamp).tb ∧ t.flds = s.flds ∧ t.rdu = { s.rdu with
    fseqOut := t.rdu.fseqOut
    own := listPut s.rdu.own (tickOf s stamp) ⟨stamp, ⟨source, ident⟩, ownSide s, b⟩ }

theorem messageDropped_badMsg (s : State) (stamp : Nat) : MessageDropped s stamp (badMsg (advance s stamp)) :=
  ⟨rfl, rfl, rfl, bump_same (advance s stamp) Reg.NPC_VSUM_BADMSG 0 1⟩

theorem messageTaken_submit (s : State) (stamp source ident : Nat) (b : InBody) :
    MessageTaken s stamp source ident b (submit (advance s stamp) stamp source ident b) := by
  unfold submit
  dsimp only
  split <;> exact ⟨rfl, rfl, rfl, rfl⟩

section

variable {s : State} {ep : Endpoint} {h : VHead} (hears : vListens s = true) (takes : linkTakes s ep h.dst = true)
include hears takes

theorem vTake_good {len : Nat} (hver : h.ver = 1) (hlen : h.len.toNat = len) (stamp typ sid : Nat) (b : InBody) :
    MessageTaken s stamp (vSource s ep typ h.stream.toNat sid b).1 (vSource s ep typ h.stream.toNat sid b).2 b
      (vTake s ep stamp typ h len sid b) := by
  have htake : vTake s ep stamp typ h len sid b = submit (advance s stamp) stamp
      (vSource s ep typ h.stream.toNat sid b).1 (vSource s ep typ h.stream.toNat sid b).2 b :=
    (if_pos (by simp [hears, takes])).trans (if_neg (by simp [hver, hlen]))
  rw [htake]
  exact messageTaken_submit s stamp _ _ b

theorem vTake_bad {len : Nat} (hbad : h.ver ≠ 1 ∨ h.len.toNat ≠ len) (stamp typ sid : Nat) (b : InBody) :
    MessageDropped s stamp (vTake s ep stamp typ h len sid b) := by
  have htake : vTake s ep stamp typ h len sid b = badMsg (advance s stamp) :=
    (if_pos (by simp [hears, takes])).trans (if_pos hbad)
  rw [htake]
  exact messageDropped_badMsg s stamp

end

/-- A message that its port does not take is counted on the port. -/
theorem vTake_untaken {s : State} {ep : Endpoint} {h : VHead} {p : Fin 16} (hears : vListens s = true)
    (refused : linkTakes s ep h.dst = false) (hl : ep.link = .port p) (hup : portUp s p = true)
    (stamp typ len sid : Nat) (b : InBody) :
    vTake s ep stamp typ h len sid b = bump s Reg.NPCp_STATUS_DROPPED p.val := by
  refine (if_neg (by simp [refused])).trans ?_
  simp [hl, hears, hup]

/-! ### A message of a session -/

section

variable {s : State} {ep : Endpoint} {h : VHead} {len : Nat} (hears : vListens s = true)
  (takes : linkTakes s ep h.dst = true) (hmode : modeIs s ≠ .resync) (hver : h.ver = 1) (hlen : h.len.toNat = len)
include hears takes hmode hver hlen

theorem vTakeSession_judged (stamp typ : Nat) (b : InBody) : vTakeSession s ep stamp typ h len b =
    match streamCtx s h.stream.toNat with
    | some (_, c) =>
      if c.session ≠ h.session then sendRejoin (advance s stamp) ep h.stream.toNat (h.stream.toNat % 2048)
      else if !sameSource c.endpoint ep then badMsg (advance s stamp)
      else vTake s ep stamp typ h len 0 b
    | none => sendRejoin (advance s stamp) ep h.stream.toNat (h.stream.toNat % 2048) :=
  if_neg (by simp [hears, takes, hmode, hver, hlen])

theorem vTakeSession_own {v : Nat} {c : Ctx} (hctx : streamCtx s h.stream.toNat = some (v, c))
    (hsession : c.session = h.session) (hsame : sameSource c.endpoint ep = true) (stamp typ : Nat) (b : InBody) :
    vTakeSession s ep stamp typ h len b = vTake s ep stamp typ h len 0 b := by
  simp [vTakeSession_judged hears takes hmode hver hlen, hctx, hsession, hsame]

theorem vTakeSession_foreign {v : Nat} {c : Ctx} (hctx : streamCtx s h.stream.toNat = some (v, c))
    (hsession : c.session = h.session) (hother : sameSource c.endpoint ep = false) (stamp typ : Nat) (b : InBody) :
    vTakeSession s ep stamp typ h len b = badMsg (advance s stamp) := by
  simp [vTakeSession_judged hears takes hmode hver hlen, hctx, hsession, hother]

theorem vTakeSession_unknown
    (hno : ((streamCtx s h.stream.toNat).all fun e => e.2.session ≠ h.session) = true) (stamp typ : Nat) (b : InBody) :
    vTakeSession s ep stamp typ h len b =
      sendRejoin (advance s stamp) ep h.stream.toNat (h.stream.toNat % 2048) := by
  rw [vTakeSession_judged hears takes hmode hver hlen]
  cases hctx : streamCtx s h.stream.toNat with
  | none => rfl
  | some e =>
    rw [hctx] at hno
    exact if_pos (by simpa using hno)

end

/-! ### The REJOIN -/

/-- What tells the stations that a REJOIN is sent to apart: the identifier on a bus. -/
def rejoinKey (ep : Endpoint) (vertex : Nat) : Nat := match ep.link with | .bus _ => vertex | .port _ => 0

/-- A REJOIN went to an endpoint within the last second. -/
def RejoinedOf (s : State) (ep : Endpoint) (key : Nat) : Prop :=
  ∃ e ∈ s.npc.rejoined, sameSource e.1 ep = true ∧ e.2.1 = key ∧ s.tb.now < e.2.2 + 1000000000

/-- The REJOINs of the last second. -/
def recentRejoins (s : State) : List (Endpoint × Nat × Nat) :=
  s.npc.rejoined.filter fun e => s.tb.now < e.2.2 + 1000000000

theorem recentRejoins_any (s : State) (ep : Endpoint) (key : Nat) :
    ((recentRejoins s).any fun e => sameSource e.1 ep && decide (e.2.1 = key)) = true ↔ RejoinedOf s ep key := by
  simp only [recentRejoins, List.any_eq_true, List.mem_filter, Bool.and_eq_true, decide_eq_true_eq, RejoinedOf]
  exact ⟨fun ⟨e, ⟨hmem, hnow⟩, hsame, hkey⟩ => ⟨e, hmem, hsame, hkey, hnow⟩,
    fun ⟨e, hmem, hsame, hkey, hnow⟩ => ⟨e, ⟨hmem, hnow⟩, hsame, hkey⟩⟩

/-- A REJOIN to an endpoint is noted with its time. -/
def noteRejoin (s : State) (ep : Endpoint) (key : Nat) : State :=
  { s with npc := { s.npc with rejoined := recentRejoins s ++ [(ep, key, s.tb.now)] } }

theorem sendRejoin_recent {s : State} {ep : Endpoint} {vertex : Nat} (h : RejoinedOf s ep (rejoinKey ep vertex))
    (stream : Nat) : sendRejoin s ep stream vertex = s :=
  if_pos ((recentRejoins_any s ep _).2 h)

theorem sendRejoin_standby {s : State} {ep : Endpoint} {vertex : Nat} (h : ¬ RejoinedOf s ep (rejoinKey ep vertex))
    (hm : emitMode s = .standby) (stream : Nat) : sendRejoin s ep stream vertex =
      { noteRejoin s ep (rejoinKey ep vertex) with
        npc := { (noteRejoin s ep (rejoinKey ep vertex)).npc with
          rejoins := s.npc.rejoins ++ [(ep, stream, vertex)] } } :=
  (if_neg fun hany => h ((recentRejoins_any s ep _).1 hany)).trans (if_pos hm)

theorem sendRejoin_now {s : State} {ep : Endpoint} {vertex : Nat} (h : ¬ RejoinedOf s ep (rejoinKey ep vertex))
    (hm : emitMode s ≠ .standby) (stream : Nat) : sendRejoin s ep stream vertex =
      putRejoin (noteRejoin s ep (rejoinKey ep vertex)) ep stream vertex :=
  (if_neg fun hany => h ((recentRejoins_any s ep _).1 hany)).trans (if_neg hm)

/-- A message of no session is answered with a REJOIN, at most one a second to an endpoint. -/
def RejoinAnswers (s u : State) (ep : Endpoint) (stream : BitVec 16) (key : Nat) (t : State) : Prop :=
  t.rdu = s.rdu ∧ t.npc.ctxs = s.npc.ctxs ∧ t.tb = u.tb ∧
    if ∃ e ∈ s.npc.rejoined, sameSource e.1 ep = true ∧ e.2.1 = key ∧ u.tb.now < e.2.2 + 1000000000 then
      t.npc = s.npc ∧ t.out = s.out
    else (ep, key, u.tb.now) ∈ t.npc.rejoined ∧
      (emitMode s = .standby → t.out = s.out ∧
        t.npc.rejoins = s.npc.rejoins ++ [(ep, stream.toNat, stream.toNat % 2048)]) ∧
      ∀ p r, ep.link = .port p → portRec s p = some r → emitMode s ≠ .standby →
        t.out = s.out ++ [.udp (portSrc s r ep.addr) ep 4 ⟨1, stream, 0, myClaim s, 0, 0, ep.addr⟩ []]

theorem linkTakes_portUp {s : State} {ep : Endpoint} {dst : BitVec 128} {p : Fin 16} (h : linkTakes s ep dst = true)
    (hl : ep.link = .port p) : portUp s p = true := by
  simp only [linkTakes, hl, Bool.and_eq_true] at h
  exact h.1

theorem rejoinAnswers_sendRejoin {s : State} {ep : Endpoint} {dst : BitVec 128} (takes : linkTakes s ep dst = true)
    (stamp : Nat) (stream : BitVec 16) :
    RejoinAnswers s (advance s stamp) ep stream (rejoinKey ep (stream.toNat % 2048))
      (sendRejoin (advance s stamp) ep stream.toNat (stream.toNat % 2048)) := by
  by_cases hrecent : RejoinedOf (advance s stamp) ep (rejoinKey ep (stream.toNat % 2048))
  · rw [sendRejoin_recent hrecent]
    exact ⟨rfl, rfl, rfl, (if_pos hrecent).mpr ⟨rfl, rfl⟩⟩
  have hnoted : ∀ u : State, (ep, rejoinKey ep (stream.toNat % 2048), u.tb.now) ∈
      recentRejoins u ++ [(ep, rejoinKey ep (stream.toNat % 2048), u.tb.now)] := fun _ => by simp
  by_cases hm : emitMode (advance s stamp) = .standby
  · rw [sendRejoin_standby hrecent hm]
    exact ⟨rfl, rfl, rfl, (if_neg hrecent).mpr
      ⟨hnoted (advance s stamp), fun _ => ⟨rfl, rfl⟩, fun _ _ _ _ hs => absurd hm hs⟩⟩
  · rw [sendRejoin_now hrecent hm]
    obtain ⟨hnpc, hrdu, htb⟩ := vSend_keeps (noteRejoin (advance s stamp) ep (rejoinKey ep (stream.toNat % 2048))) ep 4
      stream.toNat 0 (myClaim (advance s stamp)) 0 [] (stream.toNat % 2048)
      ((advance s stamp).tb.tick + (vcfg (advance s stamp)).ackTo)
    refine ⟨hrdu, (congrArg NpcSt.ctxs hnpc :), htb, (if_neg hrecent).mpr
      ⟨?_, fun hs => absurd hs hm, fun p r hl hr _ => ?_⟩⟩
    · exact (congrArg ((ep, rejoinKey ep (stream.toNat % 2048), (advance s stamp).tb.now) ∈ NpcSt.rejoined ·)
        hnpc).mpr (hnoted (advance s stamp))
    · have hsend := vSend_port (s := noteRejoin (advance s stamp) ep (rejoinKey ep (stream.toNat % 2048))) hl hr
        (linkTakes_portUp takes hl) 4 stream.toNat 0 (myClaim (advance s stamp)) 0 [] (stream.toNat % 2048)
        ((advance s stamp).tb.tick + (vcfg (advance s stamp)).ackTo)
      rw [BitVec.ofNat_toNat, BitVec.setWidth_eq] at hsend
      exact congrArg State.out hsend

/-! ### The messages -/

/-- What the obligation says of a message of a session. -/
theorem session_completes {s : State} {ep : Endpoint} {stamp : Nat} {h : VHead} {m : Instr} {typ len : Nat} {b : InBody}
    (hm : exec m s = .next (vTakeSession s ep stamp typ h len b)) (hears : vListens s = true)
    (takes : linkTakes s ep h.dst = true) (hmode : modeIs s ≠ .resync) (hver : h.ver = 1) (hlen : h.len.toNat = len) :
    (∀ v c, streamCtx s h.stream.toNat = some (v, c) → c.session = h.session →
      (sameSource c.endpoint ep = true →
        (h.ver = 1 → h.len.toNat = len → Completes (exec m s) (MessageTaken s stamp
          (vSource s ep typ h.stream.toNat 0 b).1 (vSource s ep typ h.stream.toNat 0 b).2 b)) ∧
        ((h.ver ≠ 1 ∨ h.len.toNat ≠ len) → Completes (exec m s) (MessageDropped s stamp))) ∧
      (sameSource c.endpoint ep = false → Completes (exec m s) (MessageDropped s stamp))) ∧
    (((streamCtx s h.stream.toNat).all fun e => e.2.session ≠ h.session) = true → ∀ (key : Nat) (u : State),
      key = (match ep.link with | .bus _ => h.stream.toNat % 2048 | .port _ => 0) → u = advance s stamp →
      Completes (exec m s) (RejoinAnswers s u ep h.stream key)) := by
  refine ⟨fun v c hctx hsession => ⟨fun hsame => ⟨fun _ _ => ⟨_, hm, ?_⟩, fun hbad => ?_⟩, fun hother => ⟨_, hm, ?_⟩⟩,
    fun hno key u hkey hu => ⟨_, hm, ?_⟩⟩
  · rw [vTakeSession_own hears takes hmode hver hlen hctx hsession hsame]
    exact vTake_good hears takes hver hlen stamp typ 0 b
  · exact hbad.elim (absurd hver) (absurd hlen)
  · rw [vTakeSession_foreign hears takes hmode hver hlen hctx hsession hother]
    exact messageDropped_badMsg s stamp
  · subst hkey hu
    rw [vTakeSession_unknown hears takes hmode hver hlen hno]
    exact rejoinAnswers_sendRejoin takes stamp h.stream

section

variable {s : State} {ep : Endpoint} {stamp : Nat} {h : VHead} {m : Instr} {typ len sid : Nat} {b : InBody}
  (hears : vListens s = true) (takes : linkTakes s ep h.dst = true)
include hears takes

/-- What the obligation says of a message that no session bears on. -/
theorem vTake_completes (hm : exec m s = .next (vTake s ep stamp typ h len sid b)) :
    (h.ver = 1 → h.len.toNat = len → Completes (exec m s) (MessageTaken s stamp
      (vSource s ep typ h.stream.toNat sid b).1 (vSource s ep typ h.stream.toNat sid b).2 b)) ∧
    ((h.ver ≠ 1 ∨ h.len.toNat ≠ len) → Completes (exec m s) (MessageDropped s stamp)) :=
  ⟨fun hver hlen => ⟨_, hm, vTake_good hears takes hver hlen stamp typ sid b⟩,
    fun hbad => ⟨_, hm, vTake_bad hears takes hbad stamp typ sid b⟩⟩

end

theorem exec_join {j : JoinBody} (hj : j.stationId ≠ 0) (s : State) (ep : Endpoint) (stamp : Nat) (h : VHead) :
    exec (.join ep stamp h j) s = .next (vTake s ep stamp 1 h 24 j.stationId.toNat (.join ep j)) :=
  congrArg Host.Outcome.next (if_neg fun hz => hj hz.1)

theorem exec_leave {s : State} {ep : Endpoint} {i : BitVec 64}
    (hi : ((s.npc.ctxs.find? (·.2.stationId = i)).all fun e => sameSource e.2.endpoint ep) = true) (stamp : Nat)
    (h : VHead) : exec (.leave ep stamp h i) s = .next (vTake s ep stamp 3 h 8 i.toNat (.leave ep i)) := by
  refine congrArg Host.Outcome.next ?_
  cases hctx : s.npc.ctxs.find? (·.2.stationId = i) with
  | none => rfl
  | some e =>
    rw [hctx] at hi
    exact if_neg fun hother => absurd hi (by simpa using hother.1)

/-- A message that its port does not take is counted, whatever it is. -/
theorem untaken_eq {s : State} {ep : Endpoint} {h : VHead} {p : Fin 16} (hears : vListens s = true)
    (refused : linkTakes s ep h.dst = false) (hl : ep.link = .port p) (hup : portUp s p = true) (stamp : Nat)
    {m : Instr} {j i a l x} (hm : m = .join ep stamp h j ∨ m = .leave ep stamp h i ∨ m = .cack ep stamp h a ∨
      m = .report ep stamp h a l ∨ m = .mismatch ep stamp h x) :
    exec m s = .next (bump s Reg.NPCp_STATUS_DROPPED p.val) := by
  have htake := vTake_untaken hears refused hl hup stamp
  have hsession (typ len : Nat) (b : InBody) :
      vTakeSession s ep stamp typ h len b = bump s Reg.NPCp_STATUS_DROPPED p.val :=
    (if_pos (by simp [refused])).trans (htake typ len 0 b)
  rcases hm with rfl | rfl | rfl | rfl | rfl
  · exact congrArg Host.Outcome.next ((if_neg (by simp [refused])).trans (htake ..))
  · refine congrArg Host.Outcome.next ?_
    split
    · exact (if_neg (by simp [refused])).trans (htake ..)
    · exact htake ..
  · exact congrArg Host.Outcome.next (hsession ..)
  · exact congrArg Host.Outcome.next (hsession ..)
  · exact congrArg Host.Outcome.next (hsession ..)

/-- Settles O44: a message that its link takes is judged by its head, then by its context and session. -/
theorem vertexMessages : Obligations.VertexMessages := by
  refine fun s ep stamp h hears => ⟨fun takes => ⟨fun j => ⟨fun hj => ?_, fun hj => ?_⟩,
    fun i => ⟨fun hi => ?_, fun v c hctx hother => ?_⟩, fun a hmode hver hlen => ?_, fun a l hmode hver hlen => ?_,
    fun x hmode hver hlen => ?_⟩, fun p m j i a l x refused hl hup hm => ?_⟩
  · exact vTake_completes hears takes (exec_join hj s ep stamp h)
  · exact ⟨_, congrArg Host.Outcome.next (if_pos ⟨hj, hears, takes⟩), messageDropped_badMsg s stamp⟩
  · exact vTake_completes hears takes (exec_leave hi stamp h)
  · refine ⟨_, congrArg Host.Outcome.next ?_, messageDropped_badMsg s stamp⟩
    rw [hctx]
    exact if_pos ⟨by simp [hother], hears, takes⟩
  · exact session_completes rfl hears takes hmode hver hlen
  · exact session_completes rfl hears takes hmode hver hlen
  · exact session_completes rfl hears takes hmode hver hlen
  · exact ⟨_, untaken_eq hears refused hl hup stamp hm, bump_same _ _ _ 1, rfl, fieldsBut_wr (by simp) _ _⟩

end Sys2Proof.Machine
end

section
/-! SUPPORT. The times of a context and the context commands (R254, R259, R264, R266, R271, R274, Table 11.15): what the
end of a copy, a ring entry and the loss of a context leave as they were. -/

namespace Sys2Proof.Machine

/-! ### The report ring -/

/-- The count and the head of the report ring. -/
def ringFields : List Field := [Reg.NPC_VRDROP_VRDROP, Reg.NPC_VRHEAD_HEAD]

theorem ringPut_keeps {β : Type} {p : State → β} (hfield : ∀ f ∈ ringFields, ∀ s v, p (wr s f v) = p s)
    (hout : ∀ s o, p (emit s o) = p s) (hpend : ∀ s l, p { s with hmx := { s.hmx with msixPend := l } } = p s)
    (s : State) (e : REntry) : p (ringPut s e) = p s :=
  ite_keeps (hfield _ (by decide) _ _) <|
    (msix_keeps hout hpend _ _).trans <| (hfield _ (by decide) _ _).trans (hout _ _)

theorem rd_ringPut {g : Field} {j : Nat} (hg : ∀ f ∈ ringFields, g.id ≠ f.id) (hj : j < 8192) (s : State) (e : REntry) :
    rd (ringPut s e) g j = rd s g j :=
  ringPut_keeps (p := (rd · g j)) (fun f hf s v => rd_wr_of_id_ne (hg f hf) (by decide) hj s v) (fun _ _ => rfl)
    (fun _ _ => rfl) s e

@[simp] theorem ringPut_npc (s : State) (e : REntry) : (ringPut s e).npc = s.npc :=
  ringPut_keeps (p := State.npc) (fun _ _ _ _ => rfl) (fun _ _ => rfl) (fun _ _ => rfl) s e

theorem ringPut_disabled {s : State} (h : rdB s Reg.NPC_VRCFG_EN = false) (e : REntry) :
    ringPut s e = bump s Reg.NPC_VRDROP_VRDROP :=
  if_pos (by simp [h])

/-- An entry that finds the ring empty moves its head on. -/
theorem ringPut_empty {s : State} (h : rdB s Reg.NPC_VRCFG_EN = true)
    (hempty : rd s Reg.NPC_VRHEAD_HEAD = rd s Reg.NPC_VRREAD_READ) (e : REntry) :
    rd (ringPut s e) Reg.NPC_VRHEAD_HEAD = (rd s Reg.NPC_VRHEAD_HEAD + 1) % 2 ^ 32 := by
  have hpos := Nat.two_pow_pos (rd s Reg.NPC_VRCFG_VRLOG)
  have hfull : ¬ (!rdB s Reg.NPC_VRCFG_EN || decide (2 ^ rd s Reg.NPC_VRCFG_VRLOG ≤
      (rd s Reg.NPC_VRHEAD_HEAD + 2 ^ 32 - rd s Reg.NPC_VRREAD_READ) % 2 ^ 32)) = true := by
    rw [← hempty, h, Nat.add_sub_cancel_left, Nat.mod_self]
    simp
  refine (congrArg (rd · Reg.NPC_VRHEAD_HEAD) (if_neg hfull)).trans ?_
  exact (msix_keeps (p := (rd · Reg.NPC_VRHEAD_HEAD)) (fun _ _ => rfl) (fun _ _ => rfl) _ _).trans (rd_wr_same _ _ _ _)

/-! ### The end of a copy -/

/-- A context after the end of one of its copies. -/
def copyEnded (c : Ctx) (seq : BitVec 32) (run : Option DelRun) : Ctx :=
  { c with copies := c.copies.filter (·.seq ≠ seq), run := run }

/-- A copy that ends leaves its context without it; its outcome is counted, and at most the run before it is written. -/
theorem endCopy_some {s : State} {v : Nat} {c : Ctx} (h : ctxOf s v = some c) (seq : BitVec 32) (code rsn : Nat) :
    ∃ u run, endCopy s v seq code rsn = setCtx u v (copyEnded c seq run) ∧ u.npc = s.npc ∧
      ∀ g j, (∀ f ∈ ringFields, g.id ≠ f.id) → j < 8192 → rd u g j = rd (bump s (vcntOf code) v) g j := by
  simp only [endCopy, h]
  have hput (d : Ctx) (r : DelRun) : (writeRun (bump s (vcntOf code) v) v d r).npc = s.npc ∧
      ∀ g j, (∀ f ∈ ringFields, g.id ≠ f.id) → j < 8192 →
        rd (writeRun (bump s (vcntOf code) v) v d r) g j = rd (bump s (vcntOf code) v) g j :=
    ⟨ringPut_npc _ _, fun _ _ hg hj => rd_ringPut hg hj _ _⟩
  split
  · split
    · split
      · exact ⟨_, none, rfl, hput _ _⟩
      · exact ⟨_, _, rfl, rfl, fun _ _ _ _ => rfl⟩
    · exact ⟨_, _, rfl, hput _ _⟩
  · exact ⟨_, _, rfl, rfl, fun _ _ _ _ => rfl⟩

theorem endCopy_none {s : State} {v : Nat} (h : ctxOf s v = none) (seq : BitVec 32) (code rsn : Nat) :
    endCopy s v seq code rsn = s := by
  simp only [endCopy, h]

/-- What holds of a context while its copies end one by one. -/
theorem ctxOf_endCopy {s : State} {v : Nat} {c : Ctx} (h : ctxOf s v = some c) (seq : BitVec 32) (code rsn : Nat) :
    ∃ run, ctxOf (endCopy s v seq code rsn) v = some (copyEnded c seq run) := by
  obtain ⟨u, run, heq, -, -⟩ := endCopy_some h seq code rsn
  exact ⟨run, heq ▸ tget_tput_same _ _ _⟩

theorem endCopy_other {v w : Nat} (hw : w ≠ v) (s : State) (seq : BitVec 32) (code rsn : Nat) :
    tget (endCopy s v seq code rsn).npc.ctxs w = tget s.npc.ctxs w := by
  cases h : ctxOf s v with
  | none => rw [endCopy_none h]
  | some c =>
    obtain ⟨u, run, heq, hnpc, -⟩ := endCopy_some h seq code rsn
    rw [heq]
    exact (tget_tput_ne hw _ _).trans (congrArg (fun n => tget (NpcSt.ctxs n) w) hnpc)

theorem endCopies_other {v w : Nat} (hw : w ≠ v) (s : State) (code rsn : Nat) :
    tget (endCopies s v code rsn).npc.ctxs w = tget s.npc.ctxs w := by
  unfold endCopies
  split
  · rfl
  · exact foldl_keeps (fun t => tget t.npc.ctxs w) (f := fun (t : State) (k : Copy) => endCopy t v k.seq code rsn)
      (fun t k => endCopy_other hw t k.seq code rsn) _ s

/-- The copies that end leave the context, whose session and sequence go on. -/
theorem ctxOf_endCopy_fold (v code rsn : Nat) (l : List Copy) {s : State} {c : Ctx} (h : ctxOf s v = some c) :
    ∃ c', ctxOf (l.foldl (fun s k => endCopy s v k.seq code rsn) s) v = some c' ∧ c'.session = c.session ∧
      c'.lastSeq = c.lastSeq ∧ ∀ k ∈ c'.copies, k ∈ c.copies ∧ ∀ k' ∈ l, k.seq ≠ k'.seq := by
  induction l generalizing s c with
  | nil => exact ⟨c, h, rfl, rfl, fun k hk => ⟨hk, fun _ h => absurd h List.not_mem_nil⟩⟩
  | cons x l ih =>
    obtain ⟨run, hx⟩ := ctxOf_endCopy h x.seq code rsn
    obtain ⟨c', hc', hsession, hseq, hcopies⟩ := ih hx
    refine ⟨c', hc', hsession, hseq, fun k hk => ?_⟩
    obtain ⟨hmem, hne⟩ := hcopies k hk
    obtain ⟨hold, hother⟩ := List.mem_filter.1 hmem
    exact ⟨hold, List.forall_mem_cons.2 ⟨by simpa using hother, hne⟩⟩

/-! ### A context that becomes unreachable -/

theorem showCtx_keeps {β : Type} {p : State → β} {v : Nat} (h : ∀ s x, p (wr s Reg.NPC_VSTS_QUAL x v) = p s)
    (s : State) : p (showCtx s v) = p s := by
  unfold showCtx
  split
  · exact h _ _
  · exact h _ _

/-- What an unreachable context shows. -/
def unreachableFields : List Field :=
  recorderFields ++ [Reg.NPC_VSTS_QUAL, Reg.NPC_VSUM_ADMITTED, Reg.NPC_VSUM_UNREACH]

theorem showUnreachable_keeps {β : Type} {p : State → β} {v : Nat}
    (hshow : ∀ s x, p (wr s Reg.NPC_VSTS_QUAL x v) = p s) (hadm : ∀ s x, p (wr s Reg.NPC_VSUM_ADMITTED x) = p s)
    (hun : ∀ s x, p (wr s Reg.NPC_VSUM_UNREACH x) = p s)
    (hevent : ∀ s code sev ps, p (event s code sev ps) = p s) (s : State) :
    p (event (setVsum (showCtx s v)) Ev.vertexUnreachable .warning []) = p s :=
  (hevent _ _ _ _).trans <| (hun _ _).trans <| (hadm _ _).trans (showCtx_keeps hshow s)

theorem rd_showUnreachable {g : Field} {j v : Nat} (hv : v < 8192) (hj : j < 8192)
    (hg : ∀ f ∈ unreachableFields, g.id ≠ f.id) (s : State) :
    rd (event (setVsum (showCtx s v)) Ev.vertexUnreachable .warning []) g j = rd s g j :=
  showUnreachable_keeps (p := (rd · g j))
    (fun s x => rd_wr_of_id_ne (hg _ (by decide)) hv hj s x)
    (fun s x => rd_wr_of_id_ne (hg _ (by decide)) (by decide) hj s x)
    (fun s x => rd_wr_of_id_ne (hg _ (by decide)) (by decide) hj s x)
    (fun s c v l => rd_event (fun f hf => hg f (List.mem_append_left _ hf)) hj s c v l) s

@[simp] theorem unreachable_npc (s : State) (v : Nat) : (unreachable s v).npc = s.npc :=
  ite_keeps (p := State.npc) ((showUnreachable_keeps (p := State.npc) (fun _ _ => rfl) (fun _ _ => rfl) (fun _ _ => rfl)
    event_npc _).trans rfl) rfl

theorem reach_unreachable {s : State} {v : Nat} {c : Ctx} (hv : v < 8192) (h : ctxOf s v = some c) :
    rdB (unreachable s v) Reg.NPC_VSTS_REACH v = false := by
  unfold unreachable
  split
  next hr =>
    exact (rdB_of_rd (rd_showUnreachable hv hv (by decide) _)).trans (decide_eq_false (by rw [rd_wr_same]; decide))
  next hr => simpa [h] using hr

theorem rd_unreachable {g : Field} {j v : Nat} (hv : v < 8192) (hj : j < 8192)
    (hg : ∀ f ∈ Reg.NPC_VSTS_REACH :: unreachableFields, g.id ≠ f.id) (s : State) :
    rd (unreachable s v) g j = rd s g j :=
  ite_keeps (p := (rd · g j)) ((rd_showUnreachable hv hj (fun f hf => hg f (List.mem_cons_of_mem _ hf)) _).trans
    (rd_wr_of_id_ne (hg _ (by decide)) hv hj s 0)) rfl

theorem rd_setVsum {g : Field} {j : Nat} (hg : ∀ f ∈ [Reg.NPC_VSUM_ADMITTED, Reg.NPC_VSUM_UNREACH], g.id ≠ f.id)
    (hj : j < 8192) (s : State) : rd (setVsum s) g j = rd s g j :=
  (rd_wr_of_id_ne (hg _ (by decide)) (by decide) hj _ _).trans (rd_wr_of_id_ne (hg _ (by decide)) (by decide) hj _ _)

/-! ### A context freed -/

/-- The points of a context read BAD, in the image alone. -/
def badPoint (s : State) (p : Nat) : State :=
  match tget s.csa.img p with
  | some x => { s with csa := { s.csa with img := tput s.csa.img p { x with qual := .bad } } }
  | none => s

theorem badPoint_flds (s : State) (p : Nat) : (badPoint s p).flds = s.flds := by
  unfold badPoint
  split <;> rfl

theorem badPoint_npc (s : State) (p : Nat) : (badPoint s p).npc = s.npc := by
  unfold badPoint
  split <;> rfl

/-- The status word of a context that is freed. -/
def freedWord (s : State) (v : Nat) : State :=
  [(Reg.NPC_VSTS_QUAL, qualCode .bad), (Reg.NPC_VSTS_MSTATE, mstateCode .spare), (Reg.NPC_VSTS_ADM, 0),
    (Reg.NPC_VSTS_REACH, 0), (Reg.NPC_VSTS_MED, 0), (Reg.NPC_VSTS_LINK, 0), (Reg.NPC_VSTS_MM, 0),
    (Reg.NPC_VSTS_TRUNC, 0), (Reg.NPC_VSTS_SESSION, 0)].foldl (fun s e => wr s e.1 e.2 v) s

theorem freedWord_reads {v : Nat} (hv : v < 2048) (s : State) : rd (freedWord s v) Reg.NPC_VSTS_ADM v = 0 ∧
    rd (freedWord s v) Reg.NPC_VSTS_QUAL v = qualCode .bad := by
  have hne {f g : Field} (h : g.id ≠ f.id) (t : State) (x : Nat) : rd (wr t f x v) g v = rd t g v :=
    rd_wr_of_id_ne h (by omega) (by omega) t x
  simp only [freedWord, List.foldl_cons, List.foldl_nil]
  constructor <;> simp (disch := decide) only [hne, rd_wr_same] <;> rfl

/-- What the freeing of a context has done to the state before its ring entry. -/
theorem freeCtx_some {s : State} {v : Nat} {c : Ctx} (h : ctxOf s v = some c) : ∃ (u : State) (l : List PointDef)
    (e : REntry), freeCtx s v = ringPut (setVsum (l.foldl (fun s p => badPoint s p.num)
      (freedWord { u with npc := { u.npc with ctxs := tdel u.npc.ctxs v } } v))) e ∧
      u.npc = (endCopies s v CC.failCancelled Rsn.released).npc := by
  simp only [freeCtx, h]
  split
  · exact ⟨_, _, _, rfl, ringPut_npc _ _⟩
  · exact ⟨_, _, _, rfl, rfl⟩

/-- A context freed is no context any more, and no other context changed. -/
theorem freeCtx_effect {s : State} {v : Nat} {c : Ctx} (h : ctxOf s v = some c) (hv : v < 2048) :
    tget (freeCtx s v).npc.ctxs v = none ∧ rd (freeCtx s v) Reg.NPC_VSTS_ADM v = 0 ∧
      rd (freeCtx s v) Reg.NPC_VSTS_QUAL v = qualCode .bad ∧
      ∀ w, w ≠ v → tget (freeCtx s v).npc.ctxs w = tget s.npc.ctxs w := by
  obtain ⟨u, l, e, heq, hu⟩ := freeCtx_some h
  have hnpc : (freeCtx s v).npc.ctxs = tdel u.npc.ctxs v := by
    rw [heq, ringPut_npc]
    exact congrArg NpcSt.ctxs (foldl_keeps State.npc (fun t p => badPoint_npc t p.num) l _)
  have hrd (g : Field) (hring : ∀ f ∈ ringFields, g.id ≠ f.id)
      (hsum : ∀ f ∈ [Reg.NPC_VSUM_ADMITTED, Reg.NPC_VSUM_UNREACH], g.id ≠ f.id) : rd (freeCtx s v) g v =
        rd (freedWord { u with npc := { u.npc with ctxs := tdel u.npc.ctxs v } } v) g v := by
    rw [heq, rd_ringPut hring (by omega), rd_setVsum hsum (by omega)]
    exact foldl_keeps (rd · g v) (fun t p => congrArg (rdIn · g v) (badPoint_flds t p.num)) l _
  obtain ⟨hadm, hqual⟩ := freedWord_reads hv { u with npc := { u.npc with ctxs := tdel u.npc.ctxs v } }
  refine ⟨?_, (hrd _ (by decide) (by decide)).trans hadm, (hrd _ (by decide) (by decide)).trans hqual, fun w hw => ?_⟩
  · rw [hnpc]
    exact tget_tdel_same _ _
  · rw [hnpc, tget_tdel_ne hw, hu]
    exact endCopies_other hw s _ _

/-! ### The context commands -/

theorem vcmdEnd_reads (s : State) {code rsn : Nat} (hcode : code < 256) (hrsn : rsn < 256) :
    rd (vcmdEnd s code rsn) Reg.NPC_VCMDSTS_CC = code ∧ rd (vcmdEnd s code rsn) Reg.NPC_VCMDSTS_RSN = rsn ∧
      rd (vcmdEnd s code rsn) Reg.NPC_VCMDSTS_PEND = 0 := by
  obtain ⟨hcc, hr, hpend⟩ := setStatus_reads (cc := Reg.NPC_VCMDSTS_CC) (rsn := Reg.NPC_VCMDSTS_RSN)
    (pend := Reg.NPC_VCMDSTS_PEND) (i := 0) s code rsn (by decide) (by decide) (by decide)
  exact ⟨hcc.trans (Nat.mod_eq_of_lt hcode), hr.trans (Nat.mod_eq_of_lt hrsn), hpend⟩

theorem rd_vcmdEnd {g : Field} {j : Nat} (hj : j < 8192)
    (hg : ∀ f ∈ [Reg.NPC_VCMDSTS_CC, Reg.NPC_VCMDSTS_RSN, Reg.NPC_VCMDSTS_PEND], g.id ≠ f.id) (s : State)
    (code rsn : Nat) : rd (vcmdEnd s code rsn) g j = rd s g j :=
  (rd_wr_of_id_ne (hg _ (by decide)) (by decide) hj _ _).trans <|
    (rd_wr_of_id_ne (hg _ (by decide)) (by decide) hj _ _).trans (rd_wr_of_id_ne (hg _ (by decide)) (by decide) hj _ _)

section

variable {s : State} (hpend : rdB s Reg.NPC_VCMDSTS_PEND = false)
include hpend

theorem vcmd_halt (hm : modeIs s = .halt) (b : InBody) :
    vcmd s b = vcmdEnd (vcmdApply s b).1 (vcmdApply s b).2.1 (vcmdApply s b).2.2 := by
  simp only [vcmd, hpend, hm]
  rfl

theorem vcmd_runs (hm : modeIs s = .active ∨ modeIs s = .standby ∨ modeIs s = .safehold) (b : InBody) :
    vcmd s b = submitHost (wr s Reg.NPC_VCMDSTS_PEND 1) Reg.NPC_VCMD_CMD b := by
  rcases hm with hm | hm | hm <;> simp only [vcmd, hpend, hm] <;> rfl

end

/-- In HALT a RELEASE frees an admitted context. -/
theorem release_halt {s : State} {v : Fin 2048} {c : Ctx} (hpend : rdB s Reg.NPC_VCMDSTS_PEND = false)
    (hm : modeIs s = .halt) (h : ctxOf s v.val = some c) :
    exec (.vcmdRelease v) s = .next (vcmdEnd (freeCtx s v.val) CC.done 0) := by
  have happly : vcmdApply s (.release v.val) = (freeCtx s v.val, CC.done, 0) := if_pos (by simp [h])
  refine congrArg Host.Outcome.next ((vcmd_halt hpend hm _).trans ?_)
  rw [happly]

/-- The count of mismatches cleared. -/
def mismatchesCleared (s : State) (v : Nat) (c : Ctx) : State :=
  setCtx (wr s Reg.NPC_VMM_MMCNT 0 v) v { c with mmSeen := false }

theorem mismatchesCleared_read (s : State) (v : Nat) (c : Ctx) :
    rd (mismatchesCleared s v c) Reg.NPC_VMM_MMCNT v = 0 :=
  rd_wr_same s Reg.NPC_VMM_MMCNT v 0

theorem clearmm_halt {s : State} {v : Fin 2048} {c : Ctx} (hpend : rdB s Reg.NPC_VCMDSTS_PEND = false)
    (hm : modeIs s = .halt) (h : ctxOf s v.val = some c) :
    exec (.clearmm v) s = .next (vcmdEnd (mismatchesCleared s v.val c) CC.done 0) := by
  have happly : vcmdApply s (.clearMm v.val) = (mismatchesCleared s v.val c, CC.done, 0) := by
    simp only [vcmdApply, h]
    rfl
  refine congrArg Host.Outcome.next ((vcmd_halt hpend hm _).trans ?_)
  rw [happly]

theorem vcmdApply_unadmitted {s : State} {v : Nat} (h : ctxOf s v = none) {b : InBody}
    (hb : b = .release v ∨ b = .clearMm v) : vcmdApply s b = (s, CC.failRefused, Rsn.notAdmitted) := by
  rcases hb with rfl | rfl
  · exact if_neg (by simp [h])
  · simp only [vcmdApply, h]

/-- The context commands as the table has them. -/
theorem exec_vcmd {s : State} {v : Fin 2048} {c : Instr} {b : InBody}
    (h : c = .vcmdRelease v ∧ b = .release v.val ∨ c = .clearmm v ∧ b = .clearMm v.val) :
    exec c s = .next (vcmd s b) ∧ (b = .release v.val ∨ b = .clearMm v.val) := by
  rcases h with ⟨rfl, rfl⟩ | ⟨rfl, rfl⟩
  · exact ⟨rfl, .inl rfl⟩
  · exact ⟨rfl, .inr rfl⟩

/-- What a context command does with none pending. -/
theorem contextCommand (s : State) (v : Fin 2048) (hpend : rdB s Reg.NPC_VCMDSTS_PEND = false) :
    (modeIs s = .halt → (tget s.npc.ctxs v.val).isSome = true →
      (Completes (exec (.vcmdRelease v) s) fun t => tget t.npc.ctxs v.val = none ∧ rd t Reg.NPC_VSTS_ADM v.val = 0 ∧
        rd t Reg.NPC_VSTS_QUAL v.val = qualCode .bad ∧ rd t Reg.NPC_VCMDSTS_CC = CC.done ∧
        rd t Reg.NPC_VCMDSTS_PEND = 0 ∧ ∀ w, w ≠ v.val → tget t.npc.ctxs w = tget s.npc.ctxs w) ∧
      (Completes (exec (.clearmm v) s) fun t => rd t Reg.NPC_VMM_MMCNT v.val = 0 ∧
        rd t Reg.NPC_VCMDSTS_CC = CC.done ∧ rd t Reg.NPC_VCMDSTS_PEND = 0 ∧ (tget t.npc.ctxs v.val).isSome = true)) ∧
    (∀ (c : Instr) (b : InBody), (c = .vcmdRelease v ∧ b = .release v.val ∨ c = .clearmm v ∧ b = .clearMm v.val) →
      (modeIs s = .halt → tget s.npc.ctxs v.val = none → Completes (exec c s) fun t =>
        rd t Reg.NPC_VCMDSTS_CC = CC.failRefused ∧ rd t Reg.NPC_VCMDSTS_RSN = Rsn.notAdmitted ∧
        rd t Reg.NPC_VCMDSTS_PEND = 0 ∧ t.npc = s.npc) ∧
      ((modeIs s = .active ∨ modeIs s = .standby ∨ modeIs s = .safehold) → Completes (exec c s) fun t =>
        rd t Reg.NPC_VCMDSTS_PEND = 1 ∧ t.npc = s.npc ∧ t.rdu.own = listPut s.rdu.own (tickOf s s.tb.now)
          ⟨s.tb.now, ⟨64, Reg.NPC_VCMD_CMD.addr⟩, ownSide s, b⟩)) := by
  have hv : v.val < 8192 := by omega
  refine ⟨fun hm hsome => ?_, fun c b hcb => ?_⟩
  · obtain ⟨c, hc⟩ := Option.isSome_iff_exists.1 hsome
    constructor
    · obtain ⟨hgone, hadm, hqual, hothers⟩ := freeCtx_effect hc v.isLt
      obtain ⟨hcc, -, hp⟩ := vcmdEnd_reads (freeCtx s v.val) (code := CC.done) (rsn := 0) (by decide) (by decide)
      exact ⟨_, release_halt hpend hm hc, hgone, (rd_vcmdEnd hv (by decide) _ _ _).trans hadm,
        (rd_vcmdEnd hv (by decide) _ _ _).trans hqual, hcc, hp, hothers⟩
    · obtain ⟨hcc, -, hp⟩ := vcmdEnd_reads (mismatchesCleared s v.val c) (code := CC.done) (rsn := 0) (by decide)
        (by decide)
      exact ⟨_, clearmm_halt hpend hm hc, (rd_vcmdEnd hv (by decide) _ _ _).trans (mismatchesCleared_read s v.val c), hcc, hp,
        Option.isSome_iff_exists.2 ⟨_, tget_tput_same _ _ _⟩⟩
  · obtain ⟨hexec, hb⟩ := exec_vcmd hcb
    refine ⟨fun hm hnone => ⟨_, hexec, ?_⟩, fun hm => ⟨_, hexec, ?_⟩⟩
    · obtain ⟨hcc, hrsn, hp⟩ := vcmdEnd_reads s (code := CC.failRefused) (rsn := Rsn.notAdmitted) (by decide) (by decide)
      rw [vcmd_halt hpend hm, vcmdApply_unadmitted hnone hb]
      exact ⟨hcc, hrsn, hp, rfl⟩
    · obtain ⟨hp, -, hown⟩ := submitHost_pends s Reg.NPC_VCMD_CMD (pend := Reg.NPC_VCMDSTS_PEND) rfl (by decide) b
      rw [vcmd_runs hpend hm]
      exact ⟨hp, ite_keeps (p := State.npc) rfl rfl, hown⟩

/-! ### The times of a context -/

/-- The copies of a context that are at their limit. -/
def dueCopies (s : State) (c : Ctx) : List Copy :=
  c.copies.filter fun k => k.first + (k.retry + 1) * k.ackTo ≤ s.tb.tick

theorem mem_dueCopies {s : State} {c : Ctx} {k : Copy} :
    k ∈ dueCopies s c ↔ k ∈ c.copies ∧ k.first + (k.retry + 1) * k.ackTo ≤ s.tb.tick := by
  simp [dueCopies]

theorem copyTimeout_due {s : State} {v : Nat} {c : Ctx} {k : Copy} (h : ctxOf s v = some c) (hk : k ∈ dueCopies s c) :
    copyTimeout s v = unreachable
      ((dueCopies s c).foldl (fun s k => endCopy s v k.seq CC.failPeerUnreachable 0) s) v := by
  simp only [copyTimeout, h]
  exact if_neg fun hempty => List.ne_nil_of_mem hk (List.isEmpty_iff.1 hempty)

theorem copyTimeout_none_due {s : State} {v : Nat} {c : Ctx} (h : ctxOf s v = some c)
    (hnone : ∀ k ∈ c.copies, s.tb.tick < k.first + (k.retry + 1) * k.ackTo) : copyTimeout s v = s := by
  simp only [copyTimeout, h]
  exact if_pos (List.isEmpty_iff.2 (List.filter_eq_nil_iff.2 fun k hk => by simpa using hnone k hk))

/-- The end of the one copy of a context is counted. -/
theorem endCopy_unreach {s : State} {v : Nat} {c : Ctx} (h : ctxOf s v = some c) (hv : v < 8192) (seq : BitVec 32)
    (rsn : Nat) : rd (endCopy s v seq CC.failPeerUnreachable rsn) Reg.NPC_VCNT2_UNREACH v =
      min (rd s Reg.NPC_VCNT2_UNREACH v + 1) (2 ^ Reg.NPC_VCNT2_UNREACH.width - 1) := by
  obtain ⟨u, run, heq, -, hrd⟩ := endCopy_some h seq CC.failPeerUnreachable rsn
  rw [heq]
  exact (hrd Reg.NPC_VCNT2_UNREACH v (by decide) hv).trans (bump_same s Reg.NPC_VCNT2_UNREACH v 1)

theorem copyTimeout_effect {s : State} {v : Nat} {c : Ctx} {k : Copy} (h : ctxOf s v = some c) (hv : v < 8192)
    (hk : k ∈ dueCopies s c) : rdB (copyTimeout s v) Reg.NPC_VSTS_REACH v = false ∧
      ∃ c', tget (copyTimeout s v).npc.ctxs v = some c' ∧ c'.session = c.session ∧ c'.lastSeq = c.lastSeq ∧
        (∀ k' ∈ c'.copies, k' ∈ c.copies ∧ s.tb.tick < k'.first + (k'.retry + 1) * k'.ackTo) ∧
        (c.copies = [k] → rd (copyTimeout s v) Reg.NPC_VCNT2_UNREACH v =
          min (rd s Reg.NPC_VCNT2_UNREACH v + 1) (2 ^ Reg.NPC_VCNT2_UNREACH.width - 1)) := by
  obtain ⟨c', hc', hsession, hseq, hcopies⟩ := ctxOf_endCopy_fold v CC.failPeerUnreachable 0 (dueCopies s c) h
  rw [copyTimeout_due h hk]
  refine ⟨reach_unreachable hv hc', c', ?_, hsession, hseq, fun k' hk' => ?_, fun hone => ?_⟩
  · rw [unreachable_npc]
    exact hc'
  · obtain ⟨hmem, hnot⟩ := hcopies k' hk'
    exact ⟨hmem, Nat.lt_of_not_le fun hdue => hnot k' (mem_dueCopies.2 ⟨hmem, hdue⟩) rfl⟩
  · have hdue : dueCopies s c = [k] := by
      have hlimit := (mem_dueCopies.1 hk).2
      simp [dueCopies, hone, hlimit]
    rw [rd_unreachable hv hv (by decide), hdue]
    exact endCopy_unreach h hv k.seq 0

theorem reportMiss_effect {s : State} {v : Nat} {c : Ctx} (h : ctxOf s v = some c) (hv : v < 8192)
    (hlink : linkStopped s c.endpoint.link = false) (hmiss : c.missFrom + c.missMax * c.rpTicks ≤ s.tb.tick) :
    rdB (reportMiss s v) Reg.NPC_VSTS_REACH v = false ∧ (reportMiss s v).npc = s.npc := by
  have hmissed : reportMiss s v = unreachable s v := by
    simp only [reportMiss, h]
    exact if_pos (by simp [hlink, hmiss])
  rw [hmissed]
  exact ⟨reach_unreachable hv h, unreachable_npc s v⟩

theorem reportMiss_before {s : State} {v : Nat} {c : Ctx} (h : ctxOf s v = some c)
    (hmiss : s.tb.tick < c.missFrom + c.missMax * c.rpTicks) : reportMiss s v = s := by
  simp only [reportMiss, h]
  exact if_neg (by simp [hmiss])

section

variable {s : State} {v : Fin 2048} {c : Ctx} {r : DelRun} (h : ctxOf s v.val = some c) (hr : c.run = some r)
include h hr

theorem runTimeout_due (hdue : r.since + 1000000000 ≤ s.tb.now) : exec (.deliveryRunTimeout v) s =
    .next (setCtx (writeRun s v.val c r) v.val { c with run := none }) := by
  refine congrArg Host.Outcome.next ?_
  simp only [h, hr]
  exact if_pos hdue

theorem runTimeout_before (hbefore : s.tb.now < r.since + 1000000000) : exec (.deliveryRunTimeout v) s = .next s := by
  refine congrArg Host.Outcome.next ?_
  simp only [h, hr]
  exact if_neg (Nat.not_le.2 hbefore)

end

theorem segmentTimeout_due {s : State} {n : Fin 24} {id : BitVec 29} {p : Partial} {b : BusRec}
    (hp : tget s.fbc[n].parts id.toNat = some p) (hb : s.fbc[n].bus = some b)
    (hdue : p.last + 10000 * (b.nbrp * (1 + b.ntseg1 + b.ntseg2)) * 25 / 2 ≤ s.tb.now) :
    segmentTimeout s n id = badMsg (setCtl s n { ctl s n with parts := tdel (ctl s n).parts id.toNat }) := by
  have hp' : tget (ctl s n).parts id.toNat = some p := hp
  have hb' : (ctl s n).bus = some b := hb
  simp only [segmentTimeout, hp', hb']
  exact if_pos hdue

/-- Settles O45: each time compares its instant with the limit it names, and a context command acts at once in HALT. -/
theorem vertexTimesAndCommands : Obligations.VertexTimesAndCommands := by
  refine ⟨fun s v c hc => ?_, contextCommand⟩
  have hv : v.val < 8192 := by omega
  refine ⟨fun k hk hdue => ⟨_, rfl, copyTimeout_effect hc hv (mem_dueCopies.2 ⟨hk, hdue⟩)⟩,
    fun hnone => congrArg Host.Outcome.next (copyTimeout_none_due hc hnone), fun hlink =>
    ⟨fun hmiss => ⟨_, rfl, reportMiss_effect hc hv hlink hmiss⟩,
      fun hmiss => congrArg Host.Outcome.next (reportMiss_before hc hmiss)⟩, fun r hr =>
    ⟨fun hdue => ⟨_, runTimeout_due hc hr hdue, tget_tput_same _ _ _, fun hoff => ?_, fun hen hempty => ?_⟩,
      runTimeout_before hc hr⟩, fun n id p b hp hb hdue => ⟨_, rfl, ?_⟩⟩
  · exact (congrArg (rd · Reg.NPC_VRDROP_VRDROP) (ringPut_disabled hoff _)).trans (bump_same s _ 0 1)
  · exact ringPut_empty hen hempty _
  · rw [segmentTimeout_due hp hb hdue]
    have hctl := ctl_setCtl s n { ctl s n with parts := tdel (ctl s n).parts id.toNat }
    exact ⟨(congrArg (fun x => tget (Ctl.parts x) id.toNat) hctl).trans (tget_tdel_same _ _), bump_same _ _ 0 1,
      (congrArg Ctl.fifo hctl :)⟩

end Sys2Proof.Machine
end

section
/-! SUPPORT. The network ports (R276, R278, R281 to R283, R249, R391, Tables 12.1, 12.10): their links, the transmit that
an error cuts, and the frames they answer or count. -/

namespace Sys2Proof.Machine

/-! ### The status word of a port -/

/-- Setting a field of a port leaves its other fields. -/
theorem rd_portField {f g : Field} (h : g.id ≠ f.id) (s : State) (v : Nat) (p : Fin 16) :
    rd (wr s f v p.val) g p.val = rd s g p.val :=
  rd_wr_of_id_ne h (by omega) (by omega) s v

/-- Setting a field of a port leaves the fields that are not of a port. -/
theorem rd_notPortField {f g : Field} (h : g.id ≠ f.id) (s : State) (v : Nat) (p : Fin 16) :
    rd (wr s f v p.val) g = rd s g :=
  rd_wr_of_id_ne h (by omega) (by decide) s v

theorem linkRetired_wr {f : Field} (h : Reg.NPCp_STATUS_MSTATE.id ≠ f.id) (s : State) (v : Nat) (p : Fin 16) :
    linkRetired (wr s f v p.val) (.port p) = linkRetired s (.port p) :=
  congrArg (fun x => decide (mstateOf x = .retired)) (rd_portField h s v p)

theorem ptpSlave_wr {f : Field} (hen : Reg.TBC_DISC_PTPEN.id ≠ f.id) (hport : Reg.TBC_DISC_PTPPORT.id ≠ f.id)
    (s : State) (v : Nat) (p : Fin 16) : ptpSlave (wr s f v p.val) p = ptpSlave s p :=
  congrArg₂ (fun a b => decide (a = 1) && decide (b = p.val)) (rd_notPortField hen s v p) (rd_notPortField hport s v p)

theorem rd_showPort {g : Field} {p : Fin 16} (hm : g.id ≠ Reg.NPCp_STATUS_MSTATE.id)
    (hq : g.id ≠ Reg.NPCp_STATUS_QUAL.id) (s : State) : rd (showPort s p) g p.val = rd s g p.val :=
  (rd_portField hq _ _ p).trans (rd_portField hm _ _ p)

theorem ptpSlave_showPort (s : State) (p : Fin 16) : ptpSlave (showPort s p) p = ptpSlave s p :=
  (ptpSlave_wr (by decide) (by decide) _ _ p).trans (ptpSlave_wr (by decide) (by decide) _ _ p)

/-- QUAL of a port whose link is down. -/
theorem showPort_down {s : State} {p : Fin 16} (h : rdB s Reg.NPCp_STATUS_LINK p.val = false) :
    rd (showPort s p) Reg.NPCp_STATUS_QUAL p.val =
      qualCode (if linkRetired s (.port p) then .retired else .stale) := by
  have hqual : rd (showPort s p) Reg.NPCp_STATUS_QUAL p.val = qualCode (if resState s ⟨.network, p.val⟩ = .retired then
      .retired else if rdB s Reg.NPCp_STATUS_LINK p.val then .good else .stale) % 2 ^ 3 := rd_wr_same _ _ _ _
  rw [hqual, h]
  by_cases hdead : resState s ⟨.network, p.val⟩ = .retired
  · simp [hdead, linkRetired, linkRes, qualCode]
  · simp [hdead, linkRetired, linkRes, qualCode]

theorem ptpst_showPtp (s : State) (p : Fin 16) : rd (showPtp s p) Reg.NPCp_STATUS_PTPST p.val =
    if !rdB s Reg.NPCp_STATUS_LINK p.val || (portRec s p).isNone then 0
    else if ptpSlave s p then (if rd s Reg.NPCp_STATUS_PTPST p.val = 2 then 2 else 1)
    else if ptpMaster s p then 3 else 0 := by
  refine (rd_wr_same _ _ _ _).trans (Nat.mod_eq_of_lt ?_)
  split_ifs <;> decide

theorem rd_showPtp {g : Field} {p : Fin 16} (h : g.id ≠ Reg.NPCp_STATUS_PTPST.id) (s : State) :
    rd (showPtp s p) g p.val = rd s g p.val := rd_portField h _ _ p

/-! ### A link that falls -/

/-- A port with its link down, as it shows it. -/
def downShown (s : State) (p : Fin 16) : State := showPtp (showPort (wr s Reg.NPCp_STATUS_LINK 0 p.val) p) p

theorem portDown_eq (s : State) (p : Fin 16) : portDown s p =
    if ptpSlave s p then ptpLost (downShown s p) else downShown s p := by
  have hslave : ptpSlave (downShown s p) p = ptpSlave s p :=
    (ptpSlave_wr (by decide) (by decide) _ _ p).trans <|
      (ptpSlave_showPort _ p).trans (ptpSlave_wr (by decide) (by decide) s 0 p)
  rw [← hslave]
  rfl

theorem downShown_reads (s : State) (p : Fin 16) : rd (downShown s p) Reg.NPCp_STATUS_LINK p.val = 0 ∧
    rd (downShown s p) Reg.NPCp_STATUS_PTPST p.val = 0 ∧ rd (downShown s p) Reg.NPCp_STATUS_QUAL p.val =
      qualCode (if linkRetired s (.port p) then .retired else .stale) ∧
    rd (downShown s p) Reg.NPCp_STATUS_ANEGF p.val = rd s Reg.NPCp_STATUS_ANEGF p.val := by
  have hlink : rd (wr s Reg.NPCp_STATUS_LINK 0 p.val) Reg.NPCp_STATUS_LINK p.val = 0 := rd_wr_same _ _ _ _
  have hdown : rdB (wr s Reg.NPCp_STATUS_LINK 0 p.val) Reg.NPCp_STATUS_LINK p.val = false :=
    decide_eq_false (by rw [hlink]; decide)
  have hshown := rd_showPort (g := Reg.NPCp_STATUS_LINK) (p := p) (by decide) (by decide)
    (wr s Reg.NPCp_STATUS_LINK 0 p.val)
  refine ⟨(rd_showPtp (by decide) _).trans (hshown.trans hlink), ?_, ?_, ?_⟩
  · refine (ptpst_showPtp _ p).trans (if_pos ?_)
    rw [rdB_of_rd hshown, hdown]
    rfl
  · rw [← linkRetired_wr (f := Reg.NPCp_STATUS_LINK) (by decide) s 0 p]
    exact (rd_showPtp (by decide) _).trans (showPort_down hdown)
  · exact (rd_showPtp (by decide) _).trans <|
      (rd_showPort (by decide) (by decide) _).trans (rd_portField (by decide) s 0 p)

/-- A port that falls keeps what its status word says of the link down, and its PTP source is lost. -/
theorem rd_portDown {g : Field} {p : Fin 16} (hst : g.id ≠ Reg.NPCp_STATUS_PTPST.id)
    (hq : g.id ≠ Reg.TBC_DSTS_PTPQ.id) (s : State) : rd (portDown s p) g p.val = rd (downShown s p) g p.val := by
  rw [portDown_eq]
  split
  next hslave =>
    refine ptpLost_fieldsBut (p := p) (s := downShown s p) ?_ g p.val fun e he => ?_
    · exact (ptpSlave_wr (by decide) (by decide) _ _ p).trans <|
        (ptpSlave_showPort _ p).trans ((ptpSlave_wr (by decide) (by decide) s 0 p).trans hslave)
    · simp only [List.mem_cons, List.not_mem_nil, or_false] at he
      rcases he with rfl | rfl
      · exact key_ne_of_id hst (by omega) (by omega)
      · exact key_ne_of_id hq (by omega) (by omega)
  next => rfl

theorem portDown_ptp (s : State) (p : Fin 16) : rd (portDown s p) Reg.NPCp_STATUS_PTPST p.val = 0 ∧
    (ptpSlave s p = true → rd (portDown s p) Reg.TBC_DSTS_PTPQ = 0) := by
  obtain ⟨-, hst, -, -⟩ := downShown_reads s p
  rw [portDown_eq]
  split
  next hslave =>
    have hslave' : ptpSlave (downShown s p) p = true :=
      (ptpSlave_wr (by decide) (by decide) _ _ p).trans <|
        (ptpSlave_showPort _ p).trans ((ptpSlave_wr (by decide) (by decide) s 0 p).trans hslave)
    refine ⟨?_, fun _ => ptpLost_ptpq _⟩
    rw [ptpLost_ptpst hslave', hst]
    rfl
  next hslave => exact ⟨hst, fun h => absurd h hslave⟩

theorem portDown_reads (s : State) (p : Fin 16) : rd (portDown s p) Reg.NPCp_STATUS_LINK p.val = 0 ∧
    rd (portDown s p) Reg.NPCp_STATUS_PTPST p.val = 0 ∧
    (ptpSlave s p = true → rd (portDown s p) Reg.TBC_DSTS_PTPQ = 0) ∧ rd (portDown s p) Reg.NPCp_STATUS_QUAL p.val =
      qualCode (if linkRetired s (.port p) then .retired else .stale) ∧
    rd (portDown s p) Reg.NPCp_STATUS_ANEGF p.val = rd s Reg.NPCp_STATUS_ANEGF p.val := by
  obtain ⟨hlink, -, hqual, haneg⟩ := downShown_reads s p
  obtain ⟨hst, hptpq⟩ := portDown_ptp s p
  exact ⟨(rd_portDown (by decide) (by decide) s).trans hlink, hst, hptpq,
    (rd_portDown (by decide) (by decide) s).trans hqual, (rd_portDown (by decide) (by decide) s).trans haneg⟩

theorem portDown_ctxs (s : State) (p : Fin 16) : (portDown s p).npc.ctxs = s.npc.ctxs := by
  rw [portDown_eq]
  refine ite_keeps (p := fun t => t.npc.ctxs) ?_ rfl
  rw [ptpLost_eq]
  exact ite_keeps (p := fun t => t.npc.ctxs) rfl rfl

/-! ### A link that comes up -/

/-- The link of a port up at a speed. -/
def linkSpeed (s : State) (p : Fin 16) (speed : Nat) : State :=
  wr (wr (wr s Reg.NPCp_STATUS_ANEGF 0 p.val) Reg.NPCp_STATUS_SPEED speed p.val) Reg.NPCp_STATUS_LINK 1 p.val

theorem linkSpeed_reads (s : State) (p : Fin 16) (speed : Fin 4) :
    rd (linkSpeed s p speed.val) Reg.NPCp_STATUS_LINK p.val = 1 ∧
    rd (linkSpeed s p speed.val) Reg.NPCp_STATUS_SPEED p.val = speed.val ∧
    rd (linkSpeed s p speed.val) Reg.NPCp_STATUS_ANEGF p.val = 0 ∧
    rd (linkSpeed s p speed.val) Reg.NPCp_STATUS_PTPST p.val = rd s Reg.NPCp_STATUS_PTPST p.val := by
  have hspeed : speed.val % 2 ^ Reg.NPCp_STATUS_SPEED.width = speed.val := Nat.mod_eq_of_lt speed.isLt
  unfold linkSpeed
  refine ⟨rd_wr_same _ _ _ _, ?_, ?_, ?_⟩ <;> simp (disch := decide) only [rd_portField, rd_wr_same, hspeed]
  rfl

theorem ptpSlave_linkSpeed (s : State) (p : Fin 16) (speed : Nat) : ptpSlave (linkSpeed s p speed) p = ptpSlave s p :=
  (ptpSlave_wr (by decide) (by decide) _ _ p).trans <|
    (ptpSlave_wr (by decide) (by decide) _ _ p).trans (ptpSlave_wr (by decide) (by decide) s _ p)

theorem ptpMaster_linkSpeed (s : State) (p : Fin 16) (speed : Nat) :
    ptpMaster (linkSpeed s p speed) p = ptpMaster s p :=
  congrArg (fun b => (match portRec s p with | some r => r.ptpMaster | none => false) && !b)
    (ptpSlave_linkSpeed s p speed)

theorem ptpst_linkSpeed {s : State} {p : Fin 16} {r : PortRec} (hr : portRec s p = some r) (speed : Fin 4) :
    rd (showPtp (linkSpeed s p speed.val) p) Reg.NPCp_STATUS_PTPST p.val =
      if ptpSlave s p then (if rd s Reg.NPCp_STATUS_PTPST p.val = 2 then 2 else 1)
      else if ptpMaster s p then 3 else 0 := by
  obtain ⟨hlink, -, -, hst⟩ := linkSpeed_reads s p speed
  have hup : rdB (linkSpeed s p speed.val) Reg.NPCp_STATUS_LINK p.val = true := decide_eq_true hlink
  have hrec : portRec (linkSpeed s p speed.val) p = some r := hr
  rw [ptpst_showPtp, hup, hrec, hst, ptpSlave_linkSpeed, ptpMaster_linkSpeed]
  rfl

section

variable {s : State} {p : Fin 16} {r : PortRec} (hr : portRec s p = some r)
  (halive : linkRetired s (.port p) = false)
include hr halive

theorem linkUp_allowed {speed : Fin 4} (h : speedAllowed r speed.val = true) :
    linkUp s p speed false = showPort (showPtp (linkSpeed s p speed.val) p) p := by
  simp only [linkUp, hr, halive, h]
  rfl

theorem linkUp_refused {speed : Fin 4} {refused : Bool} (h : refused = true ∨ speedAllowed r speed.val = false) :
    linkUp s p speed refused = portDown (wr s Reg.NPCp_STATUS_ANEGF 1 p.val) p := by
  simp only [linkUp, hr, halive, Bool.false_eq_true, if_false]
  exact if_pos (by rcases h with h | h <;> simp [h])

end

/-! ### A parity error of a port -/

/-- A port in service becomes SUSPECT, with its window open. -/
def portSuspect (s : State) (p : Fin 16) : State :=
  let t := wr (wr s Reg.NPCp_STATUS_MSTATE (mstateCode .suspect) p.val) Reg.NPCp_STATUS_FCOUNT 1 p.val
  { t with ssu := { t.ssu with windows := t.ssu.windows ++ [⟨⟨.network, p.val⟩, .inService, s.tb.tick⟩] } }

theorem upset_port {s : State} {p : Fin 16} (hruns : WindowRuns s ⟨.network, p.val⟩)
    (hm : rd s Reg.NPCp_STATUS_MSTATE p.val = mstateCode .inService) (work : State → State) :
    upset s ⟨.network, p.val⟩ work = (portSuspect s p, false) := by
  have hstate : resState s ⟨.network, p.val⟩ = .inService := congrArg mstateOf hm
  unfold upset
  rw [windowClose_of_runs hruns]
  simp only [hstate]
  rfl

theorem portSuspect_reads (s : State) (p : Fin 16) :
    rd (portSuspect s p) Reg.NPCp_STATUS_MSTATE p.val = mstateCode .suspect ∧
    rd (portSuspect s p) Reg.NPCp_STATUS_FCOUNT p.val = 1 := by
  have hread (g : Field) : rd (portSuspect s p) g p.val =
    rd (wr (wr s Reg.NPCp_STATUS_MSTATE (mstateCode .suspect) p.val) Reg.NPCp_STATUS_FCOUNT 1 p.val) g p.val := rfl
  refine ⟨?_, ?_⟩ <;> simp (disch := decide) only [hread, rd_portField, rd_wr_same] <;> rfl

theorem portSuspect_only (s : State) (p : Fin 16) :
    OnlyFields { s with ssu := (portSuspect s p).ssu } (portSuspect s p)
      [(Reg.NPCp_STATUS_MSTATE, p.val), (Reg.NPCp_STATUS_FCOUNT, p.val)] := by
  refine ⟨rfl, FieldsBut.trans (t := wr s Reg.NPCp_STATUS_MSTATE (mstateCode .suspect) p.val) ?_ ?_⟩
  · exact fieldsBut_wr (by simp) s _
  · exact fieldsBut_wr (f := Reg.NPCp_STATUS_FCOUNT) (i := p.val) (by simp) _ 1

/-- A copy whose transmit is cut: counted, and the first of a new run. -/
def copyCut (s : State) (v : Nat) (c : Ctx) : State :=
  setCtx (bump s Reg.NPC_VCNT3_OTHER v) v { c with
    copies := c.copies.filter (·.seq ≠ c.lastSeq)
    run := some ⟨CC.failTransientExhausted, Rsn.parity, c.lastSeq, 1, s.tb.now⟩ }

theorem cutTransmit_newest {s : State} {p : Fin 16} {v : Nat} {c : Ctx} (h : ctxOf s v = some c)
    (hlink : c.endpoint.link = .port p) (hnewest : ∃ k ∈ c.copies, k.seq = c.lastSeq) (hrun : c.run = none) :
    cutTransmit s p v = copyCut s v c := by
  have hcut : cutTransmit s p v = endCopy s v c.lastSeq CC.failTransientExhausted Rsn.parity := by
    simp only [cutTransmit, h]
    exact if_pos ⟨hlink, by simpa using hnewest⟩
  rw [hcut]
  simp only [endCopy, h, hrun]
  rfl

theorem parityError_cut {s : State} {p : Fin 16} {v : Fin 2048} {c : Ctx}
    (hm : rd s Reg.NPCp_STATUS_MSTATE p.val = mstateCode .inService) (hruns : WindowRuns s ⟨.network, p.val⟩)
    (h : ctxOf s v.val = some c) (hlink : c.endpoint.link = .port p)
    (hnewest : ∃ k ∈ c.copies, k.seq = c.lastSeq) (hrun : c.run = none) :
    exec (.portParityError ⟨p, some v⟩) s = .next (portSuspect (copyCut s v.val c) p) := by
  have hstate : rd (copyCut s v.val c) Reg.NPCp_STATUS_MSTATE p.val = mstateCode .inService :=
    (rd_wr_of_id_ne (f := Reg.NPC_VCNT3_OTHER) (i := v.val) (by decide) (by omega) (by omega) s _).trans hm
  have hkeeps : WindowRuns (copyCut s v.val c) ⟨.network, p.val⟩ := fun w hw hres =>
    (faultOver_wr (i := v.val) (by omega) (by decide) (by decide) s _ _ _).trans (hruns w hw hres)
  have hupset := congrArg Prod.fst (upset_port hkeeps hstate fun s =>
    let s := portRetired s p
    if (portRec s p).isSome then holdCause s .network else s)
  rw [← cutTransmit_newest h hlink hnewest hrun] at hupset
  rw [← cutTransmit_newest h hlink hnewest hrun]
  exact congrArg Host.Outcome.next hupset

/-! ### Frames answered, dropped and malformed -/

section

variable {s : State} {p : Fin 16} {r : PortRec} (hup : portUp s p = true) (hears : vListens s = true)
  (hr : portRec s p = some r)
include hup hears hr

theorem arpEchoReply_own {k : EchoKind} {src : EchoSrc} (h : answers s r k src = true) (mac : BitVec 48) :
    arpEchoReply s p k src mac = emit s (.reply p k (portSrc s r src.target) src.addr mac) := by
  simp only [arpEchoReply, hr]
  exact (if_neg (by simp [hup, hears])).trans (if_pos h)

theorem arpEchoReply_other {k : EchoKind} {src : EchoSrc} (h : answers s r k src = false) (mac : BitVec 48) :
    arpEchoReply s p k src mac = bump s Reg.NPCp_STATUS_DROPPED p.val := by
  simp only [arpEchoReply, hr]
  exact (if_neg (by simp [hup, hears])).trans (if_neg (by simp [h]))

end

/-- A frame counted on its port. -/
theorem portDropped_effect (s : State) (p : Fin 16) :
    rd (bump s Reg.NPCp_STATUS_DROPPED p.val) Reg.NPCp_STATUS_DROPPED p.val =
      min (rd s Reg.NPCp_STATUS_DROPPED p.val + 1) (2 ^ Reg.NPCp_STATUS_DROPPED.width - 1) ∧
    OnlyFields s (bump s Reg.NPCp_STATUS_DROPPED p.val) [(Reg.NPCp_STATUS_DROPPED, p.val)] :=
  ⟨bump_same _ _ _ 1, rfl, fieldsBut_wr (by simp) _ _⟩

/-- A message counted as malformed. -/
theorem badMsg_effect (s : State) : rd (badMsg s) Reg.NPC_VSUM_BADMSG = min (rd s Reg.NPC_VSUM_BADMSG + 1) 255 ∧
    OnlyFields s (badMsg s) [(Reg.NPC_VSUM_BADMSG, 0)] :=
  ⟨bump_same s Reg.NPC_VSUM_BADMSG 0 1, rfl, fieldsBut_wr (by simp) _ _⟩

/-- Settles O47: each event of a port acts on its status word by the record, the addresses and the state of the port. -/
theorem portEvents : Obligations.PortEvents := by
  refine fun s p => ⟨fun r speed hr halive => ⟨fun h => ⟨_, rfl, ?_⟩, fun refused h => ⟨_, rfl, ?_⟩⟩, ⟨_, rfl, ?_⟩,
    fun hm hruns => ⟨⟨_, congrArg (fun x => Host.Outcome.next (Prod.fst x)) (upset_port hruns hm _), ?_⟩,
      fun v c hc hlink hnewest hrun => ⟨_, parityError_cut hm hruns hc hlink hnewest hrun, ?_⟩⟩,
    fun hup => ⟨fun r k src mac hears hr => ⟨fun h => congrArg Host.Outcome.next (arpEchoReply_own hup hears hr h mac),
      fun h => ⟨_, congrArg Host.Outcome.next (arpEchoReply_other hup hears hr h mac), portDropped_effect s p⟩⟩,
      fun k => ?_⟩⟩
  · obtain ⟨hlink, hspeed, haneg, -⟩ := linkSpeed_reads s p speed
    have hshown (g : Field) (hm : g.id ≠ Reg.NPCp_STATUS_MSTATE.id) (hq : g.id ≠ Reg.NPCp_STATUS_QUAL.id)
        (hst : g.id ≠ Reg.NPCp_STATUS_PTPST.id) : rd (showPort (showPtp (linkSpeed s p speed.val) p) p) g p.val =
          rd (linkSpeed s p speed.val) g p.val := (rd_showPort hm hq _).trans (rd_showPtp hst _)
    rw [linkUp_allowed hr halive h]
    exact ⟨(hshown _ (by decide) (by decide) (by decide)).trans hlink,
      (hshown _ (by decide) (by decide) (by decide)).trans hspeed,
      (hshown _ (by decide) (by decide) (by decide)).trans haneg,
      (rd_showPort (by decide) (by decide) _).trans (ptpst_linkSpeed hr speed)⟩
  · obtain ⟨hlink, hst, -, -, haneg⟩ := portDown_reads (wr s Reg.NPCp_STATUS_ANEGF 1 p.val) p
    rw [linkUp_refused hr halive h]
    exact ⟨hlink, haneg.trans (rd_wr_same _ _ _ _), hst⟩
  · obtain ⟨hlink, hst, hptpq, hqual, -⟩ := portDown_reads s p
    exact ⟨hlink, hst, hptpq, hqual, portDown_ctxs s p⟩
  · obtain ⟨hmstate, hfcount⟩ := portSuspect_reads s p
    exact ⟨hmstate, hfcount, rfl, portSuspect_only s p⟩
  · exact ⟨(portSuspect_reads _ p).1, tget_tput_same _ _ _⟩
  · refine ⟨_, congrArg Host.Outcome.next (if_pos hup), ?_⟩
    cases k with
    | notAccepted => exact portDropped_effect s p
    | malformed => exact badMsg_effect s
    | fragmented => exact badMsg_effect s

end Sys2Proof.Machine
end

section
/-! SUPPORT. The links of the cascade (R322, R299, Tables 14.1, 14.7): their lock, the frames they carry and the gaps in
them. -/

namespace Sys2Proof.Machine

/-! ### Setting a field of a link -/

theorem rd_clField {f g : Field} (h : g.id ≠ f.id) (s : State) (v : Nat) (n : Fin 4) {j : Nat} (hj : j < 8192) :
    rd (wr s f v n.val) g j = rd s g j :=
  rd_wr_of_id_ne h (by omega) hj s v

/-! ### The tree as a unit knows it -/

/-- The fields by which a unit knows the tree. -/
def treeFields : List Field := [Reg.CSC_CFG_EN, Reg.CSC_CLSTS_LOCK, Reg.CSC_CLSTS_MSTATE, Reg.CSC_STATUS_PARENT,
  Reg.RDU_CFG_PAIRED, Reg.SSU_MODE_MODE]

/-- Two states know the same tree. -/
structure SameTree (s t : State) : Prop where
  reads : ∀ f ∈ treeFields, ∀ j < 4, rd t f j = rd s f j
  accepted : t.csc.accepted = s.csc.accepted
  tree : t.csc.tree = s.csc.tree
  straps : t.ssu.straps = s.ssu.straps

theorem clOk_of {s t : State} {n : Nat} (hen : rd t Reg.CSC_CFG_EN = rd s Reg.CSC_CFG_EN)
    (hlock : rd t Reg.CSC_CLSTS_LOCK n = rd s Reg.CSC_CLSTS_LOCK n)
    (hm : rd t Reg.CSC_CLSTS_MSTATE n = rd s Reg.CSC_CLSTS_MSTATE n) (hacc : t.csc.accepted = s.csc.accepted) :
    clOk t n = clOk s n := by
  have hstate : resState t ⟨.cascade, n⟩ = resState s ⟨.cascade, n⟩ := congrArg mstateOf hm
  unfold clOk
  rw [rdB_of_rd hen, rdB_of_rd hlock, hacc, hstate]

namespace SameTree

theorem refl (s : State) : SameTree s s := ⟨fun _ _ _ _ => rfl, rfl, rfl, rfl⟩

theorem trans {s t u : State} (hst : SameTree s t) (htu : SameTree t u) : SameTree s u where
  reads f hf j hj := (htu.reads f hf j hj).trans (hst.reads f hf j hj)
  accepted := htu.accepted.trans hst.accepted
  tree := htu.tree.trans hst.tree
  straps := htu.straps.trans hst.straps

theorem wr {f : Field} {i : Nat} (hf : ∀ g ∈ treeFields, g.id ≠ f.id) (hi : i < 8192) (s : State) (v : Nat) :
    SameTree s (wr s f v i) :=
  ⟨fun g hg j hj => rd_wr_of_id_ne (hf g hg) hi (by omega) s v, rfl, rfl, rfl⟩

theorem event (s : State) (code : Nat) (sev : Sev) (ps : List Nat) : SameTree s (event s code sev ps) where
  reads f hf j hj := rd_event (by revert f; decide) (by omega) s code sev ps
  accepted := congrArg CscSt.accepted (event_csc s code sev ps)
  tree := congrArg CscSt.tree (event_csc s code sev ps)
  straps := congrArg SsuSt.straps (event_ssu s code sev ps)

variable {s t : State} (h : SameTree s t)
include h

theorem clOk {n : Nat} (hn : n < 4) : clOk t n = clOk s n :=
  clOk_of (h.reads _ (by decide) 0 (by decide)) (h.reads _ (by decide) n hn) (h.reads _ (by decide) n hn) h.accepted

theorem treeLink {n : Nat} (hn : n < 4) : treeLink t n = treeLink s n := by
  unfold Machine.treeLink
  rw [h.clOk hn, h.tree]

theorem parentLink : parentLink t = parentLink s := by
  unfold Machine.parentLink
  rw [h.reads _ (by decide) 0 (by decide)]

theorem ownMember : ownMember t = ownMember s := congrArg Straps.cscId h.straps

theorem isRoot : isRoot t = isRoot s := by
  unfold Machine.isRoot
  rw [rdB_of_rd (h.reads Reg.CSC_CFG_EN (by decide) 0 (by decide)), h.ownMember,
    rdB_of_rd (h.reads Reg.RDU_CFG_PAIRED (by decide) 0 (by decide)),
    modeIs_of_rd (h.reads Reg.SSU_MODE_MODE (by decide) 0 (by decide))]

end SameTree

theorem sameTree_of_untaken {s u : State} (h : untaken u = untaken s) : SameTree s u :=
  ⟨fun f _ j _ => (congrArg (rd · f j) h :), (congrArg (fun t => t.csc.accepted) h :),
    (congrArg (fun t => t.csc.tree) h :), (congrArg (fun t => t.ssu.straps) h :)⟩

/-! ### Frames sent -/

theorem frameHead_of {s t : State} (hm : rd t Reg.SSU_MODE_MODE = rd s Reg.SSU_MODE_MODE)
    (hp : rd t Reg.SSU_MODE_PRIOR = rd s Reg.SSU_MODE_PRIOR) (hstraps : t.ssu.straps = s.ssu.straps)
    (hrdu : t.rdu = s.rdu) (late : Bool) (q : BitVec 32) (k : Nat) : frameHead t late q k = frameHead s late q k := by
  have hside : ownSide t = ownSide s := congrArg Straps.side hstraps
  unfold frameHead
  rw [hside, modeIs_of_rd hm, emitMode_of_rd hm hp, hrdu]

theorem outKept_sendCasc (s : State) (n : Fin 4) (b : CascBody) : OutKept s (sendCasc s n b) := outKept_emit s _

theorem outKept_sendWhere (s : State) (p : Fin 4 → Bool) (b : CascBody) : OutKept s (sendWhere s p b) :=
  List.foldlRecOn (motive := OutKept s) _ _ (.refl s) fun _ ht m _ => ht.trans (outKept_sendCasc _ m b)

theorem OutKept.mem {s t : State} (h : OutKept s t) {o : Out} (ho : o ∈ s.out) : o ∈ t.out := by
  obtain ⟨l, hl⟩ := h
  exact hl ▸ List.mem_append_left l ho

/-- A frame put on the links of a list is on each of them. -/
theorem sent_of_mem {m : Fin 4} {l : List (Fin 4)} (hm : m ∈ l) (s : State) (b : CascBody) :
    ∃ h, Out.casc m h b ∈ (l.foldl (fun s n => sendCasc s n b) s).out := by
  induction l generalizing s with
  | nil => cases hm
  | cons n l ih =>
    rcases List.mem_cons.1 hm with rfl | hm
    · have hkept : OutKept (sendCasc s m b) (l.foldl (fun s n => sendCasc s n b) (sendCasc s m b)) :=
        List.foldlRecOn (motive := OutKept (sendCasc s m b)) l _ (.refl _) fun _ ht x _ => ht.trans (outKept_sendCasc _ x b)
      exact ⟨_, hkept.mem (List.mem_append_right _ (List.mem_singleton_self _))⟩
    · exact ih hm _

theorem sent_of_where {p : Fin 4 → Bool} {m : Fin 4} (hm : p m = true) (s : State) (b : CascBody) :
    ∃ h, Out.casc m h b ∈ (sendWhere s p b).out :=
  sent_of_mem (List.mem_filter.2 ⟨List.mem_finRange m, hm⟩) s b

/-- The state but for what is put out and the numbers of the frames. -/
def unsent (s : State) : State := { s with out := [], csc := { s.csc with seqOut := [] } }

theorem unsent_sendWhere (s : State) (p : Fin 4 → Bool) (b : CascBody) : unsent (sendWhere s p b) = unsent s :=
  foldl_keeps unsent (f := fun s n => sendCasc s n b) (fun _ _ => rfl) _ s

/-! ### A link that trains or falls -/

/-- The status of a link that has lock. -/
def clLocked (s : State) (n : Fin 4) (lanes lat : Nat) : State :=
  let t := dropLink s n.val
  let t := { t with csc := { t.csc with lat := tput t.csc.lat n.val lat } }
  let t := wr (wr (wr t Reg.CSC_CLSTS_LOCK 1 n.val) Reg.CSC_CLSTS_LANES (min 4 lanes) n.val) Reg.CSC_CLSTS_RSN 0 n.val
  wr (lanesTold t lanes) Reg.CSC_CLSTS_QUAL 0 n.val

theorem cascTrained_locks {s : State} {n : Fin 4} {lanes : Nat} (hen : rdB s Reg.CSC_CFG_EN = true)
    (hm : resState s ⟨.cascade, n.val⟩ ≠ .retired) (hl : lanes ≠ 0) (lat : Nat) : cascTrained s n lanes lat =
      sendCasc (clLocked s n lanes lat) n (.chello (ownChello (clLocked s n lanes lat))) := by
  refine (if_neg ?_).trans ?_
  · simp [hen, hm, hl]
  · have hquiet (t : State) : ownChello (wr t Reg.CSC_CLSTS_QUAL 0 n.val) = ownChello t := by
      unfold ownChello
      rw [rd_clField (by decide) t 0 n (by decide), rd_clField (by decide) t 0 n (by decide),
        modeIs_of_rd (rd_clField (by decide) t 0 n (by decide))]
      rfl
    exact congrArg (fun c => sendCasc _ n (.chello c)) (hquiet _).symm

section

variable (s : State) (n : Fin 4) (lanes lat : Nat)

theorem rd_clLocked_untouched {g : Field} {j : Nat} (hj : j < 8192) (hr : ∀ f ∈ recorderFields, g.id ≠ f.id)
    (hc : ∀ f ∈ [Reg.CSC_CLSTS_LOCK, Reg.CSC_CLSTS_LANES, Reg.CSC_CLSTS_RSN, Reg.CSC_CLSTS_QUAL], g.id ≠ f.id) :
    rd (clLocked s n lanes lat) g j = rd s g j := by
  unfold clLocked
  simp only
  rw [rd_clField (hc _ (by decide)) _ _ n hj, lanesTold_reads hr hj, rd_clField (hc _ (by decide)) _ _ n hj,
    rd_clField (hc _ (by decide)) _ _ n hj, rd_clField (hc _ (by decide)) _ _ n hj]
  rfl

theorem clLocked_reads : rd (clLocked s n lanes lat) Reg.CSC_CLSTS_LOCK n.val = 1 ∧
    rd (clLocked s n lanes lat) Reg.CSC_CLSTS_LANES n.val = min 4 lanes ∧
    rd (clLocked s n lanes lat) Reg.CSC_CLSTS_RSN n.val = 0 := by
  have hn : n.val < 8192 := by omega
  have hmin : min 4 lanes % 2 ^ Reg.CSC_CLSTS_LANES.width = min 4 lanes :=
    Nat.mod_eq_of_lt (Nat.lt_of_le_of_lt (Nat.min_le_left _ _) (by decide))
  unfold clLocked
  simp only
  refine ⟨?_, ?_, ?_⟩
  · rw [rd_clField (by decide) _ _ n hn, lanesTold_reads (by decide) hn, rd_clField (by decide) _ _ n hn,
      rd_clField (by decide) _ _ n hn, rd_wr_same]
    rfl
  · rw [rd_clField (by decide) _ _ n hn, lanesTold_reads (by decide) hn, rd_clField (by decide) _ _ n hn, rd_wr_same,
      hmin]
  · rw [rd_clField (by decide) _ _ n hn, lanesTold_reads (by decide) hn, rd_wr_same]
    rfl

/-- What a state but for its fields and its event log keeps while a link locks. -/
theorem clLocked_keeps {β : Type} {p : State → β} (hwr : ∀ s f v i, p (wr s f v i) = p s)
    (hevent : ∀ s code sev ps, p (event s code sev ps) = p s) : p (clLocked s n lanes lat) =
      p { dropLink s n.val with csc := { (dropLink s n.val).csc with lat := tput s.csc.lat n.val lat } } :=
  (hwr _ _ _ _).trans <| (ite_keeps (p := p) (hevent _ _ _ _) rfl).trans <|
    (hwr _ _ _ _).trans <| (hwr _ _ _ _).trans (hwr _ _ _ _)

theorem clLocked_csc : (clLocked s n lanes lat).csc =
    { (dropLink s n.val).csc with lat := tput s.csc.lat n.val lat } :=
  clLocked_keeps s n lanes lat (p := State.csc) (fun _ _ _ _ => rfl) event_csc

theorem frameHead_clLocked (q : BitVec 32) (k : Nat) :
    frameHead (clLocked s n lanes lat) false q k = frameHead s false q k :=
  frameHead_of (rd_clLocked_untouched s n lanes lat (by decide) (by decide) (by decide))
    (rd_clLocked_untouched s n lanes lat (by decide) (by decide) (by decide))
    (clLocked_keeps s n lanes lat (p := fun t => t.ssu.straps) (fun _ _ _ _ => rfl)
      fun s c v l => congrArg SsuSt.straps (event_ssu s c v l))
    (clLocked_keeps s n lanes lat (p := State.rdu) (fun _ _ _ _ => rfl) event_rdu) false q k

theorem ownChello_clLocked : ownChello (clLocked s n lanes lat) = ownChello s := by
  have hssu : (clLocked s n lanes lat).ssu = s.ssu :=
    clLocked_keeps s n lanes lat (p := State.ssu) (fun _ _ _ _ => rfl) event_ssu
  have hrdu : (clLocked s n lanes lat).rdu = s.rdu :=
    clLocked_keeps s n lanes lat (p := State.rdu) (fun _ _ _ _ => rfl) event_rdu
  have hread {g : Field} (hr : ∀ f ∈ recorderFields, g.id ≠ f.id) (hc : ∀ f ∈ [Reg.CSC_CLSTS_LOCK,
      Reg.CSC_CLSTS_LANES, Reg.CSC_CLSTS_RSN, Reg.CSC_CLSTS_QUAL], g.id ≠ f.id) :
      rd (clLocked s n lanes lat) g = rd s g := rd_clLocked_untouched s n lanes lat (by decide) hr hc
  unfold ownChello ownMember ownSide myClaim
  rw [hssu, hrdu, hread (by decide) (by decide), hread (by decide) (by decide),
    modeIs_of_rd (hread (by decide) (by decide))]

end

theorem dropped_not_accepted (s : State) (n : Nat) : (dropLink s n).csc.accepted.contains n = false := by
  simp [dropLink]

theorem clOk_of_not_accepted {s : State} {n : Nat} (h : s.csc.accepted.contains n = false) : clOk s n = false := by
  unfold clOk
  rw [h, Bool.and_false, Bool.false_and]

/-- A link that trains has lock and says CHELLO. -/
theorem cascadeTrained_effect {s : State} {n : Fin 4} {lanes : Fin 8} (hen : rdB s Reg.CSC_CFG_EN = true)
    (hm : resState s ⟨.cascade, n.val⟩ ≠ .retired) (hl : lanes ≠ 0) (lat : Nat) :
    Completes (exec (.cascadeTrained n lanes lat) s) fun t => rd t Reg.CSC_CLSTS_LOCK n = 1 ∧
      rd t Reg.CSC_CLSTS_LANES n = min 4 lanes.val ∧ rd t Reg.CSC_CLSTS_RSN n = 0 ∧ tget t.csc.lat n.val = some lat ∧
      clOk t n.val = false ∧ t.out = s.out ++ [.casc n
        (frameHead s false ((tget s.csc.seqOut n.val).getD 0) s.tb.tick) (.chello (ownChello s))] := by
  have hexec : exec (.cascadeTrained n lanes lat) s = .next _ :=
    congrArg Host.Outcome.next (cascTrained_locks hen hm (fun h => hl (Fin.ext h)) lat)
  obtain ⟨hlock, hlanes, hrsn⟩ := clLocked_reads s n lanes.val lat
  have hcsc := clLocked_csc s n lanes.val lat
  have htb : (clLocked s n lanes.val lat).tb = s.tb :=
    clLocked_keeps s n lanes.val lat (p := State.tb) (fun _ _ _ _ => rfl) event_tb
  have hout : (clLocked s n lanes.val lat).out = s.out :=
    clLocked_keeps s n lanes.val lat (p := State.out) (fun _ _ _ _ => rfl) event_out
  have hseq : (clLocked s n lanes.val lat).csc.seqOut = s.csc.seqOut := (congrArg CscSt.seqOut hcsc :)
  refine ⟨_, hexec, hlock, hlanes, hrsn, ?_, ?_, ?_⟩
  · exact (congrArg (fun c => tget (CscSt.lat c) n.val) hcsc).trans (tget_tput_same _ _ _)
  · exact clOk_of_not_accepted ((congrArg (fun c => (CscSt.accepted c).contains n.val) hcsc).trans
      (dropped_not_accepted s n.val))
  · have hsent : (sendCasc (clLocked s n lanes.val lat) n (.chello (ownChello (clLocked s n lanes.val lat)))).out =
      (clLocked s n lanes.val lat).out ++ [.casc n (frameHead (clLocked s n lanes.val lat) false
        ((tget (clLocked s n lanes.val lat).csc.seqOut n.val).getD 0) (clLocked s n lanes.val lat).tb.tick)
        (.chello (ownChello (clLocked s n lanes.val lat)))] := rfl
    rw [hsent, hout, hseq, htb, frameHead_clLocked, ownChello_clLocked]

/-- A link without lock is no link of the tree. -/
theorem clDown_reads (s : State) (n : Fin 4) : rd (clDown s n.val) Reg.CSC_CLSTS_LOCK n = 0 ∧
    rd (clDown s n.val) Reg.CSC_CLSTS_LANES n = 0 ∧ rd (clDown s n.val) Reg.CSC_CLSTS_ROLE n = 0 := by
  have hn : n.val < 8192 := by omega
  let t := wr (wr (wr (dropLink s n.val) Reg.CSC_CLSTS_LOCK 0 n.val) Reg.CSC_CLSTS_LANES 0 n.val) Reg.CSC_CLSTS_ROLE 0
    n.val
  have hdown (g : Field) (hq : g.id ≠ Reg.CSC_CLSTS_QUAL.id) : rd (clDown s n.val) g n.val = rd t g n.val :=
    rd_clField hq t _ n hn
  refine ⟨(hdown _ (by decide)).trans ?_, (hdown _ (by decide)).trans ?_, (hdown _ (by decide)).trans ?_⟩
  · exact (rd_clField (by decide) _ _ n hn).trans <| (rd_clField (by decide) _ _ n hn).trans (rd_wr_same _ _ _ _)
  · exact (rd_clField (by decide) _ _ n hn).trans (rd_wr_same _ _ _ _)
  · exact rd_wr_same _ _ _ _

/-! ### An upset of a link -/

/-- A link in service becomes SUSPECT, with its window open. -/
def clSuspect (s : State) (n : Fin 4) : State :=
  let t := wr (wr s Reg.CSC_CLSTS_MSTATE (mstateCode .suspect) n.val) Reg.CSC_CLSTS_FCOUNT 1 n.val
  { t with ssu := { t.ssu with windows := t.ssu.windows ++ [⟨⟨.cascade, n.val⟩, .inService, s.tb.tick⟩] } }

theorem upset_cascade {s : State} {n : Fin 4} (hruns : WindowRuns s ⟨.cascade, n.val⟩)
    (hm : resState s ⟨.cascade, n.val⟩ = .inService) (work : State → State) :
    upset s ⟨.cascade, n.val⟩ work = (clSuspect s n, false) := by
  unfold upset
  rw [windowClose_of_runs hruns]
  simp only [hm]
  rfl

theorem clSuspect_reads (s : State) (n : Fin 4) :
    rd (clSuspect s n) Reg.CSC_CLSTS_CRCERR n = rd s Reg.CSC_CLSTS_CRCERR n ∧
    rd (clSuspect s n) Reg.CSC_CLSTS_MSTATE n = mstateCode .suspect ∧ rd (clSuspect s n) Reg.CSC_CLSTS_FCOUNT n = 1 := by
  have hn : n.val < 8192 := by omega
  have hread (g : Field) : rd (clSuspect s n) g n.val =
    rd (wr (wr s Reg.CSC_CLSTS_MSTATE (mstateCode .suspect) n.val) Reg.CSC_CLSTS_FCOUNT 1 n.val) g n.val := rfl
  refine ⟨?_, ?_, ?_⟩
  · rw [hread, rd_clField (by decide) _ _ n hn, rd_clField (by decide) _ _ n hn]
  · rw [hread, rd_clField (by decide) _ _ n hn, rd_wr_same]
    rfl
  · rw [hread, rd_wr_same]
    rfl

theorem cascadeCrc_effect {s : State} {n : Fin 4} (hm : resState s ⟨.cascade, n.val⟩ = .inService)
    (hruns : WindowRuns s ⟨.cascade, n.val⟩) : Completes (exec (.cascadeCrcError n) s) fun t =>
      rd t Reg.CSC_CLSTS_CRCERR n = min (rd s Reg.CSC_CLSTS_CRCERR n + 1) 4095 ∧
      rd t Reg.CSC_CLSTS_MSTATE n = mstateCode .suspect ∧ rd t Reg.CSC_CLSTS_FCOUNT n = 1 ∧ t.csc = s.csc := by
  have hstate : resState (bump s Reg.CSC_CLSTS_CRCERR n) ⟨.cascade, n.val⟩ = .inService :=
    (congrArg mstateOf (rd_clField (f := Reg.CSC_CLSTS_CRCERR) (g := Reg.CSC_CLSTS_MSTATE) (by decide) s _ n
      (j := n.val) (by omega))).trans hm
  have hkeeps : WindowRuns (bump s Reg.CSC_CLSTS_CRCERR n) ⟨.cascade, n.val⟩ := fun w hw hres =>
    (faultOver_wr (i := n.val) (by omega) (by decide) (by decide) s _ _ _).trans (hruns w hw hres)
  have hexec : exec (.cascadeCrcError n) s = .next (clSuspect (bump s Reg.CSC_CLSTS_CRCERR n) n) :=
    congrArg (fun r => Host.Outcome.next (Prod.fst r)) (upset_cascade hkeeps hstate _)
  obtain ⟨hcrc, hmstate, hfcount⟩ := clSuspect_reads (bump s Reg.CSC_CLSTS_CRCERR n) n
  exact ⟨_, hexec, hcrc.trans (bump_same s Reg.CSC_CLSTS_CRCERR n 1), hmstate, hfcount, rfl⟩

/-! ### Gaps and new frames (R299) -/

theorem askGaps_none {s : State} {n : Fin 4}
    (h : (s.csc.gaps.filter fun g => decide (g.1 = n.val) && !g.2.2).map (·.2.1) = []) : askGaps s n = s :=
  if_pos (List.isEmpty_iff.2 h)

/-- The gaps of a link, all of them asked for. -/
def gapsAsked (s : State) (n : Fin 4) : State :=
  { s with csc := { s.csc with gaps := s.csc.gaps.map fun g => if g.1 = n.val then (g.1, g.2.1, true) else g } }

theorem askGaps_some {s : State} {n : Fin 4} {l : List (BitVec 32)}
    (hl : l = (s.csc.gaps.filter fun g => decide (g.1 = n.val) && !g.2.2).map (·.2.1)) (h : l ≠ []) :
    askGaps s n = sendCasc (gapsAsked s n) n (.resend l) := by
  subst hl
  exact if_neg fun hempty => h (List.isEmpty_iff.1 hempty)

theorem gapsAsked_asked (s : State) (n : Fin 4) : ∀ g ∈ (gapsAsked s n).csc.gaps, g.1 = n.val → g.2.2 = true := by
  intro g hg hn
  obtain ⟨x, -, rfl⟩ := List.mem_map.1 hg
  split at hn
  next hx => simp [hx]
  next hx => exact absurd hn hx

/-- A link that takes KEEP and CHELLO: it has lock, in a cascade that is on. -/
def linkHears (s : State) (n : Fin 4) : Prop :=
  rdB s Reg.CSC_CFG_EN = true ∧ rdB s Reg.CSC_CLSTS_LOCK n = true ∧ resState s ⟨.cascade, n.val⟩ ≠ .retired

/-- A link of which a frame and the gaps before it are noted. -/
def clFrameTaken (s : State) (n : Fin 4) (f : BitVec 32) (g : List (Nat × BitVec 32 × Bool)) : State :=
  { s with csc := { s.csc with seqIn := tput s.csc.seqIn n.val f, gaps := g } }

section

variable {s : State} {n : Fin 4} (hears : linkHears s n) (head : ChordHead)
include hears

theorem clTake_heard : clTake s n head true = match tget s.csc.seqIn n.val with
    | none => (clFrameTaken s n head.fseq s.csc.gaps, true)
    | some f =>
      if newer32 head.fseq f then (clFrameTaken s n head.fseq (s.csc.gaps ++
        (List.range ((head.fseq - f).toNat - 1)).map fun i => (n.val, f + 1 + BitVec.ofNat 32 i, false)), true)
      else if s.csc.gaps.any (fun g => decide (g.1 = n.val) && decide (g.2.1 = head.fseq)) then
        (clFrameTaken s n f (s.csc.gaps.filter fun g => !(decide (g.1 = n.val) && decide (g.2.1 = head.fseq))), true)
      else (s, false) := by
  obtain ⟨hen, hlock, hm⟩ := hears
  exact if_neg (by simp [hen, hlock, hm])

theorem clTake_first (h : tget s.csc.seqIn n.val = none) :
    clTake s n head true = (clFrameTaken s n head.fseq s.csc.gaps, true) := by
  simp only [clTake_heard hears, h]

theorem clTake_newer {f : BitVec 32} (h : tget s.csc.seqIn n.val = some f) (hnew : newer32 head.fseq f = true) :
    clTake s n head true = (clFrameTaken s n head.fseq (s.csc.gaps ++
      (List.range ((head.fseq - f).toNat - 1)).map fun i => (n.val, f + 1 + BitVec.ofNat 32 i, false)), true) := by
  simp only [clTake_heard hears, h, hnew, if_true]

theorem clTake_repeat {f : BitVec 32} (h : tget s.csc.seqIn n.val = some f) (hnew : newer32 head.fseq f = false)
    (hgap : ∀ g ∈ s.csc.gaps, g.1 = n.val → g.2.1 ≠ head.fseq) : clTake s n head true = (s, false) := by
  have hany : (s.csc.gaps.any fun g => decide (g.1 = n.val) && decide (g.2.1 = head.fseq)) = false := by
    simpa using fun a b c hmem hlink => hgap (a, b, c) hmem hlink
  simp only [clTake_heard hears, h, hnew, hany, Bool.false_eq_true, if_false]

end

end Sys2Proof.Machine
end

section
/-! SUPPORT. What the units of a cascade tell each other (R322 to R325, Tables 14.1 to 14.7): CHELLO, the tick markers and
the offset that the parent's gives. -/

namespace Sys2Proof.Machine

/-! ### A frame that is new -/

theorem clTake_new {s : State} {n : Fin 4} {head : ChordHead} {hello : Bool} (h : (clTake s n head hello).2 = true) :
    clTake s n head hello = ((clTake s n head hello).1, true) := Prod.ext rfl h

/-- Only a link that is up brings a frame that is new. -/
theorem linkHears_of_new {s : State} {n : Fin 4} {head : ChordHead} {hello : Bool}
    (h : (clTake s n head hello).2 = true) : linkHears s n := by
  by_contra hdeaf
  refine absurd ((congrArg Prod.snd (if_pos ?_)).symm.trans h) Bool.false_ne_true
  cases hen : rdB s Reg.CSC_CFG_EN with
  | false => simp
  | true =>
    cases hlock : rdB s Reg.CSC_CLSTS_LOCK n.val with
    | false => simp
    | true =>
      have hm : resState s ⟨.cascade, n.val⟩ = .retired := by_contra fun hm => hdeaf ⟨hen, hlock, hm⟩
      simp [hm]

/-! ### Hearing of a unit (R324) -/

theorem hearUnit_keeps {β : Type} {p : State → β} (hunits : ∀ s x, p { s with csc := { s.csc with units := x } } = p s)
    (hdue : ∀ s, p { s with csc := { s.csc with rosterDue := true } } = p s)
    (hroster : ∀ s v, p (wr s Reg.CSC_ROSTER_UNITS v) = p s)
    (hevent : ∀ s code sev ps, p (event s code sev ps) = p s) (s : State) (u : RUnit) : p (hearUnit s u) = p s := by
  have hput : p (putUnit s u) = p s := hunits _ _
  have hchange (t : State) : p (rosterChange t) = p t := (hroster _ _).trans (hdue t)
  unfold hearUnit
  refine ite_keeps (p := p) hput ?_
  split
  · exact (hchange _).trans ((hevent _ _ _ _).trans hput)
  · exact ite_keeps (p := p) hput ((hchange _).trans hput)

theorem hearUnit_units (s : State) (u : RUnit) : (hearUnit s u).csc.units = (putUnit s u).csc.units := by
  unfold hearUnit
  refine ite_keeps (p := fun t => t.csc.units) rfl ?_
  split
  · exact (congrArg CscSt.units (event_csc (putUnit s u) Ev.memberJoined .notice []) :)
  · exact ite_keeps (p := fun t => t.csc.units) rfl rfl

theorem mem_hearUnit (s : State) (u : RUnit) :
    ⟨u.member, u.side, u.mode, u.claim, s.tb.tick⟩ ∈ (hearUnit s u).csc.units := by
  rw [hearUnit_units]
  exact List.mem_append_right _ (List.mem_singleton_self _)

theorem rd_hearUnit {g : Field} {j : Nat} (hj : j < 8192) (hr : ∀ f ∈ recorderFields, g.id ≠ f.id)
    (hroster : g.id ≠ Reg.CSC_ROSTER_UNITS.id) (s : State) (u : RUnit) : rd (hearUnit s u) g j = rd s g j :=
  hearUnit_keeps (p := (rd · g j)) (fun _ _ => rfl) (fun _ => rfl)
    (fun s v => rd_wr_of_id_ne hroster (by decide) hj s v) (fun s c v l => rd_event hr hj s c v l) s u

theorem sameTree_hearUnit (s : State) (u : RUnit) : SameTree s (hearUnit s u) where
  reads f hf j hj := rd_hearUnit (by omega) (by revert f; decide) (by revert f; decide) s u
  accepted := hearUnit_keeps (p := fun t => t.csc.accepted) (fun _ _ => rfl) (fun _ => rfl) (fun _ _ => rfl)
    (fun s c v l => congrArg CscSt.accepted (event_csc s c v l)) s u
  tree := hearUnit_keeps (p := fun t => t.csc.tree) (fun _ _ => rfl) (fun _ => rfl) (fun _ _ => rfl)
    (fun s c v l => congrArg CscSt.tree (event_csc s c v l)) s u
  straps := hearUnit_keeps (p := fun t => t.ssu.straps) (fun _ _ => rfl) (fun _ => rfl) (fun _ _ => rfl)
    (fun s c v l => congrArg SsuSt.straps (event_ssu s c v l)) s u

/-! ### CHELLO -/

/-- The reason for which a link is not accepted, shown. -/
def chelloJudged (s : State) (n : Fin 4) (h : CHello) : State := wr s Reg.CSC_CLSTS_RSN (chelloReason s n.val h) n.val

/-- A link that is accepted. -/
def linkAccepted (s : State) (n : Fin 4) (h : CHello) : State :=
  let t := chelloJudged s n h
  { t with csc := { t.csc with
    accepted := t.csc.accepted.filter (· ≠ n.val) ++ [n.val], far := tput t.csc.far n.val h
    hops := tput t.csc.hops n.val (h.hops, t.tb.tick) } }

/-- A link that is refused. -/
def linkRefused (s : State) (n : Fin 4) (h : CHello) : State :=
  let t := chelloJudged s n h
  { t with csc := { t.csc with accepted := t.csc.accepted.filter (· ≠ n.val) } }

theorem chello_accepted {s u : State} {n : Fin 4} {head : ChordHead} {h : CHello}
    (hnew : clTake s n head true = (u, true)) (hr : chelloReason u n.val h = 0) :
    chello s n head h = reparent (hearUnit (linkAccepted u n h) ⟨h.member, h.side, h.mode, h.claim⟩) := by
  simp only [chello, hnew]
  exact if_pos hr

theorem chello_refused {s u : State} {n : Fin 4} {head : ChordHead} {h : CHello}
    (hnew : clTake s n head true = (u, true)) (hr : chelloReason u n.val h ≠ 0) :
    chello s n head h = reparent (event (linkRefused u n h) Ev.cascadeRefused .warning []) := by
  simp only [chello, hnew]
  exact if_neg hr

theorem chelloReason_le (s : State) (n : Nat) (h : CHello) : chelloReason s n h < 8 := by
  unfold chelloReason
  dsimp only
  split_ifs <;> decide

theorem chelloJudged_rsn (s : State) (n : Fin 4) (h : CHello) :
    rd (chelloJudged s n h) Reg.CSC_CLSTS_RSN n = chelloReason s n.val h :=
  (rd_wr_same _ _ _ _).trans (Nat.mod_eq_of_lt (chelloReason_le s n.val h))

theorem clOk_linkAccepted {s : State} {n : Fin 4} (h : CHello) (hears : linkHears s n) :
    clOk (linkAccepted s n h) n.val = true := by
  obtain ⟨hen, hlock, hm⟩ := hears
  have hread {g : Field} (hg : g.id ≠ Reg.CSC_CLSTS_RSN.id) {j : Nat} (hj : j < 8192) :
      rd (linkAccepted s n h) g j = rd s g j := rd_clField hg s _ n hj
  have hstate : resState (linkAccepted s n h) ⟨.cascade, n.val⟩ = resState s ⟨.cascade, n.val⟩ :=
    congrArg mstateOf (hread (g := Reg.CSC_CLSTS_MSTATE) (by decide) (j := n.val) (by omega))
  have hacc : (linkAccepted s n h).csc.accepted.contains n.val = true := by
    simp [linkAccepted]
  unfold clOk
  rw [rdB_of_rd (hread (g := Reg.CSC_CFG_EN) (by decide) (by decide)),
    rdB_of_rd (hread (g := Reg.CSC_CLSTS_LOCK) (by decide) (j := n.val) (by omega)), hstate, hacc, hen, hlock]
  simpa using hm

theorem clOk_linkRefused (s : State) (n : Fin 4) (h : CHello) : clOk (linkRefused s n h) n.val = false :=
  clOk_of_not_accepted (by simp [linkRefused])

theorem clOk_reparent (s : State) (n : Nat) : clOk (reparent s) n = clOk s n := rfl

/-- What a new CHELLO does. -/
theorem chello_effect {s : State} {n : Fin 4} {head : ChordHead} (h : CHello) (hnew : (clTake s n head true).2 = true) :
    Completes (exec (.chello n head h) s) fun t => rd t Reg.CSC_CLSTS_RSN n = chelloReason s n h ∧
      t.csc.reparent = true ∧ if chelloReason s n h = 0 then tget t.csc.far n = some h ∧ clOk t n.val = true ∧
        ⟨h.member, h.side, h.mode, h.claim, s.tb.tick⟩ ∈ t.csc.units
      else t.csc.far = s.csc.far ∧ clOk t n.val = false := by
  have hview := untaken_of_new (clTake_new hnew)
  have hears := linkHears_of_new hnew
  have htake := clTake_new hnew
  generalize (clTake s n head true).1 = u at *
  have hreason : chelloReason u n.val h = chelloReason s n.val h := (congrArg (chelloReason · n.val h) hview :)
  have htick : u.tb.tick = s.tb.tick := (congrArg (fun t => t.tb.tick) hview :)
  have hears' : linkHears u n := ((congrArg (linkHears · n) hview :) : linkHears u n = linkHears s n).mpr hears
  have hn : n.val < 8192 := by omega
  by_cases hr : chelloReason s n.val h = 0
  · refine ⟨_, congrArg Host.Outcome.next (chello_accepted htake (hreason.trans hr)), ?_, rfl, ?_⟩
    · exact (rd_hearUnit hn (by decide) (by decide) _ _).trans ((chelloJudged_rsn u n h).trans hreason)
    · rw [if_pos hr]
      refine ⟨?_, ?_, ?_⟩
      · have hfar : (hearUnit (linkAccepted u n h) ⟨h.member, h.side, h.mode, h.claim⟩).csc.far =
            tput u.csc.far n.val h := hearUnit_keeps (p := fun t => t.csc.far) (fun _ _ => rfl) (fun _ => rfl)
          (fun _ _ => rfl) (fun s c v l => congrArg CscSt.far (event_csc s c v l)) _ _
        exact (congrArg (tget · n.val) hfar).trans (tget_tput_same _ _ _)
      · exact (clOk_reparent _ _).trans <| ((sameTree_hearUnit _ _).clOk n.isLt).trans (clOk_linkAccepted h hears')
      · rw [← htick]
        exact mem_hearUnit (linkAccepted u n h) ⟨h.member, h.side, h.mode, h.claim⟩
  · refine ⟨_, congrArg Host.Outcome.next (chello_refused htake (hreason.trans_ne hr)), ?_, rfl, ?_⟩
    · exact (rd_event (by decide) hn _ _ _ _).trans ((chelloJudged_rsn u n h).trans hreason)
    · rw [if_neg hr]
      have hsame := SameTree.event (linkRefused u n h) Ev.cascadeRefused .warning []
      have hfar : (event (linkRefused u n h) Ev.cascadeRefused .warning []).csc.far = u.csc.far :=
        (congrArg CscSt.far (event_csc (linkRefused u n h) Ev.cascadeRefused .warning []) :)
      refine ⟨?_, (clOk_reparent _ _).trans <| (hsame.clOk n.isLt).trans (clOk_linkRefused u n h)⟩
      exact hfar.trans (congrArg (fun t => t.csc.far) hview :)

/-! ### The offset of the parent (R35, R325) -/

/-- The fields of the time base that a source and its offset set. -/
def sourceFields : List Field := [Reg.TBC_OFFSET_OFFSET, Reg.TBC_RATE_RATE, Reg.TBC_DSTS_APEXQ, Reg.TBC_DSTS_STEPBLK]

/-- A view of the state in which the Apex source does not show. -/
structure SourceBlind {β : Type} (p : State → β) : Prop where
  field : ∀ f ∈ sourceFields, ∀ s v, p (wr s f v) = p s
  time : ∀ s x, p { s with tb := x } = p s
  free : ∀ s x, p { s with free := x } = p s
  record : ∀ s code sev ps, p (event s code sev ps) = p s

namespace SourceBlind

variable {β : Type} {p : State → β} (h : SourceBlind p)
include h

theorem apexLoss (s : State) : p (apexLoss s) = p s := (h.time _ _).trans (h.field _ (by decide) _ _)

theorem apexQualify (s : State) : p (apexQualify s) = p s := (h.time _ _).trans (h.field _ (by decide) _ _)

theorem neededRate (s : State) (off : Int) : p (neededRate s off).2.2 = p s := by
  exact (h.free _ _).trans (h.free s _)

theorem followSource (s : State) (off : Int) : p (followSource s 2 off) = p s :=
  ite_keeps (p := p) ((h.apexLoss _).trans (h.neededRate s off))
    (ite_keeps (p := p) ((h.field _ (by decide) _ _).trans (h.neededRate s off)) (h.neededRate s off))

theorem blockSource (s : State) : p (blockSource s 2) = p s := by
  have hblocked (t : State) : p t = p s → p (wr t Reg.TBC_DSTS_STEPBLK 1) = p s := (h.field _ (by decide) _ _).trans
  exact ite_keeps (p := p) (hblocked _ ((h.time _ _).trans (h.apexLoss s)))
    ((h.record _ _ _ _).trans (hblocked _ ((h.time _ _).trans (h.apexLoss s))))

theorem sourceOffset (hstep : ∀ s t, p (setTime s t) = p s) (s : State) (off : Int) : p (sourceOffset s 2 off) = p s := by
  have hshown : p (if rd s Reg.TBC_DSTS_SRC = 2 then showOffset s off else s) = p s :=
    ite_keeps (p := p) (h.field _ (by decide) _ _) rfl
  exact ite_keeps (p := p)
    (ite_keeps (p := p) ((hstep _ _).trans ((h.followSource _ _).trans hshown)) ((h.followSource _ _).trans hshown))
    (ite_keeps (p := p) ((h.blockSource _).trans hshown) ((h.followSource _ _).trans hshown))

theorem sourceOffset_unstepped {s : State} (hm : mayStep s = false) (off : Int) : p (Machine.sourceOffset s 2 off) = p s := by
  have hshown : p (if rd s Reg.TBC_DSTS_SRC = 2 then showOffset s off else s) = p s :=
    ite_keeps (p := p) (h.field _ (by decide) _ _) rfl
  have hmode : mayStep (if rd s Reg.TBC_DSTS_SRC = 2 then showOffset s off else s) = false :=
    (ite_keeps (p := mayStep) (mayStep_of_mode (rd_wr_ne (by decide) s _)) rfl).trans hm
  have hunstepped (t : State) (ht : p t = p s) (hm : mayStep t = false) : p (if mayStep t then
      if stepBound ≤ off.natAbs ∧ rd s Reg.TBC_DSTS_SRC ≤ 2 then
        let t := Machine.followSource t 2 0
        setTime t (t.tb.now + off).toNat
      else Machine.followSource t 2 off
    else if 1000000 < off.natAbs then Machine.blockSource t 2 else Machine.followSource t 2 off) = p s := by
    rw [hm, if_neg Bool.false_ne_true]
    exact ite_keeps (p := p) ((h.blockSource t).trans ht) ((h.followSource t off).trans ht)
  exact hunstepped _ hshown hmode

end SourceBlind

/-! ### What the offset of the parent does -/

/-- The offset and the delay of the way from the root, shown. -/
def skewShown (s : State) (total : Nat) (skew : Int) : State :=
  wr (wr s Reg.CSC_SKEW_SKEW (patternOf 32 skew)) Reg.CSC_PATHLAT_PATHLAT total

/-- The time base of a member follows the markers of its parent. -/
def skewFollowed (s : State) (skew : Int) : State :=
  if ownMember s = 0 ∨ s.tb.blockedApex then s
  else
    let s := apexQualify s
    if rdB s Reg.TBC_DISC_APEXEN then sourceOffset s 2 (-skew) else s

theorem skewFollowed_keeps {β : Type} {p : State → β} (h : SourceBlind p) (hstep : ∀ s t, p (setTime s t) = p s)
    (s : State) (skew : Int) : p (skewFollowed s skew) = p s :=
  ite_keeps (p := p) rfl <|
    ite_keeps (p := p) ((h.sourceOffset hstep _ _).trans (h.apexQualify s)) (h.apexQualify s)

/-- Where the time base may not be stepped, what a step would move stays as it was. -/
theorem skewFollowed_unstepped {β : Type} {p : State → β} (h : SourceBlind p) {s : State} (hm : mayStep s = false)
    (skew : Int) : p (skewFollowed s skew) = p s := by
  refine ite_keeps (p := p) rfl (ite_keeps (p := p) ?_ (h.apexQualify s))
  have hmode : mayStep (apexQualify s) = false :=
    (mayStep_of_mode (rd_wr_ne (f := Reg.TBC_DSTS_APEXQ) (by decide) s 1)).trans hm
  exact (h.sourceOffset_unstepped hmode _).trans (h.apexQualify s)

theorem sourceBlind_rd {g : Field} {j : Nat} (hj : j < 8192) (hg : ∀ f ∈ sourceFields ++ recorderFields, g.id ≠ f.id) :
    SourceBlind (rd · g j) where
  field f hf s v := rd_wr_of_id_ne (hg f (List.mem_append_left _ hf)) (by revert f; decide) hj s v
  time _ _ := rfl
  free _ _ := rfl
  record s c v l := rd_event (fun f hf => hg f (List.mem_append_right _ hf)) hj s c v l

theorem sourceBlind_csc {β : Type} (q : CscSt → β) : SourceBlind (fun t => q t.csc) :=
  ⟨fun _ _ _ _ => rfl, fun _ _ => rfl, fun _ _ => rfl, fun s c v l => congrArg q (event_csc s c v l)⟩

theorem sourceBlind_out : SourceBlind State.out :=
  ⟨fun _ _ _ _ => rfl, fun _ _ => rfl, fun _ _ => rfl, event_out⟩

theorem moveSwap_keeps {β : Type} {p : State → β} (hfct : ∀ s x, p { s with fct := x } = p s)
    (hlo : ∀ s v, p (wr s Reg.FCT_SWAPTICK_LO_KF v) = p s) (hhi : ∀ s v, p (wr s Reg.FCT_SWAPTICK_HI_KF v) = p s)
    (s : State) (k : Nat) : p (moveSwap s k) = p s := by
  unfold moveSwap
  split
  · exact (hhi _ _).trans ((hlo _ _).trans (hfct _ _))
  · rfl

theorem setTime_out (s : State) (t : Nat) : (setTime s t).out = s.out :=
  moveSwap_keeps (p := State.out) (fun _ _ => rfl) (fun _ _ => rfl) (fun _ _ => rfl)
    (moveTimes s s.tb.tick (t / tickNs s) s.tb.now t) _

theorem setTime_markSeen (s : State) (t : Nat) : (setTime s t).csc.markSeen = s.csc.markSeen :=
  moveSwap_keeps (p := fun t => t.csc.markSeen) (fun _ _ => rfl) (fun _ _ => rfl) (fun _ _ => rfl)
    (moveTimes s s.tb.tick (t / tickNs s) s.tb.now t) _

/-! ### The tick markers (R325) -/

/-- The marker of a link is noted, with the hops of its sender. -/
def markNoted (s : State) (n : Fin 4) (stamp hops : Nat) : State :=
  let t := advance s stamp
  { t with csc := { t.csc with
    hops := tput t.csc.hops n.val (hops, t.tb.tick), marks := tput t.csc.marks n.val t.tb.tick } }

/-- A marker is the first of its tick. -/
def firstMark (s : State) (k : Nat) : Bool := match s.csc.markSeen with | some m => decide (m < k) | none => true

/-- The first marker of a tick goes on. -/
def markPassed (s : State) (n : Fin 4) (k total : Nat) : State :=
  if firstMark s k then
    sendWhere { s with csc := { s.csc with markSeen := some k }, free := s.free + 1 } (fun m => m ≠ n ∧ clOk s m.val)
      (.tickMark k (total + residence s.free))
  else s

/-- A marker taken, passed on and shown. -/
def markShown (s : State) (n : Fin 4) (k stamp hops total : Nat) : State :=
  showCsc (markPassed (markNoted s n stamp hops) n k total)

theorem tickMark_new {s u : State} {n : Fin 4} {head : ChordHead} (hnew : clTake s n head false = (u, true))
    (hroot : isRoot u = false) (k delay stamp hops : Nat) : tickMark s n head k delay stamp hops =
      let total := delay + (tget u.csc.lat n.val).getD 0
      let t := markShown u n k stamp hops total
      if rd t Reg.CSC_STATUS_PARENT ≠ n.val then t
      else skewFollowed (skewShown t total ((stamp : Int) - total - k * tickNs t)) ((stamp : Int) - total - k * tickNs t) := by
  simp only [tickMark, hnew, hroot]
  rfl

/-- The fields of the cascade's status word that follow the markers. -/
def cscShown : List (Field × Nat) := [(Reg.CSC_STATUS_QUAL, 0), (Reg.CSC_STATUS_MSTATE, 0), (Reg.CSC_STATUS_ROOT, 0),
  (Reg.CSC_STATUS_MEMBER, 0)]

theorem fieldsBut_showCsc (s : State) : FieldsBut s (showCsc s) cscShown := by
  unfold showCsc wrB
  refine FieldsBut.trans ?_ (fieldsBut_wr (by decide) _ _)
  refine FieldsBut.trans ?_ (fieldsBut_wr (by decide) _ _)
  exact FieldsBut.trans (fieldsBut_wr (by decide) s _) (fieldsBut_wr (by decide) _ _)

theorem rd_showCsc {g : Field} {j : Nat} (hj : j < 8192) (hg : ∀ e ∈ cscShown, g.id ≠ e.1.id) (s : State) :
    rd (showCsc s) g j = rd s g j :=
  fieldsBut_showCsc s g j fun e he => key_ne_of_id (hg e he) (by revert e; decide) hj

section

variable (s : State) (n : Fin 4) (k total : Nat)

theorem markPassed_flds : (markPassed s n k total).flds = s.flds :=
  ite_keeps (p := State.flds) ((congrArg State.flds (unsent_sendWhere _ _ _) :).trans rfl) rfl

theorem markPassed_marks : (markPassed s n k total).csc.hops = s.csc.hops ∧
    (markPassed s n k total).csc.marks = s.csc.marks :=
  ⟨ite_keeps (p := fun t => t.csc.hops) ((congrArg (fun t => t.csc.hops) (unsent_sendWhere _ _ _) :).trans rfl) rfl,
    ite_keeps (p := fun t => t.csc.marks) ((congrArg (fun t => t.csc.marks) (unsent_sendWhere _ _ _) :).trans rfl) rfl⟩

variable {s k}

theorem markPassed_old (h : firstMark s k = false) : markPassed s n k total = s := if_neg (by simp [h])

/-- The first marker of a tick goes on by every other link, with the delay so far and what it stayed here. -/
theorem markPassed_first (h : firstMark s k = true) : (markPassed s n k total).csc.markSeen = some k ∧
    ∀ m : Fin 4, m ≠ n → clOk s m = true → ∃ h d, total ≤ d ∧ Out.casc m h (.tickMark k d) ∈
      (markPassed s n k total).out := by
  have hpassed : markPassed s n k total = sendWhere { s with csc := { s.csc with markSeen := some k }, free := s.free + 1 }
      (fun m => m ≠ n ∧ clOk s m.val) (.tickMark k (total + residence s.free)) := if_pos h
  rw [hpassed]
  refine ⟨(congrArg (fun t => t.csc.markSeen) (unsent_sendWhere _ _ _) :), fun m hm hok => ?_⟩
  obtain ⟨head, hsent⟩ := sent_of_where (p := fun m => m ≠ n ∧ clOk s m.val) (m := m) (by simp [hm, hok])
    { s with csc := { s.csc with markSeen := some k }, free := s.free + 1 } (.tickMark k (total + residence s.free))
  exact ⟨head, _, Nat.le_add_right _ _, hsent⟩

end

section

variable (s : State) (n : Fin 4) (k stamp hops total : Nat)

theorem markShown_fieldsBut : FieldsBut s (markShown s n k stamp hops total) cscShown := fun f i hf =>
  (fieldsBut_showCsc _ f i hf).trans (congrArg (rdIn · f i) (markPassed_flds (markNoted s n stamp hops) n k total))

theorem rd_markShown {g : Field} {j : Nat} (hj : j < 8192) (hg : ∀ e ∈ cscShown, g.id ≠ e.1.id) :
    rd (markShown s n k stamp hops total) g j = rd s g j :=
  markShown_fieldsBut s n k stamp hops total g j fun e he => key_ne_of_id (hg e he) (by revert e; decide) hj

theorem markShown_noted : tget (markShown s n k stamp hops total).csc.hops n.val = some (hops, s.tb.tick) ∧
    tget (markShown s n k stamp hops total).csc.marks n.val = some s.tb.tick := by
  obtain ⟨hhops, hmarks⟩ := markPassed_marks (markNoted s n stamp hops) n k total
  exact ⟨(congrArg (tget · n.val) hhops).trans (tget_tput_same _ _ _),
    (congrArg (tget · n.val) hmarks).trans (tget_tput_same _ _ _)⟩

variable {s k}

theorem firstMark_of (h : ∀ m, s.csc.markSeen = some m → m < k) : firstMark s k = true := by
  unfold firstMark
  cases hm : s.csc.markSeen with
  | none => rfl
  | some m => exact decide_eq_true (h m hm)

theorem markShown_first (h : ∀ m, s.csc.markSeen = some m → m < k) :
    (markShown s n k stamp hops total).csc.markSeen = some k ∧ ∀ m : Fin 4, m ≠ n → clOk s m = true →
      ∃ h d, total ≤ d ∧ Out.casc m h (.tickMark k d) ∈ (markShown s n k stamp hops total).out :=
  markPassed_first (s := markNoted s n stamp hops) n total (firstMark_of (s := markNoted s n stamp hops) h)

theorem markShown_old {m : Nat} (hm : s.csc.markSeen = some m) (hk : k ≤ m) :
    (markShown s n k stamp hops total).out = s.out := by
  have hold : firstMark (markNoted s n stamp hops) k = false := by
    have hseen : (markNoted s n stamp hops).csc.markSeen = some m := hm
    unfold firstMark
    rw [hseen]
    exact decide_eq_false (Nat.not_lt.2 hk)
  exact (congrArg State.out (markPassed_old (s := markNoted s n stamp hops) n total hold) :)

end

/-- What the offset of the parent has shown. -/
theorem skewFollowed_reads (s : State) (total : Nat) (skew : Int) :
    rd (skewFollowed (skewShown s total skew) skew) Reg.CSC_PATHLAT_PATHLAT = total % 2 ^ 32 ∧
    rd (skewFollowed (skewShown s total skew) skew) Reg.CSC_SKEW_SKEW = patternOf 32 skew := by
  have hkeep (g : Field) (hg : ∀ f ∈ sourceFields ++ recorderFields, g.id ≠ f.id)
      (hlo : g.key 0 ≠ Reg.FCT_SWAPTICK_LO_KF.key 0) (hhi : g.key 0 ≠ Reg.FCT_SWAPTICK_HI_KF.key 0) :
      rd (skewFollowed (skewShown s total skew) skew) g = rd (skewShown s total skew) g :=
    skewFollowed_keeps (sourceBlind_rd (by decide) hg) (fun s t => rd_setTime hlo hhi s t) _ skew
  have hpattern : patternOf 32 skew % 2 ^ 32 = patternOf 32 skew := by
    refine Nat.mod_eq_of_lt ?_
    unfold patternOf
    omega
  refine ⟨(hkeep _ (by decide) (by decide) (by decide)).trans (rd_wr_same _ _ _ _), ?_⟩
  refine (hkeep _ (by decide) (by decide) (by decide)).trans ?_
  exact (rd_wr_ne (by decide) _ _).trans ((rd_wr_same _ _ _ _).trans hpattern)

/-- What a marker has done, whichever link it came by. -/
structure MarkTaken (s : State) (n : Fin 4) (k hops total : Nat) (t : State) : Prop where
  noted : mayStep s = false → tget t.csc.hops n.val = some (hops, s.tb.tick) ∧ tget t.csc.marks n.val = some s.tb.tick
  first : (∀ m, s.csc.markSeen = some m → m < k) → t.csc.markSeen = some k ∧ ∀ m : Fin 4, m ≠ n →
    clOk s m = true → ∃ h d, total ≤ d ∧ Out.casc m h (.tickMark k d) ∈ t.out
  old : ∀ m, s.csc.markSeen = some m → k ≤ m → t.out = s.out

theorem markTaken_markShown (s : State) (n : Fin 4) (k stamp hops total : Nat) :
    MarkTaken s n k hops total (markShown s n k stamp hops total) where
  noted _ := markShown_noted s n k stamp hops total
  first := markShown_first n stamp hops total
  old _ := markShown_old n stamp hops total

/-- The offset of the parent changes nothing of that. -/
theorem MarkTaken.followed {s t : State} {n : Fin 4} {k hops total : Nat} (h : MarkTaken s n k hops total t)
    (hm : mayStep t = mayStep s) (skew : Int) :
    MarkTaken s n k hops total (skewFollowed (skewShown t total skew) skew) := by
  have hout : (skewFollowed (skewShown t total skew) skew).out = t.out :=
    skewFollowed_keeps sourceBlind_out setTime_out _ skew
  have hseen : (skewFollowed (skewShown t total skew) skew).csc.markSeen = t.csc.markSeen :=
    skewFollowed_keeps (sourceBlind_csc CscSt.markSeen) setTime_markSeen _ skew
  refine ⟨fun hs => ?_, fun hfirst => ?_, fun m hseen' hk => hout.trans (h.old m hseen' hk)⟩
  · have hmode : mayStep (skewShown t total skew) = false :=
      ((mayStep_of_mode ((rd_wr_ne (by decide) _ _).trans (rd_wr_ne (by decide) t _))).trans hm).trans hs
    have hcsc : (skewFollowed (skewShown t total skew) skew).csc = t.csc :=
      skewFollowed_unstepped (sourceBlind_csc id) hmode skew
    rw [hcsc]
    exact h.noted hs
  · rw [hseen, hout]
    exact h.first hfirst

theorem MarkTaken.of_view {s u t : State} {n : Fin 4} {k hops total : Nat} (h : MarkTaken u n k hops total t)
    (hview : untaken u = untaken s) : MarkTaken s n k hops total t := by
  have hm : mayStep u = mayStep s := (congrArg mayStep hview :)
  have htick : u.tb.tick = s.tb.tick := (congrArg (fun t => t.tb.tick) hview :)
  have hseen : u.csc.markSeen = s.csc.markSeen := (congrArg (fun t => t.csc.markSeen) hview :)
  have hok : clOk u = clOk s := (congrArg clOk hview :)
  have hout : u.out = s.out := (congrArg State.out hview :)
  refine ⟨?_, ?_, ?_⟩
  · rw [← hm, ← htick]
    exact h.noted
  · rw [← hseen, ← hok]
    exact h.first
  · rw [← hseen, ← hout]
    exact h.old

theorem tickNs_of_rd {s t : State} (h : rd t Reg.TBC_TICKCFG_TICKLEN = rd s Reg.TBC_TICKCFG_TICKLEN) :
    tickNs t = tickNs s := by
  unfold tickNs
  rw [h]

/-- What a new marker does in a unit that is not the root. -/
theorem tickMark_effect {s : State} {n : Fin 4} {head : ChordHead} (hnew : (clTake s n head false).2 = true)
    (hroot : isRoot s = false) {k delay stamp hops total : Nat} (htotal : total = delay + (tget s.csc.lat n.val).getD 0) :
    Completes (exec (.tickmark n head k delay stamp hops) s) fun t => MarkTaken s n k hops total t ∧
      (rd s Reg.CSC_STATUS_PARENT = n.val → rd t Reg.CSC_PATHLAT_PATHLAT = total % 2 ^ 32 ∧
        rd t Reg.CSC_SKEW_SKEW = patternOf 32 ((stamp : Int) - total - k * tickNs s)) ∧
      (rd s Reg.CSC_STATUS_PARENT ≠ n.val → FieldsBut s t cscShown) := by
  have hview := untaken_of_new (clTake_new hnew)
  have htake := clTake_new hnew
  generalize (clTake s n head false).1 = u at *
  have hexec := tickMark_new htake ((sameTree_of_untaken hview).isRoot.trans hroot) k delay stamp hops
  have hlat : (tget u.csc.lat n.val).getD 0 = (tget s.csc.lat n.val).getD 0 :=
    (congrArg (fun t => (tget t.csc.lat n.val).getD 0) hview :)
  have hflds : u.flds = s.flds := (congrArg State.flds hview :)
  simp only [hlat, ← htotal] at hexec
  have htaken := markTaken_markShown u n k stamp hops total
  have hparent := rd_markShown u n k stamp hops total (g := Reg.CSC_STATUS_PARENT) (j := 0) (by decide) (by decide)
  have hlen : tickNs (markShown u n k stamp hops total) = tickNs u :=
    tickNs_of_rd (rd_markShown u n k stamp hops total (by decide) (by decide))
  have hmay : mayStep (markShown u n k stamp hops total) = mayStep u :=
    mayStep_of_mode (rd_markShown u n k stamp hops total (by decide) (by decide))
  have hfields := markShown_fieldsBut u n k stamp hops total
  generalize markShown u n k stamp hops total = t at *
  have hparent' : rd t Reg.CSC_STATUS_PARENT = rd s Reg.CSC_STATUS_PARENT := hparent.trans (congrArg (rdIn · _ 0) hflds)
  by_cases hp : rd s Reg.CSC_STATUS_PARENT = n.val
  · rw [if_neg (by simp [hparent', hp])] at hexec
    refine ⟨_, congrArg Host.Outcome.next hexec, (htaken.followed hmay _).of_view hview, fun _ => ?_, fun hne => absurd hp hne⟩
    have hns : tickNs t = tickNs s := hlen.trans (tickNs_of_rd (congrArg (rdIn · _ 0) hflds))
    rw [hns]
    exact skewFollowed_reads t total _
  · rw [if_pos (by simp [hparent', hp])] at hexec
    exact ⟨_, congrArg Host.Outcome.next hexec, htaken.of_view hview, fun heq => absurd heq hp, fun _ =>
      fun f i hf => (hfields f i hf).trans (congrArg (rdIn · f i) hflds)⟩

end Sys2Proof.Machine
end

section
/-! SUPPORT. The roster of the cascade, the state of its units and their exports (R323, R324, R328, R332): what the loss of
a member leaves alone, and what goes on along the tree. -/

namespace Sys2Proof.Machine

/-! ### A member lost to a solve (R332) -/

/-- The fields of the solver that the end of a job sets. -/
def jobEndFields : List Field := [Reg.LSV_QSTS_DEPTH, Reg.LSV_QSTS_BUSY, Reg.LSV_PERF_FLOP_LO_FLOP,
  Reg.LSV_PERF_CYC_LO_CYC, Reg.LSV_CANCELSTS_CC, Reg.LSV_CANCELSTS_RSN, Reg.LSV_CANCELSTS_PEND]

/-- A view of the state in which neither the solver nor what it puts out shows. -/
structure SolveBlind {β : Type} (p : State → β) : Prop where
  field : ∀ f ∈ jobEndFields, ∀ s v, p (wr s f v) = p s
  solver : ∀ s x, p { s with lsv := x } = p s
  memory : ∀ s x, p { s with hmx := x } = p s
  free : ∀ s x, p { s with free := x } = p s
  output : ∀ s o, p (emit s o) = p s
  frame : ∀ s n b, p (sendCasc s n b) = p s

namespace SolveBlind

variable {β : Type} {p : State → β} (h : SolveBlind p)
include h

theorem windowWrite (s : State) (a : Nat) (bs : List Byte) : p (windowWrite s a bs) = p s := by
  induction bs generalizing s a with
  | nil => rfl
  | cons b bs ih => exact (ih _ _).trans (h.memory _ _)

theorem deviceWrite (s : State) (a : Nat) (bs : List Byte) : p (deviceWrite s a bs) = p s :=
  ite_keeps (p := p) (h.windowWrite _ _ _) (h.output _ _)

theorem writeReport (s : State) (j : Job) (e : JobEnd) : p (writeReport s j e) = p s := by
  unfold Machine.writeReport
  split
  · exact ite_keeps (p := p) (h.deviceWrite _ _ _) rfl
  · rfl

theorem reachedBy (s : State) (j : Job) : p (reachedBy s j).2 = p s := by
  unfold Machine.reachedBy
  split
  · rfl
  · split
    · rfl
    · exact h.free _ _

theorem setPerf (s : State) (flop cyc : BitVec 64) : p (setPerf s flop cyc) = p s :=
  (h.field _ (by decide) _ _).trans <| (h.field _ (by decide) _ _).trans (h.solver _ _)

theorem cancelEnd (s : State) (code rsn : Nat) : p (cancelEnd s code rsn) = p s :=
  (h.field _ (by decide) _ _).trans <| (h.field _ (by decide) _ _).trans (h.field _ (by decide) _ _)

theorem settleCancel (s : State) (j : Job) (cancelled : Bool) : p (settleCancel s j cancelled) = p s :=
  ite_keeps (p := p) rfl <| ite_keeps (p := p) ((h.cancelEnd _ _ _).trans (h.solver _ _))
    ((h.cancelEnd _ _ _).trans (h.solver _ _))

theorem setHeld (s : State) (l : List Job) : p (setHeld s l) = p s :=
  (h.field _ (by decide) _ _).trans <| (h.field _ (by decide) _ _).trans (h.solver _ _)

theorem writeEntry (s : State) (index : Nat) (entry : List Byte) : p (writeEntry s index entry) = p s :=
  (msix_keeps h.output (fun _ _ => h.memory _ _) _ _).trans <| (h.output _ _).trans <| (h.output _ _).trans <|
    (h.solver _ _).trans <| (h.output _ _).trans (h.output _ _)

theorem closeJob (s : State) (j : Job) (e : JobEnd) (cancelled : Bool) : p (closeJob s j e cancelled) = p s :=
  (h.writeEntry _ _ _).trans <| (h.setHeld _ _).trans <|
    ite_keeps (p := p) ((h.solver _ _).trans (h.settleCancel _ _ _)) (h.settleCancel _ _ _)

theorem haltJob (s : State) (j : Job) (code rsn : Nat) : p (haltJob s j code rsn) = p s := by
  have hreached := (h.writeReport (Machine.reachedBy s j).2 j
    { (Machine.reachedBy s j).1 with code := code, rsn := rsn }).trans (h.reachedBy s j)
  exact (h.closeJob _ _ _ _).trans <|
    ite_keeps (p := p) ((h.setPerf _ _ _).trans ((h.free _ _).trans hreached)) ((h.setPerf _ _ _).trans hreached)

theorem endSolve (s : State) (code rsn : Nat) : p (endSolve s code rsn) = p s := by
  unfold Machine.endSolve
  split
  · rfl
  · have htold := fun c : Coord => (sendParts_keeps h.frame { s with lsv := { s.lsv with cjob := none } } c.joined
      (.finish code rsn)).trans (h.solver s _)
    dsimp only
    split
    · exact (h.haltJob _ _ _ _).trans (htold _)
    · exact htold _

theorem lostMember (s : State) (m : Fin 8) : p (lostMember s m) = p s := by
  unfold Machine.lostMember
  split
  · exact ite_keeps (p := p) (h.endSolve _ _ _) rfl
  · rfl

end SolveBlind

theorem solveBlind_rd {g : Field} {j : Nat} (hj : j < 8192) (hg : ∀ f ∈ jobEndFields, g.id ≠ f.id) :
    SolveBlind (rd · g j) where
  field f hf s v := rd_wr_of_id_ne (hg f hf) (by revert f; decide) hj s v
  solver _ _ := rfl
  memory _ _ := rfl
  free _ _ := rfl
  output _ _ := rfl
  frame _ _ _ := rfl

/-- What a unit knows of the cascade, the numbers of its frames apart, and who it is. -/
def knownView (s : State) : CscSt × SsuSt × RduSt × Nat := ({ s.csc with seqOut := [] }, s.ssu, s.rdu, s.tb.tick)

theorem solveBlind_known : SolveBlind knownView :=
  ⟨fun _ _ _ _ => rfl, fun _ _ => rfl, fun _ _ => rfl, fun _ _ => rfl, fun _ _ => rfl, fun _ _ _ => rfl⟩

theorem sameTree_lostMember (s : State) (m : Fin 8) : SameTree s (lostMember s m) where
  reads f hf j hj := (solveBlind_rd (by omega) (by revert f; decide)).lostMember s m
  accepted := congrArg (fun v => v.1.accepted) (solveBlind_known.lostMember s m)
  tree := congrArg (fun v => v.1.tree) (solveBlind_known.lostMember s m)
  straps := congrArg (fun v => v.2.1.straps) (solveBlind_known.lostMember s m)

/-! ### The roster (R324) -/

/-- A roster taken and shown. -/
def rosterTaken (s : State) (l : List RUnit) : State :=
  wr { s with csc := { s.csc with
    units := (l.filter fun u => !(u.member = ownMember s && u.side = ownSide s)).map fun u =>
      ⟨u.member, u.side, u.mode, u.claim, s.tb.tick⟩ } } Reg.CSC_ROSTER_UNITS (rosterBits l).toNat

/-- The members that are on a roster, but for the parts of a solve in SAVE, have a unit in it. -/
def rosterHas (s : State) (l : List RUnit) (m : Fin 8) : Bool :=
  l.any fun u => decide (u.member = m) && !(u.side = partSide s && u.mode = .save)

/-- The members that are not are lost. -/
def absentLost (s : State) (l : List RUnit) : State :=
  (List.finRange 8).foldl (fun t m => if rosterHas s l m then t else lostMember t m) s

theorem absentLost_keeps {β : Type} {p : State → β} (h : SolveBlind p) (s : State) (l : List RUnit) :
    p (absentLost s l) = p s :=
  foldl_keeps p (f := fun t m => if rosterHas s l m then t else lostMember t m)
    (fun t m => ite_keeps (p := p) rfl (h.lostMember t m)) _ s

theorem sameTree_absentLost (s : State) (l : List RUnit) : SameTree s (absentLost s l) :=
  List.foldlRecOn (motive := SameTree s) _ _ (.refl s) fun t ht m _ => by
    split
    · exact ht
    · exact ht.trans (sameTree_lostMember t m)

theorem sameTree_rosterTaken (s : State) (l : List RUnit) : SameTree s (rosterTaken s l) :=
  SameTree.trans (t := { s with csc := { s.csc with
    units := (l.filter fun u => !(u.member = ownMember s && u.side = ownSide s)).map fun u =>
      ⟨u.member, u.side, u.mode, u.claim, s.tb.tick⟩ } }) ⟨fun _ _ _ _ => rfl, rfl, rfl, rfl⟩
    (.wr (by decide) (by decide) _ _)

theorem rosterRx_parent {s u : State} {n : Fin 4} {head : ChordHead} {l : List RUnit}
    (hnew : clTake s n head false = (u, true)) (hroot : isRoot u = false) (hparent : parentLink u = some n) :
    rosterRx s n head l = sendWhere (reparent (absentLost (rosterTaken u l) l))
      (fun m => m ≠ n ∧ treeLink (absentLost (rosterTaken u l) l) m.val) (.roster l) := by
  simp only [rosterRx, hnew]
  exact if_neg (by simp [hroot, hparent])

theorem rosterRx_other {s u : State} {n : Fin 4} {head : ChordHead} (l : List RUnit)
    (hnew : clTake s n head false = (u, true)) (hparent : parentLink u ≠ some n) : rosterRx s n head l = u := by
  simp only [rosterRx, hnew]
  exact if_pos (by simp [hparent])

theorem rosterBits_shown (s : State) (w : BitVec 16) :
    rd (wr s Reg.CSC_ROSTER_UNITS w.toNat) Reg.CSC_ROSTER_UNITS = w.toNat :=
  (rd_wr_same _ _ _ _).trans (Nat.mod_eq_of_lt w.isLt)

/-- The roster that the parent brings is shown, kept and sent on. -/
theorem roster_effect {s : State} {n : Fin 4} {head : ChordHead} (hnew : (clTake s n head false).2 = true)
    (hroot : isRoot s = false) (l : List RUnit) (hparent : parentLink s = some n) :
    Completes (exec (.roster n head l) s) fun t => rd t Reg.CSC_ROSTER_UNITS = (rosterBits l).toNat ∧
      t.csc.reparent = true ∧ ∀ m : Fin 4, m ≠ n → treeLink s m = true → ∃ h, Out.casc m h (.roster l) ∈ t.out := by
  have hview := untaken_of_new (clTake_new hnew)
  have htake := clTake_new hnew
  generalize (clTake s n head false).1 = u at *
  have hsame := sameTree_of_untaken hview
  have hexec := rosterRx_parent (l := l) htake (hsame.isRoot.trans hroot) (hsame.parentLink.trans hparent)
  have hroster : rd (absentLost (rosterTaken u l) l) Reg.CSC_ROSTER_UNITS = (rosterBits l).toNat :=
    (absentLost_keeps (solveBlind_rd (by decide) (by decide)) _ l).trans (rosterBits_shown _ _)
  have htree := (hsame.trans (sameTree_rosterTaken u l)).trans (sameTree_absentLost (rosterTaken u l) l)
  generalize absentLost (rosterTaken u l) l = v at *
  have hunsent := unsent_sendWhere (reparent v) (fun m => m ≠ n ∧ treeLink v m.val) (.roster l)
  refine ⟨_, congrArg Host.Outcome.next hexec, ?_, ?_, fun m hm hlink => ?_⟩
  · exact (congrArg (rd · Reg.CSC_ROSTER_UNITS) hunsent :).trans hroster
  · exact (congrArg (fun t => t.csc.reparent) hunsent :)
  · exact sent_of_where (p := fun m => m ≠ n ∧ treeLink v m.val) (m := m)
      (by simp [hm, htree.treeLink m.isLt, hlink]) (reparent v) (.roster l)

/-- The root shows its roster and sends it along the tree. -/
theorem rosterBroadcast_effect {s : State} (hroot : isRoot s = true) : Completes (exec .rosterBroadcast s) fun t =>
    rd t Reg.CSC_ROSTER_UNITS = (rosterUnits s).toNat ∧ t.csc.rosterDue = false ∧
      ∀ m : Fin 4, treeLink s m = true → ∃ h, Out.casc m h (.roster (rosterList s)) ∈ t.out := by
  let u : State := { s with csc := { s.csc with rosterDue := false } }
  have hsent : sendRoster s = sendWhere (wr u Reg.CSC_ROSTER_UNITS (rosterUnits s).toNat) (fun m => treeLink u m.val)
    (.roster (rosterList s)) := if_pos hroot
  have hunsent := unsent_sendWhere (wr u Reg.CSC_ROSTER_UNITS (rosterUnits s).toNat) (fun m => treeLink u m.val)
    (.roster (rosterList s))
  refine ⟨_, congrArg Host.Outcome.next hsent, ?_, ?_, fun m hm => ?_⟩
  · exact (congrArg (rd · Reg.CSC_ROSTER_UNITS) hunsent :).trans (rosterBits_shown u _)
  · exact (congrArg (fun t => t.csc.rosterDue) hunsent :)
  · exact sent_of_where (p := fun m => treeLink u m.val) (m := m) hm _ _

/-! ### The state of a unit (R324) -/

/-- The way to a unit, by the link on which its state comes. -/
def wayNoted (s : State) (n : Fin 4) (u : RUnit) : State :=
  { s with csc := { s.csc with routes := tput s.csc.routes (rosterBit u.member u.side) (n, s.tb.tick) } }

theorem showTree_keeps {β : Type} {p : State → β} (htree : ∀ s x, p { s with csc := { s.csc with tree := x } } = p s)
    (hrole : ∀ s v n, n < 4 → p (wr s Reg.CSC_CLSTS_ROLE v n) = p s) (hcsc : ∀ s, p (showCsc s) = p s) (s : State) :
    p (showTree s) = p s :=
  (hcsc _).trans <| (htree _ _).trans <|
    foldl_keeps_mem p (fun n hn t => hrole t _ n (List.mem_range.1 hn)) s

theorem rd_showTree {g : Field} {j : Nat} (hj : j < 8192) (hrole : g.id ≠ Reg.CSC_CLSTS_ROLE.id)
    (hg : ∀ e ∈ cscShown, g.id ≠ e.1.id) (s : State) : rd (showTree s) g j = rd s g j :=
  showTree_keeps (p := (rd · g j)) (fun _ _ => rfl) (fun s v n hn => rd_wr_of_id_ne hrole (by omega) hj s v)
    (rd_showCsc hj hg) s

/-- The state but for its fields and the links of the tree. -/
def besidesTree (s : State) : State := { s with flds := [], csc := { s.csc with tree := [] } }

theorem besidesTree_parts {s t : State} (h : besidesTree t = besidesTree s) : t.csc.accepted = s.csc.accepted ∧
    t.csc.routes = s.csc.routes ∧ t.ssu = s.ssu ∧ t.tb = s.tb ∧ t.out = s.out :=
  ⟨(congrArg (fun t => t.csc.accepted) h :), (congrArg (fun t => t.csc.routes) h :), (congrArg State.ssu h :),
    (congrArg State.tb h :), (congrArg State.out h :)⟩

theorem showTree_parts (s : State) : (showTree s).csc.accepted = s.csc.accepted ∧
    (showTree s).csc.routes = s.csc.routes ∧ (showTree s).ssu = s.ssu ∧ (showTree s).tb = s.tb ∧
    (showTree s).out = s.out :=
  besidesTree_parts (showTree_keeps (p := besidesTree) (fun _ _ => rfl) (fun _ _ _ _ => rfl) (fun _ => rfl) s)

theorem clOk_showTree (s : State) (n : Fin 4) : clOk (showTree s) n.val = clOk s n.val :=
  clOk_of (rd_showTree (by decide) (by decide) (by decide) s) (rd_showTree (by omega) (by decide) (by decide) s)
    (rd_showTree (by omega) (by decide) (by decide) s) (by
      obtain ⟨hacc, -, -, -, -⟩ := showTree_parts s
      exact hacc)

theorem parentLink_showTree (s : State) : parentLink (showTree s) = parentLink s := by
  unfold parentLink
  rw [rd_showTree (by decide) (by decide) (by decide)]

theorem isRoot_showTree (s : State) : isRoot (showTree s) = isRoot s := by
  obtain ⟨-, -, hssu, -, -⟩ := showTree_parts s
  have hown : ownMember (showTree s) = ownMember s := congrArg (fun x => x.straps.cscId) hssu
  unfold isRoot
  rw [rdB_of_rd (rd_showTree (by decide) (by decide) (by decide) s), hown,
    rdB_of_rd (rd_showTree (by decide) (by decide) (by decide) s),
    modeIs_of_rd (rd_showTree (by decide) (by decide) (by decide) s)]

theorem partSide_of {s t : State} (hpair : rd t Reg.RDU_CFG_PAIRED = rd s Reg.RDU_CFG_PAIRED)
    (hstraps : t.ssu.straps = s.ssu.straps) : partSide t = partSide s := by
  have hside : ownSide t = ownSide s := congrArg Straps.side hstraps
  unfold partSide
  rw [rdB_of_rd hpair, hside]

section

variable {s u : State} {n : Fin 4} {head : ChordHead} {r : RUnit} (hnew : clTake s n head false = (u, true))
include hnew

theorem stateRx_forward {m : Fin 4} (hroot : isRoot u = false) (hm : m ≠ n) (hparent : parentLink u = some m)
    (hok : clOk u m.val = true) : stateRx s n head r = sendCasc (showTree (wayNoted u n r)) m (.state r) := by
  have hroot' : isRoot (showTree (wayNoted u n r)) = false := (isRoot_showTree _).trans hroot
  have hparent' : parentLink (showTree (wayNoted u n r)) = some m := (parentLink_showTree _).trans hparent
  have hok' : clOk (showTree (wayNoted u n r)) m.val = true := (clOk_showTree _ m).trans hok
  have hsent : (if isRoot (showTree (wayNoted u n r)) = true then
      if r.mode = .save ∧ r.side = partSide (hearUnit (showTree (wayNoted u n r)) r) then
        lostMember (hearUnit (showTree (wayNoted u n r)) r) r.member
      else hearUnit (showTree (wayNoted u n r)) r
    else match parentLink (showTree (wayNoted u n r)) with
      | some m => if clOk (showTree (wayNoted u n r)) m.val then sendCasc (showTree (wayNoted u n r)) m (.state r)
        else showTree (wayNoted u n r)
      | none => showTree (wayNoted u n r)) = sendCasc (showTree (wayNoted u n r)) m (.state r) := by
    rw [if_neg (by simp [hroot']), hparent']
    exact if_pos hok'
  simp only [stateRx, hnew]
  exact (if_neg (by simp [hparent, hm])).trans hsent

theorem stateRx_root (hroot : isRoot u = true) (hparent : parentLink u ≠ some n)
    (hstays : r.mode ≠ .save ∨ r.side ≠ partSide u) :
    stateRx s n head r = hearUnit (showTree (wayNoted u n r)) r := by
  have hroot' : isRoot (showTree (wayNoted u n r)) = true := (isRoot_showTree _).trans hroot
  obtain ⟨-, -, hssu, -, -⟩ := showTree_parts (wayNoted u n r)
  have hside : partSide (hearUnit (showTree (wayNoted u n r)) r) = partSide u :=
    partSide_of ((rd_hearUnit (by decide) (by decide) (by decide) _ r).trans
      (rd_showTree (by decide) (by decide) (by decide) _))
      ((sameTree_hearUnit _ r).straps.trans (congrArg SsuSt.straps hssu))
  simp only [stateRx, hnew]
  refine (if_neg (by simp [hparent])).trans ((if_pos hroot').trans (if_neg ?_))
  rintro ⟨hsave, hside'⟩
  exact hstays.elim (absurd hsave) (absurd (hside'.trans hside))

end

/-- A unit that is not the root sends the state of another on towards it. -/
theorem stateForward_effect {s : State} {n m : Fin 4} {head : ChordHead} (hnew : (clTake s n head false).2 = true)
    (hroot : isRoot s = false) (r : RUnit) (hm : m ≠ n) (hparent : parentLink s = some m)
    (hok : clOk s m.val = true) : Completes (exec (.stateFrame n head r) s) fun t =>
      (∃ h, t.out = s.out ++ [.casc m h (.state r)]) ∧
        tget t.csc.routes (rosterBit r.member r.side) = some (n, s.tb.tick) := by
  have hview := untaken_of_new (clTake_new hnew)
  have htake := clTake_new hnew
  generalize (clTake s n head false).1 = u at *
  have hsame := sameTree_of_untaken hview
  have htick : u.tb.tick = s.tb.tick := (congrArg (fun t => t.tb.tick) hview :)
  have hout : u.out = s.out := (congrArg State.out hview :)
  have hexec := stateRx_forward (r := r) htake (hsame.isRoot.trans hroot) hm (hsame.parentLink.trans hparent)
    ((hsame.clOk m.isLt).trans hok)
  obtain ⟨-, hroutes, -, -, hshown⟩ := showTree_parts (wayNoted u n r)
  generalize showTree (wayNoted u n r) = v at *
  refine ⟨_, congrArg Host.Outcome.next hexec, ⟨frameHead v false ((tget v.csc.seqOut m.val).getD 0) v.tb.tick, ?_⟩, ?_⟩
  · exact congrArg (· ++ _) (hshown.trans hout)
  · rw [← htick]
    exact (congrArg (tget · (rosterBit r.member r.side)) hroutes).trans (tget_tput_same _ _ _)

/-- The root takes the state of a unit. -/
theorem stateRoot_effect {s : State} {n : Fin 4} {head : ChordHead} (hnew : (clTake s n head false).2 = true)
    (hroot : isRoot s = true) (r : RUnit) (hparent : parentLink s ≠ some n)
    (hstays : r.mode ≠ .save ∨ r.side ≠ partSide s) : Completes (exec (.stateFrame n head r) s) fun t =>
      ⟨r.member, r.side, r.mode, r.claim, s.tb.tick⟩ ∈ t.csc.units ∧ t.out = s.out := by
  have hview := untaken_of_new (clTake_new hnew)
  have htake := clTake_new hnew
  generalize (clTake s n head false).1 = u at *
  have hsame := sameTree_of_untaken hview
  have htick : u.tb.tick = s.tb.tick := (congrArg (fun t => t.tb.tick) hview :)
  have hout : u.out = s.out := (congrArg State.out hview :)
  have hexec := stateRx_root (r := r) htake (hsame.isRoot.trans hroot) (hsame.parentLink.trans_ne hparent)
    (by rwa [partSide_of_untaken hview])
  obtain ⟨-, -, -, htb, hshown⟩ := showTree_parts (wayNoted u n r)
  have hnow : (showTree (wayNoted u n r)).tb.tick = s.tb.tick := (congrArg TbSt.tick htb).trans htick
  generalize showTree (wayNoted u n r) = v at *
  refine ⟨_, congrArg Host.Outcome.next hexec, ?_, ?_⟩
  · rw [← hnow]
    exact mem_hearUnit v r
  · have hheard : (hearUnit v r).out = v.out := hearUnit_keeps (p := State.out) (fun _ _ => rfl) (fun _ => rfl)
      (fun _ _ => rfl) event_out v r
    exact hheard.trans (hshown.trans hout)

/-! ### Exports (R328) -/

theorem submit_own (s : State) (stamp source ident : Nat) (b : InBody) :
    (submit s stamp source ident b).rdu.own =
      listPut s.rdu.own (tickOf s stamp) ⟨stamp, ⟨source, ident⟩, ownSide s, b⟩ := by
  unfold submit
  dsimp only
  split <;> rfl

theorem outKept_submit (s : State) (stamp source ident : Nat) (b : InBody) :
    OutKept s (submit s stamp source ident b) := by
  unfold submit
  dsimp only
  split
  · exact ⟨_, sendChord_out _ _ _ _ _⟩
  · exact .refl s

/-- What a unit exports, sent on along the tree. -/
def exportPassed (s : State) (n : Fin 4) (b : InBody) : State :=
  sendWhere s (fun m => m ≠ n ∧ treeLink s m.val) (.exported b)

theorem exportRx_tree {s u : State} {n : Fin 4} {head : ChordHead} (hnew : clTake s n head false = (u, true))
    (hlink : treeLink u n.val = true) (stamp member : Nat) (side : Side) (b : InBody) :
    exportRx s n head stamp member side b =
      submit (exportPassed (advance u stamp) n b) stamp 68 (member + (if side then 8 else 0)) b := by
  simp only [exportRx, hnew]
  exact if_neg (by simp [hlink])

/-- What is sent on leaves the state of which it becomes an input. -/
theorem exportPassed_parts (s : State) (n : Fin 4) (b : InBody) : (exportPassed s n b).rdu = s.rdu ∧
    (exportPassed s n b).ssu = s.ssu ∧ (exportPassed s n b).flds = s.flds := by
  have hunsent := unsent_sendWhere s (fun m => m ≠ n ∧ treeLink s m.val) (.exported b)
  exact ⟨(congrArg State.rdu hunsent :), (congrArg State.ssu hunsent :), (congrArg State.flds hunsent :)⟩

theorem export_effect {s : State} {n : Fin 4} {head : ChordHead} (hnew : (clTake s n head false).2 = true)
    (hlink : treeLink s n.val = true) (m : Fin 8) (side : Side) (c : BitVec 32) (k stamp : Nat) (l : List Elem) :
    Completes (exec (.exportFrame n head m side c k stamp l) s) fun t =>
      t.rdu.own = listPut s.rdu.own (tickOf s stamp)
        ⟨stamp, ⟨68, m.val + (if side then 8 else 0)⟩, ownSide s, .exported m side c k l⟩ ∧
      ∀ x : Fin 4, x ≠ n → treeLink s x = true → ∃ h, Out.casc x h (.exported (.exported m side c k l)) ∈ t.out := by
  have hview := untaken_of_new (clTake_new hnew)
  have htake := clTake_new hnew
  generalize (clTake s n head false).1 = u at *
  have hsame := sameTree_of_untaken hview
  have hexec := exportRx_tree htake ((hsame.treeLink n.isLt).trans hlink) stamp m.val side (.exported m side c k l)
  obtain ⟨hrdu, hssu, hflds⟩ := exportPassed_parts (advance u stamp) n (.exported m side c k l)
  have hsent := fun x : Fin 4 => sent_of_where (p := fun m => m ≠ n ∧ treeLink (advance u stamp) m.val) (m := x)
  have hown : u.rdu.own = s.rdu.own := (congrArg (fun t => t.rdu.own) hview :)
  have hside : ownSide u = ownSide s := (congrArg ownSide hview :)
  have htick : tickOf u stamp = tickOf s stamp := (congrArg (tickOf · stamp) hview :)
  refine ⟨_, congrArg Host.Outcome.next hexec, ?_, fun x hx hxlink => ?_⟩
  · have hside' : ownSide (exportPassed (advance u stamp) n (.exported m side c k l)) = ownSide s :=
      (congrArg (fun x => x.straps.side) hssu).trans hside
    have htick' : tickOf (exportPassed (advance u stamp) n (.exported m side c k l)) stamp = tickOf s stamp :=
      (congrArg (stamp / ·) (tickNs_of_rd (congrArg (rdIn · _ 0) hflds))).trans htick
    have hown' : (exportPassed (advance u stamp) n (.exported m side c k l)).rdu.own = s.rdu.own :=
      (congrArg RduSt.own hrdu).trans hown
    rw [submit_own, hside', htick', hown']
  · obtain ⟨h, hmem⟩ := hsent x (by
      have hlink' : treeLink (advance u stamp) x.val = true := (hsame.treeLink x.isLt).trans hxlink
      simp [hx, hlink']) (advance u stamp) (.exported (.exported m side c k l))
    exact ⟨h, (outKept_submit _ _ _ _ _).mem hmem⟩

/-! ### A unit lost (R324) -/

/-- A unit off the list of those known, and the way to it forgotten. -/
def unitGone (s : State) (u : CUnit) (member : Fin 8) (side : Side) : State :=
  { s with csc := { s.csc with
    units := s.csc.units.erase u, routes := tdel s.csc.routes (rosterBit member side) } }

/-- The loss of a unit is recorded and shown in the roster. -/
def lossShown (s : State) (u : CUnit) (member : Fin 8) (side : Side) : State :=
  rosterChange (event (unitGone s u member side) Ev.memberLost .warning [])

theorem rosterUnits_of {s t : State} (hm : rd t Reg.SSU_MODE_MODE = rd s Reg.SSU_MODE_MODE)
    (hstraps : t.ssu.straps = s.ssu.straps) (hrdu : t.rdu = s.rdu) (hunits : t.csc.units = s.csc.units) :
    rosterUnits t = rosterUnits s := by
  have hown : ownMember t = ownMember s := congrArg Straps.cscId hstraps
  have hside : ownSide t = ownSide s := congrArg Straps.side hstraps
  unfold rosterUnits rosterList myUnit myClaim
  rw [hown, hside, modeIs_of_rd hm, hrdu, hunits]

theorem rosterChange_shows (s : State) :
    rd (rosterChange s) Reg.CSC_ROSTER_UNITS = (rosterUnits (rosterChange s)).toNat := by
  have hsame : rosterUnits (rosterChange s) = rosterUnits s :=
    rosterUnits_of (rd_wr_ne (f := Reg.CSC_ROSTER_UNITS) (by decide) _ _) rfl rfl rfl
  rw [hsame]
  exact rosterBits_shown { s with csc := { s.csc with rosterDue := true } } (rosterUnits s)

theorem lossShown_parts (s : State) (u : CUnit) (member : Fin 8) (side : Side) :
    (lossShown s u member side).csc.units = s.csc.units.erase u ∧
      (lossShown s u member side).csc.rosterDue = true :=
  ⟨(congrArg CscSt.units (event_csc (unitGone s u member side) Ev.memberLost .warning []) :), rfl⟩

theorem memberLost_due {s : State} {member : Fin 8} {side : Side} {u : CUnit}
    (hu : (s.csc.units.find? fun v => v.member = member && v.side = side) = some u) (hroot : isRoot s = true)
    (hdue : u.last + 3 ≤ s.tb.tick) : memberLost s member side =
      if (lossShown s u member side).csc.units.any (·.member = member) then lossShown s u member side
      else lostMember (lossShown s u member side) member := by
  simp only [memberLost, hu]
  exact if_neg (by simp [hroot, hdue])

theorem memberLost_before {s : State} {member : Fin 8} {side : Side} {u : CUnit}
    (hu : (s.csc.units.find? fun v => v.member = member && v.side = side) = some u)
    (hbefore : s.tb.tick < u.last + 3) : memberLost s member side = s := by
  simp only [memberLost, hu]
  exact if_pos (Or.inr hbefore)

/-- A unit that the root loses is off its roster. -/
theorem memberLost_effect {s : State} {member : Fin 8} {side : Side} {u : CUnit}
    (hu : (s.csc.units.find? fun v => v.member = member && v.side = side) = some u) (hroot : isRoot s = true)
    (hdue : u.last + 3 ≤ s.tb.tick) : Completes (exec (.memberLost member side) s) fun t =>
      t.csc.units = s.csc.units.erase u ∧ rd t Reg.CSC_ROSTER_UNITS = (rosterUnits t).toNat ∧
        t.csc.rosterDue = true := by
  obtain ⟨hunits, hrosterDue⟩ := lossShown_parts s u member side
  have hshown : rd (lossShown s u member side) Reg.CSC_ROSTER_UNITS =
      (rosterUnits (lossShown s u member side)).toNat := rosterChange_shows _
  have hexec := memberLost_due hu hroot hdue
  generalize lossShown s u member side = v at *
  refine ⟨_, congrArg Host.Outcome.next hexec, ?_⟩
  split
  · exact ⟨hunits, hshown, hrosterDue⟩
  · have hknown := solveBlind_known.lostMember v member
    have hmode := (solveBlind_rd (g := Reg.SSU_MODE_MODE) (j := 0) (by decide) (by decide)).lostMember v member
    have hroster := (solveBlind_rd (g := Reg.CSC_ROSTER_UNITS) (j := 0) (by decide) (by decide)).lostMember v member
    have hlist : (lostMember v member).csc.units = v.csc.units := congrArg (fun x => x.1.units) hknown
    have hsame : rosterUnits (lostMember v member) = rosterUnits v :=
      rosterUnits_of hmode (congrArg (fun x => x.2.1.straps) hknown) (congrArg (fun x => x.2.2.1) hknown) hlist
    refine ⟨hlist.trans hunits, ?_, ?_⟩
    · rw [hsame]
      exact hroster.trans hshown
    · exact (congrArg (fun x => x.1.rosterDue) hknown).trans hrosterDue

/-! ### The obligation -/

theorem latency_cascade {s : State} {n : Fin 4} (hlock : rdB s Reg.CSC_CLSTS_LOCK n = true) (lat : Nat) :
    exec (.latencyMeasure (.cascade n) lat) s = .next { s with csc := { s.csc with lat := tput s.csc.lat n.val lat } } :=
  congrArg Host.Outcome.next (if_pos hlock)

/-- Settles O54: a frame of a link counts once, and then by what the unit knows of the tree. -/
theorem cascadeEvents : Obligations.CascadeEvents := by
  refine fun s n => ⟨fun hen hm lanes lat hl => cascadeTrained_effect hen hm hl lat, ⟨_, rfl, ?_⟩, cascadeCrc_effect,
    latency_cascade, fun l hl => ⟨fun hnil => ?_, fun hne => ?_⟩, fun hen hlock hm head => ?_,
    fun head h hnew => chello_effect h hnew, fun head hnew => ⟨fun hroot => ⟨?_, fun l => ⟨roster_effect hnew hroot l,
      fun hparent => ?_⟩, fun m u hm hparent hok => stateForward_effect hnew hroot u hm hparent hok⟩,
      fun hroot hparent u hstays => stateRoot_effect hnew hroot u hparent hstays,
      fun hlink u side c k stamp l => export_effect hnew hlink u side c k stamp l⟩,
    fun hroot => ⟨rosterBroadcast_effect hroot, fun m side u hu => ⟨memberLost_effect hu hroot, fun hbefore =>
      congrArg Host.Outcome.next (memberLost_before hu hbefore)⟩⟩⟩
  · obtain ⟨hlock, hlanes, hrole⟩ := clDown_reads s n
    exact ⟨hlock, hlanes, hrole, clOk_of_not_accepted (dropped_not_accepted s n.val), rfl⟩
  · exact congrArg Host.Outcome.next (askGaps_none (hl.symm.trans hnil))
  · exact ⟨_, congrArg Host.Outcome.next (askGaps_some hl hne), rfl, gapsAsked_asked s n⟩
  · have hears : linkHears s n := ⟨hen, hlock, hm⟩
    refine ⟨fun hnone => ?_, fun f hf hnewer => ?_, fun f hf hold hgap h => ⟨?_, ?_⟩⟩
    · exact ⟨_, congrArg (fun x => Host.Outcome.next (Prod.fst x)) (clTake_first hears head hnone),
        tget_tput_same _ _ _, rfl⟩
    · exact ⟨_, congrArg (fun x => Host.Outcome.next (Prod.fst x)) (clTake_newer hears head hf hnewer),
        tget_tput_same _ _ _, rfl⟩
    · refine congrArg Host.Outcome.next ?_
      simp only [chello, clTake_repeat hears head hf hold hgap]
      exact if_pos rfl
    · exact congrArg (fun x => Host.Outcome.next (Prod.fst x)) (clTake_repeat hears head hf hold hgap)
  · intro k delay stamp hops total htotal
    obtain ⟨t, ht, hmark, hoffset, hother⟩ := tickMark_effect (k := k) (stamp := stamp) (hops := hops) hnew hroot htotal
    exact ⟨t, ht, hmark.noted, hoffset, hother, hmark.first, hmark.old⟩
  · exact congrArg Host.Outcome.next (rosterRx_other l (clTake_new hnew)
      ((sameTree_of_untaken (untaken_of_new (clTake_new hnew))).parentLink.trans_ne hparent))

end Sys2Proof.Machine
end
